-- ==== Sys2Proof/Word.lean ====
section
/-! DEFINITION. The word types of the LQ4 and their plainest arithmetic. -/

namespace Sys2Proof

/-- One byte of memory (01_device R15). -/
abbrev Byte := BitVec 8

/-- One lane of a vector register (06_vector R97). -/
abbrev Lane := BitVec 32

/-- A scalar register, queue entry, counter or accumulator word (05_control R77). -/
abbrev Word := BitVec 64

/-- A 16-bit parcel of program text (04_encoding R48). -/
abbrev Parcel := BitVec 16

end Sys2Proof
end

