-- ==== Sys2Proof/Syntax.lean ====
section
/-! DEFINITION. The steps of the LQ4, one constructor per row of spec/opcode_table.json. A row with an encoding carries the
fields of its row (04_encoding R58), the delay count `y` first where the word has one. A row without bits (a device step, a
host command, a packet) carries what names it: a command record by its physical address, a packet by its header flit and
payload (21_link R322). -/

namespace Sys2Proof

/-- R324: what a flit carries for the reverse direction: the sequence number that it acknowledges, and the one from which it asks for a
replay. -/
structure FlitAck where
  upTo : BitVec 12
  again : Option (BitVec 12)
  deriving DecidableEq, Repr

/-- One step of the module: an item of the program text or an event row of the opcode table. -/
inductive Instr where
  /-- NOP_C (R96). -/
  | nopC (y : BitVec 2)
  /-- ADD (R79). -/
  | add (y : BitVec 2) (d : BitVec 5) (a : BitVec 5) (b : BitVec 5)
  /-- SUB (R79). -/
  | sub (y : BitVec 2) (d : BitVec 5) (a : BitVec 5) (b : BitVec 5)
  /-- MUL (R79). -/
  | mul (y : BitVec 2) (d : BitVec 5) (a : BitVec 5) (b : BitVec 5)
  /-- MULH (R79). -/
  | mulh (y : BitVec 2) (d : BitVec 5) (a : BitVec 5) (b : BitVec 5)
  /-- MULHN (R79). -/
  | mulhn (y : BitVec 2) (d : BitVec 5) (a : BitVec 5) (b : BitVec 5)
  /-- DIV (R80). -/
  | div (y : BitVec 2) (d : BitVec 5) (a : BitVec 5) (b : BitVec 5)
  /-- DIVN (R80). -/
  | divn (y : BitVec 2) (d : BitVec 5) (a : BitVec 5) (b : BitVec 5)
  /-- REM (R80). -/
  | rem (y : BitVec 2) (d : BitVec 5) (a : BitVec 5) (b : BitVec 5)
  /-- REMN (R80). -/
  | remn (y : BitVec 2) (d : BitVec 5) (a : BitVec 5) (b : BitVec 5)
  /-- AND (R79). -/
  | and (y : BitVec 2) (d : BitVec 5) (a : BitVec 5) (b : BitVec 5)
  /-- OR (R79). -/
  | or (y : BitVec 2) (d : BitVec 5) (a : BitVec 5) (b : BitVec 5)
  /-- XOR (R79). -/
  | xor (y : BitVec 2) (d : BitVec 5) (a : BitVec 5) (b : BitVec 5)
  /-- SHL (R79). -/
  | shl (y : BitVec 2) (d : BitVec 5) (a : BitVec 5) (b : BitVec 5)
  /-- SHR (R79). -/
  | shr (y : BitVec 2) (d : BitVec 5) (a : BitVec 5) (b : BitVec 5)
  /-- SAR (R79). -/
  | sar (y : BitVec 2) (d : BitVec 5) (a : BitVec 5) (b : BitVec 5)
  /-- SLT (R79). -/
  | slt (y : BitVec 2) (d : BitVec 5) (a : BitVec 5) (b : BitVec 5)
  /-- SLTN (R79). -/
  | sltn (y : BitVec 2) (d : BitVec 5) (a : BitVec 5) (b : BitVec 5)
  /-- MIN (R79). -/
  | min (y : BitVec 2) (d : BitVec 5) (a : BitVec 5) (b : BitVec 5)
  /-- MAX (R79). -/
  | max (y : BitVec 2) (d : BitVec 5) (a : BitVec 5) (b : BitVec 5)
  /-- MINN (R79). -/
  | minn (y : BitVec 2) (d : BitVec 5) (a : BitVec 5) (b : BitVec 5)
  /-- MAXN (R79). -/
  | maxn (y : BitVec 2) (d : BitVec 5) (a : BitVec 5) (b : BitVec 5)
  /-- FSH (R79). -/
  | fsh (y : BitVec 2) (d : BitVec 5) (a : BitVec 5) (b : BitVec 5) (x : BitVec 5)
  /-- SEL (R79). -/
  | sel (y : BitVec 2) (d : BitVec 5) (a : BitVec 5) (b : BitVec 5) (p : BitVec 3)
  /-- ADDI (R81). -/
  | addi (y : BitVec 2) (d : BitVec 5) (a : BitVec 5) (k : BitVec 10)
  /-- ANDI (R81). -/
  | andi (y : BitVec 2) (d : BitVec 5) (a : BitVec 5) (k : BitVec 10)
  /-- ORI (R81). -/
  | ori (y : BitVec 2) (d : BitVec 5) (a : BitVec 5) (k : BitVec 10)
  /-- XORI (R81). -/
  | xori (y : BitVec 2) (d : BitVec 5) (a : BitVec 5) (k : BitVec 10)
  /-- SHLI (R81). -/
  | shli (y : BitVec 2) (d : BitVec 5) (a : BitVec 5) (k : BitVec 6)
  /-- SHRI (R81). -/
  | shri (y : BitVec 2) (d : BitVec 5) (a : BitVec 5) (k : BitVec 6)
  /-- SARI (R81). -/
  | sari (y : BitVec 2) (d : BitVec 5) (a : BitVec 5) (k : BitVec 6)
  /-- SLTI (R81). -/
  | slti (y : BitVec 2) (d : BitVec 5) (a : BitVec 5) (k : BitVec 10)
  /-- EXT (R81). -/
  | ext (y : BitVec 2) (d : BitVec 5) (a : BitVec 5) (l : BitVec 4) (p : BitVec 6)
  /-- INS (R81). -/
  | ins (y : BitVec 2) (d : BitVec 5) (a : BitVec 5) (l : BitVec 4) (p : BitVec 6)
  /-- CLZ (R79). -/
  | clz (y : BitVec 2) (d : BitVec 5) (a : BitVec 5)
  /-- CTZ (R79). -/
  | ctz (y : BitVec 2) (d : BitVec 5) (a : BitVec 5)
  /-- POPC (R79). -/
  | popc (y : BitVec 2) (d : BitVec 5) (a : BitVec 5)
  /-- LIH (R82). -/
  | lih (y : BitVec 2) (d : BitVec 5) (k : BitVec 15)
  /-- CMP_CC (R83). -/
  | cmpCc (y : BitVec 2) (d : BitVec 3) (a : BitVec 5) (b : BitVec 5) (c : BitVec 3)
  /-- CMPI_CC (R83). -/
  | cmpiCc (c : BitVec 3) (y : BitVec 2) (d : BitVec 3) (a : BitVec 5) (k : BitVec 10)
  /-- B_CC (R87). -/
  | bCc (c : BitVec 3) (y : BitVec 2) (d : BitVec 5) (a : BitVec 5) (k : BitVec 10)
  /-- B_CC_A (R85). -/
  | bCcA (c : BitVec 3) (y : BitVec 2) (d : BitVec 5) (a : BitVec 5) (k : BitVec 10)
  /-- BR (R87). -/
  | br (y : BitVec 2) (k : BitVec 20)
  /-- CALL (R88). -/
  | call (y : BitVec 2) (k : BitVec 20)
  /-- RET (R88). -/
  | ret (y : BitVec 2)
  /-- JR (R87). -/
  | jr (y : BitVec 2) (d : BitVec 5)
  /-- QPUSH (R92). -/
  | qpush (y : BitVec 2) (d : BitVec 4) (a : BitVec 5)
  /-- QPOP (R92). -/
  | qpop (y : BitVec 2) (d : BitVec 5) (a : BitVec 4)
  /-- QPEEK (R92). -/
  | qpeek (y : BitVec 2) (d : BitVec 5) (a : BitVec 4)
  /-- QBIND (R91). -/
  | qbind (y : BitVec 2) (d : BitVec 4) (p : BitVec 5) (c : BitVec 5)
  /-- LD (R158). -/
  | ld (y : BitVec 2) (t : BitVec 5) (b : BitVec 5) (h : BitVec 1) (w : BitVec 3) (i : BitVec 1) (x : BitVec 5)
  /-- ST (R158). -/
  | st (y : BitVec 2) (t : BitVec 5) (b : BitVec 5) (h : BitVec 1) (w : BitVec 3) (i : BitVec 1) (x : BitVec 5)
  /-- XLATE (R161). -/
  | xlate (y : BitVec 2) (d : BitVec 4) (a : BitVec 5)
  /-- HDROP (R161). -/
  | hdrop (y : BitVec 2) (d : BitVec 4)
  /-- HCHK (R162). -/
  | hchk (y : BitVec 2) (d : BitVec 5) (a : BitVec 4)
  /-- SEAL (R163). -/
  | sealPages (y : BitVec 2) (d : BitVec 5) (a : BitVec 5)
  /-- UNSEAL (R163). -/
  | unsealPages (y : BitVec 2) (d : BitVec 5) (a : BitVec 5)
  /-- BIND (R164). -/
  | bind (y : BitVec 2) (a : BitVec 5) (k : BitVec 10)
  /-- UNBIND (R164). -/
  | unbind (y : BitVec 2) (k : BitVec 10)
  /-- ACQ (R166). -/
  | acq (y : BitVec 2) (d : BitVec 5) (p : BitVec 3) (e : BitVec 1)
  /-- REL (R166). -/
  | rel (y : BitVec 2) (d : BitVec 5)
  /-- FENCE (R169). -/
  | fence (y : BitVec 2) (s : BitVec 3)
  /-- TLOOK (R171). -/
  | tlook (y : BitVec 2) (d : BitVec 5) (a : BitVec 5)
  /-- TSET (R171). -/
  | tset (y : BitVec 2) (d : BitVec 5) (a : BitVec 5) (b : BitVec 5) (z : BitVec 3)
  /-- TCLR (R171). -/
  | tclr (y : BitVec 2) (d : BitVec 5) (l : BitVec 1)
  /-- AADD (R173). -/
  | aadd (y : BitVec 2) (t : BitVec 5) (b : BitVec 5) (h : BitVec 1) (w : BitVec 2) (s : BitVec 3) (q : BitVec 1)
  /-- AXCHG (R173). -/
  | axchg (y : BitVec 2) (t : BitVec 5) (b : BitVec 5) (h : BitVec 1) (w : BitVec 2) (s : BitVec 3)
  /-- ACAS (R173). -/
  | acas (y : BitVec 2) (t : BitVec 5) (b : BitVec 5) (h : BitVec 1) (w : BitVec 2) (s : BitVec 3)
  /-- AMIN (R173). -/
  | amin (y : BitVec 2) (t : BitVec 5) (b : BitVec 5) (h : BitVec 1) (w : BitVec 2) (s : BitVec 3)
  /-- AMAX (R173). -/
  | amax (y : BitVec 2) (t : BitVec 5) (b : BitVec 5) (h : BitVec 1) (w : BitVec 2) (s : BitVec 3)
  /-- AAND (R173). -/
  | aand (y : BitVec 2) (t : BitVec 5) (b : BitVec 5) (h : BitVec 1) (w : BitVec 2) (s : BitVec 3)
  /-- AOR (R173). -/
  | aor (y : BitVec 2) (t : BitVec 5) (b : BitVec 5) (h : BitVec 1) (w : BitVec 2) (s : BitVec 3)
  /-- AXOR (R173). -/
  | axor (y : BitVec 2) (t : BitVec 5) (b : BitVec 5) (h : BitVec 1) (w : BitVec 2) (s : BitVec 3)
  /-- AINCW (R173). -/
  | aincw (y : BitVec 2) (t : BitVec 5) (b : BitVec 5) (h : BitVec 1) (w : BitVec 2) (s : BitVec 3)
  /-- AFADDB (R173). -/
  | afaddb (y : BitVec 2) (t : BitVec 5) (b : BitVec 5) (h : BitVec 1) (w : BitVec 2) (s : BitVec 3) (p : BitVec 3)
  /-- ARED (R174). -/
  | ared (y : BitVec 2) (t : BitVec 5) (b : BitVec 5) (k : BitVec 2)
  /-- ATCLOSE (R175). -/
  | atclose (y : BitVec 2)
  /-- FSET (R177). -/
  | fset (y : BitVec 2) (n : BitVec 12)
  /-- FCLR (R177). -/
  | fclr (y : BitVec 2) (n : BitVec 12)
  /-- FWAIT (R177). -/
  | fwait (y : BitVec 2) (n : BitVec 12) (p : BitVec 3)
  /-- FTEST (R177). -/
  | ftest (y : BitVec 2) (n : BitVec 12) (p : BitVec 3)
  /-- BARJOIN (R179). -/
  | barjoin (y : BitVec 2) (n : BitVec 12) (a : BitVec 5)
  /-- BARWAIT (R179). -/
  | barwait (y : BitVec 2) (n : BitVec 12) (p : BitVec 3)
  /-- JOBX (R186). -/
  | jobx (y : BitVec 2) (a : BitVec 5)
  /-- HFOLD (R195). -/
  | hfold (y : BitVec 2) (p : BitVec 4) (h : BitVec 6) (a : BitVec 5) (e : BitVec 3)
  /-- HSCAN (R195). -/
  | hscan (y : BitVec 2) (p : BitVec 4) (h : BitVec 6) (a : BitVec 5) (e : BitVec 3)
  /-- HZIP (R195). -/
  | hzip (y : BitVec 2) (p : BitVec 4) (h : BitVec 6) (a : BitVec 5) (e : BitVec 3)
  /-- HOUTER (R195). -/
  | houter (y : BitVec 2) (p : BitVec 4) (h : BitVec 6) (a : BitVec 5) (e : BitVec 3)
  /-- RDEF (R192). -/
  | rdef (y : BitVec 2) (h : BitVec 6) (a : BitVec 5)
  /-- RDROP (R192). -/
  | rdrop (y : BitVec 2) (h : BitVec 6)
  /-- WQPOST (R202). -/
  | wqpost (y : BitVec 2) (a : BitVec 5)
  /-- WQARM (R202). -/
  | wqarm (y : BitVec 2) (n : BitVec 12) (a : BitVec 5)
  /-- WQCANCEL (R198). -/
  | wqcancel (y : BitVec 2) (n : BitVec 12)
  /-- WQSTAT (R202). -/
  | wqstat (y : BitVec 2) (n : BitVec 12) (d : BitVec 5)
  /-- CNTSET (R196). -/
  | cntset (y : BitVec 2) (n : BitVec 12) (a : BitVec 5)
  /-- CNTADD (R196). -/
  | cntadd (y : BitVec 2) (n : BitVec 12) (a : BitVec 5) (i : BitVec 1)
  /-- CNTWAIT (R196). -/
  | cntwait (y : BitVec 2) (n : BitVec 12) (a : BitVec 5)
  /-- CNTREAD (R196). -/
  | cntread (y : BitVec 2) (n : BitVec 12) (d : BitVec 5)
  /-- GENCFG (R206). -/
  | gencfg (y : BitVec 2) (w : BitVec 4) (a : BitVec 5)
  /-- GENINV (R206). -/
  | geninv (y : BitVec 2) (w : BitVec 4)
  /-- GSR (R220). -/
  | gsr (y : BitVec 2) (d : BitVec 5) (k : BitVec 10)
  /-- SSR (R220). -/
  | ssr (y : BitVec 2) (a : BitVec 5) (k : BitVec 10)
  /-- TRAP (R222). -/
  | trap (y : BitVec 2) (d : BitVec 5) (a : BitVec 5)
  /-- RFT (R222). -/
  | rft (y : BitVec 2) (d : BitVec 5)
  /-- BRK (R225). -/
  | brk (y : BitVec 2) (d : BitVec 5)
  /-- THSET (R223). -/
  | thset (y : BitVec 2) (a : BitVec 5) (b : BitVec 5)
  /-- ENGCLAIM (R224). -/
  | engclaim (y : BitVec 2)
  /-- ENGREL (R224). -/
  | engrel (y : BitVec 2)
  /-- TIMEALIGN (R229). -/
  | timealign (y : BitVec 2) (a : BitVec 5)
  /-- ERD (R230). -/
  | erd (y : BitVec 2) (d : BitVec 3) (a : BitVec 5)
  /-- EMOV (R230). -/
  | emov (y : BitVec 2) (d : BitVec 3) (a : BitVec 3)
  /-- ESTORE (R230). -/
  | estore (y : BitVec 2) (d : BitVec 3) (a : BitVec 4) (b : BitVec 5)
  /-- TRACE (R231). -/
  | trace (y : BitVec 2) (d : BitVec 5) (a : BitVec 5)
  /-- YIELD (R231). -/
  | yield (y : BitVec 2)
  /-- HALT (R228). -/
  | halt (y : BitVec 2)
  /-- IINV (R226). -/
  | iinv (y : BitVec 2) (a : BitVec 5) (b : BitVec 5)
  /-- CALSET (R232). -/
  | calset (y : BitVec 2) (d : BitVec 5) (a : BitVec 5)
  /-- XSWAP (R233). -/
  | xswap (y : BitVec 2) (d : BitVec 5) (a : BitVec 5)
  /-- NOP_V (R67). -/
  | nopV (y : BitVec 2)
  /-- VADD (R103). -/
  | vadd (y : BitVec 2) (d : BitVec 5) (a : BitVec 5) (b : BitVec 5) (t : BitVec 4) (s : BitVec 1)
  /-- VADD_ZQ (R103). -/
  | vaddZq (y : BitVec 2) (d : BitVec 5) (a : BitVec 5) (b : BitVec 5) (t : BitVec 4) (s : BitVec 1)
  /-- VSUB (R103). -/
  | vsub (y : BitVec 2) (d : BitVec 5) (a : BitVec 5) (b : BitVec 5) (t : BitVec 4) (s : BitVec 1)
  /-- VSUB_ZQ (R103). -/
  | vsubZq (y : BitVec 2) (d : BitVec 5) (a : BitVec 5) (b : BitVec 5) (t : BitVec 4) (s : BitVec 1)
  /-- VMUL (R103). -/
  | vmul (y : BitVec 2) (d : BitVec 5) (a : BitVec 5) (b : BitVec 5) (t : BitVec 4) (s : BitVec 1)
  /-- VMUL_ZQ (R103). -/
  | vmulZq (y : BitVec 2) (d : BitVec 5) (a : BitVec 5) (b : BitVec 5) (t : BitVec 4) (s : BitVec 1)
  /-- VFMA (R103). -/
  | vfma (y : BitVec 2) (d : BitVec 5) (a : BitVec 5) (b : BitVec 5) (t : BitVec 4)
  /-- VFMA_ZQ (R103). -/
  | vfmaZq (y : BitVec 2) (d : BitVec 5) (a : BitVec 5) (b : BitVec 5) (t : BitVec 4)
  /-- VMIN (R105). -/
  | vmin (y : BitVec 2) (d : BitVec 5) (a : BitVec 5) (b : BitVec 5) (t : BitVec 4)
  /-- VMIN_ZQ (R105). -/
  | vminZq (y : BitVec 2) (d : BitVec 5) (a : BitVec 5) (b : BitVec 5) (t : BitVec 4)
  /-- VMAX (R105). -/
  | vmax (y : BitVec 2) (d : BitVec 5) (a : BitVec 5) (b : BitVec 5) (t : BitVec 4)
  /-- VMAX_ZQ (R105). -/
  | vmaxZq (y : BitVec 2) (d : BitVec 5) (a : BitVec 5) (b : BitVec 5) (t : BitVec 4)
  /-- VABS (R103). -/
  | vabs (y : BitVec 2) (d : BitVec 5) (b : BitVec 5) (t : BitVec 4) (s : BitVec 1)
  /-- VABS_ZQ (R103). -/
  | vabsZq (y : BitVec 2) (d : BitVec 5) (b : BitVec 5) (t : BitVec 4) (s : BitVec 1)
  /-- VNEG (R103). -/
  | vneg (y : BitVec 2) (d : BitVec 5) (b : BitVec 5) (t : BitVec 4) (s : BitVec 1)
  /-- VNEG_ZQ (R103). -/
  | vnegZq (y : BitVec 2) (d : BitVec 5) (b : BitVec 5) (t : BitVec 4) (s : BitVec 1)
  /-- VAND (R103). -/
  | vand (y : BitVec 2) (d : BitVec 5) (a : BitVec 5) (b : BitVec 5)
  /-- VAND_ZQ (R103). -/
  | vandZq (y : BitVec 2) (d : BitVec 5) (a : BitVec 5) (b : BitVec 5)
  /-- VOR (R103). -/
  | vor (y : BitVec 2) (d : BitVec 5) (a : BitVec 5) (b : BitVec 5)
  /-- VOR_ZQ (R103). -/
  | vorZq (y : BitVec 2) (d : BitVec 5) (a : BitVec 5) (b : BitVec 5)
  /-- VXOR (R103). -/
  | vxor (y : BitVec 2) (d : BitVec 5) (a : BitVec 5) (b : BitVec 5)
  /-- VXOR_ZQ (R103). -/
  | vxorZq (y : BitVec 2) (d : BitVec 5) (a : BitVec 5) (b : BitVec 5)
  /-- VNOT (R103). -/
  | vnot (y : BitVec 2) (d : BitVec 5) (b : BitVec 5)
  /-- VNOT_ZQ (R103). -/
  | vnotZq (y : BitVec 2) (d : BitVec 5) (b : BitVec 5)
  /-- VSHL (R103). -/
  | vshl (y : BitVec 2) (d : BitVec 5) (a : BitVec 5) (b : BitVec 5) (t : BitVec 4)
  /-- VSHL_ZQ (R103). -/
  | vshlZq (y : BitVec 2) (d : BitVec 5) (a : BitVec 5) (b : BitVec 5) (t : BitVec 4)
  /-- VSHR (R103). -/
  | vshr (y : BitVec 2) (d : BitVec 5) (a : BitVec 5) (b : BitVec 5) (t : BitVec 4)
  /-- VSHR_ZQ (R103). -/
  | vshrZq (y : BitVec 2) (d : BitVec 5) (a : BitVec 5) (b : BitVec 5) (t : BitVec 4)
  /-- VSAR (R103). -/
  | vsar (y : BitVec 2) (d : BitVec 5) (a : BitVec 5) (b : BitVec 5) (t : BitVec 4)
  /-- VSAR_ZQ (R103). -/
  | vsarZq (y : BitVec 2) (d : BitVec 5) (a : BitVec 5) (b : BitVec 5) (t : BitVec 4)
  /-- VSEL (R106). -/
  | vsel (y : BitVec 2) (d : BitVec 5) (a : BitVec 5) (b : BitVec 5) (m : BitVec 3)
  /-- VSEL_ZQ (R106). -/
  | vselZq (y : BitVec 2) (d : BitVec 5) (a : BitVec 5) (b : BitVec 5) (m : BitVec 3)
  /-- VCVT (R108). -/
  | vcvt (y : BitVec 2) (d : BitVec 5) (h : BitVec 1) (s : BitVec 4) (b : BitVec 5) (t : BitVec 4) (l : BitVec 1)
  /-- VCVT_ZQ (R108). -/
  | vcvtZq (y : BitVec 2) (d : BitVec 5) (h : BitVec 1) (s : BitVec 4) (b : BitVec 5) (t : BitVec 4) (l : BitVec 1)
  /-- VCLZ (R103). -/
  | vclz (y : BitVec 2) (d : BitVec 5) (b : BitVec 5) (t : BitVec 4)
  /-- VCLZ_ZQ (R103). -/
  | vclzZq (y : BitVec 2) (d : BitVec 5) (b : BitVec 5) (t : BitVec 4)
  /-- VPOPC (R103). -/
  | vpopc (y : BitVec 2) (d : BitVec 5) (b : BitVec 5) (t : BitVec 4)
  /-- VPOPC_ZQ (R103). -/
  | vpopcZq (y : BitVec 2) (d : BitVec 5) (b : BitVec 5) (t : BitVec 4)
  /-- VEXT (R109). -/
  | vext (y : BitVec 2) (d : BitVec 5) (a : BitVec 5) (b : BitVec 5) (x : BitVec 1)
  /-- VEXT_ZQ (R109). -/
  | vextZq (y : BitVec 2) (d : BitVec 5) (a : BitVec 5) (b : BitVec 5) (x : BitVec 1)
  /-- VINS (R109). -/
  | vins (y : BitVec 2) (d : BitVec 5) (a : BitVec 5) (b : BitVec 5)
  /-- VINS_ZQ (R109). -/
  | vinsZq (y : BitVec 2) (d : BitVec 5) (a : BitVec 5) (b : BitVec 5)
  /-- VFSH (R109). -/
  | vfsh (y : BitVec 2) (d : BitVec 5) (a : BitVec 5) (b : BitVec 5)
  /-- VFSH_ZQ (R109). -/
  | vfshZq (y : BitVec 2) (d : BitVec 5) (a : BitVec 5) (b : BitVec 5)
  /-- VPERM (R110). -/
  | vperm (y : BitVec 2) (d : BitVec 5) (a : BitVec 5) (b : BitVec 5)
  /-- VPERM_ZQ (R110). -/
  | vpermZq (y : BitVec 2) (d : BitVec 5) (a : BitVec 5) (b : BitVec 5)
  /-- VBCAST (R110). -/
  | vbcast (y : BitVec 2) (d : BitVec 5) (a : BitVec 5) (b : BitVec 5)
  /-- VBCAST_ZQ (R110). -/
  | vbcastZq (y : BitVec 2) (d : BitVec 5) (a : BitVec 5) (b : BitVec 5)
  /-- VLSH (R110). -/
  | vlsh (y : BitVec 2) (d : BitVec 5) (a : BitVec 5) (b : BitVec 5)
  /-- VLSH_ZQ (R110). -/
  | vlshZq (y : BitVec 2) (d : BitVec 5) (a : BitVec 5) (b : BitVec 5)
  /-- VRED (R111). -/
  | vred (y : BitVec 2) (d : BitVec 5) (m : BitVec 1) (p : BitVec 4) (b : BitVec 5) (t : BitVec 4) (x : BitVec 1)
  /-- VRED_ZQ (R111). -/
  | vredZq (y : BitVec 2) (d : BitVec 5) (m : BitVec 1) (p : BitVec 4) (b : BitVec 5) (t : BitVec 4) (x : BitVec 1)
  /-- VSCAN (R111). -/
  | vscan (y : BitVec 2) (d : BitVec 5) (m : BitVec 1) (p : BitVec 4) (b : BitVec 5) (t : BitVec 4) (x : BitVec 1)
  /-- VSCAN_ZQ (R111). -/
  | vscanZq (y : BitVec 2) (d : BitVec 5) (m : BitVec 1) (p : BitVec 4) (b : BitVec 5) (t : BitVec 4) (x : BitVec 1)
  /-- VGATH (R112). -/
  | vgath (y : BitVec 2) (d : BitVec 5) (a : BitVec 5) (b : BitVec 5) (t : BitVec 4)
  /-- VGATH_ZQ (R112). -/
  | vgathZq (y : BitVec 2) (d : BitVec 5) (a : BitVec 5) (b : BitVec 5) (t : BitVec 4)
  /-- VSCAT (R112). -/
  | vscat (y : BitVec 2) (d : BitVec 5) (a : BitVec 5) (b : BitVec 5) (t : BitVec 4)
  /-- VSCAT_ZQ (R112). -/
  | vscatZq (y : BitVec 2) (d : BitVec 5) (a : BitVec 5) (b : BitVec 5) (t : BitVec 4)
  /-- VLUT (R112). -/
  | vlut (y : BitVec 2) (d : BitVec 5) (a : BitVec 5) (b : BitVec 5) (t : BitVec 4)
  /-- VLUT_ZQ (R112). -/
  | vlutZq (y : BitVec 2) (d : BitVec 5) (a : BitVec 5) (b : BitVec 5) (t : BitVec 4)
  /-- VRCP (R117). -/
  | vrcp (y : BitVec 2) (d : BitVec 5) (b : BitVec 5) (t : BitVec 4)
  /-- VRCP_ZQ (R117). -/
  | vrcpZq (y : BitVec 2) (d : BitVec 5) (b : BitVec 5) (t : BitVec 4)
  /-- VRSQ (R117). -/
  | vrsq (y : BitVec 2) (d : BitVec 5) (b : BitVec 5) (t : BitVec 4)
  /-- VRSQ_ZQ (R117). -/
  | vrsqZq (y : BitVec 2) (d : BitVec 5) (b : BitVec 5) (t : BitVec 4)
  /-- VEXP2 (R117). -/
  | vexp2 (y : BitVec 2) (d : BitVec 5) (b : BitVec 5) (t : BitVec 4)
  /-- VEXP2_ZQ (R117). -/
  | vexp2Zq (y : BitVec 2) (d : BitVec 5) (b : BitVec 5) (t : BitVec 4)
  /-- VLOG2 (R117). -/
  | vlog2 (y : BitVec 2) (d : BitVec 5) (b : BitVec 5) (t : BitVec 4)
  /-- VLOG2_ZQ (R117). -/
  | vlog2Zq (y : BitVec 2) (d : BitVec 5) (b : BitVec 5) (t : BitVec 4)
  /-- VATAN (R114). -/
  | vatan (y : BitVec 2) (d : BitVec 5) (a : BitVec 5) (b : BitVec 5) (t : BitVec 4) (g : BitVec 1)
  /-- VATAN_ZQ (R114). -/
  | vatanZq (y : BitVec 2) (d : BitVec 5) (a : BitVec 5) (b : BitVec 5) (t : BitVec 4) (g : BitVec 1)
  /-- VSINCOS (R115). -/
  | vsincos (y : BitVec 2) (d : BitVec 5) (b : BitVec 5) (t : BitVec 4) (g : BitVec 1)
  /-- VSINCOS_ZQ (R115). -/
  | vsincosZq (y : BitVec 2) (d : BitVec 5) (b : BitVec 5) (t : BitVec 4) (g : BitVec 1)
  /-- VNORM (R116). -/
  | vnorm (y : BitVec 2) (d : BitVec 5) (b : BitVec 5) (t : BitVec 4)
  /-- VNORM_ZQ (R116). -/
  | vnormZq (y : BitVec 2) (d : BitVec 5) (b : BitVec 5) (t : BitVec 4)
  /-- VSPLIT (R118). -/
  | vsplit (y : BitVec 2) (d : BitVec 5) (a : BitVec 5) (b : BitVec 5) (t : BitVec 4) (e : BitVec 1)
  /-- VSPLIT_ZQ (R118). -/
  | vsplitZq (y : BitVec 2) (d : BitVec 5) (a : BitVec 5) (b : BitVec 5) (t : BitVec 4) (e : BitVec 1)
  /-- VMOV (R110). -/
  | vmov (y : BitVec 2) (d : BitVec 5) (b : BitVec 5)
  /-- VMOV_ZQ (R110). -/
  | vmovZq (y : BitVec 2) (d : BitVec 5) (b : BitVec 5)
  /-- VTOS (R110). -/
  | vtos (y : BitVec 2) (a : BitVec 5) (b : BitVec 5)
  /-- VFROMS (R110). -/
  | vfroms (y : BitVec 2) (d : BitVec 5) (b : BitVec 5)
  /-- VAADD (R113). -/
  | vaadd (y : BitVec 2) (d : BitVec 5) (a : BitVec 5) (b : BitVec 5) (t : BitVec 4) (f : BitVec 1)
  /-- VAADD_ZQ (R113). -/
  | vaaddZq (y : BitVec 2) (d : BitVec 5) (a : BitVec 5) (b : BitVec 5) (t : BitVec 4) (f : BitVec 1)
  /-- VCMP_EQ (R106). -/
  | vcmpEq (y : BitVec 2) (d : BitVec 3) (a : BitVec 5) (b : BitVec 5) (t : BitVec 4)
  /-- VCMP_EQ_ZQ (R106). -/
  | vcmpEqZq (y : BitVec 2) (d : BitVec 3) (a : BitVec 5) (b : BitVec 5) (t : BitVec 4)
  /-- VCMP_NE (R106). -/
  | vcmpNe (y : BitVec 2) (d : BitVec 3) (a : BitVec 5) (b : BitVec 5) (t : BitVec 4)
  /-- VCMP_NE_ZQ (R106). -/
  | vcmpNeZq (y : BitVec 2) (d : BitVec 3) (a : BitVec 5) (b : BitVec 5) (t : BitVec 4)
  /-- VCMP_LT (R106). -/
  | vcmpLt (y : BitVec 2) (d : BitVec 3) (a : BitVec 5) (b : BitVec 5) (t : BitVec 4)
  /-- VCMP_LT_ZQ (R106). -/
  | vcmpLtZq (y : BitVec 2) (d : BitVec 3) (a : BitVec 5) (b : BitVec 5) (t : BitVec 4)
  /-- VCMP_LE (R106). -/
  | vcmpLe (y : BitVec 2) (d : BitVec 3) (a : BitVec 5) (b : BitVec 5) (t : BitVec 4)
  /-- VCMP_LE_ZQ (R106). -/
  | vcmpLeZq (y : BitVec 2) (d : BitVec 3) (a : BitVec 5) (b : BitVec 5) (t : BitVec 4)
  /-- VCMP_LTN (R106). -/
  | vcmpLtn (y : BitVec 2) (d : BitVec 3) (a : BitVec 5) (b : BitVec 5) (t : BitVec 4)
  /-- VCMP_LTN_ZQ (R106). -/
  | vcmpLtnZq (y : BitVec 2) (d : BitVec 3) (a : BitVec 5) (b : BitVec 5) (t : BitVec 4)
  /-- VCMP_LEN (R106). -/
  | vcmpLen (y : BitVec 2) (d : BitVec 3) (a : BitVec 5) (b : BitVec 5) (t : BitVec 4)
  /-- VCMP_LEN_ZQ (R106). -/
  | vcmpLenZq (y : BitVec 2) (d : BitVec 3) (a : BitVec 5) (b : BitVec 5) (t : BitVec 4)
  /-- VLI (R110). -/
  | vli (y : BitVec 2) (d : BitVec 5) (k : BitVec 15)
  /-- MAND (R107). -/
  | mand (y : BitVec 2) (d : BitVec 3) (a : BitVec 3) (b : BitVec 3)
  /-- MOR (R107). -/
  | mor (y : BitVec 2) (d : BitVec 3) (a : BitVec 3) (b : BitVec 3)
  /-- MXOR (R107). -/
  | mxor (y : BitVec 2) (d : BitVec 3) (a : BitVec 3) (b : BitVec 3)
  /-- MNOT (R107). -/
  | mnot (y : BitVec 2) (d : BitVec 3) (b : BitVec 3)
  /-- MPOPC (R107). -/
  | mpopc (y : BitVec 2) (d : BitVec 5) (b : BitVec 3)
  /-- MFIRST (R107). -/
  | mfirst (y : BitVec 2) (d : BitVec 5) (b : BitVec 3)
  /-- NOP_L (R68). -/
  | nopL (y : BitVec 2)
  /-- ZBIND (R120). -/
  | zbind (y : BitVec 2) (t : BitVec 4) (b : BitVec 5) (f : BitVec 4)
  /-- ZSTART (R123). -/
  | zstart (y : BitVec 2) (d : BitVec 4)
  /-- ZSTOP (R122). -/
  | zstop (y : BitVec 2) (d : BitVec 4)
  /-- ZSKIP (R123). -/
  | zskip (y : BitVec 2) (d : BitVec 4) (k : BitVec 10)
  /-- LDV (R123). -/
  | ldv (y : BitVec 2) (t : BitVec 4) (b : BitVec 5) (i : BitVec 9)
  /-- STREAM_FILL (R122). -/
  | streamFill (z : BitVec 4)
  /-- NOP_M (R151). -/
  | nopM (y : BitVec 2)
  /-- MLOAD (R137). -/
  | mload (y : BitVec 2) (d : BitVec 3) (a : BitVec 4) (c : BitVec 1) (s : BitVec 2)
  /-- MSTORE (R139). -/
  | mstore (y : BitVec 2) (d : BitVec 4) (a : BitVec 3) (s : BitVec 2)
  /-- MSWEEP (R141). -/
  | msweep (y : BitVec 2) (d : BitVec 4) (s : BitVec 4) (b : BitVec 3) (m : BitVec 2) (p : BitVec 4) (g : BitVec 1) (c : BitVec 1) (f : BitVec 1)
  /-- MDERIVE (R144). -/
  | mderive (y : BitVec 2) (d : BitVec 4) (s : BitVec 4) (b : BitVec 3) (m : BitVec 2) (p : BitVec 4)
  /-- MSCALE (R140). -/
  | mscale (y : BitVec 2) (d : BitVec 3) (a : BitVec 3) (s : BitVec 2)
  /-- MPANEL (R145). -/
  | mpanel (y : BitVec 2) (d : BitVec 4) (s : BitVec 2)
  /-- MSLICE (R147). -/
  | mslice (y : BitVec 2) (w : BitVec 5) (s : BitVec 4) (n : BitVec 3) (f : BitVec 1) (p : BitVec 4) (m : BitVec 2)
  /-- MCOMMIT (R148). -/
  | mcommit (y : BitVec 2) (b : BitVec 4)
  /-- MWAITB (R148). -/
  | mwaitb (y : BitVec 2) (b : BitVec 4)
  /-- MRETIRE (R149). -/
  | mretire (y : BitVec 2) (d : BitVec 4) (w : BitVec 5) (n : BitVec 3) (r : BitVec 2) (p : BitVec 4) (m : BitVec 2)
  /-- MNORM (R143). -/
  | mnorm (y : BitVec 2) (d : BitVec 4) (s : BitVec 2) (c : BitVec 1)
  /-- MCLR_WINDOW (R150). -/
  | mclrWindow (y : BitVec 2) (u : BitVec 5) (a : BitVec 5) (s : BitVec 2)
  /-- MCLR_BANK (R150). -/
  | mclrBank (y : BitVec 2) (d : BitVec 3) (s : BitVec 2)
  /-- MSTAT (R151). -/
  | mstat (y : BitVec 2) (d : BitVec 4) (c : BitVec 1) (s : BitVec 4)
  /-- MFENCE (R134). -/
  | mfence (y : BitVec 2) (k : BitVec 4)
  /-- MESH_OPERATION_COMPLETE (R131). -/
  | meshOperationComplete (op : Nat)
  /-- SWEEP_SEGMENT_END (R142). -/
  | sweepSegmentEnd (op : Nat)
  /-- BATCH_WRITE_BACK (R148). -/
  | batchWriteBack
  /-- NOP_S (R68). -/
  | nopS (y : BitVec 2)
  /-- ZDRAIN (R124). -/
  | zdrain (y : BitVec 2) (d : BitVec 4)
  /-- STV (R124). -/
  | stv (y : BitVec 2) (t : BitVec 4) (b : BitVec 5) (i : BitVec 9)
  /-- SCVT (R124). -/
  | scvt (y : BitVec 2) (d : BitVec 4) (r : BitVec 2) (b : BitVec 5) (s : BitVec 1)
  /-- SAMAX (R125). -/
  | samax (y : BitVec 2) (d : BitVec 4) (s : BitVec 1) (k : BitVec 4) (c : BitVec 1)
  /-- VAMAXR (R126). -/
  | vamaxr (y : BitVec 2) (d : BitVec 4) (k : BitVec 4) (p : BitVec 1) (q : BitVec 4)
  /-- SUPD (R127). -/
  | supd (y : BitVec 2) (j : BitVec 4) (q : BitVec 4) (n : BitVec 12)
  /-- SPAIR (R128). -/
  | spair (y : BitVec 2) (q : BitVec 4)
  /-- STREAM_DRAIN_WRITE (R122). -/
  | streamDrainWrite (z : BitVec 4)
  /-- NOTIFY (R208). -/
  | notify (y : BitVec 2) (m : BitVec 5) (c : BitVec 1) (n : BitVec 12)
  /-- DICTLD (R64). -/
  | dictld (y : BitVec 2) (s : BitVec 5) (e : BitVec 10)
  /-- BEM_EQ (R90). -/
  | bemEq (y : BitVec 2) (m : BitVec 4) (f : BitVec 4) (g : BitVec 4) (o : BitVec 7)
  /-- BEM_EQ_A (R90). -/
  | bemEqA (y : BitVec 2) (m : BitVec 4) (f : BitVec 4) (g : BitVec 4) (o : BitVec 7)
  /-- BEM_NE (R90). -/
  | bemNe (y : BitVec 2) (m : BitVec 4) (f : BitVec 4) (g : BitVec 4) (o : BitVec 7)
  /-- BEM_NE_A (R90). -/
  | bemNeA (y : BitVec 2) (m : BitVec 4) (f : BitVec 4) (g : BitVec 4) (o : BitVec 7)
  /-- BEM_LT (R90). -/
  | bemLt (y : BitVec 2) (m : BitVec 4) (f : BitVec 4) (g : BitVec 4) (o : BitVec 7)
  /-- BEM_LT_A (R90). -/
  | bemLtA (y : BitVec 2) (m : BitVec 4) (f : BitVec 4) (g : BitVec 4) (o : BitVec 7)
  /-- BEM_LE (R90). -/
  | bemLe (y : BitVec 2) (m : BitVec 4) (f : BitVec 4) (g : BitVec 4) (o : BitVec 7)
  /-- BEM_LE_A (R90). -/
  | bemLeA (y : BitVec 2) (m : BitVec 4) (f : BitVec 4) (g : BitVec 4) (o : BitVec 7)
  /-- BEM_LTN (R90). -/
  | bemLtn (y : BitVec 2) (m : BitVec 4) (f : BitVec 4) (g : BitVec 4) (o : BitVec 7)
  /-- BEM_LTN_A (R90). -/
  | bemLtnA (y : BitVec 2) (m : BitVec 4) (f : BitVec 4) (g : BitVec 4) (o : BitVec 7)
  /-- BEM_LEN (R90). -/
  | bemLen (y : BitVec 2) (m : BitVec 4) (f : BitVec 4) (g : BitVec 4) (o : BitVec 7)
  /-- BEM_LEN_A (R90). -/
  | bemLenA (y : BitVec 2) (m : BitVec 4) (f : BitVec 4) (g : BitVec 4) (o : BitVec 7)
  /-- BLOCK_HEADER (R52). -/
  | blockHeader (l : BitVec 12) (c : BitVec 15)
  /-- BLOCK_HEADER_REG (R52). -/
  | blockHeaderReg (l : BitVec 12) (r : BitVec 5)
  /-- BLOCK_END (R52). -/
  | blockEnd (e : BitVec 3)
  /-- TIMED_NOP (R56). -/
  | timedNop (n : BitVec 13)
  /-- DICTIONARY_REFERENCE (R62). -/
  | dictionaryReference (i : BitVec 10)
  /-- VARIABLE_LATENCY_ARRIVAL (R160). -/
  | variableLatencyArrival (e : BitVec 3) (i : Nat)
  /-- INTERRUPT (R210). -/
  | interrupt
  /-- ROUTINE_FAULT (R193). -/
  | routineFault (job : Nat)
  /-- DEBUG_STOP (R227). -/
  | debugStop
  /-- DEBUG_RESUME (R227). -/
  | debugResume
  /-- JOB_START (R183). -/
  | jobStart (job : Nat)
  /-- COPY_CHUNK_COMPLETE (R360). -/
  | copyChunkComplete (job : Nat)
  /-- JOB_COMPLETE (R185). -/
  | jobComplete (job : Nat)
  /-- FIRING_START (R198). -/
  | firingStart (ctx : BitVec 8) (slot : BitVec 12)
  /-- FIRING_LOCAL_COMPLETE (R199). -/
  | firingLocalComplete (ctx : BitVec 8) (slot : BitVec 12)
  /-- FIRING_TIMEOUT (R200). -/
  | firingTimeout (ctx : BitVec 8) (slot : BitVec 12)
  /-- FIRING_RECORD_EXPIRY (R330). -/
  | firingRecordExpiry (qp : BitVec 12) (slot : BitVec 12) (firing : Nat)
  /-- CREATE (R260). -/
  | create (rec : BitVec 52)
  /-- DESTROY (R269). -/
  | destroy (rec : BitVec 52)
  /-- REPLENISH (R270). -/
  | replenish (rec : BitVec 52)
  /-- CTX_READ (R270). -/
  | ctxRead (rec : BitVec 52)
  /-- CONTEXT_FROZEN (R260). -/
  | contextFrozen (ctx : BitVec 8)
  /-- CONTEXT_DRAINED (R269). -/
  | contextDrained (ctx : BitVec 8)
  /-- ENABLE (R281). -/
  | enable (rec : BitVec 52)
  /-- DISABLE (R281). -/
  | disable (rec : BitVec 52)
  /-- RESUME (R281). -/
  | resume (rec : BitVec 52)
  /-- FLUSH (R281). -/
  | flush (rec : BitVec 52)
  /-- QUEUE_READ (R282). -/
  | queueRead (rec : BitVec 52)
  /-- LAUNCH (R276). -/
  | launch (queue : BitVec 10)
  /-- STEP (R276). -/
  | step (queue : BitVec 10)
  /-- WAIT (R276). -/
  | wait (queue : BitVec 10)
  /-- WAIT_CONDITION_HOLDS (R276). -/
  | waitConditionHolds (queue : BitVec 10) (index : Nat)
  /-- SIGNAL_ENTRY (R276). -/
  | signalEntry (queue : BitVec 10)
  /-- HOSTNOTE (R276). -/
  | hostnote (queue : BitVec 10)
  /-- ENTRY_COMPLETION (R277). -/
  | entryCompletion (queue : BitVec 10) (index : Nat)
  /-- SERVICE_OPPORTUNITY (R284). -/
  | serviceOpportunity
  /-- PLACEMENT_COMPLETE (R299). -/
  | placementComplete (launch : Nat) (cluster : Nat)
  /-- KERNEL_TRIGGER_MET (R295). -/
  | kernelTriggerMet (launch : Nat)
  /-- COMBINER_COMPLETION (R208). -/
  | combinerCompletion
  /-- PREEMPTION (R303). -/
  | preemption
  /-- HANG_DETECTED (R280). -/
  | hangDetected
  /-- CALENDAR_RESERVATION (R296). -/
  | calendarReservation (kdesc : BitVec 64) (tick : BitVec 64)
  /-- CALENDAR_START (R296). -/
  | calendarStart (kdesc : BitVec 64) (tick : BitVec 64)
  /-- CONFIGURE (R313). -/
  | configure (rec : BitVec 52)
  /-- REMOVE (R316). -/
  | remove (rec : BitVec 52)
  /-- BARRIER_RESET (R316). -/
  | barrierReset (rec : BitVec 52)
  /-- BARRIER_READ (R320). -/
  | barrierRead (rec : BitVec 52)
  /-- BARRIER_RELEASE_TICK (R317). -/
  | barrierReleaseTick (ctx : BitVec 8) (bar : BitVec 12)
  /-- QPOPEN (R329). -/
  | qpopen (rec : BitVec 52)
  /-- QPCLOSE (R329). -/
  | qpclose (rec : BitVec 52)
  /-- QPREAD (R331). -/
  | qpread (rec : BitVec 52)
  /-- PORTFENCE (R321). -/
  | portfence (rec : BitVec 52)
  /-- PORTUNFENCE (R321). -/
  | portunfence (rec : BitVec 52)
  /-- ROUTE (R325). -/
  | route (rec : BitVec 52)
  /-- PORTREAD (R331). -/
  | portread (rec : BitVec 52)
  /-- TIMECFG (R334). -/
  | timecfg (rec : BitVec 52)
  /-- QP_CONNECT_RETRY (R329). -/
  | qpConnectRetry (qp : BitVec 12)
  /-- QP_CLOSED (R329). -/
  | qpClosed (qp : BitVec 12)
  /-- PORT_TRAINED (R321). -/
  | portTrained (port : Nat) (lanes : Nat)
  /-- TRAINING_TIMEOUT (R321). -/
  | trainingTimeout (port : Nat)
  /-- TRAINING_RETRY (R321). -/
  | trainingRetry (port : Nat)
  /-- LANE_FAILURE (R321). -/
  | laneFailure (port : Nat)
  /-- FENCE_DRAIN_TIMEOUT (R321). -/
  | fenceDrainTimeout (port : Nat)
  /-- FLIT_RECEIVE (R324). -/
  | flitReceive (port : Nat) (seq : BitVec 12) (crc : Bool) (ack : FlitAck) (flit : BitVec 512)
  /-- RDREQ (R323). -/
  | rdreq (hdr : BitVec 512) (payload : List Byte)
  /-- RDRSP (R323). -/
  | rdrsp (hdr : BitVec 512) (payload : List Byte)
  /-- WRREQ (R323). -/
  | wrreq (hdr : BitVec 512) (payload : List Byte)
  /-- ATREQ (R323). -/
  | atreq (hdr : BitVec 512) (payload : List Byte)
  /-- ATRSP (R322). -/
  | atrsp (hdr : BitVec 512) (payload : List Byte)
  /-- WRACK (R323). -/
  | wrack (hdr : BitVec 512) (payload : List Byte)
  /-- FIRE (R199). -/
  | fire (hdr : BitVec 512) (payload : List Byte)
  /-- FACK (R199). -/
  | fack (hdr : BitVec 512) (payload : List Byte)
  /-- CTRL (R323). -/
  | ctrl (hdr : BitVec 512) (payload : List Byte)
  /-- TIME (R335). -/
  | time (hdr : BitVec 512) (payload : List Byte)
  /-- FORWARD_RESEND (R326). -/
  | forwardResend (tag : BitVec 32)
  /-- FORWARD_FAILURE (R326). -/
  | forwardFailure (tag : BitVec 32)
  /-- HOME_RECORD_EXPIRY (R326). -/
  | homeRecordExpiry (smod : BitVec 10) (tag : BitVec 32)
  /-- DATAGRAM_RECEIVE (R332). -/
  | datagramReceive (port : Nat) (transport : BitVec 256) (hdr : BitVec 512) (payload : List Byte)
  /-- ETH_RESEND_TIMEOUT (R333). -/
  | ethResendTimeout (qp : BitVec 12)
  /-- TIME_PACKET_SEND (R334). -/
  | timePacketSend
  /-- HOLDOVER_ENTRY (R335). -/
  | holdoverEntry
  /-- SLEW_END (R335). -/
  | slewEnd
  /-- MIGRATE (R347). -/
  | migrate (rec : BitVec 52)
  /-- MIGRATION_COPY_DONE (R347). -/
  | migrationCopyDone (rec : BitVec 52)
  /-- DUPLICATE (R349). -/
  | duplicate (rec : BitVec 52)
  /-- HOLD (R348). -/
  | hold (rec : BitVec 52)
  /-- UNHOLD (R348). -/
  | unhold (rec : BitVec 52)
  /-- UNMAP (R342). -/
  | unmap (rec : BitVec 52)
  /-- ZEROCNT (R343). -/
  | zerocnt (rec : BitVec 52)
  /-- LEND (R350). -/
  | lend (rec : BitVec 52)
  /-- BORROW (R350). -/
  | borrow (rec : BitVec 52)
  /-- REVOKE (R350). -/
  | revoke (rec : BitVec 52)
  /-- LEASE_DEADLINE (R252). -/
  | leaseDeadline (ctx : BitVec 8) (va : BitVec 64)
  /-- ACC_WRITEBACK (R343). -/
  | accWriteback (ctx : BitVec 8) (entry : BitVec 52)
  /-- MESSIDOR_DRAIN (R364). -/
  | messidorDrain
  /-- ECC_AGGREGATE (R366). -/
  | eccAggregate (ctx : BitVec 8)
  /-- RESET (R371). -/
  | reset
  /-- BOOT_STAGE (R372). -/
  | bootStage (header : List Byte) (body : List Byte)
  /-- ROLLBACK_RAISE (R372). -/
  | rollbackRaise (signed : Bool)
  /-- HOST_MEMORY_ACCESS (R368). -/
  | hostMemoryAccess (write : Bool) (addr : BitVec 42) (data : List Byte)
  /-- BAR0_REGISTER_WRITE (R369). -/
  | bar0RegisterWrite (off : BitVec 16) (value : BitVec 64)
  /-- PCAP_WRITE (R376). -/
  | pcapWrite (watts : BitVec 32)
  /-- THROTTLE_START (R376). -/
  | throttleStart (watts : Nat) (celsius : Nat)
  /-- THROTTLE_END (R376). -/
  | throttleEnd (watts : Nat) (celsius : Nat)
  /-- THERMAL_TRIP (R377). -/
  | thermalTrip (celsius : Nat)
  /-- GET_VERSION (R374). -/
  | getVersion
  /-- GET_CAPABILITIES (R374). -/
  | getCapabilities
  /-- NEGOTIATE_ALGORITHMS (R374). -/
  | negotiateAlgorithms
  /-- GET_DIGESTS (R374). -/
  | getDigests
  /-- GET_CERTIFICATE (R374). -/
  | getCertificate (off : BitVec 16) (len : BitVec 16)
  /-- CHALLENGE (R374). -/
  | challenge (nonce : BitVec 256)
  /-- GET_MEASUREMENTS (R374). -/
  | getMeasurements (index : BitVec 8)
  /-- UNSUPPORTED_REQUEST (R374). -/
  | unsupportedRequest (code : BitVec 8)
  /-- MGMT_READ (R375). -/
  | mgmtRead (item : BitVec 8)
  /-- COLD_RESET (R375). -/
  | coldReset
  /-- UNASSIGNED_ITEM (R70). -/
  | unassignedItem (e : BitVec 3)
  /-- BADCMD (R270). -/
  | badcmd (bell : BitVec 3) (rec : BitVec 52)
  /-- MESH_VECTOR_APPENDED (R142). -/
  | meshVectorAppended (op : Nat)
  /-- SLICE_PAIR_BOUNDARY (R152). -/
  | slicePairBoundary (op : Nat)
  /-- DUPLICATE_COPY_DONE (R349). -/
  | duplicateCopyDone (rec : BitVec 52)
  /-- SWAP_EXCHANGE_COMPLETE (R233). -/
  | swapExchangeComplete
  /-- POD_TIME_REACHED (R229). -/
  | podTimeReached
  deriving DecidableEq, Repr

end Sys2Proof
end

