-- ==== Sys2Proof/Decode.lean ====
section
/-! DEFINITION. The decoder and the encoder of 04_encoding.md (R48 to R69), from the field tables of the opcode table. An
item is 32 or 16 bits; a 32-bit item is the number whose bits [31:16] stand in its first parcel (R49, 01_device R15).
The compiler cannot build a value whose constructor has fields and a number above 244, so the functions that answer such an
instruction are marked noncomputable; the kernel evaluates them, and the machine itself runs through the computable table of
Machine/Fetch.lean, which Laws/Fetch.lean proves equal. -/

namespace Sys2Proof

/-- What the decoder finds: an item; an OP that R65 to R69 leave unassigned (ILLEGAL, R70 order 2); an assigned OP with a
reserved field or register-field bit that is not zero (RESERVED_FIELD, R70 order 3); a register-count header with a reserved bit and its
LEN (R51). -/
inductive Decoded where
  | ok (i : Instr)
  | illegal
  | reserved
  | header (len : Nat)
  deriving DecidableEq, Repr

/-- Bits [lo + n - 1 : lo] of a word. -/
def fld (w lo n : Nat) : Nat := w / 2 ^ lo % 2 ^ n

/-- A field as a bit vector. -/
def bvf (w lo n : Nat) : BitVec n := BitVec.ofNat n (fld w lo n)

/-- A row whose reserved bits are given by a mask: they must be zero (R59, R62, R69). -/
def rowOf (zero : Bool) (i : Instr) : Decoded := if zero then .ok i else .reserved

/-- The words of OP 0x7F, the system words, by their SUB (R68). -/
def decodeSys (w : Nat) : Decoded :=
  match fld w 0 5 with
  | 1 => rowOf (fld w 5 5 == 0) (.trap (bvf w 20 2) (bvf w 15 5) (bvf w 10 5))
  | 2 => rowOf (fld w 5 10 == 0) (.rft (bvf w 20 2) (bvf w 15 5))
  | 3 => rowOf (fld w 5 10 == 0) (.brk (bvf w 20 2) (bvf w 15 5))
  | 4 => rowOf (fld w 15 5 == 0) (.thset (bvf w 20 2) (bvf w 10 5) (bvf w 5 5))
  | 5 => rowOf (fld w 5 15 == 0) (.engclaim (bvf w 20 2))
  | 6 => rowOf (fld w 5 15 == 0) (.engrel (bvf w 20 2))
  | 7 => rowOf (fld w 5 5 == 0 && fld w 15 5 == 0) (.timealign (bvf w 20 2) (bvf w 10 5))
  | 8 => rowOf (fld w 5 5 == 0 && fld w 18 2 == 0) (.erd (bvf w 20 2) (bvf w 15 3) (bvf w 10 5))
  | 9 => rowOf (fld w 5 5 == 0 && fld w 13 2 == 0 && fld w 18 2 == 0) (.emov (bvf w 20 2) (bvf w 15 3) (bvf w 10 3))
  | 10 => rowOf (fld w 14 1 == 0 && fld w 18 2 == 0) (.estore (bvf w 20 2) (bvf w 15 3) (bvf w 10 4) (bvf w 5 5))
  | 11 => rowOf (fld w 5 5 == 0) (.trace (bvf w 20 2) (bvf w 15 5) (bvf w 10 5))
  | 12 => rowOf (fld w 5 15 == 0) (.yield (bvf w 20 2))
  | 13 => rowOf (fld w 5 15 == 0) (.halt (bvf w 20 2))
  | 14 => rowOf (fld w 15 5 == 0) (.iinv (bvf w 20 2) (bvf w 10 5) (bvf w 5 5))
  | 15 => rowOf (fld w 5 5 == 0) (.calset (bvf w 20 2) (bvf w 15 5) (bvf w 10 5))
  | 16 => rowOf (fld w 5 5 == 0) (.xswap (bvf w 20 2) (bvf w 15 5) (bvf w 10 5))
  | _ => .illegal

/-- The words of tag 000, engine C (R65 to R68); `w` is the whole word. -/
def decodeC (w : Nat) : Decoded :=
  match fld w 22 7 with
  | 1 => rowOf (fld w 0 20 == 0) (.nopC (bvf w 20 2))
  | 2 => rowOf (fld w 0 5 == 0) (.add (bvf w 20 2) (bvf w 15 5) (bvf w 10 5) (bvf w 5 5))
  | 3 => rowOf (fld w 0 5 == 0) (.sub (bvf w 20 2) (bvf w 15 5) (bvf w 10 5) (bvf w 5 5))
  | 4 => rowOf (fld w 0 5 == 0) (.mul (bvf w 20 2) (bvf w 15 5) (bvf w 10 5) (bvf w 5 5))
  | 5 => rowOf (fld w 0 5 == 0) (.mulh (bvf w 20 2) (bvf w 15 5) (bvf w 10 5) (bvf w 5 5))
  | 6 => rowOf (fld w 0 5 == 0) (.mulhn (bvf w 20 2) (bvf w 15 5) (bvf w 10 5) (bvf w 5 5))
  | 7 => rowOf (fld w 0 5 == 0) (.div (bvf w 20 2) (bvf w 15 5) (bvf w 10 5) (bvf w 5 5))
  | 8 => rowOf (fld w 0 5 == 0) (.divn (bvf w 20 2) (bvf w 15 5) (bvf w 10 5) (bvf w 5 5))
  | 9 => rowOf (fld w 0 5 == 0) (.rem (bvf w 20 2) (bvf w 15 5) (bvf w 10 5) (bvf w 5 5))
  | 10 => rowOf (fld w 0 5 == 0) (.remn (bvf w 20 2) (bvf w 15 5) (bvf w 10 5) (bvf w 5 5))
  | 11 => rowOf (fld w 0 5 == 0) (.and (bvf w 20 2) (bvf w 15 5) (bvf w 10 5) (bvf w 5 5))
  | 12 => rowOf (fld w 0 5 == 0) (.or (bvf w 20 2) (bvf w 15 5) (bvf w 10 5) (bvf w 5 5))
  | 13 => rowOf (fld w 0 5 == 0) (.xor (bvf w 20 2) (bvf w 15 5) (bvf w 10 5) (bvf w 5 5))
  | 14 => rowOf (fld w 0 5 == 0) (.shl (bvf w 20 2) (bvf w 15 5) (bvf w 10 5) (bvf w 5 5))
  | 15 => rowOf (fld w 0 5 == 0) (.shr (bvf w 20 2) (bvf w 15 5) (bvf w 10 5) (bvf w 5 5))
  | 16 => rowOf (fld w 0 5 == 0) (.sar (bvf w 20 2) (bvf w 15 5) (bvf w 10 5) (bvf w 5 5))
  | 17 => rowOf (fld w 0 5 == 0) (.slt (bvf w 20 2) (bvf w 15 5) (bvf w 10 5) (bvf w 5 5))
  | 18 => rowOf (fld w 0 5 == 0) (.sltn (bvf w 20 2) (bvf w 15 5) (bvf w 10 5) (bvf w 5 5))
  | 19 => rowOf (fld w 0 5 == 0) (.min (bvf w 20 2) (bvf w 15 5) (bvf w 10 5) (bvf w 5 5))
  | 20 => rowOf (fld w 0 5 == 0) (.max (bvf w 20 2) (bvf w 15 5) (bvf w 10 5) (bvf w 5 5))
  | 21 => rowOf (fld w 0 5 == 0) (.minn (bvf w 20 2) (bvf w 15 5) (bvf w 10 5) (bvf w 5 5))
  | 22 => rowOf (fld w 0 5 == 0) (.maxn (bvf w 20 2) (bvf w 15 5) (bvf w 10 5) (bvf w 5 5))
  | 23 => .ok (.fsh (bvf w 20 2) (bvf w 15 5) (bvf w 10 5) (bvf w 5 5) (bvf w 0 5))
  | 24 => rowOf (fld w 3 2 == 0) (.sel (bvf w 20 2) (bvf w 15 5) (bvf w 10 5) (bvf w 5 5) (bvf w 0 3))
  | 25 => .ok (.addi (bvf w 20 2) (bvf w 15 5) (bvf w 10 5) (bvf w 0 10))
  | 26 => .ok (.andi (bvf w 20 2) (bvf w 15 5) (bvf w 10 5) (bvf w 0 10))
  | 27 => .ok (.ori (bvf w 20 2) (bvf w 15 5) (bvf w 10 5) (bvf w 0 10))
  | 28 => .ok (.xori (bvf w 20 2) (bvf w 15 5) (bvf w 10 5) (bvf w 0 10))
  | 29 => rowOf (fld w 6 4 == 0) (.shli (bvf w 20 2) (bvf w 15 5) (bvf w 10 5) (bvf w 0 6))
  | 30 => rowOf (fld w 6 4 == 0) (.shri (bvf w 20 2) (bvf w 15 5) (bvf w 10 5) (bvf w 0 6))
  | 31 => rowOf (fld w 6 4 == 0) (.sari (bvf w 20 2) (bvf w 15 5) (bvf w 10 5) (bvf w 0 6))
  | 32 => .ok (.slti (bvf w 20 2) (bvf w 15 5) (bvf w 10 5) (bvf w 0 10))
  | 33 => .ok (.ext (bvf w 20 2) (bvf w 15 5) (bvf w 10 5) (bvf w 6 4) (bvf w 0 6))
  | 34 => .ok (.ins (bvf w 20 2) (bvf w 15 5) (bvf w 10 5) (bvf w 6 4) (bvf w 0 6))
  | 35 => rowOf (fld w 0 10 == 0) (.clz (bvf w 20 2) (bvf w 15 5) (bvf w 10 5))
  | 36 => rowOf (fld w 0 10 == 0) (.ctz (bvf w 20 2) (bvf w 15 5) (bvf w 10 5))
  | 37 => rowOf (fld w 0 10 == 0) (.popc (bvf w 20 2) (bvf w 15 5) (bvf w 10 5))
  | 38 => .ok (.lih (bvf w 20 2) (bvf w 15 5) (bvf w 0 15))
  | 39 => rowOf (fld w 3 2 == 0 && fld w 18 2 == 0) (.cmpCc (bvf w 20 2) (bvf w 15 3) (bvf w 10 5) (bvf w 5 5) (bvf w 0 3))
  | 40 => rowOf (fld w 18 2 == 0) (.cmpiCc (bvf w 22 3) (bvf w 20 2) (bvf w 15 3) (bvf w 10 5) (bvf w 0 10))
  | 41 => rowOf (fld w 18 2 == 0) (.cmpiCc (bvf w 22 3) (bvf w 20 2) (bvf w 15 3) (bvf w 10 5) (bvf w 0 10))
  | 42 => rowOf (fld w 18 2 == 0) (.cmpiCc (bvf w 22 3) (bvf w 20 2) (bvf w 15 3) (bvf w 10 5) (bvf w 0 10))
  | 43 => rowOf (fld w 18 2 == 0) (.cmpiCc (bvf w 22 3) (bvf w 20 2) (bvf w 15 3) (bvf w 10 5) (bvf w 0 10))
  | 44 => rowOf (fld w 18 2 == 0) (.cmpiCc (bvf w 22 3) (bvf w 20 2) (bvf w 15 3) (bvf w 10 5) (bvf w 0 10))
  | 45 => rowOf (fld w 18 2 == 0) (.cmpiCc (bvf w 22 3) (bvf w 20 2) (bvf w 15 3) (bvf w 10 5) (bvf w 0 10))
  | 48 => .ok (.bCc (bvf w 23 3) (bvf w 20 2) (bvf w 15 5) (bvf w 10 5) (bvf w 0 10))
  | 49 => .ok (.bCcA (bvf w 23 3) (bvf w 20 2) (bvf w 15 5) (bvf w 10 5) (bvf w 0 10))
  | 50 => .ok (.bCc (bvf w 23 3) (bvf w 20 2) (bvf w 15 5) (bvf w 10 5) (bvf w 0 10))
  | 51 => .ok (.bCcA (bvf w 23 3) (bvf w 20 2) (bvf w 15 5) (bvf w 10 5) (bvf w 0 10))
  | 52 => .ok (.bCc (bvf w 23 3) (bvf w 20 2) (bvf w 15 5) (bvf w 10 5) (bvf w 0 10))
  | 53 => .ok (.bCcA (bvf w 23 3) (bvf w 20 2) (bvf w 15 5) (bvf w 10 5) (bvf w 0 10))
  | 54 => .ok (.bCc (bvf w 23 3) (bvf w 20 2) (bvf w 15 5) (bvf w 10 5) (bvf w 0 10))
  | 55 => .ok (.bCcA (bvf w 23 3) (bvf w 20 2) (bvf w 15 5) (bvf w 10 5) (bvf w 0 10))
  | 56 => .ok (.bCc (bvf w 23 3) (bvf w 20 2) (bvf w 15 5) (bvf w 10 5) (bvf w 0 10))
  | 57 => .ok (.bCcA (bvf w 23 3) (bvf w 20 2) (bvf w 15 5) (bvf w 10 5) (bvf w 0 10))
  | 58 => .ok (.bCc (bvf w 23 3) (bvf w 20 2) (bvf w 15 5) (bvf w 10 5) (bvf w 0 10))
  | 59 => .ok (.bCcA (bvf w 23 3) (bvf w 20 2) (bvf w 15 5) (bvf w 10 5) (bvf w 0 10))
  | 60 => .ok (.br (bvf w 20 2) (bvf w 0 20))
  | 61 => .ok (.call (bvf w 20 2) (bvf w 0 20))
  | 62 => rowOf (fld w 0 20 == 0) (.ret (bvf w 20 2))
  | 63 => rowOf (fld w 0 15 == 0) (.jr (bvf w 20 2) (bvf w 15 5))
  | 64 => rowOf (fld w 0 10 == 0 && fld w 19 1 == 0) (.qpush (bvf w 20 2) (bvf w 15 4) (bvf w 10 5))
  | 65 => rowOf (fld w 0 10 == 0 && fld w 14 1 == 0) (.qpop (bvf w 20 2) (bvf w 15 5) (bvf w 10 4))
  | 66 => rowOf (fld w 0 10 == 0 && fld w 14 1 == 0) (.qpeek (bvf w 20 2) (bvf w 15 5) (bvf w 10 4))
  | 67 => rowOf (fld w 10 5 == 0 && fld w 19 1 == 0) (.qbind (bvf w 20 2) (bvf w 15 4) (bvf w 5 5) (bvf w 0 5))
  | 68 => .ok (.ld (bvf w 20 2) (bvf w 15 5) (bvf w 10 5) (bvf w 9 1) (bvf w 6 3) (bvf w 5 1) (bvf w 0 5))
  | 69 => .ok (.st (bvf w 20 2) (bvf w 15 5) (bvf w 10 5) (bvf w 9 1) (bvf w 6 3) (bvf w 5 1) (bvf w 0 5))
  | 70 => rowOf (fld w 0 10 == 0 && fld w 19 1 == 0) (.xlate (bvf w 20 2) (bvf w 15 4) (bvf w 10 5))
  | 71 => rowOf (fld w 0 15 == 0 && fld w 19 1 == 0) (.hdrop (bvf w 20 2) (bvf w 15 4))
  | 72 => rowOf (fld w 0 10 == 0 && fld w 14 1 == 0) (.hchk (bvf w 20 2) (bvf w 15 5) (bvf w 10 4))
  | 73 => rowOf (fld w 0 10 == 0) (.sealPages (bvf w 20 2) (bvf w 15 5) (bvf w 10 5))
  | 74 => rowOf (fld w 0 10 == 0) (.unsealPages (bvf w 20 2) (bvf w 15 5) (bvf w 10 5))
  | 75 => rowOf (fld w 15 5 == 0) (.bind (bvf w 20 2) (bvf w 10 5) (bvf w 0 10))
  | 76 => rowOf (fld w 10 10 == 0) (.unbind (bvf w 20 2) (bvf w 0 10))
  | 77 => rowOf (fld w 4 11 == 0) (.acq (bvf w 20 2) (bvf w 15 5) (bvf w 1 3) (bvf w 0 1))
  | 78 => rowOf (fld w 0 15 == 0) (.rel (bvf w 20 2) (bvf w 15 5))
  | 79 => rowOf (fld w 3 17 == 0) (.fence (bvf w 20 2) (bvf w 0 3))
  | 80 => rowOf (fld w 0 10 == 0) (.tlook (bvf w 20 2) (bvf w 15 5) (bvf w 10 5))
  | 81 => rowOf (fld w 3 2 == 0) (.tset (bvf w 20 2) (bvf w 15 5) (bvf w 10 5) (bvf w 5 5) (bvf w 0 3))
  | 82 => rowOf (fld w 1 14 == 0) (.tclr (bvf w 20 2) (bvf w 15 5) (bvf w 0 1))
  | 83 => rowOf (fld w 0 3 == 0) (.aadd (bvf w 20 2) (bvf w 15 5) (bvf w 10 5) (bvf w 9 1) (bvf w 7 2) (bvf w 4 3) (bvf w 3 1))
  | 84 => rowOf (fld w 0 4 == 0) (.axchg (bvf w 20 2) (bvf w 15 5) (bvf w 10 5) (bvf w 9 1) (bvf w 7 2) (bvf w 4 3))
  | 85 => rowOf (fld w 0 4 == 0) (.acas (bvf w 20 2) (bvf w 15 5) (bvf w 10 5) (bvf w 9 1) (bvf w 7 2) (bvf w 4 3))
  | 86 => rowOf (fld w 0 4 == 0) (.amin (bvf w 20 2) (bvf w 15 5) (bvf w 10 5) (bvf w 9 1) (bvf w 7 2) (bvf w 4 3))
  | 87 => rowOf (fld w 0 4 == 0) (.amax (bvf w 20 2) (bvf w 15 5) (bvf w 10 5) (bvf w 9 1) (bvf w 7 2) (bvf w 4 3))
  | 88 => rowOf (fld w 0 4 == 0) (.aand (bvf w 20 2) (bvf w 15 5) (bvf w 10 5) (bvf w 9 1) (bvf w 7 2) (bvf w 4 3))
  | 89 => rowOf (fld w 0 4 == 0) (.aor (bvf w 20 2) (bvf w 15 5) (bvf w 10 5) (bvf w 9 1) (bvf w 7 2) (bvf w 4 3))
  | 90 => rowOf (fld w 0 4 == 0) (.axor (bvf w 20 2) (bvf w 15 5) (bvf w 10 5) (bvf w 9 1) (bvf w 7 2) (bvf w 4 3))
  | 91 => rowOf (fld w 0 4 == 0) (.aincw (bvf w 20 2) (bvf w 15 5) (bvf w 10 5) (bvf w 9 1) (bvf w 7 2) (bvf w 4 3))
  | 92 => rowOf (fld w 3 1 == 0) (.afaddb (bvf w 20 2) (bvf w 15 5) (bvf w 10 5) (bvf w 9 1) (bvf w 7 2) (bvf w 4 3) (bvf w 0 3))
  | 93 => if fld w 9 1 == 1 && (fld w 0 7 == 0) then .illegal else rowOf (fld w 0 7 == 0 && fld w 9 1 == 0) (.ared (bvf w 20 2) (bvf w 15 5) (bvf w 10 5) (bvf w 7 2))
  | 94 => rowOf (fld w 0 20 == 0) (.atclose (bvf w 20 2))
  | 95 => rowOf (fld w 0 8 == 0) (.fset (bvf w 20 2) (bvf w 8 12))
  | 96 => rowOf (fld w 0 8 == 0) (.fclr (bvf w 20 2) (bvf w 8 12))
  | 97 => rowOf (fld w 3 5 == 0) (.fwait (bvf w 20 2) (bvf w 8 12) (bvf w 0 3))
  | 98 => rowOf (fld w 3 5 == 0) (.ftest (bvf w 20 2) (bvf w 8 12) (bvf w 0 3))
  | 99 => rowOf (fld w 0 3 == 0) (.barjoin (bvf w 20 2) (bvf w 8 12) (bvf w 3 5))
  | 100 => rowOf (fld w 3 5 == 0) (.barwait (bvf w 20 2) (bvf w 8 12) (bvf w 0 3))
  | 101 => rowOf (fld w 0 3 == 0 && fld w 8 12 == 0) (.jobx (bvf w 20 2) (bvf w 3 5))
  | 102 => rowOf (fld w 18 2 == 0) (.hfold (bvf w 20 2) (bvf w 14 4) (bvf w 8 6) (bvf w 3 5) (bvf w 0 3))
  | 103 => rowOf (fld w 18 2 == 0) (.hscan (bvf w 20 2) (bvf w 14 4) (bvf w 8 6) (bvf w 3 5) (bvf w 0 3))
  | 104 => rowOf (fld w 18 2 == 0) (.hzip (bvf w 20 2) (bvf w 14 4) (bvf w 8 6) (bvf w 3 5) (bvf w 0 3))
  | 105 => rowOf (fld w 18 2 == 0) (.houter (bvf w 20 2) (bvf w 14 4) (bvf w 8 6) (bvf w 3 5) (bvf w 0 3))
  | 106 => rowOf (fld w 0 3 == 0 && fld w 14 6 == 0) (.rdef (bvf w 20 2) (bvf w 8 6) (bvf w 3 5))
  | 107 => rowOf (fld w 0 8 == 0 && fld w 14 6 == 0) (.rdrop (bvf w 20 2) (bvf w 8 6))
  | 108 => rowOf (fld w 0 3 == 0 && fld w 8 12 == 0) (.wqpost (bvf w 20 2) (bvf w 3 5))
  | 109 => rowOf (fld w 0 3 == 0) (.wqarm (bvf w 20 2) (bvf w 8 12) (bvf w 3 5))
  | 110 => rowOf (fld w 0 8 == 0) (.wqcancel (bvf w 20 2) (bvf w 8 12))
  | 111 => rowOf (fld w 0 3 == 0) (.wqstat (bvf w 20 2) (bvf w 8 12) (bvf w 3 5))
  | 112 => rowOf (fld w 0 3 == 0) (.cntset (bvf w 20 2) (bvf w 8 12) (bvf w 3 5))
  | 113 => rowOf (fld w 0 2 == 0) (.cntadd (bvf w 20 2) (bvf w 8 12) (bvf w 3 5) (bvf w 2 1))
  | 114 => rowOf (fld w 0 3 == 0) (.cntwait (bvf w 20 2) (bvf w 8 12) (bvf w 3 5))
  | 115 => rowOf (fld w 0 3 == 0) (.cntread (bvf w 20 2) (bvf w 8 12) (bvf w 3 5))
  | 116 => rowOf (fld w 0 3 == 0 && fld w 12 8 == 0) (.gencfg (bvf w 20 2) (bvf w 8 4) (bvf w 3 5))
  | 117 => rowOf (fld w 0 8 == 0 && fld w 12 8 == 0) (.geninv (bvf w 20 2) (bvf w 8 4))
  | 118 => rowOf (fld w 10 5 == 0) (.gsr (bvf w 20 2) (bvf w 15 5) (bvf w 0 10))
  | 119 => rowOf (fld w 15 5 == 0) (.ssr (bvf w 20 2) (bvf w 10 5) (bvf w 0 10))
  | 127 => decodeSys w
  | _ => .illegal

/-- The words of tag 001, engine L (R65 to R68); `w` is the whole word. -/
def decodeL (w : Nat) : Decoded :=
  match fld w 22 7 with
  | 1 => rowOf (fld w 0 20 == 0) (.nopL (bvf w 20 2))
  | 2 => if fld w 9 1 == 1 && (fld w 4 5 == 0 && fld w 19 1 == 0) then .illegal else rowOf (fld w 4 6 == 0 && fld w 19 1 == 0) (.zbind (bvf w 20 2) (bvf w 15 4) (bvf w 10 5) (bvf w 0 4))
  | 3 => rowOf (fld w 0 15 == 0 && fld w 19 1 == 0) (.zstart (bvf w 20 2) (bvf w 15 4))
  | 4 => rowOf (fld w 0 15 == 0 && fld w 19 1 == 0) (.zstop (bvf w 20 2) (bvf w 15 4))
  | 5 => rowOf (fld w 10 5 == 0 && fld w 19 1 == 0) (.zskip (bvf w 20 2) (bvf w 15 4) (bvf w 0 10))
  | 6 => rowOf (fld w 9 1 == 0 && fld w 19 1 == 0) (.ldv (bvf w 20 2) (bvf w 15 4) (bvf w 10 5) (bvf w 0 9))
  | _ => .illegal

/-- The words of tag 010, engine V (R65 to R68); `w` is the whole word. -/
def decodeV (w : Nat) : Decoded :=
  match fld w 22 7 with
  | 1 => rowOf (fld w 0 20 == 0) (.nopV (bvf w 20 2))
  | 2 => .ok (.vadd (bvf w 20 2) (bvf w 15 5) (bvf w 10 5) (bvf w 5 5) (bvf w 1 4) (bvf w 0 1))
  | 3 => .ok (.vaddZq (bvf w 20 2) (bvf w 15 5) (bvf w 10 5) (bvf w 5 5) (bvf w 1 4) (bvf w 0 1))
  | 4 => .ok (.vsub (bvf w 20 2) (bvf w 15 5) (bvf w 10 5) (bvf w 5 5) (bvf w 1 4) (bvf w 0 1))
  | 5 => .ok (.vsubZq (bvf w 20 2) (bvf w 15 5) (bvf w 10 5) (bvf w 5 5) (bvf w 1 4) (bvf w 0 1))
  | 6 => .ok (.vmul (bvf w 20 2) (bvf w 15 5) (bvf w 10 5) (bvf w 5 5) (bvf w 1 4) (bvf w 0 1))
  | 7 => .ok (.vmulZq (bvf w 20 2) (bvf w 15 5) (bvf w 10 5) (bvf w 5 5) (bvf w 1 4) (bvf w 0 1))
  | 8 => rowOf (fld w 0 1 == 0) (.vfma (bvf w 20 2) (bvf w 15 5) (bvf w 10 5) (bvf w 5 5) (bvf w 1 4))
  | 9 => rowOf (fld w 0 1 == 0) (.vfmaZq (bvf w 20 2) (bvf w 15 5) (bvf w 10 5) (bvf w 5 5) (bvf w 1 4))
  | 10 => rowOf (fld w 0 1 == 0) (.vmin (bvf w 20 2) (bvf w 15 5) (bvf w 10 5) (bvf w 5 5) (bvf w 1 4))
  | 11 => rowOf (fld w 0 1 == 0) (.vminZq (bvf w 20 2) (bvf w 15 5) (bvf w 10 5) (bvf w 5 5) (bvf w 1 4))
  | 12 => rowOf (fld w 0 1 == 0) (.vmax (bvf w 20 2) (bvf w 15 5) (bvf w 10 5) (bvf w 5 5) (bvf w 1 4))
  | 13 => rowOf (fld w 0 1 == 0) (.vmaxZq (bvf w 20 2) (bvf w 15 5) (bvf w 10 5) (bvf w 5 5) (bvf w 1 4))
  | 14 => rowOf (fld w 10 5 == 0) (.vabs (bvf w 20 2) (bvf w 15 5) (bvf w 5 5) (bvf w 1 4) (bvf w 0 1))
  | 15 => rowOf (fld w 10 5 == 0) (.vabsZq (bvf w 20 2) (bvf w 15 5) (bvf w 5 5) (bvf w 1 4) (bvf w 0 1))
  | 16 => rowOf (fld w 10 5 == 0) (.vneg (bvf w 20 2) (bvf w 15 5) (bvf w 5 5) (bvf w 1 4) (bvf w 0 1))
  | 17 => rowOf (fld w 10 5 == 0) (.vnegZq (bvf w 20 2) (bvf w 15 5) (bvf w 5 5) (bvf w 1 4) (bvf w 0 1))
  | 18 => rowOf (fld w 0 5 == 0) (.vand (bvf w 20 2) (bvf w 15 5) (bvf w 10 5) (bvf w 5 5))
  | 19 => rowOf (fld w 0 5 == 0) (.vandZq (bvf w 20 2) (bvf w 15 5) (bvf w 10 5) (bvf w 5 5))
  | 20 => rowOf (fld w 0 5 == 0) (.vor (bvf w 20 2) (bvf w 15 5) (bvf w 10 5) (bvf w 5 5))
  | 21 => rowOf (fld w 0 5 == 0) (.vorZq (bvf w 20 2) (bvf w 15 5) (bvf w 10 5) (bvf w 5 5))
  | 22 => rowOf (fld w 0 5 == 0) (.vxor (bvf w 20 2) (bvf w 15 5) (bvf w 10 5) (bvf w 5 5))
  | 23 => rowOf (fld w 0 5 == 0) (.vxorZq (bvf w 20 2) (bvf w 15 5) (bvf w 10 5) (bvf w 5 5))
  | 24 => rowOf (fld w 0 5 == 0 && fld w 10 5 == 0) (.vnot (bvf w 20 2) (bvf w 15 5) (bvf w 5 5))
  | 25 => rowOf (fld w 0 5 == 0 && fld w 10 5 == 0) (.vnotZq (bvf w 20 2) (bvf w 15 5) (bvf w 5 5))
  | 26 => rowOf (fld w 0 1 == 0) (.vshl (bvf w 20 2) (bvf w 15 5) (bvf w 10 5) (bvf w 5 5) (bvf w 1 4))
  | 27 => rowOf (fld w 0 1 == 0) (.vshlZq (bvf w 20 2) (bvf w 15 5) (bvf w 10 5) (bvf w 5 5) (bvf w 1 4))
  | 28 => rowOf (fld w 0 1 == 0) (.vshr (bvf w 20 2) (bvf w 15 5) (bvf w 10 5) (bvf w 5 5) (bvf w 1 4))
  | 29 => rowOf (fld w 0 1 == 0) (.vshrZq (bvf w 20 2) (bvf w 15 5) (bvf w 10 5) (bvf w 5 5) (bvf w 1 4))
  | 30 => rowOf (fld w 0 1 == 0) (.vsar (bvf w 20 2) (bvf w 15 5) (bvf w 10 5) (bvf w 5 5) (bvf w 1 4))
  | 31 => rowOf (fld w 0 1 == 0) (.vsarZq (bvf w 20 2) (bvf w 15 5) (bvf w 10 5) (bvf w 5 5) (bvf w 1 4))
  | 32 => rowOf (fld w 0 1 == 0 && fld w 4 1 == 0) (.vsel (bvf w 20 2) (bvf w 15 5) (bvf w 10 5) (bvf w 5 5) (bvf w 1 3))
  | 33 => rowOf (fld w 0 1 == 0 && fld w 4 1 == 0) (.vselZq (bvf w 20 2) (bvf w 15 5) (bvf w 10 5) (bvf w 5 5) (bvf w 1 3))
  | 34 => .ok (.vcvt (bvf w 20 2) (bvf w 15 5) (bvf w 14 1) (bvf w 10 4) (bvf w 5 5) (bvf w 1 4) (bvf w 0 1))
  | 35 => .ok (.vcvtZq (bvf w 20 2) (bvf w 15 5) (bvf w 14 1) (bvf w 10 4) (bvf w 5 5) (bvf w 1 4) (bvf w 0 1))
  | 36 => rowOf (fld w 0 1 == 0 && fld w 10 5 == 0) (.vclz (bvf w 20 2) (bvf w 15 5) (bvf w 5 5) (bvf w 1 4))
  | 37 => rowOf (fld w 0 1 == 0 && fld w 10 5 == 0) (.vclzZq (bvf w 20 2) (bvf w 15 5) (bvf w 5 5) (bvf w 1 4))
  | 38 => rowOf (fld w 0 1 == 0 && fld w 10 5 == 0) (.vpopc (bvf w 20 2) (bvf w 15 5) (bvf w 5 5) (bvf w 1 4))
  | 39 => rowOf (fld w 0 1 == 0 && fld w 10 5 == 0) (.vpopcZq (bvf w 20 2) (bvf w 15 5) (bvf w 5 5) (bvf w 1 4))
  | 40 => rowOf (fld w 1 4 == 0) (.vext (bvf w 20 2) (bvf w 15 5) (bvf w 10 5) (bvf w 5 5) (bvf w 0 1))
  | 41 => rowOf (fld w 1 4 == 0) (.vextZq (bvf w 20 2) (bvf w 15 5) (bvf w 10 5) (bvf w 5 5) (bvf w 0 1))
  | 42 => rowOf (fld w 0 5 == 0) (.vins (bvf w 20 2) (bvf w 15 5) (bvf w 10 5) (bvf w 5 5))
  | 43 => rowOf (fld w 0 5 == 0) (.vinsZq (bvf w 20 2) (bvf w 15 5) (bvf w 10 5) (bvf w 5 5))
  | 44 => rowOf (fld w 0 5 == 0) (.vfsh (bvf w 20 2) (bvf w 15 5) (bvf w 10 5) (bvf w 5 5))
  | 45 => rowOf (fld w 0 5 == 0) (.vfshZq (bvf w 20 2) (bvf w 15 5) (bvf w 10 5) (bvf w 5 5))
  | 46 => rowOf (fld w 0 5 == 0) (.vperm (bvf w 20 2) (bvf w 15 5) (bvf w 10 5) (bvf w 5 5))
  | 47 => rowOf (fld w 0 5 == 0) (.vpermZq (bvf w 20 2) (bvf w 15 5) (bvf w 10 5) (bvf w 5 5))
  | 48 => rowOf (fld w 0 5 == 0) (.vbcast (bvf w 20 2) (bvf w 15 5) (bvf w 10 5) (bvf w 5 5))
  | 49 => rowOf (fld w 0 5 == 0) (.vbcastZq (bvf w 20 2) (bvf w 15 5) (bvf w 10 5) (bvf w 5 5))
  | 50 => rowOf (fld w 0 5 == 0) (.vlsh (bvf w 20 2) (bvf w 15 5) (bvf w 10 5) (bvf w 5 5))
  | 51 => rowOf (fld w 0 5 == 0) (.vlshZq (bvf w 20 2) (bvf w 15 5) (bvf w 10 5) (bvf w 5 5))
  | 52 => .ok (.vred (bvf w 20 2) (bvf w 15 5) (bvf w 14 1) (bvf w 10 4) (bvf w 5 5) (bvf w 1 4) (bvf w 0 1))
  | 53 => .ok (.vredZq (bvf w 20 2) (bvf w 15 5) (bvf w 14 1) (bvf w 10 4) (bvf w 5 5) (bvf w 1 4) (bvf w 0 1))
  | 54 => .ok (.vscan (bvf w 20 2) (bvf w 15 5) (bvf w 14 1) (bvf w 10 4) (bvf w 5 5) (bvf w 1 4) (bvf w 0 1))
  | 55 => .ok (.vscanZq (bvf w 20 2) (bvf w 15 5) (bvf w 14 1) (bvf w 10 4) (bvf w 5 5) (bvf w 1 4) (bvf w 0 1))
  | 56 => rowOf (fld w 0 1 == 0) (.vgath (bvf w 20 2) (bvf w 15 5) (bvf w 10 5) (bvf w 5 5) (bvf w 1 4))
  | 57 => rowOf (fld w 0 1 == 0) (.vgathZq (bvf w 20 2) (bvf w 15 5) (bvf w 10 5) (bvf w 5 5) (bvf w 1 4))
  | 58 => rowOf (fld w 0 1 == 0) (.vscat (bvf w 20 2) (bvf w 15 5) (bvf w 10 5) (bvf w 5 5) (bvf w 1 4))
  | 59 => rowOf (fld w 0 1 == 0) (.vscatZq (bvf w 20 2) (bvf w 15 5) (bvf w 10 5) (bvf w 5 5) (bvf w 1 4))
  | 60 => rowOf (fld w 0 1 == 0) (.vlut (bvf w 20 2) (bvf w 15 5) (bvf w 10 5) (bvf w 5 5) (bvf w 1 4))
  | 61 => rowOf (fld w 0 1 == 0) (.vlutZq (bvf w 20 2) (bvf w 15 5) (bvf w 10 5) (bvf w 5 5) (bvf w 1 4))
  | 62 => rowOf (fld w 0 1 == 0 && fld w 10 5 == 0) (.vrcp (bvf w 20 2) (bvf w 15 5) (bvf w 5 5) (bvf w 1 4))
  | 63 => rowOf (fld w 0 1 == 0 && fld w 10 5 == 0) (.vrcpZq (bvf w 20 2) (bvf w 15 5) (bvf w 5 5) (bvf w 1 4))
  | 64 => rowOf (fld w 0 1 == 0 && fld w 10 5 == 0) (.vrsq (bvf w 20 2) (bvf w 15 5) (bvf w 5 5) (bvf w 1 4))
  | 65 => rowOf (fld w 0 1 == 0 && fld w 10 5 == 0) (.vrsqZq (bvf w 20 2) (bvf w 15 5) (bvf w 5 5) (bvf w 1 4))
  | 66 => rowOf (fld w 0 1 == 0 && fld w 10 5 == 0) (.vexp2 (bvf w 20 2) (bvf w 15 5) (bvf w 5 5) (bvf w 1 4))
  | 67 => rowOf (fld w 0 1 == 0 && fld w 10 5 == 0) (.vexp2Zq (bvf w 20 2) (bvf w 15 5) (bvf w 5 5) (bvf w 1 4))
  | 68 => rowOf (fld w 0 1 == 0 && fld w 10 5 == 0) (.vlog2 (bvf w 20 2) (bvf w 15 5) (bvf w 5 5) (bvf w 1 4))
  | 69 => rowOf (fld w 0 1 == 0 && fld w 10 5 == 0) (.vlog2Zq (bvf w 20 2) (bvf w 15 5) (bvf w 5 5) (bvf w 1 4))
  | 70 => .ok (.vatan (bvf w 20 2) (bvf w 15 5) (bvf w 10 5) (bvf w 5 5) (bvf w 1 4) (bvf w 0 1))
  | 71 => .ok (.vatanZq (bvf w 20 2) (bvf w 15 5) (bvf w 10 5) (bvf w 5 5) (bvf w 1 4) (bvf w 0 1))
  | 72 => rowOf (fld w 10 5 == 0) (.vsincos (bvf w 20 2) (bvf w 15 5) (bvf w 5 5) (bvf w 1 4) (bvf w 0 1))
  | 73 => rowOf (fld w 10 5 == 0) (.vsincosZq (bvf w 20 2) (bvf w 15 5) (bvf w 5 5) (bvf w 1 4) (bvf w 0 1))
  | 74 => rowOf (fld w 0 1 == 0 && fld w 10 5 == 0) (.vnorm (bvf w 20 2) (bvf w 15 5) (bvf w 5 5) (bvf w 1 4))
  | 75 => rowOf (fld w 0 1 == 0 && fld w 10 5 == 0) (.vnormZq (bvf w 20 2) (bvf w 15 5) (bvf w 5 5) (bvf w 1 4))
  | 76 => .ok (.vsplit (bvf w 20 2) (bvf w 15 5) (bvf w 10 5) (bvf w 5 5) (bvf w 1 4) (bvf w 0 1))
  | 77 => .ok (.vsplitZq (bvf w 20 2) (bvf w 15 5) (bvf w 10 5) (bvf w 5 5) (bvf w 1 4) (bvf w 0 1))
  | 78 => rowOf (fld w 0 5 == 0 && fld w 10 5 == 0) (.vmov (bvf w 20 2) (bvf w 15 5) (bvf w 5 5))
  | 79 => rowOf (fld w 0 5 == 0 && fld w 10 5 == 0) (.vmovZq (bvf w 20 2) (bvf w 15 5) (bvf w 5 5))
  | 81 => rowOf (fld w 0 5 == 0 && fld w 15 5 == 0) (.vtos (bvf w 20 2) (bvf w 10 5) (bvf w 5 5))
  | 83 => rowOf (fld w 0 5 == 0 && fld w 10 5 == 0) (.vfroms (bvf w 20 2) (bvf w 15 5) (bvf w 5 5))
  | 84 => .ok (.vaadd (bvf w 20 2) (bvf w 15 5) (bvf w 10 5) (bvf w 5 5) (bvf w 1 4) (bvf w 0 1))
  | 85 => .ok (.vaaddZq (bvf w 20 2) (bvf w 15 5) (bvf w 10 5) (bvf w 5 5) (bvf w 1 4) (bvf w 0 1))
  | 86 => rowOf (fld w 0 1 == 0 && fld w 18 2 == 0) (.vcmpEq (bvf w 20 2) (bvf w 15 3) (bvf w 10 5) (bvf w 5 5) (bvf w 1 4))
  | 87 => rowOf (fld w 0 1 == 0 && fld w 18 2 == 0) (.vcmpEqZq (bvf w 20 2) (bvf w 15 3) (bvf w 10 5) (bvf w 5 5) (bvf w 1 4))
  | 88 => rowOf (fld w 0 1 == 0 && fld w 18 2 == 0) (.vcmpNe (bvf w 20 2) (bvf w 15 3) (bvf w 10 5) (bvf w 5 5) (bvf w 1 4))
  | 89 => rowOf (fld w 0 1 == 0 && fld w 18 2 == 0) (.vcmpNeZq (bvf w 20 2) (bvf w 15 3) (bvf w 10 5) (bvf w 5 5) (bvf w 1 4))
  | 90 => rowOf (fld w 0 1 == 0 && fld w 18 2 == 0) (.vcmpLt (bvf w 20 2) (bvf w 15 3) (bvf w 10 5) (bvf w 5 5) (bvf w 1 4))
  | 91 => rowOf (fld w 0 1 == 0 && fld w 18 2 == 0) (.vcmpLtZq (bvf w 20 2) (bvf w 15 3) (bvf w 10 5) (bvf w 5 5) (bvf w 1 4))
  | 92 => rowOf (fld w 0 1 == 0 && fld w 18 2 == 0) (.vcmpLe (bvf w 20 2) (bvf w 15 3) (bvf w 10 5) (bvf w 5 5) (bvf w 1 4))
  | 93 => rowOf (fld w 0 1 == 0 && fld w 18 2 == 0) (.vcmpLeZq (bvf w 20 2) (bvf w 15 3) (bvf w 10 5) (bvf w 5 5) (bvf w 1 4))
  | 94 => rowOf (fld w 0 1 == 0 && fld w 18 2 == 0) (.vcmpLtn (bvf w 20 2) (bvf w 15 3) (bvf w 10 5) (bvf w 5 5) (bvf w 1 4))
  | 95 => rowOf (fld w 0 1 == 0 && fld w 18 2 == 0) (.vcmpLtnZq (bvf w 20 2) (bvf w 15 3) (bvf w 10 5) (bvf w 5 5) (bvf w 1 4))
  | 96 => rowOf (fld w 0 1 == 0 && fld w 18 2 == 0) (.vcmpLen (bvf w 20 2) (bvf w 15 3) (bvf w 10 5) (bvf w 5 5) (bvf w 1 4))
  | 97 => rowOf (fld w 0 1 == 0 && fld w 18 2 == 0) (.vcmpLenZq (bvf w 20 2) (bvf w 15 3) (bvf w 10 5) (bvf w 5 5) (bvf w 1 4))
  | 98 => .ok (.vli (bvf w 20 2) (bvf w 15 5) (bvf w 0 15))
  | 99 => rowOf (fld w 0 5 == 0 && fld w 8 2 == 0 && fld w 13 2 == 0 && fld w 18 2 == 0) (.mand (bvf w 20 2) (bvf w 15 3) (bvf w 10 3) (bvf w 5 3))
  | 100 => rowOf (fld w 0 5 == 0 && fld w 8 2 == 0 && fld w 13 2 == 0 && fld w 18 2 == 0) (.mor (bvf w 20 2) (bvf w 15 3) (bvf w 10 3) (bvf w 5 3))
  | 101 => rowOf (fld w 0 5 == 0 && fld w 8 2 == 0 && fld w 13 2 == 0 && fld w 18 2 == 0) (.mxor (bvf w 20 2) (bvf w 15 3) (bvf w 10 3) (bvf w 5 3))
  | 102 => rowOf (fld w 0 5 == 0 && fld w 8 7 == 0 && fld w 18 2 == 0) (.mnot (bvf w 20 2) (bvf w 15 3) (bvf w 5 3))
  | 103 => rowOf (fld w 0 5 == 0 && fld w 8 7 == 0) (.mpopc (bvf w 20 2) (bvf w 15 5) (bvf w 5 3))
  | 104 => rowOf (fld w 0 5 == 0 && fld w 8 7 == 0) (.mfirst (bvf w 20 2) (bvf w 15 5) (bvf w 5 3))
  | _ => .illegal

/-- The words of tag 011, engine M (R65 to R68); `w` is the whole word. -/
def decodeM (w : Nat) : Decoded :=
  match fld w 22 7 with
  | 1 => rowOf (fld w 0 20 == 0) (.nopM (bvf w 20 2))
  | 2 => rowOf (fld w 3 7 == 0 && fld w 14 1 == 0 && fld w 18 2 == 0) (.mload (bvf w 20 2) (bvf w 15 3) (bvf w 10 4) (bvf w 2 1) (bvf w 0 2))
  | 3 => rowOf (fld w 2 8 == 0 && fld w 13 2 == 0 && fld w 19 1 == 0) (.mstore (bvf w 20 2) (bvf w 15 4) (bvf w 10 3) (bvf w 0 2))
  | 4 => .ok (.msweep (bvf w 20 2) (bvf w 16 4) (bvf w 12 4) (bvf w 9 3) (bvf w 7 2) (bvf w 3 4) (bvf w 2 1) (bvf w 1 1) (bvf w 0 1))
  | 5 => rowOf (fld w 0 3 == 0) (.mderive (bvf w 20 2) (bvf w 16 4) (bvf w 12 4) (bvf w 9 3) (bvf w 7 2) (bvf w 3 4))
  | 6 => rowOf (fld w 2 8 == 0 && fld w 13 2 == 0 && fld w 18 2 == 0) (.mscale (bvf w 20 2) (bvf w 15 3) (bvf w 10 3) (bvf w 0 2))
  | 7 => rowOf (fld w 2 13 == 0 && fld w 19 1 == 0) (.mpanel (bvf w 20 2) (bvf w 15 4) (bvf w 0 2))
  | 8 => rowOf (fld w 0 1 == 0) (.mslice (bvf w 20 2) (bvf w 15 5) (bvf w 11 4) (bvf w 8 3) (bvf w 7 1) (bvf w 3 4) (bvf w 1 2))
  | 9 => rowOf (fld w 4 16 == 0) (.mcommit (bvf w 20 2) (bvf w 0 4))
  | 10 => rowOf (fld w 4 16 == 0) (.mwaitb (bvf w 20 2) (bvf w 0 4))
  | 11 => .ok (.mretire (bvf w 20 2) (bvf w 16 4) (bvf w 11 5) (bvf w 8 3) (bvf w 6 2) (bvf w 2 4) (bvf w 0 2))
  | 12 => rowOf (fld w 1 9 == 0 && fld w 12 3 == 0 && fld w 19 1 == 0) (.mnorm (bvf w 20 2) (bvf w 15 4) (bvf w 10 2) (bvf w 0 1))
  | 13 =>
    if fld w 14 1 == 0 then rowOf (fld w 7 8 == 0) (.mclrWindow (bvf w 20 2) (bvf w 15 5) (bvf w 2 5) (bvf w 0 2))
    else rowOf (fld w 2 13 == 0x1000 && fld w 18 2 == 0) (.mclrBank (bvf w 20 2) (bvf w 15 3) (bvf w 0 2))
  | 14 => rowOf (fld w 5 10 == 0 && fld w 19 1 == 0) (.mstat (bvf w 20 2) (bvf w 15 4) (bvf w 4 1) (bvf w 0 4))
  | 15 => rowOf (fld w 4 16 == 0) (.mfence (bvf w 20 2) (bvf w 0 4))
  | _ => .illegal

/-- The words of tag 100, engine S (R65 to R68); `w` is the whole word. -/
noncomputable def decodeS (w : Nat) : Decoded :=
  match fld w 22 7 with
  | 1 => rowOf (fld w 0 20 == 0) (.nopS (bvf w 20 2))
  | 2 => rowOf (fld w 0 15 == 0 && fld w 19 1 == 0) (.zdrain (bvf w 20 2) (bvf w 15 4))
  | 3 => rowOf (fld w 9 1 == 0 && fld w 19 1 == 0) (.stv (bvf w 20 2) (bvf w 15 4) (bvf w 10 5) (bvf w 0 9))
  | 4 => rowOf (fld w 1 4 == 0 && fld w 12 3 == 0 && fld w 19 1 == 0) (.scvt (bvf w 20 2) (bvf w 15 4) (bvf w 10 2) (bvf w 5 5) (bvf w 0 1))
  | 5 => rowOf (fld w 1 9 == 0 && fld w 19 1 == 0) (.samax (bvf w 20 2) (bvf w 15 4) (bvf w 14 1) (bvf w 10 4) (bvf w 0 1))
  | 6 => rowOf (fld w 0 5 == 0 && fld w 14 1 == 0 && fld w 19 1 == 0) (.vamaxr (bvf w 20 2) (bvf w 15 4) (bvf w 10 4) (bvf w 9 1) (bvf w 5 4))
  | 7 => .ok (.supd (bvf w 20 2) (bvf w 16 4) (bvf w 12 4) (bvf w 0 12))
  | 8 => rowOf (fld w 0 16 == 0) (.spair (bvf w 20 2) (bvf w 16 4))
  | _ => .illegal

/-- The broadcast words (R69). -/
noncomputable def decodeX (w : Nat) : Decoded :=
  match fld w 22 7 with
  | 65 => rowOf (fld w 13 2 == 0 && fld w 15 5 != 0) (.notify (bvf w 20 2) (bvf w 15 5) (bvf w 12 1) (bvf w 0 12))
  | 66 => rowOf (fld w 15 5 == 0x1f) (.dictld (bvf w 20 2) (bvf w 10 5) (bvf w 0 10))
  | 72 => rowOf (fld w 19 1 == 1 && fld w 15 4 != 0) (.bemEq (bvf w 20 2) (bvf w 15 4) (bvf w 11 4) (bvf w 7 4) (bvf w 0 7))
  | 73 => rowOf (fld w 19 1 == 1 && fld w 15 4 != 0) (.bemEqA (bvf w 20 2) (bvf w 15 4) (bvf w 11 4) (bvf w 7 4) (bvf w 0 7))
  | 74 => rowOf (fld w 19 1 == 1 && fld w 15 4 != 0) (.bemNe (bvf w 20 2) (bvf w 15 4) (bvf w 11 4) (bvf w 7 4) (bvf w 0 7))
  | 75 => rowOf (fld w 19 1 == 1 && fld w 15 4 != 0) (.bemNeA (bvf w 20 2) (bvf w 15 4) (bvf w 11 4) (bvf w 7 4) (bvf w 0 7))
  | 76 => rowOf (fld w 19 1 == 1 && fld w 15 4 != 0) (.bemLt (bvf w 20 2) (bvf w 15 4) (bvf w 11 4) (bvf w 7 4) (bvf w 0 7))
  | 77 => rowOf (fld w 19 1 == 1 && fld w 15 4 != 0) (.bemLtA (bvf w 20 2) (bvf w 15 4) (bvf w 11 4) (bvf w 7 4) (bvf w 0 7))
  | 78 => rowOf (fld w 19 1 == 1 && fld w 15 4 != 0) (.bemLe (bvf w 20 2) (bvf w 15 4) (bvf w 11 4) (bvf w 7 4) (bvf w 0 7))
  | 79 => rowOf (fld w 19 1 == 1 && fld w 15 4 != 0) (.bemLeA (bvf w 20 2) (bvf w 15 4) (bvf w 11 4) (bvf w 7 4) (bvf w 0 7))
  | 80 => rowOf (fld w 19 1 == 1 && fld w 15 4 != 0) (.bemLtn (bvf w 20 2) (bvf w 15 4) (bvf w 11 4) (bvf w 7 4) (bvf w 0 7))
  | 81 => rowOf (fld w 19 1 == 1 && fld w 15 4 != 0) (.bemLtnA (bvf w 20 2) (bvf w 15 4) (bvf w 11 4) (bvf w 7 4) (bvf w 0 7))
  | 82 => rowOf (fld w 19 1 == 1 && fld w 15 4 != 0) (.bemLen (bvf w 20 2) (bvf w 15 4) (bvf w 11 4) (bvf w 7 4) (bvf w 0 7))
  | 83 => rowOf (fld w 19 1 == 1 && fld w 15 4 != 0) (.bemLenA (bvf w 20 2) (bvf w 15 4) (bvf w 11 4) (bvf w 7 4) (bvf w 0 7))
  | _ => .illegal

/-- A 32-bit item whose first parcel does not begin with 11 (R48). A register-count header with a reserved bit set is
RESERVED_FIELD (R51). -/
noncomputable def decode32 (w : Nat) : Decoded :=
  match fld w 29 3 with
  | 0 => decodeC w
  | 1 => decodeL w
  | 2 => decodeV w
  | 3 => decodeM w
  | 4 => decodeS w
  | 5 =>
    if fld w 28 1 == 1 then decodeX w
    else if fld w 15 1 == 0 then .ok (.blockHeader (bvf w 16 12) (bvf w 0 15))
    else if fld w 5 10 == 0 then .ok (.blockHeaderReg (bvf w 16 12) (bvf w 0 5))
    else .header (fld w 16 12)
  | _ => .illegal

/-- A one-parcel item (R56, R62). -/
noncomputable def decode16 (p : Nat) : Decoded :=
  match fld p 13 3 with
  | 6 => .ok (.timedNop (bvf p 0 13))
  | 7 => rowOf (fld p 10 3 == 0) (.dictionaryReference (bvf p 0 10))
  | _ => .illegal

/-- Whether a first parcel begins a 32-bit item (R48). -/
def isLong (p : Nat) : Bool := decide (fld p 13 3 < 6)

/-- The item that starts with the parcel `p0` and is followed by the parcel `p1`. -/
noncomputable def decodeParcels (p0 p1 : Nat) : Decoded := if isLong p0 then decode32 (p0 * 2 ^ 16 + p1) else decode16 p0

/-- Two little-endian bytes (R15). -/
def parcelOf (a b : Byte) : Nat := a.toNat + 2 ^ 8 * b.toNat

/-- The decoder on bytes: the item and the bytes after it; `none` where no whole item stands or the item is refused. -/
noncomputable def decodeBytes : List Byte → Option (Instr × List Byte)
  | a :: b :: rest =>
    let p0 := parcelOf a b
    if isLong p0 then
      match rest with
      | c :: d :: rest2 =>
        match decode32 (p0 * 2 ^ 16 + parcelOf c d) with
        | .ok i => some (i, rest2)
        | _ => none
      | _ => none
    else
      match decode16 p0 with
      | .ok i => some (i, rest)
      | _ => none
  | _ => none

/-- Pieces (width, value), most significant first, as one number. -/
def pack : List (Nat × Nat) → Nat := List.foldl (fun a p => a * 2 ^ p.1 + p.2) 0

/-- The encoder: the number of bits and the item, from the same tables. An event row has no words. -/
def encode : Instr → Option (Nat × Nat)
  | .nopC y => some (32, pack [(10, 1), (2, y.toNat), (20, 0)])
  | .add y d a b => some (32, pack [(10, 2), (2, y.toNat), (5, d.toNat), (5, a.toNat), (5, b.toNat), (5, 0)])
  | .sub y d a b => some (32, pack [(10, 3), (2, y.toNat), (5, d.toNat), (5, a.toNat), (5, b.toNat), (5, 0)])
  | .mul y d a b => some (32, pack [(10, 4), (2, y.toNat), (5, d.toNat), (5, a.toNat), (5, b.toNat), (5, 0)])
  | .mulh y d a b => some (32, pack [(10, 5), (2, y.toNat), (5, d.toNat), (5, a.toNat), (5, b.toNat), (5, 0)])
  | .mulhn y d a b => some (32, pack [(10, 6), (2, y.toNat), (5, d.toNat), (5, a.toNat), (5, b.toNat), (5, 0)])
  | .div y d a b => some (32, pack [(10, 7), (2, y.toNat), (5, d.toNat), (5, a.toNat), (5, b.toNat), (5, 0)])
  | .divn y d a b => some (32, pack [(10, 8), (2, y.toNat), (5, d.toNat), (5, a.toNat), (5, b.toNat), (5, 0)])
  | .rem y d a b => some (32, pack [(10, 9), (2, y.toNat), (5, d.toNat), (5, a.toNat), (5, b.toNat), (5, 0)])
  | .remn y d a b => some (32, pack [(10, 0xa), (2, y.toNat), (5, d.toNat), (5, a.toNat), (5, b.toNat), (5, 0)])
  | .and y d a b => some (32, pack [(10, 0xb), (2, y.toNat), (5, d.toNat), (5, a.toNat), (5, b.toNat), (5, 0)])
  | .or y d a b => some (32, pack [(10, 0xc), (2, y.toNat), (5, d.toNat), (5, a.toNat), (5, b.toNat), (5, 0)])
  | .xor y d a b => some (32, pack [(10, 0xd), (2, y.toNat), (5, d.toNat), (5, a.toNat), (5, b.toNat), (5, 0)])
  | .shl y d a b => some (32, pack [(10, 0xe), (2, y.toNat), (5, d.toNat), (5, a.toNat), (5, b.toNat), (5, 0)])
  | .shr y d a b => some (32, pack [(10, 0xf), (2, y.toNat), (5, d.toNat), (5, a.toNat), (5, b.toNat), (5, 0)])
  | .sar y d a b => some (32, pack [(10, 0x10), (2, y.toNat), (5, d.toNat), (5, a.toNat), (5, b.toNat), (5, 0)])
  | .slt y d a b => some (32, pack [(10, 0x11), (2, y.toNat), (5, d.toNat), (5, a.toNat), (5, b.toNat), (5, 0)])
  | .sltn y d a b => some (32, pack [(10, 0x12), (2, y.toNat), (5, d.toNat), (5, a.toNat), (5, b.toNat), (5, 0)])
  | .min y d a b => some (32, pack [(10, 0x13), (2, y.toNat), (5, d.toNat), (5, a.toNat), (5, b.toNat), (5, 0)])
  | .max y d a b => some (32, pack [(10, 0x14), (2, y.toNat), (5, d.toNat), (5, a.toNat), (5, b.toNat), (5, 0)])
  | .minn y d a b => some (32, pack [(10, 0x15), (2, y.toNat), (5, d.toNat), (5, a.toNat), (5, b.toNat), (5, 0)])
  | .maxn y d a b => some (32, pack [(10, 0x16), (2, y.toNat), (5, d.toNat), (5, a.toNat), (5, b.toNat), (5, 0)])
  | .fsh y d a b x => some (32, pack [(10, 0x17), (2, y.toNat), (5, d.toNat), (5, a.toNat), (5, b.toNat), (5, x.toNat)])
  | .sel y d a b p => some (32, pack [(10, 0x18), (2, y.toNat), (5, d.toNat), (5, a.toNat), (5, b.toNat), (2, 0), (3, p.toNat)])
  | .addi y d a k => some (32, pack [(10, 0x19), (2, y.toNat), (5, d.toNat), (5, a.toNat), (10, k.toNat)])
  | .andi y d a k => some (32, pack [(10, 0x1a), (2, y.toNat), (5, d.toNat), (5, a.toNat), (10, k.toNat)])
  | .ori y d a k => some (32, pack [(10, 0x1b), (2, y.toNat), (5, d.toNat), (5, a.toNat), (10, k.toNat)])
  | .xori y d a k => some (32, pack [(10, 0x1c), (2, y.toNat), (5, d.toNat), (5, a.toNat), (10, k.toNat)])
  | .shli y d a k => some (32, pack [(10, 0x1d), (2, y.toNat), (5, d.toNat), (5, a.toNat), (4, 0), (6, k.toNat)])
  | .shri y d a k => some (32, pack [(10, 0x1e), (2, y.toNat), (5, d.toNat), (5, a.toNat), (4, 0), (6, k.toNat)])
  | .sari y d a k => some (32, pack [(10, 0x1f), (2, y.toNat), (5, d.toNat), (5, a.toNat), (4, 0), (6, k.toNat)])
  | .slti y d a k => some (32, pack [(10, 0x20), (2, y.toNat), (5, d.toNat), (5, a.toNat), (10, k.toNat)])
  | .ext y d a l p => some (32, pack [(10, 0x21), (2, y.toNat), (5, d.toNat), (5, a.toNat), (4, l.toNat), (6, p.toNat)])
  | .ins y d a l p => some (32, pack [(10, 0x22), (2, y.toNat), (5, d.toNat), (5, a.toNat), (4, l.toNat), (6, p.toNat)])
  | .clz y d a => some (32, pack [(10, 0x23), (2, y.toNat), (5, d.toNat), (5, a.toNat), (10, 0)])
  | .ctz y d a => some (32, pack [(10, 0x24), (2, y.toNat), (5, d.toNat), (5, a.toNat), (10, 0)])
  | .popc y d a => some (32, pack [(10, 0x25), (2, y.toNat), (5, d.toNat), (5, a.toNat), (10, 0)])
  | .lih y d k => some (32, pack [(10, 0x26), (2, y.toNat), (5, d.toNat), (15, k.toNat)])
  | .cmpCc y d a b c => some (32, pack [(10, 0x27), (2, y.toNat), (2, 0), (3, d.toNat), (5, a.toNat), (5, b.toNat), (2, 0), (3, c.toNat)])
  | .cmpiCc c y d a k => some (32, pack [(7, 5), (3, c.toNat), (2, y.toNat), (2, 0), (3, d.toNat), (5, a.toNat), (10, k.toNat)])
  | .bCc c y d a k => some (32, pack [(6, 3), (3, c.toNat), (1, 0), (2, y.toNat), (5, d.toNat), (5, a.toNat), (10, k.toNat)])
  | .bCcA c y d a k => some (32, pack [(6, 3), (3, c.toNat), (1, 1), (2, y.toNat), (5, d.toNat), (5, a.toNat), (10, k.toNat)])
  | .br y k => some (32, pack [(10, 0x3c), (2, y.toNat), (20, k.toNat)])
  | .call y k => some (32, pack [(10, 0x3d), (2, y.toNat), (20, k.toNat)])
  | .ret y => some (32, pack [(10, 0x3e), (2, y.toNat), (20, 0)])
  | .jr y d => some (32, pack [(10, 0x3f), (2, y.toNat), (5, d.toNat), (15, 0)])
  | .qpush y d a => some (32, pack [(10, 0x40), (2, y.toNat), (1, 0), (4, d.toNat), (5, a.toNat), (10, 0)])
  | .qpop y d a => some (32, pack [(10, 0x41), (2, y.toNat), (5, d.toNat), (1, 0), (4, a.toNat), (10, 0)])
  | .qpeek y d a => some (32, pack [(10, 0x42), (2, y.toNat), (5, d.toNat), (1, 0), (4, a.toNat), (10, 0)])
  | .qbind y d p c => some (32, pack [(10, 0x43), (2, y.toNat), (1, 0), (4, d.toNat), (5, 0), (5, p.toNat), (5, c.toNat)])
  | .ld y t b h w i x => some (32, pack [(10, 0x44), (2, y.toNat), (5, t.toNat), (5, b.toNat), (1, h.toNat), (3, w.toNat), (1, i.toNat), (5, x.toNat)])
  | .st y t b h w i x => some (32, pack [(10, 0x45), (2, y.toNat), (5, t.toNat), (5, b.toNat), (1, h.toNat), (3, w.toNat), (1, i.toNat), (5, x.toNat)])
  | .xlate y d a => some (32, pack [(10, 0x46), (2, y.toNat), (1, 0), (4, d.toNat), (5, a.toNat), (10, 0)])
  | .hdrop y d => some (32, pack [(10, 0x47), (2, y.toNat), (1, 0), (4, d.toNat), (15, 0)])
  | .hchk y d a => some (32, pack [(10, 0x48), (2, y.toNat), (5, d.toNat), (1, 0), (4, a.toNat), (10, 0)])
  | .sealPages y d a => some (32, pack [(10, 0x49), (2, y.toNat), (5, d.toNat), (5, a.toNat), (10, 0)])
  | .unsealPages y d a => some (32, pack [(10, 0x4a), (2, y.toNat), (5, d.toNat), (5, a.toNat), (10, 0)])
  | .bind y a k => some (32, pack [(10, 0x4b), (2, y.toNat), (5, 0), (5, a.toNat), (10, k.toNat)])
  | .unbind y k => some (32, pack [(10, 0x4c), (2, y.toNat), (10, 0), (10, k.toNat)])
  | .acq y d p e => some (32, pack [(10, 0x4d), (2, y.toNat), (5, d.toNat), (11, 0), (3, p.toNat), (1, e.toNat)])
  | .rel y d => some (32, pack [(10, 0x4e), (2, y.toNat), (5, d.toNat), (15, 0)])
  | .fence y s => some (32, pack [(10, 0x4f), (2, y.toNat), (17, 0), (3, s.toNat)])
  | .tlook y d a => some (32, pack [(10, 0x50), (2, y.toNat), (5, d.toNat), (5, a.toNat), (10, 0)])
  | .tset y d a b z => some (32, pack [(10, 0x51), (2, y.toNat), (5, d.toNat), (5, a.toNat), (5, b.toNat), (2, 0), (3, z.toNat)])
  | .tclr y d l => some (32, pack [(10, 0x52), (2, y.toNat), (5, d.toNat), (14, 0), (1, l.toNat)])
  | .aadd y t b h w s q => some (32, pack [(10, 0x53), (2, y.toNat), (5, t.toNat), (5, b.toNat), (1, h.toNat), (2, w.toNat), (3, s.toNat), (1, q.toNat), (3, 0)])
  | .axchg y t b h w s => some (32, pack [(10, 0x54), (2, y.toNat), (5, t.toNat), (5, b.toNat), (1, h.toNat), (2, w.toNat), (3, s.toNat), (4, 0)])
  | .acas y t b h w s => some (32, pack [(10, 0x55), (2, y.toNat), (5, t.toNat), (5, b.toNat), (1, h.toNat), (2, w.toNat), (3, s.toNat), (4, 0)])
  | .amin y t b h w s => some (32, pack [(10, 0x56), (2, y.toNat), (5, t.toNat), (5, b.toNat), (1, h.toNat), (2, w.toNat), (3, s.toNat), (4, 0)])
  | .amax y t b h w s => some (32, pack [(10, 0x57), (2, y.toNat), (5, t.toNat), (5, b.toNat), (1, h.toNat), (2, w.toNat), (3, s.toNat), (4, 0)])
  | .aand y t b h w s => some (32, pack [(10, 0x58), (2, y.toNat), (5, t.toNat), (5, b.toNat), (1, h.toNat), (2, w.toNat), (3, s.toNat), (4, 0)])
  | .aor y t b h w s => some (32, pack [(10, 0x59), (2, y.toNat), (5, t.toNat), (5, b.toNat), (1, h.toNat), (2, w.toNat), (3, s.toNat), (4, 0)])
  | .axor y t b h w s => some (32, pack [(10, 0x5a), (2, y.toNat), (5, t.toNat), (5, b.toNat), (1, h.toNat), (2, w.toNat), (3, s.toNat), (4, 0)])
  | .aincw y t b h w s => some (32, pack [(10, 0x5b), (2, y.toNat), (5, t.toNat), (5, b.toNat), (1, h.toNat), (2, w.toNat), (3, s.toNat), (4, 0)])
  | .afaddb y t b h w s p => some (32, pack [(10, 0x5c), (2, y.toNat), (5, t.toNat), (5, b.toNat), (1, h.toNat), (2, w.toNat), (3, s.toNat), (1, 0), (3, p.toNat)])
  | .ared y t b k => some (32, pack [(10, 0x5d), (2, y.toNat), (5, t.toNat), (5, b.toNat), (1, 0), (2, k.toNat), (7, 0)])
  | .atclose y => some (32, pack [(10, 0x5e), (2, y.toNat), (20, 0)])
  | .fset y n => some (32, pack [(10, 0x5f), (2, y.toNat), (12, n.toNat), (8, 0)])
  | .fclr y n => some (32, pack [(10, 0x60), (2, y.toNat), (12, n.toNat), (8, 0)])
  | .fwait y n p => some (32, pack [(10, 0x61), (2, y.toNat), (12, n.toNat), (5, 0), (3, p.toNat)])
  | .ftest y n p => some (32, pack [(10, 0x62), (2, y.toNat), (12, n.toNat), (5, 0), (3, p.toNat)])
  | .barjoin y n a => some (32, pack [(10, 0x63), (2, y.toNat), (12, n.toNat), (5, a.toNat), (3, 0)])
  | .barwait y n p => some (32, pack [(10, 0x64), (2, y.toNat), (12, n.toNat), (5, 0), (3, p.toNat)])
  | .jobx y a => some (32, pack [(10, 0x65), (2, y.toNat), (12, 0), (5, a.toNat), (3, 0)])
  | .hfold y p h a e => some (32, pack [(10, 0x66), (2, y.toNat), (2, 0), (4, p.toNat), (6, h.toNat), (5, a.toNat), (3, e.toNat)])
  | .hscan y p h a e => some (32, pack [(10, 0x67), (2, y.toNat), (2, 0), (4, p.toNat), (6, h.toNat), (5, a.toNat), (3, e.toNat)])
  | .hzip y p h a e => some (32, pack [(10, 0x68), (2, y.toNat), (2, 0), (4, p.toNat), (6, h.toNat), (5, a.toNat), (3, e.toNat)])
  | .houter y p h a e => some (32, pack [(10, 0x69), (2, y.toNat), (2, 0), (4, p.toNat), (6, h.toNat), (5, a.toNat), (3, e.toNat)])
  | .rdef y h a => some (32, pack [(10, 0x6a), (2, y.toNat), (6, 0), (6, h.toNat), (5, a.toNat), (3, 0)])
  | .rdrop y h => some (32, pack [(10, 0x6b), (2, y.toNat), (6, 0), (6, h.toNat), (8, 0)])
  | .wqpost y a => some (32, pack [(10, 0x6c), (2, y.toNat), (12, 0), (5, a.toNat), (3, 0)])
  | .wqarm y n a => some (32, pack [(10, 0x6d), (2, y.toNat), (12, n.toNat), (5, a.toNat), (3, 0)])
  | .wqcancel y n => some (32, pack [(10, 0x6e), (2, y.toNat), (12, n.toNat), (8, 0)])
  | .wqstat y n d => some (32, pack [(10, 0x6f), (2, y.toNat), (12, n.toNat), (5, d.toNat), (3, 0)])
  | .cntset y n a => some (32, pack [(10, 0x70), (2, y.toNat), (12, n.toNat), (5, a.toNat), (3, 0)])
  | .cntadd y n a i => some (32, pack [(10, 0x71), (2, y.toNat), (12, n.toNat), (5, a.toNat), (1, i.toNat), (2, 0)])
  | .cntwait y n a => some (32, pack [(10, 0x72), (2, y.toNat), (12, n.toNat), (5, a.toNat), (3, 0)])
  | .cntread y n d => some (32, pack [(10, 0x73), (2, y.toNat), (12, n.toNat), (5, d.toNat), (3, 0)])
  | .gencfg y w a => some (32, pack [(10, 0x74), (2, y.toNat), (8, 0), (4, w.toNat), (5, a.toNat), (3, 0)])
  | .geninv y w => some (32, pack [(10, 0x75), (2, y.toNat), (8, 0), (4, w.toNat), (8, 0)])
  | .gsr y d k => some (32, pack [(10, 0x76), (2, y.toNat), (5, d.toNat), (5, 0), (10, k.toNat)])
  | .ssr y a k => some (32, pack [(10, 0x77), (2, y.toNat), (5, 0), (5, a.toNat), (10, k.toNat)])
  | .trap y d a => some (32, pack [(10, 0x7f), (2, y.toNat), (5, d.toNat), (5, a.toNat), (10, 1)])
  | .rft y d => some (32, pack [(10, 0x7f), (2, y.toNat), (5, d.toNat), (15, 2)])
  | .brk y d => some (32, pack [(10, 0x7f), (2, y.toNat), (5, d.toNat), (15, 3)])
  | .thset y a b => some (32, pack [(10, 0x7f), (2, y.toNat), (5, 0), (5, a.toNat), (5, b.toNat), (5, 4)])
  | .engclaim y => some (32, pack [(10, 0x7f), (2, y.toNat), (20, 5)])
  | .engrel y => some (32, pack [(10, 0x7f), (2, y.toNat), (20, 6)])
  | .timealign y a => some (32, pack [(10, 0x7f), (2, y.toNat), (5, 0), (5, a.toNat), (10, 7)])
  | .erd y d a => some (32, pack [(10, 0x7f), (2, y.toNat), (2, 0), (3, d.toNat), (5, a.toNat), (10, 8)])
  | .emov y d a => some (32, pack [(10, 0x7f), (2, y.toNat), (2, 0), (3, d.toNat), (2, 0), (3, a.toNat), (10, 9)])
  | .estore y d a b => some (32, pack [(10, 0x7f), (2, y.toNat), (2, 0), (3, d.toNat), (1, 0), (4, a.toNat), (5, b.toNat), (5, 0xa)])
  | .trace y d a => some (32, pack [(10, 0x7f), (2, y.toNat), (5, d.toNat), (5, a.toNat), (10, 0xb)])
  | .yield y => some (32, pack [(10, 0x7f), (2, y.toNat), (20, 0xc)])
  | .halt y => some (32, pack [(10, 0x7f), (2, y.toNat), (20, 0xd)])
  | .iinv y a b => some (32, pack [(10, 0x7f), (2, y.toNat), (5, 0), (5, a.toNat), (5, b.toNat), (5, 0xe)])
  | .calset y d a => some (32, pack [(10, 0x7f), (2, y.toNat), (5, d.toNat), (5, a.toNat), (10, 0xf)])
  | .xswap y d a => some (32, pack [(10, 0x7f), (2, y.toNat), (5, d.toNat), (5, a.toNat), (10, 0x10)])
  | .nopV y => some (32, pack [(10, 0x101), (2, y.toNat), (20, 0)])
  | .vadd y d a b t s => some (32, pack [(10, 0x102), (2, y.toNat), (5, d.toNat), (5, a.toNat), (5, b.toNat), (4, t.toNat), (1, s.toNat)])
  | .vaddZq y d a b t s => some (32, pack [(10, 0x103), (2, y.toNat), (5, d.toNat), (5, a.toNat), (5, b.toNat), (4, t.toNat), (1, s.toNat)])
  | .vsub y d a b t s => some (32, pack [(10, 0x104), (2, y.toNat), (5, d.toNat), (5, a.toNat), (5, b.toNat), (4, t.toNat), (1, s.toNat)])
  | .vsubZq y d a b t s => some (32, pack [(10, 0x105), (2, y.toNat), (5, d.toNat), (5, a.toNat), (5, b.toNat), (4, t.toNat), (1, s.toNat)])
  | .vmul y d a b t s => some (32, pack [(10, 0x106), (2, y.toNat), (5, d.toNat), (5, a.toNat), (5, b.toNat), (4, t.toNat), (1, s.toNat)])
  | .vmulZq y d a b t s => some (32, pack [(10, 0x107), (2, y.toNat), (5, d.toNat), (5, a.toNat), (5, b.toNat), (4, t.toNat), (1, s.toNat)])
  | .vfma y d a b t => some (32, pack [(10, 0x108), (2, y.toNat), (5, d.toNat), (5, a.toNat), (5, b.toNat), (4, t.toNat), (1, 0)])
  | .vfmaZq y d a b t => some (32, pack [(10, 0x109), (2, y.toNat), (5, d.toNat), (5, a.toNat), (5, b.toNat), (4, t.toNat), (1, 0)])
  | .vmin y d a b t => some (32, pack [(10, 0x10a), (2, y.toNat), (5, d.toNat), (5, a.toNat), (5, b.toNat), (4, t.toNat), (1, 0)])
  | .vminZq y d a b t => some (32, pack [(10, 0x10b), (2, y.toNat), (5, d.toNat), (5, a.toNat), (5, b.toNat), (4, t.toNat), (1, 0)])
  | .vmax y d a b t => some (32, pack [(10, 0x10c), (2, y.toNat), (5, d.toNat), (5, a.toNat), (5, b.toNat), (4, t.toNat), (1, 0)])
  | .vmaxZq y d a b t => some (32, pack [(10, 0x10d), (2, y.toNat), (5, d.toNat), (5, a.toNat), (5, b.toNat), (4, t.toNat), (1, 0)])
  | .vabs y d b t s => some (32, pack [(10, 0x10e), (2, y.toNat), (5, d.toNat), (5, 0), (5, b.toNat), (4, t.toNat), (1, s.toNat)])
  | .vabsZq y d b t s => some (32, pack [(10, 0x10f), (2, y.toNat), (5, d.toNat), (5, 0), (5, b.toNat), (4, t.toNat), (1, s.toNat)])
  | .vneg y d b t s => some (32, pack [(10, 0x110), (2, y.toNat), (5, d.toNat), (5, 0), (5, b.toNat), (4, t.toNat), (1, s.toNat)])
  | .vnegZq y d b t s => some (32, pack [(10, 0x111), (2, y.toNat), (5, d.toNat), (5, 0), (5, b.toNat), (4, t.toNat), (1, s.toNat)])
  | .vand y d a b => some (32, pack [(10, 0x112), (2, y.toNat), (5, d.toNat), (5, a.toNat), (5, b.toNat), (5, 0)])
  | .vandZq y d a b => some (32, pack [(10, 0x113), (2, y.toNat), (5, d.toNat), (5, a.toNat), (5, b.toNat), (5, 0)])
  | .vor y d a b => some (32, pack [(10, 0x114), (2, y.toNat), (5, d.toNat), (5, a.toNat), (5, b.toNat), (5, 0)])
  | .vorZq y d a b => some (32, pack [(10, 0x115), (2, y.toNat), (5, d.toNat), (5, a.toNat), (5, b.toNat), (5, 0)])
  | .vxor y d a b => some (32, pack [(10, 0x116), (2, y.toNat), (5, d.toNat), (5, a.toNat), (5, b.toNat), (5, 0)])
  | .vxorZq y d a b => some (32, pack [(10, 0x117), (2, y.toNat), (5, d.toNat), (5, a.toNat), (5, b.toNat), (5, 0)])
  | .vnot y d b => some (32, pack [(10, 0x118), (2, y.toNat), (5, d.toNat), (5, 0), (5, b.toNat), (5, 0)])
  | .vnotZq y d b => some (32, pack [(10, 0x119), (2, y.toNat), (5, d.toNat), (5, 0), (5, b.toNat), (5, 0)])
  | .vshl y d a b t => some (32, pack [(10, 0x11a), (2, y.toNat), (5, d.toNat), (5, a.toNat), (5, b.toNat), (4, t.toNat), (1, 0)])
  | .vshlZq y d a b t => some (32, pack [(10, 0x11b), (2, y.toNat), (5, d.toNat), (5, a.toNat), (5, b.toNat), (4, t.toNat), (1, 0)])
  | .vshr y d a b t => some (32, pack [(10, 0x11c), (2, y.toNat), (5, d.toNat), (5, a.toNat), (5, b.toNat), (4, t.toNat), (1, 0)])
  | .vshrZq y d a b t => some (32, pack [(10, 0x11d), (2, y.toNat), (5, d.toNat), (5, a.toNat), (5, b.toNat), (4, t.toNat), (1, 0)])
  | .vsar y d a b t => some (32, pack [(10, 0x11e), (2, y.toNat), (5, d.toNat), (5, a.toNat), (5, b.toNat), (4, t.toNat), (1, 0)])
  | .vsarZq y d a b t => some (32, pack [(10, 0x11f), (2, y.toNat), (5, d.toNat), (5, a.toNat), (5, b.toNat), (4, t.toNat), (1, 0)])
  | .vsel y d a b m => some (32, pack [(10, 0x120), (2, y.toNat), (5, d.toNat), (5, a.toNat), (5, b.toNat), (1, 0), (3, m.toNat), (1, 0)])
  | .vselZq y d a b m => some (32, pack [(10, 0x121), (2, y.toNat), (5, d.toNat), (5, a.toNat), (5, b.toNat), (1, 0), (3, m.toNat), (1, 0)])
  | .vcvt y d h s b t l => some (32, pack [(10, 0x122), (2, y.toNat), (5, d.toNat), (1, h.toNat), (4, s.toNat), (5, b.toNat), (4, t.toNat), (1, l.toNat)])
  | .vcvtZq y d h s b t l => some (32, pack [(10, 0x123), (2, y.toNat), (5, d.toNat), (1, h.toNat), (4, s.toNat), (5, b.toNat), (4, t.toNat), (1, l.toNat)])
  | .vclz y d b t => some (32, pack [(10, 0x124), (2, y.toNat), (5, d.toNat), (5, 0), (5, b.toNat), (4, t.toNat), (1, 0)])
  | .vclzZq y d b t => some (32, pack [(10, 0x125), (2, y.toNat), (5, d.toNat), (5, 0), (5, b.toNat), (4, t.toNat), (1, 0)])
  | .vpopc y d b t => some (32, pack [(10, 0x126), (2, y.toNat), (5, d.toNat), (5, 0), (5, b.toNat), (4, t.toNat), (1, 0)])
  | .vpopcZq y d b t => some (32, pack [(10, 0x127), (2, y.toNat), (5, d.toNat), (5, 0), (5, b.toNat), (4, t.toNat), (1, 0)])
  | .vext y d a b x => some (32, pack [(10, 0x128), (2, y.toNat), (5, d.toNat), (5, a.toNat), (5, b.toNat), (4, 0), (1, x.toNat)])
  | .vextZq y d a b x => some (32, pack [(10, 0x129), (2, y.toNat), (5, d.toNat), (5, a.toNat), (5, b.toNat), (4, 0), (1, x.toNat)])
  | .vins y d a b => some (32, pack [(10, 0x12a), (2, y.toNat), (5, d.toNat), (5, a.toNat), (5, b.toNat), (5, 0)])
  | .vinsZq y d a b => some (32, pack [(10, 0x12b), (2, y.toNat), (5, d.toNat), (5, a.toNat), (5, b.toNat), (5, 0)])
  | .vfsh y d a b => some (32, pack [(10, 0x12c), (2, y.toNat), (5, d.toNat), (5, a.toNat), (5, b.toNat), (5, 0)])
  | .vfshZq y d a b => some (32, pack [(10, 0x12d), (2, y.toNat), (5, d.toNat), (5, a.toNat), (5, b.toNat), (5, 0)])
  | .vperm y d a b => some (32, pack [(10, 0x12e), (2, y.toNat), (5, d.toNat), (5, a.toNat), (5, b.toNat), (5, 0)])
  | .vpermZq y d a b => some (32, pack [(10, 0x12f), (2, y.toNat), (5, d.toNat), (5, a.toNat), (5, b.toNat), (5, 0)])
  | .vbcast y d a b => some (32, pack [(10, 0x130), (2, y.toNat), (5, d.toNat), (5, a.toNat), (5, b.toNat), (5, 0)])
  | .vbcastZq y d a b => some (32, pack [(10, 0x131), (2, y.toNat), (5, d.toNat), (5, a.toNat), (5, b.toNat), (5, 0)])
  | .vlsh y d a b => some (32, pack [(10, 0x132), (2, y.toNat), (5, d.toNat), (5, a.toNat), (5, b.toNat), (5, 0)])
  | .vlshZq y d a b => some (32, pack [(10, 0x133), (2, y.toNat), (5, d.toNat), (5, a.toNat), (5, b.toNat), (5, 0)])
  | .vred y d m p b t x => some (32, pack [(10, 0x134), (2, y.toNat), (5, d.toNat), (1, m.toNat), (4, p.toNat), (5, b.toNat), (4, t.toNat), (1, x.toNat)])
  | .vredZq y d m p b t x => some (32, pack [(10, 0x135), (2, y.toNat), (5, d.toNat), (1, m.toNat), (4, p.toNat), (5, b.toNat), (4, t.toNat), (1, x.toNat)])
  | .vscan y d m p b t x => some (32, pack [(10, 0x136), (2, y.toNat), (5, d.toNat), (1, m.toNat), (4, p.toNat), (5, b.toNat), (4, t.toNat), (1, x.toNat)])
  | .vscanZq y d m p b t x => some (32, pack [(10, 0x137), (2, y.toNat), (5, d.toNat), (1, m.toNat), (4, p.toNat), (5, b.toNat), (4, t.toNat), (1, x.toNat)])
  | .vgath y d a b t => some (32, pack [(10, 0x138), (2, y.toNat), (5, d.toNat), (5, a.toNat), (5, b.toNat), (4, t.toNat), (1, 0)])
  | .vgathZq y d a b t => some (32, pack [(10, 0x139), (2, y.toNat), (5, d.toNat), (5, a.toNat), (5, b.toNat), (4, t.toNat), (1, 0)])
  | .vscat y d a b t => some (32, pack [(10, 0x13a), (2, y.toNat), (5, d.toNat), (5, a.toNat), (5, b.toNat), (4, t.toNat), (1, 0)])
  | .vscatZq y d a b t => some (32, pack [(10, 0x13b), (2, y.toNat), (5, d.toNat), (5, a.toNat), (5, b.toNat), (4, t.toNat), (1, 0)])
  | .vlut y d a b t => some (32, pack [(10, 0x13c), (2, y.toNat), (5, d.toNat), (5, a.toNat), (5, b.toNat), (4, t.toNat), (1, 0)])
  | .vlutZq y d a b t => some (32, pack [(10, 0x13d), (2, y.toNat), (5, d.toNat), (5, a.toNat), (5, b.toNat), (4, t.toNat), (1, 0)])
  | .vrcp y d b t => some (32, pack [(10, 0x13e), (2, y.toNat), (5, d.toNat), (5, 0), (5, b.toNat), (4, t.toNat), (1, 0)])
  | .vrcpZq y d b t => some (32, pack [(10, 0x13f), (2, y.toNat), (5, d.toNat), (5, 0), (5, b.toNat), (4, t.toNat), (1, 0)])
  | .vrsq y d b t => some (32, pack [(10, 0x140), (2, y.toNat), (5, d.toNat), (5, 0), (5, b.toNat), (4, t.toNat), (1, 0)])
  | .vrsqZq y d b t => some (32, pack [(10, 0x141), (2, y.toNat), (5, d.toNat), (5, 0), (5, b.toNat), (4, t.toNat), (1, 0)])
  | .vexp2 y d b t => some (32, pack [(10, 0x142), (2, y.toNat), (5, d.toNat), (5, 0), (5, b.toNat), (4, t.toNat), (1, 0)])
  | .vexp2Zq y d b t => some (32, pack [(10, 0x143), (2, y.toNat), (5, d.toNat), (5, 0), (5, b.toNat), (4, t.toNat), (1, 0)])
  | .vlog2 y d b t => some (32, pack [(10, 0x144), (2, y.toNat), (5, d.toNat), (5, 0), (5, b.toNat), (4, t.toNat), (1, 0)])
  | .vlog2Zq y d b t => some (32, pack [(10, 0x145), (2, y.toNat), (5, d.toNat), (5, 0), (5, b.toNat), (4, t.toNat), (1, 0)])
  | .vatan y d a b t g => some (32, pack [(10, 0x146), (2, y.toNat), (5, d.toNat), (5, a.toNat), (5, b.toNat), (4, t.toNat), (1, g.toNat)])
  | .vatanZq y d a b t g => some (32, pack [(10, 0x147), (2, y.toNat), (5, d.toNat), (5, a.toNat), (5, b.toNat), (4, t.toNat), (1, g.toNat)])
  | .vsincos y d b t g => some (32, pack [(10, 0x148), (2, y.toNat), (5, d.toNat), (5, 0), (5, b.toNat), (4, t.toNat), (1, g.toNat)])
  | .vsincosZq y d b t g => some (32, pack [(10, 0x149), (2, y.toNat), (5, d.toNat), (5, 0), (5, b.toNat), (4, t.toNat), (1, g.toNat)])
  | .vnorm y d b t => some (32, pack [(10, 0x14a), (2, y.toNat), (5, d.toNat), (5, 0), (5, b.toNat), (4, t.toNat), (1, 0)])
  | .vnormZq y d b t => some (32, pack [(10, 0x14b), (2, y.toNat), (5, d.toNat), (5, 0), (5, b.toNat), (4, t.toNat), (1, 0)])
  | .vsplit y d a b t e => some (32, pack [(10, 0x14c), (2, y.toNat), (5, d.toNat), (5, a.toNat), (5, b.toNat), (4, t.toNat), (1, e.toNat)])
  | .vsplitZq y d a b t e => some (32, pack [(10, 0x14d), (2, y.toNat), (5, d.toNat), (5, a.toNat), (5, b.toNat), (4, t.toNat), (1, e.toNat)])
  | .vmov y d b => some (32, pack [(10, 0x14e), (2, y.toNat), (5, d.toNat), (5, 0), (5, b.toNat), (5, 0)])
  | .vmovZq y d b => some (32, pack [(10, 0x14f), (2, y.toNat), (5, d.toNat), (5, 0), (5, b.toNat), (5, 0)])
  | .vtos y a b => some (32, pack [(10, 0x151), (2, y.toNat), (5, 0), (5, a.toNat), (5, b.toNat), (5, 0)])
  | .vfroms y d b => some (32, pack [(10, 0x153), (2, y.toNat), (5, d.toNat), (5, 0), (5, b.toNat), (5, 0)])
  | .vaadd y d a b t f => some (32, pack [(10, 0x154), (2, y.toNat), (5, d.toNat), (5, a.toNat), (5, b.toNat), (4, t.toNat), (1, f.toNat)])
  | .vaaddZq y d a b t f => some (32, pack [(10, 0x155), (2, y.toNat), (5, d.toNat), (5, a.toNat), (5, b.toNat), (4, t.toNat), (1, f.toNat)])
  | .vcmpEq y d a b t => some (32, pack [(10, 0x156), (2, y.toNat), (2, 0), (3, d.toNat), (5, a.toNat), (5, b.toNat), (4, t.toNat), (1, 0)])
  | .vcmpEqZq y d a b t => some (32, pack [(10, 0x157), (2, y.toNat), (2, 0), (3, d.toNat), (5, a.toNat), (5, b.toNat), (4, t.toNat), (1, 0)])
  | .vcmpNe y d a b t => some (32, pack [(10, 0x158), (2, y.toNat), (2, 0), (3, d.toNat), (5, a.toNat), (5, b.toNat), (4, t.toNat), (1, 0)])
  | .vcmpNeZq y d a b t => some (32, pack [(10, 0x159), (2, y.toNat), (2, 0), (3, d.toNat), (5, a.toNat), (5, b.toNat), (4, t.toNat), (1, 0)])
  | .vcmpLt y d a b t => some (32, pack [(10, 0x15a), (2, y.toNat), (2, 0), (3, d.toNat), (5, a.toNat), (5, b.toNat), (4, t.toNat), (1, 0)])
  | .vcmpLtZq y d a b t => some (32, pack [(10, 0x15b), (2, y.toNat), (2, 0), (3, d.toNat), (5, a.toNat), (5, b.toNat), (4, t.toNat), (1, 0)])
  | .vcmpLe y d a b t => some (32, pack [(10, 0x15c), (2, y.toNat), (2, 0), (3, d.toNat), (5, a.toNat), (5, b.toNat), (4, t.toNat), (1, 0)])
  | .vcmpLeZq y d a b t => some (32, pack [(10, 0x15d), (2, y.toNat), (2, 0), (3, d.toNat), (5, a.toNat), (5, b.toNat), (4, t.toNat), (1, 0)])
  | .vcmpLtn y d a b t => some (32, pack [(10, 0x15e), (2, y.toNat), (2, 0), (3, d.toNat), (5, a.toNat), (5, b.toNat), (4, t.toNat), (1, 0)])
  | .vcmpLtnZq y d a b t => some (32, pack [(10, 0x15f), (2, y.toNat), (2, 0), (3, d.toNat), (5, a.toNat), (5, b.toNat), (4, t.toNat), (1, 0)])
  | .vcmpLen y d a b t => some (32, pack [(10, 0x160), (2, y.toNat), (2, 0), (3, d.toNat), (5, a.toNat), (5, b.toNat), (4, t.toNat), (1, 0)])
  | .vcmpLenZq y d a b t => some (32, pack [(10, 0x161), (2, y.toNat), (2, 0), (3, d.toNat), (5, a.toNat), (5, b.toNat), (4, t.toNat), (1, 0)])
  | .vli y d k => some (32, pack [(10, 0x162), (2, y.toNat), (5, d.toNat), (15, k.toNat)])
  | .mand y d a b => some (32, pack [(10, 0x163), (2, y.toNat), (2, 0), (3, d.toNat), (2, 0), (3, a.toNat), (2, 0), (3, b.toNat), (5, 0)])
  | .mor y d a b => some (32, pack [(10, 0x164), (2, y.toNat), (2, 0), (3, d.toNat), (2, 0), (3, a.toNat), (2, 0), (3, b.toNat), (5, 0)])
  | .mxor y d a b => some (32, pack [(10, 0x165), (2, y.toNat), (2, 0), (3, d.toNat), (2, 0), (3, a.toNat), (2, 0), (3, b.toNat), (5, 0)])
  | .mnot y d b => some (32, pack [(10, 0x166), (2, y.toNat), (2, 0), (3, d.toNat), (7, 0), (3, b.toNat), (5, 0)])
  | .mpopc y d b => some (32, pack [(10, 0x167), (2, y.toNat), (5, d.toNat), (7, 0), (3, b.toNat), (5, 0)])
  | .mfirst y d b => some (32, pack [(10, 0x168), (2, y.toNat), (5, d.toNat), (7, 0), (3, b.toNat), (5, 0)])
  | .nopL y => some (32, pack [(10, 0x81), (2, y.toNat), (20, 0)])
  | .zbind y t b f => some (32, pack [(10, 0x82), (2, y.toNat), (1, 0), (4, t.toNat), (5, b.toNat), (6, 0), (4, f.toNat)])
  | .zstart y d => some (32, pack [(10, 0x83), (2, y.toNat), (1, 0), (4, d.toNat), (15, 0)])
  | .zstop y d => some (32, pack [(10, 0x84), (2, y.toNat), (1, 0), (4, d.toNat), (15, 0)])
  | .zskip y d k => some (32, pack [(10, 0x85), (2, y.toNat), (1, 0), (4, d.toNat), (5, 0), (10, k.toNat)])
  | .ldv y t b i => some (32, pack [(10, 0x86), (2, y.toNat), (1, 0), (4, t.toNat), (5, b.toNat), (1, 0), (9, i.toNat)])
  | .streamFill _ => none
  | .nopM y => some (32, pack [(10, 0x181), (2, y.toNat), (20, 0)])
  | .mload y d a c s => some (32, pack [(10, 0x182), (2, y.toNat), (2, 0), (3, d.toNat), (1, 0), (4, a.toNat), (7, 0), (1, c.toNat), (2, s.toNat)])
  | .mstore y d a s => some (32, pack [(10, 0x183), (2, y.toNat), (1, 0), (4, d.toNat), (2, 0), (3, a.toNat), (8, 0), (2, s.toNat)])
  | .msweep y d s b m p g c f => some (32, pack [(10, 0x184), (2, y.toNat), (4, d.toNat), (4, s.toNat), (3, b.toNat), (2, m.toNat), (4, p.toNat), (1, g.toNat), (1, c.toNat), (1, f.toNat)])
  | .mderive y d s b m p => some (32, pack [(10, 0x185), (2, y.toNat), (4, d.toNat), (4, s.toNat), (3, b.toNat), (2, m.toNat), (4, p.toNat), (3, 0)])
  | .mscale y d a s => some (32, pack [(10, 0x186), (2, y.toNat), (2, 0), (3, d.toNat), (2, 0), (3, a.toNat), (8, 0), (2, s.toNat)])
  | .mpanel y d s => some (32, pack [(10, 0x187), (2, y.toNat), (1, 0), (4, d.toNat), (13, 0), (2, s.toNat)])
  | .mslice y w s n f p m => some (32, pack [(10, 0x188), (2, y.toNat), (5, w.toNat), (4, s.toNat), (3, n.toNat), (1, f.toNat), (4, p.toNat), (2, m.toNat), (1, 0)])
  | .mcommit y b => some (32, pack [(10, 0x189), (2, y.toNat), (16, 0), (4, b.toNat)])
  | .mwaitb y b => some (32, pack [(10, 0x18a), (2, y.toNat), (16, 0), (4, b.toNat)])
  | .mretire y d w n r p m => some (32, pack [(10, 0x18b), (2, y.toNat), (4, d.toNat), (5, w.toNat), (3, n.toNat), (2, r.toNat), (4, p.toNat), (2, m.toNat)])
  | .mnorm y d s c => some (32, pack [(10, 0x18c), (2, y.toNat), (1, 0), (4, d.toNat), (3, 0), (2, s.toNat), (9, 0), (1, c.toNat)])
  | .mclrWindow y u a s => some (32, pack [(10, 0x18d), (2, y.toNat), (5, u.toNat), (8, 0), (5, a.toNat), (2, s.toNat)])
  | .mclrBank y d s => some (32, pack [(10, 0x18d), (2, y.toNat), (2, 0), (3, d.toNat), (13, 0x1000), (2, s.toNat)])
  | .mstat y d c s => some (32, pack [(10, 0x18e), (2, y.toNat), (1, 0), (4, d.toNat), (10, 0), (1, c.toNat), (4, s.toNat)])
  | .mfence y k => some (32, pack [(10, 0x18f), (2, y.toNat), (16, 0), (4, k.toNat)])
  | .meshOperationComplete _ => none
  | .sweepSegmentEnd _ => none
  | .batchWriteBack => none
  | .nopS y => some (32, pack [(10, 0x201), (2, y.toNat), (20, 0)])
  | .zdrain y d => some (32, pack [(10, 0x202), (2, y.toNat), (1, 0), (4, d.toNat), (15, 0)])
  | .stv y t b i => some (32, pack [(10, 0x203), (2, y.toNat), (1, 0), (4, t.toNat), (5, b.toNat), (1, 0), (9, i.toNat)])
  | .scvt y d r b s => some (32, pack [(10, 0x204), (2, y.toNat), (1, 0), (4, d.toNat), (3, 0), (2, r.toNat), (5, b.toNat), (4, 0), (1, s.toNat)])
  | .samax y d s k c => some (32, pack [(10, 0x205), (2, y.toNat), (1, 0), (4, d.toNat), (1, s.toNat), (4, k.toNat), (9, 0), (1, c.toNat)])
  | .vamaxr y d k p q => some (32, pack [(10, 0x206), (2, y.toNat), (1, 0), (4, d.toNat), (1, 0), (4, k.toNat), (1, p.toNat), (4, q.toNat), (5, 0)])
  | .supd y j q n => some (32, pack [(10, 0x207), (2, y.toNat), (4, j.toNat), (4, q.toNat), (12, n.toNat)])
  | .spair y q => some (32, pack [(10, 0x208), (2, y.toNat), (4, q.toNat), (16, 0)])
  | .streamDrainWrite _ => none
  | .notify y m c n => some (32, pack [(10, 0x2c1), (2, y.toNat), (5, m.toNat), (2, 0), (1, c.toNat), (12, n.toNat)])
  | .dictld y s e => some (32, pack [(10, 0x2c2), (2, y.toNat), (5, 0x1f), (5, s.toNat), (10, e.toNat)])
  | .bemEq y m f g o => some (32, pack [(10, 0x2c8), (2, y.toNat), (1, 1), (4, m.toNat), (4, f.toNat), (4, g.toNat), (7, o.toNat)])
  | .bemEqA y m f g o => some (32, pack [(10, 0x2c9), (2, y.toNat), (1, 1), (4, m.toNat), (4, f.toNat), (4, g.toNat), (7, o.toNat)])
  | .bemNe y m f g o => some (32, pack [(10, 0x2ca), (2, y.toNat), (1, 1), (4, m.toNat), (4, f.toNat), (4, g.toNat), (7, o.toNat)])
  | .bemNeA y m f g o => some (32, pack [(10, 0x2cb), (2, y.toNat), (1, 1), (4, m.toNat), (4, f.toNat), (4, g.toNat), (7, o.toNat)])
  | .bemLt y m f g o => some (32, pack [(10, 0x2cc), (2, y.toNat), (1, 1), (4, m.toNat), (4, f.toNat), (4, g.toNat), (7, o.toNat)])
  | .bemLtA y m f g o => some (32, pack [(10, 0x2cd), (2, y.toNat), (1, 1), (4, m.toNat), (4, f.toNat), (4, g.toNat), (7, o.toNat)])
  | .bemLe y m f g o => some (32, pack [(10, 0x2ce), (2, y.toNat), (1, 1), (4, m.toNat), (4, f.toNat), (4, g.toNat), (7, o.toNat)])
  | .bemLeA y m f g o => some (32, pack [(10, 0x2cf), (2, y.toNat), (1, 1), (4, m.toNat), (4, f.toNat), (4, g.toNat), (7, o.toNat)])
  | .bemLtn y m f g o => some (32, pack [(10, 0x2d0), (2, y.toNat), (1, 1), (4, m.toNat), (4, f.toNat), (4, g.toNat), (7, o.toNat)])
  | .bemLtnA y m f g o => some (32, pack [(10, 0x2d1), (2, y.toNat), (1, 1), (4, m.toNat), (4, f.toNat), (4, g.toNat), (7, o.toNat)])
  | .bemLen y m f g o => some (32, pack [(10, 0x2d2), (2, y.toNat), (1, 1), (4, m.toNat), (4, f.toNat), (4, g.toNat), (7, o.toNat)])
  | .bemLenA y m f g o => some (32, pack [(10, 0x2d3), (2, y.toNat), (1, 1), (4, m.toNat), (4, f.toNat), (4, g.toNat), (7, o.toNat)])
  | .blockHeader l c => some (32, pack [(4, 0xa), (12, l.toNat), (1, 0), (15, c.toNat)])
  | .blockHeaderReg l r => some (32, pack [(4, 0xa), (12, l.toNat), (11, 0x400), (5, r.toNat)])
  | .blockEnd _ => none
  | .timedNop n => some (16, pack [(3, 6), (13, n.toNat)])
  | .dictionaryReference i => some (16, pack [(6, 0x38), (10, i.toNat)])
  | .variableLatencyArrival _ _ => none
  | .interrupt => none
  | .routineFault _ => none
  | .debugStop => none
  | .debugResume => none
  | .jobStart _ => none
  | .copyChunkComplete _ => none
  | .jobComplete _ => none
  | .firingStart _ _ => none
  | .firingLocalComplete _ _ => none
  | .firingTimeout _ _ => none
  | .firingRecordExpiry _ _ _ => none
  | .create _ => none
  | .destroy _ => none
  | .replenish _ => none
  | .ctxRead _ => none
  | .contextFrozen _ => none
  | .contextDrained _ => none
  | .enable _ => none
  | .disable _ => none
  | .resume _ => none
  | .flush _ => none
  | .queueRead _ => none
  | .launch _ => none
  | .step _ => none
  | .wait _ => none
  | .waitConditionHolds _ _ => none
  | .signalEntry _ => none
  | .hostnote _ => none
  | .entryCompletion _ _ => none
  | .serviceOpportunity => none
  | .placementComplete _ _ => none
  | .kernelTriggerMet _ => none
  | .combinerCompletion => none
  | .preemption => none
  | .hangDetected => none
  | .calendarReservation _ _ => none
  | .calendarStart _ _ => none
  | .configure _ => none
  | .remove _ => none
  | .barrierReset _ => none
  | .barrierRead _ => none
  | .barrierReleaseTick _ _ => none
  | .qpopen _ => none
  | .qpclose _ => none
  | .qpread _ => none
  | .portfence _ => none
  | .portunfence _ => none
  | .route _ => none
  | .portread _ => none
  | .timecfg _ => none
  | .qpConnectRetry _ => none
  | .qpClosed _ => none
  | .portTrained _ _ => none
  | .trainingTimeout _ => none
  | .trainingRetry _ => none
  | .laneFailure _ => none
  | .fenceDrainTimeout _ => none
  | .flitReceive _ _ _ _ _ => none
  | .rdreq _ _ => none
  | .rdrsp _ _ => none
  | .wrreq _ _ => none
  | .atreq _ _ => none
  | .atrsp _ _ => none
  | .wrack _ _ => none
  | .fire _ _ => none
  | .fack _ _ => none
  | .ctrl _ _ => none
  | .time _ _ => none
  | .forwardResend _ => none
  | .forwardFailure _ => none
  | .homeRecordExpiry _ _ => none
  | .datagramReceive _ _ _ _ => none
  | .ethResendTimeout _ => none
  | .timePacketSend => none
  | .holdoverEntry => none
  | .slewEnd => none
  | .migrate _ => none
  | .migrationCopyDone _ => none
  | .duplicate _ => none
  | .hold _ => none
  | .unhold _ => none
  | .unmap _ => none
  | .zerocnt _ => none
  | .lend _ => none
  | .borrow _ => none
  | .revoke _ => none
  | .leaseDeadline _ _ => none
  | .accWriteback _ _ => none
  | .messidorDrain => none
  | .eccAggregate _ => none
  | .reset => none
  | .bootStage _ _ => none
  | .rollbackRaise _ => none
  | .hostMemoryAccess _ _ _ => none
  | .bar0RegisterWrite _ _ => none
  | .pcapWrite _ => none
  | .throttleStart _ _ => none
  | .throttleEnd _ _ => none
  | .thermalTrip _ => none
  | .getVersion => none
  | .getCapabilities => none
  | .negotiateAlgorithms => none
  | .getDigests => none
  | .getCertificate _ _ => none
  | .challenge _ => none
  | .getMeasurements _ => none
  | .unsupportedRequest _ => none
  | .mgmtRead _ => none
  | .coldReset => none
  | .unassignedItem _ => none
  | .badcmd _ _ => none
  | .meshVectorAppended _ => none
  | .slicePairBoundary _ => none
  | .duplicateCopyDone _ => none
  | .swapExchangeComplete => none
  | .podTimeReached => none

/-- The bytes of an item as the text holds them: first parcel first, each parcel little-endian (R15, R49). -/
def itemBytes (nbits w : Nat) : List Byte :=
  let parcel (p : Nat) : List Byte := [BitVec.ofNat 8 p, BitVec.ofNat 8 (p / 2 ^ 8)]
  if nbits == 16 then parcel (w % 2 ^ 16) else parcel (w / 2 ^ 16 % 2 ^ 16) ++ parcel (w % 2 ^ 16)

/-- The instruction that the decoder reads from the item `w` of `nbits` bits, laid out as the text holds it; the table
numbers an item so that bits [31:16] are its first parcel. -/
noncomputable def decodeTableWord (nbits w : Nat) : Option Instr := (decodeBytes (itemBytes nbits w)).map (·.1)

end Sys2Proof
end

