-- ==== Sys2Proof/Config.lean ====
section
/-! DEFINITION. The values the manual leaves open, as constants without a body: nothing can be proved about
which value they have. Each is applied to a counter of State, or to what it depends on. -/

namespace Sys2Proof.Config

/-- Free value: the bits of a result that profile 0 leaves open (02_numbers R44). Log entry 10. -/
opaque freeBits : Nat → BitVec 64

/-- Free value: where profile 0 of HFOLD and HSCAN splits a list of elements (09_engine_commands R195:
"may use any tree over the elements"). Log entry 10. -/
opaque freeSplit : Nat → Nat → Nat

/-- Free value: whether profile 0 takes the elements of a list in index order (09_engine_commands R195). Log entry 10. -/
opaque freeOrder : Nat → Bool

/-- Free value: an unsigned condition of rcmp on two floating-point values (09_engine_commands R190 by 04_encoding R60, which
gives it no result). Log entry 10. -/
opaque freeCompare : Nat → Nat → Bool

/-- Free value: the die temperature that ERD reads, in 1/16 degree C (10_system R230). Log entry 10. -/
opaque dieTemperature : Nat → BitVec 64

/-- Free value: what the management path reports as temperatures and power (26_platform R375). Log entry 10. -/
opaque sensor : Nat → BitVec 64

/-- SHA-512 (26_platform R372), named by the manual and not described by it. Log entry 14. -/
opaque sha512 : List Byte → BitVec 512

/-- ECDSA verification on P-521 (26_platform R372): public key, signature, message digest. Log entry 14. -/
opaque p521Verify : List Byte → List Byte → BitVec 512 → Bool

/-- The signature of the device identity key (26_platform R374) over a digest. Log entry 14. -/
opaque identitySign : BitVec 512 → List Byte

/-- The certificate chain of slot 0 (26_platform R374). Log entry 14. -/
opaque certChain : List Byte

/-- The image of the mask ROM, stage 0 (26_platform R371). Log entry 14. -/
opaque maskRom : List Byte

/-- The fixed hash of destination and line that picks one port of a route (21_link R325). Log entry 15. -/
opaque routeHash : Nat → Nat → Nat

end Sys2Proof.Config
end

