-- ==== Sys2Proof/Machine/Numbers.lean ====
section
/-! DEFINITION. The number formats of 02_numbers.md and their exact arithmetic: floating point (R18 to R22), binary
angles (R23, R24), BX32 (R25 to R31), exact accumulators (R32 to R37) and slices (R38, R39). Every operation is
computed exactly on integers and rounded once. -/

namespace Sys2Proof.Machine

/-! ## Formats and types -/

/-- A floating-point format of R18: widths of the exponent and the fraction field; E4M3 follows R19's own rule. -/
structure Fmt where
  ebits : Nat
  fbits : Nat
  e4m3 : Bool
  deriving DecidableEq, Repr

def fmtF64 : Fmt := ⟨11, 52, false⟩
def fmtF32 : Fmt := ⟨8, 23, false⟩
def fmtF16 : Fmt := ⟨5, 10, false⟩
def fmtBf16 : Fmt := ⟨8, 7, false⟩
def fmtE5m2 : Fmt := ⟨5, 2, false⟩
def fmtE4m3 : Fmt := ⟨4, 3, true⟩

/-- The bias of R18: 2^(ebits - 1) - 1 in every format. -/
def Fmt.bias (f : Fmt) : Nat := 2 ^ (f.ebits - 1) - 1

/-- The width of an encoding in bits. -/
def Fmt.width (f : Fmt) : Nat := 1 + f.ebits + f.fbits

/-- The sign bit of an encoding. -/
def Fmt.signBit (f : Fmt) : Nat := 2 ^ (f.ebits + f.fbits)

/-- The encoding of +infinity; E4M3 has none (R19) and takes 0x7F, its NaN (R21). -/
def Fmt.infBits (f : Fmt) : Nat := if f.e4m3 then 0x7F else (2 ^ f.ebits - 1) * 2 ^ f.fbits

/-- The encoding of the largest finite value (R18). -/
def Fmt.maxBits (f : Fmt) : Nat := f.infBits - 1

/-- The canonical NaN (R18). -/
def Fmt.nanBits (f : Fmt) : Nat := if f.e4m3 then 0x7F else f.infBits + 2 ^ (f.fbits - 1)

/-- The exponent of the last place of a subnormal: 1 - bias - F (R19). -/
def Fmt.qmin (f : Fmt) : Int := 1 - (f.bias : Int) - f.fbits

/-- The type codes of R60. -/
inductive Ty where
  | int (signed : Bool) (width : Nat)
  | flt (f : Fmt)
  | bx
  deriving DecidableEq, Repr

/-- R60: the type suffix of a code; 0xF is unassigned. -/
def tyOfCode (c : Nat) : Option Ty :=
  match c with
  | 0 => some (.int true 8)
  | 1 => some (.int true 16)
  | 2 => some (.int true 32)
  | 3 => some (.int true 64)
  | 4 => some (.int false 8)
  | 5 => some (.int false 16)
  | 6 => some (.int false 32)
  | 7 => some (.int false 64)
  | 8 => some (.flt fmtF16)
  | 9 => some (.flt fmtBf16)
  | 10 => some (.flt fmtF32)
  | 11 => some (.flt fmtF64)
  | 12 => some (.flt fmtE4m3)
  | 13 => some (.flt fmtE5m2)
  | 14 => some .bx
  | _ => none

/-- The width of an element in bits; a BX32 lane has 32. -/
def Ty.bits : Ty → Nat
  | .int _ w => w
  | .flt f => f.width
  | .bx => 32

/-- The rounding modes of R20. -/
inductive Rm where
  | rne | rtz | rup | rdn
  deriving DecidableEq, Repr

/-- R20: the rounding field. -/
def rmOfCode (c : Nat) : Rm :=
  match c % 4 with
  | 0 => .rne
  | 1 => .rtz
  | 2 => .rup
  | _ => .rdn

/-! ## Integers -/

/-- A signed reading of the low `w` bits of `n`. -/
def sextNat (w n : Nat) : Int :=
  let m := n % 2 ^ w
  if 2 ^ (w - 1) ≤ m then (m : Int) - (2 ^ w : Nat) else m

/-- An integer modulo 2^w. -/
def wrapInt (w : Nat) (z : Int) : Nat := (z % ((2 ^ w : Nat) : Int)).toNat

/-- R43: the range of an integer type. -/
def intMin (signed : Bool) (w : Nat) : Int := if signed then -((2 ^ (w - 1) : Nat) : Int) else 0
def intMax (signed : Bool) (w : Nat) : Int := if signed then ((2 ^ (w - 1) : Nat) : Int) - 1 else ((2 ^ w : Nat) : Int) - 1

/-- R43: clamp to the range of the type. -/
def clampInt (signed : Bool) (w : Nat) (z : Int) : Int := max (intMin signed w) (min (intMax signed w) z)

/-- The value of the low `w` bits by signedness. -/
def intVal (signed : Bool) (w n : Nat) : Int := if signed then sextNat w n else ((n % 2 ^ w : Nat) : Int)

/-- Floor of the square root, bit by bit; `k` bounds the bits of the root. -/
def isqrtAux : Nat → Nat → Nat → Nat
  | 0, _, r => r
  | k + 1, n, r => let r' := r + 2 ^ k; isqrtAux k n (if r' * r' ≤ n then r' else r)

/-- Floor of the square root. -/
def isqrt (n : Nat) : Nat := isqrtAux (Nat.log2 n / 2 + 1) n 0

/-- Round the magnitude num/den to an integer in a mode; `neg` is the sign of the value (R20). -/
def rndDiv (rm : Rm) (neg : Bool) (num den : Nat) : Nat :=
  let q := num / den
  let r := num % den
  let up := match rm with
    | .rne => den < 2 * r || (2 * r == den && q % 2 == 1)
    | .rtz => false
    | .rup => r != 0 && !neg
    | .rdn => r != 0 && neg
  if up then q + 1 else q

/-- Round num/den times 2^e to an integer. -/
def rndScaled (rm : Rm) (neg : Bool) (num den : Nat) (e : Int) : Nat :=
  if 0 ≤ e then rndDiv rm neg (num * 2 ^ e.toNat) den else rndDiv rm neg num (den * 2 ^ (-e).toNat)

/-- A dyadic number m * 2^e. -/
structure Dy where
  m : Int
  e : Int
  deriving DecidableEq, Repr

/-- Round a dyadic to an integer. -/
def Dy.rnd (rm : Rm) (x : Dy) : Int :=
  let n := rndScaled rm (x.m < 0) x.m.natAbs 1 x.e
  if x.m < 0 then -(n : Int) else n

/-- Floor of a dyadic. -/
def Dy.floor (x : Dy) : Int := x.rnd .rdn

/-- A dyadic with its exponent lowered to `e` (used where `e` is not above its own). -/
def Dy.align (x : Dy) (e : Int) : Int := x.m * ((2 ^ (x.e - e).toNat : Nat) : Int)

/-- The exact sum of two dyadics. -/
def Dy.add (x y : Dy) : Dy := let e := min x.e y.e; ⟨x.align e + y.align e, e⟩

/-- The exact product of two dyadics. -/
def Dy.mul (x y : Dy) : Dy := ⟨x.m * y.m, x.e + y.e⟩

/-- The exact sum of a list; a zero contributes nothing. -/
def Dy.sum (l : List Dy) : Dy := l.foldl (fun s x => if x.m = 0 then s else if s.m = 0 then x else s.add x) ⟨0, 0⟩

/-- Floor of the base-2 logarithm of |x|, for a non-zero x. -/
def Dy.log2 (x : Dy) : Int := (Nat.log2 x.m.natAbs : Int) + x.e

/-- Compare two dyadics. -/
def Dy.lt (x y : Dy) : Bool := let e := min x.e y.e; x.align e < y.align e

/-! ## Floating point -/

/-- A floating-point value: NaN, an infinity, or (-1)^neg * m * 2^e with m = 0 for the signed zeros (R19). -/
inductive Fp where
  | nan
  | inf (neg : Bool)
  | fin (neg : Bool) (m : Nat) (e : Int)
  deriving DecidableEq, Repr

/-- R18, R19: the value of an encoding. -/
def fpDecode (f : Fmt) (bits : Nat) : Fp :=
  let neg := bits / f.signBit % 2 == 1
  let ex := bits / 2 ^ f.fbits % 2 ^ f.ebits
  let fr := bits % 2 ^ f.fbits
  if ex == 2 ^ f.ebits - 1 && (!f.e4m3 || fr == 2 ^ f.fbits - 1) then
    if f.e4m3 || fr != 0 then .nan else .inf neg
  else if ex == 0 then .fin neg fr f.qmin
  else .fin neg (2 ^ f.fbits + fr) (f.qmin + ex - 1)

/-- The encoding with its sign. -/
def fpSigned (f : Fmt) (neg : Bool) (bits : Nat) : Nat := if neg then f.signBit + bits else bits

/-- R21: an infinite result. -/
def fpInf (f : Fmt) (neg : Bool) : Nat := if f.e4m3 then f.nanBits else fpSigned f neg f.infBits

/-- R21: the rounded encoding of the magnitude num/den * 2^e, num not 0, with its sign. -/
def fpRoundRat (f : Fmt) (rm : Rm) (neg : Bool) (num den : Nat) (e : Int) : Nat :=
  let k : Int := (Nat.log2 num : Int) - Nat.log2 den
  let below := if 0 ≤ k then num < den * 2 ^ k.toNat else num * 2 ^ (-k).toNat < den
  let l := (if below then k - 1 else k) + e
  let q := max (l - f.fbits) f.qmin
  let n := rndScaled rm neg num den (e - q)
  let bits := (q - f.qmin).toNat * 2 ^ f.fbits + n
  if bits < f.infBits then fpSigned f neg bits
  else if f.e4m3 then fpSigned f neg f.maxBits
  else match rm with
    | .rne => fpInf f neg
    | .rtz => fpSigned f neg f.maxBits
    | .rup => if neg then fpSigned f neg f.maxBits else fpInf f neg
    | .rdn => if neg then fpInf f neg else fpSigned f neg f.maxBits

/-- R21: round a value once into a format. -/
def fpRound (f : Fmt) (rm : Rm) : Fp → Nat
  | .nan => f.nanBits
  | .inf neg => fpInf f neg
  | .fin neg m e => if m = 0 then fpSigned f neg 0 else fpRoundRat f rm neg m 1 e

/-- A dyadic as a floating-point value; `zneg` is the sign an exact zero takes. -/
def Dy.toFp (zneg : Bool) (x : Dy) : Fp := if x.m = 0 then .fin zneg 0 0 else .fin (x.m < 0) x.m.natAbs x.e

/-- The dyadic of a finite value. -/
def fpDy : Fp → Dy
  | .fin neg m e => ⟨if neg then -(m : Int) else m, e⟩
  | _ => ⟨0, 0⟩

/-- The sign an exact zero sum takes where its terms do not share one (R21). -/
def zeroNeg (rm : Rm) : Bool := rm == .rdn

/-- R21: the exact sum, with the zero-sum rule. -/
def fpAdd (rm : Rm) (x y : Fp) : Fp :=
  match x, y with
  | .nan, _ => .nan
  | _, .nan => .nan
  | .inf a, .inf b => if a = b then .inf a else .nan
  | .inf a, .fin _ _ _ => .inf a
  | .fin _ _ _, .inf b => .inf b
  | .fin a m e, .fin b n d =>
    if m = 0 ∧ n = 0 then .fin (if a = b then a else zeroNeg rm) 0 0
    else ((fpDy (.fin a m e)).add (fpDy (.fin b n d))).toFp (zeroNeg rm)

/-- The negation of a value. -/
def fpNeg : Fp → Fp
  | .nan => .nan
  | .inf a => .inf (!a)
  | .fin a m e => .fin (!a) m e

/-- The absolute value. -/
def fpAbs : Fp → Fp
  | .nan => .nan
  | .inf _ => .inf false
  | .fin _ m e => .fin false m e

/-- The exact product. -/
def fpMul (x y : Fp) : Fp :=
  match x, y with
  | .nan, _ => .nan
  | _, .nan => .nan
  | .inf a, .inf b => .inf (a != b)
  | .inf a, .fin b m _ => if m = 0 then .nan else .inf (a != b)
  | .fin a m _, .inf b => if m = 0 then .nan else .inf (a != b)
  | .fin a m e, .fin b n d => .fin (a != b) (m * n) (e + d)

/-- Whether a value is a NaN. -/
def fpIsNan : Fp → Bool
  | .nan => true
  | _ => false

/-- Whether a value is finite. -/
def fpIsFin : Fp → Bool
  | .fin _ _ _ => true
  | _ => false

/-- R60: x < y by the unordered comparison of IEEE 754; false when either is a NaN. -/
def fpLt (x y : Fp) : Bool :=
  match x, y with
  | .nan, _ => false
  | _, .nan => false
  | .inf a, .inf b => a && !b
  | .inf a, .fin _ _ _ => a
  | .fin _ _ _, .inf b => !b
  | .fin a m e, .fin b n d => (fpDy (.fin a m e)).lt (fpDy (.fin b n d))

/-- R60: x = y; a NaN equals nothing, and the zeros are equal. -/
def fpEq (x y : Fp) : Bool := !fpIsNan x && !fpIsNan y && !fpLt x y && !fpLt y x

/-- The sign of a value. -/
def fpSign : Fp → Bool
  | .nan => false
  | .inf a => a
  | .fin a _ _ => a

/-- R105: a before b in the order of VMIN and VMAX, where -0 is below +0 (neither is a NaN). -/
def fpBefore (x y : Fp) : Bool := fpLt x y || (fpEq x y && fpSign x && !fpSign y)

def fAdd (f : Fmt) (rm : Rm) (a b : Nat) : Nat := fpRound f rm (fpAdd rm (fpDecode f a) (fpDecode f b))
def fNeg (f : Fmt) (a : Nat) : Nat := fpRound f .rne (fpNeg (fpDecode f a))
def fAbs (f : Fmt) (a : Nat) : Nat := fpRound f .rne (fpAbs (fpDecode f a))
def fSub (f : Fmt) (rm : Rm) (a b : Nat) : Nat :=
  fpRound f rm (fpAdd rm (fpDecode f a) (fpNeg (fpDecode f b)))
def fMul (f : Fmt) (rm : Rm) (a b : Nat) : Nat := fpRound f rm (fpMul (fpDecode f a) (fpDecode f b))
def fFma (f : Fmt) (rm : Rm) (a b c : Nat) : Nat :=
  fpRound f rm (fpAdd rm (fpMul (fpDecode f a) (fpDecode f b)) (fpDecode f c))

/-- R105: the minimum and the maximum. -/
def fMin (f : Fmt) (a b : Nat) : Nat :=
  let x := fpDecode f a
  let y := fpDecode f b
  if fpIsNan x || fpIsNan y then f.nanBits else if fpBefore y x then b else a
def fMax (f : Fmt) (a b : Nat) : Nat :=
  let x := fpDecode f a
  let y := fpDecode f b
  if fpIsNan x || fpIsNan y then f.nanBits else if fpBefore x y then b else a

/-- The quotient, rounded once. -/
def fDiv (f : Fmt) (rm : Rm) (a b : Nat) : Nat :=
  match fpDecode f a, fpDecode f b with
  | .nan, _ => f.nanBits
  | _, .nan => f.nanBits
  | .inf _, .inf _ => f.nanBits
  | .inf s, .fin t _ _ => fpInf f (s != t)
  | .fin s _ _, .inf t => fpSigned f (s != t) 0
  | .fin s m e, .fin t n d =>
    if n = 0 then (if m = 0 then f.nanBits else fpInf f (s != t))
    else if m = 0 then fpSigned f (s != t) 0
    else fpRoundRat f rm (s != t) m n (e - d)

/-- The square root of m * 2^e, m not 0, as a numerator and an exponent with a sticky low bit; the root keeps 80 bits. -/
def sqrtSticky (m : Nat) (e : Int) : Nat × Int :=
  let e1 : Int := if e % 2 = 0 then e else e - 1
  let m1 := if e % 2 = 0 then m else 2 * m
  let len := Nat.log2 m1
  if len < 160 then
    let k := (161 - len) / 2
    let m2 := m1 * 4 ^ k
    let r := isqrt m2
    (2 * r + (if r * r = m2 then 0 else 1), e1 / 2 - k - 1)
  else
    let k := (len - 160) / 2
    let m2 := m1 / 4 ^ k
    let r := isqrt m2
    (2 * r + (if r * r = m2 ∧ m2 * 4 ^ k = m1 then 0 else 1), e1 / 2 + k - 1)

/-- The square root of a value, rounded once. -/
def fpSqrtRound (f : Fmt) (rm : Rm) (x : Fp) : Nat :=
  match x with
  | .nan => f.nanBits
  | .inf s => if s then f.nanBits else fpInf f false
  | .fin s m e =>
    if m = 0 then fpSigned f s 0
    else if s then f.nanBits
    else let r := sqrtSticky m e; fpRoundRat f rm false r.1 1 r.2

def fSqrt (f : Fmt) (rm : Rm) (a : Nat) : Nat := fpSqrtRound f rm (fpDecode f a)

/-- R22: to an integer type, saturating; a NaN gives 0. -/
def fpToInt (rm : Rm) (signed : Bool) (w : Nat) (x : Fp) : Int :=
  match x with
  | .nan => 0
  | .inf s => if s then intMin signed w else intMax signed w
  | .fin s m e => clampInt signed w ((fpDy (.fin s m e)).rnd rm)

/-- R22: from an integer, rounded once. -/
def fOfInt (f : Fmt) (rm : Rm) (z : Int) : Nat := fpRound f rm ((⟨z, 0⟩ : Dy).toFp false)

/-- R21: a conversion between floating-point formats. -/
def fCvt (f g : Fmt) (rm : Rm) (a : Nat) : Nat := fpRound g rm (fpDecode f a)

/-! ## Real functions, on fixed-point integers with guard bits -/

/-- Pi times 2^256, rounded down. -/
def piFix : Nat := 0x3243f6a8885a308d313198a2e03707344a4093822299f31d0082efa98ec4e6c89
/-- The natural logarithm of 2 times 2^256, rounded down. -/
def ln2Fix : Nat := 0xb17217f7d1cf79abc9e3b39803f2f6af40f343267298b62d8a0d175b8baafa2b

/-- Fraction bits of the fixed-point reals below. -/
def fixBits : Nat := 192

/-- One more term of a sine or cosine series: t * x^2 / ((k+1)(k+2)), with alternating sign. -/
def trigTerms : Nat → Nat → Nat → Nat → Bool → Int → Int
  | 0, _, _, _, _, s => s
  | n + 1, x2, t, k, neg, s =>
    let t' := t * x2 / 2 ^ fixBits / ((k + 1) * (k + 2))
    trigTerms n x2 t' (k + 2) (!neg) (if neg then s - t' else s + t')

/-- sin and cos of x * 2^-192 for x in [0, pi/2]. -/
def sinFix (x : Nat) : Nat := (trigTerms 40 (x * x / 2 ^ fixBits) x 1 true x).toNat
def cosFix (x : Nat) : Nat :=
  (trigTerms 40 (x * x / 2 ^ fixBits) (2 ^ fixBits) 0 true ((2 ^ fixBits : Nat) : Int)).toNat

/-- The angle code * 2 pi / 2^n of R23 in fixed point. -/
def angFix (n code : Nat) : Nat := code * 2 * piFix / 2 ^ n / 2 ^ (256 - fixBits)

/-- Signed fixed-point cosine and sine of an n-bit angle code, the four quadrants folded onto [0, pi/4]. -/
def cosSinFix (n code : Nat) : Int × Int :=
  let c := code % 2 ^ n
  let quarter := 2 ^ (n - 2)
  let r := c % quarter
  let (co, si) : Nat × Nat :=
    if 2 * r ≤ quarter then (cosFix (angFix n r), sinFix (angFix n r))
    else (sinFix (angFix n (quarter - r)), cosFix (angFix n (quarter - r)))
  match c / quarter with
  | 0 => (co, si)
  | 1 => (-(si : Int), co)
  | 2 => (-(co : Int), -(si : Int))
  | _ => (si, -(co : Int))

/-- R24: the exactly rounded cosine and sine of an ANG16 code times 2^16. -/
def angcs (code : Nat) : Int × Int :=
  let p := cosSinFix 16 code
  ((⟨p.1, 16 - (fixBits : Int)⟩ : Dy).rnd .rne, (⟨p.2, 16 - (fixBits : Int)⟩ : Dy).rnd .rne)

/-- R115: the binary32 cosine and sine of an n-bit code. -/
def cosSinF32 (n code : Nat) : Nat × Nat :=
  let p := cosSinFix n code
  (fpRound fmtF32 .rne ((⟨p.1, -(fixBits : Int)⟩ : Dy).toFp false),
   fpRound fmtF32 .rne ((⟨p.2, -(fixBits : Int)⟩ : Dy).toFp false))

/-- The largest r below lo + 2^k with the angle of (x, y) at least (r - 1/2) * 2 pi / 2^n, x and y not negative. -/
def atanSearch (n x y : Nat) : Nat → Nat → Nat
  | 0, lo => lo
  | k + 1, lo =>
    let r := lo + 2 ^ k
    let b := angFix (n + 1) (2 * r - 1)
    atanSearch n x y k (if x * sinFix b ≤ y * cosFix b then r else lo)

/-- The rounded angle of a first-quadrant point, in units of 2 pi / 2^n. -/
def atanFirst (n x y : Nat) : Nat :=
  if y = 0 then 0
  else if x = 0 then 2 ^ (n - 2)
  else if Nat.log2 y + 64 < Nat.log2 x then 0
  else if Nat.log2 x + 64 < Nat.log2 y then 2 ^ (n - 2)
  else
    -- fold onto the lower octant, where the search needs n - 3 bits and its end
    if y ≤ x then atanSearch n x y (n - 2) 0 else 2 ^ (n - 2) - atanSearch n y x (n - 2) 0

/-- R114: the angle code of a finite point, mirrored by the signs. -/
def atanCode (n : Nat) (x y : Dy) : Nat :=
  let e := min x.e y.e
  let xm := x.align e
  let ym := y.align e
  let r := atanFirst n xm.natAbs ym.natAbs
  let h := if xm < 0 then 2 ^ (n - 1) - r else r
  if ym < 0 then (2 ^ n - h) % 2 ^ n else h % 2 ^ n

/-- R114: VATAN on floating-point coordinates, with the stated angles at NaNs and infinities. -/
def fpAtan (n : Nat) (x y : Fp) : Nat :=
  match x, y with
  | .nan, _ => 0
  | _, .nan => 0
  | .inf a, .inf b =>
    let r := 2 ^ (n - 3)
    let h := if a then 3 * r else r
    if b then (2 ^ n - h) % 2 ^ n else h
  | .inf a, .fin _ _ _ => if a then 2 ^ (n - 1) else 0
  | .fin _ _ _, .inf b => if b then 3 * 2 ^ (n - 2) else 2 ^ (n - 2)
  | .fin a m e, .fin b k d => atanCode n (fpDy (.fin a m e)) (fpDy (.fin b k d))

/-- One more term of the exponential series. -/
def expTerms : Nat → Nat → Nat → Nat → Nat → Nat
  | 0, _, _, _, s => s
  | n + 1, x, t, k, s =>
    let t' := t * x / 2 ^ fixBits / k
    expTerms n x t' (k + 1) (s + t')

/-- 2^f times 2^192 for a fraction f in [0, 1). -/
def exp2Fix (f : Nat) : Nat :=
  expTerms 60 (f * ln2Fix / 2 ^ 256) (2 ^ fixBits) 1 (2 ^ fixBits)

/-- R117: 2^b. -/
def f32Exp2 (a : Nat) : Nat :=
  match fpDecode fmtF32 a with
  | .nan => fmtF32.nanBits
  | .inf s => if s then 0 else fpInf fmtF32 false
  | .fin s m e =>
    let x := fpDy (.fin s m e)
    let k := x.floor
    if 128 ≤ k then fpInf fmtF32 false
    else if k < -200 then 0
    else
      let f := ((x.add ⟨-k, 0⟩).mul ⟨1, (fixBits : Int)⟩).floor.toNat
      fpRoundRat fmtF32 .rne false (exp2Fix f) 1 (k - fixBits)

/-- The next `n` bits of the base-2 logarithm of y * 2^-256, y in [1, 2) there. -/
def log2Bits : Nat → Nat → Nat → Nat
  | 0, _, r => r
  | n + 1, y, r =>
    let z := y * y / 2 ^ 256
    if 2 ^ 257 ≤ z then log2Bits n (z / 2) (2 * r + 1) else log2Bits n z (2 * r)

/-- R117: the base-2 logarithm of b. -/
def f32Log2 (a : Nat) : Nat :=
  match fpDecode fmtF32 a with
  | .nan => fmtF32.nanBits
  | .inf s => if s then fmtF32.nanBits else fpInf fmtF32 false
  | .fin s m e =>
    if m = 0 then fpInf fmtF32 true
    else if s then fmtF32.nanBits
    else
      let k := (Nat.log2 m : Int) + e
      let y := m * 2 ^ 256 / 2 ^ Nat.log2 m
      let d : Dy := ⟨k * ((2 ^ 110 : Nat) : Int) + log2Bits 110 y 0, -110⟩
      -- the last bit stands for what the 110 bits leave out, so no false tie arises
      let d2 : Dy := if y = 2 ^ 256 then d else ⟨2 * d.m + 1, d.e - 1⟩
      fpRound fmtF32 .rne (d2.toFp false)

/-- R117: 1/b. -/
def f32Rcp (a : Nat) : Nat :=
  match fpDecode fmtF32 a with
  | .nan => fmtF32.nanBits
  | .inf s => fpSigned fmtF32 s 0
  | .fin s m e => if m = 0 then fpInf fmtF32 s else fpRoundRat fmtF32 .rne s 1 m (-e)

/-- R117: 1 over the square root of b. -/
def f32Rsq (a : Nat) : Nat :=
  match fpDecode fmtF32 a with
  | .nan => fmtF32.nanBits
  | .inf s => if s then fmtF32.nanBits else 0
  | .fin s m e =>
    if m = 0 then fpInf fmtF32 s
    else if s then fmtF32.nanBits
    else
      let m1 := if e % 2 = 0 then m else 2 * m
      let e1 : Int := if e % 2 = 0 then e else e - 1
      let r := isqrt (2 ^ 160 / m1)
      fpRoundRat fmtF32 .rne false (2 * r + (if r * r * m1 = 2 ^ 160 then 0 else 1)) 1 (-80 - 1 - e1 / 2)

/-- R23: ANG32 to ANG16. -/
def narrowAngle (code : Nat) : Nat := rndDiv .rne false (code % 2 ^ 32) (2 ^ 16) % 2 ^ 16

/-! ## BX32 -/

/-- A BX32 vector of R25: 128 lane integers and E; `none` stands for the NaN vector (E = -32768, lanes 0). -/
structure BxVec where
  lanes : List Int
  exp : Int
  deriving DecidableEq, Repr

/-- R25: the exponent that marks the NaN vector. -/
def bxNanExp : Int := -32768

/-- R25: the NaN vector. -/
def bxNan : BxVec := ⟨List.replicate 128 0, bxNanExp⟩

/-- R26: FLOOR(log2 of the norm) + 2, from the exact sum of squares (not zero). -/
def bxExpOf (sq : Dy) : Int := sq.log2.fdiv 2 + 2

/-- R26, on exact finite values. -/
def bxEncodeDy (xs : List Dy) : BxVec :=
  let sq := Dy.sum (xs.map fun x => x.mul x)
  if sq.m = 0 then ⟨xs.map fun _ => 0, 0⟩
  else
    let e := bxExpOf sq
    ⟨xs.map fun x => (x.mul ⟨1, 31 - e⟩).rnd .rne, e⟩

/-- R26: conversion into BX32. -/
def bxEncode (xs : List Fp) : BxVec := if xs.all fpIsFin then bxEncodeDy (xs.map fpDy) else bxNan

/-- R27: the value of a lane, exact. -/
def bxLane (v : BxVec) (i : Nat) : Fp :=
  if v.exp = bxNanExp then .nan else ((⟨v.lanes.getD i 0, v.exp - 31⟩ : Dy).toFp false)

/-- R30: the value of an SC16 scale entry. -/
def sc16 (code : Nat) : Dy :=
  if code % 2 ^ 16 = 0 then ⟨1, 0⟩
  else
    let m : Int := ((1024 + code % 1024 : Nat) : Int)
    ⟨if code / 2 ^ 15 % 2 = 1 then -m else m, ((code / 1024 % 32 : Nat) : Int) - 15 - 10⟩

/-- R31: the scale column and the renormalisation of a sweep, in a single rounding. -/
def bxRenorm (scale : List Nat) (v : BxVec) : BxVec :=
  if v.exp = bxNanExp then v
  else
    let ys := (v.lanes.zip scale).map fun p => (⟨p.1, v.exp - 31⟩ : Dy).mul (sc16 p.2)
    let sq := Dy.sum (ys.map fun y => y.mul y)
    if sq.m = 0 then ⟨v.lanes.map fun _ => 0, 0⟩
    else
      let e := bxExpOf sq
      if 32767 < e then bxNan
      else if e < -32767 then ⟨v.lanes.map fun _ => 0, 0⟩
      else ⟨ys.map fun y => (y.mul ⟨1, 31 - e⟩).rnd .rne, e⟩

/-- R28: one output of a mesh cell, saturated to the lane range; true when it saturated. -/
def meshSat (z : Int) : Int × Bool := (clampInt true 32 z, clampInt true 32 z != z)

/-- R28: the rotation of a pair by an ANG16 code; the two outputs and the count of saturated lanes of this pair. -/
def meshRotate (code : Nat) (x y : Int) : Int × Int × Nat :=
  let cs := angcs code
  let x' := meshSat ((⟨cs.1 * x - cs.2 * y, -16⟩ : Dy).rnd .rne)
  let y' := meshSat ((⟨cs.2 * x + cs.1 * y, -16⟩ : Dy).rnd .rne)
  (x'.1, y'.1, (if x'.2 then 1 else 0) + (if y'.2 then 1 else 0))

/-! ## Exact accumulators -/

/-- The flag bits of R34. -/
def flagPinf : Nat := 1
def flagNinf : Nat := 2
def flagNan : Nat := 4
def flagRange : Nat := 8
def flagInexact : Nat := 16

/-- R35: a contribution to an XF320 slot holding the integer `a` (modulo 2^320) and the flag word. -/
def xfAdd (a flags : Nat) (x : Fp) : Nat × Nat :=
  match x with
  | .nan => (a, flags ||| flagNan)
  | .inf s => (a, flags ||| (if s then flagNinf else flagPinf))
  | .fin s m e => (wrapInt 320 ((a : Int) + (⟨if s then -(m : Int) else m, e + 149⟩ : Dy).rnd .rne), flags)

/-- R35: a contribution to an XW192 slot with anchor `an`. -/
def xwAdd (an : Int) (w flags : Nat) (x : Fp) : Nat × Nat :=
  match x with
  | .nan => (w, flags ||| flagNan)
  | .inf s => (w, flags ||| (if s then flagNinf else flagPinf))
  | .fin s m e =>
    let d : Dy := ⟨if s then -(m : Int) else m, e - an⟩
    let r := d.rnd .rne
    let exact := d.rnd .rdn = r ∧ d.rnd .rup = r
    (wrapInt 192 ((w : Int) + r),
     flags ||| (if exact then 0 else flagInexact) ||| (if 2 ^ 183 ≤ r.natAbs then flagRange else 0))

/-- R37: the read-out of an XF320 slot. -/
def xfRead (f : Fmt) (rm : Rm) (a flags : Nat) : Nat :=
  if flags &&& flagNan ≠ 0 ∨ (flags &&& flagPinf ≠ 0 ∧ flags &&& flagNinf ≠ 0) then f.nanBits
  else if flags &&& flagPinf ≠ 0 then fpInf f false
  else if flags &&& flagNinf ≠ 0 then fpInf f true
  else fpRound f rm ((⟨sextNat 320 a, -149⟩ : Dy).toFp false)

/-- R37: the read-out of an XW192 slot with anchor `an`. -/
def xwRead (f : Fmt) (rm : Rm) (an : Int) (w flags : Nat) : Nat :=
  if flags &&& flagNan ≠ 0 ∨ (flags &&& flagPinf ≠ 0 ∧ flags &&& flagNinf ≠ 0) then f.nanBits
  else if flags &&& flagRange ≠ 0 ∨ (w / 2 ^ 183 % 2 ^ 9 ≠ 0 ∧ w / 2 ^ 183 % 2 ^ 9 ≠ 2 ^ 9 - 1) then f.nanBits
  else if flags &&& flagPinf ≠ 0 then fpInf f false
  else if flags &&& flagNinf ≠ 0 then fpInf f true
  else fpRound f rm ((⟨sextNat 192 w, an⟩ : Dy).toFp false)

/-! ## Slices -/

/-- R38: the slices of one scaled element, top slice first; `j` counts the slices still to take. -/
def sliceDigits : Nat → Int → List Int
  | 0, _ => []
  | j + 1, x =>
    let w : Int := ((2 ^ (16 * j) : Nat) : Int)
    let d := (2 * x + w).fdiv (2 * w)
    d :: sliceDigits j (x - d * w)

/-- R38: G from s and emax; -32768 marks a row without a finite non-zero element. -/
def sliceShift (s : Nat) (emax : Int) : Int := if emax = -32768 then 0 else 16 * s - 3 - emax

/-- R38: the slices of an element under G. -/
def sliceSplit (s : Nat) (g : Int) (x : Fp) : List Int :=
  let v : Int := if fpIsFin x then ((fpDy x).mul ⟨1, g⟩).rnd .rne else 0
  sliceDigits s v

/-- R45: one level of the tree. -/
def treeLevel {α : Type} (op : α → α → α) : List α → List α
  | a :: b :: r => op a b :: treeLevel op r
  | l => l

/-- R45: the tree over a list; `fuel` bounds the levels. -/
def treeFuel {α : Type} (op : α → α → α) : Nat → List α → List α
  | 0, l => l
  | n + 1, l => match l with
    | [] => []
    | [a] => [a]
    | l => treeFuel op n (treeLevel op l)

/-- R45: the reduction of a list by the fixed tree, `z` for an empty one. -/
def treeReduce {α : Type} (op : α → α → α) (z : α) (l : List α) : α := (treeFuel op (l.length) l).headD z

/-! ## Profile 0 -/

/-- A free value as a number (log entry 10). -/
def freeNat (k : Nat) : Nat := (Config.freeBits k).toNat

/-- R44: a rounding point of profile 0. The free value chooses none, the format, or a format of more precision, rounding RNE. -/
def freePoint (f : Fmt) (k : Nat) (x : Fp) : Fp :=
  let c := freeNat k
  if c % 3 = 0 then x
  else
    let w : Fmt := if c % 3 = 1 then f else ⟨f.ebits + c / 3 % 8, f.fbits + 1 + c / 24 % 64, false⟩
    fpDecode w (fpRound w .rne x)

/-- R44: a sum under profile 0: two terms that free values pick are added at a time, with a rounding point behind each addition.
The first argument bounds the additions, each of which uses three free values. -/
def freeSum (f : Fmt) : Nat → Nat → List Fp → Fp
  | 0, _, l => l.headD (.fin false 0 0)
  | n + 1, k, l =>
    if l.length ≤ 1 then l.headD (.fin false 0 0)
    else
      let i := freeNat k % l.length
      let r := l.eraseIdx i
      let j := freeNat (k + 1) % r.length
      let z := fpAdd .rne (l.getD i .nan) (r.getD j .nan)
      freeSum f n (k + 3) (freePoint f (k + 2) z :: r.eraseIdx j)

/-- The free values that a sum of `n` terms under profile 0 may use. -/
def freePerSum (n : Nat) : Nat := 3 * n

end Sys2Proof.Machine
end

