-- ==== Sys2Proof/Machine/GroupState.lean ====
section
/-! DEFINITION. The state of one group (16_group.md) as plain data: the five engines, the registers, queues, streams, the
mesh, the storage of its core, its jobs and its trap registers. Registers follow 05 R77, 06 R97, 07 R129, 10 R218. -/

namespace Sys2Proof.Machine

/-- Memory as a list of (address, byte) pairs: addresses rise, no byte is 0, and an unlisted address reads as 0
(01_device R15; log entry 2). -/
abbrev Memory := List Host.Cell

/-- The canonical form of a memory. -/
def Memory.wf (m : Memory) : Bool := m.Pairwise (fun a b => a.1 < b.1) && m.all (fun c => c.2 ≠ 0)

/-- The engines of R6, in tag order. -/
inductive Engine where
  | c | l | v | m | s
  deriving DecidableEq, Repr

/-- The kinds of branch target of R86. -/
inductive TKind where
  | jump | call | ret
  deriving DecidableEq, Repr

/-- A position of R85: the next item of the walk, a sequential item, or a branch target. In the field `pc`, `seq` stands
for the item at the walk's own address. -/
inductive Pos where
  | seq
  | item (addr : Nat)
  | target (k : TKind) (addr : Nat)
  deriving DecidableEq, Repr

/-- A level of a block stack (R52). -/
structure Level where
  body : Nat
  last : Nat
  passes : Nat
  deriving DecidableEq, Repr

/-- An entry of a hidden branch queue (R53). -/
inductive HbEntry where
  | branch (take annul : Bool)
  | count (n : Nat)
  deriving DecidableEq, Repr

/-- A vector register: 128 lanes and the exponent field (R97). -/
structure VReg where
  lanes : Vector (BitVec 32) 128
  exp : BitVec 16
  deriving DecidableEq, Repr

/-- A handle register (R155, R162). `kind` and `size` are the codes of R162; `va` and `pa` are the origin's addresses,
`pa` the offset within the page for HOST and GEN; `frame` is the page's frame, a host address for HOST. -/
structure Handle where
  valid : Bool
  kind : BitVec 3
  size : BitVec 2
  wr : Bool
  sealed : Bool
  digest : Bool
  profile : Bool
  va : BitVec 64
  pa : BitVec 52
  frame : BitVec 52
  deriving DecidableEq, Repr

/-- A register that an in-flight result names (R305). -/
inductive Reg where
  | s (n : BitVec 5)
  | p (n : BitVec 3)
  | v (n : BitVec 5)
  | h (n : BitVec 4)
  | e (n : BitVec 3)
  | m (n : BitVec 3)
  deriving DecidableEq, Repr

/-- The value of a register. -/
inductive Val where
  | word (w : BitVec 64)
  | bit (b : Bool)
  | vec (v : VReg)
  | handle (h : Handle)
  | mask (m : BitVec 128)
  deriving DecidableEq, Repr

/-- A result in flight (R47, R78, R102, R160): it lands at the counted cycle `land`, or on arrival if that is later.
`req` names the forwarded access that brings it (R326), `interval` the atomic interval that resolves it (R175), `buf` the
buffer it is counted against (R353). -/
structure InFlight where
  reg : Reg
  val : Val
  land : Nat
  arrived : Bool
  late : Bool
  buf : Option (BitVec 8)
  req : Option Nat
  interval : Option Nat
  deriving DecidableEq, Repr

/-- The old value of a stop record (R238); its result, arrival and landing stay in the engine's results in flight, counted
on the engine's own clock, which a stop does not advance. Log entry 29. -/
structure StopRec where
  reg : Reg
  old : Val
  deriving DecidableEq, Repr

/-- One engine of a group. `cur` is the address its walk has reached, `w` the walk count of R95, `seq` the sequence number
of R57, `clk` the counted cycle in which it may issue next (R56, R236), `slots` the delay slots still to issue (R84),
`latch` a word that replaces the item at `cur` (R62, R222), `sub` the BRKWORD that takes the place of its next item (R222), `skip` marks an item that RFT skips (R222), `notify` the text address and the counter of the NOTIFY with CT that it stopped at (R208), `waiting` the pod
time since which a stall lasts (R365), `waitBuf` the buffer whose late data it waits for (R354). `dictq` holds the DICTLD copies that C has completed and this engine has not passed,
oldest first, each with the entry and its earlier word, none for an annulled copy; `dictOwed` counts annulled copies that this
engine passed before C (R64). `hbCovers` holds, for each entry of `hbq`, the accesses of C that it covers and that were open at its
push (R241). -/
structure EngineState where
  pc : Pos
  pc1 : Pos
  pc2 : Pos
  annul : BitVec 2
  cur : Nat
  stack : List Level
  hbq : List HbEntry
  hbCovers : List (List Nat)
  w : Nat
  seq : Nat
  clk : Nat
  slots : Nat
  flight : List InFlight
  stops : List StopRec
  latch : Option (BitVec 32 × Nat)
  sub : Option (BitVec 32)
  skip : Bool
  stopped : Bool
  notify : Option (Nat × Nat)
  waiting : Option Nat
  waitBuf : Option (BitVec 8)
  dictq : List (Option (Nat × Option (BitVec 32)))
  dictOwed : Nat
  deriving DecidableEq, Repr

/-- A queue register (R91): producer, consumer and entries, oldest first; for each entry the accesses that it covers and that were
open at its push (R241), and in `owed` the vectors that each stream had received by then (R126, R242). -/
structure Queue where
  bind : Option (Engine × Engine)
  entries : List (BitVec 64)
  covers : List (List Nat)
  owed : List (List Nat)
  deriving DecidableEq, Repr

/-- The states of a stream (R122). -/
inductive StreamSt where
  | unbound | bound | running | done
  deriving DecidableEq, Repr

/-- A stream pattern record (R119). -/
structure Pattern where
  base : Nat
  xbase : Nat
  drained : Bool
  lanes : Bool
  dims : Nat
  xs : Bool
  direct : Bool
  counts : List Nat
  strides : List Int
  deriving DecidableEq, Repr

/-- A stream register (R119 to R125). For an input stream `pos` counts vectors filled and `taken` vectors consumed; for a
drained stream `taken` counts vectors received and `pos` vectors written. -/
structure Stream where
  st : StreamSt
  pat : Pattern
  fmt : Nat
  pos : Nat
  taken : Nat
  buf : List VReg
  rm : BitVec 2
  scale : BitVec 5
  sat : Bool
  mag : Option Nat
  owner : Option Engine
  deriving DecidableEq, Repr

/-! ## Mesh -/

/-- A mesh bank (R129): stage rows of 64 codes (a missing row is all 0x0000), 128 scale entries, the stage count. -/
structure Bank where
  rows : List (List (BitVec 16))
  scale : List (BitVec 16)
  count : Nat
  deriving DecidableEq, Repr

/-- The panel buffer (R145): s, Kp, column words, and the plane rows, plane by plane. -/
structure Panel where
  s : Nat
  kp : Nat
  cols : List (BitVec 32)
  rows : List (List Int)
  deriving DecidableEq, Repr

/-- The header that the latest issued MPANEL read (R147). -/
structure PanelHead where
  s : Nat
  kp : Nat
  deriving DecidableEq, Repr

/-- The mesh operations of R131 with what they read at issue. -/
inductive MeshKind where
  | load (bank addr n : Nat) (chk : Bool)
  | store (addr bank : Nat)
  | scale (dst src : Nat)
  | sweep (dst src bank : Nat) (gather scatter first : Bool) (n : Nat) (free : Bool)
  | derive (dst src bank n : Nat) (free : Bool)
  | panel (src s kp : Nat) (cols : List (BitVec 32))
  | slice (win src s : Nat) (full : Bool) (m h kp batch : Nat) (free : Bool)
  | retire (dst win s : Nat) (full : Bool) (m rm : Nat) (f64 free : Bool) (waits : List Nat)
  | clrWindow (acc units : Nat)
  | clrBank (bank : Nat)
  deriving DecidableEq, Repr

/-- A mesh record of R309: a vector of a sweep or a tile that has entered the mesh and is not appended: its index within the
operation, the steps done (R309), its lanes and exponent after them, the lanes that came to stage 0 (R143), the lanes saturated
so far, the first free value of profile 0. Log entry 16. -/
structure MeshRec where
  index : Nat
  steps : Nat
  lanes : List Int
  exp : Int
  input : List Int
  sat : Nat
  free : Option Nat
  deriving DecidableEq, Repr

/-- A mesh operation that is not complete (R131): `mseq` is the sequence number of its word, `next` counts vectors or rows done, `pair` the next pair of a slice step,
`seg` the vectors of the current sweep segment (R142), `rows` the panel rows or the vectors of the present row of A taken so
far, `gidx`, `sidx` index elements popped and not used, `panel` the panel of a slice step that has reached the grid, `inside` the
vectors that are in the mesh, oldest first (R309). -/
structure MeshOp where
  id : Nat
  ms : Nat
  mseq : Nat
  kind : MeshKind
  next : Nat
  pair : Nat
  seg : Nat
  rows : List (List Int)
  gidx : List Nat
  sidx : List Nat
  panel : Option Panel
  inside : List MeshRec
  deriving DecidableEq, Repr

/-- The pending results of a batch on one window (R146): the layout in its header, the mesh streams of its steps, the window as
it stood at the first issue, the header, column and row words that the steps write by word offset, and the sums they add, 128
for each pair and row. -/
structure WinPend where
  win : Nat
  s : Nat
  full : Bool
  m : Nat
  mss : List Nat
  base : Memory
  words : List (Nat × BitVec 64)
  sums : List (Nat × List (BitVec 64))
  deriving DecidableEq, Repr

/-- A batch (R129, R148): open while `name` is none. -/
structure Batch where
  id : Nat
  name : Option Nat
  wins : List WinPend
  deriving DecidableEq, Repr

/-- A drift register (R143). -/
structure Drift where
  max : BitVec 32
  count : BitVec 32
  deriving DecidableEq, Repr

/-- The mesh (R129). -/
structure MeshState where
  banks : Vector Bank 8
  panel : Option Panel
  head : Option PanelHead
  ops : List MeshOp
  nextOp : Nat
  batches : List Batch
  nextBatch : Nat
  drift : Vector Drift 4
  satcnt : BitVec 32
  chkmiss : BitVec 32
  idxerr : BitVec 32
  deriving DecidableEq, Repr

/-! ## Jobs, pending words, trace -/

/-- A resolved engine address (R181): a virtual address of a context, a scratchpad byte of a core, an accumulator word of a
core. -/
inductive Loc where
  | virt (ctx va : Nat)
  | spad (core a : Nat)
  | acc (core w : Nat)
  deriving DecidableEq, Repr

/-- A footprint entry (R183): where it lies, its length in bytes, read or write. -/
structure Foot where
  base : Loc
  len : Nat
  write : Bool
  deriving DecidableEq, Repr

/-- A routine (R189). -/
structure Routine where
  typ : Nat
  props : BitVec 8
  ident : BitVec 64
  uops : List (BitVec 32)
  deriving DecidableEq, Repr

/-- The higher-order instructions of R194. -/
inductive HForm where
  | fold | scan | zip | outer
  deriving DecidableEq, Repr

/-- What a job does (R187, R195). -/
inductive JobKind where
  | copy (len : Nat) (src dst : Loc)
  | transpose (ew rows cols : Nat) (src dst : Loc) (spitch dpitch : Nat)
  | h (form : HForm) (engine handle pf : Nat) (accin : Bool) (n nb opitch : Nat) (a : Loc) (b : Option Loc) (o : Loc)
  deriving DecidableEq, Repr

/-- The states of a job: issued, started, complete, stopped by a routine fault (R182, R193). -/
inductive JobSt where
  | issued | running | complete | faulted
  deriving DecidableEq, Repr

/-- A job of the group (R182 to R186); `before` names the earlier jobs ordered before it (R184), `seen` that C observed its
flag, `prog` counts the bytes or granules moved, `data` holds the bytes it read (an H job's accumulator or inputs), `after` C's stores that were open at its issue (R183), `addr` the address of its instruction. -/
structure Job where
  num : Nat
  kind : JobKind
  fl : Bool
  flag : Nat
  foots : List Foot
  preds : List Nat
  before : List Nat
  seen : Bool
  st : JobSt
  prog : Nat
  data : List Byte
  after : List Nat
  addr : Nat
  buf : BitVec 8
  deriving DecidableEq, Repr

/-- What will write a pending word (R219); of a firing the key is its slot plus 4,096 times its number. -/
inductive PendSrc where
  | mesh (op : Nat)
  | batch (id : Nat)
  | job (num : Nat)
  | firing (key : Nat)
  deriving DecidableEq, Repr

/-- Pending words of the group (R219): in the scratchpad (bytes) or the accumulator store (words) of a core. -/
structure PendMark where
  acc : Bool
  core : Nat
  lo : Nat
  hi : Nat
  src : PendSrc
  ms : Nat
  deriving DecidableEq, Repr

/-- A trace record (R363). -/
structure TraceRec where
  typ : BitVec 8
  engine : BitVec 8
  k : BitVec 8
  group : BitVec 32
  seq : BitVec 64
  cycle : BitVec 64
  data : BitVec 64
  deriving DecidableEq, Repr

/-- A tag-table entry that is VALID (R170). -/
structure TagEntry where
  sz : Nat
  tag : Nat
  slot : Nat
  deriving DecidableEq, Repr

/-! ## The group -/

/-- The states of a group (R299). -/
inductive Phase where
  | unplaced | placing | running | handler | frozen | preempted | stopped | done | retired
  deriving DecidableEq, Repr

/-- The status of a group or entry (R275, R297). -/
inductive Status where
  | ok | cancelled | faulted | hung | badrcb | badentry
  deriving DecidableEq, Repr

/-- System registers of the group (R218, R221). -/
structure SysRegs where
  corectl : BitVec 64
  window : BitVec 64
  sweepmax : BitVec 64
  kernid : BitVec 64
  grpidx : BitVec 64
  crank : BitVec 64
  ctxinfo : BitVec 64
  routflt : BitVec 64
  brkword : BitVec 64
  thbase : BitVec 64
  thstack : BitVec 64
  buftag : BitVec 64
  bufout : BitVec 64
  spdig : BitVec 64
  trdrop : BitVec 32
  deriving DecidableEq, Repr

/-- Trap registers (R214 to R216). -/
structure TrapRegs where
  cause : BitVec 64
  addr : BitVec 64
  va : BitVec 64
  savpc : BitVec 64
  savpc1 : BitVec 64
  savpc2 : BitVec 64
  savann : BitVec 64
  cut : Vector (BitVec 64) 7
  deriving DecidableEq, Repr

/-- The handler bank (R211). -/
structure Banked where
  s28 : BitVec 64
  s29 : BitVec 64
  s30 : BitVec 64
  s31 : BitVec 64
  p7 : Bool
  h15 : Handle
  deriving DecidableEq, Repr

/-- What the group keeps while its handler runs: C as it stopped, the position words that it saved, the first-item and
first-h15-access marks of R213, the registers that handler items wrote (R238), and under ENGCLAIM the mesh, M and the
accumulator windows (R224). -/
structure Handling where
  csave : Option EngineState
  frames : List (List Level)
  saved : List (BitVec 64)
  first : Bool
  firstH15 : Bool
  written : List Reg
  claim : Option (MeshState × EngineState)
  deriving DecidableEq, Repr

/-- Times of the group in pod-time ns: start of its run, ns spent stopped, start of the present stop, the cycle counter's
base and when it was set (R227, R229, R230), last item issued (R280), the alignment asked for, the TICK before which C does not issue its
first item (R296, R299). -/
structure GroupTime where
  start : Nat
  paused : Nat
  pauseAt : Nat
  cycBase : Nat
  cycAt : Nat
  lastIssue : Nat
  align : Option (BitVec 64)
  hold : Option Nat
  deriving DecidableEq, Repr

/-- The identity of a group: launch number, group index, rank, cluster size, core (R9), context (R299). -/
structure Ident where
  launch : Nat
  index : Nat
  rank : Nat
  csize : Nat
  core : Nat
  ctx : Nat
  deriving DecidableEq, Repr

/-- Scalar, predicate, handle and e registers of C (R77, R155, R230). -/
structure CRegs where
  s : Vector (BitVec 64) 32
  p : BitVec 8
  h : Vector Handle 16
  e : Vector (BitVec 64) 8
  deriving DecidableEq, Repr

/-- A SUPD that has begun (R127): the vectors it has processed and its hyperparameters. -/
structure Supd where
  count : Nat
  hyper : List (BitVec 32)
  deriving DecidableEq, Repr

/-- Vector, mask and MAG registers (R97, R125), and the SUPD that S is in (R127). -/
structure VRegs where
  v : Vector VReg 32
  m : Vector (BitVec 128) 8
  mag : Vector (BitVec 32) 16
  supd : Option Supd
  deriving DecidableEq, Repr

/-- The five engines. -/
structure Engines where
  c : EngineState
  l : EngineState
  v : EngineState
  m : EngineState
  s : EngineState
  deriving DecidableEq, Repr

/-- The storage of the group's core: scratchpad (bytes), accumulator store (eight bytes a word), anchors (R33), the text
that the engines fetch (addresses from TEXT, R290) with its length, the dictionary's loaded entries (R63), the tag table's
valid entries (R170). -/
structure Store where
  spad : Memory
  acc : Memory
  anchors : Vector Int 32
  text : Memory
  tlen : Nat
  textVa : Nat
  dict : List (Nat × BitVec 32)
  tags : List (Nat × TagEntry)
  deriving DecidableEq, Repr

/-- A barrier that the group has joined and not waited on (R179): the number of the join, that of the barrier and the key of the cluster at cluster scope; the
accesses that were open at the join, for which the join waits (R253), the bytes that it announces, and whether it has been counted or
sent to the home (R314); the episode, none until the home has told it; whether C stands in the BARWAIT; how that returns, once the
episode is released or broken (R316, R318); whether the release has closed its interval (R319). -/
structure Joined where
  tag : Nat
  bar : Nat
  cluster : Nat
  waits : List Nat
  bytes : BitVec 40
  sent : Bool
  ep : Option Nat
  waiting : Bool
  result : Option Bool
  closed : Bool
  deriving DecidableEq, Repr

/-- Synchronisation and work of the group: flags and their setters (R177, R178), error tokens (R180), joined barriers, jobs, WQPOST/WQARM count, atomic intervals closed (R175), pending interrupt,
pending words, trace buffer and pending losses (R364), buffer byte and stall counts (R354), and whether a pre-emption
has been asked of it at a YIELD (R285, R303). -/
structure Work where
  flags : BitVec 256
  setters : Vector (BitVec 3) 256
  tokens : Nat
  joined : List Joined
  jobs : List Job
  lastJob : Nat
  wqCount : BitVec 64
  closed : Nat
  irq : Bool
  pend : List PendMark
  trace : List TraceRec
  losses : Nat
  bufs : List (Nat × (BitVec 64 × BitVec 64))
  yielding : Bool
  deriving DecidableEq, Repr

/-- One group on its core. -/
structure Group where
  ident : Ident
  phase : Phase
  prior : Phase
  status : Status
  reason : Nat
  eng : Engines
  frames : List (List Level)
  cr : CRegs
  vr : VRegs
  queues : Vector Queue 16
  streams : Vector Stream 16
  mesh : MeshState
  store : Store
  work : Work
  sys : SysRegs
  traps : TrapRegs
  bank : Banked
  hand : Handling
  time : GroupTime
  deriving DecidableEq, Repr

/-! ## Values after placement -/

def zeroHandle : Handle := ⟨false, 0, 0, false, false, false, false, 0, 0, 0⟩

def zeroVReg : VReg := ⟨Vector.replicate 128 0, 0⟩

/-- An engine after placement: at the first header, the next positions sequential (R77). -/
def EngineState.placed : EngineState :=
  { pc := .seq, pc1 := .seq, pc2 := .seq, annul := 0, cur := 0, stack := [], hbq := [], w := 0, seq := 0,
    hbCovers := [], clk := 0, slots := 0, flight := [], stops := [], latch := none, sub := none, skip := false, stopped := false, notify := none,
    waiting := none, waitBuf := none, dictq := [], dictOwed := 0 }

def Pattern.zero : Pattern :=
  { base := 0, xbase := 0, drained := false, lanes := false, dims := 0, xs := false, direct := false, counts := [],
    strides := [] }

def Stream.unbound : Stream :=
  { st := .unbound, pat := .zero, fmt := 0, pos := 0, taken := 0, buf := [], rm := 0, scale := 0, sat := false,
    mag := none, owner := none }

def Bank.zero : Bank := ⟨[], List.replicate 128 0, 0⟩

/-- The mesh after placement (R129). -/
def MeshState.placed : MeshState :=
  { banks := Vector.replicate 8 .zero, panel := none, head := none, ops := [], nextOp := 0, batches := [], nextBatch := 0,
    drift := Vector.replicate 4 ⟨0, 0⟩, satcnt := 0, chkmiss := 0, idxerr := 0 }

/-- R221: the system registers after placement; the identity registers are set by placement itself. -/
def SysRegs.placed : SysRegs :=
  { corectl := 0, window := 0x1000, sweepmax := 0x1000, kernid := 0, grpidx := 0, crank := 0, ctxinfo := 0, routflt := 0,
    brkword := 0, thbase := 0, thstack := 0, buftag := 0, bufout := 0, spdig := 0, trdrop := 0 }

def TrapRegs.placed : TrapRegs :=
  { cause := 0, addr := 0, va := 0, savpc := 0, savpc1 := 0, savpc2 := 0, savann := 0, cut := Vector.replicate 7 0 }

/-- A core's group state with the values that placement gives (R77, R97, R129, R221, R289); an unplaced core holds these
values from reset on (log entry 1). -/
def Group.blank (core : Nat) : Group :=
  { ident := ⟨0, 0, 0, 1, core, 0⟩
    phase := .unplaced, prior := .unplaced, status := .ok, reason := 0
    eng := ⟨.placed, .placed, .placed, .placed, .placed⟩
    frames := []
    cr := ⟨Vector.replicate 32 0, 0, Vector.replicate 16 zeroHandle, Vector.replicate 8 0⟩
    vr := ⟨Vector.replicate 32 zeroVReg, Vector.replicate 8 0, Vector.replicate 16 0, none⟩
    queues := Vector.replicate 16 ⟨none, [], [], []⟩
    streams := Vector.replicate 16 .unbound
    mesh := .placed
    store := ⟨[], [], Vector.replicate 32 0, [], 0, 0, [], []⟩
    work :=
      { flags := 0, setters := Vector.replicate 256 7, tokens := 0, joined := [], jobs := [], lastJob := 0, wqCount := 0,
        closed := 0, irq := false, pend := [], trace := [], losses := 0, bufs := [], yielding := false }
    sys := .placed
    traps := .placed
    bank := ⟨0, 0, 0, 0, false, zeroHandle⟩
    hand := ⟨none, [], [], false, false, [], none⟩
    time := ⟨0, 0, 0, 0, 0, 0, none, none⟩ }

end Sys2Proof.Machine
end

