-- ==== Sys2Proof/Machine/ModuleState.lean ====
section
/-! DEFINITION. The state of the module outside its groups, as plain data: contexts (13_context.md), hardware queues
(14_queue.md), launches (15_kernel.md), barriers (20_barrier.md), links (21_link.md), pages (23_page.md), the collective
engine's slots (09 R197, R198) and the platform (26_platform.md). -/

namespace Sys2Proof.Machine

/-- The two parts (01_device R5, 26_platform R380). -/
inductive Part where
  | lq128 | lq96
  deriving DecidableEq, Repr

/-! ## Contexts -/

/-- The states of a context (R260). -/
inductive CtxSt where
  | building | ready | freezing | frozen | draining
  deriving DecidableEq, Repr

/-- An accepted region control block (R262); `named` once its own entry of the region table has been read (R263). -/
structure Rcb where
  addr : Nat
  parent : Nat
  rid : Nat
  prio : Nat
  ovp : Bool
  fdom : Nat
  ovf : Bool
  ovc : Bool
  ovh : Bool
  cbudget : Nat
  hbudget : Nat
  cusedNs : Nat
  hused : Nat
  named : Bool
  deriving DecidableEq, Repr

/-- The context part of the root RCB (R262). -/
structure RootPart where
  ttbase : Nat
  nqbase : Nat
  nqlen : Nat
  accthr : Nat
  ctrfirst : Nat
  ctrcount : Nat
  qfirst : Nat
  qcount : Nat
  nivose : Bool
  syspriv : Bool
  revms : Nat
  trbase : Nat
  trlog : Nat
  rtbase : Nat
  rtcount : Nat
  deriving DecidableEq, Repr

/-- A binding (R164). -/
structure Binding where
  obj : Nat
  base : Nat
  len : Nat
  deriving DecidableEq, Repr

/-- A group that holds a sync object or waits for it (R165): its module, launch and index, the number of its request, and whether it
wants EX. -/
structure SyncHold where
  mod : Nat
  launch : Nat
  index : Nat
  tag : Nat
  ex : Bool
  deriving DecidableEq, Repr

/-- The holders and waiters of a sync object at its home, oldest first (R165, R168), by the object's physical address,
from 2^52 on for host memory. -/
structure SyncObj where
  key : Nat
  ctx : Nat
  holders : List SyncHold
  waiters : List SyncHold
  deriving DecidableEq, Repr

/-- What a group of this module has asked of a sync object's home in another module (R165): whether the home has granted it, and
whether the group has passed its ACQ. -/
structure SyncAsk where
  tag : Nat
  key : Nat
  ctx : Nat
  launch : Nat
  index : Nat
  ex : Bool
  isGranted : Bool
  isHeld : Bool
  deriving DecidableEq, Repr

/-- A generator window (R203, R206): its descriptor and its generation number. -/
structure GenWin where
  kind : Nat
  fmt : Nat
  strap : Bool
  vbase : Nat
  size : Nat
  pitch : Nat
  p : List (BitVec 64)
  gen : Nat
  deriving DecidableEq, Repr

/-- A work entry (R197). -/
structure WEntry where
  kind : Nat
  rc : Bool
  fl : Bool
  rb : Bool
  red : Nat
  flag : Nat
  rout : Nat
  slot : Nat
  qp : Nat
  trig : Option Nat
  lctr : Option Nat
  rctr : Option Nat
  rearm : Nat
  thresh : BitVec 64
  thstep : Nat
  len : Nat
  lbase : BitVec 64
  rbase : BitVec 64
  lstride : Int
  rstride : Int
  tmo : Nat
  port : Nat
  deriving DecidableEq, Repr

/-- The states of a slot that is not FREE (R198). -/
inductive SlotSt where
  | armed | firing | done | cancelled
  deriving DecidableEq, Repr

/-- The outcomes of a firing (LAST of R202). -/
inductive Last where
  | none | ok | lost | faulted | absent | nogroup
  deriving DecidableEq, Repr

/-- A firing in progress or waiting for its acknowledgement (R199, R200): its number, queue pair and TMO in µs, the bytes put
in a replay store, whether it is locally complete and when (pod time), the resends made, the source data it read. -/
structure Firing where
  num : Nat
  qp : Nat
  tmo : Nat
  off : Nat
  isLocal : Bool
  sentAt : Nat
  resends : Nat
  data : List Byte
  deriving DecidableEq, Repr

/-- A work-entry slot in use (R198). `firing` is none while the slot is FIRING until the source is read. `owner` is the index of
the posting group, none for a STEP; `launch` the posting kernel;
`unacked` firings with RC = 0 whose acknowledgement has not come (R200). -/
structure WSlot where
  st : SlotSt
  entry : WEntry
  thr : BitVec 64
  left : Nat
  last : Last
  losts : Nat
  reason : Nat
  fired : BitVec 32
  nextFiring : Nat
  firing : Option Firing
  unacked : List Firing
  cancel : Bool
  failed : Bool
  owner : Option Nat
  launch : Nat
  buf : BitVec 8
  deriving DecidableEq, Repr

/-- An episode of a barrier at its home (R314 to R317): its number, the key of its cluster at cluster scope, the joins that
complete it and those received, the pending-byte counter, and at pod scope the stamps (domain, time) and the release tick. -/
structure Episode where
  num : Nat
  cluster : Nat
  goal : Nat
  joins : Nat
  counter : BitVec 40
  stamps : List (Nat × Nat)
  tick : Option Nat
  deriving DecidableEq, Repr

/-- A configured barrier (R312, R316): `opened` counts the episodes opened; `unanswered` the joins of this module that its home
elsewhere has not yet given an episode (R320). -/
structure Barrier where
  scope : Nat
  pcount : Nat
  home : Nat
  ndom : Nat
  wbase : BitVec 64
  wlen : Nat
  peers : Nat
  xmargin : Nat
  broken : Bool
  episodes : List Episode
  opened : Nat
  unanswered : Nat
  late : BitVec 32
  deriving DecidableEq, Repr

/-- The fault record of a context (R268). -/
structure FaultRec where
  cause : BitVec 64
  addr : BitVec 64
  group : BitVec 32
  further : BitVec 32
  deriving DecidableEq, Repr

/-- An exact access counter (R343) by the physical address of its table entry; `dirty` until written back. -/
structure AccCount where
  entry : Nat
  count : BitVec 32
  dirty : Bool
  hot : Bool
  deriving DecidableEq, Repr

/-- Trace records that Messidor has yet to move (R364, R366): of the front end, or of a core whose group has left it, and the
records dropped since the last LOSS. -/
structure TraceSrc where
  core : Option Nat
  recs : List TraceRec
  losses : Nat
  deriving DecidableEq, Repr

/-- A context that is not FREE (R261). Lists hold only items that are in use, by rising number. `cmd` is the command
record whose STATUS is owed, `sources` what Messidor has yet to move into the ring, `ringHdr` the
WRPTR and LOST that it owes a ring in another module. -/
structure Context where
  st : CtxSt
  root : RootPart
  rcbs : List Rcb
  binds : List (Nat × Binding)
  gens : List (Nat × GenWin)
  routines : List (Nat × Routine)
  slots : List (Nat × WSlot)
  bars : List (Nat × Barrier)
  digests : Vector (BitVec 128) 4
  gendrop : BitVec 32
  revoked : BitVec 32
  fault : Option FaultRec
  accs : List AccCount
  cmd : Option Nat
  sources : List TraceSrc
  ringHdr : Option (Nat × Nat)
  deriving DecidableEq, Repr

/-! ## Queues and launches -/

/-- The states of a hardware queue that is not DISABLED (R281). -/
inductive QueueSt where
  | active | cancelling | frozen
  deriving DecidableEq, Repr

/-- The states of an entry that has started or completed (R277). -/
inductive EntrySt where
  | started | complete (s : Status)
  deriving DecidableEq, Repr

/-- An entry that the front end has taken and still follows: a WAIT with its counter and threshold, and whether the condition has
held (R276). -/
structure QEntry where
  index : Nat
  st : EntrySt
  launch : Option Nat
  wait : Option (Nat × BitVec 64)
  met : Bool
  deriving DecidableEq, Repr

/-- A hardware queue (R272, R281, R283, R284): control record, HEAD, DONE, entries followed, completion count, fault and
first failed entry, the entries that failed or were cancelled (R279), deficit D, the pod time since which it is ready without
being served. -/
structure HQueue where
  ctx : Nat
  st : QueueSt
  ring : Nat
  logn : Nat
  ordered : Bool
  crep : Bool
  rid : Nat
  hangms : Nat
  cring : Nat
  clog : Nat
  head : Nat
  done : Nat
  entries : List QEntry
  ccount : Nat
  fault : Nat
  failed : Nat
  bad : List Nat
  deficit : Nat
  readySince : Option Nat
  deriving DecidableEq, Repr

/-- A kernel descriptor (R287). -/
structure KDesc where
  kernid : BitVec 64
  text : Nat
  tlen : Nat
  dcount : Nat
  csize : Nat
  resident : Bool
  dict : Nat
  data : Nat
  dlen : Nat
  argw : Nat
  trig : Option Nat
  tthresh : BitVec 64
  qmap : List (BitVec 8)
  dargs : Nat
  calg : Nat
  calrid : Nat
  cctr : Option Nat
  deriving DecidableEq, Repr

/-- The states of a launch (R298). -/
inductive LaunchSt where
  | waiting | trigger | placing | running | draining | done
  deriving DecidableEq, Repr

/-- A launch (R294 to R298): `placed` counts groups placed, `results` holds the status of each completed group, `reported`
counts completion records written (R286), `met` that the trigger has been met (R295), `begun` that group 0 has been placed (R297), `tick`, `kva` and `cores` (group and core, until the group is placed) belong to a
calendar launch. -/
structure Launch where
  id : Nat
  ctx : Nat
  queue : Option Nat
  entry : Nat
  rid : Nat
  kd : KDesc
  args : Nat
  g : Nat
  st : LaunchSt
  placed : Nat
  results : List (Nat × Status)
  pendingRecs : List (Nat × Status)
  reported : Nat
  cancelled : Bool
  met : Bool
  begun : Bool
  tick : Option Nat
  kva : Nat
  cores : List (Nat × Nat)
  late : BitVec 32
  deriving DecidableEq, Repr

/-- A valid launch-calendar entry (R232, R296). -/
structure CalEntry where
  core : Nat
  slot : Nat
  ctx : Nat
  tick : Nat
  kdesc : Nat
  group : Nat
  deriving DecidableEq, Repr

/-! ## Packets -/

/-- A packet (R322): header fields and payload bytes. -/
structure Packet where
  kind : Nat
  npay : Nat
  flags : BitVec 8
  dmod : Nat
  smod : Nat
  tag : Nat
  ctx : Nat
  sub : BitVec 8
  len : Nat
  addr : BitVec 64
  mask : BitVec 64
  qp : Nat
  slot : Nat
  firing : Nat
  offset : Nat
  value : BitVec 64
  rctr : BitVec 16
  rout : BitVec 8
  payload : List Byte
  deriving DecidableEq, Repr

/-! ## Pages -/

/-- The asynchronous agents that read and write memory for themselves: a job of a core, a firing of a slot, a firing at its
target, a page command, Messidor for a ring, the front end for a launch, a queue or a command record, the fetch of text, the closing of an
interval (R175). -/
inductive Agent where
  | job (core num : Nat)
  | firing (ctx slot : Nat)
  | target (qp slot firing : Nat)
  | page (cmd : Nat)
  | ring (ctx : Nat)
  | launch (id : Nat)
  | queue (q : Nat)
  | text (ctx : Nat)
  | closing (tag : Nat)
  | bell (cmd : Nat)
  deriving DecidableEq, Repr

/-- The places of an atomic: a core's scratchpad, or a page of a context. -/
inductive AtPlace where
  | spad (core a : Nat)
  | page (ctx va pa : Nat) (isHost : Bool)
  deriving DecidableEq, Repr

/-- A value-returning atomic of an open interval in Nivose mode (R175): its party (launch, cluster number, none for a RESIDENT
kernel), interval, logical thread order, place, operation code (OP - 0x53), type, operands, and where the old value goes. -/
structure PendAtomic where
  tag : Nat
  launch : Nat
  cluster : Option Nat
  interval : Nat
  index : Nat
  seq : Nat
  core : Nat
  place : AtPlace
  op : Nat
  signed : Bool
  bits : Nat
  sat : Bool
  v : Nat
  u : Nat
  req : Nat
  deriving DecidableEq, Repr

/-- A write held while its page is MIGRATING (R250): its number, virtual address, bytes, the core of the storing group or the agent
that writes, the answer that another module gets once it is performed, for an atomic what it does (its `data` then says only how many
bytes it writes); in arrival order. -/
structure HeldWrite where
  tag : Nat
  ctx : Nat
  va : Nat
  data : List (BitVec 8)
  core : Option Nat
  agent : Option Agent
  ack : Option Packet
  rmw : Option PendAtomic
  deriving DecidableEq, Repr

/-- A page command in progress (R345): `ctr` is the CTR of its record, `old` the entry's word 0 before it, `stage` how far a DUPLICATE has
come: 0 it asks the owner, 1 it copies, 2 it copies a sealed page. -/
structure PageOp where
  cmd : Nat
  op : Nat
  ctx : Nat
  va : Nat
  frame : Nat
  hostf : Bool
  ctr : Nat
  old : BitVec 64
  stage : Nat
  deriving DecidableEq, Repr

/-- A page held by HOLD (R348). -/
structure HeldPage where
  ctx : Nat
  va : Nat
  deriving DecidableEq, Repr

/-- A SEAL or UNSEAL under way on a page (R163): the module that asked, none for this one, its request number there, the frame, the
page here that has the frame, and the modules whose answer is outstanding. -/
structure Sealing where
  asker : Option Nat
  tag : Nat
  thaw : Bool
  ctx : Nat
  va : Nat
  frame : Nat
  waits : List Nat
  deriving DecidableEq, Repr

/-- The holders of a DUPLICATED page at its owner (R349): modules registered, and those whose acknowledgement of an
invalidation is outstanding, and the answers to stores of other modules that wait for them. -/
structure PageHold where
  ctx : Nat
  va : Nat
  mods : List Nat
  waits : List Nat
  acks : List Packet
  deriving DecidableEq, Repr

/-- A replica that this module holds (R349): the owner and the owner's frame. -/
structure Replica where
  ctx : Nat
  va : Nat
  owner : Nat
  frame : Nat
  deriving DecidableEq, Repr

/-- A lent page at the lender (R350): the borrower module, the deadline (pod time) once revoked, whether it holds a trace ring of
the borrower (R351), whether the deadline has passed. -/
structure Lease where
  ctx : Nat
  va : Nat
  frame : Nat
  size : Nat
  borrower : Option Nat
  deadline : Option Nat
  ring : Bool
  passed : Bool
  deriving DecidableEq, Repr

/-- A borrowed page at the borrower (R350): the lender's frame, the deadline once revoked, whether it has passed. -/
structure Borrowed where
  ctx : Nat
  va : Nat
  frame : Nat
  deadline : Option Nat
  lost : Bool
  deriving DecidableEq, Repr

/-- A frame that a page has left lately (R250): accesses in flight to it are completed at the page. -/
structure Moved where
  frame : Nat
  size : Nat
  ctx : Nat
  va : Nat
  since : Nat
  deriving DecidableEq, Repr

/-- An XSWAP in progress (R233), until C has seen it done. -/
structure Swap where
  core : Nat
  ctx : Nat
  va : Nat
  vb : Nat
  done : Bool
  deriving DecidableEq, Repr

/-! ## Links -/

/-- The states of a port (R321). -/
inductive PortSt where
  | down | training | up | degraded | fenced
  deriving DecidableEq, Repr

/-- A Virip or Ethernet port (R321, R324, R331): link sequence numbers, the replay store (sequence number, flit), the flits
of a packet not yet whole, counters, the pod times of recent entries to TRAINING, of the present state, of PORTFENCE, the replays of the
oldest flit without an acknowledgement, whether this end asks for a replay. -/
structure Port where
  num : Nat
  st : PortSt
  lanes : Nat
  txSeq : Nat
  rxSeq : Nat
  replay : List (Nat × BitVec 512)
  partialFlits : List (BitVec 512)
  replayed : BitVec 32
  discarded : BitVec 32
  packetsBad : BitVec 32
  trainings : BitVec 32
  trainTimes : List Nat
  since : Nat
  fencing : Option Nat
  tries : Nat
  asking : Bool
  deriving DecidableEq, Repr

/-- A line that an agent has read from another module: the physical address and the bytes. -/
structure Line where
  agent : Agent
  pa : Nat
  data : List Byte
  deriving DecidableEq, Repr

/-- What a forwarded access returns to (R326): an in-flight result of a core's C, an agent, or nothing; `va` is its virtual
address, `moved` one whose line has been given another route since it was sent, `unsent` one that waits for earlier accesses to its
line (R325), `shown` the bytes of held writes that a load must show, by their place in what it reads (R250). -/
structure Fwd where
  tag : Nat
  pkt : Packet
  va : Nat
  line : Nat
  first : Nat
  sent : Nat
  moved : Bool
  unsent : Bool
  shown : List (Nat × Byte)
  core : Option Nat
  reg : Option Reg
  size : Nat
  signed : Bool
  agent : Option Agent
  deriving DecidableEq, Repr

/-- A home's record of an access (R326): its answer, none while the access is held. -/
structure HomeRec where
  smod : Nat
  tag : Nat
  answer : Option Packet
  at_ : Nat
  deriving DecidableEq, Repr

/-- The states of a queue pair that is not CLOSED (R329). -/
inductive QpSt where
  | closed | connecting | connected | closing
  deriving DecidableEq, Repr

/-- Bytes of a firing that a barrier has yet to count (R315, R253): barrier, cluster key, joins of an episode, bytes. -/
structure Owed where
  bar : Nat
  key : Nat
  goal : Nat
  bytes : Nat
  deriving DecidableEq, Repr

/-- What a packet of a firing has written and what barriers count of it once it is performed (R253, R257, R315): the numbers of the
accesses that write it, the own DUPLICATED pages (context, base) whose replicas must have gone, the bytes. -/
structure FirePart where
  tags : List Nat
  pages : List (Nat × Nat)
  owed : List Owed
  deriving DecidableEq, Repr

/-- A target's record of a firing (R330): the packet that it first saw, the OFFSETs applied, their bytes, the status sent in the
FACK (0 before it) and its reason, the core whose storage it writes, its packets that are not performed, its expiry. -/
structure FireRec where
  slot : Nat
  firing : Nat
  first : Packet
  offsets : List Nat
  bytes : Nat
  status : Nat
  reason : Nat
  core : Option Nat
  parts : List FirePart
  expiry : Option Nat
  deriving DecidableEq, Repr

/-- A queue pair (R327 to R333), with what stands for it in the transport store of an Ethernet port: PSN, port, packet. -/
structure QPair where
  num : Nat
  st : QpSt
  ctx : Nat
  port : Nat
  rqp : Nat
  rmod : Nat
  eth : Bool
  rctx : Nat
  dscp : Nat
  udpp : Nat
  ip : BitVec 128
  losses : BitVec 32
  applied : BitVec 64
  completed : BitVec 64
  recs : List FireRec
  psn : Nat
  rxPsn : Nat
  store : List (Nat × Nat × Packet)
  resends : Nat
  resentAt : Nat
  lastConnect : Nat
  deriving DecidableEq, Repr

/-- Pod time and its discipline (R334, R335): the counter, the role, whether it was ever synced, the last sync, holdover, a
slew in progress as the ns still to gain or lose, the ns since its last unit of correction, when TIME packets were last sent,
the newest time relayed, whether the host knows of a slew (R335). -/
structure PodTime where
  now : Nat
  role : Nat
  synced : Bool
  lastSync : Nat
  holdover : Bool
  slew : Int
  frac : Nat
  sent : Nat
  relayed : Nat
  alert : Bool
  deriving DecidableEq, Repr

/-! ## Counters -/

/-- A package counter (R196): its value, and for R365 the runs of changes by one setter, oldest first, each with the value that
it reached and the setter's code. -/
structure Counter where
  val : BitVec 64
  runs : List (BitVec 64 × Nat)
  deriving DecidableEq, Repr

/-! ## Platform -/

/-- The doorbells of R352 and R369. -/
inductive Bell where
  | ctx | queue | bar | link | page
  deriving DecidableEq, Repr

/-- Fuses and boot (R371 to R374). -/
structure Boot where
  stage : Nat
  recovery : Bool
  ready : Bool
  keys : List (BitVec 512)
  revokedKeys : BitVec 4
  rollback : Nat
  measures : List (BitVec 512)
  modnum : Nat
  savepool : Nat
  imageVersion : Nat
  deriving DecidableEq, Repr

/-- Power and limits (R376, R377). -/
structure Power where
  pcap : Nat
  throttling : Bool
  tripped : Bool
  deriving DecidableEq, Repr

/-- Error counters and log (R379): corrected and uncorrectable of HBM, SRAM, registers, SerDes; the log, oldest first. -/
structure Errors where
  corrected : List (BitVec 32)
  uncorrected : List (BitVec 32)
  log : List (Nat × Nat × Nat)
  envEcc : List (Nat × Nat)
  deriving DecidableEq, Repr

/-- The host's side (R369, R370): event-ring base and size, answers to SPDM and management requests, oldest first. -/
structure HostSide where
  evtbase : Nat
  evtlog : Nat
  spdm : List (List Byte)
  mgmt : List (List Byte)
  debugger : Bool
  deriving DecidableEq, Repr

/-- A routine combination of a firing with an element of another module (R201): the routine and the contribution, what it gives with
the value that this module believes the element to hold, the firing at its target. -/
structure Combine where
  rout : Routine
  v : Nat
  new : Nat
  qp : Nat
  slot : Nat
  firing : Nat
  deriving DecidableEq, Repr

/-- What this module does indivisibly to one location of another module: the atomics of a closed interval in their order (R175), or a
routine combination (R201). Its number, the location, the value that this module believes it to hold, none before it has been told. -/
structure Closing where
  tag : Nat
  ctx : Nat
  va : Nat
  bits : Nat
  guess : Option Nat
  atomics : List PendAtomic
  combine : Option Combine
  deriving DecidableEq, Repr

/-- Memories (R8, R368), the atomics that their homes keep until their interval closes, those of closed intervals whose location is in
another module (R175), and the sync objects whose home is this module (R165). -/
structure Memories where
  hbm : Memory
  host : Memory
  atomics : List PendAtomic
  closing : List Closing
  objs : List SyncObj
  deriving DecidableEq, Repr

/-- A save area (R304) and the group that owns it: what its sections were written from, the group as it stood, none before the first
write. `bytes` of the area are a function of these. -/
structure SaveArea where
  num : Nat
  launch : Nat
  index : Nat
  control : Option Group
  records : Option Group
  mesh : Option Group
  body : Option Group
  deriving DecidableEq, Repr

/-- The front end (R270, R284, R294): doorbells rung, queues that are not DISABLED, launches, calendar, round pointer, the cores
that a RESIDENT launch has reserved (R293) as (core, launch), the save areas in use (R304). -/
structure FrontEnd where
  bells : List (Bell × Nat)
  queues : List (Nat × HQueue)
  launches : List Launch
  nextLaunch : Nat
  calendar : List CalEntry
  round : Nat
  reserved : List (Nat × Nat)
  areas : List SaveArea
  deriving DecidableEq, Repr

/-- Page machinery (R345 to R350); `sealedPages` are the SEALED pages whose frame lies in this module (R163), `sealings` what SEAL
and UNSEAL wait for. -/
structure Pages where
  ops : List PageOp
  held : List HeldWrite
  pinnedHold : List HeldPage
  holds : List PageHold
  replicas : List Replica
  leases : List Lease
  borrowed : List Borrowed
  moved : List Moved
  swaps : List Swap
  sealedPages : List HeldPage
  sealings : List Sealing
  deriving DecidableEq, Repr

/-- The way of a packet: by the route table or over the second tier, both with the line that picks the port (R325, R10), or to the
far end of a queue pair (R327). -/
inductive Way where
  | route (line : Nat)
  | tier (line : Nat)
  | pair (qp : Nat)
  deriving DecidableEq, Repr

/-- A store or an atomic that its home in another module has performed and whose invalidations are not all acknowledged (R251): its
number, home and line, its core or agent. -/
structure Settling where
  tag : Nat
  home : Nat
  line : Nat
  core : Option Nat
  agent : Option Agent
  deriving DecidableEq, Repr

/-- Links (R321 to R333); `unsent` holds packets that no port takes yet (R324), `settling` stores of R251, `asks`
what groups want of sync objects elsewhere (R165), `gone` the lines that an agent has counted as gone (R181, R207), `waiting` packets of firings whose target is pre-empted (R303) or whose lines come from another
module. -/
structure Links where
  waiting : List Packet
  unsent : List (Way × Packet)
  settling : List Settling
  asks : List SyncAsk
  gone : List (Agent × Nat)
  ports : List Port
  routes : List (Nat × BitVec 24)
  fwds : List Fwd
  lines : List Line
  nextTag : Nat
  homes : List HomeRec
  fwdLoss : BitVec 32
  qps : List QPair
  deriving DecidableEq, Repr

end Sys2Proof.Machine
end

