-- ==== Sys2Proof/Machine/State.lean ====
section
/-! DEFINITION. The state of one LQ4 module (01_device.md), the reasons a step stops, and the state after reset. -/

namespace Sys2Proof.Machine

/-- One move of an agent: an item of an engine of the group on a core, an event row with the group of a core in focus,
or pod time passing (log entry 3). -/
inductive Move where
  | engine (core : Nat) (e : Engine)
  | event (core : Nat) (i : Instr)
  | time (ns : Nat)
  deriving DecidableEq, Repr

/-- Whose turn it is when the agenda is empty: an engine of the group in focus, or its asynchronous agents. -/
inductive Turn where
  | engine (e : Engine)
  | async
  deriving DecidableEq, Repr

/-- The module. `me` is the group in focus and `rest` the other placed groups; `ctrs` holds the counters that have
been changed by rising number; `ctxs` the contexts that are not FREE. `turn` and `agenda` say which agent moves next (log entry 3);
`free` counts the free values used (log entry 10); both are the model's own. -/
structure State where
  me : Group
  rest : List Group
  mem : Memories
  ctrs : List (Nat × Counter)
  ctxs : List (Nat × Context)
  fe : FrontEnd
  pages : Pages
  links : Links
  time : PodTime
  part : Part
  boot : Boot
  power : Power
  errors : Errors
  host : HostSide
  turn : Turn
  agenda : List Move
  free : Nat
  deriving DecidableEq, Repr

/-- Why the machine stops with a fault. -/
inductive Fault where
  /-- Raised by an access to a physical address that does not exist on the part (01_device R13, 26_platform R380): an absent
  stack or an address above its end. Safe: the manual gives no access there. Log entry 13. -/
  | noSuchAddress (pa : Nat)
  deriving DecidableEq, Repr

/-- Why a step is refused. -/
inductive Refusal where
  /-- Raised by Dispatch for an instruction without a meaning; no arm of this model answers it. Safe. -/
  | notModelled (mnemonic : String)
  deriving DecidableEq, Repr

/-- R5, R13: the Virip ports present. -/
def Part.virip : Part → List Nat
  | .lq128 => List.range 24
  | .lq96 => (List.range 24).filter fun p => p % 6 < 3

/-- R13: the Ethernet ports present, numbered 32 to 35 as in R328. -/
def Part.ethernet : Part → List Nat
  | .lq128 => [32, 33, 34, 35]
  | .lq96 => []

/-- A port in the state TRAINING that R321 gives it when reset ends, which is its first entry there. Log entry 54. -/
def Port.atReset (n : Nat) : Port :=
  { num := n, st := .training, lanes := 0, txSeq := 0, rxSeq := 0, replay := [], partialFlits := [], replayed := 0,
    discarded := 0, packetsBad := 0, trainings := 0, trainTimes := [0], since := 0, fencing := none, tries := 0, asking := false }

/-- The module right after reset, on the LQ4-128 (log entry 11): boot at the mask ROM (R371), READY clear (R369), no context
(R260), every queue DISABLED (R281), counters zero (R196), ports training (R321), pod time 0 (R335), memory with nothing
listed (log entry 2), the cores' registers as placement leaves them (log entry 1), the rest zero (log entry 12). -/
def State.reset : State :=
  { me := Group.blank 0
    rest := []
    mem := ⟨[], [], [], [], []⟩
    ctrs := []
    ctxs := []
    fe := { bells := [], queues := [], launches := [], nextLaunch := 0, calendar := [], round := 0, reserved := [], areas := [] }
    pages := ⟨[], [], [], [], [], [], [], [], [], [], []⟩
    links :=
      { waiting := [], unsent := [], settling := [], asks := [], gone := []
        ports := (Part.lq128.virip ++ Part.lq128.ethernet).map Port.atReset, routes := [], fwds := [], lines := [], nextTag := 0,
        homes := [], fwdLoss := 0, qps := [] }
    time := { now := 0, role := 0, synced := false, lastSync := 0, holdover := false, slew := 0, frac := 0, sent := 0, relayed := 0, alert := false }
    part := .lq128
    boot :=
      { stage := 0, recovery := false, ready := false, keys := List.replicate 4 0, revokedKeys := 0, rollback := 0,
        measures := [], modnum := 0, savepool := 0, imageVersion := 0 }
    power := { pcap := 0, throttling := false, tripped := false }
    errors := { corrected := List.replicate 4 0, uncorrected := List.replicate 4 0, log := [], envEcc := [] }
    host := { evtbase := 0, evtlog := 0, spdm := [], mgmt := [], debugger := false }
    turn := .engine .c
    agenda := []
    free := 0 }

end Sys2Proof.Machine
end

