-- ==== Sys2Proof/Machine/Memory.lean ====
section
/-! DEFINITION. Memory operations: bytes at addresses, little-endian values (01_device R15), in the canonical form of
`Memory.wf`. -/

namespace Sys2Proof.Machine

/-- The byte at an address; an unlisted address reads as 0 (log entry 2). -/
def memGet (m : Memory) (a : Nat) : Byte :=
  match m with
  | [] => 0
  | c :: r => if c.1 = a then c.2 else memGet r a

/-- The cells of some bytes from an address on, zeros left out. -/
def memCells (a : Nat) : List Byte → Memory
  | [] => []
  | b :: r => if b = 0 then memCells (a + 1) r else (a, b) :: memCells (a + 1) r

/-- Write bytes from an address on, keeping the canonical form. -/
def memPut (m : Memory) (a : Nat) (bs : List Byte) : Memory :=
  m.filter (fun c => c.1 < a) ++ memCells a bs ++ m.filter (fun c => a + bs.length ≤ c.1)

/-- Zero a range. -/
def memZero (m : Memory) (a n : Nat) : Memory := m.filter fun c => c.1 < a || a + n ≤ c.1

/-- `n` bytes from an address on. -/
def memBytes (m : Memory) (a n : Nat) : List Byte := (List.range n).map fun i => memGet m (a + i)

/-- A little-endian value of some bytes. -/
def leVal : List Byte → Nat
  | [] => 0
  | b :: r => b.toNat + 2 ^ 8 * leVal r

/-- The `n` little-endian bytes of a value. -/
def leBytes : Nat → Nat → List Byte
  | 0, _ => []
  | n + 1, v => BitVec.ofNat 8 v :: leBytes n (v / 2 ^ 8)

/-- A little-endian value of `n` bytes in memory. -/
def memVal (m : Memory) (a n : Nat) : Nat := leVal (memBytes m a n)

/-- Write a little-endian value of `n` bytes. -/
def memPutVal (m : Memory) (a n v : Nat) : Memory := memPut m a (leBytes n v)

/-- A 64-bit word of a memory that counts words (the accumulator store, 02_numbers R32). -/
def wordGet (m : Memory) (w : Nat) : BitVec 64 := BitVec.ofNat 64 (memVal m (8 * w) 8)

/-- Write such a word. -/
def wordPut (m : Memory) (w : Nat) (v : BitVec 64) : Memory := memPutVal m (8 * w) 8 v.toNat

/-- A field of a record held as bytes: `n` bytes at an offset. -/
def recField (r : List Byte) (off n : Nat) : Nat := leVal ((r.drop off).take n)

/-- Bits [lo + n - 1 : lo] of a number. -/
def bitsOf (v lo n : Nat) : Nat := v / 2 ^ lo % 2 ^ n

/-- Whether the bytes of a record from an offset on are zero. -/
def recZero (r : List Byte) (off n : Nat) : Bool := ((r.drop off).take n).all (· == 0)

/-! ## Association lists by rising number -/

/-- Look a number up. -/
def assocGet {α : Type} (l : List (Nat × α)) (k : Nat) : Option α :=
  match l with
  | [] => none
  | p :: r => if p.1 = k then some p.2 else assocGet r k

/-- Drop a number. -/
def assocDrop {α : Type} (l : List (Nat × α)) (k : Nat) : List (Nat × α) := l.filter fun p => p.1 ≠ k

/-- Set a number. -/
def assocSet {α : Type} (l : List (Nat × α)) (k : Nat) (v : α) : List (Nat × α) :=
  (l.filter fun p => p.1 < k) ++ (k, v) :: l.filter fun p => k < p.1

/-- Change the item of a number, where there is one. -/
def assocMap {α : Type} (l : List (Nat × α)) (k : Nat) (f : α → α) : List (Nat × α) :=
  l.map fun p => if p.1 = k then (p.1, f p.2) else p

/-- Replace an element of a list. -/
def listSet {α : Type} (l : List α) (i : Nat) (f : α → α) : List α :=
  match l, i with
  | [], _ => []
  | a :: r, 0 => f a :: r
  | a :: r, n + 1 => a :: listSet r n f

end Sys2Proof.Machine
end

