-- ==== Sys2Proof/Machine/Base.lean ====
section
/-! DEFINITION. Accessors of a group: engines, registers with s0 hard-wired (05_control R77), results in flight and their
landing (R47, R78, R236), queues (R91), streams, flags, and the groups of a cluster. -/

namespace Sys2Proof.Machine

/-! ## Engines -/

/-- R6: the tag of an engine. -/
def Engine.tag : Engine → Nat
  | .c => 0
  | .l => 1
  | .v => 2
  | .m => 3
  | .s => 4

/-- The engine of a tag. -/
def engineOfTag (n : Nat) : Option Engine :=
  match n with
  | 0 => some .c
  | 1 => some .l
  | 2 => some .v
  | 3 => some .m
  | 4 => some .s
  | _ => none

/-- R60: the engine mask bit, [4] for C down to [0] for S. -/
def Engine.bit (e : Engine) : BitVec 5 := BitVec.ofNat 5 (2 ^ (4 - e.tag))

/-- Whether a mask names an engine. -/
def inMask (m : BitVec 5) (e : Engine) : Bool := m &&& e.bit != 0

/-- All engines, C first. -/
def allEngines : List Engine := [.c, .l, .v, .m, .s]

def Engines.get (g : Engines) : Engine → EngineState
  | .c => g.c
  | .l => g.l
  | .v => g.v
  | .m => g.m
  | .s => g.s

def Engines.set (g : Engines) (e : Engine) (x : EngineState) : Engines :=
  match e with
  | .c => { g with c := x }
  | .l => { g with l := x }
  | .v => { g with v := x }
  | .m => { g with m := x }
  | .s => { g with s := x }

def Group.engine (g : Group) (e : Engine) : EngineState := g.eng.get e

def Group.setEngine (g : Group) (e : Engine) (x : EngineState) : Group := { g with eng := g.eng.set e x }

def Group.mapEngine (g : Group) (e : Engine) (f : EngineState → EngineState) : Group := g.setEngine e (f (g.engine e))

/-- The state with its group in focus changed. -/
def State.onMe (s : State) (f : Group → Group) : State := { s with me := f s.me }

/-- An engine of the group in focus. -/
def State.eng (s : State) (e : Engine) : EngineState := s.me.engine e

/-- Change an engine of the group in focus. -/
def State.onEng (s : State) (e : Engine) (f : EngineState → EngineState) : State := s.onMe (·.mapEngine e f)

/-! ## Registers -/

/-- R77: s0 reads as zero. -/
def Group.sreg (g : Group) (n : BitVec 5) : BitVec 64 := if n = 0 then 0 else g.cr.s[n.toNat]

def Group.preg (g : Group) (n : BitVec 3) : Bool := g.cr.p.getLsbD n.toNat

def Group.hreg (g : Group) (n : BitVec 4) : Handle := g.cr.h[n.toNat]

def Group.ereg (g : Group) (n : BitVec 3) : BitVec 64 := g.cr.e[n.toNat]

def Group.vreg (g : Group) (n : BitVec 5) : VReg := g.vr.v[n.toNat]

def Group.mreg (g : Group) (n : BitVec 3) : BitVec 128 := g.vr.m[n.toNat]

/-- The value of a register. -/
def Group.regVal (g : Group) : Reg → Val
  | .s n => .word (g.sreg n)
  | .p n => .bit (g.preg n)
  | .v n => .vec (g.vreg n)
  | .h n => .handle (g.hreg n)
  | .e n => .word (g.ereg n)
  | .m n => .mask (g.mreg n)

/-- One bit of a predicate file set to a value. -/
def setBit8 (p : BitVec 8) (n : Nat) (b : Bool) : BitVec 8 :=
  if b then p ||| BitVec.ofNat 8 (2 ^ n) else p &&& ~~~(BitVec.ofNat 8 (2 ^ n))

/-- The one operation that writes a register; a write to s0 is discarded (R77). -/
def Group.setReg (g : Group) (r : Reg) (v : Val) : Group :=
  match r, v with
  | .s n, .word w => if n = 0 then g else { g with cr := { g.cr with s := g.cr.s.set n.toNat w } }
  | .p n, .bit b => { g with cr := { g.cr with p := setBit8 g.cr.p n.toNat b } }
  | .v n, .vec x => { g with vr := { g.vr with v := g.vr.v.set n.toNat x } }
  | .h n, .handle h => { g with cr := { g.cr with h := g.cr.h.set n.toNat h } }
  | .e n, .word w => { g with cr := { g.cr with e := g.cr.e.set n.toNat w } }
  | .m n, .mask x => { g with vr := { g.vr with m := g.vr.m.set n.toNat x } }
  | _, _ => g

/-! ## Results in flight -/

/-- A result has landed at cycle `t`: its cycle has come and its data has arrived (R47, R160). -/
def InFlight.landed (f : InFlight) (t : Nat) : Bool := f.arrived && decide (f.land ≤ t)

/-- A result is late at cycle `t`: promised and absent (R237). -/
def InFlight.isLate (f : InFlight) (t : Nat) : Bool := !f.arrived && decide (f.land ≤ t)

/-- Land a list of results in order of their landing cycles; the later-issued one of a cycle stays (R78). -/
def landAll (g : Group) : List InFlight → Group
  | [] => g
  | f :: r => landAll (g.setReg f.reg f.val) r

/-- Insert a result behind those that land no later. -/
def insertLand (f : InFlight) : List InFlight → List InFlight
  | [] => [f]
  | x :: r => if x.land ≤ f.land then x :: insertLand f r else f :: x :: r

/-- Engine `e` reaches counted cycle `t`: landed results go to their registers. -/
def Group.landTo (g : Group) (e : Engine) (t : Nat) : Group :=
  let x := g.engine e
  (landAll g ((x.flight.filter (·.landed t)).foldl (fun acc f => insertLand f acc) [])).setEngine e
    { x with flight := x.flight.filter fun f => !f.landed t }

/-- Whether a register is in the handler bank (R211). -/
def Reg.isBanked : Reg → Bool
  | .s n => decide (28 ≤ n.toNat)
  | .p n => n == 7
  | .h n => n == 15
  | _ => false

/-- Put a result in flight. A later-issued write discards a variable-latency result for the same register that has not
landed (R160), and a write by a handler item is noted (R238). -/
def Group.fly (g : Group) (e : Engine) (f : InFlight) : Group :=
  let g1 := g.mapEngine e fun x =>
    { x with flight := (x.flight.filter fun o => !(o.reg == f.reg && o.late)) ++ [f] }
  if g.phase = .handler ∧ e = .c ∧ !f.reg.isBanked then
    { g1 with hand := { g1.hand with written := f.reg :: g1.hand.written } }
  else g1

/-- A fixed-latency result: register, value, landing cycle (R47). -/
def fixedFlight (r : Reg) (v : Val) (land : Nat) : InFlight :=
  { reg := r, val := v, land := land, arrived := true, late := false, buf := none, req := none, interval := none }

/-- A variable-latency result whose data has not arrived (R160). -/
def lateFlight (r : Reg) (v : Val) (land : Nat) (buf : Option (BitVec 8)) (req interval : Option Nat) : InFlight :=
  { reg := r, val := v, land := land, arrived := false, late := true, buf := buf, req := req, interval := interval }

/-- Write a result with a fixed latency from an item that issues at `t`. -/
def State.result (s : State) (e : Engine) (r : Reg) (v : Val) (t lat : Nat) : State :=
  s.onMe (·.fly e (fixedFlight r v (t + lat)))

/-! ## Flags, queues, streams -/

def Group.flag (g : Group) (n : Nat) : Bool := g.work.flags.getLsbD n

/-- Set a flag with its setter (R177, R178). -/
def Group.setFlag (g : Group) (n setter : Nat) : Group :=
  { g with work := { g.work with
      flags := g.work.flags ||| BitVec.ofNat 256 (2 ^ n)
      setters := g.work.setters.setIfInBounds n (BitVec.ofNat 3 setter) } }

def Group.clrFlag (g : Group) (n : Nat) : Group :=
  { g with work := { g.work with flags := g.work.flags &&& ~~~(BitVec.ofNat 256 (2 ^ n)) } }

def Group.queue (g : Group) (n : BitVec 4) : Queue := g.queues[n.toNat]

def Group.setQueue (g : Group) (n : BitVec 4) (q : Queue) : Group := { g with queues := g.queues.set n.toNat q }

def Group.stream (g : Group) (n : BitVec 4) : Stream := g.streams[n.toNat]

def Group.setStream (g : Group) (n : BitVec 4) (z : Stream) : Group := { g with streams := g.streams.set n.toNat z }

/-! ## Privilege, mode, groups -/

/-- R271: NIVOSE and SYSPRIV of CTXINFO. -/
def Group.nivose (g : Group) : Bool := g.sys.ctxinfo.getLsbD 8
def Group.syspriv (g : Group) : Bool := g.sys.ctxinfo.getLsbD 9

/-- R219: the fields of CORECTL. -/
def Group.latm (g : Group) : Bool := g.sys.corectl.getLsbD 0
def Group.pendOn (g : Group) : Bool := g.sys.corectl.getLsbD 1

/-- The number of a group's cluster (R291). -/
def Ident.cluster (i : Ident) : Nat := i.index / i.csize

/-- Whether two groups are members of one cluster. -/
def sameCluster (a b : Ident) : Bool := a.launch == b.launch && a.cluster == b.cluster

/-- A group is placed on its core. -/
def Phase.isPlaced : Phase → Bool
  | .unplaced => false
  | .retired => false
  | _ => true

/-- All groups, the one in focus first. -/
def State.groups (s : State) : List Group := s.me :: s.rest

/-- Change every group. -/
def State.mapGroups (s : State) (f : Group → Group) : State := { s with me := f s.me, rest := s.rest.map f }

/-- The placed group on a core. -/
def State.groupOn (s : State) (core : Nat) : Option Group :=
  s.groups.find? fun g => g.ident.core == core && g.phase.isPlaced

/-- Change the placed group on a core. -/
def State.onCore (s : State) (core : Nat) (f : Group → Group) : State :=
  s.mapGroups fun g => if g.ident.core == core && g.phase.isPlaced then f g else g

/-- The member of the focus group's cluster with a rank (R154). -/
def State.member (s : State) (rank : Nat) : Option Group :=
  s.groups.find? fun g => sameCluster g.ident s.me.ident && g.ident.rank == rank && g.phase.isPlaced

/-- Bring the group on a core into focus. -/
def State.focus (s : State) (core : Nat) : State :=
  if s.me.ident.core == core then s
  else match s.rest.find? (fun g => g.ident.core == core) with
    | none => s
    | some g => { s with me := g, rest := s.rest.filter (fun x => x.ident.core != core) ++ [s.me] }

/-! ## Accesses that are not performed -/

/-- R175: the atomics that are not resolved: of open intervals, and of closed ones whose location is in another module. -/
def State.intervalAtomics (s : State) : List PendAtomic := s.mem.atomics ++ s.mem.closing.flatMap (·.atomics)

/-- R241: an access is open until it is performed: forwarded and not answered (R326), a held write (R250), an atomic of an
interval (R175) that is not resolved. -/
def State.isOpen (s : State) (tag : Nat) : Bool :=
  s.links.fwds.any (fun f => f.tag == tag) || s.pages.held.any (fun w => w.tag == tag) || s.intervalAtomics.any (fun a => a.tag == tag)

/-- The open accesses of C on a core. -/
def State.openOf (s : State) (core : Nat) : List Nat :=
  ((s.links.fwds.filter fun f => f.core == some core).map (·.tag)) ++
  ((s.pages.held.filter fun w => w.core == some core).map (·.tag)) ++
  ((s.intervalAtomics.filter fun a => a.core == core).map (·.tag))

/-- R241: what a token that engine `e` pushes covers and that is not performed yet; only C has such accesses. -/
def State.coveredBy (s : State) (e : Engine) : List Nat := if e = .c then s.openOf s.me.ident.core else []

/-- R241: everything that a token covers is performed. -/
def State.allDone (s : State) (l : List Nat) : Bool := l.all fun t => !s.isOpen t

/-- A new number for a forwarded access, a held write or an atomic of an interval (R326). -/
def State.newTag (s : State) : Nat × State :=
  (s.links.nextTag, { s with links := { s.links with nextTag := (s.links.nextTag + 1) % 2 ^ 32 } })

/-! ## Time -/

/-- Cycles of the arithmetic clock in `ns` of pod time: RNE(ns * 0.94) (R229; log entry 9). -/
def cyclesOfNs (ns : Nat) : Nat := rndDiv .rne false (ns * 94) 100

/-- R230 source 4: cycles since the group started, stops left out. -/
def State.groupCycles (s : State) : Nat := cyclesOfNs (s.time.now - s.me.time.start - s.me.time.paused)

/-- R230 source 0: the core's cycle counter (R229). -/
def State.cycleCounter (s : State) : BitVec 64 :=
  BitVec.ofNat 64 (s.me.time.cycBase + cyclesOfNs (s.time.now - s.me.time.cycAt))

/-- A free value (log entry 10). -/
def State.fresh (s : State) : BitVec 64 × State := (Config.freeBits s.free, { s with free := s.free + 1 })

end Sys2Proof.Machine
end

