-- ==== Sys2Proof/Machine/Phys.lean ====
section
/-! DEFINITION. The module's memories and what the front end keeps: capability registers (01_device R13, R14), HBM and host
memory (R8, 26_platform R368), host events (R370), counters (09 R196), contexts and regions (13 R261 to R265), packets and
ports (21_link R322 to R325). -/

namespace Sys2Proof.Machine

/-! ## Part -/

/-- R13. -/
def Part.caps0 : Part → BitVec 64
  | .lq128 => 0x011FFFFFFFFF1000
  | .lq96 => 0x0100771C71C71000

/-- R14. -/
def Part.caps1 : Part → BitVec 64
  | .lq128 => 0x0000404000FFFF00
  | .lq96 => 0x00004040003FFF00

/-- R13: the lease agent. -/
def Part.lease : Part → Bool
  | .lq128 => true
  | .lq96 => false

/-- R11: a present core. -/
def Part.hasCore (p : Part) (core : Nat) : Bool :=
  decide (core < 128) && (match p with | .lq128 => true | .lq96 => decide (core % 8 < 6))

/-- R13: a present HBM stack. Log entry 19. -/
def Part.hasStack (p : Part) (k : Nat) : Bool :=
  decide (k < 8) && (match p with | .lq128 => true | .lq96 => k % 4 != 3)

/-- R376, R377: the module power in watts. -/
def Part.watts : Part → Nat
  | .lq128 => 3000
  | .lq96 => 2250

/-- The present cores in ascending order. -/
def Part.cores (p : Part) : List Nat := (List.range 128).filter p.hasCore

/-! ## Physical memory -/

/-- R8: the module and local part of a physical address. -/
def paModule (pa : Nat) : Nat := pa / 2 ^ 42 % 2 ^ 10
def paLocal (pa : Nat) : Nat := pa % 2 ^ 42

/-- R5: local addresses of present stacks of 64 GiB. The manual does not lay the stacks out in the local address: the model takes
stack k at k * 2^36 (log entry 19). Log entry 13. -/
def hbmPresent (p : Part) (la n : Nat) : Bool :=
  p.hasStack (la / 2 ^ 36) && p.hasStack ((la + n - 1) / 2 ^ 36)

/-- R369: the doorbell frame. Log entry 19. -/
def bellBase : Nat := 0x3FFFFFF0000

/-- DEVSTAT (R369). -/
def State.devstat (s : State) : Nat :=
  (if s.boot.ready then 1 else 0) + (if s.boot.recovery then 2 else 0) + 2 ^ 8 * s.boot.stage

/-- The readable registers of BAR0 as bytes (R369). -/
def State.barBytes (s : State) (off n : Nat) : List Byte :=
  let m := memPutVal (memPutVal (memPutVal (memPutVal (memPutVal (memPutVal [] 0x100 8 s.devstat) 0x108 8 s.host.evtbase)
    0x110 4 s.host.evtlog) 0x200 8 s.part.caps0.toNat) 0x208 8 s.part.caps1.toNat) 0x300 4 s.power.pcap
  memBytes m off n

/-- Bytes of this module's memory at a local address. -/
def State.hbmBytes (s : State) (la n : Nat) : List Byte :=
  if bellBase ≤ la ∧ la < bellBase + 2 ^ 16 then s.barBytes (la - bellBase) n else memBytes s.mem.hbm la n

def State.hbmVal (s : State) (la n : Nat) : Nat := leVal (s.hbmBytes la n)

/-- Write bytes at a local address. -/
def State.hbmPut (s : State) (la : Nat) (bs : List Byte) : State :=
  { s with mem := { s.mem with hbm := memPut s.mem.hbm la bs } }

def State.hbmPutVal (s : State) (la n v : Nat) : State := s.hbmPut la (leBytes n v)

def State.hostBytes (s : State) (a n : Nat) : List Byte := memBytes s.mem.host a n

def State.hostPut (s : State) (a : Nat) (bs : List Byte) : State :=
  { s with mem := { s.mem with host := memPut s.mem.host a bs } }

/-- R370: one host event. Nothing is written before EVTBASE and EVTLOG name a ring, nor in RECOVERY (R372). -/
def State.event (s : State) (cls ctx code data : Nat) : State :=
  if s.host.evtlog < 8 ∨ s.boot.recovery then s
  else
    let b := s.host.evtbase
    let wr := leVal (s.hostBytes b 8)
    let rd := leVal (s.hostBytes (b + 8) 8)
    if 2 ^ s.host.evtlog ≤ (wr + 2 ^ 64 - rd) % 2 ^ 64 then
      s.hostPut (b + 16) (leBytes 8 (leVal (s.hostBytes (b + 16) 8) + 1))
    else
      (s.hostPut (b + 64 + 16 * (wr % 2 ^ s.host.evtlog))
        (leBytes 1 cls ++ leBytes 1 ctx ++ leBytes 2 code ++ leBytes 4 0 ++ leBytes 8 data)).hostPut b (leBytes 8 (wr + 1))

/-! ## Counters -/

def State.ctr (s : State) (n : Nat) : BitVec 64 :=
  match assocGet s.ctrs n with
  | none => 0
  | some c => c.val

/-- R365: the runs after a change to `v`; a run of one setter is kept as one. Log entry 52. -/
def addRun (v : BitVec 64) (by_ : Nat) : List (BitVec 64 × Nat) → List (BitVec 64 × Nat)
  | [] => [(v, by_)]
  | [r] => if r.2 = by_ ∧ r.1 ≤ v then [(v, by_)] else [r, (v, by_)]
  | r :: l => r :: addRun v by_ l

/-- R198: an ARMED slot whose trigger counter `n` has come to `v` is FIRING from then on. -/
def WSlot.trigger (n : Nat) (v : BitVec 64) (x : WSlot) : WSlot :=
  if x.st = .armed ∧ x.entry.trig = some n ∧ x.thr ≤ v then { x with st := .firing } else x

/-- R268: the states of a context whose armed entries fire. -/
def CtxSt.fires : CtxSt → Bool
  | .ready => true
  | .draining => true
  | _ => false

/-- R276: a WAIT entry whose counter `n` has come to `v`. -/
def QEntry.trigger (n : Nat) (v : BitVec 64) (e : QEntry) : QEntry :=
  if e.wait.any fun w => w.1 == n && decide (w.2 ≤ v) then { e with met := true } else e

/-- R295: a launch whose trigger counter `n` has come to `v`. -/
def Launch.trigger (n : Nat) (v : BitVec 64) (l : Launch) : Launch :=
  if l.st = .trigger ∧ l.kd.trig = some n ∧ l.kd.tthresh ≤ v then { l with met := true } else l

/-- R198, R276, R295: slots, WAIT entries and launches look at a counter that has changed. Log entry 58. -/
def State.evalTriggers (s : State) (n : Nat) : State :=
  let v := s.ctr n
  { s with
    ctxs := s.ctxs.map fun c =>
      if c.2.st.fires then (c.1, { c.2 with slots := c.2.slots.map fun x => (x.1, x.2.trigger n v) }) else c
    fe :=
      { s.fe with
        queues := s.fe.queues.map fun q => (q.1, { q.2 with entries := q.2.entries.map (·.trigger n v) })
        launches := s.fe.launches.map (·.trigger n v) } }

/-- Set a counter, by a setter of R365. -/
def State.setCtr (s : State) (n : Nat) (v : BitVec 64) (by_ : Nat) : State :=
  { s with ctrs := assocSet s.ctrs n ⟨v, [(v, by_)]⟩ }.evalTriggers n

/-- R196: an indivisible add modulo 2^64, by a setter of R365. -/
def State.addCtr (s : State) (n : Nat) (v : BitVec 64) (by_ : Nat) : State :=
  let c := (assocGet s.ctrs n).getD ⟨0, []⟩
  { s with ctrs := assocSet s.ctrs n ⟨c.val + v, addRun (c.val + v) by_ c.runs⟩ }.evalTriggers n

/-- Add to a counter unless it is NONE. -/
def State.addCtrOpt (s : State) (c : Option Nat) (v : BitVec 64) (by_ : Nat) : State :=
  match c with
  | none => s
  | some n => s.addCtr n v by_

/-- R365: the setter of the change that brought a counter to a value. -/
def State.ctrSetter (s : State) (n : Nat) (v : BitVec 64) : Nat :=
  match assocGet s.ctrs n with
  | none => 0
  | some c =>
    match c.runs.find? (fun r => v ≤ r.1) with
    | none => 0
    | some r => r.2

/-! ## Contexts and regions -/

def State.ctx (s : State) (n : Nat) : Option Context := assocGet s.ctxs n

def State.onCtx (s : State) (n : Nat) (f : Context → Context) : State := { s with ctxs := assocMap s.ctxs n f }

/-- The context of the group in focus. -/
def State.myCtx (s : State) : Option Context := s.ctx s.me.ident.ctx

/-- R261: a counter granted to a context. -/
def Context.grants (c : Context) (n : Nat) : Bool :=
  decide (c.root.ctrfirst ≤ n) && decide (n < c.root.ctrfirst + c.root.ctrcount)

/-- Whether the focus group's context is granted a counter. -/
def State.granted (s : State) (n : Nat) : Bool :=
  match s.myCtx with
  | none => false
  | some c => c.grants n

def Context.ready (c : Context) : Bool := c.st == .ready

/-- The accepted RCB of a region. -/
def Context.rcb (c : Context) (rid : Nat) : Option Rcb := c.rcbs.find? fun r => r.rid == rid

/-- R264: the nodes on the path from a region to the root, the region first; at most 8. -/
def regionPath (c : Context) : Nat → Nat → List Rcb
  | 0, _ => []
  | n + 1, a =>
    match c.rcbs.find? (fun r => r.addr == a) with
    | none => []
    | some r => r :: (if r.parent = 0 then [] else regionPath c n r.parent)

def Context.path (c : Context) (rid : Nat) : List Rcb :=
  match c.rcb rid with
  | none => []
  | some r => regionPath c 8 r.addr

/-- R264: effective priority; the root's OVP counts as set (R262). -/
def Context.prio (c : Context) (rid : Nat) : Nat :=
  match (c.path rid).find? (fun r => r.ovp || r.parent == 0) with
  | none => 0
  | some r => r.prio

/-- R264: effective fault domain. -/
def Context.fdom (c : Context) (rid : Nat) : Nat :=
  match (c.path rid).find? (fun r => r.ovf || r.parent == 0) with
  | none => 0
  | some r => r.fdom

/-- R264: the budget paths. -/
def Context.corePath (c : Context) (rid : Nat) : List Rcb := (c.path rid).filter fun r => r.ovc || r.parent == 0
def Context.hbmPath (c : Context) (rid : Nat) : List Rcb := (c.path rid).filter fun r => r.ovh || r.parent == 0

/-- Change the accepted RCBs whose address is in a list. -/
def Context.onRcbs (c : Context) (addrs : List Nat) (f : Rcb → Rcb) : Context :=
  { c with rcbs := c.rcbs.map fun r => if addrs.contains r.addr then f r else r }

/-- R265: core-exhausted. -/
def Context.exhausted (c : Context) (rid : Nat) : Bool :=
  (c.corePath rid).any fun r => decide (r.cbudget ≤ r.cusedNs / 1000)

/-! ## Packets -/

/-- R322: the 64 bytes of a header flit. -/
def Packet.header (p : Packet) : List Byte :=
  leBytes 1 p.kind ++ leBytes 1 p.npay ++ leBytes 1 p.flags.toNat ++ leBytes 1 0 ++ leBytes 2 p.dmod ++ leBytes 2 p.smod ++
  leBytes 4 p.tag ++ leBytes 1 p.ctx ++ leBytes 1 p.sub.toNat ++ leBytes 2 p.len ++ leBytes 8 p.addr.toNat ++
  leBytes 8 p.mask.toNat ++ leBytes 2 p.qp ++ leBytes 2 p.slot ++ leBytes 4 p.firing ++ leBytes 4 p.offset ++
  leBytes 8 p.value.toNat ++ leBytes 2 p.rctr.toNat ++ leBytes 1 p.rout.toNat ++ leBytes 9 0

/-- The bytes of a flit. -/
def flitBytes (f : BitVec 512) : List Byte := leBytes 64 f.toNat

/-- A flit of 64 bytes. -/
def flitOf (bs : List Byte) : BitVec 512 := BitVec.ofNat 512 (leVal bs)

/-- R322: the flits of a packet; the unused tail of the last flit is zero. -/
def payloadFlits : Nat → List Byte → List (BitVec 512)
  | 0, _ => []
  | n + 1, bs => flitOf (bs.take 64) :: payloadFlits n (bs.drop 64)

def Packet.flits (p : Packet) : List (BitVec 512) := flitOf p.header :: payloadFlits p.npay p.payload

/-- R323: the payload flits that a kind allows. -/
def npayOk (kind npay : Nat) : Bool :=
  match kind with
  | 1 | 5 | 6 | 8 | 9 | 10 => npay == 0
  | 2 | 3 | 4 => npay == 1
  | 7 => decide (npay ≤ 4)
  | _ => false

/-- R322, R323: a header and payload as a packet; none for an unassigned KIND, a wrong NPAY or a reserved bit set. -/
def packetOf (hdr : BitVec 512) (payload : List Byte) : Option Packet :=
  let h := flitBytes hdr
  let f := recField h
  let reserved := f 3 1 == 0 && (f 0 1 != 4 || f 13 1 / 2 ^ 7 == 0) && f 4 2 / 2 ^ 10 == 0 && f 6 2 / 2 ^ 10 == 0 && recZero h 55 9 && f 2 1 / 8 == 0
  if reserved && npayOk (f 0 1) (f 1 1) && decide (f 14 2 ≤ 256) then
    some
      { kind := f 0 1, npay := f 1 1, flags := BitVec.ofNat 8 (f 2 1), dmod := f 4 2, smod := f 6 2, tag := f 8 4,
        ctx := f 12 1, sub := BitVec.ofNat 8 (f 13 1), len := f 14 2, addr := BitVec.ofNat 64 (f 16 8),
        mask := BitVec.ofNat 64 (f 24 8), qp := f 32 2, slot := f 34 2, firing := f 36 4, offset := f 40 4,
        value := BitVec.ofNat 64 (f 44 8), rctr := BitVec.ofNat 16 (f 52 2), rout := BitVec.ofNat 8 (f 54 1),
        payload := payload }
  else none

/-- An empty packet of a kind toward a module. -/
def mkPacket (kind npay dmod smod : Nat) : Packet :=
  { kind := kind, npay := npay, flags := 0, dmod := dmod, smod := smod, tag := 0, ctx := 0, sub := 0, len := 0, addr := 0,
    mask := 0, qp := 0, slot := 0, firing := 0, offset := 0, value := 0, rctr := 0, rout := 0, payload := [] }

/-! ## Ports -/

def Port.usable (p : Port) : Bool := p.st == .up || p.st == .degraded

def State.port (s : State) (n : Nat) : Option Port := s.links.ports.find? fun p => p.num == n

def State.onPort (s : State) (n : Nat) (f : Port → Port) : State :=
  { s with links := { s.links with ports := s.links.ports.map fun p => if p.num == n then f p else p } }

/-- A saturating 32-bit count. -/
def satAdd32 (x : BitVec 32) (n : Nat) : BitVec 32 := BitVec.ofNat 32 (min (x.toNat + n) (2 ^ 32 - 1))

/-- R325: the ports of a route entry that may carry a packet: present, UP or DEGRADED, and not reserved for the second tier
(R10). -/
def State.routePorts (s : State) (m : Nat) : List Nat :=
  let mask := (assocGet s.links.routes m).getD 0
  (s.links.ports.filter fun p => decide (p.num < 24) && p.usable && mask.getLsbD p.num &&
    !(s.part.lease && decide (4 ≤ p.num % 6))).map (·.num)

/-- R325: the port of a line, by the fixed hash. Log entry 15. -/
def State.routePort (s : State) (m line : Nat) : Option Nat :=
  let l := s.routePorts m
  l[Config.routeHash m line % l.length]?

/-- R324: put the flits of a packet into a port's replay store, while it has room for them. -/
def Port.send (p : Port) (fs : List (BitVec 512)) : Option Port :=
  if p.replay.length + fs.length ≤ 512 then
    some
      { p with
        replay := p.replay ++ (List.range fs.length).zipWith (fun i f => ((p.txSeq + i) % 4096, f)) fs
        txSeq := (p.txSeq + fs.length) % 4096 }
  else none

/-- Send a packet on a port; none where the port is not usable or its store is full. -/
def State.sendOn (s : State) (n : Nat) (pk : Packet) : Option State :=
  match s.port n with
  | none => none
  | some p =>
    if p.usable then (p.send pk.flits).map fun p' => s.onPort n fun _ => p' else none

/-- Send a packet along the route table. -/
def State.sendRoute (s : State) (pk : Packet) (line : Nat) : Option State :=
  match s.routePort pk.dmod line with
  | none => none
  | some n => s.sendOn n pk

/-- Send a request or an answer of R326 where possible; one that no port takes is sent again or asked for again. -/
def State.trySend (s : State) (pk : Packet) (line : Nat) : State := (s.sendRoute pk line).getD s

/-- R10: the ports of the second tier that may carry a packet. -/
def State.tierPorts (s : State) : List Nat :=
  (s.links.ports.filter fun p => decide (p.num < 24) && p.usable && s.part.lease && decide (4 ≤ p.num % 6)).map (·.num)

/-- R10: the port of a second-tier message, by the fixed hash (log entry 26). Log entry 15. -/
def State.tierPort (s : State) (m line : Nat) : Option Nat := s.tierPorts[Config.routeHash m line % s.tierPorts.length]?

/-- R10: a port of the second tier, which carries no load-store and no work-entry traffic. -/
def Part.isTier (p : Part) (port : Nat) : Bool := p.lease && decide (port < 24) && decide (4 ≤ port % 6)

/-! ## Queue pairs -/

def State.qp (s : State) (n : Nat) : Option QPair := s.links.qps.find? fun q => q.num == n

def State.onQp (s : State) (n : Nat) (f : QPair → QPair) : State :=
  { s with links := { s.links with qps := s.links.qps.map fun q => if q.num == n then f q else q } }

/-- R333: the packets in the transport store of an Ethernet port. -/
def State.ethStored (s : State) (port : Nat) : Nat :=
  (s.links.qps.map fun q => (q.store.filter fun x => x.2.1 == port).length).foldl (· + ·) 0

/-- Send a packet of a queue pair on a port, 0xFF for the pair's own: over Virip on that port or along the route table; over
Ethernet into the port's transport store, in which a packet stands until it is acknowledged (R327, R333). None where the
store does not take it. -/
def State.qpSend (s : State) (q : QPair) (named : Nat) (p : Packet) : Option State :=
  let port := if named = 0xFF then q.port else named
  if q.eth then
    let port := if port = 0xFF then 32 else port
    if (s.port port).any (·.usable) && decide (s.ethStored port < 4096) then
      some (s.onQp q.num fun q =>
        { q with store := q.store ++ [(q.psn, port, p)], psn := (q.psn + 1) % 2 ^ 32
                 resentAt := if q.store.isEmpty then s.time.now else q.resentAt })
    else none
  else if port = 0xFF then s.sendRoute p (p.addr.toNat / 64)
  else s.sendOn port p

/-- The header fields that every packet of a queue pair carries (R322). -/
def State.qpPacket (s : State) (q : QPair) (p : Packet) : Packet :=
  { p with qp := q.rqp, dmod := q.rmod, smod := s.boot.modnum, ctx := q.rctx }

/-- Send a packet its way; none where no port takes it now. A packet of a queue pair that is no more has nowhere to go. -/
def State.sendTo (s : State) (w : Way) (pk : Packet) : Option State :=
  match w with
  | .route line => s.sendRoute pk line
  | .tier line => (s.tierPort pk.dmod line).bind fun n => s.sendOn n pk
  | .pair n => match s.qp n with
    | none => some s
    | some q => s.qpSend q 0xFF (s.qpPacket q pk)

/-- R324: a packet that no port takes now is not sent yet and waits, in order behind those that wait for its way. -/
def State.post (s : State) (w : Way) (pk : Packet) : State :=
  let late : State := { s with links := { s.links with unsent := s.links.unsent ++ [(w, pk)] } }
  if s.links.unsent.any (fun x => x.1 == w && x.2.dmod == pk.dmod) then late else (s.sendTo w pk).getD late

/-- R324: packets that wait are sent where ports take them now. -/
def State.flush (s : State) : State :=
  s.links.unsent.foldl (fun t x => t.post x.1 x.2) { s with links := { s.links with unsent := [] } }

/-- Send a packet to the far end of a queue pair. -/
def State.sendQp (s : State) (n : Nat) (pk : Packet) : State := s.post (.pair n) pk

/-- The message kinds of a CTRL packet; the manual gives CTRL a SUB and no codes for it (log entry 26). -/
def ctrlConnect : BitVec 8 := 1
def ctrlAccept : BitVec 8 := 2
def ctrlClose : BitVec 8 := 3
def ctrlInvalidate : BitVec 8 := 4
def ctrlInvalidated : BitVec 8 := 5
def ctrlStamp : BitVec 8 := 6
def ctrlClosed : BitVec 8 := 7
def ctrlJoin : BitVec 8 := 8
def ctrlJoined : BitVec 8 := 9
def ctrlArrival : BitVec 8 := 10
def ctrlRelease : BitVec 8 := 11
def ctrlBroken : BitVec 8 := 12
def ctrlBorrow : BitVec 8 := 13
def ctrlGrant : BitVec 8 := 14
def ctrlRevoke : BitVec 8 := 15
def ctrlReturn : BitVec 8 := 16
def ctrlRegister : BitVec 8 := 17
def ctrlRegistered : BitVec 8 := 18
def ctrlRing : BitVec 8 := 19
def ctrlInvalidating : BitVec 8 := 20
def ctrlAllGone : BitVec 8 := 21
def ctrlFrozen : BitVec 8 := 22
def ctrlSettled : BitVec 8 := 23
def ctrlAsk : BitVec 8 := 24
def ctrlGranted : BitVec 8 := 25
def ctrlLetGo : BitVec 8 := 26
def ctrlThaw : BitVec 8 := 27
def ctrlGone : BitVec 8 := 28

/-- R10, R350: the messages of the second tier. Log entry 26. -/
def isTierMsg (sub : BitVec 8) : Bool := [ctrlBorrow, ctrlGrant, ctrlRevoke, ctrlReturn].contains sub

/-- A CTRL packet toward a module. Log entry 26. -/
def State.ctrl (s : State) (m : Nat) (sub : BitVec 8) (ctx slot firing : Nat) (addr value : BitVec 64) : State :=
  s.post (if isTierMsg sub && s.part.lease then .tier slot else .route slot)
    { mkPacket 9 0 m s.boot.modnum with sub := sub, ctx := ctx, slot := slot, firing := firing, addr := addr, value := value }

end Sys2Proof.Machine
end

