-- ==== Sys2Proof/Machine/Access.lean ====
section
/-! DEFINITION. Pages and what reaches them: the translation walk (23_page R338, R339), page states (R341), access counters and
notifications (R343, R344), handle invalidation (08 R155), generator windows (09 R203 to R205), reads and writes of a page
with held writes (12 R250) and replicas (R349), and forwarded accesses (21_link R326). -/

namespace Sys2Proof.Machine

/-! ## Trap causes -/

def causeIllegal : Nat := 0x01
def causeReserved : Nat := 0x02
def causeAbsent : Nat := 0x03
def causePriv : Nat := 0x04
def causeAlign : Nat := 0x05
def causeHandleStale : Nat := 0x06
def causeSealStore : Nat := 0x07
def causeBounds : Nat := 0x08
def causeLatency : Nat := 0x09
def causePending : Nat := 0x0A
def causeFootprint : Nat := 0x0B
def causeUnclaimed : Nat := 0x0C
def causeQueueCfg : Nat := 0x0D
def causeRoutine : Nat := 0x0E
def causeBreak : Nat := 0x0F
def causeSyscall : Nat := 0x10
def causeInterrupt : Nat := 0x11
def causeDouble : Nat := 0x12
def causeGenStore : Nat := 0x13
def causeMeshCfg : Nat := 0x14

/-- A trap that a check raises (R210, R215): cause and data address. -/
abbrev Chk (α : Type) := Except (Nat × Nat) α

/-- Raise a trap where a condition fails. -/
def need (b : Bool) (cause va : Nat) : Chk Unit := if b then .ok () else .error (cause, va)

/-! ## The walk -/

/-- A translation-table entry: its physical address, level and words (R339). -/
structure PEntry where
  addr : Nat
  level : Nat
  w0 : BitVec 64
  w1 : BitVec 64
  deriving DecidableEq, Repr

def PEntry.state (e : PEntry) : Nat := bitsOf e.w0.toNat 60 4
def PEntry.wr (e : PEntry) : Bool := e.w0.getLsbD 59
def PEntry.digest (e : PEntry) : Bool := e.w0.getLsbD 58
def PEntry.profile (e : PEntry) : Bool := e.w0.getLsbD 57
def PEntry.pin (e : PEntry) : Bool := e.w0.getLsbD 56
def PEntry.hostf (e : PEntry) : Bool := e.w0.getLsbD 55
def PEntry.pa (e : PEntry) : Nat := bitsOf e.w0.toNat 0 52
def PEntry.rid (e : PEntry) : Nat := bitsOf e.w1.toNat 48 16
def PEntry.owner (e : PEntry) : Nat := bitsOf e.w1.toNat 32 10
def PEntry.acc (e : PEntry) : BitVec 32 := BitVec.ofNat 32 e.w1.toNat

/-- The states of R339 by code. -/
def stUnmapped : Nat := 0
def stLocal : Nat := 1
def stRemote : Nat := 2
def stDup : Nat := 3
def stSealed : Nat := 4
def stMigrating : Nat := 5
def stLeasedOut : Nat := 6
def stLeasedIn : Nat := 7
def stRevoking : Nat := 8
def stTable : Nat := 15

/-- R338: the page size of a leaf's level. -/
def levelSize (level : Nat) : Nat :=
  match level with
  | 2 => 2 ^ 30
  | 3 => 2 ^ 21
  | _ => 2 ^ 16

/-- R162: the SIZE code of a leaf's level. -/
def levelCode (level : Nat) : BitVec 2 :=
  match level with
  | 2 => 2
  | 3 => 1
  | _ => 0

/-- R338: the index of a level in an address. -/
def levelIndex (level va : Nat) : Nat :=
  match level with
  | 0 => bitsOf va 48 8
  | 1 => bitsOf va 39 9
  | 2 => bitsOf va 30 9
  | 3 => bitsOf va 21 9
  | _ => bitsOf va 16 5

/-- The walk from a table on; it ends at the first entry that is not TABLE. -/
def walkFrom (s : State) (va : Nat) : Nat → Nat → Nat → Option PEntry
  | 0, _, _ => none
  | n + 1, level, table =>
    let a := table + 16 * levelIndex level va
    let w0 := BitVec.ofNat 64 (s.hbmVal (paLocal a) 8)
    let w1 := BitVec.ofNat 64 (s.hbmVal (paLocal a + 8) 8)
    let e : PEntry := ⟨a, level, w0, w1⟩
    if e.state = stTable then (if level = 4 then none else walkFrom s va n (level + 1) e.pa) else some e

/-- The entry that ends the walk of a virtual address; none where the walk ends as unmapped by R338. -/
def State.entryOf (s : State) (ctx va : Nat) : Option PEntry :=
  match s.ctx ctx with
  | none => none
  | some c =>
    match walkFrom s va 5 0 c.root.ttbase with
    | none => none
    | some e =>
      if e.state = stUnmapped then some e
      else if e.level < 2 ∨ (9 ≤ e.state ∧ e.state ≤ 14) then none
      else some e

/-- The leaf of a mapped page. -/
def State.leafOf (s : State) (ctx va : Nat) : Option PEntry :=
  match s.entryOf ctx va with
  | none => none
  | some e => if e.state = stUnmapped then none else some e

/-- The leaves under a table: (entry, virtual address), for mapped leaves; the first argument bounds the levels. -/
def State.tableLeaves (s : State) : Nat → Nat → Nat → Nat → List (PEntry × Nat)
  | 0, _, _, _ => []
  | n + 1, level, table, va =>
    let count := if level = 0 then 256 else if level = 4 then 32 else 512
    let span := match level with
      | 0 => 2 ^ 48
      | 1 => 2 ^ 39
      | k => levelSize k
    (List.range count).flatMap fun i =>
      let a := table + 16 * i
      let w0 := BitVec.ofNat 64 (s.hbmVal (paLocal a) 8)
      let e : PEntry := ⟨a, level, w0, BitVec.ofNat 64 (s.hbmVal (paLocal a + 8) 8)⟩
      let v := va + i * span
      if e.state = stTable then (if level = 4 then [] else s.tableLeaves n (level + 1) e.pa v)
      else if e.state = stUnmapped ∨ level < 2 ∨ (9 ≤ e.state ∧ e.state ≤ 14) then []
      else [(e, v)]

/-- Every mapped leaf of a context. Log entry 21. -/
def State.ctxLeaves (s : State) (ctx : Nat) : List (PEntry × Nat) :=
  match s.ctx ctx with
  | none => []
  | some c => s.tableLeaves 5 0 c.root.ttbase 0

/-- The size of the page that an entry maps. -/
def PEntry.size (e : PEntry) : Nat := levelSize e.level

/-- The base of the page that holds an address. -/
def PEntry.base (e : PEntry) (va : Nat) : Nat := va - va % e.size

/-- Write word 0 of an entry. -/
def State.putW0 (s : State) (a : Nat) (w : BitVec 64) : State := s.hbmPutVal (paLocal a) 8 w.toNat

/-- Write word 1 of an entry. -/
def State.putW1 (s : State) (a : Nat) (w : BitVec 64) : State := s.hbmPutVal (paLocal a + 8) 8 w.toNat

/-- A field of a word replaced. -/
def setBits (w : BitVec 64) (lo n v : Nat) : BitVec 64 :=
  BitVec.ofNat 64 (w.toNat - bitsOf w.toNat lo n * 2 ^ lo + v % 2 ^ n * 2 ^ lo)

/-- An entry's STATE changed. -/
def State.setPageSt (s : State) (e : PEntry) (st : Nat) : State := s.putW0 e.addr (setBits e.w0 60 4 st)

/-- The generator window that holds an address (R206, R340). -/
def State.genAt (s : State) (ctx va : Nat) : Option (Nat × GenWin) :=
  match s.ctx ctx with
  | none => none
  | some c => c.gens.find? fun p => decide (p.2.vbase ≤ va) && decide (va < p.2.vbase + p.2.size)

/-! ## Handles -/

/-- Change every handle of a group: registers, the bank, results in flight and old values (R155). -/
def mapValHandle (f : Handle → Handle) : Val → Val
  | .handle h => .handle (f h)
  | v => v

def EngineState.mapHandles (x : EngineState) (f : Handle → Handle) : EngineState :=
  { x with
    flight := x.flight.map fun r => { r with val := mapValHandle f r.val }
    stops := x.stops.map fun r => { r with old := mapValHandle f r.old } }

def Group.mapHandles (g : Group) (f : Handle → Handle) : Group :=
  { g with
    cr := { g.cr with h := g.cr.h.map f }
    bank := { g.bank with h15 := f g.bank.h15 }
    eng := { g.eng with c := g.eng.c.mapHandles f }
    hand := { g.hand with csave := g.hand.csave.map fun x => x.mapHandles f } }

/-- Clear VALID where the origin lies in a range. -/
def Handle.dropIn (lo hi : Nat) (h : Handle) : Handle :=
  if lo ≤ h.va.toNat ∧ h.va.toNat < hi then { h with valid := false } else h

/-- Invalidate every handle of a context to a virtual range, saved ones included (R163, R206, R347). -/
def State.dropHandles (s : State) (ctx lo hi : Nat) : State :=
  s.mapGroups fun g => if g.ident.ctx = ctx then g.mapHandles (Handle.dropIn lo hi) else g

/-- The size of a handle's page. -/
def Handle.pageSize (h : Handle) : Nat :=
  match h.size.toNat with
  | 0 => 2 ^ 16
  | 1 => 2 ^ 21
  | _ => 2 ^ 30

/-- The end of the page that holds the origin (R157). -/
def Handle.pageEnd (h : Handle) : Nat := h.va.toNat - h.va.toNat % h.pageSize + h.pageSize

/-- R162: the status word. -/
def Handle.status (h : Handle) : BitVec 64 :=
  BitVec.ofNat 64
    ((if h.valid then 2 ^ 63 else 0) + h.kind.toNat * 2 ^ 60 + h.size.toNat * 2 ^ 58 + (if h.wr then 2 ^ 57 else 0) +
     (if h.sealed then 2 ^ 56 else 0) + (if h.digest then 2 ^ 55 else 0) + (if h.profile then 2 ^ 54 else 0) + h.pa.toNat)

/-- KIND codes of R162. -/
def kindLocal : BitVec 3 := 0
def kindRemote : BitVec 3 := 1
def kindHost : BitVec 3 := 2
def kindGen : BitVec 3 := 3
def kindLeased : BitVec 3 := 4

/-- R352: the frame of the doorbells; a context without system privilege sees it with WR clear. -/
def isBellFrame (pa : Nat) : Bool := decide (paLocal pa / 2 ^ 16 = bellBase / 2 ^ 16)

/-- R161, R341: the handle that XLATE gives for a mapped page; none where it traps. A MIGRATING page keeps the KIND of its
old copy, which its HOSTF and the module of its frame show. -/
def State.translate (s : State) (ctx va : Nat) (syspriv : Bool) : Option Handle :=
  match s.genAt ctx va with
  | some (_, g) =>
    let off := (va - g.vbase) % 2 ^ 16
    some { valid := true, kind := kindGen, size := 0, wr := false, sealed := false, digest := false, profile := false,
           va := BitVec.ofNat 64 va, pa := BitVec.ofNat 52 off, frame := 0 }
  | none =>
    match s.leafOf ctx va with
    | none => none
    | some e =>
      if e.state = stLeasedOut then none
      else
        let off := va % e.size
        let remoteFrame := paModule e.pa != s.boot.modnum
        let kind : BitVec 3 :=
          if e.state = stLeasedIn ∨ e.state = stRevoking then kindLeased
          else if e.state = stRemote then (if e.hostf then kindHost else kindRemote)
          else if e.state = stMigrating then
            (if e.hostf then kindHost else if remoteFrame then kindLeased else kindLocal)
          else kindLocal
        let isSealed := e.state = stSealed
        some
          { valid := true, kind := kind, size := levelCode e.level
            wr := e.wr && !isSealed && (syspriv || !(kind == kindLocal && isBellFrame e.pa))
            sealed := isSealed, digest := e.digest, profile := e.profile, va := BitVec.ofNat 64 va
            pa := BitVec.ofNat 52 (if kind = kindHost then off else e.pa + off)
            frame := BitVec.ofNat 52 (e.pa - e.pa % e.size) }

/-! ## Notifications and access counters -/

/-- R344: post to the notification queue of a context. -/
def State.notify (s : State) (ctx va typ arg : Nat) : State :=
  match s.ctx ctx with
  | none => s
  | some c =>
    let b := paLocal c.root.nqbase
    let wr := s.hbmVal b 8
    let rd := s.hbmVal (b + 8) 8
    if (wr + 2 ^ 64 - rd) % 2 ^ 64 = c.root.nqlen then
      s.hbmPutVal (b + 16) 4 (min (s.hbmVal (b + 16) 4 + 1) (2 ^ 32 - 1))
    else
      let s1 := s.hbmPut (b + 64 + 16 * (wr % c.root.nqlen))
        (leBytes 8 va ++ leBytes 1 typ ++ leBytes 3 0 ++ leBytes 4 arg)
      let s2 := s1.hbmPutVal b 8 (wr + 1)
      let ctrw := s.hbmVal (b + 20) 2
      if bitsOf ctrw 15 1 = 1 then s2 else s2.addCtr (bitsOf ctrw 0 12) 1 5

/-- R343: lines accessed on a page add to its exact count; HOT is posted once when it reaches the threshold. -/
def State.touch (s : State) (ctx : Nat) (e : PEntry) (va lines : Nat) : State :=
  match s.ctx ctx with
  | none => s
  | some c =>
    let old := match c.accs.find? (fun x => x.entry == e.addr) with
      | some x => x
      | none => { entry := e.addr, count := e.acc, dirty := false, hot := decide (c.root.accthr ≤ e.acc.toNat) }
    let new := satAdd32 old.count lines
    let crossed := !old.hot && decide (c.root.accthr ≤ new.toNat)
    let x : AccCount := { old with count := new, dirty := true, hot := old.hot || crossed }
    let s1 := s.onCtx ctx fun c => { c with accs := x :: c.accs.filter fun y => y.entry != e.addr }
    if crossed then s1.notify ctx (e.base va) 1 new.toNat else s1

/-- Lines of 64 bytes that a range touches. -/
def linesOf (a n : Nat) : Nat := if n = 0 then 0 else (a + n - 1) / 64 - a / 64 + 1

/-! ## Generator windows -/

/-- R205: the mixing function. -/
def mixRounds (key : Nat) : Nat → Nat → Nat → Nat → Nat × Nat
  | 0, _, x, y => (x, y)
  | n + 1, i, x, y =>
    let kw := if i % 2 = 0 then key % 2 ^ 32 else key / 2 ^ 32 % 2 ^ 32
    let rk := (kw + i * 0x9E3779B9) % 2 ^ 32
    let p := 0xD2B74407 * x
    mixRounds key n (i + 1) ((p / 2 ^ 32) ^^^ y ^^^ rk) (p % 2 ^ 32)

/-- R205. -/
def mix (ctr key : Nat) : Nat :=
  let r := mixRounds key 6 0 (ctr % 2 ^ 32) (ctr / 2 ^ 32 % 2 ^ 32)
  r.2 * 2 ^ 32 + r.1

/-- R204, ROPE: F = RNE(2^32 * B^(-col/PITCH) / 2 pi), by the logarithm of B to 160 bits. -/
def ropeF (b : Nat) (col pitch : Nat) : Option Nat :=
  match fpDecode fmtF64 b with
  | .fin false m e =>
    if m = 0 then none
    else
      let k := (Nat.log2 m : Int) + e
      let frac := log2Bits 160 (m * 2 ^ 256 / 2 ^ Nat.log2 m) 0
      let lg : Int := k * ((2 ^ 160 : Nat) : Int) + frac
      if lg ≤ 0 then none
      else
        -- exponent 32 - lg * col / pitch, in units of 2^-160
        let ex : Int := 32 * ((2 ^ 160 : Nat) : Int) - lg * col / pitch
        let ip := ex.fdiv ((2 ^ 160 : Nat) : Int)
        let fp := (ex - ip * ((2 ^ 160 : Nat) : Int)).toNat
        let p2 := exp2Fix (fp * 2 ^ 32)
        some (rndScaled .rne false (p2 * 2 ^ 256) (2 * piFix) (ip - fixBits))
  | _ => none

/-- R204: element `i` of a window as the low bits of its width. Where B of a ROPE window is not a number above 1 the manual
gives no value, and it is free (log entry 10). -/
def GenWin.elem (g : GenWin) (i : Nat) : Nat :=
  let p0 := (g.p.getD 0 0).toNat
  let p1 := (g.p.getD 1 0).toNat
  let row : Int := if g.pitch = 0 then 0 else ((i / g.pitch : Nat) : Int)
  let col : Nat := if g.pitch = 0 then 0 else i % g.pitch
  match tyOfCode g.fmt with
  | none => 0
  | some ty =>
    let w := ty.bits
    match g.kind with
    | 1 =>
      match ty with
      | .int _ _ => wrapInt w (sextNat 64 p0 + sextNat 64 p1 * i)
      | .flt f => fpRound f .rne (fpAdd .rne (fpDecode fmtF64 p0) (fpMul (fpDecode fmtF64 p1) (.fin false i 0)))
      | .bx => 0
    | 2 =>
      if (col : Int) ≤ row + sextNat 64 p0 then 0
      else match ty with
        | .int sg _ => if sg then 2 ^ (w - 1) else 0
        | .flt f => if f.e4m3 then 0xFE else fpInf f true
        | .bx => 0
    | 3 =>
      match ropeF p1 col g.pitch with
      | none => (Config.freeBits i).toNat % 2 ^ w
      | some f =>
        let pos := row + sextNat 64 p0
        if w = 16 then wrapInt 16 ((⟨pos * f, -16⟩ : Dy).rnd .rne) else wrapInt 32 (pos * f)
    | 4 =>
      let m := mix ((p0 + i) % 2 ^ 64) p1
      match ty with
      | .flt _ => fpRound fmtF32 .rne ((⟨((m / 2 ^ 40 : Nat) : Int), -24⟩ : Dy).toFp false)
      | _ => m % 2 ^ w
    | _ => p0 % 2 ^ w

/-- R203: a read of any width returns the bytes of the window's array. -/
def GenWin.bytes (g : GenWin) (off n : Nat) : List Byte :=
  let w := match tyOfCode g.fmt with
    | none => 1
    | some ty => ty.bits / 8
  (List.range n).map fun j =>
    let a := off + j
    BitVec.ofNat 8 (g.elem (a / w) / 2 ^ (8 * (a % w)))

/-! ## Reads and writes of pages -/

/-- R250: whether a held write lies over a byte. -/
def HeldWrite.hits (w : HeldWrite) (ctx va : Nat) : Bool :=
  w.ctx == ctx && decide (w.va ≤ va) && decide (va < w.va + w.data.length)

/-- R250: a byte of a MIGRATING page: the latest held write, else the old frame's byte. -/
def heldByte (ctx va : Nat) (old : Byte) (l : List HeldWrite) : Byte :=
  l.foldl (fun b w => if w.hits ctx va && w.rmw.isNone then w.data.getD (va - w.va) 0 else b) old

/-- R250: the bytes of a range that held writes lie over, by their place in it. -/
def State.heldOver (s : State) (ctx va n : Nat) : List (Nat × Byte) :=
  (List.range n).filterMap fun i =>
    if s.pages.held.any (fun w => w.hits ctx (va + i) && w.rmw.isNone) then some (i, heldByte ctx (va + i) 0 s.pages.held) else none

/-- R250: a held atomic lies over a range: its value is not known before the page has been copied. -/
def State.heldAtomic (s : State) (ctx va n : Nat) : Bool :=
  s.pages.held.any fun w => w.rmw.isSome && w.ctx == ctx && decide (w.va < va + n) && decide (va < w.va + w.data.length)

/-- R250: hold a write. -/
def State.hold (s : State) (ctx va : Nat) (bs : List Byte) (core : Option Nat) (agent : Option Agent) (ack : Option Packet)
    (rmw : Option PendAtomic) : State :=
  let r := s.newTag
  { r.2 with pages := { s.pages with held := s.pages.held ++ [⟨r.1, ctx, va, bs, core, agent, ack, rmw⟩] } }

/-- Bytes of a page in a frame of this module or of the host, held writes over them. -/
def State.frameBytes (s : State) (ctx va frame : Nat) (isHost : Bool) (n : Nat) : List Byte :=
  let raw := if isHost then s.hostBytes frame n else s.hbmBytes (paLocal frame) n
  if s.pages.held.isEmpty then raw
  else (List.range n).zipWith (fun i b => heldByte ctx (va + i) b s.pages.held) raw

/-- The doorbell of a code, in the order of R369. -/
def bellOf (n : Nat) : Option Bell :=
  match n with
  | 0 => some .ctx
  | 1 => some .queue
  | 2 => some .bar
  | 3 => some .link
  | 4 => some .page
  | _ => none

/-- R369: the doorbell at an offset of BAR0. -/
def bellAt (off : Nat) : Option Bell := if off % 8 = 0 then bellOf (off / 8) else none

/-- R369, R372: a doorbell takes a command's address while READY. -/
def State.ringBell (s : State) (b : Bell) (v : Nat) : State :=
  if s.boot.ready then { s with fe := { s.fe with bells := s.fe.bells ++ [(b, v % 2 ^ 52)] } } else s

/-- A store of the device to module memory; the doorbell frame takes doorbell words only (R352, R369), and only while READY. -/
def State.storeLocal (s : State) (la : Nat) (bs : List Byte) : State :=
  if bellBase ≤ la ∧ la < bellBase + 2 ^ 16 then
    match bellAt (la - bellBase) with
    | none => s
    | some b => if bs.length = 8 then s.ringBell b (leVal bs) else s
  else s.hbmPut la bs

/-- The invalidations that a write to a DUPLICATED page sends from its owner (R349). -/
def State.invalidate (s : State) (ctx va : Nat) : State :=
  match s.pages.holds.find? (fun h => h.ctx == ctx && h.va == va) with
  | none => s
  | some h =>
    let todo := h.mods.filter fun m => !h.waits.contains m
    let frame := (s.leafOf ctx va).map (·.pa) |>.getD 0
    let s1 : State := { s with pages := { s.pages with holds := s.pages.holds.map fun x =>
      if x.ctx == ctx && x.va == va then { x with waits := x.waits ++ todo } else x } }
    todo.foldl (fun t m => t.ctrl m ctrlInvalidate ctx 0 0 (BitVec.ofNat 64 frame) 0) s1

/-- R325: an access to a line of a module that holds back later ones: its route has changed since it was sent, or it waits itself. -/
def Fwd.blocks (g : Fwd) (m line : Nat) : Bool := g.pkt.dmod == m && g.line == line && (g.unsent || g.moved)

/-- Send a forwarded access that waits, on the present route of its line; where no port takes it, it goes on waiting (R324, R326). -/
def State.sendFwd (s : State) (g : Fwd) : State :=
  match s.sendRoute g.pkt g.line with
  | none => s
  | some t => { t with links := { t.links with fwds := t.links.fwds.map fun f =>
      if f.tag == g.tag then { f with unsent := false, first := s.time.now, sent := s.time.now } else f } }

/-- R325: send what no earlier access to its line holds back. -/
def State.sendUnsent (s : State) : State :=
  s.links.fwds.foldl (fun t g =>
    if g.unsent && !((t.links.fwds.takeWhile fun f => f.tag != g.tag).any (·.blocks g.pkt.dmod g.line)) then t.sendFwd g else t) s

/-- R324: ports have room again, or have come up: what waits is sent. -/
def State.goOn (s : State) : State := s.flush.sendUnsent

/-- R325: after a change of routes or ports, the accesses in flight whose line has another port than in `s0`. -/
def State.noteRoutes (s0 s : State) : State :=
  { s with links := { s.links with fwds := s.links.fwds.map fun f =>
    { f with moved := f.moved || (!f.unsent && (s0.routePort f.pkt.dmod f.line) != (s.routePort f.pkt.dmod f.line)) } } }

/-- Put a forwarded access in the source's record and send it (R325, R326). -/
def State.forwardFor (s : State) (f : Fwd) : State :=
  let tag := s.links.nextTag
  let pk := { f.pkt with tag := tag }
  let f : Fwd :=
    { f with tag := tag, pkt := pk, first := s.time.now, sent := s.time.now, unsent := true, moved := false
             shown := if pk.kind = 1 then s.heldOver pk.ctx f.va f.size else [] }
  let s1 : State := { s with links := { s.links with fwds := s.links.fwds ++ [f], nextTag := (tag + 1) % 2 ^ 32 } }
  if s.links.fwds.any (·.blocks pk.dmod f.line) then s1 else s1.sendFwd f

/-- A forwarded access of C. Log entry 4. -/
def State.forward (s : State) (pk : Packet) (va line : Nat) (core : Option Nat) (reg : Option Reg) (size : Nat) (signed : Bool) :
    State :=
  s.forwardFor
    { tag := 0, pkt := pk, va := va, line := line, first := 0, sent := 0, moved := false, unsent := false, shown := [], core := core, reg := reg
      size := size, signed := signed, agent := none }

/-- A forwarded store for C or for an agent. -/
def State.forwardStore (s : State) (pk : Packet) (va line : Nat) (core : Option Nat) (agent : Option Agent) (size : Nat) : State :=
  s.forwardFor
    { tag := 0, pkt := pk, va := va, line := line, first := 0, sent := 0, moved := false, unsent := false, shown := [], core := core, reg := none
      size := size, signed := false, agent := agent }

/-- A store packet for the bytes at a local address of another module, within one line (R323). -/
def storePacket (dmod smod la ctx : Nat) (bs : List Byte) : Packet :=
  let o := la % 64
  { mkPacket 3 1 dmod smod with
    ctx := ctx, len := 64, addr := BitVec.ofNat 64 (la - o)
    mask := BitVec.ofNat 64 ((2 ^ bs.length - 1) * 2 ^ o)
    payload := List.replicate o 0 ++ bs ++ List.replicate (64 - o - bs.length) 0 }

/-- A write of bytes within one page by an agent of this module (R341): into the own frame, held while MIGRATING, at the owner
of a replica, forwarded to a remote frame. Writes to sealed or unmapped pages are dropped by their callers. -/
def State.writePageBy (s : State) (ctx va : Nat) (e : PEntry) (bs : List Byte) (core : Option Nat) (agent : Option Agent) : State :=
  let pa := e.pa + va % e.size
  if e.state = stMigrating then s.hold ctx va bs core agent none none
  else if e.state = stRemote ∧ e.hostf then s.hostPut pa bs
  else if e.state = stRemote ∨ e.state = stLeasedIn ∨ e.state = stRevoking then
    s.forwardStore (storePacket (paModule pa) s.boot.modnum (paLocal pa) ctx bs) va (paLocal pa / 64) core agent bs.length
  else if e.state = stDup then
    match s.pages.replicas.find? (fun r => r.ctx == ctx && r.va == e.base va) with
    | some r =>
      let la := paLocal (r.frame + va % e.size)
      s.forwardStore (storePacket r.owner s.boot.modnum la ctx bs) va (la / 64) core agent bs.length
    | none => (s.storeLocal (paLocal pa) bs).invalidate ctx (e.base va)
  else s.storeLocal (paLocal pa) bs

/-- A write of the group on a core, or of the front end. -/
def State.writePage (s : State) (ctx va : Nat) (e : PEntry) (bs : List Byte) (core : Option Nat) : State :=
  s.writePageBy ctx va e bs core none

/-- Bytes of a page that this module can read at once: an own frame, a host frame, a held page. Bytes of a remote frame come
by packets and read as 0 here. -/
def State.readPage (s : State) (ctx va : Nat) (e : PEntry) (n : Nat) : List Byte :=
  let pa := e.pa + va % e.size
  if e.hostf then s.frameBytes ctx va pa true n
  else if paModule pa = s.boot.modnum then s.frameBytes ctx va pa false n
  else List.replicate n 0

/-- R159, R244: a replica whose owner a core must still read: a store or an atomic of the core to its line is not answered, or its
invalidations are not all acknowledged. -/
def State.behindStore (s : State) (core ctx : Nat) (e : PEntry) (va : Nat) : Option Replica :=
  (s.pages.replicas.find? fun r => r.ctx == ctx && r.va == e.base va).filter fun r =>
    let line := paLocal (r.frame + va % e.size) / 64
    s.links.fwds.any (fun f => f.core == some core && f.pkt.dmod == r.owner && f.line == line && (f.pkt.kind == 3 || f.pkt.kind == 4)) ||
    s.links.settling.any (fun x => x.core == some core && x.home == r.owner && x.line == line)

/-- Whether an entry's frame can be read at once. -/
def State.readable (s : State) (e : PEntry) : Bool := e.hostf || paModule e.pa == s.boot.modnum

/-- Whether an own frame exists on the part. Log entry 13. -/
def State.frameExists (s : State) (e : PEntry) : Bool :=
  e.hostf || paModule e.pa != s.boot.modnum || hbmPresent s.part (paLocal e.pa) e.size || isBellFrame e.pa

end Sys2Proof.Machine
end

