-- ==== Sys2Proof/Machine/Homes.lean ====
section
/-! DEFINITION. What an access finds at the frame that it reaches in this module (12_model_far R250 to R252, 23_page R349): a page that
is MIGRATING, held, DUPLICATED or SEALED, one that has left the frame, a lease that has passed. -/

namespace Sys2Proof.Machine

/-- What an access finds at its home: the frame itself, a page whose state decides, or a lease whose deadline has passed. -/
inductive Home where
  | plain (la : Nat)
  | page (ctx va : Nat) (e : PEntry)
  | gone
  deriving DecidableEq, Repr

/-- The pages of this module whose state an access to their frame must heed. -/
def Pages.special (p : Pages) : List (Nat × Nat) :=
  p.ops.map (fun o => (o.ctx, o.va)) ++ p.pinnedHold.map (fun h => (h.ctx, h.va)) ++ p.holds.map (fun h => (h.ctx, h.va)) ++
    p.sealedPages.map fun h => (h.ctx, h.va)

/-- Such a page that holds a local address in its frame. Log entry 21. -/
def State.pageAtFrame (s : State) (la : Nat) : Option (Nat × Nat × PEntry) :=
  s.pages.special.findSome? fun p =>
    match s.leafOf p.1 p.2 with
    | none => none
    | some e =>
      if !e.hostf && paModule e.pa == s.boot.modnum && decide (paLocal e.pa ≤ la) && decide (la < paLocal e.pa + e.size) then
        some (p.1, p.2 + (la - paLocal e.pa), e)
      else none

/-- R250: the page that has left a frame within the 2 ms in which an access to it can be in flight. Log entry 21. -/
def State.movedFrom (s : State) (ctx la : Nat) : Option (Nat × Nat × PEntry) :=
  match s.pages.moved.find? fun m => m.ctx == ctx && decide (m.frame ≤ la) && decide (la < m.frame + m.size) &&
      decide (s.time.now ≤ m.since + 2000000) with
  | none => none
  | some m => (s.leafOf m.ctx m.va).map fun e => (m.ctx, m.va + (la - m.frame), e)

/-- R252: the lender decides by its own pod time. Log entry 53. -/
def State.leaseGone (s : State) (smod la : Nat) : Bool :=
  s.pages.leases.any fun l => l.borrower == some smod && decide (paLocal l.frame ≤ la) && decide (la < paLocal l.frame + l.size) &&
    l.deadline.any fun t => decide (t ≤ s.time.now)

/-- Where an access of a context and a module to a local address goes. Log entry 21. -/
def State.homeAt (s : State) (smod ctx la : Nat) : Home :=
  if s.leaseGone smod la then .gone
  else
    match s.pageAtFrame la with
    | some (c, va, e) => .page c va e
    | none =>
      match s.movedFrom ctx la with
      | some (c, va, e) => .page c va e
      | none => .plain la

/-- Read at the home. -/
def State.homeRead (s : State) (h : Home) (n : Nat) : List Byte :=
  match h with
  | .plain la => s.hbmBytes la n
  | .page c va e => s.readPage c va e n
  | .gone => List.replicate n 0

/-- R163, R247, R252: an access that may write at its home; a SEALED page takes no more writes (log entry 40). -/
def Home.takes : Home → Bool
  | .plain _ => true
  | .page _ _ e => e.state != stSealed
  | .gone => false

/-- Write at the home; on a MIGRATING page the write is held, with the answer that waits for it. -/
def State.homePut (s : State) (h : Home) (bs : List Byte) (ack : Option Packet) : State :=
  match h with
  | .plain la => s.storeLocal la bs
  | .page c va e =>
    if e.state = stSealed then s
    else if e.state = stMigrating then s.hold c va bs none none ack none
    else s.writePage c va e bs none
  | .gone => s

end Sys2Proof.Machine
end

