-- ==== Sys2Proof/Machine/Intervals.lean ====
section
/-! DEFINITION. What an atomic computes (08_memory_ops R173) and where it is performed (R172), and the atomic intervals of Nivose
mode (R175, R176). -/

namespace Sys2Proof.Machine

/-- R173: the new value by OP - 0x53, for `n` bits, from the old value and the operands v and u as `n`-bit numbers. -/
def atomicNew (op : Nat) (signed : Bool) (n : Nat) (sat : Bool) (old v u : Nat) : Nat :=
  match op with
  | 0 => if sat then wrapInt n (clampInt signed n (intVal signed n old + intVal signed n v)) else (old + v) % 2 ^ n
  | 1 => v
  | 2 => if old = v then u else old
  | 3 => if intVal signed n v < intVal signed n old then v else old
  | 4 => if intVal signed n old < intVal signed n v then v else old
  | 5 => Nat.land old v
  | 6 => Nat.lor old v
  | 7 => Nat.xor old v
  | 8 => if v ≤ old then 0 else old + 1
  | 9 => if old + v ≤ u then old + v else old
  | _ => old

/-- R173: whether AFADDB added. -/
def fetchAdded (old v u : Nat) : Bool := decide (old + v ≤ u)

/-- R158, R173: an `n`-bit value widened to 64 bits by its type. -/
def extendTo (signed : Bool) (n v : Nat) : BitVec 64 := BitVec.ofNat 64 (wrapInt 64 (intVal signed n v))

/-- `n` bytes at an atomic's place. -/
def State.placeVal (s : State) (p : AtPlace) (n : Nat) : Nat :=
  match p with
  | .spad core a =>
    match s.groupOn core with
    | none => 0
    | some g => memVal g.store.spad a n
  | .page ctx va _ _ =>
    match s.leafOf ctx va with
    | none => 0
    | some e => leVal (s.readPage ctx va e n)

/-- Write there, for an atomic of the group on a core. -/
def State.placePut (s : State) (p : AtPlace) (n v : Nat) (by_ : Nat) : State :=
  match p with
  | .spad core a => s.onCore core fun g => { g with store := { g.store with spad := memPutVal g.store.spad a n v } }
  | .page ctx va _ _ =>
    match s.leafOf ctx va with
    | none => s
    | some e => s.writePage ctx va e (leBytes n v) (some by_)

/-- A result given its value: a word, or the predicate beside it. -/
def InFlight.fill (f : InFlight) (v : BitVec 64) (p : Bool) : InFlight :=
  match f.val with
  | .word _ => { f with val := .word v, arrived := true }
  | .bit _ => { f with val := .bit p, arrived := true }
  | _ => f

/-- Fill the results of an engine that a test picks. -/
def EngineState.fill (x : EngineState) (ok : InFlight → Bool) (v : BitVec 64) (p : Bool) : EngineState :=
  { x with flight := x.flight.map fun f => if ok f && !f.arrived then f.fill v p else f }

/-- Give an in-flight result of a core's C its value: the result of item `req`, its predicate beside it. While a handler runs,
C's own results stand in the state that it stopped in. -/
def Group.arrive (g : Group) (isInterval : Bool) (req : Nat) (v : BitVec 64) (p : Bool) : Group :=
  let ok (f : InFlight) : Bool := f.req == some req && f.interval.isSome == isInterval
  let g1 := g.mapEngine .c fun x => x.fill ok v p
  { g1 with hand := { g1.hand with csave := g1.hand.csave.map fun x => x.fill ok v p } }

/-! ## Intervals -/

/-- R175: whether a group belongs to the party of an atomic. -/
def PendAtomic.inParty (a : PendAtomic) (i : Ident) : Bool :=
  a.launch == i.launch && (match a.cluster with
    | none => true
    | some c => c == i.cluster)

/-- R175: the interval of an atomic is closed once every member has closed it; a completed member counts as having closed
every one. -/
def State.intervalClosed (s : State) (a : PendAtomic) : Bool :=
  s.groups.all fun g =>
    !(a.inParty g.ident) || !g.phase.isPlaced || g.phase == .done || g.phase == .frozen || decide (a.interval < g.work.closed)

/-- Logical thread order (R175), intervals first. -/
def PendAtomic.before (a b : PendAtomic) : Bool :=
  decide (a.interval < b.interval) || (a.interval == b.interval &&
    (decide (a.index < b.index) || (a.index == b.index && decide (a.seq < b.seq))))

/-- Insert by an order. -/
def insertBy {α : Type} (lt : α → α → Bool) (x : α) : List α → List α
  | [] => [x]
  | y :: r => if lt x y then x :: y :: r else y :: insertBy lt x r

def sortBy {α : Type} (lt : α → α → Bool) (l : List α) : List α := l.foldl (fun acc x => insertBy lt x acc) []

/-- Whether `n` bytes at one place and `k` bytes at another overlap. -/
def AtPlace.overlaps (p : AtPlace) (n : Nat) (q : AtPlace) (k : Nat) : Bool :=
  match p, q with
  | .spad c a, .spad d b => c == d && decide (a < b + k) && decide (b < a + n)
  | .page c a _ _, .page d b _ _ => c == d && decide (a < b + k) && decide (b < a + n)
  | _, _ => false

/-- The place of an atomic with its width. -/
def PendAtomic.hits (a b : PendAtomic) : Bool := a.place.overlaps (a.bits / 8) b.place (b.bits / 8)

/-- R175: the running value of a location: an exact integer read by a type. -/
structure Running where
  x : Int
  signed : Bool
  deriving DecidableEq, Repr

/-- The running value as the location stores it. -/
def Running.val (r : Running) (bits : Nat) : Nat := wrapInt bits (clampInt r.signed bits r.x)

/-- The running value of a location that holds `v`. -/
def runningOf (a : PendAtomic) (v : Nat) : Running := ⟨intVal a.signed a.bits v, a.signed⟩

/-- One atomic on the running value: its old value and the new running value. -/
def Running.next (r : Running) (a : PendAtomic) : Nat × Running :=
  let x := if r.signed = a.signed then r.x else intVal a.signed a.bits (r.val a.bits)
  let old := wrapInt a.bits (clampInt a.signed a.bits x)
  if a.op = 0 ∧ a.sat then (old, ⟨x + intVal a.signed a.bits a.v, a.signed⟩)
  else (old, runningOf a (atomicNew a.op a.signed a.bits a.sat old a.v a.u))

/-- The result of an atomic goes to its group; `isInterval` for one of an interval. -/
def State.deliver (s : State) (isInterval : Bool) (a : PendAtomic) (old : Nat) (added : Bool) : State :=
  s.mapGroups fun g => if g.ident.core = a.core then g.arrive isInterval a.req (extendTo a.signed a.bits old) added else g

/-- A location of this module with the running value that the atomics of one interval give it. -/
structure Run where
  atomic : PendAtomic
  val : Running
  deriving DecidableEq, Repr

/-- The location takes its value, saturated once at the end of the interval. -/
def State.endRun (s : State) (r : Run) : State :=
  s.placePut r.atomic.place (r.atomic.bits / 8) (r.val.val r.atomic.bits) r.atomic.core

def State.endRuns (s : State) (l : List Run) : State := l.foldl (·.endRun) s

/-- R160, R301: the scratchpad of a member that has taken a fatal fault, whose contents stay. -/
def State.isFrozen (s : State) (p : AtPlace) : Bool :=
  match p with
  | .spad core _ => (s.groupOn core).any fun g => g.phase == .frozen
  | .page _ _ _ _ => false

/-- One closed atomic of a location of this module. -/
def runOne (t : State × List Run) (a : PendAtomic) : State × List Run :=
  if t.1.isFrozen a.place then (t.1.deliver true a (t.1.placeVal a.place (a.bits / 8)) false, t.2)
  else
    let same (r : Run) : Bool := r.atomic.place == a.place && r.atomic.bits == a.bits && r.atomic.interval == a.interval
    match t.2.find? same with
    | some r =>
      let x := r.val.next a
      (t.1.deliver true a x.1 (fetchAdded x.1 a.v a.u), ⟨a, x.2⟩ :: t.2.filter fun y => !same y)
    | none =>
      let hit := t.2.filter fun r => r.atomic.hits a
      let s1 := t.1.endRuns hit
      let x := (runningOf a (s1.placeVal a.place (a.bits / 8))).next a
      (s1.deliver true a x.1 (fetchAdded x.1 a.v a.u), ⟨a, x.2⟩ :: t.2.filter fun r => !r.atomic.hits a)

/-- R301: an atomic of a FROZEN group whose interval that group had not closed is discarded. -/
def State.discarded (s : State) (a : PendAtomic) : Bool :=
  s.groups.any fun g => g.ident.core == a.core && g.ident.launch == a.launch && g.ident.index == a.index &&
    g.phase == .frozen && decide (g.work.closed ≤ a.interval)

/-! ## Locations of other modules -/

/-- R172: the home of an atomic's location is another module. -/
def State.isRemote (s : State) (p : AtPlace) : Bool :=
  match p with
  | .spad _ _ => false
  | .page ctx va _ _ => (s.leafOf ctx va).any fun e =>
      !s.readable e || s.pages.replicas.any fun r => r.ctx == ctx && r.va == e.base va

/-- R250: the location's page is MIGRATING from another module: it has its home when the copy is done. -/
def State.isMoving (s : State) (p : AtPlace) : Bool :=
  match p with
  | .spad _ _ => false
  | .page ctx va _ _ => (s.leafOf ctx va).any fun e => e.state == stMigrating && !s.readable e

/-- The atomics of one location in order, those of an interval exact: their old values, and the value in the end. Log entry 20. -/
def runAll (k : Nat) (r : Running) : List PendAtomic → List (PendAtomic × Nat) × Running
  | [] => ([], r)
  | a :: l =>
    let r0 : Running := if a.interval = k then r else runningOf a (r.val a.bits)
    let x := r0.next a
    let y := runAll a.interval x.2 l
    ((a, x.1) :: y.1, y.2)

/-- What the atomics of a location return and leave, from the value that it holds; or what a combination leaves. -/
def Closing.outcome (c : Closing) (v : Nat) : List (PendAtomic × Nat) × Nat :=
  match c.atomics with
  | [] => ([], (c.combine.map (·.new)).getD v)
  | a :: _ =>
    let y := runAll a.interval (runningOf a v) c.atomics
    (y.1, y.2.val c.bits)

/-- The place of a closing location. -/
def Closing.hits (c d : Closing) : Bool :=
  c.ctx == d.ctx && decide (c.va < d.va + d.bits / 8) && decide (d.va < c.va + c.bits / 8)

/-- R322: the SUB of an atomic: OP - 0x53, W, S. -/
def atreqSub (op w : Nat) (sat : Bool) : BitVec 8 := BitVec.ofNat 8 (op + 16 * w + (if sat then 64 else 0))

/-- An atomic request of an agent for the home of a location: an AOR of 0, which reads it, or an ACAS. -/
def State.askHome (s : State) (c : Closing) (op v u : Nat) : State :=
  match s.leafOf c.ctx c.va with
  | none => s
  | some e =>
    let pa := match s.pages.replicas.find? (fun r => r.ctx == c.ctx && r.va == e.base c.va) with
      | some r => r.frame + c.va % e.size
      | none => e.pa + c.va % e.size
    s.forwardFor
      { tag := 0
        pkt := { mkPacket 4 1 (paModule pa) s.boot.modnum with
          ctx := c.ctx, addr := BitVec.ofNat 64 (paLocal pa), len := 16
          sub := atreqSub op (if c.bits = 32 then 1 else 3) false, payload := leBytes 8 v ++ leBytes 8 u }
        va := c.va, line := paLocal pa / 64, first := 0, sent := 0, moved := false, unsent := false, shown := [], core := none
        reg := none, size := c.bits / 8, signed := false, agent := some (.closing c.tag) }

/-- The next request for every location that no earlier one holds back and that has none on its way. Log entry 20. -/
def State.pumpClosing (s : State) : State :=
  s.mem.closing.foldl (fun t c =>
    if t.links.fwds.any (fun f => f.agent == some (.closing c.tag)) ||
        (t.mem.closing.takeWhile fun d => d.tag != c.tag).any (·.hits c) then t
    else match c.guess with
      | none => t.askHome c 6 0 0
      | some g => t.askHome c 2 g (c.outcome g).2) s

/-- The atomics of a location have their values. -/
def State.endClosing (s : State) (c : Closing) (res : List (PendAtomic × Nat × Bool)) : State :=
  let s1 : State := { s with mem := { s.mem with closing := s.mem.closing.filter fun d => d.tag != c.tag } }
  (res.foldl (fun t r => t.deliver true r.1 r.2.1 r.2.2) s1).pumpClosing

/-- R175: the home answers with the value that it held: the one that this module took it to hold, and then the atomics are resolved; else
it tries again from the value told. Log entry 20. -/
def State.closingReturns (s : State) (tag v : Nat) : State :=
  match s.mem.closing.find? fun c => c.tag == tag with
  | none => s
  | some c =>
    let y := c.outcome v
    if c.guess = some v ∨ y.2 = v then s.endClosing c (y.1.map fun r => (r.1, r.2, fetchAdded r.2 r.1.v r.1.u))
    else
      { s with mem := { s.mem with closing := s.mem.closing.map fun (d : Closing) =>
        if d.tag = tag then { d with guess := some v } else d } }.pumpClosing

/-- R326: the request has failed: the atomics have no effect and return 0. -/
def State.closingFails (s : State) (tag : Nat) : State :=
  match s.mem.closing.find? fun c => c.tag == tag with
  | none => s
  | some c => s.endClosing c (c.atomics.map fun a => (a, 0, false))

/-- A closed atomic whose home is another module joins the last atomics of its location that have not gone out yet. Log entry 20. -/
def State.addClosing (s : State) (a : PendAtomic) : State :=
  match a.place with
  | .spad _ _ => s
  | .page ctx va _ _ =>
    let c : Closing := { tag := s.links.nextTag, ctx := ctx, va := va, bits := a.bits, guess := none, atomics := [a], combine := none }
    let l := s.mem.closing.filter fun d => d.hits c
    match l.getLast? with
    | some d =>
      if d.va = va ∧ d.bits = a.bits ∧ d.guess = none ∧ d.combine = none then
        { s with mem := { s.mem with closing := s.mem.closing.map fun (x : Closing) =>
          if x.tag = d.tag then { x with atomics := x.atomics ++ [a] } else x } }
      else { s.newTag.2 with mem := { s.mem with closing := s.mem.closing ++ [c] } }
    | none => { s.newTag.2 with mem := { s.mem with closing := s.mem.closing ++ [c] } }

/-- R175: the homes resolve every atomic whose interval is closed, in logical thread order (log entry 20). -/
def State.resolveIntervals (s : State) : State :=
  if s.mem.atomics.isEmpty then s
  else
    let kept := s.mem.atomics.filter fun a => !s.discarded a
    let due (a : PendAtomic) : Bool := s.intervalClosed a && !s.isMoving a.place
    let ready := sortBy PendAtomic.before (kept.filter due)
    let t : State := { s with mem := { s.mem with atomics := kept.filter fun a => !due a } }
    let r := (ready.filter fun a => !s.isRemote a.place).foldl runOne (t, [])
    ((ready.filter fun a => s.isRemote a.place).foldl (·.addClosing) (r.1.endRuns r.2)).pumpClosing

/-- R175: the group in focus passes a closing point. -/
def State.closeInterval (s : State) : State :=
  (s.onMe fun g => { g with work := { g.work with closed := g.work.closed + 1 } }).resolveIntervals

/-- R250: a held write is performed at the new copy, an atomic with its result. -/
def State.performHeld (s : State) (w : HeldWrite) : State :=
  match s.leafOf w.ctx w.va with
  | none => s
  | some e =>
    match w.rmw with
    | none => s.writePageBy w.ctx w.va e w.data w.core w.agent
    | some a =>
      let old := leVal (s.readPage w.ctx w.va e (a.bits / 8))
      (s.writePageBy w.ctx w.va e (leBytes (a.bits / 8) (atomicNew a.op a.signed a.bits a.sat old a.v a.u)) w.core none).deliver
        false a old (fetchAdded old a.v a.u)

end Sys2Proof.Machine
end

