-- ==== Sys2Proof/Machine/Sync.lean ====
section
/-! DEFINITION. Sync objects (08_memory_ops R165 to R168): the word at its home, requests and holds, and what another module asks of the
home (log entry 41). -/

namespace Sys2Proof.Machine

/-! ## The object at its home -/

/-- The physical address of an object's word, from 2^52 on for host memory; at a holder of a replica it is the owner's.
Log entry 41. -/
def State.objKey (s : State) (ctx va : Nat) : Option Nat :=
  (s.leafOf ctx va).map fun e =>
    match s.pages.replicas.find? (fun r => r.ctx == ctx && r.va == e.base va) with
    | some r => r.frame + va % e.size
    | none => e.pa + va % e.size + (if e.hostf then 2 ^ 52 else 0)

/-- Whether this module is the home of an object; it is of one in its host's memory. -/
def State.isHome (s : State) (key : Nat) : Bool := decide (2 ^ 52 ≤ key) || paModule key == s.boot.modnum

/-- The object at an address. -/
def State.obj (s : State) (ctx key : Nat) : SyncObj := (s.mem.objs.find? fun o => o.key == key).getD ⟨key, ctx, [], []⟩

/-- Record an object; one that nobody holds or waits for needs no record. -/
def State.putObj (s : State) (o : SyncObj) : State :=
  let others := s.mem.objs.filter fun x => x.key != o.key
  { s with mem := { s.mem with objs := if o.holders.isEmpty && o.waiters.isEmpty then others else o :: others } }

/-- R165: the word of an object whose home is this module. -/
def State.objWord (s : State) (o : SyncObj) : BitVec 64 :=
  BitVec.ofNat 64 (leVal (if 2 ^ 52 ≤ o.key then s.hostBytes (o.key - 2 ^ 52) 8
    else s.homeRead (s.homeAt s.boot.modnum o.ctx (paLocal o.key)) 8))

/-- Write it. -/
def State.setObjWord (s : State) (o : SyncObj) (w : BitVec 64) : State :=
  if 2 ^ 52 ≤ o.key then s.hostPut (o.key - 2 ^ 52) (leBytes 8 w.toNat)
  else s.homePut (s.homeAt s.boot.modnum o.ctx (paLocal o.key)) (leBytes 8 w.toNat) none

/-- R165: EX and ABANDONED. -/
def objEx : BitVec 64 := 0x8000000000000000
def objAbandoned : BitVec 64 := 0x4000000000000000

/-- How a hold ends: by a REL (R166), by the home for a group that has ended (R168), or with a request that is withdrawn. -/
inductive LetGo where
  | rel | abandon | withdraw
  deriving DecidableEq, Repr

/-- R166, R168: the word after a hold has ended. -/
def objReleased (w : BitVec 64) (ex : Bool) (how : LetGo) : BitVec 64 :=
  let w1 := if ex then w &&& ~~~objEx else setBits w 0 32 ((w.toNat % 2 ^ 32 + 2 ^ 32 - 1) % 2 ^ 32)
  match how with
  | .abandon => w1 ||| objAbandoned
  | .rel => if ex then w1 &&& ~~~objAbandoned else w1
  | .withdraw => w1

/-- R165: a waiting request is granted when the object allows it and those before it are a run that can be granted with it. -/
def grantable (w : BitVec 64) (before : List SyncHold) (ex : Bool) : Bool :=
  if ex then before.isEmpty && w &&& objEx == 0 && w.toNat % 2 ^ 32 == 0
  else before.all (fun b => !b.ex) && w &&& objEx == 0

/-- R166: the word after a grant. -/
def objGranted (w : BitVec 64) (ex : Bool) : BitVec 64 :=
  if ex then w ||| objEx else setBits w 0 32 ((w.toNat + 1) % 2 ^ 32)

/-- A request of a group. -/
def SyncHold.isOf (h : SyncHold) (mod launch index : Nat) : Bool := h.mod == mod && h.launch == launch && h.index == index

/-- Whether a waiting request can be granted now. -/
def State.mayGrant (s : State) (o : SyncObj) (h : SyncHold) : Bool :=
  grantable (s.objWord o) (o.waiters.takeWhile fun w => w != h) h.ex

/-- Grant a waiting request. -/
def State.grant (s : State) (o : SyncObj) (h : SyncHold) : State :=
  (s.putObj { o with waiters := o.waiters.filter (fun w => w != h), holders := o.holders ++ [h] }).setObjWord o
    (objGranted (s.objWord o) h.ex)

/-- A group's hold ends, or its waiting request goes. -/
def State.letGo (s : State) (o : SyncObj) (mod launch index : Nat) (how : LetGo) : State :=
  let mine (h : SyncHold) : Bool := h.isOf mod launch index
  (o.holders.filter mine).foldl (fun t h => t.setObjWord o (objReleased (t.objWord o) h.ex how))
    (s.putObj { o with holders := o.holders.filter (fun h => !mine h), waiters := o.waiters.filter fun h => !mine h })

/-- R347, R233: the objects of a page move with it; of an object whose home becomes this module, the groups of this module that held it
or waited for it are the only ones. Log entry 41. -/
def State.moveObjs (s : State) (old new size : Nat) : State :=
  let inPage (key : Nat) : Bool := decide (old ≤ key) && decide (key < old + size)
  let s1 : State := { s with mem := { s.mem with objs := s.mem.objs.map fun o =>
    if (inPage o.key) then { o with key := o.key - old + new } else o } }
  if !s.isHome new then s1
  else
    (s.links.asks.filter fun a => inPage a.key).foldl (fun t a =>
      let o := t.obj a.ctx (a.key - old + new)
      let h : SyncHold := ⟨t.boot.modnum, a.launch, a.index, a.tag, a.ex⟩
      t.putObj (if a.isHeld || a.isGranted then { o with holders := o.holders ++ [h] } else { o with waiters := o.waiters ++ [h] }))
      { s1 with links := { s1.links with asks := s1.links.asks.filter fun a => !inPage a.key } }

/-! ## Objects of other modules -/

/-- A message between the module of a group and the home of an object; those of one object keep their order. -/
def State.syncMsg (s : State) (m : Nat) (sub : BitVec 8) (ctx key launch index tag code : Nat) : State :=
  s.post (.route (paLocal key / 64))
    { mkPacket 9 0 m s.boot.modnum with
      sub := sub, ctx := ctx, slot := code, firing := index, tag := tag, addr := BitVec.ofNat 64 key, value := BitVec.ofNat 64 launch }

/-- The codes of the ways a hold ends. -/
def LetGo.code : LetGo → Nat
  | .rel => 0
  | .abandon => 1
  | .withdraw => 2

def letGoOf (n : Nat) : LetGo :=
  match n with
  | 0 => .rel
  | 1 => .abandon
  | _ => .withdraw

/-- What a group has asked of a home elsewhere. -/
def State.askOf (s : State) (key launch index : Nat) : Option SyncAsk :=
  s.links.asks.find? fun a => a.key == key && a.launch == launch && a.index == index

/-- Ask the home of an object in another module. Log entry 41. -/
def State.ask (s : State) (ctx key launch index : Nat) (ex : Bool) : State :=
  let tag := s.links.nextTag
  let t := s.newTag.2
  let a : SyncAsk := ⟨tag, key, ctx, launch, index, ex, false, false⟩
  { t with links := { t.links with asks := t.links.asks ++ [a] } }.syncMsg (paModule key) ctrlAsk ctx key launch index tag (if ex then 1 else 0)

/-- Tell the home that a hold has ended or a request is withdrawn. -/
def State.dropAsk (s : State) (a : SyncAsk) (how : LetGo) : State :=
  { s with links := { s.links with asks := s.links.asks.filter fun x => x.tag != a.tag } }.syncMsg (paModule a.key) ctrlLetGo a.ctx
    a.key a.launch a.index a.tag how.code

/-- R250: where the object of a message is now. -/
def State.keyOf (s : State) (pk : Packet) : Nat :=
  let key := pk.addr.toNat
  match s.movedFrom pk.ctx (paLocal key) with
  | some (_, va, e) => e.pa + va % e.size + (if e.hostf then 2 ^ 52 else 0)
  | none => key

/-- R165: a request reaches the home. Log entry 41. -/
def State.askArrive (s : State) (pk : Packet) : State :=
  let o := s.obj pk.ctx (s.keyOf pk)
  s.putObj { o with waiters := o.waiters ++ [⟨pk.smod, pk.value.toNat, pk.firing, pk.tag, pk.slot == 1⟩] }

/-- The home has granted a request; one that has been withdrawn meanwhile is not taken. Log entry 41. -/
def State.grantedArrive (s : State) (pk : Packet) : State :=
  { s with links := { s.links with asks := s.links.asks.map fun a => if a.tag = pk.tag then { a with isGranted := true } else a } }

/-- A hold of another module's group ends. Log entry 41. -/
def State.letGoArrive (s : State) (pk : Packet) : State :=
  s.letGo (s.obj pk.ctx (s.keyOf pk)) pk.smod pk.value.toNat pk.firing (letGoOf pk.slot)

/-- R165: the home grants the requests of other modules that can be granted. -/
def State.noteGrants (s : State) : State :=
  s.mem.objs.foldl (fun t o =>
    o.waiters.foldl (fun t h =>
      let o1 := t.obj o.ctx o.key
      if h.mod ≠ t.boot.modnum ∧ o1.waiters.contains h = true ∧ t.mayGrant o1 h = true then
        (t.grant o1 h).syncMsg h.mod ctrlGranted o.ctx o.key h.launch h.index h.tag 0
      else t) t) s

/-! ## The end of a group -/

/-- R168: every hold and request of a group. -/
def State.releaseHolds (s : State) (launch index : Nat) (how : LetGo) : State :=
  let s1 := s.mem.objs.foldl (fun t o => t.letGo (t.obj o.ctx o.key) t.boot.modnum launch index how) s
  (s1.links.asks.filter fun a => a.launch == launch && a.index == index).foldl (fun t a =>
    t.dropAsk a (if a.isHeld then how else .withdraw)) s1

/-- R222: an ACQ that is skipped withdraws its request. -/
def State.withdrawAcq (s : State) (launch index : Nat) : State :=
  let s1 := s.mem.objs.foldl (fun t o =>
    t.putObj { o with waiters := o.waiters.filter fun h => !h.isOf t.boot.modnum launch index }) s
  (s1.links.asks.filter fun a => a.launch == launch && a.index == index && !a.isHeld).foldl (fun t a => t.dropAsk a .withdraw) s1

/-! ## What FENCE, REL and joins wait for -/

/-- Stores and atomics that their home has performed, of the group on a core or of its jobs, with invalidations outstanding
(R251). -/
def State.settles (s : State) (core : Nat) : Bool :=
  s.links.settling.any fun x => x.core == some core || (match x.agent with
    | some (.job c _) => c == core
    | _ => false)

/-- R159, R251: invalidation acknowledgements that stores of a context to pages of this module wait for. -/
def State.invalidates (s : State) (ctx : Nat) : Bool := s.pages.holds.any fun h => h.ctx == ctx && !h.waits.isEmpty

/-- R175: an atomic of an interval that the group has not closed itself. -/
def Group.inOpen (g : Group) (a : PendAtomic) : Bool := a.core == g.ident.core && decide (g.work.closed ≤ a.interval)

/-- The accesses of the group that are not performed at a scope (R169); `openToo` for the atomics of its open interval as well, which
nothing of the group itself can end. -/
def State.accessWaits (s : State) (scope : Nat) (openToo : Bool) : Bool :=
  let me := s.me.ident
  (s.eng .c).flight.any (fun f => f.late && !f.arrived && f.interval.isNone) ||
  s.links.fwds.any (fun f => f.core == some me.core) ||
  s.pages.held.any (fun w => w.core == some me.core) ||
  s.intervalAtomics.any (fun a => a.core == me.core && (openToo || !s.me.inOpen a)) ||
  (decide (3 ≤ scope) && (s.settles me.core || s.invalidates me.ctx))

end Sys2Proof.Machine
end

