-- ==== Sys2Proof/Machine/Completion.lean ====
section
/-! DEFINITION. How a group ends and what that brings with it: trace records (25_trace_replay R363, R364), sync-object holds
(08 R168), cluster error tokens (R180), cluster teardown (16_group R300, R301), fault domains (13_context R267) and the
freezing of a context (R268). -/

namespace Sys2Proof.Machine

/-! ## Trace records -/

/-- R364: append one record to a full or not full buffer. -/
def Group.tracePut (g : Group) (r : TraceRec) : Group :=
  if g.work.trace.length < 128 then { g with work := { g.work with trace := g.work.trace ++ [r] } }
  else
    { g with
      sys := { g.sys with trdrop := satAdd32 g.sys.trdrop 1 }
      work := { g.work with losses := g.work.losses + 1 } }

/-- R364: a record, behind a LOSS record where records were dropped before it and there is room again. -/
def Group.traceAdd (g : Group) (r : TraceRec) : Group :=
  if g.work.losses = 0 ∨ 128 ≤ g.work.trace.length then g.tracePut r
  else
    let l : TraceRec := { r with typ := 3, k := BitVec.ofNat 8 g.ident.core, data := BitVec.ofNat 64 g.work.losses }
    ({ g with work := { g.work with losses := 0, trace := g.work.trace ++ [l] } }).tracePut r

/-- A record of engine `eng` naming item `seq` (R363). Log entry 55. -/
def State.trace (s : State) (typ eng k seq : Nat) (data : BitVec 64) : State :=
  s.onMe fun g => g.traceAdd
    { typ := BitVec.ofNat 8 typ, engine := BitVec.ofNat 8 eng, k := BitVec.ofNat 8 k, group := BitVec.ofNat 32 g.ident.index,
      seq := BitVec.ofNat 64 seq, cycle := BitVec.ofNat 64 s.groupCycles, data := data }

/-- R364: a record of a source outside the cores, whose buffer holds 128 as a core's does. -/
def TraceSrc.put (x : TraceSrc) (r : TraceRec) : TraceSrc :=
  if 128 ≤ x.recs.length then { x with losses := x.losses + 1 }
  else if x.losses = 0 then { x with recs := x.recs ++ [r] }
  else
    let l : TraceRec := { r with typ := 3, k := 0, data := BitVec.ofNat 64 x.losses }
    if x.recs.length = 127 then { x with recs := x.recs ++ [l], losses := 1 }
    else { x with recs := x.recs ++ [l, r], losses := 0 }

/-- R366: the cycles since the start of a group. -/
def State.cyclesOf (s : State) (g : Group) : Nat := cyclesOfNs (s.time.now - g.time.start - g.time.paused)

/-- R366: the front end records an environment event that touches a context, in a source of its own. Log entry 55. -/
def State.env (s : State) (ctx kind : Nat) (group : Option Group) (data : Nat) : State :=
  let r : TraceRec :=
    { typ := 6, engine := 5, k := BitVec.ofNat 8 kind
      group := match group with
        | some g => BitVec.ofNat 32 g.ident.index
        | none => 0xFFFFFFFF
      seq := 0
      cycle := BitVec.ofNat 64 ((group.map s.cyclesOf).getD 0)
      data := BitVec.ofNat 64 data }
  s.onCtx ctx fun c =>
    match c.sources.find? fun x => x.core == none with
    | none => { c with sources := ⟨none, [r], 0⟩ :: c.sources }
    | some _ => { c with sources := c.sources.map fun x => if x.core = none then x.put r else x }

/-! ## Ends of a group -/

/-- R303: the groups of a pre-empted cluster have left their cores; their numbers are from 128 on while they are away, none of a
core (log entry 22). -/
def isAwayCore (core : Nat) : Bool := decide (128 ≤ core)

/-- R209, R227, R301: a group whose mesh goes on: it runs, or it was stopped as R209 states. -/
def Phase.meshRuns : Phase → Bool
  | .running => true
  | .handler => true
  | .done => true
  | _ => false

/-- A completed group (R299): DONE or FROZEN. -/
def Phase.isEnded : Phase → Bool
  | .done => true
  | .frozen => true
  | _ => false

/-- R301, R268: mesh operations and H.m jobs stop, and their writes that have not landed are discarded. -/
def Group.dropMesh (g : Group) : Group :=
  { g with
    mesh := { g.mesh with ops := [], batches := [] }
    work := { g.work with
      jobs := g.work.jobs.filter fun j => match j.kind with
        | .h _ en _ _ _ _ _ _ _ _ _ => en != 0 || j.st == .complete
        | _ => true
      pend := g.work.pend.filter fun p => match p.src with
        | .mesh _ => false
        | .batch _ => false
        | _ => true } }

/-- Whether a place lies in the storage of a core (R181). -/
def Loc.isOn (core : Nat) : Loc → Bool
  | .virt _ _ => false
  | .spad c _ => c == core
  | .acc c _ => c == core

/-- The places that a job names. -/
def JobKind.locs : JobKind → List Loc
  | .copy _ src dst => [src, dst]
  | .transpose _ _ _ src dst _ _ => [src, dst]
  | .h _ _ _ _ _ _ _ _ a b o => a :: o :: b.toList

/-- A job that still has work to do; one that a routine fault has stopped has none (R193). -/
def Job.isOpen (j : Job) : Bool := j.st == .issued || j.st == .running

/-- R181: a firing that is not complete reads from the storage of a group of its kernel. -/
def WSlot.names (x : WSlot) (i : Ident) : Bool :=
  let w := x.entry.lbase.toNat
  x.st == .firing && x.launch == i.launch &&
    (match w / 2 ^ 62 with
     | 0 => false
     | 3 => x.owner == some i.index
     | _ => bitsOf w 30 32 == i.index)

/-- R181: a group's storage stays allocated while an open job names it, or belongs to it, or a firing reads or writes there. -/
def State.namesCore (s : State) (i : Ident) : Bool :=
  (s.links.qps.any fun q => q.recs.any fun r => r.core == some i.core && r.status == 0) ||
  (s.ctxs.any fun c => c.1 == i.ctx && c.2.slots.any fun x => x.2.names i) ||
  s.groups.any fun g => g.phase.isPlaced && g.work.jobs.any fun j =>
    j.isOpen && (g.ident.core == i.core || j.kind.locs.any (·.isOn i.core))

/-! ## Save areas -/

/-- R304: write sections of the area of a group, where it has one. Log entry 22. -/
def State.onArea (s : State) (i : Ident) (f : SaveArea → SaveArea) : State :=
  { s with fe := { s.fe with areas := s.fe.areas.map fun a => if a.launch = i.launch ∧ a.index = i.index then f a else a } }

/-- R301, R299: the control section of a group that has entered FROZEN. Log entry 22. -/
def State.saveControl (s : State) (g : Group) : State := s.onArea g.ident fun a => { a with control := some g }

/-- The completion of a group has been reported to its launch; of one that froze with its context it is when DESTROY cancels it
(R269). -/
def State.isReported (s : State) (i : Ident) : Bool :=
  (s.fe.launches.find? fun l => l.id == i.launch).all fun l => l.results.any fun r => r.1 == i.index

/-- R364: the trace records that a group leaves in its core's buffer. Log entry 55. -/
def Context.leaveTrace (c : Context) (core : Nat) (recs : List TraceRec) (losses : Nat) : Context :=
  if recs.isEmpty && losses == 0 then c else { c with sources := c.sources ++ [⟨some core, recs, losses⟩] }

/-- R300: the cluster of a group is torn down once every member is DONE or FROZEN; one that froze with its context stands until
DESTROY (R268, R269). -/
def State.teardown (s : State) (i : Ident) : State :=
  let mine := s.groups.filter fun g => sameCluster g.ident i && g.phase.isPlaced
  if mine.all (fun g => g.phase.isEnded && s.isReported g.ident && !s.namesCore g.ident) && mine.length == i.csize then
    let s1 := s.onCtx i.ctx fun c => mine.foldl (fun k g => k.leaveTrace g.ident.core g.work.trace g.work.losses) c
    { s1 with
      fe := { s1.fe with areas := s1.fe.areas.filter fun a => mine.all fun g => a.launch != i.launch || a.index != g.ident.index }
      me := if sameCluster s.me.ident i && s.me.phase.isPlaced then { s.me with phase := .retired } else s.me
      rest := s.rest.filter fun g => !(sameCluster g.ident i && g.phase.isPlaced) }
  else s

/-- Tear down every cluster that has come to its end. -/
def State.teardownAll (s : State) : State :=
  (s.groups.filter fun g => g.phase.isEnded).foldl (fun t g => t.teardown g.ident) s

/-! ## Launches -/

/-- R275: the code of a status. -/
def Status.code : Status → Nat
  | .ok => 1
  | .cancelled => 2
  | .faulted => 3
  | .hung => 4
  | .badrcb => 5
  | .badentry => 6

/-- A hardware queue that is not DISABLED. -/
def State.hq (s : State) (q : Nat) : Option HQueue := assocGet s.fe.queues q

def State.onHq (s : State) (q : Nat) (f : HQueue → HQueue) : State :=
  { s with fe := { s.fe with queues := assocMap s.fe.queues q f } }

/-- Change a launch. -/
def State.onLaunch (s : State) (id : Nat) (f : Launch → Launch) : State :=
  { s with fe := { s.fe with launches := s.fe.launches.map fun l => if l.id = id then f l else l } }

def State.launch (s : State) (id : Nat) : Option Launch := s.fe.launches.find? fun l => l.id == id

/-- The launches of a queue, oldest first. -/
def State.launchesOf (s : State) (q : Nat) : List Launch := s.fe.launches.filter fun l => l.queue == some q

/-- Note a completed group at its launch (R286, R297). -/
def State.report (s : State) (id index : Nat) (st : Status) : State :=
  s.onLaunch id fun l =>
    if l.results.any (fun r => r.1 == index) then l
    else { l with results := l.results ++ [(index, st)], pendingRecs := l.pendingRecs ++ [(index, st)] }

/-- R286: one completion record, then CCOUNT. -/
def State.writeRec (s : State) (q entry index : Nat) (st : Status) : State :=
  match s.hq q with
  | none => s
  | some h =>
    let bytes := leBytes 8 entry ++ leBytes 4 index ++ leBytes 1 st.code ++ leBytes 3 0
    ((s.hbmPut (paLocal h.cring + 16 * (h.ccount % 2 ^ h.clog)) bytes).hbmPutVal (paLocal h.ring + 24) 8 (h.ccount + 1)).onHq q
      fun h => { h with ccount := h.ccount + 1 }

/-- R286, ORDERED: the next record in (entry, group) order, if that group has completed. -/
def State.nextOrdered (s : State) (q : Nat) : Option (Launch × Status) :=
  match (s.launchesOf q).find? fun l => decide (l.reported < l.g) with
  | none => none
  | some l => (assocGet l.pendingRecs l.reported).map fun st => (l, st)

/-- Write the records whose turn has come; the first argument bounds them. -/
def flushOrdered (q : Nat) : Nat → State → State
  | 0, s => s
  | n + 1, s =>
    match s.nextOrdered q with
    | none => s
    | some (l, st) =>
      flushOrdered q n ((s.writeRec q l.entry l.reported st).onLaunch l.id fun x =>
        { x with reported := x.reported + 1, pendingRecs := assocDrop x.pendingRecs l.reported })

/-- R286: the records of a queue's completed groups, in finish order or in ascending order. -/
def State.flushRecs (s : State) (q : Nat) : State :=
  match s.hq q with
  | none => s
  | some h =>
    let clear (l : Launch) : Launch := { l with reported := l.reported + l.pendingRecs.length, pendingRecs := [] }
    if !h.crep then (s.launchesOf q).foldl (fun t l => t.onLaunch l.id clear) s
    else if h.ordered then flushOrdered q ((s.launchesOf q).foldl (fun n l => n + l.pendingRecs.length) 0) s
    else
      (s.launchesOf q).foldl (fun t l =>
        (l.pendingRecs.foldl (fun u r => u.writeRec q l.entry r.1 r.2) t).onLaunch l.id clear) s

/-- R297: the status of a launch whose groups have all completed; `dom` is the effective fault domain of its region. -/
def Launch.status (l : Launch) (dom : Nat) : Status :=
  let has (st : Status) : Bool := l.results.any fun r => r.2 == st
  if l.cancelled && !l.begun then .cancelled
  else if dom = 0 && has .faulted then .faulted
  else if has .hung then .hung
  else if l.cancelled || has .cancelled then .cancelled
  else .ok

def State.launchStatus (s : State) (l : Launch) : Status := l.status ((s.ctx l.ctx).map (·.fdom l.rid) |>.getD 0)

/-- R294, R297: a calendar launch whose groups have all completed reports through its counter and a host event. Log entry 36. -/
def State.settleCalendar (s : State) (id : Nat) : State :=
  match s.launch id with
  | none => s
  | some l =>
    if l.tick.isSome && l.results.length == l.g && l.st != .done then
      let st := s.launchStatus l
      let s1 := s.onLaunch id fun l => { l with st := .done, pendingRecs := [] }
      let s2 := match l.kd.cctr with
        | some n => if st == Status.ok && (s.ctx l.ctx).any (fun (c : Context) => c.grants n) then s1.addCtr n 1 5 else s1
        | none => s1
      s2.event 7 l.ctx st.code l.late.toNat
    else s

/-- What the front end writes when groups of a launch have completed. -/
def State.settleLaunch (s : State) (id : Nat) : State :=
  match s.launch id with
  | none => s
  | some l =>
    match l.queue with
    | some q => s.flushRecs q
    | none => s.settleCalendar id

/-- R265: write CUSED and HUSED of a region's path back to its RCBs. -/
def State.writeCharges (s : State) (ctx rid : Nat) : State :=
  match s.ctx ctx with
  | none => s
  | some c => (c.path rid).foldl (fun t r =>
      (t.hbmPutVal (paLocal r.addr + 32) 8 (r.cusedNs / 1000)).hbmPutVal (paLocal r.addr + 40) 8 r.hused) s

/-- The group in focus completes: it enters DONE or FROZEN with a status (R299). -/
def State.endGroup (s : State) (ph : Phase) (st : Status) (abandon : Bool) : State :=
  let i := s.me.ident
  let s1 := s.releaseHolds i.launch i.index (if abandon then .abandon else .rel)
  let s2 := s1.trace 5 5 0 s1.me.eng.c.seq (BitVec.ofNat 64 st.code)
  let s3 := ((s2.onMe fun g => { g with phase := ph, status := st }).report i.launch i.index st).settleLaunch i.launch
  (s3.writeCharges i.ctx (s3.me.sys.ctxinfo.toNat / 2 ^ 16 % 2 ^ 16)).resolveIntervals

/-- R180: each other member of the cluster receives one error token; at most 15 are held (R301). -/
def State.sendTokens (s : State) : State :=
  { s with rest := s.rest.map fun g =>
    if sameCluster g.ident s.me.ident && g.phase.isPlaced then
      { g with work := { g.work with tokens := min 15 (g.work.tokens + 1) } }
    else g }

/-! ## Contexts -/

/-- R268: a group that stops with its context. -/
def Group.freezeWith (g : Group) : Group :=
  match g.phase with
  | .placing => { g.dropMesh with phase := .frozen, prior := g.phase, reason := 4 }
  | .running => { g.dropMesh with phase := .frozen, prior := g.phase, reason := 4 }
  | .handler => { g.dropMesh with phase := .frozen, prior := g.phase, reason := 4 }
  | .stopped => { g.dropMesh with phase := .frozen, prior := g.phase, reason := 4 }
  | _ => g

/-- The codes of a context's states (R270). -/
def CtxSt.code : CtxSt → Nat
  | .building => 1
  | .ready => 2
  | .freezing => 3
  | .frozen => 4
  | .draining => 5

/-- R317: the 2-byte queue-pair numbers at PEERS. -/
def State.peers (s : State) (b : Barrier) : List Nat :=
  (List.range b.ndom).map fun i => s.hbmVal (paLocal b.peers + 2 * i) 2

/-- R317: the queue pairs of PEERS that lead to the other homes: each pair of the context once; the entry of the own domain, which
R312 does not place, is one whose pair leads nowhere else (log entry 43). -/
def State.otherHomes (s : State) (ctx : Nat) (b : Barrier) : List Nat :=
  (s.peers b).eraseDups.filter fun n => (s.qp n).any fun q => q.ctx == ctx && (q.eth || q.rmod != s.boot.modnum)

/-- R318: a module tells the home of a barrier that it is broken; the home tells its domain and the other homes. -/
def State.tellBroken (s : State) (ctx bar : Nat) (b : Barrier) : State :=
  if b.scope < 3 then s
  else if b.home ≠ s.boot.modnum then s.ctrl b.home ctrlBroken ctx bar 0 0 0
  else
    let s1 := s.links.routes.foldl (fun t r => if r.1 = s.boot.modnum then t else t.ctrl r.1 ctrlBroken ctx bar 0 0 0) s
    (s.otherHomes ctx b).foldl (fun t q => t.sendQp q { mkPacket 9 0 0 s.boot.modnum with sub := ctrlBroken, slot := bar }) s1

/-- A group that stands in its BARWAIT and has not returned; a pending error token returns it at once (R179). -/
def Group.waitsAt (g : Group) (j : Joined) : Bool := j.waiting && j.result.isNone && g.work.tokens == 0

/-- R316, R318: the groups of a context that have joined a barrier, picked by a test, return from their BARWAIT with a value, those that
stand in it at once: for them it is the closing point of R319. -/
def Group.barResult (g : Group) (bar : Nat) (hit : Joined → Bool) (p : Bool) : Group :=
  let mine (j : Joined) : Bool := j.bar == bar && j.result.isNone && hit j && (g.waitsAt j || !j.waiting)
  let closes := g.nivose && g.work.joined.any fun j => mine j && j.waiting
  { g with work := { g.work with
    closed := if closes then g.work.closed + 1 else g.work.closed
    joined := g.work.joined.map fun j =>
      if mine j then { j with result := some p, closed := g.nivose && j.waiting } else j } }

def State.barResult (s : State) (ctx bar : Nat) (hit : Joined → Bool) (p : Bool) : State :=
  (s.mapGroups fun g => if g.ident.ctx = ctx then g.barResult bar hit p else g).resolveIntervals

/-- R318: a barrier breaks here: whoever waits for it, or is yet to wait, returns with p = 1. -/
def State.breakBar (s : State) (ctx bar : Nat) : State :=
  (s.onCtx ctx fun c => { c with bars := assocMap c.bars bar fun b => { b with broken := true } }).barResult ctx bar (fun _ => true) true

/-- R318: every barrier of a context that is not broken yet breaks. -/
def State.breakBarriers (s : State) (ctx : Nat) : State :=
  match s.ctx ctx with
  | none => s
  | some c => c.bars.foldl (fun t b => if b.2.broken then t else (t.tellBroken ctx b.1 b.2).breakBar ctx b.1) s

/-- R268: a context enters FREEZING: its groups stop, its queues freeze, its barriers break. Log entry 49. -/
def State.stopCtx (s : State) (ctx : Nat) (fault : Option FaultRec) : State :=
  let hit := s.groups.filter fun g => g.ident.ctx == ctx && g.phase.isPlaced && !g.phase.isEnded && g.phase != .preempted
  let s1 := hit.foldl (fun t g => t.releaseHolds g.ident.launch g.ident.index .abandon) s
  let s2 := hit.foldl (fun t g =>
      (t.saveControl g.freezeWith).writeCharges ctx (g.sys.ctxinfo.toNat / 2 ^ 16 % 2 ^ 16))
    (s1.mapGroups fun g => if g.ident.ctx = ctx then g.freezeWith else g)
  let s3 := (s2.onCtx ctx fun c => { c with st := if c.st = .ready then .freezing else c.st, fault := fault }).breakBarriers ctx
  let s4 : State := { s3 with fe := { s3.fe with queues := s3.fe.queues.map fun q =>
    if q.2.ctx = ctx then (q.1, { q.2 with st := .frozen }) else q } }
  s4.resolveIntervals

/-- R267, R268: a fatal fault reaches a context. The first one freezes it; a later one is counted. -/
def State.freezeCtx (s : State) (ctx : Nat) (cause addr : BitVec 64) (group : Nat) : State :=
  match s.ctx ctx with
  | none => s
  | some c =>
    match c.fault with
    | some _ => s.onCtx ctx fun c =>
        { c with fault := c.fault.map fun f => { f with further := satAdd32 f.further 1 } }
    | none => s.stopCtx ctx (some ⟨cause, addr, BitVec.ofNat 32 group, 0⟩)

/-! ## Fault domains -/

/-- The regions that are a region or one of its descendants (R267). -/
def Context.under (c : Context) (rid : Nat) (r : Nat) : Bool := (c.path r).any fun x => x.rid == rid

/-- R267, R269: the groups of a launch on some cores stop as R209 states and complete CANCELLED; one that froze with its context
is reported CANCELLED. -/
def State.cancelGroups (s : State) (id : Nat) : List Nat → State
  | [] => s
  | core :: r =>
    let home := s.me.ident.core
    let t := s.focus core
    let t1 := if t.me.ident.core = core ∧ t.me.ident.launch = id ∧ t.me.phase.isPlaced then
        let t2 := if t.me.phase = .frozen then (t.report id t.me.ident.index .cancelled).settleLaunch id
          else if t.me.phase.isEnded then t
          else t.endGroup .done .cancelled true
        t2.teardown t2.me.ident
      else t
    (t1.focus home).cancelGroups id r

/-- The groups of a launch that are not placed and have not completed. -/
def Launch.unplaced (l : Launch) : List Nat :=
  if l.tick.isSome then l.cores.map (·.1)
  else (List.range l.g).filter fun i => decide (l.placed ≤ i) && !l.results.any (fun r => r.1 == i)

/-- The unplaced groups of a launch complete CANCELLED (R298). -/
def Launch.cancelUnplaced (l : Launch) : Launch :=
  let out := l.unplaced.map fun i => (i, Status.cancelled)
  { l with results := l.results ++ out, pendingRecs := l.pendingRecs ++ out, cores := [] }

/-- R293: the cores that a launch holds in reserve are given up. -/
def State.dropReserved (s : State) (id : Nat) : State :=
  { s with fe := { s.fe with reserved := s.fe.reserved.filter fun r => r.2 != id } }

/-- Cancel a launch (R298). -/
def State.cancelLaunch (s : State) (id : Nat) : State :=
  let cores := (s.groups.filter fun g => g.ident.launch == id && g.phase.isPlaced).map (·.ident.core)
  ((((s.dropReserved id).onLaunch id fun l => { l.cancelUnplaced with cancelled := true }).cancelGroups id cores)).settleLaunch id

/-- A queue that holds a cancelled launch freezes; the first launch of the list that it holds is its failed entry. -/
def freezeHolding (ls : List Launch) (q : Nat × HQueue) : Nat × HQueue :=
  match ls.find? (fun l => l.queue == some q.1) with
  | some l => if q.2.st = .active then (q.1, { q.2 with st := .frozen, fault := 1, failed := l.entry }) else q
  | none => q

/-- R267, REGION: cancel every kernel launched into the region or a descendant, the faulting one `id` among them, and freeze the queues
that hold one. The error token of the faulting kernel goes out when its entry completes. -/
def State.regionFault (s : State) (ctx rid id : Nat) : State :=
  match s.ctx ctx with
  | none => s
  | some c =>
    let all := s.fe.launches.filter fun l => l.ctx == ctx && c.under rid l.rid && l.st != .done
    let hit := all.filter (fun l => l.id == id) ++ all.filter fun l => l.id != id
    let s1 := hit.foldl (fun t l => t.cancelLaunch l.id) s
    { s1 with fe := { s1.fe with queues := s1.fe.queues.map (freezeHolding hit) } }

/-- R298: a fault under GROUP while clusters are still unplaced. -/
def State.drainLaunch (s : State) (id : Nat) : State :=
  ((s.dropReserved id).onLaunch id fun l => if l.st = .placing then { l.cancelUnplaced with st := .draining } else l).settleLaunch id

/-- R211 to R213, R267, R301: the group in focus takes a fatal fault; `toCtx` for one that is fatal to the context. -/
def State.fatalFault (s : State) (toCtx : Bool) (cause addr : BitVec 64) : State :=
  let i := s.me.ident
  let rid := s.me.sys.ctxinfo.toNat / 2 ^ 16 % 2 ^ 16
  let dom := match s.ctx i.ctx with
    | some c => if toCtx then 2 else c.fdom rid
    | none => 0
  let s1 := (s.onMe fun g => { g.dropMesh with reason := 4 }).sendTokens
  let s2 := s1.endGroup .frozen .faulted true
  let s2 := s2.saveControl s2.me
  let s3 := match dom with
    | 2 => s2.freezeCtx i.ctx cause addr i.index
    | 1 => s2.regionFault i.ctx rid i.launch
    | _ => s2.drainLaunch i.launch
  s3.teardown i

end Sys2Proof.Machine
end

