-- ==== Sys2Proof/Machine/Ops.lean ====
section
/-! DEFINITION. The shared operations of an item: reading the text (04_encoding R48, R49, R57, R62), issue with exposed
latencies (R56, 05_control R78, 11_model_near R236, R237), positions and delay slots (R85), taking a trap and entering the
handler (10_system R209 to R216), and the return from it (R222, R238). -/

namespace Sys2Proof.Machine

/-- The outcome of a step of this machine. -/
abbrev Out := Host.Outcome State Fault Refusal

/-! ## Text -/

/-- The parcel at a text address (R48, 01_device R15). -/
def Store.parcel (m : Store) (a : Nat) : Nat := (memGet m.text a).toNat + 2 ^ 8 * (memGet m.text (a + 1)).toNat

/-- The 32-bit item at a text address (R49). -/
def Store.word (m : Store) (a : Nat) : Nat := m.parcel a * 2 ^ 16 + m.parcel (a + 2)

/-- The length in bytes of the item whose first parcel is given (R48). -/
def parcelLen (p : Nat) : Nat := if 6 ≤ p / 2 ^ 13 then 2 else 4

/-- R57: the engines that execute a 32-bit word. A BRK word is an item of the engine its d field names, of C for a d above 4
(R225); a broadcast word with an empty mask is taken as C's, which traps at it (log entry 24). -/
def wordMask (w : Nat) : BitVec 5 :=
  let tag := w / 2 ^ 29
  if tag = 5 then
    let m := BitVec.ofNat 5 (fld w 15 5)
    if m = 0 then Engine.c.bit else m
  else if tag = 0 ∧ fld w 22 7 = 0x7F ∧ fld w 0 5 = 3 then
    match engineOfTag (fld w 15 5) with
    | some e => e.bit
    | none => Engine.c.bit
  else
    match engineOfTag tag with
    | some e => e.bit
    | none => 0

/-- R62, R64: the dictionary entry that an engine sees: the group's, but for loads that the engine has not passed. -/
def dictBefore (entry : Nat) (now : Option (BitVec 32)) : List (Option (Nat × Option (BitVec 32))) → Option (BitVec 32)
  | [] => now
  | some (e, old) :: r => if e = entry then old else dictBefore entry now r
  | none :: r => dictBefore entry now r

def Group.dictEntry (g : Group) (e : Engine) (entry : Nat) : Option (BitVec 32) :=
  dictBefore entry (assocGet g.store.dict entry) (g.engine e).dictq

/-- The engines that execute a dictionary reference, as engine `e` sees it (R62): C for a reserved bit or an unloaded entry. -/
def Group.refMask (g : Group) (e : Engine) (p : Nat) : BitVec 5 :=
  if fld p 10 3 = 0 then
    match g.dictEntry e (fld p 0 10) with
    | some w => wordMask w.toNat
    | none => Engine.c.bit
  else Engine.c.bit

/-- The length of the item at an engine's address; a word in the latch takes the place of an item of the length it holds. -/
def Group.itemLen (g : Group) (e : Engine) : Nat :=
  match (g.engine e).latch with
  | some (_, n) => n
  | none => parcelLen (g.store.parcel (g.engine e).cur)

/-- R50: the fields of a header. -/
def hdrLen (w : Nat) : Nat := fld w 16 12
def hdrByReg (w : Nat) : Bool := fld w 15 1 == 1
def hdrCount (w : Nat) : Nat := fld w 0 15
def hdrReg (w : Nat) : BitVec 5 := bvf w 0 5

/-- Whether the item at an address is a block header inside the text (R48, R54). -/
def Store.isHeader (m : Store) (a : Nat) : Bool :=
  decide (a + 4 ≤ m.tlen) && a % 2 == 0 && m.parcel a / 2 ^ 12 == 10

/-- Where a look-ahead stands: the address, the block stack, and how many of the innermost levels it has walked from the start of
their bodies. -/
structure Ahead where
  cur : Nat
  stack : List Level
  walked : Nat
  deriving DecidableEq, Repr

/-- R86: what the look-ahead of engine `e` passes, by the walk of R52; none at an item of `e`. Log entry 7. -/
def Group.aheadItem (g : Group) (e : Engine) (x : Ahead) : Option Ahead :=
  if g.store.tlen ≤ x.cur then none
  else
    let p := g.store.parcel x.cur
    if p / 2 ^ 12 = 10 then
      let w := g.store.word x.cur
      let k := if hdrByReg w then (g.sreg (hdrReg w)).toNat else hdrCount w
      let body := x.cur + 4
      let last := body + 2 * hdrLen w
      if 32767 < k then none
      else if k = 0 then some { x with cur := last }
      else some ⟨body, ⟨body, last, k⟩ :: x.stack, x.walked + 1⟩
    else if p / 2 ^ 13 = 6 then some { x with cur := x.cur + 2 }
    else if p / 2 ^ 13 = 7 then
      if inMask (g.refMask e p) e then none else some { x with cur := x.cur + 2 }
    else if inMask (wordMask (g.store.word x.cur)) e then none
    else some { x with cur := x.cur + 4 }

/-- One step of the look-ahead: a block end, or an item. A level whose body it has walked from its start without meeting an item of `e`
holds none, and its further passes are left out (R52). -/
def Group.aheadStep (g : Group) (e : Engine) (x : Ahead) : Option Ahead :=
  match x.stack with
  | l :: r =>
    if l.last = x.cur then
      if x.walked = 0 ∧ 1 < l.passes then some ⟨l.body, { l with passes := l.passes - 1 } :: r, 1⟩
      else some ⟨x.cur, r, x.walked - 1⟩
    else g.aheadItem e x
  | [] => g.aheadItem e x

/-- The look-ahead: the address that it stops at and the block stack there; the first argument bounds it. -/
def Group.aheadFrom (g : Group) (e : Engine) : Nat → Ahead → Nat × List Level
  | 0, x => (x.cur, x.stack)
  | n + 1, x =>
    match g.aheadStep e x with
    | none => (x.cur, x.stack)
    | some y => g.aheadFrom e n y

/-- A bound for the look-ahead: each of the levels is walked at most once more than the text. Log entry 7. -/
def Group.aheadBound (g : Group) : Nat := 10 * g.store.tlen + 20

/-- The next item of engine `e` from an address and a block stack on: its address, and the stack there. -/
def Group.ahead (g : Group) (e : Engine) (cur : Nat) (stack : List Level) : Nat × List Level :=
  g.aheadFrom e g.aheadBound ⟨cur, stack, 0⟩

/-- The address of the next item of engine `e`. Log entry 7. -/
def Group.nextItem (g : Group) (e : Engine) : Nat := (g.ahead e (g.engine e).cur (g.engine e).stack).1

/-! ## Positions -/

/-- R86: a position as a 64-bit value. Log entry 7. -/
def Pos.save : Pos → BitVec 64
  | .seq => 0xFFFFFFFFFFFFFFFF
  | .item a => BitVec.ofNat 64 (a % 2 ^ 62)
  | .target .jump a => BitVec.ofNat 64 (2 ^ 62 + a % 2 ^ 62)
  | .target .call a => BitVec.ofNat 64 (2 * 2 ^ 62 + a % 2 ^ 62)
  | .target .ret a => BitVec.ofNat 64 (3 * 2 ^ 62 + a % 2 ^ 62)

/-- A position from its 64-bit value. Log entry 7. -/
def Pos.load (w : BitVec 64) : Pos :=
  if w = 0xFFFFFFFFFFFFFFFF then .seq
  else
    let a := w.toNat % 2 ^ 62
    match w.toNat / 2 ^ 62 with
    | 0 => .item a
    | 1 => .target .jump a
    | 2 => .target .call a
    | _ => .target .ret a

/-- C's pc, never SEQ (R85). Log entry 7. -/
def Group.cPos (g : Group) : Pos :=
  match g.eng.c.pc with
  | .seq => .item (g.nextItem .c)
  | p => p

/-- The text address of a position (R215). -/
def Pos.addr : Pos → Nat
  | .seq => 0
  | .item a => a
  | .target _ a => a

/-- The address of the item at which an engine stands. Log entry 7. -/
def Group.itemAddr (g : Group) (e : Engine) : Nat :=
  match (g.engine e).pc with
  | .seq => (g.engine e).cur
  | p => p.addr

/-! ## Traps -/

/-- R214. -/
def trapWord (cause eng info : Nat) : BitVec 64 := BitVec.ofNat 64 (info % 2 ^ 16 * 2 ^ 16 + eng % 8 * 2 ^ 8 + cause)

/-- R215: the causes that give TRAPVA. -/
def hasTrapVa (cause : Nat) : Bool :=
  [causeAlign, causeBounds, causeHandleStale, causeSealStore, causeGenStore, causePending].contains cause

/-- R216: the cut registers. -/
def Group.cutNow (g : Group) : Vector (BitVec 64) 7 :=
  #v[BitVec.ofNat 64 g.eng.c.seq, BitVec.ofNat 64 g.eng.l.seq, BitVec.ofNat 64 g.eng.v.seq, BitVec.ofNat 64 g.eng.m.seq,
     BitVec.ofNat 64 g.eng.s.seq, BitVec.ofNat 64 g.work.lastJob, g.work.wqCount]

/-- R214 to R216: record a trap of an engine code (R214) at an address. Log entry 29. -/
def Group.recordTrap (g : Group) (eng cause info va addr : Nat) : Group :=
  { g with traps :=
    { cause := trapWord cause eng info
      addr := BitVec.ofNat 64 addr
      va := if hasTrapVa cause then BitVec.ofNat 64 va else 0
      savpc := g.cPos.save
      savpc1 := g.eng.c.pc1.save
      savpc2 := g.eng.c.pc2.save
      savann := g.eng.c.annul.setWidth 64
      cut := g.cutNow } }

/-- R211: swap s28 to s31, p7 and h15 with the handler bank. Log entry 29. -/
def Group.swapBank (g : Group) : Group :=
  { g with
    cr := { g.cr with
      s := ((((g.cr.s.set 28 g.bank.s28).set 29 g.bank.s29).set 30 g.bank.s30).set 31 g.bank.s31)
      p := setBit8 g.cr.p 7 g.bank.p7
      h := g.cr.h.set 15 g.bank.h15 }
    bank := ⟨g.cr.s[28], g.cr.s[29], g.cr.s[30], g.cr.s[31], g.cr.p.getLsbD 7, g.cr.h[15]⟩ }

/-- R209, R238: the results of C that have arrived complete, and each keeps a stop record of the register's old value. -/
def Group.stopC (g : Group) : EngineState × Group :=
  let c := g.eng.c
  let kept : EngineState := { c with stops := c.flight.map fun f => ⟨f.reg, g.regVal f.reg⟩ }
  (kept, landAll g ((c.flight.filter (·.arrived)).foldl (fun acc f => insertLand f acc) []))

/-- R211: the text address of the handler's first header. Log entry 29. -/
def Group.handlerText (g : Group) : Nat := (g.sys.thbase &&& ~~~1#64).toNat + 2 ^ 64 - g.store.textVa

/-- R211: C enters handler mode. Its own engine state is kept, and the handler starts with an empty block stack. Log entry 29. -/
def Group.enterHandler (g : Group) : Group :=
  let (kept, g1) := g.stopC
  let g2 := g1.swapBank
  { g2 with
    phase := .handler
    eng := { g2.eng with c :=
      { EngineState.placed with
        pc := .target .jump (g.handlerText % 2 ^ 64), clk := kept.clk, seq := kept.seq, w := kept.w } }
    frames := []
    hand :=
      { csave := some kept, frames := g.frames
        saved := [g2.traps.savpc, g2.traps.savpc1, g2.traps.savpc2, g2.traps.savann]
        first := true, firstH15 := true, written := [], claim := none } }

/-- R209 to R213: a trap of engine code `eng` (5 for the front end) at text address `addr`; `viaBank` for an access through
bank h15. -/
def State.takeTrap (s : State) (eng cause info va addr : Nat) (viaBank : Bool) : State :=
  if s.me.phase = .handler then
    if s.me.hand.first then s.fatalFault true (trapWord causeDouble eng 0) (BitVec.ofNat 64 addr)
    else if viaBank && s.me.hand.firstH15 then s.fatalFault true (trapWord causeDouble eng 0) (BitVec.ofNat 64 va)
    else s.fatalFault true (trapWord cause eng info) (BitVec.ofNat 64 addr)
  else
    let s1 := s.onMe (·.recordTrap eng cause info va addr)
    if s1.me.sys.thbase.getLsbD 0 then s1.onMe (·.enterHandler)
    else s1.fatalFault false (trapWord cause eng info) (BitVec.ofNat 64 addr)

/-- A trap that engine `e` raises at its item. -/
def State.trapAt (s : State) (e : Engine) (cause info va : Nat) (viaBank : Bool) : State :=
  s.takeTrap e.tag cause info va (s.me.itemAddr e) viaBank

/-! ## Issue -/

/-- What an item does at its issue: it completes; it completes as a branch, with the target it takes and whether it annuls
its slots (R85); it stalls, leaving a request behind or not; it traps (R17: without effect, but for SPAIR's first image). -/
inductive Effect where
  | done (s : State)
  | branch (s : State) (target : Option (TKind × Nat)) (annul : Bool)
  | wait
  | waitWith (s : State)
  | trap (cause info va : Nat)
  | trapWith (s : State) (cause info va : Nat)
  deriving DecidableEq, Repr

/-- A checked effect: a failed check is a trap. -/
def ofChk {α : Type} (c : Chk α) (f : α → Effect) : Effect :=
  match c with
  | .error t => .trap t.1 0 t.2
  | .ok a => f a

/-- R85, R57, R95: an engine moves past an item of `len` bytes that issued at cycle `t`; `count` is false for a handler's
item (R216). -/
def EngineState.advance (x : EngineState) (t len : Nat) (count : Bool) : EngineState :=
  { x with
    pc := x.pc1, pc1 := x.pc2, pc2 := .seq, annul := x.annul >>> 1
    cur := x.cur + len
    w := if count then x.w + len / 2 else x.w
    seq := if count then x.seq + 1 else x.seq
    clk := t + 1, slots := x.slots - 1, latch := none, skip := false, waiting := none, waitBuf := none }

/-- R354: the stall cycles of late data count against the buffer of the transfer. -/
def Group.addBuf (g : Group) (b : BitVec 8) (bytes stalls : Nat) : Group :=
  let old := (assocGet g.work.bufs b.toNat).getD (0, 0)
  let new := (old.1 + BitVec.ofNat 64 bytes, old.2 + BitVec.ofNat 64 stalls)
  { g with work := { g.work with bufs := assocSet g.work.bufs b.toNat new } }

/-- Charge a stall that ends now (R354). -/
def Group.chargeStall (g : Group) (e : Engine) (now : Nat) : Group :=
  match (g.engine e).waiting, (g.engine e).waitBuf with
  | some t0, some b => g.addBuf b 0 (cyclesOfNs (now - t0))
  | _, _ => g

/-- The item of engine `e`, of `len` bytes, has issued at cycle `t`. -/
def Group.issued (g : Group) (e : Engine) (t len now : Nat) : Group :=
  let inHandler := g.phase == .handler
  let g1 := (g.chargeStall e now).mapEngine e fun x => x.advance t len (!(inHandler && e == .c))
  { g1 with
    time := { g1.time with lastIssue := now }
    hand := if inHandler then { g1.hand with first := false } else g1.hand }

def State.issued (s : State) (e : Engine) (t len : Nat) : State := s.onMe (·.issued e t len s.time.now)

/-- R84, R85: what a branch leaves for its two slots and its target. -/
def EngineState.branched (x : EngineState) (target : Option (TKind × Nat)) (annul : Bool) : EngineState :=
  { x with
    slots := 2
    pc2 := match target with
      | some (k, t) => .target k t
      | none => x.pc2
    annul := if annul then 3 else x.annul }

/-- The engine stalls (R47). -/
def State.stall (s : State) (e : Engine) (buf : Option (BitVec 8)) : State :=
  s.onEng e fun x => { x with waiting := some (x.waiting.getD s.time.now), waitBuf := buf }

/-- A result that a source register of an item waits for at cycle `t` (R160, R237). -/
def EngineState.lateOf (x : EngineState) (t : Nat) (srcs : List Reg) : Option InFlight :=
  x.flight.find? fun f => f.isLate t && srcs.contains f.reg

/-- What a late source does (R160, R176, R237). -/
def State.onLate (s : State) (e : Engine) (f : InFlight) : State :=
  match f.interval with
  | some k => if s.me.work.closed ≤ k then s.trapAt e causeIllegal 0 0 false else s.stall e none
  | none => if s.me.latm then s.trapAt e causeLatency 0 0 false else s.stall e f.buf

/-- Finish an item from its effect; its length is that of the text as the item issued. -/
def State.finish (s0 : State) (e : Engine) (t : Nat) (viaBank : Bool) : Effect → Out
  | .done s =>
    .next ((s.issued e t (s0.me.itemLen e)).onMe fun g => if viaBank then { g with hand := { g.hand with firstH15 := false } } else g)
  | .branch s target annul => .next ((s.issued e t (s0.me.itemLen e)).onEng e fun x => x.branched target annul)
  | .wait => .next (s0.stall e none)
  | .waitWith s => .next (s.stall e none)
  | .trap cause info va => .next (s0.trapAt e cause info va viaBank)
  | .trapWith s cause info va => .next (s.trapAt e cause info va viaBank)

/-- Only a RUNNING group's engines, and in handler mode C and a claimed M, issue items (R209, R211, R224, R299); engines stop at an
item boundary for a pre-emption (R303), and C of a calendar group holds its first item until TICK (R296). -/
def State.mayRun (s : State) (e : Engine) : Bool :=
  !(s.eng e).stopped &&
  (match s.me.phase with
   | .running => !s.me.work.yielding && (e != .c || s.me.time.hold.all fun t => decide (t ≤ s.time.now))
   | .handler => e == .c || (e == .m && s.me.hand.claim.isSome)
   | _ => false)

/-- R56, R85: engine `e` issues an item with delay count `y` that reads the registers `srcs`. A skipped (R222) or annulled
(R85) item takes its cycle and its sequence number. `quiet` is what an annulled item still does (R64, R90); a skipped one has no
effect at all, and engines that wait for C's copy of a skipped DICTLD or BEM wait on (log entry 42). An engine that may not run issues
nothing. -/
def issueWith (quiet : State → Effect) (e : Engine) (y : BitVec 2) (srcs : List Reg) (s : State)
    (body : State → Nat → Effect) : Out :=
  let x := s.eng e
  let t := x.clk + y.toNat
  if !s.mayRun e then .next s
  else if x.skip then .next ((s.onMe (·.landTo e t)).issued e t (s.me.itemLen e))
  else if x.annul.getLsbD 0 then s.finish e t false (quiet (s.onMe (·.landTo e t)))
  else
    let s1 := s.onMe (·.landTo e t)
    match (s1.eng e).lateOf t srcs with
    | some f => .next (s.onLate e f)
    | none => s.finish e t (s.me.phase == .handler && srcs.contains (.h 15)) (body s1 t)

def issue (e : Engine) (y : BitVec 2) (srcs : List Reg) (s : State) (body : State → Nat → Effect) : Out :=
  issueWith .done e y srcs s body

/-- R70: an item whose fields fail a check of orders 2 to 6 with a cause traps before any register is looked at. -/
def issuePre (bad : Option Nat) (e : Engine) (y : BitVec 2) (srcs : List Reg) (s : State) (body : State → Nat → Effect) : Out :=
  match bad with
  | some c => issue e y [] s fun _ _ => .trap c 0 0
  | none => issue e y srcs s body

/-- The cause of a check on an item's fields, where it fails. -/
def causeIf (b : Bool) (cause : Nat) : Option Nat := if b then some cause else none

/-- The engine that acts: the one whose turn it is. -/
def State.actor (s : State) : Engine :=
  match s.turn with
  | .engine e => e
  | .async => .c

/-! ## Wait records -/

/-- The sequence number that a record of C's present item carries (R216, R363). -/
def Group.itemSeq (g : Group) : Nat := if g.phase = .handler then g.eng.c.seq else g.eng.c.seq + 1

/-- R365: the WAIT record of an item of C that returns now. -/
def State.waitRecord (s : State) (kind setter object : Nat) : State :=
  let since := (s.eng .c).waiting.getD s.time.now
  let waited := min (cyclesOfNs (s.time.now - since)) (2 ^ 32 - 1)
  s.trace 1 0 0 s.me.itemSeq (BitVec.ofNat 64 (waited * 2 ^ 32 + kind * 2 ^ 29 + setter * 2 ^ 26 + object))

/-- R180: a pending cluster error token is consumed. Log entry 58. -/
def State.useToken (s : State) : State :=
  s.onMe fun g => { g with work := { g.work with tokens := g.work.tokens - 1 } }

/-! ## Return from the handler -/

/-- R65 to R68: the assigned major opcodes of a tag. -/
def opAssigned (tag op : Nat) : Bool :=
  match tag with
  | 0 => (decide (1 ≤ op) && decide (op ≤ 0x2D)) || (decide (0x30 ≤ op) && decide (op ≤ 0x77)) || op == 0x7F
  | 1 => decide (1 ≤ op) && decide (op ≤ 0x06)
  | 2 => decide (1 ≤ op) && decide (op ≤ 0x68)
  | 3 => decide (1 ≤ op) && decide (op ≤ 0x0F)
  | 4 => decide (1 ≤ op) && decide (op ≤ 0x08)
  | _ => false

/-- R63: whether a value may stand in the dictionary. -/
def loadable (w : Nat) : Bool :=
  let op := fld w 22 7
  if w / 2 ^ 29 = 5 then op == 0x41 || (decide (0x48 ≤ op) && decide (op ≤ 0x53)) else opAssigned (w / 2 ^ 29) op

/-- R222, R238: C goes on from where it stopped. A record whose register the handler wrote is dropped with its result. -/
def Group.resumeC (g : Group) (kept : EngineState) : Group :=
  let old := kept.stops.filter fun r => !g.hand.written.contains r.reg
  let g1 := old.foldl (fun t r => t.setReg r.reg r.old) g
  g1.setEngine .c { kept with flight := kept.flight.filter (fun f => !g.hand.written.contains f.reg), stops := [] }

/-- R215, R222: the positions that C resumes from: those of the registers that the handler has changed, else C's own. With a new pc C
goes to that position from the block stack that it stopped with, and what stood in the latch is gone; a pc of SEQ, which R85 rules out,
lets C walk on from where it stood, and the count of delay slots stays as it was (log entry 42). -/
def Group.resumePos (g : Group) (kept : EngineState) : EngineState :=
  let changed (i : Nat) (v : BitVec 64) : Bool := g.hand.saved.getD i 0 != v
  let x := if changed 0 g.traps.savpc then { kept with pc := Pos.load g.traps.savpc, latch := none, sub := none } else kept
  { x with
    pc1 := if changed 1 g.traps.savpc1 then Pos.load g.traps.savpc1 else kept.pc1
    pc2 := if changed 2 g.traps.savpc2 then Pos.load g.traps.savpc2 else kept.pc2
    annul := if changed 3 g.traps.savann then g.traps.savann.setWidth 2 else kept.annul }

/-- R222: what becomes of the trapped item of an engine, the next one that it issues. Log entry 29. -/
def EngineState.onReturn (x : EngineState) (mode : Nat) (brk : BitVec 64) : EngineState :=
  match mode with
  | 1 => { x with skip := true }
  | 2 => { x with sub := some (brk.setWidth 32), latch := none }
  | _ => x

/-- R222: the state after RFT; engine `e` raised the trap. Log entries 29 and 42. -/
def Group.rft (g : Group) (kept : EngineState) (e : Engine) (mode : Nat) : Group :=
  let g1 := (landAll g ((g.eng.c.flight).foldl (fun acc f => insertLand f acc) [])).swapBank
  let g2 := (g1.resumeC (g1.resumePos kept))
  { g2 with phase := .running, frames := g.hand.frames, hand := ⟨none, [], [], false, false, [], none⟩ }.mapEngine e
    (·.onReturn mode g.sys.brkword)

end Sys2Proof.Machine
end

