-- ==== Sys2Proof/Machine/Flags.lean ====
section
/-! DEFINITION. Conditions and the flags of the machine: the condition codes of 04_encoding R60 on scalars, on integers of a
width and on floating-point values, the predicates they give (05_control R83), and a predicate in flight (R78). -/

namespace Sys2Proof.Machine

/-- R60: the six conditions, with codes 6 and 7 unassigned. -/
inductive Cond where
  | eq | ne | lt | le | ltn | len
  deriving DecidableEq, Repr

/-- The condition of a code. -/
def condOf (c : Nat) : Option Cond :=
  match c with
  | 0 => some .eq
  | 1 => some .ne
  | 2 => some .lt
  | 3 => some .le
  | 4 => some .ltn
  | 5 => some .len
  | _ => none

/-- R60, R83: a condition on 64-bit words; .lt and .le are signed, .ltn and .len unsigned. -/
def Cond.holds (c : Cond) (a b : BitVec 64) : Bool :=
  match c with
  | .eq => a == b
  | .ne => a != b
  | .lt => a.slt b
  | .le => a.sle b
  | .ltn => a.ult b
  | .len => a.ule b

/-- R60 on the low `w` bits of two numbers. -/
def Cond.holdsInt (c : Cond) (w a b : Nat) : Bool :=
  match c with
  | .eq => a % 2 ^ w == b % 2 ^ w
  | .ne => a % 2 ^ w != b % 2 ^ w
  | .lt => decide (sextNat w a < sextNat w b)
  | .le => decide (sextNat w a ≤ sextNat w b)
  | .ltn => decide (a % 2 ^ w < b % 2 ^ w)
  | .len => decide (a % 2 ^ w ≤ b % 2 ^ w)

/-- R60: a floating-point compare; with a NaN .eq, .lt and .le are false and .ne is true. -/
def Cond.holdsFp (c : Cond) (a b : Fp) : Bool :=
  match c with
  | .eq => fpEq a b
  | .ne => !fpEq a b
  | .lt => fpLt a b
  | .le => fpLt a b || fpEq a b
  | .ltn => false
  | .len => false

/-- R78, R83: write a predicate with the latency of 1 cy. -/
def State.predicate (s : State) (p : BitVec 3) (b : Bool) (t : Nat) : State := s.result .c (.p p) (.bit b) t 1

end Sys2Proof.Machine
end

