-- ==== Sys2Proof/Machine/Operands.lean ====
section
/-! DEFINITION. Operand forms: immediates (04_encoding R58, R81), branch offsets (R69), the memory operand (08_memory_ops R154
to R157), queues as operands (05_control R91, R92), streams as operands (06_vector R100, R122), and the elements of a vector
(R98). -/

namespace Sys2Proof.Machine

/-! ## Immediates -/

/-- R81: SEXT(k, 10). -/
def simm10 (k : BitVec 10) : BitVec 64 := k.signExtend 64

/-- R83: ZEXT(k, 10). -/
def zimm10 (k : BitVec 10) : BitVec 64 := k.setWidth 64

/-- R69: the target of a branch at `a`, whose low 5 bits are cleared, plus a signed count of 32-byte units, as the 62 bits of a position
hold it (R86): below text address 0 they hold the target modulo 2^62, which is no header (log entry 42). -/
def branchTo (a : Nat) (off : Int) : Nat := ((((a - a % 32 : Nat) : Int) + 32 * off) % ((2 ^ 62 : Nat) : Int)).toNat

/-! ## Queues -/

/-- What an operand gives: a value and the state after it is taken, a stall, or a trap. -/
inductive Got (α : Type) where
  | ok (a : α) (s : State)
  | wait
  | trap (cause va : Nat)

/-- Continue with an operand. -/
def Got.then {α : Type} (x : Got α) (f : α → State → Effect) : Effect :=
  match x with
  | .ok a s => f a s
  | .wait => .wait
  | .trap c va => .trap c 0 va

/-- R92, R93: engine `e` pops the oldest entry; it waits while the queue is unbound or empty, and until the accesses that the entry
covers are performed (R241). -/
def State.queuePop (s : State) (e : Engine) (q : BitVec 4) : Got (BitVec 64) :=
  let x := s.me.queue q
  match x.bind with
  | none => .wait
  | some (_, k) =>
    if k = e then
      match x.entries with
      | [] => .wait
      | v :: r =>
        if s.allDone (x.covers.headD []) then .ok v (s.onMe (·.setQueue q { x with entries := r, covers := x.covers.tail, owed := x.owed.tail }))
        else .wait
    else .trap causeQueueCfg 0

/-- R92: engine `e` reads the oldest entry and leaves it. -/
def State.queuePeek (s : State) (e : Engine) (q : BitVec 4) : Got (BitVec 64) :=
  match s.queuePop e q with
  | .ok v _ => .ok v s
  | x => x

/-- The vectors that each stream has received. -/
def Group.received (g : Group) : List Nat := g.streams.toList.map fun z => z.taken

/-- R91, R92: engine `e` pushes an entry; it waits while the queue is unbound or holds 8. -/
def State.queuePush (s : State) (e : Engine) (q : BitVec 4) (v : BitVec 64) : Got Unit :=
  let x := s.me.queue q
  match x.bind with
  | none => .wait
  | some (p, _) =>
    if p = e then
      if 8 ≤ x.entries.length then .wait else .ok () (s.onMe (·.setQueue q
          { x with entries := x.entries ++ [v], covers := x.covers ++ [s.coveredBy e], owed := x.owed ++ [s.me.received] }))
    else .trap causeQueueCfg 0

/-! ## Streams -/

/-- R119: the elements of a vector of a stream. -/
def Stream.width (z : Stream) : Nat :=
  match tyOfCode z.fmt with
  | some (.int _ 64) => if z.pat.lanes then 128 else 64
  | some (.flt f) => if f.width = 64 ∧ !z.pat.lanes then 64 else 128
  | _ => 128

/-- R119: the elements of a pattern. -/
def Pattern.total (p : Pattern) : Nat := p.counts.foldl (· * ·) 1

/-- R119: the vectors of a stream. -/
def Stream.vectors (z : Stream) : Nat := (z.pat.total + z.width - 1) / z.width

/-- R122: whether all vectors of a stream with a pattern are `n`. -/
def Stream.isLast (z : Stream) (n : Nat) : Bool := !z.pat.direct && decide (z.vectors ≤ n)

/-- R100, R122: engine `e` pops the head vector of an input stream. V and M claim the stream; S, which reads one for SUPD, neither claims
it nor minds its owner (R127). -/
def State.streamPop (s : State) (e : Engine) (z : BitVec 4) : Got VReg :=
  let x := s.me.stream z
  if x.st = .unbound then .wait
  else if x.pat.drained then .trap causeQueueCfg 0
  else if e ≠ .s ∧ x.owner.any (· != e) then .trap causeQueueCfg 0
  else if x.st = .done then .trap causeBounds 0
  else if x.st = .bound then .wait
  else
    match x.buf with
    | [] => .wait
    | v :: r =>
      let n := x.taken + 1
      .ok v (s.onMe (·.setStream z
        { x with buf := r, taken := n, owner := if e = .s then x.owner else some e, st := if x.isLast n then .done else .running }))

/-- R122: append a vector to a drained stream; the writer waits while 8 stand or while every vector of the pattern has been
received and not yet written. -/
def State.streamPush (s : State) (z : BitVec 4) (v : VReg) : Got Unit :=
  let x := s.me.stream z
  if x.st = .unbound then .wait
  else if !x.pat.drained then .trap causeQueueCfg 0
  else if x.st = .done then .trap causeBounds 0
  else if x.st = .bound ∨ 8 ≤ x.buf.length ∨ x.isLast x.taken then .wait
  else .ok () (s.onMe (·.setStream z { x with buf := x.buf ++ [v], taken := x.taken + 1 }))

/-! ## Vector operands -/

/-- R98: a vector of 128 lanes given lane by lane. -/
def mkLanes (f : Nat → BitVec 32) : Vector (BitVec 32) 128 := Vector.ofFn fun i => f i.val

/-- A lane. -/
def VReg.lane (v : VReg) (i : Nat) : BitVec 32 := v.lanes.getD i 0

/-- R98: element `k` of width `w` as a number. -/
def VReg.elem (v : VReg) (w k : Nat) : Nat :=
  if w = 64 then (v.lane (2 * k)).toNat + 2 ^ 32 * (v.lane (2 * k + 1)).toNat else (v.lane k).toNat % 2 ^ w

/-- R98: the number of elements of a width. -/
def elemCount (w : Nat) : Nat := if w = 64 then 64 else 128

/-- R98: an 8- or 16-bit element extended to its lane by the type. -/
def laneOf (ty : Ty) (n : Nat) : BitVec 32 :=
  match ty with
  | .int true w => BitVec.ofNat 32 (wrapInt 32 (sextNat w n))
  | .int false w => BitVec.ofNat 32 (n % 2 ^ w)
  | .flt f => BitVec.ofNat 32 (n % 2 ^ f.width)
  | .bx => BitVec.ofNat 32 n

/-- R98: a vector from its elements; `g k` is the number of element `k`. -/
def mkElems (ty : Ty) (g : Nat → Nat) (exp : BitVec 16) : VReg :=
  if ty.bits = 64 then
    ⟨mkLanes fun i => BitVec.ofNat 32 (g (i / 2) / 2 ^ (32 * (i % 2))), exp⟩
  else ⟨mkLanes fun i => laneOf ty (g i), exp⟩

/-- The exponent field as a signed number (R25). -/
def VReg.expInt (v : VReg) : Int := v.exp.toInt

/-- A vector register as a BX32 vector. -/
def VReg.toBx (v : VReg) : BxVec := ⟨(List.range 128).map fun i => (v.lane i).toInt, v.expInt⟩

/-- A BX32 vector as a register. -/
def BxVec.toVReg (b : BxVec) : VReg :=
  ⟨mkLanes fun i => BitVec.ofInt 32 (b.lanes.getD i 0), BitVec.ofInt 16 b.exp⟩

/-- R100: a queue entry as a vector. For 64-bit elements every pair holds the whole entry; else every lane its low half. -/
def queueVec (wide : Bool) (v : BitVec 64) : VReg :=
  ⟨mkLanes fun i => if wide && i % 2 == 1 then BitVec.ofNat 32 (v.toNat / 2 ^ 32) else v.setWidth 32, 0⟩

/-- R61, R99, R100: the operand b of a V word; `zq` for the odd opcode, `wide` for 64-bit elements. -/
def State.vsrc (s : State) (zq : Bool) (b : BitVec 5) (wide : Bool) : Got VReg :=
  if zq then
    let n : BitVec 4 := b.setWidth 4
    if b.getLsbD 4 then
      match s.queuePop .v n with
      | .ok v s1 => .ok (queueVec wide v) s1
      | .wait => .wait
      | .trap c va => .trap c va
    else s.streamPop .v n
  else .ok (s.me.vreg b) s

/-- The registers that a V operand reads. -/
def vregSrcs (zq : Bool) (b : BitVec 5) : List Reg := if zq then [] else [.v b]

/-! ## Places -/

/-- R154: the places of a scratchpad address: a core's scratchpad, own or a member's. -/
inductive Place where
  | own (a : Nat)
  | member (rank a : Nat)
  deriving DecidableEq, Repr

/-- R154: the place of an address; a window address that names the issuing group's rank is its own scratchpad. -/
def placeOf (i : Ident) (a : Nat) : Option Place :=
  if a < 2 ^ 26 then some (.own a)
  else if 2 ^ 30 ≤ a ∧ a < 2 ^ 31 then
    let r := a / 2 ^ 26 % 16
    if r < i.csize then (if r = i.rank then some (.own (a % 2 ^ 26)) else some (.member r (a % 2 ^ 26))) else none
  else none

/-- R219: whether a range of scratchpad bytes (or of accumulator words) of a core holds a word pending for the group. -/
def Group.isPending (g : Group) (acc : Bool) (core lo n : Nat) : Bool :=
  g.pendOn && g.work.pend.any fun p => p.acc == acc && p.core == core && decide (p.lo < lo + n) && decide (lo < p.hi)

/-- Bytes of the own scratchpad. -/
def Group.spadBytes (g : Group) (a n : Nat) : List Byte := memBytes g.store.spad a n
def Group.spadVal (g : Group) (a n : Nat) : Nat := memVal g.store.spad a n

/-- Write bytes of the own scratchpad. -/
def Group.spadPut (g : Group) (a : Nat) (bs : List Byte) : Group :=
  { g with store := { g.store with spad := memPut g.store.spad a bs } }

/-- R381: a record of `n` bytes in the own scratchpad, its address checked for alignment and then for bounds. -/
def Group.record (g : Group) (a align n : Nat) : Chk (List Byte) := do
  need (a % align == 0) causeAlign a
  need (decide (a + n ≤ 2 ^ 26)) causeBounds a
  need (!g.isPending false g.ident.core a n) causePending a
  return g.spadBytes a n

end Sys2Proof.Machine
end

