-- ==== Sys2Proof/Machine/BarrierOps.lean ====
section
/-! DEFINITION. What joins, arrivals and releases do to a barrier (20_barrier R314 to R318). -/

namespace Sys2Proof.Machine

/-- A barrier of a context. -/
def State.bar (s : State) (ctx bar : Nat) : Option Barrier :=
  match s.ctx ctx with
  | none => none
  | some c => assocGet c.bars bar

def State.onBar (s : State) (ctx bar : Nat) (f : Barrier → Barrier) : State :=
  s.onCtx ctx fun c => { c with bars := assocMap c.bars bar f }

/-- R314: the key of a cluster at cluster scope, 0 at the wider scopes. -/
def clusterKey (b : Barrier) (i : Ident) : Nat := if b.scope = 1 then i.launch * 2 ^ 32 + i.cluster + 1 else 0

/-- R314: the joins that complete an episode. -/
def barGoal (b : Barrier) (i : Ident) : Nat := if b.scope = 1 then i.csize else b.pcount

/-- Add to the first episode that a test picks. -/
def addFirst (ok : Episode → Bool) (f : Episode → Episode) : List Episode → Option (List Episode × Nat)
  | [] => none
  | x :: r =>
    if ok x then some (f x :: r, x.num)
    else match addFirst ok f r with
      | some (l, n) => some (x :: l, n)
      | none => none

/-- Add to an episode, or to a new one behind the others. -/
def Barrier.count (b : Barrier) (key goal : Nat) (ok : Episode → Bool) (f : Episode → Episode) : Barrier × Nat :=
  match addFirst ok f b.episodes with
  | some (l, n) => ({ b with episodes := l }, n)
  | none =>
    let x : Episode := { num := b.opened, cluster := key, goal := goal, joins := 0, counter := 0, stamps := [], tick := none }
    ({ b with episodes := b.episodes ++ [f x], opened := b.opened + 1 }, b.opened)

/-- R314: a join with the bytes that it announces, to the oldest episode whose joins are not complete. -/
def Barrier.join (b : Barrier) (key goal : Nat) (bytes : BitVec 40) : Barrier × Nat :=
  b.count key goal (fun x => x.cluster == key && decide (x.joins < x.goal)) fun x =>
    { x with joins := x.joins + 1, counter := x.counter + bytes }

/-- The number by which a home counts its own domain's stamp. -/
def ownDomain : Nat := 16

/-- R317: the home has stamped the episode's completion. -/
def Episode.releasing (x : Episode) : Bool := x.stamps.any fun p => p.1 == ownDomain

/-- R315: an arrival, against the oldest episode not released; a RELEASING one is passed over (R316). -/
def Barrier.arrive (b : Barrier) (key goal bytes : Nat) : Barrier :=
  (b.count key goal (fun x => x.cluster == key && !x.releasing) fun x =>
    { x with counter := x.counter - BitVec.ofNat 40 bytes }).1

/-- R316: an episode that can be released. -/
def Episode.complete (x : Episode) : Bool := x.joins == x.goal && x.counter == 0

/-- R317: the home stamps a complete episode with its pod time and sends the stamp to every other home. -/
def State.stamp (s : State) (ctx bar : Nat) (b : Barrier) (x : Episode) : State :=
  let s1 := s.onBar ctx bar fun b => { b with episodes := b.episodes.map fun y =>
    if y.num = x.num then { y with stamps := y.stamps ++ [(ownDomain, s.time.now)] } else y }
  (s.otherHomes ctx b).foldl (fun t q => t.sendQp q
    { mkPacket 9 0 0 s.boot.modnum with
      sub := ctrlStamp, slot := bar, firing := x.num, value := BitVec.ofNat 64 s.time.now }) s1

/-- R317: with all stamps the release tick is fixed; one that has passed raises the late count. -/
def fixTick (now : Nat) (b : Barrier) : Barrier :=
  let one (x : Episode) : Episode :=
    if x.tick.isNone && x.releasing && decide (b.ndom ≤ x.stamps.length) then
      { x with tick := some ((x.stamps.map (·.2)).foldl Nat.max 0 + (if b.xmargin = 0 then 400 else b.xmargin)) }
    else x
  let l := b.episodes.map one
  let late := (l.filter fun x => x.tick.any fun t => decide (t < now)).length -
    (b.episodes.filter fun x => x.tick.any fun t => decide (t < now)).length
  { b with episodes := l, late := satAdd32 b.late late }

/-- R316: an episode leaves the barrier when it is released, and the number rises. -/
def Barrier.release (b : Barrier) (num : Nat) : Barrier :=
  { b with episodes := b.episodes.filter fun x => x.num ≠ num, opened := max b.opened (num + 1) }

/-- R316: tell the other modules of a domain that an episode is released; a module knows its members by the routes it holds. -/
def State.tellRelease (s : State) (ctx bar num : Nat) (b : Barrier) : State :=
  if b.scope < 3 then s
  else s.links.routes.foldl (fun t r =>
    if r.1 = s.boot.modnum then t else t.ctrl r.1 ctrlRelease ctx bar num 0 0) s

/-- R316: the groups of this module that joined an episode return from their BARWAIT. -/
def State.localRelease (s : State) (ctx bar num : Nat) : State :=
  (s.onBar ctx bar (·.release num)).barResult ctx bar (fun j => j.ep == some num) false

/-- R316: release an episode at its home. -/
def State.releaseEpisode (s : State) (ctx bar num : Nat) (b : Barrier) : State :=
  (s.localRelease ctx bar num).tellRelease ctx bar num b

/-- R316, R317: the home looks at its episodes after an event. -/
def State.barEval (s : State) (ctx bar : Nat) : State :=
  match s.bar ctx bar with
  | none => s
  | some b =>
    if b.broken || b.home != s.boot.modnum then s
    else
      b.episodes.foldl (fun t x =>
        if x.complete then
          if b.scope = 4 then (if x.releasing then t else t.stamp ctx bar b x)
          else t.releaseEpisode ctx bar x.num b
        else t) s |>.onBar ctx bar (fixTick s.time.now)

/-! ## Joins -/

/-- R253: what a join of the group in focus waits for: its accesses that are open, but for the atomics of its own open interval, which
only the BARWAIT to come can close (log entry 28), and those that the home has performed and whose invalidations are outstanding. -/
def State.joinWaits (s : State) : List Nat :=
  let me := s.me.ident
  let held := (s.intervalAtomics.filter s.me.inOpen).map (·.tag)
  (s.openOf me.core).filter (fun t => !held.contains t) ++
    ((s.links.settling.filter fun x => x.core == some me.core || (match x.agent with
      | some (.job c _) => c == me.core
      | _ => false)).map (·.tag))

/-- R179: the group in focus has executed a BARJOIN. -/
def State.barJoin (s : State) (bar : Nat) (b : Barrier) (bytes : BitVec 64) : State :=
  let r := s.newTag
  let j : Joined :=
    { tag := r.1, bar := bar, cluster := clusterKey b s.me.ident, waits := s.joinWaits, bytes := bytes.setWidth 40, sent := false
      ep := none, waiting := false, result := if b.broken then some true else none, closed := false }
  r.2.onMe fun g => { g with work := { g.work with joined := g.work.joined ++ [j] } }

/-- R253: a join may be performed: the accesses that it waits for are, at the barrier's scope. -/
def State.joinDue (s : State) (ctx : Nat) (b : Barrier) (j : Joined) : Bool :=
  !j.sent && j.result.isNone && s.allDone j.waits &&
    (decide (b.scope < 3) || (!(s.links.settling.any fun x => j.waits.contains x.tag) && !s.invalidates ctx))

/-- Change a join. -/
def State.onJoin (s : State) (tag : Nat) (f : Joined → Joined) : State :=
  s.mapGroups fun g => { g with work := { g.work with joined := g.work.joined.map fun j => if j.tag = tag then f j else j } }

/-- R314: a join is counted; a home elsewhere is told of it by a packet. -/
def State.performJoin (s : State) (i : Ident) (b : Barrier) (j : Joined) : State :=
  if b.home = s.boot.modnum then
    let r := b.join j.cluster (barGoal b i) j.bytes
    ((s.onBar i.ctx j.bar fun _ => r.1).onJoin j.tag fun x => { x with sent := true, ep := some r.2 }).barEval i.ctx j.bar
  else
    ((s.onJoin j.tag fun x => { x with sent := true }).onBar i.ctx j.bar fun b => { b with unanswered := b.unanswered + 1 }).ctrl
      b.home ctrlJoin i.ctx j.bar j.tag 0 (j.bytes.setWidth 64)

/-- R253: the joins that can be performed now. -/
def State.noteJoins (s : State) : State :=
  s.groups.foldl (fun t g =>
    g.work.joined.foldl (fun t j =>
      match t.bar g.ident.ctx j.bar with
      | none => t
      | some b => if t.joinDue g.ident.ctx b j then t.performJoin g.ident b j else t) t) s

/-- R315: bytes arrived inside a watch range. -/
def State.barArrive (s : State) (ctx bar key goal bytes : Nat) : State :=
  match s.bar ctx bar with
  | none => s
  | some b =>
    if b.broken || bytes == 0 then s
    else if b.home = s.boot.modnum then (s.onBar ctx bar (·.arrive key goal bytes)).barEval ctx bar
    else s.ctrl b.home ctrlArrival ctx bar 0 0 (BitVec.ofNat 64 bytes)

end Sys2Proof.Machine
end

