-- ==== Sys2Proof/Machine/MemOps.lean ====
section
/-! DEFINITION. Memory, atomic and synchronisation instructions of engine C (08_memory_ops.md). -/

namespace Sys2Proof.Machine

/-! ## The memory operand -/

/-- Where a checked access goes: a byte address of a core's scratchpad, or a virtual address through a handle. -/
inductive Site where
  | spad (core a : Nat)
  | page (h : Handle) (va : Nat)
  deriving DecidableEq, Repr

/-- R58: the handle that base[13:10] names. -/
def baseHandle (b : BitVec 5) : BitVec 4 := b.setWidth 4

/-- The registers that a memory operand reads. -/
def memSrcs (h : BitVec 1) (b : BitVec 5) : List Reg := if h = 1 then [.h (baseHandle b)] else [.s b]

/-- R154: the core of a place. -/
def State.placeSite (s : State) (a : Nat) : Option Site :=
  match placeOf s.me.ident a with
  | none => none
  | some (.own x) => some (.spad s.me.ident.core x)
  | some (.member r x) => (s.member r).map fun g => .spad g.ident.core x

/-- R58, R70: with H = 1, base[14] is zero. -/
def badBase (h : BitVec 1) (b : BitVec 5) : Bool := h == 1 && b.getLsbD 4

/-- R157: the checks of an access of `size` bytes, R219 behind them. -/
def State.site (s : State) (h : BitVec 1) (b : BitVec 5) (off size : Nat) : Chk Site :=
  if h = 0 then do
    let a := (s.me.sreg b).toNat + off
    need (a % size == 0) causeAlign a
    match s.placeSite a with
    | none => .error (causeBounds, a)
    | some (.spad core x) => do
      need (!s.me.isPending false core x size) causePending a
      return .spad core x
    | some p => return p
  else do
    let hd := s.me.hreg (baseHandle b)
    let va := hd.va.toNat + off
    need hd.valid causeHandleStale va
    need (va % size == 0) causeAlign va
    need (decide (va + size ≤ hd.pageEnd)) causeBounds va
    return .page hd va

/-- R160: the assumed latency A. -/
def State.assumed (s : State) (atomic : Bool) : Site → Nat
  | .spad core _ => if core = s.me.ident.core then (if atomic then 12 else 6) else (if atomic then 48 else 40)
  | .page h _ =>
    if h.kind = kindLocal ∨ h.kind = kindGen then (if atomic then 320 else 300)
    else if h.kind = kindHost then (if atomic then 1220 else 1200)
    else (if atomic then 2020 else 2000)

/-- A predicate. -/
def Reg.isPred : Reg → Bool
  | .p _ => true
  | _ => false

/-- R302: the variable-latency results of an engine whose data has not arrived; the predicate of an AFADDB belongs to its old value. -/
def EngineState.outstanding (x : EngineState) : Nat := (x.flight.filter fun f => f.late && !f.arrived && !f.reg.isPred).length

/-- R302: a 33rd outstanding result waits. -/
def State.cFull (s : State) : Bool := decide (32 ≤ (s.eng .c).outstanding)

/-- R353: the buffer of a transfer that C issues. -/
def Group.bufTag (g : Group) : BitVec 8 := g.sys.buftag.setWidth 8

/-- R160: a variable-latency result of C. -/
def State.lateResult (s : State) (r : Reg) (v : Val) (land : Nat) (buf : Option (BitVec 8)) (req interval : Option Nat) : State :=
  s.onMe (·.fly .c (lateFlight r v land buf req interval))

/-- R343, R354: what an access of C through a handle adds to the page's access counter and to the buffer's bytes. -/
def State.tally (s : State) (e : PEntry) (va size : Nat) : State :=
  (s.touch s.me.ident.ctx e va (linesOf va size)).onMe fun g => g.addBuf g.bufTag size 0

/-- R155, R341: the leaf that an access through a handle reaches. -/
def State.handleLeaf (s : State) (va : Nat) : Option PEntry := s.leafOf s.me.ident.ctx va

/-! ## LD and ST -/

/-- R156: the size of an access. -/
def wSize (w : BitVec 3) : Nat := 2 ^ (w.toNat % 4)

/-- R156: the offset of LD and ST. -/
def Group.memOff (g : Group) (w : BitVec 3) (i : BitVec 1) (x : BitVec 5) : Nat :=
  if i = 1 then x.toNat * wSize w else (g.sreg x).toNat

/-- The registers that LD and ST read for their address. -/
def ldstSrcs (h : BitVec 1) (b : BitVec 5) (i : BitVec 1) (x : BitVec 5) : List Reg :=
  memSrcs h b ++ (if i = 1 then [] else [.s x])

/-- R2: a page whose frame lies in a stack that CAPS0 reports absent, or where no memory is (log entry 13). -/
def State.needFrame (s : State) (e : PEntry) : Chk Unit := need (s.frameExists e) causeAbsent 0

/-- A load of C from another module. -/
def State.loadFrom (s : State) (r : Reg) (m la va size : Nat) (signed : Bool) (land : Nat) : State :=
  let pk := { mkPacket 1 0 m s.boot.modnum with ctx := s.me.ident.ctx, len := size, addr := BitVec.ofNat 64 la }
  let s1 := s.lateResult r (.word 0) land (some s.me.bufTag) (some s.links.nextTag) none
  s1.forward pk va (la / 64) (some s.me.ident.core) (some r) size signed

/-- R158, R341: load through a handle. At a holder of a replica it goes to the owner while a store of C to the line is on its way
(R159); on a MIGRATING page it waits for a held atomic that lies over it. Log entry 4. -/
def State.loadPage (s : State) (r : Reg) (hd : Handle) (va size : Nat) (signed : Bool) (land : Nat) : Effect :=
  let ctx := s.me.ident.ctx
  let ext (bs : List Byte) : Val := .word (extendTo signed (8 * size) (leVal bs))
  match s.genAt ctx va with
  | some (_, g) =>
    .done (((s.lateResult r (ext (g.bytes (va - g.vbase) size)) land (some s.me.bufTag) none none)).onMe fun m =>
      m.addBuf m.bufTag size 0)
  | none =>
    match s.handleLeaf va with
    | none => .trap causeHandleStale 0 hd.va.toNat
    | some e =>
      ofChk (s.needFrame e) fun _ =>
        let s1 := s.tally e va size
        if s.heldAtomic ctx va size then .wait
        else
          match s.behindStore s.me.ident.core ctx e va with
          | some x => .done (s1.loadFrom r x.owner (paLocal (x.frame + va % e.size)) va size signed land)
          | none =>
            let pa := e.pa + va % e.size
            if s.readable e then .done (s1.lateResult r (ext (s1.readPage ctx va e size)) land (some s.me.bufTag) none none)
            else .done (s1.loadFrom r (paModule pa) (paLocal pa) va size signed land)

/-- LD (R156 to R160). -/
def execLd (y : BitVec 2) (t b : BitVec 5) (h : BitVec 1) (w : BitVec 3) (i : BitVec 1) (x : BitVec 5) (s : State) : Out :=
  issuePre (causeIf (badBase h b) causeReserved) .c y (ldstSrcs h b i x) s fun s now =>
    let size := wSize w
    let signed := decide (w.toNat < 4)
    ofChk (s.site h b (s.me.memOff w i x) size) fun p =>
      if s.cFull then .wait
      else
        let land := now + s.assumed false p
        match p with
        | .spad core a =>
          let v := match s.groupOn core with
            | some g => memVal g.store.spad a size
            | none => 0
          .done (s.lateResult (.s t) (.word (extendTo signed (8 * size) v)) land none none none)
        | .page hd va => s.loadPage (.s t) hd va size signed land

/-- R158, R207: the checks of a store through a handle, and whether it is dropped at a generator window. -/
def State.storeCheck (s : State) (hd : Handle) (va : Nat) : Chk Bool := do
  need (!hd.sealed) causeSealStore va
  match s.genAt s.me.ident.ctx va with
  | some (_, g) => do
    need (!g.strap) causeGenStore va
    return true
  | none => do
    need hd.wr causePriv va
    return false

/-- R207: a dropped store is counted. -/
def State.genDrop (s : State) (n : Nat) : State :=
  s.onCtx s.me.ident.ctx fun c => { c with gendrop := satAdd32 c.gendrop n }

/-- R158: store through a handle. Log entry 4. -/
def State.storePage (s : State) (hd : Handle) (va : Nat) (bs : List Byte) : Effect :=
  ofChk (s.storeCheck hd va) fun dropped =>
    if dropped then .done (s.genDrop 1)
    else
      match s.handleLeaf va with
      | none => .trap causeHandleStale 0 hd.va.toNat
      | some e =>
        ofChk (s.needFrame e) fun _ =>
          .done ((s.tally e va bs.length).writePage s.me.ident.ctx va e bs (some s.me.ident.core))

/-- R160: a store into a scratchpad; a member that has taken a fatal fault keeps its contents. Log entry 4. -/
def State.storeSpad (s : State) (core a : Nat) (bs : List Byte) : State :=
  s.onCore core fun g => if g.phase = .frozen then g else g.spadPut a bs

/-- ST (R156 to R158). -/
def execSt (y : BitVec 2) (t b : BitVec 5) (h : BitVec 1) (w : BitVec 3) (i : BitVec 1) (x : BitVec 5) (s : State) : Out :=
  issuePre (causeIf (badBase h b) causeReserved) .c y (.s t :: ldstSrcs h b i x) s fun s _ =>
    let size := wSize w
    let bs := leBytes size (s.me.sreg t).toNat
    ofChk (s.site h b (s.me.memOff w i x) size) fun p =>
      match p with
      | .spad core a => .done (s.storeSpad core a bs)
      | .page hd va => s.storePage hd va bs

/-! ## Handles -/

/-- XLATE (R161): latency 24 cy. -/
def execXlate (y : BitVec 2) (d : BitVec 4) (a : BitVec 5) (s : State) : Out :=
  issue .c y [.s a] s fun s t =>
    let va := (s.me.sreg a).toNat
    if 2 ^ 56 ≤ va then .trap causeBounds 0 va
    else
      match s.translate s.me.ident.ctx va s.me.syspriv with
      | none => .trap causeBounds 0 va
      | some hd => .done (s.result .c (.h d) (.handle hd) t 24)

/-- HDROP (R161). -/
def execHdrop (y : BitVec 2) (d : BitVec 4) (s : State) : Out :=
  issue .c y [] s fun s t => .done (s.result .c (.h d) (.handle { (s.me.hreg d) with valid := false }) t 1)

/-- HCHK (R161, R162). -/
def execHchk (y : BitVec 2) (d : BitVec 5) (a : BitVec 4) (s : State) : Out :=
  issue .c y [] s fun s t => .done (s.result .c (.s d) (.word (s.me.hreg a).status) t 2)

/-! ## Sealing -/

/-- The leaves that cover a virtual range, lowest first; the trap names the first page that is not mapped, or is lent out and not
accessible (R341). The first argument bounds them. -/
def State.leaves (s : State) (ctx hi : Nat) : Nat → Nat → Chk (List (Nat × PEntry))
  | 0, _ => .ok []
  | n + 1, va =>
    if hi ≤ va then .ok []
    else
      match (if va < 2 ^ 56 then s.leafOf ctx va else none) with
      | none => .error (causeBounds, va)
      | some e =>
        if e.state = stLeasedOut then .error (causeBounds, va)
        else do
          let l ← s.leaves ctx hi n (e.base va + e.size)
          return (e.base va, e) :: l

/-- R163: the checks of SEAL and UNSEAL. -/
def State.sealCheck (s : State) (lo n : Nat) : Chk (List (Nat × PEntry)) := do
  need (lo % 2 ^ 16 == 0) causeAlign lo
  need (n % 2 ^ 16 == 0) causeAlign lo
  need (n != 0) causeBounds lo
  s.leaves s.me.ident.ctx (lo + n) (n / 2 ^ 16) lo

/-- A forwarded access that writes. -/
def Packet.isStore (p : Packet) : Bool := p.kind == 3 || p.kind == 4

/-- Writes of a context to a range that are not performed: forwarded, held, atomics of intervals. -/
def State.ctxStores (s : State) (ctx lo n : Nat) : Bool :=
  let hit (a : Nat) : Bool := decide (lo ≤ a) && decide (a < lo + n)
  s.links.fwds.any (fun f => f.pkt.ctx == ctx && f.pkt.isStore && hit f.va) ||
  s.pages.held.any (fun w => w.ctx == ctx && hit w.va) ||
  s.intervalAtomics.any fun a => match a.place with
    | .spad _ _ => false
    | .page c va _ _ => c == ctx && hit va

/-- R163: what SEAL waits for on a page: earlier stores by any agent, invalidations, the settling of a MIGRATING page. -/
def State.sealWaits (s : State) (ctx : Nat) (p : Nat × PEntry) : Bool :=
  p.2.state == stMigrating || s.ctxStores ctx p.1 p.2.size ||
    s.pages.holds.any fun h => h.ctx == ctx && h.va == p.1 && !h.waits.isEmpty

/-- R163: one page sealed. -/
def State.sealOne (s : State) (ctx : Nat) (p : Nat × PEntry) : State :=
  if p.2.state = stSealed then s
  else
    let s1 := (s.setPageSt p.2 stSealed).dropHandles ctx p.1 (p.1 + p.2.size)
    if p.2.hostf ∨ paModule p.2.pa ≠ s.boot.modnum then s1
    else { s1 with pages := { s1.pages with
      sealedPages := s1.pages.sealedPages.filter (fun h => !(h.ctx == ctx && h.va == p.1)) ++ [⟨ctx, p.1⟩] } }

/-- R163, R342: one page unsealed: LOCAL at the owner, REMOTE at a holder, whose replica is discarded; its frame returns to the agent
with a DROPPED notification, as R349 has it. -/
def State.unsealOne (s : State) (ctx : Nat) (p : Nat × PEntry) : State :=
  if p.2.state ≠ stSealed then s
  else
    let s1 := s.dropHandles ctx p.1 (p.1 + p.2.size)
    let s2 : State := { s1 with pages := { s1.pages with
      sealedPages := s1.pages.sealedPages.filter fun h => !(h.ctx == ctx && h.va == p.1) } }
    match s2.pages.replicas.find? (fun r => r.ctx == ctx && r.va == p.1) with
    | some r =>
      let w := setBits (setBits p.2.w0 0 52 r.frame) 60 4 stRemote
      { s2.putW0 p.2.addr w with pages := { s2.pages with
        replicas := s2.pages.replicas.filter fun x => !(x.ctx == ctx && x.va == p.1) } }.notify ctx p.1 5 0
    | none =>
      s2.setPageSt p.2 (if p.2.hostf ∨ paModule p.2.pa ≠ s.boot.modnum then stRemote else stLocal)

/-- The frame of a page that every module knows: the owner's of a replica. -/
def State.homeFrame (s : State) (ctx : Nat) (p : Nat × PEntry) : Nat :=
  match s.pages.replicas.find? (fun r => r.ctx == ctx && r.va == p.1) with
  | some r => r.frame
  | none => p.2.pa

/-- R163, R342: a SEAL or UNSEAL of a page begins: every other module is asked to do the same with the page that has its frame
(log entry 40); a frame of host memory is this module's alone. -/
def State.startSealing (s : State) (thaw : Bool) (ctx : Nat) (p : Nat × PEntry) : State :=
  let others := if p.2.hostf then [] else (s.links.routes.map (·.1)).filter (· != s.boot.modnum)
  let r := s.newTag
  let x : Sealing := ⟨none, r.1, thaw, ctx, p.1, s.homeFrame ctx p, others⟩
  let s1 : State := { r.2 with pages := { r.2.pages with sealings := r.2.pages.sealings ++ [x] } }
  others.foldl (fun t m => t.ctrl m (if thaw then ctrlThaw else ctrlFrozen) ctx 0 x.tag (BitVec.ofNat 64 x.frame) 0) s1

/-- The sealings of this module's groups on a range. -/
def State.sealingsOf (s : State) (thaw : Bool) (ctx lo n : Nat) : List Sealing :=
  s.pages.sealings.filter fun x => x.asker.isNone && x.thaw == thaw && x.ctx == ctx && decide (lo ≤ x.va) && decide (x.va < lo + n)

/-- They are over. -/
def State.endSealings (s : State) (l : List Sealing) : State :=
  { s with pages := { s.pages with sealings := s.pages.sealings.filter fun x => !l.contains x } }

/-- SEAL (R163): the other modules are asked once the stores of this one are performed; the pages are sealed once all have answered.
Log entry 40. -/
def execSealPages (y : BitVec 2) (d a : BitVec 5) (s : State) : Out :=
  issue .c y [.s d, .s a] s fun s _ =>
    let lo := (s.me.sreg d).toNat
    let n := (s.me.sreg a).toNat
    let ctx := s.me.ident.ctx
    ofChk (s.sealCheck lo n) fun l =>
      let todo := l.filter fun p => p.2.state != stSealed
      let asked := s.sealingsOf false ctx lo n
      if todo.any (s.sealWaits ctx) then .wait
      else
        let new := todo.filter fun p => !asked.any fun x => x.va == p.1
        let s1 := new.foldl (fun t p => t.startSealing false ctx p) s
        if (s1.sealingsOf false ctx lo n).any fun x => !x.waits.isEmpty then .waitWith s1
        else .done ((todo.foldl (fun t p => t.sealOne ctx p) s1).endSealings (s1.sealingsOf false ctx lo n))

/-- UNSEAL (R163): the pages change at once, and C waits until the last replica has gone. Log entry 40. -/
def execUnsealPages (y : BitVec 2) (d a : BitVec 5) (s : State) : Out :=
  issue .c y [.s d, .s a] s fun s _ =>
    let lo := (s.me.sreg d).toNat
    let n := (s.me.sreg a).toNat
    let ctx := s.me.ident.ctx
    ofChk (s.sealCheck lo n) fun l =>
      let todo := l.filter fun p => p.2.state == stSealed
      let s1 := todo.foldl (fun t p => (t.startSealing true ctx p).unsealOne ctx p) s
      let asked := s1.sealingsOf true ctx lo n
      if asked.any fun x => !x.waits.isEmpty then .waitWith s1 else .done (s1.endSealings asked)

/-! ### SEAL and UNSEAL of other modules -/

/-- The page of a context here that has a frame. -/
def State.pageOfFrame (s : State) (ctx frame : Nat) : Option (Nat × PEntry) :=
  ((s.ctxLeaves ctx).map fun p => (p.2, p.1)).find? fun p => !p.2.hostf && s.homeFrame ctx p == frame

/-- A module asks for a SEAL: handles are invalidated at once. Log entry 40. -/
def State.sealArrive (s : State) (pk : Packet) : State :=
  let frame := pk.addr.toNat
  match s.pageOfFrame pk.ctx frame with
  | none => s.ctrl pk.smod ctrlSettled pk.ctx 0 pk.firing pk.addr 0
  | some p =>
    let s1 := s.dropHandles pk.ctx p.1 (p.1 + p.2.size)
    { s1 with pages := { s1.pages with sealings := s1.pages.sealings ++ [⟨some pk.smod, pk.firing, false, pk.ctx, p.1, frame, []⟩] } }

/-- A module asks for an UNSEAL. Log entry 40. -/
def State.thawArrive (s : State) (pk : Packet) : State :=
  let s1 := match s.pageOfFrame pk.ctx pk.addr.toNat with
    | none => s
    | some p => s.unsealOne pk.ctx p
  s1.ctrl pk.smod ctrlSettled pk.ctx 0 pk.firing pk.addr 0

/-- A module has done what a SEAL or UNSEAL of this one asked. Log entry 40. -/
def State.settledArrive (s : State) (pk : Packet) : State :=
  { s with pages := { s.pages with sealings := s.pages.sealings.map fun (x : Sealing) =>
    if x.asker = none ∧ x.tag = pk.firing then { x with waits := x.waits.filter (· != pk.smod) } else x } }

/-- The SEALs of other modules whose stores of this module are performed. -/
def State.noteSealings (s : State) : State :=
  s.pages.sealings.foldl (fun t x =>
    match x.asker with
    | none => t
    | some m =>
      let finish (u : State) : State := (u.endSealings [x]).ctrl m ctrlSettled x.ctx 0 x.tag (BitVec.ofNat 64 x.frame) 0
      match t.leafOf x.ctx x.va with
      | none => finish t
      | some e => if t.sealWaits x.ctx (x.va, e) then t else finish (t.sealOne x.ctx (x.va, e))) s

/-! ## Bindings -/

/-- The first byte of a range that lies neither on a mapped page nor in a generator window; the first argument bounds the pages. -/
def State.firstGap (s : State) (ctx hi : Nat) : Nat → Nat → Option Nat
  | 0, va => if hi ≤ va then none else some va
  | n + 1, va =>
    if hi ≤ va then none
    else if 2 ^ 56 ≤ va then some va
    else
      match s.genAt ctx va with
      | some (_, g) => s.firstGap ctx hi n (g.vbase + g.size)
      | none =>
        match s.leafOf ctx va with
        | none => some va
        | some e => s.firstGap ctx hi n (e.base va + e.size)

/-- Whether every byte of a range is mapped. -/
def State.mapped (s : State) (ctx hi n va : Nat) : Bool := (s.firstGap ctx hi n va).isNone

/-- R164: every byte of a range is mapped, or the trap names the first one that is not. -/
def State.needMapped (s : State) (ctx lo n pages : Nat) : Chk Unit :=
  match s.firstGap ctx (lo + n) pages lo with
  | none => .ok ()
  | some va => .error (causeBounds, va)

/-- R164: the checks of BIND on its record. -/
def State.bindCheck (s : State) (k : Nat) (r : List Byte) (at_ : Nat) : Chk Binding := do
  let obj := recField r 0 8
  let base := recField r 8 8
  let len := recField r 16 8
  need (obj % 8 == 0) causeAlign obj
  need (base % 64 == 0) causeAlign base
  need (len % 64 == 0) causeAlign base
  need (recZero r 24 8) causeReserved 0
  need (len != 0) causeBounds base
  s.needMapped s.me.ident.ctx base len (len / 2 ^ 16 + 2)
  s.needMapped s.me.ident.ctx obj 8 2
  need ((s.myCtx.bind fun c => assocGet c.binds k).isNone) causeBounds at_
  return ⟨obj, base, len⟩

/-- BIND (R164). -/
def execBind (y : BitVec 2) (a : BitVec 5) (k : BitVec 10) (s : State) : Out :=
  issue .c y [.s a] s fun s _ =>
    let at_ := (s.me.sreg a).toNat
    ofChk (s.me.record at_ 32 32) fun r =>
      ofChk (s.bindCheck k.toNat r at_) fun b =>
        .done (s.onCtx s.me.ident.ctx fun c => { c with binds := assocSet c.binds k.toNat b })

/-- UNBIND (R164). -/
def execUnbind (y : BitVec 2) (k : BitVec 10) (s : State) : Out :=
  issue .c y [] s fun s _ => .done (s.onCtx s.me.ident.ctx fun c => { c with binds := assocDrop c.binds k.toNat })

/-! ## Acquire and release -/

/-- R165, R166: what an ACQ needs of its object's address: aligned and mapped, as an access of 8 bytes (log entry 27); the object. -/
def State.objCheck (s : State) (va : Nat) : Chk Nat := do
  need (va % 8 == 0) causeAlign va
  match (if va < 2 ^ 56 then s.leafOf s.me.ident.ctx va else none), s.objKey s.me.ident.ctx va with
  | some e, some key => do
    s.needFrame e
    return key
  | _, _ => .error (causeBounds, va)

/-- ACQ of an object whose home is this module. -/
def State.acqHere (s : State) (o : SyncObj) (p : BitVec 3) (ex : Bool) (t : Nat) : Effect :=
  let i := s.me.ident
  let mine (h : SyncHold) : Bool := h.isOf s.boot.modnum i.launch i.index
  let h : SyncHold := ⟨s.boot.modnum, i.launch, i.index, 0, ex⟩
  let o1 := if o.waiters.any mine then o else { o with waiters := o.waiters ++ [h] }
  if o.holders.any mine then .trap causeIllegal 0 0
  else if s.me.work.tokens ≠ 0 then
    .done ((((s.putObj { o with waiters := o.waiters.filter fun h => !mine h }).useToken).waitRecord 3 7 0).predicate p true t)
  else if s.mayGrant o1 h then .done (((s.grant o1 h).waitRecord 3 6 0).predicate p false t)
  else .waitWith (s.putObj o1)

/-- ACQ of an object whose home is another module: the request goes there, and the grant comes back (log entry 41). -/
def State.acqThere (s : State) (key : Nat) (p : BitVec 3) (ex : Bool) (t : Nat) : Effect :=
  let i := s.me.ident
  match s.askOf key i.launch i.index with
  | none =>
    if s.me.work.tokens ≠ 0 then .done ((s.useToken.waitRecord 3 7 0).predicate p true t)
    else .waitWith (s.ask i.ctx key i.launch i.index ex)
  | some a =>
    if a.isHeld then .trap causeIllegal 0 0
    else if s.me.work.tokens ≠ 0 then .done ((((s.dropAsk a .withdraw).useToken).waitRecord 3 7 0).predicate p true t)
    else if a.isGranted then
      let held : State := { s with links := { s.links with asks := s.links.asks.map fun (x : SyncAsk) =>
        if x.tag = a.tag then { x with isHeld := true } else x } }
      .done ((held.waitRecord 3 6 0).predicate p false t)
    else .wait

/-- ACQ.ex, ACQ.sh (R166). Log entry 27. -/
def execAcq (y : BitVec 2) (d : BitVec 5) (p : BitVec 3) (x : BitVec 1) (s : State) : Out :=
  issue .c y [.s d] s fun s t =>
    ofChk (s.objCheck (s.me.sreg d).toNat) fun key =>
      if s.isHome key then s.acqHere (s.obj s.me.ident.ctx key) p (x == 1) t else s.acqThere key p (x == 1) t

/-- R166, R251: what REL waits for: the stores and atomics of the group that are not performed, and invalidations outstanding. It does
not wait for the atomics of the group's own open interval, whose end only the group itself can bring (log entry 28). -/
def State.relWaits (s : State) : Bool :=
  let me := s.me.ident
  s.links.fwds.any (fun f => f.core == some me.core && f.pkt.isStore) ||
  s.pages.held.any (fun w => w.core == some me.core) ||
  s.intervalAtomics.any (fun a => a.core == me.core && !s.me.inOpen a) ||
  s.settles me.core || s.invalidates me.ctx

/-- Whether the group holds an object, and how the hold ends. -/
def State.relOf (s : State) (key : Nat) : Option State :=
  let i := s.me.ident
  if s.isHome key then
    let o := s.obj i.ctx key
    if o.holders.any fun h => h.isOf s.boot.modnum i.launch i.index then some (s.letGo o s.boot.modnum i.launch i.index .rel) else none
  else ((s.askOf key i.launch i.index).filter (·.isHeld)).map fun a => s.dropAsk a .rel

/-- REL (R166). Log entry 27. -/
def execRel (y : BitVec 2) (d : BitVec 5) (s : State) : Out :=
  issue .c y [.s d] s fun s _ =>
    match (s.objKey s.me.ident.ctx (s.me.sreg d).toNat).bind s.relOf with
    | none => .trap causeIllegal 0 0
    | some t => if s.relWaits then .wait else .done t

/-! ## FENCE -/

/-- R169: what a FENCE of a scope waits for, atomics of the group's open interval among it (R246). Log entry 28. -/
def State.fenceWaits (s : State) (scope : Nat) : Bool := s.accessWaits scope true

/-- FENCE (R169); scope codes 5 to 7 are ILLEGAL. -/
def execFence (y : BitVec 2) (k : BitVec 3) (s : State) : Out :=
  issuePre (causeIf (decide (5 ≤ k.toNat)) causeIllegal) .c y [] s fun s _ =>
    if s.fenceWaits k.toNat then .wait
    else .done s

/-! ## The tag table -/

/-- R170: the base and the size of an entry's virtual range. -/
def TagEntry.size (e : TagEntry) : Nat := 2 ^ (12 + e.sz)
def TagEntry.base (e : TagEntry) : Nat := e.tag * e.size

/-- R171: the result of TLOOK. -/
def Store.lookup (m : Store) (va : Nat) : BitVec 64 :=
  match m.tags.find? (fun p => p.2.tag == va / p.2.size) with
  | none => 0xFFFF
  | some (n, e) => BitVec.ofNat 64 (n + 2 ^ 16 * (e.slot + va % e.size))

/-- TLOOK (R171): latency 3 cy. -/
def execTlook (y : BitVec 2) (d a : BitVec 5) (s : State) : Out :=
  issue .c y [.s a] s fun s t =>
    .done (s.result .c (.s d) (.word (s.me.store.lookup ((s.me.sreg a).toNat % 2 ^ 56))) t 3)

/-- R171: the checks of TSET, in the order of its table. -/
def Store.tsetCheck (m : Store) (n va slot z : Nat) : Chk TagEntry := do
  need (decide (n ≤ 4095)) causeBounds va
  need (decide (z ≤ 4)) causeIllegal 0
  let size := 2 ^ (12 + z)
  need (va % size == 0 && slot % size == 0) causeAlign va
  need (decide (va < 2 ^ 56)) causeBounds va
  need (decide (slot + size ≤ 2 ^ 26)) causeBounds va
  need (m.tags.all fun p => p.1 == n || decide (va + size ≤ p.2.base) || decide (p.2.base + p.2.size ≤ va)) causeBounds va
  return ⟨z, va / size, slot⟩

/-- TSET (R171). -/
def execTset (y : BitVec 2) (d a b : BitVec 5) (z : BitVec 3) (s : State) : Out :=
  issue .c y [.s d, .s a, .s b] s fun s _ =>
    let n := (s.me.sreg d).toNat
    ofChk (s.me.store.tsetCheck n (s.me.sreg a).toNat (s.me.sreg b).toNat z.toNat) fun e =>
      .done (s.onMe fun g => { g with store := { g.store with tags := assocSet g.store.tags n e } })

/-- TCLR (R171): one entry, or every entry. With `.all`, d must be zero. -/
def execTclr (y : BitVec 2) (d : BitVec 5) (l : BitVec 1) (s : State) : Out :=
  issue .c y (if l = 1 then [] else [.s d]) s fun s _ =>
    if l = 1 then
      if d ≠ 0 then .trap causeReserved 0 0
      else .done (s.onMe fun g => { g with store := { g.store with tags := [] } })
    else
      let n := (s.me.sreg d).toNat
      if 4095 < n then .trap causeBounds 0 0
      else .done (s.onMe fun g => { g with store := { g.store with tags := assocDrop g.store.tags n } })

/-! ## Atomics -/

/-- R172: the narrowest scope of a place. -/
def State.leastScope (s : State) : Site → Nat
  | .spad core _ => if core = s.me.ident.core then 0 else 1
  | .page h _ => if h.kind = kindLocal ∨ h.kind = kindHost ∨ h.kind = kindGen then 2 else 3

/-- R172: the checks of an atomic behind those of R157. -/
def State.atomicCheck (s : State) (p : Site) (scope : Nat) : Chk Unit := do
  match p with
  | .spad _ a => need (decide (s.leastScope p ≤ scope)) causeBounds a
  | .page h va => do
    need (!h.sealed) causeSealStore va
    need (h.kind != kindGen) causeGenStore va
    need h.wr causePriv va
    need (decide (s.leastScope p ≤ scope)) causeBounds va

/-- The operands of an atomic: OP - 0x53, type, saturation, v and u (R173). -/
structure AtOp where
  op : Nat
  signed : Bool
  bits : Nat
  sat : Bool
  v : Nat
  u : Nat
  deriving DecidableEq, Repr

/-- R173: the old value into s[d], and for AFADDB its predicate, both landing at `land`. -/
def State.atomicResult (s : State) (o : AtOp) (d : BitVec 5) (p : BitVec 3) (old land : Nat) (added : Bool)
    (buf : Option (BitVec 8)) (req interval : Option Nat) : State :=
  let s1 := s.lateResult (.s d) (.word (extendTo o.signed o.bits old)) land buf req interval
  if o.op = 9 then s1.lateResult (.p p) (.bit added) land buf req interval else s1

/-- R175, R176: an atomic in Nivose mode waits at its home for the close of its interval; one of another party on a byte of the
location traps, in a kernel without RESIDENT. Log entry 20. -/
def State.deferAtomic (s : State) (pl : AtPlace) (o : AtOp) (d : BitVec 5) (p : BitVec 3) (land : Nat) : Effect :=
  let i := s.me.ident
  let resident := ((s.launch i.launch).map (·.kd.resident)).getD false
  let r := s.newTag
  let a : PendAtomic :=
    { tag := r.1, launch := i.launch, cluster := if resident then none else some i.cluster, interval := s.me.work.closed
      index := i.index, seq := s.me.itemSeq, core := i.core, place := pl, op := o.op, signed := o.signed, bits := o.bits, sat := o.sat
      v := o.v, u := o.u, req := s.me.itemSeq }
  if !resident && s.intervalAtomics.any (fun b => b.hits a && !(b.launch == a.launch && b.cluster == a.cluster)) then
    .trap causeFootprint 0 0
  else
    let s1 := r.2.atomicResult o d p 0 land false none (some a.req) (some a.interval)
    .done { s1 with mem := { s1.mem with atomics := s1.mem.atomics ++ [a] } }

/-- R172, R173: an atomic performed at its home at once. Log entry 4. -/
def State.performAtomic (s : State) (pl : AtPlace) (frozen : Bool) (o : AtOp) (d : BitVec 5) (p : BitVec 3) (land : Nat)
    (buf : Option (BitVec 8)) : State :=
  let old := s.placeVal pl (o.bits / 8)
  let s1 := if frozen then s
    else s.placePut pl (o.bits / 8) (atomicNew o.op o.signed o.bits o.sat old o.v o.u) s.me.ident.core
  s1.atomicResult o d p old land (!frozen && fetchAdded old o.v o.u) buf none none

/-- R249, R323: an atomic forwarded to the module of its home, with the registers s[d] and s[d + 1] as they are. -/
def State.forwardAtomic (s : State) (m la : Nat) (w : BitVec 2) (o : AtOp) (d : BitVec 5) (p : BitVec 3) (land va : Nat) : State :=
  let pk := { mkPacket 4 1 m s.boot.modnum with
    ctx := s.me.ident.ctx, addr := BitVec.ofNat 64 la, len := 16, sub := atreqSub o.op w.toNat o.sat
    payload := leBytes 8 (s.me.sreg d).toNat ++ leBytes 8 (s.me.sreg (d + 1)).toNat }
  let s1 := s.atomicResult o d p 0 land false (some s.me.bufTag) (some s.links.nextTag) none
  s1.forward pk va (la / 64) (some s.me.ident.core) (some (.s d)) (o.bits / 8) o.signed

/-- R250: an atomic on a page that is MIGRATING from another module takes its place behind the held writes; it is performed at the new
copy, and its result comes then. -/
def State.holdAtomic (s : State) (pl : AtPlace) (o : AtOp) (d : BitVec 5) (p : BitVec 3) (land va : Nat) : State :=
  let i := s.me.ident
  let tag := s.links.nextTag
  let a : PendAtomic :=
    { tag := tag, launch := i.launch, cluster := none, interval := 0, index := i.index, seq := s.me.itemSeq, core := i.core, place := pl
      op := o.op, signed := o.signed, bits := o.bits, sat := o.sat, v := o.v, u := o.u, req := tag }
  let s1 := s.atomicResult o d p 0 land false (some s.me.bufTag) (some tag) none
  s1.hold i.ctx va (List.replicate (o.bits / 8) 0) (some i.core) none none (some a)

/-- R172: an atomic through a handle; in Nivose mode R175 resolves it, wherever its home is (log entry 20). -/
def State.atomicPage (s : State) (hd : Handle) (va : Nat) (w : BitVec 2) (o : AtOp) (d : BitVec 5) (p : BitVec 3) (land : Nat) :
    Effect :=
  let ctx := s.me.ident.ctx
  match s.handleLeaf va with
  | none => .trap causeHandleStale 0 hd.va.toNat
  | some e =>
    let pa := e.pa + va % e.size
    let pl : AtPlace := .page ctx va pa e.hostf
    let s1 := s.tally e va (o.bits / 8)
    ofChk (s.needFrame e) fun _ =>
      if s.me.nivose then s1.deferAtomic pl o d p land
      else if e.state = stMigrating ∧ !s.readable e then .done (s1.holdAtomic pl o d p land va)
      else
        match s.pages.replicas.find? (fun r => r.ctx == ctx && r.va == e.base va) with
        | some r => .done (s1.forwardAtomic r.owner (paLocal (r.frame + va % e.size)) w o d p land va)
        | none =>
          if s.readable e then .done (s1.performAtomic pl false o d p land (some s.me.bufTag))
          else .done (s1.forwardAtomic (paModule pa) (paLocal pa) w o d p land va)

/-- R70: the checks of an atomic on its fields alone. -/
def badAtomic (op : Nat) (t b : BitVec 5) (h : BitVec 1) (w : BitVec 2) (k : BitVec 3) : Option Nat :=
  if badBase h b then some causeReserved
  else causeIf (decide (5 ≤ k.toNat) || (decide (w.toNat % 2 = 0) && decide (8 ≤ op)) || decide (30 ≤ t.toNat)) causeIllegal

/-- The value-returning atomics (R156, R172, R173). `op` is OP - 0x53; t names the register group; the codes and t = 30, 31
are checked before the address (R70). -/
def atomic (op : Nat) (y : BitVec 2) (t b : BitVec 5) (h : BitVec 1) (w : BitVec 2) (k : BitVec 3) (sat : Bool) (p : BitVec 3)
    (s : State) : Out :=
  let d1 := t + 1
  let d2 := t + 2
  issuePre (badAtomic op t b h w k) .c y
      (.s t :: (if op = 2 ∨ op = 9 then [.s d1] else []) ++ (if h = 1 then [.s d2] else []) ++ memSrcs h b) s fun s now =>
      let signed := w.toNat % 2 == 0
      let bits := if w.toNat < 2 then 32 else 64
      let off := if h = 1 then (s.me.sreg d2).toNat else 0
      ofChk (s.site h b off (bits / 8)) fun site =>
        ofChk (s.atomicCheck site k.toNat) fun _ =>
          if s.cFull then .wait
          else
            let o : AtOp := ⟨op, signed, bits, sat, (s.me.sreg t).toNat % 2 ^ bits, (s.me.sreg d1).toNat % 2 ^ bits⟩
            let land := now + s.assumed true site
            match site with
            | .spad core a =>
              let frozen := (s.groupOn core).any fun g => g.phase == .frozen
              if s.me.nivose && !frozen then s.deferAtomic (.spad core a) o t p land
              else .done (s.performAtomic (.spad core a) frozen o t p land none)
            | .page hd va => s.atomicPage hd va w o t p land

/-- AADD (R173); `.s` saturates (R43). -/
def execAadd (y : BitVec 2) (t b : BitVec 5) (h : BitVec 1) (w : BitVec 2) (k : BitVec 3) (q : BitVec 1) (s : State) : Out :=
  atomic 0 y t b h w k (q == 1) 0 s

/-- AXCHG (R173). -/
def execAxchg (y : BitVec 2) (t b : BitVec 5) (h : BitVec 1) (w : BitVec 2) (k : BitVec 3) (s : State) : Out :=
  atomic 1 y t b h w k false 0 s

/-- ACAS (R173). -/
def execAcas (y : BitVec 2) (t b : BitVec 5) (h : BitVec 1) (w : BitVec 2) (k : BitVec 3) (s : State) : Out :=
  atomic 2 y t b h w k false 0 s

/-- AMIN (R173). -/
def execAmin (y : BitVec 2) (t b : BitVec 5) (h : BitVec 1) (w : BitVec 2) (k : BitVec 3) (s : State) : Out :=
  atomic 3 y t b h w k false 0 s

/-- AMAX (R173). -/
def execAmax (y : BitVec 2) (t b : BitVec 5) (h : BitVec 1) (w : BitVec 2) (k : BitVec 3) (s : State) : Out :=
  atomic 4 y t b h w k false 0 s

/-- AAND (R173). -/
def execAand (y : BitVec 2) (t b : BitVec 5) (h : BitVec 1) (w : BitVec 2) (k : BitVec 3) (s : State) : Out :=
  atomic 5 y t b h w k false 0 s

/-- AOR (R173). -/
def execAor (y : BitVec 2) (t b : BitVec 5) (h : BitVec 1) (w : BitVec 2) (k : BitVec 3) (s : State) : Out :=
  atomic 6 y t b h w k false 0 s

/-- AXOR (R173). -/
def execAxor (y : BitVec 2) (t b : BitVec 5) (h : BitVec 1) (w : BitVec 2) (k : BitVec 3) (s : State) : Out :=
  atomic 7 y t b h w k false 0 s

/-- AINCW (R173). -/
def execAincw (y : BitVec 2) (t b : BitVec 5) (h : BitVec 1) (w : BitVec 2) (k : BitVec 3) (s : State) : Out :=
  atomic 8 y t b h w k false 0 s

/-- AFADDB (R173). -/
def execAfaddb (y : BitVec 2) (t b : BitVec 5) (h : BitVec 1) (w : BitVec 2) (k p : BitVec 3) (s : State) : Out :=
  atomic 9 y t b h w k false p s

/-! ## ARED -/

/-- R14: the words of the accumulator store, CAPS1.ACCKIB KiB of 8 bytes a word. -/
def accWords : Nat := 131072

/-- The value of `n` accumulator words. -/
def Store.accVal (m : Store) (w n : Nat) : Nat := memVal m.acc (8 * w) (8 * n)

/-- R32 to R34: a contribution writes a slot's value words and behind them its flag word, of which [63:5] is 0; the reserved words of an
XF320 slot are 0 (log entry 44). -/
def Store.accPut (m : Store) (w n v flags : Nat) : Store :=
  { m with acc := memPutVal m.acc (8 * w) (8 * (if n = 5 then 8 else n + 1)) (v + 2 ^ (64 * n) * (flags % 32)) }

/-- R35: a contribution to the XF320 slot at a word address. Log entry 44. -/
def Store.xfContribute (m : Store) (w : Nat) (x : Fp) : Store :=
  let r := xfAdd (m.accVal w 5) (m.accVal (w + 5) 1) x
  m.accPut w 5 r.1 r.2

/-- R33: the anchor of the region that holds a word. -/
def Store.anchorOf (m : Store) (w : Nat) : Int := m.anchors.getD (w / 4096) 0

/-- R35: a contribution to the XW192 slot. -/
def Store.xwContribute (m : Store) (w : Nat) (x : Fp) : Store :=
  let r := xwAdd (m.anchorOf w) (m.accVal w 3) (m.accVal (w + 3) 1) x
  m.accPut w 3 r.1 r.2

/-- R174: the words of a slot, and of a region, by K. -/
def aredWords (k : BitVec 2) : Nat :=
  match k.toNat with
  | 0 => 8
  | 1 => 4
  | 2 => 4
  | _ => 4096

/-- R174: the checks of ARED. -/
def Group.aredCheck (g : Group) (k : BitVec 2) (w : Nat) (v : BitVec 64) : Chk Unit := do
  let n := aredWords k
  need (w % n == 0) causeAlign w
  need (decide (w + n ≤ accWords)) causeBounds w
  if k = 3 then need (decide (-1280 ≤ v.toInt) && decide (v.toInt ≤ 960)) causeBounds w
  else need (!g.isPending true g.ident.core w n) causePending w

/-- R174: the effect of ARED. -/
def Store.ared (m : Store) (k : BitVec 2) (w : Nat) (v : BitVec 64) : Store :=
  match k.toNat with
  | 0 => m.xfContribute w (fpDecode fmtF32 (v.toNat % 2 ^ 32))
  | 1 => m.xwContribute w (fpDecode fmtF64 v.toNat)
  | 2 => m.xwContribute w (fpDecode fmtF32 (v.toNat % 2 ^ 32))
  | _ => { m with anchors := m.anchors.setIfInBounds (w / 4096) v.toInt }

/-- ARED (R174). -/
def execAred (y : BitVec 2) (t b : BitVec 5) (k : BitVec 2) (s : State) : Out :=
  issue .c y [.s t, .s b] s fun s _ =>
    let w := (s.me.sreg b).toNat
    ofChk (s.me.aredCheck k w (s.me.sreg t)) fun _ =>
      .done (s.onMe fun g => { g with store := g.store.ared k w (s.me.sreg t) })

/-- ATCLOSE (R175): a closing point; without effect outside Nivose mode. -/
def execAtclose (y : BitVec 2) (s : State) : Out :=
  issue .c y [] s fun s _ => .done (if s.me.nivose then s.closeInterval else s)

/-! ## Flags -/

/-- FSET (R177, R178): the setter is C. -/
def execFset (y : BitVec 2) (n : BitVec 12) (s : State) : Out :=
  issue .c y [] s fun s _ => if 255 < n.toNat then .trap causeBounds 0 0 else .done (s.onMe (·.setFlag n.toNat 0))

/-- FCLR (R177). -/
def execFclr (y : BitVec 2) (n : BitVec 12) (s : State) : Out :=
  issue .c y [] s fun s _ => if 255 < n.toNat then .trap causeBounds 0 0 else .done (s.onMe (·.clrFlag n.toNat))

/-- R184: C observes the complete jobs whose flag it has waited for, and with them the jobs that are ordered before them. -/
def Group.observe (g : Group) (n : Nat) : Group :=
  let hit := g.work.jobs.filter fun j => j.fl && j.flag == n && j.st == .complete
  let nums := hit.map (·.num) ++ hit.flatMap (·.before)
  { g with work := { g.work with jobs := g.work.jobs.filter fun j => !(j.st == .complete && nums.contains j.num) } }

/-- R354: the cycles of an FWAIT count against the buffer of a job that sets its flag. -/
def State.fwaitStall (s : State) (n : Nat) : State :=
  let since := (s.eng .c).waiting.getD s.time.now
  match s.me.work.jobs.find? (fun j => j.fl && j.flag == n) with
  | none => s
  | some j => s.onMe (·.addBuf j.buf 0 (cyclesOfNs (s.time.now - since)))

/-- FWAIT (R177, R178, R180). Log entry 58. -/
def execFwait (y : BitVec 2) (n : BitVec 12) (p : BitVec 3) (s : State) : Out :=
  issue .c y [] s fun s t =>
    if 255 < n.toNat then .trap causeBounds 0 0
    else if s.me.work.tokens ≠ 0 then .done ((s.useToken.waitRecord 0 7 n.toNat).predicate p true t)
    else if s.me.flag n.toNat then
      let setter := (s.me.work.setters.getD n.toNat 7).toNat
      .done (((s.fwaitStall n.toNat).waitRecord 0 setter n.toNat).onMe (·.observe n.toNat) |>.predicate p false t)
    else .wait

/-- FTEST (R177). -/
def execFtest (y : BitVec 2) (n : BitVec 12) (p : BitVec 3) (s : State) : Out :=
  issue .c y [] s fun s t =>
    if 255 < n.toNat then .trap causeBounds 0 0 else .done (s.predicate p (s.me.flag n.toNat) t)

/-! ## Barriers -/

/-- The joined entry of a barrier. -/
def Group.joinedTo (g : Group) (bar : Nat) : Option Joined := g.work.joined.find? fun j => j.bar == bar

def Group.leave (g : Group) (bar : Nat) : Group :=
  { g with work := { g.work with joined := g.work.joined.filter fun j => j.bar != bar } }

/-- BARJOIN (R179, R253, R314): C goes on, and the join is performed once C's earlier accesses are. -/
def execBarjoin (y : BitVec 2) (n : BitVec 12) (a : BitVec 5) (s : State) : Out :=
  issue .c y [.s a] s fun s _ =>
    match s.bar s.me.ident.ctx n.toNat with
    | none => .trap causeBounds 0 0
    | some b =>
      if 2 ^ 40 ≤ (s.me.sreg a).toNat then .trap causeBounds 0 0
      else if (s.me.joinedTo n.toNat).isSome then .trap causeIllegal 0 0
      else .done ((s.barJoin n.toNat b (s.me.sreg a)).noteJoins)

/-- R175, R319: a return of BARWAIT is a closing point, unless the release has closed the interval. -/
def State.barReturn (s : State) (bar setter : Nat) (closed : Bool) : State :=
  let s1 := (s.waitRecord 2 setter bar).onMe (·.leave bar)
  if s1.me.nivose && !closed then s1.closeInterval else s1

/-- The group stands in its BARWAIT. -/
def Group.standsAt (g : Group) (bar : Nat) : Group :=
  { g with work := { g.work with joined := g.work.joined.map fun j => if j.bar = bar then { j with waiting := true } else j } }

/-- BARWAIT (R179, R318, R319). A result that came while the group stood in it precedes a token that came later. Log entry 58. -/
def execBarwait (y : BitVec 2) (n : BitVec 12) (p : BitVec 3) (s : State) : Out :=
  issue .c y [] s fun s t =>
    match s.bar s.me.ident.ctx n.toNat, s.me.joinedTo n.toNat with
    | none, none => .trap causeBounds 0 0
    | some _, none => .trap causeIllegal 0 0
    | b, some j =>
      if j.waiting && j.result.isSome then
        .done ((s.barReturn n.toNat (if j.result = some true then 7 else 6) j.closed).predicate p (j.result = some true) t)
      else if b.isNone then .trap causeBounds 0 0
      else if s.me.work.tokens ≠ 0 then .done ((s.useToken.barReturn n.toNat 7 j.closed).predicate p true t)
      else
        match j.result with
        | some r => .done ((s.barReturn n.toNat (if r then 7 else 6) j.closed).predicate p r t)
        | none => .waitWith (s.onMe (·.standsAt n.toNat))

end Sys2Proof.Machine
end

