-- ==== Sys2Proof/Machine/EngAddr.lean ====
section
/-! DEFINITION. Engine addresses (09_engine_commands R181), and the reads and writes that jobs and firings make by them: their own
translation at the time of the access, lines of other modules fetched by forwarded reads (21_link R326), lines of pages that
have gone (R181) and of generator windows (R207). -/

namespace Sys2Proof.Machine

/-! ## Addresses -/

/-- The spaces of R181. -/
inductive EaSpace where
  | virt | spad | acc
  deriving DecidableEq, Repr

/-- An engine address read by R181: its space, the group it names (none for the own storage) and the address in the space. -/
structure Ea where
  space : EaSpace
  group : Option Nat
  addr : Nat
  deriving DecidableEq, Repr

/-- R181: the fields of an engine address. -/
def eaOf (w : BitVec 64) : Ea :=
  let n := w.toNat
  match n / 2 ^ 62 with
  | 0 => ⟨.virt, none, bitsOf n 0 56⟩
  | 1 => ⟨.spad, some (bitsOf n 30 32), bitsOf n 0 26⟩
  | 2 => ⟨.acc, some (bitsOf n 30 32), bitsOf n 0 17⟩
  | _ => if bitsOf n 29 1 = 1 then ⟨.acc, none, bitsOf n 0 17⟩ else ⟨.spad, none, bitsOf n 0 26⟩

/-- R181: a bit that must be zero is set. -/
def eaReserved (w : BitVec 64) : Bool :=
  let n := w.toNat
  match n / 2 ^ 62 with
  | 0 => bitsOf n 56 6 != 0
  | 1 => bitsOf n 26 4 != 0
  | 2 => bitsOf n 17 13 != 0
  | _ => bitsOf n 30 32 != 0 || bitsOf n 26 3 != 0 || (bitsOf n 29 1 == 1 && bitsOf n 17 9 != 0)

/-- The core of a group of a kernel, while it is placed (R181). -/
def State.coreOf (s : State) (launch index : Nat) : Option Nat :=
  (s.groups.find? fun g => g.ident.launch == launch && g.ident.index == index && g.phase.isPlaced).map (·.ident.core)

/-- An engine address as a place, for a group on `own` of a kernel and context. -/
def State.resolve (s : State) (launch own ctx : Nat) (w : BitVec 64) : Option Loc :=
  let a := eaOf w
  let core := match a.group with
    | none => some own
    | some k => s.coreOf launch k
  match a.space with
  | .virt => some (.virt ctx a.addr)
  | .spad => core.map fun c => .spad c a.addr
  | .acc => core.map fun c => .acc c a.addr

/-! ## Places as ranges of bytes -/

/-- The space of a place, as a key. -/
def Loc.key : Loc → Nat × Nat
  | .virt c _ => (0, c)
  | .spad c _ => (1, c)
  | .acc c _ => (2, c)

/-- The first byte of a place in its space; an accumulator word has 8 bytes. -/
def Loc.lo : Loc → Nat
  | .virt _ a => a
  | .spad _ a => a
  | .acc _ w => 8 * w

/-- Whether `n` bytes from a place on lie in its space (R181). -/
def Loc.fits (l : Loc) (n : Nat) : Bool :=
  match l with
  | .virt _ a => decide (a + n ≤ 2 ^ 56)
  | .spad _ a => decide (a + n ≤ 2 ^ 26)
  | .acc _ w => decide (8 * w + n ≤ 8 * accWords)

/-- Lines of 64 bytes that `n` bytes from an address on touch, with the bytes of each; the first argument bounds them. -/
def linePieces : Nat → Nat → Nat → List (Nat × Nat)
  | 0, _, _ => []
  | k + 1, a, n =>
    if n = 0 then []
    else
      let m := min n (64 - a % 64)
      (a, m) :: linePieces k (a + m) (n - m)

def piecesOf (a n : Nat) : List (Nat × Nat) := linePieces (n / 64 + 2) a n

/-! ## Reads -/

/-- A page that an agent can reach (R181, R341): mapped, and not lent out. -/
def State.agentLeaf (s : State) (ctx va : Nat) : Option PEntry :=
  match s.leafOf ctx va with
  | none => none
  | some e => if e.state = stLeasedOut then none else some e

/-- Such a page whose frame exists on the part. -/
def State.agentPage (s : State) (ctx va : Nat) : Option PEntry := (s.agentLeaf ctx va).filter s.frameExists

/-- The physical address of a line that the agent must fetch from another module. -/
def State.remoteLine (s : State) (ctx va : Nat) : Option Nat :=
  if (s.genAt ctx va).isSome then none
  else
    match s.agentPage ctx va with
    | none => none
    | some e => if s.readable e then none else some (e.pa + va % e.size)

/-- `n` bytes of a line that an agent has fetched. -/
def State.fetchedLine (s : State) (ag : Agent) (pa n : Nat) : Option (List Byte) :=
  (s.links.lines.find? fun l => l.agent == ag && decide (l.pa ≤ pa) && decide (pa + n ≤ l.pa + l.data.length)).map fun l =>
    (l.data.drop (pa - l.pa)).take n

/-- Ask for a line once. -/
def State.askLine (s : State) (ag : Agent) (ctx : Nat) (p : Nat × Nat) : State :=
  match s.remoteLine ctx p.1 with
  | none => s
  | some pa =>
    if (s.fetchedLine ag pa p.2).isSome || s.links.fwds.any (fun f => f.agent == some ag && f.va == p.1 && !f.pkt.isStore) then s
    else
      s.forwardFor
        { tag := 0
          pkt := { mkPacket 1 0 (paModule pa) s.boot.modnum with
            ctx := ctx, len := p.2, addr := BitVec.ofNat 64 (paLocal pa) }
          va := p.1, line := paLocal pa / 64, first := 0, sent := 0, moved := false, unsent := false, shown := [], core := none
          reg := none, size := p.2, signed := false, agent := some ag }

/-- Whether a line is still to come from another module, or holds an atomic that is held while its page is MIGRATING (R250). -/
def State.missesLine (s : State) (ag : Agent) (ctx : Nat) (p : Nat × Nat) : Bool :=
  match s.remoteLine ctx p.1 with
  | none => s.heldAtomic ctx p.1 p.2
  | some pa => (s.fetchedLine ag pa p.2).isNone

/-- The bytes of one line as the agent finds them now; an unmapped page reads as zero (R181). -/
def State.lineNow (s : State) (ag : Agent) (ctx : Nat) (p : Nat × Nat) : List Byte :=
  match s.genAt ctx p.1 with
  | some (_, g) => g.bytes (p.1 - g.vbase) p.2
  | none =>
    match s.agentPage ctx p.1 with
    | none => List.replicate p.2 0
    | some e =>
      if s.readable e then s.readPage ctx p.1 e p.2
      else (s.fetchedLine ag (e.pa + p.1 % e.size) p.2).getD (List.replicate p.2 0)

/-- R181, R207: a line of an agent that counts in its context, once for the agent. -/
def State.countLine (s : State) (ag : Agent) (ctx va : Nat) (f : Context → Context) : State :=
  if s.links.gone.contains (ag, va / 64) then s
  else { s with links := { s.links with gone := (ag, va / 64) :: s.links.gone } }.onCtx ctx f

/-- The revoked-access counter. -/
def Context.revoke (c : Context) : Context := { c with revoked := satAdd32 c.revoked 1 }

/-- R181: a line of a page that has gone counts in the revoked-access counter. Log entry 53. -/
def State.countRevoked (s : State) (ag : Agent) (ctx va : Nat) : State := s.countLine ag ctx va Context.revoke

/-- What the reading of one line counts (R181, R343). -/
def State.countRead (s : State) (ag : Agent) (ctx : Nat) (p : Nat × Nat) : State :=
  if (s.genAt ctx p.1).isSome then s
  else
    match s.agentPage ctx p.1 with
    | none => s.countRevoked ag ctx p.1
    | some e => s.touch ctx e p.1 1

/-- The bytes at a place as an agent finds them now. -/
def State.locBytes (s : State) (ag : Agent) (l : Loc) (n : Nat) : List Byte :=
  match l with
  | .virt ctx va => (piecesOf va n).flatMap (s.lineNow ag ctx)
  | .spad core a =>
    match s.groupOn core with
    | none => List.replicate n 0
    | some g => memBytes g.store.spad a n
  | .acc core w =>
    match s.groupOn core with
    | none => List.replicate n 0
    | some g => memBytes g.store.acc (8 * w) n

/-- An agent gets ready to read a range: true when every line of another module is here, else it has asked for those missing. -/
def State.gather (s : State) (ag : Agent) (l : Loc) (n : Nat) : Bool × State :=
  match l with
  | .virt ctx va =>
    let ps := piecesOf va n
    (!ps.any (s.missesLine ag ctx), ps.foldl (fun t p => t.askLine ag ctx p) s)
  | _ => (true, s)

/-- Count the lines of a range that an agent has read. -/
def State.countRange (s : State) (ag : Agent) (l : Loc) (n : Nat) : State :=
  match l with
  | .virt ctx va => (piecesOf va n).foldl (fun t p => t.countRead ag ctx p) s
  | _ => s

/-- An agent is done: the lines that it has fetched and those that it has counted are forgotten. Log entry 53. -/
def State.dropLines (s : State) (ag : Agent) : State :=
  { s with links := { s.links with lines := s.links.lines.filter (fun l => l.agent != ag), gone := s.links.gone.filter fun x => x.1 != ag } }

/-- Whether answers to an agent's reads are still to come. -/
def State.awaits (s : State) (ag : Agent) : Bool := s.links.fwds.any fun f => f.agent == some ag && !f.pkt.isStore

/-- R185: whether writes of an agent are not performed yet, or replicas of what it wrote at another module still stand. -/
def State.unperformed (s : State) (ag : Agent) : Bool :=
  s.links.fwds.any (fun f => f.agent == some ag) || s.pages.held.any (fun w => w.agent == some ag) ||
    s.links.settling.any (fun x => x.agent == some ag)

/-! ## Writes -/

/-- Write one line (R181, R207). -/
def State.writeLine (s : State) (ag : Agent) (ctx va : Nat) (bs : List Byte) : State :=
  if (s.genAt ctx va).isSome then s.countLine ag ctx va fun c => { c with gendrop := satAdd32 c.gendrop 1 }
  else
    match s.agentPage ctx va with
    | none => s.countRevoked ag ctx va
    | some e =>
      if e.state = stSealed then s.countRevoked ag ctx va
      else (s.touch ctx e va 1).writePageBy ctx va e bs none (some ag)

/-- Write lines. -/
def writeLines (s : State) (ag : Agent) (ctx : Nat) : List (Nat × Nat) → List Byte → State
  | [], _ => s
  | p :: r, bs => writeLines (s.writeLine ag ctx p.1 (bs.take p.2)) ag ctx r (bs.drop p.2)

/-- R160, R301: whether a core's storage takes a write of an agent: after a fatal fault only its own jobs still write there. -/
def Group.takes (g : Group) (own : Nat) : Bool := g.phase != .frozen || g.ident.core == own

/-- Write bytes at a place, for an agent of the group on `own`. Log entry 44. -/
def State.locWrite (s : State) (ag : Agent) (own : Nat) (l : Loc) (bs : List Byte) : State :=
  match l with
  | .virt ctx va => writeLines s ag ctx (piecesOf va bs.length) bs
  | .spad core a => s.onCore core fun g => if g.takes own then g.spadPut a bs else g
  | .acc core w => s.onCore core fun g =>
      if g.takes own then { g with store := { g.store with acc := memPut g.store.acc (8 * w) bs } } else g

/-- A place `n` bytes further on; in accumulator space only whole words count. -/
def Loc.plus (l : Loc) (n : Nat) : Loc :=
  match l with
  | .virt c a => .virt c (a + n)
  | .spad c a => .spad c (a + n)
  | .acc c w => .acc c (w + n / 8)

/-- Write bytes at a byte offset from a place. -/
def State.locWriteAt (s : State) (ag : Agent) (own : Nat) (l : Loc) (off : Nat) (bs : List Byte) : State :=
  match l with
  | .acc core w => s.onCore core fun g =>
      if g.takes own then { g with store := { g.store with acc := memPut g.store.acc (8 * w + off) bs } } else g
  | _ => s.locWrite ag own (l.plus off) bs

/-- Read bytes at a byte offset from a place. -/
def State.locBytesAt (s : State) (ag : Agent) (l : Loc) (off n : Nat) : List Byte :=
  match l with
  | .acc core w =>
    match s.groupOn core with
    | none => List.replicate n 0
    | some g => memBytes g.store.acc (8 * w + off) n
  | _ => s.locBytes ag (l.plus off) n

/-! ## Ranges that a command checks -/

/-- The first part of a virtual range that is not mapped or that a test of its page or of its generator window finds at fault, with the
cause; the first argument bounds the pages. -/
def State.firstBad (s : State) (ctx hi : Nat) (page : PEntry → Option Nat) (gen : GenWin → Option Nat) : Nat → Nat → Option (Nat × Nat)
  | 0, va => if hi ≤ va then none else some (causeBounds, va)
  | n + 1, va =>
    if hi ≤ va then none
    else
      match s.genAt ctx va with
      | some (_, g) =>
        match gen g with
        | some c => some (c, va)
        | none => s.firstBad ctx hi page gen n (g.vbase + g.size)
      | none =>
        match s.agentLeaf ctx va with
        | none => some (causeBounds, va)
        | some e =>
          match page e with
          | some c => some (c, va)
          | none => s.firstBad ctx hi page gen n (e.base va + e.size)

/-- A test of every page and window of a range of `n` bytes at a place. -/
def State.rangeCheck (s : State) (l : Loc) (n : Nat) (page : PEntry → Option Nat) (gen : GenWin → Option Nat) : Chk Unit :=
  match l with
  | .virt ctx va =>
    match s.firstBad ctx (va + n) page gen (n / 2 ^ 16 + 2) va with
    | none => .ok ()
    | some p => .error p
  | _ => .ok ()

/-- R188: every page is mapped. -/
def State.mappedCheck (s : State) (l : Loc) (n : Nat) : Chk Unit := s.rangeCheck l n (fun _ => none) (fun _ => none)

/-- A check as a test. -/
def Chk.isOk {α : Type} (c : Chk α) : Bool :=
  match c with
  | .ok _ => true
  | .error _ => false

def State.rangeMapped (s : State) (l : Loc) (n : Nat) : Bool := Chk.isOk (s.mappedCheck l n)

/-- R2: the frames of a range exist on the part. Log entry 13. -/
def State.framesCheck (s : State) (l : Loc) (n : Nat) : Chk Unit :=
  s.rangeCheck l n (fun e => causeIf (!s.frameExists e) causeAbsent) (fun _ => none)

/-- R188, R207: the traps of a destination range. Log entry 52. -/
def State.destCheck (s : State) (l : Loc) (n : Nat) : Chk Unit :=
  s.rangeCheck l n (fun e => causeIf (e.state == stSealed) causeSealStore) (fun g => causeIf g.strap causeGenStore)

/-! ## Footprints -/

/-- R183: whether two ranges overlap. -/
def Foot.overlaps (a b : Foot) : Bool :=
  a.base.key == b.base.key && decide (a.base.lo < b.base.lo + b.len) && decide (b.base.lo < a.base.lo + a.len)

/-- R183: two footprints conflict. -/
def Foot.conflicts (a b : Foot) : Bool := a.overlaps b && (a.write || b.write)

/-- The end of what footprints cover from a byte on; one pass. -/
def coverPass (l : Loc) (pos : Nat) (fs : List Foot) : Nat :=
  fs.foldl (fun p f => if f.base.key = l.key ∧ f.base.lo ≤ p then max p (f.base.lo + f.len) else p) pos

/-- The end of what at most eight footprints cover from a byte on. -/
def coverEnd (l : Loc) (fs : List Foot) : Nat → Nat → Nat
  | 0, pos => pos
  | n + 1, pos => coverEnd l fs n (coverPass l pos fs)

/-- R188: `n` bytes at a place lie within footprints. -/
def covered (fs : List Foot) (l : Loc) (n : Nat) : Bool := decide (l.lo + n ≤ coverEnd l fs (fs.length + 1) l.lo)

/-- R183: a footprint entry is within the scratchpad or accumulator space. -/
def Foot.onCore (f : Foot) : Bool :=
  match f.base with
  | .virt _ _ => false
  | _ => true

end Sys2Proof.Machine
end

