-- ==== Sys2Proof/Machine/Digests.lean ====
section
/-! DEFINITION. Result digests (25_trace_replay R359 to R361) and pending words (10_system R219). -/

namespace Sys2Proof.Machine

/-! ## Folds -/

/-- R359: the 8-byte-aligned words that a write touches: word number, byte mask, the bytes written. -/
def digWords (a : Nat) (bs : List Byte) : List (Nat × Nat × Nat) :=
  (List.range ((a % 8 + bs.length + 7) / 8)).map fun i =>
    let w := a / 8 + i
    let lo := max a (8 * w)
    let hi := min (a + bs.length) (8 * w + 8)
    (w, 2 ^ (hi - 8 * w) - 2 ^ (lo - 8 * w), leVal ((bs.drop (lo - a)).take (hi - lo)) * 2 ^ (8 * (lo - 8 * w)))

/-- R359: D of one word. -/
def digOf (k x : Nat) : BitVec 128 := BitVec.ofNat 128 (mix x k + 2 ^ 64 * mix x (Nat.xor k (2 ^ 64 - 1)))

/-- Add to a digest of a context. -/
def State.addDigest (s : State) (ctx dix : Nat) (d : BitVec 128) : State :=
  s.onCtx ctx fun c => { c with digests := c.digests.setIfInBounds dix (c.digests.getD dix 0 + d) }

/-- R359: fold a write on a page. -/
def State.foldPage (s : State) (ctx dix va : Nat) (bs : List Byte) : State :=
  (digWords va bs).foldl (fun t p => t.addDigest ctx dix (digOf (bitsOf p.1 0 53 * 2 ^ 8 + p.2.1) p.2.2)) s

/-- R361: the fields of SPDIG. -/
def Group.dix (g : Group) : Nat := bitsOf g.sys.spdig.toNat 56 2
def Group.digLo (g : Group) : Nat := bitsOf g.sys.spdig.toNat 16 10 * 2 ^ 16
def Group.digLen (g : Group) : Nat := bitsOf g.sys.spdig.toNat 32 11 * 2 ^ 16

/-- R359: fold a write into a group's scratchpad, word by word inside its SPDIG range. -/
def State.foldSpad (s : State) (g : Group) (a : Nat) (bs : List Byte) : State :=
  (digWords a bs).foldl (fun t p =>
    if g.digLo ≤ 8 * p.1 ∧ 8 * p.1 < g.digLo + g.digLen then
      t.addDigest g.ident.ctx g.dix
        (digOf (2 ^ 63 + g.ident.index * 2 ^ 31 + bitsOf p.1 0 23 * 2 ^ 8 + p.2.1) p.2.2)
    else t) s

/-- R359: what a write of the copy engine folds at one line of a page; a write that is dropped folds nothing. -/
def State.foldLine (s : State) (ctx va : Nat) (bs : List Byte) : State :=
  if (s.genAt ctx va).isSome then s
  else
    match s.agentLeaf ctx va with
    | none => s
    | some e => if e.digest && !e.profile && e.state != stSealed then s.foldPage ctx (e.rid % 4) va bs else s

def foldLines (s : State) (ctx : Nat) : List (Nat × Nat) → List Byte → State
  | [], _ => s
  | p :: r, bs => foldLines (s.foldLine ctx p.1 (bs.take p.2)) ctx r (bs.drop p.2)

/-- R359: what a write of the copy engine folds; `own` is the core of the job's group. -/
def State.foldLoc (s : State) (own : Nat) (l : Loc) (bs : List Byte) : State :=
  match l with
  | .virt ctx va => foldLines s ctx (piecesOf va bs.length) bs
  | .spad core a =>
    match s.groupOn core with
    | none => s
    | some g => if g.takes own then s.foldSpad g a bs else s
  | .acc _ _ => s

/-! ## Pending words -/

/-- R219: the marks of a range that work will write; scratchpad words have 8 bytes. -/
def pendMarks (l : Loc) (n : Nat) (src : PendSrc) (ms : Nat) : List PendMark :=
  match l with
  | .virt _ _ => []
  | .spad c a => if n = 0 then [] else [⟨false, c, a / 8 * 8, (a + n + 7) / 8 * 8, src, ms⟩]
  | .acc c w => if n = 0 then [] else [⟨true, c, w, w + (n + 7) / 8, src, ms⟩]

/-- R219: while PEND is set, the words are marked from the issue on. -/
def Group.markPending (g : Group) (ms : List PendMark) : Group :=
  if g.pendOn then { g with work := { g.work with pend := g.work.pend ++ ms } } else g

/-- Work is done with its marks. -/
def Group.unmark (g : Group) (src : PendSrc) : Group :=
  { g with work := { g.work with pend := g.work.pend.filter fun p => p.src != src } }

/-- The words of a range are written: what is left of a mark. -/
def PendMark.without (lo hi : Nat) (p : PendMark) : List PendMark :=
  [{ p with hi := min p.hi lo }, { p with lo := max p.lo hi }].filter fun (q : PendMark) => decide (q.lo < q.hi)

/-- Marks of a source give way to what is written at a place. -/
def Group.unmarkRange (g : Group) (src : PendSrc) (l : Loc) (n : Nat) : Group :=
  match pendMarks l n src 0 with
  | m :: _ =>
    { g with work := { g.work with pend := g.work.pend.flatMap fun p =>
      if p.src == src && p.acc == m.acc && p.core == m.core then p.without m.lo m.hi else [p] } }
  | [] => g

end Sys2Proof.Machine
end

