-- ==== Sys2Proof/Machine/Routines.lean ====
section
/-! DEFINITION. Routines (09_engine_commands R189 to R193): what a micro-operation computes, one invocation, the checks of a
routine record, and what the higher-order instructions compute (R195). -/

namespace Sys2Proof.Machine

/-! ## Micro-operations -/

/-- R190: the fields of a micro-operation word. -/
structure Uop where
  opc : Nat
  d : Nat
  x : Nat
  y : Nat
  z : Nat
  cc : Nat
  ft : Nat
  t : Bool
  deriving DecidableEq, Repr

def uopOf (w : BitVec 32) : Uop :=
  let n := w.toNat
  ⟨bitsOf n 27 5, bitsOf n 24 3, bitsOf n 21 3, bitsOf n 18 3, bitsOf n 15 3, bitsOf n 12 3, bitsOf n 8 4, bitsOf n 7 1 == 1⟩

/-- R189: the types of a routine. -/
def routineTy (code : Nat) : Option Ty :=
  if [2, 3, 6, 7, 10, 11].contains code then tyOfCode code else none

/-- R190: an integer micro-operation, exact; operands by the type's signedness. -/
def uopInt (sg : Bool) (w : Nat) (u : Uop) (x y z : Nat) : Int :=
  let v := intVal sg w
  match u.opc with
  | 1 => v x + v y
  | 2 => v x - v y
  | 3 => v x * v y
  | 4 => v x * v y + v z
  | 5 => min (v x) (v y)
  | 6 => max (v x) (v y)
  | 7 => ((v x).natAbs : Int)
  | 8 => -v x
  | 9 => v (Nat.land x y)
  | 10 => v (Nat.lor x y)
  | 11 => v (Nat.xor x y)
  | 12 => v x * ((2 ^ (y % w) : Nat) : Int)
  | 13 => (v x).fdiv ((2 ^ (y % w) : Nat) : Int)
  | 14 => if x ≠ 0 then v y else v z
  | 15 =>
    match condOf u.cc with
    | none => 0
    | some c => if c.holdsInt w x y then 1 else 0
  | _ =>
    match tyOfCode u.ft with
    | some (.int s k) => intVal s k x
    | some (.flt f) => fpToInt .rne sg w (fpDecode f (x % 2 ^ f.width))
    | _ => 0

/-- R190: a floating-point micro-operation, rounded once by RNE. The unsigned conditions of rcmp have no result stated by R60
for a floating-point type (log entry 10). -/
def uopFlt (f : Fmt) (u : Uop) (x y z : Nat) : Nat :=
  let one := fOfInt f .rne 1
  match u.opc with
  | 1 => fAdd f .rne x y
  | 2 => fSub f .rne x y
  | 3 => fMul f .rne x y
  | 4 => fFma f .rne x y z
  | 5 => fMin f x y
  | 6 => fMax f x y
  | 7 => fAbs f x
  | 8 => fNeg f x
  | 9 => Nat.land x y
  | 10 => Nat.lor x y
  | 11 => Nat.xor x y
  | 14 => if x ≠ 0 then y else z
  | 15 =>
    match condOf u.cc with
    | none => 0
    | some .ltn => if Config.freeCompare x y then one else 0
    | some .len => if Config.freeCompare x y then one else 0
    | some c => if c.holdsFp (fpDecode f x) (fpDecode f y) then one else 0
  | _ =>
    match tyOfCode u.ft with
    | some (.int s k) => fOfInt f .rne (intVal s k x)
    | some (.flt g) => fCvt g f .rne (x % 2 ^ g.width)
    | _ => 0

/-- R190, R191: one micro-operation: its value, or the reason of its fault. -/
def uopRun (ty : Ty) (u : Uop) (x y z : Nat) : Except Nat Nat :=
  match ty with
  | .int sg w =>
    let r := uopInt sg w u x y z
    if u.t && r != clampInt sg w r then .error 3 else .ok (wrapInt w r)
  | .flt f =>
    let r := uopFlt f u x y z
    if u.t && fpIsNan (fpDecode f r) then .error 2 else .ok r
  | .bx => .ok 0

/-- The state of an invocation: acc, then w0 to w3 (R191). -/
abbrev Work5 := List Nat

/-- R190: a source. -/
def uopSrc (a b ident : Nat) (st : Work5) (c : Nat) : Nat :=
  match c with
  | 0 => a
  | 1 => b
  | 7 => ident
  | _ => st.getD (c - 2) 0

/-- R191: micro-operations from number `j` on; a fault names its micro-operation and its reason. -/
def runUops (ty : Ty) (a b ident : Nat) (st : Work5) (j : Nat) : List (BitVec 32) → Except (Nat × Nat) Nat
  | [] => .ok (st.getD 0 0)
  | w :: r =>
    let u := uopOf w
    let g := uopSrc a b ident st
    match uopRun ty u (g u.x) (g u.y) (g u.z) with
    | .error e => .error (j, e)
    | .ok v => runUops ty a b ident (listSet st (u.d - 2) fun _ => v) (j + 1) r

/-- R191: one invocation r(a, b, acc). -/
def Routine.run (r : Routine) (a b acc : Nat) : Except (Nat × Nat) Nat :=
  match routineTy r.typ with
  | none => .ok 0
  | some ty => runUops ty a b r.ident.toNat [acc, 0, 0, 0, 0] 0 r.uops

/-- The width of a routine's elements in bytes. -/
def Routine.width (r : Routine) : Nat :=
  match routineTy r.typ with
  | none => 4
  | some ty => ty.bits / 8

def Routine.assoc (r : Routine) : Bool := r.props.getLsbD 0
def Routine.comm (r : Routine) : Bool := r.props.getLsbD 1

/-! ## The record -/

/-- R190: which source fields an operation uses. -/
def uopUses (opc : Nat) : Bool × Bool × Bool :=
  match opc with
  | 4 => (true, true, true)
  | 7 => (true, false, false)
  | 8 => (true, false, false)
  | 14 => (true, true, true)
  | 16 => (true, false, false)
  | _ => (true, true, false)

/-- R190, R192: fields that must be zero. -/
def uopZeros (w : BitVec 32) : Bool :=
  let u := uopOf w
  let uses := uopUses u.opc
  bitsOf w.toNat 0 7 == 0 && (uses.2.1 || u.y == 0) && (uses.2.2 || u.z == 0) && (u.opc == 15 || u.cc == 0) &&
    (u.opc == 16 || u.ft == 0)

/-- R192: a legal operation of a type. BX32 has no conversion by R21 or R22, so FT does not accept it. -/
def uopLegal (typ : Nat) (w : BitVec 32) : Bool :=
  let u := uopOf w
  let isInt := decide (typ < 8)
  decide (1 ≤ u.opc) && decide (u.opc ≤ 16) && decide (2 ≤ u.d) && decide (u.d ≤ 6) &&
    (isInt || (u.opc != 12 && u.opc != 13)) && (u.opc != 16 || (decide (u.ft ≤ 13) && u.ft != typ)) &&
    (u.opc != 15 || decide (u.cc ≤ 5))

/-- R189: micro-operation words of a record. -/
def recordUops (r : List Byte) : List (BitVec 32) := (List.range 16).map fun j => BitVec.ofNat 32 (recField r (16 + 4 * j) 4)

/-- R192: the checks of RDEF on its record. -/
def routineOf (r : List Byte) (at_ : Nat) (known : Bool) : Chk Routine := do
  let n := recField r 0 1
  let typ := recField r 1 1
  let us := recordUops r
  let narrow := typ == 2 || typ == 6 || typ == 10
  need (recZero r 3 5 && recField r 2 1 / 8 == 0 && (!narrow || recZero r 12 4)) causeReserved 0
  need ((us.drop n).all (· == 0) && (us.take n).all uopZeros) causeReserved 0
  need (decide (1 ≤ n) && decide (n ≤ 16)) causeBounds at_
  need ((routineTy typ).isSome && (us.take n).all (uopLegal typ) && !known) causeIllegal 0
  return { typ := typ, props := BitVec.ofNat 8 (recField r 2 1), ident := BitVec.ofNat 64 (recField r 8 8), uops := us.take n }

/-! ## What a higher-order job computes -/

/-- A fault of a job at an element: element, micro-operation, reason. -/
structure JobFault where
  elem : Nat
  uop : Nat
  reason : Nat
  deriving DecidableEq, Repr

/-- An element of a tree: the lowest index under it and its value, or the first fault. -/
abbrev Leaf := Except JobFault (Nat × Nat)

/-- R195: op(u, v) := r(v, 0, u). -/
def treeOp (r : Routine) (u v : Leaf) : Leaf :=
  match u, v with
  | .error f, _ => .error f
  | _, .error f => .error f
  | .ok (i, x), .ok (_, y) =>
    match r.run y 0 x with
    | .ok z => .ok (i, z)
    | .error (j, e) => .error ⟨i, j, e⟩

/-- R195, profile 6: the tree of R45; ID for an empty list. Log entry 30. -/
def treeFold (r : Routine) (l : List Nat) : Except JobFault Nat :=
  match treeReduce (treeOp r) (.ok (0, r.ident.toNat)) ((List.range l.length).zipWith (fun i x => (.ok (i, x) : Leaf)) l) with
  | .ok p => .ok p.2
  | .error f => .error f

/-- R195, profile 0: any tree over the elements; where a list splits is free (log entry 10). -/
def freeFold (r : Routine) : Nat → List Leaf → Leaf
  | 0, l => l.headD (.ok (0, r.ident.toNat))
  | n + 1, l =>
    match l with
    | [] => .ok (0, r.ident.toNat)
    | [x] => x
    | l =>
      let k := 1 + Config.freeSplit n l.length % (l.length - 1)
      treeOp r (freeFold r n (l.take k)) (freeFold r n (l.drop k))

def freeTree (r : Routine) (l : List Nat) : Except JobFault Nat :=
  match freeFold r l.length ((List.range l.length).zipWith (fun i x => (.ok (i, x) : Leaf)) l) with
  | .ok p => .ok p.2
  | .error f => .error f

/-- R195, profile 5: acc := r(A[k], B[k], acc) from element `k` on. Log entry 30. -/
def indexFold (r : Routine) (acc k : Nat) : List (Nat × Nat) → Except JobFault Nat
  | [] => .ok acc
  | (a, b) :: l =>
    match r.run a b acc with
    | .ok v => indexFold r v (k + 1) l
    | .error (j, e) => .error ⟨k, j, e⟩

end Sys2Proof.Machine
end

