-- ==== Sys2Proof/Machine/Jobs.lean ====
section
/-! DEFINITION. Jobs (09_engine_commands R182 to R195): their cards and checks, JOBX, the higher-order instructions, RDEF and
RDROP, and the events of a job. -/

namespace Sys2Proof.Machine

/-! ## Issue -/

/-- R182: the number of the next job. -/
def Group.nextJob (g : Group) : Nat := if g.work.lastJob = 2 ^ 32 - 1 then 1 else g.work.lastJob + 1

/-- R182: the jobs that are not complete. -/
def Group.incomplete (g : Group) : Nat := (g.work.jobs.filter fun j => j.st != .complete).length

/-- R184: a predecessor earlier than job `k`. -/
def earlierJob (k p : Nat) : Bool := decide (1 ≤ (k + 2 ^ 32 - p) % 2 ^ 32) && decide ((k + 2 ^ 32 - p) % 2 ^ 32 ≤ 2 ^ 31 - 1)

/-- R184: the jobs ordered before one with these predecessors; observed jobs have left the list. -/
def Group.orderedBefore (g : Group) (preds : List Nat) : List Nat :=
  preds ++ (g.work.jobs.filter fun j => preds.contains j.num).flatMap (·.before)

/-- R183, R184: the check of a job's predecessors and footprints against the earlier jobs. -/
def Group.jobOrder (g : Group) (preds : List Nat) (foots : List Foot) : Chk Unit := do
  need (preds.all (earlierJob g.nextJob)) causeBounds 0
  let before := g.orderedBefore preds
  need (!g.nivose || g.work.jobs.all fun j => before.contains j.num ||
    !(j.foots.any fun a => a.onCore && foots.any fun b => a.conflicts b)) causeFootprint 0

/-- R183: the jobs that must be complete before a new job starts: its predecessors, and outside Nivose mode those that it
conflicts with. -/
def Group.startsAfter (g : Group) (preds : List Nat) (foots : List Foot) : List Nat :=
  preds ++ (if g.nivose then [] else
    (g.work.jobs.filter fun j => j.st != .complete && j.foots.any fun a => foots.any fun b => a.conflicts b).map (·.num))

/-- What the destination of a job is. -/
structure Dest where
  loc : Loc
  len : Nat
  deriving DecidableEq, Repr

/-- `n` bytes at a byte offset from a place, whole words in accumulator space. -/
def destAt (l : Loc) (off n : Nat) : Dest :=
  match l with
  | .acc c w => ⟨.acc c (w + off / 8), off % 8 + n⟩
  | _ => ⟨l.plus off, n⟩

/-- A checked card. -/
structure Card where
  kind : JobKind
  fl : Bool
  flag : Nat
  foots : List Foot
  preds : List Nat
  dests : List Dest
  deriving DecidableEq, Repr

/-- R182, R183, R219, R353: C issues a job, while `after` are its accesses to the footprints that are not performed. -/
def Group.issueJob (g : Group) (c : Card) (after : List Nat) : Group :=
  let k := g.nextJob
  let j : Job :=
    { num := k, kind := c.kind, fl := c.fl, flag := c.flag, foots := c.foots, preds := g.startsAfter c.preds c.foots
      before := g.orderedBefore c.preds, seen := false, st := .issued, prog := 0, data := [], after := after, addr := g.itemAddr .c
      buf := g.bufTag }
  let g1 : Group := { g with work :=
    { g.work with jobs := g.work.jobs.filter (fun x : Job => x.num != k) ++ [j], lastJob := k } }
  g1.markPending (c.dests.flatMap fun d : Dest => pendMarks d.loc d.len (.job k) 0)

/-! ## Cards -/

/-- R183: the raw entries behind a card. -/
def footRecords (r : List Byte) (n : Nat) : List (List Byte) := (List.range n).map fun i => (r.drop (16 * i)).take 16

def footReserved (r : List Byte) : Bool :=
  !recZero r 13 3 || decide (1 < recField r 12 1) || eaReserved (BitVec.ofNat 64 (recField r 0 8))

/-- An engine address of the group in focus. -/
def State.myLoc (s : State) (w : Nat) : Option Loc :=
  s.resolve s.me.ident.launch s.me.ident.core s.me.ident.ctx (BitVec.ofNat 64 w)

/-- R188: a place of `n` bytes inside its space, of a placed group, on mapped pages. -/
def State.placeCheck (s : State) (w n : Nat) : Chk Loc :=
  match s.myLoc w with
  | none => .error (causeBounds, w)
  | some l => do
    need (l.fits n) causeBounds l.lo
    s.mappedCheck l n
    return l

/-- R183: a footprint; LEN counts words in accumulator space. -/
def State.footOf (s : State) (r : List Byte) : Chk Foot := do
  let n := recField r 8 4
  need (n != 0) causeBounds 0
  match s.myLoc (recField r 0 8) with
  | none => .error (causeBounds, recField r 0 8)
  | some l => do
    let bytes := match l with
      | .acc _ _ => 8 * n
      | _ => n
    need (l.fits bytes) causeBounds l.lo
    s.mappedCheck l bytes
    return ⟨l, bytes, recField r 12 1 == 1⟩

/-- R186: the predecessors named at an offset of a card. -/
def cardPreds (r : List Byte) (off : Nat) : List Nat :=
  ((List.range 4).map fun i => recField r (off + 4 * i) 4).filter (· ≠ 0)

/-- R187: the fields of a layout record. -/
structure Layout where
  ew : Nat
  rows : Nat
  cols : Nat
  spitch : Nat
  dpitch : Nat
  deriving DecidableEq, Repr

def layoutOf (r : List Byte) : Layout :=
  ⟨recField r 0 1, recField r 4 4, recField r 8 4, recField r 16 8, recField r 24 8⟩

/-- R187: the side of a granule. -/
def Layout.side (l : Layout) : Nat := 16 / l.ew

/-- R188: ROWS, COLS and the pitches. -/
def Layout.ok (l : Layout) : Bool :=
  l.rows != 0 && l.cols != 0 && l.rows % l.side == 0 && l.cols % l.side == 0 && decide (l.cols * l.ew ≤ l.spitch) &&
    decide (l.rows * l.ew ≤ l.dpitch)

/-- The bytes from the first to the last of `k` rows. -/
def spanOf (k pitch seg : Nat) : Nat := (k - 1) * pitch + seg

/-- R188: an engine address that is not a multiple of the element width; accumulator words count 8 bytes each. -/
def eaAligned (ew w : Nat) : Bool := (eaOf (BitVec.ofNat 64 w)).space == .acc || (eaOf (BitVec.ofNat 64 w)).addr % ew == 0

/-- Rows of a range, each within footprints. -/
def rowsCovered (fs : List Foot) (l : Loc) (k pitch seg : Nat) : Bool :=
  (List.range k).all fun i =>
    let f : Foot := ⟨l, 0, false⟩
    decide (l.lo + i * pitch + seg ≤ coverEnd f.base fs (fs.length + 1) (l.lo + i * pitch))

/-- R188: the rows from BOUNDS on, for a source and a destination of `k` rows each. -/
structure Span where
  ea : Nat
  rows : Nat
  pitch : Nat
  seg : Nat
  deriving DecidableEq, Repr

def Span.len (x : Span) : Nat := spanOf x.rows x.pitch x.seg

/-- R188: places, footprints and destination of a copy job. -/
def State.copyCheck (s : State) (r : List Byte) (foots : List (List Byte)) (nfp : Nat) (sizeOk : Bool) (src dst : Span)
    (kind : Loc → Loc → JobKind) (predOff : Nat) : Chk Card := do
  need (decide (1 ≤ nfp) && decide (nfp ≤ 8) && sizeOk) causeBounds 0
  let sl ← s.placeCheck src.ea src.len
  let dl ← s.placeCheck dst.ea dst.len
  let fs ← foots.mapM s.footOf
  need (rowsCovered fs sl src.rows src.pitch src.seg) causeFootprint 0
  need (rowsCovered (fs.filter (·.write)) dl dst.rows dst.pitch dst.seg) causeFootprint 0
  s.destCheck dl dst.len
  let preds := cardPreds r predOff
  s.me.jobOrder preds fs
  return { kind := kind sl dl, fl := recField r 1 1 % 2 == 1, flag := recField r 2 1, foots := fs, preds := preds
           dests := (List.range dst.rows).map fun i => destAt dl (i * dst.pitch) dst.seg }

/-- R188: the checks of JOBX, in the order of its rows. -/
def State.jobCard (s : State) (a : Nat) : Chk Card := do
  let r ← s.me.record a 64 64
  let tr := recField r 0 1 == 1
  let lay := recField r 24 8
  let sea := recField r 8 8
  let dea := recField r 16 8
  let nfp := recField r 3 1
  let lr ← if tr then s.me.record lay 32 32 else .ok []
  let l := layoutOf lr
  need (!tr || [1, 2, 4].contains l.ew) causeAlign lay
  need (!tr || eaAligned l.ew sea) causeAlign (eaOf (BitVec.ofNat 64 sea)).addr
  need (!tr || eaAligned l.ew dea) causeAlign (eaOf (BitVec.ofNat 64 dea)).addr
  let fr ← s.me.record (a + 64) 16 (16 * min nfp 8)
  let foots := footRecords fr (min nfp 8)
  need (recField r 1 1 / 2 == 0 && recZero r 48 16 && (if tr then recField r 4 4 == 0 else lay == 0)) causeReserved 0
  need (!tr || (recZero lr 1 3 && recZero lr 12 4)) causeReserved 0
  need (!eaReserved (BitVec.ofNat 64 sea) && !eaReserved (BitVec.ofNat 64 dea) && !foots.any footReserved) causeReserved 0
  need (decide (recField r 0 1 ≤ 1)) causeIllegal 0
  let n := recField r 4 4
  if tr then
    s.copyCheck r foots nfp l.ok ⟨sea, l.rows, l.spitch, l.cols * l.ew⟩ ⟨dea, l.cols, l.dpitch, l.rows * l.ew⟩
      (fun x y => .transpose l.ew l.rows l.cols x y l.spitch l.dpitch) 32
  else
    s.copyCheck r foots nfp (decide (1 ≤ n) && decide (n ≤ 2 ^ 30)) ⟨sea, 1, 0, n⟩ ⟨dea, 1, 0, n⟩ (fun x y => .copy n x y) 32

/-- R354: the bytes that a job adds to its buffer; for an H job the manual states no LEN, and the count is free (log entry
10). -/
def State.jobBytes (s : State) : JobKind → Nat × State
  | .copy n _ _ => (n, s)
  | .transpose ew rows cols _ _ _ _ => (rows * cols * ew, s)
  | .h .. => let (v, t) := s.fresh; (v.toNat, t)

/-- R2: the frames of a job's ranges exist on the part. -/
def State.cardFrames (s : State) (c : Card) : Chk Unit := do
  c.foots.forM fun f => s.framesCheck f.base f.len
  c.dests.forM fun d => s.framesCheck d.loc d.len

/-- The place of an atomic. -/
def AtPlace.loc : AtPlace → Loc
  | .spad core a => .spad core a
  | .page ctx va _ _ => .virt ctx va

/-- R183, R255: C's stores and atomics to footprints that are not performed. -/
def State.opensOn (s : State) (fs : List Foot) : List Nat :=
  let me := s.me.ident
  let hit (l : Loc) (n : Nat) : Bool := fs.any (·.overlaps ⟨l, n, true⟩)
  ((s.links.fwds.filter fun f => f.core == some me.core && f.pkt.isStore && hit (.virt me.ctx f.va) f.size).map (·.tag)) ++
  ((s.pages.held.filter fun w => w.core == some me.core && hit (.virt w.ctx w.va) w.data.length).map (·.tag)) ++
  ((s.intervalAtomics.filter fun a => a.core == me.core && hit a.place.loc (a.bits / 8)).map (·.tag)) ++
  ((s.links.settling.filter fun x => x.core == some me.core).map (·.tag))

/-- R182: issue a checked job; C stalls at the 65th that is not complete. -/
def State.startJob (s : State) (c : Card) : Effect :=
  ofChk (s.cardFrames c) fun _ =>
    if 64 ≤ s.me.incomplete then .wait
    else
      let (n, s1) := s.jobBytes c.kind
      .done (s1.onMe fun g => (g.addBuf g.bufTag n 0).issueJob c (s.opensOn c.foots))

/-- JOBX (R186 to R188). -/
def execJobx (y : BitVec 2) (a : BitVec 5) (s : State) : Out :=
  issue .c y [.s a] s fun s _ => ofChk (s.jobCard (s.me.sreg a).toNat) s.startJob

/-! ## Routines -/

/-- A routine of the context. -/
def State.routine (s : State) (h : Nat) : Option Routine := s.myCtx.bind fun c => assocGet c.routines h

/-- RDEF (R192). Log entry 30. -/
def execRdef (y : BitVec 2) (h : BitVec 6) (a : BitVec 5) (s : State) : Out :=
  issue .c y [.s a] s fun s _ =>
    let at_ := (s.me.sreg a).toNat
    ofChk (s.me.record at_ 16 80) fun r =>
      ofChk (routineOf r at_ (s.routine h.toNat).isSome) fun x =>
        .done (s.onCtx s.me.ident.ctx fun c => { c with routines := assocSet c.routines h.toNat x })

/-- R192: an H job of the context that names a handle and is not complete. -/
def State.handleBusy (s : State) (h : Nat) : Bool :=
  s.groups.any fun g => g.ident.ctx == s.me.ident.ctx && g.phase.isPlaced && g.work.jobs.any fun j =>
    match j.kind with
    | .h _ _ k _ _ _ _ _ _ _ _ => j.isOpen && k == h
    | _ => false

/-- RDROP (R192). -/
def execRdrop (y : BitVec 2) (h : BitVec 6) (s : State) : Out :=
  issue .c y [] s fun s _ =>
    if s.handleBusy h.toNat then .wait
    else .done (s.onCtx s.me.ident.ctx fun c => { c with routines := assocDrop c.routines h.toNat })

/-! ## Higher-order instructions -/

/-- R46, R194: the profiles of a routine. -/
def hProfileOk (form : HForm) (pf : Nat) (r : Routine) (nivose : Bool) : Bool :=
  (pf == 0 && !nivose) || pf == 5 || (pf == 6 && r.assoc && (form == .fold || form == .scan))

/-- R195: the elements of the inputs and of the output. -/
def hOutLen (form : HForm) (n nb op : Nat) : Nat :=
  match form with
  | .fold => 1
  | .outer => if n = 0 ∨ nb = 0 then 0 else (n - 1) * op + nb
  | _ => n

/-- R195: `.m` names the own scratchpad only. -/
def Loc.isOwnSpad (l : Loc) (core : Nat) : Bool :=
  match l with
  | .spad c _ => c == core
  | _ => false

/-- R194, R195: the checks of an H card. -/
def State.hCard (s : State) (form : HForm) (engine handle pf : Nat) (r : Routine) (at_ : Nat) : Chk Card := do
  let w := r.width
  let c ← s.me.record at_ 64 64
  let ea := recField c 16 8
  let eb := recField c 24 8
  let eo := recField c 32 8
  let nfp := recField c 2 1
  need (eaAligned w ea) causeAlign (eaOf (BitVec.ofNat 64 ea)).addr
  need (eaAligned w eb) causeAlign (eaOf (BitVec.ofNat 64 eb)).addr
  need (eaAligned w eo) causeAlign (eaOf (BitVec.ofNat 64 eo)).addr
  let fr ← s.me.record (at_ + 64) 16 (16 * min nfp 8)
  let foots := footRecords fr (min nfp 8)
  let isOuter := form == .outer
  need (recField c 0 1 / 4 == 0 && recZero c 3 1 && recZero c 56 8) causeReserved 0
  need (isOuter || recZero c 8 8) causeReserved 0
  need (!eaReserved (BitVec.ofNat 64 ea) && !eaReserved (BitVec.ofNat 64 eb) && !eaReserved (BitVec.ofNat 64 eo) &&
    !foots.any footReserved) causeReserved 0
  need (!(pf == 6 && eb != 0)) causeIllegal 0
  need (decide (1 ≤ nfp) && decide (nfp ≤ 8)) causeBounds 0
  let n := recField c 4 4
  let nb := recField c 8 4
  let op := recField c 12 4
  need (!isOuter || decide (nb ≤ op)) causeBounds 0
  let bn := if isOuter then nb else n
  let al ← s.placeCheck ea (n * w)
  let bl ← if eb = 0 then .ok none else (s.placeCheck eb (bn * w)).map some
  let outLen := hOutLen form n nb op * w
  let ol ← s.placeCheck eo outLen
  let core := s.me.ident.core
  need (engine != 0 || (al.isOwnSpad core && ol.isOwnSpad core && bl.all (·.isOwnSpad core))) causeBounds 0
  let fs ← foots.mapM s.footOf
  need (covered fs al (n * w) && bl.all (fun b => covered fs b (bn * w))) causeFootprint 0
  let ro := if isOuter then n else 1
  let so := if isOuter then nb * w else outLen
  need (rowsCovered (fs.filter (·.write)) ol ro (op * w) so) causeFootprint 0
  s.destCheck ol outLen
  let preds := cardPreds c 40
  s.me.jobOrder preds fs
  let kind : JobKind := .h form engine handle pf (form == .zip && recField c 0 1 / 2 % 2 == 1) n nb op al bl ol
  return { kind := kind, fl := recField c 0 1 % 2 == 1, flag := recField c 1 1, foots := fs, preds := preds
           dests := (List.range ro).map fun i => destAt ol (i * op * w) so }

/-- R70, R194: the engine, the handle and the profile of an H instruction, which no register holds. -/
def State.hCode (s : State) (form : HForm) (pf handle engine : Nat) : Option Nat :=
  causeIf (decide (3 ≤ engine) || !(s.routine handle).any fun r => hProfileOk form pf r s.me.nivose) causeIllegal

/-- R194: issue of an H instruction. -/
def hIssue (form : HForm) (y : BitVec 2) (p : BitVec 4) (o : BitVec 6) (a : BitVec 5) (e : BitVec 3) (s : State) : Out :=
  issuePre (s.hCode form p.toNat o.toNat e.toNat) .c y [.s a] s fun s _ =>
    match s.routine o.toNat with
    | none => .trap causeIllegal 0 0
    | some r => ofChk (s.hCard form e.toNat o.toNat p.toNat r (s.me.sreg a).toNat) s.startJob

/-- HFOLD (R194, R195). -/
def execHfold (y : BitVec 2) (p : BitVec 4) (o : BitVec 6) (a : BitVec 5) (e : BitVec 3) (s : State) : Out :=
  hIssue .fold y p o a e s

/-- HSCAN (R194, R195). -/
def execHscan (y : BitVec 2) (p : BitVec 4) (o : BitVec 6) (a : BitVec 5) (e : BitVec 3) (s : State) : Out :=
  hIssue .scan y p o a e s

/-- HZIP (R194, R195). -/
def execHzip (y : BitVec 2) (p : BitVec 4) (o : BitVec 6) (a : BitVec 5) (e : BitVec 3) (s : State) : Out :=
  hIssue .zip y p o a e s

/-- HOUTER (R194, R195). -/
def execHouter (y : BitVec 2) (p : BitVec 4) (o : BitVec 6) (a : BitVec 5) (e : BitVec 3) (s : State) : Out :=
  hIssue .outer y p o a e s

/-! ## Events of a job -/

/-- A job of the group in focus. -/
def Group.job (g : Group) (num : Nat) : Option Job := g.work.jobs.find? fun j => j.num == num

def Group.onJob (g : Group) (num : Nat) (f : Job → Job) : Group :=
  { g with work := { g.work with jobs := g.work.jobs.map fun j => if j.num = num then f j else j } }

/-- R182, R299, R301, R303: a group whose jobs go on. -/
def Phase.jobsRun : Phase → Bool
  | .running => true
  | .handler => true
  | .frozen => true
  | .stopped => true
  | .done => true
  | _ => false

/-- R303: a place in the storage of a group whose cluster is pre-empted. -/
def Loc.isAway (l : Loc) : Bool :=
  match l with
  | .virt _ _ => false
  | .spad core _ => isAwayCore core
  | .acc core _ => isAwayCore core

/-- The engine code of an H job. -/
def JobKind.hEngine : JobKind → Nat
  | .h _ e _ _ _ _ _ _ _ _ _ => e
  | _ => 1

/-- The group and the job can move; an H.m job moves with the mesh. From a pre-emption request on, jobs stand at the chunk or element
boundary that they have come to (R303). -/
def State.jobMoves (s : State) (j : Job) : Bool :=
  !s.me.work.yielding && (if j.kind.hEngine = 0 then s.me.phase.meshRuns else s.me.phase.jobsRun) && !j.kind.locs.any (·.isAway)

def State.jobAgent (s : State) (j : Job) : Agent := .job s.me.ident.core j.num

/-- The ranges that a job reads: place and length. -/
def State.jobReads (s : State) : JobKind → List (Loc × Nat)
  | .copy n src _ => [(src, n)]
  | .transpose ew rows cols src _ sp _ => (List.range rows).map fun i => (src.plus (i * sp), cols * ew)
  | .h form _ handle _ accin n nb _ a b o =>
    let w := match s.routine handle with
      | some r => r.width
      | none => 4
    let bn := if form = .outer then nb else n
    [(a, n * w)] ++ (b.toList.map fun l => (l, bn * w)) ++ (if accin then [(o, n * w)] else [])

/-- R183, R184: the earlier jobs of the group that a job waits for are complete. -/
def Group.predsDone (g : Group) (j : Job) : Bool :=
  j.preds.all fun p => g.work.jobs.all fun x => x.num != p || x.num == j.num || x.st == .complete

/-- R183: C's earlier accesses to a job's footprints are performed. -/
def State.afterDone (s : State) (j : Job) : Bool :=
  s.allDone j.after && !s.links.settling.any fun x => j.after.contains x.tag

/-- JOB_START can happen. -/
def State.jobStartEnabled (s : State) (num : Nat) : Bool :=
  match s.me.job num with
  | none => false
  | some j => j.st == .issued && s.jobMoves j && s.me.predsDone j && s.afterDone j && !s.awaits (s.jobAgent j)

/-- What an H job works on. -/
structure HWork where
  r : Routine
  form : HForm
  pf : Nat
  accin : Bool
  n : Nat
  nb : Nat
  op : Nat
  a : Loc
  b : Option Loc
  o : Loc
  deriving DecidableEq, Repr

/-- R195: the order in which a fold takes its elements: index order under profile 5, the tree under profile 6, any under 0. -/
def HWork.inOrder (h : HWork) : Bool := h.pf == 5 || (h.pf == 0 && (Config.freeOrder h.n || h.b.isSome))

/-- The H job's work, while its routine is defined. -/
def State.hWork (s : State) (j : Job) : Option HWork :=
  match j.kind with
  | .h form _ handle pf accin n nb op a b o => (s.routine handle).map fun r => ⟨r, form, pf, accin, n, nb, op, a, b, o⟩
  | _ => none

/-- R195: what an H job starts with: the accumulator, ID, or under a tree the elements of a scan. Log entry 30. -/
def State.hStart (s : State) (j : Job) : List Byte :=
  match s.hWork j with
  | none => []
  | some h =>
    if h.inOrder then leBytes 8 h.r.ident.toNat
    else if h.form = .scan then s.locBytes (s.jobAgent j) h.a (h.n * h.r.width)
    else []

/-- The bytes that a copy job moves, as it reads them when it starts (R187); a transpose holds its rows one after another. -/
def State.jobData (s : State) (j : Job) : List Byte :=
  match j.kind with
  | .copy n src _ => s.locBytes (s.jobAgent j) src n
  | .transpose ew rows cols src _ sp _ =>
    (List.range rows).flatMap fun i => s.locBytesAt (s.jobAgent j) src (i * sp) (cols * ew)
  | .h .. => s.hStart j

/-- JOB_START (R183, R184, R187, R256): the job asks for the lines of other modules, and starts once they are here. -/
def execJobStart (num : Nat) (s : State) : Out :=
  if !s.jobStartEnabled num then .next s
  else
    match s.me.job num with
    | none => .next s
    | some j =>
      let ag := s.jobAgent j
      let rs := s.jobReads j.kind
      let ready := rs.all fun r => (s.gather ag r.1 r.2).1
      if !ready then .next (rs.foldl (fun t r => (t.gather ag r.1 r.2).2) s)
      else
        let s1 := rs.foldl (fun t r => t.countRange ag r.1 r.2) s
        .next (s1.onMe (·.onJob num fun x => { x with st := .running, data := s.jobData j }))

/-- What one unit of a copy job writes: offsets from the destination with their bytes; none when all is moved. -/
def chunkWrites (j : Job) : List (Nat × List Byte) :=
  match j.kind with
  | .copy n _ _ => if n ≤ j.prog then [] else [(j.prog, (j.data.drop j.prog).take (min 4096 (n - j.prog)))]
  | .transpose ew rows cols _ _ _ dp =>
    let g := 16 / ew
    let per := cols / g
    let rb := j.prog / per * g
    let cb := j.prog % per * g
    if rows ≤ rb then []
    else (List.range g).map fun c =>
      ((cb + c) * dp + rb * ew,
        (List.range g).flatMap fun r => (j.data.drop (((rb + r) * cols + cb + c) * ew)).take ew)
  | .h .. => []

/-- The destination of a copy job. -/
def JobKind.dst : JobKind → Loc
  | .copy _ _ d => d
  | .transpose _ _ _ _ d _ _ => d
  | .h _ _ _ _ _ _ _ _ _ _ o => o

/-- How far a unit brings `prog`. -/
def chunkStep (j : Job) : Nat :=
  match j.kind with
  | .copy n _ _ => min 4096 (n - j.prog)
  | _ => 1

/-- COPY_CHUNK_COMPLETE can happen. Log entry 58. -/
def State.copyChunkEnabled (s : State) (num : Nat) : Bool :=
  match s.me.job num with
  | none => false
  | some j => j.st == .running && s.jobMoves j && !(chunkWrites j).isEmpty

/-- Write one piece of a job, fold it for the copy engine (R359) and lift its pending marks (R219). -/
def State.jobWrite (s : State) (j : Job) (fold : Bool) (off : Nat) (bs : List Byte) : State :=
  let d := j.kind.dst
  let own := s.me.ident.core
  let s1 := if fold then s.foldLoc own (d.plus off) bs else s
  let x := destAt d off bs.length
  (s1.locWriteAt (s.jobAgent j) own d off bs).onMe (·.unmarkRange (.job j.num) x.loc x.len)

/-- COPY_CHUNK_COMPLETE (R182, R187, R360): a 4 KiB chunk or a granule is written whole. -/
def execCopyChunkComplete (num : Nat) (s : State) : Out :=
  if !s.copyChunkEnabled num then .next s
  else
    match s.me.job num with
    | none => .next s
    | some j =>
      let s1 := (chunkWrites j).foldl (fun t p => t.jobWrite j true p.1 p.2) s
      .next (s1.onMe (·.onJob num fun x => { x with prog := x.prog + chunkStep j }))

/-! ## Elements of an H job -/

/-- Element `k` of a range. -/
def State.elemAt (s : State) (j : Job) (w : Nat) (l : Loc) (k : Nat) : Nat :=
  leVal (s.locBytesAt (s.jobAgent j) l (w * k) w)

def State.elemB (s : State) (j : Job) (h : HWork) (k : Nat) : Nat :=
  match h.b with
  | none => 0
  | some l => s.elemAt j h.r.width l k

/-- Write element `k` of the output. -/
def State.putElem (s : State) (j : Job) (fold : Bool) (h : HWork) (k v : Nat) : State :=
  s.jobWrite j fold (h.r.width * k) (leBytes h.r.width v)

/-- R195: the value over a prefix, for a list `l` of all elements of which those above the prefix are entered as ID. -/
def HWork.tree (h : HWork) (l : List Nat) : Except JobFault Nat := if h.pf = 6 then treeFold h.r l else freeTree h.r l

/-- One invocation for element `k`. -/
def HWork.call (h : HWork) (k a b acc : Nat) : Except JobFault Nat :=
  match h.r.run a b acc with
  | .ok v => .ok v
  | .error (u, e) => .error ⟨k, u, e⟩

/-- The elements that an H job takes one after another; a tree is taken whole, and a fold of nothing gives ID. -/
def HWork.steps (h : HWork) : Nat :=
  match h.form with
  | .fold => if h.inOrder then max 1 h.n else 1
  | .outer => h.n * h.nb
  | _ => h.n

/-- What one element gives: the element of the output that it writes with its value, if it does, and the accumulator after it. -/
structure HStep where
  write : Option (Nat × Nat)
  acc : Option Nat
  deriving DecidableEq, Repr

/-- R195: the next element of an H job. Log entry 30. -/
def State.hStep (s : State) (j : Job) (h : HWork) : Except JobFault HStep :=
  let k := j.prog
  let w := h.r.width
  let ident := h.r.ident.toNat
  let a (i : Nat) : Nat := s.elemAt j w h.a i
  let b (i : Nat) : Nat := s.elemB j h i
  match h.form with
  | .fold =>
    if h.inOrder then
      if h.n = 0 then .ok ⟨some (0, ident), none⟩
      else do
        let v ← h.call k (a k) (b k) (leVal j.data)
        return ⟨if k + 1 = h.n then some (0, v) else none, some v⟩
    else do
      let v ← h.tree ((List.range h.n).map a)
      return ⟨some (0, v), none⟩
  | .scan =>
    if h.inOrder then do
      let v ← h.call k (a k) (b k) (leVal j.data)
      return ⟨some (k, v), some v⟩
    else do
      let l := (List.range h.n).map fun i => leVal ((j.data.drop (w * i)).take w)
      let v ← h.tree (l.take (k + 1) ++ List.replicate (h.n - (k + 1)) ident)
      return ⟨some (k, v), none⟩
  | .zip => do
    let v ← h.call k (a k) (b k) (if h.accin then s.elemAt j w h.o k else ident)
    return ⟨some (k, v), none⟩
  | .outer => do
    let v ← h.call k (a (k / h.nb)) (b (k % h.nb)) ident
    return ⟨some (k / h.nb * h.op + k % h.nb, v), none⟩

/-- The next element of a running H job: none when all are done, a fault where its routine faults or is undefined (R193).
Log entry 30. -/
def State.hNext (s : State) (j : Job) : Option (Except JobFault (HWork × HStep)) :=
  match j.kind with
  | .h .. =>
    match s.hWork j with
    | none => some (.error ⟨j.prog, 0, 1⟩)
    | some h =>
      if h.steps ≤ j.prog then none
      else
        match s.hStep j h with
        | .ok x => some (.ok (h, x))
        | .error f => some (.error f)
  | _ => none

/-- An H job takes an element: its write and its accumulator. -/
def State.hTake (s : State) (j : Job) (h : HWork) (x : HStep) : State :=
  let s1 := match x.write with
    | none => s
    | some (k, v) => s.putElem j (j.kind.hEngine == 1) h k v
  s1.onMe (·.onJob j.num fun y => { y with prog := y.prog + 1, data := match x.acc with
    | none => y.data
    | some v => leBytes 8 v })

/-- The fault of a running H job at its next element (R193). -/
def State.hFault (s : State) (j : Job) : Option JobFault :=
  match s.hNext j with
  | some (.error f) => some f
  | _ => none

/-- R185: the setter code of the engine that runs a job. -/
def JobKind.setter (k : JobKind) : Nat :=
  match k.hEngine with
  | 0 => 3
  | 1 => 1
  | _ => 2

/-- R194: an H.m job runs between mesh operations. -/
def Group.meshFree (g : Group) (k : JobKind) : Bool := k.hEngine != 0 || g.mesh.ops.all fun o => o.next == 0 && o.pair == 0

/-- JOB_COMPLETE can happen: a copy job has moved its units, an H job has an element to take or has taken all (R182). -/
def State.jobCompleteEnabled (s : State) (num : Nat) : Bool :=
  match s.me.job num with
  | none => false
  | some j => j.st == .running && s.jobMoves j && (chunkWrites j).isEmpty && s.me.meshFree j.kind &&
      (match s.hNext j with
       | some x => Chk.isOk (x.mapError fun _ => (0, 0))
       | none => !s.unperformed (s.jobAgent j))

/-- R184: a complete job stays in the list while C has not observed it in Nivose mode, or can still observe its flag. -/
def Group.finishJob (g : Group) (j : Job) : Group :=
  let g1 := if j.fl then g.setFlag j.flag j.kind.setter else g
  let g2 := g1.onJob j.num fun x => { x with st := .complete, data := [] }
  let g3 : Group := if g.nivose || j.fl then g2
    else { g2 with work := { g2.work with jobs := g2.work.jobs.filter fun x => x.num != j.num } }
  g3.unmark (.job j.num)

/-- JOB_COMPLETE (R182, R185, R195): an H job takes its next element, as often as this row comes for one that has elements left (log
entry 30); a job that has made its writes, once other modules have performed theirs, is complete, and its flag is set. -/
def execJobComplete (num : Nat) (s : State) : Out :=
  if !s.jobCompleteEnabled num then .next s
  else
    match s.me.job num with
    | none => .next s
    | some j =>
      match s.hNext j with
      | some (.ok (h, x)) => .next (s.hTake j h x)
      | some (.error _) => .next s
      | none => .next (((s.dropLines (s.jobAgent j)).onMe (·.finishJob j)).teardownAll)

/-- R193: the value of ROUTFLT. -/
def routFlt (handle uop engine reason elem : Nat) : BitVec 64 :=
  BitVec.ofNat 64 (handle % 64 * 2 ^ 58 + uop % 16 * 2 ^ 54 + engine % 4 * 2 ^ 52 + reason % 16 * 2 ^ 48 + elem % 2 ^ 32)

/-- R193, R301: a group whose H job may fault: one that can take the trap, or one that has ended, which takes none. -/
def Phase.takesFault : Phase → Bool
  | .running => true
  | .handler => true
  | .frozen => true
  | .done => true
  | _ => false

/-- ROUTINE_FAULT can happen: a running H job faults at its next element. -/
def State.routineFaultEnabled (s : State) (num : Nat) : Bool :=
  match s.me.job num with
  | none => false
  | some j => j.st == .running && s.jobMoves j && s.me.meshFree j.kind && (s.hFault j).isSome && s.me.phase.takesFault

/-- The routine handle of an H job. -/
def JobKind.handle : JobKind → Nat
  | .h _ _ k _ _ _ _ _ _ _ _ => k
  | _ => 0

/-- ROUTINE_FAULT (R193): the job stops at that element with the writes made so far, and the group traps before C issues its next item;
a group that has ended only loses the job. Log entry 30. -/
def execRoutineFault (num : Nat) (s : State) : Out :=
  if !s.routineFaultEnabled num then .next s
  else
    match s.me.job num with
    | none => .next s
    | some j =>
      match s.hFault j with
      | none => .next s
      | some f =>
        let s1 := s.onMe fun g =>
          { (g.onJob num fun x => { x with st := .faulted }).unmark (.job num) with
            sys := { g.sys with routflt := routFlt j.kind.handle f.uop j.kind.hEngine f.reason f.elem } }
        let s2 := s1.dropLines (s.jobAgent j)
        if s.me.phase.isEnded then .next s2.teardownAll else .next (s2.takeTrap 0 causeRoutine 0 0 j.addr false)

end Sys2Proof.Machine
end

