-- ==== Sys2Proof/Machine/Commands.lean ====
section
/-! DEFINITION. Counters (09_engine_commands R196), work entries (R197, R198, R202), generator windows (R203, R206) and NOTIFY
(R208). -/

namespace Sys2Proof.Machine

/-! ## Counters -/

/-- R196, R255: CNTSET, CNTADD and WQPOST are performed after every earlier access of C at chip scope. Log entry 28. -/
def State.afterAccesses (s : State) (e : State → Effect) : Effect := if s.fenceWaits 2 then .wait else e s

/-- R196: a counter that is not granted is PRIV. -/
def State.needCtr (s : State) (n : BitVec 12) : Option Nat := causeIf (!s.granted n.toNat) causePriv

/-- CNTSET (R196). -/
def execCntset (y : BitVec 2) (n : BitVec 12) (a : BitVec 5) (s : State) : Out :=
  issuePre (s.needCtr n) .c y [.s a] s fun s _ =>
    s.afterAccesses fun s => .done (s.setCtr n.toNat (s.me.sreg a) 0)

/-- CNTADD (R196): a register, or with x[2] = 1 the number a itself. -/
def execCntadd (y : BitVec 2) (n : BitVec 12) (a : BitVec 5) (i : BitVec 1) (s : State) : Out :=
  issuePre (s.needCtr n) .c y (if i = 1 then [] else [.s a]) s fun s _ =>
    s.afterAccesses fun s => .done (s.addCtr n.toNat (if i = 1 then a.setWidth 64 else s.me.sreg a) 0)

/-- CNTWAIT (R196, R365). -/
def execCntwait (y : BitVec 2) (n : BitVec 12) (a : BitVec 5) (s : State) : Out :=
  issuePre (s.needCtr n) .c y [.s a] s fun s _ =>
    let v := s.me.sreg a
    if v ≤ s.ctr n.toNat then .done (s.waitRecord 1 (s.ctrSetter n.toNat v) n.toNat)
    else .wait

/-- R196, R202: the assumed latency of CNTREAD and WQSTAT. -/
def queryLatency : Nat := 60

/-- CNTREAD (R196). -/
def execCntread (y : BitVec 2) (n : BitVec 12) (d : BitVec 5) (s : State) : Out :=
  issuePre (s.needCtr n) .c y [] s fun s t =>
    if s.cFull then .wait
    else .done (s.lateResult (.s d) (.word (s.ctr n.toNat)) (t + queryLatency) none none none)

/-! ## Work entries -/

/-- R197: a counter field; bit 15 is NONE. -/
def ctrField (n : Nat) : Option Nat := if bitsOf n 15 1 = 1 then none else some (bitsOf n 0 12)

/-- R197: a work entry read from its 64 bytes. -/
def workEntry (r : List Byte) : WEntry :=
  let f := recField r
  { kind := bitsOf (f 0 1) 0 2, rc := bitsOf (f 0 1) 2 1 == 1, fl := bitsOf (f 0 1) 3 1 == 1, rb := bitsOf (f 0 1) 4 1 == 1
    red := f 1 1, flag := f 2 1, rout := bitsOf (f 3 1) 0 6, slot := bitsOf (f 4 2) 0 12, qp := bitsOf (f 6 2) 0 12
    trig := ctrField (f 8 2), lctr := ctrField (f 10 2), rctr := ctrField (f 12 2), rearm := f 14 2
    thresh := BitVec.ofNat 64 (f 16 8), thstep := f 24 4, len := f 28 4, lbase := BitVec.ofNat 64 (f 32 8)
    rbase := BitVec.ofNat 64 (f 40 8), lstride := sextNat 32 (f 48 4), rstride := sextNat 32 (f 52 4), tmo := f 56 2
    port := f 58 1 }

/-- R197: a routine PUTRED, and an exact one. -/
def WEntry.routine (w : WEntry) : Bool := w.kind == 1 && w.red % 4 == 3
def WEntry.exact (w : WEntry) : Bool := w.kind == 1 && w.red % 4 != 3

/-- R197: PF of RED. -/
def WEntry.pf (w : WEntry) : Nat := w.red / 16

/-- R197: the width in bytes of an element at this end. -/
def WEntry.elem (w : WEntry) : Nat :=
  if w.kind ≠ 1 then 1
  else if w.routine then (if bitsOf w.red 2 2 = 1 then 8 else 4)
  else if w.red % 4 = 1 then 8 else 4

/-- R197: an element at the target: bytes, or the words of a slot. -/
def WEntry.targetElem (w : WEntry) : Nat := if w.exact then (if w.red % 4 = 0 then 8 else 4) else w.elem

/-- R202: alignment of bases, strides and length; accumulator words of a byte element count 8 bytes. -/
def WEntry.alignCheck (w : WEntry) : Chk Unit := do
  let loc := eaOf w.lbase
  let far := eaOf w.rbase
  let sub (n : Nat) (a : Ea) : Nat := if a.space == .acc then 1 else n
  let sl := sub w.elem loc
  let sr := if w.exact then w.targetElem else sub w.elem far
  need (loc.addr % sl == 0) causeAlign loc.addr
  need (far.addr % sr == 0) causeAlign far.addr
  need (w.lstride % (sl : Int) == 0 && w.rstride % (sr : Int) == 0 && (w.kind != 1 || w.len % w.elem == 0)) causeAlign 0

/-- R197, R202: reserved bytes and bits. -/
def entryReserved (r : List Byte) : Bool :=
  let f := recField r
  let w := workEntry r
  let ctr (n : Nat) : Bool := bitsOf n 12 3 != 0
  f 0 1 / 2 ^ 5 != 0 || f 3 1 / 2 ^ 6 != 0 || f 4 2 / 2 ^ 12 != 0 || f 6 2 / 2 ^ 12 != 0 || ctr (f 8 2) || ctr (f 10 2) ||
    ctr (f 12 2) || !recZero r 59 5 || eaReserved w.lbase || eaReserved w.rbase ||
    (w.exact && bitsOf w.red 2 2 != 0) || (w.routine && decide (1 < bitsOf w.red 2 2))

/-- R46, R202: forms that trap with cause ILLEGAL. -/
def WEntry.illegal (w : WEntry) (nivose : Bool) : Bool :=
  let far := eaOf w.rbase
  let own := w.rbase.toNat / 2 ^ 62 == 3
  w.kind == 3 || (w.kind != 1 && w.red != 0) ||
    (w.routine && !(w.pf == 5 || w.pf == 6 || (w.pf == 0 && !nivose))) ||
    (w.exact && !(w.pf == 4 || (w.pf == 0 && !nivose))) || own || (w.exact && far.space != .acc) ||
    (w.routine && far.space == .acc)

/-- R197: the port is named by its number. -/
def portNamed (p : Nat) : Bool := decide (p ≤ 23) || (decide (32 ≤ p) && decide (p ≤ 35)) || p == 0xFF

/-- R327: a queue pair that a context can use. -/
def State.qpReady (s : State) (ctx n : Nat) : Bool :=
  match s.qp n with
  | none => false
  | some q => q.ctx == ctx && q.st == .connected

/-- R202: the rows of BOUNDS. -/
def State.entryBounds (s : State) (ctx : Nat) (w : WEntry) : Bool :=
  (w.kind == 2 || (decide (1 ≤ w.len) && decide (w.len ≤ 2 ^ 24))) && portNamed w.port && s.qpReady ctx w.qp

/-- R202: the counters of this end are granted. -/
def Context.entryGranted (c : Context) (w : WEntry) : Bool := w.trig.all c.grants && w.lctr.all c.grants

/-- The slot of a number. -/
def Context.slot (c : Context) (n : Nat) : Option WSlot := assocGet c.slots n

/-- R198: a slot that is ARMED or FIRING. -/
def WSlot.busy (x : WSlot) : Bool := x.st == .armed || x.st == .firing

/-- R202: the checks of a work entry behind those of its address; the counters of the target belong to the far context. -/
def State.entryCheck (s : State) (ctx : Nat) (nivose : Bool) (r : List Byte) : Chk WEntry := do
  let w := workEntry r
  w.alignCheck
  need (!entryReserved r) causeReserved 0
  need (!w.illegal nivose && !((s.ctx ctx).any fun c => (c.slot w.slot).any (·.busy))) causeIllegal 0
  need (s.entryBounds ctx w) causeBounds 0
  need ((s.ctx ctx).any fun c => c.entryGranted w) causePriv 0
  return w

/-- R198: the slot that a posted entry arms. Log entry 52. -/
def armedSlot (w : WEntry) (owner : Option Nat) (launch : Nat) (buf : BitVec 8) : WSlot :=
  { st := .armed, entry := w, thr := w.thresh, left := w.rearm, last := .none, losts := 0, reason := 0, fired := 0
    nextFiring := 0, firing := none, unacked := [], cancel := false, failed := false, owner := owner, launch := launch
    buf := buf }

/-- R198: the trigger is evaluated at arming. -/
def WSlot.evaluate (s : State) (st : CtxSt) (x : WSlot) : WSlot :=
  if x.st = .armed ∧ st.fires then
    match x.entry.trig with
    | none => { x with st := .firing }
    | some n => x.trigger n (s.ctr n)
  else x

/-- R198: arm a slot of a context. The counts of the slot's earlier entries and its firing numbers go on (R202). -/
def State.arm (s : State) (ctx : Nat) (x : WSlot) : State :=
  s.onCtx ctx fun c =>
    let y := match c.slot x.entry.slot with
      | none => x
      | some o => { x with last := o.last, losts := o.losts, reason := o.reason, fired := o.fired, nextFiring := o.nextFiring
                           unacked := o.unacked }
    { c with slots := assocSet c.slots x.entry.slot (y.evaluate s c.st) }

/-- R207: the first byte of a target that lies in a STRAP window of the posting context (log entry 45). -/
def State.entryStrap (s : State) (ctx : Nat) (w : WEntry) : Option Nat :=
  let a := eaOf w.rbase
  if w.kind = 2 ∨ a.space ≠ .virt then none
  else
    (((s.ctx ctx).map (·.gens)).getD []).foldl (fun acc p =>
      let g := p.2
      let x := max a.addr g.vbase
      if g.strap && decide (g.vbase < a.addr + w.len) && decide (a.addr < g.vbase + g.size) then
        some (min x (acc.getD x))
      else acc) none

/-- R216: WQPOST and WQARM are counted. -/
def State.countWq (s : State) : State :=
  s.onMe fun g => { g with work := { g.work with wqCount := g.work.wqCount + 1 } }

/-- WQPOST (R197, R198, R202). Log entry 45. -/
def execWqpost (y : BitVec 2) (a : BitVec 5) (s : State) : Out :=
  issue .c y [.s a] s fun s _ =>
    let g := s.me
    let ctx := g.ident.ctx
    ofChk (g.record (g.sreg a).toNat 64 64) fun r =>
      ofChk (s.entryCheck ctx g.nivose r) fun w =>
        match s.entryStrap ctx w with
        | some va => .trap causeGenStore 0 va
        | none => s.afterAccesses fun s =>
          .done (s.arm ctx (armedSlot w (some g.ident.index) g.ident.launch g.bufTag)).countWq

/-- The slot of the context in focus. -/
def State.mySlot (s : State) (n : Nat) : Option WSlot := s.myCtx.bind fun c => c.slot n

def State.onSlot (s : State) (ctx n : Nat) (f : WSlot → WSlot) : State :=
  s.onCtx ctx fun c => { c with slots := assocMap c.slots n f }

/-- WQARM (R198, R202). -/
def execWqarm (y : BitVec 2) (n : BitVec 12) (a : BitVec 5) (s : State) : Out :=
  issue .c y [.s a] s fun s _ =>
    match s.mySlot n.toNat with
    | none => .trap causeIllegal 0 0
    | some x =>
      if x.st = .done then
        s.afterAccesses fun s => .done (s.onCtx s.me.ident.ctx fun c =>
          let again (x : WSlot) : WSlot :=
            { x with st := .armed, thr := s.me.sreg a, left := x.entry.rearm, failed := false, cancel := false }
          { c with slots := assocMap c.slots n.toNat fun x => (again x).evaluate s c.st }).countWq
      else .trap causeIllegal 0 0

/-- R198: a cancelled slot. -/
def WSlot.cancelled (x : WSlot) : WSlot :=
  match x.st with
  | .armed => { x with st := .cancelled }
  | .firing => { x with cancel := true }
  | _ => x

/-- WQCANCEL (R198, R202). -/
def execWqcancel (y : BitVec 2) (n : BitVec 12) (s : State) : Out :=
  issue .c y [] s fun s _ => .done (s.onSlot s.me.ident.ctx n.toNat (·.cancelled))

/-- R202: the code of STATE. -/
def SlotSt.code : SlotSt → Nat
  | .armed => 1
  | .firing => 2
  | .done => 3
  | .cancelled => 4

/-- R202: the code of LAST. -/
def Last.code : Last → Nat
  | .none => 0
  | .ok => 1
  | .lost => 2
  | .faulted => 3
  | .absent => 4
  | .nogroup => 5

/-- R202: the status word; a FREE slot reads as 0. -/
def slotStatus (x : Option WSlot) : BitVec 64 :=
  match x with
  | none => 0
  | some x =>
    BitVec.ofNat 64 (x.st.code * 2 ^ 60 + x.last.code * 2 ^ 56 + min x.losts 0xFFFF * 2 ^ 40 + x.reason % 16 * 2 ^ 36 +
      x.fired.toNat)

/-- WQSTAT (R202). -/
def execWqstat (y : BitVec 2) (n : BitVec 12) (d : BitVec 5) (s : State) : Out :=
  issue .c y [] s fun s t =>
    if s.cFull then .wait
    else .done (s.lateResult (.s d) (.word (slotStatus (s.mySlot n.toNat))) (t + queryLatency) none none none)

/-! ## Generator windows -/

/-- R203: a window from its descriptor. -/
def genOf (r : List Byte) : GenWin :=
  { kind := recField r 0 1, fmt := recField r 1 1, strap := recField r 2 1 % 2 == 1, vbase := recField r 8 8
    size := recField r 16 8, pitch := recField r 24 4
    p := (List.range 4).map fun i => BitVec.ofNat 64 (recField r (32 + 8 * i) 8), gen := 0 }

/-- R204: the formats that a kind accepts; KIND 0 maps nothing and has no format. -/
def genFmtOk (kind fmt : Nat) : Bool :=
  match kind with
  | 0 => true
  | 1 => decide (fmt ≤ 11)
  | 2 => decide (fmt ≤ 13)
  | 3 => fmt == 5 || fmt == 6
  | 4 => (decide (4 ≤ fmt) && decide (fmt ≤ 7)) || fmt == 10
  | 5 => decide (fmt ≤ 13)
  | _ => false

/-- R204: how many parameters a kind uses. -/
def genParams (kind : Nat) : Nat :=
  match kind with
  | 0 => 0
  | 2 => 1
  | 5 => 1
  | _ => 2

/-- The first mapped page of a range; the walk passes what one unmapped entry covers. The first argument bounds it. -/
def State.firstMapped (s : State) (ctx hi : Nat) : Nat → Nat → Option Nat
  | 0, _ => none
  | n + 1, va =>
    if hi ≤ va then none
    else if (s.leafOf ctx va).isSome then some va
    else
      let size := match s.entryOf ctx va with
        | some e => (match e.level with
          | 0 => 2 ^ 48
          | 1 => 2 ^ 39
          | 2 => 2 ^ 30
          | 3 => 2 ^ 21
          | _ => 2 ^ 16)
        | none => 2 ^ 16
      s.firstMapped ctx hi n (va - va % size + size)

/-- R206: the first byte of a window's range that lies on a mapped page or in another window. -/
def State.genMeets (s : State) (ctx w : Nat) (g : GenWin) : Option Nat :=
  let others := (((s.ctx ctx).map (·.gens)).getD []).filterMap fun p =>
    if p.1 == w || decide (p.2.vbase + p.2.size ≤ g.vbase) || decide (g.vbase + g.size ≤ p.2.vbase) then none
    else some (max g.vbase p.2.vbase)
  ((s.firstMapped ctx (g.vbase + g.size) (g.size / 2 ^ 16 + 1) g.vbase).toList ++ others).min?

/-- R206: the checks of GENCFG behind those of the descriptor's address. -/
def State.genCheck (s : State) (w : Nat) (r : List Byte) : Chk GenWin := do
  let g := genOf r
  need (g.vbase % 2 ^ 16 == 0 && g.size % 2 ^ 16 == 0) causeAlign g.vbase
  need (recField r 2 1 / 2 == 0 && recZero r 3 5 && recZero r 28 4 && (g.p.drop (genParams g.kind)).all (· == 0)) causeReserved 0
  need (decide (g.kind ≤ 5) && genFmtOk g.kind g.fmt) causeIllegal 0
  need (g.size != 0) causeBounds g.vbase
  need (decide (g.vbase + g.size ≤ 2 ^ 56)) causeBounds (max g.vbase (2 ^ 56))
  match s.genMeets s.me.ident.ctx w g with
  | some va => .error (causeBounds, va)
  | none => do
    need (!((g.kind == 2 || g.kind == 3) && g.pitch == 0)) causeBounds g.vbase
    return g

/-- R206: the old range is unmapped with its handles, then the new one mapped. -/
def State.genSet (s : State) (ctx w : Nat) (g : GenWin) : State :=
  let s1 := match (s.ctx ctx).bind fun c => assocGet c.gens w with
    | none => s
    | some o => s.dropHandles ctx o.vbase (o.vbase + o.size)
  s1.onCtx ctx fun c => { c with gens := if g.kind = 0 then assocDrop c.gens w else assocSet c.gens w g }

/-- GENCFG (R206). -/
def execGencfg (y : BitVec 2) (w : BitVec 4) (a : BitVec 5) (s : State) : Out :=
  issue .c y [.s a] s fun s _ =>
    ofChk (s.me.record (s.me.sreg a).toNat 64 64) fun r =>
      ofChk (s.genCheck w.toNat r) fun g => .done (s.genSet s.me.ident.ctx w.toNat g)

/-- GENINV (R206): the model keeps no copies of a window's data, so only the generation number changes. -/
def execGeninv (y : BitVec 2) (w : BitVec 4) (s : State) : Out :=
  issue .c y [] s fun s _ =>
    .done (s.onCtx s.me.ident.ctx fun c => { c with gens := assocMap c.gens w.toNat fun g => { g with gen := g.gen + 1 } })

/-! ## NOTIFY -/

/-- R122, R208: what an engine still waits for at its NOTIFY. -/
def Group.notifyWaits (g : Group) (e : Engine) : Bool :=
  match e with
  | .c => g.incomplete != 0
  | .m => !g.mesh.ops.isEmpty || g.mesh.batches.any (·.name.isSome)
  | .s => g.streams.any fun z => z.pat.drained && z.st == .running && !z.buf.isEmpty
  | _ => false

/-- R59, R70, R208: an empty mask, a counter without CT, a counter not granted. Log entry 24. -/
def State.badNotify (s : State) (m : BitVec 5) (c : BitVec 1) (n : BitVec 12) : Option Nat :=
  if m = 0 ∨ (c = 0 ∧ n ≠ 0) then some causeReserved else if c = 1 then s.needCtr n else none

/-- NOTIFY (R208), by the engine that acts. -/
def execNotify (y : BitVec 2) (m : BitVec 5) (c : BitVec 1) (n : BitVec 12) (s : State) : Out :=
  let e := s.actor
  issuePre (s.badNotify m c n) e y [] s fun s _ =>
    if s.me.notifyWaits e then .wait
    else .done (s.onEng e fun x =>
      { x with stopped := true, notify := if c = 1 then some (s.me.itemAddr e, n.toNat) else none })

end Sys2Proof.Machine
end

