-- ==== Sys2Proof/Machine/Scalar.lean ====
section
/-! DEFINITION. Scalar arithmetic, logic and compares of engine C (05_control R78 to R83). Each meaning is one line over a shared
form: the sources, the value and the latency. -/

namespace Sys2Proof.Machine

/-! ## Shared forms -/

/-- An instruction that writes one scalar from scalars (R78, R79). -/
def scalarOp (y : BitVec 2) (d : BitVec 5) (srcs : List Reg) (lat : Nat) (f : Group → BitVec 64) (s : State) : Out :=
  issue .c y srcs s fun s t => .done (s.result .c (.s d) (.word (f s.me)) t lat)

/-- The three-register form (R79). -/
def scalar2 (y : BitVec 2) (d a b : BitVec 5) (lat : Nat) (f : BitVec 64 → BitVec 64 → BitVec 64) (s : State) : Out :=
  scalarOp y d [.s a, .s b] lat (fun g => f (g.sreg a) (g.sreg b)) s

/-- The immediate form and the one-operand form (R79, R81). -/
def scalar1 (y : BitVec 2) (d a : BitVec 5) (f : BitVec 64 → BitVec 64) (s : State) : Out :=
  scalarOp y d [.s a] 1 (fun g => f (g.sreg a)) s

/-! ## Values -/

/-- R79: the upper half of the signed product. -/
def mulHigh (a b : BitVec 64) : BitVec 64 := BitVec.ofInt 64 ((a.toInt * b.toInt).fdiv (2 ^ 64))

/-- R79: the upper half of the unsigned product. -/
def mulHighU (a b : BitVec 64) : BitVec 64 := BitVec.ofNat 64 (a.toNat * b.toNat / 2 ^ 64)

/-- R80. -/
def divS (a b : BitVec 64) : BitVec 64 := if b = 0 then 0xFFFFFFFFFFFFFFFF else a.sdiv b
def divU (a b : BitVec 64) : BitVec 64 := if b = 0 then 0xFFFFFFFFFFFFFFFF else a / b
def remS (a b : BitVec 64) : BitVec 64 := if b = 0 then a else a.srem b
def remU (a b : BitVec 64) : BitVec 64 := if b = 0 then a else a % b

/-- R79: SHL, SHR and SAR by s[b] mod 64. -/
def shlMod (a b : BitVec 64) : BitVec 64 := a <<< (b.toNat % 64)
def shrMod (a b : BitVec 64) : BitVec 64 := a >>> (b.toNat % 64)
def sarMod (a b : BitVec 64) : BitVec 64 := a.sshiftRight (b.toNat % 64)

/-- R79: a condition as 0 or 1. -/
def bool64 (b : Bool) : BitVec 64 := if b then 1 else 0

/-- R79: the low 64 bits of the concatenation shifted right. -/
def funnel (a b x : BitVec 64) : BitVec 64 := BitVec.ofNat 64 ((a.toNat * 2 ^ 64 + b.toNat) / 2 ^ (x.toNat % 64))

/-- Leading zero bits of a number of `w` bits. -/
def leadingZeros (w n : Nat) : Nat := if n = 0 then w else w - 1 - Nat.log2 n

/-- Trailing zero bits; `w` bounds them. -/
def trailingZeros : Nat → Nat → Nat
  | 0, _ => 0
  | w + 1, n => if n % 2 = 1 then 0 else 1 + trailingZeros w (n / 2)

/-- One bits. -/
def oneBits : Nat → Nat → Nat
  | 0, _ => 0
  | w + 1, n => n % 2 + oneBits w (n / 2)

/-- R81: EXT, a field of `w` bits from `pos` on. -/
def extField (a : BitVec 64) (pos w : Nat) : BitVec 64 := BitVec.ofNat 64 (a.toNat / 2 ^ pos % 2 ^ w)

/-- R81: INS. -/
def insField (old a : BitVec 64) (pos w : Nat) : BitVec 64 :=
  let m : BitVec 64 := BitVec.ofNat 64 ((2 ^ w - 1) * 2 ^ pos)
  (old &&& ~~~m) ||| (BitVec.ofNat 64 (a.toNat % 2 ^ w * 2 ^ pos) &&& m)

/-- R82. -/
def lihValue (old : BitVec 64) (k : BitVec 15) : BitVec 64 := old <<< 15 ||| k.setWidth 64

/-! ## Meanings -/

/-- ADD (R79). -/
def execAdd (y : BitVec 2) (d a b : BitVec 5) (s : State) : Out :=
  scalar2 y d a b 1 (· + ·) s

/-- SUB (R79). -/
def execSub (y : BitVec 2) (d a b : BitVec 5) (s : State) : Out :=
  scalar2 y d a b 1 (· - ·) s

/-- MUL (R79). -/
def execMul (y : BitVec 2) (d a b : BitVec 5) (s : State) : Out :=
  scalar2 y d a b 3 (· * ·) s

/-- MULH (R79). -/
def execMulh (y : BitVec 2) (d a b : BitVec 5) (s : State) : Out :=
  scalar2 y d a b 3 mulHigh s

/-- MULHN (R79). -/
def execMulhn (y : BitVec 2) (d a b : BitVec 5) (s : State) : Out :=
  scalar2 y d a b 3 mulHighU s

/-- DIV (R80). -/
def execDiv (y : BitVec 2) (d a b : BitVec 5) (s : State) : Out :=
  scalar2 y d a b 18 divS s

/-- DIVN (R80). -/
def execDivn (y : BitVec 2) (d a b : BitVec 5) (s : State) : Out :=
  scalar2 y d a b 18 divU s

/-- REM (R80). -/
def execRem (y : BitVec 2) (d a b : BitVec 5) (s : State) : Out :=
  scalar2 y d a b 18 remS s

/-- REMN (R80). -/
def execRemn (y : BitVec 2) (d a b : BitVec 5) (s : State) : Out :=
  scalar2 y d a b 18 remU s

/-- AND (R79). -/
def execAnd (y : BitVec 2) (d a b : BitVec 5) (s : State) : Out :=
  scalar2 y d a b 1 (· &&& ·) s

/-- OR (R79). -/
def execOr (y : BitVec 2) (d a b : BitVec 5) (s : State) : Out :=
  scalar2 y d a b 1 (· ||| ·) s

/-- XOR (R79). -/
def execXor (y : BitVec 2) (d a b : BitVec 5) (s : State) : Out :=
  scalar2 y d a b 1 (· ^^^ ·) s

/-- SHL (R79). -/
def execShl (y : BitVec 2) (d a b : BitVec 5) (s : State) : Out :=
  scalar2 y d a b 1 shlMod s

/-- SHR (R79). -/
def execShr (y : BitVec 2) (d a b : BitVec 5) (s : State) : Out :=
  scalar2 y d a b 1 shrMod s

/-- SAR (R79). -/
def execSar (y : BitVec 2) (d a b : BitVec 5) (s : State) : Out :=
  scalar2 y d a b 1 sarMod s

/-- SLT (R79). -/
def execSlt (y : BitVec 2) (d a b : BitVec 5) (s : State) : Out :=
  scalar2 y d a b 1 (fun u v => bool64 (u.slt v)) s

/-- SLTN (R79). -/
def execSltn (y : BitVec 2) (d a b : BitVec 5) (s : State) : Out :=
  scalar2 y d a b 1 (fun u v => bool64 (u.ult v)) s

/-- MIN (R79). -/
def execMin (y : BitVec 2) (d a b : BitVec 5) (s : State) : Out :=
  scalar2 y d a b 1 (fun u v => if v.slt u then v else u) s

/-- MAX (R79). -/
def execMax (y : BitVec 2) (d a b : BitVec 5) (s : State) : Out :=
  scalar2 y d a b 1 (fun u v => if u.slt v then v else u) s

/-- MINN (R79). -/
def execMinn (y : BitVec 2) (d a b : BitVec 5) (s : State) : Out :=
  scalar2 y d a b 1 (fun u v => if v.ult u then v else u) s

/-- MAXN (R79). -/
def execMaxn (y : BitVec 2) (d a b : BitVec 5) (s : State) : Out :=
  scalar2 y d a b 1 (fun u v => if u.ult v then v else u) s

/-- FSH (R79). -/
def execFsh (y : BitVec 2) (d a b x : BitVec 5) (s : State) : Out :=
  scalarOp y d [.s a, .s b, .s x] 1 (fun g => funnel (g.sreg a) (g.sreg b) (g.sreg x)) s

/-- SEL (R79). -/
def execSel (y : BitVec 2) (d a b : BitVec 5) (p : BitVec 3) (s : State) : Out :=
  scalarOp y d [.s a, .s b, .p p] 1 (fun g => if g.preg p then g.sreg a else g.sreg b) s

/-- ADDI (R81). -/
def execAddi (y : BitVec 2) (d a : BitVec 5) (k : BitVec 10) (s : State) : Out :=
  scalar1 y d a (fun u => u + simm10 k) s

/-- ANDI (R81). -/
def execAndi (y : BitVec 2) (d a : BitVec 5) (k : BitVec 10) (s : State) : Out :=
  scalar1 y d a (fun u => u &&& simm10 k) s

/-- ORI (R81). -/
def execOri (y : BitVec 2) (d a : BitVec 5) (k : BitVec 10) (s : State) : Out :=
  scalar1 y d a (fun u => u ||| simm10 k) s

/-- XORI (R81). -/
def execXori (y : BitVec 2) (d a : BitVec 5) (k : BitVec 10) (s : State) : Out :=
  scalar1 y d a (fun u => u ^^^ simm10 k) s

/-- SHLI (R81). -/
def execShli (y : BitVec 2) (d a : BitVec 5) (k : BitVec 6) (s : State) : Out :=
  scalar1 y d a (fun u => u <<< k.toNat) s

/-- SHRI (R81). -/
def execShri (y : BitVec 2) (d a : BitVec 5) (k : BitVec 6) (s : State) : Out :=
  scalar1 y d a (fun u => u >>> k.toNat) s

/-- SARI (R81). -/
def execSari (y : BitVec 2) (d a : BitVec 5) (k : BitVec 6) (s : State) : Out :=
  scalar1 y d a (fun u => u.sshiftRight k.toNat) s

/-- SLTI (R81). -/
def execSlti (y : BitVec 2) (d a : BitVec 5) (k : BitVec 10) (s : State) : Out :=
  scalar1 y d a (fun u => bool64 (u.slt (simm10 k))) s

/-- EXT (R81): pos is k[5:0], w is k[9:6] + 1. -/
def execExt (y : BitVec 2) (d a : BitVec 5) (l : BitVec 4) (p : BitVec 6) (s : State) : Out :=
  scalar1 y d a (fun u => extField u p.toNat (l.toNat + 1)) s

/-- INS (R81); it reads s[d]. -/
def execIns (y : BitVec 2) (d a : BitVec 5) (l : BitVec 4) (p : BitVec 6) (s : State) : Out :=
  scalarOp y d [.s a, .s d] 1 (fun g => insField (g.sreg d) (g.sreg a) p.toNat (l.toNat + 1)) s

/-- CLZ (R79). -/
def execClz (y : BitVec 2) (d a : BitVec 5) (s : State) : Out :=
  scalar1 y d a (fun u => BitVec.ofNat 64 (leadingZeros 64 u.toNat)) s

/-- CTZ (R79). -/
def execCtz (y : BitVec 2) (d a : BitVec 5) (s : State) : Out :=
  scalar1 y d a (fun u => BitVec.ofNat 64 (trailingZeros 64 u.toNat)) s

/-- POPC (R79). -/
def execPopc (y : BitVec 2) (d a : BitVec 5) (s : State) : Out :=
  scalar1 y d a (fun u => BitVec.ofNat 64 (oneBits 64 u.toNat)) s

/-- LIH (R82); it reads s[d]. -/
def execLih (y : BitVec 2) (d : BitVec 5) (k : BitVec 15) (s : State) : Out :=
  scalarOp y d [.s d] 1 (fun g => lihValue (g.sreg d) k) s

/-- R70: an unassigned condition code is ILLEGAL. -/
def badCond (c : BitVec 3) : Option Nat := causeIf (condOf c.toNat).isNone causeIllegal

/-- CMP.cc (R83). -/
def execCmpCc (y : BitVec 2) (d : BitVec 3) (a b : BitVec 5) (c : BitVec 3) (s : State) : Out :=
  issuePre (badCond c) .c y [.s a, .s b] s fun s t =>
    match condOf c.toNat with
    | none => .trap causeIllegal 0 0
    | some c => .done (s.predicate d (c.holds (s.me.sreg a) (s.me.sreg b)) t)

/-- CMPI.cc (R83): the immediate is signed but for .ltn and .len. -/
def execCmpiCc (c : BitVec 3) (y : BitVec 2) (d : BitVec 3) (a : BitVec 5) (k : BitVec 10) (s : State) : Out :=
  issuePre (badCond c) .c y [.s a] s fun s t =>
    match condOf c.toNat with
    | none => .trap causeIllegal 0 0
    | some c =>
      let v := if c = .ltn ∨ c = .len then zimm10 k else simm10 k
      .done (s.predicate d (c.holds (s.me.sreg a) v) t)

/-- NOP of engine C (R96). -/
def execNopC (y : BitVec 2) (s : State) : Out :=
  issue .c y [] s fun s _ => .done s

end Sys2Proof.Machine
end

