-- ==== Sys2Proof/Machine/Vector.lean ====
section
/-! DEFINITION. Instructions of engine V (06_vector R97 to R118). Every two-opcode instruction is one shared meaning over the
operand b, which names a register in the even opcode and a stream or queue in the odd one (R99, R100). -/

namespace Sys2Proof.Machine

/-! ## Shared forms -/

/-- An instruction whose operand b may be a stream or a queue: the sources besides b, a check of R70 order 3 and 5, and the
effect on the popped operand. Log entry 47. -/
def vForm (zq : Bool) (y : BitVec 2) (b : BitVec 5) (wide : Bool) (srcs : List Reg) (bad : Option Nat) (s : State)
    (f : VReg → State → Nat → Effect) : Out :=
  issuePre bad .v y (srcs ++ vregSrcs zq b) s fun s t => (s.vsrc zq b wide).then fun vb s1 => f vb s1 t

/-- The result of a V instruction. -/
def State.vOut (s : State) (d : BitVec 5) (v : VReg) (t lat : Nat) : Effect := .done (s.result .v (.v d) (.vec v) t lat)

/-- One vector from b. -/
def vForm1 (zq : Bool) (y : BitVec 2) (d b : BitVec 5) (wide : Bool) (srcs : List Reg) (bad : Option Nat) (lat : Nat) (s : State)
    (f : State → VReg → VReg) : Out :=
  vForm zq y b wide srcs bad s fun vb s1 t => s1.vOut d (f s1 vb) t lat

/-- An integer operation on elements, wrapping or saturating (R104). -/
def intOp (sg : Bool) (w : Nat) (sat : Bool) (f : Int → Int → Int) (x y : Nat) : Nat :=
  let r := f (intVal sg w x) (intVal sg w y)
  wrapInt w (if sat then clampInt sg w r else r)

/-- R103: the types of VADD. -/
def isAddTy : Option Ty → Bool
  | some (.int _ _) => true
  | some (.flt f) => f == fmtF32 || f == fmtF64
  | _ => false

/-- R99, R104: what the type and the modifier bit of an arithmetic form raise. -/
def badArith (ok : Option Ty → Bool) (t : BitVec 4) (sat : Bool) : Option Nat :=
  let ty := tyOfCode t.toNat
  match ty with
  | some (.flt _) => if sat then some causeReserved else if ok ty then none else some causeIllegal
  | _ => if ok ty then none else some causeIllegal

/-- The type of a code that has been checked. -/
def tyOf (t : BitVec 4) : Ty := (tyOfCode t.toNat).getD (.int true 32)

/-- R102: 3 cy for 8- to 32-bit types, 5 cy for 64-bit ones. -/
def arithLat (ty : Ty) : Nat := if ty.bits = 64 then 5 else 3

/-- An elementwise operation of two operands. -/
def elemwise (ty : Ty) (f : Nat → Nat → Nat) (va vb : VReg) : VReg :=
  mkElems ty (fun k => f (va.elem ty.bits k) (vb.elem ty.bits k)) 0

/-- A bitwise operation over lanes (R103). -/
def lanewise (f : BitVec 32 → BitVec 32 → BitVec 32) (va vb : VReg) : VReg := ⟨mkLanes fun i => f (va.lane i) (vb.lane i), 0⟩

/-- VADD, VSUB, VMUL, VMIN, VMAX: integer and floating-point operation by type. -/
def arith2 (zq : Bool) (y : BitVec 2) (d a b : BitVec 5) (t : BitVec 4) (sat : Bool) (fi : Int → Int → Int)
    (ff : Fmt → Nat → Nat → Nat) (s : State) : Out :=
  let ty := tyOf t
  vForm1 zq y d b (ty.bits == 64) [.v a] (badArith isAddTy t sat) (arithLat ty) s fun s vb =>
    match ty with
    | .int sg w => elemwise ty (intOp sg w sat fi) (s.me.vreg a) vb
    | .flt f => elemwise ty (ff f) (s.me.vreg a) vb
    | .bx => vb

/-- VABS and VNEG. -/
def arith1 (zq : Bool) (y : BitVec 2) (d b : BitVec 5) (t : BitVec 4) (sat : Bool) (fi : Int → Int) (ff : Fmt → Nat → Nat)
    (s : State) : Out :=
  let ty := tyOf t
  vForm1 zq y d b (ty.bits == 64) [] (badArith isAddTy t sat) (arithLat ty) s fun _ vb =>
    match ty with
    | .int sg w => elemwise ty (intOp sg w sat fun x _ => fi x) vb vb
    | .flt f => elemwise ty (fun x _ => ff f x) vb vb
    | .bx => vb

/-! ## Lane arithmetic -/

/-- VADD (R103 to R105). -/
def vAdd (zq : Bool) (y : BitVec 2) (d a b : BitVec 5) (t : BitVec 4) (x : BitVec 1) (s : State) : Out :=
  arith2 zq y d a b t (x == 1) (· + ·) (fun f => fAdd f .rne) s
def execVadd (y : BitVec 2) (d a b : BitVec 5) (t : BitVec 4) (x : BitVec 1) (s : State) : Out := vAdd false y d a b t x s
def execVaddZq (y : BitVec 2) (d a b : BitVec 5) (t : BitVec 4) (x : BitVec 1) (s : State) : Out := vAdd true y d a b t x s

/-- VSUB (R103 to R105). -/
def vSub (zq : Bool) (y : BitVec 2) (d a b : BitVec 5) (t : BitVec 4) (x : BitVec 1) (s : State) : Out :=
  arith2 zq y d a b t (x == 1) (· - ·) (fun f => fSub f .rne) s
def execVsub (y : BitVec 2) (d a b : BitVec 5) (t : BitVec 4) (x : BitVec 1) (s : State) : Out := vSub false y d a b t x s
def execVsubZq (y : BitVec 2) (d a b : BitVec 5) (t : BitVec 4) (x : BitVec 1) (s : State) : Out := vSub true y d a b t x s

/-- VMUL (R103 to R105). -/
def vMul (zq : Bool) (y : BitVec 2) (d a b : BitVec 5) (t : BitVec 4) (x : BitVec 1) (s : State) : Out :=
  arith2 zq y d a b t (x == 1) (· * ·) (fun f => fMul f .rne) s
def execVmul (y : BitVec 2) (d a b : BitVec 5) (t : BitVec 4) (x : BitVec 1) (s : State) : Out := vMul false y d a b t x s
def execVmulZq (y : BitVec 2) (d a b : BitVec 5) (t : BitVec 4) (x : BitVec 1) (s : State) : Out := vMul true y d a b t x s

/-- R103: the types of VFMA. -/
def isFmaTy (ty : Option Ty) : Bool := isAddTy ty && ty.all fun t => decide (32 ≤ t.bits)

/-- VFMA (R103, R105): a * b + vd, one rounding. -/
def vFma (zq : Bool) (y : BitVec 2) (d a b : BitVec 5) (t : BitVec 4) (s : State) : Out :=
  let ty := tyOf t
  vForm1 zq y d b (ty.bits == 64) [.v a, .v d] (badArith isFmaTy t false) (if ty.bits = 64 then 7 else 5) s fun s vb =>
    let va := s.me.vreg a
    let vd := s.me.vreg d
    let w := ty.bits
    match ty with
    | .int sg _ => mkElems ty (fun k =>
        wrapInt w (intVal sg w (va.elem w k) * intVal sg w (vb.elem w k) + intVal sg w (vd.elem w k))) 0
    | .flt f => mkElems ty (fun k => fFma f .rne (va.elem w k) (vb.elem w k) (vd.elem w k)) 0
    | .bx => vb
def execVfma (y : BitVec 2) (d a b : BitVec 5) (t : BitVec 4) (s : State) : Out := vFma false y d a b t s
def execVfmaZq (y : BitVec 2) (d a b : BitVec 5) (t : BitVec 4) (s : State) : Out := vFma true y d a b t s

/-- VMIN (R103, R105). -/
def vMin (zq : Bool) (y : BitVec 2) (d a b : BitVec 5) (t : BitVec 4) (s : State) : Out := arith2 zq y d a b t false min fMin s
def execVmin (y : BitVec 2) (d a b : BitVec 5) (t : BitVec 4) (s : State) : Out := vMin false y d a b t s
def execVminZq (y : BitVec 2) (d a b : BitVec 5) (t : BitVec 4) (s : State) : Out := vMin true y d a b t s

/-- VMAX (R103, R105). -/
def vMax (zq : Bool) (y : BitVec 2) (d a b : BitVec 5) (t : BitVec 4) (s : State) : Out := arith2 zq y d a b t false max fMax s
def execVmax (y : BitVec 2) (d a b : BitVec 5) (t : BitVec 4) (s : State) : Out := vMax false y d a b t s
def execVmaxZq (y : BitVec 2) (d a b : BitVec 5) (t : BitVec 4) (s : State) : Out := vMax true y d a b t s

/-- VABS (R103 to R105). -/
def vAbs (zq : Bool) (y : BitVec 2) (d b : BitVec 5) (t : BitVec 4) (x : BitVec 1) (s : State) : Out :=
  arith1 zq y d b t (x == 1) (fun z => (z.natAbs : Int)) fAbs s
def execVabs (y : BitVec 2) (d b : BitVec 5) (t : BitVec 4) (x : BitVec 1) (s : State) : Out := vAbs false y d b t x s
def execVabsZq (y : BitVec 2) (d b : BitVec 5) (t : BitVec 4) (x : BitVec 1) (s : State) : Out := vAbs true y d b t x s

/-- VNEG (R103 to R105). -/
def vNeg (zq : Bool) (y : BitVec 2) (d b : BitVec 5) (t : BitVec 4) (x : BitVec 1) (s : State) : Out :=
  arith1 zq y d b t (x == 1) (fun z => -z) fNeg s
def execVneg (y : BitVec 2) (d b : BitVec 5) (t : BitVec 4) (x : BitVec 1) (s : State) : Out := vNeg false y d b t x s
def execVnegZq (y : BitVec 2) (d b : BitVec 5) (t : BitVec 4) (x : BitVec 1) (s : State) : Out := vNeg true y d b t x s

/-- VAND, VOR, VXOR (R103). -/
def bits2 (zq : Bool) (y : BitVec 2) (d a b : BitVec 5) (f : BitVec 32 → BitVec 32 → BitVec 32) (s : State) : Out :=
  vForm1 zq y d b false [.v a] none 2 s fun s vb => lanewise f (s.me.vreg a) vb

/-- VAND (R103). -/
def execVand (y : BitVec 2) (d a b : BitVec 5) (s : State) : Out := bits2 false y d a b (· &&& ·) s
def execVandZq (y : BitVec 2) (d a b : BitVec 5) (s : State) : Out := bits2 true y d a b (· &&& ·) s

/-- VOR (R103). -/
def execVor (y : BitVec 2) (d a b : BitVec 5) (s : State) : Out := bits2 false y d a b (· ||| ·) s
def execVorZq (y : BitVec 2) (d a b : BitVec 5) (s : State) : Out := bits2 true y d a b (· ||| ·) s

/-- VXOR (R103). -/
def execVxor (y : BitVec 2) (d a b : BitVec 5) (s : State) : Out := bits2 false y d a b (· ^^^ ·) s
def execVxorZq (y : BitVec 2) (d a b : BitVec 5) (s : State) : Out := bits2 true y d a b (· ^^^ ·) s

/-- VNOT (R103). -/
def vNot (zq : Bool) (y : BitVec 2) (d b : BitVec 5) (s : State) : Out :=
  vForm1 zq y d b false [] none 2 s fun _ vb => lanewise (fun x _ => ~~~x) vb vb
def execVnot (y : BitVec 2) (d b : BitVec 5) (s : State) : Out := vNot false y d b s
def execVnotZq (y : BitVec 2) (d b : BitVec 5) (s : State) : Out := vNot true y d b s

/-- R103: integer types only. -/
def isIntTy : Option Ty → Bool
  | some (.int _ _) => true
  | _ => false

/-- VSHL, VSHR, VSAR (R103): a shifted by b mod width. -/
def shift2 (zq : Bool) (y : BitVec 2) (d a b : BitVec 5) (t : BitVec 4) (f : Nat → Nat → Nat → Nat) (s : State) : Out :=
  let ty := tyOf t
  let w := ty.bits
  vForm1 zq y d b (w == 64) [.v a] (badArith isIntTy t false) 2 s fun s vb =>
    elemwise ty (fun x n => f w x (n % w)) (s.me.vreg a) vb

/-- R103: shifts of a `w`-bit element. -/
def shlElem (w x n : Nat) : Nat := x * 2 ^ n % 2 ^ w
def shrElem (_ x n : Nat) : Nat := x / 2 ^ n
def sarElem (w x n : Nat) : Nat := wrapInt w ((sextNat w x).fdiv ((2 ^ n : Nat) : Int))

/-- VSHL (R103). -/
def execVshl (y : BitVec 2) (d a b : BitVec 5) (t : BitVec 4) (s : State) : Out := shift2 false y d a b t shlElem s
def execVshlZq (y : BitVec 2) (d a b : BitVec 5) (t : BitVec 4) (s : State) : Out := shift2 true y d a b t shlElem s

/-- VSHR (R103). -/
def execVshr (y : BitVec 2) (d a b : BitVec 5) (t : BitVec 4) (s : State) : Out := shift2 false y d a b t shrElem s
def execVshrZq (y : BitVec 2) (d a b : BitVec 5) (t : BitVec 4) (s : State) : Out := shift2 true y d a b t shrElem s

/-- VSAR (R103). -/
def execVsar (y : BitVec 2) (d a b : BitVec 5) (t : BitVec 4) (s : State) : Out := shift2 false y d a b t sarElem s
def execVsarZq (y : BitVec 2) (d a b : BitVec 5) (t : BitVec 4) (s : State) : Out := shift2 true y d a b t sarElem s

/-- R103: .n types only. -/
def isNatTy : Option Ty → Bool
  | some (.int sg _) => !sg
  | _ => false

/-- VCLZ and VPOPC (R103). -/
def count1 (zq : Bool) (y : BitVec 2) (d b : BitVec 5) (t : BitVec 4) (f : Nat → Nat → Nat) (s : State) : Out :=
  let ty := tyOf t
  vForm1 zq y d b (ty.bits == 64) [] (badArith isNatTy t false) 2 s fun _ vb => elemwise ty (fun x _ => f ty.bits x) vb vb

/-- VCLZ (R103). -/
def execVclz (y : BitVec 2) (d b : BitVec 5) (t : BitVec 4) (s : State) : Out := count1 false y d b t leadingZeros s
def execVclzZq (y : BitVec 2) (d b : BitVec 5) (t : BitVec 4) (s : State) : Out := count1 true y d b t leadingZeros s

/-- VPOPC (R103). -/
def execVpopc (y : BitVec 2) (d b : BitVec 5) (t : BitVec 4) (s : State) : Out := count1 false y d b t oneBits s
def execVpopcZq (y : BitVec 2) (d b : BitVec 5) (t : BitVec 4) (s : State) : Out := count1 true y d b t oneBits s

/-! ## Compares, selection, masks -/

/-- A mask from a test of each lane. -/
def mkMask (f : Nat → Bool) : BitVec 128 :=
  BitVec.ofNat 128 ((List.range 128).foldl (fun acc i => if f i then acc + 2 ^ i else acc) 0)

/-- R106: a condition on elements. -/
def elemHolds (c : Cond) (ty : Ty) (x y : Nat) : Bool :=
  match ty with
  | .flt f => c.holdsFp (fpDecode f x) (fpDecode f y)
  | _ => c.holdsInt ty.bits x y

/-- R106: types and conditions that VCMP accepts. -/
def badCmp (c : Cond) (t : BitVec 4) : Option Nat :=
  match tyOfCode t.toNat with
  | some (.flt f) =>
    if (f == fmtF32 || f == fmtF64) && c != .ltn && c != .len then none else some causeIllegal
  | some (.int _ _) => none
  | _ => some causeIllegal

/-- VCMP.cc (R106). -/
def vCmp (c : Cond) (zq : Bool) (y : BitVec 2) (d : BitVec 3) (a b : BitVec 5) (t : BitVec 4) (s : State) : Out :=
  let ty := tyOf t
  let w := ty.bits
  vForm zq y b (w == 64) [.v a] (badCmp c t) s fun vb s1 n =>
    let va := s1.me.vreg a
    let m := mkMask fun i => let k := if w = 64 then i / 2 else i; elemHolds c ty (va.elem w k) (vb.elem w k)
    .done (s1.result .v (.m d) (.mask m) n 2)

/-- VCMP.eq (R106). -/
def execVcmpEq (y : BitVec 2) (d : BitVec 3) (a b : BitVec 5) (t : BitVec 4) (s : State) : Out := vCmp .eq false y d a b t s
def execVcmpEqZq (y : BitVec 2) (d : BitVec 3) (a b : BitVec 5) (t : BitVec 4) (s : State) : Out := vCmp .eq true y d a b t s

/-- VCMP.ne (R106). -/
def execVcmpNe (y : BitVec 2) (d : BitVec 3) (a b : BitVec 5) (t : BitVec 4) (s : State) : Out := vCmp .ne false y d a b t s
def execVcmpNeZq (y : BitVec 2) (d : BitVec 3) (a b : BitVec 5) (t : BitVec 4) (s : State) : Out := vCmp .ne true y d a b t s

/-- VCMP.lt (R106). -/
def execVcmpLt (y : BitVec 2) (d : BitVec 3) (a b : BitVec 5) (t : BitVec 4) (s : State) : Out := vCmp .lt false y d a b t s
def execVcmpLtZq (y : BitVec 2) (d : BitVec 3) (a b : BitVec 5) (t : BitVec 4) (s : State) : Out := vCmp .lt true y d a b t s

/-- VCMP.le (R106). -/
def execVcmpLe (y : BitVec 2) (d : BitVec 3) (a b : BitVec 5) (t : BitVec 4) (s : State) : Out := vCmp .le false y d a b t s
def execVcmpLeZq (y : BitVec 2) (d : BitVec 3) (a b : BitVec 5) (t : BitVec 4) (s : State) : Out := vCmp .le true y d a b t s

/-- VCMP.ltn (R106). -/
def execVcmpLtn (y : BitVec 2) (d : BitVec 3) (a b : BitVec 5) (t : BitVec 4) (s : State) : Out := vCmp .ltn false y d a b t s
def execVcmpLtnZq (y : BitVec 2) (d : BitVec 3) (a b : BitVec 5) (t : BitVec 4) (s : State) : Out := vCmp .ltn true y d a b t s

/-- VCMP.len (R106). -/
def execVcmpLen (y : BitVec 2) (d : BitVec 3) (a b : BitVec 5) (t : BitVec 4) (s : State) : Out := vCmp .len false y d a b t s
def execVcmpLenZq (y : BitVec 2) (d : BitVec 3) (a b : BitVec 5) (t : BitVec 4) (s : State) : Out := vCmp .len true y d a b t s

/-- VSEL (R106): the exponent field comes from a. -/
def vSel (zq : Bool) (y : BitVec 2) (d a b : BitVec 5) (m : BitVec 3) (s : State) : Out :=
  vForm1 zq y d b false [.v a, .m m] none 2 s fun s vb =>
    let va := s.me.vreg a
    let k := s.me.mreg m
    ⟨mkLanes fun i => if k.getLsbD i then va.lane i else vb.lane i, va.exp⟩
def execVsel (y : BitVec 2) (d a b : BitVec 5) (m : BitVec 3) (s : State) : Out := vSel false y d a b m s
def execVselZq (y : BitVec 2) (d a b : BitVec 5) (m : BitVec 3) (s : State) : Out := vSel true y d a b m s

/-- The mask instructions of two sources (R107). -/
def mask2 (y : BitVec 2) (d a b : BitVec 3) (f : BitVec 128 → BitVec 128 → BitVec 128) (s : State) : Out :=
  issue .v y [.m a, .m b] s fun s t => .done (s.result .v (.m d) (.mask (f (s.me.mreg a) (s.me.mreg b))) t 1)

/-- MAND (R107). -/
def execMand (y : BitVec 2) (d a b : BitVec 3) (s : State) : Out := mask2 y d a b (· &&& ·) s

/-- MOR (R107). -/
def execMor (y : BitVec 2) (d a b : BitVec 3) (s : State) : Out := mask2 y d a b (· ||| ·) s

/-- MXOR (R107). -/
def execMxor (y : BitVec 2) (d a b : BitVec 3) (s : State) : Out := mask2 y d a b (· ^^^ ·) s

/-- MNOT (R107). -/
def execMnot (y : BitVec 2) (d b : BitVec 3) (s : State) : Out :=
  issue .v y [.m b] s fun s t => .done (s.result .v (.m d) (.mask (~~~(s.me.mreg b))) t 1)

/-- A number of a mask into every lane (R107). -/
def maskCount (y : BitVec 2) (d : BitVec 5) (b : BitVec 3) (f : Nat → Nat) (s : State) : Out :=
  issue .v y [.m b] s fun s t =>
    s.vOut d ⟨mkLanes fun _ => BitVec.ofNat 32 (f (s.me.mreg b).toNat), 0⟩ t 2

/-- MPOPC (R107). -/
def execMpopc (y : BitVec 2) (d : BitVec 5) (b : BitVec 3) (s : State) : Out := maskCount y d b (oneBits 128) s

/-- MFIRST (R107): 128 when no bit is set. -/
def execMfirst (y : BitVec 2) (d : BitVec 5) (b : BitVec 3) (s : State) : Out := maskCount y d b (trailingZeros 128) s

/-! ## Conversions -/

/-- The value of an element by its type. -/
def elemFp (ty : Ty) (x : Nat) : Fp :=
  match ty with
  | .int sg w => (⟨intVal sg w x, 0⟩ : Dy).toFp false
  | .flt f => fpDecode f x
  | .bx => .nan

/-- R108: a value into a type; integers saturate (R22). -/
def fpTo (ty : Ty) (rm : Rm) (x : Fp) : Nat :=
  match ty with
  | .int sg w => wrapInt w (fpToInt rm sg w x)
  | .flt f => fpRound f rm x
  | .bx => 0

/-- R108: one element. -/
def cvtElem (st dt : Ty) (rm : Rm) (x : Nat) : Nat :=
  match st, dt with
  | .int sg w, .int sg2 w2 => wrapInt w2 (clampInt sg2 w2 (intVal sg w x))
  | _, _ => fpTo dt rm (elemFp st x)

/-- R108: the whole vector. -/
def cvtVec (st dt : Ty) (rm : Rm) (v : VReg) : VReg :=
  match st, dt with
  | .bx, _ => let b := v.toBx; mkElems dt (fun k => fpTo dt rm (bxLane b k)) 0
  | _, .bx => (bxEncode ((List.range 128).map fun k => elemFp st (v.elem st.bits k))).toVReg
  | _, _ => mkElems dt (fun k => if st.bits = 64 ∧ 64 ≤ k then 0 else cvtElem st dt rm (v.elem st.bits k)) 0

/-- R108: pairs of types, and rounding fields, that VCVT refuses. -/
def badCvt (st dt : BitVec 4) (rm : Nat) : Option Nat :=
  match tyOfCode st.toNat, tyOfCode dt.toNat with
  | some a, some b =>
    let bx := a == .bx || b == .bx
    let isInt (t : Ty) : Bool := isIntTy (some t)
    if a == b || (bx && (a.bits == 64 || b.bits == 64)) || (isInt a && isInt b && rm != 0) then some causeIllegal else none
  | _, _ => some causeIllegal

/-- VCVT (R108): the rounding field is 2 * a[4] + x[0]. -/
def vCvt (zq : Bool) (y : BitVec 2) (d : BitVec 5) (h : BitVec 1) (st : BitVec 4) (b : BitVec 5) (dt : BitVec 4) (l : BitVec 1)
    (s : State) : Out :=
  let rm := 2 * h.toNat + l.toNat
  vForm1 zq y d b ((tyOf st).bits == 64) [] (badCvt st dt rm) 6 s fun _ vb => cvtVec (tyOf st) (tyOf dt) (rmOfCode rm) vb
def execVcvt (y : BitVec 2) (d : BitVec 5) (h : BitVec 1) (st : BitVec 4) (b : BitVec 5) (dt : BitVec 4) (l : BitVec 1)
    (s : State) : Out := vCvt false y d h st b dt l s
def execVcvtZq (y : BitVec 2) (d : BitVec 5) (h : BitVec 1) (st : BitVec 4) (b : BitVec 5) (dt : BitVec 4) (l : BitVec 1)
    (s : State) : Out := vCvt true y d h st b dt l s

/-! ## Bit fields and lane movement -/

/-- R109: pos and w of a lane of b. -/
def fieldPos (b : BitVec 32) : Nat := b.toNat % 32
def fieldLen (b : BitVec 32) : Nat := bitsOf b.toNat 5 5 + 1

/-- R109: a lane of VEXT. -/
def extLane (sx : Bool) (a b : BitVec 32) : BitVec 32 :=
  let f := a.toNat / 2 ^ fieldPos b % 2 ^ fieldLen b
  if sx then BitVec.ofNat 32 (wrapInt 32 (sextNat (fieldLen b) f)) else BitVec.ofNat 32 f

/-- VEXT (R109). -/
def vExt (zq : Bool) (y : BitVec 2) (d a b : BitVec 5) (x : BitVec 1) (s : State) : Out :=
  vForm1 zq y d b false [.v a] none 2 s fun s vb => lanewise (extLane (x == 1)) (s.me.vreg a) vb
def execVext (y : BitVec 2) (d a b : BitVec 5) (x : BitVec 1) (s : State) : Out := vExt false y d a b x s
def execVextZq (y : BitVec 2) (d a b : BitVec 5) (x : BitVec 1) (s : State) : Out := vExt true y d a b x s

/-- R109: a lane of VINS. -/
def insLane (old a b : BitVec 32) : BitVec 32 :=
  let m := (2 ^ fieldLen b - 1) * 2 ^ fieldPos b
  (old &&& ~~~(BitVec.ofNat 32 m)) ||| BitVec.ofNat 32 (a.toNat % 2 ^ fieldLen b * 2 ^ fieldPos b)

/-- VINS (R109). -/
def vIns (zq : Bool) (y : BitVec 2) (d a b : BitVec 5) (s : State) : Out :=
  vForm1 zq y d b false [.v a, .v d] none 2 s fun s vb =>
    ⟨mkLanes fun i => insLane ((s.me.vreg d).lane i) ((s.me.vreg a).lane i) (vb.lane i), 0⟩
def execVins (y : BitVec 2) (d a b : BitVec 5) (s : State) : Out := vIns false y d a b s
def execVinsZq (y : BitVec 2) (d a b : BitVec 5) (s : State) : Out := vIns true y d a b s

/-- R109: a lane of VFSH. -/
def fshLane (low a b : BitVec 32) : BitVec 32 := BitVec.ofNat 32 ((a.toNat * 2 ^ 32 + low.toNat) / 2 ^ (b.toNat % 32))

/-- VFSH (R109). -/
def vFsh (zq : Bool) (y : BitVec 2) (d a b : BitVec 5) (s : State) : Out :=
  vForm1 zq y d b false [.v a, .v d] none 2 s fun s vb =>
    ⟨mkLanes fun i => fshLane ((s.me.vreg d).lane i) ((s.me.vreg a).lane i) (vb.lane i), 0⟩
def execVfsh (y : BitVec 2) (d a b : BitVec 5) (s : State) : Out := vFsh false y d a b s
def execVfshZq (y : BitVec 2) (d a b : BitVec 5) (s : State) : Out := vFsh true y d a b s

/-- VMOV (R110). -/
def vMov (zq : Bool) (y : BitVec 2) (d b : BitVec 5) (s : State) : Out := vForm1 zq y d b false [] none 2 s fun _ vb => vb
def execVmov (y : BitVec 2) (d b : BitVec 5) (s : State) : Out := vMov false y d b s
def execVmovZq (y : BitVec 2) (d b : BitVec 5) (s : State) : Out := vMov true y d b s

/-- VPERM (R110). -/
def vPerm (zq : Bool) (y : BitVec 2) (d a b : BitVec 5) (s : State) : Out :=
  vForm1 zq y d b false [.v a] none 2 s fun s vb =>
    let va := s.me.vreg a
    ⟨mkLanes fun i => va.lane ((vb.lane i).toNat % 128), va.exp⟩
def execVperm (y : BitVec 2) (d a b : BitVec 5) (s : State) : Out := vPerm false y d a b s
def execVpermZq (y : BitVec 2) (d a b : BitVec 5) (s : State) : Out := vPerm true y d a b s

/-- VBCAST (R110): with a queue, a must be zero and every lane takes the entry. -/
def vBcast (zq : Bool) (y : BitVec 2) (d a b : BitVec 5) (s : State) : Out :=
  let queue := zq && b.getLsbD 4
  vForm1 zq y d b false (if queue then [] else [.v a]) (if queue && a != 0 then some causeReserved else none) 2 s fun s vb =>
    if queue then vb
    else
      let x := vb.lane (((s.me.vreg a).lane 0).toNat % 128)
      ⟨mkLanes fun _ => x, vb.exp⟩
def execVbcast (y : BitVec 2) (d a b : BitVec 5) (s : State) : Out := vBcast false y d a b s
def execVbcastZq (y : BitVec 2) (d a b : BitVec 5) (s : State) : Out := vBcast true y d a b s

/-- VLSH (R110): lanes move up by SEXT(lane 0 of b). -/
def vLsh (zq : Bool) (y : BitVec 2) (d a b : BitVec 5) (s : State) : Out :=
  vForm1 zq y d b false [.v a] none 2 s fun s vb =>
    let va := s.me.vreg a
    let k := (vb.lane 0).toInt
    ⟨mkLanes fun i =>
      let j : Int := (i : Int) - k
      if 0 ≤ j ∧ j ≤ 127 then va.lane j.toNat else 0, va.exp⟩
def execVlsh (y : BitVec 2) (d a b : BitVec 5) (s : State) : Out := vLsh false y d a b s
def execVlshZq (y : BitVec 2) (d a b : BitVec 5) (s : State) : Out := vLsh true y d a b s

/-- R110: the head of a stream, left where it is; V claims the stream. -/
def State.streamPeek (s : State) (z : BitVec 4) : Got VReg :=
  match s.streamPop .v z with
  | .ok v _ => .ok v (s.onMe (·.setStream z { (s.me.stream z) with owner := some .v }))
  | x => x

/-- VFROMS (R110). -/
def execVfroms (y : BitVec 2) (d b : BitVec 5) (s : State) : Out :=
  issue .v y [] s fun s t =>
    if b.getLsbD 4 then (s.queuePeek .v (b.setWidth 4)).then fun v s1 => s1.vOut d (queueVec false v) t 2
    else (s.streamPeek (b.setWidth 4)).then fun v s1 => s1.vOut d v t 2

/-- VTOS (R110). -/
def execVtos (y : BitVec 2) (a b : BitVec 5) (s : State) : Out :=
  issue .v y [.v a] s fun s _ =>
    let va := s.me.vreg a
    if b.getLsbD 4 then (s.queuePush .v (b.setWidth 4) ((va.lane 0).setWidth 64)).then fun _ s1 => .done s1
    else (s.streamPush (b.setWidth 4) va).then fun _ s1 => .done s1

/-- VLI (R110): the exponent field keeps its value. -/
def execVli (y : BitVec 2) (d : BitVec 5) (k : BitVec 15) (s : State) : Out :=
  issue .v y [.v d] s fun s t =>
    let v := s.me.vreg d
    s.vOut d ⟨mkLanes fun i => BitVec.ofNat 32 ((v.lane i).toNat * 2 ^ 15 + k.toNat), v.exp⟩ t 2

/-! ## Reductions and scans -/

/-- R111: the types of VRED and VSCAN. -/
def isRedTy (ty : Option Ty) : Bool := isFmaTy ty

/-- R44, R46, R111: profiles and types that trap. -/
def badRed (p t : BitVec 4) (isMax nivose : Bool) : Option Nat :=
  let ty := tyOfCode t.toNat
  let exactF64 := p == 4 && !isMax && ty == some (.flt fmtF64)
  if isRedTy ty && (p == 3 || p == 4 || (p == 0 && !nivose)) && !exactF64 then none else some causeIllegal

/-- R111: the identity of an operation. -/
def redId (ty : Ty) (isMax : Bool) : Nat :=
  if !isMax then 0
  else match ty with
    | .int sg w => wrapInt w (intMin sg w)
    | .flt f => fpInf f true
    | .bx => 0

/-- R111: one node. -/
def redOp (ty : Ty) (isMax : Bool) (x y : Nat) : Nat :=
  match ty with
  | .int sg w => intOp sg w false (if isMax then max else (· + ·)) x y
  | .flt f => if isMax then fMax f x y else fAdd f .rne x y
  | .bx => 0

/-- R111, R35, R37: the exact sum of .f32 elements in XF320. -/
def exactSum (l : List Nat) : Nat :=
  let r := l.foldl (fun p x => xfAdd p.1 p.2 (fpDecode fmtF32 x)) (0, 0)
  xfRead fmtF32 .rne r.1 r.2

/-- R111: the reduction of a list under a profile; `k` is the first free value of a floating-point sum under profile 0, which
leaves the order and the rounding points open (R44; log entry 10). Integer sums and maxima do not depend on the order. -/
def reduce (ty : Ty) (p : Nat) (isMax : Bool) (k : Nat) (l : List Nat) : Nat :=
  match ty with
  | .flt f =>
    if isMax then treeReduce (redOp ty isMax) (redId ty isMax) l
    else if p = 0 then fpRound f .rne (freeSum f l.length k (l.map (fpDecode f)))
    else if p = 4 then exactSum l
    else treeReduce (redOp ty isMax) (redId ty isMax) l
  | _ => treeReduce (redOp ty isMax) (redId ty isMax) l

/-- R111: the elements, those that the mask governs away as the identity. -/
def redElems (ty : Ty) (isMax : Bool) (mask : Option (BitVec 128)) (v : VReg) : List Nat :=
  (List.range (elemCount ty.bits)).map fun k =>
    let on := match mask with
      | none => true
      | some m => m.getLsbD (if ty.bits = 64 then 2 * k else k)
    if on then v.elem ty.bits k else redId ty isMax

/-- R102: 12 cy under profile 4, else 10 cy. -/
def redLat (p : BitVec 4) : Nat := if p = 4 then 12 else 10

/-- Use `n` free values. -/
def State.freshMany (s : State) (n : Nat) : State := { s with free := s.free + n }

/-- VRED and VSCAN (R111). -/
def vReduce (scan zq : Bool) (y : BitVec 2) (d : BitVec 5) (m : BitVec 1) (p : BitVec 4) (b : BitVec 5) (t : BitVec 4) (x : BitVec 1)
    (s : State) : Out :=
  let ty := tyOf t
  let isMax := x == 1
  vForm zq y b (ty.bits == 64) (if m = 1 then [.m 0] else []) (badRed p t isMax s.me.nivose) s fun vb s1 n =>
    let l := redElems ty isMax (if m = 1 then some (s1.me.mreg 0) else none) vb
    let each := freePerSum l.length
    let s2 := if p = 0 then s1.freshMany (if scan then l.length * each else each) else s1
    let upTo (k : Nat) : List Nat :=
      l.take (k + 1) ++ (if p = 0 then [] else List.replicate (l.length - (k + 1)) (redId ty isMax))
    let v := if scan then mkElems ty (fun k => reduce ty p.toNat isMax (s1.free + k * each) (upTo k)) 0
      else
        let r := reduce ty p.toNat isMax s1.free l
        mkElems ty (fun _ => r) 0
    s2.vOut d v n (redLat p)

/-- VRED (R111). -/
def execVred (y : BitVec 2) (d : BitVec 5) (m : BitVec 1) (p : BitVec 4) (b : BitVec 5) (t : BitVec 4) (x : BitVec 1) (s : State) :
    Out := vReduce false false y d m p b t x s
def execVredZq (y : BitVec 2) (d : BitVec 5) (m : BitVec 1) (p : BitVec 4) (b : BitVec 5) (t : BitVec 4) (x : BitVec 1)
    (s : State) : Out := vReduce false true y d m p b t x s

/-- VSCAN (R111). -/
def execVscan (y : BitVec 2) (d : BitVec 5) (m : BitVec 1) (p : BitVec 4) (b : BitVec 5) (t : BitVec 4) (x : BitVec 1)
    (s : State) : Out := vReduce true false y d m p b t x s
def execVscanZq (y : BitVec 2) (d : BitVec 5) (m : BitVec 1) (p : BitVec 4) (b : BitVec 5) (t : BitVec 4) (x : BitVec 1)
    (s : State) : Out := vReduce true true y d m p b t x s

/-! ## Scratchpad from the lanes -/

/-- R98, R112: element types of 8 to 32 bits; a narrow floating-point format only VCVT, VMOV, VSPLIT and the streams accept.
Log entry 47. -/
def badLanes (t : BitVec 4) : Option Nat :=
  match tyOfCode t.toNat with
  | some (.int _ w) => if w = 64 then some causeIllegal else none
  | some (.flt f) => if f = fmtF32 then none else some causeIllegal
  | _ => some causeIllegal

/-- R112, R219: the lowest lane whose address fails decides; pending words behind these checks. -/
def Group.laneCheck (g : Group) (n : Nat) (addrs : List Nat) : Chk Unit := do
  match addrs.find? (fun a => a % n != 0 || decide (2 ^ 26 < a + n)) with
  | some a => .error (if a % n != 0 then causeAlign else causeBounds, a)
  | none =>
    match addrs.find? (fun a => g.isPending false g.ident.core a n) with
    | some a => .error (causePending, a)
    | none => .ok ()

/-- R112: the addresses of the lanes, by an index of each lane. -/
def laneAddrs (n : Nat) (index : BitVec 32 → Nat) (va vb : VReg) : List Nat :=
  (List.range 128).map fun i => (vb.lane 0).toNat + index (va.lane i) * n

/-- R302: a 17th outstanding VGATH or VLUT waits. -/
def State.vFull (s : State) : Bool := decide (16 ≤ (s.eng .v).outstanding)

/-- VGATH and VLUT (R112): assumed latency 14 cy (R102). -/
def gather (index : BitVec 32 → Nat) (zq : Bool) (y : BitVec 2) (d a b : BitVec 5) (t : BitVec 4) (s : State) : Out :=
  let ty := tyOf t
  let n := ty.bits / 8
  vForm zq y b false [.v a] (badLanes t) s fun vb s1 now =>
    let addrs := laneAddrs n index (s1.me.vreg a) vb
    ofChk (s1.me.laneCheck n addrs) fun _ =>
      if s1.vFull then .wait
      else
        let v : VReg := ⟨mkLanes fun i => laneOf ty (s1.me.spadVal (addrs.getD i 0) n), 0⟩
        .done (s1.onMe (·.fly .v (lateFlight (.v d) (.vec v) (now + 14) none none none)))

/-- R112: the index of VLUT, clamped to [0, 4095]. -/
def lutIndex (a : BitVec 32) : Nat := (max 0 (min 4095 a.toInt)).toNat

/-- VGATH (R112). -/
def execVgath (y : BitVec 2) (d a b : BitVec 5) (t : BitVec 4) (s : State) : Out := gather (·.toNat) false y d a b t s
def execVgathZq (y : BitVec 2) (d a b : BitVec 5) (t : BitVec 4) (s : State) : Out := gather (·.toNat) true y d a b t s

/-- VLUT (R112). -/
def execVlut (y : BitVec 2) (d a b : BitVec 5) (t : BitVec 4) (s : State) : Out := gather lutIndex false y d a b t s
def execVlutZq (y : BitVec 2) (d a b : BitVec 5) (t : BitVec 4) (s : State) : Out := gather lutIndex true y d a b t s

/-- Store the elements of lanes, lowest first (R112). -/
def Group.scatter (g : Group) (n : Nat) (v : VReg) (addrs : List Nat) : Group :=
  ((List.range 128).zip addrs).foldl (fun x p => x.spadPut p.2 (leBytes n (v.lane p.1).toNat)) g

/-- VSCAT (R112). -/
def vScat (zq : Bool) (y : BitVec 2) (d a b : BitVec 5) (t : BitVec 4) (s : State) : Out :=
  let n := (tyOf t).bits / 8
  vForm zq y b false [.v a, .v d] (badLanes t) s fun vb s1 _ =>
    let addrs := laneAddrs n (·.toNat) (s1.me.vreg a) vb
    ofChk (s1.me.laneCheck n addrs) fun _ => .done (s1.onMe fun g => g.scatter n (g.vreg d) addrs)
def execVscat (y : BitVec 2) (d a b : BitVec 5) (t : BitVec 4) (s : State) : Out := vScat false y d a b t s
def execVscatZq (y : BitVec 2) (d a b : BitVec 5) (t : BitVec 4) (s : State) : Out := vScat true y d a b t s

/-- R113: types of VAADD. -/
def badVaadd (t : BitVec 4) : Option Nat :=
  if t.toNat = 2 ∨ t.toNat = 6 ∨ t.toNat = 10 then none else some causeIllegal

/-- R113: one addition. -/
def vaaddOp (ty : Ty) (sat : Bool) (x y : Nat) : Nat :=
  match ty with
  | .int sg w => intOp sg w sat (· + ·) x y
  | .flt f => fAdd f .rne x y
  | .bx => 0

/-- R43, R113: contributions to one word: lowest lane first, then the word; in Nivose mode a saturating sum is exact, saturated
once. -/
def vaaddWord (ty : Ty) (sat exact : Bool) (old : Nat) (l : List Nat) : Nat :=
  match ty with
  | .int sg w =>
    if sat && exact then
      wrapInt w (clampInt sg w (l.foldl (fun acc x => acc + intVal sg w x) (intVal sg w old)))
    else vaaddOp ty sat old (l.tail.foldl (vaaddOp ty sat) (l.headD 0))
  | _ => vaaddOp ty sat old (l.tail.foldl (vaaddOp ty sat) (l.headD 0))

/-- R113: the words in ascending order of their lowest lane. -/
def Group.vaadd (ty : Ty) (sat : Bool) (v : VReg) (g : Group) (addrs : List Nat) : Group :=
  let all := (List.range 128).zip addrs
  addrs.eraseDups.foldl (fun x a =>
    let l := (all.filter fun p => p.2 == a).map fun p => (v.lane p.1).toNat
    x.spadPut a (leBytes 4 (vaaddWord ty sat g.nivose (x.spadVal a 4) l))) g

/-- R113: the checks of VAADD.xf. -/
def Group.slotCheck (g : Group) (slots : List Nat) : Chk Unit := do
  match slots.find? (fun w => w % 8 != 0 || decide (accWords < w + 8)) with
  | some w => .error (if w % 8 != 0 then causeAlign else causeBounds, w)
  | none =>
    match slots.find? (fun w => g.isPending true g.ident.core w 8) with
    | some w => .error (causePending, w)
    | none => .ok ()

/-- R113: VAADD.xf, one contribution per lane. -/
def Store.vaaddXf (m : Store) (v : VReg) (slots : List Nat) : Store :=
  ((List.range 128).zip slots).foldl (fun x p => x.xfContribute p.2 (fpDecode fmtF32 (v.lane p.1).toNat)) m

/-- VAADD (R113). -/
def vAadd (zq : Bool) (y : BitVec 2) (d a b : BitVec 5) (t : BitVec 4) (f : BitVec 1) (s : State) : Out :=
  let ty := tyOf t
  vForm zq y b false [.v a, .v d] (badVaadd t) s fun vb s1 _ =>
    let va := s1.me.vreg a
    let vd := s1.me.vreg d
    if ty == .flt fmtF32 && f == 1 then
      let slots := laneAddrs 8 (·.toNat) va vb
      ofChk (s1.me.slotCheck slots) fun _ => .done (s1.onMe fun g => { g with store := g.store.vaaddXf vd slots })
    else
      let addrs := laneAddrs 4 (·.toNat) va vb
      ofChk (s1.me.laneCheck 4 addrs) fun _ => .done (s1.onMe fun g => g.vaadd ty (f == 1) vd addrs)
def execVaadd (y : BitVec 2) (d a b : BitVec 5) (t : BitVec 4) (f : BitVec 1) (s : State) : Out := vAadd false y d a b t f s
def execVaaddZq (y : BitVec 2) (d a b : BitVec 5) (t : BitVec 4) (f : BitVec 1) (s : State) : Out := vAadd true y d a b t f s

/-! ## Angles, norms and functions -/

/-- R114: the value of an element for VATAN. -/
def atanVal (ty : Ty) (v : VReg) (k : Nat) : Fp :=
  match ty with
  | .bx => bxLane v.toBx k
  | _ => elemFp ty (v.elem 32 k)

/-- VATAN (R114). The manual gives the exponent field no value where the operands are BX32; it is free there (log entry 10). -/
def vAtan (zq : Bool) (y : BitVec 2) (d a b : BitVec 5) (t : BitVec 4) (g : BitVec 1) (s : State) : Out :=
  let ty := tyOf t
  let bits := if g = 1 then 32 else 16
  let bad := if t.toNat = 2 ∨ t.toNat = 10 ∨ t.toNat = 14 then none else some causeIllegal
  vForm zq y b false [.v a] bad s fun vb s1 n =>
    let va := s1.me.vreg a
    let lanes := mkLanes fun i => BitVec.ofNat 32 (fpAtan bits (atanVal ty va i) (atanVal ty vb i))
    if ty = .bx then
      let (x, s2) := s1.fresh
      s2.vOut d ⟨lanes, x.setWidth 16⟩ n 8
    else s1.vOut d ⟨lanes, 0⟩ n 8
def execVatan (y : BitVec 2) (d a b : BitVec 5) (t : BitVec 4) (g : BitVec 1) (s : State) : Out := vAtan false y d a b t g s
def execVatanZq (y : BitVec 2) (d a b : BitVec 5) (t : BitVec 4) (g : BitVec 1) (s : State) : Out := vAtan true y d a b t g s

/-- R115: what VSINCOS refuses. -/
def badSincos (d : BitVec 5) (t : BitVec 4) (g : BitVec 1) : Option Nat :=
  if t.toNat = 2 then (if g = 1 then some causeReserved else if d.toNat % 2 = 1 then some causeIllegal else none)
  else if t.toNat = 10 then (if d.toNat % 2 = 1 then some causeIllegal else none)
  else some causeIllegal

/-- R115: cosine and sine of a lane. -/
def sincosLane (isInt : Bool) (bits : Nat) (c : BitVec 32) : Nat × Nat :=
  if isInt then let p := angcs (c.toNat % 2 ^ 16); (wrapInt 32 p.1, wrapInt 32 p.2)
  else cosSinF32 bits (c.toNat % 2 ^ bits)

/-- VSINCOS (R115). -/
def vSincos (zq : Bool) (y : BitVec 2) (d b : BitVec 5) (t : BitVec 4) (g : BitVec 1) (s : State) : Out :=
  let bits := if g = 1 then 32 else 16
  vForm zq y b false [] (badSincos d t g) s fun vb s1 n =>
    let p (i : Nat) := sincosLane (t.toNat == 2) bits (vb.lane i)
    .done ((s1.result .v (.v d) (.vec ⟨mkLanes fun i => BitVec.ofNat 32 (p i).1, 0⟩) n 8).result .v (.v (d + 1))
      (.vec ⟨mkLanes fun i => BitVec.ofNat 32 (p i).2, 0⟩) n 8)
def execVsincos (y : BitVec 2) (d b : BitVec 5) (t : BitVec 4) (g : BitVec 1) (s : State) : Out := vSincos false y d b t g s
def execVsincosZq (y : BitVec 2) (d b : BitVec 5) (t : BitVec 4) (g : BitVec 1) (s : State) : Out := vSincos true y d b t g s

/-- R116: the norm of floating-point elements. -/
def fpNorm (f : Fmt) (l : List Fp) : Nat :=
  if l.any fpIsNan then f.nanBits
  else if l.any (fun x => !fpIsFin x) then fpInf f false
  else fpSqrtRound f .rne ((Dy.sum (l.map fun x => (fpDy x).mul (fpDy x))).toFp false)

/-- R116: the re-encoding of a BX32 vector. -/
def bxAgain (v : BxVec) : BxVec :=
  if v.exp = bxNanExp then v else bxEncodeDy (v.lanes.map fun m => ⟨m, v.exp - 31⟩)

/-- VNORM (R116). -/
def vNorm (zq : Bool) (y : BitVec 2) (d b : BitVec 5) (t : BitVec 4) (s : State) : Out :=
  let ty := tyOf t
  let bad := if t.toNat = 10 ∨ t.toNat = 11 ∨ t.toNat = 14 then none else some causeIllegal
  vForm1 zq y d b (ty.bits == 64) [] bad 10 s fun _ vb =>
    match ty with
    | .flt f =>
      let r := fpNorm f ((List.range (elemCount ty.bits)).map fun k => fpDecode f (vb.elem ty.bits k))
      mkElems ty (fun _ => r) 0
    | _ => (bxAgain vb.toBx).toVReg
def execVnorm (y : BitVec 2) (d b : BitVec 5) (t : BitVec 4) (s : State) : Out := vNorm false y d b t s
def execVnormZq (y : BitVec 2) (d b : BitVec 5) (t : BitVec 4) (s : State) : Out := vNorm true y d b t s

/-- R117: the functions of .f32. -/
def func1 (f : Nat → Nat) (zq : Bool) (y : BitVec 2) (d b : BitVec 5) (t : BitVec 4) (s : State) : Out :=
  vForm1 zq y d b false [] (if t.toNat = 10 then none else some causeIllegal) 8 s fun _ vb =>
    elemwise (.flt fmtF32) (fun x _ => f x) vb vb

/-- VRCP (R117). -/
def execVrcp (y : BitVec 2) (d b : BitVec 5) (t : BitVec 4) (s : State) : Out := func1 f32Rcp false y d b t s
def execVrcpZq (y : BitVec 2) (d b : BitVec 5) (t : BitVec 4) (s : State) : Out := func1 f32Rcp true y d b t s

/-- VRSQ (R117). -/
def execVrsq (y : BitVec 2) (d b : BitVec 5) (t : BitVec 4) (s : State) : Out := func1 f32Rsq false y d b t s
def execVrsqZq (y : BitVec 2) (d b : BitVec 5) (t : BitVec 4) (s : State) : Out := func1 f32Rsq true y d b t s

/-- VEXP2 (R117). -/
def execVexp2 (y : BitVec 2) (d b : BitVec 5) (t : BitVec 4) (s : State) : Out := func1 f32Exp2 false y d b t s
def execVexp2Zq (y : BitVec 2) (d b : BitVec 5) (t : BitVec 4) (s : State) : Out := func1 f32Exp2 true y d b t s

/-- VLOG2 (R117). -/
def execVlog2 (y : BitVec 2) (d b : BitVec 5) (t : BitVec 4) (s : State) : Out := func1 f32Log2 false y d b t s
def execVlog2Zq (y : BitVec 2) (d b : BitVec 5) (t : BitVec 4) (s : State) : Out := func1 f32Log2 true y d b t s

/-! ## Slice splitting -/

/-- R118: the value of an element; an .e4m3 encoding with exponent field 0 reads as zero of its sign. -/
def splitVal (ty : Ty) (x : Nat) : Fp :=
  match ty with
  | .flt f => if f.e4m3 ∧ x / 8 % 16 = 0 then .fin (x / 128 % 2 == 1) 0 0 else fpDecode f x
  | _ => .nan

/-- R118: the lane of element `k`'s control element. -/
def ctlLane (ty : Ty) (k : Nat) : Nat := if ty.bits = 64 then 2 * k else k

/-- R118: a word of a control element's lane, zero in the other lane of a pair. -/
def ctlVec (ty : Ty) (f : Nat → Nat) : VReg :=
  ⟨mkLanes fun i =>
    if ty.bits = 64 then (if i % 2 = 0 then BitVec.ofNat 32 (f (i / 2)) else 0) else BitVec.ofNat 32 (f i), 0⟩

/-- R118: the exponent pass on one control element. -/
def expPass (ctl : Nat) (x : Fp) : Nat :=
  let old := sextNat 16 ctl
  let nf := bitsOf ctl 16 1 == 1 || !fpIsFin x
  let d := fpDy x
  let emax := if fpIsFin x && d.m != 0 then max old d.log2 else old
  bitsOf ctl 17 3 * 2 ^ 17 + (if nf then 2 ^ 16 else 0) + wrapInt 16 emax

/-- R118: the slices of element `k`: its list of `n` slices, and the word with G and NF. -/
def splitElem (n ctl : Nat) (x : Fp) : List Int × Nat :=
  let g := sliceShift n (sextNat 16 ctl)
  (sliceSplit n g x, wrapInt 16 g + bitsOf ctl 16 1 * 2 ^ 16)

/-- R38, R118: a slice, a 16-bit number, sign-extended to an element: 32-bit, or 64-bit for .f64. -/
def sliceVec (ty : Ty) (f : Nat → Int) : VReg :=
  let slice (k : Nat) : Int := sextNat 16 (wrapInt 16 (f k))
  if ty.bits = 64 then mkElems (.int true 64) (fun k => wrapInt 64 (slice k)) 0
  else ⟨mkLanes fun i => BitVec.ofInt 32 (slice i), 0⟩

/-- R118: write the slices and the shift words behind one another. -/
def State.splitOut (s : State) (ty : Ty) (d : BitVec 5) (n t : Nat) (l : List (List Int × Nat)) : State :=
  let s1 := (List.range n).foldl (fun x j =>
    x.result .v (.v (d + BitVec.ofNat 5 j)) (.vec (sliceVec ty fun k => ((l.getD k ([], 0)).1).getD j 0)) t 6) s
  s1.result .v (.v (d + BitVec.ofNat 5 n)) (.vec (ctlVec ty fun k => (l.getD k ([], 0)).2)) t 6

/-- VSPLIT (R118). -/
def vSplit (zq : Bool) (y : BitVec 2) (d a b : BitVec 5) (t : BitVec 4) (e : BitVec 1) (s : State) : Out :=
  let ty := tyOf t
  let okTy := t.toNat = 10 ∨ t.toNat = 11 ∨ t.toNat = 12
  let bad := if e = 1 ∧ a ≠ 0 then some causeReserved else if okTy then none else some causeIllegal
  vForm zq y b (ty.bits == 64) (if e = 1 then [.v d] else [.v a]) bad s fun vb s1 n =>
    let x (k : Nat) := splitVal ty (vb.elem ty.bits k)
    if e = 1 then
      let vd := s1.me.vreg d
      s1.vOut d (ctlVec ty fun k => expPass (vd.lane (ctlLane ty k)).toNat (x k)) n 6
    else
      let va := s1.me.vreg a
      let k := bitsOf (va.lane 0).toNat 17 3
      if k = 0 ∨ k = 7 ∨ 31 < d.toNat + k then .trap causeBounds 0 0
      else .done (s1.splitOut ty d k n
        ((List.range (elemCount ty.bits)).map fun i => splitElem k (va.lane (ctlLane ty i)).toNat (x i)))
def execVsplit (y : BitVec 2) (d a b : BitVec 5) (t : BitVec 4) (e : BitVec 1) (s : State) : Out := vSplit false y d a b t e s
def execVsplitZq (y : BitVec 2) (d a b : BitVec 5) (t : BitVec 4) (e : BitVec 1) (s : State) : Out := vSplit true y d a b t e s

/-- NOP of engine V (R67). -/
def execNopV (y : BitVec 2) (s : State) : Out := issue .v y [] s fun s _ => .done s

end Sys2Proof.Machine
end

