-- ==== Sys2Proof/Machine/Streams.lean ====
section
/-! DEFINITION. Stream patterns and conversion (06_vector R119 to R122), the instructions of engine L (R123) and of engine S
(R124 to R128), and the filling and draining of streams. -/

namespace Sys2Proof.Machine

/-! ## The pattern record -/

/-- R119: the counts and strides of a record, innermost first. -/
def patCounts (r : List Byte) : List Nat := (List.range 4).map fun k => recField r (16 + 8 * k) 4
def patStrides (r : List Byte) : List Int := (List.range 4).map fun k => sextNat 32 (recField r (20 + 8 * k) 4)

/-- R119: a pattern record, with the dimensions used. -/
def patternOf (r : List Byte) : Pattern :=
  let ctl := recField r 8 1
  let n := bitsOf ctl 2 2 + 1
  { base := recField r 0 4, xbase := recField r 4 4, drained := bitsOf ctl 0 1 == 1, lanes := bitsOf ctl 1 1 == 1, dims := n
    xs := bitsOf ctl 4 1 == 1, direct := bitsOf ctl 5 1 == 1, counts := (patCounts r).take n, strides := (patStrides r).take n }

/-- R60, R120: the bytes of an element of a format. -/
def fmtBytes (fmt : Nat) : Nat :=
  match tyOfCode fmt with
  | some ty => ty.bits / 8
  | none => 1

/-- R119: the reach of a pattern from BASE, downward and upward. -/
def Pattern.reach (p : Pattern) (pick : Int → Int) : Int :=
  (p.counts.zip p.strides).foldl (fun acc q => acc + pick (((q.1 : Int) - 1) * q.2)) 0

/-- R119: the stream that a record describes; also R121: the conversion state and the MAG link that ZBIND resets. -/
def boundStream (p : Pattern) (fmt : Nat) : Stream :=
  { Stream.unbound with st := if p.direct then .running else .bound, pat := p, fmt := fmt }

/-- R120: the BOUNDS row. -/
def patBounds (z : Stream) : Bool :=
  let p := z.pat
  p.direct || (p.counts.all (· != 0) && decide (p.total ≤ 2 ^ 32) && decide (0 ≤ (p.base : Int) + p.reach (min 0)) &&
    decide ((p.base : Int) + p.reach (max 0) + fmtBytes z.fmt ≤ 2 ^ 26) && (!p.xs || decide (p.xbase + 2 * z.vectors ≤ 2 ^ 26)))

/-- R119, R120: the RESERVED_FIELD row. -/
def patReserved (r : List Byte) (p : Pattern) : Bool :=
  let unused := if p.direct then [] else (List.range 4).filter fun k => decide (p.dims ≤ k)
  recZero r 9 7 && recZero r 48 16 && bitsOf (recField r 8 1) 6 2 == 0 &&
  (if p.direct then recZero r 4 4 && recZero r 16 32
   else unused.all fun k => (patCounts r).getD k 0 == 1 && (patStrides r).getD k 0 == 0)

/-- R120: the ALIGN row for the record's fields. -/
def patAligned (z : Stream) : Bool :=
  let n := fmtBytes z.fmt
  z.pat.base % n == 0 && z.pat.strides.all (fun k => k % (n : Int) == 0) && (!z.pat.xs || z.pat.xbase % 2 == 0)

/-- R120: the ILLEGAL row for the record's fields. -/
def patLegal (z : Stream) : Bool :=
  match tyOfCode z.fmt with
  | some .bx => z.pat.xs && z.pat.lanes
  | some (.int _ _) => !z.pat.xs && !z.pat.lanes
  | some (.flt _) => !z.pat.xs
  | none => false

/-- R120: the checks of ZBIND at a record address, in the order of its table. -/
def Group.zbindCheck (g : Group) (a fmt : Nat) (old : Stream) : Chk Stream := do
  need (tyOfCode fmt).isSome causeIllegal 0
  let r ← g.record a 64 64
  let z := boundStream (patternOf r) fmt
  need (patBounds z) causeBounds a
  need (patReserved r z.pat) causeReserved a
  need (patAligned z) causeAlign a
  need (patLegal z) causeIllegal 0
  need (old.st != .running) causeQueueCfg 0
  return z

/-! ## Elements -/

/-- R119: the byte address of element `n` of a pattern, dimension 0 innermost. -/
def elemAddr : List Nat → List Int → Nat → Int → Nat
  | c :: cs, k :: ks, n, a => elemAddr cs ks (n / c) (a + k * ((n % c : Nat) : Int))
  | _, _, _, a => a.toNat

/-- R119: the elements that vector `j` holds in memory. -/
def Stream.present (z : Stream) (j : Nat) : Nat := min z.width (z.pat.total - j * z.width)

/-- The addresses of the elements of vector `j`. -/
def Stream.addrs (z : Stream) (j : Nat) : List Nat :=
  (List.range (z.present j)).map fun i => elemAddr z.pat.counts z.pat.strides (j * z.width + i) z.pat.base

/-- R219: whether vector `j` lies on a pending word. -/
def Group.vecPending (g : Group) (z : Stream) (j : Nat) : Bool :=
  g.pendOn && g.work.pend.any (fun p => !p.acc) &&
  ((z.addrs j).any (fun a => g.isPending false g.ident.core a (fmtBytes z.fmt)) ||
   (z.pat.xs && g.isPending false g.ident.core (z.pat.xbase + 2 * j) 2))

/-- The first pending address of a vector. -/
def Group.vecPendAt (g : Group) (z : Stream) (j : Nat) : Nat :=
  ((z.addrs j).find? fun a => g.isPending false g.ident.core a (fmtBytes z.fmt)).getD (z.pat.xbase + 2 * j)

/-- R121: an element as L delivers it in a plain lane. -/
def loadElem (ty : Ty) (x : Nat) : Nat :=
  match ty with
  | .flt f => if f.width < 32 then fpRound fmtF32 .rne (fpDecode f x) else x
  | _ => x

/-- R121: the lanes that L makes of a vector's elements, plain lanes. -/
def plainVec (ty : Ty) (l : List Nat) : VReg :=
  match ty with
  | .flt f => mkElems (if f.width = 64 then ty else .flt fmtF32) (fun k => loadElem ty (l.getD k 0)) 0
  | _ => mkElems ty (fun k => l.getD k 0) 0

/-- R119, R121: vector `j` of a pattern, read from the scratchpad and converted. -/
def Group.loadVec (g : Group) (z : Stream) (j : Nat) : VReg :=
  let n := fmtBytes z.fmt
  let l := (z.addrs j).map fun a => g.spadVal a n
  match tyOfCode z.fmt with
  | some .bx => ⟨mkLanes fun i => BitVec.ofNat 32 (l.getD i 0), BitVec.ofNat 16 (g.spadVal (z.pat.xbase + 2 * j) 2)⟩
  | some ty =>
    if z.pat.lanes then (bxEncode ((List.range 128).map fun k => elemFp ty (l.getD k 0))).toVReg else plainVec ty l
  | none => zeroVReg

/-- R121, R125: the real value of element `k` of a vector before S's conversion and scale. -/
def Stream.elemVal (z : Stream) (v : VReg) (k : Nat) : Fp :=
  match tyOfCode z.fmt with
  | some .bx => bxLane v.toBx k
  | some ty =>
    if z.pat.lanes then bxLane v.toBx k
    else
      match ty with
      | .int sg w => (⟨intVal sg (if w = 64 then 64 else 32) (v.elem (if w = 64 then 64 else 32) k), 0⟩ : Dy).toFp false
      | .flt f => if f.width = 64 then fpDecode fmtF64 (v.elem 64 k) else fpDecode fmtF32 (v.elem 32 k)
      | .bx => .nan
  | none => .nan

/-- R121: a value times 2^scale, exact. -/
def fpScale (k : Int) : Fp → Fp
  | .fin neg m e => .fin neg m (e + k)
  | x => x

/-- R121: one element on the way out: rounded once into the format; integers wrap or saturate. -/
def storeElem (ty : Ty) (rm : Rm) (scale : Int) (sat : Bool) (x : Fp) : Nat :=
  let y := fpScale scale x
  match ty with
  | .flt f => fpRound f rm y
  | .int sg w => if sat then wrapInt w (fpToInt rm sg w y) else wrapInt w (fpToInt rm true 256 y)
  | .bx => 0

/-- R119, R121: the elements of vector `j` that S writes, with their addresses. -/
def Stream.outBytes (z : Stream) (j : Nat) (v : VReg) : List (Nat × List Byte) :=
  let n := fmtBytes z.fmt
  let num (k : Nat) : Nat := match tyOfCode z.fmt with
    | some .bx => (v.lane k).toNat
    | some ty => storeElem ty (rmOfCode z.rm.toNat) z.scale.toInt z.sat (z.elemVal v k)
    | none => 0
  let l := (List.range (z.present j)).zipWith (fun k a => (a, leBytes n (num k))) (z.addrs j)
  if z.pat.xs then l ++ [(z.pat.xbase + 2 * j, leBytes 2 v.exp.toNat)] else l

/-- R125: the magnitude of a value as binary32 by RUP; a NaN ranks above +infinity. -/
def magOf (x : Fp) : Nat := fpRound fmtF32 .rup (fpAbs x)

/-- R125: the elements that a tracked vector has: those of a pattern, or all of a DIRECT stream's. -/
def Stream.tracked (z : Stream) (j : Nat) : Nat := if z.pat.direct then z.width else z.present j

/-- R125: the MAG register after a vector that S takes. -/
def Group.trackMag (g : Group) (z : Stream) (j : Nat) (v : VReg) : Group :=
  match z.mag with
  | none => g
  | some k =>
    let top := ((List.range (z.tracked j)).map fun i => magOf (z.elemVal v i)).foldl max (g.vr.mag.getD k 0).toNat
    { g with vr := { g.vr with mag := g.vr.mag.setIfInBounds k (BitVec.ofNat 32 top) } }

/-- Write pieces into the own scratchpad, folding each into the digest range (R359). -/
def State.putPieces (s : State) : List (Nat × List Byte) → State
  | [] => s
  | p :: r => State.putPieces ((s.foldSpad s.me p.1 p.2).onMe (·.spadPut p.1 p.2)) r

/-- R121, R122, R125: S takes a vector and writes it at vector position `j` of a pattern. -/
def State.drainVec (s : State) (z : Stream) (j : Nat) (v : VReg) : State :=
  (s.onMe fun g => g.trackMag z j v).putPieces (z.outBytes j v)

/-! ## Engine L -/

/-- An instruction of L or S that issues without sources in the scoreboard. -/
def plainItem (e : Engine) (y : BitVec 2) (s : State) (f : State → Effect) : Out := issue e y [] s fun s _ => f s

/-- NOP of L (R96). -/
def execNopL (y : BitVec 2) (s : State) : Out := plainItem .l y s fun s => .done s

/-- NOP of S (R96). -/
def execNopS (y : BitVec 2) (s : State) : Out := plainItem .s y s fun s => .done s

/-- ZBIND (R120): s[b] as it stands when L issues. -/
def execZbind (y : BitVec 2) (t : BitVec 4) (b : BitVec 5) (f : BitVec 4) (s : State) : Out :=
  plainItem .l y s fun s =>
    ofChk (s.me.zbindCheck (s.me.sreg b).toNat f.toNat (s.me.stream t)) fun z => .done (s.onMe (·.setStream t z))

/-- ZSTART (R123). -/
def execZstart (y : BitVec 2) (d : BitVec 4) (s : State) : Out :=
  plainItem .l y s fun s =>
    let z := s.me.stream d
    if z.st = .bound ∧ !z.pat.drained then .done (s.onMe (·.setStream d { z with st := .running }))
    else .trap causeQueueCfg 0 0

/-- R122: a stream after ZSTOP. -/
def Stream.halted (z : Stream) : Stream :=
  if z.st = .unbound then z
  else { z with st := if z.pat.direct then .running else .bound, buf := [], pos := 0, taken := 0 }

/-- ZSTOP (R122, R123). -/
def execZstop (y : BitVec 2) (d : BitVec 4) (s : State) : Out :=
  plainItem .l y s fun s => .done (s.onMe fun g => g.setStream d (g.stream d).halted)

/-- R123: an input stream after the next `k` vectors are discarded. Of a DIRECT stream, vectors that LDV has still to bring are
discarded as they come: `taken` runs ahead of `pos`. -/
def Stream.skipped (z : Stream) (k : Nat) : Stream :=
  let n := z.taken + k
  if z.isLast n then { z with buf := [], taken := z.vectors, pos := z.vectors, st := .done }
  else { z with buf := z.buf.drop k, taken := n, pos := if z.pat.direct then z.pos else max z.pos n }

/-- ZSKIP (R123). The spec does not say what a stream does that is not running: a BOUND input stream discards at once, so that a later
ZSTART fills from the vector after them, an UNBOUND one makes L wait as a read does, and a drained one traps with QUEUE_CFG as a read in
the wrong direction does (log entry 46). -/
def execZskip (y : BitVec 2) (d : BitVec 4) (k : BitVec 10) (s : State) : Out :=
  plainItem .l y s fun s =>
    let z := s.me.stream d
    if k = 0 then .trap causeBounds 0 0
    else if z.st = .unbound then .wait
    else if z.pat.drained then .trap causeQueueCfg 0 0
    else .done (s.onMe (·.setStream d (z.skipped k.toNat)))

/-- R123, R124: the checks of LDV and STV on their address. -/
def Group.vecAt (g : Group) (a : Nat) : Chk Unit := do
  need (a % 64 == 0) causeAlign a
  need (decide (a + 512 ≤ 2 ^ 26)) causeBounds a
  need (!g.isPending false g.ident.core a 512) causePending a

/-- R123: the address s[b] + 512 * i, a 64-bit sum that wraps past 2^64 (log entry 46: the spec does not say so of LDV and STV). -/
def Group.vecAddr (g : Group) (b : BitVec 5) (i : BitVec 9) : Nat := (g.sreg b + BitVec.ofNat 64 (512 * i.toNat)).toNat

/-- R123: the stream after LDV appends a vector; a vector that ZSKIP has taken in advance is dropped. -/
def Stream.appended (z : Stream) (v : VReg) : Stream :=
  { z with buf := if z.pos < z.taken then z.buf else z.buf ++ [v], pos := z.pos + 1 }

/-- The 512 bytes at an address as a plain vector with exponent 0. -/
def Group.rawVec (g : Group) (a : Nat) : VReg := ⟨mkLanes fun i => BitVec.ofNat 32 (g.spadVal (a + 4 * i) 4), 0⟩

/-- LDV (R123). -/
def execLdv (y : BitVec 2) (t : BitVec 4) (b : BitVec 5) (i : BitVec 9) (s : State) : Out :=
  plainItem .l y s fun s =>
    let z := s.me.stream t
    let a := s.me.vecAddr b i
    if z.st = .unbound then .wait
    else if !z.pat.direct ∨ z.pat.drained then .trap causeQueueCfg 0 0
    else ofChk (s.me.vecAt a) fun _ =>
      if 8 ≤ z.buf.length then .wait else .done (s.onMe (·.setStream t (z.appended (s.me.rawVec a))))

/-! ## Engine S -/

/-- ZDRAIN (R124). -/
def execZdrain (y : BitVec 2) (d : BitVec 4) (s : State) : Out :=
  plainItem .s y s fun s =>
    let z := s.me.stream d
    if z.st = .bound ∧ z.pat.drained then .done (s.onMe (·.setStream d { z with st := .running }))
    else .trap causeQueueCfg 0 0

/-- The bytes of the lanes of a vector. -/
def VReg.bytes (v : VReg) : List Byte := (List.range 128).flatMap fun i => leBytes 4 (v.lane i).toNat

/-- STV (R124). -/
def execStv (y : BitVec 2) (t : BitVec 4) (b : BitVec 5) (i : BitVec 9) (s : State) : Out :=
  plainItem .s y s fun s =>
    let z := s.me.stream t
    let a := s.me.vecAddr b i
    if z.st = .unbound then .wait
    else if !z.pat.direct ∨ !z.pat.drained then .trap causeQueueCfg 0 0
    else ofChk (s.me.vecAt a) fun _ =>
      match z.buf with
      | [] => .wait
      | v :: r =>
        let z1 := { z with buf := r, pos := z.pos + 1 }
        .done ((s.onMe fun g => (g.setStream t z1).trackMag z z.pos v).putPieces [(a, v.bytes)])

/-- SCVT (R124). -/
def execScvt (y : BitVec 2) (d : BitVec 4) (r : BitVec 2) (b : BitVec 5) (x : BitVec 1) (s : State) : Out :=
  plainItem .s y s fun s => .done (s.onMe fun g =>
    g.setStream d { g.stream d with rm := r, scale := b, sat := x == 1 })

/-- SAMAX (R124, R125). -/
def execSamax (y : BitVec 2) (d : BitVec 4) (x : BitVec 1) (k : BitVec 4) (c : BitVec 1) (s : State) : Out :=
  plainItem .s y s fun s => .done (s.onMe fun g =>
    let g1 := g.setStream d { g.stream d with mag := if x = 1 then none else some k.toNat }
    if c = 1 then { g1 with vr := { g1.vr with mag := g1.vr.mag.setIfInBounds k.toNat 0 } } else g1)

/-- R126, R242: a drained stream, of a pattern or DIRECT, that holds a vector which it had received when a token was pushed; these
are all that the token can cover (log entry 46). -/
def Group.drainsOwed (g : Group) (owed : List Nat) : Bool :=
  (g.streams.toList.zip owed).any fun p => p.1.pat.drained && !p.1.buf.isEmpty && decide (p.1.pos < p.2)

/-- VAMAXR (R126). Log entry 46. -/
def execVamaxr (y : BitVec 2) (d : BitVec 4) (k : BitVec 4) (p : BitVec 1) (q : BitVec 4) (s : State) : Out :=
  issuePre (causeIf (p == 0 && q != 0) causeReserved) .s y [] s fun s _ =>
    let push (s : State) : Effect :=
      (s.queuePush .s d ((s.me.vr.mag.getD k.toNat 0).setWidth 64)).then fun _ s1 => .done s1
    if p = 1 then
      (s.queuePop .s q).then fun _ s1 => if s.me.drainsOwed ((s.me.queue q).owed.headD []) then .wait else push s1
    else push s

/-! ## SUPD -/

/-- R127: the formats of the seven streams: the master angle, then the gradient and the moments. -/
def supdFormat (i fmt : Nat) : Bool :=
  tyOfCode fmt == some (if i = 0 ∨ i = 4 then .int false 32 else .flt fmtF32)

/-- R127: a stream of SUPD by its place. -/
def Group.supdStream (g : Group) (j : BitVec 4) (i : Nat) : Stream := g.stream (j + BitVec.ofNat 4 i)

/-- Vectors that a stream can still deliver or take. -/
def Stream.left (z : Stream) : Nat := z.vectors - z.taken

/-- R122, R127: the checks of SUPD; a stream that ends before `n` vectors traps at once (R17). -/
def Group.supdCheck (g : Group) (j : BitVec 4) (n : Nat) : Chk Unit := do
  need ((List.range 7).all fun i => supdFormat i (g.supdStream j i).fmt && !(g.supdStream j i).pat.lanes) causeIllegal 0
  need ((List.range 7).all fun i => (g.supdStream j i).pat.drained == decide (4 ≤ i)) causeQueueCfg 0
  need ((List.range 7).all fun i => (g.supdStream j i).pat.direct || decide (n ≤ (g.supdStream j i).left)) causeBounds 0

/-- R127: one lane: master angle, gradient, first and second moment to their new values. -/
def supdLane (h : List (BitVec 32)) (w g m v : Nat) : Nat × Nat × Nat :=
  let c (i : Nat) : Nat := (h.getD i 0).toNat
  let mul := fMul fmtF32 .rne
  let q := mul g g
  let m1 := fFma fmtF32 .rne (c 1) m (mul (c 2) g)
  let v1 := fFma fmtF32 .rne (c 3) v (mul (c 4) q)
  let den := fAdd fmtF32 .rne (fSqrt fmtF32 .rne (mul v1 (c 7))) (c 5)
  let st := mul (c 0) (fDiv fmtF32 .rne (mul m1 (c 6)) den)
  let x := fpDecode fmtF32 st
  let delta : Int := if fpIsNan x then 0 else fpToInt .rne true 32 (fpScale 32 x)
  (wrapInt 32 ((w : Int) - delta), m1, v1)

/-- A plain vector from a function of lanes. -/
def laneVec (f : Nat → Nat) : VReg := ⟨mkLanes fun i => BitVec.ofNat 32 (f i), 0⟩

/-- R127: process one vector of each stream. -/
def State.supdVector (s : State) (j : BitVec 4) (h : List (BitVec 32)) : Got Unit :=
  let head (i : Nat) : VReg := (s.me.supdStream j i).buf.headD zeroVReg
  let lane (i : Nat) : Nat × Nat × Nat :=
    supdLane h ((head 0).lane i).toNat ((head 1).lane i).toNat ((head 2).lane i).toNat ((head 3).lane i).toNat
  let outs : List VReg := [laneVec fun i => (lane i).1, laneVec fun i => (lane i).2.1, laneVec fun i => (lane i).2.2]
  let pops := (List.range 4).foldl (fun (acc : Got Unit) i => match acc with
    | .ok _ t => (match t.streamPop .s (j + BitVec.ofNat 4 i) with
      | .ok _ t1 => .ok () t1
      | .wait => .wait
      | .trap c va => .trap c va)
    | x => x) (.ok () s)
  (List.range 3).foldl (fun (acc : Got Unit) i => match acc with
    | .ok _ t => t.streamPush (j + BitVec.ofNat 4 (4 + i)) (outs.getD i zeroVReg)
    | x => x) pops

/-- S keeps how far a SUPD has come. -/
def State.setSupd (s : State) (x : Option Supd) : State := s.onMe fun g => { g with vr := { g.vr with supd := x } }

/-- SUPD (R127): it begins by popping its record's address; each later step of S takes one vector of every stream. -/
def execSupd (y : BitVec 2) (j : BitVec 4) (q : BitVec 4) (n : BitVec 12) (s : State) : Out :=
  plainItem .s y s fun s =>
    match s.me.vr.supd with
    | some x =>
      (s.supdVector j x.hyper).then fun _ s1 =>
        if x.count + 1 < n.toNat then .waitWith (s1.setSupd (some { x with count := x.count + 1 }))
        else .done (s1.setSupd none)
    | none =>
      if 9 < j.toNat then .trap causeIllegal 0 0
      else if n = 0 then .trap causeBounds 0 0
      else if (List.range 7).any fun i => (s.me.supdStream j i).st == .unbound then .wait
      else ofChk (s.me.supdCheck j n.toNat) fun _ =>
        (s.queuePop .s q).then fun a s1 =>
          ofChk (s1.me.record a.toNat 32 32) fun r =>
            .waitWith (s1.setSupd (some ⟨0, (List.range 8).map fun i => BitVec.ofNat 32 (recField r (4 * i) 4)⟩))

/-! ## SPAIR -/

/-- R135: the bytes of a schedule image: header with CHK, codes, scale entries. -/
def imageBytes (n : Nat) (mirror : Bool) (peer : Nat) (codes scale : List Nat) : List Byte :=
  let body := codes ++ scale
  leBytes 1 n ++ leBytes 1 (if mirror then 1 else 0) ++ leBytes 2 0 ++ leBytes 4 (body.foldl (· + ·) 0) ++ leBytes 4 peer ++
  leBytes 52 0 ++ body.flatMap (leBytes 2)

/-- R135: the bytes an image of `n` stages occupies. -/
def imageSize (n : Nat) : Nat := 320 + 128 * n

/-- R128: the stages of a mirror. -/
def mirrorStages (n : Nat) : Nat := if n % 2 = 1 then n else n + 1

/-- Two ranges of bytes overlap. -/
def rangesMeet (a n b m : Nat) : Bool := decide (a < b + m) && decide (b < a + n)

/-- R128: the checks of a pair record. -/
def spairCheck (r : List Byte) : Chk Unit := do
  let n := recField r 12 1
  let a := recField r 0 4
  let f := recField r 4 4
  let m := recField r 8 4
  let k := imageSize n
  let k' := imageSize (mirrorStages n)
  let la := 256 * n + 256
  need (recZero r 13 19) causeReserved 0
  need (decide (1 ≤ n) && decide (mirrorStages n ≤ 128)) causeBounds 0
  need (decide (a + la ≤ 2 ^ 26)) causeBounds a
  need (decide (f + k ≤ 2 ^ 26)) causeBounds f
  need (decide (m + k' ≤ 2 ^ 26)) causeBounds m
  need (!rangesMeet a la f k) causeBounds f
  need (!rangesMeet a la m k') causeBounds m
  need (!rangesMeet f k m k') causeBounds m

/-- R128: the codes of the forward image, stage-major. -/
def Group.spairCodes (g : Group) (a n : Nat) : List Nat :=
  (List.range (64 * n)).map fun i => narrowAngle (g.spadVal (a + 4 * i) 4)

/-- R128: the codes of the mirror image. -/
def mirrorCodes (n : Nat) (codes : List Nat) : List Nat :=
  let k := mirrorStages n
  (List.range (64 * k)).map fun i =>
    let st := k - 1 - i / 64
    if st < n then (2 ^ 16 - codes.getD (64 * st + i % 64) 0) % 2 ^ 16 else 0

/-- R219: an area of `k` bytes that SPAIR reads or writes holds no pending word. Log entry 46. -/
def Group.spairFree (g : Group) (a k : Nat) : Chk Unit := need (!g.isPending false g.ident.core a k) causePending a

/-- R128: the forward image of a record and its address. -/
def Group.forwardImage (g : Group) (r : List Byte) : Nat × List Byte :=
  let n := recField r 12 1
  let a := recField r 0 4
  let scale := (List.range 128).map fun i => g.spadVal (a + 256 * n + 2 * i) 2
  (recField r 4 4, imageBytes n false (recField r 8 4) (g.spairCodes a n) scale)

/-- R128: the mirror image of a record and its address. -/
def Group.mirrorImage (g : Group) (r : List Byte) : Nat × List Byte :=
  let n := recField r 12 1
  (recField r 8 4, imageBytes (mirrorStages n) true (recField r 4 4) (mirrorCodes n (g.spairCodes (recField r 0 4) n)) (List.replicate 128 0))

/-- SPAIR (R128, R136). The one fault that can come between its writes is a pending word of the mirror area (R219): the forward image
stays written, and the queue entry stays, since the cut places S before SPAIR (R17; log entry 46). It then folds nothing (R360). -/
def execSpair (y : BitVec 2) (q : BitVec 4) (s : State) : Out :=
  plainItem .s y s fun s =>
    (s.queuePop .s q).then fun w s1 =>
      ofChk (s1.me.record w.toNat 32 32) fun r => ofChk (spairCheck r) fun _ =>
        let n := recField r 12 1
        ofChk (s1.me.spairFree (recField r 0 4) (256 * n + 256)) fun _ => ofChk (s1.me.spairFree (recField r 4 4) (imageSize n)) fun _ =>
          match s1.me.spairFree (recField r 8 4) (imageSize (mirrorStages n)) with
          | .error t => .trapWith (s.onMe fun g => g.spadPut (s1.me.forwardImage r).1 (s1.me.forwardImage r).2) t.1 0 t.2
          | .ok _ => .done (s1.putPieces [s1.me.forwardImage r, s1.me.mirrorImage r])

/-! ## Filling and draining -/

/-- R122, R209: a group whose streams go on being filled and drained. -/
def Phase.streamsRun : Phase → Bool
  | .running => true
  | .handler => true
  | _ => false

/-- R122: L can fill the stream. -/
def State.fillEnabled (s : State) (z : BitVec 4) : Bool :=
  let x := s.me.stream z
  s.me.phase.streamsRun && x.st == .running && !x.pat.drained && !x.pat.direct && decide (x.pos < x.vectors) &&
  decide (x.buf.length < 8) && (s.me.phase == .running || !s.me.vecPending x x.pos)

/-- STREAM_FILL (R121, R122): L reads the next vector; an access to a pending word traps (R219). -/
def execStreamFill (z : BitVec 4) (s : State) : Out :=
  let x := s.me.stream z
  if !s.fillEnabled z then .next s
  else if s.me.vecPending x x.pos then .next (s.trapAt .l causePending 0 (s.me.vecPendAt x x.pos) false)
  else .next (s.onMe fun g => g.setStream z { x with buf := x.buf ++ [g.loadVec x x.pos], pos := x.pos + 1 })

/-- R122: S can write the stream's head vector. -/
def State.drainEnabled (s : State) (z : BitVec 4) : Bool :=
  let x := s.me.stream z
  s.me.phase.streamsRun && x.st == .running && x.pat.drained && !x.pat.direct && !x.buf.isEmpty &&
  (s.me.phase == .running || !s.me.vecPending x x.pos)

/-- STREAM_DRAIN_WRITE (R121, R122, R125): S writes the head vector; an access to a pending word traps (R219). -/
def execStreamDrainWrite (z : BitVec 4) (s : State) : Out :=
  let x := s.me.stream z
  if !s.drainEnabled z then .next s
  else if s.me.vecPending x x.pos then .next (s.trapAt .s causePending 0 (s.me.vecPendAt x x.pos) false)
  else
    match x.buf with
    | [] => .next s
    | v :: r =>
      let x1 := { x with buf := r, pos := x.pos + 1, st := if x.isLast (x.pos + 1) then .done else .running }
      .next ((s.drainVec x x.pos v).onMe (·.setStream z x1))

end Sys2Proof.Machine
end

