-- ==== Sys2Proof/Machine/Mesh.lean ====
section
/-! DEFINITION. The rotation mesh (07_mesh R129 to R153): the words of engine M, which check an operation at its issue and hand it
to the mesh, and the steps of the mesh: a vector passed, a pair computed, an operation completed, a batch written back. -/

namespace Sys2Proof.Machine

/-! ## State -/

def Group.onMesh (g : Group) (f : MeshState → MeshState) : Group := { g with mesh := f g.mesh }
def State.onMesh (s : State) (f : MeshState → MeshState) : State := s.onMe (·.onMesh f)

def MeshState.bank (m : MeshState) (b : Nat) : Bank := m.banks.getD b .zero
def MeshState.setBank (m : MeshState) (b : Nat) (x : Bank) : MeshState := { m with banks := m.banks.setIfInBounds b x }

def zeroRow : List (BitVec 16) := List.replicate 64 0

/-- R129, R137: the codes of a stage. -/
def Bank.row (b : Bank) (st : Nat) : List (BitVec 16) := b.rows.getD st zeroRow

def MeshState.op (m : MeshState) (id : Nat) : Option MeshOp := m.ops.find? fun o => o.id == id
def MeshState.setOp (m : MeshState) (o : MeshOp) : MeshState := { m with ops := m.ops.map fun x => if x.id = o.id then o else x }
def MeshState.dropOp (m : MeshState) (id : Nat) : MeshState := { m with ops := m.ops.filter fun x => x.id != id }

/-- R129: SATCNT, CHKMISS and IDXERR saturate. -/
def MeshState.addSat (m : MeshState) (n : Nat) : MeshState := { m with satcnt := satAdd32 m.satcnt n }
def MeshState.addIdx (m : MeshState) : MeshState := { m with idxerr := satAdd32 m.idxerr 1 }
def MeshState.addMiss (m : MeshState) : MeshState := { m with chkmiss := satAdd32 m.chkmiss 1 }

/-- R39: the pair set in ascending p, then q. -/
def pairSet (s : Nat) (full : Bool) : List (Nat × Nat) :=
  ((List.range s).flatMap fun p => (List.range s).map fun q => (p + 1, q + 1)).filter fun r => full || decide (r.1 + r.2 ≤ s + 1)

/-- R146: the words of a window. -/
def winWords (s : Nat) (full : Bool) (m : Nat) : Nat := 1024 + 128 * (pairSet s full).length * m

/-- R146: the header of a window. -/
def winHeader (s : Nat) (full : Bool) (m : Nat) : BitVec 64 := BitVec.ofNat 64 (s + (if full then 8 else 0) + 16 * m)

/-- R147: the vectors that a row of A takes. -/
def rowVectors (h s kp : Nat) : Nat := h + s * ((kp + 127) / 128)

/-! ## What outstanding operations will take and give -/

/-- Whole vectors of 128 index elements. -/
def idxVectors (n : Nat) : Nat := (n + 127) / 128

/-- R133: the streams that an operation pops, with the vectors it has still to pop. -/
def MeshOp.pops (o : MeshOp) : List (Nat × Nat) :=
  match o.kind with
  | .sweep dst src _ gather scatter _ n _ =>
    (if gather then [((src + 1) % 16, idxVectors n - (o.next + o.inside.length + o.gidx.length) / 128)]
      else [(src, n - o.next - o.inside.length)]) ++
    (if scatter then [((dst + 1) % 16, idxVectors n - (o.next + o.sidx.length) / 128)] else [])
  | .derive _ src _ n _ => [(src, n - o.next - o.inside.length)]
  | .panel src s kp _ => [(src, s * kp - o.next)]
  | .slice _ src s _ m h kp _ _ => [(src, (m - o.next) * rowVectors h s kp - o.rows.length)]
  | _ => []

/-- R133, R153: the drained streams that an operation feeds, with the vectors it has still to append. -/
def MeshOp.appends (o : MeshOp) : List (Nat × Nat) :=
  match o.kind with
  | .sweep dst _ _ _ scatter _ n _ => [(dst, if scatter then 0 else n - o.next)]
  | .derive dst _ _ n _ => [(dst, n - o.next)]
  | .retire dst _ _ _ m _ f64 _ _ => [(dst, (if f64 then 2 * m else m) - o.next)]
  | _ => []

/-- Vectors of a stream that outstanding operations will pop. -/
def MeshState.willPop (m : MeshState) (z : Nat) : Nat :=
  m.ops.foldl (fun k o => o.pops.foldl (fun k p => if p.1 = z then k + p.2 else k) k) 0

/-- Vectors that outstanding operations will append to a stream. -/
def MeshState.willAppend (m : MeshState) (z : Nat) : Nat :=
  m.ops.foldl (fun k o => o.appends.foldl (fun k p => if p.1 = z then k + p.2 else k) k) 0

/-- R141: the vectors that a stream has still to deliver to an operation that issues now. -/
def Group.stillTo (g : Group) (z : BitVec 4) : Nat := (g.stream z).left - g.mesh.willPop z.toNat

/-- R141: the elements that an index stream has still to deliver; a DIRECT one those of the vectors that have been put into it
(log entry 17). -/
def Group.stillElems (g : Group) (z : BitVec 4) : Nat :=
  if (g.stream z).pat.direct then 128 * ((g.stream z).buf.length - g.mesh.willPop z.toNat)
  else (g.stream z).pat.total - 128 * ((g.stream z).taken + g.mesh.willPop z.toNat)

/-- R153: the room left in a destination; a DIRECT stream has no last vector. -/
def Group.hasRoom (g : Group) (z : BitVec 4) (n : Nat) : Bool :=
  let x := g.stream z
  x.pat.direct || decide (x.taken + g.mesh.willAppend z.toNat + n ≤ x.vectors)

/-- R132, R133: earlier operations that an operation waits for: on its mesh stream, or on a stream that it pops or feeds. -/
def MeshOp.waitsFor (o x : MeshOp) : Bool :=
  decide (x.id < o.id) &&
  (x.ms == o.ms || o.pops.any (fun p => x.pops.any fun q => q.1 == p.1) ||
   o.appends.any (fun p => x.appends.any fun q => q.1 == p.1))

/-- R147: an MPANEL leaves the panel buffer to earlier-issued steps that have not reached the grid. -/
def MeshOp.panelWaits (o x : MeshOp) : Bool :=
  match o.kind, x.kind with
  | .panel .., .slice .. => decide (x.id < o.id) && x.panel.isNone
  | _, _ => false

/-- R149: batches that an operation waits for. -/
def MeshOp.batchWaits (o : MeshOp) : List Nat :=
  match o.kind with
  | .retire _ _ _ _ _ _ _ _ l => l
  | _ => []

def MeshState.blocked (m : MeshState) (o : MeshOp) : Bool :=
  m.ops.any (fun x => o.waitsFor x || o.panelWaits x) || o.batchWaits.any fun b => m.batches.any fun x => x.id == b

/-! ## Pending words (R146, R219) -/

/-- R146: whether an access of a mesh operation of stream `ms` to a range meets a pending word; `exempt` picks the marks that
R146 leaves it. -/
def Group.meshPending (g : Group) (acc : Bool) (lo n : Nat) (exempt : PendMark → Bool) : Bool :=
  g.pendOn && g.work.pend.any fun p => p.acc == acc && p.core == g.ident.core && decide (p.lo < lo + n) && decide (lo < p.hi) &&
    !exempt p

/-- R146: the words pending for a step on the operation's own mesh stream. -/
def PendMark.ownStep (ms : Nat) (p : PendMark) : Bool :=
  match p.src with
  | .batch _ => p.ms == ms
  | _ => false

/-- The words pending for any step: a step's issue is no access to its window. -/
def PendMark.anyStep (p : PendMark) : Bool :=
  match p.src with
  | .batch _ => true
  | _ => false

/-- The marks of accumulator words for a source. -/
def Group.accMarks (g : Group) (lo n : Nat) (src : PendSrc) (ms : Nat) : List PendMark :=
  if n = 0 then [] else [⟨true, g.ident.core, lo, lo + n, src, ms⟩]

/-! ## Issue -/

/-- R131: hand an operation to the mesh, with the words that it will write; M stalls at a ninth. -/
def State.meshIssue (s : State) (ms : Nat) (kind : MeshKind) (marks : Group → PendSrc → List PendMark) : Effect :=
  let m := s.me.mesh
  if 8 ≤ m.ops.length then .wait
  else
    let o : MeshOp :=
      { id := m.nextOp, ms := ms, mseq := s.me.eng.m.seq + 1, kind := kind, next := 0, pair := 0, seg := 0, rows := [], gidx := [],
        sidx := [], panel := none, inside := [] }
    .done (s.onMe fun g =>
      (g.markPending (marks g (.mesh m.nextOp))).onMesh fun m => { m with ops := m.ops ++ [o], nextOp := m.nextOp + 1 })

/-- R100, R131: M claims input streams. -/
def Group.claim (g : Group) (zs : List (BitVec 4)) : Group :=
  zs.foldl (fun t z => t.setStream z { t.stream z with owner := some .m }) g

/-- R131: an operation that claims streams at its checks, so at a ninth operation too; `f` changes the mesh as it issues. -/
def State.claimIssue (s : State) (zs : List (BitVec 4)) (f : MeshState → MeshState) (ms : Nat) (kind : MeshKind)
    (marks : Group → PendSrc → List PendMark) : Effect :=
  let s1 := s.onMe (·.claim zs)
  if 8 ≤ s.me.mesh.ops.length then .waitWith s1 else (s1.onMesh f).meshIssue ms kind marks

/-- An item of M. -/
def meshItem (y : BitVec 2) (s : State) (f : State → Effect) : Out := plainItem .m y s f

/-- R131: an operation that names an UNBOUND stream stalls M before its checks. -/
def State.bound (s : State) (zs : List (BitVec 4)) (f : Effect) : Effect :=
  if zs.any fun z => (s.me.stream z).st == .unbound then .wait else f

/-- R46: the profile of a mesh operation. -/
def needProfile (g : Group) (p : BitVec 4) (own : Nat) : Chk Unit :=
  need (p.toNat == own || (p == 0 && !g.nivose)) causeIllegal 0

/-- R100, R153: a stream that V owns. -/
def Group.notV (g : Group) (zs : List (BitVec 4)) : Chk Unit :=
  need (zs.all fun z => (g.stream z).owner.all (· == .m)) causeQueueCfg 0

/-- NOP of M (R151). -/
def execNopM (y : BitVec 2) (s : State) : Out := meshItem y s fun s => .done s

/-! ## Images -/

/-- R137: the checks of an image address. -/
def Group.imageAt (_ : Group) (a : Nat) : Chk Unit := do
  need (a % 64 == 0) causeAlign a
  need (decide (a ≤ 0x03FFFFC0)) causeBounds a

/-- R135: the header's reserved bytes. -/
def headerClear (r : List Byte) : Bool := recField r 1 1 / 2 == 0 && recZero r 2 2 && recZero r 12 52

/-- R137: the checks of MLOAD. -/
def Group.mloadCheck (g : Group) (a : Nat) : Chk Nat := do
  g.imageAt a
  let r := g.spadBytes a 64
  let n := recField r 0 1
  need (n != 0 && decide (n ≤ 128) && headerClear r) causeMeshCfg 0
  need (decide (a + imageSize n ≤ 2 ^ 26)) causeBounds a
  need (!g.meshPending false a (imageSize n) fun _ => false) causePending a
  return n

/-- R132: an earlier MSTORE of the mesh stream is not complete. -/
def MeshState.storing (m : MeshState) (ms : Nat) : Bool :=
  m.ops.any fun o => o.ms == ms && (match o.kind with
    | .store .. => true
    | _ => false)

/-- MLOAD (R137). -/
def execMload (y : BitVec 2) (d : BitVec 3) (a : BitVec 4) (c : BitVec 1) (m : BitVec 2) (s : State) : Out :=
  meshItem y s fun s =>
    (s.queuePop .m a).then fun v s1 =>
      if s1.me.mesh.storing m.toNat && !s1.me.pendOn then .wait
      else ofChk (s1.me.mloadCheck v.toNat) fun n => s1.meshIssue m.toNat (.load d.toNat v.toNat n (c == 1)) fun _ _ => []

/-- R139: the stages of the image that MSTORE writes. -/
def Bank.storeStages (b : Bank) : Nat := max 1 b.count

/-- R137, R139: the checks of MSTORE; the image must lie in the scratchpad whatever the bank's count will be. -/
def Group.mstoreCheck (g : Group) (a n : Nat) : Chk Unit := do
  g.imageAt a
  need (decide (a + imageSize n ≤ 2 ^ 26)) causeBounds a
  need (!g.meshPending false a (imageSize n) fun _ => false) causePending a

/-- R132: the stage count that a bank will have when the earlier operations of a mesh stream are complete. -/
def Group.countAhead (g : Group) (ms bank : Nat) : Nat :=
  (g.mesh.ops.filter (·.ms == ms)).foldl (fun k o => match o.kind with
    | .load b _ n _ => if b = bank then n else k
    | .derive _ _ b t _ => if b = bank then t + min 128 (2 * ((130 - t) / 2)) - 2 else k
    | .clrBank b => if b = bank then 0 else k
    | _ => k) (g.mesh.bank bank).count

/-- MSTORE (R139). -/
def execMstore (y : BitVec 2) (d : BitVec 4) (a : BitVec 3) (m : BitVec 2) (s : State) : Out :=
  meshItem y s fun s =>
    (s.queuePop .m d).then fun v s1 =>
      let n := max 1 (s1.me.countAhead m.toNat a.toNat)
      ofChk (s1.me.mstoreCheck v.toNat n) fun _ =>
        s1.meshIssue m.toNat (.store v.toNat a.toNat) fun g src => pendMarks (.spad g.ident.core v.toNat) (imageSize n) src m.toNat

/-- MSCALE (R140). -/
def execMscale (y : BitVec 2) (d a : BitVec 3) (m : BitVec 2) (s : State) : Out :=
  meshItem y s fun s => s.meshIssue m.toNat (.scale d.toNat a.toNat) fun _ _ => []

/-! ## Sweeps -/

/-- R141, R153: a stream of BX32 vectors. -/
def Stream.isBx (z : Stream) : Bool := z.pat.lanes

/-- R141, R153: a source and a destination of rotated vectors. -/
def Stream.bxSource (z : Stream) : Bool := !z.pat.drained && z.isBx && !z.pat.direct
def Stream.bxDest (z : Stream) : Bool := z.pat.drained && z.isBx

/-- R141, R153: an index stream. Log entry 17. -/
def Stream.isIndex (z : Stream) : Bool := !z.pat.drained && !z.pat.lanes && tyOfCode z.fmt == some (.int false 32)

/-- R141, R153: the index streams of MSWEEP. -/
def sweepIndexes (d z : BitVec 4) (gather scatter : Bool) : List (BitVec 4) :=
  (if gather then [z + 1] else []) ++ (if scatter then [d + 1] else [])

/-- R141: the length of a sweep. Log entry 17. -/
def Group.sweepLen (g : Group) (z : BitVec 4) (gather : Bool) : Nat :=
  if gather then g.stillElems (z + 1) else g.stillTo z

/-- R219: a gathered pattern lies on a pending word. -/
def Group.gatherPending (g : Group) (x : Stream) : Bool :=
  g.pendOn && g.work.pend.any (fun p => !p.acc) && (List.range x.vectors).any fun j => g.vecPending x j

/-- R141, R153: the checks of MSWEEP. -/
def Group.sweepCheck (g : Group) (d z : BitVec 4) (p : BitVec 4) (gather scatter : Bool) : Chk Unit := do
  let src := g.stream z
  let dst := g.stream d
  needProfile g p 1
  need (src.bxSource && dst.bxDest) causeMeshCfg 0
  need ((!gather || src.st == .bound) && (!scatter || dst.st == .bound)) causeMeshCfg 0
  need ((sweepIndexes d z gather scatter).all fun k => (g.stream k).isIndex) causeMeshCfg 0
  need (scatter || g.hasRoom d (g.sweepLen z gather)) causeMeshCfg 0
  g.notV (z :: sweepIndexes d z gather scatter)
  need (!scatter || decide (g.sweepLen z gather ≤ g.stillElems (d + 1))) causeBounds 0
  need (!gather || !g.gatherPending src) causePending 0

/-- MSWEEP (R141). -/
def execMsweep (y : BitVec 2) (d z : BitVec 4) (b : BitVec 3) (m : BitVec 2) (p : BitVec 4) (g c f : BitVec 1) (s : State) : Out :=
  meshItem y s fun s =>
    let ix := sweepIndexes d z (g == 1) (c == 1)
    s.bound ([z, d] ++ ix) (ofChk (s.me.sweepCheck d z p (g == 1) (c == 1)) fun _ =>
      s.claimIssue (z :: ix) id m.toNat
        (.sweep d.toNat z.toNat b.toNat (g == 1) (c == 1) (f == 1) (s.me.sweepLen z (g == 1)) (p == 0)) fun _ _ => [])

/-- R144, R153: the checks of MDERIVE. -/
def Group.deriveCheck (g : Group) (d z : BitVec 4) (p : BitVec 4) : Chk Unit := do
  needProfile g p 1
  need ((g.stream z).bxSource && (g.stream d).bxDest) causeMeshCfg 0
  need (decide (1 ≤ g.stillTo z) && decide (g.stillTo z ≤ 128)) causeMeshCfg 0
  need (g.hasRoom d (g.stillTo z)) causeMeshCfg 0
  g.notV [z]

/-- MDERIVE (R144). -/
def execMderive (y : BitVec 2) (d z : BitVec 4) (b : BitVec 3) (m : BitVec 2) (p : BitVec 4) (s : State) : Out :=
  meshItem y s fun s =>
    s.bound [z, d] (ofChk (s.me.deriveCheck d z p) fun _ =>
      s.claimIssue [z] id m.toNat (.derive d.toNat z.toNat b.toNat (s.me.stillTo z) (p == 0)) fun _ _ => [])

/-! ## Slices -/

/-- R145, R147: the vectors of a header or control: one on an .i32 stream, two on an .i16 stream; none for another stream. -/
def Stream.headVectors (z : Stream) : Option Nat :=
  if z.pat.drained || z.pat.lanes || z.pat.direct then none
  else match tyOfCode z.fmt with
    | some (.int true 32) => some 1
    | some (.int true 16) => some 2
    | _ => none

/-- R145: the header lanes from the vectors that carry them. -/
def joinHead (l : List VReg) (h n : Nat) : Nat :=
  let a := (l.getD 0 zeroVReg).lane n
  if h = 1 then a.toNat else a.toNat % 2 ^ 16 + 2 ^ 16 * (((l.getD 1 zeroVReg).lane n).toNat % 2 ^ 16)

/-- R145: the checks of a panel header; s and Kp. -/
def panelHead (lane : Nat → Nat) : Chk (Nat × Nat) := do
  let s := bitsOf (lane 0) 17 3
  need (decide (1 ≤ s) && decide (s ≤ 6) && bitsOf (lane 0) 28 4 == 0) causeMeshCfg 0
  need ((List.range 127).all fun i => lane (i + 1) / 2 ^ 17 == 0) causeMeshCfg 0
  return (s, bitsOf (lane 0) 20 8 + 1)

/-- R145: pop the header vectors. -/
def State.popMany (s : State) (z : BitVec 4) : Nat → Got Unit
  | 0 => .ok () s
  | n + 1 =>
    match s.streamPop .m z with
    | .ok _ s1 => s1.popMany z n
    | .wait => .wait
    | .trap c va => .trap c va

/-- MPANEL (R145): it claims its stream at its checks (R131), and M stalls until its header vectors are there; a stream that holds
less than the panel traps (R122). -/
def execMpanel (y : BitVec 2) (d : BitVec 4) (m : BitVec 2) (s : State) : Out :=
  meshItem y s fun s =>
    let z := s.me.stream d
    s.bound [d]
      (match z.headVectors with
       | none => .trap causeMeshCfg 0 0
       | some h =>
         ofChk (s.me.notV [d]) fun _ =>
           let s1 := s.onMe (·.claim [d])
           if s.me.mesh.willPop d.toNat ≠ 0 then .waitWith s1
           else if z.left < h then .trap causeBounds 0 0
           else if z.buf.length < h then .waitWith s1
           else
             let lane := joinHead z.buf h
             ofChk (panelHead lane) fun p =>
               if z.left < h + p.1 * p.2 then .trap causeBounds 0 0
               else if 8 ≤ s.me.mesh.ops.length then .waitWith s1
               else (s1.popMany d h).then fun _ s2 =>
                 let cols := (List.range 128).map fun n => BitVec.ofNat 32 (lane n % 2 ^ 17)
                 (s2.onMesh fun m => { m with head := some ⟨p.1, p.2⟩ }).meshIssue m.toNat (.panel d.toNat p.1 p.2 cols)
                   fun _ _ => [])

/-- The pending results of a batch on a window. -/
def Batch.win (b : Batch) (w : Nat) : Option WinPend := b.wins.find? fun x => x.win == w

/-- R147, R149: the latest step's layout on a window, of any mesh stream or of one. -/
def MeshState.pendingWin (m : MeshState) (w : Nat) (ms : Option Nat) : Option WinPend :=
  m.batches.foldl (fun acc b => match b.win w with
    | some x => if ms.all x.mss.contains then some x else acc
    | none => acc) none

/-- R147: the window header as it will stand. -/
def Group.headerAhead (g : Group) (w : Nat) (ms : Option Nat) : BitVec 64 :=
  match g.mesh.pendingWin w ms with
  | some x => winHeader x.s x.full x.m
  | none => wordGet g.store.acc w

/-- R132: an earlier MCLR of the mesh stream that reaches a window is not complete. -/
def MeshState.clearing (m : MeshState) (ms lo n : Nat) : Bool :=
  m.ops.any fun o => o.ms == ms && (match o.kind with
    | .clrWindow a k => rangesMeet a (4096 * k) lo n
    | _ => false)

/-- R147: the rows of a step that issues now. -/
def Group.sliceRows (g : Group) (z : BitVec 4) (h s kp : Nat) : Nat := g.stillTo z / rowVectors h s kp

/-- R146, R147: the checks of MSLICE. -/
def Group.sliceCheck (g : Group) (z : BitVec 4) (w n : Nat) (full : Bool) (h : Nat) : Chk Nat := do
  let cp := g.mesh.head.getD ⟨0, 0⟩
  let rows := g.sliceRows z h cp.s cp.kp
  g.notV [z]
  need (g.mesh.head.isSome && cp.s == n) causeMeshCfg 0
  need (g.stillTo z % rowVectors h n cp.kp == 0 && decide (rows ≤ 888)) causeMeshCfg 0
  need (decide (w + winWords n full rows ≤ accWords)) causeBounds w
  need (g.headerAhead w none == 0 || g.headerAhead w none == winHeader n full rows) causeMeshCfg 0
  need (!g.meshPending true w (winWords n full rows) PendMark.anyStep) causePending w
  return rows

/-- R148: the open batch, opened where none is. -/
def MeshState.open_ (m : MeshState) : MeshState × Batch :=
  match m.batches.find? (fun b => b.name.isNone) with
  | some b => (m, b)
  | none =>
    let b : Batch := ⟨m.nextBatch, none, []⟩
    ({ m with batches := m.batches ++ [b], nextBatch := m.nextBatch + 1 }, b)

/-- R146: a window's part of the store. -/
def windowBase (acc : Memory) (w n : Nat) : Memory := acc.filter fun c => decide (8 * w ≤ c.1) && decide (c.1 < 8 * (w + n))

/-- R146, R147: a step joins a batch: the window as it stands at the batch's first issue on it, and the header. -/
def Batch.join (b : Batch) (acc : Memory) (w s : Nat) (full : Bool) (m ms : Nat) : Batch :=
  match b.win w with
  | some x => { b with wins := b.wins.map fun y => if y.win = w then { x with mss := x.mss ++ [ms] } else y }
  | none => { b with wins := b.wins ++ [⟨w, s, full, m, [ms], windowBase acc w (winWords s full m), [(0, winHeader s full m)], []⟩] }

/-- Change a batch. -/
def MeshState.onBatch (m : MeshState) (id : Nat) (f : Batch → Batch) : MeshState :=
  { m with batches := m.batches.map fun b => if b.id = id then f b else b }

/-- R146: the words of a window that a step writes. -/
def Group.stepMarks (g : Group) (w s : Nat) (full : Bool) (m id ms : Nat) : List PendMark :=
  g.accMarks w 1 (.batch id) ms ++ g.accMarks (w + 8) (128 + m) (.batch id) ms ++
  g.accMarks (w + 1024) (winWords s full m - 1024) (.batch id) ms

/-- MSLICE (R147): the step joins the open batch. -/
def execMslice (y : BitVec 2) (w : BitVec 5) (z : BitVec 4) (n : BitVec 3) (f : BitVec 1) (p : BitVec 4) (m : BitVec 2) (s : State) :
    Out :=
  meshItem y s fun s =>
    let win := 4096 * w.toNat
    let full := f == 1
    s.bound [z] (ofChk (needProfile s.me p 2) fun _ =>
      match (s.me.stream z).headVectors with
      | none => .trap causeMeshCfg 0 0
      | some h =>
        let kp := (s.me.mesh.head.getD ⟨0, 0⟩).kp
        if s.me.mesh.clearing m.toNat win (winWords n.toNat full (s.me.sliceRows z h n.toNat kp)) then .wait
        else ofChk (s.me.sliceCheck z win n.toNat full h) fun rows =>
          let (m1, b) := s.me.mesh.open_
          let m2 := m1.onBatch b.id fun b => b.join s.me.store.acc win n.toNat full rows m.toNat
          s.claimIssue [z] (fun _ => m2) m.toNat
            (.slice win z.toNat n.toNat full rows h kp b.id (p == 0))
            fun g _ => g.stepMarks win n.toNat full rows b.id m.toNat)

/-- MCOMMIT (R148). -/
def execMcommit (y : BitVec 2) (b : BitVec 4) (s : State) : Out :=
  meshItem y s fun s =>
    let m := s.me.mesh
    if m.batches.any fun x => x.name == some b.toNat then .trap causeMeshCfg 0 0
    else if 4 ≤ (m.batches.filter fun x => x.name.isSome).length then .wait
    else
      let (m1, o) := m.open_
      .done (s.onMesh fun _ => m1.onBatch o.id fun x => { x with name := some b.toNat })

/-- MWAITB (R148). -/
def execMwaitb (y : BitVec 2) (b : BitVec 4) (s : State) : Out :=
  meshItem y s fun s => if s.me.mesh.batches.any fun x => x.name == some b.toNat then .wait else .done s

/-- R149: the destination formats. -/
def retireDest (z : Stream) : Option Bool :=
  if !z.pat.drained || z.pat.lanes then none
  else match tyOfCode z.fmt with
    | some (.flt f) => if f = fmtF64 then some true else if f = fmtF32 then some false else none
    | _ => none

/-- R149, R146, R153: the checks of MRETIRE; FULL and M of the window. -/
def Group.retireCheck (g : Group) (d : BitVec 4) (w n : Nat) (f64 : Bool) (ms : Nat) : Chk (Bool × Nat) := do
  let hd := (g.headerAhead w (some ms)).toNat
  let full := bitsOf hd 3 1 == 1
  let rows := bitsOf hd 4 10
  need (hd != 0 && bitsOf hd 0 3 == n) causeMeshCfg 0
  need (!(g.mesh.batches.any fun b => b.name.isNone && (b.win w).any fun x => x.mss.contains ms)) causeMeshCfg 0
  need (decide (w + winWords n full rows ≤ accWords)) causeBounds w
  need (g.hasRoom d (if f64 then 2 * rows else rows)) causeMeshCfg 0
  need (!g.meshPending true w (winWords n full rows) (PendMark.ownStep ms)) causePending w
  return (full, rows)

/-- MRETIRE (R149). -/
def execMretire (y : BitVec 2) (d : BitVec 4) (w : BitVec 5) (n : BitVec 3) (r : BitVec 2) (p : BitVec 4) (m : BitVec 2) (s : State) :
    Out :=
  meshItem y s fun s =>
    let win := 4096 * w.toNat
    s.bound [d] (ofChk (needProfile s.me p 2) fun _ =>
      match retireDest (s.me.stream d) with
      | none => .trap causeMeshCfg 0 0
      | some f64 =>
        if s.me.mesh.clearing m.toNat win 4096 then .wait
        else ofChk (s.me.retireCheck d win n.toNat f64 m.toNat) fun q =>
          let waits := (s.me.mesh.batches.filter fun b => (b.win win).any fun x => x.mss.contains m.toNat).map (·.id)
          s.meshIssue m.toNat (.retire d.toNat win n.toNat q.1 q.2 r.toNat f64 (p == 0) waits) fun _ _ => [])

/-! ## The other words -/

/-- MNORM (R143). -/
def execMnorm (y : BitVec 2) (d : BitVec 4) (m : BitVec 2) (c : BitVec 1) (s : State) : Out :=
  meshItem y s fun s =>
    let x := s.me.mesh.drift.getD m.toNat ⟨0, 0⟩
    if s.me.mesh.ops.any fun o => o.ms == m.toNat then .wait
    else (s.queuePush .m d (BitVec.ofNat 64 (x.count.toNat * 2 ^ 32 + x.max.toNat))).then fun _ s1 =>
      .done (if c = 1 then s1.onMesh fun t => { t with drift := t.drift.setIfInBounds m.toNat ⟨0, 0⟩ } else s1)

/-- MCLR of a window (R150). -/
def execMclrWindow (y : BitVec 2) (u a : BitVec 5) (m : BitVec 2) (s : State) : Out :=
  meshItem y s fun s =>
    let lo := 4096 * a.toNat
    let k := u.toNat + 1
    if accWords < lo + 4096 * k then .trap causeBounds 0 lo
    else if s.me.meshPending true lo (4096 * k) (PendMark.ownStep m.toNat) then .trap causePending 0 lo
    else s.meshIssue m.toNat (.clrWindow lo k) fun g src => g.accMarks lo (4096 * k) src m.toNat

/-- MCLR of a bank (R150). -/
def execMclrBank (y : BitVec 2) (d : BitVec 3) (m : BitVec 2) (s : State) : Out :=
  meshItem y s fun s => s.meshIssue m.toNat (.clrBank d.toNat) fun _ _ => []

/-- R151: the entry of a selector. -/
def MeshState.stat (m : MeshState) (sel : Nat) : BitVec 64 :=
  match sel with
  | 1 => m.satcnt.setWidth 64
  | 2 => m.chkmiss.setWidth 64
  | 3 => m.idxerr.setWidth 64
  | 4 => BitVec.ofNat 64 (m.batches.foldl (fun k b => match b.name with
      | some n => k + 2 ^ n
      | none => k) 0)
  | 5 => BitVec.ofNat 64 ((List.range 8).foldl (fun k i => k + (m.bank i).count * 2 ^ (8 * i)) 0)
  | _ => 0

/-- R151: `.clr`. -/
def MeshState.clearStat (m : MeshState) (sel : Nat) : MeshState :=
  match sel with
  | 1 => { m with satcnt := 0 }
  | 2 => { m with chkmiss := 0 }
  | 3 => { m with idxerr := 0 }
  | _ => m

/-- MSTAT (R151). -/
def execMstat (y : BitVec 2) (d : BitVec 4) (c : BitVec 1) (x : BitVec 4) (s : State) : Out :=
  meshItem y s fun s =>
    let n := x.toNat
    if 5 < n ∨ (c = 1 ∧ (n = 0 ∨ 3 < n)) then .trap causeIllegal 0 0
    else (s.queuePush .m d (s.me.mesh.stat n)).then fun _ s1 => .done (if c = 1 then s1.onMesh (·.clearStat n) else s1)

/-- MFENCE (R134). -/
def execMfence (y : BitVec 2) (k : BitVec 4) (s : State) : Out :=
  meshItem y s fun s => if s.me.mesh.ops.any fun o => k.getLsbD o.ms then .wait else .done s

end Sys2Proof.Machine
end

