-- ==== Sys2Proof/Machine/MeshRun.lean ====
section
/-! DEFINITION. What the mesh does with the operations it holds: the stages and the scale column (02_numbers R28 to R31), drift
(R143), derived angles (R144), panels and slice partials (R145, R147), results of R39 (R149), images (R135, R138), batches
(R146, R148). -/

namespace Sys2Proof.Machine

/-! ## Stages -/

/-- R44: a lane that profile 0 rotates, in the lane range (log entry 10). -/
def freeLane (k : Nat) : Int := (Config.freeBits k).toInt.bmod (2 ^ 32)

/-- R28: a rotated pair, and its lanes that may have saturated. Under profile 0, whose free values begin at `free`, the order of the
products and the rounding points of all stages are open, but a pair of zeros stays so (R44; log entry 10). -/
def rotatePair (free : Option Nat) (c : BitVec 16) (x y : Int) : Int × Int × Nat :=
  match free with
  | none => meshRotate c.toNat x y
  | some k => if x = 0 ∧ y = 0 then (0, 0, 0) else (freeLane k, freeLane (k + 1), 2)

/-- R28: the pairs of a row of lanes, lowest first; lanes left over pass. The count of saturated lanes. -/
def rotatePairs (free : Option Nat) : List (BitVec 16) → List Int → List Int × Nat
  | c :: cs, x :: y :: r =>
    let (l, n) := rotatePairs (free.map (· + 2)) cs r
    if c = 0 then (x :: y :: l, n)
    else
      let (a, b, k) := rotatePair free c x y
      (a :: b :: l, k + n)
  | _, l => (l, 0)

/-- R28, R129: a stage; the pairs of an odd stage begin at lane 1. -/
def passStage (free : Option Nat) (odd : Bool) (codes : List (BitVec 16)) (l : List Int) : List Int × Nat :=
  if codes.all (· == 0) then (l, 0)
  else if odd then
    match l with
    | x :: r => let (m, n) := rotatePairs free codes r; (x :: m, n)
    | [] => ([], 0)
  else rotatePairs free codes l

/-- The first free value of stage `st` for a vector whose free values begin at `free`. -/
def stageFree (free : Option Nat) (st : Nat) : Option Nat := free.map fun k => k + 128 * st

/-- The stages of a bank in order. -/
def passStages (free : Option Nat) : Nat → List (List (BitVec 16)) → List Int → List Int × Nat
  | _, [], l => (l, 0)
  | st, row :: rows, l =>
    let (m, n) := passStage (stageFree free st) (st % 2 == 1) row l
    let (m', n') := passStages free (st + 1) rows m
    (m', n + n')

/-- R143: the square of the norm of a vector of lanes. -/
def normSq (l : List Int) : Nat := (l.foldl (fun k x => k + x * x) 0).toNat

/-- R143: RUP of the magnitude of the drift as binary32. The norms' ratio is taken to 256 bits; where it is not exact, half a
unit stands for the rest. -/
def driftBits (l m : List Int) : Nat :=
  let si := normSq l
  let one := 2 ^ 256
  let a := isqrt (normSq m * 2 ^ 512 / si)
  let isExact := a * a * si == normSq m * 2 ^ 512
  let num := if isExact then 2 * max (a - one) (one - a) else if one ≤ a then 2 * (a - one) + 1 else 2 * (one - a) - 1
  fpRoundRat fmtF32 .rup false num (2 * one) 0

/-- R143: measure a vector. -/
def MeshState.measure (m : MeshState) (ms : Nat) (l out : List Int) : MeshState :=
  if normSq l = 0 then m
  else
    let x := m.drift.getD ms ⟨0, 0⟩
    { m with drift := m.drift.setIfInBounds ms ⟨BitVec.ofNat 32 (max x.max.toNat (driftBits l out)), satAdd32 x.count 1⟩ }

/-- R29: D(n) times 2^256, rounded down. -/
def driftBound (n : Nat) : Nat :=
  (2 ^ 256 + isqrt (2 ^ 479)) ^ n * (2 ^ 256 + n * isqrt (2 ^ 459)) / 2 ^ (256 * n) - 2 ^ 256

/-- R29, R143: the drift of a vector through `n` stages is at most D(n). -/
def driftOk (n : Nat) (l out : List Int) : Bool :=
  decide (normSq l = 0) ||
  (match fpDecode fmtF32 (driftBits l out) with
   | .fin _ m e => decide (m * 2 ^ (e + 256).toNat ≤ driftBound n)
   | _ => false)

/-! ## Vectors in the mesh -/

/-- The free values that a vector under profile 0 uses: its lanes at each stage, the lanes counted as saturated, and a code of each
stage (R144). -/
def freePerVector : Nat := 128 * 128 + 1 + 128

/-- R44: the lanes that a vector's free values count as saturated, of `n` that were rotated. -/
def freeSat (k n : Nat) : Nat := freeNat (k + 128 * 128) % (n + 1)

/-- R309: a vector that enters. -/
def MeshRec.enter (i : Nat) (v : BxVec) : MeshRec := ⟨i, 0, v.lanes, v.exp, v.lanes, 0, none⟩

def MeshRec.vec (r : MeshRec) : BxVec := ⟨r.lanes, r.exp⟩

/-- R31, R309: the step of the scale column. -/
def MeshRec.rescale (scale : List (BitVec 16)) (r : MeshRec) : MeshRec :=
  let v := bxRenorm (scale.map (·.toNat)) r.vec
  { r with lanes := v.lanes, exp := v.exp }

/-- R28: the vector goes from stage `a` to before stage `b`; a NaN vector stays as it is. -/
def MeshRec.pass (rows : List (List (BitVec 16))) (a b : Nat) (r : MeshRec) : MeshRec :=
  if r.exp = bxNanExp then r
  else
    let (l, n) := passStages r.free a ((rows.drop a).take (b - a)) r.lanes
    { r with lanes := l, sat := r.sat + n }

/-- R129, R143: the vector leaves stage 127: its drift is measured and its saturated lanes are counted. -/
def MeshState.leave (m : MeshState) (ms : Nat) (r : MeshRec) : MeshState :=
  if r.exp = bxNanExp then m
  else (m.measure ms r.input r.lanes).addSat (match r.free with
    | none => r.sat
    | some k => freeSat k r.sat)

/-- R44, R29: a vector that comes to stage 0 under profile 0 takes the free values from `free` on, unless they would take it beyond
D(n), where `run` takes it through the stages; it then goes as under profile 1. -/
def MeshRec.choose (n : Nat) (free : Option Nat) (run : MeshRec → MeshRec) (r : MeshRec) : MeshRec :=
  match free with
  | none => r
  | some k =>
    let x : MeshRec := { r with free := some k }
    if r.exp ≠ bxNanExp ∧ driftOk n r.lanes (run x).lanes then x else r

/-- R141, R309: a vector of a sweep does its steps up to number `d`, of stages 0 to 127 and the scale column, which is the first
with `.sf`. -/
def MeshState.sweepTo (m : MeshState) (ms bank : Nat) (first : Bool) (free : Option Nat) (d : Nat) (r : MeshRec) :
    MeshRec × MeshState :=
  let b := m.bank bank
  let lead := if first then 1 else 0
  let r1 : MeshRec := if first = true ∧ r.steps = 0 ∧ 0 < d then
      let x := r.rescale b.scale
      { x with input := x.lanes }
    else r
  let r2 := if r.steps ≤ lead ∧ lead ≤ d then r1.choose b.count free (·.pass b.rows 0 128) else r1
  let r3 := r2.pass b.rows (r.steps - lead) (min 128 (d - lead))
  let m1 := if r.steps < 128 + lead ∧ 128 + lead ≤ d then m.leave ms r3 else m
  let r4 := if first = false ∧ r.steps ≤ 128 ∧ 128 < d then r3.rescale b.scale else r3
  ({ r4 with steps := max r.steps d }, m1)

/-! ## Derived angles -/

/-- R144: h of a tile of `t` columns. -/
def tileHeight (t : Nat) : Nat := min 128 (2 * ((130 - t) / 2))

/-- R144: the lower lane of the cell of stage `st` that belongs to column `j`. -/
def columnLane (h t j st : Nat) : Option Nat :=
  let l := 2 * j + h - 2 - st
  if st ≤ 2 * j + h - 2 ∧ j < t ∧ j ≤ l ∧ l ≤ h - 2 then some l else none

/-- R144: the angle that a pair sets. -/
def pairCode (x y : Int) : BitVec 16 := if x = 0 ∧ y = 0 then 0 else BitVec.ofNat 16 (atanCode 16 ⟨x, 0⟩ ⟨-y, 0⟩)

/-- R144: the code of a column's cell at stage `st`; under profile 0 that of lanes rounded elsewhere, so a free one, but for a pair
of zeros (R44; log entry 10). -/
def columnCode (free : Option Nat) (st : Nat) (x y : Int) : BitVec 16 :=
  match free with
  | none => pairCode x y
  | some k => if x = 0 ∧ y = 0 then 0 else (Config.freeBits (k + 128 * 128 + 1 + st)).setWidth 16

/-- R144: column `j` through the stages: the lanes, the bank's rows and the saturated lanes. -/
def deriveStages (free : Option Nat) (h t j : Nat) : Nat → List (List (BitVec 16)) → List Int →
    List Int × List (List (BitVec 16)) × Nat
  | _, [], l => (l, [], 0)
  | st, row :: rows, l =>
    let row' := match columnLane h t j st with
      | none => row
      | some k => listSet row (k / 2) fun _ => columnCode free st (l.getD k 0) (l.getD (k + 1) 0)
    let (m, n) := passStage (stageFree free st) (st % 2 == 1) row' l
    let (m', rs, n') := deriveStages free h t j (st + 1) rows m
    (m', row' :: rs, n + n')

/-- R144: column `j` of a tile goes from stage `a` to before stage `b` and sets its codes in the rows; the NaN vector sets none. -/
def MeshRec.derive (h t : Nat) (rows : List (List (BitVec 16))) (a b : Nat) (r : MeshRec) : MeshRec × List (List (BitVec 16)) :=
  if r.exp = bxNanExp then (r, rows)
  else
    let (l, rs, n) := deriveStages r.free h t r.index a ((rows.drop a).take (b - a)) r.lanes
    ({ r with lanes := l, sat := r.sat + n }, rows.take a ++ rs ++ rows.drop (max a b))

/-- R144, R309: a column of a tile of `t` does its steps up to number `d`. The bank is cleared as the first column enters; its stage
count and scale column are set as the last leaves. -/
def MeshState.deriveTo (m : MeshState) (ms bank t : Nat) (free : Option Nat) (d : Nat) (r : MeshRec) : MeshRec × MeshState :=
  let h := tileHeight t
  let b := m.bank bank
  let rows := if r.index = 0 ∧ r.steps = 0 then List.replicate 128 zeroRow else (List.range 128).map b.row
  let r1 := if r.steps = 0 then r.choose (t + h - 2) free fun x => (x.derive h t rows 0 128).1 else r
  let (r2, rs) := r1.derive h t rows r.steps (min 128 d)
  let b1 : Bank := if r.index + 1 = t ∧ 128 ≤ d then ⟨rs, List.replicate 128 0, t + h - 2⟩ else { b with rows := rs }
  let m1 := m.setBank bank b1
  let m2 := if r.steps < 128 ∧ 128 ≤ d then m1.leave ms r2 else m1
  let r3 := if r.steps ≤ 128 ∧ 128 < d then r2.rescale (List.replicate 128 0) else r2
  ({ r3 with steps := max r.steps d }, m2)

/-! ## Streams of the mesh -/

/-- A stream number as a register. -/
def zOf (n : Nat) : BitVec 4 := BitVec.ofNat 4 n

/-- Pop a vector for the mesh. -/
def State.meshPop (s : State) (z : Nat) : Option (VReg × State) :=
  match s.streamPop .m (zOf z) with
  | .ok v s1 => some (v, s1)
  | _ => none

/-- Append a vector to its destination; at a stream that is DONE it is dropped and counted (R153). -/
def State.meshAppend (s : State) (z : Nat) (v : VReg) : Option State :=
  if (s.me.stream (zOf z)).st = .done then some (s.onMesh (·.addIdx))
  else match s.streamPush (zOf z) v with
    | .ok _ s1 => some s1
    | _ => none

/-- R141: the next element of an index stream, behind those already popped. -/
def State.nextIndex (s : State) (z : Nat) (l : List Nat) : Option (Nat × List Nat × State) :=
  match l with
  | i :: r => some (i, r, s)
  | [] =>
    match s.meshPop z with
    | some (v, s1) => some ((v.lane 0).toNat, (List.range 127).map fun k => (v.lane (k + 1)).toNat, s1)
    | none => none

/-- R44: the first free value of an operation under profile 0. -/
def State.freeAt (s : State) (free : Bool) : Option Nat := if free then some s.free else none

/-- The free values that a step under profile 0 has used. -/
def State.useFree (s : State) (free : Bool) (n : Nat) : State := if free then s.freshMany n else s

/-- Put an operation back after a step, or drop it where it is complete (R131). -/
def State.keepOp (s : State) (o : MeshOp) (isDone : Bool) : State := s.onMesh fun m => if isDone then m.dropOp o.id else m.setOp o

/-- R142: the vectors left in the present segment, plus one, after one more vector. -/
def State.segAfter (s : State) (o : MeshOp) : Nat :=
  (if o.seg = 0 then s.me.sys.sweepmax.toNat % 2 ^ 13 + 1 else o.seg) - 1

/-! ## Sweep and derive -/

/-- R141: the vector that a sweep takes in, and what is left of the popped index elements. -/
def State.sweepInput (s : State) (o : MeshOp) (src : Nat) (gather : Bool) : Option (BxVec × List Nat × State) :=
  if gather then
    match s.nextIndex ((src + 1) % 16) o.gidx with
    | none => none
    | some (i, l, s1) =>
      let z := s1.me.stream (zOf src)
      if z.vectors ≤ i then some (bxNan, l, s1.onMesh (·.addIdx)) else some ((s1.me.loadVec z i).toBx, l, s1)
  else (s.meshPop src).map fun p => (p.1.toBx, [], p.2)

/-- R141: the result of a sweep goes to its destination, or to the vector position that the scatter index gives. -/
def State.sweepOutput (s : State) (o : MeshOp) (dst : Nat) (scatter : Bool) (v : BxVec) : Option (List Nat × State) :=
  if scatter then
    match s.nextIndex ((dst + 1) % 16) o.sidx with
    | none => none
    | some (i, l, s1) =>
      let z := s1.me.stream (zOf dst)
      if z.vectors ≤ i then some (l, s1.onMesh (·.addIdx)) else some (l, s1.drainVec z i v.toVReg)
  else (s.meshAppend dst v.toVReg).map fun t => ([], t)

/-- R141, R142: the next vector of a sweep or a tile enters the mesh, where the segment holds it. -/
def State.meshEnter (s : State) (o : MeshOp) (src n : Nat) (gather : Bool) : Option (MeshRec × MeshOp × State) :=
  let i := o.next + o.inside.length
  let most := if o.seg = 0 then s.me.sys.sweepmax.toNat % 2 ^ 13 + 1 else o.seg
  if i < n ∧ o.seg ≠ 1 ∧ (o.inside = [] ∨ o.inside.length + 1 < most) then
    (s.sweepInput o src gather).map fun p => (MeshRec.enter i p.1, { o with gidx := p.2.1 }, p.2.2)
  else none

/-- The oldest vector in the mesh, or the next that enters. -/
def State.meshOldest (s : State) (o : MeshOp) (src n : Nat) (gather : Bool) : Option (MeshRec × MeshOp × State) :=
  match o.inside with
  | r :: l => some (r, { o with inside := l }, s)
  | [] => s.meshEnter o src n gather

/-- R309: the steps of a vector. -/
def vectorSteps : Nat := 129

/-- R141: one vector of a sweep goes through and out. -/
def State.sweepStep (s : State) (o : MeshOp) (dst src bank : Nat) (gather scatter first : Bool) (n : Nat) (free : Bool) :
    Option State :=
  match s.meshOldest o src n gather with
  | none => none
  | some (r, o1, s1) =>
    let (w, m1) := s1.me.mesh.sweepTo o.ms bank first (s1.freeAt free) vectorSteps r
    match ((s1.onMesh fun _ => m1).useFree free freePerVector).sweepOutput o1 dst scatter w.vec with
    | none => none
    | some (sl, s2) => some (s2.keepOp { o1 with next := o.next + 1, seg := s.segAfter o, sidx := sl } (o.next + 1 == n))

/-- R144: one column of a tile goes through and out. -/
def State.deriveStep (s : State) (o : MeshOp) (dst src bank n : Nat) (free : Bool) : Option State :=
  match s.meshOldest o src n false with
  | none => none
  | some (r, o1, s1) =>
    let (w, m1) := s1.me.mesh.deriveTo o.ms bank n (s1.freeAt free) vectorSteps r
    match ((s1.onMesh fun _ => m1).useFree free freePerVector).meshAppend dst w.vec.toVReg with
    | none => none
    | some s2 => some (s2.keepOp { o1 with next := o.next + 1, seg := s.segAfter o } (o.next + 1 == n))

/-- R309: the steps of the vectors that are in the mesh, oldest first, as a debug stop finds them: free values, none above that of
the vector before (log entry 16). -/
def State.caught (s : State) (most : Nat) : Nat × State :=
  let (x, s1) := s.fresh
  (x.toNat % (most + 1), s1)

/-- R309: vectors of an operation enter and do their steps, up to `k` of them, the first at most `most` steps. Log entry 16. -/
def State.fillMesh (s : State) (id : Nat) : Nat → Nat → State
  | 0, _ => s
  | k + 1, most =>
    match s.me.mesh.op id with
    | none => s
    | some o =>
      match o.kind with
      | .sweep _ src bank g _ first n free =>
        match s.meshEnter o src n g with
        | none => s
        | some (r, o1, s1) =>
          let (d, s2) := s1.caught most
          let (w, m1) := s2.me.mesh.sweepTo o.ms bank first (s2.freeAt free) d r
          (((s2.onMesh fun _ => m1).useFree free freePerVector).keepOp { o1 with inside := o1.inside ++ [w] } false).fillMesh id k d
      | .derive _ src bank n free =>
        match s.meshEnter o src n false with
        | none => s
        | some (r, o1, s1) =>
          let (d, s2) := s1.caught most
          let (w, m1) := s2.me.mesh.deriveTo o.ms bank n (s2.freeAt free) d r
          (((s2.onMesh fun _ => m1).useFree free freePerVector).keepOp { o1 with inside := o1.inside ++ [w] } false).fillMesh id k d
      | _ => s

/-- R227, R309: a debug stop catches a free number of vectors of each operation that the mesh works on, at most those of the 140
cycles of R142. Log entry 16. -/
def State.catchMesh (s : State) : State :=
  (s.me.mesh.ops.filter fun o => !s.me.mesh.blocked o).foldl (fun t o =>
    let (k, t1) := t.caught 140
    t1.fillMesh o.id (k - o.inside.length) (((o.inside.getLast?).map (·.steps)).getD vectorSteps)) s

/-! ## Panels and slices -/

/-- R145: a lane kept as a signed 16-bit number. -/
def low16 (v : VReg) : List Int := (List.range 128).map fun i => sextNat 16 (v.lane i).toNat

/-- R145: one plane row; the panel stands in the buffer once all have come. -/
def State.panelStep (s : State) (o : MeshOp) (src n kp : Nat) (cols : List (BitVec 32)) : Option State :=
  match s.meshPop src with
  | none => none
  | some (v, s1) =>
    let rows := o.rows ++ [low16 v]
    if o.next + 1 < n * kp then some (s1.keepOp { o with next := o.next + 1, rows := rows } false)
    else some ((s1.onMesh fun m => { m with panel := some ⟨n, kp, cols, rows⟩ }).keepOp o true)

/-- The panel in the buffer; an empty one before the first. -/
def MeshState.panelNow (m : MeshState) : Panel := m.panel.getD ⟨0, 0, List.replicate 128 0, []⟩

/-- R147: the step takes one vector of the present row of A; when it begins, it takes the panel that the buffer holds. -/
def State.sliceTake (s : State) (o : MeshOp) (src n m h kp : Nat) : Option State :=
  if o.next < m ∧ o.rows.length < rowVectors h n kp then
    match s.meshPop src with
    | none => none
    | some (v, s1) =>
      let p := o.panel.getD s.me.mesh.panelNow
      some (s1.keepOp { o with rows := o.rows ++ [(List.range 128).map fun i => ((v.lane i).toNat : Int)], panel := some p } false)
  else none

/-- R145, R147: the row word from the vectors of a control. -/
def rowWord (rows : List (List Int)) (h : Nat) : BitVec 64 :=
  let a := ((rows.headD []).headD 0).toNat
  if h = 1 then BitVec.ofNat 64 (a % 2 ^ 17)
  else BitVec.ofNat 64 (a % 2 ^ 16 + 2 ^ 16 * ((((rows.getD 1 []).headD 0).toNat) % 2))

/-- R147: slice p of the present row, K within the panel. -/
def rowSlice (rows : List (List Int)) (h kp p : Nat) : List Int :=
  let v := (kp + 127) / 128
  (((rows.drop (h + (p - 1) * v)).take v).flatten.take kp).map fun x => sextNat 16 x.toNat

/-- R147: the plane q of a panel; one above its s reads as zero. -/
def Panel.plane (p : Panel) (q : Nat) : List (List Int) := if q ≤ p.s then (p.rows.drop ((q - 1) * p.kp)).take p.kp else []

/-- R147: the sums of one pair and row, one for each column. -/
def pairSums (a : List Int) (plane : List (List Int)) : List (BitVec 64) :=
  let sums := (a.zip plane).foldl (fun acc r => acc.zipWith (fun x y => x + r.1 * y) r.2) (List.replicate 128 0)
  sums.map (BitVec.ofInt 64)

/-- Add sums to those of a key. -/
def addSums (l : List (Nat × List (BitVec 64))) (k : Nat) (v : List (BitVec 64)) : List (Nat × List (BitVec 64)) :=
  match assocGet l k with
  | none => assocSet l k v
  | some w => assocSet l k (w.zipWith (· + ·) v)

/-- R147: a step sets the column words from the panel that it uses. -/
def WinPend.addCols (x : WinPend) (p : Panel) : WinPend :=
  { x with words := (List.range 128).foldl (fun l n => assocSet l (8 + n) ((p.cols.getD n 0).setWidth 64)) x.words }

/-- R147: the words that a step sets when it computes pair `k` of row `i`: column words once, the row word, the sums. Integer sums
modulo 2^64 do not depend on the order, so profile 0 gives the same (R44). -/
def WinPend.addPair (x : WinPend) (p : Panel) (i k : Nat) (row : BitVec 64) (v : List (BitVec 64)) : WinPend :=
  let y := if i = 0 ∧ k = 0 then x.addCols p else x
  { y with words := assocSet y.words (136 + i) row, sums := addSums y.sums (k * y.m + i) v }

/-- Change the pending results of a batch on a window. -/
def MeshState.onWin (m : MeshState) (batch win : Nat) (f : WinPend → WinPend) : MeshState :=
  m.onBatch batch fun x => { x with wins := x.wins.map fun w => if w.win = win then f w else w }

/-- R147: the next pair of the present row; after the last the next row. -/
def State.sliceStep (s : State) (o : MeshOp) (win n : Nat) (full : Bool) (m h kp batch : Nat) : Option State :=
  if o.next < m ∧ o.rows.length = rowVectors h n kp then
    let pairs := pairSet n full
    match o.panel, pairs[o.pair]? with
    | some p, some (a, b) =>
      let s1 := s.onMesh fun t =>
        t.onWin batch win fun w => w.addPair p o.next o.pair (rowWord o.rows h) (pairSums (rowSlice o.rows h kp a) (p.plane b))
      if o.pair + 1 < pairs.length then some (s1.keepOp { o with pair := o.pair + 1 } false)
      else some (s1.keepOp { o with next := o.next + 1, pair := 0, rows := [] } (o.next + 1 == m))
    | _, _ => none
  else none

/-! ## Retire -/

/-- R39: the terms of a row and column from its partials, before the shifts of G. -/
def termsOf (s : Nat) (pairs : List (Nat × Nat)) (parts : List Int) : List Int :=
  (pairs.zip parts).map fun q => q.2 * ((2 ^ (32 * s - 16 * q.1.1 - 16 * q.1.2) : Nat) : Int)

/-- R39: exact sum, then one rounding. C is an integer, which has no sign at zero: an exact zero result is +0 in every rounding mode
(log entry 18). -/
def combine (f : Fmt) (rm : Rm) (terms : List Int) (g : Int) : Nat := fpRound f rm ((⟨terms.foldl (· + ·) 0, -g⟩ : Dy).toFp false)

/-- R44: the same under profile 0, from free value `k` on: the sum in an order and with rounding points that are open, each RNE,
and the last rounding RNE or in the mode of the word (log entry 10). Log entry 18. -/
def combineFree (f : Fmt) (rm : Rm) (k : Nat) (terms : List Int) (g : Int) : Nat :=
  let x := freeSum f terms.length (k + 1) (terms.map fun c => (⟨c, -g⟩ : Dy).toFp false)
  fpRound f (if freeNat k % 2 = 0 then .rne else rm) x

/-- The free values of an element under profile 0. -/
def freePerResult : Nat := 1 + freePerSum 36

/-- R149: the result of row `i` and column `n` of a window; `free` is the first free value of profile 0. -/
def Group.retireAt (g : Group) (f : Fmt) (rm : Rm) (win s : Nat) (full : Bool) (m i n : Nat) (free : Option Nat) : Nat :=
  let word (k : Nat) : BitVec 64 := wordGet g.store.acc (win + k)
  let pairs := pairSet s full
  let row := (word (136 + i)).toNat
  let col := (word (8 + n)).toNat
  let terms := termsOf s pairs ((List.range pairs.length).map fun k => (word (1024 + 128 * (k * m + i) + n)).toInt)
  let shift := sextNat 16 row + sextNat 16 col
  if bitsOf row 16 1 = 1 ∨ bitsOf col 16 1 = 1 then f.nanBits
  else match free with
    | none => combine f rm terms shift
    | some k => combineFree f rm k terms shift

/-- R149: the next result vector: a row of 128 for .f32, half a row of 64 for .f64. -/
def State.retireStep (s : State) (o : MeshOp) (dst win n : Nat) (full : Bool) (m rm : Nat) (f64 free : Bool) : Option State :=
  let total := if f64 then 2 * m else m
  if o.next < total then
    let i := if f64 then o.next / 2 else o.next
    let lo := if f64 then 64 * (o.next % 2) else 0
    let f := if f64 then fmtF64 else fmtF32
    let val (k : Nat) : Nat :=
      s.me.retireAt f (rmOfCode rm) win n full m i (lo + k) ((s.freeAt free).map fun j => j + freePerResult * k)
    match (s.useFree free (128 * freePerResult)).meshAppend dst (mkElems (.flt f) val 0) with
    | none => none
    | some s1 => some (s1.keepOp { o with next := o.next + 1 } (o.next + 1 == total))
  else none

/-! ## Banks and images -/

/-- R135: the 16-bit entries of an image of `n` stages. -/
def Group.imageEntries (g : Group) (a n : Nat) : List (BitVec 16) :=
  (List.range (64 * n + 128)).map fun i => BitVec.ofNat 16 (g.spadVal (a + 64 + 2 * i) 2)

/-- R135: rows of 64 codes. -/
def rowsOf (l : List (BitVec 16)) (n : Nat) : List (List (BitVec 16)) := (List.range n).map fun st => (l.drop (64 * st)).take 64

/-- R138: a forward and a mirror image of n and n' stages are a pair, by their entries. -/
def entriesPair (f p : List (BitVec 16)) (n n' : Nat) : Bool :=
  (n' == n || (n' == n + 1 && n % 2 == 0)) &&
  ((List.range n).all fun st => (List.range 64).all fun c =>
    (c == 63 && st % 2 == 1) || p.getD (64 * (n' - 1 - st) + c) 0 == -(f.getD (64 * st + c) 0)) &&
  (n' == n || (List.range 64).all fun c => p.getD c 0 == 0) &&
  ((List.range 128).all fun i => p.getD (64 * n' + i) 0 == 0)

/-- R138: whether the image at `a`, of `n` stages, and its peer are a consistent pair. -/
def Group.pairOk (g : Group) (a n : Nat) : Bool :=
  let peer := g.spadVal (a + 8) 4
  let k := g.spadVal peer 1
  let mir := g.spadVal (a + 1) 1 % 2
  peer % 64 == 0 && decide (peer + 64 ≤ 2 ^ 26) && k != 0 && decide (k ≤ 128) && decide (peer + imageSize k ≤ 2 ^ 26) &&
  g.spadVal (peer + 8) 4 == a && g.spadVal (peer + 1) 1 % 2 + mir == 1 &&
  (if mir = 0 then entriesPair (g.imageEntries a n) (g.imageEntries peer k) n k
   else entriesPair (g.imageEntries peer k) (g.imageEntries a n) k n)

/-- R137: the bank takes the image of the `n` stages that its issue read; a failed check is counted. -/
def Group.loadBank (g : Group) (bank a n : Nat) (chk : Bool) : Group :=
  let l := g.imageEntries a n
  let m := g.mesh.setBank bank ⟨rowsOf l n, l.drop (64 * n), n⟩
  let sum := l.foldl (fun k x => k + x.toNat) 0 % 2 ^ 32
  let bad := chk && (g.spadVal (a + 4) 4 != sum || (g.spadVal (a + 8) 4 != 0 && !g.pairOk a n))
  { g with mesh := if bad then m.addMiss else m }

/-- R139: the bank's image goes to the scratchpad. -/
def Group.storeBank (g : Group) (a bank : Nat) : Group :=
  let b := g.mesh.bank bank
  let n := b.storeStages
  g.spadPut a (imageBytes n false 0 (((List.range n).flatMap b.row).map (·.toNat)) (b.scale.map (·.toNat)))

/-- R131: what an operation that handles no vectors does when it completes; none for one that has vectors left. -/
def Group.completeOp (g : Group) (o : MeshOp) : Option Group :=
  match o.kind with
  | .load b a n chk => some (g.loadBank b a n chk)
  | .store a b => some (g.storeBank a b)
  | .scale d b => some (g.onMesh fun m => m.setBank d { m.bank d with scale := (m.bank b).scale })
  | .clrWindow a u => some { g with store := { g.store with acc := memZero g.store.acc (8 * a) (8 * 4096 * u) } }
  | .clrBank b => some (g.onMesh fun m => m.setBank b .zero)
  | .sweep _ _ _ _ _ _ n _ => if n = 0 then some g else none
  | .slice win _ _ _ m _ _ batch _ =>
    if m = 0 then some (g.onMesh fun t => t.onWin batch win (·.addCols (o.panel.getD t.panelNow))) else none
  | .retire _ _ _ _ m _ _ _ _ => if m = 0 then some g else none
  | .derive .. => none
  | .panel .. => none

/-! ## Batches -/

/-- R146: one window's words at write-back. -/
def WinPend.writeBack (x : WinPend) (acc : Memory) : Memory :=
  let a1 := x.words.foldl (fun m p => wordPut m (x.win + p.1) p.2) acc
  x.sums.foldl (fun m p =>
    let w := x.win + 1024 + 128 * p.1
    memPut m (8 * w) ((List.range 128).flatMap fun n =>
      leBytes 8 (wordGet x.base (w + n) + p.2.getD n 0).toNat)) a1

/-- R148: the oldest batch, once it is committed and its steps are complete. -/
def MeshState.readyBatch (m : MeshState) : Option Batch :=
  match m.batches with
  | b :: _ =>
    if b.name.isSome && !m.ops.any (fun o => match o.kind with
      | .slice _ _ _ _ _ _ _ k _ => k == b.id
      | _ => false) then some b else none
  | [] => none

/-- R148: the batch writes back and is no longer outstanding. -/
def Group.writeBack (g : Group) (b : Batch) : Group :=
  let acc := b.wins.foldl (fun m x => x.writeBack m) g.store.acc
  let g1 := { g with store := { g.store with acc := acc } }
  (g1.unmark (.batch b.id)).onMesh fun m => { m with batches := m.batches.filter fun x => x.id != b.id }

/-! ## Events -/

/-- R209: an operation that the mesh can work on. -/
def State.meshOp (s : State) (id : Nat) : Option MeshOp :=
  if s.me.phase.meshRuns then (s.me.mesh.op id).filter fun o => !s.me.mesh.blocked o else none

/-- A vector of an operation. Log entry 16. -/
def State.meshVector (s : State) (id : Nat) : Option State :=
  match s.meshOp id with
  | none => none
  | some o =>
    match o.kind with
    | .sweep dst src bank g c first n free => s.sweepStep o dst src bank g c first n free
    | .derive dst src bank n free => s.deriveStep o dst src bank n free
    | .panel src n kp cols => s.panelStep o src n kp cols
    | .slice _ src n _ m h kp _ _ => s.sliceTake o src n m h kp
    | .retire dst win n full m rm f64 free _ => s.retireStep o dst win n full m rm f64 free
    | _ => none

/-- MESH_VECTOR_APPENDED (R142): an operation takes in its next vector, or appends its next result. -/
def execMeshVectorAppended (id : Nat) (s : State) : Out := .next ((s.meshVector id).getD s)

/-- A pair of a slice step. -/
def State.meshPair (s : State) (id : Nat) : Option State :=
  match s.meshOp id with
  | none => none
  | some o =>
    match o.kind with
    | .slice win _ n full m h kp batch _ => s.sliceStep o win n full m h kp batch
    | _ => none

/-- SLICE_PAIR_BOUNDARY (R147, R152): a slice step computes its next pair. -/
def execSlicePairBoundary (id : Nat) (s : State) : Out := .next ((s.meshPair id).getD s)

/-- A segment's end. -/
def State.meshSegment (s : State) (id : Nat) : Option State :=
  match s.meshOp id with
  | none => none
  | some o => if o.seg = 1 then some (s.keepOp { o with seg := 0 } false) else none

/-- SWEEP_SEGMENT_END (R142): the vectors of the segment have left the mesh. -/
def execSweepSegmentEnd (id : Nat) (s : State) : Out := .next ((s.meshSegment id).getD s)

/-- An operation's completion. -/
def State.meshComplete (s : State) (id : Nat) : Option State :=
  match s.meshOp id with
  | none => none
  | some o => (s.me.completeOp o).map fun g => ({ s with me := g.unmark (.mesh id) }).keepOp o true

/-- MESH_OPERATION_COMPLETE (R131). -/
def execMeshOperationComplete (id : Nat) (s : State) : Out := .next ((s.meshComplete id).getD s)

/-- A batch's write-back. -/
def State.meshWriteBack (s : State) : Option State :=
  if s.me.phase.meshRuns then s.me.mesh.readyBatch.map fun b => s.onMe (·.writeBack b) else none

/-- BATCH_WRITE_BACK (R146, R148). -/
def execBatchWriteBack (s : State) : Out := .next (s.meshWriteBack.getD s)

end Sys2Proof.Machine
end

