-- ==== Sys2Proof/Machine/System.lean ====
section
/-! DEFINITION. System registers (10_system R217 to R221, 13 R271, 25 R361), traps and their return (R222), handlers and the claim
of the mesh (R223, R224), breakpoints and the debug stop (R225 to R228), time, environment and platform instructions (R229 to
R233). YIELD stands with pre-emption. -/

namespace Sys2Proof.Machine

/-! ## System registers -/

/-- A half of a context digest (R361). -/
def Context.digestHalf (c : Context) (k : Nat) (high : Bool) : BitVec 64 :=
  let d := c.digests.getD k 0
  if high then (d >>> 64).setWidth 64 else d.setWidth 64

/-- R218: the value of a register; none for an unassigned number. -/
def State.sysReg (s : State) (k : Nat) : Option (BitVec 64) :=
  let g := s.me
  let r := g.sys
  let t := g.traps
  match k with
  | 0x000 => some s.part.caps0
  | 0x001 => some s.part.caps1
  | 0x002 => some r.kernid
  | 0x003 => some r.grpidx
  | 0x004 => some r.crank
  | 0x010 => some r.corectl
  | 0x011 => some r.window
  | 0x012 => some r.sweepmax
  | 0x020 => some t.cause
  | 0x021 => some t.addr
  | 0x022 => some t.savpc
  | 0x023 => some t.savpc1
  | 0x024 => some t.savpc2
  | 0x025 => some t.savann
  | 0x026 => some t.va
  | 0x028 => some (t.cut.getD 0 0)
  | 0x029 => some (t.cut.getD 1 0)
  | 0x02A => some (t.cut.getD 2 0)
  | 0x02B => some (t.cut.getD 3 0)
  | 0x02C => some (t.cut.getD 4 0)
  | 0x02D => some (t.cut.getD 5 0)
  | 0x02E => some (t.cut.getD 6 0)
  | 0x030 => some r.routflt
  | 0x031 => some r.brkword
  | 0x038 => some r.thbase
  | 0x039 => some r.thstack
  | 0x03A => some (match s.myCtx.bind (·.fault) with | some f => f.cause | none => 0)
  | 0x03B => some (match s.myCtx.bind (·.fault) with | some f => f.addr | none => 0)
  | 0x040 => some (match s.myCtx with | some c => c.gendrop.setWidth 64 | none => 0)
  | 0x041 => some r.ctxinfo
  | 0x042 => some r.buftag
  | 0x043 => some r.bufout
  | 0x044 => some r.spdig
  | 0x045 => some (r.trdrop.setWidth 64)
  | 0x048 => some (match s.myCtx with | some c => c.digestHalf 0 false | none => 0)
  | 0x049 => some (match s.myCtx with | some c => c.digestHalf 0 true | none => 0)
  | 0x04A => some (match s.myCtx with | some c => c.digestHalf 1 false | none => 0)
  | 0x04B => some (match s.myCtx with | some c => c.digestHalf 1 true | none => 0)
  | 0x04C => some (match s.myCtx with | some c => c.digestHalf 2 false | none => 0)
  | 0x04D => some (match s.myCtx with | some c => c.digestHalf 2 true | none => 0)
  | 0x04E => some (match s.myCtx with | some c => c.digestHalf 3 false | none => 0)
  | 0x04F => some (match s.myCtx with | some c => c.digestHalf 3 true | none => 0)
  | _ => none

/-- GSR (R220): latency 2 cy. -/
def execGsr (y : BitVec 2) (d : BitVec 5) (k : BitVec 10) (s : State) : Out :=
  issue .c y [] s fun s t =>
    match s.sysReg k.toNat with
    | none => .trap causeIllegal 0 0
    | some v => .done (s.result .c (.s d) (.word v) t 2)

/-- R217, R218: who may write a register. -/
inductive WriteBy where
  | never | every | system | handler
  deriving DecidableEq, Repr

def writeBy (k : Nat) : WriteBy :=
  if [0x010, 0x011, 0x042, 0x043, 0x044].contains k then .every
  else if k = 0x012 ∨ (0x048 ≤ k ∧ k ≤ 0x04F) then .system
  else if [0x022, 0x023, 0x024, 0x025, 0x031].contains k then .handler
  else .never

/-- Whether the group in focus may write it now. -/
def Group.mayWrite (g : Group) (k : Nat) : Bool :=
  match writeBy k with
  | .never => false
  | .every => true
  | .system => g.syspriv
  | .handler => g.phase == .handler

/-- R94, R130, R361: values that a register refuses. -/
def sysValueOk (k : Nat) (v : BitVec 64) : Bool :=
  let n := v.toNat
  match k with
  | 0x011 => decide (1 ≤ n) && decide (n ≤ 4096)
  | 0x012 => decide (2048 ≤ n) && decide (n ≤ 4096)
  | 0x044 => bitsOf n 58 6 == 0 && bitsOf n 43 13 == 0 && bitsOf n 26 6 == 0 && bitsOf n 0 16 == 0 &&
      decide (bitsOf n 16 10 + bitsOf n 32 11 ≤ 1024)
  | _ => true

/-- Write a register of the group; read-only bits keep their 0 (R219, R353, R354). -/
def Group.setSys (g : Group) (k : Nat) (v : BitVec 64) : Group :=
  match k with
  | 0x010 => { g with sys := { g.sys with corectl := v &&& 3 } }
  | 0x011 => { g with sys := { g.sys with window := v } }
  | 0x012 => { g with sys := { g.sys with sweepmax := v } }
  | 0x022 => { g with traps := { g.traps with savpc := v } }
  | 0x023 => { g with traps := { g.traps with savpc1 := v } }
  | 0x024 => { g with traps := { g.traps with savpc2 := v } }
  | 0x025 => { g with traps := { g.traps with savann := v &&& 3 } }
  | 0x031 => { g with sys := { g.sys with brkword := v } }
  | 0x042 => { g with sys := { g.sys with buftag := v &&& 0xFF } }
  | 0x043 => { g with sys := { g.sys with bufout := v &&& 0xFFFFFFFFFFFFF001 } }
  | 0x044 => { g with sys := { g.sys with spdig := v } }
  | _ => g

/-- R361: an SSR sets one half of a context digest. -/
def Context.setDigestHalf (c : Context) (k : Nat) (high : Bool) (v : BitVec 64) : Context :=
  let d := c.digests.getD k 0
  let lo : BitVec 64 := if high then d.setWidth 64 else v
  let hi : BitVec 64 := if high then v else (d >>> 64).setWidth 64
  { c with digests := c.digests.setIfInBounds k ((hi ++ lo).setWidth 128) }

/-- R220: an unassigned number, or a register that the group may not write now. -/
def State.badSysReg (s : State) (k : Nat) : Option Nat :=
  if (s.sysReg k).isNone then some causeIllegal else causeIf (!s.me.mayWrite k) causePriv

/-- R217, R223: an instruction that requires system privilege. -/
def State.badPriv (s : State) : Option Nat := causeIf (!s.me.syspriv) causePriv

/-- SSR (R217, R220). -/
def execSsr (y : BitVec 2) (a : BitVec 5) (k : BitVec 10) (s : State) : Out :=
  issuePre (s.badSysReg k.toNat) .c y [.s a] s fun s _ =>
    let n := k.toNat
    let v := s.me.sreg a
    if !sysValueOk n v then .trap causeBounds 0 0
    else if 0x048 ≤ n then .done (s.onCtx s.me.ident.ctx (·.setDigestHalf ((n - 0x048) / 2) (n % 2 == 1) v))
    else .done (s.onMe (·.setSys n v))

/-! ## Traps and their return -/

/-- TRAP (R222): SYSCALL with INFO = d * 32 + a. -/
def execTrap (y : BitVec 2) (d a : BitVec 5) (s : State) : Out :=
  issue .c y [] s fun _ _ => .trap causeSyscall (d.toNat * 32 + a.toNat) 0

/-- R222: the engine whose trap the handler returns from. -/
def Group.trapEngine (g : Group) : Engine := (engineOfTag (bitsOf g.traps.cause.toNat 8 3)).getD .c

/-! ## The claim of the mesh -/

/-- R224: the mesh has no operation and no batch. Log entry 23. -/
def MeshState.idle (m : MeshState) : Bool := m.ops.isEmpty && m.batches.isEmpty

/-- R146: the words of a window that a batch writes, as word address and count. -/
def WinPend.parts (x : WinPend) : List (Nat × Nat) :=
  [(x.win, 1), (x.win + 8, 128 + x.m), (x.win + 1024, winWords x.s x.full x.m - 1024)]

/-- R224: what a handler has written to the words of a window that the interrupted program had pending is lost; they hold again what
they held when its batch began, until they take their values at write-back. -/
def WinPend.restore (x : WinPend) (acc : Memory) : Memory :=
  x.parts.foldl (fun m p => memPut m (8 * p.1) (memBytes x.base (8 * p.1) (8 * p.2))) acc

/-- R224: the mesh and M are again as ENGCLAIM saved them (log entry 23). -/
def Group.unclaim (g : Group) : Group :=
  match g.hand.claim with
  | none => g
  | some (m, x) =>
    let acc := m.batches.foldl (fun a b => b.wins.foldl (fun a w => w.restore a) a) g.store.acc
    { (g.setEngine .m x) with
      mesh := { m with nextOp := g.mesh.nextOp, nextBatch := g.mesh.nextBatch }
      store := { g.store with acc := acc }
      hand := { g.hand with claim := none } }

/-- R224: C can give the mesh up: M has come to C's item, at which it stays, and the mesh is idle (log entry 23). -/
def Group.claimDone (g : Group) : Bool := g.eng.m.cur == g.eng.c.cur && g.mesh.idle

/-- R222: what an RFT does instead of returning. Log entry 23. -/
def State.rftStops (s : State) (mode : Nat) : Option Effect :=
  let g := s.me
  if 3 ≤ mode then some (.trap causeIllegal 0 0)
  else if g.phase ≠ .handler then some (.trap causePriv 0 0)
  else if mode = 2 ∧ (bitsOf g.sys.brkword.toNat 29 3 ≠ g.trapEngine.tag ∨ !loadable (bitsOf g.sys.brkword.toNat 0 32)) then
    some (.trap causeIllegal 0 0)
  else if g.eng.c.flight.any (fun f => !f.arrived) then some .wait
  else if g.hand.claim.isSome ∧ !g.claimDone then some .wait
  else none

/-- R222: a trapped item that counts as issued without effect, or that another word replaces, leaves nothing of what it had begun: a SUPD
of S; for C the request of an ACQ, the stand in a BARWAIT, its swap. -/
def State.dropBegun (s : State) (e : Engine) (mode : Nat) : State :=
  if mode = 0 then s
  else
    match e with
    | .s => s.setSupd none
    | .c =>
      let i := s.me.ident
      let s1 := (s.withdrawAcq i.launch i.index).onMe fun g =>
        { g with work := { g.work with joined := g.work.joined.map fun (j : Joined) => { j with waiting := false } } }
      { s1 with pages := { s1.pages with swaps := s1.pages.swaps.filter fun x => x.core != i.core } }
    | _ => s

/-- RFT (R222, R238): C and the other engines go on from the cut. -/
def execRft (y : BitVec 2) (d : BitVec 5) (s : State) : Out :=
  let x := s.eng .c
  if !s.mayRun .c || x.skip || x.annul.getLsbD 0 then issue .c y [] s fun s _ => .done s
  else
    match s.rftStops d.toNat, s.me.hand.csave with
    | none, some kept =>
      let e := s.me.trapEngine
      .next ((s.onMe fun g => g.unclaim.rft kept e d.toNat).dropBegun e d.toNat)
    | some e, _ => issue .c y [] s fun _ _ => e
    | none, none => issue .c y [] s fun _ _ => .trap causePriv 0 0

/-- BRK (R225): an item of the engine that d names; of C, which traps at it, for a d above 4. -/
def execBrk (y : BitVec 2) (d : BitVec 5) (s : State) : Out :=
  match engineOfTag d.toNat with
  | some e => issue e y [] s fun _ _ => .trap causeBreak 0 0
  | none => issue .c y [] s fun _ _ => .trap causeIllegal 0 0

/-- R223: the page of the text that THSET requires, and those of the stack. -/
def State.handlerPages (s : State) (text stack : Nat) : Chk Unit := do
  let ctx := s.me.ident.ctx
  need (decide (text < 2 ^ 56)) causeBounds text
  s.rangeCheck (.virt ctx text) 1 (fun e => causeIf (!(e.state == stSealed && e.pin)) causeBounds) fun _ => some causeBounds
  need (decide (stack + 2 ^ 20 ≤ 2 ^ 56)) causeBounds stack
  s.rangeCheck (.virt ctx stack) (2 ^ 20) (fun e => causeIf (!(e.state == stLocal && e.pin)) causeBounds) fun _ => some causeBounds

/-- R211, R223: the handler bank holds the stack base and a handle to it; in handler mode the bank is C's registers. -/
def Group.bankStack (g : Group) (stack : BitVec 64) (h : Handle) : Group :=
  if g.phase = .handler then (g.setReg (.s 31) (.word stack)).setReg (.h 15) (.handle h)
  else { g with bank := { g.bank with s31 := stack, h15 := h } }

/-- THSET (R223). Log entry 29. -/
def execThset (y : BitVec 2) (a b : BitVec 5) (s : State) : Out :=
  issuePre s.badPriv .c y [.s a, .s b] s fun s _ =>
    let va := s.me.sreg a
    let vb := s.me.sreg b
    if va = 0 ∧ vb = 0 then .done (s.onMe fun g => { g with sys := { g.sys with thbase := 0, thstack := 0 } })
    else if va.toNat % 2 ^ 16 ≠ 0 then .trap causeAlign 0 va.toNat
    else if vb.toNat % 2 ^ 16 ≠ 0 then .trap causeAlign 0 vb.toNat
    else ofChk (s.handlerPages va.toNat vb.toNat) fun _ =>
      match s.translate s.me.ident.ctx vb.toNat s.me.syspriv with
      | none => .trap causeBounds 0 vb.toNat
      | some h => .done (s.onMe fun g =>
          { (g.bankStack vb h) with sys := { g.sys with thbase := va ||| 1, thstack := vb } })

/-- R152: M is at a pre-emption point: between words, at the end of a sweep segment, with no vector in the mesh, at a pair boundary. -/
def MeshState.atPoint (m : MeshState) : Bool := m.ops.all fun o => o.seg == 0 && o.inside.isEmpty

/-- ENGCLAIM (R224): the mesh sections of the save area are written (R304); M then walks the handler's text from C's next item on (log
entry 23). -/
def execEngclaim (y : BitVec 2) (s : State) : Out :=
  issue .c y [] s fun s t =>
    if s.me.phase ≠ .handler then .trap causePriv 0 0
    else if s.me.hand.claim.isSome then .trap causeIllegal 0 0
    else if !s.me.mesh.atPoint then .wait
    else
      .done ((s.onArea s.me.ident fun a => { a with mesh := some s.me }).onMe fun g =>
        let m : EngineState :=
          { EngineState.placed with cur := g.eng.c.cur + g.itemLen .c, stack := g.eng.c.stack, clk := t + 1, w := g.eng.m.w
                                    seq := g.eng.m.seq }
        let idle := { MeshState.placed with nextOp := g.mesh.nextOp, nextBatch := g.mesh.nextBatch }
        { (g.setEngine .m m) with mesh := idle, hand := { g.hand with claim := some (g.mesh, g.eng.m) } })

/-- ENGREL (R224). Log entry 23. -/
def execEngrel (y : BitVec 2) (s : State) : Out :=
  issue .c y [] s fun s _ =>
    if s.me.phase ≠ .handler then .trap causePriv 0 0
    else if s.me.hand.claim.isNone then .trap causeIllegal 0 0
    else if !s.me.claimDone then .wait
    else .done (s.onMe (·.unclaim))

/-! ## Text and the debug stop -/

/-- The bytes of a virtual range that a fetch finds now. -/
def State.fetchBytes (s : State) (ctx va n : Nat) : List Byte :=
  s.locBytes (.text ctx) (.virt ctx va) n

/-- The part of a group's text that lies in a virtual range, from its first byte to behind its last. -/
def Group.textPart (g : Group) (lo hi : Nat) : Nat × Nat :=
  (max lo g.store.textVa, min hi (g.store.textVa + g.store.tlen))

/-- R226: a group fetches afresh the part of its text that lies in a range. -/
def Group.refetch (g : Group) (s : State) (lo hi : Nat) : Group :=
  let (a, b) := g.textPart lo hi
  if a < b then
    { g with store := { g.store with text := memPut g.store.text (a - g.store.textVa) (s.fetchBytes g.ident.ctx a (b - a)) } }
  else g

/-- IINV (R226): it waits for text that comes from another module. -/
def execIinv (y : BitVec 2) (a b : BitVec 5) (s : State) : Out :=
  issuePre s.badPriv .c y [.s a, .s b] s fun s _ =>
    let ctx := s.me.ident.ctx
    let lo := (s.me.sreg a).toNat
    let hi := lo + (s.me.sreg b).toNat
    let mine (g : Group) : Bool := g.ident.ctx == ctx && g.phase.isPlaced
    let parts := (s.groups.filter mine).map fun g => g.textPart lo hi
    let ask (t : State) (p : Nat × Nat) : Bool × State := t.gather (.text ctx) (.virt ctx p.1) (p.2 - p.1)
    if parts.all fun p => (ask s p).1 then
      .done ((s.mapGroups fun g => if mine g then g.refetch s lo hi else g).dropLines (.text ctx))
    else .waitWith (parts.foldl (fun t p => (ask t p).2) s)

/-- R227, R299, R304, R309: a running group stops for the debugger, with the vectors that are in its mesh; the control section and the
stop records of its save area are written. -/
def State.debugHalt (s : State) : State :=
  if s.me.phase = .running ∨ s.me.phase = .handler then
    let s1 := s.catchMesh.onMe fun g =>
      { g with phase := .stopped, prior := g.phase, reason := 3, time := { g.time with pauseAt := s.time.now } }
    s1.onArea s1.me.ident fun a => { a with control := some s1.me, records := some s1.me }
  else s

/-- R227, R238, R280, R364: the time since the stop is not counted, and waits go on as if it had not passed. -/
def Group.unpause (g : Group) (now : Nat) : Group :=
  let d := now - g.time.pauseAt
  let f (x : EngineState) : EngineState := { x with waiting := x.waiting.map (· + d) }
  { g with
    eng := ⟨f g.eng.c, f g.eng.l, f g.eng.v, f g.eng.m, f g.eng.s⟩
    time := { g.time with paused := g.time.paused + d, lastIssue := g.time.lastIssue + d } }

/-- R227, R238: it goes on as it stopped; the time between is not counted. -/
def State.debugGo (s : State) : State :=
  if s.me.phase = .stopped then
    s.onMe fun g =>
      { (g.unpause s.time.now) with phase := g.prior }
  else s

/-- HALT (R228). -/
def execHalt (y : BitVec 2) (s : State) : Out :=
  let halting := s.host.debugger && s.mayRun .c && !(s.eng .c).skip && !(s.eng .c).annul.getLsbD 0
  match issue .c y [] s fun s _ => if s.host.debugger then .done s else .trap causeBreak 1 0 with
  | .next t => .next (if halting then t.debugHalt else t)
  | o => o

/-- DEBUG_STOP (R227): by a debugger that is attached. -/
def execDebugStop (s : State) : Out := .next (if s.host.debugger then s.debugHalt else s)

/-- DEBUG_RESUME (R227). -/
def execDebugResume (s : State) : Out := .next (if s.host.debugger then s.debugGo else s)

/-! ## Time and environment -/

/-- R229: RNE(x * 0.94). -/
def cycleOfTime (x : BitVec 64) : Nat := rndDiv .rne false (x.toNat * 94) 100

/-- TIMEALIGN (R229). -/
def execTimealign (y : BitVec 2) (a : BitVec 5) (s : State) : Out :=
  issue .c y [.s a] s fun s _ =>
    let v := s.me.sreg a
    if s.time.now < v.toNat then .wait
    else .done (s.onMe fun g => { g with time := { g.time with cycBase := cycleOfTime v, cycAt := s.time.now, align := some v } })

/-- R230: a source of ERD. -/
def State.envSource (s : State) (k : Nat) : Option (BitVec 64 × State) :=
  match k with
  | 0 => some (s.cycleCounter, s)
  | 1 => some (BitVec.ofNat 64 s.time.now, s)
  | 2 => some (BitVec.ofNat 64 (s.boot.modnum * 2 ^ 7 + s.me.ident.core), s)
  | 3 => some (Config.dieTemperature s.free, { s with free := s.free + 1 })
  | 4 => some (BitVec.ofNat 64 s.groupCycles, s)
  | _ => none

/-- ERD (R230): latency 2 cy. -/
def execErd (y : BitVec 2) (d : BitVec 3) (a : BitVec 5) (s : State) : Out :=
  issue .c y [] s fun s t =>
    match s.envSource a.toNat with
    | none => .trap causeIllegal 0 0
    | some (v, s1) => .done (s1.result .c (.e d) (.word v) t 2)

/-- EMOV (R230). -/
def execEmov (y : BitVec 2) (d a : BitVec 3) (s : State) : Out :=
  issue .c y [.e a] s fun s t => .done (s.result .c (.e d) (.word (s.me.ereg a)) t 1)

/-- ESTORE (R230). -/
def execEstore (y : BitVec 2) (d : BitVec 3) (a : BitVec 4) (b : BitVec 5) (s : State) : Out :=
  issue .c y [.e d, .h a, .s b] s fun s _ =>
    ofChk (s.site 1 (a.setWidth 5) (s.me.sreg b).toNat 8) fun p =>
      match p with
      | .spad _ _ => .trap causePriv 0 0
      | .page h va => if !h.profile then .trap causePriv 0 va else s.storePage h va (leBytes 8 (s.me.ereg d).toNat)

/-- TRACE (R231, R363): a USER record. -/
def execTrace (y : BitVec 2) (d a : BitVec 5) (s : State) : Out :=
  issue .c y [.s a] s fun s _ => .done (s.trace 2 0 d.toNat s.me.itemSeq (s.me.sreg a))

/-! ## Calendar and swap -/

/-- R232: the checks of CALSET behind those of the record's address. -/
def State.calCheck (s : State) (slot : Nat) (r : List Byte) : Chk Unit := do
  need (decide (slot ≤ 63) && s.part.hasCore (recField r 20 1)) causeBounds 0
  need (recField r 21 1 / 2 == 0 && recZero r 22 10) causeReserved 0

/-- R232: the calendar after a CALSET. -/
def calSet (l : List CalEntry) (ctx slot : Nat) (r : List Byte) : List CalEntry :=
  let core := recField r 20 1
  let rest := l.filter fun e => !(e.core == core && e.slot == slot)
  if recField r 21 1 % 2 = 1 then
    rest ++ [⟨core, slot, ctx, recField r 0 8, recField r 8 8, recField r 16 4⟩]
  else rest

/-- CALSET (R232). -/
def execCalset (y : BitVec 2) (d a : BitVec 5) (s : State) : Out :=
  issuePre s.badPriv .c y [.s d, .s a] s fun s _ =>
    let slot := (s.me.sreg d).toNat
    ofChk (s.me.record (s.me.sreg a).toNat 32 32) fun r =>
      ofChk (s.calCheck slot r) fun _ =>
        .done { s with fe := { s.fe with calendar := calSet s.fe.calendar s.me.ident.ctx slot r } }

/-- R233: a 64 KiB page that XSWAP can take. -/
def State.swapLeaf (s : State) (va : Nat) : Chk PEntry :=
  match s.leafOf s.me.ident.ctx va with
  | none => .error (causeIllegal, 0)
  | some e => if e.state = stMigrating ∧ e.level = 4 then .ok e else .error (causeIllegal, 0)

/-- R233: held by HOLD, in a frame of this module. -/
def State.isHeld (s : State) (va : Nat) (e : PEntry) : Bool :=
  s.pages.pinnedHold.any (fun h => h.ctx == s.me.ident.ctx && h.va == va) && !e.hostf && paModule e.pa == s.boot.modnum

/-- R233: the checks of XSWAP, last that the stack is present (R2, R70). -/
def State.swapCheck (s : State) (va vb : Nat) : Chk Unit := do
  need (va % 2 ^ 16 == 0) causeAlign va
  need (vb % 2 ^ 16 == 0 && va != vb) causeAlign vb
  let ea ← s.swapLeaf va
  let eb ← s.swapLeaf vb
  need (s.isHeld va ea) causeBounds va
  need (s.isHeld vb eb && paLocal ea.pa / 2 ^ 36 == paLocal eb.pa / 2 ^ 36) causeBounds vb
  need (s.frameExists ea && s.frameExists eb) causeAbsent 0

/-- XSWAP (R233): the swap engine takes the pages, and C stalls until it has exchanged their frames. -/
def execXswap (y : BitVec 2) (d a : BitVec 5) (s : State) : Out :=
  issuePre s.badPriv .c y [.s d, .s a] s fun s _ =>
    let va := (s.me.sreg d).toNat
    let vb := (s.me.sreg a).toNat
    let core := s.me.ident.core
    let mine (x : Swap) : Bool := x.core == core && x.va == va && x.vb == vb
    let others := s.pages.swaps.filter fun x => x.core != core
    match s.pages.swaps.find? mine with
    | some x => if x.done then .done { s with pages := { s.pages with swaps := others } } else .wait
    | none => ofChk (s.swapCheck va vb) fun _ =>
        .waitWith { s with pages := { s.pages with swaps := others ++ [⟨core, s.me.ident.ctx, va, vb, false⟩] } }

/-- R165, R233: the sync objects of two frames go with their contents. -/
def State.swapObjs (s : State) (a b n : Nat) : State :=
  { s with mem := { s.mem with objs := s.mem.objs.map fun (o : SyncObj) =>
    if a ≤ o.key ∧ o.key < a + n then { o with key := o.key - a + b }
    else if b ≤ o.key ∧ o.key < b + n then { o with key := o.key - b + a }
    else o } }

/-- The first swap that is not done. -/
def State.nextSwap (s : State) : Option Swap := s.pages.swaps.find? fun x => !x.done

/-- SWAP_EXCHANGE_COMPLETE (R233): the frames' contents change places, and handles to either page are invalidated. -/
def execSwapExchangeComplete (s : State) : Out :=
  match s.nextSwap with
  | none => .next s
  | some x =>
    match s.leafOf x.ctx x.va, s.leafOf x.ctx x.vb with
    | some ea, some eb =>
      let la := paLocal ea.pa
      let lb := paLocal eb.pa
      let s1 := ((s.hbmPut la (s.hbmBytes lb (2 ^ 16))).hbmPut lb (s.hbmBytes la (2 ^ 16))).swapObjs ea.pa eb.pa (2 ^ 16)
      let s2 := (s1.dropHandles x.ctx x.va (x.va + 2 ^ 16)).dropHandles x.ctx x.vb (x.vb + 2 ^ 16)
      .next { s2 with pages := { s2.pages with swaps := s2.pages.swaps.map fun z => if z = x then { z with done := true } else z } }
    | _, _ => .next s

/-! ## Interrupts and arrivals -/

/-- R211: C can take the pending interrupt. -/
def State.interruptEnabled (s : State) : Bool := s.me.phase == .running && s.me.work.irq && !(s.eng .c).stopped

/-- INTERRUPT (R210, R211): raised by the front end at an item boundary of C. -/
def execInterrupt (s : State) : Out :=
  if !s.interruptEnabled then .next s
  else
    let s1 := s.onMe fun g => { g with work := { g.work with irq := false } }
    .next (s1.takeTrap 5 causeInterrupt 0 0 s1.me.cPos.addr false)

/-- A result of an engine whose data can arrive: no answer of another module and no interval stands in its way. -/
def InFlight.canArrive (f : InFlight) : Bool := !f.arrived && f.req.isNone && f.interval.isNone

/-- The index of the first result of an engine whose data can arrive. -/
def EngineState.nextArrival (x : EngineState) : Option Nat := x.flight.findIdx? (·.canArrive)

/-- VARIABLE_LATENCY_ARRIVAL (R160, R237): the data of result `i` of an engine arrives. Log entry 9. -/
def execVariableLatencyArrival (e : BitVec 3) (i : Nat) (s : State) : Out :=
  match engineOfTag e.toNat with
  | none => .next s
  | some e => .next (s.onEng e fun x =>
      { x with flight := listSet x.flight i fun f => if f.canArrive then { f with arrived := true } else f })

end Sys2Proof.Machine
end

