-- ==== Sys2Proof/Machine/Bells.lean ====
section
/-! DEFINITION. What the commands of the five doorbells share (13_context R270, 14_queue R282, 20_barrier R312, 21_link R328,
23_page R345): their one order, the record in memory, STATUS and the host event. -/

namespace Sys2Proof.Machine

/-- R270: the codes of STATUS. -/
def stOk : Nat := 1
def stBusy : Nat := 2
def stConflict : Nat := 3
def stBadRcb : Nat := 4
def stNoCtx : Nat := 5
def stBadCmd : Nat := 6
def stNoQueue : Nat := 7
def stBudget : Nat := 8
def stNoFrame : Nat := 9
def stBadState : Nat := 10
def stFull : Nat := 11
def stAbsent : Nat := 12

/-- The assigned OPs of a doorbell. -/
def Bell.ops : Bell → Nat
  | .ctx => 4
  | .queue => 5
  | .bar => 4
  | .link => 8
  | .page => 9

/-! ## Records and reports at physical addresses -/

/-- R8: whether an address names a frame of this module. -/
def State.isOwn (s : State) (pa : Nat) : Bool := paModule pa == s.boot.modnum

/-- The part of a record in the line that it begins in, which is all of one that is aligned. -/
def recordLen (cmd : Nat) : Nat := 64 - cmd % 64

/-- R270: the bytes of a command record; those of one in another module as its line has come (log entry 48). -/
def State.cmdBytes (s : State) (cmd : Nat) : List Byte :=
  if s.isOwn cmd then s.hbmBytes (paLocal cmd) 64 else (s.fetchedLine (.bell cmd) cmd (recordLen cmd)).getD []

/-- A record in another module has still to come. Log entry 48. -/
def State.recordMissing (s : State) (cmd : Nat) : Bool :=
  !s.isOwn cmd && (s.fetchedLine (.bell cmd) cmd (recordLen cmd)).isNone

/-- A read of the front end at a physical address of another module, within one line; one at a time for each agent. -/
def State.askPa (s : State) (ctx pa n : Nat) (ag : Agent) : State :=
  if s.awaits ag then s
  else
    s.forwardFor
      { tag := 0
        pkt := { mkPacket 1 0 (paModule pa) s.boot.modnum with ctx := ctx, len := n, addr := BitVec.ofNat 64 (paLocal pa) }
        va := pa, line := paLocal pa / 64, first := 0, sent := 0, moved := false, unsent := false, shown := [], core := none
        reg := none, size := n, signed := false, agent := some ag }

/-- The front end reads a record in another module. Log entry 48. -/
def State.askRecord (s : State) (cmd : Nat) : State := s.askPa 0 cmd (recordLen cmd) (.bell cmd)

/-- A store of the front end at a physical address, within one line. -/
def State.putPa (s : State) (ctx pa : Nat) (bs : List Byte) (ag : Agent) : State :=
  if s.isOwn pa then s.hbmPut (paLocal pa) bs
  else s.forwardStore (storePacket (paModule pa) s.boot.modnum (paLocal pa) ctx bs) pa (paLocal pa / 64) none (some ag) bs.length

/-- A report of the front end at a physical address, line by line. Log entry 13. -/
def State.putReport (s : State) (ctx pa : Nat) (bs : List Byte) (ag : Agent) : State :=
  (piecesOf pa bs.length).foldl (fun t p => t.putPa ctx p.1 ((bs.drop (p.1 - pa)).take p.2) ag) s

/-- What a command does: it completes with a STATUS, completes later, waits with all behind it, or names memory that does not
exist (log entry 13). -/
inductive CmdEnd where
  | done (status : Nat) (s : State)
  | later (s : State)
  | waits
  | absent (pa : Nat)

/-- Write STATUS and raise the event of a finished command (R270, R370); `ctx` is 0xFF where the command names no context.
Log entry 48. -/
def State.cmdDone (s : State) (cmd ctx status : Nat) : State :=
  (s.putPa ctx (cmd + 1) (leBytes 1 status) (.bell cmd)).event 1 ctx status cmd

/-- Write a report of bytes at a physical address, and complete. Log entry 48. -/
def State.reportAt (s : State) (cmd ctx a : Nat) (bs : List Byte) : CmdEnd :=
  if s.isOwn a && !hbmPresent s.part (paLocal a) bs.length then .absent a
  else .done stOk (s.putReport ctx a bs (.bell cmd))

/-- R282, R312: commands run in doorbell order. A doorbell rung behind others waits behind them; the one at the front leaves. -/
def State.bellTurn (s : State) (b : Bell) (cmd : Nat) : Bool × State :=
  match s.fe.bells with
  | [] => (true, s)
  | x :: r =>
    if x = (b, cmd) then (true, { s with fe := { s.fe with bells := r } })
    else (false, { s with fe := { s.fe with bells := s.fe.bells ++ [(b, cmd)] } })

/-- R369: a doorbell with the OP that `op` accepts. The front end ignores it while READY is clear. Log entry 48. -/
def command (b : Bell) (op : Nat → Bool) (cmd : Nat) (s : State) (hasCtx : Bool) (body : List Byte → State → CmdEnd) : Out :=
  if !s.boot.ready then .next s
  else if s.isOwn cmd && !hbmPresent s.part (paLocal cmd) 64 then .fault (.noSuchAddress cmd)
  else
    match s.recordMissing cmd, s.bellTurn b cmd with
    | true, (false, t) => .next t
    | true, (true, t) => .next ({ t with fe := { t.fe with bells := (b, cmd) :: t.fe.bells } }.askRecord cmd)
    | false, (turn, t) =>
      let r := s.cmdBytes cmd
      if !op (recField r 0 1) then .next s
      else if !turn then .next t
      else if cmd % 64 ≠ 0 then .next ((t.dropLines (.bell cmd)).cmdDone cmd 0xFF stBadCmd)
      else
        match body r t with
        | .done st u => .next ((u.dropLines (.bell cmd)).cmdDone cmd (if hasCtx then recField r 2 1 else 0xFF) st)
        | .later u => .next (u.dropLines (.bell cmd))
        | .waits => .next { t with fe := { t.fe with bells := (b, cmd) :: t.fe.bells } }
        | .absent pa => .fault (.noSuchAddress pa)

/-- BADCMD (R270): a record whose OP is not assigned. -/
def execBadcmd (bell : BitVec 3) (cmd : BitVec 52) (s : State) : Out :=
  match bellOf bell.toNat with
  | none => .next s
  | some b => command b (fun op => op == 0 || decide (b.ops < op)) cmd.toNat s (b != .link) fun _ t => .done stBadCmd t

end Sys2Proof.Machine
end

