-- ==== Sys2Proof/Machine/Firings.lean ====
section
/-! DEFINITION. Firings of work entries (09_engine_commands R198 to R201, 21_link R330): at the source their start, packets,
timeouts and acknowledgements; at the target their application, at most once, and what barriers count of them (20_barrier
R315). -/

namespace Sys2Proof.Machine

/-! ## The source -/

/-- R197: TMO in µs. -/
def WEntry.tmoUs (w : WEntry) : Nat := if w.tmo = 0 then 100 else w.tmo

/-- R181: an engine address moved inside its address field. Log entry 52. -/
def eaAdd (w : BitVec 64) (d : Int) : BitVec 64 :=
  let n := match (eaOf w).space with
    | .virt => 56
    | .spad => 26
    | .acc => 17
  let f := bitsOf w.toNat 0 n
  BitVec.ofNat 64 (w.toNat - f + wrapInt n ((f : Int) + d))

/-- The core of the group that posted an entry, while it is placed. -/
def State.ownerCore (s : State) (x : WSlot) : Option Nat := x.owner.bind fun i => s.coreOf x.launch i

/-- R181: the place of LBASE; none where it names a group that is not placed. Log entry 52. -/
def State.firingSource (s : State) (ctx : Nat) (x : WSlot) : Option Loc :=
  let a := eaOf x.entry.lbase
  match s.ownerCore x with
  | some own => s.resolve x.launch own ctx x.entry.lbase
  | none => if a.group.isNone && a.space != .virt then none else s.resolve x.launch 0 ctx x.entry.lbase

/-- R327: the port that a firing uses, 0xFF for the route table; none where it is absent or not of the queue pair's kind, or carries
second-tier traffic, which no work entry may use (R10; log entry 31). -/
def State.firingPort (s : State) (q : QPair) (w : WEntry) : Option Nat :=
  let p := if w.port = 0xFF then q.port else w.port
  if p = 0xFF then some p
  else if s.part.isTier p then none
  else if (s.port p).isNone || q.eth != decide (32 ≤ p) then none
  else some p

/-- R198: an entry re-armed: bases and threshold move on. -/
def WSlot.rearm (x : WSlot) : WSlot :=
  { x with
    st := .armed
    entry := { x.entry with lbase := eaAdd x.entry.lbase x.entry.lstride, rbase := eaAdd x.entry.rbase x.entry.rstride }
    thr := x.thr + BitVec.ofNat 64 x.entry.thstep
    left := if x.left = 0xFFFF then x.left else x.left - 1 }

/-- R198: the slot after a firing that LCTR counts; `stop` for one after which it does not re-arm. -/
def WSlot.after (x : WSlot) (last : Last) (stop : Bool) : WSlot :=
  let y : WSlot := { x with firing := none, last := last, fired := x.fired + 1 }
  if x.cancel then { y with st := .cancelled, cancel := false }
  else if stop || x.failed || x.left == 0 then { y with st := .done, failed := false }
  else y.rearm

/-- Whether a group has posted an entry. -/
def WSlot.isOf (x : WSlot) (g : Group) : Bool := x.owner == some g.ident.index && g.ident.launch == x.launch && g.phase.isPlaced

/-- Change the group that has posted an entry. -/
def State.onOwner (s : State) (x : WSlot) (f : Group → Group) : State := s.mapGroups fun g => if x.isOf g then f g else g

/-- R199: set FLAG of the posting group; the setter is the collective engine (R185). -/
def State.firingFlag (s : State) (x : WSlot) : State := if x.entry.fl then s.onOwner x (·.setFlag x.entry.flag 2) else s

/-- R219: the key of a firing's pending words. -/
def firingKey (slot num : Nat) : Nat := slot + 4096 * num

/-- R219: a firing writes no more. -/
def State.liftMarks (s : State) (n : Nat) (x : WSlot) (num : Nat) : State := s.onOwner x (·.unmark (.firing (firingKey n num)))

/-- R198, R202: a firing ends: LCTR counts it, and the slot re-arms or not. -/
def State.endFiring (s : State) (ctx n : Nat) (last : Last) (stop flag : Bool) : State :=
  match (s.ctx ctx).bind fun c => c.slot n with
  | none => s
  | some x =>
    let s1 := s.addCtrOpt x.entry.lctr 1 2
    let s2 := if flag then s1.firingFlag x else s1
    let s2 := match x.firing with
      | some f => if x.unacked.any (fun u => u.num == f.num) then s2 else s2.liftMarks n x f.num
      | none => s2
    s2.onCtx ctx fun c => { c with slots := assocMap c.slots n fun y => (y.after last stop).evaluate s2 c.st }

/-- A slot of a context. -/
def State.slotOf (s : State) (ctx n : Nat) : Option WSlot := (s.ctx ctx).bind fun c => c.slot n

/-- FIRING_START can happen: the trigger is met, the source not read. The storage of a pre-empted group is waited for (R303). -/
def State.firingStartEnabled (s : State) (ctx n : Nat) : Bool :=
  match s.slotOf ctx n with
  | none => false
  | some x => x.st == .firing && x.firing.isNone && !s.awaits (.firing ctx n) &&
      (x.entry.kind == 2 || !(s.firingSource ctx x).any (·.isAway))

/-- R200: what a firing ends with before it sends anything, if it does; a source in a stack that is not there ends it ABSENT (log
entry 13). Log entry 52. -/
def State.firingFails (s : State) (ctx : Nat) (x : WSlot) : Option Last :=
  match s.qp x.entry.qp with
  | none => some .absent
  | some q =>
    if q.st ≠ .connected ∨ q.ctx ≠ ctx ∨ (s.firingPort q x.entry).isNone then some .absent
    else if x.entry.kind = 2 then none
    else
      match s.firingSource ctx x with
      | none => some .nogroup
      | some l =>
        if !l.fits x.entry.len || !s.rangeMapped l x.entry.len then some .faulted
        else if Chk.isOk (s.framesCheck l x.entry.len) then none else some .absent

/-- R353: the bytes of a firing count for the buffer of the group that posted it. -/
def State.firingBytes (s : State) (x : WSlot) : State :=
  if x.entry.kind = 2 then s else s.onOwner x (·.addBuf x.buf x.entry.len 0)

/-- A firing with its source data. -/
def WSlot.begin (x : WSlot) (data : List Byte) : WSlot :=
  { x with
    nextFiring := (x.nextFiring + 1) % 2 ^ 32
    firing := some
      { num := x.nextFiring, qp := x.entry.qp, tmo := x.entry.tmoUs, off := 0, isLocal := false, sentAt := 0, resends := 0
        data := data } }

/-- R181: the group that an RBASE names: of the kernel bound to the far end, which the model takes as the latest launch of the
context that has the group placed (log entry 32). -/
def State.boundGroup (s : State) (ctx k : Nat) : Option Group :=
  (s.groups.filter fun g => g.ident.ctx == ctx && g.ident.index == k && g.phase.isPlaced).foldl
    (fun b g => match b with
      | none => some g
      | some o => if o.ident.launch < g.ident.launch then some g else some o) none

/-- What a packet reaches. -/
inductive Reach where
  | place (l : Loc)
  | away
  | fail (last : Last)

/-- R181, R200, R303: the place that ADDR names. Log entries 32 and 52. -/
def State.fireTarget (s : State) (ctx : Nat) (w : BitVec 64) : Reach :=
  let a := eaOf w
  match a.space, a.group with
  | .virt, _ => .place (.virt ctx a.addr)
  | _, none => .fail .nogroup
  | sp, some k =>
    match s.boundGroup ctx k with
    | none => .fail .nogroup
    | some g =>
      if g.phase = .frozen then .fail .faulted
      else if isAwayCore g.ident.core then .away
      else .place (if sp = .acc then .acc g.ident.core a.addr else .spad g.ident.core a.addr)

/-- The core of a place. -/
def Loc.core? : Loc → Option Nat
  | .virt _ _ => none
  | .spad c _ => some c
  | .acc c _ => some c

/-- R219: the bytes that a firing writes at its target, from RBASE on; an accumulator word has 8. -/
def WEntry.targetLen (w : WEntry) : Nat :=
  if w.kind = 2 then 0 else if w.exact then w.len / w.elem * w.targetElem * 8 else w.len

/-- R219: the words of the cluster of the posting group that a firing will write are pending for that group. -/
def State.markFiring (s : State) (n : Nat) (x : WSlot) : State :=
  match s.qp x.entry.qp with
  | none => s
  | some q =>
    if q.eth || q.rmod != s.boot.modnum then s
    else
      match s.fireTarget q.rctx x.entry.rbase with
      | .place l =>
        let at_ := l.core?.bind s.groupOn
        s.onOwner x fun g =>
          if at_.any (fun t => sameCluster t.ident g.ident) then
            g.markPending (pendMarks l x.entry.targetLen (.firing (firingKey n x.nextFiring)) 0)
          else g
      | _ => s

/-- FIRING_START (R198 to R200, R327): the source is read, first the lines of other modules, or the firing ends. Log entry 52. -/
def execFiringStart (ctx : BitVec 8) (slot : BitVec 12) (s : State) : Out :=
  let c := ctx.toNat
  let n := slot.toNat
  if !s.firingStartEnabled c n then .next s
  else
    match s.slotOf c n with
    | none => .next s
    | some x =>
      match s.firingFails c x with
      | some last => .next (s.endFiring c n last true false)
      | none =>
        let ag := Agent.firing c n
        let go (t : State) (data : List Byte) : State := ((t.firingBytes x).markFiring n x).onSlot c n (·.begin data)
        if x.entry.kind = 2 then .next (go s [])
        else
          match s.firingSource c x with
          | none => .next s
          | some l =>
            let (ready, s1) := s.gather ag l x.entry.len
            if !ready then .next s1
            else .next (go ((s.countRange ag l x.entry.len).dropLines ag) (s.locBytes ag l x.entry.len))

/-! ## Packets -/

/-- R322: FIRE carries the RED byte. A RED of 0 is also that of a PUT: an exact PUTRED with it goes as one of profile 4, whose exact sums
are the same (log entry 31). -/
def WEntry.sub (w : WEntry) : Nat := if w.exact ∧ w.red = 0 then 0x40 else w.red

/-- R322: ADDR of the packet at a byte offset, in bytes or accumulator words of the target. -/
def WEntry.addrAt (w : WEntry) (off : Nat) : BitVec 64 :=
  eaAdd w.rbase (if w.exact then off / w.elem * w.targetElem else if (eaOf w.rbase).space = .acc then off / 8 else off)

/-- R197: a counter field. -/
def ctrCode : Option Nat → BitVec 16
  | none => 0x8000
  | some n => BitVec.ofNat 16 n

/-- R322: the packet of a firing at its present offset (log entry 31). -/
def firePacket (modnum : Nat) (q : QPair) (w : WEntry) (f : Firing) : Packet :=
  let n := if w.kind = 2 then 0 else min 256 (w.len - f.off)
  { mkPacket 7 ((n + 63) / 64) q.rmod modnum with
    flags := BitVec.ofNat 8 ((if f.resends = 0 then 0 else 1) + (if w.rc then 2 else 0) + (if w.rb then 4 else 0))
    ctx := q.rctx, sub := BitVec.ofNat 8 w.sub, len := n, addr := w.addrAt f.off, qp := q.rqp
    slot := w.slot, firing := f.num, offset := f.off, value := BitVec.ofNat 64 w.len, rctr := ctrCode w.rctr
    rout := BitVec.ofNat 8 w.rout, payload := (f.data.drop f.off).take n }

/-- R199: all packets stand in a replay store; a SIGNAL has one, without payload. -/
def Firing.allSent (f : Firing) (w : WEntry) : Bool := if w.kind = 2 then f.off != 0 else decide (w.len ≤ f.off)

/-- Put packets of a firing into the store while it takes them; the first argument bounds them. -/
def sendFiring (q : QPair) (port : Nat) (w : WEntry) : Nat → State → Firing → State × Firing
  | 0, s, f => (s, f)
  | k + 1, s, f =>
    if f.allSent w then (s, f)
    else
      match s.qpSend q port (firePacket s.boot.modnum q w f) with
      | none => (s, f)
      | some t => sendFiring q port w k t { f with off := f.off + (if w.kind = 2 then 1 else min 256 (w.len - f.off)) }

/-- A firing whose packets are still to be sent. -/
def WSlot.sending (x : WSlot) : Option Firing := if x.st = .firing then x.firing.filter fun f => !f.isLocal else none

/-- FIRING_LOCAL_COMPLETE can happen. -/
def State.firingSendEnabled (s : State) (ctx n : Nat) : Bool :=
  match s.slotOf ctx n with
  | none => false
  | some x => (x.sending).any fun f => (s.qp f.qp).any fun q =>
      (s.firingPort q x.entry).any fun p => (s.qpSend q p (firePacket s.boot.modnum q x.entry f)).isSome

/-- R199: the firing is locally complete. -/
def State.localDone (s : State) (ctx n : Nat) (x : WSlot) (f : Firing) : State :=
  let g : Firing := { f with isLocal := true, sentAt := s.time.now }
  if x.entry.rc then s.onSlot ctx n fun y => { y with firing := some g }
  else (s.onSlot ctx n fun y => { y with unacked := y.unacked ++ [{ g with data := [] }] }).endFiring ctx n .ok false true

/-- FIRING_LOCAL_COMPLETE (R199): the packets go into the store as it takes them; with the last one the firing is locally
complete. -/
def execFiringLocalComplete (ctx : BitVec 8) (slot : BitVec 12) (s : State) : Out :=
  let c := ctx.toNat
  let n := slot.toNat
  match s.slotOf c n with
  | none => .next s
  | some x =>
    match x.sending with
    | none => .next s
    | some f =>
      match s.qp f.qp with
      | none => .next s
      | some q =>
        match s.firingPort q x.entry with
        | none => .next s
        | some p =>
          let (s1, g) := sendFiring q p x.entry 4097 s f
          if g.allSent x.entry then .next (s1.localDone c n x g)
          else .next (s1.onSlot c n fun y => { y with firing := some g })

/-! ## Timeouts and acknowledgements -/

/-- R200: no acknowledgement within TMO. -/
def Firing.late (f : Firing) (now : Nat) : Bool := f.isLocal && decide (f.sentAt + 1000 * f.tmo ≤ now)

/-- R200, R331: a firing ends LOST. -/
def State.loseFiring (s : State) (ctx n qp : Nat) : State :=
  ((s.onSlot ctx n fun x => { x with losts := min (x.losts + 1) 0xFFFF, last := .lost }).onQp qp fun q =>
    { q with losses := satAdd32 q.losses 1 }).env ctx 7 none (qp * 2 ^ 32 + n)

/-- FIRING_TIMEOUT can happen. -/
def State.firingTimeoutEnabled (s : State) (ctx n : Nat) : Bool :=
  match s.slotOf ctx n with
  | none => false
  | some x => x.unacked.any (·.late s.time.now) || x.firing.any (·.late s.time.now)

/-- FIRING_TIMEOUT (R200). -/
def execFiringTimeout (ctx : BitVec 8) (slot : BitVec 12) (s : State) : Out :=
  let c := ctx.toNat
  let n := slot.toNat
  match s.slotOf c n with
  | none => .next s
  | some x =>
    match x.unacked.find? (·.late s.time.now) with
    | some f =>
      .next (((s.onSlot c n fun y => { y with unacked := y.unacked.filter fun g => g.num != f.num }).loseFiring c n f.qp).liftMarks n x f.num)
    | none =>
      match x.firing.filter (·.late s.time.now) with
      | none => .next s
      | some f =>
        if f.resends < 3 then
          .next (s.onSlot c n fun y => { y with firing := some { f with off := 0, isLocal := false, resends := f.resends + 1 } })
        else .next ((s.loseFiring c n f.qp).endFiring c n .lost false false)

/-- R200: the outcome that a FACK reports (log entry 31). -/
def lastOfCode (n : Nat) : Last :=
  match n with
  | 3 => .faulted
  | 5 => .nogroup
  | _ => .ok

/-- R198: a failure reported for an earlier firing. -/
def WSlot.reported (x : WSlot) (last : Last) (reason : Nat) : WSlot :=
  match x.st with
  | .armed => { x with st := .done, last := last, reason := reason }
  | .firing => { x with failed := true, last := last, reason := reason }
  | _ => { x with last := last, reason := reason }

/-- FACK (R199, R200) at the source. -/
def State.fackArrive (s : State) (pk : Packet) : State :=
  match s.qp pk.qp with
  | none => s
  | some q =>
    let c := q.ctx
    let n := pk.slot
    let last := lastOfCode pk.sub.toNat
    match s.slotOf c n with
    | none => s
    | some x =>
      if x.firing.any (fun f => f.num == pk.firing && f.qp == q.num) then
        if last = .ok then
          if x.entry.rc then
            ((s.onQp q.num fun q => { q with completed := q.completed + 1 }).endFiring c n .ok false true)
          else s
        else (s.onSlot c n fun y => { y with reason := pk.value.toNat % 16 }).endFiring c n last true false
      else if x.unacked.any (fun f => f.num == pk.firing && f.qp == q.num) then
        let s1 := (s.onSlot c n fun y => { y with unacked := y.unacked.filter fun f => f.num != pk.firing }).liftMarks n x pk.firing
        if last = .ok then s1.onQp q.num fun q => { q with completed := q.completed + 1 }
        else s1.onSlot c n (·.reported last (pk.value.toNat % 16))
      else s

/-! ## The target -/

/-- The bytes of a space from a place on. -/
def Loc.room : Loc → Nat
  | .virt _ a => 2 ^ 56 - a
  | .spad _ a => 2 ^ 26 - a
  | .acc _ w => 8 * accWords - 8 * w

/-- R197: an exact PUTRED of a packet. -/
def exactRed (red : Nat) : Bool := red != 0 && red % 4 != 3

/-- R197: source element width and slot words of an exact PUTRED. -/
def exactElem (red : Nat) : Nat := if red % 4 = 1 then 8 else 4
def exactWords (red : Nat) : Nat := if red % 4 = 0 then 8 else 4

/-- One contribution of a packet (R35). -/
def Store.contribute (m : Store) (red w v : Nat) : Store :=
  if accWords < w + exactWords red then m
  else if red % 4 = 0 then m.xfContribute w (fpDecode fmtF32 v)
  else m.xwContribute w (if red % 4 = 1 then fpDecode fmtF64 v else fpDecode fmtF32 v)

/-- The elements of a payload. -/
def elemsOf (w : Nat) (bs : List Byte) : List Nat := (List.range (bs.length / w)).map fun i => recField bs (w * i) w

/-- R197, R35: an exact PUTRED adds its elements to the slots from a word on. -/
def Store.contributeAll (m : Store) (red w : Nat) : List Nat → Store
  | [] => m
  | v :: r => (m.contribute red w v).contributeAll red (w + exactWords red) r

/-- R201: combine a payload's elements with those at the target, one after another, until one faults. -/
def combineBytes (r : Routine) (w : Nat) : List Nat → List Nat → List Byte × Option Nat
  | t :: ts, v :: vs =>
    match r.run v 0 t with
    | .error (_, e) => ([], some e)
    | .ok x => let (l, e) := combineBytes r w ts vs; (leBytes w x ++ l, e)
  | _, _ => ([], none)

/-- Free values (log entry 10): the manual gives no combination of elements whose width is not that of the routine's TYPE. -/
def freeElems (k w n : Nat) : List Byte := (List.range n).flatMap fun i => leBytes w (Config.freeBits (k + i)).toNat

/-- R200, R201: why a routine PUTRED is refused: a REASON of R193. -/
def routineRefused (c : Context) (pf : Nat) (r : Option Routine) : Option Nat :=
  match r with
  | none => some 1
  | some r => if (pf == 6 && !r.assoc) || (c.root.nivose && !(r.assoc && r.comm)) then some 4 else none

/-- R315: the bytes of a packet that lie in a watch range: over addresses, or over the words of an accumulator store. -/
def overlap (lo hi a b : Nat) : Nat := min hi b - max lo a

/-- R315: what a barrier counts of a packet performed at a place. -/
def Barrier.counts (b : Barrier) (g : Option Group) (l : Loc) (red n : Nat) : Nat :=
  let w := eaOf b.wbase
  if b.wlen = 0 then 0
  else
    match l with
    | .virt _ a => if w.space = .virt then overlap w.addr (w.addr + b.wlen) a (a + n) else 0
    | .spad _ _ => 0
    | .acc _ x =>
      if w.space = .acc ∧ (b.scope = 1 ∨ w.group = g.map (·.ident.index)) then
        if exactRed red then
          let e := exactElem red
          ((List.range (n / e)).filter fun k =>
            let y := x + k * exactWords red
            decide (w.addr ≤ y) && decide (y < w.addr + b.wlen)).length * e
        else overlap (8 * w.addr) (8 * (w.addr + b.wlen)) (8 * x) (8 * x + n)
      else 0

/-- R315: what the barriers of a context count of a packet. -/
def State.arrivals (s : State) (c : Context) (l : Loc) (red n : Nat) : List Owed :=
  let g := l.core?.bind s.groupOn
  (c.bars.map fun p =>
    let b := p.2
    let m := b.counts g l red n
    ({ bar := p.1, key := (g.map fun g => clusterKey b g.ident).getD 0
       goal := (g.map fun g => barGoal b g.ident).getD b.pcount, bytes := m } : Owed)).filter fun o => o.bytes != 0

/-- The record of a firing at a queue pair. -/
def QPair.record (q : QPair) (slot firing : Nat) : Option FireRec := q.recs.find? fun r => r.slot == slot && r.firing == firing

/-- Keep a record. -/
def State.putRecord (s : State) (qp : Nat) (r : FireRec) : State :=
  s.onQp qp fun q =>
    { q with recs := q.recs.filter (fun x => !(x.slot == r.slot && x.firing == r.firing)) ++ [r] }

/-- R199: acknowledge a firing, or report its failure (log entry 31). -/
def State.fack (s : State) (qp slot firing status reason : Nat) : State :=
  s.sendQp qp { mkPacket 8 0 0 0 with slot := slot, firing := firing, sub := BitVec.ofNat 8 status, value := BitVec.ofNat 64 reason }

def State.sendFack (s : State) (qp : Nat) (r : FireRec) : State := s.fack qp r.slot r.firing r.status r.reason

/-- R330: how long a record is kept, in ns: 4 times the longest TMO, since no packet carries the TMO of its entry (R322; log entry 31). -/
def recordTime : Nat := 4 * 65535 * 1000

/-- R330: a record whose FACK is sent now. What its packets have written and barriers have not counted stays owed (R315). -/
def FireRec.close (r : FireRec) (now status reason : Nat) : FireRec :=
  { r with status := status, reason := reason, expiry := some (now + recordTime) }

/-- R200: a firing fails at its target. -/
def State.failFire (s : State) (qp : Nat) (r : FireRec) (last : Last) (reason : Nat) : State :=
  let r := r.close s.time.now last.code reason
  ((s.putRecord qp r).sendFack qp r).teardownAll

/-- R199: RCTR at the target: LEN with RB or for a SIGNAL, else 1; only a counter granted to the context counts. Log entry 52. -/
def State.countRctr (s : State) (ctx : Nat) (pk : Packet) : State :=
  match ctrField pk.rctr.toNat with
  | none => s
  | some n =>
    if (s.ctx ctx).any (·.grants n) then
      s.addCtr n (if pk.npay = 0 ∨ pk.flags.getLsbD 2 then pk.value else 1) 2
    else s

/-- R253, R257: a packet of a firing is performed: its accesses have been answered, atomic combinations included, and no replica of what
it wrote is left. -/
def State.partDone (s : State) (p : FirePart) : Bool :=
  s.allDone p.tags && !s.links.settling.any (fun x => p.tags.contains x.tag) &&
  !s.mem.closing.any (fun c => p.tags.contains c.tag) &&
  p.pages.all fun k => !s.pages.holds.any fun h => h.ctx == k.1 && h.va == k.2 && !h.waits.isEmpty

/-- R199, R253, R315: each packet that a firing has performed is counted by the barriers, and once the firing is whole by RCTR and a
FACK. -/
def State.settleFire (s : State) (qp : Nat) (r : FireRec) : State :=
  match s.qp qp with
  | none => s
  | some q =>
    let (now, later) := r.parts.partition s.partDone
    let s1 := (now.flatMap (·.owed)).foldl (fun t o => t.barArrive q.ctx o.bar o.key o.goal o.bytes) s
    let r1 : FireRec := { r with parts := later }
    let whole := !r.offsets.isEmpty && (r.first.npay == 0 || decide (r.first.value.toNat ≤ r.bytes))
    if r.status = 0 && whole && later.isEmpty then
      let r2 := r1.close s.time.now Last.ok.code 0
      ((((s1.countRctr q.ctx r.first).putRecord qp r2).onQp qp fun q => { q with applied := q.applied + 1 }).sendFack qp r2).teardownAll
    else if now.isEmpty then s else s1.putRecord qp r1

/-- Settle every firing whose writes other modules or migrations have performed meanwhile. -/
def State.settleFires (s : State) : State :=
  s.links.qps.foldl (fun t q => q.recs.foldl (fun u r => u.settleFire q.num r) t) s

/-- R303, R326: a packet that cannot be applied yet waits. -/
def State.holdFire (s : State) (qp : Nat) (r : FireRec) (pk : Packet) : State :=
  let s1 := s.putRecord qp r
  { s1 with links := { s1.links with waiting := s1.links.waiting ++ [pk] } }

/-- The own DUPLICATED pages of a range whose replicas a write to it invalidates (R349). -/
def State.heldPagesOf (s : State) (l : Loc) (n : Nat) : List (Nat × Nat) :=
  match l with
  | .virt ctx va => ((piecesOf va n).filterMap fun p => (s.leafOf ctx p.1).bind fun e =>
      if e.state = stDup ∧ s.pages.holds.any (fun h => h.ctx == ctx && h.va == e.base p.1) then some (ctx, e.base p.1) else none).eraseDups
  | _ => []

/-- The accesses of a state that were not there before: what a packet waits for. -/
def State.newTags (s t : State) : List Nat :=
  let all (x : State) : List Nat := x.links.fwds.map (·.tag) ++ x.pages.held.map (·.tag) ++ x.mem.closing.map (·.tag)
  (all t).filter fun k => !(all s).contains k

/-- R219: what a packet of a firing of this module has written is pending no more for the group that posted its entry. -/
def State.unmarkFire (s : State) (q : QPair) (pk : Packet) (l : Loc) (n : Nat) : State :=
  if q.eth || q.rmod != s.boot.modnum then s
  else
    match s.slotOf q.rctx pk.slot with
    | none => s
    | some x => s.onOwner x (·.unmarkRange (.firing (firingKey pk.slot pk.firing)) l n)

/-- A packet has been written: `s` is the state before and `t` the state after. -/
def State.fireDone (s t : State) (q : QPair) (r : FireRec) (pk : Packet) (l : Option (Loc × Nat)) (owed : List Owed) : State :=
  let pages := (l.map fun x => s.heldPagesOf x.1 x.2).getD []
  let r1 : FireRec :=
    { r with offsets := pk.offset :: r.offsets, bytes := r.bytes + pk.len, parts := r.parts ++ [⟨s.newTags t, pages, owed⟩] }
  let t1 := match l with
    | some x => t.unmarkFire q pk x.1 x.2
    | none => t
  (t1.putRecord q.num r1).settleFire q.num r1

/-- R201: a combination with an element of another module: the home is asked for it, and takes it by an atomic of its own, so that no
other access comes between. -/
def State.combineFar (s : State) (q : QPair) (pk : Packet) (ro : Routine) (w ctx va v : Nat) : State :=
  let c : Closing :=
    { tag := s.links.nextTag, ctx := ctx, va := va, bits := 8 * w, guess := none, atomics := []
      combine := some ⟨ro, v, 0, q.num, pk.slot, pk.firing⟩ }
  { s.newTag.2 with mem := { s.mem with closing := s.mem.closing ++ [c] } }

/-- R201: the elements of one line, or of a range of a core's storage, at a place from which all lie in one page: the state after, and
the REASON of a fault. -/
def State.combinePiece (s : State) (ag : Agent) (q : QPair) (pk : Packet) (ro : Routine) (w : Nat) (l : Loc) (bs : List Byte) :
    State × Option Nat :=
  let far := match l with
    | .virt ctx va => s.isRemote (.page ctx va 0 false)
    | _ => false
  match l, far with
  | .virt ctx va, true =>
    ((List.range (bs.length / w)).foldl (fun t i => t.combineFar q pk ro w ctx (va + w * i) (recField bs (w * i) w)) s, none)
  | _, _ =>
    let (out, err) := combineBytes ro w (elemsOf w (s.locBytes ag l bs.length)) (elemsOf w bs)
    (s.locWrite ag 0 l out, err)

/-- R201: the pieces of a packet, until one faults. -/
def combinePieces (s : State) (ag : Agent) (q : QPair) (pk : Packet) (ro : Routine) (w : Nat) :
    List (Loc × Nat) → List Byte → State × Option Nat
  | [], _ => (s, none)
  | p :: r, bs =>
    match s.combinePiece ag q pk ro w p.1 (bs.take p.2) with
    | (t, none) => combinePieces t ag q pk ro w r (bs.drop p.2)
    | x => x

/-- The pieces of a range. -/
def Loc.pieces (l : Loc) (n : Nat) : List (Loc × Nat) :=
  match l with
  | .virt ctx va => (piecesOf va n).map fun p => (.virt ctx p.1, p.2)
  | _ => [(l, n)]

/-- R250: a combination waits where an element's value is not known: an atomic on it is held, or its page is on its way to this module. -/
def State.combineWaits (s : State) (l : Loc) (n : Nat) : Bool :=
  match l with
  | .virt ctx va => (piecesOf va n).any fun p => s.heldAtomic ctx p.1 p.2 || s.isMoving (.page ctx p.1 0 false)
  | _ => false

/-- R200, R201: perform a routine PUTRED at a place. -/
def State.fireCombine (s : State) (q : QPair) (c : Context) (r : FireRec) (pk : Packet) (l : Loc) (bs : List Byte) (owed : List Owed) :
    State :=
  let red := pk.sub.toNat
  let ag := Agent.target q.num pk.slot pk.firing
  let rout := assocGet c.routines (pk.rout.toNat % 64)
  let w := if bitsOf red 2 2 = 1 then 8 else 4
  match routineRefused c (red / 16) rout, rout with
  | some e, _ => s.failFire q.num r .faulted e
  | none, none => s.failFire q.num r .faulted 1
  | none, some ro =>
    if s.combineWaits l bs.length then s.holdFire q.num r pk
    else if ro.width ≠ w then
      let t := { (s.locWrite ag 0 l (freeElems s.free w (bs.length / w))) with free := s.free + bs.length / w }
      s.fireDone t q r pk (some (l, bs.length)) owed
    else
      match combinePieces s ag q pk ro w (l.pieces bs.length) bs with
      | (t, some e) => t.pumpClosing.failFire q.num r .faulted e
      | (t, none) => s.fireDone t.pumpClosing q r pk (some (l, bs.length)) owed

/-- R199, R201: perform a packet at a place. -/
def State.firePerform (s : State) (q : QPair) (c : Context) (r : FireRec) (pk : Packet) (l : Loc) : State :=
  let red := pk.sub.toNat
  let ag := Agent.target q.num pk.slot pk.firing
  let r : FireRec := { r with core := l.core? }
  let bs := (pk.payload.take pk.len).take l.room
  let owed := s.arrivals c l red pk.len
  if red = 0 then s.fireDone (s.locWrite ag 0 l bs) q r pk (some (l, bs.length)) owed
  else if exactRed red then
    match l with
    | .acc core w =>
      let n := bs.length / exactElem red * exactWords red * 8
      s.fireDone (s.onCore core fun g => { g with store := g.store.contributeAll red w (elemsOf (exactElem red) bs) })
        q r pk (some (l, n)) owed
    | _ => s.failFire q.num r .faulted 4
  else s.fireCombine q c r pk l bs owed

/-- R201: the home has answered a combination with the value that its element held: the one that this module took it to hold, and then
it is done; else it tries again from the value told. -/
def State.combineReturns (s : State) (c : Closing) (x : Combine) (v : Nat) : State :=
  if c.guess = some v then (s.endClosing c []).settleFires
  else
    match x.rout.run x.v 0 v with
    | .ok new =>
      { s with mem := { s.mem with closing := s.mem.closing.map fun (d : Closing) =>
        if d.tag = c.tag then { d with guess := some v, combine := some { x with new := new } } else d } }.pumpClosing
    | .error (_, e) =>
      let s1 := s.endClosing c []
      match (s1.qp x.qp).bind fun q => q.record x.slot x.firing with
      | none => s1
      | some r => if r.status = 0 then (s1.failFire x.qp r .faulted e).settleFires else s1.settleFires

/-- The answer to a request for a location of another module. -/
def State.farReturns (s : State) (tag v : Nat) : State :=
  match s.mem.closing.find? fun c => c.tag == tag with
  | none => s
  | some c =>
    match c.combine with
    | none => s.closingReturns tag v
    | some x => s.combineReturns c x v

/-- R252, R326: such a request has had no effect. -/
def State.farFails (s : State) (tag : Nat) : State := (s.closingFails tag).settleFires

/-- Whether the far end of a queue pair is a context of this module, and which. -/
def QPair.nearEnd (q : QPair) (modnum : Nat) : Option Nat := if q.eth || q.rmod != modnum then none else some q.rctx

/-- R200, R268, R269: apply a packet that its record does not hold yet; `isNew` for the first one of its firing. A firing of a frozen
context into itself finishes. Log entries 49 and 52. -/
def State.fireApply (s : State) (q : QPair) (r : FireRec) (pk : Packet) (isNew : Bool) : State :=
  match s.ctx q.ctx with
  | none => s.failFire q.num r .faulted 0
  | some c =>
    let closed := match c.st with
      | .freezing => q.nearEnd s.boot.modnum != some q.ctx
      | .frozen => q.nearEnd s.boot.modnum != some q.ctx
      | .draining => isNew
      | _ => false
    if closed then s.failFire q.num r .faulted 0
    else if pk.npay = 0 then s.fireDone s q r pk none []
    else
      match s.fireTarget q.ctx pk.addr with
      | .fail last => s.failFire q.num r last 0
      | .away => s.holdFire q.num r pk
      | .place l => s.firePerform q c r pk l

/-- R330: whether firing `a` of a slot is older than `b`. -/
def olderFiring (a b : Nat) : Bool := decide (1 ≤ (b + 2 ^ 32 - a) % 2 ^ 32) && decide ((b + 2 ^ 32 - a) % 2 ^ 32 < 2 ^ 31)

/-- FIRE (R199, R330) at its target; at a pair whose context has been destroyed it ends FAULTED (R269). -/
def State.fireArrive (s : State) (pk : Packet) : State :=
  match s.qp pk.qp with
  | none => s
  | some q =>
    if q.st = .closed then s.fack q.num pk.slot pk.firing Last.faulted.code 0
    else if q.st ≠ .connected ∧ q.st ≠ .closing then s
    else
      match q.record pk.slot pk.firing with
      | some r =>
        if r.status ≠ 0 then s.sendFack q.num r
        else if r.offsets.contains pk.offset || s.links.waiting.any (fun x =>
            x.qp == pk.qp && x.slot == pk.slot && x.firing == pk.firing && x.offset == pk.offset) then s
        else s.fireApply q r pk false
      | none =>
        let mine := q.recs.filter fun r => r.slot == pk.slot
        if !mine.isEmpty && mine.all (fun r => olderFiring pk.firing r.firing) then s
        else
          s.fireApply q
            { slot := pk.slot, firing := pk.firing, first := { pk with payload := [] }, offsets := [], bytes := 0, status := 0
              reason := 0, core := none, parts := [], expiry := none } pk true

/-- Packets of firings that waited are tried again. -/
def State.retryFires (s : State) : State :=
  let l := s.links.waiting.filter fun pk => pk.kind == 7
  l.foldl (fun t pk => t.fireArrive pk) { s with links := { s.links with waiting := s.links.waiting.filter fun pk => pk.kind != 7 } }

/-- FIRING_RECORD_EXPIRY can happen. -/
def FireRec.expired (r : FireRec) (now : Nat) : Bool := r.parts.isEmpty && r.expiry.any fun t => decide (t ≤ now)

/-- FIRING_RECORD_EXPIRY (R330). -/
def execFiringRecordExpiry (qp slot : BitVec 12) (firing : Nat) (s : State) : Out :=
  .next (s.onQp qp.toNat fun q =>
    { q with recs := q.recs.filter fun r => !(r.slot == slot.toNat && r.firing == firing && r.expired s.time.now) })

end Sys2Proof.Machine
end

