-- ==== Sys2Proof/Machine/Forward.lean ====
section
/-! DEFINITION. Load-store forwarding (21_link R325, R326; 12_model_far R249 to R252): at the home of a location RDREQ, WRREQ and
ATREQ, at the source their answers, resends and failures. -/

namespace Sys2Proof.Machine

/-! ## The home -/

/-- The local address of a packet. -/
def Packet.la (pk : Packet) : Nat := pk.addr.toNat % 2 ^ 42

/-- R326: keep the answer of an access and send it. -/
def State.answer (s : State) (line : Nat) (ans : Packet) : State :=
  let s1 : State := { s with links := { s.links with
    homes := s.links.homes.filter (fun r => !(r.smod == ans.dmod && r.tag == ans.tag)) ++
      [⟨ans.dmod, ans.tag, some ans, s.time.now⟩] } }
  s1.post (.route line) ans

/-- Note an access whose answer comes later. -/
def State.owe (s : State) (pk : Packet) : State :=
  { s with links := { s.links with homes := s.links.homes ++ [⟨pk.smod, pk.tag, none, s.time.now⟩] } }

/-- The answer to a request. -/
def State.reply (s : State) (pk : Packet) (kind npay : Nat) : Packet :=
  { mkPacket kind npay pk.smod s.boot.modnum with tag := pk.tag, ctx := pk.ctx, addr := pk.addr }

/-- R326: an access that the home has a record of is answered from it; else it is performed. -/
def State.onceAtHome (s : State) (pk : Packet) (perform : State → State) : State :=
  match s.links.homes.find? fun r => r.smod == pk.smod && r.tag == pk.tag with
  | some r =>
    match r.answer with
    | some a => s.post (.route (pk.la / 64)) a
    | none => s
  | none => perform s

/-- A message about an access to the module that it comes from, on the way of its answer (log entry 26). -/
def State.tellSource (s : State) (smod tag ctx line : Nat) (sub : BitVec 8) : State :=
  s.post (.route line) { mkPacket 9 0 smod s.boot.modnum with sub := sub, tag := tag, ctx := ctx }

/-- R252: the source counts an access that is dropped after a deadline; it is told so before the answer. -/
def State.tellGone (s : State) (pk : Packet) (h : Home) : State :=
  match h with
  | .gone => s.tellSource pk.smod pk.tag pk.ctx (pk.la / 64) ctrlGone
  | _ => s

/-- R250: the value that an access reads is not known yet: an atomic on it is held while its page is MIGRATING. -/
def State.homeUnknown (s : State) (h : Home) (n : Nat) : Bool :=
  match h with
  | .page c va _ => s.heldAtomic c va n
  | _ => false

/-- An access that waits for a migration is tried again after it. -/
def State.holdPacket (s : State) (pk : Packet) : State := { s with links := { s.links with waiting := s.links.waiting ++ [pk] } }

/-- RDREQ (R323): the line returns. Log entry 53. -/
def State.rdreqArrive (s : State) (pk : Packet) : State :=
  s.onceAtHome pk fun s =>
    let line := pk.la / 64
    let h := s.homeAt pk.smod pk.ctx (64 * line)
    if s.homeUnknown h 64 then s.holdPacket pk
    else (s.tellGone pk h).answer line { s.reply pk 2 1 with len := pk.len, payload := s.homeRead h 64 }

/-- The bytes of a line that MASK names, as runs from offset `off` on. -/
def maskRuns (m off : Nat) : List Byte → List (Nat × List Byte)
  | [] => []
  | b :: r =>
    let rest := maskRuns m (off + 1) r
    if bitsOf m off 1 = 0 then rest
    else
      match rest with
      | (o, bs) :: t => if o = off + 1 then (off, b :: bs) :: t else (off, [b]) :: rest
      | [] => [(off, [b])]

/-- The runs of a store written at its home; `ack` goes with the last of them where they are held. -/
def homeRuns (pk ack : Packet) : List (Nat × List Byte) → State → State
  | [], s => s
  | p :: r, s =>
    let h := s.homeAt pk.smod pk.ctx (pk.la - pk.la % 64 + p.1)
    homeRuns pk ack r (s.homePut h p.2 (if r.isEmpty then some ack else none))

/-- R251, R349: replicas of a page that an access has written are still to go: the page. -/
def State.invalidating (s : State) (h : Home) : Option (Nat × Nat) :=
  match h with
  | .page c va e => if s.pages.holds.any (fun x => x.ctx == c && x.va == e.base va && !x.waits.isEmpty) then some (c, e.base va) else none
  | _ => none

/-- R251: an access that has been performed is answered at once; where replicas have still to go, the source is told so first, and again
when the last of them has gone. -/
def State.answerWrite (s : State) (pk : Packet) (h : Home) (ans : Packet) : State :=
  let line := pk.la / 64
  match s.invalidating h with
  | none => s.answer line ans
  | some (c, va) =>
    let late : Packet := { mkPacket 9 0 pk.smod s.boot.modnum with sub := ctrlAllGone, tag := pk.tag, ctx := pk.ctx, addr := pk.addr }
    let s1 := (s.tellSource pk.smod pk.tag pk.ctx line ctrlInvalidating).answer line ans
    { s1 with pages := { s1.pages with holds := s1.pages.holds.map fun (x : PageHold) =>
      if x.ctx = c ∧ x.va = va then { x with acks := x.acks ++ [late] } else x } }

/-- WRREQ (R323): written under MASK; the WRACK goes out once the store is performed. -/
def State.wrreqArrive (s : State) (pk : Packet) : State :=
  s.onceAtHome pk fun s =>
    let ack := s.reply pk 6 0
    let h := s.homeAt pk.smod pk.ctx pk.la
    let runs := maskRuns pk.mask.toNat 0 (pk.payload.take 64)
    let s1 := homeRuns pk ack runs (s.tellGone pk h)
    match h with
    | .page _ _ e => if e.state = stMigrating ∧ runs ≠ [] then s1.owe pk else s1.answerWrite pk h ack
    | _ => s1.answerWrite pk h ack

/-- The fields of SUB of an ATREQ (R322) and its operands. -/
def Packet.atOp (pk : Packet) : AtOp :=
  let n := pk.sub.toNat
  let w := bitsOf n 4 2
  let bits := if w < 2 then 32 else 64
  { op := bitsOf n 0 4, signed := w % 2 == 0, bits := bits, sat := bitsOf n 6 1 == 1
    v := recField pk.payload 0 8 % 2 ^ bits, u := recField pk.payload 8 8 % 2 ^ bits }

/-- The core number of a held atomic that another module has asked for: none of this module's. -/
def farCore : Nat := 2 ^ 16

/-- R250: an atomic of another module that is held while its page is MIGRATING. -/
def State.holdFar (s : State) (pk : Packet) (c va : Nat) (o : AtOp) : State :=
  let r : PendAtomic :=
    { tag := pk.tag, launch := 0, cluster := none, interval := 0, index := 0, seq := 0, core := farCore, place := .page c va 0 false, op := o.op
      signed := o.signed, bits := o.bits, sat := o.sat, v := o.v, u := o.u, req := 0 }
  (s.hold c va (List.replicate (o.bits / 8) 0) none none (some (s.reply pk 5 0)) (some r)).owe pk

/-- ATREQ (R173, R323): performed at its home; the old value returns. -/
def State.atreqArrive (s : State) (pk : Packet) : State :=
  s.onceAtHome pk fun s =>
    let o := pk.atOp
    let n := o.bits / 8
    let h := s.homeAt pk.smod pk.ctx pk.la
    let old := leVal (s.homeRead h n)
    let go (t : State) (v : Nat) : State := t.answerWrite pk h { s.reply pk 5 0 with value := BitVec.ofNat 64 v }
    match h with
    | .gone => go (s.tellGone pk h) 0
    | .page c va e =>
      if e.state = stMigrating then s.holdFar pk c va o
      else go (s.homePut h (leBytes n (atomicNew o.op o.signed o.bits o.sat old o.v o.u)) none) old
    | .plain _ => go (s.homePut h (leBytes n (atomicNew o.op o.signed o.bits o.sat old o.v o.u)) none) old

/-- R250: a held write is performed at the new copy, and another module gets its answer. -/
def State.performWrite (s : State) (w : HeldWrite) : State :=
  let t := s.performHeld w
  match w.ack with
  | none => t
  | some a =>
    let ans : Packet := match w.rmw, s.leafOf w.ctx w.va with
      | some r, some e => { a with value := BitVec.ofNat 64 (leVal (s.readPage w.ctx w.va e (r.bits / 8))) }
      | _, _ => a
    t.answer (a.la / 64) ans

/-! ## The source -/

def State.fwd (s : State) (tag : Nat) : Option Fwd := s.links.fwds.find? fun f => f.tag == tag

/-- Change a forwarded access. -/
def State.onFwd (s : State) (tag : Nat) (f : Fwd → Fwd) : State :=
  { s with links := { s.links with fwds := s.links.fwds.map fun g => if g.tag == tag then f g else g } }

/-- A forwarded access has its answer. -/
def State.dropFwd (s : State) (tag : Nat) : State :=
  { s with links := { s.links with fwds := s.links.fwds.filter fun f => f.tag != tag } }.sendUnsent

/-- Packets that waited for a migration or for a pre-empted target are tried again. -/
def State.retryWaiting (s : State) : State :=
  let l := s.links.waiting.filter fun pk => pk.kind != 7
  (l.foldl (fun (t : State) (pk : Packet) => if pk.kind = 1 then t.rdreqArrive pk else t.atreqArrive pk)
    { s with links := { s.links with waiting := s.links.waiting.filter fun pk => pk.kind == 7 } }).retryFires

/-- The bytes of a forwarded load in the line that came, under the writes that were held here as it was sent (R250). -/
def loadBytes (f : Fwd) (line : List Byte) : List Byte :=
  f.shown.foldl (fun bs p => listSet bs p.1 fun _ => p.2) ((line.drop (f.pkt.la % 64)).take f.size)

/-- A forwarded load returns its bytes to a result of C or to an agent. -/
def State.loadReturns (s : State) (f : Fwd) (bs : List Byte) : State :=
  let v := extendTo f.signed (8 * f.size) (leVal bs)
  let s1 := match f.core with
    | some c => s.onCore c fun g => g.arrive false f.tag v false
    | none => s
  match f.agent with
  | none => s1
  | some ag => { s1 with links := { s1.links with lines := s1.links.lines ++ [⟨ag, f.pkt.dmod * 2 ^ 42 + f.pkt.la, bs⟩] } }

/-- RDRSP (R323). -/
def State.rdrspArrive (s : State) (pk : Packet) : State :=
  match s.fwd pk.tag with
  | none => s
  | some f =>
    if f.pkt.kind = 1 then (s.dropFwd pk.tag).loadReturns f (loadBytes f pk.payload) else s

/-- R322: what the issuer of an atomic derives from the old value. -/
def State.atomicReturns (s : State) (f : Fwd) (old : Nat) (added : Bool) : State :=
  match f.core with
  | none => s
  | some c => s.onCore c fun g => g.arrive false f.tag (extendTo f.signed (8 * f.size) old) added

/-- ATRSP (R322, R323): of an atomic of C, or of a request for a location that this module changes indivisibly (R175, R201). -/
def State.atrspArrive (s : State) (pk : Packet) : State :=
  match s.fwd pk.tag with
  | none => s
  | some f =>
    if f.pkt.kind = 4 then
      let o := f.pkt.atOp
      let old := pk.value.toNat % 2 ^ o.bits
      match f.agent with
      | some (.closing k) => (s.dropFwd pk.tag).farReturns k old
      | _ => (s.dropFwd pk.tag).atomicReturns f old (fetchAdded old o.v o.u)
    else s

/-- A forwarded access has had no effect: a load returns 0, a store is dropped, an atomic returns 0 with predicate 0 (R252, R326). -/
def State.fwdFails (s : State) (f : Fwd) : State :=
  let s1 := s.dropFwd f.tag
  match f.pkt.kind, f.agent with
  | 1, _ => s1.loadReturns f (List.replicate f.size 0)
  | 4, some (.closing k) => s1.farFails k
  | 4, _ => s1.atomicReturns f 0 false
  | _, _ => s1.settleFires

/-- R252: the home has dropped an access after a deadline; it is counted here, where its context is. Log entry 53. -/
def State.goneArrive (s : State) (pk : Packet) : State :=
  match s.fwd pk.tag with
  | none => s
  | some f =>
    let s1 := match f.agent with
      | some ag => s.countRevoked ag f.pkt.ctx f.va
      | none => s.onCtx f.pkt.ctx Context.revoke
    (s1.env f.pkt.ctx 8 (f.core.bind s.groupOn) f.va).fwdFails f

/-- R251: a home has performed a store or an atomic whose invalidations are not all acknowledged. -/
def State.invalidatingArrive (s : State) (pk : Packet) : State :=
  match s.fwd pk.tag with
  | none => s
  | some f => { s with links := { s.links with settling := s.links.settling ++ [⟨f.tag, f.pkt.dmod, f.line, f.core, f.agent⟩] } }

/-- R251: the last replica has gone. -/
def State.allGoneArrive (s : State) (pk : Packet) : State :=
  { s with links := { s.links with settling := s.links.settling.filter fun x => x.tag != pk.tag } }.settleFires

/-- WRACK (R323): the store is performed at its home. -/
def State.wrackArrive (s : State) (pk : Packet) : State :=
  match s.fwd pk.tag with
  | none => s
  | some f => if f.pkt.kind = 3 then (s.dropFwd pk.tag).settleFires else s

/-! ## Packets as events -/

/-- R323: a packet that is discarded and counted. The row does not say which port has received it: the first port counts it (log entry
31). -/
def State.countBad (s : State) : State :=
  { s with links := { s.links with ports := listSet s.links.ports 0 fun p => { p with packetsBad := satAdd32 p.packetsBad 1 } } }

/-- R325: a packet for another module is relayed by this module's own table. No packet carries a count of its hops (R322), so the limit
of 4 is one on the tables that the host writes. Log entry 54. -/
def State.relay (s : State) (pk : Packet) : State := s.post (.route (pk.addr.toNat / 64)) pk

/-- R323, R325: a packet of a kind, for this module or to be relayed. -/
def onPacket (kind : Nat) (hdr : BitVec 512) (payload : List Byte) (s : State) (f : State → Packet → State) : Out :=
  match packetOf hdr payload with
  | none => .next s.countBad
  | some pk =>
    if pk.kind ≠ kind then .next s
    else if pk.dmod = s.boot.modnum then .next (f s pk)
    else .next (s.relay pk)

/-- RDREQ (R323, R326). -/
def execRdreq (hdr : BitVec 512) (payload : List Byte) (s : State) : Out := onPacket 1 hdr payload s (·.rdreqArrive)

/-- RDRSP (R323, R326). -/
def execRdrsp (hdr : BitVec 512) (payload : List Byte) (s : State) : Out := onPacket 2 hdr payload s (·.rdrspArrive)

/-- WRREQ (R323, R326). -/
def execWrreq (hdr : BitVec 512) (payload : List Byte) (s : State) : Out := onPacket 3 hdr payload s (·.wrreqArrive)

/-- ATREQ (R323, R326). -/
def execAtreq (hdr : BitVec 512) (payload : List Byte) (s : State) : Out := onPacket 4 hdr payload s (·.atreqArrive)

/-- ATRSP (R322, R326). -/
def execAtrsp (hdr : BitVec 512) (payload : List Byte) (s : State) : Out := onPacket 5 hdr payload s (·.atrspArrive)

/-- WRACK (R323, R326). -/
def execWrack (hdr : BitVec 512) (payload : List Byte) (s : State) : Out := onPacket 6 hdr payload s (·.wrackArrive)

/-- FIRE (R199, R330). -/
def execFire (hdr : BitVec 512) (payload : List Byte) (s : State) : Out := onPacket 7 hdr payload s (·.fireArrive)

/-- FACK (R199, R200). -/
def execFack (hdr : BitVec 512) (payload : List Byte) (s : State) : Out := onPacket 8 hdr payload s (·.fackArrive)

/-! ## Resends and failures -/

/-- R326: 20 µs have passed since the last send, and not yet 2 ms since the first. -/
def Fwd.resendDue (f : Fwd) (now : Nat) : Bool :=
  !f.unsent && decide (f.sent + 20000 ≤ now) && decide (now < f.first + 2000000)

/-- R366: a forwarded access was resent or has failed. -/
def State.envFwd (s : State) (f : Fwd) (failed : Bool) : State :=
  s.env f.pkt.ctx 6 (f.core.bind s.groupOn) (f.pkt.dmod * 2 ^ 42 + f.pkt.la + if failed then 2 ^ 63 else 0)

/-- FORWARD_RESEND (R326): on the present route, with the same TAG and with RETRY. -/
def execForwardResend (tag : BitVec 32) (s : State) : Out :=
  match s.fwd tag.toNat with
  | none => .next s
  | some f =>
    if f.resendDue s.time.now then
      let pk := { f.pkt with flags := f.pkt.flags ||| 1 }
      .next (((s.envFwd f false).onFwd f.tag fun g => { g with sent := s.time.now, pkt := pk }).trySend pk f.line)
    else .next s

/-- R326: 2 ms have passed since the first send, or since the access was made where no port has been usable. -/
def State.fwdFailed (s : State) (f : Fwd) : Bool :=
  (!f.unsent || (s.routePorts f.pkt.dmod).isEmpty) && decide (f.first + 2000000 ≤ s.time.now)

/-- R379: the log keeps 64 entries, the newest last. -/
def State.logError (s : State) (addr unit_ : Nat) : State :=
  { s with errors := { s.errors with log := (s.errors.log ++ [(addr, unit_, s.time.now)]).drop (s.errors.log.length + 1 - 64) } }

/-- R370: the subclasses of CLASS 6 that are no port state (log entry 33). -/
def evForwardLoss : Nat := 0x10
def evSlewStart : Nat := 0x11
def evSlewEnd : Nat := 0x12
def evHoldover : Nat := 0x13

/-- FORWARD_FAILURE (R326): a load returns 0, a store has no effect, an atomic has no effect and returns 0 with predicate 0. -/
def execForwardFailure (tag : BitVec 32) (s : State) : Out :=
  match s.fwd tag.toNat with
  | none => .next s
  | some f =>
    if s.fwdFailed f then
      let pa := f.pkt.dmod * 2 ^ 42 + f.pkt.la
      let s1 := s.envFwd f true
      let s1 : State := { s1 with links := { s1.links with fwdLoss := satAdd32 s.links.fwdLoss 1 } }
      .next (((s1.logError pa 3).event 6 0xFF evForwardLoss pa).fwdFails f)
    else .next s

/-- HOME_RECORD_EXPIRY (R326): 2 ms after the access. -/
def HomeRec.expired (r : HomeRec) (now : Nat) : Bool := r.answer.isSome && decide (r.at_ + 2000000 ≤ now)

/-- HOME_RECORD_EXPIRY (R326). -/
def execHomeRecordExpiry (smod : BitVec 10) (tag : BitVec 32) (s : State) : Out :=
  .next { s with links := { s.links with homes := s.links.homes.filter fun r =>
    !(r.smod == smod.toNat && r.tag == tag.toNat && r.expired s.time.now) } }

end Sys2Proof.Machine
end

