-- ==== Sys2Proof/Machine/Pages.lean ====
section
/-! DEFINITION. Page commands (23_page R342 to R351) with their checks, migration, replicas and leases, and the HBM charge
(13_context R266). -/

namespace Sys2Proof.Machine

/-! ## The HBM charge -/

/-- The page command in progress on a page. -/
def State.pageOp (s : State) (ctx va : Nat) : Option PageOp := s.pages.ops.find? fun o => o.ctx == ctx && o.va == va

/-- R266: a page is charged while it is LOCAL in this module's HBM; a page that moves is charged for the frame it moves to, a held
one for its own. The doorbell frame (R352) is no HBM. Log entry 21. -/
def State.isCharged (s : State) (ctx : Nat) (p : PEntry × Nat) : Bool :=
  let here := !p.1.hostf && paModule p.1.pa == s.boot.modnum && hbmPresent s.part (paLocal p.1.pa) p.1.size
  if p.1.state = stLocal then here
  else if p.1.state = stMigrating then
    match s.pageOp ctx p.2 with
    | some o => !o.hostf
    | none => here
  else false

/-- R266: the HBM bytes charged to a node: pages of regions on whose HBM budget path it lies. Log entry 21. -/
def State.hbmUsed (s : State) (ctx : Nat) (c : Context) (node : Nat) : Nat :=
  ((s.ctxLeaves ctx).filter fun p => s.isCharged ctx p && (c.hbmPath p.1.rid).any fun r => r.addr == node).foldl
    (fun n p => n + p.1.size) 0

/-- R265, R266: HUSED of every accepted node, in the context and in memory. -/
def State.chargeHbm (s : State) (ctx : Nat) : State :=
  match s.ctx ctx with
  | none => s
  | some c =>
    c.rcbs.foldl (fun t r =>
      let n := s.hbmUsed ctx c r.addr
      (t.onCtx ctx fun c => c.onRcbs [r.addr] fun x => { x with hused := n }).hbmPutVal (paLocal r.addr + 40) 8 n) s

/-- R266: the node on a region's HBM budget path, if any, whose budget `n` more bytes would exceed. -/
def State.hbmRefuses (s : State) (ctx rid n : Nat) : Option Rcb :=
  match s.ctx ctx with
  | none => none
  | some c => (c.hbmPath rid).find? fun r => decide (r.hbudget < s.hbmUsed ctx c r.addr + n)

/-! ## Pinned pages -/

/-- R351: a frame of a context's trace ring. -/
def State.inRing (s : State) (pa size : Nat) : Bool :=
  s.ctxs.any fun c => c.2.root.trlog != 0 && decide (pa < c.2.root.trbase + 2 ^ c.2.root.trlog) && decide (c.2.root.trbase < pa + size)

/-- R351. -/
def State.pinned (s : State) (e : PEntry) : Bool := e.pin || (!e.hostf && s.inRing e.pa e.size)

/-! ## The record and its checks -/

/-- R345: the fields of a page command. -/
structure PCmd where
  addr : Nat
  op : Nat
  ctx : Nat
  flags : Nat
  ctr : Nat
  va : Nat
  va2 : Nat
  frame : Nat
  bad : Bool
  deriving DecidableEq, Repr

def opMigrate : Nat := 1
def opDuplicate : Nat := 2
def opHold : Nat := 3
def opUnhold : Nat := 4
def opUnmap : Nat := 5
def opZerocnt : Nat := 6
def opLend : Nat := 7
def opBorrow : Nat := 8
def opRevoke : Nat := 9

def pageCmd (addr : Nat) (r : List Byte) : PCmd :=
  let f := recField r
  { addr := addr, op := f 0 1, ctx := f 2 1, flags := f 3 1, ctr := f 4 2, va := f 8 8, va2 := f 16 8, frame := f 24 8
    bad := bitsOf (f 4 2) 12 3 != 0 || f 6 2 != 0 || !recZero r 32 32 }

def PCmd.xchg (c : PCmd) : Bool := bitsOf c.flags 0 1 == 1
def PCmd.force (c : PCmd) : Bool := bitsOf c.flags 1 1 == 1
def PCmd.hostf (c : PCmd) : Bool := bitsOf c.flags 2 1 == 1

/-- R345: the size code of BORROW. -/
def PCmd.size (c : PCmd) : Nat := bitsOf c.flags 3 2

/-- The level of a size code, and the size. -/
def sizeLevel (z : Nat) : Nat := 4 - z

/-- R345: the FLAGS bits that an OP uses. -/
def usedFlags (op : Nat) : Nat :=
  if op = opUnhold then 1 else if op = opRevoke then 2 else if op = opMigrate then 4 else if op = opBorrow then 24 else 0

/-- R346, first row. -/
def State.badPageCmd (s : State) (c : PCmd) : Bool :=
  let framed := c.op == opMigrate || c.op == opDuplicate
  c.bad || c.flags - Nat.land c.flags (usedFlags c.op) != 0 || (c.va2 != 0 && !(c.op == opUnhold && c.xchg)) ||
    (c.frame != 0 && !framed && c.op != opBorrow) || c.va % 2 ^ 16 != 0 || decide (2 ^ 56 ≤ c.va) || c.va2 % 2 ^ 16 != 0 ||
    (framed && c.frame % 2 ^ 16 != 0) || (c.op == opBorrow && (c.size == 3 || c.va % levelSize (sizeLevel c.size) != 0 ||
      decide (2 ^ 10 ≤ c.frame))) ||
    (framed && !c.hostf && !(paModule c.frame == s.boot.modnum && decide (c.frame < 2 ^ 52) && hbmPresent s.part (paLocal c.frame) 1))

/-- R346, fourth row: where the page lies and how FRAME and VA2 fit it. -/
def State.badPagePlace (s : State) (c : PCmd) : Bool :=
  match s.leafOf c.ctx c.va with
  | none => false
  | some e =>
    let framed := c.op == opMigrate || c.op == opDuplicate
    e.base c.va != c.va || (framed && c.frame % e.size != 0) ||
      (framed && !c.hostf && !hbmPresent s.part (paLocal c.frame) e.size) ||
      (c.op == opUnhold && c.xchg && !(s.leafOf c.ctx c.va2).any fun f => f.size == e.size && f.base c.va2 == c.va2)

/-- R346, fifth row. -/
def State.pageBusy (s : State) (c : PCmd) : Bool :=
  let e := s.leafOf c.ctx c.va
  let moves := [opUnmap, opMigrate, opDuplicate, opHold, opLend].contains c.op
  (moves && e.any s.pinned) ||
    (c.op == opRevoke && !c.force && s.pages.leases.any fun l => l.ctx == c.ctx && l.va == c.va && !l.passed && l.ring) ||
    (s.pageOp c.ctx c.va).isSome || (c.xchg && (s.pageOp c.ctx c.va2).isSome) ||
    (c.op == opUnmap && e.any fun e => e.state == stMigrating)

/-- A page entered MIGRATING by HOLD. -/
def State.pageHeld (s : State) (ctx va : Nat) : Bool := s.pages.pinnedHold.any fun h => h.ctx == ctx && h.va == va

/-- R346: an unmapped entry at the level of a size. -/
def State.leafSlot (s : State) (ctx va level : Nat) : Option PEntry :=
  (s.entryOf ctx va).filter fun e => e.state == stUnmapped && e.level == level

/-- R346: the states that an OP accepts. -/
def State.badPageState (s : State) (c : PCmd) : Bool :=
  if c.op = opBorrow then (s.leafSlot c.ctx c.va (sizeLevel c.size)).isNone
  else
    match s.leafOf c.ctx c.va with
    | none => true
    | some e =>
      let st := e.state
      match c.op with
      | 1 => !(st == stLocal || (st == stRemote && e.hostf) || st == stLeasedIn || st == stRevoking)
      | 2 => !(st == stRemote && !e.hostf)
      | 3 => st != stLocal
      | 4 => !(st == stMigrating && s.pageHeld c.ctx c.va) ||
          (c.xchg && !((s.leafOf c.ctx c.va2).any (fun f => f.state == stMigrating) && s.pageHeld c.ctx c.va2))
      | 5 => false
      | 6 => false
      | 7 => st != stLocal
      | _ => st != stLeasedOut

/-- R346: a MIGRATE into this module's HBM is charged, a page that is LOCAL already is charged: the region whose budget refuses it. -/
def State.overBudget (s : State) (c : PCmd) : Option Nat :=
  if c.op == opMigrate && !c.hostf then
    match s.leafOf c.ctx c.va with
    | none => none
    | some e => if e.state = stLocal then none else (s.hbmRefuses c.ctx e.rid e.size).map (·.rid)
  else none

/-- R346: the checks in their order; none where the command is accepted. -/
def State.pageCheck (s : State) (c : PCmd) : Option Nat :=
  if s.badPageCmd c then some stBadCmd
  else if !(s.ctx c.ctx).any (·.ready) then some stNoCtx
  else if 7 ≤ c.op ∧ !s.part.lease then some stAbsent
  else if s.badPagePlace c then some stBadCmd
  else if s.pageBusy c then some stBusy
  else if s.badPageState c then some stBadState
  else if (s.overBudget c).isSome then some stBudget
  else none

/-! ## Completion -/

/-- R345: CTR is incremented behind everything else, whatever the status. -/
def State.pageCtr (s : State) (ctr : Nat) : State := s.addCtrOpt (ctrField ctr) 1 5

/-- R366: a page command has completed on a page of a context. Log entry 55. -/
def State.envPage (s : State) (ctx va op status : Nat) : State := if status = stOk then s.env ctx 3 none (va + op) else s

/-- R345: a page command that completes later writes its STATUS and its event. -/
def State.pageDone (s : State) (o : PageOp) (status : Nat) : State :=
  let s1 : State := { s with pages := { s.pages with ops := s.pages.ops.filter fun x => x.cmd != o.cmd } }
  ((s1.cmdDone o.cmd o.ctx status).envPage o.ctx o.va o.op status).pageCtr o.ctr

/-- A page command: R345, R346. At most 16 are in progress. -/
def pageCommand (op cmd : Nat) (s : State) (act : PCmd → State → CmdEnd) : Out :=
  command .page (· == op) cmd s true fun r t =>
    let c := pageCmd cmd r
    if 16 ≤ t.pages.ops.length then .waits
    else
      match t.pageCheck c with
      | some st =>
        let u := if st = stBudget then t.notify c.ctx c.va 2 ((t.overBudget c).getD 0) else t
        .done st (u.pageCtr c.ctr)
      | none =>
        match act c t with
        | .done st u => .done st (((u.chargeHbm c.ctx).envPage c.ctx c.va c.op st).pageCtr c.ctr)
        | e => e

/-- Handles to a page are invalidated. -/
def State.dropPage (s : State) (ctx va : Nat) (e : PEntry) : State := s.dropHandles ctx va (va + e.size)

/-- R343: ACC set to 0. Log entry 53. -/
def State.zeroAcc (s : State) (ctx : Nat) (e : PEntry) : State :=
  (s.hbmPutVal (paLocal e.addr + 8) 4 0).onCtx ctx fun c => { c with accs := c.accs.filter fun x => x.entry != e.addr }

/-- R250, R347: perform the held writes of a page where it lies now, in order, and send the answers that waited for them. -/
def State.performAllHeld (s : State) (ctx va size : Nat) : State :=
  let mine (w : HeldWrite) : Bool := w.ctx == ctx && decide (va ≤ w.va) && decide (w.va < va + size)
  (s.pages.held.filter mine).foldl (·.performWrite)
    { s with pages := { s.pages with held := s.pages.held.filter fun w => !mine w } }

/-- What waited for a page to settle goes on: intervals that close on it, requests of other modules, firings (R175, R250). -/
def State.pageSettled (s : State) : State := s.resolveIntervals.retryWaiting.settleFires

/-- A page command in progress. -/
def PCmd.begun (c : PCmd) (old : BitVec 64) : PageOp :=
  { cmd := c.addr, op := c.op, ctx := c.ctx, va := c.va, frame := c.frame, hostf := c.hostf, ctr := c.ctr, old := old, stage := 0 }

def State.beginOp (s : State) (o : PageOp) : State := { s with pages := { s.pages with ops := s.pages.ops ++ [o] } }

/-! ## MIGRATE -/

/-- MIGRATE (R347). -/
def execMigrate (cmd : BitVec 52) (s : State) : Out :=
  pageCommand opMigrate cmd.toNat s fun c t =>
    match t.leafOf c.ctx c.va with
    | none => .done stBadState t
    | some e => .later (((t.setPageSt e stMigrating).beginOp (c.begun e.w0)).chargeHbm c.ctx)

/-- The command in progress whose record is at an address. -/
def State.opOf (s : State) (cmd : Nat) : Option PageOp := s.pages.ops.find? fun o => o.cmd == cmd

/-- Stores of this module to a page that have not been performed at its old copy. -/
def State.storesTo (s : State) (ctx va n : Nat) : Bool :=
  s.links.fwds.any fun f => f.pkt.ctx == ctx && f.pkt.isStore && decide (va ≤ f.va) && decide (f.va < va + n)

/-- R347, R350: the lender's frame of a page, where the page is borrowed. -/
def State.borrowedAt (s : State) (ctx va : Nat) : Option Borrowed := s.pages.borrowed.find? fun b => b.ctx == ctx && b.va == va

/-- R350: return a borrowed frame to its lender. -/
def State.returnFrame (s : State) (ctx va : Nat) : State :=
  match s.borrowedAt ctx va with
  | none => s
  | some b =>
    let s1 : State := { s with pages := { s.pages with borrowed := s.pages.borrowed.filter fun x => !(x.ctx == ctx && x.va == va) } }
    s1.ctrl (paModule b.frame) ctrlReturn ctx 0 0 (BitVec.ofNat 64 b.frame) 0

/-- The bytes of the page that a command copies: its own lines of other modules, the rest at once. -/
def State.oldCopy (s : State) (o : PageOp) (e : PEntry) : List Byte := s.locBytes (.page o.cmd) (.virt o.ctx o.va) e.size

/-- MIGRATION_COPY_DONE can happen: earlier stores to the old copy are performed. Log entry 21. -/
def State.migrationEnabled (s : State) (cmd : Nat) : Bool :=
  match s.opOf cmd with
  | none => false
  | some o => o.op == opMigrate && !s.awaits (.page cmd) && (s.leafOf o.ctx o.va).any fun e => !s.storesTo o.ctx o.va e.size

/-- R347: the entry switches to the new frame, which holds the copy. -/
def State.switchPage (s : State) (o : PageOp) (e : PEntry) (data : List Byte) : State :=
  let s1 := if o.hostf then s.hostPut o.frame data else s.hbmPut (paLocal o.frame) data
  let w := setBits (setBits (setBits e.w0 0 52 o.frame) 55 1 (if o.hostf then 1 else 0)) 60 4 (if o.hostf then stRemote else stLocal)
  s1.putW0 e.addr w

/-- R165: where the sync objects of a frame stand. -/
def frameKey (pa : Nat) (hostf : Bool) : Nat := pa + if hostf then 2 ^ 52 else 0

/-- MIGRATION_COPY_DONE (R347, R250): the copy is made once the lines of another module are here. -/
def execMigrationCopyDone (cmd : BitVec 52) (s : State) : Out :=
  if !s.migrationEnabled cmd.toNat then .next s
  else
    match s.opOf cmd.toNat with
    | none => .next s
    | some o =>
      match s.leafOf o.ctx o.va with
      | none => .next s
      | some e =>
        let (ready, s1) := s.gather (.page o.cmd) (.virt o.ctx o.va) e.size
        if !ready then .next s1
        else
          let s2 := s.switchPage o e (s.oldCopy o e)
          let moved := if !e.hostf && paModule e.pa == s.boot.modnum then
              s2.pages.moved.filter (fun m => decide (s.time.now ≤ m.since + 2000000)) ++
                [⟨paLocal e.pa, e.size, o.ctx, o.va, s.time.now⟩]
            else s2.pages.moved
          let s3 : State := { s2 with pages := { s2.pages with ops := s2.pages.ops.filter (fun x => x.cmd != o.cmd), moved := moved } }
          let s4 := s3.moveObjs (frameKey e.pa e.hostf) (frameKey o.frame o.hostf) e.size
          let s5 := ((s4.performAllHeld o.ctx o.va e.size).dropPage o.ctx o.va e).returnFrame o.ctx o.va
          .next (((((s5.zeroAcc o.ctx e).dropLines (.page o.cmd)).chargeHbm o.ctx).pageDone o stOk).pageSettled)

/-! ## HOLD and UNHOLD -/

/-- HOLD (R348). -/
def execHold (cmd : BitVec 52) (s : State) : Out :=
  pageCommand opHold cmd.toNat s fun c t =>
    match t.leafOf c.ctx c.va with
    | none => .done stBadState t
    | some e =>
      let t1 := t.setPageSt e stMigrating
      .done stOk { t1 with pages := { t1.pages with pinnedHold := t1.pages.pinnedHold ++ [⟨c.ctx, c.va⟩] } }

/-- R348: a held page returns to LOCAL with a frame, and its held writes are performed there. -/
def State.release (s : State) (ctx va : Nat) (e : PEntry) (frame : Nat) : State :=
  let s1 := s.putW0 e.addr (setBits (setBits e.w0 0 52 frame) 60 4 stLocal)
  let s2 : State := { s1 with pages := { s1.pages with
    pinnedHold := s1.pages.pinnedHold.filter fun h => !(h.ctx == ctx && h.va == va) } }
  s2.performAllHeld ctx va e.size

/-- UNHOLD (R348). -/
def execUnhold (cmd : BitVec 52) (s : State) : Out :=
  pageCommand opUnhold cmd.toNat s fun c t =>
    match t.leafOf c.ctx c.va, t.leafOf c.ctx c.va2 with
    | none, _ => .done stBadState t
    | some e, f =>
      if c.xchg then
        match f with
        | none => .done stBadState t
        | some f =>
          let t1 := t.swapObjs e.pa f.pa e.size
          .done stOk (((((t1.release c.ctx c.va e f.pa).release c.ctx c.va2 f e.pa).dropPage c.ctx c.va e).dropPage c.ctx c.va2 f).pageSettled)
      else .done stOk ((t.release c.ctx c.va e e.pa).pageSettled)

/-! ## UNMAP and ZEROCNT -/

/-- The replica of a page of this module. -/
def State.replicaAt (s : State) (ctx va : Nat) : Option Replica := s.pages.replicas.find? fun r => r.ctx == ctx && r.va == va

/-- R349: a holder gives its replica up and tells the owner. -/
def State.dropReplica (s : State) (ctx va : Nat) : State :=
  match s.replicaAt ctx va with
  | none => s
  | some r =>
    let s1 : State := { s with pages := { s.pages with
      replicas := s.pages.replicas.filter fun x => !(x.ctx == ctx && x.va == va) } }
    s1.ctrl r.owner ctrlInvalidated ctx 0 0 (BitVec.ofNat 64 r.frame) 0

/-- R342: unmap a page. Log entry 21. -/
def State.unmapPage (s : State) (ctx va : Nat) (e : PEntry) : State :=
  let s1 := ((s.setPageSt e stUnmapped).dropPage ctx va e).returnFrame ctx va
  let s2 := if e.state = stDup then s1.dropReplica ctx va else s1
  { s2 with pages := { s2.pages with
    holds := s2.pages.holds.filter (fun h => !(h.ctx == ctx && h.va == va))
    replicas := s2.pages.replicas.filter fun r => !(r.ctx == ctx && r.va == va) } }

/-- UNMAP (R342). -/
def execUnmap (cmd : BitVec 52) (s : State) : Out :=
  pageCommand opUnmap cmd.toNat s fun c t =>
    match t.leafOf c.ctx c.va with
    | none => .done stBadState t
    | some e => .done stOk (t.unmapPage c.ctx c.va e)

/-- ZEROCNT (R343). -/
def execZerocnt (cmd : BitVec 52) (s : State) : Out :=
  pageCommand opZerocnt cmd.toNat s fun c t =>
    match t.leafOf c.ctx c.va with
    | none => .done stBadState t
    | some e => .done stOk (t.zeroAcc c.ctx e)

/-- ACC_WRITEBACK (R343): a changed count goes to its entry. -/
def execAccWriteback (ctx : BitVec 8) (entry : BitVec 52) (s : State) : Out :=
  match (s.ctx ctx.toNat).bind fun c => c.accs.find? fun x => x.entry == entry.toNat && x.dirty with
  | none => .next s
  | some x =>
    .next ((s.hbmPutVal (paLocal x.entry + 8) 4 x.count.toNat).onCtx ctx.toNat fun c =>
      { c with accs := c.accs.map fun y => if y.entry == x.entry then { y with dirty := false } else y })

/-! ## Replicas -/

/-- Ask the owner of a page to register this module (R349). -/
def State.askOwner (s : State) (o : PageOp) (pa : Nat) : State :=
  s.ctrl (paModule pa) ctrlRegister o.ctx 0 0 (BitVec.ofNat 64 pa) (BitVec.ofNat 64 o.cmd)

/-- DUPLICATE (R349). -/
def execDuplicate (cmd : BitVec 52) (s : State) : Out :=
  pageCommand opDuplicate cmd.toNat s fun c t =>
    match t.leafOf c.ctx c.va with
    | none => .done stBadState t
    | some e => .later ((t.beginOp (c.begun e.w0)).askOwner (c.begun e.w0) e.pa)

/-- The holders of an owner's page. -/
def State.holdersOf (s : State) (ctx va : Nat) : PageHold :=
  (s.pages.holds.find? fun h => h.ctx == ctx && h.va == va).getD ⟨ctx, va, [], [], []⟩

def State.putHolders (s : State) (h : PageHold) : State :=
  { s with pages := { s.pages with holds := s.pages.holds.filter (fun x => !(x.ctx == h.ctx && x.va == h.va)) ++ [h] } }

/-- The owner's answers to a registration: full, registered, sealed, bad state, busy (log entry 26). -/
def regFull : Nat := 0
def regOk : Nat := 1
def regSealed : Nat := 2
def regState : Nat := 3
def regBusy : Nat := 4

/-- R349: a reader asks to be registered. -/
def State.registerArrive (s : State) (pk : Packet) : State :=
  let ctx := pk.ctx
  let reply (t : State) (code : Nat) : State := t.ctrl pk.smod ctrlRegistered ctx code 0 pk.addr pk.value
  match s.pageOfFrame ctx pk.addr.toNat with
  | none => reply s regState
  | some (va, e) =>
    let h := s.holdersOf ctx va
    if e.state = stSealed then reply s regSealed
    else if e.state = stLocal ∨ e.state = stDup then
      if !h.waits.isEmpty then reply s regBusy
      else if 63 ≤ h.mods.length ∧ !h.mods.contains pk.smod then reply s regFull
      else
        let mods := if h.mods.contains pk.smod then h.mods else h.mods ++ [pk.smod]
        reply ((s.putHolders { h with mods := mods }).setPageSt e stDup) regOk
    else reply s regState

/-- Change a page command in progress. -/
def State.onOp (s : State) (cmd : Nat) (f : PageOp → PageOp) : State :=
  { s with pages := { s.pages with ops := s.pages.ops.map fun o => if o.cmd = cmd then f o else o } }

/-- R349: the owner's answer at the reader. -/
def State.registeredArrive (s : State) (pk : Packet) : State :=
  match s.opOf pk.value.toNat with
  | none => s
  | some o =>
    if o.op ≠ opDuplicate ∨ o.stage ≠ 0 then s
    else
      match pk.slot with
      | 0 => s.pageDone o stFull
      | 1 => s.onOp o.cmd fun o => { o with stage := 1 }
      | 2 => s.onOp o.cmd fun o => { o with stage := 2 }
      | 4 => s.pageDone o stBusy
      | _ => s.pageDone o stBadState

/-- DUPLICATE_COPY_DONE can happen. -/
def State.duplicateEnabled (s : State) (cmd : Nat) : Bool :=
  match s.opOf cmd with
  | none => false
  | some o => o.op == opDuplicate && o.stage != 0 && !s.awaits (.page cmd) && (s.leafOf o.ctx o.va).isSome

/-- DUPLICATE_COPY_DONE (R349): the replica stands in FRAME. -/
def execDuplicateCopyDone (cmd : BitVec 52) (s : State) : Out :=
  if !s.duplicateEnabled cmd.toNat then .next s
  else
    match s.opOf cmd.toNat with
    | none => .next s
    | some o =>
      match s.leafOf o.ctx o.va with
      | none => .next s
      | some e =>
        let (ready, s1) := s.gather (.page o.cmd) (.virt o.ctx o.va) e.size
        if !ready then .next s1
        else
          let owner := paModule e.pa
          let s2 := s.hbmPut (paLocal o.frame) (s.oldCopy o e)
          let w0 := setBits (setBits e.w0 0 52 o.frame) 60 4 (if o.stage = 2 then stSealed else stDup)
          let s3 := (s2.putW0 e.addr w0).putW1 e.addr (setBits e.w1 32 10 owner)
          let s4 : State := { s3 with pages := { s3.pages with replicas := s3.pages.replicas ++ [⟨o.ctx, o.va, owner, e.pa⟩] } }
          .next ((s4.dropLines (.page o.cmd)).pageDone o stOk)

/-- R342, R349: an invalidation reaches a holder; a copy in progress begins again. -/
def State.invalidateArrive (s : State) (pk : Packet) : State :=
  let ack (t : State) : State := t.ctrl pk.smod ctrlInvalidated pk.ctx 0 0 pk.addr 0
  match s.pages.replicas.find? fun r => r.ctx == pk.ctx && r.owner == pk.smod && r.frame == pk.addr.toNat with
  | some r =>
    match s.leafOf r.ctx r.va with
    | none => ack s
    | some e =>
      let w0 := setBits (setBits e.w0 0 52 r.frame) 60 4 stRemote
      let s1 := ((s.putW0 e.addr w0).putW1 e.addr (setBits e.w1 32 10 0)).dropPage r.ctx r.va e
      let s2 : State := { s1 with pages := { s1.pages with
        replicas := s1.pages.replicas.filter fun x => !(x.ctx == r.ctx && x.va == r.va) } }
      ack (s2.notify r.ctx r.va 5 0)
  | none =>
    match s.pages.ops.find? fun o => o.op == opDuplicate && o.ctx == pk.ctx && bitsOf o.old.toNat 0 52 == pk.addr.toNat with
    | some o =>
      let s1 := ack ((s.onOp o.cmd fun o => { o with stage := 0 }).dropLines (.page o.cmd))
      s1.askOwner o pk.addr.toNat
    | none => ack s

/-- R342, R349: a holder has acknowledged; with the last one the owner's page is LOCAL again, and stores that waited are
answered. -/
def State.invalidatedArrive (s : State) (pk : Packet) : State :=
  match s.pages.holds.find? fun h => (s.leafOf h.ctx h.va).any fun e => e.pa == pk.addr.toNat && h.mods.contains pk.smod with
  | none => s
  | some h =>
    let waits := h.waits.filter fun m => m != pk.smod
    let mods := h.mods.filter fun m => m != pk.smod
    let acks := if waits.isEmpty then h.acks else []
    let h1 : PageHold := { h with mods := mods, waits := waits, acks := if waits.isEmpty then [] else h.acks }
    let s1 := if mods.isEmpty then
        let t : State := { s with pages := { s.pages with holds := s.pages.holds.filter fun x => !(x.ctx == h.ctx && x.va == h.va) } }
        match t.leafOf h.ctx h.va with
        | some e => if e.state = stDup then t.setPageSt e stLocal else t
        | none => t
      else s.putHolders h1
    (acks.foldl (fun (t : State) (k : Packet) => t.post (.route (k.la / 64)) k) s1).settleFires

/-! ## Leases -/

/-- LEND (R350). -/
def execLend (cmd : BitVec 52) (s : State) : Out :=
  pageCommand opLend cmd.toNat s fun c t =>
    match t.leafOf c.ctx c.va with
    | none => .done stBadState t
    | some e =>
      let t1 := (t.setPageSt e stLeasedOut).dropPage c.ctx c.va e
      let l : Lease :=
        { ctx := c.ctx, va := c.va, frame := e.pa, size := e.size, borrower := none, deadline := none, ring := false, passed := false }
      .done stOk { t1 with pages := { t1.pages with leases := t1.pages.leases ++ [l] } }

/-- BORROW (R350): the lender's lease agent is asked. -/
def execBorrow (cmd : BitVec 52) (s : State) : Out :=
  pageCommand opBorrow cmd.toNat s fun c t =>
    match t.leafSlot c.ctx c.va (sizeLevel c.size) with
    | none => .done stBadState t
    | some e => .later ((t.beginOp (c.begun e.w0)).ctrl c.frame ctrlBorrow c.ctx c.size 0 0 (BitVec.ofNat 64 c.addr))

/-- Change the leases. -/
def State.onLeases (s : State) (f : List Lease → List Lease) : State := { s with pages := { s.pages with leases := f s.pages.leases } }

/-- R350: the lender grants a page of the size that is not lent, zeroed; ADDR 0 in the answer means none. -/
def State.borrowArrive (s : State) (pk : Packet) : State :=
  let size := levelSize (sizeLevel (pk.slot % 3))
  match s.pages.leases.find? fun l => l.borrower.isNone && l.deadline.isNone && !l.passed && l.size == size with
  | none => s.ctrl pk.smod ctrlGrant pk.ctx 0 0 0 pk.value
  | some l =>
    let s1 : State := { s with mem := { s.mem with hbm := memZero s.mem.hbm (paLocal l.frame) l.size } }
    let s2 := s1.onLeases fun ls => ls.map fun x =>
      if x = l then { x with borrower := some pk.smod, deadline := none, ring := false } else x
    s2.ctrl pk.smod ctrlGrant pk.ctx 1 0 (BitVec.ofNat 64 l.frame) pk.value

/-- R350: the lender's answer at the borrower. -/
def State.grantArrive (s : State) (pk : Packet) : State :=
  match s.opOf pk.value.toNat with
  | none => s
  | some o =>
    if o.op ≠ opBorrow then s
    else if pk.slot = 0 then s.pageDone o stNoFrame
    else
      match s.entryOf o.ctx o.va with
      | none => s.pageDone o stBadState
      | some e =>
        let w0 := setBits (setBits (setBits e.w0 0 52 pk.addr.toNat) 55 1 0) 60 4 stLeasedIn
        let s1 := s.putW0 e.addr w0
        let s2 : State := { s1 with pages := { s1.pages with borrowed := s1.pages.borrowed ++ [⟨o.ctx, o.va, pk.addr.toNat, none, false⟩] } }
        s2.pageDone o stOk

/-- R342: a lent page is LOCAL again, its frame zeroed. -/
def State.leaseLocal (s : State) (l : Lease) : State :=
  let s1 : State := { s with mem := { s.mem with hbm := memZero s.mem.hbm (paLocal l.frame) l.size } }
  match s1.leafOf l.ctx l.va with
  | some e => if e.state = stLeasedOut then s1.setPageSt e stLocal else s1
  | none => s1

/-- R262: the notice in ms. -/
def Context.notice (c : Context) : Nat := if c.root.revms = 0 then 5 else c.root.revms

/-- REVOKE (R350). -/
def execRevoke (cmd : BitVec 52) (s : State) : Out :=
  pageCommand opRevoke cmd.toNat s fun c t =>
    match t.pages.leases.find? (fun l => l.ctx == c.ctx && l.va == c.va && !l.passed), t.ctx c.ctx with
    | some l, some k =>
      match l.borrower with
      | none => .done stOk ((t.leaseLocal l).onLeases fun ls => ls.filter fun x => x != l)
      | some b =>
        let n := if c.force then 0 else k.notice
        let dl := t.time.now + n * 1000000
        let t1 := t.onLeases fun ls => ls.map fun x => if x = l then { x with deadline := some dl } else x
        .done stOk (t1.ctrl b ctrlRevoke c.ctx n 0 (BitVec.ofNat 64 l.frame) (BitVec.ofNat 64 dl))
    | _, _ => .done stBadState t

/-- R350: the lender's REVOKE at the borrower. -/
def State.revokeArrive (s : State) (pk : Packet) : State :=
  match s.pages.borrowed.find? fun b => b.frame == pk.addr.toNat with
  | none => s
  | some b =>
    let s1 : State := { s with pages := { s.pages with borrowed := s.pages.borrowed.map fun x =>
      if x = b then { x with deadline := some pk.value.toNat } else x } }
    let s2 := match s1.leafOf b.ctx b.va with
      | some e => if e.state = stLeasedIn then s1.setPageSt e stRevoking else s1
      | none => s1
    s2.notify b.ctx b.va 3 (1000 * pk.slot)

/-- R347, R350: a frame comes back: the page is LEASED-OUT and not lent, until a deadline that a REVOKE has set. -/
def State.returnArrive (s : State) (pk : Packet) : State :=
  s.onLeases fun ls => (ls.filter fun l => !(l.passed && l.frame == pk.addr.toNat && l.borrower == some pk.smod)).map fun l =>
    if l.frame == pk.addr.toNat && l.borrower == some pk.smod then { l with borrower := none, ring := false } else l

/-- LEASE_DEADLINE (R252, R350): at the lender the page is LOCAL again with its frame zeroed, at the borrower REVOKED is posted.
The lease stays on record until the frame returns, since later accesses of the borrower are dropped. Log entry 53. -/
def execLeaseDeadline (ctx : BitVec 8) (va : BitVec 64) (s : State) : Out :=
  let past (d : Option Nat) : Bool := d.any fun t => decide (t ≤ s.time.now)
  let s1 := match s.pages.leases.find? fun l => l.ctx == ctx.toNat && l.va == va.toNat && !l.passed && past l.deadline with
    | none => s
    | some l =>
      ((s.leaseLocal l).onLeases fun ls => (ls.filter fun x => !(x = l && x.borrower.isNone)).map fun x =>
        if x = l then { x with passed := true } else x).chargeHbm l.ctx
  .next (match s1.pages.borrowed.find? fun b => b.ctx == ctx.toNat && b.va == va.toNat && past b.deadline with
    | none => s1
    | some b =>
      let s2 : State := { s1 with pages := { s1.pages with borrowed := s1.pages.borrowed.map fun x =>
        if x = b then { x with deadline := none, lost := true } else x } }
      s2.notify b.ctx b.va 4 0)

/-- R351: a borrower's trace ring lies in a lent frame. Log entry 53. -/
def State.ringArrive (s : State) (pk : Packet) : State :=
  s.onLeases fun ls => ls.map fun l =>
    if l.borrower == some pk.smod && decide (l.frame ≤ pk.addr.toNat) && decide (pk.addr.toNat < l.frame + l.size) then
      { l with ring := true }
    else l

end Sys2Proof.Machine
end

