-- ==== Sys2Proof/Machine/Link.lean ====
section
/-! DEFINITION. The link (21_link): port states, flits and datagrams, queue pairs and their commands, CTRL packets with the barrier
messages of other modules (20_barrier R314 to R318), and pod time (R334, R335). -/

namespace Sys2Proof.Machine

/-! ## Port states -/

/-- R321, R331: the codes of a port's state. -/
def PortSt.code : PortSt → Nat
  | .down => 0
  | .training => 1
  | .up => 2
  | .degraded => 3
  | .fenced => 4

/-- R321: what remains in the replay store is discarded and counted. -/
def Port.discard (p : Port) : Port :=
  { p with replay := [], discarded := satAdd32 p.discarded p.replay.length, fencing := none, tries := 0 }

/-- The events of a port's new state (R370). -/
def State.portEvent (s : State) (n : Nat) (st : PortSt) : State := s.event 6 0xFF st.code n

/-- R321: entries to TRAINING within 1 s; a second spent in UP or DEGRADED starts the count anew. Log entry 54. -/
def Port.entries (p : Port) (now : Nat) : List Nat :=
  (if p.usable ∧ p.since + 1000000000 ≤ now then [] else p.trainTimes.filter fun t => decide (now < t + 1000000000)) ++ [now]

/-- R321: a port enters TRAINING, and with the third entry it is FENCED. Log entries 31 and 54. -/
def Port.train (p : Port) (now : Nat) : Port :=
  let ts := p.entries now
  let q : Port := { p with st := .training, lanes := 0, since := now, trainings := satAdd32 p.trainings 1, trainTimes := ts, fencing := none, tries := 0 }
  if 3 ≤ ts.length then { q.discard with st := .fenced, trainTimes := [] } else q

/-- R324, R325: after a change of a port or a route, accesses whose line has moved hold back later ones, and what waits is sent. -/
def State.rerouted (s0 s : State) : State := (s0.noteRoutes s).goOn

/-- A port enters TRAINING; the host learns that it is FENCED. -/
def State.trainPort (s : State) (n : Nat) : State :=
  match s.port n with
  | none => s
  | some p =>
    let q := p.train s.time.now
    let s1 := s.rerouted (s.onPort n fun _ => q)
    if q.st = .fenced then s1.portEvent n .fenced else s1

/-- R324: the flits from the first missing one on are sent again; the oldest is so replayed. -/
def Port.again (p : Port) (n : Nat) : Port :=
  match p.replay.findIdx? fun f => f.1 == n with
  | none => p
  | some i => { p with replayed := satAdd32 p.replayed (p.replay.length - i), tries := if i = 0 then p.tries + 1 else p.tries }

/-- R324: the far end asks for a replay; R321: the eighth of one flit without an acknowledgement sends the port to TRAINING. -/
def State.replayPort (s : State) (port n : Nat) : State :=
  let s1 := s.onPort port (·.again n)
  if (s1.port port).any fun p => p.usable && decide (8 ≤ p.tries) then s1.trainPort port else s1

/-- PORT_TRAINED (R321): 8 lanes, or only 4 or 2; replay resumes. -/
def execPortTrained (port lanes : Nat) (s : State) : Out :=
  match s.port port with
  | none => .next s
  | some p =>
    if p.st = .training ∧ [2, 4, 8].contains lanes then
      let st : PortSt := if lanes = 8 then .up else .degraded
      let s1 := s.rerouted (s.onPort port fun p =>
        { p with
          st := st, lanes := lanes, since := s.time.now, replayed := satAdd32 p.replayed p.replay.length
          tries := if p.replay.isEmpty then 0 else 1 })
      .next (if st = .degraded then s1.portEvent port st else s1)
    else .next s

/-- R321: no width trains within 10 ms. -/
def Port.trainingLate (p : Port) (now : Nat) : Bool := p.st == .training && decide (p.since + 10000000 ≤ now)

/-- TRAINING_TIMEOUT (R321). -/
def execTrainingTimeout (port : Nat) (s : State) : Out :=
  match s.port port with
  | none => .next s
  | some p =>
    if p.trainingLate s.time.now then
      .next ((s.onPort port fun p => { p with st := .down, since := s.time.now }).portEvent port .down)
    else .next s

/-- R321: training is retried every 100 ms. -/
def Port.retryDue (p : Port) (now : Nat) : Bool := p.st == .down && decide (p.since + 100000000 ≤ now)

/-- TRAINING_RETRY (R321). -/
def execTrainingRetry (port : Nat) (s : State) : Out :=
  match s.port port with
  | none => .next s
  | some p => .next (if p.retryDue s.time.now then s.trainPort port else s)

/-- LANE_FAILURE (R321). -/
def execLaneFailure (port : Nat) (s : State) : Out :=
  match s.port port with
  | none => .next s
  | some p => .next (if p.usable then s.trainPort port else s)

/-- R321: 1 ms after a PORTFENCE. -/
def Port.drainLate (p : Port) (now : Nat) : Bool := p.st == .fenced && p.fencing.any fun t => decide (t + 1000000 ≤ now)

/-- FENCE_DRAIN_TIMEOUT (R321). -/
def execFenceDrainTimeout (port : Nat) (s : State) : Out :=
  .next (s.onPort port fun p => if p.drainLate s.time.now then p.discard else p)

/-! ## Pod time -/

/-- R335: the counter takes a step or starts a slew toward `t`; `step` where a step forward is allowed. Log entry 54. -/
def State.discipline (s : State) (t : Nat) (step : Bool) : State :=
  let d : Int := (t : Int) - s.time.now
  let s1 : State := { s with time := { s.time with synced := true, lastSync := max s.time.now t, holdover := false } }
  if step && decide (0 < d) then { s1 with time := { s1.time with now := t, slew := 0, frac := 0 } }
  else
    let s2 : State := { s1 with time := { s1.time with slew := d, lastSync := s.time.now } }
    if 25 < d.natAbs ∧ !s.time.alert then
      ({ s2 with time := { s2.time with alert := true } }).event 6 0xFF evSlewStart d.natAbs
    else s2

/-- R335: no context is READY. -/
def State.noneReady (s : State) : Bool := s.ctxs.all fun c => c.2.st != .ready

/-- R334: the DMOD of a TIME packet, which names no module (log entry 31). -/
def anyModule : Nat := 0x3FF

/-- R334: send the time on every Virip port that can carry it. -/
def State.sendTime (s : State) (root t : Nat) : State :=
  (s.links.ports.filter fun p => decide (p.num < 24) && p.usable).foldl (fun u p =>
    (u.sendOn p.num { mkPacket 10 0 anyModule root with value := BitVec.ofNat 64 t }).getD u) s

/-- TIME (R334, R335): a follower disciplines its counter; a newer time is passed on once. -/
def State.timeArrive (s : State) (pk : Packet) : State :=
  let t := pk.value.toNat
  if s.time.role = 2 ∨ pk.smod = s.boot.modnum then s
  else
    let s1 := s.discipline t (!s.time.synced || (s.noneReady && !s.time.holdover))
    if s1.time.relayed < t then { s1 with time := { s1.time with relayed := t } }.sendTime pk.smod t else s1

/-- TIME (R335). -/
def execTime (hdr : BitVec 512) (payload : List Byte) (s : State) : Out :=
  match packetOf hdr payload with
  | none => .next s.countBad
  | some pk => .next (if pk.kind = 10 then s.timeArrive pk else s)

/-- R334: the root sends every 125 µs. -/
def State.timeSendDue (s : State) : Bool := s.time.role == 1 && decide (s.time.sent + 125000 ≤ s.time.now)

/-- TIME_PACKET_SEND (R334). -/
def execTimePacketSend (s : State) : Out :=
  if s.timeSendDue then .next ({ s with time := { s.time with sent := s.time.now } }.sendTime s.boot.modnum s.time.now) else .next s

/-- R335: no sync has arrived for 1 s. -/
def State.holdoverDue (s : State) : Bool :=
  s.time.role != 2 && !s.time.holdover && decide (s.time.lastSync + 1000000000 ≤ s.time.now)

/-- HOLDOVER_ENTRY (R335). -/
def execHoldoverEntry (s : State) : Out :=
  if s.holdoverDue then .next ({ s with time := { s.time with holdover := true } }.event 6 0xFF evHoldover 0) else .next s

/-- R335: a slew that the host knows of has come to its end. -/
def State.slewEnded (s : State) : Bool := s.time.alert && s.time.slew == 0

/-- SLEW_END (R335). -/
def execSlewEnd (s : State) : Out :=
  if s.slewEnded then .next ({ s with time := { s.time with alert := false } }.event 6 0xFF evSlewEnd 0) else .next s

/-- POD_TIME_REACHED (R229): C goes on at a TIMEALIGN that it stalls at, once its time has come. -/
def execPodTimeReached (s : State) : Out :=
  let x := s.eng .c
  let w := match x.latch with
    | some (w, _) => w.toNat
    | none => s.me.store.word x.cur
  if x.waiting.isSome ∧ x.pc = .seq ∧ w / 2 ^ 29 = 0 ∧ fld w 22 7 = 0x7F ∧ fld w 0 5 = 7 ∧ fld w 5 5 = 0 ∧ fld w 15 5 = 0 then
    execTimealign (bvf w 20 2) (bvf w 10 5) { s with turn := .engine .c }
  else .next s

/-! ## Queue pairs -/

/-- R331: the code of a queue pair's state. -/
def QpSt.code : QpSt → Nat
  | .closed => 0
  | .connecting => 1
  | .connected => 2
  | .closing => 3

/-- R329: the connect of a CONNECTING pair; FIRING carries the own context. -/
def State.sendConnect (s : State) (q : QPair) : State :=
  (s.sendQp q.num { mkPacket 9 0 0 0 with sub := ctrlConnect, slot := q.num, firing := q.ctx }).onQp q.num fun q =>
    { q with lastConnect := s.time.now }

/-- R329: 1 ms has passed since the last connect. -/
def QPair.connectDue (q : QPair) (now : Nat) : Bool := q.st == .connecting && decide (q.lastConnect + 1000000 ≤ now)

/-- QP_CONNECT_RETRY (R329). -/
def execQpConnectRetry (qp : BitVec 12) (s : State) : Out :=
  match s.qp qp.toNat with
  | none => .next s
  | some q => .next (if q.connectDue s.time.now then s.sendConnect q else s)

/-- R329: a handshake matches a pair: the far end names it, and its own names are the pair's far end. -/
def QPair.matches (q : QPair) (pk : Packet) : Bool :=
  q.rqp == pk.slot && q.rctx == pk.firing && q.ctx == pk.ctx && (q.eth || q.rmod == pk.smod)

/-- R329: CONNECTED. -/
def State.connectQp (s : State) (n : Nat) : State := s.onQp n fun q => { q with st := .connected, losses := 0 }

/-- R329: a connect arrives; the answer brings the other end to CONNECTED as well. -/
def State.connectArrive (s : State) (pk : Packet) : State :=
  match s.qp pk.qp with
  | none => s
  | some q =>
    if q.matches pk then
      let accept (t : State) : State :=
        t.sendQp q.num { mkPacket 9 0 0 0 with sub := ctrlAccept, slot := q.num, firing := q.ctx }
      match q.st with
      | .connecting => accept (s.connectQp q.num)
      | .connected => accept s
      | _ => s
    else s

/-- R329: the answer to a connect. -/
def State.acceptArrive (s : State) (pk : Packet) : State :=
  match s.qp pk.qp with
  | none => s
  | some q => if q.st = .connecting ∧ q.matches pk then s.connectQp q.num else s

/-- R329: a close from the peer. -/
def State.closeArrive (s : State) (pk : Packet) : State :=
  s.onQp pk.qp fun q => if q.st = .connected then { q with st := .closing } else q

/-- R329: QPCLOSE, or the context draining, by the state of the pair. -/
def State.closeQp (s : State) (q : QPair) : State :=
  match q.st with
  | .connecting => s.onQp q.num fun q => { q with st := .closed }
  | .connected => (s.sendQp q.num { mkPacket 9 0 0 0 with sub := ctrlClose, slot := q.num }).onQp q.num fun q => { q with st := .closing }
  | _ => s

/-- R329, R330: a firing of a pair is in progress at this end, as source or as target. -/
def State.qpBusy (s : State) (q : QPair) : Bool :=
  !q.recs.isEmpty || (s.ctx q.ctx).any fun c => c.slots.any fun p =>
    p.2.firing.any (fun f => f.qp == q.num) || p.2.unacked.any fun f => f.qp == q.num

/-- QP_CLOSED can happen. -/
def State.qpCloseEnabled (s : State) (n : Nat) : Bool :=
  match s.qp n with
  | none => false
  | some q => q.st == .closing && !s.qpBusy q

/-- QP_CLOSED (R329). Log entry 54. -/
def execQpClosed (qp : BitVec 12) (s : State) : Out :=
  if s.qpCloseEnabled qp.toNat then .next (s.onQp qp.toNat fun q => { q with st := .closed, store := [] }) else .next s

/-! ## CTRL -/

/-- R314: a join from another module of the domain, by its number there; it is told the episode. -/
def State.joinArrive (s : State) (pk : Packet) : State :=
  match s.bar pk.ctx pk.slot with
  | none => s
  | some b =>
    if b.broken ∨ b.home ≠ s.boot.modnum then s
    else
      let r := b.join 0 b.pcount (pk.value.setWidth 40)
      ((s.onBar pk.ctx pk.slot fun _ => r.1).ctrl pk.smod ctrlJoined pk.ctx pk.slot pk.firing 0 (BitVec.ofNat 64 r.2)).barEval
        pk.ctx pk.slot

/-- R314: the home tells which episode a join counts in; this module then keeps it open and counts its own joins (R320).
Log entry 43. -/
def State.joinedArrive (s : State) (pk : Packet) : State :=
  let n := pk.value.toNat
  (s.onJoin pk.firing fun j => { j with ep := some n }).onBar pk.ctx pk.slot fun b =>
    let l := if b.episodes.any fun x => x.num == n then
        b.episodes.map fun x => if x.num = n then { x with joins := x.joins + 1 } else x
      else
        b.episodes ++ [{ num := n, cluster := 0, goal := b.pcount, joins := 1, counter := 0, stamps := [], tick := none }]
    { b with episodes := l, opened := max b.opened (n + 1), unanswered := b.unanswered - 1 }

/-- R315: bytes that arrived at another module. -/
def State.arrivalArrive (s : State) (pk : Packet) : State :=
  match s.bar pk.ctx pk.slot with
  | none => s
  | some b => if b.home = s.boot.modnum then s.barArrive pk.ctx pk.slot 0 b.pcount pk.value.toNat else s

/-- R318: a barrier is broken elsewhere. -/
def State.brokenArrive (s : State) (ctx bar : Nat) : State :=
  match s.bar ctx bar with
  | none => s
  | some b => if b.broken then s else (s.tellBroken ctx bar b).breakBar ctx bar

/-- Open the episodes up to a number. -/
def Barrier.openTo (b : Barrier) (n : Nat) : Barrier :=
  let new := (List.range (n + 1)).filter fun k => decide (b.opened ≤ k)
  { b with
    episodes := b.episodes ++ new.map fun k =>
      ({ num := k, cluster := 0, goal := b.pcount, joins := 0, counter := 0, stamps := [], tick := none } : Episode)
    opened := max b.opened (n + 1) }

/-- R317: a stamp of another home, whose place in PEERS names its domain. -/
def State.stampArrive (s : State) (pk : Packet) : State :=
  match s.qp pk.qp with
  | none => s
  | some q =>
    match s.bar q.ctx pk.slot with
    | none => s
    | some b =>
      match (s.peers b).findIdx? fun n => n == pk.qp with
      | none => s
      | some d =>
        if b.broken then s
        else
          (s.onBar q.ctx pk.slot fun b =>
            let c := b.openTo pk.firing
            { c with episodes := c.episodes.map fun x =>
              if x.num = pk.firing ∧ !x.stamps.any (fun p => p.1 == d) then { x with stamps := x.stamps ++ [(d, pk.value.toNat)] }
              else x }).barEval q.ctx pk.slot

/-- CTRL (R323; log entry 26). -/
def State.ctrlArrive (s : State) (pk : Packet) : State :=
  match pk.sub.toNat with
  | 1 => s.connectArrive pk
  | 2 => s.acceptArrive pk
  | 3 => s.closeArrive pk
  | 4 => s.invalidateArrive pk
  | 5 => s.invalidatedArrive pk
  | 6 => s.stampArrive pk
  | 8 => s.joinArrive pk
  | 9 => s.joinedArrive pk
  | 10 => s.arrivalArrive pk
  | 11 => s.localRelease pk.ctx pk.slot pk.firing
  | 12 => s.brokenArrive pk.ctx pk.slot
  | 13 => s.borrowArrive pk
  | 14 => s.grantArrive pk
  | 15 => s.revokeArrive pk
  | 16 => s.returnArrive pk
  | 17 => s.registerArrive pk
  | 18 => s.registeredArrive pk
  | 19 => s.ringArrive pk
  | 20 => s.invalidatingArrive pk
  | 21 => s.allGoneArrive pk
  | 22 => s.sealArrive pk
  | 23 => s.settledArrive pk
  | 24 => s.askArrive pk
  | 25 => s.grantedArrive pk
  | 26 => s.letGoArrive pk
  | 27 => s.thawArrive pk
  | 28 => s.goneArrive pk
  | _ => s

/-- CTRL (R323). -/
def execCtrl (hdr : BitVec 512) (payload : List Byte) (s : State) : Out := onPacket 9 hdr payload s (·.ctrlArrive)

/-! ## Flits -/

/-- A whole packet of this module, by its kind. -/
def State.receive (s : State) (pk : Packet) : State :=
  match pk.kind with
  | 1 => s.rdreqArrive pk
  | 2 => s.rdrspArrive pk
  | 3 => s.wrreqArrive pk
  | 4 => s.atreqArrive pk
  | 5 => s.atrspArrive pk
  | 6 => s.wrackArrive pk
  | 7 => s.fireArrive pk
  | 8 => s.fackArrive pk
  | 9 => s.ctrlArrive pk
  | 10 => s.timeArrive pk
  | _ => s

/-- R323, R325: a packet that a port has received whole: malformed ones are discarded and counted, those of others relayed. -/
def State.received (s : State) (port : Nat) (hdr : BitVec 512) (payload : List Byte) : State :=
  match packetOf hdr payload with
  | none => s.onPort port fun p => { p with packetsBad := satAdd32 p.packetsBad 1 }
  | some pk =>
    if pk.kind = 10 ∨ pk.dmod = s.boot.modnum then s.receive pk else s.relay pk

/-- R324: what a cumulative acknowledgement, of the last flit received in order, leaves in the replay store. -/
def ackFlits (ack : Nat) (l : List (Nat × BitVec 512)) : List (Nat × BitVec 512) :=
  match l.findIdx? fun f => f.1 == ack with
  | none => l
  | some i => l.drop (i + 1)

/-- R321: a fenced port has drained. -/
def Port.acked (p : Port) (ack : Nat) : Port :=
  let r := ackFlits ack p.replay
  { p with replay := r, fencing := if r.isEmpty then none else p.fencing, tries := if r.length < p.replay.length then 0 else p.tries }

/-- R322: the flits of the packet that a header flit opens; a count that no packet has stands for the header alone. -/
def packetFlits (l : List (BitVec 512)) : Nat :=
  match l with
  | [] => 1
  | h :: _ => let n := recField (flitBytes h) 1 1; if n ≤ 4 then n + 1 else 1

/-- R324: a flit in sequence joins those before it; the last of a packet delivers it. -/
def State.takeFlit (s : State) (p : Port) (flit : BitVec 512) : State :=
  let l := p.partialFlits ++ [flit]
  let next (rest : List (BitVec 512)) : State :=
    s.onPort p.num fun q => { q with rxSeq := (q.rxSeq + 1) % 4096, partialFlits := rest, asking := false }
  if l.length < packetFlits l then next l
  else (next []).received p.num (l.headD 0) (l.tail.flatMap flitBytes)

/-- R324: a flit that comes behind a missing one, and no duplicate. -/
def Port.behindGap (p : Port) (seq : Nat) : Bool :=
  let d := (seq + 4096 - p.rxSeq) % 4096
  decide (1 ≤ d) && decide (d < 2048)

/-- R324: what the lane coding carries for the reverse direction: the cumulative acknowledgement, and the first flit that the far end
asks for again. -/
def State.reverse (s : State) (port : Nat) (ack : BitVec 12) (again : Option (BitVec 12)) : State :=
  let s1 := s.onPort port (·.acked ack.toNat)
  (match again with
    | none => s1
    | some n => s1.replayPort port n.toNat).goOn

/-- FLIT_RECEIVE (R324): `crc` says that the CRC is good, `ack` is what the flit carries for the reverse direction. Behind a
bad flit, or one that comes after a gap, this end asks for a replay from the first missing number, until that flit comes; a duplicate is
discarded. -/
def execFlitReceive (port : Nat) (seq : BitVec 12) (crc : Bool) (ack : FlitAck) (flit : BitVec 512) (s : State) : Out :=
  match s.port port with
  | none => .next s
  | some p =>
    if !(p.usable || p.fencing.isSome) then .next s
    else if !crc then .next (s.onPort port fun q => { q with asking := q.usable })
    else
      let s1 := s.reverse port ack.upTo ack.again
      match s1.port port with
      | none => .next s1
      | some q =>
        if !p.usable then .next s1
        else if seq.toNat = p.rxSeq then .next (s1.takeFlit q flit)
        else .next (s1.onPort port fun q => { q with asking := q.asking || p.behindGap seq.toNat })

/-! ## Ethernet -/

/-- R332: a transport header. -/
structure Transport where
  ackOnly : Bool
  nak : Bool
  dqp : Nat
  sqp : Nat
  psn : Nat
  apsn : Nat
  ok : Bool
  deriving DecidableEq, Repr

def transportOf (t : BitVec 256) : Transport :=
  let b := leBytes 32 t.toNat
  let f := recField b
  { ackOnly := bitsOf (f 1 1) 0 1 == 1, nak := bitsOf (f 1 1) 1 1 == 1, dqp := f 4 2, sqp := f 6 2, psn := f 8 4, apsn := f 12 4
    ok := f 0 1 == 1 && f 1 1 / 4 == 0 && recZero b 16 16 }

/-- R333: what a cumulative acknowledgement leaves in the store. -/
def QPair.ackedTo (q : QPair) (apsn now : Nat) : QPair :=
  match q.store.findIdx? fun x => x.1 == apsn with
  | none => q
  | some i => { q with store := q.store.drop (i + 1), resends := 0, resentAt := now }

/-- R317: a stamp is resent until it is acknowledged. -/
def Packet.isStamp (p : Packet) : Bool := p.kind == 9 && p.sub == ctrlStamp

/-- R333: go back N, up to 7 times; then the packets are discarded. -/
def QPair.goBack (q : QPair) (now : Nat) : QPair :=
  if q.resends < 7 then { q with resends := q.resends + 1, resentAt := now }
  else { q with store := q.store.filter (fun x => x.2.2.isStamp), resends := 0, resentAt := now }

/-- R333: 30 µs have passed without acknowledgement. -/
def QPair.resendDue (q : QPair) (now : Nat) : Bool := !q.store.isEmpty && decide (q.resentAt + 30000 ≤ now)

/-- ETH_RESEND_TIMEOUT (R333). -/
def execEthResendTimeout (qp : BitVec 12) (s : State) : Out :=
  .next (s.onQp qp.toNat fun q => if q.resendDue s.time.now then q.goBack s.time.now else q)

/-- R332: whether a pair takes a datagram: CONNECTED, CLOSING while its firings finish, or CONNECTING for the handshake.
Log entry 54. -/
def QPair.takes (q : QPair) (ackOnly : Bool) (kind : Nat) : Bool :=
  match q.st with
  | .connected => true
  | .closing => true
  | .connecting => ackOnly || kind == 9
  | .closed => false

/-- R249: the kinds that cross Ethernet. -/
def ethKind (kind : Nat) : Bool := decide (7 ≤ kind) && decide (kind ≤ 10)

/-- DATAGRAM_RECEIVE (R332, R333). -/
def execDatagramReceive (port : Nat) (transport : BitVec 256) (hdr : BitVec 512) (payload : List Byte) (s : State) : Out :=
  let t := transportOf transport
  let bad : State := s.onPort port fun p => { p with packetsBad := satAdd32 p.packetsBad 1 }
  if port < 32 ∨ !(s.port port).any (·.usable) then .next s
  else
    let kind := recField (flitBytes hdr) 0 1
    match s.qp t.dqp with
    | none => .next bad
    | some q =>
      if !t.ok || !q.eth || q.rqp != t.sqp || !q.takes t.ackOnly kind || !(t.ackOnly || ethKind kind) then .next bad
      else
        let s1 := (s.onQp q.num fun q =>
          let q1 := q.ackedTo t.apsn s.time.now
          if t.nak then q1.goBack s.time.now else q1).goOn
        if t.ackOnly ∨ t.psn ≠ q.rxPsn then .next s1
        else
          let s2 := s1.onQp q.num fun q => { q with rxPsn := (q.rxPsn + 1) % 2 ^ 32 }
          .next (match packetOf hdr payload with
            | none => s2.onPort port fun p => { p with packetsBad := satAdd32 p.packetsBad 1 }
            | some pk => s2.receive pk)

/-! ## Link commands -/

/-- R328: the fields of a link command. -/
structure LCmd where
  op : Nat
  ctx : Nat
  port : Nat
  qp : Nat
  rqp : Nat
  rmod : Nat
  xport : Nat
  rctx : Nat
  dscp : Nat
  trole : Nat
  udpp : Nat
  ip : Nat
  mask : Nat
  addr : Nat
  rest : Bool
  deriving DecidableEq, Repr

def linkCmd (r : List Byte) : LCmd :=
  let f := recField r
  { op := f 0 1, ctx := f 2 1, port := f 3 1, qp := f 4 2, rqp := f 6 2, rmod := f 8 2, xport := f 10 1, rctx := f 11 1
    dscp := f 12 1, trole := f 13 1, udpp := f 14 2, ip := f 16 16, mask := f 32 4, addr := f 40 8
    rest := recZero r 36 4 && recZero r 48 16 }

/-- R328: the fields that an OP does not use are zero, and those that it uses fit their bits. -/
def LCmd.ok (c : LCmd) : Bool :=
  let opens := c.op == 1
  let onPort := opens || c.op == 4 || c.op == 5 || c.op == 7
  let onQp := decide (c.op ≤ 3)
  let eth := opens && c.xport == 1
  c.rest && (opens || (c.ctx == 0 && c.rqp == 0 && c.rmod == 0 && c.xport == 0 && c.rctx == 0)) && (onPort || c.port == 0) &&
    (onQp || c.op == 6 || c.qp == 0) && (!onQp || decide (c.qp < 2 ^ 12)) && (c.op != 6 || decide (c.qp < 640)) &&
    decide (c.rqp < 2 ^ 12) && decide (c.rmod < 2 ^ 10) && decide (c.xport ≤ 1) && (!eth || c.rmod == 0) &&
    (eth || (c.dscp == 0 && c.udpp == 0 && c.ip == 0)) && decide (c.dscp < 2 ^ 6) && decide (c.trole ≤ 2) &&
    (c.op == 8 || c.trole == 0) && (c.op == 6 || c.mask == 0) && decide (c.mask < 2 ^ 24) &&
    (c.op == 3 || c.op == 7 || c.addr == 0) && (!onPort || portNamed c.port) && (opens || c.port != 0xFF)

/-- R328: a port that CAPS0 reports absent. -/
def State.portAbsent (s : State) (c : LCmd) : Bool := c.port != 0xFF && (s.port c.port).isNone

/-- A link command: R328. Log entry 54. -/
def linkCommand (op cmd : Nat) (s : State) (act : LCmd → State → CmdEnd) : Out :=
  command .link (· == op) cmd s (op == 1) fun r t =>
    let c := linkCmd r
    if !c.ok then .done stBadCmd t else act c t

/-- R329: a queue pair as QPOPEN makes it. -/
def LCmd.pair (c : LCmd) : QPair :=
  { num := c.qp, st := .connecting, ctx := c.ctx, port := c.port, rqp := c.rqp, rmod := c.rmod, eth := c.xport == 1, rctx := c.rctx
    dscp := c.dscp, udpp := if c.udpp = 0 then 46170 else c.udpp, ip := BitVec.ofNat 128 c.ip, losses := 0, applied := 0
    completed := 0, recs := [], psn := 0, rxPsn := 0, store := [], resends := 0, resentAt := 0, lastConnect := 0 }

/-- QPOPEN (R328, R329). -/
def execQpopen (cmd : BitVec 52) (s : State) : Out :=
  linkCommand 1 cmd.toNat s fun c t =>
    if !(t.ctx c.ctx).any (·.ready) then .done stNoCtx t
    else if (c.xport = 1 ∧ t.part.ethernet = []) ∨ t.portAbsent c then .done stNoQueue t
    else if (t.qp c.qp).any fun q => q.st != .closed then .done stBusy t
    else
      let q := c.pair
      let t1 : State := { t with links := { t.links with qps := t.links.qps.filter (fun x => x.num != c.qp) ++ [q] } }
      .done stOk (t1.sendConnect q)

/-- QPCLOSE (R329). -/
def execQpclose (cmd : BitVec 52) (s : State) : Out :=
  linkCommand 2 cmd.toNat s fun c t =>
    .done stOk (match t.qp c.qp with
      | none => t
      | some q => t.closeQp q)

/-- QPREAD (R331): 64 bytes. -/
def execQpread (cmd : BitVec 52) (s : State) : Out :=
  linkCommand 3 cmd.toNat s fun c t =>
    let bs := match t.qp c.qp with
      | none => leBytes 64 0
      | some q => leBytes 4 q.st.code ++ leBytes 4 q.losses.toNat ++ leBytes 8 q.applied.toNat ++ leBytes 8 q.completed.toNat ++ leBytes 40 0
    t.reportAt cmd.toNat 0 c.addr bs

/-- PORTFENCE (R321). -/
def execPortfence (cmd : BitVec 52) (s : State) : Out :=
  linkCommand 4 cmd.toNat s fun c t =>
    if t.portAbsent c then .done stNoQueue t
    else
      .done stOk (t.rerouted (t.onPort c.port fun p =>
        if p.usable then
          { p with st := .fenced, lanes := 0, since := t.time.now, fencing := if p.replay.isEmpty then none else some t.time.now }
        else p))

/-- PORTUNFENCE (R321). -/
def execPortunfence (cmd : BitVec 52) (s : State) : Out :=
  linkCommand 5 cmd.toNat s fun c t =>
    if t.portAbsent c then .done stNoQueue t
    else .done stOk (if (t.port c.port).any fun p => p.st == .fenced || p.st == .down then t.trainPort c.port else t)

/-- ROUTE (R325): an entry of the route table; what waited for its line may go (R325). -/
def execRoute (cmd : BitVec 52) (s : State) : Out :=
  linkCommand 6 cmd.toNat s fun c t =>
    .done stOk (t.rerouted { t with links := { t.links with routes := assocSet t.links.routes c.qp (BitVec.ofNat 24 c.mask) } })

/-- PORTREAD (R331): 64 bytes. -/
def execPortread (cmd : BitVec 52) (s : State) : Out :=
  linkCommand 7 cmd.toNat s fun c t =>
    match t.port c.port with
    | none => .done stNoQueue t
    | some p =>
      t.reportAt cmd.toNat 0 c.addr
        (leBytes 1 p.st.code ++ leBytes 1 p.lanes ++ leBytes 2 0 ++ leBytes 4 p.replayed.toNat ++ leBytes 4 p.discarded.toNat ++
         leBytes 4 p.packetsBad.toNat ++ leBytes 4 p.trainings.toNat ++ leBytes 4 t.links.fwdLoss.toNat ++ leBytes 40 0)

/-- TIMECFG (R334, R380): a part without Ethernet can only follow. -/
def execTimecfg (cmd : BitVec 52) (s : State) : Out :=
  linkCommand 8 cmd.toNat s fun c t =>
    if c.trole ≠ 0 ∧ t.part.ethernet = [] then .done stNoQueue t
    else .done stOk { t with time := { t.time with role := c.trole } }

end Sys2Proof.Machine
end

