-- ==== Sys2Proof/Machine/Barriers.lean ====
section
/-! DEFINITION. Barrier commands and the release of pod barriers (20_barrier R312, R313, R316, R317, R320). -/

namespace Sys2Proof.Machine

/-- R312: the fields of a barrier command. -/
structure BCmd where
  op : Nat
  ctx : Nat
  scope : Nat
  bar : Nat
  pcount : Nat
  home : Nat
  ndom : Nat
  wbase : BitVec 64
  wlen : Nat
  peers : Nat
  xmargin : Nat
  addr : Nat
  reserved : Bool
  deriving DecidableEq, Repr

def barCmd (r : List Byte) : BCmd :=
  let f := recField r
  { op := f 0 1, ctx := f 2 1, scope := f 3 1, bar := f 4 2, pcount := f 8 4, home := f 12 2, ndom := f 14 1
    wbase := BitVec.ofNat 64 (f 16 8), wlen := f 24 8, peers := f 32 8, xmargin := f 40 4, addr := f 48 8
    reserved := !(f 6 2 == 0 && f 15 1 == 0 && f 44 4 == 0 && recZero r 56 8) }

/-- R312, R313: what every command must hold: reserved fields zero, ADDR for READ only. -/
def BCmd.plain (c : BCmd) : Bool :=
  !c.reserved && decide (c.bar < 2 ^ 12) && decide (c.home < 2 ^ 10) && (c.op == 4 || c.addr == 0)

/-- R312: the watch range. -/
def BCmd.watchOk (c : BCmd) : Bool :=
  let w := eaOf c.wbase
  if c.wbase = 0 then c.wlen == 0
  else (w.space == .virt || (w.space == .acc && w.group.isSome)) && !eaReserved c.wbase

/-- R312, R313: the scope and the fields that fit it. -/
def BCmd.configOk (c : BCmd) (modnum : Nat) : Bool :=
  decide (1 ≤ c.scope) && decide (c.scope ≤ 4) && (if c.scope = 1 then c.pcount == 0 else c.pcount != 0) &&
    (if c.scope = 4 then decide (1 ≤ c.ndom) && decide (c.ndom ≤ 16) else c.ndom == 0 && c.xmargin == 0) &&
    (decide (3 ≤ c.scope) || c.home == modnum) && c.watchOk &&
    (c.scope != 1 || c.wlen == 0 || ((eaOf c.wbase).space == .acc && (eaOf c.wbase).group == some 0))

/-- R313: two watch ranges overlap; a range of cluster scope lies in every accumulator store. Log entry 43. -/
def watchOverlap (s1 : Nat) (b1 : BitVec 64) (n1 : Nat) (s2 : Nat) (b2 : BitVec 64) (n2 : Nat) : Bool :=
  let x := eaOf b1
  let y := eaOf b2
  n1 != 0 && n2 != 0 && x.space == y.space && (x.space == .virt || s1 == 1 || s2 == 1 || x.group == y.group) &&
    decide (x.addr < y.addr + n2) && decide (y.addr < x.addr + n1)

/-- R312: a barrier command. -/
def barCommand (op cmd : Nat) (s : State) (act : BCmd → State → CmdEnd) : Out :=
  command .bar (· == op) cmd s true fun r t =>
    let c := barCmd r
    if !c.plain || !c.configOk t.boot.modnum then .done stBadCmd t
    else if !(t.ctx c.ctx).any (·.ready) then .done stNoCtx t
    else act c t

/-- R316: a barrier as CONFIGURE makes it. -/
def BCmd.barrier (c : BCmd) : Barrier :=
  { scope := c.scope, pcount := c.pcount, home := c.home, ndom := c.ndom, wbase := c.wbase, wlen := c.wlen, peers := c.peers
    xmargin := c.xmargin, broken := false, episodes := [], opened := 0, unanswered := 0, late := 0 }

/-- CONFIGURE (R313, R316). -/
def execConfigure (cmd : BitVec 52) (s : State) : Out :=
  barCommand 1 cmd.toNat s fun c t =>
    if (t.bar c.ctx c.bar).isSome then .done stBusy t
    else if (t.ctx c.ctx).any fun k => k.bars.any fun b =>
        watchOverlap c.scope c.wbase c.wlen b.2.scope b.2.wbase b.2.wlen then .done stConflict t
    else .done stOk (t.onCtx c.ctx fun k => { k with bars := assocSet k.bars c.bar c.barrier })

/-- R313: a group of this module waits on an episode of a barrier; each module that takes part gets the command (log entry 43). -/
def State.barWaiting (s : State) (ctx bar : Nat) : Bool :=
  s.groups.any fun g => g.ident.ctx == ctx && g.phase.isPlaced && !g.phase.isEnded && g.work.joined.any fun j => j.bar == bar && g.waitsAt j

/-- R316: IDLE: no episode has a join or an arrival. -/
def Barrier.idle (b : Barrier) : Bool := b.unanswered == 0 && b.episodes.all fun x => x.joins == 0 && x.counter == 0

/-- REMOVE (R313, R316). -/
def execRemove (cmd : BitVec 52) (s : State) : Out :=
  barCommand 2 cmd.toNat s fun c t =>
    match t.bar c.ctx c.bar with
    | none => .done stOk t
    | some b =>
      if t.barWaiting c.ctx c.bar || !(b.broken || b.idle) then .done stBusy t
      else .done stOk (t.onCtx c.ctx fun k => { k with bars := assocDrop k.bars c.bar })

/-- R316: the number of the oldest episode not released. -/
def Barrier.oldest (b : Barrier) : Nat := (b.episodes.head?.map (·.num)).getD b.opened

/-- R316: a broken barrier opens its next episode (log entry 43). -/
def Barrier.reopen (b : Barrier) : Barrier := { b with broken := false, episodes := [], opened := b.oldest + 1, unanswered := 0 }

/-- RESET (R313, R316, R318): a configured barrier breaks, a broken one opens again. -/
def execBarrierReset (cmd : BitVec 52) (s : State) : Out :=
  barCommand 3 cmd.toNat s fun c t =>
    match t.bar c.ctx c.bar with
    | none => .done stOk t
    | some b =>
      if t.barWaiting c.ctx c.bar then .done stBusy t
      else if b.broken then .done stOk (t.onBar c.ctx c.bar (·.reopen))
      else .done stOk ((t.tellBroken c.ctx c.bar b).breakBar c.ctx c.bar)

/-- R320: the joins of the oldest episode; at a module that is no home also those that the home has not answered. -/
def Barrier.joinsNow (b : Barrier) : Nat := (b.episodes.head?.map (·.joins)).getD 0 + b.unanswered

/-- R320: the state code of a barrier. Log entry 43. -/
def Barrier.code (b : Barrier) : Nat :=
  if b.broken then 5
  else
    match b.episodes with
    | [] => if b.unanswered = 0 then 1 else 2
    | x :: _ =>
      if x.releasing then 4
      else if b.joinsNow = 0 ∧ x.counter = 0 then 1
      else if x.joins = x.goal then 3
      else 2

/-- R320: the bytes of arrivals that a module which is no home has not forwarded yet. Log entry 43. -/
def State.heldArrivals (s : State) (ctx bar : Nat) : BitVec 40 :=
  s.links.unsent.foldl (fun n x =>
    if x.2.kind = 9 ∧ x.2.sub = ctrlArrival ∧ x.2.ctx = ctx ∧ x.2.slot = bar then n - x.2.value.setWidth 40 else n) 0

/-- R320: the 64 bytes that READ writes. Log entry 43. -/
def Barrier.report (b : Option Barrier) (unsent : BitVec 40) : List Byte :=
  match b with
  | none => leBytes 64 0
  | some b =>
    let ctr := ((b.episodes.head?.map fun x => x.counter).getD 0) + unsent
    leBytes 8 b.code ++ leBytes 8 b.oldest ++ leBytes 8 (b.joinsNow % 2 ^ 32) ++ leBytes 8 ctr.toNat ++ leBytes 8 b.late.toNat ++
      leBytes 24 0

/-- READ of a barrier (R320). -/
def execBarrierRead (cmd : BitVec 52) (s : State) : Out :=
  barCommand 4 cmd.toNat s fun c t =>
    t.reportAt cmd.toNat c.ctx c.addr (Barrier.report (t.bar c.ctx c.bar) (t.heldArrivals c.ctx c.bar))

/-- R317: the oldest episode has reached its release tick. -/
def Barrier.due (b : Barrier) (now : Nat) : Option Episode :=
  if b.broken then none else b.episodes.find? fun x => x.tick.any fun t => decide (t ≤ now)

/-- BARRIER_RELEASE_TICK (R316, R317). -/
def execBarrierReleaseTick (ctx : BitVec 8) (bar : BitVec 12) (s : State) : Out :=
  match s.bar ctx.toNat bar.toNat with
  | none => .next s
  | some b =>
    match b.due s.time.now with
    | none => .next s
    | some x => .next (s.releaseEpisode ctx.toNat bar.toNat x.num b)

end Sys2Proof.Machine
end

