-- ==== Sys2Proof/Machine/Regions.lean ====
section
/-! DEFINITION. Region control blocks and the region tree (13_context R262, R263). -/

namespace Sys2Proof.Machine

/-- Whether `n` bytes at a physical address are memory of this module. -/
def State.ownMemory (s : State) (pa n : Nat) : Bool :=
  decide (pa < 2 ^ 52) && paModule pa == s.boot.modnum && hbmPresent s.part (paLocal pa) n

/-- R262: the region part of a record at an address; nothing is charged to it yet. -/
def rcbOf (addr : Nat) (r : List Byte) : Rcb :=
  let f := recField r
  { addr := addr, parent := f 0 8, rid := f 8 2, prio := bitsOf (f 12 1) 0 3, ovp := bitsOf (f 12 1) 3 1 == 1
    fdom := bitsOf (f 13 1) 0 2, ovf := bitsOf (f 13 1) 2 1 == 1, ovc := bitsOf (f 14 1) 0 1 == 1, ovh := bitsOf (f 14 1) 1 1 == 1
    cbudget := f 16 8, hbudget := f 24 8, cusedNs := 0, hused := 0, named := false }

/-- R262: the checks of the region part. -/
def regionPartOk (r : List Byte) : Bool :=
  let f := recField r
  f 10 2 == 0 && bitsOf (f 12 1) 4 4 == 0 && bitsOf (f 13 1) 3 5 == 0 && bitsOf (f 13 1) 0 2 != 3 && bitsOf (f 14 1) 2 6 == 0 &&
    f 15 1 == 0 && f 24 8 % 2 ^ 16 == 0 && recZero r 48 16

/-- R262: the checks of a node that is not the root. -/
def nodeOk (r : List Byte) : Bool :=
  regionPartOk r && recField r 0 8 != 0 && recField r 8 2 != 0 && recZero r 64 64

/-- R262: the context part of a root. -/
def rootPartOf (r : List Byte) : RootPart :=
  let f := recField r
  { ttbase := f 64 8, nqbase := f 72 8, nqlen := f 80 4, accthr := if f 84 2 = 0 then 256 else f 84 2, ctrfirst := f 86 2
    ctrcount := f 88 2, qfirst := f 90 2, qcount := f 92 2, nivose := bitsOf (f 94 1) 0 1 == 1, syspriv := bitsOf (f 94 1) 1 1 == 1
    revms := f 95 1, trbase := f 96 8, trlog := f 104 1, rtbase := f 112 8, rtcount := f 120 4 }

/-- The powers of two that NQLEN may be (R262). -/
def nqlenOk (n : Nat) : Bool := (List.range 11).any fun k => n == 2 ^ (k + 6)

/-- R262: the checks of a root. Log entries 48 and 49. -/
def State.rootOk (s : State) (r : List Byte) : Bool :=
  let f := recField r
  let c := rootPartOf r
  regionPartOk r && f 0 8 == 0 && f 8 2 == 0 && c.ttbase % 2 ^ 12 == 0 && s.ownMemory c.ttbase (2 ^ 12) && c.nqbase % 2 ^ 12 == 0 &&
    nqlenOk c.nqlen && s.ownMemory c.nqbase (64 + 16 * c.nqlen) && decide (c.ctrfirst < 2 ^ 12) &&
    decide (c.ctrfirst + c.ctrcount ≤ 4096) && decide (c.qfirst < 2 ^ 10) && decide (1 ≤ c.qcount) &&
    decide (c.qfirst + c.qcount ≤ 1024) && bitsOf (f 94 1) 2 6 == 0 && decide (c.revms ≤ 50) &&
    decide (24 ≤ c.trlog) && decide (c.trlog ≤ 32) && c.trbase % 2 ^ c.trlog == 0 && decide (c.trbase < 2 ^ 52) &&
    (paModule c.trbase != s.boot.modnum || s.ownMemory c.trbase (2 ^ c.trlog)) &&
    recZero r 105 7 && c.rtbase % 64 == 0 && decide (c.rtcount ≤ 65536) &&
    (if c.rtcount = 0 then c.rtbase == 0 else s.ownMemory c.rtbase (8 * c.rtcount)) &&
    recZero r 124 4

/-- The 128 bytes of a record. -/
def State.rcbBytes (s : State) (a : Nat) : List Byte := s.hbmBytes (paLocal a) 128

/-- R262: a record can stand at an address. Log entry 49. -/
def State.rcbAt (s : State) (a : Nat) : Bool := a % 64 == 0 && s.ownMemory a 128

/-- R263: the nodes of a chain from an address up to the first accepted node, which is at most 7 steps from the root in all; the
first argument bounds the steps. -/
def State.chain (s : State) (c : Context) : Nat → Nat → Option (List Rcb)
  | 0, _ => none
  | n + 1, a =>
    if c.rcbs.any (fun r => r.addr == a) then if (regionPath c 8 a).length ≤ n + 1 then some [] else none
    else if s.rcbAt a && nodeOk (s.rcbBytes a) then
      let r := rcbOf a (s.rcbBytes a)
      (s.chain c n r.parent).map (r :: ·)
    else none

/-- R263: no two regions of a context have one number. -/
def ridsDiffer : List Rcb → Bool
  | [] => true
  | r :: l => l.all (fun x => x.rid != r.rid) && ridsDiffer l

/-- R263: the nodes that a region brings in, its own first and named; none where its entry `a` is 0 or a test fails. A region that another
one's chain has brought in is itself named, if the entry names its record. -/
def State.regionNodes (s : State) (c : Context) (rid a : Nat) : Option (List Rcb) :=
  if a = 0 then none
  else if c.rcbs.any (fun r => r.addr == a) then
    if (c.rcb rid).any (fun r => r.addr == a) then
      some (c.rcbs.map fun (r : Rcb) => if r.addr = a then { r with named := true } else r)
    else none
  else
    match s.chain c 8 a with
    | some (r :: l) =>
      let all := c.rcbs ++ { r with named := true } :: l
      if r.rid == rid && ridsDiffer all then some all else none
    | _ => none

/-- R263: the front end accepts a region of a context, with the nodes on its chain; none where it does not. The root and a region that has
been accepted by its entry need no entry. Log entry 49. -/
def State.acceptRegion (s : State) (ctx rid : Nat) : Option State :=
  match s.ctx ctx with
  | none => none
  | some c =>
    if rid = 0 || (c.rcb rid).any (·.named) then some s
    else if c.root.rtcount ≤ rid then none
    else
      (s.regionNodes c rid (s.hbmVal (paLocal (c.root.rtbase + 8 * rid)) 8)).map fun l =>
        (s.onCtx ctx fun c => { c with rcbs := l }).chargeHbm ctx

end Sys2Proof.Machine
end

