-- ==== Sys2Proof/Machine/Queues.lean ====
section
/-! DEFINITION. Hardware queues (14_queue R272 to R282): entries, their dependences, completion and error tokens, and the queue
commands. -/

namespace Sys2Proof.Machine

/-! ## The ring -/

/-- R273: TAIL, as the front end observes it. -/
def State.tail (s : State) (h : HQueue) : Nat := s.hbmVal (paLocal h.ring) 8

/-- R273: the local address of entry `i`. -/
def HQueue.slotAt (h : HQueue) (i : Nat) : Nat := paLocal h.ring + 64 + 64 * (i % 2 ^ h.logn)

/-- The 64 bytes of entry `i`. -/
def State.entryBytes (s : State) (h : HQueue) (i : Nat) : List Byte := s.hbmBytes (h.slotAt i) 64

/-- R273: the ring is overrun. -/
def State.overrun (s : State) (h : HQueue) : Bool := decide (h.done + 2 ^ h.logn < s.tail h)

/-- R273, R281: an overrun freezes an ACTIVE queue. -/
def State.noteOverrun (s : State) : State :=
  { s with fe := { s.fe with queues := s.fe.queues.map fun q =>
    if q.2.st == .active && s.overrun q.2 then (q.1, { q.2 with st := .frozen, fault := 2 }) else q } }

/-- R275: the header of an entry. -/
structure EHead where
  typ : Nat
  waitprev : Bool
  dep : Bool
  hev : Bool
  cnt : Bool
  depq : Nat
  cctr : Nat
  depidx : Nat
  deriving DecidableEq, Repr

def eHead (r : List Byte) : EHead :=
  let f := recField r
  let fl := f 1 1
  { typ := f 0 1, waitprev := bitsOf fl 0 1 == 1, dep := bitsOf fl 1 1 == 1, hev := bitsOf fl 2 1 == 1, cnt := bitsOf fl 3 1 == 1
    depq := bitsOf (f 4 2) 0 10, cctr := bitsOf (f 6 2) 0 12, depidx := f 8 8 }

/-- R261: a queue granted to a context. -/
def Context.grantsQueue (c : Context) (q : Nat) : Bool :=
  decide (c.root.qfirst ≤ q) && decide (q < c.root.qfirst + c.root.qcount)

/-- R276: a counter field that may hold NONE in [15], with granted counter. -/
def Context.ctrOk (c : Context) (f : Nat) (none_ : Bool) : Bool :=
  bitsOf f 12 3 == 0 && (if bitsOf f 15 1 = 1 then none_ else c.grants (bitsOf f 0 12))

/-- R276: what the bytes of each TYPE must hold. Log entry 36. -/
def bodyOk (c : Context) (r : List Byte) : Bool :=
  let f := recField r
  match f 0 1 with
  | 1 => f 32 4 != 0 && recZero r 38 26
  | 2 => f 16 8 % 64 == 0 && decide (1 ≤ f 24 2) && decide (f 24 2 ≤ 64) && recZero r 26 38
  | 3 => c.ctrOk (f 16 2) false && recZero r 18 6 && recZero r 32 32
  | 4 => c.ctrOk (f 16 2) true && recZero r 18 6 && decide (f 32 1 ≤ 1) && recZero r 33 3 && recZero r 48 16
  | 5 => f 16 8 % 8 == 0 && recZero r 32 32
  | _ => false

/-- R276: an entry that can run; a queue or counter is named where its flag is set. Log entry 36. -/
def entryOk (c : Context) (r : List Byte) : Bool :=
  let h := eHead r
  let f := recField r
  f 1 1 / 16 == 0 && f 3 1 == 0 && bitsOf (f 4 2) 10 6 == 0 && bitsOf (f 6 2) 12 4 == 0 && (!h.dep || c.grantsQueue h.depq) &&
    (!h.cnt || c.grants h.cctr) && bodyOk c r

/-! ## Dependences -/

/-- What a dependence says (R277, R279). -/
inductive DepSt where
  | waits | met | bad
  deriving DecidableEq, Repr

/-- The state of an entry that another depends on. -/
def HQueue.depSt (h : HQueue) (i : Nat) : DepSt :=
  if h.bad.contains i then .bad
  else if i < h.done then .met
  else
    match h.entries.find? fun e => e.index == i with
    | some e => if e.st = .started then .waits else .met
    | none => .waits

/-- Both dependences together. -/
def DepSt.and (a b : DepSt) : DepSt :=
  match a, b with
  | .bad, _ => .bad
  | _, .bad => .bad
  | .met, .met => .met
  | _, _ => .waits

/-- R277: what an entry still waits for. -/
def State.depsOf (s : State) (h : HQueue) (i : Nat) (r : List Byte) : DepSt :=
  let x := eHead r
  let prev := if x.waitprev ∧ i ≠ 0 then h.depSt (i - 1) else .met
  let dep := if x.dep then
      match s.hq x.depq with
      | some d => d.depSt x.depidx
      | none => .waits
    else .met
  prev.and dep

/-! ## Completion -/

/-- R277: take entry `head`. -/
def State.takeEntry (s : State) (q : Nat) (wait : Option (Nat × BitVec 64)) : State :=
  match s.hq q with
  | none => s
  | some h =>
    (s.hbmPutVal (paLocal h.ring + 8) 8 (h.head + 1)).onHq q fun h =>
      { h with head := h.head + 1, entries := h.entries ++ [⟨h.head, .started, none, wait, false⟩] }

/-- R277: DONE passes every leading completed entry; the first argument bounds them. -/
def passDone : Nat → HQueue → HQueue
  | 0, h => h
  | n + 1, h =>
    if h.entries.any (fun e => e.index == h.done && e.st != .started) then
      passDone n { h with entries := h.entries.filter (fun e => e.index != h.done), done := h.done + 1 }
    else h

def State.advanceDone (s : State) (q : Nat) : State :=
  match s.hq q with
  | none => s
  | some h =>
    let h1 := passDone h.entries.length h
    (s.hbmPutVal (paLocal h.ring + 16) 8 h1.done).onHq q fun _ => h1

/-- R277: an entry that has been taken completes. The event of HEV is of CLASS 3 (log entry 36). -/
def State.completeEntry (s : State) (q i : Nat) (st : Status) : State :=
  match s.hq q with
  | none => s
  | some h =>
    let x := eHead (s.entryBytes h i)
    let s1 := s.hbmPutVal (h.slotAt i + 2) 1 st.code
    let s2 := if x.cnt && st == Status.ok then s1.addCtr x.cctr 1 5 else s1
    let s3 := if x.hev then s2.event 3 h.ctx st.code (s.boot.modnum * 2 ^ 42 + h.slotAt i) else s2
    (s3.onHq q fun h =>
      { h with
        entries := h.entries.map fun e => if e.index = i then { e with st := .complete st } else e
        bad := if st = .ok then h.bad else i :: h.bad }).advanceDone q

/-- R287: a descriptor of which nothing is known. -/
def KDesc.none_ : KDesc :=
  { kernid := 0, text := 0, tlen := 0, dcount := 0, csize := 1, resident := false, dict := 0, data := 0, dlen := 0, argw := 0
    trig := none, tthresh := 0, qmap := [], dargs := 0, calg := 0, calrid := 0, cctr := none }

/-- A launch of which no group is placed. -/
def Launch.fresh (id ctx : Nat) (queue : Option Nat) (entry rid args g : Nat) (kd : KDesc) (st : LaunchSt) : Launch :=
  { id := id, ctx := ctx, queue := queue, entry := entry, rid := rid, kd := kd, args := args, g := g, st := st, placed := 0
    results := [], pendingRecs := [], reported := 0, cancelled := false, met := false, begun := false, tick := none, kva := 0
    cores := [], late := 0 }

/-- R286: a LAUNCH entry that is cancelled without having started reports each group as CANCELLED. -/
def State.reportCancelled (s : State) (q i : Nat) : State :=
  match s.hq q with
  | none => s
  | some h =>
    let r := s.entryBytes h i
    if !h.crep || recField r 0 1 != 1 then s
    else
      let l : Launch :=
        { Launch.fresh s.fe.nextLaunch h.ctx (some q) i (recField r 36 2) 0 (recField r 32 4) KDesc.none_ .done with cancelled := true }
      { s with fe := { s.fe with launches := s.fe.launches ++ [l.cancelUnplaced], nextLaunch := s.fe.nextLaunch + 1 } }.flushRecs q

/-- The front end no longer reads for an entry of a queue. -/
def State.forget (s : State) (q : Nat) : State :=
  let s1 := s.dropLines (.queue q)
  { s1 with links := { s1.links with fwds := s1.links.fwds.map fun f => if f.agent = some (.queue q) then { f with agent := none } else f } }

/-- R279: the next entry completes CANCELLED, without running. -/
def State.cancelNext (s : State) (q : Nat) : State :=
  match s.hq q with
  | none => s
  | some h => (((s.forget q).takeEntry q none).completeEntry q h.head .cancelled).reportCancelled q h.head

/-- R279: the walk: it cancels every entry that depends on a failed or cancelled one and stops at the first that does not; the
first argument bounds it. -/
def cancelWalk (q : Nat) : Nat → State → State
  | 0, s => s
  | n + 1, s =>
    match s.hq q with
    | none => s
    | some h =>
      if decide (h.head < s.tail h) && s.depsOf h h.head (s.entryBytes h h.head) == .bad then cancelWalk q n (s.cancelNext q)
      else s

/-- R279: the entries that the walk can cancel: it begins behind the failed entry, passes those that are cancelled already, and stops at
one that has started, which has no edge to one that failed. -/
def State.walkBound (s : State) (h : HQueue) (i : Nat) : Nat :=
  if (List.range (h.head - (i + 1))).all (fun k => h.bad.contains (i + 1 + k)) then s.tail h - h.head else 0

/-- R279: the walk behind a failed entry. -/
def State.spreadToken (s : State) (q i : Nat) : State :=
  match s.hq q with
  | none => s
  | some h => cancelWalk q (s.walkBound h i) s

/-- R279, R281: an entry sends an error token: the ACTIVE queue cancels, and freezes. -/
def State.sendToken (s : State) (q i : Nat) : State :=
  match s.hq q with
  | none => s
  | some h =>
    if h.st ≠ .active then s
    else ((s.onHq q fun h => { h with st := .cancelling, failed := i }).spreadToken q i).onHq q fun h => { h with st := .frozen, fault := 1 }

/-- R279: the statuses that send an error token. -/
def Status.sendsToken : Status → Bool
  | .faulted => true
  | .hung => true
  | .badrcb => true
  | .badentry => true
  | _ => false

/-- An entry that has been taken completes, with its error token. -/
def State.endEntry (s : State) (q i : Nat) (st : Status) : State :=
  let s1 := s.completeEntry q i st
  if st.sendsToken then s1.sendToken q i else s1

/-- The next entry is taken and completes at once. -/
def State.takeAndEnd (s : State) (q : Nat) (st : Status) : State :=
  match s.hq q with
  | none => s
  | some h => (s.takeEntry q none).endEntry q h.head st

/-- The launches that nothing needs any more go. -/
def State.dropLaunches (s : State) : State :=
  { s with fe := { s.fe with launches := s.fe.launches.filter fun l =>
    l.st != .done || !l.pendingRecs.isEmpty || s.groups.any fun g => g.phase.isPlaced && g.ident.launch == l.id } }

/-- The launch entry of a queue that can complete: every group has. -/
def State.entryDone (s : State) (q i : Nat) : Option Launch :=
  match (s.hq q).bind fun h => h.entries.find? fun e => e.index == i && e.st == .started with
  | none => none
  | some e =>
    match e.launch with
    | none => none
    | some id => (s.launch id).filter fun l => l.results.length == l.g && l.st != .done

/-- R267: a group of a launch has taken a fatal fault; under REGION the launch ends CANCELLED and its entry sends a token all the same. -/
def Launch.hasFault (l : Launch) : Bool := l.results.any fun r => r.2 == .faulted

/-- ENTRY_COMPLETION (R277 to R279, R297): a LAUNCH whose groups have all completed. -/
def execEntryCompletion (queue : BitVec 10) (index : Nat) (s : State) : Out :=
  let q := queue.toNat
  match s.entryDone q index with
  | none => .next s
  | some l =>
    let s1 := (s.onLaunch l.id fun l => { l with st := .done }).dropReserved l.id
    let st := s.launchStatus l
    let s2 := s1.endEntry q index st
    .next ((if st = .cancelled ∧ l.hasFault then s2.spreadToken q index else s2).dropLaunches)

/-- The WAIT entry of a queue whose condition has held. -/
def State.waitMet (s : State) (q i : Nat) : Bool :=
  ((s.hq q).bind fun h => h.entries.find? fun e => e.index == i && e.st == .started).any (·.met)

/-- WAIT_CONDITION_HOLDS (R276). -/
def execWaitConditionHolds (queue : BitVec 10) (index : Nat) (s : State) : Out :=
  if s.waitMet queue.toNat index then .next (s.endEntry queue.toNat index .ok) else .next s

/-! ## Commands -/

/-- R282: the fields of a queue command. -/
structure QCmd where
  ctx : Nat
  queue : Nat
  addr : Nat
  bad : Bool
  deriving DecidableEq, Repr

def queueCmd (r : List Byte) : QCmd :=
  let f := recField r
  { ctx := f 2 1, queue := bitsOf (f 4 2) 0 10, addr := f 8 8
    bad := f 3 1 != 0 || bitsOf (f 4 2) 10 6 != 0 || f 6 2 != 0 || !recZero r 16 48 }

/-- R282: a queue command. -/
def queueCommand (op cmd : Nat) (s : State) (act : QCmd → Context → State → CmdEnd) : Out :=
  command .queue (· == op) cmd s true fun r t =>
    let c := queueCmd r
    if c.bad then .done stBadCmd t
    else
      match t.ctx c.ctx with
      | none => .done stNoCtx t
      | some k => if k.grantsQueue c.queue then act c k t else .done stNoQueue t

/-- R272: the checks of a control record. Log entry 48. -/
def State.ctlOk (s : State) (r : List Byte) : Bool :=
  let f := recField r
  let logn := f 8 1
  let crep := bitsOf (f 9 1) 1 1 == 1
  let clog := f 24 1
  f 0 8 % 2 ^ 12 == 0 && decide (4 ≤ logn) && decide (logn ≤ 16) && s.ownMemory (f 0 8) (64 + 64 * 2 ^ logn) && bitsOf (f 9 1) 2 6 == 0 &&
    f 14 2 == 0 && recZero r 25 39 &&
    (if crep then f 16 8 % 2 ^ 12 == 0 && decide (8 ≤ clog) && decide (clog ≤ 16) && s.ownMemory (f 16 8) (16 * 2 ^ clog)
     else f 16 8 == 0 && clog == 0)

/-- R272, R273: a queue as ENABLE makes it. Log entry 36. -/
def hqOf (ctx head : Nat) (r : List Byte) : HQueue :=
  let f := recField r
  { ctx := ctx, st := .active, ring := f 0 8, logn := f 8 1, ordered := bitsOf (f 9 1) 0 1 == 1, crep := bitsOf (f 9 1) 1 1 == 1
    rid := f 10 2, hangms := f 12 2, cring := f 16 8, clog := f 24 1, head := head, done := head, entries := [], ccount := 0
    fault := 0, failed := 0, bad := [], deficit := 0, readySince := none }

/-- ENABLE (R272, R281, R282). Log entry 36. -/
def execEnable (cmd : BitVec 52) (s : State) : Out :=
  queueCommand 1 cmd.toNat s fun c k t =>
    if (t.hq c.queue).isSome || k.st != .ready then .done stBusy t
    else
      let r := t.hbmBytes (paLocal c.addr) 64
      if !t.ownMemory c.addr 64 || !t.ctlOk r then .done stBadRcb t
      else
        match t.acceptRegion c.ctx (recField r 10 2) with
        | none => .done stBadRcb t
        | some u =>
          let ring := paLocal (recField r 0 8)
          let h := hqOf c.ctx (u.hbmVal (ring + 8) 8) r
          let u1 := (u.hbmPutVal (ring + 16) 8 h.head).hbmPutVal (ring + 24) 8 0
          .done stOk { u1 with fe := { u1.fe with queues := assocSet u1.fe.queues c.queue h } }

/-- R281: an entry is started and not complete. -/
def HQueue.inProgress (h : HQueue) : Bool := h.entries.any fun e => e.st == .started

/-- DISABLE (R281). Log entry 36. -/
def execDisable (cmd : BitVec 52) (s : State) : Out :=
  queueCommand 2 cmd.toNat s fun c _ t =>
    match t.hq c.queue with
    | none => .done stOk t
    | some h =>
      if h.inProgress || h.st == .cancelling then .done stBusy t
      else
        let u := t.forget c.queue
        .done stOk { u with fe := { u.fe with queues := assocDrop u.fe.queues c.queue } }

/-- R281: the queue that RESUME and FLUSH find FROZEN, in a READY context. -/
def State.frozenQueue (s : State) (q : Nat) (k : Context) : Option HQueue :=
  if k.st = .ready then (s.hq q).filter fun h => h.st == .frozen else none

/-- R281: a queue is ACTIVE again. Log entry 36. -/
def HQueue.activate (h : HQueue) : HQueue := { h with st := .active, fault := 0 }

/-- R281: after FLUSH, whose entries send no token: none of them counts as failed for an entry that depends on it. -/
def HQueue.flushed (h : HQueue) (bad : List Nat) : HQueue := { h.activate with bad := bad }

/-- RESUME (R281). -/
def execResume (cmd : BitVec 52) (s : State) : Out :=
  queueCommand 3 cmd.toNat s fun c k t =>
    if (t.frozenQueue c.queue k).isSome then .done stOk (t.onHq c.queue (·.activate)) else .done stBusy t

/-- Every entry from HEAD up to a TAIL completes CANCELLED; the first argument counts them. -/
def cancelAll (q : Nat) : Nat → State → State
  | 0, s => s
  | n + 1, s => cancelAll q n (s.cancelNext q)

/-- FLUSH (R281). -/
def execFlush (cmd : BitVec 52) (s : State) : Out :=
  queueCommand 4 cmd.toNat s fun c k t =>
    match t.frozenQueue c.queue k with
    | none => .done stBusy t
    | some h => .done stOk ((cancelAll c.queue (t.tail h - h.head) t).onHq c.queue (·.flushed h.bad)).dropLaunches

/-- R282: the code of a queue's state. -/
def QueueSt.code : QueueSt → Nat
  | .active => 1
  | .cancelling => 2
  | .frozen => 3

/-- R282: the 64 bytes that READ writes. -/
def queueReport (h : Option HQueue) : List Byte :=
  match h with
  | none => leBytes 64 0
  | some h =>
    leBytes 1 h.st.code ++ leBytes 1 h.fault ++ leBytes 6 0 ++ leBytes 8 h.head ++ leBytes 8 h.done ++ leBytes 8 h.failed ++
      leBytes 32 0

/-- READ of a queue (R282). -/
def execQueueRead (cmd : BitVec 52) (s : State) : Out :=
  queueCommand 5 cmd.toNat s fun c _ t => t.reportAt cmd.toNat c.ctx c.addr (queueReport (t.hq c.queue))

end Sys2Proof.Machine
end

