-- ==== Sys2Proof/Machine/Contexts.lean ====
section
/-! DEFINITION. Contexts (13_context R260 to R262, R268 to R270): the commands of CTXDB, freezing and draining. -/

namespace Sys2Proof.Machine

/-- R270: the fields of a context command. -/
structure XCmd where
  ctx : Nat
  addr : Nat
  core : Nat
  hbm : Nat
  bad : Bool
  deriving DecidableEq, Repr

def ctxCmd (r : List Byte) : XCmd :=
  let f := recField r
  { ctx := f 2 1, addr := f 8 8, core := f 16 8, hbm := f 24 8, bad := f 3 5 != 0 || !recZero r 32 32 }

/-- R270: a context command. -/
def ctxCommand (op cmd : Nat) (s : State) (act : XCmd → State → CmdEnd) : Out :=
  command .ctx (· == op) cmd s true fun r t =>
    let c := ctxCmd r
    if c.bad then .done stBadCmd t else act c t

/-! ## CREATE -/

/-- R262: a granted counter or queue belongs to another context. -/
def State.grantConflict (s : State) (r : RootPart) : Bool :=
  let meet (a n b m : Nat) : Bool := decide (max a b < min (a + n) (b + m))
  s.ctxs.any fun c => meet r.ctrfirst r.ctrcount c.2.root.ctrfirst c.2.root.ctrcount ||
    meet r.qfirst r.qcount c.2.root.qfirst c.2.root.qcount

/-- R261: a context after CREATE. -/
def newContext (root : RootPart) (rcb : Rcb) : Context :=
  { st := .ready, root := root, rcbs := [rcb], binds := [], gens := [], routines := [], slots := [], bars := []
    digests := Vector.replicate 4 0, gendrop := 0, revoked := 0, fault := none, accs := [], cmd := none, sources := []
    ringHdr := none }

/-- R261, R351: the trace ring is empty; a lender learns that its frame holds one. -/
def State.emptyRing (s : State) (ctx : Nat) (r : RootPart) : State :=
  let s1 := s.putPa ctx r.trbase (leBytes 64 0) (.ring ctx)
  if paModule r.trbase = s.boot.modnum then s1
  else s1.ctrl (paModule r.trbase) ctrlRing ctx 0 0 (BitVec.ofNat 64 r.trbase) 0

/-- R260, R261: the context becomes READY with its grants. -/
def State.createCtx (s : State) (n : Nat) (root : RootPart) (rcb : Rcb) : State :=
  let s1 : State := { s with
    ctxs := assocSet s.ctxs n (newContext root rcb)
    ctrs := s.ctrs.filter fun c => !(decide (root.ctrfirst ≤ c.1) && decide (c.1 < root.ctrfirst + root.ctrcount)) }
  let nq := paLocal root.nqbase
  ((((s1.hbmPutVal nq 16 0).hbmPutVal (nq + 16) 4 0).emptyRing n root).chargeHbm n).writeCharges n 0

/-- CREATE (R260 to R262): BUILDING lasts no longer than the command. -/
def execCreate (cmd : BitVec 52) (s : State) : Out :=
  ctxCommand 1 cmd.toNat s fun c t =>
    if (t.ctx c.ctx).isSome then .done stBusy t
    else
      let r := t.rcbBytes c.addr
      if !t.rcbAt c.addr || !t.rootOk r then .done stBadRcb t
      else if t.grantConflict (rootPartOf r) then .done stConflict t
      else .done stOk (t.createCtx c.ctx (rootPartOf r) { rcbOf c.addr r with named := true })

/-! ## DESTROY -/

/-- R269, step 1: an entry in progress completes CANCELLED, a LAUNCH with the status that R297 gives it once its groups have stopped. -/
def State.drainEntry (s : State) (q : Nat) (e : QEntry) : State :=
  match e.launch.bind s.launch with
  | none => s.completeEntry q e.index .cancelled
  | some l =>
    let s1 := s.cancelLaunch l.id
    let st := ((s1.launch l.id).map s1.launchStatus).getD .cancelled
    (s1.onLaunch l.id fun l => { l with st := .done }).completeEntry q e.index st

/-- R269, step 1: every entry still in a queue completes; those in progress first, then the rest. -/
def State.drainQueue (s : State) (q : Nat) (h : HQueue) : State :=
  let s1 := (h.entries.filter fun e => e.st == .started).foldl (fun t e => t.drainEntry q e) (s.forget q)
  cancelAll q (s1.tail h - h.head) s1

/-- R269, steps 1 and 2: queues, calendar and launches of a context. -/
def State.cancelCtx (s : State) (n : Nat) : State :=
  let qs := s.fe.queues.filter fun q => q.2.ctx == n
  let s1 := qs.foldl (fun t q => t.drainQueue q.1 q.2) s
  let s2 := (s1.fe.launches.filter fun l => l.ctx == n && l.st != .done).foldl (fun t l => t.cancelLaunch l.id) s1
  { s2 with fe := { s2.fe with
    queues := s2.fe.queues.filter fun q => q.2.ctx != n
    calendar := s2.fe.calendar.filter fun e => e.ctx != n } }

/-- R269, step 3, and R329: armed slots are CANCELLED, queue pairs close. -/
def State.cancelSlots (s : State) (n : Nat) : State :=
  let s1 := s.onCtx n fun c => { c with slots := c.slots.map fun x => (x.1, x.2.cancelled) }
  (s1.links.qps.filter fun q => q.ctx == n).foldl (fun t q => t.closeQp q) s1

/-- R260, R269: a context enters DRAINING. -/
def State.startDrain (s : State) (n cmd : Nat) : State :=
  ((s.onCtx n fun c => { c with st := .draining, cmd := some cmd }).cancelCtx n).cancelSlots n

/-- DESTROY (R260, R269): while the context is FREEZING the command waits. -/
def execDestroy (cmd : BitVec 52) (s : State) : Out :=
  ctxCommand 2 cmd.toNat s fun c t =>
    match t.ctx c.ctx with
    | none => .done stNoCtx t
    | some k =>
      match k.st with
      | .building => .done stBusy t
      | .draining => .done stBusy t
      | .freezing => .waits
      | .ready => .later (t.startDrain c.ctx cmd.toNat)
      | .frozen => .later (t.startDrain c.ctx cmd.toNat)

/-! ## REPLENISH and READ -/

/-- REPLENISH (R260, R270). -/
def execReplenish (cmd : BitVec 52) (s : State) : Out :=
  ctxCommand 3 cmd.toNat s fun c t =>
    match t.ctx c.ctx with
    | none => .done stNoCtx t
    | some k =>
      if c.hbm % 2 ^ 16 ≠ 0 then .done stBadCmd t
      else if k.st = .building ∨ k.st = .draining then .done stBusy t
      else
        let rid := recField (t.rcbBytes c.addr) 8 2
        let u := if t.rcbAt c.addr && k.rcbs.all (fun r => r.addr != c.addr) then (t.acceptRegion c.ctx rid).getD t else t
        if (u.ctx c.ctx).any fun k => k.rcbs.any fun r => r.addr == c.addr then
          .done stOk (u.onCtx c.ctx fun k => k.onRcbs [c.addr] fun r =>
            { r with cbudget := min (r.cbudget + c.core) (2 ^ 64 - 1), hbudget := min (r.hbudget + c.hbm) (2 ^ 64 - 1) })
        else .done stBadRcb t

/-- R270: the status record. -/
def Context.statusRecord (c : Context) : List Byte :=
  let f := c.fault
  let word (g : FaultRec → Nat) : Nat := (f.map g).getD 0
  leBytes 1 c.st.code ++ leBytes 7 0 ++ leBytes 8 (word fun f => f.cause.toNat) ++ leBytes 8 (word fun f => f.addr.toNat) ++
    leBytes 4 (word fun f => f.group.toNat) ++ leBytes 4 (word fun f => f.further.toNat) ++
    c.digests.toList.flatMap (fun d => leBytes 16 d.toNat) ++ leBytes 4 c.gendrop.toNat ++ leBytes 4 c.revoked.toNat ++
    leBytes 8 (((c.rcb 0).map fun r => r.cusedNs / 1000).getD 0) ++ leBytes 144 0

/-- R265: CUSED and HUSED of every accepted node in memory. -/
def State.writeAllCharges (s : State) (n : Nat) : State :=
  match s.ctx n with
  | none => s
  | some c => c.rcbs.foldl (fun t r => t.hbmPutVal (paLocal r.addr + 32) 8 (r.cusedNs / 1000)) (s.chargeHbm n)

/-- READ of a context (R260, R265, R270). -/
def execCtxRead (cmd : BitVec 52) (s : State) : Out :=
  ctxCommand 4 cmd.toNat s fun c t =>
    match t.ctx c.ctx with
    | none => .done stNoCtx t
    | some k => (t.writeAllCharges c.ctx).reportAt cmd.toNat c.ctx c.addr k.statusRecord

/-! ## FROZEN and FREE -/

/-- R198: no firing of a context is in progress. -/
def Context.noFiring (c : Context) : Bool := c.slots.all fun x => x.2.st != .firing

/-- CONTEXT_FROZEN can happen. -/
def State.frozenEnabled (s : State) (n : Nat) : Bool := (s.ctx n).any fun c => c.st == .freezing && c.noFiring

/-- CONTEXT_FROZEN (R260, R268). -/
def execContextFrozen (ctx : BitVec 8) (s : State) : Out :=
  let n := ctx.toNat
  if s.frozenEnabled n then .next ((s.onCtx n fun c => { c with st := .frozen }).event 2 n CtxSt.frozen.code 0) else .next s

/-- R269: steps 1 to 4 are done: no group is placed, no firing or page command is in progress, every queue pair is closed.
Log entry 49. -/
def State.drainedEnabled (s : State) (n : Nat) : Bool :=
  (s.ctx n).any fun c => c.st == .draining && c.noFiring &&
    s.groups.all (fun g => g.ident.ctx != n || !g.phase.isPlaced) &&
    s.links.qps.all (fun q => q.ctx != n || q.st == .closed) && s.pages.ops.all (fun o => o.ctx != n) &&
    s.pages.swaps.all fun x => x.ctx != n

/-- R252, R269: frames that the context has lent: the borrower is told, and its later accesses are dropped. Log entry 49. -/
def State.endLeases (s : State) (n : Nat) : State :=
  let told := (s.pages.leases.filter fun l => l.ctx == n && !l.passed).foldl (fun t l =>
    match l.borrower with
    | none => t
    | some b => t.ctrl b ctrlRevoke n 0 0 (BitVec.ofNat 64 l.frame) (BitVec.ofNat 64 s.time.now)) s
  told.onLeases fun ls => (ls.filter fun l => l.ctx != n || l.borrower.isSome).map fun l =>
    if l.ctx = n then { l with passed := true, deadline := some (l.deadline.getD s.time.now) } else l

/-- R269, step 5: every page of the context is unmapped. -/
def State.unmapAll (s : State) (n : Nat) : State :=
  let s1 := (s.ctxLeaves n).foldl (fun t p => t.unmapPage n p.2 p.1) (s.endLeases n)
  { s1 with pages := { s1.pages with
    held := s1.pages.held.filter fun w => w.ctx != n
    pinnedHold := s1.pages.pinnedHold.filter fun h => h.ctx != n } }

/-- R269, step 6: the context is FREE. Its queue pairs stay on record as CLOSED, for the firings that still come and for their counters
(R329). Log entry 49. -/
def State.freeCtx (s : State) (n : Nat) (c : Context) : State :=
  { s with
    ctxs := assocDrop s.ctxs n
    ctrs := s.ctrs.filter fun x => !c.grants x.1
    fe := { s.fe with launches := s.fe.launches.filter fun l => l.ctx != n } }

/-- CONTEXT_DRAINED (R260, R269): HUSED is written back as the last page leaves, STATUS follows. -/
def execContextDrained (ctx : BitVec 8) (s : State) : Out :=
  let n := ctx.toNat
  match s.ctx n with
  | none => .next s
  | some c =>
    if !s.drainedEnabled n then .next s
    else
      let s1 := (((s.unmapAll n).writeAllCharges n).freeCtx n c).event 2 n 0 0
      .next (match c.cmd with
        | some cmd => s1.cmdDone cmd n stOk
        | none => s1)

end Sys2Proof.Machine
end

