-- ==== Sys2Proof/Machine/Control.lean ====
section
/-! DEFINITION. Framing and control: block headers and block ends (04_encoding R50 to R53), timed no-ops (R56), dictionary
references and DICTLD (R62 to R64), branches (05_control R84 to R90) and queue instructions (R91, R92). -/

namespace Sys2Proof.Machine

/-! ## Moving through the text -/

/-- R95, R216: an engine passes `len` bytes without issuing an item. -/
def State.passBytes (s : State) (e : Engine) (len : Nat) : State :=
  s.onMe fun g => g.mapEngine e fun x =>
    { x with cur := x.cur + len, w := if g.phase = .handler ∧ e = .c then x.w else x.w + len / 2, waiting := none }

/-- R51: a framing error at an engine's address: C traps, any other engine waits there. Where C has executed its NOTIFY, it comes there
no more, and its trap is raised for the engine that has. -/
def State.framing (s : State) (e : Engine) : State :=
  if e = .c then s.trapAt .c causeIllegal 0 0 false
  else if (s.eng .c).stopped then s.takeTrap Engine.c.tag causeIllegal 0 0 (s.eng e).cur false
  else s.stall e none

/-- R95: the least walk count of the engines that have not executed their NOTIFY. -/
def Group.walkMin (g : Group) : Option Nat :=
  ((allEngines.filter fun e => !(g.engine e).stopped).map fun e => (g.engine e).w).min?

/-- R94: SLIP. -/
def Group.slip (g : Group) : Nat := g.sys.window.toNat % 2 ^ 13

/-- R95: whether the window lets an engine pass `parcels` more. -/
def Group.inWindow (g : Group) (e : Engine) (parcels : Nat) : Bool :=
  g.phase == .handler ||
  (match g.walkMin with
   | none => true
   | some m => decide ((g.engine e).w + parcels ≤ m + g.slip) || (g.engine e).w == m)

/-- The end of the text or of the innermost open body (R51). -/
def Group.enclosingEnd (g : Group) (e : Engine) : Nat :=
  match (g.engine e).stack with
  | l :: _ => l.last
  | [] => g.store.tlen

/-- R52: enter a body of `len` parcels with `n` passes; with 0 passes it is skipped. -/
def State.enterBody (s : State) (e : Engine) (len n : Nat) : State :=
  let x := s.eng e
  let body := x.cur + 4
  let last := body + 2 * len
  if n = 0 then s.passBytes e (4 + 2 * len)
  else (s.passBytes e 4).onEng e fun x => { x with stack := ⟨body, last, n⟩ :: x.stack }

/-- R51: whether a header at an engine's address is well framed for `n` passes. -/
def Group.headerOk (g : Group) (e : Engine) (len n : Nat) : Bool :=
  decide ((g.engine e).cur + 4 + 2 * len ≤ g.enclosingEnd e) && (n == 0 || decide ((g.engine e).stack.length < 8))

/-- BLOCK_HEADER (R50 to R52), by the engine that acts. -/
def execBlockHeader (l : BitVec 12) (c : BitVec 15) (s : State) : Out :=
  let e := s.actor
  if !s.mayRun e then .next s
  else if c = 0 ∨ !s.me.headerOk e l.toNat c.toNat then .next (s.framing e)
  else .next (s.enterBody e l.toNat c.toNat)

/-- R53: the engines whose hidden branch queue C pushes to at a header: L, V, M and S; in handler mode only a claimed M walks
C's text (R211, R224; log entry 23). -/
def State.followers (s : State) (mask : BitVec 5) : List Engine :=
  [Engine.l, .v, .m, .s].filter fun e =>
    inMask mask e && (s.me.phase != .handler || (e == .m && s.me.hand.claim.isSome))

/-- R90: push one entry to every follower as one step; none while any is full. -/
def State.pushHidden (s : State) (es : List Engine) (h : HbEntry) : Option State :=
  if es.all fun e => decide ((s.eng e).hbq.length < 4) then
    some (es.foldl (fun t e => t.onEng e fun x =>
      { x with hbq := x.hbq ++ [h], hbCovers := x.hbCovers ++ [s.coveredBy .c] }) s)
  else none

/-- R53, R241: the oldest entry of an engine's hidden branch queue, once what it covers is performed. -/
def State.hbHead (s : State) (e : Engine) : Option HbEntry :=
  if s.allDone ((s.eng e).hbCovers.headD []) then (s.eng e).hbq.head? else none

/-- The oldest entry is taken. -/
def EngineState.hbPop (x : EngineState) : EngineState := { x with hbq := x.hbq.tail, hbCovers := x.hbCovers.tail }

/-- R52, R95: an engine enters a body, or passes it whole when the window lets it. -/
def State.enterIf (s : State) (e : Engine) (len n : Nat) (go : State → State) : State :=
  if n = 0 && !s.me.inWindow e (2 + len) then s.stall e none else (go s).enterBody e len n

/-- BLOCK_HEADER_REG (R52): C samples the count and pushes it; another engine pops it. -/
def execBlockHeaderReg (l : BitVec 12) (r : BitVec 5) (s : State) : Out :=
  let e := s.actor
  if !s.mayRun e then .next s
  else if e = .c then
    let s1 := s.onMe (·.landTo .c (s.eng .c).clk)
    match (s1.eng .c).lateOf (s1.eng .c).clk [.s r] with
    | some f => .next (s.onLate .c f)
    | none =>
      let n := (s1.me.sreg r).toNat
      if !s1.me.headerOk .c l.toNat n then .next (s.framing .c)
      else if 32767 < n then .next (s.trapAt .c causeBounds 0 0 false)
      else
        match s1.pushHidden (s1.followers 0x1F) (.count n) with
        | none => .next (s.stall .c none)
        | some s2 => .next (s1.enterIf .c l.toNat n fun _ => s2)
  else
    match s.hbHead e with
    | none => .next (s.stall e none)
    | some (.branch _ _) => .next (s.trapAt e causeIllegal 0 0 false)
    | some (.count n) =>
      if !s.me.headerOk e l.toNat n then .next (s.framing e)
      else .next (s.enterIf e l.toNat n fun t => t.onEng e (·.hbPop))

/-- R51, R70: a register-count header with a reserved bit set: framing errors go first, and then the engine that has come to it traps as
itself, whichever that is (log entry 42). -/
def trapHeader (e : Engine) (len : Nat) (s : State) : Out :=
  if !s.mayRun e then .next s
  else if !s.me.headerOk e len 1 then .next (s.framing e)
  else .next (s.trapAt e causeReserved 0 0 false)

/-- R52: a block end at an engine's address: another pass, or the level closes. -/
def EngineState.blockEnd (x : EngineState) : EngineState :=
  match x.stack with
  | [] => x
  | l :: r =>
    if x.cur = l.last then
      if 1 < l.passes then { x with cur := l.body, stack := { l with passes := l.passes - 1 } :: r } else { x with stack := r }
    else x

/-- BLOCK_END (R52, R55) of engine `e`. -/
def execBlockEnd (e : BitVec 3) (s : State) : Out :=
  match engineOfTag e.toNat with
  | none => .next s
  | some e => if s.mayRun e && (s.eng e).pc == .seq then .next (s.onEng e (·.blockEnd)) else .next s

/-- R56: the engines that a timed no-op at `a` is attributed to: those of the nearest preceding word or reference in its block,
all where none precedes (log entry 8). The scan goes from the body's start over nested blocks. -/
def Group.attribution (g : Group) (e : Engine) (a : Nat) : Nat → Nat → BitVec 5 → BitVec 5
  | 0, _, m => m
  | n + 1, b, m =>
    if a ≤ b then m
    else
      let p := g.store.parcel b
      if p / 2 ^ 12 = 10 then
        let last := b + 4 + 2 * hdrLen (g.store.word b)
        if a < last then g.attribution e a n (b + 4) 0x1F else g.attribution e a n last m
      else if p / 2 ^ 13 = 6 then g.attribution e a n (b + 2) m
      else if p / 2 ^ 13 = 7 then g.attribution e a n (b + 2) (g.refMask e p)
      else g.attribution e a n (b + 4) (wordMask (g.store.word b))

/-- Whether a timed no-op at the engine's address is attributed to it. Log entry 8. -/
def Group.attributed (g : Group) (e : Engine) : Bool :=
  let x := g.engine e
  let b := match x.stack with
    | l :: _ => l.body
    | [] => 0
  inMask (g.attribution e x.cur (x.cur + 1) b 0x1F) e

/-- TIMED_NOP (R56), by the engine that acts. Log entry 8. -/
def execTimedNop (n : BitVec 13) (s : State) : Out :=
  let e := s.actor
  if !s.mayRun e then .next s
  else
    let k := if s.me.attributed e then n.toNat else 0
    .next ((s.passBytes e 2).onEng e fun x => { x with clk := x.clk + k })

/-- R56: the delay count of the item at an engine's address; a reference that stands for no word has none. -/
def Group.itemDelay (g : Group) (e : Engine) : BitVec 2 :=
  match (g.engine e).latch with
  | some (w, _) => bvf w.toNat 20 2
  | none =>
    let cur := (g.engine e).cur
    if parcelLen (g.store.parcel cur) = 2 then 0 else bvf (g.store.word cur) 20 2

/-- A trap of R70 that an item raises before its own conditions, whatever it is: an unassigned OP, a reserved field. -/
def trapItem (e : Engine) (cause : Nat) (s : State) : Out := issue e (s.me.itemDelay e) [] s fun _ _ => .trap cause 0 0

/-- UNASSIGNED_ITEM (R70, order 2). -/
def execUnassignedItem (e : BitVec 3) (s : State) : Out :=
  match engineOfTag e.toNat with
  | none => .next s
  | some e => trapItem e causeIllegal s

/-- DICTIONARY_REFERENCE (R62), by the engine that acts: the entry's word stands in its place for the next step. -/
def execDictionaryReference (i : BitVec 10) (s : State) : Out :=
  let e := s.actor
  if !s.mayRun e then .next s
  else
    match s.me.dictEntry e i.toNat with
    | none => if e = .c then trapItem .c causeIllegal s else .next (s.passBytes e 2)
    | some w =>
      if inMask (wordMask w.toNat) e then .next (s.onEng e fun x => { x with latch := some (w, 2) })
      else .next (s.passBytes e 2)

/-! ## DICTLD -/

/-- R64: C's copy is complete: every other engine that has not passed its own still sees the old entry. -/
def EngineState.dictDone (x : EngineState) (l : Option (Nat × Option (BitVec 32))) : EngineState :=
  if x.dictOwed = 0 then { x with dictq := x.dictq ++ [l] } else { x with dictOwed := x.dictOwed - 1 }

/-- R64: tell the followers of C's completed copy. -/
def State.dictTell (s : State) (l : Option (Nat × Option (BitVec 32))) : State :=
  ((s.followers 0x1F).filter fun e => !(s.eng e).stopped).foldl (fun t e => t.onEng e fun x => x.dictDone l) s

/-- R63, R64: load an entry of the dictionary. -/
def Store.loadDict (m : Store) (e : Nat) (w : BitVec 32) : Store :=
  { m with dict := if loadable w.toNat then assocSet m.dict e w else assocDrop m.dict e }

/-- R64: an annulled copy. Log entry 42. -/
def dictldQuiet (e : Engine) (s : State) : Effect :=
  if e = .c then .done (s.dictTell none)
  else .done (s.onEng e fun x => match x.dictq with
    | [] => { x with dictOwed := x.dictOwed + 1 }
    | _ :: r => { x with dictq := r })

/-- DICTLD (R64). -/
def execDictld (y : BitVec 2) (a : BitVec 5) (k : BitVec 10) (s : State) : Out :=
  let e := s.actor
  if e = .c then
    issueWith (dictldQuiet .c) .c y [.s a] s fun s _ =>
      ofChk (s.me.record (s.me.sreg a).toNat 4 4) fun bs =>
        let s1 := s.dictTell (some (k.toNat, assocGet s.me.store.dict k.toNat))
        .done (s1.onMe fun g => { g with store := g.store.loadDict k.toNat (BitVec.ofNat 32 (leVal bs)) })
  else
    issueWith (dictldQuiet e) e y [] s fun s _ =>
      match (s.eng e).dictq with
      | [] => .wait
      | _ :: r => .done (s.onEng e fun x => { x with dictq := r })

/-! ## Branches -/

/-- R69: the address that offsets count from: the branch's own, or that of its dictionary reference or of the item that BRKWORD
replaces (R62, R222). -/
def State.branchBase (s : State) (e : Engine) : Nat := (s.eng e).cur

/-- B.cc and B.cc.a (R87): taken if s[d] cc s[a]; the annulling form cancels its slots when not taken (R85). -/
def branchCc (annul : Bool) (c : BitVec 3) (y : BitVec 2) (d a : BitVec 5) (k : BitVec 10) (s : State) : Out :=
  issuePre (causeIf (condOf c.toNat).isNone causeIllegal) .c y [.s d, .s a] s fun s _ =>
    match condOf c.toNat with
    | none => .trap causeIllegal 0 0
    | some c =>
      if c.holds (s.me.sreg d) (s.me.sreg a) then .branch s (some (.jump, branchTo (s.branchBase .c) k.toInt)) false
      else .branch s none annul

/-- B.cc (R87). -/
def execBCc (c : BitVec 3) (y : BitVec 2) (d a : BitVec 5) (k : BitVec 10) (s : State) : Out := branchCc false c y d a k s

/-- B.cc.a (R87). -/
def execBCcA (c : BitVec 3) (y : BitVec 2) (d a : BitVec 5) (k : BitVec 10) (s : State) : Out := branchCc true c y d a k s

/-- BR (R87). -/
def execBr (y : BitVec 2) (k : BitVec 20) (s : State) : Out :=
  issue .c y [] s fun s _ => .branch s (some (.jump, branchTo (s.branchBase .c) k.toInt)) false

/-- R88: the first block header above an address, items lying back to back. -/
def Store.headerAbove (m : Store) : Nat → Nat → Option Nat
  | 0, _ => none
  | n + 1, a =>
    let b := a + parcelLen (m.parcel a)
    if m.tlen ≤ a ∨ m.tlen ≤ b then none else if m.isHeader b then some b else m.headerAbove n b

/-- R54: the levels left open when an engine goes to `t`; the level whose header stands at `t` closes as well. -/
def popLevels (t : Nat) (header : Bool) : List Level → List Level
  | [] => []
  | l :: r => if l.body ≤ t ∧ t < l.last ∧ !(header && l.body == t + 4) then l :: r else popLevels t header r

/-- The first item of C at or behind a position, with the block stack there. -/
def Group.itemAtPos (g : Group) (p : Pos) (from_ : Nat × List Level) : Nat × List Level :=
  match p with
  | .seq => g.ahead .c from_.1 from_.2
  | .item a => (a, popLevels a false from_.2)
  | .target _ t => g.ahead .c t (popLevels t true from_.2)

/-- R88: the address of the second slot of a branch that C issues now. -/
def Group.secondSlot (g : Group) : Nat :=
  let c := g.eng.c
  let p1 := g.itemAtPos c.pc1 (c.cur + g.itemLen .c, c.stack)
  (g.itemAtPos c.pc2 (p1.1 + parcelLen (g.store.parcel p1.1), p1.2)).1

/-- R88: the link address of a CALL. -/
def Group.linkAddr (g : Group) : BitVec 64 :=
  match g.store.headerAbove (g.store.tlen + 1) g.secondSlot with
  | some a => BitVec.ofNat 64 a
  | none => 0xFFFFFFFFFFFFFFFF

/-- CALL (R87, R88): it sets s31; in a delay slot it is ILLEGAL; with 8 frames held it is BOUNDS. Log entry 42. -/
def execCall (y : BitVec 2) (k : BitVec 20) (s : State) : Out :=
  issue .c y [] s fun s t =>
    if (s.eng .c).slots ≠ 0 then .trap causeIllegal 0 0
    else if 8 ≤ s.me.frames.length then .trap causeBounds 0 0
    else .branch (s.result .c (.s 31) (.word s.me.linkAddr) t 1)
      (some (.call, branchTo (s.branchBase .c) k.toInt)) false

/-- RET (R87, R88): to s31; ILLEGAL in a delay slot or with no frame held. -/
def execRet (y : BitVec 2) (s : State) : Out :=
  issue .c y [.s 31] s fun s _ =>
    if (s.eng .c).slots ≠ 0 ∨ s.me.frames.isEmpty then .trap causeIllegal 0 0
    else .branch s (some (.ret, (s.me.sreg 31).toNat)) false

/-- JR (R87): to the text address in s[d]. -/
def execJr (y : BitVec 2) (d : BitVec 5) (s : State) : Out :=
  issue .c y [.s d] s fun s _ => .branch s (some (.jump, (s.me.sreg d).toNat)) false

/-! ## Branches of all engines -/

/-- R85, R90: an annulled copy of a BEM: C pushes a not-taken, non-annulling outcome; another engine pops its outcome
(log entry 25). -/
def bemQuiet (e : Engine) (mask : BitVec 5) (s : State) : Effect :=
  if e = .c then
    match s.pushHidden (s.followers mask) (.branch false false) with
    | none => .wait
    | some s1 => .done s1
  else
    match s.hbHead e with
    | none => .wait
    | some (.count _) => .trap causeIllegal 0 0
    | some (.branch _ _) => .done (s.onEng e (·.hbPop))

/-- BEM (R69, R90): registers s0 to s15; `m` holds mask bits [18:15] and bit [19] is set. Log entry 25. -/
def execBem (c : Cond) (annul : Bool) (y : BitVec 2) (m f g : BitVec 4) (o : BitVec 7) (s : State) : Out :=
  let e := s.actor
  let mask : BitVec 5 := 0x10 ||| m.setWidth 5
  if e = .c then
    let ra : BitVec 5 := f.setWidth 5
    let rb : BitVec 5 := g.setWidth 5
    issueWith (bemQuiet .c mask) .c y [.s ra, .s rb] s fun s _ =>
      let take := c.holds (s.me.sreg ra) (s.me.sreg rb)
      match s.pushHidden (s.followers mask) (.branch take annul) with
      | none => .wait
      | some s1 =>
        if take then .branch s1 (some (.jump, branchTo (s.branchBase .c) o.toInt)) false else .branch s1 none annul
  else
    issueWith (bemQuiet e mask) e y [] s fun s _ =>
      match s.hbHead e with
      | none => .wait
      | some (.count _) => .trap causeIllegal 0 0
      | some (.branch take ann) =>
        let s1 := s.onEng e (·.hbPop)
        if take then .branch s1 (some (.jump, branchTo (s.branchBase e) o.toInt)) false else .branch s1 none ann

/-- BEM.eq (R90). -/
def execBemEq (y : BitVec 2) (m f g : BitVec 4) (o : BitVec 7) (s : State) : Out := execBem .eq false y m f g o s

/-- BEM.eq.a (R90). -/
def execBemEqA (y : BitVec 2) (m f g : BitVec 4) (o : BitVec 7) (s : State) : Out := execBem .eq true y m f g o s

/-- BEM.ne (R90). -/
def execBemNe (y : BitVec 2) (m f g : BitVec 4) (o : BitVec 7) (s : State) : Out := execBem .ne false y m f g o s

/-- BEM.ne.a (R90). -/
def execBemNeA (y : BitVec 2) (m f g : BitVec 4) (o : BitVec 7) (s : State) : Out := execBem .ne true y m f g o s

/-- BEM.lt (R90). -/
def execBemLt (y : BitVec 2) (m f g : BitVec 4) (o : BitVec 7) (s : State) : Out := execBem .lt false y m f g o s

/-- BEM.lt.a (R90). -/
def execBemLtA (y : BitVec 2) (m f g : BitVec 4) (o : BitVec 7) (s : State) : Out := execBem .lt true y m f g o s

/-- BEM.le (R90). -/
def execBemLe (y : BitVec 2) (m f g : BitVec 4) (o : BitVec 7) (s : State) : Out := execBem .le false y m f g o s

/-- BEM.le.a (R90). -/
def execBemLeA (y : BitVec 2) (m f g : BitVec 4) (o : BitVec 7) (s : State) : Out := execBem .le true y m f g o s

/-- BEM.ltn (R90). -/
def execBemLtn (y : BitVec 2) (m f g : BitVec 4) (o : BitVec 7) (s : State) : Out := execBem .ltn false y m f g o s

/-- BEM.ltn.a (R90). -/
def execBemLtnA (y : BitVec 2) (m f g : BitVec 4) (o : BitVec 7) (s : State) : Out := execBem .ltn true y m f g o s

/-- BEM.len (R90). -/
def execBemLen (y : BitVec 2) (m f g : BitVec 4) (o : BitVec 7) (s : State) : Out := execBem .len false y m f g o s

/-- BEM.len.a (R90). -/
def execBemLenA (y : BitVec 2) (m f g : BitVec 4) (o : BitVec 7) (s : State) : Out := execBem .len true y m f g o s

/-! ## Queue instructions -/

/-- QPUSH (R92). -/
def execQpush (y : BitVec 2) (d : BitVec 4) (a : BitVec 5) (s : State) : Out :=
  issue .c y [.s a] s fun s _ => (s.queuePush .c d (s.me.sreg a)).then fun _ s1 => .done s1

/-- QPOP (R92): latency 2 cy (R78). -/
def execQpop (y : BitVec 2) (d : BitVec 5) (a : BitVec 4) (s : State) : Out :=
  issue .c y [] s fun s t => (s.queuePop .c a).then fun v s1 => .done (s1.result .c (.s d) (.word v) t 2)

/-- QPEEK (R92). -/
def execQpeek (y : BitVec 2) (d : BitVec 5) (a : BitVec 4) (s : State) : Out :=
  issue .c y [] s fun s t => (s.queuePeek .c a).then fun v s1 => .done (s1.result .c (.s d) (.word v) t 2)

/-- R91: the engine of a one-hot mask. -/
def oneHot (m : BitVec 5) : Option Engine := allEngines.find? fun e => e.bit == m

/-- QBIND (R91): a mask that is not one-hot, one engine twice, or a bound queue that holds entries is QUEUE_CFG. -/
def execQbind (y : BitVec 2) (d : BitVec 4) (p k : BitVec 5) (s : State) : Out :=
  issue .c y [] s fun s _ =>
    match oneHot p, oneHot k with
    | some prod, some cons =>
      if prod = cons ∨ ((s.me.queue d).bind.isSome ∧ !(s.me.queue d).entries.isEmpty) then .trap causeQueueCfg 0 0
      else .done (s.onMe (·.setQueue d { (s.me.queue d) with bind := some (prod, cons) }))
    | _, _ => .trap causeQueueCfg 0 0

end Sys2Proof.Machine
end

