-- ==== Sys2Proof/Machine/Launches.lean ====
section
/-! DEFINITION. The start of queue entries (14_queue R276 to R278) and of kernels (15_kernel R287, R288, R294, R295). -/

namespace Sys2Proof.Machine

/-! ## Kernel descriptors -/

/-- Bytes of a virtual range for an agent of the front end: nothing where a page of it is unmapped, the state that asks for lines
of other modules where some have yet to come. -/
def State.fetchRange (s : State) (ag : Agent) (ctx va n : Nat) : Except State (List Byte) :=
  let l : Loc := .virt ctx va
  if n = 0 || !l.fits n || !s.rangeMapped l n then .ok []
  else
    let (ready, s1) := s.gather ag l n
    if ready then .ok (s.locBytes ag l n) else .error s1

/-- R287: the fields of a descriptor. -/
def kdescOf (r : List Byte) : KDesc :=
  let f := recField r
  { kernid := BitVec.ofNat 64 (f 0 8), text := f 8 8, tlen := f 16 4, dcount := f 20 2, csize := f 22 1, resident := bitsOf (f 23 1) 0 1 == 1
    dict := f 24 8, data := f 32 8, dlen := f 40 4, argw := f 44 1, trig := ctrField (f 46 2), tthresh := BitVec.ofNat 64 (f 48 8)
    qmap := (r.drop 56).take 16, dargs := f 72 8, calg := f 80 4, calrid := f 84 2, cctr := ctrField (f 86 2) }

/-- R287, R288: a queue-binding byte. -/
def bindOk (b : BitVec 8) : Bool :=
  !b.getLsbD 6 && (!b.getLsbD 7 || (decide (bitsOf b.toNat 3 3 ≤ 4) && decide (bitsOf b.toNat 0 3 ≤ 4) &&
    bitsOf b.toNat 3 3 != bitsOf b.toNat 0 3))

/-- R288: reserved bits and ranges of a descriptor. -/
def kdescFieldsOk (r : List Byte) : Bool :=
  let f := recField r
  let k := kdescOf r
  r.length == 128 && f 23 1 / 2 == 0 && f 45 1 == 0 && bitsOf (f 46 2) 12 3 == 0 && bitsOf (f 86 2) 12 3 == 0 && recZero r 88 40 &&
    k.text % 32 == 0 && decide (4 ≤ k.tlen) && decide (k.tlen ≤ 2 ^ 24) && k.tlen % 2 == 0 && decide (k.dcount ≤ 1024) &&
    decide (1 ≤ k.csize) && decide (k.csize ≤ 16) && k.dict % 4 == 0 && (k.dcount != 0 || k.dict == 0) &&
    decide (k.dlen ≤ 2 ^ 26) && (k.dlen != 0 || k.data == 0) && decide (k.argw ≤ 8) && k.qmap.all bindOk

/-- R288: a range of a launch is mapped; an empty one needs nothing. Log entry 36. -/
def State.launchRange (s : State) (ctx va n : Nat) : Bool :=
  n == 0 || ((Loc.virt ctx va).fits n && s.rangeMapped (.virt ctx va) n)

/-- R288: the descriptor check of a launch of `g` groups with an argument block. Log entry 36. -/
def State.kdescOk (s : State) (ctx : Nat) (c : Context) (r : List Byte) (g args : Nat) : Bool :=
  let k := kdescOf r
  kdescFieldsOk r && g != 0 && g % k.csize == 0 && (!k.resident || decide (g ≤ s.part.cores.length)) && k.trig.all c.grants &&
    s.launchRange ctx k.text k.tlen && s.launchRange ctx k.dict (4 * k.dcount) && s.launchRange ctx k.data k.dlen &&
    s.launchRange ctx args (8 * k.argw)

/-- R295, R298: a launch whose descriptor has passed; the trigger is evaluated as the wait begins. -/
def State.newLaunch (s : State) (ctx : Nat) (queue : Option Nat) (entry rid args g : Nat) (kd : KDesc) : Launch :=
  { Launch.fresh s.fe.nextLaunch ctx queue entry rid args g kd (if kd.trig.isSome then .trigger else .placing) with
    met := kd.trig.any fun n => decide (kd.tthresh ≤ s.ctr n) }

def State.addLaunch (s : State) (l : Launch) : State :=
  { s with fe := { s.fe with launches := s.fe.launches ++ [l], nextLaunch := s.fe.nextLaunch + 1 } }

/-! ## The next entry -/

/-- The next entry of a queue that the front end may take (R268, R273, R277): the queue, its bytes, what they depend on. -/
structure Next where
  h : HQueue
  c : Context
  r : List Byte
  dep : DepSt

/-- R277: the next entry of an ACTIVE queue of a READY context; one that is no valid entry has no DEP. Log entry 36. -/
def State.nextEntry (s : State) (q : Nat) : Option Next :=
  match s.hq q with
  | none => none
  | some h =>
    match s.ctx h.ctx with
    | none => none
    | some c =>
      if h.st != .active || c.st != .ready || decide (s.tail h ≤ h.head) || s.overrun h then none
      else
        let r := s.entryBytes h h.head
        let prev := if (eHead r).waitprev ∧ h.head ≠ 0 then h.depSt (h.head - 1) else .met
        some ⟨h, c, r, if entryOk c r then s.depsOf h h.head r else prev⟩

/-- R277: an entry that can start now. -/
def Next.canStart (x : Next) : Bool := x.dep != .waits

def Next.isLaunch (x : Next) : Bool := (eHead x.r).typ == 1

/-! ## LAUNCH -/

/-- R276, R288, R294: a LAUNCH entry starts, or completes with the status of the check that it fails. -/
def State.startLaunch (s : State) (q : Nat) (x : Next) : State :=
  let f := recField x.r
  let ctx := x.h.ctx
  let kva := f 16 8
  if x.dep = .bad then s.cancelNext q
  else if !entryOk x.c x.r then s.takeAndEnd q .badentry
  else
    match s.acceptRegion ctx (f 36 2) with
    | none => s.takeAndEnd q .badrcb
    | some s1 =>
      match s1.fetchRange (.queue q) ctx kva 128 with
      | .error t => t
      | .ok r =>
        let s2 := s1.dropLines (.queue q)
        if kva % 64 ≠ 0 ∨ !s2.kdescOk ctx x.c r (f 32 4) (f 24 8) then s2.takeAndEnd q .badentry
        else
          let l := s2.newLaunch ctx (some q) x.h.head (f 36 2) (f 24 8) (f 32 4) (kdescOf r)
          ((s2.takeEntry q none).addLaunch l).onHq q fun h =>
            { h with entries := h.entries.map fun e => if e.index = x.h.head then { e with launch := some l.id } else e }

/-- LAUNCH can happen. -/
def State.launchEnabled (s : State) (q : Nat) : Option Next := (s.nextEntry q).filter fun x => x.canStart && x.isLaunch

/-- LAUNCH (R276). -/
def execLaunch (queue : BitVec 10) (s : State) : Out :=
  let t := s.noteOverrun
  match t.launchEnabled queue.toNat with
  | none => .next t
  | some x => .next (t.startLaunch queue.toNat x)

/-- KERNEL_TRIGGER_MET can happen (R268: in a READY context). -/
def State.triggerMet (s : State) (id : Nat) : Bool :=
  (s.launch id).any fun l => l.st == .trigger && l.met && (s.ctx l.ctx).any (·.ready)

/-- KERNEL_TRIGGER_MET (R295, R298). -/
def execKernelTriggerMet (launch : Nat) (s : State) : Out :=
  if s.triggerMet launch then .next (s.onLaunch launch fun l => { l with st := .placing }) else .next s

/-! ## STEP, WAIT, SIGNAL, HOSTNOTE -/

/-- R276: post work entries in order, as WQPOST does; whether all could be. -/
def postList (ctx : Nat) (nivose : Bool) : List (List Byte) → State → State × Bool
  | [], s => (s, true)
  | r :: l, s =>
    match s.entryCheck ctx nivose r with
    | .error _ => (s, false)
    | .ok w =>
      if w.lbase.toNat / 2 ^ 62 != 0 || (s.entryStrap ctx w).isSome then (s, false)
      else postList ctx nivose l (s.arm ctx (armedSlot w none 0 0))

/-- STEP (R276). -/
def State.startStep (s : State) (q : Nat) (x : Next) : State :=
  let n := recField x.r 24 2
  match s.fetchRange (.queue q) x.h.ctx (recField x.r 16 8) (64 * n) with
  | .error t => t
  | .ok r =>
    if r.isEmpty then s.takeAndEnd q .badentry
    else
      let (s1, ok) := postList x.h.ctx x.c.root.nivose ((List.range n).map fun i => (r.drop (64 * i)).take 64)
        (s.dropLines (.queue q))
      s1.takeAndEnd q (if ok then .ok else .badentry)

/-- WAIT (R276). -/
def State.startWait (s : State) (q : Nat) (x : Next) : State :=
  let n := bitsOf (recField x.r 16 2) 0 12
  let th := BitVec.ofNat 64 (recField x.r 24 8)
  if th ≤ s.ctr n then s.takeAndEnd q .ok else s.takeEntry q (some (n, th))

/-- R210, R276: an interrupt for a group of a launch of the queue; one for a group that is not placed is dropped. -/
def State.raiseIrq (s : State) (q kidx gidx : Nat) : State :=
  match (s.launchesOf q).find? fun l => l.entry == kidx with
  | none => s
  | some l => s.mapGroups fun g =>
      if g.ident.launch = l.id ∧ g.ident.index = gidx ∧ g.phase.isPlaced ∧ !g.phase.isEnded then
        { g with work := { g.work with irq := true } }
      else g

/-- SIGNAL (R276, R278). -/
def State.startSignal (s : State) (q : Nat) (x : Next) : State :=
  let f := recField x.r
  let s1 := s.addCtrOpt (ctrField (f 16 2)) (BitVec.ofNat 64 (f 24 8)) 5
  (if f 32 1 = 1 then s1.raiseIrq q (f 40 8) (f 36 4) else s1).takeAndEnd q .ok

/-- HOSTNOTE (R276, R370). -/
def State.startNote (s : State) (q : Nat) (x : Next) : State :=
  let a := recField x.r 16 8
  ((s.hostPut a (leBytes 8 (recField x.r 24 8))).event 4 x.h.ctx 0 a).takeAndEnd q .ok

/-- R276, R277, R279: an entry that is no LAUNCH starts. -/
def State.startEntry (s : State) (q : Nat) (x : Next) : State :=
  if x.dep = .bad then s.cancelNext q
  else if !entryOk x.c x.r then s.takeAndEnd q .badentry
  else
    match (eHead x.r).typ with
    | 2 => s.startStep q x
    | 3 => s.startWait q x
    | 4 => s.startSignal q x
    | _ => s.startNote q x

end Sys2Proof.Machine
end

