-- ==== Sys2Proof/Machine/Placement.lean ====
section
/-! DEFINITION. Placement (15_kernel R289 to R293), the choice of a queue (14_queue R283 to R285), pre-emption and resumption
(16_group R303, R305). -/

namespace Sys2Proof.Machine

/-! ## Free cores -/

/-- R291: the cores of an aligned 4 × 4 block, ascending; blocks 2d and 2d + 1 lie on die d. Log entry 35. -/
def blockCores (b : Nat) : List Nat :=
  (List.range 16).map fun i => b / 2 * 32 + i / 4 * 8 + b % 2 * 4 + i % 4

/-- R296: a core is kept for a calendar launch. -/
def State.calendarHolds (s : State) (core : Nat) : Bool :=
  (s.fe.calendar.any fun e => e.core == core && decide (e.tick ≤ s.time.now + 50000)) ||
    s.fe.launches.any fun l => l.cores.any fun p => p.2 == core

/-- A present core that holds no group. -/
def State.isIdle (s : State) (core : Nat) : Bool := s.part.hasCore core && (s.groupOn core).isNone

/-- R293, R296: a core that groups may be given; a launch may take what it has reserved. -/
def State.coreFree (s : State) (id : Option Nat) (core : Nat) : Bool :=
  s.isIdle core && !s.calendarHolds core && s.fe.reserved.all fun r => r.1 != core || some r.2 == id

/-- A list cut into pieces of `n`; what is left over is dropped. Log entry 35. -/
def piecesOfLen (n : Nat) (l : List Nat) : List (List Nat) := (List.range (l.length / n)).map fun i => (l.drop (n * i)).take n

/-- R291: cores for `k` clusters of `n`, each within one block; the lowest fit (log entry 35). -/
def State.allot (s : State) (id : Option Nat) (k n : Nat) : Option (List (List Nat)) :=
  let l := (List.range 8).flatMap fun b => piecesOfLen n ((blockCores b).filter (s.coreFree id))
  if k ≤ l.length then some (l.take k) else none

/-- R304: the save areas in use. -/
def State.areasUsed (s : State) : Nat := s.fe.areas.length

/-- R304: the lowest area that no group owns. -/
def State.freeArea (s : State) : Nat :=
  ((List.range (s.fe.areas.length + 1)).find? fun n => s.fe.areas.all fun a => a.num != n).getD 0

/-! ## Placing a group -/

/-- R6, R287: the engines that a queue-binding byte binds. -/
def bindOf (b : BitVec 8) : Option (Engine × Engine) :=
  if b.getLsbD 7 then
    match engineOfTag (bitsOf b.toNat 3 3), engineOfTag (bitsOf b.toNat 0 3) with
    | some p, some e => some (p, e)
    | _, _ => none
  else none

/-- R218, R271: the identity registers. -/
def placedRegs (k : Context) (l : Launch) (index : Nat) : SysRegs :=
  { SysRegs.placed with
    kernid := l.kd.kernid
    grpidx := BitVec.ofNat 64 index
    crank := BitVec.ofNat 64 (index % l.kd.csize + 2 ^ 4 * l.kd.csize)
    ctxinfo := BitVec.ofNat 64 (k.prio l.rid * 2 ^ 32 + l.rid * 2 ^ 16 + (if k.root.syspriv then 2 ^ 9 else 0) +
      (if k.root.nivose then 2 ^ 8 else 0) + l.ctx) }

/-- R289, steps 1 and 5: a group on its core, with zeroed storage. -/
def placedGroup (k : Context) (l : Launch) (index core now : Nat) : Group :=
  let g := Group.blank core
  { g with
    ident := ⟨l.id, index, index % l.kd.csize, l.kd.csize, core, l.ctx⟩
    phase := .placing, prior := .placing
    sys := placedRegs k l index
    time := { g.time with start := now, lastIssue := now } }

/-- A group comes in; a group in focus that has left its core goes. -/
def State.putGroup (s : State) (g : Group) : State :=
  if s.me.phase.isPlaced then { s with rest := s.rest ++ [g] } else { s with me := g }

/-- R363: the records that stand in the core's buffer for the context, then START. -/
def Group.startTrace (g : Group) (old : List TraceSrc) : Group :=
  let l := (old.filter fun x => x.core == some g.ident.core)
  let g1 : Group := { g with work := { g.work with
    trace := (l.flatMap (·.recs)).take 128
    losses := l.foldl (fun n x => n + x.losses) 0 } }
  g1.traceAdd
    { typ := 4, engine := 5, k := BitVec.ofNat 8 g.ident.core, group := BitVec.ofNat 32 g.ident.index, seq := 0, cycle := 0
      data := g.sys.kernid }

/-- Place group `index` of a launch; it is given a save area (R299, R304). -/
def State.placeGroup (s : State) (l : Launch) (index core : Nat) : State :=
  match s.ctx l.ctx with
  | none => s
  | some c =>
    let g := (placedGroup c l index core s.time.now).startTrace c.sources
    let s1 := (s.putGroup g).onCtx l.ctx fun c => { c with sources := c.sources.filter fun x => x.core != some core }
    let s2 := s1.onLaunch l.id fun l => { l with begun := l.begun || index == 0 }
    { s2 with fe := { s2.fe with areas := s2.fe.areas ++ [⟨s.freeArea, l.id, index, none, none, none, none⟩] } }

/-- R298: groups of a launch have been placed. -/
def Launch.nowPlaced (l : Launch) (n : Nat) : Launch :=
  let l1 : Launch := { l with placed := l.placed + n }
  { l1 with st := if l1.st = .placing ∧ l1.unplaced.isEmpty then .running else l1.st }

/-- Place clusters from the next one on. -/
def State.placeClusters (s : State) (l : Launch) (cs : List (List Nat)) : State :=
  let cores := cs.flatten
  let s1 := (List.range cores.length).foldl (fun t i => t.placeGroup l (l.placed + i) (cores.getD i 0)) s
  (s1.dropReserved l.id).onLaunch l.id fun l => l.nowPlaced cores.length

/-! ## What placement reads -/

/-- R289, steps 2 to 4 and 6: what a group takes from text, images and arguments. -/
structure Images where
  text : List Byte
  dict : List Byte
  data : List Byte
  args : List Byte
  deriving DecidableEq, Repr

/-- R289: the images of a launch; the state that asks for lines of other modules where some have yet to come. -/
def State.images (s : State) (l : Launch) : Except State Images := do
  let ag := Agent.launch l.id
  let text ← s.fetchRange ag l.ctx l.kd.text l.kd.tlen
  let dict ← s.fetchRange ag l.ctx l.kd.dict (4 * l.kd.dcount)
  let data ← s.fetchRange ag l.ctx l.kd.data l.kd.dlen
  let args ← s.fetchRange ag l.ctx l.args (8 * l.kd.argw)
  return ⟨text, dict, data, args⟩

/-- R289: the scalar registers of the argument convention. -/
def argRegs (l : Launch) (index : Nat) (args : List Byte) (s : Vector (BitVec 64) 32) : Vector (BitVec 64) 32 :=
  let s1 := ((s.set 1 (BitVec.ofNat 64 l.args)).set 2 (BitVec.ofNat 64 index)).set 3 (BitVec.ofNat 64 l.g)
  (List.range l.kd.argw).foldl (fun t i => t.setIfInBounds (4 + i) (BitVec.ofNat 64 (recField args (8 * i) 8))) s1

/-- R63, R289: the dictionary that an image gives: a word that cannot stand in it leaves its entry unloaded. -/
def dictOf (image : List Byte) : List (Nat × BitVec 32) :=
  ((List.range (image.length / 4)).filter fun e => loadable (recField image (4 * e) 4)).map fun e =>
    (e, BitVec.ofNat 32 (recField image (4 * e) 4))

/-- R289, R290: a group loads its images; the text is a copy (log entry 5). -/
def Group.load (g : Group) (l : Launch) (x : Images) : Group :=
  { g with
    prior := .running
    store := { g.store with
      spad := memPut g.store.spad 0 x.data
      text := memPut [] 0 x.text, tlen := l.kd.tlen, textVa := l.kd.text
      dict := dictOf x.dict }
    queues := g.queues.mapIdx fun i q => { q with bind := bindOf (l.kd.qmap.getD i 0) }
    cr := { g.cr with s := argRegs l g.ident.index x.args g.cr.s } }

/-- R227, R280, R299: a group is RUNNING; C of a calendar group issues nothing before TICK (R296). Log entry 50. -/
def Group.run (g : Group) (now : Nat) (tick : Option Nat) : Group :=
  let t := max now (tick.getD 0)
  { g with phase := .running, time := { g.time with start := t, lastIssue := t, hold := tick } }

/-- A group of a launch and cluster in PLACING. -/
def Group.isPlacing (g : Group) (launch cluster : Nat) : Bool :=
  g.phase == .placing && g.ident.launch == launch && g.ident.cluster == cluster

/-- PLACEMENT_COMPLETE can happen: the images of a cluster's groups are not loaded, and no line of them is awaited. -/
def State.placingEnabled (s : State) (launch cluster : Nat) : Bool :=
  (s.launch launch).isSome && (s.groups.any fun g => g.isPlacing launch cluster) && !s.awaits (.launch launch)

/-- R248, R289, R299: the members load, and run once all have. Log entry 56. -/
def State.finishPlacing (s : State) (l : Launch) (cluster : Nat) : State :=
  match s.images l with
  | .error t => t
  | .ok x =>
    (s.mapGroups fun g => if g.isPlacing l.id cluster then (g.load l x).run s.time.now l.tick else g).dropLines (.launch l.id)

/-- PLACEMENT_COMPLETE (R289, R299). -/
def execPlacementComplete (launch cluster : Nat) (s : State) : Out :=
  if !s.placingEnabled launch cluster then .next s
  else
    match s.launch launch with
    | none => .next s
    | some l => .next (s.finishPlacing l cluster)

/-! ## A group that changes its core -/

def moveCore (a b core : Nat) : Nat := if core = a then b else core

def Loc.move (a b : Nat) : Loc → Loc
  | .virt c va => .virt c va
  | .spad core x => .spad (moveCore a b core) x
  | .acc core w => .acc (moveCore a b core) w

def JobKind.move (a b : Nat) : JobKind → JobKind
  | .copy n src dst => .copy n (src.move a b) (dst.move a b)
  | .transpose ew r c src dst sp dp => .transpose ew r c (src.move a b) (dst.move a b) sp dp
  | .h f e k pf acc n nb op x y o => .h f e k pf acc n nb op (x.move a b) (y.map (·.move a b)) (o.move a b)

def Agent.move (a b : Nat) : Agent → Agent
  | .job core n => .job (moveCore a b core) n
  | x => x

def AtPlace.move (a b : Nat) : AtPlace → AtPlace
  | .spad core x => .spad (moveCore a b core) x
  | p => p

/-- What a group holds that names cores. -/
def Group.move (a b : Nat) (g : Group) : Group :=
  { g with
    ident := { g.ident with core := moveCore a b g.ident.core }
    work := { g.work with
      jobs := g.work.jobs.map fun j =>
        { j with kind := j.kind.move a b, foots := j.foots.map fun f => { f with base := f.base.move a b } }
      pend := g.work.pend.map fun p => { p with core := moveCore a b p.core } } }

def PendAtomic.move (a b : Nat) (x : PendAtomic) : PendAtomic := { x with core := moveCore a b x.core, place := x.place.move a b }

/-- R303, R305: the group with core number `a` takes the number `b`, in all that names it. Log entry 22. -/
def State.moveGroup (s : State) (a b : Nat) : State :=
  let m := moveCore a b
  let f (x : Option Nat) : Option Nat := x.map m
  let ag (x : Option Agent) : Option Agent := x.map (·.move a b)
  let s1 := s.mapGroups (·.move a b)
  { s1 with
    mem := { s1.mem with
      atomics := s1.mem.atomics.map (·.move a b)
      closing := s1.mem.closing.map fun (c : Closing) => { c with atomics := c.atomics.map (·.move a b) } }
    pages :=
      { s1.pages with
        held := s1.pages.held.map fun (w : HeldWrite) => { w with core := f w.core, agent := ag w.agent, rmw := w.rmw.map (·.move a b) }
        swaps := s1.pages.swaps.map fun x => { x with core := m x.core } }
    links :=
      { s1.links with
        fwds := s1.links.fwds.map fun (x : Fwd) => { x with core := f x.core, agent := ag x.agent }
        settling := s1.links.settling.map fun (x : Settling) => { x with core := f x.core, agent := ag x.agent }
        lines := s1.links.lines.map fun (x : Line) => { x with agent := x.agent.move a b }
        gone := s1.links.gone.map fun x => (x.1.move a b, x.2)
        qps := s1.links.qps.map fun (q : QPair) => { q with recs := q.recs.map fun (r : FireRec) => { r with core := f r.core } } } }

/-- R285: the groups that move together with a group: its cluster, or the whole of a RESIDENT kernel; by group index.
Log entry 56. -/
def State.unitOf (s : State) (i : Ident) : List Group :=
  let whole := (s.launch i.launch).any fun l => l.kd.resident
  sortBy (fun x y => decide (x.ident.index < y.ident.index))
    (s.groups.filter fun g => g.phase.isPlaced && (if whole then g.ident.launch == i.launch else sameCluster g.ident i))

/-! ## Ready queues -/

/-- R284: what the front end does when it serves a queue: resume groups, place clusters, reserve cores, start an entry. -/
inductive Serve where
  | resume (groups : List Group) (cores : List Nat)
  | place (l : Launch) (cores : List (List Nat))
  | reserve (l : Launch) (cores : List Nat)
  | entry (x : Next)

/-- R285, R305: the first groups of a queue that are pre-empted. Log entry 56. -/
def State.awayUnit (s : State) (q : Nat) : Option (List Group) :=
  let ids := (s.launchesOf q).map (·.id)
  let away := sortBy (fun x y => decide (x.ident.launch < y.ident.launch ∨ (x.ident.launch = y.ident.launch ∧ x.ident.index < y.ident.index)))
    (s.groups.filter fun g => g.phase == .preempted && ids.contains g.ident.launch)
  away.head?.map fun g => s.unitOf g.ident

/-- R277: the LAUNCH of a queue whose groups are placed next. -/
def State.currentLaunch (s : State) (q : Nat) : Option Launch := (s.launchesOf q).find? fun l => !l.unplaced.isEmpty

/-- R286, ORDERED: how far a group lies beyond the first position that is not reported. -/
def State.beyondReport (s : State) (q : Nat) (l : Launch) (index : Nat) : Nat :=
  let before := ((s.launchesOf q).filter fun x => x.id < l.id).foldl (fun n x => n + (x.g - x.reported)) 0
  before + index - l.reported

/-- The clusters that one unit of placement takes (R292, R293). -/
def Launch.clusters (l : Launch) : Nat := if l.kd.resident then l.g / l.kd.csize else 1

/-- R265, R267, R286: whatever else than cores and save areas placement needs. -/
def State.placeable (s : State) (q : Nat) (h : HQueue) (l : Launch) : Bool :=
  l.st == .placing && ((s.ctx l.ctx).any fun c => c.st == .ready && !c.exhausted l.rid && !c.exhausted h.rid) &&
    (!h.ordered || !h.crep || decide (s.beyondReport q l (l.placed + l.clusters * l.kd.csize - 1) < 256))

/-- R304: save areas are free for what one unit of placement takes. -/
def State.hasAreas (s : State) (l : Launch) : Bool := decide (s.areasUsed + l.clusters * l.kd.csize ≤ s.boot.savepool)

/-- R293: the free cores that a RESIDENT launch would reserve now. -/
def State.toReserve (s : State) (l : Launch) : List Nat :=
  if l.kd.resident then s.part.cores.filter fun c => s.coreFree (some l.id) c && s.fe.reserved.all (fun r => r.1 != c) else []

/-- R283, R285, R293, R305: what serving a queue would do now with cores. A RESIDENT launch reserves cores as they free up, until it has
enough and save areas are free. Log entry 34. -/
def State.coreWork (s : State) (q : Nat) (h : HQueue) : Option Serve :=
  match s.awayUnit q with
  | some gs =>
    if (s.ctx h.ctx).any (·.ready) then
      let n := (gs.head?.map (·.ident.csize)).getD 1
      (s.allot none (gs.length / n) n).map fun cs => .resume gs cs.flatten
    else none
  | none =>
    match s.currentLaunch q with
    | none => none
    | some l =>
      if !s.placeable q h l then none
      else
        match s.allot (some l.id) l.clusters l.kd.csize with
        | some cs => if s.hasAreas l then some (.place l cs) else none
        | none => if (s.toReserve l).isEmpty then none else some (.reserve l (s.toReserve l))

/-- R283: the queue is ready, or waits for nothing but a core (log entry 34). -/
def State.wantsCore (s : State) (q : Nat) (h : HQueue) : Bool :=
  match s.awayUnit q with
  | some _ => (s.ctx h.ctx).any (·.ready)
  | none => (s.currentLaunch q).any fun l => s.placeable q h l && s.hasAreas l

/-- R276: the next entry is a STEP of whose LIST lines have still to come from another module. -/
def State.listMissing (s : State) (q : Nat) (x : Next) : Bool :=
  x.dep == .met && entryOk x.c x.r && (eHead x.r).typ == 2 &&
    (match s.fetchRange (.queue q) x.h.ctx (recField x.r 16 8) (64 * recField x.r 24 2) with
     | .error _ => true
     | .ok _ => false)

/-- R276: the front end asks for the lines of such a LIST. -/
def State.askLists (s : State) : State :=
  s.fe.queues.foldl (fun t q =>
    match (t.nextEntry q.1).filter (·.canStart) with
    | some x => if t.listMissing q.1 x then t.startStep q.1 x else t
    | none => t) s

/-- R283, R284: what serving a queue would do now; placement goes before the next entry. -/
def State.serveOf (s : State) (q : Nat) (h : HQueue) : Option Serve :=
  match s.coreWork q h with
  | some w => some w
  | none => ((s.nextEntry q).filter fun x => x.canStart && !x.isLaunch && !s.listMissing q x).map .entry

/-- R283: an ACTIVE queue whose next entry can start, be it a LAUNCH, or one that has groups to place. Log entry 34. -/
def State.isReady (s : State) (q : Nat × HQueue) : Bool :=
  (s.serveOf q.1 q.2).isSome || s.wantsCore q.1 q.2 || (s.nextEntry q.1).any (·.canStart)

/-- R283, R284: since when each queue is ready; one that is not has no deficit. Log entry 34. -/
def State.noteReady (s : State) : State :=
  { s with fe := { s.fe with queues := s.fe.queues.map fun q =>
    if (s.isReady q) = true then (q.1, { q.2 with readySince := some (q.2.readySince.getD s.time.now) })
    else (q.1, { q.2 with readySince := none, deficit := 0 }) } }

/-- R283: the effective priority of a queue. -/
def State.queuePrio (s : State) (h : HQueue) : Nat :=
  let w := match h.readySince with
    | some t => s.time.now - t
    | none => 0
  min 7 (((s.ctx h.ctx).map (·.prio h.rid)).getD 0 + w / 2000000)

/-- R284: the queue that is served next, with what it gets. -/
def State.pick (s : State) : Option (Nat × HQueue × Serve) :=
  let l := s.fe.queues.filterMap fun q => (s.serveOf q.1 q.2).map fun w => (q.1, q.2, w)
  let top := l.foldl (fun n x => max n (s.queuePrio x.2.1)) 0
  let best := l.filter fun x => s.queuePrio x.2.1 == top
  match best.find? fun x => decide (s.fe.round ≤ x.1) with
  | some x => some x
  | none => best.head?

/-- R284: the quantum of a queue. -/
def State.quantum (s : State) (h : HQueue) : Nat :=
  match (s.ctx h.ctx).bind fun c => (c.corePath h.rid).head? with
  | none => 1
  | some r => if r.cbudget = 0 then 1 else 1 + 15 * (r.cbudget - r.cusedNs / 1000) / r.cbudget

/-! ## Serving -/

/-- R305: pre-empted groups go on, on new cores; firings that waited for them go on. Log entry 56. -/
def State.resumeGroups (s : State) (gs : List Group) (cores : List Nat) : State :=
  ((List.range gs.length).foldl (fun t i =>
    match gs[i]? with
    | none => t
    | some g =>
      let core := cores.getD i 0
      let t1 := (t.moveGroup g.ident.core core).onCore core fun x =>
        if x.phase = .preempted then { (x.unpause s.time.now) with phase := .running } else x
      if g.phase = .preempted then t1.env g.ident.ctx 2 (t1.groupOn core) core else t1) s).retryFires

/-- Serve one unit of a queue. -/
def State.serve (s : State) (q : Nat) (w : Serve) : State :=
  match w with
  | .resume gs cores => s.resumeGroups gs cores
  | .place l cs => s.placeClusters l cs
  | .reserve l cores => { s with fe := { s.fe with reserved := s.fe.reserved ++ cores.map fun c => (c, l.id) } }
  | .entry x => s.startEntry q x

/-- R283, R284: what a service changes in the queue: D, w, the round pointer. Log entry 34. -/
def State.afterServe (s : State) (q : Nat) : State :=
  match s.hq q with
  | none => s
  | some h =>
    let d := h.deficit - 1
    let still := s.isReady (q, h)
    let s1 := s.onHq q fun h =>
      { h with deficit := if still then d else 0, readySince := if still then some s.time.now else none }
    if d = 0 ∨ !still then { s1 with fe := { s1.fe with round := q + 1 } } else s1

/-- R284: the deficit of a queue before it is served. -/
def State.refill (s : State) (q : Nat) : State :=
  s.onHq q fun h => if h.deficit = 0 then { h with deficit := s.quantum h } else h

/-- R296: a calendar group whose core has come free. -/
def State.calendarNext (s : State) : Option (Launch × Nat × Nat) :=
  s.fe.launches.findSome? fun l =>
    if l.st == .placing && (s.ctx l.ctx).any (fun c => c.st == .ready && !c.exhausted l.rid) && decide (s.areasUsed < s.boot.savepool) then
      (l.cores.find? fun p => s.isIdle p.2).map fun p => (l, p.1, p.2)
    else none

/-- R296: place one calendar group; one whose core was busy at TICK is late. -/
def State.placeCalendar (s : State) (l : Launch) (index core : Nat) : State :=
  let late := l.tick.any fun t => decide (t ≤ s.time.now)
  let n := satAdd32 l.late (if late then 1 else 0)
  let s1 := (s.placeGroup l index core).onLaunch l.id fun l =>
    { l with cores := l.cores.filter fun p => p.1 != index }.nowPlaced 1
  if late then (s1.onLaunch l.id fun l => { l with late := n }).env l.ctx 9 (s1.groupOn core) n.toNat else s1

/-- R296: every calendar group whose core is free is placed; the first argument bounds them. -/
def placeCalendars : Nat → State → State
  | 0, s => s
  | n + 1, s =>
    match s.calendarNext with
    | none => s
    | some (l, i, core) => placeCalendars n (s.placeCalendar l i core)

/-- The module is not tripped (R377). -/
def State.serves (s : State) : Bool := !s.power.tripped

/-- SERVICE_OPPORTUNITY (R284, R296): calendar groups take their cores; then one unit of the picked queue is served. -/
def execServiceOpportunity (s : State) : Out :=
  if !s.serves then .next s
  else
    let s1 := (placeCalendars 128 s.teardownAll).noteOverrun.noteReady
    match s1.pick with
    | none => .next s1
    | some (q, _, w) => .next (((s1.refill q).serve q w).afterServe q)

/-- STEP, WAIT, SIGNAL and HOSTNOTE are served as R284 says: when their queue is the one picked. -/
def serveType (typ : Nat) (queue : BitVec 10) (s : State) : Out :=
  if !s.serves then .next s
  else
    let s1 := s.noteOverrun.noteReady
    match s1.pick with
    | some (q, _, .entry x) =>
      if q = queue.toNat ∧ (eHead x.r).typ = typ then .next (((s1.refill q).startEntry q x).afterServe q) else .next s
    | _ => .next s

/-- STEP (R276). -/
def execStep (queue : BitVec 10) (s : State) : Out := serveType 2 queue s

/-- WAIT (R276). -/
def execWait (queue : BitVec 10) (s : State) : Out := serveType 3 queue s

/-- SIGNAL (R276). -/
def execSignalEntry (queue : BitVec 10) (s : State) : Out := serveType 4 queue s

/-- HOSTNOTE (R276). -/
def execHostnote (queue : BitVec 10) (s : State) : Out := serveType 5 queue s

/-! ## The launch calendar -/

/-- R296: the valid entries of an instance. -/
def State.instanceOf (s : State) (kdesc tick : Nat) : List CalEntry :=
  match s.fe.calendar.find? fun e => e.kdesc == kdesc && e.tick == tick with
  | none => []
  | some x => s.fe.calendar.filter fun e => e.kdesc == kdesc && e.tick == tick && e.ctx == x.ctx

/-- CALENDAR_RESERVATION can happen: TICK - 50 µs has come. -/
def State.reservationDue (s : State) (kdesc tick : Nat) : Bool :=
  decide (tick ≤ s.time.now + 50000) && (s.instanceOf kdesc tick).head?.any fun e => !s.awaits (.text e.ctx)

/-- R296: every group index below CALG is named exactly once. -/
def exactIndices (n : Nat) (es : List CalEntry) : Bool :=
  n != 0 && es.length == n && (List.range n).all fun i => es.any fun e => e.group == i

/-- R296, R298: the launch of an instance, with its trigger where the descriptor names one; else the status that its discard reports (log
entry 50). -/
def State.calendarLaunch (s : State) (ctx kdesc tick : Nat) (r : List Byte) (es : List CalEntry) : Except Status (State × Launch) :=
  let kd := kdescOf r
  match s.ctx ctx, s.acceptRegion ctx kd.calrid with
  | some c, some s1 =>
    if kdesc % 64 == 0 && s1.kdescOk ctx c r kd.calg kd.dargs && kd.csize == 1 && exactIndices kd.calg es then
      let l := s1.newLaunch ctx none 0 kd.calrid kd.dargs kd.calg kd
      .ok (s1, { l with tick := some tick, kva := kdesc, cores := es.map fun e => (e.group, e.core) })
    else .error .badentry
  | _, _ => .error .badrcb

/-- CALENDAR_RESERVATION (R296): the instance fires: its entries are cleared, and it is discarded or gets its cores. Log entry 50. -/
def execCalendarReservation (kdesc tick : BitVec 64) (s : State) : Out :=
  let k := kdesc.toNat
  let t := tick.toNat
  if !s.reservationDue k t then .next s
  else
    let es := s.instanceOf k t
    let ctx := (es.head?.map (·.ctx)).getD 0
    match s.fetchRange (.text ctx) ctx k 128 with
    | .error u => .next u
    | .ok r =>
      let s1 := s.dropLines (.text ctx)
      let s2 : State := { s1 with fe := { s1.fe with calendar := s1.fe.calendar.filter fun e => !es.contains e } }
      match s2.calendarLaunch ctx k t r es with
      | .error st => .next (s2.event 7 ctx st.code 0)
      | .ok (s3, l) => .next (placeCalendars 128 (s3.addLaunch l))

/-- The launch of an instance that has been reserved. -/
def State.calendarOf (s : State) (kdesc tick : Nat) : Option Launch :=
  s.fe.launches.find? fun l => l.tick == some tick && l.kva == kdesc && l.st != .done

/-- CALENDAR_START (R296): from TICK on, C of the groups placed before it issues. Log entry 50. -/
def execCalendarStart (kdesc tick : BitVec 64) (s : State) : Out :=
  match s.calendarOf kdesc.toNat tick.toNat with
  | none => .next s
  | some l =>
    if l.tick.all fun t => decide (t ≤ s.time.now) then
      .next (s.mapGroups fun g => if g.ident.launch = l.id then { g with time := { g.time with hold := none } } else g)
    else .next s

end Sys2Proof.Machine
end

