-- ==== Sys2Proof/Machine/Groups.lean ====
section
/-! DEFINITION. How the front end and the combiner end and pre-empt groups: YIELD (10_system R231), pre-emption (16_group R303),
hang detection (14_queue R280), completion (09_engine_commands R208, 23_page R354). -/

namespace Sys2Proof.Machine

/-! ## Pre-emption -/

/-- R299, R301, R303: the groups that move together can be pre-empted: each runs or is DONE. -/
def canMove (gs : List Group) : Bool := gs.all fun g => g.phase == .running || g.phase == .done

/-- R285, R304: a ready queue waits for a core above the effective priority of the queue of a group, and a save area is free for
what it places. Log entry 56. -/
def State.preemptWanted (s : State) (i : Ident) : Bool :=
  match (s.launch i.launch).bind (·.queue) with
  | none => false
  | some own =>
    match s.hq own with
    | none => false
    | some h =>
      s.fe.queues.any fun q =>
        q.1 != own && decide (s.queuePrio h < s.queuePrio q.2) && (s.coreWork q.1 q.2).isNone && s.wantsCore q.1 q.2

/-- YIELD (R231, R285): the group and those that move with it stop behind it. Log entry 56. -/
def execYield (y : BitVec 2) (s : State) : Out :=
  issue .c y [] s fun s _ =>
    let unit := s.unitOf s.me.ident
    if s.me.phase = .running ∧ s.preemptWanted s.me.ident = true ∧ canMove unit = true then
      .done (s.mapGroups fun g =>
        if g.phase = .running ∧ unit.any (fun x => x.ident.core == g.ident.core) = true then
          { g with work := { g.work with yielding := true } }
        else g)
    else .done s

/-- R303: a member is at its pre-emption point, or has ended. -/
def Group.atStop (g : Group) : Bool := g.phase == .done || (g.phase == .running && g.work.yielding && g.mesh.atPoint)

/-- R301: a FROZEN member takes the request away. -/
def cannotMove (gs : List Group) : Bool := gs.any fun g => g.phase == .frozen || !g.phase.isPlaced

/-- PREEMPTION can happen to the group in focus. Log entry 56. -/
def State.preemptionEnabled (s : State) : Bool :=
  s.me.work.yielding && s.me.phase == .running &&
    (cannotMove (s.unitOf s.me.ident) || (s.unitOf s.me.ident).all (·.atStop))

/-- A number from 128 on that no group has. -/
def State.freeAway (s : State) : Nat :=
  ((List.range (s.groups.length + 1)).map (· + 128)).find? (fun n => s.groups.all fun g => g.ident.core != n) |>.getD 128

/-- R299, R303: a stopped member. Log entry 22. -/
def Group.preempt (g : Group) (now : Nat) : Group :=
  if g.phase = .running then
    { g with phase := .preempted, reason := 1, time := { g.time with pauseAt := now }, work := { g.work with yielding := false } }
  else g

/-- R303: one member leaves its core; all sections of its save area are written with the state as it stands (R304). Log entry 22. -/
def State.sendAway (s : State) (g : Group) : State :=
  let n := s.freeAway
  let g1 := g.preempt s.time.now
  let s0 := (s.onCore g.ident.core fun _ => g1).onArea g.ident fun a =>
    { a with control := some g1, records := some g1, mesh := some g1, body := some g1 }
  let s1 := s0.moveGroup g.ident.core n
  if g.phase = .running then s1.env g.ident.ctx 1 (s1.groupOn n) g.eng.c.seq else s1

/-- PREEMPTION (R285, R303): the group in focus and those that move with it are at their pre-emption points. Log entry 56. -/
def execPreemption (s : State) : Out :=
  if !s.preemptionEnabled then .next s
  else
    let unit := s.unitOf s.me.ident
    if cannotMove unit then
      .next (s.mapGroups fun g =>
        if unit.any (fun x => x.ident.core == g.ident.core) = true then { g with work := { g.work with yielding := false } } else g)
    else .next (unit.foldl (fun t g => t.sendAway g) s)

/-! ## Hang detection -/

/-- R280: HANGMS of the queue of a group's launch, in ns; none where detection is off. -/
def State.hangLimit (s : State) (i : Ident) : Option Nat :=
  match ((s.launch i.launch).bind (·.queue)).bind s.hq with
  | none => none
  | some h => if h.hangms = 0 then none else some (1000000 * h.hangms)

/-- HANG_DETECTED can happen to the group in focus. -/
def State.hangEnabled (s : State) : Bool :=
  (s.me.phase == .running || s.me.phase == .handler) &&
    (s.hangLimit s.me.ident).any fun n => decide (s.me.time.lastIssue + n ≤ s.time.now)

/-- HANG_DETECTED (R280, R299): the group stops as R209 states and completes HUNG; its cluster gets error tokens. -/
def execHangDetected (s : State) : Out :=
  if !s.hangEnabled then .next s
  else
    let i := s.me.ident
    .next ((s.sendTokens.endGroup .done .hung true).teardown i)

/-! ## Completion -/

/-- R208: every engine has stopped; R168, R257, R278: what the group wrote is performed, invalidations included. The atomics of its open
interval close with it (R175). Log entry 28. -/
def State.combinerEnabled (s : State) : Bool :=
  s.me.phase == .running && allEngines.all (fun e => (s.eng e).stopped) && !s.accessWaits 3 false

/-- R208: the NOTIFY words with CT that engines of the group have stopped at, each once, with their counters. -/
def Group.notified (g : Group) : List (Nat × Nat) := (allEngines.filterMap fun e => (g.engine e).notify).eraseDups

/-- R208: each executed NOTIFY with CT adds 1 to its counter. -/
def State.countNotify (s : State) : State := s.me.notified.foldl (fun t p => t.addCtr p.2 1 4) s

/-- R354: the 256 records of the buffers. -/
def Group.bufRecord (g : Group) : List Byte :=
  (List.range 256).flatMap fun b =>
    let x := (assocGet g.work.bufs b).getD (0, 0)
    leBytes 8 x.1.toNat ++ leBytes 8 x.2.toNat

/-- R354: the record at BUFOUT, or an event where its page may not take it (log entry 33). -/
def State.writeBufout (s : State) : State :=
  let v := s.me.sys.bufout
  let ctx := s.me.ident.ctx
  let va := bitsOf v.toNat 12 52 * 2 ^ 12
  if !v.getLsbD 0 then s
  else if decide (va < 2 ^ 56) && (s.agentLeaf ctx va).any fun e => e.profile && e.wr && e.state != stSealed then
    writeLines s (.job s.me.ident.core 0) ctx (piecesOf va 4096) s.me.bufRecord
  else s.event 5 ctx 1 va

/-- COMBINER_COMPLETION (R208, R299, R354). -/
def execCombinerCompletion (s : State) : Out :=
  if !s.combinerEnabled then .next s
  else
    let i := s.me.ident
    .next ((s.writeBufout.countNotify.endGroup .done .ok false).teardown i)

end Sys2Proof.Machine
end

