-- ==== Sys2Proof/Machine/Trace.lean ====
section
/-! DEFINITION. Messidor (25_trace_replay R363, R364, R366): trace records go from their sources into the ring of the context. -/

namespace Sys2Proof.Machine

/-- R363: the 32 bytes of a record. -/
def TraceRec.bytes (r : TraceRec) : List Byte :=
  leBytes 1 r.typ.toNat ++ leBytes 1 r.engine.toNat ++ leBytes 1 r.k.toNat ++ leBytes 1 0 ++ leBytes 4 r.group.toNat ++
    leBytes 8 r.seq.toNat ++ leBytes 8 r.cycle.toNat ++ leBytes 8 r.data.toNat

/-- R364: the header of a ring: WRPTR, RDPTR, LOST. -/
structure Ring where
  wr : Nat
  rd : Nat
  lost : Nat
  deriving DecidableEq, Repr

/-- R364: the records that a ring holds. -/
def RootPart.nrec (r : RootPart) : Nat := 2 ^ (r.trlog - 5) - 2

/-- R364: the physical address of the slot of record `i`. -/
def RootPart.slotPa (r : RootPart) (i : Nat) : Nat := r.trbase + 64 + 32 * (i % r.nrec)

/-- R351, R364: an address of a ring lies in a page revoked by force. -/
def State.ringLost (s : State) (ctx pa : Nat) : Bool :=
  s.pages.borrowed.any fun b => b.ctx == ctx && b.lost &&
    (s.leafOf b.ctx b.va).any fun e => decide (b.frame ≤ pa) && decide (pa < b.frame + e.size)

/-- R364: where the records of one source go: the state, the ring, the records dropped since the last LOSS and in all, what is
left over. -/
structure Drain where
  s : State
  ring : Ring
  dropped : Nat
  gone : Nat
  left : List TraceRec

/-- R364: write a record into its slot; a LOSS adds its count to LOST. -/
def Drain.put (d : Drain) (ctx : Nat) (root : RootPart) (r : TraceRec) : Drain :=
  { d with
    s := d.s.putPa ctx (root.slotPa d.ring.wr) r.bytes (.ring ctx)
    ring := { d.ring with
      wr := (d.ring.wr + 1) % 2 ^ 64
      lost := if r.typ = 3 then (d.ring.lost + r.data.toNat) % 2 ^ 64 else d.ring.lost } }

/-- R364: the ring is full. -/
def Ring.full (r : Ring) (root : RootPart) : Bool := (r.wr + 2 ^ 64 - r.rd) % 2 ^ 64 == root.nrec

/-- R364: a LOSS record of `n` records dropped, named as the record behind it. Log entry 55. -/
def lossRec (r : TraceRec) (n : Nat) (core : Option Nat) : TraceRec :=
  { r with typ := 3, k := BitVec.ofNat 8 (core.getD 0), data := BitVec.ofNat 64 n }

/-- R364: records move in their order until the ring is full; one bound for a revoked page is dropped, its slot skipped, and a
LOSS goes before the next. -/
def drainRecs (ctx : Nat) (root : RootPart) (core : Option Nat) : List TraceRec → Drain → Drain
  | [], d => d
  | r :: l, d =>
    if d.ring.full root || !d.left.isEmpty then drainRecs ctx root core l { d with left := d.left ++ [r] }
    else if d.s.ringLost ctx (root.slotPa d.ring.wr) then
      drainRecs ctx root core l
        { d with ring := { d.ring with wr := (d.ring.wr + 1) % 2 ^ 64 }, dropped := d.dropped + 1, gone := d.gone + 1 }
    else if d.dropped = 0 then drainRecs ctx root core l (d.put ctx root r)
    else
      let d1 := { d.put ctx root (lossRec r d.dropped core) with dropped := 0 }
      if d1.ring.full root then drainRecs ctx root core l { d1 with left := [r] }
      else if d1.s.ringLost ctx (root.slotPa d1.ring.wr) then
        drainRecs ctx root core l { d1 with ring := { d1.ring with wr := (d1.ring.wr + 1) % 2 ^ 64 }, dropped := 1, gone := d1.gone + 1 }
      else drainRecs ctx root core l (d1.put ctx root r)

/-- R364: the buffer of a group after a drain; what was dropped counts in TRDROP and in the pending losses. -/
def Group.drained (g : Group) (d : Drain) : Group :=
  { g with
    sys := { g.sys with trdrop := satAdd32 g.sys.trdrop d.gone }
    work := { g.work with trace := d.left, losses := g.work.losses + d.dropped } }

/-- R364: the sources of a context, one after another, then the buffer of the group in focus if it is of the context.
Log entry 55. -/
def State.drainCtx (s : State) (ctx : Nat) (c : Context) (ring : Ring) : State × Ring :=
  let step (a : State × Ring × List TraceSrc) (x : TraceSrc) : State × Ring × List TraceSrc :=
    let d := drainRecs ctx c.root x.core x.recs ⟨a.1, a.2.1, 0, 0, []⟩
    (d.s, d.ring, a.2.2 ++ [{ x with recs := d.left, losses := x.losses + d.dropped }])
  let (s1, ring1, srcs) := c.sources.foldl step (s, ring, [])
  let keep := srcs.filter fun x => !x.recs.isEmpty || x.losses != 0
  let s2 := s1.onCtx ctx fun c => { c with sources := keep }
  if s2.me.ident.ctx = ctx ∧ s2.me.phase.isPlaced then
    let d := drainRecs ctx c.root (some s2.me.ident.core) s2.me.work.trace ⟨s2, ring1, 0, 0, []⟩
    (d.s.onMe (·.drained d), d.ring)
  else (s2, ring1)

/-- R364: with the header's own page revoked nothing is written, and every record is dropped. -/
def State.dropTrace (s : State) (ctx : Nat) : State :=
  let s1 := s.onCtx ctx fun c => { c with sources := [] }
  if s1.me.ident.ctx = ctx then
    s1.onMe fun g =>
      { g with
        sys := { g.sys with trdrop := satAdd32 g.sys.trdrop g.work.trace.length }
        work := { g.work with trace := [], losses := g.work.losses + g.work.trace.length } }
  else s1

/-- Something of a context is to be moved now. -/
def State.traceReady (s : State) (ctx : Nat) (c : Context) : Bool :=
  c.sources.any (fun x => !x.recs.isEmpty) || (s.me.ident.ctx == ctx && s.me.phase.isPlaced && !s.me.work.trace.isEmpty)

/-- A ring header from its bytes. -/
def ringOf (b : List Byte) : Ring := ⟨recField b 0 8, recField b 8 8, recField b 16 8⟩

/-- R364: a ring in this module: records, then WRPTR and LOST. -/
def State.drainOwn (s : State) (ctx : Nat) (c : Context) : State :=
  let la := paLocal c.root.trbase
  let ring := ringOf (s.hbmBytes la 64)
  if !s.traceReady ctx c then s
  else
    let (s1, r) := s.drainCtx ctx c ring
    (s1.hbmPutVal la 8 r.wr).hbmPutVal (la + 16) 8 r.lost

/-- R351, R364: a ring in a lender's module: the header is read, records are written, and WRPTR and LOST follow once the writes
are performed. -/
def State.drainFar (s : State) (ctx : Nat) (c : Context) : State :=
  let pa := c.root.trbase
  let ag := Agent.ring ctx
  if s.unperformed ag then s
  else
    match c.ringHdr with
    | some (wr, lost) =>
      ((s.putPa ctx pa (leBytes 8 wr) ag).putPa ctx (pa + 16) (leBytes 8 lost) ag).onCtx ctx fun c => { c with ringHdr := none }
    | none =>
      if !s.traceReady ctx c then s
      else
        match s.fetchedLine ag pa 64 with
        | none => s.askPa ctx pa 64 ag
        | some b =>
          let (s1, r) := (s.dropLines ag).drainCtx ctx c (ringOf b)
          if r.wr = (ringOf b).wr then s1 else s1.onCtx ctx fun c => { c with ringHdr := some (r.wr, r.lost) }

/-- MESSIDOR_DRAIN (R364): the sources of every context, and the buffer of the group in focus. Log entry 55. -/
def execMessidorDrain (s : State) : Out :=
  .next (s.ctxs.foldl (fun t p =>
    match t.ctx p.1 with
    | none => t
    | some c =>
      if t.ringLost p.1 c.root.trbase then t.dropTrace p.1
      else if paModule c.root.trbase = t.boot.modnum then t.drainOwn p.1 c
      else t.drainFar p.1 c) s)

/-- ECC_AGGREGATE can happen: errors have been corrected in memory of the context. Log entry 55. -/
def State.eccDue (s : State) (ctx : Nat) : Bool := s.errors.envEcc.any fun e => e.1 == ctx && e.2 != 0

/-- ECC_AGGREGATE (R366). -/
def execEccAggregate (ctx : BitVec 8) (s : State) : Out :=
  let n := ctx.toNat
  if !s.eccDue n then .next s
  else
    let count := (s.errors.envEcc.filter fun e => e.1 == n).foldl (fun a e => a + e.2) 0
    .next ({ s with errors := { s.errors with envEcc := s.errors.envEcc.filter fun e => e.1 != n } }.env n 4 none count)

end Sys2Proof.Machine
end

