-- ==== Sys2Proof/Machine/Platform.lean ====
section
/-! DEFINITION. The platform (26_platform R368 to R377): reset and boot, the host's accesses, SPDM, the management path, power. -/

namespace Sys2Proof.Machine

/-! ## Reset and boot -/

/-- R371, R372: the module after a reset: boot begins at the mask ROM; fuses, the part, memory and the far sides stay (log entry
37). -/
def State.rebooted (s : State) : State :=
  { State.reset with
    part := s.part
    mem := { s.mem with atomics := [], closing := [], objs := [] }
    links := { State.reset.links with ports := (s.part.virip ++ s.part.ethernet).map Port.atReset }
    boot := { State.reset.boot with keys := s.boot.keys, revokedKeys := s.boot.revokedKeys, rollback := s.boot.rollback }
    host := { s.host with evtbase := 0, evtlog := 0 }
    free := s.free }

/-- RESET (R371); a module that has tripped recovers only by a cold reset (R377). Log entry 37. -/
def execReset (s : State) : Out := .next (if s.power.tripped then s else s.rebooted)

/-- COLD_RESET (R375, R377). Log entry 37. -/
def execColdReset (s : State) : Out := .next s.rebooted

/-- R372: the form of a header for the stage that comes next. -/
def headerOk (stage : Nat) (header body : List Byte) : Bool :=
  let f := recField header
  header.length == 512 && f 0 4 == 0x4C513442 && f 4 1 == stage && decide (f 5 1 ≤ 3) && f 16 8 == body.length &&
    recZero header 356 156

/-- R372: the four conditions of acceptance. Log entry 14. -/
def Boot.accepts (b : Boot) (header body : List Byte) : Bool :=
  let key := (header.drop 24).take 133
  let slot := recField header 5 1
  let digest := Config.sha512 (header.take 224)
  b.keys[slot]? == some (Config.sha512 key) && !b.revokedKeys.getLsbD slot &&
    Config.p521Verify key ((header.drop 224).take 132) digest &&
    flitOf ((header.drop 160).take 64) == Config.sha512 body && decide (b.rollback ≤ recField header 8 8)

/-- R373: the boot configuration, in the first 8 bytes of the stage-2 body: MODNUM, SAVEPOOL, PCAPDEF (log entry 38). -/
def bootConfig (body : List Byte) : List Byte := body.take 8

/-- R376: the range of PCAP. -/
def Part.pcapOk (p : Part) (w : Nat) : Bool := decide (1500 ≤ w) && decide (w ≤ p.watts)

/-- R373: the ranges of the configuration. Log entry 38. -/
def Part.configOk (p : Part) (c : List Byte) : Bool :=
  let f := recField c
  c.length == 8 && decide (f 0 2 ≤ 639) && decide (p.cores.length ≤ f 2 2) && decide (f 2 2 ≤ 256) && p.pcapOk (f 4 4)

/-- R371, R373: the next stage has passed: it is measured, stage 2 brings the configuration, stage 3 sets READY. Log entry 38. -/
def State.stagePassed (s : State) (header body : List Byte) : State :=
  let n := s.boot.stage + 1
  let c := bootConfig body
  let b : Boot := { s.boot with
    stage := n, measures := s.boot.measures ++ [Config.sha512 body] ++ (if n = 2 then [Config.sha512 c] else [])
    imageVersion := recField header 8 8 }
  if n = 2 then
    { s with
      boot := { b with modnum := recField c 0 2, savepool := recField c 2 2 }
      power := { s.power with pcap := recField c 4 4 } }
  else { s with boot := { b with ready := n == 3 } }

/-- BOOT_STAGE (R371 to R373): the running stage verifies the next image. -/
def execBootStage (header body : List Byte) (s : State) : Out :=
  let n := s.boot.stage + 1
  if s.boot.recovery || s.boot.ready then .next s
  else if headerOk n header body && s.boot.accepts header body && (n != 2 || s.part.configOk (bootConfig body)) then
    .next (s.stagePassed header body)
  else .next { s with boot := { s.boot with recovery := true } }

/-- ROLLBACK_RAISE (R372): stage 1 has passed, and the request is the host's, signed; R_F has 64 steps. Log entry 38. -/
def execRollbackRaise (signed : Bool) (s : State) : Out :=
  if signed && decide (1 ≤ s.boot.stage) && !s.boot.recovery then
    .next { s with boot := { s.boot with rollback := max s.boot.rollback (min 64 s.boot.imageVersion) } }
  else .next s

/-! ## The host -/

/-- HOST_MEMORY_ACCESS (R368, R372): a read changes nothing, a write goes to HBM; in RECOVERY memory does not answer.
Log entry 13. -/
def execHostMemoryAccess (write : Bool) (addr : BitVec 42) (data : List Byte) (s : State) : Out :=
  if s.boot.recovery then .next s
  else if !hbmPresent s.part addr.toNat (max 1 data.length) then .fault (.noSuchAddress addr.toNat)
  else if write then .next (s.hbmPut addr.toNat data)
  else .next s

/-- R376: PCAP takes a value in its range. -/
def State.setPcap (s : State) (w : Nat) : State := if s.part.pcapOk w then { s with power := { s.power with pcap := w } } else s

/-- BAR0_REGISTER_WRITE (R369, R372): a doorbell is rung while READY, the event ring is set; other registers take nothing. -/
def execBar0RegisterWrite (off : BitVec 16) (value : BitVec 64) (s : State) : Out :=
  let v := value.toNat
  if s.boot.recovery then .next s
  else
    match bellAt off.toNat with
    | some b => .next (s.ringBell b v)
    | none =>
      if off = 0x108 then .next (if v % 2 ^ 12 = 0 then { s with host := { s.host with evtbase := v } } else s)
      else if off = 0x110 then
        .next (if 8 ≤ v % 2 ^ 32 ∧ v % 2 ^ 32 ≤ 16 then { s with host := { s.host with evtlog := v % 2 ^ 32 } } else s)
      else if off = 0x300 then .next (s.setPcap (v % 2 ^ 32))
      else .next s

/-! ## Power -/

/-- PCAP_WRITE (R375, R376); in RECOVERY nothing is taken (R372). -/
def execPcapWrite (watts : BitVec 32) (s : State) : Out := .next (if s.boot.recovery then s else s.setPcap watts.toNat)

/-- R376: power above PCAP, or a die above 95 °C. -/
def State.overLimit (s : State) (watts celsius : Nat) : Bool := decide (s.power.pcap < watts) || decide (95 < celsius)

/-- R370: the subclasses of CLASS 8 (log entry 33). -/
def evThrottleStart : Nat := 1
def evThrottleEnd : Nat := 2
def evTrip : Nat := 3

/-- THROTTLE_START (R376): idle issue cycles change rates only. -/
def execThrottleStart (watts celsius : Nat) (s : State) : Out :=
  if !s.power.throttling && s.overLimit watts celsius then
    .next ({ s with power := { s.power with throttling := true } }.event 8 0xFF evThrottleStart watts)
  else .next s

/-- THROTTLE_END (R376). -/
def execThrottleEnd (watts celsius : Nat) (s : State) : Out :=
  if s.power.throttling && !s.overLimit watts celsius then
    .next ({ s with power := { s.power with throttling := false } }.event 8 0xFF evThrottleEnd watts)
  else .next s

/-- R321, R377: every port goes FENCED. -/
def State.fenceAll (s : State) : State :=
  s.rerouted { s with links := { s.links with ports := s.links.ports.map fun p =>
    if p.st = .fenced then p
    else
      { p with
        st := .fenced, lanes := 0, since := s.time.now, tries := 0
        fencing := if p.replay.isEmpty then none else some s.time.now } } }

/-- THERMAL_TRIP (R377): every READY context enters FREEZING. -/
def execThermalTrip (celsius : Nat) (s : State) : Out :=
  if s.power.tripped || decide (celsius < 110) then .next s
  else
    let ready := (s.ctxs.filter fun c => c.2.st == .ready).map (·.1)
    let s1 := ready.foldl (fun t n => t.stopCtx n none) s
    .next ({ s1.fenceAll with power := { s1.power with tripped := true } }.event 8 0xFF evTrip celsius)

/-! ## SPDM -/

/-- R374: an answer over the DOE mailbox; the layouts are those of SPDM 1.3 (log entry 39). Log entry 14. -/
def State.spdmAnswer (s : State) (bs : List Byte) : Out := .next { s with host := { s.host with spdm := s.host.spdm ++ [bs] } }

/-- The header of an SPDM message: version, code, two parameters. Log entry 39. -/
def spdmHead (code p1 p2 : Nat) : List Byte := leBytes 1 0x13 ++ leBytes 1 code ++ leBytes 1 p1 ++ leBytes 1 p2

/-- ERROR (R374). Log entry 39. -/
def spdmError (reason data : Nat) : List Byte := spdmHead 0x7F reason data

/-- GET_VERSION (R374): VERSION, with 1.3 alone; this message carries the version code 1.0. Log entry 39. -/
def execGetVersion (s : State) : Out :=
  s.spdmAnswer (leBytes 1 0x10 ++ leBytes 1 0x04 ++ leBytes 2 0 ++ leBytes 1 0 ++ leBytes 1 1 ++ leBytes 2 0x1300)

/-- GET_CAPABILITIES (R374): certificates, challenge, and measurements with signature. Log entry 39. -/
def execGetCapabilities (s : State) : Out :=
  s.spdmAnswer (spdmHead 0x61 0 0 ++ leBytes 4 0 ++ leBytes 4 0x16 ++ leBytes 4 0x1200 ++ leBytes 4 0x1200)

/-- NEGOTIATE_ALGORITHMS (R374): ECDSA with NIST P-521, and SHA-512. Log entry 39. -/
def execNegotiateAlgorithms (s : State) : Out :=
  s.spdmAnswer (spdmHead 0x63 0 0 ++ leBytes 2 36 ++ leBytes 1 1 ++ leBytes 1 2 ++ leBytes 4 0x08 ++ leBytes 4 0x100 ++ leBytes 4 0x04 ++
    leBytes 16 0)

/-- The digest of the certificate chain of slot 0. -/
def chainDigest : List Byte := flitBytes (Config.sha512 Config.certChain)

/-- GET_DIGESTS (R374): slot 0 alone. Log entry 39. -/
def execGetDigests (s : State) : Out := s.spdmAnswer (spdmHead 0x01 0 1 ++ chainDigest)

/-- GET_CERTIFICATE (R374): a portion of the chain of slot 0. Log entry 39. -/
def execGetCertificate (off len : BitVec 16) (s : State) : Out :=
  let rest := Config.certChain.drop off.toNat
  let part := rest.take len.toNat
  s.spdmAnswer (spdmHead 0x02 0 0 ++ leBytes 2 part.length ++ leBytes 2 (rest.length - part.length) ++ part)

/-- CHALLENGE (R374): signed with the device identity key over the challenge and the answer. Log entry 39. -/
def execChallenge (nonce : BitVec 256) (s : State) : Out :=
  let (own, s1) := s.fresh
  let body := spdmHead 0x03 0 1 ++ chainDigest ++ leBytes 32 own.toNat ++ leBytes 2 0
  s1.spdmAnswer (body ++ Config.identitySign (Config.sha512 (leBytes 32 nonce.toNat ++ body)))

/-- R371, R374: the measurements taken: index 1 the ROM digest, 2 to 4 the images, 5 the boot configuration. -/
def Boot.measurement (b : Boot) (i : Nat) : Option (BitVec 512) :=
  match i with
  | 1 => some (Config.sha512 Config.maskRom)
  | 2 => b.measures[0]?
  | 3 => b.measures[1]?
  | 4 => b.measures[3]?
  | 5 => b.measures[2]?
  | _ => none

/-- One measurement block. Log entry 39. -/
def measureBlock (i : Nat) (d : BitVec 512) : List Byte := leBytes 1 i ++ leBytes 1 1 ++ leBytes 2 67 ++ leBytes 1 0 ++ leBytes 2 64 ++ flitBytes d

/-- GET_MEASUREMENTS (R374): index 0 asks for the count, 0xFF for all. Log entry 39. -/
def execGetMeasurements (index : BitVec 8) (s : State) : Out :=
  let all := (List.range 5).filterMap fun i => (s.boot.measurement (i + 1)).map fun d => measureBlock (i + 1) d
  let answer (count : Nat) (blocks : List (List Byte)) : Out :=
    let rec_ := blocks.flatten
    s.spdmAnswer (spdmHead 0x60 count 0 ++ leBytes 1 blocks.length ++ leBytes 3 rec_.length ++ rec_)
  if index = 0 then answer all.length []
  else if index = 0xFF then answer 0 all
  else
    match s.boot.measurement index.toNat with
    | some d => answer 0 [measureBlock index.toNat d]
    | none => s.spdmAnswer (spdmError 1 0)

/-- UNSUPPORTED_REQUEST (R374): ERROR UnsupportedRequest, with the request's code. -/
def execUnsupportedRequest (code : BitVec 8) (s : State) : Out := s.spdmAnswer (spdmError 7 code.toNat)

/-! ## The management path -/

/-- R375, R379: what an item of the read-only data answers (log entry 39). -/
def State.mgmtItem (s : State) (item : Nat) : Option (List Byte) :=
  match item with
  | 0 => some ((List.range 4).flatMap fun d => leBytes 8 (Config.sensor (s.free + d)).toNat)
  | 1 => some (leBytes 8 (Config.sensor s.free).toNat ++ leBytes 4 s.power.pcap)
  | 2 => some (leBytes 8 s.devstat)
  | 3 => some ((s.errors.corrected ++ s.errors.uncorrected).flatMap fun c => leBytes 4 c.toNat)
  | 4 => some (s.errors.log.flatMap fun e => leBytes 8 e.1 ++ leBytes 8 e.2.1 ++ leBytes 8 e.2.2)
  | _ => none

/-- MGMT_READ (R375); in RECOVERY only DEVSTAT, item 2, answers (R372). Log entry 39. -/
def execMgmtRead (item : BitVec 8) (s : State) : Out :=
  match if s.boot.recovery && item != 2 then none else s.mgmtItem item.toNat with
  | none => .next s
  | some bs => .next { s with host := { s.host with mgmt := s.host.mgmt ++ [bs] }, free := s.free + 4 }

end Sys2Proof.Machine
end

