-- ==== Sys2Proof/Machine/Dispatch.lean ====
section
/-! DEFINITION. The meaning of every step of the opcode table, one arm per constructor of Instr. -/

namespace Sys2Proof.Machine

open Sys2Proof

def exec (i : Instr) (s : State) : Host.Outcome State Fault Refusal :=
  match i with
  | .nopC y => Sys2Proof.Machine.execNopC y s
  | .add y d a b => Sys2Proof.Machine.execAdd y d a b s
  | .sub y d a b => Sys2Proof.Machine.execSub y d a b s
  | .mul y d a b => Sys2Proof.Machine.execMul y d a b s
  | .mulh y d a b => Sys2Proof.Machine.execMulh y d a b s
  | .mulhn y d a b => Sys2Proof.Machine.execMulhn y d a b s
  | .div y d a b => Sys2Proof.Machine.execDiv y d a b s
  | .divn y d a b => Sys2Proof.Machine.execDivn y d a b s
  | .rem y d a b => Sys2Proof.Machine.execRem y d a b s
  | .remn y d a b => Sys2Proof.Machine.execRemn y d a b s
  | .and y d a b => Sys2Proof.Machine.execAnd y d a b s
  | .or y d a b => Sys2Proof.Machine.execOr y d a b s
  | .xor y d a b => Sys2Proof.Machine.execXor y d a b s
  | .shl y d a b => Sys2Proof.Machine.execShl y d a b s
  | .shr y d a b => Sys2Proof.Machine.execShr y d a b s
  | .sar y d a b => Sys2Proof.Machine.execSar y d a b s
  | .slt y d a b => Sys2Proof.Machine.execSlt y d a b s
  | .sltn y d a b => Sys2Proof.Machine.execSltn y d a b s
  | .min y d a b => Sys2Proof.Machine.execMin y d a b s
  | .max y d a b => Sys2Proof.Machine.execMax y d a b s
  | .minn y d a b => Sys2Proof.Machine.execMinn y d a b s
  | .maxn y d a b => Sys2Proof.Machine.execMaxn y d a b s
  | .fsh y d a b x => Sys2Proof.Machine.execFsh y d a b x s
  | .sel y d a b p => Sys2Proof.Machine.execSel y d a b p s
  | .addi y d a k => Sys2Proof.Machine.execAddi y d a k s
  | .andi y d a k => Sys2Proof.Machine.execAndi y d a k s
  | .ori y d a k => Sys2Proof.Machine.execOri y d a k s
  | .xori y d a k => Sys2Proof.Machine.execXori y d a k s
  | .shli y d a k => Sys2Proof.Machine.execShli y d a k s
  | .shri y d a k => Sys2Proof.Machine.execShri y d a k s
  | .sari y d a k => Sys2Proof.Machine.execSari y d a k s
  | .slti y d a k => Sys2Proof.Machine.execSlti y d a k s
  | .ext y d a l p => Sys2Proof.Machine.execExt y d a l p s
  | .ins y d a l p => Sys2Proof.Machine.execIns y d a l p s
  | .clz y d a => Sys2Proof.Machine.execClz y d a s
  | .ctz y d a => Sys2Proof.Machine.execCtz y d a s
  | .popc y d a => Sys2Proof.Machine.execPopc y d a s
  | .lih y d k => Sys2Proof.Machine.execLih y d k s
  | .cmpCc y d a b c => Sys2Proof.Machine.execCmpCc y d a b c s
  | .cmpiCc c y d a k => Sys2Proof.Machine.execCmpiCc c y d a k s
  | .bCc c y d a k => Sys2Proof.Machine.execBCc c y d a k s
  | .bCcA c y d a k => Sys2Proof.Machine.execBCcA c y d a k s
  | .br y k => Sys2Proof.Machine.execBr y k s
  | .call y k => Sys2Proof.Machine.execCall y k s
  | .ret y => Sys2Proof.Machine.execRet y s
  | .jr y d => Sys2Proof.Machine.execJr y d s
  | .qpush y d a => Sys2Proof.Machine.execQpush y d a s
  | .qpop y d a => Sys2Proof.Machine.execQpop y d a s
  | .qpeek y d a => Sys2Proof.Machine.execQpeek y d a s
  | .qbind y d p c => Sys2Proof.Machine.execQbind y d p c s
  | .ld y t b h w ix x => Sys2Proof.Machine.execLd y t b h w ix x s
  | .st y t b h w ix x => Sys2Proof.Machine.execSt y t b h w ix x s
  | .xlate y d a => Sys2Proof.Machine.execXlate y d a s
  | .hdrop y d => Sys2Proof.Machine.execHdrop y d s
  | .hchk y d a => Sys2Proof.Machine.execHchk y d a s
  | .sealPages y d a => Sys2Proof.Machine.execSealPages y d a s
  | .unsealPages y d a => Sys2Proof.Machine.execUnsealPages y d a s
  | .bind y a k => Sys2Proof.Machine.execBind y a k s
  | .unbind y k => Sys2Proof.Machine.execUnbind y k s
  | .acq y d p e => Sys2Proof.Machine.execAcq y d p e s
  | .rel y d => Sys2Proof.Machine.execRel y d s
  | .fence y sx => Sys2Proof.Machine.execFence y sx s
  | .tlook y d a => Sys2Proof.Machine.execTlook y d a s
  | .tset y d a b z => Sys2Proof.Machine.execTset y d a b z s
  | .tclr y d l => Sys2Proof.Machine.execTclr y d l s
  | .aadd y t b h w sx q => Sys2Proof.Machine.execAadd y t b h w sx q s
  | .axchg y t b h w sx => Sys2Proof.Machine.execAxchg y t b h w sx s
  | .acas y t b h w sx => Sys2Proof.Machine.execAcas y t b h w sx s
  | .amin y t b h w sx => Sys2Proof.Machine.execAmin y t b h w sx s
  | .amax y t b h w sx => Sys2Proof.Machine.execAmax y t b h w sx s
  | .aand y t b h w sx => Sys2Proof.Machine.execAand y t b h w sx s
  | .aor y t b h w sx => Sys2Proof.Machine.execAor y t b h w sx s
  | .axor y t b h w sx => Sys2Proof.Machine.execAxor y t b h w sx s
  | .aincw y t b h w sx => Sys2Proof.Machine.execAincw y t b h w sx s
  | .afaddb y t b h w sx p => Sys2Proof.Machine.execAfaddb y t b h w sx p s
  | .ared y t b k => Sys2Proof.Machine.execAred y t b k s
  | .atclose y => Sys2Proof.Machine.execAtclose y s
  | .fset y n => Sys2Proof.Machine.execFset y n s
  | .fclr y n => Sys2Proof.Machine.execFclr y n s
  | .fwait y n p => Sys2Proof.Machine.execFwait y n p s
  | .ftest y n p => Sys2Proof.Machine.execFtest y n p s
  | .barjoin y n a => Sys2Proof.Machine.execBarjoin y n a s
  | .barwait y n p => Sys2Proof.Machine.execBarwait y n p s
  | .jobx y a => Sys2Proof.Machine.execJobx y a s
  | .hfold y p h a e => Sys2Proof.Machine.execHfold y p h a e s
  | .hscan y p h a e => Sys2Proof.Machine.execHscan y p h a e s
  | .hzip y p h a e => Sys2Proof.Machine.execHzip y p h a e s
  | .houter y p h a e => Sys2Proof.Machine.execHouter y p h a e s
  | .rdef y h a => Sys2Proof.Machine.execRdef y h a s
  | .rdrop y h => Sys2Proof.Machine.execRdrop y h s
  | .wqpost y a => Sys2Proof.Machine.execWqpost y a s
  | .wqarm y n a => Sys2Proof.Machine.execWqarm y n a s
  | .wqcancel y n => Sys2Proof.Machine.execWqcancel y n s
  | .wqstat y n d => Sys2Proof.Machine.execWqstat y n d s
  | .cntset y n a => Sys2Proof.Machine.execCntset y n a s
  | .cntadd y n a ix => Sys2Proof.Machine.execCntadd y n a ix s
  | .cntwait y n a => Sys2Proof.Machine.execCntwait y n a s
  | .cntread y n d => Sys2Proof.Machine.execCntread y n d s
  | .gencfg y w a => Sys2Proof.Machine.execGencfg y w a s
  | .geninv y w => Sys2Proof.Machine.execGeninv y w s
  | .gsr y d k => Sys2Proof.Machine.execGsr y d k s
  | .ssr y a k => Sys2Proof.Machine.execSsr y a k s
  | .trap y d a => Sys2Proof.Machine.execTrap y d a s
  | .rft y d => Sys2Proof.Machine.execRft y d s
  | .brk y d => Sys2Proof.Machine.execBrk y d s
  | .thset y a b => Sys2Proof.Machine.execThset y a b s
  | .engclaim y => Sys2Proof.Machine.execEngclaim y s
  | .engrel y => Sys2Proof.Machine.execEngrel y s
  | .timealign y a => Sys2Proof.Machine.execTimealign y a s
  | .erd y d a => Sys2Proof.Machine.execErd y d a s
  | .emov y d a => Sys2Proof.Machine.execEmov y d a s
  | .estore y d a b => Sys2Proof.Machine.execEstore y d a b s
  | .trace y d a => Sys2Proof.Machine.execTrace y d a s
  | .yield y => Sys2Proof.Machine.execYield y s
  | .halt y => Sys2Proof.Machine.execHalt y s
  | .iinv y a b => Sys2Proof.Machine.execIinv y a b s
  | .calset y d a => Sys2Proof.Machine.execCalset y d a s
  | .xswap y d a => Sys2Proof.Machine.execXswap y d a s
  | .nopV y => Sys2Proof.Machine.execNopV y s
  | .vadd y d a b t sx => Sys2Proof.Machine.execVadd y d a b t sx s
  | .vaddZq y d a b t sx => Sys2Proof.Machine.execVaddZq y d a b t sx s
  | .vsub y d a b t sx => Sys2Proof.Machine.execVsub y d a b t sx s
  | .vsubZq y d a b t sx => Sys2Proof.Machine.execVsubZq y d a b t sx s
  | .vmul y d a b t sx => Sys2Proof.Machine.execVmul y d a b t sx s
  | .vmulZq y d a b t sx => Sys2Proof.Machine.execVmulZq y d a b t sx s
  | .vfma y d a b t => Sys2Proof.Machine.execVfma y d a b t s
  | .vfmaZq y d a b t => Sys2Proof.Machine.execVfmaZq y d a b t s
  | .vmin y d a b t => Sys2Proof.Machine.execVmin y d a b t s
  | .vminZq y d a b t => Sys2Proof.Machine.execVminZq y d a b t s
  | .vmax y d a b t => Sys2Proof.Machine.execVmax y d a b t s
  | .vmaxZq y d a b t => Sys2Proof.Machine.execVmaxZq y d a b t s
  | .vabs y d b t sx => Sys2Proof.Machine.execVabs y d b t sx s
  | .vabsZq y d b t sx => Sys2Proof.Machine.execVabsZq y d b t sx s
  | .vneg y d b t sx => Sys2Proof.Machine.execVneg y d b t sx s
  | .vnegZq y d b t sx => Sys2Proof.Machine.execVnegZq y d b t sx s
  | .vand y d a b => Sys2Proof.Machine.execVand y d a b s
  | .vandZq y d a b => Sys2Proof.Machine.execVandZq y d a b s
  | .vor y d a b => Sys2Proof.Machine.execVor y d a b s
  | .vorZq y d a b => Sys2Proof.Machine.execVorZq y d a b s
  | .vxor y d a b => Sys2Proof.Machine.execVxor y d a b s
  | .vxorZq y d a b => Sys2Proof.Machine.execVxorZq y d a b s
  | .vnot y d b => Sys2Proof.Machine.execVnot y d b s
  | .vnotZq y d b => Sys2Proof.Machine.execVnotZq y d b s
  | .vshl y d a b t => Sys2Proof.Machine.execVshl y d a b t s
  | .vshlZq y d a b t => Sys2Proof.Machine.execVshlZq y d a b t s
  | .vshr y d a b t => Sys2Proof.Machine.execVshr y d a b t s
  | .vshrZq y d a b t => Sys2Proof.Machine.execVshrZq y d a b t s
  | .vsar y d a b t => Sys2Proof.Machine.execVsar y d a b t s
  | .vsarZq y d a b t => Sys2Proof.Machine.execVsarZq y d a b t s
  | .vsel y d a b m => Sys2Proof.Machine.execVsel y d a b m s
  | .vselZq y d a b m => Sys2Proof.Machine.execVselZq y d a b m s
  | .vcvt y d h sx b t l => Sys2Proof.Machine.execVcvt y d h sx b t l s
  | .vcvtZq y d h sx b t l => Sys2Proof.Machine.execVcvtZq y d h sx b t l s
  | .vclz y d b t => Sys2Proof.Machine.execVclz y d b t s
  | .vclzZq y d b t => Sys2Proof.Machine.execVclzZq y d b t s
  | .vpopc y d b t => Sys2Proof.Machine.execVpopc y d b t s
  | .vpopcZq y d b t => Sys2Proof.Machine.execVpopcZq y d b t s
  | .vext y d a b x => Sys2Proof.Machine.execVext y d a b x s
  | .vextZq y d a b x => Sys2Proof.Machine.execVextZq y d a b x s
  | .vins y d a b => Sys2Proof.Machine.execVins y d a b s
  | .vinsZq y d a b => Sys2Proof.Machine.execVinsZq y d a b s
  | .vfsh y d a b => Sys2Proof.Machine.execVfsh y d a b s
  | .vfshZq y d a b => Sys2Proof.Machine.execVfshZq y d a b s
  | .vperm y d a b => Sys2Proof.Machine.execVperm y d a b s
  | .vpermZq y d a b => Sys2Proof.Machine.execVpermZq y d a b s
  | .vbcast y d a b => Sys2Proof.Machine.execVbcast y d a b s
  | .vbcastZq y d a b => Sys2Proof.Machine.execVbcastZq y d a b s
  | .vlsh y d a b => Sys2Proof.Machine.execVlsh y d a b s
  | .vlshZq y d a b => Sys2Proof.Machine.execVlshZq y d a b s
  | .vred y d m p b t x => Sys2Proof.Machine.execVred y d m p b t x s
  | .vredZq y d m p b t x => Sys2Proof.Machine.execVredZq y d m p b t x s
  | .vscan y d m p b t x => Sys2Proof.Machine.execVscan y d m p b t x s
  | .vscanZq y d m p b t x => Sys2Proof.Machine.execVscanZq y d m p b t x s
  | .vgath y d a b t => Sys2Proof.Machine.execVgath y d a b t s
  | .vgathZq y d a b t => Sys2Proof.Machine.execVgathZq y d a b t s
  | .vscat y d a b t => Sys2Proof.Machine.execVscat y d a b t s
  | .vscatZq y d a b t => Sys2Proof.Machine.execVscatZq y d a b t s
  | .vlut y d a b t => Sys2Proof.Machine.execVlut y d a b t s
  | .vlutZq y d a b t => Sys2Proof.Machine.execVlutZq y d a b t s
  | .vrcp y d b t => Sys2Proof.Machine.execVrcp y d b t s
  | .vrcpZq y d b t => Sys2Proof.Machine.execVrcpZq y d b t s
  | .vrsq y d b t => Sys2Proof.Machine.execVrsq y d b t s
  | .vrsqZq y d b t => Sys2Proof.Machine.execVrsqZq y d b t s
  | .vexp2 y d b t => Sys2Proof.Machine.execVexp2 y d b t s
  | .vexp2Zq y d b t => Sys2Proof.Machine.execVexp2Zq y d b t s
  | .vlog2 y d b t => Sys2Proof.Machine.execVlog2 y d b t s
  | .vlog2Zq y d b t => Sys2Proof.Machine.execVlog2Zq y d b t s
  | .vatan y d a b t g => Sys2Proof.Machine.execVatan y d a b t g s
  | .vatanZq y d a b t g => Sys2Proof.Machine.execVatanZq y d a b t g s
  | .vsincos y d b t g => Sys2Proof.Machine.execVsincos y d b t g s
  | .vsincosZq y d b t g => Sys2Proof.Machine.execVsincosZq y d b t g s
  | .vnorm y d b t => Sys2Proof.Machine.execVnorm y d b t s
  | .vnormZq y d b t => Sys2Proof.Machine.execVnormZq y d b t s
  | .vsplit y d a b t e => Sys2Proof.Machine.execVsplit y d a b t e s
  | .vsplitZq y d a b t e => Sys2Proof.Machine.execVsplitZq y d a b t e s
  | .vmov y d b => Sys2Proof.Machine.execVmov y d b s
  | .vmovZq y d b => Sys2Proof.Machine.execVmovZq y d b s
  | .vtos y a b => Sys2Proof.Machine.execVtos y a b s
  | .vfroms y d b => Sys2Proof.Machine.execVfroms y d b s
  | .vaadd y d a b t f => Sys2Proof.Machine.execVaadd y d a b t f s
  | .vaaddZq y d a b t f => Sys2Proof.Machine.execVaaddZq y d a b t f s
  | .vcmpEq y d a b t => Sys2Proof.Machine.execVcmpEq y d a b t s
  | .vcmpEqZq y d a b t => Sys2Proof.Machine.execVcmpEqZq y d a b t s
  | .vcmpNe y d a b t => Sys2Proof.Machine.execVcmpNe y d a b t s
  | .vcmpNeZq y d a b t => Sys2Proof.Machine.execVcmpNeZq y d a b t s
  | .vcmpLt y d a b t => Sys2Proof.Machine.execVcmpLt y d a b t s
  | .vcmpLtZq y d a b t => Sys2Proof.Machine.execVcmpLtZq y d a b t s
  | .vcmpLe y d a b t => Sys2Proof.Machine.execVcmpLe y d a b t s
  | .vcmpLeZq y d a b t => Sys2Proof.Machine.execVcmpLeZq y d a b t s
  | .vcmpLtn y d a b t => Sys2Proof.Machine.execVcmpLtn y d a b t s
  | .vcmpLtnZq y d a b t => Sys2Proof.Machine.execVcmpLtnZq y d a b t s
  | .vcmpLen y d a b t => Sys2Proof.Machine.execVcmpLen y d a b t s
  | .vcmpLenZq y d a b t => Sys2Proof.Machine.execVcmpLenZq y d a b t s
  | .vli y d k => Sys2Proof.Machine.execVli y d k s
  | .mand y d a b => Sys2Proof.Machine.execMand y d a b s
  | .mor y d a b => Sys2Proof.Machine.execMor y d a b s
  | .mxor y d a b => Sys2Proof.Machine.execMxor y d a b s
  | .mnot y d b => Sys2Proof.Machine.execMnot y d b s
  | .mpopc y d b => Sys2Proof.Machine.execMpopc y d b s
  | .mfirst y d b => Sys2Proof.Machine.execMfirst y d b s
  | .nopL y => Sys2Proof.Machine.execNopL y s
  | .zbind y t b f => Sys2Proof.Machine.execZbind y t b f s
  | .zstart y d => Sys2Proof.Machine.execZstart y d s
  | .zstop y d => Sys2Proof.Machine.execZstop y d s
  | .zskip y d k => Sys2Proof.Machine.execZskip y d k s
  | .ldv y t b ix => Sys2Proof.Machine.execLdv y t b ix s
  | .streamFill z => Sys2Proof.Machine.execStreamFill z s
  | .nopM y => Sys2Proof.Machine.execNopM y s
  | .mload y d a c sx => Sys2Proof.Machine.execMload y d a c sx s
  | .mstore y d a sx => Sys2Proof.Machine.execMstore y d a sx s
  | .msweep y d sx b m p g c f => Sys2Proof.Machine.execMsweep y d sx b m p g c f s
  | .mderive y d sx b m p => Sys2Proof.Machine.execMderive y d sx b m p s
  | .mscale y d a sx => Sys2Proof.Machine.execMscale y d a sx s
  | .mpanel y d sx => Sys2Proof.Machine.execMpanel y d sx s
  | .mslice y w sx n f p m => Sys2Proof.Machine.execMslice y w sx n f p m s
  | .mcommit y b => Sys2Proof.Machine.execMcommit y b s
  | .mwaitb y b => Sys2Proof.Machine.execMwaitb y b s
  | .mretire y d w n r p m => Sys2Proof.Machine.execMretire y d w n r p m s
  | .mnorm y d sx c => Sys2Proof.Machine.execMnorm y d sx c s
  | .mclrWindow y u a sx => Sys2Proof.Machine.execMclrWindow y u a sx s
  | .mclrBank y d sx => Sys2Proof.Machine.execMclrBank y d sx s
  | .mstat y d c sx => Sys2Proof.Machine.execMstat y d c sx s
  | .mfence y k => Sys2Proof.Machine.execMfence y k s
  | .meshOperationComplete op => Sys2Proof.Machine.execMeshOperationComplete op s
  | .sweepSegmentEnd op => Sys2Proof.Machine.execSweepSegmentEnd op s
  | .batchWriteBack => Sys2Proof.Machine.execBatchWriteBack s
  | .nopS y => Sys2Proof.Machine.execNopS y s
  | .zdrain y d => Sys2Proof.Machine.execZdrain y d s
  | .stv y t b ix => Sys2Proof.Machine.execStv y t b ix s
  | .scvt y d r b sx => Sys2Proof.Machine.execScvt y d r b sx s
  | .samax y d sx k c => Sys2Proof.Machine.execSamax y d sx k c s
  | .vamaxr y d k p q => Sys2Proof.Machine.execVamaxr y d k p q s
  | .supd y j q n => Sys2Proof.Machine.execSupd y j q n s
  | .spair y q => Sys2Proof.Machine.execSpair y q s
  | .streamDrainWrite z => Sys2Proof.Machine.execStreamDrainWrite z s
  | .notify y m c n => Sys2Proof.Machine.execNotify y m c n s
  | .dictld y sx e => Sys2Proof.Machine.execDictld y sx e s
  | .bemEq y m f g o => Sys2Proof.Machine.execBemEq y m f g o s
  | .bemEqA y m f g o => Sys2Proof.Machine.execBemEqA y m f g o s
  | .bemNe y m f g o => Sys2Proof.Machine.execBemNe y m f g o s
  | .bemNeA y m f g o => Sys2Proof.Machine.execBemNeA y m f g o s
  | .bemLt y m f g o => Sys2Proof.Machine.execBemLt y m f g o s
  | .bemLtA y m f g o => Sys2Proof.Machine.execBemLtA y m f g o s
  | .bemLe y m f g o => Sys2Proof.Machine.execBemLe y m f g o s
  | .bemLeA y m f g o => Sys2Proof.Machine.execBemLeA y m f g o s
  | .bemLtn y m f g o => Sys2Proof.Machine.execBemLtn y m f g o s
  | .bemLtnA y m f g o => Sys2Proof.Machine.execBemLtnA y m f g o s
  | .bemLen y m f g o => Sys2Proof.Machine.execBemLen y m f g o s
  | .bemLenA y m f g o => Sys2Proof.Machine.execBemLenA y m f g o s
  | .blockHeader l c => Sys2Proof.Machine.execBlockHeader l c s
  | .blockHeaderReg l r => Sys2Proof.Machine.execBlockHeaderReg l r s
  | .blockEnd e => Sys2Proof.Machine.execBlockEnd e s
  | .timedNop n => Sys2Proof.Machine.execTimedNop n s
  | .dictionaryReference ix => Sys2Proof.Machine.execDictionaryReference ix s
  | .variableLatencyArrival e ix => Sys2Proof.Machine.execVariableLatencyArrival e ix s
  | .interrupt => Sys2Proof.Machine.execInterrupt s
  | .routineFault job => Sys2Proof.Machine.execRoutineFault job s
  | .debugStop => Sys2Proof.Machine.execDebugStop s
  | .debugResume => Sys2Proof.Machine.execDebugResume s
  | .jobStart job => Sys2Proof.Machine.execJobStart job s
  | .copyChunkComplete job => Sys2Proof.Machine.execCopyChunkComplete job s
  | .jobComplete job => Sys2Proof.Machine.execJobComplete job s
  | .firingStart ctx slot => Sys2Proof.Machine.execFiringStart ctx slot s
  | .firingLocalComplete ctx slot => Sys2Proof.Machine.execFiringLocalComplete ctx slot s
  | .firingTimeout ctx slot => Sys2Proof.Machine.execFiringTimeout ctx slot s
  | .firingRecordExpiry qp slot firing => Sys2Proof.Machine.execFiringRecordExpiry qp slot firing s
  | .create rec => Sys2Proof.Machine.execCreate rec s
  | .destroy rec => Sys2Proof.Machine.execDestroy rec s
  | .replenish rec => Sys2Proof.Machine.execReplenish rec s
  | .ctxRead rec => Sys2Proof.Machine.execCtxRead rec s
  | .contextFrozen ctx => Sys2Proof.Machine.execContextFrozen ctx s
  | .contextDrained ctx => Sys2Proof.Machine.execContextDrained ctx s
  | .enable rec => Sys2Proof.Machine.execEnable rec s
  | .disable rec => Sys2Proof.Machine.execDisable rec s
  | .resume rec => Sys2Proof.Machine.execResume rec s
  | .flush rec => Sys2Proof.Machine.execFlush rec s
  | .queueRead rec => Sys2Proof.Machine.execQueueRead rec s
  | .launch queue => Sys2Proof.Machine.execLaunch queue s
  | .step queue => Sys2Proof.Machine.execStep queue s
  | .wait queue => Sys2Proof.Machine.execWait queue s
  | .waitConditionHolds queue index => Sys2Proof.Machine.execWaitConditionHolds queue index s
  | .signalEntry queue => Sys2Proof.Machine.execSignalEntry queue s
  | .hostnote queue => Sys2Proof.Machine.execHostnote queue s
  | .entryCompletion queue index => Sys2Proof.Machine.execEntryCompletion queue index s
  | .serviceOpportunity => Sys2Proof.Machine.execServiceOpportunity s
  | .placementComplete launch cluster => Sys2Proof.Machine.execPlacementComplete launch cluster s
  | .kernelTriggerMet launch => Sys2Proof.Machine.execKernelTriggerMet launch s
  | .combinerCompletion => Sys2Proof.Machine.execCombinerCompletion s
  | .preemption => Sys2Proof.Machine.execPreemption s
  | .hangDetected => Sys2Proof.Machine.execHangDetected s
  | .calendarReservation kdesc tick => Sys2Proof.Machine.execCalendarReservation kdesc tick s
  | .calendarStart kdesc tick => Sys2Proof.Machine.execCalendarStart kdesc tick s
  | .configure rec => Sys2Proof.Machine.execConfigure rec s
  | .remove rec => Sys2Proof.Machine.execRemove rec s
  | .barrierReset rec => Sys2Proof.Machine.execBarrierReset rec s
  | .barrierRead rec => Sys2Proof.Machine.execBarrierRead rec s
  | .barrierReleaseTick ctx bar => Sys2Proof.Machine.execBarrierReleaseTick ctx bar s
  | .qpopen rec => Sys2Proof.Machine.execQpopen rec s
  | .qpclose rec => Sys2Proof.Machine.execQpclose rec s
  | .qpread rec => Sys2Proof.Machine.execQpread rec s
  | .portfence rec => Sys2Proof.Machine.execPortfence rec s
  | .portunfence rec => Sys2Proof.Machine.execPortunfence rec s
  | .route rec => Sys2Proof.Machine.execRoute rec s
  | .portread rec => Sys2Proof.Machine.execPortread rec s
  | .timecfg rec => Sys2Proof.Machine.execTimecfg rec s
  | .qpConnectRetry qp => Sys2Proof.Machine.execQpConnectRetry qp s
  | .qpClosed qp => Sys2Proof.Machine.execQpClosed qp s
  | .portTrained port lanes => Sys2Proof.Machine.execPortTrained port lanes s
  | .trainingTimeout port => Sys2Proof.Machine.execTrainingTimeout port s
  | .trainingRetry port => Sys2Proof.Machine.execTrainingRetry port s
  | .laneFailure port => Sys2Proof.Machine.execLaneFailure port s
  | .fenceDrainTimeout port => Sys2Proof.Machine.execFenceDrainTimeout port s
  | .flitReceive port seq crc ack flit => Sys2Proof.Machine.execFlitReceive port seq crc ack flit s
  | .rdreq hdr payload => Sys2Proof.Machine.execRdreq hdr payload s
  | .rdrsp hdr payload => Sys2Proof.Machine.execRdrsp hdr payload s
  | .wrreq hdr payload => Sys2Proof.Machine.execWrreq hdr payload s
  | .atreq hdr payload => Sys2Proof.Machine.execAtreq hdr payload s
  | .atrsp hdr payload => Sys2Proof.Machine.execAtrsp hdr payload s
  | .wrack hdr payload => Sys2Proof.Machine.execWrack hdr payload s
  | .fire hdr payload => Sys2Proof.Machine.execFire hdr payload s
  | .fack hdr payload => Sys2Proof.Machine.execFack hdr payload s
  | .ctrl hdr payload => Sys2Proof.Machine.execCtrl hdr payload s
  | .time hdr payload => Sys2Proof.Machine.execTime hdr payload s
  | .forwardResend tag => Sys2Proof.Machine.execForwardResend tag s
  | .forwardFailure tag => Sys2Proof.Machine.execForwardFailure tag s
  | .homeRecordExpiry smod tag => Sys2Proof.Machine.execHomeRecordExpiry smod tag s
  | .datagramReceive port transport hdr payload => Sys2Proof.Machine.execDatagramReceive port transport hdr payload s
  | .ethResendTimeout qp => Sys2Proof.Machine.execEthResendTimeout qp s
  | .timePacketSend => Sys2Proof.Machine.execTimePacketSend s
  | .holdoverEntry => Sys2Proof.Machine.execHoldoverEntry s
  | .slewEnd => Sys2Proof.Machine.execSlewEnd s
  | .migrate rec => Sys2Proof.Machine.execMigrate rec s
  | .migrationCopyDone rec => Sys2Proof.Machine.execMigrationCopyDone rec s
  | .duplicate rec => Sys2Proof.Machine.execDuplicate rec s
  | .hold rec => Sys2Proof.Machine.execHold rec s
  | .unhold rec => Sys2Proof.Machine.execUnhold rec s
  | .unmap rec => Sys2Proof.Machine.execUnmap rec s
  | .zerocnt rec => Sys2Proof.Machine.execZerocnt rec s
  | .lend rec => Sys2Proof.Machine.execLend rec s
  | .borrow rec => Sys2Proof.Machine.execBorrow rec s
  | .revoke rec => Sys2Proof.Machine.execRevoke rec s
  | .leaseDeadline ctx va => Sys2Proof.Machine.execLeaseDeadline ctx va s
  | .accWriteback ctx entry => Sys2Proof.Machine.execAccWriteback ctx entry s
  | .messidorDrain => Sys2Proof.Machine.execMessidorDrain s
  | .eccAggregate ctx => Sys2Proof.Machine.execEccAggregate ctx s
  | .reset => Sys2Proof.Machine.execReset s
  | .bootStage header body => Sys2Proof.Machine.execBootStage header body s
  | .rollbackRaise signed => Sys2Proof.Machine.execRollbackRaise signed s
  | .hostMemoryAccess write addr data => Sys2Proof.Machine.execHostMemoryAccess write addr data s
  | .bar0RegisterWrite off value => Sys2Proof.Machine.execBar0RegisterWrite off value s
  | .pcapWrite watts => Sys2Proof.Machine.execPcapWrite watts s
  | .throttleStart watts celsius => Sys2Proof.Machine.execThrottleStart watts celsius s
  | .throttleEnd watts celsius => Sys2Proof.Machine.execThrottleEnd watts celsius s
  | .thermalTrip celsius => Sys2Proof.Machine.execThermalTrip celsius s
  | .getVersion => Sys2Proof.Machine.execGetVersion s
  | .getCapabilities => Sys2Proof.Machine.execGetCapabilities s
  | .negotiateAlgorithms => Sys2Proof.Machine.execNegotiateAlgorithms s
  | .getDigests => Sys2Proof.Machine.execGetDigests s
  | .getCertificate off len => Sys2Proof.Machine.execGetCertificate off len s
  | .challenge nonce => Sys2Proof.Machine.execChallenge nonce s
  | .getMeasurements index => Sys2Proof.Machine.execGetMeasurements index s
  | .unsupportedRequest code => Sys2Proof.Machine.execUnsupportedRequest code s
  | .mgmtRead item => Sys2Proof.Machine.execMgmtRead item s
  | .coldReset => Sys2Proof.Machine.execColdReset s
  | .unassignedItem e => Sys2Proof.Machine.execUnassignedItem e s
  | .badcmd bell rec => Sys2Proof.Machine.execBadcmd bell rec s
  | .meshVectorAppended op => Sys2Proof.Machine.execMeshVectorAppended op s
  | .slicePairBoundary op => Sys2Proof.Machine.execSlicePairBoundary op s
  | .duplicateCopyDone rec => Sys2Proof.Machine.execDuplicateCopyDone rec s
  | .swapExchangeComplete => Sys2Proof.Machine.execSwapExchangeComplete s
  | .podTimeReached => Sys2Proof.Machine.execPodTimeReached s

end Sys2Proof.Machine
end

