-- ==== Sys2Proof/Machine/Time.lean ====
section
/-! DEFINITION. Pod time passing (21_link R335) and what is charged by it (13_context R265). -/

namespace Sys2Proof.Machine

/-- R335: the counter after `ns` of its oscillator: a slew counts 200 ns per ms faster or slower, one ns in 5000. Log entry 9. -/
def PodTime.pass (p : PodTime) (ns : Nat) : PodTime :=
  if p.slew = 0 then { p with now := p.now + ns }
  else
    let f := p.frac + ns
    let k := min (f / 5000) p.slew.natAbs
    if 0 < p.slew then { p with now := p.now + ns + k, slew := p.slew - k, frac := f % 5000 }
    else { p with now := p.now + (ns - k), slew := p.slew + k, frac := f % 5000 }

/-- R265: a group is charged from its placement to its completion, pre-emption left out. -/
def Phase.isCharged : Phase → Bool
  | .placing => true
  | .running => true
  | .handler => true
  | .stopped => true
  | _ => false

/-- R265: charge `ns` to every node of the core budget path of a group's region. -/
def State.charge (s : State) (ns : Nat) (g : Group) : State :=
  if g.phase.isCharged then
    s.onCtx g.ident.ctx fun c =>
      c.onRcbs ((c.corePath (bitsOf g.sys.ctxinfo.toNat 16 16)).map (·.addr)) fun r => { r with cusedNs := r.cusedNs + ns }
  else s

/-- `ns` of time pass. Log entry 9. -/
def State.elapse (s : State) (ns : Nat) : State :=
  let t := s.time.pass ns
  let d := t.now - s.time.now
  s.groups.foldl (fun x g => x.charge d g) { s with time := t }

end Sys2Proof.Machine
end

