-- ==== Sys2Proof/Machine/Async.lean ====
section
/-! DEFINITION. The events that can happen without the engines' doing (log entry 3): which rows of the opcode table are enabled in
a state, for the group in focus and for the module. -/

namespace Sys2Proof.Machine

/-- An event that can happen: the meaning of one row of the opcode table. Laws/Async.lean shows of every event below that it is
`exec` of a row. (The list is of meanings, since the compiler cannot build the values of the last constructors of `Instr`.) -/
abbrev Act : Type := State → Host.Outcome State Fault Refusal

/-- An event where a condition holds. -/
def when_ (b : Bool) (a : Act) : List Act := if b then [a] else []

/-! ## The group in focus -/

/-- Arrivals, fills and drains. -/
def State.unitEvents (s : State) : List Act :=
  when_ s.interruptEnabled execInterrupt ++
  (allEngines.filterMap fun e => (s.eng e).nextArrival.map fun n => execVariableLatencyArrival (BitVec.ofNat 3 e.tag) n) ++
  (List.range 16).flatMap fun z =>
    when_ (s.fillEnabled (BitVec.ofNat 4 z)) (execStreamFill (BitVec.ofNat 4 z)) ++
      when_ (s.drainEnabled (BitVec.ofNat 4 z)) (execStreamDrainWrite (BitVec.ofNat 4 z))

/-- R303: a mesh at its pre-emption point goes no further. -/
def State.meshHeld (s : State) : Bool := s.me.work.yielding && s.me.mesh.atPoint

/-- The mesh. -/
def State.meshEvents (s : State) : List Act :=
  if s.meshHeld then []
  else
    (s.me.mesh.ops.flatMap fun o =>
      when_ (s.meshVector o.id).isSome (execMeshVectorAppended o.id) ++ when_ (s.meshPair o.id).isSome (execSlicePairBoundary o.id) ++
        when_ (s.meshSegment o.id).isSome (execSweepSegmentEnd o.id) ++
        when_ (s.meshComplete o.id).isSome (execMeshOperationComplete o.id)) ++
      when_ s.meshWriteBack.isSome execBatchWriteBack

/-- Jobs. -/
def State.jobEvents (s : State) : List Act :=
  s.me.work.jobs.flatMap fun j =>
    when_ (s.jobStartEnabled j.num) (execJobStart j.num) ++ when_ (s.copyChunkEnabled j.num) (execCopyChunkComplete j.num) ++
      when_ (s.jobCompleteEnabled j.num) (execJobComplete j.num) ++ when_ (s.routineFaultEnabled j.num) (execRoutineFault j.num)

/-- What can happen to the group in focus. -/
def State.groupEvents (s : State) : List Act :=
  if s.me.phase.isPlaced then
    s.unitEvents ++ s.meshEvents ++ s.jobEvents ++ when_ s.combinerEnabled execCombinerCompletion ++
      when_ s.preemptionEnabled execPreemption ++ when_ s.hangEnabled execHangDetected
  else []

/-! ## The front end -/

/-- The meaning of a command, by its doorbell and OP. -/
def bellAct (b : Bell) (op : Nat) (cmd : BitVec 52) : Act :=
  match b, op with
  | .ctx, 1 => execCreate cmd
  | .ctx, 2 => execDestroy cmd
  | .ctx, 3 => execReplenish cmd
  | .ctx, 4 => execCtxRead cmd
  | .queue, 1 => execEnable cmd
  | .queue, 2 => execDisable cmd
  | .queue, 3 => execResume cmd
  | .queue, 4 => execFlush cmd
  | .queue, 5 => execQueueRead cmd
  | .bar, 1 => execConfigure cmd
  | .bar, 2 => execRemove cmd
  | .bar, 3 => execBarrierReset cmd
  | .bar, 4 => execBarrierRead cmd
  | .link, 1 => execQpopen cmd
  | .link, 2 => execQpclose cmd
  | .link, 3 => execQpread cmd
  | .link, 4 => execPortfence cmd
  | .link, 5 => execPortunfence cmd
  | .link, 6 => execRoute cmd
  | .link, 7 => execPortread cmd
  | .link, 8 => execTimecfg cmd
  | .page, 1 => execMigrate cmd
  | .page, 2 => execDuplicate cmd
  | .page, 3 => execHold cmd
  | .page, 4 => execUnhold cmd
  | .page, 5 => execUnmap cmd
  | .page, 6 => execZerocnt cmd
  | .page, 7 => execLend cmd
  | .page, 8 => execBorrow cmd
  | .page, 9 => execRevoke cmd
  | .ctx, _ => execBadcmd 0 cmd
  | .queue, _ => execBadcmd 1 cmd
  | .bar, _ => execBadcmd 2 cmd
  | .link, _ => execBadcmd 3 cmd
  | .page, _ => execBadcmd 4 cmd

/-- The command at the front waits: a DESTROY of a FREEZING context (R260), a 17th page command (R345). -/
def State.bellWaits (s : State) (b : Bell) (r : List Byte) : Bool :=
  (b == .ctx && recField r 0 1 == 2 && (s.ctx (recField r 2 1)).any fun c => c.st == .freezing) ||
    (b == .page && decide (16 ≤ s.pages.ops.length))

/-- The command whose turn it is (R270). -/
def State.bellEvents (s : State) : List Act :=
  match s.fe.bells with
  | [] => []
  | (b, cmd) :: _ =>
    let r := s.cmdBytes cmd
    when_ (s.boot.ready && !s.bellWaits b r && !(s.recordMissing cmd && s.awaits (.bell cmd))) (bellAct b (recField r 0 1) (BitVec.ofNat 52 cmd))

/-- Entries of a queue. -/
def State.queueEvents (s : State) : List Act :=
  s.fe.queues.flatMap fun q =>
    let n := BitVec.ofNat 10 q.1
    when_ (s.serves && (s.launchEnabled q.1).isSome) (execLaunch n) ++
      q.2.entries.flatMap fun e =>
        when_ (s.waitMet q.1 e.index) (execWaitConditionHolds n e.index) ++
          when_ (s.entryDone q.1 e.index).isSome (execEntryCompletion n e.index)

/-- R296: the groups of a calendar launch are held until a TICK that has come. -/
def State.calendarDue (s : State) (l : Launch) : Bool :=
  l.tick.any (fun t => decide (t ≤ s.time.now)) && s.groups.any fun g => g.ident.launch == l.id && g.time.hold.isSome

/-- Launches: triggers, placement, the calendar. -/
def State.launchEvents (s : State) : List Act :=
  (s.fe.launches.flatMap fun l => when_ (s.triggerMet l.id) (execKernelTriggerMet l.id)) ++
  (s.groups.flatMap fun g => when_ (s.placingEnabled g.ident.launch g.ident.cluster) (execPlacementComplete g.ident.launch g.ident.cluster)) ++
  (s.fe.calendar.flatMap fun e =>
    when_ (s.reservationDue e.kdesc e.tick) (execCalendarReservation (BitVec.ofNat 64 e.kdesc) (BitVec.ofNat 64 e.tick))) ++
  (s.fe.launches.flatMap fun l =>
    when_ (s.calendarDue l) (execCalendarStart (BitVec.ofNat 64 l.kva) (BitVec.ofNat 64 (l.tick.getD 0)))) ++
  when_ (s.serves && (s.pick.isSome || s.calendarNext.isSome)) execServiceOpportunity

/-- Contexts: freezing, draining, slots, barriers, access counters, traces. -/
def State.ctxEvents (s : State) : List Act :=
  (s.ctxs.flatMap fun c =>
    let n := BitVec.ofNat 8 c.1
    when_ (s.frozenEnabled c.1) (execContextFrozen n) ++ when_ (s.drainedEnabled c.1) (execContextDrained n) ++
    (c.2.slots.flatMap fun x =>
      when_ (s.firingStartEnabled c.1 x.1) (execFiringStart n (BitVec.ofNat 12 x.1)) ++
        when_ (s.firingSendEnabled c.1 x.1) (execFiringLocalComplete n (BitVec.ofNat 12 x.1)) ++
        when_ (s.firingTimeoutEnabled c.1 x.1) (execFiringTimeout n (BitVec.ofNat 12 x.1))) ++
    (c.2.bars.flatMap fun b => when_ (b.2.due s.time.now).isSome (execBarrierReleaseTick n (BitVec.ofNat 12 b.1))) ++
    (c.2.accs.flatMap fun a => when_ a.dirty (execAccWriteback n (BitVec.ofNat 52 a.entry))) ++
    when_ (s.eccDue c.1) (execEccAggregate n)) ++
  when_ (s.ctxs.any fun c => s.traceReady c.1 c.2 || c.2.ringHdr.isSome) execMessidorDrain

/-! ## Links, pages and time -/

/-- Links and queue pairs. -/
def State.linkEvents (s : State) : List Act :=
  let now := s.time.now
  (s.links.ports.flatMap fun p =>
    when_ (p.trainingLate now) (execTrainingTimeout p.num) ++ when_ (p.retryDue now) (execTrainingRetry p.num) ++
      when_ (p.drainLate now) (execFenceDrainTimeout p.num)) ++
  (s.links.qps.flatMap fun q =>
    let n := BitVec.ofNat 12 q.num
    when_ (q.connectDue now) (execQpConnectRetry n) ++ when_ (s.qpCloseEnabled q.num) (execQpClosed n) ++
      when_ (q.resendDue now) (execEthResendTimeout n) ++
      q.recs.flatMap fun r => when_ (r.expired now) (execFiringRecordExpiry n (BitVec.ofNat 12 r.slot) r.firing)) ++
  (s.links.fwds.flatMap fun f =>
    when_ (f.resendDue now) (execForwardResend (BitVec.ofNat 32 f.tag)) ++ when_ (s.fwdFailed f) (execForwardFailure (BitVec.ofNat 32 f.tag))) ++
  s.links.homes.flatMap fun r => when_ (r.expired now) (execHomeRecordExpiry (BitVec.ofNat 10 r.smod) (BitVec.ofNat 32 r.tag))

/-- A lease or a borrowed page whose deadline has passed. -/
def pastDeadline (now : Nat) (d : Option Nat) : Bool := d.any fun t => decide (t ≤ now)

/-- Page commands, leases, swaps, and time. -/
def State.pageEvents (s : State) : List Act :=
  let now := s.time.now
  (s.pages.ops.flatMap fun o =>
    when_ (s.migrationEnabled o.cmd) (execMigrationCopyDone (BitVec.ofNat 52 o.cmd)) ++
      when_ (s.duplicateEnabled o.cmd) (execDuplicateCopyDone (BitVec.ofNat 52 o.cmd))) ++
  (s.pages.leases.flatMap fun l =>
    when_ (!l.passed && pastDeadline now l.deadline) (execLeaseDeadline (BitVec.ofNat 8 l.ctx) (BitVec.ofNat 64 l.va))) ++
  (s.pages.borrowed.flatMap fun b =>
    when_ (pastDeadline now b.deadline) (execLeaseDeadline (BitVec.ofNat 8 b.ctx) (BitVec.ofNat 64 b.va))) ++
  when_ s.nextSwap.isSome execSwapExchangeComplete ++ when_ s.timeSendDue execTimePacketSend ++ when_ s.holdoverDue execHoldoverEntry ++
  when_ s.slewEnded execSlewEnd

/-! ## The turn -/

/-- Every event that is enabled. -/
def State.events (s : State) : List Act :=
  s.groupEvents ++ s.bellEvents ++ s.queueEvents ++ s.launchEvents ++ s.ctxEvents ++ s.linkEvents ++ s.pageEvents

/-- The next group comes into focus; one that has left its core goes. -/
def State.rotate (s : State) : State :=
  match s.rest with
  | [] => s
  | g :: r => if s.me.phase.isPlaced then { s with me := g, rest := r ++ [s.me] } else { s with me := g, rest := r }

/-- What the front end and the homes observe as time passes: overruns, queues that become ready, LISTs to fetch, sync objects that can
be granted, joins and SEALs whose accesses are performed. -/
def State.observe (s : State) : State := s.noteOverrun.noteReady.askLists.noteGrants.noteJoins.noteSealings

/-- The event that the turn takes: by pod time, so that each one that stays enabled comes (log entry 3). -/
def State.nextEvent (s : State) : Option Act :=
  let l := s.events
  l[s.time.now % l.length]?

/-- The turn ends: a nanosecond passes, and the next group comes into focus. -/
def State.endTurn (s : State) : State := { (s.elapse 1).rotate with turn := .engine .c }

end Sys2Proof.Machine
end

