-- ==== Sys2Proof/Machine/Fetch.lean ====
section
/-! DEFINITION. The computable table that runs the item an engine has fetched: for each OP of 04_encoding R65 to R69 the meaning of
its row on the fields of the word, a trap with cause ILLEGAL for an unassigned OP, and one with cause RESERVED_FIELD for a
reserved bit (R70). Laws/Fetch.lean proves it equal to decoding the word and running exec. -/

namespace Sys2Proof.Machine

/-- Run a system word (OP 0x7F) as engine `e`. -/
def runSys (e : Engine) (w : Nat) (s : State) : Out :=
  match fld w 0 5 with
  | 1 => if fld w 5 5 == 0 then execTrap (bvf w 20 2) (bvf w 15 5) (bvf w 10 5) s else trapItem e causeReserved s
  | 2 => if fld w 5 10 == 0 then execRft (bvf w 20 2) (bvf w 15 5) s else trapItem e causeReserved s
  | 3 => if fld w 5 10 == 0 then execBrk (bvf w 20 2) (bvf w 15 5) s else trapItem e causeReserved s
  | 4 => if fld w 15 5 == 0 then execThset (bvf w 20 2) (bvf w 10 5) (bvf w 5 5) s else trapItem e causeReserved s
  | 5 => if fld w 5 15 == 0 then execEngclaim (bvf w 20 2) s else trapItem e causeReserved s
  | 6 => if fld w 5 15 == 0 then execEngrel (bvf w 20 2) s else trapItem e causeReserved s
  | 7 => if fld w 5 5 == 0 && fld w 15 5 == 0 then execTimealign (bvf w 20 2) (bvf w 10 5) s else trapItem e causeReserved s
  | 8 => if fld w 5 5 == 0 && fld w 18 2 == 0 then execErd (bvf w 20 2) (bvf w 15 3) (bvf w 10 5) s else trapItem e causeReserved s
  | 9 => if fld w 5 5 == 0 && fld w 13 2 == 0 && fld w 18 2 == 0 then execEmov (bvf w 20 2) (bvf w 15 3) (bvf w 10 3) s else trapItem e causeReserved s
  | 10 => if fld w 14 1 == 0 && fld w 18 2 == 0 then execEstore (bvf w 20 2) (bvf w 15 3) (bvf w 10 4) (bvf w 5 5) s else trapItem e causeReserved s
  | 11 => if fld w 5 5 == 0 then execTrace (bvf w 20 2) (bvf w 15 5) (bvf w 10 5) s else trapItem e causeReserved s
  | 12 => if fld w 5 15 == 0 then execYield (bvf w 20 2) s else trapItem e causeReserved s
  | 13 => if fld w 5 15 == 0 then execHalt (bvf w 20 2) s else trapItem e causeReserved s
  | 14 => if fld w 15 5 == 0 then execIinv (bvf w 20 2) (bvf w 10 5) (bvf w 5 5) s else trapItem e causeReserved s
  | 15 => if fld w 5 5 == 0 then execCalset (bvf w 20 2) (bvf w 15 5) (bvf w 10 5) s else trapItem e causeReserved s
  | 16 => if fld w 5 5 == 0 then execXswap (bvf w 20 2) (bvf w 15 5) (bvf w 10 5) s else trapItem e causeReserved s
  | _ => trapItem e causeIllegal s

/-- Run a word of tag 000 as engine `e` (C, or the engine that a BRK word names). -/
def runC (e : Engine) (w : Nat) (s : State) : Out :=
  match fld w 22 7 with
  | 1 => if fld w 0 20 == 0 then execNopC (bvf w 20 2) s else trapItem e causeReserved s
  | 2 => if fld w 0 5 == 0 then execAdd (bvf w 20 2) (bvf w 15 5) (bvf w 10 5) (bvf w 5 5) s else trapItem e causeReserved s
  | 3 => if fld w 0 5 == 0 then execSub (bvf w 20 2) (bvf w 15 5) (bvf w 10 5) (bvf w 5 5) s else trapItem e causeReserved s
  | 4 => if fld w 0 5 == 0 then execMul (bvf w 20 2) (bvf w 15 5) (bvf w 10 5) (bvf w 5 5) s else trapItem e causeReserved s
  | 5 => if fld w 0 5 == 0 then execMulh (bvf w 20 2) (bvf w 15 5) (bvf w 10 5) (bvf w 5 5) s else trapItem e causeReserved s
  | 6 => if fld w 0 5 == 0 then execMulhn (bvf w 20 2) (bvf w 15 5) (bvf w 10 5) (bvf w 5 5) s else trapItem e causeReserved s
  | 7 => if fld w 0 5 == 0 then execDiv (bvf w 20 2) (bvf w 15 5) (bvf w 10 5) (bvf w 5 5) s else trapItem e causeReserved s
  | 8 => if fld w 0 5 == 0 then execDivn (bvf w 20 2) (bvf w 15 5) (bvf w 10 5) (bvf w 5 5) s else trapItem e causeReserved s
  | 9 => if fld w 0 5 == 0 then execRem (bvf w 20 2) (bvf w 15 5) (bvf w 10 5) (bvf w 5 5) s else trapItem e causeReserved s
  | 10 => if fld w 0 5 == 0 then execRemn (bvf w 20 2) (bvf w 15 5) (bvf w 10 5) (bvf w 5 5) s else trapItem e causeReserved s
  | 11 => if fld w 0 5 == 0 then execAnd (bvf w 20 2) (bvf w 15 5) (bvf w 10 5) (bvf w 5 5) s else trapItem e causeReserved s
  | 12 => if fld w 0 5 == 0 then execOr (bvf w 20 2) (bvf w 15 5) (bvf w 10 5) (bvf w 5 5) s else trapItem e causeReserved s
  | 13 => if fld w 0 5 == 0 then execXor (bvf w 20 2) (bvf w 15 5) (bvf w 10 5) (bvf w 5 5) s else trapItem e causeReserved s
  | 14 => if fld w 0 5 == 0 then execShl (bvf w 20 2) (bvf w 15 5) (bvf w 10 5) (bvf w 5 5) s else trapItem e causeReserved s
  | 15 => if fld w 0 5 == 0 then execShr (bvf w 20 2) (bvf w 15 5) (bvf w 10 5) (bvf w 5 5) s else trapItem e causeReserved s
  | 16 => if fld w 0 5 == 0 then execSar (bvf w 20 2) (bvf w 15 5) (bvf w 10 5) (bvf w 5 5) s else trapItem e causeReserved s
  | 17 => if fld w 0 5 == 0 then execSlt (bvf w 20 2) (bvf w 15 5) (bvf w 10 5) (bvf w 5 5) s else trapItem e causeReserved s
  | 18 => if fld w 0 5 == 0 then execSltn (bvf w 20 2) (bvf w 15 5) (bvf w 10 5) (bvf w 5 5) s else trapItem e causeReserved s
  | 19 => if fld w 0 5 == 0 then execMin (bvf w 20 2) (bvf w 15 5) (bvf w 10 5) (bvf w 5 5) s else trapItem e causeReserved s
  | 20 => if fld w 0 5 == 0 then execMax (bvf w 20 2) (bvf w 15 5) (bvf w 10 5) (bvf w 5 5) s else trapItem e causeReserved s
  | 21 => if fld w 0 5 == 0 then execMinn (bvf w 20 2) (bvf w 15 5) (bvf w 10 5) (bvf w 5 5) s else trapItem e causeReserved s
  | 22 => if fld w 0 5 == 0 then execMaxn (bvf w 20 2) (bvf w 15 5) (bvf w 10 5) (bvf w 5 5) s else trapItem e causeReserved s
  | 23 => execFsh (bvf w 20 2) (bvf w 15 5) (bvf w 10 5) (bvf w 5 5) (bvf w 0 5) s
  | 24 => if fld w 3 2 == 0 then execSel (bvf w 20 2) (bvf w 15 5) (bvf w 10 5) (bvf w 5 5) (bvf w 0 3) s else trapItem e causeReserved s
  | 25 => execAddi (bvf w 20 2) (bvf w 15 5) (bvf w 10 5) (bvf w 0 10) s
  | 26 => execAndi (bvf w 20 2) (bvf w 15 5) (bvf w 10 5) (bvf w 0 10) s
  | 27 => execOri (bvf w 20 2) (bvf w 15 5) (bvf w 10 5) (bvf w 0 10) s
  | 28 => execXori (bvf w 20 2) (bvf w 15 5) (bvf w 10 5) (bvf w 0 10) s
  | 29 => if fld w 6 4 == 0 then execShli (bvf w 20 2) (bvf w 15 5) (bvf w 10 5) (bvf w 0 6) s else trapItem e causeReserved s
  | 30 => if fld w 6 4 == 0 then execShri (bvf w 20 2) (bvf w 15 5) (bvf w 10 5) (bvf w 0 6) s else trapItem e causeReserved s
  | 31 => if fld w 6 4 == 0 then execSari (bvf w 20 2) (bvf w 15 5) (bvf w 10 5) (bvf w 0 6) s else trapItem e causeReserved s
  | 32 => execSlti (bvf w 20 2) (bvf w 15 5) (bvf w 10 5) (bvf w 0 10) s
  | 33 => execExt (bvf w 20 2) (bvf w 15 5) (bvf w 10 5) (bvf w 6 4) (bvf w 0 6) s
  | 34 => execIns (bvf w 20 2) (bvf w 15 5) (bvf w 10 5) (bvf w 6 4) (bvf w 0 6) s
  | 35 => if fld w 0 10 == 0 then execClz (bvf w 20 2) (bvf w 15 5) (bvf w 10 5) s else trapItem e causeReserved s
  | 36 => if fld w 0 10 == 0 then execCtz (bvf w 20 2) (bvf w 15 5) (bvf w 10 5) s else trapItem e causeReserved s
  | 37 => if fld w 0 10 == 0 then execPopc (bvf w 20 2) (bvf w 15 5) (bvf w 10 5) s else trapItem e causeReserved s
  | 38 => execLih (bvf w 20 2) (bvf w 15 5) (bvf w 0 15) s
  | 39 => if fld w 3 2 == 0 && fld w 18 2 == 0 then execCmpCc (bvf w 20 2) (bvf w 15 3) (bvf w 10 5) (bvf w 5 5) (bvf w 0 3) s else trapItem e causeReserved s
  | 40 => if fld w 18 2 == 0 then execCmpiCc (bvf w 22 3) (bvf w 20 2) (bvf w 15 3) (bvf w 10 5) (bvf w 0 10) s else trapItem e causeReserved s
  | 41 => if fld w 18 2 == 0 then execCmpiCc (bvf w 22 3) (bvf w 20 2) (bvf w 15 3) (bvf w 10 5) (bvf w 0 10) s else trapItem e causeReserved s
  | 42 => if fld w 18 2 == 0 then execCmpiCc (bvf w 22 3) (bvf w 20 2) (bvf w 15 3) (bvf w 10 5) (bvf w 0 10) s else trapItem e causeReserved s
  | 43 => if fld w 18 2 == 0 then execCmpiCc (bvf w 22 3) (bvf w 20 2) (bvf w 15 3) (bvf w 10 5) (bvf w 0 10) s else trapItem e causeReserved s
  | 44 => if fld w 18 2 == 0 then execCmpiCc (bvf w 22 3) (bvf w 20 2) (bvf w 15 3) (bvf w 10 5) (bvf w 0 10) s else trapItem e causeReserved s
  | 45 => if fld w 18 2 == 0 then execCmpiCc (bvf w 22 3) (bvf w 20 2) (bvf w 15 3) (bvf w 10 5) (bvf w 0 10) s else trapItem e causeReserved s
  | 48 => execBCc (bvf w 23 3) (bvf w 20 2) (bvf w 15 5) (bvf w 10 5) (bvf w 0 10) s
  | 49 => execBCcA (bvf w 23 3) (bvf w 20 2) (bvf w 15 5) (bvf w 10 5) (bvf w 0 10) s
  | 50 => execBCc (bvf w 23 3) (bvf w 20 2) (bvf w 15 5) (bvf w 10 5) (bvf w 0 10) s
  | 51 => execBCcA (bvf w 23 3) (bvf w 20 2) (bvf w 15 5) (bvf w 10 5) (bvf w 0 10) s
  | 52 => execBCc (bvf w 23 3) (bvf w 20 2) (bvf w 15 5) (bvf w 10 5) (bvf w 0 10) s
  | 53 => execBCcA (bvf w 23 3) (bvf w 20 2) (bvf w 15 5) (bvf w 10 5) (bvf w 0 10) s
  | 54 => execBCc (bvf w 23 3) (bvf w 20 2) (bvf w 15 5) (bvf w 10 5) (bvf w 0 10) s
  | 55 => execBCcA (bvf w 23 3) (bvf w 20 2) (bvf w 15 5) (bvf w 10 5) (bvf w 0 10) s
  | 56 => execBCc (bvf w 23 3) (bvf w 20 2) (bvf w 15 5) (bvf w 10 5) (bvf w 0 10) s
  | 57 => execBCcA (bvf w 23 3) (bvf w 20 2) (bvf w 15 5) (bvf w 10 5) (bvf w 0 10) s
  | 58 => execBCc (bvf w 23 3) (bvf w 20 2) (bvf w 15 5) (bvf w 10 5) (bvf w 0 10) s
  | 59 => execBCcA (bvf w 23 3) (bvf w 20 2) (bvf w 15 5) (bvf w 10 5) (bvf w 0 10) s
  | 60 => execBr (bvf w 20 2) (bvf w 0 20) s
  | 61 => execCall (bvf w 20 2) (bvf w 0 20) s
  | 62 => if fld w 0 20 == 0 then execRet (bvf w 20 2) s else trapItem e causeReserved s
  | 63 => if fld w 0 15 == 0 then execJr (bvf w 20 2) (bvf w 15 5) s else trapItem e causeReserved s
  | 64 => if fld w 0 10 == 0 && fld w 19 1 == 0 then execQpush (bvf w 20 2) (bvf w 15 4) (bvf w 10 5) s else trapItem e causeReserved s
  | 65 => if fld w 0 10 == 0 && fld w 14 1 == 0 then execQpop (bvf w 20 2) (bvf w 15 5) (bvf w 10 4) s else trapItem e causeReserved s
  | 66 => if fld w 0 10 == 0 && fld w 14 1 == 0 then execQpeek (bvf w 20 2) (bvf w 15 5) (bvf w 10 4) s else trapItem e causeReserved s
  | 67 => if fld w 10 5 == 0 && fld w 19 1 == 0 then execQbind (bvf w 20 2) (bvf w 15 4) (bvf w 5 5) (bvf w 0 5) s else trapItem e causeReserved s
  | 68 => execLd (bvf w 20 2) (bvf w 15 5) (bvf w 10 5) (bvf w 9 1) (bvf w 6 3) (bvf w 5 1) (bvf w 0 5) s
  | 69 => execSt (bvf w 20 2) (bvf w 15 5) (bvf w 10 5) (bvf w 9 1) (bvf w 6 3) (bvf w 5 1) (bvf w 0 5) s
  | 70 => if fld w 0 10 == 0 && fld w 19 1 == 0 then execXlate (bvf w 20 2) (bvf w 15 4) (bvf w 10 5) s else trapItem e causeReserved s
  | 71 => if fld w 0 15 == 0 && fld w 19 1 == 0 then execHdrop (bvf w 20 2) (bvf w 15 4) s else trapItem e causeReserved s
  | 72 => if fld w 0 10 == 0 && fld w 14 1 == 0 then execHchk (bvf w 20 2) (bvf w 15 5) (bvf w 10 4) s else trapItem e causeReserved s
  | 73 => if fld w 0 10 == 0 then execSealPages (bvf w 20 2) (bvf w 15 5) (bvf w 10 5) s else trapItem e causeReserved s
  | 74 => if fld w 0 10 == 0 then execUnsealPages (bvf w 20 2) (bvf w 15 5) (bvf w 10 5) s else trapItem e causeReserved s
  | 75 => if fld w 15 5 == 0 then execBind (bvf w 20 2) (bvf w 10 5) (bvf w 0 10) s else trapItem e causeReserved s
  | 76 => if fld w 10 10 == 0 then execUnbind (bvf w 20 2) (bvf w 0 10) s else trapItem e causeReserved s
  | 77 => if fld w 4 11 == 0 then execAcq (bvf w 20 2) (bvf w 15 5) (bvf w 1 3) (bvf w 0 1) s else trapItem e causeReserved s
  | 78 => if fld w 0 15 == 0 then execRel (bvf w 20 2) (bvf w 15 5) s else trapItem e causeReserved s
  | 79 => if fld w 3 17 == 0 then execFence (bvf w 20 2) (bvf w 0 3) s else trapItem e causeReserved s
  | 80 => if fld w 0 10 == 0 then execTlook (bvf w 20 2) (bvf w 15 5) (bvf w 10 5) s else trapItem e causeReserved s
  | 81 => if fld w 3 2 == 0 then execTset (bvf w 20 2) (bvf w 15 5) (bvf w 10 5) (bvf w 5 5) (bvf w 0 3) s else trapItem e causeReserved s
  | 82 => if fld w 1 14 == 0 then execTclr (bvf w 20 2) (bvf w 15 5) (bvf w 0 1) s else trapItem e causeReserved s
  | 83 => if fld w 0 3 == 0 then execAadd (bvf w 20 2) (bvf w 15 5) (bvf w 10 5) (bvf w 9 1) (bvf w 7 2) (bvf w 4 3) (bvf w 3 1) s else trapItem e causeReserved s
  | 84 => if fld w 0 4 == 0 then execAxchg (bvf w 20 2) (bvf w 15 5) (bvf w 10 5) (bvf w 9 1) (bvf w 7 2) (bvf w 4 3) s else trapItem e causeReserved s
  | 85 => if fld w 0 4 == 0 then execAcas (bvf w 20 2) (bvf w 15 5) (bvf w 10 5) (bvf w 9 1) (bvf w 7 2) (bvf w 4 3) s else trapItem e causeReserved s
  | 86 => if fld w 0 4 == 0 then execAmin (bvf w 20 2) (bvf w 15 5) (bvf w 10 5) (bvf w 9 1) (bvf w 7 2) (bvf w 4 3) s else trapItem e causeReserved s
  | 87 => if fld w 0 4 == 0 then execAmax (bvf w 20 2) (bvf w 15 5) (bvf w 10 5) (bvf w 9 1) (bvf w 7 2) (bvf w 4 3) s else trapItem e causeReserved s
  | 88 => if fld w 0 4 == 0 then execAand (bvf w 20 2) (bvf w 15 5) (bvf w 10 5) (bvf w 9 1) (bvf w 7 2) (bvf w 4 3) s else trapItem e causeReserved s
  | 89 => if fld w 0 4 == 0 then execAor (bvf w 20 2) (bvf w 15 5) (bvf w 10 5) (bvf w 9 1) (bvf w 7 2) (bvf w 4 3) s else trapItem e causeReserved s
  | 90 => if fld w 0 4 == 0 then execAxor (bvf w 20 2) (bvf w 15 5) (bvf w 10 5) (bvf w 9 1) (bvf w 7 2) (bvf w 4 3) s else trapItem e causeReserved s
  | 91 => if fld w 0 4 == 0 then execAincw (bvf w 20 2) (bvf w 15 5) (bvf w 10 5) (bvf w 9 1) (bvf w 7 2) (bvf w 4 3) s else trapItem e causeReserved s
  | 92 => if fld w 3 1 == 0 then execAfaddb (bvf w 20 2) (bvf w 15 5) (bvf w 10 5) (bvf w 9 1) (bvf w 7 2) (bvf w 4 3) (bvf w 0 3) s else trapItem e causeReserved s
  | 93 =>
    if fld w 9 1 == 1 && (fld w 0 7 == 0) then trapItem e causeIllegal s
    else if fld w 0 7 == 0 && fld w 9 1 == 0 then execAred (bvf w 20 2) (bvf w 15 5) (bvf w 10 5) (bvf w 7 2) s else trapItem e causeReserved s
  | 94 => if fld w 0 20 == 0 then execAtclose (bvf w 20 2) s else trapItem e causeReserved s
  | 95 => if fld w 0 8 == 0 then execFset (bvf w 20 2) (bvf w 8 12) s else trapItem e causeReserved s
  | 96 => if fld w 0 8 == 0 then execFclr (bvf w 20 2) (bvf w 8 12) s else trapItem e causeReserved s
  | 97 => if fld w 3 5 == 0 then execFwait (bvf w 20 2) (bvf w 8 12) (bvf w 0 3) s else trapItem e causeReserved s
  | 98 => if fld w 3 5 == 0 then execFtest (bvf w 20 2) (bvf w 8 12) (bvf w 0 3) s else trapItem e causeReserved s
  | 99 => if fld w 0 3 == 0 then execBarjoin (bvf w 20 2) (bvf w 8 12) (bvf w 3 5) s else trapItem e causeReserved s
  | 100 => if fld w 3 5 == 0 then execBarwait (bvf w 20 2) (bvf w 8 12) (bvf w 0 3) s else trapItem e causeReserved s
  | 101 => if fld w 0 3 == 0 && fld w 8 12 == 0 then execJobx (bvf w 20 2) (bvf w 3 5) s else trapItem e causeReserved s
  | 102 => if fld w 18 2 == 0 then execHfold (bvf w 20 2) (bvf w 14 4) (bvf w 8 6) (bvf w 3 5) (bvf w 0 3) s else trapItem e causeReserved s
  | 103 => if fld w 18 2 == 0 then execHscan (bvf w 20 2) (bvf w 14 4) (bvf w 8 6) (bvf w 3 5) (bvf w 0 3) s else trapItem e causeReserved s
  | 104 => if fld w 18 2 == 0 then execHzip (bvf w 20 2) (bvf w 14 4) (bvf w 8 6) (bvf w 3 5) (bvf w 0 3) s else trapItem e causeReserved s
  | 105 => if fld w 18 2 == 0 then execHouter (bvf w 20 2) (bvf w 14 4) (bvf w 8 6) (bvf w 3 5) (bvf w 0 3) s else trapItem e causeReserved s
  | 106 => if fld w 0 3 == 0 && fld w 14 6 == 0 then execRdef (bvf w 20 2) (bvf w 8 6) (bvf w 3 5) s else trapItem e causeReserved s
  | 107 => if fld w 0 8 == 0 && fld w 14 6 == 0 then execRdrop (bvf w 20 2) (bvf w 8 6) s else trapItem e causeReserved s
  | 108 => if fld w 0 3 == 0 && fld w 8 12 == 0 then execWqpost (bvf w 20 2) (bvf w 3 5) s else trapItem e causeReserved s
  | 109 => if fld w 0 3 == 0 then execWqarm (bvf w 20 2) (bvf w 8 12) (bvf w 3 5) s else trapItem e causeReserved s
  | 110 => if fld w 0 8 == 0 then execWqcancel (bvf w 20 2) (bvf w 8 12) s else trapItem e causeReserved s
  | 111 => if fld w 0 3 == 0 then execWqstat (bvf w 20 2) (bvf w 8 12) (bvf w 3 5) s else trapItem e causeReserved s
  | 112 => if fld w 0 3 == 0 then execCntset (bvf w 20 2) (bvf w 8 12) (bvf w 3 5) s else trapItem e causeReserved s
  | 113 => if fld w 0 2 == 0 then execCntadd (bvf w 20 2) (bvf w 8 12) (bvf w 3 5) (bvf w 2 1) s else trapItem e causeReserved s
  | 114 => if fld w 0 3 == 0 then execCntwait (bvf w 20 2) (bvf w 8 12) (bvf w 3 5) s else trapItem e causeReserved s
  | 115 => if fld w 0 3 == 0 then execCntread (bvf w 20 2) (bvf w 8 12) (bvf w 3 5) s else trapItem e causeReserved s
  | 116 => if fld w 0 3 == 0 && fld w 12 8 == 0 then execGencfg (bvf w 20 2) (bvf w 8 4) (bvf w 3 5) s else trapItem e causeReserved s
  | 117 => if fld w 0 8 == 0 && fld w 12 8 == 0 then execGeninv (bvf w 20 2) (bvf w 8 4) s else trapItem e causeReserved s
  | 118 => if fld w 10 5 == 0 then execGsr (bvf w 20 2) (bvf w 15 5) (bvf w 0 10) s else trapItem e causeReserved s
  | 119 => if fld w 15 5 == 0 then execSsr (bvf w 20 2) (bvf w 10 5) (bvf w 0 10) s else trapItem e causeReserved s
  | 127 => runSys e w s
  | _ => trapItem e causeIllegal s

/-- Run a word of tag 001 as engine `e`. -/
def runL (e : Engine) (w : Nat) (s : State) : Out :=
  match fld w 22 7 with
  | 1 => if fld w 0 20 == 0 then execNopL (bvf w 20 2) s else trapItem e causeReserved s
  | 2 =>
    if fld w 9 1 == 1 && (fld w 4 5 == 0 && fld w 19 1 == 0) then trapItem e causeIllegal s
    else if fld w 4 6 == 0 && fld w 19 1 == 0 then execZbind (bvf w 20 2) (bvf w 15 4) (bvf w 10 5) (bvf w 0 4) s else trapItem e causeReserved s
  | 3 => if fld w 0 15 == 0 && fld w 19 1 == 0 then execZstart (bvf w 20 2) (bvf w 15 4) s else trapItem e causeReserved s
  | 4 => if fld w 0 15 == 0 && fld w 19 1 == 0 then execZstop (bvf w 20 2) (bvf w 15 4) s else trapItem e causeReserved s
  | 5 => if fld w 10 5 == 0 && fld w 19 1 == 0 then execZskip (bvf w 20 2) (bvf w 15 4) (bvf w 0 10) s else trapItem e causeReserved s
  | 6 => if fld w 9 1 == 0 && fld w 19 1 == 0 then execLdv (bvf w 20 2) (bvf w 15 4) (bvf w 10 5) (bvf w 0 9) s else trapItem e causeReserved s
  | _ => trapItem e causeIllegal s

/-- Run a word of tag 010 as engine `e`. VTOS and VFROMS with an even OP are ILLEGAL before their reserved fields are looked at (log entry 47). -/
def runV (e : Engine) (w : Nat) (s : State) : Out :=
  match fld w 22 7 with
  | 1 => if fld w 0 20 == 0 then execNopV (bvf w 20 2) s else trapItem e causeReserved s
  | 2 => execVadd (bvf w 20 2) (bvf w 15 5) (bvf w 10 5) (bvf w 5 5) (bvf w 1 4) (bvf w 0 1) s
  | 3 => execVaddZq (bvf w 20 2) (bvf w 15 5) (bvf w 10 5) (bvf w 5 5) (bvf w 1 4) (bvf w 0 1) s
  | 4 => execVsub (bvf w 20 2) (bvf w 15 5) (bvf w 10 5) (bvf w 5 5) (bvf w 1 4) (bvf w 0 1) s
  | 5 => execVsubZq (bvf w 20 2) (bvf w 15 5) (bvf w 10 5) (bvf w 5 5) (bvf w 1 4) (bvf w 0 1) s
  | 6 => execVmul (bvf w 20 2) (bvf w 15 5) (bvf w 10 5) (bvf w 5 5) (bvf w 1 4) (bvf w 0 1) s
  | 7 => execVmulZq (bvf w 20 2) (bvf w 15 5) (bvf w 10 5) (bvf w 5 5) (bvf w 1 4) (bvf w 0 1) s
  | 8 => if fld w 0 1 == 0 then execVfma (bvf w 20 2) (bvf w 15 5) (bvf w 10 5) (bvf w 5 5) (bvf w 1 4) s else trapItem e causeReserved s
  | 9 => if fld w 0 1 == 0 then execVfmaZq (bvf w 20 2) (bvf w 15 5) (bvf w 10 5) (bvf w 5 5) (bvf w 1 4) s else trapItem e causeReserved s
  | 10 => if fld w 0 1 == 0 then execVmin (bvf w 20 2) (bvf w 15 5) (bvf w 10 5) (bvf w 5 5) (bvf w 1 4) s else trapItem e causeReserved s
  | 11 => if fld w 0 1 == 0 then execVminZq (bvf w 20 2) (bvf w 15 5) (bvf w 10 5) (bvf w 5 5) (bvf w 1 4) s else trapItem e causeReserved s
  | 12 => if fld w 0 1 == 0 then execVmax (bvf w 20 2) (bvf w 15 5) (bvf w 10 5) (bvf w 5 5) (bvf w 1 4) s else trapItem e causeReserved s
  | 13 => if fld w 0 1 == 0 then execVmaxZq (bvf w 20 2) (bvf w 15 5) (bvf w 10 5) (bvf w 5 5) (bvf w 1 4) s else trapItem e causeReserved s
  | 14 => if fld w 10 5 == 0 then execVabs (bvf w 20 2) (bvf w 15 5) (bvf w 5 5) (bvf w 1 4) (bvf w 0 1) s else trapItem e causeReserved s
  | 15 => if fld w 10 5 == 0 then execVabsZq (bvf w 20 2) (bvf w 15 5) (bvf w 5 5) (bvf w 1 4) (bvf w 0 1) s else trapItem e causeReserved s
  | 16 => if fld w 10 5 == 0 then execVneg (bvf w 20 2) (bvf w 15 5) (bvf w 5 5) (bvf w 1 4) (bvf w 0 1) s else trapItem e causeReserved s
  | 17 => if fld w 10 5 == 0 then execVnegZq (bvf w 20 2) (bvf w 15 5) (bvf w 5 5) (bvf w 1 4) (bvf w 0 1) s else trapItem e causeReserved s
  | 18 => if fld w 0 5 == 0 then execVand (bvf w 20 2) (bvf w 15 5) (bvf w 10 5) (bvf w 5 5) s else trapItem e causeReserved s
  | 19 => if fld w 0 5 == 0 then execVandZq (bvf w 20 2) (bvf w 15 5) (bvf w 10 5) (bvf w 5 5) s else trapItem e causeReserved s
  | 20 => if fld w 0 5 == 0 then execVor (bvf w 20 2) (bvf w 15 5) (bvf w 10 5) (bvf w 5 5) s else trapItem e causeReserved s
  | 21 => if fld w 0 5 == 0 then execVorZq (bvf w 20 2) (bvf w 15 5) (bvf w 10 5) (bvf w 5 5) s else trapItem e causeReserved s
  | 22 => if fld w 0 5 == 0 then execVxor (bvf w 20 2) (bvf w 15 5) (bvf w 10 5) (bvf w 5 5) s else trapItem e causeReserved s
  | 23 => if fld w 0 5 == 0 then execVxorZq (bvf w 20 2) (bvf w 15 5) (bvf w 10 5) (bvf w 5 5) s else trapItem e causeReserved s
  | 24 => if fld w 0 5 == 0 && fld w 10 5 == 0 then execVnot (bvf w 20 2) (bvf w 15 5) (bvf w 5 5) s else trapItem e causeReserved s
  | 25 => if fld w 0 5 == 0 && fld w 10 5 == 0 then execVnotZq (bvf w 20 2) (bvf w 15 5) (bvf w 5 5) s else trapItem e causeReserved s
  | 26 => if fld w 0 1 == 0 then execVshl (bvf w 20 2) (bvf w 15 5) (bvf w 10 5) (bvf w 5 5) (bvf w 1 4) s else trapItem e causeReserved s
  | 27 => if fld w 0 1 == 0 then execVshlZq (bvf w 20 2) (bvf w 15 5) (bvf w 10 5) (bvf w 5 5) (bvf w 1 4) s else trapItem e causeReserved s
  | 28 => if fld w 0 1 == 0 then execVshr (bvf w 20 2) (bvf w 15 5) (bvf w 10 5) (bvf w 5 5) (bvf w 1 4) s else trapItem e causeReserved s
  | 29 => if fld w 0 1 == 0 then execVshrZq (bvf w 20 2) (bvf w 15 5) (bvf w 10 5) (bvf w 5 5) (bvf w 1 4) s else trapItem e causeReserved s
  | 30 => if fld w 0 1 == 0 then execVsar (bvf w 20 2) (bvf w 15 5) (bvf w 10 5) (bvf w 5 5) (bvf w 1 4) s else trapItem e causeReserved s
  | 31 => if fld w 0 1 == 0 then execVsarZq (bvf w 20 2) (bvf w 15 5) (bvf w 10 5) (bvf w 5 5) (bvf w 1 4) s else trapItem e causeReserved s
  | 32 => if fld w 0 1 == 0 && fld w 4 1 == 0 then execVsel (bvf w 20 2) (bvf w 15 5) (bvf w 10 5) (bvf w 5 5) (bvf w 1 3) s else trapItem e causeReserved s
  | 33 => if fld w 0 1 == 0 && fld w 4 1 == 0 then execVselZq (bvf w 20 2) (bvf w 15 5) (bvf w 10 5) (bvf w 5 5) (bvf w 1 3) s else trapItem e causeReserved s
  | 34 => execVcvt (bvf w 20 2) (bvf w 15 5) (bvf w 14 1) (bvf w 10 4) (bvf w 5 5) (bvf w 1 4) (bvf w 0 1) s
  | 35 => execVcvtZq (bvf w 20 2) (bvf w 15 5) (bvf w 14 1) (bvf w 10 4) (bvf w 5 5) (bvf w 1 4) (bvf w 0 1) s
  | 36 => if fld w 0 1 == 0 && fld w 10 5 == 0 then execVclz (bvf w 20 2) (bvf w 15 5) (bvf w 5 5) (bvf w 1 4) s else trapItem e causeReserved s
  | 37 => if fld w 0 1 == 0 && fld w 10 5 == 0 then execVclzZq (bvf w 20 2) (bvf w 15 5) (bvf w 5 5) (bvf w 1 4) s else trapItem e causeReserved s
  | 38 => if fld w 0 1 == 0 && fld w 10 5 == 0 then execVpopc (bvf w 20 2) (bvf w 15 5) (bvf w 5 5) (bvf w 1 4) s else trapItem e causeReserved s
  | 39 => if fld w 0 1 == 0 && fld w 10 5 == 0 then execVpopcZq (bvf w 20 2) (bvf w 15 5) (bvf w 5 5) (bvf w 1 4) s else trapItem e causeReserved s
  | 40 => if fld w 1 4 == 0 then execVext (bvf w 20 2) (bvf w 15 5) (bvf w 10 5) (bvf w 5 5) (bvf w 0 1) s else trapItem e causeReserved s
  | 41 => if fld w 1 4 == 0 then execVextZq (bvf w 20 2) (bvf w 15 5) (bvf w 10 5) (bvf w 5 5) (bvf w 0 1) s else trapItem e causeReserved s
  | 42 => if fld w 0 5 == 0 then execVins (bvf w 20 2) (bvf w 15 5) (bvf w 10 5) (bvf w 5 5) s else trapItem e causeReserved s
  | 43 => if fld w 0 5 == 0 then execVinsZq (bvf w 20 2) (bvf w 15 5) (bvf w 10 5) (bvf w 5 5) s else trapItem e causeReserved s
  | 44 => if fld w 0 5 == 0 then execVfsh (bvf w 20 2) (bvf w 15 5) (bvf w 10 5) (bvf w 5 5) s else trapItem e causeReserved s
  | 45 => if fld w 0 5 == 0 then execVfshZq (bvf w 20 2) (bvf w 15 5) (bvf w 10 5) (bvf w 5 5) s else trapItem e causeReserved s
  | 46 => if fld w 0 5 == 0 then execVperm (bvf w 20 2) (bvf w 15 5) (bvf w 10 5) (bvf w 5 5) s else trapItem e causeReserved s
  | 47 => if fld w 0 5 == 0 then execVpermZq (bvf w 20 2) (bvf w 15 5) (bvf w 10 5) (bvf w 5 5) s else trapItem e causeReserved s
  | 48 => if fld w 0 5 == 0 then execVbcast (bvf w 20 2) (bvf w 15 5) (bvf w 10 5) (bvf w 5 5) s else trapItem e causeReserved s
  | 49 => if fld w 0 5 == 0 then execVbcastZq (bvf w 20 2) (bvf w 15 5) (bvf w 10 5) (bvf w 5 5) s else trapItem e causeReserved s
  | 50 => if fld w 0 5 == 0 then execVlsh (bvf w 20 2) (bvf w 15 5) (bvf w 10 5) (bvf w 5 5) s else trapItem e causeReserved s
  | 51 => if fld w 0 5 == 0 then execVlshZq (bvf w 20 2) (bvf w 15 5) (bvf w 10 5) (bvf w 5 5) s else trapItem e causeReserved s
  | 52 => execVred (bvf w 20 2) (bvf w 15 5) (bvf w 14 1) (bvf w 10 4) (bvf w 5 5) (bvf w 1 4) (bvf w 0 1) s
  | 53 => execVredZq (bvf w 20 2) (bvf w 15 5) (bvf w 14 1) (bvf w 10 4) (bvf w 5 5) (bvf w 1 4) (bvf w 0 1) s
  | 54 => execVscan (bvf w 20 2) (bvf w 15 5) (bvf w 14 1) (bvf w 10 4) (bvf w 5 5) (bvf w 1 4) (bvf w 0 1) s
  | 55 => execVscanZq (bvf w 20 2) (bvf w 15 5) (bvf w 14 1) (bvf w 10 4) (bvf w 5 5) (bvf w 1 4) (bvf w 0 1) s
  | 56 => if fld w 0 1 == 0 then execVgath (bvf w 20 2) (bvf w 15 5) (bvf w 10 5) (bvf w 5 5) (bvf w 1 4) s else trapItem e causeReserved s
  | 57 => if fld w 0 1 == 0 then execVgathZq (bvf w 20 2) (bvf w 15 5) (bvf w 10 5) (bvf w 5 5) (bvf w 1 4) s else trapItem e causeReserved s
  | 58 => if fld w 0 1 == 0 then execVscat (bvf w 20 2) (bvf w 15 5) (bvf w 10 5) (bvf w 5 5) (bvf w 1 4) s else trapItem e causeReserved s
  | 59 => if fld w 0 1 == 0 then execVscatZq (bvf w 20 2) (bvf w 15 5) (bvf w 10 5) (bvf w 5 5) (bvf w 1 4) s else trapItem e causeReserved s
  | 60 => if fld w 0 1 == 0 then execVlut (bvf w 20 2) (bvf w 15 5) (bvf w 10 5) (bvf w 5 5) (bvf w 1 4) s else trapItem e causeReserved s
  | 61 => if fld w 0 1 == 0 then execVlutZq (bvf w 20 2) (bvf w 15 5) (bvf w 10 5) (bvf w 5 5) (bvf w 1 4) s else trapItem e causeReserved s
  | 62 => if fld w 0 1 == 0 && fld w 10 5 == 0 then execVrcp (bvf w 20 2) (bvf w 15 5) (bvf w 5 5) (bvf w 1 4) s else trapItem e causeReserved s
  | 63 => if fld w 0 1 == 0 && fld w 10 5 == 0 then execVrcpZq (bvf w 20 2) (bvf w 15 5) (bvf w 5 5) (bvf w 1 4) s else trapItem e causeReserved s
  | 64 => if fld w 0 1 == 0 && fld w 10 5 == 0 then execVrsq (bvf w 20 2) (bvf w 15 5) (bvf w 5 5) (bvf w 1 4) s else trapItem e causeReserved s
  | 65 => if fld w 0 1 == 0 && fld w 10 5 == 0 then execVrsqZq (bvf w 20 2) (bvf w 15 5) (bvf w 5 5) (bvf w 1 4) s else trapItem e causeReserved s
  | 66 => if fld w 0 1 == 0 && fld w 10 5 == 0 then execVexp2 (bvf w 20 2) (bvf w 15 5) (bvf w 5 5) (bvf w 1 4) s else trapItem e causeReserved s
  | 67 => if fld w 0 1 == 0 && fld w 10 5 == 0 then execVexp2Zq (bvf w 20 2) (bvf w 15 5) (bvf w 5 5) (bvf w 1 4) s else trapItem e causeReserved s
  | 68 => if fld w 0 1 == 0 && fld w 10 5 == 0 then execVlog2 (bvf w 20 2) (bvf w 15 5) (bvf w 5 5) (bvf w 1 4) s else trapItem e causeReserved s
  | 69 => if fld w 0 1 == 0 && fld w 10 5 == 0 then execVlog2Zq (bvf w 20 2) (bvf w 15 5) (bvf w 5 5) (bvf w 1 4) s else trapItem e causeReserved s
  | 70 => execVatan (bvf w 20 2) (bvf w 15 5) (bvf w 10 5) (bvf w 5 5) (bvf w 1 4) (bvf w 0 1) s
  | 71 => execVatanZq (bvf w 20 2) (bvf w 15 5) (bvf w 10 5) (bvf w 5 5) (bvf w 1 4) (bvf w 0 1) s
  | 72 => if fld w 10 5 == 0 then execVsincos (bvf w 20 2) (bvf w 15 5) (bvf w 5 5) (bvf w 1 4) (bvf w 0 1) s else trapItem e causeReserved s
  | 73 => if fld w 10 5 == 0 then execVsincosZq (bvf w 20 2) (bvf w 15 5) (bvf w 5 5) (bvf w 1 4) (bvf w 0 1) s else trapItem e causeReserved s
  | 74 => if fld w 0 1 == 0 && fld w 10 5 == 0 then execVnorm (bvf w 20 2) (bvf w 15 5) (bvf w 5 5) (bvf w 1 4) s else trapItem e causeReserved s
  | 75 => if fld w 0 1 == 0 && fld w 10 5 == 0 then execVnormZq (bvf w 20 2) (bvf w 15 5) (bvf w 5 5) (bvf w 1 4) s else trapItem e causeReserved s
  | 76 => execVsplit (bvf w 20 2) (bvf w 15 5) (bvf w 10 5) (bvf w 5 5) (bvf w 1 4) (bvf w 0 1) s
  | 77 => execVsplitZq (bvf w 20 2) (bvf w 15 5) (bvf w 10 5) (bvf w 5 5) (bvf w 1 4) (bvf w 0 1) s
  | 78 => if fld w 0 5 == 0 && fld w 10 5 == 0 then execVmov (bvf w 20 2) (bvf w 15 5) (bvf w 5 5) s else trapItem e causeReserved s
  | 79 => if fld w 0 5 == 0 && fld w 10 5 == 0 then execVmovZq (bvf w 20 2) (bvf w 15 5) (bvf w 5 5) s else trapItem e causeReserved s
  | 81 => if fld w 0 5 == 0 && fld w 15 5 == 0 then execVtos (bvf w 20 2) (bvf w 10 5) (bvf w 5 5) s else trapItem e causeReserved s
  | 83 => if fld w 0 5 == 0 && fld w 10 5 == 0 then execVfroms (bvf w 20 2) (bvf w 15 5) (bvf w 5 5) s else trapItem e causeReserved s
  | 84 => execVaadd (bvf w 20 2) (bvf w 15 5) (bvf w 10 5) (bvf w 5 5) (bvf w 1 4) (bvf w 0 1) s
  | 85 => execVaaddZq (bvf w 20 2) (bvf w 15 5) (bvf w 10 5) (bvf w 5 5) (bvf w 1 4) (bvf w 0 1) s
  | 86 => if fld w 0 1 == 0 && fld w 18 2 == 0 then execVcmpEq (bvf w 20 2) (bvf w 15 3) (bvf w 10 5) (bvf w 5 5) (bvf w 1 4) s else trapItem e causeReserved s
  | 87 => if fld w 0 1 == 0 && fld w 18 2 == 0 then execVcmpEqZq (bvf w 20 2) (bvf w 15 3) (bvf w 10 5) (bvf w 5 5) (bvf w 1 4) s else trapItem e causeReserved s
  | 88 => if fld w 0 1 == 0 && fld w 18 2 == 0 then execVcmpNe (bvf w 20 2) (bvf w 15 3) (bvf w 10 5) (bvf w 5 5) (bvf w 1 4) s else trapItem e causeReserved s
  | 89 => if fld w 0 1 == 0 && fld w 18 2 == 0 then execVcmpNeZq (bvf w 20 2) (bvf w 15 3) (bvf w 10 5) (bvf w 5 5) (bvf w 1 4) s else trapItem e causeReserved s
  | 90 => if fld w 0 1 == 0 && fld w 18 2 == 0 then execVcmpLt (bvf w 20 2) (bvf w 15 3) (bvf w 10 5) (bvf w 5 5) (bvf w 1 4) s else trapItem e causeReserved s
  | 91 => if fld w 0 1 == 0 && fld w 18 2 == 0 then execVcmpLtZq (bvf w 20 2) (bvf w 15 3) (bvf w 10 5) (bvf w 5 5) (bvf w 1 4) s else trapItem e causeReserved s
  | 92 => if fld w 0 1 == 0 && fld w 18 2 == 0 then execVcmpLe (bvf w 20 2) (bvf w 15 3) (bvf w 10 5) (bvf w 5 5) (bvf w 1 4) s else trapItem e causeReserved s
  | 93 => if fld w 0 1 == 0 && fld w 18 2 == 0 then execVcmpLeZq (bvf w 20 2) (bvf w 15 3) (bvf w 10 5) (bvf w 5 5) (bvf w 1 4) s else trapItem e causeReserved s
  | 94 => if fld w 0 1 == 0 && fld w 18 2 == 0 then execVcmpLtn (bvf w 20 2) (bvf w 15 3) (bvf w 10 5) (bvf w 5 5) (bvf w 1 4) s else trapItem e causeReserved s
  | 95 => if fld w 0 1 == 0 && fld w 18 2 == 0 then execVcmpLtnZq (bvf w 20 2) (bvf w 15 3) (bvf w 10 5) (bvf w 5 5) (bvf w 1 4) s else trapItem e causeReserved s
  | 96 => if fld w 0 1 == 0 && fld w 18 2 == 0 then execVcmpLen (bvf w 20 2) (bvf w 15 3) (bvf w 10 5) (bvf w 5 5) (bvf w 1 4) s else trapItem e causeReserved s
  | 97 => if fld w 0 1 == 0 && fld w 18 2 == 0 then execVcmpLenZq (bvf w 20 2) (bvf w 15 3) (bvf w 10 5) (bvf w 5 5) (bvf w 1 4) s else trapItem e causeReserved s
  | 98 => execVli (bvf w 20 2) (bvf w 15 5) (bvf w 0 15) s
  | 99 => if fld w 0 5 == 0 && fld w 8 2 == 0 && fld w 13 2 == 0 && fld w 18 2 == 0 then execMand (bvf w 20 2) (bvf w 15 3) (bvf w 10 3) (bvf w 5 3) s else trapItem e causeReserved s
  | 100 => if fld w 0 5 == 0 && fld w 8 2 == 0 && fld w 13 2 == 0 && fld w 18 2 == 0 then execMor (bvf w 20 2) (bvf w 15 3) (bvf w 10 3) (bvf w 5 3) s else trapItem e causeReserved s
  | 101 => if fld w 0 5 == 0 && fld w 8 2 == 0 && fld w 13 2 == 0 && fld w 18 2 == 0 then execMxor (bvf w 20 2) (bvf w 15 3) (bvf w 10 3) (bvf w 5 3) s else trapItem e causeReserved s
  | 102 => if fld w 0 5 == 0 && fld w 8 7 == 0 && fld w 18 2 == 0 then execMnot (bvf w 20 2) (bvf w 15 3) (bvf w 5 3) s else trapItem e causeReserved s
  | 103 => if fld w 0 5 == 0 && fld w 8 7 == 0 then execMpopc (bvf w 20 2) (bvf w 15 5) (bvf w 5 3) s else trapItem e causeReserved s
  | 104 => if fld w 0 5 == 0 && fld w 8 7 == 0 then execMfirst (bvf w 20 2) (bvf w 15 5) (bvf w 5 3) s else trapItem e causeReserved s
  | _ => trapItem e causeIllegal s

/-- Run a word of tag 011 as engine `e`. -/
def runM (e : Engine) (w : Nat) (s : State) : Out :=
  match fld w 22 7 with
  | 1 => if fld w 0 20 == 0 then execNopM (bvf w 20 2) s else trapItem e causeReserved s
  | 2 => if fld w 3 7 == 0 && fld w 14 1 == 0 && fld w 18 2 == 0 then execMload (bvf w 20 2) (bvf w 15 3) (bvf w 10 4) (bvf w 2 1) (bvf w 0 2) s else trapItem e causeReserved s
  | 3 => if fld w 2 8 == 0 && fld w 13 2 == 0 && fld w 19 1 == 0 then execMstore (bvf w 20 2) (bvf w 15 4) (bvf w 10 3) (bvf w 0 2) s else trapItem e causeReserved s
  | 4 => execMsweep (bvf w 20 2) (bvf w 16 4) (bvf w 12 4) (bvf w 9 3) (bvf w 7 2) (bvf w 3 4) (bvf w 2 1) (bvf w 1 1) (bvf w 0 1) s
  | 5 => if fld w 0 3 == 0 then execMderive (bvf w 20 2) (bvf w 16 4) (bvf w 12 4) (bvf w 9 3) (bvf w 7 2) (bvf w 3 4) s else trapItem e causeReserved s
  | 6 => if fld w 2 8 == 0 && fld w 13 2 == 0 && fld w 18 2 == 0 then execMscale (bvf w 20 2) (bvf w 15 3) (bvf w 10 3) (bvf w 0 2) s else trapItem e causeReserved s
  | 7 => if fld w 2 13 == 0 && fld w 19 1 == 0 then execMpanel (bvf w 20 2) (bvf w 15 4) (bvf w 0 2) s else trapItem e causeReserved s
  | 8 => if fld w 0 1 == 0 then execMslice (bvf w 20 2) (bvf w 15 5) (bvf w 11 4) (bvf w 8 3) (bvf w 7 1) (bvf w 3 4) (bvf w 1 2) s else trapItem e causeReserved s
  | 9 => if fld w 4 16 == 0 then execMcommit (bvf w 20 2) (bvf w 0 4) s else trapItem e causeReserved s
  | 10 => if fld w 4 16 == 0 then execMwaitb (bvf w 20 2) (bvf w 0 4) s else trapItem e causeReserved s
  | 11 => execMretire (bvf w 20 2) (bvf w 16 4) (bvf w 11 5) (bvf w 8 3) (bvf w 6 2) (bvf w 2 4) (bvf w 0 2) s
  | 12 => if fld w 1 9 == 0 && fld w 12 3 == 0 && fld w 19 1 == 0 then execMnorm (bvf w 20 2) (bvf w 15 4) (bvf w 10 2) (bvf w 0 1) s else trapItem e causeReserved s
  | 13 =>
    if fld w 14 1 == 0 then if fld w 7 8 == 0 then execMclrWindow (bvf w 20 2) (bvf w 15 5) (bvf w 2 5) (bvf w 0 2) s else trapItem e causeReserved s
    else if fld w 2 13 == 0x1000 && fld w 18 2 == 0 then execMclrBank (bvf w 20 2) (bvf w 15 3) (bvf w 0 2) s else trapItem e causeReserved s
  | 14 => if fld w 5 10 == 0 && fld w 19 1 == 0 then execMstat (bvf w 20 2) (bvf w 15 4) (bvf w 4 1) (bvf w 0 4) s else trapItem e causeReserved s
  | 15 => if fld w 4 16 == 0 then execMfence (bvf w 20 2) (bvf w 0 4) s else trapItem e causeReserved s
  | _ => trapItem e causeIllegal s

/-- Run a word of tag 100 as engine `e`. -/
def runS (e : Engine) (w : Nat) (s : State) : Out :=
  match fld w 22 7 with
  | 1 => if fld w 0 20 == 0 then execNopS (bvf w 20 2) s else trapItem e causeReserved s
  | 2 => if fld w 0 15 == 0 && fld w 19 1 == 0 then execZdrain (bvf w 20 2) (bvf w 15 4) s else trapItem e causeReserved s
  | 3 => if fld w 9 1 == 0 && fld w 19 1 == 0 then execStv (bvf w 20 2) (bvf w 15 4) (bvf w 10 5) (bvf w 0 9) s else trapItem e causeReserved s
  | 4 => if fld w 1 4 == 0 && fld w 12 3 == 0 && fld w 19 1 == 0 then execScvt (bvf w 20 2) (bvf w 15 4) (bvf w 10 2) (bvf w 5 5) (bvf w 0 1) s else trapItem e causeReserved s
  | 5 => if fld w 1 9 == 0 && fld w 19 1 == 0 then execSamax (bvf w 20 2) (bvf w 15 4) (bvf w 14 1) (bvf w 10 4) (bvf w 0 1) s else trapItem e causeReserved s
  | 6 => if fld w 0 5 == 0 && fld w 14 1 == 0 && fld w 19 1 == 0 then execVamaxr (bvf w 20 2) (bvf w 15 4) (bvf w 10 4) (bvf w 9 1) (bvf w 5 4) s else trapItem e causeReserved s
  | 7 => execSupd (bvf w 20 2) (bvf w 16 4) (bvf w 12 4) (bvf w 0 12) s
  | 8 => if fld w 0 16 == 0 then execSpair (bvf w 20 2) (bvf w 16 4) s else trapItem e causeReserved s
  | _ => trapItem e causeIllegal s

/-- Run a broadcast word (R69) as engine `e`. -/
def runX (e : Engine) (w : Nat) (s : State) : Out :=
  match fld w 22 7 with
  | 65 => if fld w 13 2 == 0 && fld w 15 5 != 0 then execNotify (bvf w 20 2) (bvf w 15 5) (bvf w 12 1) (bvf w 0 12) s else trapItem e causeReserved s
  | 66 => if fld w 15 5 == 0x1f then execDictld (bvf w 20 2) (bvf w 10 5) (bvf w 0 10) s else trapItem e causeReserved s
  | 72 => if fld w 19 1 == 1 && fld w 15 4 != 0 then execBemEq (bvf w 20 2) (bvf w 15 4) (bvf w 11 4) (bvf w 7 4) (bvf w 0 7) s else trapItem e causeReserved s
  | 73 => if fld w 19 1 == 1 && fld w 15 4 != 0 then execBemEqA (bvf w 20 2) (bvf w 15 4) (bvf w 11 4) (bvf w 7 4) (bvf w 0 7) s else trapItem e causeReserved s
  | 74 => if fld w 19 1 == 1 && fld w 15 4 != 0 then execBemNe (bvf w 20 2) (bvf w 15 4) (bvf w 11 4) (bvf w 7 4) (bvf w 0 7) s else trapItem e causeReserved s
  | 75 => if fld w 19 1 == 1 && fld w 15 4 != 0 then execBemNeA (bvf w 20 2) (bvf w 15 4) (bvf w 11 4) (bvf w 7 4) (bvf w 0 7) s else trapItem e causeReserved s
  | 76 => if fld w 19 1 == 1 && fld w 15 4 != 0 then execBemLt (bvf w 20 2) (bvf w 15 4) (bvf w 11 4) (bvf w 7 4) (bvf w 0 7) s else trapItem e causeReserved s
  | 77 => if fld w 19 1 == 1 && fld w 15 4 != 0 then execBemLtA (bvf w 20 2) (bvf w 15 4) (bvf w 11 4) (bvf w 7 4) (bvf w 0 7) s else trapItem e causeReserved s
  | 78 => if fld w 19 1 == 1 && fld w 15 4 != 0 then execBemLe (bvf w 20 2) (bvf w 15 4) (bvf w 11 4) (bvf w 7 4) (bvf w 0 7) s else trapItem e causeReserved s
  | 79 => if fld w 19 1 == 1 && fld w 15 4 != 0 then execBemLeA (bvf w 20 2) (bvf w 15 4) (bvf w 11 4) (bvf w 7 4) (bvf w 0 7) s else trapItem e causeReserved s
  | 80 => if fld w 19 1 == 1 && fld w 15 4 != 0 then execBemLtn (bvf w 20 2) (bvf w 15 4) (bvf w 11 4) (bvf w 7 4) (bvf w 0 7) s else trapItem e causeReserved s
  | 81 => if fld w 19 1 == 1 && fld w 15 4 != 0 then execBemLtnA (bvf w 20 2) (bvf w 15 4) (bvf w 11 4) (bvf w 7 4) (bvf w 0 7) s else trapItem e causeReserved s
  | 82 => if fld w 19 1 == 1 && fld w 15 4 != 0 then execBemLen (bvf w 20 2) (bvf w 15 4) (bvf w 11 4) (bvf w 7 4) (bvf w 0 7) s else trapItem e causeReserved s
  | 83 => if fld w 19 1 == 1 && fld w 15 4 != 0 then execBemLenA (bvf w 20 2) (bvf w 15 4) (bvf w 11 4) (bvf w 7 4) (bvf w 0 7) s else trapItem e causeReserved s
  | _ => trapItem e causeIllegal s

/-- Run a 32-bit item as engine `e`, which it names. A register-count header with a reserved field traps in whichever engine reaches it
first (log entry 42). -/
def runLong (e : Engine) (w : Nat) (s : State) : Out :=
  match fld w 29 3 with
  | 0 => runC e w s
  | 1 => runL e w s
  | 2 => runV e w s
  | 3 => runM e w s
  | 4 => runS e w s
  | 5 =>
    if fld w 28 1 == 1 then runX e w s
    else if fld w 15 1 == 0 then execBlockHeader (bvf w 16 12) (bvf w 0 15) s
    else if fld w 5 10 == 0 then execBlockHeaderReg (bvf w 16 12) (bvf w 0 5) s else trapHeader e (fld w 16 12) s
  | _ => trapItem e causeIllegal s

/-- Run a one-parcel item as engine `e`. -/
def runShort (e : Engine) (p : Nat) (s : State) : Out :=
  match fld p 13 3 with
  | 6 => execTimedNop (bvf p 0 13) s
  | 7 => if fld p 10 3 == 0 then execDictionaryReference (bvf p 0 10) s else trapItem e causeReserved s
  | _ => trapItem e causeIllegal s

end Sys2Proof.Machine
end

