-- ==== Sys2Proof/Machine/Walk.lean ====
section
/-! DEFINITION. One step of an engine along the text (04_encoding R51 to R57, 05_control R85, R86, R95): it enters the position
it has reached, closes a block, waits at the slip window, or fetches the item at its address and runs or skips it. -/

namespace Sys2Proof.Machine

/-- R86: whether an item begins at `a`, items lying back to back from text address 0. -/
def Store.itemStart (m : Store) (a : Nat) : Nat → Nat → Bool
  | 0, _ => false
  | n + 1, b => if a ≤ b then a == b else m.itemStart a n (b + parcelLen (m.parcel b))

/-- R86: whether an address is the first parcel of an item of C inside the text. -/
def Group.isItemOfC (g : Group) (a : Nat) : Bool :=
  decide (a < g.store.tlen) && g.store.itemStart a (g.store.tlen + 1) 0 &&
  (let p := g.store.parcel a
   if p / 2 ^ 12 = 10 ∨ p / 2 ^ 13 = 6 then false
   else if p / 2 ^ 13 = 7 then inMask (g.refMask .c p) .c
   else inMask (wordMask (g.store.word a)) .c)

/-- R54: a target is a block header that is an item of the text, not the second parcel of one that looks like a header.
Log entry 42. -/
def Store.isTarget (m : Store) (t : Nat) : Bool := m.isHeader t && m.itemStart t (m.tlen + 1) 0

/-- R54, R88: an engine enters the header at `t`. Log entry 42. -/
def Group.enterTarget (g : Group) (e : Engine) (k : TKind) (t : Nat) : Group :=
  let x := g.engine e
  let g1 := match k with
    | .call => { g with frames := x.stack :: g.frames }
    | .ret => { g with frames := g.frames.tail }
    | .jump => g
  let base := match k with
    | .ret => g.frames.headD []
    | _ => x.stack
  g1.setEngine e { x with pc := .seq, cur := t, stack := popLevels t true base }

/-- R54, R85, R86: the engine enters the position that its pc holds; none where it traps. -/
def State.enterPos (s : State) (e : Engine) : Option State :=
  match (s.eng e).pc with
  | .seq => some s
  | .target k t => if s.me.store.isTarget t then some (s.onMe (·.enterTarget e k t)) else none
  | .item a =>
    if s.me.isItemOfC a then
      some (s.onEng e fun x => { x with pc := .seq, cur := a, stack := popLevels a false x.stack })
    else none

/-- R224: a mesh word that C meets in handler mode without a claim. -/
def State.unclaimed (s : State) (e : Engine) (w : Nat) : Bool :=
  e == .c && s.me.phase == .handler && s.me.hand.claim.isNone && w / 2 ^ 29 == 3

/-- The trap that M raises there. -/
def State.unclaimedTrap (s : State) : State := s.takeTrap 3 causeUnclaimed 0 0 (s.eng .c).cur false

/-- The word that a dictionary reference stands for, 0 where it has none. -/
def State.refWord (s : State) (e : Engine) (p : Nat) : Nat :=
  match s.me.dictEntry e (fld p 0 10) with
  | some w => w.toNat
  | none => 0

/-- R222: at its next item, of `len` bytes, an engine takes the BRKWORD that RFT.sub has left it. -/
def State.latchSub (s : State) (e : Engine) : State :=
  match (s.eng e).sub with
  | none => s
  | some w => s.onEng e fun x => { x with sub := none, latch := some (w, s.me.itemLen e) }

/-- Whether the item at an engine's address is one of its own (R57, R62). -/
def Group.isOwn (g : Group) (e : Engine) : Bool :=
  let cur := (g.engine e).cur
  let p := g.store.parcel cur
  if p / 2 ^ 12 = 10 ∨ p / 2 ^ 13 = 6 then false
  else if p / 2 ^ 13 = 7 then inMask (g.refMask e p) e
  else inMask (wordMask (g.store.word cur)) e

/-- R224: in a handler that has claimed M, M walks the text behind C and goes no further than an RFT or ENGREL word, at which C ends the
claim (log entry 23). -/
def State.atClaimEnd (s : State) (e : Engine) : Bool :=
  e == .m && s.me.phase == .handler && s.me.hand.claim.isSome &&
  (let p := s.me.store.parcel (s.eng e).cur
   let w := if p / 2 ^ 13 = 7 then s.refWord e p else s.me.store.word (s.eng e).cur
   p / 2 ^ 12 != 10 && p / 2 ^ 13 != 6 && w / 2 ^ 29 == 0 && fld w 22 7 == 0x7F && (fld w 0 5 == 2 || fld w 0 5 == 6))

/-- Run or skip the item at an engine's address (R48, R57). -/
def State.runItem (s0 : State) (e : Engine) : Out :=
  let s := if s0.me.isOwn e then s0.latchSub e else s0
  match (s.eng e).latch with
  | some (w, _) => runLong e w.toNat s
  | none =>
    let cur := (s.eng e).cur
    let p := s.me.store.parcel cur
    if p / 2 ^ 13 = 6 then runShort e p s
    else if p / 2 ^ 13 = 7 then
      if fld p 10 3 = 0 ∧ s.unclaimed e (s.refWord e p) then .next s.unclaimedTrap
      else if e = .c ∨ fld p 10 3 = 0 then runShort e p s else .next (s.passBytes e 2)
    else
      let w := s.me.store.word cur
      if p / 2 ^ 12 = 10 then runLong e w s
      else if s.unclaimed e w then .next s.unclaimedTrap
      else if inMask (wordMask w) e then runLong e w s
      else .next (s.passBytes e 4)

/-- One step of engine `e` of the group in focus. C takes a pending interrupt at its first item boundary (R211). Log entry 7. -/
def State.walk (s : State) (e : Engine) : Out :=
  if !s.mayRun e then .next s
  else if e = .c && s.interruptEnabled then execInterrupt s
  else
    match s.enterPos e with
    | none => .next (s.trapAt e causeIllegal 0 0 false)
    | some s1 =>
      let x := s1.eng e
      if x.stack.head?.any (fun l => l.last == x.cur) then .next (s1.onEng e (·.blockEnd))
      else if s1.me.store.tlen ≤ x.cur ∨ (x.cur = 0 ∧ !s1.me.store.isHeader 0) then .next (s1.framing e)
      else
        let n := s1.me.itemLen e
        if s1.me.enclosingEnd e < x.cur + n then .next (s1.framing e)
        else if !s1.me.inWindow e (n / 2) || s1.atClaimEnd e then .next (s1.stall e none)
        else s1.runItem e

end Sys2Proof.Machine
end

