-- ==== Sys2Proof/Machine/Step.lean ====
section
/-! DEFINITION. One step of the module: the next move of the agenda, or where it is empty the engine whose turn it is, or the
other agents (log entry 3); and the state in which a given item is the next one (log entry 6). -/

namespace Sys2Proof.Machine

/-- The turn after an engine's. -/
def Turn.after : Turn → Turn
  | .engine .c => .engine .l
  | .engine .l => .engine .v
  | .engine .v => .engine .m
  | .engine .m => .engine .s
  | .engine .s => .async
  | .async => .engine .c

/-- Change the state after a step. -/
def andThen (f : State → State) : Host.Outcome State Fault Refusal → Host.Outcome State Fault Refusal
  | .next s => .next (f s)
  | o => o

/-- An engine of the group in focus takes its step. -/
def engineStep (e : Engine) (s : State) : Host.Outcome State Fault Refusal :=
  andThen (fun t => { t with turn := (Turn.engine e).after }) (State.walk { s with turn := .engine e } e)

/-- The other agents' turn: an event that is enabled happens, if there is one. -/
def asyncStep (s : State) : Host.Outcome State Fault Refusal :=
  let t := s.observe
  match t.nextEvent with
  | none => .next t.endTurn
  | some a => andThen State.endTurn (a t)

/-- An agenda may hold the rows that no word encodes. -/
def isEvent : Instr → Bool
  | .unassignedItem _ => false
  | i => (encode i).isNone

/-- One step. -/
def step (s : State) : Host.Outcome State Fault Refusal :=
  match s.agenda with
  | .engine core e :: r => engineStep e ({ s with agenda := r }.focus core)
  | .event core i :: r =>
    if isEvent i then exec i ({ s with agenda := r }.focus core) else .next { s with agenda := r }
  | .time ns :: r => .next ({ s with agenda := r }.elapse ns)
  | [] =>
    match s.turn with
    | .engine e => engineStep e s
    | .async => asyncStep s

/-! ## A given item as the next one -/

/-- The engine that executes an item of `nbits` bits; of several, the first by tag. -/
def fetchEngine (nbits w : Nat) : Engine :=
  if nbits = 16 then .c
  else (allEngines.find? fun e => inMask (wordMask w) e).getD .c

/-- The text that holds one item behind the header of a block that reaches to its end. -/
def fetchText (nbits w : Nat) : Memory := memPut [] 0 ([0x00, 0xA0, 0x01, 0x00] ++ itemBytes nbits w)

/-- An engine that stands at the item. -/
def EngineState.atItem : EngineState :=
  { EngineState.placed with cur := 4, stack := [⟨4, 2 ^ 15, 1⟩] }

/-- The state with an item as the next one that `step` runs (log entry 6): a running group whose text holds it, at the place where
its engines stand, with the turn at the engine that executes it. -/
def State.withFetchWord (s : State) (nbits w : Nat) : State :=
  { s with
    me :=
      { s.me with
        phase := .running
        eng := ⟨.atItem, .atItem, .atItem, .atItem, .atItem⟩
        store := { s.me.store with text := fetchText nbits w, tlen := 2 ^ 15 } }
    turn := .engine (fetchEngine nbits w)
    agenda := [] }

end Sys2Proof.Machine
end

