-- ==== Sys2Proof/Safety.lean ====
section
/-! DEFINITION. The terms in which claims speak of a run: what a step can reach, when a state stops, and the invariant of boot and
configuration that every step keeps. -/

namespace Sys2Proof.Machine

/-- The states that steps reach from `s`. -/
inductive Reaches (s : State) : State → Prop where
  | here : Reaches s s
  | more (t u : State) : Reaches s t → step t = .next u → Reaches s u

/-- A state in which the machine stops. -/
def State.Stops (s : State) : Prop := ∀ t, step s ≠ .next t

/-- A run from `s` that never stops. -/
def State.Safe (s : State) : Prop := ∀ t, Reaches s t → ¬ t.Stops

/-- Boot and configuration (26_platform R371 to R373, R376): READY is set exactly when stage 3 has passed, never in RECOVERY; each
stage that passed has been measured, stage 2 with its configuration; from stage 2 on MODNUM, SAVEPOOL and PCAP are in their
ranges; the fuses hold a rollback counter of 64 steps and four key slots. -/
structure State.BootOk (s : State) : Prop where
  stage : s.boot.stage ≤ 3
  ready : s.boot.ready = true ↔ s.boot.stage = 3
  recovery : s.boot.recovery = true → s.boot.ready = false
  measured : s.boot.measures.length = s.boot.stage + (if 2 ≤ s.boot.stage then 1 else 0)
  modnum : 2 ≤ s.boot.stage → s.boot.modnum ≤ 639
  savepool : 2 ≤ s.boot.stage → s.part.cores.length ≤ s.boot.savepool ∧ s.boot.savepool ≤ 256
  pcap : 2 ≤ s.boot.stage → 1500 ≤ s.power.pcap ∧ s.power.pcap ≤ s.part.watts
  rollback : s.boot.rollback ≤ 64
  keys : s.boot.keys.length = 4

end Sys2Proof.Machine
end

