-- ==== Sys2Proof/Claims/Terms.lean ====
section
/-! DEFINITION. The words in which claims speak of one item: when an engine is ready for it, the state in which it reads its
operands, what it means that it has completed, what it promises to a register, and what it leaves alone. -/

namespace Sys2Proof.Machine

/-- The counted cycle at which engine `e` issues an item with delay count `y` (04_encoding R56). -/
def State.issueAt (s : State) (e : Engine) (y : BitVec 2) : Nat := (s.eng e).clk + y.toNat

/-- The state in which that item reads its operands: the results of `e` that have landed by then are in their registers
(05_control R78). -/
def State.arrived (s : State) (e : Engine) (y : BitVec 2) : State := s.onMe (·.landTo e (s.issueAt e y))

/-- Engine `e` may issue an item with delay count `y` that reads `srcs`: its group runs it, RFT does not skip it (10_system R222),
it is not annulled (05_control R85), and no source is promised and absent (11_model_near R237). -/
structure State.Ready (s : State) (e : Engine) (y : BitVec 2) (srcs : List Reg) : Prop where
  runs : s.mayRun e = true
  noskip : (s.eng e).skip = false
  live : (s.eng e).annul.getLsbD 0 = false
  here : ((s.arrived e y).eng e).lateOf (s.issueAt e y) srcs = none

/-- The item of `e` has issued and completed: its walk has passed it, the next two positions have moved up, its cycle is taken,
and it has its sequence number, which a handler's items do not get (04_encoding R57, 05_control R85, 10_system R216). -/
structure State.Passed (s : State) (e : Engine) (y : BitVec 2) (t : State) : Prop where
  cycle : (t.eng e).clk = s.issueAt e y + 1
  walk : (t.eng e).cur = (s.eng e).cur + s.me.itemLen e
  seq : (t.eng e).seq = (s.eng e).seq + (if s.me.phase = .handler ∧ e = .c then 0 else 1)
  pc : (t.eng e).pc = (s.eng e).pc1
  pc1 : (t.eng e).pc1 = (s.eng e).pc2

/-- Where an item leads: on along the walk, or, as a branch, to a target of some kind or past it, with its two slots annulled
or not (05_control R84, R85). -/
inductive Flow where
  | straight
  | branch (target : Option (TKind × Nat)) (annul : Bool)
  deriving DecidableEq, Repr

/-- R85: the third position that an item leaves. -/
def Flow.pc2 : Flow → Pos
  | .branch (some (k, a)) _ => .target k a
  | _ => .seq

/-- R85: the annul mask that an item leaves, from the mask before it. -/
def Flow.mask (old : BitVec 2) : Flow → BitVec 2
  | .branch _ true => 3
  | _ => old >>> 1

/-- R84: the delay slots still to issue, from those before the item. -/
def Flow.slots (old : Nat) : Flow → Nat
  | .straight => old - 1
  | .branch _ _ => 2

/-- The third position, the annul mask and the slots to come after an item that leads so (05_control R85). -/
structure State.Flows (s : State) (e : Engine) (t : State) (f : Flow) : Prop where
  pc2 : (t.eng e).pc2 = f.pc2
  annul : (t.eng e).annul = f.mask (s.eng e).annul
  slots : (t.eng e).slots = f.slots (s.eng e).slots

/-- What an item leaves alone in its own engine: the block stack, the hidden branch queue, the records of a stop, and the copies
of DICTLD that it has yet to pass (04_encoding R52, R53, R64). -/
structure State.KeepsWalk (s : State) (e : Engine) (t : State) : Prop where
  stack : (t.eng e).stack = (s.eng e).stack
  hbq : (t.eng e).hbq = (s.eng e).hbq ∧ (t.eng e).hbCovers = (s.eng e).hbCovers
  stops : (t.eng e).stops = (s.eng e).stops
  dictq : (t.eng e).dictq = (s.eng e).dictq ∧ (t.eng e).dictOwed = (s.eng e).dictOwed
  stopped : (t.eng e).stopped = (s.eng e).stopped
  notify : (t.eng e).notify = (s.eng e).notify

/-- What an item puts in flight: nothing; a register's value with a fixed latency (05_control R78); a register's value that comes
when its data arrives, no earlier than the assumed latency (08_memory_ops R160); or what the claim says elsewhere. -/
inductive Promise where
  | none
  | fixed (r : Reg) (v : State → Val) (lat : Nat)
  | late (r : Reg) (v : State → Val) (lat : State → Nat)
  | other

/-- From `a` to `t`, engine `e` has put in flight what is promised, and nothing else, by an item that issued at cycle `at_`. A
write discards an older variable-latency result for its register that has not landed (R160). -/
def Promise.Kept (p : Promise) (a t : State) (e : Engine) (at_ : Nat) : Prop :=
  match p with
  | .none => (t.eng e).flight = (a.eng e).flight
  | .fixed r v lat => (t.eng e).flight =
      ((a.eng e).flight.filter fun o => !(o.reg == r && o.late)) ++ [fixedFlight r (v a) (at_ + lat)]
  | .late r v lat => ∃ f : InFlight, f.reg = r ∧ f.val = v a ∧ f.land = at_ + lat a ∧ f.late = true ∧ f.arrived = false ∧
      (t.eng e).flight = ((a.eng e).flight.filter fun o => !(o.reg == r && o.late)) ++ [f]
  | .other => True

/-- The parts of the machine that a frame speaks of. -/
inductive Aspect where
  | engine (e : Engine) | regs | flag (n : Nat) | queue (q : BitVec 4) | stream (z : BitVec 4) | mag | supd
  | spad | acc | anchors | text | dict | tags | mesh | jobs | tokens | joined | pend | trace | bufs | closed | irq | wq
  | frames | sys | traps | bank | phase | ident
  | clock | claimed | groups | hbm | host | atomics | objs | counters | contexts | frontEnd | pages | links | podTime | platform | free
  deriving DecidableEq, Repr

/-- A part is the same in two states. Memory is compared by its bytes. -/
def State.same (a t : State) : Aspect → Prop
  | .engine e => t.eng e = a.eng e
  | .regs => ∀ r, t.me.regVal r = a.me.regVal r
  | .flag n => t.me.flag n = a.me.flag n ∧ t.me.work.setters.getD n 7 = a.me.work.setters.getD n 7
  | .queue q => t.me.queue q = a.me.queue q
  | .stream z => t.me.stream z = a.me.stream z
  | .mag => t.me.vr.mag = a.me.vr.mag
  | .supd => t.me.vr.supd = a.me.vr.supd
  | .spad => ∀ x, memGet t.me.store.spad x = memGet a.me.store.spad x
  | .acc => ∀ x, memGet t.me.store.acc x = memGet a.me.store.acc x
  | .anchors => t.me.store.anchors = a.me.store.anchors
  | .text => (∀ x, memGet t.me.store.text x = memGet a.me.store.text x) ∧ t.me.store.tlen = a.me.store.tlen ∧
      t.me.store.textVa = a.me.store.textVa
  | .dict => t.me.store.dict = a.me.store.dict
  | .tags => t.me.store.tags = a.me.store.tags
  | .mesh => t.me.mesh = a.me.mesh
  | .jobs => t.me.work.jobs = a.me.work.jobs ∧ t.me.work.lastJob = a.me.work.lastJob
  | .tokens => t.me.work.tokens = a.me.work.tokens
  | .joined => t.me.work.joined = a.me.work.joined
  | .pend => t.me.work.pend = a.me.work.pend
  | .trace => t.me.work.trace = a.me.work.trace ∧ t.me.work.losses = a.me.work.losses
  | .bufs => t.me.work.bufs = a.me.work.bufs
  | .closed => t.me.work.closed = a.me.work.closed
  | .irq => t.me.work.irq = a.me.work.irq ∧ t.me.work.yielding = a.me.work.yielding
  | .wq => t.me.work.wqCount = a.me.work.wqCount
  | .frames => t.me.frames = a.me.frames
  | .sys => t.me.sys = a.me.sys
  | .traps => t.me.traps = a.me.traps
  | .bank => t.me.bank = a.me.bank
  | .phase => t.me.phase = a.me.phase ∧ t.me.prior = a.me.prior ∧ t.me.status = a.me.status ∧ t.me.reason = a.me.reason
  | .ident => t.me.ident = a.me.ident
  | .clock => t.me.time.start = a.me.time.start ∧ t.me.time.paused = a.me.time.paused ∧ t.me.time.cycBase = a.me.time.cycBase ∧
      t.me.time.cycAt = a.me.time.cycAt ∧ t.me.time.align = a.me.time.align ∧ t.me.time.hold = a.me.time.hold
  | .claimed => t.me.hand.claim = a.me.hand.claim ∧ t.me.hand.csave = a.me.hand.csave
  | .groups => t.rest = a.rest
  | .hbm => ∀ x, memGet t.mem.hbm x = memGet a.mem.hbm x
  | .host => ∀ x, memGet t.mem.host x = memGet a.mem.host x
  | .atomics => t.mem.atomics = a.mem.atomics ∧ t.mem.closing = a.mem.closing
  | .objs => t.mem.objs = a.mem.objs
  | .counters => t.ctrs = a.ctrs
  | .contexts => t.ctxs = a.ctxs
  | .frontEnd => t.fe = a.fe
  | .pages => t.pages = a.pages
  | .links => t.links = a.links
  | .podTime => t.time = a.time
  | .platform => t.part = a.part ∧ t.boot = a.boot ∧ t.power = a.power ∧ t.errors = a.errors ∧ t.host = a.host
  | .free => t.free = a.free

/-- Every part but those named is the same. An item of `e` always changes the engine's own walk; a stall that it ends counts
against a buffer (24_registers R354). -/
def State.KeepsBut (a t : State) (e : Engine) (ps : List Aspect) : Prop :=
  ∀ p, p ∉ Aspect.engine e :: Aspect.bufs :: ps → a.same t p

/-! ## Queues -/

/-- Queue `q` offers its oldest entry to engine `e`, which consumes it: the accesses that the entry covers are performed (05_control R91,
R92; 11_model_near R241). -/
def State.Offers (s : State) (e : Engine) (q : BitVec 4) : Prop :=
  (∃ p, (s.me.queue q).bind = some (p, e)) ∧ (s.me.queue q).entries ≠ [] ∧ s.allDone ((s.me.queue q).covers.headD []) = true

/-- The queue has given its oldest entry up. -/
def State.Popped (s t : State) (q : BitVec 4) : Prop :=
  (t.me.queue q).bind = (s.me.queue q).bind ∧ (t.me.queue q).entries = (s.me.queue q).entries.tail ∧
    (t.me.queue q).covers = (s.me.queue q).covers.tail ∧ (t.me.queue q).owed = (s.me.queue q).owed.tail

/-- Queue `q` takes an entry of engine `e`, which produces for it: it holds fewer than 8 (R91). -/
def State.Accepts (s : State) (e : Engine) (q : BitVec 4) : Prop :=
  (∃ k, (s.me.queue q).bind = some (e, k)) ∧ (s.me.queue q).entries.length < 8

/-- The queue has taken an entry. -/
def State.Pushed (s t : State) (q : BitVec 4) (v : BitVec 64) : Prop :=
  (t.me.queue q).bind = (s.me.queue q).bind ∧ (t.me.queue q).entries = (s.me.queue q).entries ++ [v]

/-! ## Landing and stepping -/

/-- Register `r` of a group holds a value; s0 holds zero whatever is written to it (05_control R77). -/
def Group.Holds (g : Group) (r : Reg) (v : Val) : Prop :=
  match r, v with
  | .s n, .word w => g.sreg n = if n = 0 then 0 else w
  | .p n, .bit b => g.preg n = b
  | .v n, .vec x => g.vreg n = x
  | .h n, .handle h => g.hreg n = h
  | .e n, .word w => g.ereg n = w
  | .m n, .mask x => g.mreg n = x
  | _, _ => True

/-- The next step is that of engine `e` at an item: it has the turn, its group runs it, it stands inside a body that reaches past the
item, and the slip window lets it pass (04_encoding R51 to R55, 05_control R95). -/
structure State.AtItem (s : State) (e : Engine) : Prop where
  agenda : s.agenda = []
  turn : s.turn = .engine e
  runs : s.mayRun e = true
  pc : (s.eng e).pc = .seq
  skip : (s.eng e).skip = false
  body : ∀ l ∈ (s.eng e).stack.head?, l.last ≠ (s.eng e).cur
  text : (s.eng e).cur < s.me.store.tlen ∧ ((s.eng e).cur = 0 → s.me.store.isHeader 0 = true)
  fits : (s.eng e).cur + s.me.itemLen e ≤ s.me.enclosingEnd e
  window : s.me.inWindow e (s.me.itemLen e / 2) = true
  quiet : e = .c → s.interruptEnabled = false
  claim : s.atClaimEnd e = false

/-- The turn passes to the next agent. -/
def thenTurn (e : Engine) (o : Host.Outcome State Fault Refusal) : Host.Outcome State Fault Refusal :=
  andThen (fun t => { t with turn := (Turn.engine e).after }) o

/-! ## Claims about items -/

/-- What a claim says about one instruction word of an engine: the engine, the delay count, the registers that it reads, the
condition under which it has its own effect, an operation that is (part of) its effect, where it leads, what it puts in flight,
the parts that it may change, and what else it does. The condition and the operation are of the state in which the item reads its
operands; what follows is of the state after the operation. -/
structure Claim where
  eng : Engine
  y : BitVec 2
  srcs : List Reg := []
  pre : State → Prop := fun _ => True
  does : State → State := id
  flow : State → Flow := fun _ => .straight
  result : Promise := .none
  parts : List Aspect := []
  post : State → State → Prop := fun _ _ => True

/-- The state after the operation of a claim. -/
def Claim.mid (c : Claim) (s : State) : State := c.does (s.arrived c.eng c.y)

/-- What the claim says of the state after the item. -/
structure Claim.Done (c : Claim) (s t : State) : Prop where
  passed : s.Passed c.eng c.y t
  flows : s.Flows c.eng t (c.flow (c.mid s))
  walk : (c.mid s).KeepsWalk c.eng t
  result : c.result.Kept (c.mid s) t c.eng (s.issueAt c.eng c.y)
  frame : (c.mid s).KeepsBut t c.eng c.parts
  effect : c.post (c.mid s) t

/-- The claim is true of an instruction: ready and with its condition met, it completes with a next state, leads where the claim
says, has that result and that effect, and changes nothing else. -/
def Claim.Holds (c : Claim) (i : Instr) : Prop :=
  ∀ s : State, s.Ready c.eng c.y c.srcs → c.pre (s.arrived c.eng c.y) → ∃ t, exec i s = .next t ∧ c.Done s t

/-! ## Claims about events -/

/-- What a claim says about an event that is no instruction word (a row without an encoding): the condition under which it takes
place, an operation that is (part of) its effect, the parts that it may change besides, and what else it does. -/
structure EventClaim where
  pre : State → Prop := fun _ => True
  does : State → State := id
  parts : List Aspect := []
  post : State → State → Prop := fun _ _ => True

/-- The claim is true of an event: with its condition met, it answers a next state, with that effect and no other. -/
def EventClaim.Holds (c : EventClaim) (i : Instr) : Prop :=
  ∀ s : State, c.pre s → ∃ t, exec i s = .next t ∧ c.post (c.does s) t ∧ ∀ p, p ∉ c.parts → (c.does s).same t p

end Sys2Proof.Machine
end

