-- ==== Sys2Proof/Claims/Scalar.lean ====
section
/-! DEFINITION. What the manual's tables give for scalar arithmetic, logic and compares (05_control R78 to R83), by value: each row
names its sources, its latency and its result as arithmetic on integers. -/

namespace Sys2Proof.Machine

/-- R79: the quotient that rounds toward minus infinity. -/
def floorDiv (a b : Int) : Int := a.fdiv b

/-- R79, R81: a condition as 0 or 1. -/
def asBit (p : Prop) [Decidable p] : BitVec 64 := if p then 1 else 0

/-- R79: the number of leading bits of a word that are 0. -/
def countLeading (u : BitVec 64) : Nat := ((List.range 64).takeWhile fun i => !u.getMsbD i).length

/-- R79: the number of trailing bits of a word that are 0. -/
def countTrailing (u : BitVec 64) : Nat := ((List.range 64).takeWhile fun i => !u.getLsbD i).length

/-- R79: the number of one bits. -/
def countOnes (u : BitVec 64) : Nat := (List.range 64).countP fun i => u.getLsbD i

/-- R81: bit `i` of INS: the low `w` bits of s[a] from bit `pos` on, the bits of s[d] elsewhere. -/
def insBit (old a : BitVec 64) (pos w i : Nat) : Bool :=
  if pos ≤ i ∧ i < pos + w then a.getLsbD (i - pos) else old.getLsbD i

/-- A word by its bits. -/
def IsBits (v : BitVec 64) (f : Nat → Bool) : Prop := ∀ i, i < 64 → v.getLsbD i = f i

/-- A claim about an instruction of C that writes s[d] from scalars and changes nothing else. -/
def scalarClaim (y : BitVec 2) (d : BitVec 5) (srcs : List Reg) (lat : Nat) (v : State → BitVec 64) : Claim :=
  { eng := .c, y := y, srcs := srcs, result := .fixed (.s d) (fun s => .word (v s)) lat }

/-- The three-register form. -/
def triClaim (y : BitVec 2) (d a b : BitVec 5) (lat : Nat) (f : BitVec 64 → BitVec 64 → BitVec 64) : Claim :=
  scalarClaim y d [.s a, .s b] lat fun s => f (s.me.sreg a) (s.me.sreg b)

/-- The one-operand and the immediate form. -/
def duoClaim (y : BitVec 2) (d a : BitVec 5) (f : BitVec 64 → BitVec 64) : Claim :=
  scalarClaim y d [.s a] 1 fun s => f (s.me.sreg a)

/-- R79, R80: the three-register forms. -/
def arithmeticRow : Instr → Option Claim
  | .add y d a b => some (triClaim y d a b 1 fun u v => .ofInt 64 (u.toInt + v.toInt))
  | .sub y d a b => some (triClaim y d a b 1 fun u v => .ofInt 64 (u.toInt - v.toInt))
  | .mul y d a b => some (triClaim y d a b 3 fun u v => .ofInt 64 (u.toInt * v.toInt))
  | .mulh y d a b => some (triClaim y d a b 3 fun u v => .ofInt 64 (floorDiv (u.toInt * v.toInt) (2 ^ 64)))
  | .mulhn y d a b => some (triClaim y d a b 3 fun u v => .ofNat 64 (u.toNat * v.toNat / 2 ^ 64))
  | .div y d a b => some (triClaim y d a b 18 fun u v =>
      if v = 0 then .allOnes 64 else .ofInt 64 (u.toInt.tdiv v.toInt))
  | .divn y d a b => some (triClaim y d a b 18 fun u v =>
      if v = 0 then .allOnes 64 else .ofNat 64 (u.toNat / v.toNat))
  | .rem y d a b => some (triClaim y d a b 18 fun u v =>
      if v = 0 then u else .ofInt 64 (u.toInt - u.toInt.tdiv v.toInt * v.toInt))
  | .remn y d a b => some (triClaim y d a b 18 fun u v =>
      if v = 0 then u else .ofNat 64 (u.toNat - u.toNat / v.toNat * v.toNat))
  | .shl y d a b => some (triClaim y d a b 1 fun u v => .ofNat 64 (u.toNat * 2 ^ (v.toNat % 64)))
  | .shr y d a b => some (triClaim y d a b 1 fun u v => .ofNat 64 (u.toNat / 2 ^ (v.toNat % 64)))
  | .sar y d a b => some (triClaim y d a b 1 fun u v => .ofInt 64 (floorDiv u.toInt (2 ^ (v.toNat % 64))))
  | .slt y d a b => some (triClaim y d a b 1 fun u v => asBit (u.toInt < v.toInt))
  | .sltn y d a b => some (triClaim y d a b 1 fun u v => asBit (u.toNat < v.toNat))
  | .min y d a b => some (triClaim y d a b 1 fun u v => .ofInt 64 (min u.toInt v.toInt))
  | .max y d a b => some (triClaim y d a b 1 fun u v => .ofInt 64 (max u.toInt v.toInt))
  | .minn y d a b => some (triClaim y d a b 1 fun u v => .ofNat 64 (min u.toNat v.toNat))
  | .maxn y d a b => some (triClaim y d a b 1 fun u v => .ofNat 64 (max u.toNat v.toNat))
  | .fsh y d a b x => some (scalarClaim y d [.s a, .s b, .s x] 1 fun s =>
      .ofNat 64 (((s.me.sreg a).toNat * 2 ^ 64 + (s.me.sreg b).toNat) / 2 ^ ((s.me.sreg x).toNat % 64)))
  | .sel y d a b p => some (scalarClaim y d [.s a, .s b, .p p] 1 fun s =>
      if s.me.preg p = true then s.me.sreg a else s.me.sreg b)
  | .addi y d a k => some (duoClaim y d a fun u => .ofInt 64 (u.toInt + k.toInt))
  | .shli y d a k => some (duoClaim y d a fun u => .ofNat 64 (u.toNat * 2 ^ k.toNat))
  | .shri y d a k => some (duoClaim y d a fun u => .ofNat 64 (u.toNat / 2 ^ k.toNat))
  | .sari y d a k => some (duoClaim y d a fun u => .ofInt 64 (floorDiv u.toInt (2 ^ k.toNat)))
  | .slti y d a k => some (duoClaim y d a fun u => asBit (u.toInt < k.toInt))
  | .ext y d a l p => some (duoClaim y d a fun u => .ofNat 64 (u.toNat / 2 ^ p.toNat % 2 ^ (l.toNat + 1)))
  | .clz y d a => some (duoClaim y d a fun u => .ofNat 64 (countLeading u))
  | .ctz y d a => some (duoClaim y d a fun u => .ofNat 64 (countTrailing u))
  | .popc y d a => some (duoClaim y d a fun u => .ofNat 64 (countOnes u))
  | .lih y d k => some (scalarClaim y d [.s d] 1 fun s => .ofNat 64 ((s.me.sreg d).toNat * 2 ^ 15 + k.toNat))
  | _ => none

/-- R79, R81: the bitwise forms and INS, by the bits of the word that they write. -/
def bitwiseRow : Instr → Option (BitVec 2 × BitVec 5 × List Reg × (State → Nat → Bool))
  | .and y d a b => some (y, d, [.s a, .s b], fun s i => (s.me.sreg a).getLsbD i && (s.me.sreg b).getLsbD i)
  | .or y d a b => some (y, d, [.s a, .s b], fun s i => (s.me.sreg a).getLsbD i || (s.me.sreg b).getLsbD i)
  | .xor y d a b => some (y, d, [.s a, .s b], fun s i => (s.me.sreg a).getLsbD i != (s.me.sreg b).getLsbD i)
  | .andi y d a k => some (y, d, [.s a], fun s i => (s.me.sreg a).getLsbD i && k.getLsbD (min i 9))
  | .ori y d a k => some (y, d, [.s a], fun s i => (s.me.sreg a).getLsbD i || k.getLsbD (min i 9))
  | .xori y d a k => some (y, d, [.s a], fun s i => (s.me.sreg a).getLsbD i != k.getLsbD (min i 9))
  | .ins y d a l p => some (y, d, [.s a, .s d], fun s i => insBit (s.me.sreg d) (s.me.sreg a) p.toNat (l.toNat + 1) i)
  | _ => none

/-- R60, R83: a condition by its code, on integers. -/
def condTrue (c : Nat) (u v : BitVec 64) : Prop :=
  match c with
  | 0 => u.toInt = v.toInt
  | 1 => u.toInt ≠ v.toInt
  | 2 => u.toInt < v.toInt
  | 3 => u.toInt ≤ v.toInt
  | 4 => u.toNat < v.toNat
  | _ => u.toNat ≤ v.toNat

/-- R83: the immediate of CMPI: zero-extended for .ltn and .len, else sign-extended. -/
def cmpImm (c : Nat) (k : BitVec 10) : BitVec 64 := if 4 ≤ c then .ofNat 64 k.toNat else .ofInt 64 k.toInt

/-- A compare: its condition code, its destination and its operands. -/
def compareRow : Instr → Option (BitVec 2 × BitVec 3 × List Reg × Nat × (State → BitVec 64) × (State → BitVec 64))
  | .cmpCc y d a b c => some (y, d, [.s a, .s b], c.toNat, fun s => s.me.sreg a, fun s => s.me.sreg b)
  | .cmpiCc c y d a k => some (y, d, [.s a], c.toNat, fun s => s.me.sreg a, fun _ => cmpImm c.toNat k)
  | _ => none

/-- A claim about an instruction of C that writes a predicate and changes nothing else. -/
def predicateClaim (y : BitVec 2) (d : BitVec 3) (srcs : List Reg) (b : State → Bool) : Claim :=
  { eng := .c, y := y, srcs := srcs, result := .fixed (.p d) (fun s => .bit (b s)) 1 }

end Sys2Proof.Machine
end

