-- ==== Sys2Proof/Claims/Control.lean ====
section
/-! DEFINITION. What the manual gives for branches (05_control R84 to R90), queue instructions (R91, R92), framing (04_encoding R50
to R56) and the dictionary (R62 to R64). -/

namespace Sys2Proof.Machine

/-! ## Branches -/

/-- R69: the target of a branch that stands at the engine's address. -/
def State.targetOf (s : State) (e : Engine) (off : Int) : Nat := branchTo (s.eng e).cur off

/-- B.cc and B.cc.a: whether an untaken branch annuls its slots, the condition code, the delay count, the operands, the offset. -/
def condBranchRow : Instr → Option (Bool × Nat × BitVec 2 × BitVec 5 × BitVec 5 × Int)
  | .bCc c y d a k => some (false, c.toNat, y, d, a, k.toInt)
  | .bCcA c y d a k => some (true, c.toNat, y, d, a, k.toInt)
  | _ => none

/-- R85, R87: a conditional branch with the answer to its condition. -/
def condBranchClaim (annul : Bool) (y : BitVec 2) (d a : BitVec 5) (off : Int) (taken : State → Bool) : Claim :=
  { eng := .c, y := y, srcs := [.s d, .s a]
    flow := fun s => if taken s = true then .branch (some (.jump, s.targetOf .c off)) false else .branch none annul }

/-- R87, R88: the unconditional branches. CALL writes s31 with the address of the first header above its second slot. -/
def jumpRow : Instr → Option Claim
  | .br y k => some { eng := .c, y := y, flow := fun s => .branch (some (.jump, s.targetOf .c k.toInt)) false }
  | .call y k => some
      { eng := .c, y := y, pre := fun s => (s.eng .c).slots = 0 ∧ s.me.frames.length < 8
        flow := fun s => .branch (some (.call, s.targetOf .c k.toInt)) false
        result := .fixed (.s 31) (fun s => .word s.me.linkAddr) 1 }
  | .ret y => some
      { eng := .c, y := y, srcs := [.s 31], pre := fun s => (s.eng .c).slots = 0 ∧ s.me.frames ≠ []
        flow := fun s => .branch (some (.ret, (s.me.sreg 31).toNat)) false }
  | .jr y d => some { eng := .c, y := y, srcs := [.s d], flow := fun s => .branch (some (.jump, (s.me.sreg d).toNat)) false }
  | _ => none

/-! ## Queues -/

/-- R91, R92: the queue instructions of C. -/
def queueRow : Instr → Option Claim
  | .qpush y d a => some
      { eng := .c, y := y, srcs := [.s a], parts := [.queue d]
        pre := fun s => s.Accepts .c d
        post := fun s t => s.Pushed t d (s.me.sreg a) }
  | .qpop y d a => some
      { eng := .c, y := y, parts := [.queue a]
        pre := fun s => s.Offers .c a
        result := .fixed (.s d) (fun s => .word ((s.me.queue a).entries.headD 0)) 2
        post := fun s t => s.Popped t a }
  | .qpeek y d a => some
      { eng := .c, y := y, pre := fun s => s.Offers .c a
        result := .fixed (.s d) (fun s => .word ((s.me.queue a).entries.headD 0)) 2 }
  | .qbind y d p k => some
      { eng := .c, y := y, parts := [.queue d]
        pre := fun s => (∃ e f : Engine, e ≠ f ∧ p = e.bit ∧ k = f.bit) ∧
          ((s.me.queue d).bind = none ∨ (s.me.queue d).entries = [])
        post := fun s t => (∃ e f : Engine, p = e.bit ∧ k = f.bit ∧ (t.me.queue d).bind = some (e, f)) ∧
          (t.me.queue d).entries = (s.me.queue d).entries }
  | .nopC y => some { eng := .c, y := y }
  | _ => none

/-! ## Waiting and trapping -/

/-- The engine stalls at its item: it waits from now on, and nothing else changes (04_encoding R47). -/
structure State.Waits (s : State) (e : Engine) (t : State) : Prop where
  since : (t.eng e).waiting = some ((s.eng e).waiting.getD s.time.now)
  cycle : (t.eng e).clk = (s.eng e).clk
  walk : (t.eng e).cur = (s.eng e).cur
  seq : (t.eng e).seq = (s.eng e).seq
  results : (t.eng e).flight = (s.eng e).flight
  rest : ∀ p, p ≠ .engine e → s.same t p

/-- R92, R93: where a queue instruction of C waits, and where it traps: queue, registers read, whether it pushes. -/
def queueUse : Instr → Option (BitVec 2 × BitVec 4 × List Reg × Bool)
  | .qpush y d a => some (y, d, [.s a], true)
  | .qpop y _ a => some (y, a, [], false)
  | .qpeek y _ a => some (y, a, [], false)
  | _ => none

/-- R92: the queue is bound, and C is not on the side that the instruction needs. -/
def Queue.wrongSide (q : Queue) (push : Bool) : Prop :=
  ∃ p k : Engine, q.bind = some (p, k) ∧ (if push = true then p else k) ≠ .c

/-- R91, R92, R241: the instruction has to wait: the queue is unbound, or full for a push, or for a pop or a peek empty or with
accesses that its oldest entry covers still to be performed. -/
def State.mustWaitAt (s : State) (k : BitVec 4) (push : Bool) : Prop :=
  let q := s.me.queue k
  q.bind = none ∨ (∃ p k : Engine, q.bind = some (p, k) ∧ (if push = true then p else k) = .c ∧
    (if push = true then 8 ≤ q.entries.length else q.entries = [] ∨ s.allDone (q.covers.headD []) = false))

/-! ## Framing -/

/-- An engine moves along the text without an item: only its address, its stack, its count of parcels, its cycle and a stall may
change, in no other engine and nowhere else (04_encoding R50 to R56). -/
structure State.Moves (s : State) (e : Engine) (t : State) (cur : Nat) (stack : List Level) (clk : Nat) : Prop where
  walk : (t.eng e).cur = cur
  stack : (t.eng e).stack = stack
  cycle : (t.eng e).clk = clk
  seq : (t.eng e).seq = (s.eng e).seq
  results : (t.eng e).flight = (s.eng e).flight
  rest : ∀ p, p ≠ .engine e → s.same t p

/-- R50 to R52: the level that a header of `len` parcels and `n` passes opens. -/
def EngineState.opened (x : EngineState) (len n : Nat) : List Level :=
  ⟨x.cur + 4, x.cur + 4 + 2 * len, n⟩ :: x.stack

/-- R51: a header of `len` parcels lies inside the innermost open body, or inside the text, and a level is free. -/
def State.framed (s : State) (e : Engine) (len : Nat) : Prop :=
  (s.eng e).cur + 4 + 2 * len ≤ (match (s.eng e).stack with | l :: _ => l.last | [] => s.me.store.tlen) ∧
    (s.eng e).stack.length < 8

/-! ## Branches of all engines -/

/-- R90: the twelve forms of BEM: condition code, annulling, delay count, bits [18:15] of the mask, operands, offset. -/
def bemRow : Instr → Option (Nat × Bool × BitVec 2 × BitVec 4 × BitVec 4 × BitVec 4 × Int)
  | .bemEq y m f g o => some (0, false, y, m, f, g, o.toInt)
  | .bemEqA y m f g o => some (0, true, y, m, f, g, o.toInt)
  | .bemNe y m f g o => some (1, false, y, m, f, g, o.toInt)
  | .bemNeA y m f g o => some (1, true, y, m, f, g, o.toInt)
  | .bemLt y m f g o => some (2, false, y, m, f, g, o.toInt)
  | .bemLtA y m f g o => some (2, true, y, m, f, g, o.toInt)
  | .bemLe y m f g o => some (3, false, y, m, f, g, o.toInt)
  | .bemLeA y m f g o => some (3, true, y, m, f, g, o.toInt)
  | .bemLtn y m f g o => some (4, false, y, m, f, g, o.toInt)
  | .bemLtnA y m f g o => some (4, true, y, m, f, g, o.toInt)
  | .bemLen y m f g o => some (5, false, y, m, f, g, o.toInt)
  | .bemLenA y m f g o => some (5, true, y, m, f, g, o.toInt)
  | _ => none

/-- R60: whether a mask with bit [19] set, whose bits [18:15] are given, names an engine other than C. -/
def maskNames (m : BitVec 4) : Engine → Bool
  | .c => false
  | .l => m.getLsbD 3
  | .v => m.getLsbD 2
  | .m => m.getLsbD 1
  | .s => m.getLsbD 0

/-- R53, R211: the other engines that follow C: all of them, in handler mode only a claimed M (log entry 23). -/
def State.follows (s : State) (e : Engine) : Bool :=
  e != .c && (s.me.phase != .handler || (e == .m && s.me.hand.claim.isSome))

/-- The flow of a branch. -/
def branchFlow (take annul : Bool) (target : Nat) : Flow :=
  if take = true then .branch (some (.jump, target)) false else .branch none annul

/-- R53, R90, R241: an entry that C pushes to an engine's hidden branch queue, with the accesses of C that it covers. -/
def EngineState.hidden (x : EngineState) (h : HbEntry) (covers : List Nat) : EngineState :=
  { x with hbq := x.hbq ++ [h], hbCovers := x.hbCovers ++ [covers] }

/-- R53, R90: an engine takes its oldest entry, whose accesses are performed. -/
def State.hiddenHead (s : State) (e : Engine) (h : HbEntry) : Prop :=
  (s.eng e).hbq.head? = some h ∧ s.allDone ((s.eng e).hbCovers.headD []) = true

/-- R90: the copy of C: it pushes its outcome to every engine that the mask names, once none of their queues is full. -/
def bemClaim (annul : Bool) (y : BitVec 2) (m f g : BitVec 4) (off : Int) (take : State → Bool) : Claim :=
  { eng := .c, y := y, srcs := [.s (f.setWidth 5), .s (g.setWidth 5)], parts := [.engine .l, .engine .v, .engine .m, .engine .s]
    pre := fun s => ∀ e, maskNames m e = true → s.follows e = true → (s.eng e).hbq.length < 4
    flow := fun s => branchFlow (take s) annul (s.targetOf .c off)
    post := fun s t => ∀ e, e ≠ .c → t.eng e =
      if maskNames m e = true ∧ s.follows e = true then
        (s.eng e).hidden (.branch (take s) annul) (s.coveredBy .c)
      else s.eng e }

/-- What an item leaves of an engine's queue of outcomes: all but the oldest. -/
def State.PopsHidden (s : State) (e : Engine) (t : State) : Prop :=
  (t.eng e).hbq = (s.eng e).hbq.tail ∧ (t.eng e).hbCovers = (s.eng e).hbCovers.tail

/-! ## The dictionary -/

/-- R63: whether the dictionary holds a word; one that it may not hold is not stored. -/
def dictAfter (w : BitVec 32) : Option (BitVec 32) := if loadable w.toNat = true then some w else none

end Sys2Proof.Machine
end

