-- ==== Sys2Proof/Claims/Memory.lean ====
section
/-! DEFINITION. What the manual gives for loads, stores and atomics of engine C (08_memory_ops R154 to R160, R172 to R174): the
address of an operand, what is read and which bytes are written. -/

namespace Sys2Proof.Machine

/-! ## Places -/

/-- A byte of the scratchpad of the group placed on a core. -/
def State.spadByte (s : State) (core x : Nat) : Byte :=
  match s.groupOn core with
  | some g => memGet g.store.spad x
  | none => 0

/-- `n` bytes there as a little-endian number (01_device R15). -/
def State.spadNum (s : State) (core x : Nat) : Nat → Nat
  | 0 => 0
  | n + 1 => (s.spadByte core x).toNat + 2 ^ 8 * s.spadNum core (x + 1) n

/-- A number of `n` bits widened to 64 by its type (R158, R173): by its sign, or by zeros. -/
def widened (signed : Bool) (n v : Nat) : BitVec 64 :=
  if signed = true then (BitVec.ofNat n v).signExtend 64 else (BitVec.ofNat n v).setWidth 64

/-- R154: core and byte of a scratchpad address, where it names one. -/
def State.spadAt (s : State) (a : Nat) : Option (Nat × Nat) :=
  match s.placeSite a with
  | some (.spad core x) => some (core, x)
  | _ => none

/-- R154, R157, R219: an access of `n` bytes at a scratchpad address is allowed. -/
def State.spadOk (s : State) (a n core x : Nat) : Prop :=
  a % n = 0 ∧ s.spadAt a = some (core, x) ∧ s.me.isPending false core x n = false

/-- R155, R157: an access of `n` bytes at a virtual address through a handle is allowed. -/
def Handle.allows (hd : Handle) (va n : Nat) : Prop := hd.valid = true ∧ va % n = 0 ∧ va + n ≤ hd.pageEnd

/-! ## Loads and stores -/

/-- The operands of LD and ST (R156): delay count, register, base field, H, size in bytes, signed, offset, registers read for
the address. -/
structure LdSt where
  y : BitVec 2
  r : BitVec 5
  base : BitVec 5
  h : BitVec 1
  size : Nat
  signed : Bool
  off : State → Nat
  srcs : List Reg

/-- R156: the fields of LD and ST; an immediate offset counts in units of the size. -/
def ldStOf (y : BitVec 2) (t b : BitVec 5) (h : BitVec 1) (w : BitVec 3) (ix : BitVec 1) (x : BitVec 5) : LdSt :=
  let n := match w.toNat % 4 with
    | 0 => 1
    | 1 => 2
    | 2 => 4
    | _ => 8
  { y := y, r := t, base := b, h := h, size := n, signed := decide (w.toNat < 4)
    off := fun s => if ix = 1 then x.toNat * n else (s.me.sreg x).toNat
    srcs := (if h = 1 then [.h (b.setWidth 4)] else [.s b]) ++ (if ix = 1 then [] else [.s x]) }

def loadRow : Instr → Option LdSt
  | .ld y t b h w ix x => some (ldStOf y t b h w ix x)
  | _ => none

def storeRow : Instr → Option LdSt
  | .st y t b h w ix x => some (ldStOf y t b h w ix x)
  | _ => none

/-- The scratchpad address of an operand with H = 0 (R154). -/
def LdSt.spadAddr (r : LdSt) (s : State) : Nat := (s.me.sreg r.base).toNat + r.off s

/-- The handle of an operand with H = 1 (R155). -/
def LdSt.handle (r : LdSt) (s : State) : Handle := s.me.hreg (r.base.setWidth 4)

/-- The virtual address of an operand with H = 1 (R155). -/
def LdSt.va (r : LdSt) (s : State) : Nat := (r.handle s).va.toNat + r.off s

/-- R302: fewer than 32 results of C have yet to arrive; the predicate of an AFADDB comes with its old value. -/
def State.roomForResult (s : State) : Prop := ((s.eng .c).flight.filter fun f => f.late && !f.arrived && !f.reg.isPred).length < 32

/-- R158, R160: a load from a scratchpad. -/
def spadLoadClaim (r : LdSt) (core x : Nat) : Claim :=
  { eng := .c, y := r.y, srcs := r.srcs
    pre := fun s => s.spadOk (r.spadAddr s) r.size core x ∧ (s.groupOn core).isSome = true ∧ s.roomForResult
    result := .late (.s r.r) (fun s => .word (widened r.signed (8 * r.size) (s.spadNum core x r.size)))
      (fun s => if core = s.me.ident.core then 6 else 40) }

/-- R160: the assumed latency of a load through a handle by its KIND. -/
def loadLatency (k : BitVec 3) : Nat :=
  match k.toNat with
  | 0 => 300
  | 3 => 300
  | 2 => 1200
  | _ => 2000

/-- R158, R203: a load through a handle from a generator window. -/
def genLoadClaim (r : LdSt) (g : GenWin) : Claim :=
  { eng := .c, y := r.y, srcs := r.srcs
    pre := fun s => r.base.getLsbD 4 = false ∧ (r.handle s).allows (r.va s) r.size ∧ s.roomForResult ∧
      ∃ n, s.genAt s.me.ident.ctx (r.va s) = some (n, g)
    result := .late (.s r.r) (fun s => .word (widened r.signed (8 * r.size) (leVal (g.bytes (r.va s - g.vbase) r.size))))
      (fun s => loadLatency (r.handle s).kind) }

/-- R159, R250: nothing of the group's own is in the way of a load: no held atomic over its bytes, and, at a holder of a replica, no
store or atomic of its core to the line that the owner has not answered. -/
def State.clearRead (s : State) (r : LdSt) (e : PEntry) : Prop :=
  s.heldAtomic s.me.ident.ctx (r.va s) r.size = false ∧ s.behindStore s.me.ident.core s.me.ident.ctx e (r.va s) = none

/-- R158, R341, R343: a load through a handle from a page that this module can read. Its access counter and the buffer's bytes
count it first. -/
def pageLoadClaim (r : LdSt) (e : PEntry) : Claim :=
  { eng := .c, y := r.y, srcs := r.srcs
    pre := fun s => r.base.getLsbD 4 = false ∧ (r.handle s).allows (r.va s) r.size ∧ s.roomForResult ∧
      s.genAt s.me.ident.ctx (r.va s) = none ∧ s.leafOf s.me.ident.ctx (r.va s) = some e ∧ s.frameExists e = true ∧
      s.readable e = true ∧ s.clearRead r e
    does := fun s => s.tally e (r.va s) r.size
    result := .late (.s r.r)
      (fun s => .word (widened r.signed (8 * r.size) (leVal (s.readPage s.me.ident.ctx (r.va s) e r.size))))
      (fun s => loadLatency (r.handle s).kind) }

/-- R326, R341: the module and the local address of a virtual address of a page whose frame another module holds: the frame, or the
owner's of a replica. -/
def PEntry.farHome (e : PEntry) (x : Option Replica) (va : Nat) : Nat × Nat :=
  match x with
  | some r => (r.owner, paLocal (r.frame + va % e.size))
  | none => (paModule (e.pa + va % e.size), paLocal (e.pa + va % e.size))

/-- What forwarding an access to another module may change. -/
def farParts : List Aspect := [.links, .frontEnd, .contexts, .counters, .hbm, .host]

/-- R158, R159, R326, R341: a load through a handle from a page whose frame another module holds, or from a replica whose owner has not
answered a store of the group's own core to the line: the read is forwarded. -/
def remoteLoadClaim (r : LdSt) (e : PEntry) (x : Option Replica) : Claim :=
  { eng := .c, y := r.y, srcs := r.srcs
    pre := fun s => r.base.getLsbD 4 = false ∧ (r.handle s).allows (r.va s) r.size ∧ s.roomForResult ∧
      s.genAt s.me.ident.ctx (r.va s) = none ∧ s.leafOf s.me.ident.ctx (r.va s) = some e ∧ s.frameExists e = true ∧
      s.heldAtomic s.me.ident.ctx (r.va s) r.size = false ∧ s.behindStore s.me.ident.core s.me.ident.ctx e (r.va s) = x ∧
      (x = none → s.readable e = false)
    does := fun s => s.tally e (r.va s) r.size
    result := .late (.s r.r) (fun _ => .word 0) (fun s => loadLatency (r.handle s).kind)
    parts := farParts
    post := fun s t => ∃ f ∈ t.links.fwds, f.core = some s.me.ident.core ∧ f.reg = some (.s r.r) ∧ f.size = r.size ∧
      f.signed = r.signed ∧ f.pkt.kind = 1 ∧ f.pkt.dmod = (e.farHome x (r.va s)).1 ∧
      f.pkt.addr = BitVec.ofNat 64 (e.farHome x (r.va s)).2 }

/-- Byte `i` of a word. -/
def byteOf (v : BitVec 64) (i : Nat) : Byte := (v >>> (8 * i)).setWidth 8

/-- R158: a store to a scratchpad: the bytes of the operand, and no other byte of any core. A core whose group has taken a fatal
fault keeps its bytes (10_system R209). -/
def spadStoreClaim (r : LdSt) (core x : Nat) : Claim :=
  { eng := .c, y := r.y, srcs := .s r.r :: r.srcs
    pre := fun s => s.spadOk (r.spadAddr s) r.size core x
    parts := [.spad, .groups]
    post := fun s t => ∀ k a, (s.groupOn k).isSome = true → t.spadByte k a =
      if k = core ∧ x ≤ a ∧ a < x + r.size ∧ (s.groupOn core).any (fun g => g.phase != .frozen) = true then
        byteOf (s.me.sreg r.r) (a - x)
      else s.spadByte k a }

/-- R158, R341: a store through a handle to a LOCAL page of this module: the bytes of the operand in the page's frame, and no
other byte of memory. -/
def pageStoreClaim (r : LdSt) (e : PEntry) : Claim :=
  { eng := .c, y := r.y, srcs := .s r.r :: r.srcs
    pre := fun s => r.base.getLsbD 4 = false ∧ (r.handle s).allows (r.va s) r.size ∧ (r.handle s).sealed = false ∧
      (r.handle s).wr = true ∧ s.genAt s.me.ident.ctx (r.va s) = none ∧ s.leafOf s.me.ident.ctx (r.va s) = some e ∧
      s.frameExists e = true ∧ e.state = stLocal ∧
      ¬ (bellBase ≤ paLocal (e.pa + r.va s % e.size) ∧ paLocal (e.pa + r.va s % e.size) < bellBase + 2 ^ 16)
    does := fun s => s.tally e (r.va s) r.size
    parts := [.hbm]
    post := fun s t => ∀ a, memGet t.mem.hbm a =
      if paLocal (e.pa + r.va s % e.size) ≤ a ∧ a < paLocal (e.pa + r.va s % e.size) + r.size then
        byteOf (s.me.sreg r.r) (a - paLocal (e.pa + r.va s % e.size))
      else memGet s.mem.hbm a }

/-- R158, R341, R349: a store through a handle to a page whose frame another module holds, or to a replica: it is forwarded to that
module, or to the owner, which writes the bytes of the operand. -/
def remoteStoreClaim (r : LdSt) (e : PEntry) (x : Option Replica) : Claim :=
  { eng := .c, y := r.y, srcs := .s r.r :: r.srcs
    pre := fun s => r.base.getLsbD 4 = false ∧ (r.handle s).allows (r.va s) r.size ∧ (r.handle s).sealed = false ∧
      (r.handle s).wr = true ∧ s.genAt s.me.ident.ctx (r.va s) = none ∧ s.leafOf s.me.ident.ctx (r.va s) = some e ∧
      s.frameExists e = true ∧
      (x = none ∧ (e.state = stRemote ∧ e.hostf = false ∨ e.state = stLeasedIn ∨ e.state = stRevoking) ∨
       e.state = stDup ∧ x ≠ none ∧ s.pages.replicas.find? (fun p => p.ctx == s.me.ident.ctx && p.va == e.base (r.va s)) = x)
    does := fun s => s.tally e (r.va s) r.size
    parts := farParts
    post := fun s t => ∃ f ∈ t.links.fwds, f.core = some s.me.ident.core ∧ f.reg = none ∧ f.size = r.size ∧ f.pkt.kind = 3 ∧
      f.pkt.dmod = (e.farHome x (r.va s)).1 ∧
      f.pkt.addr = BitVec.ofNat 64 ((e.farHome x (r.va s)).2 - (e.farHome x (r.va s)).2 % 64) ∧
      f.pkt.mask = BitVec.ofNat 64 ((2 ^ r.size - 1) * 2 ^ ((e.farHome x (r.va s)).2 % 64)) ∧
      ∀ k, k < r.size → f.pkt.payload.getD ((e.farHome x (r.va s)).2 % 64 + k) 0 = byteOf (s.me.sreg r.r) k }

/-- R158, R341: a store through a handle to a page of host memory. -/
def hostStoreClaim (r : LdSt) (e : PEntry) : Claim :=
  { eng := .c, y := r.y, srcs := .s r.r :: r.srcs
    pre := fun s => r.base.getLsbD 4 = false ∧ (r.handle s).allows (r.va s) r.size ∧ (r.handle s).sealed = false ∧
      (r.handle s).wr = true ∧ s.genAt s.me.ident.ctx (r.va s) = none ∧ s.leafOf s.me.ident.ctx (r.va s) = some e ∧
      e.state = stRemote ∧ e.hostf = true
    does := fun s => s.tally e (r.va s) r.size
    parts := [.host]
    post := fun s t => ∀ a, memGet t.mem.host a =
      if e.pa + r.va s % e.size ≤ a ∧ a < e.pa + r.va s % e.size + r.size then
        byteOf (s.me.sreg r.r) (a - (e.pa + r.va s % e.size))
      else memGet s.mem.host a }

/-- R207: a store through a handle to a generator window without STRAP is dropped and counted. -/
def genStoreClaim (r : LdSt) (g : GenWin) : Claim :=
  { eng := .c, y := r.y, srcs := .s r.r :: r.srcs
    pre := fun s => r.base.getLsbD 4 = false ∧ (r.handle s).allows (r.va s) r.size ∧ (r.handle s).sealed = false ∧
      g.strap = false ∧ ∃ n, s.genAt s.me.ident.ctx (r.va s) = some (n, g)
    parts := [.contexts]
    post := fun s t => ∀ c, s.ctx s.me.ident.ctx = some c →
      (t.ctx s.me.ident.ctx).map (·.gendrop) = some (satAdd32 c.gendrop 1) }

/-- The word of an instruction that traps at an access through the bank's h15 (10_system R213). -/
def viaBank15 (s : State) (b : BitVec 5) : Bool := s.me.phase == .handler && b.setWidth 4 == (15 : BitVec 4)

/-- R157, R219: the first check that an access of `n` bytes fails, with its TRAPVA; base[14] is zero with H = 1 (R58). -/
def State.accessTrap (s : State) (h : BitVec 1) (b : BitVec 5) (off n : Nat) : Option (Nat × Nat) :=
  if h = 0 then
    let a := (s.me.sreg b).toNat + off
    if a % n ≠ 0 then some (causeAlign, a)
    else
      match s.spadAt a with
      | none => some (causeBounds, a)
      | some (core, x) => if s.me.isPending false core x n = true then some (causePending, a) else none
  else if b.getLsbD 4 = true then some (causeReserved, 0)
  else
    let hd := s.me.hreg (b.setWidth 4)
    let va := hd.va.toNat + off
    if hd.valid = false then some (causeHandleStale, va)
    else if va % n ≠ 0 then some (causeAlign, va)
    else if hd.pageEnd < va + n then some (causeBounds, va)
    else none

/-- R158, R207: the first check that a store through a handle fails. -/
def State.storeTrap (s : State) (hd : Handle) (va : Nat) : Option (Nat × Nat) :=
  if hd.sealed = true then some (causeSealStore, va)
  else
    match s.genAt s.me.ident.ctx va with
    | some (_, g) => if g.strap = true then some (causeGenStore, va) else none
    | none => if hd.wr = false then some (causePriv, va) else none

/-- R2, R155, R341: the trap of an access to the page behind a handle: its page is not mapped any more, or its frame lies in a stack that
CAPS0 reports absent (log entry 13). -/
def State.pageTrap (s : State) (hd : Handle) (va : Nat) : Option (Nat × Nat) :=
  match s.leafOf s.me.ident.ctx va with
  | none => some (causeHandleStale, hd.va.toNat)
  | some e => if s.frameExists e = false then some (causeAbsent, 0) else none

/-- R172: the first check that an atomic fails behind those of R157. -/
def State.atomicTrap (s : State) (h : BitVec 1) (b : BitVec 5) (off scope : Nat) : Option (Nat × Nat) :=
  if h = 0 then
    let a := (s.me.sreg b).toNat
    match s.spadAt a with
    | none => none
    | some (core, _) => if core ≠ s.me.ident.core ∧ scope = 0 then some (causeBounds, a) else none
  else
    let hd := s.me.hreg (b.setWidth 4)
    let va := hd.va.toNat + off
    if hd.sealed = true then some (causeSealStore, va)
    else if hd.kind = 3 then some (causeGenStore, va)
    else if hd.wr = false then some (causePriv, va)
    else if scope < (if hd.kind = 0 ∨ hd.kind = 2 then 2 else 3) then some (causeBounds, va)
    else none

/-! ## Atomics -/

/-- The operands of a value-returning atomic (R156, R173): delay count, register group, base field, H, signed, bits, scope, the
predicate of AFADDB, the value written from the old value, v and u, and the registers read. -/
structure AtomicForm where
  y : BitVec 2
  t : BitVec 5
  base : BitVec 5
  h : BitVec 1
  w : BitVec 2
  scope : BitVec 3
  pred : Option (BitVec 3)
  unsignedOnly : Bool
  second : Bool
  new : Nat → Nat → Nat → Nat

/-- R173: the bits of the type. -/
def AtomicForm.bits (r : AtomicForm) : Nat := if r.w.toNat < 2 then 32 else 64

/-- R173: a value read as the type. -/
def readAs (w : BitVec 2) (v : Nat) : Int :=
  let n := if w.toNat < 2 then 32 else 64
  if w.toNat % 2 = 0 then (BitVec.ofNat n v).toInt else v

/-- R43: the nearest value of the type, as its bits. -/
def saturated (w : BitVec 2) (z : Int) : Nat :=
  let n : Nat := if w.toNat < 2 then 32 else 64
  let lo : Int := if w.toNat % 2 = 0 then -(2 ^ (n - 1) : Int) else 0
  let hi : Int := if w.toNat % 2 = 0 then 2 ^ (n - 1) - 1 else 2 ^ n - 1
  (BitVec.ofInt n (max lo (min hi z))).toNat

/-- R173: the value that each atomic writes. -/
def atomicRow : Instr → Option AtomicForm
  | .aadd y t b h w k q => some ⟨y, t, b, h, w, k, none, false, false, fun old v _ =>
      if q = 1 then saturated w (readAs w old + readAs w v) else (old + v) % 2 ^ (if w.toNat < 2 then 32 else 64)⟩
  | .axchg y t b h w k => some ⟨y, t, b, h, w, k, none, false, false, fun _ v _ => v⟩
  | .acas y t b h w k => some ⟨y, t, b, h, w, k, none, false, true, fun old v u => if old = v then u else old⟩
  | .amin y t b h w k => some ⟨y, t, b, h, w, k, none, false, false, fun old v _ => if readAs w old ≤ readAs w v then old else v⟩
  | .amax y t b h w k => some ⟨y, t, b, h, w, k, none, false, false, fun old v _ => if readAs w v ≤ readAs w old then old else v⟩
  | .aand y t b h w k => some ⟨y, t, b, h, w, k, none, false, false, fun old v _ => old &&& v⟩
  | .aor y t b h w k => some ⟨y, t, b, h, w, k, none, false, false, fun old v _ => old ||| v⟩
  | .axor y t b h w k => some ⟨y, t, b, h, w, k, none, false, false, fun old v _ => old ^^^ v⟩
  | .aincw y t b h w k => some ⟨y, t, b, h, w, k, none, true, false, fun old v _ => if v ≤ old then 0 else old + 1⟩
  | .afaddb y t b h w k p => some ⟨y, t, b, h, w, k, some p, true, true, fun old v u => if old + v ≤ u then old + v else old⟩
  | _ => none

/-- R156: the registers that an atomic reads. -/
def AtomicForm.srcs (r : AtomicForm) : List Reg :=
  .s r.t :: (if r.second then [.s (r.t + 1)] else []) ++ (if r.h = 1 then [.s (r.t + 2)] else []) ++
    (if r.h = 1 then [.h (r.base.setWidth 4)] else [.s r.base])

/-- R172, R173: the operands of an atomic are assigned: a scope code, a type that the form has, a register group in s0 to s31. -/
def AtomicForm.assigned (r : AtomicForm) : Prop :=
  r.scope.toNat < 5 ∧ ¬ (r.w.toNat % 2 = 0 ∧ r.unsignedOnly = true) ∧ r.t.toNat < 30

/-- R160, R173: the old value goes to s[t] when the access returns, and for AFADDB whether it added to its predicate. -/
def AtomicForm.Lands (r : AtomicForm) (a t : State) (old : BitVec 64) (added : Bool) (lat : Nat) : Prop :=
  let kept := (a.eng .c).flight.filter fun o => !(o.reg == .s r.t && o.late)
  ∃ f : InFlight, f.reg = .s r.t ∧ f.val = .word old ∧ f.land = (a.eng .c).clk + r.y.toNat + lat ∧ f.late = true ∧ f.arrived = false ∧
    match r.pred with
    | none => (t.eng .c).flight = kept ++ [f]
    | some p => ∃ g : InFlight, g.reg = .p p ∧ g.val = .bit added ∧ g.land = f.land ∧ g.late = true ∧ g.arrived = false ∧
        (t.eng .c).flight = (kept.filter fun o => !(o.reg == .p p && o.late)) ++ [f, g]

/-- R173: v and u. -/
def AtomicForm.v (r : AtomicForm) (s : State) : Nat := (s.me.sreg r.t).toNat % 2 ^ r.bits
def AtomicForm.u (r : AtomicForm) (s : State) : Nat := (s.me.sreg (r.t + 1)).toNat % 2 ^ r.bits

/-- R173: the value written over `old`. -/
def AtomicForm.next (r : AtomicForm) (s : State) (old : Nat) : Nat := r.new old (r.v s) (r.u s)

/-- R172, R173: an atomic on a scratchpad outside Nivose mode: the new value is stored, no other byte changes, and s[t] gets the
old value. A core whose group has taken a fatal fault keeps its bytes (10_system R209). -/
def spadAtomicClaim (r : AtomicForm) (core x old : Nat) : Claim :=
  let writes (s : State) : Bool := (s.groupOn core).any (fun g => g.phase != .frozen)
  { eng := .c, y := r.y, srcs := r.srcs
    pre := fun s => r.h = 0 ∧ r.assigned ∧ s.me.nivose = false ∧ s.spadOk (s.me.sreg r.base).toNat (r.bits / 8) core x ∧
      (s.groupOn core).isSome = true ∧ (core = s.me.ident.core ∨ 1 ≤ r.scope.toNat) ∧ s.roomForResult ∧
      s.spadNum core x (r.bits / 8) = old
    parts := [.spad, .groups]
    result := .other
    post := fun s t =>
      r.Lands s t (widened (r.w.toNat % 2 == 0) r.bits old) (writes s && decide (old + r.v s ≤ r.u s))
        (if core = s.me.ident.core then 12 else 48) ∧
      ∀ k a, (s.groupOn k).isSome = true → t.spadByte k a =
        if k = core ∧ x ≤ a ∧ a < x + r.bits / 8 ∧ writes s = true then byteOf (BitVec.ofNat 64 (r.next s old)) (a - x)
        else s.spadByte k a }

/-- R175: the party of a group's atomics: its launch, and its cluster unless the kernel is RESIDENT. -/
def State.atomicParty (s : State) : Option Nat :=
  if ((s.launch s.me.ident.launch).map (·.kd.resident)).getD false = true then none else some s.me.ident.cluster

/-- R176: no atomic of another party that is not resolved meets `n` bytes at a place, in a kernel without RESIDENT. -/
def State.alone (s : State) (p : AtPlace) (n : Nat) : Prop :=
  s.atomicParty = none ∨ ∀ b ∈ s.intervalAtomics, p.overlaps n b.place (b.bits / 8) = true →
    b.launch = s.me.ident.launch ∧ b.cluster = s.atomicParty

/-- R175: the atomic waits at its home for its interval to close. -/
def AtomicForm.Deferred (r : AtomicForm) (s t : State) (p : AtPlace) : Prop :=
  t.mem.closing = s.mem.closing ∧
  ∃ a : PendAtomic, t.mem.atomics = s.mem.atomics ++ [a] ∧ a.place = p ∧ a.interval = s.me.work.closed ∧
    a.launch = s.me.ident.launch ∧ a.cluster = s.atomicParty ∧ a.core = s.me.ident.core ∧ a.index = s.me.ident.index ∧
    a.bits = r.bits ∧ a.signed = (r.w.toNat % 2 == 0) ∧ a.v = (s.me.sreg r.t).toNat % 2 ^ r.bits ∧
    a.u = (s.me.sreg (r.t + 1)).toNat % 2 ^ r.bits

/-- R172, R175: in Nivose mode the atomic waits at its home for its interval to close; so does what it returns. -/
def spadIntervalClaim (r : AtomicForm) (core x : Nat) : Claim :=
  { eng := .c, y := r.y, srcs := r.srcs
    pre := fun s => r.h = 0 ∧ r.assigned ∧ s.me.nivose = true ∧ s.spadOk (s.me.sreg r.base).toNat (r.bits / 8) core x ∧
      (s.groupOn core).any (fun g => g.phase != .frozen) = true ∧ (core = s.me.ident.core ∨ 1 ≤ r.scope.toNat) ∧ s.roomForResult ∧
      s.alone (.spad core x) (r.bits / 8)
    does := fun s => s.newTag.2
    parts := [.atomics]
    result := .other
    post := fun s t => r.Lands s t 0 false (if core = s.me.ident.core then 12 else 48) ∧ r.Deferred s t (.spad core x) }

/-- The virtual address of an atomic with H = 1 (R155, R156). -/
def AtomicForm.va (r : AtomicForm) (s : State) : Nat := (s.me.hreg (r.base.setWidth 4)).va.toNat + (s.me.sreg (r.t + 2)).toNat

/-- R160: the assumed latency of an atomic through a handle by its KIND. -/
def atomicLatency (k : BitVec 3) : Nat :=
  match k.toNat with
  | 0 => 320
  | 3 => 320
  | 2 => 1220
  | _ => 2020

/-- R155, R157, R172: an atomic through a handle is allowed; a handle to memory of this module or its host needs scope 2. -/
def State.atomicAllowed (s : State) (r : AtomicForm) : Prop :=
  let hd := s.me.hreg (r.base.setWidth 4)
  r.h = 1 ∧ r.base.getLsbD 4 = false ∧ r.assigned ∧ hd.allows (r.va s) (r.bits / 8) ∧ hd.sealed = false ∧ hd.wr = true ∧ hd.kind ≠ 3 ∧
    (if hd.kind = 0 ∨ hd.kind = 2 then 2 else 3) ≤ r.scope.toNat ∧ s.roomForResult

/-- R172, R173, R341: outside Nivose mode, an atomic on a LOCAL page of this module. -/
def pageAtomicClaim (r : AtomicForm) (e : PEntry) (old : Nat) : Claim :=
  let mid (s : State) : State := s.tally e (r.va s) (r.bits / 8)
  let la (s : State) : Nat := paLocal (e.pa + r.va s % e.size)
  { eng := .c, y := r.y, srcs := r.srcs
    pre := fun s => s.atomicAllowed r ∧ s.me.nivose = false ∧ s.leafOf s.me.ident.ctx (r.va s) = some e ∧ s.frameExists e = true ∧
      e.state = stLocal ∧ s.readable e = true ∧
      s.pages.replicas.find? (fun x => x.ctx == s.me.ident.ctx && x.va == e.base (r.va s)) = none ∧
      ¬ (bellBase ≤ la s ∧ la s < bellBase + 2 ^ 16) ∧ (mid s).leafOf s.me.ident.ctx (r.va s) = some e ∧
      leVal ((mid s).readPage s.me.ident.ctx (r.va s) e (r.bits / 8)) = old
    does := mid
    parts := [.hbm]
    result := .other
    post := fun s t =>
      r.Lands s t (widened (r.w.toNat % 2 == 0) r.bits old) (decide (old + r.v s ≤ r.u s))
        (atomicLatency (s.me.hreg (r.base.setWidth 4)).kind) ∧
      ∀ a, memGet t.mem.hbm a =
        if la s ≤ a ∧ a < la s + r.bits / 8 then byteOf (BitVec.ofNat 64 (r.next s old)) (a - la s) else memGet s.mem.hbm a }

/-- R172, R175: in Nivose mode an atomic through a handle waits for its interval to close, wherever its home is (log entry 20). -/
def pageIntervalClaim (r : AtomicForm) (e : PEntry) : Claim :=
  let place (s : State) : AtPlace := .page s.me.ident.ctx (r.va s) (e.pa + r.va s % e.size) e.hostf
  { eng := .c, y := r.y, srcs := r.srcs
    pre := fun s => s.atomicAllowed r ∧ s.me.nivose = true ∧ s.leafOf s.me.ident.ctx (r.va s) = some e ∧ s.frameExists e = true ∧
      s.alone (place s) (r.bits / 8)
    does := fun s => (s.tally e (r.va s) (r.bits / 8)).newTag.2
    parts := [.atomics]
    result := .other
    post := fun s t => r.Lands s t 0 false (atomicLatency (s.me.hreg (r.base.setWidth 4)).kind) ∧ r.Deferred s t (place s) }

/-- R172, R323, R326: an atomic on a page whose frame another module holds goes to it, and one on a replica to the owner. -/
def remoteAtomicClaim (r : AtomicForm) (e : PEntry) (x : Option Replica) : Claim :=
  { eng := .c, y := r.y, srcs := r.srcs
    pre := fun s => s.atomicAllowed r ∧ s.me.nivose = false ∧ s.leafOf s.me.ident.ctx (r.va s) = some e ∧ s.frameExists e = true ∧
      ¬ (e.state = stMigrating ∧ s.readable e = false) ∧
      s.pages.replicas.find? (fun x => x.ctx == s.me.ident.ctx && x.va == e.base (r.va s)) = x ∧ (x = none → s.readable e = false)
    does := fun s => s.tally e (r.va s) (r.bits / 8)
    parts := farParts
    result := .other
    post := fun s t => r.Lands s t 0 false (atomicLatency (s.me.hreg (r.base.setWidth 4)).kind) ∧
      ∃ f ∈ t.links.fwds, f.core = some s.me.ident.core ∧ f.reg = some (.s r.t) ∧ f.size = r.bits / 8 ∧ f.pkt.kind = 4 ∧
        f.pkt.dmod = (e.farHome x (r.va s)).1 ∧ f.pkt.addr = BitVec.ofNat 64 (e.farHome x (r.va s)).2 ∧
        f.pkt.payload = leBytes 8 (s.me.sreg r.t).toNat ++ leBytes 8 (s.me.sreg (r.t + 1)).toNat }

end Sys2Proof.Machine
end

