-- ==== Sys2Proof/Claims/Vector.lean ====
section
/-! DEFINITION. What the manual gives for the instructions of V (06_vector R97 to R118): the operand b of a two-opcode instruction,
the types that each instruction accepts, its latency and its result. -/

namespace Sys2Proof.Machine

/-! ## The operand b -/

/-- R61, R99, R100: the vector that operand b offers: a register, the head of a stream that V may read, or a queue's oldest entry
in every element, once what it covers is performed (R241). -/
def State.offered (s : State) (zq : Bool) (b : BitVec 5) (wide : Bool) : Option VReg :=
  if zq = false then some (s.me.vreg b)
  else if b.getLsbD 4 = true then
    match (s.me.queue (b.setWidth 4)).bind, (s.me.queue (b.setWidth 4)).entries with
    | some (_, .v), w :: _ =>
      if s.allDone ((s.me.queue (b.setWidth 4)).covers.headD []) = true then some (queueVec wide w) else none
    | _, _ => none
  else
    let z := s.me.stream (b.setWidth 4)
    if z.st = .running ∧ z.pat.drained = false ∧ (z.owner = none ∨ z.owner = some .v) then z.buf.head? else none

/-- The part of the machine that taking operand b changes. -/
def operandPart (zq : Bool) (b : BitVec 5) : List Aspect :=
  if zq = false then [] else if b.getLsbD 4 = true then [.queue (b.setWidth 4)] else [.stream (b.setWidth 4)]

/-- R92, R100, R122: what taking operand b leaves: a queue or stream without its oldest; V owns the stream, and the last vector of a
pattern makes it DONE. -/
def State.Took (a t : State) (zq : Bool) (b : BitVec 5) : Prop :=
  if zq = false then True
  else if b.getLsbD 4 = true then
    a.Popped t (b.setWidth 4)
  else
    let z := a.me.stream (b.setWidth 4)
    t.me.stream (b.setWidth 4) = { z with
      buf := z.buf.tail, taken := z.taken + 1, owner := some .v
      st := if z.pat.direct = false ∧ z.vectors ≤ z.taken + 1 then .done else .running }

/-- R100: operand b makes V wait: an unbound or empty queue or one whose entry covers accesses still to be performed, an unbound stream, or one of V's input streams that is empty. -/
def State.mustWaitFor (s : State) (b : BitVec 5) : Prop :=
  if b.getLsbD 4 = true then
    (s.me.queue (b.setWidth 4)).bind = none ∨
      (∃ p, (s.me.queue (b.setWidth 4)).bind = some (p, .v)) ∧
        ((s.me.queue (b.setWidth 4)).entries = [] ∨ s.allDone ((s.me.queue (b.setWidth 4)).covers.headD []) = false)
  else
    let z := s.me.stream (b.setWidth 4)
    z.st = .unbound ∨ z.pat.drained = false ∧ (z.owner = none ∨ z.owner = some .v) ∧
      (z.st = .bound ∨ z.st = .running ∧ z.buf = [])

/-- R92, R100: operand b is no operand for V: V is not the queue's consumer, or the stream is drained or M's. -/
def State.notForV (s : State) (b : BitVec 5) : Prop :=
  if b.getLsbD 4 = true then ∃ p k, (s.me.queue (b.setWidth 4)).bind = some (p, k) ∧ k ≠ .v
  else
    let z := s.me.stream (b.setWidth 4)
    z.st ≠ .unbound ∧ (z.pat.drained = true ∨ ∃ e, z.owner = some e ∧ e ≠ .v)

/-! ## Rows -/

/-- An instruction of V with a destination register and operand b: whether it is the odd opcode, whether its elements have 64 bits,
the registers it reads besides b, the trap cause where the type or a field is not accepted, its destination, its latency, and its
value from the state and operand b. -/
structure VRow where
  y : BitVec 2
  zq : Bool
  b : BitVec 5
  wide : Bool := false
  srcs : List Reg := []
  bad : Option Nat := none
  dest : Reg
  lat : Nat
  val : State → VReg → Val

/-- The registers that the instruction reads. -/
def VRow.reads (r : VRow) : List Reg := r.srcs ++ (if r.zq = true then [] else [.v r.b])

/-- The claim of a row. -/
def VRow.claim (r : VRow) : Claim :=
  { eng := .v, y := r.y, srcs := r.reads, parts := operandPart r.zq r.b
    pre := fun s => s.offered r.zq r.b r.wide ≠ none
    result := .fixed r.dest (fun s => (s.offered r.zq r.b r.wide).elim (.vec (s.me.vreg 0)) (r.val s)) r.lat
    post := fun s t => s.Took t r.zq r.b }

/-- A row whose value is a vector. -/
def vecRow (zq : Bool) (y : BitVec 2) (d b : BitVec 5) (wide : Bool) (srcs : List Reg) (bad : Option Nat) (lat : Nat)
    (f : State → VReg → VReg) : VRow :=
  { y := y, zq := zq, b := b, wide := wide, srcs := srcs, bad := bad, dest := .v d, lat := lat, val := fun s v => .vec (f s v) }

/-- The 32-bit lanes of a vector without an exponent. -/
def lanes (f : Nat → BitVec 32) : VReg := ⟨mkLanes f, 0⟩

/-! ## Arithmetic -/

/-- R104: an integer result wraps to the width, or saturates to the range of the type. -/
def intResult (sg : Bool) (w : Nat) (sat : Bool) (z : Int) : Nat :=
  wrapInt w (if sat = true then clampInt sg w z else z)

/-- R103: the types of VADD: integers, .f32, .f64. -/
def addType (t : BitVec 4) : Bool := t.toNat < 8 || t.toNat == 10 || t.toNat == 11

/-- R104: a floating-point type with the saturating bit. -/
def satFloat (t : BitVec 4) (x : BitVec 1) : Bool := x == 1 && 8 ≤ t.toNat && t.toNat ≤ 13

/-- R99, R104: the trap of an arithmetic type. -/
def arithBad (ok : Bool) (t : BitVec 4) (x : BitVec 1) : Option Nat :=
  if satFloat t x = true then some causeReserved else if ok = true then none else some causeIllegal

/-- Whether a type's elements have 64 bits. -/
def wideType (t : BitVec 4) : Bool := t.toNat == 3 || t.toNat == 7 || t.toNat == 11

/-- R102: 3 cy, 5 cy for 64-bit types. -/
def addLat (t : BitVec 4) : Nat := if wideType t = true then 5 else 3

/-- Element by element: an integer result from the operands' values, or a floating-point one from their encodings. -/
def byElement (t : BitVec 4) (x : BitVec 1) (fi : Int → Int → Int) (ff : Fmt → Nat → Nat → Nat) (u v : VReg) : VReg :=
  match tyOfCode t.toNat with
  | some (.int sg w) => mkElems (.int sg w) (fun k =>
      intResult sg w (x == 1) (fi (intVal sg w (u.elem w k)) (intVal sg w (v.elem w k)))) 0
  | some (.flt f) => mkElems (.flt f) (fun k => ff f (u.elem f.width k) (v.elem f.width k)) 0
  | _ => v

/-- A row of R103 with two sources. -/
def arithRow (zq : Bool) (y : BitVec 2) (d a b : BitVec 5) (t : BitVec 4) (x : BitVec 1) (fi : Int → Int → Int)
    (ff : Fmt → Nat → Nat → Nat) : VRow :=
  vecRow zq y d b (wideType t) [.v a] (arithBad (addType t) t x) (addLat t) fun s v => byElement t x fi ff (s.me.vreg a) v

/-- A row of R103 with one source. -/
def unaryRow (zq : Bool) (y : BitVec 2) (d b : BitVec 5) (t : BitVec 4) (x : BitVec 1) (fi : Int → Int) (ff : Fmt → Nat → Nat) :
    VRow :=
  vecRow zq y d b (wideType t) [] (arithBad (addType t) t x) (addLat t) fun _ v =>
    byElement t x (fun z _ => fi z) (fun f n _ => ff f n) v v

/-- VFMA: the types of 32 and 64 bits; one rounding, and integers wrap. -/
def fmaRow (zq : Bool) (y : BitVec 2) (d a b : BitVec 5) (t : BitVec 4) : VRow :=
  vecRow zq y d b (wideType t) [.v a, .v d] (if t.toNat ∈ [2, 3, 6, 7, 10, 11] then none else some causeIllegal)
    (if wideType t = true then 7 else 5) fun s v =>
    match tyOfCode t.toNat with
    | some (.int sg w) => mkElems (.int sg w) (fun k =>
        intResult sg w false (intVal sg w ((s.me.vreg a).elem w k) * intVal sg w (v.elem w k) +
          intVal sg w ((s.me.vreg d).elem w k))) 0
    | some (.flt f) => mkElems (.flt f) (fun k =>
        fFma f .rne ((s.me.vreg a).elem f.width k) (v.elem f.width k) ((s.me.vreg d).elem f.width k)) 0
    | _ => v

/-- A bitwise row, over the 32 bits of every lane. -/
def laneRow (zq : Bool) (y : BitVec 2) (d a b : BitVec 5) (f : BitVec 32 → BitVec 32 → BitVec 32) : VRow :=
  vecRow zq y d b false [.v a] none 2 fun s v => lanes fun i => f ((s.me.vreg a).lane i) (v.lane i)

/-- A shift row: the integer types; the count is b modulo the width. -/
def shiftRow (zq : Bool) (y : BitVec 2) (d a b : BitVec 5) (t : BitVec 4) (f : Nat → Nat → Nat → Int) : VRow :=
  vecRow zq y d b (wideType t) [.v a] (if t.toNat < 8 then none else some causeIllegal) 2 fun s v =>
    let ty := (tyOfCode t.toNat).getD .bx
    mkElems ty (fun k => wrapInt ty.bits (f ty.bits ((s.me.vreg a).elem ty.bits k) (v.elem ty.bits k % ty.bits))) 0

/-- A counting row: the .n types. -/
def countRow (zq : Bool) (y : BitVec 2) (d b : BitVec 5) (t : BitVec 4) (f : Nat → Nat → Nat) : VRow :=
  vecRow zq y d b (wideType t) [] (if 4 ≤ t.toNat ∧ t.toNat < 8 then none else some causeIllegal) 2 fun _ v =>
    let ty := (tyOfCode t.toNat).getD .bx
    mkElems ty (fun k => f ty.bits (v.elem ty.bits k)) 0

/-- The leading zero bits of a `w`-bit number. -/
def zerosAbove (w n : Nat) : Nat := ((List.range w).takeWhile fun i => !n.testBit (w - 1 - i)).length

/-- The one bits of a `w`-bit number. -/
def onesOf (w n : Nat) : Nat := (List.range w).countP fun i => n.testBit i

/-! ## Compares and masks -/

/-- R60, R106: a condition of two elements. Floating-point types have the first four conditions, by value. -/
def elemTrue (c : Nat) (t : BitVec 4) (m n : Nat) : Bool :=
  match tyOfCode t.toNat with
  | some (.flt f) => ((condOf c).getD .eq).holdsFp (fpDecode f m) (fpDecode f n)
  | some (.int _ w) =>
    match c with
    | 0 => decide (m % 2 ^ w = n % 2 ^ w)
    | 1 => decide (m % 2 ^ w ≠ n % 2 ^ w)
    | 2 => decide (sextNat w m < sextNat w n)
    | 3 => decide (sextNat w m ≤ sextNat w n)
    | 4 => decide (m % 2 ^ w < n % 2 ^ w)
    | _ => decide (m % 2 ^ w ≤ n % 2 ^ w)
  | _ => false

/-- VCMP.cc: bit i tells the condition of the element of lane i. -/
def cmpRow (c : Nat) (zq : Bool) (y : BitVec 2) (d : BitVec 3) (a b : BitVec 5) (t : BitVec 4) : VRow :=
  { y := y, zq := zq, b := b, wide := wideType t, srcs := [.v a], dest := .m d, lat := 2
    bad := if addType t = true ∧ ¬ (8 ≤ t.toNat ∧ 4 ≤ c) then none else some causeIllegal
    val := fun s v =>
      let w := ((tyOfCode t.toNat).getD .bx).bits
      .mask (mkMask fun i =>
        let k := if w = 64 then i / 2 else i
        elemTrue c t ((s.me.vreg a).elem w k) (v.elem w k)) }

/-- A claim about an instruction of V without an operand b. -/
def vPlain (y : BitVec 2) (srcs : List Reg) (r : Reg) (v : State → Val) (lat : Nat) : Claim :=
  { eng := .v, y := y, srcs := srcs, result := .fixed r v lat }

/-- R107, R110: the mask instructions, VLI, and NOP. -/
def maskRow : Instr → Option Claim
  | .mand y d a b => some (vPlain y [.m a, .m b] (.m d) (fun s => .mask (s.me.mreg a &&& s.me.mreg b)) 1)
  | .mor y d a b => some (vPlain y [.m a, .m b] (.m d) (fun s => .mask (s.me.mreg a ||| s.me.mreg b)) 1)
  | .mxor y d a b => some (vPlain y [.m a, .m b] (.m d) (fun s => .mask (s.me.mreg a ^^^ s.me.mreg b)) 1)
  | .mnot y d b => some (vPlain y [.m b] (.m d) (fun s => .mask (~~~ s.me.mreg b)) 1)
  | .mpopc y d b => some (vPlain y [.m b] (.v d) (fun s => .vec (lanes fun _ =>
      BitVec.ofNat 32 ((List.range 128).countP fun i => (s.me.mreg b).getLsbD i))) 2)
  | .mfirst y d b => some (vPlain y [.m b] (.v d) (fun s => .vec (lanes fun _ =>
      BitVec.ofNat 32 ((List.range 128).takeWhile fun i => !(s.me.mreg b).getLsbD i).length)) 2)
  | .vli y d k => some (vPlain y [.v d] (.v d) (fun s => .vec
      ⟨mkLanes fun i => BitVec.ofNat 32 (((s.me.vreg d).lane i).toNat * 2 ^ 15 + k.toNat), (s.me.vreg d).exp⟩) 2)
  | .nopV y => some { eng := .v, y := y }
  | _ => none

/-! ## Conversions, bit fields, lane movement -/

/-- R108: the traps of VCVT. -/
def cvtBad (st dt : BitVec 4) (rm : Nat) : Option Nat :=
  if st.toNat = 15 ∨ dt.toNat = 15 ∨ st = dt ∨ (st.toNat = 14 ∧ wideType dt = true) ∨ (dt.toNat = 14 ∧ wideType st = true) ∨
      (rm ≠ 0 ∧ st.toNat < 8 ∧ dt.toNat < 8) then some causeIllegal
  else none

/-- R108: VCVT by the kinds of its types. Source elements beyond the vector read as zero. -/
def cvtVal (st dt : BitVec 4) (rm : Rm) (v : VReg) : VReg :=
  let a := (tyOfCode st.toNat).getD .bx
  let b := (tyOfCode dt.toNat).getD .bx
  let there (k : Nat) : Prop := ¬ (a.bits = 64 ∧ 64 ≤ k)
  have (k : Nat) : Decidable (there k) := inferInstanceAs (Decidable (¬ _))
  match a, b with
  | .bx, .flt g => mkElems b (fun k => fpRound g rm (bxLane v.toBx k)) 0
  | .bx, .int sg w => mkElems b (fun k => wrapInt w (fpToInt rm sg w (bxLane v.toBx k))) 0
  | .flt f, .bx => (bxEncode ((List.range 128).map fun k => fpDecode f (v.elem f.width k))).toVReg
  | .int sg w, .bx => (bxEncode ((List.range 128).map fun k => (⟨intVal sg w (v.elem w k), 0⟩ : Dy).toFp false)).toVReg
  | .flt f, .flt g => mkElems b (fun k => if there k then fpRound g rm (fpDecode f (v.elem f.width k)) else 0) 0
  | .flt f, .int sg w => mkElems b (fun k => if there k then wrapInt w (fpToInt rm sg w (fpDecode f (v.elem f.width k))) else 0) 0
  | .int sg w, .flt g => mkElems b (fun k =>
      if there k then fpRound g rm ((⟨intVal sg w (v.elem w k), 0⟩ : Dy).toFp false) else 0) 0
  | .int sg w, .int sh x => mkElems b (fun k =>
      if there k then wrapInt x (clampInt sh x (intVal sg w (v.elem w k))) else 0) 0
  | .bx, .bx => v

/-- R109: bit `i` of a lane of VINS. -/
def insertBit (old a : BitVec 32) (pos w i : Nat) : Bool :=
  if pos ≤ i ∧ i < pos + w then a.getLsbD (i - pos) else old.getLsbD i

/-- R109: pos and w. -/
def posOf (b : BitVec 32) : Nat := b.toNat % 32
def lenOf (b : BitVec 32) : Nat := b.toNat / 32 % 32 + 1

/-- A 32-bit lane from its bits. -/
def ofBits32 (f : Nat → Bool) : BitVec 32 := BitVec.ofFnLE fun i : Fin 32 => f i.val

/-! ## The table -/

/-- R111: VRED and VSCAN: the profiles and types that they accept. -/
def redBad (s : State) (p t : BitVec 4) (isMax : Bool) : Option Nat :=
  if t.toNat ∈ [2, 3, 6, 7, 10, 11] ∧ (p = 3 ∨ p = 4 ∨ (p = 0 ∧ s.me.nivose = false)) ∧
      ¬ (p = 4 ∧ isMax = false ∧ t.toNat = 11) then none
  else some causeIllegal

/-- R102 to R118: the rows with one destination of fixed latency, but for VRED, VSCAN and the split. -/
def vectorRow : Instr → Option VRow
  | .vadd y d a b t x => some (arithRow false y d a b t x (· + ·) (fun f => fAdd f .rne))
  | .vaddZq y d a b t x => some (arithRow true y d a b t x (· + ·) (fun f => fAdd f .rne))
  | .vsub y d a b t x => some (arithRow false y d a b t x (· - ·) (fun f => fSub f .rne))
  | .vsubZq y d a b t x => some (arithRow true y d a b t x (· - ·) (fun f => fSub f .rne))
  | .vmul y d a b t x => some (arithRow false y d a b t x (· * ·) (fun f => fMul f .rne))
  | .vmulZq y d a b t x => some (arithRow true y d a b t x (· * ·) (fun f => fMul f .rne))
  | .vfma y d a b t => some (fmaRow false y d a b t)
  | .vfmaZq y d a b t => some (fmaRow true y d a b t)
  | .vmin y d a b t => some (arithRow false y d a b t 0 min fMin)
  | .vminZq y d a b t => some (arithRow true y d a b t 0 min fMin)
  | .vmax y d a b t => some (arithRow false y d a b t 0 max fMax)
  | .vmaxZq y d a b t => some (arithRow true y d a b t 0 max fMax)
  | .vabs y d b t x => some (unaryRow false y d b t x (fun z => max z (-z)) fAbs)
  | .vabsZq y d b t x => some (unaryRow true y d b t x (fun z => max z (-z)) fAbs)
  | .vneg y d b t x => some (unaryRow false y d b t x (fun z => -z) fNeg)
  | .vnegZq y d b t x => some (unaryRow true y d b t x (fun z => -z) fNeg)
  | .vand y d a b => some (laneRow false y d a b (· &&& ·))
  | .vandZq y d a b => some (laneRow true y d a b (· &&& ·))
  | .vor y d a b => some (laneRow false y d a b (· ||| ·))
  | .vorZq y d a b => some (laneRow true y d a b (· ||| ·))
  | .vxor y d a b => some (laneRow false y d a b (· ^^^ ·))
  | .vxorZq y d a b => some (laneRow true y d a b (· ^^^ ·))
  | .vnot y d b => some (vecRow false y d b false [] none 2 fun _ v => lanes fun i => ~~~ v.lane i)
  | .vnotZq y d b => some (vecRow true y d b false [] none 2 fun _ v => lanes fun i => ~~~ v.lane i)
  | .vshl y d a b t => some (shiftRow false y d a b t fun _ u n => (u * 2 ^ n : Nat))
  | .vshlZq y d a b t => some (shiftRow true y d a b t fun _ u n => (u * 2 ^ n : Nat))
  | .vshr y d a b t => some (shiftRow false y d a b t fun _ u n => (u / 2 ^ n : Nat))
  | .vshrZq y d a b t => some (shiftRow true y d a b t fun _ u n => (u / 2 ^ n : Nat))
  | .vsar y d a b t => some (shiftRow false y d a b t fun w u n => floorDiv (sextNat w u) (2 ^ n))
  | .vsarZq y d a b t => some (shiftRow true y d a b t fun w u n => floorDiv (sextNat w u) (2 ^ n))
  | .vclz y d b t => some (countRow false y d b t zerosAbove)
  | .vclzZq y d b t => some (countRow true y d b t zerosAbove)
  | .vpopc y d b t => some (countRow false y d b t onesOf)
  | .vpopcZq y d b t => some (countRow true y d b t onesOf)
  | .vcmpEq y d a b t => some (cmpRow 0 false y d a b t)
  | .vcmpEqZq y d a b t => some (cmpRow 0 true y d a b t)
  | .vcmpNe y d a b t => some (cmpRow 1 false y d a b t)
  | .vcmpNeZq y d a b t => some (cmpRow 1 true y d a b t)
  | .vcmpLt y d a b t => some (cmpRow 2 false y d a b t)
  | .vcmpLtZq y d a b t => some (cmpRow 2 true y d a b t)
  | .vcmpLe y d a b t => some (cmpRow 3 false y d a b t)
  | .vcmpLeZq y d a b t => some (cmpRow 3 true y d a b t)
  | .vcmpLtn y d a b t => some (cmpRow 4 false y d a b t)
  | .vcmpLtnZq y d a b t => some (cmpRow 4 true y d a b t)
  | .vcmpLen y d a b t => some (cmpRow 5 false y d a b t)
  | .vcmpLenZq y d a b t => some (cmpRow 5 true y d a b t)
  | .vsel y d a b m => some (selRow false y d a b m)
  | .vselZq y d a b m => some (selRow true y d a b m)
  | .vcvt y d h st b dt l => some (cvtRow false y d h st b dt l)
  | .vcvtZq y d h st b dt l => some (cvtRow true y d h st b dt l)
  | .vext y d a b x => some (extRow false y d a b x)
  | .vextZq y d a b x => some (extRow true y d a b x)
  | .vins y d a b => some (insRow false y d a b)
  | .vinsZq y d a b => some (insRow true y d a b)
  | .vfsh y d a b => some (fshRow false y d a b)
  | .vfshZq y d a b => some (fshRow true y d a b)
  | .vmov y d b => some (vecRow false y d b false [] none 2 fun _ v => v)
  | .vmovZq y d b => some (vecRow true y d b false [] none 2 fun _ v => v)
  | .vperm y d a b => some (permRow false y d a b)
  | .vpermZq y d a b => some (permRow true y d a b)
  | .vbcast y d a b => some (bcastRow y d a b)
  | .vbcastZq y d a b => some (if b.getLsbD 4 = true then
      vecRow true y d b false [] (if a = 0 then none else some causeReserved) 2 fun _ v => v
    else { bcastRow y d a b with zq := true })
  | .vlsh y d a b => some (lshRow false y d a b)
  | .vlshZq y d a b => some (lshRow true y d a b)
  | .vrcp y d b t => some (funcRow false y d b t f32Rcp)
  | .vrcpZq y d b t => some (funcRow true y d b t f32Rcp)
  | .vrsq y d b t => some (funcRow false y d b t f32Rsq)
  | .vrsqZq y d b t => some (funcRow true y d b t f32Rsq)
  | .vexp2 y d b t => some (funcRow false y d b t f32Exp2)
  | .vexp2Zq y d b t => some (funcRow true y d b t f32Exp2)
  | .vlog2 y d b t => some (funcRow false y d b t f32Log2)
  | .vlog2Zq y d b t => some (funcRow true y d b t f32Log2)
  | .vnorm y d b t => some (normRow false y d b t)
  | .vnormZq y d b t => some (normRow true y d b t)
  | _ => none
where
  selRow (zq : Bool) (y : BitVec 2) (d a b : BitVec 5) (m : BitVec 3) : VRow :=
    vecRow zq y d b false [.v a, .m m] none 2 fun s v =>
      ⟨mkLanes fun i => if (s.me.mreg m).getLsbD i = true then (s.me.vreg a).lane i else v.lane i, (s.me.vreg a).exp⟩
  cvtRow (zq : Bool) (y : BitVec 2) (d : BitVec 5) (h : BitVec 1) (st : BitVec 4) (b : BitVec 5) (dt : BitVec 4) (l : BitVec 1) : VRow :=
    vecRow zq y d b (wideType st) [] (cvtBad st dt (2 * h.toNat + l.toNat)) 6 fun _ v =>
      cvtVal st dt (rmOfCode (2 * h.toNat + l.toNat)) v
  extRow (zq : Bool) (y : BitVec 2) (d a b : BitVec 5) (x : BitVec 1) : VRow :=
    vecRow zq y d b false [.v a] none 2 fun s v => lanes fun i =>
      let f := ((s.me.vreg a).lane i).toNat / 2 ^ posOf (v.lane i) % 2 ^ lenOf (v.lane i)
      if x = 1 then BitVec.ofInt 32 (sextNat (lenOf (v.lane i)) f) else BitVec.ofNat 32 f
  insRow (zq : Bool) (y : BitVec 2) (d a b : BitVec 5) : VRow :=
    vecRow zq y d b false [.v a, .v d] none 2 fun s v => lanes fun i =>
      ofBits32 fun j => insertBit ((s.me.vreg d).lane i) ((s.me.vreg a).lane i) (posOf (v.lane i)) (lenOf (v.lane i)) j
  fshRow (zq : Bool) (y : BitVec 2) (d a b : BitVec 5) : VRow :=
    vecRow zq y d b false [.v a, .v d] none 2 fun s v => lanes fun i => BitVec.ofNat 32
      ((((s.me.vreg a).lane i).toNat * 2 ^ 32 + ((s.me.vreg d).lane i).toNat) / 2 ^ ((v.lane i).toNat % 32))
  permRow (zq : Bool) (y : BitVec 2) (d a b : BitVec 5) : VRow :=
    vecRow zq y d b false [.v a] none 2 fun s v =>
      ⟨mkLanes fun i => (s.me.vreg a).lane ((v.lane i).toNat % 128), (s.me.vreg a).exp⟩
  bcastRow (y : BitVec 2) (d a b : BitVec 5) : VRow :=
    vecRow false y d b false [.v a] none 2 fun s v => ⟨mkLanes fun _ => v.lane (((s.me.vreg a).lane 0).toNat % 128), v.exp⟩
  lshRow (zq : Bool) (y : BitVec 2) (d a b : BitVec 5) : VRow :=
    vecRow zq y d b false [.v a] none 2 fun s v =>
      ⟨mkLanes fun i => if 0 ≤ (i : Int) - (v.lane 0).toInt ∧ (i : Int) - (v.lane 0).toInt ≤ 127 then
          (s.me.vreg a).lane ((i : Int) - (v.lane 0).toInt).toNat
        else 0, (s.me.vreg a).exp⟩
  funcRow (zq : Bool) (y : BitVec 2) (d b : BitVec 5) (t : BitVec 4) (f : Nat → Nat) : VRow :=
    vecRow zq y d b false [] (if t.toNat = 10 then none else some causeIllegal) 8 fun _ v =>
      mkElems (.flt fmtF32) (fun k => f (v.elem 32 k)) 0
  normRow (zq : Bool) (y : BitVec 2) (d b : BitVec 5) (t : BitVec 4) : VRow :=
    vecRow zq y d b (wideType t) [] (if t.toNat ∈ [10, 11, 14] then none else some causeIllegal) 10 fun _ v =>
      match tyOfCode t.toNat with
      | some (.flt f) => mkElems (.flt f) (fun _ => fpNorm f ((List.range (elemCount f.width)).map fun k =>
          fpDecode f (v.elem f.width k))) 0
      | _ => (bxAgain v.toBx).toVReg

/-! ## Reductions -/

/-- VRED and VSCAN: whether it scans, and its fields. -/
structure RedForm where
  scan : Bool
  zq : Bool
  y : BitVec 2
  d : BitVec 5
  m : BitVec 1
  p : BitVec 4
  b : BitVec 5
  t : BitVec 4
  isMax : Bool

/-- The four words of R111. -/
def redForm : Instr → Option RedForm
  | .vred y d m p b t x => some ⟨false, false, y, d, m, p, b, t, x == 1⟩
  | .vredZq y d m p b t x => some ⟨false, true, y, d, m, p, b, t, x == 1⟩
  | .vscan y d m p b t x => some ⟨true, false, y, d, m, p, b, t, x == 1⟩
  | .vscanZq y d m p b t x => some ⟨true, true, y, d, m, p, b, t, x == 1⟩
  | _ => none

/-- R111: the elements that enter: those that mask m0 governs away enter as the identity. -/
def RedForm.elems (r : RedForm) (s : State) (v : VReg) : List Nat :=
  let ty := (tyOfCode r.t.toNat).getD .bx
  (List.range (elemCount ty.bits)).map fun k =>
    if r.m = 0 ∨ (s.me.mreg 0).getLsbD (if ty.bits = 64 then 2 * k else k) = true then v.elem ty.bits k else redId ty r.isMax

/-- R44, R111: a floating-point sum under profile 0 has a value that the manual leaves open. -/
def RedForm.isOpen (r : RedForm) : Prop := r.p = 0 ∧ r.isMax = false ∧ 8 ≤ r.t.toNat

/-- R45, R111: the value of the elements under the profile. -/
def RedForm.value (r : RedForm) (l : List Nat) : Nat := reduce ((tyOfCode r.t.toNat).getD .bx) r.p.toNat r.isMax 0 l

/-- R111: the vector that is written; VSCAN's element k reduces the elements up to k, the identity standing for the rest. -/
def RedForm.vec (r : RedForm) (s : State) (v : VReg) : VReg :=
  let ty := (tyOfCode r.t.toNat).getD .bx
  let l := r.elems s v
  mkElems ty (fun k => if r.scan = true then
      r.value (l.take (k + 1) ++ List.replicate (l.length - (k + 1)) (redId ty r.isMax)) else r.value l) 0

/-- VRED and VSCAN of a value that the manual fixes. -/
def RedForm.claim (r : RedForm) : Claim :=
  { eng := .v, y := r.y, srcs := (if r.m = 1 then [.m 0] else []) ++ (if r.zq = true then [] else [.v r.b])
    parts := (if r.p = 0 then [.free] else []) ++ operandPart r.zq r.b
    pre := fun s => s.offered r.zq r.b (wideType r.t) ≠ none ∧ redBad s r.p r.t r.isMax = none
    result := .fixed (.v r.d) (fun s => .vec (r.vec s ((s.offered r.zq r.b (wideType r.t)).getD (s.me.vreg 0))))
      (if r.p = 4 then 12 else 10)
    post := fun s t => s.Took t r.zq r.b }

/-- VRED and VSCAN of a floating-point sum under profile 0: as above, but for the value. -/
def RedForm.openClaim (r : RedForm) : Claim :=
  { r.claim with
    result := .other
    post := fun s t => s.Took t r.zq r.b ∧ ∃ (w : VReg) (n : Nat),
      (t.eng .v).flight = ((s.eng .v).flight.filter fun o => !(o.reg == .v r.d && o.late)) ++
        [fixedFlight (.v r.d) (.vec w) n] ∧ n = (s.eng .v).clk + r.y.toNat + 10 }

/-! ## Angles -/

/-- R114: VATAN; the exponent of a result from .bx operands is open. -/
def atanForm : Instr → Option (Bool × BitVec 2 × BitVec 5 × BitVec 5 × BitVec 5 × BitVec 4 × Nat)
  | .vatan y d a b t g => some (false, y, d, a, b, t, if g = 1 then 32 else 16)
  | .vatanZq y d a b t g => some (true, y, d, a, b, t, if g = 1 then 32 else 16)
  | _ => none

/-- R114: the value of a coordinate. -/
def coordinate (t : BitVec 4) (v : VReg) (k : Nat) : Fp :=
  match tyOfCode t.toNat with
  | some (.flt f) => fpDecode f (v.elem 32 k)
  | some (.int sg w) => (⟨intVal sg w (v.elem 32 k), 0⟩ : Dy).toFp false
  | _ => bxLane v.toBx k

/-- R114: VATAN of .f32 or .i32. -/
def atanRow (zq : Bool) (y : BitVec 2) (d a b : BitVec 5) (t : BitVec 4) (bits : Nat) : VRow :=
  vecRow zq y d b false [.v a] (if t.toNat ∈ [2, 10, 14] then none else some causeIllegal) 8 fun s v =>
    lanes fun i => BitVec.ofNat 32 (fpAtan bits (coordinate t (s.me.vreg a) i) (coordinate t v i))

/-- R114: VATAN of .bx: the lanes hold the codes. -/
def atanBxClaim (zq : Bool) (y : BitVec 2) (d a b : BitVec 5) (bits : Nat) : Claim :=
  { (atanRow zq y d a b 14 bits).claim with
    parts := .free :: operandPart zq b
    result := .other
    post := fun s t => s.Took t zq b ∧ ∃ x : BitVec 16, (t.eng .v).flight =
      ((s.eng .v).flight.filter fun o => !(o.reg == .v d && o.late)) ++
        [fixedFlight (.v d) (.vec ⟨mkLanes fun i => BitVec.ofNat 32 (fpAtan bits (coordinate 14 (s.me.vreg a) i)
          (coordinate 14 ((s.offered zq b false).getD (s.me.vreg 0)) i)), x⟩) ((s.eng .v).clk + y.toNat + 8)] }

/-- R115: VSINCOS. -/
def sincosForm : Instr → Option (Bool × BitVec 2 × BitVec 5 × BitVec 5 × BitVec 4 × BitVec 1)
  | .vsincos y d b t g => some (false, y, d, b, t, g)
  | .vsincosZq y d b t g => some (true, y, d, b, t, g)
  | _ => none

/-- R115: cosine (first) and sine of a lane: those of R30 for .i32, those of the exact functions, rounded once, for .f32. -/
def cosSin (t : BitVec 4) (bits : Nat) (c : BitVec 32) : BitVec 32 × BitVec 32 :=
  if t.toNat = 2 then (.ofInt 32 (angcs (c.toNat % 2 ^ 16)).1, .ofInt 32 (angcs (c.toNat % 2 ^ 16)).2)
  else (.ofNat 32 (cosSinF32 bits (c.toNat % 2 ^ bits)).1, .ofNat 32 (cosSinF32 bits (c.toNat % 2 ^ bits)).2)

/-- R115: cosine into v[d], sine into v[d + 1]. -/
def sincosClaim (zq : Bool) (y : BitVec 2) (d b : BitVec 5) (t : BitVec 4) (g : BitVec 1) : Claim :=
  { eng := .v, y := y, srcs := if zq = true then [] else [.v b], parts := operandPart zq b
    pre := fun s => s.offered zq b false ≠ none ∧ d.toNat % 2 = 0 ∧ (t.toNat = 10 ∨ t.toNat = 2 ∧ g = 0)
    does := fun s => s.result .v (.v d) (.vec (lanes fun i =>
      (cosSin t (if g = 1 then 32 else 16) (((s.offered zq b false).getD (s.me.vreg 0)).lane i)).1)) (s.issueAt .v y) 8
    result := .fixed (.v (d + 1)) (fun s => .vec (lanes fun i =>
      (cosSin t (if g = 1 then 32 else 16) (((s.offered zq b false).getD (s.me.vreg 0)).lane i)).2)) 8
    post := fun s t => s.Took t zq b }

/-! ## Slices -/

/-- R118: VSPLIT. -/
def splitForm : Instr → Option (Bool × BitVec 2 × BitVec 5 × BitVec 5 × BitVec 5 × BitVec 4 × BitVec 1)
  | .vsplit y d a b t e => some (false, y, d, a, b, t, e)
  | .vsplitZq y d a b t e => some (true, y, d, a, b, t, e)
  | _ => none

/-- R118: the traps of VSPLIT's fields. -/
def splitBad (a : BitVec 5) (t : BitVec 4) (e : BitVec 1) : Option Nat :=
  if e = 1 ∧ a ≠ 0 then some causeReserved else if t.toNat ∈ [10, 11, 12] then none else some causeIllegal

/-- R118: the slice count of a split, in lane 0 of v[a]. -/
def sliceCount (s : State) (a : BitVec 5) : Nat := ((s.me.vreg a).lane 0).toNat / 2 ^ 17 % 8

/-- R118: the exponent pass. -/
def expPassRow (zq : Bool) (y : BitVec 2) (d b : BitVec 5) (t : BitVec 4) : VRow :=
  let ty := (tyOfCode t.toNat).getD .bx
  vecRow zq y d b (wideType t) [.v d] (splitBad 0 t 1) 6 fun s v =>
    ctlVec ty fun k => expPass ((s.me.vreg d).lane (if ty.bits = 64 then 2 * k else k)).toNat (splitVal ty (v.elem ty.bits k))

/-- R38, R118: the split of element `k`. -/
def splitOf (s : State) (zq : Bool) (a b : BitVec 5) (t : BitVec 4) (k : Nat) : List Int × Nat :=
  let ty := (tyOfCode t.toNat).getD .bx
  splitElem (sliceCount s a) ((s.me.vreg a).lane (if ty.bits = 64 then 2 * k else k)).toNat
    (splitVal ty (((s.offered zq b (wideType t)).getD (s.me.vreg 0)).elem ty.bits k))

/-- R118: the split: slice j in v[d + j - 1], the shift words in v[d + s], each landing after 6 cy. -/
def splitClaim (zq : Bool) (y : BitVec 2) (d a b : BitVec 5) (t : BitVec 4) : Claim :=
  { eng := .v, y := y, srcs := .v a :: (if zq = true then [] else [.v b]), parts := operandPart zq b
    pre := fun s => s.offered zq b (wideType t) ≠ none ∧ splitBad a t 0 = none ∧
      1 ≤ sliceCount s a ∧ sliceCount s a ≤ 6 ∧ d.toNat + sliceCount s a ≤ 31
    result := .other
    post := fun s t' => s.Took t' zq b ∧ ∀ j, j ≤ sliceCount s a → ∃ f ∈ (t'.eng .v).flight,
      f.reg = .v (d + BitVec.ofNat 5 j) ∧ f.land = (s.eng .v).clk + y.toNat + 6 ∧ f.arrived = true ∧
      f.val = .vec (if j < sliceCount s a then
          sliceVec ((tyOfCode t.toNat).getD .bx) (fun k => (splitOf s zq a b t k).1.getD j 0)
        else ctlVec ((tyOfCode t.toNat).getD .bx) (fun k => (splitOf s zq a b t k).2)) }

/-! ## The scratchpad from the lanes -/

/-- A byte of the scratchpad of the group's own core. -/
def State.ownByte (s : State) (x : Nat) : Byte := memGet s.me.store.spad x

/-- `n` bytes there as a little-endian number (01_device R15). -/
def State.ownNum (s : State) (x : Nat) : Nat → Nat
  | 0 => 0
  | n + 1 => (s.ownByte x).toNat + 2 ^ 8 * s.ownNum (x + 1) n

/-- R112: the address of a lane. -/
def laneAddr (n : Nat) (u v : VReg) (clamped : Bool) (i : Nat) : Nat :=
  (v.lane 0).toNat + (if clamped = true then (max 0 (min 4095 (u.lane i).toInt)).toNat else (u.lane i).toNat) * n

/-- R112, R219: every lane's address is aligned and inside the scratchpad, and names no word that is pending. -/
def State.lanesFine (s : State) (n : Nat) (addr : Nat → Nat) : Prop :=
  ∀ i, i < 128 → addr i % n = 0 ∧ addr i + n ≤ 2 ^ 26 ∧ s.me.isPending false s.me.ident.core (addr i) n = false

/-- R98, R112: the integer types of 8 to 32 bits, and .f32. -/
def laneType (t : BitVec 4) : Bool := t.toNat ∈ [0, 1, 2, 4, 5, 6, 10]

/-- The bytes of an element of a type. -/
def elemBytes (t : BitVec 4) : Nat := ((tyOfCode t.toNat).getD .bx).bits / 8

/-- R112: VGATH and VLUT. -/
def gatherForm : Instr → Option (Bool × Bool × BitVec 2 × BitVec 5 × BitVec 5 × BitVec 5 × BitVec 4)
  | .vgath y d a b t => some (false, false, y, d, a, b, t)
  | .vgathZq y d a b t => some (false, true, y, d, a, b, t)
  | .vlut y d a b t => some (true, false, y, d, a, b, t)
  | .vlutZq y d a b t => some (true, true, y, d, a, b, t)
  | _ => none

/-- R98, R102, R112: lane i is the element at lane i's address; the result is assumed after 14 cy. -/
def gatherClaim (clamped zq : Bool) (y : BitVec 2) (d a b : BitVec 5) (t : BitVec 4) : Claim :=
  let v := fun s : State => (s.offered zq b false).getD (s.me.vreg 0)
  { eng := .v, y := y, srcs := .v a :: (if zq = true then [] else [.v b]), parts := operandPart zq b
    pre := fun s => laneType t = true ∧ s.offered zq b false ≠ none ∧
      s.lanesFine (elemBytes t) (laneAddr (elemBytes t) (s.me.vreg a) (v s) clamped) ∧
      (s.eng .v).outstanding < 16
    result := .late (.v d) (fun s => .vec (lanes fun i => laneOf ((tyOfCode t.toNat).getD .bx)
      (s.ownNum (laneAddr (elemBytes t) (s.me.vreg a) (v s) clamped i) (elemBytes t)))) (fun _ => 14)
    post := fun s t => s.Took t zq b }

/-- R112, R113: VSCAT and VAADD. -/
def scatterForm : Instr → Option (Bool × BitVec 2 × BitVec 5 × BitVec 5 × BitVec 5 × BitVec 4)
  | .vscat y d a b t => some (false, y, d, a, b, t)
  | .vscatZq y d a b t => some (true, y, d, a, b, t)
  | _ => none

/-- R112: each byte of the scratchpad comes from the highest lane whose element covers it, or is as it was. -/
def scatterClaim (zq : Bool) (y : BitVec 2) (d a b : BitVec 5) (t : BitVec 4) : Claim :=
  let at_ := fun (s : State) (i : Nat) =>
    laneAddr (elemBytes t) (s.me.vreg a) ((s.offered zq b false).getD (s.me.vreg 0)) false i
  { eng := .v, y := y, srcs := .v a :: .v d :: (if zq = true then [] else [.v b]), parts := .spad :: operandPart zq b
    pre := fun s => laneType t = true ∧ s.offered zq b false ≠ none ∧ s.lanesFine (elemBytes t) (at_ s)
    post := fun s t' => s.Took t' zq b ∧
      (∀ x i, i < 128 → at_ s i ≤ x → x < at_ s i + elemBytes t →
        (∀ j, i < j → j < 128 → ¬ (at_ s j ≤ x ∧ x < at_ s j + elemBytes t)) →
        t'.ownByte x = byteOf (((s.me.vreg d).lane i).setWidth 64) (x - at_ s i)) ∧
      (∀ x, (∀ i, i < 128 → ¬ (at_ s i ≤ x ∧ x < at_ s i + elemBytes t)) → t'.ownByte x = s.ownByte x) }

/-- R113: the words of VAADD. -/
def aaddForm : Instr → Option (Bool × BitVec 2 × BitVec 5 × BitVec 5 × BitVec 5 × BitVec 4 × BitVec 1)
  | .vaadd y d a b t f => some (false, y, d, a, b, t, f)
  | .vaaddZq y d a b t f => some (true, y, d, a, b, t, f)
  | _ => none

/-- R43, R113: the word at an address after the contributions of the lanes that name it, lowest lane first. -/
def aaddWord (t : BitVec 4) (f : BitVec 1) (nivose : Bool) (old : Nat) (l : List Nat) : Nat :=
  match tyOfCode t.toNat with
  | some (.int sg w) =>
    if f = 1 ∧ nivose = true then intResult sg w true (intVal sg w old + (l.map (intVal sg w)).sum)
    else
      let add := fun x y => intResult sg w (f == 1) (intVal sg w x + intVal sg w y)
      add old (l.tail.foldl add (l.headD 0))
  | some (.flt g) => fAdd g .rne old (l.tail.foldl (fAdd g .rne) (l.headD 0))
  | _ => old

/-- R113: VAADD to the scratchpad: each word that lanes name takes their contributions, every other byte is as it was. -/
def aaddClaim (zq : Bool) (y : BitVec 2) (d a b : BitVec 5) (t : BitVec 4) (f : BitVec 1) : Claim :=
  let at_ := fun (s : State) (i : Nat) => laneAddr 4 (s.me.vreg a) ((s.offered zq b false).getD (s.me.vreg 0)) false i
  { eng := .v, y := y, srcs := .v a :: .v d :: (if zq = true then [] else [.v b]), parts := .spad :: operandPart zq b
    pre := fun s => (t.toNat = 2 ∨ t.toNat = 6 ∨ t.toNat = 10 ∧ f = 0) ∧ s.offered zq b false ≠ none ∧ s.lanesFine 4 (at_ s)
    post := fun s t' => s.Took t' zq b ∧
      (∀ i, i < 128 → t'.ownNum (at_ s i) 4 = aaddWord t f s.me.nivose (s.ownNum (at_ s i) 4)
        (((List.range 128).filter fun j => at_ s j == at_ s i).map fun j => ((s.me.vreg d).lane j).toNat)) ∧
      (∀ x, (∀ i, i < 128 → ¬ (at_ s i ≤ x ∧ x < at_ s i + 4)) → t'.ownByte x = s.ownByte x) }

/-- R35, R113: VAADD.f32.xf: each lane contributes to the XF320 slot that it names. -/
def aaddXfClaim (zq : Bool) (y : BitVec 2) (d a b : BitVec 5) : Claim :=
  let at_ := fun (s : State) (i : Nat) => laneAddr 8 (s.me.vreg a) ((s.offered zq b false).getD (s.me.vreg 0)) false i
  { eng := .v, y := y, srcs := .v a :: .v d :: (if zq = true then [] else [.v b]), parts := operandPart zq b
    pre := fun s => s.offered zq b false ≠ none ∧ ∀ i, i < 128 → at_ s i % 8 = 0 ∧ at_ s i + 8 ≤ accWords ∧
      s.me.isPending true s.me.ident.core (at_ s i) 8 = false
    does := fun s => s.onMe fun g =>
      let put := fun (m : Store) i => m.xfContribute (at_ s i) (fpDecode fmtF32 ((s.me.vreg d).lane i).toNat)
      { g with store := (List.range 128).foldl put g.store }
    post := fun s t => s.Took t zq b }

/-! ## Streams and queues -/

/-- R110: VFROMS leaves the head where it is; V claims the stream that it reads. -/
def fromsClaim (y : BitVec 2) (d b : BitVec 5) : Claim :=
  { eng := .v, y := y, parts := if b.getLsbD 4 = true then [] else [.stream (b.setWidth 4)]
    pre := fun s => s.offered true b false ≠ none
    result := .fixed (.v d) (fun s => .vec ((s.offered true b false).getD (s.me.vreg 0))) 2
    post := fun s t => b.getLsbD 4 = false →
      t.me.stream (b.setWidth 4) = { s.me.stream (b.setWidth 4) with owner := some .v } }

/-- R110, R122: VTOS to a running drained stream with room, or to a queue of V's. -/
def tosClaim (y : BitVec 2) (a b : BitVec 5) : Claim :=
  { eng := .v, y := y, srcs := [.v a], parts := operandPart true b
    pre := fun s => if b.getLsbD 4 = true then
        s.Accepts .v (b.setWidth 4)
      else
        let z := s.me.stream (b.setWidth 4)
        z.st = .running ∧ z.pat.drained = true ∧ z.buf.length < 8 ∧ (z.pat.direct = true ∨ z.taken < z.vectors)
    post := fun s t => if b.getLsbD 4 = true then
        s.Pushed t (b.setWidth 4) (((s.me.vreg a).lane 0).setWidth 64)
      else
        let z := s.me.stream (b.setWidth 4)
        t.me.stream (b.setWidth 4) = { z with buf := z.buf ++ [s.me.vreg a], taken := z.taken + 1 } }

end Sys2Proof.Machine
end

