-- ==== Sys2Proof/Claims/Streams.lean ====
section
/-! DEFINITION. What the manual gives for streams and for the instructions of L and S (06_vector R119 to R128), and for the events
that fill and drain a stream. -/

namespace Sys2Proof.Machine

/-! ## Patterns -/

/-- R119: the offset of the element with these indices, innermost first. -/
def patternOffset : List Nat → List Int → Int
  | i :: is, k :: ks => (i : Int) * k + patternOffset is ks
  | _, _ => 0

/-- R119: the number of the element with these indices: i0 + C0 * (i1 + C1 * (i2 + C2 * i3)). -/
def patternNumber : List Nat → List Nat → Nat
  | i :: is, c :: cs => i + c * patternNumber is cs
  | _, _ => 0

/-- The indices are below the counts. -/
def indicesFit : List Nat → List Nat → Prop
  | i :: is, c :: cs => i < c ∧ indicesFit is cs
  | [], [] => True
  | _, _ => False

/-! ## Engine L -/

/-- The record of ZBIND, where the scratchpad has one there. -/
def State.patternRecord (s : State) (a : Nat) (r : List Byte) : Prop := s.me.record a 64 64 = .ok r

/-- R120: the record fits the format: no row of the table of R120 applies. -/
def recordFits (r : List Byte) (fmt : Nat) : Prop :=
  (tyOfCode fmt).isSome = true ∧ patBounds (boundStream (patternOf r) fmt) = true ∧ patReserved r (patternOf r) = true ∧
    patAligned (boundStream (patternOf r) fmt) = true ∧ patLegal (boundStream (patternOf r) fmt) = true

/-- A claim about an instruction that changes one stream. -/
def streamClaim (e : Engine) (y : BitVec 2) (z : BitVec 4) (pre : State → Prop) (next : State → Stream) : Claim :=
  { eng := e, y := y, parts := [.stream z], pre := pre, post := fun s t => t.me.stream z = next s }

/-- R123, R124: an address of LDV and STV. -/
def State.vectorAt (s : State) (b : BitVec 5) (i : BitVec 9) (a : Nat) : Prop :=
  a = ((s.me.sreg b).toNat + 512 * i.toNat) % 2 ^ 64 ∧ a % 64 = 0 ∧ a + 512 ≤ 2 ^ 26 ∧
    s.me.isPending false s.me.ident.core a 512 = false

/-- R122: a stream goes back to vector 0 and is empty. -/
def Stream.restarted (z : Stream) : Stream :=
  { z with st := if z.pat.direct = true then .running else .bound, buf := [], pos := 0, taken := 0 }

/-- R120, R122, R123: the instructions of L. -/
def loadEngineRow : Instr → Option Claim
  | .zbind y t b f => some
      { eng := .l, y := y, parts := [.stream t]
        pre := fun s => (∃ r, s.patternRecord (s.me.sreg b).toNat r ∧ recordFits r f.toNat) ∧ (s.me.stream t).st ≠ .running
        post := fun s u => ∃ r, s.patternRecord (s.me.sreg b).toNat r ∧
          u.me.stream t = { Stream.unbound with
            pat := patternOf r, fmt := f.toNat, st := if (patternOf r).direct = true then .running else .bound } }
  | .zstart y d => some (streamClaim .l y d (fun s => (s.me.stream d).st = .bound ∧ (s.me.stream d).pat.drained = false)
      fun s => { s.me.stream d with st := .running })
  | .zstop y d => some (streamClaim .l y d (fun _ => True) fun s =>
      if (s.me.stream d).st = .unbound then s.me.stream d else (s.me.stream d).restarted)
  | .zskip y d k => some
      { eng := .l, y := y, parts := [.stream d]
        pre := fun s => k ≠ 0 ∧ (s.me.stream d).st ≠ .unbound ∧ (s.me.stream d).pat.drained = false
        post := fun s t =>
          let z := s.me.stream d
          let n := z.taken + k.toNat
          if z.pat.direct = false ∧ z.vectors ≤ n then (t.me.stream d).st = .done ∧ (t.me.stream d).buf = []
          else (t.me.stream d).st = z.st ∧ (t.me.stream d).taken = n ∧ (t.me.stream d).buf = z.buf.drop k.toNat }
  | .ldv y t b i => some
      { eng := .l, y := y, parts := [.stream t]
        pre := fun s => (s.me.stream t).st ≠ .unbound ∧ (s.me.stream t).pat.direct = true ∧
          (s.me.stream t).pat.drained = false ∧ (s.me.stream t).buf.length < 8 ∧ (s.me.stream t).taken ≤ (s.me.stream t).pos ∧
          ∃ a, s.vectorAt b i a
        post := fun s u => ∃ a v, s.vectorAt b i a ∧ (∀ k, k < 128 → (VReg.lane v k).toNat = s.ownNum (a + 4 * k) 4) ∧ v.exp = 0 ∧
          u.me.stream t = { s.me.stream t with buf := (s.me.stream t).buf ++ [v], pos := (s.me.stream t).pos + 1 } }
  | .nopL y => some { eng := .l, y := y }
  | _ => none

/-- R122, R123: ZSTART, ZSKIP and LDV on a stream that does not allow them: the trap, by the stream. -/
def loadEngineTrap : Instr → Option (BitVec 2 × (State → Option Nat))
  | .zstart y d => some (y, fun s =>
      if (s.me.stream d).st = .bound ∧ (s.me.stream d).pat.drained = false then none else some causeQueueCfg)
  | .zskip y d k => some (y, fun s => if k = 0 then some causeBounds
      else if (s.me.stream d).st ≠ .unbound ∧ (s.me.stream d).pat.drained = true then some causeQueueCfg else none)
  | .ldv y t _ _ => some (y, fun s =>
      if (s.me.stream t).st ≠ .unbound ∧ ((s.me.stream t).pat.direct = false ∨ (s.me.stream t).pat.drained = true) then
        some causeQueueCfg
      else none)
  | _ => none

/-! ## Engine S -/

/-- R124 to R126: the instructions of S, but for SUPD and SPAIR. -/
def storeEngineRow : Instr → Option Claim
  | .zdrain y d => some (streamClaim .s y d (fun s => (s.me.stream d).st = .bound ∧ (s.me.stream d).pat.drained = true)
      fun s => { s.me.stream d with st := .running })
  | .stv y t b i => some
      { eng := .s, y := y, parts := [.stream t, .spad, .mag, .contexts]
        pre := fun s => (s.me.stream t).st ≠ .unbound ∧ (s.me.stream t).pat.direct = true ∧
          (s.me.stream t).pat.drained = true ∧ (s.me.stream t).buf ≠ [] ∧ ∃ a, s.vectorAt b i a
        post := fun s u => ∃ a v r, s.vectorAt b i a ∧ (s.me.stream t).buf = v :: r ∧
          u.me.stream t = { s.me.stream t with buf := r, pos := (s.me.stream t).pos + 1 } ∧
          (∀ k j, k < 128 → j < 4 → u.ownByte (a + 4 * k + j) = byteOf ((v.lane k).setWidth 64) j) ∧
          (∀ x, (x < a ∨ a + 512 ≤ x) → u.ownByte x = s.ownByte x) ∧
          ((s.me.stream t).mag = none → u.me.vr.mag = s.me.vr.mag) }
  | .scvt y d r b x => some (streamClaim .s y d (fun _ => True) fun s =>
      { s.me.stream d with rm := r, scale := b, sat := decide (x = 1) })
  | .samax y d x k c => some
      { eng := .s, y := y, parts := [.stream d, .mag]
        post := fun s t =>
          t.me.stream d = { s.me.stream d with mag := if x = 1 then none else some k.toNat } ∧
          ∀ j : Nat, j < 16 → t.me.vr.mag.getD j 0 = if c = 1 ∧ j = k.toNat then 0 else s.me.vr.mag.getD j 0 }
  | .nopS y => some { eng := .s, y := y }
  | _ => none

/-- The token that VAMAXR pops leaves its queue. -/
def State.tokenTaken (s : State) (p : BitVec 1) (q d : BitVec 4) : List (BitVec 64) :=
  if p = 1 ∧ q = d then (s.me.queue d).entries.tail else (s.me.queue d).entries

/-- R126, R242: of the vectors that each drained stream had received as the oldest entry of queue `q` was pushed, all are written. -/
def State.tokenWritten (s : State) (q : BitVec 4) : Prop :=
  ∀ (z : Fin 16) (n : Nat), (s.me.queue q).owed.head?.bind (·[z.val]?) = some n → (s.me.streams[z]).pat.drained = true →
    (s.me.streams[z]).buf = [] ∨ n ≤ (s.me.streams[z]).pos

/-- R126: VAMAXR: the token, if it pops one, is there and the vectors that it covers are written; then it pushes MAGk. -/
def vamaxrClaim (y : BitVec 2) (d : BitVec 4) (k : BitVec 4) (p : BitVec 1) (q : BitVec 4) : Claim :=
  { eng := .s, y := y, parts := if p = 1 then [.queue d, .queue q] else [.queue d]
    pre := fun s => (∃ e, (s.me.queue d).bind = some (.s, e)) ∧ (s.tokenTaken p q d).length < 8 ∧
      (p = 1 → s.Offers .s q ∧ s.tokenWritten q)
    post := fun s t =>
      (t.me.queue d).entries = s.tokenTaken p q d ++ [(s.me.vr.mag.getD k.toNat 0).setWidth 64] ∧
      (t.me.queue d).bind = (s.me.queue d).bind ∧
      (p = 1 → q ≠ d → s.Popped t q) }

/-- R127: a hyperparameter record. -/
structure Hyper where
  lr : Nat
  beta1 : Nat
  omb1 : Nat
  beta2 : Nat
  omb2 : Nat
  eps : Nat
  corr1 : Nat
  corr2 : Nat

/-- The record that SUPD keeps. -/
def Hyper.of (l : List (BitVec 32)) : Hyper :=
  ⟨(l.getD 0 0).toNat, (l.getD 1 0).toNat, (l.getD 2 0).toNat, (l.getD 3 0).toNat, (l.getD 4 0).toNat, (l.getD 5 0).toNat,
   (l.getD 6 0).toNat, (l.getD 7 0).toNat⟩

/-- R127: the change of the master angle from a step in turns. -/
def turnsDelta (st : Nat) : Int :=
  match fpDecode fmtF32 st with
  | .fin neg m e => max (-2 ^ 31) (min (2 ^ 31 - 1) (fpToInt .rne true 64 (.fin neg m (e + 32))))
  | .inf true => -2 ^ 31
  | .inf false => 2 ^ 31 - 1
  | .nan => 0

/-- R127: the recipe, a line each: new master angle, first moment and second moment. -/
def updateLane (h : Hyper) (master g m v : Nat) : Nat × Nat × Nat :=
  let mul := fMul fmtF32 .rne
  let q := mul g g
  let a := mul h.omb1 g
  let m' := fFma fmtF32 .rne h.beta1 m a
  let b := mul h.omb2 q
  let v' := fFma fmtF32 .rne h.beta2 v b
  let mh := mul m' h.corr1
  let vh := mul v' h.corr2
  let den := fAdd fmtF32 .rne (fSqrt fmtF32 .rne vh) h.eps
  let u := fDiv fmtF32 .rne mh den
  let st := mul h.lr u
  (((master : Int) - turnsDelta st).emod (2 ^ 32) |>.toNat, m', v')

/-- Stream `i` of the seven that SUPD names. -/
def State.supdZ (s : State) (j : BitVec 4) (i : Nat) : Stream := s.me.stream (j + BitVec.ofNat 4 i)

/-- R127: SUPD can take a vector: the four inputs offer one and the three outputs have room. -/
def State.updateReady (s : State) (j : BitVec 4) : Prop :=
  j.toNat ≤ 9 ∧
  (∀ i, i < 4 → (s.supdZ j i).st = .running ∧ (s.supdZ j i).pat.drained = false ∧ (s.supdZ j i).buf ≠ []) ∧
  (∀ i, 4 ≤ i → i < 7 → (s.supdZ j i).st = .running ∧ (s.supdZ j i).pat.drained = true ∧ (s.supdZ j i).buf.length < 8 ∧
    ((s.supdZ j i).pat.direct = true ∨ (s.supdZ j i).taken < (s.supdZ j i).vectors))

/-- The seven streams of SUPD, as parts. -/
def supdParts (j : BitVec 4) : List Aspect := (List.range 7).map fun i => .stream (j + BitVec.ofNat 4 i)

/-- R127: what a vector of SUPD leaves: the inputs without their heads, the outputs with the results of every lane. -/
def State.Updated (s t : State) (j : BitVec 4) (h : Hyper) : Prop :=
  (∀ i, i < 4 → (t.supdZ j i).buf = (s.supdZ j i).buf.tail ∧ (t.supdZ j i).taken = (s.supdZ j i).taken + 1) ∧
  ∃ o : Nat → VReg, (∀ i, i < 3 → (t.supdZ j (4 + i)).buf = (s.supdZ j (4 + i)).buf ++ [o i] ∧
      (t.supdZ j (4 + i)).taken = (s.supdZ j (4 + i)).taken + 1) ∧
    ∀ k, k < 128 →
      let x := fun i => (((s.supdZ j i).buf.headD zeroVReg).lane k).toNat
      let r := updateLane h (x 0) (x 1) (x 2) (x 3)
      ((o 0).lane k).toNat = r.1 ∧ ((o 1).lane k).toNat = r.2.1 ∧ ((o 2).lane k).toNat = r.2.2

/-- R127: the last vector of a SUPD: it completes. -/
def supdClaim (y : BitVec 2) (j : BitVec 4) (n : BitVec 12) (x : Supd) : Claim :=
  { eng := .s, y := y, parts := .supd :: supdParts j
    pre := fun s => s.me.vr.supd = some x ∧ n.toNat ≤ x.count + 1 ∧ s.updateReady j
    post := fun s t => t.me.vr.supd = none ∧ s.Updated t j (Hyper.of x.hyper) }

/-- S goes on with an item that takes several steps: it stays at the item. -/
structure State.StaysAt (s : State) (e : Engine) (t : State) : Prop where
  walk : (t.eng e).cur = (s.eng e).cur
  cycle : (t.eng e).clk = (s.eng e).clk
  seq : (t.eng e).seq = (s.eng e).seq

/-- R128: the seven values of a pair record. -/
structure PairRec where
  src : Nat
  fwd : Nat
  mir : Nat
  n : Nat

/-- The record's fields. -/
def PairRec.of (r : List Byte) : PairRec := ⟨recField r 0 4, recField r 4 4, recField r 8 4, recField r 12 1⟩

/-- R128: the stages of the mirror. -/
def PairRec.mirStages (x : PairRec) : Nat := if x.n % 2 = 1 then x.n else x.n + 1

/-- R135: where the codes of an image begin. -/
def imageCodes : Nat := 64

/-- R17, R128, R219, R360: SPAIR with a pending word in its mirror area alone: the forward image is written, the queue entry stays, no
digest changes, and it traps. -/
def State.SpairCut (s : State) (y : BitVec 2) (r : List Byte) (o : Host.Outcome State Fault Refusal) : Prop :=
  let x := PairRec.of r
  let u := s.arrived .s y
  ∃ (img : List Byte) (va : Nat), img.length = 320 + 128 * x.n ∧
    (∀ i p, i < x.n → p < 64 → recField img (imageCodes + 2 * (64 * i + p)) 2 = narrowAngle (u.ownNum (x.src + 4 * (64 * i + p)) 4)) ∧
    o = .next ((u.onMe fun g => g.spadPut x.fwd img).trapAt .s causePending 0 va false)

/-- R128: SPAIR: the codes and the scale entries of both images. -/
def spairClaim (y : BitVec 2) (q : BitVec 4) (r : List Byte) : Claim :=
  let x := PairRec.of r
  { eng := .s, y := y, parts := [.queue q, .spad, .contexts]
    pre := fun s => s.Offers .s q ∧ (∃ w l, (s.me.queue q).entries = w :: l ∧ s.me.record w.toNat 32 32 = .ok r) ∧
      spairCheck r = .ok () ∧ s.me.spairFree x.src (256 * x.n + 256) = .ok () ∧ s.me.spairFree x.fwd (320 + 128 * x.n) = .ok () ∧
      s.me.spairFree x.mir (320 + 128 * x.mirStages) = .ok ()
    post := fun s t =>
      s.Popped t q ∧
      (∀ i p, i < x.n → p < 64 →
        let code := narrowAngle (s.ownNum (x.src + 4 * (64 * i + p)) 4)
        t.ownNum (x.fwd + imageCodes + 2 * (64 * i + p)) 2 = code ∧
        t.ownNum (x.mir + imageCodes + 2 * (64 * (x.mirStages - 1 - i) + p)) 2 = (2 ^ 16 - code) % 2 ^ 16) ∧
      (∀ p, x.n % 2 = 0 → p < 64 → t.ownNum (x.mir + imageCodes + 2 * p) 2 = 0) ∧
      (∀ k, k < 128 → t.ownNum (x.fwd + imageCodes + 128 * x.n + 2 * k) 2 = s.ownNum (x.src + 256 * x.n + 2 * k) 2 ∧
        t.ownNum (x.mir + imageCodes + 128 * x.mirStages + 2 * k) 2 = 0) ∧
      (∀ b, ¬ (x.fwd ≤ b ∧ b < x.fwd + 320 + 128 * x.n) → ¬ (x.mir ≤ b ∧ b < x.mir + 320 + 128 * x.mirStages) →
        t.ownByte b = s.ownByte b) }

/-! ## Filling and draining -/

/-- R122: STREAM_FILL: L reads the next vector of a running input stream, up to 8 ahead. -/
def fillClaim (z : BitVec 4) : EventClaim :=
  { parts := [.stream z]
    pre := fun s => s.fillEnabled z = true ∧ s.me.vecPending (s.me.stream z) (s.me.stream z).pos = false
    post := fun s t => t.me.stream z = { s.me.stream z with
      buf := (s.me.stream z).buf ++ [s.me.loadVec (s.me.stream z) (s.me.stream z).pos], pos := (s.me.stream z).pos + 1 } }

/-- R119: byte `b` of the scratchpad belongs to an element of vector `j`, or to its exponent. -/
def Stream.covers (z : Stream) (j b : Nat) : Prop :=
  (∃ a ∈ z.addrs j, a ≤ b ∧ b < a + fmtBytes z.fmt) ∨ z.pat.xs = true ∧ z.pat.xbase + 2 * j ≤ b ∧ b < z.pat.xbase + 2 * j + 2

/-- R121, R122, R125: STREAM_DRAIN_WRITE: S writes the head vector of a running drained stream in its place; a MAG register that
the stream feeds does not fall. -/
def drainClaim (z : BitVec 4) : EventClaim :=
  { parts := [.stream z, .spad, .mag, .contexts]
    pre := fun s => s.drainEnabled z = true ∧ s.me.vecPending (s.me.stream z) (s.me.stream z).pos = false
    post := fun s t =>
      let x := s.me.stream z
      t.me.stream z = { x with
        buf := x.buf.tail, pos := x.pos + 1
        st := if x.pat.direct = false ∧ x.vectors ≤ x.pos + 1 then .done else .running } ∧
      (∀ b, ¬ x.covers x.pos b → t.ownByte b = s.ownByte b) ∧
      (∀ k : Nat, x.mag ≠ some k → t.me.vr.mag.getD k 0 = s.me.vr.mag.getD k 0) ∧
      (∀ k : Nat, k < 16 → (s.me.vr.mag.getD k 0).toNat ≤ (t.me.vr.mag.getD k 0).toNat) }

end Sys2Proof.Machine
end

