-- ==== Sys2Proof/Claims/Mesh.lean ====
section
/-! DEFINITION. What the manual gives for the words of M and for the steps of the mesh (07_mesh R129 to R153). -/

namespace Sys2Proof.Machine

/-! ## Handing an operation to the mesh -/

/-- R131, R309: an operation that issues now, with the sequence number of its word. -/
def State.newOp (s : State) (ms : Nat) (k : MeshKind) : MeshOp :=
  { id := s.me.mesh.nextOp, ms := ms, mseq := (s.eng .m).seq + 1, kind := k, next := 0, pair := 0, seg := 0, rows := [], gidx := [],
    sidx := [], panel := none, inside := [] }

/-- R131: the mesh holds one more operation, behind the others, and is otherwise as it was. -/
def State.Handed (s t : State) (ms : Nat) (k : MeshKind) : Prop :=
  t.me.mesh = { s.me.mesh with ops := s.me.mesh.ops ++ [s.newOp ms k], nextOp := s.me.mesh.nextOp + 1 }

/-- R131: M does not stall at a ninth. -/
def State.meshRoom (s : State) : Prop := s.me.mesh.ops.length < 8

/-- R46: the profile that a mesh word names is its own, or 0 outside Nivose mode. -/
def State.profileOk (s : State) (p : BitVec 4) (own : Nat) : Prop := p.toNat = own ∨ p = 0 ∧ s.me.nivose = false

/-- R219: while pending bits are on, the words of a range of the accumulator store are pending from now on. -/
def State.marksAcc (s t : State) (lo n : Nat) : Prop :=
  (s.me.pendOn = false → t.me.work.pend = s.me.work.pend) ∧
    (s.me.pendOn = true → ∀ w, lo ≤ w → w < lo + n → t.me.isPending true s.me.ident.core w 1 = true)

/-- R131: the oldest entry of a queue that M consumes. -/
def State.queueGives (s : State) (q : BitVec 4) (v : BitVec 64) : Prop := s.Offers .m q ∧ (s.me.queue q).entries.head? = some v

/-! ## Images, banks, windows -/

/-- R135, R137: an image that MLOAD may load stands at an address. -/
def State.imageStands (s : State) (a : Nat) : Prop :=
  a % 64 = 0 ∧ a + 64 ≤ 2 ^ 26 ∧ 1 ≤ s.ownNum a 1 ∧ s.ownNum a 1 ≤ 128 ∧ s.ownNum (a + 1) 1 < 2 ∧ s.ownNum (a + 2) 2 = 0 ∧
    (∀ k, 12 ≤ k → k < 64 → s.ownByte (a + k) = 0) ∧ a + 320 + 128 * s.ownNum a 1 ≤ 2 ^ 26 ∧
    s.me.meshPending false a (320 + 128 * s.ownNum a 1) (fun _ => false) = false

/-- R137: an earlier MSTORE of the mesh stream, with pending bits off, would be waited for. -/
def State.storesFirst (s : State) (ms : Nat) : Prop :=
  s.me.pendOn = false ∧ ∃ o ∈ s.me.mesh.ops, o.ms = ms ∧ ∃ a b, o.kind = .store a b

/-- R129, R141 to R153: the words of M that hand an operation to the mesh without a stream, and those that M executes itself. -/
def meshRow : Instr → Option Claim
  | .nopM y => some { eng := .m, y := y }
  | .mscale y d a m => some
      { eng := .m, y := y, parts := [.mesh], pre := State.meshRoom
        post := fun s t => s.Handed t m.toNat (.scale d.toNat a.toNat) }
  | .mclrBank y d m => some
      { eng := .m, y := y, parts := [.mesh], pre := State.meshRoom
        post := fun s t => s.Handed t m.toNat (.clrBank d.toNat) }
  | .mclrWindow y u a m => some
      { eng := .m, y := y, parts := [.mesh, .pend]
        pre := fun s => s.meshRoom ∧ 4096 * a.toNat + 4096 * (u.toNat + 1) ≤ 131072 ∧
          s.me.meshPending true (4096 * a.toNat) (4096 * (u.toNat + 1)) (PendMark.ownStep m.toNat) = false
        post := fun s t => s.Handed t m.toNat (.clrWindow (4096 * a.toNat) (u.toNat + 1)) ∧
          s.marksAcc t (4096 * a.toNat) (4096 * (u.toNat + 1)) }
  | .mfence y k => some
      { eng := .m, y := y, pre := fun s => ∀ o ∈ s.me.mesh.ops, o.ms < 4 → k.getLsbD o.ms = false }
  | .mwaitb y b => some { eng := .m, y := y, pre := fun s => ∀ x ∈ s.me.mesh.batches, x.name ≠ some b.toNat }
  | .mnorm y d m c => some
      { eng := .m, y := y, parts := [.queue d, .mesh]
        pre := fun s => (∀ o ∈ s.me.mesh.ops, o.ms ≠ m.toNat) ∧ s.Accepts .m d
        post := fun s t =>
          s.Pushed t d (BitVec.ofNat 64 ((s.me.mesh.drift.getD m.toNat ⟨0, 0⟩).count.toNat * 2 ^ 32 +
            (s.me.mesh.drift.getD m.toNat ⟨0, 0⟩).max.toNat)) ∧
          t.me.mesh = if c = 1 then { s.me.mesh with drift := s.me.mesh.drift.setIfInBounds m.toNat ⟨0, 0⟩ } else s.me.mesh }
  | .mcommit y b => some
      { eng := .m, y := y, parts := [.mesh]
        pre := fun s => (∀ x ∈ s.me.mesh.batches, x.name ≠ some b.toNat) ∧
          (s.me.mesh.batches.filter fun x => x.name.isSome).length < 4 ∧
          (s.me.mesh.batches.filter fun x => x.name.isNone).length ≤ 1 ∧ (s.me.mesh.batches.map (·.id)).Nodup ∧
          ∀ x ∈ s.me.mesh.batches, x.id < s.me.mesh.nextBatch
        post := fun s t => t.me.mesh.ops = s.me.mesh.ops ∧ t.me.mesh.banks = s.me.mesh.banks ∧
          (∀ x ∈ t.me.mesh.batches, x.name ≠ none) ∧
          ∃ x ∈ t.me.mesh.batches, x.name = some b.toNat ∧
            ((∃ o ∈ s.me.mesh.batches, o.name = none ∧ x = { o with name := some b.toNat }) ∨
             (∀ o ∈ s.me.mesh.batches, o.name ≠ none) ∧ x.wins = []) }
  | .mload y d a c m => some
      { eng := .m, y := y, parts := [.mesh, .queue a]
        pre := fun s => s.meshRoom ∧ ¬ s.storesFirst m.toNat ∧ ∃ v, s.queueGives a v ∧ s.imageStands v.toNat
        post := fun s t => s.Popped t a ∧ ∃ v, s.queueGives a v ∧ s.Handed t m.toNat (.load d.toNat v.toNat (s.ownNum v.toNat 1) (decide (c = 1))) }
  | .mstore y d a m => some
      { eng := .m, y := y, parts := [.mesh, .queue d, .pend]
        pre := fun s => s.meshRoom ∧ ∃ v, s.queueGives d v ∧ v.toNat % 64 = 0 ∧
          v.toNat + 320 + 128 * max 1 (s.me.countAhead m.toNat a.toNat) ≤ 2 ^ 26 ∧
          s.me.meshPending false v.toNat (320 + 128 * max 1 (s.me.countAhead m.toNat a.toNat)) (fun _ => false) = false
        post := fun s t => s.Popped t d ∧ ∃ v, s.queueGives d v ∧ s.Handed t m.toNat (.store v.toNat a.toNat) }
  | _ => none

/-- R151: the entry that a selector of MSTAT pushes. -/
def statEntry (m : MeshState) (sel : Nat) : BitVec 64 :=
  match sel with
  | 1 => .ofNat 64 m.satcnt.toNat
  | 2 => .ofNat 64 m.chkmiss.toNat
  | 3 => .ofNat 64 m.idxerr.toNat
  | 4 => .ofNat 64 ((m.batches.filterMap (·.name)).map fun k => 2 ^ k).sum
  | 5 => .ofNat 64 ((List.range 8).map fun k => (m.banks.getD k .zero).count * 2 ^ (8 * k)).sum
  | _ => 0

/-- R151: MSTAT. -/
def mstatClaim (y : BitVec 2) (d : BitVec 4) (c : BitVec 1) (sel : BitVec 4) : Claim :=
  { eng := .m, y := y, parts := [.queue d, .mesh]
    pre := fun s => s.Accepts .m d ∧ sel.toNat ≤ 5 ∧ (c = 1 → 1 ≤ sel.toNat ∧ sel.toNat ≤ 3)
    post := fun s t => s.Pushed t d (statEntry s.me.mesh sel.toNat) ∧
      t.me.mesh = if c = 1 then { s.me.mesh with
          satcnt := if sel = 1 then 0 else s.me.mesh.satcnt
          chkmiss := if sel = 2 then 0 else s.me.mesh.chkmiss
          idxerr := if sel = 3 then 0 else s.me.mesh.idxerr }
        else s.me.mesh }

/-- R134, R143, R148: the words of M that stall, and where. -/
def meshStall : Instr → Option (BitVec 2 × (State → Prop))
  | .mfence y k => some (y, fun s => ∃ o ∈ s.me.mesh.ops, o.ms < 4 ∧ k.getLsbD o.ms = true)
  | .mwaitb y b => some (y, fun s => ∃ x ∈ s.me.mesh.batches, x.name = some b.toNat)
  | .mnorm y _ m _ => some (y, fun s => ∃ o ∈ s.me.mesh.ops, o.ms = m.toNat)
  | .mscale y _ _ _ => some (y, fun s => 8 ≤ s.me.mesh.ops.length)
  | .mclrBank y _ _ => some (y, fun s => 8 ≤ s.me.mesh.ops.length)
  | .msweep y d z _ _ _ _ _ _ => some (y, fun s => (s.me.stream z).st = .unbound ∨ (s.me.stream d).st = .unbound)
  | .mderive y d z _ _ _ => some (y, fun s => (s.me.stream z).st = .unbound ∨ (s.me.stream d).st = .unbound)
  | .mpanel y d _ => some (y, fun s => (s.me.stream d).st = .unbound)
  | .mslice y _ z _ _ _ _ => some (y, fun s => (s.me.stream z).st = .unbound)
  | .mretire y d _ _ _ _ _ => some (y, fun s => (s.me.stream d).st = .unbound)
  | _ => none

/-- R46, R131, R148, R151: traps of words of M, by the state. -/
def meshTrap : Instr → Option (BitVec 2 × (State → Option Nat))
  | .mcommit y b => some (y, fun s => if s.me.mesh.batches.any (fun x => x.name == some b.toNat) = true then some causeMeshCfg else none)
  | .mstat y _ c sel => some (y, fun _ =>
      if 5 < sel.toNat ∨ c = 1 ∧ (sel = 0 ∨ 3 < sel.toNat) then some causeIllegal else none)
  | .mderive y d z _ _ p => some (y, fun s =>
      if (s.me.stream z).st ≠ .unbound ∧ (s.me.stream d).st ≠ .unbound ∧ p ≠ 1 ∧ (p ≠ 0 ∨ s.me.nivose = true) then some causeIllegal
      else none)
  | .mpanel y d _ => some (y, fun s =>
      if (s.me.stream d).st ≠ .unbound ∧ ((s.me.stream d).pat.drained = true ∨ (s.me.stream d).pat.lanes = true ∨
          (s.me.stream d).pat.direct = true ∨ (s.me.stream d).fmt ∉ [1, 2]) then some causeMeshCfg
      else none)
  | _ => none

/-! ## Sweeps -/

/-- R141: an input stream of BX32 vectors; a drained one; an index stream. -/
def Stream.rotates (z : Stream) : Prop := z.pat.drained = false ∧ z.pat.lanes = true ∧ z.pat.direct = false
def Stream.rotated (z : Stream) : Prop := z.pat.drained = true ∧ z.pat.lanes = true
def Stream.indexes (z : Stream) : Prop :=
  z.pat.drained = false ∧ z.pat.lanes = false ∧ z.fmt = 6 ∧ z.st ≠ .unbound

/-- R100: M may read the stream: V does not own it. -/
def Stream.forM (z : Stream) : Prop := z.owner = none ∨ z.owner = some .m

/-- R153: the destination has room for `n` vectors more than outstanding operations bring. -/
def State.destRoom (s : State) (d : BitVec 4) (n : Nat) : Prop :=
  (s.me.stream d).pat.direct = true ∨ (s.me.stream d).taken + s.me.mesh.willAppend d.toNat + n ≤ (s.me.stream d).vectors

/-- R100: M owns the streams from now on, and they are otherwise as they were. -/
def State.claimedM (s t : State) (zs : List (BitVec 4)) : Prop :=
  ∀ z, t.me.stream z = if z ∈ zs then { s.me.stream z with owner := some .m } else s.me.stream z

/-- R141, R153: MSWEEP may issue. -/
def State.sweepOk (s : State) (d z : BitVec 4) (p : BitVec 4) (gather scatter : Bool) : Prop :=
  s.profileOk p 1 ∧ (s.me.stream z).st ≠ .unbound ∧ (s.me.stream d).st ≠ .unbound ∧
  (s.me.stream z).rotates ∧ (s.me.stream d).rotated ∧
  (gather = true → (s.me.stream z).st = .bound ∧ (s.me.stream (z + 1)).indexes ∧ (s.me.stream (z + 1)).forM ∧
    s.me.gatherPending (s.me.stream z) = false) ∧
  (scatter = true → (s.me.stream d).st = .bound ∧ (s.me.stream (d + 1)).indexes ∧ (s.me.stream (d + 1)).forM ∧
    s.me.sweepLen z gather ≤ s.me.stillElems (d + 1)) ∧
  (scatter = false → s.destRoom d (s.me.sweepLen z gather)) ∧ (s.me.stream z).forM ∧ s.meshRoom

/-- The streams as parts. -/
def zParts (l : List (BitVec 4)) : List Aspect := l.map fun z => .stream z

/-- R141, R144: MSWEEP and MDERIVE hand over as many vectors as the source, or the gather index, has still to deliver. -/
def sweepRow : Instr → Option Claim
  | .msweep y d z b m p g c f =>
    let zs := z :: ((if g = 1 then [z + 1] else []) ++ (if c = 1 then [d + 1] else []))
    some
      { eng := .m, y := y, parts := .mesh :: zParts zs
        pre := fun s => s.sweepOk d z p (decide (g = 1)) (decide (c = 1))
        post := fun s t => s.claimedM t zs ∧ s.Handed t m.toNat (.sweep d.toNat z.toNat b.toNat (decide (g = 1)) (decide (c = 1))
          (decide (f = 1)) (if g = 1 then s.me.stillElems (z + 1) else s.me.stillTo z) (decide (p = 0))) }
  | .mderive y d z b m p => some
      { eng := .m, y := y, parts := [.mesh, .stream z]
        pre := fun s => s.profileOk p 1 ∧ (s.me.stream z).st ≠ .unbound ∧ (s.me.stream d).st ≠ .unbound ∧
          (s.me.stream z).rotates ∧ (s.me.stream d).rotated ∧ 1 ≤ s.me.stillTo z ∧ s.me.stillTo z ≤ 128 ∧
          s.destRoom d (s.me.stillTo z) ∧ (s.me.stream z).forM ∧ s.meshRoom
        post := fun s t => s.claimedM t [z] ∧
          s.Handed t m.toNat (.derive d.toNat z.toNat b.toNat (s.me.stillTo z) (decide (p = 0))) }
  | _ => none

/-! ## Shear mode -/

/-- R145: the header lanes that the head vectors of a stream carry. -/
def State.headerLane (s : State) (d : BitVec 4) (h n : Nat) : Nat :=
  let v := fun k => (((s.me.stream d).buf.getD k zeroVReg).lane n).toNat
  if h = 1 then v 0 else v 0 % 2 ^ 16 + 2 ^ 16 * (v 1 % 2 ^ 16)

/-- R145: s and Kp of a header. -/
def State.panelS (s : State) (d : BitVec 4) (h : Nat) : Nat := s.headerLane d h 0 / 2 ^ 17 % 8
def State.panelKp (s : State) (d : BitVec 4) (h : Nat) : Nat := s.headerLane d h 0 / 2 ^ 20 % 256 + 1

/-- R145: a stream of slices: .i32 (one header vector) or .i16 (two), plain lanes, an input with a pattern. -/
def Stream.slices (z : Stream) (h : Nat) : Prop :=
  z.pat.drained = false ∧ z.pat.lanes = false ∧ z.pat.direct = false ∧ (z.fmt = 2 ∧ h = 1 ∨ z.fmt = 1 ∧ h = 2)

/-- R145: MPANEL. -/
def mpanelClaim (y : BitVec 2) (d : BitVec 4) (m : BitVec 2) (h : Nat) : Claim :=
  { eng := .m, y := y, parts := [.mesh, .stream d]
    pre := fun s => (s.me.stream d).st = .running ∧ (s.me.stream d).slices h ∧ (s.me.stream d).forM ∧
      s.me.mesh.willPop d.toNat = 0 ∧ h ≤ (s.me.stream d).buf.length ∧ s.meshRoom ∧
      1 ≤ s.panelS d h ∧ s.panelS d h ≤ 6 ∧ s.headerLane d h 0 / 2 ^ 28 % 16 = 0 ∧
      (∀ n, 1 ≤ n → n < 128 → s.headerLane d h n < 2 ^ 17) ∧
      (s.me.stream d).taken + h + s.panelS d h * s.panelKp d h ≤ (s.me.stream d).vectors
    post := fun s t =>
      (t.me.stream d).buf = (s.me.stream d).buf.drop h ∧ (t.me.stream d).taken = (s.me.stream d).taken + h ∧
      (t.me.stream d).owner = some .m ∧
      t.me.mesh = { s.me.mesh with
        head := some ⟨s.panelS d h, s.panelKp d h⟩, nextOp := s.me.mesh.nextOp + 1
        ops := s.me.mesh.ops ++ [s.newOp m.toNat (.panel d.toNat (s.panelS d h) (s.panelKp d h)
          ((List.range 128).map fun n => BitVec.ofNat 32 (s.headerLane d h n % 2 ^ 17)))] } }

/-- R39: the pairs of a set. -/
def pairCount (s : Nat) (full : Bool) : Nat := if full = true then s * s else s * (s + 1) / 2

/-- R146: the words of a window. -/
def windowWords (s : Nat) (full : Bool) (m : Nat) : Nat := 1024 + 128 * pairCount s full * m

/-- R146: the header word. -/
def headerWord (s : Nat) (full : Bool) (m : Nat) : BitVec 64 := .ofNat 64 (s + (if full = true then 8 else 0) + 16 * m)

/-- R147: the vectors of a row of A: its control and s slices of ceil(Kp / 128) vectors. -/
def vectorsPerRow (h s kp : Nat) : Nat := h + s * ((kp + 127) / 128)

/-- R147: MSLICE of a step with `m` rows, behind the panel header `cp`. -/
def msliceClaim (y : BitVec 2) (w : BitVec 5) (z : BitVec 4) (n : BitVec 3) (f : BitVec 1) (p : BitVec 4) (ms : BitVec 2)
    (h m : Nat) (cp : PanelHead) : Claim :=
  let win := 4096 * w.toNat
  let full := decide (f = 1)
  { eng := .m, y := y, parts := [.mesh, .stream z, .pend]
    pre := fun s => s.profileOk p 2 ∧ (s.me.stream z).st ≠ .unbound ∧ (s.me.stream z).slices h ∧ (s.me.stream z).forM ∧
      s.me.mesh.clearing ms.toNat win (windowWords n.toNat full m) = false ∧ s.me.mesh.head = some cp ∧ cp.s = n.toNat ∧ 1 ≤ cp.s ∧ cp.s ≤ 6 ∧
      s.me.stillTo z = m * vectorsPerRow h cp.s cp.kp ∧ m ≤ 888 ∧ win + windowWords n.toNat full m ≤ 131072 ∧
      (s.me.headerAhead win none = 0 ∨ s.me.headerAhead win none = headerWord n.toNat full m) ∧
      s.me.meshPending true win (windowWords n.toNat full m) PendMark.anyStep = false ∧ s.meshRoom
    post := fun s t =>
      t.me.stream z = { s.me.stream z with owner := some .m } ∧
      ∃ b ∈ t.me.mesh.batches, b.name = none ∧ (∃ x ∈ b.wins, x.win = win ∧ ms.toNat ∈ x.mss) ∧
        t.me.mesh.ops = s.me.mesh.ops ++ [s.newOp ms.toNat
          (.slice win z.toNat n.toNat full m h cp.kp b.id (decide (p = 0)))] ∧
        t.me.mesh.nextOp = s.me.mesh.nextOp + 1 ∧ t.me.mesh.banks = s.me.mesh.banks ∧ t.me.mesh.head = s.me.mesh.head ∧
        t.me.mesh.panel = s.me.mesh.panel }

/-- R149: MRETIRE of a window whose header reads `full` and `m`, to an .f64 or an .f32 stream. -/
def mretireClaim (y : BitVec 2) (d : BitVec 4) (w : BitVec 5) (n : BitVec 3) (r : BitVec 2) (p : BitVec 4) (ms : BitVec 2)
    (f64 full : Bool) (m : Nat) : Claim :=
  let win := 4096 * w.toNat
  { eng := .m, y := y, parts := [.mesh]
    pre := fun s => s.profileOk p 2 ∧ (s.me.stream d).st ≠ .unbound ∧ (s.me.stream d).pat.drained = true ∧
      (s.me.stream d).pat.lanes = false ∧ (s.me.stream d).fmt = (if f64 = true then 11 else 10) ∧
      s.me.mesh.clearing ms.toNat win 4096 = false ∧ s.me.headerAhead win (some ms.toNat) ≠ 0 ∧
      (s.me.headerAhead win (some ms.toNat)).toNat % 8 = n.toNat ∧
      (s.me.headerAhead win (some ms.toNat)).getLsbD 3 = full ∧
      (s.me.headerAhead win (some ms.toNat)).toNat / 16 % 1024 = m ∧
      (∀ b ∈ s.me.mesh.batches, b.name = none → ∀ x ∈ b.wins, x.win = win → ms.toNat ∉ x.mss) ∧ 
      win + windowWords n.toNat full m ≤ 131072 ∧ s.destRoom d (if f64 = true then 2 * m else m) ∧
      s.me.meshPending true win (windowWords n.toNat full m) (PendMark.ownStep ms.toNat) = false ∧ s.meshRoom
    post := fun s t => ∃ waits : List Nat,
      s.Handed t ms.toNat (.retire d.toNat win n.toNat full m r.toNat f64 (decide (p = 0)) waits) ∧
      ∀ b ∈ s.me.mesh.batches, (∃ x ∈ b.wins, x.win = win ∧ ms.toNat ∈ x.mss ∧ ∀ x' ∈ b.wins, x'.win = win → x' = x) →
        b.id ∈ waits }

/-! ## The steps of the mesh -/

/-- R131: the operation is no longer outstanding, and the other operations are as they were. -/
def State.opGone (s t : State) (id : Nat) : Prop := t.me.mesh.ops = s.me.mesh.ops.filter fun o => o.id != id

/-- The mesh works on operation `o`: it runs, and nothing that `o` waits for is outstanding (R132, R133). -/
def State.worksOn (s : State) (o : MeshOp) : Prop :=
  s.me.phase.meshRuns = true ∧ s.me.mesh.ops.find? (fun x => x.id == o.id) = some o ∧ s.me.mesh.blocked o = false

/-- R131, R135, R137, R139, R140, R147, R150: what an operation without vectors leaves when it completes. -/
def State.opDone (s t : State) (o : MeshOp) : Prop :=
  match o.kind with
  | .load b a n _ =>
      (t.me.mesh.bank b).count = n ∧
      (∀ i p, p < 64 → ((t.me.mesh.bank b).row i).getD p 0 = if i < n then BitVec.ofNat 16 (s.ownNum (a + 64 + 128 * i + 2 * p) 2) else 0) ∧
      (∀ i, i < 128 → (t.me.mesh.bank b).scale.getD i 0 = BitVec.ofNat 16 (s.ownNum (a + 64 + 128 * n + 2 * i) 2)) ∧
      (∀ k, k ≠ b → t.me.mesh.bank k = s.me.mesh.bank k) ∧ t.me.store = s.me.store
  | .store a b =>
      let n := max 1 (s.me.mesh.bank b).count
      t.ownNum a 1 = n ∧ t.ownNum (a + 1) 1 = 0 ∧ t.ownNum (a + 8) 4 = 0 ∧
      (∀ i p, i < n → p < 64 → t.ownNum (a + 64 + 128 * i + 2 * p) 2 = (((s.me.mesh.bank b).row i).getD p 0).toNat) ∧
      (∀ i, i < 128 → t.ownNum (a + 64 + 128 * n + 2 * i) 2 = ((s.me.mesh.bank b).scale.getD i 0).toNat) ∧
      (∀ x, (x < a ∨ a + 320 + 128 * n ≤ x) → t.ownByte x = s.ownByte x) ∧ t.me.mesh.banks = s.me.mesh.banks
  | .scale d b =>
      t.me.mesh.bank d = { s.me.mesh.bank d with scale := (s.me.mesh.bank b).scale } ∧
      (∀ k, k ≠ d → t.me.mesh.bank k = s.me.mesh.bank k) ∧ t.me.store = s.me.store
  | .clrWindow lo k =>
      (∀ x, memGet t.me.store.acc x = if 8 * lo ≤ x ∧ x < 8 * (lo + 4096 * k) then 0 else memGet s.me.store.acc x) ∧
      t.me.store.anchors = s.me.store.anchors ∧ t.me.mesh.banks = s.me.mesh.banks
  | .clrBank b =>
      (∀ i p, ((t.me.mesh.bank b).row i).getD p 0 = 0) ∧ (∀ i, (t.me.mesh.bank b).scale.getD i 0 = 0) ∧
      (t.me.mesh.bank b).count = 0 ∧ (∀ k, k ≠ b → t.me.mesh.bank k = s.me.mesh.bank k) ∧ t.me.store = s.me.store
  | .slice win _ _ _ _ _ _ b _ =>
      t.me.store = s.me.store ∧ t.me.mesh.banks = s.me.mesh.banks ∧
      ∀ x ∈ s.me.mesh.batches, x.id = b → ∀ w ∈ x.wins, w.win = win → ∃ x' ∈ t.me.mesh.batches, x'.id = b ∧
        ∃ w' ∈ x'.wins, w'.win = win ∧ w'.sums = w.sums ∧
          ∀ n, n < 128 → assocGet w'.words (8 + n) = some (((o.panel.getD s.me.mesh.panelNow).cols.getD n 0).setWidth 64)
  | _ => t.me.store = s.me.store ∧ t.me.mesh.banks = s.me.mesh.banks ∧ t.me.mesh.batches = s.me.mesh.batches

/-- The operation has no vectors to come; the banks that it names are banks, and what a bank holds has the size of R129. -/
def State.banksFit (s : State) : MeshKind → Prop
  | .load b _ _ _ => b < 8
  | .store _ b => b < 8 ∧ (∀ i, ((s.me.mesh.bank b).row i).length = 64) ∧ (s.me.mesh.bank b).scale.length = 128 ∧
      (s.me.mesh.bank b).count ≤ 128
  | .scale d b => d < 8 ∧ b < 8
  | .clrBank b => b < 8
  | .clrWindow _ _ => True
  | .sweep _ _ _ _ _ _ n _ => n = 0
  | .slice _ _ _ _ m _ _ _ _ => m = 0
  | .retire _ _ _ _ m _ _ _ _ => m = 0
  | .derive .. => False
  | .panel .. => False

/-- R131: MESH_OPERATION_COMPLETE of an operation that handles no vectors. -/
def opCompleteClaim (id : Nat) (o : MeshOp) : EventClaim :=
  { parts := [.mesh, .pend, .spad, .acc]
    pre := fun s => o.id = id ∧ s.worksOn o ∧ s.banksFit o.kind
    post := fun s t => s.opGone t id ∧ s.opDone t o }

/-- R142: SWEEP_SEGMENT_END: the sweep goes on with its next segment. -/
def segmentClaim (id : Nat) (o : MeshOp) : EventClaim :=
  { parts := [.mesh]
    pre := fun s => o.id = id ∧ s.worksOn o ∧ o.seg = 1
    post := fun s t => t.me.mesh = { s.me.mesh with
      ops := s.me.mesh.ops.map fun x => if x.id = id then { o with seg := 0 } else x } }

/-- R142: the vectors left in the segment that the sweep is in, or begins. -/
def State.segmentLeft (s : State) (o : MeshOp) : Nat := if o.seg = 0 then s.me.sys.sweepmax.toNat % 2 ^ 13 else o.seg - 1

/-- R28, R31, R141: a vector through a bank under profile 1: the scale column before stage 0 or after stage 127. -/
def throughBank (b : Bank) (first : Bool) (v : BxVec) : BxVec :=
  let scaled := fun u => bxRenorm (b.scale.map (·.toNat)) u
  let turned := fun u : BxVec => if u.exp = bxNanExp then u else ⟨(passStages none 0 (b.rows.take 128) u.lanes).1, u.exp⟩
  if first = true then turned (scaled v) else if v.exp = bxNanExp then v else scaled (turned v)

/-- R141: MESH_VECTOR_APPENDED of a sweep under profile 1 without index streams: the source's head, through the bank, is appended
to the destination. -/
def sweepVectorClaim (id : Nat) (o : MeshOp) (d z b : Nat) (first : Bool) (n : Nat) (v : VReg) (r : List VReg) : EventClaim :=
  { parts := [.mesh, .stream (BitVec.ofNat 4 d), .stream (BitVec.ofNat 4 z)]
    pre := fun s => o.id = id ∧ s.worksOn o ∧ o.kind = .sweep d z b false false first n false ∧ o.next < n ∧ o.seg ≠ 1 ∧ o.inside = [] ∧
      d < 16 ∧ z < 16 ∧ d ≠ z ∧ (s.me.stream (BitVec.ofNat 4 z)).st = .running ∧ (s.me.stream (BitVec.ofNat 4 z)).rotates ∧
      (s.me.stream (BitVec.ofNat 4 z)).forM ∧ (s.me.stream (BitVec.ofNat 4 z)).buf = v :: r ∧
      (s.me.stream (BitVec.ofNat 4 d)).st = .running ∧ (s.me.stream (BitVec.ofNat 4 d)).rotated ∧
      (s.me.stream (BitVec.ofNat 4 d)).buf.length < 8 ∧
      ((s.me.stream (BitVec.ofNat 4 d)).pat.direct = true ∨
        (s.me.stream (BitVec.ofNat 4 d)).taken < (s.me.stream (BitVec.ofNat 4 d)).vectors)
    post := fun s t =>
      (t.me.stream (BitVec.ofNat 4 z)).buf = r ∧
      (t.me.stream (BitVec.ofNat 4 d)).buf = (s.me.stream (BitVec.ofNat 4 d)).buf ++ [(throughBank (s.me.mesh.bank b) first v.toBx).toVReg] ∧
      (if o.next + 1 = n then s.opGone t id
       else t.me.mesh.ops = s.me.mesh.ops.map fun x => if x.id = id then
         { o with next := o.next + 1, seg := s.segmentLeft o, gidx := [], sidx := [] } else x) ∧
      t.me.mesh.banks = s.me.mesh.banks ∧ t.me.mesh.batches = s.me.mesh.batches }

/-- R147: the sum of one pair, row and column: the products over K, modulo 2^64. -/
def sliceSum (a : List Int) (plane : List (List Int)) (n : Nat) : BitVec 64 :=
  BitVec.ofInt 64 (((a.zip plane).map fun q => q.1 * q.2.getD n 0).sum)

/-- R147: SLICE_PAIR_BOUNDARY of a step, under profile 2 or 0: pair number o.pair of row o.next is computed into its batch. -/
def slicePairClaim (id : Nat) (o : MeshOp) (p : Panel) (win z n : Nat) (full : Bool) (m h kp b : Nat) (free : Bool) (i j : Nat) :
    EventClaim :=
  { parts := [.mesh]
    pre := fun s => o.id = id ∧ s.worksOn o ∧ o.kind = .slice win z n full m h kp b free ∧ o.panel = some p ∧ o.next < m ∧
      o.rows.length = vectorsPerRow h n kp ∧ (pairSet n full)[o.pair]? = some (i, j) ∧
      (∀ q, ∀ l ∈ p.plane q, l.length = 128)
    post := fun s t =>
      (if o.pair + 1 < (pairSet n full).length then
        t.me.mesh.ops = s.me.mesh.ops.map fun x => if x.id = id then { o with pair := o.pair + 1 } else x
       else if o.next + 1 = m then s.opGone t id
       else t.me.mesh.ops = s.me.mesh.ops.map fun x => if x.id = id then { o with next := o.next + 1, pair := 0, rows := [] } else x) ∧
      (∀ x ∈ s.me.mesh.batches, x.id = b → ∀ w ∈ x.wins, w.win = win → ∃ x' ∈ t.me.mesh.batches, x'.id = b ∧
        ∃ w' ∈ x'.wins, w'.win = win ∧ w'.base = w.base ∧ (assocGet w.sums (o.pair * w.m + o.next) = none →
          ∃ l, assocGet w'.sums (o.pair * w.m + o.next) = some l ∧
            ∀ c, c < 128 → l.getD c 0 = sliceSum (rowSlice o.rows h kp i) (p.plane j) c)) }

/-- R146, R148: BATCH_WRITE_BACK of the oldest batch, committed, its steps complete. -/
def writeBackClaim (b : Batch) (bs : List Batch) : EventClaim :=
  { parts := [.mesh, .acc, .pend]
    pre := fun s => s.me.phase.meshRuns = true ∧ s.me.mesh.batches = b :: bs ∧ b.name ≠ none ∧ (∀ x ∈ bs, x.id ≠ b.id) ∧
      ∀ o ∈ s.me.mesh.ops, ∀ w z n full m h kp k free, o.kind = .slice w z n full m h kp k free → k ≠ b.id
    post := fun s t => t.me.mesh = { s.me.mesh with batches := bs } ∧
      (b.wins = [] → ∀ x, memGet t.me.store.acc x = memGet s.me.store.acc x) ∧
      ∀ w, b.wins = [w] → w.words = [] → ∀ k l, w.sums = [(k, l)] → ∀ n, n < 128 →
        wordGet t.me.store.acc (w.win + 1024 + 128 * k + n) = wordGet w.base (w.win + 1024 + 128 * k + n) + l.getD n 0 }

end Sys2Proof.Machine
end

