-- ==== Sys2Proof/Claims/Doorbells.lean ====
section
/-! DEFINITION. What the manual gives for the commands of the five doorbells (13_context R260 to R270, 14_queue R272 to R282,
20_barrier R312 to R320, 21_link R321 to R334, 23_page R342 to R350). -/

namespace Sys2Proof.Machine

/-! ## Commands -/

/-- R270, R282: a command is accepted: the front end is ready, its record is in memory that exists, or has come from another module
(log entry 48), has the OP, and no other command goes before it. -/
structure State.Rung (s : State) (b : Bell) (op cmd : Nat) : Prop where
  ready : s.boot.ready = true
  here : s.isOwn cmd = true → hbmPresent s.part (paLocal cmd) 64 = true
  come : s.recordMissing cmd = false
  turn : s.fe.bells = [] ∨ s.fe.bells.head? = some (b, cmd)
  code : recField (s.cmdBytes cmd) 0 1 = op

/-- The command has left the order of commands. -/
def State.rung (s : State) : State := { s with fe := { s.fe with bells := s.fe.bells.tail } }

/-- What a claim says about a command: its doorbell, OP and record, whether it names a context and has an aligned record, the condition (of the record and the
state), an operation that is (part of) its effect, its STATUS, none where STATUS comes later, the parts that it may change, and
what else it does before STATUS is written (of the record, the state before, the state after the operation, and the state then). -/
structure CmdClaim where
  bell : Bell
  op : Nat
  cmd : Nat
  named : Bool := true
  aligned : Bool := true
  pre : List Byte → State → Prop
  does : List Byte → State → State := fun _ s => s
  status : List Byte → State → Option Nat := fun _ _ => some 1
  parts : List Aspect := []
  post : List Byte → State → State → State → Prop := fun _ _ _ _ => True

/-- R270: the end of a command: STATUS at byte 1 of its record and a host event of CLASS 1 that names it. A record in another module
is written by a store that the front end does not await (log entry 48). -/
def State.reported (u : State) (cmd ctx : Nat) : Option Nat → State
  | none => u
  | some st => ((u.dropLines (.bell cmd)).putPa ctx (cmd + 1) (leBytes 1 st) (.bell cmd)).event 1 ctx st cmd

/-- The claim is true of a command. -/
def CmdClaim.Holds (c : CmdClaim) (i : Instr) : Prop :=
  ∀ s : State, s.Rung c.bell c.op c.cmd → (c.cmd % 64 = 0 ↔ c.aligned = true) → c.pre (s.cmdBytes c.cmd) s.rung →
    ∃ u, exec i s =
        .next (u.reported c.cmd (if c.named = true then recField (s.cmdBytes c.cmd) 2 1 else 0xFF) (c.status (s.cmdBytes c.cmd) s.rung)) ∧
      c.post (s.cmdBytes c.cmd) s.rung (c.does (s.cmdBytes c.cmd) s.rung) u ∧
      ∀ p, p ∉ c.parts → (c.does (s.cmdBytes c.cmd) s.rung).same u p

/-- A command that does nothing but report a status. -/
def refusal (b : Bell) (op cmd : Nat) (named : Bool) (st : Nat) (pre : List Byte → State → Prop) : CmdClaim :=
  { bell := b, op := op, cmd := cmd, named := named, pre := pre, status := fun _ _ => some st }

/-- A report can stand at a physical address: in memory of this module that exists, or in another module. -/
def State.reportable (s : State) (pa n : Nat) : Prop := s.isOwn pa = true → hbmPresent s.part (paLocal pa) n = true

/-- From `a` to `t`, the front end has written a report of `n` bytes at a physical address, in memory of this module or by stores to
another, and nothing else has changed: each field (offset, bytes) holds its value, and every byte in none of them is zero. -/
def State.Reports (a t : State) (cmd ctx pa n : Nat) (fields : List (Nat × Nat × Nat)) : Prop :=
  ∃ bs : List Byte, bs.length = n ∧ (∀ f ∈ fields, recField bs f.1 f.2.1 = f.2.2 % 2 ^ (8 * f.2.1)) ∧
    (∀ k, k < n → (∀ f ∈ fields, k < f.1 ∨ f.1 + f.2.1 ≤ k) → bs.getD k 0 = 0) ∧ t = a.putReport ctx pa bs (.bell cmd)

/-- The other contexts are as they were. -/
def State.otherCtx (a t : State) (n : Nat) : Prop := ∀ m, m ≠ n → t.ctx m = a.ctx m

/-! ## Contexts -/

/-- R270: the reserved bytes of a context command are zero. -/
def ctxWell (r : List Byte) : Prop := recField r 3 5 = 0 ∧ recZero r 32 32 = true

/-- R270: the context that a command names. -/
def State.cmdCtx (s : State) (r : List Byte) : Option Context := s.ctx (recField r 2 1)

/-- R261, R262: the context that CREATE makes of a root RCB. -/
def State.created (s t : State) (n : Nat) (rcb : List Byte) : Prop :=
  (∃ k, t.ctx n = some k ∧ k.st = .ready ∧ k.root = rootPartOf rcb ∧ k.rcbs.length = 1 ∧ k.binds = [] ∧ k.gens = [] ∧
    k.routines = [] ∧ k.slots = [] ∧ k.bars = [] ∧ k.digests = Vector.replicate 4 0 ∧ k.gendrop = 0 ∧ k.revoked = 0 ∧ k.fault = none ∧
    k.accs = [] ∧ ∀ c, k.grants c = true → t.ctr c = 0) ∧
    s.otherCtx t n

/-- R262, R263: the accepted RCB at an address that REPLENISH finds or accepts. -/
def State.replenishable (s : State) (r : List Byte) : State :=
  match s.cmdCtx r with
  | none => s
  | some k =>
    if s.rcbAt (recField r 8 8) = true ∧ k.rcbs.all (fun x => x.addr != recField r 8 8) = true then
      (s.acceptRegion (recField r 2 1) (recField (s.rcbBytes (recField r 8 8)) 8 2)).getD s
    else s

/-- R260 to R270: the commands of CTXDB. -/
def ctxCommands : Instr → List CmdClaim
  | .create cmd =>
    [ { bell := .ctx, op := 1, cmd := cmd.toNat, parts := [.contexts, .counters, .hbm, .links]
        pre := fun r s => ctxWell r ∧ s.cmdCtx r = none ∧ s.rcbAt (recField r 8 8) = true ∧
          s.rootOk (s.rcbBytes (recField r 8 8)) = true ∧ s.grantConflict (rootPartOf (s.rcbBytes (recField r 8 8))) = false
        post := fun r s m t => m.created t (recField r 2 1) (s.rcbBytes (recField r 8 8)) },
      refusal .ctx 1 cmd.toNat true 2 (fun r s => ctxWell r ∧ (s.cmdCtx r).isSome = true),
      refusal .ctx 1 cmd.toNat true 4 (fun r s => ctxWell r ∧ s.cmdCtx r = none ∧
        (s.rcbAt (recField r 8 8) = false ∨ s.rootOk (s.rcbBytes (recField r 8 8)) = false)),
      refusal .ctx 1 cmd.toNat true 3 (fun r s => ctxWell r ∧ s.cmdCtx r = none ∧ s.rcbAt (recField r 8 8) = true ∧
        s.rootOk (s.rcbBytes (recField r 8 8)) = true ∧ s.grantConflict (rootPartOf (s.rcbBytes (recField r 8 8))) = true),
      refusal .ctx 1 cmd.toNat true 6 (fun r _ => ¬ctxWell r) ]
  | .destroy cmd =>
    [ { bell := .ctx, op := 2, cmd := cmd.toNat, status := fun _ _ => none
        pre := fun r s => ctxWell r ∧ ∃ k, s.cmdCtx r = some k ∧ (k.st = .ready ∨ k.st = .frozen)
        does := fun r s => (s.startDrain (recField r 2 1) cmd.toNat).dropLines (.bell cmd.toNat)
        post := fun r _ _ t => (∀ q ∈ t.fe.queues, q.2.ctx ≠ recField r 2 1) ∧ (∀ e ∈ t.fe.calendar, e.ctx ≠ recField r 2 1) ∧
          ∀ k, t.cmdCtx r = some k → ∀ x ∈ k.slots, x.2.st ≠ .armed },
      { bell := .ctx, op := 2, cmd := cmd.toNat, status := fun _ _ => none
        pre := fun r s => ctxWell r ∧ ∃ k, s.cmdCtx r = some k ∧ k.st = .freezing
        does := fun _ s => { s with fe := { s.fe with bells := (.ctx, cmd.toNat) :: s.fe.bells } } },
      refusal .ctx 2 cmd.toNat true 2 (fun r s => ctxWell r ∧ ∃ k, s.cmdCtx r = some k ∧ (k.st = .building ∨ k.st = .draining)),
      refusal .ctx 2 cmd.toNat true 5 (fun r s => ctxWell r ∧ s.cmdCtx r = none),
      refusal .ctx 2 cmd.toNat true 6 (fun r _ => ¬ctxWell r) ]
  | .replenish cmd =>
    [ { bell := .ctx, op := 3, cmd := cmd.toNat, parts := [.contexts]
        pre := fun r s => ctxWell r ∧ recField r 24 8 % 2 ^ 16 = 0 ∧
          (∃ k, s.cmdCtx r = some k ∧ k.st ≠ .building ∧ k.st ≠ .draining) ∧
          ∃ k, (s.replenishable r).cmdCtx r = some k ∧ (∃ x ∈ k.rcbs, x.addr = recField r 8 8)
        does := fun r s => s.replenishable r
        post := fun r _ m t => m.otherCtx t (recField r 2 1) ∧ ∀ k, m.cmdCtx r = some k →
          t.cmdCtx r = some (k.onRcbs [recField r 8 8] fun x =>
            { x with cbudget := min (x.cbudget + recField r 16 8) (2 ^ 64 - 1)
                     hbudget := min (x.hbudget + recField r 24 8) (2 ^ 64 - 1) }) },
      refusal .ctx 3 cmd.toNat true 4 (fun r s => ctxWell r ∧ recField r 24 8 % 2 ^ 16 = 0 ∧
        (∃ k, s.cmdCtx r = some k ∧ k.st ≠ .building ∧ k.st ≠ .draining) ∧
        ∀ k, (s.replenishable r).cmdCtx r = some k → ∀ x ∈ k.rcbs, x.addr ≠ recField r 8 8),
      refusal .ctx 3 cmd.toNat true 2 (fun r s => ctxWell r ∧ recField r 24 8 % 2 ^ 16 = 0 ∧
        ∃ k, s.cmdCtx r = some k ∧ (k.st = .building ∨ k.st = .draining)),
      refusal .ctx 3 cmd.toNat true 5 (fun r s => ctxWell r ∧ s.cmdCtx r = none),
      refusal .ctx 3 cmd.toNat true 6 (fun r s => ¬ctxWell r ∨ recField r 24 8 % 2 ^ 16 ≠ 0 ∧ (s.cmdCtx r).isSome = true) ]
  | .ctxRead cmd =>
    [ { bell := .ctx, op := 4, cmd := cmd.toNat, parts := [.hbm, .links]
        pre := fun r s => ctxWell r ∧ (s.cmdCtx r).isSome = true ∧ s.reportable (recField r 8 8) 256
        does := fun r s => s.writeAllCharges (recField r 2 1)
        post := fun r s m t => ∀ k, s.cmdCtx r = some k →
          m.Reports t cmd.toNat (recField r 2 1) (recField r 8 8) 256
            ([(0, 1, k.st.code), (8, 8, ((k.fault.map FaultRec.cause).getD 0).toNat), (16, 8, ((k.fault.map FaultRec.addr).getD 0).toNat),
              (24, 4, ((k.fault.map FaultRec.group).getD 0).toNat), (28, 4, ((k.fault.map FaultRec.further).getD 0).toNat),
              (32, 16, (k.digests.getD 0 0).toNat), (48, 16, (k.digests.getD 1 0).toNat), (64, 16, (k.digests.getD 2 0).toNat),
              (80, 16, (k.digests.getD 3 0).toNat), (96, 4, k.gendrop.toNat), (100, 4, k.revoked.toNat),
              (104, 8, ((k.rcb 0).map fun (x : Rcb) => x.cusedNs / 1000).getD 0)]) },
      refusal .ctx 4 cmd.toNat true 5 (fun r s => ctxWell r ∧ s.cmdCtx r = none),
      refusal .ctx 4 cmd.toNat true 6 (fun r _ => ¬ctxWell r) ]
  | _ => []

/-! ## Queues -/

/-- R282: the fields of a queue command; ADDR is used by ENABLE and READ alone, and nothing is said of it for the others. -/
def queueWell (r : List Byte) : Prop :=
  recField r 3 1 = 0 ∧ recField r 4 2 < 1024 ∧ recField r 6 2 = 0 ∧ recZero r 16 48 = true

/-- R282: a queue command that names a queue of its context. -/
def State.queueNamed (s : State) (r : List Byte) (k : Context) : Prop :=
  queueWell r ∧ s.cmdCtx r = some k ∧ k.root.qfirst ≤ recField r 4 2 ∧ recField r 4 2 < k.root.qfirst + k.root.qcount

/-- The other queues are as they were. -/
def State.otherHq (a t : State) (n : Nat) : Prop := ∀ m, m ≠ n → t.hq m = a.hq m

/-- R282: what every queue command refuses. -/
def queueRefusals (op : Nat) (cmd : BitVec 52) : List CmdClaim :=
  [ refusal .queue op cmd.toNat true 6 (fun r _ => ¬queueWell r),
    refusal .queue op cmd.toNat true 5 (fun r s => queueWell r ∧ s.cmdCtx r = none),
    refusal .queue op cmd.toNat true 7 (fun r s => queueWell r ∧ ∃ k, s.cmdCtx r = some k ∧
      (recField r 4 2 < k.root.qfirst ∨ k.root.qfirst + k.root.qcount ≤ recField r 4 2)) ]

/-- The bytes of the control record that ENABLE names. -/
def State.ctlBytes (s : State) (r : List Byte) : List Byte := s.hbmBytes (paLocal (recField r 8 8)) 64

/-- R272, R273: the queue that ENABLE makes of a control record. -/
def HQueue.isNew (h : HQueue) (ctx head : Nat) (c : List Byte) : Prop :=
  h.ctx = ctx ∧ h.st = .active ∧ h.ring = recField c 0 8 ∧ h.logn = recField c 8 1 ∧ h.ordered = (bitsOf (recField c 9 1) 0 1 == 1) ∧
    h.crep = (bitsOf (recField c 9 1) 1 1 == 1) ∧ h.rid = recField c 10 2 ∧ h.hangms = recField c 12 2 ∧ h.cring = recField c 16 8 ∧
    h.clog = recField c 24 1 ∧ h.head = head ∧ h.done = head ∧ h.entries = [] ∧ h.ccount = 0 ∧ h.fault = 0 ∧ h.bad = []

/-- R272 to R282: the commands of QDB. -/
def queueCommands : Instr → List CmdClaim
  | .enable cmd =>
    [ { bell := .queue, op := 1, cmd := cmd.toNat, parts := [.frontEnd, .hbm]
        pre := fun r s => (∃ k, s.queueNamed r k ∧ k.st = .ready) ∧ s.hq (recField r 4 2) = none ∧
          s.ownMemory (recField r 8 8) 64 = true ∧ s.ctlOk (s.ctlBytes r) = true ∧
          (s.acceptRegion (recField r 2 1) (recField (s.ctlBytes r) 10 2)).isSome = true
        does := fun r s => (s.acceptRegion (recField r 2 1) (recField (s.ctlBytes r) 10 2)).getD s
        post := fun r s m t =>
          ∃ h, t.hq (recField r 4 2) = some h ∧
            h.isNew (recField r 2 1) (m.hbmVal (paLocal (recField (s.ctlBytes r) 0 8) + 8) 8) (s.ctlBytes r) ∧
            memVal t.mem.hbm (paLocal h.ring + 16) 8 = h.head ∧ memVal t.mem.hbm (paLocal h.ring + 24) 8 = 0 ∧
            m.otherHq t (recField r 4 2) },
      refusal .queue 1 cmd.toNat true 2 (fun r s => ∃ k, s.queueNamed r k ∧ (k.st ≠ .ready ∨ (s.hq (recField r 4 2)).isSome = true)),
      refusal .queue 1 cmd.toNat true 4 (fun r s => ∃ k, s.queueNamed r k ∧ k.st = .ready ∧ s.hq (recField r 4 2) = none ∧
        (s.ownMemory (recField r 8 8) 64 = false ∨ s.ctlOk (s.ctlBytes r) = false ∨ s.acceptRegion (recField r 2 1) (recField (s.ctlBytes r) 10 2) = none)) ] ++ queueRefusals 1 cmd
  | .disable cmd =>
    [ { bell := .queue, op := 2, cmd := cmd.toNat, parts := [.frontEnd, .links]
        pre := fun r s => (∃ k, s.queueNamed r k) ∧ ∀ h, s.hq (recField r 4 2) = some h →
          h.st ≠ .cancelling ∧ ∀ e ∈ h.entries, e.st ≠ .started
        post := fun r _ m t => t.hq (recField r 4 2) = none ∧ m.otherHq t (recField r 4 2) },
      refusal .queue 2 cmd.toNat true 2 (fun r s => (∃ k, s.queueNamed r k) ∧ ∃ h, s.hq (recField r 4 2) = some h ∧
        (h.st = .cancelling ∨ ∃ e ∈ h.entries, e.st = .started)) ] ++ queueRefusals 2 cmd
  | .resume cmd =>
    [ { bell := .queue, op := 3, cmd := cmd.toNat, parts := [.frontEnd]
        pre := fun r s => (∃ k, s.queueNamed r k ∧ k.st = .ready) ∧ ∃ h, s.hq (recField r 4 2) = some h ∧ h.st = .frozen
        post := fun r _ m t => m.otherHq t (recField r 4 2) ∧ ∀ h, m.hq (recField r 4 2) = some h →
          t.hq (recField r 4 2) = some { h with st := .active, fault := 0 } },
      refusal .queue 3 cmd.toNat true 2 (fun r s => ∃ k, s.queueNamed r k ∧
        (k.st ≠ .ready ∨ ∀ h, s.hq (recField r 4 2) = some h → h.st ≠ .frozen)) ] ++ queueRefusals 3 cmd
  | .flush cmd =>
    [ { bell := .queue, op := 4, cmd := cmd.toNat, parts := [.frontEnd]
        pre := fun r s => (∃ k, s.queueNamed r k ∧ k.st = .ready) ∧ ∃ h, s.hq (recField r 4 2) = some h ∧ h.st = .frozen
        does := fun r s => match s.hq (recField r 4 2) with
          | none => s
          | some h => cancelAll (recField r 4 2) (s.tail h - h.head) s
        post := fun r s m t => m.otherHq t (recField r 4 2) ∧ ∀ h, m.hq (recField r 4 2) = some h →
          ∃ k, s.hq (recField r 4 2) = some k ∧ t.hq (recField r 4 2) = some { h with st := .active, fault := 0, bad := k.bad } },
      refusal .queue 4 cmd.toNat true 2 (fun r s => ∃ k, s.queueNamed r k ∧
        (k.st ≠ .ready ∨ ∀ h, s.hq (recField r 4 2) = some h → h.st ≠ .frozen)) ] ++ queueRefusals 4 cmd
  | .queueRead cmd =>
    [ { bell := .queue, op := 5, cmd := cmd.toNat, parts := [.hbm, .links]
        pre := fun r s => (∃ k, s.queueNamed r k) ∧ s.reportable (recField r 8 8) 64
        post := fun r s m t => m.Reports t cmd.toNat (recField r 2 1) (recField r 8 8) 64
          (match s.hq (recField r 4 2) with
          | none => []
          | some h =>
            [(0, 1, match h.st with | .active => 1 | .cancelling => 2 | .frozen => 3), (1, 1, h.fault), (8, 8, h.head), (16, 8, h.done),
             (24, 8, h.failed)]) } ] ++ queueRefusals 5 cmd
  | _ => []

/-! ## Barriers -/

/-- R312, R313: the fields of a barrier command hold what its OP allows. -/
def barWell (op : Nat) (r : List Byte) : Prop :=
  recField r 6 2 = 0 ∧ recField r 15 1 = 0 ∧ recField r 44 4 = 0 ∧ recZero r 56 8 = true ∧ recField r 4 2 < 4096 ∧
    recField r 12 2 < 1024 ∧ (op = 4 ∨ recField r 48 8 = 0)

/-- R312, R313: the watch range that CONFIGURE gives. -/
def watchWell (r : List Byte) : Prop :=
  if recField r 16 8 = 0 then recField r 24 8 = 0
  else
    eaReserved (BitVec.ofNat 64 (recField r 16 8)) = false ∧
      ((eaOf (BitVec.ofNat 64 (recField r 16 8))).space = .virt ∨
        (eaOf (BitVec.ofNat 64 (recField r 16 8))).space = .acc ∧ (eaOf (BitVec.ofNat 64 (recField r 16 8))).group ≠ none)

/-- R312, R313: the scope of a barrier command and the fields that fit it. -/
def configWell (r : List Byte) (modnum : Nat) : Prop :=
  1 ≤ recField r 3 1 ∧ recField r 3 1 ≤ 4 ∧ (recField r 3 1 = 1 ↔ recField r 8 4 = 0) ∧
    (recField r 3 1 = 4 → 1 ≤ recField r 14 1 ∧ recField r 14 1 ≤ 16) ∧
    (recField r 3 1 ≠ 4 → recField r 14 1 = 0 ∧ recField r 40 4 = 0) ∧
    (recField r 3 1 ≤ 2 → recField r 12 2 = modnum) ∧ watchWell r ∧
    (recField r 3 1 = 1 → recField r 24 8 ≠ 0 →
      (eaOf (BitVec.ofNat 64 (recField r 16 8))).space = .acc ∧ (eaOf (BitVec.ofNat 64 (recField r 16 8))).group = some 0)

/-- R312: a barrier command in a READY context. -/
def State.barNamed (s : State) (op : Nat) (r : List Byte) : Prop :=
  barWell op r ∧ configWell r s.boot.modnum ∧ ∃ k, s.cmdCtx r = some k ∧ k.st = .ready

/-- The barrier that a command names. -/
def State.cmdBar (s : State) (r : List Byte) : Option Barrier := s.bar (recField r 2 1) (recField r 4 2)

/-- R313: the watch range of a CONFIGURE overlaps one of its context. -/
def State.watchTaken (s : State) (r : List Byte) : Prop :=
  ∃ k, s.cmdCtx r = some k ∧ ∃ b ∈ k.bars,
    watchOverlap (recField r 3 1) (BitVec.ofNat 64 (recField r 16 8)) (recField r 24 8) b.2.scope b.2.wbase b.2.wlen = true

/-- The other barriers of the context, and all else of it, are as they were. -/
def State.otherBars (a t : State) (r : List Byte) : Prop :=
  a.otherCtx t (recField r 2 1) ∧ ∀ k, a.cmdCtx r = some k → ∃ l, t.cmdCtx r = some { k with bars := l } ∧
    ∀ n, n ≠ recField r 4 2 → assocGet l n = assocGet k.bars n

/-- R316: no episode of a barrier has a join or an arrival, and no join waits for its home. -/
def Barrier.Idle (b : Barrier) : Prop := b.unanswered = 0 ∧ ∀ e ∈ b.episodes, e.joins = 0 ∧ e.counter = 0

/-- R312: what every barrier command refuses. -/
def barRefusals (op : Nat) (cmd : BitVec 52) : List CmdClaim :=
  [ refusal .bar op cmd.toNat true 6 (fun r s => ¬barWell op r ∨ ¬configWell r s.boot.modnum),
    refusal .bar op cmd.toNat true 5 (fun r s => barWell op r ∧ configWell r s.boot.modnum ∧
      ∀ k, s.cmdCtx r = some k → k.st ≠ .ready) ]

/-- R312 to R320: the commands of BARDB. -/
def barCommands : Instr → List CmdClaim
  | .configure cmd =>
    [ { bell := .bar, op := 1, cmd := cmd.toNat, parts := [.contexts]
        pre := fun r s => s.barNamed 1 r ∧ s.cmdBar r = none ∧ ¬s.watchTaken r
        post := fun r _ m t => m.otherBars t r ∧ ∃ b, t.cmdBar r = some b ∧ b.scope = recField r 3 1 ∧ b.pcount = recField r 8 4 ∧
          b.home = recField r 12 2 ∧ b.ndom = recField r 14 1 ∧ b.wbase = BitVec.ofNat 64 (recField r 16 8) ∧ b.wlen = recField r 24 8 ∧
          b.peers = recField r 32 8 ∧ b.xmargin = recField r 40 4 ∧ b.broken = false ∧ b.episodes = [] ∧ b.opened = 0 ∧
          b.unanswered = 0 ∧ b.late = 0 },
      refusal .bar 1 cmd.toNat true 2 (fun r s => s.barNamed 1 r ∧ (s.cmdBar r).isSome = true),
      refusal .bar 1 cmd.toNat true 3 (fun r s => s.barNamed 1 r ∧ s.cmdBar r = none ∧ s.watchTaken r) ] ++ barRefusals 1 cmd
  | .remove cmd =>
    [ { bell := .bar, op := 2, cmd := cmd.toNat, parts := [.contexts]
        pre := fun r s => s.barNamed 2 r ∧ ∀ b, s.cmdBar r = some b → s.barWaiting (recField r 2 1) (recField r 4 2) = false ∧
          (b.broken = true ∨ b.Idle)
        post := fun r _ m t => m.otherBars t r ∧ t.cmdBar r = none },
      refusal .bar 2 cmd.toNat true 2 (fun r s => s.barNamed 2 r ∧ ∃ b, s.cmdBar r = some b ∧
        (s.barWaiting (recField r 2 1) (recField r 4 2) = true ∨ b.broken = false ∧ ¬b.Idle)) ] ++ barRefusals 2 cmd
  | .barrierReset cmd =>
    [ { bell := .bar, op := 3, cmd := cmd.toNat, pre := fun r s => s.barNamed 3 r ∧ s.cmdBar r = none },
      { bell := .bar, op := 3, cmd := cmd.toNat, parts := [.contexts]
        pre := fun r s => s.barNamed 3 r ∧ (∃ b, s.cmdBar r = some b ∧ b.broken = true) ∧
          s.barWaiting (recField r 2 1) (recField r 4 2) = false
        post := fun r _ m t => m.otherBars t r ∧ t.cmdBar r = (m.cmdBar r).map fun b =>
          { b with broken := false, episodes := [], opened := b.oldest + 1, unanswered := 0 } },
      { bell := .bar, op := 3, cmd := cmd.toNat
        pre := fun r s => s.barNamed 3 r ∧ (∃ b, s.cmdBar r = some b ∧ b.broken = false) ∧
          s.barWaiting (recField r 2 1) (recField r 4 2) = false
        does := fun r s => match s.cmdBar r with
          | none => s
          | some b => (s.tellBroken (recField r 2 1) (recField r 4 2) b).breakBar (recField r 2 1) (recField r 4 2)
        post := fun r s _ t => s.otherBars t r ∧ t.cmdBar r = (s.cmdBar r).map fun b => { b with broken := true } },
      refusal .bar 3 cmd.toNat true 2 (fun r s => s.barNamed 3 r ∧ (s.cmdBar r).isSome = true ∧
        s.barWaiting (recField r 2 1) (recField r 4 2) = true) ] ++ barRefusals 3 cmd
  | .barrierRead cmd =>
    [ { bell := .bar, op := 4, cmd := cmd.toNat, parts := [.hbm, .links]
        pre := fun r s => s.barNamed 4 r ∧ s.reportable (recField r 48 8) 64
        post := fun r s m t => m.Reports t cmd.toNat (recField r 2 1) (recField r 48 8) 64
          (match s.cmdBar r with
          | none => []
          | some b => [(0, 8, b.code), (8, 8, (b.episodes.head?.map Episode.num).getD b.opened),
              (16, 8, ((b.episodes.head?.map Episode.joins).getD 0 + b.unanswered) % 2 ^ 32),
              (24, 8, (((b.episodes.head?.map fun (x : Episode) => x.counter).getD 0) +
                s.heldArrivals (recField r 2 1) (recField r 4 2)).toNat),
              (32, 8, b.late.toNat)]) } ] ++ barRefusals 4 cmd
  | _ => []

/-- R320: the code of a barrier: 5 BROKEN, else by its oldest episode: 4 RELEASING, 1 IDLE, 3 joined, 2 joining; a join that its home has
not answered counts (log entry 43). -/
def Barrier.HasCode (b : Barrier) (n : Nat) : Prop :=
  if b.broken = true then n = 5
  else
    match b.episodes.head? with
    | none => n = if b.unanswered = 0 then 1 else 2
    | some x =>
      if x.releasing = true then n = 4
      else if x.joins + b.unanswered = 0 ∧ x.counter = 0 then n = 1
      else if x.joins = x.goal then n = 3
      else n = 2

/-! ## Links -/

/-- R328: the fields of a link command: those that its OP does not use are zero, and the others fit. -/
def linkWell (r : List Byte) : Prop := (linkCmd r).ok = true

/-- R328: the port that a command names, where the part has it. -/
def State.cmdPort (s : State) (r : List Byte) : Option Port := s.port (recField r 3 1)

/-- The other queue pairs are as they were. -/
def State.otherQps (a t : State) (n : Nat) : Prop := ∀ m, m ≠ n → t.qp m = a.qp m

/-- R328: a link command whose fields fail. -/
def linkRefusal (op : Nat) (cmd : BitVec 52) : CmdClaim := refusal .link op cmd.toNat (op == 1) 6 (fun r _ => ¬linkWell r)

/-- R329: the pair that QPOPEN makes: CONNECTING, with the names of the record and nothing sent or counted before. -/
def QPair.isNew (q : QPair) (r : List Byte) : Prop :=
  q.st = .connecting ∧ q.ctx = recField r 2 1 ∧ q.port = recField r 3 1 ∧ q.rqp = recField r 6 2 ∧ q.rmod = recField r 8 2 ∧
    q.eth = (recField r 10 1 == 1) ∧ q.rctx = recField r 11 1 ∧ q.dscp = recField r 12 1 ∧
    q.udpp = (if recField r 14 2 = 0 then 46170 else recField r 14 2) ∧ q.ip = BitVec.ofNat 128 (recField r 16 16) ∧
    q.losses = 0 ∧ q.applied = 0 ∧ q.completed = 0 ∧ q.recs = [] ∧ q.rxPsn = 0 ∧ q.resends = 0

/-- R321, R328 to R334: the commands of LINKDB. -/
def linkCommands : Instr → List CmdClaim
  | .qpopen cmd =>
    let opens (r : List Byte) (s : State) : Prop := linkWell r ∧ ∃ k, s.cmdCtx r = some k ∧ k.st = .ready
    let there (r : List Byte) (s : State) : Prop :=
      (recField r 10 1 = 1 → s.part.ethernet ≠ []) ∧ (recField r 3 1 = 0xFF ∨ (s.cmdPort r).isSome = true)
    [ { bell := .link, op := 1, cmd := cmd.toNat, parts := [.links]
        pre := fun r s => opens r s ∧ there r s ∧ ∀ q, s.qp (recField r 4 2) = some q → q.st = .closed
        post := fun r s _ t => ∃ q, t.qp (recField r 4 2) = some q ∧ q.isNew r ∧ q.lastConnect = s.time.now },
      refusal .link 1 cmd.toNat true 5 (fun r s => linkWell r ∧ ∀ k, s.cmdCtx r = some k → k.st ≠ .ready),
      refusal .link 1 cmd.toNat true 7 (fun r s => opens r s ∧ ¬there r s),
      refusal .link 1 cmd.toNat true 2 (fun r s => opens r s ∧ there r s ∧ ∃ q, s.qp (recField r 4 2) = some q ∧ q.st ≠ .closed),
      linkRefusal 1 cmd ]
  | .qpclose cmd =>
    [ { bell := .link, op := 2, cmd := cmd.toNat, named := false, parts := [.links]
        pre := fun r _ => linkWell r
        post := fun r _ m t =>
          match m.qp (recField r 4 2) with
          | none => t = m
          | some q =>
            match q.st with
            | .closed => t = m
            | .closing => t = m
            | .connecting => m.otherQps t (recField r 4 2) ∧ t.qp (recField r 4 2) = some { q with st := .closed }
            | .connected => ∃ u, t.qp (recField r 4 2) = some u ∧ u.st = .closing ∧ u.recs = q.recs },
      linkRefusal 2 cmd ]
  | .qpread cmd =>
    [ { bell := .link, op := 3, cmd := cmd.toNat, named := false, parts := [.hbm, .links]
        pre := fun r s => linkWell r ∧ s.reportable (recField r 40 8) 64
        post := fun r _ m t => m.Reports t cmd.toNat 0 (recField r 40 8) 64
          (match m.qp (recField r 4 2) with
          | none => []
          | some q => [(0, 4, match q.st with | .closed => 0 | .connecting => 1 | .connected => 2 | .closing => 3), (4, 4, q.losses.toNat),
              (8, 8, q.applied.toNat), (16, 8, q.completed.toNat)]) },
      linkRefusal 3 cmd ]
  | .portfence cmd =>
    [ { bell := .link, op := 4, cmd := cmd.toNat, named := false
        pre := fun r s => linkWell r ∧ (s.cmdPort r).isSome = true
        does := fun r s => s.rerouted (s.onPort (recField r 3 1) fun p =>
          if p.st = .up ∨ p.st = .degraded then
            { p with st := .fenced, lanes := 0, since := s.time.now, fencing := if p.replay = [] then none else some s.time.now }
          else p) },
      refusal .link 4 cmd.toNat false 7 (fun r s => linkWell r ∧ s.cmdPort r = none),
      linkRefusal 4 cmd ]
  | .portunfence cmd =>
    [ { bell := .link, op := 5, cmd := cmd.toNat, named := false
        pre := fun r s => linkWell r ∧ ∃ p, s.cmdPort r = some p ∧ p.st ≠ .fenced ∧ p.st ≠ .down },
      { bell := .link, op := 5, cmd := cmd.toNat, named := false
        pre := fun r s => linkWell r ∧ ∃ p, s.cmdPort r = some p ∧ (p.st = .fenced ∨ p.st = .down)
        does := fun r s => s.trainPort (recField r 3 1)
        post := fun r s _ _ => ∀ p, s.cmdPort r = some p →
          let u := p.train s.time.now
          (u.st = .training ∨ u.st = .fenced) ∧ u.lanes = 0 ∧ u.trainings = satAdd32 p.trainings 1 },
      refusal .link 5 cmd.toNat false 7 (fun r s => linkWell r ∧ s.cmdPort r = none),
      linkRefusal 5 cmd ]
  | .route cmd =>
    [ { bell := .link, op := 6, cmd := cmd.toNat, named := false
        pre := fun r _ => linkWell r
        does := fun r s => s.rerouted { s with links := { s.links with
          routes := assocSet s.links.routes (recField r 4 2) (BitVec.ofNat 24 (recField r 32 4)) } }
        post := fun r s _ t => assocGet t.links.routes (recField r 4 2) = some (BitVec.ofNat 24 (recField r 32 4)) ∧
          ∀ n, n ≠ recField r 4 2 → assocGet t.links.routes n = assocGet s.links.routes n },
      linkRefusal 6 cmd ]
  | .portread cmd =>
    [ { bell := .link, op := 7, cmd := cmd.toNat, named := false, parts := [.hbm, .links]
        pre := fun r s => linkWell r ∧ (s.cmdPort r).isSome = true ∧ s.reportable (recField r 40 8) 64
        post := fun r _ m t => ∀ p, m.cmdPort r = some p → m.Reports t cmd.toNat 0 (recField r 40 8) 64
          [(0, 1, match p.st with | .down => 0 | .training => 1 | .up => 2 | .degraded => 3 | .fenced => 4), (1, 1, p.lanes),
           (4, 4, p.replayed.toNat), (8, 4, p.discarded.toNat), (12, 4, p.packetsBad.toNat), (16, 4, p.trainings.toNat),
           (20, 4, m.links.fwdLoss.toNat)] },
      refusal .link 7 cmd.toNat false 7 (fun r s => linkWell r ∧ s.cmdPort r = none),
      linkRefusal 7 cmd ]
  | .timecfg cmd =>
    [ { bell := .link, op := 8, cmd := cmd.toNat, named := false, parts := [.podTime]
        pre := fun r s => linkWell r ∧ (recField r 13 1 = 0 ∨ s.part.ethernet ≠ [])
        post := fun r _ m t => t.time = { m.time with role := recField r 13 1 } },
      refusal .link 8 cmd.toNat false 7 (fun r s => linkWell r ∧ recField r 13 1 ≠ 0 ∧ s.part.ethernet = []),
      linkRefusal 8 cmd ]
  | _ => []

/-! ## Pages -/

/-- R345, R346, R366: what ends a page command that is done at once: HBM is charged, a record of the page is made, CTR counts. -/
def State.pageEnd (s : State) (r : List Byte) : State :=
  ((s.chargeHbm (recField r 2 1)).envPage (recField r 2 1) (recField r 8 8) (recField r 0 1) 1).pageCtr (recField r 4 2)

/-- The leaf that a page command names. -/
def State.cmdLeaf (s : State) (r : List Byte) : Option PEntry := s.leafOf (recField r 2 1) (recField r 8 8)

/-- R345, R346: a page command passes its checks, and fewer than 16 are in progress. -/
def State.pagePasses (s : State) (cmd : BitVec 52) (r : List Byte) : Prop :=
  s.pages.ops.length < 16 ∧ s.pageCheck (pageCmd cmd.toNat r) = none

/-- R346: what a refused page command leaves: a notification where a budget is short, with the region that it is of, and CTR. -/
def State.pageRefused (s : State) (cmd : BitVec 52) (r : List Byte) : State :=
  (if s.pageCheck (pageCmd cmd.toNat r) = some 8 then
    s.notify (recField r 2 1) (recField r 8 8) 2 ((s.overBudget (pageCmd cmd.toNat r)).getD 0) else s).pageCtr (recField r 4 2)

/-- A page command that passes. -/
def pageClaim (op : Nat) (cmd : BitVec 52) (later : Bool) (does : List Byte → State → State)
    (post : List Byte → State → State → State → Prop := fun _ _ _ _ => True) : CmdClaim :=
  { bell := .page, op := op, cmd := cmd.toNat, pre := fun r s => s.pagePasses cmd r
    does := fun r s => if later = true then (does r s).dropLines (.bell cmd.toNat) else (does r s).pageEnd r
    status := fun _ _ => if later = true then none else some 1, post := post }

/-- R345, R346: every page command: the status of the first check that fails, or a wait behind 16 others. -/
def pageRefusals (op : Nat) (cmd : BitVec 52) : List CmdClaim :=
  [ { bell := .page, op := op, cmd := cmd.toNat
      pre := fun r s => s.pages.ops.length < 16 ∧ (s.pageCheck (pageCmd cmd.toNat r)).isSome = true
      does := fun r s => s.pageRefused cmd r, status := fun r s => s.pageCheck (pageCmd cmd.toNat r) },
    { bell := .page, op := op, cmd := cmd.toNat, status := fun _ _ => none, pre := fun _ s => 16 ≤ s.pages.ops.length
      does := fun _ s => { s with fe := { s.fe with bells := (.page, cmd.toNat) :: s.fe.bells } } } ]

/-- An operation on the leaf that a page command names. -/
def onLeaf (f : List Byte → State → PEntry → State) (r : List Byte) (s : State) : State :=
  match s.cmdLeaf r with
  | none => s
  | some e => f r s e

/-- R345: a page command that goes on. -/
def State.addOp (s : State) (o : PageOp) : State := { s with pages := { s.pages with ops := s.pages.ops ++ [o] } }

/-- The command as it goes on. -/
def pageOpOf (cmd : BitVec 52) (r : List Byte) (old : BitVec 64) (hostf : Bool) : PageOp :=
  { cmd := cmd.toNat, op := recField r 0 1, ctx := recField r 2 1, va := recField r 8 8, frame := recField r 24 8, hostf := hostf, old := old
    ctr := recField r 4 2, stage := 0 }

/-- R342 to R350: the commands of PGDB. -/
def pageCommands : Instr → List CmdClaim
  | .migrate cmd =>
    pageClaim 1 cmd true (onLeaf fun r s e =>
      ((s.setPageSt e 5).addOp (pageOpOf cmd r e.w0 (bitsOf (recField r 3 1) 2 1 == 1))).chargeHbm (recField r 2 1))
      (fun r s _ t => t.pages.ops.length = s.pages.ops.length + 1 ∧ ∃ o ∈ t.pages.ops, o.cmd = cmd.toNat ∧ o.va = recField r 8 8 ∧
        o.frame = recField r 24 8) :: pageRefusals 1 cmd
  | .duplicate cmd =>
    pageClaim 2 cmd true (onLeaf fun r s e =>
      (s.addOp (pageOpOf cmd r e.w0 false)).ctrl (paModule e.pa) 17 (recField r 2 1) 0 0 (BitVec.ofNat 64 e.pa) (BitVec.ofNat 64 cmd.toNat)) ::
      pageRefusals 2 cmd
  | .hold cmd =>
    pageClaim 3 cmd false (onLeaf fun r s e =>
      let t := s.setPageSt e 5
      { t with pages := { t.pages with pinnedHold := t.pages.pinnedHold ++ [⟨recField r 2 1, recField r 8 8⟩] } })
      (fun r s _ t => t.pages.pinnedHold = s.pages.pinnedHold ++ [⟨recField r 2 1, recField r 8 8⟩]) :: pageRefusals 3 cmd
  | .unhold cmd =>
    pageClaim 4 cmd false (onLeaf fun r s e =>
      if bitsOf (recField r 3 1) 0 1 = 1 then
        match s.leafOf (recField r 2 1) (recField r 16 8) with
        | none => s
        | some f =>
          let u := s.swapObjs e.pa f.pa e.size
          ((((u.release (recField r 2 1) (recField r 8 8) e f.pa).release (recField r 2 1) (recField r 16 8) f e.pa).dropPage
            (recField r 2 1) (recField r 8 8) e).dropPage (recField r 2 1) (recField r 16 8) f).pageSettled
      else (s.release (recField r 2 1) (recField r 8 8) e e.pa).pageSettled) :: pageRefusals 4 cmd
  | .unmap cmd =>
    [pageClaim 5 cmd false (onLeaf fun r s e => s.unmapPage (recField r 2 1) (recField r 8 8) e) (fun r _ _ t =>
        (∀ h ∈ t.pages.holds, ¬(h.ctx = recField r 2 1 ∧ h.va = recField r 8 8)) ∧
          ∀ x ∈ t.pages.replicas, ¬(x.ctx = recField r 2 1 ∧ x.va = recField r 8 8))] ++ pageRefusals 5 cmd
  | .zerocnt cmd => pageClaim 6 cmd false (onLeaf fun r s e => s.zeroAcc (recField r 2 1) e) :: pageRefusals 6 cmd
  | .lend cmd =>
    pageClaim 7 cmd false (onLeaf fun r s e =>
      let t := (s.setPageSt e 6).dropPage (recField r 2 1) (recField r 8 8) e
      { t with pages := { t.pages with leases := t.pages.leases ++
        [⟨recField r 2 1, recField r 8 8, e.pa, e.size, none, none, false, false⟩] } }) :: pageRefusals 7 cmd
  | .borrow cmd =>
    pageClaim 8 cmd true (fun r s =>
      match s.leafSlot (recField r 2 1) (recField r 8 8) (4 - bitsOf (recField r 3 1) 3 2) with
      | none => s
      | some e => (s.addOp (pageOpOf cmd r e.w0 false)).ctrl (recField r 24 8) 13 (recField r 2 1) (bitsOf (recField r 3 1) 3 2) 0 0
          (BitVec.ofNat 64 cmd.toNat)) :: pageRefusals 8 cmd
  | .revoke cmd =>
    let mine (r : List Byte) (l : Lease) : Bool := l.ctx == recField r 2 1 && l.va == recField r 8 8 && !l.passed
    let notice (r : List Byte) (k : Context) : Nat :=
      if bitsOf (recField r 3 1) 1 1 = 1 then 0 else if k.root.revms = 0 then 5 else k.root.revms
    [ { pageClaim 9 cmd false (fun r s =>
          match s.pages.leases.find? (mine r), s.cmdCtx r with
          | some l, some k =>
            match l.borrower with
            | none => (s.leaseLocal l).onLeases fun ls => ls.filter fun x => x != l
            | some b =>
              (s.onLeases fun ls => ls.map fun x =>
                if x = l then { x with deadline := some (s.time.now + notice r k * 1000000) } else x).ctrl b 15 (recField r 2 1) (notice r k) 0
                (BitVec.ofNat 64 l.frame) (BitVec.ofNat 64 (s.time.now + notice r k * 1000000))
          | _, _ => s) with pre := fun r s => s.pagePasses cmd r ∧ (s.pages.leases.find? (mine r)).isSome = true },
      { pageClaim 9 cmd false (fun _ s => s) with
        pre := fun r s => s.pagePasses cmd r ∧ s.pages.leases.find? (mine r) = none
        does := fun r s => ((s.chargeHbm (recField r 2 1)).pageCtr (recField r 4 2)), status := fun _ _ => some 10 } ] ++ pageRefusals 9 cmd
  | _ => []

/-- R270, R282, R312, R328, R345: the highest OP of a doorbell. -/
def Bell.lastOp : Bell → Nat
  | .ctx => 4
  | .queue => 5
  | .bar => 4
  | .link => 8
  | .page => 9

/-- R270: a record whose OP is none of its doorbell's. -/
def badCommand (b : Bell) (op : Nat) (cmd : BitVec 52) : CmdClaim := refusal b op cmd.toNat (b != .link) 6 fun _ _ => True

/-- A record that is not aligned is no command (log entry 48). -/
def misplaced (b : Bell) (op : Nat) (cmd : BitVec 52) : CmdClaim :=
  { refusal b op cmd.toNat false 6 fun _ _ => True with aligned := false }

/-- R282: the doorbell of an instruction that is a command, with its OP and its record. -/
def commandOf : Instr → Option (Bell × Nat × BitVec 52)
  | .create c => some (.ctx, 1, c)
  | .destroy c => some (.ctx, 2, c)
  | .replenish c => some (.ctx, 3, c)
  | .ctxRead c => some (.ctx, 4, c)
  | .enable c => some (.queue, 1, c)
  | .disable c => some (.queue, 2, c)
  | .resume c => some (.queue, 3, c)
  | .flush c => some (.queue, 4, c)
  | .queueRead c => some (.queue, 5, c)
  | .configure c => some (.bar, 1, c)
  | .remove c => some (.bar, 2, c)
  | .barrierReset c => some (.bar, 3, c)
  | .barrierRead c => some (.bar, 4, c)
  | .qpopen c => some (.link, 1, c)
  | .qpclose c => some (.link, 2, c)
  | .qpread c => some (.link, 3, c)
  | .portfence c => some (.link, 4, c)
  | .portunfence c => some (.link, 5, c)
  | .route c => some (.link, 6, c)
  | .portread c => some (.link, 7, c)
  | .timecfg c => some (.link, 8, c)
  | .migrate c => some (.page, 1, c)
  | .duplicate c => some (.page, 2, c)
  | .hold c => some (.page, 3, c)
  | .unhold c => some (.page, 4, c)
  | .unmap c => some (.page, 5, c)
  | .zerocnt c => some (.page, 6, c)
  | .lend c => some (.page, 7, c)
  | .borrow c => some (.page, 8, c)
  | .revoke c => some (.page, 9, c)
  | _ => none

/-- R270, R282, R369: what every command does before it is taken: while READY is clear it is ignored; behind others it waits; a record
in another module is read first (log entry 48). -/
def State.CommandWaits (s : State) (i : Instr) (b : Bell) (cmd : Nat) : Prop :=
  (s.boot.ready = false → exec i s = .next s) ∧
    (s.boot.ready = true → (s.isOwn cmd = true → hbmPresent s.part (paLocal cmd) 64 = true) →
      (s.recordMissing cmd = true → (s.fe.bells = [] ∨ s.fe.bells.head? = some (b, cmd)) →
        exec i s = .next ({ s with fe := { s.fe with bells := (b, cmd) :: s.fe.bells.tail } }.askRecord cmd)))

/-- R282: a command rung behind others waits behind them. -/
def State.CommandQueues (s : State) (i : Instr) (b : Bell) (op cmd : Nat) : Prop :=
  s.boot.ready = true → (s.isOwn cmd = true → hbmPresent s.part (paLocal cmd) 64 = true) → s.fe.bells ≠ [] →
    s.fe.bells.head? ≠ some (b, cmd) → (s.recordMissing cmd = true ∨ recField (s.cmdBytes cmd) 0 1 = op) →
    exec i s = .next { s with fe := { s.fe with bells := s.fe.bells ++ [(b, cmd)] } }

end Sys2Proof.Machine
end

