-- ==== Sys2Proof/Claims/Sync.lean ====
section
/-! DEFINITION. What the manual gives for handles, sealing, bindings, acquire and release, fences, the tag table, ARED, flags and
barriers (08_memory_ops R161 to R180, 20_barrier R314 to R319). -/

namespace Sys2Proof.Machine

/-! ## Handles and the tag table -/

/-- R162: the status word of a handle, field by field. -/
def IsStatus (h : Handle) (w : BitVec 64) : Prop :=
  w.getLsbD 63 = h.valid ∧ w.extractLsb' 60 3 = h.kind ∧ w.extractLsb' 58 2 = h.size ∧ w.getLsbD 57 = h.wr ∧
    w.getLsbD 56 = h.sealed ∧ w.getLsbD 55 = h.digest ∧ w.getLsbD 54 = h.profile ∧ w.extractLsb' 52 2 = 0 ∧
    w.extractLsb' 0 52 = h.pa

/-- R161: XLATE of a virtual address that lies on a page which can be accessed, and HDROP. -/
def handleRow : Instr → Option Claim
  | .xlate y d a => some
      { eng := .c, y := y, srcs := [.s a]
        pre := fun s => (s.me.sreg a).toNat < 2 ^ 56 ∧
          (s.translate s.me.ident.ctx (s.me.sreg a).toNat s.me.syspriv).isSome = true
        result := .fixed (.h d)
          (fun s => .handle ((s.translate s.me.ident.ctx (s.me.sreg a).toNat s.me.syspriv).getD zeroHandle)) 24 }
  | .hdrop y d => some
      { eng := .c, y := y, result := .fixed (.h d) (fun s => .handle { (s.me.hreg d) with valid := false }) 1 }
  | _ => none

/-- R161: HCHK. -/
def hchkClaim (y : BitVec 2) (d : BitVec 5) (w : State → BitVec 64) : Claim :=
  { eng := .c, y := y, result := .fixed (.s d) (fun s => .word (w s)) 2 }

/-- R171: the word that TLOOK gives: 0xFFFF for a miss; else the entry in [15:0] and the scratchpad address from bit 16 on. -/
def tagWord (tags : List (Nat × TagEntry)) (va : Nat) : BitVec 64 :=
  match tags.find? (fun p => p.2.tag == va / 2 ^ (12 + p.2.sz)) with
  | none => 0xFFFF
  | some (n, e) => BitVec.ofNat 64 (n + 2 ^ 16 * (e.slot + va % 2 ^ (12 + e.sz)))

/-- R171: an entry may be set: its number, its size code, alignment, ranges, and no other valid entry that overlaps. -/
def tagAllowed (tags : List (Nat × TagEntry)) (n va slot z : Nat) : Prop :=
  n ≤ 4095 ∧ z ≤ 4 ∧ va % 2 ^ (12 + z) = 0 ∧ slot % 2 ^ (12 + z) = 0 ∧ va < 2 ^ 56 ∧ slot + 2 ^ (12 + z) ≤ 2 ^ 26 ∧
    ∀ p ∈ tags, p.1 = n ∨ va + 2 ^ (12 + z) ≤ p.2.base ∨ p.2.base + p.2.size ≤ va

/-- R171: TLOOK, TSET and TCLR. -/
def tagRow : Instr → Option Claim
  | .tlook y d a => some
      { eng := .c, y := y, srcs := [.s a]
        result := .fixed (.s d) (fun s => .word (tagWord s.me.store.tags ((s.me.sreg a).toNat % 2 ^ 56))) 3 }
  | .tset y d a b z => some
      { eng := .c, y := y, srcs := [.s d, .s a, .s b], parts := [.tags]
        pre := fun s => tagAllowed s.me.store.tags (s.me.sreg d).toNat (s.me.sreg a).toNat (s.me.sreg b).toNat z.toNat
        post := fun s t =>
          assocGet t.me.store.tags (s.me.sreg d).toNat =
            some ⟨z.toNat, (s.me.sreg a).toNat / 2 ^ (12 + z.toNat), (s.me.sreg b).toNat⟩ ∧
          ∀ n, n ≠ (s.me.sreg d).toNat → assocGet t.me.store.tags n = assocGet s.me.store.tags n }
  | .tclr y d l => some
      { eng := .c, y := y, srcs := if l = 1 then [] else [.s d], parts := [.tags]
        pre := fun s => if l = 1 then d = 0 else (s.me.sreg d).toNat ≤ 4095
        post := fun s t => ∀ n, assocGet t.me.store.tags n =
          if l = 1 ∨ n = (s.me.sreg d).toNat then none else assocGet s.me.store.tags n }
  | _ => none

/-! ## Sealing and bindings -/

/-- No other module takes part in sealing: the routes lead to none, and no SEAL or UNSEAL is under way. -/
def State.sealsAlone (s : State) : Prop := s.pages.sealings = [] ∧ ∀ r ∈ s.links.routes, r.1 = s.boot.modnum

/-- R163: SEAL of a range whose pages are `l`, once nothing has to be waited for. -/
def sealClaim (y : BitVec 2) (d a : BitVec 5) (l : List (Nat × PEntry)) : Claim :=
  { eng := .c, y := y, srcs := [.s d, .s a]
    pre := fun s => s.sealCheck (s.me.sreg d).toNat (s.me.sreg a).toNat = .ok l ∧ s.sealsAlone ∧
      ∀ p ∈ l, p.2.state ≠ stSealed → p.2.state ≠ stMigrating ∧ s.ctxStores s.me.ident.ctx p.1 p.2.size = false ∧
        ∀ h ∈ s.pages.holds, h.ctx = s.me.ident.ctx → h.va = p.1 → h.waits = []
    does := fun s =>
      let new := l.filter fun p => p.2.state != stSealed
      new.foldl (fun t p => t.sealOne s.me.ident.ctx p) (new.foldl (fun t _ => t.newTag.2) s) }

/-- R163, R342: UNSEAL of a range whose pages are `l`. -/
def unsealClaim (y : BitVec 2) (d a : BitVec 5) (l : List (Nat × PEntry)) : Claim :=
  { eng := .c, y := y, srcs := [.s d, .s a]
    pre := fun s => s.sealCheck (s.me.sreg d).toNat (s.me.sreg a).toNat = .ok l ∧ s.sealsAlone
    does := fun s => (l.filter fun p => p.2.state == stSealed).foldl (fun t p => t.newTag.2.unsealOne s.me.ident.ctx p) s }

/-- R164: BIND and UNBIND. -/
def bindClaim (y : BitVec 2) (a : BitVec 5) (k : BitVec 10) (r : List Byte) (b : Binding) : Claim :=
  { eng := .c, y := y, srcs := [.s a], parts := [.contexts]
    pre := fun s => s.me.record (s.me.sreg a).toNat 32 32 = .ok r ∧ s.bindCheck k.toNat r (s.me.sreg a).toNat = .ok b
    post := fun s t => ∃ c, t.ctx s.me.ident.ctx = some c ∧ assocGet c.binds k.toNat = some b }

def unbindClaim (y : BitVec 2) (k : BitVec 10) : Claim :=
  { eng := .c, y := y, parts := [.contexts]
    post := fun s t => ∀ c, t.ctx s.me.ident.ctx = some c → assocGet c.binds k.toNat = none }

/-! ## Acquire, release, fence -/

/-- The request or hold of the group in focus. -/
def State.myHold (s : State) (ex : Bool) : SyncHold := ⟨s.boot.modnum, s.me.ident.launch, s.me.ident.index, 0, ex⟩

/-- Whether a request or hold is of the group in focus. -/
def State.ownsHold (s : State) (h : SyncHold) : Bool := h.isOf s.boot.modnum s.me.ident.launch s.me.ident.index

/-- R165, R166: the group may be granted an object now: no other request waits before it, or shared ones that can be granted with
it, and the word allows it. -/
def State.canGrant (s : State) (o : SyncObj) (ex : Bool) : Prop :=
  let before := o.waiters.takeWhile fun w => w != s.myHold ex
  (∀ w ∈ o.waiters, s.ownsHold w = true → w = s.myHold ex) ∧ (s.objWord o &&& objEx = 0) ∧
    (if ex = true then before = [] ∧ (s.objWord o).toNat % 2 ^ 32 = 0 else ∀ b ∈ before, b.ex = false)

/-- R166: what a grant does to the object: the group becomes a holder, waits no more, and the word tells it. -/
def State.takeObj (s : State) (o : SyncObj) (ex : Bool) : State :=
  (s.putObj { o with holders := o.holders ++ [s.myHold ex], waiters := o.waiters.filter fun w => w != s.myHold ex }).setObjWord o
    (objGranted (s.objWord o) ex)

/-- The object that an address names, at its home here. -/
def State.homeObj (s : State) (va key : Nat) : Prop := s.objCheck va = .ok key ∧ s.isHome key = true

/-- R166: ACQ that is granted: the predicate is 0, and a WAIT record tells of it. -/
def acqClaim (y : BitVec 2) (d : BitVec 5) (p : BitVec 3) (x : BitVec 1) (key : Nat) : Claim :=
  { eng := .c, y := y, srcs := [.s d], parts := [.trace, .sys]
    pre := fun s => let o := s.obj s.me.ident.ctx key
      s.homeObj (s.me.sreg d).toNat key ∧ s.me.work.tokens = 0 ∧ (∀ h ∈ o.holders, s.ownsHold h = false) ∧ s.canGrant o (x == 1)
    does := fun s => s.takeObj (s.obj s.me.ident.ctx key) (x == 1)
    result := .fixed (.p p) (fun _ => .bit false) 1 }

/-- R180: a group with an error token gets it instead: the predicate is 1, the token is used, and it waits no more. -/
def acqTokenClaim (y : BitVec 2) (d : BitVec 5) (p : BitVec 3) (key : Nat) : Claim :=
  { eng := .c, y := y, srcs := [.s d], parts := [.tokens, .trace, .sys]
    pre := fun s => s.homeObj (s.me.sreg d).toNat key ∧ s.me.work.tokens ≠ 0 ∧
      (∀ h ∈ (s.obj s.me.ident.ctx key).holders, s.ownsHold h = false)
    does := fun s => let o := s.obj s.me.ident.ctx key
      s.putObj { o with waiters := o.waiters.filter fun w => !s.ownsHold w }
    result := .fixed (.p p) (fun _ => .bit true) 1
    post := fun s t => t.me.work.tokens = s.me.work.tokens - 1 }

/-- R165, R166: ACQ of an object homed in another module, whose grant has come back (log entry 41). -/
def acqFarClaim (y : BitVec 2) (d : BitVec 5) (p : BitVec 3) (key : Nat) (a : SyncAsk) : Claim :=
  { eng := .c, y := y, srcs := [.s d], parts := [.trace, .sys]
    pre := fun s => s.objCheck (s.me.sreg d).toNat = .ok key ∧ s.isHome key = false ∧ s.me.work.tokens = 0 ∧
      s.askOf key s.me.ident.launch s.me.ident.index = some a ∧ a.isHeld = false ∧ a.isGranted = true
    does := fun s => { s with links := { s.links with asks := s.links.asks.map fun (b : SyncAsk) =>
      if b.tag = a.tag then { b with isHeld := true } else b } }
    result := .fixed (.p p) (fun _ => .bit false) 1 }

/-- R166: what a release does to the object: the group is no holder any more, and the word tells it. -/
def State.dropObj (s : State) (o : SyncObj) (ex : Bool) : State :=
  let t := s.putObj { o with
    holders := o.holders.filter (fun h => !s.ownsHold h), waiters := o.waiters.filter fun h => !s.ownsHold h }
  t.setObjWord o (objReleased (t.objWord o) ex .rel)

/-- R166: REL by a holder, once its stores and atomics are performed. -/
def relClaim (y : BitVec 2) (d : BitVec 5) (key : Nat) (ex : Bool) : Claim :=
  { eng := .c, y := y, srcs := [.s d]
    pre := fun s => s.objKey s.me.ident.ctx (s.me.sreg d).toNat = some key ∧ s.isHome key = true ∧ s.relWaits = false ∧
      ∃ h, (s.obj s.me.ident.ctx key).holders.filter s.ownsHold = [h] ∧ h.ex = ex
    does := fun s => s.dropObj (s.obj s.me.ident.ctx key) ex }

/-- R165, R166: REL of an object homed in another module tells its home (log entry 41). -/
def relFarClaim (y : BitVec 2) (d : BitVec 5) (key : Nat) (a : SyncAsk) : Claim :=
  { eng := .c, y := y, srcs := [.s d]
    pre := fun s => s.objKey s.me.ident.ctx (s.me.sreg d).toNat = some key ∧ s.isHome key = false ∧ s.relWaits = false ∧
      s.askOf key s.me.ident.launch s.me.ident.index = some a ∧ a.isHeld = true
    does := fun s => s.dropAsk a .rel }

/-! ## ARED, intervals, flags, barriers -/

/-- R33, R35, R174: ARED by K: a contribution to an XF320 or an XW192 slot, or a region's anchor. -/
def aredStore (m : Store) (k : BitVec 2) (w : Nat) (v : BitVec 64) : Store :=
  match k.toNat with
  | 0 => m.xfContribute w (fpDecode fmtF32 (v.toNat % 2 ^ 32))
  | 1 => m.xwContribute w (fpDecode fmtF64 v.toNat)
  | 2 => m.xwContribute w (fpDecode fmtF32 (v.toNat % 2 ^ 32))
  | _ => { m with anchors := m.anchors.setIfInBounds (w / 4096) v.toInt }

/-- R174: ARED may act: alignment and bounds of its slot or region, the range of an anchor, no pending word. -/
def State.aredOk (s : State) (k : BitVec 2) (w : Nat) (v : BitVec 64) : Prop :=
  let n := match k.toNat with
    | 0 => 8
    | 1 => 4
    | 2 => 4
    | _ => 4096
  w % n = 0 ∧ w + n ≤ 131072 ∧
    (if k = 3 then -1280 ≤ v.toInt ∧ v.toInt ≤ 960 else s.me.isPending true s.me.ident.core w n = false)

/-- R169, R174, R175, R177: instructions that complete at once. -/
def syncRow : Instr → Option Claim
  | .fence y k => some { eng := .c, y := y, pre := fun s => k.toNat < 5 ∧ s.fenceWaits k.toNat = false }
  | .ared y t b k => some
      { eng := .c, y := y, srcs := [.s t, .s b], parts := [.acc, .anchors]
        pre := fun s => s.aredOk k (s.me.sreg b).toNat (s.me.sreg t)
        post := fun s t' => t'.me.store = aredStore s.me.store k (s.me.sreg b).toNat (s.me.sreg t) }
  | .fset y n => some
      { eng := .c, y := y, parts := [.flag n.toNat], pre := fun _ => n.toNat ≤ 255
        post := fun _ t => t.me.flag n.toNat = true ∧ t.me.work.setters.getD n.toNat 7 = 0 }
  | .fclr y n => some
      { eng := .c, y := y, parts := [.flag n.toNat], pre := fun _ => n.toNat ≤ 255
        post := fun s t => t.me.flag n.toNat = false ∧
          t.me.work.setters.getD n.toNat 7 = s.me.work.setters.getD n.toNat 7 }
  | .ftest y n p => some
      { eng := .c, y := y, pre := fun _ => n.toNat ≤ 255, result := .fixed (.p p) (fun s => .bit (s.me.flag n.toNat)) 1 }
  | _ => none

/-- R175: ATCLOSE: a closing point in Nivose mode, nothing outside it. -/
def atcloseClaim (y : BitVec 2) : Claim :=
  { eng := .c, y := y, does := fun s => if s.me.nivose = true then s.closeInterval else s }

/-- R177, R178: FWAIT on a flag that is set: the predicate is 0; C has observed the jobs whose flag it is. -/
def fwaitClaim (y : BitVec 2) (n : BitVec 12) (p : BitVec 3) : Claim :=
  { eng := .c, y := y, parts := [.jobs, .trace, .sys]
    pre := fun s => n.toNat ≤ 255 ∧ s.me.work.tokens = 0 ∧ s.me.flag n.toNat = true
    result := .fixed (.p p) (fun _ => .bit false) 1
    post := fun _ t => ∀ j ∈ t.me.work.jobs, ¬ (j.fl = true ∧ j.flag = n.toNat ∧ j.st = .complete) }

/-- R180: FWAIT with an error token. -/
def fwaitTokenClaim (y : BitVec 2) (n : BitVec 12) (p : BitVec 3) : Claim :=
  { eng := .c, y := y, parts := [.tokens, .trace, .sys]
    pre := fun s => n.toNat ≤ 255 ∧ s.me.work.tokens ≠ 0
    result := .fixed (.p p) (fun _ => .bit true) 1
    post := fun s t => t.me.work.tokens = s.me.work.tokens - 1 }

/-- R179, R253, R314: BARJOIN of a barrier of the group's context that it has not joined: C goes on, and the join is performed once the
accesses before it are. -/
def barjoinClaim (y : BitVec 2) (n : BitVec 12) (a : BitVec 5) (b : Barrier) : Claim :=
  { eng := .c, y := y, srcs := [.s a]
    pre := fun s => s.bar s.me.ident.ctx n.toNat = some b ∧ (s.me.sreg a).toNat < 2 ^ 40 ∧ ∀ j ∈ s.me.work.joined, j.bar ≠ n.toNat
    does := fun s => (s.barJoin n.toNat b (s.me.sreg a)).noteJoins
    post := fun _ t => ∃ j ∈ t.me.work.joined, j.bar = n.toNat }

/-- R179, R180, R316, R318, R319: BARWAIT of a joined barrier that returns: released, BROKEN, or by an error token; the predicate says
whether it was released. -/
def barwaitClaim (y : BitVec 2) (n : BitVec 12) (p : BitVec 3) (j : Joined) (err token : Bool) : Claim :=
  { eng := .c, y := y
    pre := fun s => s.me.work.joined.find? (fun j => j.bar == n.toNat) = some j ∧
      (if token = true then (s.bar s.me.ident.ctx n.toNat).isSome = true ∧ s.me.work.tokens ≠ 0 ∧ err = true ∧
         (j.waiting = false ∨ j.result = none)
       else j.result = some err ∧
         (j.waiting = true ∨ ((s.bar s.me.ident.ctx n.toNat).isSome = true ∧ s.me.work.tokens = 0)))
    does := fun s => (if token = true then s.useToken else s).barReturn n.toNat (if err = true then 7 else 6) j.closed
    result := .fixed (.p p) (fun _ => .bit err) 1
    post := fun _ t => ∀ j ∈ t.me.work.joined, j.bar ≠ n.toNat }

/-- R179: C stands in its BARWAIT of a joined barrier: it stays at the item and waits, and the join tells of it. -/
structure State.Stands (s : State) (y : BitVec 2) (n : BitVec 12) (t : State) : Prop where
  since : (t.eng .c).waiting = some ((s.eng .c).waiting.getD s.time.now)
  cycle : (t.eng .c).clk = (s.eng .c).clk
  walk : (t.eng .c).cur = (s.eng .c).cur
  seq : (t.eng .c).seq = (s.eng .c).seq
  joined : t.me.work.joined = s.me.work.joined.map fun j => if j.bar = n.toNat then { j with waiting := true } else j
  rest : (s.arrived .c y).KeepsBut t .c [.joined]

end Sys2Proof.Machine
end

