-- ==== Sys2Proof/Claims/Commands.lean ====
section
/-! DEFINITION. What the manual gives for jobs and routines (09_engine_commands R182 to R194), counters (R196), work entries (R197,
R198, R202), generator windows (R203, R206) and NOTIFY (R208). -/

namespace Sys2Proof.Machine

/-! ## Jobs and routines -/

/-- R182: a job of a checked card is in the group's list, issued and not started, under the next number. -/
def State.jobIssued (s t : State) (c : Card) : Prop :=
  t.me.work.lastJob = s.me.nextJob ∧
    ∃ j ∈ t.me.work.jobs, j.num = s.me.nextJob ∧ j.kind = c.kind ∧ j.fl = c.fl ∧ j.flag = c.flag ∧ j.foots = c.foots ∧
      j.st = .issued ∧ j.prog = 0

/-- R182, R186 to R188: JOBX of a card that passes its checks, with fewer than 64 jobs that are not complete. -/
def jobxClaim (y : BitVec 2) (a : BitVec 5) (c : Card) : Claim :=
  { eng := .c, y := y, srcs := [.s a], parts := [.jobs, .pend, .free]
    pre := fun s => s.jobCard (s.me.sreg a).toNat = .ok c ∧ s.me.incomplete < 64 ∧ s.cardFrames c = .ok ()
    post := fun s t => s.jobIssued t c }

/-- R194: the four H forms: delay count, profile, handle, card register, engine. -/
def hRow : Instr → Option (HForm × BitVec 2 × BitVec 4 × BitVec 6 × BitVec 5 × BitVec 3)
  | .hfold y p h a e => some (.fold, y, p, h, a, e)
  | .hscan y p h a e => some (.scan, y, p, h, a, e)
  | .hzip y p h a e => some (.zip, y, p, h, a, e)
  | .houter y p h a e => some (.outer, y, p, h, a, e)
  | _ => none

/-- R46, R194: the profiles that a routine may run under: 0 outside Nivose mode, 5, and 6 for a fold or scan of an associative
routine. -/
def profileAllowed (f : HForm) (pf : Nat) (r : Routine) (nivose : Bool) : Prop :=
  (pf = 0 ∧ nivose = false) ∨ pf = 5 ∨ (pf = 6 ∧ r.assoc = true ∧ (f = .fold ∨ f = .scan))

/-- R194, R195: an H instruction with a loaded routine, an allowed profile and a card that passes its checks. -/
def hClaim (f : HForm) (y : BitVec 2) (p : BitVec 4) (h : BitVec 6) (a : BitVec 5) (e : BitVec 3) (r : Routine) (c : Card) :
    Claim :=
  { eng := .c, y := y, srcs := [.s a], parts := [.jobs, .pend, .free]
    pre := fun s => e.toNat < 3 ∧ s.routine h.toNat = some r ∧ profileAllowed f p.toNat r s.me.nivose ∧
      s.hCard f e.toNat h.toNat p.toNat r (s.me.sreg a).toNat = .ok c ∧ s.me.incomplete < 64 ∧ s.cardFrames c = .ok ()
    post := fun s t => s.jobIssued t c }

/-- R192: RDEF of a record that is a routine. -/
def rdefClaim (y : BitVec 2) (h : BitVec 6) (a : BitVec 5) (r : List Byte) (x : Routine) : Claim :=
  { eng := .c, y := y, srcs := [.s a], parts := [.contexts]
    pre := fun s => s.myCtx.isSome = true ∧ s.me.record (s.me.sreg a).toNat 16 80 = .ok r ∧
      routineOf r (s.me.sreg a).toNat (s.routine h.toNat).isSome = .ok x
    post := fun _ t => t.routine h.toNat = some x }

/-- R192: RDROP of a handle that no job uses. -/
def rdropClaim (y : BitVec 2) (h : BitVec 6) : Claim :=
  { eng := .c, y := y, parts := [.contexts], pre := fun s => s.handleBusy h.toNat = false
    post := fun _ t => t.routine h.toNat = none }

/-! ## Counters -/

/-- R196: a counter of the context, once earlier accesses are performed. -/
def State.mayCount (s : State) (n : Nat) : Prop := s.granted n = true ∧ s.fenceWaits 2 = false

/-- R196: CNTSET, CNTADD, CNTWAIT that need not wait, and CNTREAD. A change evaluates the triggers of work entries, of queue entries
and of launches. -/
def counterRow : Instr → Option Claim
  | .cntset y n a => some
      { eng := .c, y := y, srcs := [.s a], pre := fun s => s.mayCount n.toNat
        parts := [.counters, .contexts, .frontEnd]
        post := fun s t => t.ctr n.toNat = s.me.sreg a ∧ ∀ k, k ≠ n.toNat → t.ctr k = s.ctr k }
  | .cntadd y n a ix => some
      { eng := .c, y := y, srcs := if ix = 1 then [] else [.s a], pre := fun s => s.mayCount n.toNat
        parts := [.counters, .contexts, .frontEnd]
        post := fun s t =>
          t.ctr n.toNat = s.ctr n.toNat + (if ix = 1 then BitVec.ofNat 64 a.toNat else s.me.sreg a) ∧
          ∀ k, k ≠ n.toNat → t.ctr k = s.ctr k }
  | .cntwait y n a => some
      { eng := .c, y := y, srcs := [.s a], parts := [.trace, .sys]
        pre := fun s => s.granted n.toNat = true ∧ (s.me.sreg a).toNat ≤ (s.ctr n.toNat).toNat }
  | .cntread y n d => some
      { eng := .c, y := y, pre := fun s => s.granted n.toNat = true ∧ s.roomForResult
        result := .late (.s d) (fun s => .word (s.ctr n.toNat)) (fun _ => 60) }
  | _ => none

/-- R196: the counter instructions: delay count, counter, registers read. -/
def counterUse : Instr → Option (BitVec 2 × BitVec 12 × List Reg)
  | .cntset y n a => some (y, n, [.s a])
  | .cntadd y n a ix => some (y, n, if ix = 1 then [] else [.s a])
  | .cntwait y n a => some (y, n, [.s a])
  | .cntread y n _ => some (y, n, [])
  | _ => none

/-- R208: nothing of an engine is outstanding that its NOTIFY waits for: jobs of C, mesh operations and committed batches of M, vectors
of drained streams of S. -/
def State.mayNotify (s : State) : Engine → Prop
  | .c => s.me.incomplete = 0
  | .m => s.me.mesh.ops = [] ∧ ∀ b ∈ s.me.mesh.batches, b.name = none
  | .s => ∀ z : BitVec 4, (s.me.stream z).pat.drained = true → (s.me.stream z).st = .running → (s.me.stream z).buf = []
  | _ => True

/-! ## Work entries -/

/-- R198, R202: the context's slot holds an entry that is armed with a threshold, or whose trigger was met at once. -/
def State.slotArmed (t : State) (ctx n : Nat) (w : WEntry) (thr : BitVec 64) : Prop :=
  ∃ x, t.slotOf ctx n = some x ∧ x.entry = w ∧ x.thr = thr ∧ (x.st = .armed ∨ x.st = .firing)

/-- R197, R198, R202, R207: WQPOST of an entry that passes its checks. -/
def wqpostClaim (y : BitVec 2) (a : BitVec 5) (r : List Byte) (w : WEntry) : Claim :=
  { eng := .c, y := y, srcs := [.s a], parts := [.contexts, .wq]
    pre := fun s => s.me.record (s.me.sreg a).toNat 64 64 = .ok r ∧
      s.entryCheck s.me.ident.ctx s.me.nivose r = .ok w ∧ s.entryStrap s.me.ident.ctx w = none ∧ s.fenceWaits 2 = false
    post := fun s t => t.slotArmed s.me.ident.ctx w.slot w w.thresh ∧ t.me.work.wqCount = s.me.work.wqCount + 1 }

/-- R198, R202: WQARM of a slot that is DONE. -/
def wqarmClaim (y : BitVec 2) (n : BitVec 12) (a : BitVec 5) (x : WSlot) : Claim :=
  { eng := .c, y := y, srcs := [.s a], parts := [.contexts, .wq]
    pre := fun s => s.slotOf s.me.ident.ctx n.toNat = some x ∧ x.st = .done ∧ s.fenceWaits 2 = false
    post := fun s t => t.slotArmed s.me.ident.ctx n.toNat x.entry (s.me.sreg a) ∧
      t.me.work.wqCount = s.me.work.wqCount + 1 }

/-- R198, R202: WQCANCEL: an ARMED slot is CANCELLED, a FIRING one once its firing ends. -/
def wqcancelClaim (y : BitVec 2) (n : BitVec 12) : Claim :=
  { eng := .c, y := y, parts := [.contexts]
    post := fun s t => ∀ x, s.slotOf s.me.ident.ctx n.toNat = some x → ∃ x', t.slotOf s.me.ident.ctx n.toNat = some x' ∧
      x'.st = (if x.st = .armed then .cancelled else x.st) ∧ (x.st = .firing → x'.cancel = true) }

/-- R202: the status word of a slot: STATE, LAST, LOSTS, REASON and FIRED. -/
def IsSlotStatus (x : WSlot) (w : BitVec 64) : Prop :=
  w.extractLsb' 60 4 = BitVec.ofNat 4 x.st.code ∧ w.extractLsb' 56 4 = BitVec.ofNat 4 x.last.code ∧
    w.extractLsb' 40 16 = BitVec.ofNat 16 (min x.losts 0xFFFF) ∧ w.extractLsb' 36 4 = BitVec.ofNat 4 x.reason ∧
    w.extractLsb' 32 4 = 0 ∧ w.extractLsb' 0 32 = x.fired

/-- R202: WQSTAT, with the word that it gives. -/
def wqstatClaim (y : BitVec 2) (d : BitVec 5) (w : State → BitVec 64) : Claim :=
  { eng := .c, y := y, pre := State.roomForResult, result := .late (.s d) (fun s => .word (w s)) (fun _ => 60) }

/-! ## Generator windows -/

/-- R206: GENCFG of a descriptor that passes its checks; handles to the old range are invalidated. -/
def gencfgClaim (y : BitVec 2) (w : BitVec 4) (a : BitVec 5) (r : List Byte) (g : GenWin) : Claim :=
  { eng := .c, y := y, srcs := [.s a]
    pre := fun s => s.myCtx.isSome = true ∧ s.me.record (s.me.sreg a).toNat 64 64 = .ok r ∧ s.genCheck w.toNat r = .ok g
    does := fun s => match s.myCtx.bind fun c => assocGet c.gens w.toNat with
      | none => s
      | some o => s.dropHandles s.me.ident.ctx o.vbase (o.vbase + o.size)
    parts := [.contexts]
    post := fun s t => ∃ c, t.ctx s.me.ident.ctx = some c ∧
      assocGet c.gens w.toNat = if g.kind = 0 then none else some g }

/-- R206: GENINV: the generation number of the window rises by 1. -/
def geninvClaim (y : BitVec 2) (w : BitVec 4) : Claim :=
  { eng := .c, y := y, parts := [.contexts]
    post := fun s t => ∀ c g, s.ctx s.me.ident.ctx = some c → assocGet c.gens w.toNat = some g →
      ∃ c', t.ctx s.me.ident.ctx = some c' ∧ assocGet c'.gens w.toNat = some { g with gen := g.gen + 1 } }

end Sys2Proof.Machine
end

