-- ==== Sys2Proof/Claims/System.lean ====
section
/-! DEFINITION. What the manual gives for system registers, traps and their return, handlers, the claim of the mesh, breakpoints,
time and the platform instructions of C (10_system R209 to R233). -/

namespace Sys2Proof.Machine

/-! ## System registers -/

/-- R220: GSR of an assigned number. -/
def gsrClaim (y : BitVec 2) (d : BitVec 5) (v : State → BitVec 64) : Claim :=
  { eng := .c, y := y, result := .fixed (.s d) (fun s => .word (v s)) 2 }

/-- R217, R218: the registers that every group writes, those that system privilege writes, and those of a handler. -/
def sysWriter (k : Nat) : WriteBy :=
  match k with
  | 0x010 => .every
  | 0x011 => .every
  | 0x042 => .every
  | 0x043 => .every
  | 0x044 => .every
  | 0x012 => .system
  | 0x022 => .handler
  | 0x023 => .handler
  | 0x024 => .handler
  | 0x025 => .handler
  | 0x031 => .handler
  | n => if 0x048 ≤ n ∧ n ≤ 0x04F then .system else .never

/-- R217: the group may write the register now. -/
def State.mayWriteSys (s : State) (k : Nat) : Prop :=
  match sysWriter k with
  | .never => False
  | .every => True
  | .system => s.me.syspriv = true
  | .handler => s.me.phase = .handler

/-- R94, R130, R361: the values that a register takes. -/
def sysTakes (k : Nat) (v : BitVec 64) : Prop :=
  match k with
  | 0x011 => 1 ≤ v.toNat ∧ v.toNat ≤ 4096
  | 0x012 => 2048 ≤ v.toNat ∧ v.toNat ≤ 4096
  | 0x044 => v.extractLsb' 58 6 = 0 ∧ v.extractLsb' 43 13 = 0 ∧ v.extractLsb' 26 6 = 0 ∧ v.extractLsb' 0 16 = 0 ∧
      (v.extractLsb' 16 10).toNat + (v.extractLsb' 32 11).toNat ≤ 1024
  | _ => True

/-- What a register reads after a write of `v`: its reserved bits read as zero (R219, R353, R354, R215). -/
def sysReads (k : Nat) (v : BitVec 64) : BitVec 64 :=
  match k with
  | 0x010 => v &&& 0x3
  | 0x025 => v &&& 0x3
  | 0x042 => v &&& 0xFF
  | 0x043 => v &&& 0xFFFFFFFFFFFFF001
  | _ => v

/-- R217, R220: SSR: the register reads what was written, and every other register what it read before. -/
def ssrClaim (y : BitVec 2) (a : BitVec 5) (k : BitVec 10) : Claim :=
  { eng := .c, y := y, srcs := [.s a], parts := [.sys, .traps, .contexts]
    pre := fun s => s.mayWriteSys k.toNat ∧ sysTakes k.toNat (s.me.sreg a) ∧ s.myCtx.isSome = true
    post := fun s t => t.sysReg k.toNat = some (sysReads k.toNat (s.me.sreg a)) ∧
      ∀ j, j ≠ k.toNat → t.sysReg j = s.sysReg j }

/-! ## Traps -/

/-- R211, R214 to R216: what taking a trap of engine code `eng` at text address `addr` saves, and where C goes. -/
structure State.Trapped (s t : State) (eng cause info va addr : Nat) : Prop where
  mode : t.me.phase = .handler
  causeReg : t.me.traps.cause = BitVec.ofNat 64 (info % 2 ^ 16 * 2 ^ 16 + eng % 8 * 2 ^ 8 + cause)
  addrReg : t.me.traps.addr = BitVec.ofNat 64 addr
  vaReg : t.me.traps.va = if cause ∈ [0x05, 0x06, 0x07, 0x08, 0x0A, 0x13] then BitVec.ofNat 64 va else 0
  pc : t.me.traps.savpc = s.me.cPos.save
  pc1 : t.me.traps.savpc1 = (s.eng .c).pc1.save
  pc2 : t.me.traps.savpc2 = (s.eng .c).pc2.save
  annul : t.me.traps.savann = (s.eng .c).annul.setWidth 64
  cut : t.me.traps.cut.toList = [.ofNat 64 (s.eng .c).seq, .ofNat 64 (s.eng .l).seq, .ofNat 64 (s.eng .v).seq,
    .ofNat 64 (s.eng .m).seq, .ofNat 64 (s.eng .s).seq, .ofNat 64 s.me.work.lastJob, s.me.work.wqCount]
  goes : (t.eng .c).pc = .target .jump (s.me.handlerText % 2 ^ 64)
  stack : (t.eng .c).stack = [] ∧ t.me.frames = []
  bank : (∀ n : BitVec 5, 28 ≤ n.toNat → t.me.sreg n =
      match n.toNat with
      | 28 => s.me.bank.s28
      | 29 => s.me.bank.s29
      | 30 => s.me.bank.s30
      | _ => s.me.bank.s31) ∧ t.me.preg 7 = s.me.bank.p7 ∧ t.me.hreg 15 = s.me.bank.h15
  others : ∀ e, e ≠ .c → t.eng e = s.eng e
  rest : ∀ p, p ∉ [Aspect.engine .c, .regs, .frames, .traps, .bank, .phase, .claimed] → s.same t p

/-- R222: RFT with mode 0, 1 or 2 in a handler that has nothing outstanding. -/
def State.mayReturn (s : State) (mode : Nat) : Prop :=
  s.me.phase = .handler ∧ mode < 3 ∧ s.me.hand.claim = none ∧ (∀ f ∈ (s.eng .c).flight, f.arrived = true) ∧
    (mode = 2 → s.me.trapEngine.tag = (s.me.sys.brkword.extractLsb' 29 3).toNat ∧
      loadable (s.me.sys.brkword.toNat % 2 ^ 32) = true)

/-- R211: the registers of the bank stand in for s28 to s31, p7 and h15. -/
def Group.banked (g : Group) : Reg → Val
  | .s n => .word (match n.toNat with
    | 28 => g.bank.s28
    | 29 => g.bank.s29
    | 30 => g.bank.s30
    | 31 => g.bank.s31
    | _ => g.sreg n)
  | .p n => .bit (if n = 7 then g.bank.p7 else g.preg n)
  | .h n => .handle (if n = 15 then g.bank.h15 else g.hreg n)
  | r => g.regVal r

/-- R222: the engine that raised the trap sees its item skipped (mode 1) or replaced by BRKWORD (mode 2). -/
def EngineState.marked (x : EngineState) (mode : Nat) (word : BitVec 32) : EngineState :=
  { x with skip := x.skip || mode == 1, sub := if mode = 2 then some word else x.sub, latch := if mode = 2 then none else x.latch }

/-- R215, R222, R238: C as it stopped, at the positions in the registers that the handler changed, without the results for registers that
the handler wrote. A new pc discards what stood in the latch (log entry 42). -/
def State.resumed (s : State) (kept : EngineState) : EngineState :=
  let old (i : Nat) (v : BitVec 64) : Bool := s.me.hand.saved.getD i 0 == v
  let r := s.me.traps
  { kept with
    flight := kept.flight.filter (fun f => !s.me.hand.written.contains f.reg), stops := []
    pc := if old 0 r.savpc = true then kept.pc else Pos.load r.savpc
    latch := if old 0 r.savpc = true then kept.latch else none
    sub := if old 0 r.savpc = true then kept.sub else none
    pc1 := if old 1 r.savpc1 = true then kept.pc1 else Pos.load r.savpc1
    pc2 := if old 2 r.savpc2 = true then kept.pc2 else Pos.load r.savpc2
    annul := if old 3 r.savann = true then kept.annul else r.savann.setWidth 2 }

/-- R222: what the skipped or the replaced item had begun: a SUPD, or the request of C's ACQ, its BARWAIT, its swap. -/
def begunParts (mode : Nat) : List Aspect := if mode = 0 then [] else [.supd, .objs, .joined, .pages] ++ farParts

/-- R215, R222, R238: what a return from the handler leaves, the handler's own results landed (`u` is the group with them): C as it
stopped; the program's registers back from the bank, those with a stop record at their old value. -/
structure State.Returned (s t : State) (mode : Nat) (kept : EngineState) (u : Group) : Prop where
  phase : t.me.phase = .running
  frames : t.me.frames = s.me.hand.frames
  engines : ∀ e, t.eng e =
    (let x := if e = .c then s.resumed kept else s.eng e
     if e = s.me.trapEngine then x.marked mode (s.me.sys.brkword.setWidth 32) else x)
  regs : ∀ r, (∀ x ∈ kept.stops, x.reg = r → r ∈ s.me.hand.written) → t.me.regVal r = u.banked r
  olds : (kept.stops.map (·.reg)).Nodup → ∀ x ∈ kept.stops, x.reg ∉ s.me.hand.written → t.me.Holds x.reg x.old
  bank : t.me.bank = ⟨u.sreg 28, u.sreg 29, u.sreg 30, u.sreg 31, u.preg 7, u.hreg 15⟩
  begun : mode ≠ 0 → (s.me.trapEngine = .s → t.me.vr.supd = none) ∧ (s.me.trapEngine = .c → ∀ j ∈ t.me.work.joined, j.waiting = false)
  rest : ∀ p, p ∉ [Aspect.engine .c, .engine .l, .engine .v, .engine .m, .engine .s, .regs, .frames, .bank, .phase, .claimed] ++
    begunParts mode → s.same t p

/-! ## Handlers -/

/-- R223: THSET with both operands zero: the context has no handler from now on. -/
def thsetOffClaim (y : BitVec 2) (a b : BitVec 5) : Claim :=
  { eng := .c, y := y, srcs := [.s a, .s b], parts := [.sys]
    pre := fun s => s.me.syspriv = true ∧ s.me.sreg a = 0 ∧ s.me.sreg b = 0
    post := fun _ t => t.me.sys.thbase = 0 ∧ t.me.sys.thstack = 0 }

/-- R223: THSET of a handler and its stack, whose pages are as the rule requires. -/
def thsetClaim (y : BitVec 2) (a b : BitVec 5) (h : Handle) : Claim :=
  { eng := .c, y := y, srcs := [.s a, .s b], parts := [.sys, .bank, .regs]
    pre := fun s => s.me.syspriv = true ∧ ¬ (s.me.sreg a = 0 ∧ s.me.sreg b = 0) ∧ (s.me.sreg a).toNat % 2 ^ 16 = 0 ∧
      (s.me.sreg b).toNat % 2 ^ 16 = 0 ∧ s.handlerPages (s.me.sreg a).toNat (s.me.sreg b).toNat = .ok () ∧
      s.translate s.me.ident.ctx (s.me.sreg b).toNat s.me.syspriv = some h
    post := fun s t => t.me.sys.thbase = s.me.sreg a ||| 1 ∧ t.me.sys.thstack = s.me.sreg b ∧
      (if s.me.phase = .handler then t.me.sreg 31 = s.me.sreg b ∧ t.me.hreg 15 = h
       else t.me.bank.s31 = s.me.sreg b ∧ t.me.bank.h15 = h ∧ ∀ r, t.me.regVal r = s.me.regVal r) }

/-- R224: ENGCLAIM: the mesh and M are saved, and the handler gets an empty mesh. -/
def engclaimClaim (y : BitVec 2) : Claim :=
  { eng := .c, y := y, parts := [.mesh, .engine .m, .claimed, .frontEnd]
    pre := fun s => s.me.phase = .handler ∧ s.me.hand.claim = none ∧ ∀ o ∈ s.me.mesh.ops, o.seg = 0 ∧ o.inside = []
    post := fun s t => t.me.hand.claim = some (s.me.mesh, s.eng .m) ∧ t.me.mesh.ops = [] ∧ t.me.mesh.batches = [] ∧
      t.me.mesh.banks = MeshState.placed.banks }

/-- A byte of the accumulator store that belongs to a word which a batch writes (R146). -/
def WinPend.owns (w : WinPend) (x : Nat) : Prop := ∃ p ∈ w.parts, 8 * p.1 ≤ x ∧ x < 8 * (p.1 + p.2)

/-- R224: ENGREL: the mesh and M are as ENGCLAIM saved them; words that were pending then hold what they held. -/
def engrelClaim (y : BitVec 2) (m : MeshState) (x : EngineState) : Claim :=
  { eng := .c, y := y, parts := [.mesh, .engine .m, .claimed, .acc]
    pre := fun s => s.me.phase = .handler ∧ s.me.hand.claim = some (m, x) ∧ s.me.mesh.ops = [] ∧ s.me.mesh.batches = [] ∧
      (s.eng .m).cur = (s.eng .c).cur
    post := fun s t => t.me.hand.claim = none ∧
      t.me.mesh = { m with nextOp := s.me.mesh.nextOp, nextBatch := s.me.mesh.nextBatch } ∧ t.eng .m = x ∧
      (∀ k, (∀ b ∈ m.batches, ∀ w ∈ b.wins, ¬ w.owns k) → memGet t.me.store.acc k = memGet s.me.store.acc k) ∧
      ∀ b w, m.batches = [b] → b.wins = [w] → ∀ k, w.owns k → memGet t.me.store.acc k = memGet w.base k }

/-! ## Time, environment, platform -/

/-- R229: RNE(x * 0.94), by its definition: the nearest count, the even one of two. -/
def IsRne94 (x n : Nat) : Prop :=
  2 * (100 * n) ≤ 2 * (94 * x) + 100 ∧ 2 * (94 * x) ≤ 2 * (100 * n) + 100 ∧
    (2 * (100 * n) = 2 * (94 * x) + 100 ∨ 2 * (94 * x) = 2 * (100 * n) + 100 → n % 2 = 0)

/-- R229 to R233: TIMEALIGN, EMOV, TRACE, CALSET, YIELD. -/
def platformRow : Instr → Option Claim
  | .timealign y a => some
      { eng := .c, y := y, srcs := [.s a], parts := [.clock], pre := fun s => (s.me.sreg a).toNat ≤ s.time.now
        post := fun s t => IsRne94 (s.me.sreg a).toNat t.me.time.cycBase ∧ t.me.time.cycAt = s.time.now ∧
          t.me.time.align = some (s.me.sreg a) }
  | .emov y d a => some
      { eng := .c, y := y, srcs := [.e a], result := .fixed (.e d) (fun s => .word (s.me.ereg a)) 1 }
  | .trace y d a => some
      { eng := .c, y := y, srcs := [.s a], parts := [.trace, .sys]
        post := fun s t => s.me.work.losses = 0 → s.me.work.trace.length < 128 → ∃ r : TraceRec,
          t.me.work.trace = s.me.work.trace ++ [r] ∧ r.typ = 2 ∧ r.engine = 0 ∧ r.k = BitVec.ofNat 8 d.toNat ∧
          r.data = s.me.sreg a }
  | .yield y => some
      { eng := .c, y := y, parts := [.irq, .groups]
        post := fun s t => s.preemptWanted s.me.ident = false → t.me.work.yielding = s.me.work.yielding ∧ t.rest = s.rest }
  | _ => none

/-- R230: ERD of a source. The die temperature is a free value (log entry 10). -/
def erdClaim (y : BitVec 2) (d : BitVec 3) (a : BitVec 5) (v : State → BitVec 64) : Claim :=
  { eng := .c, y := y, parts := if a = 3 then [.free] else [], result := .fixed (.e d) (fun s => .word (v s)) 2 }

/-- R230: what each source of ERD reads, where the manual fixes it. -/
def erdReads (s : State) (a : Nat) (v : BitVec 64) : Prop :=
  match a with
  | 0 => ∃ n, IsRne94 (s.time.now - s.me.time.cycAt) n ∧ v = BitVec.ofNat 64 (s.me.time.cycBase + n)
  | 1 => v = BitVec.ofNat 64 s.time.now
  | 2 => v = BitVec.ofNat 64 (s.boot.modnum * 128 + s.me.ident.core)
  | 4 => ∃ n, IsRne94 (s.time.now - s.me.time.start - s.me.time.paused) n ∧ v = BitVec.ofNat 64 n
  | _ => True

/-- R230: ESTORE to a LOCAL page of this module with PROFILE. -/
def estoreClaim (y : BitVec 2) (d : BitVec 3) (a : BitVec 4) (b : BitVec 5) (va : State → Nat) (e : PEntry) : Claim :=
  { eng := .c, y := y, srcs := [.e d, .h a, .s b]
    pre := fun s => va s = (s.me.hreg a).va.toNat + (s.me.sreg b).toNat ∧ (s.me.hreg a).allows (va s) 8 ∧
      (s.me.hreg a).profile = true ∧ (s.me.hreg a).sealed = false ∧
      (s.me.hreg a).wr = true ∧ s.genAt s.me.ident.ctx (va s) = none ∧ s.leafOf s.me.ident.ctx (va s) = some e ∧
      s.frameExists e = true ∧ e.state = stLocal
    does := fun s => (s.tally e (va s) 8).storeLocal (paLocal (e.pa + va s % e.size)) (leBytes 8 (s.me.ereg d).toNat) }

/-- R232: CALSET: the entry of a core and slot is set, or cleared. -/
def calsetClaim (y : BitVec 2) (d a : BitVec 5) (r : List Byte) : Claim :=
  { eng := .c, y := y, srcs := [.s d, .s a], parts := [.frontEnd]
    pre := fun s => s.me.syspriv = true ∧ s.me.record (s.me.sreg a).toNat 32 32 = .ok r ∧
      s.calCheck (s.me.sreg d).toNat r = .ok ()
    post := fun s t =>
      (∀ e : CalEntry, (e.core ≠ recField r 20 1 ∨ e.slot ≠ (s.me.sreg d).toNat) →
        (e ∈ t.fe.calendar ↔ e ∈ s.fe.calendar)) ∧
      (∀ e : CalEntry, e.core = recField r 20 1 → e.slot = (s.me.sreg d).toNat →
        (e ∈ t.fe.calendar ↔ recField r 21 1 % 2 = 1 ∧ e.ctx = s.me.ident.ctx ∧ e.tick = recField r 0 8 ∧
          e.kdesc = recField r 8 8 ∧ e.group = recField r 16 4)) }

/-- R233: XSWAP whose exchange is done. -/
def xswapClaim (y : BitVec 2) (d a : BitVec 5) (x : Swap) : Claim :=
  { eng := .c, y := y, srcs := [.s d, .s a], parts := [.pages]
    pre := fun s => s.me.syspriv = true ∧ x.done = true ∧ s.pages.swaps.find? (fun z => z.core == s.me.ident.core &&
      z.va == (s.me.sreg d).toNat && z.vb == (s.me.sreg a).toNat) = some x
    post := fun s t => t.pages.swaps = s.pages.swaps.filter fun z => z.core != s.me.ident.core }

/-- R226: IINV, with the text that it names here: every group of the context fetches that text afresh. -/
def iinvClaim (y : BitVec 2) (a b : BitVec 5) : Claim :=
  { eng := .c, y := y, srcs := [.s a, .s b], parts := [.text, .groups, .links]
    pre := fun s => s.me.syspriv = true ∧ ∀ g ∈ s.groups, g.ident.ctx = s.me.ident.ctx → g.phase.isPlaced = true →
      (s.gather (.text s.me.ident.ctx)
        (.virt s.me.ident.ctx (g.textPart (s.me.sreg a).toNat ((s.me.sreg a).toNat + (s.me.sreg b).toNat)).1)
        ((g.textPart (s.me.sreg a).toNat ((s.me.sreg a).toNat + (s.me.sreg b).toNat)).2 -
          (g.textPart (s.me.sreg a).toNat ((s.me.sreg a).toNat + (s.me.sreg b).toNat)).1)).1 = true
    post := fun s t => t.me.store.text =
      (s.me.refetch s (s.me.sreg a).toNat ((s.me.sreg a).toNat + (s.me.sreg b).toNat)).store.text }

end Sys2Proof.Machine
end

