-- ==== Sys2Proof/Claims/Events.lean ====
section
/-! DEFINITION. What the manual gives for the events of groups, queues, launches and contexts that are no instruction words
(09_engine_commands R182 to R202, 10_system R209 to R227, 13_context R260 to R269, 14_queue R276 to R285, 15_kernel R289 to R298,
16_group R299 to R305). -/

namespace Sys2Proof.Machine

/-- An event with nothing to act on: nothing changes. -/
def idleEvent (pre : State → Prop) : EventClaim := { pre := pre }

/-! ## Engines and the debugger -/

/-- R160, R237: the data of result `i` of an engine arrives. -/
def arrivalClaim (e : BitVec 3) (x : Engine) (i : Nat) (f : InFlight) : EventClaim :=
  { pre := fun s => engineOfTag e.toNat = some x ∧ (s.eng x).flight[i]? = some f ∧ f.arrived = false ∧ f.req = none ∧ f.interval = none
    parts := [.engine x]
    post := fun s t => t.eng x = { s.eng x with flight := (s.eng x).flight.set i { f with arrived := true } } }

/-- R210, R211, R215: the pending interrupt is taken at an item boundary of C, with engine code 5. -/
def interruptClaim : EventClaim :=
  { pre := fun s => s.me.phase = .running ∧ s.me.work.irq = true ∧ (s.eng .c).stopped = false ∧ s.me.sys.thbase.getLsbD 0 = true
    does := fun s => s.onMe fun g => { g with work := { g.work with irq := false } }
    parts := [.engine .c, .regs, .frames, .traps, .bank, .phase, .claimed]
    post := fun s t => s.Trapped t 5 0x11 0 0 s.me.cPos.addr }

/-- R227, R299, R304, R309: a debugger that is attached stops a group, with the vectors that are in its mesh, and its control section and
stop records are written. -/
def debugStopClaim : EventClaim :=
  { pre := fun s => s.host.debugger = true ∧ (s.me.phase = .running ∨ s.me.phase = .handler)
    does := State.catchMesh
    parts := [.phase, .frontEnd]
    post := fun s t => t.me.phase = .stopped ∧ t.me.prior = s.me.phase ∧ t.me.reason = 3 ∧
      t.me.time = { s.me.time with pauseAt := s.time.now } ∧ t.fe = { s.fe with areas := s.fe.areas.map fun a =>
        if a.launch = s.me.ident.launch ∧ a.index = s.me.ident.index then { a with control := some t.me, records := some t.me } else a } }

/-- R227, R238: the group goes on as it stopped; the time between is not counted. -/
def debugResumeClaim : EventClaim :=
  { pre := fun s => s.host.debugger = true ∧ s.me.phase = .stopped
    parts := .phase :: .clock :: allEngines.map .engine
    post := fun s t => t.me.phase = s.me.prior ∧ (t.me.prior = s.me.prior ∧ t.me.status = s.me.status ∧ t.me.reason = s.me.reason) ∧
      t.me.time = { s.me.time with
        paused := s.me.time.paused + (s.time.now - s.me.time.pauseAt), lastIssue := s.me.time.lastIssue + (s.time.now - s.me.time.pauseAt) } ∧
      ∀ e, t.eng e = { s.eng e with waiting := (s.eng e).waiting.map (· + (s.time.now - s.me.time.pauseAt)) } }

/-! ## Jobs -/

/-- R182 to R184: the job may start: every job ordered before it is complete, and C's earlier accesses to its footprints are performed. -/
def State.jobStarts (s : State) (num : Nat) (j : Job) : Prop :=
  s.me.job num = some j ∧ j.st = .issued ∧ s.jobMoves j = true ∧ s.awaits (s.jobAgent j) = false ∧ s.afterDone j = true ∧
    ∀ p ∈ j.preds, ∀ x ∈ s.me.work.jobs, x.num = p → x.num ≠ num → x.st = .complete

/-- R187: a job whose data is here starts with the bytes that it reads: those of the source, or of its rows one after another. -/
def jobStartClaim (num : Nat) (j : Job) (d : List Byte) : EventClaim :=
  { pre := fun s => s.jobStarts num j ∧ (∀ r ∈ s.jobReads j.kind, (s.gather (s.jobAgent j) r.1 r.2).1 = true) ∧ s.jobData j = d
    does := fun s => (s.jobReads j.kind).foldl (fun t r => t.countRange (s.jobAgent j) r.1 r.2) s
    parts := [.jobs]
    post := fun s t => t.me.job num = some { j with st := .running, data := d } ∧
      (∀ n src dst, j.kind = .copy n src dst → d.length = n) ∧
      (∀ ew rows cols src dst sp dp, j.kind = .transpose ew rows cols src dst sp dp → d.length = rows * (cols * ew)) ∧
      t.me.work.lastJob = s.me.work.lastJob }

/-- R249, R256: lines of other modules are asked for first. -/
def jobAskClaim (num : Nat) (j : Job) : EventClaim :=
  { pre := fun s => s.jobStarts num j ∧ ∃ r ∈ s.jobReads j.kind, (s.gather (s.jobAgent j) r.1 r.2).1 = false
    does := fun s => (s.jobReads j.kind).foldl (fun t r => (t.gather (s.jobAgent j) r.1 r.2).2) s }

/-- No other placed group has the core of the one in focus. -/
def State.hasCore (s : State) : Prop := ∀ g ∈ s.rest, g.ident.core = s.me.ident.core → g.phase.isPlaced = false

/-- R187: a copy into the scratchpad of the issuing core writes up to 4 KiB, and no other byte of it. -/
def chunkClaim (num : Nat) (j : Job) (n a : Nat) (src : Loc) : EventClaim :=
  { pre := fun s => s.me.job num = some j ∧ j.st = .running ∧ s.jobMoves j = true ∧ j.prog < n ∧ j.data.length = n ∧
      j.kind = .copy n src (.spad s.me.ident.core a) ∧ a + n ≤ 2 ^ 26 ∧ s.me.phase.isPlaced = true ∧ s.hasCore
    does := fun s => s.foldLoc s.me.ident.core (.spad s.me.ident.core (a + j.prog)) ((j.data.drop j.prog).take (min 4096 (n - j.prog)))
    parts := [.spad, .jobs, .pend]
    post := fun s t => t.me.job num = some { j with prog := j.prog + min 4096 (n - j.prog) } ∧
      ∀ x, memGet t.me.store.spad x =
        if a + j.prog ≤ x ∧ x < a + j.prog + min 4096 (n - j.prog) then j.data.getD (x - a) 0 else memGet s.me.store.spad x }

/-- R182, R187, R360: any unit of a copy job: its pieces are written, and the job is further on. -/
def unitClaim (num : Nat) (j : Job) : EventClaim :=
  { pre := fun s => s.me.job num = some j ∧ j.st = .running ∧ s.jobMoves j = true ∧ chunkWrites j ≠ []
    does := fun s => (chunkWrites j).foldl (fun t p => t.jobWrite j true p.1 p.2) s
    parts := [.jobs]
    post := fun s t => t.me.work.jobs = s.me.work.jobs.map fun x => if x.num = num then { x with prog := x.prog + chunkStep j } else x }

/-- R185: the job is complete and its flag is set by the engine that ran it. -/
def State.jobEnded (t : State) (num : Nat) (j : Job) : Prop :=
  (∀ x ∈ t.me.work.jobs, x.num = num → x.st = .complete) ∧
    (j.fl = true → t.me.flag j.flag = true ∧ t.me.work.setters[j.flag]? = some (BitVec.ofNat 3 j.kind.setter))

/-- R185, R195: a job whose writes are all made, and performed: the pieces of a copy, the elements of an H job. -/
def jobCompleteClaim (num : Nat) (j : Job) : EventClaim :=
  { pre := fun s => s.me.job num = some j ∧ j.st = .running ∧ s.jobMoves j = true ∧ j.flag < 256 ∧ chunkWrites j = [] ∧
      s.me.meshFree j.kind = true ∧ s.hNext j = none ∧ s.unperformed (s.jobAgent j) = false
    does := fun s => ((s.dropLines (s.jobAgent j)).onMe (·.finishJob j)).teardownAll
    post := fun _ t => t.jobEnded num j }

/-- R182, R195: an H job takes its next element: what it gives goes to the output, and the accumulator and the job's place move on. -/
def hElementClaim (num : Nat) (j : Job) (h : HWork) (x : HStep) : EventClaim :=
  { pre := fun s => s.me.job num = some j ∧ j.st = .running ∧ s.jobMoves j = true ∧ s.me.meshFree j.kind = true ∧
      s.hNext j = some (.ok (h, x))
    does := fun s => match x.write with
      | none => s
      | some (k, v) => s.jobWrite j (j.kind.hEngine == 1) (h.r.width * k) (leBytes h.r.width v)
    parts := [.jobs]
    post := fun s t => t.me.work.lastJob = s.me.work.lastJob ∧ t.me.work.jobs = s.me.work.jobs.map fun y =>
      if y.num = num then { y with prog := y.prog + 1, data := match x.acc with
        | none => y.data
        | some v => leBytes 8 v }
      else y }

/-- R195: the element that an H job takes with place `k`, for the forms that take their elements in index order: what is written, and what
the accumulator becomes. -/
def State.StepGives (s : State) (j : Job) (h : HWork) (x : HStep) : Prop :=
  let k := j.prog
  let a (i : Nat) : Nat := s.elemAt j h.r.width h.a i
  let b (i : Nat) : Nat := s.elemB j h i
  let runs (i : Nat) (u v acc w : Nat) : Prop := h.call i u v acc = .ok w
  match h.form with
  | .zip => ∃ w, runs k (a k) (b k) (if h.accin = true then s.elemAt j h.r.width h.o k else h.r.ident.toNat) w ∧ x = ⟨some (k, w), none⟩
  | .outer => ∃ w, runs k (a (k / h.nb)) (b (k % h.nb)) h.r.ident.toNat w ∧ x = ⟨some (k / h.nb * h.op + k % h.nb, w), none⟩
  | .scan => h.inOrder = true → ∃ w, runs k (a k) (b k) (leVal j.data) w ∧ x = ⟨some (k, w), some w⟩
  | .fold => h.inOrder = true →
      if h.n = 0 then x = ⟨some (0, h.r.ident.toNat), none⟩
      else ∃ w, runs k (a k) (b k) (leVal j.data) w ∧ x = ⟨if k + 1 = h.n then some (0, w) else none, some w⟩

/-- R193: the job that a fault of its routine stops. -/
def State.routineStopped (s : State) (num : Nat) (j : Job) (f : JobFault) : State :=
  (s.onMe fun g =>
    { (g.onJob num fun x => { x with st := .faulted }).unmark (.job num) with
      sys := { g.sys with routflt := BitVec.ofNat 64 (j.kind.handle % 2 ^ 6 * 2 ^ 58 + f.uop % 2 ^ 4 * 2 ^ 54 + j.kind.hEngine % 4 * 2 ^ 52 +
        f.reason % 2 ^ 4 * 2 ^ 48 + f.elem % 2 ^ 32) } }).dropLines (s.jobAgent j)

/-- A running H job whose routine faults at its next element. -/
def State.routineFaults (s : State) (num : Nat) (j : Job) (f : JobFault) : Prop :=
  s.me.job num = some j ∧ j.st = .running ∧ s.jobMoves j = true ∧ s.me.meshFree j.kind = true ∧ s.hFault j = some f

/-- R193, R215: a routine that faults: what was written remains, ROUTFLT says where, and the group traps at the job's instruction. -/
def routineFaultClaim (num : Nat) (j : Job) (f : JobFault) : EventClaim :=
  { pre := fun s => s.routineFaults num j f ∧ s.me.phase = .running ∧ s.me.sys.thbase.getLsbD 0 = true
    does := fun s => s.routineStopped num j f
    parts := [.engine .c, .regs, .frames, .traps, .bank, .phase, .claimed]
    post := fun s t => s.Trapped t 0 0x0E 0 0 j.addr }

/-- R193, R301: a group that has ended takes no trap; the job is gone, and with it what kept the cluster. -/
def routineLostClaim (num : Nat) (j : Job) (f : JobFault) : EventClaim :=
  { pre := fun s => s.routineFaults num j f ∧ (s.me.phase = .done ∨ s.me.phase = .frozen)
    does := fun s => (s.routineStopped num j f).teardownAll }

/-! ## Firings -/

/-- R198: the slot is FIRING and its source is not read yet. -/
def State.firingAt (s : State) (c n : Nat) (x : WSlot) : Prop :=
  s.slotOf c n = some x ∧ x.st = .firing ∧ x.firing = none ∧ s.awaits (.firing c n) = false

/-- R198, R199: the firing that a slot begins, with its source data. -/
def WSlot.begun (x : WSlot) (d : List Byte) : WSlot :=
  { x with
    nextFiring := (x.nextFiring + 1) % 2 ^ 32
    firing := some ⟨x.nextFiring, x.entry.qp, if x.entry.tmo = 0 then 100 else x.entry.tmo, 0, false, 0, 0, d⟩ }

/-- R199: a SIGNAL reads nothing. -/
def signalStartClaim (ctx : BitVec 8) (slot : BitVec 12) (x : WSlot) : EventClaim :=
  { pre := fun s => s.firingAt ctx.toNat slot.toNat x ∧ x.entry.kind = 2 ∧ s.firingFails ctx.toNat x = none
    does := fun s => s.markFiring slot.toNat x
    parts := [.contexts]
    post := fun s t => t.slotOf ctx.toNat slot.toNat = some (x.begun []) ∧ s.otherCtx t ctx.toNat }

/-- R198, R199, R219, R353: a PUT reads its source, its bytes count for the buffer of the group that posted it, and the words of the
cluster that it will write are pending. -/
def putStartClaim (ctx : BitVec 8) (slot : BitVec 12) (x : WSlot) (l : Loc) : EventClaim :=
  { pre := fun s => s.firingAt ctx.toNat slot.toNat x ∧ x.entry.kind ≠ 2 ∧ s.firingFails ctx.toNat x = none ∧
      s.firingSource ctx.toNat x = some l ∧ l.isAway = false ∧ (s.gather (.firing ctx.toNat slot.toNat) l x.entry.len).1 = true
    does := fun s =>
      ((((s.countRange (.firing ctx.toNat slot.toNat) l x.entry.len).dropLines (.firing ctx.toNat slot.toNat)).firingBytes x).markFiring
        slot.toNat x).onSlot ctx.toNat slot.toNat fun y =>
      { y with nextFiring := (y.nextFiring + 1) % 2 ^ 32
               firing := some ⟨y.nextFiring, y.entry.qp, if y.entry.tmo = 0 then 100 else y.entry.tmo, 0, false, 0, 0,
                 s.locBytes (.firing ctx.toNat slot.toNat) l x.entry.len⟩ } }

/-- R200: a firing that cannot begin ends at once, and its slot does not re-arm. -/
def firingFailClaim (ctx : BitVec 8) (slot : BitVec 12) (x : WSlot) (last : Last) : EventClaim :=
  { pre := fun s => s.firingStartEnabled ctx.toNat slot.toNat = true ∧ s.slotOf ctx.toNat slot.toNat = some x ∧
      s.firingFails ctx.toNat x = some last
    does := fun s => s.addCtrOpt x.entry.lctr 1 2
    parts := [.contexts]
    post := fun s t => s.otherCtx t ctx.toNat ∧ ∀ y, s.slotOf ctx.toNat slot.toNat = some y →
      ∃ z, t.slotOf ctx.toNat slot.toNat = some z ∧ z.last = last ∧ z.fired = y.fired + 1 ∧ z.firing = none ∧
        z.st = (if y.cancel = true then .cancelled else .done) }

/-- R199: packets go into the store as it takes them; with the last one the firing is locally complete. -/
def firingSendClaim (ctx : BitVec 8) (slot : BitVec 12) (x : WSlot) (f : Firing) (q : QPair) (p : Nat) (u : State) (g : Firing) :
    EventClaim :=
  { pre := fun s => s.slotOf ctx.toNat slot.toNat = some x ∧ x.st = .firing ∧ x.firing = some f ∧ f.isLocal = false ∧ s.qp f.qp = some q ∧
      s.firingPort q x.entry = some p ∧ sendFiring q p x.entry 4097 s f = (u, g)
    does := fun s =>
      let done : Firing := { g with isLocal := true, sentAt := s.time.now }
      if g.allSent x.entry = false then u.onSlot ctx.toNat slot.toNat fun y => { y with firing := some g }
      else if x.entry.rc = true then u.onSlot ctx.toNat slot.toNat fun y => { y with firing := some done }
      else (u.onSlot ctx.toNat slot.toNat fun y => { y with unacked := y.unacked ++ [{ done with data := [] }] }).endFiring
        ctx.toNat slot.toNat .ok false true }

/-- R200: no acknowledgement within TMO. -/
def Firing.isLate (f : Firing) (now : Nat) : Prop := f.isLocal = true ∧ f.sentAt + 1000 * f.tmo ≤ now

/-- R200: a firing with RC is sent again, up to 3 times. -/
def firingResendClaim (ctx : BitVec 8) (slot : BitVec 12) (x : WSlot) (f : Firing) : EventClaim :=
  { pre := fun s => s.slotOf ctx.toNat slot.toNat = some x ∧ x.firing = some f ∧ f.isLate s.time.now ∧ f.resends < 3 ∧
      ∀ g ∈ x.unacked, ¬g.isLate s.time.now
    parts := [.contexts]
    post := fun s t => s.otherCtx t ctx.toNat ∧
      t.slotOf ctx.toNat slot.toNat = some { x with firing := some { f with off := 0, isLocal := false, resends := f.resends + 1 } } }

/-- R200, R202, R331: then it ends LOST, and the queue pair counts a loss. -/
def firingLostClaim (ctx : BitVec 8) (slot : BitVec 12) (x : WSlot) (f : Firing) : EventClaim :=
  { pre := fun s => s.slotOf ctx.toNat slot.toNat = some x ∧ x.firing = some f ∧ f.isLate s.time.now ∧ 3 ≤ f.resends ∧
      ∀ g ∈ x.unacked, ¬g.isLate s.time.now
    does := fun s => (s.loseFiring ctx.toNat slot.toNat f.qp).endFiring ctx.toNat slot.toNat .lost false false }

/-- R200: an earlier firing, with RC = 0, that is not acknowledged is LOST. -/
def earlierLostClaim (ctx : BitVec 8) (slot : BitVec 12) (x : WSlot) (f : Firing) : EventClaim :=
  { pre := fun s => s.slotOf ctx.toNat slot.toNat = some x ∧ x.unacked.find? (·.late s.time.now) = some f
    does := fun s => (s.env ctx.toNat 7 none (f.qp * 2 ^ 32 + slot.toNat)).liftMarks slot.toNat x f.num
    parts := [.contexts, .links]
    post := fun s t => (∀ y, s.slotOf ctx.toNat slot.toNat = some y → t.slotOf ctx.toNat slot.toNat = some
        { y with unacked := y.unacked.filter (fun g => g.num != f.num), losts := min (y.losts + 1) 0xFFFF, last := .lost }) ∧
      ∀ q, s.qp f.qp = some q → t.qp f.qp = some { q with losses := satAdd32 q.losses 1 } }

/-- R330: a target's record of a firing expires. -/
def recordExpiryClaim (qp slot : BitVec 12) (firing : Nat) (q : QPair) : EventClaim :=
  { pre := fun s => s.qp qp.toNat = some q
    parts := [.links]
    post := fun s t => (∀ n, n ≠ qp.toNat → t.qp n = s.qp n) ∧ ∃ l, t.qp qp.toNat = some { q with recs := l } ∧
      ∀ r, r ∈ l ↔ r ∈ q.recs ∧ ¬(r.slot = slot.toNat ∧ r.firing = firing ∧ ∃ x, r.expiry = some x ∧ x ≤ s.time.now) }

/-! ## Contexts -/

/-- R260, R268: a FREEZING context without a firing in progress is FROZEN, and the host learns of it. -/
def frozenClaim (ctx : BitVec 8) (k : Context) : EventClaim :=
  { pre := fun s => s.ctx ctx.toNat = some k ∧ k.st = .freezing ∧ ∀ x ∈ k.slots, x.2.st ≠ .firing
    does := fun s => s.event 2 ctx.toNat 4 0
    parts := [.contexts]
    post := fun s t => s.otherCtx t ctx.toNat ∧ t.ctx ctx.toNat = some { k with st := .frozen } }

/-- R269: a DRAINING context of which nothing is left but pages. -/
structure State.Drained (s : State) (n : Nat) (k : Context) : Prop where
  here : s.ctx n = some k
  st : k.st = .draining
  slots : ∀ x ∈ k.slots, x.2.st ≠ .firing
  groups : ∀ g ∈ s.groups, g.ident.ctx = n → g.phase.isPlaced = false
  pairs : ∀ q ∈ s.links.qps, q.ctx = n → q.st = .closed
  ops : ∀ o ∈ s.pages.ops, o.ctx ≠ n
  swaps : ∀ x ∈ s.pages.swaps, x.ctx ≠ n

/-- R260, R269: it gives its pages, counters and launches back and is FREE; DESTROY has its STATUS. -/
def drainedClaim (ctx : BitVec 8) (k : Context) : EventClaim :=
  { pre := fun s => s.Drained ctx.toNat k
    does := fun s => (s.unmapAll ctx.toNat).writeAllCharges ctx.toNat
    parts := [.contexts, .counters, .links, .frontEnd, .hbm, .host]
    post := fun s t => t.ctx ctx.toNat = none ∧ s.otherCtx t ctx.toNat ∧ (∀ c, k.grants c = true → t.ctr c = 0) ∧
      (∀ l ∈ t.fe.launches, l.ctx ≠ ctx.toNat) ∧
      ∃ u : State, u.mem.hbm = s.mem.hbm ∧ u.links = s.links ∧ (k.cmd = none → t = u.event 2 ctx.toNat 0 0) ∧
        ∀ cmd, k.cmd = some cmd →
          t = ((u.event 2 ctx.toNat 0 0).putPa ctx.toNat (cmd + 1) (leBytes 1 1) (.bell cmd)).event 1 ctx.toNat 1 cmd }

/-! ## Queues -/

/-- R277, R286: entry `i` of a queue completes with a status: the STATUS byte, the counter of CCTR for OK, DONE past every leading
complete entry. -/
structure State.EntryEnded (s t : State) (q i : Nat) (h : HQueue) (st : Status) : Prop where
  status : memVal t.mem.hbm (paLocal h.ring + 64 + 64 * (i % 2 ^ h.logn) + 2) 1 =
    (match st with | .ok => 1 | .cancelled => 2 | .faulted => 3 | .hung => 4 | .badrcb => 5 | .badentry => 6)
  done : ∃ u, t.hq q = some u ∧ memVal t.mem.hbm (paLocal h.ring + 16) 8 = u.done % 2 ^ 64 ∧ h.done ≤ u.done ∧
    (∀ e ∈ u.entries, e.index = i → e.st = .complete st) ∧ (∀ e ∈ u.entries, e.index = u.done → e.st = .started) ∧
    (st ≠ .ok → i ∈ u.bad) ∧ u.head = h.head
  others : ∀ n, n ≠ q → ∀ u, s.hq n = some u → ∃ v, t.hq n = some v ∧ v.head = u.head ∧ v.done = u.done ∧ v.st = u.st

/-- R277: the next entry of a queue is taken: HEAD moves on, and the entry is followed. -/
def State.taken (s t : State) (q : Nat) (h : HQueue) (e : QEntry) : Prop :=
  t.hq q = some { h with head := h.head + 1, entries := h.entries ++ [e] } ∧
    memVal t.mem.hbm (paLocal h.ring + 8) 8 = (h.head + 1) % 2 ^ 64 ∧ s.otherHq t q

/-- R276, R287, R288, R294: a LAUNCH entry whose descriptor passes starts a launch. -/
def launchClaim (queue : BitVec 10) (x : Next) (u : State) (r : List Byte) : EventClaim :=
  { pre := fun s => s.noteOverrun.nextEntry queue.toNat = some x ∧ (eHead x.r).typ = 1 ∧ x.dep = .met ∧ entryOk x.c x.r = true ∧
      s.noteOverrun.acceptRegion x.h.ctx (recField x.r 36 2) = some u ∧
      u.fetchRange (.queue queue.toNat) x.h.ctx (recField x.r 16 8) 128 = .ok r ∧ recField x.r 16 8 % 64 = 0 ∧
      (u.dropLines (.queue queue.toNat)).kdescOk x.h.ctx x.c r (recField x.r 32 4) (recField x.r 24 8) = true ∧
      u.hq queue.toNat = some x.h ∧ ∀ e ∈ x.h.entries, e.index ≠ x.h.head
    does := fun _ => u.dropLines (.queue queue.toNat)
    parts := [.frontEnd, .hbm]
    post := fun s t => s.taken t queue.toNat x.h ⟨x.h.head, .started, some s.fe.nextLaunch, none, false⟩ ∧
      t.fe.nextLaunch = s.fe.nextLaunch + 1 ∧ ∃ l, t.fe.launches = s.fe.launches ++ [l] ∧ l.id = s.fe.nextLaunch ∧ l.ctx = x.h.ctx ∧
        l.queue = some queue.toNat ∧ l.entry = x.h.head ∧ l.rid = recField x.r 36 2 ∧ l.kd = kdescOf r ∧ l.args = recField x.r 24 8 ∧
        l.g = recField x.r 32 4 ∧ l.placed = 0 ∧ l.results = [] ∧ l.cancelled = false ∧
        l.st = (if (kdescOf r).trig = none then .placing else .trigger) ∧
        (l.met = true ↔ ∃ n, (kdescOf r).trig = some n ∧ (kdescOf r).tthresh ≤ s.ctr n) }

/-- R276, R279, R288: a LAUNCH entry that does not start, with the status it gets: it depends on a failed one, it is no valid entry,
its region is not accepted, or its descriptor fails. -/
def launchEndClaim (queue : BitVec 10) (x : Next) (st : Status) (v : State) (pre : State → Prop) : EventClaim :=
  { pre := fun s => s.noteOverrun.nextEntry queue.toNat = some x ∧ (eHead x.r).typ = 1 ∧ x.dep ≠ .waits ∧ pre s.noteOverrun
    does := fun _ => v.takeAndEnd queue.toNat st }

/-- The cases of R276, R279 and R288 in their order. -/
def launchEnds (queue : BitVec 10) (x : Next) (u v : State) (r : List Byte) : List EventClaim :=
  [ { (launchEndClaim queue x .cancelled u fun s => x.dep = .bad ∧ s = u) with does := fun _ => u.cancelNext queue.toNat },
    launchEndClaim queue x .badentry u fun s => x.dep = .met ∧ entryOk x.c x.r = false ∧ s = u,
    launchEndClaim queue x .badrcb u fun s => x.dep = .met ∧ entryOk x.c x.r = true ∧ s = u ∧
      s.acceptRegion x.h.ctx (recField x.r 36 2) = none,
    launchEndClaim queue x .badentry (v.dropLines (.queue queue.toNat)) fun s => x.dep = .met ∧ entryOk x.c x.r = true ∧
      s.acceptRegion x.h.ctx (recField x.r 36 2) = some v ∧
      v.fetchRange (.queue queue.toNat) x.h.ctx (recField x.r 16 8) 128 = .ok r ∧
      (recField x.r 16 8 % 64 ≠ 0 ∨
        (v.dropLines (.queue queue.toNat)).kdescOk x.h.ctx x.c r (recField x.r 32 4) (recField x.r 24 8) = false) ]

/-- R284: an entry of a type is what the front end serves next. -/
def State.servedNext (s : State) (typ : Nat) (queue : BitVec 10) (h : HQueue) (x : Next) : Prop :=
  s.power.tripped = false ∧ s.noteOverrun.noteReady.pick = some (queue.toNat, h, .entry x) ∧ (eHead x.r).typ = typ

/-- R284: the state in which that entry is served. -/
def State.serving (s : State) (queue : BitVec 10) : State := s.noteOverrun.noteReady.refill queue.toNat

/-- An entry that is served, with what it does. -/
def entryClaim (typ : Nat) (queue : BitVec 10) (h : HQueue) (x : Next) (pre : State → Prop) (act : State → State) : EventClaim :=
  { pre := fun s => s.servedNext typ queue h x ∧ x.dep = .met ∧ entryOk x.c x.r = true ∧ pre (s.serving queue)
    does := fun s => (act (s.serving queue)).afterServe queue.toNat }

/-- R276: the entries that are no LAUNCH. -/
def entryClaims (h : HQueue) (x : Next) : Instr → List EventClaim
  | .wait queue =>
    let n := recField x.r 16 2 % 2 ^ 12
    let th := BitVec.ofNat 64 (recField x.r 24 8)
    [ entryClaim 3 queue h x (fun s => th ≤ s.ctr n) (·.takeAndEnd queue.toNat .ok),
      entryClaim 3 queue h x (fun s => ¬th ≤ s.ctr n) (·.takeEntry queue.toNat (some (n, th))) ]
  | .signalEntry queue =>
    let ctr := if recField x.r 16 2 / 2 ^ 15 % 2 = 1 then none else some (recField x.r 16 2 % 2 ^ 12)
    [ entryClaim 4 queue h x (fun _ => recField x.r 32 1 ≠ 1) fun s =>
        (s.addCtrOpt ctr (BitVec.ofNat 64 (recField x.r 24 8)) 5).takeAndEnd queue.toNat .ok,
      entryClaim 4 queue h x (fun _ => recField x.r 32 1 = 1) fun s =>
        ((s.addCtrOpt ctr (BitVec.ofNat 64 (recField x.r 24 8)) 5).raiseIrq queue.toNat (recField x.r 40 8) (recField x.r 36 4)).takeAndEnd
          queue.toNat .ok ]
  | .hostnote queue =>
    [ entryClaim 5 queue h x (fun _ => True) fun s =>
        ((s.hostPut (recField x.r 16 8) (leBytes 8 (recField x.r 24 8))).event 4 x.h.ctx 0 (recField x.r 16 8)).takeAndEnd queue.toNat .ok ]
  | _ => []

/-- R276: STEP posts its work entries in order, as WQPOST does, and ends BADENTRY at one that WQPOST would refuse. -/
def stepClaim (queue : BitVec 10) (h : HQueue) (x : Next) (r : List Byte) (v : State) (ok : Bool) : EventClaim :=
  { (entryClaim 2 queue h x (fun s => s.fetchRange (.queue queue.toNat) x.h.ctx (recField x.r 16 8) (64 * recField x.r 24 2) = .ok r ∧
      r ≠ [] ∧ postList x.h.ctx x.c.root.nivose ((List.range (recField x.r 24 2)).map fun i => (r.drop (64 * i)).take 64)
        (s.dropLines (.queue queue.toNat)) = (v, ok)) id) with
    does := fun _ => (v.takeAndEnd queue.toNat (if ok = true then .ok else .badentry)).afterServe queue.toNat }

/-- R276: a STEP whose work entries are in no mapped page ends BADENTRY. -/
def stepUnmappedClaim (queue : BitVec 10) (h : HQueue) (x : Next) : EventClaim :=
  entryClaim 2 queue h x (fun s => s.fetchRange (.queue queue.toNat) x.h.ctx (recField x.r 16 8) (64 * recField x.r 24 2) = .ok [])
    (·.takeAndEnd queue.toNat .badentry)

/-- R276, R279: an entry that is no LAUNCH and does not start: it depends on a failed one, or it is no valid entry. -/
def entryEndClaims (typ : Nat) (queue : BitVec 10) (h : HQueue) (x : Next) : List EventClaim :=
  [ { pre := fun s => s.servedNext typ queue h x ∧ x.dep = .bad
      does := fun s => ((s.serving queue).cancelNext queue.toNat).afterServe queue.toNat },
    { pre := fun s => s.servedNext typ queue h x ∧ x.dep = .met ∧ entryOk x.c x.r = false
      does := fun s => ((s.serving queue).takeAndEnd queue.toNat .badentry).afterServe queue.toNat } ]

/-- The rows that serve an entry, with the TYPE of the entry (R275). -/
def entryTypes : Instr → Option (Nat × BitVec 10)
  | .step q => some (2, q)
  | .wait q => some (3, q)
  | .signalEntry q => some (4, q)
  | .hostnote q => some (5, q)
  | _ => none

/-- R276: a WAIT whose condition has held completes OK. -/
def waitHoldsClaim (queue : BitVec 10) (index : Nat) (h : HQueue) (e : QEntry) : EventClaim :=
  { pre := fun s => s.hq queue.toNat = some h ∧ h.entries.find? (fun e => e.index == index && e.st == .started) = some e ∧ e.met = true
    does := fun s => s.completeEntry queue.toNat index .ok }

/-- R277 to R279, R297: a LAUNCH whose groups have all completed; one that ends CANCELLED with a group that faulted under REGION cancels
what depends on it (R267). -/
def entryDoneClaim (queue : BitVec 10) (index : Nat) (l : Launch) (st : Status) : EventClaim :=
  { pre := fun s => s.entryDone queue.toNat index = some l ∧ s.launchStatus l = st
    does := fun s =>
      let u := (s.onLaunch l.id fun l => { l with st := .done }).dropReserved l.id
      let v := u.completeEntry queue.toNat index st
      let w := if st = .ok ∨ st = .cancelled then v else v.sendToken queue.toNat index
      if st = .cancelled ∧ l.results.any (fun r => r.2 == .faulted) = true then w.spreadToken queue.toNat index else w
    parts := [.frontEnd]
    post := fun s t => t.fe.queues = s.fe.queues ∧ (∀ l ∈ t.fe.launches, l ∈ s.fe.launches) ∧
      ∀ l ∈ s.fe.launches, l.st ≠ .done → l ∈ t.fe.launches }

/-! ## Launches and placement -/

/-- R268, R295, R298: the trigger of a launch has been met. -/
def triggerClaim (launch : Nat) (l : Launch) : EventClaim :=
  { pre := fun s => s.launch launch = some l ∧ l.st = .trigger ∧ l.met = true ∧ ∃ k, s.ctx l.ctx = some k ∧ k.st = .ready
    parts := [.frontEnd]
    post := fun s t => t.fe = { s.fe with launches := s.fe.launches.map fun x => if x.id = launch then { x with st := .placing } else x } }

/-- R63, R289, R290: the images and the arguments stand in a group of a launch; a word that cannot stand in the dictionary does not. -/
structure Group.Loaded (g h : Group) (l : Launch) (x : Images) : Prop where
  args : h.cr.s.toList = g.cr.s.toList.mapIdx fun i v =>
    if i = 1 then BitVec.ofNat 64 l.args else if i = 2 then BitVec.ofNat 64 g.ident.index else if i = 3 then BitVec.ofNat 64 l.g
    else if 4 ≤ i ∧ i < 4 + l.kd.argw then BitVec.ofNat 64 (recField x.args (8 * (i - 4)) 8) else v
  data : ∀ a, a < 2 ^ 26 → memGet h.store.spad a = if a < x.data.length then x.data.getD a 0 else memGet g.store.spad a
  text : (∀ a, a < x.text.length → memGet h.store.text a = x.text.getD a 0) ∧ h.store.tlen = l.kd.tlen ∧ h.store.textVa = l.kd.text
  dict : ∀ e, assocGet h.store.dict e =
    if e < x.dict.length / 4 ∧ loadable (recField x.dict (4 * e) 4) = true then some (BitVec.ofNat 32 (recField x.dict (4 * e) 4)) else none
  binds : ∀ q : Fin 16, (h.queues[q]).entries = (g.queues[q]).entries ∧ (h.queues[q]).bind =
    (let b := (l.kd.qmap.getD q.val 0).toNat
     if b / 2 ^ 7 % 2 = 1 then
       match engineOfTag (b / 2 ^ 3 % 2 ^ 3), engineOfTag (b % 2 ^ 3) with
       | some p, some e => some (p, e)
       | _, _ => none
     else none)

/-- R289, R296, R299: the groups of a cluster whose images are here load them and run; C of a calendar group issues from TICK on. -/
def placedClaim (launch cluster : Nat) (l : Launch) (x : Images) : EventClaim :=
  { pre := fun s => s.launch launch = some l ∧ (∃ g ∈ s.groups, g.isPlacing launch cluster = true) ∧
      s.awaits (.launch launch) = false ∧ s.images l = .ok x
    does := fun s => (s.mapGroups fun g =>
      if g.isPlacing launch cluster = true then
        let u := g.load l x
        { u with phase := .running
                 time := { u.time with
                   start := max s.time.now (l.tick.getD 0), lastIssue := max s.time.now (l.tick.getD 0), hold := l.tick } }
      else g).dropLines (.launch launch) }

/-- R249, R289: images in other modules are asked for first. -/
def imagesAskClaim (launch cluster : Nat) (l : Launch) (v : State) : EventClaim :=
  { pre := fun s => s.launch launch = some l ∧ (∃ g ∈ s.groups, g.isPlacing launch cluster = true) ∧
      s.awaits (.launch launch) = false ∧ s.images l = .error v
    does := fun _ => v }

/-- R284, R296: with no queue to serve, the calendar groups whose cores are free are placed. -/
def idleServiceClaim : EventClaim :=
  { pre := fun s => s.power.tripped = false ∧ ((placeCalendars 128 s.teardownAll).noteOverrun.noteReady).pick = none
    does := fun s => (placeCalendars 128 s.teardownAll).noteOverrun.noteReady }

/-- R284: one unit of the queue that R284 picks is served. -/
def serviceClaim (u : State) (q : Nat) (h : HQueue) (w : Serve) : EventClaim :=
  { pre := fun s => s.power.tripped = false ∧ (placeCalendars 128 s.teardownAll).noteOverrun.noteReady = u ∧ u.pick = some (q, h, w)
    does := fun _ => ((u.refill q).serve q w).afterServe q }

/-- R283, R284: of the queues that can be served, one of the highest priority is; of these the first from the round pointer on. -/
structure State.Picked (s : State) (q : Nat) (h : HQueue) (w : Serve) : Prop where
  here : (q, h) ∈ s.fe.queues ∧ s.serveOf q h = some w
  best : ∀ x ∈ s.fe.queues, (s.serveOf x.1 x.2).isSome = true → s.queuePrio x.2 ≤ s.queuePrio h
  round : ∀ x ∈ s.fe.queues, (s.serveOf x.1 x.2).isSome = true → s.queuePrio x.2 = s.queuePrio h → s.fe.round ≤ x.1 → s.fe.round ≤ q

/-- R285, R303: with every member at its pre-emption point, the cluster leaves its cores. -/
def preemptClaim : EventClaim :=
  { pre := fun s => s.me.work.yielding = true ∧ s.me.phase = .running ∧ cannotMove (s.unitOf s.me.ident) = false ∧
      (s.unitOf s.me.ident).all (·.atStop) = true
    does := fun s => (s.unitOf s.me.ident).foldl (fun t g => t.sendAway g) s }

/-- R301: with a FROZEN member the request is withdrawn. -/
def preemptOffClaim : EventClaim :=
  { pre := fun s => s.me.work.yielding = true ∧ s.me.phase = .running ∧ cannotMove (s.unitOf s.me.ident) = true
    does := fun s => s.mapGroups fun g =>
      if (s.unitOf s.me.ident).any (fun x => x.ident.core == g.ident.core) = true then { g with work := { g.work with yielding := false } }
      else g }

/-- R280, R299: a group that has issued nothing for HANGMS completes HUNG, and its cluster gets error tokens. -/
def hangClaim (n : Nat) : EventClaim :=
  { pre := fun s => (s.me.phase = .running ∨ s.me.phase = .handler) ∧ s.hangLimit s.me.ident = some n ∧ s.me.time.lastIssue + n ≤ s.time.now
    does := fun s => ((s.sendTokens).endGroup .done .hung true).teardown s.me.ident
    post := fun _ t => (t.me.phase = .done ∨ t.me.phase = .retired) ∧ t.me.status = .hung }

/-- R208, R299, R354: a group whose engines have all stopped, and whose writes are performed, completes OK; every NOTIFY with CT
counts once, however many engines have executed it. -/
def combinerClaim : EventClaim :=
  { pre := fun s => s.me.phase = .running ∧ (∀ e, (s.eng e).stopped = true) ∧ s.accessWaits 3 false = false
    does := fun s =>
      let u := s.writeBufout
      let words := (allEngines.filterMap fun e => (u.eng e).notify).eraseDups
      ((words.foldl (fun t p => t.addCtr p.2 1 4) u).endGroup .done .ok false).teardown s.me.ident
    post := fun _ t => (t.me.phase = .done ∨ t.me.phase = .retired) ∧ t.me.status = .ok }

/-! ## The calendar -/

/-- R296: an instance whose record or entries are not as the rule requires is discarded, and the host learns of it. -/
def calendarDropClaim (kdesc tick : BitVec 64) (e : CalEntry) (es : List CalEntry) (r : List Byte) (st : Status) : EventClaim :=
  { pre := fun s => tick.toNat ≤ s.time.now + 50000 ∧ s.instanceOf kdesc.toNat tick.toNat = e :: es ∧ s.awaits (.text e.ctx) = false ∧
      s.fetchRange (.text e.ctx) e.ctx kdesc.toNat 128 = .ok r ∧
      (State.calendarLaunch
        { (s.dropLines (.text e.ctx)) with
          fe := { s.fe with calendar := s.fe.calendar.filter fun x => !(e :: es).contains x } }
        e.ctx kdesc.toNat tick.toNat r (e :: es)) = .error st
    does := fun s => (s.dropLines (.text e.ctx)).event 7 e.ctx st.code 0
    parts := [.frontEnd]
    post := fun s t => t.fe = { s.fe with calendar := s.fe.calendar.filter fun x => !(e :: es).contains x } }

/-- R296: 50 µs before TICK a valid instance becomes a launch whose groups take their cores. -/
def calendarClaim (kdesc tick : BitVec 64) (e : CalEntry) (es : List CalEntry) (r : List Byte) (u : State) (l : Launch) : EventClaim :=
  { pre := fun s => tick.toNat ≤ s.time.now + 50000 ∧ s.instanceOf kdesc.toNat tick.toNat = e :: es ∧ s.awaits (.text e.ctx) = false ∧
      s.fetchRange (.text e.ctx) e.ctx kdesc.toNat 128 = .ok r ∧
      (State.calendarLaunch
        { (s.dropLines (.text e.ctx)) with
          fe := { s.fe with calendar := s.fe.calendar.filter fun x => !(e :: es).contains x } }
        e.ctx kdesc.toNat tick.toNat r (e :: es)) = .ok (u, l)
    does := fun _ => placeCalendars 128 (u.addLaunch l) }

/-- R296: at TICK C of the groups of the instance goes. -/
def calendarStartClaim (kdesc tick : BitVec 64) (l : Launch) : EventClaim :=
  { pre := fun s => s.calendarOf kdesc.toNat tick.toNat = some l ∧ tick.toNat ≤ s.time.now
    does := fun s => s.mapGroups fun g => if g.ident.launch = l.id then { g with time := { g.time with hold := none } } else g }

/-- R316, R317: at its release tick the oldest episode of a barrier leaves it, who waits for it returns, and the domain is told. -/
def releaseTickClaim (ctx : BitVec 8) (bar : BitVec 12) (b : Barrier) (x : Episode) : EventClaim :=
  { pre := fun s => s.bar ctx.toNat bar.toNat = some b ∧ b.broken = false ∧ b.due s.time.now = some x
    does := fun s =>
      let u := (s.onBar ctx.toNat bar.toNat fun b =>
        { b with episodes := b.episodes.filter (fun y => y.num ≠ x.num), opened := max b.opened (x.num + 1) }).barResult
          ctx.toNat bar.toNat (fun j => j.ep == some x.num) false
      if b.scope < 3 then u
      else u.links.routes.foldl (fun t r => if r.1 = u.boot.modnum then t else t.ctrl r.1 11 ctx.toNat bar.toNat x.num 0 0) u }

end Sys2Proof.Machine
end

