-- ==== Sys2Proof/Claims/Module.lean ====
section
/-! DEFINITION. What the manual gives for the events of links, pod time, pages, traces and the platform (12_model_far R249 to R252,
21_link R321 to R335, 23_page R343 to R350, 25_trace_replay R364 to R366, 26_platform R368 to R379). -/

namespace Sys2Proof.Machine

/-! ## Ports -/

/-- The other ports are as they were, and all else of the links. -/
def State.otherPorts (a t : State) (n : Nat) : Prop :=
  (∀ m, m ≠ n → t.port m = a.port m) ∧ t.links = { a.links with ports := t.links.ports }

/-- A port that is as it was but for its state, its lanes and what an event changes of it. -/
def State.portNow (s t : State) (n : Nat) (p : Port) : Prop := s.otherPorts t n ∧ t.port n = some p

/-- R321, R324: training ends with 8 lanes, or with 4 or 2: the port is UP or DEGRADED and replays what is not acknowledged; what waits for
a route goes on. -/
def portTrainedClaim (port lanes : Nat) (p : Port) : EventClaim :=
  { pre := fun s => s.port port = some p ∧ p.st = .training ∧ (lanes = 2 ∨ lanes = 4 ∨ lanes = 8)
    does := fun s =>
      let u := s.rerouted (s.onPort port fun p => { p with
        st := if lanes = 8 then .up else .degraded, lanes := lanes, since := s.time.now, replayed := satAdd32 p.replayed p.replay.length
        tries := if p.replay = [] then 0 else 1 })
      if lanes = 8 then u else u.event 6 0xFF 3 port }

/-- R321: no width trains within 10 ms: the port is DOWN. -/
def trainingTimeoutClaim (port : Nat) (p : Port) : EventClaim :=
  { pre := fun s => s.port port = some p ∧ p.st = .training ∧ p.since + 10000000 ≤ s.time.now
    does := fun s => s.event 6 0xFF 0 port
    parts := [.links]
    post := fun s t => s.portNow t port { p with st := .down, since := s.time.now } }

/-- R321: the times of the entries to TRAINING that count: those of the last second, none before a second in UP or DEGRADED. -/
def Port.counted (p : Port) (now : Nat) : List Nat :=
  if (p.st = .up ∨ p.st = .degraded) ∧ p.since + 1000000000 ≤ now then [] else p.trainTimes.filter fun t => decide (now < t + 1000000000)

/-- R321: a port that enters TRAINING; the third entry within 1 s FENCES it, and what it holds is discarded and counted. -/
def Port.entered (p : Port) (now : Nat) : Port :=
  if 2 ≤ (p.counted now).length then
    { p with
      st := .fenced, lanes := 0, since := now, trainings := satAdd32 p.trainings 1, trainTimes := [], fencing := none, tries := 0
      replay := [], discarded := satAdd32 p.discarded p.replay.length }
  else
    { p with
      st := .training, lanes := 0, since := now, trainings := satAdd32 p.trainings 1, trainTimes := p.counted now ++ [now]
      fencing := none, tries := 0 }

/-- R321, R325: an entry to TRAINING; accesses whose route has changed hold back later ones, and the host learns of a port that is FENCED. -/
def State.enters (s : State) (port : Nat) (p : Port) : State :=
  let u := s.rerouted (s.onPort port fun _ => p.entered s.time.now)
  if 2 ≤ (p.counted s.time.now).length then u.event 6 0xFF 4 port else u

/-- An entry to TRAINING. -/
def enterClaim (port : Nat) (p : Port) (pre : State → Prop) : EventClaim :=
  { pre := fun s => s.port port = some p ∧ pre s, does := fun s => s.enters port p }

/-- R321: the events of a port that is DOWN, or UP or DEGRADED. -/
def portRow (p : Port) : Instr → Option EventClaim
  | .portTrained port lanes => some (portTrainedClaim port lanes p)
  | .trainingTimeout port => some (trainingTimeoutClaim port p)
  | .trainingRetry port => some (enterClaim port p fun s => p.st = .down ∧ p.since + 100000000 ≤ s.time.now)
  | .laneFailure port => some (enterClaim port p fun _ => p.st = .up ∨ p.st = .degraded)
  | .fenceDrainTimeout port => some
      { pre := fun s => s.port port = some p ∧ p.st = .fenced ∧ ∃ x, p.fencing = some x ∧ x + 1000000 ≤ s.time.now
        parts := [.links]
        post := fun s t => s.portNow t port { p with
          replay := [], discarded := satAdd32 p.discarded p.replay.length, fencing := none, tries := 0 } }
  | _ => none

/-! ## Flits and datagrams -/

/-- R324: what a cumulative acknowledgement takes out of a replay store: everything up to the flit that it names. -/
def Port.ackedBy (p : Port) (ack : Nat) : Port :=
  let r := match p.replay.findIdx? fun f => f.1 == ack with
    | none => p.replay
    | some i => p.replay.drop (i + 1)
  { p with replay := r, fencing := if r = [] then none else p.fencing, tries := if r.length < p.replay.length then 0 else p.tries }

/-- R321, R324: what a flit carries for the reverse direction: an acknowledgement; a flit from which on the far end asks for a replay, the
eighth of one flit sending the port to TRAINING; then what waits for room is sent. -/
def State.reversed (s : State) (port : Nat) (ack : BitVec 12) (again : Option (BitVec 12)) : State :=
  let u := s.onPort port (·.ackedBy ack.toNat)
  (match again with
    | none => u
    | some n =>
      let v := u.onPort port fun (p : Port) => match p.replay.findIdx? fun (f : Nat × BitVec 512) => f.1 == n.toNat with
        | none => p
        | some i => { p with replayed := satAdd32 p.replayed (p.replay.length - i), tries := if i = 0 then p.tries + 1 else p.tries }
      if (v.port port).any (fun (p : Port) => p.usable && decide (8 ≤ p.tries)) = true then v.trainPort port else v).goOn

/-- R324: a flit with a good CRC and the expected number, at a port that is UP or DEGRADED; `q` is the port after what it acknowledges. -/
def State.takesFlit (s : State) (port : Nat) (seq ack : BitVec 12) (again : Option (BitVec 12)) (p q : Port) : Prop :=
  s.port port = some p ∧ p.usable = true ∧ (s.reversed port ack again).port port = some q ∧ seq.toNat = p.rxSeq

/-- R324: a flit in sequence that does not end its packet waits with those before it. -/
def flitPartClaim (port : Nat) (seq ack : BitVec 12) (again : Option (BitVec 12)) (flit : BitVec 512) (p q : Port) : EventClaim :=
  { pre := fun s => s.takesFlit port seq ack again p q ∧ q.partialFlits.length + 1 < packetFlits (q.partialFlits ++ [flit])
    does := fun s => (s.reversed port ack again).onPort port fun x =>
      { x with rxSeq := (x.rxSeq + 1) % 4096, partialFlits := q.partialFlits ++ [flit], asking := false } }

/-- R322 to R325: the last flit of a packet: the packet is delivered here or relayed, or counted as malformed. -/
def flitWholeClaim (port : Nat) (seq ack : BitVec 12) (again : Option (BitVec 12)) (flit : BitVec 512) (p q : Port) : EventClaim :=
  { pre := fun s => s.takesFlit port seq ack again p q ∧ packetFlits (q.partialFlits ++ [flit]) ≤ q.partialFlits.length + 1
    does := fun s =>
      let u := (s.reversed port ack again).onPort port fun x => { x with rxSeq := (x.rxSeq + 1) % 4096, partialFlits := [], asking := false }
      let hdr := (q.partialFlits ++ [flit]).headD 0
      match packetOf hdr ((q.partialFlits ++ [flit]).tail.flatMap flitBytes) with
      | none => u.onPort port fun x => { x with packetsBad := satAdd32 x.packetsBad 1 }
      | some pk => if pk.kind = 10 ∨ pk.dmod = u.boot.modnum then u.receive pk else u.post (.route (pk.addr.toNat / 64)) pk }

/-- R324: a flit out of sequence acknowledges; one behind a gap makes this end ask for a replay. -/
def flitGapClaim (port : Nat) (seq ack : BitVec 12) (again : Option (BitVec 12)) (p q : Port) : EventClaim :=
  { pre := fun s => s.port port = some p ∧ p.usable = true ∧ (s.reversed port ack again).port port = some q ∧ seq.toNat ≠ p.rxSeq
    does := fun s => (s.reversed port ack again).onPort port fun x =>
      { x with asking := x.asking || (decide (1 ≤ (seq.toNat + 4096 - p.rxSeq) % 4096) && decide ((seq.toNat + 4096 - p.rxSeq) % 4096 < 2048)) } }

/-- R321, R324: a flit at a fenced port that drains only acknowledges. -/
def flitAckClaim (port : Nat) (ack : BitVec 12) (again : Option (BitVec 12)) (p : Port) : EventClaim :=
  { pre := fun s => s.port port = some p ∧ p.usable = false ∧ p.fencing ≠ none ∧ ((s.reversed port ack again).port port).isSome = true
    does := fun s => s.reversed port ack again }

/-- R324: a flit with a bad CRC makes this end ask for a replay; at a port that is not UP or DEGRADED and does not drain a flit changes
nothing. -/
def flitDropClaims (port : Nat) (crc : Bool) (p : Port) : List EventClaim :=
  [ { pre := fun s => s.port port = some p ∧ crc = false ∧ p.usable = true
      does := fun s => s.onPort port fun x => { x with asking := true } },
    { pre := fun s => s.port port = some p ∧ p.usable = false ∧ p.fencing = none } ]

/-- R332, R333: what a datagram's acknowledgement leaves of a pair; a NAK goes back at once. -/
def QPair.ackedBy (q : QPair) (apsn now : Nat) (nak : Bool) : QPair :=
  let q1 := match q.store.findIdx? fun x => x.1 == apsn with
    | none => q
    | some i => { q with store := q.store.drop (i + 1), resends := 0, resentAt := now }
  if nak = false then q1
  else if q1.resends < 7 then { q1 with resends := q1.resends + 1, resentAt := now }
  else { q1 with store := q1.store.filter (fun x => x.2.2.isStamp), resends := 0, resentAt := now }

/-- R332: a datagram for a pair that takes it. -/
def State.datagramFits (s : State) (port : Nat) (x : Transport) (hdr : BitVec 512) (q : QPair) : Prop :=
  32 ≤ port ∧ (∃ p, s.port port = some p ∧ p.usable = true) ∧ s.qp x.dqp = some q ∧ x.ok = true ∧ q.eth = true ∧ q.rqp = x.sqp ∧
    q.takes x.ackOnly (recField (flitBytes hdr) 0 1) = true ∧
    (x.ackOnly = true ∨ 7 ≤ recField (flitBytes hdr) 0 1 ∧ recField (flitBytes hdr) 0 1 ≤ 10)

/-- R332, R333: the datagrams: one that acknowledges or is out of order, one that delivers, one that is refused and counted. -/
def datagramClaims (port : Nat) (tr : BitVec 256) (hdr : BitVec 512) (payload : List Byte) (q : QPair) : List EventClaim :=
  let x := transportOf tr
  [ { pre := fun s => s.datagramFits port x hdr q ∧ (x.ackOnly = true ∨ x.psn ≠ q.rxPsn)
      does := fun s => (s.onQp x.dqp fun y => y.ackedBy x.apsn s.time.now x.nak).goOn },
    { pre := fun s => s.datagramFits port x hdr q ∧ x.ackOnly = false ∧ x.psn = q.rxPsn
      does := fun s =>
        let u := (s.onQp x.dqp fun y => y.ackedBy x.apsn s.time.now x.nak).goOn.onQp x.dqp fun y => { y with rxPsn := (y.rxPsn + 1) % 2 ^ 32 }
        match packetOf hdr payload with
        | none => u.onPort port fun p => { p with packetsBad := satAdd32 p.packetsBad 1 }
        | some pk => u.receive pk },
    { pre := fun s => 32 ≤ port ∧ (∃ p, s.port port = some p ∧ p.usable = true) ∧ ¬∃ q, s.datagramFits port x hdr q
      does := fun s => s.onPort port fun p => { p with packetsBad := satAdd32 p.packetsBad 1 } },
    { pre := fun s => port < 32 ∨ ∀ p, s.port port = some p → p.usable = false } ]

/-! ## Packets -/

/-- R322, R323: the rows of the packet kinds, with what each does at its destination. -/
def packetRow : Instr → Option (Nat × BitVec 512 × List Byte × (State → Packet → State))
  | .rdreq h p => some (1, h, p, State.rdreqArrive)
  | .rdrsp h p => some (2, h, p, State.rdrspArrive)
  | .wrreq h p => some (3, h, p, State.wrreqArrive)
  | .atreq h p => some (4, h, p, State.atreqArrive)
  | .atrsp h p => some (5, h, p, State.atrspArrive)
  | .wrack h p => some (6, h, p, State.wrackArrive)
  | .fire h p => some (7, h, p, State.fireArrive)
  | .fack h p => some (8, h, p, State.fackArrive)
  | .ctrl h p => some (9, h, p, State.ctrlArrive)
  | _ => none

/-- R323: a malformed packet is discarded and counted, at the first port (log entry 31). -/
def malformedClaim (hdr : BitVec 512) (payload : List Byte) : EventClaim :=
  { pre := fun _ => packetOf hdr payload = none
    does := fun s => { s with links := { s.links with
      ports := listSet s.links.ports 0 fun p => { p with packetsBad := satAdd32 p.packetsBad 1 } } } }

/-- R323, R325: a packet is for this module, or it is relayed by the route table; a malformed one is discarded. -/
def packetClaims (kind : Nat) (hdr : BitVec 512) (payload : List Byte) (act : State → Packet → State) : List EventClaim :=
  match packetOf hdr payload with
  | none => [malformedClaim hdr payload]
  | some pk =>
    [ { pre := fun s => pk.kind = kind ∧ pk.dmod = s.boot.modnum, does := fun s => act s pk },
      { pre := fun s => pk.kind = kind ∧ pk.dmod ≠ s.boot.modnum, does := fun s => s.post (.route (pk.addr.toNat / 64)) pk },
      { pre := fun _ => pk.kind ≠ kind } ]

/-- R323, R326: no page of this module is on the move, held elsewhere or lent, so that an access reaches its frame. -/
def State.settled (s : State) : Prop := s.pages.ops = [] ∧ s.pages.pinnedHold = [] ∧ s.pages.holds = [] ∧ s.pages.sealedPages = [] ∧ s.pages.moved = [] ∧ s.pages.leases = []

/-- R326: the home keeps an answer for a source and tag. -/
def State.answered (t : State) (smod tag : Nat) (ok : Packet → Prop) : Prop :=
  ∃ r ∈ t.links.homes, r.smod = smod ∧ r.tag = tag ∧ r.at_ = t.time.now ∧ ∃ a, r.answer = some a ∧ a.dmod = smod ∧ a.tag = tag ∧ ok a

/-- R323: RDREQ at its home: the 64 bytes of the line return. -/
def rdreqClaim (hdr : BitVec 512) (payload : List Byte) (pk : Packet) : EventClaim :=
  { pre := fun s => packetOf hdr payload = some pk ∧ pk.kind = 1 ∧ pk.dmod = s.boot.modnum ∧ s.settled ∧
      (∀ r ∈ s.links.homes, ¬(r.smod = pk.smod ∧ r.tag = pk.tag)) ∧ pk.addr.toNat % 2 ^ 42 + 64 ≤ bellBase
    parts := [.links]
    post := fun s t => t.answered pk.smod pk.tag fun a => a.kind = 2 ∧
      a.payload = memBytes s.mem.hbm (64 * (pk.addr.toNat % 2 ^ 42 / 64)) 64 }

/-- R323: WRREQ at its home: the bytes of the line that MASK names are written, and a WRACK returns. -/
def wrreqClaim (hdr : BitVec 512) (payload : List Byte) (pk : Packet) : EventClaim :=
  { pre := fun s => packetOf hdr payload = some pk ∧ pk.kind = 3 ∧ pk.dmod = s.boot.modnum ∧ s.settled ∧ payload.length = 64 ∧
      (∀ r ∈ s.links.homes, ¬(r.smod = pk.smod ∧ r.tag = pk.tag)) ∧ pk.addr.toNat % 2 ^ 42 + 64 ≤ bellBase
    parts := [.links, .hbm]
    post := fun s t => (t.answered pk.smod pk.tag fun a => a.kind = 6) ∧
      ∀ x, memGet t.mem.hbm x =
        if 64 * (pk.addr.toNat % 2 ^ 42 / 64) ≤ x ∧ x < 64 * (pk.addr.toNat % 2 ^ 42 / 64) + 64 ∧
            pk.mask.getLsbD (x % 64) = true then payload.getD (x % 64) 0
        else memGet s.mem.hbm x }

/-- R173, R322, R323: ATREQ at its home: the location takes the new value, and the old one returns. -/
def atreqClaim (hdr : BitVec 512) (payload : List Byte) (pk : Packet) : EventClaim :=
  let la := pk.addr.toNat % 2 ^ 42
  let n := pk.atOp.bits / 8
  { pre := fun s => packetOf hdr payload = some pk ∧ pk.kind = 4 ∧ pk.dmod = s.boot.modnum ∧ s.settled ∧
      (∀ r ∈ s.links.homes, ¬(r.smod = pk.smod ∧ r.tag = pk.tag)) ∧ la + 8 ≤ bellBase
    parts := [.links, .hbm]
    post := fun s t => (t.answered pk.smod pk.tag fun a => a.kind = 5 ∧ a.value = BitVec.ofNat 64 (memVal s.mem.hbm la n)) ∧
      memVal t.mem.hbm la n = atomicNew pk.atOp.op pk.atOp.signed pk.atOp.bits pk.atOp.sat (memVal s.mem.hbm la n) pk.atOp.v pk.atOp.u %
        2 ^ (8 * n) ∧
      ∀ x, x < la ∨ la + n ≤ x → memGet t.mem.hbm x = memGet s.mem.hbm x }

/-- R326: an access that the home has answered within 2 ms is answered again, and not performed again. -/
def againClaim (kind : Nat) (hdr : BitVec 512) (payload : List Byte) (pk : Packet) (r : HomeRec) : EventClaim :=
  { pre := fun s => packetOf hdr payload = some pk ∧ pk.kind = kind ∧ pk.dmod = s.boot.modnum ∧
      s.links.homes.find? (fun r => r.smod == pk.smod && r.tag == pk.tag) = some r
    does := fun s => match r.answer with
      | some a => s.post (.route (pk.addr.toNat % 2 ^ 42 / 64)) a
      | none => s }

/-- R199, R200: a FACK of OK for a firing with RC ends it. -/
def fackClaim (hdr : BitVec 512) (payload : List Byte) (pk : Packet) (q : QPair) (x : WSlot) (f : Firing) : EventClaim :=
  { pre := fun s => packetOf hdr payload = some pk ∧ pk.kind = 8 ∧ pk.dmod = s.boot.modnum ∧ s.qp pk.qp = some q ∧
      s.slotOf q.ctx pk.slot = some x ∧ x.firing = some f ∧ f.num = pk.firing ∧ f.qp = pk.qp ∧ x.entry.rc = true ∧
      pk.sub ≠ 3 ∧ pk.sub ≠ 5
    does := fun s => (s.onQp pk.qp fun q => { q with completed := q.completed + 1 }).endFiring q.ctx pk.slot .ok false true
    post := fun _ t => ∀ z, t.slotOf q.ctx pk.slot = some z → z.last = .ok ∧ z.firing = none ∧ z.fired = x.fired + 1 }

/-! ## Forwarding -/

/-- R326, R366: an access without an answer for 20 µs is sent again, marked as a retry, on the present route. -/
def forwardResendClaim (tag : BitVec 32) (f : Fwd) : EventClaim :=
  let pk := { f.pkt with flags := f.pkt.flags ||| 1 }
  { pre := fun s => s.fwd tag.toNat = some f ∧ f.unsent = false ∧ f.sent + 20000 ≤ s.time.now ∧ s.time.now < f.first + 2000000
    does := fun s => ((s.env f.pkt.ctx 6 (f.core.bind s.groupOn) (f.pkt.dmod * 2 ^ 42 + f.pkt.la)).onFwd f.tag fun g =>
      { g with sent := s.time.now, pkt := pk }).trySend pk f.line }

/-- R326, R366, R370, R379: after 2 ms it has failed: the host learns of it, and the error is logged and counted. -/
def State.forwardFails (s : State) (f : Fwd) : State :=
  let pa := f.pkt.dmod * 2 ^ 42 + f.pkt.la
  let u := s.env f.pkt.ctx 6 (f.core.bind s.groupOn) (pa + 2 ^ 63)
  ((({ u with links := { u.links with fwdLoss := satAdd32 u.links.fwdLoss 1 } }).logError pa 3).event 6 0xFF 0x10 pa).dropFwd f.tag

/-- R326: a load returns 0, an atomic returns 0 with predicate 0, a store has no effect. An access for which no port has been usable fails
as well. -/
def forwardFailureClaim (tag : BitVec 32) (f : Fwd) : EventClaim :=
  { pre := fun s => s.fwd tag.toNat = some f ∧ (f.unsent = false ∨ s.routePorts f.pkt.dmod = []) ∧ f.first + 2000000 ≤ s.time.now
    does := fun s => match f.pkt.kind, f.agent with
      | 1, _ => (s.forwardFails f).loadReturns f (List.replicate f.size 0)
      | 4, some (.closing k) => (s.forwardFails f).farFails k
      | 4, _ => (s.forwardFails f).atomicReturns f 0 false
      | _, _ => (s.forwardFails f).settleFires }

/-- R326: the home forgets an answer after 2 ms. -/
def homeExpiryClaim (smod : BitVec 10) (tag : BitVec 32) : EventClaim :=
  { parts := [.links]
    post := fun s t => t.links = { s.links with homes := t.links.homes } ∧
      ∀ r, r ∈ t.links.homes ↔ r ∈ s.links.homes ∧
        ¬(r.smod = smod.toNat ∧ r.tag = tag.toNat ∧ r.answer ≠ none ∧ r.at_ + 2000000 ≤ s.time.now) }

/-! ## Queue pairs -/

/-- R329: a CONNECTING pair sends its connect again after 1 ms. -/
def connectRetryClaim (qp : BitVec 12) (q : QPair) : EventClaim :=
  { pre := fun s => s.qp qp.toNat = some q ∧ q.st = .connecting ∧ q.lastConnect + 1000000 ≤ s.time.now
    does := fun s => s.sendQp qp.toNat { mkPacket 9 0 0 0 with sub := 1, slot := q.num, firing := q.ctx }
    parts := [.links]
    post := fun s t => ∀ u, s.qp qp.toNat = some u → t.qp qp.toNat = some { u with lastConnect := s.time.now } }

/-- R329: a CLOSING pair without a firing in progress is CLOSED. -/
def qpClosedClaim (qp : BitVec 12) (q : QPair) : EventClaim :=
  { pre := fun s => s.qp qp.toNat = some q ∧ q.st = .closing ∧ s.qpBusy q = false
    parts := [.links]
    post := fun s t => s.otherQps t qp.toNat ∧ t.qp qp.toNat = some { q with st := .closed, store := [] } }

/-- R333: 30 µs without an acknowledgement: go back N, up to 7 times; then the packets are discarded, but for stamps. -/
def ethResendClaim (qp : BitVec 12) (q : QPair) : EventClaim :=
  { pre := fun s => s.qp qp.toNat = some q ∧ q.store ≠ [] ∧ q.resentAt + 30000 ≤ s.time.now
    parts := [.links]
    post := fun s t => s.otherQps t qp.toNat ∧ t.qp qp.toNat = some (
      if q.resends < 7 then { q with resends := q.resends + 1, resentAt := s.time.now }
      else { q with store := q.store.filter (fun x => x.2.2.kind == 9 && x.2.2.sub == 6), resends := 0, resentAt := s.time.now }) }

/-! ## Pod time -/

/-- R334: the root sends its time on every Virip port that can carry it, every 125 µs. -/
def timeSendClaim : EventClaim :=
  { pre := fun s => s.time.role = 1 ∧ s.time.sent + 125000 ≤ s.time.now
    does := fun s => s.sendTime s.boot.modnum s.time.now
    parts := [.podTime]
    post := fun s t => t.time = { s.time with sent := s.time.now } }

/-- R335: after 1 s without a sync the module is in holdover. -/
def holdoverClaim : EventClaim :=
  { pre := fun s => s.time.role ≠ 2 ∧ s.time.holdover = false ∧ s.time.lastSync + 1000000000 ≤ s.time.now
    does := fun s => s.event 6 0xFF 0x13 0
    parts := [.podTime]
    post := fun s t => t.time = { s.time with holdover := true } }

/-- R335: the host learns that a slew has come to its end. -/
def slewEndClaim : EventClaim :=
  { pre := fun s => s.time.alert = true ∧ s.time.slew = 0
    does := fun s => s.event 6 0xFF 0x12 0
    parts := [.podTime]
    post := fun s t => t.time = { s.time with alert := false } }

/-- R334, R335: a follower that the root's time reaches: synced, stepped forward where it may be or slewed, the host told of a slew
above 25 ns, a newer time passed on. -/
structure State.Disciplined (s t : State) (x : Nat) : Prop where
  synced : t.time.synced = true ∧ t.time.holdover = false
  step : (s.time.synced = false ∨ s.time.holdover = false ∧ ∀ c ∈ s.ctxs, c.2.st ≠ .ready) → s.time.now < x →
    t.time.now = x ∧ t.time.slew = 0
  slewed : s.time.synced = true → (s.time.holdover = true ∨ ∃ c ∈ s.ctxs, c.2.st = .ready) →
    t.time.now = s.time.now ∧ t.time.slew = (x : Int) - s.time.now
  back : x ≤ s.time.now → t.time.now = s.time.now ∧ t.time.slew = (x : Int) - s.time.now
  relay : t.time.relayed = max s.time.relayed x

def timeClaim (hdr : BitVec 512) (payload : List Byte) (pk : Packet) : EventClaim :=
  { pre := fun s => packetOf hdr payload = some pk ∧ pk.kind = 10 ∧ s.time.role ≠ 2 ∧ pk.smod ≠ s.boot.modnum
    parts := [.podTime, .links, .host]
    post := fun s t => s.Disciplined t pk.value.toNat }

/-- TIME at a root of its own, or of this module itself, does nothing. -/
def timeIdleClaim (hdr : BitVec 512) (payload : List Byte) : EventClaim :=
  { pre := fun s => ∃ pk, packetOf hdr payload = some pk ∧ (pk.kind ≠ 10 ∨ s.time.role = 2 ∨ pk.smod = s.boot.modnum) }

/-- R229: C stalls at a TIMEALIGN. -/
def State.atTimealign (s : State) (y : BitVec 2) (a : BitVec 5) : Prop :=
  let w : BitVec 32 := (0 : BitVec 3) ++ (0x7F : BitVec 7) ++ y ++ (0 : BitVec 5) ++ a ++ (0 : BitVec 5) ++ (7 : BitVec 5)
  (s.eng .c).waiting ≠ none ∧ (s.eng .c).pc = .seq ∧
    (match (s.eng .c).latch with
    | some x => x.1 = w
    | none => s.me.store.word (s.eng .c).cur = w.toNat)

/-! ## Pages -/

/-- R347: the page of a MIGRATE in progress, its earlier stores performed. -/
def State.migrates (s : State) (cmd : Nat) (o : PageOp) (e : PEntry) : Prop :=
  s.opOf cmd = some o ∧ o.op = 1 ∧ o.cmd = cmd ∧ s.leafOf o.ctx o.va = some e ∧ s.awaits (.page cmd) = false ∧
    s.storesTo o.ctx o.va e.size = false

/-- R165, R250, R345, R347: the copy stands in the new frame, the entry names it, the page's objects go with it, writes held meanwhile are
performed there, the command completes, and what waited for the page goes on. -/
def migrateDoneClaim (cmd : BitVec 52) (o : PageOp) (e : PEntry) : EventClaim :=
  { pre := fun s => s.migrates cmd.toNat o e ∧ (s.gather (.page cmd.toNat) (.virt o.ctx o.va) e.size).1 = true
    does := fun s =>
      let u := s.switchPage o e (s.locBytes (.page o.cmd) (.virt o.ctx o.va) e.size)
      let moved := if e.hostf = false ∧ paModule e.pa = s.boot.modnum then
          u.pages.moved.filter (fun m => decide (s.time.now ≤ m.since + 2000000)) ++ [⟨paLocal e.pa, e.size, o.ctx, o.va, s.time.now⟩]
        else u.pages.moved
      let v := { u with pages := { u.pages with ops := u.pages.ops.filter (fun x => x.cmd != o.cmd), moved := moved } }
      let x := v.moveObjs (frameKey e.pa e.hostf) (frameKey o.frame o.hostf) e.size
      let w := (((x.performAllHeld o.ctx o.va e.size).dropPage o.ctx o.va e).returnFrame o.ctx o.va).zeroAcc o.ctx e
      (((w.dropLines (.page o.cmd)).chargeHbm o.ctx).pageDone o 1).pageSettled }

/-- R249, R347: lines of another module are asked for first. -/
def migrateAskClaim (cmd : BitVec 52) (o : PageOp) (e : PEntry) : EventClaim :=
  { pre := fun s => s.migrates cmd.toNat o e ∧ (s.gather (.page cmd.toNat) (.virt o.ctx o.va) e.size).1 = false
    does := fun s => (s.gather (.page cmd.toNat) (.virt o.ctx o.va) e.size).2 }

/-- R349: the page of a DUPLICATE in progress that its owner has answered. -/
def State.duplicates (s : State) (cmd : Nat) (o : PageOp) (e : PEntry) : Prop :=
  s.opOf cmd = some o ∧ o.op = 2 ∧ o.cmd = cmd ∧ (o.stage = 1 ∨ o.stage = 2) ∧ s.leafOf o.ctx o.va = some e ∧ s.awaits (.page cmd) = false

/-- R349: the replica stands in FRAME; the entry names it, with the owner, as DUPLICATED or SEALED. -/
def duplicateDoneClaim (cmd : BitVec 52) (o : PageOp) (e : PEntry) : EventClaim :=
  { pre := fun s => s.duplicates cmd.toNat o e ∧ (s.gather (.page cmd.toNat) (.virt o.ctx o.va) e.size).1 = true
    does := fun s =>
      let u := s.hbmPut (paLocal o.frame) (s.locBytes (.page o.cmd) (.virt o.ctx o.va) e.size)
      let w0 := setBits (setBits e.w0 0 52 o.frame) 60 4 (if o.stage = 2 then 4 else 3)
      let v := (u.putW0 e.addr w0).putW1 e.addr (setBits e.w1 32 10 (paModule e.pa))
      let x : State := { v with pages := { v.pages with replicas := v.pages.replicas ++ [⟨o.ctx, o.va, paModule e.pa, e.pa⟩] } }
      (x.dropLines (.page o.cmd)).pageDone o 1 }

def duplicateAskClaim (cmd : BitVec 52) (o : PageOp) (e : PEntry) : EventClaim :=
  { pre := fun s => s.duplicates cmd.toNat o e ∧ (s.gather (.page cmd.toNat) (.virt o.ctx o.va) e.size).1 = false
    does := fun s => (s.gather (.page cmd.toNat) (.virt o.ctx o.va) e.size).2 }

/-- R350: at the lender a deadline passes: the frame is zeroed, the page is LOCAL again and charged; the lease stays on record until
the frame returns. -/
def lenderDeadlineClaim (ctx : BitVec 8) (va : BitVec 64) (l : Lease) : EventClaim :=
  { pre := fun s => (s.pages.leases.find? fun l => l.ctx == ctx.toNat && l.va == va.toNat && !l.passed &&
        l.deadline.any fun t => decide (t ≤ s.time.now)) = some l ∧
      ∀ b ∈ s.pages.borrowed, ¬(b.ctx = ctx.toNat ∧ b.va = va.toNat)
    does := fun s => ((s.leaseLocal l).onLeases fun ls => (ls.filter fun x => !(x = l && x.borrower.isNone)).map fun x =>
      if x = l then { x with passed := true } else x).chargeHbm l.ctx }

/-- R252, R350: at the borrower: the page is lost, and REVOKED is posted. -/
def borrowerDeadlineClaim (ctx : BitVec 8) (va : BitVec 64) (b : Borrowed) (x : Nat) : EventClaim :=
  { pre := fun s => (∀ l ∈ s.pages.leases, ¬(l.ctx = ctx.toNat ∧ l.va = va.toNat)) ∧
      (s.pages.borrowed.find? fun b => b.ctx == ctx.toNat && b.va == va.toNat && b.deadline.any fun t => decide (t ≤ s.time.now)) = some b ∧
      b.deadline = some x
    does := fun s => ({ s with pages := { s.pages with borrowed := s.pages.borrowed.map fun y =>
      if y = b then { y with deadline := none, lost := true } else y } }).notify b.ctx b.va 4 0 }

/-- R343: a changed access count goes to its entry. -/
def accWritebackClaim (ctx : BitVec 8) (entry : BitVec 52) (k : Context) (x : AccCount) : EventClaim :=
  { pre := fun s => s.ctx ctx.toNat = some k ∧ k.accs.find? (fun x => x.entry == entry.toNat && x.dirty) = some x
    parts := [.contexts, .hbm]
    post := fun s t => s.otherCtx t ctx.toNat ∧
      t.ctx ctx.toNat = some { k with accs := k.accs.map fun y => if y.entry = entry.toNat then { y with dirty := false } else y } ∧
      memVal t.mem.hbm (paLocal entry.toNat + 8) 4 = x.count.toNat ∧
      ∀ a, a < paLocal entry.toNat + 8 ∨ paLocal entry.toNat + 12 ≤ a → memGet t.mem.hbm a = memGet s.mem.hbm a }

/-- R233: the frames of two held pages change their contents; handles to either are invalid. -/
def swapDoneClaim (x : Swap) (ea eb : PEntry) : EventClaim :=
  { pre := fun s => (s.pages.swaps.find? fun x => !x.done) = some x ∧ s.leafOf x.ctx x.va = some ea ∧ s.leafOf x.ctx x.vb = some eb ∧
      paLocal ea.pa + 2 ^ 16 ≤ bellBase ∧ paLocal eb.pa + 2 ^ 16 ≤ bellBase ∧
      (paLocal ea.pa + 2 ^ 16 ≤ paLocal eb.pa ∨ paLocal eb.pa + 2 ^ 16 ≤ paLocal ea.pa)
    does := fun s => ((s.swapObjs ea.pa eb.pa (2 ^ 16)).dropHandles x.ctx x.va (x.va + 2 ^ 16)).dropHandles x.ctx x.vb (x.vb + 2 ^ 16)
    parts := [.pages, .hbm]
    post := fun s t => t.pages = { s.pages with swaps := s.pages.swaps.map fun z => if z = x then { z with done := true } else z } ∧
      ∀ a, memGet t.mem.hbm a =
        if paLocal ea.pa ≤ a ∧ a < paLocal ea.pa + 2 ^ 16 then memGet s.mem.hbm (paLocal eb.pa + (a - paLocal ea.pa))
        else if paLocal eb.pa ≤ a ∧ a < paLocal eb.pa + 2 ^ 16 then memGet s.mem.hbm (paLocal ea.pa + (a - paLocal eb.pa))
        else memGet s.mem.hbm a }

/-! ## Traces -/

/-- R364: Messidor moves records from their sources into the ring of each context. -/
def messidorClaim : EventClaim :=
  { does := fun s => s.ctxs.foldl (fun t p =>
      match t.ctx p.1 with
      | none => t
      | some c =>
        if t.ringLost p.1 c.root.trbase = true then t.dropTrace p.1
        else if paModule c.root.trbase = t.boot.modnum then t.drainOwn p.1 c
        else t.drainFar p.1 c) s }

/-- R363, R364: one record of a source, in a ring of this module that has room: it stands in its slot, and WRPTR moves on. -/
structure State.Drained1 (s t : State) (root : RootPart) (r : TraceRec) (ring : Ring) : Prop where
  record : memBytes t.mem.hbm (paLocal root.trbase + 64 + 32 * (ring.wr % root.nrec)) 32 =
    leBytes 1 r.typ.toNat ++ leBytes 1 r.engine.toNat ++ leBytes 1 r.k.toNat ++ leBytes 1 0 ++ leBytes 4 r.group.toNat ++
      leBytes 8 r.seq.toNat ++ leBytes 8 r.cycle.toNat ++ leBytes 8 r.data.toNat
  pointer : memVal t.mem.hbm (paLocal root.trbase) 8 = (ring.wr + 1) % 2 ^ 64
  others : ∀ x, (x < paLocal root.trbase ∨ paLocal root.trbase + 2 ^ root.trlog ≤ x) → memGet t.mem.hbm x = memGet s.mem.hbm x

/-- R366: the corrected errors in memory of a context, in one ENV record of kind 4. -/
def eccClaim (ctx : BitVec 8) : EventClaim :=
  { pre := fun s => ∃ e ∈ s.errors.envEcc, e.1 = ctx.toNat ∧ e.2 ≠ 0
    does := fun s => s.env ctx.toNat 4 none (((s.errors.envEcc.filter fun e => e.1 == ctx.toNat).map (·.2)).sum)
    parts := [.platform]
    post := fun s t => t.errors = { s.errors with envEcc := s.errors.envEcc.filter fun e => e.1 != ctx.toNat } ∧ t.part = s.part ∧
      t.boot = s.boot ∧ t.power = s.power ∧ t.host = s.host }

/-! ## Reset and boot -/

/-- R371, R372: after a reset the module boots anew: fuses, part and memory are kept (log entry 37), everything else is as State.reset
has it. -/
structure State.Rebooted (s t : State) : Prop where
  boot : t.boot = { State.reset.boot with keys := s.boot.keys, revokedKeys := s.boot.revokedKeys, rollback := s.boot.rollback }
  part : t.part = s.part
  mem : t.mem.hbm = s.mem.hbm ∧ t.mem.host = s.mem.host ∧ t.mem.atomics = [] ∧ t.mem.closing = [] ∧ t.mem.objs = []
  groups : t.me = State.reset.me ∧ t.rest = []
  rest : t.ctxs = [] ∧ t.fe = State.reset.fe ∧ t.pages = State.reset.pages ∧ t.power = State.reset.power ∧ t.errors = State.reset.errors ∧
    t.time = State.reset.time ∧ t.ctrs = []
  ports : t.links.ports.map (·.num) = s.part.virip ++ s.part.ethernet ∧ ∀ p ∈ t.links.ports, p.st = .training
  ring : t.host.evtbase = 0 ∧ t.host.evtlog = 0

/-- R371, R375, R377: RESET, which a module that has tripped ignores, and the cold reset. -/
def resetRow : Instr → Option EventClaim
  | .reset => some { pre := fun s => s.power.tripped = false, does := fun s => s.rebooted, post := fun s t => s = t }
  | .coldReset => some { does := fun s => s.rebooted, post := fun s t => s = t }
  | _ => none

/-- R372: the four conditions of acceptance, with the form of the header. -/
structure Boot.Takes (b : Boot) (stage : Nat) (header body : List Byte) : Prop where
  form : header.length = 512 ∧ recField header 0 4 = 0x4C513442 ∧ recField header 4 1 = stage ∧ recField header 5 1 ≤ 3 ∧
    recField header 16 8 = body.length ∧ recZero header 356 156 = true
  key : b.keys[recField header 5 1]? = some (Config.sha512 ((header.drop 24).take 133)) ∧ b.revokedKeys.getLsbD (recField header 5 1) = false
  signature : Config.p521Verify ((header.drop 24).take 133) ((header.drop 224).take 132) (Config.sha512 (header.take 224)) = true
  digest : flitOf ((header.drop 160).take 64) = Config.sha512 body
  version : b.rollback ≤ recField header 8 8

/-- R373: the configuration of the stage-2 body (log entry 38). -/
def State.configTakes (s : State) (body : List Byte) : Prop :=
  8 ≤ body.length ∧ recField body 0 2 ≤ 639 ∧ s.part.cores.length ≤ recField body 2 2 ∧ recField body 2 2 ≤ 256 ∧ 1500 ≤ recField body 4 4 ∧
    recField body 4 4 ≤ s.part.watts

/-- R371 to R374: a stage that is accepted is measured; stage 2 brings the configuration, stage 3 READY. -/
def bootClaim (header body : List Byte) : EventClaim :=
  { pre := fun s => s.boot.recovery = false ∧ s.boot.ready = false ∧ s.boot.Takes (s.boot.stage + 1) header body ∧
      (s.boot.stage = 1 → s.configTakes body)
    parts := [.platform]
    post := fun s t => t.part = s.part ∧ t.errors = s.errors ∧ t.host = s.host ∧ t.boot.stage = s.boot.stage + 1 ∧ t.boot.recovery = false ∧
      t.boot.imageVersion = recField header 8 8 ∧ t.boot.keys = s.boot.keys ∧ t.boot.revokedKeys = s.boot.revokedKeys ∧
      t.boot.rollback = s.boot.rollback ∧ t.boot.ready = (s.boot.stage == 2) ∧
      t.boot.measures = s.boot.measures ++ [Config.sha512 body] ++ (if s.boot.stage = 1 then [Config.sha512 (body.take 8)] else []) ∧
      (s.boot.stage = 1 → t.boot.modnum = recField body 0 2 ∧ t.boot.savepool = recField body 2 2 ∧
        t.power = { s.power with pcap := recField body 4 4 }) ∧
      (s.boot.stage ≠ 1 → t.boot.modnum = s.boot.modnum ∧ t.boot.savepool = s.boot.savepool ∧ t.power = s.power) }

/-- R372: one that is not accepted puts the module into RECOVERY. -/
def recoveryClaim (header body : List Byte) : EventClaim :=
  { pre := fun s => s.boot.recovery = false ∧ s.boot.ready = false ∧
      ¬(s.boot.Takes (s.boot.stage + 1) header body ∧ (s.boot.stage = 1 → s.configTakes body))
    parts := [.platform]
    post := fun s t => t.part = s.part ∧ t.errors = s.errors ∧ t.host = s.host ∧ t.power = s.power ∧
      t.boot = { s.boot with recovery := true } }

/-- R372: a signed request of the host, from stage 1 on, raises R_F to the version of the accepted image. -/
def rollbackClaim : EventClaim :=
  { pre := fun s => 1 ≤ s.boot.stage ∧ s.boot.recovery = false
    parts := [.platform]
    post := fun s t => t.part = s.part ∧ t.errors = s.errors ∧ t.host = s.host ∧ t.power = s.power ∧
      t.boot = { s.boot with rollback := max s.boot.rollback (min 64 s.boot.imageVersion) } }

/-! ## The host -/

/-- R368: the host's accesses to memory that exists: a write stores its bytes, a read changes nothing. -/
def hostAccessClaim (write : Bool) (addr : BitVec 42) (data : List Byte) : EventClaim :=
  { pre := fun s => s.boot.recovery = false ∧ hbmPresent s.part addr.toNat (max 1 data.length) = true
    parts := [.hbm]
    post := fun s t => ∀ x, memGet t.mem.hbm x =
      if write = true ∧ addr.toNat ≤ x ∧ x < addr.toNat + data.length then data.getD (x - addr.toNat) 0 else memGet s.mem.hbm x }

/-- R369, R370: the parts of the host's side that registers hold. -/
def State.platformBut (s t : State) : Prop := t.part = s.part ∧ t.boot = s.boot ∧ t.errors = s.errors

/-- R369, R370, R376: EVTBASE, EVTLOG and PCAP take values that fit, and keep their own otherwise. -/
def registerClaims (off : BitVec 16) (value : BitVec 64) : List EventClaim :=
  let v := value.toNat
  [ { pre := fun s => s.boot.recovery = false ∧ off = 0x108, parts := [.platform]
      post := fun s t => s.platformBut t ∧ t.power = s.power ∧
        t.host = (if v % 2 ^ 12 = 0 then { s.host with evtbase := v } else s.host) },
    { pre := fun s => s.boot.recovery = false ∧ off = 0x110, parts := [.platform]
      post := fun s t => s.platformBut t ∧ t.power = s.power ∧
        t.host = (if 8 ≤ v % 2 ^ 32 ∧ v % 2 ^ 32 ≤ 16 then { s.host with evtlog := v % 2 ^ 32 } else s.host) },
    { pre := fun s => s.boot.recovery = false ∧ off = 0x300, parts := [.platform]
      post := fun s t => s.platformBut t ∧ t.host = s.host ∧
        t.power = (if 1500 ≤ v % 2 ^ 32 ∧ v % 2 ^ 32 ≤ s.part.watts then { s.power with pcap := v % 2 ^ 32 } else s.power) },
    { pre := fun s => s.boot.recovery = true },
    { pre := fun s => s.boot.recovery = false ∧ off ≠ 0x108 ∧ off ≠ 0x110 ∧ off ≠ 0x300 ∧ bellAt off.toNat = none } ]

/-- R369: a doorbell is rung. -/
def ringClaim (off : BitVec 16) (value : BitVec 64) (b : Bell) : EventClaim :=
  { pre := fun s => s.boot.recovery = false ∧ bellAt off.toNat = some b, does := fun s => s.ringBell b value.toNat }

/-- R376: PCAP over the management path. -/
def pcapClaim (watts : BitVec 32) : EventClaim :=
  { pre := fun s => s.boot.recovery = false, parts := [.platform]
    post := fun s t => s.platformBut t ∧ t.host = s.host ∧
      t.power = (if 1500 ≤ watts.toNat ∧ watts.toNat ≤ s.part.watts then { s.power with pcap := watts.toNat } else s.power) }

/-! ## Power -/

/-- R370, R376, R377: throttling begins above PCAP or 95 °C, and ends below both. -/
def powerRow : Instr → Option EventClaim
  | .throttleStart w c => some
      { pre := fun s => s.power.throttling = false ∧ (s.power.pcap < w ∨ 95 < c), does := fun s => s.event 8 0xFF 1 w, parts := [.platform]
        post := fun s t => s.platformBut t ∧ t.host = s.host ∧ t.power = { s.power with throttling := true } }
  | .throttleEnd w c => some
      { pre := fun s => s.power.throttling = true ∧ w ≤ s.power.pcap ∧ c ≤ 95, does := fun s => s.event 8 0xFF 2 w, parts := [.platform]
        post := fun s t => s.platformBut t ∧ t.host = s.host ∧ t.power = { s.power with throttling := false } }
  | _ => none

/-- R268, R321, R377: at 110 °C every READY context enters FREEZING, every port is FENCED, and the module is tripped. -/
def tripClaim (c : Nat) : EventClaim :=
  { pre := fun s => s.power.tripped = false ∧ 110 ≤ c
    does := fun s => (((s.ctxs.filter fun c => c.2.st == .ready).map (·.1)).foldl (fun t n => t.stopCtx n none) s).fenceAll.event 8 0xFF 3 c
    parts := [.platform]
    post := fun s t => s.platformBut t ∧ t.host = s.host ∧ t.power = { s.power with tripped := true } ∧ ∀ p ∈ t.links.ports, p.st = .fenced }

/-! ## SPDM and management -/

/-- R374: one more answer over the mailbox. -/
def answerClaim (a : State → List Byte) : EventClaim :=
  { parts := [.platform]
    post := fun s t => s.platformBut t ∧ t.power = s.power ∧ t.host = { s.host with spdm := s.host.spdm ++ [a s] } }

/-- R374: the requests with a fixed answer: its message code, and what the rule says of it (the layouts are those of SPDM 1.3, log entry
39). -/
def spdmRow : Instr → Option (Nat × (State → List Byte → Prop))
  | .getVersion => some (0x04, fun _ b => recField b 5 1 = 1 ∧ recField b 6 2 = 0x1300)
  | .getCapabilities => some (0x61, fun _ b => bitsOf (recField b 8 4) 1 2 = 3 ∧ bitsOf (recField b 8 4) 4 1 = 1)
  | .negotiateAlgorithms => some (0x63, fun _ b => recField b 12 4 = 0x100 ∧ recField b 16 4 = 4)
  | .getDigests => some (0x01, fun _ b => recField b 3 1 = 1 ∧ b.drop 4 = flitBytes (Config.sha512 Config.certChain))
  | .getCertificate off len => some (0x02, fun _ b => b.drop 8 = (Config.certChain.drop off.toNat).take len.toNat)
  | .unsupportedRequest code => some (0x7F, fun _ b => recField b 2 1 = 7 ∧ recField b 3 1 = code.toNat)
  | _ => none

/-- An answer with a message code. -/
def spdmClaim (code : Nat) (tells : State → List Byte → Prop) : EventClaim :=
  { parts := [.platform]
    post := fun s t => s.platformBut t ∧ t.power = s.power ∧ ∃ b, t.host = { s.host with spdm := s.host.spdm ++ [b] } ∧
      recField b 1 1 = code ∧ tells s b }

/-- R374: CHALLENGE: the device identity key signs the nonce with the answer, in which the device's own nonce is free. -/
def challengeClaim (nonce : BitVec 256) : EventClaim :=
  { does := fun s => s.fresh.2
    parts := [.platform]
    post := fun s t => s.platformBut t ∧ t.power = s.power ∧ ∃ b own, b.length = 102 ∧ recField b 1 1 = 3 ∧
      (b.drop 4).take 64 = flitBytes (Config.sha512 Config.certChain) ∧ (b.drop 68).take 32 = leBytes 32 own ∧
      t.host = { s.host with spdm := s.host.spdm ++ [b ++ Config.identitySign (Config.sha512 (leBytes 32 nonce.toNat ++ b))] } }

/-- R371, R374: the digest of a measurement: 1 the ROM, 2, 3 and 4 the images, 5 the boot configuration. -/
def Boot.digestOf (b : Boot) (i : Nat) : Option (BitVec 512) :=
  if i = 1 then some (Config.sha512 Config.maskRom)
  else if i = 2 then b.measures[0]?
  else if i = 3 then b.measures[1]?
  else if i = 4 then b.measures[3]?
  else if i = 5 then b.measures[2]?
  else none

/-- R374: GET_MEASUREMENTS of one measurement that has been taken. -/
def measureClaim (index : BitVec 8) (d : BitVec 512) : EventClaim :=
  { pre := fun s => s.boot.digestOf index.toNat = some d
    parts := [.platform]
    post := fun s t => s.platformBut t ∧ t.power = s.power ∧ ∃ b, t.host = { s.host with spdm := s.host.spdm ++ [b] } ∧
      recField b 1 1 = 0x60 ∧ recField b 4 1 = 1 ∧ recField b 8 1 = index.toNat ∧ b.drop 15 = flitBytes d }

/-- R374: how many measurements there are, for index 0. -/
def measureCountClaim : EventClaim :=
  { parts := [.platform]
    post := fun s t => s.platformBut t ∧ t.power = s.power ∧ ∃ b, t.host = { s.host with spdm := s.host.spdm ++ [b] } ∧
      recField b 1 1 = 0x60 ∧
      recField b 2 1 = ((List.range 5).filter fun i => (s.boot.digestOf (i + 1)).isSome).length ∧ recField b 4 1 = 0 }

/-- R374: all of them, for index 0xFF; one that there is not gives ERROR. -/
def measureOtherClaims (index : BitVec 8) : List EventClaim :=
  [ { pre := fun _ => index = 0xFF, parts := [.platform]
      post := fun s t => s.platformBut t ∧ t.power = s.power ∧ ∃ b, t.host = { s.host with spdm := s.host.spdm ++ [b] } ∧
        recField b 1 1 = 0x60 ∧ recField b 4 1 = ((List.range 5).filter fun i => (s.boot.digestOf (i + 1)).isSome).length ∧
        b.drop 8 = ((List.range 5).filterMap fun i => (s.boot.digestOf (i + 1)).map fun d =>
          leBytes 1 (i + 1) ++ leBytes 1 1 ++ leBytes 2 67 ++ leBytes 1 0 ++ leBytes 2 64 ++ flitBytes d).flatten },
    { pre := fun s => index ≠ 0 ∧ index ≠ 0xFF ∧ s.boot.digestOf index.toNat = none, parts := [.platform]
      post := fun s t => s.platformBut t ∧ t.power = s.power ∧ ∃ b, t.host = { s.host with spdm := s.host.spdm ++ [b] } ∧
        recField b 1 1 = 0x7F } ]

/-- R375, R379: MGMT_READ of DEVSTAT, of the error counters and of the error log; sensors read free values. -/
def mgmtClaim (item : BitVec 8) (a : State → List Byte) : EventClaim :=
  { pre := fun s => item = 2 ∨ s.boot.recovery = false
    parts := [.platform, .free]
    post := fun s t => s.platformBut t ∧ t.power = s.power ∧ t.host = { s.host with mgmt := s.host.mgmt ++ [a s] } }

/-- The items with a stated value (log entry 39). -/
def mgmtRow : BitVec 8 → Option (State → List Byte)
  | 2 => some fun s => leBytes 8 ((if s.boot.ready = true then 1 else 0) + (if s.boot.recovery = true then 2 else 0) + 2 ^ 8 * s.boot.stage)
  | 3 => some fun s => (s.errors.corrected ++ s.errors.uncorrected).flatMap fun c => leBytes 4 c.toNat
  | 4 => some fun s => s.errors.log.flatMap fun e => leBytes 8 e.1 ++ leBytes 8 e.2.1 ++ leBytes 8 e.2.2
  | _ => none

/-- R374 to R379: MGMT_READ of an item without a stated value appends some answer, and of an item that is none nothing. -/
def mgmtOtherClaims (item : BitVec 8) : List EventClaim :=
  [ { pre := fun s => (item = 0 ∨ item = 1) ∧ s.boot.recovery = false, parts := [.platform, .free]
      post := fun s t => s.platformBut t ∧ t.power = s.power ∧ ∃ b, t.host = { s.host with mgmt := s.host.mgmt ++ [b] } },
    { pre := fun s => 5 ≤ item.toNat ∨ item ≠ 2 ∧ s.boot.recovery = true } ]

end Sys2Proof.Machine
end

