-- ==== Sys2Proof/WellFormed.lean ====
section
/-! DEFINITION. Well-formed instructions: the field values that no constructor type excludes and the encoding does
(04_encoding R53, R60, R65, R69). -/

namespace Sys2Proof

/-- A condition code of R60 that is assigned. -/
def condOk (c : BitVec 3) : Bool := decide (c.toNat < 6)

/-- Well-formed: a condition that is part of the OP is assigned (R65), a mask names an engine (R69); an event row has no
encoding and is not well-formed. -/
def Instr.wellFormed : Instr → Bool
  | .nopC _ => true
  | .add _ _ _ _ => true
  | .sub _ _ _ _ => true
  | .mul _ _ _ _ => true
  | .mulh _ _ _ _ => true
  | .mulhn _ _ _ _ => true
  | .div _ _ _ _ => true
  | .divn _ _ _ _ => true
  | .rem _ _ _ _ => true
  | .remn _ _ _ _ => true
  | .and _ _ _ _ => true
  | .or _ _ _ _ => true
  | .xor _ _ _ _ => true
  | .shl _ _ _ _ => true
  | .shr _ _ _ _ => true
  | .sar _ _ _ _ => true
  | .slt _ _ _ _ => true
  | .sltn _ _ _ _ => true
  | .min _ _ _ _ => true
  | .max _ _ _ _ => true
  | .minn _ _ _ _ => true
  | .maxn _ _ _ _ => true
  | .fsh _ _ _ _ _ => true
  | .sel _ _ _ _ _ => true
  | .addi _ _ _ _ => true
  | .andi _ _ _ _ => true
  | .ori _ _ _ _ => true
  | .xori _ _ _ _ => true
  | .shli _ _ _ _ => true
  | .shri _ _ _ _ => true
  | .sari _ _ _ _ => true
  | .slti _ _ _ _ => true
  | .ext _ _ _ _ _ => true
  | .ins _ _ _ _ _ => true
  | .clz _ _ _ => true
  | .ctz _ _ _ => true
  | .popc _ _ _ => true
  | .lih _ _ _ => true
  | .cmpCc _ _ _ _ _ => true
  | .cmpiCc c _ _ _ _ => condOk c
  | .bCc c _ _ _ _ => condOk c
  | .bCcA c _ _ _ _ => condOk c
  | .br _ _ => true
  | .call _ _ => true
  | .ret _ => true
  | .jr _ _ => true
  | .qpush _ _ _ => true
  | .qpop _ _ _ => true
  | .qpeek _ _ _ => true
  | .qbind _ _ _ _ => true
  | .ld _ _ _ _ _ _ _ => true
  | .st _ _ _ _ _ _ _ => true
  | .xlate _ _ _ => true
  | .hdrop _ _ => true
  | .hchk _ _ _ => true
  | .sealPages _ _ _ => true
  | .unsealPages _ _ _ => true
  | .bind _ _ _ => true
  | .unbind _ _ => true
  | .acq _ _ _ _ => true
  | .rel _ _ => true
  | .fence _ _ => true
  | .tlook _ _ _ => true
  | .tset _ _ _ _ _ => true
  | .tclr _ _ _ => true
  | .aadd _ _ _ _ _ _ _ => true
  | .axchg _ _ _ _ _ _ => true
  | .acas _ _ _ _ _ _ => true
  | .amin _ _ _ _ _ _ => true
  | .amax _ _ _ _ _ _ => true
  | .aand _ _ _ _ _ _ => true
  | .aor _ _ _ _ _ _ => true
  | .axor _ _ _ _ _ _ => true
  | .aincw _ _ _ _ _ _ => true
  | .afaddb _ _ _ _ _ _ _ => true
  | .ared _ _ _ _ => true
  | .atclose _ => true
  | .fset _ _ => true
  | .fclr _ _ => true
  | .fwait _ _ _ => true
  | .ftest _ _ _ => true
  | .barjoin _ _ _ => true
  | .barwait _ _ _ => true
  | .jobx _ _ => true
  | .hfold _ _ _ _ _ => true
  | .hscan _ _ _ _ _ => true
  | .hzip _ _ _ _ _ => true
  | .houter _ _ _ _ _ => true
  | .rdef _ _ _ => true
  | .rdrop _ _ => true
  | .wqpost _ _ => true
  | .wqarm _ _ _ => true
  | .wqcancel _ _ => true
  | .wqstat _ _ _ => true
  | .cntset _ _ _ => true
  | .cntadd _ _ _ _ => true
  | .cntwait _ _ _ => true
  | .cntread _ _ _ => true
  | .gencfg _ _ _ => true
  | .geninv _ _ => true
  | .gsr _ _ _ => true
  | .ssr _ _ _ => true
  | .trap _ _ _ => true
  | .rft _ _ => true
  | .brk _ _ => true
  | .thset _ _ _ => true
  | .engclaim _ => true
  | .engrel _ => true
  | .timealign _ _ => true
  | .erd _ _ _ => true
  | .emov _ _ _ => true
  | .estore _ _ _ _ => true
  | .trace _ _ _ => true
  | .yield _ => true
  | .halt _ => true
  | .iinv _ _ _ => true
  | .calset _ _ _ => true
  | .xswap _ _ _ => true
  | .nopV _ => true
  | .vadd _ _ _ _ _ _ => true
  | .vaddZq _ _ _ _ _ _ => true
  | .vsub _ _ _ _ _ _ => true
  | .vsubZq _ _ _ _ _ _ => true
  | .vmul _ _ _ _ _ _ => true
  | .vmulZq _ _ _ _ _ _ => true
  | .vfma _ _ _ _ _ => true
  | .vfmaZq _ _ _ _ _ => true
  | .vmin _ _ _ _ _ => true
  | .vminZq _ _ _ _ _ => true
  | .vmax _ _ _ _ _ => true
  | .vmaxZq _ _ _ _ _ => true
  | .vabs _ _ _ _ _ => true
  | .vabsZq _ _ _ _ _ => true
  | .vneg _ _ _ _ _ => true
  | .vnegZq _ _ _ _ _ => true
  | .vand _ _ _ _ => true
  | .vandZq _ _ _ _ => true
  | .vor _ _ _ _ => true
  | .vorZq _ _ _ _ => true
  | .vxor _ _ _ _ => true
  | .vxorZq _ _ _ _ => true
  | .vnot _ _ _ => true
  | .vnotZq _ _ _ => true
  | .vshl _ _ _ _ _ => true
  | .vshlZq _ _ _ _ _ => true
  | .vshr _ _ _ _ _ => true
  | .vshrZq _ _ _ _ _ => true
  | .vsar _ _ _ _ _ => true
  | .vsarZq _ _ _ _ _ => true
  | .vsel _ _ _ _ _ => true
  | .vselZq _ _ _ _ _ => true
  | .vcvt _ _ _ _ _ _ _ => true
  | .vcvtZq _ _ _ _ _ _ _ => true
  | .vclz _ _ _ _ => true
  | .vclzZq _ _ _ _ => true
  | .vpopc _ _ _ _ => true
  | .vpopcZq _ _ _ _ => true
  | .vext _ _ _ _ _ => true
  | .vextZq _ _ _ _ _ => true
  | .vins _ _ _ _ => true
  | .vinsZq _ _ _ _ => true
  | .vfsh _ _ _ _ => true
  | .vfshZq _ _ _ _ => true
  | .vperm _ _ _ _ => true
  | .vpermZq _ _ _ _ => true
  | .vbcast _ _ _ _ => true
  | .vbcastZq _ _ _ _ => true
  | .vlsh _ _ _ _ => true
  | .vlshZq _ _ _ _ => true
  | .vred _ _ _ _ _ _ _ => true
  | .vredZq _ _ _ _ _ _ _ => true
  | .vscan _ _ _ _ _ _ _ => true
  | .vscanZq _ _ _ _ _ _ _ => true
  | .vgath _ _ _ _ _ => true
  | .vgathZq _ _ _ _ _ => true
  | .vscat _ _ _ _ _ => true
  | .vscatZq _ _ _ _ _ => true
  | .vlut _ _ _ _ _ => true
  | .vlutZq _ _ _ _ _ => true
  | .vrcp _ _ _ _ => true
  | .vrcpZq _ _ _ _ => true
  | .vrsq _ _ _ _ => true
  | .vrsqZq _ _ _ _ => true
  | .vexp2 _ _ _ _ => true
  | .vexp2Zq _ _ _ _ => true
  | .vlog2 _ _ _ _ => true
  | .vlog2Zq _ _ _ _ => true
  | .vatan _ _ _ _ _ _ => true
  | .vatanZq _ _ _ _ _ _ => true
  | .vsincos _ _ _ _ _ => true
  | .vsincosZq _ _ _ _ _ => true
  | .vnorm _ _ _ _ => true
  | .vnormZq _ _ _ _ => true
  | .vsplit _ _ _ _ _ _ => true
  | .vsplitZq _ _ _ _ _ _ => true
  | .vmov _ _ _ => true
  | .vmovZq _ _ _ => true
  | .vtos _ _ _ => true
  | .vfroms _ _ _ => true
  | .vaadd _ _ _ _ _ _ => true
  | .vaaddZq _ _ _ _ _ _ => true
  | .vcmpEq _ _ _ _ _ => true
  | .vcmpEqZq _ _ _ _ _ => true
  | .vcmpNe _ _ _ _ _ => true
  | .vcmpNeZq _ _ _ _ _ => true
  | .vcmpLt _ _ _ _ _ => true
  | .vcmpLtZq _ _ _ _ _ => true
  | .vcmpLe _ _ _ _ _ => true
  | .vcmpLeZq _ _ _ _ _ => true
  | .vcmpLtn _ _ _ _ _ => true
  | .vcmpLtnZq _ _ _ _ _ => true
  | .vcmpLen _ _ _ _ _ => true
  | .vcmpLenZq _ _ _ _ _ => true
  | .vli _ _ _ => true
  | .mand _ _ _ _ => true
  | .mor _ _ _ _ => true
  | .mxor _ _ _ _ => true
  | .mnot _ _ _ => true
  | .mpopc _ _ _ => true
  | .mfirst _ _ _ => true
  | .nopL _ => true
  | .zbind _ _ _ _ => true
  | .zstart _ _ => true
  | .zstop _ _ => true
  | .zskip _ _ _ => true
  | .ldv _ _ _ _ => true
  | .streamFill _ => false
  | .nopM _ => true
  | .mload _ _ _ _ _ => true
  | .mstore _ _ _ _ => true
  | .msweep _ _ _ _ _ _ _ _ _ => true
  | .mderive _ _ _ _ _ _ => true
  | .mscale _ _ _ _ => true
  | .mpanel _ _ _ => true
  | .mslice _ _ _ _ _ _ _ => true
  | .mcommit _ _ => true
  | .mwaitb _ _ => true
  | .mretire _ _ _ _ _ _ _ => true
  | .mnorm _ _ _ _ => true
  | .mclrWindow _ _ _ _ => true
  | .mclrBank _ _ _ => true
  | .mstat _ _ _ _ => true
  | .mfence _ _ => true
  | .meshOperationComplete _ => false
  | .sweepSegmentEnd _ => false
  | .batchWriteBack => false
  | .nopS _ => true
  | .zdrain _ _ => true
  | .stv _ _ _ _ => true
  | .scvt _ _ _ _ _ => true
  | .samax _ _ _ _ _ => true
  | .vamaxr _ _ _ _ _ => true
  | .supd _ _ _ _ => true
  | .spair _ _ => true
  | .streamDrainWrite _ => false
  | .notify _ m _ _ => m != 0
  | .dictld _ _ _ => true
  | .bemEq _ m _ _ _ => m != 0
  | .bemEqA _ m _ _ _ => m != 0
  | .bemNe _ m _ _ _ => m != 0
  | .bemNeA _ m _ _ _ => m != 0
  | .bemLt _ m _ _ _ => m != 0
  | .bemLtA _ m _ _ _ => m != 0
  | .bemLe _ m _ _ _ => m != 0
  | .bemLeA _ m _ _ _ => m != 0
  | .bemLtn _ m _ _ _ => m != 0
  | .bemLtnA _ m _ _ _ => m != 0
  | .bemLen _ m _ _ _ => m != 0
  | .bemLenA _ m _ _ _ => m != 0
  | .blockHeader _ _ => true
  | .blockHeaderReg _ _ => true
  | .blockEnd _ => false
  | .timedNop _ => true
  | .dictionaryReference _ => true
  | .variableLatencyArrival _ _ => false
  | .interrupt => false
  | .routineFault _ => false
  | .debugStop => false
  | .debugResume => false
  | .jobStart _ => false
  | .copyChunkComplete _ => false
  | .jobComplete _ => false
  | .firingStart _ _ => false
  | .firingLocalComplete _ _ => false
  | .firingTimeout _ _ => false
  | .firingRecordExpiry _ _ _ => false
  | .create _ => false
  | .destroy _ => false
  | .replenish _ => false
  | .ctxRead _ => false
  | .contextFrozen _ => false
  | .contextDrained _ => false
  | .enable _ => false
  | .disable _ => false
  | .resume _ => false
  | .flush _ => false
  | .queueRead _ => false
  | .launch _ => false
  | .step _ => false
  | .wait _ => false
  | .waitConditionHolds _ _ => false
  | .signalEntry _ => false
  | .hostnote _ => false
  | .entryCompletion _ _ => false
  | .serviceOpportunity => false
  | .placementComplete _ _ => false
  | .kernelTriggerMet _ => false
  | .combinerCompletion => false
  | .preemption => false
  | .hangDetected => false
  | .calendarReservation _ _ => false
  | .calendarStart _ _ => false
  | .configure _ => false
  | .remove _ => false
  | .barrierReset _ => false
  | .barrierRead _ => false
  | .barrierReleaseTick _ _ => false
  | .qpopen _ => false
  | .qpclose _ => false
  | .qpread _ => false
  | .portfence _ => false
  | .portunfence _ => false
  | .route _ => false
  | .portread _ => false
  | .timecfg _ => false
  | .qpConnectRetry _ => false
  | .qpClosed _ => false
  | .portTrained _ _ => false
  | .trainingTimeout _ => false
  | .trainingRetry _ => false
  | .laneFailure _ => false
  | .fenceDrainTimeout _ => false
  | .flitReceive _ _ _ _ _ => false
  | .rdreq _ _ => false
  | .rdrsp _ _ => false
  | .wrreq _ _ => false
  | .atreq _ _ => false
  | .atrsp _ _ => false
  | .wrack _ _ => false
  | .fire _ _ => false
  | .fack _ _ => false
  | .ctrl _ _ => false
  | .time _ _ => false
  | .forwardResend _ => false
  | .forwardFailure _ => false
  | .homeRecordExpiry _ _ => false
  | .datagramReceive _ _ _ _ => false
  | .ethResendTimeout _ => false
  | .timePacketSend => false
  | .holdoverEntry => false
  | .slewEnd => false
  | .migrate _ => false
  | .migrationCopyDone _ => false
  | .duplicate _ => false
  | .hold _ => false
  | .unhold _ => false
  | .unmap _ => false
  | .zerocnt _ => false
  | .lend _ => false
  | .borrow _ => false
  | .revoke _ => false
  | .leaseDeadline _ _ => false
  | .accWriteback _ _ => false
  | .messidorDrain => false
  | .eccAggregate _ => false
  | .reset => false
  | .bootStage _ _ => false
  | .rollbackRaise _ => false
  | .hostMemoryAccess _ _ _ => false
  | .bar0RegisterWrite _ _ => false
  | .pcapWrite _ => false
  | .throttleStart _ _ => false
  | .throttleEnd _ _ => false
  | .thermalTrip _ => false
  | .getVersion => false
  | .getCapabilities => false
  | .negotiateAlgorithms => false
  | .getDigests => false
  | .getCertificate _ _ => false
  | .challenge _ => false
  | .getMeasurements _ => false
  | .unsupportedRequest _ => false
  | .mgmtRead _ => false
  | .coldReset => false
  | .unassignedItem _ => false
  | .badcmd _ _ => false
  | .meshVectorAppended _ => false
  | .slicePairBoundary _ => false
  | .duplicateCopyDone _ => false
  | .swapExchangeComplete => false
  | .podTimeReached => false

end Sys2Proof
end

