-- ==== Sys2Proof/Certificates/Slice0/Obligations.lean ====
section
/-! DEFINITION. The statements about the model, for the provers. Rules R<n> are those of spec/; where a statement rests on a choice of
the model its docstring names the log entry. -/

open Sys2Proof Sys2Proof.Machine

/-! ## Encoding, steps, boot -/

/-- R48 to R69: decoding the item that encodes a well-formed instruction gives the instruction back. -/
def Obligations.EncodeDecode : Prop :=
  ∀ (i : Instr) (n w : Nat), i.wellFormed = true → encode i = some (n, w) → decodeTableWord n w = some i

/-- R48 to R70: an item that decodes is the encoding of a well-formed instruction: no assigned word has a second reading, and no
reserved bit is dropped. -/
def Obligations.DecodeEncode : Prop :=
  (∀ (w : Nat) (i : Instr), w < 2 ^ 32 → decodeTableWord 32 w = some i →
    i.wellFormed = true ∧ (encode i = some (32, w) ∨ encode i = some (16, w / 2 ^ 16))) ∧
  (∀ (p : Nat) (i : Instr), p < 2 ^ 16 → decodeTableWord 16 p = some i → i.wellFormed = true ∧ encode i = some (16, p))

/-- 04_encoding: some words of each tag, written out from the field tables, decode to the instruction that they stand for. -/
def Obligations.WordsDecode : Prop :=
  decodeTableWord 32 0x00908860 = some (.add 1 1 2 3) ∧
  decodeTableWord 32 0x066F83FF = some (.addi 2 31 0 0x3FF) ∧
  decodeTableWord 32 0x110216C7 = some (.ld 0 4 5 1 3 0 7) ∧
  decodeTableWord 32 0x1D848020 = some (.gsr 0 9 0x20) ∧
  decodeTableWord 32 0x48B0E844 = some (.vcvt 3 1 1 10 2 2 0) ∧
  decodeTableWord 32 0x20819C0A = some (.zbind 0 3 7 10) ∧
  decodeTableWord 32 0x6101268B = some (.msweep 0 1 2 3 1 1 0 1 1) ∧
  decodeTableWord 32 0x81D94FFF = some (.supd 1 9 4 0xFFF) ∧
  decodeTableWord 32 0xB04F9005 = some (.notify 0 31 1 5) ∧
  decodeTableWord 32 0xAFFF8004 = some (.blockHeaderReg 0xFFF 4) ∧
  decodeTableWord 16 0xC064 = some (.timedNop 100) ∧
  decodeTableWord 16 0xE155 = some (.dictionaryReference 0x155) ∧
  decodeTableWord 32 0x00908861 = none

/-- R371 to R373, R376: every step keeps boot and configuration consistent. -/
def Obligations.BootOkKept : Prop := ∀ s t : State, s.BootOk → step s = .next t → t.BootOk

/-- R371, R372: the state after reset is consistent. -/
def Obligations.BootOkAtReset : Prop := State.reset.BootOk

/-- R371 to R373, R376: boot, part and power cap change only by a reset, a boot stage, a raise of the rollback counter, a write of PCAP
over the management path, or a register write of the host, when that event is the next of the agenda. -/
def Obligations.ConfigurationIsKept : Prop :=
  ∀ s t : State, step s = .next t →
    (t.boot = s.boot ∧ t.part = s.part ∧ t.power.pcap = s.power.pcap) ∨
    ∃ core i r, s.agenda = .event core i :: r ∧
      (i = .reset ∨ i = .coldReset ∨ (∃ a b, i = .bootStage a b) ∨ (∃ b, i = .rollbackRaise b) ∨ (∃ w, i = .pcapWrite w) ∨
        ∃ a b, i = .bar0RegisterWrite a b)

/-- 04_encoding R48, R57: a step of an engine that stands at an item of its own runs the decoded instruction, then the turn passes on
(log entry 3); an item that does not decode traps; an item of other engines is passed; a word latched from the dictionary, or left by RFT.sub
(10_system R222), runs in the item's place. -/
def Obligations.StepRunsTheItem : Prop :=
  ∀ (s : State) (e : Engine), s.AtItem e →
    let cur := (s.eng e).cur
    let p := s.me.store.parcel cur
    let w := s.me.store.word cur
    let plain := (s.eng e).latch = none ∧ (s.eng e).sub = none
    (plain → isLong p = true → (p / 2 ^ 12 = 10 ∨ inMask (wordMask w) e = true ∧ s.unclaimed e w = false) →
      (∀ i, decodeTableWord 32 w = some i → step s = thenTurn e (exec i s)) ∧
      (decodeTableWord 32 w = none → s.Ready e 0 [] → (p / 2 ^ 12 = 10 → s.framed e (hdrLen w)) →
        step s = thenTurn e (.next (s.trapAt e causeIllegal 0 0 false)) ∨
        step s = thenTurn e (.next (s.trapAt e causeReserved 0 0 false)))) ∧
    ((s.eng e).latch = none → isLong p = true → p / 2 ^ 12 ≠ 10 → inMask (wordMask w) e = false → s.unclaimed e w = false →
      step s = thenTurn e (.next (s.passBytes e 4))) ∧
    (plain → isLong p = false → (fld p 13 3 = 7 → fld p 10 3 = 0 → s.unclaimed e (s.refWord e p) = false) →
      ∀ i, decodeTableWord 16 p = some i → step s = thenTurn e (exec i s)) ∧
    (∀ (u : BitVec 32) (i : Instr), decodeTableWord 32 u.toNat = some i → isLong (u.toNat / 2 ^ 16) = true →
      (∀ n : Nat, (s.eng e).latch = some (u, n) → (s.eng e).sub = none → step s = thenTurn e (exec i s)) ∧
      ((s.eng e).sub = some u → s.me.isOwn e = true → step s = thenTurn e (exec i (s.latchSub e))))

/-- A step takes the next move of the agenda, or in an asynchronous turn a row without words (log entry 3). -/
def Obligations.StepRunsEvents : Prop :=
  (∀ (s : State) (core : Nat) (i : Instr) (r : List Move), s.agenda = .event core i :: r → encode i = none →
    (∀ e, i ≠ .unassignedItem e) → step s = exec i (State.focus { s with agenda := r } core)) ∧
  (∀ (s : State) (core : Nat) (e : Engine) (r : List Move), s.agenda = .engine core e :: r →
    step s = engineStep e (State.focus { s with agenda := r } core)) ∧
  (∀ (s : State) (ns : Nat) (r : List Move), s.agenda = .time ns :: r → step s = .next (State.elapse { s with agenda := r } ns)) ∧
  (∀ s : State, s.agenda = [] → s.turn = .async →
    step s = .next s.observe.endTurn ∨ ∃ i, encode i = none ∧ step s = andThen State.endTurn (exec i s.observe))

/-- 05_control R84, R85, 10_system R222: an engine that may not run issues nothing; a skipped or an annulled item takes its cycle and
its sequence number, and has no effect. -/
def Obligations.ItemsWithoutEffect : Prop :=
  ∀ (i : Instr) (c : Claim),
    (arithmeticRow i = some c ∨ jumpRow i = some c ∨ queueRow i = some c ∨ tagRow i = some c ∨ maskRow i = some c ∨
      loadEngineRow i = some c ∨ storeEngineRow i = some c ∨ meshRow i = some c) →
    ∀ s : State,
      (s.mayRun c.eng = false → exec i s = .next s) ∧
      (s.mayRun c.eng = true → ((s.eng c.eng).skip = true ∨ (s.eng c.eng).annul.getLsbD 0 = true) →
        ∃ t, exec i s = .next t ∧ Claim.Done { eng := c.eng, y := c.y } s t)

/-- 05_control R77, R78: at a cycle the results whose landing cycle has come are in their registers, for each register the one that
lands last, of one cycle the later issued; a write to s0 is discarded; other registers and other parts are as they were. -/
def Obligations.ResultsLand : Prop :=
  ∀ (g : Group) (e : Engine) (t : Nat) (l r : List InFlight) (f : InFlight),
    (∀ n, (g.landTo e t).sreg 0 = 0 ∧ ((∀ x ∈ (g.engine e).flight, x.landed t = true → x.reg ≠ n) →
      (g.landTo e t).regVal n = g.regVal n)) ∧
    ((g.engine e).flight = l ++ f :: r → f.landed t = true →
      (∀ x ∈ l, x.landed t = true → x.reg = f.reg → x.land ≤ f.land) →
      (∀ x ∈ r, x.landed t = true → x.reg = f.reg → x.land < f.land) → (g.landTo e t).Holds f.reg f.val) ∧
    ((g.landTo e t).engine e).flight = (g.engine e).flight.filter (fun x => !x.landed t) ∧
    (∀ e', e' ≠ e → (g.landTo e t).engine e' = g.engine e') ∧
    (g.landTo e t).store = g.store ∧ (g.landTo e t).work = g.work ∧ (g.landTo e t).queues = g.queues

/-! ## Scalars and control -/

/-- 05_control R79, R80, R81: the results of arithmetic, of shifts, of bit-field and counting instructions, with their latencies, and
that they change nothing else; the bitwise forms by their bits.
Completes: add, addi, and, andi, clz, ctz, div, divn, ext, fsh, ins, lih, max, maxn, min, minn, mul, mulh, mulhn, or, ori, popc, rem,
remn, sar, sari, sel, shl, shli, shr, shri, slt, slti, sltn, sub, xor, xori. -/
def Obligations.ScalarResults : Prop :=
  (∀ (i : Instr) (c : Claim), arithmeticRow i = some c → c.Holds i) ∧
  (∀ (i : Instr) (y : BitVec 2) (d : BitVec 5) (srcs : List Reg) (f : State → Nat → Bool), bitwiseRow i = some (y, d, srcs, f) →
    ∃ v : State → BitVec 64, (∀ a, IsBits (v a) (f a)) ∧ (scalarClaim y d srcs 1 v).Holds i)

/-- 05_control R60, R83: a compare writes whether its condition holds; a condition code 6 or 7 of CMP is ILLEGAL.
Completes: cmpCc, cmpiCc. -/
def Obligations.CompareResults : Prop :=
  ∀ (i : Instr) (y : BitVec 2) (d : BitVec 3) (srcs : List Reg) (c : Nat) (u v : State → BitVec 64),
    compareRow i = some (y, d, srcs, c, u, v) →
    (c < 6 → ∃ b : State → Bool, (∀ a, b a = true ↔ condTrue c (u a) (v a)) ∧ (predicateClaim y d srcs b).Holds i) ∧
    (6 ≤ c → ∀ s : State, s.Ready .c y srcs → exec i s = .next (s.trapAt .c causeIllegal 0 0 false))

/-- 05_control R84 to R88: where branches, CALL, RET and JR lead, what an untaken annulling branch cancels, and where CALL and RET
trap.
Completes: bCc, bCcA, br, call, jr, ret. -/
def Obligations.Branches : Prop :=
  (∀ (i : Instr) (annul : Bool) (c : Nat) (y : BitVec 2) (d a : BitVec 5) (off : Int),
    condBranchRow i = some (annul, c, y, d, a, off) →
    (c < 6 → ∃ taken : State → Bool, (∀ s, taken s = true ↔ condTrue c (s.me.sreg d) (s.me.sreg a)) ∧
      (condBranchClaim annul y d a off taken).Holds i) ∧
    (6 ≤ c → ∀ s : State, s.Ready .c y [.s d, .s a] → exec i s = .next (s.trapAt .c causeIllegal 0 0 false))) ∧
  (∀ (i : Instr) (c : Claim), jumpRow i = some c → c.Holds i) ∧
  (∀ (s : State) (y : BitVec 2) (k : BitVec 20), s.Ready .c y [] →
    ((s.eng .c).slots ≠ 0 → exec (.call y k) s = .next (s.trapAt .c causeIllegal 0 0 false)) ∧
    ((s.eng .c).slots = 0 → 8 ≤ s.me.frames.length → exec (.call y k) s = .next (s.trapAt .c causeBounds 0 0 false))) ∧
  (∀ (s : State) (y : BitVec 2), s.Ready .c y [.s 31] → ((s.eng .c).slots ≠ 0 ∨ s.me.frames = []) →
    exec (.ret y) s = .next (s.trapAt .c causeIllegal 0 0 false))

/-- 05_control R91 to R93, R96: what the queue instructions and NOP of C do; a queue instruction traps on the wrong side of a bound
queue, and waits at an unbound one, at a full one to push, at an empty one to pop.
Completes: nopC, qbind, qpeek, qpop, qpush. -/
def Obligations.QueueInstructions : Prop :=
  (∀ (i : Instr) (c : Claim), queueRow i = some c → c.Holds i) ∧
  (∀ (i : Instr) (y : BitVec 2) (q : BitVec 4) (srcs : List Reg) (push : Bool), queueUse i = some (y, q, srcs, push) →
    ∀ s : State, s.Ready .c y srcs →
      ((s.me.queue q).wrongSide push → exec i s = .next (s.trapAt .c causeQueueCfg 0 0 false)) ∧
      (s.mustWaitAt q push → ∃ t, exec i s = .next t ∧ s.Waits .c t))

/-- 04_encoding R50 to R53, R70: a header opens a body; the count of a register header comes from the queue that C fills as it passes the
header; a count of 0 passes the body, where the window lets it (05_control R95).
Completes: blockHeader, blockHeaderReg. -/
def Obligations.Headers : Prop :=
  ∀ (s : State) (e : Engine) (l : BitVec 12), s.mayRun e = true → s.actor = e → s.framed e l.toNat →
    (∀ c : BitVec 15, c ≠ 0 → ∃ t, exec (.blockHeader l c) s = .next t ∧
      s.Moves e t ((s.eng e).cur + 4) ((s.eng e).opened l.toNat c.toNat) (s.eng e).clk ∧ (t.eng e).hbq = (s.eng e).hbq) ∧
    (∀ (r : BitVec 5) (n : Nat), e ≠ .c → s.hiddenHead e (.count n) → (n = 0 → s.me.inWindow e (2 + l.toNat) = true) →
      ∃ t, exec (.blockHeaderReg l r) s = .next t ∧ s.PopsHidden e t ∧
        (if n = 0 then s.Moves e t ((s.eng e).cur + 4 + 2 * l.toNat) (s.eng e).stack (s.eng e).clk
         else s.Moves e t ((s.eng e).cur + 4) ((s.eng e).opened l.toNat n) (s.eng e).clk)) ∧
    (∀ (r : BitVec 5), e = .c → s.Ready .c 0 [.s r] → ((s.arrived .c 0).me.sreg r).toNat ≤ 32767 →
      (∀ f, s.follows f = true → (s.eng f).hbq.length < 4) →
      ((s.arrived .c 0).me.sreg r = 0 → s.me.inWindow .c (2 + l.toNat) = true) →
      ∃ t, exec (.blockHeaderReg l r) s = .next t ∧
        (∀ f, f ≠ .c → t.eng f =
          if s.follows f = true then (s.eng f).hidden (.count ((s.arrived .c 0).me.sreg r).toNat) (s.coveredBy .c)
          else s.eng f) ∧
        (if (s.arrived .c 0).me.sreg r = 0 then
           (t.eng .c).cur = (s.eng .c).cur + 4 + 2 * l.toNat ∧ (t.eng .c).stack = (s.eng .c).stack
         else (t.eng .c).cur = (s.eng .c).cur + 4 ∧
           (t.eng .c).stack = (s.eng .c).opened l.toNat ((s.arrived .c 0).me.sreg r).toNat) ∧
        (s.arrived .c 0).KeepsBut t .c [.engine .l, .engine .v, .engine .m, .engine .s])

/-- 04_encoding R51, R52, R56, R62, R70: the end of a body, a timed NOP (log entry 8), a dictionary reference, an item that is none.
Completes: blockEnd, dictionaryReference, timedNop, unassignedItem. -/
def Obligations.Framing : Prop :=
  ∀ (s : State) (e : Engine), s.mayRun e = true →
    (∀ (k : BitVec 3) (l : Level) (r : List Level), engineOfTag k.toNat = some e → (s.eng e).pc = .seq →
      (s.eng e).stack = l :: r → (s.eng e).cur = l.last →
      ∃ t, exec (.blockEnd k) s = .next t ∧
        (if 1 < l.passes then s.Moves e t l.body ({ l with passes := l.passes - 1 } :: r) (s.eng e).clk
         else s.Moves e t (s.eng e).cur r (s.eng e).clk)) ∧
    (s.actor = e → ∀ n : BitVec 13, ∃ t, exec (.timedNop n) s = .next t ∧
      s.Moves e t ((s.eng e).cur + 2) (s.eng e).stack
        ((s.eng e).clk + if s.me.attributed e = true then n.toNat else 0)) ∧
    (s.actor = e → ∀ (ix : BitVec 10) (w : BitVec 32), s.me.dictEntry e ix.toNat = some w →
      ∃ t, exec (.dictionaryReference ix) s = .next t ∧
        (if inMask (wordMask w.toNat) e = true then
           s.Moves e t (s.eng e).cur (s.eng e).stack (s.eng e).clk ∧ (t.eng e).latch = some (w, 2)
         else s.Moves e t ((s.eng e).cur + 2) (s.eng e).stack (s.eng e).clk ∧ (t.eng e).latch = (s.eng e).latch)) ∧
    (∀ (k : BitVec 3), engineOfTag k.toNat = some e → s.Ready e 0 [] →
      exec (.unassignedItem k) s = .next (s.trapAt e causeIllegal 0 0 false))

/-- 05_control R89, R90: BEM: C pushes its outcome to the engines that the mask names and goes on; another engine takes its oldest
outcome and branches by it.
Completes: bemEq, bemEqA, bemLe, bemLeA, bemLen, bemLenA, bemLt, bemLtA, bemLtn, bemLtnA, bemNe, bemNeA. -/
def Obligations.BranchesOfAllEngines : Prop :=
  ∀ (i : Instr) (c : Nat) (annul : Bool) (y : BitVec 2) (m f g : BitVec 4) (off : Int),
    bemRow i = some (c, annul, y, m, f, g, off) →
    (∀ s : State, s.actor = .c → ∃ take : State → Bool,
      (∀ a, take a = true ↔ condTrue c (a.me.sreg (f.setWidth 5)) (a.me.sreg (g.setWidth 5))) ∧
      ((bemClaim annul y m f g off take).pre (s.arrived .c y) → s.Ready .c y [.s (f.setWidth 5), .s (g.setWidth 5)] →
        ∃ t, exec i s = .next t ∧ s.Passed .c y t ∧ s.Flows .c t ((bemClaim annul y m f g off take).flow (s.arrived .c y)) ∧
          (bemClaim annul y m f g off take).post (s.arrived .c y) t ∧
          (s.arrived .c y).KeepsBut t .c (bemClaim annul y m f g off take).parts)) ∧
    (∀ (s : State) (e : Engine) (take ann : Bool), s.actor = e → e ≠ .c → s.Ready e y [] → s.hiddenHead e (.branch take ann) →
      ∃ t, exec i s = .next t ∧ s.Passed e y t ∧ s.Flows e t (branchFlow take ann (s.targetOf e off)) ∧ s.PopsHidden e t ∧
        (s.arrived e y).KeepsBut t e [])

/-- 04_encoding R63, R64: DICTLD: C's copy loads the entry and lets the other engines pass theirs, each in its turn; an engine that C has
not passed yet waits.
Completes: dictld. -/
def Obligations.DictionaryLoads : Prop :=
  (∀ (s : State) (y : BitVec 2) (a : BitVec 5) (k : BitVec 10) (r : List Byte), s.actor = .c → s.Ready .c y [.s a] →
    let u := s.arrived .c y
    u.me.record (u.me.sreg a).toNat 4 4 = .ok r →
    ∃ t, exec (.dictld y a k) s = .next t ∧ s.Passed .c y t ∧ s.Flows .c t .straight ∧
      (∀ n, assocGet t.me.store.dict n =
        if n = k.toNat then dictAfter (BitVec.ofNat 32 (recField r 0 4)) else assocGet u.me.store.dict n) ∧
      (∀ e, e ≠ .c → t.eng e =
        if s.follows e = true ∧ (s.eng e).stopped = false then
          (if (s.eng e).dictOwed = 0 then { s.eng e with dictq := (s.eng e).dictq ++ [some (k.toNat, assocGet u.me.store.dict k.toNat)] }
           else { s.eng e with dictOwed := (s.eng e).dictOwed - 1 })
        else s.eng e) ∧
      u.KeepsBut t .c [.dict, .engine .l, .engine .v, .engine .m, .engine .s]) ∧
  (∀ (s : State) (e : Engine) (y : BitVec 2) (a : BitVec 5) (k : BitVec 10), s.actor = e → e ≠ .c → s.Ready e y [] →
    (∀ l r, (s.eng e).dictq = l :: r → ∃ t, exec (.dictld y a k) s = .next t ∧ s.Passed e y t ∧ s.Flows e t .straight ∧
      (t.eng e).dictq = r ∧ (s.arrived e y).KeepsBut t e []) ∧
    ((s.eng e).dictq = [] → ∃ t, exec (.dictld y a k) s = .next t ∧ s.Waits e t))

/-- 09_engine_commands R208: NOTIFY of any engine: it has stopped, and with CT the word is to count once in a counter of its context;
before that it waits for what of the engine is outstanding; without CT its counter field is reserved.
Completes: notify. -/
def Obligations.Notify : Prop :=
  ∀ (s : State) (e : Engine) (y : BitVec 2) (m : BitVec 5) (c : BitVec 1) (n : BitVec 12), s.actor = e → m ≠ 0 → s.Ready e y [] →
    let u := s.arrived e y
    let counts := if c = 1 then u.granted n.toNat = true else n = 0
    (counts → u.mayNotify e → ∃ t, exec (.notify y m c n) s = .next t ∧ s.Passed e y t ∧ s.Flows e t .straight ∧
      (t.eng e).stopped = true ∧ (t.eng e).notify = (if c = 1 then some (s.me.itemAddr e, n.toNat) else none) ∧ u.KeepsBut t e []) ∧
    (counts → ¬u.mayNotify e → ∃ t, exec (.notify y m c n) s = .next t ∧ s.Waits e t) ∧
    (c = 1 → u.granted n.toNat = false → exec (.notify y m c n) s = .next (s.trapAt e causePriv 0 0 false)) ∧
    (c = 0 → n ≠ 0 → exec (.notify y m c n) s = .next (s.trapAt e causeReserved 0 0 false))

/-! ## Memory -/

/-- 08_memory_ops R154 to R160, R203, R341: LD from a scratchpad, a generator window, a page that this module reads, and a page whose
frame another module holds, or a replica whose owner has yet to answer a store of the group's core.
Completes: ld. -/
def Obligations.Loads : Prop :=
  ∀ (i : Instr) (r : LdSt), loadRow i = some r →
    (r.h = 0 → ∀ core x, (spadLoadClaim r core x).Holds i) ∧
    (r.h = 1 → (∀ g, (genLoadClaim r g).Holds i) ∧ ∀ e, (pageLoadClaim r e).Holds i ∧ ∀ x, (remoteLoadClaim r e x).Holds i)

/-- 08_memory_ops R154 to R158, R207, R341: ST to a scratchpad, to a LOCAL page of this module, to host memory, and to a generator window
without STRAP, where no byte but those of the operand changes; and to a page of another module or a replica, which is forwarded.
Completes: st. -/
def Obligations.Stores : Prop :=
  ∀ (i : Instr) (r : LdSt), storeRow i = some r →
    (r.h = 0 → ∀ core x, (spadStoreClaim r core x).Holds i) ∧
    (r.h = 1 → (∀ g, (genStoreClaim r g).Holds i) ∧
      ∀ e, (pageStoreClaim r e).Holds i ∧ (hostStoreClaim r e).Holds i ∧ ∀ x, (remoteStoreClaim r e x).Holds i)

/-- 08_memory_ops R157, R158, R172, R207, R219: the traps of loads, stores and atomics, in the order of the checks. -/
def Obligations.MemoryTraps : Prop :=
  (∀ (i : Instr) (r : LdSt) (srcs : List Reg), (loadRow i = some r ∧ srcs = r.srcs ∨ storeRow i = some r ∧ srcs = .s r.r :: r.srcs) →
    ∀ (s : State) (c va : Nat), s.Ready .c r.y srcs →
      (s.arrived .c r.y).accessTrap r.h r.base (r.off (s.arrived .c r.y)) r.size = some (c, va) →
      exec i s = .next (s.trapAt .c c 0 va (decide (r.h = 1) && viaBank15 s r.base))) ∧
  (∀ (i : Instr) (r : LdSt), storeRow i = some r → r.h = 1 → ∀ (s : State) (c va : Nat), s.Ready .c r.y (.s r.r :: r.srcs) →
      let a := s.arrived .c r.y
      a.accessTrap r.h r.base (r.off a) r.size = none → a.storeTrap (r.handle a) (r.va a) = some (c, va) →
      exec i s = .next (s.trapAt .c c 0 va (viaBank15 s r.base))) ∧
  (∀ (i : Instr) (r : LdSt) (srcs : List Reg), (loadRow i = some r ∧ srcs = r.srcs ∨ storeRow i = some r ∧ srcs = .s r.r :: r.srcs) →
    r.h = 1 → ∀ (s : State) (c va : Nat), s.Ready .c r.y srcs →
      let a := s.arrived .c r.y
      a.accessTrap r.h r.base (r.off a) r.size = none → (loadRow i = none → a.storeTrap (r.handle a) (r.va a) = none) →
      (loadRow i ≠ none → a.roomForResult) → a.genAt a.me.ident.ctx (r.va a) = none → a.pageTrap (r.handle a) (r.va a) = some (c, va) →
      exec i s = .next (s.trapAt .c c 0 va (viaBank15 s r.base))) ∧
  (∀ (i : Instr) (r : AtomicForm), atomicRow i = some r → ∀ (s : State) (c va : Nat), s.Ready .c r.y r.srcs →
      let a := s.arrived .c r.y
      let off := if r.h = 1 then (a.me.sreg (r.t + 2)).toNat else 0
      (r.assigned → a.accessTrap r.h r.base off (r.bits / 8) = some (c, va) →
        exec i s = .next (s.trapAt .c c 0 va (decide (r.h = 1) && viaBank15 s r.base))) ∧
      (r.assigned → a.accessTrap r.h r.base off (r.bits / 8) = none → a.atomicTrap r.h r.base off r.scope.toNat = some (c, va) →
        exec i s = .next (s.trapAt .c c 0 va (decide (r.h = 1) && viaBank15 s r.base))) ∧
      (¬r.assigned → (r.h = 1 → r.base.getLsbD 4 = false) →
        exec i s = .next (s.trapAt .c causeIllegal 0 0 (decide (r.h = 1) && viaBank15 s r.base))))

/-- 08_memory_ops R172, R173, R175: the value-returning atomics: at once outside Nivose mode, on a scratchpad, on a LOCAL page or at the
module that holds the frame; in Nivose mode they wait for their interval to close.
Completes: aadd, aand, acas, afaddb, aincw, amax, amin, aor, axchg, axor. -/
def Obligations.Atomics : Prop :=
  ∀ (i : Instr) (r : AtomicForm), atomicRow i = some r →
    (∀ core x old, (spadAtomicClaim r core x old).Holds i) ∧ (∀ core x, (spadIntervalClaim r core x).Holds i) ∧
    (∀ e old, (pageAtomicClaim r e old).Holds i) ∧ ∀ e, (pageIntervalClaim r e).Holds i ∧ ∀ x, (remoteAtomicClaim r e x).Holds i

/-- 08_memory_ops R161, R162, R170, R171: XLATE, HDROP, HCHK with the status word, and the tag table.
Completes: hchk, hdrop, tclr, tlook, tset, xlate. -/
def Obligations.HandlesAndTags : Prop :=
  (∀ (i : Instr) (c : Claim), (handleRow i = some c ∨ tagRow i = some c) → c.Holds i) ∧
  (∀ (y : BitVec 2) (d : BitVec 5) (a : BitVec 4), ∃ w : State → BitVec 64, (∀ s, IsStatus (s.me.hreg a) (w s)) ∧
    (hchkClaim y d w).Holds (.hchk y d a)) ∧
  (∀ (s : State) (y : BitVec 2) (d : BitVec 4) (a : BitVec 5), s.Ready .c y [.s a] →
    let u := s.arrived .c y
    (2 ^ 56 ≤ (u.me.sreg a).toNat ∨ u.translate u.me.ident.ctx (u.me.sreg a).toNat u.me.syspriv = none) →
    exec (.xlate y d a) s = .next (s.trapAt .c causeBounds 0 (u.me.sreg a).toNat false))

/-- 08_memory_ops R163, R164: SEAL, UNSEAL, BIND and UNBIND, and the trap of an operand that fails a check.
Completes: bind, sealPages, unbind, unsealPages. -/
def Obligations.SealingAndBinding : Prop :=
  (∀ (y : BitVec 2) (d a : BitVec 5) (l : List (Nat × PEntry)), (sealClaim y d a l).Holds (.sealPages y d a) ∧
    (unsealClaim y d a l).Holds (.unsealPages y d a)) ∧
  (∀ (y : BitVec 2) (a : BitVec 5) (k : BitVec 10) (r : List Byte) (b : Binding), (bindClaim y a k r b).Holds (.bind y a k)) ∧
  (∀ (y : BitVec 2) (k : BitVec 10), (unbindClaim y k).Holds (.unbind y k)) ∧
  (∀ (s : State) (y : BitVec 2) (d a : BitVec 5) (c va : Nat), s.Ready .c y [.s d, .s a] →
    (s.arrived .c y).sealCheck ((s.arrived .c y).me.sreg d).toNat ((s.arrived .c y).me.sreg a).toNat = .error (c, va) →
    exec (.sealPages y d a) s = .next (s.trapAt .c c 0 va false) ∧ exec (.unsealPages y d a) s = .next (s.trapAt .c c 0 va false))

/-- 08_memory_ops R165, R166, R180: ACQ that is granted or that an error token ends, REL by a holder, of an object at home here or in
another module (log entry 41); ACQ by a holder and REL by another are ILLEGAL, and an address that names no object is BOUNDS.
Completes: acq, rel. -/
def Obligations.AcquireRelease : Prop :=
  (∀ (y : BitVec 2) (d : BitVec 5) (p : BitVec 3) (x : BitVec 1) (key : Nat), (acqClaim y d p x key).Holds (.acq y d p x) ∧
    (acqTokenClaim y d p key).Holds (.acq y d p x) ∧ ∀ a, (acqFarClaim y d p key a).Holds (.acq y d p x)) ∧
  (∀ (y : BitVec 2) (d : BitVec 5) (key : Nat), (∀ ex, (relClaim y d key ex).Holds (.rel y d)) ∧
    ∀ a, (relFarClaim y d key a).Holds (.rel y d)) ∧
  (∀ (s : State) (y : BitVec 2) (d : BitVec 5) (p : BitVec 3) (x : BitVec 1), s.Ready .c y [.s d] →
    let u := s.arrived .c y
    let va := (u.me.sreg d).toNat
    (∀ key, u.homeObj va key → (∃ h ∈ (u.obj u.me.ident.ctx key).holders, u.ownsHold h = true) →
      exec (.acq y d p x) s = .next (s.trapAt .c causeIllegal 0 0 false)) ∧
    (∀ key, u.objKey u.me.ident.ctx va = some key → u.isHome key = true →
      (∀ h ∈ (u.obj u.me.ident.ctx key).holders, u.ownsHold h = false) →
      exec (.rel y d) s = .next (s.trapAt .c causeIllegal 0 0 false)) ∧
    (u.objKey u.me.ident.ctx va = none → exec (.rel y d) s = .next (s.trapAt .c causeIllegal 0 0 false)) ∧
    (va % 8 ≠ 0 → exec (.acq y d p x) s = .next (s.trapAt .c causeAlign 0 va false)) ∧
    (va % 8 = 0 → (2 ^ 56 ≤ va ∨ u.leafOf u.me.ident.ctx va = none) →
      exec (.acq y d p x) s = .next (s.trapAt .c causeBounds 0 va false)))

/-- 08_memory_ops R169, R174, R175, R177, R178, R180: FENCE, ARED, ATCLOSE, FSET, FCLR, FTEST and FWAIT; where FWAIT waits; a flag above
255 is out of bounds.
Completes: ared, atclose, fclr, fence, fset, ftest, fwait. -/
def Obligations.FlagsAndFences : Prop :=
  (∀ (i : Instr) (c : Claim), syncRow i = some c → c.Holds i) ∧ (∀ y, (atcloseClaim y).Holds (.atclose y)) ∧
  (∀ (y : BitVec 2) (n : BitVec 12) (p : BitVec 3), (fwaitClaim y n p).Holds (.fwait y n p) ∧ (fwaitTokenClaim y n p).Holds (.fwait y n p) ∧
    ∀ s : State, s.Ready .c y [] →
      (255 < n.toNat →
        exec (.fset y n) s = .next (s.trapAt .c causeBounds 0 0 false) ∧ exec (.fclr y n) s = .next (s.trapAt .c causeBounds 0 0 false) ∧
        exec (.ftest y n p) s = .next (s.trapAt .c causeBounds 0 0 false) ∧
        exec (.fwait y n p) s = .next (s.trapAt .c causeBounds 0 0 false)) ∧
      (n.toNat ≤ 255 → s.me.work.tokens = 0 → s.me.flag n.toNat = false → ∃ t, exec (.fwait y n p) s = .next t ∧ s.Waits .c t)) ∧
  (∀ (s : State) (y : BitVec 2) (k : BitVec 3), s.Ready .c y [] →
    (k.toNat < 5 → (s.arrived .c y).fenceWaits k.toNat = true → ∃ t, exec (.fence y k) s = .next t ∧ s.Waits .c t) ∧
    (5 ≤ k.toNat → exec (.fence y k) s = .next (s.trapAt .c causeIllegal 0 0 false)))

/-- 08_memory_ops R179, R180, 20_barrier R314, R318, R319: BARJOIN; BARWAIT as it returns, and as it stands; a barrier that is not
configured is BOUNDS, one that is joined already, or not joined, ILLEGAL.
Completes: barjoin, barwait. -/
def Obligations.BarrierInstructions : Prop :=
  (∀ (y : BitVec 2) (n : BitVec 12) (a : BitVec 5) (b : Barrier), (barjoinClaim y n a b).Holds (.barjoin y n a)) ∧
  (∀ (y : BitVec 2) (n : BitVec 12) (p : BitVec 3) (j : Joined) (err token : Bool), (barwaitClaim y n p j err token).Holds (.barwait y n p)) ∧
  (∀ (s : State) (y : BitVec 2) (n : BitVec 12) (p : BitVec 3), s.Ready .c y [] →
    ((∃ j, s.me.work.joined.find? (fun j => j.bar == n.toNat) = some j ∧ j.result = none) →
      (s.bar s.me.ident.ctx n.toNat).isSome = true → s.me.work.tokens = 0 → ∃ t, exec (.barwait y n p) s = .next t ∧ s.Stands y n t) ∧
    ((∀ j ∈ s.me.work.joined, j.bar ≠ n.toNat) → exec (.barwait y n p) s =
      .next (s.trapAt .c (if (s.bar s.me.ident.ctx n.toNat).isSome = true then causeIllegal else causeBounds) 0 0 false))) ∧
  (∀ (s : State) (y : BitVec 2) (n : BitVec 12) (a : BitVec 5), s.Ready .c y [.s a] →
    ((s.bar s.me.ident.ctx n.toNat = none ∨ 2 ^ 40 ≤ ((s.arrived .c y).me.sreg a).toNat) →
      exec (.barjoin y n a) s = .next (s.trapAt .c causeBounds 0 0 false)) ∧
    ((s.bar s.me.ident.ctx n.toNat).isSome = true → ((s.arrived .c y).me.sreg a).toNat < 2 ^ 40 →
      (∃ j ∈ s.me.work.joined, j.bar = n.toNat) → exec (.barjoin y n a) s = .next (s.trapAt .c causeIllegal 0 0 false)))

/-! ## Commands of C -/

/-- 09_engine_commands R182 to R195: JOBX and the H instructions issue a job under the next number; RDEF and RDROP.
Completes: hfold, houter, hscan, hzip, jobx, rdef, rdrop. -/
def Obligations.JobsAndRoutines : Prop :=
  (∀ (y : BitVec 2) (a : BitVec 5) (c : Card), (jobxClaim y a c).Holds (.jobx y a)) ∧
  (∀ (i : Instr) (f : HForm) (y : BitVec 2) (p : BitVec 4) (h : BitVec 6) (a : BitVec 5) (e : BitVec 3), hRow i = some (f, y, p, h, a, e) →
    ∀ (r : Routine) (c : Card), (hClaim f y p h a e r c).Holds i) ∧
  (∀ (y : BitVec 2) (h : BitVec 6) (a : BitVec 5) (r : List Byte) (x : Routine), (rdefClaim y h a r x).Holds (.rdef y h a)) ∧
  (∀ (y : BitVec 2) (h : BitVec 6), (rdropClaim y h).Holds (.rdrop y h))

/-- 09_engine_commands R196: the counters, and PRIV for one that is not the context's.
Completes: cntadd, cntread, cntset, cntwait. -/
def Obligations.Counters : Prop :=
  (∀ (i : Instr) (c : Claim), counterRow i = some c → c.Holds i) ∧
  (∀ (i : Instr) (y : BitVec 2) (n : BitVec 12) (srcs : List Reg), counterUse i = some (y, n, srcs) → ∀ s : State, s.Ready .c y srcs →
    (s.arrived .c y).granted n.toNat = false → exec i s = .next (s.trapAt .c causePriv 0 0 false))

/-- 09_engine_commands R197, R198, R202, R203, R206: WQPOST, WQARM, WQCANCEL and WQSTAT with the status word of a slot; GENCFG and GENINV.
Completes: gencfg, geninv, wqarm, wqcancel, wqpost, wqstat. -/
def Obligations.WorkEntriesAndWindows : Prop :=
  (∀ (y : BitVec 2) (a : BitVec 5) (r : List Byte) (w : WEntry), (wqpostClaim y a r w).Holds (.wqpost y a)) ∧
  (∀ (y : BitVec 2) (n : BitVec 12) (a : BitVec 5) (x : WSlot), (wqarmClaim y n a x).Holds (.wqarm y n a)) ∧
  (∀ (y : BitVec 2) (n : BitVec 12), (wqcancelClaim y n).Holds (.wqcancel y n)) ∧
  (∀ (y : BitVec 2) (n : BitVec 12) (d : BitVec 5), ∃ w : State → BitVec 64,
    (∀ s x, s.slotOf s.me.ident.ctx n.toNat = some x → IsSlotStatus x (w s)) ∧
    (∀ s : State, s.slotOf s.me.ident.ctx n.toNat = none → w s = 0) ∧ (wqstatClaim y d w).Holds (.wqstat y n d)) ∧
  (∀ (y : BitVec 2) (w : BitVec 4) (a : BitVec 5) (r : List Byte) (g : GenWin), (gencfgClaim y w a r g).Holds (.gencfg y w a)) ∧
  (∀ (y : BitVec 2) (w : BitVec 4), (geninvClaim y w).Holds (.geninv y w))

/-! ## The system -/

/-- 10_system R217 to R220: GSR and SSR, and the traps of an unassigned number, of a register that the group may not write, and of a
value that the register does not take.
Completes: gsr, ssr. -/
def Obligations.SystemRegisters : Prop :=
  (∀ (y : BitVec 2) (d : BitVec 5) (k : BitVec 10) (v : State → BitVec 64), (∀ s : State, s.sysReg k.toNat = some (v s)) →
    (gsrClaim y d v).Holds (.gsr y d k)) ∧
  (∀ (y : BitVec 2) (a : BitVec 5) (k : BitVec 10), (ssrClaim y a k).Holds (.ssr y a k)) ∧
  (∀ (y : BitVec 2) (d : BitVec 5) (k : BitVec 10) (s : State), s.Ready .c y [] → s.sysReg k.toNat = none →
    exec (.gsr y d k) s = .next (s.trapAt .c causeIllegal 0 0 false)) ∧
  (∀ (y : BitVec 2) (a : BitVec 5) (k : BitVec 10) (s : State), s.Ready .c y [.s a] →
    let u := s.arrived .c y
    (s.sysReg k.toNat = none → exec (.ssr y a k) s = .next (s.trapAt .c causeIllegal 0 0 false)) ∧
    ((s.sysReg k.toNat).isSome = true → ¬u.mayWriteSys k.toNat → exec (.ssr y a k) s = .next (s.trapAt .c causePriv 0 0 false)) ∧
    (u.mayWriteSys k.toNat → ¬sysTakes k.toNat (u.me.sreg a) → exec (.ssr y a k) s = .next (s.trapAt .c causeBounds 0 0 false)))

/-- 10_system R210 to R216, R222, R225: what taking a trap saves and where C goes; TRAP and BRK take theirs. Without a handler the
group is FROZEN and FAULTED where the fault domain of its region is the group.
Completes: brk, trap. -/
def Obligations.Traps : Prop :=
  (∀ (s : State) (eng cause info va addr : Nat) (b : Bool), s.me.phase ≠ .handler → s.me.sys.thbase.getLsbD 0 = true →
    s.Trapped (s.takeTrap eng cause info va addr b) eng cause info va addr) ∧
  (∀ (s : State) (eng cause info va addr : Nat) (b : Bool), s.me.phase = .running → s.me.sys.thbase.getLsbD 0 = false →
    (∀ c, s.ctx s.me.ident.ctx = some c → c.fdom (s.me.sys.ctxinfo.toNat / 2 ^ 16 % 2 ^ 16) = 0) →
    ((s.takeTrap eng cause info va addr b).me.phase = .frozen ∨ (s.takeTrap eng cause info va addr b).me.phase = .retired) ∧
      (s.takeTrap eng cause info va addr b).me.status = .faulted) ∧
  (∀ (s : State) (y : BitVec 2) (d a : BitVec 5), s.Ready .c y [] → s.me.phase ≠ .handler → s.me.sys.thbase.getLsbD 0 = true →
    ∃ t, exec (.trap y d a) s = .next t ∧ s.Trapped t 0 0x10 (d.toNat * 32 + a.toNat) 0 (s.me.itemAddr .c)) ∧
  (∀ (s : State) (y : BitVec 2) (d : BitVec 5) (e : Engine), engineOfTag d.toNat = some e → s.Ready e y [] →
    s.me.phase ≠ .handler → s.me.sys.thbase.getLsbD 0 = true →
    ∃ t, exec (.brk y d) s = .next t ∧ s.Trapped t e.tag 0x0F 0 0 (s.me.itemAddr e)) ∧
  (∀ (s : State) (y : BitVec 2) (d : BitVec 5), engineOfTag d.toNat = none → s.Ready .c y [] →
    exec (.brk y d) s = .next (s.trapAt .c causeIllegal 0 0 false))

/-- 10_system R215, R222, R238: RFT in a handler that has nothing outstanding; outside a handler it is PRIV, with a mode above 2
ILLEGAL.
Completes: rft. -/
def Obligations.ReturnFromTrap : Prop :=
  ∀ (s : State) (y : BitVec 2) (d : BitVec 5),
    (∀ (kept : EngineState) (t0 : Nat), s.mayRun .c = true → (s.eng .c).skip = false → (s.eng .c).annul.getLsbD 0 = false →
      s.mayReturn d.toNat → s.me.hand.csave = some kept → (∀ f ∈ (s.eng .c).flight, f.land ≤ t0) →
      ∃ t, exec (.rft y d) s = .next t ∧ s.Returned t d.toNat kept (s.me.landTo .c t0)) ∧
    (s.Ready .c y [] → s.me.phase ≠ .handler → exec (.rft y d) s = .next (s.trapAt .c causePriv 0 0 false)) ∧
    (s.Ready .c y [] → s.me.phase = .handler → 3 ≤ d.toNat → exec (.rft y d) s = .next (s.trapAt .c causeIllegal 0 0 false))

/-- 10_system R223, R224: THSET, ENGCLAIM and ENGREL, and their PRIV.
Completes: engclaim, engrel, thset. -/
def Obligations.Handlers : Prop :=
  (∀ (y : BitVec 2) (a b : BitVec 5), (thsetOffClaim y a b).Holds (.thset y a b) ∧ ∀ h, (thsetClaim y a b h).Holds (.thset y a b)) ∧
  (∀ (y : BitVec 2), (engclaimClaim y).Holds (.engclaim y) ∧ ∀ m x, (engrelClaim y m x).Holds (.engrel y)) ∧
  (∀ (s : State) (y : BitVec 2) (a b : BitVec 5), s.Ready .c y [.s a, .s b] → (s.arrived .c y).me.syspriv = false →
    exec (.thset y a b) s = .next (s.trapAt .c causePriv 0 0 false)) ∧
  (∀ (s : State) (y : BitVec 2), s.Ready .c y [] → s.me.phase ≠ .handler →
    exec (.engclaim y) s = .next (s.trapAt .c causePriv 0 0 false) ∧ exec (.engrel y) s = .next (s.trapAt .c causePriv 0 0 false))

/-- 10_system R229 to R231, R233: TIMEALIGN, at its issue and when its time comes, EMOV, TRACE, YIELD, ERD and ESTORE.
Completes: emov, erd, estore, podTimeReached, timealign, trace, yield. -/
def Obligations.TimeAndEnvironment : Prop :=
  (∀ (i : Instr) (c : Claim), platformRow i = some c → c.Holds i) ∧
  (∀ (s : State) (y : BitVec 2) (a : BitVec 5), s.atTimealign y a →
    exec .podTimeReached s = exec (.timealign y a) { s with turn := .engine .c } ∧
    ∀ c, platformRow (.timealign y a) = some c → s.Ready .c y [.s a] → ((s.arrived .c y).me.sreg a).toNat ≤ s.time.now →
      ∃ t, exec .podTimeReached s = .next t ∧ c.Done { s with turn := .engine .c } t) ∧
  (∀ (y : BitVec 2) (d : BitVec 3) (a : BitVec 5),
    (a.toNat < 5 → ∃ v : State → BitVec 64, (∀ s, erdReads s a.toNat (v s)) ∧ (erdClaim y d a v).Holds (.erd y d a)) ∧
    (5 ≤ a.toNat → ∀ s : State, s.Ready .c y [] → exec (.erd y d a) s = .next (s.trapAt .c causeIllegal 0 0 false))) ∧
  (∀ (y : BitVec 2) (d : BitVec 3) (a : BitVec 4) (b : BitVec 5) (va : State → Nat) (e : PEntry),
    (estoreClaim y d a b va e).Holds (.estore y d a b))

/-- 10_system R226, R228, R232, R233: CALSET, XSWAP, IINV and HALT, and their traps.
Completes: calset, halt, iinv, xswap. -/
def Obligations.PlatformInstructions : Prop :=
  (∀ (y : BitVec 2) (d a : BitVec 5), (∀ r, (calsetClaim y d a r).Holds (.calset y d a)) ∧ (∀ x, (xswapClaim y d a x).Holds (.xswap y d a)) ∧
    (iinvClaim y d a).Holds (.iinv y d a)) ∧
  (∀ (s : State) (y : BitVec 2) (d a : BitVec 5), s.Ready .c y [.s d, .s a] → (s.arrived .c y).me.syspriv = false →
    exec (.calset y d a) s = .next (s.trapAt .c causePriv 0 0 false) ∧ exec (.xswap y d a) s = .next (s.trapAt .c causePriv 0 0 false) ∧
      exec (.iinv y d a) s = .next (s.trapAt .c causePriv 0 0 false)) ∧
  (∀ (s : State) (y : BitVec 2), s.Ready .c y [] →
    (s.host.debugger = true → ∃ t, exec (.halt y) s = .next t ∧ s.Passed .c y t ∧ s.Flows .c t .straight ∧ t.me.phase = .stopped ∧
      t.me.prior = s.me.phase ∧ t.me.reason = 3 ∧
      (∀ a ∈ t.fe.areas, a.launch = s.me.ident.launch → a.index = s.me.ident.index → a.control = some t.me ∧ a.records = some t.me) ∧
      (s.arrived .c y).KeepsBut t .c (if s.me.mesh.ops = [] then [.phase, .frontEnd]
        else [.phase, .frontEnd, .mesh, .free] ++ (List.range 16).map fun z => .stream (BitVec.ofNat 4 z))) ∧
    (s.host.debugger = false → exec (.halt y) s = .next (s.trapAt .c causeBreak 1 0 false)))

/-! ## Vectors -/

/-- 06_vector R102 to R118: the results of the instructions of V with one destination, with the operand b from a register, a stream or a
queue.
Completes: vabs, vabsZq, vadd, vaddZq, vand, vandZq, vbcast, vbcastZq, vclz, vclzZq, vcmpEq, vcmpEqZq, vcmpLe, vcmpLeZq, vcmpLen,
vcmpLenZq, vcmpLt, vcmpLtZq, vcmpLtn, vcmpLtnZq, vcmpNe, vcmpNeZq, vcvt, vcvtZq, vexp2, vexp2Zq, vext, vextZq, vfma, vfmaZq, vfsh, vfshZq,
vins, vinsZq, vlog2, vlog2Zq, vlsh, vlshZq, vmax, vmaxZq, vmin, vminZq, vmov, vmovZq, vmul, vmulZq, vneg, vnegZq, vnorm, vnormZq, vnot,
vnotZq, vor, vorZq, vperm, vpermZq, vpopc, vpopcZq, vrcp, vrcpZq, vrsq, vrsqZq, vsar, vsarZq, vsel, vselZq, vshl, vshlZq, vshr, vshrZq,
vsub, vsubZq, vxor, vxorZq. -/
def Obligations.VectorResults : Prop := ∀ (i : Instr) (r : VRow), vectorRow i = some r → r.bad = none → r.claim.Holds i

/-- 06_vector R99, R100, R104, R108: a type or a field that an instruction of V does not accept traps; operand b waits for an empty
queue or stream, and traps where V is not its reader. -/
def Obligations.VectorStops : Prop :=
  ∀ (i : Instr) (r : VRow), vectorRow i = some r → ∀ s : State, s.Ready .v r.y r.reads →
    (∀ c, r.bad = some c → exec i s = .next (s.trapAt .v c 0 0 false)) ∧
    (r.bad = none → r.zq = true → (s.arrived .v r.y).mustWaitFor r.b → ∃ t, exec i s = .next t ∧ s.Waits .v t) ∧
    (r.bad = none → r.zq = true → (s.arrived .v r.y).notForV r.b → exec i s = .next (s.trapAt .v causeQueueCfg 0 0 false))

/-- 06_vector R107, R110: the mask instructions, VLI, NOP, VFROMS and VTOS.
Completes: mand, mfirst, mnot, mor, mpopc, mxor, nopV, vfroms, vli, vtos. -/
def Obligations.MasksAndMoves : Prop :=
  (∀ (i : Instr) (c : Claim), maskRow i = some c → c.Holds i) ∧
  (∀ (y : BitVec 2) (d b : BitVec 5), (fromsClaim y d b).Holds (.vfroms y d b) ∧ (tosClaim y d b).Holds (.vtos y d b))

/-- 06_vector R111, 02_numbers R44 to R46: VRED and VSCAN; where the sum of floating-point numbers under profile 0 has an open value,
everything but that value.
Completes: vred, vredZq, vscan, vscanZq. -/
def Obligations.Reductions : Prop :=
  ∀ (i : Instr) (r : RedForm), redForm i = some r → (¬r.isOpen → r.claim.Holds i) ∧ (r.isOpen → r.openClaim.Holds i)

/-- 06_vector R114, R115, R118: VATAN, VSINCOS and VSPLIT. The exponent of VATAN's lanes from .bx operands is open.
Completes: vatan, vatanZq, vsincos, vsincosZq, vsplit, vsplitZq. -/
def Obligations.AnglesAndSlices : Prop :=
  (∀ (i : Instr) (zq : Bool) (y : BitVec 2) (d a b : BitVec 5) (t : BitVec 4) (n : Nat), atanForm i = some (zq, y, d, a, b, t, n) →
    (t.toNat = 2 ∨ t.toNat = 10 → (atanRow zq y d a b t n).claim.Holds i) ∧ (t = 14 → (atanBxClaim zq y d a b n).Holds i)) ∧
  (∀ (i : Instr) (zq : Bool) (y : BitVec 2) (d b : BitVec 5) (t : BitVec 4) (g : BitVec 1), sincosForm i = some (zq, y, d, b, t, g) →
    (sincosClaim zq y d b t g).Holds i) ∧
  (∀ (i : Instr) (zq : Bool) (y : BitVec 2) (d a b : BitVec 5) (t : BitVec 4) (e : BitVec 1), splitForm i = some (zq, y, d, a, b, t, e) →
    (e = 0 → (splitClaim zq y d a b t).Holds i) ∧
    (e = 1 → a = 0 → splitBad a t e = none → (expPassRow zq y d b t).claim.Holds i) ∧
    (∀ s : State, s.Ready .v y (if e = 1 then .v d :: (if zq = true then [] else [.v b]) else .v a :: (if zq = true then [] else [.v b])) →
      ∀ c, splitBad a t e = some c → exec i s = .next (s.trapAt .v c 0 0 false)))

/-- 06_vector R112, R113: VGATH, VLUT, VSCAT and VAADD on the scratchpad and on XF slots.
Completes: vaadd, vaaddZq, vgath, vgathZq, vlut, vlutZq, vscat, vscatZq. -/
def Obligations.LaneAccesses : Prop :=
  (∀ (i : Instr) (l zq : Bool) (y : BitVec 2) (d a b : BitVec 5) (t : BitVec 4), gatherForm i = some (l, zq, y, d, a, b, t) →
    (gatherClaim l zq y d a b t).Holds i) ∧
  (∀ (i : Instr) (zq : Bool) (y : BitVec 2) (d a b : BitVec 5) (t : BitVec 4), scatterForm i = some (zq, y, d, a, b, t) →
    (scatterClaim zq y d a b t).Holds i) ∧
  (∀ (i : Instr) (zq : Bool) (y : BitVec 2) (d a b : BitVec 5) (t : BitVec 4) (f : BitVec 1), aaddForm i = some (zq, y, d, a, b, t, f) →
    (aaddClaim zq y d a b t f).Holds i ∧ (t.toNat = 10 → f = 1 → (aaddXfClaim zq y d a b).Holds i))

/-! ## Streams and the mesh -/

/-- 06_vector R119 to R123: the instructions of L and their traps; L fills a running input stream.
Completes: ldv, nopL, streamFill, zbind, zskip, zstart, zstop. -/
def Obligations.LoadEngine : Prop :=
  (∀ (i : Instr) (c : Claim), loadEngineRow i = some c → c.Holds i) ∧
  (∀ (i : Instr) (y : BitVec 2) (f : State → Option Nat), loadEngineTrap i = some (y, f) → ∀ s : State, s.Ready .l y [] →
    ∀ c, f (s.arrived .l y) = some c → exec i s = .next (s.trapAt .l c 0 0 false)) ∧
  (∀ z : BitVec 4, (fillClaim z).Holds (.streamFill z))

/-- 06_vector R121, R122, R124 to R128: the instructions of S; S drains a running output stream.
Completes: nopS, samax, scvt, spair, streamDrainWrite, stv, supd, vamaxr, zdrain. -/
def Obligations.StoreEngine : Prop :=
  (∀ (i : Instr) (c : Claim), storeEngineRow i = some c → c.Holds i) ∧
  (∀ (y : BitVec 2) (d k : BitVec 4) (p : BitVec 1) (q : BitVec 4), (vamaxrClaim y d k p q).Holds (.vamaxr y d k p q)) ∧
  (∀ (y : BitVec 2) (j q : BitVec 4) (n : BitVec 12),
    (∀ x, (supdClaim y j n x).Holds (.supd y j q n)) ∧
    ∀ s : State, s.Ready .s y [] →
      let u := s.arrived .s y
      (∀ x, u.me.vr.supd = some x → x.count + 1 < n.toNat → u.updateReady j →
        ∃ t, exec (.supd y j q n) s = .next t ∧ s.StaysAt .s t ∧ u.Updated t j (Hyper.of x.hyper) ∧
          t.me.vr.supd = some { x with count := x.count + 1 }) ∧
      (∀ w l r, u.me.vr.supd = none → n ≠ 0 → j.toNat ≤ 9 → (∀ i, i < 7 → (u.supdZ j i).st ≠ .unbound) →
        u.me.supdCheck j n.toNat = .ok () → u.Offers .s q → (u.me.queue q).entries = w :: l →
        u.me.record w.toNat 32 32 = .ok r →
        ∃ t, exec (.supd y j q n) s = .next t ∧ s.StaysAt .s t ∧ (t.me.queue q).entries = l ∧
          t.me.vr.supd = some ⟨0, (List.range 8).map fun i => BitVec.ofNat 32 (recField r (4 * i) 4)⟩)) ∧
  (∀ (y : BitVec 2) (q : BitVec 4) (r : List Byte), (spairClaim y q r).Holds (.spair y q) ∧
    ∀ s : State, s.Ready .s y [] →
      let u := s.arrived .s y
      let x := PairRec.of r
      u.Offers .s q → (∃ w l, (u.me.queue q).entries = w :: l ∧ u.me.record w.toNat 32 32 = .ok r) → spairCheck r = .ok () →
      u.me.spairFree x.src (256 * x.n + 256) = .ok () → u.me.spairFree x.fwd (320 + 128 * x.n) = .ok () →
      u.me.isPending false u.me.ident.core x.mir (320 + 128 * x.mirStages) = true → s.SpairCut y r (exec (.spair y q) s)) ∧
  (∀ z : BitVec 4, (drainClaim z).Holds (.streamDrainWrite z))

/-- 07_mesh R129 to R153: the words of M that hand an operation to the mesh without a stream and those that M executes itself; where they
stall and where they trap.
Completes: mclrBank, mclrWindow, mcommit, mfence, mload, mnorm, mscale, mstat, mstore, mwaitb, nopM. -/
def Obligations.MeshWords : Prop :=
  (∀ (i : Instr) (c : Claim), meshRow i = some c → c.Holds i) ∧
  (∀ (y : BitVec 2) (d : BitVec 4) (c : BitVec 1) (l : BitVec 4), (mstatClaim y d c l).Holds (.mstat y d c l)) ∧
  (∀ (i : Instr) (y : BitVec 2) (p : State → Prop), meshStall i = some (y, p) → ∀ s : State, s.Ready .m y [] → p (s.arrived .m y) →
    ∃ t, exec i s = .next t ∧ s.Waits .m t) ∧
  (∀ (i : Instr) (y : BitVec 2) (f : State → Option Nat), meshTrap i = some (y, f) → ∀ s : State, s.Ready .m y [] →
    ∀ c, f (s.arrived .m y) = some c → exec i s = .next (s.trapAt .m c 0 0 false))

/-- 07_mesh R141, R144 to R149: MSWEEP, MDERIVE, MPANEL, MSLICE and MRETIRE hand their operation to the mesh.
Completes: mderive, mpanel, mretire, mslice, msweep. -/
def Obligations.SweepsAndPanels : Prop :=
  (∀ (i : Instr) (c : Claim), sweepRow i = some c → c.Holds i) ∧
  (∀ (y : BitVec 2) (d : BitVec 4) (m : BitVec 2) (h : Nat), (mpanelClaim y d m h).Holds (.mpanel y d m)) ∧
  (∀ (y : BitVec 2) (w : BitVec 5) (z : BitVec 4) (n : BitVec 3) (f : BitVec 1) (p : BitVec 4) (ms : BitVec 2) (h m : Nat) (cp : PanelHead),
    (msliceClaim y w z n f p ms h m cp).Holds (.mslice y w z n f p ms)) ∧
  (∀ (y : BitVec 2) (d : BitVec 4) (w : BitVec 5) (n : BitVec 3) (r : BitVec 2) (p : BitVec 4) (ms : BitVec 2) (f64 full : Bool) (m : Nat),
    (mretireClaim y d w n r p ms f64 full m).Holds (.mretire y d w n r p ms))

/-- 07_mesh R131 to R150: the steps of the mesh: an operation without vectors completes, a sweep's segment ends, a vector goes through a
bank, a slice pair is computed, a batch is written back.
Completes: batchWriteBack, meshOperationComplete, meshVectorAppended, slicePairBoundary, sweepSegmentEnd. -/
def Obligations.MeshSteps : Prop :=
  ∀ id : Nat,
    (∀ o, (opCompleteClaim id o).Holds (.meshOperationComplete id) ∧ (segmentClaim id o).Holds (.sweepSegmentEnd id)) ∧
    (∀ o d z b first n v r, (sweepVectorClaim id o d z b first n v r).Holds (.meshVectorAppended id)) ∧
    (∀ o p win z n full m h kp b free i j, (slicePairClaim id o p win z n full m h kp b free i j).Holds (.slicePairBoundary id)) ∧
    (∀ b bs, (writeBackClaim b bs).Holds .batchWriteBack)

/-! ## Commands of the host -/

/-- 13_context R260 to R270: CREATE, DESTROY, REPLENISH and CTX_READ, with every STATUS that they report.
Completes: create, ctxRead, destroy, replenish. -/
def Obligations.ContextCommands : Prop := ∀ (i : Instr) (c : CmdClaim), c ∈ ctxCommands i → c.Holds i

/-- 14_queue R272 to R282, 20_barrier R312 to R320: the commands of queues and barriers, with every STATUS that they report. Every command
waits behind others and for a record in another module (log entry 48); a record that is not aligned, or whose OP is none of its doorbell's,
is BADCMD.
Completes: badcmd, barrierRead, barrierReset, configure, disable, enable, flush, queueRead, remove, resume. -/
def Obligations.QueueAndBarrierCommands : Prop :=
  (∀ (i : Instr) (c : CmdClaim), c ∈ queueCommands i ++ barCommands i → c.Holds i) ∧
  (∀ b : Barrier, b.HasCode b.code) ∧
  (∀ i b op cmd, commandOf i = some (b, op, cmd) → (misplaced b op cmd).Holds i ∧
    ∀ s : State, s.CommandWaits i b cmd.toNat ∧ s.CommandQueues i b op cmd.toNat) ∧
  (∀ (bell : BitVec 3) (cmd : BitVec 52) (b : Bell) (op : Nat), bellOf bell.toNat = some b → (op = 0 ∨ b.lastOp < op) →
    (badCommand b op cmd).Holds (.badcmd bell cmd))

/-- 21_link R321, R328 to R334: the commands of links, with every STATUS that they report.
Completes: portfence, portread, portunfence, qpclose, qpopen, qpread, route, timecfg. -/
def Obligations.LinkCommands : Prop := ∀ (i : Instr) (c : CmdClaim), c ∈ linkCommands i → c.Holds i

/-- 23_page R342 to R350: the commands of pages, with every STATUS that they report.
Completes: borrow, duplicate, hold, lend, migrate, revoke, unhold, unmap, zerocnt. -/
def Obligations.PageCommands : Prop := ∀ (i : Instr) (c : CmdClaim), c ∈ pageCommands i → c.Holds i

/-! ## Events of groups, queues and contexts -/

/-- 05_control R78, 08_memory_ops R160, 09_engine_commands R182 to R195, 10_system R210, R211, R227: data arrives, an interrupt is taken,
the debugger stops and resumes a group, jobs start, move and complete, element by element where they are H jobs; a routine faults.
Completes: copyChunkComplete, debugResume, debugStop, interrupt, jobComplete, jobStart, routineFault, variableLatencyArrival. -/
def Obligations.EngineAndJobEvents : Prop :=
  (∀ e x i f, (arrivalClaim e x i f).Holds (.variableLatencyArrival e i)) ∧
  interruptClaim.Holds .interrupt ∧ debugStopClaim.Holds .debugStop ∧ debugResumeClaim.Holds .debugResume ∧
  (∀ n j, (∀ d, (jobStartClaim n j d).Holds (.jobStart n)) ∧ (jobAskClaim n j).Holds (.jobStart n) ∧
    (unitClaim n j).Holds (.copyChunkComplete n) ∧ (jobCompleteClaim n j).Holds (.jobComplete n) ∧
    ∀ f, (routineFaultClaim n j f).Holds (.routineFault n) ∧ (routineLostClaim n j f).Holds (.routineFault n)) ∧
  (∀ n j m a src, (chunkClaim n j m a src).Holds (.copyChunkComplete n)) ∧
  (∀ n j h x, (hElementClaim n j h x).Holds (.jobComplete n)) ∧
  (∀ (s : State) (j : Job) (h : HWork) (x : HStep), s.hWork j = some h → s.hStep j h = .ok x → s.StepGives j h x)

/-- 09_engine_commands R198 to R202, 21_link R330, 13_context R260, R268, R269: the steps of a firing and of a target's record of it; a
context is FROZEN, or gives back what it holds.
Completes: contextDrained, contextFrozen, firingLocalComplete, firingRecordExpiry, firingStart, firingTimeout. -/
def Obligations.FiringAndContextEvents : Prop :=
  (∀ (ctx : BitVec 8) (n : BitVec 12) (x : WSlot),
    (signalStartClaim ctx n x).Holds (.firingStart ctx n) ∧ (∀ l, (putStartClaim ctx n x l).Holds (.firingStart ctx n)) ∧
    (∀ l, (firingFailClaim ctx n x l).Holds (.firingStart ctx n)) ∧
    (∀ f q p u g, (firingSendClaim ctx n x f q p u g).Holds (.firingLocalComplete ctx n)) ∧
    ∀ f, (firingResendClaim ctx n x f).Holds (.firingTimeout ctx n) ∧ (firingLostClaim ctx n x f).Holds (.firingTimeout ctx n) ∧
      (earlierLostClaim ctx n x f).Holds (.firingTimeout ctx n)) ∧
  (∀ qp n f q, (recordExpiryClaim qp n f q).Holds (.firingRecordExpiry qp n f)) ∧
  (∀ ctx k, (frozenClaim ctx k).Holds (.contextFrozen ctx) ∧ (drainedClaim ctx k).Holds (.contextDrained ctx))

/-- 14_queue R275 to R279, R286 to R288: the front end serves the entries of a queue; an entry completes with its STATUS.
Completes: entryCompletion, hostnote, launch, signalEntry, step, wait, waitConditionHolds. -/
def Obligations.EntryEvents : Prop :=
  (∀ (q : BitVec 10) (x : Next) (u : State) (r : List Byte), (launchClaim q x u r).Holds (.launch q) ∧
    ∀ v, ∀ c ∈ launchEnds q x u v r, c.Holds (.launch q)) ∧
  (∀ (h : HQueue) (x : Next) (i : Instr), (∀ c ∈ entryClaims h x i, c.Holds i) ∧
    ∀ typ q, entryTypes i = some (typ, q) → ∀ c ∈ entryEndClaims typ q h x, c.Holds i) ∧
  (∀ (q : BitVec 10) (h : HQueue) (x : Next), (∀ r v ok, (stepClaim q h x r v ok).Holds (.step q)) ∧ (stepUnmappedClaim q h x).Holds (.step q) ∧
    ∀ s : State, s.listMissing q.toNat x = true → s.serveOf q.toNat h ≠ some (.entry x)) ∧
  (∀ (q : BitVec 10) (n : Nat), (∀ h e, (waitHoldsClaim q n h e).Holds (.waitConditionHolds q n)) ∧
    ∀ l st, (entryDoneClaim q n l st).Holds (.entryCompletion q n)) ∧
  (∀ (s : State) (q n : Nat) (h : HQueue) (st : Status), s.hq q = some h → s.EntryEnded (s.completeEntry q n st) q n h st)

/-- 14_queue R283 to R285, 15_kernel R289 to R298, 16_group R299 to R303, 20_barrier R316, R317: which queue is served; a launch is triggered
and placed; a group is pre-empted, hangs or completes; calendar instances and barrier releases.
Completes: barrierReleaseTick, calendarReservation, calendarStart, combinerCompletion, hangDetected, kernelTriggerMet, placementComplete,
preemption, serviceOpportunity. -/
def Obligations.LaunchAndGroupEvents : Prop :=
  (∀ (s : State) (q : Nat) (h : HQueue) (w : Serve), s.pick = some (q, h, w) → s.Picked q h w) ∧
  (∀ u q h w, (serviceClaim u q h w).Holds .serviceOpportunity) ∧ idleServiceClaim.Holds .serviceOpportunity ∧
  (∀ n l, (triggerClaim n l).Holds (.kernelTriggerMet n)) ∧
  (∀ n k l, (∀ x, (placedClaim n k l x).Holds (.placementComplete n k)) ∧ ∀ v, (imagesAskClaim n k l v).Holds (.placementComplete n k)) ∧
  (∀ (g : Group) (l : Launch) (x : Images), l.kd.argw ≤ 8 → g.Loaded (g.load l x) l x) ∧
  preemptClaim.Holds .preemption ∧ preemptOffClaim.Holds .preemption ∧ (∀ n, (hangClaim n).Holds .hangDetected) ∧
  combinerClaim.Holds .combinerCompletion ∧
  (∀ (k t : BitVec 64), (∀ e es r, (∀ st, (calendarDropClaim k t e es r st).Holds (.calendarReservation k t)) ∧
    ∀ u l, (calendarClaim k t e es r u l).Holds (.calendarReservation k t)) ∧ ∀ l, (calendarStartClaim k t l).Holds (.calendarStart k t)) ∧
  (∀ ctx n b x, (releaseTickClaim ctx n b x).Holds (.barrierReleaseTick ctx n))

/-! ## Events of links, pages, time and traces -/

/-- 21_link R321 to R327, R332, R333, 12_model_far R249 to R252: ports train and fail, flits and datagrams come, packets are performed at
their home, answered again or relayed, forwarded accesses are sent again or fail, queue pairs connect and close.
Completes: atreq, atrsp, ctrl, datagramReceive, ethResendTimeout, fack, fenceDrainTimeout, fire, flitReceive, forwardFailure,
forwardResend, homeRecordExpiry, laneFailure, portTrained, qpClosed, qpConnectRetry, rdreq, rdrsp, trainingRetry, trainingTimeout, wrack,
wrreq. -/
def Obligations.LinkEvents : Prop :=
  (∀ (p : Port) (i : Instr) (c : EventClaim), portRow p i = some c → c.Holds i) ∧
  (∀ (n : Nat) (q k : BitVec 12) (again : Option (BitVec 12)) (f : BitVec 512) (p x : Port),
    (flitPartClaim n q k again f p x).Holds (.flitReceive n q true ⟨k, again⟩ f) ∧
    (flitWholeClaim n q k again f p x).Holds (.flitReceive n q true ⟨k, again⟩ f) ∧
    (flitGapClaim n q k again p x).Holds (.flitReceive n q true ⟨k, again⟩ f) ∧
    (flitAckClaim n k again p).Holds (.flitReceive n q true ⟨k, again⟩ f) ∧
    ∀ ok, ∀ c ∈ flitDropClaims n ok p, c.Holds (.flitReceive n q ok ⟨k, again⟩ f)) ∧
  (∀ (n : Nat) (tr : BitVec 256) (h : BitVec 512) (b : List Byte) (q : QPair), ∀ c ∈ datagramClaims n tr h b q,
    c.Holds (.datagramReceive n tr h b)) ∧
  (∀ (i : Instr) (kind : Nat) (h : BitVec 512) (b : List Byte) (act : State → Packet → State), packetRow i = some (kind, h, b, act) →
    (∀ c ∈ packetClaims kind h b act, c.Holds i) ∧
    ∀ pk r, (kind = 1 ∨ kind = 3 ∨ kind = 4) → (againClaim kind h b pk r).Holds i) ∧
  (∀ (h : BitVec 512) (b : List Byte) (pk : Packet), (rdreqClaim h b pk).Holds (.rdreq h b) ∧ (wrreqClaim h b pk).Holds (.wrreq h b) ∧
    (atreqClaim h b pk).Holds (.atreq h b) ∧ ∀ q x f, (fackClaim h b pk q x f).Holds (.fack h b)) ∧
  (∀ (tag : BitVec 32) (f : Fwd), (forwardResendClaim tag f).Holds (.forwardResend tag) ∧
    (forwardFailureClaim tag f).Holds (.forwardFailure tag)) ∧
  (∀ m tag, (homeExpiryClaim m tag).Holds (.homeRecordExpiry m tag)) ∧
  (∀ (n : BitVec 12) (q : QPair), (connectRetryClaim n q).Holds (.qpConnectRetry n) ∧ (qpClosedClaim n q).Holds (.qpClosed n) ∧
    (ethResendClaim n q).Holds (.ethResendTimeout n))

/-- 21_link R334, R335, 23_page R343 to R350, 10_system R233, 25_trace_replay R363, R364, R366: pod time is sent, received and lost;
pages move, are duplicated, leased and swapped; access counts, trace records and corrected errors are written.
Completes: accWriteback, duplicateCopyDone, eccAggregate, holdoverEntry, leaseDeadline, messidorDrain, migrationCopyDone, slewEnd,
swapExchangeComplete, time, timePacketSend. -/
def Obligations.TimePageAndTraceEvents : Prop :=
  timeSendClaim.Holds .timePacketSend ∧ holdoverClaim.Holds .holdoverEntry ∧ slewEndClaim.Holds .slewEnd ∧
  (∀ h b, (∀ pk, (timeClaim h b pk).Holds (.time h b)) ∧ (timeIdleClaim h b).Holds (.time h b) ∧ (malformedClaim h b).Holds (.time h b)) ∧
  (∀ (c : BitVec 52) (o : PageOp) (e : PEntry), (migrateDoneClaim c o e).Holds (.migrationCopyDone c) ∧
    (migrateAskClaim c o e).Holds (.migrationCopyDone c) ∧ (duplicateDoneClaim c o e).Holds (.duplicateCopyDone c) ∧
    (duplicateAskClaim c o e).Holds (.duplicateCopyDone c)) ∧
  (∀ (ctx : BitVec 8) (va : BitVec 64), (∀ l, (lenderDeadlineClaim ctx va l).Holds (.leaseDeadline ctx va)) ∧
    ∀ b x, (borrowerDeadlineClaim ctx va b x).Holds (.leaseDeadline ctx va)) ∧
  (∀ ctx e k x, (accWritebackClaim ctx e k x).Holds (.accWriteback ctx e)) ∧
  (∀ x ea eb, (swapDoneClaim x ea eb).Holds .swapExchangeComplete) ∧
  messidorClaim.Holds .messidorDrain ∧
  (∀ (s : State) (n : Nat) (c : Context) (k : Option Nat) (r : TraceRec), s.ctx n = some c → s.me.ident.ctx ≠ n → c.sources = [⟨k, [r], 0⟩] →
    paModule c.root.trbase = s.boot.modnum → s.pages.borrowed = [] → 24 ≤ c.root.trlog →
    paLocal c.root.trbase + 2 ^ c.root.trlog ≤ bellBase → r.typ ≠ 3 →
    (ringOf (s.hbmBytes (paLocal c.root.trbase) 64)).full c.root = false →
    s.Drained1 (s.drainOwn n c) c.root r (ringOf (s.hbmBytes (paLocal c.root.trbase) 64))) ∧
  (∀ ctx, (eccClaim ctx).Holds (.eccAggregate ctx))

/-! ## The platform -/

/-- 26_platform R368 to R373, R375 to R377: reset, boot and RECOVERY, the rollback counter, the host's memory accesses and register writes,
power and temperature.
Completes: bar0RegisterWrite, bootStage, coldReset, hostMemoryAccess, pcapWrite, reset, rollbackRaise, thermalTrip, throttleEnd,
throttleStart. -/
def Obligations.PlatformEvents : Prop :=
  (∀ s : State, s.Rebooted s.rebooted) ∧ (∀ (i : Instr) (c : EventClaim), (resetRow i = some c ∨ powerRow i = some c) → c.Holds i) ∧
  (∀ s : State, s.power.tripped = true → exec .reset s = .next s) ∧
  (∀ h b, (bootClaim h b).Holds (.bootStage h b) ∧ (recoveryClaim h b).Holds (.bootStage h b)) ∧
  rollbackClaim.Holds (.rollbackRaise true) ∧ (∀ s : State, exec (.rollbackRaise false) s = .next s) ∧
  (∀ w a d, (hostAccessClaim w a d).Holds (.hostMemoryAccess w a d)) ∧
  (∀ off v, (∀ c ∈ registerClaims off v, c.Holds (.bar0RegisterWrite off v)) ∧ ∀ b, (ringClaim off v b).Holds (.bar0RegisterWrite off v)) ∧
  (∀ w, (pcapClaim w).Holds (.pcapWrite w)) ∧ (∀ c, (tripClaim c).Holds (.thermalTrip c))

/-- 26_platform R374, R375, R378, R379: SPDM answers and management reads; their layouts are those of SPDM 1.3 (log entry 39).
Completes: challenge, getCapabilities, getCertificate, getDigests, getMeasurements, getVersion, mgmtRead, negotiateAlgorithms,
unsupportedRequest. -/
def Obligations.AttestationAndManagement : Prop :=
  (∀ (i : Instr) (code : Nat) (f : State → List Byte → Prop), spdmRow i = some (code, f) → (spdmClaim code f).Holds i) ∧
  (∀ n, (challengeClaim n).Holds (.challenge n)) ∧
  (∀ n, (∀ d, (measureClaim n d).Holds (.getMeasurements n)) ∧ ∀ c ∈ measureOtherClaims n, c.Holds (.getMeasurements n)) ∧
  measureCountClaim.Holds (.getMeasurements 0) ∧
  (∀ item, (∀ a, mgmtRow item = some a → (mgmtClaim item a).Holds (.mgmtRead item)) ∧ ∀ c ∈ mgmtOtherClaims item, c.Holds (.mgmtRead item))
end

