-- ==== Sys2Proof/Laws/Fetch.lean ====
section
/-! SUPPORT. The computable table of Machine/Fetch.lean is the decoder followed by `exec` (04_encoding R65 to R70). -/

namespace Sys2Proof.Machine

/-- What an engine does with what the decoder finds: it runs the item, or traps with the cause of R70. -/
def runDecoded (e : Engine) (d : Decoded) (s : State) : Out :=
  match d with
  | .ok i => exec i s
  | .illegal => trapItem e causeIllegal s
  | .reserved => trapItem e causeReserved s
  | .header len => trapHeader e len s

theorem runDecoded_row (e : Engine) (z : Bool) (i : Instr) (s : State) :
    runDecoded e (rowOf z i) s = if z then exec i s else trapItem e causeReserved s := by
  unfold rowOf; cases z <;> rfl

theorem runDecoded_ite (e : Engine) (c : Prop) [Decidable c] (a b : Decoded) (s : State) :
    runDecoded e (if c then a else b) s = if c then runDecoded e a s else runDecoded e b s := by
  split <;> rfl

theorem runSys_eq (e : Engine) (w : Nat) (s : State) : runSys e w s = runDecoded e (decodeSys w) s := by
  unfold runSys decodeSys
  have hy : fld w 0 5 < 32 := Nat.mod_lt _ (by decide)
  generalize fld w 0 5 = y at *
  interval_cases y
  · rfl
  · exact (runDecoded_row e (fld w 5 5 == 0) (.trap (bvf w 20 2) (bvf w 15 5) (bvf w 10 5)) s).symm
  · exact (runDecoded_row e (fld w 5 10 == 0) (.rft (bvf w 20 2) (bvf w 15 5)) s).symm
  · exact (runDecoded_row e (fld w 5 10 == 0) (.brk (bvf w 20 2) (bvf w 15 5)) s).symm
  · exact (runDecoded_row e (fld w 15 5 == 0) (.thset (bvf w 20 2) (bvf w 10 5) (bvf w 5 5)) s).symm
  · exact (runDecoded_row e (fld w 5 15 == 0) (.engclaim (bvf w 20 2)) s).symm
  · exact (runDecoded_row e (fld w 5 15 == 0) (.engrel (bvf w 20 2)) s).symm
  · exact (runDecoded_row e (fld w 5 5 == 0 && fld w 15 5 == 0) (.timealign (bvf w 20 2) (bvf w 10 5)) s).symm
  · exact (runDecoded_row e (fld w 5 5 == 0 && fld w 18 2 == 0) (.erd (bvf w 20 2) (bvf w 15 3) (bvf w 10 5)) s).symm
  · exact (runDecoded_row e (fld w 5 5 == 0 && fld w 13 2 == 0 && fld w 18 2 == 0) (.emov (bvf w 20 2) (bvf w 15 3) (bvf w 10 3)) s).symm
  · exact (runDecoded_row e (fld w 14 1 == 0 && fld w 18 2 == 0) (.estore (bvf w 20 2) (bvf w 15 3) (bvf w 10 4) (bvf w 5 5)) s).symm
  · exact (runDecoded_row e (fld w 5 5 == 0) (.trace (bvf w 20 2) (bvf w 15 5) (bvf w 10 5)) s).symm
  · exact (runDecoded_row e (fld w 5 15 == 0) (.yield (bvf w 20 2)) s).symm
  · exact (runDecoded_row e (fld w 5 15 == 0) (.halt (bvf w 20 2)) s).symm
  · exact (runDecoded_row e (fld w 15 5 == 0) (.iinv (bvf w 20 2) (bvf w 10 5) (bvf w 5 5)) s).symm
  · exact (runDecoded_row e (fld w 5 5 == 0) (.calset (bvf w 20 2) (bvf w 15 5) (bvf w 10 5)) s).symm
  · exact (runDecoded_row e (fld w 5 5 == 0) (.xswap (bvf w 20 2) (bvf w 15 5) (bvf w 10 5)) s).symm
  · rfl
  · rfl
  · rfl
  · rfl
  · rfl
  · rfl
  · rfl
  · rfl
  · rfl
  · rfl
  · rfl
  · rfl
  · rfl
  · rfl
  · rfl

theorem runC_eq (e : Engine) (w : Nat) (s : State) : runC e w s = runDecoded e (decodeC w) s := by
  unfold runC decodeC
  have hx : fld w 22 7 < 128 := Nat.mod_lt _ (by decide)
  generalize fld w 22 7 = x at *
  interval_cases x
  · rfl
  · exact (runDecoded_row e (fld w 0 20 == 0) (.nopC (bvf w 20 2)) s).symm
  · exact (runDecoded_row e (fld w 0 5 == 0) (.add (bvf w 20 2) (bvf w 15 5) (bvf w 10 5) (bvf w 5 5)) s).symm
  · exact (runDecoded_row e (fld w 0 5 == 0) (.sub (bvf w 20 2) (bvf w 15 5) (bvf w 10 5) (bvf w 5 5)) s).symm
  · exact (runDecoded_row e (fld w 0 5 == 0) (.mul (bvf w 20 2) (bvf w 15 5) (bvf w 10 5) (bvf w 5 5)) s).symm
  · exact (runDecoded_row e (fld w 0 5 == 0) (.mulh (bvf w 20 2) (bvf w 15 5) (bvf w 10 5) (bvf w 5 5)) s).symm
  · exact (runDecoded_row e (fld w 0 5 == 0) (.mulhn (bvf w 20 2) (bvf w 15 5) (bvf w 10 5) (bvf w 5 5)) s).symm
  · exact (runDecoded_row e (fld w 0 5 == 0) (.div (bvf w 20 2) (bvf w 15 5) (bvf w 10 5) (bvf w 5 5)) s).symm
  · exact (runDecoded_row e (fld w 0 5 == 0) (.divn (bvf w 20 2) (bvf w 15 5) (bvf w 10 5) (bvf w 5 5)) s).symm
  · exact (runDecoded_row e (fld w 0 5 == 0) (.rem (bvf w 20 2) (bvf w 15 5) (bvf w 10 5) (bvf w 5 5)) s).symm
  · exact (runDecoded_row e (fld w 0 5 == 0) (.remn (bvf w 20 2) (bvf w 15 5) (bvf w 10 5) (bvf w 5 5)) s).symm
  · exact (runDecoded_row e (fld w 0 5 == 0) (.and (bvf w 20 2) (bvf w 15 5) (bvf w 10 5) (bvf w 5 5)) s).symm
  · exact (runDecoded_row e (fld w 0 5 == 0) (.or (bvf w 20 2) (bvf w 15 5) (bvf w 10 5) (bvf w 5 5)) s).symm
  · exact (runDecoded_row e (fld w 0 5 == 0) (.xor (bvf w 20 2) (bvf w 15 5) (bvf w 10 5) (bvf w 5 5)) s).symm
  · exact (runDecoded_row e (fld w 0 5 == 0) (.shl (bvf w 20 2) (bvf w 15 5) (bvf w 10 5) (bvf w 5 5)) s).symm
  · exact (runDecoded_row e (fld w 0 5 == 0) (.shr (bvf w 20 2) (bvf w 15 5) (bvf w 10 5) (bvf w 5 5)) s).symm
  · exact (runDecoded_row e (fld w 0 5 == 0) (.sar (bvf w 20 2) (bvf w 15 5) (bvf w 10 5) (bvf w 5 5)) s).symm
  · exact (runDecoded_row e (fld w 0 5 == 0) (.slt (bvf w 20 2) (bvf w 15 5) (bvf w 10 5) (bvf w 5 5)) s).symm
  · exact (runDecoded_row e (fld w 0 5 == 0) (.sltn (bvf w 20 2) (bvf w 15 5) (bvf w 10 5) (bvf w 5 5)) s).symm
  · exact (runDecoded_row e (fld w 0 5 == 0) (.min (bvf w 20 2) (bvf w 15 5) (bvf w 10 5) (bvf w 5 5)) s).symm
  · exact (runDecoded_row e (fld w 0 5 == 0) (.max (bvf w 20 2) (bvf w 15 5) (bvf w 10 5) (bvf w 5 5)) s).symm
  · exact (runDecoded_row e (fld w 0 5 == 0) (.minn (bvf w 20 2) (bvf w 15 5) (bvf w 10 5) (bvf w 5 5)) s).symm
  · exact (runDecoded_row e (fld w 0 5 == 0) (.maxn (bvf w 20 2) (bvf w 15 5) (bvf w 10 5) (bvf w 5 5)) s).symm
  · rfl
  · exact (runDecoded_row e (fld w 3 2 == 0) (.sel (bvf w 20 2) (bvf w 15 5) (bvf w 10 5) (bvf w 5 5) (bvf w 0 3)) s).symm
  · rfl
  · rfl
  · rfl
  · rfl
  · exact (runDecoded_row e (fld w 6 4 == 0) (.shli (bvf w 20 2) (bvf w 15 5) (bvf w 10 5) (bvf w 0 6)) s).symm
  · exact (runDecoded_row e (fld w 6 4 == 0) (.shri (bvf w 20 2) (bvf w 15 5) (bvf w 10 5) (bvf w 0 6)) s).symm
  · exact (runDecoded_row e (fld w 6 4 == 0) (.sari (bvf w 20 2) (bvf w 15 5) (bvf w 10 5) (bvf w 0 6)) s).symm
  · rfl
  · rfl
  · rfl
  · exact (runDecoded_row e (fld w 0 10 == 0) (.clz (bvf w 20 2) (bvf w 15 5) (bvf w 10 5)) s).symm
  · exact (runDecoded_row e (fld w 0 10 == 0) (.ctz (bvf w 20 2) (bvf w 15 5) (bvf w 10 5)) s).symm
  · exact (runDecoded_row e (fld w 0 10 == 0) (.popc (bvf w 20 2) (bvf w 15 5) (bvf w 10 5)) s).symm
  · rfl
  · exact (runDecoded_row e (fld w 3 2 == 0 && fld w 18 2 == 0) (.cmpCc (bvf w 20 2) (bvf w 15 3) (bvf w 10 5) (bvf w 5 5) (bvf w 0 3)) s).symm
  · exact (runDecoded_row e (fld w 18 2 == 0) (.cmpiCc (bvf w 22 3) (bvf w 20 2) (bvf w 15 3) (bvf w 10 5) (bvf w 0 10)) s).symm
  · exact (runDecoded_row e (fld w 18 2 == 0) (.cmpiCc (bvf w 22 3) (bvf w 20 2) (bvf w 15 3) (bvf w 10 5) (bvf w 0 10)) s).symm
  · exact (runDecoded_row e (fld w 18 2 == 0) (.cmpiCc (bvf w 22 3) (bvf w 20 2) (bvf w 15 3) (bvf w 10 5) (bvf w 0 10)) s).symm
  · exact (runDecoded_row e (fld w 18 2 == 0) (.cmpiCc (bvf w 22 3) (bvf w 20 2) (bvf w 15 3) (bvf w 10 5) (bvf w 0 10)) s).symm
  · exact (runDecoded_row e (fld w 18 2 == 0) (.cmpiCc (bvf w 22 3) (bvf w 20 2) (bvf w 15 3) (bvf w 10 5) (bvf w 0 10)) s).symm
  · exact (runDecoded_row e (fld w 18 2 == 0) (.cmpiCc (bvf w 22 3) (bvf w 20 2) (bvf w 15 3) (bvf w 10 5) (bvf w 0 10)) s).symm
  · rfl
  · rfl
  · rfl
  · rfl
  · rfl
  · rfl
  · rfl
  · rfl
  · rfl
  · rfl
  · rfl
  · rfl
  · rfl
  · rfl
  · rfl
  · rfl
  · exact (runDecoded_row e (fld w 0 20 == 0) (.ret (bvf w 20 2)) s).symm
  · exact (runDecoded_row e (fld w 0 15 == 0) (.jr (bvf w 20 2) (bvf w 15 5)) s).symm
  · exact (runDecoded_row e (fld w 0 10 == 0 && fld w 19 1 == 0) (.qpush (bvf w 20 2) (bvf w 15 4) (bvf w 10 5)) s).symm
  · exact (runDecoded_row e (fld w 0 10 == 0 && fld w 14 1 == 0) (.qpop (bvf w 20 2) (bvf w 15 5) (bvf w 10 4)) s).symm
  · exact (runDecoded_row e (fld w 0 10 == 0 && fld w 14 1 == 0) (.qpeek (bvf w 20 2) (bvf w 15 5) (bvf w 10 4)) s).symm
  · exact (runDecoded_row e (fld w 10 5 == 0 && fld w 19 1 == 0) (.qbind (bvf w 20 2) (bvf w 15 4) (bvf w 5 5) (bvf w 0 5)) s).symm
  · rfl
  · rfl
  · exact (runDecoded_row e (fld w 0 10 == 0 && fld w 19 1 == 0) (.xlate (bvf w 20 2) (bvf w 15 4) (bvf w 10 5)) s).symm
  · exact (runDecoded_row e (fld w 0 15 == 0 && fld w 19 1 == 0) (.hdrop (bvf w 20 2) (bvf w 15 4)) s).symm
  · exact (runDecoded_row e (fld w 0 10 == 0 && fld w 14 1 == 0) (.hchk (bvf w 20 2) (bvf w 15 5) (bvf w 10 4)) s).symm
  · exact (runDecoded_row e (fld w 0 10 == 0) (.sealPages (bvf w 20 2) (bvf w 15 5) (bvf w 10 5)) s).symm
  · exact (runDecoded_row e (fld w 0 10 == 0) (.unsealPages (bvf w 20 2) (bvf w 15 5) (bvf w 10 5)) s).symm
  · exact (runDecoded_row e (fld w 15 5 == 0) (.bind (bvf w 20 2) (bvf w 10 5) (bvf w 0 10)) s).symm
  · exact (runDecoded_row e (fld w 10 10 == 0) (.unbind (bvf w 20 2) (bvf w 0 10)) s).symm
  · exact (runDecoded_row e (fld w 4 11 == 0) (.acq (bvf w 20 2) (bvf w 15 5) (bvf w 1 3) (bvf w 0 1)) s).symm
  · exact (runDecoded_row e (fld w 0 15 == 0) (.rel (bvf w 20 2) (bvf w 15 5)) s).symm
  · exact (runDecoded_row e (fld w 3 17 == 0) (.fence (bvf w 20 2) (bvf w 0 3)) s).symm
  · exact (runDecoded_row e (fld w 0 10 == 0) (.tlook (bvf w 20 2) (bvf w 15 5) (bvf w 10 5)) s).symm
  · exact (runDecoded_row e (fld w 3 2 == 0) (.tset (bvf w 20 2) (bvf w 15 5) (bvf w 10 5) (bvf w 5 5) (bvf w 0 3)) s).symm
  · exact (runDecoded_row e (fld w 1 14 == 0) (.tclr (bvf w 20 2) (bvf w 15 5) (bvf w 0 1)) s).symm
  · exact (runDecoded_row e (fld w 0 3 == 0) (.aadd (bvf w 20 2) (bvf w 15 5) (bvf w 10 5) (bvf w 9 1) (bvf w 7 2) (bvf w 4 3) (bvf w 3 1)) s).symm
  · exact (runDecoded_row e (fld w 0 4 == 0) (.axchg (bvf w 20 2) (bvf w 15 5) (bvf w 10 5) (bvf w 9 1) (bvf w 7 2) (bvf w 4 3)) s).symm
  · exact (runDecoded_row e (fld w 0 4 == 0) (.acas (bvf w 20 2) (bvf w 15 5) (bvf w 10 5) (bvf w 9 1) (bvf w 7 2) (bvf w 4 3)) s).symm
  · exact (runDecoded_row e (fld w 0 4 == 0) (.amin (bvf w 20 2) (bvf w 15 5) (bvf w 10 5) (bvf w 9 1) (bvf w 7 2) (bvf w 4 3)) s).symm
  · exact (runDecoded_row e (fld w 0 4 == 0) (.amax (bvf w 20 2) (bvf w 15 5) (bvf w 10 5) (bvf w 9 1) (bvf w 7 2) (bvf w 4 3)) s).symm
  · exact (runDecoded_row e (fld w 0 4 == 0) (.aand (bvf w 20 2) (bvf w 15 5) (bvf w 10 5) (bvf w 9 1) (bvf w 7 2) (bvf w 4 3)) s).symm
  · exact (runDecoded_row e (fld w 0 4 == 0) (.aor (bvf w 20 2) (bvf w 15 5) (bvf w 10 5) (bvf w 9 1) (bvf w 7 2) (bvf w 4 3)) s).symm
  · exact (runDecoded_row e (fld w 0 4 == 0) (.axor (bvf w 20 2) (bvf w 15 5) (bvf w 10 5) (bvf w 9 1) (bvf w 7 2) (bvf w 4 3)) s).symm
  · exact (runDecoded_row e (fld w 0 4 == 0) (.aincw (bvf w 20 2) (bvf w 15 5) (bvf w 10 5) (bvf w 9 1) (bvf w 7 2) (bvf w 4 3)) s).symm
  · exact (runDecoded_row e (fld w 3 1 == 0) (.afaddb (bvf w 20 2) (bvf w 15 5) (bvf w 10 5) (bvf w 9 1) (bvf w 7 2) (bvf w 4 3) (bvf w 0 3)) s).symm
  · refine Eq.trans ?_ (runDecoded_ite e ((fld w 9 1 == 1 && (fld w 0 7 == 0)) = true) .illegal (rowOf (fld w 0 7 == 0 && fld w 9 1 == 0) (.ared (bvf w 20 2) (bvf w 15 5) (bvf w 10 5) (bvf w 7 2))) s).symm
    rw [runDecoded_row]; rfl
  · exact (runDecoded_row e (fld w 0 20 == 0) (.atclose (bvf w 20 2)) s).symm
  · exact (runDecoded_row e (fld w 0 8 == 0) (.fset (bvf w 20 2) (bvf w 8 12)) s).symm
  · exact (runDecoded_row e (fld w 0 8 == 0) (.fclr (bvf w 20 2) (bvf w 8 12)) s).symm
  · exact (runDecoded_row e (fld w 3 5 == 0) (.fwait (bvf w 20 2) (bvf w 8 12) (bvf w 0 3)) s).symm
  · exact (runDecoded_row e (fld w 3 5 == 0) (.ftest (bvf w 20 2) (bvf w 8 12) (bvf w 0 3)) s).symm
  · exact (runDecoded_row e (fld w 0 3 == 0) (.barjoin (bvf w 20 2) (bvf w 8 12) (bvf w 3 5)) s).symm
  · exact (runDecoded_row e (fld w 3 5 == 0) (.barwait (bvf w 20 2) (bvf w 8 12) (bvf w 0 3)) s).symm
  · exact (runDecoded_row e (fld w 0 3 == 0 && fld w 8 12 == 0) (.jobx (bvf w 20 2) (bvf w 3 5)) s).symm
  · exact (runDecoded_row e (fld w 18 2 == 0) (.hfold (bvf w 20 2) (bvf w 14 4) (bvf w 8 6) (bvf w 3 5) (bvf w 0 3)) s).symm
  · exact (runDecoded_row e (fld w 18 2 == 0) (.hscan (bvf w 20 2) (bvf w 14 4) (bvf w 8 6) (bvf w 3 5) (bvf w 0 3)) s).symm
  · exact (runDecoded_row e (fld w 18 2 == 0) (.hzip (bvf w 20 2) (bvf w 14 4) (bvf w 8 6) (bvf w 3 5) (bvf w 0 3)) s).symm
  · exact (runDecoded_row e (fld w 18 2 == 0) (.houter (bvf w 20 2) (bvf w 14 4) (bvf w 8 6) (bvf w 3 5) (bvf w 0 3)) s).symm
  · exact (runDecoded_row e (fld w 0 3 == 0 && fld w 14 6 == 0) (.rdef (bvf w 20 2) (bvf w 8 6) (bvf w 3 5)) s).symm
  · exact (runDecoded_row e (fld w 0 8 == 0 && fld w 14 6 == 0) (.rdrop (bvf w 20 2) (bvf w 8 6)) s).symm
  · exact (runDecoded_row e (fld w 0 3 == 0 && fld w 8 12 == 0) (.wqpost (bvf w 20 2) (bvf w 3 5)) s).symm
  · exact (runDecoded_row e (fld w 0 3 == 0) (.wqarm (bvf w 20 2) (bvf w 8 12) (bvf w 3 5)) s).symm
  · exact (runDecoded_row e (fld w 0 8 == 0) (.wqcancel (bvf w 20 2) (bvf w 8 12)) s).symm
  · exact (runDecoded_row e (fld w 0 3 == 0) (.wqstat (bvf w 20 2) (bvf w 8 12) (bvf w 3 5)) s).symm
  · exact (runDecoded_row e (fld w 0 3 == 0) (.cntset (bvf w 20 2) (bvf w 8 12) (bvf w 3 5)) s).symm
  · exact (runDecoded_row e (fld w 0 2 == 0) (.cntadd (bvf w 20 2) (bvf w 8 12) (bvf w 3 5) (bvf w 2 1)) s).symm
  · exact (runDecoded_row e (fld w 0 3 == 0) (.cntwait (bvf w 20 2) (bvf w 8 12) (bvf w 3 5)) s).symm
  · exact (runDecoded_row e (fld w 0 3 == 0) (.cntread (bvf w 20 2) (bvf w 8 12) (bvf w 3 5)) s).symm
  · exact (runDecoded_row e (fld w 0 3 == 0 && fld w 12 8 == 0) (.gencfg (bvf w 20 2) (bvf w 8 4) (bvf w 3 5)) s).symm
  · exact (runDecoded_row e (fld w 0 8 == 0 && fld w 12 8 == 0) (.geninv (bvf w 20 2) (bvf w 8 4)) s).symm
  · exact (runDecoded_row e (fld w 10 5 == 0) (.gsr (bvf w 20 2) (bvf w 15 5) (bvf w 0 10)) s).symm
  · exact (runDecoded_row e (fld w 15 5 == 0) (.ssr (bvf w 20 2) (bvf w 10 5) (bvf w 0 10)) s).symm
  · rfl
  · rfl
  · rfl
  · rfl
  · rfl
  · rfl
  · rfl
  · exact runSys_eq e w s

theorem runL_eq (e : Engine) (w : Nat) (s : State) : runL e w s = runDecoded e (decodeL w) s := by
  unfold runL decodeL
  have hx : fld w 22 7 < 128 := Nat.mod_lt _ (by decide)
  generalize fld w 22 7 = x at *
  interval_cases x
  · rfl
  · exact (runDecoded_row e (fld w 0 20 == 0) (.nopL (bvf w 20 2)) s).symm
  · refine Eq.trans ?_ (runDecoded_ite e ((fld w 9 1 == 1 && (fld w 4 5 == 0 && fld w 19 1 == 0)) = true) .illegal (rowOf (fld w 4 6 == 0 && fld w 19 1 == 0) (.zbind (bvf w 20 2) (bvf w 15 4) (bvf w 10 5) (bvf w 0 4))) s).symm
    rw [runDecoded_row]; rfl
  · exact (runDecoded_row e (fld w 0 15 == 0 && fld w 19 1 == 0) (.zstart (bvf w 20 2) (bvf w 15 4)) s).symm
  · exact (runDecoded_row e (fld w 0 15 == 0 && fld w 19 1 == 0) (.zstop (bvf w 20 2) (bvf w 15 4)) s).symm
  · exact (runDecoded_row e (fld w 10 5 == 0 && fld w 19 1 == 0) (.zskip (bvf w 20 2) (bvf w 15 4) (bvf w 0 10)) s).symm
  · exact (runDecoded_row e (fld w 9 1 == 0 && fld w 19 1 == 0) (.ldv (bvf w 20 2) (bvf w 15 4) (bvf w 10 5) (bvf w 0 9)) s).symm
  · rfl
  · rfl
  · rfl
  · rfl
  · rfl
  · rfl
  · rfl
  · rfl
  · rfl
  · rfl
  · rfl
  · rfl
  · rfl
  · rfl
  · rfl
  · rfl
  · rfl
  · rfl
  · rfl
  · rfl
  · rfl
  · rfl
  · rfl
  · rfl
  · rfl
  · rfl
  · rfl
  · rfl
  · rfl
  · rfl
  · rfl
  · rfl
  · rfl
  · rfl
  · rfl
  · rfl
  · rfl
  · rfl
  · rfl
  · rfl
  · rfl
  · rfl
  · rfl
  · rfl
  · rfl
  · rfl
  · rfl
  · rfl
  · rfl
  · rfl
  · rfl
  · rfl
  · rfl
  · rfl
  · rfl
  · rfl
  · rfl
  · rfl
  · rfl
  · rfl
  · rfl
  · rfl
  · rfl
  · rfl
  · rfl
  · rfl
  · rfl
  · rfl
  · rfl
  · rfl
  · rfl
  · rfl
  · rfl
  · rfl
  · rfl
  · rfl
  · rfl
  · rfl
  · rfl
  · rfl
  · rfl
  · rfl
  · rfl
  · rfl
  · rfl
  · rfl
  · rfl
  · rfl
  · rfl
  · rfl
  · rfl
  · rfl
  · rfl
  · rfl
  · rfl
  · rfl
  · rfl
  · rfl
  · rfl
  · rfl
  · rfl
  · rfl
  · rfl
  · rfl
  · rfl
  · rfl
  · rfl
  · rfl
  · rfl
  · rfl
  · rfl
  · rfl
  · rfl
  · rfl
  · rfl
  · rfl
  · rfl
  · rfl
  · rfl
  · rfl
  · rfl

theorem runV_eq (e : Engine) (w : Nat) (s : State) : runV e w s = runDecoded e (decodeV w) s := by
  unfold runV decodeV
  have hx : fld w 22 7 < 128 := Nat.mod_lt _ (by decide)
  generalize fld w 22 7 = x at *
  interval_cases x
  · rfl
  · exact (runDecoded_row e (fld w 0 20 == 0) (.nopV (bvf w 20 2)) s).symm
  · rfl
  · rfl
  · rfl
  · rfl
  · rfl
  · rfl
  · exact (runDecoded_row e (fld w 0 1 == 0) (.vfma (bvf w 20 2) (bvf w 15 5) (bvf w 10 5) (bvf w 5 5) (bvf w 1 4)) s).symm
  · exact (runDecoded_row e (fld w 0 1 == 0) (.vfmaZq (bvf w 20 2) (bvf w 15 5) (bvf w 10 5) (bvf w 5 5) (bvf w 1 4)) s).symm
  · exact (runDecoded_row e (fld w 0 1 == 0) (.vmin (bvf w 20 2) (bvf w 15 5) (bvf w 10 5) (bvf w 5 5) (bvf w 1 4)) s).symm
  · exact (runDecoded_row e (fld w 0 1 == 0) (.vminZq (bvf w 20 2) (bvf w 15 5) (bvf w 10 5) (bvf w 5 5) (bvf w 1 4)) s).symm
  · exact (runDecoded_row e (fld w 0 1 == 0) (.vmax (bvf w 20 2) (bvf w 15 5) (bvf w 10 5) (bvf w 5 5) (bvf w 1 4)) s).symm
  · exact (runDecoded_row e (fld w 0 1 == 0) (.vmaxZq (bvf w 20 2) (bvf w 15 5) (bvf w 10 5) (bvf w 5 5) (bvf w 1 4)) s).symm
  · exact (runDecoded_row e (fld w 10 5 == 0) (.vabs (bvf w 20 2) (bvf w 15 5) (bvf w 5 5) (bvf w 1 4) (bvf w 0 1)) s).symm
  · exact (runDecoded_row e (fld w 10 5 == 0) (.vabsZq (bvf w 20 2) (bvf w 15 5) (bvf w 5 5) (bvf w 1 4) (bvf w 0 1)) s).symm
  · exact (runDecoded_row e (fld w 10 5 == 0) (.vneg (bvf w 20 2) (bvf w 15 5) (bvf w 5 5) (bvf w 1 4) (bvf w 0 1)) s).symm
  · exact (runDecoded_row e (fld w 10 5 == 0) (.vnegZq (bvf w 20 2) (bvf w 15 5) (bvf w 5 5) (bvf w 1 4) (bvf w 0 1)) s).symm
  · exact (runDecoded_row e (fld w 0 5 == 0) (.vand (bvf w 20 2) (bvf w 15 5) (bvf w 10 5) (bvf w 5 5)) s).symm
  · exact (runDecoded_row e (fld w 0 5 == 0) (.vandZq (bvf w 20 2) (bvf w 15 5) (bvf w 10 5) (bvf w 5 5)) s).symm
  · exact (runDecoded_row e (fld w 0 5 == 0) (.vor (bvf w 20 2) (bvf w 15 5) (bvf w 10 5) (bvf w 5 5)) s).symm
  · exact (runDecoded_row e (fld w 0 5 == 0) (.vorZq (bvf w 20 2) (bvf w 15 5) (bvf w 10 5) (bvf w 5 5)) s).symm
  · exact (runDecoded_row e (fld w 0 5 == 0) (.vxor (bvf w 20 2) (bvf w 15 5) (bvf w 10 5) (bvf w 5 5)) s).symm
  · exact (runDecoded_row e (fld w 0 5 == 0) (.vxorZq (bvf w 20 2) (bvf w 15 5) (bvf w 10 5) (bvf w 5 5)) s).symm
  · exact (runDecoded_row e (fld w 0 5 == 0 && fld w 10 5 == 0) (.vnot (bvf w 20 2) (bvf w 15 5) (bvf w 5 5)) s).symm
  · exact (runDecoded_row e (fld w 0 5 == 0 && fld w 10 5 == 0) (.vnotZq (bvf w 20 2) (bvf w 15 5) (bvf w 5 5)) s).symm
  · exact (runDecoded_row e (fld w 0 1 == 0) (.vshl (bvf w 20 2) (bvf w 15 5) (bvf w 10 5) (bvf w 5 5) (bvf w 1 4)) s).symm
  · exact (runDecoded_row e (fld w 0 1 == 0) (.vshlZq (bvf w 20 2) (bvf w 15 5) (bvf w 10 5) (bvf w 5 5) (bvf w 1 4)) s).symm
  · exact (runDecoded_row e (fld w 0 1 == 0) (.vshr (bvf w 20 2) (bvf w 15 5) (bvf w 10 5) (bvf w 5 5) (bvf w 1 4)) s).symm
  · exact (runDecoded_row e (fld w 0 1 == 0) (.vshrZq (bvf w 20 2) (bvf w 15 5) (bvf w 10 5) (bvf w 5 5) (bvf w 1 4)) s).symm
  · exact (runDecoded_row e (fld w 0 1 == 0) (.vsar (bvf w 20 2) (bvf w 15 5) (bvf w 10 5) (bvf w 5 5) (bvf w 1 4)) s).symm
  · exact (runDecoded_row e (fld w 0 1 == 0) (.vsarZq (bvf w 20 2) (bvf w 15 5) (bvf w 10 5) (bvf w 5 5) (bvf w 1 4)) s).symm
  · exact (runDecoded_row e (fld w 0 1 == 0 && fld w 4 1 == 0) (.vsel (bvf w 20 2) (bvf w 15 5) (bvf w 10 5) (bvf w 5 5) (bvf w 1 3)) s).symm
  · exact (runDecoded_row e (fld w 0 1 == 0 && fld w 4 1 == 0) (.vselZq (bvf w 20 2) (bvf w 15 5) (bvf w 10 5) (bvf w 5 5) (bvf w 1 3)) s).symm
  · rfl
  · rfl
  · exact (runDecoded_row e (fld w 0 1 == 0 && fld w 10 5 == 0) (.vclz (bvf w 20 2) (bvf w 15 5) (bvf w 5 5) (bvf w 1 4)) s).symm
  · exact (runDecoded_row e (fld w 0 1 == 0 && fld w 10 5 == 0) (.vclzZq (bvf w 20 2) (bvf w 15 5) (bvf w 5 5) (bvf w 1 4)) s).symm
  · exact (runDecoded_row e (fld w 0 1 == 0 && fld w 10 5 == 0) (.vpopc (bvf w 20 2) (bvf w 15 5) (bvf w 5 5) (bvf w 1 4)) s).symm
  · exact (runDecoded_row e (fld w 0 1 == 0 && fld w 10 5 == 0) (.vpopcZq (bvf w 20 2) (bvf w 15 5) (bvf w 5 5) (bvf w 1 4)) s).symm
  · exact (runDecoded_row e (fld w 1 4 == 0) (.vext (bvf w 20 2) (bvf w 15 5) (bvf w 10 5) (bvf w 5 5) (bvf w 0 1)) s).symm
  · exact (runDecoded_row e (fld w 1 4 == 0) (.vextZq (bvf w 20 2) (bvf w 15 5) (bvf w 10 5) (bvf w 5 5) (bvf w 0 1)) s).symm
  · exact (runDecoded_row e (fld w 0 5 == 0) (.vins (bvf w 20 2) (bvf w 15 5) (bvf w 10 5) (bvf w 5 5)) s).symm
  · exact (runDecoded_row e (fld w 0 5 == 0) (.vinsZq (bvf w 20 2) (bvf w 15 5) (bvf w 10 5) (bvf w 5 5)) s).symm
  · exact (runDecoded_row e (fld w 0 5 == 0) (.vfsh (bvf w 20 2) (bvf w 15 5) (bvf w 10 5) (bvf w 5 5)) s).symm
  · exact (runDecoded_row e (fld w 0 5 == 0) (.vfshZq (bvf w 20 2) (bvf w 15 5) (bvf w 10 5) (bvf w 5 5)) s).symm
  · exact (runDecoded_row e (fld w 0 5 == 0) (.vperm (bvf w 20 2) (bvf w 15 5) (bvf w 10 5) (bvf w 5 5)) s).symm
  · exact (runDecoded_row e (fld w 0 5 == 0) (.vpermZq (bvf w 20 2) (bvf w 15 5) (bvf w 10 5) (bvf w 5 5)) s).symm
  · exact (runDecoded_row e (fld w 0 5 == 0) (.vbcast (bvf w 20 2) (bvf w 15 5) (bvf w 10 5) (bvf w 5 5)) s).symm
  · exact (runDecoded_row e (fld w 0 5 == 0) (.vbcastZq (bvf w 20 2) (bvf w 15 5) (bvf w 10 5) (bvf w 5 5)) s).symm
  · exact (runDecoded_row e (fld w 0 5 == 0) (.vlsh (bvf w 20 2) (bvf w 15 5) (bvf w 10 5) (bvf w 5 5)) s).symm
  · exact (runDecoded_row e (fld w 0 5 == 0) (.vlshZq (bvf w 20 2) (bvf w 15 5) (bvf w 10 5) (bvf w 5 5)) s).symm
  · rfl
  · rfl
  · rfl
  · rfl
  · exact (runDecoded_row e (fld w 0 1 == 0) (.vgath (bvf w 20 2) (bvf w 15 5) (bvf w 10 5) (bvf w 5 5) (bvf w 1 4)) s).symm
  · exact (runDecoded_row e (fld w 0 1 == 0) (.vgathZq (bvf w 20 2) (bvf w 15 5) (bvf w 10 5) (bvf w 5 5) (bvf w 1 4)) s).symm
  · exact (runDecoded_row e (fld w 0 1 == 0) (.vscat (bvf w 20 2) (bvf w 15 5) (bvf w 10 5) (bvf w 5 5) (bvf w 1 4)) s).symm
  · exact (runDecoded_row e (fld w 0 1 == 0) (.vscatZq (bvf w 20 2) (bvf w 15 5) (bvf w 10 5) (bvf w 5 5) (bvf w 1 4)) s).symm
  · exact (runDecoded_row e (fld w 0 1 == 0) (.vlut (bvf w 20 2) (bvf w 15 5) (bvf w 10 5) (bvf w 5 5) (bvf w 1 4)) s).symm
  · exact (runDecoded_row e (fld w 0 1 == 0) (.vlutZq (bvf w 20 2) (bvf w 15 5) (bvf w 10 5) (bvf w 5 5) (bvf w 1 4)) s).symm
  · exact (runDecoded_row e (fld w 0 1 == 0 && fld w 10 5 == 0) (.vrcp (bvf w 20 2) (bvf w 15 5) (bvf w 5 5) (bvf w 1 4)) s).symm
  · exact (runDecoded_row e (fld w 0 1 == 0 && fld w 10 5 == 0) (.vrcpZq (bvf w 20 2) (bvf w 15 5) (bvf w 5 5) (bvf w 1 4)) s).symm
  · exact (runDecoded_row e (fld w 0 1 == 0 && fld w 10 5 == 0) (.vrsq (bvf w 20 2) (bvf w 15 5) (bvf w 5 5) (bvf w 1 4)) s).symm
  · exact (runDecoded_row e (fld w 0 1 == 0 && fld w 10 5 == 0) (.vrsqZq (bvf w 20 2) (bvf w 15 5) (bvf w 5 5) (bvf w 1 4)) s).symm
  · exact (runDecoded_row e (fld w 0 1 == 0 && fld w 10 5 == 0) (.vexp2 (bvf w 20 2) (bvf w 15 5) (bvf w 5 5) (bvf w 1 4)) s).symm
  · exact (runDecoded_row e (fld w 0 1 == 0 && fld w 10 5 == 0) (.vexp2Zq (bvf w 20 2) (bvf w 15 5) (bvf w 5 5) (bvf w 1 4)) s).symm
  · exact (runDecoded_row e (fld w 0 1 == 0 && fld w 10 5 == 0) (.vlog2 (bvf w 20 2) (bvf w 15 5) (bvf w 5 5) (bvf w 1 4)) s).symm
  · exact (runDecoded_row e (fld w 0 1 == 0 && fld w 10 5 == 0) (.vlog2Zq (bvf w 20 2) (bvf w 15 5) (bvf w 5 5) (bvf w 1 4)) s).symm
  · rfl
  · rfl
  · exact (runDecoded_row e (fld w 10 5 == 0) (.vsincos (bvf w 20 2) (bvf w 15 5) (bvf w 5 5) (bvf w 1 4) (bvf w 0 1)) s).symm
  · exact (runDecoded_row e (fld w 10 5 == 0) (.vsincosZq (bvf w 20 2) (bvf w 15 5) (bvf w 5 5) (bvf w 1 4) (bvf w 0 1)) s).symm
  · exact (runDecoded_row e (fld w 0 1 == 0 && fld w 10 5 == 0) (.vnorm (bvf w 20 2) (bvf w 15 5) (bvf w 5 5) (bvf w 1 4)) s).symm
  · exact (runDecoded_row e (fld w 0 1 == 0 && fld w 10 5 == 0) (.vnormZq (bvf w 20 2) (bvf w 15 5) (bvf w 5 5) (bvf w 1 4)) s).symm
  · rfl
  · rfl
  · exact (runDecoded_row e (fld w 0 5 == 0 && fld w 10 5 == 0) (.vmov (bvf w 20 2) (bvf w 15 5) (bvf w 5 5)) s).symm
  · exact (runDecoded_row e (fld w 0 5 == 0 && fld w 10 5 == 0) (.vmovZq (bvf w 20 2) (bvf w 15 5) (bvf w 5 5)) s).symm
  · rfl
  · exact (runDecoded_row e (fld w 0 5 == 0 && fld w 15 5 == 0) (.vtos (bvf w 20 2) (bvf w 10 5) (bvf w 5 5)) s).symm
  · rfl
  · exact (runDecoded_row e (fld w 0 5 == 0 && fld w 10 5 == 0) (.vfroms (bvf w 20 2) (bvf w 15 5) (bvf w 5 5)) s).symm
  · rfl
  · rfl
  · exact (runDecoded_row e (fld w 0 1 == 0 && fld w 18 2 == 0) (.vcmpEq (bvf w 20 2) (bvf w 15 3) (bvf w 10 5) (bvf w 5 5) (bvf w 1 4)) s).symm
  · exact (runDecoded_row e (fld w 0 1 == 0 && fld w 18 2 == 0) (.vcmpEqZq (bvf w 20 2) (bvf w 15 3) (bvf w 10 5) (bvf w 5 5) (bvf w 1 4)) s).symm
  · exact (runDecoded_row e (fld w 0 1 == 0 && fld w 18 2 == 0) (.vcmpNe (bvf w 20 2) (bvf w 15 3) (bvf w 10 5) (bvf w 5 5) (bvf w 1 4)) s).symm
  · exact (runDecoded_row e (fld w 0 1 == 0 && fld w 18 2 == 0) (.vcmpNeZq (bvf w 20 2) (bvf w 15 3) (bvf w 10 5) (bvf w 5 5) (bvf w 1 4)) s).symm
  · exact (runDecoded_row e (fld w 0 1 == 0 && fld w 18 2 == 0) (.vcmpLt (bvf w 20 2) (bvf w 15 3) (bvf w 10 5) (bvf w 5 5) (bvf w 1 4)) s).symm
  · exact (runDecoded_row e (fld w 0 1 == 0 && fld w 18 2 == 0) (.vcmpLtZq (bvf w 20 2) (bvf w 15 3) (bvf w 10 5) (bvf w 5 5) (bvf w 1 4)) s).symm
  · exact (runDecoded_row e (fld w 0 1 == 0 && fld w 18 2 == 0) (.vcmpLe (bvf w 20 2) (bvf w 15 3) (bvf w 10 5) (bvf w 5 5) (bvf w 1 4)) s).symm
  · exact (runDecoded_row e (fld w 0 1 == 0 && fld w 18 2 == 0) (.vcmpLeZq (bvf w 20 2) (bvf w 15 3) (bvf w 10 5) (bvf w 5 5) (bvf w 1 4)) s).symm
  · exact (runDecoded_row e (fld w 0 1 == 0 && fld w 18 2 == 0) (.vcmpLtn (bvf w 20 2) (bvf w 15 3) (bvf w 10 5) (bvf w 5 5) (bvf w 1 4)) s).symm
  · exact (runDecoded_row e (fld w 0 1 == 0 && fld w 18 2 == 0) (.vcmpLtnZq (bvf w 20 2) (bvf w 15 3) (bvf w 10 5) (bvf w 5 5) (bvf w 1 4)) s).symm
  · exact (runDecoded_row e (fld w 0 1 == 0 && fld w 18 2 == 0) (.vcmpLen (bvf w 20 2) (bvf w 15 3) (bvf w 10 5) (bvf w 5 5) (bvf w 1 4)) s).symm
  · exact (runDecoded_row e (fld w 0 1 == 0 && fld w 18 2 == 0) (.vcmpLenZq (bvf w 20 2) (bvf w 15 3) (bvf w 10 5) (bvf w 5 5) (bvf w 1 4)) s).symm
  · rfl
  · exact (runDecoded_row e (fld w 0 5 == 0 && fld w 8 2 == 0 && fld w 13 2 == 0 && fld w 18 2 == 0) (.mand (bvf w 20 2) (bvf w 15 3) (bvf w 10 3) (bvf w 5 3)) s).symm
  · exact (runDecoded_row e (fld w 0 5 == 0 && fld w 8 2 == 0 && fld w 13 2 == 0 && fld w 18 2 == 0) (.mor (bvf w 20 2) (bvf w 15 3) (bvf w 10 3) (bvf w 5 3)) s).symm
  · exact (runDecoded_row e (fld w 0 5 == 0 && fld w 8 2 == 0 && fld w 13 2 == 0 && fld w 18 2 == 0) (.mxor (bvf w 20 2) (bvf w 15 3) (bvf w 10 3) (bvf w 5 3)) s).symm
  · exact (runDecoded_row e (fld w 0 5 == 0 && fld w 8 7 == 0 && fld w 18 2 == 0) (.mnot (bvf w 20 2) (bvf w 15 3) (bvf w 5 3)) s).symm
  · exact (runDecoded_row e (fld w 0 5 == 0 && fld w 8 7 == 0) (.mpopc (bvf w 20 2) (bvf w 15 5) (bvf w 5 3)) s).symm
  · exact (runDecoded_row e (fld w 0 5 == 0 && fld w 8 7 == 0) (.mfirst (bvf w 20 2) (bvf w 15 5) (bvf w 5 3)) s).symm
  · rfl
  · rfl
  · rfl
  · rfl
  · rfl
  · rfl
  · rfl
  · rfl
  · rfl
  · rfl
  · rfl
  · rfl
  · rfl
  · rfl
  · rfl
  · rfl
  · rfl
  · rfl
  · rfl
  · rfl
  · rfl
  · rfl
  · rfl

theorem runM_eq (e : Engine) (w : Nat) (s : State) : runM e w s = runDecoded e (decodeM w) s := by
  unfold runM decodeM
  have hx : fld w 22 7 < 128 := Nat.mod_lt _ (by decide)
  generalize fld w 22 7 = x at *
  interval_cases x
  · rfl
  · exact (runDecoded_row e (fld w 0 20 == 0) (.nopM (bvf w 20 2)) s).symm
  · exact (runDecoded_row e (fld w 3 7 == 0 && fld w 14 1 == 0 && fld w 18 2 == 0) (.mload (bvf w 20 2) (bvf w 15 3) (bvf w 10 4) (bvf w 2 1) (bvf w 0 2)) s).symm
  · exact (runDecoded_row e (fld w 2 8 == 0 && fld w 13 2 == 0 && fld w 19 1 == 0) (.mstore (bvf w 20 2) (bvf w 15 4) (bvf w 10 3) (bvf w 0 2)) s).symm
  · rfl
  · exact (runDecoded_row e (fld w 0 3 == 0) (.mderive (bvf w 20 2) (bvf w 16 4) (bvf w 12 4) (bvf w 9 3) (bvf w 7 2) (bvf w 3 4)) s).symm
  · exact (runDecoded_row e (fld w 2 8 == 0 && fld w 13 2 == 0 && fld w 18 2 == 0) (.mscale (bvf w 20 2) (bvf w 15 3) (bvf w 10 3) (bvf w 0 2)) s).symm
  · exact (runDecoded_row e (fld w 2 13 == 0 && fld w 19 1 == 0) (.mpanel (bvf w 20 2) (bvf w 15 4) (bvf w 0 2)) s).symm
  · exact (runDecoded_row e (fld w 0 1 == 0) (.mslice (bvf w 20 2) (bvf w 15 5) (bvf w 11 4) (bvf w 8 3) (bvf w 7 1) (bvf w 3 4) (bvf w 1 2)) s).symm
  · exact (runDecoded_row e (fld w 4 16 == 0) (.mcommit (bvf w 20 2) (bvf w 0 4)) s).symm
  · exact (runDecoded_row e (fld w 4 16 == 0) (.mwaitb (bvf w 20 2) (bvf w 0 4)) s).symm
  · rfl
  · exact (runDecoded_row e (fld w 1 9 == 0 && fld w 12 3 == 0 && fld w 19 1 == 0) (.mnorm (bvf w 20 2) (bvf w 15 4) (bvf w 10 2) (bvf w 0 1)) s).symm
  · refine Eq.trans ?_ (runDecoded_ite e ((fld w 14 1 == 0) = true) (rowOf (fld w 7 8 == 0) (.mclrWindow (bvf w 20 2) (bvf w 15 5) (bvf w 2 5) (bvf w 0 2))) (rowOf (fld w 2 13 == 0x1000 && fld w 18 2 == 0) (.mclrBank (bvf w 20 2) (bvf w 15 3) (bvf w 0 2))) s).symm
    rw [runDecoded_row, runDecoded_row]; rfl
  · exact (runDecoded_row e (fld w 5 10 == 0 && fld w 19 1 == 0) (.mstat (bvf w 20 2) (bvf w 15 4) (bvf w 4 1) (bvf w 0 4)) s).symm
  · exact (runDecoded_row e (fld w 4 16 == 0) (.mfence (bvf w 20 2) (bvf w 0 4)) s).symm
  · rfl
  · rfl
  · rfl
  · rfl
  · rfl
  · rfl
  · rfl
  · rfl
  · rfl
  · rfl
  · rfl
  · rfl
  · rfl
  · rfl
  · rfl
  · rfl
  · rfl
  · rfl
  · rfl
  · rfl
  · rfl
  · rfl
  · rfl
  · rfl
  · rfl
  · rfl
  · rfl
  · rfl
  · rfl
  · rfl
  · rfl
  · rfl
  · rfl
  · rfl
  · rfl
  · rfl
  · rfl
  · rfl
  · rfl
  · rfl
  · rfl
  · rfl
  · rfl
  · rfl
  · rfl
  · rfl
  · rfl
  · rfl
  · rfl
  · rfl
  · rfl
  · rfl
  · rfl
  · rfl
  · rfl
  · rfl
  · rfl
  · rfl
  · rfl
  · rfl
  · rfl
  · rfl
  · rfl
  · rfl
  · rfl
  · rfl
  · rfl
  · rfl
  · rfl
  · rfl
  · rfl
  · rfl
  · rfl
  · rfl
  · rfl
  · rfl
  · rfl
  · rfl
  · rfl
  · rfl
  · rfl
  · rfl
  · rfl
  · rfl
  · rfl
  · rfl
  · rfl
  · rfl
  · rfl
  · rfl
  · rfl
  · rfl
  · rfl
  · rfl
  · rfl
  · rfl
  · rfl
  · rfl
  · rfl
  · rfl
  · rfl
  · rfl
  · rfl
  · rfl
  · rfl
  · rfl
  · rfl
  · rfl
  · rfl
  · rfl
  · rfl
  · rfl

theorem runS_eq (e : Engine) (w : Nat) (s : State) : runS e w s = runDecoded e (decodeS w) s := by
  unfold runS decodeS
  have hx : fld w 22 7 < 128 := Nat.mod_lt _ (by decide)
  generalize fld w 22 7 = x at *
  interval_cases x
  · rfl
  · exact (runDecoded_row e (fld w 0 20 == 0) (.nopS (bvf w 20 2)) s).symm
  · exact (runDecoded_row e (fld w 0 15 == 0 && fld w 19 1 == 0) (.zdrain (bvf w 20 2) (bvf w 15 4)) s).symm
  · exact (runDecoded_row e (fld w 9 1 == 0 && fld w 19 1 == 0) (.stv (bvf w 20 2) (bvf w 15 4) (bvf w 10 5) (bvf w 0 9)) s).symm
  · exact (runDecoded_row e (fld w 1 4 == 0 && fld w 12 3 == 0 && fld w 19 1 == 0) (.scvt (bvf w 20 2) (bvf w 15 4) (bvf w 10 2) (bvf w 5 5) (bvf w 0 1)) s).symm
  · exact (runDecoded_row e (fld w 1 9 == 0 && fld w 19 1 == 0) (.samax (bvf w 20 2) (bvf w 15 4) (bvf w 14 1) (bvf w 10 4) (bvf w 0 1)) s).symm
  · exact (runDecoded_row e (fld w 0 5 == 0 && fld w 14 1 == 0 && fld w 19 1 == 0) (.vamaxr (bvf w 20 2) (bvf w 15 4) (bvf w 10 4) (bvf w 9 1) (bvf w 5 4)) s).symm
  · rfl
  · exact (runDecoded_row e (fld w 0 16 == 0) (.spair (bvf w 20 2) (bvf w 16 4)) s).symm
  · rfl
  · rfl
  · rfl
  · rfl
  · rfl
  · rfl
  · rfl
  · rfl
  · rfl
  · rfl
  · rfl
  · rfl
  · rfl
  · rfl
  · rfl
  · rfl
  · rfl
  · rfl
  · rfl
  · rfl
  · rfl
  · rfl
  · rfl
  · rfl
  · rfl
  · rfl
  · rfl
  · rfl
  · rfl
  · rfl
  · rfl
  · rfl
  · rfl
  · rfl
  · rfl
  · rfl
  · rfl
  · rfl
  · rfl
  · rfl
  · rfl
  · rfl
  · rfl
  · rfl
  · rfl
  · rfl
  · rfl
  · rfl
  · rfl
  · rfl
  · rfl
  · rfl
  · rfl
  · rfl
  · rfl
  · rfl
  · rfl
  · rfl
  · rfl
  · rfl
  · rfl
  · rfl
  · rfl
  · rfl
  · rfl
  · rfl
  · rfl
  · rfl
  · rfl
  · rfl
  · rfl
  · rfl
  · rfl
  · rfl
  · rfl
  · rfl
  · rfl
  · rfl
  · rfl
  · rfl
  · rfl
  · rfl
  · rfl
  · rfl
  · rfl
  · rfl
  · rfl
  · rfl
  · rfl
  · rfl
  · rfl
  · rfl
  · rfl
  · rfl
  · rfl
  · rfl
  · rfl
  · rfl
  · rfl
  · rfl
  · rfl
  · rfl
  · rfl
  · rfl
  · rfl
  · rfl
  · rfl
  · rfl
  · rfl
  · rfl
  · rfl
  · rfl
  · rfl
  · rfl
  · rfl
  · rfl
  · rfl
  · rfl
  · rfl

theorem runX_eq (e : Engine) (w : Nat) (s : State) : runX e w s = runDecoded e (decodeX w) s := by
  unfold runX decodeX
  have hx : fld w 22 7 < 128 := Nat.mod_lt _ (by decide)
  generalize fld w 22 7 = x at *
  interval_cases x
  · rfl
  · rfl
  · rfl
  · rfl
  · rfl
  · rfl
  · rfl
  · rfl
  · rfl
  · rfl
  · rfl
  · rfl
  · rfl
  · rfl
  · rfl
  · rfl
  · rfl
  · rfl
  · rfl
  · rfl
  · rfl
  · rfl
  · rfl
  · rfl
  · rfl
  · rfl
  · rfl
  · rfl
  · rfl
  · rfl
  · rfl
  · rfl
  · rfl
  · rfl
  · rfl
  · rfl
  · rfl
  · rfl
  · rfl
  · rfl
  · rfl
  · rfl
  · rfl
  · rfl
  · rfl
  · rfl
  · rfl
  · rfl
  · rfl
  · rfl
  · rfl
  · rfl
  · rfl
  · rfl
  · rfl
  · rfl
  · rfl
  · rfl
  · rfl
  · rfl
  · rfl
  · rfl
  · rfl
  · rfl
  · rfl
  · exact (runDecoded_row e (fld w 13 2 == 0 && fld w 15 5 != 0) (.notify (bvf w 20 2) (bvf w 15 5) (bvf w 12 1) (bvf w 0 12)) s).symm
  · exact (runDecoded_row e (fld w 15 5 == 0x1f) (.dictld (bvf w 20 2) (bvf w 10 5) (bvf w 0 10)) s).symm
  · rfl
  · rfl
  · rfl
  · rfl
  · rfl
  · exact (runDecoded_row e (fld w 19 1 == 1 && fld w 15 4 != 0) (.bemEq (bvf w 20 2) (bvf w 15 4) (bvf w 11 4) (bvf w 7 4) (bvf w 0 7)) s).symm
  · exact (runDecoded_row e (fld w 19 1 == 1 && fld w 15 4 != 0) (.bemEqA (bvf w 20 2) (bvf w 15 4) (bvf w 11 4) (bvf w 7 4) (bvf w 0 7)) s).symm
  · exact (runDecoded_row e (fld w 19 1 == 1 && fld w 15 4 != 0) (.bemNe (bvf w 20 2) (bvf w 15 4) (bvf w 11 4) (bvf w 7 4) (bvf w 0 7)) s).symm
  · exact (runDecoded_row e (fld w 19 1 == 1 && fld w 15 4 != 0) (.bemNeA (bvf w 20 2) (bvf w 15 4) (bvf w 11 4) (bvf w 7 4) (bvf w 0 7)) s).symm
  · exact (runDecoded_row e (fld w 19 1 == 1 && fld w 15 4 != 0) (.bemLt (bvf w 20 2) (bvf w 15 4) (bvf w 11 4) (bvf w 7 4) (bvf w 0 7)) s).symm
  · exact (runDecoded_row e (fld w 19 1 == 1 && fld w 15 4 != 0) (.bemLtA (bvf w 20 2) (bvf w 15 4) (bvf w 11 4) (bvf w 7 4) (bvf w 0 7)) s).symm
  · exact (runDecoded_row e (fld w 19 1 == 1 && fld w 15 4 != 0) (.bemLe (bvf w 20 2) (bvf w 15 4) (bvf w 11 4) (bvf w 7 4) (bvf w 0 7)) s).symm
  · exact (runDecoded_row e (fld w 19 1 == 1 && fld w 15 4 != 0) (.bemLeA (bvf w 20 2) (bvf w 15 4) (bvf w 11 4) (bvf w 7 4) (bvf w 0 7)) s).symm
  · exact (runDecoded_row e (fld w 19 1 == 1 && fld w 15 4 != 0) (.bemLtn (bvf w 20 2) (bvf w 15 4) (bvf w 11 4) (bvf w 7 4) (bvf w 0 7)) s).symm
  · exact (runDecoded_row e (fld w 19 1 == 1 && fld w 15 4 != 0) (.bemLtnA (bvf w 20 2) (bvf w 15 4) (bvf w 11 4) (bvf w 7 4) (bvf w 0 7)) s).symm
  · exact (runDecoded_row e (fld w 19 1 == 1 && fld w 15 4 != 0) (.bemLen (bvf w 20 2) (bvf w 15 4) (bvf w 11 4) (bvf w 7 4) (bvf w 0 7)) s).symm
  · exact (runDecoded_row e (fld w 19 1 == 1 && fld w 15 4 != 0) (.bemLenA (bvf w 20 2) (bvf w 15 4) (bvf w 11 4) (bvf w 7 4) (bvf w 0 7)) s).symm
  · rfl
  · rfl
  · rfl
  · rfl
  · rfl
  · rfl
  · rfl
  · rfl
  · rfl
  · rfl
  · rfl
  · rfl
  · rfl
  · rfl
  · rfl
  · rfl
  · rfl
  · rfl
  · rfl
  · rfl
  · rfl
  · rfl
  · rfl
  · rfl
  · rfl
  · rfl
  · rfl
  · rfl
  · rfl
  · rfl
  · rfl
  · rfl
  · rfl
  · rfl
  · rfl
  · rfl
  · rfl
  · rfl
  · rfl
  · rfl
  · rfl
  · rfl
  · rfl
  · rfl

/-- A 32-bit item runs as its decoding. -/
theorem runLong_eq (e : Engine) (w : Nat) (s : State) : runLong e w s = runDecoded e (decode32 w) s := by
  unfold runLong decode32
  have hx : fld w 29 3 < 8 := Nat.mod_lt _ (by decide)
  generalize fld w 29 3 = x at *
  interval_cases x
  · exact runC_eq e w s
  · exact runL_eq e w s
  · exact runV_eq e w s
  · exact runM_eq e w s
  · exact runS_eq e w s
  · refine Eq.trans ?_ (runDecoded_ite e ((fld w 28 1 == 1) = true) (decodeX w) (if (fld w 15 1 == 0) = true then
        .ok (.blockHeader (bvf w 16 12) (bvf w 0 15))
      else if (fld w 5 10 == 0) = true then .ok (.blockHeaderReg (bvf w 16 12) (bvf w 0 5))
      else .header (fld w 16 12)) s).symm
    rw [runDecoded_ite, runDecoded_ite, ← runX_eq]; rfl
  · rfl
  · rfl

/-- A one-parcel item runs as its decoding. -/
theorem runShort_eq (e : Engine) (p : Nat) (s : State) : runShort e p s = runDecoded e (decode16 p) s := by
  unfold runShort decode16
  have hx : fld p 13 3 < 8 := Nat.mod_lt _ (by decide)
  generalize fld p 13 3 = x at *
  interval_cases x <;> first
    | rfl
    | exact (runDecoded_row e (fld p 10 3 == 0) (.dictionaryReference (bvf p 0 10)) s).symm

end Sys2Proof.Machine
end

