-- ==== Sys2Proof/Laws/Root.lean ====
section
/-! SUPPORT. What leaves the boot record, the part and PCAP alone: shared operations. Each lemma says it of one definition. -/

set_option linter.all false

namespace Sys2Proof.Machine

/-- The part of the state that boot and configuration fix (26_platform R371 to R373, R376): the boot record, the part and PCAP. -/
def State.root (s : State) : Boot × Part × Nat := (s.boot, s.part, s.power.pcap)

@[simp] theorem root_mk (a b c d e f g h i j k l m n o p q) : (State.mk a b c d e f g h i j k l m n o p q).root = (k, j, l.pcap) := rfl

@[simp] theorem root_fold (s : State) : (s.boot, s.part, s.power.pcap) = s.root := rfl

@[simp] theorem foldl_root {α} (f : State → α → State) (h : ∀ s x, (f s x).root = s.root) (l : List α) (s : State) : (l.foldl f s).root = s.root := by
  induction l generalizing s with
  | nil => rfl
  | cons a l ih => simp [ih, h]

/-- An effect that leaves the root `r`. -/
def Effect.Keeps (r : Boot × Part × Nat) : Effect → Prop
  | .done s => s.root = r
  | .branch s _ _ => s.root = r
  | .waitWith s => s.root = r
  | .trapWith s _ _ _ => s.root = r
  | _ => True

@[simp] theorem keeps_trapWith (r s c i v) : (Effect.trapWith s c i v).Keeps r ↔ s.root = r := Iff.rfl

@[simp] theorem keeps_done (r s) : (Effect.done s).Keeps r ↔ s.root = r := Iff.rfl

@[simp] theorem keeps_branch (r s t a) : (Effect.branch s t a).Keeps r ↔ s.root = r := Iff.rfl

@[simp] theorem keeps_waitWith (r s) : (Effect.waitWith s).Keeps r ↔ s.root = r := Iff.rfl

@[simp] theorem keeps_wait (r) : Effect.wait.Keeps r := trivial

@[simp] theorem keeps_trap (r c i v) : (Effect.trap c i v).Keeps r := trivial

/-- A command's end that leaves the root `r`. -/
def CmdEnd.Keeps (r : Boot × Part × Nat) : CmdEnd → Prop
  | .done _ s => s.root = r
  | .later s => s.root = r
  | .waits => True
  | .absent _ => True

@[simp] theorem ckeeps_absent (r a) : (CmdEnd.absent a).Keeps r := trivial

@[simp] theorem ckeeps_done (r n s) : (CmdEnd.done n s).Keeps r ↔ s.root = r := Iff.rfl

@[simp] theorem ckeeps_later (r s) : (CmdEnd.later s).Keeps r ↔ s.root = r := Iff.rfl

@[simp] theorem ckeeps_waits (r) : CmdEnd.waits.Keeps r := trivial

theorem ofChk_keeps {α : Type} (c : Chk α) (f : α → Effect) (r) (h : ∀ a, (f a).Keeps r) : (ofChk c f).Keeps r := by
  unfold ofChk; split <;> simp [h]

theorem getD_root (o : Option State) (s : State) (h : ∀ t, o = some t → t.root = s.root) : (o.getD s).root = s.root := by
  cases o with
  | none => rfl
  | some t => exact h t rfl

theorem ite_keeps {c : Prop} [Decidable c] (a b : Effect) (r) (ha : a.Keeps r) (hb : b.Keeps r) : (if c then a else b).Keeps r := by
  split <;> assumption

theorem then_keeps {α : Type} (x : Got α) (f : α → State → Effect) (r) (h : ∀ a s, x = .ok a s → (f a s).Keeps r) : (x.then f).Keeps r := by
  cases x <;> simp_all [Got.then]

@[simp] theorem State.onMe_root (s : State) (f : Group → Group) : (State.onMe s f).root = s.root := by
  unfold State.onMe; simp only [apply_ite State.root, ite_self, root_mk, root_fold, foldl_root, implies_true]

@[simp] theorem State.onEng_root (s : State) (e : Engine) (f : EngineState → EngineState) : (State.onEng s e f).root = s.root :=
    by
  unfold State.onEng; simp only [apply_ite State.root, ite_self, root_mk, root_fold, foldl_root, implies_true, State.onMe_root]

@[simp] theorem State.result_root (s : State) (e : Engine) (r : Reg) (v : Val) (t lat : ℕ) : (State.result s e r v t lat).root =
    s.root := by
  unfold State.result; simp only [apply_ite State.root, ite_self, root_mk, root_fold, foldl_root, implies_true, State.onMe_root]

@[simp] theorem State.mapGroups_root (s : State) (f : Group → Group) : (State.mapGroups s f).root = s.root := by
  unfold State.mapGroups; simp only [apply_ite State.root, ite_self, root_mk, root_fold, foldl_root, implies_true]

@[simp] theorem State.onCore_root (s : State) (core : ℕ) (f : Group → Group) : (State.onCore s core f).root = s.root := by
  unfold State.onCore; simp only [apply_ite State.root, ite_self, root_mk, root_fold, foldl_root, implies_true,
      State.mapGroups_root]

@[simp] theorem State.focus_root (s : State) (core : ℕ) : (State.focus s core).root = s.root := by
  unfold State.focus; (repeat' split) <;> simp_all [apply_ite State.root, ite_self, root_mk, root_fold, foldl_root, implies_true]

@[simp] theorem State.newTag_root (s : State) : (State.newTag s).2.root = s.root := by
  unfold State.newTag; simp only [apply_ite State.root, ite_self, root_mk, root_fold, foldl_root, implies_true]

@[simp] theorem State.fresh_root (s : State) : (State.fresh s).2.root = s.root := by
  unfold State.fresh; simp only [apply_ite State.root, ite_self, root_mk, root_fold, foldl_root, implies_true]

@[simp] theorem State.hbmPut_root (s : State) (la : ℕ) (bs : List Byte) : (State.hbmPut s la bs).root = s.root := by
  unfold State.hbmPut; simp only [apply_ite State.root, ite_self, root_mk, root_fold, foldl_root, implies_true]

@[simp] theorem State.hbmPutVal_root (s : State) (la n v : ℕ) : (State.hbmPutVal s la n v).root = s.root := by
  unfold State.hbmPutVal; simp only [apply_ite State.root, ite_self, root_mk, root_fold, foldl_root, implies_true,
      State.hbmPut_root]

@[simp] theorem State.hostPut_root (s : State) (a : ℕ) (bs : List Byte) : (State.hostPut s a bs).root = s.root := by
  unfold State.hostPut; simp only [apply_ite State.root, ite_self, root_mk, root_fold, foldl_root, implies_true]

@[simp] theorem State.event_root (s : State) (cls ctx code data : ℕ) : (State.event s cls ctx code data).root = s.root := by
  unfold State.event; simp only [apply_ite State.root, ite_self, root_mk, root_fold, foldl_root, implies_true, State.hostPut_root]

@[simp] theorem State.evalTriggers_root (s : State) (n : ℕ) : (State.evalTriggers s n).root = s.root := by
  unfold State.evalTriggers; simp only [apply_ite State.root, ite_self, root_mk, root_fold, foldl_root, implies_true]

@[simp] theorem State.setCtr_root (s : State) (n : ℕ) (v : BitVec 64) (by_ : ℕ) : (State.setCtr s n v by_).root = s.root := by
  unfold State.setCtr; simp only [apply_ite State.root, ite_self, root_mk, root_fold, foldl_root, implies_true,
      State.evalTriggers_root]

@[simp] theorem State.addCtr_root (s : State) (n : ℕ) (v : BitVec 64) (by_ : ℕ) : (State.addCtr s n v by_).root = s.root := by
  unfold State.addCtr; simp only [apply_ite State.root, ite_self, root_mk, root_fold, foldl_root, implies_true,
      State.evalTriggers_root]

@[simp] theorem State.addCtrOpt_root (s : State) (c : Option ℕ) (v : BitVec 64) (by_ : ℕ) : (State.addCtrOpt s c v by_).root =
    s.root := by
  unfold State.addCtrOpt; (repeat' split) <;> simp_all [apply_ite State.root, ite_self, root_mk, root_fold, foldl_root,
      implies_true, State.addCtr_root]

@[simp] theorem State.onCtx_root (s : State) (n : ℕ) (f : Context → Context) : (State.onCtx s n f).root = s.root := by
  unfold State.onCtx; simp only [apply_ite State.root, ite_self, root_mk, root_fold, foldl_root, implies_true]

@[simp] theorem State.onPort_root (s : State) (n : ℕ) (f : Port → Port) : (State.onPort s n f).root = s.root := by
  unfold State.onPort; simp only [apply_ite State.root, ite_self, root_mk, root_fold, foldl_root, implies_true]

theorem State.sendOn_root (s : State) (n : ℕ) (pk : Packet) (o9 : State) (hr : State.sendOn s n pk = some o9) : o9.root = s.root
    := by
  have h := hr
  clear hr
  unfold State.sendOn at h
  split at h
  · cases h
  · split at h
    · obtain ⟨p, _, rfl⟩ := Option.map_eq_some_iff.1 h
      simp only [State.onPort_root]
    · cases h

theorem State.sendRoute_root (s : State) (pk : Packet) (line : ℕ) (o9 : State) (hr : State.sendRoute s pk line = some o9) :
    o9.root = s.root := by
  unfold State.sendRoute at hr; (repeat' split at hr) <;> (try cases hr) <;>
    repeat first
      | with_reducible rfl
      | assumption
      | (simp only [apply_ite State.root, ite_self, root_mk, root_fold, foldl_root, implies_true]; done)
      | rw [State.sendOn_root (hr := by assumption)]
      | simp only [apply_ite State.root, ite_self, root_mk, root_fold, foldl_root, implies_true]

@[simp] theorem State.trySend_root (s : State) (pk : Packet) (line : ℕ) : (State.trySend s pk line).root = s.root := by
  unfold State.trySend
  cases h : s.sendRoute pk line with
  | none => rfl
  | some t => exact State.sendRoute_root _ _ _ _ h

@[simp] theorem State.onQp_root (s : State) (n : ℕ) (f : QPair → QPair) : (State.onQp s n f).root = s.root := by
  unfold State.onQp; simp only [apply_ite State.root, ite_self, root_mk, root_fold, foldl_root, implies_true]

theorem State.qpSend_root (s : State) (q : QPair) (named : ℕ) (p : Packet) (o9 : State) (hr : State.qpSend s q named p = some o9)
    : o9.root = s.root := by
  unfold State.qpSend at hr; dsimp only at hr; (repeat' split at hr) <;> (try cases hr) <;>
    repeat first
      | with_reducible rfl
      | assumption
      | (simp only [apply_ite State.root, ite_self, root_mk, root_fold, foldl_root, implies_true, State.onQp_root]; done)
      | rw [State.sendRoute_root (hr := by assumption)]
      | rw [State.sendOn_root (hr := by assumption)]
      | simp only [apply_ite State.root, ite_self, root_mk, root_fold, foldl_root, implies_true, State.onQp_root]

theorem State.sendTo_root (s : State) (w : Way) (pk : Packet) (o9 : State) (hr : State.sendTo s w pk = some o9) : o9.root =
    s.root := by
  have h := hr
  clear hr
  unfold State.sendTo at h
  split at h
  · exact State.sendRoute_root _ _ _ _ h
  · obtain ⟨n, _, hn⟩ := Option.bind_eq_some_iff.1 h
    exact State.sendOn_root _ _ _ _ hn
  · split at h
    · cases h; rfl
    · exact State.qpSend_root _ _ _ _ _ h

@[simp] theorem State.post_root (s : State) (w : Way) (pk : Packet) : (State.post s w pk).root = s.root := by
  unfold State.post
  dsimp only
  split
  · rfl
  · cases e : s.sendTo w pk with
    | none => rfl
    | some t => exact State.sendTo_root _ _ _ _ e

@[simp] theorem State.flush_root (s : State) : (State.flush s).root = s.root := by
  unfold State.flush; simp only [apply_ite State.root, ite_self, root_mk, root_fold, foldl_root, implies_true, State.post_root]

@[simp] theorem State.sendQp_root (s : State) (n : ℕ) (pk : Packet) : (State.sendQp s n pk).root = s.root := by
  unfold State.sendQp; simp only [apply_ite State.root, ite_self, root_mk, root_fold, foldl_root, implies_true, State.post_root]

@[simp] theorem State.ctrl_root (s : State) (m : ℕ) (sub : BitVec 8) (ctx slot firing : ℕ) (addr value : BitVec 64) : (State.ctrl
    s m sub ctx slot firing addr value).root = s.root := by
  unfold State.ctrl; simp only [apply_ite State.root, ite_self, root_mk, root_fold, foldl_root, implies_true, State.post_root]

@[simp] theorem State.putW0_root (s : State) (a : ℕ) (w : BitVec 64) : (State.putW0 s a w).root = s.root := by
  unfold State.putW0; simp only [apply_ite State.root, ite_self, root_mk, root_fold, foldl_root, implies_true,
      State.hbmPutVal_root]

@[simp] theorem State.putW1_root (s : State) (a : ℕ) (w : BitVec 64) : (State.putW1 s a w).root = s.root := by
  unfold State.putW1; simp only [apply_ite State.root, ite_self, root_mk, root_fold, foldl_root, implies_true,
      State.hbmPutVal_root]

@[simp] theorem State.setPageSt_root (s : State) (e : PEntry) (st : ℕ) : (State.setPageSt s e st).root = s.root := by
  unfold State.setPageSt; simp only [apply_ite State.root, ite_self, root_mk, root_fold, foldl_root, implies_true,
      State.putW0_root]

@[simp] theorem State.dropHandles_root (s : State) (ctx lo hi : ℕ) : (State.dropHandles s ctx lo hi).root = s.root := by
  unfold State.dropHandles; simp only [apply_ite State.root, ite_self, root_mk, root_fold, foldl_root, implies_true,
      State.mapGroups_root]

@[simp] theorem State.notify_root (s : State) (ctx va typ arg : ℕ) : (State.notify s ctx va typ arg).root = s.root := by
  unfold State.notify; dsimp only; (repeat' split) <;>
    repeat first
      | with_reducible rfl
      | assumption
      | (simp only [apply_ite State.root, ite_self, root_mk, root_fold, foldl_root, implies_true, State.hbmPutVal_root,
          State.hbmPut_root, State.addCtr_root]; done)
      | simp only [apply_ite State.root, ite_self, root_mk, root_fold, foldl_root, implies_true, State.hbmPutVal_root,
          State.hbmPut_root, State.addCtr_root]

@[simp] theorem State.touch_root (s : State) (ctx : ℕ) (e : PEntry) (va lines : ℕ) : (State.touch s ctx e va lines).root = s.root
    := by
  unfold State.touch; dsimp only; (repeat' split) <;>
    repeat first
      | with_reducible rfl
      | assumption
      | (simp only [apply_ite State.root, ite_self, root_mk, root_fold, foldl_root, implies_true, State.onCtx_root,
          State.notify_root]; done)
      | simp only [apply_ite State.root, ite_self, root_mk, root_fold, foldl_root, implies_true, State.onCtx_root,
          State.notify_root]

@[simp] theorem State.hold_root (s : State) (ctx va : ℕ) (bs : List Byte) (core : Option ℕ) (agent : Option Agent) (ack : Option
    Packet) (rmw : Option PendAtomic) : (State.hold s ctx va bs core agent ack rmw).root = s.root := by
  unfold State.hold; simp only [apply_ite State.root, ite_self, root_mk, root_fold, foldl_root, implies_true, State.newTag_root]

@[simp] theorem State.ringBell_root (s : State) (b : Bell) (v : ℕ) : (State.ringBell s b v).root = s.root := by
  unfold State.ringBell; simp only [apply_ite State.root, ite_self, root_mk, root_fold, foldl_root, implies_true]

@[simp] theorem State.storeLocal_root (s : State) (la : ℕ) (bs : List Byte) : (State.storeLocal s la bs).root = s.root := by
  unfold State.storeLocal; (repeat' split) <;> simp_all [apply_ite State.root, ite_self, root_mk, root_fold, foldl_root,
      implies_true, State.ringBell_root, State.hbmPut_root]

@[simp] theorem State.invalidate_root (s : State) (ctx va : ℕ) : (State.invalidate s ctx va).root = s.root := by
  unfold State.invalidate; dsimp only; (repeat' split) <;>
    repeat first
      | with_reducible rfl
      | assumption
      | (simp only [apply_ite State.root, ite_self, root_mk, root_fold, foldl_root, implies_true, State.ctrl_root]; done)
      | simp only [apply_ite State.root, ite_self, root_mk, root_fold, foldl_root, implies_true, State.ctrl_root]

@[simp] theorem State.sendFwd_root (s : State) (g : Fwd) : (State.sendFwd s g).root = s.root := by
  unfold State.sendFwd; dsimp only; (repeat' split) <;>
    repeat first
      | with_reducible rfl
      | assumption
      | (simp only [apply_ite State.root, ite_self, root_mk, root_fold, foldl_root, implies_true]; done)
      | rw [State.sendRoute_root (hr := by assumption)]
      | simp only [apply_ite State.root, ite_self, root_mk, root_fold, foldl_root, implies_true]

@[simp] theorem State.sendUnsent_root (s : State) : (State.sendUnsent s).root = s.root := by
  unfold State.sendUnsent; simp only [apply_ite State.root, ite_self, root_mk, root_fold, foldl_root, implies_true,
      State.sendFwd_root]

@[simp] theorem State.goOn_root (s : State) : (State.goOn s).root = s.root := by
  unfold State.goOn; simp only [apply_ite State.root, ite_self, root_mk, root_fold, foldl_root, implies_true,
      State.sendUnsent_root, State.flush_root]

@[simp] theorem State.noteRoutes_root (s0 s : State) : (State.noteRoutes s0 s).root = s.root := by
  unfold State.noteRoutes; simp only [apply_ite State.root, ite_self, root_mk, root_fold, foldl_root, implies_true]

@[simp] theorem State.forwardFor_root (s : State) (f : Fwd) : (State.forwardFor s f).root = s.root := by
  unfold State.forwardFor; simp only [apply_ite State.root, ite_self, root_mk, root_fold, foldl_root, implies_true,
      State.sendFwd_root]

@[simp] theorem State.forward_root (s : State) (pk : Packet) (va line : ℕ) (core : Option ℕ) (reg : Option Reg) (size : ℕ)
    (signed : Bool) : (State.forward s pk va line core reg size signed).root = s.root := by
  unfold State.forward; simp only [apply_ite State.root, ite_self, root_mk, root_fold, foldl_root, implies_true,
      State.forwardFor_root]

@[simp] theorem State.forwardStore_root (s : State) (pk : Packet) (va line : ℕ) (core : Option ℕ) (agent : Option Agent) (size :
    ℕ) : (State.forwardStore s pk va line core agent size).root = s.root := by
  unfold State.forwardStore; simp only [apply_ite State.root, ite_self, root_mk, root_fold, foldl_root, implies_true,
      State.forwardFor_root]

@[simp] theorem State.writePageBy_root (s : State) (ctx va : ℕ) (e : PEntry) (bs : List Byte) (core : Option ℕ) (agent : Option
    Agent) : (State.writePageBy s ctx va e bs core agent).root = s.root := by
  unfold State.writePageBy; dsimp only; (repeat' split) <;>
    repeat first
      | with_reducible rfl
      | assumption
      | (simp only [apply_ite State.root, ite_self, root_mk, root_fold, foldl_root, implies_true, State.hold_root,
          State.hostPut_root, State.forwardStore_root, State.invalidate_root, State.storeLocal_root]; done)
      | simp only [apply_ite State.root, ite_self, root_mk, root_fold, foldl_root, implies_true, State.hold_root,
          State.hostPut_root, State.forwardStore_root, State.invalidate_root, State.storeLocal_root]

@[simp] theorem State.writePage_root (s : State) (ctx va : ℕ) (e : PEntry) (bs : List Byte) (core : Option ℕ) : (State.writePage
    s ctx va e bs core).root = s.root := by
  unfold State.writePage; simp only [apply_ite State.root, ite_self, root_mk, root_fold, foldl_root, implies_true,
      State.writePageBy_root]

@[simp] theorem State.homePut_root (s : State) (h : Home) (bs : List Byte) (ack : Option Packet) : (State.homePut s h bs
    ack).root = s.root := by
  unfold State.homePut; (repeat' split) <;> simp_all [apply_ite State.root, ite_self, root_mk, root_fold, foldl_root,
      implies_true, State.storeLocal_root, State.hold_root, State.writePage_root]

@[simp] theorem State.placePut_root (s : State) (p : AtPlace) (n v by_ : ℕ) : (State.placePut s p n v by_).root = s.root := by
  unfold State.placePut; dsimp only; (repeat' split) <;>
    repeat first
      | with_reducible rfl
      | assumption
      | (simp only [apply_ite State.root, ite_self, root_mk, root_fold, foldl_root, implies_true, State.onCore_root,
          State.writePage_root]; done)
      | simp only [apply_ite State.root, ite_self, root_mk, root_fold, foldl_root, implies_true, State.onCore_root,
          State.writePage_root]

@[simp] theorem State.deliver_root (s : State) (isInterval : Bool) (a : PendAtomic) (old : ℕ) (added : Bool) : (State.deliver s
    isInterval a old added).root = s.root := by
  unfold State.deliver; simp only [apply_ite State.root, ite_self, root_mk, root_fold, foldl_root, implies_true,
      State.mapGroups_root]

@[simp] theorem State.endRun_root (s : State) (r : Run) : (State.endRun s r).root = s.root := by
  unfold State.endRun; simp only [apply_ite State.root, ite_self, root_mk, root_fold, foldl_root, implies_true,
      State.placePut_root]

@[simp] theorem State.endRuns_root (s : State) (l : List Run) : (State.endRuns s l).root = s.root := by
  unfold State.endRuns; simp only [apply_ite State.root, ite_self, root_mk, root_fold, foldl_root, implies_true,
      State.endRun_root]

@[simp] theorem State.askHome_root (s : State) (c : Closing) (op v u : ℕ) : (State.askHome s c op v u).root = s.root := by
  unfold State.askHome; dsimp only; (repeat' split) <;>
    repeat first
      | with_reducible rfl
      | assumption
      | (simp only [apply_ite State.root, ite_self, root_mk, root_fold, foldl_root, implies_true, State.forwardFor_root]; done)
      | simp only [apply_ite State.root, ite_self, root_mk, root_fold, foldl_root, implies_true, State.forwardFor_root]

@[simp] theorem State.pumpClosing_root (s : State) : (State.pumpClosing s).root = s.root := by
  unfold State.pumpClosing; grind -lia -ring -linarith -order -ac [State.root, Effect.Keeps, CmdEnd.Keeps, ofChk, Got.then,
      foldl_root, State.askHome_root]

@[simp] theorem State.endClosing_root (s : State) (c : Closing) (res : List (PendAtomic × ℕ × Bool)) : (State.endClosing s c
    res).root = s.root := by
  unfold State.endClosing; simp only [apply_ite State.root, ite_self, root_mk, root_fold, foldl_root, implies_true,
      State.pumpClosing_root, State.deliver_root]

@[simp] theorem State.closingReturns_root (s : State) (tag v : ℕ) : (State.closingReturns s tag v).root = s.root := by
  unfold State.closingReturns; dsimp only; (repeat' split) <;>
    repeat first
      | with_reducible rfl
      | assumption
      | (simp only [apply_ite State.root, ite_self, root_mk, root_fold, foldl_root, implies_true, State.endClosing_root,
          State.pumpClosing_root]; done)
      | simp only [apply_ite State.root, ite_self, root_mk, root_fold, foldl_root, implies_true, State.endClosing_root,
          State.pumpClosing_root]

@[simp] theorem State.closingFails_root (s : State) (tag : ℕ) : (State.closingFails s tag).root = s.root := by
  unfold State.closingFails; (repeat' split) <;> simp_all [apply_ite State.root, ite_self, root_mk, root_fold, foldl_root,
      implies_true, State.endClosing_root]

@[simp] theorem State.addClosing_root (s : State) (a : PendAtomic) : (State.addClosing s a).root = s.root := by
  unfold State.addClosing; dsimp only; (repeat' split) <;>
    repeat first
      | with_reducible rfl
      | assumption
      | (simp only [apply_ite State.root, ite_self, root_mk, root_fold, foldl_root, implies_true, State.newTag_root]; done)
      | simp only [apply_ite State.root, ite_self, root_mk, root_fold, foldl_root, implies_true, State.newTag_root]

theorem runOne_root (t : State × List Run) (a : PendAtomic) : (runOne t a).1.root = t.1.root := by
  unfold runOne
  split
  · simp only [State.deliver_root]
  · dsimp only
    split <;> simp only [State.deliver_root, State.endRuns_root]

theorem foldl_runOne_root (l : List PendAtomic) (t : State × List Run) : (l.foldl runOne t).1.root = t.1.root := by
  induction l generalizing t with
  | nil => rfl
  | cons a l ih => exact (ih _).trans (runOne_root t a)

@[simp] theorem State.resolveIntervals_root (s : State) : (State.resolveIntervals s).root = s.root := by
  unfold State.resolveIntervals
  split
  · rfl
  · dsimp only
    rw [State.pumpClosing_root, foldl_root _ (fun s x => State.addClosing_root ..), State.endRuns_root, foldl_runOne_root]
    rfl

@[simp] theorem State.closeInterval_root (s : State) : (State.closeInterval s).root = s.root := by
  unfold State.closeInterval; simp only [apply_ite State.root, ite_self, root_mk, root_fold, foldl_root, implies_true,
      State.resolveIntervals_root, State.onMe_root]

@[simp] theorem State.performHeld_root (s : State) (w : HeldWrite) : (State.performHeld s w).root = s.root := by
  unfold State.performHeld; dsimp only; (repeat' split) <;>
    repeat first
      | with_reducible rfl
      | assumption
      | (simp only [apply_ite State.root, ite_self, root_mk, root_fold, foldl_root, implies_true, State.writePageBy_root,
          State.deliver_root]; done)
      | simp only [apply_ite State.root, ite_self, root_mk, root_fold, foldl_root, implies_true, State.writePageBy_root,
          State.deliver_root]

@[simp] theorem State.putObj_root (s : State) (o : SyncObj) : (State.putObj s o).root = s.root := by
  unfold State.putObj; simp only [apply_ite State.root, ite_self, root_mk, root_fold, foldl_root, implies_true]

@[simp] theorem State.setObjWord_root (s : State) (o : SyncObj) (w : BitVec 64) : (State.setObjWord s o w).root = s.root := by
  unfold State.setObjWord; simp only [apply_ite State.root, ite_self, root_mk, root_fold, foldl_root, implies_true,
      State.hostPut_root, State.homePut_root]

@[simp] theorem State.grant_root (s : State) (o : SyncObj) (h : SyncHold) : (State.grant s o h).root = s.root := by
  unfold State.grant; simp only [apply_ite State.root, ite_self, root_mk, root_fold, foldl_root, implies_true,
      State.setObjWord_root, State.putObj_root]

@[simp] theorem State.letGo_root (s : State) (o : SyncObj) (mod launch index : ℕ) (how : LetGo) : (State.letGo s o mod launch
    index how).root = s.root := by
  unfold State.letGo; simp only [apply_ite State.root, ite_self, root_mk, root_fold, foldl_root, implies_true,
      State.setObjWord_root, State.putObj_root]

@[simp] theorem State.moveObjs_root (s : State) (old new size : ℕ) : (State.moveObjs s old new size).root = s.root := by
  unfold State.moveObjs; simp only [apply_ite State.root, ite_self, root_mk, root_fold, foldl_root, implies_true,
      State.putObj_root]

@[simp] theorem State.syncMsg_root (s : State) (m : ℕ) (sub : BitVec 8) (ctx key launch index tag code : ℕ) : (State.syncMsg s m
    sub ctx key launch index tag code).root = s.root := by
  unfold State.syncMsg; simp only [apply_ite State.root, ite_self, root_mk, root_fold, foldl_root, implies_true, State.post_root]

@[simp] theorem State.ask_root (s : State) (ctx key launch index : ℕ) (ex : Bool) : (State.ask s ctx key launch index ex).root =
    s.root := by
  unfold State.ask; simp only [apply_ite State.root, ite_self, root_mk, root_fold, foldl_root, implies_true, State.newTag_root,
      State.syncMsg_root]

@[simp] theorem State.dropAsk_root (s : State) (a : SyncAsk) (how : LetGo) : (State.dropAsk s a how).root = s.root := by
  unfold State.dropAsk; simp only [apply_ite State.root, ite_self, root_mk, root_fold, foldl_root, implies_true,
      State.syncMsg_root]

@[simp] theorem State.askArrive_root (s : State) (pk : Packet) : (State.askArrive s pk).root = s.root := by
  unfold State.askArrive; simp only [apply_ite State.root, ite_self, root_mk, root_fold, foldl_root, implies_true,
      State.putObj_root]

@[simp] theorem State.grantedArrive_root (s : State) (pk : Packet) : (State.grantedArrive s pk).root = s.root := by
  unfold State.grantedArrive; simp only [apply_ite State.root, ite_self, root_mk, root_fold, foldl_root, implies_true]

@[simp] theorem State.letGoArrive_root (s : State) (pk : Packet) : (State.letGoArrive s pk).root = s.root := by
  unfold State.letGoArrive; simp only [apply_ite State.root, ite_self, root_mk, root_fold, foldl_root, implies_true,
      State.letGo_root]

@[simp] theorem State.noteGrants_root (s : State) : (State.noteGrants s).root = s.root := by
  unfold State.noteGrants; simp only [apply_ite State.root, ite_self, root_mk, root_fold, foldl_root, implies_true,
      State.syncMsg_root, State.grant_root]

@[simp] theorem State.releaseHolds_root (s : State) (launch index : ℕ) (how : LetGo) : (State.releaseHolds s launch index
    how).root = s.root := by
  unfold State.releaseHolds; simp only [apply_ite State.root, ite_self, root_mk, root_fold, foldl_root, implies_true,
      State.letGo_root, State.dropAsk_root]

@[simp] theorem State.withdrawAcq_root (s : State) (launch index : ℕ) : (State.withdrawAcq s launch index).root = s.root := by
  unfold State.withdrawAcq; simp only [apply_ite State.root, ite_self, root_mk, root_fold, foldl_root, implies_true,
      State.putObj_root, State.dropAsk_root]

@[simp] theorem State.trace_root (s : State) (typ eng k seq : ℕ) (data : BitVec 64) : (State.trace s typ eng k seq data).root =
    s.root := by
  unfold State.trace; simp only [apply_ite State.root, ite_self, root_mk, root_fold, foldl_root, implies_true, State.onMe_root]

@[simp] theorem State.env_root (s : State) (ctx kind : ℕ) (group : Option Group) (data : ℕ) : (State.env s ctx kind group
    data).root = s.root := by
  unfold State.env; simp only [apply_ite State.root, ite_self, root_mk, root_fold, foldl_root, implies_true, State.onCtx_root]

@[simp] theorem State.onArea_root (s : State) (i : Ident) (f : SaveArea → SaveArea) : (State.onArea s i f).root = s.root := by
  unfold State.onArea; simp only [apply_ite State.root, ite_self, root_mk, root_fold, foldl_root, implies_true]

@[simp] theorem State.saveControl_root (s : State) (g : Group) : (State.saveControl s g).root = s.root := by
  unfold State.saveControl; simp only [apply_ite State.root, ite_self, root_mk, root_fold, foldl_root, implies_true,
      State.onArea_root]

@[simp] theorem State.teardown_root (s : State) (i : Ident) : (State.teardown s i).root = s.root := by
  unfold State.teardown; simp only [apply_ite State.root, ite_self, root_mk, root_fold, foldl_root, implies_true,
      State.onCtx_root]

@[simp] theorem State.teardownAll_root (s : State) : (State.teardownAll s).root = s.root := by
  unfold State.teardownAll; simp only [apply_ite State.root, ite_self, root_mk, root_fold, foldl_root, implies_true,
      State.teardown_root]

@[simp] theorem State.onHq_root (s : State) (q : ℕ) (f : HQueue → HQueue) : (State.onHq s q f).root = s.root := by
  unfold State.onHq; simp only [apply_ite State.root, ite_self, root_mk, root_fold, foldl_root, implies_true]

@[simp] theorem State.onLaunch_root (s : State) (id : ℕ) (f : Launch → Launch) : (State.onLaunch s id f).root = s.root := by
  unfold State.onLaunch; simp only [apply_ite State.root, ite_self, root_mk, root_fold, foldl_root, implies_true]

@[simp] theorem State.report_root (s : State) (id index : ℕ) (st : Status) : (State.report s id index st).root = s.root := by
  unfold State.report; simp only [apply_ite State.root, ite_self, root_mk, root_fold, foldl_root, implies_true,
      State.onLaunch_root]

@[simp] theorem State.writeRec_root (s : State) (q entry index : ℕ) (st : Status) : (State.writeRec s q entry index st).root =
    s.root := by
  unfold State.writeRec; dsimp only; (repeat' split) <;>
    repeat first
      | with_reducible rfl
      | assumption
      | (simp only [apply_ite State.root, ite_self, root_mk, root_fold, foldl_root, implies_true, State.onHq_root,
          State.hbmPutVal_root, State.hbmPut_root]; done)
      | simp only [apply_ite State.root, ite_self, root_mk, root_fold, foldl_root, implies_true, State.onHq_root,
          State.hbmPutVal_root, State.hbmPut_root]

@[simp] theorem flushOrdered_root (q a1 : ℕ) (a2 : State) : (flushOrdered q a1 a2).root = a2.root := by
  fun_induction flushOrdered <;> simp_all [apply_ite State.root, ite_self, root_mk, root_fold, foldl_root, implies_true]

@[simp] theorem State.flushRecs_root (s : State) (q : ℕ) : (State.flushRecs s q).root = s.root := by
  unfold State.flushRecs; dsimp only; (repeat' split) <;>
    repeat first
      | with_reducible rfl
      | assumption
      | (simp only [apply_ite State.root, ite_self, root_mk, root_fold, foldl_root, implies_true, State.onLaunch_root,
          flushOrdered_root, State.writeRec_root]; done)
      | simp only [apply_ite State.root, ite_self, root_mk, root_fold, foldl_root, implies_true, State.onLaunch_root,
          flushOrdered_root, State.writeRec_root]

@[simp] theorem State.settleCalendar_root (s : State) (id : ℕ) : (State.settleCalendar s id).root = s.root := by
  unfold State.settleCalendar; dsimp only; (repeat' split) <;>
    repeat first
      | with_reducible rfl
      | assumption
      | (simp only [apply_ite State.root, ite_self, root_mk, root_fold, foldl_root, implies_true, State.onLaunch_root,
          State.addCtr_root, State.event_root]; done)
      | simp only [apply_ite State.root, ite_self, root_mk, root_fold, foldl_root, implies_true, State.onLaunch_root,
          State.addCtr_root, State.event_root]

@[simp] theorem State.settleLaunch_root (s : State) (id : ℕ) : (State.settleLaunch s id).root = s.root := by
  unfold State.settleLaunch; (repeat' split) <;> simp_all [apply_ite State.root, ite_self, root_mk, root_fold, foldl_root,
      implies_true, State.flushRecs_root, State.settleCalendar_root]

@[simp] theorem State.writeCharges_root (s : State) (ctx rid : ℕ) : (State.writeCharges s ctx rid).root = s.root := by
  unfold State.writeCharges; (repeat' split) <;> simp_all [apply_ite State.root, ite_self, root_mk, root_fold, foldl_root,
      implies_true, State.hbmPutVal_root]

@[simp] theorem State.endGroup_root (s : State) (ph : Phase) (st : Status) (abandon : Bool) : (State.endGroup s ph st
    abandon).root = s.root := by
  unfold State.endGroup; simp only [apply_ite State.root, ite_self, root_mk, root_fold, foldl_root, implies_true,
      State.releaseHolds_root, State.trace_root, State.settleLaunch_root, State.report_root, State.onMe_root,
      State.resolveIntervals_root, State.writeCharges_root]

@[simp] theorem State.sendTokens_root (s : State) : (State.sendTokens s).root = s.root := by
  unfold State.sendTokens; simp only [apply_ite State.root, ite_self, root_mk, root_fold, foldl_root, implies_true]

@[simp] theorem State.tellBroken_root (s : State) (ctx bar : ℕ) (b : Barrier) : (State.tellBroken s ctx bar b).root = s.root := by
  unfold State.tellBroken; simp only [apply_ite State.root, ite_self, root_mk, root_fold, foldl_root, implies_true,
      State.ctrl_root, State.sendQp_root]

@[simp] theorem State.barResult_root (s : State) (ctx bar : ℕ) (hit : Joined → Bool) (p : Bool) : (State.barResult s ctx bar hit
    p).root = s.root := by
  unfold State.barResult; simp only [apply_ite State.root, ite_self, root_mk, root_fold, foldl_root, implies_true,
      State.resolveIntervals_root, State.mapGroups_root]

@[simp] theorem State.breakBar_root (s : State) (ctx bar : ℕ) : (State.breakBar s ctx bar).root = s.root := by
  unfold State.breakBar; simp only [apply_ite State.root, ite_self, root_mk, root_fold, foldl_root, implies_true,
      State.barResult_root, State.onCtx_root]

@[simp] theorem State.breakBarriers_root (s : State) (ctx : ℕ) : (State.breakBarriers s ctx).root = s.root := by
  unfold State.breakBarriers; (repeat' split) <;> simp_all [apply_ite State.root, ite_self, root_mk, root_fold, foldl_root,
      implies_true, State.breakBar_root, State.tellBroken_root]

@[simp] theorem State.stopCtx_root (s : State) (ctx : ℕ) (fault : Option FaultRec) : (State.stopCtx s ctx fault).root = s.root :=
    by
  unfold State.stopCtx; simp only [apply_ite State.root, ite_self, root_mk, root_fold, foldl_root, implies_true,
      State.releaseHolds_root, State.writeCharges_root, State.saveControl_root, State.mapGroups_root, State.breakBarriers_root,
      State.onCtx_root, State.resolveIntervals_root]

@[simp] theorem State.freezeCtx_root (s : State) (ctx : ℕ) (cause addr : BitVec 64) (group : ℕ) : (State.freezeCtx s ctx cause
    addr group).root = s.root := by
  unfold State.freezeCtx; (repeat' split) <;> simp_all [apply_ite State.root, ite_self, root_mk, root_fold, foldl_root,
      implies_true, State.onCtx_root, State.stopCtx_root]

@[simp] theorem State.cancelGroups_root (s : State) (id : ℕ) (a2 : List ℕ) : (State.cancelGroups s id a2).root = s.root := by
  induction a2 generalizing s with
  | nil => rfl
  | cons c r ih =>
    unfold State.cancelGroups
    rw [ih]
    simp only [State.focus_root]
    (repeat' split) <;> simp only [State.teardown_root, State.settleLaunch_root, State.report_root, State.endGroup_root, State.focus_root]

@[simp] theorem State.dropReserved_root (s : State) (id : ℕ) : (State.dropReserved s id).root = s.root := by
  unfold State.dropReserved; simp only [apply_ite State.root, ite_self, root_mk, root_fold, foldl_root, implies_true]

@[simp] theorem State.cancelLaunch_root (s : State) (id : ℕ) : (State.cancelLaunch s id).root = s.root := by
  unfold State.cancelLaunch; simp only [apply_ite State.root, ite_self, root_mk, root_fold, foldl_root, implies_true,
      State.settleLaunch_root, State.cancelGroups_root, State.onLaunch_root, State.dropReserved_root]

@[simp] theorem State.regionFault_root (s : State) (ctx rid id : ℕ) : (State.regionFault s ctx rid id).root = s.root := by
  unfold State.regionFault; dsimp only; (repeat' split) <;>
    repeat first
      | with_reducible rfl
      | assumption
      | (simp only [apply_ite State.root, ite_self, root_mk, root_fold, foldl_root, implies_true, State.cancelLaunch_root]; done)
      | simp only [apply_ite State.root, ite_self, root_mk, root_fold, foldl_root, implies_true, State.cancelLaunch_root]

@[simp] theorem State.drainLaunch_root (s : State) (id : ℕ) : (State.drainLaunch s id).root = s.root := by
  unfold State.drainLaunch; simp only [apply_ite State.root, ite_self, root_mk, root_fold, foldl_root, implies_true,
      State.settleLaunch_root, State.onLaunch_root, State.dropReserved_root]

@[simp] theorem State.fatalFault_root (s : State) (toCtx : Bool) (cause addr : BitVec 64) : (State.fatalFault s toCtx cause
    addr).root = s.root := by
  unfold State.fatalFault; dsimp only; (repeat' split) <;>
    repeat first
      | with_reducible rfl
      | assumption
      | (simp only [apply_ite State.root, ite_self, root_mk, root_fold, foldl_root, implies_true, State.sendTokens_root,
          State.onMe_root, State.endGroup_root, State.saveControl_root, State.freezeCtx_root, State.regionFault_root,
          State.drainLaunch_root, State.teardown_root]; done)
      | simp only [apply_ite State.root, ite_self, root_mk, root_fold, foldl_root, implies_true, State.sendTokens_root,
          State.onMe_root, State.endGroup_root, State.saveControl_root, State.freezeCtx_root, State.regionFault_root,
          State.drainLaunch_root, State.teardown_root]

@[simp] theorem State.takeTrap_root (s : State) (eng cause info va addr : ℕ) (viaBank : Bool) : (State.takeTrap s eng cause info
    va addr viaBank).root = s.root := by
  unfold State.takeTrap; simp only [apply_ite State.root, ite_self, root_mk, root_fold, foldl_root, implies_true,
      State.fatalFault_root, State.onMe_root]

@[simp] theorem State.trapAt_root (s : State) (e : Engine) (cause info va : ℕ) (viaBank : Bool) : (State.trapAt s e cause info va
    viaBank).root = s.root := by
  unfold State.trapAt; simp only [apply_ite State.root, ite_self, root_mk, root_fold, foldl_root, implies_true,
      State.takeTrap_root]

@[simp] theorem State.issued_root (s : State) (e : Engine) (t len : ℕ) : (State.issued s e t len).root = s.root := by
  unfold State.issued; simp only [apply_ite State.root, ite_self, root_mk, root_fold, foldl_root, implies_true, State.onMe_root]

@[simp] theorem State.stall_root (s : State) (e : Engine) (buf : Option (BitVec 8)) : (State.stall s e buf).root = s.root := by
  unfold State.stall; simp only [apply_ite State.root, ite_self, root_mk, root_fold, foldl_root, implies_true, State.onEng_root]

@[simp] theorem State.onLate_root (s : State) (e : Engine) (f : InFlight) : (State.onLate s e f).root = s.root := by
  unfold State.onLate; (repeat' split) <;> simp_all [apply_ite State.root, ite_self, root_mk, root_fold, foldl_root,
      implies_true, State.trapAt_root, State.stall_root]

theorem State.finish_root (s0 : State) (e : Engine) (t : ℕ) (viaBank : Bool) (a4 : Effect) (ha4 : a4.Keeps s0.root) (o9 : State)
    (hr : State.finish s0 e t viaBank a4 = .next o9) : o9.root = s0.root := by
  unfold State.finish at hr; (repeat' split at hr) <;> (try cases hr) <;>
    repeat first
      | with_reducible rfl
      | assumption
      | (simp only [apply_ite State.root, ite_self, root_mk, root_fold, foldl_root, implies_true, State.onMe_root,
          State.issued_root, State.onEng_root, State.stall_root, State.trapAt_root]; done)
      | simp only [apply_ite State.root, ite_self, root_mk, root_fold, foldl_root, implies_true, State.onMe_root,
          State.issued_root, State.onEng_root, State.stall_root, State.trapAt_root]

theorem issueWith_root (quiet : State → Effect) (e : Engine) (y : BitVec 2) (srcs : List Reg) (s : State) (body : State → ℕ →
    Effect) (hquiet : ∀ x0, (quiet x0).Keeps x0.root) (hbody : ∀ x0 x1,
    (body x0 x1).Keeps x0.root) (o9 : State) (hr : issueWith quiet e y srcs s body = .next o9) : o9.root = s.root := by
  have h := hr
  clear hr
  unfold issueWith at h
  dsimp only at h
  have e1 : (s.onMe (·.landTo e ((s.eng e).clk + y.toNat))).root = s.root := State.onMe_root _ _
  generalize (s.onMe (·.landTo e ((s.eng e).clk + y.toNat))) = s1 at h e1
  split at h
  · cases h; rfl
  · split at h
    · cases h; simp only [State.issued_root, e1]
    · split at h
      · exact State.finish_root _ _ _ _ _ (e1 ▸ hquiet s1) _ h
      · split at h
        · cases h; simp only [State.onLate_root]
        · exact State.finish_root _ _ _ _ _ (e1 ▸ hbody s1 _) _ h

theorem issue_root (e : Engine) (y : BitVec 2) (srcs : List Reg) (s : State) (body : State → ℕ → Effect) (hbody : ∀ x0 x1,
    (body x0 x1).Keeps x0.root) (o9 : State) (hr : issue e y srcs s body = .next o9) : o9.root = s.root := by
  unfold issue at hr; refine issueWith_root _ _ _ _ _ _ ?_ (fun s t => ?_) _ hr <;> grind -lia -ring -linarith -order -ac
      [State.root, Effect.Keeps, CmdEnd.Keeps, ofChk, Got.then, foldl_root]

theorem issuePre_root (bad : Option ℕ) (e : Engine) (y : BitVec 2) (srcs : List Reg) (s : State) (body : State → ℕ → Effect)
    (hbody : ∀ x0 x1,
    (body x0 x1).Keeps x0.root) (o9 : State) (hr : issuePre bad e y srcs s body = .next o9) : o9.root = s.root := by
  have h := hr
  clear hr
  unfold issuePre at h
  split at h
  · exact issue_root _ _ _ _ _ (fun s t => keeps_trap _ _ _ _) _ h
  · exact issue_root _ _ _ _ _ hbody _ h

@[simp] theorem State.waitRecord_root (s : State) (kind setter object : ℕ) : (State.waitRecord s kind setter object).root =
    s.root := by
  unfold State.waitRecord; simp only [apply_ite State.root, ite_self, root_mk, root_fold, foldl_root, implies_true,
      State.trace_root]

@[simp] theorem State.useToken_root (s : State) : (State.useToken s).root = s.root := by
  unfold State.useToken; simp only [apply_ite State.root, ite_self, root_mk, root_fold, foldl_root, implies_true, State.onMe_root]

@[simp] theorem State.predicate_root (s : State) (p : BitVec 3) (b : Bool) (t : ℕ) : (State.predicate s p b t).root = s.root := by
  unfold State.predicate; simp only [apply_ite State.root, ite_self, root_mk, root_fold, foldl_root, implies_true,
      State.result_root]

theorem State.queuePop_root (s : State) (e : Engine) (q : BitVec 4) (w9) (o9 : State) (hr : State.queuePop s e q = .ok w9 o9) :
    o9.root = s.root := by
  unfold State.queuePop at hr; dsimp only at hr; (repeat' split at hr) <;> (try cases hr) <;>
    repeat first
      | with_reducible rfl
      | assumption
      | (simp only [apply_ite State.root, ite_self, root_mk, root_fold, foldl_root, implies_true, State.onMe_root]; done)
      | simp only [apply_ite State.root, ite_self, root_mk, root_fold, foldl_root, implies_true, State.onMe_root]

theorem State.queuePeek_root (s : State) (e : Engine) (q : BitVec 4) (w9) (o9 : State) (hr : State.queuePeek s e q = .ok w9 o9) :
    o9.root = s.root := by
  unfold State.queuePeek at hr; (repeat' split at hr) <;> (try cases hr) <;>
    repeat first
      | with_reducible rfl
      | assumption
      | (simp only [apply_ite State.root, ite_self, root_mk, root_fold, foldl_root, implies_true]; done)
      | rw [State.queuePop_root (hr := by assumption)]
      | simp only [apply_ite State.root, ite_self, root_mk, root_fold, foldl_root, implies_true]

theorem State.queuePush_root (s : State) (e : Engine) (q : BitVec 4) (v : BitVec 64) (w9) (o9 : State) (hr : State.queuePush s e
    q v = .ok w9 o9) : o9.root = s.root := by
  unfold State.queuePush at hr; dsimp only at hr; (repeat' split at hr) <;> (try cases hr) <;>
    repeat first
      | with_reducible rfl
      | assumption
      | (simp only [apply_ite State.root, ite_self, root_mk, root_fold, foldl_root, implies_true, State.onMe_root]; done)
      | simp only [apply_ite State.root, ite_self, root_mk, root_fold, foldl_root, implies_true, State.onMe_root]

theorem State.streamPop_root (s : State) (e : Engine) (z : BitVec 4) (w9) (o9 : State) (hr : State.streamPop s e z = .ok w9 o9) :
    o9.root = s.root := by
  unfold State.streamPop at hr; dsimp only at hr; (repeat' split at hr) <;> (try cases hr) <;>
    repeat first
      | with_reducible rfl
      | assumption
      | (simp only [apply_ite State.root, ite_self, root_mk, root_fold, foldl_root, implies_true, State.onMe_root]; done)
      | simp only [apply_ite State.root, ite_self, root_mk, root_fold, foldl_root, implies_true, State.onMe_root]

theorem State.streamPush_root (s : State) (z : BitVec 4) (v : VReg) (w9) (o9 : State) (hr : State.streamPush s z v = .ok w9 o9) :
    o9.root = s.root := by
  unfold State.streamPush at hr; dsimp only at hr; (repeat' split at hr) <;> (try cases hr) <;>
    repeat first
      | with_reducible rfl
      | assumption
      | (simp only [apply_ite State.root, ite_self, root_mk, root_fold, foldl_root, implies_true, State.onMe_root]; done)
      | simp only [apply_ite State.root, ite_self, root_mk, root_fold, foldl_root, implies_true, State.onMe_root]

theorem State.vsrc_root (s : State) (zq : Bool) (b : BitVec 5) (wide : Bool) (w9) (o9 : State) (hr : State.vsrc s zq b wide = .ok
    w9 o9) : o9.root = s.root := by
  have h := hr
  clear hr
  unfold State.vsrc at h
  split at h
  · dsimp only at h
    split at h
    · cases hq : s.queuePop .v (b.setWidth 4) with
      | ok a u =>
        rw [hq] at h; dsimp only at h
        have e := State.queuePop_root _ _ _ _ _ hq
        injection h with h1 h2
        rw [← h2]; exact e
      | wait => rw [hq] at h; dsimp only at h; injection h
      | trap c va => rw [hq] at h; dsimp only at h; injection h
    · exact State.streamPop_root _ _ _ _ _ h
  · injection h with h1 h2; rw [h2]

end Sys2Proof.Machine
end

