-- ==== Sys2Proof/Laws/RootNear.lean ====
section
/-! SUPPORT. What leaves the boot record, the part and PCAP alone: the items of memory, commands, scalars and control. Each lemma says it of one definition. -/

set_option linter.all false

namespace Sys2Proof.Machine

@[simp] theorem State.onBar_root (s : State) (ctx bar : ℕ) (f : Barrier → Barrier) : (State.onBar s ctx bar f).root = s.root := by
  unfold State.onBar; simp only [apply_ite State.root, ite_self, root_mk, root_fold, foldl_root, implies_true, State.onCtx_root]

@[simp] theorem State.stamp_root (s : State) (ctx bar : ℕ) (b : Barrier) (x : Episode) : (State.stamp s ctx bar b x).root =
    s.root := by
  unfold State.stamp; simp only [apply_ite State.root, ite_self, root_mk, root_fold, foldl_root, implies_true, State.onBar_root,
      State.sendQp_root]

@[simp] theorem State.tellRelease_root (s : State) (ctx bar num : ℕ) (b : Barrier) : (State.tellRelease s ctx bar num b).root =
    s.root := by
  unfold State.tellRelease; simp only [apply_ite State.root, ite_self, root_mk, root_fold, foldl_root, implies_true,
      State.ctrl_root]

@[simp] theorem State.localRelease_root (s : State) (ctx bar num : ℕ) : (State.localRelease s ctx bar num).root = s.root := by
  unfold State.localRelease; simp only [apply_ite State.root, ite_self, root_mk, root_fold, foldl_root, implies_true,
      State.barResult_root, State.onBar_root]

@[simp] theorem State.releaseEpisode_root (s : State) (ctx bar num : ℕ) (b : Barrier) : (State.releaseEpisode s ctx bar num
    b).root = s.root := by
  unfold State.releaseEpisode; simp only [apply_ite State.root, ite_self, root_mk, root_fold, foldl_root, implies_true,
      State.tellRelease_root, State.localRelease_root]

@[simp] theorem State.barEval_root (s : State) (ctx bar : ℕ) : (State.barEval s ctx bar).root = s.root := by
  unfold State.barEval; (repeat' split) <;> simp_all [apply_ite State.root, ite_self, root_mk, root_fold, foldl_root,
      implies_true, State.onBar_root, State.stamp_root, State.releaseEpisode_root]

@[simp] theorem State.barJoin_root (s : State) (bar : ℕ) (b : Barrier) (bytes : BitVec 64) : (State.barJoin s bar b bytes).root =
    s.root := by
  unfold State.barJoin; simp only [apply_ite State.root, ite_self, root_mk, root_fold, foldl_root, implies_true,
      State.newTag_root, State.onMe_root]

@[simp] theorem State.onJoin_root (s : State) (tag : ℕ) (f : Joined → Joined) : (State.onJoin s tag f).root = s.root := by
  unfold State.onJoin; simp only [apply_ite State.root, ite_self, root_mk, root_fold, foldl_root, implies_true,
      State.mapGroups_root]

@[simp] theorem State.performJoin_root (s : State) (i : Ident) (b : Barrier) (j : Joined) : (State.performJoin s i b j).root =
    s.root := by
  unfold State.performJoin; simp only [apply_ite State.root, ite_self, root_mk, root_fold, foldl_root, implies_true,
      State.barEval_root, State.onJoin_root, State.onBar_root, State.ctrl_root]

@[simp] theorem State.noteJoins_root (s : State) : (State.noteJoins s).root = s.root := by
  unfold State.noteJoins; grind -lia -ring -linarith -order -ac [State.root, Effect.Keeps, CmdEnd.Keeps, ofChk, Got.then,
      foldl_root, State.performJoin_root]

@[simp] theorem State.barArrive_root (s : State) (ctx bar key goal bytes : ℕ) : (State.barArrive s ctx bar key goal bytes).root =
    s.root := by
  unfold State.barArrive; (repeat' split) <;> simp_all [apply_ite State.root, ite_self, root_mk, root_fold, foldl_root,
      implies_true, State.barEval_root, State.onBar_root, State.ctrl_root]

@[simp] theorem State.lateResult_root (s : State) (r : Reg) (v : Val) (land : ℕ) (buf : Option (BitVec 8)) (req interval : Option
    ℕ) : (State.lateResult s r v land buf req interval).root = s.root := by
  unfold State.lateResult; simp only [apply_ite State.root, ite_self, root_mk, root_fold, foldl_root, implies_true,
      State.onMe_root]

@[simp] theorem State.tally_root (s : State) (e : PEntry) (va size : ℕ) : (State.tally s e va size).root = s.root := by
  unfold State.tally; simp only [apply_ite State.root, ite_self, root_mk, root_fold, foldl_root, implies_true, State.onMe_root,
      State.touch_root]

@[simp] theorem State.loadFrom_root (s : State) (r : Reg) (m la va size : ℕ) (signed : Bool) (land : ℕ) : (State.loadFrom s r m
    la va size signed land).root = s.root := by
  unfold State.loadFrom; simp only [apply_ite State.root, ite_self, root_mk, root_fold, foldl_root, implies_true,
      State.lateResult_root, State.forward_root]

theorem State.loadPage_root (s : State) (r : Reg) (hd : Handle) (va size : ℕ) (signed : Bool) (land : ℕ) : (State.loadPage s r hd
    va size signed land).Keeps s.root := by
  unfold State.loadPage;
    repeat' first
      | exact keeps_trap _ _ _ _
      | exact keeps_wait _
      | assumption
      | (refine ofChk_keeps _ _ _ fun _ => ?_)
      | (refine then_keeps _ _ _ fun _ _ _ => ?_)
      | (simp only [ckeeps_done, ckeeps_later, keeps_done, keeps_branch, keeps_waitWith, keeps_trapWith, apply_ite State.root,
          ite_self, root_mk, root_fold, foldl_root, implies_true, State.onMe_root, State.lateResult_root, State.tally_root,
          State.loadFrom_root]; done)
      | split
      | simp only [ckeeps_done, ckeeps_later, keeps_done, keeps_branch, keeps_waitWith, keeps_trapWith, apply_ite State.root,
          ite_self, root_mk, root_fold, foldl_root, implies_true, State.onMe_root, State.lateResult_root, State.tally_root,
          State.loadFrom_root]
      | split
      | intro _
      | dsimp only

theorem execLd_root (y : BitVec 2) (t b : BitVec 5) (h : BitVec 1) (w : BitVec 3) (i : BitVec 1) (x : BitVec 5) (s o9 : State)
    (hr : execLd y t b h w i x s = .next o9) : o9.root = s.root := by
  unfold execLd at hr; refine issuePre_root (hr := hr) (hbody := fun _ _ => ?_) ..; all_goals
    repeat' first
      | exact keeps_trap _ _ _ _
      | exact keeps_wait _
      | assumption
      | (refine ofChk_keeps _ _ _ fun _ => ?_)
      | (refine then_keeps _ _ _ fun _ _ _ => ?_)
      | (simp only [ckeeps_done, ckeeps_later, keeps_done, keeps_branch, keeps_waitWith, keeps_trapWith, apply_ite State.root,
          ite_self, root_mk, root_fold, foldl_root, implies_true, State.lateResult_root]; done)
      | apply State.loadPage_root
      | (rw [issuePre_root (hr := by assumption)]; with_reducible rfl)
      | (rw [← issuePre_root (hr := by assumption)]; apply State.loadPage_root)
      | split
      | simp only [ckeeps_done, ckeeps_later, keeps_done, keeps_branch, keeps_waitWith, keeps_trapWith, apply_ite State.root,
          ite_self, root_mk, root_fold, foldl_root, implies_true, State.lateResult_root]
      | rw [issuePre_root (hr := by assumption)]
      | split
      | intro _
      | dsimp only

@[simp] theorem State.genDrop_root (s : State) (n : ℕ) : (State.genDrop s n).root = s.root := by
  unfold State.genDrop; simp only [apply_ite State.root, ite_self, root_mk, root_fold, foldl_root, implies_true, State.onCtx_root]

theorem State.storePage_root (s : State) (hd : Handle) (va : ℕ) (bs : List Byte) : (State.storePage s hd va bs).Keeps s.root := by
  unfold State.storePage;
    repeat' first
      | exact keeps_trap _ _ _ _
      | exact keeps_wait _
      | assumption
      | (refine ofChk_keeps _ _ _ fun _ => ?_)
      | (refine then_keeps _ _ _ fun _ _ _ => ?_)
      | (simp only [ckeeps_done, ckeeps_later, keeps_done, keeps_branch, keeps_waitWith, keeps_trapWith, apply_ite State.root,
          ite_self, root_mk, root_fold, foldl_root, implies_true, State.genDrop_root, State.writePage_root,
          State.tally_root]; done)
      | split
      | simp only [ckeeps_done, ckeeps_later, keeps_done, keeps_branch, keeps_waitWith, keeps_trapWith, apply_ite State.root,
          ite_self, root_mk, root_fold, foldl_root, implies_true, State.genDrop_root, State.writePage_root, State.tally_root]
      | split
      | intro _
      | dsimp only

@[simp] theorem State.storeSpad_root (s : State) (core a : ℕ) (bs : List Byte) : (State.storeSpad s core a bs).root = s.root := by
  unfold State.storeSpad; simp only [apply_ite State.root, ite_self, root_mk, root_fold, foldl_root, implies_true,
      State.onCore_root]

theorem execSt_root (y : BitVec 2) (t b : BitVec 5) (h : BitVec 1) (w : BitVec 3) (i : BitVec 1) (x : BitVec 5) (s o9 : State)
    (hr : execSt y t b h w i x s = .next o9) : o9.root = s.root := by
  have h := hr
  clear hr
  unfold execSt at h
  refine issuePre_root (hr := h) (hbody := fun s t => ?_) ..
  refine ofChk_keeps _ _ _ fun p => ?_
  split
  · simp only [keeps_done, State.storeSpad_root]
  · apply State.storePage_root

theorem execXlate_root (y : BitVec 2) (d : BitVec 4) (a : BitVec 5) (s o9 : State) (hr : execXlate y d a s = .next o9) : o9.root
    = s.root := by
  unfold execXlate at hr; refine issue_root _ _ _ _ _ (fun s t => ?_) _ hr <;> grind -lia -ring -linarith -order -ac [State.root,
      Effect.Keeps, CmdEnd.Keeps, ofChk, Got.then, foldl_root, State.result_root]

theorem execHdrop_root (y : BitVec 2) (d : BitVec 4) (s o9 : State) (hr : execHdrop y d s = .next o9) : o9.root = s.root := by
  unfold execHdrop at hr; refine issue_root _ _ _ _ _ (fun s t => ?_) _ hr <;> grind -lia -ring -linarith -order -ac [State.root,
      Effect.Keeps, CmdEnd.Keeps, ofChk, Got.then, foldl_root, State.result_root]

theorem execHchk_root (y : BitVec 2) (d : BitVec 5) (a : BitVec 4) (s o9 : State) (hr : execHchk y d a s = .next o9) : o9.root =
    s.root := by
  unfold execHchk at hr; refine issue_root _ _ _ _ _ (fun s t => ?_) _ hr <;> grind -lia -ring -linarith -order -ac [State.root,
      Effect.Keeps, CmdEnd.Keeps, ofChk, Got.then, foldl_root, State.result_root]

@[simp] theorem State.sealOne_root (s : State) (ctx : ℕ) (p : ℕ × PEntry) : (State.sealOne s ctx p).root = s.root := by
  unfold State.sealOne; simp only [apply_ite State.root, ite_self, root_mk, root_fold, foldl_root, implies_true,
      State.dropHandles_root, State.setPageSt_root]

@[simp] theorem State.unsealOne_root (s : State) (ctx : ℕ) (p : ℕ × PEntry) : (State.unsealOne s ctx p).root = s.root := by
  unfold State.unsealOne; dsimp only; (repeat' split) <;>
    repeat first
      | with_reducible rfl
      | assumption
      | (simp only [apply_ite State.root, ite_self, root_mk, root_fold, foldl_root, implies_true, State.dropHandles_root,
          State.notify_root, State.putW0_root, State.setPageSt_root]; done)
      | simp only [apply_ite State.root, ite_self, root_mk, root_fold, foldl_root, implies_true, State.dropHandles_root,
          State.notify_root, State.putW0_root, State.setPageSt_root]

@[simp] theorem State.startSealing_root (s : State) (thaw : Bool) (ctx : ℕ) (p : ℕ × PEntry) : (State.startSealing s thaw ctx
    p).root = s.root := by
  unfold State.startSealing; simp only [apply_ite State.root, ite_self, root_mk, root_fold, foldl_root, implies_true,
      State.newTag_root, State.ctrl_root]

@[simp] theorem State.endSealings_root (s : State) (l : List Sealing) : (State.endSealings s l).root = s.root := by
  unfold State.endSealings; simp only [apply_ite State.root, ite_self, root_mk, root_fold, foldl_root, implies_true]

theorem execSealPages_root (y : BitVec 2) (d a : BitVec 5) (s o9 : State) (hr : execSealPages y d a s = .next o9) : o9.root =
    s.root := by
  unfold execSealPages at hr; refine issue_root _ _ _ _ _ (fun s t => ?_) _ hr <;>
    repeat' first
      | exact keeps_trap _ _ _ _
      | exact keeps_wait _
      | assumption
      | (refine ofChk_keeps _ _ _ fun _ => ?_)
      | (refine then_keeps _ _ _ fun _ _ _ => ?_)
      | (simp only [ckeeps_done, ckeeps_later, keeps_done, keeps_branch, keeps_waitWith, keeps_trapWith, apply_ite State.root,
          ite_self, root_mk, root_fold, foldl_root, implies_true, State.startSealing_root, State.endSealings_root,
          State.sealOne_root]; done)
      | split
      | simp only [ckeeps_done, ckeeps_later, keeps_done, keeps_branch, keeps_waitWith, keeps_trapWith, apply_ite State.root,
          ite_self, root_mk, root_fold, foldl_root, implies_true, State.startSealing_root, State.endSealings_root,
          State.sealOne_root]
      | split
      | intro _
      | dsimp only

theorem execUnsealPages_root (y : BitVec 2) (d a : BitVec 5) (s o9 : State) (hr : execUnsealPages y d a s = .next o9) : o9.root =
    s.root := by
  unfold execUnsealPages at hr; refine issue_root _ _ _ _ _ (fun s t => ?_) _ hr <;>
    repeat' first
      | exact keeps_trap _ _ _ _
      | exact keeps_wait _
      | assumption
      | (refine ofChk_keeps _ _ _ fun _ => ?_)
      | (refine then_keeps _ _ _ fun _ _ _ => ?_)
      | (simp only [ckeeps_done, ckeeps_later, keeps_done, keeps_branch, keeps_waitWith, keeps_trapWith, apply_ite State.root,
          ite_self, root_mk, root_fold, foldl_root, implies_true, State.unsealOne_root, State.startSealing_root,
          State.endSealings_root]; done)
      | split
      | simp only [ckeeps_done, ckeeps_later, keeps_done, keeps_branch, keeps_waitWith, keeps_trapWith, apply_ite State.root,
          ite_self, root_mk, root_fold, foldl_root, implies_true, State.unsealOne_root, State.startSealing_root,
          State.endSealings_root]
      | split
      | intro _
      | dsimp only

@[simp] theorem State.sealArrive_root (s : State) (pk : Packet) : (State.sealArrive s pk).root = s.root := by
  unfold State.sealArrive; dsimp only; (repeat' split) <;>
    repeat first
      | with_reducible rfl
      | assumption
      | (simp only [apply_ite State.root, ite_self, root_mk, root_fold, foldl_root, implies_true, State.ctrl_root,
          State.dropHandles_root]; done)
      | simp only [apply_ite State.root, ite_self, root_mk, root_fold, foldl_root, implies_true, State.ctrl_root,
          State.dropHandles_root]

@[simp] theorem State.thawArrive_root (s : State) (pk : Packet) : (State.thawArrive s pk).root = s.root := by
  unfold State.thawArrive; dsimp only; (repeat' split) <;>
    repeat first
      | with_reducible rfl
      | assumption
      | (simp only [apply_ite State.root, ite_self, root_mk, root_fold, foldl_root, implies_true, State.unsealOne_root,
          State.ctrl_root]; done)
      | simp only [apply_ite State.root, ite_self, root_mk, root_fold, foldl_root, implies_true, State.unsealOne_root,
          State.ctrl_root]

@[simp] theorem State.settledArrive_root (s : State) (pk : Packet) : (State.settledArrive s pk).root = s.root := by
  unfold State.settledArrive; simp only [apply_ite State.root, ite_self, root_mk, root_fold, foldl_root, implies_true]

@[simp] theorem State.noteSealings_root (s : State) : (State.noteSealings s).root = s.root := by
  unfold State.noteSealings; grind -lia -ring -linarith -order -ac [State.root, Effect.Keeps, CmdEnd.Keeps, ofChk, Got.then,
      foldl_root, State.ctrl_root, State.endSealings_root, State.sealOne_root]

theorem execBind_root (y : BitVec 2) (a : BitVec 5) (k : BitVec 10) (s o9 : State) (hr : execBind y a k s = .next o9) : o9.root =
    s.root := by
  unfold execBind at hr; refine issue_root _ _ _ _ _ (fun s t => ?_) _ hr <;>
    repeat' first
      | exact keeps_trap _ _ _ _
      | exact keeps_wait _
      | assumption
      | (refine ofChk_keeps _ _ _ fun _ => ?_)
      | (refine then_keeps _ _ _ fun _ _ _ => ?_)
      | (simp only [ckeeps_done, ckeeps_later, keeps_done, keeps_branch, keeps_waitWith, keeps_trapWith, apply_ite State.root,
          ite_self, root_mk, root_fold, foldl_root, implies_true, State.onCtx_root]; done)
      | split
      | simp only [ckeeps_done, ckeeps_later, keeps_done, keeps_branch, keeps_waitWith, keeps_trapWith, apply_ite State.root,
          ite_self, root_mk, root_fold, foldl_root, implies_true, State.onCtx_root]
      | split
      | intro _
      | dsimp only

theorem execUnbind_root (y : BitVec 2) (k : BitVec 10) (s o9 : State) (hr : execUnbind y k s = .next o9) : o9.root = s.root := by
  unfold execUnbind at hr; refine issue_root _ _ _ _ _ (fun s t => ?_) _ hr <;> grind -lia -ring -linarith -order -ac
      [State.root, Effect.Keeps, CmdEnd.Keeps, ofChk, Got.then, foldl_root, State.onCtx_root]

theorem State.acqHere_root (s : State) (o : SyncObj) (p : BitVec 3) (ex : Bool) (t : ℕ) : (State.acqHere s o p ex t).Keeps s.root
    := by
  unfold State.acqHere; grind -lia -ring -linarith -order -ac [State.root, Effect.Keeps, CmdEnd.Keeps, ofChk, Got.then,
      foldl_root, State.predicate_root, State.waitRecord_root, State.useToken_root, State.putObj_root, State.grant_root]

theorem State.acqThere_root (s : State) (key : ℕ) (p : BitVec 3) (ex : Bool) (t : ℕ) : (State.acqThere s key p ex t).Keeps s.root
    := by
  unfold State.acqThere; grind -lia -ring -linarith -order -ac [State.root, Effect.Keeps, CmdEnd.Keeps, ofChk, Got.then,
      foldl_root, State.predicate_root, State.waitRecord_root, State.useToken_root, State.ask_root, State.dropAsk_root]

theorem execAcq_root (y : BitVec 2) (d : BitVec 5) (p : BitVec 3) (x : BitVec 1) (s o9 : State) (hr : execAcq y d p x s = .next
    o9) : o9.root = s.root := by
  unfold execAcq at hr; refine issue_root _ _ _ _ _ (fun s t => ?_) _ hr <;>
    repeat' first
      | exact keeps_trap _ _ _ _
      | exact keeps_wait _
      | assumption
      | (refine ofChk_keeps _ _ _ fun _ => ?_)
      | (refine then_keeps _ _ _ fun _ _ _ => ?_)
      | (simp only [ckeeps_done, ckeeps_later, keeps_done, keeps_branch, keeps_waitWith, keeps_trapWith, apply_ite State.root,
          ite_self, root_mk, root_fold, foldl_root, implies_true]; done)
      | apply State.acqHere_root
      | apply State.acqThere_root
      | split
      | simp only [ckeeps_done, ckeeps_later, keeps_done, keeps_branch, keeps_waitWith, keeps_trapWith, apply_ite State.root,
          ite_self, root_mk, root_fold, foldl_root, implies_true]
      | split
      | intro _
      | dsimp only

theorem State.relOf_root (s : State) (key : ℕ) (o9 : State) (hr : State.relOf s key = some o9) : o9.root = s.root := by
  have h := hr
  clear hr
  unfold State.relOf at h
  dsimp only at h
  split at h
  · split at h
    · cases h; simp only [State.letGo_root]
    · cases h
  · obtain ⟨a, _, ha⟩ := Option.map_eq_some_iff.1 h
    cases ha; simp only [State.dropAsk_root]

theorem execRel_root (y : BitVec 2) (d : BitVec 5) (s o9 : State) (hr : execRel y d s = .next o9) : o9.root = s.root := by
  have h := hr
  clear hr
  unfold execRel at h
  refine issue_root _ _ _ _ _ (fun s t => ?_) _ h
  split
  · exact keeps_trap _ _ _ _
  · rename_i u e
    obtain ⟨k, _, hk⟩ := Option.bind_eq_some_iff.1 e
    exact ite_keeps _ _ _ (keeps_wait _) ((keeps_done _ _).2 (State.relOf_root _ _ _ hk))

theorem execFence_root (y : BitVec 2) (k : BitVec 3) (s o9 : State) (hr : execFence y k s = .next o9) : o9.root = s.root := by
  unfold execFence at hr; refine issuePre_root (hr := hr) (hbody := fun _ _ => ?_) ..; all_goals
    repeat' first
      | exact keeps_trap _ _ _ _
      | exact keeps_wait _
      | assumption
      | (refine ofChk_keeps _ _ _ fun _ => ?_)
      | (refine then_keeps _ _ _ fun _ _ _ => ?_)
      | (simp only [ckeeps_done, ckeeps_later, keeps_done, keeps_branch, keeps_waitWith, keeps_trapWith, apply_ite State.root,
          ite_self, root_mk, root_fold, foldl_root, implies_true]; done)
      | (rw [issuePre_root (hr := by assumption)]; with_reducible rfl)
      | split
      | simp only [ckeeps_done, ckeeps_later, keeps_done, keeps_branch, keeps_waitWith, keeps_trapWith, apply_ite State.root,
          ite_self, root_mk, root_fold, foldl_root, implies_true]
      | rw [issuePre_root (hr := by assumption)]
      | split
      | intro _
      | dsimp only

theorem execTlook_root (y : BitVec 2) (d a : BitVec 5) (s o9 : State) (hr : execTlook y d a s = .next o9) : o9.root = s.root := by
  unfold execTlook at hr; refine issue_root _ _ _ _ _ (fun s t => ?_) _ hr <;> grind -lia -ring -linarith -order -ac [State.root,
      Effect.Keeps, CmdEnd.Keeps, ofChk, Got.then, foldl_root, State.result_root]

theorem execTset_root (y : BitVec 2) (d a b : BitVec 5) (z : BitVec 3) (s o9 : State) (hr : execTset y d a b z s = .next o9) :
    o9.root = s.root := by
  unfold execTset at hr; refine issue_root _ _ _ _ _ (fun s t => ?_) _ hr <;>
    repeat' first
      | exact keeps_trap _ _ _ _
      | exact keeps_wait _
      | assumption
      | (refine ofChk_keeps _ _ _ fun _ => ?_)
      | (refine then_keeps _ _ _ fun _ _ _ => ?_)
      | (simp only [ckeeps_done, ckeeps_later, keeps_done, keeps_branch, keeps_waitWith, keeps_trapWith, apply_ite State.root,
          ite_self, root_mk, root_fold, foldl_root, implies_true, State.onMe_root]; done)
      | split
      | simp only [ckeeps_done, ckeeps_later, keeps_done, keeps_branch, keeps_waitWith, keeps_trapWith, apply_ite State.root,
          ite_self, root_mk, root_fold, foldl_root, implies_true, State.onMe_root]
      | split
      | intro _
      | dsimp only

theorem execTclr_root (y : BitVec 2) (d : BitVec 5) (l : BitVec 1) (s o9 : State) (hr : execTclr y d l s = .next o9) : o9.root =
    s.root := by
  unfold execTclr at hr; refine issue_root _ _ _ _ _ (fun s t => ?_) _ hr <;> grind -lia -ring -linarith -order -ac [State.root,
      Effect.Keeps, CmdEnd.Keeps, ofChk, Got.then, foldl_root, State.onMe_root]

@[simp] theorem State.atomicResult_root (s : State) (o : AtOp) (d : BitVec 5) (p : BitVec 3) (old land : ℕ) (added : Bool) (buf :
    Option (BitVec 8)) (req interval : Option ℕ) : (State.atomicResult s o d p old land added buf req interval).root = s.root :=
    by
  unfold State.atomicResult; simp only [apply_ite State.root, ite_self, root_mk, root_fold, foldl_root, implies_true,
      State.lateResult_root]

theorem State.deferAtomic_root (s : State) (pl : AtPlace) (o : AtOp) (d : BitVec 5) (p : BitVec 3) (land : ℕ) :
    (State.deferAtomic s pl o d p land).Keeps s.root := by
  unfold State.deferAtomic; grind -lia -ring -linarith -order -ac [State.root, Effect.Keeps, CmdEnd.Keeps, ofChk, Got.then,
      foldl_root, State.newTag_root, State.atomicResult_root]

@[simp] theorem State.performAtomic_root (s : State) (pl : AtPlace) (frozen : Bool) (o : AtOp) (d : BitVec 5) (p : BitVec 3)
    (land : ℕ) (buf : Option (BitVec 8)) : (State.performAtomic s pl frozen o d p land buf).root = s.root := by
  unfold State.performAtomic; simp only [apply_ite State.root, ite_self, root_mk, root_fold, foldl_root, implies_true,
      State.placePut_root, State.atomicResult_root]

@[simp] theorem State.forwardAtomic_root (s : State) (m la : ℕ) (w : BitVec 2) (o : AtOp) (d : BitVec 5) (p : BitVec 3) (land va
    : ℕ) : (State.forwardAtomic s m la w o d p land va).root = s.root := by
  unfold State.forwardAtomic; simp only [apply_ite State.root, ite_self, root_mk, root_fold, foldl_root, implies_true,
      State.atomicResult_root, State.forward_root]

@[simp] theorem State.holdAtomic_root (s : State) (pl : AtPlace) (o : AtOp) (d : BitVec 5) (p : BitVec 3) (land va : ℕ) :
    (State.holdAtomic s pl o d p land va).root = s.root := by
  unfold State.holdAtomic; simp only [apply_ite State.root, ite_self, root_mk, root_fold, foldl_root, implies_true,
      State.atomicResult_root, State.hold_root]

theorem State.atomicPage_root (s : State) (hd : Handle) (va : ℕ) (w : BitVec 2) (o : AtOp) (d : BitVec 5) (p : BitVec 3) (land :
    ℕ) : (State.atomicPage s hd va w o d p land).Keeps s.root := by
  unfold State.atomicPage
  dsimp only
  split
  · exact keeps_trap _ _ _ _
  · refine ofChk_keeps _ _ _ fun _ => ?_
    split
    · rw [← State.tally_root s]
      apply State.deferAtomic_root
    · split
      · simp only [keeps_done, State.holdAtomic_root, State.tally_root]
      · split
        · simp only [keeps_done, State.forwardAtomic_root, State.tally_root]
        · split <;> simp only [keeps_done, State.performAtomic_root, State.forwardAtomic_root, State.tally_root]

theorem atomic_root (op : ℕ) (y : BitVec 2) (t b : BitVec 5) (h : BitVec 1) (w : BitVec 2) (k : BitVec 3) (sat : Bool) (p :
    BitVec 3) (s o9 : State) (hr : atomic op y t b h w k sat p s = .next o9) : o9.root = s.root := by
  unfold atomic at hr; refine issuePre_root (hr := hr) (hbody := fun _ _ => ?_) ..; all_goals
    repeat' first
      | exact keeps_trap _ _ _ _
      | exact keeps_wait _
      | assumption
      | (refine ofChk_keeps _ _ _ fun _ => ?_)
      | (refine then_keeps _ _ _ fun _ _ _ => ?_)
      | (simp only [ckeeps_done, ckeeps_later, keeps_done, keeps_branch, keeps_waitWith, keeps_trapWith, apply_ite State.root,
          ite_self, root_mk, root_fold, foldl_root, implies_true, State.performAtomic_root]; done)
      | apply State.deferAtomic_root
      | apply State.atomicPage_root
      | (rw [issuePre_root (hr := by assumption)]; with_reducible rfl)
      | (rw [← issuePre_root (hr := by assumption)]; apply State.deferAtomic_root)
      | (rw [← issuePre_root (hr := by assumption)]; apply State.atomicPage_root)
      | split
      | simp only [ckeeps_done, ckeeps_later, keeps_done, keeps_branch, keeps_waitWith, keeps_trapWith, apply_ite State.root,
          ite_self, root_mk, root_fold, foldl_root, implies_true, State.performAtomic_root]
      | rw [issuePre_root (hr := by assumption)]
      | split
      | intro _
      | dsimp only

theorem execAadd_root (y : BitVec 2) (t b : BitVec 5) (h : BitVec 1) (w : BitVec 2) (k : BitVec 3) (q : BitVec 1) (s o9 : State)
    (hr : execAadd y t b h w k q s = .next o9) : o9.root = s.root := by
  exact atomic_root (hr := hr) ..

theorem execAxchg_root (y : BitVec 2) (t b : BitVec 5) (h : BitVec 1) (w : BitVec 2) (k : BitVec 3) (s o9 : State) (hr :
    execAxchg y t b h w k s = .next o9) : o9.root = s.root := by
  exact atomic_root (hr := hr) ..

theorem execAcas_root (y : BitVec 2) (t b : BitVec 5) (h : BitVec 1) (w : BitVec 2) (k : BitVec 3) (s o9 : State) (hr : execAcas
    y t b h w k s = .next o9) : o9.root = s.root := by
  exact atomic_root (hr := hr) ..

theorem execAmin_root (y : BitVec 2) (t b : BitVec 5) (h : BitVec 1) (w : BitVec 2) (k : BitVec 3) (s o9 : State) (hr : execAmin
    y t b h w k s = .next o9) : o9.root = s.root := by
  exact atomic_root (hr := hr) ..

theorem execAmax_root (y : BitVec 2) (t b : BitVec 5) (h : BitVec 1) (w : BitVec 2) (k : BitVec 3) (s o9 : State) (hr : execAmax
    y t b h w k s = .next o9) : o9.root = s.root := by
  exact atomic_root (hr := hr) ..

theorem execAand_root (y : BitVec 2) (t b : BitVec 5) (h : BitVec 1) (w : BitVec 2) (k : BitVec 3) (s o9 : State) (hr : execAand
    y t b h w k s = .next o9) : o9.root = s.root := by
  exact atomic_root (hr := hr) ..

theorem execAor_root (y : BitVec 2) (t b : BitVec 5) (h : BitVec 1) (w : BitVec 2) (k : BitVec 3) (s o9 : State) (hr : execAor y
    t b h w k s = .next o9) : o9.root = s.root := by
  exact atomic_root (hr := hr) ..

theorem execAxor_root (y : BitVec 2) (t b : BitVec 5) (h : BitVec 1) (w : BitVec 2) (k : BitVec 3) (s o9 : State) (hr : execAxor
    y t b h w k s = .next o9) : o9.root = s.root := by
  exact atomic_root (hr := hr) ..

theorem execAincw_root (y : BitVec 2) (t b : BitVec 5) (h : BitVec 1) (w : BitVec 2) (k : BitVec 3) (s o9 : State) (hr :
    execAincw y t b h w k s = .next o9) : o9.root = s.root := by
  exact atomic_root (hr := hr) ..

theorem execAfaddb_root (y : BitVec 2) (t b : BitVec 5) (h : BitVec 1) (w : BitVec 2) (k p : BitVec 3) (s o9 : State) (hr :
    execAfaddb y t b h w k p s = .next o9) : o9.root = s.root := by
  exact atomic_root (hr := hr) ..

theorem execAred_root (y : BitVec 2) (t b : BitVec 5) (k : BitVec 2) (s o9 : State) (hr : execAred y t b k s = .next o9) :
    o9.root = s.root := by
  unfold execAred at hr; refine issue_root _ _ _ _ _ (fun s t => ?_) _ hr <;>
    repeat' first
      | exact keeps_trap _ _ _ _
      | exact keeps_wait _
      | assumption
      | (refine ofChk_keeps _ _ _ fun _ => ?_)
      | (refine then_keeps _ _ _ fun _ _ _ => ?_)
      | (simp only [ckeeps_done, ckeeps_later, keeps_done, keeps_branch, keeps_waitWith, keeps_trapWith, apply_ite State.root,
          ite_self, root_mk, root_fold, foldl_root, implies_true, State.onMe_root]; done)
      | split
      | simp only [ckeeps_done, ckeeps_later, keeps_done, keeps_branch, keeps_waitWith, keeps_trapWith, apply_ite State.root,
          ite_self, root_mk, root_fold, foldl_root, implies_true, State.onMe_root]
      | split
      | intro _
      | dsimp only

theorem execAtclose_root (y : BitVec 2) (s o9 : State) (hr : execAtclose y s = .next o9) : o9.root = s.root := by
  unfold execAtclose at hr; refine issue_root _ _ _ _ _ (fun s t => ?_) _ hr <;> grind -lia -ring -linarith -order -ac
      [State.root, Effect.Keeps, CmdEnd.Keeps, ofChk, Got.then, foldl_root, State.closeInterval_root]

theorem execFset_root (y : BitVec 2) (n : BitVec 12) (s o9 : State) (hr : execFset y n s = .next o9) : o9.root = s.root := by
  unfold execFset at hr; refine issue_root _ _ _ _ _ (fun s t => ?_) _ hr <;> grind -lia -ring -linarith -order -ac [State.root,
      Effect.Keeps, CmdEnd.Keeps, ofChk, Got.then, foldl_root, State.onMe_root]

theorem execFclr_root (y : BitVec 2) (n : BitVec 12) (s o9 : State) (hr : execFclr y n s = .next o9) : o9.root = s.root := by
  unfold execFclr at hr; refine issue_root _ _ _ _ _ (fun s t => ?_) _ hr <;> grind -lia -ring -linarith -order -ac [State.root,
      Effect.Keeps, CmdEnd.Keeps, ofChk, Got.then, foldl_root, State.onMe_root]

@[simp] theorem State.fwaitStall_root (s : State) (n : ℕ) : (State.fwaitStall s n).root = s.root := by
  unfold State.fwaitStall; dsimp only; (repeat' split) <;>
    repeat first
      | with_reducible rfl
      | assumption
      | (simp only [apply_ite State.root, ite_self, root_mk, root_fold, foldl_root, implies_true, State.onMe_root]; done)
      | simp only [apply_ite State.root, ite_self, root_mk, root_fold, foldl_root, implies_true, State.onMe_root]

theorem execFwait_root (y : BitVec 2) (n : BitVec 12) (p : BitVec 3) (s o9 : State) (hr : execFwait y n p s = .next o9) : o9.root
    = s.root := by
  unfold execFwait at hr; refine issue_root _ _ _ _ _ (fun s t => ?_) _ hr <;> grind -lia -ring -linarith -order -ac [State.root,
      Effect.Keeps, CmdEnd.Keeps, ofChk, Got.then, foldl_root, State.predicate_root, State.waitRecord_root, State.useToken_root,
      State.onMe_root, State.fwaitStall_root]

theorem execFtest_root (y : BitVec 2) (n : BitVec 12) (p : BitVec 3) (s o9 : State) (hr : execFtest y n p s = .next o9) : o9.root
    = s.root := by
  unfold execFtest at hr; refine issue_root _ _ _ _ _ (fun s t => ?_) _ hr <;> grind -lia -ring -linarith -order -ac [State.root,
      Effect.Keeps, CmdEnd.Keeps, ofChk, Got.then, foldl_root, State.predicate_root]

theorem execBarjoin_root (y : BitVec 2) (n : BitVec 12) (a : BitVec 5) (s o9 : State) (hr : execBarjoin y n a s = .next o9) :
    o9.root = s.root := by
  unfold execBarjoin at hr; refine issue_root _ _ _ _ _ (fun s t => ?_) _ hr <;> grind -lia -ring -linarith -order -ac
      [State.root, Effect.Keeps, CmdEnd.Keeps, ofChk, Got.then, foldl_root, State.noteJoins_root, State.barJoin_root]

@[simp] theorem State.barReturn_root (s : State) (bar setter : ℕ) (closed : Bool) : (State.barReturn s bar setter closed).root =
    s.root := by
  unfold State.barReturn; simp only [apply_ite State.root, ite_self, root_mk, root_fold, foldl_root, implies_true,
      State.onMe_root, State.waitRecord_root, State.closeInterval_root]

theorem execBarwait_root (y : BitVec 2) (n : BitVec 12) (p : BitVec 3) (s o9 : State) (hr : execBarwait y n p s = .next o9) :
    o9.root = s.root := by
  unfold execBarwait at hr; refine issue_root _ _ _ _ _ (fun s t => ?_) _ hr <;> grind -lia -ring -linarith -order -ac
      [State.root, Effect.Keeps, CmdEnd.Keeps, ofChk, Got.then, foldl_root, State.predicate_root, State.barReturn_root,
      State.useToken_root, State.onMe_root]

@[simp] theorem State.askLine_root (s : State) (ag : Agent) (ctx : ℕ) (p : ℕ × ℕ) : (State.askLine s ag ctx p).root = s.root := by
  unfold State.askLine; dsimp only; (repeat' split) <;>
    repeat first
      | with_reducible rfl
      | assumption
      | (simp only [apply_ite State.root, ite_self, root_mk, root_fold, foldl_root, implies_true, State.forwardFor_root]; done)
      | simp only [apply_ite State.root, ite_self, root_mk, root_fold, foldl_root, implies_true, State.forwardFor_root]

@[simp] theorem State.countLine_root (s : State) (ag : Agent) (ctx va : ℕ) (f : Context → Context) : (State.countLine s ag ctx va
    f).root = s.root := by
  unfold State.countLine; simp only [apply_ite State.root, ite_self, root_mk, root_fold, foldl_root, implies_true,
      State.onCtx_root]

@[simp] theorem State.countRevoked_root (s : State) (ag : Agent) (ctx va : ℕ) : (State.countRevoked s ag ctx va).root = s.root :=
    by
  unfold State.countRevoked; simp only [apply_ite State.root, ite_self, root_mk, root_fold, foldl_root, implies_true,
      State.countLine_root]

@[simp] theorem State.countRead_root (s : State) (ag : Agent) (ctx : ℕ) (p : ℕ × ℕ) : (State.countRead s ag ctx p).root = s.root
    := by
  unfold State.countRead; (repeat' split) <;> simp_all [apply_ite State.root, ite_self, root_mk, root_fold, foldl_root,
      implies_true, State.countRevoked_root, State.touch_root]

@[simp] theorem State.gather_root (s : State) (ag : Agent) (l : Loc) (n : ℕ) : (State.gather s ag l n).2.root = s.root := by
  unfold State.gather; dsimp only; (repeat' split) <;>
    repeat first
      | with_reducible rfl
      | assumption
      | (simp only [apply_ite State.root, ite_self, root_mk, root_fold, foldl_root, implies_true, State.askLine_root]; done)
      | simp only [apply_ite State.root, ite_self, root_mk, root_fold, foldl_root, implies_true, State.askLine_root]

@[simp] theorem State.countRange_root (s : State) (ag : Agent) (l : Loc) (n : ℕ) : (State.countRange s ag l n).root = s.root := by
  unfold State.countRange; (repeat' split) <;> simp_all [apply_ite State.root, ite_self, root_mk, root_fold, foldl_root,
      implies_true, State.countRead_root]

@[simp] theorem State.dropLines_root (s : State) (ag : Agent) : (State.dropLines s ag).root = s.root := by
  unfold State.dropLines; simp only [apply_ite State.root, ite_self, root_mk, root_fold, foldl_root, implies_true]

@[simp] theorem State.writeLine_root (s : State) (ag : Agent) (ctx va : ℕ) (bs : List Byte) : (State.writeLine s ag ctx va
    bs).root = s.root := by
  unfold State.writeLine; (repeat' split) <;> simp_all [apply_ite State.root, ite_self, root_mk, root_fold, foldl_root,
      implies_true, State.countLine_root, State.countRevoked_root, State.writePageBy_root, State.touch_root]

@[simp] theorem writeLines_root (s : State) (ag : Agent) (ctx : ℕ) (a3 : List (ℕ × ℕ)) (a4 : List Byte) : (writeLines s ag ctx a3
    a4).root = s.root := by
  fun_induction writeLines <;> simp_all [apply_ite State.root, ite_self, root_mk, root_fold, foldl_root, implies_true]

@[simp] theorem State.locWrite_root (s : State) (ag : Agent) (own : ℕ) (l : Loc) (bs : List Byte) : (State.locWrite s ag own l
    bs).root = s.root := by
  unfold State.locWrite; dsimp only; (repeat' split) <;>
    repeat first
      | with_reducible rfl
      | assumption
      | (simp only [apply_ite State.root, ite_self, root_mk, root_fold, foldl_root, implies_true, writeLines_root,
          State.onCore_root]; done)
      | simp only [apply_ite State.root, ite_self, root_mk, root_fold, foldl_root, implies_true, writeLines_root,
          State.onCore_root]

@[simp] theorem State.locWriteAt_root (s : State) (ag : Agent) (own : ℕ) (l : Loc) (off : ℕ) (bs : List Byte) : (State.locWriteAt
    s ag own l off bs).root = s.root := by
  unfold State.locWriteAt; dsimp only; (repeat' split) <;>
    repeat first
      | with_reducible rfl
      | assumption
      | (simp only [apply_ite State.root, ite_self, root_mk, root_fold, foldl_root, implies_true, State.onCore_root,
          State.locWrite_root]; done)
      | simp only [apply_ite State.root, ite_self, root_mk, root_fold, foldl_root, implies_true, State.onCore_root,
          State.locWrite_root]

@[simp] theorem State.addDigest_root (s : State) (ctx dix : ℕ) (d : BitVec 128) : (State.addDigest s ctx dix d).root = s.root :=
    by
  unfold State.addDigest; simp only [apply_ite State.root, ite_self, root_mk, root_fold, foldl_root, implies_true,
      State.onCtx_root]

@[simp] theorem State.foldPage_root (s : State) (ctx dix va : ℕ) (bs : List Byte) : (State.foldPage s ctx dix va bs).root =
    s.root := by
  unfold State.foldPage; simp only [apply_ite State.root, ite_self, root_mk, root_fold, foldl_root, implies_true,
      State.addDigest_root]

@[simp] theorem State.foldSpad_root (s : State) (g : Group) (a : ℕ) (bs : List Byte) : (State.foldSpad s g a bs).root = s.root :=
    by
  unfold State.foldSpad; simp only [apply_ite State.root, ite_self, root_mk, root_fold, foldl_root, implies_true,
      State.addDigest_root]

@[simp] theorem State.foldLine_root (s : State) (ctx va : ℕ) (bs : List Byte) : (State.foldLine s ctx va bs).root = s.root := by
  unfold State.foldLine; (repeat' split) <;> simp_all [apply_ite State.root, ite_self, root_mk, root_fold, foldl_root,
      implies_true, State.foldPage_root]

@[simp] theorem foldLines_root (s : State) (ctx : ℕ) (a2 : List (ℕ × ℕ)) (a3 : List Byte) : (foldLines s ctx a2 a3).root = s.root
    := by
  fun_induction foldLines <;> simp_all [apply_ite State.root, ite_self, root_mk, root_fold, foldl_root, implies_true]

@[simp] theorem State.foldLoc_root (s : State) (own : ℕ) (l : Loc) (bs : List Byte) : (State.foldLoc s own l bs).root = s.root :=
    by
  unfold State.foldLoc; (repeat' split) <;> simp_all [apply_ite State.root, ite_self, root_mk, root_fold, foldl_root,
      implies_true, foldLines_root, State.foldSpad_root]

@[simp] theorem State.jobBytes_root (s : State) (a1 : JobKind) : (State.jobBytes s a1).2.root = s.root := by
  unfold State.jobBytes; dsimp only; (repeat' split) <;>
    repeat first
      | with_reducible rfl
      | assumption
      | (simp only [apply_ite State.root, ite_self, root_mk, root_fold, foldl_root, implies_true, State.fresh_root]; done)
      | simp only [apply_ite State.root, ite_self, root_mk, root_fold, foldl_root, implies_true, State.fresh_root]

theorem State.startJob_root (s : State) (c : Card) : (State.startJob s c).Keeps s.root := by
  unfold State.startJob;
    repeat' first
      | exact keeps_trap _ _ _ _
      | exact keeps_wait _
      | assumption
      | (refine ofChk_keeps _ _ _ fun _ => ?_)
      | (refine then_keeps _ _ _ fun _ _ _ => ?_)
      | (simp only [ckeeps_done, ckeeps_later, keeps_done, keeps_branch, keeps_waitWith, keeps_trapWith, apply_ite State.root,
          ite_self, root_mk, root_fold, foldl_root, implies_true, State.jobBytes_root, State.onMe_root]; done)
      | split
      | simp only [ckeeps_done, ckeeps_later, keeps_done, keeps_branch, keeps_waitWith, keeps_trapWith, apply_ite State.root,
          ite_self, root_mk, root_fold, foldl_root, implies_true, State.jobBytes_root, State.onMe_root]
      | split
      | intro _
      | dsimp only

theorem execJobx_root (y : BitVec 2) (a : BitVec 5) (s o9 : State) (hr : execJobx y a s = .next o9) : o9.root = s.root := by
  have h := hr
  clear hr
  unfold execJobx at h
  exact issue_root _ _ _ _ _ (fun s t => ofChk_keeps _ _ _ fun c => State.startJob_root s c) _ h

theorem execRdef_root (y : BitVec 2) (h : BitVec 6) (a : BitVec 5) (s o9 : State) (hr : execRdef y h a s = .next o9) : o9.root =
    s.root := by
  unfold execRdef at hr; refine issue_root _ _ _ _ _ (fun s t => ?_) _ hr <;>
    repeat' first
      | exact keeps_trap _ _ _ _
      | exact keeps_wait _
      | assumption
      | (refine ofChk_keeps _ _ _ fun _ => ?_)
      | (refine then_keeps _ _ _ fun _ _ _ => ?_)
      | (simp only [ckeeps_done, ckeeps_later, keeps_done, keeps_branch, keeps_waitWith, keeps_trapWith, apply_ite State.root,
          ite_self, root_mk, root_fold, foldl_root, implies_true, State.onCtx_root]; done)
      | split
      | simp only [ckeeps_done, ckeeps_later, keeps_done, keeps_branch, keeps_waitWith, keeps_trapWith, apply_ite State.root,
          ite_self, root_mk, root_fold, foldl_root, implies_true, State.onCtx_root]
      | split
      | intro _
      | dsimp only

theorem execRdrop_root (y : BitVec 2) (h : BitVec 6) (s o9 : State) (hr : execRdrop y h s = .next o9) : o9.root = s.root := by
  unfold execRdrop at hr; refine issue_root _ _ _ _ _ (fun s t => ?_) _ hr <;> grind -lia -ring -linarith -order -ac [State.root,
      Effect.Keeps, CmdEnd.Keeps, ofChk, Got.then, foldl_root, State.onCtx_root]

theorem hIssue_root (form : HForm) (y : BitVec 2) (p : BitVec 4) (o : BitVec 6) (a : BitVec 5) (e : BitVec 3) (s o9 : State) (hr
    : hIssue form y p o a e s = .next o9) : o9.root = s.root := by
  have h := hr
  clear hr
  unfold hIssue at h
  refine issuePre_root (hr := h) (hbody := fun s t => ?_) ..
  split
  · exact keeps_trap _ _ _ _
  · exact ofChk_keeps _ _ _ fun c => State.startJob_root s c

theorem execHfold_root (y : BitVec 2) (p : BitVec 4) (o : BitVec 6) (a : BitVec 5) (e : BitVec 3) (s o9 : State) (hr : execHfold
    y p o a e s = .next o9) : o9.root = s.root := by
  exact hIssue_root (hr := hr) ..

theorem execHscan_root (y : BitVec 2) (p : BitVec 4) (o : BitVec 6) (a : BitVec 5) (e : BitVec 3) (s o9 : State) (hr : execHscan
    y p o a e s = .next o9) : o9.root = s.root := by
  exact hIssue_root (hr := hr) ..

theorem execHzip_root (y : BitVec 2) (p : BitVec 4) (o : BitVec 6) (a : BitVec 5) (e : BitVec 3) (s o9 : State) (hr : execHzip y
    p o a e s = .next o9) : o9.root = s.root := by
  exact hIssue_root (hr := hr) ..

theorem execHouter_root (y : BitVec 2) (p : BitVec 4) (o : BitVec 6) (a : BitVec 5) (e : BitVec 3) (s o9 : State) (hr :
    execHouter y p o a e s = .next o9) : o9.root = s.root := by
  exact hIssue_root (hr := hr) ..

theorem execJobStart_root (num : ℕ) (s o9 : State) (hr : execJobStart num s = .next o9) : o9.root = s.root := by
  unfold execJobStart at hr; dsimp only at hr; (repeat' split at hr) <;> (try cases hr) <;>
    repeat first
      | with_reducible rfl
      | assumption
      | (simp only [apply_ite State.root, ite_self, root_mk, root_fold, foldl_root, implies_true, State.gather_root,
          State.countRange_root, State.onMe_root]; done)
      | simp only [apply_ite State.root, ite_self, root_mk, root_fold, foldl_root, implies_true, State.gather_root,
          State.countRange_root, State.onMe_root]

@[simp] theorem State.jobWrite_root (s : State) (j : Job) (fold : Bool) (off : ℕ) (bs : List Byte) : (State.jobWrite s j fold off
    bs).root = s.root := by
  unfold State.jobWrite; simp only [apply_ite State.root, ite_self, root_mk, root_fold, foldl_root, implies_true,
      State.foldLoc_root, State.onMe_root, State.locWriteAt_root]

theorem execCopyChunkComplete_root (num : ℕ) (s o9 : State) (hr : execCopyChunkComplete num s = .next o9) : o9.root = s.root := by
  unfold execCopyChunkComplete at hr; (repeat' split at hr) <;> (try cases hr) <;>
    repeat first
      | with_reducible rfl
      | assumption
      | (simp only [apply_ite State.root, ite_self, root_mk, root_fold, foldl_root, implies_true, State.jobWrite_root,
          State.onMe_root]; done)
      | simp only [apply_ite State.root, ite_self, root_mk, root_fold, foldl_root, implies_true, State.jobWrite_root,
          State.onMe_root]

@[simp] theorem State.putElem_root (s : State) (j : Job) (fold : Bool) (h : HWork) (k v : ℕ) : (State.putElem s j fold h k
    v).root = s.root := by
  unfold State.putElem; simp only [apply_ite State.root, ite_self, root_mk, root_fold, foldl_root, implies_true,
      State.jobWrite_root]

@[simp] theorem State.hTake_root (s : State) (j : Job) (h : HWork) (x : HStep) : (State.hTake s j h x).root = s.root := by
  unfold State.hTake; dsimp only; (repeat' split) <;>
    repeat first
      | with_reducible rfl
      | assumption
      | (simp only [apply_ite State.root, ite_self, root_mk, root_fold, foldl_root, implies_true, State.putElem_root,
          State.onMe_root]; done)
      | simp only [apply_ite State.root, ite_self, root_mk, root_fold, foldl_root, implies_true, State.putElem_root,
          State.onMe_root]

theorem execJobComplete_root (num : ℕ) (s o9 : State) (hr : execJobComplete num s = .next o9) : o9.root = s.root := by
  unfold execJobComplete at hr; (repeat' split at hr) <;> (try cases hr) <;>
    repeat first
      | with_reducible rfl
      | assumption
      | (simp only [apply_ite State.root, ite_self, root_mk, root_fold, foldl_root, implies_true, State.hTake_root,
          State.teardownAll_root, State.onMe_root, State.dropLines_root]; done)
      | simp only [apply_ite State.root, ite_self, root_mk, root_fold, foldl_root, implies_true, State.hTake_root,
          State.teardownAll_root, State.onMe_root, State.dropLines_root]

theorem execRoutineFault_root (num : ℕ) (s o9 : State) (hr : execRoutineFault num s = .next o9) : o9.root = s.root := by
  unfold execRoutineFault at hr; (repeat' split at hr) <;> (try cases hr) <;>
    repeat first
      | with_reducible rfl
      | assumption
      | (simp only [apply_ite State.root, ite_self, root_mk, root_fold, foldl_root, implies_true, State.onMe_root,
          State.dropLines_root, State.teardownAll_root, State.takeTrap_root]; done)
      | simp only [apply_ite State.root, ite_self, root_mk, root_fold, foldl_root, implies_true, State.onMe_root,
          State.dropLines_root, State.teardownAll_root, State.takeTrap_root]

theorem State.afterAccesses_root (s : State) (e : State → Effect) (he : ∀ x0,
    (e x0).Keeps x0.root) : (State.afterAccesses s e).Keeps s.root := by
  unfold State.afterAccesses; (repeat' split) <;> simp_all [Effect.Keeps, CmdEnd.Keeps, apply_ite State.root, ite_self, root_mk,
      root_fold, foldl_root, implies_true]

theorem execCntset_root (y : BitVec 2) (n : BitVec 12) (a : BitVec 5) (s o9 : State) (hr : execCntset y n a s = .next o9) :
    o9.root = s.root := by
  unfold execCntset at hr; refine issuePre_root (hr := hr) (hbody := fun _ _ => ?_) ..; all_goals
    repeat' first
      | exact keeps_trap _ _ _ _
      | exact keeps_wait _
      | assumption
      | (refine ofChk_keeps _ _ _ fun _ => ?_)
      | (refine then_keeps _ _ _ fun _ _ _ => ?_)
      | (simp only [ckeeps_done, ckeeps_later, keeps_done, keeps_branch, keeps_waitWith, keeps_trapWith, apply_ite State.root,
          ite_self, root_mk, root_fold, foldl_root, implies_true, State.setCtr_root]; done)
      | apply State.afterAccesses_root
      | (rw [issuePre_root (hr := by assumption)]; with_reducible rfl)
      | (rw [← issuePre_root (hr := by assumption)]; apply State.afterAccesses_root)
      | split
      | simp only [ckeeps_done, ckeeps_later, keeps_done, keeps_branch, keeps_waitWith, keeps_trapWith, apply_ite State.root,
          ite_self, root_mk, root_fold, foldl_root, implies_true, State.setCtr_root]
      | rw [issuePre_root (hr := by assumption)]
      | split
      | intro _
      | dsimp only

theorem execCntadd_root (y : BitVec 2) (n : BitVec 12) (a : BitVec 5) (i : BitVec 1) (s o9 : State) (hr : execCntadd y n a i s =
    .next o9) : o9.root = s.root := by
  unfold execCntadd at hr; refine issuePre_root (hr := hr) (hbody := fun _ _ => ?_) ..; all_goals
    repeat' first
      | exact keeps_trap _ _ _ _
      | exact keeps_wait _
      | assumption
      | (refine ofChk_keeps _ _ _ fun _ => ?_)
      | (refine then_keeps _ _ _ fun _ _ _ => ?_)
      | (simp only [ckeeps_done, ckeeps_later, keeps_done, keeps_branch, keeps_waitWith, keeps_trapWith, apply_ite State.root,
          ite_self, root_mk, root_fold, foldl_root, implies_true, State.addCtr_root]; done)
      | apply State.afterAccesses_root
      | (rw [issuePre_root (hr := by assumption)]; with_reducible rfl)
      | (rw [← issuePre_root (hr := by assumption)]; apply State.afterAccesses_root)
      | split
      | simp only [ckeeps_done, ckeeps_later, keeps_done, keeps_branch, keeps_waitWith, keeps_trapWith, apply_ite State.root,
          ite_self, root_mk, root_fold, foldl_root, implies_true, State.addCtr_root]
      | rw [issuePre_root (hr := by assumption)]
      | split
      | intro _
      | dsimp only

theorem execCntwait_root (y : BitVec 2) (n : BitVec 12) (a : BitVec 5) (s o9 : State) (hr : execCntwait y n a s = .next o9) :
    o9.root = s.root := by
  unfold execCntwait at hr; refine issuePre_root (hr := hr) (hbody := fun _ _ => ?_) ..; all_goals
    repeat' first
      | exact keeps_trap _ _ _ _
      | exact keeps_wait _
      | assumption
      | (refine ofChk_keeps _ _ _ fun _ => ?_)
      | (refine then_keeps _ _ _ fun _ _ _ => ?_)
      | (simp only [ckeeps_done, ckeeps_later, keeps_done, keeps_branch, keeps_waitWith, keeps_trapWith, apply_ite State.root,
          ite_self, root_mk, root_fold, foldl_root, implies_true, State.waitRecord_root]; done)
      | (rw [issuePre_root (hr := by assumption)]; with_reducible rfl)
      | split
      | simp only [ckeeps_done, ckeeps_later, keeps_done, keeps_branch, keeps_waitWith, keeps_trapWith, apply_ite State.root,
          ite_self, root_mk, root_fold, foldl_root, implies_true, State.waitRecord_root]
      | rw [issuePre_root (hr := by assumption)]
      | split
      | intro _
      | dsimp only

theorem execCntread_root (y : BitVec 2) (n : BitVec 12) (d : BitVec 5) (s o9 : State) (hr : execCntread y n d s = .next o9) :
    o9.root = s.root := by
  unfold execCntread at hr; refine issuePre_root (hr := hr) (hbody := fun _ _ => ?_) ..; all_goals
    repeat' first
      | exact keeps_trap _ _ _ _
      | exact keeps_wait _
      | assumption
      | (refine ofChk_keeps _ _ _ fun _ => ?_)
      | (refine then_keeps _ _ _ fun _ _ _ => ?_)
      | (simp only [ckeeps_done, ckeeps_later, keeps_done, keeps_branch, keeps_waitWith, keeps_trapWith, apply_ite State.root,
          ite_self, root_mk, root_fold, foldl_root, implies_true, State.lateResult_root]; done)
      | (rw [issuePre_root (hr := by assumption)]; with_reducible rfl)
      | split
      | simp only [ckeeps_done, ckeeps_later, keeps_done, keeps_branch, keeps_waitWith, keeps_trapWith, apply_ite State.root,
          ite_self, root_mk, root_fold, foldl_root, implies_true, State.lateResult_root]
      | rw [issuePre_root (hr := by assumption)]
      | split
      | intro _
      | dsimp only

@[simp] theorem State.arm_root (s : State) (ctx : ℕ) (x : WSlot) : (State.arm s ctx x).root = s.root := by
  unfold State.arm; simp only [apply_ite State.root, ite_self, root_mk, root_fold, foldl_root, implies_true, State.onCtx_root]

@[simp] theorem State.countWq_root (s : State) : (State.countWq s).root = s.root := by
  unfold State.countWq; simp only [apply_ite State.root, ite_self, root_mk, root_fold, foldl_root, implies_true, State.onMe_root]

theorem execWqpost_root (y : BitVec 2) (a : BitVec 5) (s o9 : State) (hr : execWqpost y a s = .next o9) : o9.root = s.root := by
  unfold execWqpost at hr; refine issue_root _ _ _ _ _ (fun s t => ?_) _ hr <;>
    repeat' first
      | exact keeps_trap _ _ _ _
      | exact keeps_wait _
      | assumption
      | (refine ofChk_keeps _ _ _ fun _ => ?_)
      | (refine then_keeps _ _ _ fun _ _ _ => ?_)
      | (simp only [ckeeps_done, ckeeps_later, keeps_done, keeps_branch, keeps_waitWith, keeps_trapWith, apply_ite State.root,
          ite_self, root_mk, root_fold, foldl_root, implies_true, State.countWq_root, State.arm_root]; done)
      | apply State.afterAccesses_root
      | split
      | simp only [ckeeps_done, ckeeps_later, keeps_done, keeps_branch, keeps_waitWith, keeps_trapWith, apply_ite State.root,
          ite_self, root_mk, root_fold, foldl_root, implies_true, State.countWq_root, State.arm_root]
      | split
      | intro _
      | dsimp only

@[simp] theorem State.onSlot_root (s : State) (ctx n : ℕ) (f : WSlot → WSlot) : (State.onSlot s ctx n f).root = s.root := by
  unfold State.onSlot; simp only [apply_ite State.root, ite_self, root_mk, root_fold, foldl_root, implies_true, State.onCtx_root]

theorem execWqarm_root (y : BitVec 2) (n : BitVec 12) (a : BitVec 5) (s o9 : State) (hr : execWqarm y n a s = .next o9) : o9.root
    = s.root := by
  unfold execWqarm at hr; refine issue_root _ _ _ _ _ (fun s t => ?_) _ hr <;> grind -lia -ring -linarith -order -ac [State.root,
      Effect.Keeps, CmdEnd.Keeps, ofChk, Got.then, foldl_root, State.countWq_root, State.onCtx_root, State.afterAccesses_root]

theorem execWqcancel_root (y : BitVec 2) (n : BitVec 12) (s o9 : State) (hr : execWqcancel y n s = .next o9) : o9.root = s.root
    := by
  unfold execWqcancel at hr; refine issue_root _ _ _ _ _ (fun s t => ?_) _ hr <;> grind -lia -ring -linarith -order -ac
      [State.root, Effect.Keeps, CmdEnd.Keeps, ofChk, Got.then, foldl_root, State.onSlot_root]

theorem execWqstat_root (y : BitVec 2) (n : BitVec 12) (d : BitVec 5) (s o9 : State) (hr : execWqstat y n d s = .next o9) :
    o9.root = s.root := by
  unfold execWqstat at hr; refine issue_root _ _ _ _ _ (fun s t => ?_) _ hr <;> grind -lia -ring -linarith -order -ac
      [State.root, Effect.Keeps, CmdEnd.Keeps, ofChk, Got.then, foldl_root, State.lateResult_root]

@[simp] theorem State.genSet_root (s : State) (ctx w : ℕ) (g : GenWin) : (State.genSet s ctx w g).root = s.root := by
  unfold State.genSet; dsimp only; (repeat' split) <;>
    repeat first
      | with_reducible rfl
      | assumption
      | (simp only [apply_ite State.root, ite_self, root_mk, root_fold, foldl_root, implies_true, State.dropHandles_root,
          State.onCtx_root]; done)
      | simp only [apply_ite State.root, ite_self, root_mk, root_fold, foldl_root, implies_true, State.dropHandles_root,
          State.onCtx_root]

theorem execGencfg_root (y : BitVec 2) (w : BitVec 4) (a : BitVec 5) (s o9 : State) (hr : execGencfg y w a s = .next o9) :
    o9.root = s.root := by
  unfold execGencfg at hr; refine issue_root _ _ _ _ _ (fun s t => ?_) _ hr <;>
    repeat' first
      | exact keeps_trap _ _ _ _
      | exact keeps_wait _
      | assumption
      | (refine ofChk_keeps _ _ _ fun _ => ?_)
      | (refine then_keeps _ _ _ fun _ _ _ => ?_)
      | (simp only [ckeeps_done, ckeeps_later, keeps_done, keeps_branch, keeps_waitWith, keeps_trapWith, apply_ite State.root,
          ite_self, root_mk, root_fold, foldl_root, implies_true, State.genSet_root]; done)
      | split
      | simp only [ckeeps_done, ckeeps_later, keeps_done, keeps_branch, keeps_waitWith, keeps_trapWith, apply_ite State.root,
          ite_self, root_mk, root_fold, foldl_root, implies_true, State.genSet_root]
      | split
      | intro _
      | dsimp only

theorem execGeninv_root (y : BitVec 2) (w : BitVec 4) (s o9 : State) (hr : execGeninv y w s = .next o9) : o9.root = s.root := by
  unfold execGeninv at hr; refine issue_root _ _ _ _ _ (fun s t => ?_) _ hr <;> grind -lia -ring -linarith -order -ac
      [State.root, Effect.Keeps, CmdEnd.Keeps, ofChk, Got.then, foldl_root, State.onCtx_root]

theorem execNotify_root (y : BitVec 2) (m : BitVec 5) (c : BitVec 1) (n : BitVec 12) (s o9 : State) (hr : execNotify y m c n s =
    .next o9) : o9.root = s.root := by
  unfold execNotify at hr; refine issuePre_root (hr := hr) (hbody := fun _ _ => ?_) ..; all_goals
    repeat' first
      | exact keeps_trap _ _ _ _
      | exact keeps_wait _
      | assumption
      | (refine ofChk_keeps _ _ _ fun _ => ?_)
      | (refine then_keeps _ _ _ fun _ _ _ => ?_)
      | (simp only [ckeeps_done, ckeeps_later, keeps_done, keeps_branch, keeps_waitWith, keeps_trapWith, apply_ite State.root,
          ite_self, root_mk, root_fold, foldl_root, implies_true, State.onEng_root]; done)
      | (rw [issuePre_root (hr := by assumption)]; with_reducible rfl)
      | split
      | simp only [ckeeps_done, ckeeps_later, keeps_done, keeps_branch, keeps_waitWith, keeps_trapWith, apply_ite State.root,
          ite_self, root_mk, root_fold, foldl_root, implies_true, State.onEng_root]
      | rw [issuePre_root (hr := by assumption)]
      | split
      | intro _
      | dsimp only

theorem scalarOp_root (y : BitVec 2) (d : BitVec 5) (srcs : List Reg) (lat : ℕ) (f : Group → BitVec 64) (s o9 : State) (hr :
    scalarOp y d srcs lat f s = .next o9) : o9.root = s.root := by
  unfold scalarOp at hr; refine issue_root _ _ _ _ _ (fun s t => ?_) _ hr <;> grind -lia -ring -linarith -order -ac [State.root,
      Effect.Keeps, CmdEnd.Keeps, ofChk, Got.then, foldl_root, State.result_root]

theorem scalar2_root (y : BitVec 2) (d a b : BitVec 5) (lat : ℕ) (f : BitVec 64 → BitVec 64 → BitVec 64) (s o9 : State) (hr :
    scalar2 y d a b lat f s = .next o9) : o9.root = s.root := by
  exact scalarOp_root (hr := hr) ..

theorem scalar1_root (y : BitVec 2) (d a : BitVec 5) (f : BitVec 64 → BitVec 64) (s o9 : State) (hr : scalar1 y d a f s = .next
    o9) : o9.root = s.root := by
  exact scalarOp_root (hr := hr) ..

theorem execAdd_root (y : BitVec 2) (d a b : BitVec 5) (s o9 : State) (hr : execAdd y d a b s = .next o9) : o9.root = s.root := by
  exact scalar2_root (hr := hr) ..

theorem execSub_root (y : BitVec 2) (d a b : BitVec 5) (s o9 : State) (hr : execSub y d a b s = .next o9) : o9.root = s.root := by
  exact scalar2_root (hr := hr) ..

theorem execMul_root (y : BitVec 2) (d a b : BitVec 5) (s o9 : State) (hr : execMul y d a b s = .next o9) : o9.root = s.root := by
  exact scalar2_root (hr := hr) ..

theorem execMulh_root (y : BitVec 2) (d a b : BitVec 5) (s o9 : State) (hr : execMulh y d a b s = .next o9) : o9.root = s.root :=
    by
  exact scalar2_root (hr := hr) ..

theorem execMulhn_root (y : BitVec 2) (d a b : BitVec 5) (s o9 : State) (hr : execMulhn y d a b s = .next o9) : o9.root = s.root
    := by
  exact scalar2_root (hr := hr) ..

theorem execDiv_root (y : BitVec 2) (d a b : BitVec 5) (s o9 : State) (hr : execDiv y d a b s = .next o9) : o9.root = s.root := by
  exact scalar2_root (hr := hr) ..

theorem execDivn_root (y : BitVec 2) (d a b : BitVec 5) (s o9 : State) (hr : execDivn y d a b s = .next o9) : o9.root = s.root :=
    by
  exact scalar2_root (hr := hr) ..

theorem execRem_root (y : BitVec 2) (d a b : BitVec 5) (s o9 : State) (hr : execRem y d a b s = .next o9) : o9.root = s.root := by
  exact scalar2_root (hr := hr) ..

theorem execRemn_root (y : BitVec 2) (d a b : BitVec 5) (s o9 : State) (hr : execRemn y d a b s = .next o9) : o9.root = s.root :=
    by
  exact scalar2_root (hr := hr) ..

theorem execAnd_root (y : BitVec 2) (d a b : BitVec 5) (s o9 : State) (hr : execAnd y d a b s = .next o9) : o9.root = s.root := by
  exact scalar2_root (hr := hr) ..

theorem execOr_root (y : BitVec 2) (d a b : BitVec 5) (s o9 : State) (hr : execOr y d a b s = .next o9) : o9.root = s.root := by
  exact scalar2_root (hr := hr) ..

theorem execXor_root (y : BitVec 2) (d a b : BitVec 5) (s o9 : State) (hr : execXor y d a b s = .next o9) : o9.root = s.root := by
  exact scalar2_root (hr := hr) ..

theorem execShl_root (y : BitVec 2) (d a b : BitVec 5) (s o9 : State) (hr : execShl y d a b s = .next o9) : o9.root = s.root := by
  exact scalar2_root (hr := hr) ..

theorem execShr_root (y : BitVec 2) (d a b : BitVec 5) (s o9 : State) (hr : execShr y d a b s = .next o9) : o9.root = s.root := by
  exact scalar2_root (hr := hr) ..

theorem execSar_root (y : BitVec 2) (d a b : BitVec 5) (s o9 : State) (hr : execSar y d a b s = .next o9) : o9.root = s.root := by
  exact scalar2_root (hr := hr) ..

theorem execSlt_root (y : BitVec 2) (d a b : BitVec 5) (s o9 : State) (hr : execSlt y d a b s = .next o9) : o9.root = s.root := by
  exact scalar2_root (hr := hr) ..

theorem execSltn_root (y : BitVec 2) (d a b : BitVec 5) (s o9 : State) (hr : execSltn y d a b s = .next o9) : o9.root = s.root :=
    by
  exact scalar2_root (hr := hr) ..

theorem execMin_root (y : BitVec 2) (d a b : BitVec 5) (s o9 : State) (hr : execMin y d a b s = .next o9) : o9.root = s.root := by
  exact scalar2_root (hr := hr) ..

theorem execMax_root (y : BitVec 2) (d a b : BitVec 5) (s o9 : State) (hr : execMax y d a b s = .next o9) : o9.root = s.root := by
  exact scalar2_root (hr := hr) ..

theorem execMinn_root (y : BitVec 2) (d a b : BitVec 5) (s o9 : State) (hr : execMinn y d a b s = .next o9) : o9.root = s.root :=
    by
  exact scalar2_root (hr := hr) ..

theorem execMaxn_root (y : BitVec 2) (d a b : BitVec 5) (s o9 : State) (hr : execMaxn y d a b s = .next o9) : o9.root = s.root :=
    by
  exact scalar2_root (hr := hr) ..

theorem execFsh_root (y : BitVec 2) (d a b x : BitVec 5) (s o9 : State) (hr : execFsh y d a b x s = .next o9) : o9.root = s.root
    := by
  exact scalarOp_root (hr := hr) ..

theorem execSel_root (y : BitVec 2) (d a b : BitVec 5) (p : BitVec 3) (s o9 : State) (hr : execSel y d a b p s = .next o9) :
    o9.root = s.root := by
  exact scalarOp_root (hr := hr) ..

theorem execAddi_root (y : BitVec 2) (d a : BitVec 5) (k : BitVec 10) (s o9 : State) (hr : execAddi y d a k s = .next o9) :
    o9.root = s.root := by
  exact scalar1_root (hr := hr) ..

theorem execAndi_root (y : BitVec 2) (d a : BitVec 5) (k : BitVec 10) (s o9 : State) (hr : execAndi y d a k s = .next o9) :
    o9.root = s.root := by
  exact scalar1_root (hr := hr) ..

theorem execOri_root (y : BitVec 2) (d a : BitVec 5) (k : BitVec 10) (s o9 : State) (hr : execOri y d a k s = .next o9) : o9.root
    = s.root := by
  exact scalar1_root (hr := hr) ..

theorem execXori_root (y : BitVec 2) (d a : BitVec 5) (k : BitVec 10) (s o9 : State) (hr : execXori y d a k s = .next o9) :
    o9.root = s.root := by
  exact scalar1_root (hr := hr) ..

theorem execShli_root (y : BitVec 2) (d a : BitVec 5) (k : BitVec 6) (s o9 : State) (hr : execShli y d a k s = .next o9) :
    o9.root = s.root := by
  exact scalar1_root (hr := hr) ..

theorem execShri_root (y : BitVec 2) (d a : BitVec 5) (k : BitVec 6) (s o9 : State) (hr : execShri y d a k s = .next o9) :
    o9.root = s.root := by
  exact scalar1_root (hr := hr) ..

theorem execSari_root (y : BitVec 2) (d a : BitVec 5) (k : BitVec 6) (s o9 : State) (hr : execSari y d a k s = .next o9) :
    o9.root = s.root := by
  exact scalar1_root (hr := hr) ..

theorem execSlti_root (y : BitVec 2) (d a : BitVec 5) (k : BitVec 10) (s o9 : State) (hr : execSlti y d a k s = .next o9) :
    o9.root = s.root := by
  exact scalar1_root (hr := hr) ..

theorem execExt_root (y : BitVec 2) (d a : BitVec 5) (l : BitVec 4) (p : BitVec 6) (s o9 : State) (hr : execExt y d a l p s =
    .next o9) : o9.root = s.root := by
  exact scalar1_root (hr := hr) ..

theorem execIns_root (y : BitVec 2) (d a : BitVec 5) (l : BitVec 4) (p : BitVec 6) (s o9 : State) (hr : execIns y d a l p s =
    .next o9) : o9.root = s.root := by
  exact scalarOp_root (hr := hr) ..

theorem execClz_root (y : BitVec 2) (d a : BitVec 5) (s o9 : State) (hr : execClz y d a s = .next o9) : o9.root = s.root := by
  exact scalar1_root (hr := hr) ..

theorem execCtz_root (y : BitVec 2) (d a : BitVec 5) (s o9 : State) (hr : execCtz y d a s = .next o9) : o9.root = s.root := by
  exact scalar1_root (hr := hr) ..

theorem execPopc_root (y : BitVec 2) (d a : BitVec 5) (s o9 : State) (hr : execPopc y d a s = .next o9) : o9.root = s.root := by
  exact scalar1_root (hr := hr) ..

theorem execLih_root (y : BitVec 2) (d : BitVec 5) (k : BitVec 15) (s o9 : State) (hr : execLih y d k s = .next o9) : o9.root =
    s.root := by
  exact scalarOp_root (hr := hr) ..

theorem execCmpCc_root (y : BitVec 2) (d : BitVec 3) (a b : BitVec 5) (c : BitVec 3) (s o9 : State) (hr : execCmpCc y d a b c s =
    .next o9) : o9.root = s.root := by
  unfold execCmpCc at hr; refine issuePre_root (hr := hr) (hbody := fun _ _ => ?_) ..; all_goals
    repeat' first
      | exact keeps_trap _ _ _ _
      | exact keeps_wait _
      | assumption
      | (refine ofChk_keeps _ _ _ fun _ => ?_)
      | (refine then_keeps _ _ _ fun _ _ _ => ?_)
      | (simp only [ckeeps_done, ckeeps_later, keeps_done, keeps_branch, keeps_waitWith, keeps_trapWith, apply_ite State.root,
          ite_self, root_mk, root_fold, foldl_root, implies_true, State.predicate_root]; done)
      | (rw [issuePre_root (hr := by assumption)]; with_reducible rfl)
      | split
      | simp only [ckeeps_done, ckeeps_later, keeps_done, keeps_branch, keeps_waitWith, keeps_trapWith, apply_ite State.root,
          ite_self, root_mk, root_fold, foldl_root, implies_true, State.predicate_root]
      | rw [issuePre_root (hr := by assumption)]
      | split
      | intro _
      | dsimp only

theorem execCmpiCc_root (c : BitVec 3) (y : BitVec 2) (d : BitVec 3) (a : BitVec 5) (k : BitVec 10) (s o9 : State) (hr :
    execCmpiCc c y d a k s = .next o9) : o9.root = s.root := by
  unfold execCmpiCc at hr; refine issuePre_root (hr := hr) (hbody := fun _ _ => ?_) ..; all_goals
    repeat' first
      | exact keeps_trap _ _ _ _
      | exact keeps_wait _
      | assumption
      | (refine ofChk_keeps _ _ _ fun _ => ?_)
      | (refine then_keeps _ _ _ fun _ _ _ => ?_)
      | (simp only [ckeeps_done, ckeeps_later, keeps_done, keeps_branch, keeps_waitWith, keeps_trapWith, apply_ite State.root,
          ite_self, root_mk, root_fold, foldl_root, implies_true, State.predicate_root]; done)
      | (rw [issuePre_root (hr := by assumption)]; with_reducible rfl)
      | split
      | simp only [ckeeps_done, ckeeps_later, keeps_done, keeps_branch, keeps_waitWith, keeps_trapWith, apply_ite State.root,
          ite_self, root_mk, root_fold, foldl_root, implies_true, State.predicate_root]
      | rw [issuePre_root (hr := by assumption)]
      | split
      | intro _
      | dsimp only

theorem execNopC_root (y : BitVec 2) (s o9 : State) (hr : execNopC y s = .next o9) : o9.root = s.root := by
  unfold execNopC at hr; refine issue_root _ _ _ _ _ (fun s t => ?_) _ hr <;> grind -lia -ring -linarith -order -ac [State.root,
      Effect.Keeps, CmdEnd.Keeps, ofChk, Got.then, foldl_root]

@[simp] theorem State.passBytes_root (s : State) (e : Engine) (len : ℕ) : (State.passBytes s e len).root = s.root := by
  unfold State.passBytes; simp only [apply_ite State.root, ite_self, root_mk, root_fold, foldl_root, implies_true,
      State.onMe_root]

@[simp] theorem State.framing_root (s : State) (e : Engine) : (State.framing s e).root = s.root := by
  unfold State.framing; simp only [apply_ite State.root, ite_self, root_mk, root_fold, foldl_root, implies_true,
      State.trapAt_root, State.takeTrap_root, State.stall_root]

@[simp] theorem State.enterBody_root (s : State) (e : Engine) (len n : ℕ) : (State.enterBody s e len n).root = s.root := by
  unfold State.enterBody; simp only [apply_ite State.root, ite_self, root_mk, root_fold, foldl_root, implies_true,
      State.passBytes_root, State.onEng_root]

theorem execBlockHeader_root (l : BitVec 12) (c : BitVec 15) (s o9 : State) (hr : execBlockHeader l c s = .next o9) : o9.root =
    s.root := by
  unfold execBlockHeader at hr; dsimp only at hr; (repeat' split at hr) <;> (try cases hr) <;>
    repeat first
      | with_reducible rfl
      | assumption
      | (simp only [apply_ite State.root, ite_self, root_mk, root_fold, foldl_root, implies_true, State.framing_root,
          State.enterBody_root]; done)
      | simp only [apply_ite State.root, ite_self, root_mk, root_fold, foldl_root, implies_true, State.framing_root,
          State.enterBody_root]

theorem State.pushHidden_root (s : State) (es : List Engine) (h : HbEntry) (o9 : State) (hr : State.pushHidden s es h = some o9)
    : o9.root = s.root := by
  unfold State.pushHidden at hr; (repeat' split at hr) <;> (try cases hr) <;>
    repeat first
      | with_reducible rfl
      | assumption
      | (simp only [apply_ite State.root, ite_self, root_mk, root_fold, foldl_root, implies_true, State.onEng_root]; done)
      | simp only [apply_ite State.root, ite_self, root_mk, root_fold, foldl_root, implies_true, State.onEng_root]

@[simp] theorem State.enterIf_root (s : State) (e : Engine) (len n : ℕ) (go : State → State) (hgo : ∀ x0,
    (go x0).root = x0.root) : (State.enterIf s e len n go).root = s.root := by
  unfold State.enterIf; (repeat' split) <;> simp_all [apply_ite State.root, ite_self, root_mk, root_fold, foldl_root,
      implies_true, State.stall_root, State.enterBody_root]

theorem execBlockHeaderReg_root (l : BitVec 12) (r : BitVec 5) (s o9 : State) (hr : execBlockHeaderReg l r s = .next o9) :
    o9.root = s.root := by
  have h := hr
  clear hr
  unfold execBlockHeaderReg at h
  dsimp only at h
  split at h
  · cases h; rfl
  · split at h
    · split at h
      · cases h; simp
      · split at h
        · cases h; simp
        · split at h
          · cases h; simp
          · split at h
            · cases h; simp
            · rename_i s2 e
              have e2 := State.pushHidden_root _ _ _ _ e
              cases h
              unfold State.enterIf
              split <;> simp [e2]
    · split at h
      · cases h; simp
      · cases h; simp
      · split at h
        · cases h; simp
        · cases h
          unfold State.enterIf
          split <;> simp

theorem trapHeader_root (e : Engine) (len : ℕ) (s o9 : State) (hr : trapHeader e len s = .next o9) : o9.root = s.root := by
  unfold trapHeader at hr; (repeat' split at hr) <;> (try cases hr) <;>
    repeat first
      | with_reducible rfl
      | assumption
      | (simp only [apply_ite State.root, ite_self, root_mk, root_fold, foldl_root, implies_true, State.framing_root,
          State.trapAt_root]; done)
      | simp only [apply_ite State.root, ite_self, root_mk, root_fold, foldl_root, implies_true, State.framing_root,
          State.trapAt_root]

theorem execBlockEnd_root (e : BitVec 3) (s o9 : State) (hr : execBlockEnd e s = .next o9) : o9.root = s.root := by
  unfold execBlockEnd at hr; (repeat' split at hr) <;> (try cases hr) <;>
    repeat first
      | with_reducible rfl
      | assumption
      | (simp only [apply_ite State.root, ite_self, root_mk, root_fold, foldl_root, implies_true, State.onEng_root]; done)
      | simp only [apply_ite State.root, ite_self, root_mk, root_fold, foldl_root, implies_true, State.onEng_root]

theorem execTimedNop_root (n : BitVec 13) (s o9 : State) (hr : execTimedNop n s = .next o9) : o9.root = s.root := by
  unfold execTimedNop at hr; dsimp only at hr; (repeat' split at hr) <;> (try cases hr) <;>
    repeat first
      | with_reducible rfl
      | assumption
      | (simp only [apply_ite State.root, ite_self, root_mk, root_fold, foldl_root, implies_true, State.onEng_root,
          State.passBytes_root]; done)
      | simp only [apply_ite State.root, ite_self, root_mk, root_fold, foldl_root, implies_true, State.onEng_root,
          State.passBytes_root]

theorem trapItem_root (e : Engine) (cause : ℕ) (s o9 : State) (hr : trapItem e cause s = .next o9) : o9.root = s.root := by
  unfold trapItem at hr; refine issue_root _ _ _ _ _ (fun s t => ?_) _ hr <;> grind -lia -ring -linarith -order -ac [State.root,
      Effect.Keeps, CmdEnd.Keeps, ofChk, Got.then, foldl_root]

theorem execUnassignedItem_root (e : BitVec 3) (s o9 : State) (hr : execUnassignedItem e s = .next o9) : o9.root = s.root := by
  unfold execUnassignedItem at hr; (repeat' split at hr) <;> (try cases hr) <;>
    repeat first
      | with_reducible rfl
      | assumption
      | (simp only [apply_ite State.root, ite_self, root_mk, root_fold, foldl_root, implies_true]; done)
      | rw [trapItem_root (hr := by assumption)]
      | simp only [apply_ite State.root, ite_self, root_mk, root_fold, foldl_root, implies_true]

theorem execDictionaryReference_root (i : BitVec 10) (s o9 : State) (hr : execDictionaryReference i s = .next o9) : o9.root =
    s.root := by
  unfold execDictionaryReference at hr; dsimp only at hr; (repeat' split at hr) <;> (try cases hr) <;>
    repeat first
      | with_reducible rfl
      | assumption
      | (simp only [apply_ite State.root, ite_self, root_mk, root_fold, foldl_root, implies_true, State.passBytes_root,
          State.onEng_root]; done)
      | rw [trapItem_root (hr := by assumption)]
      | simp only [apply_ite State.root, ite_self, root_mk, root_fold, foldl_root, implies_true, State.passBytes_root,
          State.onEng_root]

@[simp] theorem State.dictTell_root (s : State) (l : Option (ℕ × Option (BitVec 32))) : (State.dictTell s l).root = s.root := by
  unfold State.dictTell; simp only [apply_ite State.root, ite_self, root_mk, root_fold, foldl_root, implies_true,
      State.onEng_root]

theorem dictldQuiet_root (e : Engine) (s : State) : (dictldQuiet e s).Keeps s.root := by
  unfold dictldQuiet; (repeat' split) <;> simp_all [Effect.Keeps, CmdEnd.Keeps, apply_ite State.root, ite_self, root_mk,
      root_fold, foldl_root, implies_true, State.dictTell_root, State.onEng_root]

theorem execDictld_root (y : BitVec 2) (a : BitVec 5) (k : BitVec 10) (s o9 : State) (hr : execDictld y a k s = .next o9) :
    o9.root = s.root := by
  have h := hr
  clear hr
  unfold execDictld at h
  dsimp only at h
  split at h
  · refine issueWith_root _ _ _ _ _ _ (fun u => dictldQuiet_root _ _) (fun u t => ?_) _ h
    refine ofChk_keeps _ _ _ fun bs => ?_
    simp only [keeps_done, State.onMe_root, State.dictTell_root]
  · refine issueWith_root _ _ _ _ _ _ (fun u => dictldQuiet_root _ _) (fun u t => ?_) _ h
    split
    · exact keeps_wait _
    · simp only [keeps_done, State.onEng_root]

theorem branchCc_root (annul : Bool) (c : BitVec 3) (y : BitVec 2) (d a : BitVec 5) (k : BitVec 10) (s o9 : State) (hr : branchCc
    annul c y d a k s = .next o9) : o9.root = s.root := by
  unfold branchCc at hr; refine issuePre_root (hr := hr) (hbody := fun _ _ => ?_) ..; all_goals
    repeat' first
      | exact keeps_trap _ _ _ _
      | exact keeps_wait _
      | assumption
      | (refine ofChk_keeps _ _ _ fun _ => ?_)
      | (refine then_keeps _ _ _ fun _ _ _ => ?_)
      | (simp only [ckeeps_done, ckeeps_later, keeps_done, keeps_branch, keeps_waitWith, keeps_trapWith, apply_ite State.root,
          ite_self, root_mk, root_fold, foldl_root, implies_true]; done)
      | (rw [issuePre_root (hr := by assumption)]; with_reducible rfl)
      | split
      | simp only [ckeeps_done, ckeeps_later, keeps_done, keeps_branch, keeps_waitWith, keeps_trapWith, apply_ite State.root,
          ite_self, root_mk, root_fold, foldl_root, implies_true]
      | rw [issuePre_root (hr := by assumption)]
      | split
      | intro _
      | dsimp only

theorem execBCc_root (c : BitVec 3) (y : BitVec 2) (d a : BitVec 5) (k : BitVec 10) (s o9 : State) (hr : execBCc c y d a k s =
    .next o9) : o9.root = s.root := by
  exact branchCc_root (hr := hr) ..

theorem execBCcA_root (c : BitVec 3) (y : BitVec 2) (d a : BitVec 5) (k : BitVec 10) (s o9 : State) (hr : execBCcA c y d a k s =
    .next o9) : o9.root = s.root := by
  exact branchCc_root (hr := hr) ..

theorem execBr_root (y : BitVec 2) (k : BitVec 20) (s o9 : State) (hr : execBr y k s = .next o9) : o9.root = s.root := by
  unfold execBr at hr; refine issue_root _ _ _ _ _ (fun s t => ?_) _ hr <;> grind -lia -ring -linarith -order -ac [State.root,
      Effect.Keeps, CmdEnd.Keeps, ofChk, Got.then, foldl_root]

theorem execCall_root (y : BitVec 2) (k : BitVec 20) (s o9 : State) (hr : execCall y k s = .next o9) : o9.root = s.root := by
  unfold execCall at hr; refine issue_root _ _ _ _ _ (fun s t => ?_) _ hr <;> grind -lia -ring -linarith -order -ac [State.root,
      Effect.Keeps, CmdEnd.Keeps, ofChk, Got.then, foldl_root, State.result_root]

theorem execRet_root (y : BitVec 2) (s o9 : State) (hr : execRet y s = .next o9) : o9.root = s.root := by
  unfold execRet at hr; refine issue_root _ _ _ _ _ (fun s t => ?_) _ hr <;> grind -lia -ring -linarith -order -ac [State.root,
      Effect.Keeps, CmdEnd.Keeps, ofChk, Got.then, foldl_root]

theorem execJr_root (y : BitVec 2) (d : BitVec 5) (s o9 : State) (hr : execJr y d s = .next o9) : o9.root = s.root := by
  unfold execJr at hr; refine issue_root _ _ _ _ _ (fun s t => ?_) _ hr <;> grind -lia -ring -linarith -order -ac [State.root,
      Effect.Keeps, CmdEnd.Keeps, ofChk, Got.then, foldl_root]

theorem bemQuiet_root (e : Engine) (mask : BitVec 5) (s : State) : (bemQuiet e mask s).Keeps s.root := by
  unfold bemQuiet; grind -lia -ring -linarith -order -ac [State.root, Effect.Keeps, CmdEnd.Keeps, ofChk, Got.then, foldl_root,
      State.onEng_root, State.pushHidden_root]

theorem execBem_root (c : Cond) (annul : Bool) (y : BitVec 2) (m f g : BitVec 4) (o : BitVec 7) (s o9 : State) (hr : execBem c
    annul y m f g o s = .next o9) : o9.root = s.root := by
  have h := hr
  clear hr
  unfold execBem at h
  dsimp only at h
  split at h
  · refine issueWith_root _ _ _ _ _ _ (fun u => bemQuiet_root _ _ _) (fun u t => ?_) _ h
    split
    · exact keeps_wait _
    · rename_i v e
      split <;> simp only [keeps_branch, State.pushHidden_root _ _ _ _ e]
  · refine issueWith_root _ _ _ _ _ _ (fun u => bemQuiet_root _ _ _) (fun u t => ?_) _ h
    split
    · exact keeps_wait _
    · exact keeps_trap _ _ _ _
    · split <;> simp only [keeps_branch, State.onEng_root]

theorem execBemEq_root (y : BitVec 2) (m f g : BitVec 4) (o : BitVec 7) (s o9 : State) (hr : execBemEq y m f g o s = .next o9) :
    o9.root = s.root := by
  exact execBem_root (hr := hr) ..

theorem execBemEqA_root (y : BitVec 2) (m f g : BitVec 4) (o : BitVec 7) (s o9 : State) (hr : execBemEqA y m f g o s = .next o9)
    : o9.root = s.root := by
  exact execBem_root (hr := hr) ..

theorem execBemNe_root (y : BitVec 2) (m f g : BitVec 4) (o : BitVec 7) (s o9 : State) (hr : execBemNe y m f g o s = .next o9) :
    o9.root = s.root := by
  exact execBem_root (hr := hr) ..

theorem execBemNeA_root (y : BitVec 2) (m f g : BitVec 4) (o : BitVec 7) (s o9 : State) (hr : execBemNeA y m f g o s = .next o9)
    : o9.root = s.root := by
  exact execBem_root (hr := hr) ..

theorem execBemLt_root (y : BitVec 2) (m f g : BitVec 4) (o : BitVec 7) (s o9 : State) (hr : execBemLt y m f g o s = .next o9) :
    o9.root = s.root := by
  exact execBem_root (hr := hr) ..

theorem execBemLtA_root (y : BitVec 2) (m f g : BitVec 4) (o : BitVec 7) (s o9 : State) (hr : execBemLtA y m f g o s = .next o9)
    : o9.root = s.root := by
  exact execBem_root (hr := hr) ..

theorem execBemLe_root (y : BitVec 2) (m f g : BitVec 4) (o : BitVec 7) (s o9 : State) (hr : execBemLe y m f g o s = .next o9) :
    o9.root = s.root := by
  exact execBem_root (hr := hr) ..

theorem execBemLeA_root (y : BitVec 2) (m f g : BitVec 4) (o : BitVec 7) (s o9 : State) (hr : execBemLeA y m f g o s = .next o9)
    : o9.root = s.root := by
  exact execBem_root (hr := hr) ..

theorem execBemLtn_root (y : BitVec 2) (m f g : BitVec 4) (o : BitVec 7) (s o9 : State) (hr : execBemLtn y m f g o s = .next o9)
    : o9.root = s.root := by
  exact execBem_root (hr := hr) ..

theorem execBemLtnA_root (y : BitVec 2) (m f g : BitVec 4) (o : BitVec 7) (s o9 : State) (hr : execBemLtnA y m f g o s = .next
    o9) : o9.root = s.root := by
  exact execBem_root (hr := hr) ..

theorem execBemLen_root (y : BitVec 2) (m f g : BitVec 4) (o : BitVec 7) (s o9 : State) (hr : execBemLen y m f g o s = .next o9)
    : o9.root = s.root := by
  exact execBem_root (hr := hr) ..

theorem execBemLenA_root (y : BitVec 2) (m f g : BitVec 4) (o : BitVec 7) (s o9 : State) (hr : execBemLenA y m f g o s = .next
    o9) : o9.root = s.root := by
  exact execBem_root (hr := hr) ..

theorem execQpush_root (y : BitVec 2) (d : BitVec 4) (a : BitVec 5) (s o9 : State) (hr : execQpush y d a s = .next o9) : o9.root
    = s.root := by
  unfold execQpush at hr; refine issue_root _ _ _ _ _ (fun s t => ?_) _ hr <;>
    repeat' first
      | exact keeps_trap _ _ _ _
      | exact keeps_wait _
      | assumption
      | (refine ofChk_keeps _ _ _ fun _ => ?_)
      | (refine then_keeps _ _ _ fun _ _ _ => ?_)
      | (simp only [ckeeps_done, ckeeps_later, keeps_done, keeps_branch, keeps_waitWith, keeps_trapWith, apply_ite State.root,
          ite_self, root_mk, root_fold, foldl_root, implies_true]; done)
      | (rw [State.queuePush_root (hr := by assumption)]; with_reducible rfl)
      | split
      | simp only [ckeeps_done, ckeeps_later, keeps_done, keeps_branch, keeps_waitWith, keeps_trapWith, apply_ite State.root,
          ite_self, root_mk, root_fold, foldl_root, implies_true]
      | rw [State.queuePush_root (hr := by assumption)]
      | split
      | intro _
      | dsimp only

theorem execQpop_root (y : BitVec 2) (d : BitVec 5) (a : BitVec 4) (s o9 : State) (hr : execQpop y d a s = .next o9) : o9.root =
    s.root := by
  unfold execQpop at hr; refine issue_root _ _ _ _ _ (fun s t => ?_) _ hr <;>
    repeat' first
      | exact keeps_trap _ _ _ _
      | exact keeps_wait _
      | assumption
      | (refine ofChk_keeps _ _ _ fun _ => ?_)
      | (refine then_keeps _ _ _ fun _ _ _ => ?_)
      | (simp only [ckeeps_done, ckeeps_later, keeps_done, keeps_branch, keeps_waitWith, keeps_trapWith, apply_ite State.root,
          ite_self, root_mk, root_fold, foldl_root, implies_true, State.result_root]; done)
      | (rw [State.queuePop_root (hr := by assumption)]; with_reducible rfl)
      | split
      | simp only [ckeeps_done, ckeeps_later, keeps_done, keeps_branch, keeps_waitWith, keeps_trapWith, apply_ite State.root,
          ite_self, root_mk, root_fold, foldl_root, implies_true, State.result_root]
      | rw [State.queuePop_root (hr := by assumption)]
      | split
      | intro _
      | dsimp only

theorem execQpeek_root (y : BitVec 2) (d : BitVec 5) (a : BitVec 4) (s o9 : State) (hr : execQpeek y d a s = .next o9) : o9.root
    = s.root := by
  unfold execQpeek at hr; refine issue_root _ _ _ _ _ (fun s t => ?_) _ hr <;>
    repeat' first
      | exact keeps_trap _ _ _ _
      | exact keeps_wait _
      | assumption
      | (refine ofChk_keeps _ _ _ fun _ => ?_)
      | (refine then_keeps _ _ _ fun _ _ _ => ?_)
      | (simp only [ckeeps_done, ckeeps_later, keeps_done, keeps_branch, keeps_waitWith, keeps_trapWith, apply_ite State.root,
          ite_self, root_mk, root_fold, foldl_root, implies_true, State.result_root]; done)
      | (rw [State.queuePeek_root (hr := by assumption)]; with_reducible rfl)
      | split
      | simp only [ckeeps_done, ckeeps_later, keeps_done, keeps_branch, keeps_waitWith, keeps_trapWith, apply_ite State.root,
          ite_self, root_mk, root_fold, foldl_root, implies_true, State.result_root]
      | rw [State.queuePeek_root (hr := by assumption)]
      | split
      | intro _
      | dsimp only

theorem execQbind_root (y : BitVec 2) (d : BitVec 4) (p k : BitVec 5) (s o9 : State) (hr : execQbind y d p k s = .next o9) :
    o9.root = s.root := by
  unfold execQbind at hr; refine issue_root _ _ _ _ _ (fun s t => ?_) _ hr <;> grind -lia -ring -linarith -order -ac [State.root,
      Effect.Keeps, CmdEnd.Keeps, ofChk, Got.then, foldl_root, State.onMe_root]

end Sys2Proof.Machine
end

