-- ==== Sys2Proof/Laws/RootVector.lean ====
section
/-! SUPPORT. What leaves the boot record, the part and PCAP alone: vectors, streams and the mesh. Each lemma says it of one definition. -/

set_option linter.all false

namespace Sys2Proof.Machine

theorem vForm_root (zq : Bool) (y : BitVec 2) (b : BitVec 5) (wide : Bool) (srcs : List Reg) (bad : Option ℕ) (s : State) (f :
    VReg → State → ℕ → Effect) (hf : ∀ x0 x1 x2,
    (f x0 x1 x2).Keeps x1.root) (o9 : State) (hr : vForm zq y b wide srcs bad s f = .next o9) : o9.root = s.root := by
  have h := hr
  clear hr
  unfold vForm at h
  refine issuePre_root (hr := h) (hbody := fun s t => ?_) ..
  exact then_keeps _ _ _ fun v u e => (State.vsrc_root _ _ _ _ _ _ e) ▸ hf v u t

theorem State.vOut_root (s : State) (d : BitVec 5) (v : VReg) (t lat : ℕ) : (State.vOut s d v t lat).Keeps s.root := by
  unfold State.vOut; (repeat' split) <;> simp_all [Effect.Keeps, CmdEnd.Keeps, apply_ite State.root, ite_self, root_mk,
      root_fold, foldl_root, implies_true, State.result_root]

theorem vForm1_root (zq : Bool) (y : BitVec 2) (d b : BitVec 5) (wide : Bool) (srcs : List Reg) (bad : Option ℕ) (lat : ℕ) (s :
    State) (f : State → VReg → VReg) (o9 : State) (hr : vForm1 zq y d b wide srcs bad lat s f = .next o9) : o9.root = s.root := by
  unfold vForm1 at hr; refine vForm_root (hr := hr) (hf := fun _ _ _ => ?_) ..; all_goals
    repeat' first
      | exact keeps_trap _ _ _ _
      | exact keeps_wait _
      | assumption
      | (refine ofChk_keeps _ _ _ fun _ => ?_)
      | (refine then_keeps _ _ _ fun _ _ _ => ?_)
      | (simp only [ckeeps_done, ckeeps_later, keeps_done, keeps_branch, keeps_waitWith, keeps_trapWith, apply_ite State.root,
          ite_self, root_mk, root_fold, foldl_root, implies_true]; done)
      | apply State.vOut_root
      | (rw [vForm_root (hr := by assumption)]; with_reducible rfl)
      | (rw [← vForm_root (hr := by assumption)]; apply State.vOut_root)
      | split
      | simp only [ckeeps_done, ckeeps_later, keeps_done, keeps_branch, keeps_waitWith, keeps_trapWith, apply_ite State.root,
          ite_self, root_mk, root_fold, foldl_root, implies_true]
      | rw [vForm_root (hr := by assumption)]
      | split
      | intro _
      | dsimp only

theorem arith2_root (zq : Bool) (y : BitVec 2) (d a b : BitVec 5) (t : BitVec 4) (sat : Bool) (fi : ℤ → ℤ → ℤ) (ff : Fmt → ℕ → ℕ
    → ℕ) (s o9 : State) (hr : arith2 zq y d a b t sat fi ff s = .next o9) : o9.root = s.root := by
  exact vForm1_root (hr := hr) ..

theorem arith1_root (zq : Bool) (y : BitVec 2) (d b : BitVec 5) (t : BitVec 4) (sat : Bool) (fi : ℤ → ℤ) (ff : Fmt → ℕ → ℕ) (s o9
    : State) (hr : arith1 zq y d b t sat fi ff s = .next o9) : o9.root = s.root := by
  exact vForm1_root (hr := hr) ..

theorem vAdd_root (zq : Bool) (y : BitVec 2) (d a b : BitVec 5) (t : BitVec 4) (x : BitVec 1) (s o9 : State) (hr : vAdd zq y d a
    b t x s = .next o9) : o9.root = s.root := by
  exact arith2_root (hr := hr) ..

theorem execVadd_root (y : BitVec 2) (d a b : BitVec 5) (t : BitVec 4) (x : BitVec 1) (s o9 : State) (hr : execVadd y d a b t x s
    = .next o9) : o9.root = s.root := by
  exact vAdd_root (hr := hr) ..

theorem execVaddZq_root (y : BitVec 2) (d a b : BitVec 5) (t : BitVec 4) (x : BitVec 1) (s o9 : State) (hr : execVaddZq y d a b t
    x s = .next o9) : o9.root = s.root := by
  exact vAdd_root (hr := hr) ..

theorem vSub_root (zq : Bool) (y : BitVec 2) (d a b : BitVec 5) (t : BitVec 4) (x : BitVec 1) (s o9 : State) (hr : vSub zq y d a
    b t x s = .next o9) : o9.root = s.root := by
  exact arith2_root (hr := hr) ..

theorem execVsub_root (y : BitVec 2) (d a b : BitVec 5) (t : BitVec 4) (x : BitVec 1) (s o9 : State) (hr : execVsub y d a b t x s
    = .next o9) : o9.root = s.root := by
  exact vSub_root (hr := hr) ..

theorem execVsubZq_root (y : BitVec 2) (d a b : BitVec 5) (t : BitVec 4) (x : BitVec 1) (s o9 : State) (hr : execVsubZq y d a b t
    x s = .next o9) : o9.root = s.root := by
  exact vSub_root (hr := hr) ..

theorem vMul_root (zq : Bool) (y : BitVec 2) (d a b : BitVec 5) (t : BitVec 4) (x : BitVec 1) (s o9 : State) (hr : vMul zq y d a
    b t x s = .next o9) : o9.root = s.root := by
  exact arith2_root (hr := hr) ..

theorem execVmul_root (y : BitVec 2) (d a b : BitVec 5) (t : BitVec 4) (x : BitVec 1) (s o9 : State) (hr : execVmul y d a b t x s
    = .next o9) : o9.root = s.root := by
  exact vMul_root (hr := hr) ..

theorem execVmulZq_root (y : BitVec 2) (d a b : BitVec 5) (t : BitVec 4) (x : BitVec 1) (s o9 : State) (hr : execVmulZq y d a b t
    x s = .next o9) : o9.root = s.root := by
  exact vMul_root (hr := hr) ..

theorem vFma_root (zq : Bool) (y : BitVec 2) (d a b : BitVec 5) (t : BitVec 4) (s o9 : State) (hr : vFma zq y d a b t s = .next
    o9) : o9.root = s.root := by
  exact vForm1_root (hr := hr) ..

theorem execVfma_root (y : BitVec 2) (d a b : BitVec 5) (t : BitVec 4) (s o9 : State) (hr : execVfma y d a b t s = .next o9) :
    o9.root = s.root := by
  exact vFma_root (hr := hr) ..

theorem execVfmaZq_root (y : BitVec 2) (d a b : BitVec 5) (t : BitVec 4) (s o9 : State) (hr : execVfmaZq y d a b t s = .next o9)
    : o9.root = s.root := by
  exact vFma_root (hr := hr) ..

theorem vMin_root (zq : Bool) (y : BitVec 2) (d a b : BitVec 5) (t : BitVec 4) (s o9 : State) (hr : vMin zq y d a b t s = .next
    o9) : o9.root = s.root := by
  exact arith2_root (hr := hr) ..

theorem execVmin_root (y : BitVec 2) (d a b : BitVec 5) (t : BitVec 4) (s o9 : State) (hr : execVmin y d a b t s = .next o9) :
    o9.root = s.root := by
  exact vMin_root (hr := hr) ..

theorem execVminZq_root (y : BitVec 2) (d a b : BitVec 5) (t : BitVec 4) (s o9 : State) (hr : execVminZq y d a b t s = .next o9)
    : o9.root = s.root := by
  exact vMin_root (hr := hr) ..

theorem vMax_root (zq : Bool) (y : BitVec 2) (d a b : BitVec 5) (t : BitVec 4) (s o9 : State) (hr : vMax zq y d a b t s = .next
    o9) : o9.root = s.root := by
  exact arith2_root (hr := hr) ..

theorem execVmax_root (y : BitVec 2) (d a b : BitVec 5) (t : BitVec 4) (s o9 : State) (hr : execVmax y d a b t s = .next o9) :
    o9.root = s.root := by
  exact vMax_root (hr := hr) ..

theorem execVmaxZq_root (y : BitVec 2) (d a b : BitVec 5) (t : BitVec 4) (s o9 : State) (hr : execVmaxZq y d a b t s = .next o9)
    : o9.root = s.root := by
  exact vMax_root (hr := hr) ..

theorem vAbs_root (zq : Bool) (y : BitVec 2) (d b : BitVec 5) (t : BitVec 4) (x : BitVec 1) (s o9 : State) (hr : vAbs zq y d b t
    x s = .next o9) : o9.root = s.root := by
  exact arith1_root (hr := hr) ..

theorem execVabs_root (y : BitVec 2) (d b : BitVec 5) (t : BitVec 4) (x : BitVec 1) (s o9 : State) (hr : execVabs y d b t x s =
    .next o9) : o9.root = s.root := by
  exact vAbs_root (hr := hr) ..

theorem execVabsZq_root (y : BitVec 2) (d b : BitVec 5) (t : BitVec 4) (x : BitVec 1) (s o9 : State) (hr : execVabsZq y d b t x s
    = .next o9) : o9.root = s.root := by
  exact vAbs_root (hr := hr) ..

theorem vNeg_root (zq : Bool) (y : BitVec 2) (d b : BitVec 5) (t : BitVec 4) (x : BitVec 1) (s o9 : State) (hr : vNeg zq y d b t
    x s = .next o9) : o9.root = s.root := by
  exact arith1_root (hr := hr) ..

theorem execVneg_root (y : BitVec 2) (d b : BitVec 5) (t : BitVec 4) (x : BitVec 1) (s o9 : State) (hr : execVneg y d b t x s =
    .next o9) : o9.root = s.root := by
  exact vNeg_root (hr := hr) ..

theorem execVnegZq_root (y : BitVec 2) (d b : BitVec 5) (t : BitVec 4) (x : BitVec 1) (s o9 : State) (hr : execVnegZq y d b t x s
    = .next o9) : o9.root = s.root := by
  exact vNeg_root (hr := hr) ..

theorem bits2_root (zq : Bool) (y : BitVec 2) (d a b : BitVec 5) (f : BitVec 32 → BitVec 32 → BitVec 32) (s o9 : State) (hr :
    bits2 zq y d a b f s = .next o9) : o9.root = s.root := by
  exact vForm1_root (hr := hr) ..

theorem execVand_root (y : BitVec 2) (d a b : BitVec 5) (s o9 : State) (hr : execVand y d a b s = .next o9) : o9.root = s.root :=
    by
  exact bits2_root (hr := hr) ..

theorem execVandZq_root (y : BitVec 2) (d a b : BitVec 5) (s o9 : State) (hr : execVandZq y d a b s = .next o9) : o9.root =
    s.root := by
  exact bits2_root (hr := hr) ..

theorem execVor_root (y : BitVec 2) (d a b : BitVec 5) (s o9 : State) (hr : execVor y d a b s = .next o9) : o9.root = s.root := by
  exact bits2_root (hr := hr) ..

theorem execVorZq_root (y : BitVec 2) (d a b : BitVec 5) (s o9 : State) (hr : execVorZq y d a b s = .next o9) : o9.root = s.root
    := by
  exact bits2_root (hr := hr) ..

theorem execVxor_root (y : BitVec 2) (d a b : BitVec 5) (s o9 : State) (hr : execVxor y d a b s = .next o9) : o9.root = s.root :=
    by
  exact bits2_root (hr := hr) ..

theorem execVxorZq_root (y : BitVec 2) (d a b : BitVec 5) (s o9 : State) (hr : execVxorZq y d a b s = .next o9) : o9.root =
    s.root := by
  exact bits2_root (hr := hr) ..

theorem vNot_root (zq : Bool) (y : BitVec 2) (d b : BitVec 5) (s o9 : State) (hr : vNot zq y d b s = .next o9) : o9.root = s.root
    := by
  exact vForm1_root (hr := hr) ..

theorem execVnot_root (y : BitVec 2) (d b : BitVec 5) (s o9 : State) (hr : execVnot y d b s = .next o9) : o9.root = s.root := by
  exact vNot_root (hr := hr) ..

theorem execVnotZq_root (y : BitVec 2) (d b : BitVec 5) (s o9 : State) (hr : execVnotZq y d b s = .next o9) : o9.root = s.root :=
    by
  exact vNot_root (hr := hr) ..

theorem shift2_root (zq : Bool) (y : BitVec 2) (d a b : BitVec 5) (t : BitVec 4) (f : ℕ → ℕ → ℕ → ℕ) (s o9 : State) (hr : shift2
    zq y d a b t f s = .next o9) : o9.root = s.root := by
  exact vForm1_root (hr := hr) ..

theorem execVshl_root (y : BitVec 2) (d a b : BitVec 5) (t : BitVec 4) (s o9 : State) (hr : execVshl y d a b t s = .next o9) :
    o9.root = s.root := by
  exact shift2_root (hr := hr) ..

theorem execVshlZq_root (y : BitVec 2) (d a b : BitVec 5) (t : BitVec 4) (s o9 : State) (hr : execVshlZq y d a b t s = .next o9)
    : o9.root = s.root := by
  exact shift2_root (hr := hr) ..

theorem execVshr_root (y : BitVec 2) (d a b : BitVec 5) (t : BitVec 4) (s o9 : State) (hr : execVshr y d a b t s = .next o9) :
    o9.root = s.root := by
  exact shift2_root (hr := hr) ..

theorem execVshrZq_root (y : BitVec 2) (d a b : BitVec 5) (t : BitVec 4) (s o9 : State) (hr : execVshrZq y d a b t s = .next o9)
    : o9.root = s.root := by
  exact shift2_root (hr := hr) ..

theorem execVsar_root (y : BitVec 2) (d a b : BitVec 5) (t : BitVec 4) (s o9 : State) (hr : execVsar y d a b t s = .next o9) :
    o9.root = s.root := by
  exact shift2_root (hr := hr) ..

theorem execVsarZq_root (y : BitVec 2) (d a b : BitVec 5) (t : BitVec 4) (s o9 : State) (hr : execVsarZq y d a b t s = .next o9)
    : o9.root = s.root := by
  exact shift2_root (hr := hr) ..

theorem count1_root (zq : Bool) (y : BitVec 2) (d b : BitVec 5) (t : BitVec 4) (f : ℕ → ℕ → ℕ) (s o9 : State) (hr : count1 zq y d
    b t f s = .next o9) : o9.root = s.root := by
  exact vForm1_root (hr := hr) ..

theorem execVclz_root (y : BitVec 2) (d b : BitVec 5) (t : BitVec 4) (s o9 : State) (hr : execVclz y d b t s = .next o9) :
    o9.root = s.root := by
  exact count1_root (hr := hr) ..

theorem execVclzZq_root (y : BitVec 2) (d b : BitVec 5) (t : BitVec 4) (s o9 : State) (hr : execVclzZq y d b t s = .next o9) :
    o9.root = s.root := by
  exact count1_root (hr := hr) ..

theorem execVpopc_root (y : BitVec 2) (d b : BitVec 5) (t : BitVec 4) (s o9 : State) (hr : execVpopc y d b t s = .next o9) :
    o9.root = s.root := by
  exact count1_root (hr := hr) ..

theorem execVpopcZq_root (y : BitVec 2) (d b : BitVec 5) (t : BitVec 4) (s o9 : State) (hr : execVpopcZq y d b t s = .next o9) :
    o9.root = s.root := by
  exact count1_root (hr := hr) ..

theorem vCmp_root (c : Cond) (zq : Bool) (y : BitVec 2) (d : BitVec 3) (a b : BitVec 5) (t : BitVec 4) (s o9 : State) (hr : vCmp
    c zq y d a b t s = .next o9) : o9.root = s.root := by
  unfold vCmp at hr; refine vForm_root (hr := hr) (hf := fun _ _ _ => ?_) ..; all_goals
    repeat' first
      | exact keeps_trap _ _ _ _
      | exact keeps_wait _
      | assumption
      | (refine ofChk_keeps _ _ _ fun _ => ?_)
      | (refine then_keeps _ _ _ fun _ _ _ => ?_)
      | (simp only [ckeeps_done, ckeeps_later, keeps_done, keeps_branch, keeps_waitWith, keeps_trapWith, apply_ite State.root,
          ite_self, root_mk, root_fold, foldl_root, implies_true, State.result_root]; done)
      | (rw [vForm_root (hr := by assumption)]; with_reducible rfl)
      | split
      | simp only [ckeeps_done, ckeeps_later, keeps_done, keeps_branch, keeps_waitWith, keeps_trapWith, apply_ite State.root,
          ite_self, root_mk, root_fold, foldl_root, implies_true, State.result_root]
      | rw [vForm_root (hr := by assumption)]
      | split
      | intro _
      | dsimp only

theorem execVcmpEq_root (y : BitVec 2) (d : BitVec 3) (a b : BitVec 5) (t : BitVec 4) (s o9 : State) (hr : execVcmpEq y d a b t s
    = .next o9) : o9.root = s.root := by
  exact vCmp_root (hr := hr) ..

theorem execVcmpEqZq_root (y : BitVec 2) (d : BitVec 3) (a b : BitVec 5) (t : BitVec 4) (s o9 : State) (hr : execVcmpEqZq y d a b
    t s = .next o9) : o9.root = s.root := by
  exact vCmp_root (hr := hr) ..

theorem execVcmpNe_root (y : BitVec 2) (d : BitVec 3) (a b : BitVec 5) (t : BitVec 4) (s o9 : State) (hr : execVcmpNe y d a b t s
    = .next o9) : o9.root = s.root := by
  exact vCmp_root (hr := hr) ..

theorem execVcmpNeZq_root (y : BitVec 2) (d : BitVec 3) (a b : BitVec 5) (t : BitVec 4) (s o9 : State) (hr : execVcmpNeZq y d a b
    t s = .next o9) : o9.root = s.root := by
  exact vCmp_root (hr := hr) ..

theorem execVcmpLt_root (y : BitVec 2) (d : BitVec 3) (a b : BitVec 5) (t : BitVec 4) (s o9 : State) (hr : execVcmpLt y d a b t s
    = .next o9) : o9.root = s.root := by
  exact vCmp_root (hr := hr) ..

theorem execVcmpLtZq_root (y : BitVec 2) (d : BitVec 3) (a b : BitVec 5) (t : BitVec 4) (s o9 : State) (hr : execVcmpLtZq y d a b
    t s = .next o9) : o9.root = s.root := by
  exact vCmp_root (hr := hr) ..

theorem execVcmpLe_root (y : BitVec 2) (d : BitVec 3) (a b : BitVec 5) (t : BitVec 4) (s o9 : State) (hr : execVcmpLe y d a b t s
    = .next o9) : o9.root = s.root := by
  exact vCmp_root (hr := hr) ..

theorem execVcmpLeZq_root (y : BitVec 2) (d : BitVec 3) (a b : BitVec 5) (t : BitVec 4) (s o9 : State) (hr : execVcmpLeZq y d a b
    t s = .next o9) : o9.root = s.root := by
  exact vCmp_root (hr := hr) ..

theorem execVcmpLtn_root (y : BitVec 2) (d : BitVec 3) (a b : BitVec 5) (t : BitVec 4) (s o9 : State) (hr : execVcmpLtn y d a b t
    s = .next o9) : o9.root = s.root := by
  exact vCmp_root (hr := hr) ..

theorem execVcmpLtnZq_root (y : BitVec 2) (d : BitVec 3) (a b : BitVec 5) (t : BitVec 4) (s o9 : State) (hr : execVcmpLtnZq y d a
    b t s = .next o9) : o9.root = s.root := by
  exact vCmp_root (hr := hr) ..

theorem execVcmpLen_root (y : BitVec 2) (d : BitVec 3) (a b : BitVec 5) (t : BitVec 4) (s o9 : State) (hr : execVcmpLen y d a b t
    s = .next o9) : o9.root = s.root := by
  exact vCmp_root (hr := hr) ..

theorem execVcmpLenZq_root (y : BitVec 2) (d : BitVec 3) (a b : BitVec 5) (t : BitVec 4) (s o9 : State) (hr : execVcmpLenZq y d a
    b t s = .next o9) : o9.root = s.root := by
  exact vCmp_root (hr := hr) ..

theorem vSel_root (zq : Bool) (y : BitVec 2) (d a b : BitVec 5) (m : BitVec 3) (s o9 : State) (hr : vSel zq y d a b m s = .next
    o9) : o9.root = s.root := by
  exact vForm1_root (hr := hr) ..

theorem execVsel_root (y : BitVec 2) (d a b : BitVec 5) (m : BitVec 3) (s o9 : State) (hr : execVsel y d a b m s = .next o9) :
    o9.root = s.root := by
  exact vSel_root (hr := hr) ..

theorem execVselZq_root (y : BitVec 2) (d a b : BitVec 5) (m : BitVec 3) (s o9 : State) (hr : execVselZq y d a b m s = .next o9)
    : o9.root = s.root := by
  exact vSel_root (hr := hr) ..

theorem mask2_root (y : BitVec 2) (d a b : BitVec 3) (f : BitVec 128 → BitVec 128 → BitVec 128) (s o9 : State) (hr : mask2 y d a
    b f s = .next o9) : o9.root = s.root := by
  unfold mask2 at hr; refine issue_root _ _ _ _ _ (fun s t => ?_) _ hr <;> grind -lia -ring -linarith -order -ac [State.root,
      Effect.Keeps, CmdEnd.Keeps, ofChk, Got.then, foldl_root, State.result_root]

theorem execMand_root (y : BitVec 2) (d a b : BitVec 3) (s o9 : State) (hr : execMand y d a b s = .next o9) : o9.root = s.root :=
    by
  exact mask2_root (hr := hr) ..

theorem execMor_root (y : BitVec 2) (d a b : BitVec 3) (s o9 : State) (hr : execMor y d a b s = .next o9) : o9.root = s.root := by
  exact mask2_root (hr := hr) ..

theorem execMxor_root (y : BitVec 2) (d a b : BitVec 3) (s o9 : State) (hr : execMxor y d a b s = .next o9) : o9.root = s.root :=
    by
  exact mask2_root (hr := hr) ..

theorem execMnot_root (y : BitVec 2) (d b : BitVec 3) (s o9 : State) (hr : execMnot y d b s = .next o9) : o9.root = s.root := by
  unfold execMnot at hr; refine issue_root _ _ _ _ _ (fun s t => ?_) _ hr <;> grind -lia -ring -linarith -order -ac [State.root,
      Effect.Keeps, CmdEnd.Keeps, ofChk, Got.then, foldl_root, State.result_root]

theorem maskCount_root (y : BitVec 2) (d : BitVec 5) (b : BitVec 3) (f : ℕ → ℕ) (s o9 : State) (hr : maskCount y d b f s = .next
    o9) : o9.root = s.root := by
  unfold maskCount at hr; refine issue_root _ _ _ _ _ (fun s t => ?_) _ hr <;> grind -lia -ring -linarith -order -ac [State.root,
      Effect.Keeps, CmdEnd.Keeps, ofChk, Got.then, foldl_root, State.vOut_root]

theorem execMpopc_root (y : BitVec 2) (d : BitVec 5) (b : BitVec 3) (s o9 : State) (hr : execMpopc y d b s = .next o9) : o9.root
    = s.root := by
  exact maskCount_root (hr := hr) ..

theorem execMfirst_root (y : BitVec 2) (d : BitVec 5) (b : BitVec 3) (s o9 : State) (hr : execMfirst y d b s = .next o9) :
    o9.root = s.root := by
  exact maskCount_root (hr := hr) ..

theorem vCvt_root (zq : Bool) (y : BitVec 2) (d : BitVec 5) (h : BitVec 1) (st : BitVec 4) (b : BitVec 5) (dt : BitVec 4) (l :
    BitVec 1) (s o9 : State) (hr : vCvt zq y d h st b dt l s = .next o9) : o9.root = s.root := by
  exact vForm1_root (hr := hr) ..

theorem execVcvt_root (y : BitVec 2) (d : BitVec 5) (h : BitVec 1) (st : BitVec 4) (b : BitVec 5) (dt : BitVec 4) (l : BitVec 1)
    (s o9 : State) (hr : execVcvt y d h st b dt l s = .next o9) : o9.root = s.root := by
  exact vCvt_root (hr := hr) ..

theorem execVcvtZq_root (y : BitVec 2) (d : BitVec 5) (h : BitVec 1) (st : BitVec 4) (b : BitVec 5) (dt : BitVec 4) (l : BitVec
    1) (s o9 : State) (hr : execVcvtZq y d h st b dt l s = .next o9) : o9.root = s.root := by
  exact vCvt_root (hr := hr) ..

theorem vExt_root (zq : Bool) (y : BitVec 2) (d a b : BitVec 5) (x : BitVec 1) (s o9 : State) (hr : vExt zq y d a b x s = .next
    o9) : o9.root = s.root := by
  exact vForm1_root (hr := hr) ..

theorem execVext_root (y : BitVec 2) (d a b : BitVec 5) (x : BitVec 1) (s o9 : State) (hr : execVext y d a b x s = .next o9) :
    o9.root = s.root := by
  exact vExt_root (hr := hr) ..

theorem execVextZq_root (y : BitVec 2) (d a b : BitVec 5) (x : BitVec 1) (s o9 : State) (hr : execVextZq y d a b x s = .next o9)
    : o9.root = s.root := by
  exact vExt_root (hr := hr) ..

theorem vIns_root (zq : Bool) (y : BitVec 2) (d a b : BitVec 5) (s o9 : State) (hr : vIns zq y d a b s = .next o9) : o9.root =
    s.root := by
  exact vForm1_root (hr := hr) ..

theorem execVins_root (y : BitVec 2) (d a b : BitVec 5) (s o9 : State) (hr : execVins y d a b s = .next o9) : o9.root = s.root :=
    by
  exact vIns_root (hr := hr) ..

theorem execVinsZq_root (y : BitVec 2) (d a b : BitVec 5) (s o9 : State) (hr : execVinsZq y d a b s = .next o9) : o9.root =
    s.root := by
  exact vIns_root (hr := hr) ..

theorem vFsh_root (zq : Bool) (y : BitVec 2) (d a b : BitVec 5) (s o9 : State) (hr : vFsh zq y d a b s = .next o9) : o9.root =
    s.root := by
  exact vForm1_root (hr := hr) ..

theorem execVfsh_root (y : BitVec 2) (d a b : BitVec 5) (s o9 : State) (hr : execVfsh y d a b s = .next o9) : o9.root = s.root :=
    by
  exact vFsh_root (hr := hr) ..

theorem execVfshZq_root (y : BitVec 2) (d a b : BitVec 5) (s o9 : State) (hr : execVfshZq y d a b s = .next o9) : o9.root =
    s.root := by
  exact vFsh_root (hr := hr) ..

theorem vMov_root (zq : Bool) (y : BitVec 2) (d b : BitVec 5) (s o9 : State) (hr : vMov zq y d b s = .next o9) : o9.root = s.root
    := by
  exact vForm1_root (hr := hr) ..

theorem execVmov_root (y : BitVec 2) (d b : BitVec 5) (s o9 : State) (hr : execVmov y d b s = .next o9) : o9.root = s.root := by
  exact vMov_root (hr := hr) ..

theorem execVmovZq_root (y : BitVec 2) (d b : BitVec 5) (s o9 : State) (hr : execVmovZq y d b s = .next o9) : o9.root = s.root :=
    by
  exact vMov_root (hr := hr) ..

theorem vPerm_root (zq : Bool) (y : BitVec 2) (d a b : BitVec 5) (s o9 : State) (hr : vPerm zq y d a b s = .next o9) : o9.root =
    s.root := by
  exact vForm1_root (hr := hr) ..

theorem execVperm_root (y : BitVec 2) (d a b : BitVec 5) (s o9 : State) (hr : execVperm y d a b s = .next o9) : o9.root = s.root
    := by
  exact vPerm_root (hr := hr) ..

theorem execVpermZq_root (y : BitVec 2) (d a b : BitVec 5) (s o9 : State) (hr : execVpermZq y d a b s = .next o9) : o9.root =
    s.root := by
  exact vPerm_root (hr := hr) ..

theorem vBcast_root (zq : Bool) (y : BitVec 2) (d a b : BitVec 5) (s o9 : State) (hr : vBcast zq y d a b s = .next o9) : o9.root
    = s.root := by
  exact vForm1_root (hr := hr) ..

theorem execVbcast_root (y : BitVec 2) (d a b : BitVec 5) (s o9 : State) (hr : execVbcast y d a b s = .next o9) : o9.root =
    s.root := by
  exact vBcast_root (hr := hr) ..

theorem execVbcastZq_root (y : BitVec 2) (d a b : BitVec 5) (s o9 : State) (hr : execVbcastZq y d a b s = .next o9) : o9.root =
    s.root := by
  exact vBcast_root (hr := hr) ..

theorem vLsh_root (zq : Bool) (y : BitVec 2) (d a b : BitVec 5) (s o9 : State) (hr : vLsh zq y d a b s = .next o9) : o9.root =
    s.root := by
  exact vForm1_root (hr := hr) ..

theorem execVlsh_root (y : BitVec 2) (d a b : BitVec 5) (s o9 : State) (hr : execVlsh y d a b s = .next o9) : o9.root = s.root :=
    by
  exact vLsh_root (hr := hr) ..

theorem execVlshZq_root (y : BitVec 2) (d a b : BitVec 5) (s o9 : State) (hr : execVlshZq y d a b s = .next o9) : o9.root =
    s.root := by
  exact vLsh_root (hr := hr) ..

theorem State.streamPeek_root (s : State) (z : BitVec 4) (w9) (o9 : State) (hr : State.streamPeek s z = .ok w9 o9) : o9.root =
    s.root := by
  unfold State.streamPeek at hr; (repeat' split at hr) <;> (try cases hr) <;>
    repeat first
      | with_reducible rfl
      | assumption
      | (simp only [apply_ite State.root, ite_self, root_mk, root_fold, foldl_root, implies_true, State.onMe_root]; done)
      | rw [State.streamPop_root (hr := by assumption)]
      | simp only [apply_ite State.root, ite_self, root_mk, root_fold, foldl_root, implies_true, State.onMe_root]

theorem execVfroms_root (y : BitVec 2) (d b : BitVec 5) (s o9 : State) (hr : execVfroms y d b s = .next o9) : o9.root = s.root :=
    by
  have h := hr
  clear hr
  unfold execVfroms at h
  refine issue_root _ _ _ _ _ (fun s t => ?_) _ h
  split
  · refine then_keeps _ _ _ fun v u e => ?_
    rw [← State.queuePeek_root (hr := e) ..]
    apply State.vOut_root
  · refine then_keeps _ _ _ fun v u e => ?_
    rw [← State.streamPeek_root (hr := e) ..]
    apply State.vOut_root

theorem execVtos_root (y : BitVec 2) (a b : BitVec 5) (s o9 : State) (hr : execVtos y a b s = .next o9) : o9.root = s.root := by
  unfold execVtos at hr; refine issue_root _ _ _ _ _ (fun s t => ?_) _ hr <;>
    repeat' first
      | exact keeps_trap _ _ _ _
      | exact keeps_wait _
      | assumption
      | (refine ofChk_keeps _ _ _ fun _ => ?_)
      | (refine then_keeps _ _ _ fun _ _ _ => ?_)
      | (simp only [ckeeps_done, ckeeps_later, keeps_done, keeps_branch, keeps_waitWith, keeps_trapWith, apply_ite State.root,
          ite_self, root_mk, root_fold, foldl_root, implies_true]; done)
      | (rw [State.queuePush_root (hr := by assumption)]; with_reducible rfl)
      | (rw [State.streamPush_root (hr := by assumption)]; with_reducible rfl)
      | split
      | simp only [ckeeps_done, ckeeps_later, keeps_done, keeps_branch, keeps_waitWith, keeps_trapWith, apply_ite State.root,
          ite_self, root_mk, root_fold, foldl_root, implies_true]
      | rw [State.queuePush_root (hr := by assumption)]
      | rw [State.streamPush_root (hr := by assumption)]
      | split
      | intro _
      | dsimp only

theorem execVli_root (y : BitVec 2) (d : BitVec 5) (k : BitVec 15) (s o9 : State) (hr : execVli y d k s = .next o9) : o9.root =
    s.root := by
  unfold execVli at hr; refine issue_root _ _ _ _ _ (fun s t => ?_) _ hr <;> grind -lia -ring -linarith -order -ac [State.root,
      Effect.Keeps, CmdEnd.Keeps, ofChk, Got.then, foldl_root, State.vOut_root]

@[simp] theorem State.freshMany_root (s : State) (n : ℕ) : (State.freshMany s n).root = s.root := by
  unfold State.freshMany; simp only [apply_ite State.root, ite_self, root_mk, root_fold, foldl_root, implies_true]

theorem vReduce_root (scan zq : Bool) (y : BitVec 2) (d : BitVec 5) (m : BitVec 1) (p : BitVec 4) (b : BitVec 5) (t : BitVec 4)
    (x : BitVec 1) (s o9 : State) (hr : vReduce scan zq y d m p b t x s = .next o9) : o9.root = s.root := by
  unfold vReduce at hr; refine vForm_root (hr := hr) (hf := fun _ _ _ => ?_) ..; all_goals
    repeat' first
      | exact keeps_trap _ _ _ _
      | exact keeps_wait _
      | assumption
      | (refine ofChk_keeps _ _ _ fun _ => ?_)
      | (refine then_keeps _ _ _ fun _ _ _ => ?_)
      | (simp only [ckeeps_done, ckeeps_later, keeps_done, keeps_branch, keeps_waitWith, keeps_trapWith, apply_ite State.root,
          ite_self, root_mk, root_fold, foldl_root, implies_true, State.freshMany_root]; done)
      | apply State.vOut_root
      | (rw [vForm_root (hr := by assumption)]; with_reducible rfl)
      | (rw [← vForm_root (hr := by assumption)]; apply State.vOut_root)
      | split
      | simp only [ckeeps_done, ckeeps_later, keeps_done, keeps_branch, keeps_waitWith, keeps_trapWith, apply_ite State.root,
          ite_self, root_mk, root_fold, foldl_root, implies_true, State.freshMany_root]
      | rw [vForm_root (hr := by assumption)]
      | split
      | intro _
      | dsimp only

theorem execVred_root (y : BitVec 2) (d : BitVec 5) (m : BitVec 1) (p : BitVec 4) (b : BitVec 5) (t : BitVec 4) (x : BitVec 1) (s
    o9 : State) (hr : execVred y d m p b t x s = .next o9) : o9.root = s.root := by
  exact vReduce_root (hr := hr) ..

theorem execVredZq_root (y : BitVec 2) (d : BitVec 5) (m : BitVec 1) (p : BitVec 4) (b : BitVec 5) (t : BitVec 4) (x : BitVec 1)
    (s o9 : State) (hr : execVredZq y d m p b t x s = .next o9) : o9.root = s.root := by
  exact vReduce_root (hr := hr) ..

theorem execVscan_root (y : BitVec 2) (d : BitVec 5) (m : BitVec 1) (p : BitVec 4) (b : BitVec 5) (t : BitVec 4) (x : BitVec 1)
    (s o9 : State) (hr : execVscan y d m p b t x s = .next o9) : o9.root = s.root := by
  exact vReduce_root (hr := hr) ..

theorem execVscanZq_root (y : BitVec 2) (d : BitVec 5) (m : BitVec 1) (p : BitVec 4) (b : BitVec 5) (t : BitVec 4) (x : BitVec 1)
    (s o9 : State) (hr : execVscanZq y d m p b t x s = .next o9) : o9.root = s.root := by
  exact vReduce_root (hr := hr) ..

theorem gather_root (index : BitVec 32 → ℕ) (zq : Bool) (y : BitVec 2) (d a b : BitVec 5) (t : BitVec 4) (s o9 : State) (hr :
    gather index zq y d a b t s = .next o9) : o9.root = s.root := by
  unfold gather at hr; refine vForm_root (hr := hr) (hf := fun _ _ _ => ?_) ..; all_goals
    repeat' first
      | exact keeps_trap _ _ _ _
      | exact keeps_wait _
      | assumption
      | (refine ofChk_keeps _ _ _ fun _ => ?_)
      | (refine then_keeps _ _ _ fun _ _ _ => ?_)
      | (simp only [ckeeps_done, ckeeps_later, keeps_done, keeps_branch, keeps_waitWith, keeps_trapWith, apply_ite State.root,
          ite_self, root_mk, root_fold, foldl_root, implies_true, State.onMe_root]; done)
      | (rw [vForm_root (hr := by assumption)]; with_reducible rfl)
      | split
      | simp only [ckeeps_done, ckeeps_later, keeps_done, keeps_branch, keeps_waitWith, keeps_trapWith, apply_ite State.root,
          ite_self, root_mk, root_fold, foldl_root, implies_true, State.onMe_root]
      | rw [vForm_root (hr := by assumption)]
      | split
      | intro _
      | dsimp only

theorem execVgath_root (y : BitVec 2) (d a b : BitVec 5) (t : BitVec 4) (s o9 : State) (hr : execVgath y d a b t s = .next o9) :
    o9.root = s.root := by
  exact gather_root (hr := hr) ..

theorem execVgathZq_root (y : BitVec 2) (d a b : BitVec 5) (t : BitVec 4) (s o9 : State) (hr : execVgathZq y d a b t s = .next
    o9) : o9.root = s.root := by
  exact gather_root (hr := hr) ..

theorem execVlut_root (y : BitVec 2) (d a b : BitVec 5) (t : BitVec 4) (s o9 : State) (hr : execVlut y d a b t s = .next o9) :
    o9.root = s.root := by
  exact gather_root (hr := hr) ..

theorem execVlutZq_root (y : BitVec 2) (d a b : BitVec 5) (t : BitVec 4) (s o9 : State) (hr : execVlutZq y d a b t s = .next o9)
    : o9.root = s.root := by
  exact gather_root (hr := hr) ..

theorem vScat_root (zq : Bool) (y : BitVec 2) (d a b : BitVec 5) (t : BitVec 4) (s o9 : State) (hr : vScat zq y d a b t s = .next
    o9) : o9.root = s.root := by
  unfold vScat at hr; refine vForm_root (hr := hr) (hf := fun _ _ _ => ?_) ..; all_goals
    repeat' first
      | exact keeps_trap _ _ _ _
      | exact keeps_wait _
      | assumption
      | (refine ofChk_keeps _ _ _ fun _ => ?_)
      | (refine then_keeps _ _ _ fun _ _ _ => ?_)
      | (simp only [ckeeps_done, ckeeps_later, keeps_done, keeps_branch, keeps_waitWith, keeps_trapWith, apply_ite State.root,
          ite_self, root_mk, root_fold, foldl_root, implies_true, State.onMe_root]; done)
      | (rw [vForm_root (hr := by assumption)]; with_reducible rfl)
      | split
      | simp only [ckeeps_done, ckeeps_later, keeps_done, keeps_branch, keeps_waitWith, keeps_trapWith, apply_ite State.root,
          ite_self, root_mk, root_fold, foldl_root, implies_true, State.onMe_root]
      | rw [vForm_root (hr := by assumption)]
      | split
      | intro _
      | dsimp only

theorem execVscat_root (y : BitVec 2) (d a b : BitVec 5) (t : BitVec 4) (s o9 : State) (hr : execVscat y d a b t s = .next o9) :
    o9.root = s.root := by
  exact vScat_root (hr := hr) ..

theorem execVscatZq_root (y : BitVec 2) (d a b : BitVec 5) (t : BitVec 4) (s o9 : State) (hr : execVscatZq y d a b t s = .next
    o9) : o9.root = s.root := by
  exact vScat_root (hr := hr) ..

theorem vAadd_root (zq : Bool) (y : BitVec 2) (d a b : BitVec 5) (t : BitVec 4) (f : BitVec 1) (s o9 : State) (hr : vAadd zq y d
    a b t f s = .next o9) : o9.root = s.root := by
  unfold vAadd at hr; refine vForm_root (hr := hr) (hf := fun _ _ _ => ?_) ..; all_goals
    repeat' first
      | exact keeps_trap _ _ _ _
      | exact keeps_wait _
      | assumption
      | (refine ofChk_keeps _ _ _ fun _ => ?_)
      | (refine then_keeps _ _ _ fun _ _ _ => ?_)
      | (simp only [ckeeps_done, ckeeps_later, keeps_done, keeps_branch, keeps_waitWith, keeps_trapWith, apply_ite State.root,
          ite_self, root_mk, root_fold, foldl_root, implies_true, State.onMe_root]; done)
      | (rw [vForm_root (hr := by assumption)]; with_reducible rfl)
      | split
      | simp only [ckeeps_done, ckeeps_later, keeps_done, keeps_branch, keeps_waitWith, keeps_trapWith, apply_ite State.root,
          ite_self, root_mk, root_fold, foldl_root, implies_true, State.onMe_root]
      | rw [vForm_root (hr := by assumption)]
      | split
      | intro _
      | dsimp only

theorem execVaadd_root (y : BitVec 2) (d a b : BitVec 5) (t : BitVec 4) (f : BitVec 1) (s o9 : State) (hr : execVaadd y d a b t f
    s = .next o9) : o9.root = s.root := by
  exact vAadd_root (hr := hr) ..

theorem execVaaddZq_root (y : BitVec 2) (d a b : BitVec 5) (t : BitVec 4) (f : BitVec 1) (s o9 : State) (hr : execVaaddZq y d a b
    t f s = .next o9) : o9.root = s.root := by
  exact vAadd_root (hr := hr) ..

theorem vAtan_root (zq : Bool) (y : BitVec 2) (d a b : BitVec 5) (t : BitVec 4) (g : BitVec 1) (s o9 : State) (hr : vAtan zq y d
    a b t g s = .next o9) : o9.root = s.root := by
  unfold vAtan at hr; refine vForm_root (hr := hr) (hf := fun _ _ _ => ?_) ..; all_goals
    repeat' first
      | exact keeps_trap _ _ _ _
      | exact keeps_wait _
      | assumption
      | (refine ofChk_keeps _ _ _ fun _ => ?_)
      | (refine then_keeps _ _ _ fun _ _ _ => ?_)
      | (simp only [ckeeps_done, ckeeps_later, keeps_done, keeps_branch, keeps_waitWith, keeps_trapWith, apply_ite State.root,
          ite_self, root_mk, root_fold, foldl_root, implies_true, State.fresh_root]; done)
      | apply State.vOut_root
      | (rw [vForm_root (hr := by assumption)]; with_reducible rfl)
      | (rw [← vForm_root (hr := by assumption)]; apply State.vOut_root)
      | split
      | simp only [ckeeps_done, ckeeps_later, keeps_done, keeps_branch, keeps_waitWith, keeps_trapWith, apply_ite State.root,
          ite_self, root_mk, root_fold, foldl_root, implies_true, State.fresh_root]
      | rw [vForm_root (hr := by assumption)]
      | split
      | intro _
      | dsimp only

theorem execVatan_root (y : BitVec 2) (d a b : BitVec 5) (t : BitVec 4) (g : BitVec 1) (s o9 : State) (hr : execVatan y d a b t g
    s = .next o9) : o9.root = s.root := by
  exact vAtan_root (hr := hr) ..

theorem execVatanZq_root (y : BitVec 2) (d a b : BitVec 5) (t : BitVec 4) (g : BitVec 1) (s o9 : State) (hr : execVatanZq y d a b
    t g s = .next o9) : o9.root = s.root := by
  exact vAtan_root (hr := hr) ..

theorem vSincos_root (zq : Bool) (y : BitVec 2) (d b : BitVec 5) (t : BitVec 4) (g : BitVec 1) (s o9 : State) (hr : vSincos zq y
    d b t g s = .next o9) : o9.root = s.root := by
  unfold vSincos at hr; refine vForm_root (hr := hr) (hf := fun _ _ _ => ?_) ..; all_goals
    repeat' first
      | exact keeps_trap _ _ _ _
      | exact keeps_wait _
      | assumption
      | (refine ofChk_keeps _ _ _ fun _ => ?_)
      | (refine then_keeps _ _ _ fun _ _ _ => ?_)
      | (simp only [ckeeps_done, ckeeps_later, keeps_done, keeps_branch, keeps_waitWith, keeps_trapWith, apply_ite State.root,
          ite_self, root_mk, root_fold, foldl_root, implies_true, State.result_root]; done)
      | (rw [vForm_root (hr := by assumption)]; with_reducible rfl)
      | split
      | simp only [ckeeps_done, ckeeps_later, keeps_done, keeps_branch, keeps_waitWith, keeps_trapWith, apply_ite State.root,
          ite_self, root_mk, root_fold, foldl_root, implies_true, State.result_root]
      | rw [vForm_root (hr := by assumption)]
      | split
      | intro _
      | dsimp only

theorem execVsincos_root (y : BitVec 2) (d b : BitVec 5) (t : BitVec 4) (g : BitVec 1) (s o9 : State) (hr : execVsincos y d b t g
    s = .next o9) : o9.root = s.root := by
  exact vSincos_root (hr := hr) ..

theorem execVsincosZq_root (y : BitVec 2) (d b : BitVec 5) (t : BitVec 4) (g : BitVec 1) (s o9 : State) (hr : execVsincosZq y d b
    t g s = .next o9) : o9.root = s.root := by
  exact vSincos_root (hr := hr) ..

theorem vNorm_root (zq : Bool) (y : BitVec 2) (d b : BitVec 5) (t : BitVec 4) (s o9 : State) (hr : vNorm zq y d b t s = .next o9)
    : o9.root = s.root := by
  exact vForm1_root (hr := hr) ..

theorem execVnorm_root (y : BitVec 2) (d b : BitVec 5) (t : BitVec 4) (s o9 : State) (hr : execVnorm y d b t s = .next o9) :
    o9.root = s.root := by
  exact vNorm_root (hr := hr) ..

theorem execVnormZq_root (y : BitVec 2) (d b : BitVec 5) (t : BitVec 4) (s o9 : State) (hr : execVnormZq y d b t s = .next o9) :
    o9.root = s.root := by
  exact vNorm_root (hr := hr) ..

theorem func1_root (f : ℕ → ℕ) (zq : Bool) (y : BitVec 2) (d b : BitVec 5) (t : BitVec 4) (s o9 : State) (hr : func1 f zq y d b t
    s = .next o9) : o9.root = s.root := by
  exact vForm1_root (hr := hr) ..

theorem execVrcp_root (y : BitVec 2) (d b : BitVec 5) (t : BitVec 4) (s o9 : State) (hr : execVrcp y d b t s = .next o9) :
    o9.root = s.root := by
  exact func1_root (hr := hr) ..

theorem execVrcpZq_root (y : BitVec 2) (d b : BitVec 5) (t : BitVec 4) (s o9 : State) (hr : execVrcpZq y d b t s = .next o9) :
    o9.root = s.root := by
  exact func1_root (hr := hr) ..

theorem execVrsq_root (y : BitVec 2) (d b : BitVec 5) (t : BitVec 4) (s o9 : State) (hr : execVrsq y d b t s = .next o9) :
    o9.root = s.root := by
  exact func1_root (hr := hr) ..

theorem execVrsqZq_root (y : BitVec 2) (d b : BitVec 5) (t : BitVec 4) (s o9 : State) (hr : execVrsqZq y d b t s = .next o9) :
    o9.root = s.root := by
  exact func1_root (hr := hr) ..

theorem execVexp2_root (y : BitVec 2) (d b : BitVec 5) (t : BitVec 4) (s o9 : State) (hr : execVexp2 y d b t s = .next o9) :
    o9.root = s.root := by
  exact func1_root (hr := hr) ..

theorem execVexp2Zq_root (y : BitVec 2) (d b : BitVec 5) (t : BitVec 4) (s o9 : State) (hr : execVexp2Zq y d b t s = .next o9) :
    o9.root = s.root := by
  exact func1_root (hr := hr) ..

theorem execVlog2_root (y : BitVec 2) (d b : BitVec 5) (t : BitVec 4) (s o9 : State) (hr : execVlog2 y d b t s = .next o9) :
    o9.root = s.root := by
  exact func1_root (hr := hr) ..

theorem execVlog2Zq_root (y : BitVec 2) (d b : BitVec 5) (t : BitVec 4) (s o9 : State) (hr : execVlog2Zq y d b t s = .next o9) :
    o9.root = s.root := by
  exact func1_root (hr := hr) ..

@[simp] theorem State.splitOut_root (s : State) (ty : Ty) (d : BitVec 5) (n t : ℕ) (l : List (List ℤ × ℕ)) : (State.splitOut s ty
    d n t l).root = s.root := by
  unfold State.splitOut; simp only [apply_ite State.root, ite_self, root_mk, root_fold, foldl_root, implies_true,
      State.result_root]

theorem vSplit_root (zq : Bool) (y : BitVec 2) (d a b : BitVec 5) (t : BitVec 4) (e : BitVec 1) (s o9 : State) (hr : vSplit zq y
    d a b t e s = .next o9) : o9.root = s.root := by
  unfold vSplit at hr; refine vForm_root (hr := hr) (hf := fun _ _ _ => ?_) ..; all_goals
    repeat' first
      | exact keeps_trap _ _ _ _
      | exact keeps_wait _
      | assumption
      | (refine ofChk_keeps _ _ _ fun _ => ?_)
      | (refine then_keeps _ _ _ fun _ _ _ => ?_)
      | (simp only [ckeeps_done, ckeeps_later, keeps_done, keeps_branch, keeps_waitWith, keeps_trapWith, apply_ite State.root,
          ite_self, root_mk, root_fold, foldl_root, implies_true, State.splitOut_root]; done)
      | apply State.vOut_root
      | (rw [vForm_root (hr := by assumption)]; with_reducible rfl)
      | (rw [← vForm_root (hr := by assumption)]; apply State.vOut_root)
      | split
      | simp only [ckeeps_done, ckeeps_later, keeps_done, keeps_branch, keeps_waitWith, keeps_trapWith, apply_ite State.root,
          ite_self, root_mk, root_fold, foldl_root, implies_true, State.splitOut_root]
      | rw [vForm_root (hr := by assumption)]
      | split
      | intro _
      | dsimp only

theorem execVsplit_root (y : BitVec 2) (d a b : BitVec 5) (t : BitVec 4) (e : BitVec 1) (s o9 : State) (hr : execVsplit y d a b t
    e s = .next o9) : o9.root = s.root := by
  exact vSplit_root (hr := hr) ..

theorem execVsplitZq_root (y : BitVec 2) (d a b : BitVec 5) (t : BitVec 4) (e : BitVec 1) (s o9 : State) (hr : execVsplitZq y d a
    b t e s = .next o9) : o9.root = s.root := by
  exact vSplit_root (hr := hr) ..

theorem execNopV_root (y : BitVec 2) (s o9 : State) (hr : execNopV y s = .next o9) : o9.root = s.root := by
  unfold execNopV at hr; refine issue_root _ _ _ _ _ (fun s t => ?_) _ hr <;> grind -lia -ring -linarith -order -ac [State.root,
      Effect.Keeps, CmdEnd.Keeps, ofChk, Got.then, foldl_root]

@[simp] theorem State.putPieces_root (s : State) (a1 : List (ℕ × List Byte)) : (State.putPieces s a1).root = s.root := by
  fun_induction State.putPieces <;> simp_all [apply_ite State.root, ite_self, root_mk, root_fold, foldl_root, implies_true]

@[simp] theorem State.drainVec_root (s : State) (z : Stream) (j : ℕ) (v : VReg) : (State.drainVec s z j v).root = s.root := by
  unfold State.drainVec; simp only [apply_ite State.root, ite_self, root_mk, root_fold, foldl_root, implies_true,
      State.putPieces_root, State.onMe_root]

theorem plainItem_root (e : Engine) (y : BitVec 2) (s : State) (f : State → Effect) (hf : ∀ x0,
    (f x0).Keeps x0.root) (o9 : State) (hr : plainItem e y s f = .next o9) : o9.root = s.root := by
  unfold plainItem at hr; refine issue_root _ _ _ _ _ (fun s t => ?_) _ hr <;> grind -lia -ring -linarith -order -ac [State.root,
      Effect.Keeps, CmdEnd.Keeps, ofChk, Got.then, foldl_root]

theorem execNopL_root (y : BitVec 2) (s o9 : State) (hr : execNopL y s = .next o9) : o9.root = s.root := by
  unfold execNopL at hr; refine plainItem_root (hr := hr) (hf := fun _ => ?_) ..; all_goals
    repeat' first
      | exact keeps_trap _ _ _ _
      | exact keeps_wait _
      | assumption
      | (refine ofChk_keeps _ _ _ fun _ => ?_)
      | (refine then_keeps _ _ _ fun _ _ _ => ?_)
      | (simp only [ckeeps_done, ckeeps_later, keeps_done, keeps_branch, keeps_waitWith, keeps_trapWith, apply_ite State.root,
          ite_self, root_mk, root_fold, foldl_root, implies_true]; done)
      | (rw [plainItem_root (hr := by assumption)]; with_reducible rfl)
      | split
      | simp only [ckeeps_done, ckeeps_later, keeps_done, keeps_branch, keeps_waitWith, keeps_trapWith, apply_ite State.root,
          ite_self, root_mk, root_fold, foldl_root, implies_true]
      | rw [plainItem_root (hr := by assumption)]
      | split
      | intro _
      | dsimp only

theorem execNopS_root (y : BitVec 2) (s o9 : State) (hr : execNopS y s = .next o9) : o9.root = s.root := by
  unfold execNopS at hr; refine plainItem_root (hr := hr) (hf := fun _ => ?_) ..; all_goals
    repeat' first
      | exact keeps_trap _ _ _ _
      | exact keeps_wait _
      | assumption
      | (refine ofChk_keeps _ _ _ fun _ => ?_)
      | (refine then_keeps _ _ _ fun _ _ _ => ?_)
      | (simp only [ckeeps_done, ckeeps_later, keeps_done, keeps_branch, keeps_waitWith, keeps_trapWith, apply_ite State.root,
          ite_self, root_mk, root_fold, foldl_root, implies_true]; done)
      | (rw [plainItem_root (hr := by assumption)]; with_reducible rfl)
      | split
      | simp only [ckeeps_done, ckeeps_later, keeps_done, keeps_branch, keeps_waitWith, keeps_trapWith, apply_ite State.root,
          ite_self, root_mk, root_fold, foldl_root, implies_true]
      | rw [plainItem_root (hr := by assumption)]
      | split
      | intro _
      | dsimp only

theorem execZbind_root (y : BitVec 2) (t : BitVec 4) (b : BitVec 5) (f : BitVec 4) (s o9 : State) (hr : execZbind y t b f s =
    .next o9) : o9.root = s.root := by
  unfold execZbind at hr; refine plainItem_root (hr := hr) (hf := fun _ => ?_) ..; all_goals
    repeat' first
      | exact keeps_trap _ _ _ _
      | exact keeps_wait _
      | assumption
      | (refine ofChk_keeps _ _ _ fun _ => ?_)
      | (refine then_keeps _ _ _ fun _ _ _ => ?_)
      | (simp only [ckeeps_done, ckeeps_later, keeps_done, keeps_branch, keeps_waitWith, keeps_trapWith, apply_ite State.root,
          ite_self, root_mk, root_fold, foldl_root, implies_true, State.onMe_root]; done)
      | (rw [plainItem_root (hr := by assumption)]; with_reducible rfl)
      | split
      | simp only [ckeeps_done, ckeeps_later, keeps_done, keeps_branch, keeps_waitWith, keeps_trapWith, apply_ite State.root,
          ite_self, root_mk, root_fold, foldl_root, implies_true, State.onMe_root]
      | rw [plainItem_root (hr := by assumption)]
      | split
      | intro _
      | dsimp only

theorem execZstart_root (y : BitVec 2) (d : BitVec 4) (s o9 : State) (hr : execZstart y d s = .next o9) : o9.root = s.root := by
  unfold execZstart at hr; refine plainItem_root (hr := hr) (hf := fun _ => ?_) ..; all_goals
    repeat' first
      | exact keeps_trap _ _ _ _
      | exact keeps_wait _
      | assumption
      | (refine ofChk_keeps _ _ _ fun _ => ?_)
      | (refine then_keeps _ _ _ fun _ _ _ => ?_)
      | (simp only [ckeeps_done, ckeeps_later, keeps_done, keeps_branch, keeps_waitWith, keeps_trapWith, apply_ite State.root,
          ite_self, root_mk, root_fold, foldl_root, implies_true, State.onMe_root]; done)
      | (rw [plainItem_root (hr := by assumption)]; with_reducible rfl)
      | split
      | simp only [ckeeps_done, ckeeps_later, keeps_done, keeps_branch, keeps_waitWith, keeps_trapWith, apply_ite State.root,
          ite_self, root_mk, root_fold, foldl_root, implies_true, State.onMe_root]
      | rw [plainItem_root (hr := by assumption)]
      | split
      | intro _
      | dsimp only

theorem execZstop_root (y : BitVec 2) (d : BitVec 4) (s o9 : State) (hr : execZstop y d s = .next o9) : o9.root = s.root := by
  unfold execZstop at hr; refine plainItem_root (hr := hr) (hf := fun _ => ?_) ..; all_goals
    repeat' first
      | exact keeps_trap _ _ _ _
      | exact keeps_wait _
      | assumption
      | (refine ofChk_keeps _ _ _ fun _ => ?_)
      | (refine then_keeps _ _ _ fun _ _ _ => ?_)
      | (simp only [ckeeps_done, ckeeps_later, keeps_done, keeps_branch, keeps_waitWith, keeps_trapWith, apply_ite State.root,
          ite_self, root_mk, root_fold, foldl_root, implies_true, State.onMe_root]; done)
      | (rw [plainItem_root (hr := by assumption)]; with_reducible rfl)
      | split
      | simp only [ckeeps_done, ckeeps_later, keeps_done, keeps_branch, keeps_waitWith, keeps_trapWith, apply_ite State.root,
          ite_self, root_mk, root_fold, foldl_root, implies_true, State.onMe_root]
      | rw [plainItem_root (hr := by assumption)]
      | split
      | intro _
      | dsimp only

theorem execZskip_root (y : BitVec 2) (d : BitVec 4) (k : BitVec 10) (s o9 : State) (hr : execZskip y d k s = .next o9) : o9.root
    = s.root := by
  unfold execZskip at hr; refine plainItem_root (hr := hr) (hf := fun _ => ?_) ..; all_goals
    repeat' first
      | exact keeps_trap _ _ _ _
      | exact keeps_wait _
      | assumption
      | (refine ofChk_keeps _ _ _ fun _ => ?_)
      | (refine then_keeps _ _ _ fun _ _ _ => ?_)
      | (simp only [ckeeps_done, ckeeps_later, keeps_done, keeps_branch, keeps_waitWith, keeps_trapWith, apply_ite State.root,
          ite_self, root_mk, root_fold, foldl_root, implies_true, State.onMe_root]; done)
      | (rw [plainItem_root (hr := by assumption)]; with_reducible rfl)
      | split
      | simp only [ckeeps_done, ckeeps_later, keeps_done, keeps_branch, keeps_waitWith, keeps_trapWith, apply_ite State.root,
          ite_self, root_mk, root_fold, foldl_root, implies_true, State.onMe_root]
      | rw [plainItem_root (hr := by assumption)]
      | split
      | intro _
      | dsimp only

theorem execLdv_root (y : BitVec 2) (t : BitVec 4) (b : BitVec 5) (i : BitVec 9) (s o9 : State) (hr : execLdv y t b i s = .next
    o9) : o9.root = s.root := by
  unfold execLdv at hr; refine plainItem_root (hr := hr) (hf := fun _ => ?_) ..; all_goals
    repeat' first
      | exact keeps_trap _ _ _ _
      | exact keeps_wait _
      | assumption
      | (refine ofChk_keeps _ _ _ fun _ => ?_)
      | (refine then_keeps _ _ _ fun _ _ _ => ?_)
      | (simp only [ckeeps_done, ckeeps_later, keeps_done, keeps_branch, keeps_waitWith, keeps_trapWith, apply_ite State.root,
          ite_self, root_mk, root_fold, foldl_root, implies_true, State.onMe_root]; done)
      | (rw [plainItem_root (hr := by assumption)]; with_reducible rfl)
      | split
      | simp only [ckeeps_done, ckeeps_later, keeps_done, keeps_branch, keeps_waitWith, keeps_trapWith, apply_ite State.root,
          ite_self, root_mk, root_fold, foldl_root, implies_true, State.onMe_root]
      | rw [plainItem_root (hr := by assumption)]
      | split
      | intro _
      | dsimp only

theorem execZdrain_root (y : BitVec 2) (d : BitVec 4) (s o9 : State) (hr : execZdrain y d s = .next o9) : o9.root = s.root := by
  unfold execZdrain at hr; refine plainItem_root (hr := hr) (hf := fun _ => ?_) ..; all_goals
    repeat' first
      | exact keeps_trap _ _ _ _
      | exact keeps_wait _
      | assumption
      | (refine ofChk_keeps _ _ _ fun _ => ?_)
      | (refine then_keeps _ _ _ fun _ _ _ => ?_)
      | (simp only [ckeeps_done, ckeeps_later, keeps_done, keeps_branch, keeps_waitWith, keeps_trapWith, apply_ite State.root,
          ite_self, root_mk, root_fold, foldl_root, implies_true, State.onMe_root]; done)
      | (rw [plainItem_root (hr := by assumption)]; with_reducible rfl)
      | split
      | simp only [ckeeps_done, ckeeps_later, keeps_done, keeps_branch, keeps_waitWith, keeps_trapWith, apply_ite State.root,
          ite_self, root_mk, root_fold, foldl_root, implies_true, State.onMe_root]
      | rw [plainItem_root (hr := by assumption)]
      | split
      | intro _
      | dsimp only

theorem execStv_root (y : BitVec 2) (t : BitVec 4) (b : BitVec 5) (i : BitVec 9) (s o9 : State) (hr : execStv y t b i s = .next
    o9) : o9.root = s.root := by
  unfold execStv at hr; refine plainItem_root (hr := hr) (hf := fun _ => ?_) ..; all_goals
    repeat' first
      | exact keeps_trap _ _ _ _
      | exact keeps_wait _
      | assumption
      | (refine ofChk_keeps _ _ _ fun _ => ?_)
      | (refine then_keeps _ _ _ fun _ _ _ => ?_)
      | (simp only [ckeeps_done, ckeeps_later, keeps_done, keeps_branch, keeps_waitWith, keeps_trapWith, apply_ite State.root,
          ite_self, root_mk, root_fold, foldl_root, implies_true, State.putPieces_root, State.onMe_root]; done)
      | (rw [plainItem_root (hr := by assumption)]; with_reducible rfl)
      | split
      | simp only [ckeeps_done, ckeeps_later, keeps_done, keeps_branch, keeps_waitWith, keeps_trapWith, apply_ite State.root,
          ite_self, root_mk, root_fold, foldl_root, implies_true, State.putPieces_root, State.onMe_root]
      | rw [plainItem_root (hr := by assumption)]
      | split
      | intro _
      | dsimp only

theorem execScvt_root (y : BitVec 2) (d : BitVec 4) (r : BitVec 2) (b : BitVec 5) (x : BitVec 1) (s o9 : State) (hr : execScvt y
    d r b x s = .next o9) : o9.root = s.root := by
  unfold execScvt at hr; refine plainItem_root (hr := hr) (hf := fun _ => ?_) ..; all_goals
    repeat' first
      | exact keeps_trap _ _ _ _
      | exact keeps_wait _
      | assumption
      | (refine ofChk_keeps _ _ _ fun _ => ?_)
      | (refine then_keeps _ _ _ fun _ _ _ => ?_)
      | (simp only [ckeeps_done, ckeeps_later, keeps_done, keeps_branch, keeps_waitWith, keeps_trapWith, apply_ite State.root,
          ite_self, root_mk, root_fold, foldl_root, implies_true, State.onMe_root]; done)
      | (rw [plainItem_root (hr := by assumption)]; with_reducible rfl)
      | split
      | simp only [ckeeps_done, ckeeps_later, keeps_done, keeps_branch, keeps_waitWith, keeps_trapWith, apply_ite State.root,
          ite_self, root_mk, root_fold, foldl_root, implies_true, State.onMe_root]
      | rw [plainItem_root (hr := by assumption)]
      | split
      | intro _
      | dsimp only

theorem execSamax_root (y : BitVec 2) (d : BitVec 4) (x : BitVec 1) (k : BitVec 4) (c : BitVec 1) (s o9 : State) (hr : execSamax
    y d x k c s = .next o9) : o9.root = s.root := by
  unfold execSamax at hr; refine plainItem_root (hr := hr) (hf := fun _ => ?_) ..; all_goals
    repeat' first
      | exact keeps_trap _ _ _ _
      | exact keeps_wait _
      | assumption
      | (refine ofChk_keeps _ _ _ fun _ => ?_)
      | (refine then_keeps _ _ _ fun _ _ _ => ?_)
      | (simp only [ckeeps_done, ckeeps_later, keeps_done, keeps_branch, keeps_waitWith, keeps_trapWith, apply_ite State.root,
          ite_self, root_mk, root_fold, foldl_root, implies_true, State.onMe_root]; done)
      | (rw [plainItem_root (hr := by assumption)]; with_reducible rfl)
      | split
      | simp only [ckeeps_done, ckeeps_later, keeps_done, keeps_branch, keeps_waitWith, keeps_trapWith, apply_ite State.root,
          ite_self, root_mk, root_fold, foldl_root, implies_true, State.onMe_root]
      | rw [plainItem_root (hr := by assumption)]
      | split
      | intro _
      | dsimp only

theorem execVamaxr_root (y : BitVec 2) (d k : BitVec 4) (p : BitVec 1) (q : BitVec 4) (s o9 : State) (hr : execVamaxr y d k p q s
    = .next o9) : o9.root = s.root := by
  have h := hr
  clear hr
  unfold execVamaxr at h
  refine issuePre_root (hr := h) (hbody := fun s _ => ?_) ..
  have hp : ∀ (u : State) (v : BitVec 64), ((u.queuePush .s d v).then fun _ s1 => .done s1).Keeps u.root :=
    fun u v => then_keeps _ _ _ fun w t e => State.queuePush_root (hr := e) ..
  refine ite_keeps _ _ _ (then_keeps _ _ _ fun w t e => ite_keeps _ _ _ (keeps_wait _) ?_) (hp _ _)
  rw [← State.queuePop_root (hr := e)]
  exact hp _ _

theorem gotFold_root {α : Type} (g : Got Unit → α → Got Unit) (r)
    (hg : ∀ acc i, (∀ u, acc = .ok () u → u.root = r) → ∀ u, g acc i = .ok () u → u.root = r) (l : List α) (acc : Got Unit)
    (h0 : ∀ u, acc = .ok () u → u.root = r) : ∀ u, l.foldl g acc = .ok () u → u.root = r := by
  induction l generalizing acc with
  | nil => exact h0
  | cons a l ih => exact ih _ (hg acc a h0)

theorem State.supdVector_root (s : State) (j : BitVec 4) (h : List (BitVec 32)) (w9) (o9 : State) (hr : State.supdVector s j h =
    .ok w9 o9) : o9.root = s.root := by
  have h := hr
  clear hr
  unfold State.supdVector at h
  dsimp only at h
  refine gotFold_root _ s.root ?_ _ _ (gotFold_root _ s.root ?_ _ _ ?_) _ h
  · intro acc i ha u e
    split at e
    · rename_i t _ _
      rw [State.streamPush_root (hr := e), ha _ rfl]
    · exact ha _ e
  · intro acc i ha u e
    split at e
    · rename_i t _
      split at e
      · rename_i t1 e1
        injection e with _ e2
        rw [← e2, State.streamPop_root (hr := e1), ha _ rfl]
      · injection e
      · injection e
    · exact ha _ e
  · intro u e
    injection e with _ e2
    rw [e2]

@[simp] theorem State.setSupd_root (s : State) (x : Option Supd) : (State.setSupd s x).root = s.root := by
  unfold State.setSupd; simp only [apply_ite State.root, ite_self, root_mk, root_fold, foldl_root, implies_true, State.onMe_root]

theorem execSupd_root (y : BitVec 2) (j q : BitVec 4) (n : BitVec 12) (s o9 : State) (hr : execSupd y j q n s = .next o9) :
    o9.root = s.root := by
  have h := hr
  clear hr
  unfold execSupd at h
  refine plainItem_root (hr := h) (hf := fun s => ?_) ..
  split
  · refine then_keeps _ _ _ fun v u e => ?_
    have e1 := State.supdVector_root (hr := e)
    split <;> simp only [keeps_done, keeps_waitWith, State.setSupd_root, e1]
  · split
    · exact keeps_trap _ _ _ _
    · split
      · exact keeps_trap _ _ _ _
      · split
        · exact keeps_wait _
        · refine ofChk_keeps _ _ _ fun _ => ?_
          refine then_keeps _ _ _ fun a u e => ?_
          refine ofChk_keeps _ _ _ fun _ => ?_
          simp only [keeps_waitWith, State.setSupd_root, State.queuePop_root (hr := e)]

theorem execSpair_root (y : BitVec 2) (q : BitVec 4) (s o9 : State) (hr : execSpair y q s = .next o9) : o9.root = s.root := by
  unfold execSpair at hr; refine plainItem_root (hr := hr) (hf := fun _ => ?_) ..; all_goals
    repeat' first
      | exact keeps_trap _ _ _ _
      | exact keeps_wait _
      | assumption
      | (refine ofChk_keeps _ _ _ fun _ => ?_)
      | (refine then_keeps _ _ _ fun _ _ _ => ?_)
      | (simp only [ckeeps_done, ckeeps_later, keeps_done, keeps_branch, keeps_waitWith, keeps_trapWith, apply_ite State.root,
          ite_self, root_mk, root_fold, foldl_root, implies_true, State.onMe_root, State.putPieces_root]; done)
      | (rw [plainItem_root (hr := by assumption)]; with_reducible rfl)
      | (rw [State.queuePop_root (hr := by assumption)]; with_reducible rfl)
      | split
      | simp only [ckeeps_done, ckeeps_later, keeps_done, keeps_branch, keeps_waitWith, keeps_trapWith, apply_ite State.root,
          ite_self, root_mk, root_fold, foldl_root, implies_true, State.onMe_root, State.putPieces_root]
      | rw [plainItem_root (hr := by assumption)]
      | rw [State.queuePop_root (hr := by assumption)]
      | split
      | intro _
      | dsimp only

theorem execStreamFill_root (z : BitVec 4) (s o9 : State) (hr : execStreamFill z s = .next o9) : o9.root = s.root := by
  unfold execStreamFill at hr; dsimp only at hr; (repeat' split at hr) <;> (try cases hr) <;>
    repeat first
      | with_reducible rfl
      | assumption
      | (simp only [apply_ite State.root, ite_self, root_mk, root_fold, foldl_root, implies_true, State.trapAt_root,
          State.onMe_root]; done)
      | simp only [apply_ite State.root, ite_self, root_mk, root_fold, foldl_root, implies_true, State.trapAt_root,
          State.onMe_root]

theorem execStreamDrainWrite_root (z : BitVec 4) (s o9 : State) (hr : execStreamDrainWrite z s = .next o9) : o9.root = s.root :=
    by
  unfold execStreamDrainWrite at hr; dsimp only at hr; (repeat' split at hr) <;> (try cases hr) <;>
    repeat first
      | with_reducible rfl
      | assumption
      | (simp only [apply_ite State.root, ite_self, root_mk, root_fold, foldl_root, implies_true, State.trapAt_root,
          State.onMe_root, State.drainVec_root]; done)
      | simp only [apply_ite State.root, ite_self, root_mk, root_fold, foldl_root, implies_true, State.trapAt_root,
          State.onMe_root, State.drainVec_root]

@[simp] theorem State.onMesh_root (s : State) (f : MeshState → MeshState) : (State.onMesh s f).root = s.root := by
  unfold State.onMesh; simp only [apply_ite State.root, ite_self, root_mk, root_fold, foldl_root, implies_true, State.onMe_root]

theorem State.meshIssue_root (s : State) (ms : ℕ) (kind : MeshKind) (marks : Group → PendSrc → List PendMark) : (State.meshIssue
    s ms kind marks).Keeps s.root := by
  unfold State.meshIssue; grind -lia -ring -linarith -order -ac [State.root, Effect.Keeps, CmdEnd.Keeps, ofChk, Got.then,
      foldl_root, State.onMe_root]

theorem State.claimIssue_root (s : State) (zs : List (BitVec 4)) (f : MeshState → MeshState) (ms : ℕ) (kind : MeshKind) (marks :
    Group → PendSrc → List PendMark) : (State.claimIssue s zs f ms kind marks).Keeps s.root := by
  unfold State.claimIssue; grind -lia -ring -linarith -order -ac [State.root, Effect.Keeps, CmdEnd.Keeps, ofChk, Got.then,
      foldl_root, State.onMe_root, State.onMesh_root, State.meshIssue_root]

theorem meshItem_root (y : BitVec 2) (s : State) (f : State → Effect) (hf : ∀ x0,
    (f x0).Keeps x0.root) (o9 : State) (hr : meshItem y s f = .next o9) : o9.root = s.root := by
  unfold meshItem at hr; (repeat' split at hr) <;> (try cases hr) <;>
    repeat first
      | with_reducible rfl
      | assumption
      | (simp only [apply_ite State.root, ite_self, root_mk, root_fold, foldl_root, implies_true]; done)
      | rw [plainItem_root (hr := by assumption)]
      | simp only [apply_ite State.root, ite_self, root_mk, root_fold, foldl_root, implies_true]

theorem State.bound_root (s : State) (zs : List (BitVec 4)) (f : Effect) (hf : f.Keeps s.root) : (State.bound s zs f).Keeps
    s.root := by
  unfold State.bound; (repeat' split) <;> simp_all [Effect.Keeps, CmdEnd.Keeps, apply_ite State.root, ite_self, root_mk,
      root_fold, foldl_root, implies_true]

theorem execNopM_root (y : BitVec 2) (s o9 : State) (hr : execNopM y s = .next o9) : o9.root = s.root := by
  unfold execNopM at hr; refine meshItem_root (hr := hr) (hf := fun _ => ?_) ..; all_goals
    repeat' first
      | exact keeps_trap _ _ _ _
      | exact keeps_wait _
      | assumption
      | (refine ofChk_keeps _ _ _ fun _ => ?_)
      | (refine then_keeps _ _ _ fun _ _ _ => ?_)
      | (simp only [ckeeps_done, ckeeps_later, keeps_done, keeps_branch, keeps_waitWith, keeps_trapWith, apply_ite State.root,
          ite_self, root_mk, root_fold, foldl_root, implies_true]; done)
      | (rw [meshItem_root (hr := by assumption)]; with_reducible rfl)
      | split
      | simp only [ckeeps_done, ckeeps_later, keeps_done, keeps_branch, keeps_waitWith, keeps_trapWith, apply_ite State.root,
          ite_self, root_mk, root_fold, foldl_root, implies_true]
      | rw [meshItem_root (hr := by assumption)]
      | split
      | intro _
      | dsimp only

theorem execMload_root (y : BitVec 2) (d : BitVec 3) (a : BitVec 4) (c : BitVec 1) (m : BitVec 2) (s o9 : State) (hr : execMload
    y d a c m s = .next o9) : o9.root = s.root := by
  unfold execMload at hr; refine meshItem_root (hr := hr) (hf := fun _ => ?_) ..; all_goals
    repeat' first
      | exact keeps_trap _ _ _ _
      | exact keeps_wait _
      | assumption
      | (refine ofChk_keeps _ _ _ fun _ => ?_)
      | (refine then_keeps _ _ _ fun _ _ _ => ?_)
      | (simp only [ckeeps_done, ckeeps_later, keeps_done, keeps_branch, keeps_waitWith, keeps_trapWith, apply_ite State.root,
          ite_self, root_mk, root_fold, foldl_root, implies_true]; done)
      | apply State.meshIssue_root
      | (rw [meshItem_root (hr := by assumption)]; with_reducible rfl)
      | (rw [State.queuePop_root (hr := by assumption)]; with_reducible rfl)
      | (rw [← meshItem_root (hr := by assumption)]; apply State.meshIssue_root)
      | (rw [← State.queuePop_root (hr := by assumption)]; apply State.meshIssue_root)
      | split
      | simp only [ckeeps_done, ckeeps_later, keeps_done, keeps_branch, keeps_waitWith, keeps_trapWith, apply_ite State.root,
          ite_self, root_mk, root_fold, foldl_root, implies_true]
      | rw [meshItem_root (hr := by assumption)]
      | rw [State.queuePop_root (hr := by assumption)]
      | split
      | intro _
      | dsimp only

theorem execMstore_root (y : BitVec 2) (d : BitVec 4) (a : BitVec 3) (m : BitVec 2) (s o9 : State) (hr : execMstore y d a m s =
    .next o9) : o9.root = s.root := by
  unfold execMstore at hr; refine meshItem_root (hr := hr) (hf := fun _ => ?_) ..; all_goals
    repeat' first
      | exact keeps_trap _ _ _ _
      | exact keeps_wait _
      | assumption
      | (refine ofChk_keeps _ _ _ fun _ => ?_)
      | (refine then_keeps _ _ _ fun _ _ _ => ?_)
      | (simp only [ckeeps_done, ckeeps_later, keeps_done, keeps_branch, keeps_waitWith, keeps_trapWith, apply_ite State.root,
          ite_self, root_mk, root_fold, foldl_root, implies_true]; done)
      | apply State.meshIssue_root
      | (rw [meshItem_root (hr := by assumption)]; with_reducible rfl)
      | (rw [State.queuePop_root (hr := by assumption)]; with_reducible rfl)
      | (rw [← meshItem_root (hr := by assumption)]; apply State.meshIssue_root)
      | (rw [← State.queuePop_root (hr := by assumption)]; apply State.meshIssue_root)
      | split
      | simp only [ckeeps_done, ckeeps_later, keeps_done, keeps_branch, keeps_waitWith, keeps_trapWith, apply_ite State.root,
          ite_self, root_mk, root_fold, foldl_root, implies_true]
      | rw [meshItem_root (hr := by assumption)]
      | rw [State.queuePop_root (hr := by assumption)]
      | split
      | intro _
      | dsimp only

theorem execMscale_root (y : BitVec 2) (d a : BitVec 3) (m : BitVec 2) (s o9 : State) (hr : execMscale y d a m s = .next o9) :
    o9.root = s.root := by
  unfold execMscale at hr; refine meshItem_root (hr := hr) (hf := fun _ => ?_) ..; all_goals
    repeat' first
      | exact keeps_trap _ _ _ _
      | exact keeps_wait _
      | assumption
      | (refine ofChk_keeps _ _ _ fun _ => ?_)
      | (refine then_keeps _ _ _ fun _ _ _ => ?_)
      | (simp only [ckeeps_done, ckeeps_later, keeps_done, keeps_branch, keeps_waitWith, keeps_trapWith, apply_ite State.root,
          ite_self, root_mk, root_fold, foldl_root, implies_true]; done)
      | apply State.meshIssue_root
      | (rw [meshItem_root (hr := by assumption)]; with_reducible rfl)
      | (rw [← meshItem_root (hr := by assumption)]; apply State.meshIssue_root)
      | split
      | simp only [ckeeps_done, ckeeps_later, keeps_done, keeps_branch, keeps_waitWith, keeps_trapWith, apply_ite State.root,
          ite_self, root_mk, root_fold, foldl_root, implies_true]
      | rw [meshItem_root (hr := by assumption)]
      | split
      | intro _
      | dsimp only

theorem execMsweep_root (y : BitVec 2) (d z : BitVec 4) (b : BitVec 3) (m : BitVec 2) (p : BitVec 4) (g c f : BitVec 1) (s o9 :
    State) (hr : execMsweep y d z b m p g c f s = .next o9) : o9.root = s.root := by
  unfold execMsweep at hr; refine meshItem_root (hr := hr) (hf := fun _ => ?_) ..; all_goals
    repeat' first
      | exact keeps_trap _ _ _ _
      | exact keeps_wait _
      | assumption
      | (refine ofChk_keeps _ _ _ fun _ => ?_)
      | (refine then_keeps _ _ _ fun _ _ _ => ?_)
      | (simp only [ckeeps_done, ckeeps_later, keeps_done, keeps_branch, keeps_waitWith, keeps_trapWith, apply_ite State.root,
          ite_self, root_mk, root_fold, foldl_root, implies_true]; done)
      | apply State.bound_root
      | apply State.claimIssue_root
      | (rw [meshItem_root (hr := by assumption)]; with_reducible rfl)
      | (rw [← meshItem_root (hr := by assumption)]; apply State.bound_root)
      | (rw [← meshItem_root (hr := by assumption)]; apply State.claimIssue_root)
      | split
      | simp only [ckeeps_done, ckeeps_later, keeps_done, keeps_branch, keeps_waitWith, keeps_trapWith, apply_ite State.root,
          ite_self, root_mk, root_fold, foldl_root, implies_true]
      | rw [meshItem_root (hr := by assumption)]
      | split
      | intro _
      | dsimp only

theorem execMderive_root (y : BitVec 2) (d z : BitVec 4) (b : BitVec 3) (m : BitVec 2) (p : BitVec 4) (s o9 : State) (hr :
    execMderive y d z b m p s = .next o9) : o9.root = s.root := by
  unfold execMderive at hr; refine meshItem_root (hr := hr) (hf := fun _ => ?_) ..; all_goals
    repeat' first
      | exact keeps_trap _ _ _ _
      | exact keeps_wait _
      | assumption
      | (refine ofChk_keeps _ _ _ fun _ => ?_)
      | (refine then_keeps _ _ _ fun _ _ _ => ?_)
      | (simp only [ckeeps_done, ckeeps_later, keeps_done, keeps_branch, keeps_waitWith, keeps_trapWith, apply_ite State.root,
          ite_self, root_mk, root_fold, foldl_root, implies_true]; done)
      | apply State.bound_root
      | apply State.claimIssue_root
      | (rw [meshItem_root (hr := by assumption)]; with_reducible rfl)
      | (rw [← meshItem_root (hr := by assumption)]; apply State.bound_root)
      | (rw [← meshItem_root (hr := by assumption)]; apply State.claimIssue_root)
      | split
      | simp only [ckeeps_done, ckeeps_later, keeps_done, keeps_branch, keeps_waitWith, keeps_trapWith, apply_ite State.root,
          ite_self, root_mk, root_fold, foldl_root, implies_true]
      | rw [meshItem_root (hr := by assumption)]
      | split
      | intro _
      | dsimp only

theorem State.popMany_root (s : State) (z : BitVec 4) (a2 : ℕ) (w9) (o9 : State) (hr : State.popMany s z a2 = .ok w9 o9) :
    o9.root = s.root := by
  have h := hr
  clear hr
  induction a2 generalizing s with
  | zero => unfold State.popMany at h; injection h with _ h2; rw [h2]
  | succ n ih =>
    unfold State.popMany at h
    split at h
    · rename_i e
      rw [ih _ h, State.streamPop_root (hr := e)]
    · injection h
    · injection h

theorem execMpanel_root (y : BitVec 2) (d : BitVec 4) (m : BitVec 2) (s o9 : State) (hr : execMpanel y d m s = .next o9) :
    o9.root = s.root := by
  have h := hr
  clear hr
  unfold execMpanel at h
  refine meshItem_root (hr := h) (hf := fun s => ?_) ..
  dsimp only
  refine State.bound_root _ _ _ ?_
  split
  · exact keeps_trap _ _ _ _
  · refine ofChk_keeps _ _ _ fun _ => ?_
    split
    · simp only [keeps_waitWith, State.onMe_root]
    · split
      · exact keeps_trap _ _ _ _
      · split
        · simp only [keeps_waitWith, State.onMe_root]
        · refine ofChk_keeps _ _ _ fun p => ?_
          split
          · exact keeps_trap _ _ _ _
          · split
            · simp only [keeps_waitWith, State.onMe_root]
            · refine then_keeps _ _ _ fun v u e => ?_
              have e1 := State.popMany_root (hr := e)
              rw [State.onMe_root] at e1
              rw [← e1, ← State.onMesh_root u (fun m => { m with head := some ⟨p.1, p.2⟩ })]
              apply State.meshIssue_root

theorem execMslice_root (y : BitVec 2) (w : BitVec 5) (z : BitVec 4) (n : BitVec 3) (f : BitVec 1) (p : BitVec 4) (m : BitVec 2)
    (s o9 : State) (hr : execMslice y w z n f p m s = .next o9) : o9.root = s.root := by
  unfold execMslice at hr; refine meshItem_root (hr := hr) (hf := fun _ => ?_) ..; all_goals
    repeat' first
      | exact keeps_trap _ _ _ _
      | exact keeps_wait _
      | assumption
      | (refine ofChk_keeps _ _ _ fun _ => ?_)
      | (refine then_keeps _ _ _ fun _ _ _ => ?_)
      | (simp only [ckeeps_done, ckeeps_later, keeps_done, keeps_branch, keeps_waitWith, keeps_trapWith, apply_ite State.root,
          ite_self, root_mk, root_fold, foldl_root, implies_true]; done)
      | apply State.bound_root
      | apply State.claimIssue_root
      | (rw [meshItem_root (hr := by assumption)]; with_reducible rfl)
      | (rw [← meshItem_root (hr := by assumption)]; apply State.bound_root)
      | (rw [← meshItem_root (hr := by assumption)]; apply State.claimIssue_root)
      | split
      | simp only [ckeeps_done, ckeeps_later, keeps_done, keeps_branch, keeps_waitWith, keeps_trapWith, apply_ite State.root,
          ite_self, root_mk, root_fold, foldl_root, implies_true]
      | rw [meshItem_root (hr := by assumption)]
      | split
      | intro _
      | dsimp only

theorem execMcommit_root (y : BitVec 2) (b : BitVec 4) (s o9 : State) (hr : execMcommit y b s = .next o9) : o9.root = s.root := by
  unfold execMcommit at hr; refine meshItem_root (hr := hr) (hf := fun _ => ?_) ..; all_goals
    repeat' first
      | exact keeps_trap _ _ _ _
      | exact keeps_wait _
      | assumption
      | (refine ofChk_keeps _ _ _ fun _ => ?_)
      | (refine then_keeps _ _ _ fun _ _ _ => ?_)
      | (simp only [ckeeps_done, ckeeps_later, keeps_done, keeps_branch, keeps_waitWith, keeps_trapWith, apply_ite State.root,
          ite_self, root_mk, root_fold, foldl_root, implies_true, State.onMesh_root]; done)
      | (rw [meshItem_root (hr := by assumption)]; with_reducible rfl)
      | split
      | simp only [ckeeps_done, ckeeps_later, keeps_done, keeps_branch, keeps_waitWith, keeps_trapWith, apply_ite State.root,
          ite_self, root_mk, root_fold, foldl_root, implies_true, State.onMesh_root]
      | rw [meshItem_root (hr := by assumption)]
      | split
      | intro _
      | dsimp only

theorem execMwaitb_root (y : BitVec 2) (b : BitVec 4) (s o9 : State) (hr : execMwaitb y b s = .next o9) : o9.root = s.root := by
  unfold execMwaitb at hr; refine meshItem_root (hr := hr) (hf := fun _ => ?_) ..; all_goals
    repeat' first
      | exact keeps_trap _ _ _ _
      | exact keeps_wait _
      | assumption
      | (refine ofChk_keeps _ _ _ fun _ => ?_)
      | (refine then_keeps _ _ _ fun _ _ _ => ?_)
      | (simp only [ckeeps_done, ckeeps_later, keeps_done, keeps_branch, keeps_waitWith, keeps_trapWith, apply_ite State.root,
          ite_self, root_mk, root_fold, foldl_root, implies_true]; done)
      | (rw [meshItem_root (hr := by assumption)]; with_reducible rfl)
      | split
      | simp only [ckeeps_done, ckeeps_later, keeps_done, keeps_branch, keeps_waitWith, keeps_trapWith, apply_ite State.root,
          ite_self, root_mk, root_fold, foldl_root, implies_true]
      | rw [meshItem_root (hr := by assumption)]
      | split
      | intro _
      | dsimp only

theorem execMretire_root (y : BitVec 2) (d : BitVec 4) (w : BitVec 5) (n : BitVec 3) (r : BitVec 2) (p : BitVec 4) (m : BitVec 2)
    (s o9 : State) (hr : execMretire y d w n r p m s = .next o9) : o9.root = s.root := by
  unfold execMretire at hr; refine meshItem_root (hr := hr) (hf := fun _ => ?_) ..; all_goals
    repeat' first
      | exact keeps_trap _ _ _ _
      | exact keeps_wait _
      | assumption
      | (refine ofChk_keeps _ _ _ fun _ => ?_)
      | (refine then_keeps _ _ _ fun _ _ _ => ?_)
      | (simp only [ckeeps_done, ckeeps_later, keeps_done, keeps_branch, keeps_waitWith, keeps_trapWith, apply_ite State.root,
          ite_self, root_mk, root_fold, foldl_root, implies_true]; done)
      | apply State.bound_root
      | apply State.meshIssue_root
      | (rw [meshItem_root (hr := by assumption)]; with_reducible rfl)
      | (rw [← meshItem_root (hr := by assumption)]; apply State.bound_root)
      | (rw [← meshItem_root (hr := by assumption)]; apply State.meshIssue_root)
      | split
      | simp only [ckeeps_done, ckeeps_later, keeps_done, keeps_branch, keeps_waitWith, keeps_trapWith, apply_ite State.root,
          ite_self, root_mk, root_fold, foldl_root, implies_true]
      | rw [meshItem_root (hr := by assumption)]
      | split
      | intro _
      | dsimp only

theorem execMnorm_root (y : BitVec 2) (d : BitVec 4) (m : BitVec 2) (c : BitVec 1) (s o9 : State) (hr : execMnorm y d m c s =
    .next o9) : o9.root = s.root := by
  unfold execMnorm at hr; refine meshItem_root (hr := hr) (hf := fun _ => ?_) ..; all_goals
    repeat' first
      | exact keeps_trap _ _ _ _
      | exact keeps_wait _
      | assumption
      | (refine ofChk_keeps _ _ _ fun _ => ?_)
      | (refine then_keeps _ _ _ fun _ _ _ => ?_)
      | (simp only [ckeeps_done, ckeeps_later, keeps_done, keeps_branch, keeps_waitWith, keeps_trapWith, apply_ite State.root,
          ite_self, root_mk, root_fold, foldl_root, implies_true, State.onMesh_root]; done)
      | (rw [meshItem_root (hr := by assumption)]; with_reducible rfl)
      | (rw [State.queuePush_root (hr := by assumption)]; with_reducible rfl)
      | split
      | simp only [ckeeps_done, ckeeps_later, keeps_done, keeps_branch, keeps_waitWith, keeps_trapWith, apply_ite State.root,
          ite_self, root_mk, root_fold, foldl_root, implies_true, State.onMesh_root]
      | rw [meshItem_root (hr := by assumption)]
      | rw [State.queuePush_root (hr := by assumption)]
      | split
      | intro _
      | dsimp only

theorem execMclrWindow_root (y : BitVec 2) (u a : BitVec 5) (m : BitVec 2) (s o9 : State) (hr : execMclrWindow y u a m s = .next
    o9) : o9.root = s.root := by
  have h := hr
  clear hr
  unfold execMclrWindow at h
  exact meshItem_root (hr := h) (hf := fun s => ite_keeps _ _ _ (keeps_trap _ _ _ _) (ite_keeps _ _ _ (keeps_trap _ _ _ _) (State.meshIssue_root s _ _ _))) ..

theorem execMclrBank_root (y : BitVec 2) (d : BitVec 3) (m : BitVec 2) (s o9 : State) (hr : execMclrBank y d m s = .next o9) :
    o9.root = s.root := by
  unfold execMclrBank at hr; refine meshItem_root (hr := hr) (hf := fun _ => ?_) ..; all_goals
    repeat' first
      | exact keeps_trap _ _ _ _
      | exact keeps_wait _
      | assumption
      | (refine ofChk_keeps _ _ _ fun _ => ?_)
      | (refine then_keeps _ _ _ fun _ _ _ => ?_)
      | (simp only [ckeeps_done, ckeeps_later, keeps_done, keeps_branch, keeps_waitWith, keeps_trapWith, apply_ite State.root,
          ite_self, root_mk, root_fold, foldl_root, implies_true]; done)
      | apply State.meshIssue_root
      | (rw [meshItem_root (hr := by assumption)]; with_reducible rfl)
      | (rw [← meshItem_root (hr := by assumption)]; apply State.meshIssue_root)
      | split
      | simp only [ckeeps_done, ckeeps_later, keeps_done, keeps_branch, keeps_waitWith, keeps_trapWith, apply_ite State.root,
          ite_self, root_mk, root_fold, foldl_root, implies_true]
      | rw [meshItem_root (hr := by assumption)]
      | split
      | intro _
      | dsimp only

theorem execMstat_root (y : BitVec 2) (d : BitVec 4) (c : BitVec 1) (x : BitVec 4) (s o9 : State) (hr : execMstat y d c x s =
    .next o9) : o9.root = s.root := by
  unfold execMstat at hr; refine meshItem_root (hr := hr) (hf := fun _ => ?_) ..; all_goals
    repeat' first
      | exact keeps_trap _ _ _ _
      | exact keeps_wait _
      | assumption
      | (refine ofChk_keeps _ _ _ fun _ => ?_)
      | (refine then_keeps _ _ _ fun _ _ _ => ?_)
      | (simp only [ckeeps_done, ckeeps_later, keeps_done, keeps_branch, keeps_waitWith, keeps_trapWith, apply_ite State.root,
          ite_self, root_mk, root_fold, foldl_root, implies_true, State.onMesh_root]; done)
      | (rw [meshItem_root (hr := by assumption)]; with_reducible rfl)
      | (rw [State.queuePush_root (hr := by assumption)]; with_reducible rfl)
      | split
      | simp only [ckeeps_done, ckeeps_later, keeps_done, keeps_branch, keeps_waitWith, keeps_trapWith, apply_ite State.root,
          ite_self, root_mk, root_fold, foldl_root, implies_true, State.onMesh_root]
      | rw [meshItem_root (hr := by assumption)]
      | rw [State.queuePush_root (hr := by assumption)]
      | split
      | intro _
      | dsimp only

theorem execMfence_root (y : BitVec 2) (k : BitVec 4) (s o9 : State) (hr : execMfence y k s = .next o9) : o9.root = s.root := by
  unfold execMfence at hr; refine meshItem_root (hr := hr) (hf := fun _ => ?_) ..; all_goals
    repeat' first
      | exact keeps_trap _ _ _ _
      | exact keeps_wait _
      | assumption
      | (refine ofChk_keeps _ _ _ fun _ => ?_)
      | (refine then_keeps _ _ _ fun _ _ _ => ?_)
      | (simp only [ckeeps_done, ckeeps_later, keeps_done, keeps_branch, keeps_waitWith, keeps_trapWith, apply_ite State.root,
          ite_self, root_mk, root_fold, foldl_root, implies_true]; done)
      | (rw [meshItem_root (hr := by assumption)]; with_reducible rfl)
      | split
      | simp only [ckeeps_done, ckeeps_later, keeps_done, keeps_branch, keeps_waitWith, keeps_trapWith, apply_ite State.root,
          ite_self, root_mk, root_fold, foldl_root, implies_true]
      | rw [meshItem_root (hr := by assumption)]
      | split
      | intro _
      | dsimp only

theorem State.meshPop_root (s : State) (z : ℕ) (w0) (o9 : State) (hr : State.meshPop s z = some (w0, o9)) : o9.root = s.root := by
  unfold State.meshPop at hr; (repeat' split at hr) <;> (try cases hr) <;>
    repeat first
      | with_reducible rfl
      | assumption
      | (simp only [apply_ite State.root, ite_self, root_mk, root_fold, foldl_root, implies_true]; done)
      | rw [State.streamPop_root (hr := by assumption)]
      | simp only [apply_ite State.root, ite_self, root_mk, root_fold, foldl_root, implies_true]

theorem State.meshAppend_root (s : State) (z : ℕ) (v : VReg) (o9 : State) (hr : State.meshAppend s z v = some o9) : o9.root =
    s.root := by
  unfold State.meshAppend at hr; (repeat' split at hr) <;> (try cases hr) <;>
    repeat first
      | with_reducible rfl
      | assumption
      | (simp only [apply_ite State.root, ite_self, root_mk, root_fold, foldl_root, implies_true, State.onMesh_root]; done)
      | rw [State.streamPush_root (hr := by assumption)]
      | simp only [apply_ite State.root, ite_self, root_mk, root_fold, foldl_root, implies_true, State.onMesh_root]

theorem State.nextIndex_root (s : State) (z : ℕ) (l : List ℕ) (w0) (w1) (o9 : State) (hr : State.nextIndex s z l = some (w0, w1,
    o9)) : o9.root = s.root := by
  unfold State.nextIndex at hr; (repeat' split at hr) <;> (try cases hr) <;>
    repeat first
      | with_reducible rfl
      | assumption
      | (simp only [apply_ite State.root, ite_self, root_mk, root_fold, foldl_root, implies_true]; done)
      | rw [State.meshPop_root (hr := by assumption)]
      | simp only [apply_ite State.root, ite_self, root_mk, root_fold, foldl_root, implies_true]

@[simp] theorem State.useFree_root (s : State) (free : Bool) (n : ℕ) : (State.useFree s free n).root = s.root := by
  unfold State.useFree; simp only [apply_ite State.root, ite_self, root_mk, root_fold, foldl_root, implies_true,
      State.freshMany_root]

@[simp] theorem State.keepOp_root (s : State) (o : MeshOp) (isDone : Bool) : (State.keepOp s o isDone).root = s.root := by
  unfold State.keepOp; simp only [apply_ite State.root, ite_self, root_mk, root_fold, foldl_root, implies_true, State.onMesh_root]

theorem State.sweepInput_root (s : State) (o : MeshOp) (src : ℕ) (gather : Bool) (w0) (w1) (o9 : State) (hr : State.sweepInput s
    o src gather = some (w0, w1, o9)) : o9.root = s.root := by
  have h := hr
  clear hr
  unfold State.sweepInput at h
  split at h
  · split at h
    · cases h
    · rename_i e
      dsimp only at h
      split at h
      · simp only [Option.some.injEq, Prod.mk.injEq] at h
        rw [← h.2.2, State.onMesh_root, State.nextIndex_root (hr := e)]
      · simp only [Option.some.injEq, Prod.mk.injEq] at h
        rw [← h.2.2, State.nextIndex_root (hr := e)]
  · obtain ⟨⟨v, u⟩, e, e2⟩ := Option.map_eq_some_iff.1 h
    simp only [Prod.mk.injEq] at e2
    rw [← e2.2.2, State.meshPop_root (hr := e)]

theorem State.sweepOutput_root (s : State) (o : MeshOp) (dst : ℕ) (scatter : Bool) (v : BxVec) (w0) (o9 : State) (hr :
    State.sweepOutput s o dst scatter v = some (w0, o9)) : o9.root = s.root := by
  have h := hr
  clear hr
  unfold State.sweepOutput at h
  split at h
  · split at h
    · cases h
    · rename_i e
      dsimp only at h
      split at h
      · simp only [Option.some.injEq, Prod.mk.injEq] at h
        rw [← h.2, State.onMesh_root, State.nextIndex_root (hr := e)]
      · simp only [Option.some.injEq, Prod.mk.injEq] at h
        rw [← h.2, State.drainVec_root, State.nextIndex_root (hr := e)]
  · obtain ⟨u, e, e2⟩ := Option.map_eq_some_iff.1 h
    simp only [Prod.mk.injEq] at e2
    rw [← e2.2, State.meshAppend_root (hr := e)]

theorem State.meshEnter_root (s : State) (o : MeshOp) (src n : ℕ) (gather : Bool) (w0) (w1) (o9 : State) (hr : State.meshEnter s
    o src n gather = some (w0, w1, o9)) : o9.root = s.root := by
  have h := hr
  clear hr
  unfold State.meshEnter at h
  dsimp only at h
  (repeat' split at h) <;> first
    | (cases h; done)
    | (obtain ⟨p, hp, he⟩ := Option.map_eq_some_iff.1 h
       cases he
       exact State.sweepInput_root _ _ _ _ p.1 p.2.1 _ hp)

theorem State.meshOldest_root (s : State) (o : MeshOp) (src n : ℕ) (gather : Bool) (w0) (w1) (o9 : State) (hr : State.meshOldest
    s o src n gather = some (w0, w1, o9)) : o9.root = s.root := by
  unfold State.meshOldest at hr; (repeat' split at hr) <;> (try cases hr) <;>
    repeat first
      | with_reducible rfl
      | assumption
      | (simp only [apply_ite State.root, ite_self, root_mk, root_fold, foldl_root, implies_true]; done)
      | rw [State.meshEnter_root (hr := by assumption)]
      | simp only [apply_ite State.root, ite_self, root_mk, root_fold, foldl_root, implies_true]

theorem State.sweepStep_root (s : State) (o : MeshOp) (dst src bank : ℕ) (gather scatter first : Bool) (n : ℕ) (free : Bool) (o9
    : State) (hr : State.sweepStep s o dst src bank gather scatter first n free = some o9) : o9.root = s.root := by
  unfold State.sweepStep at hr; (repeat' split at hr) <;> (try cases hr) <;>
    repeat first
      | with_reducible rfl
      | assumption
      | (simp only [apply_ite State.root, ite_self, root_mk, root_fold, foldl_root, implies_true, State.useFree_root,
          State.onMesh_root, State.keepOp_root]; done)
      | rw [State.meshOldest_root (hr := by assumption)]
      | rw [State.sweepOutput_root (hr := by assumption)]
      | simp only [apply_ite State.root, ite_self, root_mk, root_fold, foldl_root, implies_true, State.useFree_root,
          State.onMesh_root, State.keepOp_root]

theorem State.deriveStep_root (s : State) (o : MeshOp) (dst src bank n : ℕ) (free : Bool) (o9 : State) (hr : State.deriveStep s o
    dst src bank n free = some o9) : o9.root = s.root := by
  unfold State.deriveStep at hr; (repeat' split at hr) <;> (try cases hr) <;>
    repeat first
      | with_reducible rfl
      | assumption
      | (simp only [apply_ite State.root, ite_self, root_mk, root_fold, foldl_root, implies_true, State.useFree_root,
          State.onMesh_root, State.keepOp_root]; done)
      | rw [State.meshOldest_root (hr := by assumption)]
      | rw [State.meshAppend_root (hr := by assumption)]
      | simp only [apply_ite State.root, ite_self, root_mk, root_fold, foldl_root, implies_true, State.useFree_root,
          State.onMesh_root, State.keepOp_root]

@[simp] theorem State.caught_root (s : State) (most : ℕ) : (State.caught s most).2.root = s.root := by
  unfold State.caught; simp only [apply_ite State.root, ite_self, root_mk, root_fold, foldl_root, implies_true, State.fresh_root]

@[simp] theorem State.fillMesh_root (s : State) (id a2 a3 : ℕ) : (State.fillMesh s id a2 a3).root = s.root := by
  induction a2 generalizing s a3 with
  | zero => rfl
  | succ k ih =>
    unfold State.fillMesh
    split
    · rfl
    · split
      · split
        · rfl
        · rename_i e
          dsimp only
          rw [ih, State.keepOp_root, State.useFree_root, State.onMesh_root, State.caught_root, State.meshEnter_root (hr := e)]
      · split
        · rfl
        · rename_i e
          dsimp only
          rw [ih, State.keepOp_root, State.useFree_root, State.onMesh_root, State.caught_root, State.meshEnter_root (hr := e)]
      · rfl

@[simp] theorem State.catchMesh_root (s : State) : (State.catchMesh s).root = s.root := by
  unfold State.catchMesh; simp only [apply_ite State.root, ite_self, root_mk, root_fold, foldl_root, implies_true,
      State.caught_root, State.fillMesh_root]

theorem State.panelStep_root (s : State) (o : MeshOp) (src n kp : ℕ) (cols : List (BitVec 32)) (o9 : State) (hr : State.panelStep
    s o src n kp cols = some o9) : o9.root = s.root := by
  unfold State.panelStep at hr; (repeat' split at hr) <;> (try cases hr) <;>
    repeat first
      | with_reducible rfl
      | assumption
      | (simp only [apply_ite State.root, ite_self, root_mk, root_fold, foldl_root, implies_true, State.keepOp_root,
          State.onMesh_root]; done)
      | rw [State.meshPop_root (hr := by assumption)]
      | simp only [apply_ite State.root, ite_self, root_mk, root_fold, foldl_root, implies_true, State.keepOp_root,
          State.onMesh_root]

theorem State.sliceTake_root (s : State) (o : MeshOp) (src n m h kp : ℕ) (o9 : State) (hr : State.sliceTake s o src n m h kp =
    some o9) : o9.root = s.root := by
  unfold State.sliceTake at hr; (repeat' split at hr) <;> (try cases hr) <;>
    repeat first
      | with_reducible rfl
      | assumption
      | (simp only [apply_ite State.root, ite_self, root_mk, root_fold, foldl_root, implies_true, State.keepOp_root]; done)
      | rw [State.meshPop_root (hr := by assumption)]
      | simp only [apply_ite State.root, ite_self, root_mk, root_fold, foldl_root, implies_true, State.keepOp_root]

theorem State.sliceStep_root (s : State) (o : MeshOp) (win n : ℕ) (full : Bool) (m h kp batch : ℕ) (o9 : State) (hr :
    State.sliceStep s o win n full m h kp batch = some o9) : o9.root = s.root := by
  unfold State.sliceStep at hr; dsimp only at hr; (repeat' split at hr) <;> (try cases hr) <;>
    repeat first
      | with_reducible rfl
      | assumption
      | (simp only [apply_ite State.root, ite_self, root_mk, root_fold, foldl_root, implies_true, State.onMesh_root,
          State.keepOp_root]; done)
      | simp only [apply_ite State.root, ite_self, root_mk, root_fold, foldl_root, implies_true, State.onMesh_root,
          State.keepOp_root]

theorem State.retireStep_root (s : State) (o : MeshOp) (dst win n : ℕ) (full : Bool) (m rm : ℕ) (f64 free : Bool) (o9 : State)
    (hr : State.retireStep s o dst win n full m rm f64 free = some o9) : o9.root = s.root := by
  unfold State.retireStep at hr; dsimp only at hr; (repeat' split at hr) <;> (try cases hr) <;>
    repeat first
      | with_reducible rfl
      | assumption
      | (simp only [apply_ite State.root, ite_self, root_mk, root_fold, foldl_root, implies_true, State.useFree_root,
          State.keepOp_root]; done)
      | rw [State.meshAppend_root (hr := by assumption)]
      | simp only [apply_ite State.root, ite_self, root_mk, root_fold, foldl_root, implies_true, State.useFree_root,
          State.keepOp_root]

theorem State.meshVector_root (s : State) (id : ℕ) (o9 : State) (hr : State.meshVector s id = some o9) : o9.root = s.root := by
  have h := hr
  clear hr
  unfold State.meshVector at h
  split at h
  · cases h
  · split at h
    · exact State.sweepStep_root (hr := h) ..
    · exact State.deriveStep_root (hr := h) ..
    · exact State.panelStep_root (hr := h) ..
    · exact State.sliceTake_root (hr := h) ..
    · exact State.retireStep_root (hr := h) ..
    · cases h

theorem execMeshVectorAppended_root (id : ℕ) (s o9 : State) (hr : execMeshVectorAppended id s = .next o9) : o9.root = s.root := by
  unfold execMeshVectorAppended at hr; injection hr with hr; rw [← hr]; exact getD_root _ _ fun t e => State.meshVector_root (hr
      := e) ..

theorem State.meshPair_root (s : State) (id : ℕ) (o9 : State) (hr : State.meshPair s id = some o9) : o9.root = s.root := by
  unfold State.meshPair at hr; (repeat' split at hr) <;> (try cases hr) <;>
    repeat first
      | with_reducible rfl
      | assumption
      | (simp only [apply_ite State.root, ite_self, root_mk, root_fold, foldl_root, implies_true]; done)
      | rw [State.sliceStep_root (hr := by assumption)]
      | simp only [apply_ite State.root, ite_self, root_mk, root_fold, foldl_root, implies_true]

theorem execSlicePairBoundary_root (id : ℕ) (s o9 : State) (hr : execSlicePairBoundary id s = .next o9) : o9.root = s.root := by
  unfold execSlicePairBoundary at hr; injection hr with hr; rw [← hr]; exact getD_root _ _ fun t e => State.meshPair_root (hr :=
      e) ..

theorem State.meshSegment_root (s : State) (id : ℕ) (o9 : State) (hr : State.meshSegment s id = some o9) : o9.root = s.root := by
  unfold State.meshSegment at hr; (repeat' split at hr) <;> (try cases hr) <;>
    repeat first
      | with_reducible rfl
      | assumption
      | (simp only [apply_ite State.root, ite_self, root_mk, root_fold, foldl_root, implies_true, State.keepOp_root]; done)
      | simp only [apply_ite State.root, ite_self, root_mk, root_fold, foldl_root, implies_true, State.keepOp_root]

theorem execSweepSegmentEnd_root (id : ℕ) (s o9 : State) (hr : execSweepSegmentEnd id s = .next o9) : o9.root = s.root := by
  unfold execSweepSegmentEnd at hr; injection hr with hr; rw [← hr]; exact getD_root _ _ fun t e => State.meshSegment_root (hr :=
      e) ..

theorem State.meshComplete_root (s : State) (id : ℕ) (o9 : State) (hr : State.meshComplete s id = some o9) : o9.root = s.root :=
    by
  have h := hr
  clear hr
  unfold State.meshComplete at h
  split at h
  · cases h
  · obtain ⟨g, _, rfl⟩ := Option.map_eq_some_iff.1 h
    simp only [State.keepOp_root, root_mk, root_fold]

theorem execMeshOperationComplete_root (id : ℕ) (s o9 : State) (hr : execMeshOperationComplete id s = .next o9) : o9.root =
    s.root := by
  unfold execMeshOperationComplete at hr; injection hr with hr; rw [← hr]; exact getD_root _ _ fun t e => State.meshComplete_root
      (hr := e) ..

theorem State.meshWriteBack_root (s o9 : State) (hr : State.meshWriteBack s = some o9) : o9.root = s.root := by
  have h := hr
  clear hr
  unfold State.meshWriteBack at h
  split at h
  · obtain ⟨g, _, rfl⟩ := Option.map_eq_some_iff.1 h
    simp only [State.onMe_root]
  · cases h

theorem execBatchWriteBack_root (s o9 : State) (hr : execBatchWriteBack s = .next o9) : o9.root = s.root := by
  unfold execBatchWriteBack at hr; injection hr with hr; rw [← hr]; exact getD_root _ _ fun t e => State.meshWriteBack_root (hr
      := e) ..

end Sys2Proof.Machine
end

