-- ==== Sys2Proof/Laws/RootFar.lean ====
section
/-! SUPPORT. What leaves the boot record, the part and PCAP alone: the system, firings, links, pages, barriers, queues and contexts. Each lemma says it of one definition. -/

set_option linter.all false

namespace Sys2Proof.Machine

theorem execGsr_root (y : BitVec 2) (d : BitVec 5) (k : BitVec 10) (s o9 : State) (hr : execGsr y d k s = .next o9) : o9.root =
    s.root := by
  unfold execGsr at hr; refine issue_root _ _ _ _ _ (fun s t => ?_) _ hr <;> grind -lia -ring -linarith -order -ac [State.root,
      Effect.Keeps, CmdEnd.Keeps, ofChk, Got.then, foldl_root, State.result_root]

theorem execSsr_root (y : BitVec 2) (a : BitVec 5) (k : BitVec 10) (s o9 : State) (hr : execSsr y a k s = .next o9) : o9.root =
    s.root := by
  unfold execSsr at hr; refine issuePre_root (hr := hr) (hbody := fun _ _ => ?_) ..; all_goals
    repeat' first
      | exact keeps_trap _ _ _ _
      | exact keeps_wait _
      | assumption
      | (refine ofChk_keeps _ _ _ fun _ => ?_)
      | (refine then_keeps _ _ _ fun _ _ _ => ?_)
      | (simp only [ckeeps_done, ckeeps_later, keeps_done, keeps_branch, keeps_waitWith, keeps_trapWith, apply_ite State.root,
          ite_self, root_mk, root_fold, foldl_root, implies_true, State.onCtx_root, State.onMe_root]; done)
      | (rw [issuePre_root (hr := by assumption)]; with_reducible rfl)
      | split
      | simp only [ckeeps_done, ckeeps_later, keeps_done, keeps_branch, keeps_waitWith, keeps_trapWith, apply_ite State.root,
          ite_self, root_mk, root_fold, foldl_root, implies_true, State.onCtx_root, State.onMe_root]
      | rw [issuePre_root (hr := by assumption)]
      | split
      | intro _
      | dsimp only

theorem execTrap_root (y : BitVec 2) (d a : BitVec 5) (s o9 : State) (hr : execTrap y d a s = .next o9) : o9.root = s.root := by
  unfold execTrap at hr; refine issue_root _ _ _ _ _ (fun s t => ?_) _ hr <;> grind -lia -ring -linarith -order -ac [State.root,
      Effect.Keeps, CmdEnd.Keeps, ofChk, Got.then, foldl_root]

theorem State.rftStops_root (s : State) (mode : ℕ) (x) (hr : State.rftStops s mode = some x) : x.Keeps s.root := by
  unfold State.rftStops at hr; grind -lia -ring -linarith -order -ac [State.root, Effect.Keeps, CmdEnd.Keeps, ofChk, Got.then,
      foldl_root]

@[simp] theorem State.dropBegun_root (s : State) (e : Engine) (mode : ℕ) : (State.dropBegun s e mode).root = s.root := by
  unfold State.dropBegun; dsimp only; (repeat' split) <;>
    repeat first
      | with_reducible rfl
      | assumption
      | (simp only [apply_ite State.root, ite_self, root_mk, root_fold, foldl_root, implies_true, State.setSupd_root,
          State.onMe_root, State.withdrawAcq_root]; done)
      | simp only [apply_ite State.root, ite_self, root_mk, root_fold, foldl_root, implies_true, State.setSupd_root,
          State.onMe_root, State.withdrawAcq_root]

theorem State.rftStops_keeps (s : State) (m : Nat) (e : Effect) (r) (h : s.rftStops m = some e) : e.Keeps r := by
  unfold State.rftStops at h
  dsimp only at h
  (repeat' split at h) <;> (cases h <;> first | exact keeps_trap _ _ _ _ | exact keeps_wait _)

theorem execRft_root (y : BitVec 2) (d : BitVec 5) (s o9 : State) (hr : execRft y d s = .next o9) : o9.root = s.root := by
  have h := hr
  clear hr
  unfold execRft at h
  dsimp only at h
  split at h
  · exact issue_root _ _ _ _ _ (fun s t => (keeps_done _ _).2 rfl) _ h
  · split at h
    · cases h; simp
    · rename_i e _ he
      exact issue_root _ _ _ _ _ (fun s t => State.rftStops_keeps _ _ _ _ he) _ h
    · exact issue_root _ _ _ _ _ (fun s t => keeps_trap _ _ _ _) _ h

theorem execBrk_root (y : BitVec 2) (d : BitVec 5) (s o9 : State) (hr : execBrk y d s = .next o9) : o9.root = s.root := by
  unfold execBrk at hr; (repeat' split at hr) <;> first
      | (cases hr; with_reducible rfl)
      | (refine issue_root _ _ _ _ _ (fun s t => ?_) _ hr <;>
              repeat' first
                | exact keeps_trap _ _ _ _
                | exact keeps_wait _
                | assumption
                | (refine ofChk_keeps _ _ _ fun _ => ?_)
                | (refine then_keeps _ _ _ fun _ _ _ => ?_)
                | (simp only [ckeeps_done, ckeeps_later, keeps_done, keeps_branch, keeps_waitWith, keeps_trapWith,
                    apply_ite State.root, ite_self, root_mk, root_fold, foldl_root, implies_true]; done)
                | split
                | simp only [ckeeps_done, ckeeps_later, keeps_done, keeps_branch, keeps_waitWith, keeps_trapWith,
                    apply_ite State.root, ite_self, root_mk, root_fold, foldl_root, implies_true]
                | split
                | intro _
                | dsimp only)

theorem execThset_root (y : BitVec 2) (a b : BitVec 5) (s o9 : State) (hr : execThset y a b s = .next o9) : o9.root = s.root := by
  unfold execThset at hr; refine issuePre_root (hr := hr) (hbody := fun _ _ => ?_) ..; all_goals
    repeat' first
      | exact keeps_trap _ _ _ _
      | exact keeps_wait _
      | assumption
      | (refine ofChk_keeps _ _ _ fun _ => ?_)
      | (refine then_keeps _ _ _ fun _ _ _ => ?_)
      | (simp only [ckeeps_done, ckeeps_later, keeps_done, keeps_branch, keeps_waitWith, keeps_trapWith, apply_ite State.root,
          ite_self, root_mk, root_fold, foldl_root, implies_true, State.onMe_root]; done)
      | (rw [issuePre_root (hr := by assumption)]; with_reducible rfl)
      | split
      | simp only [ckeeps_done, ckeeps_later, keeps_done, keeps_branch, keeps_waitWith, keeps_trapWith, apply_ite State.root,
          ite_self, root_mk, root_fold, foldl_root, implies_true, State.onMe_root]
      | rw [issuePre_root (hr := by assumption)]
      | split
      | intro _
      | dsimp only

theorem execEngclaim_root (y : BitVec 2) (s o9 : State) (hr : execEngclaim y s = .next o9) : o9.root = s.root := by
  unfold execEngclaim at hr; refine issue_root _ _ _ _ _ (fun s t => ?_) _ hr <;> grind -lia -ring -linarith -order -ac
      [State.root, Effect.Keeps, CmdEnd.Keeps, ofChk, Got.then, foldl_root, State.onMe_root, State.onArea_root]

theorem execEngrel_root (y : BitVec 2) (s o9 : State) (hr : execEngrel y s = .next o9) : o9.root = s.root := by
  unfold execEngrel at hr; refine issue_root _ _ _ _ _ (fun s t => ?_) _ hr <;> grind -lia -ring -linarith -order -ac
      [State.root, Effect.Keeps, CmdEnd.Keeps, ofChk, Got.then, foldl_root, State.onMe_root]

theorem execIinv_root (y : BitVec 2) (a b : BitVec 5) (s o9 : State) (hr : execIinv y a b s = .next o9) : o9.root = s.root := by
  unfold execIinv at hr; refine issuePre_root (hr := hr) (hbody := fun _ _ => ?_) ..; all_goals
    repeat' first
      | exact keeps_trap _ _ _ _
      | exact keeps_wait _
      | assumption
      | (refine ofChk_keeps _ _ _ fun _ => ?_)
      | (refine then_keeps _ _ _ fun _ _ _ => ?_)
      | (simp only [ckeeps_done, ckeeps_later, keeps_done, keeps_branch, keeps_waitWith, keeps_trapWith, apply_ite State.root,
          ite_self, root_mk, root_fold, foldl_root, implies_true, State.gather_root, State.dropLines_root,
          State.mapGroups_root]; done)
      | (rw [issuePre_root (hr := by assumption)]; with_reducible rfl)
      | split
      | simp only [ckeeps_done, ckeeps_later, keeps_done, keeps_branch, keeps_waitWith, keeps_trapWith, apply_ite State.root,
          ite_self, root_mk, root_fold, foldl_root, implies_true, State.gather_root, State.dropLines_root, State.mapGroups_root]
      | rw [issuePre_root (hr := by assumption)]
      | split
      | intro _
      | dsimp only

@[simp] theorem State.debugHalt_root (s : State) : (State.debugHalt s).root = s.root := by
  unfold State.debugHalt; simp only [apply_ite State.root, ite_self, root_mk, root_fold, foldl_root, implies_true,
      State.onMe_root, State.catchMesh_root, State.onArea_root]

@[simp] theorem State.debugGo_root (s : State) : (State.debugGo s).root = s.root := by
  unfold State.debugGo; simp only [apply_ite State.root, ite_self, root_mk, root_fold, foldl_root, implies_true, State.onMe_root]

theorem execHalt_root (y : BitVec 2) (s o9 : State) (hr : execHalt y s = .next o9) : o9.root = s.root := by
  have h := hr
  clear hr
  unfold execHalt at h
  dsimp only at h
  split at h
  · rename_i t e
    have e1 : t.root = s.root := issue_root _ _ _ _ _ (fun s t => by split; exact (keeps_done _ _).2 rfl; exact keeps_trap _ _ _ _) _ e
    cases h
    split
    · rw [State.debugHalt_root, e1]
    · exact e1
  · rename_i x hx
    exact absurd h (hx _)

theorem execDebugStop_root (s o9 : State) (hr : execDebugStop s = .next o9) : o9.root = s.root := by
  unfold execDebugStop at hr; (repeat' split at hr) <;> (try cases hr) <;>
    repeat first
      | with_reducible rfl
      | assumption
      | (simp only [apply_ite State.root, ite_self, root_mk, root_fold, foldl_root, implies_true, State.debugHalt_root]; done)
      | simp only [apply_ite State.root, ite_self, root_mk, root_fold, foldl_root, implies_true, State.debugHalt_root]

theorem execDebugResume_root (s o9 : State) (hr : execDebugResume s = .next o9) : o9.root = s.root := by
  unfold execDebugResume at hr; (repeat' split at hr) <;> (try cases hr) <;>
    repeat first
      | with_reducible rfl
      | assumption
      | (simp only [apply_ite State.root, ite_self, root_mk, root_fold, foldl_root, implies_true, State.debugGo_root]; done)
      | simp only [apply_ite State.root, ite_self, root_mk, root_fold, foldl_root, implies_true, State.debugGo_root]

theorem execTimealign_root (y : BitVec 2) (a : BitVec 5) (s o9 : State) (hr : execTimealign y a s = .next o9) : o9.root = s.root
    := by
  unfold execTimealign at hr; refine issue_root _ _ _ _ _ (fun s t => ?_) _ hr <;> grind -lia -ring -linarith -order -ac
      [State.root, Effect.Keeps, CmdEnd.Keeps, ofChk, Got.then, foldl_root, State.onMe_root]

theorem State.envSource_root (s : State) (k : ℕ) (w0) (o9 : State) (hr : State.envSource s k = some (w0,
    o9)) : o9.root = s.root := by
  unfold State.envSource at hr; (repeat' split at hr) <;> (try cases hr) <;>
    repeat first
      | with_reducible rfl
      | assumption
      | (simp only [apply_ite State.root, ite_self, root_mk, root_fold, foldl_root, implies_true]; done)
      | simp only [apply_ite State.root, ite_self, root_mk, root_fold, foldl_root, implies_true]

theorem execErd_root (y : BitVec 2) (d : BitVec 3) (a : BitVec 5) (s o9 : State) (hr : execErd y d a s = .next o9) : o9.root =
    s.root := by
  unfold execErd at hr; refine issue_root _ _ _ _ _ (fun s t => ?_) _ hr <;> grind -lia -ring -linarith -order -ac [State.root,
      Effect.Keeps, CmdEnd.Keeps, ofChk, Got.then, foldl_root, State.result_root, State.envSource_root]

theorem execEmov_root (y : BitVec 2) (d a : BitVec 3) (s o9 : State) (hr : execEmov y d a s = .next o9) : o9.root = s.root := by
  unfold execEmov at hr; refine issue_root _ _ _ _ _ (fun s t => ?_) _ hr <;> grind -lia -ring -linarith -order -ac [State.root,
      Effect.Keeps, CmdEnd.Keeps, ofChk, Got.then, foldl_root, State.result_root]

theorem execEstore_root (y : BitVec 2) (d : BitVec 3) (a : BitVec 4) (b : BitVec 5) (s o9 : State) (hr : execEstore y d a b s =
    .next o9) : o9.root = s.root := by
  have h := hr
  clear hr
  unfold execEstore at h
  refine issue_root _ _ _ _ _ (fun s t => ?_) _ h
  refine ofChk_keeps _ _ _ fun p => ?_
  split
  · exact keeps_trap _ _ _ _
  · split
    · exact keeps_trap _ _ _ _
    · apply State.storePage_root

theorem execTrace_root (y : BitVec 2) (d a : BitVec 5) (s o9 : State) (hr : execTrace y d a s = .next o9) : o9.root = s.root := by
  unfold execTrace at hr; refine issue_root _ _ _ _ _ (fun s t => ?_) _ hr <;> grind -lia -ring -linarith -order -ac [State.root,
      Effect.Keeps, CmdEnd.Keeps, ofChk, Got.then, foldl_root, State.trace_root]

theorem execCalset_root (y : BitVec 2) (d a : BitVec 5) (s o9 : State) (hr : execCalset y d a s = .next o9) : o9.root = s.root :=
    by
  unfold execCalset at hr; refine issuePre_root (hr := hr) (hbody := fun _ _ => ?_) ..; all_goals
    repeat' first
      | exact keeps_trap _ _ _ _
      | exact keeps_wait _
      | assumption
      | (refine ofChk_keeps _ _ _ fun _ => ?_)
      | (refine then_keeps _ _ _ fun _ _ _ => ?_)
      | (simp only [ckeeps_done, ckeeps_later, keeps_done, keeps_branch, keeps_waitWith, keeps_trapWith, apply_ite State.root,
          ite_self, root_mk, root_fold, foldl_root, implies_true]; done)
      | (rw [issuePre_root (hr := by assumption)]; with_reducible rfl)
      | split
      | simp only [ckeeps_done, ckeeps_later, keeps_done, keeps_branch, keeps_waitWith, keeps_trapWith, apply_ite State.root,
          ite_self, root_mk, root_fold, foldl_root, implies_true]
      | rw [issuePre_root (hr := by assumption)]
      | split
      | intro _
      | dsimp only

theorem execXswap_root (y : BitVec 2) (d a : BitVec 5) (s o9 : State) (hr : execXswap y d a s = .next o9) : o9.root = s.root := by
  unfold execXswap at hr; refine issuePre_root (hr := hr) (hbody := fun _ _ => ?_) ..; all_goals
    repeat' first
      | exact keeps_trap _ _ _ _
      | exact keeps_wait _
      | assumption
      | (refine ofChk_keeps _ _ _ fun _ => ?_)
      | (refine then_keeps _ _ _ fun _ _ _ => ?_)
      | (simp only [ckeeps_done, ckeeps_later, keeps_done, keeps_branch, keeps_waitWith, keeps_trapWith, apply_ite State.root,
          ite_self, root_mk, root_fold, foldl_root, implies_true]; done)
      | (rw [issuePre_root (hr := by assumption)]; with_reducible rfl)
      | split
      | simp only [ckeeps_done, ckeeps_later, keeps_done, keeps_branch, keeps_waitWith, keeps_trapWith, apply_ite State.root,
          ite_self, root_mk, root_fold, foldl_root, implies_true]
      | rw [issuePre_root (hr := by assumption)]
      | split
      | intro _
      | dsimp only

@[simp] theorem State.swapObjs_root (s : State) (a b n : ℕ) : (State.swapObjs s a b n).root = s.root := by
  unfold State.swapObjs; simp only [apply_ite State.root, ite_self, root_mk, root_fold, foldl_root, implies_true]

theorem execSwapExchangeComplete_root (s o9 : State) (hr : execSwapExchangeComplete s = .next o9) : o9.root = s.root := by
  unfold execSwapExchangeComplete at hr; grind -lia -ring -linarith -order -ac [State.root, Effect.Keeps, CmdEnd.Keeps, ofChk,
      Got.then, foldl_root, State.swapObjs_root, State.hbmPut_root, State.dropHandles_root]

theorem execInterrupt_root (s o9 : State) (hr : execInterrupt s = .next o9) : o9.root = s.root := by
  unfold execInterrupt at hr; (repeat' split at hr) <;> (try cases hr) <;>
    repeat first
      | with_reducible rfl
      | assumption
      | (simp only [apply_ite State.root, ite_self, root_mk, root_fold, foldl_root, implies_true, State.onMe_root,
          State.takeTrap_root]; done)
      | simp only [apply_ite State.root, ite_self, root_mk, root_fold, foldl_root, implies_true, State.onMe_root,
          State.takeTrap_root]

theorem execVariableLatencyArrival_root (e : BitVec 3) (i : ℕ) (s o9 : State) (hr : execVariableLatencyArrival e i s = .next o9)
    : o9.root = s.root := by
  unfold execVariableLatencyArrival at hr; (repeat' split at hr) <;> (try cases hr) <;>
    repeat first
      | with_reducible rfl
      | assumption
      | (simp only [apply_ite State.root, ite_self, root_mk, root_fold, foldl_root, implies_true, State.onEng_root]; done)
      | simp only [apply_ite State.root, ite_self, root_mk, root_fold, foldl_root, implies_true, State.onEng_root]

@[simp] theorem State.askPa_root (s : State) (ctx pa n : ℕ) (ag : Agent) : (State.askPa s ctx pa n ag).root = s.root := by
  unfold State.askPa; simp only [apply_ite State.root, ite_self, root_mk, root_fold, foldl_root, implies_true,
      State.forwardFor_root]

@[simp] theorem State.askRecord_root (s : State) (cmd : ℕ) : (State.askRecord s cmd).root = s.root := by
  unfold State.askRecord; simp only [apply_ite State.root, ite_self, root_mk, root_fold, foldl_root, implies_true,
      State.askPa_root]

@[simp] theorem State.putPa_root (s : State) (ctx pa : ℕ) (bs : List Byte) (ag : Agent) : (State.putPa s ctx pa bs ag).root =
    s.root := by
  unfold State.putPa; simp only [apply_ite State.root, ite_self, root_mk, root_fold, foldl_root, implies_true, State.hbmPut_root,
      State.forwardStore_root]

@[simp] theorem State.putReport_root (s : State) (ctx pa : ℕ) (bs : List Byte) (ag : Agent) : (State.putReport s ctx pa bs
    ag).root = s.root := by
  unfold State.putReport; simp only [apply_ite State.root, ite_self, root_mk, root_fold, foldl_root, implies_true,
      State.putPa_root]

@[simp] theorem State.cmdDone_root (s : State) (cmd ctx status : ℕ) : (State.cmdDone s cmd ctx status).root = s.root := by
  unfold State.cmdDone; simp only [apply_ite State.root, ite_self, root_mk, root_fold, foldl_root, implies_true,
      State.event_root, State.putPa_root]

theorem State.reportAt_root (s : State) (cmd ctx a : ℕ) (bs : List Byte) : (State.reportAt s cmd ctx a bs).Keeps s.root := by
  unfold State.reportAt; (repeat' split) <;> simp_all [Effect.Keeps, CmdEnd.Keeps, apply_ite State.root, ite_self, root_mk,
      root_fold, foldl_root, implies_true, State.putReport_root]

@[simp] theorem State.bellTurn_root (s : State) (b : Bell) (cmd : ℕ) : (State.bellTurn s b cmd).2.root = s.root := by
  unfold State.bellTurn; dsimp only; (repeat' split) <;>
    repeat first
      | with_reducible rfl
      | assumption
      | (simp only [apply_ite State.root, ite_self, root_mk, root_fold, foldl_root, implies_true]; done)
      | simp only [apply_ite State.root, ite_self, root_mk, root_fold, foldl_root, implies_true]

theorem command_root (b : Bell) (op : ℕ → Bool) (cmd : ℕ) (s : State) (hasCtx : Bool) (body : List Byte → State → CmdEnd) (hbody
    : ∀ x0 x1, (body x0 x1).Keeps x1.root) (o9 : State) (hr : command b op cmd s hasCtx body = .next o9) : o9.root = s.root := by
  unfold command at hr; grind -lia -ring -linarith -order -ac [State.root, Effect.Keeps, CmdEnd.Keeps, ofChk, Got.then,
      foldl_root, State.bellTurn_root, State.askRecord_root, State.cmdDone_root, State.dropLines_root]

theorem execBadcmd_root (bell : BitVec 3) (cmd : BitVec 52) (s o9 : State) (hr : execBadcmd bell cmd s = .next o9) : o9.root =
    s.root := by
  unfold execBadcmd at hr; grind -lia -ring -linarith -order -ac [State.root, Effect.Keeps, CmdEnd.Keeps, ofChk, Got.then,
      foldl_root, command_root]

@[simp] theorem State.onOwner_root (s : State) (x : WSlot) (f : Group → Group) : (State.onOwner s x f).root = s.root := by
  unfold State.onOwner; simp only [apply_ite State.root, ite_self, root_mk, root_fold, foldl_root, implies_true,
      State.mapGroups_root]

@[simp] theorem State.firingFlag_root (s : State) (x : WSlot) : (State.firingFlag s x).root = s.root := by
  unfold State.firingFlag; simp only [apply_ite State.root, ite_self, root_mk, root_fold, foldl_root, implies_true,
      State.onOwner_root]

@[simp] theorem State.liftMarks_root (s : State) (n : ℕ) (x : WSlot) (num : ℕ) : (State.liftMarks s n x num).root = s.root := by
  unfold State.liftMarks; simp only [apply_ite State.root, ite_self, root_mk, root_fold, foldl_root, implies_true,
      State.onOwner_root]

@[simp] theorem State.endFiring_root (s : State) (ctx n : ℕ) (last : Last) (stop flag : Bool) : (State.endFiring s ctx n last
    stop flag).root = s.root := by
  unfold State.endFiring; dsimp only; (repeat' split) <;>
    repeat first
      | with_reducible rfl
      | assumption
      | (simp only [apply_ite State.root, ite_self, root_mk, root_fold, foldl_root, implies_true, State.addCtrOpt_root,
          State.firingFlag_root, State.liftMarks_root, State.onCtx_root]; done)
      | simp only [apply_ite State.root, ite_self, root_mk, root_fold, foldl_root, implies_true, State.addCtrOpt_root,
          State.firingFlag_root, State.liftMarks_root, State.onCtx_root]

@[simp] theorem State.firingBytes_root (s : State) (x : WSlot) : (State.firingBytes s x).root = s.root := by
  unfold State.firingBytes; simp only [apply_ite State.root, ite_self, root_mk, root_fold, foldl_root, implies_true,
      State.onOwner_root]

@[simp] theorem State.markFiring_root (s : State) (n : ℕ) (x : WSlot) : (State.markFiring s n x).root = s.root := by
  unfold State.markFiring; dsimp only; (repeat' split) <;>
    repeat first
      | with_reducible rfl
      | assumption
      | (simp only [apply_ite State.root, ite_self, root_mk, root_fold, foldl_root, implies_true, State.onOwner_root]; done)
      | simp only [apply_ite State.root, ite_self, root_mk, root_fold, foldl_root, implies_true, State.onOwner_root]

theorem execFiringStart_root (ctx : BitVec 8) (slot : BitVec 12) (s o9 : State) (hr : execFiringStart ctx slot s = .next o9) :
    o9.root = s.root := by
  unfold execFiringStart at hr; dsimp only at hr; (repeat' split at hr) <;> (try cases hr) <;>
    repeat first
      | with_reducible rfl
      | assumption
      | (simp only [apply_ite State.root, ite_self, root_mk, root_fold, foldl_root, implies_true, State.endFiring_root,
          State.onSlot_root, State.markFiring_root, State.firingBytes_root, State.gather_root, State.dropLines_root,
          State.countRange_root]; done)
      | simp only [apply_ite State.root, ite_self, root_mk, root_fold, foldl_root, implies_true, State.endFiring_root,
          State.onSlot_root, State.markFiring_root, State.firingBytes_root, State.gather_root, State.dropLines_root,
          State.countRange_root]

@[simp] theorem sendFiring_root (q : QPair) (port : ℕ) (w : WEntry) (a3 : ℕ) (a4 : State) (a5 : Firing) : (sendFiring q port w a3
    a4 a5).1.root = a4.root := by
  induction a3 generalizing a4 a5 with
  | zero => rfl
  | succ k ih =>
    unfold sendFiring
    split
    · rfl
    · split
      · rfl
      · rename_i t e
        rw [ih]; exact State.qpSend_root _ _ _ _ _ e

@[simp] theorem State.localDone_root (s : State) (ctx n : ℕ) (x : WSlot) (f : Firing) : (State.localDone s ctx n x f).root =
    s.root := by
  unfold State.localDone; simp only [apply_ite State.root, ite_self, root_mk, root_fold, foldl_root, implies_true,
      State.onSlot_root, State.endFiring_root]

theorem execFiringLocalComplete_root (ctx : BitVec 8) (slot : BitVec 12) (s o9 : State) (hr : execFiringLocalComplete ctx slot s
    = .next o9) : o9.root = s.root := by
  unfold execFiringLocalComplete at hr; dsimp only at hr; (repeat' split at hr) <;> (try cases hr) <;>
    repeat first
      | with_reducible rfl
      | assumption
      | (simp only [apply_ite State.root, ite_self, root_mk, root_fold, foldl_root, implies_true, sendFiring_root,
          State.localDone_root, State.onSlot_root]; done)
      | simp only [apply_ite State.root, ite_self, root_mk, root_fold, foldl_root, implies_true, sendFiring_root,
          State.localDone_root, State.onSlot_root]

@[simp] theorem State.loseFiring_root (s : State) (ctx n qp : ℕ) : (State.loseFiring s ctx n qp).root = s.root := by
  unfold State.loseFiring; simp only [apply_ite State.root, ite_self, root_mk, root_fold, foldl_root, implies_true,
      State.env_root, State.onQp_root, State.onSlot_root]

theorem execFiringTimeout_root (ctx : BitVec 8) (slot : BitVec 12) (s o9 : State) (hr : execFiringTimeout ctx slot s = .next o9)
    : o9.root = s.root := by
  unfold execFiringTimeout at hr; dsimp only at hr; (repeat' split at hr) <;> (try cases hr) <;>
    repeat first
      | with_reducible rfl
      | assumption
      | (simp only [apply_ite State.root, ite_self, root_mk, root_fold, foldl_root, implies_true, State.liftMarks_root,
          State.loseFiring_root, State.onSlot_root, State.endFiring_root]; done)
      | simp only [apply_ite State.root, ite_self, root_mk, root_fold, foldl_root, implies_true, State.liftMarks_root,
          State.loseFiring_root, State.onSlot_root, State.endFiring_root]

@[simp] theorem State.fackArrive_root (s : State) (pk : Packet) : (State.fackArrive s pk).root = s.root := by
  unfold State.fackArrive; dsimp only; (repeat' split) <;>
    repeat first
      | with_reducible rfl
      | assumption
      | (simp only [apply_ite State.root, ite_self, root_mk, root_fold, foldl_root, implies_true, State.endFiring_root,
          State.onQp_root, State.onSlot_root, State.liftMarks_root]; done)
      | simp only [apply_ite State.root, ite_self, root_mk, root_fold, foldl_root, implies_true, State.endFiring_root,
          State.onQp_root, State.onSlot_root, State.liftMarks_root]

@[simp] theorem State.putRecord_root (s : State) (qp : ℕ) (r : FireRec) : (State.putRecord s qp r).root = s.root := by
  unfold State.putRecord; simp only [apply_ite State.root, ite_self, root_mk, root_fold, foldl_root, implies_true,
      State.onQp_root]

@[simp] theorem State.fack_root (s : State) (qp slot firing status reason : ℕ) : (State.fack s qp slot firing status reason).root
    = s.root := by
  unfold State.fack; simp only [apply_ite State.root, ite_self, root_mk, root_fold, foldl_root, implies_true, State.sendQp_root]

@[simp] theorem State.sendFack_root (s : State) (qp : ℕ) (r : FireRec) : (State.sendFack s qp r).root = s.root := by
  unfold State.sendFack; simp only [apply_ite State.root, ite_self, root_mk, root_fold, foldl_root, implies_true, State.fack_root]

@[simp] theorem State.failFire_root (s : State) (qp : ℕ) (r : FireRec) (last : Last) (reason : ℕ) : (State.failFire s qp r last
    reason).root = s.root := by
  unfold State.failFire; simp only [apply_ite State.root, ite_self, root_mk, root_fold, foldl_root, implies_true,
      State.teardownAll_root, State.sendFack_root, State.putRecord_root]

@[simp] theorem State.countRctr_root (s : State) (ctx : ℕ) (pk : Packet) : (State.countRctr s ctx pk).root = s.root := by
  unfold State.countRctr; (repeat' split) <;> simp_all [apply_ite State.root, ite_self, root_mk, root_fold, foldl_root,
      implies_true, State.addCtr_root]

@[simp] theorem State.settleFire_root (s : State) (qp : ℕ) (r : FireRec) : (State.settleFire s qp r).root = s.root := by
  unfold State.settleFire; dsimp only; (repeat' split) <;>
    repeat first
      | with_reducible rfl
      | assumption
      | (simp only [apply_ite State.root, ite_self, root_mk, root_fold, foldl_root, implies_true, State.barArrive_root,
          State.teardownAll_root, State.sendFack_root, State.onQp_root, State.putRecord_root, State.countRctr_root]; done)
      | simp only [apply_ite State.root, ite_self, root_mk, root_fold, foldl_root, implies_true, State.barArrive_root,
          State.teardownAll_root, State.sendFack_root, State.onQp_root, State.putRecord_root, State.countRctr_root]

@[simp] theorem State.settleFires_root (s : State) : (State.settleFires s).root = s.root := by
  unfold State.settleFires; simp only [apply_ite State.root, ite_self, root_mk, root_fold, foldl_root, implies_true,
      State.settleFire_root]

@[simp] theorem State.holdFire_root (s : State) (qp : ℕ) (r : FireRec) (pk : Packet) : (State.holdFire s qp r pk).root = s.root
    := by
  unfold State.holdFire; simp only [apply_ite State.root, ite_self, root_mk, root_fold, foldl_root, implies_true,
      State.putRecord_root]

@[simp] theorem State.unmarkFire_root (s : State) (q : QPair) (pk : Packet) (l : Loc) (n : ℕ) : (State.unmarkFire s q pk l
    n).root = s.root := by
  unfold State.unmarkFire; (repeat' split) <;> simp_all [apply_ite State.root, ite_self, root_mk, root_fold, foldl_root,
      implies_true, State.onOwner_root]

@[simp] theorem State.fireDone_root (s t : State) (q : QPair) (r : FireRec) (pk : Packet) (l : Option (Loc × ℕ)) (owed : List
    Owed) : (State.fireDone s t q r pk l owed).root = t.root := by
  unfold State.fireDone; dsimp only; (repeat' split) <;>
    repeat first
      | with_reducible rfl
      | assumption
      | (simp only [apply_ite State.root, ite_self, root_mk, root_fold, foldl_root, implies_true, State.unmarkFire_root,
          State.settleFire_root, State.putRecord_root]; done)
      | simp only [apply_ite State.root, ite_self, root_mk, root_fold, foldl_root, implies_true, State.unmarkFire_root,
          State.settleFire_root, State.putRecord_root]

@[simp] theorem State.combineFar_root (s : State) (q : QPair) (pk : Packet) (ro : Routine) (w ctx va v : ℕ) : (State.combineFar s
    q pk ro w ctx va v).root = s.root := by
  unfold State.combineFar; simp only [apply_ite State.root, ite_self, root_mk, root_fold, foldl_root, implies_true,
      State.newTag_root]

@[simp] theorem State.combinePiece_root (s : State) (ag : Agent) (q : QPair) (pk : Packet) (ro : Routine) (w : ℕ) (l : Loc) (bs :
    List Byte) : (State.combinePiece s ag q pk ro w l bs).1.root = s.root := by
  unfold State.combinePiece; dsimp only; (repeat' split) <;>
    repeat first
      | with_reducible rfl
      | assumption
      | (simp only [apply_ite State.root, ite_self, root_mk, root_fold, foldl_root, implies_true, State.combineFar_root,
          State.locWrite_root]; done)
      | simp only [apply_ite State.root, ite_self, root_mk, root_fold, foldl_root, implies_true, State.combineFar_root,
          State.locWrite_root]

@[simp] theorem combinePieces_root (s : State) (ag : Agent) (q : QPair) (pk : Packet) (ro : Routine) (w : ℕ) (a6 : List (Loc ×
    ℕ)) (a7 : List Byte) : (combinePieces s ag q pk ro w a6 a7).1.root = s.root := by
  induction a6 generalizing s a7 with
  | nil => rfl
  | cons p r ih =>
    unfold combinePieces
    split
    · rename_i t e
      rw [ih]
      have e1 := State.combinePiece_root s ag q pk ro w p.1 (a7.take p.2)
      rw [e] at e1
      exact e1
    · rename_i x e
      exact State.combinePiece_root s ag q pk ro w p.1 (a7.take p.2)

@[simp] theorem State.fireCombine_root (s : State) (q : QPair) (c : Context) (r : FireRec) (pk : Packet) (l : Loc) (bs : List
    Byte) (owed : List Owed) : (State.fireCombine s q c r pk l bs owed).root = s.root := by
  unfold State.fireCombine; grind -lia -ring -linarith -order -ac [State.root, Effect.Keeps, CmdEnd.Keeps, ofChk, Got.then,
      foldl_root, State.failFire_root, State.holdFire_root, State.locWrite_root, State.fireDone_root, combinePieces_root,
      State.pumpClosing_root]

@[simp] theorem State.firePerform_root (s : State) (q : QPair) (c : Context) (r : FireRec) (pk : Packet) (l : Loc) :
    (State.firePerform s q c r pk l).root = s.root := by
  unfold State.firePerform; dsimp only; (repeat' split) <;>
    repeat first
      | with_reducible rfl
      | assumption
      | (simp only [apply_ite State.root, ite_self, root_mk, root_fold, foldl_root, implies_true, State.fireDone_root,
          State.locWrite_root, State.onCore_root, State.failFire_root, State.fireCombine_root]; done)
      | simp only [apply_ite State.root, ite_self, root_mk, root_fold, foldl_root, implies_true, State.fireDone_root,
          State.locWrite_root, State.onCore_root, State.failFire_root, State.fireCombine_root]

@[simp] theorem State.combineReturns_root (s : State) (c : Closing) (x : Combine) (v : ℕ) : (State.combineReturns s c x v).root =
    s.root := by
  unfold State.combineReturns; dsimp only; (repeat' split) <;>
    repeat first
      | with_reducible rfl
      | assumption
      | (simp only [apply_ite State.root, ite_self, root_mk, root_fold, foldl_root, implies_true, State.settleFires_root,
          State.endClosing_root, State.pumpClosing_root, State.failFire_root]; done)
      | simp only [apply_ite State.root, ite_self, root_mk, root_fold, foldl_root, implies_true, State.settleFires_root,
          State.endClosing_root, State.pumpClosing_root, State.failFire_root]

@[simp] theorem State.farReturns_root (s : State) (tag v : ℕ) : (State.farReturns s tag v).root = s.root := by
  unfold State.farReturns; (repeat' split) <;> simp_all [apply_ite State.root, ite_self, root_mk, root_fold, foldl_root,
      implies_true, State.closingReturns_root, State.combineReturns_root]

@[simp] theorem State.farFails_root (s : State) (tag : ℕ) : (State.farFails s tag).root = s.root := by
  unfold State.farFails; simp only [apply_ite State.root, ite_self, root_mk, root_fold, foldl_root, implies_true,
      State.settleFires_root, State.closingFails_root]

@[simp] theorem State.fireApply_root (s : State) (q : QPair) (r : FireRec) (pk : Packet) (isNew : Bool) : (State.fireApply s q r
    pk isNew).root = s.root := by
  unfold State.fireApply; dsimp only; (repeat' split) <;>
    repeat first
      | with_reducible rfl
      | assumption
      | (simp only [apply_ite State.root, ite_self, root_mk, root_fold, foldl_root, implies_true, State.failFire_root,
          State.fireDone_root, State.holdFire_root, State.firePerform_root]; done)
      | simp only [apply_ite State.root, ite_self, root_mk, root_fold, foldl_root, implies_true, State.failFire_root,
          State.fireDone_root, State.holdFire_root, State.firePerform_root]

@[simp] theorem State.fireArrive_root (s : State) (pk : Packet) : (State.fireArrive s pk).root = s.root := by
  unfold State.fireArrive; dsimp only; (repeat' split) <;>
    repeat first
      | with_reducible rfl
      | assumption
      | (simp only [apply_ite State.root, ite_self, root_mk, root_fold, foldl_root, implies_true, State.fack_root,
          State.sendFack_root, State.fireApply_root]; done)
      | simp only [apply_ite State.root, ite_self, root_mk, root_fold, foldl_root, implies_true, State.fack_root,
          State.sendFack_root, State.fireApply_root]

@[simp] theorem State.retryFires_root (s : State) : (State.retryFires s).root = s.root := by
  unfold State.retryFires; simp only [apply_ite State.root, ite_self, root_mk, root_fold, foldl_root, implies_true,
      State.fireArrive_root]

theorem execFiringRecordExpiry_root (qp slot : BitVec 12) (firing : ℕ) (s o9 : State) (hr : execFiringRecordExpiry qp slot firing
    s = .next o9) : o9.root = s.root := by
  unfold execFiringRecordExpiry at hr; (repeat' split at hr) <;> (try cases hr) <;>
    repeat first
      | with_reducible rfl
      | assumption
      | (simp only [apply_ite State.root, ite_self, root_mk, root_fold, foldl_root, implies_true, State.onQp_root]; done)
      | simp only [apply_ite State.root, ite_self, root_mk, root_fold, foldl_root, implies_true, State.onQp_root]

@[simp] theorem State.answer_root (s : State) (line : ℕ) (ans : Packet) : (State.answer s line ans).root = s.root := by
  unfold State.answer; simp only [apply_ite State.root, ite_self, root_mk, root_fold, foldl_root, implies_true, State.post_root]

@[simp] theorem State.owe_root (s : State) (pk : Packet) : (State.owe s pk).root = s.root := by
  unfold State.owe; simp only [apply_ite State.root, ite_self, root_mk, root_fold, foldl_root, implies_true]

@[simp] theorem State.onceAtHome_root (s : State) (pk : Packet) (perform : State → State) (hperform : ∀ x0,
    (perform x0).root = x0.root) : (State.onceAtHome s pk perform).root = s.root := by
  unfold State.onceAtHome; (repeat' split) <;> simp_all [apply_ite State.root, ite_self, root_mk, root_fold, foldl_root,
      implies_true, State.post_root]

@[simp] theorem State.tellSource_root (s : State) (smod tag ctx line : ℕ) (sub : BitVec 8) : (State.tellSource s smod tag ctx
    line sub).root = s.root := by
  unfold State.tellSource; simp only [apply_ite State.root, ite_self, root_mk, root_fold, foldl_root, implies_true,
      State.post_root]

@[simp] theorem State.tellGone_root (s : State) (pk : Packet) (h : Home) : (State.tellGone s pk h).root = s.root := by
  unfold State.tellGone; (repeat' split) <;> simp_all [apply_ite State.root, ite_self, root_mk, root_fold, foldl_root,
      implies_true, State.tellSource_root]

@[simp] theorem State.holdPacket_root (s : State) (pk : Packet) : (State.holdPacket s pk).root = s.root := by
  unfold State.holdPacket; simp only [apply_ite State.root, ite_self, root_mk, root_fold, foldl_root, implies_true]

@[simp] theorem State.rdreqArrive_root (s : State) (pk : Packet) : (State.rdreqArrive s pk).root = s.root := by
  unfold State.rdreqArrive; simp only [apply_ite State.root, ite_self, root_mk, root_fold, foldl_root, implies_true,
      State.onceAtHome_root, State.holdPacket_root, State.answer_root, State.tellGone_root]

@[simp] theorem homeRuns_root (pk ack : Packet) (a2 : List (ℕ × List Byte)) (a3 : State) : (homeRuns pk ack a2 a3).root = a3.root
    := by
  fun_induction homeRuns <;> simp_all [apply_ite State.root, ite_self, root_mk, root_fold, foldl_root, implies_true]

@[simp] theorem State.answerWrite_root (s : State) (pk : Packet) (h : Home) (ans : Packet) : (State.answerWrite s pk h ans).root
    = s.root := by
  unfold State.answerWrite; dsimp only; (repeat' split) <;>
    repeat first
      | with_reducible rfl
      | assumption
      | (simp only [apply_ite State.root, ite_self, root_mk, root_fold, foldl_root, implies_true, State.answer_root,
          State.tellSource_root]; done)
      | simp only [apply_ite State.root, ite_self, root_mk, root_fold, foldl_root, implies_true, State.answer_root,
          State.tellSource_root]

@[simp] theorem State.wrreqArrive_root (s : State) (pk : Packet) : (State.wrreqArrive s pk).root = s.root := by
  unfold State.wrreqArrive; grind -lia -ring -linarith -order -ac [State.root, Effect.Keeps, CmdEnd.Keeps, ofChk, Got.then,
      foldl_root, State.onceAtHome_root, homeRuns_root, State.tellGone_root, State.owe_root, State.answerWrite_root]

@[simp] theorem State.holdFar_root (s : State) (pk : Packet) (c va : ℕ) (o : AtOp) : (State.holdFar s pk c va o).root = s.root :=
    by
  unfold State.holdFar; simp only [apply_ite State.root, ite_self, root_mk, root_fold, foldl_root, implies_true, State.owe_root,
      State.hold_root]

@[simp] theorem State.atreqArrive_root (s : State) (pk : Packet) : (State.atreqArrive s pk).root = s.root := by
  unfold State.atreqArrive; grind -lia -ring -linarith -order -ac [State.root, Effect.Keeps, CmdEnd.Keeps, ofChk, Got.then,
      foldl_root, State.onceAtHome_root, State.answerWrite_root, State.tellGone_root, State.holdFar_root, State.homePut_root]

@[simp] theorem State.performWrite_root (s : State) (w : HeldWrite) : (State.performWrite s w).root = s.root := by
  unfold State.performWrite; dsimp only; (repeat' split) <;>
    repeat first
      | with_reducible rfl
      | assumption
      | (simp only [apply_ite State.root, ite_self, root_mk, root_fold, foldl_root, implies_true, State.performHeld_root,
          State.answer_root]; done)
      | simp only [apply_ite State.root, ite_self, root_mk, root_fold, foldl_root, implies_true, State.performHeld_root,
          State.answer_root]

@[simp] theorem State.onFwd_root (s : State) (tag : ℕ) (f : Fwd → Fwd) : (State.onFwd s tag f).root = s.root := by
  unfold State.onFwd; simp only [apply_ite State.root, ite_self, root_mk, root_fold, foldl_root, implies_true]

@[simp] theorem State.dropFwd_root (s : State) (tag : ℕ) : (State.dropFwd s tag).root = s.root := by
  unfold State.dropFwd; simp only [apply_ite State.root, ite_self, root_mk, root_fold, foldl_root, implies_true,
      State.sendUnsent_root]

@[simp] theorem State.retryWaiting_root (s : State) : (State.retryWaiting s).root = s.root := by
  unfold State.retryWaiting; simp only [apply_ite State.root, ite_self, root_mk, root_fold, foldl_root, implies_true,
      State.retryFires_root, State.rdreqArrive_root, State.atreqArrive_root]

@[simp] theorem State.loadReturns_root (s : State) (f : Fwd) (bs : List Byte) : (State.loadReturns s f bs).root = s.root := by
  unfold State.loadReturns; dsimp only; (repeat' split) <;>
    repeat first
      | with_reducible rfl
      | assumption
      | (simp only [apply_ite State.root, ite_self, root_mk, root_fold, foldl_root, implies_true, State.onCore_root]; done)
      | simp only [apply_ite State.root, ite_self, root_mk, root_fold, foldl_root, implies_true, State.onCore_root]

@[simp] theorem State.rdrspArrive_root (s : State) (pk : Packet) : (State.rdrspArrive s pk).root = s.root := by
  unfold State.rdrspArrive; (repeat' split) <;> simp_all [apply_ite State.root, ite_self, root_mk, root_fold, foldl_root,
      implies_true, State.loadReturns_root, State.dropFwd_root]

@[simp] theorem State.atomicReturns_root (s : State) (f : Fwd) (old : ℕ) (added : Bool) : (State.atomicReturns s f old
    added).root = s.root := by
  unfold State.atomicReturns; (repeat' split) <;> simp_all [apply_ite State.root, ite_self, root_mk, root_fold, foldl_root,
      implies_true, State.onCore_root]

@[simp] theorem State.atrspArrive_root (s : State) (pk : Packet) : (State.atrspArrive s pk).root = s.root := by
  unfold State.atrspArrive; dsimp only; (repeat' split) <;>
    repeat first
      | with_reducible rfl
      | assumption
      | (simp only [apply_ite State.root, ite_self, root_mk, root_fold, foldl_root, implies_true, State.farReturns_root,
          State.dropFwd_root, State.atomicReturns_root]; done)
      | simp only [apply_ite State.root, ite_self, root_mk, root_fold, foldl_root, implies_true, State.farReturns_root,
          State.dropFwd_root, State.atomicReturns_root]

@[simp] theorem State.fwdFails_root (s : State) (f : Fwd) : (State.fwdFails s f).root = s.root := by
  unfold State.fwdFails; dsimp only; (repeat' split) <;>
    repeat first
      | with_reducible rfl
      | assumption
      | (simp only [apply_ite State.root, ite_self, root_mk, root_fold, foldl_root, implies_true, State.dropFwd_root,
          State.loadReturns_root, State.farFails_root, State.atomicReturns_root, State.settleFires_root]; done)
      | simp only [apply_ite State.root, ite_self, root_mk, root_fold, foldl_root, implies_true, State.dropFwd_root,
          State.loadReturns_root, State.farFails_root, State.atomicReturns_root, State.settleFires_root]

@[simp] theorem State.goneArrive_root (s : State) (pk : Packet) : (State.goneArrive s pk).root = s.root := by
  unfold State.goneArrive; dsimp only; (repeat' split) <;>
    repeat first
      | with_reducible rfl
      | assumption
      | (simp only [apply_ite State.root, ite_self, root_mk, root_fold, foldl_root, implies_true, State.countRevoked_root,
          State.onCtx_root, State.fwdFails_root, State.env_root]; done)
      | simp only [apply_ite State.root, ite_self, root_mk, root_fold, foldl_root, implies_true, State.countRevoked_root,
          State.onCtx_root, State.fwdFails_root, State.env_root]

@[simp] theorem State.invalidatingArrive_root (s : State) (pk : Packet) : (State.invalidatingArrive s pk).root = s.root := by
  unfold State.invalidatingArrive; dsimp only; (repeat' split) <;>
    repeat first
      | with_reducible rfl
      | assumption
      | (simp only [apply_ite State.root, ite_self, root_mk, root_fold, foldl_root, implies_true]; done)
      | simp only [apply_ite State.root, ite_self, root_mk, root_fold, foldl_root, implies_true]

@[simp] theorem State.allGoneArrive_root (s : State) (pk : Packet) : (State.allGoneArrive s pk).root = s.root := by
  unfold State.allGoneArrive; simp only [apply_ite State.root, ite_self, root_mk, root_fold, foldl_root, implies_true,
      State.settleFires_root]

@[simp] theorem State.wrackArrive_root (s : State) (pk : Packet) : (State.wrackArrive s pk).root = s.root := by
  unfold State.wrackArrive; (repeat' split) <;> simp_all [apply_ite State.root, ite_self, root_mk, root_fold, foldl_root,
      implies_true, State.settleFires_root, State.dropFwd_root]

@[simp] theorem State.countBad_root (s : State) : (State.countBad s).root = s.root := by
  unfold State.countBad; simp only [apply_ite State.root, ite_self, root_mk, root_fold, foldl_root, implies_true]

@[simp] theorem State.relay_root (s : State) (pk : Packet) : (State.relay s pk).root = s.root := by
  unfold State.relay; simp only [apply_ite State.root, ite_self, root_mk, root_fold, foldl_root, implies_true, State.post_root]

theorem onPacket_root (kind : ℕ) (hdr : BitVec 512) (payload : List Byte) (s : State) (f : State → Packet → State) (hf : ∀ x0 x1,
    (f x0 x1).root = x0.root) (o9 : State) (hr : onPacket kind hdr payload s f = .next o9) : o9.root = s.root := by
  unfold onPacket at hr; grind -lia -ring -linarith -order -ac [State.root, Effect.Keeps, CmdEnd.Keeps, ofChk, Got.then,
      foldl_root, State.countBad_root, State.relay_root]

theorem execRdreq_root (hdr : BitVec 512) (payload : List Byte) (s o9 : State) (hr : execRdreq hdr payload s = .next o9) :
    o9.root = s.root := by
  unfold execRdreq at hr; (repeat' split at hr) <;> (try cases hr) <;>
    repeat first
      | with_reducible rfl
      | assumption
      | (simp only [apply_ite State.root, ite_self, root_mk, root_fold, foldl_root, implies_true, State.rdreqArrive_root]; done)
      | rw [onPacket_root (hr := by assumption)]
      | simp only [apply_ite State.root, ite_self, root_mk, root_fold, foldl_root, implies_true, State.rdreqArrive_root]

theorem execRdrsp_root (hdr : BitVec 512) (payload : List Byte) (s o9 : State) (hr : execRdrsp hdr payload s = .next o9) :
    o9.root = s.root := by
  unfold execRdrsp at hr; (repeat' split at hr) <;> (try cases hr) <;>
    repeat first
      | with_reducible rfl
      | assumption
      | (simp only [apply_ite State.root, ite_self, root_mk, root_fold, foldl_root, implies_true, State.rdrspArrive_root]; done)
      | rw [onPacket_root (hr := by assumption)]
      | simp only [apply_ite State.root, ite_self, root_mk, root_fold, foldl_root, implies_true, State.rdrspArrive_root]

theorem execWrreq_root (hdr : BitVec 512) (payload : List Byte) (s o9 : State) (hr : execWrreq hdr payload s = .next o9) :
    o9.root = s.root := by
  unfold execWrreq at hr; (repeat' split at hr) <;> (try cases hr) <;>
    repeat first
      | with_reducible rfl
      | assumption
      | (simp only [apply_ite State.root, ite_self, root_mk, root_fold, foldl_root, implies_true, State.wrreqArrive_root]; done)
      | rw [onPacket_root (hr := by assumption)]
      | simp only [apply_ite State.root, ite_self, root_mk, root_fold, foldl_root, implies_true, State.wrreqArrive_root]

theorem execAtreq_root (hdr : BitVec 512) (payload : List Byte) (s o9 : State) (hr : execAtreq hdr payload s = .next o9) :
    o9.root = s.root := by
  unfold execAtreq at hr; (repeat' split at hr) <;> (try cases hr) <;>
    repeat first
      | with_reducible rfl
      | assumption
      | (simp only [apply_ite State.root, ite_self, root_mk, root_fold, foldl_root, implies_true, State.atreqArrive_root]; done)
      | rw [onPacket_root (hr := by assumption)]
      | simp only [apply_ite State.root, ite_self, root_mk, root_fold, foldl_root, implies_true, State.atreqArrive_root]

theorem execAtrsp_root (hdr : BitVec 512) (payload : List Byte) (s o9 : State) (hr : execAtrsp hdr payload s = .next o9) :
    o9.root = s.root := by
  unfold execAtrsp at hr; (repeat' split at hr) <;> (try cases hr) <;>
    repeat first
      | with_reducible rfl
      | assumption
      | (simp only [apply_ite State.root, ite_self, root_mk, root_fold, foldl_root, implies_true, State.atrspArrive_root]; done)
      | rw [onPacket_root (hr := by assumption)]
      | simp only [apply_ite State.root, ite_self, root_mk, root_fold, foldl_root, implies_true, State.atrspArrive_root]

theorem execWrack_root (hdr : BitVec 512) (payload : List Byte) (s o9 : State) (hr : execWrack hdr payload s = .next o9) :
    o9.root = s.root := by
  unfold execWrack at hr; (repeat' split at hr) <;> (try cases hr) <;>
    repeat first
      | with_reducible rfl
      | assumption
      | (simp only [apply_ite State.root, ite_self, root_mk, root_fold, foldl_root, implies_true, State.wrackArrive_root]; done)
      | rw [onPacket_root (hr := by assumption)]
      | simp only [apply_ite State.root, ite_self, root_mk, root_fold, foldl_root, implies_true, State.wrackArrive_root]

theorem execFire_root (hdr : BitVec 512) (payload : List Byte) (s o9 : State) (hr : execFire hdr payload s = .next o9) : o9.root
    = s.root := by
  unfold execFire at hr; (repeat' split at hr) <;> (try cases hr) <;>
    repeat first
      | with_reducible rfl
      | assumption
      | (simp only [apply_ite State.root, ite_self, root_mk, root_fold, foldl_root, implies_true, State.fireArrive_root]; done)
      | rw [onPacket_root (hr := by assumption)]
      | simp only [apply_ite State.root, ite_self, root_mk, root_fold, foldl_root, implies_true, State.fireArrive_root]

theorem execFack_root (hdr : BitVec 512) (payload : List Byte) (s o9 : State) (hr : execFack hdr payload s = .next o9) : o9.root
    = s.root := by
  unfold execFack at hr; (repeat' split at hr) <;> (try cases hr) <;>
    repeat first
      | with_reducible rfl
      | assumption
      | (simp only [apply_ite State.root, ite_self, root_mk, root_fold, foldl_root, implies_true, State.fackArrive_root]; done)
      | rw [onPacket_root (hr := by assumption)]
      | simp only [apply_ite State.root, ite_self, root_mk, root_fold, foldl_root, implies_true, State.fackArrive_root]

@[simp] theorem State.envFwd_root (s : State) (f : Fwd) (failed : Bool) : (State.envFwd s f failed).root = s.root := by
  unfold State.envFwd; simp only [apply_ite State.root, ite_self, root_mk, root_fold, foldl_root, implies_true, State.env_root]

theorem execForwardResend_root (tag : BitVec 32) (s o9 : State) (hr : execForwardResend tag s = .next o9) : o9.root = s.root := by
  unfold execForwardResend at hr; (repeat' split at hr) <;> (try cases hr) <;>
    repeat first
      | with_reducible rfl
      | assumption
      | (simp only [apply_ite State.root, ite_self, root_mk, root_fold, foldl_root, implies_true, State.trySend_root,
          State.onFwd_root, State.envFwd_root]; done)
      | simp only [apply_ite State.root, ite_self, root_mk, root_fold, foldl_root, implies_true, State.trySend_root,
          State.onFwd_root, State.envFwd_root]

@[simp] theorem State.logError_root (s : State) (addr unit_ : ℕ) : (State.logError s addr unit_).root = s.root := by
  unfold State.logError; simp only [apply_ite State.root, ite_self, root_mk, root_fold, foldl_root, implies_true]

theorem execForwardFailure_root (tag : BitVec 32) (s o9 : State) (hr : execForwardFailure tag s = .next o9) : o9.root = s.root :=
    by
  unfold execForwardFailure at hr; (repeat' split at hr) <;> (try cases hr) <;>
    repeat first
      | with_reducible rfl
      | assumption
      | (simp only [apply_ite State.root, ite_self, root_mk, root_fold, foldl_root, implies_true, State.envFwd_root,
          State.fwdFails_root, State.event_root, State.logError_root]; done)
      | simp only [apply_ite State.root, ite_self, root_mk, root_fold, foldl_root, implies_true, State.envFwd_root,
          State.fwdFails_root, State.event_root, State.logError_root]

theorem execHomeRecordExpiry_root (smod : BitVec 10) (tag : BitVec 32) (s o9 : State) (hr : execHomeRecordExpiry smod tag s =
    .next o9) : o9.root = s.root := by
  unfold execHomeRecordExpiry at hr; (repeat' split at hr) <;> (try cases hr) <;>
    repeat first
      | with_reducible rfl
      | assumption
      | (simp only [apply_ite State.root, ite_self, root_mk, root_fold, foldl_root, implies_true]; done)
      | simp only [apply_ite State.root, ite_self, root_mk, root_fold, foldl_root, implies_true]

@[simp] theorem State.chargeHbm_root (s : State) (ctx : ℕ) : (State.chargeHbm s ctx).root = s.root := by
  unfold State.chargeHbm; dsimp only; (repeat' split) <;>
    repeat first
      | with_reducible rfl
      | assumption
      | (simp only [apply_ite State.root, ite_self, root_mk, root_fold, foldl_root, implies_true, State.hbmPutVal_root,
          State.onCtx_root]; done)
      | simp only [apply_ite State.root, ite_self, root_mk, root_fold, foldl_root, implies_true, State.hbmPutVal_root,
          State.onCtx_root]

@[simp] theorem State.pageCtr_root (s : State) (ctr : ℕ) : (State.pageCtr s ctr).root = s.root := by
  unfold State.pageCtr; simp only [apply_ite State.root, ite_self, root_mk, root_fold, foldl_root, implies_true,
      State.addCtrOpt_root]

@[simp] theorem State.envPage_root (s : State) (ctx va op status : ℕ) : (State.envPage s ctx va op status).root = s.root := by
  unfold State.envPage; simp only [apply_ite State.root, ite_self, root_mk, root_fold, foldl_root, implies_true, State.env_root]

@[simp] theorem State.pageDone_root (s : State) (o : PageOp) (status : ℕ) : (State.pageDone s o status).root = s.root := by
  unfold State.pageDone; simp only [apply_ite State.root, ite_self, root_mk, root_fold, foldl_root, implies_true,
      State.pageCtr_root, State.envPage_root, State.cmdDone_root]

theorem pageCommand_root (op cmd : ℕ) (s : State) (act : PCmd → State → CmdEnd) (hact : ∀ x0 x1,
    (act x0 x1).Keeps x1.root) (o9 : State) (hr : pageCommand op cmd s act = .next o9) : o9.root = s.root := by
  unfold pageCommand at hr; grind -lia -ring -linarith -order -ac [State.root, Effect.Keeps, CmdEnd.Keeps, ofChk, Got.then,
      foldl_root, State.notify_root, State.pageCtr_root, State.envPage_root, State.chargeHbm_root, command_root]

@[simp] theorem State.dropPage_root (s : State) (ctx va : ℕ) (e : PEntry) : (State.dropPage s ctx va e).root = s.root := by
  unfold State.dropPage; simp only [apply_ite State.root, ite_self, root_mk, root_fold, foldl_root, implies_true,
      State.dropHandles_root]

@[simp] theorem State.zeroAcc_root (s : State) (ctx : ℕ) (e : PEntry) : (State.zeroAcc s ctx e).root = s.root := by
  unfold State.zeroAcc; simp only [apply_ite State.root, ite_self, root_mk, root_fold, foldl_root, implies_true,
      State.onCtx_root, State.hbmPutVal_root]

@[simp] theorem State.performAllHeld_root (s : State) (ctx va size : ℕ) : (State.performAllHeld s ctx va size).root = s.root := by
  unfold State.performAllHeld; simp only [apply_ite State.root, ite_self, root_mk, root_fold, foldl_root, implies_true,
      State.performWrite_root]

@[simp] theorem State.pageSettled_root (s : State) : (State.pageSettled s).root = s.root := by
  unfold State.pageSettled; simp only [apply_ite State.root, ite_self, root_mk, root_fold, foldl_root, implies_true,
      State.settleFires_root, State.retryWaiting_root, State.resolveIntervals_root]

@[simp] theorem State.beginOp_root (s : State) (o : PageOp) : (State.beginOp s o).root = s.root := by
  unfold State.beginOp; simp only [apply_ite State.root, ite_self, root_mk, root_fold, foldl_root, implies_true]

theorem execMigrate_root (cmd : BitVec 52) (s o9 : State) (hr : execMigrate cmd s = .next o9) : o9.root = s.root := by
  unfold execMigrate at hr; refine pageCommand_root (hr := hr) (hact := fun _ _ => ?_) ..; all_goals
    repeat' first
      | exact keeps_trap _ _ _ _
      | exact keeps_wait _
      | assumption
      | (refine ofChk_keeps _ _ _ fun _ => ?_)
      | (refine then_keeps _ _ _ fun _ _ _ => ?_)
      | (simp only [ckeeps_done, ckeeps_later, keeps_done, keeps_branch, keeps_waitWith, keeps_trapWith, apply_ite State.root,
          ite_self, root_mk, root_fold, foldl_root, implies_true, State.chargeHbm_root, State.beginOp_root,
          State.setPageSt_root]; done)
      | (rw [pageCommand_root (hr := by assumption)]; with_reducible rfl)
      | split
      | simp only [ckeeps_done, ckeeps_later, keeps_done, keeps_branch, keeps_waitWith, keeps_trapWith, apply_ite State.root,
          ite_self, root_mk, root_fold, foldl_root, implies_true, State.chargeHbm_root, State.beginOp_root, State.setPageSt_root]
      | rw [pageCommand_root (hr := by assumption)]
      | split
      | intro _
      | dsimp only

@[simp] theorem State.returnFrame_root (s : State) (ctx va : ℕ) : (State.returnFrame s ctx va).root = s.root := by
  unfold State.returnFrame; dsimp only; (repeat' split) <;>
    repeat first
      | with_reducible rfl
      | assumption
      | (simp only [apply_ite State.root, ite_self, root_mk, root_fold, foldl_root, implies_true, State.ctrl_root]; done)
      | simp only [apply_ite State.root, ite_self, root_mk, root_fold, foldl_root, implies_true, State.ctrl_root]

@[simp] theorem State.switchPage_root (s : State) (o : PageOp) (e : PEntry) (data : List Byte) : (State.switchPage s o e
    data).root = s.root := by
  unfold State.switchPage; simp only [apply_ite State.root, ite_self, root_mk, root_fold, foldl_root, implies_true,
      State.hostPut_root, State.hbmPut_root, State.putW0_root]

theorem execMigrationCopyDone_root (cmd : BitVec 52) (s o9 : State) (hr : execMigrationCopyDone cmd s = .next o9) : o9.root =
    s.root := by
  unfold execMigrationCopyDone at hr; dsimp only at hr; (repeat' split at hr) <;> (try cases hr) <;>
    repeat first
      | with_reducible rfl
      | assumption
      | (simp only [apply_ite State.root, ite_self, root_mk, root_fold, foldl_root, implies_true, State.gather_root,
          State.switchPage_root, State.moveObjs_root, State.returnFrame_root, State.dropPage_root, State.performAllHeld_root,
          State.pageSettled_root, State.pageDone_root, State.chargeHbm_root, State.dropLines_root, State.zeroAcc_root]; done)
      | simp only [apply_ite State.root, ite_self, root_mk, root_fold, foldl_root, implies_true, State.gather_root,
          State.switchPage_root, State.moveObjs_root, State.returnFrame_root, State.dropPage_root, State.performAllHeld_root,
          State.pageSettled_root, State.pageDone_root, State.chargeHbm_root, State.dropLines_root, State.zeroAcc_root]

theorem execHold_root (cmd : BitVec 52) (s o9 : State) (hr : execHold cmd s = .next o9) : o9.root = s.root := by
  unfold execHold at hr; refine pageCommand_root (hr := hr) (hact := fun _ _ => ?_) ..; all_goals
    repeat' first
      | exact keeps_trap _ _ _ _
      | exact keeps_wait _
      | assumption
      | (refine ofChk_keeps _ _ _ fun _ => ?_)
      | (refine then_keeps _ _ _ fun _ _ _ => ?_)
      | (simp only [ckeeps_done, ckeeps_later, keeps_done, keeps_branch, keeps_waitWith, keeps_trapWith, apply_ite State.root,
          ite_self, root_mk, root_fold, foldl_root, implies_true, State.setPageSt_root]; done)
      | (rw [pageCommand_root (hr := by assumption)]; with_reducible rfl)
      | split
      | simp only [ckeeps_done, ckeeps_later, keeps_done, keeps_branch, keeps_waitWith, keeps_trapWith, apply_ite State.root,
          ite_self, root_mk, root_fold, foldl_root, implies_true, State.setPageSt_root]
      | rw [pageCommand_root (hr := by assumption)]
      | split
      | intro _
      | dsimp only

@[simp] theorem State.release_root (s : State) (ctx va : ℕ) (e : PEntry) (frame : ℕ) : (State.release s ctx va e frame).root =
    s.root := by
  unfold State.release; simp only [apply_ite State.root, ite_self, root_mk, root_fold, foldl_root, implies_true,
      State.putW0_root, State.performAllHeld_root]

theorem execUnhold_root (cmd : BitVec 52) (s o9 : State) (hr : execUnhold cmd s = .next o9) : o9.root = s.root := by
  unfold execUnhold at hr; refine pageCommand_root (hr := hr) (hact := fun _ _ => ?_) ..; all_goals
    repeat' first
      | exact keeps_trap _ _ _ _
      | exact keeps_wait _
      | assumption
      | (refine ofChk_keeps _ _ _ fun _ => ?_)
      | (refine then_keeps _ _ _ fun _ _ _ => ?_)
      | (simp only [ckeeps_done, ckeeps_later, keeps_done, keeps_branch, keeps_waitWith, keeps_trapWith, apply_ite State.root,
          ite_self, root_mk, root_fold, foldl_root, implies_true, State.swapObjs_root, State.pageSettled_root,
          State.dropPage_root, State.release_root]; done)
      | (rw [pageCommand_root (hr := by assumption)]; with_reducible rfl)
      | split
      | simp only [ckeeps_done, ckeeps_later, keeps_done, keeps_branch, keeps_waitWith, keeps_trapWith, apply_ite State.root,
          ite_self, root_mk, root_fold, foldl_root, implies_true, State.swapObjs_root, State.pageSettled_root,
          State.dropPage_root, State.release_root]
      | rw [pageCommand_root (hr := by assumption)]
      | split
      | intro _
      | dsimp only

@[simp] theorem State.dropReplica_root (s : State) (ctx va : ℕ) : (State.dropReplica s ctx va).root = s.root := by
  unfold State.dropReplica; dsimp only; (repeat' split) <;>
    repeat first
      | with_reducible rfl
      | assumption
      | (simp only [apply_ite State.root, ite_self, root_mk, root_fold, foldl_root, implies_true, State.ctrl_root]; done)
      | simp only [apply_ite State.root, ite_self, root_mk, root_fold, foldl_root, implies_true, State.ctrl_root]

@[simp] theorem State.unmapPage_root (s : State) (ctx va : ℕ) (e : PEntry) : (State.unmapPage s ctx va e).root = s.root := by
  unfold State.unmapPage; simp only [apply_ite State.root, ite_self, root_mk, root_fold, foldl_root, implies_true,
      State.returnFrame_root, State.dropPage_root, State.setPageSt_root, State.dropReplica_root]

theorem execUnmap_root (cmd : BitVec 52) (s o9 : State) (hr : execUnmap cmd s = .next o9) : o9.root = s.root := by
  unfold execUnmap at hr; refine pageCommand_root (hr := hr) (hact := fun _ _ => ?_) ..; all_goals
    repeat' first
      | exact keeps_trap _ _ _ _
      | exact keeps_wait _
      | assumption
      | (refine ofChk_keeps _ _ _ fun _ => ?_)
      | (refine then_keeps _ _ _ fun _ _ _ => ?_)
      | (simp only [ckeeps_done, ckeeps_later, keeps_done, keeps_branch, keeps_waitWith, keeps_trapWith, apply_ite State.root,
          ite_self, root_mk, root_fold, foldl_root, implies_true, State.unmapPage_root]; done)
      | (rw [pageCommand_root (hr := by assumption)]; with_reducible rfl)
      | split
      | simp only [ckeeps_done, ckeeps_later, keeps_done, keeps_branch, keeps_waitWith, keeps_trapWith, apply_ite State.root,
          ite_self, root_mk, root_fold, foldl_root, implies_true, State.unmapPage_root]
      | rw [pageCommand_root (hr := by assumption)]
      | split
      | intro _
      | dsimp only

theorem execZerocnt_root (cmd : BitVec 52) (s o9 : State) (hr : execZerocnt cmd s = .next o9) : o9.root = s.root := by
  unfold execZerocnt at hr; refine pageCommand_root (hr := hr) (hact := fun _ _ => ?_) ..; all_goals
    repeat' first
      | exact keeps_trap _ _ _ _
      | exact keeps_wait _
      | assumption
      | (refine ofChk_keeps _ _ _ fun _ => ?_)
      | (refine then_keeps _ _ _ fun _ _ _ => ?_)
      | (simp only [ckeeps_done, ckeeps_later, keeps_done, keeps_branch, keeps_waitWith, keeps_trapWith, apply_ite State.root,
          ite_self, root_mk, root_fold, foldl_root, implies_true, State.zeroAcc_root]; done)
      | (rw [pageCommand_root (hr := by assumption)]; with_reducible rfl)
      | split
      | simp only [ckeeps_done, ckeeps_later, keeps_done, keeps_branch, keeps_waitWith, keeps_trapWith, apply_ite State.root,
          ite_self, root_mk, root_fold, foldl_root, implies_true, State.zeroAcc_root]
      | rw [pageCommand_root (hr := by assumption)]
      | split
      | intro _
      | dsimp only

theorem execAccWriteback_root (ctx : BitVec 8) (entry : BitVec 52) (s o9 : State) (hr : execAccWriteback ctx entry s = .next o9)
    : o9.root = s.root := by
  unfold execAccWriteback at hr; (repeat' split at hr) <;> (try cases hr) <;>
    repeat first
      | with_reducible rfl
      | assumption
      | (simp only [apply_ite State.root, ite_self, root_mk, root_fold, foldl_root, implies_true, State.onCtx_root,
          State.hbmPutVal_root]; done)
      | simp only [apply_ite State.root, ite_self, root_mk, root_fold, foldl_root, implies_true, State.onCtx_root,
          State.hbmPutVal_root]

@[simp] theorem State.askOwner_root (s : State) (o : PageOp) (pa : ℕ) : (State.askOwner s o pa).root = s.root := by
  unfold State.askOwner; simp only [apply_ite State.root, ite_self, root_mk, root_fold, foldl_root, implies_true, State.ctrl_root]

theorem execDuplicate_root (cmd : BitVec 52) (s o9 : State) (hr : execDuplicate cmd s = .next o9) : o9.root = s.root := by
  unfold execDuplicate at hr; refine pageCommand_root (hr := hr) (hact := fun _ _ => ?_) ..; all_goals
    repeat' first
      | exact keeps_trap _ _ _ _
      | exact keeps_wait _
      | assumption
      | (refine ofChk_keeps _ _ _ fun _ => ?_)
      | (refine then_keeps _ _ _ fun _ _ _ => ?_)
      | (simp only [ckeeps_done, ckeeps_later, keeps_done, keeps_branch, keeps_waitWith, keeps_trapWith, apply_ite State.root,
          ite_self, root_mk, root_fold, foldl_root, implies_true, State.askOwner_root, State.beginOp_root]; done)
      | (rw [pageCommand_root (hr := by assumption)]; with_reducible rfl)
      | split
      | simp only [ckeeps_done, ckeeps_later, keeps_done, keeps_branch, keeps_waitWith, keeps_trapWith, apply_ite State.root,
          ite_self, root_mk, root_fold, foldl_root, implies_true, State.askOwner_root, State.beginOp_root]
      | rw [pageCommand_root (hr := by assumption)]
      | split
      | intro _
      | dsimp only

@[simp] theorem State.putHolders_root (s : State) (h : PageHold) : (State.putHolders s h).root = s.root := by
  unfold State.putHolders; simp only [apply_ite State.root, ite_self, root_mk, root_fold, foldl_root, implies_true]

@[simp] theorem State.registerArrive_root (s : State) (pk : Packet) : (State.registerArrive s pk).root = s.root := by
  unfold State.registerArrive; dsimp only; (repeat' split) <;>
    repeat first
      | with_reducible rfl
      | assumption
      | (simp only [apply_ite State.root, ite_self, root_mk, root_fold, foldl_root, implies_true, State.ctrl_root,
          State.setPageSt_root, State.putHolders_root]; done)
      | simp only [apply_ite State.root, ite_self, root_mk, root_fold, foldl_root, implies_true, State.ctrl_root,
          State.setPageSt_root, State.putHolders_root]

@[simp] theorem State.onOp_root (s : State) (cmd : ℕ) (f : PageOp → PageOp) : (State.onOp s cmd f).root = s.root := by
  unfold State.onOp; simp only [apply_ite State.root, ite_self, root_mk, root_fold, foldl_root, implies_true]

@[simp] theorem State.registeredArrive_root (s : State) (pk : Packet) : (State.registeredArrive s pk).root = s.root := by
  unfold State.registeredArrive; (repeat' split) <;> simp_all [apply_ite State.root, ite_self, root_mk, root_fold, foldl_root,
      implies_true, State.pageDone_root, State.onOp_root]

theorem execDuplicateCopyDone_root (cmd : BitVec 52) (s o9 : State) (hr : execDuplicateCopyDone cmd s = .next o9) : o9.root =
    s.root := by
  unfold execDuplicateCopyDone at hr; grind -lia -ring -linarith -order -ac [State.root, Effect.Keeps, CmdEnd.Keeps, ofChk,
      Got.then, foldl_root, State.gather_root, State.hbmPut_root, State.putW1_root, State.putW0_root, State.pageDone_root,
      State.dropLines_root]

@[simp] theorem State.invalidateArrive_root (s : State) (pk : Packet) : (State.invalidateArrive s pk).root = s.root := by
  unfold State.invalidateArrive; grind -lia -ring -linarith -order -ac [State.root, Effect.Keeps, CmdEnd.Keeps, ofChk, Got.then,
      foldl_root, State.ctrl_root, State.dropPage_root, State.putW1_root, State.putW0_root, State.notify_root,
      State.dropLines_root, State.onOp_root, State.askOwner_root]

@[simp] theorem State.invalidatedArrive_root (s : State) (pk : Packet) : (State.invalidatedArrive s pk).root = s.root := by
  unfold State.invalidatedArrive; dsimp only; (repeat' split) <;>
    repeat first
      | with_reducible rfl
      | assumption
      | (simp only [apply_ite State.root, ite_self, root_mk, root_fold, foldl_root, implies_true, State.setPageSt_root,
          State.putHolders_root, State.settleFires_root, State.post_root]; done)
      | simp only [apply_ite State.root, ite_self, root_mk, root_fold, foldl_root, implies_true, State.setPageSt_root,
          State.putHolders_root, State.settleFires_root, State.post_root]

theorem execLend_root (cmd : BitVec 52) (s o9 : State) (hr : execLend cmd s = .next o9) : o9.root = s.root := by
  unfold execLend at hr; refine pageCommand_root (hr := hr) (hact := fun _ _ => ?_) ..; all_goals
    repeat' first
      | exact keeps_trap _ _ _ _
      | exact keeps_wait _
      | assumption
      | (refine ofChk_keeps _ _ _ fun _ => ?_)
      | (refine then_keeps _ _ _ fun _ _ _ => ?_)
      | (simp only [ckeeps_done, ckeeps_later, keeps_done, keeps_branch, keeps_waitWith, keeps_trapWith, apply_ite State.root,
          ite_self, root_mk, root_fold, foldl_root, implies_true, State.dropPage_root, State.setPageSt_root]; done)
      | (rw [pageCommand_root (hr := by assumption)]; with_reducible rfl)
      | split
      | simp only [ckeeps_done, ckeeps_later, keeps_done, keeps_branch, keeps_waitWith, keeps_trapWith, apply_ite State.root,
          ite_self, root_mk, root_fold, foldl_root, implies_true, State.dropPage_root, State.setPageSt_root]
      | rw [pageCommand_root (hr := by assumption)]
      | split
      | intro _
      | dsimp only

theorem execBorrow_root (cmd : BitVec 52) (s o9 : State) (hr : execBorrow cmd s = .next o9) : o9.root = s.root := by
  unfold execBorrow at hr; refine pageCommand_root (hr := hr) (hact := fun _ _ => ?_) ..; all_goals
    repeat' first
      | exact keeps_trap _ _ _ _
      | exact keeps_wait _
      | assumption
      | (refine ofChk_keeps _ _ _ fun _ => ?_)
      | (refine then_keeps _ _ _ fun _ _ _ => ?_)
      | (simp only [ckeeps_done, ckeeps_later, keeps_done, keeps_branch, keeps_waitWith, keeps_trapWith, apply_ite State.root,
          ite_self, root_mk, root_fold, foldl_root, implies_true, State.ctrl_root, State.beginOp_root]; done)
      | (rw [pageCommand_root (hr := by assumption)]; with_reducible rfl)
      | split
      | simp only [ckeeps_done, ckeeps_later, keeps_done, keeps_branch, keeps_waitWith, keeps_trapWith, apply_ite State.root,
          ite_self, root_mk, root_fold, foldl_root, implies_true, State.ctrl_root, State.beginOp_root]
      | rw [pageCommand_root (hr := by assumption)]
      | split
      | intro _
      | dsimp only

@[simp] theorem State.onLeases_root (s : State) (f : List Lease → List Lease) : (State.onLeases s f).root = s.root := by
  unfold State.onLeases; simp only [apply_ite State.root, ite_self, root_mk, root_fold, foldl_root, implies_true]

@[simp] theorem State.borrowArrive_root (s : State) (pk : Packet) : (State.borrowArrive s pk).root = s.root := by
  unfold State.borrowArrive; dsimp only; (repeat' split) <;>
    repeat first
      | with_reducible rfl
      | assumption
      | (simp only [apply_ite State.root, ite_self, root_mk, root_fold, foldl_root, implies_true, State.ctrl_root,
          State.onLeases_root]; done)
      | simp only [apply_ite State.root, ite_self, root_mk, root_fold, foldl_root, implies_true, State.ctrl_root,
          State.onLeases_root]

@[simp] theorem State.grantArrive_root (s : State) (pk : Packet) : (State.grantArrive s pk).root = s.root := by
  unfold State.grantArrive; dsimp only; (repeat' split) <;>
    repeat first
      | with_reducible rfl
      | assumption
      | (simp only [apply_ite State.root, ite_self, root_mk, root_fold, foldl_root, implies_true, State.pageDone_root,
          State.putW0_root]; done)
      | simp only [apply_ite State.root, ite_self, root_mk, root_fold, foldl_root, implies_true, State.pageDone_root,
          State.putW0_root]

@[simp] theorem State.leaseLocal_root (s : State) (l : Lease) : (State.leaseLocal s l).root = s.root := by
  unfold State.leaseLocal; dsimp only; (repeat' split) <;>
    repeat first
      | with_reducible rfl
      | assumption
      | (simp only [apply_ite State.root, ite_self, root_mk, root_fold, foldl_root, implies_true, State.setPageSt_root]; done)
      | simp only [apply_ite State.root, ite_self, root_mk, root_fold, foldl_root, implies_true, State.setPageSt_root]

theorem execRevoke_root (cmd : BitVec 52) (s o9 : State) (hr : execRevoke cmd s = .next o9) : o9.root = s.root := by
  unfold execRevoke at hr; refine pageCommand_root (hr := hr) (hact := fun _ _ => ?_) ..; all_goals
    repeat' first
      | exact keeps_trap _ _ _ _
      | exact keeps_wait _
      | assumption
      | (refine ofChk_keeps _ _ _ fun _ => ?_)
      | (refine then_keeps _ _ _ fun _ _ _ => ?_)
      | (simp only [ckeeps_done, ckeeps_later, keeps_done, keeps_branch, keeps_waitWith, keeps_trapWith, apply_ite State.root,
          ite_self, root_mk, root_fold, foldl_root, implies_true, State.onLeases_root, State.leaseLocal_root,
          State.ctrl_root]; done)
      | (rw [pageCommand_root (hr := by assumption)]; with_reducible rfl)
      | split
      | simp only [ckeeps_done, ckeeps_later, keeps_done, keeps_branch, keeps_waitWith, keeps_trapWith, apply_ite State.root,
          ite_self, root_mk, root_fold, foldl_root, implies_true, State.onLeases_root, State.leaseLocal_root, State.ctrl_root]
      | rw [pageCommand_root (hr := by assumption)]
      | split
      | intro _
      | dsimp only

@[simp] theorem State.revokeArrive_root (s : State) (pk : Packet) : (State.revokeArrive s pk).root = s.root := by
  unfold State.revokeArrive; dsimp only; (repeat' split) <;>
    repeat first
      | with_reducible rfl
      | assumption
      | (simp only [apply_ite State.root, ite_self, root_mk, root_fold, foldl_root, implies_true, State.setPageSt_root,
          State.notify_root]; done)
      | simp only [apply_ite State.root, ite_self, root_mk, root_fold, foldl_root, implies_true, State.setPageSt_root,
          State.notify_root]

@[simp] theorem State.returnArrive_root (s : State) (pk : Packet) : (State.returnArrive s pk).root = s.root := by
  unfold State.returnArrive; simp only [apply_ite State.root, ite_self, root_mk, root_fold, foldl_root, implies_true,
      State.onLeases_root]

theorem execLeaseDeadline_root (ctx : BitVec 8) (va : BitVec 64) (s o9 : State) (hr : execLeaseDeadline ctx va s = .next o9) :
    o9.root = s.root := by
  unfold execLeaseDeadline at hr; dsimp only at hr; (repeat' split at hr) <;> (try cases hr) <;>
    repeat first
      | with_reducible rfl
      | assumption
      | (simp only [apply_ite State.root, ite_self, root_mk, root_fold, foldl_root, implies_true, State.chargeHbm_root,
          State.onLeases_root, State.leaseLocal_root, State.notify_root]; done)
      | simp only [apply_ite State.root, ite_self, root_mk, root_fold, foldl_root, implies_true, State.chargeHbm_root,
          State.onLeases_root, State.leaseLocal_root, State.notify_root]

@[simp] theorem State.ringArrive_root (s : State) (pk : Packet) : (State.ringArrive s pk).root = s.root := by
  unfold State.ringArrive; simp only [apply_ite State.root, ite_self, root_mk, root_fold, foldl_root, implies_true,
      State.onLeases_root]

@[simp] theorem State.portEvent_root (s : State) (n : ℕ) (st : PortSt) : (State.portEvent s n st).root = s.root := by
  unfold State.portEvent; simp only [apply_ite State.root, ite_self, root_mk, root_fold, foldl_root, implies_true,
      State.event_root]

@[simp] theorem State.rerouted_root (s0 s : State) : (State.rerouted s0 s).root = s.root := by
  unfold State.rerouted; simp only [apply_ite State.root, ite_self, root_mk, root_fold, foldl_root, implies_true,
      State.goOn_root, State.noteRoutes_root]

@[simp] theorem State.trainPort_root (s : State) (n : ℕ) : (State.trainPort s n).root = s.root := by
  unfold State.trainPort; dsimp only; (repeat' split) <;>
    repeat first
      | with_reducible rfl
      | assumption
      | (simp only [apply_ite State.root, ite_self, root_mk, root_fold, foldl_root, implies_true, State.rerouted_root,
          State.onPort_root, State.portEvent_root]; done)
      | simp only [apply_ite State.root, ite_self, root_mk, root_fold, foldl_root, implies_true, State.rerouted_root,
          State.onPort_root, State.portEvent_root]

@[simp] theorem State.replayPort_root (s : State) (port n : ℕ) : (State.replayPort s port n).root = s.root := by
  unfold State.replayPort; simp only [apply_ite State.root, ite_self, root_mk, root_fold, foldl_root, implies_true,
      State.onPort_root, State.trainPort_root]

theorem execPortTrained_root (port lanes : ℕ) (s o9 : State) (hr : execPortTrained port lanes s = .next o9) : o9.root = s.root :=
    by
  unfold execPortTrained at hr; (repeat' split at hr) <;> (try cases hr) <;>
    repeat first
      | with_reducible rfl
      | assumption
      | (simp only [apply_ite State.root, ite_self, root_mk, root_fold, foldl_root, implies_true, State.rerouted_root,
          State.onPort_root, State.portEvent_root]; done)
      | simp only [apply_ite State.root, ite_self, root_mk, root_fold, foldl_root, implies_true, State.rerouted_root,
          State.onPort_root, State.portEvent_root]

theorem execTrainingTimeout_root (port : ℕ) (s o9 : State) (hr : execTrainingTimeout port s = .next o9) : o9.root = s.root := by
  unfold execTrainingTimeout at hr; (repeat' split at hr) <;> (try cases hr) <;>
    repeat first
      | with_reducible rfl
      | assumption
      | (simp only [apply_ite State.root, ite_self, root_mk, root_fold, foldl_root, implies_true, State.portEvent_root,
          State.onPort_root]; done)
      | simp only [apply_ite State.root, ite_self, root_mk, root_fold, foldl_root, implies_true, State.portEvent_root,
          State.onPort_root]

theorem execTrainingRetry_root (port : ℕ) (s o9 : State) (hr : execTrainingRetry port s = .next o9) : o9.root = s.root := by
  unfold execTrainingRetry at hr; (repeat' split at hr) <;> (try cases hr) <;>
    repeat first
      | with_reducible rfl
      | assumption
      | (simp only [apply_ite State.root, ite_self, root_mk, root_fold, foldl_root, implies_true, State.trainPort_root]; done)
      | simp only [apply_ite State.root, ite_self, root_mk, root_fold, foldl_root, implies_true, State.trainPort_root]

theorem execLaneFailure_root (port : ℕ) (s o9 : State) (hr : execLaneFailure port s = .next o9) : o9.root = s.root := by
  unfold execLaneFailure at hr; (repeat' split at hr) <;> (try cases hr) <;>
    repeat first
      | with_reducible rfl
      | assumption
      | (simp only [apply_ite State.root, ite_self, root_mk, root_fold, foldl_root, implies_true, State.trainPort_root]; done)
      | simp only [apply_ite State.root, ite_self, root_mk, root_fold, foldl_root, implies_true, State.trainPort_root]

theorem execFenceDrainTimeout_root (port : ℕ) (s o9 : State) (hr : execFenceDrainTimeout port s = .next o9) : o9.root = s.root :=
    by
  unfold execFenceDrainTimeout at hr; (repeat' split at hr) <;> (try cases hr) <;>
    repeat first
      | with_reducible rfl
      | assumption
      | (simp only [apply_ite State.root, ite_self, root_mk, root_fold, foldl_root, implies_true, State.onPort_root]; done)
      | simp only [apply_ite State.root, ite_self, root_mk, root_fold, foldl_root, implies_true, State.onPort_root]

@[simp] theorem State.discipline_root (s : State) (t : ℕ) (step : Bool) : (State.discipline s t step).root = s.root := by
  unfold State.discipline; simp only [apply_ite State.root, ite_self, root_mk, root_fold, foldl_root, implies_true,
      State.event_root]

@[simp] theorem State.sendTime_root (s : State) (root t : ℕ) : (State.sendTime s root t).root = s.root := by
  unfold State.sendTime
  refine foldl_root _ (fun u p => ?_) _ _
  cases e : u.sendOn p.num { mkPacket 10 0 anyModule root with value := BitVec.ofNat 64 t } with
  | none => rfl
  | some v => exact State.sendOn_root _ _ _ _ e

@[simp] theorem State.timeArrive_root (s : State) (pk : Packet) : (State.timeArrive s pk).root = s.root := by
  unfold State.timeArrive; simp only [apply_ite State.root, ite_self, root_mk, root_fold, foldl_root, implies_true,
      State.discipline_root, State.sendTime_root]

theorem execTime_root (hdr : BitVec 512) (payload : List Byte) (s o9 : State) (hr : execTime hdr payload s = .next o9) : o9.root
    = s.root := by
  unfold execTime at hr; (repeat' split at hr) <;> (try cases hr) <;>
    repeat first
      | with_reducible rfl
      | assumption
      | (simp only [apply_ite State.root, ite_self, root_mk, root_fold, foldl_root, implies_true, State.countBad_root,
          State.timeArrive_root]; done)
      | simp only [apply_ite State.root, ite_self, root_mk, root_fold, foldl_root, implies_true, State.countBad_root,
          State.timeArrive_root]

theorem execTimePacketSend_root (s o9 : State) (hr : execTimePacketSend s = .next o9) : o9.root = s.root := by
  unfold execTimePacketSend at hr; (repeat' split at hr) <;> (try cases hr) <;>
    repeat first
      | with_reducible rfl
      | assumption
      | (simp only [apply_ite State.root, ite_self, root_mk, root_fold, foldl_root, implies_true, State.sendTime_root]; done)
      | simp only [apply_ite State.root, ite_self, root_mk, root_fold, foldl_root, implies_true, State.sendTime_root]

theorem execHoldoverEntry_root (s o9 : State) (hr : execHoldoverEntry s = .next o9) : o9.root = s.root := by
  unfold execHoldoverEntry at hr; (repeat' split at hr) <;> (try cases hr) <;>
    repeat first
      | with_reducible rfl
      | assumption
      | (simp only [apply_ite State.root, ite_self, root_mk, root_fold, foldl_root, implies_true, State.event_root]; done)
      | simp only [apply_ite State.root, ite_self, root_mk, root_fold, foldl_root, implies_true, State.event_root]

theorem execSlewEnd_root (s o9 : State) (hr : execSlewEnd s = .next o9) : o9.root = s.root := by
  unfold execSlewEnd at hr; (repeat' split at hr) <;> (try cases hr) <;>
    repeat first
      | with_reducible rfl
      | assumption
      | (simp only [apply_ite State.root, ite_self, root_mk, root_fold, foldl_root, implies_true, State.event_root]; done)
      | simp only [apply_ite State.root, ite_self, root_mk, root_fold, foldl_root, implies_true, State.event_root]

theorem execPodTimeReached_root (s o9 : State) (hr : execPodTimeReached s = .next o9) : o9.root = s.root := by
  unfold execPodTimeReached at hr; dsimp only at hr; (repeat' split at hr) <;> (try cases hr) <;>
    repeat first
      | with_reducible rfl
      | assumption
      | (simp only [apply_ite State.root, ite_self, root_mk, root_fold, foldl_root, implies_true]; done)
      | rw [execTimealign_root (hr := by assumption)]
      | simp only [apply_ite State.root, ite_self, root_mk, root_fold, foldl_root, implies_true]

@[simp] theorem State.sendConnect_root (s : State) (q : QPair) : (State.sendConnect s q).root = s.root := by
  unfold State.sendConnect; simp only [apply_ite State.root, ite_self, root_mk, root_fold, foldl_root, implies_true,
      State.onQp_root, State.sendQp_root]

theorem execQpConnectRetry_root (qp : BitVec 12) (s o9 : State) (hr : execQpConnectRetry qp s = .next o9) : o9.root = s.root := by
  unfold execQpConnectRetry at hr; (repeat' split at hr) <;> (try cases hr) <;>
    repeat first
      | with_reducible rfl
      | assumption
      | (simp only [apply_ite State.root, ite_self, root_mk, root_fold, foldl_root, implies_true, State.sendConnect_root]; done)
      | simp only [apply_ite State.root, ite_self, root_mk, root_fold, foldl_root, implies_true, State.sendConnect_root]

@[simp] theorem State.connectQp_root (s : State) (n : ℕ) : (State.connectQp s n).root = s.root := by
  unfold State.connectQp; simp only [apply_ite State.root, ite_self, root_mk, root_fold, foldl_root, implies_true,
      State.onQp_root]

@[simp] theorem State.connectArrive_root (s : State) (pk : Packet) : (State.connectArrive s pk).root = s.root := by
  unfold State.connectArrive; dsimp only; (repeat' split) <;>
    repeat first
      | with_reducible rfl
      | assumption
      | (simp only [apply_ite State.root, ite_self, root_mk, root_fold, foldl_root, implies_true, State.sendQp_root,
          State.connectQp_root]; done)
      | simp only [apply_ite State.root, ite_self, root_mk, root_fold, foldl_root, implies_true, State.sendQp_root,
          State.connectQp_root]

@[simp] theorem State.acceptArrive_root (s : State) (pk : Packet) : (State.acceptArrive s pk).root = s.root := by
  unfold State.acceptArrive; (repeat' split) <;> simp_all [apply_ite State.root, ite_self, root_mk, root_fold, foldl_root,
      implies_true, State.connectQp_root]

@[simp] theorem State.closeArrive_root (s : State) (pk : Packet) : (State.closeArrive s pk).root = s.root := by
  unfold State.closeArrive; simp only [apply_ite State.root, ite_self, root_mk, root_fold, foldl_root, implies_true,
      State.onQp_root]

@[simp] theorem State.closeQp_root (s : State) (q : QPair) : (State.closeQp s q).root = s.root := by
  unfold State.closeQp; dsimp only; (repeat' split) <;>
    repeat first
      | with_reducible rfl
      | assumption
      | (simp only [apply_ite State.root, ite_self, root_mk, root_fold, foldl_root, implies_true, State.onQp_root,
          State.sendQp_root]; done)
      | simp only [apply_ite State.root, ite_self, root_mk, root_fold, foldl_root, implies_true, State.onQp_root,
          State.sendQp_root]

theorem execQpClosed_root (qp : BitVec 12) (s o9 : State) (hr : execQpClosed qp s = .next o9) : o9.root = s.root := by
  unfold execQpClosed at hr; (repeat' split at hr) <;> (try cases hr) <;>
    repeat first
      | with_reducible rfl
      | assumption
      | (simp only [apply_ite State.root, ite_self, root_mk, root_fold, foldl_root, implies_true, State.onQp_root]; done)
      | simp only [apply_ite State.root, ite_self, root_mk, root_fold, foldl_root, implies_true, State.onQp_root]

@[simp] theorem State.joinArrive_root (s : State) (pk : Packet) : (State.joinArrive s pk).root = s.root := by
  unfold State.joinArrive; dsimp only; (repeat' split) <;>
    repeat first
      | with_reducible rfl
      | assumption
      | (simp only [apply_ite State.root, ite_self, root_mk, root_fold, foldl_root, implies_true, State.barEval_root,
          State.ctrl_root, State.onBar_root]; done)
      | simp only [apply_ite State.root, ite_self, root_mk, root_fold, foldl_root, implies_true, State.barEval_root,
          State.ctrl_root, State.onBar_root]

@[simp] theorem State.joinedArrive_root (s : State) (pk : Packet) : (State.joinedArrive s pk).root = s.root := by
  unfold State.joinedArrive; simp only [apply_ite State.root, ite_self, root_mk, root_fold, foldl_root, implies_true,
      State.onBar_root, State.onJoin_root]

@[simp] theorem State.arrivalArrive_root (s : State) (pk : Packet) : (State.arrivalArrive s pk).root = s.root := by
  unfold State.arrivalArrive; (repeat' split) <;> simp_all [apply_ite State.root, ite_self, root_mk, root_fold, foldl_root,
      implies_true, State.barArrive_root]

@[simp] theorem State.brokenArrive_root (s : State) (ctx bar : ℕ) : (State.brokenArrive s ctx bar).root = s.root := by
  unfold State.brokenArrive; (repeat' split) <;> simp_all [apply_ite State.root, ite_self, root_mk, root_fold, foldl_root,
      implies_true, State.breakBar_root, State.tellBroken_root]

@[simp] theorem State.stampArrive_root (s : State) (pk : Packet) : (State.stampArrive s pk).root = s.root := by
  unfold State.stampArrive; dsimp only; (repeat' split) <;>
    repeat first
      | with_reducible rfl
      | assumption
      | (simp only [apply_ite State.root, ite_self, root_mk, root_fold, foldl_root, implies_true, State.barEval_root,
          State.onBar_root]; done)
      | simp only [apply_ite State.root, ite_self, root_mk, root_fold, foldl_root, implies_true, State.barEval_root,
          State.onBar_root]

@[simp] theorem State.ctrlArrive_root (s : State) (pk : Packet) : (State.ctrlArrive s pk).root = s.root := by
  unfold State.ctrlArrive; (repeat' split) <;> simp_all [apply_ite State.root, ite_self, root_mk, root_fold, foldl_root,
      implies_true, State.connectArrive_root, State.acceptArrive_root, State.closeArrive_root, State.invalidateArrive_root,
      State.invalidatedArrive_root, State.stampArrive_root, State.joinArrive_root, State.joinedArrive_root,
      State.arrivalArrive_root, State.localRelease_root, State.brokenArrive_root, State.borrowArrive_root,
      State.grantArrive_root, State.revokeArrive_root, State.returnArrive_root, State.registerArrive_root,
      State.registeredArrive_root, State.ringArrive_root, State.invalidatingArrive_root, State.allGoneArrive_root,
      State.sealArrive_root, State.settledArrive_root, State.askArrive_root, State.grantedArrive_root, State.letGoArrive_root,
      State.thawArrive_root, State.goneArrive_root]

theorem execCtrl_root (hdr : BitVec 512) (payload : List Byte) (s o9 : State) (hr : execCtrl hdr payload s = .next o9) : o9.root
    = s.root := by
  unfold execCtrl at hr; (repeat' split at hr) <;> (try cases hr) <;>
    repeat first
      | with_reducible rfl
      | assumption
      | (simp only [apply_ite State.root, ite_self, root_mk, root_fold, foldl_root, implies_true, State.ctrlArrive_root]; done)
      | rw [onPacket_root (hr := by assumption)]
      | simp only [apply_ite State.root, ite_self, root_mk, root_fold, foldl_root, implies_true, State.ctrlArrive_root]

@[simp] theorem State.receive_root (s : State) (pk : Packet) : (State.receive s pk).root = s.root := by
  unfold State.receive; (repeat' split) <;> simp_all [apply_ite State.root, ite_self, root_mk, root_fold, foldl_root,
      implies_true, State.rdreqArrive_root, State.rdrspArrive_root, State.wrreqArrive_root, State.atreqArrive_root,
      State.atrspArrive_root, State.wrackArrive_root, State.fireArrive_root, State.fackArrive_root, State.ctrlArrive_root,
      State.timeArrive_root]

@[simp] theorem State.received_root (s : State) (port : ℕ) (hdr : BitVec 512) (payload : List Byte) : (State.received s port hdr
    payload).root = s.root := by
  unfold State.received; (repeat' split) <;> simp_all [apply_ite State.root, ite_self, root_mk, root_fold, foldl_root,
      implies_true, State.onPort_root, State.receive_root, State.relay_root]

@[simp] theorem State.takeFlit_root (s : State) (p : Port) (flit : BitVec 512) : (State.takeFlit s p flit).root = s.root := by
  unfold State.takeFlit; simp only [apply_ite State.root, ite_self, root_mk, root_fold, foldl_root, implies_true,
      State.onPort_root, State.received_root]

@[simp] theorem State.reverse_root (s : State) (port : ℕ) (ack : BitVec 12) (again : Option (BitVec 12)) : (State.reverse s port
    ack again).root = s.root := by
  unfold State.reverse; dsimp only; (repeat' split) <;>
    repeat first
      | with_reducible rfl
      | assumption
      | (simp only [apply_ite State.root, ite_self, root_mk, root_fold, foldl_root, implies_true, State.onPort_root,
          State.goOn_root, State.replayPort_root]; done)
      | simp only [apply_ite State.root, ite_self, root_mk, root_fold, foldl_root, implies_true, State.onPort_root,
          State.goOn_root, State.replayPort_root]

theorem execFlitReceive_root (port : ℕ) (seq : BitVec 12) (crc : Bool) (ack : FlitAck) (flit :
    BitVec 512) (s o9 : State) (hr : execFlitReceive port seq crc ack flit s = .next o9) : o9.root = s.root := by
  unfold execFlitReceive at hr; dsimp only at hr; (repeat' split at hr) <;> (try cases hr) <;>
    repeat first
      | with_reducible rfl
      | assumption
      | (simp only [apply_ite State.root, ite_self, root_mk, root_fold, foldl_root, implies_true, State.onPort_root,
          State.reverse_root, State.takeFlit_root]; done)
      | simp only [apply_ite State.root, ite_self, root_mk, root_fold, foldl_root, implies_true, State.onPort_root,
          State.reverse_root, State.takeFlit_root]

theorem execEthResendTimeout_root (qp : BitVec 12) (s o9 : State) (hr : execEthResendTimeout qp s = .next o9) : o9.root = s.root
    := by
  unfold execEthResendTimeout at hr; (repeat' split at hr) <;> (try cases hr) <;>
    repeat first
      | with_reducible rfl
      | assumption
      | (simp only [apply_ite State.root, ite_self, root_mk, root_fold, foldl_root, implies_true, State.onQp_root]; done)
      | simp only [apply_ite State.root, ite_self, root_mk, root_fold, foldl_root, implies_true, State.onQp_root]

theorem execDatagramReceive_root (port : ℕ) (transport : BitVec 256) (hdr : BitVec 512) (payload : List Byte) (s o9 : State) (hr
    : execDatagramReceive port transport hdr payload s = .next o9) : o9.root = s.root := by
  unfold execDatagramReceive at hr; dsimp only at hr; (repeat' split at hr) <;> (try cases hr) <;>
    repeat first
      | with_reducible rfl
      | assumption
      | (simp only [apply_ite State.root, ite_self, root_mk, root_fold, foldl_root, implies_true, State.onPort_root,
          State.goOn_root, State.onQp_root, State.receive_root]; done)
      | simp only [apply_ite State.root, ite_self, root_mk, root_fold, foldl_root, implies_true, State.onPort_root,
          State.goOn_root, State.onQp_root, State.receive_root]

theorem linkCommand_root (op cmd : ℕ) (s : State) (act : LCmd → State → CmdEnd) (hact : ∀ x0 x1,
    (act x0 x1).Keeps x1.root) (o9 : State) (hr : linkCommand op cmd s act = .next o9) : o9.root = s.root := by
  unfold linkCommand at hr; grind -lia -ring -linarith -order -ac [State.root, Effect.Keeps, CmdEnd.Keeps, ofChk, Got.then,
      foldl_root, command_root]

theorem execQpopen_root (cmd : BitVec 52) (s o9 : State) (hr : execQpopen cmd s = .next o9) : o9.root = s.root := by
  unfold execQpopen at hr; refine linkCommand_root (hr := hr) (hact := fun _ _ => ?_) ..; all_goals
    repeat' first
      | exact keeps_trap _ _ _ _
      | exact keeps_wait _
      | assumption
      | (refine ofChk_keeps _ _ _ fun _ => ?_)
      | (refine then_keeps _ _ _ fun _ _ _ => ?_)
      | (simp only [ckeeps_done, ckeeps_later, keeps_done, keeps_branch, keeps_waitWith, keeps_trapWith, apply_ite State.root,
          ite_self, root_mk, root_fold, foldl_root, implies_true, State.sendConnect_root]; done)
      | (rw [linkCommand_root (hr := by assumption)]; with_reducible rfl)
      | split
      | simp only [ckeeps_done, ckeeps_later, keeps_done, keeps_branch, keeps_waitWith, keeps_trapWith, apply_ite State.root,
          ite_self, root_mk, root_fold, foldl_root, implies_true, State.sendConnect_root]
      | rw [linkCommand_root (hr := by assumption)]
      | split
      | intro _
      | dsimp only

theorem execQpclose_root (cmd : BitVec 52) (s o9 : State) (hr : execQpclose cmd s = .next o9) : o9.root = s.root := by
  unfold execQpclose at hr; refine linkCommand_root (hr := hr) (hact := fun _ _ => ?_) ..; all_goals
    repeat' first
      | exact keeps_trap _ _ _ _
      | exact keeps_wait _
      | assumption
      | (refine ofChk_keeps _ _ _ fun _ => ?_)
      | (refine then_keeps _ _ _ fun _ _ _ => ?_)
      | (simp only [ckeeps_done, ckeeps_later, keeps_done, keeps_branch, keeps_waitWith, keeps_trapWith, apply_ite State.root,
          ite_self, root_mk, root_fold, foldl_root, implies_true, State.closeQp_root]; done)
      | (rw [linkCommand_root (hr := by assumption)]; with_reducible rfl)
      | split
      | simp only [ckeeps_done, ckeeps_later, keeps_done, keeps_branch, keeps_waitWith, keeps_trapWith, apply_ite State.root,
          ite_self, root_mk, root_fold, foldl_root, implies_true, State.closeQp_root]
      | rw [linkCommand_root (hr := by assumption)]
      | split
      | intro _
      | dsimp only

theorem execQpread_root (cmd : BitVec 52) (s o9 : State) (hr : execQpread cmd s = .next o9) : o9.root = s.root := by
  unfold execQpread at hr; refine linkCommand_root (hr := hr) (hact := fun _ _ => ?_) ..; all_goals
    repeat' first
      | exact keeps_trap _ _ _ _
      | exact keeps_wait _
      | assumption
      | (refine ofChk_keeps _ _ _ fun _ => ?_)
      | (refine then_keeps _ _ _ fun _ _ _ => ?_)
      | (simp only [ckeeps_done, ckeeps_later, keeps_done, keeps_branch, keeps_waitWith, keeps_trapWith, apply_ite State.root,
          ite_self, root_mk, root_fold, foldl_root, implies_true]; done)
      | apply State.reportAt_root
      | (rw [linkCommand_root (hr := by assumption)]; with_reducible rfl)
      | (rw [← linkCommand_root (hr := by assumption)]; apply State.reportAt_root)
      | split
      | simp only [ckeeps_done, ckeeps_later, keeps_done, keeps_branch, keeps_waitWith, keeps_trapWith, apply_ite State.root,
          ite_self, root_mk, root_fold, foldl_root, implies_true]
      | rw [linkCommand_root (hr := by assumption)]
      | split
      | intro _
      | dsimp only

theorem execPortfence_root (cmd : BitVec 52) (s o9 : State) (hr : execPortfence cmd s = .next o9) : o9.root = s.root := by
  unfold execPortfence at hr; refine linkCommand_root (hr := hr) (hact := fun _ _ => ?_) ..; all_goals
    repeat' first
      | exact keeps_trap _ _ _ _
      | exact keeps_wait _
      | assumption
      | (refine ofChk_keeps _ _ _ fun _ => ?_)
      | (refine then_keeps _ _ _ fun _ _ _ => ?_)
      | (simp only [ckeeps_done, ckeeps_later, keeps_done, keeps_branch, keeps_waitWith, keeps_trapWith, apply_ite State.root,
          ite_self, root_mk, root_fold, foldl_root, implies_true, State.rerouted_root, State.onPort_root]; done)
      | (rw [linkCommand_root (hr := by assumption)]; with_reducible rfl)
      | split
      | simp only [ckeeps_done, ckeeps_later, keeps_done, keeps_branch, keeps_waitWith, keeps_trapWith, apply_ite State.root,
          ite_self, root_mk, root_fold, foldl_root, implies_true, State.rerouted_root, State.onPort_root]
      | rw [linkCommand_root (hr := by assumption)]
      | split
      | intro _
      | dsimp only

theorem execPortunfence_root (cmd : BitVec 52) (s o9 : State) (hr : execPortunfence cmd s = .next o9) : o9.root = s.root := by
  unfold execPortunfence at hr; refine linkCommand_root (hr := hr) (hact := fun _ _ => ?_) ..; all_goals
    repeat' first
      | exact keeps_trap _ _ _ _
      | exact keeps_wait _
      | assumption
      | (refine ofChk_keeps _ _ _ fun _ => ?_)
      | (refine then_keeps _ _ _ fun _ _ _ => ?_)
      | (simp only [ckeeps_done, ckeeps_later, keeps_done, keeps_branch, keeps_waitWith, keeps_trapWith, apply_ite State.root,
          ite_self, root_mk, root_fold, foldl_root, implies_true, State.trainPort_root]; done)
      | (rw [linkCommand_root (hr := by assumption)]; with_reducible rfl)
      | split
      | simp only [ckeeps_done, ckeeps_later, keeps_done, keeps_branch, keeps_waitWith, keeps_trapWith, apply_ite State.root,
          ite_self, root_mk, root_fold, foldl_root, implies_true, State.trainPort_root]
      | rw [linkCommand_root (hr := by assumption)]
      | split
      | intro _
      | dsimp only

theorem execRoute_root (cmd : BitVec 52) (s o9 : State) (hr : execRoute cmd s = .next o9) : o9.root = s.root := by
  unfold execRoute at hr; refine linkCommand_root (hr := hr) (hact := fun _ _ => ?_) ..; all_goals
    repeat' first
      | exact keeps_trap _ _ _ _
      | exact keeps_wait _
      | assumption
      | (refine ofChk_keeps _ _ _ fun _ => ?_)
      | (refine then_keeps _ _ _ fun _ _ _ => ?_)
      | (simp only [ckeeps_done, ckeeps_later, keeps_done, keeps_branch, keeps_waitWith, keeps_trapWith, apply_ite State.root,
          ite_self, root_mk, root_fold, foldl_root, implies_true, State.rerouted_root]; done)
      | (rw [linkCommand_root (hr := by assumption)]; with_reducible rfl)
      | split
      | simp only [ckeeps_done, ckeeps_later, keeps_done, keeps_branch, keeps_waitWith, keeps_trapWith, apply_ite State.root,
          ite_self, root_mk, root_fold, foldl_root, implies_true, State.rerouted_root]
      | rw [linkCommand_root (hr := by assumption)]
      | split
      | intro _
      | dsimp only

theorem execPortread_root (cmd : BitVec 52) (s o9 : State) (hr : execPortread cmd s = .next o9) : o9.root = s.root := by
  unfold execPortread at hr; refine linkCommand_root (hr := hr) (hact := fun _ _ => ?_) ..; all_goals
    repeat' first
      | exact keeps_trap _ _ _ _
      | exact keeps_wait _
      | assumption
      | (refine ofChk_keeps _ _ _ fun _ => ?_)
      | (refine then_keeps _ _ _ fun _ _ _ => ?_)
      | (simp only [ckeeps_done, ckeeps_later, keeps_done, keeps_branch, keeps_waitWith, keeps_trapWith, apply_ite State.root,
          ite_self, root_mk, root_fold, foldl_root, implies_true]; done)
      | apply State.reportAt_root
      | (rw [linkCommand_root (hr := by assumption)]; with_reducible rfl)
      | (rw [← linkCommand_root (hr := by assumption)]; apply State.reportAt_root)
      | split
      | simp only [ckeeps_done, ckeeps_later, keeps_done, keeps_branch, keeps_waitWith, keeps_trapWith, apply_ite State.root,
          ite_self, root_mk, root_fold, foldl_root, implies_true]
      | rw [linkCommand_root (hr := by assumption)]
      | split
      | intro _
      | dsimp only

theorem execTimecfg_root (cmd : BitVec 52) (s o9 : State) (hr : execTimecfg cmd s = .next o9) : o9.root = s.root := by
  unfold execTimecfg at hr; refine linkCommand_root (hr := hr) (hact := fun _ _ => ?_) ..; all_goals
    repeat' first
      | exact keeps_trap _ _ _ _
      | exact keeps_wait _
      | assumption
      | (refine ofChk_keeps _ _ _ fun _ => ?_)
      | (refine then_keeps _ _ _ fun _ _ _ => ?_)
      | (simp only [ckeeps_done, ckeeps_later, keeps_done, keeps_branch, keeps_waitWith, keeps_trapWith, apply_ite State.root,
          ite_self, root_mk, root_fold, foldl_root, implies_true]; done)
      | (rw [linkCommand_root (hr := by assumption)]; with_reducible rfl)
      | split
      | simp only [ckeeps_done, ckeeps_later, keeps_done, keeps_branch, keeps_waitWith, keeps_trapWith, apply_ite State.root,
          ite_self, root_mk, root_fold, foldl_root, implies_true]
      | rw [linkCommand_root (hr := by assumption)]
      | split
      | intro _
      | dsimp only

theorem barCommand_root (op cmd : ℕ) (s : State) (act : BCmd → State → CmdEnd) (hact : ∀ x0 x1,
    (act x0 x1).Keeps x1.root) (o9 : State) (hr : barCommand op cmd s act = .next o9) : o9.root = s.root := by
  unfold barCommand at hr; grind -lia -ring -linarith -order -ac [State.root, Effect.Keeps, CmdEnd.Keeps, ofChk, Got.then,
      foldl_root, command_root]

theorem execConfigure_root (cmd : BitVec 52) (s o9 : State) (hr : execConfigure cmd s = .next o9) : o9.root = s.root := by
  unfold execConfigure at hr; refine barCommand_root (hr := hr) (hact := fun _ _ => ?_) ..; all_goals
    repeat' first
      | exact keeps_trap _ _ _ _
      | exact keeps_wait _
      | assumption
      | (refine ofChk_keeps _ _ _ fun _ => ?_)
      | (refine then_keeps _ _ _ fun _ _ _ => ?_)
      | (simp only [ckeeps_done, ckeeps_later, keeps_done, keeps_branch, keeps_waitWith, keeps_trapWith, apply_ite State.root,
          ite_self, root_mk, root_fold, foldl_root, implies_true, State.onCtx_root]; done)
      | (rw [barCommand_root (hr := by assumption)]; with_reducible rfl)
      | split
      | simp only [ckeeps_done, ckeeps_later, keeps_done, keeps_branch, keeps_waitWith, keeps_trapWith, apply_ite State.root,
          ite_self, root_mk, root_fold, foldl_root, implies_true, State.onCtx_root]
      | rw [barCommand_root (hr := by assumption)]
      | split
      | intro _
      | dsimp only

theorem execRemove_root (cmd : BitVec 52) (s o9 : State) (hr : execRemove cmd s = .next o9) : o9.root = s.root := by
  unfold execRemove at hr; refine barCommand_root (hr := hr) (hact := fun _ _ => ?_) ..; all_goals
    repeat' first
      | exact keeps_trap _ _ _ _
      | exact keeps_wait _
      | assumption
      | (refine ofChk_keeps _ _ _ fun _ => ?_)
      | (refine then_keeps _ _ _ fun _ _ _ => ?_)
      | (simp only [ckeeps_done, ckeeps_later, keeps_done, keeps_branch, keeps_waitWith, keeps_trapWith, apply_ite State.root,
          ite_self, root_mk, root_fold, foldl_root, implies_true, State.onCtx_root]; done)
      | (rw [barCommand_root (hr := by assumption)]; with_reducible rfl)
      | split
      | simp only [ckeeps_done, ckeeps_later, keeps_done, keeps_branch, keeps_waitWith, keeps_trapWith, apply_ite State.root,
          ite_self, root_mk, root_fold, foldl_root, implies_true, State.onCtx_root]
      | rw [barCommand_root (hr := by assumption)]
      | split
      | intro _
      | dsimp only

theorem execBarrierReset_root (cmd : BitVec 52) (s o9 : State) (hr : execBarrierReset cmd s = .next o9) : o9.root = s.root := by
  unfold execBarrierReset at hr; refine barCommand_root (hr := hr) (hact := fun _ _ => ?_) ..; all_goals
    repeat' first
      | exact keeps_trap _ _ _ _
      | exact keeps_wait _
      | assumption
      | (refine ofChk_keeps _ _ _ fun _ => ?_)
      | (refine then_keeps _ _ _ fun _ _ _ => ?_)
      | (simp only [ckeeps_done, ckeeps_later, keeps_done, keeps_branch, keeps_waitWith, keeps_trapWith, apply_ite State.root,
          ite_self, root_mk, root_fold, foldl_root, implies_true, State.onBar_root, State.breakBar_root,
          State.tellBroken_root]; done)
      | (rw [barCommand_root (hr := by assumption)]; with_reducible rfl)
      | split
      | simp only [ckeeps_done, ckeeps_later, keeps_done, keeps_branch, keeps_waitWith, keeps_trapWith, apply_ite State.root,
          ite_self, root_mk, root_fold, foldl_root, implies_true, State.onBar_root, State.breakBar_root, State.tellBroken_root]
      | rw [barCommand_root (hr := by assumption)]
      | split
      | intro _
      | dsimp only

theorem execBarrierRead_root (cmd : BitVec 52) (s o9 : State) (hr : execBarrierRead cmd s = .next o9) : o9.root = s.root := by
  unfold execBarrierRead at hr; refine barCommand_root (hr := hr) (hact := fun _ _ => ?_) ..; all_goals
    repeat' first
      | exact keeps_trap _ _ _ _
      | exact keeps_wait _
      | assumption
      | (refine ofChk_keeps _ _ _ fun _ => ?_)
      | (refine then_keeps _ _ _ fun _ _ _ => ?_)
      | (simp only [ckeeps_done, ckeeps_later, keeps_done, keeps_branch, keeps_waitWith, keeps_trapWith, apply_ite State.root,
          ite_self, root_mk, root_fold, foldl_root, implies_true]; done)
      | apply State.reportAt_root
      | (rw [barCommand_root (hr := by assumption)]; with_reducible rfl)
      | (rw [← barCommand_root (hr := by assumption)]; apply State.reportAt_root)
      | split
      | simp only [ckeeps_done, ckeeps_later, keeps_done, keeps_branch, keeps_waitWith, keeps_trapWith, apply_ite State.root,
          ite_self, root_mk, root_fold, foldl_root, implies_true]
      | rw [barCommand_root (hr := by assumption)]
      | split
      | intro _
      | dsimp only

theorem execBarrierReleaseTick_root (ctx : BitVec 8) (bar : BitVec 12) (s o9 : State) (hr : execBarrierReleaseTick ctx bar s =
    .next o9) : o9.root = s.root := by
  unfold execBarrierReleaseTick at hr; (repeat' split at hr) <;> (try cases hr) <;>
    repeat first
      | with_reducible rfl
      | assumption
      | (simp only [apply_ite State.root, ite_self, root_mk, root_fold, foldl_root, implies_true,
          State.releaseEpisode_root]; done)
      | simp only [apply_ite State.root, ite_self, root_mk, root_fold, foldl_root, implies_true, State.releaseEpisode_root]

theorem State.acceptRegion_root (s : State) (ctx rid : ℕ) (o9 : State) (hr : State.acceptRegion s ctx rid = some o9) : o9.root =
    s.root := by
  have h := hr
  clear hr
  unfold State.acceptRegion at h
  split at h
  · cases h
  · split at h
    · cases h; rfl
    · split at h
      · cases h
      · obtain ⟨l, _, rfl⟩ := Option.map_eq_some_iff.1 h
        simp only [State.chargeHbm_root, State.onCtx_root]

@[simp] theorem State.noteOverrun_root (s : State) : (State.noteOverrun s).root = s.root := by
  unfold State.noteOverrun; simp only [apply_ite State.root, ite_self, root_mk, root_fold, foldl_root, implies_true]

@[simp] theorem State.takeEntry_root (s : State) (q : ℕ) (wait : Option (ℕ × BitVec 64)) : (State.takeEntry s q wait).root =
    s.root := by
  unfold State.takeEntry; (repeat' split) <;> simp_all [apply_ite State.root, ite_self, root_mk, root_fold, foldl_root,
      implies_true, State.onHq_root, State.hbmPutVal_root]

@[simp] theorem State.advanceDone_root (s : State) (q : ℕ) : (State.advanceDone s q).root = s.root := by
  unfold State.advanceDone; dsimp only; (repeat' split) <;>
    repeat first
      | with_reducible rfl
      | assumption
      | (simp only [apply_ite State.root, ite_self, root_mk, root_fold, foldl_root, implies_true, State.onHq_root,
          State.hbmPutVal_root]; done)
      | simp only [apply_ite State.root, ite_self, root_mk, root_fold, foldl_root, implies_true, State.onHq_root,
          State.hbmPutVal_root]

@[simp] theorem State.completeEntry_root (s : State) (q i : ℕ) (st : Status) : (State.completeEntry s q i st).root = s.root := by
  unfold State.completeEntry; dsimp only; (repeat' split) <;>
    repeat first
      | with_reducible rfl
      | assumption
      | (simp only [apply_ite State.root, ite_self, root_mk, root_fold, foldl_root, implies_true, State.hbmPutVal_root,
          State.addCtr_root, State.event_root, State.advanceDone_root, State.onHq_root]; done)
      | simp only [apply_ite State.root, ite_self, root_mk, root_fold, foldl_root, implies_true, State.hbmPutVal_root,
          State.addCtr_root, State.event_root, State.advanceDone_root, State.onHq_root]

@[simp] theorem State.reportCancelled_root (s : State) (q i : ℕ) : (State.reportCancelled s q i).root = s.root := by
  unfold State.reportCancelled; dsimp only; (repeat' split) <;>
    repeat first
      | with_reducible rfl
      | assumption
      | (simp only [apply_ite State.root, ite_self, root_mk, root_fold, foldl_root, implies_true, State.flushRecs_root]; done)
      | simp only [apply_ite State.root, ite_self, root_mk, root_fold, foldl_root, implies_true, State.flushRecs_root]

@[simp] theorem State.forget_root (s : State) (q : ℕ) : (State.forget s q).root = s.root := by
  unfold State.forget; simp only [apply_ite State.root, ite_self, root_mk, root_fold, foldl_root, implies_true,
      State.dropLines_root]

@[simp] theorem State.cancelNext_root (s : State) (q : ℕ) : (State.cancelNext s q).root = s.root := by
  unfold State.cancelNext; (repeat' split) <;> simp_all [apply_ite State.root, ite_self, root_mk, root_fold, foldl_root,
      implies_true, State.reportCancelled_root, State.completeEntry_root, State.takeEntry_root, State.forget_root]

@[simp] theorem cancelWalk_root (q a1 : ℕ) (a2 : State) : (cancelWalk q a1 a2).root = a2.root := by
  fun_induction cancelWalk <;> simp_all [apply_ite State.root, ite_self, root_mk, root_fold, foldl_root, implies_true]

@[simp] theorem State.spreadToken_root (s : State) (q i : ℕ) : (State.spreadToken s q i).root = s.root := by
  unfold State.spreadToken; (repeat' split) <;> simp_all [apply_ite State.root, ite_self, root_mk, root_fold, foldl_root,
      implies_true, cancelWalk_root]

@[simp] theorem State.sendToken_root (s : State) (q i : ℕ) : (State.sendToken s q i).root = s.root := by
  unfold State.sendToken; (repeat' split) <;> simp_all [apply_ite State.root, ite_self, root_mk, root_fold, foldl_root,
      implies_true, State.onHq_root, State.spreadToken_root]

@[simp] theorem State.endEntry_root (s : State) (q i : ℕ) (st : Status) : (State.endEntry s q i st).root = s.root := by
  unfold State.endEntry; simp only [apply_ite State.root, ite_self, root_mk, root_fold, foldl_root, implies_true,
      State.completeEntry_root, State.sendToken_root]

@[simp] theorem State.takeAndEnd_root (s : State) (q : ℕ) (st : Status) : (State.takeAndEnd s q st).root = s.root := by
  unfold State.takeAndEnd; (repeat' split) <;> simp_all [apply_ite State.root, ite_self, root_mk, root_fold, foldl_root,
      implies_true, State.endEntry_root, State.takeEntry_root]

@[simp] theorem State.dropLaunches_root (s : State) : (State.dropLaunches s).root = s.root := by
  unfold State.dropLaunches; simp only [apply_ite State.root, ite_self, root_mk, root_fold, foldl_root, implies_true]

theorem execEntryCompletion_root (queue : BitVec 10) (index : ℕ) (s o9 : State) (hr : execEntryCompletion queue index s = .next
    o9) : o9.root = s.root := by
  unfold execEntryCompletion at hr; dsimp only at hr; (repeat' split at hr) <;> (try cases hr) <;>
    repeat first
      | with_reducible rfl
      | assumption
      | (simp only [apply_ite State.root, ite_self, root_mk, root_fold, foldl_root, implies_true, State.dropReserved_root,
          State.onLaunch_root, State.endEntry_root, State.dropLaunches_root, State.spreadToken_root]; done)
      | simp only [apply_ite State.root, ite_self, root_mk, root_fold, foldl_root, implies_true, State.dropReserved_root,
          State.onLaunch_root, State.endEntry_root, State.dropLaunches_root, State.spreadToken_root]

theorem execWaitConditionHolds_root (queue : BitVec 10) (index : ℕ) (s o9 : State) (hr : execWaitConditionHolds queue index s =
    .next o9) : o9.root = s.root := by
  unfold execWaitConditionHolds at hr; (repeat' split at hr) <;> (try cases hr) <;>
    repeat first
      | with_reducible rfl
      | assumption
      | (simp only [apply_ite State.root, ite_self, root_mk, root_fold, foldl_root, implies_true, State.endEntry_root]; done)
      | simp only [apply_ite State.root, ite_self, root_mk, root_fold, foldl_root, implies_true, State.endEntry_root]

theorem queueCommand_root (op cmd : ℕ) (s : State) (act : QCmd → Context → State → CmdEnd) (hact : ∀ x0 x1 x2,
    (act x0 x1 x2).Keeps x2.root) (o9 : State) (hr : queueCommand op cmd s act = .next o9) : o9.root = s.root := by
  unfold queueCommand at hr; grind -lia -ring -linarith -order -ac [State.root, Effect.Keeps, CmdEnd.Keeps, ofChk, Got.then,
      foldl_root, command_root]

theorem execEnable_root (cmd : BitVec 52) (s o9 : State) (hr : execEnable cmd s = .next o9) : o9.root = s.root := by
  unfold execEnable at hr; refine queueCommand_root (hr := hr) (hact := fun _ _ _ => ?_) ..; all_goals
    repeat' first
      | exact keeps_trap _ _ _ _
      | exact keeps_wait _
      | assumption
      | (refine ofChk_keeps _ _ _ fun _ => ?_)
      | (refine then_keeps _ _ _ fun _ _ _ => ?_)
      | (simp only [ckeeps_done, ckeeps_later, keeps_done, keeps_branch, keeps_waitWith, keeps_trapWith, apply_ite State.root,
          ite_self, root_mk, root_fold, foldl_root, implies_true, State.hbmPutVal_root]; done)
      | (rw [queueCommand_root (hr := by assumption)]; with_reducible rfl)
      | (rw [State.acceptRegion_root (hr := by assumption)]; with_reducible rfl)
      | split
      | simp only [ckeeps_done, ckeeps_later, keeps_done, keeps_branch, keeps_waitWith, keeps_trapWith, apply_ite State.root,
          ite_self, root_mk, root_fold, foldl_root, implies_true, State.hbmPutVal_root]
      | rw [queueCommand_root (hr := by assumption)]
      | rw [State.acceptRegion_root (hr := by assumption)]
      | split
      | intro _
      | dsimp only

theorem execDisable_root (cmd : BitVec 52) (s o9 : State) (hr : execDisable cmd s = .next o9) : o9.root = s.root := by
  unfold execDisable at hr; refine queueCommand_root (hr := hr) (hact := fun _ _ _ => ?_) ..; all_goals
    repeat' first
      | exact keeps_trap _ _ _ _
      | exact keeps_wait _
      | assumption
      | (refine ofChk_keeps _ _ _ fun _ => ?_)
      | (refine then_keeps _ _ _ fun _ _ _ => ?_)
      | (simp only [ckeeps_done, ckeeps_later, keeps_done, keeps_branch, keeps_waitWith, keeps_trapWith, apply_ite State.root,
          ite_self, root_mk, root_fold, foldl_root, implies_true, State.forget_root]; done)
      | (rw [queueCommand_root (hr := by assumption)]; with_reducible rfl)
      | split
      | simp only [ckeeps_done, ckeeps_later, keeps_done, keeps_branch, keeps_waitWith, keeps_trapWith, apply_ite State.root,
          ite_self, root_mk, root_fold, foldl_root, implies_true, State.forget_root]
      | rw [queueCommand_root (hr := by assumption)]
      | split
      | intro _
      | dsimp only

theorem execResume_root (cmd : BitVec 52) (s o9 : State) (hr : execResume cmd s = .next o9) : o9.root = s.root := by
  unfold execResume at hr; refine queueCommand_root (hr := hr) (hact := fun _ _ _ => ?_) ..; all_goals
    repeat' first
      | exact keeps_trap _ _ _ _
      | exact keeps_wait _
      | assumption
      | (refine ofChk_keeps _ _ _ fun _ => ?_)
      | (refine then_keeps _ _ _ fun _ _ _ => ?_)
      | (simp only [ckeeps_done, ckeeps_later, keeps_done, keeps_branch, keeps_waitWith, keeps_trapWith, apply_ite State.root,
          ite_self, root_mk, root_fold, foldl_root, implies_true, State.onHq_root]; done)
      | (rw [queueCommand_root (hr := by assumption)]; with_reducible rfl)
      | split
      | simp only [ckeeps_done, ckeeps_later, keeps_done, keeps_branch, keeps_waitWith, keeps_trapWith, apply_ite State.root,
          ite_self, root_mk, root_fold, foldl_root, implies_true, State.onHq_root]
      | rw [queueCommand_root (hr := by assumption)]
      | split
      | intro _
      | dsimp only

@[simp] theorem cancelAll_root (q a1 : ℕ) (a2 : State) : (cancelAll q a1 a2).root = a2.root := by
  fun_induction cancelAll <;> simp_all [apply_ite State.root, ite_self, root_mk, root_fold, foldl_root, implies_true]

theorem execFlush_root (cmd : BitVec 52) (s o9 : State) (hr : execFlush cmd s = .next o9) : o9.root = s.root := by
  unfold execFlush at hr; refine queueCommand_root (hr := hr) (hact := fun _ _ _ => ?_) ..; all_goals
    repeat' first
      | exact keeps_trap _ _ _ _
      | exact keeps_wait _
      | assumption
      | (refine ofChk_keeps _ _ _ fun _ => ?_)
      | (refine then_keeps _ _ _ fun _ _ _ => ?_)
      | (simp only [ckeeps_done, ckeeps_later, keeps_done, keeps_branch, keeps_waitWith, keeps_trapWith, apply_ite State.root,
          ite_self, root_mk, root_fold, foldl_root, implies_true, State.dropLaunches_root, State.onHq_root, cancelAll_root]; done)
      | (rw [queueCommand_root (hr := by assumption)]; with_reducible rfl)
      | split
      | simp only [ckeeps_done, ckeeps_later, keeps_done, keeps_branch, keeps_waitWith, keeps_trapWith, apply_ite State.root,
          ite_self, root_mk, root_fold, foldl_root, implies_true, State.dropLaunches_root, State.onHq_root, cancelAll_root]
      | rw [queueCommand_root (hr := by assumption)]
      | split
      | intro _
      | dsimp only

theorem execQueueRead_root (cmd : BitVec 52) (s o9 : State) (hr : execQueueRead cmd s = .next o9) : o9.root = s.root := by
  unfold execQueueRead at hr; refine queueCommand_root (hr := hr) (hact := fun _ _ _ => ?_) ..; all_goals
    repeat' first
      | exact keeps_trap _ _ _ _
      | exact keeps_wait _
      | assumption
      | (refine ofChk_keeps _ _ _ fun _ => ?_)
      | (refine then_keeps _ _ _ fun _ _ _ => ?_)
      | (simp only [ckeeps_done, ckeeps_later, keeps_done, keeps_branch, keeps_waitWith, keeps_trapWith, apply_ite State.root,
          ite_self, root_mk, root_fold, foldl_root, implies_true]; done)
      | apply State.reportAt_root
      | (rw [queueCommand_root (hr := by assumption)]; with_reducible rfl)
      | (rw [← queueCommand_root (hr := by assumption)]; apply State.reportAt_root)
      | split
      | simp only [ckeeps_done, ckeeps_later, keeps_done, keeps_branch, keeps_waitWith, keeps_trapWith, apply_ite State.root,
          ite_self, root_mk, root_fold, foldl_root, implies_true]
      | rw [queueCommand_root (hr := by assumption)]
      | split
      | intro _
      | dsimp only

theorem ctxCommand_root (op cmd : ℕ) (s : State) (act : XCmd → State → CmdEnd) (hact : ∀ x0 x1,
    (act x0 x1).Keeps x1.root) (o9 : State) (hr : ctxCommand op cmd s act = .next o9) : o9.root = s.root := by
  unfold ctxCommand at hr; grind -lia -ring -linarith -order -ac [State.root, Effect.Keeps, CmdEnd.Keeps, ofChk, Got.then,
      foldl_root, command_root]

@[simp] theorem State.emptyRing_root (s : State) (ctx : ℕ) (r : RootPart) : (State.emptyRing s ctx r).root = s.root := by
  unfold State.emptyRing; simp only [apply_ite State.root, ite_self, root_mk, root_fold, foldl_root, implies_true,
      State.putPa_root, State.ctrl_root]

@[simp] theorem State.createCtx_root (s : State) (n : ℕ) (root : RootPart) (rcb : Rcb) : (State.createCtx s n root rcb).root =
    s.root := by
  unfold State.createCtx; simp only [apply_ite State.root, ite_self, root_mk, root_fold, foldl_root, implies_true,
      State.writeCharges_root, State.chargeHbm_root, State.emptyRing_root, State.hbmPutVal_root]

theorem execCreate_root (cmd : BitVec 52) (s o9 : State) (hr : execCreate cmd s = .next o9) : o9.root = s.root := by
  have h := hr
  clear hr
  unfold execCreate at h
  refine ctxCommand_root (hr := h) (hact := fun c t => ?_) ..
  split
  · exact (ckeeps_done _ _ _).2 rfl
  · dsimp only
    split
    · exact (ckeeps_done _ _ _).2 rfl
    · split
      · exact (ckeeps_done _ _ _).2 rfl
      · rw [ckeeps_done, State.createCtx_root]

@[simp] theorem State.drainEntry_root (s : State) (q : ℕ) (e : QEntry) : (State.drainEntry s q e).root = s.root := by
  unfold State.drainEntry; dsimp only; (repeat' split) <;>
    repeat first
      | with_reducible rfl
      | assumption
      | (simp only [apply_ite State.root, ite_self, root_mk, root_fold, foldl_root, implies_true, State.completeEntry_root,
          State.cancelLaunch_root, State.onLaunch_root]; done)
      | simp only [apply_ite State.root, ite_self, root_mk, root_fold, foldl_root, implies_true, State.completeEntry_root,
          State.cancelLaunch_root, State.onLaunch_root]

@[simp] theorem State.drainQueue_root (s : State) (q : ℕ) (h : HQueue) : (State.drainQueue s q h).root = s.root := by
  unfold State.drainQueue; simp only [apply_ite State.root, ite_self, root_mk, root_fold, foldl_root, implies_true,
      State.drainEntry_root, State.forget_root, cancelAll_root]

@[simp] theorem State.cancelCtx_root (s : State) (n : ℕ) : (State.cancelCtx s n).root = s.root := by
  unfold State.cancelCtx; simp only [apply_ite State.root, ite_self, root_mk, root_fold, foldl_root, implies_true,
      State.drainQueue_root, State.cancelLaunch_root]

@[simp] theorem State.cancelSlots_root (s : State) (n : ℕ) : (State.cancelSlots s n).root = s.root := by
  unfold State.cancelSlots; simp only [apply_ite State.root, ite_self, root_mk, root_fold, foldl_root, implies_true,
      State.onCtx_root, State.closeQp_root]

@[simp] theorem State.startDrain_root (s : State) (n cmd : ℕ) : (State.startDrain s n cmd).root = s.root := by
  unfold State.startDrain; simp only [apply_ite State.root, ite_self, root_mk, root_fold, foldl_root, implies_true,
      State.cancelSlots_root, State.cancelCtx_root, State.onCtx_root]

theorem execDestroy_root (cmd : BitVec 52) (s o9 : State) (hr : execDestroy cmd s = .next o9) : o9.root = s.root := by
  unfold execDestroy at hr; grind -lia -ring -linarith -order -ac [State.root, Effect.Keeps, CmdEnd.Keeps, ofChk, Got.then,
      foldl_root, State.startDrain_root, ctxCommand_root]

theorem execReplenish_root (cmd : BitVec 52) (s o9 : State) (hr : execReplenish cmd s = .next o9) : o9.root = s.root := by
  have h := hr
  clear hr
  unfold execReplenish at h
  refine ctxCommand_root (hr := h) (hact := fun c t => ?_) ..
  have hu : ((t.acceptRegion c.ctx (recField (t.rcbBytes c.addr) 8 2)).getD t).root = t.root := by
    cases e2 : t.acceptRegion c.ctx (recField (t.rcbBytes c.addr) 8 2) with
    | none => rfl
    | some v => exact State.acceptRegion_root (hr := e2) ..
  (repeat' (first | split | dsimp only)) <;> first
    | exact (ckeeps_done _ _ _).2 rfl
    | (rw [ckeeps_done, State.onCtx_root]; first | exact hu | rfl)

@[simp] theorem State.writeAllCharges_root (s : State) (n : ℕ) : (State.writeAllCharges s n).root = s.root := by
  unfold State.writeAllCharges; (repeat' split) <;> simp_all [apply_ite State.root, ite_self, root_mk, root_fold, foldl_root,
      implies_true, State.hbmPutVal_root, State.chargeHbm_root]

theorem execCtxRead_root (cmd : BitVec 52) (s o9 : State) (hr : execCtxRead cmd s = .next o9) : o9.root = s.root := by
  unfold execCtxRead at hr; grind -lia -ring -linarith -order -ac [State.root, Effect.Keeps, CmdEnd.Keeps, ofChk, Got.then,
      foldl_root, State.writeAllCharges_root, ctxCommand_root, State.reportAt_root]

theorem execContextFrozen_root (ctx : BitVec 8) (s o9 : State) (hr : execContextFrozen ctx s = .next o9) : o9.root = s.root := by
  unfold execContextFrozen at hr; dsimp only at hr; (repeat' split at hr) <;> (try cases hr) <;>
    repeat first
      | with_reducible rfl
      | assumption
      | (simp only [apply_ite State.root, ite_self, root_mk, root_fold, foldl_root, implies_true, State.event_root,
          State.onCtx_root]; done)
      | simp only [apply_ite State.root, ite_self, root_mk, root_fold, foldl_root, implies_true, State.event_root,
          State.onCtx_root]

@[simp] theorem State.endLeases_root (s : State) (n : ℕ) : (State.endLeases s n).root = s.root := by
  unfold State.endLeases; grind -lia -ring -linarith -order -ac [State.root, Effect.Keeps, CmdEnd.Keeps, ofChk, Got.then,
      foldl_root, State.ctrl_root, State.onLeases_root]

@[simp] theorem State.unmapAll_root (s : State) (n : ℕ) : (State.unmapAll s n).root = s.root := by
  unfold State.unmapAll; simp only [apply_ite State.root, ite_self, root_mk, root_fold, foldl_root, implies_true,
      State.unmapPage_root, State.endLeases_root]

@[simp] theorem State.freeCtx_root (s : State) (n : ℕ) (c : Context) : (State.freeCtx s n c).root = s.root := by
  unfold State.freeCtx; simp only [apply_ite State.root, ite_self, root_mk, root_fold, foldl_root, implies_true]

theorem execContextDrained_root (ctx : BitVec 8) (s o9 : State) (hr : execContextDrained ctx s = .next o9) : o9.root = s.root :=
    by
  unfold execContextDrained at hr; dsimp only at hr; (repeat' split at hr) <;> (try cases hr) <;>
    repeat first
      | with_reducible rfl
      | assumption
      | (simp only [apply_ite State.root, ite_self, root_mk, root_fold, foldl_root, implies_true, State.event_root,
          State.freeCtx_root, State.writeAllCharges_root, State.unmapAll_root, State.cmdDone_root]; done)
      | simp only [apply_ite State.root, ite_self, root_mk, root_fold, foldl_root, implies_true, State.event_root,
          State.freeCtx_root, State.writeAllCharges_root, State.unmapAll_root, State.cmdDone_root]

end Sys2Proof.Machine
end

