-- ==== Sys2Proof/Laws/RootRun.lean ====
section
/-! SUPPORT. What leaves the boot record, the part and PCAP alone: launches, placement, traces and the platform. Each lemma says it of one definition. -/

set_option linter.all false

namespace Sys2Proof.Machine

theorem State.fetchRange_root (s : State) (ag : Agent) (ctx va n : ℕ) (o9) (hr : State.fetchRange s ag ctx va n = .error o9) :
    o9.root = s.root := by
  unfold State.fetchRange at hr; dsimp only at hr; (repeat' split at hr) <;> (try cases hr) <;>
    repeat first
      | with_reducible rfl
      | assumption
      | (simp only [apply_ite State.root, ite_self, root_mk, root_fold, foldl_root, implies_true, State.gather_root]; done)
      | simp only [apply_ite State.root, ite_self, root_mk, root_fold, foldl_root, implies_true, State.gather_root]

@[simp] theorem State.addLaunch_root (s : State) (l : Launch) : (State.addLaunch s l).root = s.root := by
  unfold State.addLaunch; simp only [apply_ite State.root, ite_self, root_mk, root_fold, foldl_root, implies_true]

@[simp] theorem State.startLaunch_root (s : State) (q : ℕ) (x : Next) : (State.startLaunch s q x).root = s.root := by
  unfold State.startLaunch; dsimp only; (repeat' split) <;>
    repeat first
      | with_reducible rfl
      | assumption
      | (simp only [apply_ite State.root, ite_self, root_mk, root_fold, foldl_root, implies_true, State.cancelNext_root,
          State.takeAndEnd_root, State.dropLines_root, State.onHq_root, State.addLaunch_root, State.takeEntry_root]; done)
      | rw [State.acceptRegion_root (hr := by assumption)]
      | rw [State.fetchRange_root (hr := by assumption)]
      | simp only [apply_ite State.root, ite_self, root_mk, root_fold, foldl_root, implies_true, State.cancelNext_root,
          State.takeAndEnd_root, State.dropLines_root, State.onHq_root, State.addLaunch_root, State.takeEntry_root]

theorem execLaunch_root (queue : BitVec 10) (s o9 : State) (hr : execLaunch queue s = .next o9) : o9.root = s.root := by
  unfold execLaunch at hr; dsimp only at hr; (repeat' split at hr) <;> (try cases hr) <;>
    repeat first
      | with_reducible rfl
      | assumption
      | (simp only [apply_ite State.root, ite_self, root_mk, root_fold, foldl_root, implies_true, State.noteOverrun_root,
          State.startLaunch_root]; done)
      | simp only [apply_ite State.root, ite_self, root_mk, root_fold, foldl_root, implies_true, State.noteOverrun_root,
          State.startLaunch_root]

theorem execKernelTriggerMet_root (launch : ℕ) (s o9 : State) (hr : execKernelTriggerMet launch s = .next o9) : o9.root = s.root
    := by
  unfold execKernelTriggerMet at hr; (repeat' split at hr) <;> (try cases hr) <;>
    repeat first
      | with_reducible rfl
      | assumption
      | (simp only [apply_ite State.root, ite_self, root_mk, root_fold, foldl_root, implies_true, State.onLaunch_root]; done)
      | simp only [apply_ite State.root, ite_self, root_mk, root_fold, foldl_root, implies_true, State.onLaunch_root]

@[simp] theorem postList_root (ctx : ℕ) (nivose : Bool) (a2 : List (List Byte)) (a3 : State) : (postList ctx nivose a2 a3).1.root
    = a3.root := by
  fun_induction postList <;> simp_all [apply_ite State.root, ite_self, root_mk, root_fold, foldl_root, implies_true]

@[simp] theorem State.startStep_root (s : State) (q : ℕ) (x : Next) : (State.startStep s q x).root = s.root := by
  unfold State.startStep; dsimp only; (repeat' split) <;>
    repeat first
      | with_reducible rfl
      | assumption
      | (simp only [apply_ite State.root, ite_self, root_mk, root_fold, foldl_root, implies_true, State.takeAndEnd_root,
          postList_root, State.dropLines_root]; done)
      | rw [State.fetchRange_root (hr := by assumption)]
      | simp only [apply_ite State.root, ite_self, root_mk, root_fold, foldl_root, implies_true, State.takeAndEnd_root,
          postList_root, State.dropLines_root]

@[simp] theorem State.startWait_root (s : State) (q : ℕ) (x : Next) : (State.startWait s q x).root = s.root := by
  unfold State.startWait; simp only [apply_ite State.root, ite_self, root_mk, root_fold, foldl_root, implies_true,
      State.takeAndEnd_root, State.takeEntry_root]

@[simp] theorem State.raiseIrq_root (s : State) (q kidx gidx : ℕ) : (State.raiseIrq s q kidx gidx).root = s.root := by
  unfold State.raiseIrq; dsimp only; (repeat' split) <;>
    repeat first
      | with_reducible rfl
      | assumption
      | (simp only [apply_ite State.root, ite_self, root_mk, root_fold, foldl_root, implies_true, State.mapGroups_root]; done)
      | simp only [apply_ite State.root, ite_self, root_mk, root_fold, foldl_root, implies_true, State.mapGroups_root]

@[simp] theorem State.startSignal_root (s : State) (q : ℕ) (x : Next) : (State.startSignal s q x).root = s.root := by
  unfold State.startSignal; simp only [apply_ite State.root, ite_self, root_mk, root_fold, foldl_root, implies_true,
      State.addCtrOpt_root, State.takeAndEnd_root, State.raiseIrq_root]

@[simp] theorem State.startNote_root (s : State) (q : ℕ) (x : Next) : (State.startNote s q x).root = s.root := by
  unfold State.startNote; simp only [apply_ite State.root, ite_self, root_mk, root_fold, foldl_root, implies_true,
      State.takeAndEnd_root, State.event_root, State.hostPut_root]

@[simp] theorem State.startEntry_root (s : State) (q : ℕ) (x : Next) : (State.startEntry s q x).root = s.root := by
  unfold State.startEntry; (repeat' split) <;> simp_all [apply_ite State.root, ite_self, root_mk, root_fold, foldl_root,
      implies_true, State.cancelNext_root, State.takeAndEnd_root, State.startStep_root, State.startWait_root,
      State.startSignal_root, State.startNote_root]

@[simp] theorem State.putGroup_root (s : State) (g : Group) : (State.putGroup s g).root = s.root := by
  unfold State.putGroup; simp only [apply_ite State.root, ite_self, root_mk, root_fold, foldl_root, implies_true]

@[simp] theorem State.placeGroup_root (s : State) (l : Launch) (index core : ℕ) : (State.placeGroup s l index core).root = s.root
    := by
  unfold State.placeGroup; dsimp only; (repeat' split) <;>
    repeat first
      | with_reducible rfl
      | assumption
      | (simp only [apply_ite State.root, ite_self, root_mk, root_fold, foldl_root, implies_true, State.onCtx_root,
          State.putGroup_root, State.onLaunch_root]; done)
      | simp only [apply_ite State.root, ite_self, root_mk, root_fold, foldl_root, implies_true, State.onCtx_root,
          State.putGroup_root, State.onLaunch_root]

@[simp] theorem State.placeClusters_root (s : State) (l : Launch) (cs : List (List ℕ)) : (State.placeClusters s l cs).root =
    s.root := by
  unfold State.placeClusters; simp only [apply_ite State.root, ite_self, root_mk, root_fold, foldl_root, implies_true,
      State.placeGroup_root, State.onLaunch_root, State.dropReserved_root]

theorem State.images_root (s : State) (l : Launch) (o9) (hr : State.images s l = .error o9) : o9.root = s.root := by
  have h := hr
  clear hr
  have b : ∀ (x : Except State (List Byte)) (f : List Byte → Except State Images) (u : State),
      (x >>= f) = .error u → x = .error u ∨ ∃ v, f v = .error u := by
    intro x f u e; cases x with
    | error w => exact .inl (by simpa [bind, Except.bind] using e)
    | ok v => exact .inr ⟨v, e⟩
  unfold State.images at h
  rcases b _ _ _ h with e | ⟨_, h⟩
  · exact State.fetchRange_root (hr := e) ..
  rcases b _ _ _ h with e | ⟨_, h⟩
  · exact State.fetchRange_root (hr := e) ..
  rcases b _ _ _ h with e | ⟨_, h⟩
  · exact State.fetchRange_root (hr := e) ..
  rcases b _ _ _ h with e | ⟨_, h⟩
  · exact State.fetchRange_root (hr := e) ..
  cases h

@[simp] theorem State.finishPlacing_root (s : State) (l : Launch) (cluster : ℕ) : (State.finishPlacing s l cluster).root = s.root
    := by
  unfold State.finishPlacing; grind -lia -ring -linarith -order -ac [State.root, Effect.Keeps, CmdEnd.Keeps, ofChk, Got.then,
      foldl_root, State.dropLines_root, State.mapGroups_root, State.images_root]

theorem execPlacementComplete_root (launch cluster : ℕ) (s o9 : State) (hr : execPlacementComplete launch cluster s = .next o9) :
    o9.root = s.root := by
  unfold execPlacementComplete at hr; (repeat' split at hr) <;> (try cases hr) <;>
    repeat first
      | with_reducible rfl
      | assumption
      | (simp only [apply_ite State.root, ite_self, root_mk, root_fold, foldl_root, implies_true, State.finishPlacing_root]; done)
      | simp only [apply_ite State.root, ite_self, root_mk, root_fold, foldl_root, implies_true, State.finishPlacing_root]

@[simp] theorem State.moveGroup_root (s : State) (a b : ℕ) : (State.moveGroup s a b).root = s.root := by
  unfold State.moveGroup; simp only [apply_ite State.root, ite_self, root_mk, root_fold, foldl_root, implies_true,
      State.mapGroups_root]

@[simp] theorem State.askLists_root (s : State) : (State.askLists s).root = s.root := by
  unfold State.askLists; grind -lia -ring -linarith -order -ac [State.root, Effect.Keeps, CmdEnd.Keeps, ofChk, Got.then,
      foldl_root, State.startStep_root]

@[simp] theorem State.noteReady_root (s : State) : (State.noteReady s).root = s.root := by
  unfold State.noteReady; simp only [apply_ite State.root, ite_self, root_mk, root_fold, foldl_root, implies_true]

@[simp] theorem State.resumeGroups_root (s : State) (gs : List Group) (cores : List ℕ) : (State.resumeGroups s gs cores).root =
    s.root := by
  unfold State.resumeGroups; grind -lia -ring -linarith -order -ac [State.root, Effect.Keeps, CmdEnd.Keeps, ofChk, Got.then,
      foldl_root, State.retryFires_root, State.onCore_root, State.moveGroup_root, State.env_root]

@[simp] theorem State.serve_root (s : State) (q : ℕ) (w : Serve) : (State.serve s q w).root = s.root := by
  unfold State.serve; dsimp only; (repeat' split) <;>
    repeat first
      | with_reducible rfl
      | assumption
      | (simp only [apply_ite State.root, ite_self, root_mk, root_fold, foldl_root, implies_true, State.resumeGroups_root,
          State.placeClusters_root, State.startEntry_root]; done)
      | simp only [apply_ite State.root, ite_self, root_mk, root_fold, foldl_root, implies_true, State.resumeGroups_root,
          State.placeClusters_root, State.startEntry_root]

@[simp] theorem State.afterServe_root (s : State) (q : ℕ) : (State.afterServe s q).root = s.root := by
  unfold State.afterServe; dsimp only; (repeat' split) <;>
    repeat first
      | with_reducible rfl
      | assumption
      | (simp only [apply_ite State.root, ite_self, root_mk, root_fold, foldl_root, implies_true, State.onHq_root]; done)
      | simp only [apply_ite State.root, ite_self, root_mk, root_fold, foldl_root, implies_true, State.onHq_root]

@[simp] theorem State.refill_root (s : State) (q : ℕ) : (State.refill s q).root = s.root := by
  unfold State.refill; simp only [apply_ite State.root, ite_self, root_mk, root_fold, foldl_root, implies_true, State.onHq_root]

@[simp] theorem State.placeCalendar_root (s : State) (l : Launch) (index core : ℕ) : (State.placeCalendar s l index core).root =
    s.root := by
  unfold State.placeCalendar; simp only [apply_ite State.root, ite_self, root_mk, root_fold, foldl_root, implies_true,
      State.onLaunch_root, State.placeGroup_root, State.env_root]

@[simp] theorem placeCalendars_root (a0 : ℕ) (a1 : State) : (placeCalendars a0 a1).root = a1.root := by
  fun_induction placeCalendars <;> simp_all [apply_ite State.root, ite_self, root_mk, root_fold, foldl_root, implies_true]

theorem execServiceOpportunity_root (s o9 : State) (hr : execServiceOpportunity s = .next o9) : o9.root = s.root := by
  unfold execServiceOpportunity at hr; dsimp only at hr; (repeat' split at hr) <;> (try cases hr) <;>
    repeat first
      | with_reducible rfl
      | assumption
      | (simp only [apply_ite State.root, ite_self, root_mk, root_fold, foldl_root, implies_true, State.noteReady_root,
          State.noteOverrun_root, placeCalendars_root, State.teardownAll_root, State.afterServe_root, State.serve_root,
          State.refill_root]; done)
      | simp only [apply_ite State.root, ite_self, root_mk, root_fold, foldl_root, implies_true, State.noteReady_root,
          State.noteOverrun_root, placeCalendars_root, State.teardownAll_root, State.afterServe_root, State.serve_root,
          State.refill_root]

theorem serveType_root (typ : ℕ) (queue : BitVec 10) (s o9 : State) (hr : serveType typ queue s = .next o9) : o9.root = s.root :=
    by
  unfold serveType at hr; dsimp only at hr; (repeat' split at hr) <;> (try cases hr) <;>
    repeat first
      | with_reducible rfl
      | assumption
      | (simp only [apply_ite State.root, ite_self, root_mk, root_fold, foldl_root, implies_true, State.noteReady_root,
          State.noteOverrun_root, State.afterServe_root, State.startEntry_root, State.refill_root]; done)
      | simp only [apply_ite State.root, ite_self, root_mk, root_fold, foldl_root, implies_true, State.noteReady_root,
          State.noteOverrun_root, State.afterServe_root, State.startEntry_root, State.refill_root]

theorem execStep_root (queue : BitVec 10) (s o9 : State) (hr : execStep queue s = .next o9) : o9.root = s.root := by
  exact serveType_root (hr := hr) ..

theorem execWait_root (queue : BitVec 10) (s o9 : State) (hr : execWait queue s = .next o9) : o9.root = s.root := by
  exact serveType_root (hr := hr) ..

theorem execSignalEntry_root (queue : BitVec 10) (s o9 : State) (hr : execSignalEntry queue s = .next o9) : o9.root = s.root := by
  exact serveType_root (hr := hr) ..

theorem execHostnote_root (queue : BitVec 10) (s o9 : State) (hr : execHostnote queue s = .next o9) : o9.root = s.root := by
  exact serveType_root (hr := hr) ..

theorem State.calendarLaunch_root (s : State) (ctx kdesc tick : ℕ) (r : List Byte) (es : List CalEntry) (w0) (o9 : State) (hr :
    State.calendarLaunch s ctx kdesc tick r es = .ok (o9, w0)) : o9.root = s.root := by
  unfold State.calendarLaunch at hr; dsimp only at hr; (repeat' split at hr) <;> (try cases hr) <;>
    repeat first
      | with_reducible rfl
      | assumption
      | (simp only [apply_ite State.root, ite_self, root_mk, root_fold, foldl_root, implies_true]; done)
      | rw [State.acceptRegion_root (hr := by assumption)]
      | simp only [apply_ite State.root, ite_self, root_mk, root_fold, foldl_root, implies_true]

theorem execCalendarReservation_root (kdesc tick : BitVec 64) (s o9 : State) (hr : execCalendarReservation kdesc tick s = .next
    o9) : o9.root = s.root := by
  unfold execCalendarReservation at hr; dsimp only at hr; (repeat' split at hr) <;> (try cases hr) <;>
    repeat first
      | with_reducible rfl
      | assumption
      | (simp only [apply_ite State.root, ite_self, root_mk, root_fold, foldl_root, implies_true, State.dropLines_root,
          State.event_root, placeCalendars_root, State.addLaunch_root]; done)
      | rw [State.fetchRange_root (hr := by assumption)]
      | rw [State.calendarLaunch_root (hr := by assumption)]
      | simp only [apply_ite State.root, ite_self, root_mk, root_fold, foldl_root, implies_true, State.dropLines_root,
          State.event_root, placeCalendars_root, State.addLaunch_root]

theorem execCalendarStart_root (kdesc tick : BitVec 64) (s o9 : State) (hr : execCalendarStart kdesc tick s = .next o9) : o9.root
    = s.root := by
  unfold execCalendarStart at hr; (repeat' split at hr) <;> (try cases hr) <;>
    repeat first
      | with_reducible rfl
      | assumption
      | (simp only [apply_ite State.root, ite_self, root_mk, root_fold, foldl_root, implies_true, State.mapGroups_root]; done)
      | simp only [apply_ite State.root, ite_self, root_mk, root_fold, foldl_root, implies_true, State.mapGroups_root]

theorem execYield_root (y : BitVec 2) (s o9 : State) (hr : execYield y s = .next o9) : o9.root = s.root := by
  unfold execYield at hr; refine issue_root _ _ _ _ _ (fun s t => ?_) _ hr <;> grind -lia -ring -linarith -order -ac [State.root,
      Effect.Keeps, CmdEnd.Keeps, ofChk, Got.then, foldl_root, State.mapGroups_root]

@[simp] theorem State.sendAway_root (s : State) (g : Group) : (State.sendAway s g).root = s.root := by
  unfold State.sendAway; simp only [apply_ite State.root, ite_self, root_mk, root_fold, foldl_root, implies_true,
      State.onArea_root, State.onCore_root, State.moveGroup_root, State.env_root]

theorem execPreemption_root (s o9 : State) (hr : execPreemption s = .next o9) : o9.root = s.root := by
  unfold execPreemption at hr; dsimp only at hr; (repeat' split at hr) <;> (try cases hr) <;>
    repeat first
      | with_reducible rfl
      | assumption
      | (simp only [apply_ite State.root, ite_self, root_mk, root_fold, foldl_root, implies_true, State.mapGroups_root,
          State.sendAway_root]; done)
      | simp only [apply_ite State.root, ite_self, root_mk, root_fold, foldl_root, implies_true, State.mapGroups_root,
          State.sendAway_root]

theorem execHangDetected_root (s o9 : State) (hr : execHangDetected s = .next o9) : o9.root = s.root := by
  unfold execHangDetected at hr; (repeat' split at hr) <;> (try cases hr) <;>
    repeat first
      | with_reducible rfl
      | assumption
      | (simp only [apply_ite State.root, ite_self, root_mk, root_fold, foldl_root, implies_true, State.teardown_root,
          State.endGroup_root, State.sendTokens_root]; done)
      | simp only [apply_ite State.root, ite_self, root_mk, root_fold, foldl_root, implies_true, State.teardown_root,
          State.endGroup_root, State.sendTokens_root]

@[simp] theorem State.countNotify_root (s : State) : (State.countNotify s).root = s.root := by
  unfold State.countNotify; simp only [apply_ite State.root, ite_self, root_mk, root_fold, foldl_root, implies_true,
      State.addCtr_root]

@[simp] theorem State.writeBufout_root (s : State) : (State.writeBufout s).root = s.root := by
  unfold State.writeBufout; simp only [apply_ite State.root, ite_self, root_mk, root_fold, foldl_root, implies_true,
      writeLines_root, State.event_root]

theorem execCombinerCompletion_root (s o9 : State) (hr : execCombinerCompletion s = .next o9) : o9.root = s.root := by
  have h := hr
  clear hr
  unfold execCombinerCompletion at h
  dsimp only at h
  by_cases c : (!s.combinerEnabled) = true
  · rw [if_pos c] at h
    exact congrArg State.root (Host.Outcome.next.inj h).symm
  · rw [if_neg c] at h
    have e := (Host.Outcome.next.inj h).symm
    rw [e, State.teardown_root, State.endGroup_root, State.countNotify_root, State.writeBufout_root]

@[simp] theorem Drain.put_root (d : Drain) (ctx : Nat) (root : RootPart) (r : TraceRec) : (d.put ctx root r).s.root = d.s.root := by
  unfold Drain.put; simp only [State.putPa_root]

theorem drainRecs_root (ctx : Nat) (root : RootPart) (core : Option Nat) (l : List TraceRec) (d : Drain) :
    (drainRecs ctx root core l d).s.root = d.s.root := by
  induction l generalizing d with
  | nil => rfl
  | cons r l ih =>
    unfold drainRecs
    dsimp only
    (repeat' split) <;> simp only [ih, Drain.put_root]

@[simp] theorem State.drainCtx_root (s : State) (ctx : ℕ) (c : Context) (ring : Ring) : (State.drainCtx s ctx c ring).1.root =
    s.root := by
  unfold State.drainCtx
  dsimp only
  have hf : ∀ (l : List TraceSrc) (a : State × Ring × List TraceSrc),
      (l.foldl (fun (a : State × Ring × List TraceSrc) (x : TraceSrc) =>
        ((drainRecs ctx c.root x.core x.recs ⟨a.1, a.2.1, 0, 0, []⟩).s,
          (drainRecs ctx c.root x.core x.recs ⟨a.1, a.2.1, 0, 0, []⟩).ring,
          a.2.2 ++ [{ x with
            recs := (drainRecs ctx c.root x.core x.recs ⟨a.1, a.2.1, 0, 0, []⟩).left
            losses := x.losses + (drainRecs ctx c.root x.core x.recs ⟨a.1, a.2.1, 0, 0, []⟩).dropped }])) a).1.root = a.1.root := by
    intro l
    induction l with
    | nil => intro a; rfl
    | cons x l ih => intro a; rw [List.foldl_cons, ih]; exact drainRecs_root _ _ _ _ _
  split
  · dsimp only; rw [State.onMe_root, drainRecs_root]; dsimp only; rw [State.onCtx_root]; exact hf _ _
  · dsimp only; rw [State.onCtx_root]; exact hf _ _

@[simp] theorem State.dropTrace_root (s : State) (ctx : ℕ) : (State.dropTrace s ctx).root = s.root := by
  unfold State.dropTrace; simp only [apply_ite State.root, ite_self, root_mk, root_fold, foldl_root, implies_true,
      State.onCtx_root, State.onMe_root]

@[simp] theorem State.drainOwn_root (s : State) (ctx : ℕ) (c : Context) : (State.drainOwn s ctx c).root = s.root := by
  unfold State.drainOwn; simp only [apply_ite State.root, ite_self, root_mk, root_fold, foldl_root, implies_true,
      State.drainCtx_root, State.hbmPutVal_root]

@[simp] theorem State.drainFar_root (s : State) (ctx : ℕ) (c : Context) : (State.drainFar s ctx c).root = s.root := by
  unfold State.drainFar; dsimp only; (repeat' split) <;>
    repeat first
      | with_reducible rfl
      | assumption
      | (simp only [apply_ite State.root, ite_self, root_mk, root_fold, foldl_root, implies_true, State.onCtx_root,
          State.putPa_root, State.askPa_root, State.drainCtx_root, State.dropLines_root]; done)
      | simp only [apply_ite State.root, ite_self, root_mk, root_fold, foldl_root, implies_true, State.onCtx_root,
          State.putPa_root, State.askPa_root, State.drainCtx_root, State.dropLines_root]

theorem execMessidorDrain_root (s o9 : State) (hr : execMessidorDrain s = .next o9) : o9.root = s.root := by
  unfold execMessidorDrain at hr; grind -lia -ring -linarith -order -ac [State.root, Effect.Keeps, CmdEnd.Keeps, ofChk, Got.then,
      foldl_root, State.dropTrace_root, State.drainOwn_root, State.drainFar_root]

theorem execEccAggregate_root (ctx : BitVec 8) (s o9 : State) (hr : execEccAggregate ctx s = .next o9) : o9.root = s.root := by
  unfold execEccAggregate at hr; dsimp only at hr; (repeat' split at hr) <;> (try cases hr) <;>
    repeat first
      | with_reducible rfl
      | assumption
      | (simp only [apply_ite State.root, ite_self, root_mk, root_fold, foldl_root, implies_true, State.env_root]; done)
      | simp only [apply_ite State.root, ite_self, root_mk, root_fold, foldl_root, implies_true, State.env_root]

theorem execHostMemoryAccess_root (write : Bool) (addr : BitVec 42) (data : List Byte) (s o9 : State) (hr : execHostMemoryAccess
    write addr data s = .next o9) : o9.root = s.root := by
  unfold execHostMemoryAccess at hr; (repeat' split at hr) <;> (try cases hr) <;>
    repeat first
      | with_reducible rfl
      | assumption
      | (simp only [apply_ite State.root, ite_self, root_mk, root_fold, foldl_root, implies_true, State.hbmPut_root]; done)
      | simp only [apply_ite State.root, ite_self, root_mk, root_fold, foldl_root, implies_true, State.hbmPut_root]

theorem execThrottleStart_root (watts celsius : ℕ) (s o9 : State) (hr : execThrottleStart watts celsius s = .next o9) : o9.root =
    s.root := by
  unfold execThrottleStart at hr; (repeat' split at hr) <;> (try cases hr) <;>
    repeat first
      | with_reducible rfl
      | assumption
      | (simp only [apply_ite State.root, ite_self, root_mk, root_fold, foldl_root, implies_true, State.event_root]; done)
      | simp only [apply_ite State.root, ite_self, root_mk, root_fold, foldl_root, implies_true, State.event_root]

theorem execThrottleEnd_root (watts celsius : ℕ) (s o9 : State) (hr : execThrottleEnd watts celsius s = .next o9) : o9.root =
    s.root := by
  unfold execThrottleEnd at hr; (repeat' split at hr) <;> (try cases hr) <;>
    repeat first
      | with_reducible rfl
      | assumption
      | (simp only [apply_ite State.root, ite_self, root_mk, root_fold, foldl_root, implies_true, State.event_root]; done)
      | simp only [apply_ite State.root, ite_self, root_mk, root_fold, foldl_root, implies_true, State.event_root]

@[simp] theorem State.fenceAll_root (s : State) : (State.fenceAll s).root = s.root := by
  unfold State.fenceAll; simp only [apply_ite State.root, ite_self, root_mk, root_fold, foldl_root, implies_true,
      State.rerouted_root]

theorem execThermalTrip_root (celsius : ℕ) (s o9 : State) (hr : execThermalTrip celsius s = .next o9) : o9.root = s.root := by
  unfold execThermalTrip at hr; grind -lia -ring -linarith -order -ac [State.root, Effect.Keeps, CmdEnd.Keeps, ofChk, Got.then,
      foldl_root, State.stopCtx_root, State.event_root, State.fenceAll_root]

theorem State.spdmAnswer_root (s : State) (bs : List Byte) (o9 : State) (hr : State.spdmAnswer s bs = .next o9) : o9.root =
    s.root := by
  unfold State.spdmAnswer at hr; (repeat' split at hr) <;> (try cases hr) <;>
    repeat first
      | with_reducible rfl
      | assumption
      | (simp only [apply_ite State.root, ite_self, root_mk, root_fold, foldl_root, implies_true]; done)
      | simp only [apply_ite State.root, ite_self, root_mk, root_fold, foldl_root, implies_true]

theorem execGetVersion_root (s o9 : State) (hr : execGetVersion s = .next o9) : o9.root = s.root := by
  exact State.spdmAnswer_root (hr := hr) ..

theorem execGetCapabilities_root (s o9 : State) (hr : execGetCapabilities s = .next o9) : o9.root = s.root := by
  exact State.spdmAnswer_root (hr := hr) ..

theorem execNegotiateAlgorithms_root (s o9 : State) (hr : execNegotiateAlgorithms s = .next o9) : o9.root = s.root := by
  exact State.spdmAnswer_root (hr := hr) ..

theorem execGetDigests_root (s o9 : State) (hr : execGetDigests s = .next o9) : o9.root = s.root := by
  exact State.spdmAnswer_root (hr := hr) ..

theorem execGetCertificate_root (off len : BitVec 16) (s o9 : State) (hr : execGetCertificate off len s = .next o9) : o9.root =
    s.root := by
  exact State.spdmAnswer_root (hr := hr) ..

theorem execChallenge_root (nonce : BitVec 256) (s o9 : State) (hr : execChallenge nonce s = .next o9) : o9.root = s.root := by
  unfold execChallenge at hr; dsimp only at hr; (repeat' split at hr) <;> (try cases hr) <;>
    repeat first
      | with_reducible rfl
      | assumption
      | (simp only [apply_ite State.root, ite_self, root_mk, root_fold, foldl_root, implies_true, State.fresh_root]; done)
      | rw [State.spdmAnswer_root (hr := by assumption)]
      | simp only [apply_ite State.root, ite_self, root_mk, root_fold, foldl_root, implies_true, State.fresh_root]

theorem execGetMeasurements_root (index : BitVec 8) (s o9 : State) (hr : execGetMeasurements index s = .next o9) : o9.root =
    s.root := by
  unfold execGetMeasurements at hr; (repeat' split at hr) <;> (try cases hr) <;>
    repeat first
      | with_reducible rfl
      | assumption
      | (simp only [apply_ite State.root, ite_self, root_mk, root_fold, foldl_root, implies_true]; done)
      | rw [State.spdmAnswer_root (hr := by assumption)]
      | simp only [apply_ite State.root, ite_self, root_mk, root_fold, foldl_root, implies_true]

theorem execUnsupportedRequest_root (code : BitVec 8) (s o9 : State) (hr : execUnsupportedRequest code s = .next o9) : o9.root =
    s.root := by
  exact State.spdmAnswer_root (hr := hr) ..

theorem execMgmtRead_root (item : BitVec 8) (s o9 : State) (hr : execMgmtRead item s = .next o9) : o9.root = s.root := by
  unfold execMgmtRead at hr; (repeat' split at hr) <;> (try cases hr) <;>
    repeat first
      | with_reducible rfl
      | assumption
      | (simp only [apply_ite State.root, ite_self, root_mk, root_fold, foldl_root, implies_true]; done)
      | simp only [apply_ite State.root, ite_self, root_mk, root_fold, foldl_root, implies_true]

theorem State.enterPos_root (s : State) (e : Engine) (o9 : State) (hr : State.enterPos s e = some o9) : o9.root = s.root := by
  unfold State.enterPos at hr; (repeat' split at hr) <;> (try cases hr) <;>
    repeat first
      | with_reducible rfl
      | assumption
      | (simp only [apply_ite State.root, ite_self, root_mk, root_fold, foldl_root, implies_true, State.onMe_root,
          State.onEng_root]; done)
      | simp only [apply_ite State.root, ite_self, root_mk, root_fold, foldl_root, implies_true, State.onMe_root,
          State.onEng_root]

@[simp] theorem State.unclaimedTrap_root (s : State) : (State.unclaimedTrap s).root = s.root := by
  unfold State.unclaimedTrap; simp only [apply_ite State.root, ite_self, root_mk, root_fold, foldl_root, implies_true,
      State.takeTrap_root]

@[simp] theorem State.latchSub_root (s : State) (e : Engine) : (State.latchSub s e).root = s.root := by
  unfold State.latchSub; (repeat' split) <;> simp_all [apply_ite State.root, ite_self, root_mk, root_fold, foldl_root,
      implies_true, State.onEng_root]

@[simp] theorem State.charge_root (s : State) (ns : ℕ) (g : Group) : (State.charge s ns g).root = s.root := by
  unfold State.charge; simp only [apply_ite State.root, ite_self, root_mk, root_fold, foldl_root, implies_true, State.onCtx_root]

@[simp] theorem State.elapse_root (s : State) (ns : ℕ) : (State.elapse s ns).root = s.root := by
  unfold State.elapse; simp only [apply_ite State.root, ite_self, root_mk, root_fold, foldl_root, implies_true, State.charge_root]

@[simp] theorem State.rotate_root (s : State) : (State.rotate s).root = s.root := by
  unfold State.rotate; (repeat' split) <;> simp_all [apply_ite State.root, ite_self, root_mk, root_fold, foldl_root, implies_true]

@[simp] theorem State.observe_root (s : State) : (State.observe s).root = s.root := by
  unfold State.observe; simp only [apply_ite State.root, ite_self, root_mk, root_fold, foldl_root, implies_true,
      State.noteSealings_root, State.noteJoins_root, State.noteGrants_root, State.askLists_root, State.noteReady_root,
      State.noteOverrun_root]

@[simp] theorem State.endTurn_root (s : State) : (State.endTurn s).root = s.root := by
  unfold State.endTurn; simp only [apply_ite State.root, ite_self, root_mk, root_fold, foldl_root, implies_true,
      State.rotate_root, State.elapse_root]

@[simp] theorem State.withFetchWord_root (s : State) (nbits w : ℕ) : (State.withFetchWord s nbits w).root = s.root := by
  unfold State.withFetchWord; simp only [apply_ite State.root, ite_self, root_mk, root_fold, foldl_root, implies_true]

end Sys2Proof.Machine
end

