-- ==== Sys2Proof/Laws/RootStep.lean ====
section
/-! SUPPORT. Which steps leave the boot record, the part and PCAP alone: every row but the six of the platform that set them. -/

namespace Sys2Proof.Machine

/-- The rows that set the boot record or PCAP (26_platform R371 to R373, R376). -/
def setsRoot : Instr → Bool
  | .reset => true
  | .coldReset => true
  | .bootStage _ _ => true
  | .rollbackRaise _ => true
  | .pcapWrite _ => true
  | .bar0RegisterWrite _ _ => true
  | _ => false

/-- A row outside `setsRoot` leaves the root alone. -/
theorem exec_root (i : Instr) (s o : State) (hi : setsRoot i = false) (h : exec i s = .next o) : o.root = s.root := by
  cases i with
  | nopC _ => exact execNopC_root (hr := h) ..
  | add _ _ _ _ => exact execAdd_root (hr := h) ..
  | sub _ _ _ _ => exact execSub_root (hr := h) ..
  | mul _ _ _ _ => exact execMul_root (hr := h) ..
  | mulh _ _ _ _ => exact execMulh_root (hr := h) ..
  | mulhn _ _ _ _ => exact execMulhn_root (hr := h) ..
  | div _ _ _ _ => exact execDiv_root (hr := h) ..
  | divn _ _ _ _ => exact execDivn_root (hr := h) ..
  | rem _ _ _ _ => exact execRem_root (hr := h) ..
  | remn _ _ _ _ => exact execRemn_root (hr := h) ..
  | and _ _ _ _ => exact execAnd_root (hr := h) ..
  | or _ _ _ _ => exact execOr_root (hr := h) ..
  | xor _ _ _ _ => exact execXor_root (hr := h) ..
  | shl _ _ _ _ => exact execShl_root (hr := h) ..
  | shr _ _ _ _ => exact execShr_root (hr := h) ..
  | sar _ _ _ _ => exact execSar_root (hr := h) ..
  | slt _ _ _ _ => exact execSlt_root (hr := h) ..
  | sltn _ _ _ _ => exact execSltn_root (hr := h) ..
  | min _ _ _ _ => exact execMin_root (hr := h) ..
  | max _ _ _ _ => exact execMax_root (hr := h) ..
  | minn _ _ _ _ => exact execMinn_root (hr := h) ..
  | maxn _ _ _ _ => exact execMaxn_root (hr := h) ..
  | fsh _ _ _ _ _ => exact execFsh_root (hr := h) ..
  | sel _ _ _ _ _ => exact execSel_root (hr := h) ..
  | addi _ _ _ _ => exact execAddi_root (hr := h) ..
  | andi _ _ _ _ => exact execAndi_root (hr := h) ..
  | ori _ _ _ _ => exact execOri_root (hr := h) ..
  | xori _ _ _ _ => exact execXori_root (hr := h) ..
  | shli _ _ _ _ => exact execShli_root (hr := h) ..
  | shri _ _ _ _ => exact execShri_root (hr := h) ..
  | sari _ _ _ _ => exact execSari_root (hr := h) ..
  | slti _ _ _ _ => exact execSlti_root (hr := h) ..
  | ext _ _ _ _ _ => exact execExt_root (hr := h) ..
  | ins _ _ _ _ _ => exact execIns_root (hr := h) ..
  | clz _ _ _ => exact execClz_root (hr := h) ..
  | ctz _ _ _ => exact execCtz_root (hr := h) ..
  | popc _ _ _ => exact execPopc_root (hr := h) ..
  | lih _ _ _ => exact execLih_root (hr := h) ..
  | cmpCc _ _ _ _ _ => exact execCmpCc_root (hr := h) ..
  | cmpiCc _ _ _ _ _ => exact execCmpiCc_root (hr := h) ..
  | bCc _ _ _ _ _ => exact execBCc_root (hr := h) ..
  | bCcA _ _ _ _ _ => exact execBCcA_root (hr := h) ..
  | br _ _ => exact execBr_root (hr := h) ..
  | call _ _ => exact execCall_root (hr := h) ..
  | ret _ => exact execRet_root (hr := h) ..
  | jr _ _ => exact execJr_root (hr := h) ..
  | qpush _ _ _ => exact execQpush_root (hr := h) ..
  | qpop _ _ _ => exact execQpop_root (hr := h) ..
  | qpeek _ _ _ => exact execQpeek_root (hr := h) ..
  | qbind _ _ _ _ => exact execQbind_root (hr := h) ..
  | ld _ _ _ _ _ _ _ => exact execLd_root (hr := h) ..
  | st _ _ _ _ _ _ _ => exact execSt_root (hr := h) ..
  | xlate _ _ _ => exact execXlate_root (hr := h) ..
  | hdrop _ _ => exact execHdrop_root (hr := h) ..
  | hchk _ _ _ => exact execHchk_root (hr := h) ..
  | sealPages _ _ _ => exact execSealPages_root (hr := h) ..
  | unsealPages _ _ _ => exact execUnsealPages_root (hr := h) ..
  | bind _ _ _ => exact execBind_root (hr := h) ..
  | unbind _ _ => exact execUnbind_root (hr := h) ..
  | acq _ _ _ _ => exact execAcq_root (hr := h) ..
  | rel _ _ => exact execRel_root (hr := h) ..
  | fence _ _ => exact execFence_root (hr := h) ..
  | tlook _ _ _ => exact execTlook_root (hr := h) ..
  | tset _ _ _ _ _ => exact execTset_root (hr := h) ..
  | tclr _ _ _ => exact execTclr_root (hr := h) ..
  | aadd _ _ _ _ _ _ _ => exact execAadd_root (hr := h) ..
  | axchg _ _ _ _ _ _ => exact execAxchg_root (hr := h) ..
  | acas _ _ _ _ _ _ => exact execAcas_root (hr := h) ..
  | amin _ _ _ _ _ _ => exact execAmin_root (hr := h) ..
  | amax _ _ _ _ _ _ => exact execAmax_root (hr := h) ..
  | aand _ _ _ _ _ _ => exact execAand_root (hr := h) ..
  | aor _ _ _ _ _ _ => exact execAor_root (hr := h) ..
  | axor _ _ _ _ _ _ => exact execAxor_root (hr := h) ..
  | aincw _ _ _ _ _ _ => exact execAincw_root (hr := h) ..
  | afaddb _ _ _ _ _ _ _ => exact execAfaddb_root (hr := h) ..
  | ared _ _ _ _ => exact execAred_root (hr := h) ..
  | atclose _ => exact execAtclose_root (hr := h) ..
  | fset _ _ => exact execFset_root (hr := h) ..
  | fclr _ _ => exact execFclr_root (hr := h) ..
  | fwait _ _ _ => exact execFwait_root (hr := h) ..
  | ftest _ _ _ => exact execFtest_root (hr := h) ..
  | barjoin _ _ _ => exact execBarjoin_root (hr := h) ..
  | barwait _ _ _ => exact execBarwait_root (hr := h) ..
  | jobx _ _ => exact execJobx_root (hr := h) ..
  | hfold _ _ _ _ _ => exact execHfold_root (hr := h) ..
  | hscan _ _ _ _ _ => exact execHscan_root (hr := h) ..
  | hzip _ _ _ _ _ => exact execHzip_root (hr := h) ..
  | houter _ _ _ _ _ => exact execHouter_root (hr := h) ..
  | rdef _ _ _ => exact execRdef_root (hr := h) ..
  | rdrop _ _ => exact execRdrop_root (hr := h) ..
  | wqpost _ _ => exact execWqpost_root (hr := h) ..
  | wqarm _ _ _ => exact execWqarm_root (hr := h) ..
  | wqcancel _ _ => exact execWqcancel_root (hr := h) ..
  | wqstat _ _ _ => exact execWqstat_root (hr := h) ..
  | cntset _ _ _ => exact execCntset_root (hr := h) ..
  | cntadd _ _ _ _ => exact execCntadd_root (hr := h) ..
  | cntwait _ _ _ => exact execCntwait_root (hr := h) ..
  | cntread _ _ _ => exact execCntread_root (hr := h) ..
  | gencfg _ _ _ => exact execGencfg_root (hr := h) ..
  | geninv _ _ => exact execGeninv_root (hr := h) ..
  | gsr _ _ _ => exact execGsr_root (hr := h) ..
  | ssr _ _ _ => exact execSsr_root (hr := h) ..
  | trap _ _ _ => exact execTrap_root (hr := h) ..
  | rft _ _ => exact execRft_root (hr := h) ..
  | brk _ _ => exact execBrk_root (hr := h) ..
  | thset _ _ _ => exact execThset_root (hr := h) ..
  | engclaim _ => exact execEngclaim_root (hr := h) ..
  | engrel _ => exact execEngrel_root (hr := h) ..
  | timealign _ _ => exact execTimealign_root (hr := h) ..
  | erd _ _ _ => exact execErd_root (hr := h) ..
  | emov _ _ _ => exact execEmov_root (hr := h) ..
  | estore _ _ _ _ => exact execEstore_root (hr := h) ..
  | trace _ _ _ => exact execTrace_root (hr := h) ..
  | yield _ => exact execYield_root (hr := h) ..
  | halt _ => exact execHalt_root (hr := h) ..
  | iinv _ _ _ => exact execIinv_root (hr := h) ..
  | calset _ _ _ => exact execCalset_root (hr := h) ..
  | xswap _ _ _ => exact execXswap_root (hr := h) ..
  | nopV _ => exact execNopV_root (hr := h) ..
  | vadd _ _ _ _ _ _ => exact execVadd_root (hr := h) ..
  | vaddZq _ _ _ _ _ _ => exact execVaddZq_root (hr := h) ..
  | vsub _ _ _ _ _ _ => exact execVsub_root (hr := h) ..
  | vsubZq _ _ _ _ _ _ => exact execVsubZq_root (hr := h) ..
  | vmul _ _ _ _ _ _ => exact execVmul_root (hr := h) ..
  | vmulZq _ _ _ _ _ _ => exact execVmulZq_root (hr := h) ..
  | vfma _ _ _ _ _ => exact execVfma_root (hr := h) ..
  | vfmaZq _ _ _ _ _ => exact execVfmaZq_root (hr := h) ..
  | vmin _ _ _ _ _ => exact execVmin_root (hr := h) ..
  | vminZq _ _ _ _ _ => exact execVminZq_root (hr := h) ..
  | vmax _ _ _ _ _ => exact execVmax_root (hr := h) ..
  | vmaxZq _ _ _ _ _ => exact execVmaxZq_root (hr := h) ..
  | vabs _ _ _ _ _ => exact execVabs_root (hr := h) ..
  | vabsZq _ _ _ _ _ => exact execVabsZq_root (hr := h) ..
  | vneg _ _ _ _ _ => exact execVneg_root (hr := h) ..
  | vnegZq _ _ _ _ _ => exact execVnegZq_root (hr := h) ..
  | vand _ _ _ _ => exact execVand_root (hr := h) ..
  | vandZq _ _ _ _ => exact execVandZq_root (hr := h) ..
  | vor _ _ _ _ => exact execVor_root (hr := h) ..
  | vorZq _ _ _ _ => exact execVorZq_root (hr := h) ..
  | vxor _ _ _ _ => exact execVxor_root (hr := h) ..
  | vxorZq _ _ _ _ => exact execVxorZq_root (hr := h) ..
  | vnot _ _ _ => exact execVnot_root (hr := h) ..
  | vnotZq _ _ _ => exact execVnotZq_root (hr := h) ..
  | vshl _ _ _ _ _ => exact execVshl_root (hr := h) ..
  | vshlZq _ _ _ _ _ => exact execVshlZq_root (hr := h) ..
  | vshr _ _ _ _ _ => exact execVshr_root (hr := h) ..
  | vshrZq _ _ _ _ _ => exact execVshrZq_root (hr := h) ..
  | vsar _ _ _ _ _ => exact execVsar_root (hr := h) ..
  | vsarZq _ _ _ _ _ => exact execVsarZq_root (hr := h) ..
  | vsel _ _ _ _ _ => exact execVsel_root (hr := h) ..
  | vselZq _ _ _ _ _ => exact execVselZq_root (hr := h) ..
  | vcvt _ _ _ _ _ _ _ => exact execVcvt_root (hr := h) ..
  | vcvtZq _ _ _ _ _ _ _ => exact execVcvtZq_root (hr := h) ..
  | vclz _ _ _ _ => exact execVclz_root (hr := h) ..
  | vclzZq _ _ _ _ => exact execVclzZq_root (hr := h) ..
  | vpopc _ _ _ _ => exact execVpopc_root (hr := h) ..
  | vpopcZq _ _ _ _ => exact execVpopcZq_root (hr := h) ..
  | vext _ _ _ _ _ => exact execVext_root (hr := h) ..
  | vextZq _ _ _ _ _ => exact execVextZq_root (hr := h) ..
  | vins _ _ _ _ => exact execVins_root (hr := h) ..
  | vinsZq _ _ _ _ => exact execVinsZq_root (hr := h) ..
  | vfsh _ _ _ _ => exact execVfsh_root (hr := h) ..
  | vfshZq _ _ _ _ => exact execVfshZq_root (hr := h) ..
  | vperm _ _ _ _ => exact execVperm_root (hr := h) ..
  | vpermZq _ _ _ _ => exact execVpermZq_root (hr := h) ..
  | vbcast _ _ _ _ => exact execVbcast_root (hr := h) ..
  | vbcastZq _ _ _ _ => exact execVbcastZq_root (hr := h) ..
  | vlsh _ _ _ _ => exact execVlsh_root (hr := h) ..
  | vlshZq _ _ _ _ => exact execVlshZq_root (hr := h) ..
  | vred _ _ _ _ _ _ _ => exact execVred_root (hr := h) ..
  | vredZq _ _ _ _ _ _ _ => exact execVredZq_root (hr := h) ..
  | vscan _ _ _ _ _ _ _ => exact execVscan_root (hr := h) ..
  | vscanZq _ _ _ _ _ _ _ => exact execVscanZq_root (hr := h) ..
  | vgath _ _ _ _ _ => exact execVgath_root (hr := h) ..
  | vgathZq _ _ _ _ _ => exact execVgathZq_root (hr := h) ..
  | vscat _ _ _ _ _ => exact execVscat_root (hr := h) ..
  | vscatZq _ _ _ _ _ => exact execVscatZq_root (hr := h) ..
  | vlut _ _ _ _ _ => exact execVlut_root (hr := h) ..
  | vlutZq _ _ _ _ _ => exact execVlutZq_root (hr := h) ..
  | vrcp _ _ _ _ => exact execVrcp_root (hr := h) ..
  | vrcpZq _ _ _ _ => exact execVrcpZq_root (hr := h) ..
  | vrsq _ _ _ _ => exact execVrsq_root (hr := h) ..
  | vrsqZq _ _ _ _ => exact execVrsqZq_root (hr := h) ..
  | vexp2 _ _ _ _ => exact execVexp2_root (hr := h) ..
  | vexp2Zq _ _ _ _ => exact execVexp2Zq_root (hr := h) ..
  | vlog2 _ _ _ _ => exact execVlog2_root (hr := h) ..
  | vlog2Zq _ _ _ _ => exact execVlog2Zq_root (hr := h) ..
  | vatan _ _ _ _ _ _ => exact execVatan_root (hr := h) ..
  | vatanZq _ _ _ _ _ _ => exact execVatanZq_root (hr := h) ..
  | vsincos _ _ _ _ _ => exact execVsincos_root (hr := h) ..
  | vsincosZq _ _ _ _ _ => exact execVsincosZq_root (hr := h) ..
  | vnorm _ _ _ _ => exact execVnorm_root (hr := h) ..
  | vnormZq _ _ _ _ => exact execVnormZq_root (hr := h) ..
  | vsplit _ _ _ _ _ _ => exact execVsplit_root (hr := h) ..
  | vsplitZq _ _ _ _ _ _ => exact execVsplitZq_root (hr := h) ..
  | vmov _ _ _ => exact execVmov_root (hr := h) ..
  | vmovZq _ _ _ => exact execVmovZq_root (hr := h) ..
  | vtos _ _ _ => exact execVtos_root (hr := h) ..
  | vfroms _ _ _ => exact execVfroms_root (hr := h) ..
  | vaadd _ _ _ _ _ _ => exact execVaadd_root (hr := h) ..
  | vaaddZq _ _ _ _ _ _ => exact execVaaddZq_root (hr := h) ..
  | vcmpEq _ _ _ _ _ => exact execVcmpEq_root (hr := h) ..
  | vcmpEqZq _ _ _ _ _ => exact execVcmpEqZq_root (hr := h) ..
  | vcmpNe _ _ _ _ _ => exact execVcmpNe_root (hr := h) ..
  | vcmpNeZq _ _ _ _ _ => exact execVcmpNeZq_root (hr := h) ..
  | vcmpLt _ _ _ _ _ => exact execVcmpLt_root (hr := h) ..
  | vcmpLtZq _ _ _ _ _ => exact execVcmpLtZq_root (hr := h) ..
  | vcmpLe _ _ _ _ _ => exact execVcmpLe_root (hr := h) ..
  | vcmpLeZq _ _ _ _ _ => exact execVcmpLeZq_root (hr := h) ..
  | vcmpLtn _ _ _ _ _ => exact execVcmpLtn_root (hr := h) ..
  | vcmpLtnZq _ _ _ _ _ => exact execVcmpLtnZq_root (hr := h) ..
  | vcmpLen _ _ _ _ _ => exact execVcmpLen_root (hr := h) ..
  | vcmpLenZq _ _ _ _ _ => exact execVcmpLenZq_root (hr := h) ..
  | vli _ _ _ => exact execVli_root (hr := h) ..
  | mand _ _ _ _ => exact execMand_root (hr := h) ..
  | mor _ _ _ _ => exact execMor_root (hr := h) ..
  | mxor _ _ _ _ => exact execMxor_root (hr := h) ..
  | mnot _ _ _ => exact execMnot_root (hr := h) ..
  | mpopc _ _ _ => exact execMpopc_root (hr := h) ..
  | mfirst _ _ _ => exact execMfirst_root (hr := h) ..
  | nopL _ => exact execNopL_root (hr := h) ..
  | zbind _ _ _ _ => exact execZbind_root (hr := h) ..
  | zstart _ _ => exact execZstart_root (hr := h) ..
  | zstop _ _ => exact execZstop_root (hr := h) ..
  | zskip _ _ _ => exact execZskip_root (hr := h) ..
  | ldv _ _ _ _ => exact execLdv_root (hr := h) ..
  | streamFill _ => exact execStreamFill_root (hr := h) ..
  | nopM _ => exact execNopM_root (hr := h) ..
  | mload _ _ _ _ _ => exact execMload_root (hr := h) ..
  | mstore _ _ _ _ => exact execMstore_root (hr := h) ..
  | msweep _ _ _ _ _ _ _ _ _ => exact execMsweep_root (hr := h) ..
  | mderive _ _ _ _ _ _ => exact execMderive_root (hr := h) ..
  | mscale _ _ _ _ => exact execMscale_root (hr := h) ..
  | mpanel _ _ _ => exact execMpanel_root (hr := h) ..
  | mslice _ _ _ _ _ _ _ => exact execMslice_root (hr := h) ..
  | mcommit _ _ => exact execMcommit_root (hr := h) ..
  | mwaitb _ _ => exact execMwaitb_root (hr := h) ..
  | mretire _ _ _ _ _ _ _ => exact execMretire_root (hr := h) ..
  | mnorm _ _ _ _ => exact execMnorm_root (hr := h) ..
  | mclrWindow _ _ _ _ => exact execMclrWindow_root (hr := h) ..
  | mclrBank _ _ _ => exact execMclrBank_root (hr := h) ..
  | mstat _ _ _ _ => exact execMstat_root (hr := h) ..
  | mfence _ _ => exact execMfence_root (hr := h) ..
  | meshOperationComplete _ => exact execMeshOperationComplete_root (hr := h) ..
  | sweepSegmentEnd _ => exact execSweepSegmentEnd_root (hr := h) ..
  | batchWriteBack => exact execBatchWriteBack_root (hr := h) ..
  | nopS _ => exact execNopS_root (hr := h) ..
  | zdrain _ _ => exact execZdrain_root (hr := h) ..
  | stv _ _ _ _ => exact execStv_root (hr := h) ..
  | scvt _ _ _ _ _ => exact execScvt_root (hr := h) ..
  | samax _ _ _ _ _ => exact execSamax_root (hr := h) ..
  | vamaxr _ _ _ _ _ => exact execVamaxr_root (hr := h) ..
  | supd _ _ _ _ => exact execSupd_root (hr := h) ..
  | spair _ _ => exact execSpair_root (hr := h) ..
  | streamDrainWrite _ => exact execStreamDrainWrite_root (hr := h) ..
  | notify _ _ _ _ => exact execNotify_root (hr := h) ..
  | dictld _ _ _ => exact execDictld_root (hr := h) ..
  | bemEq _ _ _ _ _ => exact execBemEq_root (hr := h) ..
  | bemEqA _ _ _ _ _ => exact execBemEqA_root (hr := h) ..
  | bemNe _ _ _ _ _ => exact execBemNe_root (hr := h) ..
  | bemNeA _ _ _ _ _ => exact execBemNeA_root (hr := h) ..
  | bemLt _ _ _ _ _ => exact execBemLt_root (hr := h) ..
  | bemLtA _ _ _ _ _ => exact execBemLtA_root (hr := h) ..
  | bemLe _ _ _ _ _ => exact execBemLe_root (hr := h) ..
  | bemLeA _ _ _ _ _ => exact execBemLeA_root (hr := h) ..
  | bemLtn _ _ _ _ _ => exact execBemLtn_root (hr := h) ..
  | bemLtnA _ _ _ _ _ => exact execBemLtnA_root (hr := h) ..
  | bemLen _ _ _ _ _ => exact execBemLen_root (hr := h) ..
  | bemLenA _ _ _ _ _ => exact execBemLenA_root (hr := h) ..
  | blockHeader _ _ => exact execBlockHeader_root (hr := h) ..
  | blockHeaderReg _ _ => exact execBlockHeaderReg_root (hr := h) ..
  | blockEnd _ => exact execBlockEnd_root (hr := h) ..
  | timedNop _ => exact execTimedNop_root (hr := h) ..
  | dictionaryReference _ => exact execDictionaryReference_root (hr := h) ..
  | variableLatencyArrival _ _ => exact execVariableLatencyArrival_root (hr := h) ..
  | interrupt => exact execInterrupt_root (hr := h) ..
  | routineFault _ => exact execRoutineFault_root (hr := h) ..
  | debugStop => exact execDebugStop_root (hr := h) ..
  | debugResume => exact execDebugResume_root (hr := h) ..
  | jobStart _ => exact execJobStart_root (hr := h) ..
  | copyChunkComplete _ => exact execCopyChunkComplete_root (hr := h) ..
  | jobComplete _ => exact execJobComplete_root (hr := h) ..
  | firingStart _ _ => exact execFiringStart_root (hr := h) ..
  | firingLocalComplete _ _ => exact execFiringLocalComplete_root (hr := h) ..
  | firingTimeout _ _ => exact execFiringTimeout_root (hr := h) ..
  | firingRecordExpiry _ _ _ => exact execFiringRecordExpiry_root (hr := h) ..
  | create _ => exact execCreate_root (hr := h) ..
  | destroy _ => exact execDestroy_root (hr := h) ..
  | replenish _ => exact execReplenish_root (hr := h) ..
  | ctxRead _ => exact execCtxRead_root (hr := h) ..
  | contextFrozen _ => exact execContextFrozen_root (hr := h) ..
  | contextDrained _ => exact execContextDrained_root (hr := h) ..
  | enable _ => exact execEnable_root (hr := h) ..
  | disable _ => exact execDisable_root (hr := h) ..
  | resume _ => exact execResume_root (hr := h) ..
  | flush _ => exact execFlush_root (hr := h) ..
  | queueRead _ => exact execQueueRead_root (hr := h) ..
  | launch _ => exact execLaunch_root (hr := h) ..
  | step _ => exact execStep_root (hr := h) ..
  | wait _ => exact execWait_root (hr := h) ..
  | waitConditionHolds _ _ => exact execWaitConditionHolds_root (hr := h) ..
  | signalEntry _ => exact execSignalEntry_root (hr := h) ..
  | hostnote _ => exact execHostnote_root (hr := h) ..
  | entryCompletion _ _ => exact execEntryCompletion_root (hr := h) ..
  | serviceOpportunity => exact execServiceOpportunity_root (hr := h) ..
  | placementComplete _ _ => exact execPlacementComplete_root (hr := h) ..
  | kernelTriggerMet _ => exact execKernelTriggerMet_root (hr := h) ..
  | combinerCompletion => exact execCombinerCompletion_root (hr := h) ..
  | preemption => exact execPreemption_root (hr := h) ..
  | hangDetected => exact execHangDetected_root (hr := h) ..
  | calendarReservation _ _ => exact execCalendarReservation_root (hr := h) ..
  | calendarStart _ _ => exact execCalendarStart_root (hr := h) ..
  | configure _ => exact execConfigure_root (hr := h) ..
  | remove _ => exact execRemove_root (hr := h) ..
  | barrierReset _ => exact execBarrierReset_root (hr := h) ..
  | barrierRead _ => exact execBarrierRead_root (hr := h) ..
  | barrierReleaseTick _ _ => exact execBarrierReleaseTick_root (hr := h) ..
  | qpopen _ => exact execQpopen_root (hr := h) ..
  | qpclose _ => exact execQpclose_root (hr := h) ..
  | qpread _ => exact execQpread_root (hr := h) ..
  | portfence _ => exact execPortfence_root (hr := h) ..
  | portunfence _ => exact execPortunfence_root (hr := h) ..
  | route _ => exact execRoute_root (hr := h) ..
  | portread _ => exact execPortread_root (hr := h) ..
  | timecfg _ => exact execTimecfg_root (hr := h) ..
  | qpConnectRetry _ => exact execQpConnectRetry_root (hr := h) ..
  | qpClosed _ => exact execQpClosed_root (hr := h) ..
  | portTrained _ _ => exact execPortTrained_root (hr := h) ..
  | trainingTimeout _ => exact execTrainingTimeout_root (hr := h) ..
  | trainingRetry _ => exact execTrainingRetry_root (hr := h) ..
  | laneFailure _ => exact execLaneFailure_root (hr := h) ..
  | fenceDrainTimeout _ => exact execFenceDrainTimeout_root (hr := h) ..
  | flitReceive _ _ _ _ _ => exact execFlitReceive_root (hr := h) ..
  | rdreq _ _ => exact execRdreq_root (hr := h) ..
  | rdrsp _ _ => exact execRdrsp_root (hr := h) ..
  | wrreq _ _ => exact execWrreq_root (hr := h) ..
  | atreq _ _ => exact execAtreq_root (hr := h) ..
  | atrsp _ _ => exact execAtrsp_root (hr := h) ..
  | wrack _ _ => exact execWrack_root (hr := h) ..
  | fire _ _ => exact execFire_root (hr := h) ..
  | fack _ _ => exact execFack_root (hr := h) ..
  | ctrl _ _ => exact execCtrl_root (hr := h) ..
  | time _ _ => exact execTime_root (hr := h) ..
  | forwardResend _ => exact execForwardResend_root (hr := h) ..
  | forwardFailure _ => exact execForwardFailure_root (hr := h) ..
  | homeRecordExpiry _ _ => exact execHomeRecordExpiry_root (hr := h) ..
  | datagramReceive _ _ _ _ => exact execDatagramReceive_root (hr := h) ..
  | ethResendTimeout _ => exact execEthResendTimeout_root (hr := h) ..
  | timePacketSend => exact execTimePacketSend_root (hr := h) ..
  | holdoverEntry => exact execHoldoverEntry_root (hr := h) ..
  | slewEnd => exact execSlewEnd_root (hr := h) ..
  | migrate _ => exact execMigrate_root (hr := h) ..
  | migrationCopyDone _ => exact execMigrationCopyDone_root (hr := h) ..
  | duplicate _ => exact execDuplicate_root (hr := h) ..
  | hold _ => exact execHold_root (hr := h) ..
  | unhold _ => exact execUnhold_root (hr := h) ..
  | unmap _ => exact execUnmap_root (hr := h) ..
  | zerocnt _ => exact execZerocnt_root (hr := h) ..
  | lend _ => exact execLend_root (hr := h) ..
  | borrow _ => exact execBorrow_root (hr := h) ..
  | revoke _ => exact execRevoke_root (hr := h) ..
  | leaseDeadline _ _ => exact execLeaseDeadline_root (hr := h) ..
  | accWriteback _ _ => exact execAccWriteback_root (hr := h) ..
  | messidorDrain => exact execMessidorDrain_root (hr := h) ..
  | eccAggregate _ => exact execEccAggregate_root (hr := h) ..
  | reset => exact absurd hi (by simp [setsRoot])
  | bootStage _ _ => exact absurd hi (by simp [setsRoot])
  | rollbackRaise _ => exact absurd hi (by simp [setsRoot])
  | hostMemoryAccess _ _ _ => exact execHostMemoryAccess_root (hr := h) ..
  | bar0RegisterWrite _ _ => exact absurd hi (by simp [setsRoot])
  | pcapWrite _ => exact absurd hi (by simp [setsRoot])
  | throttleStart _ _ => exact execThrottleStart_root (hr := h) ..
  | throttleEnd _ _ => exact execThrottleEnd_root (hr := h) ..
  | thermalTrip _ => exact execThermalTrip_root (hr := h) ..
  | getVersion => exact execGetVersion_root (hr := h) ..
  | getCapabilities => exact execGetCapabilities_root (hr := h) ..
  | negotiateAlgorithms => exact execNegotiateAlgorithms_root (hr := h) ..
  | getDigests => exact execGetDigests_root (hr := h) ..
  | getCertificate _ _ => exact execGetCertificate_root (hr := h) ..
  | challenge _ => exact execChallenge_root (hr := h) ..
  | getMeasurements _ => exact execGetMeasurements_root (hr := h) ..
  | unsupportedRequest _ => exact execUnsupportedRequest_root (hr := h) ..
  | mgmtRead _ => exact execMgmtRead_root (hr := h) ..
  | coldReset => exact absurd hi (by simp [setsRoot])
  | unassignedItem _ => exact execUnassignedItem_root (hr := h) ..
  | badcmd _ _ => exact execBadcmd_root (hr := h) ..
  | meshVectorAppended _ => exact execMeshVectorAppended_root (hr := h) ..
  | slicePairBoundary _ => exact execSlicePairBoundary_root (hr := h) ..
  | duplicateCopyDone _ => exact execDuplicateCopyDone_root (hr := h) ..
  | swapExchangeComplete => exact execSwapExchangeComplete_root (hr := h) ..
  | podTimeReached => exact execPodTimeReached_root (hr := h) ..

theorem runDecoded_root (e : Engine) (d : Decoded) (s o : State) (hd : ∀ i, d = .ok i → setsRoot i = false)
    (h : runDecoded e d s = .next o) : o.root = s.root := by
  cases d with
  | ok i => exact exec_root i s o (hd i rfl) h
  | illegal => exact trapItem_root (hr := h) ..
  | reserved => exact trapItem_root (hr := h) ..
  | header len => exact trapHeader_root (hr := h) ..

end Sys2Proof.Machine
end

