-- ==== Sys2Proof/Laws/Async.lean ====
section
/-! SUPPORT. Every event of Machine/Async.lean is a row of the opcode table without words, and none sets the boot record or PCAP. -/

namespace Sys2Proof.Machine

/-- A list of meanings of event rows. -/
def AllRows (l : List Act) : Prop := ∀ a ∈ l, ∃ i, encode i = none ∧ setsRoot i = false ∧ a = exec i

theorem AllRows.nil : AllRows [] := by
  intro a h; cases h

theorem AllRows.append {l m : List Act} (hl : AllRows l) (hm : AllRows m) : AllRows (l ++ m) := by
  intro a h
  rcases List.mem_append.1 h with h | h
  · exact hl a h
  · exact hm a h

theorem AllRows.flatMap {α : Type} (l : List α) (f : α → List Act) (h : ∀ x, AllRows (f x)) : AllRows (l.flatMap f) := by
  intro a ha
  obtain ⟨x, _, hx⟩ := List.mem_flatMap.1 ha
  exact h x a hx

theorem AllRows.one (b : Bool) (i : Instr) (he : encode i = none) (hr : setsRoot i = false) : AllRows (when_ b (exec i)) := by
  intro a h
  unfold when_ at h
  split at h
  · exact ⟨i, he, hr, List.mem_singleton.1 h⟩
  · cases h

theorem AllRows.ite (b : Bool) {l m : List Act} (hl : AllRows l) (hm : AllRows m) : AllRows (if b then l else m) := by
  split <;> assumption

theorem unitEvents_rows (s : State) : AllRows s.unitEvents := by
  refine .append (.append (.one _ .interrupt rfl rfl) ?_) (.flatMap _ _ fun z => .append
    (.one _ (.streamFill (BitVec.ofNat 4 z)) rfl rfl) (.one _ (.streamDrainWrite (BitVec.ofNat 4 z)) rfl rfl))
  intro a h
  obtain ⟨e, _, he⟩ := List.mem_filterMap.1 h
  obtain ⟨n, _, rfl⟩ := Option.map_eq_some_iff.1 he
  exact ⟨.variableLatencyArrival (BitVec.ofNat 3 e.tag) n, rfl, rfl, rfl⟩

theorem meshEvents_rows (s : State) : AllRows s.meshEvents :=
  .ite _ .nil (.append (.flatMap _ _ fun o => .append (.append (.append (.one _ (.meshVectorAppended o.id) rfl rfl)
    (.one _ (.slicePairBoundary o.id) rfl rfl)) (.one _ (.sweepSegmentEnd o.id) rfl rfl))
    (.one _ (.meshOperationComplete o.id) rfl rfl)) (.one _ .batchWriteBack rfl rfl))

theorem jobEvents_rows (s : State) : AllRows s.jobEvents :=
  .flatMap _ _ fun j => .append (.append (.append (.one _ (.jobStart j.num) rfl rfl) (.one _ (.copyChunkComplete j.num) rfl rfl))
    (.one _ (.jobComplete j.num) rfl rfl)) (.one _ (.routineFault j.num) rfl rfl)

theorem groupEvents_rows (s : State) : AllRows s.groupEvents :=
  .ite _ (.append (.append (.append (.append (.append (unitEvents_rows s) (meshEvents_rows s)) (jobEvents_rows s))
    (.one _ .combinerCompletion rfl rfl)) (.one _ .preemption rfl rfl)) (.one _ .hangDetected rfl rfl)) .nil

theorem bellAct_row (b : Bell) (op : Nat) (cmd : BitVec 52) :
    ∃ i, encode i = none ∧ setsRoot i = false ∧ bellAct b op cmd = exec i := by
  unfold bellAct
  split
  · exact ⟨.create cmd, rfl, rfl, rfl⟩
  · exact ⟨.destroy cmd, rfl, rfl, rfl⟩
  · exact ⟨.replenish cmd, rfl, rfl, rfl⟩
  · exact ⟨.ctxRead cmd, rfl, rfl, rfl⟩
  · exact ⟨.enable cmd, rfl, rfl, rfl⟩
  · exact ⟨.disable cmd, rfl, rfl, rfl⟩
  · exact ⟨.resume cmd, rfl, rfl, rfl⟩
  · exact ⟨.flush cmd, rfl, rfl, rfl⟩
  · exact ⟨.queueRead cmd, rfl, rfl, rfl⟩
  · exact ⟨.configure cmd, rfl, rfl, rfl⟩
  · exact ⟨.remove cmd, rfl, rfl, rfl⟩
  · exact ⟨.barrierReset cmd, rfl, rfl, rfl⟩
  · exact ⟨.barrierRead cmd, rfl, rfl, rfl⟩
  · exact ⟨.qpopen cmd, rfl, rfl, rfl⟩
  · exact ⟨.qpclose cmd, rfl, rfl, rfl⟩
  · exact ⟨.qpread cmd, rfl, rfl, rfl⟩
  · exact ⟨.portfence cmd, rfl, rfl, rfl⟩
  · exact ⟨.portunfence cmd, rfl, rfl, rfl⟩
  · exact ⟨.route cmd, rfl, rfl, rfl⟩
  · exact ⟨.portread cmd, rfl, rfl, rfl⟩
  · exact ⟨.timecfg cmd, rfl, rfl, rfl⟩
  · exact ⟨.migrate cmd, rfl, rfl, rfl⟩
  · exact ⟨.duplicate cmd, rfl, rfl, rfl⟩
  · exact ⟨.hold cmd, rfl, rfl, rfl⟩
  · exact ⟨.unhold cmd, rfl, rfl, rfl⟩
  · exact ⟨.unmap cmd, rfl, rfl, rfl⟩
  · exact ⟨.zerocnt cmd, rfl, rfl, rfl⟩
  · exact ⟨.lend cmd, rfl, rfl, rfl⟩
  · exact ⟨.borrow cmd, rfl, rfl, rfl⟩
  · exact ⟨.revoke cmd, rfl, rfl, rfl⟩
  · exact ⟨.badcmd 0 cmd, rfl, rfl, rfl⟩
  · exact ⟨.badcmd 1 cmd, rfl, rfl, rfl⟩
  · exact ⟨.badcmd 2 cmd, rfl, rfl, rfl⟩
  · exact ⟨.badcmd 3 cmd, rfl, rfl, rfl⟩
  · exact ⟨.badcmd 4 cmd, rfl, rfl, rfl⟩

theorem bellEvents_rows (s : State) : AllRows s.bellEvents := by
  unfold State.bellEvents
  split
  · exact .nil
  · rename_i b cmd _ _
    obtain ⟨i, h1, h2, h3⟩ := bellAct_row b (recField (s.cmdBytes cmd) 0 1) (BitVec.ofNat 52 cmd)
    dsimp only
    rw [h3]; exact .one _ i h1 h2

theorem queueEvents_rows (s : State) : AllRows s.queueEvents :=
  .flatMap _ _ fun q => .append (.one _ (.launch (BitVec.ofNat 10 q.1)) rfl rfl) (.flatMap _ _ fun e => .append
    (.one _ (.waitConditionHolds (BitVec.ofNat 10 q.1) e.index) rfl rfl) (.one _ (.entryCompletion (BitVec.ofNat 10 q.1) e.index) rfl rfl))

theorem launchEvents_rows (s : State) : AllRows s.launchEvents :=
  .append (.append (.append (.append (.flatMap _ _ fun l => .one _ (.kernelTriggerMet l.id) rfl rfl)
    (.flatMap _ _ fun g => .one _ (.placementComplete g.ident.launch g.ident.cluster) rfl rfl))
    (.flatMap _ _ fun e => .one _ (.calendarReservation (BitVec.ofNat 64 e.kdesc) (BitVec.ofNat 64 e.tick)) rfl rfl))
    (.flatMap _ _ fun l => .one _ (.calendarStart (BitVec.ofNat 64 l.kva) (BitVec.ofNat 64 (l.tick.getD 0))) rfl rfl))
    (.one _ .serviceOpportunity rfl rfl)

theorem ctxEvents_rows (s : State) : AllRows s.ctxEvents :=
  .append (.flatMap _ _ fun c => .append (.append (.append (.append (.append
    (.one _ (.contextFrozen (BitVec.ofNat 8 c.1)) rfl rfl) (.one _ (.contextDrained (BitVec.ofNat 8 c.1)) rfl rfl))
    (.flatMap _ _ fun x => .append (.append (.one _ (.firingStart (BitVec.ofNat 8 c.1) (BitVec.ofNat 12 x.1)) rfl rfl)
      (.one _ (.firingLocalComplete (BitVec.ofNat 8 c.1) (BitVec.ofNat 12 x.1)) rfl rfl))
      (.one _ (.firingTimeout (BitVec.ofNat 8 c.1) (BitVec.ofNat 12 x.1)) rfl rfl)))
    (.flatMap _ _ fun b => .one _ (.barrierReleaseTick (BitVec.ofNat 8 c.1) (BitVec.ofNat 12 b.1)) rfl rfl))
    (.flatMap _ _ fun a => .one _ (.accWriteback (BitVec.ofNat 8 c.1) (BitVec.ofNat 52 a.entry)) rfl rfl))
    (.one _ (.eccAggregate (BitVec.ofNat 8 c.1)) rfl rfl)) (.one _ .messidorDrain rfl rfl)

theorem linkEvents_rows (s : State) : AllRows s.linkEvents :=
  .append (.append (.append (.flatMap _ _ fun p => .append (.append (.one _ (.trainingTimeout p.num) rfl rfl)
    (.one _ (.trainingRetry p.num) rfl rfl)) (.one _ (.fenceDrainTimeout p.num) rfl rfl))
    (.flatMap _ _ fun q => .append (.append (.append (.one _ (.qpConnectRetry (BitVec.ofNat 12 q.num)) rfl rfl)
      (.one _ (.qpClosed (BitVec.ofNat 12 q.num)) rfl rfl)) (.one _ (.ethResendTimeout (BitVec.ofNat 12 q.num)) rfl rfl))
      (.flatMap _ _ fun r => .one _ (.firingRecordExpiry (BitVec.ofNat 12 q.num) (BitVec.ofNat 12 r.slot) r.firing) rfl rfl)))
    (.flatMap _ _ fun f => .append (.one _ (.forwardResend (BitVec.ofNat 32 f.tag)) rfl rfl)
      (.one _ (.forwardFailure (BitVec.ofNat 32 f.tag)) rfl rfl)))
    (.flatMap _ _ fun r => .one _ (.homeRecordExpiry (BitVec.ofNat 10 r.smod) (BitVec.ofNat 32 r.tag)) rfl rfl)

theorem pageEvents_rows (s : State) : AllRows s.pageEvents :=
  .append (.append (.append (.append (.append (.append (.flatMap _ _ fun o => .append
    (.one _ (.migrationCopyDone (BitVec.ofNat 52 o.cmd)) rfl rfl) (.one _ (.duplicateCopyDone (BitVec.ofNat 52 o.cmd)) rfl rfl))
    (.flatMap _ _ fun l => .one _ (.leaseDeadline (BitVec.ofNat 8 l.ctx) (BitVec.ofNat 64 l.va)) rfl rfl))
    (.flatMap _ _ fun b => .one _ (.leaseDeadline (BitVec.ofNat 8 b.ctx) (BitVec.ofNat 64 b.va)) rfl rfl))
    (.one _ .swapExchangeComplete rfl rfl)) (.one _ .timePacketSend rfl rfl)) (.one _ .holdoverEntry rfl rfl)) (.one _ .slewEnd rfl rfl)

/-- Every event is `exec` of a row without words. -/
theorem events_rows (s : State) : AllRows s.events :=
  .append (.append (.append (.append (.append (.append (groupEvents_rows s) (bellEvents_rows s)) (queueEvents_rows s))
    (launchEvents_rows s)) (ctxEvents_rows s)) (linkEvents_rows s)) (pageEvents_rows s)

/-- The event that a turn takes is `exec` of a row without words. -/
theorem nextEvent_row (s : State) (a : Act) (h : s.nextEvent = some a) : ∃ i, encode i = none ∧ setsRoot i = false ∧ a = exec i :=
  events_rows s a (List.mem_of_getElem? h)

end Sys2Proof.Machine
end

