-- ==== Sys2Proof/Laws/Decode.lean ====
section
/-! SUPPORT. The decoder gives only instructions that have words: an event row is never decoded (04_encoding R48 to R70). -/

namespace Sys2Proof

/-- A decoding that is an instruction with words, or none. -/
def Decoded.HasWord : Decoded → Prop
  | .ok i => (encode i).isSome = true
  | _ => True

theorem hasWord_row (z : Bool) (i : Instr) (h : (encode i).isSome = true) : (rowOf z i).HasWord := by
  unfold rowOf; cases z
  · exact trivial
  · exact h

theorem hasWord_ite (c : Prop) [Decidable c] (a b : Decoded) (ha : a.HasWord) (hb : b.HasWord) : (if c then a else b).HasWord := by
  split <;> assumption

theorem decodeSys_hasWord (w : Nat) : (decodeSys w).HasWord := by
  unfold decodeSys
  have hx : fld w 0 5 < 32 := Nat.mod_lt _ (by decide)
  generalize fld w 0 5 = x at *
  interval_cases x
  · exact trivial
  · exact hasWord_row _ _ rfl
  · exact hasWord_row _ _ rfl
  · exact hasWord_row _ _ rfl
  · exact hasWord_row _ _ rfl
  · exact hasWord_row _ _ rfl
  · exact hasWord_row _ _ rfl
  · exact hasWord_row _ _ rfl
  · exact hasWord_row _ _ rfl
  · exact hasWord_row _ _ rfl
  · exact hasWord_row _ _ rfl
  · exact hasWord_row _ _ rfl
  · exact hasWord_row _ _ rfl
  · exact hasWord_row _ _ rfl
  · exact hasWord_row _ _ rfl
  · exact hasWord_row _ _ rfl
  · exact hasWord_row _ _ rfl
  · exact trivial
  · exact trivial
  · exact trivial
  · exact trivial
  · exact trivial
  · exact trivial
  · exact trivial
  · exact trivial
  · exact trivial
  · exact trivial
  · exact trivial
  · exact trivial
  · exact trivial
  · exact trivial
  · exact trivial

theorem decodeC_hasWord (w : Nat) : (decodeC w).HasWord := by
  unfold decodeC
  have hx : fld w 22 7 < 128 := Nat.mod_lt _ (by decide)
  generalize fld w 22 7 = x at *
  interval_cases x
  · exact trivial
  · exact hasWord_row _ _ rfl
  · exact hasWord_row _ _ rfl
  · exact hasWord_row _ _ rfl
  · exact hasWord_row _ _ rfl
  · exact hasWord_row _ _ rfl
  · exact hasWord_row _ _ rfl
  · exact hasWord_row _ _ rfl
  · exact hasWord_row _ _ rfl
  · exact hasWord_row _ _ rfl
  · exact hasWord_row _ _ rfl
  · exact hasWord_row _ _ rfl
  · exact hasWord_row _ _ rfl
  · exact hasWord_row _ _ rfl
  · exact hasWord_row _ _ rfl
  · exact hasWord_row _ _ rfl
  · exact hasWord_row _ _ rfl
  · exact hasWord_row _ _ rfl
  · exact hasWord_row _ _ rfl
  · exact hasWord_row _ _ rfl
  · exact hasWord_row _ _ rfl
  · exact hasWord_row _ _ rfl
  · exact hasWord_row _ _ rfl
  · exact rfl
  · exact hasWord_row _ _ rfl
  · exact rfl
  · exact rfl
  · exact rfl
  · exact rfl
  · exact hasWord_row _ _ rfl
  · exact hasWord_row _ _ rfl
  · exact hasWord_row _ _ rfl
  · exact rfl
  · exact rfl
  · exact rfl
  · exact hasWord_row _ _ rfl
  · exact hasWord_row _ _ rfl
  · exact hasWord_row _ _ rfl
  · exact rfl
  · exact hasWord_row _ _ rfl
  · exact hasWord_row _ _ rfl
  · exact hasWord_row _ _ rfl
  · exact hasWord_row _ _ rfl
  · exact hasWord_row _ _ rfl
  · exact hasWord_row _ _ rfl
  · exact hasWord_row _ _ rfl
  · exact trivial
  · exact trivial
  · exact rfl
  · exact rfl
  · exact rfl
  · exact rfl
  · exact rfl
  · exact rfl
  · exact rfl
  · exact rfl
  · exact rfl
  · exact rfl
  · exact rfl
  · exact rfl
  · exact rfl
  · exact rfl
  · exact hasWord_row _ _ rfl
  · exact hasWord_row _ _ rfl
  · exact hasWord_row _ _ rfl
  · exact hasWord_row _ _ rfl
  · exact hasWord_row _ _ rfl
  · exact hasWord_row _ _ rfl
  · exact rfl
  · exact rfl
  · exact hasWord_row _ _ rfl
  · exact hasWord_row _ _ rfl
  · exact hasWord_row _ _ rfl
  · exact hasWord_row _ _ rfl
  · exact hasWord_row _ _ rfl
  · exact hasWord_row _ _ rfl
  · exact hasWord_row _ _ rfl
  · exact hasWord_row _ _ rfl
  · exact hasWord_row _ _ rfl
  · exact hasWord_row _ _ rfl
  · exact hasWord_row _ _ rfl
  · exact hasWord_row _ _ rfl
  · exact hasWord_row _ _ rfl
  · exact hasWord_row _ _ rfl
  · exact hasWord_row _ _ rfl
  · exact hasWord_row _ _ rfl
  · exact hasWord_row _ _ rfl
  · exact hasWord_row _ _ rfl
  · exact hasWord_row _ _ rfl
  · exact hasWord_row _ _ rfl
  · exact hasWord_row _ _ rfl
  · exact hasWord_row _ _ rfl
  · exact hasWord_row _ _ rfl
  · exact hasWord_ite _ _ _ trivial (hasWord_row _ _ rfl)
  · exact hasWord_row _ _ rfl
  · exact hasWord_row _ _ rfl
  · exact hasWord_row _ _ rfl
  · exact hasWord_row _ _ rfl
  · exact hasWord_row _ _ rfl
  · exact hasWord_row _ _ rfl
  · exact hasWord_row _ _ rfl
  · exact hasWord_row _ _ rfl
  · exact hasWord_row _ _ rfl
  · exact hasWord_row _ _ rfl
  · exact hasWord_row _ _ rfl
  · exact hasWord_row _ _ rfl
  · exact hasWord_row _ _ rfl
  · exact hasWord_row _ _ rfl
  · exact hasWord_row _ _ rfl
  · exact hasWord_row _ _ rfl
  · exact hasWord_row _ _ rfl
  · exact hasWord_row _ _ rfl
  · exact hasWord_row _ _ rfl
  · exact hasWord_row _ _ rfl
  · exact hasWord_row _ _ rfl
  · exact hasWord_row _ _ rfl
  · exact hasWord_row _ _ rfl
  · exact hasWord_row _ _ rfl
  · exact hasWord_row _ _ rfl
  · exact hasWord_row _ _ rfl
  · exact trivial
  · exact trivial
  · exact trivial
  · exact trivial
  · exact trivial
  · exact trivial
  · exact trivial
  · exact decodeSys_hasWord w

theorem decodeL_hasWord (w : Nat) : (decodeL w).HasWord := by
  unfold decodeL
  have hx : fld w 22 7 < 128 := Nat.mod_lt _ (by decide)
  generalize fld w 22 7 = x at *
  interval_cases x
  · exact trivial
  · exact hasWord_row _ _ rfl
  · exact hasWord_ite _ _ _ trivial (hasWord_row _ _ rfl)
  · exact hasWord_row _ _ rfl
  · exact hasWord_row _ _ rfl
  · exact hasWord_row _ _ rfl
  · exact hasWord_row _ _ rfl
  · exact trivial
  · exact trivial
  · exact trivial
  · exact trivial
  · exact trivial
  · exact trivial
  · exact trivial
  · exact trivial
  · exact trivial
  · exact trivial
  · exact trivial
  · exact trivial
  · exact trivial
  · exact trivial
  · exact trivial
  · exact trivial
  · exact trivial
  · exact trivial
  · exact trivial
  · exact trivial
  · exact trivial
  · exact trivial
  · exact trivial
  · exact trivial
  · exact trivial
  · exact trivial
  · exact trivial
  · exact trivial
  · exact trivial
  · exact trivial
  · exact trivial
  · exact trivial
  · exact trivial
  · exact trivial
  · exact trivial
  · exact trivial
  · exact trivial
  · exact trivial
  · exact trivial
  · exact trivial
  · exact trivial
  · exact trivial
  · exact trivial
  · exact trivial
  · exact trivial
  · exact trivial
  · exact trivial
  · exact trivial
  · exact trivial
  · exact trivial
  · exact trivial
  · exact trivial
  · exact trivial
  · exact trivial
  · exact trivial
  · exact trivial
  · exact trivial
  · exact trivial
  · exact trivial
  · exact trivial
  · exact trivial
  · exact trivial
  · exact trivial
  · exact trivial
  · exact trivial
  · exact trivial
  · exact trivial
  · exact trivial
  · exact trivial
  · exact trivial
  · exact trivial
  · exact trivial
  · exact trivial
  · exact trivial
  · exact trivial
  · exact trivial
  · exact trivial
  · exact trivial
  · exact trivial
  · exact trivial
  · exact trivial
  · exact trivial
  · exact trivial
  · exact trivial
  · exact trivial
  · exact trivial
  · exact trivial
  · exact trivial
  · exact trivial
  · exact trivial
  · exact trivial
  · exact trivial
  · exact trivial
  · exact trivial
  · exact trivial
  · exact trivial
  · exact trivial
  · exact trivial
  · exact trivial
  · exact trivial
  · exact trivial
  · exact trivial
  · exact trivial
  · exact trivial
  · exact trivial
  · exact trivial
  · exact trivial
  · exact trivial
  · exact trivial
  · exact trivial
  · exact trivial
  · exact trivial
  · exact trivial
  · exact trivial
  · exact trivial
  · exact trivial
  · exact trivial
  · exact trivial
  · exact trivial
  · exact trivial
  · exact trivial

theorem decodeV_hasWord (w : Nat) : (decodeV w).HasWord := by
  unfold decodeV
  have hx : fld w 22 7 < 128 := Nat.mod_lt _ (by decide)
  generalize fld w 22 7 = x at *
  interval_cases x
  · exact trivial
  · exact hasWord_row _ _ rfl
  · exact rfl
  · exact rfl
  · exact rfl
  · exact rfl
  · exact rfl
  · exact rfl
  · exact hasWord_row _ _ rfl
  · exact hasWord_row _ _ rfl
  · exact hasWord_row _ _ rfl
  · exact hasWord_row _ _ rfl
  · exact hasWord_row _ _ rfl
  · exact hasWord_row _ _ rfl
  · exact hasWord_row _ _ rfl
  · exact hasWord_row _ _ rfl
  · exact hasWord_row _ _ rfl
  · exact hasWord_row _ _ rfl
  · exact hasWord_row _ _ rfl
  · exact hasWord_row _ _ rfl
  · exact hasWord_row _ _ rfl
  · exact hasWord_row _ _ rfl
  · exact hasWord_row _ _ rfl
  · exact hasWord_row _ _ rfl
  · exact hasWord_row _ _ rfl
  · exact hasWord_row _ _ rfl
  · exact hasWord_row _ _ rfl
  · exact hasWord_row _ _ rfl
  · exact hasWord_row _ _ rfl
  · exact hasWord_row _ _ rfl
  · exact hasWord_row _ _ rfl
  · exact hasWord_row _ _ rfl
  · exact hasWord_row _ _ rfl
  · exact hasWord_row _ _ rfl
  · exact rfl
  · exact rfl
  · exact hasWord_row _ _ rfl
  · exact hasWord_row _ _ rfl
  · exact hasWord_row _ _ rfl
  · exact hasWord_row _ _ rfl
  · exact hasWord_row _ _ rfl
  · exact hasWord_row _ _ rfl
  · exact hasWord_row _ _ rfl
  · exact hasWord_row _ _ rfl
  · exact hasWord_row _ _ rfl
  · exact hasWord_row _ _ rfl
  · exact hasWord_row _ _ rfl
  · exact hasWord_row _ _ rfl
  · exact hasWord_row _ _ rfl
  · exact hasWord_row _ _ rfl
  · exact hasWord_row _ _ rfl
  · exact hasWord_row _ _ rfl
  · exact rfl
  · exact rfl
  · exact rfl
  · exact rfl
  · exact hasWord_row _ _ rfl
  · exact hasWord_row _ _ rfl
  · exact hasWord_row _ _ rfl
  · exact hasWord_row _ _ rfl
  · exact hasWord_row _ _ rfl
  · exact hasWord_row _ _ rfl
  · exact hasWord_row _ _ rfl
  · exact hasWord_row _ _ rfl
  · exact hasWord_row _ _ rfl
  · exact hasWord_row _ _ rfl
  · exact hasWord_row _ _ rfl
  · exact hasWord_row _ _ rfl
  · exact hasWord_row _ _ rfl
  · exact hasWord_row _ _ rfl
  · exact rfl
  · exact rfl
  · exact hasWord_row _ _ rfl
  · exact hasWord_row _ _ rfl
  · exact hasWord_row _ _ rfl
  · exact hasWord_row _ _ rfl
  · exact rfl
  · exact rfl
  · exact hasWord_row _ _ rfl
  · exact hasWord_row _ _ rfl
  · exact trivial
  · exact hasWord_row _ _ rfl
  · exact trivial
  · exact hasWord_row _ _ rfl
  · exact rfl
  · exact rfl
  · exact hasWord_row _ _ rfl
  · exact hasWord_row _ _ rfl
  · exact hasWord_row _ _ rfl
  · exact hasWord_row _ _ rfl
  · exact hasWord_row _ _ rfl
  · exact hasWord_row _ _ rfl
  · exact hasWord_row _ _ rfl
  · exact hasWord_row _ _ rfl
  · exact hasWord_row _ _ rfl
  · exact hasWord_row _ _ rfl
  · exact hasWord_row _ _ rfl
  · exact hasWord_row _ _ rfl
  · exact rfl
  · exact hasWord_row _ _ rfl
  · exact hasWord_row _ _ rfl
  · exact hasWord_row _ _ rfl
  · exact hasWord_row _ _ rfl
  · exact hasWord_row _ _ rfl
  · exact hasWord_row _ _ rfl
  · exact trivial
  · exact trivial
  · exact trivial
  · exact trivial
  · exact trivial
  · exact trivial
  · exact trivial
  · exact trivial
  · exact trivial
  · exact trivial
  · exact trivial
  · exact trivial
  · exact trivial
  · exact trivial
  · exact trivial
  · exact trivial
  · exact trivial
  · exact trivial
  · exact trivial
  · exact trivial
  · exact trivial
  · exact trivial
  · exact trivial

theorem decodeM_hasWord (w : Nat) : (decodeM w).HasWord := by
  unfold decodeM
  have hx : fld w 22 7 < 128 := Nat.mod_lt _ (by decide)
  generalize fld w 22 7 = x at *
  interval_cases x
  · exact trivial
  · exact hasWord_row _ _ rfl
  · exact hasWord_row _ _ rfl
  · exact hasWord_row _ _ rfl
  · exact rfl
  · exact hasWord_row _ _ rfl
  · exact hasWord_row _ _ rfl
  · exact hasWord_row _ _ rfl
  · exact hasWord_row _ _ rfl
  · exact hasWord_row _ _ rfl
  · exact hasWord_row _ _ rfl
  · exact rfl
  · exact hasWord_row _ _ rfl
  · exact hasWord_ite _ _ _ (hasWord_row _ _ rfl) (hasWord_row _ _ rfl)
  · exact hasWord_row _ _ rfl
  · exact hasWord_row _ _ rfl
  · exact trivial
  · exact trivial
  · exact trivial
  · exact trivial
  · exact trivial
  · exact trivial
  · exact trivial
  · exact trivial
  · exact trivial
  · exact trivial
  · exact trivial
  · exact trivial
  · exact trivial
  · exact trivial
  · exact trivial
  · exact trivial
  · exact trivial
  · exact trivial
  · exact trivial
  · exact trivial
  · exact trivial
  · exact trivial
  · exact trivial
  · exact trivial
  · exact trivial
  · exact trivial
  · exact trivial
  · exact trivial
  · exact trivial
  · exact trivial
  · exact trivial
  · exact trivial
  · exact trivial
  · exact trivial
  · exact trivial
  · exact trivial
  · exact trivial
  · exact trivial
  · exact trivial
  · exact trivial
  · exact trivial
  · exact trivial
  · exact trivial
  · exact trivial
  · exact trivial
  · exact trivial
  · exact trivial
  · exact trivial
  · exact trivial
  · exact trivial
  · exact trivial
  · exact trivial
  · exact trivial
  · exact trivial
  · exact trivial
  · exact trivial
  · exact trivial
  · exact trivial
  · exact trivial
  · exact trivial
  · exact trivial
  · exact trivial
  · exact trivial
  · exact trivial
  · exact trivial
  · exact trivial
  · exact trivial
  · exact trivial
  · exact trivial
  · exact trivial
  · exact trivial
  · exact trivial
  · exact trivial
  · exact trivial
  · exact trivial
  · exact trivial
  · exact trivial
  · exact trivial
  · exact trivial
  · exact trivial
  · exact trivial
  · exact trivial
  · exact trivial
  · exact trivial
  · exact trivial
  · exact trivial
  · exact trivial
  · exact trivial
  · exact trivial
  · exact trivial
  · exact trivial
  · exact trivial
  · exact trivial
  · exact trivial
  · exact trivial
  · exact trivial
  · exact trivial
  · exact trivial
  · exact trivial
  · exact trivial
  · exact trivial
  · exact trivial
  · exact trivial
  · exact trivial
  · exact trivial
  · exact trivial
  · exact trivial
  · exact trivial
  · exact trivial
  · exact trivial
  · exact trivial
  · exact trivial

theorem decodeS_hasWord (w : Nat) : (decodeS w).HasWord := by
  unfold decodeS
  have hx : fld w 22 7 < 128 := Nat.mod_lt _ (by decide)
  generalize fld w 22 7 = x at *
  interval_cases x
  · exact trivial
  · exact hasWord_row _ _ rfl
  · exact hasWord_row _ _ rfl
  · exact hasWord_row _ _ rfl
  · exact hasWord_row _ _ rfl
  · exact hasWord_row _ _ rfl
  · exact hasWord_row _ _ rfl
  · exact rfl
  · exact hasWord_row _ _ rfl
  · exact trivial
  · exact trivial
  · exact trivial
  · exact trivial
  · exact trivial
  · exact trivial
  · exact trivial
  · exact trivial
  · exact trivial
  · exact trivial
  · exact trivial
  · exact trivial
  · exact trivial
  · exact trivial
  · exact trivial
  · exact trivial
  · exact trivial
  · exact trivial
  · exact trivial
  · exact trivial
  · exact trivial
  · exact trivial
  · exact trivial
  · exact trivial
  · exact trivial
  · exact trivial
  · exact trivial
  · exact trivial
  · exact trivial
  · exact trivial
  · exact trivial
  · exact trivial
  · exact trivial
  · exact trivial
  · exact trivial
  · exact trivial
  · exact trivial
  · exact trivial
  · exact trivial
  · exact trivial
  · exact trivial
  · exact trivial
  · exact trivial
  · exact trivial
  · exact trivial
  · exact trivial
  · exact trivial
  · exact trivial
  · exact trivial
  · exact trivial
  · exact trivial
  · exact trivial
  · exact trivial
  · exact trivial
  · exact trivial
  · exact trivial
  · exact trivial
  · exact trivial
  · exact trivial
  · exact trivial
  · exact trivial
  · exact trivial
  · exact trivial
  · exact trivial
  · exact trivial
  · exact trivial
  · exact trivial
  · exact trivial
  · exact trivial
  · exact trivial
  · exact trivial
  · exact trivial
  · exact trivial
  · exact trivial
  · exact trivial
  · exact trivial
  · exact trivial
  · exact trivial
  · exact trivial
  · exact trivial
  · exact trivial
  · exact trivial
  · exact trivial
  · exact trivial
  · exact trivial
  · exact trivial
  · exact trivial
  · exact trivial
  · exact trivial
  · exact trivial
  · exact trivial
  · exact trivial
  · exact trivial
  · exact trivial
  · exact trivial
  · exact trivial
  · exact trivial
  · exact trivial
  · exact trivial
  · exact trivial
  · exact trivial
  · exact trivial
  · exact trivial
  · exact trivial
  · exact trivial
  · exact trivial
  · exact trivial
  · exact trivial
  · exact trivial
  · exact trivial
  · exact trivial
  · exact trivial
  · exact trivial
  · exact trivial
  · exact trivial
  · exact trivial
  · exact trivial
  · exact trivial
  · exact trivial

theorem decodeX_hasWord (w : Nat) : (decodeX w).HasWord := by
  unfold decodeX
  have hx : fld w 22 7 < 128 := Nat.mod_lt _ (by decide)
  generalize fld w 22 7 = x at *
  interval_cases x
  · exact trivial
  · exact trivial
  · exact trivial
  · exact trivial
  · exact trivial
  · exact trivial
  · exact trivial
  · exact trivial
  · exact trivial
  · exact trivial
  · exact trivial
  · exact trivial
  · exact trivial
  · exact trivial
  · exact trivial
  · exact trivial
  · exact trivial
  · exact trivial
  · exact trivial
  · exact trivial
  · exact trivial
  · exact trivial
  · exact trivial
  · exact trivial
  · exact trivial
  · exact trivial
  · exact trivial
  · exact trivial
  · exact trivial
  · exact trivial
  · exact trivial
  · exact trivial
  · exact trivial
  · exact trivial
  · exact trivial
  · exact trivial
  · exact trivial
  · exact trivial
  · exact trivial
  · exact trivial
  · exact trivial
  · exact trivial
  · exact trivial
  · exact trivial
  · exact trivial
  · exact trivial
  · exact trivial
  · exact trivial
  · exact trivial
  · exact trivial
  · exact trivial
  · exact trivial
  · exact trivial
  · exact trivial
  · exact trivial
  · exact trivial
  · exact trivial
  · exact trivial
  · exact trivial
  · exact trivial
  · exact trivial
  · exact trivial
  · exact trivial
  · exact trivial
  · exact trivial
  · exact hasWord_row _ _ rfl
  · exact hasWord_row _ _ rfl
  · exact trivial
  · exact trivial
  · exact trivial
  · exact trivial
  · exact trivial
  · exact hasWord_row _ _ rfl
  · exact hasWord_row _ _ rfl
  · exact hasWord_row _ _ rfl
  · exact hasWord_row _ _ rfl
  · exact hasWord_row _ _ rfl
  · exact hasWord_row _ _ rfl
  · exact hasWord_row _ _ rfl
  · exact hasWord_row _ _ rfl
  · exact hasWord_row _ _ rfl
  · exact hasWord_row _ _ rfl
  · exact hasWord_row _ _ rfl
  · exact hasWord_row _ _ rfl
  · exact trivial
  · exact trivial
  · exact trivial
  · exact trivial
  · exact trivial
  · exact trivial
  · exact trivial
  · exact trivial
  · exact trivial
  · exact trivial
  · exact trivial
  · exact trivial
  · exact trivial
  · exact trivial
  · exact trivial
  · exact trivial
  · exact trivial
  · exact trivial
  · exact trivial
  · exact trivial
  · exact trivial
  · exact trivial
  · exact trivial
  · exact trivial
  · exact trivial
  · exact trivial
  · exact trivial
  · exact trivial
  · exact trivial
  · exact trivial
  · exact trivial
  · exact trivial
  · exact trivial
  · exact trivial
  · exact trivial
  · exact trivial
  · exact trivial
  · exact trivial
  · exact trivial
  · exact trivial
  · exact trivial
  · exact trivial
  · exact trivial
  · exact trivial

theorem decode32_hasWord (w : Nat) : (decode32 w).HasWord := by
  unfold decode32
  have hx : fld w 29 3 < 8 := Nat.mod_lt _ (by decide)
  generalize fld w 29 3 = x at *
  interval_cases x
  · exact decodeC_hasWord w
  · exact decodeL_hasWord w
  · exact decodeV_hasWord w
  · exact decodeM_hasWord w
  · exact decodeS_hasWord w
  · exact hasWord_ite _ _ _ (decodeX_hasWord w) (hasWord_ite _ _ _ rfl (hasWord_ite _ _ _ rfl trivial))
  · exact trivial
  · exact trivial

theorem decode16_hasWord (p : Nat) : (decode16 p).HasWord := by
  unfold decode16
  have hx : fld p 13 3 < 8 := Nat.mod_lt _ (by decide)
  generalize fld p 13 3 = x at *
  interval_cases x
  · exact trivial
  · exact trivial
  · exact trivial
  · exact trivial
  · exact trivial
  · exact trivial
  · exact rfl
  · exact hasWord_row _ _ rfl

end Sys2Proof
end

