-- ==== Sys2Proof/Laws/Items.lean ====
section
/-! SUPPORT. The laws of an item: what landing, issue and completion do to each part of the state. Claims about one instruction
follow from `issue_done` and `closed_*`; a prover never unfolds them. -/

namespace Sys2Proof.Machine

/-! ## Engines -/

@[simp] theorem Engines.get_set (g : Engines) (e : Engine) (x : EngineState) : (g.set e x).get e = x := by cases e <;> rfl

theorem Engines.get_set_ne (g : Engines) (e f : Engine) (x : EngineState) (h : f ≠ e) : (g.set e x).get f = g.get f := by
  cases e <;> cases f <;> first | rfl | exact absurd rfl h

theorem Engines.set_get (g : Engines) (e : Engine) : g.set e (g.get e) = g := by cases e <;> rfl

@[simp] theorem Group.engine_setEngine (g : Group) (e : Engine) (x : EngineState) : (g.setEngine e x).engine e = x :=
  Engines.get_set ..

theorem Group.engine_setEngine_ne (g : Group) (e f : Engine) (x : EngineState) (h : f ≠ e) :
    (g.setEngine e x).engine f = g.engine f := Engines.get_set_ne _ _ _ _ h

@[simp] theorem State.eng_onMe (s : State) (f : Group → Group) (e : Engine) : (s.onMe f).eng e = (f s.me).engine e := rfl
@[simp] theorem State.me_onMe (s : State) (f : Group → Group) : (s.onMe f).me = f s.me := rfl

/-! ## Registers -/

/-- A register write is a write of registers only. -/
theorem Group.setReg_eq (g : Group) (r : Reg) (v : Val) :
    ∃ (cr : CRegs) (vr : VRegs), g.setReg r v = { g with cr := cr, vr := { g.vr with v := vr.v, m := vr.m } } := by
  unfold Group.setReg
  split
  · split
    · exact ⟨g.cr, g.vr, rfl⟩
    · exact ⟨_, g.vr, rfl⟩
  · exact ⟨_, g.vr, rfl⟩
  · exact ⟨g.cr, { g.vr with v := _ }, rfl⟩
  · exact ⟨_, g.vr, rfl⟩
  · exact ⟨_, g.vr, rfl⟩
  · rename_i n x; exact ⟨g.cr, { g.vr with m := g.vr.m.set n.toNat x }, rfl⟩
  · exact ⟨g.cr, g.vr, rfl⟩

theorem landAll_eq (l : List InFlight) (g : Group) :
    ∃ (cr : CRegs) (vr : VRegs), landAll g l = { g with cr := cr, vr := { g.vr with v := vr.v, m := vr.m } } := by
  induction l generalizing g with
  | nil => exact ⟨g.cr, g.vr, rfl⟩
  | cons f r ih =>
    obtain ⟨cr, vr, h⟩ := ih (g.setReg f.reg f.val)
    obtain ⟨cr', vr', h'⟩ := g.setReg_eq f.reg f.val
    exact ⟨cr, vr, by rw [landAll, h, h']⟩

/-- Landing changes registers and the engine's list of results in flight. -/
theorem Group.landTo_eq (g : Group) (e : Engine) (t : Nat) :
    ∃ (cr : CRegs) (vr : VRegs), g.landTo e t =
      { g with
        cr := cr, vr := { g.vr with v := vr.v, m := vr.m }
        eng := g.eng.set e { g.engine e with flight := (g.engine e).flight.filter fun f => !f.landed t } } := by
  obtain ⟨cr, vr, h⟩ := landAll_eq (((g.engine e).flight.filter (·.landed t)).foldl (fun acc f => insertLand f acc) []) g
  exact ⟨cr, vr, by rw [Group.landTo, h]; rfl⟩

/-! ## The state in which an item reads its operands -/

theorem State.arrived_eng (s : State) (e : Engine) (y : BitVec 2) :
    (s.arrived e y).eng e =
      { s.eng e with flight := (s.eng e).flight.filter fun f => !f.landed (s.issueAt e y) } := by
  obtain ⟨cr, vr, h⟩ := s.me.landTo_eq e (s.issueAt e y)
  show (s.me.landTo e (s.issueAt e y)).eng.get e = _
  rw [h]; exact Engines.get_set ..

theorem State.arrived_eng_ne (s : State) (e f : Engine) (y : BitVec 2) (h : f ≠ e) : (s.arrived e y).eng f = s.eng f := by
  obtain ⟨cr, vr, h'⟩ := s.me.landTo_eq e (s.issueAt e y)
  show (s.me.landTo e (s.issueAt e y)).eng.get f = _
  rw [h']; exact Engines.get_set_ne _ _ _ _ h

/-- Arrival changes nothing but registers and the engine's results in flight. -/
theorem State.arrived_same (s : State) (e : Engine) (y : BitVec 2) (p : Aspect) (h : p ≠ .engine e) (hr : p ≠ .regs) :
    s.same (s.arrived e y) p := by
  cases p with
  | engine f => exact s.arrived_eng_ne e f y fun hh => h (hh ▸ rfl)
  | regs => exact absurd rfl hr
  | _ =>
    obtain ⟨cr, vr, h'⟩ := s.me.landTo_eq e (s.issueAt e y)
    have ha : s.arrived e y = { s with me := s.me.landTo e (s.issueAt e y) } := rfl
    rw [ha, h']
    first | rfl | exact ⟨rfl, rfl⟩ | exact fun _ => rfl | exact ⟨rfl, rfl, rfl, rfl⟩ | exact ⟨fun _ => rfl, rfl, rfl⟩
          | exact ⟨rfl, rfl, rfl, rfl, rfl⟩ | exact ⟨rfl, rfl, rfl, rfl, rfl, rfl⟩

theorem State.arrived_phase (s : State) (e : Engine) (y : BitVec 2) : (s.arrived e y).me.phase = s.me.phase := by
  obtain ⟨cr, vr, h⟩ := s.me.landTo_eq e (s.issueAt e y)
  simp only [State.arrived, State.onMe, h]

theorem State.arrived_store (s : State) (e : Engine) (y : BitVec 2) : (s.arrived e y).me.store = s.me.store := by
  obtain ⟨cr, vr, h⟩ := s.me.landTo_eq e (s.issueAt e y)
  simp only [State.arrived, State.onMe, h]

theorem State.arrived_now (s : State) (e : Engine) (y : BitVec 2) : (s.arrived e y).time = s.time := rfl

/-! ## Issue and completion -/

/-- The state after an item that completes with `u`. -/
def State.closed (s u : State) (e : Engine) (y : BitVec 2) (via : Bool) : State :=
  (u.issued e (s.issueAt e y) (s.me.itemLen e)).onMe fun g => if via then { g with hand := { g.hand with firstH15 := false } } else g

/-- R56, R85: a ready engine runs the item. -/
theorem issueWith_ready (quiet : State → Effect) (e : Engine) (y : BitVec 2) (srcs : List Reg) (s : State)
    (body : State → Nat → Effect) (h : s.Ready e y srcs) :
    issueWith quiet e y srcs s body =
      s.finish e (s.issueAt e y) (s.me.phase == .handler && srcs.contains (.h 15)) (body (s.arrived e y) (s.issueAt e y)) := by
  have h1 := h.runs
  have h2 := h.noskip
  have h3 := h.live
  have h4 := h.here
  unfold issueWith
  simp only [h1, h2, h3, Bool.not_true, Bool.false_eq_true, if_false]
  simp only [State.arrived, State.issueAt] at h4 ⊢
  rw [h4]

theorem issueWith_done (quiet : State → Effect) (e : Engine) (y : BitVec 2) (srcs : List Reg) (s u : State)
    (body : State → Nat → Effect) (h : s.Ready e y srcs) (hb : body (s.arrived e y) (s.issueAt e y) = .done u) :
    issueWith quiet e y srcs s body = .next (s.closed u e y (s.me.phase == .handler && srcs.contains (.h 15))) := by
  rw [issueWith_ready _ _ _ _ _ _ h, hb]; rfl

theorem issue_done (e : Engine) (y : BitVec 2) (srcs : List Reg) (s u : State)
    (body : State → Nat → Effect) (h : s.Ready e y srcs) (hb : body (s.arrived e y) (s.issueAt e y) = .done u) :
    issue e y srcs s body = .next (s.closed u e y (s.me.phase == .handler && srcs.contains (.h 15))) :=
  issueWith_done _ _ _ _ _ _ _ h hb

theorem chargeStall_eq (g : Group) (e : Engine) (now : Nat) :
    ∃ b, g.chargeStall e now = { g with work := { g.work with bufs := b } } := by
  unfold Group.chargeStall
  split
  · exact ⟨_, rfl⟩
  · exact ⟨g.work.bufs, rfl⟩

/-- Completion changes the engine's walk, the group's last issue, the marks of a handler's first item, and buffers. -/
theorem State.closed_eq (s u : State) (e : Engine) (y : BitVec 2) (via : Bool) :
    ∃ b f1 f2 n, s.closed u e y via =
      { u with me := { u.me with
        eng := u.me.eng.set e ((u.eng e).advance (s.issueAt e y) (s.me.itemLen e) (!(u.me.phase == .handler && e == .c)))
        work := { u.me.work with bufs := b }, hand := { u.me.hand with first := f1, firstH15 := f2 }, time := { u.me.time with lastIssue := n } } } := by
  obtain ⟨b, hb⟩ := chargeStall_eq u.me e u.time.now
  refine ⟨b, (s.closed u e y via).me.hand.first, (s.closed u e y via).me.hand.firstH15, (s.closed u e y via).me.time.lastIssue, ?_⟩
  by_cases hp : (u.me.phase == .handler) = true <;>
    cases via <;> simp only [State.closed, State.issued, State.onMe, Group.issued, hb, Group.mapEngine, hp] <;> rfl

theorem State.closed_eng (s u : State) (e : Engine) (y : BitVec 2) (via : Bool) :
    (s.closed u e y via).eng e =
      (u.eng e).advance (s.issueAt e y) (s.me.itemLen e) (!(u.me.phase == .handler && e == .c)) := by
  obtain ⟨b, f1, f2, n, h⟩ := s.closed_eq u e y via
  rw [h]; exact Engines.get_set ..

theorem State.closed_flight (s u : State) (e : Engine) (y : BitVec 2) (via : Bool) :
    ((s.closed u e y via).eng e).flight = (u.eng e).flight := by rw [State.closed_eng]; rfl

/-- What stayed the same in the effect of an item stays the same through its completion. -/
theorem State.closed_same (s u a : State) (e : Engine) (y : BitVec 2) (via : Bool) (p : Aspect) (h : a.same u p)
    (h1 : p ≠ .engine e) (h2 : p ≠ .bufs) : a.same (s.closed u e y via) p := by
  obtain ⟨b, f1, f2, n, hc⟩ := s.closed_eq u e y via
  rw [hc]
  cases p with
  | engine f => exact (Engines.get_set_ne _ _ _ _ fun hh : f = e => h1 (hh ▸ rfl)).trans h
  | bufs => exact absurd rfl h2
  | regs => exact fun r => (by cases r <;> rfl : _ = u.me.regVal r).trans (h r)
  | _ => exact h

/-- An effect on its engine that is a result, or none. -/
def State.OnlyFlight (a u : State) (e : Engine) : Prop := ∃ fl, u.eng e = { a.eng e with flight := fl }

theorem State.OnlyFlight.refl (a : State) (e : Engine) : a.OnlyFlight a e := ⟨_, rfl⟩

theorem State.same_phase (a u : State) (h : a.same u .phase) : u.me.phase = a.me.phase := h.1

/-- The state after an item that completes as a branch. -/
def State.closedBranch (s u : State) (e : Engine) (y : BitVec 2) (target : Option (TKind × Nat)) (annul : Bool) : State :=
  (s.closed u e y false).onEng e fun x => x.branched target annul

theorem State.closedBranch_eng (s u : State) (e : Engine) (y : BitVec 2) (target : Option (TKind × Nat)) (annul : Bool) :
    (s.closedBranch u e y target annul).eng e = ((s.closed u e y false).eng e).branched target annul := Engines.get_set ..

theorem State.onEng_same (s : State) (e : Engine) (f : EngineState → EngineState) (p : Aspect) (h : p ≠ .engine e) :
    s.same (s.onEng e f) p := by
  cases p with
  | engine e' => exact Engines.get_set_ne _ _ _ _ fun hh : e' = e => h (hh ▸ rfl)
  | regs => exact fun r => by cases r <;> rfl
  | _ => first | rfl | exact ⟨rfl, rfl⟩ | exact fun _ => rfl | exact ⟨rfl, rfl, rfl, rfl⟩ | exact ⟨fun _ => rfl, rfl, rfl⟩
               | exact ⟨rfl, rfl, rfl, rfl, rfl⟩ | exact ⟨rfl, rfl, rfl, rfl, rfl, rfl⟩

theorem State.onEng_eng (s : State) (e : Engine) (f : EngineState → EngineState) : (s.onEng e f).eng e = f (s.eng e) :=
  Engines.get_set ..

theorem State.onEng_eng_ne (s : State) (e e' : Engine) (f : EngineState → EngineState) (h : e' ≠ e) :
    (s.onEng e f).eng e' = s.eng e' := Engines.get_set_ne _ _ _ _ h

/-- An item that completes as a branch: what stays and where it leads. -/
theorem State.closedBranch_passed (s u : State) (e : Engine) (y : BitVec 2) (target : Option (TKind × Nat)) (annul : Bool)
    (h : s.Passed e y (s.closed u e y false)) : s.Passed e y (s.closedBranch u e y target annul) := by
  obtain ⟨h1, h2, h3, h4, h5⟩ := h
  constructor <;> rw [State.closedBranch_eng] <;> assumption

theorem State.closedBranch_flows (s u : State) (e : Engine) (y : BitVec 2) (target : Option (TKind × Nat)) (annul : Bool)
    (h : s.Flows e (s.closed u e y false) .straight) :
    s.Flows e (s.closedBranch u e y target annul) (.branch target annul) := by
  obtain ⟨h1, h2, h3⟩ := h
  constructor <;> rw [State.closedBranch_eng]
  · cases target with
    | none => exact h1
    | some x => rfl
  · cases annul with
    | false => exact h2
    | true => rfl
  · rfl

/-! ## Results -/

/-- A result changes the engine's results in flight and, in handler mode, the list of written registers. -/
theorem Group.fly_eq (g : Group) (e : Engine) (f : InFlight) :
    ∃ w, g.fly e f =
      { g with
        eng := g.eng.set e { g.engine e with
          flight := ((g.engine e).flight.filter fun o => !(o.reg == f.reg && o.late)) ++ [f] }
        hand := { g.hand with written := w } } := by
  unfold Group.fly
  dsimp only
  split
  · exact ⟨_, rfl⟩
  · exact ⟨g.hand.written, rfl⟩

theorem State.result_eng (s : State) (e : Engine) (r : Reg) (v : Val) (t lat : Nat) :
    (s.result e r v t lat).eng e =
      { s.eng e with
        flight := ((s.eng e).flight.filter fun o => !(o.reg == r && o.late)) ++ [fixedFlight r v (t + lat)] } := by
  obtain ⟨hand, h⟩ := s.me.fly_eq e (fixedFlight r v (t + lat))
  show (s.me.fly e (fixedFlight r v (t + lat))).eng.get e = _
  rw [h]; exact Engines.get_set ..

theorem State.result_same (s : State) (e : Engine) (r : Reg) (v : Val) (t lat : Nat) (p : Aspect) (h : p ≠ .engine e) :
    s.same (s.result e r v t lat) p := by
  obtain ⟨hand, hf⟩ := s.me.fly_eq e (fixedFlight r v (t + lat))
  have hs : s.result e r v t lat = { s with me := s.me.fly e (fixedFlight r v (t + lat)) } := rfl
  rw [hs, hf]
  cases p with
  | engine f => exact Engines.get_set_ne _ _ _ _ fun hh => h (hh ▸ rfl)
  | regs => exact fun r => by cases r <;> rfl
  | _ => first | rfl | exact ⟨rfl, rfl⟩ | exact fun _ => rfl | exact ⟨rfl, rfl, rfl, rfl⟩ | exact ⟨fun _ => rfl, rfl, rfl⟩
               | exact ⟨rfl, rfl, rfl, rfl, rfl⟩ | exact ⟨rfl, rfl, rfl, rfl, rfl, rfl⟩

theorem State.same_refl (s : State) (p : Aspect) : s.same s p := by
  cases p <;> first | rfl | exact ⟨rfl, rfl⟩ | exact fun _ => rfl | exact ⟨rfl, rfl, rfl, rfl⟩ | exact ⟨fun _ => rfl, rfl, rfl⟩
                    | exact ⟨rfl, rfl, rfl, rfl, rfl⟩ | exact ⟨rfl, rfl, rfl, rfl, rfl, rfl⟩

theorem State.same_trans (s t u : State) (p : Aspect) (h1 : s.same t p) (h2 : t.same u p) : s.same u p := by
  cases p with
  | regs => exact fun r => (h2 r).trans (h1 r)
  | spad => exact fun r => (h2 r).trans (h1 r)
  | acc => exact fun r => (h2 r).trans (h1 r)
  | hbm => exact fun r => (h2 r).trans (h1 r)
  | host => exact fun r => (h2 r).trans (h1 r)
  | text => exact ⟨fun r => (h2.1 r).trans (h1.1 r), h2.2.1.trans h1.2.1, h2.2.2.trans h1.2.2⟩
  | flag n => exact ⟨h2.1.trans h1.1, h2.2.trans h1.2⟩
  | jobs => exact ⟨h2.1.trans h1.1, h2.2.trans h1.2⟩
  | trace => exact ⟨h2.1.trans h1.1, h2.2.trans h1.2⟩
  | irq => exact ⟨h2.1.trans h1.1, h2.2.trans h1.2⟩
  | claimed => exact ⟨h2.1.trans h1.1, h2.2.trans h1.2⟩
  | atomics => exact ⟨h2.1.trans h1.1, h2.2.trans h1.2⟩
  | clock => exact ⟨h2.1.trans h1.1, h2.2.1.trans h1.2.1, h2.2.2.1.trans h1.2.2.1, h2.2.2.2.1.trans h1.2.2.2.1,
      h2.2.2.2.2.1.trans h1.2.2.2.2.1, h2.2.2.2.2.2.trans h1.2.2.2.2.2⟩
  | phase => exact ⟨h2.1.trans h1.1, h2.2.1.trans h1.2.1, h2.2.2.1.trans h1.2.2.1, h2.2.2.2.trans h1.2.2.2⟩
  | platform => exact ⟨h2.1.trans h1.1, h2.2.1.trans h1.2.1, h2.2.2.1.trans h1.2.2.1, h2.2.2.2.1.trans h1.2.2.2.1,
      h2.2.2.2.2.trans h1.2.2.2.2⟩
  | _ => exact Eq.trans h2 h1

/-! ## Claims -/

theorem issue_branch (e : Engine) (y : BitVec 2) (srcs : List Reg) (s u : State) (body : State → Nat → Effect)
    (target : Option (TKind × Nat)) (annul : Bool) (h : s.Ready e y srcs)
    (hb : body (s.arrived e y) (s.issueAt e y) = .branch u target annul) :
    issue e y srcs s body = .next (s.closedBranch u e y target annul) := by
  rw [issue, issueWith_ready _ _ _ _ _ _ h, hb]; rfl

theorem issue_trap (e : Engine) (y : BitVec 2) (srcs : List Reg) (s : State) (body : State → Nat → Effect) (cause info va : Nat)
    (h : s.Ready e y srcs) (hv : srcs.contains (.h 15) = false)
    (hb : body (s.arrived e y) (s.issueAt e y) = .trap cause info va) :
    issue e y srcs s body = .next (s.trapAt e cause info va false) := by
  rw [issue, issueWith_ready _ _ _ _ _ _ h, hb, hv, Bool.and_false]; rfl

theorem issue_wait (e : Engine) (y : BitVec 2) (srcs : List Reg) (s : State) (body : State → Nat → Effect)
    (h : s.Ready e y srcs) (hb : body (s.arrived e y) (s.issueAt e y) = .wait) :
    issue e y srcs s body = .next (s.stall e none) := by
  rw [issue, issueWith_ready _ _ _ _ _ _ h, hb]; rfl

/-- What a result kept before completion is kept after it. -/
theorem Promise.Kept.of_flight {p : Promise} {a u t : State} {e : Engine} {k : Nat} (h : p.Kept a u e k)
    (ht : (t.eng e).flight = (u.eng e).flight) : p.Kept a t e k := by
  cases p with
  | none => exact ht.trans h
  | fixed r v lat => exact ht.trans h
  | late r v lat =>
    obtain ⟨f, h1, h2, h3, h4, h5, h6⟩ := h
    exact ⟨f, h1, h2, h3, h4, h5, ht.trans h6⟩
  | other => trivial

/-- The engine of `u` is that of `a` but for results and stop records. -/
def State.SameWalk (a u : State) (e : Engine) : Prop := ∃ fl st, u.eng e = { a.eng e with flight := fl, stops := st }

/-- What an effect `u` of an item must satisfy for its claim: the walk of the engine is that of the operation's state but for
results, and the operation left the walk and the phase alone. -/
structure Claim.Fits (c : Claim) (s u : State) : Prop where
  op : (s.arrived c.eng c.y).SameWalk (c.mid s) c.eng
  only : (c.mid s).OnlyFlight u c.eng
  phase : (s.arrived c.eng c.y).same u .phase
  result : c.result.Kept (c.mid s) u c.eng (s.issueAt c.eng c.y)
  frame : ∀ p, p ∉ Aspect.engine c.eng :: Aspect.bufs :: c.parts → (c.mid s).same u p

theorem State.SameWalk.refl (a : State) (e : Engine) : a.SameWalk a e := ⟨(a.eng e).flight, (a.eng e).stops, rfl⟩

theorem Claim.Fits.walk {c : Claim} {s u : State} (h : c.Fits s u) : (s.arrived c.eng c.y).SameWalk u c.eng := by
  obtain ⟨fl, h2⟩ := h.only
  obtain ⟨fl', st, h1⟩ := h.op
  exact ⟨fl, st, by rw [h2, h1]⟩

theorem State.closed_passed (s u : State) (e : Engine) (y : BitVec 2) (via : Bool) (he : (s.arrived e y).SameWalk u e)
    (hp : (s.arrived e y).same u .phase) : s.Passed e y (s.closed u e y via) := by
  obtain ⟨fl, st, hfl⟩ := he
  have hph : u.me.phase = s.me.phase := hp.1.trans (s.arrived_phase e y)
  constructor <;> rw [State.closed_eng, hfl, State.arrived_eng, hph] <;> simp only [EngineState.advance]
  by_cases h : s.me.phase = .handler <;> by_cases h' : e = .c <;> simp [h, h']

theorem State.closed_straight (s u : State) (e : Engine) (y : BitVec 2) (via : Bool) (he : (s.arrived e y).SameWalk u e) :
    s.Flows e (s.closed u e y via) .straight := by
  obtain ⟨fl, st, hfl⟩ := he
  constructor <;> rw [State.closed_eng, hfl, State.arrived_eng] <;> rfl

theorem State.closed_keepsWalk (s a u : State) (e : Engine) (y : BitVec 2) (via : Bool) (he : a.OnlyFlight u e) :
    a.KeepsWalk e (s.closed u e y via) := by
  obtain ⟨fl, hfl⟩ := he
  constructor <;> rw [State.closed_eng, hfl] <;> first | rfl | exact ⟨rfl, rfl⟩

/-- A claim is met by an item that is done with `u`. -/
theorem Claim.done_of (c : Claim) (s u : State) (via : Bool) (hf : c.flow (c.mid s) = .straight) (h : c.Fits s u)
    (hpost : c.post (c.mid s) (s.closed u c.eng c.y via)) : c.Done s (s.closed u c.eng c.y via) where
  passed := s.closed_passed u _ _ _ h.walk h.phase
  flows := hf ▸ s.closed_straight u _ _ _ h.walk
  walk := s.closed_keepsWalk _ u _ _ _ h.only
  result := h.result.of_flight (s.closed_flight u _ _ _)
  frame := fun p hn => State.closed_same _ _ _ _ _ _ _ (h.frame p hn) (fun h => hn (h ▸ List.mem_cons_self))
    (fun h => hn (h ▸ List.mem_cons_of_mem _ List.mem_cons_self))
  effect := hpost

/-- A claim is met by an item that is a branch from `u`. -/
theorem Claim.done_branch (c : Claim) (s u : State) (target : Option (TKind × Nat)) (annul : Bool)
    (hf : c.flow (c.mid s) = .branch target annul) (h : c.Fits s u)
    (hpost : c.post (c.mid s) (s.closedBranch u c.eng c.y target annul)) :
    c.Done s (s.closedBranch u c.eng c.y target annul) where
  passed := State.closedBranch_passed _ _ _ _ _ _ (s.closed_passed u _ _ _ h.walk h.phase)
  flows := hf ▸ State.closedBranch_flows _ _ _ _ _ _ (s.closed_straight u _ _ _ h.walk)
  walk := by
    obtain ⟨h1, h2, h3, h4, h5, h6⟩ := s.closed_keepsWalk _ u c.eng c.y false h.only
    constructor <;> rw [State.closedBranch_eng] <;> assumption
  result := h.result.of_flight (by rw [State.closedBranch_eng]; exact s.closed_flight u _ _ _)
  frame := fun p hn => by
    have hne : p ≠ .engine c.eng := fun h => hn (h ▸ List.mem_cons_self)
    exact State.same_trans _ _ _ _ (State.closed_same s _ _ _ _ false _ (h.frame p hn) hne
      (fun h => hn (h ▸ List.mem_cons_of_mem _ List.mem_cons_self))) (State.onEng_same _ _ _ _ hne)
  effect := hpost

/-- An item whose claim has no operation and that is done at once fits it. -/
theorem Claim.fits_same (c : Claim) (s : State) (hd : c.does = id) (hr : c.result = .none) : c.Fits s (s.arrived c.eng c.y) := by
  have hm : c.mid s = s.arrived c.eng c.y := by rw [Claim.mid, hd]; rfl
  exact ⟨hm ▸ State.SameWalk.refl _ _, hm ▸ State.OnlyFlight.refl _ _, State.same_refl _ _,
    by rw [hr, hm]; rfl, fun p _ => hm ▸ State.same_refl _ _⟩

/-- An item that only writes a result of fixed latency fits its claim. -/
theorem Claim.fits_result (c : Claim) (s : State) (r : Reg) (v : State → Val) (lat : Nat) (hd : c.does = id)
    (hr : c.result = .fixed r v lat) :
    c.Fits s ((s.arrived c.eng c.y).result c.eng r (v (s.arrived c.eng c.y)) (s.issueAt c.eng c.y) lat) := by
  have hm : c.mid s = s.arrived c.eng c.y := by rw [Claim.mid, hd]; rfl
  refine ⟨hm ▸ State.SameWalk.refl _ _, hm ▸ ⟨_, State.result_eng ..⟩, State.result_same _ _ _ _ _ _ _ (by simp), ?_, fun p hn => hm ▸ State.result_same _ _ _ _ _ _ _ fun h => hn (h ▸ List.mem_cons_self)⟩
  rw [hr, hm]
  show (State.eng _ _).flight = _
  rw [State.result_eng]

/-- A claim holds of an instruction whose meaning is `issue` with a body that is done. -/
theorem Claim.holds_done (c : Claim) (i : Instr) (body : State → Nat → Effect) (hf : ∀ s, c.flow s = .straight)
    (hx : ∀ s, exec i s = issue c.eng c.y c.srcs s body)
    (hb : ∀ s, s.Ready c.eng c.y c.srcs → c.pre (s.arrived c.eng c.y) →
      ∃ u, body (s.arrived c.eng c.y) (s.issueAt c.eng c.y) = .done u ∧ c.Fits s u ∧
        ∀ via, c.post (c.mid s) (s.closed u c.eng c.y via)) : c.Holds i := by
  intro s hr hp
  obtain ⟨u, h1, h2, h3⟩ := hb s hr hp
  exact ⟨_, (hx s).trans (issue_done _ _ _ _ _ _ hr h1), c.done_of s u _ (hf _) h2 (h3 _)⟩

/-- A claim holds of an instruction whose meaning is `issue` with a body that is a branch. -/
theorem Claim.holds_branch (c : Claim) (i : Instr) (body : State → Nat → Effect)
    (hx : ∀ s, exec i s = issue c.eng c.y c.srcs s body)
    (hb : ∀ s, s.Ready c.eng c.y c.srcs → c.pre (s.arrived c.eng c.y) →
      ∃ u target annul, body (s.arrived c.eng c.y) (s.issueAt c.eng c.y) = .branch u target annul ∧
        c.flow (c.mid s) = .branch target annul ∧ c.Fits s u ∧
        c.post (c.mid s) (s.closedBranch u c.eng c.y target annul)) : c.Holds i := by
  intro s hr hp
  obtain ⟨u, tg, an, h1, hf, h2, h3⟩ := hb s hr hp
  exact ⟨_, (hx s).trans (issue_branch _ _ _ _ _ _ _ _ hr h1), c.done_branch s u _ _ hf h2 h3⟩

/-- A claim about an item that only writes a fixed-latency result. -/
theorem Claim.holds_result (c : Claim) (i : Instr) (r : Reg) (v : State → Val) (lat : Nat)
    (hf : ∀ s, c.flow s = .straight) (hd : c.does = id) (hres : c.result = .fixed r v lat) (hpost : ∀ s t, c.post s t)
    (hx : ∀ s, exec i s = issue c.eng c.y c.srcs s fun s t => .done (s.result c.eng r (v s) t lat)) : c.Holds i :=
  c.holds_done i _ hf hx fun s _ _ => ⟨_, rfl, c.fits_result s r v lat hd hres, fun _ => hpost _ _⟩

end Sys2Proof.Machine
end

