-- ==== Sys2Proof/Laws/Memory.lean ====
section
/-! SUPPORT. The laws of memory: every operation keeps the canonical form, a read after a write gives the bytes written, and a write
leaves every other address alone (01_device R15; log entry 2). -/

namespace Sys2Proof.Machine

/-! ## The canonical form -/

theorem wf_iff (m : Memory) : m.wf = true ↔ m.Pairwise (fun a b => a.1 < b.1) ∧ ∀ c ∈ m, c.2 ≠ 0 := by
  simp [Memory.wf]

theorem wf_nil : Memory.wf [] = true := by decide

theorem wf_filter (m : Memory) (p : Host.Cell → Bool) (h : m.wf = true) : Memory.wf (m.filter p) = true := by
  rw [wf_iff] at *
  exact ⟨h.1.filter _, fun c hc => h.2 c (List.mem_of_mem_filter hc)⟩

theorem memCells_mem (a : Nat) (bs : List Byte) (c : Host.Cell) (h : c ∈ memCells a bs) :
    a ≤ c.1 ∧ c.1 < a + bs.length ∧ c.2 ≠ 0 := by
  induction bs generalizing a with
  | nil => cases h
  | cons b r ih =>
    unfold memCells at h
    split at h
    · obtain ⟨h1, h2, h3⟩ := ih _ h
      exact ⟨by omega, by simp only [List.length_cons]; omega, h3⟩
    · rcases List.mem_cons.1 h with rfl | h
      · simp only [List.length_cons]; exact ⟨by omega, by omega, by assumption⟩
      · obtain ⟨h1, h2, h3⟩ := ih _ h
        exact ⟨by omega, by simp only [List.length_cons]; omega, h3⟩

theorem memCells_wf (a : Nat) (bs : List Byte) : Memory.wf (memCells a bs) = true := by
  rw [wf_iff]
  refine ⟨?_, fun c hc => (memCells_mem _ _ _ hc).2.2⟩
  induction bs generalizing a with
  | nil => exact .nil
  | cons b r ih =>
    unfold memCells
    split
    · exact ih _
    · exact .cons (fun c hc => by have := memCells_mem _ _ _ hc; omega) (ih _)

/-- A write keeps the canonical form. -/
theorem memPut_wf (m : Memory) (a : Nat) (bs : List Byte) (h : m.wf = true) : Memory.wf (memPut m a bs) = true := by
  have h1 := (wf_iff _).1 (wf_filter m (fun c => decide (c.1 < a)) h)
  have h2 := (wf_iff _).1 (memCells_wf a bs)
  have h3 := (wf_iff _).1 (wf_filter m (fun c => decide (a + bs.length ≤ c.1)) h)
  rw [wf_iff, memPut]
  constructor
  · rw [List.pairwise_append, List.pairwise_append]
    refine ⟨⟨h1.1, h2.1, fun x hx y hy => ?_⟩, h3.1, fun x hx y hy => ?_⟩
    · have := of_decide_eq_true (List.mem_filter.1 hx).2
      have := memCells_mem _ _ _ hy
      omega
    · have hy := of_decide_eq_true (List.mem_filter.1 hy).2
      rcases List.mem_append.1 hx with hx | hx
      · have := of_decide_eq_true (List.mem_filter.1 hx).2
        omega
      · have := memCells_mem _ _ _ hx
        omega
  · intro c hc
    rcases List.mem_append.1 hc with hc | hc
    · rcases List.mem_append.1 hc with hc | hc
      · exact h1.2 c hc
      · exact h2.2 c hc
    · exact h3.2 c hc

/-- Zeroing a range keeps the canonical form. -/
theorem memZero_wf (m : Memory) (a n : Nat) (h : m.wf = true) : Memory.wf (memZero m a n) = true := wf_filter _ _ h

theorem memPutVal_wf (m : Memory) (a n v : Nat) (h : m.wf = true) : Memory.wf (memPutVal m a n v) = true := memPut_wf _ _ _ h

theorem wordPut_wf (m : Memory) (w : Nat) (v : BitVec 64) (h : m.wf = true) : Memory.wf (wordPut m w v) = true :=
  memPut_wf _ _ _ h

/-- The memories of the module right after reset are canonical. -/
theorem reset_memory_wf : State.reset.mem.hbm.wf = true ∧ State.reset.mem.host.wf = true := by decide

/-! ## Reads after writes -/

theorem memGet_append (m n : Memory) (x : Nat) (h : ∀ c ∈ m, c.1 ≠ x) : memGet (m ++ n) x = memGet n x := by
  induction m with
  | nil => rfl
  | cons c r ih =>
    simp only [List.cons_append, memGet]
    rw [if_neg (h c List.mem_cons_self)]
    exact ih fun d hd => h d (List.mem_cons_of_mem _ hd)

theorem memGet_none (m : Memory) (x : Nat) (h : ∀ c ∈ m, c.1 ≠ x) : memGet m x = 0 := by
  have := memGet_append m [] x h
  rwa [List.append_nil] at this

theorem memGet_append_none (m n : Memory) (x : Nat) (h : ∀ c ∈ n, c.1 ≠ x) : memGet (m ++ n) x = memGet m x := by
  induction m with
  | nil => exact memGet_none _ _ h
  | cons c r ih => simp only [List.cons_append, memGet, ih]

theorem memGet_filter (m : Memory) (p : Host.Cell → Bool) (x : Nat) (h : ∀ c ∈ m, c.1 = x → p c = true) :
    memGet (m.filter p) x = memGet m x := by
  induction m with
  | nil => rfl
  | cons c r ih =>
    have ihr := ih fun d hd => h d (List.mem_cons_of_mem _ hd)
    by_cases hp : p c = true
    · rw [List.filter_cons_of_pos hp]; simp only [memGet, ihr]
    · rw [List.filter_cons_of_neg hp, ihr]
      simp only [memGet]
      rw [if_neg fun e => hp (h c List.mem_cons_self e)]

theorem memGet_cells (a : Nat) (bs : List Byte) (i : Nat) (h : i < bs.length) : memGet (memCells a bs) (a + i) = bs[i] := by
  induction bs generalizing a i with
  | nil => cases h
  | cons b r ih =>
    unfold memCells
    cases i with
    | zero =>
      split
      · rename_i hb
        rw [memGet_none]
        · exact hb.symm
        · intro c hc; have := memCells_mem _ _ _ hc; omega
      · simp [memGet]
    | succ i =>
      have e := ih (a + 1) i (by simpa using h)
      rw [show a + 1 + i = a + (i + 1) by omega] at e
      split
      · simpa using e
      · simp only [memGet]
        rw [if_neg (by omega)]
        simpa using e

/-- A write leaves every other address alone. -/
theorem memGet_put_other (m : Memory) (a : Nat) (bs : List Byte) (x : Nat) (h : x < a ∨ a + bs.length ≤ x) :
    memGet (memPut m a bs) x = memGet m x := by
  have hc : ∀ c ∈ memCells a bs, c.1 ≠ x := fun c hc => by have := memCells_mem _ _ _ hc; omega
  unfold memPut
  rcases h with h | h
  · rw [memGet_append_none, memGet_append_none, memGet_filter]
    · intro c _ e; exact decide_eq_true (by omega)
    · exact hc
    · intro c hc; have := of_decide_eq_true (List.mem_filter.1 hc).2; omega
  · rw [memGet_append, memGet_filter]
    · intro c _ e; exact decide_eq_true (by omega)
    · intro c hx
      rcases List.mem_append.1 hx with hx | hx
      · have := of_decide_eq_true (List.mem_filter.1 hx).2; omega
      · exact hc c hx

/-- A read after a write gives the byte written. -/
theorem memGet_put (m : Memory) (a : Nat) (bs : List Byte) (i : Nat) (h : i < bs.length) :
    memGet (memPut m a bs) (a + i) = bs[i] := by
  unfold memPut
  rw [memGet_append_none, memGet_append, memGet_cells _ _ _ h]
  · intro c hc; have := of_decide_eq_true (List.mem_filter.1 hc).2; omega
  · intro c hc; have := of_decide_eq_true (List.mem_filter.1 hc).2; omega

theorem memBytes_put (m : Memory) (a : Nat) (bs : List Byte) : memBytes (memPut m a bs) a bs.length = bs := by
  apply List.ext_getElem
  · simp [memBytes]
  · intro i h1 h2
    simp only [memBytes, List.getElem_map, List.getElem_range]
    exact memGet_put m a bs i h2

theorem memBytes_put_other (m : Memory) (a n : Nat) (b : Nat) (bs : List Byte) (h : a + n ≤ b ∨ b + bs.length ≤ a) :
    memBytes (memPut m b bs) a n = memBytes m a n := by
  unfold memBytes
  apply List.map_congr_left
  intro i hi
  have := List.mem_range.1 hi
  exact memGet_put_other _ _ _ _ (by omega)

/-! ## Little-endian values -/

theorem leBytes_length (n v : Nat) : (leBytes n v).length = n := by
  induction n generalizing v with
  | zero => rfl
  | succ n ih => simp [leBytes, ih]

theorem leVal_leBytes (n v : Nat) : leVal (leBytes n v) = v % 2 ^ (8 * n) := by
  induction n generalizing v with
  | zero => simp [leBytes, leVal, Nat.mod_one]
  | succ n ih =>
    simp only [leBytes, leVal, ih, BitVec.toNat_ofNat]
    rw [show 8 * (n + 1) = 8 + 8 * n by ring, pow_add, Nat.mod_mul]

/-- A value read after it was written is that value, in its width. -/
theorem memVal_putVal (m : Memory) (a n v : Nat) : memVal (memPutVal m a n v) a n = v % 2 ^ (8 * n) := by
  have := memBytes_put m a (leBytes n v)
  rw [leBytes_length] at this
  rw [memVal, memPutVal, this, leVal_leBytes]

theorem wordGet_put (m : Memory) (w : Nat) (v : BitVec 64) : wordGet (wordPut m w v) w = v := by
  rw [wordGet, wordPut, memVal_putVal]
  apply BitVec.eq_of_toNat_eq
  rw [BitVec.toNat_ofNat, Nat.mod_mod]
  exact Nat.mod_eq_of_lt v.isLt

end Sys2Proof.Machine
end

