-- ==== Sys2Proof/Laws/Groups.lean ====
section
/-! SUPPORT. The laws of groups on cores and of their scratchpads: what a write to the group on one core does to the bytes of
every core. -/

namespace Sys2Proof.Machine

/-- A change of a group that keeps its core and keeps it placed or not. -/
def StaysOn (f : Group → Group) : Prop := ∀ g, (f g).ident.core = g.ident.core ∧ (f g).phase.isPlaced = g.phase.isPlaced

theorem find_map_group (l : List Group) (f : Group → Group) (core k : Nat) (hf : StaysOn f) :
    (l.map fun g => if g.ident.core == core && g.phase.isPlaced then f g else g).find?
        (fun g => g.ident.core == k && g.phase.isPlaced) =
      (l.find? fun g => g.ident.core == k && g.phase.isPlaced).map fun g => if k = core then f g else g := by
  rw [List.find?_map]
  have hp : ((fun g : Group => g.ident.core == k && g.phase.isPlaced) ∘
      fun g => if (g.ident.core == core && g.phase.isPlaced) = true then f g else g) =
      fun g => g.ident.core == k && g.phase.isPlaced := by
    funext g
    simp only [Function.comp]
    split
    · rw [(hf g).1, (hf g).2]
    · rfl
  rw [hp]
  cases h : l.find? (fun g => g.ident.core == k && g.phase.isPlaced) with
  | none => rfl
  | some g =>
    have hg := List.find?_some h
    simp only [Bool.and_eq_true, beq_iff_eq] at hg
    simp only [Option.map_some, Option.some.injEq]
    by_cases hk : k = core
    · rw [if_pos hk, if_pos (by simp [hg, hk])]
    · rw [if_neg hk, if_neg (by simp [hg, hk])]

theorem State.groups_onCore (s : State) (core : Nat) (f : Group → Group) :
    (s.onCore core f).groups = s.groups.map fun g => if g.ident.core == core && g.phase.isPlaced then f g else g := rfl

theorem State.groupOn_onCore (s : State) (core k : Nat) (f : Group → Group) (hf : StaysOn f) :
    (s.onCore core f).groupOn k = (s.groupOn k).map fun g => if k = core then f g else g := by
  unfold State.groupOn
  rw [State.groups_onCore, find_map_group _ _ _ _ hf]

/-- The group in focus is the group on its own core while it is placed. -/
theorem State.groupOn_me (s : State) (h : s.me.phase.isPlaced = true) : s.groupOn s.me.ident.core = some s.me := by
  unfold State.groupOn State.groups
  rw [List.find?_cons_of_pos]
  simp [h]

theorem leBytes_get (n v i : Nat) (h : i < n) :
    (leBytes n v)[i]'(by rw [leBytes_length]; exact h) = BitVec.ofNat 8 (v / 2 ^ (8 * i)) := by
  induction n generalizing v i with
  | zero => omega
  | succ n ih =>
    cases i with
    | zero => simp [leBytes]
    | succ i =>
      have := ih (v / 2 ^ 8) i (by omega)
      simp only [leBytes, List.getElem_cons_succ]
      rw [this, Nat.div_div_eq_div_mul, ← pow_add]
      congr 3
      omega

/-- Byte `i` of the little-endian bytes of a word. -/
theorem leBytes_byteOf (n : Nat) (v : BitVec 64) (i : Nat) (h : i < n) :
    (leBytes n v.toNat)[i]'(by rw [leBytes_length]; exact h) = byteOf v i := by
  rw [leBytes_get _ _ _ h]
  apply BitVec.eq_of_toNat_eq
  simp [byteOf, Nat.shiftRight_eq_div_pow]

/-- A read of the written memory, byte by byte. -/
theorem memGet_putVal (m : Memory) (a n x v : Nat) :
    memGet (memPutVal m a n v) x =
      if a ≤ x ∧ x < a + n then BitVec.ofNat 8 (v / 2 ^ (8 * (x - a))) else memGet m x := by
  unfold memPutVal
  have hl := leBytes_length n v
  split
  · rename_i h
    have := memGet_put m a (leBytes n v) (x - a) (by omega)
    rw [show a + (x - a) = x by omega, leBytes_get _ _ _ (by omega)] at this
    exact this
  · exact memGet_put_other _ _ _ _ (by omega)

theorem leVal_append_range (f : Nat → Byte) (n : Nat) (a : Nat) :
    leVal ((List.range (n + 1)).map fun i => f (a + i)) =
      (f a).toNat + 2 ^ 8 * leVal ((List.range n).map fun i => f (a + 1 + i)) := by
  rw [List.range_succ_eq_map]
  simp only [List.map_cons, List.map_map, leVal, Nat.add_zero]
  congr 4
  funext i
  simp only [Function.comp, Nat.succ_eq_add_one]
  congr 1
  omega

/-- Bytes of the scratchpad on a core as a number. -/
theorem State.spadNum_eq (s : State) (core x n : Nat) (g : Group) (h : s.groupOn core = some g) :
    s.spadNum core x n = memVal g.store.spad x n := by
  induction n generalizing x with
  | zero => rfl
  | succ n ih =>
    rw [State.spadNum, ih]
    unfold memVal memBytes
    rw [leVal_append_range (memGet g.store.spad)]
    simp only [State.spadByte, h]

theorem State.spadByte_onCore (s : State) (core k x : Nat) (f : Group → Group) (hf : StaysOn f)
    (h : (s.groupOn k).isSome = true) :
    ∃ g, s.groupOn k = some g ∧ (s.onCore core f).spadByte k x = memGet (if k = core then f g else g).store.spad x := by
  obtain ⟨g, hg⟩ := Option.isSome_iff_exists.1 h
  refine ⟨g, hg, ?_⟩
  unfold State.spadByte
  rw [s.groupOn_onCore core k f hf, hg]
  rfl

/-- The signed value of the low `n` bits. -/
theorem sextNat_toInt (n v : Nat) : sextNat n v = (BitVec.ofNat n v).toInt := by
  unfold sextNat
  rw [BitVec.toInt_eq_toNat_cond, BitVec.toNat_ofNat]
  dsimp only
  cases n with
  | zero => simp [Nat.mod_one]
  | succ n =>
    have h2 : 2 ^ (n + 1) = 2 * 2 ^ n := by rw [pow_succ]; ring
    simp only [Nat.add_sub_cancel]
    split <;> split <;> omega

/-- A number widened by its type. -/
theorem extendTo_widened (signed : Bool) (n v : Nat) (h : n ≤ 64) : extendTo signed n v = widened signed n v := by
  unfold extendTo widened wrapInt intVal
  cases signed with
  | true =>
    simp only [if_true]
    rw [sextNat_toInt]
    apply BitVec.eq_of_toNat_eq
    rw [BitVec.toNat_ofNat, ← BitVec.toInt_signExtend_of_le h]
    generalize BitVec.signExtend 64 (BitVec.ofNat n v) = w
    rw [BitVec.toInt_eq_toNat_cond]
    have := w.isLt
    split <;> omega
  | false =>
    simp only [Bool.false_eq_true, if_false]
    apply BitVec.eq_of_toNat_eq
    rw [BitVec.toNat_ofNat, BitVec.toNat_setWidth, BitVec.toNat_ofNat]
    have : v % 2 ^ n < 2 ^ 64 := lt_of_lt_of_le (Nat.mod_lt _ (by positivity)) (Nat.pow_le_pow_right (by omega) h)
    omega

end Sys2Proof.Machine
end

