-- ==== Sys2Proof/Laws/PerInstr.lean ====
section
/-! SUPPORT. The family Encodes: what the encoder gives for each instruction. -/

namespace Sys2Proof

/-- A packed number fits its pieces. -/
theorem foldl_pack_lt (l : List (Nat × Nat)) (h : ∀ p ∈ l, p.2 < 2 ^ p.1) (a n : Nat) (ha : a < 2 ^ n) :
    l.foldl (fun a p => a * 2 ^ p.1 + p.2) a < 2 ^ (n + (l.map (·.1)).sum) := by
  induction l generalizing a n with
  | nil => simpa using ha
  | cons p r ih =>
    have hp := h p (.head _)
    have hb : a * 2 ^ p.1 + p.2 < 2 ^ (n + p.1) := by
      rw [Nat.pow_add]
      nlinarith [Nat.mul_le_mul_right (2 ^ p.1) (Nat.succ_le_of_lt ha)]
    have := ih (fun q hq => h q (.tail _ hq)) _ _ hb
    simpa [Nat.add_assoc] using this

/-- Each piece fits its width. -/
def Fits : List (Nat × Nat) → Prop
  | [] => True
  | p :: r => p.2 < 2 ^ p.1 ∧ Fits r

theorem fits_mem (l : List (Nat × Nat)) (h : Fits l) : ∀ p ∈ l, p.2 < 2 ^ p.1 := by
  induction l with
  | nil => exact fun _ hp => nomatch hp
  | cons q r ih => exact fun p hp => (List.mem_cons.1 hp).elim (fun e => e ▸ h.1) (ih h.2 p)

/-- An item of pieces is below the power of its width. -/
theorem pack_lt (l : List (Nat × Nat)) (n : Nat) (h : Fits l) (hn : (l.map (·.1)).sum = n) : pack l < 2 ^ n := by
  have := foldl_pack_lt l (fits_mem l h) 0 0 (by decide)
  simpa [hn, pack] using this

namespace Laws.Encodes

/-- A well-formed instruction has an item of one or two parcels (04_encoding R49), and its number fits them. -/
def Statement (i : Instr) : Prop :=
  i.wellFormed = true → ∃ n w, encode i = some (n, w) ∧ (n = 16 ∨ n = 32) ∧ w < 2 ^ n

theorem nopC y : Statement (.nopC y) := fun _ =>
  ⟨32, _, rfl, .inr rfl, pack_lt _ _ ⟨by decide, y.isLt, by decide, trivial⟩ rfl⟩
theorem add y d a b : Statement (.add y d a b) := fun _ =>
  ⟨32, _, rfl, .inr rfl, pack_lt _ _ ⟨by decide, y.isLt, d.isLt, a.isLt, b.isLt, by decide, trivial⟩ rfl⟩
theorem sub y d a b : Statement (.sub y d a b) := fun _ =>
  ⟨32, _, rfl, .inr rfl, pack_lt _ _ ⟨by decide, y.isLt, d.isLt, a.isLt, b.isLt, by decide, trivial⟩ rfl⟩
theorem mul y d a b : Statement (.mul y d a b) := fun _ =>
  ⟨32, _, rfl, .inr rfl, pack_lt _ _ ⟨by decide, y.isLt, d.isLt, a.isLt, b.isLt, by decide, trivial⟩ rfl⟩
theorem mulh y d a b : Statement (.mulh y d a b) := fun _ =>
  ⟨32, _, rfl, .inr rfl, pack_lt _ _ ⟨by decide, y.isLt, d.isLt, a.isLt, b.isLt, by decide, trivial⟩ rfl⟩
theorem mulhn y d a b : Statement (.mulhn y d a b) := fun _ =>
  ⟨32, _, rfl, .inr rfl, pack_lt _ _ ⟨by decide, y.isLt, d.isLt, a.isLt, b.isLt, by decide, trivial⟩ rfl⟩
theorem div y d a b : Statement (.div y d a b) := fun _ =>
  ⟨32, _, rfl, .inr rfl, pack_lt _ _ ⟨by decide, y.isLt, d.isLt, a.isLt, b.isLt, by decide, trivial⟩ rfl⟩
theorem divn y d a b : Statement (.divn y d a b) := fun _ =>
  ⟨32, _, rfl, .inr rfl, pack_lt _ _ ⟨by decide, y.isLt, d.isLt, a.isLt, b.isLt, by decide, trivial⟩ rfl⟩
theorem rem y d a b : Statement (.rem y d a b) := fun _ =>
  ⟨32, _, rfl, .inr rfl, pack_lt _ _ ⟨by decide, y.isLt, d.isLt, a.isLt, b.isLt, by decide, trivial⟩ rfl⟩
theorem remn y d a b : Statement (.remn y d a b) := fun _ =>
  ⟨32, _, rfl, .inr rfl, pack_lt _ _ ⟨by decide, y.isLt, d.isLt, a.isLt, b.isLt, by decide, trivial⟩ rfl⟩
theorem and y d a b : Statement (.and y d a b) := fun _ =>
  ⟨32, _, rfl, .inr rfl, pack_lt _ _ ⟨by decide, y.isLt, d.isLt, a.isLt, b.isLt, by decide, trivial⟩ rfl⟩
theorem or y d a b : Statement (.or y d a b) := fun _ =>
  ⟨32, _, rfl, .inr rfl, pack_lt _ _ ⟨by decide, y.isLt, d.isLt, a.isLt, b.isLt, by decide, trivial⟩ rfl⟩
theorem xor y d a b : Statement (.xor y d a b) := fun _ =>
  ⟨32, _, rfl, .inr rfl, pack_lt _ _ ⟨by decide, y.isLt, d.isLt, a.isLt, b.isLt, by decide, trivial⟩ rfl⟩
theorem shl y d a b : Statement (.shl y d a b) := fun _ =>
  ⟨32, _, rfl, .inr rfl, pack_lt _ _ ⟨by decide, y.isLt, d.isLt, a.isLt, b.isLt, by decide, trivial⟩ rfl⟩
theorem shr y d a b : Statement (.shr y d a b) := fun _ =>
  ⟨32, _, rfl, .inr rfl, pack_lt _ _ ⟨by decide, y.isLt, d.isLt, a.isLt, b.isLt, by decide, trivial⟩ rfl⟩
theorem sar y d a b : Statement (.sar y d a b) := fun _ =>
  ⟨32, _, rfl, .inr rfl, pack_lt _ _ ⟨by decide, y.isLt, d.isLt, a.isLt, b.isLt, by decide, trivial⟩ rfl⟩
theorem slt y d a b : Statement (.slt y d a b) := fun _ =>
  ⟨32, _, rfl, .inr rfl, pack_lt _ _ ⟨by decide, y.isLt, d.isLt, a.isLt, b.isLt, by decide, trivial⟩ rfl⟩
theorem sltn y d a b : Statement (.sltn y d a b) := fun _ =>
  ⟨32, _, rfl, .inr rfl, pack_lt _ _ ⟨by decide, y.isLt, d.isLt, a.isLt, b.isLt, by decide, trivial⟩ rfl⟩
theorem min y d a b : Statement (.min y d a b) := fun _ =>
  ⟨32, _, rfl, .inr rfl, pack_lt _ _ ⟨by decide, y.isLt, d.isLt, a.isLt, b.isLt, by decide, trivial⟩ rfl⟩
theorem max y d a b : Statement (.max y d a b) := fun _ =>
  ⟨32, _, rfl, .inr rfl, pack_lt _ _ ⟨by decide, y.isLt, d.isLt, a.isLt, b.isLt, by decide, trivial⟩ rfl⟩
theorem minn y d a b : Statement (.minn y d a b) := fun _ =>
  ⟨32, _, rfl, .inr rfl, pack_lt _ _ ⟨by decide, y.isLt, d.isLt, a.isLt, b.isLt, by decide, trivial⟩ rfl⟩
theorem maxn y d a b : Statement (.maxn y d a b) := fun _ =>
  ⟨32, _, rfl, .inr rfl, pack_lt _ _ ⟨by decide, y.isLt, d.isLt, a.isLt, b.isLt, by decide, trivial⟩ rfl⟩
theorem fsh y d a b x : Statement (.fsh y d a b x) := fun _ =>
  ⟨32, _, rfl, .inr rfl, pack_lt _ _ ⟨by decide, y.isLt, d.isLt, a.isLt, b.isLt, x.isLt, trivial⟩ rfl⟩
theorem sel y d a b p : Statement (.sel y d a b p) := fun _ =>
  ⟨32, _, rfl, .inr rfl, pack_lt _ _ ⟨by decide, y.isLt, d.isLt, a.isLt, b.isLt, by decide, p.isLt, trivial⟩ rfl⟩
theorem addi y d a k : Statement (.addi y d a k) := fun _ =>
  ⟨32, _, rfl, .inr rfl, pack_lt _ _ ⟨by decide, y.isLt, d.isLt, a.isLt, k.isLt, trivial⟩ rfl⟩
theorem andi y d a k : Statement (.andi y d a k) := fun _ =>
  ⟨32, _, rfl, .inr rfl, pack_lt _ _ ⟨by decide, y.isLt, d.isLt, a.isLt, k.isLt, trivial⟩ rfl⟩
theorem ori y d a k : Statement (.ori y d a k) := fun _ =>
  ⟨32, _, rfl, .inr rfl, pack_lt _ _ ⟨by decide, y.isLt, d.isLt, a.isLt, k.isLt, trivial⟩ rfl⟩
theorem xori y d a k : Statement (.xori y d a k) := fun _ =>
  ⟨32, _, rfl, .inr rfl, pack_lt _ _ ⟨by decide, y.isLt, d.isLt, a.isLt, k.isLt, trivial⟩ rfl⟩
theorem shli y d a k : Statement (.shli y d a k) := fun _ =>
  ⟨32, _, rfl, .inr rfl, pack_lt _ _ ⟨by decide, y.isLt, d.isLt, a.isLt, by decide, k.isLt, trivial⟩ rfl⟩
theorem shri y d a k : Statement (.shri y d a k) := fun _ =>
  ⟨32, _, rfl, .inr rfl, pack_lt _ _ ⟨by decide, y.isLt, d.isLt, a.isLt, by decide, k.isLt, trivial⟩ rfl⟩
theorem sari y d a k : Statement (.sari y d a k) := fun _ =>
  ⟨32, _, rfl, .inr rfl, pack_lt _ _ ⟨by decide, y.isLt, d.isLt, a.isLt, by decide, k.isLt, trivial⟩ rfl⟩
theorem slti y d a k : Statement (.slti y d a k) := fun _ =>
  ⟨32, _, rfl, .inr rfl, pack_lt _ _ ⟨by decide, y.isLt, d.isLt, a.isLt, k.isLt, trivial⟩ rfl⟩
theorem ext y d a l p : Statement (.ext y d a l p) := fun _ =>
  ⟨32, _, rfl, .inr rfl, pack_lt _ _ ⟨by decide, y.isLt, d.isLt, a.isLt, l.isLt, p.isLt, trivial⟩ rfl⟩
theorem ins y d a l p : Statement (.ins y d a l p) := fun _ =>
  ⟨32, _, rfl, .inr rfl, pack_lt _ _ ⟨by decide, y.isLt, d.isLt, a.isLt, l.isLt, p.isLt, trivial⟩ rfl⟩
theorem clz y d a : Statement (.clz y d a) := fun _ =>
  ⟨32, _, rfl, .inr rfl, pack_lt _ _ ⟨by decide, y.isLt, d.isLt, a.isLt, by decide, trivial⟩ rfl⟩
theorem ctz y d a : Statement (.ctz y d a) := fun _ =>
  ⟨32, _, rfl, .inr rfl, pack_lt _ _ ⟨by decide, y.isLt, d.isLt, a.isLt, by decide, trivial⟩ rfl⟩
theorem popc y d a : Statement (.popc y d a) := fun _ =>
  ⟨32, _, rfl, .inr rfl, pack_lt _ _ ⟨by decide, y.isLt, d.isLt, a.isLt, by decide, trivial⟩ rfl⟩
theorem lih y d k : Statement (.lih y d k) := fun _ =>
  ⟨32, _, rfl, .inr rfl, pack_lt _ _ ⟨by decide, y.isLt, d.isLt, k.isLt, trivial⟩ rfl⟩
theorem cmpCc y d a b c : Statement (.cmpCc y d a b c) := fun _ =>
  ⟨32, _, rfl, .inr rfl, pack_lt _ _ ⟨by decide, y.isLt, by decide, d.isLt, a.isLt, b.isLt, by decide, c.isLt, trivial⟩ rfl⟩
theorem cmpiCc c y d a k : Statement (.cmpiCc c y d a k) := fun _ =>
  ⟨32, _, rfl, .inr rfl, pack_lt _ _ ⟨by decide, c.isLt, y.isLt, by decide, d.isLt, a.isLt, k.isLt, trivial⟩ rfl⟩
theorem bCc c y d a k : Statement (.bCc c y d a k) := fun _ =>
  ⟨32, _, rfl, .inr rfl, pack_lt _ _ ⟨by decide, c.isLt, by decide, y.isLt, d.isLt, a.isLt, k.isLt, trivial⟩ rfl⟩
theorem bCcA c y d a k : Statement (.bCcA c y d a k) := fun _ =>
  ⟨32, _, rfl, .inr rfl, pack_lt _ _ ⟨by decide, c.isLt, by decide, y.isLt, d.isLt, a.isLt, k.isLt, trivial⟩ rfl⟩
theorem br y k : Statement (.br y k) := fun _ =>
  ⟨32, _, rfl, .inr rfl, pack_lt _ _ ⟨by decide, y.isLt, k.isLt, trivial⟩ rfl⟩
theorem call y k : Statement (.call y k) := fun _ =>
  ⟨32, _, rfl, .inr rfl, pack_lt _ _ ⟨by decide, y.isLt, k.isLt, trivial⟩ rfl⟩
theorem ret y : Statement (.ret y) := fun _ =>
  ⟨32, _, rfl, .inr rfl, pack_lt _ _ ⟨by decide, y.isLt, by decide, trivial⟩ rfl⟩
theorem jr y d : Statement (.jr y d) := fun _ =>
  ⟨32, _, rfl, .inr rfl, pack_lt _ _ ⟨by decide, y.isLt, d.isLt, by decide, trivial⟩ rfl⟩
theorem qpush y d a : Statement (.qpush y d a) := fun _ =>
  ⟨32, _, rfl, .inr rfl, pack_lt _ _ ⟨by decide, y.isLt, by decide, d.isLt, a.isLt, by decide, trivial⟩ rfl⟩
theorem qpop y d a : Statement (.qpop y d a) := fun _ =>
  ⟨32, _, rfl, .inr rfl, pack_lt _ _ ⟨by decide, y.isLt, d.isLt, by decide, a.isLt, by decide, trivial⟩ rfl⟩
theorem qpeek y d a : Statement (.qpeek y d a) := fun _ =>
  ⟨32, _, rfl, .inr rfl, pack_lt _ _ ⟨by decide, y.isLt, d.isLt, by decide, a.isLt, by decide, trivial⟩ rfl⟩
theorem qbind y d p c : Statement (.qbind y d p c) := fun _ =>
  ⟨32, _, rfl, .inr rfl, pack_lt _ _ ⟨by decide, y.isLt, by decide, d.isLt, by decide, p.isLt, c.isLt, trivial⟩ rfl⟩
theorem ld y t b h w i x : Statement (.ld y t b h w i x) := fun _ =>
  ⟨32, _, rfl, .inr rfl, pack_lt _ _ ⟨by decide, y.isLt, t.isLt, b.isLt, h.isLt, w.isLt, i.isLt, x.isLt, trivial⟩ rfl⟩
theorem st y t b h w i x : Statement (.st y t b h w i x) := fun _ =>
  ⟨32, _, rfl, .inr rfl, pack_lt _ _ ⟨by decide, y.isLt, t.isLt, b.isLt, h.isLt, w.isLt, i.isLt, x.isLt, trivial⟩ rfl⟩
theorem xlate y d a : Statement (.xlate y d a) := fun _ =>
  ⟨32, _, rfl, .inr rfl, pack_lt _ _ ⟨by decide, y.isLt, by decide, d.isLt, a.isLt, by decide, trivial⟩ rfl⟩
theorem hdrop y d : Statement (.hdrop y d) := fun _ =>
  ⟨32, _, rfl, .inr rfl, pack_lt _ _ ⟨by decide, y.isLt, by decide, d.isLt, by decide, trivial⟩ rfl⟩
theorem hchk y d a : Statement (.hchk y d a) := fun _ =>
  ⟨32, _, rfl, .inr rfl, pack_lt _ _ ⟨by decide, y.isLt, d.isLt, by decide, a.isLt, by decide, trivial⟩ rfl⟩
theorem sealPages y d a : Statement (.sealPages y d a) := fun _ =>
  ⟨32, _, rfl, .inr rfl, pack_lt _ _ ⟨by decide, y.isLt, d.isLt, a.isLt, by decide, trivial⟩ rfl⟩
theorem unsealPages y d a : Statement (.unsealPages y d a) := fun _ =>
  ⟨32, _, rfl, .inr rfl, pack_lt _ _ ⟨by decide, y.isLt, d.isLt, a.isLt, by decide, trivial⟩ rfl⟩
theorem bind y a k : Statement (.bind y a k) := fun _ =>
  ⟨32, _, rfl, .inr rfl, pack_lt _ _ ⟨by decide, y.isLt, by decide, a.isLt, k.isLt, trivial⟩ rfl⟩
theorem unbind y k : Statement (.unbind y k) := fun _ =>
  ⟨32, _, rfl, .inr rfl, pack_lt _ _ ⟨by decide, y.isLt, by decide, k.isLt, trivial⟩ rfl⟩
theorem acq y d p e : Statement (.acq y d p e) := fun _ =>
  ⟨32, _, rfl, .inr rfl, pack_lt _ _ ⟨by decide, y.isLt, d.isLt, by decide, p.isLt, e.isLt, trivial⟩ rfl⟩
theorem rel y d : Statement (.rel y d) := fun _ =>
  ⟨32, _, rfl, .inr rfl, pack_lt _ _ ⟨by decide, y.isLt, d.isLt, by decide, trivial⟩ rfl⟩
theorem fence y s : Statement (.fence y s) := fun _ =>
  ⟨32, _, rfl, .inr rfl, pack_lt _ _ ⟨by decide, y.isLt, by decide, s.isLt, trivial⟩ rfl⟩
theorem tlook y d a : Statement (.tlook y d a) := fun _ =>
  ⟨32, _, rfl, .inr rfl, pack_lt _ _ ⟨by decide, y.isLt, d.isLt, a.isLt, by decide, trivial⟩ rfl⟩
theorem tset y d a b z : Statement (.tset y d a b z) := fun _ =>
  ⟨32, _, rfl, .inr rfl, pack_lt _ _ ⟨by decide, y.isLt, d.isLt, a.isLt, b.isLt, by decide, z.isLt, trivial⟩ rfl⟩
theorem tclr y d l : Statement (.tclr y d l) := fun _ =>
  ⟨32, _, rfl, .inr rfl, pack_lt _ _ ⟨by decide, y.isLt, d.isLt, by decide, l.isLt, trivial⟩ rfl⟩
theorem aadd y t b h w s q : Statement (.aadd y t b h w s q) := fun _ =>
  ⟨32, _, rfl, .inr rfl, pack_lt _ _ ⟨by decide, y.isLt, t.isLt, b.isLt, h.isLt, w.isLt, s.isLt, q.isLt, by decide, trivial⟩ rfl⟩
theorem axchg y t b h w s : Statement (.axchg y t b h w s) := fun _ =>
  ⟨32, _, rfl, .inr rfl, pack_lt _ _ ⟨by decide, y.isLt, t.isLt, b.isLt, h.isLt, w.isLt, s.isLt, by decide, trivial⟩ rfl⟩
theorem acas y t b h w s : Statement (.acas y t b h w s) := fun _ =>
  ⟨32, _, rfl, .inr rfl, pack_lt _ _ ⟨by decide, y.isLt, t.isLt, b.isLt, h.isLt, w.isLt, s.isLt, by decide, trivial⟩ rfl⟩
theorem amin y t b h w s : Statement (.amin y t b h w s) := fun _ =>
  ⟨32, _, rfl, .inr rfl, pack_lt _ _ ⟨by decide, y.isLt, t.isLt, b.isLt, h.isLt, w.isLt, s.isLt, by decide, trivial⟩ rfl⟩
theorem amax y t b h w s : Statement (.amax y t b h w s) := fun _ =>
  ⟨32, _, rfl, .inr rfl, pack_lt _ _ ⟨by decide, y.isLt, t.isLt, b.isLt, h.isLt, w.isLt, s.isLt, by decide, trivial⟩ rfl⟩
theorem aand y t b h w s : Statement (.aand y t b h w s) := fun _ =>
  ⟨32, _, rfl, .inr rfl, pack_lt _ _ ⟨by decide, y.isLt, t.isLt, b.isLt, h.isLt, w.isLt, s.isLt, by decide, trivial⟩ rfl⟩
theorem aor y t b h w s : Statement (.aor y t b h w s) := fun _ =>
  ⟨32, _, rfl, .inr rfl, pack_lt _ _ ⟨by decide, y.isLt, t.isLt, b.isLt, h.isLt, w.isLt, s.isLt, by decide, trivial⟩ rfl⟩
theorem axor y t b h w s : Statement (.axor y t b h w s) := fun _ =>
  ⟨32, _, rfl, .inr rfl, pack_lt _ _ ⟨by decide, y.isLt, t.isLt, b.isLt, h.isLt, w.isLt, s.isLt, by decide, trivial⟩ rfl⟩
theorem aincw y t b h w s : Statement (.aincw y t b h w s) := fun _ =>
  ⟨32, _, rfl, .inr rfl, pack_lt _ _ ⟨by decide, y.isLt, t.isLt, b.isLt, h.isLt, w.isLt, s.isLt, by decide, trivial⟩ rfl⟩
theorem afaddb y t b h w s p : Statement (.afaddb y t b h w s p) := fun _ =>
  ⟨32, _, rfl, .inr rfl, pack_lt _ _ ⟨by decide, y.isLt, t.isLt, b.isLt, h.isLt, w.isLt, s.isLt, by decide, p.isLt, trivial⟩ rfl⟩
theorem ared y t b k : Statement (.ared y t b k) := fun _ =>
  ⟨32, _, rfl, .inr rfl, pack_lt _ _ ⟨by decide, y.isLt, t.isLt, b.isLt, by decide, k.isLt, by decide, trivial⟩ rfl⟩
theorem atclose y : Statement (.atclose y) := fun _ =>
  ⟨32, _, rfl, .inr rfl, pack_lt _ _ ⟨by decide, y.isLt, by decide, trivial⟩ rfl⟩
theorem fset y n : Statement (.fset y n) := fun _ =>
  ⟨32, _, rfl, .inr rfl, pack_lt _ _ ⟨by decide, y.isLt, n.isLt, by decide, trivial⟩ rfl⟩
theorem fclr y n : Statement (.fclr y n) := fun _ =>
  ⟨32, _, rfl, .inr rfl, pack_lt _ _ ⟨by decide, y.isLt, n.isLt, by decide, trivial⟩ rfl⟩
theorem fwait y n p : Statement (.fwait y n p) := fun _ =>
  ⟨32, _, rfl, .inr rfl, pack_lt _ _ ⟨by decide, y.isLt, n.isLt, by decide, p.isLt, trivial⟩ rfl⟩
theorem ftest y n p : Statement (.ftest y n p) := fun _ =>
  ⟨32, _, rfl, .inr rfl, pack_lt _ _ ⟨by decide, y.isLt, n.isLt, by decide, p.isLt, trivial⟩ rfl⟩
theorem barjoin y n a : Statement (.barjoin y n a) := fun _ =>
  ⟨32, _, rfl, .inr rfl, pack_lt _ _ ⟨by decide, y.isLt, n.isLt, a.isLt, by decide, trivial⟩ rfl⟩
theorem barwait y n p : Statement (.barwait y n p) := fun _ =>
  ⟨32, _, rfl, .inr rfl, pack_lt _ _ ⟨by decide, y.isLt, n.isLt, by decide, p.isLt, trivial⟩ rfl⟩
theorem jobx y a : Statement (.jobx y a) := fun _ =>
  ⟨32, _, rfl, .inr rfl, pack_lt _ _ ⟨by decide, y.isLt, by decide, a.isLt, by decide, trivial⟩ rfl⟩
theorem hfold y p h a e : Statement (.hfold y p h a e) := fun _ =>
  ⟨32, _, rfl, .inr rfl, pack_lt _ _ ⟨by decide, y.isLt, by decide, p.isLt, h.isLt, a.isLt, e.isLt, trivial⟩ rfl⟩
theorem hscan y p h a e : Statement (.hscan y p h a e) := fun _ =>
  ⟨32, _, rfl, .inr rfl, pack_lt _ _ ⟨by decide, y.isLt, by decide, p.isLt, h.isLt, a.isLt, e.isLt, trivial⟩ rfl⟩
theorem hzip y p h a e : Statement (.hzip y p h a e) := fun _ =>
  ⟨32, _, rfl, .inr rfl, pack_lt _ _ ⟨by decide, y.isLt, by decide, p.isLt, h.isLt, a.isLt, e.isLt, trivial⟩ rfl⟩
theorem houter y p h a e : Statement (.houter y p h a e) := fun _ =>
  ⟨32, _, rfl, .inr rfl, pack_lt _ _ ⟨by decide, y.isLt, by decide, p.isLt, h.isLt, a.isLt, e.isLt, trivial⟩ rfl⟩
theorem rdef y h a : Statement (.rdef y h a) := fun _ =>
  ⟨32, _, rfl, .inr rfl, pack_lt _ _ ⟨by decide, y.isLt, by decide, h.isLt, a.isLt, by decide, trivial⟩ rfl⟩
theorem rdrop y h : Statement (.rdrop y h) := fun _ =>
  ⟨32, _, rfl, .inr rfl, pack_lt _ _ ⟨by decide, y.isLt, by decide, h.isLt, by decide, trivial⟩ rfl⟩
theorem wqpost y a : Statement (.wqpost y a) := fun _ =>
  ⟨32, _, rfl, .inr rfl, pack_lt _ _ ⟨by decide, y.isLt, by decide, a.isLt, by decide, trivial⟩ rfl⟩
theorem wqarm y n a : Statement (.wqarm y n a) := fun _ =>
  ⟨32, _, rfl, .inr rfl, pack_lt _ _ ⟨by decide, y.isLt, n.isLt, a.isLt, by decide, trivial⟩ rfl⟩
theorem wqcancel y n : Statement (.wqcancel y n) := fun _ =>
  ⟨32, _, rfl, .inr rfl, pack_lt _ _ ⟨by decide, y.isLt, n.isLt, by decide, trivial⟩ rfl⟩
theorem wqstat y n d : Statement (.wqstat y n d) := fun _ =>
  ⟨32, _, rfl, .inr rfl, pack_lt _ _ ⟨by decide, y.isLt, n.isLt, d.isLt, by decide, trivial⟩ rfl⟩
theorem cntset y n a : Statement (.cntset y n a) := fun _ =>
  ⟨32, _, rfl, .inr rfl, pack_lt _ _ ⟨by decide, y.isLt, n.isLt, a.isLt, by decide, trivial⟩ rfl⟩
theorem cntadd y n a i : Statement (.cntadd y n a i) := fun _ =>
  ⟨32, _, rfl, .inr rfl, pack_lt _ _ ⟨by decide, y.isLt, n.isLt, a.isLt, i.isLt, by decide, trivial⟩ rfl⟩
theorem cntwait y n a : Statement (.cntwait y n a) := fun _ =>
  ⟨32, _, rfl, .inr rfl, pack_lt _ _ ⟨by decide, y.isLt, n.isLt, a.isLt, by decide, trivial⟩ rfl⟩
theorem cntread y n d : Statement (.cntread y n d) := fun _ =>
  ⟨32, _, rfl, .inr rfl, pack_lt _ _ ⟨by decide, y.isLt, n.isLt, d.isLt, by decide, trivial⟩ rfl⟩
theorem gencfg y w a : Statement (.gencfg y w a) := fun _ =>
  ⟨32, _, rfl, .inr rfl, pack_lt _ _ ⟨by decide, y.isLt, by decide, w.isLt, a.isLt, by decide, trivial⟩ rfl⟩
theorem geninv y w : Statement (.geninv y w) := fun _ =>
  ⟨32, _, rfl, .inr rfl, pack_lt _ _ ⟨by decide, y.isLt, by decide, w.isLt, by decide, trivial⟩ rfl⟩
theorem gsr y d k : Statement (.gsr y d k) := fun _ =>
  ⟨32, _, rfl, .inr rfl, pack_lt _ _ ⟨by decide, y.isLt, d.isLt, by decide, k.isLt, trivial⟩ rfl⟩
theorem ssr y a k : Statement (.ssr y a k) := fun _ =>
  ⟨32, _, rfl, .inr rfl, pack_lt _ _ ⟨by decide, y.isLt, by decide, a.isLt, k.isLt, trivial⟩ rfl⟩
theorem trap y d a : Statement (.trap y d a) := fun _ =>
  ⟨32, _, rfl, .inr rfl, pack_lt _ _ ⟨by decide, y.isLt, d.isLt, a.isLt, by decide, trivial⟩ rfl⟩
theorem rft y d : Statement (.rft y d) := fun _ =>
  ⟨32, _, rfl, .inr rfl, pack_lt _ _ ⟨by decide, y.isLt, d.isLt, by decide, trivial⟩ rfl⟩
theorem brk y d : Statement (.brk y d) := fun _ =>
  ⟨32, _, rfl, .inr rfl, pack_lt _ _ ⟨by decide, y.isLt, d.isLt, by decide, trivial⟩ rfl⟩
theorem thset y a b : Statement (.thset y a b) := fun _ =>
  ⟨32, _, rfl, .inr rfl, pack_lt _ _ ⟨by decide, y.isLt, by decide, a.isLt, b.isLt, by decide, trivial⟩ rfl⟩
theorem engclaim y : Statement (.engclaim y) := fun _ =>
  ⟨32, _, rfl, .inr rfl, pack_lt _ _ ⟨by decide, y.isLt, by decide, trivial⟩ rfl⟩
theorem engrel y : Statement (.engrel y) := fun _ =>
  ⟨32, _, rfl, .inr rfl, pack_lt _ _ ⟨by decide, y.isLt, by decide, trivial⟩ rfl⟩
theorem timealign y a : Statement (.timealign y a) := fun _ =>
  ⟨32, _, rfl, .inr rfl, pack_lt _ _ ⟨by decide, y.isLt, by decide, a.isLt, by decide, trivial⟩ rfl⟩
theorem erd y d a : Statement (.erd y d a) := fun _ =>
  ⟨32, _, rfl, .inr rfl, pack_lt _ _ ⟨by decide, y.isLt, by decide, d.isLt, a.isLt, by decide, trivial⟩ rfl⟩
theorem emov y d a : Statement (.emov y d a) := fun _ =>
  ⟨32, _, rfl, .inr rfl, pack_lt _ _ ⟨by decide, y.isLt, by decide, d.isLt, by decide, a.isLt, by decide, trivial⟩ rfl⟩
theorem estore y d a b : Statement (.estore y d a b) := fun _ =>
  ⟨32, _, rfl, .inr rfl, pack_lt _ _ ⟨by decide, y.isLt, by decide, d.isLt, by decide, a.isLt, b.isLt, by decide, trivial⟩ rfl⟩
theorem trace y d a : Statement (.trace y d a) := fun _ =>
  ⟨32, _, rfl, .inr rfl, pack_lt _ _ ⟨by decide, y.isLt, d.isLt, a.isLt, by decide, trivial⟩ rfl⟩
theorem yield y : Statement (.yield y) := fun _ =>
  ⟨32, _, rfl, .inr rfl, pack_lt _ _ ⟨by decide, y.isLt, by decide, trivial⟩ rfl⟩
theorem halt y : Statement (.halt y) := fun _ =>
  ⟨32, _, rfl, .inr rfl, pack_lt _ _ ⟨by decide, y.isLt, by decide, trivial⟩ rfl⟩
theorem iinv y a b : Statement (.iinv y a b) := fun _ =>
  ⟨32, _, rfl, .inr rfl, pack_lt _ _ ⟨by decide, y.isLt, by decide, a.isLt, b.isLt, by decide, trivial⟩ rfl⟩
theorem calset y d a : Statement (.calset y d a) := fun _ =>
  ⟨32, _, rfl, .inr rfl, pack_lt _ _ ⟨by decide, y.isLt, d.isLt, a.isLt, by decide, trivial⟩ rfl⟩
theorem xswap y d a : Statement (.xswap y d a) := fun _ =>
  ⟨32, _, rfl, .inr rfl, pack_lt _ _ ⟨by decide, y.isLt, d.isLt, a.isLt, by decide, trivial⟩ rfl⟩
theorem nopV y : Statement (.nopV y) := fun _ =>
  ⟨32, _, rfl, .inr rfl, pack_lt _ _ ⟨by decide, y.isLt, by decide, trivial⟩ rfl⟩
theorem vadd y d a b t s : Statement (.vadd y d a b t s) := fun _ =>
  ⟨32, _, rfl, .inr rfl, pack_lt _ _ ⟨by decide, y.isLt, d.isLt, a.isLt, b.isLt, t.isLt, s.isLt, trivial⟩ rfl⟩
theorem vaddZq y d a b t s : Statement (.vaddZq y d a b t s) := fun _ =>
  ⟨32, _, rfl, .inr rfl, pack_lt _ _ ⟨by decide, y.isLt, d.isLt, a.isLt, b.isLt, t.isLt, s.isLt, trivial⟩ rfl⟩
theorem vsub y d a b t s : Statement (.vsub y d a b t s) := fun _ =>
  ⟨32, _, rfl, .inr rfl, pack_lt _ _ ⟨by decide, y.isLt, d.isLt, a.isLt, b.isLt, t.isLt, s.isLt, trivial⟩ rfl⟩
theorem vsubZq y d a b t s : Statement (.vsubZq y d a b t s) := fun _ =>
  ⟨32, _, rfl, .inr rfl, pack_lt _ _ ⟨by decide, y.isLt, d.isLt, a.isLt, b.isLt, t.isLt, s.isLt, trivial⟩ rfl⟩
theorem vmul y d a b t s : Statement (.vmul y d a b t s) := fun _ =>
  ⟨32, _, rfl, .inr rfl, pack_lt _ _ ⟨by decide, y.isLt, d.isLt, a.isLt, b.isLt, t.isLt, s.isLt, trivial⟩ rfl⟩
theorem vmulZq y d a b t s : Statement (.vmulZq y d a b t s) := fun _ =>
  ⟨32, _, rfl, .inr rfl, pack_lt _ _ ⟨by decide, y.isLt, d.isLt, a.isLt, b.isLt, t.isLt, s.isLt, trivial⟩ rfl⟩
theorem vfma y d a b t : Statement (.vfma y d a b t) := fun _ =>
  ⟨32, _, rfl, .inr rfl, pack_lt _ _ ⟨by decide, y.isLt, d.isLt, a.isLt, b.isLt, t.isLt, by decide, trivial⟩ rfl⟩
theorem vfmaZq y d a b t : Statement (.vfmaZq y d a b t) := fun _ =>
  ⟨32, _, rfl, .inr rfl, pack_lt _ _ ⟨by decide, y.isLt, d.isLt, a.isLt, b.isLt, t.isLt, by decide, trivial⟩ rfl⟩
theorem vmin y d a b t : Statement (.vmin y d a b t) := fun _ =>
  ⟨32, _, rfl, .inr rfl, pack_lt _ _ ⟨by decide, y.isLt, d.isLt, a.isLt, b.isLt, t.isLt, by decide, trivial⟩ rfl⟩
theorem vminZq y d a b t : Statement (.vminZq y d a b t) := fun _ =>
  ⟨32, _, rfl, .inr rfl, pack_lt _ _ ⟨by decide, y.isLt, d.isLt, a.isLt, b.isLt, t.isLt, by decide, trivial⟩ rfl⟩
theorem vmax y d a b t : Statement (.vmax y d a b t) := fun _ =>
  ⟨32, _, rfl, .inr rfl, pack_lt _ _ ⟨by decide, y.isLt, d.isLt, a.isLt, b.isLt, t.isLt, by decide, trivial⟩ rfl⟩
theorem vmaxZq y d a b t : Statement (.vmaxZq y d a b t) := fun _ =>
  ⟨32, _, rfl, .inr rfl, pack_lt _ _ ⟨by decide, y.isLt, d.isLt, a.isLt, b.isLt, t.isLt, by decide, trivial⟩ rfl⟩
theorem vabs y d b t s : Statement (.vabs y d b t s) := fun _ =>
  ⟨32, _, rfl, .inr rfl, pack_lt _ _ ⟨by decide, y.isLt, d.isLt, by decide, b.isLt, t.isLt, s.isLt, trivial⟩ rfl⟩
theorem vabsZq y d b t s : Statement (.vabsZq y d b t s) := fun _ =>
  ⟨32, _, rfl, .inr rfl, pack_lt _ _ ⟨by decide, y.isLt, d.isLt, by decide, b.isLt, t.isLt, s.isLt, trivial⟩ rfl⟩
theorem vneg y d b t s : Statement (.vneg y d b t s) := fun _ =>
  ⟨32, _, rfl, .inr rfl, pack_lt _ _ ⟨by decide, y.isLt, d.isLt, by decide, b.isLt, t.isLt, s.isLt, trivial⟩ rfl⟩
theorem vnegZq y d b t s : Statement (.vnegZq y d b t s) := fun _ =>
  ⟨32, _, rfl, .inr rfl, pack_lt _ _ ⟨by decide, y.isLt, d.isLt, by decide, b.isLt, t.isLt, s.isLt, trivial⟩ rfl⟩
theorem vand y d a b : Statement (.vand y d a b) := fun _ =>
  ⟨32, _, rfl, .inr rfl, pack_lt _ _ ⟨by decide, y.isLt, d.isLt, a.isLt, b.isLt, by decide, trivial⟩ rfl⟩
theorem vandZq y d a b : Statement (.vandZq y d a b) := fun _ =>
  ⟨32, _, rfl, .inr rfl, pack_lt _ _ ⟨by decide, y.isLt, d.isLt, a.isLt, b.isLt, by decide, trivial⟩ rfl⟩
theorem vor y d a b : Statement (.vor y d a b) := fun _ =>
  ⟨32, _, rfl, .inr rfl, pack_lt _ _ ⟨by decide, y.isLt, d.isLt, a.isLt, b.isLt, by decide, trivial⟩ rfl⟩
theorem vorZq y d a b : Statement (.vorZq y d a b) := fun _ =>
  ⟨32, _, rfl, .inr rfl, pack_lt _ _ ⟨by decide, y.isLt, d.isLt, a.isLt, b.isLt, by decide, trivial⟩ rfl⟩
theorem vxor y d a b : Statement (.vxor y d a b) := fun _ =>
  ⟨32, _, rfl, .inr rfl, pack_lt _ _ ⟨by decide, y.isLt, d.isLt, a.isLt, b.isLt, by decide, trivial⟩ rfl⟩
theorem vxorZq y d a b : Statement (.vxorZq y d a b) := fun _ =>
  ⟨32, _, rfl, .inr rfl, pack_lt _ _ ⟨by decide, y.isLt, d.isLt, a.isLt, b.isLt, by decide, trivial⟩ rfl⟩
theorem vnot y d b : Statement (.vnot y d b) := fun _ =>
  ⟨32, _, rfl, .inr rfl, pack_lt _ _ ⟨by decide, y.isLt, d.isLt, by decide, b.isLt, by decide, trivial⟩ rfl⟩
theorem vnotZq y d b : Statement (.vnotZq y d b) := fun _ =>
  ⟨32, _, rfl, .inr rfl, pack_lt _ _ ⟨by decide, y.isLt, d.isLt, by decide, b.isLt, by decide, trivial⟩ rfl⟩
theorem vshl y d a b t : Statement (.vshl y d a b t) := fun _ =>
  ⟨32, _, rfl, .inr rfl, pack_lt _ _ ⟨by decide, y.isLt, d.isLt, a.isLt, b.isLt, t.isLt, by decide, trivial⟩ rfl⟩
theorem vshlZq y d a b t : Statement (.vshlZq y d a b t) := fun _ =>
  ⟨32, _, rfl, .inr rfl, pack_lt _ _ ⟨by decide, y.isLt, d.isLt, a.isLt, b.isLt, t.isLt, by decide, trivial⟩ rfl⟩
theorem vshr y d a b t : Statement (.vshr y d a b t) := fun _ =>
  ⟨32, _, rfl, .inr rfl, pack_lt _ _ ⟨by decide, y.isLt, d.isLt, a.isLt, b.isLt, t.isLt, by decide, trivial⟩ rfl⟩
theorem vshrZq y d a b t : Statement (.vshrZq y d a b t) := fun _ =>
  ⟨32, _, rfl, .inr rfl, pack_lt _ _ ⟨by decide, y.isLt, d.isLt, a.isLt, b.isLt, t.isLt, by decide, trivial⟩ rfl⟩
theorem vsar y d a b t : Statement (.vsar y d a b t) := fun _ =>
  ⟨32, _, rfl, .inr rfl, pack_lt _ _ ⟨by decide, y.isLt, d.isLt, a.isLt, b.isLt, t.isLt, by decide, trivial⟩ rfl⟩
theorem vsarZq y d a b t : Statement (.vsarZq y d a b t) := fun _ =>
  ⟨32, _, rfl, .inr rfl, pack_lt _ _ ⟨by decide, y.isLt, d.isLt, a.isLt, b.isLt, t.isLt, by decide, trivial⟩ rfl⟩
theorem vsel y d a b m : Statement (.vsel y d a b m) := fun _ =>
  ⟨32, _, rfl, .inr rfl, pack_lt _ _ ⟨by decide, y.isLt, d.isLt, a.isLt, b.isLt, by decide, m.isLt, by decide, trivial⟩ rfl⟩
theorem vselZq y d a b m : Statement (.vselZq y d a b m) := fun _ =>
  ⟨32, _, rfl, .inr rfl, pack_lt _ _ ⟨by decide, y.isLt, d.isLt, a.isLt, b.isLt, by decide, m.isLt, by decide, trivial⟩ rfl⟩
theorem vcvt y d h s b t l : Statement (.vcvt y d h s b t l) := fun _ =>
  ⟨32, _, rfl, .inr rfl, pack_lt _ _ ⟨by decide, y.isLt, d.isLt, h.isLt, s.isLt, b.isLt, t.isLt, l.isLt, trivial⟩ rfl⟩
theorem vcvtZq y d h s b t l : Statement (.vcvtZq y d h s b t l) := fun _ =>
  ⟨32, _, rfl, .inr rfl, pack_lt _ _ ⟨by decide, y.isLt, d.isLt, h.isLt, s.isLt, b.isLt, t.isLt, l.isLt, trivial⟩ rfl⟩
theorem vclz y d b t : Statement (.vclz y d b t) := fun _ =>
  ⟨32, _, rfl, .inr rfl, pack_lt _ _ ⟨by decide, y.isLt, d.isLt, by decide, b.isLt, t.isLt, by decide, trivial⟩ rfl⟩
theorem vclzZq y d b t : Statement (.vclzZq y d b t) := fun _ =>
  ⟨32, _, rfl, .inr rfl, pack_lt _ _ ⟨by decide, y.isLt, d.isLt, by decide, b.isLt, t.isLt, by decide, trivial⟩ rfl⟩
theorem vpopc y d b t : Statement (.vpopc y d b t) := fun _ =>
  ⟨32, _, rfl, .inr rfl, pack_lt _ _ ⟨by decide, y.isLt, d.isLt, by decide, b.isLt, t.isLt, by decide, trivial⟩ rfl⟩
theorem vpopcZq y d b t : Statement (.vpopcZq y d b t) := fun _ =>
  ⟨32, _, rfl, .inr rfl, pack_lt _ _ ⟨by decide, y.isLt, d.isLt, by decide, b.isLt, t.isLt, by decide, trivial⟩ rfl⟩
theorem vext y d a b x : Statement (.vext y d a b x) := fun _ =>
  ⟨32, _, rfl, .inr rfl, pack_lt _ _ ⟨by decide, y.isLt, d.isLt, a.isLt, b.isLt, by decide, x.isLt, trivial⟩ rfl⟩
theorem vextZq y d a b x : Statement (.vextZq y d a b x) := fun _ =>
  ⟨32, _, rfl, .inr rfl, pack_lt _ _ ⟨by decide, y.isLt, d.isLt, a.isLt, b.isLt, by decide, x.isLt, trivial⟩ rfl⟩
theorem vins y d a b : Statement (.vins y d a b) := fun _ =>
  ⟨32, _, rfl, .inr rfl, pack_lt _ _ ⟨by decide, y.isLt, d.isLt, a.isLt, b.isLt, by decide, trivial⟩ rfl⟩
theorem vinsZq y d a b : Statement (.vinsZq y d a b) := fun _ =>
  ⟨32, _, rfl, .inr rfl, pack_lt _ _ ⟨by decide, y.isLt, d.isLt, a.isLt, b.isLt, by decide, trivial⟩ rfl⟩
theorem vfsh y d a b : Statement (.vfsh y d a b) := fun _ =>
  ⟨32, _, rfl, .inr rfl, pack_lt _ _ ⟨by decide, y.isLt, d.isLt, a.isLt, b.isLt, by decide, trivial⟩ rfl⟩
theorem vfshZq y d a b : Statement (.vfshZq y d a b) := fun _ =>
  ⟨32, _, rfl, .inr rfl, pack_lt _ _ ⟨by decide, y.isLt, d.isLt, a.isLt, b.isLt, by decide, trivial⟩ rfl⟩
theorem vperm y d a b : Statement (.vperm y d a b) := fun _ =>
  ⟨32, _, rfl, .inr rfl, pack_lt _ _ ⟨by decide, y.isLt, d.isLt, a.isLt, b.isLt, by decide, trivial⟩ rfl⟩
theorem vpermZq y d a b : Statement (.vpermZq y d a b) := fun _ =>
  ⟨32, _, rfl, .inr rfl, pack_lt _ _ ⟨by decide, y.isLt, d.isLt, a.isLt, b.isLt, by decide, trivial⟩ rfl⟩
theorem vbcast y d a b : Statement (.vbcast y d a b) := fun _ =>
  ⟨32, _, rfl, .inr rfl, pack_lt _ _ ⟨by decide, y.isLt, d.isLt, a.isLt, b.isLt, by decide, trivial⟩ rfl⟩
theorem vbcastZq y d a b : Statement (.vbcastZq y d a b) := fun _ =>
  ⟨32, _, rfl, .inr rfl, pack_lt _ _ ⟨by decide, y.isLt, d.isLt, a.isLt, b.isLt, by decide, trivial⟩ rfl⟩
theorem vlsh y d a b : Statement (.vlsh y d a b) := fun _ =>
  ⟨32, _, rfl, .inr rfl, pack_lt _ _ ⟨by decide, y.isLt, d.isLt, a.isLt, b.isLt, by decide, trivial⟩ rfl⟩
theorem vlshZq y d a b : Statement (.vlshZq y d a b) := fun _ =>
  ⟨32, _, rfl, .inr rfl, pack_lt _ _ ⟨by decide, y.isLt, d.isLt, a.isLt, b.isLt, by decide, trivial⟩ rfl⟩
theorem vred y d m p b t x : Statement (.vred y d m p b t x) := fun _ =>
  ⟨32, _, rfl, .inr rfl, pack_lt _ _ ⟨by decide, y.isLt, d.isLt, m.isLt, p.isLt, b.isLt, t.isLt, x.isLt, trivial⟩ rfl⟩
theorem vredZq y d m p b t x : Statement (.vredZq y d m p b t x) := fun _ =>
  ⟨32, _, rfl, .inr rfl, pack_lt _ _ ⟨by decide, y.isLt, d.isLt, m.isLt, p.isLt, b.isLt, t.isLt, x.isLt, trivial⟩ rfl⟩
theorem vscan y d m p b t x : Statement (.vscan y d m p b t x) := fun _ =>
  ⟨32, _, rfl, .inr rfl, pack_lt _ _ ⟨by decide, y.isLt, d.isLt, m.isLt, p.isLt, b.isLt, t.isLt, x.isLt, trivial⟩ rfl⟩
theorem vscanZq y d m p b t x : Statement (.vscanZq y d m p b t x) := fun _ =>
  ⟨32, _, rfl, .inr rfl, pack_lt _ _ ⟨by decide, y.isLt, d.isLt, m.isLt, p.isLt, b.isLt, t.isLt, x.isLt, trivial⟩ rfl⟩
theorem vgath y d a b t : Statement (.vgath y d a b t) := fun _ =>
  ⟨32, _, rfl, .inr rfl, pack_lt _ _ ⟨by decide, y.isLt, d.isLt, a.isLt, b.isLt, t.isLt, by decide, trivial⟩ rfl⟩
theorem vgathZq y d a b t : Statement (.vgathZq y d a b t) := fun _ =>
  ⟨32, _, rfl, .inr rfl, pack_lt _ _ ⟨by decide, y.isLt, d.isLt, a.isLt, b.isLt, t.isLt, by decide, trivial⟩ rfl⟩
theorem vscat y d a b t : Statement (.vscat y d a b t) := fun _ =>
  ⟨32, _, rfl, .inr rfl, pack_lt _ _ ⟨by decide, y.isLt, d.isLt, a.isLt, b.isLt, t.isLt, by decide, trivial⟩ rfl⟩
theorem vscatZq y d a b t : Statement (.vscatZq y d a b t) := fun _ =>
  ⟨32, _, rfl, .inr rfl, pack_lt _ _ ⟨by decide, y.isLt, d.isLt, a.isLt, b.isLt, t.isLt, by decide, trivial⟩ rfl⟩
theorem vlut y d a b t : Statement (.vlut y d a b t) := fun _ =>
  ⟨32, _, rfl, .inr rfl, pack_lt _ _ ⟨by decide, y.isLt, d.isLt, a.isLt, b.isLt, t.isLt, by decide, trivial⟩ rfl⟩
theorem vlutZq y d a b t : Statement (.vlutZq y d a b t) := fun _ =>
  ⟨32, _, rfl, .inr rfl, pack_lt _ _ ⟨by decide, y.isLt, d.isLt, a.isLt, b.isLt, t.isLt, by decide, trivial⟩ rfl⟩
theorem vrcp y d b t : Statement (.vrcp y d b t) := fun _ =>
  ⟨32, _, rfl, .inr rfl, pack_lt _ _ ⟨by decide, y.isLt, d.isLt, by decide, b.isLt, t.isLt, by decide, trivial⟩ rfl⟩
theorem vrcpZq y d b t : Statement (.vrcpZq y d b t) := fun _ =>
  ⟨32, _, rfl, .inr rfl, pack_lt _ _ ⟨by decide, y.isLt, d.isLt, by decide, b.isLt, t.isLt, by decide, trivial⟩ rfl⟩
theorem vrsq y d b t : Statement (.vrsq y d b t) := fun _ =>
  ⟨32, _, rfl, .inr rfl, pack_lt _ _ ⟨by decide, y.isLt, d.isLt, by decide, b.isLt, t.isLt, by decide, trivial⟩ rfl⟩
theorem vrsqZq y d b t : Statement (.vrsqZq y d b t) := fun _ =>
  ⟨32, _, rfl, .inr rfl, pack_lt _ _ ⟨by decide, y.isLt, d.isLt, by decide, b.isLt, t.isLt, by decide, trivial⟩ rfl⟩
theorem vexp2 y d b t : Statement (.vexp2 y d b t) := fun _ =>
  ⟨32, _, rfl, .inr rfl, pack_lt _ _ ⟨by decide, y.isLt, d.isLt, by decide, b.isLt, t.isLt, by decide, trivial⟩ rfl⟩
theorem vexp2Zq y d b t : Statement (.vexp2Zq y d b t) := fun _ =>
  ⟨32, _, rfl, .inr rfl, pack_lt _ _ ⟨by decide, y.isLt, d.isLt, by decide, b.isLt, t.isLt, by decide, trivial⟩ rfl⟩
theorem vlog2 y d b t : Statement (.vlog2 y d b t) := fun _ =>
  ⟨32, _, rfl, .inr rfl, pack_lt _ _ ⟨by decide, y.isLt, d.isLt, by decide, b.isLt, t.isLt, by decide, trivial⟩ rfl⟩
theorem vlog2Zq y d b t : Statement (.vlog2Zq y d b t) := fun _ =>
  ⟨32, _, rfl, .inr rfl, pack_lt _ _ ⟨by decide, y.isLt, d.isLt, by decide, b.isLt, t.isLt, by decide, trivial⟩ rfl⟩
theorem vatan y d a b t g : Statement (.vatan y d a b t g) := fun _ =>
  ⟨32, _, rfl, .inr rfl, pack_lt _ _ ⟨by decide, y.isLt, d.isLt, a.isLt, b.isLt, t.isLt, g.isLt, trivial⟩ rfl⟩
theorem vatanZq y d a b t g : Statement (.vatanZq y d a b t g) := fun _ =>
  ⟨32, _, rfl, .inr rfl, pack_lt _ _ ⟨by decide, y.isLt, d.isLt, a.isLt, b.isLt, t.isLt, g.isLt, trivial⟩ rfl⟩
theorem vsincos y d b t g : Statement (.vsincos y d b t g) := fun _ =>
  ⟨32, _, rfl, .inr rfl, pack_lt _ _ ⟨by decide, y.isLt, d.isLt, by decide, b.isLt, t.isLt, g.isLt, trivial⟩ rfl⟩
theorem vsincosZq y d b t g : Statement (.vsincosZq y d b t g) := fun _ =>
  ⟨32, _, rfl, .inr rfl, pack_lt _ _ ⟨by decide, y.isLt, d.isLt, by decide, b.isLt, t.isLt, g.isLt, trivial⟩ rfl⟩
theorem vnorm y d b t : Statement (.vnorm y d b t) := fun _ =>
  ⟨32, _, rfl, .inr rfl, pack_lt _ _ ⟨by decide, y.isLt, d.isLt, by decide, b.isLt, t.isLt, by decide, trivial⟩ rfl⟩
theorem vnormZq y d b t : Statement (.vnormZq y d b t) := fun _ =>
  ⟨32, _, rfl, .inr rfl, pack_lt _ _ ⟨by decide, y.isLt, d.isLt, by decide, b.isLt, t.isLt, by decide, trivial⟩ rfl⟩
theorem vsplit y d a b t e : Statement (.vsplit y d a b t e) := fun _ =>
  ⟨32, _, rfl, .inr rfl, pack_lt _ _ ⟨by decide, y.isLt, d.isLt, a.isLt, b.isLt, t.isLt, e.isLt, trivial⟩ rfl⟩
theorem vsplitZq y d a b t e : Statement (.vsplitZq y d a b t e) := fun _ =>
  ⟨32, _, rfl, .inr rfl, pack_lt _ _ ⟨by decide, y.isLt, d.isLt, a.isLt, b.isLt, t.isLt, e.isLt, trivial⟩ rfl⟩
theorem vmov y d b : Statement (.vmov y d b) := fun _ =>
  ⟨32, _, rfl, .inr rfl, pack_lt _ _ ⟨by decide, y.isLt, d.isLt, by decide, b.isLt, by decide, trivial⟩ rfl⟩
theorem vmovZq y d b : Statement (.vmovZq y d b) := fun _ =>
  ⟨32, _, rfl, .inr rfl, pack_lt _ _ ⟨by decide, y.isLt, d.isLt, by decide, b.isLt, by decide, trivial⟩ rfl⟩
theorem vtos y a b : Statement (.vtos y a b) := fun _ =>
  ⟨32, _, rfl, .inr rfl, pack_lt _ _ ⟨by decide, y.isLt, by decide, a.isLt, b.isLt, by decide, trivial⟩ rfl⟩
theorem vfroms y d b : Statement (.vfroms y d b) := fun _ =>
  ⟨32, _, rfl, .inr rfl, pack_lt _ _ ⟨by decide, y.isLt, d.isLt, by decide, b.isLt, by decide, trivial⟩ rfl⟩
theorem vaadd y d a b t f : Statement (.vaadd y d a b t f) := fun _ =>
  ⟨32, _, rfl, .inr rfl, pack_lt _ _ ⟨by decide, y.isLt, d.isLt, a.isLt, b.isLt, t.isLt, f.isLt, trivial⟩ rfl⟩
theorem vaaddZq y d a b t f : Statement (.vaaddZq y d a b t f) := fun _ =>
  ⟨32, _, rfl, .inr rfl, pack_lt _ _ ⟨by decide, y.isLt, d.isLt, a.isLt, b.isLt, t.isLt, f.isLt, trivial⟩ rfl⟩
theorem vcmpEq y d a b t : Statement (.vcmpEq y d a b t) := fun _ =>
  ⟨32, _, rfl, .inr rfl, pack_lt _ _ ⟨by decide, y.isLt, by decide, d.isLt, a.isLt, b.isLt, t.isLt, by decide, trivial⟩ rfl⟩
theorem vcmpEqZq y d a b t : Statement (.vcmpEqZq y d a b t) := fun _ =>
  ⟨32, _, rfl, .inr rfl, pack_lt _ _ ⟨by decide, y.isLt, by decide, d.isLt, a.isLt, b.isLt, t.isLt, by decide, trivial⟩ rfl⟩
theorem vcmpNe y d a b t : Statement (.vcmpNe y d a b t) := fun _ =>
  ⟨32, _, rfl, .inr rfl, pack_lt _ _ ⟨by decide, y.isLt, by decide, d.isLt, a.isLt, b.isLt, t.isLt, by decide, trivial⟩ rfl⟩
theorem vcmpNeZq y d a b t : Statement (.vcmpNeZq y d a b t) := fun _ =>
  ⟨32, _, rfl, .inr rfl, pack_lt _ _ ⟨by decide, y.isLt, by decide, d.isLt, a.isLt, b.isLt, t.isLt, by decide, trivial⟩ rfl⟩
theorem vcmpLt y d a b t : Statement (.vcmpLt y d a b t) := fun _ =>
  ⟨32, _, rfl, .inr rfl, pack_lt _ _ ⟨by decide, y.isLt, by decide, d.isLt, a.isLt, b.isLt, t.isLt, by decide, trivial⟩ rfl⟩
theorem vcmpLtZq y d a b t : Statement (.vcmpLtZq y d a b t) := fun _ =>
  ⟨32, _, rfl, .inr rfl, pack_lt _ _ ⟨by decide, y.isLt, by decide, d.isLt, a.isLt, b.isLt, t.isLt, by decide, trivial⟩ rfl⟩
theorem vcmpLe y d a b t : Statement (.vcmpLe y d a b t) := fun _ =>
  ⟨32, _, rfl, .inr rfl, pack_lt _ _ ⟨by decide, y.isLt, by decide, d.isLt, a.isLt, b.isLt, t.isLt, by decide, trivial⟩ rfl⟩
theorem vcmpLeZq y d a b t : Statement (.vcmpLeZq y d a b t) := fun _ =>
  ⟨32, _, rfl, .inr rfl, pack_lt _ _ ⟨by decide, y.isLt, by decide, d.isLt, a.isLt, b.isLt, t.isLt, by decide, trivial⟩ rfl⟩
theorem vcmpLtn y d a b t : Statement (.vcmpLtn y d a b t) := fun _ =>
  ⟨32, _, rfl, .inr rfl, pack_lt _ _ ⟨by decide, y.isLt, by decide, d.isLt, a.isLt, b.isLt, t.isLt, by decide, trivial⟩ rfl⟩
theorem vcmpLtnZq y d a b t : Statement (.vcmpLtnZq y d a b t) := fun _ =>
  ⟨32, _, rfl, .inr rfl, pack_lt _ _ ⟨by decide, y.isLt, by decide, d.isLt, a.isLt, b.isLt, t.isLt, by decide, trivial⟩ rfl⟩
theorem vcmpLen y d a b t : Statement (.vcmpLen y d a b t) := fun _ =>
  ⟨32, _, rfl, .inr rfl, pack_lt _ _ ⟨by decide, y.isLt, by decide, d.isLt, a.isLt, b.isLt, t.isLt, by decide, trivial⟩ rfl⟩
theorem vcmpLenZq y d a b t : Statement (.vcmpLenZq y d a b t) := fun _ =>
  ⟨32, _, rfl, .inr rfl, pack_lt _ _ ⟨by decide, y.isLt, by decide, d.isLt, a.isLt, b.isLt, t.isLt, by decide, trivial⟩ rfl⟩
theorem vli y d k : Statement (.vli y d k) := fun _ =>
  ⟨32, _, rfl, .inr rfl, pack_lt _ _ ⟨by decide, y.isLt, d.isLt, k.isLt, trivial⟩ rfl⟩
theorem mand y d a b : Statement (.mand y d a b) := fun _ =>
  ⟨32, _, rfl, .inr rfl, pack_lt _ _ ⟨by decide, y.isLt, by decide, d.isLt, by decide, a.isLt, by decide, b.isLt, by decide, trivial⟩ rfl⟩
theorem mor y d a b : Statement (.mor y d a b) := fun _ =>
  ⟨32, _, rfl, .inr rfl, pack_lt _ _ ⟨by decide, y.isLt, by decide, d.isLt, by decide, a.isLt, by decide, b.isLt, by decide, trivial⟩ rfl⟩
theorem mxor y d a b : Statement (.mxor y d a b) := fun _ =>
  ⟨32, _, rfl, .inr rfl, pack_lt _ _ ⟨by decide, y.isLt, by decide, d.isLt, by decide, a.isLt, by decide, b.isLt, by decide, trivial⟩ rfl⟩
theorem mnot y d b : Statement (.mnot y d b) := fun _ =>
  ⟨32, _, rfl, .inr rfl, pack_lt _ _ ⟨by decide, y.isLt, by decide, d.isLt, by decide, b.isLt, by decide, trivial⟩ rfl⟩
theorem mpopc y d b : Statement (.mpopc y d b) := fun _ =>
  ⟨32, _, rfl, .inr rfl, pack_lt _ _ ⟨by decide, y.isLt, d.isLt, by decide, b.isLt, by decide, trivial⟩ rfl⟩
theorem mfirst y d b : Statement (.mfirst y d b) := fun _ =>
  ⟨32, _, rfl, .inr rfl, pack_lt _ _ ⟨by decide, y.isLt, d.isLt, by decide, b.isLt, by decide, trivial⟩ rfl⟩
theorem nopL y : Statement (.nopL y) := fun _ =>
  ⟨32, _, rfl, .inr rfl, pack_lt _ _ ⟨by decide, y.isLt, by decide, trivial⟩ rfl⟩
theorem zbind y t b f : Statement (.zbind y t b f) := fun _ =>
  ⟨32, _, rfl, .inr rfl, pack_lt _ _ ⟨by decide, y.isLt, by decide, t.isLt, b.isLt, by decide, f.isLt, trivial⟩ rfl⟩
theorem zstart y d : Statement (.zstart y d) := fun _ =>
  ⟨32, _, rfl, .inr rfl, pack_lt _ _ ⟨by decide, y.isLt, by decide, d.isLt, by decide, trivial⟩ rfl⟩
theorem zstop y d : Statement (.zstop y d) := fun _ =>
  ⟨32, _, rfl, .inr rfl, pack_lt _ _ ⟨by decide, y.isLt, by decide, d.isLt, by decide, trivial⟩ rfl⟩
theorem zskip y d k : Statement (.zskip y d k) := fun _ =>
  ⟨32, _, rfl, .inr rfl, pack_lt _ _ ⟨by decide, y.isLt, by decide, d.isLt, by decide, k.isLt, trivial⟩ rfl⟩
theorem ldv y t b i : Statement (.ldv y t b i) := fun _ =>
  ⟨32, _, rfl, .inr rfl, pack_lt _ _ ⟨by decide, y.isLt, by decide, t.isLt, b.isLt, by decide, i.isLt, trivial⟩ rfl⟩
theorem streamFill a0 : Statement (.streamFill a0) := fun h => nomatch h
theorem nopM y : Statement (.nopM y) := fun _ =>
  ⟨32, _, rfl, .inr rfl, pack_lt _ _ ⟨by decide, y.isLt, by decide, trivial⟩ rfl⟩
theorem mload y d a c s : Statement (.mload y d a c s) := fun _ =>
  ⟨32, _, rfl, .inr rfl, pack_lt _ _ ⟨by decide, y.isLt, by decide, d.isLt, by decide, a.isLt, by decide, c.isLt, s.isLt, trivial⟩ rfl⟩
theorem mstore y d a s : Statement (.mstore y d a s) := fun _ =>
  ⟨32, _, rfl, .inr rfl, pack_lt _ _ ⟨by decide, y.isLt, by decide, d.isLt, by decide, a.isLt, by decide, s.isLt, trivial⟩ rfl⟩
theorem msweep y d s b m p g c f : Statement (.msweep y d s b m p g c f) := fun _ =>
  ⟨32, _, rfl, .inr rfl, pack_lt _ _ ⟨by decide, y.isLt, d.isLt, s.isLt, b.isLt, m.isLt, p.isLt, g.isLt, c.isLt, f.isLt, trivial⟩ rfl⟩
theorem mderive y d s b m p : Statement (.mderive y d s b m p) := fun _ =>
  ⟨32, _, rfl, .inr rfl, pack_lt _ _ ⟨by decide, y.isLt, d.isLt, s.isLt, b.isLt, m.isLt, p.isLt, by decide, trivial⟩ rfl⟩
theorem mscale y d a s : Statement (.mscale y d a s) := fun _ =>
  ⟨32, _, rfl, .inr rfl, pack_lt _ _ ⟨by decide, y.isLt, by decide, d.isLt, by decide, a.isLt, by decide, s.isLt, trivial⟩ rfl⟩
theorem mpanel y d s : Statement (.mpanel y d s) := fun _ =>
  ⟨32, _, rfl, .inr rfl, pack_lt _ _ ⟨by decide, y.isLt, by decide, d.isLt, by decide, s.isLt, trivial⟩ rfl⟩
theorem mslice y w s n f p m : Statement (.mslice y w s n f p m) := fun _ =>
  ⟨32, _, rfl, .inr rfl, pack_lt _ _ ⟨by decide, y.isLt, w.isLt, s.isLt, n.isLt, f.isLt, p.isLt, m.isLt, by decide, trivial⟩ rfl⟩
theorem mcommit y b : Statement (.mcommit y b) := fun _ =>
  ⟨32, _, rfl, .inr rfl, pack_lt _ _ ⟨by decide, y.isLt, by decide, b.isLt, trivial⟩ rfl⟩
theorem mwaitb y b : Statement (.mwaitb y b) := fun _ =>
  ⟨32, _, rfl, .inr rfl, pack_lt _ _ ⟨by decide, y.isLt, by decide, b.isLt, trivial⟩ rfl⟩
theorem mretire y d w n r p m : Statement (.mretire y d w n r p m) := fun _ =>
  ⟨32, _, rfl, .inr rfl, pack_lt _ _ ⟨by decide, y.isLt, d.isLt, w.isLt, n.isLt, r.isLt, p.isLt, m.isLt, trivial⟩ rfl⟩
theorem mnorm y d s c : Statement (.mnorm y d s c) := fun _ =>
  ⟨32, _, rfl, .inr rfl, pack_lt _ _ ⟨by decide, y.isLt, by decide, d.isLt, by decide, s.isLt, by decide, c.isLt, trivial⟩ rfl⟩
theorem mclrWindow y u a s : Statement (.mclrWindow y u a s) := fun _ =>
  ⟨32, _, rfl, .inr rfl, pack_lt _ _ ⟨by decide, y.isLt, u.isLt, by decide, a.isLt, s.isLt, trivial⟩ rfl⟩
theorem mclrBank y d s : Statement (.mclrBank y d s) := fun _ =>
  ⟨32, _, rfl, .inr rfl, pack_lt _ _ ⟨by decide, y.isLt, by decide, d.isLt, by decide, s.isLt, trivial⟩ rfl⟩
theorem mstat y d c s : Statement (.mstat y d c s) := fun _ =>
  ⟨32, _, rfl, .inr rfl, pack_lt _ _ ⟨by decide, y.isLt, by decide, d.isLt, by decide, c.isLt, s.isLt, trivial⟩ rfl⟩
theorem mfence y k : Statement (.mfence y k) := fun _ =>
  ⟨32, _, rfl, .inr rfl, pack_lt _ _ ⟨by decide, y.isLt, by decide, k.isLt, trivial⟩ rfl⟩
theorem meshOperationComplete a0 : Statement (.meshOperationComplete a0) := fun h => nomatch h
theorem sweepSegmentEnd a0 : Statement (.sweepSegmentEnd a0) := fun h => nomatch h
theorem batchWriteBack : Statement (.batchWriteBack) := fun h => nomatch h
theorem nopS y : Statement (.nopS y) := fun _ =>
  ⟨32, _, rfl, .inr rfl, pack_lt _ _ ⟨by decide, y.isLt, by decide, trivial⟩ rfl⟩
theorem zdrain y d : Statement (.zdrain y d) := fun _ =>
  ⟨32, _, rfl, .inr rfl, pack_lt _ _ ⟨by decide, y.isLt, by decide, d.isLt, by decide, trivial⟩ rfl⟩
theorem stv y t b i : Statement (.stv y t b i) := fun _ =>
  ⟨32, _, rfl, .inr rfl, pack_lt _ _ ⟨by decide, y.isLt, by decide, t.isLt, b.isLt, by decide, i.isLt, trivial⟩ rfl⟩
theorem scvt y d r b s : Statement (.scvt y d r b s) := fun _ =>
  ⟨32, _, rfl, .inr rfl, pack_lt _ _ ⟨by decide, y.isLt, by decide, d.isLt, by decide, r.isLt, b.isLt, by decide, s.isLt, trivial⟩ rfl⟩
theorem samax y d s k c : Statement (.samax y d s k c) := fun _ =>
  ⟨32, _, rfl, .inr rfl, pack_lt _ _ ⟨by decide, y.isLt, by decide, d.isLt, s.isLt, k.isLt, by decide, c.isLt, trivial⟩ rfl⟩
theorem vamaxr y d k p q : Statement (.vamaxr y d k p q) := fun _ =>
  ⟨32, _, rfl, .inr rfl, pack_lt _ _ ⟨by decide, y.isLt, by decide, d.isLt, by decide, k.isLt, p.isLt, q.isLt, by decide, trivial⟩ rfl⟩
theorem supd y j q n : Statement (.supd y j q n) := fun _ =>
  ⟨32, _, rfl, .inr rfl, pack_lt _ _ ⟨by decide, y.isLt, j.isLt, q.isLt, n.isLt, trivial⟩ rfl⟩
theorem spair y q : Statement (.spair y q) := fun _ =>
  ⟨32, _, rfl, .inr rfl, pack_lt _ _ ⟨by decide, y.isLt, q.isLt, by decide, trivial⟩ rfl⟩
theorem streamDrainWrite a0 : Statement (.streamDrainWrite a0) := fun h => nomatch h
theorem notify y m c n : Statement (.notify y m c n) := fun _ =>
  ⟨32, _, rfl, .inr rfl, pack_lt _ _ ⟨by decide, y.isLt, m.isLt, by decide, c.isLt, n.isLt, trivial⟩ rfl⟩
theorem dictld y s e : Statement (.dictld y s e) := fun _ =>
  ⟨32, _, rfl, .inr rfl, pack_lt _ _ ⟨by decide, y.isLt, by decide, s.isLt, e.isLt, trivial⟩ rfl⟩
theorem bemEq y m f g o : Statement (.bemEq y m f g o) := fun _ =>
  ⟨32, _, rfl, .inr rfl, pack_lt _ _ ⟨by decide, y.isLt, by decide, m.isLt, f.isLt, g.isLt, o.isLt, trivial⟩ rfl⟩
theorem bemEqA y m f g o : Statement (.bemEqA y m f g o) := fun _ =>
  ⟨32, _, rfl, .inr rfl, pack_lt _ _ ⟨by decide, y.isLt, by decide, m.isLt, f.isLt, g.isLt, o.isLt, trivial⟩ rfl⟩
theorem bemNe y m f g o : Statement (.bemNe y m f g o) := fun _ =>
  ⟨32, _, rfl, .inr rfl, pack_lt _ _ ⟨by decide, y.isLt, by decide, m.isLt, f.isLt, g.isLt, o.isLt, trivial⟩ rfl⟩
theorem bemNeA y m f g o : Statement (.bemNeA y m f g o) := fun _ =>
  ⟨32, _, rfl, .inr rfl, pack_lt _ _ ⟨by decide, y.isLt, by decide, m.isLt, f.isLt, g.isLt, o.isLt, trivial⟩ rfl⟩
theorem bemLt y m f g o : Statement (.bemLt y m f g o) := fun _ =>
  ⟨32, _, rfl, .inr rfl, pack_lt _ _ ⟨by decide, y.isLt, by decide, m.isLt, f.isLt, g.isLt, o.isLt, trivial⟩ rfl⟩
theorem bemLtA y m f g o : Statement (.bemLtA y m f g o) := fun _ =>
  ⟨32, _, rfl, .inr rfl, pack_lt _ _ ⟨by decide, y.isLt, by decide, m.isLt, f.isLt, g.isLt, o.isLt, trivial⟩ rfl⟩
theorem bemLe y m f g o : Statement (.bemLe y m f g o) := fun _ =>
  ⟨32, _, rfl, .inr rfl, pack_lt _ _ ⟨by decide, y.isLt, by decide, m.isLt, f.isLt, g.isLt, o.isLt, trivial⟩ rfl⟩
theorem bemLeA y m f g o : Statement (.bemLeA y m f g o) := fun _ =>
  ⟨32, _, rfl, .inr rfl, pack_lt _ _ ⟨by decide, y.isLt, by decide, m.isLt, f.isLt, g.isLt, o.isLt, trivial⟩ rfl⟩
theorem bemLtn y m f g o : Statement (.bemLtn y m f g o) := fun _ =>
  ⟨32, _, rfl, .inr rfl, pack_lt _ _ ⟨by decide, y.isLt, by decide, m.isLt, f.isLt, g.isLt, o.isLt, trivial⟩ rfl⟩
theorem bemLtnA y m f g o : Statement (.bemLtnA y m f g o) := fun _ =>
  ⟨32, _, rfl, .inr rfl, pack_lt _ _ ⟨by decide, y.isLt, by decide, m.isLt, f.isLt, g.isLt, o.isLt, trivial⟩ rfl⟩
theorem bemLen y m f g o : Statement (.bemLen y m f g o) := fun _ =>
  ⟨32, _, rfl, .inr rfl, pack_lt _ _ ⟨by decide, y.isLt, by decide, m.isLt, f.isLt, g.isLt, o.isLt, trivial⟩ rfl⟩
theorem bemLenA y m f g o : Statement (.bemLenA y m f g o) := fun _ =>
  ⟨32, _, rfl, .inr rfl, pack_lt _ _ ⟨by decide, y.isLt, by decide, m.isLt, f.isLt, g.isLt, o.isLt, trivial⟩ rfl⟩
theorem blockHeader l c : Statement (.blockHeader l c) := fun _ =>
  ⟨32, _, rfl, .inr rfl, pack_lt _ _ ⟨by decide, l.isLt, by decide, c.isLt, trivial⟩ rfl⟩
theorem blockHeaderReg l r : Statement (.blockHeaderReg l r) := fun _ =>
  ⟨32, _, rfl, .inr rfl, pack_lt _ _ ⟨by decide, l.isLt, by decide, r.isLt, trivial⟩ rfl⟩
theorem blockEnd a0 : Statement (.blockEnd a0) := fun h => nomatch h
theorem timedNop n : Statement (.timedNop n) := fun _ =>
  ⟨16, _, rfl, .inl rfl, pack_lt _ _ ⟨by decide, n.isLt, trivial⟩ rfl⟩
theorem dictionaryReference i : Statement (.dictionaryReference i) := fun _ =>
  ⟨16, _, rfl, .inl rfl, pack_lt _ _ ⟨by decide, i.isLt, trivial⟩ rfl⟩
theorem variableLatencyArrival a0 a1 : Statement (.variableLatencyArrival a0 a1) := fun h => nomatch h
theorem interrupt : Statement (.interrupt) := fun h => nomatch h
theorem routineFault a0 : Statement (.routineFault a0) := fun h => nomatch h
theorem debugStop : Statement (.debugStop) := fun h => nomatch h
theorem debugResume : Statement (.debugResume) := fun h => nomatch h
theorem jobStart a0 : Statement (.jobStart a0) := fun h => nomatch h
theorem copyChunkComplete a0 : Statement (.copyChunkComplete a0) := fun h => nomatch h
theorem jobComplete a0 : Statement (.jobComplete a0) := fun h => nomatch h
theorem firingStart a0 a1 : Statement (.firingStart a0 a1) := fun h => nomatch h
theorem firingLocalComplete a0 a1 : Statement (.firingLocalComplete a0 a1) := fun h => nomatch h
theorem firingTimeout a0 a1 : Statement (.firingTimeout a0 a1) := fun h => nomatch h
theorem firingRecordExpiry a0 a1 a2 : Statement (.firingRecordExpiry a0 a1 a2) := fun h => nomatch h
theorem create a0 : Statement (.create a0) := fun h => nomatch h
theorem destroy a0 : Statement (.destroy a0) := fun h => nomatch h
theorem replenish a0 : Statement (.replenish a0) := fun h => nomatch h
theorem ctxRead a0 : Statement (.ctxRead a0) := fun h => nomatch h
theorem contextFrozen a0 : Statement (.contextFrozen a0) := fun h => nomatch h
theorem contextDrained a0 : Statement (.contextDrained a0) := fun h => nomatch h
theorem enable a0 : Statement (.enable a0) := fun h => nomatch h
theorem disable a0 : Statement (.disable a0) := fun h => nomatch h
theorem resume a0 : Statement (.resume a0) := fun h => nomatch h
theorem flush a0 : Statement (.flush a0) := fun h => nomatch h
theorem queueRead a0 : Statement (.queueRead a0) := fun h => nomatch h
theorem launch a0 : Statement (.launch a0) := fun h => nomatch h
theorem step a0 : Statement (.step a0) := fun h => nomatch h
theorem wait a0 : Statement (.wait a0) := fun h => nomatch h
theorem waitConditionHolds a0 a1 : Statement (.waitConditionHolds a0 a1) := fun h => nomatch h
theorem signalEntry a0 : Statement (.signalEntry a0) := fun h => nomatch h
theorem hostnote a0 : Statement (.hostnote a0) := fun h => nomatch h
theorem entryCompletion a0 a1 : Statement (.entryCompletion a0 a1) := fun h => nomatch h
theorem serviceOpportunity : Statement (.serviceOpportunity) := fun h => nomatch h
theorem placementComplete a0 a1 : Statement (.placementComplete a0 a1) := fun h => nomatch h
theorem kernelTriggerMet a0 : Statement (.kernelTriggerMet a0) := fun h => nomatch h
theorem combinerCompletion : Statement (.combinerCompletion) := fun h => nomatch h
theorem preemption : Statement (.preemption) := fun h => nomatch h
theorem hangDetected : Statement (.hangDetected) := fun h => nomatch h
theorem calendarReservation a0 a1 : Statement (.calendarReservation a0 a1) := fun h => nomatch h
theorem calendarStart a0 a1 : Statement (.calendarStart a0 a1) := fun h => nomatch h
theorem configure a0 : Statement (.configure a0) := fun h => nomatch h
theorem remove a0 : Statement (.remove a0) := fun h => nomatch h
theorem barrierReset a0 : Statement (.barrierReset a0) := fun h => nomatch h
theorem barrierRead a0 : Statement (.barrierRead a0) := fun h => nomatch h
theorem barrierReleaseTick a0 a1 : Statement (.barrierReleaseTick a0 a1) := fun h => nomatch h
theorem qpopen a0 : Statement (.qpopen a0) := fun h => nomatch h
theorem qpclose a0 : Statement (.qpclose a0) := fun h => nomatch h
theorem qpread a0 : Statement (.qpread a0) := fun h => nomatch h
theorem portfence a0 : Statement (.portfence a0) := fun h => nomatch h
theorem portunfence a0 : Statement (.portunfence a0) := fun h => nomatch h
theorem route a0 : Statement (.route a0) := fun h => nomatch h
theorem portread a0 : Statement (.portread a0) := fun h => nomatch h
theorem timecfg a0 : Statement (.timecfg a0) := fun h => nomatch h
theorem qpConnectRetry a0 : Statement (.qpConnectRetry a0) := fun h => nomatch h
theorem qpClosed a0 : Statement (.qpClosed a0) := fun h => nomatch h
theorem portTrained a0 a1 : Statement (.portTrained a0 a1) := fun h => nomatch h
theorem trainingTimeout a0 : Statement (.trainingTimeout a0) := fun h => nomatch h
theorem trainingRetry a0 : Statement (.trainingRetry a0) := fun h => nomatch h
theorem laneFailure a0 : Statement (.laneFailure a0) := fun h => nomatch h
theorem fenceDrainTimeout a0 : Statement (.fenceDrainTimeout a0) := fun h => nomatch h
theorem flitReceive a0 a1 a2 a3 a4 : Statement (.flitReceive a0 a1 a2 a3 a4) := fun h => nomatch h
theorem rdreq a0 a1 : Statement (.rdreq a0 a1) := fun h => nomatch h
theorem rdrsp a0 a1 : Statement (.rdrsp a0 a1) := fun h => nomatch h
theorem wrreq a0 a1 : Statement (.wrreq a0 a1) := fun h => nomatch h
theorem atreq a0 a1 : Statement (.atreq a0 a1) := fun h => nomatch h
theorem atrsp a0 a1 : Statement (.atrsp a0 a1) := fun h => nomatch h
theorem wrack a0 a1 : Statement (.wrack a0 a1) := fun h => nomatch h
theorem fire a0 a1 : Statement (.fire a0 a1) := fun h => nomatch h
theorem fack a0 a1 : Statement (.fack a0 a1) := fun h => nomatch h
theorem ctrl a0 a1 : Statement (.ctrl a0 a1) := fun h => nomatch h
theorem time a0 a1 : Statement (.time a0 a1) := fun h => nomatch h
theorem forwardResend a0 : Statement (.forwardResend a0) := fun h => nomatch h
theorem forwardFailure a0 : Statement (.forwardFailure a0) := fun h => nomatch h
theorem homeRecordExpiry a0 a1 : Statement (.homeRecordExpiry a0 a1) := fun h => nomatch h
theorem datagramReceive a0 a1 a2 a3 : Statement (.datagramReceive a0 a1 a2 a3) := fun h => nomatch h
theorem ethResendTimeout a0 : Statement (.ethResendTimeout a0) := fun h => nomatch h
theorem timePacketSend : Statement (.timePacketSend) := fun h => nomatch h
theorem holdoverEntry : Statement (.holdoverEntry) := fun h => nomatch h
theorem slewEnd : Statement (.slewEnd) := fun h => nomatch h
theorem migrate a0 : Statement (.migrate a0) := fun h => nomatch h
theorem migrationCopyDone a0 : Statement (.migrationCopyDone a0) := fun h => nomatch h
theorem duplicate a0 : Statement (.duplicate a0) := fun h => nomatch h
theorem hold a0 : Statement (.hold a0) := fun h => nomatch h
theorem unhold a0 : Statement (.unhold a0) := fun h => nomatch h
theorem unmap a0 : Statement (.unmap a0) := fun h => nomatch h
theorem zerocnt a0 : Statement (.zerocnt a0) := fun h => nomatch h
theorem lend a0 : Statement (.lend a0) := fun h => nomatch h
theorem borrow a0 : Statement (.borrow a0) := fun h => nomatch h
theorem revoke a0 : Statement (.revoke a0) := fun h => nomatch h
theorem leaseDeadline a0 a1 : Statement (.leaseDeadline a0 a1) := fun h => nomatch h
theorem accWriteback a0 a1 : Statement (.accWriteback a0 a1) := fun h => nomatch h
theorem messidorDrain : Statement (.messidorDrain) := fun h => nomatch h
theorem eccAggregate a0 : Statement (.eccAggregate a0) := fun h => nomatch h
theorem reset : Statement (.reset) := fun h => nomatch h
theorem bootStage a0 a1 : Statement (.bootStage a0 a1) := fun h => nomatch h
theorem rollbackRaise a0 : Statement (.rollbackRaise a0) := fun h => nomatch h
theorem hostMemoryAccess a0 a1 a2 : Statement (.hostMemoryAccess a0 a1 a2) := fun h => nomatch h
theorem bar0RegisterWrite a0 a1 : Statement (.bar0RegisterWrite a0 a1) := fun h => nomatch h
theorem pcapWrite a0 : Statement (.pcapWrite a0) := fun h => nomatch h
theorem throttleStart a0 a1 : Statement (.throttleStart a0 a1) := fun h => nomatch h
theorem throttleEnd a0 a1 : Statement (.throttleEnd a0 a1) := fun h => nomatch h
theorem thermalTrip a0 : Statement (.thermalTrip a0) := fun h => nomatch h
theorem getVersion : Statement (.getVersion) := fun h => nomatch h
theorem getCapabilities : Statement (.getCapabilities) := fun h => nomatch h
theorem negotiateAlgorithms : Statement (.negotiateAlgorithms) := fun h => nomatch h
theorem getDigests : Statement (.getDigests) := fun h => nomatch h
theorem getCertificate a0 a1 : Statement (.getCertificate a0 a1) := fun h => nomatch h
theorem challenge a0 : Statement (.challenge a0) := fun h => nomatch h
theorem getMeasurements a0 : Statement (.getMeasurements a0) := fun h => nomatch h
theorem unsupportedRequest a0 : Statement (.unsupportedRequest a0) := fun h => nomatch h
theorem mgmtRead a0 : Statement (.mgmtRead a0) := fun h => nomatch h
theorem coldReset : Statement (.coldReset) := fun h => nomatch h
theorem unassignedItem a0 : Statement (.unassignedItem a0) := fun h => nomatch h
theorem badcmd a0 a1 : Statement (.badcmd a0 a1) := fun h => nomatch h
theorem meshVectorAppended a0 : Statement (.meshVectorAppended a0) := fun h => nomatch h
theorem slicePairBoundary a0 : Statement (.slicePairBoundary a0) := fun h => nomatch h
theorem duplicateCopyDone a0 : Statement (.duplicateCopyDone a0) := fun h => nomatch h
theorem swapExchangeComplete : Statement (.swapExchangeComplete) := fun h => nomatch h
theorem podTimeReached : Statement (.podTimeReached) := fun h => nomatch h

end Laws.Encodes

end Sys2Proof
end

