-- ==== Sys2Proof/Laws/State.lean ====
section
/-! SUPPORT. One lemma per field per update of the state: what an update gives, and what it leaves. -/

namespace Sys2Proof.Machine

/-! ## State.onMe -/

@[simp] theorem State.onMe_rest (s : State) (f : Group → Group) : (s.onMe f).rest = s.rest := rfl
@[simp] theorem State.onMe_mem (s : State) (f : Group → Group) : (s.onMe f).mem = s.mem := rfl
@[simp] theorem State.onMe_ctrs (s : State) (f : Group → Group) : (s.onMe f).ctrs = s.ctrs := rfl
@[simp] theorem State.onMe_ctxs (s : State) (f : Group → Group) : (s.onMe f).ctxs = s.ctxs := rfl
@[simp] theorem State.onMe_fe (s : State) (f : Group → Group) : (s.onMe f).fe = s.fe := rfl
@[simp] theorem State.onMe_pages (s : State) (f : Group → Group) : (s.onMe f).pages = s.pages := rfl
@[simp] theorem State.onMe_links (s : State) (f : Group → Group) : (s.onMe f).links = s.links := rfl
@[simp] theorem State.onMe_time (s : State) (f : Group → Group) : (s.onMe f).time = s.time := rfl
@[simp] theorem State.onMe_part (s : State) (f : Group → Group) : (s.onMe f).part = s.part := rfl
@[simp] theorem State.onMe_boot (s : State) (f : Group → Group) : (s.onMe f).boot = s.boot := rfl
@[simp] theorem State.onMe_power (s : State) (f : Group → Group) : (s.onMe f).power = s.power := rfl
@[simp] theorem State.onMe_errors (s : State) (f : Group → Group) : (s.onMe f).errors = s.errors := rfl
@[simp] theorem State.onMe_host (s : State) (f : Group → Group) : (s.onMe f).host = s.host := rfl
@[simp] theorem State.onMe_turn (s : State) (f : Group → Group) : (s.onMe f).turn = s.turn := rfl
@[simp] theorem State.onMe_agenda (s : State) (f : Group → Group) : (s.onMe f).agenda = s.agenda := rfl
@[simp] theorem State.onMe_free (s : State) (f : Group → Group) : (s.onMe f).free = s.free := rfl

/-! ## State.onEng -/

@[simp] theorem State.onEng_me (s : State) (e : Engine) (f : EngineState → EngineState) : (s.onEng e f).me = s.me.mapEngine e f := rfl
@[simp] theorem State.onEng_rest (s : State) (e : Engine) (f : EngineState → EngineState) : (s.onEng e f).rest = s.rest := rfl
@[simp] theorem State.onEng_mem (s : State) (e : Engine) (f : EngineState → EngineState) : (s.onEng e f).mem = s.mem := rfl
@[simp] theorem State.onEng_ctrs (s : State) (e : Engine) (f : EngineState → EngineState) : (s.onEng e f).ctrs = s.ctrs := rfl
@[simp] theorem State.onEng_ctxs (s : State) (e : Engine) (f : EngineState → EngineState) : (s.onEng e f).ctxs = s.ctxs := rfl
@[simp] theorem State.onEng_fe (s : State) (e : Engine) (f : EngineState → EngineState) : (s.onEng e f).fe = s.fe := rfl
@[simp] theorem State.onEng_pages (s : State) (e : Engine) (f : EngineState → EngineState) : (s.onEng e f).pages = s.pages := rfl
@[simp] theorem State.onEng_links (s : State) (e : Engine) (f : EngineState → EngineState) : (s.onEng e f).links = s.links := rfl
@[simp] theorem State.onEng_time (s : State) (e : Engine) (f : EngineState → EngineState) : (s.onEng e f).time = s.time := rfl
@[simp] theorem State.onEng_part (s : State) (e : Engine) (f : EngineState → EngineState) : (s.onEng e f).part = s.part := rfl
@[simp] theorem State.onEng_boot (s : State) (e : Engine) (f : EngineState → EngineState) : (s.onEng e f).boot = s.boot := rfl
@[simp] theorem State.onEng_power (s : State) (e : Engine) (f : EngineState → EngineState) : (s.onEng e f).power = s.power := rfl
@[simp] theorem State.onEng_errors (s : State) (e : Engine) (f : EngineState → EngineState) : (s.onEng e f).errors = s.errors := rfl
@[simp] theorem State.onEng_host (s : State) (e : Engine) (f : EngineState → EngineState) : (s.onEng e f).host = s.host := rfl
@[simp] theorem State.onEng_turn (s : State) (e : Engine) (f : EngineState → EngineState) : (s.onEng e f).turn = s.turn := rfl
@[simp] theorem State.onEng_agenda (s : State) (e : Engine) (f : EngineState → EngineState) : (s.onEng e f).agenda = s.agenda := rfl
@[simp] theorem State.onEng_free (s : State) (e : Engine) (f : EngineState → EngineState) : (s.onEng e f).free = s.free := rfl

/-! ## State.mapGroups -/

@[simp] theorem State.mapGroups_me (s : State) (f : Group → Group) : (s.mapGroups f).me = f s.me := rfl
@[simp] theorem State.mapGroups_rest (s : State) (f : Group → Group) : (s.mapGroups f).rest = s.rest.map f := rfl
@[simp] theorem State.mapGroups_mem (s : State) (f : Group → Group) : (s.mapGroups f).mem = s.mem := rfl
@[simp] theorem State.mapGroups_ctrs (s : State) (f : Group → Group) : (s.mapGroups f).ctrs = s.ctrs := rfl
@[simp] theorem State.mapGroups_ctxs (s : State) (f : Group → Group) : (s.mapGroups f).ctxs = s.ctxs := rfl
@[simp] theorem State.mapGroups_fe (s : State) (f : Group → Group) : (s.mapGroups f).fe = s.fe := rfl
@[simp] theorem State.mapGroups_pages (s : State) (f : Group → Group) : (s.mapGroups f).pages = s.pages := rfl
@[simp] theorem State.mapGroups_links (s : State) (f : Group → Group) : (s.mapGroups f).links = s.links := rfl
@[simp] theorem State.mapGroups_time (s : State) (f : Group → Group) : (s.mapGroups f).time = s.time := rfl
@[simp] theorem State.mapGroups_part (s : State) (f : Group → Group) : (s.mapGroups f).part = s.part := rfl
@[simp] theorem State.mapGroups_boot (s : State) (f : Group → Group) : (s.mapGroups f).boot = s.boot := rfl
@[simp] theorem State.mapGroups_power (s : State) (f : Group → Group) : (s.mapGroups f).power = s.power := rfl
@[simp] theorem State.mapGroups_errors (s : State) (f : Group → Group) : (s.mapGroups f).errors = s.errors := rfl
@[simp] theorem State.mapGroups_host (s : State) (f : Group → Group) : (s.mapGroups f).host = s.host := rfl
@[simp] theorem State.mapGroups_turn (s : State) (f : Group → Group) : (s.mapGroups f).turn = s.turn := rfl
@[simp] theorem State.mapGroups_agenda (s : State) (f : Group → Group) : (s.mapGroups f).agenda = s.agenda := rfl
@[simp] theorem State.mapGroups_free (s : State) (f : Group → Group) : (s.mapGroups f).free = s.free := rfl

/-! ## State.onCtx -/

@[simp] theorem State.onCtx_me (s : State) (n : Nat) (f : Context → Context) : (s.onCtx n f).me = s.me := rfl
@[simp] theorem State.onCtx_rest (s : State) (n : Nat) (f : Context → Context) : (s.onCtx n f).rest = s.rest := rfl
@[simp] theorem State.onCtx_mem (s : State) (n : Nat) (f : Context → Context) : (s.onCtx n f).mem = s.mem := rfl
@[simp] theorem State.onCtx_ctrs (s : State) (n : Nat) (f : Context → Context) : (s.onCtx n f).ctrs = s.ctrs := rfl
@[simp] theorem State.onCtx_ctxs (s : State) (n : Nat) (f : Context → Context) : (s.onCtx n f).ctxs = assocMap s.ctxs n f := rfl
@[simp] theorem State.onCtx_fe (s : State) (n : Nat) (f : Context → Context) : (s.onCtx n f).fe = s.fe := rfl
@[simp] theorem State.onCtx_pages (s : State) (n : Nat) (f : Context → Context) : (s.onCtx n f).pages = s.pages := rfl
@[simp] theorem State.onCtx_links (s : State) (n : Nat) (f : Context → Context) : (s.onCtx n f).links = s.links := rfl
@[simp] theorem State.onCtx_time (s : State) (n : Nat) (f : Context → Context) : (s.onCtx n f).time = s.time := rfl
@[simp] theorem State.onCtx_part (s : State) (n : Nat) (f : Context → Context) : (s.onCtx n f).part = s.part := rfl
@[simp] theorem State.onCtx_boot (s : State) (n : Nat) (f : Context → Context) : (s.onCtx n f).boot = s.boot := rfl
@[simp] theorem State.onCtx_power (s : State) (n : Nat) (f : Context → Context) : (s.onCtx n f).power = s.power := rfl
@[simp] theorem State.onCtx_errors (s : State) (n : Nat) (f : Context → Context) : (s.onCtx n f).errors = s.errors := rfl
@[simp] theorem State.onCtx_host (s : State) (n : Nat) (f : Context → Context) : (s.onCtx n f).host = s.host := rfl
@[simp] theorem State.onCtx_turn (s : State) (n : Nat) (f : Context → Context) : (s.onCtx n f).turn = s.turn := rfl
@[simp] theorem State.onCtx_agenda (s : State) (n : Nat) (f : Context → Context) : (s.onCtx n f).agenda = s.agenda := rfl
@[simp] theorem State.onCtx_free (s : State) (n : Nat) (f : Context → Context) : (s.onCtx n f).free = s.free := rfl

/-! ## State.onLeases -/

@[simp] theorem State.onLeases_me (s : State) (f : List Lease → List Lease) : (s.onLeases f).me = s.me := rfl
@[simp] theorem State.onLeases_rest (s : State) (f : List Lease → List Lease) : (s.onLeases f).rest = s.rest := rfl
@[simp] theorem State.onLeases_mem (s : State) (f : List Lease → List Lease) : (s.onLeases f).mem = s.mem := rfl
@[simp] theorem State.onLeases_ctrs (s : State) (f : List Lease → List Lease) : (s.onLeases f).ctrs = s.ctrs := rfl
@[simp] theorem State.onLeases_ctxs (s : State) (f : List Lease → List Lease) : (s.onLeases f).ctxs = s.ctxs := rfl
@[simp] theorem State.onLeases_fe (s : State) (f : List Lease → List Lease) : (s.onLeases f).fe = s.fe := rfl
@[simp] theorem State.onLeases_links (s : State) (f : List Lease → List Lease) : (s.onLeases f).links = s.links := rfl
@[simp] theorem State.onLeases_time (s : State) (f : List Lease → List Lease) : (s.onLeases f).time = s.time := rfl
@[simp] theorem State.onLeases_part (s : State) (f : List Lease → List Lease) : (s.onLeases f).part = s.part := rfl
@[simp] theorem State.onLeases_boot (s : State) (f : List Lease → List Lease) : (s.onLeases f).boot = s.boot := rfl
@[simp] theorem State.onLeases_power (s : State) (f : List Lease → List Lease) : (s.onLeases f).power = s.power := rfl
@[simp] theorem State.onLeases_errors (s : State) (f : List Lease → List Lease) : (s.onLeases f).errors = s.errors := rfl
@[simp] theorem State.onLeases_host (s : State) (f : List Lease → List Lease) : (s.onLeases f).host = s.host := rfl
@[simp] theorem State.onLeases_turn (s : State) (f : List Lease → List Lease) : (s.onLeases f).turn = s.turn := rfl
@[simp] theorem State.onLeases_agenda (s : State) (f : List Lease → List Lease) : (s.onLeases f).agenda = s.agenda := rfl
@[simp] theorem State.onLeases_free (s : State) (f : List Lease → List Lease) : (s.onLeases f).free = s.free := rfl

/-! ## Group.setEngine -/

@[simp] theorem Group.setEngine_ident (g : Group) (e : Engine) (x : EngineState) : (g.setEngine e x).ident = g.ident := rfl
@[simp] theorem Group.setEngine_phase (g : Group) (e : Engine) (x : EngineState) : (g.setEngine e x).phase = g.phase := rfl
@[simp] theorem Group.setEngine_prior (g : Group) (e : Engine) (x : EngineState) : (g.setEngine e x).prior = g.prior := rfl
@[simp] theorem Group.setEngine_status (g : Group) (e : Engine) (x : EngineState) : (g.setEngine e x).status = g.status := rfl
@[simp] theorem Group.setEngine_reason (g : Group) (e : Engine) (x : EngineState) : (g.setEngine e x).reason = g.reason := rfl
@[simp] theorem Group.setEngine_eng (g : Group) (e : Engine) (x : EngineState) : (g.setEngine e x).eng = g.eng.set e x := rfl
@[simp] theorem Group.setEngine_frames (g : Group) (e : Engine) (x : EngineState) : (g.setEngine e x).frames = g.frames := rfl
@[simp] theorem Group.setEngine_cr (g : Group) (e : Engine) (x : EngineState) : (g.setEngine e x).cr = g.cr := rfl
@[simp] theorem Group.setEngine_vr (g : Group) (e : Engine) (x : EngineState) : (g.setEngine e x).vr = g.vr := rfl
@[simp] theorem Group.setEngine_queues (g : Group) (e : Engine) (x : EngineState) : (g.setEngine e x).queues = g.queues := rfl
@[simp] theorem Group.setEngine_streams (g : Group) (e : Engine) (x : EngineState) : (g.setEngine e x).streams = g.streams := rfl
@[simp] theorem Group.setEngine_mesh (g : Group) (e : Engine) (x : EngineState) : (g.setEngine e x).mesh = g.mesh := rfl
@[simp] theorem Group.setEngine_store (g : Group) (e : Engine) (x : EngineState) : (g.setEngine e x).store = g.store := rfl
@[simp] theorem Group.setEngine_work (g : Group) (e : Engine) (x : EngineState) : (g.setEngine e x).work = g.work := rfl
@[simp] theorem Group.setEngine_sys (g : Group) (e : Engine) (x : EngineState) : (g.setEngine e x).sys = g.sys := rfl
@[simp] theorem Group.setEngine_traps (g : Group) (e : Engine) (x : EngineState) : (g.setEngine e x).traps = g.traps := rfl
@[simp] theorem Group.setEngine_bank (g : Group) (e : Engine) (x : EngineState) : (g.setEngine e x).bank = g.bank := rfl
@[simp] theorem Group.setEngine_hand (g : Group) (e : Engine) (x : EngineState) : (g.setEngine e x).hand = g.hand := rfl
@[simp] theorem Group.setEngine_time (g : Group) (e : Engine) (x : EngineState) : (g.setEngine e x).time = g.time := rfl

/-! ## Group.mapEngine -/

@[simp] theorem Group.mapEngine_ident (g : Group) (e : Engine) (f : EngineState → EngineState) : (g.mapEngine e f).ident = g.ident := rfl
@[simp] theorem Group.mapEngine_phase (g : Group) (e : Engine) (f : EngineState → EngineState) : (g.mapEngine e f).phase = g.phase := rfl
@[simp] theorem Group.mapEngine_prior (g : Group) (e : Engine) (f : EngineState → EngineState) : (g.mapEngine e f).prior = g.prior := rfl
@[simp] theorem Group.mapEngine_status (g : Group) (e : Engine) (f : EngineState → EngineState) : (g.mapEngine e f).status = g.status := rfl
@[simp] theorem Group.mapEngine_reason (g : Group) (e : Engine) (f : EngineState → EngineState) : (g.mapEngine e f).reason = g.reason := rfl
@[simp] theorem Group.mapEngine_eng (g : Group) (e : Engine) (f : EngineState → EngineState) : (g.mapEngine e f).eng = g.eng.set e (f (g.engine e)) := rfl
@[simp] theorem Group.mapEngine_frames (g : Group) (e : Engine) (f : EngineState → EngineState) : (g.mapEngine e f).frames = g.frames := rfl
@[simp] theorem Group.mapEngine_cr (g : Group) (e : Engine) (f : EngineState → EngineState) : (g.mapEngine e f).cr = g.cr := rfl
@[simp] theorem Group.mapEngine_vr (g : Group) (e : Engine) (f : EngineState → EngineState) : (g.mapEngine e f).vr = g.vr := rfl
@[simp] theorem Group.mapEngine_queues (g : Group) (e : Engine) (f : EngineState → EngineState) : (g.mapEngine e f).queues = g.queues := rfl
@[simp] theorem Group.mapEngine_streams (g : Group) (e : Engine) (f : EngineState → EngineState) : (g.mapEngine e f).streams = g.streams := rfl
@[simp] theorem Group.mapEngine_mesh (g : Group) (e : Engine) (f : EngineState → EngineState) : (g.mapEngine e f).mesh = g.mesh := rfl
@[simp] theorem Group.mapEngine_store (g : Group) (e : Engine) (f : EngineState → EngineState) : (g.mapEngine e f).store = g.store := rfl
@[simp] theorem Group.mapEngine_work (g : Group) (e : Engine) (f : EngineState → EngineState) : (g.mapEngine e f).work = g.work := rfl
@[simp] theorem Group.mapEngine_sys (g : Group) (e : Engine) (f : EngineState → EngineState) : (g.mapEngine e f).sys = g.sys := rfl
@[simp] theorem Group.mapEngine_traps (g : Group) (e : Engine) (f : EngineState → EngineState) : (g.mapEngine e f).traps = g.traps := rfl
@[simp] theorem Group.mapEngine_bank (g : Group) (e : Engine) (f : EngineState → EngineState) : (g.mapEngine e f).bank = g.bank := rfl
@[simp] theorem Group.mapEngine_hand (g : Group) (e : Engine) (f : EngineState → EngineState) : (g.mapEngine e f).hand = g.hand := rfl
@[simp] theorem Group.mapEngine_time (g : Group) (e : Engine) (f : EngineState → EngineState) : (g.mapEngine e f).time = g.time := rfl

/-! ## Group.setFlag -/

@[simp] theorem Group.setFlag_ident (g : Group) (n setter : Nat) : (g.setFlag n setter).ident = g.ident := rfl
@[simp] theorem Group.setFlag_phase (g : Group) (n setter : Nat) : (g.setFlag n setter).phase = g.phase := rfl
@[simp] theorem Group.setFlag_prior (g : Group) (n setter : Nat) : (g.setFlag n setter).prior = g.prior := rfl
@[simp] theorem Group.setFlag_status (g : Group) (n setter : Nat) : (g.setFlag n setter).status = g.status := rfl
@[simp] theorem Group.setFlag_reason (g : Group) (n setter : Nat) : (g.setFlag n setter).reason = g.reason := rfl
@[simp] theorem Group.setFlag_eng (g : Group) (n setter : Nat) : (g.setFlag n setter).eng = g.eng := rfl
@[simp] theorem Group.setFlag_frames (g : Group) (n setter : Nat) : (g.setFlag n setter).frames = g.frames := rfl
@[simp] theorem Group.setFlag_cr (g : Group) (n setter : Nat) : (g.setFlag n setter).cr = g.cr := rfl
@[simp] theorem Group.setFlag_vr (g : Group) (n setter : Nat) : (g.setFlag n setter).vr = g.vr := rfl
@[simp] theorem Group.setFlag_queues (g : Group) (n setter : Nat) : (g.setFlag n setter).queues = g.queues := rfl
@[simp] theorem Group.setFlag_streams (g : Group) (n setter : Nat) : (g.setFlag n setter).streams = g.streams := rfl
@[simp] theorem Group.setFlag_mesh (g : Group) (n setter : Nat) : (g.setFlag n setter).mesh = g.mesh := rfl
@[simp] theorem Group.setFlag_store (g : Group) (n setter : Nat) : (g.setFlag n setter).store = g.store := rfl
@[simp] theorem Group.setFlag_sys (g : Group) (n setter : Nat) : (g.setFlag n setter).sys = g.sys := rfl
@[simp] theorem Group.setFlag_traps (g : Group) (n setter : Nat) : (g.setFlag n setter).traps = g.traps := rfl
@[simp] theorem Group.setFlag_bank (g : Group) (n setter : Nat) : (g.setFlag n setter).bank = g.bank := rfl
@[simp] theorem Group.setFlag_hand (g : Group) (n setter : Nat) : (g.setFlag n setter).hand = g.hand := rfl
@[simp] theorem Group.setFlag_time (g : Group) (n setter : Nat) : (g.setFlag n setter).time = g.time := rfl

/-! ## Group.clrFlag -/

@[simp] theorem Group.clrFlag_ident (g : Group) (n : Nat) : (g.clrFlag n).ident = g.ident := rfl
@[simp] theorem Group.clrFlag_phase (g : Group) (n : Nat) : (g.clrFlag n).phase = g.phase := rfl
@[simp] theorem Group.clrFlag_prior (g : Group) (n : Nat) : (g.clrFlag n).prior = g.prior := rfl
@[simp] theorem Group.clrFlag_status (g : Group) (n : Nat) : (g.clrFlag n).status = g.status := rfl
@[simp] theorem Group.clrFlag_reason (g : Group) (n : Nat) : (g.clrFlag n).reason = g.reason := rfl
@[simp] theorem Group.clrFlag_eng (g : Group) (n : Nat) : (g.clrFlag n).eng = g.eng := rfl
@[simp] theorem Group.clrFlag_frames (g : Group) (n : Nat) : (g.clrFlag n).frames = g.frames := rfl
@[simp] theorem Group.clrFlag_cr (g : Group) (n : Nat) : (g.clrFlag n).cr = g.cr := rfl
@[simp] theorem Group.clrFlag_vr (g : Group) (n : Nat) : (g.clrFlag n).vr = g.vr := rfl
@[simp] theorem Group.clrFlag_queues (g : Group) (n : Nat) : (g.clrFlag n).queues = g.queues := rfl
@[simp] theorem Group.clrFlag_streams (g : Group) (n : Nat) : (g.clrFlag n).streams = g.streams := rfl
@[simp] theorem Group.clrFlag_mesh (g : Group) (n : Nat) : (g.clrFlag n).mesh = g.mesh := rfl
@[simp] theorem Group.clrFlag_store (g : Group) (n : Nat) : (g.clrFlag n).store = g.store := rfl
@[simp] theorem Group.clrFlag_sys (g : Group) (n : Nat) : (g.clrFlag n).sys = g.sys := rfl
@[simp] theorem Group.clrFlag_traps (g : Group) (n : Nat) : (g.clrFlag n).traps = g.traps := rfl
@[simp] theorem Group.clrFlag_bank (g : Group) (n : Nat) : (g.clrFlag n).bank = g.bank := rfl
@[simp] theorem Group.clrFlag_hand (g : Group) (n : Nat) : (g.clrFlag n).hand = g.hand := rfl
@[simp] theorem Group.clrFlag_time (g : Group) (n : Nat) : (g.clrFlag n).time = g.time := rfl

/-! ## Group.setQueue -/

@[simp] theorem Group.setQueue_ident (g : Group) (n : BitVec 4) (q : Queue) : (g.setQueue n q).ident = g.ident := rfl
@[simp] theorem Group.setQueue_phase (g : Group) (n : BitVec 4) (q : Queue) : (g.setQueue n q).phase = g.phase := rfl
@[simp] theorem Group.setQueue_prior (g : Group) (n : BitVec 4) (q : Queue) : (g.setQueue n q).prior = g.prior := rfl
@[simp] theorem Group.setQueue_status (g : Group) (n : BitVec 4) (q : Queue) : (g.setQueue n q).status = g.status := rfl
@[simp] theorem Group.setQueue_reason (g : Group) (n : BitVec 4) (q : Queue) : (g.setQueue n q).reason = g.reason := rfl
@[simp] theorem Group.setQueue_eng (g : Group) (n : BitVec 4) (q : Queue) : (g.setQueue n q).eng = g.eng := rfl
@[simp] theorem Group.setQueue_frames (g : Group) (n : BitVec 4) (q : Queue) : (g.setQueue n q).frames = g.frames := rfl
@[simp] theorem Group.setQueue_cr (g : Group) (n : BitVec 4) (q : Queue) : (g.setQueue n q).cr = g.cr := rfl
@[simp] theorem Group.setQueue_vr (g : Group) (n : BitVec 4) (q : Queue) : (g.setQueue n q).vr = g.vr := rfl
@[simp] theorem Group.setQueue_queues (g : Group) (n : BitVec 4) (q : Queue) : (g.setQueue n q).queues = g.queues.set n.toNat q := rfl
@[simp] theorem Group.setQueue_streams (g : Group) (n : BitVec 4) (q : Queue) : (g.setQueue n q).streams = g.streams := rfl
@[simp] theorem Group.setQueue_mesh (g : Group) (n : BitVec 4) (q : Queue) : (g.setQueue n q).mesh = g.mesh := rfl
@[simp] theorem Group.setQueue_store (g : Group) (n : BitVec 4) (q : Queue) : (g.setQueue n q).store = g.store := rfl
@[simp] theorem Group.setQueue_work (g : Group) (n : BitVec 4) (q : Queue) : (g.setQueue n q).work = g.work := rfl
@[simp] theorem Group.setQueue_sys (g : Group) (n : BitVec 4) (q : Queue) : (g.setQueue n q).sys = g.sys := rfl
@[simp] theorem Group.setQueue_traps (g : Group) (n : BitVec 4) (q : Queue) : (g.setQueue n q).traps = g.traps := rfl
@[simp] theorem Group.setQueue_bank (g : Group) (n : BitVec 4) (q : Queue) : (g.setQueue n q).bank = g.bank := rfl
@[simp] theorem Group.setQueue_hand (g : Group) (n : BitVec 4) (q : Queue) : (g.setQueue n q).hand = g.hand := rfl
@[simp] theorem Group.setQueue_time (g : Group) (n : BitVec 4) (q : Queue) : (g.setQueue n q).time = g.time := rfl

/-! ## Group.setStream -/

@[simp] theorem Group.setStream_ident (g : Group) (n : BitVec 4) (z : Stream) : (g.setStream n z).ident = g.ident := rfl
@[simp] theorem Group.setStream_phase (g : Group) (n : BitVec 4) (z : Stream) : (g.setStream n z).phase = g.phase := rfl
@[simp] theorem Group.setStream_prior (g : Group) (n : BitVec 4) (z : Stream) : (g.setStream n z).prior = g.prior := rfl
@[simp] theorem Group.setStream_status (g : Group) (n : BitVec 4) (z : Stream) : (g.setStream n z).status = g.status := rfl
@[simp] theorem Group.setStream_reason (g : Group) (n : BitVec 4) (z : Stream) : (g.setStream n z).reason = g.reason := rfl
@[simp] theorem Group.setStream_eng (g : Group) (n : BitVec 4) (z : Stream) : (g.setStream n z).eng = g.eng := rfl
@[simp] theorem Group.setStream_frames (g : Group) (n : BitVec 4) (z : Stream) : (g.setStream n z).frames = g.frames := rfl
@[simp] theorem Group.setStream_cr (g : Group) (n : BitVec 4) (z : Stream) : (g.setStream n z).cr = g.cr := rfl
@[simp] theorem Group.setStream_vr (g : Group) (n : BitVec 4) (z : Stream) : (g.setStream n z).vr = g.vr := rfl
@[simp] theorem Group.setStream_queues (g : Group) (n : BitVec 4) (z : Stream) : (g.setStream n z).queues = g.queues := rfl
@[simp] theorem Group.setStream_streams (g : Group) (n : BitVec 4) (z : Stream) : (g.setStream n z).streams = g.streams.set n.toNat z := rfl
@[simp] theorem Group.setStream_mesh (g : Group) (n : BitVec 4) (z : Stream) : (g.setStream n z).mesh = g.mesh := rfl
@[simp] theorem Group.setStream_store (g : Group) (n : BitVec 4) (z : Stream) : (g.setStream n z).store = g.store := rfl
@[simp] theorem Group.setStream_work (g : Group) (n : BitVec 4) (z : Stream) : (g.setStream n z).work = g.work := rfl
@[simp] theorem Group.setStream_sys (g : Group) (n : BitVec 4) (z : Stream) : (g.setStream n z).sys = g.sys := rfl
@[simp] theorem Group.setStream_traps (g : Group) (n : BitVec 4) (z : Stream) : (g.setStream n z).traps = g.traps := rfl
@[simp] theorem Group.setStream_bank (g : Group) (n : BitVec 4) (z : Stream) : (g.setStream n z).bank = g.bank := rfl
@[simp] theorem Group.setStream_hand (g : Group) (n : BitVec 4) (z : Stream) : (g.setStream n z).hand = g.hand := rfl
@[simp] theorem Group.setStream_time (g : Group) (n : BitVec 4) (z : Stream) : (g.setStream n z).time = g.time := rfl

/-! ## Group.onMesh -/

@[simp] theorem Group.onMesh_ident (g : Group) (f : MeshState → MeshState) : (g.onMesh f).ident = g.ident := rfl
@[simp] theorem Group.onMesh_phase (g : Group) (f : MeshState → MeshState) : (g.onMesh f).phase = g.phase := rfl
@[simp] theorem Group.onMesh_prior (g : Group) (f : MeshState → MeshState) : (g.onMesh f).prior = g.prior := rfl
@[simp] theorem Group.onMesh_status (g : Group) (f : MeshState → MeshState) : (g.onMesh f).status = g.status := rfl
@[simp] theorem Group.onMesh_reason (g : Group) (f : MeshState → MeshState) : (g.onMesh f).reason = g.reason := rfl
@[simp] theorem Group.onMesh_eng (g : Group) (f : MeshState → MeshState) : (g.onMesh f).eng = g.eng := rfl
@[simp] theorem Group.onMesh_frames (g : Group) (f : MeshState → MeshState) : (g.onMesh f).frames = g.frames := rfl
@[simp] theorem Group.onMesh_cr (g : Group) (f : MeshState → MeshState) : (g.onMesh f).cr = g.cr := rfl
@[simp] theorem Group.onMesh_vr (g : Group) (f : MeshState → MeshState) : (g.onMesh f).vr = g.vr := rfl
@[simp] theorem Group.onMesh_queues (g : Group) (f : MeshState → MeshState) : (g.onMesh f).queues = g.queues := rfl
@[simp] theorem Group.onMesh_streams (g : Group) (f : MeshState → MeshState) : (g.onMesh f).streams = g.streams := rfl
@[simp] theorem Group.onMesh_mesh (g : Group) (f : MeshState → MeshState) : (g.onMesh f).mesh = f g.mesh := rfl
@[simp] theorem Group.onMesh_store (g : Group) (f : MeshState → MeshState) : (g.onMesh f).store = g.store := rfl
@[simp] theorem Group.onMesh_work (g : Group) (f : MeshState → MeshState) : (g.onMesh f).work = g.work := rfl
@[simp] theorem Group.onMesh_sys (g : Group) (f : MeshState → MeshState) : (g.onMesh f).sys = g.sys := rfl
@[simp] theorem Group.onMesh_traps (g : Group) (f : MeshState → MeshState) : (g.onMesh f).traps = g.traps := rfl
@[simp] theorem Group.onMesh_bank (g : Group) (f : MeshState → MeshState) : (g.onMesh f).bank = g.bank := rfl
@[simp] theorem Group.onMesh_hand (g : Group) (f : MeshState → MeshState) : (g.onMesh f).hand = g.hand := rfl
@[simp] theorem Group.onMesh_time (g : Group) (f : MeshState → MeshState) : (g.onMesh f).time = g.time := rfl

/-! ## Group.setReg -/

@[simp] theorem Group.setReg_ident (g : Group) (r : Reg) (v : Val) : (g.setReg r v).ident = g.ident := by unfold Group.setReg; split <;> first | rfl | (split <;> rfl)
@[simp] theorem Group.setReg_phase (g : Group) (r : Reg) (v : Val) : (g.setReg r v).phase = g.phase := by unfold Group.setReg; split <;> first | rfl | (split <;> rfl)
@[simp] theorem Group.setReg_prior (g : Group) (r : Reg) (v : Val) : (g.setReg r v).prior = g.prior := by unfold Group.setReg; split <;> first | rfl | (split <;> rfl)
@[simp] theorem Group.setReg_status (g : Group) (r : Reg) (v : Val) : (g.setReg r v).status = g.status := by unfold Group.setReg; split <;> first | rfl | (split <;> rfl)
@[simp] theorem Group.setReg_reason (g : Group) (r : Reg) (v : Val) : (g.setReg r v).reason = g.reason := by unfold Group.setReg; split <;> first | rfl | (split <;> rfl)
@[simp] theorem Group.setReg_eng (g : Group) (r : Reg) (v : Val) : (g.setReg r v).eng = g.eng := by unfold Group.setReg; split <;> first | rfl | (split <;> rfl)
@[simp] theorem Group.setReg_frames (g : Group) (r : Reg) (v : Val) : (g.setReg r v).frames = g.frames := by unfold Group.setReg; split <;> first | rfl | (split <;> rfl)
@[simp] theorem Group.setReg_queues (g : Group) (r : Reg) (v : Val) : (g.setReg r v).queues = g.queues := by unfold Group.setReg; split <;> first | rfl | (split <;> rfl)
@[simp] theorem Group.setReg_streams (g : Group) (r : Reg) (v : Val) : (g.setReg r v).streams = g.streams := by unfold Group.setReg; split <;> first | rfl | (split <;> rfl)
@[simp] theorem Group.setReg_mesh (g : Group) (r : Reg) (v : Val) : (g.setReg r v).mesh = g.mesh := by unfold Group.setReg; split <;> first | rfl | (split <;> rfl)
@[simp] theorem Group.setReg_store (g : Group) (r : Reg) (v : Val) : (g.setReg r v).store = g.store := by unfold Group.setReg; split <;> first | rfl | (split <;> rfl)
@[simp] theorem Group.setReg_work (g : Group) (r : Reg) (v : Val) : (g.setReg r v).work = g.work := by unfold Group.setReg; split <;> first | rfl | (split <;> rfl)
@[simp] theorem Group.setReg_sys (g : Group) (r : Reg) (v : Val) : (g.setReg r v).sys = g.sys := by unfold Group.setReg; split <;> first | rfl | (split <;> rfl)
@[simp] theorem Group.setReg_traps (g : Group) (r : Reg) (v : Val) : (g.setReg r v).traps = g.traps := by unfold Group.setReg; split <;> first | rfl | (split <;> rfl)
@[simp] theorem Group.setReg_bank (g : Group) (r : Reg) (v : Val) : (g.setReg r v).bank = g.bank := by unfold Group.setReg; split <;> first | rfl | (split <;> rfl)
@[simp] theorem Group.setReg_hand (g : Group) (r : Reg) (v : Val) : (g.setReg r v).hand = g.hand := by unfold Group.setReg; split <;> first | rfl | (split <;> rfl)
@[simp] theorem Group.setReg_time (g : Group) (r : Reg) (v : Val) : (g.setReg r v).time = g.time := by unfold Group.setReg; split <;> first | rfl | (split <;> rfl)

/-! ## Group.fly -/

@[simp] theorem Group.fly_ident (g : Group) (e : Engine) (f : InFlight) : (g.fly e f).ident = g.ident := by unfold Group.fly; dsimp only; split <;> rfl
@[simp] theorem Group.fly_phase (g : Group) (e : Engine) (f : InFlight) : (g.fly e f).phase = g.phase := by unfold Group.fly; dsimp only; split <;> rfl
@[simp] theorem Group.fly_prior (g : Group) (e : Engine) (f : InFlight) : (g.fly e f).prior = g.prior := by unfold Group.fly; dsimp only; split <;> rfl
@[simp] theorem Group.fly_status (g : Group) (e : Engine) (f : InFlight) : (g.fly e f).status = g.status := by unfold Group.fly; dsimp only; split <;> rfl
@[simp] theorem Group.fly_reason (g : Group) (e : Engine) (f : InFlight) : (g.fly e f).reason = g.reason := by unfold Group.fly; dsimp only; split <;> rfl
@[simp] theorem Group.fly_frames (g : Group) (e : Engine) (f : InFlight) : (g.fly e f).frames = g.frames := by unfold Group.fly; dsimp only; split <;> rfl
@[simp] theorem Group.fly_cr (g : Group) (e : Engine) (f : InFlight) : (g.fly e f).cr = g.cr := by unfold Group.fly; dsimp only; split <;> rfl
@[simp] theorem Group.fly_vr (g : Group) (e : Engine) (f : InFlight) : (g.fly e f).vr = g.vr := by unfold Group.fly; dsimp only; split <;> rfl
@[simp] theorem Group.fly_queues (g : Group) (e : Engine) (f : InFlight) : (g.fly e f).queues = g.queues := by unfold Group.fly; dsimp only; split <;> rfl
@[simp] theorem Group.fly_streams (g : Group) (e : Engine) (f : InFlight) : (g.fly e f).streams = g.streams := by unfold Group.fly; dsimp only; split <;> rfl
@[simp] theorem Group.fly_mesh (g : Group) (e : Engine) (f : InFlight) : (g.fly e f).mesh = g.mesh := by unfold Group.fly; dsimp only; split <;> rfl
@[simp] theorem Group.fly_store (g : Group) (e : Engine) (f : InFlight) : (g.fly e f).store = g.store := by unfold Group.fly; dsimp only; split <;> rfl
@[simp] theorem Group.fly_work (g : Group) (e : Engine) (f : InFlight) : (g.fly e f).work = g.work := by unfold Group.fly; dsimp only; split <;> rfl
@[simp] theorem Group.fly_sys (g : Group) (e : Engine) (f : InFlight) : (g.fly e f).sys = g.sys := by unfold Group.fly; dsimp only; split <;> rfl
@[simp] theorem Group.fly_traps (g : Group) (e : Engine) (f : InFlight) : (g.fly e f).traps = g.traps := by unfold Group.fly; dsimp only; split <;> rfl
@[simp] theorem Group.fly_bank (g : Group) (e : Engine) (f : InFlight) : (g.fly e f).bank = g.bank := by unfold Group.fly; dsimp only; split <;> rfl
@[simp] theorem Group.fly_time (g : Group) (e : Engine) (f : InFlight) : (g.fly e f).time = g.time := by unfold Group.fly; dsimp only; split <;> rfl

end Sys2Proof.Machine
end

