-- ==== Sys2Proof/Laws/Step.lean ====
section
/-! SUPPORT. What one step can do: an item that an engine runs, an event row, or time; what it does to the boot record, the part and
PCAP. -/

namespace Sys2Proof.Machine

theorem setsRoot_of_word (i : Instr) (h : (encode i).isSome = true) : setsRoot i = false := by
  cases i <;> first | rfl | cases h

theorem runLong_root (e : Engine) (w : Nat) (s o : State) (h : runLong e w s = .next o) : o.root = s.root := by
  rw [runLong_eq] at h
  refine runDecoded_root e _ s o (fun i hi => setsRoot_of_word i ?_) h
  have := decode32_hasWord w
  rw [hi] at this
  exact this

theorem runShort_root (e : Engine) (p : Nat) (s o : State) (h : runShort e p s = .next o) : o.root = s.root := by
  rw [runShort_eq] at h
  refine runDecoded_root e _ s o (fun i hi => setsRoot_of_word i ?_) h
  have := decode16_hasWord p
  rw [hi] at this
  exact this

theorem next_inj {s t : State} (h : (.next s : Out) = .next t) : s = t := by injection h

theorem State.latchSub_root' (s : State) (e : Engine) (b : Bool) : (if b then s.latchSub e else s).root = s.root := by
  cases b
  · rfl
  · exact State.latchSub_root s e

theorem runItem_root (s0 : State) (e : Engine) (o : State) (h : s0.runItem e = .next o) : o.root = s0.root := by
  unfold State.runItem at h
  have hs := State.latchSub_root' s0 e (s0.me.isOwn e)
  generalize (if s0.me.isOwn e then s0.latchSub e else s0) = s at h hs
  rw [← hs]
  dsimp only at h
  split at h
  · exact runLong_root _ _ _ _ h
  · (repeat' split at h) <;> first
      | exact runLong_root _ _ _ _ h
      | exact runShort_root _ _ _ _ h
      | (rw [← next_inj h]; simp only [State.unclaimedTrap_root, State.passBytes_root])

theorem walk_root (s : State) (e : Engine) (o : State) (h : s.walk e = .next o) : o.root = s.root := by
  unfold State.walk at h
  split at h
  · rw [← next_inj h]
  · split at h
    · exact execInterrupt_root (hr := h) ..
    · split at h
      · rw [← next_inj h, State.trapAt_root]
      · rename_i s1 e1
        have hs := State.enterPos_root (hr := e1) ..
        dsimp only at h
        (repeat' split at h) <;> first
          | (rw [runItem_root _ _ _ h, hs])
          | (rw [← next_inj h]; simp only [State.onEng_root, State.framing_root, State.stall_root, hs])

theorem andThen_next (f : State → State) (x : Out) (o : State) (h : andThen f x = .next o) : ∃ t, x = .next t ∧ o = f t := by
  cases x with
  | next t => exact ⟨t, rfl, (next_inj h).symm⟩
  | fault r => cases h
  | refused r => cases h

theorem engineStep_root (e : Engine) (s o : State) (h : engineStep e s = .next o) : o.root = s.root := by
  obtain ⟨t, ht, rfl⟩ := andThen_next _ _ _ h
  have e1 := walk_root _ _ _ ht
  exact e1

theorem asyncStep_root (s o : State) (h : asyncStep s = .next o) : o.root = s.root := by
  unfold asyncStep at h
  dsimp only at h
  split at h
  · rw [← next_inj h, State.endTurn_root, State.observe_root]
  · rename_i a ha
    obtain ⟨t, ht, rfl⟩ := andThen_next _ _ _ h
    obtain ⟨i, _, hi, rfl⟩ := nextEvent_row _ _ ha
    rw [State.endTurn_root, exec_root i _ _ hi ht, State.observe_root]

/-- A step leaves the root alone, unless the agenda's next move is one of the six rows that set it. -/
theorem step_root (s o : State) (h : step s = .next o) :
    o.root = s.root ∨ ∃ core i r, s.agenda = .event core i :: r ∧ setsRoot i = true ∧
      exec i (State.focus { s with agenda := r } core) = .next o := by
  unfold step at h
  split at h
  · rename_i core e r _
    left; rw [engineStep_root _ _ _ h, State.focus_root]; rfl
  · rename_i core i r ha
    split at h
    · cases hi : setsRoot i with
      | true => exact .inr ⟨core, i, r, ha, hi, h⟩
      | false => left; rw [exec_root i _ _ hi h, State.focus_root]; rfl
    · left; rw [← next_inj h]; rfl
  · left; rw [← next_inj h, State.elapse_root]; rfl
  · split at h
    · exact .inl (engineStep_root _ _ _ h)
    · exact .inl (asyncStep_root _ _ h)

end Sys2Proof.Machine
end

