-- ==== Sys2Proof/Machine/SaveArea.lean ====
section
/-! DEFINITION. The bytes of a save area (16_group R304, R305; 18_prog_rotations R309) as a function of the group that each of its
sections was written from. The area's place in HBM is not stated, and no access of the model reaches it (log entry 22). Sections whose
inner layout the spec leaves open are laid out as log entry 51 says. -/

namespace Sys2Proof.Machine

/-- Fields of a section: offset, bytes, value. -/
abbrev Fields := List (Nat × Nat × Nat)

/-- The cells of fields in rising order, from an address on. -/
def fieldCells (a : Nat) (fs : Fields) : Memory := fs.flatMap fun f => memCells (a + f.1) (leBytes f.2.1 f.2.2)

/-- Fields moved by an offset. -/
def Fields.at_ (a : Nat) (fs : Fields) : Fields := fs.map fun (f : Nat × Nat × Nat) => (a + f.1, f.2.1, f.2.2)

/-- Cells moved by an offset. -/
def Memory.shift (a : Nat) (m : Memory) : Memory := m.map fun c => (a + c.1, c.2)

/-! ## Parts of the control section -/

/-- R304: a block stack. -/
def stackFields (l : List Level) : Fields :=
  l.zipIdx.flatMap fun p => [(16 * p.2, 4, p.1.body), (16 * p.2 + 4, 4, p.1.last), (16 * p.2 + 8, 4, p.1.passes), (16 * p.2 + 12, 4, 1)]

/-- R304: an entry of a hidden branch queue. -/
def HbEntry.word : HbEntry → Nat
  | .branch take annul => 2 ^ 63 + (if take then 2 ^ 61 else 0) + (if annul then 2 ^ 60 else 0)
  | .count n => 2 ^ 63 + 2 ^ 62 + n % 2 ^ 15

/-- R85, R86: the position of an engine, never SEQ. -/
def Group.posOf (g : Group) (e : Engine) : Pos :=
  match (g.engine e).pc with
  | .seq => .item (g.nextItem e)
  | p => p

/-- R304: the position words of an engine. -/
def Group.posFields (g : Group) (e : Engine) : Fields :=
  let x := g.engine e
  [(0, 8, (g.posOf e).save.toNat), (8, 8, x.pc1.save.toNat), (16, 8, x.pc2.save.toNat), (24, 8, x.annul.toNat)]

/-- R287: a binding byte. -/
def bindByte : Option (Engine × Engine) → Nat
  | none => 0
  | some (p, e) => 128 + 8 * p.tag + e.tag

/-- R304: a queue register. -/
def Queue.fields (q : Queue) : Fields :=
  [(0, 1, bindByte q.bind), (1, 1, q.entries.length)] ++ q.entries.zipIdx.map fun (p : BitVec 64 × Nat) => (8 + 8 * p.2, 8, p.1.toNat)

/-- R304: a handle in 32 bytes. -/
def Handle.fields (h : Handle) : Fields := [(0, 8, h.status.toNat), (8, 8, h.va.toNat)]

/-- R304: the engines whose positions and hidden branch queues the section holds beside C's. -/
def followers : List Engine := [.l, .v, .m, .s]

/-- R304: 64-bit words in a row. -/
def wordFields (ws : List (BitVec 64)) : Fields := ws.zipIdx.map fun p => (8 * p.2, 8, p.1.toNat)

/-- R304: parts of one size in a row. -/
def rowFields {α : Type} (size : Nat) (f : α → Fields) (l : List α) : Fields := l.zipIdx.flatMap fun p => (f p.1).at_ (size * p.2)

/-- R304: the results in flight of an engine, which are its stop records. -/
def Group.stopsOf (g : Group) (e : Engine) : List InFlight := (g.engine e).flight

/-- R304: the word at 0x1A8. -/
def Group.countWord (g : Group) : Nat :=
  (g.stopsOf .c).length % 2 ^ 8 + (g.stopsOf .v).length % 2 ^ 8 * 2 ^ 8 + g.work.tokens % 2 ^ 4 * 2 ^ 16 +
    g.frames.length % 2 ^ 4 * 2 ^ 20 + (if g.work.irq then 2 ^ 24 else 0) + g.work.closed % 2 ^ 32 * 2 ^ 32

/-- R304: the control section up to the flags. -/
def Group.controlHead (g : Group) : Fields :=
  [(0, 8, g.sys.kernid.toNat), (8, 4, g.ident.index),
   (0xC, 4, g.ident.rank % 2 ^ 8 + g.ident.csize % 2 ^ 8 * 2 ^ 8 + g.ident.ctx % 2 ^ 8 * 2 ^ 16 + g.reason % 2 ^ 8 * 2 ^ 24)] ++
  (wordFields g.cutNow.toList).at_ 0x10 ++ (g.posFields .c).at_ 0x48 ++
  [(0x68, 8, g.cr.p.toNat), (0x70, 8, g.sys.corectl.toNat), (0x78, 8, g.sys.window.toNat)] ++
  (wordFields g.cr.s.toList).at_ 0x80 ++ (wordFields ([Engine.c, .l, .v, .m, .s].map fun e => BitVec.ofNat 64 (g.engine e).w)).at_ 0x180 ++
  [(0x1A8, 8, g.countWord), (0x1B0, 8, g.sys.spdig.toNat), (0x1B8, 8, g.sys.buftag.toNat), (0x1C0, 8, g.sys.bufout.toNat),
   (0x1C8, 8, g.sys.sweepmax.toNat), (0x1D0, 8, g.sys.thbase.toNat), (0x1D8, 8, g.sys.thstack.toNat), (0x1E0, 8, g.sys.brkword.toNat)] ++
  (rowFields 32 g.posFields followers).at_ 0x200 ++
  (rowFields 128 (fun e => stackFields (g.engine e).stack) [Engine.c, .l, .v, .m, .s]).at_ 0x280 ++
  (rowFields 128 stackFields g.frames).at_ 0x500 ++
  (rowFields 32 (fun e => wordFields ((g.engine e).hbq.map fun x => BitVec.ofNat 64 x.word)) followers).at_ 0x900 ++
  (rowFields 72 Queue.fields g.queues.toList).at_ 0x980 ++ (rowFields 32 Handle.fields g.cr.h.toList).at_ 0xE00 ++
  (wordFields g.cr.e.toList).at_ 0x1000 ++ [(0x1040, 32, g.work.flags.toNat)]

/-- R304: the control section from the anchors on. -/
def Group.controlTail (g : Group) : Fields :=
  (wordFields (g.store.anchors.toList.map fun a => BitVec.ofInt 64 a)).at_ 0x1100 ++
  (wordFields [g.bank.s28, g.bank.s29, g.bank.s30, g.bank.s31]).at_ 0x1200 ++ [(0x1220, 1, if g.bank.p7 then 1 else 0)] ++
  g.bank.h15.fields.at_ 0x1240 ++ g.store.dict.map (fun d => (0x2000 + 4 * d.1, 4, d.2.toNat)) ++
  [(0x3000, 128, g.store.dict.foldl (fun a d => a + 2 ^ d.1) 0)]

/-- R304: the control section. -/
def Group.controlBytes (g : Group) : Memory := fieldCells 0 (g.controlHead ++ g.controlTail)

/-! ## Stop records -/

/-- R305: the kind and the number of a register. -/
def Reg.codes : Reg → Nat × Nat
  | .s n => (0, n.toNat)
  | .p n => (1, n.toNat)
  | .v n => (2, n.toNat)
  | .h n => (3, n.toNat)
  | .e n => (4, n.toNat)
  | .m n => (5, n.toNat)

/-- R305: F of a register. -/
def Reg.size : Reg → Nat
  | .h _ => 32
  | .m _ => 16
  | .v _ => 520
  | _ => 8

/-- R305: a value in its F bytes. -/
def Val.fields : Val → Fields
  | .word w => [(0, 8, w.toNat)]
  | .bit b => [(0, 8, if b then 1 else 0)]
  | .vec v => v.lanes.toList.zipIdx.map (fun p => (4 * p.2, 4, p.1.toNat)) ++ [(512, 2, v.exp.toNat)]
  | .handle h => h.fields
  | .mask m => [(0, 16, m.toNat)]

/-- R238: the old value of a register with a result in flight: what a stop record keeps, or what the register still holds. -/
def Group.oldOf (g : Group) (e : Engine) (r : Reg) : Val :=
  match (g.engine e).stops.find? fun x => x.reg == r with
  | some x => x.old
  | none => g.regVal r

/-- R305: a stop record, and its bytes. -/
def Group.stopFields (g : Group) (e : Engine) (x : InFlight) : Fields × Nat :=
  let n := x.reg.size
  ([(0, 1, e.tag), (1, 1, x.reg.codes.1), (2, 1, x.reg.codes.2), (3, 1, if x.arrived then 1 else 0),
    (4, 4, (x.land - (g.engine e).clk) % 2 ^ 32)] ++
   (g.oldOf e x.reg).fields.at_ 16 ++ (if x.arrived then x.val.fields.at_ (16 + n) else []), 16 + 2 * n)

/-- R304: records packed from an offset on. -/
def packFields (a : Nat) : List (Fields × Nat) → Fields
  | [] => []
  | (f, n) :: r => f.at_ a ++ packFields (a + n) r

/-- R304, R305: the stop records of C and V. -/
def Group.recordBytes (g : Group) : Memory :=
  fieldCells 0x10000 (packFields 0 ((g.stopsOf .c).map (g.stopFields .c) ++ (g.stopsOf .v).map (g.stopFields .v)))

/-! ## Registers, streams, tag table, buffers -/

/-- R304: V's section. -/
def Group.vectorFields (g : Group) : Fields :=
  (rowFields 512 (fun v => v.lanes.toList.zipIdx.map fun (p : BitVec 32 × Nat) => (4 * p.2, 4, p.1.toNat)) g.vr.v.toList) ++
  (g.vr.v.toList.zipIdx.map fun p => (0x4000 + 2 * p.2, 2, p.1.exp.toNat)) ++
  (g.vr.m.toList.zipIdx.map fun p => (0x4040 + 16 * p.2, 16, p.1.toNat)) ++
  (g.vr.mag.toList.zipIdx.map fun p => (0x40C0 + 4 * p.2, 4, p.1.toNat))

/-- R119: the pattern record. -/
def Pattern.fields (p : Pattern) : Fields :=
  let ctl := (if p.drained then 1 else 0) + (if p.lanes then 2 else 0) + (p.dims - 1) % 4 * 4 + (if p.xs then 16 else 0) +
    (if p.direct then 32 else 0)
  [(0, 4, p.base), (4, 4, p.xbase), (8, 1, ctl)] ++
  (List.range 4).flatMap fun k =>
    [(16 + 8 * k, 4, p.counts.getD k (if p.direct then 0 else 1)), (20 + 8 * k, 4, (BitVec.ofInt 32 (p.strides.getD k 0)).toNat)]

/-- R122: the states in the order of the table. -/
def StreamSt.code : StreamSt → Nat
  | .unbound => 0
  | .bound => 1
  | .running => 2
  | .done => 3

/-- R304, log entry 51: a stream's state, format, conversion state, MAG link and owner, then its two counts. -/
def Stream.stateFields (z : Stream) : Fields :=
  [(0, 1, z.st.code), (1, 1, z.fmt), (2, 1, z.rm.toNat), (3, 1, z.scale.toNat), (4, 1, if z.sat then 1 else 0),
   (5, 1, match z.mag with
     | none => 0
     | some k => 128 + k),
   (6, 1, match z.owner with
     | none => 0
     | some e => 128 + e.tag),
   (8, 8, z.pos), (16, 8, z.taken)]

/-- R304: one stream in 8 KiB. -/
def Stream.fields (z : Stream) : Fields :=
  (rowFields 512 (fun v => v.lanes.toList.zipIdx.map fun (p : BitVec 32 × Nat) => (4 * p.2, 4, p.1.toNat)) z.buf) ++
  (z.buf.zipIdx.map fun p => (0x1000 + 2 * p.2, 2, p.1.exp.toNat)) ++
  (if z.st = .unbound then [] else z.pat.fields.at_ 0x1040) ++ z.stateFields.at_ 0x1080

/-- R170, log entry 51: a VALID entry of the tag table. -/
def TagEntry.fields (t : TagEntry) : Fields := [(0, 1, 1), (1, 1, t.sz), (4, 4, t.slot), (8, 8, t.tag)]

/-- R304: V, streams, tag table, buffer counters. -/
def Group.bodyBytes (g : Group) : Memory :=
  fieldCells 0x20000 g.vectorFields ++ fieldCells 0x30000 (rowFields 0x2000 Stream.fields g.streams.toList) ++
  fieldCells 0x50000 (g.store.tags.flatMap fun t => t.2.fields.at_ (16 * t.1)) ++
  fieldCells 0x60000 (g.work.bufs.flatMap fun b => [(16 * b.1, 8, b.2.1.toNat), (16 * b.1 + 8, 8, b.2.2.toNat)])

/-! ## The mesh -/

/-- R135, R304: a bank as a schedule image. -/
def Bank.image (b : Bank) : List Byte :=
  imageBytes b.count false 0 ((List.range b.count).flatMap fun i => (List.range 64).map fun p => ((b.rows.getD i []).getD p 0).toNat)
    (b.scale.map (·.toNat))

/-- R145, log entry 51: the panel buffer as header and plane vectors of an `.i32` stream. -/
def Panel.bytes (p : Panel) : List Byte :=
  let head := p.cols.zipIdx.flatMap fun c => leBytes 4 (c.1.toNat + (if c.2 = 0 then p.s * 2 ^ 17 + (p.kp - 1) % 2 ^ 8 * 2 ^ 20 else 0))
  head ++ p.rows.flatMap fun r => r.flatMap fun (x : Int) => leBytes 2 (BitVec.ofInt 16 x).toNat

/-- Log entry 51: a code of the kind of an operation. -/
def MeshKind.code : MeshKind → Nat
  | .load .. => 1
  | .store .. => 2
  | .scale .. => 3
  | .sweep .. => 4
  | .derive .. => 5
  | .panel .. => 6
  | .slice .. => 7
  | .retire .. => 8
  | .clrWindow .. => 9
  | .clrBank _ => 10

/-- R152, log entry 51: an operation that is not complete. -/
def MeshOp.fields (o : MeshOp) : Fields :=
  [(0, 8, o.mseq), (8, 1, o.kind.code), (9, 1, o.ms), (10, 2, o.inside.length), (12, 4, o.seg), (16, 8, o.next), (24, 8, o.pair)]

/-- R309: a mesh record: sequence number, index, DONE, E, lanes. Log entry 51. -/
def MeshRec.fields (r : MeshRec) (mseq : Nat) : Fields :=
  [(0, 8, mseq), (8, 8, r.index), (16, 2, r.steps), (18, 2, (BitVec.ofInt 16 r.exp).toNat)] ++
  r.lanes.zipIdx.map fun (p : Int × Nat) => (32 + 4 * p.2, 4, (BitVec.ofInt 32 p.1).toNat)

/-- R309: the mesh records of a group at a debug stop, oldest operation first. -/
def Group.meshRecords (g : Group) : List (Nat × MeshRec) := g.mesh.ops.flatMap fun o => o.inside.map fun (r : MeshRec) => (o.mseq, r)

/-- R304, log entry 51: counts, drift registers, counters, operations, batches, mesh records. -/
def Group.meshState (g : Group) : Fields :=
  let m := g.mesh
  let recs := 64 + 32 * m.ops.length + 16 * m.batches.length
  [(0, 4, m.ops.length), (4, 4, m.batches.length), (8, 4, m.satcnt.toNat), (12, 4, m.chkmiss.toNat), (16, 4, m.idxerr.toNat)] ++
  (rowFields 8 (fun (d : Drift) => [(0, 4, d.max.toNat), (4, 4, d.count.toNat)]) m.drift.toList).at_ 32 ++
  (rowFields 32 MeshOp.fields m.ops).at_ 64 ++
  (rowFields 16 (fun (b : Batch) => [(0, 4, b.id), (4, 4, match b.name with
    | none => 0
    | some n => n + 1), (8, 4, b.wins.length)]) m.batches).at_ (64 + 32 * m.ops.length) ++
  (rowFields 544 (fun (r : Nat × MeshRec) => r.2.fields r.1) g.meshRecords).at_ (recs + (64 - recs % 64) % 64)

/-- R146, R152: the words that are pending for write-back. -/
def Group.pendingWords (g : Group) : List Nat :=
  (g.mesh.batches.flatMap fun b => b.wins.flatMap fun x =>
    x.words.map (fun p => x.win + p.1) ++ x.sums.flatMap fun p => (List.range 128).map fun n => x.win + 1024 + 128 * p.1 + n)

/-- R146, R152: the accumulator store after the write-backs of the batches, in their order. -/
def Group.accAhead (g : Group) : Memory := g.mesh.batches.foldl (fun a b => b.wins.foldl (fun t x => x.writeBack t) a) g.store.acc

/-- The bitmap of some numbers. -/
def bitmapCells (a : Nat) (ns : List Nat) : Memory :=
  ns.foldl (fun m n => memPut m (a + n / 8) [memGet m (a + n / 8) ||| BitVec.ofNat 8 (2 ^ (n % 8))]) []

/-- R304: the mesh sections, with the accumulator store, the write-back image and its bitmap. -/
def Group.meshBytes (g : Group) : Memory :=
  let ws := g.pendingWords
  g.mesh.banks.toList.zipIdx.flatMap (fun b => memCells (0x100000 + 0x8000 * b.2) b.1.image) ++
  ((g.mesh.panel.map fun p => memCells 0x140000 p.bytes).getD []) ++ fieldCells 0x1C0000 g.meshState ++
  g.store.acc.shift 0x200000 ++ Memory.shift 0x300000 (g.accAhead.filter fun c => ws.contains (c.1 / 8)) ++ bitmapCells 0x400000 ws

/-- R219, R304: the 8-byte words of the own scratchpad that are pending. -/
def Group.pendingSpad (g : Group) : List Nat :=
  (g.work.pend.filter fun p => !p.acc && p.core == g.ident.core).flatMap fun p => (List.range ((p.hi + 7) / 8 - p.lo / 8)).map fun i => p.lo / 8 + i

/-- R304: the scratchpad pending bitmap and the scratchpad. -/
def Group.spadImage (g : Group) : Memory := bitmapCells 0x404000 g.pendingSpad ++ g.store.spad.shift 0x800000

/-- R304: the bytes of a save area; a section that has not been written is zero. Log entries 22 and 51. -/
def SaveArea.bytes (a : SaveArea) : Memory :=
  let sec (g : Option Group) (f : Group → Memory) : Memory := (g.map f).getD []
  sec a.control Group.controlBytes ++ sec a.records Group.recordBytes ++ sec a.body Group.bodyBytes ++ sec a.mesh Group.meshBytes ++
    sec a.body Group.spadImage

end Sys2Proof.Machine
end

