-- ==== Sys2Proof/Tests/Slice0.lean ====
section
/-! SUPPORT. Our own tests: ill-formed instructions, words written out from the field tables of the opcode table, single steps whose
results stand in the manual, and for each statement a state and operands that meet its hypotheses. -/

namespace Sys2Proof.Tests

open Sys2Proof.Machine

-- One proof after another: many at once are more threads than the sandbox's memory holds.
set_option Elab.async false

/-! ## Well-formed instructions -/

/-- R65: a condition code 6 or 7 that is part of the OP is no encoding. -/
theorem test_illFormed_condition :
    [Instr.cmpiCc 6 0 1 2 3, .cmpiCc 7 0 1 2 3, .bCc 6 0 1 2 3, .bCc 7 0 1 2 3, .bCcA 6 0 1 2 3, .bCcA 7 0 1 2 3].all
      (fun i => !i.wellFormed) = true := by decide

/-- R69: a broadcast word names an engine. -/
theorem test_illFormed_mask :
    [Instr.notify 0 0 1 5, .bemEq 0 0 1 2 3, .bemEqA 0 0 1 2 3, .bemNe 0 0 1 2 3, .bemNeA 0 0 1 2 3, .bemLt 0 0 1 2 3,
      .bemLtA 0 0 1 2 3, .bemLe 0 0 1 2 3, .bemLeA 0 0 1 2 3, .bemLtn 0 0 1 2 3, .bemLtnA 0 0 1 2 3, .bemLen 0 0 1 2 3,
      .bemLenA 0 0 1 2 3].all (fun i => !i.wellFormed) = true := by decide

/-- A row without words is no item. -/
theorem test_illFormed_event :
    [Instr.interrupt, .streamFill 3, .jobStart 1, .reset, .blockEnd 0, .unassignedItem 2, .launch 3, .time 0 []].all
      (fun i => !i.wellFormed && (encode i).isNone) = true := by decide

/-- Fields at the ends of their ranges are well-formed. -/
theorem test_wellFormed :
    [Instr.cmpiCc 5 3 7 31 0x1FF, .bCcA 0 0 0 0 0, .notify 3 31 1 0xFFF, .bemLen 3 1 15 15 0x7F, .add 3 31 31 31].all
      (fun i => i.wellFormed) = true := by decide

/-! ## Words, bit by bit from the field tables (04_encoding R65 to R69) -/

theorem test_decode_nopC : decodeTableWord 32 0x00600000 = some (.nopC 2) := rfl
theorem test_decode_sub : decodeTableWord 32 0x00D6D440 = some (.sub 1 0xD 0x15 2) := rfl
theorem test_decode_sel : decodeTableWord 32 0x061DC883 = some (.sel 1 0x1B 0x12 4 3) := rfl
theorem test_decode_sari : decodeTableWord 32 0x07F17821 = some (.sari 3 2 0x1E 0x21) := rfl
theorem test_decode_lih : decodeTableWord 32 0x09910B01 = some (.lih 1 2 0xB01) := rfl
theorem test_decode_cmpCc : decodeTableWord 32 0x09E20D04 = some (.cmpCc 2 4 3 8 4) := rfl
theorem test_decode_cmpiCc : decodeTableWord 32 0x0B20EE44 = some (.cmpiCc 4 2 1 0x1B 0x244) := rfl
theorem test_decode_bCcA : decodeTableWord 32 0x0E5AD655 = some (.bCcA 4 1 0x15 0x15 0x255) := rfl
theorem test_decode_call : decodeTableWord 32 0x0F593BD1 = some (.call 1 0x93BD1) := rfl
theorem test_decode_ret : decodeTableWord 32 0x0FB00000 = some (.ret 3) := rfl
theorem test_decode_jr : decodeTableWord 32 0x0FE10000 = some (.jr 2 2) := rfl
theorem test_decode_qpop : decodeTableWord 32 0x10512400 = some (.qpop 1 2 9) := rfl
theorem test_decode_qbind : decodeTableWord 32 0x10D281C5 = some (.qbind 1 5 0xE 5) := rfl
theorem test_decode_st : decodeTableWord 32 0x11724EF2 = some (.st 3 4 0x13 1 3 1 0x12) := rfl
theorem test_decode_aadd : decodeTableWord 32 0x14F313D8 = some (.aadd 3 6 4 1 3 5 1) := rfl
theorem test_decode_afaddb : decodeTableWord 32 0x1733B2D6 = some (.afaddb 3 7 0xC 1 1 5 6) := rfl
theorem test_decode_xlate : decodeTableWord 32 0x11950800 = some (.xlate 1 0xA 2) := rfl
theorem test_decode_tlook : decodeTableWord 32 0x1433C000 = some (.tlook 3 7 0x10) := rfl
theorem test_decode_fence : decodeTableWord 32 0x13F00005 = some (.fence 3 5) := rfl
theorem test_decode_ared : decodeTableWord 32 0x176CAD00 = some (.ared 2 0x19 0xB 2) := rfl
theorem test_decode_barwait : decodeTableWord 32 0x193EC704 = some (.barwait 3 0xEC7 4) := rfl
theorem test_decode_hfold : decodeTableWord 32 0x19A150D2 = some (.hfold 2 5 0x10 0x1A 2) := rfl
theorem test_decode_wqstat : decodeTableWord 32 0x1BFC7B40 = some (.wqstat 3 0xC7B 8) := rfl
theorem test_decode_ssr : decodeTableWord 32 0x1DD04D34 = some (.ssr 1 0x13 0x134) := rfl
theorem test_decode_trap : decodeTableWord 32 0x1FF87401 = some (.trap 3 0x10 0x1D) := rfl
theorem test_decode_engclaim : decodeTableWord 32 0x1FE00005 = some (.engclaim 2) := rfl
theorem test_decode_erd : decodeTableWord 32 0x1FF22808 = some (.erd 3 4 0xA) := rfl
theorem test_decode_xswap : decodeTableWord 32 0x1FF19010 = some (.xswap 3 3 4) := rfl
theorem test_decode_zstart : decodeTableWord 32 0x20F38000 = some (.zstart 3 7) := rfl
theorem test_decode_ldv : decodeTableWord 32 0x2196AC4E = some (.ldv 1 0xD 0xB 0x4E) := rfl
theorem test_decode_vadd : decodeTableWord 32 0x40A70BF7 = some (.vadd 2 0xE 2 0x1F 0xB 1) := rfl
theorem test_decode_vmulZq : decodeTableWord 32 0x41DCCA7B = some (.vmulZq 1 0x19 0x12 0x13 0xD 1) := rfl
theorem test_decode_vred : decodeTableWord 32 0x4D25F195 = some (.vred 2 0xB 1 0xC 0xC 0xA 1) := rfl
theorem test_decode_vsplit : decodeTableWord 32 0x5329E9E5 = some (.vsplit 2 0x13 0x1A 0xF 2 1) := rfl
theorem test_decode_mand : decodeTableWord 32 0x58D190C0 = some (.mand 1 3 4 6) := rfl
theorem test_decode_vli : decodeTableWord 32 0x58B187C5 = some (.vli 3 3 0x7C5) := rfl
theorem test_decode_mload : decodeTableWord 32 0x60B31407 = some (.mload 3 6 5 1 3) := rfl
theorem test_decode_mpanel : decodeTableWord 32 0x61F58002 = some (.mpanel 3 0xB 2) := rfl
theorem test_decode_mretire : decodeTableWord 32 0x62EC6E86 = some (.mretire 2 0xC 0xD 6 2 1 2) := rfl
theorem test_decode_mclrWindow : decodeTableWord 32 0x63630051 = some (.mclrWindow 2 6 0x14 1) := rfl
theorem test_decode_mstat : decodeTableWord 32 0x63A08014 = some (.mstat 2 1 1 4) := rfl
theorem test_decode_zdrain : decodeTableWord 32 0x80A18000 = some (.zdrain 2 3) := rfl
theorem test_decode_vamaxr : decodeTableWord 32 0x81B21EE0 = some (.vamaxr 3 4 7 1 7) := rfl
theorem test_decode_spair : decodeTableWord 32 0x82220000 = some (.spair 2 2) := rfl
theorem test_decode_bemLt : decodeTableWord 32 0xB31C3CA4 = some (.bemLt 1 8 7 9 0x24) := rfl
theorem test_decode_bemNeA : decodeTableWord 32 0xB2DF3F47 = some (.bemNeA 1 0xE 7 0xE 0x47) := rfl
theorem test_decode_dictld : decodeTableWord 32 0xB0AFDDAA = some (.dictld 2 0x17 0x1AA) := rfl
theorem test_decode_blockHeader : decodeTableWord 32 0xAFC92DED = some (.blockHeader 0xFC9 0x2DED) := rfl
theorem test_decode_blockHeaderReg : decodeTableWord 32 0xAAED801D = some (.blockHeaderReg 0xAED 0x1D) := rfl
theorem test_decode_timedNop : decodeTableWord 16 0xCC2D = some (.timedNop 0xC2D) := rfl
theorem test_decode_dictionaryReference : decodeTableWord 16 0xE3D5 = some (.dictionaryReference 0x3D5) := rfl

/-! ## Words of the manual's own listings -/

/-- 04_encoding R57, R72: the listing of a counted block and of a loop. -/
theorem test_listing_blocks :
    decodeTableWord 32 0xA0020001 = some (.blockHeader 2 1) ∧ decodeTableWord 32 0x06410000 = some (.addi 0 2 0 0) ∧
    decodeTableWord 32 0xA0048004 = some (.blockHeaderReg 4 4) ∧ decodeTableWord 32 0x00810860 = some (.add 0 2 2 3) ∧
    decodeTableWord 32 0x064213FF = some (.addi 0 4 4 0x3FF) ∧ decodeTableWord 32 0x0C820000 = some (.bCc 1 0 4 0 0) :=
  ⟨rfl, rfl, rfl, rfl, rfl, rfl⟩

/-- 05_control R82, R92; 17_prog_search. -/
theorem test_listing_control :
    decodeTableWord 32 0x0642801E = some (.addi 0 5 0 30) ∧ decodeTableWord 32 0x0982C240 = some (.lih 0 5 0x4240) ∧
    decodeTableWord 32 0x10C10204 = some (.qbind 0 2 0x10 0x04) ∧ decodeTableWord 32 0x0A008800 = some (.cmpiCc 0 0 1 2 0) ∧
    decodeTableWord 32 0x07448804 = some (.shli 0 9 2 4) ∧ decodeTableWord 32 0x060414C1 = some (.sel 0 8 5 6 1) :=
  ⟨rfl, rfl, rfl, rfl, rfl, rfl⟩

/-- 08_memory_ops, the examples at its end; LD and AADD with the H bit (0x200), which the manual's two words
lack though its text names it. -/
theorem test_listing_memory :
    decodeTableWord 32 0x11038EE1 = some (.ld 0 7 3 1 3 1 1) ∧ decodeTableWord 32 0x11410AD1 = some (.st 0 2 2 1 3 0 17) ∧
    decodeTableWord 32 0x11814000 = some (.xlate 0 2 16) ∧ decodeTableWord 32 0x13460001 = some (.acq 0 12 0 1) ∧
    decodeTableWord 32 0x13860000 = some (.rel 0 12) ∧ decodeTableWord 32 0x13C00003 = some (.fence 0 3) ∧
    decodeTableWord 32 0x14029800 = some (.tlook 0 5 6) ∧ decodeTableWord 32 0x14C20FA0 = some (.aadd 0 4 3 1 3 2 0) ∧
    decodeTableWord 32 0x17042882 = some (.afaddb 0 8 10 0 1 0 2) ∧ decodeTableWord 32 0x18400500 = some (.fwait 0 5 0) :=
  ⟨rfl, rfl, rfl, rfl, rfl, rfl, rfl, rfl, rfl, rfl⟩

/-- 09_engine_commands, the examples at its end. -/
theorem test_listing_commands :
    decodeTableWord 32 0x194000C0 = some (.jobx 0 24) ∧ decodeTableWord 32 0x19814350 = some (.hfold 0 5 3 10 0) ∧
    decodeTableWord 32 0x1A800370 = some (.rdef 0 3 14) ∧ decodeTableWord 32 0x1B0000C8 = some (.wqpost 0 25) ∧
    decodeTableWord 32 0x1BC00728 = some (.wqstat 0 7 5) ∧ decodeTableWord 32 0x1C40110C = some (.cntadd 0 17 1 1) ∧
    decodeTableWord 32 0x1C8012D8 = some (.cntwait 0 18 27) ∧ decodeTableWord 32 0x1CC01230 = some (.cntread 0 18 6) ∧
    decodeTableWord 32 0x1D000248 = some (.gencfg 0 2 9) ∧ decodeTableWord 32 0x1D400200 = some (.geninv 0 2) ∧
    decodeTableWord 32 0xB04F8000 = some (.notify 0 31 0 0) :=
  ⟨rfl, rfl, rfl, rfl, rfl, rfl, rfl, rfl, rfl, rfl, rfl⟩

/-- 10_system, the examples at its end. -/
theorem test_listing_system :
    decodeTableWord 32 0x1FC01C01 = some (.trap 0 0 7) ∧ decodeTableWord 32 0x1FC08002 = some (.rft 0 1) ∧
    decodeTableWord 32 0x1FC10003 = some (.brk 0 2) ∧ decodeTableWord 32 0x1FC010A4 = some (.thset 0 4 5) ∧
    decodeTableWord 32 0x1FC00005 = some (.engclaim 0) ∧ decodeTableWord 32 0x1FC00006 = some (.engrel 0) ∧
    decodeTableWord 32 0x1FC01807 = some (.timealign 0 6) ∧ decodeTableWord 32 0x1FC08408 = some (.erd 0 1 1) ∧
    decodeTableWord 32 0x1FC0892A = some (.estore 0 1 2 9) ∧ decodeTableWord 32 0x1FC0000D = some (.halt 0) ∧
    decodeTableWord 32 0x1D828010 = some (.gsr 0 5 0x10) ∧ decodeTableWord 32 0x1DC00C11 = some (.ssr 0 3 0x11) :=
  ⟨rfl, rfl, rfl, rfl, rfl, rfl, rfl, rfl, rfl, rfl, rfl, rfl⟩

/-- 04_encoding R73; 06_vector, the examples at its end. -/
theorem test_listing_vector :
    decodeTableWord 32 0x40910874 = some (.vadd 1 2 2 3 10 0) ∧ decodeTableWord 32 0x40C10834 = some (.vaddZq 0 2 2 1 10 0) ∧
    decodeTableWord 32 0x4D0310F4 = some (.vred 0 6 0 4 7 10 0) ∧ decodeTableWord 32 0x56808874 = some (.vcmpLt 0 1 2 3 10) ∧
    decodeTableWord 32 0x4C448240 = some (.vbcastZq 0 9 0 0x12) ∧ decodeTableWord 32 0x58821234 = some (.vli 0 4 0x1234) ∧
    decodeTableWord 32 0x2080AC08 = some (.zbind 0 1 11 8) :=
  ⟨rfl, rfl, rfl, rfl, rfl, rfl, rfl⟩

/-- 07_mesh, the examples at its end. -/
theorem test_listing_mesh :
    decodeTableWord 32 0x60809000 = some (.mload 0 1 4 0 0) ∧ decodeTableWord 32 0x60809004 = some (.mload 0 1 4 1 0) ∧
    decodeTableWord 32 0x60C28800 = some (.mstore 0 5 2 0) ∧ decodeTableWord 32 0x61021008 = some (.msweep 0 2 1 0 0 1 0 0 0) ∧
    decodeTableWord 32 0x61065609 = some (.msweep 0 6 5 3 0 1 0 0 1) ∧ decodeTableWord 32 0x61421888 = some (.mderive 0 2 1 4 1 1) ∧
    decodeTableWord 32 0x61818400 = some (.mscale 0 3 1 0) ∧ decodeTableWord 32 0x61C20000 = some (.mpanel 0 4 0) ∧
    decodeTableWord 32 0x62001A10 = some (.mslice 0 0 3 2 0 2 0) ∧ decodeTableWord 32 0x62400001 = some (.mcommit 0 1) ∧
    decodeTableWord 32 0x62800001 = some (.mwaitb 0 1) ∧ decodeTableWord 32 0x62C50208 = some (.mretire 0 5 0 2 0 2 0) ∧
    decodeTableWord 32 0x63018000 = some (.mnorm 0 3 0 0) ∧ decodeTableWord 32 0x63400000 = some (.mclrWindow 0 0 0 0) ∧
    decodeTableWord 32 0x63414000 = some (.mclrBank 0 2 0) ∧ decodeTableWord 32 0x63818001 = some (.mstat 0 3 0 1) ∧
    decodeTableWord 32 0x63C00003 = some (.mfence 0 3) :=
  ⟨rfl, rfl, rfl, rfl, rfl, rfl, rfl, rfl, rfl, rfl, rfl, rfl, rfl, rfl, rfl, rfl, rfl⟩

/-! ## Single steps -/

/-- A running group on core 3 of a module that is READY, of context 1, with one context, and nothing else. -/
def rootPart : RootPart :=
  { ttbase := 5 * 2 ^ 42 + 0x10000, nqbase := 0, nqlen := 0, accthr := 0, ctrfirst := 0, ctrcount := 40, qfirst := 0, qcount := 10
    nivose := false, syspriv := true, revms := 0, trbase := 0, trlog := 0, rtbase := 0, rtcount := 0 }

def context : Context :=
  { st := .ready, root := rootPart, rcbs := [], binds := [], gens := [], routines := [], slots := [], bars := []
    digests := Vector.replicate 4 0, gendrop := 0, revoked := 0, fault := none, accs := [], cmd := none, sources := [], ringHdr := none }

def running : State :=
  { State.reset with
    me := { Group.blank 3 with ident := ⟨1, 0, 0, 1, 3, 1⟩, phase := .running, sys := { SysRegs.placed with ctxinfo := 2 ^ 40 } }
    boot := { State.reset.boot with stage := 3, ready := true, modnum := 5 }
    ctxs := [(1, context)] }

/-- Scalar registers from s1 on. -/
def withS (l : List (BitVec 64)) : State :=
  running.onMe fun g => { g with cr := { g.cr with s := Vector.ofFn fun i => (0 :: l).getD i.val 0 } }

/-- The result that an engine has in flight for a register. -/
def flying (o : Out) (e : Engine) (r : Reg) : Option Val :=
  match o with
  | .next t => ((t.eng e).flight.find? fun f => f.reg == r).map (·.val)
  | _ => none

/-- The cause of the trap that a step has taken. -/
def trapOf (o : Out) : Option Nat :=
  match o with
  | .next t => if t.me.traps.cause = 0 then none else some t.me.traps.cause.toNat
  | _ => none

/-- R82: the constant 1,000,000 in two items. -/
theorem test_addi : flying (exec (.addi 0 5 0 30) running) .c (.s 5) = some (.word 30) := by decide
theorem test_lih : flying (exec (.lih 0 5 0x4240) (withS [0, 0, 0, 0, 30])) .c (.s 5) = some (.word 1000000) := by decide

/-- R79: sums wrap; MULH is signed, MULHN is not. -/
theorem test_add_wraps : flying (exec (.add 0 3 1 2) (withS [0xFFFFFFFFFFFFFFFF, 2])) .c (.s 3) = some (.word 1) := by decide
theorem test_mulh : flying (exec (.mulh 0 3 1 2) (withS [0xFFFFFFFFFFFFFFFF, 1])) .c (.s 3) = some (.word 0xFFFFFFFFFFFFFFFF) := by decide
theorem test_mulhn : flying (exec (.mulhn 0 3 1 1) (withS [0xFFFFFFFFFFFFFFFF])) .c (.s 3) = some (.word 0xFFFFFFFFFFFFFFFE) := by
  decide

/-- R80: division by zero, the one overflow, and the sign of a remainder. -/
theorem test_div_zero : flying (exec (.div 0 3 1 2) (withS [7, 0])) .c (.s 3) = some (.word 0xFFFFFFFFFFFFFFFF) := by decide
theorem test_div_overflow :
    flying (exec (.div 0 3 1 2) (withS [0x8000000000000000, 0xFFFFFFFFFFFFFFFF])) .c (.s 3) = some (.word 0x8000000000000000) := by decide
theorem test_rem_zero : flying (exec (.rem 0 3 1 2) (withS [7, 0])) .c (.s 3) = some (.word 7) := by decide
theorem test_rem_sign : flying (exec (.rem 0 3 1 2) (withS [0 - 7, 2])) .c (.s 3) = some (.word (0 - 1)) := by decide
theorem test_divn : flying (exec (.divn 0 3 1 2) (withS [0 - 7, 2])) .c (.s 3) = some (.word 0x7FFFFFFFFFFFFFFC) := by decide

/-- R79: shift counts are taken modulo 64; SAR rounds toward minus infinity. -/
theorem test_shl : flying (exec (.shl 0 3 1 2) (withS [1, 65])) .c (.s 3) = some (.word 2) := by decide
theorem test_sar : flying (exec (.sar 0 3 1 2) (withS [0 - 3, 1])) .c (.s 3) = some (.word (0 - 2)) := by decide
theorem test_fsh : flying (exec (.fsh 0 3 1 2 4) (withS [1, 0, 0, 4])) .c (.s 3) = some (.word 0x1000000000000000) := by decide
theorem test_clz_zero : flying (exec (.clz 0 3 1) (withS [0])) .c (.s 3) = some (.word 64) := by decide

/-- R81: a field that passes bit 63; INS drops what passes it. -/
theorem test_ext : flying (exec (.ext 0 3 1 7 60) (withS [0xF000000000000000])) .c (.s 3) = some (.word 0xF) := by decide
theorem test_ins : flying (exec (.ins 0 3 1 3 62) (withS [0xF, 0, 0])) .c (.s 3) = some (.word 0xC000000000000000) := by decide

/-- R83: CMPI.ltn zero-extends its immediate, CMPI.lt sign-extends it. -/
theorem test_cmpi_ltn : flying (exec (.cmpiCc 4 0 1 1 0x3FF) (withS [1022])) .c (.p 1) = some (.bit true) := by decide
theorem test_cmpi_lt : flying (exec (.cmpiCc 2 0 1 1 0x3FF) (withS [0])) .c (.p 1) = some (.bit false) := by decide

/-- R83, R217, R219: with a handler, CMP with code 6 is ILLEGAL, and so is GSR of an unassigned number. -/
def handled : State := running.onMe fun g => { g with sys := { g.sys with thbase := 1 } }

theorem test_cmp_illegal : trapOf (exec (.cmpCc 0 1 1 2 6) handled) = some 1 := by decide
theorem test_trap_number : trapOf (exec (.trap 0 0 7) handled) = some (7 * 2 ^ 16 + 0x10) := by decide
theorem test_rft_outside : trapOf (exec (.rft 0 0) handled) = some 4 := by decide

/-- Bytes of the own scratchpad from an address on, with s1 = that address and further registers. -/
def withBytes (a : Nat) (bs : List Byte) (l : List (BitVec 64)) : State :=
  (withS (BitVec.ofNat 64 a :: l)).onMe fun g =>
    { g with store := { g.store with spad := memPut [] a bs }, sys := { g.sys with thbase := 1 } }

/-- A byte of the own scratchpad after a step. -/
def byteAfter (o : Out) (a : Nat) : Option Byte :=
  match o with
  | .next t => some (memGet t.me.store.spad a)
  | _ => none

/-- R156, R158: LD.i8 extends the sign, LD.n16 is little-endian, a misaligned LD is ALIGN. -/
theorem test_ld_sign : flying (exec (.ld 0 3 1 0 0 1 0) (withBytes 5 [0x80] [])) .c (.s 3) = some (.word 0xFFFFFFFFFFFFFF80) := by decide
theorem test_ld_order : flying (exec (.ld 0 3 1 0 5 1 1) (withBytes 64 [0, 0, 0x34, 0x12] [])) .c (.s 3) = some (.word 0x1234) := by decide
theorem test_ld_align : trapOf (exec (.ld 0 3 1 0 3 1 0) (withBytes 68 [1] [])) = some 5 := by decide

/-- R156, R158: ST writes the low bytes, the lowest at the lowest address, and none beyond them. -/
theorem test_st : byteAfter (exec (.st 0 2 1 0 1 1 0) (withBytes 64 [9, 9, 9] [0x11223344])) 65 = some 0x33 ∧
    byteAfter (exec (.st 0 2 1 0 1 1 0) (withBytes 64 [9, 9, 9] [0x11223344])) 66 = some 9 := by decide

/-- R173: AINCW at its bound, AFADDB beyond it, AADD with saturation; each returns the old value. -/
theorem test_aincw : byteAfter (exec (.aincw 0 2 1 0 1 0) (withBytes 64 [7] [7])) 64 = some 0 ∧
    flying (exec (.aincw 0 2 1 0 1 0) (withBytes 64 [7] [7])) .c (.s 2) = some (.word 7) := by decide
theorem test_afaddb : byteAfter (exec (.afaddb 0 2 1 0 1 0 5) (withBytes 64 [7] [3, 9])) 64 = some 7 ∧
    flying (exec (.afaddb 0 2 1 0 1 0 5) (withBytes 64 [7] [3, 9])) .c (.p 5) = some (.bit false) := by decide
theorem test_aadd_saturates :
    byteAfter (exec (.aadd 0 2 1 0 1 0 1) (withBytes 64 [0xFE, 0xFF, 0xFF, 0xFF] [3])) 64 = some 0xFF := by decide
theorem test_acas : byteAfter (exec (.acas 0 2 1 0 1 0) (withBytes 64 [7] [7, 9])) 64 = some 9 := by decide

/-- R91, R92: a queue gives its oldest entry; C on the wrong side is QUEUE_CFG; a full one makes it wait. -/
def withQueue (p k : Engine) (l : List (BitVec 64)) : State :=
  handled.onMe fun g => { g with queues := g.queues.set 2 ⟨some (p, k), l, l.map fun _ => [], l.map fun _ => []⟩ }

theorem test_qpop : flying (exec (.qpop 0 3 2) (withQueue .v .c [5, 6])) .c (.s 3) = some (.word 5) := by decide
theorem test_qpop_side : trapOf (exec (.qpop 0 3 2) (withQueue .c .v [5, 6])) = some 13 := by decide
theorem test_qpush_waits :
    (match exec (.qpush 0 2 1) (withQueue .c .v [1, 2, 3, 4, 5, 6, 7, 8]) with
     | .next t => (t.eng .c).cur == handled.me.eng.c.cur && (t.me.queue 2).entries.length == 8
     | _ => false) = true := by decide

/-- R177: FSET, FTEST. -/
theorem test_ftest : flying (exec (.ftest 0 5 3) (running.onMe (·.setFlag 5 0))) .c (.p 3) = some (.bit true) := by decide

/-- A vector register after a step of V. -/
def laneAfter (o : Out) (n : BitVec 5) (i : Nat) : Option (BitVec 32) :=
  match flying o .v (.v n) with
  | some (.vec x) => some (x.lane i)
  | _ => none

def withV (l : List (BitVec 32)) : State :=
  running.onMe fun g => { g with vr := { g.vr with v := g.vr.v.set 1 ⟨Vector.ofFn fun i => l.getD i.val 0, 0⟩ } }

/-- R108, R26: the manual's example (3, 4, 0, ...) in BX32: lanes 0x1800_0000 and 0x2000_0000. -/
theorem test_vcvt_bx : laneAfter (exec (.vcvt 0 3 0 10 1 14 0) (withV [0x40400000, 0x40800000])) 3 0 = some 0x18000000 ∧
    laneAfter (exec (.vcvt 0 3 0 10 1 14 0) (withV [0x40400000, 0x40800000])) 3 1 = some 0x20000000 := by decide +kernel

/-- R102, R104: VADD of integers wraps; with `.s` it saturates. -/
theorem test_vadd : laneAfter (exec (.vadd 0 3 1 1 2 0) (withV [0x7FFFFFFF])) 3 0 = some 0xFFFFFFFE := by decide +kernel
theorem test_vadd_saturates : laneAfter (exec (.vadd 0 3 1 1 2 1) (withV [0x7FFFFFFF])) 3 0 = some 0x7FFFFFFF := by decide +kernel

/-! ## States that meet the hypotheses of the statements -/

/-- An engine is ready, as a test. -/
def isReady (s : State) (e : Engine) (y : BitVec 2) (l : List Reg) : Bool :=
  s.mayRun e && !(s.eng e).skip && !(s.eng e).annul.getLsbD 0 && (((s.arrived e y).eng e).lateOf (s.issueAt e y) l).isNone

theorem ready_of {s : State} {e : Engine} {y : BitVec 2} {l : List Reg} (h : isReady s e y l = true) : s.Ready e y l := by
  simp only [isReady, Bool.and_eq_true, Bool.not_eq_true', Option.isNone_iff_eq_none] at h
  exact ⟨h.1.1.1, h.1.1.2, h.1.2, h.2⟩

/-- The hypotheses of a claim about an item are met. -/
def Meets (c : Claim) (s : State) : Prop := s.Ready c.eng c.y c.srcs ∧ c.pre (s.arrived c.eng c.y)

/-- Those of a claim without a condition. -/
theorem meets_plain {c : Claim} {s : State} (h : isReady s c.eng c.y c.srcs = true) (hp : ∀ u, c.pre u := by exact fun _ => trivial) :
    Meets c s := ⟨ready_of h, hp _⟩

/-- A row of a table, with a state that meets the claim. -/
def RowMeets (r : Option Claim) (s : State) : Prop := ∃ c, r = some c ∧ Meets c s

/-! ### Scalars and control -/

theorem witness_encode : Instr.wellFormed (.add 0 3 1 2) = true ∧ (encode (.add 0 3 1 2)).isSome = true := by decide
theorem witness_decode : (decodeTableWord 32 0x00908860).isSome = true ∧ (decodeTableWord 16 0xC064).isSome = true := by decide
/-- A module after its stage 2 that waits for stage 3. -/
def booted : State :=
  { State.reset with boot := { State.reset.boot with stage := 2, modnum := 639, savepool := 256, measures := [0, 0, 0] }, power := { State.reset.power with pcap := 1500 } }

theorem witness_bootOk : booted.BootOk ∧ ∃ t, step booted = .next t :=
  ⟨⟨by decide, by decide, by decide, by decide, by decide, by decide +kernel, by decide +kernel, by decide, by decide⟩,
    _, rfl⟩

theorem witness_scalar : RowMeets (arithmeticRow (.div 0 3 1 2)) running := ⟨_, rfl, meets_plain (by decide +kernel)⟩
theorem witness_scalar_late : RowMeets (arithmeticRow (.sel 3 0 31 0 7)) running := ⟨_, rfl, meets_plain (by decide +kernel)⟩
theorem witness_bitwise : (bitwiseRow (.andi 0 3 1 0x3FF)).isSome = true := by decide
theorem witness_compare : running.Ready .c 0 [.s 1, .s 2] ∧ (5 : BitVec 3).toNat < 6 ∧ 6 ≤ (6 : BitVec 3).toNat :=
  ⟨ready_of (by decide +kernel), by decide, by decide⟩
theorem witness_branch : RowMeets (jumpRow (.call 0 5)) running :=
  ⟨_, rfl, ready_of (by decide +kernel), by decide +kernel, by decide +kernel⟩
theorem witness_branch_traps :
    (∃ s : State, s.Ready .c 0 [] ∧ (s.eng .c).slots ≠ 0) ∧ (∃ s : State, s.Ready .c 0 [] ∧ (s.eng .c).slots = 0 ∧ 8 ≤ s.me.frames.length) ∧
      ∃ s : State, s.Ready .c 0 [.s 31] ∧ s.me.frames = [] :=
  ⟨⟨running.onEng .c fun x => { x with slots := 2 }, ready_of (by decide +kernel), by decide +kernel⟩,
    ⟨running.onMe fun g => { g with frames := List.replicate 8 [] }, ready_of (by decide +kernel), by decide +kernel, by decide +kernel⟩,
    ⟨running, ready_of (by decide +kernel), by decide +kernel⟩⟩

theorem witness_queue_pop : RowMeets (queueRow (.qpop 0 3 2)) (withQueue .v .c [5, 6]) :=
  ⟨_, rfl, ready_of (by decide +kernel), ⟨.v, by decide +kernel⟩, by decide +kernel, by decide +kernel⟩
theorem witness_queue_push : RowMeets (queueRow (.qpush 0 2 1)) (withQueue .c .v [1, 2, 3, 4, 5, 6, 7]) :=
  ⟨_, rfl, ready_of (by decide +kernel), ⟨.v, by decide +kernel⟩, by decide +kernel⟩
theorem witness_queue_bind : RowMeets (queueRow (.qbind 0 3 16 8)) running :=
  ⟨_, rfl, ready_of (by decide +kernel), ⟨.c, .l, by decide, by decide, by decide⟩, by decide +kernel⟩
theorem witness_queue_stops :
    ((withQueue .v .l [5]).me.queue 2).wrongSide false ∧ running.mustWaitAt 2 true ∧ (withQueue .v .c []).mustWaitAt 2 false ∧
      (withQueue .c .v [1, 2, 3, 4, 5, 6, 7, 8]).mustWaitAt 2 true :=
  ⟨⟨.v, .l, by decide +kernel, by decide⟩, .inl (by decide +kernel), .inr ⟨.v, .c, by decide +kernel, by decide, .inl (by decide +kernel)⟩,
    .inr ⟨.c, .v, by decide +kernel, by decide, by decide +kernel⟩⟩

/-- The bytes of an item of two parcels (04_encoding R49). -/
def itemBytes (w : Nat) : List Byte := leBytes 2 (w / 2 ^ 16) ++ leBytes 2 (w % 2 ^ 16)

/-- The text of a header for all engines and a body of 10 parcels that begins with a word. -/
def withText (s : State) (w : Nat) : State :=
  s.onMe fun g => { g with store := { g.store with tlen := 24, text := memPut (memPut [] 0 (itemBytes 0xA00A0001)) 4 (itemBytes w) } }

/-- An engine with the turn at that word, with an entry in its hidden queue. -/
def atWord (e : Engine) (w : Nat) (h : HbEntry) : State :=
  (withText { running with turn := .engine e } w).onEng e fun _ =>
    { EngineState.placed with cur := 4, stack := [⟨4, 24, 2⟩], hbq := [h], hbCovers := [[]] }

theorem atWord_item (e : Engine) (w : Nat) (h : HbEntry) (hm : (atWord e w h).mayRun e = true := by decide +kernel)
    (hf : ((atWord e w h).eng e).cur + (atWord e w h).me.itemLen e ≤ (atWord e w h).me.enclosingEnd e := by decide +kernel)
    (hw : (atWord e w h).me.inWindow e ((atWord e w h).me.itemLen e / 2) = true := by decide +kernel)
    (hc : (atWord e w h).atClaimEnd e = false := by decide +kernel) : (atWord e w h).AtItem e where
  agenda := by cases e <;> rfl
  turn := rfl
  runs := hm
  pc := by cases e <;> rfl
  skip := by cases e <;> rfl
  body := by cases e <;> (intro l hl; cases hl; exact of_decide_eq_true rfl)
  text := ⟨by cases e <;> exact of_decide_eq_true rfl, by cases e <;> (intro x; exact absurd x (of_decide_eq_true rfl))⟩
  fits := hf
  window := hw
  quiet := fun _ => rfl
  claim := hc

/-- The clauses of the statement about steps: a word of C, no word, a header, a word of other engines, a short item, a latched and a
substituted word. -/
theorem witness_step :
    (atWord .c 0x00908860 (.count 0)).AtItem .c ∧ isLong ((atWord .c 0x00908860 (.count 0)).me.store.parcel 4) = true ∧
    (atWord .s 0x00908860 (.count 0)).AtItem .s ∧ inMask (wordMask 0x00908860) .s = false ∧
    (atWord .c 0x00908861 (.count 0)).AtItem .c ∧ decodeTableWord 32 0x00908861 = none ∧
    (atWord .v 0xA0030002 (.count 0)).AtItem .v ∧ (atWord .v 0xA0030002 (.count 0)).framed .v (hdrLen 0xA0030002) ∧
    (atWord .m 0xC064C064 (.count 0)).AtItem .m ∧ isLong ((atWord .m 0xC064C064 (.count 0)).me.store.parcel 4) = false :=
  ⟨atWord_item _ _ _, by decide +kernel, atWord_item _ _ _, by decide +kernel, atWord_item _ _ _, by decide +kernel,
    atWord_item _ _ _, ⟨by decide +kernel, by decide +kernel⟩, atWord_item _ _ _, by decide +kernel⟩

theorem witness_step_latch :
    (∃ s : State, (s.eng .c).latch = some (0x00908860, 2) ∧ s.agenda = [] ∧ s.mayRun .c = true) ∧
      ∃ s : State, (s.eng .c).sub = some 0x00908860 ∧ s.me.isOwn .c = true :=
  ⟨⟨(atWord .c 0xE000E000 (.count 0)).onEng .c fun x => { x with latch := some (0x00908860, 2) }, by decide +kernel, rfl, by decide +kernel⟩,
    ⟨(atWord .c 0x00908861 (.count 0)).onEng .c fun x => { x with sub := some 0x00908860 }, by decide +kernel, by decide +kernel⟩⟩

theorem witness_events : (∃ core i r, ({ running with agenda := [.event 3 .reset] } : State).agenda = .event core i :: r ∧ encode i = none ∧
    ∀ e, i ≠ .unassignedItem e) ∧ (∃ r ns, ({ running with agenda := [.time 5] } : State).agenda = .time ns :: r) ∧
    ({ running with turn := .async } : State).agenda = [] :=
  ⟨⟨3, .reset, [], rfl, rfl, fun _ h => nomatch h⟩, ⟨[], 5, rfl⟩, rfl⟩

theorem witness_noEffect : ({ running with me := { running.me with phase := .frozen } } : State).mayRun .c = false ∧
    (running.onEng .c fun x => { x with annul := 1 }).mayRun .c = true ∧
    ((running.onEng .c fun x => { x with annul := 1 }).eng .c).annul.getLsbD 0 = true ∧
    (running.onEng .c fun x => { x with skip := true }).mayRun .c = true := by decide +kernel

/-- Two results for one register, of which the later issued lands last. -/
theorem witness_land : let f (v : BitVec 64) (t : Nat) : InFlight := fixedFlight (.s 3) (.word v) t
    (f 7 5).landed 5 = true ∧ (f 6 4).landed 5 = true ∧ (f 6 4).land ≤ (f 7 5).land := by decide

theorem witness_header : (atWord .v 0xA0030002 (.count 3)).mayRun .v = true ∧ (atWord .v 0xA0030002 (.count 3)).actor = .v ∧
    (atWord .v 0xA0030002 (.count 3)).framed .v 3 ∧ (atWord .v 0xA0030002 (.count 3)).hiddenHead .v (.count 3) ∧
    (atWord .s 0xA0030002 (.count 0)).hiddenHead .s (.count 0) ∧ (atWord .s 0xA0030002 (.count 0)).me.inWindow .s 5 = true :=
  ⟨by decide +kernel, by decide +kernel, ⟨by decide +kernel, by decide +kernel⟩, ⟨by decide +kernel, by decide +kernel⟩,
    ⟨by decide +kernel, by decide +kernel⟩, by decide +kernel⟩

theorem witness_header_c : let s := atWord .c 0xA0038001 (.count 0)
    s.Ready .c 0 [.s 1] ∧ s.framed .c 3 ∧ ((s.arrived .c 0).me.sreg 1).toNat ≤ 32767 ∧ (∀ f, s.follows f = true → (s.eng f).hbq.length < 4) ∧
    s.me.inWindow .c 5 = true :=
  ⟨ready_of (by decide +kernel), ⟨by decide +kernel, by decide +kernel⟩, by decide +kernel, fun f => by cases f <;> decide +kernel,
    by decide +kernel⟩

/-- L at the end of its body. -/
def atEnd : State := (atWord .l 0xC064C064 (.count 0)).onEng .l fun x => { x with cur := 24 }

theorem witness_framing : (∃ (l : Level) (r : List Level), (atEnd.eng .l).stack = l :: r ∧ (atEnd.eng .l).cur = l.last) ∧
    atEnd.mayRun .l = true ∧ (atEnd.eng .l).pc = .seq ∧ atEnd.actor = .l ∧ atEnd.Ready .l 0 [] ∧
    (atEnd.onMe fun g => { g with store := { g.store with dict := [(5, 0x20000000)] } }).me.dictEntry .l 5 = some 0x20000000 :=
  ⟨⟨⟨4, 24, 2⟩, [], rfl, rfl⟩, by decide +kernel, by decide +kernel, by decide +kernel, ready_of (by decide +kernel), by decide +kernel⟩

theorem witness_bem : (atWord .v 0 (.branch true false)).actor = .v ∧ (atWord .v 0 (.branch true false)).hiddenHead .v (.branch true false) ∧
    (atWord .v 0 (.branch true false)).Ready .v 0 [] ∧ (∀ e, maskNames 15 e = true → running.follows e = true → (running.eng e).hbq.length < 4) ∧
    running.Ready .c 0 [.s 2, .s 3] ∧ running.actor = .c :=
  ⟨by decide +kernel, ⟨by decide +kernel, by decide +kernel⟩, ready_of (by decide +kernel), fun e => by cases e <;> decide +kernel, ready_of (by decide +kernel),
    by decide +kernel⟩

theorem witness_dictld : (∃ r, (withBytes 64 (leBytes 4 0x00908860) []).me.record ((withBytes 64 (leBytes 4 0x00908860) []).me.sreg 1).toNat 4 4 = .ok r) ∧
    (withBytes 64 (leBytes 4 0x00908860) []).Ready .c 0 [.s 1] ∧ (atWord .v 0 (.count 0)).Ready .v 0 [] ∧
    ((atWord .v 0 (.count 0)).onEng .v fun x => { x with dictq := [none] }).Ready .v 0 [] :=
  ⟨⟨_, rfl⟩, ready_of (by decide +kernel), ready_of (by decide +kernel), ready_of (by decide +kernel)⟩

theorem witness_notify : (atWord .s 0 (.count 0)).Ready .s 0 [] ∧ (running.arrived .s 0).granted 5 = true ∧
    (running.arrived .s 0).granted 40 = false ∧ ∀ e, running.mayNotify e :=
  ⟨ready_of (by decide +kernel), by decide +kernel, by decide +kernel, fun e => by
    cases e
    · show running.me.incomplete = 0; decide +kernel
    · trivial
    · trivial
    · exact ⟨rfl, fun _ h => nomatch h⟩
    · exact fun z h => absurd h (by revert z; decide +kernel)⟩

/-- Jobs of C that are not complete keep its NOTIFY. -/
theorem witness_notify_waits : ¬(running.onMe fun g => { g with work := { g.work with jobs :=
    [⟨1, .copy 8 (.spad 3 0) (.spad 3 64), false, 0, [], [], [], false, .issued, 0, [], [], 0, 0⟩] } }).mayNotify .c :=
  fun (h : Group.incomplete _ = 0) => absurd h (by decide +kernel)

/-! ### Memory -/

/-- The pages of a context from virtual address 0 on, of 64 KiB, by the bytes of the tables that lead to them (23_page R341): LOCAL at
0x100000, REMOTE at 0x300000 of module 7, DUPLICATED, SEALED at 0x110000, LEASED-IN at 0x310000 of module 7, host memory at 0x400000, one in
stack 3, MIGRATING at 0x120000, one at 0x140000 that takes profile records, LEASED-OUT. -/
def tables : Memory :=
  [(0x10002, 2), (0x10005, 20), (0x10007, 240),
    (0x20002, 3), (0x20005, 20), (0x20007, 240),
    (0x30002, 4), (0x30005, 20), (0x30007, 240),
    (0x40002, 5), (0x40005, 20), (0x40007, 240),
    (0x50002, 16), (0x50005, 20), (0x50007, 24), (0x5000C, 7),
    (0x50012, 48), (0x50015, 28), (0x50017, 40), (0x5001C, 7),
    (0x50022, 32), (0x50025, 20), (0x50027, 56), (0x5002C, 7),
    (0x50032, 17), (0x50035, 20), (0x50037, 64), (0x5003C, 7),
    (0x50042, 49), (0x50045, 28), (0x50047, 120), (0x5004C, 7),
    (0x50052, 64), (0x50056, 128), (0x50057, 40), (0x5005C, 7),
    (0x50064, 48), (0x50065, 20), (0x50067, 24), (0x5006C, 7),
    (0x50072, 18), (0x50075, 20), (0x50077, 88), (0x5007C, 7),
    (0x50082, 20), (0x50085, 20), (0x50087, 26), (0x5008C, 7),
    (0x50092, 21), (0x50095, 20), (0x50097, 104), (0x5009C, 7)]

/-- The running group with these pages, h1 on the page of a number and a kind, and scalars from s1 on. -/
def paged (j : Nat) (kind : BitVec 3) (l : List (BitVec 64)) : State :=
  let s := withS l
  let h : Handle := { zeroHandle with valid := true, kind := kind, wr := true, va := .ofNat 64 (0x10000 * j), profile := j == 8 }
  let t : State :=
    { s with
      mem := { s.mem with hbm := tables }
      pages := { s.pages with replicas := [⟨1, 0x20000, 7, 7 * 2 ^ 42 + 0x330000⟩] }
      links :=
        { s.links with
          routes := [(7, 0xFFFFFF)], ports := s.links.ports.map fun (p : Port) => { p with st := .up, lanes := 8 } } }
  t.onMe fun g => { g with cr := { g.cr with h := g.cr.h.set 1 h } }

/-- The entry of a page of the list: its address, its level, its words. -/
def entryAt (j : Nat) (st : Nat) (flags : Nat) (pa : Nat) : PEntry :=
  ⟨5 * 2 ^ 42 + 0x50000 + 16 * j, 4, BitVec.ofNat 64 (st * 2 ^ 60 + flags * 2 ^ 52 + pa), 0x700000000⟩

def pageEntry : Nat → PEntry
  | 0 => entryAt 0 1 0x80 (5 * 2 ^ 42 + 0x100000)
  | 1 => entryAt 1 2 0x80 (7 * 2 ^ 42 + 0x300000)
  | 2 => entryAt 2 3 0x80 (5 * 2 ^ 42 + 0x200000)
  | 3 => entryAt 3 4 0 (5 * 2 ^ 42 + 0x110000)
  | 4 => entryAt 4 7 0x80 (7 * 2 ^ 42 + 0x310000)
  | 5 => entryAt 5 2 0x88 0x400000
  | 6 => entryAt 6 1 0x80 (5 * 2 ^ 42 + 3 * 2 ^ 36)
  | 7 => entryAt 7 5 0x80 (5 * 2 ^ 42 + 0x120000)
  | 8 => entryAt 8 1 0xA0 (5 * 2 ^ 42 + 0x140000)
  | _ => entryAt 9 6 0x80 (5 * 2 ^ 42 + 0x150000)

/-- A double word at byte 16 of the page behind h1, and an atomic on the first word. -/
def atPage : LdSt := ldStOf 0 2 1 1 3 1 2
def onPage (k : BitVec 3) : AtomicForm := (atomicRow (.acas 0 2 1 1 0 k)).getD ⟨0, 0, 0, 0, 0, 0, none, false, false, fun _ _ _ => 0⟩

/-- A store of the group to the replica of the third page that its owner has not answered. -/
def openStore : Fwd :=
  { tag := 1, va := 0x20010, line := 0xCC00, first := 0, sent := 0, moved := false, unsent := false, shown := [], core := some 3, reg := none
    size := 8, signed := false, agent := none
    pkt := { kind := 3, npay := 64, flags := 0, dmod := 7, smod := 5, tag := 1, ctx := 1, sub := 0, len := 0, addr := 0x330000, mask := 0
             qp := 0, slot := 0, firing := 0, offset := 0, value := 0, rctr := 0, rout := 0, payload := [] } }

def stored : State := { paged 2 0 [] with links := { (paged 2 0 []).links with fwds := [openStore] } }

/-- A change to the context. -/
def withCtx (s : State) (f : Context → Context) : State := { s with ctxs := s.ctxs.map fun (c : Nat × Context) => (c.1, f c.2) }

/-- Nivose mode. -/
def nivose (s : State) : State :=
  withCtx (s.onMe fun g => { g with sys := { g.sys with ctxinfo := 2 ^ 40 + 2 ^ 8 } }) fun c => { c with root := { c.root with nivose := true } }

/-- A generator window on the first two pages, with and without STRAP. -/
def window (strap : Bool) : GenWin := ⟨1, 0, strap, 0, 0x20000, 0, [0, 0, 0, 0], 0⟩
def windowed (strap : Bool) (s : State) : State := withCtx s fun c => { c with gens := [(0, window strap)] }

theorem witness_load_spad : Meets (spadLoadClaim (ldStOf 0 2 1 0 3 1 2) 3 80) (withBytes 64 [1] []) := by
  refine ⟨ready_of (by decide +kernel), ?_⟩
  dsimp only [spadLoadClaim, State.spadOk, State.roomForResult]
  decide +kernel

theorem witness_load_spad_byte : Meets (spadLoadClaim (ldStOf 0 2 1 0 0 0 3) 3 65) (withBytes 64 [1] [0, 1]) := by
  refine ⟨ready_of (by decide +kernel), ?_⟩
  dsimp only [spadLoadClaim, State.spadOk, State.roomForResult]
  decide +kernel

theorem witness_load_gen : Meets (genLoadClaim atPage (window false)) (windowed false (paged 1 3 [])) := by
  refine ⟨ready_of (by decide +kernel), ?_⟩
  dsimp only [genLoadClaim, Handle.allows, State.roomForResult, State.clearRead]
  exact ⟨by decide +kernel, by decide +kernel, by decide +kernel, 0, by decide +kernel⟩

theorem witness_load_page : Meets (pageLoadClaim atPage (pageEntry 0)) (paged 0 0 []) := by
  refine ⟨ready_of (by decide +kernel), ?_⟩
  dsimp only [pageLoadClaim, Handle.allows, State.roomForResult, State.clearRead]
  decide +kernel

theorem witness_load_page_host : Meets (pageLoadClaim atPage (pageEntry 5)) (paged 5 2 []) := by
  refine ⟨ready_of (by decide +kernel), ?_⟩
  dsimp only [pageLoadClaim, Handle.allows, State.roomForResult, State.clearRead]
  decide +kernel

theorem witness_load_remote : Meets (remoteLoadClaim atPage (pageEntry 1) none) (paged 1 1 []) := by
  refine ⟨ready_of (by decide +kernel), ?_⟩
  dsimp only [remoteLoadClaim, Handle.allows, State.roomForResult, State.clearRead]
  decide +kernel

theorem witness_load_replica : Meets (remoteLoadClaim atPage (pageEntry 2) (some ⟨1, 0x20000, 7, 7 * 2 ^ 42 + 0x330000⟩)) (stored) := by
  refine ⟨ready_of (by decide +kernel), ?_⟩
  dsimp only [remoteLoadClaim, Handle.allows, State.roomForResult, State.clearRead]
  decide +kernel

theorem witness_store_spad : Meets (spadStoreClaim (ldStOf 0 2 1 0 3 1 2) 3 80) (withBytes 64 [1] [7]) := by
  refine ⟨ready_of (by decide +kernel), ?_⟩
  dsimp only [spadStoreClaim, State.spadOk]
  decide +kernel

theorem witness_store_page : Meets (pageStoreClaim atPage (pageEntry 0)) (paged 0 0 [0, 7]) := by
  refine ⟨ready_of (by decide +kernel), ?_⟩
  dsimp only [pageStoreClaim, Handle.allows, State.roomForResult, State.clearRead]
  decide +kernel

theorem witness_store_remote : Meets (remoteStoreClaim atPage (pageEntry 1) none) (paged 1 1 [0, 7]) := by
  refine ⟨ready_of (by decide +kernel), ?_⟩
  dsimp only [remoteStoreClaim, Handle.allows, State.roomForResult, State.clearRead]
  decide +kernel

theorem witness_store_replica : Meets (remoteStoreClaim atPage (pageEntry 2) (some ⟨1, 0x20000, 7, 7 * 2 ^ 42 + 0x330000⟩)) (paged 2 0 [0, 7]) := by
  refine ⟨ready_of (by decide +kernel), ?_⟩
  dsimp only [remoteStoreClaim, Handle.allows, State.roomForResult, State.clearRead]
  decide +kernel

theorem witness_store_host : Meets (hostStoreClaim atPage (pageEntry 5)) (paged 5 2 [0, 7]) := by
  refine ⟨ready_of (by decide +kernel), ?_⟩
  dsimp only [hostStoreClaim, Handle.allows, State.roomForResult, State.clearRead]
  decide +kernel

theorem witness_store_gen : Meets (genStoreClaim atPage (window false)) (windowed false (paged 1 3 [])) := by
  refine ⟨ready_of (by decide +kernel), ?_⟩
  dsimp only [genStoreClaim, Handle.allows, State.roomForResult, State.clearRead]
  exact ⟨by decide +kernel, by decide +kernel, by decide +kernel, by decide +kernel, 0, by decide +kernel⟩

theorem witness_traps_spad : (withBytes 65 [] []).accessTrap 0 1 0 8 = some (causeAlign, 65) := by decide +kernel
theorem witness_traps_bounds : (withBytes 0x4000000 [] []).accessTrap 0 1 0 8 = some (causeBounds, 0x4000000) := by decide +kernel
theorem witness_traps_field : (paged 0 0 []).accessTrap 1 17 0 8 = some (causeReserved, 0) := by decide +kernel
theorem witness_traps_stale : (paged 0 0 []).accessTrap 1 2 0 8 = some (causeHandleStale, 0) := by decide +kernel
theorem witness_traps_page : (paged 0 0 []).accessTrap 1 1 0x10000 8 = some (causeBounds, 0x10000) := by decide +kernel
theorem witness_traps_gen : (windowed true (paged 0 0 [])).storeTrap ((paged 0 0 []).me.hreg 1) 0 = some (causeGenStore, 0) := by decide +kernel
theorem witness_traps_gone : (paged 10 0 []).pageTrap ((paged 10 0 []).me.hreg 1) 0xA0000 = some (causeHandleStale, 0xA0000) := by decide +kernel
theorem witness_traps_absent : { paged 6 0 [] with part := .lq96 }.pageTrap ((paged 6 0 []).me.hreg 1) 0x60000 = some (causeAbsent, 0) := by
  decide +kernel
theorem witness_traps_ready : (paged 0 0 []).Ready .c 0 [.s 2, .h 1] := ready_of (by decide +kernel)
theorem witness_traps_scope : (paged 0 0 []).atomicTrap 1 1 0 1 = some (causeBounds, 0) := by decide +kernel
theorem witness_traps_atomic_gen : (paged 0 3 []).atomicTrap 1 1 0 4 = some (causeGenStore, 0) := by decide +kernel

theorem witness_atomic_spad : Meets (spadAtomicClaim (onPage 0 |> fun r => { r with h := 0 }) 3 64 5) (withBytes 64 [5] [5, 9]) := by
  refine ⟨ready_of (by decide +kernel), ?_⟩
  dsimp only [spadAtomicClaim, AtomicForm.assigned, State.spadOk, State.roomForResult, State.atomicAllowed, Handle.allows]
  decide +kernel

theorem witness_atomic_page : Meets (pageAtomicClaim (onPage 2) (pageEntry 0) 0) (paged 0 0 [0, 0, 9, 8]) := by
  refine ⟨ready_of (by decide +kernel), ?_⟩
  dsimp only [pageAtomicClaim, AtomicForm.assigned, State.spadOk, State.roomForResult, State.atomicAllowed, Handle.allows]
  decide +kernel

theorem witness_atomic_remote : Meets (remoteAtomicClaim (onPage 3) (pageEntry 1) none) (paged 1 1 [0, 0, 9, 8]) := by
  refine ⟨ready_of (by decide +kernel), ?_⟩
  dsimp only [remoteAtomicClaim, AtomicForm.assigned, State.spadOk, State.roomForResult, State.atomicAllowed, Handle.allows]
  decide +kernel

theorem witness_atomic_replica : Meets (remoteAtomicClaim (onPage 3) (pageEntry 2) (some ⟨1, 0x20000, 7, 7 * 2 ^ 42 + 0x330000⟩)) (paged 2 0 [0, 0, 9, 8]) := by
  refine ⟨ready_of (by decide +kernel), ?_⟩
  dsimp only [remoteAtomicClaim, AtomicForm.assigned, State.spadOk, State.roomForResult, State.atomicAllowed, Handle.allows]
  exact ⟨by decide +kernel, by decide +kernel, by decide +kernel, by decide +kernel, by decide +kernel, by decide +kernel,
    fun h => absurd h (Option.some_ne_none _)⟩

theorem witness_interval_spad : Meets (spadIntervalClaim (onPage 0 |> fun r => { r with h := 0 }) 3 64) (nivose (withBytes 64 [5] [5, 9])) := by
  refine ⟨ready_of (by decide +kernel), ?_⟩
  dsimp only [spadIntervalClaim, State.alone, AtomicForm.assigned, State.spadOk, State.roomForResult, State.atomicAllowed, Handle.allows]
  decide +kernel

theorem witness_interval_page : Meets (pageIntervalClaim (onPage 2) (pageEntry 0)) (nivose (paged 0 0 [0, 0, 9, 8])) := by
  refine ⟨ready_of (by decide +kernel), ?_⟩
  dsimp only [pageIntervalClaim, State.alone, AtomicForm.assigned, State.spadOk, State.roomForResult, State.atomicAllowed, Handle.allows]
  decide +kernel

theorem witness_handles : RowMeets (handleRow (.xlate 0 3 1)) (paged 0 0 [] |>.onMe fun g => { g with cr := { g.cr with s := g.cr.s.set 1 0x10008 } }) ∧
    (withS [0x100000]).translate 1 0x100000 false = none ∧ RowMeets (handleRow (.hdrop 0 3)) running := by
  refine ⟨⟨_, rfl, ready_of (by decide +kernel), ?_⟩, by decide +kernel, ⟨_, rfl, meets_plain (by decide +kernel)⟩⟩
  dsimp only
  decide +kernel

theorem witness_tags : RowMeets (tagRow (.tset 0 2 1 3 4)) (withS [0xFF0000, 4095, 0x3FF0000]) ∧
    RowMeets (tagRow (.tclr 0 2 0)) (withS [0, 4095]) ∧ RowMeets (tagRow (.tclr 0 0 1)) running := by
  refine ⟨⟨_, rfl, ready_of (by decide +kernel), ?_⟩, ⟨_, rfl, ready_of (by decide +kernel), ?_⟩, ⟨_, rfl, ready_of (by decide +kernel), ?_⟩⟩ <;>
    dsimp only [tagAllowed] <;> decide +kernel

/-- The routes lead to no other module. -/
def noRoutes (s : State) : State := { s with links := { s.links with routes := [] } }

theorem alone_of {s : State} (h : s.pages.sealings = []) (hr : s.links.routes = []) : s.sealsAlone :=
  ⟨h, by rw [hr]; exact fun _ h => nomatch h⟩

theorem witness_seal : Meets (sealClaim 0 3 4 [(0, pageEntry 0)]) (noRoutes (paged 0 0 [0, 0, 0, 0x10000])) := by
  refine ⟨ready_of (by decide +kernel), ?_⟩
  dsimp only [sealClaim]
  exact ⟨by decide +kernel, alone_of (by decide +kernel) (by decide +kernel), by decide +kernel⟩
theorem witness_unseal : Meets (unsealClaim 0 3 4 [(0x30000, pageEntry 3)]) (noRoutes (paged 0 0 [0, 0, 0x30000, 0x10000])) := by
  refine ⟨ready_of (by decide +kernel), ?_⟩
  dsimp only [unsealClaim]
  exact ⟨by decide +kernel, alone_of (by decide +kernel) (by decide +kernel)⟩
theorem witness_seal_traps : (paged 0 0 []).sealCheck 8 0x10000 = .error (causeAlign, 8) ∧
    (paged 0 0 []).sealCheck 0 0 = .error (causeBounds, 0) := ⟨by decide +kernel, by decide +kernel⟩

/-- A record of 32 bytes at scratchpad address 64, with s2 = 64. -/
def withRecord (s : State) (r : List Byte) : State := s.onMe fun g =>
  { g with store := { g.store with spad := memPut [] 64 r }, cr := { g.cr with s := g.cr.s.set 2 64 } }

def bindRecord : List Byte := leBytes 8 0x10008 ++ leBytes 8 0x10040 ++ leBytes 8 64 ++ leBytes 8 0

theorem witness_bind : Meets (bindClaim 0 2 5 bindRecord ⟨0x10008, 0x10040, 64⟩) (withRecord (paged 0 0 []) bindRecord) ∧
    Meets (unbindClaim 0 5) (paged 0 0 []) := by
  refine ⟨⟨ready_of (by decide +kernel), ?_⟩, meets_plain (by decide +kernel)⟩
  dsimp only [bindClaim]
  decide +kernel

/-! ### Synchronisation -/

/-- The object at address 8 of the first page, which s2 names, and its physical address. -/
def objPa : Nat := 5 * 2 ^ 42 + 0x100008
def farPa : Nat := 7 * 2 ^ 42 + 0x300008
def named (va : BitVec 64) : State := (paged 0 0 []).onMe fun g => { g with cr := { g.cr with s := g.cr.s.set 2 va } }
def holdIt (s : State) (ex : Bool) : State := { s with mem := { s.mem with objs := [⟨objPa, 1, [s.myHold ex], []⟩] } }
def asked (isHeld : Bool) : SyncAsk := ⟨9, farPa, 1, 1, 0, true, true, isHeld⟩
def farAsked (isHeld : Bool) : State := { named 0x10008 with links := { (named 0x10008).links with asks := [asked isHeld] } }

theorem witness_acquire : Meets (acqClaim 0 2 1 1 objPa) (named 8) ∧ Meets (acqClaim 0 2 1 0 objPa) (named 8) ∧
    Meets (acqTokenClaim 0 2 1 objPa) ((named 8).onMe fun g => { g with work := { g.work with tokens := 1 } }) ∧
    Meets (acqFarClaim 0 2 1 farPa (asked false)) (farAsked false) := by
  refine ⟨⟨ready_of (by decide +kernel), ?_⟩, ⟨ready_of (by decide +kernel), ?_⟩, ⟨ready_of (by decide +kernel), ?_⟩, ready_of (by decide +kernel), ?_⟩ <;>
    dsimp only [acqClaim, acqTokenClaim, acqFarClaim, State.homeObj, State.canGrant] <;> decide +kernel

theorem witness_release : Meets (relClaim 0 2 objPa true) (holdIt (named 8) true) ∧ Meets (relFarClaim 0 2 farPa (asked true)) (farAsked true) := by
  refine ⟨⟨ready_of (by decide +kernel), ?_⟩, ready_of (by decide +kernel), ?_⟩
  · dsimp only [relClaim]
    exact ⟨by decide +kernel, by decide +kernel, by decide +kernel, (named 8).myHold true, by decide +kernel, rfl⟩
  · dsimp only [relFarClaim]
    decide +kernel

theorem witness_acquire_traps : (named 8).homeObj 8 objPa ∧ (∃ h ∈ ((holdIt (named 8) true).obj 1 objPa).holders, (named 8).ownsHold h = true) ∧
    (named 8).objKey 1 8 = some objPa ∧ (∀ h ∈ ((named 8).obj 1 objPa).holders, (named 8).ownsHold h = false) ∧
    (named 0x100000).objKey 1 0x100000 = none ∧ (named 0x100000).leafOf 1 0x100000 = none ∧ (named 8).Ready .c 0 [.s 2] :=
  ⟨⟨by decide +kernel, by decide +kernel⟩, ⟨_, List.mem_singleton.mpr rfl, by decide +kernel⟩, by decide +kernel, by decide +kernel, by decide +kernel,
    by decide +kernel, ready_of (by decide +kernel)⟩

theorem witness_flags : RowMeets (syncRow (.fset 0 255)) running ∧ RowMeets (syncRow (.fence 0 4)) running ∧
    RowMeets (syncRow (.ared 0 2 3 3)) (withS [0, 960, 0x1F000]) ∧ RowMeets (syncRow (.ared 0 2 3 0)) (withS [0, 960, 0x1FFF8]) := by
  refine ⟨⟨_, rfl, ready_of (by decide +kernel), ?_⟩, ⟨_, rfl, ready_of (by decide +kernel), ?_⟩, ⟨_, rfl, ready_of (by decide +kernel), ?_⟩,
    ⟨_, rfl, ready_of (by decide +kernel), ?_⟩⟩ <;> dsimp only [State.aredOk] <;> decide +kernel

theorem witness_flag_waits : Meets (atcloseClaim 0) (nivose running) ∧ Meets (fwaitClaim 0 3 1) (running.onMe (·.setFlag 3 0)) ∧
    Meets (fwaitTokenClaim 0 3 1) (running.onMe fun g => { g with work := { g.work with tokens := 2 } }) ∧
    running.me.work.tokens = 0 ∧ running.me.flag 3 = false ∧
    stored.fenceWaits 4 = true := by
  refine ⟨meets_plain (by decide +kernel), ⟨ready_of (by decide +kernel), ?_⟩, ⟨ready_of (by decide +kernel), ?_⟩, by decide +kernel, by decide +kernel,
    by decide +kernel⟩ <;> dsimp only [fwaitClaim, fwaitTokenClaim] <;> decide +kernel

/-- A barrier of chip scope whose home is this module. -/
def barrier : Barrier := ⟨2, 2, 5, 1, 0, 0, 0, 0, false, [], 0, 0, 0⟩
def barred (l : List Joined) : State :=
  (withCtx (withS [0, 8]) fun c => { c with bars := [(4, barrier)] }).onMe fun g => { g with work := { g.work with joined := l } }
def join (waiting : Bool) (result : Option Bool) : Joined := ⟨0, 4, 0, [], 0, true, some 0, waiting, result, false⟩

theorem witness_barriers : Meets (barjoinClaim 0 4 2 barrier) (barred []) ∧
    Meets (barwaitClaim 0 4 1 (join false (some true)) true false) (barred [join false (some true)]) ∧
    Meets (barwaitClaim 0 4 1 (join true (some false)) false false) (barred [join true (some false)]) ∧
    Meets (barwaitClaim 0 4 1 (join true none) true true) ((barred [join true none]).onMe fun g => { g with work := { g.work with tokens := 1 } }) ∧
    (∃ j, (barred [join false none]).me.work.joined.find? (fun j => j.bar == (4 : BitVec 12).toNat) = some j ∧ j.result = none) ∧
    ((barred []).bar 1 4).isSome = true ∧ (barred []).bar 1 5 = none := by
  refine ⟨⟨ready_of (by decide +kernel), ?_⟩, ⟨ready_of (by decide +kernel), ?_⟩, ⟨ready_of (by decide +kernel), ?_⟩, ⟨ready_of (by decide +kernel), ?_⟩,
    ⟨_, rfl, rfl⟩, by decide +kernel, by decide +kernel⟩ <;> dsimp only [barjoinClaim, barwaitClaim] <;> decide +kernel

/-! ### Commands of C -/

theorem ok_of {α : Type} {x : Chk α} (h : x.isOk = true) : ∃ a, x = .ok a := by
  cases x with
  | error e => exact absurd h Bool.false_ne_true
  | ok a => exact ⟨a, rfl⟩

/-- Bytes at scratchpad address 64, with s2 = 64. -/
def recorded (s : State) (r : List Byte) : State := s.onMe fun g =>
  { g with store := { g.store with spad := memPut [] 64 r }, cr := { g.cr with s := g.cr.s.set 2 64 } }

/-- An engine address of the own core. -/
def ownEa (a : Nat) : Nat := 3 * 2 ^ 62 + a
def footBytes (base len mode : Nat) : List Byte := leBytes 8 base ++ leBytes 4 len ++ leBytes 4 mode

/-- A card that copies 64 bytes, and one of an H instruction on two doubles. -/
def copyCard : List Byte :=
  leBytes 4 0x02000100 ++ leBytes 4 64 ++ leBytes 8 (ownEa 0x1000) ++ leBytes 8 (ownEa 0x4000) ++ leBytes 40 0 ++
    footBytes (ownEa 0x1000) 64 0 ++ footBytes (ownEa 0x4000) 64 1
def foldCard : List Byte :=
  leBytes 4 0x00020000 ++ leBytes 4 2 ++ leBytes 8 0 ++ leBytes 8 (ownEa 0x1000) ++ leBytes 8 0 ++ leBytes 8 (ownEa 0x5000) ++ leBytes 24 0 ++
    footBytes (ownEa 0x1000) 16 0 ++ footBytes (ownEa 0x5000) 8 1

/-- A routine of one micro-operation on 32-bit integers. -/
def sumRoutine : Routine := ⟨2, 7, 0, [BitVec.ofNat 32 (1 * 2 ^ 27 + 2 * 2 ^ 24 + 2 * 2 ^ 18)]⟩
def routineBytes : List Byte := leBytes 8 0x070201 ++ leBytes 8 0 ++ leBytes 4 (1 * 2 ^ 27 + 2 * 2 ^ 24 + 2 * 2 ^ 18) ++ leBytes 60 0
def withRoutine (s : State) : State := withCtx s fun c => { c with routines := [(4, sumRoutine)] }

def copyOf : Card :=
  { kind := .copy 64 (.spad 3 0x1000) (.spad 3 0x4000), fl := true, flag := 0
    foots := [⟨.spad 3 0x1000, 64, false⟩, ⟨.spad 3 0x4000, 64, true⟩], preds := [], dests := [⟨.spad 3 0x4000, 64⟩] }
def foldOf : Card :=
  { kind := .h .fold 1 4 5 false 2 0 0 (.spad 3 0x1000) none (.spad 3 0x5000), fl := false, flag := 0
    foots := [⟨.spad 3 0x1000, 16, false⟩, ⟨.spad 3 0x5000, 8, true⟩], preds := [], dests := [⟨.spad 3 0x5000, 4⟩] }

theorem witness_job : Meets (jobxClaim 0 2 copyOf) (recorded running copyCard) := by
  refine ⟨ready_of (by decide +kernel), ?_⟩
  dsimp only [jobxClaim]
  decide +kernel

theorem witness_hjob : Meets (hClaim .fold 0 5 4 2 1 sumRoutine foldOf) (withRoutine (recorded running foldCard)) := by
  refine ⟨ready_of (by decide +kernel), ?_⟩
  dsimp only [hClaim, profileAllowed]
  decide +kernel

theorem witness_rdef : ∃ r, Meets (rdefClaim 0 7 2 r sumRoutine) (recorded running routineBytes) ∧
    Meets (rdropClaim 0 4) (withRoutine running) := by
  refine ⟨routineBytes, ⟨ready_of (by decide +kernel), ?_⟩, ready_of (by decide +kernel), ?_⟩ <;> dsimp only [rdefClaim, rdropClaim] <;> decide +kernel

theorem witness_counters : RowMeets (counterRow (.cntset 0 39 1)) running ∧ RowMeets (counterRow (.cntadd 0 0 31 1)) running ∧
    RowMeets (counterRow (.cntwait 0 0 0)) running ∧ RowMeets (counterRow (.cntread 0 39 1)) running ∧
    running.granted 40 = false ∧ running.Ready .c 0 [.s 1] := by
  refine ⟨⟨_, rfl, ready_of (by decide +kernel), ?_⟩, ⟨_, rfl, ready_of (by decide +kernel), ?_⟩, ⟨_, rfl, ready_of (by decide +kernel), ?_⟩,
    ⟨_, rfl, ready_of (by decide +kernel), ?_⟩, by decide +kernel, ready_of (by decide +kernel)⟩ <;>
    dsimp only [State.mayCount, State.roomForResult] <;> decide +kernel

/-- A SIGNAL entry of slot 5 for counter 2 over queue pair 0, and a slot that is DONE. -/
def signalBytes : List Byte := leBytes 1 2 ++ leBytes 3 0 ++ leBytes 2 5 ++ leBytes 2 0 ++ leBytes 2 0x8000 ++ leBytes 2 0x8000 ++
  leBytes 2 2 ++ leBytes 50 0
def signalEntry : WEntry := workEntry signalBytes
def pair : QPair :=
  { num := 0, st := .connected, ctx := 1, port := 0, rqp := 9, rmod := 7, eth := false, rctx := 1, dscp := 0, udpp := 0, ip := 0, losses := 0
    applied := 0, completed := 0, recs := [], psn := 0, rxPsn := 0, store := [], resends := 0, resentAt := 0, lastConnect := 0 }
def withPair (s : State) : State := { s with links := { s.links with qps := [pair] } }
def doneSlot : WSlot :=
  { st := .done, entry := signalEntry, thr := 0, left := 0, last := .ok, losts := 1, reason := 0, fired := 3, nextFiring := 3, firing := none
    unacked := [], cancel := false, failed := false, owner := some 0, launch := 1, buf := 0 }
def slotted (x : WSlot) : State := withCtx running fun c => { c with slots := [(5, x)] }

theorem witness_wqpost : Meets (wqpostClaim 0 2 signalBytes signalEntry) (withPair (recorded running signalBytes)) := by
  refine ⟨ready_of (by decide +kernel), ?_⟩
  dsimp only [wqpostClaim]
  decide +kernel

theorem witness_slots : Meets (wqarmClaim 0 5 2 doneSlot) (slotted doneSlot) ∧ Meets (wqcancelClaim 0 5) (slotted { doneSlot with st := .firing }) ∧
    Meets (wqstatClaim 0 1 fun _ => 0) running ∧ (slotted doneSlot).slotOf 1 5 = some doneSlot ∧ running.slotOf 1 5 = none := by
  refine ⟨⟨ready_of (by decide +kernel), ?_⟩, meets_plain (by decide +kernel), ⟨ready_of (by decide +kernel), ?_⟩, by decide +kernel, by decide +kernel⟩
  · dsimp only [wqarmClaim]
    decide +kernel
  · show State.roomForResult _
    unfold State.roomForResult
    decide +kernel

def windowBytes : List Byte := leBytes 8 1 ++ leBytes 8 0x100000 ++ leBytes 8 0x10000 ++ leBytes 40 0

theorem witness_gencfg : Meets (gencfgClaim 0 3 2 windowBytes (genOf windowBytes)) (recorded running windowBytes) ∧ Meets (geninvClaim 0 0) (windowed true running) := by
  refine ⟨⟨ready_of (by decide +kernel), ?_⟩, meets_plain (by decide +kernel)⟩
  dsimp only [gencfgClaim]
  decide +kernel

/-! ### The system -/

/-- System privilege, and a handler. -/
def privileged (s : State) : State := s.onMe fun g => { g with sys := { g.sys with ctxinfo := 2 ^ 40 + 2 ^ 9 } }
def inHandler : State := handled.onMe fun g => { g with phase := .handler, hand := { g.hand with csave := some .placed, saved := [0, 0, 0, 0] } }

theorem witness_sysRegs : Meets (ssrClaim 0 1 0x044) (withS [0x400 * 2 ^ 32]) ∧ Meets (ssrClaim 0 1 0x012) (privileged (withS [2048])) ∧
    Meets (ssrClaim 0 1 0x022) (inHandler) ∧ running.me.syspriv = false ∧ ¬ sysTakes 0x012 2047 ∧ (running.sysReg 0x012).isSome = true ∧
    running.sysReg 0x3FF = none := by
  refine ⟨⟨ready_of (by decide +kernel), ?_⟩, ⟨ready_of (by decide +kernel), ?_⟩, ⟨ready_of (by decide +kernel), ?_⟩,
    by decide +kernel, fun h => absurd h.1 (by decide), by decide +kernel, by decide +kernel⟩
  · exact ⟨trivial, ⟨by decide +kernel, by decide +kernel, by decide +kernel, by decide +kernel, by decide +kernel⟩, by decide +kernel⟩
  · refine ⟨?_, ⟨by decide +kernel, by decide +kernel⟩, by decide +kernel⟩
    show Group.syspriv _ = true
    decide +kernel
  · refine ⟨?_, trivial, by decide +kernel⟩
    show Group.phase _ = .handler
    decide +kernel

theorem witness_gsr : ∀ s : State, s.sysReg (0x043 : BitVec 10).toNat = some s.me.sys.bufout := fun _ => rfl

theorem witness_traps : running.me.phase ≠ .handler ∧ handled.me.sys.thbase.getLsbD 0 = true ∧ running.me.phase = .running ∧
    running.me.sys.thbase.getLsbD 0 = false ∧ (∀ c, running.ctx running.me.ident.ctx = some c → c.fdom (running.me.sys.ctxinfo.toNat / 2 ^ 16 % 2 ^ 16) = 0) ∧
    handled.Ready .c 0 [] ∧ handled.Ready .s 0 [] ∧ engineOfTag (4 : BitVec 5).toNat = some .s ∧ engineOfTag (5 : BitVec 5).toNat = none :=
  ⟨by decide +kernel, by decide +kernel, by decide +kernel, by decide +kernel, fun c h => by
      have : c = context := (Option.some.inj h).symm
      subst this
      decide +kernel,
    ready_of (by decide +kernel), ready_of (by decide +kernel), rfl, rfl⟩

theorem witness_return : inHandler.mayReturn 1 ∧ inHandler.mayRun .c = true ∧ inHandler.me.hand.csave = some .placed ∧ (∀ f ∈ (inHandler.eng .c).flight, f.land ≤ 7) ∧
    (∃ s : State, s.mayReturn 2) ∧ handled.Ready .c 0 [] ∧ inHandler.Ready .c 0 [] ∧ 3 ≤ (3 : BitVec 5).toNat :=
  ⟨⟨by decide +kernel, by decide, rfl, by decide +kernel, fun h => absurd h (by decide)⟩, by decide +kernel, rfl, by decide +kernel,
    ⟨inHandler.onMe fun g => { g with sys := { g.sys with brkword := 0x00908860 } }, by decide +kernel, by decide, rfl, by decide +kernel,
      fun _ => by decide +kernel⟩, ready_of (by decide +kernel), ready_of (by decide +kernel), by decide⟩

/-- A pinned LOCAL block of 2 MiB at virtual address 0x200000, a pinned SEALED one at 0x400000. -/
def blocks : Memory := memPut (memPut tables 0x40010 (leBytes 8 (1 * 2 ^ 60 + 0x90 * 2 ^ 52 + 5 * 2 ^ 42 + 0x800000))) 0x40020
  (leBytes 8 (4 * 2 ^ 60 + 0x10 * 2 ^ 52 + 5 * 2 ^ 42 + 0xA00000))
def blocked (l : List (BitVec 64)) : State := privileged { paged 0 0 l with mem := { (paged 0 0 l).mem with hbm := blocks } }

def stackHandle : Handle := ⟨true, 0, 1, true, false, false, false, 0x200000, 0x140000800000, 0x140000800000⟩

theorem witness_thset : Meets (thsetOffClaim 0 1 2) (privileged running) ∧
    Meets (thsetClaim 0 1 2 stackHandle) (blocked [0x400000, 0x200000]) := by
  refine ⟨⟨ready_of (by decide +kernel), ?_⟩, ready_of (by decide +kernel), ?_⟩ <;> dsimp only [thsetOffClaim, thsetClaim] <;> decide +kernel

theorem witness_claim : Meets (engclaimClaim 0) inHandler ∧
    Meets (engrelClaim 0 .placed .placed) (inHandler.onMe fun g => { g with hand := { g.hand with claim := some (.placed, .placed) } }) ∧
    running.Ready .c 0 [] ∧ running.me.phase ≠ .handler := by
  refine ⟨⟨ready_of (by decide +kernel), ?_⟩, ⟨ready_of (by decide +kernel), ?_⟩, ready_of (by decide +kernel), by decide +kernel⟩ <;>
    dsimp only [engclaimClaim, engrelClaim] <;> decide +kernel

theorem witness_time : RowMeets (platformRow (.timealign 0 1)) running ∧ RowMeets (platformRow (.emov 0 7 1)) running ∧ RowMeets (platformRow (.trace 0 31 1)) running ∧
    Meets (estoreClaim 0 1 1 2 (fun s => (s.me.hreg 1).va.toNat + (s.me.sreg 2).toNat) (pageEntry 8)) (paged 8 0 [0, 16]) ∧
    running.Ready .c 0 [] ∧ 5 ≤ (5 : BitVec 5).toNat := by
  refine ⟨⟨_, rfl, ready_of (by decide +kernel), ?_⟩, ⟨_, rfl, meets_plain (by decide +kernel)⟩, ⟨_, rfl, meets_plain (by decide +kernel)⟩,
    ⟨ready_of (by decide +kernel), ?_⟩, ready_of (by decide +kernel), by decide⟩
  · dsimp only
    decide +kernel
  · dsimp only [estoreClaim, Handle.allows]
    decide +kernel

theorem witness_emptyRead : erdReads running 1 (BitVec.ofNat 64 running.time.now) ∧ erdReads running 2 (BitVec.ofNat 64 (5 * 128 + 3)) := ⟨rfl, rfl⟩

def calBytes : List Byte := leBytes 16 0 ++ leBytes 4 0 ++ leBytes 1 3 ++ leBytes 1 1 ++ leBytes 10 0

theorem witness_platform : Meets (calsetClaim 0 1 2 calBytes) (privileged (recorded (withS [63]) calBytes)) ∧
    Meets (xswapClaim 0 1 2 ⟨3, 1, 0, 0x10000, true⟩) (privileged { withS [0, 0x10000] with pages := { (withS []).pages with swaps := [⟨3, 1, 0, 0x10000, true⟩] } }) ∧
    running.host.debugger = false ∧ running.Ready .c 0 [.s 1, .s 2] ∧ running.me.syspriv = false := by
  refine ⟨⟨ready_of (by decide +kernel), ?_⟩, ⟨ready_of (by decide +kernel), ?_⟩, by decide +kernel, ready_of (by decide +kernel), by decide +kernel⟩ <;>
    dsimp only [calsetClaim, xswapClaim] <;> decide +kernel

theorem witness_iinv : Meets (iinvClaim 0 1 2) (privileged running) :=
  ⟨ready_of (by decide +kernel), by decide +kernel, fun g hg hc hp => by
    revert g
    decide +kernel⟩

/-! ### Vectors -/

/-- A stream of `n` vectors with some of them in its buffer. -/
def streamOf (drained lanes direct : Bool) (fmt n : Nat) (buf : List VReg) : Stream :=
  { Stream.unbound with
    st := .running, fmt := fmt, pos := if drained then 0 else buf.length, taken := if drained then buf.length else 0, buf := buf
    pat := { Pattern.zero with base := 0x1000, drained := drained, lanes := lanes, direct := direct, dims := 1, counts := [128 * n], strides := [4] } }

/-- The running group with streams. -/
def flowing (l : List (BitVec 4 × Stream)) : State :=
  running.onMe fun g => l.foldl (fun (g : Group) (p : BitVec 4 × Stream) => { g with streams := g.streams.set p.1.toNat p.2 p.1.isLt }) g

theorem some_of {α : Type} {o : Option α} (h : o.isSome = true) : o ≠ none := by
  intro hn
  rw [hn] at h
  exact absurd h Bool.false_ne_true

/-- A row of V whose claim is met: with a register, with a stream, with a queue. -/
def VMeets (i : Instr) (s : State) : Prop := ∃ r, vectorRow i = some r ∧ r.bad = none ∧ Meets r.claim s

theorem witness_vector : VMeets (.vadd 0 3 1 1 2 0) running ∧ VMeets (.vaddZq 0 3 1 2 2 0) (flowing [(2, streamOf false false false 2 3 [zeroVReg])]) ∧
    VMeets (.vaddZq 0 3 1 18 2 0) (withQueue .c .v [5]) := by
  refine ⟨⟨_, rfl, by decide +kernel, ready_of (by decide +kernel), ?_⟩, ⟨_, rfl, by decide +kernel, ready_of (by decide +kernel), ?_⟩,
    ⟨_, rfl, by decide +kernel, ready_of (by decide +kernel), ?_⟩⟩ <;> exact some_of (by decide +kernel)

theorem witness_vector_stops : (running.arrived .v 0).mustWaitFor 18 ∧ (flowing [(2, streamOf false false false 2 3 [])]).mustWaitFor 2 ∧
    (withQueue .c .l [5]).notForV 18 ∧ (flowing [(2, streamOf true false false 2 3 [])]).notForV 2 ∧
    (∃ i r, vectorRow i = some r ∧ r.bad = some causeIllegal ∧ running.Ready .v r.y r.reads) := by
  refine ⟨.inl (by decide +kernel), .inr ⟨by decide +kernel, .inl (by decide +kernel), .inr ⟨by decide +kernel, by decide +kernel⟩⟩,
    ⟨.c, .l, by decide +kernel, by decide⟩, ⟨by decide +kernel, .inl (by decide +kernel)⟩, .vadd 0 3 1 1 15 0, _, rfl, by decide +kernel,
    ready_of (by decide +kernel)⟩

theorem witness_masks : RowMeets (maskRow (.mand 0 7 1 2)) running ∧ Meets (fromsClaim 0 3 2) (flowing [(2, streamOf false false false 2 3 [zeroVReg])]) ∧
    Meets (tosClaim 0 3 2) (flowing [(2, streamOf true false false 2 3 [zeroVReg])]) ∧ Meets (tosClaim 0 3 18) (withQueue .v .c [1, 2, 3, 4, 5, 6, 7]) := by
  refine ⟨⟨_, rfl, meets_plain (by decide +kernel)⟩, ⟨ready_of (by decide +kernel), some_of (by decide +kernel)⟩, ⟨ready_of (by decide +kernel), ?_⟩,
    ready_of (by decide +kernel), ⟨.c, by decide +kernel⟩, by decide +kernel⟩
  dsimp only [tosClaim]
  exact ⟨by decide +kernel, by decide +kernel, by decide +kernel, .inr (by decide +kernel)⟩

/-- A reduction whose claim is met, with a value that the manual fixes, and with an open one. -/
theorem witness_reductions : (∃ r, redForm (.vred 0 3 0 3 1 2 0) = some r ∧ ¬ r.isOpen ∧ Meets r.claim running) ∧
    (∃ r, redForm (.vscan 0 3 1 0 1 10 0) = some r ∧ r.isOpen ∧ Meets r.openClaim running) ∧
    ∃ r, redForm (.vred 0 3 0 4 1 10 0) = some r ∧ ¬ r.isOpen ∧ Meets r.claim running := by
  refine ⟨⟨_, rfl, fun h => absurd h.1 (by decide), ready_of (by decide +kernel), some_of (by decide +kernel), ?_⟩,
    ⟨_, rfl, ⟨by decide, by decide, by decide⟩, ready_of (by decide +kernel), some_of (by decide +kernel), ?_⟩,
    _, rfl, fun h => absurd h.1 (by decide), ready_of (by decide +kernel), some_of (by decide +kernel), ?_⟩ <;> decide +kernel

/-- v1 = a control vector of two slices. -/
def sliced : State := withV [0x40000]

theorem witness_angles : Meets ((atanRow false 0 3 1 2 10 16).claim) running ∧ Meets (atanBxClaim false 0 3 1 2 32) running ∧
    Meets (sincosClaim false 0 4 1 2 0) running ∧ Meets (sincosClaim false 0 30 1 10 1) running := by
  refine ⟨⟨ready_of (by decide +kernel), some_of (by decide +kernel)⟩, ⟨ready_of (by decide +kernel), some_of (by decide +kernel)⟩,
    ⟨ready_of (by decide +kernel), some_of (by decide +kernel), by decide, .inr (by decide)⟩, ready_of (by decide +kernel), some_of (by decide +kernel),
    by decide, .inl (by decide)⟩

theorem witness_slices : Meets (splitClaim false 0 4 1 2 10) sliced ∧ Meets (splitClaim false 0 29 1 2 11) sliced ∧ Meets (expPassRow false 0 3 1 10).claim running ∧
    splitBad 0 10 1 = none ∧ splitBad 1 10 1 = some causeReserved ∧ splitBad 1 2 0 = some causeIllegal := by
  refine ⟨⟨ready_of (by decide +kernel), some_of (by decide +kernel), by decide +kernel, by decide +kernel, by decide +kernel, by decide +kernel⟩,
    ⟨ready_of (by decide +kernel), some_of (by decide +kernel), by decide +kernel, by decide +kernel, by decide +kernel, by decide +kernel⟩,
    ⟨ready_of (by decide +kernel), some_of (by decide +kernel)⟩, by decide, by decide, by decide⟩

theorem lanesFine_of {s : State} {n : Nat} {addr : Nat → Nat} (h : (List.range 128).all (fun i =>
    decide (addr i % n = 0) && decide (addr i + n ≤ 2 ^ 26) && !s.me.isPending false s.me.ident.core (addr i) n) = true) : s.lanesFine n addr := by
  intro i hi
  have := List.all_eq_true.mp h i (List.mem_range.mpr hi)
  simpa [and_assoc] using this

theorem witness_lanes : Meets (gatherClaim true false 0 3 1 2 10) (withV [64, 3]) ∧ Meets (scatterClaim false 0 3 1 2 1) (withV [64]) ∧
    Meets (aaddClaim false 0 3 1 2 10 0) (withV [0x40]) ∧ Meets (aaddXfClaim false 0 3 1 2) running := by
  refine ⟨⟨ready_of (by decide +kernel), by decide, some_of (by decide +kernel), lanesFine_of (by decide +kernel), by decide +kernel⟩,
    ⟨ready_of (by decide +kernel), by decide, some_of (by decide +kernel), lanesFine_of (by decide +kernel)⟩,
    ⟨ready_of (by decide +kernel), .inr (.inr (by decide)), some_of (by decide +kernel), lanesFine_of (by decide +kernel)⟩,
    ready_of (by decide +kernel), some_of (by decide +kernel), by decide +kernel⟩

/-! ### Streams -/

def patternBytes : List Byte := leBytes 8 0x1000 ++ leBytes 8 0 ++ leBytes 4 128 ++ leBytes 4 4 ++ leBytes 8 1 ++ leBytes 8 1 ++ leBytes 8 1 ++ leBytes 16 0
def directIn (buf : List VReg) : Stream := streamOf false false true 2 0 buf
def directOut (buf : List VReg) : Stream := streamOf true false true 2 0 buf

theorem witness_load_streams : RowMeets (loadEngineRow (.zstart 0 3)) (flowing [(3, { streamOf false false false 2 3 [] with st := .bound })]) ∧
    RowMeets (loadEngineRow (.zstop 0 3)) running ∧ RowMeets (loadEngineRow (.zskip 0 3 7)) (flowing [(3, streamOf false false false 2 7 [zeroVReg])]) := by
  refine ⟨⟨_, rfl, ready_of (by decide +kernel), ?_⟩, ⟨_, rfl, meets_plain (by decide +kernel)⟩, ⟨_, rfl, ready_of (by decide +kernel), ?_⟩⟩
  · exact ⟨by decide +kernel, by decide +kernel⟩
  · exact ⟨by decide, by decide +kernel, by decide +kernel⟩

theorem witness_zbind : RowMeets (loadEngineRow (.zbind 0 3 2 2)) (recorded running patternBytes) :=
  ⟨_, rfl, ready_of (by decide +kernel), ⟨patternBytes, (by decide +kernel : (recorded running patternBytes).me.record 64 64 64 = .ok patternBytes),
    by decide, by decide +kernel, by decide +kernel, by decide +kernel, by decide +kernel⟩, by decide +kernel⟩

theorem witness_vectors : RowMeets (loadEngineRow (.ldv 0 3 1 1)) ((flowing [(3, directIn [])]).onMe fun g => { g with cr := { g.cr with s := g.cr.s.set 1 0x3FFFC00 } }) ∧
    RowMeets (storeEngineRow (.stv 0 3 1 1)) ((flowing [(3, directOut [zeroVReg])]).onMe fun g => { g with cr := { g.cr with s := g.cr.s.set 1 0x3FFFC00 } }) := by
  refine ⟨⟨_, rfl, ready_of (by decide +kernel), ?_⟩, _, rfl, ready_of (by decide +kernel), ?_⟩
  · exact ⟨by decide +kernel, by decide +kernel, by decide +kernel, by decide +kernel, by decide +kernel, 0x3FFFE00, by decide +kernel, by decide, by decide,
      by decide +kernel⟩
  · exact ⟨by decide +kernel, by decide +kernel, by decide +kernel, by decide +kernel, 0x3FFFE00, by decide +kernel, by decide, by decide, by decide +kernel⟩

theorem witness_load_traps : (∃ y f, loadEngineTrap (.zstart 0 3) = some (y, f) ∧ f running = some causeQueueCfg) ∧
    (∃ y f, loadEngineTrap (.zskip 0 3 0) = some (y, f) ∧ f running = some causeBounds) ∧
    (∃ y f, loadEngineTrap (.ldv 0 3 1 1) = some (y, f) ∧ f (flowing [(3, streamOf false false false 2 7 [])]) = some causeQueueCfg) ∧ running.Ready .l 0 [] :=
  ⟨⟨_, _, rfl, by decide +kernel⟩, ⟨_, _, rfl, by decide +kernel⟩, ⟨_, _, rfl, by decide +kernel⟩, ready_of (by decide +kernel)⟩

theorem witness_fill : (fillClaim 3).pre (flowing [(3, streamOf false false false 2 7 [])]) ∧
    (drainClaim 3).pre (flowing [(3, streamOf true false false 2 7 [zeroVReg])]) := ⟨⟨by decide +kernel, by decide +kernel⟩, by decide +kernel, by decide +kernel⟩

theorem witness_store_streams : RowMeets (storeEngineRow (.zdrain 0 3)) (flowing [(3, { streamOf true false false 2 3 [] with st := .bound })]) ∧
    RowMeets (storeEngineRow (.samax 0 3 0 15 1)) running ∧ RowMeets (storeEngineRow (.nopS 0)) running ∧ RowMeets (storeEngineRow (.scvt 0 3 1 31 1)) running :=
  ⟨⟨_, rfl, ready_of (by decide +kernel), by decide +kernel, by decide +kernel⟩, ⟨_, rfl, meets_plain (by decide +kernel)⟩,
    ⟨_, rfl, meets_plain (by decide +kernel)⟩, _, rfl, meets_plain (by decide +kernel)⟩

theorem witness_vamaxr : Meets (vamaxrClaim 0 2 3 0 0) (withQueue .s .c [1, 2, 3, 4, 5, 6, 7]) ∧
    Meets (vamaxrClaim 0 2 3 1 4) ((withQueue .s .c []).onMe fun g => { g with queues := g.queues.set 4 ⟨some (.c, .s), [9], [[]], [[]]⟩ }) := by
  refine ⟨⟨ready_of (by decide +kernel), ⟨.c, by decide +kernel⟩, by decide +kernel, fun h => absurd h (by decide)⟩,
    ready_of (by decide +kernel), ⟨.c, by decide +kernel⟩, by decide +kernel, fun _ => ⟨⟨⟨.c, by decide +kernel⟩, by decide +kernel, by decide +kernel⟩, ?_⟩⟩
  intro z n h
  revert z n
  decide +kernel

/-- The seven streams of a SUPD, with a vector in each input. -/
def updating (n : Nat) (x : Option Supd) : State :=
  (flowing ((List.range 4).map (fun i => (BitVec.ofNat 4 (9 + i), streamOf false false false (if i = 0 then 6 else 10) n [zeroVReg])) ++
    (List.range 3).map (fun i => (BitVec.ofNat 4 (13 + i), streamOf true false false (if i = 0 then 6 else 10) n [])))).onMe fun g => { g with vr := { g.vr with supd := x } }

theorem witness_supd : Meets (supdClaim 0 9 4095 ⟨4094, []⟩) (updating 4095 (some ⟨4094, []⟩)) ∧ (updating 5 (some ⟨3, []⟩)).updateReady 9 ∧
    (updating 5 none).me.supdCheck 9 5 = .ok () ∧ (∀ i, i < 7 → ((updating 5 none).supdZ 9 i).st ≠ .unbound) := by
  refine ⟨⟨ready_of (by decide +kernel), by decide +kernel, by decide, by decide, ?_⟩, ⟨by decide, ?_⟩, by decide +kernel, by decide +kernel⟩ <;> decide +kernel

def pairBytes : List Byte := leBytes 4 0x1000 ++ leBytes 4 0x4000 ++ leBytes 4 0x8000 ++ leBytes 1 2 ++ leBytes 19 0
def pairing (pend : List PendMark) : State :=
  (recorded running pairBytes).onMe fun g =>
    { g with
      queues := g.queues.set 4 ⟨some (.c, .s), [64], [[]], [[]]⟩, work := { g.work with pend := pend }, sys := { g.sys with corectl := 2 } }

theorem witness_spair : Meets (spairClaim 0 4 pairBytes) (pairing []) ∧ (pairing [⟨false, 3, 0x8000, 0x8008, .job 1, 0⟩]).me.isPending false 3 0x8000 (320 + 128 * 3) = true := by
  refine ⟨⟨ready_of (by decide +kernel), ⟨⟨.c, by decide +kernel⟩, by decide +kernel, by decide +kernel⟩, ⟨64, [], by decide +kernel, by decide +kernel⟩, ?_⟩, by decide +kernel⟩
  decide +kernel

/-! ### The mesh -/

/-- The running group with mesh operations and batches. -/
def meshed (ops : List MeshOp) (bs : List Batch) : State :=
  running.onMe fun g => { g with mesh := { g.mesh with ops := ops, nextOp := 9, batches := bs, nextBatch := 9 } }

def meshOpOf (id ms : Nat) (k : MeshKind) : MeshOp :=
  { id := id, ms := ms, mseq := 1, kind := k, next := 0, pair := 0, seg := 0, rows := [], gidx := [], sidx := [], panel := none, inside := [] }

/-- A queue of M, and a queue for M to push to. -/
def queuesM (s : State) : State := s.onMe fun g => { g with queues := (g.queues.set 2 ⟨some (.m, .c), [1, 2, 3, 4, 5, 6, 7], [], []⟩).set 3 ⟨some (.c, .m), [64], [[]], [[]]⟩ }

theorem witness_mesh_words : RowMeets (meshRow (.nopM 0)) running ∧ RowMeets (meshRow (.mscale 0 7 0 3)) (meshed (List.replicate 7 (meshOpOf 1 0 (.scale 0 0))) []) ∧
    RowMeets (meshRow (.mclrBank 0 7 3)) running ∧ RowMeets (meshRow (.mclrWindow 0 15 16 3)) running := by
  refine ⟨⟨_, rfl, meets_plain (by decide +kernel)⟩, ⟨_, rfl, ready_of (by decide +kernel), ?_⟩, ⟨_, rfl, ready_of (by decide +kernel), ?_⟩,
    _, rfl, ready_of (by decide +kernel), ?_⟩ <;> dsimp only [State.meshRoom] <;> decide +kernel

theorem witness_mesh_waits : RowMeets (meshRow (.mfence 0 5)) (meshed [meshOpOf 1 1 (.scale 0 0)] []) ∧ RowMeets (meshRow (.mwaitb 0 2)) (meshed [] [⟨1, some 3, []⟩]) ∧
    RowMeets (meshRow (.mnorm 0 2 0 1)) (queuesM (meshed [meshOpOf 1 1 (.scale 0 0)] [])) ∧
    RowMeets (meshRow (.mcommit 0 2)) (meshed [] [⟨1, some 3, []⟩, ⟨2, none, []⟩]) := by
  refine ⟨⟨_, rfl, ready_of (by decide +kernel), ?_⟩, ⟨_, rfl, ready_of (by decide +kernel), ?_⟩,
    ⟨_, rfl, ready_of (by decide +kernel), by decide +kernel, ⟨.c, by decide +kernel⟩, by decide +kernel⟩, _, rfl, ready_of (by decide +kernel), ?_⟩ <;>
    decide +kernel

/-- An image of one stage at scratchpad address 64. -/
def imaged : State := (queuesM running).onMe fun g => { g with store := { g.store with spad := [(64, 1)] } }

theorem witness_mload : RowMeets (meshRow (.mload 0 7 3 1 2)) imaged := by
  refine ⟨_, rfl, ready_of (by decide +kernel), ?_, fun h => ?_, 64, ⟨⟨⟨.c, by decide +kernel⟩, by decide +kernel, by decide +kernel⟩, by decide +kernel⟩,
    by decide, by decide, ?_⟩
  · show imaged.me.mesh.ops.length < 8
    decide +kernel
  · obtain ⟨_, o, ho, _⟩ := h
    have e : imaged.me.mesh.ops = [] := by decide +kernel
    exact absurd (e ▸ ho : o ∈ ([] : List MeshOp)) List.not_mem_nil
  · refine ⟨by decide +kernel, by decide +kernel, by decide +kernel, by decide +kernel, fun k h1 h2 => ?_, by decide +kernel, by decide +kernel⟩
    exact (by decide +kernel : ∀ k, k < 64 → 12 ≤ k → imaged.ownByte (64 + k) = 0) k h2 h1

theorem witness_mstore : RowMeets (meshRow (.mstore 0 3 7 2)) imaged := by
  refine ⟨_, rfl, ready_of (by decide +kernel), ?_, 64, ⟨⟨⟨.c, by decide +kernel⟩, by decide +kernel, by decide +kernel⟩, by decide +kernel⟩, by decide,
    by decide +kernel, by decide +kernel⟩
  show imaged.me.mesh.ops.length < 8
  decide +kernel

theorem witness_mstat : Meets (mstatClaim 0 2 1 3) (queuesM running) ∧ Meets (mstatClaim 0 2 0 5) (queuesM running) :=
  ⟨⟨ready_of (by decide +kernel), ⟨⟨.c, by decide +kernel⟩, by decide +kernel⟩, by decide, fun _ => by decide⟩,
    ready_of (by decide +kernel), ⟨⟨.c, by decide +kernel⟩, by decide +kernel⟩, by decide, fun h => absurd h (by decide)⟩

theorem witness_mesh_stalls : (∃ y p, meshStall (.mfence 0 2) = some (y, p) ∧ p (meshed [meshOpOf 1 1 (.scale 0 0)] [])) ∧
    (∃ y p, meshStall (.mscale 0 7 0 3) = some (y, p) ∧ p (meshed (List.replicate 8 (meshOpOf 1 0 (.scale 0 0))) [])) ∧
    (∃ y p, meshStall (.mpanel 0 3 1) = some (y, p) ∧ p running) ∧
    (∃ y f, meshTrap (.mcommit 0 3) = some (y, f) ∧ f (meshed [] [⟨1, some 3, []⟩]) = some causeMeshCfg) ∧
    (∃ y f, meshTrap (.mstat 0 2 1 0) = some (y, f) ∧ f running = some causeIllegal) ∧ running.Ready .m 0 [] :=
  ⟨⟨_, _, rfl, meshOpOf 1 1 (.scale 0 0), by decide +kernel, by decide, by decide⟩, ⟨_, _, rfl, by decide +kernel⟩, ⟨_, _, rfl, by decide +kernel⟩,
    ⟨_, _, rfl, by decide +kernel⟩, ⟨_, _, rfl, by decide +kernel⟩, ready_of (by decide +kernel)⟩

/-- Streams of BX32 lanes: a source with vectors and a destination. -/
def sweeping : State := flowing [(3, streamOf false true false 2 2 [zeroVReg]), (5, streamOf true true false 2 2 [])]

theorem witness_sweep : RowMeets (sweepRow (.msweep 0 5 3 7 1 1 0 0 1)) sweeping ∧ RowMeets (sweepRow (.mderive 0 5 3 7 1 1)) sweeping := by
  refine ⟨⟨_, rfl, ready_of (by decide +kernel), ?_⟩, _, rfl, ready_of (by decide +kernel), ?_⟩ <;>
    dsimp only [State.sweepOk, State.profileOk, Stream.rotates, Stream.rotated, Stream.indexes, Stream.forM, State.destRoom, State.meshRoom] <;> decide +kernel

/-- A gather index and a scatter index of 128 elements each. -/
def gathering : State := flowing [(3, { streamOf false true false 2 2 [] with st := .bound }), (4, streamOf false false false 6 1 []),
  (5, { streamOf true true false 2 2 [] with st := .bound }), (6, streamOf false false false 6 1 [])]

theorem witness_gather : RowMeets (sweepRow (.msweep 0 5 3 7 1 1 1 1 0)) gathering := by
  refine ⟨_, rfl, ready_of (by decide +kernel), ?_⟩
  dsimp only [State.sweepOk, State.profileOk, Stream.rotates, Stream.rotated, Stream.indexes, Stream.forM, State.destRoom, State.meshRoom]
  decide +kernel

/-- A header of a panel of one slice and one row, and its row. -/
def headVec : VReg := ⟨(Vector.replicate 128 0).set 0 0x20000, 0⟩
def paneled : State := flowing [(3, streamOf false false false 2 2 [headVec])]

theorem witness_panel : Meets (mpanelClaim 0 3 1 1) paneled := by
  refine ⟨ready_of (by decide +kernel), ?_⟩
  dsimp only [mpanelClaim, Stream.slices, Stream.forM, State.meshRoom]
  decide +kernel

/-- A panel header of one slice and one row has been issued; a stream with the two vectors of a row of A. -/
def slicing : State := (flowing [(3, streamOf false false false 2 2 [])]).onMe fun g => { g with mesh := { g.mesh with head := some ⟨1, 1⟩ } }

theorem witness_slice : Meets (msliceClaim 0 0 3 1 0 2 1 1 1 ⟨1, 1⟩) slicing := by
  refine ⟨ready_of (by decide +kernel), ?_⟩
  dsimp only [msliceClaim, State.profileOk, Stream.slices, Stream.forM, State.meshRoom]
  decide +kernel

/-- A window whose header reads one slice, a triangle of pairs and one row, and a stream of doubles. -/
def retiring : State := (flowing [(3, streamOf true false false 11 2 [])]).onMe fun g => { g with store := { g.store with acc := [(0, 0x11)] } }

theorem witness_retire : Meets (mretireClaim 0 3 0 1 0 2 1 true false 1) retiring := by
  refine ⟨ready_of (by decide +kernel), ?_⟩
  dsimp only [mretireClaim, State.profileOk, State.destRoom, State.meshRoom]
  decide +kernel

theorem witness_mesh_ops : (opCompleteClaim 1 (meshOpOf 1 0 (.clrBank 7))).pre (meshed [meshOpOf 1 0 (.clrBank 7)] []) ∧
    (opCompleteClaim 1 (meshOpOf 1 0 (.slice 0 3 1 false 0 1 1 1 false))).pre (meshed [meshOpOf 1 0 (.slice 0 3 1 false 0 1 1 1 false)] []) ∧
    (segmentClaim 1 { meshOpOf 1 0 (.sweep 5 3 7 false false true 4 false) with seg := 1 }).pre
      (meshed [{ meshOpOf 1 0 (.sweep 5 3 7 false false true 4 false) with seg := 1 }] []) :=
  ⟨⟨rfl, ⟨by decide +kernel, by decide +kernel, by decide +kernel⟩, (by decide : 7 < 8)⟩, ⟨rfl, ⟨by decide +kernel, by decide +kernel, by decide +kernel⟩, rfl⟩,
    rfl, ⟨by decide +kernel, by decide +kernel, by decide +kernel⟩, rfl⟩

/-- A sweep with its last vector to come. -/
def lastVector : MeshOp := { meshOpOf 1 0 (.sweep 5 3 7 false false true 2 false) with next := 1, seg := 4095 }

theorem witness_mesh_vector : (sweepVectorClaim 1 lastVector 5 3 7 true 2 zeroVReg []).pre
    (sweeping.onMe fun g => { g with mesh := { g.mesh with ops := [lastVector] } }) := by
  dsimp only [sweepVectorClaim, Stream.rotates, Stream.rotated, Stream.forM]
  refine ⟨rfl, ⟨by decide +kernel, by decide +kernel, by decide +kernel⟩, rfl, ?_⟩
  decide +kernel

/-- A slice step of one row and one pair, its row taken, its panel in the grid. -/
def panelOf : Panel := ⟨1, 1, List.replicate 128 0, [List.replicate 128 3]⟩
def onePair : MeshOp := { meshOpOf 1 0 (.slice 0 3 1 false 1 1 1 1 false) with rows := [[0], [2]], panel := some panelOf }

theorem witness_mesh_pair : (slicePairClaim 1 onePair panelOf 0 3 1 false 1 1 1 1 false 1 1).pre (meshed [onePair] []) := by
  refine ⟨rfl, ⟨by decide +kernel, by decide +kernel, by decide +kernel⟩, rfl, rfl, by decide, by decide, by decide, fun q l hl => ?_⟩
  have h : ∀ l ∈ panelOf.rows, l.length = 128 := by decide +kernel
  refine h l ?_
  unfold Panel.plane at hl
  split at hl
  · exact List.mem_of_mem_drop (List.mem_of_mem_take hl)
  · exact absurd hl List.not_mem_nil

theorem witness_writeBack : (writeBackClaim ⟨1, some 3, []⟩ [⟨2, none, []⟩]).pre (meshed [] [⟨1, some 3, []⟩, ⟨2, none, []⟩]) :=
  ⟨by decide +kernel, rfl, by decide, by decide, fun _ h => nomatch h⟩
/-! ### Commands of the host -/

/-- A command is accepted, as a test. -/
def isRung (s : State) (c : CmdClaim) : Bool :=
  s.boot.ready && (!s.isOwn c.cmd || hbmPresent s.part (paLocal c.cmd) 64) && !s.recordMissing c.cmd && s.fe.bells.isEmpty &&
    recField (s.cmdBytes c.cmd) 0 1 == c.op && (decide (c.cmd % 64 = 0) == c.aligned)

/-- The hypotheses of a claim about a command are met. -/
def CmdMeets (c : CmdClaim) (s : State) : Prop :=
  s.Rung c.bell c.op c.cmd ∧ (c.cmd % 64 = 0 ↔ c.aligned = true) ∧ c.pre (s.cmdBytes c.cmd) s.rung

theorem meets_cmd {c : CmdClaim} {s : State} (h : isRung s c = true) (hp : c.pre (s.cmdBytes c.cmd) s.rung) : CmdMeets c s := by
  simp only [isRung, Bool.and_eq_true, beq_iff_eq, Bool.or_eq_true, Bool.not_eq_true'] at h
  obtain ⟨⟨⟨⟨⟨h1, h2⟩, h3⟩, h4⟩, h5⟩, h6⟩ := h
  exact ⟨⟨h1, fun ho => h2.resolve_left fun hn => by rw [ho] at hn; exact Bool.noConfusion hn, h3, .inl (List.isEmpty_iff.mp h4), h5⟩,
    by rw [← h6]; simp, hp⟩

/-- Claim `n` of a list, with a state that meets it. -/
def NthMeets (l : List CmdClaim) (n : Nat) (s : State) : Prop := ∃ c, l[n]? = some c ∧ CmdMeets c s

/-- A command record at 0x900000 of module 5: OP, context, and its bytes from 4 on. -/
def recordAt : BitVec 52 := 0x140000900000
def rings (s : State) (op ctx flags : Nat) (bs : List Byte) : State :=
  { s with mem := { s.mem with hbm := memPut s.mem.hbm 0x900000 ([BitVec.ofNat 8 op, 0, BitVec.ofNat 8 ctx, BitVec.ofNat 8 flags] ++ bs) } }

/-- Bytes of this module's memory besides. -/
def inHbm (s : State) (a : Nat) (bs : List Byte) : State := { s with mem := { s.mem with hbm := memPut s.mem.hbm a bs } }

/-- A root RCB at 0x901000, whose tables, notification queue and trace ring lie in module 5. -/
def rootBytes : List Byte :=
  leBytes 64 0 ++ leBytes 8 0x140000010000 ++ leBytes 8 0x140000902000 ++ leBytes 4 64 ++ leBytes 2 0 ++ leBytes 2 100 ++ leBytes 2 4 ++
    leBytes 2 100 ++ leBytes 2 1 ++ leBytes 2 0 ++ leBytes 8 0x140001000000 ++ leBytes 1 24 ++ leBytes 23 0
def rcbOne : Rcb := ⟨0x140000901000, 0, 0, 0, true, 0, true, true, true, 0, 0, 0, 0, true⟩
def rooted : State := withCtx running fun c => { c with rcbs := [rcbOne] }

theorem witness_create :
    NthMeets (ctxCommands (.create recordAt)) 0 (rings (inHbm running 0x901000 rootBytes) 1 2 0 (leBytes 4 0 ++ leBytes 8 0x140000901000)) ∧
    NthMeets (ctxCommands (.create recordAt)) 2 (rings running 1 2 0 (leBytes 4 0 ++ leBytes 8 0x140000901000)) ∧
    NthMeets (ctxCommands (.create recordAt)) 4 (rings running 1 2 1 []) := by
  refine ⟨⟨_, rfl, meets_cmd (by decide +kernel) ?_⟩, ⟨_, rfl, meets_cmd (by decide +kernel) ?_⟩, _, rfl, meets_cmd (by decide +kernel) ?_⟩ <;>
    dsimp only [ctxWell, refusal] <;> decide +kernel

theorem witness_destroy : NthMeets (ctxCommands (.destroy recordAt)) 0 (rings running 2 1 0 []) ∧
    NthMeets (ctxCommands (.destroy recordAt)) 3 (rings running 2 2 0 []) := by
  refine ⟨⟨_, rfl, meets_cmd (by decide +kernel) ⟨by dsimp only [ctxWell]; decide +kernel, context, by decide +kernel, .inl rfl⟩⟩,
    _, rfl, meets_cmd (by decide +kernel) ?_⟩
  dsimp only [ctxWell, refusal]
  decide +kernel

theorem witness_replenish : NthMeets (ctxCommands (.replenish recordAt)) 0 (rings rooted 3 1 0 (leBytes 4 0 ++ leBytes 8 0x140000901000)) ∧
    NthMeets (ctxCommands (.ctxRead recordAt)) 0 (rings running 4 1 0 (leBytes 4 0 ++ leBytes 8 0x140000908000)) := by
  refine ⟨⟨_, rfl, meets_cmd (by decide +kernel) ⟨by dsimp only [ctxWell]; decide +kernel, by decide +kernel,
      ⟨{ context with rcbs := [rcbOne] }, by decide +kernel, by decide, by decide⟩, { context with rcbs := [rcbOne] }, by decide +kernel,
      rcbOne, by decide, by decide +kernel⟩⟩,
    _, rfl, meets_cmd (by decide +kernel) ?_⟩
  dsimp only [ctxWell, State.reportable]
  decide +kernel
/-- A queue of context 1 with nothing in it, and queue 3 of the module. -/
def queueOf (st : QueueSt) : HQueue :=
  { ctx := 1, st := st, ring := 0x140000A00000, logn := 4, ordered := true, crep := false, rid := 0, hangms := 0, cring := 0, clog := 0
    head := 0, done := 0, entries := [], ccount := 0, fault := 0, failed := 0, bad := [], deficit := 0, readySince := none }
def queued (h : HQueue) (s : State) : State := { s with fe := { s.fe with queues := [(3, h)] } }

/-- The control record of a ring of 16 entries. -/
def controlBytes : List Byte := leBytes 8 0x140000A00000 ++ leBytes 1 4 ++ leBytes 55 0

theorem witness_enable :
    NthMeets (queueCommands (.enable recordAt)) 0
      (rings (inHbm rooted 0x908000 controlBytes) 1 1 0 (leBytes 4 3 ++ leBytes 8 0x140000908000)) ∧
    NthMeets (queueCommands (.enable recordAt)) 2 (rings running 1 1 0 (leBytes 4 3 ++ leBytes 8 0x140000908000)) := by
  refine ⟨⟨_, rfl, meets_cmd (by decide +kernel) ⟨⟨{ context with rcbs := [rcbOne] },
      ⟨by dsimp only [queueWell]; decide +kernel, by decide +kernel, by decide +kernel, by decide +kernel⟩, rfl⟩, by decide +kernel, by decide +kernel,
      by decide +kernel, by decide +kernel⟩⟩, _, rfl, meets_cmd (by decide +kernel)
      ⟨context, ⟨by dsimp only [queueWell]; decide +kernel, by decide +kernel, by decide +kernel, by decide +kernel⟩, rfl, by decide +kernel, .inr (.inl (by decide +kernel))⟩⟩

theorem witness_disable : NthMeets (queueCommands (.disable recordAt)) 0 (rings (queued (queueOf .active) running) 2 1 0 (leBytes 4 3)) ∧
    NthMeets (queueCommands (.disable recordAt)) 4 (rings running 2 1 0 (leBytes 4 10)) := by
  refine ⟨⟨_, rfl, meets_cmd (by decide +kernel) ⟨⟨context, by dsimp only [queueWell]; decide +kernel, by decide +kernel, by decide +kernel, by decide +kernel⟩,
      fun h hq => ?_⟩⟩, _, rfl, meets_cmd (by decide +kernel) ⟨by dsimp only [queueWell]; decide +kernel, context, by decide +kernel, .inr (by decide +kernel)⟩⟩
  have e : queueOf .active = h := Option.some.inj ((by decide +kernel : some (queueOf .active) = _).trans hq)
  subst e
  exact ⟨by decide, fun _ h => absurd h List.not_mem_nil⟩

theorem witness_resume : NthMeets (queueCommands (.resume recordAt)) 0 (rings (queued (queueOf .frozen) running) 3 1 0 (leBytes 4 3)) ∧
    NthMeets (queueCommands (.flush recordAt)) 0 (rings (queued (queueOf .frozen) running) 4 1 0 (leBytes 4 3)) ∧
    NthMeets (queueCommands (.queueRead recordAt)) 0
      (rings (queued (queueOf .active) running) 5 1 0 (leBytes 4 3 ++ leBytes 8 0x140000908000)) := by
  refine ⟨⟨_, rfl, meets_cmd (by decide +kernel) ⟨⟨context, ⟨by dsimp only [queueWell]; decide +kernel, by decide +kernel, by decide +kernel, by decide +kernel⟩, rfl⟩,
      queueOf .frozen, by decide +kernel, rfl⟩⟩,
    ⟨_, rfl, meets_cmd (by decide +kernel) ⟨⟨context, ⟨by dsimp only [queueWell]; decide +kernel, by decide +kernel, by decide +kernel, by decide +kernel⟩, rfl⟩,
      queueOf .frozen, by decide +kernel, rfl⟩⟩,
    _, rfl, meets_cmd (by decide +kernel) ⟨⟨context, by dsimp only [queueWell]; decide +kernel, by decide +kernel, by decide +kernel, by decide +kernel⟩,
      fun _ => by decide +kernel⟩⟩

/-- A barrier of scope chip at home in module 5, for a context's barrier 7, and its command. -/
def barrierOf (broken : Bool) (es : List Episode) : Barrier :=
  { scope := 2, pcount := 2, home := 5, ndom := 0, wbase := 0, wlen := 0, peers := 0, xmargin := 0, broken := broken, episodes := es
    opened := 1, unanswered := 0, late := 0 }
def withBar (b : Barrier) : State := withCtx running fun c => { c with bars := [(7, b)] }
def barBytes : List Byte := leBytes 4 7 ++ leBytes 4 2 ++ leBytes 2 5 ++ leBytes 34 0

theorem witness_barrier_commands :
    NthMeets (barCommands (.configure recordAt)) 0 (rings running 1 1 2 barBytes) ∧
    NthMeets (barCommands (.remove recordAt)) 0 (rings running 2 1 2 barBytes) ∧
    NthMeets (barCommands (.barrierReset recordAt)) 0 (rings running 3 1 2 barBytes) ∧
    NthMeets (barCommands (.configure recordAt)) 3 (rings running 1 1 0 barBytes) := by
  refine ⟨⟨_, rfl, meets_cmd (by decide +kernel) ⟨⟨by dsimp only [barWell]; decide +kernel, by dsimp only [configWell, watchWell]; decide +kernel, context,
      by decide +kernel, rfl⟩, by decide +kernel, fun ⟨k, hk, h⟩ => ?_⟩⟩,
    ⟨_, rfl, meets_cmd (by decide +kernel) ⟨⟨by dsimp only [barWell]; decide +kernel, by dsimp only [configWell, watchWell]; decide +kernel, context,
      by decide +kernel, rfl⟩, fun b hb => (Option.some_ne_none _ (hb.symm.trans (by decide +kernel : _ = none))).elim⟩⟩,
    ⟨_, rfl, meets_cmd (by decide +kernel) ⟨⟨by dsimp only [barWell]; decide +kernel, by dsimp only [configWell, watchWell]; decide +kernel, context,
      by decide +kernel, rfl⟩, by decide +kernel⟩⟩,
    _, rfl, meets_cmd (by decide +kernel) (.inr (by dsimp only [configWell, watchWell]; decide +kernel))⟩
  have e : context = k := Option.some.inj ((by decide +kernel : some context = _).trans hk)
  subst e
  obtain ⟨b, hb, _⟩ := h
  exact absurd hb List.not_mem_nil

theorem witness_barrier_reset :
    NthMeets (barCommands (.barrierReset recordAt)) 1 (rings (withBar (barrierOf true [])) 3 1 2 barBytes) ∧
    NthMeets (barCommands (.barrierReset recordAt)) 2 (rings (withBar (barrierOf false [])) 3 1 2 barBytes) ∧
    NthMeets (barCommands (.barrierRead recordAt)) 0 (rings (withBar (barrierOf false [])) 4 1 2 (barBytes ++ leBytes 8 0x140000908000)) := by
  refine ⟨⟨_, rfl, meets_cmd (by decide +kernel) ⟨⟨by dsimp only [barWell]; decide +kernel, by dsimp only [configWell, watchWell]; decide +kernel,
      { context with bars := [(7, barrierOf true [])] }, by decide +kernel, rfl⟩, ⟨barrierOf true [], by decide +kernel, rfl⟩, by decide +kernel⟩⟩,
    ⟨_, rfl, meets_cmd (by decide +kernel) ⟨⟨by dsimp only [barWell]; decide +kernel, by dsimp only [configWell, watchWell]; decide +kernel,
      { context with bars := [(7, barrierOf false [])] }, by decide +kernel, rfl⟩, ⟨barrierOf false [], by decide +kernel, rfl⟩, by decide +kernel⟩⟩,
    _, rfl, meets_cmd (by decide +kernel) ⟨⟨by dsimp only [barWell]; decide +kernel, by dsimp only [configWell, watchWell]; decide +kernel,
      { context with bars := [(7, barrierOf false [])] }, by decide +kernel, rfl⟩, fun _ => by decide +kernel⟩⟩

/-- Commands that wait behind another, whose record lies in module 7, or is not aligned, or has an OP that is none. -/
theorem witness_commands : CmdMeets (badCommand .ctx 5 recordAt) (rings running 5 0 0 []) ∧
    CmdMeets (misplaced .queue 3 0x140000900020) (inHbm running 0x900020 [3]) ∧ commandOf (.resume 0x140000900020) = some (.queue, 3, 0x140000900020) ∧
    running.recordMissing (7 * 2 ^ 42) = true ∧ running.boot.ready = true ∧
    ({ running with fe := { running.fe with bells := [(.ctx, 64)] } } : State).fe.bells.head? ≠ some (.queue, recordAt.toNat) ∧
    recField ((rings running 3 1 0 []).cmdBytes recordAt.toNat) 0 1 = 3 := by
  refine ⟨meets_cmd (by decide +kernel) trivial, meets_cmd (by decide +kernel) trivial, rfl, by decide +kernel, by decide +kernel, by decide +kernel, by decide +kernel⟩
theorem linkWell_of {r : List Byte} (h : (linkCmd r).ok = true) : linkWell r := h

theorem witness_qp : NthMeets (linkCommands (.qpopen recordAt)) 0 (rings running 1 1 0xFF (leBytes 4 9)) ∧
    NthMeets (linkCommands (.qpclose recordAt)) 0 (rings (withPair running) 2 0 0 []) ∧
    NthMeets (linkCommands (.qpread recordAt)) 0 (rings (withPair running) 3 0 0 (leBytes 36 0 ++ leBytes 8 0x140000908000)) ∧
    NthMeets (linkCommands (.qpopen recordAt)) 1 (rings running 1 2 0xFF (leBytes 4 9)) ∧
    NthMeets (linkCommands (.qpopen recordAt)) 4 (rings running 1 1 0xFF (leBytes 4 0x1000)) := by
  refine ⟨⟨_, rfl, meets_cmd (by decide +kernel) ⟨⟨linkWell_of (by decide +kernel), context, by decide +kernel, rfl⟩,
      ⟨fun h => absurd h (by decide +kernel), .inl (by decide +kernel)⟩, fun q hq => (Option.some_ne_none _ (hq.symm.trans (by decide +kernel : _ = none))).elim⟩⟩,
    ⟨_, rfl, meets_cmd (by decide +kernel) (linkWell_of (by decide +kernel))⟩,
    ⟨_, rfl, meets_cmd (by decide +kernel) ⟨linkWell_of (by decide +kernel), fun _ => by decide +kernel⟩⟩,
    ⟨_, rfl, meets_cmd (by decide +kernel) ⟨linkWell_of (by decide +kernel), fun k hk =>
      (Option.some_ne_none _ (hk.symm.trans (by decide +kernel : _ = none))).elim⟩⟩,
    _, rfl, meets_cmd (by decide +kernel) (by dsimp only [linkRefusal, refusal, linkWell]; decide +kernel)⟩

/-- The smaller part, without an Ethernet port. -/
def smaller : State := { running with part := .lq96, links := { running.links with ports := running.links.ports.filter fun (p : Port) => p.num < 24 } }

theorem witness_port_commands :
    NthMeets (linkCommands (.portfence recordAt)) 0 (rings running 4 0 3 []) ∧
    NthMeets (linkCommands (.portfence recordAt)) 1 (rings smaller 4 0 32 []) ∧
    NthMeets (linkCommands (.portread recordAt)) 0 (rings running 7 0 0 (leBytes 36 0 ++ leBytes 8 0x140000908000)) ∧
    NthMeets (linkCommands (.route recordAt)) 0 (rings running 6 0 0 (leBytes 2 639 ++ leBytes 26 0 ++ leBytes 4 0xFFFFFF)) ∧
    NthMeets (linkCommands (.timecfg recordAt)) 0 (rings running 8 0 0 []) := by
  refine ⟨⟨_, rfl, meets_cmd (by decide +kernel) ?_⟩, ⟨_, rfl, meets_cmd (by decide +kernel) ?_⟩, ⟨_, rfl, meets_cmd (by decide +kernel) ?_⟩,
    ⟨_, rfl, meets_cmd (by decide +kernel) ?_⟩, _, rfl, meets_cmd (by decide +kernel) ?_⟩ <;>
    dsimp only [linkWell, State.reportable, refusal] <;> decide +kernel

/-- Port 3 UP, and FENCED. -/
def portIn (st : PortSt) : State :=
  { running with links := { running.links with ports := running.links.ports.map fun (p : Port) => { p with st := st } } }

theorem witness_unfence : NthMeets (linkCommands (.portunfence recordAt)) 0 (rings (portIn .up) 5 0 3 []) ∧
    NthMeets (linkCommands (.portunfence recordAt)) 1 (rings (portIn .fenced) 5 0 3 []) :=
  ⟨⟨_, rfl, meets_cmd (by decide +kernel) ⟨by dsimp only [linkWell]; decide +kernel, ((portIn .up).port 3).getD (Port.atReset 0), by decide +kernel, by decide +kernel,
      by decide +kernel⟩⟩,
    _, rfl, meets_cmd (by decide +kernel) ⟨by dsimp only [linkWell]; decide +kernel, ((portIn .fenced).port 3).getD (Port.atReset 0), by decide +kernel,
      .inl (by decide +kernel)⟩⟩

/-- The pages of the list for page commands, with the lease agent and a region that HBM is charged to. -/
def paging : State :=
  let s := paged 0 0 []
  withCtx s fun c => { c with rcbs := [{ rcbOne with ovh := false, rid := 0 }] }

/-- The bytes of a page command from CTR on. -/
def pageBytes (va frame : Nat) : List Byte := leBytes 4 0 ++ leBytes 8 va ++ leBytes 8 0 ++ leBytes 8 frame ++ leBytes 32 0

/-- A page that is held. -/
def holding (j : Nat) : State := { paging with pages := { paging.pages with pinnedHold := [⟨1, 0x10000 * j⟩] } }
def lending : State := { paging with pages := { paging.pages with leases := [⟨1, 0x90000, 5 * 2 ^ 42 + 0x150000, 0x10000, none, none, false, false⟩] } }

theorem witness_migrate :
    NthMeets (pageCommands (.migrate recordAt)) 0 (rings paging 1 1 0 (pageBytes 0 0x140000700000)) ∧
    NthMeets (pageCommands (.duplicate recordAt)) 0 (rings paging 2 1 0 (pageBytes 0x10000 0x140000700000)) ∧
    NthMeets (pageCommands (.migrate recordAt)) 1 (rings paging 1 1 0 (pageBytes 0x20000 0x140000700000)) := by
  refine ⟨⟨_, rfl, meets_cmd (by decide +kernel) ?_⟩, ⟨_, rfl, meets_cmd (by decide +kernel) ?_⟩, _, rfl, meets_cmd (by decide +kernel) ?_⟩ <;>
    dsimp only [pageClaim, State.pagePasses, pageRefusals] <;> decide +kernel

theorem witness_hold :
    NthMeets (pageCommands (.hold recordAt)) 0 (rings paging 3 1 0 (pageBytes 0 0)) ∧
    NthMeets (pageCommands (.unhold recordAt)) 0 (rings (holding 7) 4 1 0 (pageBytes 0x70000 0)) ∧
    NthMeets (pageCommands (.unmap recordAt)) 0 (rings paging 5 1 0 (pageBytes 0 0)) ∧
    NthMeets (pageCommands (.zerocnt recordAt)) 0 (rings paging 6 1 0 (pageBytes 0 0)) := by
  refine ⟨⟨_, rfl, meets_cmd (by decide +kernel) ?_⟩, ⟨_, rfl, meets_cmd (by decide +kernel) ?_⟩, ⟨_, rfl, meets_cmd (by decide +kernel) ?_⟩,
    _, rfl, meets_cmd (by decide +kernel) ?_⟩ <;> dsimp only [pageClaim, State.pagePasses] <;> decide +kernel

theorem witness_lend :
    NthMeets (pageCommands (.lend recordAt)) 0 (rings paging 7 1 0 (pageBytes 0 0)) ∧
    NthMeets (pageCommands (.borrow recordAt)) 0 (rings paging 8 1 0 (pageBytes 0xB0000 7)) ∧
    NthMeets (pageCommands (.revoke recordAt)) 0 (rings lending 9 1 2 (pageBytes 0x90000 0)) ∧
    NthMeets (pageCommands (.revoke recordAt)) 1 (rings paging 9 1 0 (pageBytes 0x90000 0)) := by
  refine ⟨⟨_, rfl, meets_cmd (by decide +kernel) ?_⟩, ⟨_, rfl, meets_cmd (by decide +kernel) ?_⟩, ⟨_, rfl, meets_cmd (by decide +kernel) ?_⟩,
    _, rfl, meets_cmd (by decide +kernel) ?_⟩ <;> dsimp only [pageClaim, State.pagePasses] <;> decide +kernel

/-- Sixteen page commands are in progress. -/
theorem witness_page_wait : NthMeets (pageCommands (.zerocnt recordAt)) 2
    (rings { paging with pages := { paging.pages with ops := List.replicate 16 ⟨0, 1, 1, 0, 0, false, 0, 0, 0⟩ } } 6 1 0 (pageBytes 0 0)) := by
  refine ⟨_, rfl, meets_cmd (by decide +kernel) ?_⟩
  dsimp only [pageClaim, State.pagePasses]
  decide +kernel
/-! ### Events of groups, queues and contexts -/

/-- The module with a debugger. -/
def debugged (s : State) : State := { s with host := { s.host with debugger := true } }

theorem witness_arrival : let f : InFlight := { fixedFlight (.s 5) (.word 9) 100 with arrived := false, late := true }
    (arrivalClaim 0 .c 0 f).pre (running.onEng .c fun x => { x with flight := [f] }) :=
  ⟨rfl, rfl, rfl, rfl, rfl⟩

theorem witness_interrupt : interruptClaim.pre (handled.onMe fun g => { g with work := { g.work with irq := true } }) ∧
    debugStopClaim.pre (debugged running) ∧ debugResumeClaim.pre (debugged (running.onMe fun g => { g with phase := .stopped })) :=
  ⟨⟨rfl, rfl, rfl, rfl⟩, ⟨rfl, .inl rfl⟩, rfl, rfl⟩

/-- Copies of 64 bytes within the scratchpad, and into another module's page; the H job of the sum. -/
def jobOf (st : JobSt) (k : JobKind) (prog : Nat) (data : List Byte) : Job :=
  { num := 1, kind := k, fl := true, flag := 5, foots := [], preds := [], before := [], seen := false, st := st, prog := prog, data := data
    after := [], addr := 0x40, buf := 0 }
def copying : JobKind := .copy 64 (.spad 3 0x1000) (.spad 3 0x4000)
def working (s : State) (j : Job) : State := s.onMe fun g => { g with work := { g.work with jobs := [j], lastJob := 1 } }
def dataOf : List Byte := List.replicate 64 7

theorem witness_jobs : (jobStartClaim 1 (jobOf .issued copying 0 []) (List.replicate 64 0)).pre (working running (jobOf .issued copying 0 [])) ∧
    (jobAskClaim 1 (jobOf .issued (.copy 64 (.virt 1 0x10000) (.spad 3 0x4000)) 0 [])).pre
      (working (paged 1 1 []) (jobOf .issued (.copy 64 (.virt 1 0x10000) (.spad 3 0x4000)) 0 [])) ∧
    (chunkClaim 1 (jobOf .running copying 0 dataOf) 64 0x4000 (.spad 3 0x1000)).pre (working running (jobOf .running copying 0 dataOf)) ∧
    (unitClaim 1 (jobOf .running copying 0 dataOf)).pre (working running (jobOf .running copying 0 dataOf)) ∧
    (jobCompleteClaim 1 (jobOf .running copying 64 dataOf)).pre (working running (jobOf .running copying 64 dataOf)) := by
  refine ⟨?_, ?_, ?_, ?_, ?_⟩ <;>
    dsimp only [jobStartClaim, jobAskClaim, chunkClaim, unitClaim, jobCompleteClaim, State.jobStarts, State.hasCore] <;> decide +kernel

/-- The sum of two words as an H job. -/
def folding : JobKind := foldOf.kind
def foldWork : HWork := ⟨sumRoutine, .fold, 5, false, 2, 0, 0, .spad 3 0x1000, none, .spad 3 0x5000⟩

theorem witness_element : (hElementClaim 1 (jobOf .running folding 0 []) foldWork ⟨none, some 0⟩).pre (withRoutine (working running (jobOf .running folding 0 []))) ∧
    (withRoutine running).hStep (jobOf .running folding 0 []) foldWork = .ok ⟨none, some 0⟩ ∧
    (withRoutine running).hWork (jobOf .running folding 0 []) = some foldWork := by
  refine ⟨⟨by decide +kernel, by decide +kernel, by decide +kernel, by decide +kernel, ?_⟩, ?_, by decide +kernel⟩
  · exact of_decide_eq_true (by decide +kernel)
  · exact of_decide_eq_true (by decide +kernel)

theorem witness_routine_fault : (routineFaultClaim 1 (jobOf .running folding 0 []) ⟨0, 0, 1⟩).pre (working handled (jobOf .running folding 0 [])) ∧
    (routineLostClaim 1 (jobOf .running folding 0 []) ⟨0, 0, 1⟩).pre
      ((working running (jobOf .running folding 0 [])).onMe fun g => { g with phase := .frozen }) := by
  dsimp only [routineFaultClaim, routineLostClaim, State.routineFaults]
  decide +kernel
/-- A slot whose entry is FIRING, on a pair whose port is UP. -/
def firing (f : Option Firing) (e : WEntry) : WSlot := { doneSlot with st := .firing, entry := e, firing := f }
def linked (x : WSlot) : State :=
  let s := withPair (slotted x)
  { s with links := { s.links with routes := [(7, 0xFFFFFF)], ports := s.links.ports.map fun (p : Port) => { p with st := .up, lanes := 8 } } }

/-- A PUT of 64 bytes from the scratchpad of group 0 of the slot's cluster, with RC. -/
def putEntry : WEntry := { signalEntry with kind := 0, rc := true, len := 64, lbase := 0xC000000000001000, rbase := 0x10000 }
def sentAt (resends : Nat) (isLocal : Bool) : Firing := ⟨3, 0, 100, 0, isLocal, 0, resends, []⟩
def later (s : State) : State := { s with time := { s.time with now := 100000 } }

theorem witness_firing_start : (signalStartClaim 1 5 (firing none signalEntry)).pre (linked (firing none signalEntry)) ∧
    (∃ l, (putStartClaim 1 5 (firing none putEntry) l).pre (linked (firing none putEntry))) ∧
    ∃ l, (firingFailClaim 1 5 (firing none signalEntry) l).pre (slotted (firing none signalEntry)) := by
  refine ⟨?_, ⟨(State.firingSource (linked (firing none putEntry)) 1 (firing none putEntry)).getD (.spad 0 0), ?_⟩, .absent, ?_⟩ <;>
    dsimp only [signalStartClaim, putStartClaim, firingFailClaim, State.firingAt] <;> decide +kernel

theorem witness_firing_send : ∃ u g, (firingSendClaim 1 5 (firing (some (sentAt 0 false)) signalEntry) (sentAt 0 false) pair 0 u g).pre
    (linked (firing (some (sentAt 0 false)) signalEntry)) :=
  ⟨_, _, by decide +kernel, rfl, rfl, rfl, by decide +kernel, by decide +kernel, rfl⟩

theorem witness_firing_late :
    (firingResendClaim 1 5 (firing (some (sentAt 2 true)) putEntry) (sentAt 2 true)).pre (later (linked (firing (some (sentAt 2 true)) putEntry))) ∧
    (firingLostClaim 1 5 (firing (some (sentAt 3 true)) putEntry) (sentAt 3 true)).pre (later (linked (firing (some (sentAt 3 true)) putEntry))) ∧
    (earlierLostClaim 1 5 { doneSlot with unacked := [sentAt 0 true] } (sentAt 0 true)).pre
      (later (linked { doneSlot with unacked := [sentAt 0 true] })) ∧
    (recordExpiryClaim 0 5 3 pair).pre (linked doneSlot) := by
  refine ⟨?_, ?_, ?_, ?_⟩ <;> dsimp only [firingResendClaim, firingLostClaim, earlierLostClaim, recordExpiryClaim, Firing.isLate] <;> decide +kernel

/-- A context that is FREEZING, and one that DRAINS and of which nothing is left. -/
theorem witness_context_ends : (frozenClaim 1 { context with st := .freezing }).pre (withCtx running fun c => { c with st := .freezing }) ∧
    (drainedClaim 2 { context with st := .draining, cmd := some 0x140000900000 }).pre
      { running with ctxs := [(2, { context with st := .draining, cmd := some 0x140000900000 })] } := by
  refine ⟨by dsimp only [frozenClaim]; decide +kernel, ⟨by decide +kernel, rfl, fun _ h => absurd h List.not_mem_nil, by decide +kernel, fun _ h => absurd h List.not_mem_nil,
    fun _ h => absurd h List.not_mem_nil, fun _ h => absurd h List.not_mem_nil⟩⟩
/-- The next entry that is taken, and the entry that is served, as tests. -/
theorem next_of {o : Option Next} {x : Next} (h : o.map (fun n => (n.h, n.c, n.r, n.dep)) = some (x.h, x.c, x.r, x.dep)) : o = some x := by
  cases o with
  | none => cases h
  | some n =>
    cases n
    cases x
    cases h
    rfl

/-- A pick is that entry of that queue, as a test. -/
def picks (o : Option (Nat × HQueue × Serve)) (q : Nat) (h : HQueue) (x : Next) : Bool :=
  match o with
  | some (q', h', .entry n) =>
    decide (q' = q) && decide (h' = h) && decide (n.h = x.h) && decide (n.c = x.c) && decide (n.r = x.r) && decide (n.dep = x.dep)
  | _ => false

theorem pick_of {o : Option (Nat × HQueue × Serve)} {q : Nat} {h : HQueue} {x : Next} (hp : picks o q h x = true) :
    o = some (q, h, .entry x) := by
  unfold picks at hp
  split at hp
  · simp only [Bool.and_eq_true, decide_eq_true_eq] at hp
    obtain ⟨⟨⟨⟨⟨rfl, rfl⟩, h1⟩, h2⟩, h3⟩, h4⟩ := hp
    rename_i n
    cases n
    cases x
    cases h1
    cases h2
    cases h3
    cases h4
    rfl
  · exact absurd hp (by decide)

/-- Queue 3 with one entry that has not been taken, over the pages of the list. -/
def posting (e : List Byte) : State := inHbm (inHbm (queued (queueOf .active) paging) 0xA00000 (leBytes 8 1)) 0xA00040 e
def pagingCtx : Context := { context with rcbs := [{ rcbOne with ovh := false }] }
def entry (typ : Nat) (body : List Byte) : List Byte := leBytes 1 typ ++ leBytes 15 0 ++ body ++ List.replicate (48 - body.length) 0
def nextOf (e : List Byte) (dep : DepSt) : Next := ⟨queueOf .active, pagingCtx, e, dep⟩

/-- A launch of four groups without images beyond its text, at the page of virtual address 0. -/
def kernelBytes : List Byte := leBytes 8 7 ++ leBytes 8 0x2000 ++ leBytes 4 32 ++ leBytes 2 0 ++ leBytes 1 1 ++ leBytes 23 0 ++ leBytes 2 0x8000 ++
  leBytes 38 0 ++ leBytes 2 0x8000 ++ leBytes 40 0
def launchEntry : List Byte := entry 1 (leBytes 8 0x400 ++ leBytes 8 0 ++ leBytes 4 4)
def launching : State := inHbm (posting launchEntry) 0x100400 kernelBytes

theorem witness_launch : (launchClaim 3 (nextOf launchEntry .met) launching.noteOverrun kernelBytes).pre launching := by
  refine ⟨next_of (by decide +kernel), by decide +kernel, rfl, by decide +kernel, rfl, ?_, by decide +kernel, ?_, by decide +kernel,
    fun _ h => absurd h List.not_mem_nil⟩ <;> decide +kernel

/-- A LAUNCH entry whose descriptor is at no address, and one with a descriptor of zeros. -/
theorem witness_launch_ends :
    (∃ c ∈ launchEnds 3 (nextOf (entry 1 []) .met) (posting (entry 1 [])).noteOverrun (posting (entry 1 [])) [], c.pre (posting (entry 1 []))) ∧
    ∃ c ∈ launchEnds 3 (nextOf launchEntry .met) (posting launchEntry) (posting launchEntry).noteOverrun (List.replicate 128 0), c.pre (posting launchEntry) :=
  ⟨⟨_, .tail _ (.head _), next_of (by decide +kernel), by decide +kernel, by decide, rfl, by decide +kernel, rfl⟩,
    _, .tail _ (.tail _ (.tail _ (.head _))), next_of (by decide +kernel), by decide +kernel, by decide, rfl, by decide +kernel, rfl, by decide +kernel,
    .inr (by decide +kernel)⟩

/-- The entry that is served: its queue is ready since time 0. -/
def readyQueue : HQueue := { queueOf .active with readySince := some 0 }
def servedOf (e : List Byte) (dep : DepSt) : Next := ⟨readyQueue, pagingCtx, e, dep⟩

theorem served {e : List Byte} {dep : DepSt} {t : Nat}
    (h : picks (posting e).noteOverrun.noteReady.pick 3 readyQueue (servedOf e dep) = true) (ht : (eHead e).typ = t) :
    (posting e).servedNext t 3 readyQueue (servedOf e dep) := ⟨rfl, pick_of h, ht⟩

/-- WAIT for a counter that is there and one that is not, SIGNAL, HOSTNOTE; a STEP of no mapped work entry; an entry that is not well formed. -/
theorem witness_entries :
    (∃ c ∈ entryClaims readyQueue (servedOf (entry 3 (leBytes 2 5)) .met) (.wait 3), c.pre (posting (entry 3 (leBytes 2 5)))) ∧
    (∃ c ∈ entryClaims readyQueue (servedOf (entry 3 (leBytes 8 5 ++ leBytes 8 1)) .met) (.wait 3), c.pre (posting (entry 3 (leBytes 8 5 ++ leBytes 8 1)))) ∧
    (∃ c ∈ entryClaims readyQueue (servedOf (entry 4 (leBytes 8 5 ++ leBytes 8 1)) .met) (.signalEntry 3), c.pre (posting (entry 4 (leBytes 8 5 ++ leBytes 8 1)))) ∧
    (∃ c ∈ entryClaims readyQueue (servedOf (entry 5 (leBytes 8 0x1000)) .met) (.hostnote 3), c.pre (posting (entry 5 (leBytes 8 0x1000)))) := by
  refine ⟨⟨_, .head _, served (by decide +kernel) (by decide +kernel), rfl, by decide +kernel, ?_⟩, ⟨_, .tail _ (.head _), served (by decide +kernel) (by decide +kernel), rfl, by decide +kernel, ?_⟩,
    ⟨_, .head _, served (by decide +kernel) (by decide +kernel), rfl, by decide +kernel, ?_⟩, _, .head _, served (by decide +kernel) (by decide +kernel), rfl, by decide +kernel, trivial⟩ <;> decide +kernel
theorem witness_step_entry : (∃ v ok, (stepClaim 3 readyQueue (servedOf (entry 2 (leBytes 8 0x400 ++ leBytes 2 1)) .met) signalBytes v ok).pre
      (inHbm (posting (entry 2 (leBytes 8 0x400 ++ leBytes 2 1))) 0x100400 signalBytes)) ∧
    (stepUnmappedClaim 3 readyQueue (servedOf (entry 2 (leBytes 8 0x10000000 ++ leBytes 2 1)) .met)).pre
      (posting (entry 2 (leBytes 8 0x10000000 ++ leBytes 2 1))) := by
  refine ⟨⟨_, _, ⟨rfl, pick_of (by decide +kernel), by decide +kernel⟩, rfl, by decide +kernel, by decide +kernel, by decide +kernel, rfl⟩,
    served (by decide +kernel) (by decide +kernel), rfl, by decide +kernel, ?_⟩
  decide +kernel

/-- An entry with a bad header, and one behind an entry that failed. -/
theorem witness_entry_ends : (∃ c ∈ entryEndClaims 5 3 readyQueue (servedOf (entry 5 [1]) .met), c.pre (posting (entry 5 [1]))) ∧
    entryTypes (.hostnote 3) = some (5, 3) := by
  refine ⟨⟨_, .tail _ (.head _), served (by decide +kernel) (by decide +kernel), rfl, by decide +kernel⟩, rfl⟩

/-- A launch of one group without images whose group has ended. -/
def kernelOf : KDesc := kdescOf kernelBytes
def launchOf (st : LaunchSt) (res : List (Nat × Status)) : Launch :=
  { id := 1, ctx := 1, queue := some 3, entry := 0, rid := 0, kd := kernelOf, args := 0, g := 1, st := st, placed := 1, results := res
    pendingRecs := [], reported := 0, cancelled := false, met := true, begun := true, tick := none, kva := 0, cores := [], late := 0 }
def taken (e : QEntry) (l : Launch) : State :=
  let s := queued { queueOf .active with head := 1, entries := [e], hangms := 5 } paging
  { s with fe := { s.fe with launches := [l] } }

theorem witness_wait_entry :
    (waitHoldsClaim 3 0 { queueOf .active with head := 1, entries := [⟨0, .started, none, some (5, 1), true⟩], hangms := 5 } ⟨0, .started, none, some (5, 1), true⟩).pre
      (taken ⟨0, .started, none, some (5, 1), true⟩ (launchOf .running [])) ∧
    (entryDoneClaim 3 0 (launchOf .running [(0, .ok)]) .ok).pre (taken ⟨0, .started, some 1, none, false⟩ (launchOf .running [(0, .ok)])) := by
  refine ⟨?_, ?_⟩ <;> dsimp only [waitHoldsClaim, entryDoneClaim] <;> decide +kernel

theorem witness_launches : (triggerClaim 1 (launchOf .trigger [])).pre (taken ⟨0, .started, some 1, none, false⟩ (launchOf .trigger [])) ∧
    idleServiceClaim.pre running ∧ (∃ u q h w, (serviceClaim u q h w).pre (posting (entry 5 (leBytes 8 0x1000)))) := by
  refine ⟨⟨by decide +kernel, rfl, rfl, pagingCtx, by decide +kernel, rfl⟩, ⟨rfl, ?_⟩, ?_⟩
  · have : ((placeCalendars 128 running.teardownAll).noteOverrun.noteReady).pick.isNone = true := by decide +kernel
    exact Option.isNone_iff_eq_none.mp this
  · have h : ((placeCalendars 128 (posting (entry 5 (leBytes 8 0x1000))).teardownAll).noteOverrun.noteReady).pick.isSome = true := by decide +kernel
    obtain ⟨⟨q, h, w⟩, e⟩ := Option.isSome_iff_exists.mp h
    exact ⟨_, q, h, w, rfl, rfl, e⟩

/-- A group that is placed and waits for its images: a text of 32 bytes at virtual address 0x2000, or in another module. -/
def placing (l : Launch) : State := (taken ⟨0, .started, some 1, none, false⟩ l).onMe fun g => { g with phase := .placing }
def placedOf (text : Nat) : Launch := { launchOf .placing [] with kd := { kernelOf with text := text } }

theorem witness_placed : (placedClaim 1 0 (placedOf 0x2000) ⟨List.replicate 32 0, [], [], []⟩).pre (placing (placedOf 0x2000)) ∧
    (∃ v, (imagesAskClaim 1 0 (placedOf 0x10000) v).pre (placing (placedOf 0x10000))) ∧ (placedOf 0x2000).kd.argw ≤ 8 := by
  refine ⟨⟨by decide +kernel, ⟨(placing (placedOf 0x2000)).me, .head _, by decide +kernel⟩, by decide +kernel, ?_⟩,
    ⟨_, by decide +kernel, ⟨(placing (placedOf 0x10000)).me, .head _, by decide +kernel⟩, by decide +kernel, rfl⟩, by decide +kernel⟩
  exact of_decide_eq_true (by decide +kernel)
theorem witness_preempt : let s := running.onMe fun g => { g with work := { g.work with yielding := true } }
    preemptClaim.pre s ∧ preemptOffClaim.pre { s with rest := [{ s.me with ident := ⟨1, 1, 1, 2, 4, 1⟩, phase := .frozen }], me := { s.me with ident := ⟨1, 0, 0, 2, 3, 1⟩ } } := by
  dsimp only [preemptClaim, preemptOffClaim]
  decide +kernel

theorem witness_group_ends :
    (hangClaim 5000000).pre { taken ⟨0, .started, some 1, none, false⟩ (launchOf .running []) with time := { running.time with now := 5000000 } } ∧
    combinerClaim.pre (allEngines.foldl (fun (s : State) e => s.onEng e fun x => { x with stopped := true }) running) := by
  refine ⟨⟨.inl (by decide +kernel), by decide +kernel, by decide +kernel⟩, by decide +kernel, fun e => by cases e <;> decide +kernel, by decide +kernel⟩

/-- Calendar entries of context 1 for core 3 at 60 µs, whose descriptor of one group is at 0x400, or is all zeros. -/
def calendarBytes : List Byte := kernelBytes.take 80 ++ leBytes 4 1 ++ kernelBytes.drop 84
def calEntry : CalEntry := ⟨3, 0, 1, 60000, 0x400, 0⟩
def calendared (r : List Byte) : State :=
  let s := inHbm paging 0x100400 r
  { s with fe := { s.fe with calendar := [calEntry] }, time := { s.time with now := 10000 } }

/-- The module without the entries of an instance. -/
def calendarCut (s : State) : State :=
  { (s.dropLines (.text calEntry.ctx)) with fe := { s.fe with calendar := s.fe.calendar.filter fun x => !(calEntry :: []).contains x } }

/-- How an instance of the calendar ends, as tests. -/
def endOf (e : Except Status (State × Launch)) : Option Status :=
  match e with
  | .ok _ => none
  | .error st => some st

theorem ended_of {e : Except Status (State × Launch)} {st : Status} (h : endOf e = some st) : e = .error st := by
  cases e with
  | ok _ => cases h
  | error _ => exact congrArg _ (Option.some.inj h)

theorem started_of {e : Except Status (State × Launch)} (h : endOf e = none) : ∃ u l, e = .ok (u, l) := by
  cases e with
  | ok x => exact ⟨x.1, x.2, rfl⟩
  | error _ => cases h

theorem witness_calendar : (calendarDropClaim 0x400 60000 calEntry [] (List.replicate 128 0) .badentry).pre (calendared []) ∧
    (∃ u l, (calendarClaim 0x400 60000 calEntry [] calendarBytes u l).pre (calendared calendarBytes)) ∧
    (calendarStartClaim 0x400 60000 { launchOf .running [] with tick := some 60000, kva := 0x400 }).pre
      { taken ⟨0, .started, some 1, none, false⟩ { launchOf .running [] with tick := some 60000, kva := 0x400 } with time := { running.time with now := 60000 } } := by
  refine ⟨⟨by decide +kernel, by decide +kernel, by decide +kernel, by decide +kernel, ?_⟩, ?_, by decide +kernel, by decide +kernel⟩
  · exact ended_of (by decide +kernel)
  · obtain ⟨u, l, h⟩ := started_of (e := State.calendarLaunch (calendarCut (calendared calendarBytes)) 1 0x400 60000 calendarBytes [calEntry]) (by decide +kernel)
    exact ⟨u, l, by decide +kernel, by decide +kernel, by decide +kernel, by decide +kernel, h⟩

/-- An episode whose release tick has come. -/
def dueEpisode : Episode := { num := 0, cluster := 0, goal := 2, joins := 2, counter := 0, stamps := [], tick := some 50 }

theorem witness_releaseTick : (releaseTickClaim 1 7 { barrierOf false [dueEpisode] with scope := 3 } dueEpisode).pre
    { withBar { barrierOf false [dueEpisode] with scope := 3 } with time := { running.time with now := 50 } } := by
  dsimp only [releaseTickClaim]
  decide +kernel
/-! ### Events of links, pages, time and traces -/

def portOf (s : State) (n : Nat) : Port := (s.port n).getD (Port.atReset 0)
def atNs (n : Nat) (s : State) : State := { s with time := { s.time with now := n } }

/-- A row of the table of ports, with a state that meets the claim. -/
def PortMeets (n : Nat) (i : Instr) (s : State) : Prop := ∃ c, portRow (portOf s n) i = some c ∧ c.pre s

theorem witness_ports : PortMeets 3 (.portTrained 3 8) running ∧ PortMeets 3 (.portTrained 3 2) running ∧
    PortMeets 3 (.trainingTimeout 3) (atNs 10000000 running) ∧ PortMeets 3 (.trainingRetry 3) (atNs 100000000 (portIn .down)) ∧
    PortMeets 32 (.laneFailure 32) (portIn .degraded) ∧
    PortMeets 3 (.fenceDrainTimeout 3) (atNs 1000000 ((portIn .fenced).onPort 3 fun p => { p with fencing := some 0 })) := by
  refine ⟨⟨_, rfl, ?_⟩, ⟨_, rfl, ?_⟩, ⟨_, rfl, ?_⟩, ⟨_, rfl, ?_⟩, ⟨_, rfl, ?_⟩, _, rfl, ?_, ?_, 0, ?_, ?_⟩ <;>
    (try dsimp only [portTrainedClaim, trainingTimeoutClaim, enterClaim]) <;> decide +kernel

/-- A store of one line to this module, its header and its line; a read of it. -/
def storePk : Packet :=
  { mkPacket 3 1 5 7 with tag := 9, ctx := 1, len := 64, addr := 0x100000, mask := BitVec.allOnes 64, payload := List.replicate 64 3 }
def storeHdr : BitVec 512 := flitOf storePk.header
def loadPk : Packet := { mkPacket 1 0 5 7 with tag := 9, ctx := 1, len := 8, addr := 0x100008 }

theorem witness_flits : (flitPartClaim 3 0 0 none storeHdr (portOf (portIn .up) 3) (portOf ((portIn .up).reversed 3 0 none) 3)).pre (portIn .up) ∧
    (flitWholeClaim 3 0 0 (some 0) (flitOf loadPk.header) (portOf (portIn .up) 3) (portOf ((portIn .up).reversed 3 0 (some 0)) 3)).pre (portIn .up) ∧
    (flitGapClaim 3 1 0 none (portOf (portIn .up) 3) (portOf ((portIn .up).reversed 3 0 none) 3)).pre (portIn .up) ∧
    (let s := (portIn .fenced).onPort 3 fun p => { p with fencing := some 0 }; (flitAckClaim 3 0 none (portOf s 3)).pre s) := by
  refine ⟨?_, ?_, ?_, ?_⟩ <;> dsimp only [flitPartClaim, flitWholeClaim, flitGapClaim, flitAckClaim, State.takesFlit] <;> decide +kernel

theorem witness_flit_drops : (∃ c ∈ flitDropClaims 3 false (portOf (portIn .up) 3), c.pre (portIn .up)) ∧
    ∃ c ∈ flitDropClaims 3 true (portOf running 3), c.pre running := by
  refine ⟨⟨_, .head _, ?_⟩, _, .tail _ (.head _), ?_⟩ <;> decide +kernel

/-- An Ethernet pair, a datagram for it, and its packet. -/
def ethPair : QPair := { pair with eth := true, port := 32 }
def dataTr (flags psn : Nat) : BitVec 256 :=
  BitVec.ofNat 256 (leVal (leBytes 1 1 ++ leBytes 1 flags ++ leBytes 2 0 ++ leBytes 2 0 ++ leBytes 2 9 ++ leBytes 4 psn ++ leBytes 20 0))
def fireHdr : BitVec 512 := flitOf ({ mkPacket 9 0 5 7 with sub := 0xFF } : Packet).header
def ethernet : State := { portIn .up with links := { (portIn .up).links with qps := [ethPair] } }

theorem witness_datagrams : (∃ c ∈ datagramClaims 32 (dataTr 1 0) fireHdr [] ethPair, c.pre ethernet) ∧
    (∃ c ∈ datagramClaims 32 (dataTr 0 0) fireHdr [] ethPair, c.pre ethernet) ∧ (∃ c ∈ datagramClaims 3 (dataTr 0 0) fireHdr [] ethPair, c.pre ethernet) := by
  refine ⟨⟨_, .head _, ⟨?_, ⟨portOf ethernet 32, ?_, ?_⟩, ?_, ?_, ?_, ?_, ?_, ?_⟩, ?_⟩, ⟨_, .tail _ (.head _), ⟨?_, ⟨portOf ethernet 32, ?_, ?_⟩, ?_, ?_, ?_, ?_, ?_, ?_⟩, ?_, ?_⟩,
    _, .tail _ (.tail _ (.tail _ (.head _))), .inl (by decide)⟩ <;> decide +kernel
/-- The packets' own claims: each at its home, one that is answered again, one that is relayed, one that is malformed. -/
def settledHome : State := portIn .up
def atPk : Packet := { mkPacket 4 1 5 7 with tag := 9, ctx := 1, sub := 0x04, len := 4, addr := 0x100008, payload := leBytes 8 5 ++ leBytes 56 0 }
def answerOf : HomeRec := ⟨7, 9, some { mkPacket 2 1 7 5 with tag := 9 }, 0⟩

theorem settled_home : settledHome.settled := ⟨rfl, rfl, rfl, rfl, rfl, rfl⟩

theorem packet_meets {kind : Nat} {hdr : BitVec 512} {payload : List Byte} {act : State → Packet → State} {pk : Packet} {s : State}
    (h : packetOf hdr payload = some pk) :
    (pk.kind = kind ∧ pk.dmod = s.boot.modnum → ∃ c ∈ packetClaims kind hdr payload act, c.pre s) ∧
    (pk.kind = kind ∧ pk.dmod ≠ s.boot.modnum → ∃ c ∈ packetClaims kind hdr payload act, c.pre s) ∧
    (pk.kind ≠ kind → ∃ c ∈ packetClaims kind hdr payload act, c.pre s) := by
  unfold packetClaims
  rw [h]
  exact ⟨fun x => ⟨_, .head _, x⟩, fun x => ⟨_, .tail _ (.head _), x⟩, fun x => ⟨_, .tail _ (.tail _ (.head _)), x⟩⟩

theorem witness_packets : (∃ c ∈ packetClaims 1 (flitOf loadPk.header) [] State.rdreqArrive, c.pre settledHome) ∧
    (∃ c ∈ packetClaims 1 (flitOf { loadPk with dmod := 7 }.header) [] State.rdreqArrive, c.pre settledHome) ∧
    (∃ c ∈ packetClaims 7 (flitOf loadPk.header) [] State.fireArrive, c.pre settledHome) ∧ packetOf 0 [] = none :=
  ⟨(packet_meets (pk := loadPk) (by decide +kernel)).1 (by decide +kernel), (packet_meets (pk := { loadPk with dmod := 7 }) (by decide +kernel)).2.1 (by decide +kernel),
    (packet_meets (pk := loadPk) (by decide +kernel)).2.2 (by decide +kernel), by decide +kernel⟩

theorem witness_accesses : (rdreqClaim (flitOf loadPk.header) [] loadPk).pre settledHome ∧
    (wrreqClaim storeHdr storePk.payload storePk).pre settledHome ∧
    (atreqClaim (flitOf atPk.header) atPk.payload atPk).pre settledHome ∧
    (againClaim 1 (flitOf loadPk.header) [] loadPk answerOf).pre { settledHome with links := { settledHome.links with homes := [answerOf] } } := by
  refine ⟨⟨?_, ?_, ?_, settled_home, ?_, ?_⟩, ⟨?_, ?_, ?_, settled_home, ?_, ?_, ?_⟩, ⟨?_, ?_, ?_, settled_home, ?_, ?_⟩, ?_⟩ <;> first | decide +kernel | (dsimp only [againClaim]; decide +kernel)

/-- A FACK of OK for a firing with RC. -/
def fackPk : Packet := { mkPacket 8 0 5 7 with qp := 0, slot := 5, firing := 3, sub := 1 }

theorem witness_fack : (fackClaim (flitOf fackPk.header) [] fackPk pair (firing (some (sentAt 0 true)) putEntry) (sentAt 0 true)).pre
    (linked (firing (some (sentAt 0 true)) putEntry)) := by
  dsimp only [fackClaim]
  decide +kernel

/-- An access of core 3 that is forwarded to module 7. -/
def fwdOf (unsent : Bool) : Fwd :=
  { tag := 4, pkt := { mkPacket 1 0 7 5 with tag := 4, ctx := 1, len := 8, addr := 0x300010 }, va := 0x10010, line := 0x300010 / 64, first := 0, sent := 0, moved := false
    unsent := unsent, shown := [], core := some 3, reg := some (.s 2), size := 8, signed := false, agent := none }
def forwarding (unsent : Bool) : State := { paged 1 1 [] with links := { (paged 1 1 []).links with fwds := [fwdOf unsent] } }

theorem witness_forward : (forwardResendClaim 4 (fwdOf false)).pre (atNs 20000 (forwarding false)) ∧
    (forwardFailureClaim 4 (fwdOf false)).pre (atNs 2000000 (forwarding false)) ∧ (homeExpiryClaim 7 9).pre running := by
  dsimp only [forwardResendClaim, forwardFailureClaim, homeExpiryClaim]
  decide +kernel

/-- Pairs that connect, close, and have a packet without an acknowledgement. -/
def withQp (q : QPair) : State := { running with links := { running.links with qps := [q] } }
def unacked : QPair := { ethPair with store := [(0, 32, fackPk)] }

theorem witness_pairs : (connectRetryClaim 0 { pair with st := .connecting }).pre (atNs 1000000 (withQp { pair with st := .connecting })) ∧
    (qpClosedClaim 0 { pair with st := .closing }).pre (withQp { pair with st := .closing }) ∧ (ethResendClaim 0 unacked).pre (atNs 30000 (withQp unacked)) := by
  dsimp only [connectRetryClaim, qpClosedClaim, ethResendClaim]
  decide +kernel

/-- Roles of pod time. -/
def inRole (r now : Nat) : State := atNs now { running with time := { running.time with role := r } }
def timePk : Packet := { mkPacket 10 0 0 7 with value := 500 }

theorem witness_podTime : timeSendClaim.pre (inRole 1 125000) ∧ holdoverClaim.pre (inRole 0 1000000000) ∧
    slewEndClaim.pre { running with time := { running.time with alert := true } } ∧ (timeClaim (flitOf timePk.header) [] timePk).pre running ∧
    (timeIdleClaim (flitOf timePk.header) []).pre (inRole 2 0) ∧ (malformedClaim 0 []).pre running :=
  ⟨by dsimp only [timeSendClaim]; decide +kernel, by dsimp only [holdoverClaim]; decide +kernel, by dsimp only [slewEndClaim]; decide +kernel,
    by dsimp only [timeClaim]; decide +kernel, ⟨timePk, by decide +kernel, .inr (.inl rfl)⟩, by dsimp only [malformedClaim]; decide +kernel⟩

/-- C at a TIMEALIGN that it waits for. -/
def aligning : State := (atWord .c 0x1FC02007 (.count 0)).onEng .c fun x => { x with waiting := some 0 }

theorem witness_timealign : aligning.atTimealign 0 8 := by
  refine ⟨by decide +kernel, by decide +kernel, ?_⟩
  show aligning.me.store.word (aligning.eng .c).cur = BitVec.toNat _
  decide +kernel
/-- Page commands in progress on pages of the list, and what they wait for. -/
def opAt (op j stage : Nat) : PageOp := ⟨0x140000900000, op, 1, 0x10000 * j, 0x140000700000, false, 0, (pageEntry j).w0, stage⟩
def moving (o : PageOp) : State := { paging with pages := { paging.pages with ops := [o] } }


theorem levelIndex_page {va vb : Nat} (h : va / 2 ^ 16 = vb / 2 ^ 16) (level : Nat) : levelIndex level va = levelIndex level vb := by
  have d (k : Nat) (x : Nat) : x / 2 ^ (16 + k) = x / 2 ^ 16 / 2 ^ k := by rw [Nat.pow_add, Nat.div_div_eq_div_mul]
  have e (k : Nat) : va / 2 ^ (16 + k) = vb / 2 ^ (16 + k) := by rw [d, d, h]
  unfold levelIndex bitsOf
  split
  · rw [e 32]
  · rw [e 23]
  · rw [e 14]
  · rw [e 5]
  · rw [h]

theorem walkFrom_page (s : State) {va vb : Nat} (h : va / 2 ^ 16 = vb / 2 ^ 16) :
    ∀ n level table, walkFrom s va n level table = walkFrom s vb n level table
  | 0, _, _ => rfl
  | n + 1, level, table => by simp only [walkFrom, levelIndex_page h, walkFrom_page s h n]

/-- Every line of a 64 KiB page is where its first is. -/
theorem agentPage_page (s : State) (ctx : Nat) {va vb : Nat} (h : va / 2 ^ 16 = vb / 2 ^ 16) : s.agentPage ctx va = s.agentPage ctx vb := by
  simp only [State.agentPage, State.agentLeaf, State.leafOf, State.entryOf, walkFrom_page s h]

theorem gather_here (s : State) (ag : Agent) (ctx va n : Nat) {e : PEntry} (hg : ∀ x, s.genAt ctx x = none) (hp : s.agentPage ctx va = some e)
    (hr : s.readable e = true) (hh : ∀ x k, s.heldAtomic ctx x k = false)
    (hl : (piecesOf va n).all (fun p => p.1 / 2 ^ 16 == va / 2 ^ 16) = true) : (s.gather ag (.virt ctx va) n).1 = true := by
  have : ∀ p ∈ piecesOf va n, s.missesLine ag ctx p = false := fun p hm => by
    have h := eq_of_beq (List.all_eq_true.mp hl p hm)
    simp only [State.missesLine, State.remoteLine, hg, agentPage_page s ctx h, hp, hr, hh, Option.isSome_none, Bool.false_eq_true, if_false, if_true]
  show (!(piecesOf va n).any _) = true
  rw [Bool.not_eq_true', List.any_eq_false]
  exact fun p hm => by rw [this p hm]; decide

theorem migrate_here : ((moving (opAt 1 7 0)).gather (.page 0x140000900000) (.virt 1 0x70000) 65536).1 = true :=
  gather_here _ _ _ _ _ (e := pageEntry 7) (fun _ => rfl) (by decide +kernel) (by decide +kernel) (fun _ _ => rfl) (by decide +kernel)

theorem gather_come (s : State) (ag : Agent) (ctx va n : Nat) {e : PEntry} (hg : ∀ x, s.genAt ctx x = none) (hp : s.agentPage ctx va = some e)
    (hr : s.readable e = false) (hs : e.size = 2 ^ 16) (hx : s.links.lines = [⟨ag, e.pa, List.replicate (2 ^ 16) 0⟩])
    (hl : (piecesOf va n).all (fun p => p.1 / 2 ^ 16 == va / 2 ^ 16 && decide (p.1 % 2 ^ 16 + p.2 ≤ 2 ^ 16)) = true) :
    (s.gather ag (.virt ctx va) n).1 = true := by
  have : ∀ p ∈ piecesOf va n, s.missesLine ag ctx p = false := fun p hm => by
    have h := List.all_eq_true.mp hl p hm
    simp only [Bool.and_eq_true, decide_eq_true_eq, beq_iff_eq] at h
    have h2 : e.pa + p.1 % 2 ^ 16 + p.2 ≤ e.pa + 2 ^ 16 := by omega
    simp only [State.missesLine, State.remoteLine, hg, agentPage_page s ctx h.1, hp, hr, hs, hx, State.fetchedLine, List.find?_cons, List.length_replicate,
      Nat.le_add_right, h2, decide_true, BEq.rfl, Bool.and_self, Option.map_some, Option.isNone_some, Option.isSome_none, Bool.false_eq_true, if_false]
  show (!(piecesOf va n).any _) = true
  rw [Bool.not_eq_true', List.any_eq_false]
  exact fun p hm => by rw [this p hm]; decide

/-- The lines of the page have come. -/
def came : State :=
  { moving (opAt 2 1 1) with links := { (moving (opAt 2 1 1)).links with lines := [⟨.page 0x140000900000, 0x1C0000300000, List.replicate (2 ^ 16) 0⟩] } }

theorem duplicate_come : (came.gather (.page 0x140000900000) (.virt 1 0x10000) 65536).1 = true :=
  gather_come _ _ _ _ _ (e := pageEntry 1) (fun _ => rfl) (by decide +kernel) (by decide +kernel) (by decide +kernel) rfl (by decide +kernel)

theorem witness_page_moves : (migrateDoneClaim recordAt (opAt 1 7 0) (pageEntry 7)).pre (moving (opAt 1 7 0)) ∧
    (migrateAskClaim recordAt (opAt 1 4 0) (pageEntry 4)).pre (moving (opAt 1 4 0)) ∧
    (duplicateDoneClaim recordAt (opAt 2 1 1) (pageEntry 1)).pre came ∧
    (duplicateAskClaim recordAt (opAt 2 1 1) (pageEntry 1)).pre (moving (opAt 2 1 1)) := by
  refine ⟨⟨⟨?_, ?_, ?_, ?_, ?_, ?_⟩, migrate_here⟩, ⟨⟨?_, ?_, ?_, ?_, ?_, ?_⟩, ?_⟩, ⟨⟨?_, ?_, ?_, ?_, ?_, ?_⟩, duplicate_come⟩, ⟨?_, ?_, ?_, ?_, ?_, ?_⟩, ?_⟩ <;>
    decide +kernel

def leased (d : Option Nat) : State := { running with pages := { running.pages with leases := [⟨1, 0x90000, 0x140000150000, 0x10000, some 7, d, false, false⟩] } }
def borrowing : State := { running with pages := { running.pages with borrowed := [⟨1, 0x40000, 7 * 2 ^ 42 + 0x310000, some 500, false⟩] } }

theorem witness_deadlines : (lenderDeadlineClaim 1 0x90000 ⟨1, 0x90000, 0x140000150000, 0x10000, some 7, some 500, false, false⟩).pre (atNs 500 (leased (some 500))) ∧
    (borrowerDeadlineClaim 1 0x40000 ⟨1, 0x40000, 7 * 2 ^ 42 + 0x310000, some 500, false⟩ 500).pre (atNs 500 borrowing) := by
  dsimp only [lenderDeadlineClaim, borrowerDeadlineClaim]
  decide +kernel

def accCtx : Context := { context with accs := [⟨0x140000050000, 3, true, false⟩] }

theorem witness_acc : (accWritebackClaim 1 0x140000050000 accCtx ⟨0x140000050000, 3, true, false⟩).pre { running with ctxs := [(1, accCtx)] } := by
  dsimp only [accWritebackClaim]
  decide +kernel

theorem witness_swap : (swapDoneClaim ⟨3, 1, 0, 0x70000, false⟩ (pageEntry 0) (pageEntry 7)).pre
    { paging with pages := { paging.pages with swaps := [⟨3, 1, 0, 0x70000, false⟩] } } := by
  dsimp only [swapDoneClaim]
  decide +kernel
/-- A context with one trace record in its front-end source and an empty ring of 16 MiB. -/
def traceRec : TraceRec := ⟨2, 5, 0, 0, 0, 7, 9⟩
def traceCtx : Context := { context with root := { rootPart with trbase := 0x140001000000, trlog := 24 }, sources := [⟨none, [traceRec], 0⟩] }
def tracing : State := { running with ctxs := [(2, traceCtx)] }

theorem witness_traces : tracing.ctx 2 = some traceCtx ∧ tracing.me.ident.ctx ≠ 2 ∧ paModule traceCtx.root.trbase = tracing.boot.modnum ∧
    tracing.pages.borrowed = [] ∧ 24 ≤ traceCtx.root.trlog ∧ paLocal traceCtx.root.trbase + 2 ^ traceCtx.root.trlog ≤ bellBase ∧ traceRec.typ ≠ 3 ∧
    (ringOf (tracing.hbmBytes (paLocal traceCtx.root.trbase) 64)).full traceCtx.root = false ∧ messidorClaim.pre tracing ∧
    (eccClaim 1).pre { running with errors := { running.errors with envEcc := [(1, 3)] } } :=
  ⟨by decide +kernel, by decide +kernel, by decide +kernel, rfl, by decide +kernel, by decide +kernel, by decide, by decide +kernel, trivial,
    ⟨(1, 3), .head _, rfl, by decide⟩⟩

/-! ### The platform -/

theorem witness_reset : (∃ c, resetRow .reset = some c ∧ c.pre running) ∧ (∃ c, resetRow .coldReset = some c ∧ c.pre running) ∧
    ({ running with power := { running.power with tripped := true } } : State).power.tripped = true :=
  ⟨⟨_, rfl, rfl⟩, ⟨_, rfl, trivial⟩, rfl⟩

theorem witness_power : (∃ c, powerRow (.throttleStart 1501 0) = some c ∧ c.pre { running with power := ⟨1500, false, false⟩ }) ∧
    (∃ c, powerRow (.throttleEnd 1500 95) = some c ∧ c.pre { running with power := ⟨1500, true, false⟩ }) ∧ (tripClaim 110).pre running :=
  ⟨⟨_, rfl, by dsimp only; decide +kernel⟩, ⟨_, rfl, by dsimp only; decide +kernel⟩, by dsimp only [tripClaim]; decide +kernel⟩

/-- An image for stage 1, of which all but the signature is as R372 asks, with a body; and a header that is none. -/
def imageBody : List Byte := [1, 2, 3]
def imageHead : List Byte := leBytes 4 0x4C513442 ++ leBytes 1 1 ++ leBytes 3 0 ++ leBytes 8 5 ++ leBytes 8 3 ++ List.replicate 136 0
def image : List Byte := imageHead ++ (flitBytes (Config.sha512 imageBody) ++ List.replicate 288 0)
def fused : State :=
  { State.reset with boot := { State.reset.boot with keys := [Config.sha512 (List.replicate 133 0)] } }

theorem flit_bytes (d : BitVec 512) : flitOf (flitBytes d) = d := by
  apply BitVec.eq_of_toNat_eq
  simp only [flitOf, flitBytes, leVal_leBytes, BitVec.toNat_ofNat]
  have := d.isLt
  omega

theorem image_digest : (image.drop 160).take 64 = flitBytes (Config.sha512 imageBody) := by
  have h : imageHead.length = 160 := by decide +kernel
  have k : (flitBytes (Config.sha512 imageBody)).length = 64 := leBytes_length _ _
  unfold image
  rw [List.drop_append_of_le_length (by omega), show imageHead.drop 160 = [] from List.drop_eq_nil_of_le (by omega), List.nil_append,
    List.take_append_of_le_length (by omega), List.take_of_length_le (by omega)]

/-- The check of a signature is a constant without a body, so that the image is accepted where that check holds; without a signature that
holds, or with another header, the module goes into RECOVERY. -/
theorem witness_boot (h : Config.p521Verify ((image.drop 24).take 133) ((image.drop 224).take 132) (Config.sha512 (image.take 224)) = true) :
    (bootClaim image imageBody).pre fused :=
  ⟨rfl, rfl, ⟨⟨by decide +kernel, by decide +kernel, by decide +kernel, by decide +kernel, by decide +kernel, by decide +kernel⟩,
    ⟨congrArg (fun l => some (Config.sha512 l)) (by decide +kernel : List.replicate 133 0 = (image.drop 24).take 133), by decide +kernel⟩, h,
    (congrArg flitOf image_digest).trans (flit_bytes _), Nat.zero_le _⟩, fun h => absurd h (by decide +kernel)⟩

theorem witness_recovery : (recoveryClaim [] []).pre fused ∧ rollbackClaim.pre { running with boot := { running.boot with stage := 1 } } :=
  ⟨⟨rfl, rfl, fun h => absurd h.1.form.1 (by decide)⟩, by dsimp only [rollbackClaim]; decide +kernel⟩

theorem witness_host : (hostAccessClaim true 0x100000 [1, 2]).pre running ∧ (hostAccessClaim false 0 []).pre running ∧
    (∃ c ∈ registerClaims 0x108 0x1000, c.pre running) ∧ (∃ c ∈ registerClaims 0x110 17, c.pre running) ∧ (∃ c ∈ registerClaims 0x300 1500, c.pre running) ∧
    (∃ c ∈ registerClaims 0x108 0, c.pre { running with boot := { running.boot with recovery := true } }) ∧ (∃ c ∈ registerClaims 0x1000 0, c.pre running) ∧
    (∃ b, (ringClaim 0 0x140000900000 b).pre running) ∧ (pcapClaim 1500).pre running := by
  refine ⟨?_, ?_, ⟨_, .head _, ?_⟩, ⟨_, .tail _ (.head _), ?_⟩, ⟨_, .tail _ (.tail _ (.head _)), ?_⟩, ⟨_, .tail _ (.tail _ (.tail _ (.head _))), ?_⟩,
    ⟨_, .tail _ (.tail _ (.tail _ (.tail _ (.head _)))), ?_⟩, ⟨.ctx, ?_⟩, ?_⟩ <;>
    (try dsimp only [hostAccessClaim, ringClaim, pcapClaim]) <;> decide +kernel

theorem witness_attestation : (∃ d, (measureClaim 1 d).pre running) ∧ (measureClaim 2 7).pre { running with boot := { running.boot with measures := [7] } } ∧
    (∃ c ∈ measureOtherClaims 0xFF, c.pre running) ∧ (∃ c ∈ measureOtherClaims 6, c.pre running) ∧ (mgmtRow 4).isSome = true ∧
    (mgmtClaim 2 fun _ => []).pre { running with boot := { running.boot with recovery := true } } ∧ (∃ c ∈ mgmtOtherClaims 0, c.pre running) ∧
    (∃ c ∈ mgmtOtherClaims 5, c.pre running) ∧ (spdmRow (.getCertificate 0 16)).isSome = true ∧ (challengeClaim 0).pre running ∧ measureCountClaim.pre running :=
  ⟨⟨_, rfl⟩, rfl, ⟨_, .head _, rfl⟩, ⟨_, .tail _ (.head _), by decide +kernel⟩, rfl, .inl rfl, ⟨_, .head _, by decide +kernel⟩,
    ⟨_, .tail _ (.head _), .inl (by decide)⟩, rfl, trivial, trivial⟩

end Sys2Proof.Tests
end

section
/-! SUPPORT. Scalar results (05_control R78 to R82): each operation on words is the arithmetic of the manual's tables, and an instruction
that puts such a word in flight meets its claim. -/

namespace Sys2Proof.Machine

/-! ## Words by their values -/

theorem eq_ofInt_of_toInt {w : Nat} {x : BitVec w} {n : Int} (h : x.toInt = n) : x = .ofInt w n := by
  rw [← h, BitVec.ofInt_toInt]

theorem eq_ofNat_of_toNat {w : Nat} {x : BitVec w} {n : Nat} (h : x.toNat = n) : x = .ofNat w n := by
  rw [← h, BitVec.ofNat_toNat, BitVec.setWidth_eq]

theorem add_eq_ofInt (u v : BitVec 64) : u + v = .ofInt 64 (u.toInt + v.toInt) := by
  rw [BitVec.ofInt_add, BitVec.ofInt_toInt, BitVec.ofInt_toInt]

theorem sub_eq_ofInt (u v : BitVec 64) : u - v = .ofInt 64 (u.toInt - v.toInt) := by
  rw [Int.sub_eq_add_neg, BitVec.ofInt_add, BitVec.ofInt_neg, BitVec.ofInt_toInt, BitVec.ofInt_toInt, BitVec.sub_eq_add_neg]

theorem mul_eq_ofInt (u v : BitVec 64) : u * v = .ofInt 64 (u.toInt * v.toInt) := by
  rw [BitVec.ofInt_mul, BitVec.ofInt_toInt, BitVec.ofInt_toInt]

theorem simm10_toInt (k : BitVec 10) : (simm10 k).toInt = k.toInt := BitVec.toInt_signExtend_of_le (by decide)

theorem add_simm10_eq (u : BitVec 64) (k : BitVec 10) : u + simm10 k = .ofInt 64 (u.toInt + k.toInt) := by
  rw [add_eq_ofInt, simm10_toInt]

/-! ## Division (R80) -/

theorem divS_eq (u v : BitVec 64) : divS u v = if v = 0 then .allOnes 64 else .ofInt 64 (u.toInt.tdiv v.toInt) := by
  have hq : u.sdiv v = .ofInt 64 (u.toInt.tdiv v.toInt) :=
    BitVec.eq_of_toInt_eq (by rw [BitVec.toInt_sdiv, BitVec.toInt_ofInt])
  rw [divS, hq]; rfl

theorem divU_eq (u v : BitVec 64) : divU u v = if v = 0 then .allOnes 64 else .ofNat 64 (u.toNat / v.toNat) := by
  have hq : u / v = .ofNat 64 (u.toNat / v.toNat) := eq_ofNat_of_toNat BitVec.toNat_udiv
  rw [divU, hq]; rfl

theorem remS_eq (u v : BitVec 64) :
    remS u v = if v = 0 then u else .ofInt 64 (u.toInt - u.toInt.tdiv v.toInt * v.toInt) := by
  have hr : u.srem v = .ofInt 64 (u.toInt - u.toInt.tdiv v.toInt * v.toInt) :=
    eq_ofInt_of_toInt (by rw [BitVec.toInt_srem, Int.tmod_def, Int.mul_comm])
  rw [remS, hr]

theorem remU_eq (u v : BitVec 64) :
    remU u v = if v = 0 then u else .ofNat 64 (u.toNat - u.toNat / v.toNat * v.toNat) := by
  have hr : u % v = .ofNat 64 (u.toNat - u.toNat / v.toNat * v.toNat) :=
    eq_ofNat_of_toNat (by rw [BitVec.toNat_umod, Nat.mod_eq_sub_div_mul])
  rw [remU, hr]

/-! ## Shifts and fields -/

theorem shiftLeft_eq_ofNat (u : BitVec 64) (n : Nat) : u <<< n = .ofNat 64 (u.toNat * 2 ^ n) :=
  BitVec.eq_of_toNat_eq (by rw [BitVec.toNat_shiftLeft, BitVec.toNat_ofNat, Nat.shiftLeft_eq])

theorem ushiftRight_eq_ofNat (u : BitVec 64) (n : Nat) : u >>> n = .ofNat 64 (u.toNat / 2 ^ n) :=
  eq_ofNat_of_toNat (by rw [BitVec.toNat_ushiftRight, Nat.shiftRight_eq_div_pow])

theorem sshiftRight_eq_ofInt (u : BitVec 64) (n : Nat) : u.sshiftRight n = .ofInt 64 (floorDiv u.toInt (2 ^ n)) := by
  apply eq_ofInt_of_toInt
  rw [BitVec.toInt_sshiftRight, Int.shiftRight_eq_div_pow, floorDiv, Int.fdiv_eq_ediv_of_nonneg _ (by positivity)]
  norm_cast

/-- R82: the low 15 bits of the shifted word are 0, so that joining `k` to them adds it. -/
theorem lihValue_eq (u : BitVec 64) (k : BitVec 15) : lihValue u k = .ofNat 64 (u.toNat * 2 ^ 15 + k.toNat) := by
  have hk : k.toNat < 2 ^ 15 := k.isLt
  have hj : u.toNat * 2 ^ 15 + k.toNat = u.toNat <<< 15 ||| k.toNat := by
    rw [← Nat.shiftLeft_eq, Nat.shiftLeft_add_eq_or_of_lt hk]
  rw [hj, BitVec.ofNat_or, lihValue, Nat.shiftLeft_eq, ← shiftLeft_eq_ofNat, BitVec.ofNat_toNat]

/-! ## Comparisons -/

theorem bool64_decide (p : Prop) [Decidable p] : bool64 (decide p) = asBit p := by simp only [bool64, asBit, decide_eq_true_eq]

theorem bool64_slt (u v : BitVec 64) : bool64 (u.slt v) = asBit (u.toInt < v.toInt) := by
  rw [BitVec.slt_eq_decide, bool64_decide]

theorem bool64_ult (u v : BitVec 64) : bool64 (u.ult v) = asBit (u.toNat < v.toNat) := by
  rw [BitVec.ult_eq_decide, bool64_decide]

theorem bool64_slt_simm10 (u : BitVec 64) (k : BitVec 10) : bool64 (u.slt (simm10 k)) = asBit (u.toInt < k.toInt) := by
  rw [bool64_slt, simm10_toInt]

theorem min_eq_ofInt (u v : BitVec 64) : (if v.slt u then v else u) = .ofInt 64 (min u.toInt v.toInt) := by
  apply eq_ofInt_of_toInt
  simp only [BitVec.slt_eq_decide, decide_eq_true_eq]
  split <;> omega

theorem max_eq_ofInt (u v : BitVec 64) : (if u.slt v then v else u) = .ofInt 64 (max u.toInt v.toInt) := by
  apply eq_ofInt_of_toInt
  simp only [BitVec.slt_eq_decide, decide_eq_true_eq]
  split <;> omega

theorem min_eq_ofNat (u v : BitVec 64) : (if v.ult u then v else u) = .ofNat 64 (min u.toNat v.toNat) := by
  apply eq_ofNat_of_toNat
  simp only [BitVec.ult_eq_decide, decide_eq_true_eq]
  split <;> omega

theorem max_eq_ofNat (u v : BitVec 64) : (if u.ult v then v else u) = .ofNat 64 (max u.toNat v.toNat) := by
  apply eq_ofNat_of_toNat
  simp only [BitVec.ult_eq_decide, decide_eq_true_eq]
  split <;> omega

/-! ## Counts -/

theorem length_takeWhile_range (n k : Nat) (p : Nat → Bool) (hk : k ≤ n) (hp : ∀ i < k, p i = true)
    (hn : k < n → p k = false) : ((List.range n).takeWhile p).length = k := by
  obtain ⟨m, rfl⟩ := Nat.exists_eq_add_of_le hk
  rw [List.range_add, List.takeWhile_append_of_pos fun i hi => hp i (List.mem_range.1 hi), List.length_append,
    List.length_range]
  cases m with
  | zero => rfl
  | succ m => simp [List.range_succ_eq_map, hn (by omega)]

/-- The top set bit of a number that is not 0 is bit `log2` of it. -/
theorem leadingZeros_eq (u : BitVec 64) : leadingZeros 64 u.toNat = countLeading u := by
  unfold leadingZeros countLeading
  symm
  split
  case isTrue h0 =>
    have hu : u = 0 := BitVec.eq_of_toNat_eq h0
    exact length_takeWhile_range _ _ _ le_rfl (fun i _ => by simp [hu]) (fun h => absurd h (lt_irrefl _))
  case isFalse h0 =>
    have htop : Nat.log2 u.toNat < 64 := (Nat.log2_lt h0).2 u.isLt
    refine length_takeWhile_range _ _ _ (by omega) (fun i hi => ?_) fun _ => ?_
    · have hlow : u.toNat < 2 ^ (64 - 1 - i) := (Nat.log2_lt h0).1 (by omega)
      simp [BitVec.getMsbD_eq_getLsbD, BitVec.getLsbD, Nat.testBit_lt_two_pow hlow]
    · have hi : 64 - 1 - (64 - 1 - Nat.log2 u.toNat) = Nat.log2 u.toNat := by omega
      rw [BitVec.getMsbD_eq_getLsbD, hi, BitVec.getLsbD, Nat.testBit_log2 h0, Bool.and_true, Bool.not_eq_false',
        decide_eq_true_eq]
      omega

theorem trailingZeros_eq_takeWhile (w n : Nat) :
    trailingZeros w n = ((List.range w).takeWhile fun i => !n.testBit i).length := by
  induction w generalizing n with
  | zero => rfl
  | succ w ih =>
    have hs : ((fun i => !n.testBit i) ∘ Nat.succ) = fun i => !(n / 2).testBit i := funext fun i => by
      rw [Function.comp, Nat.testBit_succ]
    rw [trailingZeros, ih, List.range_succ_eq_map, List.takeWhile_cons, List.takeWhile_map, hs, Nat.testBit_zero]
    by_cases h : n % 2 = 1 <;> simp [h, Nat.add_comm]

theorem trailingZeros_eq (u : BitVec 64) : trailingZeros 64 u.toNat = countTrailing u := trailingZeros_eq_takeWhile 64 u.toNat

theorem oneBits_eq_countP (w n : Nat) : oneBits w n = (List.range w).countP fun i => n.testBit i := by
  induction w generalizing n with
  | zero => rfl
  | succ w ih =>
    have hs : ((fun i => n.testBit i) ∘ Nat.succ) = fun i => (n / 2).testBit i := funext fun i => Nat.testBit_succ n i
    rw [oneBits, ih, List.range_succ_eq_map, List.countP_cons, List.countP_map, hs, Nat.testBit_zero]
    by_cases h : n % 2 = 1
    · simp [h, Nat.add_comm]
    · simp [Nat.mod_two_ne_one.1 h]

theorem oneBits_eq (u : BitVec 64) : oneBits 64 u.toNat = countOnes u := oneBits_eq_countP 64 u.toNat

/-! ## Words by their bits -/

theorem simm10_getLsbD (k : BitVec 10) (i : Nat) (h : i < 64) : (simm10 k).getLsbD i = k.getLsbD (min i 9) := by
  rw [simm10, BitVec.getLsbD_signExtend, decide_eq_true h, Bool.true_and]
  split
  case isTrue hi => rw [Nat.min_eq_left (by omega)]
  case isFalse hi => rw [Nat.min_eq_right (by omega), BitVec.msb_eq_getLsbD_last]

theorem and_isBits (u v : BitVec 64) : IsBits (u &&& v) fun i => u.getLsbD i && v.getLsbD i := fun _ _ => BitVec.getLsbD_and

theorem or_isBits (u v : BitVec 64) : IsBits (u ||| v) fun i => u.getLsbD i || v.getLsbD i := fun _ _ => BitVec.getLsbD_or

theorem xor_isBits (u v : BitVec 64) : IsBits (u ^^^ v) fun i => u.getLsbD i != v.getLsbD i := fun _ _ => BitVec.getLsbD_xor

theorem and_simm10_isBits (u : BitVec 64) (k : BitVec 10) :
    IsBits (u &&& simm10 k) fun i => u.getLsbD i && k.getLsbD (min i 9) := fun i h => by
  simp only [and_isBits _ _ i h, simm10_getLsbD k i h]

theorem or_simm10_isBits (u : BitVec 64) (k : BitVec 10) :
    IsBits (u ||| simm10 k) fun i => u.getLsbD i || k.getLsbD (min i 9) := fun i h => by
  simp only [or_isBits _ _ i h, simm10_getLsbD k i h]

theorem xor_simm10_isBits (u : BitVec 64) (k : BitVec 10) :
    IsBits (u ^^^ simm10 k) fun i => u.getLsbD i != k.getLsbD (min i 9) := fun i h => by
  simp only [xor_isBits _ _ i h, simm10_getLsbD k i h]

/-- R81: bit `i` of the mask of INS says whether it lies in the field. -/
theorem insField_isBits (old a : BitVec 64) (pos w : Nat) : IsBits (insField old a pos w) (insBit old a pos w) := by
  intro i h
  simp only [insField, insBit, BitVec.getLsbD_or, BitVec.getLsbD_and, BitVec.getLsbD_not, BitVec.getLsbD_ofNat,
    Nat.testBit_mul_two_pow, Nat.testBit_two_pow_sub_one, Nat.testBit_mod_two_pow, decide_eq_true h, Bool.true_and]
  by_cases hp : pos ≤ i
  · by_cases hw : i - pos < w
    · simp [hp, hw, show i < pos + w by omega, BitVec.getLsbD]
    · simp [hp, hw, show ¬ i < pos + w by omega]
  · simp [hp]

/-! ## Instructions -/

/-- An instruction that is one scalar operation meets the claim about its value. -/
theorem scalarClaim_holds {i : Instr} {y : BitVec 2} {d : BitVec 5} {srcs : List Reg} {lat : Nat} (f : Group → BitVec 64)
    {v : State → BitVec 64} (hx : ∀ s, exec i s = scalarOp y d srcs lat f s) (hv : ∀ s, f s.me = v s) :
    (scalarClaim y d srcs lat v).Holds i :=
  Claim.holds_result _ i (.s d) _ lat (fun _ => rfl) rfl rfl (fun _ _ => trivial) fun s => by
    rw [hx, scalarOp]; simp only [hv]; rfl

theorem triClaim_holds {i : Instr} {y : BitVec 2} {d a b : BitVec 5} {lat : Nat} {g : BitVec 64 → BitVec 64 → BitVec 64}
    (f : BitVec 64 → BitVec 64 → BitVec 64) (hx : ∀ s, exec i s = scalar2 y d a b lat f s) (hv : ∀ u v, f u v = g u v) :
    (triClaim y d a b lat g).Holds i :=
  scalarClaim_holds _ hx fun _ => hv _ _

theorem duoClaim_holds {i : Instr} {y : BitVec 2} {d a : BitVec 5} {g : BitVec 64 → BitVec 64} (f : BitVec 64 → BitVec 64)
    (hx : ∀ s, exec i s = scalar1 y d a f s) (hv : ∀ u, f u = g u) : (duoClaim y d a g).Holds i :=
  scalarClaim_holds _ hx fun _ => hv _

/-- R79 to R82: each row of the table, by the law of its operation. -/
theorem arithmeticRow_holds (i : Instr) (c : Claim) (h : arithmeticRow i = some c) : c.Holds i := by
  cases i with
  | add => cases h; exact triClaim_holds (· + ·) (fun _ => rfl) add_eq_ofInt
  | sub => cases h; exact triClaim_holds (· - ·) (fun _ => rfl) sub_eq_ofInt
  | mul => cases h; exact triClaim_holds (· * ·) (fun _ => rfl) mul_eq_ofInt
  | mulh => cases h; exact triClaim_holds mulHigh (fun _ => rfl) fun _ _ => rfl
  | mulhn => cases h; exact triClaim_holds mulHighU (fun _ => rfl) fun _ _ => rfl
  | div => cases h; exact triClaim_holds divS (fun _ => rfl) divS_eq
  | divn => cases h; exact triClaim_holds divU (fun _ => rfl) divU_eq
  | rem => cases h; exact triClaim_holds remS (fun _ => rfl) remS_eq
  | remn => cases h; exact triClaim_holds remU (fun _ => rfl) remU_eq
  | shl => cases h; exact triClaim_holds shlMod (fun _ => rfl) fun _ _ => shiftLeft_eq_ofNat _ _
  | shr => cases h; exact triClaim_holds shrMod (fun _ => rfl) fun _ _ => ushiftRight_eq_ofNat _ _
  | sar => cases h; exact triClaim_holds sarMod (fun _ => rfl) fun _ _ => sshiftRight_eq_ofInt _ _
  | slt => cases h; exact triClaim_holds (fun u v => bool64 (u.slt v)) (fun _ => rfl) bool64_slt
  | sltn => cases h; exact triClaim_holds (fun u v => bool64 (u.ult v)) (fun _ => rfl) bool64_ult
  | min => cases h; exact triClaim_holds (fun u v => if v.slt u then v else u) (fun _ => rfl) min_eq_ofInt
  | max => cases h; exact triClaim_holds (fun u v => if u.slt v then v else u) (fun _ => rfl) max_eq_ofInt
  | minn => cases h; exact triClaim_holds (fun u v => if v.ult u then v else u) (fun _ => rfl) min_eq_ofNat
  | maxn => cases h; exact triClaim_holds (fun u v => if u.ult v then v else u) (fun _ => rfl) max_eq_ofNat
  | fsh y d a b x =>
    cases h
    exact scalarClaim_holds (fun g => funnel (g.sreg a) (g.sreg b) (g.sreg x)) (fun _ => rfl) fun _ => rfl
  | sel y d a b p =>
    cases h
    exact scalarClaim_holds (fun g => if g.preg p then g.sreg a else g.sreg b) (fun _ => rfl) fun _ => rfl
  | addi y d a k => cases h; exact duoClaim_holds (· + simm10 k) (fun _ => rfl) fun _ => add_simm10_eq _ _
  | shli y d a k => cases h; exact duoClaim_holds (· <<< k.toNat) (fun _ => rfl) fun _ => shiftLeft_eq_ofNat _ _
  | shri y d a k => cases h; exact duoClaim_holds (· >>> k.toNat) (fun _ => rfl) fun _ => ushiftRight_eq_ofNat _ _
  | sari y d a k =>
    cases h
    exact duoClaim_holds (·.sshiftRight k.toNat) (fun _ => rfl) fun _ => sshiftRight_eq_ofInt _ _
  | slti y d a k =>
    cases h
    exact duoClaim_holds (fun u => bool64 (u.slt (simm10 k))) (fun _ => rfl) fun _ => bool64_slt_simm10 _ _
  | ext y d a l p => cases h; exact duoClaim_holds (extField · p.toNat (l.toNat + 1)) (fun _ => rfl) fun _ => rfl
  | clz =>
    cases h
    exact duoClaim_holds (fun u => .ofNat 64 (leadingZeros 64 u.toNat)) (fun _ => rfl) fun u => congrArg _ (leadingZeros_eq u)
  | ctz =>
    cases h
    exact duoClaim_holds (fun u => .ofNat 64 (trailingZeros 64 u.toNat)) (fun _ => rfl) fun u => congrArg _ (trailingZeros_eq u)
  | popc =>
    cases h
    exact duoClaim_holds (fun u => .ofNat 64 (oneBits 64 u.toNat)) (fun _ => rfl) fun u => congrArg _ (oneBits_eq u)
  | lih y d k =>
    cases h
    exact scalarClaim_holds (fun g => lihValue (g.sreg d) k) (fun _ => rfl) fun _ => lihValue_eq _ _
  | _ => cases h

/-- An instruction that is one scalar operation of latency 1 puts a word with the given bits in flight. -/
theorem bitwise_holds {i : Instr} {y : BitVec 2} {d : BitVec 5} {srcs : List Reg} {f : State → Nat → Bool} (v : Group → BitVec 64)
    (hx : ∀ s, exec i s = scalarOp y d srcs 1 v s) (hv : ∀ s, IsBits (v s.me) (f s)) :
    ∃ v : State → BitVec 64, (∀ s, IsBits (v s) (f s)) ∧ (scalarClaim y d srcs 1 v).Holds i :=
  ⟨fun s => v s.me, hv, scalarClaim_holds v hx fun _ => rfl⟩

/-- R79, R81: each bitwise form, by the law of its operation. -/
theorem bitwiseRow_holds (i : Instr) (y : BitVec 2) (d : BitVec 5) (srcs : List Reg) (f : State → Nat → Bool)
    (h : bitwiseRow i = some (y, d, srcs, f)) :
    ∃ v : State → BitVec 64, (∀ s, IsBits (v s) (f s)) ∧ (scalarClaim y d srcs 1 v).Holds i := by
  cases i with
  | and y d a b =>
    cases h
    exact bitwise_holds (fun g => g.sreg a &&& g.sreg b) (fun _ => rfl) fun _ => and_isBits _ _
  | or y d a b => cases h; exact bitwise_holds (fun g => g.sreg a ||| g.sreg b) (fun _ => rfl) fun _ => or_isBits _ _
  | xor y d a b =>
    cases h
    exact bitwise_holds (fun g => g.sreg a ^^^ g.sreg b) (fun _ => rfl) fun _ => xor_isBits _ _
  | andi y d a k =>
    cases h
    exact bitwise_holds (fun g => g.sreg a &&& simm10 k) (fun _ => rfl) fun _ => and_simm10_isBits _ _
  | ori y d a k =>
    cases h
    exact bitwise_holds (fun g => g.sreg a ||| simm10 k) (fun _ => rfl) fun _ => or_simm10_isBits _ _
  | xori y d a k =>
    cases h
    exact bitwise_holds (fun g => g.sreg a ^^^ simm10 k) (fun _ => rfl) fun _ => xor_simm10_isBits _ _
  | ins y d a l p =>
    cases h
    exact bitwise_holds (fun g => insField (g.sreg d) (g.sreg a) p.toNat (l.toNat + 1)) (fun _ => rfl) fun _ => insField_isBits _ _ _ _
  | _ => cases h

/-- Settles O11: every row of the two tables, by its value law and the law of items that write one result. -/
theorem scalarResults : Obligations.ScalarResults := ⟨arithmeticRow_holds, bitwiseRow_holds⟩

end Sys2Proof.Machine
end

section
/-! SUPPORT. The words of engine M that hand an operation to the mesh without a stream, and those that M executes itself (07_mesh R131
to R151): the rules of M's items, of queues, of handing over and of images, and from them each word's effect, stall and trap. -/

namespace Sys2Proof.Machine

/-! ## Items of M -/

/-- A later state in which only M's walk and the buffers' counts have moved on: what completion makes of an effect. -/
def State.EndsAs (u t : State) : Prop := ∀ p, p ≠ .engine .m → p ≠ .bufs → u.same t p

theorem State.EndsAs.mesh {u t : State} (h : u.EndsAs t) : t.me.mesh = u.me.mesh := h .mesh (by simp) (by simp)

theorem State.EndsAs.queue {u t : State} (h : u.EndsAs t) (q : BitVec 4) : t.me.queue q = u.me.queue q :=
  h (.queue q) (by simp) (by simp)

theorem State.EndsAs.pend {u t : State} (h : u.EndsAs t) : t.me.work.pend = u.me.work.pend := h .pend (by simp) (by simp)

theorem State.EndsAs.pendOn {u t : State} (h : u.EndsAs t) : t.me.pendOn = u.me.pendOn := by
  have hs : t.me.sys = u.me.sys := h .sys (by simp) (by simp)
  rw [Group.pendOn, hs, Group.pendOn]

theorem State.closed_endsAs (s u : State) (y : BitVec 2) (via : Bool) : u.EndsAs (s.closed u .m y via) :=
  fun p he hb => State.closed_same _ _ _ _ _ _ _ (u.same_refl p) he hb

/-- A word of M whose effect changes the parts that its claim names, and no others, meets the claim. Callers name the arm of `exec` in
`hx`, from which `f` is read off. -/
theorem meshItem_holds {i : Instr} {y : BitVec 2} {parts : List Aspect} {pre : State → Prop} {post : State → State → Prop}
    (f : State → Effect) (hx : ∀ s, exec i s = meshItem y s f)
    (hb : ∀ a, pre a → ∃ u, f a = .done u ∧ (∀ p, p ∉ parts → a.same u p) ∧ ∀ t, u.EndsAs t → post a t)
    (hm : Aspect.engine .m ∉ parts := by simp) (hp : Aspect.phase ∉ parts := by simp) :
    Claim.Holds { eng := .m, y := y, parts := parts, pre := pre, post := post } i := by
  refine Claim.holds_done _ i (fun s _ => f s) (fun _ => rfl) hx fun s _ hpre => ?_
  obtain ⟨u, hf, hframe, hpost⟩ := hb _ hpre
  have heng : u.eng .m = (s.arrived .m y).eng .m := hframe _ hm
  refine ⟨u, hf, ⟨.refl _ _, ⟨_, heng⟩, hframe _ hp, congrArg EngineState.flight heng, fun p hn => hframe p fun hin => ?_⟩,
    fun via => hpost _ (s.closed_endsAs u y via)⟩
  exact hn (List.mem_cons_of_mem _ (List.mem_cons_of_mem _ hin))

theorem State.waits_stall (s : State) (e : Engine) (buf : Option (BitVec 8)) : s.Waits e (s.stall e buf) := by
  have he : (s.stall e buf).eng e = { s.eng e with waiting := some ((s.eng e).waiting.getD s.time.now), waitBuf := buf } :=
    s.onEng_eng _ _
  exact ⟨by rw [he], by rw [he], by rw [he], by rw [he], by rw [he], fun p hp => s.onEng_same _ _ _ hp⟩

theorem meshItem_wait {i : Instr} {y : BitVec 2} {s : State} {f : State → Effect} (hx : exec i s = meshItem y s f)
    (hr : s.Ready .m y []) (hf : f (s.arrived .m y) = .wait) : ∃ t, exec i s = .next t ∧ s.Waits .m t :=
  ⟨_, hx.trans (issue_wait _ _ _ _ (fun s _ => f s) hr hf), s.waits_stall .m none⟩

theorem meshItem_trap {i : Instr} {y : BitVec 2} {s : State} {f : State → Effect} {c : Nat} (hx : exec i s = meshItem y s f)
    (hr : s.Ready .m y []) (hf : f (s.arrived .m y) = .trap c 0 0) : exec i s = .next (s.trapAt .m c 0 0 false) :=
  hx.trans (issue_trap _ _ _ _ (fun s _ => f s) _ _ _ hr rfl hf)

/-! ## Parts that an update leaves -/

theorem State.onMesh_same (s : State) (f : MeshState → MeshState) (p : Aspect) (h : p ≠ .mesh) : s.same (s.onMesh f) p := by
  have h' := s.same_refl p
  cases p with
  | mesh => exact absurd rfl h
  | regs => exact fun r => by cases r <;> rfl
  | _ => exact h'

@[simp] theorem Group.queue_setQueue (g : Group) (q : BitVec 4) (x : Queue) : (g.setQueue q x).queue q = x := by
  simp [Group.queue, Group.setQueue]

theorem Group.queue_setQueue_ne (g : Group) (q k : BitVec 4) (x : Queue) (h : k ≠ q) : (g.setQueue q x).queue k = g.queue k :=
  Vector.getElem_set_ne q.isLt k.isLt fun e => h (BitVec.eq_of_toNat_eq e.symm)

theorem State.setQueue_same (s : State) (q : BitVec 4) (x : Queue) (p : Aspect) (h : p ≠ .queue q) :
    s.same (s.onMe (·.setQueue q x)) p := by
  have h' := s.same_refl p
  cases p with
  | queue k => exact Group.queue_setQueue_ne _ _ _ _ fun e => h (e ▸ rfl)
  | regs => exact fun r => by cases r <;> rfl
  | _ => exact h'

/-- R219: marking changes the list of pending words only. -/
theorem Group.markPending_eq (g : Group) (ms : List PendMark) :
    g.markPending ms = { g with work := { g.work with pend := if g.pendOn then g.work.pend ++ ms else g.work.pend } } := by
  unfold Group.markPending
  split <;> rfl

/-! ## Queues (R91, R92) -/

/-- The state after the oldest entry of a queue is taken. -/
def State.popped (s : State) (q : BitVec 4) : State :=
  s.onMe (·.setQueue q { s.me.queue q with
    entries := (s.me.queue q).entries.tail, covers := (s.me.queue q).covers.tail, owed := (s.me.queue q).owed.tail })

/-- The state after an engine's entry is put into a queue. -/
def State.pushed (s : State) (e : Engine) (q : BitVec 4) (v : BitVec 64) : State :=
  s.onMe (·.setQueue q { s.me.queue q with
    entries := (s.me.queue q).entries ++ [v], covers := (s.me.queue q).covers ++ [s.coveredBy e],
    owed := (s.me.queue q).owed ++ [s.me.received] })

theorem State.queuePop_gives {s : State} {q : BitVec 4} {v : BitVec 64} (h : s.queueGives q v) :
    s.queuePop .m q = .ok v (s.popped q) := by
  obtain ⟨⟨⟨p, hbind⟩, -, hdone⟩, hhead⟩ := h
  obtain ⟨r, hr⟩ : ∃ r, (s.me.queue q).entries = v :: r := List.head?_eq_some_iff.1 hhead
  simp only [State.queuePop, State.popped, hbind, hdone, hr, if_true, List.tail_cons]

theorem State.queuePush_accepts {s : State} {e : Engine} {q : BitVec 4} (h : s.Accepts e q) (v : BitVec 64) :
    s.queuePush e q v = .ok () (s.pushed e q v) := by
  obtain ⟨⟨k, hbind⟩, hroom⟩ := h
  simp [State.queuePush, State.pushed, hbind, hroom]

theorem State.popped_same (s : State) (q : BitVec 4) (p : Aspect) (h : p ≠ .queue q) : s.same (s.popped q) p :=
  s.setQueue_same _ _ _ h

theorem State.pushed_same (s : State) (e : Engine) (q : BitVec 4) (v : BitVec 64) (p : Aspect) (h : p ≠ .queue q) :
    s.same (s.pushed e q v) p := s.setQueue_same _ _ _ h

theorem State.popped_of_queue {s t : State} {q : BitVec 4} (h : t.me.queue q = (s.popped q).me.queue q) : s.Popped t q := by
  unfold State.Popped
  rw [h]
  simp [State.popped]

theorem State.pushed_of_queue {s t : State} {e : Engine} {q : BitVec 4} {v : BitVec 64}
    (h : t.me.queue q = (s.pushed e q v).me.queue q) : s.Pushed t q v := by
  unfold State.Pushed
  rw [h]
  simp [State.pushed]

/-! ## Handing over (R131) -/

/-- The state once the mesh holds one more operation, with the words pending that it will write. -/
def State.handedOver (s : State) (ms : Nat) (k : MeshKind) (marks : Group → PendSrc → List PendMark) : State :=
  s.onMe fun g => (g.markPending (marks g (.mesh s.me.mesh.nextOp))).onMesh fun m =>
    { m with ops := m.ops ++ [s.newOp ms k], nextOp := m.nextOp + 1 }

theorem State.meshIssue_room {s : State} (h : s.meshRoom) (ms : Nat) (k : MeshKind) (marks : Group → PendSrc → List PendMark) :
    s.meshIssue ms k marks = .done (s.handedOver ms k marks) := by
  unfold State.meshIssue
  exact if_neg (Nat.not_le.2 h)

theorem State.meshIssue_full {s : State} (h : 8 ≤ s.me.mesh.ops.length) (ms : Nat) (k : MeshKind)
    (marks : Group → PendSrc → List PendMark) : s.meshIssue ms k marks = .wait := by
  unfold State.meshIssue
  exact if_pos h

theorem State.handedOver_handed (s : State) (ms : Nat) (k : MeshKind) (marks : Group → PendSrc → List PendMark) :
    s.Handed (s.handedOver ms k marks) ms k := by
  simp only [State.Handed, State.handedOver, State.me_onMe, Group.markPending_eq, Group.onMesh]

theorem State.Handed.of_endsAs {s u t : State} {ms : Nat} {k : MeshKind} (h : s.Handed u ms k) (ht : u.EndsAs t) :
    s.Handed t ms k := ht.mesh.trans h

theorem State.handedOver_same (s : State) (ms : Nat) (k : MeshKind) (marks : Group → PendSrc → List PendMark) (p : Aspect)
    (hm : p ≠ .mesh) (hp : p ≠ .pend) : s.same (s.handedOver ms k marks) p := by
  simp only [State.handedOver, Group.markPending_eq]
  have h' := s.same_refl p
  cases p with
  | mesh => exact absurd rfl hm
  | pend => exact absurd rfl hp
  | regs => exact fun r => by cases r <;> rfl
  | _ => exact h'

theorem State.handedOver_pend (s : State) (ms : Nat) (k : MeshKind) (marks : Group → PendSrc → List PendMark) :
    (s.handedOver ms k marks).me.work.pend =
      if s.me.pendOn then s.me.work.pend ++ marks s.me (.mesh s.me.mesh.nextOp) else s.me.work.pend := by
  simp only [State.handedOver, State.me_onMe, Group.markPending_eq, Group.onMesh]

/-- A word that takes an entry of a queue and hands over an operation. -/
theorem State.popped_handedOver {s t : State} {q : BitVec 4} {ms : Nat} {k : MeshKind} {marks : Group → PendSrc → List PendMark}
    (ht : ((s.popped q).handedOver ms k marks).EndsAs t) : s.Popped t q ∧ s.Handed t ms k :=
  ⟨State.popped_of_queue ((ht.queue q).trans (State.handedOver_same _ _ _ _ (.queue q) (by simp) (by simp))),
    ((s.popped q).handedOver_handed ..).of_endsAs ht⟩

/-- An operation that writes no words makes none pending. -/
theorem State.handedOver_unmarked_same (s : State) (ms : Nat) (k : MeshKind) (p : Aspect) (hm : p ≠ .mesh) :
    s.same (s.handedOver ms k fun _ _ => []) p := by
  by_cases hp : p = .pend
  · subst hp
    have h := s.handedOver_pend ms k fun _ _ => []
    rwa [List.append_nil, ite_self] at h
  · exact s.handedOver_same ms k _ p hm hp

/-- A word that only hands over an operation without pending words. -/
theorem handOver_holds {i : Instr} {y : BitVec 2} (ms : Nat) (k : MeshKind)
    (hx : ∀ s, exec i s = meshItem y s fun s => s.meshIssue ms k fun _ _ => []) :
    Claim.Holds { eng := .m, y := y, parts := [.mesh], pre := State.meshRoom, post := fun s t => s.Handed t ms k } i :=
  meshItem_holds _ hx fun a hroom =>
    ⟨_, a.meshIssue_room hroom .., fun p hp => a.handedOver_unmarked_same _ _ p fun h => hp (h ▸ List.mem_cons_self),
      fun _ ht => (a.handedOver_handed ..).of_endsAs ht⟩

/-! ## Pending words (R219) -/

theorem Group.isPending_of_mem {g : Group} {p : PendMark} {lo n : Nat} (hon : g.pendOn = true) (hp : p ∈ g.work.pend)
    (hlo : p.lo < lo + n) (hhi : lo < p.hi) : g.isPending p.acc p.core lo n = true := by
  simp only [Group.isPending, hon, Bool.true_and, List.any_eq_true]
  exact ⟨p, hp, by simp [hlo, hhi]⟩

theorem State.handedOver_marksAcc {s t : State} {ms : Nat} {k : MeshKind} {lo n : Nat} (hn : n ≠ 0)
    (ht : (s.handedOver ms k fun g src => g.accMarks lo n src ms).EndsAs t) : s.marksAcc t lo n := by
  have hpend := ht.pend.trans (s.handedOver_pend ..)
  have hon : t.me.pendOn = s.me.pendOn :=
    ht.pendOn.trans (by simp only [State.handedOver, State.me_onMe, Group.markPending_eq, Group.onMesh, Group.pendOn])
  refine ⟨fun hoff => ?_, fun hset w hlo hhi => ?_⟩
  · rw [hpend, hoff]; rfl
  · have hmem : (⟨true, s.me.ident.core, lo, lo + n, .mesh s.me.mesh.nextOp, ms⟩ : PendMark) ∈ t.me.work.pend := by
      rw [hpend, hset, Group.accMarks, if_neg hn]
      simp
    exact Group.isPending_of_mem (hon.trans hset) hmem (Nat.lt_succ_of_le hlo) hhi

/-! ## Checks -/

theorem need_true {b : Bool} (h : b = true) (c va : Nat) : need b c va = .ok () := by rw [h]; rfl

theorem need_false {b : Bool} (h : b = false) (c va : Nat) : need b c va = .error (c, va) := by rw [h]; rfl

theorem State.bound_wait {s : State} {zs : List (BitVec 4)} {z : BitVec 4} (hz : z ∈ zs) (h : (s.me.stream z).st = .unbound)
    (f : Effect) : s.bound zs f = .wait := by
  have hany : (zs.any fun z => (s.me.stream z).st == .unbound) = true := List.any_eq_true.2 ⟨z, hz, by rw [h]; rfl⟩
  rw [State.bound, hany]; rfl

theorem State.bound_go {s : State} {zs : List (BitVec 4)} (h : ∀ z ∈ zs, (s.me.stream z).st ≠ .unbound) (f : Effect) :
    s.bound zs f = f := by
  have hany : (zs.any fun z => (s.me.stream z).st == .unbound) = false :=
    List.any_eq_false.2 fun z hz => by simpa using h z hz
  rw [State.bound, hany]; rfl

/-! ## Images in the scratchpad (R135, R137, R139) -/

theorem memBytes_succ (m : Memory) (a n : Nat) : memBytes m a (n + 1) = memGet m a :: memBytes m (a + 1) n := by
  simp only [memBytes, List.range_succ_eq_map, List.map_cons, List.map_map, Nat.add_zero]
  exact congrArg _ (List.map_congr_left fun i _ => by simp only [Function.comp, Nat.succ_eq_add_one, Nat.add_assoc, Nat.add_comm 1])

theorem memBytes_drop_take (m : Memory) (a k off n : Nat) (h : off + n ≤ k) :
    ((memBytes m a k).drop off).take n = memBytes m (a + off) n := by
  apply List.ext_getElem
  · simp only [memBytes, List.length_take, List.length_drop, List.length_map, List.length_range]
    omega
  · intro i h1 h2
    simp [memBytes, Nat.add_assoc]

theorem State.ownNum_eq_leVal (s : State) (x n : Nat) : s.ownNum x n = leVal (memBytes s.me.store.spad x n) := by
  induction n generalizing x with
  | zero => rfl
  | succ n ih => rw [memBytes_succ, leVal, State.ownNum, ih]; rfl

theorem State.recField_spadBytes (s : State) (a k off n : Nat) (h : off + n ≤ k) :
    recField (s.me.spadBytes a k) off n = s.ownNum (a + off) n := by
  rw [recField, Group.spadBytes, memBytes_drop_take _ _ _ _ _ h, ← State.ownNum_eq_leVal]

theorem State.recZero_spadBytes (s : State) (a k off n : Nat) (h : off + n ≤ k) (hz : ∀ j < n, s.ownByte (a + off + j) = 0) :
    recZero (s.me.spadBytes a k) off n = true := by
  rw [recZero, Group.spadBytes, memBytes_drop_take _ _ _ _ _ h, List.all_eq_true]
  intro b hb
  obtain ⟨j, hj, rfl⟩ := List.mem_map.1 hb
  exact beq_iff_eq.2 (hz j (List.mem_range.1 hj))

theorem State.ownByte_of_ownNum_zero {s : State} {x n : Nat} (h : s.ownNum x n = 0) (j : Nat) (hj : j < n) : s.ownByte (x + j) = 0 := by
  induction n generalizing x j with
  | zero => exact absurd hj (Nat.not_lt_zero j)
  | succ n ih =>
    rw [State.ownNum] at h
    cases j with
    | zero => exact BitVec.eq_of_toNat_eq (by simpa using (show (s.ownByte x).toNat = 0 by omega))
    | succ j =>
      have hrest := ih (x := x + 1) (by omega) j (by omega)
      rwa [Nat.add_assoc, Nat.add_comm 1] at hrest

theorem Group.imageAt_ok (g : Group) {a : Nat} (ha : a % 64 = 0) (hb : a + 64 ≤ 2 ^ 26) : g.imageAt a = .ok () := by
  unfold Group.imageAt
  rw [need_true (beq_iff_eq.2 ha)]
  exact need_true (decide_eq_true (by omega)) _ _

theorem State.headerClear_spadBytes {s : State} {a : Nat} (h1 : s.ownNum (a + 1) 1 < 2) (h2 : s.ownNum (a + 2) 2 = 0)
    (h12 : ∀ k, 12 ≤ k → k < 64 → s.ownByte (a + k) = 0) : headerClear (s.me.spadBytes a 64) = true := by
  have hflags : recField (s.me.spadBytes a 64) 1 1 / 2 = 0 := by
    rw [s.recField_spadBytes _ _ _ _ (by omega)]
    exact Nat.div_eq_of_lt h1
  have hpair := s.recZero_spadBytes a 64 2 2 (by omega) (State.ownByte_of_ownNum_zero h2)
  have hrest := s.recZero_spadBytes a 64 12 52 (by omega) fun j hj => by
    rw [Nat.add_assoc]
    exact h12 _ (by omega) (by omega)
  simp only [headerClear, hflags, hpair, hrest, BEq.rfl, Bool.and_self]

theorem State.mloadCheck_ok {s : State} {a : Nat} (h : s.imageStands a) : s.me.mloadCheck a = .ok (s.ownNum a 1) := by
  obtain ⟨hal, hin, hpos, hmax, h1, h2, h12, hend, hfree⟩ := h
  have hn : recField (s.me.spadBytes a 64) 0 1 = s.ownNum a 1 := s.recField_spadBytes _ _ _ _ (by omega)
  have hhead : (s.ownNum a 1 != 0 && decide (s.ownNum a 1 ≤ 128) && headerClear (s.me.spadBytes a 64)) = true := by
    simp only [State.headerClear_spadBytes h1 h2 h12, Bool.and_true, Bool.and_eq_true, bne_iff_ne, decide_eq_true_eq]
    omega
  have hfit : decide (a + imageSize (s.ownNum a 1) ≤ 2 ^ 26) = true := decide_eq_true (by unfold imageSize; omega)
  have hpend : (!s.me.meshPending false a (imageSize (s.ownNum a 1)) fun _ => false) = true := by
    rw [imageSize, hfree]; rfl
  simp only [Group.mloadCheck, s.me.imageAt_ok hal hin, hn, need_true hhead, need_true hfit, need_true hpend]
  rfl

theorem Group.mstoreCheck_ok {g : Group} {a n : Nat} (hal : a % 64 = 0) (hend : a + 320 + 128 * n ≤ 2 ^ 26)
    (hfree : g.meshPending false a (320 + 128 * n) (fun _ => false) = false) : g.mstoreCheck a n = .ok () := by
  have hfit : decide (a + imageSize n ≤ 2 ^ 26) = true := decide_eq_true (by unfold imageSize; omega)
  have hpend : (!g.meshPending false a (imageSize n) fun _ => false) = true := by rw [imageSize, hfree]; rfl
  simp only [Group.mstoreCheck, g.imageAt_ok hal (by omega), need_true hfit, need_true hpend]
  rfl

theorem MeshState.exists_store_of_storing {m : MeshState} {ms : Nat} (h : m.storing ms = true) :
    ∃ o ∈ m.ops, o.ms = ms ∧ ∃ a b, o.kind = .store a b := by
  obtain ⟨o, ho, hs⟩ := List.any_eq_true.1 h
  rw [Bool.and_eq_true, beq_iff_eq] at hs
  obtain ⟨hms, hkind⟩ := hs
  refine ⟨o, ho, hms, ?_⟩
  cases hk : o.kind with
  | store a b => exact ⟨a, b, rfl⟩
  | _ => rw [hk] at hkind; cases hkind

theorem mload_holds (y : BitVec 2) (d : BitVec 3) (q : BitVec 4) (c : BitVec 1) (m : BitVec 2) (r : Claim)
    (h : meshRow (.mload y d q c m) = some r) : r.Holds (.mload y d q c m) := by
  cases h
  refine meshItem_holds _ (fun s => show execMload y d q c m s = _ from rfl) fun a ⟨hroom, hstore, v, hv, himage⟩ => ?_
  have hgo : ((a.popped q).me.mesh.storing m.toNat && !(a.popped q).me.pendOn) = false := by
    by_contra hne
    rw [Bool.not_eq_false, Bool.and_eq_true, Bool.not_eq_true'] at hne
    exact hstore ⟨hne.2, MeshState.exists_store_of_storing hne.1⟩
  have hcheck : (a.popped q).me.mloadCheck v.toNat = .ok (a.ownNum v.toNat 1) := State.mloadCheck_ok himage
  refine ⟨(a.popped q).handedOver m.toNat (.load d.toNat v.toNat (a.ownNum v.toNat 1) (c == 1)) fun _ _ => [], ?_, fun p hp => ?_,
    fun t ht => ⟨(State.popped_handedOver ht).1, v, hv, (State.popped_handedOver ht).2⟩⟩
  · rw [State.queuePop_gives hv]
    simp only [Got.then, hgo, hcheck, ofChk, Bool.false_eq_true, if_false]
    exact State.meshIssue_room (s := a.popped q) hroom ..
  · simp only [List.mem_cons, List.not_mem_nil, or_false, not_or] at hp
    exact State.same_trans _ _ _ _ (a.popped_same q p hp.2) (State.handedOver_unmarked_same _ _ _ p hp.1)

theorem mstore_holds (y : BitVec 2) (q : BitVec 4) (b : BitVec 3) (m : BitVec 2) (r : Claim)
    (h : meshRow (.mstore y q b m) = some r) : r.Holds (.mstore y q b m) := by
  cases h
  refine meshItem_holds _ (fun s => show execMstore y q b m s = _ from rfl) fun a ⟨hroom, v, hv, hal, hend, hfree⟩ => ?_
  have hcheck : (a.popped q).me.mstoreCheck v.toNat (max 1 ((a.popped q).me.countAhead m.toNat b.toNat)) = .ok () :=
    Group.mstoreCheck_ok hal hend hfree
  refine ⟨(a.popped q).handedOver m.toNat (.store v.toNat b.toNat) fun g src =>
      pendMarks (.spad g.ident.core v.toNat) (imageSize (max 1 ((a.popped q).me.countAhead m.toNat b.toNat))) src m.toNat, ?_, fun p hp => ?_,
    fun t ht => ⟨(State.popped_handedOver ht).1, v, hv, (State.popped_handedOver ht).2⟩⟩
  · rw [State.queuePop_gives hv]
    simp only [Got.then, hcheck, ofChk]
    exact State.meshIssue_room (s := a.popped q) hroom ..
  · simp only [List.mem_cons, List.not_mem_nil, or_false, not_or] at hp
    exact State.same_trans _ _ _ _ (a.popped_same q p hp.2.1) (State.handedOver_same _ _ _ _ p hp.1 hp.2.2)

theorem mclrWindow_holds (y : BitVec 2) (u w : BitVec 5) (m : BitVec 2) (r : Claim)
    (h : meshRow (.mclrWindow y u w m) = some r) : r.Holds (.mclrWindow y u w m) := by
  cases h
  refine meshItem_holds _ (fun s => show execMclrWindow y u w m s = _ from rfl) fun a ⟨hroom, hin, hfree⟩ => ?_
  refine ⟨a.handedOver m.toNat (.clrWindow (4096 * w.toNat) (u.toNat + 1)) fun g src =>
      g.accMarks (4096 * w.toNat) (4096 * (u.toNat + 1)) src m.toNat, ?_, fun p hp => ?_,
    fun t ht => ⟨(a.handedOver_handed ..).of_endsAs ht, State.handedOver_marksAcc (by omega) ht⟩⟩
  · have hbounds : ¬ accWords < 4096 * w.toNat + 4096 * (u.toNat + 1) := Nat.not_lt.2 hin
    simp only [hbounds, hfree, if_false, Bool.false_eq_true]
    exact a.meshIssue_room hroom ..
  · simp only [List.mem_cons, List.not_mem_nil, or_false, not_or] at hp
    exact a.handedOver_same _ _ _ p hp.1 hp.2

/-! ## Words that M executes itself -/

theorem fence_any_eq_true {ops : List MeshOp} {k : BitVec 4} :
    (ops.any fun o => k.getLsbD o.ms) = true ↔ ∃ o ∈ ops, o.ms < 4 ∧ k.getLsbD o.ms = true := by
  rw [List.any_eq_true]
  exact exists_congr fun o => and_congr_right fun _ => ⟨fun h => ⟨BitVec.lt_of_getLsbD h, h⟩, And.right⟩

theorem mfence_holds (y : BitVec 2) (k : BitVec 4) (r : Claim) (h : meshRow (.mfence y k) = some r) : r.Holds (.mfence y k) := by
  cases h
  refine meshItem_holds _ (fun s => show execMfence y k s = _ from rfl) fun a hdone =>
    ⟨a, if_neg fun hany => ?_, fun p _ => a.same_refl p, fun _ _ => trivial⟩
  obtain ⟨o, ho, hlt, hbit⟩ := fence_any_eq_true.1 hany
  exact Bool.false_ne_true ((hdone o ho hlt).symm.trans hbit)

theorem any_name_eq_true {bs : List Batch} {n : Nat} : (bs.any fun x => x.name == some n) = true ↔ ∃ x ∈ bs, x.name = some n := by
  simp only [List.any_eq_true, beq_iff_eq]

theorem any_name_eq_false {bs : List Batch} {n : Nat} (h : ∀ x ∈ bs, x.name ≠ some n) : (bs.any fun x => x.name == some n) = false :=
  List.any_eq_false.2 fun x hx => by simpa using h x hx

theorem mwaitb_holds (y : BitVec 2) (b : BitVec 4) (r : Claim) (h : meshRow (.mwaitb y b) = some r) : r.Holds (.mwaitb y b) := by
  cases h
  refine meshItem_holds _ (fun s => show execMwaitb y b s = _ from rfl) fun a hfree =>
    ⟨a, ?_, fun p _ => a.same_refl p, fun _ _ => trivial⟩
  rw [any_name_eq_false hfree]; rfl

/-- What MNORM and MSTAT share: an entry is pushed, and with `.clr` the mesh's counts change. -/
theorem pushThenClear_effect {a : State} {q : BitVec 4} (h : a.Accepts .m q) (v : BitVec 64) (c : BitVec 1) (f : MeshState → MeshState) :
    ∃ u, ((a.queuePush .m q v).then fun _ s1 => .done (if c = 1 then s1.onMesh f else s1)) = .done u ∧
      (∀ p, p ∉ [Aspect.queue q, .mesh] → a.same u p) ∧
      ∀ t, u.EndsAs t → a.Pushed t q v ∧ t.me.mesh = if c = 1 then f a.me.mesh else a.me.mesh := by
  rw [State.queuePush_accepts h]
  refine ⟨_, rfl, fun p hp => ?_, fun t ht => ?_⟩
  · simp only [List.mem_cons, List.not_mem_nil, or_false, not_or] at hp
    have hpush := a.pushed_same .m q v p hp.1
    split
    · exact State.same_trans _ _ _ _ hpush (State.onMesh_same _ _ p hp.2)
    · exact hpush
  · have hq := ht.queue q
    have hm := ht.mesh
    by_cases hc : c = 1
    · rw [if_pos hc] at hq hm ⊢
      exact ⟨State.pushed_of_queue hq, hm⟩
    · rw [if_neg hc] at hq hm ⊢
      exact ⟨State.pushed_of_queue hq, hm⟩

theorem mnorm_holds (y : BitVec 2) (d : BitVec 4) (m : BitVec 2) (c : BitVec 1) (r : Claim)
    (h : meshRow (.mnorm y d m c) = some r) : r.Holds (.mnorm y d m c) := by
  cases h
  refine meshItem_holds _ (fun s => show execMnorm y d m c s = _ from rfl) fun a ⟨hidle, hq⟩ => ?_
  have hany : (a.me.mesh.ops.any fun o => o.ms == m.toNat) = false := List.any_eq_false.2 fun o ho => by simpa using hidle o ho
  simp only [hany, Bool.false_eq_true, if_false]
  exact pushThenClear_effect hq _ c _

/-! ## MSTAT (R151) -/

theorem foldl_add_eq_sum {α : Type} (f : α → Nat) (l : List α) : l.foldl (fun k x => k + f x) 0 = (l.map f).sum := by
  rw [List.sum_eq_foldl, List.foldl_map]

/-- The names in use as a mask: a batch without a name adds nothing. -/
theorem namesMask_eq (bs : List Batch) :
    (bs.map fun b => (b.name.map (2 ^ ·)).getD 0).sum = ((bs.filterMap (·.name)).map (2 ^ ·)).sum := by
  induction bs with
  | nil => rfl
  | cons b bs ih => cases hb : b.name <;> simp [hb, ih]

/-- R151: a selector that names no entry reads as 0, in the model and in the claim. -/
theorem MeshState.stat_of_unnamed (m : MeshState) {sel : Nat} (h : sel = 0 ∨ 5 < sel) : m.stat sel = 0 := by
  unfold MeshState.stat
  split
  case h_6 => rfl
  all_goals omega

theorem statEntry_of_unnamed (m : MeshState) {sel : Nat} (h : sel = 0 ∨ 5 < sel) : statEntry m sel = 0 := by
  unfold statEntry
  split
  case h_6 => rfl
  all_goals omega

theorem MeshState.stat_eq (m : MeshState) (sel : Nat) : m.stat sel = statEntry m sel := by
  have hnames : m.batches.foldl (fun k b => k + (b.name.map (2 ^ ·)).getD 0) 0 = ((m.batches.filterMap (·.name)).map (2 ^ ·)).sum :=
    (foldl_add_eq_sum _ _).trans (namesMask_eq _)
  obtain h | rfl | rfl | rfl | rfl | rfl :
      (sel = 0 ∨ 5 < sel) ∨ sel = 1 ∨ sel = 2 ∨ sel = 3 ∨ sel = 4 ∨ sel = 5 := by omega
  · rw [m.stat_of_unnamed h, statEntry_of_unnamed m h]
  · exact (BitVec.ofNat_toNat ..).symm
  · exact (BitVec.ofNat_toNat ..).symm
  · exact (BitVec.ofNat_toNat ..).symm
  · refine congrArg (BitVec.ofNat 64) ((List.foldl_ext _ _ 0 fun k b _ => ?_).trans hnames)
    cases b.name <;> rfl
  · exact congrArg (BitVec.ofNat 64) (foldl_add_eq_sum _ _)

theorem MeshState.clearStat_eq (m : MeshState) {sel : BitVec 4} (h : 1 ≤ sel.toNat ∧ sel.toNat ≤ 3) :
    m.clearStat sel.toNat = { m with
      satcnt := if sel = 1 then 0 else m.satcnt
      chkmiss := if sel = 2 then 0 else m.chkmiss
      idxerr := if sel = 3 then 0 else m.idxerr } := by
  obtain rfl | rfl | rfl : sel = 1 ∨ sel = 2 ∨ sel = 3 := by bv_omega
  all_goals rfl

theorem mstat_holds (y : BitVec 2) (d : BitVec 4) (c : BitVec 1) (sel : BitVec 4) : (mstatClaim y d c sel).Holds (.mstat y d c sel) := by
  refine meshItem_holds _ (fun s => show execMstat y d c sel s = _ from rfl) fun a ⟨hq, hmax, hclr⟩ => ?_
  have hlegal : ¬ (5 < sel.toNat ∨ (c = 1 ∧ (sel.toNat = 0 ∨ 3 < sel.toNat))) := by
    rintro (h | ⟨hc, h⟩)
    · omega
    · have := hclr hc; omega
  simp only [if_neg hlegal, MeshState.stat_eq]
  obtain ⟨u, hu, hframe, hpost⟩ := pushThenClear_effect hq (statEntry a.me.mesh sel.toNat) c (·.clearStat sel.toNat)
  refine ⟨u, hu, hframe, fun t ht => ⟨(hpost t ht).1, (hpost t ht).2.trans ?_⟩⟩
  split
  case isTrue hc => exact a.me.mesh.clearStat_eq (hclr hc)
  case isFalse => rfl

/-! ## MCOMMIT (R148) -/

/-- R148: the open batch is one without a name, or where there is none a new one without windows. -/
theorem MeshState.open_cases (m : MeshState) :
    (∃ o ∈ m.batches, o.name = none ∧ m.open_ = (m, o)) ∨
    (∀ o ∈ m.batches, o.name ≠ none) ∧
      m.open_ = ({ m with batches := m.batches ++ [⟨m.nextBatch, none, []⟩], nextBatch := m.nextBatch + 1 }, ⟨m.nextBatch, none, []⟩) := by
  unfold MeshState.open_
  cases hf : m.batches.find? fun b => b.name.isNone with
  | some o =>
    have hopen : o.name.isNone = true := List.find?_some (p := fun b : Batch => b.name.isNone) hf
    exact .inl ⟨o, List.mem_of_find?_eq_some hf, Option.isNone_iff_eq_none.1 hopen, rfl⟩
  | none => exact .inr ⟨fun o ho hn => by simpa [hn] using List.find?_eq_none.1 hf o ho, rfl⟩

/-- What MCOMMIT does to the mesh. -/
def MeshState.commit (m : MeshState) (n : Nat) : MeshState := m.open_.1.onBatch m.open_.2.id fun x => { x with name := some n }

theorem MeshState.commit_ops (m : MeshState) (n : Nat) : (m.commit n).ops = m.ops ∧ (m.commit n).banks = m.banks := by
  obtain ⟨o, -, -, ho⟩ | ⟨-, ho⟩ := m.open_cases <;> rw [MeshState.commit, ho] <;> exact ⟨rfl, rfl⟩

theorem MeshState.mem_onBatch {m : MeshState} {id : Nat} {f : Batch → Batch} {x : Batch} :
    x ∈ (m.onBatch id f).batches ↔ ∃ b ∈ m.batches, (if b.id = id then f b else b) = x := List.mem_map

theorem eq_of_length_le_one {α : Type} {l : List α} (h : l.length ≤ 1) {x y : α} (hx : x ∈ l) (hy : y ∈ l) : x = y := by
  obtain ⟨z, rfl⟩ : ∃ z, l = [z] := List.length_eq_one_iff.1 (le_antisymm h (List.length_pos_of_mem hx))
  rw [List.mem_singleton.1 hx, List.mem_singleton.1 hy]

theorem MeshState.onBatch_named {m : MeshState} {id n : Nat} (h : ∀ b ∈ m.batches, b.name = none → b.id = id) :
    ∀ x ∈ (m.onBatch id fun x => { x with name := some n }).batches, x.name ≠ none := by
  intro x hx hnone
  obtain ⟨b, hb, rfl⟩ := MeshState.mem_onBatch.1 hx
  split at hnone
  case isTrue => cases hnone
  case isFalse hid => exact hid (h b hb hnone)

/-- R148: at most one batch is open, so that MCOMMIT leaves none without a name. -/
theorem MeshState.commit_named {m : MeshState} (n : Nat) (hone : (m.batches.filter fun x => x.name.isNone).length ≤ 1) :
    ∀ x ∈ (m.commit n).batches, x.name ≠ none := by
  obtain ⟨o, ho, hon, hopen⟩ | ⟨hall, hopen⟩ := m.open_cases <;> rw [MeshState.commit, hopen] <;>
    refine MeshState.onBatch_named fun b hb hnone => ?_
  · have hmem : ∀ y ∈ m.batches, y.name = none → y ∈ m.batches.filter fun x => x.name.isNone := fun y hy hn =>
      List.mem_filter.2 ⟨hy, by rw [hn]; rfl⟩
    rw [eq_of_length_le_one hone (hmem b hb hnone) (hmem o ho hon)]
  · obtain hb | hb := List.mem_append.1 hb
    · exact absurd hnone (hall b hb)
    · rw [List.mem_singleton.1 hb]

theorem MeshState.commit_mem (m : MeshState) (n : Nat) :
    ∃ x ∈ (m.commit n).batches, x.name = some n ∧
      ((∃ o ∈ m.batches, o.name = none ∧ x = { o with name := some n }) ∨ (∀ o ∈ m.batches, o.name ≠ none) ∧ x.wins = []) := by
  obtain ⟨o, ho, hon, hopen⟩ | ⟨hall, hopen⟩ := m.open_cases
  · refine ⟨{ o with name := some n }, ?_, rfl, .inl ⟨o, ho, hon, rfl⟩⟩
    rw [MeshState.commit, hopen]
    exact MeshState.mem_onBatch.2 ⟨o, ho, if_pos rfl⟩
  · refine ⟨⟨m.nextBatch, some n, []⟩, ?_, rfl, .inr ⟨hall, rfl⟩⟩
    rw [MeshState.commit, hopen]
    exact MeshState.mem_onBatch.2 ⟨_, List.mem_append_right _ List.mem_cons_self, if_pos rfl⟩

theorem mcommit_holds (y : BitVec 2) (b : BitVec 4) (r : Claim) (h : meshRow (.mcommit y b) = some r) : r.Holds (.mcommit y b) := by
  cases h
  refine meshItem_holds _ (fun s => show execMcommit y b s = _ from rfl) fun a ⟨hfree, hfour, hone, _, _⟩ =>
    ⟨a.onMesh fun m => m.commit b.toNat, ?_, fun p hp => ?_, fun t ht => ?_⟩
  · simp only [any_name_eq_false hfree, Bool.false_eq_true, if_false, Nat.not_le.2 hfour]
    rfl
  · exact a.onMesh_same _ p fun h => hp (h ▸ List.mem_cons_self)
  · have hm : t.me.mesh = a.me.mesh.commit b.toNat := ht.mesh
    rw [hm]
    exact ⟨(a.me.mesh.commit_ops _).1, (a.me.mesh.commit_ops _).2, MeshState.commit_named _ hone, a.me.mesh.commit_mem _⟩

/-! ## The obligation -/

theorem meshRow_holds (i : Instr) (c : Claim) (h : meshRow i = some c) : c.Holds i := by
  cases i with
  | nopM y => cases h; exact meshItem_holds _ (fun _ => rfl) fun a _ => ⟨a, rfl, fun p _ => a.same_refl p, fun _ _ => trivial⟩
  | mscale y d a m => cases h; exact handOver_holds _ _ fun _ => rfl
  | mclrBank y d m => cases h; exact handOver_holds _ _ fun _ => rfl
  | mclrWindow => exact mclrWindow_holds _ _ _ _ c h
  | mfence => exact mfence_holds _ _ c h
  | mwaitb => exact mwaitb_holds _ _ c h
  | mnorm => exact mnorm_holds _ _ _ _ c h
  | mcommit => exact mcommit_holds _ _ c h
  | mload => exact mload_holds _ _ _ _ _ c h
  | mstore => exact mstore_holds _ _ _ _ c h
  | _ => cases h

theorem meshStall_waits (i : Instr) (y : BitVec 2) (p : State → Prop) (h : meshStall i = some (y, p)) (s : State) (hr : s.Ready .m y [])
    (hp : p (s.arrived .m y)) : ∃ t, exec i s = .next t ∧ s.Waits .m t := by
  cases i with
  | mfence y k => cases h; exact meshItem_wait (show execMfence y k s = _ from rfl) hr (if_pos (fence_any_eq_true.2 hp))
  | mwaitb y b => cases h; exact meshItem_wait (show execMwaitb y b s = _ from rfl) hr (if_pos (any_name_eq_true.2 hp))
  | mnorm y d m c =>
    cases h
    obtain ⟨o, ho, hms⟩ := hp
    have hbusy : ((s.arrived .m y).me.mesh.ops.any fun o => o.ms == m.toNat) = true := List.any_eq_true.2 ⟨o, ho, beq_iff_eq.2 hms⟩
    exact meshItem_wait (show execMnorm y d m c s = _ from rfl) hr (if_pos hbusy)
  | mscale y d a m => cases h; exact meshItem_wait (show execMscale y d a m s = _ from rfl) hr (State.meshIssue_full hp ..)
  | mclrBank y d m => cases h; exact meshItem_wait (show execMclrBank y d m s = _ from rfl) hr (State.meshIssue_full hp ..)
  | msweep y d z b m p g c f =>
    cases h
    obtain hz | hd := hp
    · exact meshItem_wait (show execMsweep y d z b m p g c f s = _ from rfl) hr (State.bound_wait (by simp) hz _)
    · exact meshItem_wait (show execMsweep y d z b m p g c f s = _ from rfl) hr (State.bound_wait (by simp) hd _)
  | mderive y d z b m p =>
    cases h
    obtain hz | hd := hp
    · exact meshItem_wait (show execMderive y d z b m p s = _ from rfl) hr (State.bound_wait (by simp) hz _)
    · exact meshItem_wait (show execMderive y d z b m p s = _ from rfl) hr (State.bound_wait (by simp) hd _)
  | mpanel y d m => cases h; exact meshItem_wait (show execMpanel y d m s = _ from rfl) hr (State.bound_wait (by simp) hp _)
  | mslice y w z n f p m => cases h; exact meshItem_wait (show execMslice y w z n f p m s = _ from rfl) hr (State.bound_wait (by simp) hp _)
  | mretire y d w n r p m => cases h; exact meshItem_wait (show execMretire y d w n r p m s = _ from rfl) hr (State.bound_wait (by simp) hp _)
  | _ => cases h

/-- R46: a profile that is neither 1 nor, outside Nivose mode, 0 stops MDERIVE before its other checks. -/
theorem Group.deriveCheck_profile {g : Group} {p : BitVec 4} (d z : BitVec 4) (h : p ≠ 1 ∧ (p ≠ 0 ∨ g.nivose = true)) :
    g.deriveCheck d z p = .error (causeIllegal, 0) := by
  have hno : (p.toNat == 1 || (p == 0 && !g.nivose)) = false := by
    obtain ⟨h1, h0⟩ := h
    have h1' : p.toNat ≠ 1 := fun e => h1 (BitVec.eq_of_toNat_eq e)
    rw [Bool.or_eq_false_iff, Bool.and_eq_false_iff, beq_eq_false_iff_ne, beq_eq_false_iff_ne, Bool.not_eq_false']
    exact ⟨h1', h0⟩
  rw [Group.deriveCheck, needProfile, need_false hno]
  rfl

/-- The codes of .i16 and .i32. -/
theorem tyOfCode_word {n w : Nat} (h : tyOfCode n = some (.int true w)) (hw : w = 16 ∨ w = 32) : n ∈ [1, 2] := by
  unfold tyOfCode at h
  split at h <;> cases h <;> simp at hw ⊢

/-- R145: a panel's header comes on an undrained stream of .i16 or .i32 with a pattern. -/
theorem Stream.headVectors_none {z : Stream} (h : z.pat.drained = true ∨ z.pat.lanes = true ∨ z.pat.direct = true ∨ z.fmt ∉ [1, 2]) :
    z.headVectors = none := by
  unfold Stream.headVectors
  split
  · rfl
  case isFalse hb =>
    simp only [Bool.or_eq_true, not_or] at hb
    obtain ⟨⟨hdr, hln⟩, hdi⟩ := hb
    have hf : z.fmt ∉ [1, 2] := ((h.resolve_left hdr).resolve_left hln).resolve_left hdi
    split
    · next ht => exact absurd (tyOfCode_word ht (.inr rfl)) hf
    · next ht => exact absurd (tyOfCode_word ht (.inl rfl)) hf
    · rfl

theorem meshTrap_traps (i : Instr) (y : BitVec 2) (f : State → Option Nat) (h : meshTrap i = some (y, f)) (s : State)
    (hr : s.Ready .m y []) (c : Nat) (hc : f (s.arrived .m y) = some c) : exec i s = .next (s.trapAt .m c 0 0 false) := by
  cases i with
  | mcommit y b =>
    cases h
    obtain ⟨hany, ⟨⟩⟩ := Option.ite_none_right_eq_some.1 hc
    exact meshItem_trap (show execMcommit y b s = _ from rfl) hr (if_pos hany)
  | mstat y d clr sel =>
    cases h
    obtain ⟨hbad, ⟨⟩⟩ := Option.ite_none_right_eq_some.1 hc
    have hill : 5 < sel.toNat ∨ (clr = 1 ∧ (sel.toNat = 0 ∨ 3 < sel.toNat)) :=
      hbad.imp_right fun ⟨hclr, hsel⟩ => ⟨hclr, hsel.imp_left fun e => congrArg BitVec.toNat e⟩
    exact meshItem_trap (show execMstat y d clr sel s = _ from rfl) hr (if_pos hill)
  | mderive y d z b m p =>
    cases h
    obtain ⟨⟨hz, hd, hprof⟩, ⟨⟩⟩ := Option.ite_none_right_eq_some.1 hc
    refine meshItem_trap (show execMderive y d z b m p s = _ from rfl) hr ((State.bound_go (by simp [hz, hd]) _).trans ?_)
    rw [Group.deriveCheck_profile d z hprof]; rfl
  | mpanel y d m =>
    cases h
    obtain ⟨⟨hd, hform⟩, ⟨⟩⟩ := Option.ite_none_right_eq_some.1 hc
    refine meshItem_trap (show execMpanel y d m s = _ from rfl) hr ((State.bound_go (by simp [hd]) _).trans ?_)
    rw [Stream.headVectors_none hform]
  | _ => cases h

/-- Settles O46: each row of `meshRow` and MSTAT by the rule of its word, and the tables of stalls and traps word by word. -/
theorem meshWords : Obligations.MeshWords := ⟨meshRow_holds, mstat_holds, meshStall_waits, meshTrap_traps⟩

end Sys2Proof.Machine
end

section
/-! SUPPORT. Handles and the tag table (08_memory_ops R161, R162, R170, R171): lists by number, the fields of the status word, the items
that change the tag table only, and from them each row's claim and XLATE's trap. -/

namespace Sys2Proof.Machine

/-! ## Lists by number -/

theorem assocGet_append {α : Type} (l m : List (Nat × α)) (k : Nat) : assocGet (l ++ m) k = (assocGet l k).or (assocGet m k) := by
  induction l with
  | nil => rfl
  | cons p r ih =>
    simp only [List.cons_append, assocGet, ih]
    split <;> rfl

theorem assocGet_filter {α : Type} (l : List (Nat × α)) (f : Nat → Bool) (k : Nat) :
    assocGet (l.filter fun p => f p.1) k = if f k then assocGet l k else none := by
  induction l with
  | nil => simp [assocGet]
  | cons p r ih =>
    by_cases hp : p.1 = k
    · cases hf : f k <;> simp [assocGet, ih, hp, hf]
    · cases hf : f p.1 <;> simp [assocGet, ih, hp, hf]

@[simp] theorem assocGet_assocDrop {α : Type} (l : List (Nat × α)) (k n : Nat) :
    assocGet (assocDrop l k) n = if n = k then none else assocGet l n := by
  rw [assocDrop, assocGet_filter l fun m => decide (m ≠ k)]
  by_cases h : n = k <;> simp [h]

@[simp] theorem assocGet_assocSet {α : Type} (l : List (Nat × α)) (k n : Nat) (v : α) :
    assocGet (assocSet l k v) n = if n = k then some v else assocGet l n := by
  rw [assocSet, assocGet_append, assocGet_filter l fun m => decide (m < k), assocGet, assocGet_filter l fun m => decide (k < m)]
  rcases Nat.lt_trichotomy n k with h | rfl | h
  · simp [h, Nat.lt_asymm h, h.ne, h.ne']
  · simp
  · simp [h, Nat.lt_asymm h, h.ne, h.ne']

/-! ## The status word (R162) -/

theorem getLsbD_of_toNat {w : BitVec 64} {i : Nat} {b : Bool} (h : w.toNat / 2 ^ i % 2 = b.toNat) : w.getLsbD i = b := by
  rw [BitVec.getLsbD, Nat.testBit_eq_decide_div_mod_eq, h]
  cases b <;> rfl

theorem extractLsb'_of_toNat {w : BitVec 64} {lo n : Nat} {x : BitVec n} (h : w.toNat / 2 ^ lo % 2 ^ n = x.toNat) :
    w.extractLsb' lo n = x :=
  BitVec.eq_of_toNat_eq (by rw [BitVec.extractLsb'_toNat, Nat.shiftRight_eq_div_pow, h])

theorem Handle.status_toNat (h : Handle) :
    h.status.toNat = h.valid.toNat * 2 ^ 63 + h.kind.toNat * 2 ^ 60 + h.size.toNat * 2 ^ 58 + h.wr.toNat * 2 ^ 57 +
      h.sealed.toNat * 2 ^ 56 + h.digest.toNat * 2 ^ 55 + h.profile.toNat * 2 ^ 54 + h.pa.toNat := by
  have hbit (b : Bool) (n : Nat) : (if b then 2 ^ n else 0) = b.toNat * 2 ^ n := by cases b <;> simp
  have := h.valid.toNat_le; have := h.wr.toNat_le; have := h.sealed.toNat_le; have := h.digest.toNat_le; have := h.profile.toNat_le
  simp only [Handle.status, hbit, BitVec.toNat_ofNat]
  omega

theorem Handle.status_isStatus (h : Handle) : IsStatus h h.status := by
  have hw := h.status_toNat
  have := h.valid.toNat_le; have := h.wr.toNat_le; have := h.sealed.toNat_le; have := h.digest.toNat_le; have := h.profile.toNat_le
  refine ⟨getLsbD_of_toNat ?_, extractLsb'_of_toNat ?_, extractLsb'_of_toNat ?_, getLsbD_of_toNat ?_, getLsbD_of_toNat ?_,
    getLsbD_of_toNat ?_, getLsbD_of_toNat ?_, extractLsb'_of_toNat ?_, extractLsb'_of_toNat ?_⟩ <;>
    simp only [hw, BitVec.ofNat_eq_ofNat, BitVec.toNat_zero] <;> omega

theorem hchk_holds (y : BitVec 2) (d : BitVec 5) (a : BitVec 4) :
    (hchkClaim y d fun s => (s.me.hreg a).status).Holds (.hchk y d a) :=
  Claim.holds_result _ _ (.s d) _ 2 (fun _ => rfl) rfl rfl (fun _ _ => trivial) fun _ => rfl

/-! ## XLATE and HDROP (R161) -/

theorem xlate_holds (y : BitVec 2) (d : BitVec 4) (a : BitVec 5) (c : Claim) (h : handleRow (.xlate y d a) = some c) :
    c.Holds (.xlate y d a) := by
  cases h
  refine Claim.holds_done _ _ _ (fun _ => rfl) (fun s => show execXlate y d a s = _ from rfl) fun s _ ⟨hva, hpage⟩ =>
    ⟨_, ?_, Claim.fits_result _ s (.h d) _ 24 rfl rfl, fun _ => trivial⟩
  obtain ⟨hd, hhd⟩ := Option.isSome_iff_exists.1 hpage
  simp only [if_neg (Nat.not_le.2 hva), hhd, Option.getD_some]

/-- R161: bits [63:56] that are not zero, and an address on no page, are BOUNDS. -/
theorem xlate_bounds (s : State) (y : BitVec 2) (d : BitVec 4) (a : BitVec 5) (hr : s.Ready .c y [.s a])
    (h : 2 ^ 56 ≤ ((s.arrived .c y).me.sreg a).toNat ∨ (s.arrived .c y).translate (s.arrived .c y).me.ident.ctx
      ((s.arrived .c y).me.sreg a).toNat (s.arrived .c y).me.syspriv = none) :
    exec (.xlate y d a) s = .next (s.trapAt .c causeBounds 0 ((s.arrived .c y).me.sreg a).toNat false) := by
  refine (show exec _ s = execXlate y d a s from rfl).trans (issue_trap _ _ _ _ _ _ _ _ hr rfl ?_)
  dsimp only
  split
  · rfl
  case isFalse hva => rw [h.resolve_left hva]

/-! ## The tag table (R170, R171) -/

/-- A state with another tag table for the group in focus. -/
def State.setTags (s : State) (l : List (Nat × TagEntry)) : State := s.onMe fun g => { g with store := { g.store with tags := l } }

theorem State.setTags_same (s : State) (l : List (Nat × TagEntry)) (p : Aspect) (h : p ≠ .tags) : s.same (s.setTags l) p := by
  have h' := s.same_refl p
  cases p with
  | tags => exact absurd rfl h
  | regs => exact fun r => by cases r <;> rfl
  | _ => exact h'

/-- An item of C that sets the tag table, and nothing else, meets its claim. -/
theorem tagItem_holds {i : Instr} {y : BitVec 2} {srcs : List Reg} {pre : State → Prop} {post : State → State → Prop}
    (tags : State → List (Nat × TagEntry)) (body : State → Effect) (hx : ∀ s, exec i s = issue .c y srcs s fun s _ => body s)
    (hb : ∀ a, pre a → body a = .done (a.setTags (tags a))) (hpost : ∀ a t, t.me.store.tags = tags a → post a t) :
    Claim.Holds { eng := .c, y := y, srcs := srcs, parts := [.tags], pre := pre, post := post } i := by
  refine Claim.holds_done _ i _ (fun _ => rfl) hx fun s _ hpre => ⟨_, hb _ hpre, ?_, fun via => hpost _ _ ?_⟩
  · refine ⟨.refl _ _, .refl _ _, State.setTags_same _ _ _ (by simp), rfl, fun p hn => State.setTags_same _ _ p fun e => hn ?_⟩
    simp [e]
  · exact State.closed_same s _ _ .c y via .tags (State.same_refl _ .tags) (by simp) (by simp)

theorem Store.tsetCheck_ok {m : Store} {n va slot z : Nat} (h : tagAllowed m.tags n va slot z) :
    m.tsetCheck n va slot z = .ok ⟨z, va / 2 ^ (12 + z), slot⟩ := by
  obtain ⟨hn, hz, hva, hslot, hhigh, hend, hfree⟩ := h
  have hapart : (m.tags.all fun p => p.1 == n || decide (va + 2 ^ (12 + z) ≤ p.2.base) || decide (p.2.base + p.2.size ≤ va)) = true :=
    List.all_eq_true.2 fun p hp => by simpa [or_assoc] using hfree p hp
  have haligned : (va % 2 ^ (12 + z) == 0 && slot % 2 ^ (12 + z) == 0) = true := by rw [hva, hslot]; rfl
  simp only [Store.tsetCheck, need_true (decide_eq_true hn), need_true (decide_eq_true hz), need_true haligned,
    need_true (decide_eq_true hhigh), need_true (decide_eq_true hend), need_true hapart]
  rfl

/-- R171: each row of the tag table's instructions. -/
theorem tagRow_holds (i : Instr) (c : Claim) (h : tagRow i = some c) : c.Holds i := by
  cases i with
  | tlook y d a =>
    cases h
    exact Claim.holds_result _ _ (.s d) _ 3 (fun _ => rfl) rfl rfl (fun _ _ => trivial) fun _ => rfl
  | tset y d a b z =>
    cases h
    refine tagItem_holds (fun s => assocSet s.me.store.tags (s.me.sreg d).toNat
        ⟨z.toNat, (s.me.sreg a).toNat / 2 ^ (12 + z.toNat), (s.me.sreg b).toNat⟩) _
      (fun s => show execTset y d a b z s = _ from rfl) (fun s hpre => ?_) fun s t ht => ?_
    · dsimp only
      rw [Store.tsetCheck_ok hpre]; rfl
    · simp +contextual [ht]
  | tclr y d l =>
    cases h
    refine tagItem_holds (fun s => if l = 1 then [] else assocDrop s.me.store.tags (s.me.sreg d).toNat) _
      (fun s => show execTclr y d l s = _ from rfl) (fun s hpre => ?_) fun s t ht n => ?_
    · by_cases hl : l = 1
      · simp only [if_pos hl] at hpre ⊢
        rw [if_neg (not_not.2 hpre)]; rfl
      · simp only [if_neg hl] at hpre ⊢
        rw [if_neg (Nat.not_lt.2 hpre)]; rfl
    · by_cases hl : l = 1
      · rw [ht, if_pos hl, if_pos (.inl hl)]; rfl
      · rw [ht, if_neg hl, assocGet_assocDrop]
        simp only [hl, false_or]
  | _ => cases h

/-- R161: XLATE and HDROP. -/
theorem handleRow_holds (i : Instr) (c : Claim) (h : handleRow i = some c) : c.Holds i := by
  cases i with
  | xlate y d a => exact xlate_holds y d a c h
  | hdrop y d =>
    cases h
    exact Claim.holds_result _ _ (.h d) _ 1 (fun _ => rfl) rfl rfl (fun _ _ => trivial) fun _ => rfl
  | _ => cases h

/-- Settles O24: each row of the two tables, the status word by its fields, and the trap of XLATE. -/
theorem handlesAndTags : Obligations.HandlesAndTags :=
  ⟨fun i c h => h.elim (handleRow_holds i c) (tagRow_holds i c),
    fun y d a => ⟨_, fun s => (s.me.hreg a).status_isStatus, hchk_holds y d a⟩,
    fun s y d a hr h => xlate_bounds s y d a hr h⟩

end Sys2Proof.Machine
end

section
/-! SUPPORT. The check of R58 on the base field of a memory operand is one of R70 and comes before the access: its trap is none of an
access through bank h15 (10_system R213), whatever handle the field would name. -/

namespace Sys2Proof.Machine

theorem State.Ready.no_sources {s : State} {e : Engine} {y : BitVec 2} {srcs : List Reg} (h : s.Ready e y srcs) : s.Ready e y [] :=
  ⟨h.runs, h.noskip, h.live, List.find?_eq_none.2 fun _ _ => by simp⟩

/-- R70: an item whose fields fail a check traps without an access. -/
theorem issuePre_trap {e : Engine} {y : BitVec 2} {srcs : List Reg} {s : State} (hr : s.Ready e y srcs) (c : Nat)
    (body : State → Nat → Effect) : issuePre (some c) e y srcs s body = .next (s.trapAt e c 0 0 false) :=
  issue_trap e y [] s (fun _ _ => .trap c 0 0) c 0 0 hr.no_sources rfl rfl

theorem execLd_badBase {s : State} {y : BitVec 2} {t b : BitVec 5} {w : BitVec 3} {ix : BitVec 1} {x : BitVec 5}
    (hr : s.Ready .c y (ldstSrcs 1 b ix x)) (hb : b.getLsbD 4 = true) :
    exec (.ld y t b 1 w ix x) s = .next (s.trapAt .c causeReserved 0 0 false) := by
  refine (show exec _ s = execLd y t b 1 w ix x s from rfl).trans ?_
  rw [execLd, badBase, hb]
  exact issuePre_trap hr _ _

/-- FLT2CAUSE of a context (13_context R267). -/
def State.flt2Cause (s : State) (ctx : Nat) : Option (BitVec 64) := (s.ctx ctx).bind fun c => c.fault.map (·.cause)

/-- A context in which nothing has happened. -/
def quietContext : Context :=
  { st := .ready, rcbs := [], binds := [], gens := [], routines := [], slots := [], bars := []
    root := { ttbase := 0, nqbase := 0, nqlen := 0, accthr := 0, ctrfirst := 0, ctrcount := 0, qfirst := 0, qcount := 0
              nivose := false, syspriv := false, revms := 0, trbase := 0, trlog := 0, rtbase := 0, rtcount := 0 }
    digests := Vector.replicate 4 0, gendrop := 0, revoked := 0, fault := none, accs := [], cmd := none, sources := [], ringHdr := none }

/-- A group in handler mode, past the handler's first item, that has made no access through bank h15. -/
def beforeBankAccess : State :=
  { State.reset with
    me := { Group.blank 0 with phase := .handler, hand := { (Group.blank 0).hand with csave := some .placed, firstH15 := true } }
    ctxs := [(0, quietContext)] }

theorem beforeBankAccess_ready : beforeBankAccess.Ready .c 0 [.h 15] := ⟨rfl, rfl, rfl, rfl⟩

theorem beforeBankAccess_fault : (beforeBankAccess.trapAt .c causeReserved 0 0 false).flt2Cause 0 = some 0x02 := by decide

theorem beforeBankAccess_doubleFault : (beforeBankAccess.trapAt .c causeReserved 0 0 true).flt2Cause 0 = some 0x12 := by decide

/-- Refutes O22: LD with H = 1 and base = 31, in a handler that has made no access through bank h15. The reserved base[14] traps
RESERVED_FIELD before any access (R70), and FLT2CAUSE is 2; the statement, which reads h15 off base[13:10], asks for the double
fault of a first access through it. -/
theorem not_memoryTraps : ¬ Obligations.MemoryTraps := by
  intro ⟨hAccess, _⟩
  have hclaimed : exec (.ld 0 1 31 1 7 1 0) beforeBankAccess = .next (beforeBankAccess.trapAt .c causeReserved 0 0 true) :=
    hAccess _ (ldStOf 0 1 31 1 7 1 0) _ (.inl ⟨rfl, rfl⟩) _ _ _ beforeBankAccess_ready rfl
  have hdone : exec (.ld 0 1 31 1 7 1 0) beforeBankAccess = .next (beforeBankAccess.trapAt .c causeReserved 0 0 false) :=
    execLd_badBase beforeBankAccess_ready rfl
  have hsame := congrArg (·.flt2Cause 0) (next_inj (hdone.symm.trans hclaimed))
  rw [beforeBankAccess_fault, beforeBankAccess_doubleFault] at hsame
  exact absurd hsame (by decide)

end Sys2Proof.Machine
end

section
/-! SUPPORT. Items of C whose fields are checked first (R70), and the system registers (10_system R217 to R220): who writes a register and
which values it takes, what SSR leaves in each register, and from them the claims and the traps of GSR and SSR. -/

namespace Sys2Proof.Machine

/-! ## Items of C with a check (R70) -/

/-- R209, R211: an engine that may issue belongs to a group that runs, or that is in its handler. -/
theorem State.Ready.phase {s : State} {e : Engine} {y : BitVec 2} {srcs : List Reg} (h : s.Ready e y srcs) :
    s.me.phase = .running ∨ s.me.phase = .handler := by
  have hruns := h.runs
  cases hp : s.me.phase <;> simp [State.mayRun, hp] at hruns ⊢

theorem issuePre_good {bad : Option Nat} (h : bad = none) (e : Engine) (y : BitVec 2) (srcs : List Reg) (s : State)
    (body : State → Nat → Effect) : issuePre bad e y srcs s body = issue e y srcs s body := by rw [h]; rfl

/-- An item of C without a result whose check passes, and whose effect changes only the parts that its claim names, meets the claim. -/
theorem checkedItem_holds {i : Instr} {y : BitVec 2} {srcs : List Reg} {parts : List Aspect} {pre : State → Prop}
    {post : State → State → Prop} (bad : State → Option Nat) (f : State → Effect)
    (hx : ∀ s, exec i s = issuePre (bad s) .c y srcs s fun s _ => f s) (hgood : ∀ s, pre (s.arrived .c y) → bad s = none)
    (hb : ∀ a, (a.me.phase = .running ∨ a.me.phase = .handler) → pre a →
      ∃ u, f a = .done u ∧ (∀ p, p ∉ parts → a.same u p) ∧ ∀ (s : State) (via : Bool), post a (s.closed u .c y via))
    (hc : Aspect.engine .c ∉ parts := by simp) (hp : Aspect.phase ∉ parts := by simp) :
    Claim.Holds { eng := .c, y := y, srcs := srcs, parts := parts, pre := pre, post := post } i := by
  intro s hr hpre
  obtain ⟨u, hf, hframe, hpost⟩ := hb (s.arrived .c y) ((s.arrived_phase .c y).symm ▸ hr.phase) hpre
  have heng : u.eng .c = (s.arrived .c y).eng .c := hframe _ hc
  have hissue := issue_done .c y srcs s u (fun s _ => f s) hr hf
  refine ⟨_, (hx s).trans ((issuePre_good (hgood s hpre) ..).trans hissue), Claim.done_of _ s u _ rfl
    ⟨.refl _ _, ⟨_, heng⟩, hframe _ hp, congrArg EngineState.flight heng, fun p hn => hframe p fun hin => ?_⟩ (hpost s _)⟩
  exact hn (List.mem_cons_of_mem _ (List.mem_cons_of_mem _ hin))

/-- An item of C whose check passes traps with what its effect finds. -/
theorem checkedItem_trap {i : Instr} {y : BitVec 2} {srcs : List Reg} {s : State} {bad : Option Nat} {f : State → Effect} {c : Nat}
    (hx : exec i s = issuePre bad .c y srcs s fun s _ => f s) (hr : s.Ready .c y srcs) (hgood : bad = none)
    (hv : srcs.contains (.h 15) = false) (hf : f (s.arrived .c y) = .trap c 0 0) :
    exec i s = .next (s.trapAt .c c 0 0 false) :=
  hx.trans ((issuePre_good hgood ..).trans (issue_trap _ _ _ _ (fun s _ => f s) _ _ _ hr hv hf))

/-- An item of C whose check fails traps with its cause. -/
theorem checkedItem_bad {i : Instr} {y : BitVec 2} {srcs : List Reg} {s : State} {bad : Option Nat} {body : State → Nat → Effect}
    {c : Nat} (hx : exec i s = issuePre bad .c y srcs s body) (hr : s.Ready .c y srcs) (hbad : bad = some c) :
    exec i s = .next (s.trapAt .c c 0 0 false) := by
  subst hbad
  exact hx.trans (issuePre_trap hr _ _)

/-! ## Who writes a register, and which values it takes (R217, R94, R130, R361) -/

theorem writeBy_eq_sysWriter (k : Nat) : writeBy k = sysWriter k := by
  unfold sysWriter
  split
  case h_12 => simp_all [writeBy]
  all_goals rfl

theorem State.mayWrite_iff (s : State) (k : Nat) : s.me.mayWrite k = true ↔ s.mayWriteSys k := by
  rw [Group.mayWrite, State.mayWriteSys, writeBy_eq_sysWriter]
  cases sysWriter k <;> simp

theorem bitsOf_toNat (v : BitVec 64) (lo n : Nat) : bitsOf v.toNat lo n = (v.extractLsb' lo n).toNat := by
  rw [BitVec.extractLsb'_toNat, Nat.shiftRight_eq_div_pow, bitsOf]

theorem bitsOf_eq_zero_iff (v : BitVec 64) (lo n : Nat) : bitsOf v.toNat lo n = 0 ↔ v.extractLsb' lo n = 0 := by
  rw [bitsOf_toNat]
  exact ⟨fun h => BitVec.eq_of_toNat_eq h, fun h => by rw [h]; rfl⟩

theorem sysValueOk_iff (k : Nat) (v : BitVec 64) : sysValueOk k v = true ↔ sysTakes k v := by
  unfold sysTakes
  split
  case h_3 =>
    simp only [sysValueOk, Bool.and_eq_true, beq_iff_eq, bitsOf_eq_zero_iff, decide_eq_true_eq, and_assoc]
    simp only [bitsOf_toNat]
  case h_4 => simp_all [sysValueOk]
  all_goals simp [sysValueOk]

/-- The registers of the group that an SSR writes; the others that it writes are the context's digests. -/
def groupSysRegs : List Nat := [0x010, 0x011, 0x012, 0x022, 0x023, 0x024, 0x025, 0x031, 0x042, 0x043, 0x044]

theorem State.mayWriteSys_cases {s : State} {k : Nat} (h : s.mayWriteSys k) : k ∈ groupSysRegs ∨ (0x048 ≤ k ∧ k ≤ 0x04F) := by
  have hw : sysWriter k ≠ .never := fun e => by simp [State.mayWriteSys, e] at h
  clear h
  unfold sysWriter at hw
  split at hw
  case h_12 => exact .inr (by simpa using hw)
  all_goals exact .inl (by decide)

theorem groupSysRegs_lt {k : Nat} (h : k ∈ groupSysRegs) : k < 0x048 := by
  revert k
  decide

/-! ## What SSR writes -/

/-- Every register of the group keeps its value but the one that is written. -/
theorem Group.setSys_eq (g : Group) (k : Nat) (v : BitVec 64) : g.setSys k v =
    { g with
      sys := { g.sys with
        corectl := if k = 0x010 then v &&& 3 else g.sys.corectl, window := if k = 0x011 then v else g.sys.window
        sweepmax := if k = 0x012 then v else g.sys.sweepmax, brkword := if k = 0x031 then v else g.sys.brkword
        buftag := if k = 0x042 then v &&& 0xFF else g.sys.buftag
        bufout := if k = 0x043 then v &&& 0xFFFFFFFFFFFFF001 else g.sys.bufout, spdig := if k = 0x044 then v else g.sys.spdig }
      traps := { g.traps with
        savpc := if k = 0x022 then v else g.traps.savpc, savpc1 := if k = 0x023 then v else g.traps.savpc1
        savpc2 := if k = 0x024 then v else g.traps.savpc2, savann := if k = 0x025 then v &&& 3 else g.traps.savann } } := by
  unfold Group.setSys
  split
  case h_12 => simp_all
  all_goals rfl

/-- By cases on the register that is read: it is one that an SSR never writes, or one that it writes at a number other than `k`. -/
theorem State.sysReg_setSys_ne (s : State) {j k : Nat} (v : BitVec 64) (h : j ≠ k) :
    (s.onMe (·.setSys k v)).sysReg j = s.sysReg j := by
  unfold State.sysReg
  simp only [State.me_onMe, Group.setSys_eq]
  split <;> first | rfl | exact congrArg some (if_neg h.symm)

theorem State.sysReg_setSys_same (s : State) {k : Nat} (v : BitVec 64) (h : k ∈ groupSysRegs) :
    (s.onMe (·.setSys k v)).sysReg k = some (sysReads k v) := by
  fin_cases h <;> rfl

/-! ## Context digests (R361) -/

theorem setWidth_append_low (hi lo : BitVec 64) : ((hi ++ lo).setWidth 128).setWidth 64 = lo := by
  rw [BitVec.setWidth_eq]
  exact BitVec.setWidth_append_eq_right

theorem setWidth_append_high (hi lo : BitVec 64) : ((hi ++ lo).setWidth 128 >>> 64).setWidth 64 = hi := by
  ext i h
  simp only [BitVec.getElem_setWidth, BitVec.getLsbD_ushiftRight, BitVec.getLsbD_setWidth, BitVec.getLsbD_append]
  simp [show 64 + i < 128 by omega, BitVec.getLsbD_eq_getElem h]

/-- An SSR of a half leaves the other halves. -/
theorem Context.digestHalf_setDigestHalf (c : Context) {i : Nat} (hi : i < 4) (k : Nat) (h high : Bool) (v : BitVec 64) :
    (c.setDigestHalf k high v).digestHalf i h = if k = i ∧ high = h then v else c.digestHalf i h := by
  have hget (l : Vector (BitVec 128) 4) : l.getD i 0 = l[i] := dif_pos (by simpa using hi)
  simp only [Context.digestHalf, Context.setDigestHalf, hget, Vector.getElem_setIfInBounds]
  by_cases hk : k = i
  · subst hk
    cases h <;> cases high <;> simp only [hget, setWidth_append_low, setWidth_append_high, if_true, if_false, Bool.false_eq_true,
      Bool.true_eq_false, and_true, and_false]
  · simp only [hk, if_false, false_and]

theorem assocGet_assocMap {α : Type} (l : List (Nat × α)) (k : Nat) (f : α → α) :
    assocGet (assocMap l k f) k = (assocGet l k).map f := by
  induction l with
  | nil => rfl
  | cons p r ih =>
    by_cases hp : p.1 = k
    · simp [assocMap, assocGet, hp]
    · simpa [assocMap, assocGet, hp] using ih

theorem State.myCtx_onCtx (s : State) (f : Context → Context) : (s.onCtx s.me.ident.ctx f).myCtx = s.myCtx.map f :=
  assocGet_assocMap _ _ _

theorem State.sysReg_digest {s : State} {c : Context} (hc : s.myCtx = some c) {k : Nat} (hlo : 0x048 ≤ k) (hhi : k ≤ 0x04F) :
    s.sysReg k = some (c.digestHalf ((k - 0x048) / 2) (k % 2 == 1)) := by
  interval_cases k <;> simp [State.sysReg, hc]

theorem State.sysReg_setDigestHalf_other (s : State) (i : Nat) (high : Bool) (v : BitVec 64) {j : Nat}
    (h : ¬(0x048 ≤ j ∧ j ≤ 0x04F)) :
    (s.onCtx s.me.ident.ctx (·.setDigestHalf i high v)).sysReg j = s.sysReg j := by
  unfold State.sysReg
  simp only [State.myCtx_onCtx]
  cases s.myCtx <;> (split <;> first | rfl | exact absurd (by decide) h)

/-! ## SSR (R217, R220) -/

/-- The state after an SSR of a value that the register takes. -/
def State.ssrWrite (s : State) (k : Nat) (v : BitVec 64) : State :=
  if 0x048 ≤ k then s.onCtx s.me.ident.ctx (·.setDigestHalf ((k - 0x048) / 2) (k % 2 == 1) v) else s.onMe (·.setSys k v)

theorem State.ssrWrite_group (s : State) {k : Nat} (v : BitVec 64) (h : k ∈ groupSysRegs) :
    s.ssrWrite k v = s.onMe (·.setSys k v) := if_neg (Nat.not_le.2 (groupSysRegs_lt h))

theorem State.myCtx_ssrWrite_digest {s : State} {c : Context} (hc : s.myCtx = some c) {k : Nat} (v : BitVec 64) (h : 0x048 ≤ k) :
    (s.ssrWrite k v).myCtx = some (c.setDigestHalf ((k - 0x048) / 2) (k % 2 == 1) v) := by
  rw [State.ssrWrite, if_pos h, State.myCtx_onCtx, hc, Option.map_some]

theorem State.sysReg_ssrWrite_same {s : State} {k : Nat} (v : BitVec 64) (hmay : s.mayWriteSys k) (hctx : s.myCtx.isSome = true) :
    (s.ssrWrite k v).sysReg k = some (sysReads k v) := by
  rcases State.mayWriteSys_cases hmay with hk | ⟨hlo, hhi⟩
  · rw [s.ssrWrite_group v hk, s.sysReg_setSys_same v hk]
  · obtain ⟨c, hc⟩ := Option.isSome_iff_exists.1 hctx
    have hreads : sysReads k v = v := by interval_cases k <;> rfl
    rw [State.sysReg_digest (State.myCtx_ssrWrite_digest hc v hlo) hlo hhi,
      c.digestHalf_setDigestHalf (by omega), if_pos ⟨rfl, rfl⟩, hreads]

theorem State.sysReg_ssrWrite_ne {s : State} {j k : Nat} (v : BitVec 64) (hmay : s.mayWriteSys k) (hctx : s.myCtx.isSome = true)
    (hj : j ≠ k) : (s.ssrWrite k v).sysReg j = s.sysReg j := by
  rcases State.mayWriteSys_cases hmay with hk | ⟨hlo, hhi⟩
  · rw [s.ssrWrite_group v hk, s.sysReg_setSys_ne v hj]
  · by_cases hdigest : 0x048 ≤ j ∧ j ≤ 0x04F
    · obtain ⟨c, hc⟩ := Option.isSome_iff_exists.1 hctx
      obtain ⟨hjlo, hjhi⟩ := hdigest
      have hhalf : ¬((k - 0x048) / 2 = (j - 0x048) / 2 ∧ (k % 2 == 1) = (j % 2 == 1)) := by
        rw [Bool.eq_iff_iff, beq_iff_eq, beq_iff_eq]
        omega
      rw [State.sysReg_digest (State.myCtx_ssrWrite_digest hc v hlo) hjlo hjhi, State.sysReg_digest hc hjlo hjhi,
        c.digestHalf_setDigestHalf (by omega), if_neg hhalf]
    · rw [State.ssrWrite, if_pos hlo, s.sysReg_setDigestHalf_other _ _ _ hdigest]

theorem State.ssrWrite_same (s : State) (k : Nat) (v : BitVec 64) (p : Aspect) (h : p ∉ [Aspect.sys, .traps, .contexts]) :
    s.same (s.ssrWrite k v) p := by
  unfold State.ssrWrite
  split
  · have h' := s.same_refl p
    cases p with
    | contexts => simp at h
    | _ => exact h'
  · rw [State.onMe, Group.setSys_eq]
    have h' := s.same_refl p
    cases p with
    | sys => simp at h
    | traps => simp at h
    | regs => exact fun r => by cases r <;> rfl
    | _ => exact h'

/-- No register reads an engine's walk, the program's registers or the counts of the buffers. -/
theorem State.sysReg_of_same {s t : State} (h : ∀ p, (∀ e, p ≠ .engine e) → p ≠ .regs → p ≠ .bufs → s.same t p) :
    t.sysReg = s.sysReg := by
  obtain ⟨hpart, -⟩ : t.part = s.part ∧ _ := h .platform (by simp) (by simp) (by simp)
  have hsys : t.me.sys = s.me.sys := h .sys (by simp) (by simp) (by simp)
  have htraps : t.me.traps = s.me.traps := h .traps (by simp) (by simp) (by simp)
  have hident : t.me.ident = s.me.ident := h .ident (by simp) (by simp) (by simp)
  have hctxs : t.ctxs = s.ctxs := h .contexts (by simp) (by simp) (by simp)
  funext k
  simp only [State.sysReg, State.myCtx, State.ctx, hpart, hsys, htraps, hident, hctxs]

@[simp] theorem State.arrived_sysReg (s : State) (e : Engine) (y : BitVec 2) : (s.arrived e y).sysReg = s.sysReg :=
  State.sysReg_of_same fun p he hr _ => s.arrived_same e y p (he e) hr

@[simp] theorem State.closed_sysReg (s u : State) (e : Engine) (y : BitVec 2) (via : Bool) :
    (s.closed u e y via).sysReg = u.sysReg :=
  State.sysReg_of_same fun p he _ hb => State.closed_same s u u e y via p (u.same_refl p) (he e) hb

theorem State.arrived_mayWriteSys (s : State) (e : Engine) (y : BitVec 2) (k : Nat) :
    (s.arrived e y).mayWriteSys k ↔ s.mayWriteSys k := by
  have hsys : (s.arrived e y).me.sys = s.me.sys := s.arrived_same e y .sys (by simp) (by simp)
  unfold State.mayWriteSys Group.syspriv
  rw [hsys, s.arrived_phase]

/-- R217: a register that a group may write is an assigned one. -/
theorem State.sysReg_of_mayWriteSys {s : State} {k : Nat} (h : s.mayWriteSys k) : (s.sysReg k).isSome = true := by
  rcases State.mayWriteSys_cases h with hk | ⟨hlo, hhi⟩
  · fin_cases hk <;> rfl
  · interval_cases k <;> rfl

theorem State.badSysReg_unassigned {s : State} {k : Nat} (h : s.sysReg k = none) : s.badSysReg k = some causeIllegal := by
  simp [State.badSysReg, h]

theorem State.badSysReg_forbidden {s : State} {k : Nat} (h : (s.sysReg k).isSome = true) (hno : ¬s.mayWriteSys k) :
    s.badSysReg k = some causePriv := by
  simp [State.badSysReg, causeIf, Option.ne_none_iff_isSome.2 h, mt (s.mayWrite_iff k).1 hno]

theorem State.badSysReg_allowed {s : State} {k : Nat} (h : s.mayWriteSys k) : s.badSysReg k = none := by
  simp [State.badSysReg, causeIf, Option.ne_none_iff_isSome.2 (State.sysReg_of_mayWriteSys h), (s.mayWrite_iff k).2 h]

/-- What SSR does once it may write. -/
theorem execSsr_effect (y : BitVec 2) (a : BitVec 5) (k : BitVec 10) (s : State) :
    exec (.ssr y a k) s = issuePre (s.badSysReg k.toNat) .c y [.s a] s fun s _ =>
      if sysValueOk k.toNat (s.me.sreg a) then .done (s.ssrWrite k.toNat (s.me.sreg a)) else .trap causeBounds 0 0 := by
  refine (show exec _ s = execSsr y a k s from rfl).trans (congrArg (issuePre _ _ _ _ _) ?_)
  funext u t
  simp only [State.ssrWrite]
  cases sysValueOk k.toNat (u.me.sreg a) <;> by_cases hk : 0x048 ≤ k.toNat <;> simp [hk]

theorem ssr_holds (y : BitVec 2) (a : BitVec 5) (k : BitVec 10) : (ssrClaim y a k).Holds (.ssr y a k) := by
  refine checkedItem_holds (fun s => s.badSysReg k.toNat) _ (execSsr_effect y a k) (fun s ⟨hmay, _⟩ => ?_)
    fun u _ ⟨hmay, htakes, hctx⟩ => ⟨_, if_pos ((sysValueOk_iff _ _).2 htakes), u.ssrWrite_same _ _, fun s via => ?_⟩
  · exact State.badSysReg_allowed ((s.arrived_mayWriteSys _ _ _).1 hmay)
  · rw [State.closed_sysReg]
    exact ⟨State.sysReg_ssrWrite_same _ hmay hctx, fun j hj => State.sysReg_ssrWrite_ne _ hmay hctx hj⟩

/-- R220: what SSR refuses, by the first check that fails. -/
theorem ssr_traps (y : BitVec 2) (a : BitVec 5) (k : BitVec 10) (s : State) (hr : s.Ready .c y [.s a]) :
    (s.sysReg k.toNat = none → exec (.ssr y a k) s = .next (s.trapAt .c causeIllegal 0 0 false)) ∧
    ((s.sysReg k.toNat).isSome = true → ¬(s.arrived .c y).mayWriteSys k.toNat →
      exec (.ssr y a k) s = .next (s.trapAt .c causePriv 0 0 false)) ∧
    ((s.arrived .c y).mayWriteSys k.toNat → ¬sysTakes k.toNat ((s.arrived .c y).me.sreg a) →
      exec (.ssr y a k) s = .next (s.trapAt .c causeBounds 0 0 false)) := by
  rw [s.arrived_mayWriteSys]
  exact ⟨fun hnone => checkedItem_bad (execSsr_effect y a k s) hr (State.badSysReg_unassigned hnone),
    fun hsome hno => checkedItem_bad (execSsr_effect y a k s) hr (State.badSysReg_forbidden hsome hno),
    fun hmay hval => checkedItem_trap (execSsr_effect y a k s) hr (State.badSysReg_allowed hmay) rfl
      (if_neg (mt (sysValueOk_iff _ _).1 hval))⟩

/-! ## GSR (R220) -/

theorem gsr_holds (y : BitVec 2) (d : BitVec 5) (k : BitVec 10) (v : State → BitVec 64)
    (hv : ∀ s : State, s.sysReg k.toNat = some (v s)) : (gsrClaim y d v).Holds (.gsr y d k) := by
  refine Claim.holds_result _ _ (.s d) _ 2 (fun _ => rfl) rfl rfl (fun _ _ => trivial) fun s =>
    (show exec _ s = execGsr y d k s from rfl).trans ?_
  simp only [execGsr, hv]
  rfl

theorem gsr_unassigned (y : BitVec 2) (d : BitVec 5) (k : BitVec 10) (s : State) (hr : s.Ready .c y []) (h : s.sysReg k.toNat = none) :
    exec (.gsr y d k) s = .next (s.trapAt .c causeIllegal 0 0 false) := by
  refine (show exec _ s = execGsr y d k s from rfl).trans (issue_trap _ _ _ _ _ _ _ _ hr rfl ?_)
  rw [State.arrived_sysReg, h]

/-- Settles O32: GSR by the law of items with one result, SSR by what it leaves in each register, and the traps in the order of the
checks. -/
theorem systemRegisters : Obligations.SystemRegisters := ⟨gsr_holds, ssr_holds, gsr_unassigned, ssr_traps⟩

end Sys2Proof.Machine
end

section
/-! SUPPORT. The platform instructions of C (10_system R226, R228, R232, R233): system privilege, the launch calendar, the text that a
group fetches afresh, and the debug stop, with what it catches in the mesh; from them the claims of CALSET, XSWAP, IINV and HALT. -/

namespace Sys2Proof.Machine

/-! ## System privilege (R217) -/

theorem State.arrived_syspriv (s : State) (e : Engine) (y : BitVec 2) : (s.arrived e y).me.syspriv = s.me.syspriv := by
  have hsys : (s.arrived e y).me.sys = s.me.sys := s.arrived_same e y .sys (by simp) (by simp)
  rw [Group.syspriv, hsys, Group.syspriv]

theorem State.badPriv_of_syspriv {s : State} {e : Engine} {y : BitVec 2} (h : (s.arrived e y).me.syspriv = true) :
    s.badPriv = none := by
  rw [State.badPriv, ← s.arrived_syspriv e y, h]; rfl

theorem State.badPriv_of_not_syspriv {s : State} {e : Engine} {y : BitVec 2} (h : (s.arrived e y).me.syspriv = false) :
    s.badPriv = some causePriv := by
  rw [State.badPriv, ← s.arrived_syspriv e y, h]; rfl

/-! ## CALSET (R232) -/

/-- The calendar holds, at the core and slot of the record, the record's entry where its VALID is set, and elsewhere what it held. -/
theorem mem_calSet (l : List CalEntry) (ctx slot : Nat) (r : List Byte) (e : CalEntry) :
    e ∈ calSet l ctx slot r ↔ (e ∈ l ∧ ¬(e.core = recField r 20 1 ∧ e.slot = slot)) ∨
      (recField r 21 1 % 2 = 1 ∧ e = ⟨recField r 20 1, slot, ctx, recField r 0 8, recField r 8 8, recField r 16 4⟩) := by
  unfold calSet
  by_cases hv : recField r 21 1 % 2 = 1 <;> simp [hv, imp_iff_not_or]

theorem State.withFe_same (s : State) (fe : FrontEnd) (p : Aspect) (h : p ∉ [Aspect.frontEnd]) : s.same { s with fe := fe } p := by
  have h' := s.same_refl p
  cases p with
  | frontEnd => simp at h
  | _ => exact h'

theorem calset_holds (y : BitVec 2) (d a : BitVec 5) (r : List Byte) : (calsetClaim y d a r).Holds (.calset y d a) := by
  refine checkedItem_holds State.badPriv _ (fun s => show execCalset y d a s = _ from rfl) (fun s h => State.badPriv_of_syspriv h.1)
    fun u _ ⟨_, hrecord, hcheck⟩ => ?_
  let fe := { u.fe with calendar := calSet u.fe.calendar u.me.ident.ctx (u.me.sreg d).toNat r }
  refine ⟨{ u with fe := fe }, ?_, u.withFe_same fe, fun s via => ⟨fun e he => ?_, fun e hcore hslot => ?_⟩⟩
  · simp only [hrecord, hcheck, ofChk, fe]
  · exact (mem_calSet ..).trans (by grind)
  · exact (mem_calSet ..).trans (by cases e; grind)

/-! ## XSWAP (R233) -/

theorem State.withPages_same (s : State) (pages : Pages) (p : Aspect) (h : p ∉ [Aspect.pages]) :
    s.same { s with pages := pages } p := by
  have h' := s.same_refl p
  cases p with
  | pages => simp at h
  | _ => exact h'

theorem xswap_holds (y : BitVec 2) (d a : BitVec 5) (x : Swap) : (xswapClaim y d a x).Holds (.xswap y d a) := by
  refine checkedItem_holds State.badPriv _ (fun s => show execXswap y d a s = _ from rfl) (fun s h => State.badPriv_of_syspriv h.1)
    fun u _ ⟨_, hdone, hfind⟩ => ?_
  let pages := { u.pages with swaps := u.pages.swaps.filter fun z => z.core != u.me.ident.core }
  refine ⟨{ u with pages := pages }, ?_, u.withPages_same pages, fun s via => rfl⟩
  simp only [hfind, hdone, if_true, pages]

/-! ## IINV (R226) -/

/-- A group that fetches text afresh changes its copy of the text only. -/
theorem Group.refetch_eq (g : Group) (s : State) (lo hi : Nat) :
    g.refetch s lo hi = { g with store := { g.store with text := (g.refetch s lo hi).store.text } } := by
  unfold Group.refetch
  dsimp only
  split <;> rfl

theorem isPlaced_of_runs {g : Group} (h : g.phase = .running ∨ g.phase = .handler) : g.phase.isPlaced = true := by
  rcases h with h | h <;> rw [h] <;> rfl

theorem State.closed_store (s u : State) (e : Engine) (y : BitVec 2) (via : Bool) : (s.closed u e y via).me.store = u.me.store := by
  obtain ⟨b, f1, f2, n, h⟩ := s.closed_eq u e y via
  rw [h]

/-- A new copy of the text, other groups and other link state leave every other part. -/
theorem State.withText_same (s : State) (text : Memory) (rest : List Group) (links : Links) (p : Aspect)
    (h : p ∉ [Aspect.text, .groups, .links]) :
    s.same { s with me := { s.me with store := { s.me.store with text := text } }, rest := rest, links := links } p := by
  have h' := s.same_refl p
  cases p with
  | text => simp at h
  | groups => simp at h
  | links => simp at h
  | regs => exact fun r => by cases r <;> rfl
  | _ => exact h'

theorem iinv_holds (y : BitVec 2) (a b : BitVec 5) : (iinvClaim y a b).Holds (.iinv y a b) := by
  refine checkedItem_holds State.badPriv _ (fun s => show execIinv y a b s = _ from rfl) (fun s h => State.badPriv_of_syspriv h.1)
    fun u hphase ⟨_, htext⟩ => ⟨_, if_pos ?_, fun p hp => ?_, fun s via => ?_⟩
  · simp only [List.all_eq_true, List.mem_map, List.mem_filter, Bool.and_eq_true, beq_iff_eq]
    rintro _ ⟨g, ⟨hg, hctx, hplaced⟩, rfl⟩
    exact htext g hg hctx hplaced
  · simp only [State.dropLines, State.mapGroups, isPlaced_of_runs hphase, beq_self_eq_true, Bool.and_true, if_true]
    rw [u.me.refetch_eq]
    exact u.withText_same _ _ _ p hp
  · rw [State.closed_store]
    simp [State.dropLines, State.mapGroups, isPlaced_of_runs hphase]

/-! ## Without system privilege -/

theorem privileged_only (s : State) (y : BitVec 2) (d a : BitVec 5) (hr : s.Ready .c y [.s d, .s a])
    (h : (s.arrived .c y).me.syspriv = false) : exec (.calset y d a) s = .next (s.trapAt .c causePriv 0 0 false) ∧
      exec (.xswap y d a) s = .next (s.trapAt .c causePriv 0 0 false) ∧
      exec (.iinv y d a) s = .next (s.trapAt .c causePriv 0 0 false) :=
  have hbad := State.badPriv_of_not_syspriv h
  ⟨checkedItem_bad (show execCalset y d a s = _ from rfl) hr hbad, checkedItem_bad (show execXswap y d a s = _ from rfl) hr hbad,
    checkedItem_bad (show execIinv y d a s = _ from rfl) hr hbad⟩

/-! ## What a debug stop catches in the mesh (R309) -/

/-- A later state in which only the mesh, the streams and the count of free values have moved on. -/
def State.MeshMoves (s t : State) : Prop := ∀ p, p ≠ .mesh → p ≠ .free → (∀ z, p ≠ .stream z) → s.same t p

theorem State.MeshMoves.refl (s : State) : s.MeshMoves s := fun p _ _ _ => s.same_refl p

theorem State.MeshMoves.trans {s t u : State} (h : s.MeshMoves t) (h' : t.MeshMoves u) : s.MeshMoves u :=
  fun p hm hf hz => State.same_trans _ _ _ _ (h p hm hf hz) (h' p hm hf hz)

theorem State.MeshMoves.foldl {α : Type} {f : State → α → State} (hf : ∀ (t : State) (x : α), t.MeshMoves (f t x))
    (l : List α) (s : State) : s.MeshMoves (l.foldl f s) := by
  induction l generalizing s with
  | nil => exact .refl s
  | cons x r ih => exact (hf s x).trans (ih _)

theorem State.onMesh_moves (s : State) (f : MeshState → MeshState) : s.MeshMoves (s.onMesh f) :=
  fun p hm _ _ => s.onMesh_same f p hm

theorem State.withFree_moves (s : State) (n : Nat) : s.MeshMoves { s with free := n } := fun p _ hf _ => by
  have h := s.same_refl p
  cases p with
  | free => exact absurd rfl hf
  | _ => exact h

theorem State.useFree_moves (s : State) (free : Bool) (n : Nat) : s.MeshMoves (s.useFree free n) := by
  cases free
  · exact .refl s
  · exact s.withFree_moves _

theorem State.caught_moves (s : State) (most : Nat) : s.MeshMoves (s.caught most).2 := s.withFree_moves _

theorem State.setStream_moves (s : State) (z : BitVec 4) (x : Stream) : s.MeshMoves (s.onMe (·.setStream z x)) := fun p _ _ hz => by
  have h := s.same_refl p
  cases p with
  | stream k => exact absurd rfl (hz k)
  | regs => exact fun r => by cases r <;> rfl
  | _ => exact h

theorem State.streamPop_moves {s t : State} {e : Engine} {z : BitVec 4} {v : VReg} (h : s.streamPop e z = .ok v t) :
    s.MeshMoves t := by
  unfold State.streamPop at h
  dsimp only at h
  repeat' split at h
  all_goals cases h <;> exact s.setStream_moves _ _

theorem State.meshPop_moves {s t : State} {z : Nat} {v : VReg} (h : s.meshPop z = some (v, t)) : s.MeshMoves t := by
  unfold State.meshPop at h
  split at h
  case h_1 hpop => cases h; exact State.streamPop_moves hpop
  case h_2 => cases h

theorem State.nextIndex_moves {s t : State} {z i : Nat} {l r : List Nat} (h : s.nextIndex z l = some (i, r, t)) : s.MeshMoves t := by
  cases l with
  | cons => cases h; exact .refl s
  | nil =>
    unfold State.nextIndex at h
    dsimp only at h
    split at h
    case h_1 hpop => cases h; exact State.meshPop_moves hpop
    case h_2 => cases h

theorem State.sweepInput_moves {s t : State} {o : MeshOp} {src : Nat} {gather : Bool} {v : BxVec} {l : List Nat}
    (h : s.sweepInput o src gather = some (v, l, t)) : s.MeshMoves t := by
  unfold State.sweepInput at h
  split at h
  case isTrue =>
    split at h
    case h_1 => cases h
    case h_2 hnext =>
      have hmoves := State.nextIndex_moves hnext
      dsimp only at h
      split at h
      · cases h; exact hmoves.trans (State.onMesh_moves _ _)
      · cases h; exact hmoves
  case isFalse =>
    obtain ⟨⟨w, t'⟩, hpop, ⟨⟩⟩ := Option.map_eq_some_iff.1 h
    exact State.meshPop_moves hpop

theorem State.meshEnter_moves {s t : State} {o o' : MeshOp} {src n : Nat} {gather : Bool} {r : MeshRec}
    (h : s.meshEnter o src n gather = some (r, o', t)) : s.MeshMoves t := by
  obtain ⟨-, hmap⟩ := Option.ite_none_right_eq_some.1 h
  obtain ⟨⟨v, l, t'⟩, hinput, ⟨⟩⟩ := Option.map_eq_some_iff.1 hmap
  exact State.sweepInput_moves hinput

/-- A vector that has entered does its steps. -/
theorem State.caughtVector_moves (s : State) (most n : Nat) (f : MeshState → MeshState) (free : Bool) (o : MeshOp) :
    s.MeshMoves ((((s.caught most).2.onMesh f).useFree free n).keepOp o false) :=
  (s.caught_moves most).trans ((State.onMesh_moves _ _).trans ((State.useFree_moves _ _ _).trans (State.onMesh_moves _ _)))

theorem State.fillMesh_moves (id k : Nat) (s : State) (most : Nat) : s.MeshMoves (s.fillMesh id k most) := by
  induction k generalizing s most with
  | zero => exact .refl s
  | succ k ih =>
    unfold State.fillMesh
    split
    case h_1 => exact .refl s
    case h_2 =>
      split
      case h_1 | h_2 =>
        split
        case h_1 => exact .refl s
        case h_2 henter =>
          refine (State.meshEnter_moves henter).trans (.trans ?_ (ih _ _))
          exact State.caughtVector_moves _ most _ _ _ _
      case h_3 => exact .refl s

theorem State.catchMesh_moves (s : State) : s.MeshMoves s.catchMesh :=
  State.MeshMoves.foldl (fun t _ => (t.caught_moves 140).trans (State.fillMesh_moves _ _ _ _)) _ s

theorem State.catchMesh_idle {s : State} (h : s.me.mesh.ops = []) : s.catchMesh = s := by
  rw [State.catchMesh, h]; rfl

/-! ## The debug stop (R227) -/

/-- The state once its group stands still for the debugger, with the records of the stop in its save area. -/
def State.stoppedAt (s : State) (now : Nat) : State :=
  let s1 := s.onMe fun g => { g with phase := .stopped, prior := g.phase, reason := 3, time := { g.time with pauseAt := now } }
  s1.onArea s1.me.ident fun a => { a with control := some s1.me, records := some s1.me }

theorem State.debugHalt_eq {s : State} (h : s.me.phase = .running ∨ s.me.phase = .handler) :
    s.debugHalt = s.catchMesh.stoppedAt s.time.now := if_pos h

theorem State.stoppedAt_same (s : State) (now : Nat) (p : Aspect) (h : p ∉ [Aspect.phase, .frontEnd]) : s.same (s.stoppedAt now) p := by
  have h' := s.same_refl p
  cases p with
  | phase => simp at h
  | frontEnd => simp at h
  | regs => exact fun r => by cases r <;> rfl
  | _ => exact h'

/-- The areas of the group are the ones that are written. -/
theorem State.mem_onArea {s : State} {i : Ident} {f : SaveArea → SaveArea} {a : SaveArea} (h : a ∈ (s.onArea i f).fe.areas)
    (hl : a.launch = i.launch) (hi : a.index = i.index) : ∃ b, a = f b := by
  obtain ⟨b, -, rfl⟩ := List.mem_map.1 h
  by_cases hb : b.launch = i.launch ∧ b.index = i.index
  · exact ⟨b, if_pos hb⟩
  · simp only [if_neg hb] at hl hi
    exact absurd ⟨hl, hi⟩ hb

theorem State.stoppedAt_areas (s : State) (now : Nat) {a : SaveArea} (h : a ∈ (s.stoppedAt now).fe.areas)
    (hl : a.launch = s.me.ident.launch) (hi : a.index = s.me.ident.index) :
    a.control = some (s.stoppedAt now).me ∧ a.records = some (s.stoppedAt now).me := by
  obtain ⟨b, rfl⟩ := State.mem_onArea h hl hi
  exact ⟨rfl, rfl⟩

/-- The parts that a debug stop may change: those of the mesh only where it is at work (log entry 16). -/
def haltParts (m : MeshState) : List Aspect :=
  if m.ops = [] then [.phase, .frontEnd]
  else [.phase, .frontEnd, .mesh, .free] ++ (List.range 16).map fun z => .stream (BitVec.ofNat 4 z)

theorem State.catchMesh_same (s : State) (p : Aspect) (h : p ∉ haltParts s.me.mesh) : s.same s.catchMesh p := by
  by_cases hops : s.me.mesh.ops = []
  · rw [State.catchMesh_idle hops]
    exact s.same_refl p
  · rw [haltParts, if_neg hops, List.mem_append, List.mem_map, not_or] at h
    obtain ⟨hparts, hstreams⟩ := h
    refine s.catchMesh_moves p (fun e => hparts (by simp [e])) (fun e => hparts (by simp [e])) fun z e => hstreams ?_
    exact ⟨z.toNat, List.mem_range.2 z.isLt, by rw [e, BitVec.ofNat_toNat, BitVec.setWidth_eq]⟩

theorem State.debugHalt_same {s : State} (hphase : s.me.phase = .running ∨ s.me.phase = .handler) (p : Aspect)
    (h : p ∉ haltParts s.me.mesh) : s.same s.debugHalt p := by
  rw [State.debugHalt_eq hphase]
  refine State.same_trans _ _ _ _ (s.catchMesh_same p h) (State.stoppedAt_same _ _ p fun hp => h ?_)
  unfold haltParts
  split
  · exact hp
  · exact List.mem_append_left _ (List.mem_append_left [Aspect.mesh, .free] hp)

theorem engine_not_mem_haltParts (e : Engine) (m : MeshState) : .engine e ∉ haltParts m := by
  unfold haltParts
  split <;> simp

theorem State.debugHalt_prior {s : State} (h : s.me.phase = .running ∨ s.me.phase = .handler) : s.debugHalt.me.prior = s.me.phase := by
  rw [State.debugHalt_eq h]
  exact (s.catchMesh_moves .phase (by simp) (by simp) (by simp)).1

theorem State.debugHalt_areas {s : State} (h : s.me.phase = .running ∨ s.me.phase = .handler) {a : SaveArea}
    (ha : a ∈ s.debugHalt.fe.areas) (hl : a.launch = s.me.ident.launch) (hi : a.index = s.me.ident.index) :
    a.control = some s.debugHalt.me ∧ a.records = some s.debugHalt.me := by
  have hident : s.catchMesh.me.ident = s.me.ident := s.catchMesh_moves .ident (by simp) (by simp) (by simp)
  rw [State.debugHalt_eq h] at ha ⊢
  exact State.stoppedAt_areas _ _ ha (hident ▸ hl) (hident ▸ hi)

/-! ## HALT (R228) -/

theorem State.Passed.of_eng {s t u : State} {e : Engine} {y : BitVec 2} (h : s.Passed e y t) (he : u.eng e = t.eng e) :
    s.Passed e y u := by
  obtain ⟨hcycle, hwalk, hseq, hpc, hpc1⟩ := h
  constructor <;> rw [he] <;> assumption

theorem State.Flows.of_eng {s t u : State} {e : Engine} {f : Flow} (h : s.Flows e t f) (he : u.eng e = t.eng e) : s.Flows e u f := by
  obtain ⟨hpc2, hannul, hslots⟩ := h
  constructor <;> rw [he] <;> assumption

/-- With a debugger attached, HALT completes and then stops its group. -/
theorem execHalt_attached {s : State} {y : BitVec 2} (hr : s.Ready .c y []) (hd : s.host.debugger = true) :
    exec (.halt y) s = .next (s.closed (s.arrived .c y) .c y false).debugHalt := by
  have hissue := issue_done .c y [] s (s.arrived .c y) (fun s _ => if s.host.debugger then .done s else .trap causeBreak 1 0) hr (if_pos hd)
  have hhalting : (s.host.debugger && s.mayRun .c && !(s.eng .c).skip && !(s.eng .c).annul.getLsbD 0) = true := by
    rw [hd, hr.runs, hr.noskip, hr.live]; rfl
  refine (show exec _ s = execHalt y s from rfl).trans ?_
  simp only [execHalt, hissue, hhalting, if_true, List.contains_nil, Bool.and_false]

/-- With none attached, HALT raises BREAK. -/
theorem execHalt_detached {s : State} {y : BitVec 2} (hr : s.Ready .c y []) (hd : s.host.debugger = false) :
    exec (.halt y) s = .next (s.trapAt .c causeBreak 1 0 false) := by
  have hissue := issue_trap .c y [] s (fun s _ => if s.host.debugger then .done s else .trap causeBreak 1 0) causeBreak 1 0 hr rfl
    (if_neg (Bool.eq_false_iff.1 hd))
  refine (show exec _ s = execHalt y s from rfl).trans ?_
  simp only [execHalt, hissue, hd, Bool.false_and, Bool.false_eq_true, if_false]

theorem halt_stops (s : State) (y : BitVec 2) (hr : s.Ready .c y []) (hd : s.host.debugger = true) :
    ∃ t, exec (.halt y) s = .next t ∧ s.Passed .c y t ∧ s.Flows .c t .straight ∧ t.me.phase = .stopped ∧
      t.me.prior = s.me.phase ∧ t.me.reason = 3 ∧ (∀ a ∈ t.fe.areas, a.launch = s.me.ident.launch → a.index = s.me.ident.index →
        a.control = some t.me ∧ a.records = some t.me) ∧ (s.arrived .c y).KeepsBut t .c (haltParts s.me.mesh) := by
  generalize hu : s.closed (s.arrived .c y) .c y false = u
  have hclosed (p : Aspect) (he : p ≠ .engine .c) (hb : p ≠ .bufs) : (s.arrived .c y).same u p :=
    hu ▸ State.closed_same _ _ _ _ _ _ _ (State.same_refl _ p) he hb
  have hwhole (p : Aspect) (he : p ≠ .engine .c) (hb : p ≠ .bufs) (hregs : p ≠ .regs) : s.same u p :=
    State.same_trans _ _ _ _ (s.arrived_same _ _ _ he hregs) (hclosed p he hb)
  have hphase : u.me.phase = s.me.phase := (hwhole .phase (by simp) (by simp) (by simp)).1
  have hident : u.me.ident = s.me.ident := hwhole .ident (by simp) (by simp) (by simp)
  have hmesh : u.me.mesh = s.me.mesh := hwhole .mesh (by simp) (by simp) (by simp)
  have hruns : u.me.phase = .running ∨ u.me.phase = .handler := hphase ▸ hr.phase
  have heng : u.debugHalt.eng .c = u.eng .c := State.debugHalt_same hruns (.engine .c) (engine_not_mem_haltParts _ _)
  have hpassed : s.Passed .c y u := hu ▸ s.closed_passed _ _ _ _ (.refl _ _) (State.same_refl _ _)
  have hflows : s.Flows .c u .straight := hu ▸ s.closed_straight _ _ _ _ (.refl _ _)
  refine ⟨_, hu ▸ execHalt_attached hr hd, hpassed.of_eng heng, hflows.of_eng heng, congrArg (·.me.phase) (State.debugHalt_eq hruns),
    (State.debugHalt_prior hruns).trans hphase, congrArg (·.me.reason) (State.debugHalt_eq hruns), fun a ha hl hi => ?_, fun p hp => ?_⟩
  · rw [← hident] at hl hi
    exact State.debugHalt_areas hruns ha hl hi
  · simp only [List.mem_cons, not_or] at hp
    obtain ⟨he, hb, hparts⟩ := hp
    exact State.same_trans _ _ _ _ (hclosed p he hb) (State.debugHalt_same hruns p (hmesh ▸ hparts))

/-- Settles O37: CALSET, XSWAP and IINV as items of C whose check is system privilege, HALT by the debug stop that follows it. -/
theorem platformInstructions : Obligations.PlatformInstructions :=
  ⟨fun y d a => ⟨calset_holds y d a, xswap_holds y d a, iinv_holds y d a⟩, privileged_only,
    fun s y hr => ⟨halt_stops s y hr, execHalt_detached hr⟩⟩

end Sys2Proof.Machine
end

section
-- One declaration after another: the whole text is checked in one process, of bounded memory.
set_option Elab.async false
/-! SUPPORT. Tables of instructions. -/

namespace Sys2Proof

/-- What a table has no row for is not in its rows. -/
theorem noRow {α : Type} {x : α} {P : Prop} (h : none = some x) : P := nomatch h

/-- The same of a table of truth values. -/
theorem notListed {P : Prop} (h : false = true) : P := nomatch h

end Sys2Proof
end

section
-- One declaration after another: the whole text is checked in one process, of bounded memory.
set_option Elab.async false
/-! SUPPORT. Boot and configuration (26_platform R371 to R373, R376): the invariant reads the boot record, the part and PCAP alone, and each
of the six rows that set them keeps it. -/

namespace Sys2Proof.Machine

/-! ## What the invariant reads -/

theorem State.root_parts {s t : State} (h : t.root = s.root) : t.boot = s.boot ∧ t.part = s.part ∧ t.power.pcap = s.power.pcap := by
  simpa only [State.root, Prod.mk.injEq] using h

theorem State.BootOk.of_root {s t : State} (h : s.BootOk) (hroot : t.root = s.root) : t.BootOk := by
  obtain ⟨hboot, hpart, hpcap⟩ := State.root_parts hroot
  constructor <;> simp only [hboot, hpart, hpcap]
  exacts [h.stage, h.ready, h.recovery, h.measured, h.modnum, h.savepool, h.pcap, h.rollback, h.keys]

/-! ## The rows that set it -/

/-- R371: a reset clears the stages and keeps the fuses. -/
theorem State.BootOk.rebooted {s : State} (h : s.BootOk) : s.rebooted.BootOk where
  stage := Nat.zero_le 3
  ready := by simp [State.rebooted, State.reset]
  recovery := (nomatch ·)
  measured := rfl
  modnum := fun h => absurd (show 2 ≤ 0 from h) (by decide)
  savepool := fun h => absurd (show 2 ≤ 0 from h) (by decide)
  pcap := fun h => absurd (show 2 ≤ 0 from h) (by decide)
  rollback := h.rollback
  keys := h.keys

/-- R376: PCAP takes only a value in its range. -/
theorem State.BootOk.setPcap {s : State} (h : s.BootOk) (w : Nat) : (s.setPcap w).BootOk := by
  unfold State.setPcap
  split
  case isTrue hw =>
    simp only [Part.pcapOk, Bool.and_eq_true, decide_eq_true_eq] at hw
    exact { h with pcap := fun _ => hw }
  case isFalse => exact h

/-- R373: what a boot configuration that is accepted holds. -/
theorem Part.configOk_iff (p : Part) (c : List Byte) : p.configOk c = true ↔
    c.length = 8 ∧ recField c 0 2 ≤ 639 ∧ (p.cores.length ≤ recField c 2 2 ∧ recField c 2 2 ≤ 256) ∧
      (1500 ≤ recField c 4 4 ∧ recField c 4 4 ≤ p.watts) := by
  simp only [Part.configOk, Part.pcapOk, Bool.and_eq_true, beq_iff_eq, decide_eq_true_eq]
  tauto

/-- R371, R373: the next stage passes; stage 2 only with a configuration in its ranges. -/
theorem State.BootOk.stagePassed {s : State} (h : s.BootOk) (header body : List Byte) (hrecovery : s.boot.recovery = false)
    (hready : s.boot.ready = false) (hconfig : s.boot.stage + 1 = 2 → s.part.configOk (bootConfig body) = true) :
    (s.stagePassed header body).BootOk := by
  have hlt : s.boot.stage < 3 := lt_of_le_of_ne h.stage fun e => by simp [h.ready.2 e] at hready
  have hmeasured := h.measured
  unfold State.stagePassed
  by_cases htwo : s.boot.stage + 1 = 2
  · obtain ⟨-, hmod, hsave, hpcap⟩ := (s.part.configOk_iff _).1 (hconfig htwo)
    have hone : s.boot.stage = 1 := by omega
    simp only [htwo, if_true]
    exact ⟨Nat.le_succ 2, by simp [hready], fun _ => hready, by simp [hmeasured, hone], fun _ => hmod, fun _ => hsave, fun _ => hpcap,
      h.rollback, h.keys⟩
  · have hlate : 2 ≤ s.boot.stage + 1 → 2 ≤ s.boot.stage := by omega
    simp only [htwo, if_false]
    refine ⟨hlt, beq_iff_eq, fun hr => absurd (hrecovery.symm.trans hr) Bool.false_ne_true, ?_, fun hs => h.modnum (hlate hs),
      fun hs => h.savepool (hlate hs), fun hs => h.pcap (hlate hs), h.rollback, h.keys⟩
    simp only [List.append_nil, List.length_append, List.length_singleton, hmeasured]
    split <;> split <;> omega

/-- R371, R372: a stage is entered, or RECOVERY, which does not come once READY is set. -/
theorem execBootStage_bootOk {s t : State} (header body : List Byte) (h : s.BootOk) (ht : execBootStage header body s = .next t) :
    t.BootOk := by
  simp only [execBootStage] at ht
  split at ht
  case isTrue => cases ht; exact h
  case isFalse hrun =>
    obtain ⟨hrecovery, hready⟩ : s.boot.recovery = false ∧ s.boot.ready = false := by simpa using hrun
    split at ht
    case isTrue hpass =>
      cases ht
      refine h.stagePassed header body hrecovery hready fun htwo => ?_
      simpa [htwo] using (Bool.and_eq_true_iff.1 hpass).2
    case isFalse => cases ht; exact { h with recovery := fun _ => hready }

/-- R372: the rollback counter rises no higher than its 64 steps. -/
theorem execRollbackRaise_bootOk {s t : State} (signed : Bool) (h : s.BootOk) (ht : execRollbackRaise signed s = .next t) : t.BootOk := by
  unfold execRollbackRaise at ht
  split at ht <;> cases ht
  · exact { h with rollback := max_le h.rollback (min_le_left _ _) }
  · exact h

/-- R369, R376: of the registers that the host writes only PCAP is one of the three parts. -/
theorem execBar0RegisterWrite_bootOk {s t : State} (off : BitVec 16) (v : BitVec 64) (h : s.BootOk)
    (ht : execBar0RegisterWrite off v s = .next t) : t.BootOk := by
  simp only [execBar0RegisterWrite] at ht
  split at ht
  · cases ht; exact h
  · split at ht
    case h_1 b _ => cases ht; exact h.of_root (s.ringBell_root b _)
    case h_2 =>
      split at ht
      · cases ht; exact h.of_root (by split <;> rfl)
      · split at ht
        · cases ht; exact h.of_root (by split <;> rfl)
        · split at ht <;> cases ht
          · exact h.setPcap _
          · exact h

/-- Each of the six rows that set the boot record or PCAP keeps the invariant. -/
theorem exec_bootOk_of_setsRoot {i : Instr} {s t : State} (hi : setsRoot i = true) (h : s.BootOk) (ht : exec i s = .next t) :
    t.BootOk := by
  cases i with
  | reset =>
    cases (show execReset s = .next t from ht)
    split
    · exact h
    · exact h.rebooted
  | coldReset => cases (show execColdReset s = .next t from ht); exact h.rebooted
  | bootStage header body => exact execBootStage_bootOk header body h ht
  | rollbackRaise signed => exact execRollbackRaise_bootOk signed h ht
  | pcapWrite w =>
    cases (show execPcapWrite w s = .next t from ht)
    split
    · exact h
    · exact h.setPcap _
  | bar0RegisterWrite off v => exact execBar0RegisterWrite_bootOk off v h ht
  | _ => cases hi

/-! ## The obligations -/

/-- Settles O4: a step that leaves boot record, part and PCAP alone keeps an invariant of them, and each row that sets them keeps it too. -/
theorem bootOkKept : Obligations.BootOkKept := by
  intro s t h ht
  obtain hroot | ⟨core, i, r, -, hi, hexec⟩ := step_root s t ht
  · exact h.of_root hroot
  · exact exec_bootOk_of_setsRoot hi (h.of_root (State.focus_root { s with agenda := r } core)) hexec

/-- Settles O5: at reset no stage has passed. -/
theorem bootOkAtReset : Obligations.BootOkAtReset :=
  ⟨Nat.zero_le 3, by simp [State.reset], (nomatch ·), rfl, fun h => absurd (show 2 ≤ 0 from h) (by decide),
    fun h => absurd (show 2 ≤ 0 from h) (by decide), fun h => absurd (show 2 ≤ 0 from h) (by decide), Nat.zero_le 64, rfl⟩

/-- The six rows, as the statement lists them. -/
theorem setsRoot_cases {i : Instr} (h : setsRoot i = true) :
    i = .reset ∨ i = .coldReset ∨ (∃ a b, i = .bootStage a b) ∨ (∃ b, i = .rollbackRaise b) ∨ (∃ w, i = .pcapWrite w) ∨
      ∃ a b, i = .bar0RegisterWrite a b := by
  cases i with
  | reset | coldReset | bootStage | rollbackRaise | pcapWrite | bar0RegisterWrite => simp
  | _ => cases h

/-- Settles O6: by what a step can do to the root of the state. -/
theorem configurationIsKept : Obligations.ConfigurationIsKept := by
  intro s t ht
  obtain hroot | ⟨core, i, r, hagenda, hi, -⟩ := step_root s t ht
  · exact .inl (State.root_parts hroot)
  · exact .inr ⟨core, i, r, hagenda, setsRoot_cases hi⟩

end Sys2Proof.Machine
end

section
-- One declaration after another: the whole text is checked in one process, of bounded memory.
set_option Elab.async false
/-! SUPPORT. The decoder and the encoder: a field of a packed word, each row of the decoder read backwards, items as bytes. -/

namespace Sys2Proof

theorem fld_lt (w lo n : Nat) : fld w lo n < 2 ^ n := Nat.mod_lt _ (Nat.two_pow_pos n)

theorem fld_fld {w lo n : Nat} (k m : Nat) (h : k + m ≤ n) : fld w (lo + k) m = fld (fld w lo n) k m := by
  obtain ⟨r, rfl⟩ := Nat.exists_eq_add_of_le h
  rw [fld, fld, fld, Nat.pow_add, ← Nat.div_div_eq_div_mul, Nat.pow_add, Nat.pow_add, Nat.mul_assoc, Nat.mod_mul_right_div_self,
    Nat.mod_mul_right_mod]

theorem fld_join (w lo n m : Nat) : fld w lo (n + m) = fld w (lo + n) m * 2 ^ n + fld w lo n := by
  rw [fld, fld, fld, Nat.pow_add, Nat.pow_add, ← Nat.div_div_eq_div_mul, Nat.mod_mul]
  ring

@[simp] theorem bvf_toNat (w lo n : Nat) : (bvf w lo n).toNat = fld w lo n := by
  rw [bvf, BitVec.toNat_ofNat, Nat.mod_eq_of_lt (fld_lt w lo n)]

def Reads (w : Nat) : Nat → List (Nat × Nat) → Prop
  | _, [] => True
  | hi, (n, v) :: r => fld w (hi - n) n = v ∧ Reads w (hi - n) r

theorem foldl_pack_reads (w : Nat) (l : List (Nat × Nat)) (hi : Nat) (hsum : (l.map (·.1)).sum = hi) (h : Reads w hi l) :
    l.foldl (fun a p => a * 2 ^ p.1 + p.2) (w / 2 ^ hi) = w := by
  induction l generalizing hi with
  | nil => subst hsum; simp
  | cons p r ih =>
    obtain ⟨n, v⟩ := p
    obtain ⟨hv, hr⟩ := h
    simp only [List.map_cons, List.sum_cons] at hsum
    obtain rfl : hi = n + (r.map (·.1)).sum := hsum.symm
    rw [Nat.add_sub_cancel_left] at hv hr
    rw [List.foldl_cons, ← hv]
    convert ih _ rfl hr using 2
    rw [fld, Nat.add_comm n, Nat.pow_add, ← Nat.div_div_eq_div_mul, Nat.div_add_mod']

theorem pack_of_reads {w n : Nat} {l : List (Nat × Nat)} (hw : w < 2 ^ n) (hsum : (l.map (·.1)).sum = n) (h : Reads w n l) :
    pack l = w := by
  have := foldl_pack_reads w l n hsum h
  rwa [Nat.div_eq_of_lt hw] at this

theorem reads_foldl (l : List (Nat × Nat)) (hfit : Fits l) (a : Nat) :
    Reads (l.foldl (fun a p => a * 2 ^ p.1 + p.2) a) (l.map (·.1)).sum l ∧
      l.foldl (fun a p => a * 2 ^ p.1 + p.2) a / 2 ^ (l.map (·.1)).sum = a := by
  induction l generalizing a with
  | nil => simp [Reads]
  | cons p r ih =>
    obtain ⟨hp, hr⟩ := hfit
    obtain ⟨hread, htop⟩ := ih hr (a * 2 ^ p.1 + p.2)
    simp only [List.map_cons, List.sum_cons, List.foldl_cons, Reads, Nat.add_sub_cancel_left]
    refine ⟨⟨?_, hread⟩, ?_⟩
    · rw [fld, htop, Nat.mul_add_mod', Nat.mod_eq_of_lt hp]
    · rw [Nat.add_comm p.1, Nat.pow_add, ← Nat.div_div_eq_div_mul, htop, Nat.mul_comm, Nat.mul_add_div (Nat.two_pow_pos _), Nat.div_eq_of_lt hp, Nat.add_zero]


/-- A decoding of a 32-bit item that is the encoder's, a header's refusal (R51), or none. -/
def Decoded.Encodes (w : Nat) : Decoded → Prop
  | .ok i => i.wellFormed = true ∧ encode i = some (32, w)
  | .header len => fld w 28 4 = 10 ∧ len = fld w 16 12
  | _ => True

theorem encodes_ok {i : Instr} {w : Nat} {l : List (Nat × Nat)} (hw : w < 2 ^ 32) (hi : encode i = some (32, pack l))
    (hwf : i.wellFormed = true) (hsum : (l.map (·.1)).sum = 32) (h : Reads w 32 l) : (Decoded.ok i).Encodes w :=
  ⟨hwf, by rw [hi, pack_of_reads hw hsum h]⟩

theorem encodes_row {z : Bool} {i : Instr} {w : Nat} (h : z = true → (Decoded.ok i).Encodes w) : (rowOf z i).Encodes w := by
  cases z
  · trivial
  · exact h rfl

theorem fld_op {w tag op : Nat} (htag : fld w 29 3 = tag) (hop : fld w 22 7 = op) : fld w 22 10 = tag * 2 ^ 7 + op := by
  rw [fld_join w 22 7 3, htag, hop]

theorem cmpiCc_encodes {w c : Nat} (hw : w < 2 ^ 32) (hc : c < 6) (hop : fld w 22 10 = 40 + c) :
    (rowOf (fld w 18 2 == 0) (.cmpiCc (bvf w 22 3) (bvf w 20 2) (bvf w 15 3) (bvf w 10 5) (bvf w 0 10))).Encodes w := by
  have hhigh : fld w 25 7 = fld (fld w 22 10) 3 7 := fld_fld 3 7 (by decide)
  have hcond : fld w 22 3 = fld (fld w 22 10) 0 3 := fld_fld 0 3 (by decide)
  have hc3 : fld w 22 3 = c := by rw [hcond, hop]; simp only [fld]; omega
  have hc7 : fld w 25 7 = 5 := by rw [hhigh, hop]; simp only [fld]; omega
  refine encodes_row fun hz => encodes_ok hw rfl ?_ rfl ?_
  · show condOk _ = true
    simpa [condOk, hc3] using hc
  · have hz : fld w 18 2 = 0 := beq_iff_eq.mp hz
    simp [Reads, hc7, hz]

theorem bCc_fields {w c k : Nat} (hc : c < 6) (hk : k < 2) (hop : fld w 22 10 = 48 + 2 * c + k) :
    fld w 26 6 = 3 ∧ fld w 23 3 = c ∧ fld w 22 1 = k := by
  have hhigh : fld w 26 6 = fld (fld w 22 10) 4 6 := fld_fld 4 6 (by decide)
  have hcond : fld w 23 3 = fld (fld w 22 10) 1 3 := fld_fld 1 3 (by decide)
  have hbit : fld w 22 1 = fld (fld w 22 10) 0 1 := fld_fld 0 1 (by decide)
  rw [hhigh, hcond, hbit, hop]
  simp only [fld]
  omega

theorem condOk_of_fld {w lo c : Nat} (hc : c < 6) (hcond : fld w lo 3 = c) : condOk (bvf w lo 3) = true := by
  simpa [condOk, hcond] using hc

theorem bCc_encodes {w c : Nat} (hw : w < 2 ^ 32) (hc : c < 6) (hop : fld w 22 10 = 48 + 2 * c) :
    (Decoded.ok (.bCc (bvf w 23 3) (bvf w 20 2) (bvf w 15 5) (bvf w 10 5) (bvf w 0 10))).Encodes w := by
  obtain ⟨hhigh, hcond, hbit⟩ := bCc_fields hc (k := 0) (by decide) hop
  exact encodes_ok hw rfl (condOk_of_fld hc hcond) rfl (by simp [Reads, hhigh, hbit])

theorem bCcA_encodes {w c : Nat} (hw : w < 2 ^ 32) (hc : c < 6) (hop : fld w 22 10 = 48 + 2 * c + 1) :
    (Decoded.ok (.bCcA (bvf w 23 3) (bvf w 20 2) (bvf w 15 5) (bvf w 10 5) (bvf w 0 10))).Encodes w := by
  obtain ⟨hhigh, hcond, hbit⟩ := bCc_fields hc (k := 1) (by decide) hop
  exact encodes_ok hw rfl (condOk_of_fld hc hcond) rfl (by simp [Reads, hhigh, hbit])

theorem decodeSys_encodes {w : Nat} (hw : w < 2 ^ 32) (hop : fld w 22 10 = 127) : (decodeSys w).Encodes w := by
  have h10 := fld_join w 0 5 5
  have h15 := fld_join w 0 5 10
  have h20 := fld_join w 0 5 15
  unfold decodeSys
  split
  case h_17 => trivial
  all_goals
    refine encodes_row fun hz => encodes_ok hw rfl rfl rfl ?_
    simp_all [Reads]

/-- R59: the compares with an immediate and the conditional branches, whose OP holds the condition. -/
theorem decodeC_compare {w c : Nat} (hc : c < 6) (hn : fld w 22 7 = 40 + c) :
    decodeC w = rowOf (fld w 18 2 == 0) (.cmpiCc (bvf w 22 3) (bvf w 20 2) (bvf w 15 3) (bvf w 10 5) (bvf w 0 10)) := by
  rw [decodeC, hn]
  clear hn
  interval_cases c <;> rfl

theorem decodeC_branch {w c : Nat} (hc : c < 6) (hn : fld w 22 7 = 48 + 2 * c) :
    decodeC w = .ok (.bCc (bvf w 23 3) (bvf w 20 2) (bvf w 15 5) (bvf w 10 5) (bvf w 0 10)) := by
  rw [decodeC, hn]
  clear hn
  interval_cases c <;> rfl

theorem decodeC_branchA {w c : Nat} (hc : c < 6) (hn : fld w 22 7 = 48 + 2 * c + 1) :
    decodeC w = .ok (.bCcA (bvf w 23 3) (bvf w 20 2) (bvf w 15 5) (bvf w 10 5) (bvf w 0 10)) := by
  rw [decodeC, hn]
  clear hn
  interval_cases c <;> rfl

/-- The other rows of C. -/
theorem decodeC_plain_encodes {w n : Nat} (hw : w < 2 ^ 32) (htag : fld w 29 3 = 0) (hn : fld w 22 7 = n) (hlt : n < 127)
    (hcond : n < 40 ∨ n = 46 ∨ n = 47 ∨ 60 ≤ n) (hared : n ≠ 93) : (decodeC w).Encodes w := by
  have hop := fld_op htag hn
  rw [decodeC, hn]
  clear htag hn
  interval_cases n
  any_goals omega
  any_goals exact trivial
  any_goals refine encodes_row fun hz => ?_
  all_goals
    refine encodes_ok hw rfl rfl rfl ?_
    simp_all [Reads]

theorem decodeC_ared_encodes {w : Nat} (hw : w < 2 ^ 32) (htag : fld w 29 3 = 0) (hn : fld w 22 7 = 93) : (decodeC w).Encodes w := by
  have hop := fld_op htag hn
  rw [decodeC, hn]
  by_cases hbad : (fld w 9 1 == 1 && fld w 0 7 == 0) = true
  · exact (congrArg (Decoded.Encodes w) (if_pos hbad)).mpr trivial
  · refine (congrArg (Decoded.Encodes w) (if_neg hbad)).mpr (encodes_row fun hz => encodes_ok hw rfl rfl rfl ?_)
    simp_all [Reads]

theorem decodeC_encodes {w : Nat} (hw : w < 2 ^ 32) (htag : fld w 29 3 = 0) : (decodeC w).Encodes w := by
  obtain ⟨n, hn⟩ : ∃ n, fld w 22 7 = n := ⟨_, rfl⟩
  have hlt : n < 128 := hn ▸ fld_lt w 22 7
  have hop := fld_op htag hn
  by_cases hcompare : 40 ≤ n ∧ n < 46
  · obtain ⟨c, rfl⟩ := Nat.exists_eq_add_of_le hcompare.1
    have hc : c < 6 := by omega
    exact decodeC_compare hc hn ▸ cmpiCc_encodes hw hc (by rw [hop]; omega)
  by_cases hbranch : 48 ≤ n ∧ n < 60
  · obtain ⟨c, hc, rfl | rfl⟩ : ∃ c < 6, n = 48 + 2 * c ∨ n = 48 + 2 * c + 1 := ⟨(n - 48) / 2, by omega, by omega⟩
    · exact decodeC_branch hc hn ▸ bCc_encodes hw hc (by rw [hop]; omega)
    · exact decodeC_branchA hc hn ▸ bCcA_encodes hw hc (by rw [hop]; omega)
  by_cases hared : n = 93
  · exact decodeC_ared_encodes hw htag (hared ▸ hn)
  by_cases hsys : n = 127
  · have hrow : decodeC w = decodeSys w := by rw [decodeC, hn, hsys]; rfl
    exact hrow ▸ decodeSys_encodes hw (by rw [hop, hsys]; rfl)
  exact decodeC_plain_encodes hw htag hn (by omega) (by omega) hared

theorem decodeL_encodes {w : Nat} (hw : w < 2 ^ 32) (htag : fld w 29 3 = 1) : (decodeL w).Encodes w := by
  have htop : fld w 22 10 = fld w 29 3 * 2 ^ 7 + fld w 22 7 := fld_join w 22 7 3
  unfold decodeL
  split
  case h_2 =>
    split
    · trivial
    · refine encodes_row fun hz => encodes_ok hw rfl rfl rfl ?_
      simp_all [Reads]
  case h_7 => trivial
  all_goals
    refine encodes_row fun hz => encodes_ok hw rfl rfl rfl ?_
    simp_all [Reads]

theorem decodeM_encodes {w : Nat} (hw : w < 2 ^ 32) (htag : fld w 29 3 = 3) : (decodeM w).Encodes w := by
  have htop : fld w 22 10 = fld w 29 3 * 2 ^ 7 + fld w 22 7 := fld_join w 22 7 3
  unfold decodeM
  split
  case h_16 => trivial
  case h_13 => 
    split
    all_goals
      refine encodes_row fun hz => encodes_ok hw rfl rfl rfl ?_
      simp_all [Reads]
  any_goals refine encodes_row fun hz => ?_
  all_goals
    refine encodes_ok hw rfl rfl rfl ?_
    simp_all [Reads]

theorem decodeV_encodes {w : Nat} (hw : w < 2 ^ 32) (htag : fld w 29 3 = 2) : (decodeV w).Encodes w := by
  obtain ⟨n, hn⟩ : ∃ n, fld w 22 7 = n := ⟨_, rfl⟩
  have hlt : n < 128 := hn ▸ fld_lt w 22 7
  have hop := fld_op htag hn
  rw [decodeV, hn]
  clear htag hn
  interval_cases n
  any_goals exact trivial
  any_goals refine encodes_row fun hz => ?_
  all_goals
    refine encodes_ok hw rfl rfl rfl ?_
    simp_all [Reads]

theorem decodeS_encodes {w : Nat} (hw : w < 2 ^ 32) (htag : fld w 29 3 = 4) : (decodeS w).Encodes w := by
  have htop : fld w 22 10 = fld w 29 3 * 2 ^ 7 + fld w 22 7 := fld_join w 22 7 3
  unfold decodeS
  split
  case h_9 => trivial
  any_goals refine encodes_row fun hz => ?_
  all_goals
    refine encodes_ok hw rfl rfl rfl ?_
    simp_all [Reads]

/-- A mask that the decoder finds to be other than zero is other than zero as a field. -/
theorem bvf_ne_zero {w lo n : Nat} (h : (fld w lo n != 0) = true) : (bvf w lo n != 0) = true := by
  rw [bne_iff_ne] at h ⊢
  intro hz
  exact h (by rw [← bvf_toNat, hz]; rfl)

theorem decodeX_encodes {w : Nat} (hw : w < 2 ^ 32) (htag : fld w 29 3 = 5) : (decodeX w).Encodes w := by
  have htop : fld w 22 10 = fld w 29 3 * 2 ^ 7 + fld w 22 7 := fld_join w 22 7 3
  unfold decodeX
  split
  case h_15 => trivial
  case h_2 =>
    refine encodes_row fun hz => encodes_ok hw rfl rfl rfl ?_
    simp_all [Reads]
  all_goals
    refine encodes_row fun hz => ?_
    obtain ⟨hz, hm⟩ := (Bool.and_eq_true _ _).mp hz
    refine encodes_ok hw rfl (bvf_ne_zero hm) rfl ?_
    simp_all [Reads]

theorem blockHeader_encodes {w : Nat} (hw : w < 2 ^ 32) (htag : fld w 29 3 = 5) (hx : fld w 28 1 = 0) (hi : fld w 15 1 = 0) :
    (Decoded.ok (.blockHeader (bvf w 16 12) (bvf w 0 15))).Encodes w := by
  have htop := fld_join w 28 1 3
  exact encodes_ok hw rfl rfl rfl (by simp_all [Reads])

theorem blockHeaderReg_encodes {w : Nat} (hw : w < 2 ^ 32) (htag : fld w 29 3 = 5) (hx : fld w 28 1 = 0) (hi : fld w 15 1 = 1)
    (hz : fld w 5 10 = 0) : (Decoded.ok (.blockHeaderReg (bvf w 16 12) (bvf w 0 5))).Encodes w := by
  have htop := fld_join w 28 1 3
  have hreg := fld_join w 5 10 1
  exact encodes_ok hw rfl rfl rfl (by simp_all [Reads])

theorem fld_bit_ne {w lo n : Nat} (hn : n < 2) (h : fld w lo 1 ≠ n) : fld w lo 1 = 1 - n := by
  have := fld_lt w lo 1
  omega

/-- R48 to R70: a 32-bit item that decodes is the encoding of a well-formed instruction. -/
theorem decode32_encodes {w : Nat} (hw : w < 2 ^ 32) : (decode32 w).Encodes w := by
  unfold decode32
  split
  case h_1 htag => exact decodeC_encodes hw htag
  case h_2 htag => exact decodeL_encodes hw htag
  case h_3 htag => exact decodeV_encodes hw htag
  case h_4 htag => exact decodeM_encodes hw htag
  case h_5 htag => exact decodeS_encodes hw htag
  case h_6 htag =>
    split
    case isTrue => exact decodeX_encodes hw htag
    case isFalse hx =>
      have hx : fld w 28 1 = 0 := fld_bit_ne (n := 1) (by decide) (by simpa using hx)
      split
      case isTrue hi => exact blockHeader_encodes hw htag hx (by simpa using hi)
      case isFalse hi =>
        have hi : fld w 15 1 = 1 := fld_bit_ne (n := 0) (by decide) (by simpa using hi)
        split
        case isTrue hz => exact blockHeaderReg_encodes hw htag hx hi (by simpa using hz)
        case isFalse => exact ⟨by rw [fld_join w 28 1 3, htag, hx]; rfl, rfl⟩
  case h_7 => trivial

/-- R56, R62: a one-parcel item that decodes is the encoding of a well-formed instruction. -/
theorem decode16_encodes {p : Nat} {i : Instr} (hp : p < 2 ^ 16) (h : decode16 p = .ok i) :
    i.wellFormed = true ∧ encode i = some (16, p) := by
  unfold decode16 at h
  split at h
  case h_1 htag =>
    cases h
    refine ⟨rfl, congrArg (fun p => some (16, p)) (pack_of_reads hp rfl ?_)⟩
    simp [Reads, htag]
  case h_2 htag =>
    unfold rowOf at h
    split at h
    case isTrue hz =>
      cases h
      have htop := fld_join p 10 3 3
      refine ⟨rfl, congrArg (fun p => some (16, p)) (pack_of_reads hp rfl ?_)⟩
      simp_all [Reads]
    case isFalse => cases h
  case h_3 => cases h

/-! ### Items laid out as bytes (R15, R49) -/

/-- The instruction of a decoding, if there is one. -/
def Decoded.item : Decoded → Option Instr
  | .ok i => some i
  | _ => none

theorem Decoded.item_eq_some {d : Decoded} {i : Instr} : d.item = some i ↔ d = .ok i := by
  cases d <;> simp [Decoded.item]

theorem parcelOf_bytes {p : Nat} (hp : p < 2 ^ 16) : parcelOf (BitVec.ofNat 8 p) (BitVec.ofNat 8 (p / 2 ^ 8)) = p := by
  simp only [parcelOf, BitVec.toNat_ofNat]
  omega

theorem decodeTableWord_long {w : Nat} (hw : w < 2 ^ 32) :
    decodeTableWord 32 w = if isLong (w / 2 ^ 16) then (decode32 w).item else (decode16 (w / 2 ^ 16)).item := by
  have hhi : w / 2 ^ 16 < 2 ^ 16 := by omega
  have hlo : w % 2 ^ 16 < 2 ^ 16 := Nat.mod_lt _ (by decide)
  have hsplit : w / 2 ^ 16 * 2 ^ 16 + w % 2 ^ 16 = w := Nat.div_add_mod' w _
  rw [decodeTableWord, itemBytes, if_neg (by decide), Nat.mod_eq_of_lt hhi]
  simp only [List.cons_append, List.nil_append, decodeBytes, parcelOf_bytes hhi, parcelOf_bytes hlo, hsplit]
  split
  · cases decode32 w <;> rfl
  · cases decode16 (w / 2 ^ 16) <;> rfl

theorem decodeTableWord_short {p : Nat} (hp : p < 2 ^ 16) :
    decodeTableWord 16 p = if isLong p then none else (decode16 p).item := by
  rw [decodeTableWord, itemBytes, if_pos (by decide), Nat.mod_eq_of_lt hp]
  simp only [decodeBytes, parcelOf_bytes hp]
  split
  · rfl
  · cases decode16 p <;> rfl

/-- Settles O2: each row of the decoder names the fields that the encoder packs (`decode32_encodes`, `decode16_encodes`). -/
theorem decodeEncode : Obligations.DecodeEncode := by
  unfold Obligations.DecodeEncode
  refine ⟨fun w i hw h => ?_, fun p i hp h => ?_⟩
  · rw [decodeTableWord_long hw] at h
    split at h
    · have henc := decode32_encodes hw
      rw [Decoded.item_eq_some.mp h] at henc
      exact ⟨henc.1, .inl henc.2⟩
    · obtain ⟨hwf, henc⟩ := decode16_encodes (by omega) (Decoded.item_eq_some.mp h)
      exact ⟨hwf, .inr henc⟩
  · rw [decodeTableWord_short hp] at h
    split at h
    · cases h
    · exact decode16_encodes hp (Decoded.item_eq_some.mp h)

/-- Settles O3: the kernel evaluates the decoder on each word. -/
theorem wordsDecode : Obligations.WordsDecode := by
  unfold Obligations.WordsDecode
  exact ⟨rfl, rfl, rfl, rfl, rfl, rfl, rfl, rfl, rfl, rfl, rfl, rfl, rfl⟩

end Sys2Proof
end

section
-- One declaration after another: the whole text is checked in one process, of bounded memory.
set_option Elab.async false
/-! SUPPORT. Each row of the encoder read back: the OP selects the row of the decoder, and the packed fields are its operands. -/

namespace Sys2Proof

theorem reads_pack {l : List (Nat × Nat)} (hfit : Fits l) {n : Nat} (hsum : (l.map (·.1)).sum = n) : Reads (pack l) n l :=
  hsum ▸ (reads_foldl l hfit 0).1

/-- The 32-bit item decodes to the instruction. -/
def DecodesTo (w : Nat) (i : Instr) : Prop := w < 2 ^ 32 ∧ decode32 w = .ok i

theorem decode32_pack {l : List (Nat × Nat)} {i : Instr} (hfit : Fits l) (hsum : (l.map (·.1)).sum = 32)
    (h : ∀ w, Reads w 32 l → decode32 w = .ok i) : DecodesTo (pack l) i :=
  ⟨pack_lt l 32 hfit hsum, h _ (reads_pack hfit hsum)⟩

theorem rowOf_ok {z : Bool} {i j : Instr} (hz : z = true) (hi : i = j) : rowOf z i = .ok j := by
  rw [hz, hi]
  rfl

theorem fld_of_fld {w lo n v : Nat} (k m : Nat) (hkm : k + m ≤ n) (h : fld w lo n = v) : fld w (lo + k) m = v / 2 ^ k % 2 ^ m := by
  rw [fld_fld k m hkm, h, fld]

theorem fld_of_op {w op : Nat} (h : fld w 22 10 = op) : fld w 22 7 = op % 2 ^ 7 := by
  rw [show fld w 22 7 = op / 2 ^ 0 % 2 ^ 7 from fld_of_fld 0 7 (by decide) h, Nat.pow_zero, Nat.div_one]

theorem tag_of_op {w op : Nat} (h : fld w 22 10 = op) : fld w 29 3 = op / 2 ^ 7 % 2 ^ 3 := fld_of_fld 7 3 (by decide) h

theorem decode32_C {w : Nat} (h : fld w 29 3 = 0) : decode32 w = decodeC w := by simp only [decode32, h]
theorem decode32_L {w : Nat} (h : fld w 29 3 = 1) : decode32 w = decodeL w := by simp only [decode32, h]
theorem decode32_V {w : Nat} (h : fld w 29 3 = 2) : decode32 w = decodeV w := by simp only [decode32, h]
theorem decode32_M {w : Nat} (h : fld w 29 3 = 3) : decode32 w = decodeM w := by simp only [decode32, h]
theorem decode32_S {w : Nat} (h : fld w 29 3 = 4) : decode32 w = decodeS w := by simp only [decode32, h]

theorem decode32_X {w op : Nat} (h : fld w 22 10 = op) (hop : op / 2 ^ 6 = 11) : decode32 w = decodeX w := by
  have htop : fld w 28 4 = 11 := by
    rw [show fld w 28 4 = op / 2 ^ 6 % 2 ^ 4 from fld_of_fld 6 4 (by decide) h, hop]
    rfl
  have htag : fld w 29 3 = 5 := fld_of_fld 1 3 (by decide) htop
  have hbit : fld w 28 1 = 1 := fld_of_fld 0 1 (by decide) htop
  rw [decode32, htag]
  exact if_pos (beq_iff_eq.mpr hbit)

theorem bvf_of_fld {w lo n : Nat} {x : BitVec n} (h : fld w lo n = x.toNat) : bvf w lo n = x := by
  rw [bvf, h, BitVec.ofNat_toNat, BitVec.setWidth_eq]

/-- The rows `lo` to `hi - 1` of the opcode table, which `Instr` lists in its order. -/
def Instr.inRows (lo hi : Nat) (i : Instr) : Bool := decide (lo ≤ i.ctorIdx) && decide (i.ctorIdx < hi)

theorem decode32_system {w : Nat} (h : fld w 22 10 = 127) : decode32 w = decodeSys w := by
  rw [decode32_C (tag_of_op h), decodeC, fld_of_op h]
  rfl

theorem toNat_bne_zero {n : Nat} (x : BitVec n) : (x.toNat != 0) = (x != 0) := by
  rw [Bool.eq_iff_iff, bne_iff_ne, bne_iff_ne, not_iff_not]
  exact ⟨fun h => BitVec.eq_of_toNat_eq h, fun h => by rw [h]; rfl⟩

/-! ### Rows that are not read field by field -/

theorem decode32_cmpiCc {c : BitVec 3} {y : BitVec 2} {d : BitVec 3} {a : BitVec 5} {k : BitVec 10} {w : Nat} (hc : c.toNat < 6)
    (h : encode (.cmpiCc c y d a k) = some (32, w)) : DecodesTo w (.cmpiCc c y d a k) := by
  cases h
  refine decode32_pack ⟨by decide, c.isLt, y.isLt, by decide, d.isLt, a.isLt, k.isLt, trivial⟩ rfl fun w hr => ?_
  obtain ⟨htop, hcond, hy, hz, hd, ha, hk, -⟩ := hr
  simp only [Nat.reduceSub] at htop hcond hy hz hd ha hk
  have hop : fld w 22 10 = 40 + c.toNat := by rw [fld_join w 22 3 7, htop, hcond]; omega
  have hrow : decodeC w = rowOf (fld w 18 2 == 0) (.cmpiCc (bvf w 22 3) (bvf w 20 2) (bvf w 15 3) (bvf w 10 5) (bvf w 0 10)) := by
    have h7 := fld_of_op hop
    generalize c.toNat = n at hc h7
    rw [decodeC, h7]
    interval_cases n <;> rfl
  rw [decode32_C (by rw [tag_of_op hop]; omega), hrow]
  exact rowOf_ok (by rw [hz]; rfl) (by rw [bvf_of_fld hcond, bvf_of_fld hy, bvf_of_fld hd, bvf_of_fld ha, bvf_of_fld hk])

theorem decode32_bCc {c : BitVec 3} {y : BitVec 2} {a b : BitVec 5} {k : BitVec 10} {w : Nat} (hc : c.toNat < 6)
    (h : encode (.bCc c y a b k) = some (32, w)) : DecodesTo w (.bCc c y a b k) := by
  cases h
  refine decode32_pack ⟨by decide, c.isLt, by decide, y.isLt, a.isLt, b.isLt, k.isLt, trivial⟩ rfl fun w hr => ?_
  obtain ⟨htop, hcond, hbit, hy, ha, hb, hk, -⟩ := hr
  simp only [Nat.reduceSub] at htop hcond hbit hy ha hb hk
  have hop : fld w 22 10 = 48 + 2 * c.toNat := by rw [fld_join w 22 4 6, htop, fld_join w 22 1 3, hcond, hbit]; omega
  have hrow : decodeC w = .ok (.bCc (bvf w 23 3) (bvf w 20 2) (bvf w 15 5) (bvf w 10 5) (bvf w 0 10)) := by
    have h7 := fld_of_op hop
    generalize c.toNat = n at hc h7
    rw [decodeC, h7]
    interval_cases n <;> rfl
  rw [decode32_C (by rw [tag_of_op hop]; omega), hrow, bvf_of_fld hcond, bvf_of_fld hy, bvf_of_fld ha, bvf_of_fld hb, bvf_of_fld hk]

theorem decode32_bCcA {c : BitVec 3} {y : BitVec 2} {a b : BitVec 5} {k : BitVec 10} {w : Nat} (hc : c.toNat < 6)
    (h : encode (.bCcA c y a b k) = some (32, w)) : DecodesTo w (.bCcA c y a b k) := by
  cases h
  refine decode32_pack ⟨by decide, c.isLt, by decide, y.isLt, a.isLt, b.isLt, k.isLt, trivial⟩ rfl fun w hr => ?_
  obtain ⟨htop, hcond, hbit, hy, ha, hb, hk, -⟩ := hr
  simp only [Nat.reduceSub] at htop hcond hbit hy ha hb hk
  have hop : fld w 22 10 = 49 + 2 * c.toNat := by rw [fld_join w 22 4 6, htop, fld_join w 22 1 3, hcond, hbit]; omega
  have hrow : decodeC w = .ok (.bCcA (bvf w 23 3) (bvf w 20 2) (bvf w 15 5) (bvf w 10 5) (bvf w 0 10)) := by
    have h7 := fld_of_op hop
    generalize c.toNat = n at hc h7
    rw [decodeC, h7]
    interval_cases n <;> rfl
  rw [decode32_C (by rw [tag_of_op hop]; omega), hrow, bvf_of_fld hcond, bvf_of_fld hy, bvf_of_fld ha, bvf_of_fld hb, bvf_of_fld hk]

theorem decode32_ared {y : BitVec 2} {t b : BitVec 5} {k : BitVec 2} {w : Nat}
    (h : encode (.ared y t b k) = some (32, w)) : DecodesTo w (.ared y t b k) := by
  cases h
  refine decode32_pack ⟨by decide, y.isLt, t.isLt, b.isLt, by decide, k.isLt, by decide, trivial⟩ rfl fun w hr => ?_
  obtain ⟨hop, hy, ht, hb, h9, hk, hz, -⟩ := hr
  simp only [Nat.reduceSub] at hop hy ht hb h9 hk hz
  rw [decode32_C (tag_of_op hop), decodeC, fld_of_op hop]
  refine Eq.trans (if_neg ?_) (rowOf_ok ?_ ?_)
  · simp [h9]
  · rw [hz, h9]; rfl
  · rw [bvf_of_fld hy, bvf_of_fld ht, bvf_of_fld hb, bvf_of_fld hk]

theorem decode32_zbind {y : BitVec 2} {t : BitVec 4} {b : BitVec 5} {f : BitVec 4} {w : Nat}
    (h : encode (.zbind y t b f) = some (32, w)) : DecodesTo w (.zbind y t b f) := by
  cases h
  refine decode32_pack ⟨by decide, y.isLt, by decide, t.isLt, b.isLt, by decide, f.isLt, trivial⟩ rfl fun w hr => ?_
  obtain ⟨hop, hy, h19, ht, hb, hz, hf, -⟩ := hr
  simp only [Nat.reduceSub] at hop hy h19 ht hb hz hf
  have h9 : fld w 9 1 = 0 := fld_of_fld 5 1 (by decide) hz
  rw [decode32_L (tag_of_op hop), decodeL, fld_of_op hop]
  refine Eq.trans (if_neg ?_) (rowOf_ok ?_ ?_)
  · simp [h9]
  · rw [hz, h19]; rfl
  · rw [bvf_of_fld hy, bvf_of_fld ht, bvf_of_fld hb, bvf_of_fld hf]

theorem decode32_mclrWindow {y : BitVec 2} {u a : BitVec 5} {s : BitVec 2} {w : Nat}
    (h : encode (.mclrWindow y u a s) = some (32, w)) : DecodesTo w (.mclrWindow y u a s) := by
  cases h
  refine decode32_pack ⟨by decide, y.isLt, u.isLt, by decide, a.isLt, s.isLt, trivial⟩ rfl fun w hr => ?_
  obtain ⟨hop, hy, hu, hz, ha, hs, -⟩ := hr
  simp only [Nat.reduceSub] at hop hy hu hz ha hs
  have h14 : fld w 14 1 = 0 := fld_of_fld 7 1 (by decide) hz
  rw [decode32_M (tag_of_op hop), decodeM, fld_of_op hop]
  refine Eq.trans (if_pos ?_) (rowOf_ok ?_ ?_)
  · rw [h14]; rfl
  · rw [hz]; rfl
  · rw [bvf_of_fld hy, bvf_of_fld hu, bvf_of_fld ha, bvf_of_fld hs]

theorem decode32_mclrBank {y : BitVec 2} {d : BitVec 3} {s : BitVec 2} {w : Nat}
    (h : encode (.mclrBank y d s) = some (32, w)) : DecodesTo w (.mclrBank y d s) := by
  cases h
  refine decode32_pack ⟨by decide, y.isLt, by decide, d.isLt, by decide, s.isLt, trivial⟩ rfl fun w hr => ?_
  obtain ⟨hop, hy, h18, hd, hz, hs, -⟩ := hr
  simp only [Nat.reduceSub] at hop hy h18 hd hz hs
  have h14 : fld w 14 1 = 1 := fld_of_fld 12 1 (by decide) hz
  rw [decode32_M (tag_of_op hop), decodeM, fld_of_op hop]
  refine Eq.trans (if_neg ?_) (rowOf_ok ?_ ?_)
  · simp [h14]
  · rw [hz, h18]; rfl
  · rw [bvf_of_fld hy, bvf_of_fld hd, bvf_of_fld hs]

theorem decode32_header {w : Nat} (h : fld w 28 4 = 10) :
    decode32 w =
      if fld w 15 1 == 0 then .ok (.blockHeader (bvf w 16 12) (bvf w 0 15))
      else if fld w 5 10 == 0 then .ok (.blockHeaderReg (bvf w 16 12) (bvf w 0 5))
      else .header (fld w 16 12) := by
  have htag : fld w 29 3 = 5 := fld_of_fld 1 3 (by decide) h
  have hbit : fld w 28 1 = 0 := fld_of_fld 0 1 (by decide) h
  rw [decode32, htag]
  exact if_neg (by rw [hbit]; decide)

theorem decode32_blockHeader {l : BitVec 12} {c : BitVec 15} {w : Nat}
    (h : encode (.blockHeader l c) = some (32, w)) : DecodesTo w (.blockHeader l c) := by
  cases h
  refine decode32_pack ⟨by decide, l.isLt, by decide, c.isLt, trivial⟩ rfl fun w hr => ?_
  obtain ⟨htop, hl, hbit, hc, -⟩ := hr
  simp only [Nat.reduceSub] at htop hl hbit hc
  rw [decode32_header htop, if_pos (by rw [hbit]; rfl), bvf_of_fld hl, bvf_of_fld hc]

theorem decode32_blockHeaderReg {l : BitVec 12} {r : BitVec 5} {w : Nat}
    (h : encode (.blockHeaderReg l r) = some (32, w)) : DecodesTo w (.blockHeaderReg l r) := by
  cases h
  refine decode32_pack ⟨by decide, l.isLt, by decide, r.isLt, trivial⟩ rfl fun w hr => ?_
  obtain ⟨htop, hl, hreg, hr, -⟩ := hr
  simp only [Nat.reduceSub] at htop hl hreg hr
  have hbit : fld w 15 1 = 1 := fld_of_fld 10 1 (by decide) hreg
  have hz : fld w 5 10 = 0 := fld_of_fld 0 10 (by decide) hreg
  rw [decode32_header htop, if_neg (by rw [hbit]; decide), if_pos (by rw [hz]; rfl), bvf_of_fld hl, bvf_of_fld hr]

/-! ### The rows of each tag -/

/-- The arithmetic of C. -/
theorem decode32_encode_scalar (i : Instr) (w : Nat) : i.inRows 0 39 = true → encode i = some (32, w) →
    DecodesTo w i := by
  cases i
  any_goals exact notListed
  all_goals intro _ h
  all_goals cases h
  all_goals
    refine decode32_pack (by simp only [Fits, BitVec.isLt, and_true, true_and]; decide) rfl fun w hr => ?_
    have hop := fld_of_op hr.1
    rw [decode32_C (tag_of_op hr.1), decodeC]
    simp only [Nat.reduceMod, Nat.reducePow] at hop
    rw [hop]
    simp only [Reads, Nat.reduceSub, and_true] at hr
  any_goals refine rowOf_ok ?_ ?_
  any_goals refine congrArg Decoded.ok ?_
  all_goals simp only [‹_ ∧ _›, bvf, BitVec.ofNat_toNat, BitVec.setWidth_eq, BEq.rfl, Bool.and_self]

theorem decode32_encode_condition (i : Instr) (w : Nat) : i.inRows 39 42 = true → i.wellFormed = true → encode i = some (32, w) →
    DecodesTo w i := by
  cases i
  any_goals exact notListed
  all_goals intro _ hwf h
  case cmpiCc => exact decode32_cmpiCc (of_decide_eq_true hwf) h
  case bCc => exact decode32_bCc (of_decide_eq_true hwf) h
  case bCcA => exact decode32_bCcA (of_decide_eq_true hwf) h

/-- Jumps, queues, memory, synchronization and commands of C. -/
theorem decode32_encode_control (i : Instr) (w : Nat) : i.inRows 42 102 = true → encode i = some (32, w) →
    DecodesTo w i := by
  cases i
  any_goals exact notListed
  all_goals intro _ h
  case ared => exact decode32_ared h
  all_goals cases h
  all_goals
    refine decode32_pack (by simp only [Fits, BitVec.isLt, and_true, true_and]; decide) rfl fun w hr => ?_
    have hop := fld_of_op hr.1
    rw [decode32_C (tag_of_op hr.1), decodeC]
    simp only [Nat.reduceMod, Nat.reducePow] at hop
    rw [hop]
    simp only [Reads, Nat.reduceSub, and_true] at hr
  any_goals refine rowOf_ok ?_ ?_
  any_goals refine congrArg Decoded.ok ?_
  all_goals simp only [‹_ ∧ _›, bvf, BitVec.ofNat_toNat, BitVec.setWidth_eq, BEq.rfl, Bool.and_self]

/-- The system words, whose SUB stands in the low bits. -/
theorem decode32_encode_system (i : Instr) (w : Nat) : i.inRows 102 118 = true → encode i = some (32, w) →
    DecodesTo w i := by
  cases i
  any_goals exact notListed
  all_goals intro _ h
  all_goals cases h
  all_goals
    refine decode32_pack (by simp only [Fits, BitVec.isLt, and_true, true_and]; decide) rfl fun w hr => ?_
    rw [decode32_system hr.1, decodeSys]
    simp only [Reads, Nat.reduceSub, and_true] at hr
    have hlt := fld_lt w 0 5
  case trap | timealign | erd | emov | trace | calset | xswap =>
    have hlow : fld w 0 10 = fld w 5 5 * 2 ^ 5 + fld w 0 5 := fld_join w 0 5 5
    have hz : fld w 5 5 = 0 := by omega
    have hsub : fld w 0 5 = fld w 0 10 := by omega
    simp only [hr] at hsub
    rw [hsub]
    exact rowOf_ok (by simp only [hr, hz, BEq.rfl, Bool.and_self]) (by simp only [hr, bvf, BitVec.ofNat_toNat, BitVec.setWidth_eq])
  case rft | brk =>
    have hlow : fld w 0 15 = fld w 5 10 * 2 ^ 5 + fld w 0 5 := fld_join w 0 5 10
    have hz : fld w 5 10 = 0 := by omega
    have hsub : fld w 0 5 = fld w 0 15 := by omega
    simp only [hr] at hsub
    rw [hsub]
    exact rowOf_ok (by simp only [hz, BEq.rfl]) (by simp only [hr, bvf, BitVec.ofNat_toNat, BitVec.setWidth_eq])
  case engclaim | engrel | yield | halt =>
    have hlow : fld w 0 20 = fld w 5 15 * 2 ^ 5 + fld w 0 5 := fld_join w 0 5 15
    have hz : fld w 5 15 = 0 := by omega
    have hsub : fld w 0 5 = fld w 0 20 := by omega
    simp only [hr] at hsub
    rw [hsub]
    exact rowOf_ok (by simp only [hz, BEq.rfl]) (by simp only [hr, bvf, BitVec.ofNat_toNat, BitVec.setWidth_eq])
  case thset | iinv =>
    obtain ⟨-, hy, hz, ha, hb, hsub⟩ := hr
    rw [hsub]
    exact rowOf_ok (by rw [hz]; rfl) (by rw [bvf_of_fld hy, bvf_of_fld ha, bvf_of_fld hb])
  case estore =>
    obtain ⟨-, hy, hz, hd, hz2, ha, hb, hsub⟩ := hr
    rw [hsub]
    exact rowOf_ok (by rw [hz, hz2]; rfl) (by rw [bvf_of_fld hy, bvf_of_fld hd, bvf_of_fld ha, bvf_of_fld hb])

/-- The first half of the vector rows. -/
theorem decode32_encode_vector (i : Instr) (w : Nat) : i.inRows 118 170 = true → encode i = some (32, w) →
    DecodesTo w i := by
  cases i
  any_goals exact notListed
  all_goals intro _ h
  all_goals cases h
  all_goals
    refine decode32_pack (by simp only [Fits, BitVec.isLt, and_true, true_and]; decide) rfl fun w hr => ?_
    have hop := fld_of_op hr.1
    rw [decode32_V (tag_of_op hr.1), decodeV]
    simp only [Nat.reduceMod, Nat.reducePow] at hop
    rw [hop]
    simp only [Reads, Nat.reduceSub, and_true] at hr
  any_goals refine rowOf_ok ?_ ?_
  any_goals refine congrArg Decoded.ok ?_
  all_goals simp only [‹_ ∧ _›, bvf, BitVec.ofNat_toNat, BitVec.setWidth_eq, BEq.rfl, Bool.and_self]

/-- The second half of the vector rows. -/
theorem decode32_encode_lanes (i : Instr) (w : Nat) : i.inRows 170 220 = true → encode i = some (32, w) →
    DecodesTo w i := by
  cases i
  any_goals exact notListed
  all_goals intro _ h
  all_goals cases h
  all_goals
    refine decode32_pack (by simp only [Fits, BitVec.isLt, and_true, true_and]; decide) rfl fun w hr => ?_
    have hop := fld_of_op hr.1
    rw [decode32_V (tag_of_op hr.1), decodeV]
    simp only [Nat.reduceMod, Nat.reducePow] at hop
    rw [hop]
    simp only [Reads, Nat.reduceSub, and_true] at hr
  any_goals refine rowOf_ok ?_ ?_
  any_goals refine congrArg Decoded.ok ?_
  all_goals simp only [‹_ ∧ _›, bvf, BitVec.ofNat_toNat, BitVec.setWidth_eq, BEq.rfl, Bool.and_self]

/-- The rows of L. -/
theorem decode32_encode_load (i : Instr) (w : Nat) : i.inRows 220 227 = true → encode i = some (32, w) →
    DecodesTo w i := by
  cases i
  any_goals exact notListed
  all_goals intro _ h
  case zbind => exact decode32_zbind h
  all_goals cases h
  all_goals
    refine decode32_pack (by simp only [Fits, BitVec.isLt, and_true, true_and]; decide) rfl fun w hr => ?_
    have hop := fld_of_op hr.1
    rw [decode32_L (tag_of_op hr.1), decodeL]
    simp only [Nat.reduceMod, Nat.reducePow] at hop
    rw [hop]
    simp only [Reads, Nat.reduceSub, and_true] at hr
  any_goals refine rowOf_ok ?_ ?_
  all_goals simp only [‹_ ∧ _›, bvf, BitVec.ofNat_toNat, BitVec.setWidth_eq, BEq.rfl, Bool.and_self]

/-- The rows of M. -/
theorem decode32_encode_mesh (i : Instr) (w : Nat) : i.inRows 227 246 = true → encode i = some (32, w) →
    DecodesTo w i := by
  cases i
  any_goals exact notListed
  all_goals intro _ h
  case mclrWindow => exact decode32_mclrWindow h
  case mclrBank => exact decode32_mclrBank h
  all_goals cases h
  all_goals
    refine decode32_pack (by simp only [Fits, BitVec.isLt, and_true, true_and]; decide) rfl fun w hr => ?_
    have hop := fld_of_op hr.1
    rw [decode32_M (tag_of_op hr.1), decodeM]
    simp only [Nat.reduceMod, Nat.reducePow] at hop
    rw [hop]
    simp only [Reads, Nat.reduceSub, and_true] at hr
  any_goals refine rowOf_ok ?_ ?_
  any_goals refine congrArg Decoded.ok ?_
  all_goals simp only [‹_ ∧ _›, bvf, BitVec.ofNat_toNat, BitVec.setWidth_eq, BEq.rfl, Bool.and_self]

/-- The rows of S. -/
theorem decode32_encode_store (i : Instr) (w : Nat) : i.inRows 246 255 = true → encode i = some (32, w) →
    DecodesTo w i := by
  cases i
  any_goals exact notListed
  all_goals intro _ h
  all_goals cases h
  all_goals
    refine decode32_pack (by simp only [Fits, BitVec.isLt, and_true, true_and]; decide) rfl fun w hr => ?_
    have hop := fld_of_op hr.1
    rw [decode32_S (tag_of_op hr.1), decodeS]
    simp only [Nat.reduceMod, Nat.reducePow] at hop
    rw [hop]
    simp only [Reads, Nat.reduceSub, and_true] at hr
  any_goals refine rowOf_ok ?_ ?_
  any_goals refine congrArg Decoded.ok ?_
  all_goals simp only [‹_ ∧ _›, bvf, BitVec.ofNat_toNat, BitVec.setWidth_eq, BEq.rfl, Bool.and_self]

/-- The broadcast words, whose mask names an engine. -/
theorem decode32_encode_broadcast (i : Instr) (w : Nat) : i.inRows 255 269 = true → i.wellFormed = true →
    encode i = some (32, w) → DecodesTo w i := by
  cases i
  any_goals exact notListed
  all_goals intro _ hwf h
  all_goals
    cases h
    refine decode32_pack (by simp only [Fits, BitVec.isLt, and_true, true_and]; decide) rfl fun w hr => ?_
    have hop := fld_of_op hr.1
    rw [decode32_X hr.1 (by decide), decodeX]
    simp only [Nat.reduceMod, Nat.reducePow] at hop
    rw [hop]
    simp only [Reads, Nat.reduceSub, and_true] at hr
    refine rowOf_ok (Eq.trans ?_ hwf) ?_
    · simp only [hr, toNat_bne_zero, BEq.rfl, Bool.true_and]
      rfl
    · simp only [hr, bvf, BitVec.ofNat_toNat, BitVec.setWidth_eq]

theorem decode32_encode_header (i : Instr) (w : Nat) : i.inRows 269 400 = true → encode i = some (32, w) →
    DecodesTo w i := by
  cases i
  any_goals exact notListed
  all_goals intro _ h
  case blockHeader => exact decode32_blockHeader h
  case blockHeaderReg => exact decode32_blockHeaderReg h
  case timedNop | dictionaryReference => cases h
  all_goals exact noRow h

theorem Instr.inRows_cases (i : Instr) :
    i.inRows 0 39 = true ∨ i.inRows 39 42 = true ∨ i.inRows 42 102 = true ∨ i.inRows 102 118 = true ∨ i.inRows 118 170 = true ∨
      i.inRows 170 220 = true ∨ i.inRows 220 227 = true ∨ i.inRows 227 246 = true ∨ i.inRows 246 255 = true ∨
      i.inRows 255 269 = true ∨ i.inRows 269 400 = true := by
  have hall : i.ctorIdx < 400 := by cases i <;> exact of_decide_eq_true rfl
  simp only [Instr.inRows, Bool.and_eq_true, decide_eq_true_eq]
  omega

/-- The width of an encoding. -/
def widthOk : Option (Nat × Nat) → Bool
  | some (n, _) => n == 16 || n == 32
  | none => true

theorem encode_width {i : Instr} {n w : Nat} (h : encode i = some (n, w)) : n = 16 ∨ n = 32 := by
  have hok : widthOk (encode i) = true := by cases i <;> exact (rfl : true = true)
  rw [h] at hok
  simpa [widthOk] using hok

/-- Decoding a 32-bit item that the encoder writes, tag by tag. -/
theorem decode32_encode (i : Instr) (w : Nat) (hwf : i.wellFormed = true) (h : encode i = some (32, w)) : DecodesTo w i := by
  rcases i.inRows_cases with hi | hi | hi | hi | hi | hi | hi | hi | hi | hi | hi
  · exact decode32_encode_scalar i w hi h
  · exact decode32_encode_condition i w hi hwf h
  · exact decode32_encode_control i w hi h
  · exact decode32_encode_system i w hi h
  · exact decode32_encode_vector i w hi h
  · exact decode32_encode_lanes i w hi h
  · exact decode32_encode_load i w hi h
  · exact decode32_encode_mesh i w hi h
  · exact decode32_encode_store i w hi h
  · exact decode32_encode_broadcast i w hi hwf h
  · exact decode32_encode_header i w hi h

/-- Whether an instruction has an encoding of one parcel. -/
def Instr.isShort : Instr → Bool
  | .timedNop _ | .dictionaryReference _ => true
  | _ => false

/-- An encoding of another width than one parcel. -/
def notShort : Option (Nat × Nat) → Bool
  | some (n, _) => n != 16
  | none => true

theorem encode_notShort (i : Instr) : (i.isShort || notShort (encode i)) = true := by cases i <;> exact (rfl : true = true)

theorem decode16_encode (i : Instr) (p : Nat) (h : encode i = some (16, p)) :
    p < 2 ^ 16 ∧ decode16 p = .ok i ∧ isLong p = false := by
  have hshort : i.isShort = true := by simpa [h, notShort] using encode_notShort i
  revert hshort
  cases i with
  | timedNop n =>
    intro _
    cases h
    have hfit : Fits [(3, 6), (13, n.toNat)] := ⟨by decide, n.isLt, trivial⟩
    refine ⟨pack_lt _ _ hfit rfl, ?_⟩
    have hr := reads_pack hfit (n := 16) rfl
    obtain ⟨htop, hn, -⟩ := hr
    simp only [Nat.reduceSub] at htop hn
    rw [decode16, isLong, htop, bvf_of_fld hn]
    exact ⟨rfl, rfl⟩
  | dictionaryReference k =>
    intro _
    cases h
    have hfit : Fits [(6, 0x38), (10, k.toNat)] := ⟨by decide, k.isLt, trivial⟩
    refine ⟨pack_lt _ _ hfit rfl, ?_⟩
    have hr := reads_pack hfit (n := 16) rfl
    obtain ⟨htop, hk, -⟩ := hr
    simp only [Nat.reduceSub] at htop hk
    rw [decode16, isLong, show fld (pack [(6, 0x38), (10, k.toNat)]) 13 3 = 7 from fld_of_fld 3 3 (by decide) htop,
      show fld (pack [(6, 0x38), (10, k.toNat)]) 10 3 = 0 from fld_of_fld 0 3 (by decide) htop, bvf_of_fld hk]
    exact ⟨rfl, rfl⟩
  | _ => exact notListed

/-- Only a tag below 6 has a row, so the first parcel of a 32-bit item that decodes begins one (R48). -/
theorem isLong_of_decode32 {w : Nat} {i : Instr} (h : decode32 w = .ok i) : isLong (w / 2 ^ 16) = true := by
  have htag : fld (w / 2 ^ 16) 13 3 = fld w 29 3 := by rw [fld, fld, Nat.div_div_eq_div_mul, ← Nat.pow_add]
  have hlt := fld_lt w 29 3
  rw [isLong, htag]
  refine decide_eq_true (Nat.lt_of_not_le fun hge => ?_)
  have hbad : decode32 w = .illegal := by
    unfold decode32
    obtain h6 | h7 : fld w 29 3 = 6 ∨ fld w 29 3 = 7 := by omega
    · rw [h6]; rfl
    · rw [h7]; rfl
  rw [hbad] at h
  cases h

/-- Settles O1: the encoder packs the fields that each row of the decoder reads (`decode32_encode`, `decode16_encode`). -/
theorem encodeDecode : Obligations.EncodeDecode := by
  unfold Obligations.EncodeDecode
  intro i n w hwf h
  obtain rfl | rfl := encode_width h
  · obtain ⟨hw, hd, hshort⟩ := decode16_encode i w h
    rw [decodeTableWord_short hw, hshort, hd]
    rfl
  · obtain ⟨hw, hd⟩ := decode32_encode i w hwf h
    rw [decodeTableWord_long hw, isLong_of_decode32 hd, hd]
    rfl

end Sys2Proof
end

section
-- One declaration after another: the whole text is checked in one process, of bounded memory.
set_option Elab.async false
/-! SUPPORT. One step of an engine at an item: the walk reaches it, and what stands there runs as its decoding. -/

namespace Sys2Proof

/-! ### Only a header is refused as a header -/

/-- R51: what is refused as a header has the header's tag, and the length is its field. -/
theorem fields_of_decode_header {w len : Nat} (hw : w < 2 ^ 32) (h : decode32 w = .header len) : fld w 28 4 = 10 ∧ len = fld w 16 12 := by
  have hfields := decode32_encodes hw
  rwa [h] at hfields

namespace Machine

/-! ### Parcels and words of the text -/

theorem Store.parcel_lt (m : Store) (a : Nat) : m.parcel a < 2 ^ 16 := by
  have h0 := (memGet m.text a).isLt
  have h1 := (memGet m.text (a + 1)).isLt
  unfold Store.parcel
  omega

theorem Store.word_lt (m : Store) (a : Nat) : m.word a < 2 ^ 32 := by
  have h0 := m.parcel_lt a
  have h1 := m.parcel_lt (a + 2)
  unfold Store.word
  omega

theorem Store.word_high (m : Store) (a : Nat) : m.word a / 2 ^ 16 = m.parcel a := by
  have h1 := m.parcel_lt (a + 2)
  unfold Store.word
  omega

theorem fld_parcel_tag {p : Nat} (hp : p < 2 ^ 16) : fld p 13 3 = p / 2 ^ 13 := by
  unfold fld
  omega

theorem isLong_iff {p : Nat} (hp : p < 2 ^ 16) : isLong p = true ↔ p / 2 ^ 13 < 6 := by
  rw [isLong, decide_eq_true_iff, fld_parcel_tag hp]

theorem Store.isHeader_of_word {m : Store} {a : Nat} (h : fld (m.word a) 28 4 = 10) : m.parcel a / 2 ^ 12 = 10 := by
  have hp := m.parcel_lt a
  rw [show fld (m.word a) 28 4 = m.word a / 2 ^ 16 / 2 ^ 12 % 2 ^ 4 by rw [fld, Nat.div_div_eq_div_mul, ← Nat.pow_add],
    m.word_high] at h
  omega

theorem decodeTableWord_long_item {w : Nat} (hw : w < 2 ^ 32) (hl : isLong (w / 2 ^ 16) = true) :
    decodeTableWord 32 w = (decode32 w).item := by
  rw [decodeTableWord_long hw, if_pos hl]

/-! ### The walk reaches the item -/

/-- A step of an engine at an item is its walk, which runs the item; then the turn passes on. -/
theorem step_atItem {s : State} {e : Engine} (h : s.AtItem e) : step s = thenTurn e (s.runItem e) := by
  have hturn : { s with turn := .engine e } = s := by rw [← h.turn]
  have hbody : ¬ (s.eng e).stack.head?.any (fun l => l.last == (s.eng e).cur) = true := by
    rw [Option.any_eq_true]
    rintro ⟨l, hl, hlast⟩
    exact h.body l hl (beq_iff_eq.mp hlast)
  have htext : ¬ (s.me.store.tlen ≤ (s.eng e).cur ∨ ((s.eng e).cur = 0 ∧ (!s.me.store.isHeader 0) = true)) := by
    rintro (hlen | ⟨h0, hh⟩)
    · exact absurd h.text.1 (Nat.not_lt.mpr hlen)
    · rw [h.text.2 h0] at hh
      cases hh
  have hquiet : ¬ (e = .c ∧ s.interruptEnabled = true) := fun hh => by
    have hq := h.quiet hh.1
    rw [hh.2] at hq
    cases hq
  have hwalk : s.walk e = s.runItem e := by
    unfold State.walk State.enterPos
    rw [h.runs, h.pc]
    simp only [Bool.not_true, Bool.false_eq_true, if_false, Bool.and_eq_true, decide_eq_true_eq, hquiet, hbody, htext,
      Nat.not_lt.mpr h.fits, h.window, h.claim, Bool.or_self]
  have hstep : step s = engineStep e s := by
    unfold step
    rw [h.agenda, h.turn]
  rw [hstep, engineStep, hturn, hwalk]
  rfl

/-! ### What the item runs -/

theorem State.latchSub_of_none {s : State} {e : Engine} (h : (s.eng e).sub = none) : s.latchSub e = s := by
  rw [State.latchSub, h]

theorem Group.isOwn_of_long {g : Group} {e : Engine} (hl : isLong (g.store.parcel (g.engine e).cur) = true)
    (hh : g.store.parcel (g.engine e).cur / 2 ^ 12 ≠ 10) : g.isOwn e = inMask (wordMask (g.store.word (g.engine e).cur)) e := by
  rw [isLong_iff (g.store.parcel_lt _)] at hl
  unfold Group.isOwn
  dsimp only
  rw [if_neg (by omega), if_neg (by omega)]

/-- A latched word runs in the place of the item at the engine's address. -/
theorem State.runItem_latched {s0 s : State} {e : Engine} {u : BitVec 32} {n : Nat}
    (hs : (if s0.me.isOwn e then s0.latchSub e else s0) = s) (hl : (s.eng e).latch = some (u, n)) : s0.runItem e = runLong e u.toNat s := by
  unfold State.runItem
  dsimp only
  rw [hs, hl]

/-- R48, R57: a 32-bit item without a latched word: a header and an item of the engine run, another engine's item is passed. -/
theorem State.runItem_long {s : State} {e : Engine} (hs : (if s.me.isOwn e then s.latchSub e else s) = s)
    (hl : (s.eng e).latch = none) (hlong : isLong (s.me.store.parcel (s.eng e).cur) = true) :
    s.runItem e =
      if s.me.store.parcel (s.eng e).cur / 2 ^ 12 = 10 then runLong e (s.me.store.word (s.eng e).cur) s
      else if s.unclaimed e (s.me.store.word (s.eng e).cur) then .next s.unclaimedTrap
      else if inMask (wordMask (s.me.store.word (s.eng e).cur)) e then runLong e (s.me.store.word (s.eng e).cur) s
      else .next (s.passBytes e 4) := by
  rw [isLong_iff (s.me.store.parcel_lt _)] at hlong
  unfold State.runItem
  dsimp only
  rw [hs, hl]
  dsimp only
  rw [if_neg (by omega), if_neg (by omega)]

/-- R56, R62: a one-parcel item that decodes runs. -/
theorem State.runItem_short {s : State} {e : Engine} (hs : (if s.me.isOwn e then s.latchSub e else s) = s)
    (hl : (s.eng e).latch = none)
    (hrow : s.me.store.parcel (s.eng e).cur / 2 ^ 13 = 6 ∨ s.me.store.parcel (s.eng e).cur / 2 ^ 13 = 7 ∧
      fld (s.me.store.parcel (s.eng e).cur) 10 3 = 0 ∧ s.unclaimed e (s.refWord e (s.me.store.parcel (s.eng e).cur)) = false) :
    s.runItem e = runShort e (s.me.store.parcel (s.eng e).cur) s := by
  unfold State.runItem
  dsimp only
  rw [hs, hl]
  dsimp only
  obtain h6 | ⟨h7, h10, hun⟩ := hrow
  · rw [if_pos h6]
  · rw [if_neg (by omega), if_pos h7, if_neg (by simp [hun]), if_pos (.inr h10)]

theorem runLong_of_item {e : Engine} {w : Nat} {s : State} {i : Instr} (hw : w < 2 ^ 32) (hl : isLong (w / 2 ^ 16) = true)
    (h : decodeTableWord 32 w = some i) : runLong e w s = exec i s := by
  rw [decodeTableWord_long_item hw hl, Decoded.item_eq_some] at h
  rw [runLong_eq, h]
  rfl

theorem runShort_of_item {e : Engine} {p : Nat} {s : State} {i : Instr} (hp : p < 2 ^ 16) (hl : isLong p = false)
    (h : decodeTableWord 16 p = some i) : runShort e p s = exec i s := by
  rw [decodeTableWord_short hp, hl, if_neg (by decide), Decoded.item_eq_some] at h
  rw [runShort_eq, h]
  rfl

/-- R56, R62: the tags of the one-parcel items that decode. -/
theorem tag_of_short_item {p : Nat} {i : Instr} (hp : p < 2 ^ 16) (hl : isLong p = false) (h : decodeTableWord 16 p = some i) :
    p / 2 ^ 13 = 6 ∨ p / 2 ^ 13 = 7 ∧ fld p 10 3 = 0 := by
  rw [decodeTableWord_short hp, hl, if_neg (by decide), Decoded.item_eq_some] at h
  rw [← fld_parcel_tag hp]
  unfold decode16 at h
  split at h
  case h_1 htag => exact .inl htag
  case h_2 htag =>
    refine .inr ⟨htag, ?_⟩
    unfold rowOf at h
    split at h
    case isTrue hz => exact beq_iff_eq.mp hz
    case isFalse => cases h
  case h_3 => cases h

/-- An engine without sources is late for none. -/
theorem State.Ready.delayed {s : State} {e : Engine} {y : BitVec 2} (h : s.Ready e y []) (y' : BitVec 2) : s.Ready e y' [] :=
  { runs := h.runs, noskip := h.noskip, live := h.live
    here := by simp [EngineState.lateOf] }

/-- R70: an item that is refused traps with its cause. -/
theorem trapItem_ready {s : State} {e : Engine} (h : s.Ready e 0 []) (cause : Nat) :
    trapItem e cause s = .next (s.trapAt e cause 0 0 false) :=
  issue_trap e _ [] s _ cause 0 0 (h.delayed _) rfl rfl

theorem State.framed.headerOk {s : State} {e : Engine} {len : Nat} (h : s.framed e len) : s.me.headerOk e len 1 = true := by
  obtain ⟨hend, hdepth⟩ := h
  refine Bool.and_eq_true_iff.mpr ⟨decide_eq_true hend, ?_⟩
  exact Bool.or_eq_true_iff.mpr (.inr (decide_eq_true hdepth))

/-- R51, R70: a 32-bit item that does not decode traps with ILLEGAL or RESERVED_FIELD; a header does where it is framed. -/
theorem runLong_refused {s : State} {e : Engine} {a : Nat} (hnone : (decode32 (s.me.store.word a)).item = none) (hr : s.Ready e 0 [])
    (hf : s.me.store.parcel a / 2 ^ 12 = 10 → s.framed e (hdrLen (s.me.store.word a))) :
    runLong e (s.me.store.word a) s = .next (s.trapAt e causeIllegal 0 0 false) ∨
      runLong e (s.me.store.word a) s = .next (s.trapAt e causeReserved 0 0 false) := by
  rw [runLong_eq]
  cases hd : decode32 (s.me.store.word a) with
  | ok i => rw [hd] at hnone; cases hnone
  | illegal => exact .inl (trapItem_ready hr causeIllegal)
  | reserved => exact .inr (trapItem_ready hr causeReserved)
  | header len =>
    obtain ⟨htop, rfl⟩ := fields_of_decode_header (s.me.store.word_lt a) hd
    have hok : s.me.headerOk e (fld (s.me.store.word a) 16 12) 1 = true := (hf (Store.isHeader_of_word htop)).headerOk
    refine .inr ?_
    show trapHeader e _ s = _
    rw [trapHeader, hr.runs, hok]
    rfl

/-- Settles O7: the walk reaches the item (`step_atItem`), which runs as its decoding. -/
theorem stepRunsTheItem : Obligations.StepRunsTheItem := by
  unfold Obligations.StepRunsTheItem
  intro s e h
  dsimp only
  have hp := s.me.store.parcel_lt (s.eng e).cur
  have hw := s.me.store.word_lt (s.eng e).cur
  have hhigh := s.me.store.word_high (s.eng e).cur
  have hkeep : (s.eng e).sub = none → (if s.me.isOwn e then s.latchSub e else s) = s := fun hsub => by
    rw [State.latchSub_of_none hsub, ite_self]
  rw [step_atItem h]
  refine ⟨fun ⟨hlatch, hsub⟩ hlong hown => ?_, fun hlatch hlong hhead hmask hun => ?_, fun ⟨hlatch, hsub⟩ hlong hun i hi => ?_,
    fun u i hi hlong => ⟨fun n hlatch hsub => ?_, fun hsub hown => ?_⟩⟩
  · have hrun : s.runItem e = runLong e (s.me.store.word (s.eng e).cur) s := by
      rw [State.runItem_long (hkeep hsub) hlatch hlong]
      obtain hhead | ⟨hmask, hun⟩ := hown
      · rw [if_pos hhead]
      · rw [hun, if_neg Bool.false_ne_true, if_pos hmask, ite_self]
    rw [hrun]
    refine ⟨fun i hi => ?_, fun hnone hr hf => ?_⟩
    · rw [runLong_of_item hw (hhigh ▸ hlong) hi]
    · rw [decodeTableWord_long_item hw (hhigh ▸ hlong)] at hnone
      exact (runLong_refused hnone hr hf).imp (congrArg (thenTurn e)) (congrArg (thenTurn e))
  · have hforeign : s.me.isOwn e = false := (Group.isOwn_of_long hlong hhead).trans hmask
    rw [State.runItem_long (by rw [hforeign]; rfl) hlatch hlong, if_neg hhead, hun, if_neg Bool.false_ne_true, hmask,
      if_neg Bool.false_ne_true]
  · have htag := tag_of_short_item hp hlong hi
    rw [State.runItem_short (hkeep hsub) hlatch (htag.imp_right fun ⟨h7, h10⟩ => ⟨h7, h10, hun ((fld_parcel_tag hp).trans h7) h10⟩),
      runShort_of_item hp hlong hi]
  · rw [State.runItem_latched (hkeep hsub) hlatch, runLong_of_item u.isLt hlong hi]
  · have hlatched : ((s.latchSub e).eng e).latch = some (u, s.me.itemLen e) := by
      rw [State.latchSub, hsub]
      exact congrArg EngineState.latch (Group.engine_setEngine ..)
    rw [State.runItem_latched (if_pos hown) hlatched, runLong_of_item u.isLt hlong hi]

/-- An agenda may hold each row without words but one that names an item of the text. -/
theorem isEvent_of_encode {i : Instr} (h : encode i = none) (hi : ∀ e, i ≠ .unassignedItem e) : isEvent i = true := by
  unfold isEvent
  split
  · exact absurd rfl (hi _)
  · rw [h]
    rfl

/-- Settles O8: the cases of `step`; the events of an asynchronous turn are rows without words (`nextEvent_row`). -/
theorem stepRunsEvents : Obligations.StepRunsEvents := by
  unfold Obligations.StepRunsEvents
  refine ⟨fun s core i r hag henc hi => ?_, fun s core e r hag => ?_, fun s ns r hag => ?_, fun s hag hturn => ?_⟩
  · unfold step
    rw [hag]
    exact if_pos (isEvent_of_encode henc hi)
  · unfold step
    rw [hag]
  · unfold step
    rw [hag]
  · have hstep : step s = asyncStep s := by
      unfold step
      rw [hag, hturn]
    rw [hstep, asyncStep]
    cases hnext : s.observe.nextEvent with
    | none => exact .inl rfl
    | some a =>
      obtain ⟨i, henc, -, rfl⟩ := nextEvent_row _ _ hnext
      exact .inr ⟨i, henc, rfl⟩

end Machine
end Sys2Proof
end

section
-- One declaration after another: the whole text is checked in one process, of bounded memory.
set_option Elab.async false
/-! SUPPORT. Conditions, compares and branches (05_control R60, R83 to R88): a condition code is a condition on integers, and from it
the claims of CMP, B, CALL, RET and JR and their traps. -/

namespace Sys2Proof.Machine

/-! ## Items whose effect changes only the parts that their claim names -/

/-- An item without a result. -/
theorem plainItem_holds {i : Instr} {e : Engine} {y : BitVec 2} {srcs : List Reg} {parts : List Aspect} {pre : State → Prop}
    {post : State → State → Prop} (f : State → Nat → Effect) (hx : ∀ s, exec i s = issue e y srcs s f)
    (hb : ∀ (a : State) (t : Nat), pre a → ∃ u, f a t = .done u ∧ (∀ p, p ∉ parts → a.same u p) ∧
      ∀ (s : State) (via : Bool), post a (s.closed u e y via))
    (he : Aspect.engine e ∉ parts := by simp) (hp : Aspect.phase ∉ parts := by simp) :
    Claim.Holds { eng := e, y := y, srcs := srcs, parts := parts, pre := pre, post := post } i := by
  refine Claim.holds_done _ i f (fun _ => rfl) hx fun s _ hpre => ?_
  obtain ⟨u, hf, hframe, hpost⟩ := hb (s.arrived e y) (s.issueAt e y) hpre
  have heng : u.eng e = (s.arrived e y).eng e := hframe _ he
  refine ⟨u, hf, ⟨.refl _ _, ⟨_, heng⟩, hframe _ hp, congrArg EngineState.flight heng, fun p hn => hframe p fun hin => hn ?_⟩, fun via => hpost s via⟩
  exact List.mem_cons_of_mem _ (List.mem_cons_of_mem _ hin)

/-- An item that promises a result of fixed latency besides. -/
theorem resultItem_holds {i : Instr} {e : Engine} {y : BitVec 2} {srcs : List Reg} {parts : List Aspect} {pre : State → Prop}
    {post : State → State → Prop} {r : Reg} {v : State → Val} {lat : Nat} (f : State → Nat → Effect)
    (hx : ∀ s, exec i s = issue e y srcs s f)
    (hb : ∀ (a : State) (t : Nat), pre a → ∃ u, f a t = .done (u.result e r (v a) t lat) ∧ (∀ p, p ∉ parts → a.same u p) ∧
      ∀ (s : State) (via : Bool), post a (s.closed (u.result e r (v a) t lat) e y via))
    (he : Aspect.engine e ∉ parts := by simp) (hp : Aspect.phase ∉ parts := by simp) :
    Claim.Holds { eng := e, y := y, srcs := srcs, result := .fixed r v lat, parts := parts, pre := pre, post := post } i := by
  refine Claim.holds_done _ i f (fun _ => rfl) hx fun s _ hpre => ?_
  obtain ⟨u, hf, hframe, hpost⟩ := hb (s.arrived e y) (s.issueAt e y) hpre
  have heng : u.eng e = (s.arrived e y).eng e := hframe _ he
  have hreng : (u.result e r (v (s.arrived e y)) (s.issueAt e y) lat).eng e = { (s.arrived e y).eng e with
      flight := (((s.arrived e y).eng e).flight.filter fun o => !(o.reg == r && o.late)) ++
        [fixedFlight r (v (s.arrived e y)) (s.issueAt e y + lat)] } := by rw [State.result_eng, heng]
  have hresult (p : Aspect) (hpe : p ≠ .engine e) (hin : p ∉ parts) : (s.arrived e y).same
      (u.result e r (v (s.arrived e y)) (s.issueAt e y) lat) p :=
    State.same_trans _ _ _ _ (hframe p hin) (State.result_same _ _ _ _ _ _ _ hpe)
  refine ⟨_, hf, ⟨.refl _ _, ⟨_, hreng⟩, hresult _ (by simp) hp, congrArg EngineState.flight hreng, fun p hn => ?_⟩, fun via => hpost s via⟩
  simp only [List.mem_cons, not_or] at hn
  obtain ⟨hpe, -, hin⟩ := hn
  exact hresult p hpe hin

/-- A part that an item's effect leaves is left by its result and its completion. -/
theorem State.closed_result_same (s u : State) (e : Engine) (y : BitVec 2) (via : Bool) (r : Reg) (v : Val) (t lat : Nat) (p : Aspect)
    (h1 : p ≠ .engine e) (h2 : p ≠ .bufs) : u.same (s.closed (u.result e r v t lat) e y via) p :=
  State.closed_same _ _ _ _ _ _ _ (State.result_same _ _ _ _ _ _ _ h1) h1 h2

/-! ## Conditions -/

theorem condOf_assigned {n : Nat} (h : n < 6) : ∃ k, condOf n = some k ∧ ∀ u v : BitVec 64, k.holds u v = true ↔ condTrue n u v := by
  interval_cases n
  · exact ⟨.eq, rfl, fun u v => by simp [Cond.holds, condTrue, BitVec.toInt_inj]⟩
  · exact ⟨.ne, rfl, fun u v => by simp [Cond.holds, condTrue, BitVec.toInt_inj]⟩
  · exact ⟨.lt, rfl, fun u v => by simp [Cond.holds, condTrue, BitVec.slt_iff_toInt_lt]⟩
  · exact ⟨.le, rfl, fun u v => by simp [Cond.holds, condTrue, BitVec.sle_iff_toInt_le]⟩
  · exact ⟨.ltn, rfl, fun u v => by simp [Cond.holds, condTrue, BitVec.ult_iff_lt, BitVec.lt_def]⟩
  · exact ⟨.len, rfl, fun u v => by simp [Cond.holds, condTrue, BitVec.ule_iff_le, BitVec.le_def]⟩

theorem condOf_unassigned {n : Nat} (h : 6 ≤ n) : condOf n = none := by
  unfold condOf
  split
  case h_7 => rfl
  all_goals omega

theorem badCond_assigned {c : BitVec 3} {k : Cond} (h : condOf c.toNat = some k) : badCond c = none := by
  rw [badCond, h]
  rfl

theorem badCond_unassigned {c : BitVec 3} (h : 6 ≤ c.toNat) : badCond c = some causeIllegal := by
  rw [badCond, condOf_unassigned h]
  rfl

/-! ## Compares -/

/-- An item of C that promises a predicate. -/
theorem predicateClaim_holds {i : Instr} {y : BitVec 2} {d : BitVec 3} {srcs : List Reg} (b : State → Bool)
    (hx : ∀ s, exec i s = issue .c y srcs s fun s t => .done (s.predicate d (b s) t)) : (predicateClaim y d srcs b).Holds i :=
  Claim.holds_result _ _ (.p d) _ 1 (fun _ => rfl) rfl rfl (fun _ _ => trivial) hx

theorem condOf_unsigned {n : Nat} {k : Cond} (h : condOf n = some k) : (k = .ltn ∨ k = .len) ↔ 4 ≤ n := by
  unfold condOf at h
  split at h <;> cases h <;> simp

/-- R83: the immediate of CMPI, by the condition. -/
theorem cmpImm_eq {n : Nat} {k : Cond} (h : condOf n = some k) (x : BitVec 10) :
    (if k = .ltn ∨ k = .len then zimm10 x else simm10 x) = cmpImm n x := by
  rw [cmpImm]
  simp only [condOf_unsigned h]
  split
  · exact eq_ofNat_of_toNat (BitVec.toNat_setWidth_of_le (by decide))
  · exact eq_ofInt_of_toInt (simm10_toInt x)

theorem cmpCc_holds (y : BitVec 2) (d : BitVec 3) (a b : BitVec 5) (c : BitVec 3) (h : c.toNat < 6) :
    ∃ f : State → Bool, (∀ s, f s = true ↔ condTrue c.toNat (s.me.sreg a) (s.me.sreg b)) ∧
      (predicateClaim y d [.s a, .s b] f).Holds (.cmpCc y d a b c) := by
  obtain ⟨k, hk, hholds⟩ := condOf_assigned h
  refine ⟨fun s => k.holds (s.me.sreg a) (s.me.sreg b), fun s => hholds _ _, predicateClaim_holds _ fun s => ?_⟩
  refine (show exec _ s = execCmpCc y d a b c s from rfl).trans ?_
  rw [execCmpCc, issuePre_good (badCond_assigned hk)]
  simp only [hk]

theorem cmpiCc_holds (c : BitVec 3) (y : BitVec 2) (d : BitVec 3) (a : BitVec 5) (x : BitVec 10) (h : c.toNat < 6) :
    ∃ f : State → Bool, (∀ s, f s = true ↔ condTrue c.toNat (s.me.sreg a) (cmpImm c.toNat x)) ∧
      (predicateClaim y d [.s a] f).Holds (.cmpiCc c y d a x) := by
  obtain ⟨k, hk, hholds⟩ := condOf_assigned h
  refine ⟨fun s => k.holds (s.me.sreg a) (cmpImm c.toNat x), fun s => hholds _ _, predicateClaim_holds _ fun s => ?_⟩
  refine (show exec _ s = execCmpiCc c y d a x s from rfl).trans ?_
  rw [execCmpiCc, issuePre_good (badCond_assigned hk)]
  simp only [hk, cmpImm_eq hk]

/-- Settles O12: both compares by their condition, and the refusal of codes 6 and 7 (R70). -/
theorem compareResults : Obligations.CompareResults := by
  unfold Obligations.CompareResults
  intro i y d srcs c u v
  cases i with
  | cmpCc y d a b c =>
    intro h
    cases h
    exact ⟨cmpCc_holds y d a b c, fun hc s hr => checkedItem_bad (show exec _ s = execCmpCc y d a b c s from rfl) hr (badCond_unassigned hc)⟩
  | cmpiCc c y d a x =>
    intro h
    cases h
    exact ⟨cmpiCc_holds c y d a x, fun hc s hr => checkedItem_bad (show exec _ s = execCmpiCc c y d a x s from rfl) hr (badCond_unassigned hc)⟩
  | _ => exact noRow

/-! ## Branches -/

theorem condBranch_holds {i : Instr} {annul : Bool} {c : BitVec 3} {y : BitVec 2} {d a : BitVec 5} {x : BitVec 10} {off : Int}
    (hx : ∀ s, exec i s = branchCc annul c y d a x s) (hoff : x.toInt = off) :
    (c.toNat < 6 → ∃ taken : State → Bool, (∀ s, taken s = true ↔ condTrue c.toNat (s.me.sreg d) (s.me.sreg a)) ∧
      (condBranchClaim annul y d a off taken).Holds i) ∧
    (6 ≤ c.toNat → ∀ s : State, s.Ready .c y [.s d, .s a] → exec i s = .next (s.trapAt .c causeIllegal 0 0 false)) := by
  subst hoff
  refine ⟨fun hc => ?_, fun hc s hr => checkedItem_bad (hx s) hr (badCond_unassigned hc)⟩
  obtain ⟨k, hk, hholds⟩ := condOf_assigned hc
  refine ⟨fun s => k.holds (s.me.sreg d) (s.me.sreg a), fun s => hholds _ _, ?_⟩
  refine Claim.holds_branch _ i _ (fun s => (hx s).trans (issuePre_good (badCond_assigned hk) ..)) fun s hr _ => ?_
  simp only [hk]
  by_cases ht : k.holds ((s.arrived .c y).me.sreg d) ((s.arrived .c y).me.sreg a) = true
  · refine ⟨_, _, _, if_pos ht, if_pos ht, Claim.fits_same _ s rfl rfl, trivial⟩
  · refine ⟨_, _, _, if_neg ht, if_neg ht, Claim.fits_same _ s rfl rfl, trivial⟩

theorem jumpRow_holds (i : Instr) (c : Claim) : jumpRow i = some c → c.Holds i := by
  cases i with
  | br y k =>
    intro h
    cases h
    exact Claim.holds_branch _ _ _ (fun s => show exec _ s = execBr y k s from rfl) fun s _ _ =>
      ⟨_, _, _, rfl, rfl, Claim.fits_same _ s rfl rfl, trivial⟩
  | jr y d =>
    intro h
    cases h
    exact Claim.holds_branch _ _ _ (fun s => show exec _ s = execJr y d s from rfl) fun s _ _ =>
      ⟨_, _, _, rfl, rfl, Claim.fits_same _ s rfl rfl, trivial⟩
  | call y k =>
    intro h
    cases h
    refine Claim.holds_branch _ _ _ (fun s => show exec _ s = execCall y k s from rfl) fun s _ ⟨hslots, hframes⟩ => ?_
    exact ⟨_, _, _, (if_neg (not_not.2 hslots)).trans (if_neg (Nat.not_le.2 hframes)), rfl,
      Claim.fits_result _ s (.s 31) (fun s => .word s.me.linkAddr) 1 rfl rfl, trivial⟩
  | ret y =>
    intro h
    cases h
    refine Claim.holds_branch _ _ _ (fun s => show exec _ s = execRet y s from rfl) fun s _ ⟨hslots, hframes⟩ => ?_
    exact ⟨_, _, _, if_neg (by simp [hslots, hframes]), rfl, Claim.fits_same _ s rfl rfl, trivial⟩
  | _ => exact noRow

theorem State.arrived_frames (s : State) (e : Engine) (y : BitVec 2) : (s.arrived e y).me.frames = s.me.frames :=
  s.arrived_same e y .frames (by simp) (by simp)

theorem State.arrived_slots (s : State) (e : Engine) (y : BitVec 2) : ((s.arrived e y).eng e).slots = (s.eng e).slots := by
  rw [State.arrived_eng]

theorem call_traps (s : State) (y : BitVec 2) (k : BitVec 20) (hr : s.Ready .c y []) :
    ((s.eng .c).slots ≠ 0 → exec (.call y k) s = .next (s.trapAt .c causeIllegal 0 0 false)) ∧
    ((s.eng .c).slots = 0 → 8 ≤ s.me.frames.length → exec (.call y k) s = .next (s.trapAt .c causeBounds 0 0 false)) := by
  have hx : exec (.call y k) s = execCall y k s := rfl
  rw [hx, execCall, ← s.arrived_slots .c y, ← s.arrived_frames .c y]
  exact ⟨fun hs => issue_trap _ _ _ _ _ _ _ _ hr rfl (if_pos hs),
    fun hs hf => issue_trap _ _ _ _ _ _ _ _ hr rfl ((if_neg (not_not.2 hs)).trans (if_pos hf))⟩

theorem ret_traps (s : State) (y : BitVec 2) (hr : s.Ready .c y [.s 31]) (h : (s.eng .c).slots ≠ 0 ∨ s.me.frames = []) :
    exec (.ret y) s = .next (s.trapAt .c causeIllegal 0 0 false) := by
  have hx : exec (.ret y) s = execRet y s := rfl
  rw [← s.arrived_slots .c y, ← s.arrived_frames .c y] at h
  rw [hx, execRet]
  exact issue_trap _ _ _ _ _ _ _ _ hr rfl (if_pos (by simpa using h))

/-- Settles O13: the conditional branches by their condition, the jumps row by row, and the traps of CALL and RET. -/
theorem branches : Obligations.Branches := by
  unfold Obligations.Branches
  refine ⟨fun i annul c y d a off => ?_, jumpRow_holds, call_traps, ret_traps⟩
  cases i with
  | bCc c y d a x =>
    intro h
    cases h
    exact condBranch_holds (fun s => show exec _ s = execBCc c y d a x s from rfl) rfl
  | bCcA c y d a x =>
    intro h
    cases h
    exact condBranch_holds (fun s => show exec _ s = execBCcA c y d a x s from rfl) rfl
  | _ => exact noRow

/-! ## Queue instructions (R91 to R93) -/

theorem State.queuePop_offers {s : State} {e : Engine} {q : BitVec 4} (h : s.Offers e q) :
    s.queuePop e q = .ok ((s.me.queue q).entries.headD 0) (s.popped q) := by
  obtain ⟨⟨p, hbind⟩, hne, hdone⟩ := h
  obtain ⟨v, r, hr⟩ := List.exists_cons_of_ne_nil hne
  simp only [State.queuePop, State.popped, hbind, hdone, hr, if_true, List.tail_cons, List.headD_cons]

theorem State.queuePeek_offers {s : State} {e : Engine} {q : BitVec 4} (h : s.Offers e q) :
    s.queuePeek e q = .ok ((s.me.queue q).entries.headD 0) s := by
  rw [State.queuePeek, State.queuePop_offers h]

theorem State.arrived_queue (s : State) (e : Engine) (y : BitVec 2) (q : BitVec 4) : (s.arrived e y).me.queue q = s.me.queue q :=
  s.arrived_same e y (.queue q) (by simp) (by simp)

theorem oneHot_bit (e : Engine) : oneHot e.bit = some e := by cases e <;> rfl

theorem qpush_holds (y : BitVec 2) (d : BitVec 4) (a : BitVec 5) (c : Claim) (h : queueRow (.qpush y d a) = some c) :
    c.Holds (.qpush y d a) := by
  cases h
  refine plainItem_holds _ (fun s => show exec _ s = execQpush y d a s from rfl) fun u t hpre => ?_
  refine ⟨u.pushed .c d (u.me.sreg a), ?_, fun p hp => State.pushed_same _ _ _ _ p (by simpa using hp), fun s via => ?_⟩
  · rw [State.queuePush_accepts hpre]
    rfl
  · exact State.pushed_of_queue (State.closed_same s _ _ .c y via (.queue d) (State.same_refl _ _) (by simp) (by simp))

theorem qpop_holds (y : BitVec 2) (d : BitVec 5) (a : BitVec 4) (c : Claim) (h : queueRow (.qpop y d a) = some c) :
    c.Holds (.qpop y d a) := by
  cases h
  refine resultItem_holds _ (fun s => show exec _ s = execQpop y d a s from rfl) fun u t hpre => ?_
  refine ⟨u.popped a, ?_, fun p hp => State.popped_same _ _ p (by simpa using hp), fun s via => ?_⟩
  · rw [State.queuePop_offers hpre]
    rfl
  · exact State.popped_of_queue (State.closed_result_same s _ .c y via _ _ _ _ (.queue a) (by simp) (by simp))

theorem qpeek_holds (y : BitVec 2) (d : BitVec 5) (a : BitVec 4) (c : Claim) (h : queueRow (.qpeek y d a) = some c) :
    c.Holds (.qpeek y d a) := by
  cases h
  refine resultItem_holds _ (fun s => show exec _ s = execQpeek y d a s from rfl) fun u t hpre => ?_
  refine ⟨u, ?_, fun p _ => State.same_refl _ p, fun _ _ => trivial⟩
  rw [State.queuePeek_offers hpre]
  rfl

theorem qbind_holds (y : BitVec 2) (d : BitVec 4) (p k : BitVec 5) (c : Claim) (h : queueRow (.qbind y d p k) = some c) :
    c.Holds (.qbind y d p k) := by
  cases h
  refine plainItem_holds _ (fun s => show exec _ s = execQbind y d p k s from rfl) fun u t hpre => ?_
  obtain ⟨⟨e, f, hne, rfl, rfl⟩, hfree⟩ := hpre
  have hok : ¬ (e = f ∨ ((u.me.queue d).bind.isSome ∧ !(u.me.queue d).entries.isEmpty)) := by
    rintro (hef | ⟨hb, he⟩)
    · exact hne hef
    · obtain hf | hf := hfree <;> simp [hf] at hb he
  refine ⟨u.onMe (·.setQueue d { u.me.queue d with bind := some (e, f) }), ?_,
    fun p hp => State.setQueue_same _ _ _ p (by simpa using hp), fun s via => ?_⟩
  · simp only [oneHot_bit]
    exact if_neg hok
  · have hq : (State.me (s.closed _ .c y via)).queue d = _ :=
      State.closed_same s _ _ .c y via (.queue d) (State.same_refl (u.onMe (·.setQueue d { u.me.queue d with bind := some (e, f) })) _) (by simp) (by simp)
    rw [hq]
    exact ⟨⟨e, f, rfl, rfl, by simp⟩, by simp⟩

theorem queueRow_holds (i : Instr) (c : Claim) : queueRow i = some c → c.Holds i := by
  cases i with
  | qpush y d a => exact qpush_holds y d a c
  | qpop y d a => exact qpop_holds y d a c
  | qpeek y d a => exact qpeek_holds y d a c
  | qbind y d p k => exact qbind_holds y d p k c
  | nopC y =>
    intro h
    cases h
    exact Claim.holds_done _ _ _ (fun _ => rfl) (fun s => show exec _ s = execNopC y s from rfl) fun s _ _ =>
      ⟨_, rfl, Claim.fits_same _ s rfl rfl, fun _ => trivial⟩
  | _ => exact noRow

/-! ### Where they wait and trap -/

theorem State.queuePush_wrongSide {s : State} {q : BitVec 4} (h : (s.me.queue q).wrongSide true) (v : BitVec 64) :
    s.queuePush .c q v = .trap causeQueueCfg 0 := by
  obtain ⟨p, k, hbind, hne⟩ := h
  simp only [if_true] at hne
  simp only [State.queuePush, hbind, if_neg hne]

theorem State.queuePop_wrongSide {s : State} {q : BitVec 4} (h : (s.me.queue q).wrongSide false) :
    s.queuePop .c q = .trap causeQueueCfg 0 := by
  obtain ⟨p, k, hbind, hne⟩ := h
  simp only [Bool.false_eq_true, if_false] at hne
  simp only [State.queuePop, hbind, if_neg hne]

theorem State.queuePush_waits {s : State} {q : BitVec 4} (h : s.mustWaitAt q true) (v : BitVec 64) : s.queuePush .c q v = .wait := by
  obtain hbind | ⟨p, k, hbind, hp, hfull⟩ := h
  · simp only [State.queuePush, hbind]
  · simp only [if_true] at hp hfull
    simp only [State.queuePush, hbind, if_pos hp, if_pos hfull]

theorem State.queuePop_waits {s : State} {q : BitVec 4} (h : s.mustWaitAt q false) : s.queuePop .c q = .wait := by
  obtain hbind | ⟨p, k, hbind, hk, hempty⟩ := h
  · simp only [State.queuePop, hbind]
  · simp only [Bool.false_eq_true, if_false] at hk hempty
    unfold State.queuePop
    simp only [hbind, if_pos hk]
    split
    · rfl
    · next hr =>
      rw [hr] at hempty
      rw [hempty.resolve_left (by simp)]
      rfl

theorem State.mustWaitAt_arrived {s : State} {q : BitVec 4} {push : Bool} (e : Engine) (y : BitVec 2) (h : s.mustWaitAt q push) :
    (s.arrived e y).mustWaitAt q push := by
  unfold State.mustWaitAt
  rw [s.arrived_queue e y q]
  exact h

theorem queueItem_trap {i : Instr} {y : BitVec 2} {srcs : List Reg} {s : State} {α : Type} (g : State → Got α)
    (k : Nat → α → State → Effect) (hx : exec i s = issue .c y srcs s fun s t => (g s).then (k t)) (hr : s.Ready .c y srcs)
    (hv : srcs.contains (.h 15) = false) (hg : g (s.arrived .c y) = .trap causeQueueCfg 0) :
    exec i s = .next (s.trapAt .c causeQueueCfg 0 0 false) :=
  hx.trans (issue_trap _ _ _ _ (fun s t => (g s).then (k t)) _ _ _ hr hv (by rw [hg]; rfl))

theorem queueItem_wait {i : Instr} {y : BitVec 2} {srcs : List Reg} {s : State} {α : Type} (g : State → Got α)
    (k : Nat → α → State → Effect) (hx : exec i s = issue .c y srcs s fun s t => (g s).then (k t)) (hr : s.Ready .c y srcs)
    (hg : g (s.arrived .c y) = .wait) : ∃ t, exec i s = .next t ∧ s.Waits .c t :=
  ⟨_, hx.trans (issue_wait _ _ _ _ (fun s t => (g s).then (k t)) hr (by rw [hg]; rfl)), s.waits_stall _ _⟩

theorem queueUse_stops (i : Instr) (y : BitVec 2) (q : BitVec 4) (srcs : List Reg) (push : Bool) :
    queueUse i = some (y, q, srcs, push) → ∀ s : State, s.Ready .c y srcs →
    ((s.me.queue q).wrongSide push → exec i s = .next (s.trapAt .c causeQueueCfg 0 0 false)) ∧
      (s.mustWaitAt q push → ∃ t, exec i s = .next t ∧ s.Waits .c t) := by
  cases i with
  | qpush y d a =>
    intro h s hr
    cases h
    rw [← s.arrived_queue .c y q]
    have hx : exec (.qpush y q a) s = execQpush y q a s := rfl
    exact ⟨fun hw => queueItem_trap _ _ hx hr rfl (State.queuePush_wrongSide hw _),
      fun hw => queueItem_wait _ _ hx hr (State.queuePush_waits (State.mustWaitAt_arrived _ _ hw) _)⟩
  | qpop y d a =>
    intro h s hr
    cases h
    rw [← s.arrived_queue .c y q]
    have hx : exec (.qpop y d q) s = execQpop y d q s := rfl
    exact ⟨fun hw => queueItem_trap _ _ hx hr rfl (State.queuePop_wrongSide hw),
      fun hw => queueItem_wait _ _ hx hr (State.queuePop_waits (State.mustWaitAt_arrived _ _ hw))⟩
  | qpeek y d a =>
    intro h s hr
    cases h
    rw [← s.arrived_queue .c y q]
    have hx : exec (.qpeek y d q) s = execQpeek y d q s := rfl
    refine ⟨fun hw => queueItem_trap _ _ hx hr rfl ?_, fun hw => queueItem_wait _ _ hx hr ?_⟩
    · rw [State.queuePeek, State.queuePop_wrongSide hw]
    · rw [State.queuePeek, State.queuePop_waits (State.mustWaitAt_arrived _ _ hw)]
  | _ => exact noRow

/-- Settles O14: each row of the queue instructions, and where a queue refuses C or makes it wait. -/
theorem queueInstructions : Obligations.QueueInstructions := ⟨queueRow_holds, queueUse_stops⟩

end Sys2Proof.Machine
end

section
-- One declaration after another: the whole text is checked in one process, of bounded memory.
set_option Elab.async false
/-! SUPPORT. What every item of an engine shares: when it issues nothing, when it only takes its cycle (05_control R84, R85, 10_system
R222), and how the results in flight land (05_control R77, R78). -/

namespace Sys2Proof.Machine

/-! ## Items that issue nothing or have no effect -/

theorem issue_stopped {e : Engine} {y : BitVec 2} {srcs : List Reg} {s : State} {body : State → Nat → Effect}
    (h : s.mayRun e = false) : issue e y srcs s body = .next s := by
  unfold issue issueWith
  rw [h]
  rfl

/-- A skipped item and an annulled one only complete. -/
theorem issue_without_effect {e : Engine} {y : BitVec 2} {srcs : List Reg} {s : State} {body : State → Nat → Effect}
    (h : s.mayRun e = true) (hq : (s.eng e).skip = true ∨ (s.eng e).annul.getLsbD 0 = true) :
    issue e y srcs s body = .next (s.closed (s.arrived e y) e y false) := by
  unfold issue issueWith
  dsimp only
  rw [h, if_neg (by decide)]
  by_cases hskip : (s.eng e).skip = true
  · rw [if_pos hskip]
    rfl
  · rw [if_neg hskip, if_pos (hq.resolve_left hskip)]
    rfl

/-- An outcome is that of an engine's issue. -/
def IsIssue (o : Out) (e : Engine) (y : BitVec 2) (s : State) : Prop :=
  ∃ (srcs : List Reg) (body : State → Nat → Effect), o = issue e y srcs s body

theorem issue_isIssue (e : Engine) (y : BitVec 2) (srcs : List Reg) (s : State) (body : State → Nat → Effect) :
    IsIssue (issue e y srcs s body) e y s := ⟨_, _, rfl⟩

theorem issuePre_isIssue (bad : Option Nat) (e : Engine) (y : BitVec 2) (srcs : List Reg) (s : State) (body : State → Nat → Effect) :
    IsIssue (issuePre bad e y srcs s body) e y s := by
  cases bad
  · exact issue_isIssue ..
  · exact issue_isIssue ..

theorem scalarOp_isIssue (y : BitVec 2) (d : BitVec 5) (srcs : List Reg) (lat : Nat) (f : Group → BitVec 64) (s : State) :
    IsIssue (scalarOp y d srcs lat f s) .c y s := issue_isIssue ..

theorem scalar2_isIssue (y : BitVec 2) (d a b : BitVec 5) (lat : Nat) (f : BitVec 64 → BitVec 64 → BitVec 64) (s : State) :
    IsIssue (scalar2 y d a b lat f s) .c y s := scalarOp_isIssue ..

theorem scalar1_isIssue (y : BitVec 2) (d a : BitVec 5) (f : BitVec 64 → BitVec 64) (s : State) :
    IsIssue (scalar1 y d a f s) .c y s := scalarOp_isIssue ..

theorem mask2_isIssue (y : BitVec 2) (d a b : BitVec 3) (f : BitVec 128 → BitVec 128 → BitVec 128) (s : State) :
    IsIssue (mask2 y d a b f s) .v y s := issue_isIssue ..

theorem maskCount_isIssue (y : BitVec 2) (d : BitVec 5) (b : BitVec 3) (f : Nat → Nat) (s : State) :
    IsIssue (maskCount y d b f s) .v y s := issue_isIssue ..

theorem plainItem_isIssue (e : Engine) (y : BitVec 2) (s : State) (f : State → Effect) : IsIssue (plainItem e y s f) e y s :=
  issue_isIssue ..

theorem meshItem_isIssue (y : BitVec 2) (s : State) (f : State → Effect) : IsIssue (meshItem y s f) .m y s := plainItem_isIssue ..

theorem IsIssue.without_effect {o : Out} {e : Engine} {y : BitVec 2} {s : State} (hi : IsIssue o e y s) :
    (s.mayRun e = false → o = .next s) ∧
      (s.mayRun e = true → ((s.eng e).skip = true ∨ (s.eng e).annul.getLsbD 0 = true) →
        ∃ t, o = .next t ∧ Claim.Done { eng := e, y := y } s t) := by
  obtain ⟨srcs, body, rfl⟩ := hi
  refine ⟨issue_stopped, fun hrun hq => ⟨_, issue_without_effect hrun hq, ?_⟩⟩
  exact Claim.done_of { eng := e, y := y } s _ false rfl (Claim.fits_same _ s rfl rfl) trivial

theorem arithmeticRow_isIssue (i : Instr) (c : Claim) (s : State) : arithmeticRow i = some c → IsIssue (exec i s) c.eng c.y s := by
  cases i with
  | addi | shli | shri | sari | slti | ext | clz | ctz | popc =>
    intro h; cases h; delta exec
    with_reducible conv => arg 1; whnf
    exact scalar1_isIssue ..
  | fsh | sel | lih =>
    intro h; cases h; delta exec
    with_reducible conv => arg 1; whnf
    exact scalarOp_isIssue ..
  | add | sub | mul | mulh | mulhn | div | divn | rem | remn | shl | shr | sar | slt | sltn | min | max | minn | maxn =>
    intro h; cases h; delta exec
    with_reducible conv => arg 1; whnf
    exact scalar2_isIssue ..
  | _ => exact noRow

theorem jumpRow_isIssue (i : Instr) (c : Claim) (s : State) : jumpRow i = some c → IsIssue (exec i s) c.eng c.y s := by
  cases i with
  | br | call | ret | jr =>
    intro h; cases h; delta exec
    with_reducible conv => arg 1; whnf
    exact issue_isIssue ..
  | _ => exact noRow

theorem queueRow_isIssue (i : Instr) (c : Claim) (s : State) : queueRow i = some c → IsIssue (exec i s) c.eng c.y s := by
  cases i with
  | qpush | qpop | qpeek | qbind | nopC =>
    intro h; cases h; delta exec
    with_reducible conv => arg 1; whnf
    exact issue_isIssue ..
  | _ => exact noRow

theorem tagRow_isIssue (i : Instr) (c : Claim) (s : State) : tagRow i = some c → IsIssue (exec i s) c.eng c.y s := by
  cases i with
  | tlook | tset | tclr =>
    intro h; cases h; delta exec
    with_reducible conv => arg 1; whnf
    exact issue_isIssue ..
  | _ => exact noRow

theorem maskRow_isIssue (i : Instr) (c : Claim) (s : State) : maskRow i = some c → IsIssue (exec i s) c.eng c.y s := by
  cases i with
  | mpopc | mfirst =>
    intro h; cases h; delta exec
    with_reducible conv => arg 1; whnf
    exact maskCount_isIssue ..
  | mand | mor | mxor =>
    intro h; cases h; delta exec
    with_reducible conv => arg 1; whnf
    exact mask2_isIssue ..
  | mnot | vli | nopV =>
    intro h; cases h; delta exec
    with_reducible conv => arg 1; whnf
    exact issue_isIssue ..
  | _ => exact noRow

theorem loadEngineRow_isIssue (i : Instr) (c : Claim) (s : State) : loadEngineRow i = some c → IsIssue (exec i s) c.eng c.y s := by
  cases i with
  | zbind | zstart | zstop | zskip | ldv | nopL =>
    intro h; cases h; delta exec
    with_reducible conv => arg 1; whnf
    exact plainItem_isIssue ..
  | _ => exact noRow

theorem storeEngineRow_isIssue (i : Instr) (c : Claim) (s : State) : storeEngineRow i = some c → IsIssue (exec i s) c.eng c.y s := by
  cases i with
  | zdrain | stv | scvt | samax | nopS =>
    intro h; cases h; delta exec
    with_reducible conv => arg 1; whnf
    exact plainItem_isIssue ..
  | _ => exact noRow

theorem meshRow_isIssue (i : Instr) (c : Claim) (s : State) : meshRow i = some c → IsIssue (exec i s) c.eng c.y s := by
  cases i with
  | nopM | mscale | mclrBank | mclrWindow | mfence | mwaitb | mnorm | mcommit | mload | mstore =>
    intro h; cases h; delta exec
    with_reducible conv => arg 1; whnf
    exact meshItem_isIssue ..
  | _ => exact noRow

/-- Settles O9: the meaning of each row is an issue (R84, R85, R222). -/
theorem itemsWithoutEffect : Obligations.ItemsWithoutEffect := by
  unfold Obligations.ItemsWithoutEffect
  intro i c h s
  have hissue : IsIssue (exec i s) c.eng c.y s := by
    rcases h with h | h | h | h | h | h | h | h
    · exact arithmeticRow_isIssue i c s h
    · exact jumpRow_isIssue i c s h
    · exact queueRow_isIssue i c s h
    · exact tagRow_isIssue i c s h
    · exact maskRow_isIssue i c s h
    · exact loadEngineRow_isIssue i c s h
    · exact storeEngineRow_isIssue i c s h
    · exact meshRow_isIssue i c s h
  exact hissue.without_effect

/-! ## Registers -/

theorem getLsbD_setBit8 (p : BitVec 8) (n k : BitVec 3) (b : Bool) :
    (setBit8 p n.toNat b).getLsbD k.toNat = if k = n then b else p.getLsbD k.toNat := by
  have hk : k.toNat < 8 := k.isLt
  have hbit : (BitVec.ofNat 8 (2 ^ n.toNat)).getLsbD k.toNat = decide (k = n) := by
    rw [BitVec.getLsbD_ofNat, Nat.testBit_two_pow, decide_eq_true hk, Bool.true_and]
    simp only [← BitVec.toNat_inj, eq_comm]
  unfold setBit8
  generalize BitVec.ofNat 8 (2 ^ n.toNat) = one at hbit
  cases b
  · simp only [Bool.false_eq_true, if_false, BitVec.getLsbD_and, BitVec.getLsbD_not, hk, hbit]
    split <;> simp_all
  · simp only [if_true, BitVec.getLsbD_or, hbit]
    split <;> simp_all

theorem Group.regVal_setReg_ne (g : Group) {r r' : Reg} (v : Val) (h : r' ≠ r) : (g.setReg r v).regVal r' = g.regVal r' := by
  unfold Group.setReg
  split
  case h_1 n w =>
    split
    · rfl
    · cases r' with
      | s k =>
        have hne : n.toNat ≠ k.toNat := fun e => h (congrArg Reg.s (BitVec.eq_of_toNat_eq e.symm))
        simp [Group.regVal, Group.sreg, Vector.getElem_set_ne _ _ hne]
      | _ => rfl
  case h_2 n b =>
    cases r' with
    | p k =>
      have hne : k ≠ n := fun e => h (congrArg Reg.p e)
      simp [Group.regVal, Group.preg, getLsbD_setBit8, hne]
    | _ => rfl
  case h_3 n x =>
    cases r' with
    | v k =>
      have hne : n.toNat ≠ k.toNat := fun e => h (congrArg Reg.v (BitVec.eq_of_toNat_eq e.symm))
      simp [Group.regVal, Group.vreg, Vector.getElem_set_ne _ _ hne]
    | _ => rfl
  case h_4 n x =>
    cases r' with
    | h k =>
      have hne : n.toNat ≠ k.toNat := fun e => h (congrArg Reg.h (BitVec.eq_of_toNat_eq e.symm))
      simp [Group.regVal, Group.hreg, Vector.getElem_set_ne _ _ hne]
    | _ => rfl
  case h_5 n x =>
    cases r' with
    | e k =>
      have hne : n.toNat ≠ k.toNat := fun e => h (congrArg Reg.e (BitVec.eq_of_toNat_eq e.symm))
      simp [Group.regVal, Group.ereg, Vector.getElem_set_ne _ _ hne]
    | _ => rfl
  case h_6 n x =>
    cases r' with
    | m k =>
      have hne : n.toNat ≠ k.toNat := fun e => h (congrArg Reg.m (BitVec.eq_of_toNat_eq e.symm))
      simp [Group.regVal, Group.mreg, Vector.getElem_set_ne _ _ hne]
    | _ => rfl
  case h_7 => rfl

/-- R77: a write is in its register, but for one to s0. -/
theorem Group.holds_setReg (g : Group) (r : Reg) (v : Val) : (g.setReg r v).Holds r v := by
  unfold Group.setReg
  split
  case h_1 n w =>
    split
    · next h0 => simp [Group.Holds, Group.sreg, h0]
    · next h0 => simp [Group.Holds, Group.sreg]
  case h_2 n b => simp [Group.Holds, Group.preg, getLsbD_setBit8]
  case h_3 n x => simp [Group.Holds, Group.vreg]
  case h_4 n x => simp [Group.Holds, Group.hreg]
  case h_5 n x => simp [Group.Holds, Group.ereg]
  case h_6 n x => simp [Group.Holds, Group.mreg]
  case h_7 h1 h2 h3 h4 h5 h6 =>
    unfold Group.Holds
    split
    · exact (h1 _ _ rfl rfl).elim
    · exact (h2 _ _ rfl rfl).elim
    · exact (h3 _ _ rfl rfl).elim
    · exact (h4 _ _ rfl rfl).elim
    · exact (h5 _ _ rfl rfl).elim
    · exact (h6 _ _ rfl rfl).elim
    · trivial

theorem Group.Holds.of_regVal {g g' : Group} {r : Reg} {v : Val} (h : g.Holds r v) (he : g'.regVal r = g.regVal r) : g'.Holds r v := by
  cases r <;> cases v <;> simp_all [Group.Holds, Group.regVal]

/-! ## Landing (R78) -/

theorem landAll_regVal_ne {l : List InFlight} {r : Reg} (h : ∀ x ∈ l, x.reg ≠ r) (g : Group) : (landAll g l).regVal r = g.regVal r := by
  induction l generalizing g with
  | nil => rfl
  | cons x l ih =>
    rw [landAll, ih (fun z hz => h z (List.mem_cons_of_mem _ hz)), Group.regVal_setReg_ne]
    exact (h x List.mem_cons_self).symm

theorem landAll_append (l m : List InFlight) (g : Group) : landAll g (l ++ m) = landAll (landAll g l) m := by
  induction l generalizing g with
  | nil => rfl
  | cons x l ih => exact ih _

/-- In a list of results the last one for its register is `f`. -/
def LastFor (f : InFlight) (l : List InFlight) : Prop := ∃ a b, l = a ++ f :: b ∧ ∀ x ∈ b, x.reg ≠ f.reg

theorem landAll_holds {f : InFlight} {l : List InFlight} (h : LastFor f l) (g : Group) : (landAll g l).Holds f.reg f.val := by
  obtain ⟨a, b, rfl, hb⟩ := h
  rw [landAll_append]
  exact (Group.holds_setReg _ _ _).of_regVal (landAll_regVal_ne hb _)

theorem mem_insertLand {f x : InFlight} {l : List InFlight} : x ∈ insertLand f l ↔ x = f ∨ x ∈ l := by
  induction l with
  | nil => simp [insertLand]
  | cons z l ih =>
    unfold insertLand
    split
    · simp only [List.mem_cons, ih]
      tauto
    · simp only [List.mem_cons]

/-- The list of results by their landing cycles. -/
def byLanding (l : List InFlight) (acc : List InFlight) : List InFlight := l.foldl (fun acc f => insertLand f acc) acc

theorem mem_byLanding {x : InFlight} {l acc : List InFlight} : x ∈ byLanding l acc ↔ x ∈ l ∨ x ∈ acc := by
  unfold byLanding
  induction l generalizing acc with
  | nil => simp
  | cons f l ih =>
    rw [List.foldl_cons, ih, mem_insertLand, List.mem_cons]
    tauto

theorem insertLand_sorted (f : InFlight) {l : List InFlight} (h : l.Pairwise (·.land ≤ ·.land)) :
    (insertLand f l).Pairwise (·.land ≤ ·.land) := by
  induction l with
  | nil => simp [insertLand]
  | cons z l ih =>
    rw [List.pairwise_cons] at h
    obtain ⟨hz, hl⟩ := h
    unfold insertLand
    split
    · next hle =>
      refine List.pairwise_cons.2 ⟨fun x hx => ?_, ih hl⟩
      rcases mem_insertLand.1 hx with rfl | hx
      · exact hle
      · exact hz x hx
    · next hgt =>
      refine List.pairwise_cons.2 ⟨fun x hx => ?_, List.pairwise_cons.2 ⟨hz, hl⟩⟩
      rcases List.mem_cons.1 hx with rfl | hx
      · omega
      · have := hz x hx
        omega

theorem byLanding_sorted {l acc : List InFlight} (h : acc.Pairwise (·.land ≤ ·.land)) :
    (byLanding l acc).Pairwise (·.land ≤ ·.land) := by
  unfold byLanding
  induction l generalizing acc with
  | nil => exact h
  | cons f l ih => exact ih (insertLand_sorted f h)

/-- A result goes behind those that land no later, so behind all of its register if they do. -/
theorem insertLand_last {f : InFlight} {l : List InFlight} (hs : l.Pairwise (·.land ≤ ·.land))
    (h : ∀ x ∈ l, x.reg = f.reg → x.land ≤ f.land) : LastFor f (insertLand f l) := by
  induction l with
  | nil => exact ⟨[], [], rfl, by simp⟩
  | cons z l ih =>
    rw [List.pairwise_cons] at hs
    obtain ⟨hz, hl⟩ := hs
    unfold insertLand
    split
    · obtain ⟨a, b, hab, hb⟩ := ih hl fun x hx => h x (List.mem_cons_of_mem _ hx)
      exact ⟨z :: a, b, by rw [hab]; rfl, hb⟩
    · next hgt =>
      refine ⟨[], z :: l, rfl, fun x hx hreg => ?_⟩
      have hle := h x hx hreg
      rcases List.mem_cons.1 hx with rfl | hx
      · exact hgt hle
      · have := hz x hx
        omega

/-- A result of the same register that lands earlier goes before it. -/
theorem LastFor.insertLand {f x : InFlight} {l : List InFlight} (h : LastFor f l) (hx : x.reg = f.reg → x.land < f.land) :
    LastFor f (insertLand x l) := by
  obtain ⟨a, b, rfl, hb⟩ := h
  induction a with
  | nil =>
    rw [List.nil_append, Machine.insertLand]
    split
    · next hle =>
      refine ⟨[], Machine.insertLand x b, rfl, fun z hz => ?_⟩
      rcases mem_insertLand.1 hz with rfl | hz
      · intro hreg
        have := hx hreg
        omega
      · exact hb z hz
    · exact ⟨[x], b, rfl, hb⟩
  | cons z a ih =>
    rw [List.cons_append, Machine.insertLand]
    split
    · obtain ⟨a', b', hab, hb'⟩ := ih
      exact ⟨z :: a', b', by rw [hab]; rfl, hb'⟩
    · exact ⟨x :: z :: a, b, rfl, hb⟩

theorem LastFor.byLanding {f : InFlight} {l acc : List InFlight} (h : LastFor f acc) (hl : ∀ x ∈ l, x.reg = f.reg → x.land < f.land) :
    LastFor f (byLanding l acc) := by
  unfold Machine.byLanding
  induction l generalizing acc with
  | nil => exact h
  | cons x l ih =>
    exact ih (h.insertLand (hl x List.mem_cons_self)) fun z hz => hl z (List.mem_cons_of_mem _ hz)

theorem byLanding_last {f : InFlight} {l r : List InFlight} (hl : ∀ x ∈ l, x.reg = f.reg → x.land ≤ f.land)
    (hr : ∀ x ∈ r, x.reg = f.reg → x.land < f.land) : LastFor f (byLanding (l ++ f :: r) []) := by
  have hsplit : byLanding (l ++ f :: r) [] = byLanding r (insertLand f (byLanding l [])) := by
    rw [byLanding, List.foldl_append, List.foldl_cons]
    rfl
  rw [hsplit]
  refine (insertLand_last (byLanding_sorted .nil) fun x hx => ?_).byLanding hr
  rcases mem_byLanding.1 hx with hx | hx
  · exact hl x hx
  · cases hx

/-- The group's registers are those after the landed results in order. -/
theorem Group.landTo_regVal (g : Group) (e : Engine) (t : Nat) (r : Reg) :
    (g.landTo e t).regVal r = (landAll g (byLanding ((g.engine e).flight.filter (·.landed t)) [])).regVal r := by
  cases r <;> rfl

/-- Settles O10: landing writes the landed results in order of their cycles (`byLanding_last`), and registers only. -/
theorem resultsLand : Obligations.ResultsLand := by
  unfold Obligations.ResultsLand
  intro g e t l r f
  obtain ⟨cr, vr, hland⟩ := g.landTo_eq e t
  refine ⟨fun n => ⟨if_pos rfl, fun h => ?_⟩, fun hflight hf hl hr => ?_, ?_, fun e' he => ?_, ?_, ?_, ?_⟩
  · rw [Group.landTo_regVal]
    refine landAll_regVal_ne (fun x hx => ?_) g
    rcases mem_byLanding.1 hx with hx | hx
    · exact h x (List.mem_of_mem_filter hx) (List.mem_filter.1 hx).2
    · cases hx
  · refine Group.Holds.of_regVal (landAll_holds ?_ g) (g.landTo_regVal e t f.reg)
    rw [hflight, List.filter_append, List.filter_cons, if_pos hf]
    refine byLanding_last (fun x hx => ?_) fun x hx => ?_
    · exact hl x (List.mem_of_mem_filter hx) (List.mem_filter.1 hx).2
    · exact hr x (List.mem_of_mem_filter hx) (List.mem_filter.1 hx).2
  · rw [hland]
    exact congrArg EngineState.flight (Engines.get_set ..)
  · rw [hland]
    exact Engines.get_set_ne _ _ _ _ he
  · rw [hland]
  · rw [hland]
  · rw [hland]

end Sys2Proof.Machine
end

section
-- One declaration after another: the whole text is checked in one process, of bounded memory.
set_option Elab.async false
/-! SUPPORT. Headers, framing, BEM, DICTLD and NOTIFY (04_encoding R50 to R64, 05_control R89, R90, 09_engine_commands R208): what moves an
engine without an item, what C tells the other engines, and items that change more of their engine than its results. -/

namespace Sys2Proof.Machine

/-! ## Items that change more of their engine than results -/

/-- The engine stands where it stood: what completion advances is as before. -/
structure State.SameCourse (a u : State) (e : Engine) : Prop where
  cur : (u.eng e).cur = (a.eng e).cur
  seq : (u.eng e).seq = (a.eng e).seq
  pc1 : (u.eng e).pc1 = (a.eng e).pc1
  pc2 : (u.eng e).pc2 = (a.eng e).pc2
  annul : (u.eng e).annul = (a.eng e).annul
  slots : (u.eng e).slots = (a.eng e).slots

theorem State.SameCourse.of_eng {a u : State} {e : Engine} (h : u.eng e = a.eng e) : a.SameCourse u e := by
  constructor <;> rw [h]

theorem State.closed_passed_course {s u : State} {e : Engine} {y : BitVec 2} (via : Bool) (he : (s.arrived e y).SameCourse u e)
    (hp : u.me.phase = s.me.phase) : s.Passed e y (s.closed u e y via) := by
  obtain ⟨hcur, hseq, hpc1, hpc2, -, -⟩ := he
  rw [State.arrived_eng] at hcur hseq hpc1 hpc2
  constructor <;> rw [State.closed_eng] <;> simp only [EngineState.advance, hcur, hseq, hpc1, hpc2, hp]
  by_cases h : s.me.phase = .handler <;> by_cases h' : e = .c <;> simp [h, h']

theorem State.closed_straight_course {s u : State} {e : Engine} {y : BitVec 2} (via : Bool) (he : (s.arrived e y).SameCourse u e) :
    s.Flows e (s.closed u e y via) .straight := by
  obtain ⟨-, -, -, -, hannul, hslots⟩ := he
  rw [State.arrived_eng] at hannul hslots
  constructor <;> rw [State.closed_eng] <;> simp only [EngineState.advance, hannul, hslots] <;> rfl

theorem State.closed_keepsBut {s a u : State} {e : Engine} {y : BitVec 2} {via : Bool} {ps : List Aspect}
    (h : ∀ p, p ≠ .engine e → p ∉ ps → a.same u p) : a.KeepsBut (s.closed u e y via) e ps := fun p hn => by
  simp only [List.mem_cons, not_or] at hn
  obtain ⟨he, hb, hps⟩ := hn
  exact State.closed_same _ _ _ _ _ _ _ (h p he hps) he hb

theorem State.closedBranch_keepsBut {s a u : State} {e : Engine} {y : BitVec 2} {target : Option (TKind × Nat)} {annul : Bool}
    {ps : List Aspect} (h : ∀ p, p ≠ .engine e → p ∉ ps → a.same u p) : a.KeepsBut (s.closedBranch u e y target annul) e ps := fun p hn =>
  State.same_trans _ _ _ _ (State.closed_keepsBut h p hn)
    (State.onEng_same _ _ _ _ fun he => hn (he ▸ List.mem_cons_self))

theorem State.closed_eng_ne {s u : State} {e f : Engine} {y : BitVec 2} {via : Bool} (h : f ≠ e) : (s.closed u e y via).eng f = u.eng f :=
  State.closed_same s u u e y via (.engine f) rfl (fun he => h (Aspect.engine.inj he)) (by simp)

/-! ## What C tells the other engines -/

/-- The same change of each engine of a list. -/
def State.onEngs (s : State) (es : List Engine) (f : EngineState → EngineState) : State := es.foldl (fun t e => t.onEng e f) s

theorem State.onEngs_eng (s : State) {es : List Engine} (hn : es.Nodup) (f : EngineState → EngineState) (e : Engine) :
    (s.onEngs es f).eng e = if e ∈ es then f (s.eng e) else s.eng e := by
  induction es generalizing s with
  | nil => rfl
  | cons x es ih =>
    obtain ⟨hx, hes⟩ := List.nodup_cons.1 hn
    rw [State.onEngs, List.foldl_cons]
    refine (ih (s.onEng x f) hes).trans ?_
    by_cases he : e = x
    · subst he
      rw [if_neg hx, if_pos List.mem_cons_self, State.onEng_eng]
    · rw [State.onEng_eng_ne _ _ _ _ he]
      simp only [List.mem_cons, he, false_or]

theorem State.onEngs_same (s : State) (es : List Engine) (f : EngineState → EngineState) (p : Aspect) (h : ∀ e ∈ es, p ≠ .engine e) :
    s.same (s.onEngs es f) p := by
  induction es generalizing s with
  | nil => exact State.same_refl _ _
  | cons x es ih =>
    exact State.same_trans _ _ _ _ (State.onEng_same s x f p (h x List.mem_cons_self)) (ih _ fun e he => h e (List.mem_cons_of_mem _ he))

theorem mem_others {e : Engine} : e ∈ [Engine.l, .v, .m, .s] ↔ e ≠ .c := by cases e <;> simp

theorem State.followers_nodup (s : State) (mask : BitVec 5) : (s.followers mask).Nodup := List.Nodup.filter _ (by decide)

theorem State.mem_followers {s : State} {mask : BitVec 5} {e : Engine} : e ∈ s.followers mask ↔ inMask mask e = true ∧ s.follows e = true := by
  rw [State.followers, List.mem_filter, mem_others, State.follows, Bool.and_eq_true, Bool.and_eq_true, bne_iff_ne]
  tauto

theorem State.mem_followers_all {s : State} {e : Engine} : e ∈ s.followers 0x1F ↔ s.follows e = true := by
  rw [State.mem_followers, show inMask 0x1F e = true by cases e <;> rfl]
  simp

theorem State.follows_c (s : State) : s.follows .c = false := rfl

/-- R53, R90: with room in every queue, the entry goes into each. -/
theorem State.pushHidden_room {s : State} {es : List Engine} (h : ∀ e ∈ es, (s.eng e).hbq.length < 4) (x : HbEntry) :
    s.pushHidden es x = some (s.onEngs es (·.hidden x (s.coveredBy .c))) :=
  if_pos (List.all_eq_true.2 fun e he => decide_eq_true (h e he))

theorem State.hbHead_of_hiddenHead {s : State} {e : Engine} {x : HbEntry} (h : s.hiddenHead e x) : s.hbHead e = some x := by
  obtain ⟨hhead, hdone⟩ := h
  rw [State.hbHead, if_pos hdone, hhead]

/-! ## What arrival leaves -/

theorem State.arrived_follows (s : State) (e f : Engine) (y : BitVec 2) : (s.arrived e y).follows f = s.follows f := by
  have hclaim : (s.arrived e y).me.hand.claim = s.me.hand.claim := (s.arrived_same e y .claimed (by simp) (by simp)).1
  rw [State.follows, State.follows, s.arrived_phase, hclaim]

theorem State.arrived_coveredBy (s : State) (e f : Engine) (y : BitVec 2) : (s.arrived e y).coveredBy f = s.coveredBy f := by
  have hident : (s.arrived e y).me.ident = s.me.ident := s.arrived_same e y .ident (by simp) (by simp)
  rw [State.coveredBy, State.coveredBy, hident]
  rfl

theorem State.arrived_inWindow (s : State) (e f : Engine) (y : BitVec 2) (k : Nat) : (s.arrived e y).me.inWindow f k = s.me.inWindow f k := by
  have hsys : (s.arrived e y).me.sys = s.me.sys := s.arrived_same e y .sys (by simp) (by simp)
  have heng (x : Engine) : ((s.arrived e y).me.engine x).w = (s.me.engine x).w ∧ ((s.arrived e y).me.engine x).stopped = (s.me.engine x).stopped := by
    by_cases hx : x = e
    · subst hx
      refine ⟨(congrArg (fun v : EngineState => v.w) (s.arrived_eng x y)).trans rfl, ?_⟩
      exact (congrArg (fun v : EngineState => v.stopped) (s.arrived_eng x y)).trans rfl
    · have hsame : (s.arrived e y).me.engine x = s.me.engine x := s.arrived_eng_ne e x y hx
      exact ⟨by rw [hsame], by rw [hsame]⟩
  unfold Group.inWindow Group.walkMin Group.slip
  rw [s.arrived_phase, hsys]
  simp only [heng]

theorem State.arrived_framed {s : State} {e : Engine} {len : Nat} (h : s.framed e len) (y : BitVec 2) : (s.arrived e y).framed e len := by
  unfold State.framed
  rw [State.arrived_eng, State.arrived_store]
  exact h

theorem State.framed.headerFits {s : State} {e : Engine} {len : Nat} (h : s.framed e len) (n : Nat) : s.me.headerOk e len n = true := by
  obtain ⟨hend, hdepth⟩ := h
  refine Bool.and_eq_true_iff.mpr ⟨decide_eq_true hend, ?_⟩
  exact Bool.or_eq_true_iff.mpr (.inr (decide_eq_true hdepth))

/-! ## Headers -/

theorem State.passBytes_eng (s : State) (e : Engine) (len : Nat) :
    (s.passBytes e len).eng e =
      { s.eng e with
        cur := (s.eng e).cur + len, w := if s.me.phase = .handler ∧ e = .c then (s.eng e).w else (s.eng e).w + len / 2, waiting := none } :=
  s.onEng_eng e _

theorem State.passBytes_same (s : State) (e : Engine) (len : Nat) (p : Aspect) (h : p ≠ .engine e) : s.same (s.passBytes e len) p :=
  s.onEng_same e _ p h

theorem State.enterBody_same (s : State) (e : Engine) (len n : Nat) (p : Aspect) (h : p ≠ .engine e) : s.same (s.enterBody e len n) p := by
  unfold State.enterBody
  dsimp only
  split
  · exact s.passBytes_same e _ p h
  · exact State.same_trans _ _ _ _ (s.passBytes_same e _ p h) (State.onEng_same _ _ _ _ h)

theorem State.enterBody_eng (s : State) (e : Engine) (len n : Nat) : ∃ w,
    (s.enterBody e len n).eng e =
      { s.eng e with
        cur := if n = 0 then (s.eng e).cur + 4 + 2 * len else (s.eng e).cur + 4
        stack := if n = 0 then (s.eng e).stack else (s.eng e).opened len n
        w := w, waiting := none } := by
  unfold State.enterBody
  dsimp only
  by_cases hn : n = 0
  · rw [if_pos hn, State.passBytes_eng, if_pos hn, if_pos hn, Nat.add_assoc]
    exact ⟨_, rfl⟩
  · rw [if_neg hn, State.onEng_eng, State.passBytes_eng, if_neg hn, if_neg hn]
    exact ⟨_, rfl⟩

theorem blockHeader_opens {s : State} {e : Engine} {l : BitVec 12} {c : BitVec 15} (hrun : s.mayRun e = true) (ha : s.actor = e)
    (hf : s.framed e l.toNat) (hc : c ≠ 0) : ∃ t, exec (.blockHeader l c) s = .next t ∧
      s.Moves e t ((s.eng e).cur + 4) ((s.eng e).opened l.toNat c.toNat) (s.eng e).clk ∧ (t.eng e).hbq = (s.eng e).hbq := by
  have hn : c.toNat ≠ 0 := fun h => hc (BitVec.eq_of_toNat_eq h)
  obtain ⟨w, heng⟩ := s.enterBody_eng e l.toNat c.toNat
  rw [if_neg hn, if_neg hn] at heng
  refine ⟨s.enterBody e l.toNat c.toNat, ?_, ?_, by rw [heng]⟩
  · refine (show exec _ s = execBlockHeader l c s from rfl).trans ?_
    unfold execBlockHeader
    simp only [ha, hrun, Bool.not_true, Bool.false_eq_true, if_false, hf.headerFits, hc, or_self]
  · constructor
    case rest => exact fun p hp => s.enterBody_same e _ _ p hp
    all_goals rw [heng]

theorem blockHeaderReg_pops {s : State} {e : Engine} {l : BitVec 12} {r : BitVec 5} {n : Nat} (hrun : s.mayRun e = true)
    (ha : s.actor = e) (hf : s.framed e l.toNat) (he : e ≠ .c) (hh : s.hiddenHead e (.count n))
    (hw : n = 0 → s.me.inWindow e (2 + l.toNat) = true) :
    ∃ t, exec (.blockHeaderReg l r) s = .next t ∧ s.PopsHidden e t ∧
      (if n = 0 then s.Moves e t ((s.eng e).cur + 4 + 2 * l.toNat) (s.eng e).stack (s.eng e).clk
       else s.Moves e t ((s.eng e).cur + 4) ((s.eng e).opened l.toNat n) (s.eng e).clk) := by
  obtain ⟨w, heng⟩ := (s.onEng e (·.hbPop)).enterBody_eng e l.toNat n
  rw [State.onEng_eng] at heng
  have hmoves : s.Moves e ((s.onEng e (·.hbPop)).enterBody e l.toNat n)
      (if n = 0 then (s.eng e).cur + 4 + 2 * l.toNat else (s.eng e).cur + 4)
      (if n = 0 then (s.eng e).stack else (s.eng e).opened l.toNat n) (s.eng e).clk := by
    constructor
    case rest => exact fun p hp => State.same_trans _ _ _ _ (s.onEng_same e _ p hp) (State.enterBody_same _ e _ _ p hp)
    all_goals
      rw [heng]
      rfl
  refine ⟨(s.onEng e (·.hbPop)).enterBody e l.toNat n, ?_, ?_, ?_⟩
  · refine (show exec _ s = execBlockHeaderReg l r s from rfl).trans ?_
    unfold execBlockHeaderReg
    simp only [ha, hrun, Bool.not_true, Bool.false_eq_true, if_false, he, State.hbHead_of_hiddenHead hh, hf.headerFits, State.enterIf]
    by_cases hn : n = 0
    · rw [if_neg (by simp [hw hn])]
    · rw [if_neg (by simp [hn])]
  · rw [State.PopsHidden, heng]
    exact ⟨rfl, rfl⟩
  · split
    · next hn =>
      rw [if_pos hn, if_pos hn] at hmoves
      exact hmoves
    · next hn =>
      rw [if_neg hn, if_neg hn] at hmoves
      exact hmoves

/-- R52: C samples the count of a register header and pushes it to the engines that follow. -/
theorem blockHeaderReg_pushes {s : State} {l : BitVec 12} {r : BitVec 5} (ha : s.actor = .c) (hf : s.framed .c l.toNat)
    (hr : s.Ready .c 0 [.s r]) (hmax : ((s.arrived .c 0).me.sreg r).toNat ≤ 32767)
    (hroom : ∀ f, s.follows f = true → (s.eng f).hbq.length < 4)
    (hw : (s.arrived .c 0).me.sreg r = 0 → s.me.inWindow .c (2 + l.toNat) = true) :
    exec (.blockHeaderReg l r) s = .next (((s.arrived .c 0).onEngs ((s.arrived .c 0).followers 0x1F)
      (·.hidden (.count ((s.arrived .c 0).me.sreg r).toNat) ((s.arrived .c 0).coveredBy .c))).enterBody .c l.toNat
        ((s.arrived .c 0).me.sreg r).toNat) := by
  have hland : s.onMe (·.landTo .c (s.eng .c).clk) = s.arrived .c 0 := rfl
  have hclk : ((s.arrived .c 0).eng .c).clk = s.issueAt .c 0 := (congrArg (fun v : EngineState => v.clk) (s.arrived_eng .c 0)).trans rfl
  have hpush := State.pushHidden_room (s := s.arrived .c 0) (es := (s.arrived .c 0).followers 0x1F) (fun e he => ?_)
    (.count ((s.arrived .c 0).me.sreg r).toNat)
  · refine (show exec _ s = execBlockHeaderReg l r s from rfl).trans ?_
    unfold execBlockHeaderReg
    simp only [ha, hr.runs, Bool.not_true, Bool.false_eq_true, if_false, if_true, hland, hclk, hr.here,
      (State.arrived_framed hf 0).headerFits, if_neg (Nat.not_lt.2 hmax), hpush, State.enterIf, State.arrived_inWindow]
    by_cases hn : (s.arrived .c 0).me.sreg r = 0
    · rw [if_neg (by simp [hw hn])]
    · rw [if_neg (by simpa using fun h => absurd (BitVec.eq_of_toNat_eq h) hn)]
  · rw [State.mem_followers_all, State.arrived_follows] at he
    have hec : e ≠ .c := fun h => by
      rw [h, State.follows_c] at he
      cases he
    rw [State.arrived_eng_ne _ _ _ _ hec]
    exact hroom e he

/-- Settles O15: a header by its immediate count, by the count that C left, and C's own copy. -/
theorem headers : Obligations.Headers := by
  unfold Obligations.Headers
  intro s e l hrun ha hf
  refine ⟨fun c hc => blockHeader_opens hrun ha hf hc, fun r n he hh hw => blockHeaderReg_pops hrun ha hf he hh hw,
    fun r he hr hmax hroom hw => ?_⟩
  subst he
  have hexec := blockHeaderReg_pushes ha hf hr hmax hroom hw
  generalize hu : s.arrived .c 0 = u at *
  generalize hes : u.followers 0x1F = es at *
  have hmem (f : Engine) : f ∈ es ↔ s.follows f = true := by
    rw [← hes, State.mem_followers_all, ← hu, State.arrived_follows]
  have hnodup : es.Nodup := hes ▸ u.followers_nodup _
  have hc : Engine.c ∉ es := fun h => by
    rw [hmem, State.follows_c] at h
    cases h
  have hcover : u.coveredBy .c = s.coveredBy .c := hu ▸ s.arrived_coveredBy _ _ _
  rw [hcover] at hexec
  generalize hv : u.onEngs es (·.hidden (.count (u.me.sreg r).toNat) (s.coveredBy .c)) = v at *
  have hvc : v.eng .c = u.eng .c := by rw [← hv, State.onEngs_eng _ hnodup, if_neg hc]
  have huc : (u.eng .c).cur = (s.eng .c).cur ∧ (u.eng .c).stack = (s.eng .c).stack := by
    rw [← hu, State.arrived_eng]
    exact ⟨rfl, rfl⟩
  obtain ⟨w, heng⟩ := v.enterBody_eng .c l.toNat (u.me.sreg r).toNat
  have hzero : u.me.sreg r = 0 ↔ (u.me.sreg r).toNat = 0 := ⟨fun h => by rw [h]; rfl, fun h => BitVec.eq_of_toNat_eq h⟩
  have hopened : (v.eng .c).opened l.toNat (u.me.sreg r).toNat = (s.eng .c).opened l.toNat (u.me.sreg r).toNat := by
    rw [hvc, EngineState.opened, EngineState.opened, huc.1, huc.2]
  refine ⟨_, hexec, fun f hfc => ?_, ?_, fun p hp => ?_⟩
  · have hsame : (v.enterBody .c l.toNat (u.me.sreg r).toNat).eng f = v.eng f :=
      v.enterBody_same .c _ _ (.engine f) (by simpa using hfc)
    rw [hsame, ← hv, State.onEngs_eng _ hnodup]
    simp only [hmem]
    rw [← hu, State.arrived_eng_ne _ _ _ _ hfc]
  · rw [heng]
    simp only [hvc, huc.1, huc.2, hzero]
    split <;> simp_all
  · simp only [List.mem_cons, List.not_mem_nil, or_false, not_or] at hp
    refine State.same_trans _ _ _ _ ?_ (v.enterBody_same .c _ _ p hp.1)
    rw [← hv]
    refine u.onEngs_same es _ p fun f hf => ?_
    have hfc : f ≠ .c := fun h => hc (h ▸ hf)
    cases f <;> simp_all

/-! ## Body ends, timed no-ops, dictionary references -/

theorem EngineState.blockEnd_last {x : EngineState} {l : Level} {r : List Level} (hstack : x.stack = l :: r) (hcur : x.cur = l.last) :
    x.blockEnd = if 1 < l.passes then { x with cur := l.body, stack := { l with passes := l.passes - 1 } :: r } else { x with stack := r } := by
  simp only [EngineState.blockEnd, hstack, hcur, if_true]

/-- R52: at the last position of a body the engine goes back to its start, or leaves it. -/
theorem blockEnd_moves {s : State} {e : Engine} {k : BitVec 3} {l : Level} {r : List Level} (hrun : s.mayRun e = true)
    (hk : engineOfTag k.toNat = some e) (hpc : (s.eng e).pc = .seq) (hstack : (s.eng e).stack = l :: r) (hcur : (s.eng e).cur = l.last) :
    ∃ t, exec (.blockEnd k) s = .next t ∧
      (if 1 < l.passes then s.Moves e t l.body ({ l with passes := l.passes - 1 } :: r) (s.eng e).clk
       else s.Moves e t (s.eng e).cur r (s.eng e).clk) := by
  have heng := s.onEng_eng e (·.blockEnd)
  rw [EngineState.blockEnd_last hstack hcur] at heng
  refine ⟨s.onEng e (·.blockEnd), ?_, ?_⟩
  · refine (show exec _ s = execBlockEnd k s from rfl).trans ?_
    simp only [execBlockEnd, hk, hrun, hpc, beq_self_eq_true, Bool.and_self, if_true]
  · have hrest (p : Aspect) (hp : p ≠ .engine e) : s.same (s.onEng e (·.blockEnd)) p := s.onEng_same e _ p hp
    split
    · next hl =>
      rw [if_pos hl] at heng
      constructor
      case rest => exact hrest
      all_goals rw [heng]
    · next hl =>
      rw [if_neg hl] at heng
      constructor
      case rest => exact hrest
      all_goals rw [heng]

theorem State.passBytes_moves (s : State) (e : Engine) (len : Nat) :
    s.Moves e (s.passBytes e len) ((s.eng e).cur + len) (s.eng e).stack (s.eng e).clk := by
  constructor
  case rest => exact s.passBytes_same e len
  all_goals rw [State.passBytes_eng]

/-- R56: a timed no-op takes its cycles where it is attributed to the engine. -/
theorem timedNop_moves {s : State} {e : Engine} (hrun : s.mayRun e = true) (ha : s.actor = e) (n : BitVec 13) :
    ∃ t, exec (.timedNop n) s = .next t ∧
      s.Moves e t ((s.eng e).cur + 2) (s.eng e).stack ((s.eng e).clk + if s.me.attributed e = true then n.toNat else 0) := by
  refine ⟨(s.passBytes e 2).onEng e fun x => { x with clk := x.clk + if s.me.attributed e = true then n.toNat else 0 }, ?_, ?_⟩
  · refine (show exec _ s = execTimedNop n s from rfl).trans ?_
    simp only [execTimedNop, ha, hrun, Bool.not_true, Bool.false_eq_true, if_false]
  · constructor
    case rest => exact fun p hp => State.same_trans _ _ _ _ (s.passBytes_same e 2 p hp) (State.onEng_same _ _ _ _ hp)
    all_goals rw [State.onEng_eng, State.passBytes_eng]

/-- R62: the word of a loaded entry stands in the reference's place for an engine that it is for; the others pass the reference. -/
theorem dictionaryReference_moves {s : State} {e : Engine} (hrun : s.mayRun e = true) (ha : s.actor = e) (ix : BitVec 10) (w : BitVec 32)
    (hw : s.me.dictEntry e ix.toNat = some w) : ∃ t, exec (.dictionaryReference ix) s = .next t ∧
      (if inMask (wordMask w.toNat) e = true then
         s.Moves e t (s.eng e).cur (s.eng e).stack (s.eng e).clk ∧ (t.eng e).latch = some (w, 2)
       else s.Moves e t ((s.eng e).cur + 2) (s.eng e).stack (s.eng e).clk ∧ (t.eng e).latch = (s.eng e).latch) := by
  have hexec : exec (.dictionaryReference ix) s =
      if inMask (wordMask w.toNat) e then .next (s.onEng e fun x => { x with latch := some (w, 2) }) else .next (s.passBytes e 2) := by
    refine (show exec _ s = execDictionaryReference ix s from rfl).trans ?_
    simp only [execDictionaryReference, ha, hrun, Bool.not_true, Bool.false_eq_true, if_false, hw]
  rw [hexec]
  split
  · have heng := s.onEng_eng e fun x => { x with latch := some (w, 2) }
    refine ⟨_, rfl, ?_, by rw [heng]⟩
    constructor
    case rest => exact fun p hp => s.onEng_same e _ p hp
    all_goals rw [heng]
  · exact ⟨_, rfl, s.passBytes_moves e 2, by rw [State.passBytes_eng]⟩

/-- Settles O16: each of the four items by what it does to the engine that stands at it. -/
theorem framing : Obligations.Framing := by
  unfold Obligations.Framing
  intro s e hrun
  refine ⟨fun k l r hk hpc hstack hcur => blockEnd_moves hrun hk hpc hstack hcur, fun ha n => timedNop_moves hrun ha n,
    fun ha ix w hw => dictionaryReference_moves hrun ha ix w hw, fun k hk hr => ?_⟩
  refine (show exec _ s = execUnassignedItem k s from rfl).trans ?_
  simp only [execUnassignedItem, hk]
  exact trapItem_ready hr _

/-! ## Branches of all engines -/

theorem inMask_bem (m : BitVec 4) (e : Engine) (he : e ≠ .c) : inMask (0x10 ||| m.setWidth 5) e = maskNames m e := by
  cases e
  case c => exact absurd rfl he
  all_goals
    revert m
    decide

theorem bemRow_exec {i : Instr} {c : Nat} {annul : Bool} {y : BitVec 2} {m f g : BitVec 4} {off : Int}
    (h : bemRow i = some (c, annul, y, m, f, g, off)) : ∃ (k : Cond) (o : BitVec 7), off = o.toInt ∧ c < 6 ∧ condOf c = some k ∧
      ∀ s, exec i s = execBem k annul y m f g o s := by
  revert h
  cases i with
  | bemEq | bemEqA | bemNe | bemNeA | bemLt | bemLtA | bemLe | bemLeA | bemLtn | bemLtnA | bemLen | bemLenA =>
    intro h; cases h
    exact ⟨_, _, rfl, by decide, rfl, fun _ => rfl⟩
  | _ => exact noRow

theorem Cond.holds_of_condOf {n : Nat} {k : Cond} (h : condOf n = some k) (hn : n < 6) (u v : BitVec 64) :
    k.holds u v = true ↔ condTrue n u v := by
  obtain ⟨k', hk', hholds⟩ := condOf_assigned hn
  rw [hk'] at h
  exact Option.some.inj h ▸ hholds u v

/-- R90: C's copy with room in the queues of the engines that it names. -/
theorem bem_pushes {k : Cond} {annul : Bool} {y : BitVec 2} {m f g : BitVec 4} {o : BitVec 7} {s : State} (ha : s.actor = .c)
    {take : State → Bool} (htake : take (s.arrived .c y) = k.holds ((s.arrived .c y).me.sreg (f.setWidth 5)) ((s.arrived .c y).me.sreg (g.setWidth 5)))
    (hpre : (bemClaim annul y m f g o.toInt take).pre (s.arrived .c y)) (hr : s.Ready .c y [.s (f.setWidth 5), .s (g.setWidth 5)]) :
    let a := s.arrived .c y
    let u := a.onEngs (a.followers (0x10 ||| m.setWidth 5)) (·.hidden (.branch (take a) annul) (a.coveredBy .c))
    execBem k annul y m f g o s = .next (s.closedBranch u .c y (if take a = true then some (.jump, a.targetOf .c o.toInt) else none)
      (if take a = true then false else annul)) := by
  intro a u
  have hpush : a.pushHidden (a.followers (0x10 ||| m.setWidth 5)) (.branch (take a) annul) = some u := State.pushHidden_room (fun e he => by
    obtain ⟨hmask, hfollows⟩ := State.mem_followers.1 he
    have hec : e ≠ .c := fun h => by
      rw [h, State.follows_c] at hfollows
      cases hfollows
    exact hpre e (inMask_bem m e hec ▸ hmask) hfollows) _
  simp only [execBem, ha, if_true]
  rw [issueWith_ready _ _ _ _ _ _ hr]
  rw [← htake, show s.arrived .c y = a from rfl, hpush]
  cases take a <;> rfl

/-- What C's copy of a BEM leaves in the queues of the other engines. -/
theorem bem_queues {a : State} (annul : Bool) (m : BitVec 4) (take : State → Bool) (e : Engine) (he : e ≠ .c) :
    (a.onEngs (a.followers (0x10 ||| m.setWidth 5)) (·.hidden (.branch (take a) annul) (a.coveredBy .c))).eng e =
      if maskNames m e = true ∧ a.follows e = true then (a.eng e).hidden (.branch (take a) annul) (a.coveredBy .c) else a.eng e := by
  rw [State.onEngs_eng _ (a.followers_nodup _)]
  simp only [State.mem_followers, inMask_bem m e he]

theorem State.onEngs_followers_same (a : State) (mask : BitVec 5) (f : EngineState → EngineState) (p : Aspect)
    (h : p ∉ [Aspect.engine .l, .engine .v, .engine .m, .engine .s]) : a.same (a.onEngs (a.followers mask) f) p := by
  refine a.onEngs_same _ _ p fun e he => ?_
  have hec := (State.mem_followers.1 he).2
  rintro rfl
  cases e
  case c => cases hec
  all_goals exact h (by simp)

theorem branchFlow_eq (take annul : Bool) (target : Nat) :
    branchFlow take annul target = .branch (if take = true then some (.jump, target) else none) (if take = true then false else annul) := by
  cases take <;> rfl

theorem bemOther_branches {k : Cond} {annul : Bool} {y : BitVec 2} {m f g : BitVec 4} {o : BitVec 7} {s : State} {e : Engine} {take ann : Bool}
    (ha : s.actor = e) (he : e ≠ .c) (hr : s.Ready e y []) (hh : s.hiddenHead e (.branch take ann)) :
    execBem k annul y m f g o s = .next (s.closedBranch ((s.arrived e y).onEng e (·.hbPop)) e y
      (if take = true then some (.jump, s.targetOf e o.toInt) else none) (if take = true then false else ann)) := by
  have hhead : (s.arrived e y).hbHead e = some (.branch take ann) := by
    refine State.hbHead_of_hiddenHead ?_
    rw [State.hiddenHead, State.arrived_eng]
    exact hh
  simp only [execBem, ha, he, if_false]
  rw [issueWith_ready _ _ _ _ _ _ hr]
  rw [hhead]
  have hbase : (s.arrived e y).branchBase e = (s.eng e).cur := by rw [State.branchBase, State.arrived_eng]
  cases take
  · rfl
  · simp only [if_true, State.targetOf, ← hbase]
    rfl

/-- Settles O17: C's copy pushes its outcome, the other engines take theirs. -/
theorem branchesOfAllEngines : Obligations.BranchesOfAllEngines := by
  unfold Obligations.BranchesOfAllEngines
  intro i c annul y m f g off hrow
  obtain ⟨k, o, rfl, hc, hk, hexec⟩ := bemRow_exec hrow
  refine ⟨fun s ha => ⟨fun a => k.holds (a.me.sreg (f.setWidth 5)) (a.me.sreg (g.setWidth 5)), fun a => Cond.holds_of_condOf hk hc _ _,
    fun hpre hr => ?_⟩, fun s e take ann ha he hr hh => ?_⟩
  · have hx := bem_pushes (k := k) ha rfl hpre hr
    rw [hexec, hx]
    generalize hv : (s.arrived .c y).onEngs _ _ = v
    have hsame (p : Aspect) (hp : p ∉ [Aspect.engine .l, .engine .v, .engine .m, .engine .s]) : (s.arrived .c y).same v p :=
      hv ▸ State.onEngs_followers_same _ _ _ _ hp
    have hcourse : (s.arrived .c y).SameCourse v .c := .of_eng (hsame (.engine .c) (by simp))
    have hphase : v.me.phase = s.me.phase := (State.same_phase _ _ (hsame .phase (by simp))).trans (s.arrived_phase .c y)
    refine ⟨_, rfl, State.closedBranch_passed _ _ _ _ _ _ (State.closed_passed_course _ hcourse hphase), ?_, fun e he => ?_,
      State.closedBranch_keepsBut fun p _ hp => hsame p hp⟩
    · rw [show (bemClaim annul y m f g o.toInt _).flow (s.arrived .c y) = _ from branchFlow_eq _ _ _]
      exact State.closedBranch_flows _ _ _ _ _ _ (State.closed_straight_course _ hcourse)
    · rw [State.closedBranch, State.onEng_eng_ne _ _ _ _ he, State.closed_eng_ne he, ← hv]
      exact bem_queues annul m (fun a => k.holds (a.me.sreg (f.setWidth 5)) (a.me.sreg (g.setWidth 5))) e he
  · rw [hexec, bemOther_branches ha he hr hh]
    have hpop := (s.arrived e y).onEng_eng e (·.hbPop)
    have hcourse : (s.arrived e y).SameCourse ((s.arrived e y).onEng e (·.hbPop)) e := by
      constructor <;> rw [hpop] <;> rfl
    have hphase : ((s.arrived e y).onEng e (·.hbPop)).me.phase = s.me.phase :=
      (State.same_phase _ _ (State.onEng_same _ e _ .phase (by simp))).trans (s.arrived_phase e y)
    refine ⟨_, rfl, State.closedBranch_passed _ _ _ _ _ _ (State.closed_passed_course _ hcourse hphase), ?_, ?_,
      State.closedBranch_keepsBut fun p hp _ => State.onEng_same _ _ _ _ hp⟩
    · rw [branchFlow_eq]
      exact State.closedBranch_flows _ _ _ _ _ _ (State.closed_straight_course _ hcourse)
    · rw [State.PopsHidden, State.closedBranch_eng, State.closed_eng, hpop, State.arrived_eng]
      exact ⟨rfl, rfl⟩

/-! ## DICTLD -/

/-- The engines that C tells of its copy: those that follow it and have not stopped. -/
def State.told (s : State) : List Engine := (s.followers 0x1F).filter fun e => !(s.eng e).stopped

theorem State.told_nodup (s : State) : s.told.Nodup := List.Nodup.filter _ (s.followers_nodup _)

theorem State.mem_told {s : State} {e : Engine} : e ∈ s.told ↔ s.follows e = true ∧ (s.eng e).stopped = false := by
  rw [State.told, List.mem_filter, State.mem_followers_all, Bool.not_eq_true']

theorem State.dictTell_eng (s : State) (l : Option (Nat × Option (BitVec 32))) (e : Engine) :
    (s.dictTell l).eng e = if s.follows e = true ∧ (s.eng e).stopped = false then (s.eng e).dictDone l else s.eng e := by
  rw [show s.dictTell l = s.onEngs s.told (·.dictDone l) from rfl, State.onEngs_eng _ s.told_nodup]
  simp only [State.mem_told]

theorem State.dictTell_same (s : State) (l : Option (Nat × Option (BitVec 32))) (p : Aspect)
    (h : p ∉ [Aspect.engine .l, .engine .v, .engine .m, .engine .s]) : s.same (s.dictTell l) p := by
  refine s.onEngs_same s.told _ p fun e he => ?_
  have hfollows := (State.mem_told.1 he).1
  rintro rfl
  cases e
  case c => cases hfollows
  all_goals exact h (by simp)

theorem Group.record_ok {g : Group} {a align n : Nat} {r : List Byte} (h : g.record a align n = .ok r) : r = g.spadBytes a n := by
  simp only [Group.record, need, bind, Except.bind, pure, Except.pure] at h
  split at h
  · cases h
  · split at h
    · cases h
    · split at h
      · cases h
      · exact (Except.ok.inj h).symm

theorem Store.loadDict_get (m : Store) (k n : Nat) (w : BitVec 32) :
    assocGet (m.loadDict k w).dict n = if n = k then dictAfter w else assocGet m.dict n := by
  simp only [Store.loadDict, dictAfter]
  by_cases hw : loadable w.toNat = true
  · rw [if_pos hw, if_pos hw, assocGet_assocSet]
  · rw [if_neg hw, if_neg hw, assocGet_assocDrop]

/-- The state with an entry of the dictionary loaded. -/
def State.withDict (s : State) (k : Nat) (w : BitVec 32) : State := s.onMe fun g => { g with store := g.store.loadDict k w }

theorem State.withDict_same (s : State) (k : Nat) (w : BitVec 32) (p : Aspect) (h : p ≠ .dict) : s.same (s.withDict k w) p := by
  have h' := s.same_refl p
  cases p with
  | dict => exact absurd rfl h
  | regs => exact fun r => by cases r <;> rfl
  | _ => exact h'

/-- R64: C's copy. -/
theorem dictld_loads {s : State} {y : BitVec 2} {a : BitVec 5} {k : BitVec 10} {r : List Byte} (ha : s.actor = .c) (hr : s.Ready .c y [.s a])
    (hrec : (s.arrived .c y).me.record ((s.arrived .c y).me.sreg a).toNat 4 4 = .ok r) :
    exec (.dictld y a k) s =
      .next (s.closed (((s.arrived .c y).dictTell (some (k.toNat, assocGet (s.arrived .c y).me.store.dict k.toNat))).withDict k.toNat
        (BitVec.ofNat 32 (recField r 0 4))) .c y (s.me.phase == .handler && [Reg.s a].contains (.h 15))) := by
  have hval : recField r 0 4 = leVal r := by
    have hlen : r.length = 4 := by
      rw [Group.record_ok hrec]
      simp [Group.spadBytes, memBytes]
    rw [recField, List.drop_zero, ← hlen, List.take_length]
  refine (show exec _ s = execDictld y a k s from rfl).trans ?_
  simp only [execDictld, ha, if_true]
  refine issueWith_done _ _ _ _ _ _ _ hr ?_
  rw [hrec, hval]
  rfl

/-- Settles O18: C's copy loads and tells the others; another engine's copy passes once it was told. -/
theorem dictionaryLoads : Obligations.DictionaryLoads := by
  unfold Obligations.DictionaryLoads
  refine ⟨?_, fun s e y a k ha he hr => ⟨fun l r hq => ?_, fun hq => ?_⟩⟩
  · intro s y a k r ha hr u hrec
    rw [dictld_loads ha hr hrec]
    generalize hv : (u.dictTell (some (k.toNat, assocGet u.me.store.dict k.toNat))).withDict k.toNat (BitVec.ofNat 32 (recField r 0 4)) = v
    have hsame (p : Aspect) (hd : p ≠ .dict) (hp : p ∉ [Aspect.engine .l, .engine .v, .engine .m, .engine .s]) : u.same v p :=
      hv ▸ State.same_trans _ _ _ _ (u.dictTell_same _ p hp) (State.withDict_same _ _ _ p hd)
    have hcourse : u.SameCourse v .c := .of_eng (hsame (.engine .c) (by simp) (by simp))
    have hphase : v.me.phase = s.me.phase := (State.same_phase _ _ (hsame .phase (by simp) (by simp))).trans (s.arrived_phase .c y)
    refine ⟨_, rfl, State.closed_passed_course _ hcourse hphase, State.closed_straight_course _ hcourse, fun n => ?_, fun e he => ?_,
      State.closed_keepsBut fun p _ hp => hsame p (fun h => hp (h ▸ List.mem_cons_self)) (fun h => hp (List.mem_cons_of_mem _ h))⟩
    · have hdict : (u.dictTell (some (k.toNat, assocGet u.me.store.dict k.toNat))).me.store.dict = u.me.store.dict :=
        u.dictTell_same _ .dict (by simp)
      rw [State.closed_store, ← hv]
      refine (Store.loadDict_get _ _ _ _).trans ?_
      rw [hdict]
    · rw [State.closed_eng_ne he, ← hv]
      refine ((State.withDict_same _ _ _ (.engine e) (by simp)).trans (u.dictTell_eng _ e)).trans ?_
      rw [show u.follows e = s.follows e from s.arrived_follows _ _ _, show u.eng e = s.eng e from s.arrived_eng_ne _ _ _ he]
      rfl
  · have heng := (s.arrived e y).onEng_eng e fun x => { x with dictq := r }
    have hcourse : (s.arrived e y).SameCourse ((s.arrived e y).onEng e fun x => { x with dictq := r }) e := by
      constructor <;> rw [heng]
    have hphase : ((s.arrived e y).onEng e fun x => { x with dictq := r }).me.phase = s.me.phase :=
      (State.same_phase _ _ (State.onEng_same _ e _ .phase (by simp))).trans (s.arrived_phase e y)
    have hdictq : ((s.arrived e y).eng e).dictq = l :: r := by rw [State.arrived_eng, ← hq]
    refine ⟨s.closed ((s.arrived e y).onEng e fun x => { x with dictq := r }) e y (s.me.phase == .handler && [].contains (Reg.h 15)), ?_, State.closed_passed_course _ hcourse hphase,
      State.closed_straight_course _ hcourse, by rw [State.closed_eng, heng]; rfl,
      State.closed_keepsBut fun p hp _ => State.onEng_same _ _ _ _ hp⟩
    · refine (show exec _ s = execDictld y a k s from rfl).trans ?_
      simp only [execDictld, ha, he, if_false]
      refine issueWith_done _ _ _ _ _ _ _ hr ?_
      rw [hdictq]
  · have hdictq : ((s.arrived e y).eng e).dictq = [] := by rw [State.arrived_eng, ← hq]
    refine ⟨_, ?_, s.waits_stall e none⟩
    refine (show exec _ s = execDictld y a k s from rfl).trans ?_
    simp only [execDictld, ha, he, if_false]
    rw [issueWith_ready _ _ _ _ _ _ hr, hdictq]
    rfl

/-! ## NOTIFY -/

theorem Group.stream_any (g : Group) (p : Stream → Bool) : g.streams.any p = false ↔ ∀ z : BitVec 4, p (g.stream z) = false := by
  rw [Vector.any_eq_false]
  constructor
  · exact fun h z => eq_false_of_ne_true (h z.toNat z.isLt)
  · exact fun h i hi => by simpa [Group.stream, Nat.mod_eq_of_lt hi] using h (BitVec.ofNat 4 i)

/-- R208: an engine waits at its NOTIFY while something of it is outstanding. -/
theorem State.notifyWaits_iff (s : State) (e : Engine) : s.me.notifyWaits e = false ↔ s.mayNotify e := by
  cases e
  case c => simp [Group.notifyWaits, State.mayNotify]
  case m => simp [Group.notifyWaits, State.mayNotify]
  case s =>
    simp only [Group.notifyWaits, State.mayNotify, Group.stream_any]
    refine forall_congr' fun z => ?_
    simp
  all_goals simp [Group.notifyWaits, State.mayNotify]

theorem State.badNotify_none {s : State} {m : BitVec 5} {c : BitVec 1} {n : BitVec 12} (hm : m ≠ 0)
    (h : if c = 1 then s.granted n.toNat = true else n = 0) : s.badNotify m c n = none := by
  have hcase : c = 0 ∨ c = 1 := by clear h; revert c; decide
  rcases hcase with rfl | rfl
  · have hn : n = 0 := by simpa using h
    simp [State.badNotify, show ¬m = 0#5 from hm, hn]
  · have hg : s.granted n.toNat = true := by simpa using h
    simp [State.badNotify, show ¬m = 0#5 from hm, State.needCtr, causeIf, hg]

theorem State.arrived_granted (s : State) (e : Engine) (y : BitVec 2) (n : Nat) : (s.arrived e y).granted n = s.granted n := by
  have hident : (s.arrived e y).me.ident = s.me.ident := s.arrived_same e y .ident (by simp) (by simp)
  simp only [State.granted, State.myCtx, hident]
  rfl

/-- Settles O19: the engine stops, or waits for what is outstanding, or the item traps. -/
theorem notify : Obligations.Notify := by
  unfold Obligations.Notify
  intro s e y m c n ha hm hr u counts
  have hexec (i : Instr) (hi : i = .notify y m c n) : exec i s = issuePre (s.badNotify m c n) e y [] s fun s _ =>
      if s.me.notifyWaits e then .wait
      else .done (s.onEng e fun x => { x with stopped := true, notify := if c = 1 then some (s.me.itemAddr e, n.toNat) else none }) := by
    rw [hi, ← ha]
    rfl
  have hgranted : u.granted n.toNat = s.granted n.toNat := s.arrived_granted e y _
  have hgood (hc : counts) : s.badNotify m c n = none := State.badNotify_none hm (hgranted ▸ hc)
  rw [hexec _ rfl]
  refine ⟨fun hc hn => ?_, fun hc hn => ?_, fun hc hg => ?_, fun hc hn => ?_⟩
  · rw [issuePre_good (hgood hc)]
    have haddr : u.me.itemAddr e = s.me.itemAddr e := by
      unfold Group.itemAddr
      rw [show u.me.engine e = _ from s.arrived_eng e y]
      rfl
    generalize hv : (u.onEng e fun x =>
      { x with stopped := true, notify := if c = 1 then some (u.me.itemAddr e, n.toNat) else none }) = v
    have heng : v.eng e = { u.eng e with stopped := true, notify := if c = 1 then some (s.me.itemAddr e, n.toNat) else none } := by
      rw [← hv, State.onEng_eng, haddr]
    have hsame (p : Aspect) (hp : p ≠ .engine e) : u.same v p := hv ▸ State.onEng_same _ _ _ _ hp
    have hcourse : u.SameCourse v e := by
      constructor <;> rw [heng]
    have hphase : v.me.phase = s.me.phase := (State.same_phase _ _ (hsame .phase (by simp))).trans (s.arrived_phase e y)
    refine ⟨_, issue_done e y [] s v _ hr ?_, State.closed_passed_course _ hcourse hphase, State.closed_straight_course _ hcourse, ?_, ?_,
      State.closed_keepsBut fun p hp _ => hsame p hp⟩
    · rw [show (s.arrived e y).me.notifyWaits e = false from (u.notifyWaits_iff e).2 hn, ← hv]
      rfl
    · rw [State.closed_eng, heng]
      rfl
    · rw [State.closed_eng, heng]
      rfl
  · rw [issuePre_good (hgood hc)]
    have hwaits : u.me.notifyWaits e = true := by
      rw [← Bool.not_eq_false, u.notifyWaits_iff]
      exact hn
    refine ⟨_, issue_wait e y [] s _ hr ?_, s.waits_stall e none⟩
    rw [show (s.arrived e y).me.notifyWaits e = true from hwaits]
    rfl
  · have hbad : s.badNotify m c n = some causePriv := by simp [State.badNotify, show ¬m = 0#5 from hm, hc, State.needCtr, causeIf, ← hgranted, hg]
    rw [hbad]
    exact issuePre_trap hr _ _
  · have hbad : s.badNotify m c n = some causeReserved := if_pos (.inr ⟨hc, hn⟩)
    rw [hbad]
    exact issuePre_trap hr _ _

end Sys2Proof.Machine
end

section
-- One declaration after another: the whole text is checked in one process, of bounded memory.
set_option Elab.async false
/-! SUPPORT. What memory traffic leaves alone (21_link R324 to R326, 23_page R341, 08_memory_ops R175): a packet changes the link state
only, a write of memory no group, and the close of an interval or a release of a barrier nothing of a group's course. -/

namespace Sys2Proof.Machine

/-! ## Packets -/

/-- A state that differs in its link state only. -/
def State.OnlyLinks (s t : State) : Prop := t = { s with links := t.links }

theorem State.OnlyLinks.refl (s : State) : s.OnlyLinks s := rfl

theorem State.OnlyLinks.of_links (s : State) (l : Links) : s.OnlyLinks { s with links := l } := rfl

theorem State.OnlyLinks.trans {s t u : State} (h : s.OnlyLinks t) (h' : t.OnlyLinks u) : s.OnlyLinks u := by
  unfold State.OnlyLinks at *
  rw [h', h]

theorem State.OnlyLinks.same {s t : State} (h : s.OnlyLinks t) (p : Aspect) (hp : p ≠ .links) : s.same t p := by
  have h' := s.same_refl p
  rw [h]
  cases p with
  | links => exact absurd rfl hp
  | _ => exact h'

theorem State.OnlyLinks.me {s t : State} (h : s.OnlyLinks t) : t.me = s.me := by rw [h]

/-- A chain of changes of the link state. -/
theorem State.OnlyLinks.foldl {α : Type} {f : State → α → State} (h : ∀ (s : State) (x : α), s.OnlyLinks (f s x)) (l : List α) (s : State) :
    s.OnlyLinks (l.foldl f s) := by
  induction l generalizing s with
  | nil => exact .refl s
  | cons x l ih => exact (h s x).trans (ih _)

theorem State.sendOn_onlyLinks {s t : State} {n : Nat} {pk : Packet} (h : s.sendOn n pk = some t) : s.OnlyLinks t := by
  unfold State.sendOn at h
  split at h
  · cases h
  · split at h
    · obtain ⟨p', -, rfl⟩ := Option.map_eq_some_iff.1 h
      exact .of_links s _
    · cases h

theorem State.sendRoute_onlyLinks {s t : State} {pk : Packet} {line : Nat} (h : s.sendRoute pk line = some t) : s.OnlyLinks t := by
  unfold State.sendRoute at h
  split at h
  · cases h
  · exact State.sendOn_onlyLinks h

theorem State.qpSend_onlyLinks {s t : State} {q : QPair} {named : Nat} {p : Packet} (h : s.qpSend q named p = some t) : s.OnlyLinks t := by
  simp only [State.qpSend] at h
  by_cases heth : q.eth = true
  · rw [if_pos heth] at h
    obtain ⟨-, hs⟩ := Option.ite_none_right_eq_some.1 h
    obtain rfl := Option.some.inj hs
    exact .of_links s _
  · rw [if_neg heth] at h
    by_cases hport : (if named = 0xFF then q.port else named) = 0xFF
    · rw [if_pos hport] at h
      exact State.sendRoute_onlyLinks h
    · rw [if_neg hport] at h
      exact State.sendOn_onlyLinks h

theorem State.sendTo_onlyLinks {s t : State} {w : Way} {pk : Packet} (h : s.sendTo w pk = some t) : s.OnlyLinks t := by
  unfold State.sendTo at h
  split at h
  · exact State.sendRoute_onlyLinks h
  · obtain ⟨n, -, hn⟩ := Option.bind_eq_some_iff.1 h
    exact State.sendOn_onlyLinks hn
  · split at h
    · cases h
      exact .refl s
    · exact State.qpSend_onlyLinks h

theorem State.post_onlyLinks (s : State) (w : Way) (pk : Packet) : s.OnlyLinks (s.post w pk) := by
  unfold State.post
  dsimp only
  split
  · exact .of_links s _
  · cases h : s.sendTo w pk with
    | none => exact .of_links s _
    | some t => exact State.sendTo_onlyLinks h

theorem State.ctrl_onlyLinks (s : State) (m : Nat) (sub : BitVec 8) (ctx slot firing : Nat) (addr value : BitVec 64) :
    s.OnlyLinks (s.ctrl m sub ctx slot firing addr value) := s.post_onlyLinks _ _

theorem State.sendQp_onlyLinks (s : State) (n : Nat) (pk : Packet) : s.OnlyLinks (s.sendQp n pk) := s.post_onlyLinks _ _

theorem State.syncMsg_onlyLinks (s : State) (m : Nat) (sub : BitVec 8) (ctx key launch index tag code : Nat) :
    s.OnlyLinks (s.syncMsg m sub ctx key launch index tag code) := s.post_onlyLinks _ _

theorem State.newTag_onlyLinks (s : State) : s.OnlyLinks s.newTag.2 := .of_links s _

theorem State.sendFwd_onlyLinks (s : State) (g : Fwd) : s.OnlyLinks (s.sendFwd g) := by
  unfold State.sendFwd
  cases h : s.sendRoute g.pkt g.line with
  | none => exact .refl s
  | some t => exact (State.sendRoute_onlyLinks h).trans (.of_links t _)

theorem State.forwardFor_onlyLinks (s : State) (f : Fwd) : s.OnlyLinks (s.forwardFor f) := by
  unfold State.forwardFor
  dsimp only
  split
  · exact .of_links s _
  · exact (State.OnlyLinks.of_links s _).trans (State.sendFwd_onlyLinks _ _)

theorem State.dropAsk_onlyLinks (s : State) (a : SyncAsk) (how : LetGo) : s.OnlyLinks (s.dropAsk a how) :=
  (State.OnlyLinks.of_links s _).trans (State.syncMsg_onlyLinks ..)

theorem State.ask_onlyLinks (s : State) (ctx key launch index : Nat) (ex : Bool) : s.OnlyLinks (s.ask ctx key launch index ex) :=
  ((s.newTag_onlyLinks).trans (.of_links _ _)).trans (State.syncMsg_onlyLinks ..)

theorem State.askHome_onlyLinks (s : State) (c : Closing) (op v u : Nat) : s.OnlyLinks (s.askHome c op v u) := by
  unfold State.askHome
  split
  · exact .refl s
  · exact s.forwardFor_onlyLinks _

theorem State.pumpClosing_onlyLinks (s : State) : s.OnlyLinks s.pumpClosing := by
  refine State.OnlyLinks.foldl (fun t c => ?_) _ s
  split
  · exact .refl t
  · split
    · exact t.askHome_onlyLinks _ _ _ _
    · exact t.askHome_onlyLinks _ _ _ _

/-! ## Writes of memory -/

/-- A state with the groups as they were. -/
structure State.KeepsGroups (s t : State) : Prop where
  me : t.me = s.me
  rest : t.rest = s.rest

theorem State.KeepsGroups.refl (s : State) : s.KeepsGroups s := ⟨rfl, rfl⟩

theorem State.KeepsGroups.trans {s t u : State} (h : s.KeepsGroups t) (h' : t.KeepsGroups u) : s.KeepsGroups u :=
  ⟨h'.me.trans h.me, h'.rest.trans h.rest⟩

theorem State.OnlyLinks.groups {s t : State} (h : s.OnlyLinks t) : s.KeepsGroups t := ⟨by rw [h], by rw [h]⟩

theorem State.KeepsGroups.foldl {α : Type} {f : State → α → State} (h : ∀ (s : State) (x : α), s.KeepsGroups (f s x)) (l : List α) (s : State) :
    s.KeepsGroups (l.foldl f s) := by
  induction l generalizing s with
  | nil => exact .refl s
  | cons x l ih => exact (h s x).trans (ih _)

theorem State.hold_groups (s : State) (ctx va : Nat) (bs : List Byte) (core : Option Nat) (agent : Option Agent) (ack : Option Packet)
    (rmw : Option PendAtomic) : s.KeepsGroups (s.hold ctx va bs core agent ack rmw) := ⟨rfl, rfl⟩

theorem State.hostPut_groups (s : State) (a : Nat) (bs : List Byte) : s.KeepsGroups (s.hostPut a bs) := ⟨rfl, rfl⟩

theorem State.ringBell_groups (s : State) (b : Bell) (v : Nat) : s.KeepsGroups (s.ringBell b v) := by
  unfold State.ringBell
  split
  · exact ⟨rfl, rfl⟩
  · exact .refl s

theorem State.storeLocal_groups (s : State) (la : Nat) (bs : List Byte) : s.KeepsGroups (s.storeLocal la bs) := by
  by_cases hbell : bellBase ≤ la ∧ la < bellBase + 2 ^ 16
  · rw [State.storeLocal, if_pos hbell]
    split
    · exact .refl s
    · split
      · exact s.ringBell_groups _ _
      · exact .refl s
  · rw [State.storeLocal, if_neg hbell]
    exact ⟨rfl, rfl⟩

theorem State.invalidate_groups (s : State) (ctx va : Nat) : s.KeepsGroups (s.invalidate ctx va) := by
  unfold State.invalidate
  split
  · exact .refl s
  · have htell (t : State) (ms : List Nat) (frame : BitVec 64) : t.OnlyLinks (ms.foldl (fun t m => t.ctrl m ctrlInvalidate ctx 0 0 frame 0) t) :=
      State.OnlyLinks.foldl (fun u m => u.ctrl_onlyLinks _ _ _ _ _ _ _) _ _
    dsimp only
    refine State.KeepsGroups.trans ?_ (htell _ _ _).groups
    exact ⟨rfl, rfl⟩

theorem State.writePageBy_groups (s : State) (ctx va : Nat) (e : PEntry) (bs : List Byte) (core : Option Nat) (agent : Option Agent) :
    s.KeepsGroups (s.writePageBy ctx va e bs core agent) := by
  unfold State.writePageBy
  dsimp only
  split
  · exact s.hold_groups _ _ _ _ _ _ _
  · split
    · exact s.hostPut_groups _ _
    · split
      · exact (s.forwardFor_onlyLinks _).groups
      · split
        · split
          · exact (s.forwardFor_onlyLinks _).groups
          · exact (s.storeLocal_groups _ _).trans (State.invalidate_groups _ _ _)
        · exact s.storeLocal_groups _ _

theorem State.homePut_groups (s : State) (h : Home) (bs : List Byte) (ack : Option Packet) : s.KeepsGroups (s.homePut h bs ack) := by
  unfold State.homePut
  split
  · exact s.storeLocal_groups _ _
  · split
    · exact .refl s
    · split
      · exact s.hold_groups _ _ _ _ _ _ _
      · exact s.writePageBy_groups _ _ _ _ _ _
  · exact .refl s

theorem State.putObj_groups (s : State) (o : SyncObj) : s.KeepsGroups (s.putObj o) := ⟨rfl, rfl⟩

theorem State.setObjWord_groups (s : State) (o : SyncObj) (w : BitVec 64) : s.KeepsGroups (s.setObjWord o w) := by
  unfold State.setObjWord
  split
  · exact s.hostPut_groups _ _
  · exact s.homePut_groups _ _ _

theorem State.addClosing_groups (s : State) (a : PendAtomic) : s.KeepsGroups (s.addClosing a) := by
  unfold State.addClosing
  split
  · exact .refl s
  · dsimp only
    split
    · split <;> exact ⟨rfl, rfl⟩
    · exact ⟨rfl, rfl⟩

/-! ## The course of a group -/

/-- What moves an engine along its walk: all of it but the results in flight and the stop records. -/
def EngineState.course (x : EngineState) : EngineState := { x with flight := [], stops := [] }

/-- What an item of the group in focus must find again when it completes: the course of its engines, its phase, its name. -/
structure Group.SameCourse (g h : Group) : Prop where
  engine : ∀ e, (h.engine e).course = (g.engine e).course
  phase : h.phase = g.phase ∧ h.prior = g.prior ∧ h.status = g.status ∧ h.reason = g.reason
  ident : h.ident = g.ident

/-- Besides, the group has joined the barriers that it had joined. -/
structure Group.Undisturbed (g h : Group) : Prop extends g.SameCourse h where
  joined : h.work.joined.map (·.bar) = g.work.joined.map (·.bar)

theorem Group.SameCourse.trans {g h k : Group} (a : g.SameCourse h) (b : h.SameCourse k) : g.SameCourse k := by
  obtain ⟨a1, ⟨a2, a3, a4, a5⟩, a6⟩ := a
  obtain ⟨b1, ⟨b2, b3, b4, b5⟩, b6⟩ := b
  exact ⟨fun e => (b1 e).trans (a1 e), ⟨b2.trans a2, b3.trans a3, b4.trans a4, b5.trans a5⟩, b6.trans a6⟩

theorem Group.Undisturbed.refl (g : Group) : g.Undisturbed g := ⟨⟨fun _ => rfl, ⟨rfl, rfl, rfl, rfl⟩, rfl⟩, rfl⟩

theorem Group.Undisturbed.of_eq {g h : Group} (e : h = g) : g.Undisturbed h := e ▸ .refl g

theorem Group.Undisturbed.trans {g h k : Group} (a : g.Undisturbed h) (b : h.Undisturbed k) : g.Undisturbed k :=
  ⟨a.toSameCourse.trans b.toSameCourse, b.joined.trans a.joined⟩

theorem State.KeepsGroups.undisturbed {s t : State} (h : s.KeepsGroups t) : s.me.Undisturbed t.me := .of_eq h.me

theorem State.SameWalk.of_course {a u : State} (h : a.me.SameCourse u.me) (e : Engine) : a.SameWalk u e := by
  refine ⟨(u.eng e).flight, (u.eng e).stops, ?_⟩
  have he : (u.eng e).course = (a.eng e).course := h.engine e
  calc u.eng e = { (u.eng e).course with flight := (u.eng e).flight, stops := (u.eng e).stops } := rfl
    _ = { (a.eng e).course with flight := (u.eng e).flight, stops := (u.eng e).stops } := by rw [he]
    _ = _ := rfl

theorem Group.Undisturbed.foldl {α : Type} {f : State → α → State} (h : ∀ (s : State) (x : α), s.me.Undisturbed (f s x).me) (l : List α) (s : State) :
    s.me.Undisturbed (l.foldl f s).me := by
  induction l generalizing s with
  | nil => exact .refl _
  | cons x l ih => exact (h s x).trans (ih _)

/-- A change of every group that leaves each one undisturbed. -/
theorem State.mapGroups_undisturbed {f : Group → Group} (h : ∀ g : Group, g.Undisturbed (f g)) (s : State) :
    s.me.Undisturbed (s.mapGroups f).me := h s.me

theorem State.onCore_undisturbed {f : Group → Group} (h : ∀ g : Group, g.Undisturbed (f g)) (s : State) (core : Nat) :
    s.me.Undisturbed (s.onCore core f).me := by
  refine s.mapGroups_undisturbed fun g => ?_
  split
  · exact h g
  · exact .refl g

theorem EngineState.fill_course (x : EngineState) (ok : InFlight → Bool) (v : BitVec 64) (p : Bool) : (x.fill ok v p).course = x.course := rfl

theorem Group.arrive_undisturbed (g : Group) (isInterval : Bool) (req : Nat) (v : BitVec 64) (p : Bool) : g.Undisturbed (g.arrive isInterval req v p) := by
  refine ⟨⟨fun e => ?_, ⟨rfl, rfl, rfl, rfl⟩, rfl⟩, rfl⟩
  cases e <;> rfl

theorem State.deliver_undisturbed (s : State) (isInterval : Bool) (a : PendAtomic) (old : Nat) (added : Bool) :
    s.me.Undisturbed (s.deliver isInterval a old added).me := by
  refine s.mapGroups_undisturbed fun g => ?_
  split
  · exact g.arrive_undisturbed _ _ _ _
  · exact .refl g

theorem State.placePut_undisturbed (s : State) (p : AtPlace) (n v by_ : Nat) : s.me.Undisturbed (s.placePut p n v by_).me := by
  unfold State.placePut
  split
  · refine s.onCore_undisturbed (fun g => ?_) _
    exact ⟨⟨fun _ => rfl, ⟨rfl, rfl, rfl, rfl⟩, rfl⟩, rfl⟩
  · split
    · exact .refl _
    · exact (s.writePageBy_groups _ _ _ _ _ _).undisturbed

theorem State.endRuns_undisturbed (s : State) (l : List Run) : s.me.Undisturbed (s.endRuns l).me :=
  Group.Undisturbed.foldl (fun t _ => t.placePut_undisturbed _ _ _ _) l s

theorem runOne_undisturbed (t : State × List Run) (a : PendAtomic) : t.1.me.Undisturbed (runOne t a).1.me := by
  unfold runOne
  dsimp only
  split
  · exact t.1.deliver_undisturbed _ _ _ _
  · split
    · exact t.1.deliver_undisturbed _ _ _ _
    · exact (t.1.endRuns_undisturbed _).trans (State.deliver_undisturbed _ _ _ _ _)

theorem runAll_undisturbed (l : List PendAtomic) (t : State × List Run) : t.1.me.Undisturbed (l.foldl runOne t).1.me := by
  induction l generalizing t with
  | nil => exact .refl _
  | cons a l ih => exact (runOne_undisturbed t a).trans (ih _)

/-- R175: resolving intervals gives groups their results, and disturbs them no further. -/
theorem State.resolveIntervals_undisturbed (s : State) : s.me.Undisturbed s.resolveIntervals.me := by
  unfold State.resolveIntervals
  split
  · exact .refl _
  · dsimp only
    refine Group.Undisturbed.trans ?_ (State.pumpClosing_onlyLinks _).groups.undisturbed
    refine Group.Undisturbed.trans ?_ (State.KeepsGroups.foldl (fun t a => t.addClosing_groups a) _ _).undisturbed
    refine Group.Undisturbed.trans ?_ (State.endRuns_undisturbed _ _)
    refine Group.Undisturbed.trans ?_ (runAll_undisturbed _ _)
    exact .refl _

theorem State.closeInterval_undisturbed (s : State) : s.me.Undisturbed s.closeInterval.me :=
  Group.Undisturbed.trans (h := (s.onMe fun g => { g with work := { g.work with closed := g.work.closed + 1 } }).me)
    ⟨⟨fun _ => rfl, ⟨rfl, rfl, rfl, rfl⟩, rfl⟩, rfl⟩ (State.resolveIntervals_undisturbed _)

/-! ## Barriers -/

theorem State.onBar_groups (s : State) (ctx bar : Nat) (f : Barrier → Barrier) : s.KeepsGroups (s.onBar ctx bar f) := ⟨rfl, rfl⟩

theorem State.onJoin_undisturbed {f : Joined → Joined} (h : ∀ j, (f j).bar = j.bar) (s : State) (tag : Nat) :
    s.me.Undisturbed (s.onJoin tag f).me := by
  refine s.mapGroups_undisturbed fun g => ?_
  refine ⟨⟨fun _ => rfl, ⟨rfl, rfl, rfl, rfl⟩, rfl⟩, ?_⟩
  simp only [List.map_map]
  refine List.map_congr_left fun j _ => ?_
  by_cases ht : j.tag = tag <;> simp [ht, h]

theorem Group.barResult_undisturbed (g : Group) (bar : Nat) (hit : Joined → Bool) (p : Bool) : g.Undisturbed (g.barResult bar hit p) := by
  refine ⟨⟨fun _ => rfl, ⟨rfl, rfl, rfl, rfl⟩, rfl⟩, ?_⟩
  simp only [Group.barResult, List.map_map]
  refine List.map_congr_left fun j _ => ?_
  simp only [Function.comp_apply]
  split <;> rfl

theorem State.barResult_undisturbed (s : State) (ctx bar : Nat) (hit : Joined → Bool) (p : Bool) :
    s.me.Undisturbed (s.barResult ctx bar hit p).me := by
  refine Group.Undisturbed.trans (s.mapGroups_undisturbed fun g => ?_) (State.resolveIntervals_undisturbed _)
  split
  · exact g.barResult_undisturbed _ _ _
  · exact .refl g

theorem State.stamp_groups (s : State) (ctx bar : Nat) (b : Barrier) (x : Episode) : s.KeepsGroups (s.stamp ctx bar b x) :=
  (s.onBar_groups _ _ _).trans (State.OnlyLinks.foldl (fun t _ => t.sendQp_onlyLinks _ _) _ _).groups

theorem State.tellRelease_groups (s : State) (ctx bar num : Nat) (b : Barrier) : s.KeepsGroups (s.tellRelease ctx bar num b) := by
  unfold State.tellRelease
  split
  · exact .refl s
  · refine (State.OnlyLinks.foldl (fun t r => ?_) _ _).groups
    split
    · exact .refl t
    · exact t.ctrl_onlyLinks _ _ _ _ _ _ _

theorem State.releaseEpisode_undisturbed (s : State) (ctx bar num : Nat) (b : Barrier) :
    s.me.Undisturbed (s.releaseEpisode ctx bar num b).me :=
  ((s.onBar_groups ctx bar (·.release num)).undisturbed.trans (State.barResult_undisturbed _ _ _ _ _)).trans
    (State.tellRelease_groups _ _ _ _ _).undisturbed

theorem State.barEval_undisturbed (s : State) (ctx bar : Nat) : s.me.Undisturbed (s.barEval ctx bar).me := by
  unfold State.barEval
  split
  · exact .refl _
  · next b _ =>
    split
    · exact .refl _
    · refine Group.Undisturbed.trans ?_ (State.onBar_groups _ _ _ _).undisturbed
      refine Group.Undisturbed.foldl (fun t x => ?_) _ s
      split
      · split
        · split
          · exact .refl _
          · exact (t.stamp_groups _ _ _ _).undisturbed
        · exact t.releaseEpisode_undisturbed _ _ _ _
      · exact .refl _

theorem State.performJoin_undisturbed (s : State) (i : Ident) (b : Barrier) (j : Joined) : s.me.Undisturbed (s.performJoin i b j).me := by
  unfold State.performJoin
  split
  · refine Group.Undisturbed.trans ?_ (State.barEval_undisturbed _ _ _)
    refine Group.Undisturbed.trans ?_ (State.onJoin_undisturbed ?_ _ _)
    · exact (s.onBar_groups _ _ _).undisturbed
    · exact fun _ => rfl
  · refine Group.Undisturbed.trans ?_ (State.ctrl_onlyLinks _ _ _ _ _ _ _ _).groups.undisturbed
    refine Group.Undisturbed.trans ?_ (State.onBar_groups _ _ _ _).undisturbed
    refine State.onJoin_undisturbed ?_ _ _
    exact fun _ => rfl

/-- R253: performing joins keeps every group's course and joins. -/
theorem State.noteJoins_undisturbed (s : State) : s.me.Undisturbed s.noteJoins.me := by
  refine Group.Undisturbed.foldl (fun t g => Group.Undisturbed.foldl (fun u j => ?_) _ t) _ s
  split
  · exact .refl _
  · split
    · exact u.performJoin_undisturbed _ _ _
    · exact .refl _

/-! ## Trace records -/

theorem Group.tracePut_eq (g : Group) (r : TraceRec) : ∃ (l : List TraceRec) (n d : _),
    g.tracePut r = { g with sys := { g.sys with trdrop := d }, work := { g.work with trace := l, losses := n } } := by
  unfold Group.tracePut
  split
  · exact ⟨_, _, _, rfl⟩
  · exact ⟨_, _, _, rfl⟩

theorem Group.traceAdd_eq (g : Group) (r : TraceRec) : ∃ (l : List TraceRec) (n d : _),
    g.traceAdd r = { g with sys := { g.sys with trdrop := d }, work := { g.work with trace := l, losses := n } } := by
  unfold Group.traceAdd
  split
  · exact g.tracePut_eq r
  · obtain ⟨l, n, d, h⟩ := Group.tracePut_eq { g with work := { g.work with losses := 0, trace := _ } } r
    exact ⟨l, n, d, h⟩

/-- R363: a record changes the trace buffer, or the count of what it lost. -/
theorem State.trace_eq (s : State) (typ eng k seq : Nat) (data : BitVec 64) : ∃ (l : List TraceRec) (n d : _),
    s.trace typ eng k seq data =
      { s with me := { s.me with sys := { s.me.sys with trdrop := d }, work := { s.me.work with trace := l, losses := n } } } := by
  obtain ⟨l, n, d, h⟩ := s.me.traceAdd_eq
    { typ := BitVec.ofNat 8 typ, engine := BitVec.ofNat 8 eng, k := BitVec.ofNat 8 k, group := BitVec.ofNat 32 s.me.ident.index
      seq := BitVec.ofNat 64 seq, cycle := BitVec.ofNat 64 s.groupCycles, data := data }
  exact ⟨l, n, d, congrArg (fun g => { s with me := g }) h⟩

theorem State.trace_same (s : State) (typ eng k seq : Nat) (data : BitVec 64) (p : Aspect) (h : p ≠ .trace) (h' : p ≠ .sys) :
    s.same (s.trace typ eng k seq data) p := by
  have hs := s.same_refl p
  obtain ⟨l, n, d, he⟩ := s.trace_eq typ eng k seq data
  rw [he]
  cases p with
  | trace => exact absurd rfl h
  | sys => exact absurd rfl h'
  | regs => exact fun r => by cases r <;> rfl
  | _ => exact hs

theorem State.waitRecord_same (s : State) (kind setter object : Nat) (p : Aspect) (h : p ≠ .trace) (h' : p ≠ .sys) :
    s.same (s.waitRecord kind setter object) p := s.trace_same _ _ _ _ _ p h h'

theorem State.waitRecord_undisturbed (s : State) (kind setter object : Nat) : s.me.Undisturbed (s.waitRecord kind setter object).me := by
  obtain ⟨l, n, d, he⟩ := s.trace_eq 1 0 0 s.me.itemSeq _
  rw [State.waitRecord, he]
  exact ⟨⟨fun _ => rfl, ⟨rfl, rfl, rfl, rfl⟩, rfl⟩, rfl⟩

end Sys2Proof.Machine
end

section
-- One declaration after another: the whole text is checked in one process, of bounded memory.
set_option Elab.async false
/-! SUPPORT. Flags, fences, acquire and release, barriers (08_memory_ops R165 to R180, 20_barrier R314 to R319). -/

namespace Sys2Proof.Machine

/-! ## Items that are an operation of the model -/

/-- An item without a result whose effect is a claim's operation, but for the parts that the claim names. -/
theorem Claim.holds_effect (c : Claim) {i : Instr} (f : State → Nat → Effect) (hflow : ∀ s, c.flow s = .straight) (hres : c.result = .none)
    (hx : ∀ s, exec i s = issue c.eng c.y c.srcs s f)
    (hb : ∀ (a : State) (t : Nat), c.pre a → ∃ u, f a t = .done u ∧ a.me.SameCourse (c.does a).me ∧
      (∀ p, p ≠ .bufs → p ∉ c.parts → (c.does a).same u p) ∧ ∀ (s : State) (via : Bool), c.post (c.does a) (s.closed u c.eng c.y via))
    (he : Aspect.engine c.eng ∉ c.parts) (hp : Aspect.phase ∉ c.parts) : c.Holds i := by
  refine c.holds_done i f hflow hx fun s _ hpre => ?_
  obtain ⟨u, hf, hcourse, hframe, hpost⟩ := hb (s.arrived c.eng c.y) (s.issueAt c.eng c.y) hpre
  have heng : u.eng c.eng = (c.mid s).eng c.eng := hframe _ (by simp) he
  refine ⟨u, hf, ⟨.of_course hcourse _, ⟨_, heng⟩, ?_, ?_, fun p hn => ?_⟩, fun via => hpost s via⟩
  · exact State.same_trans _ _ _ .phase hcourse.phase (hframe _ (by simp) hp)
  · rw [hres]
    exact congrArg EngineState.flight heng
  · simp only [List.mem_cons, not_or] at hn
    exact hframe p hn.2.1 hn.2.2

/-- Such an item that promises a result of fixed latency besides. -/
theorem Claim.holds_effect_result (c : Claim) {i : Instr} {r : Reg} {v : State → Val} {lat : Nat} (f : State → Nat → Effect)
    (hflow : ∀ s, c.flow s = .straight) (hres : c.result = .fixed r v lat) (hx : ∀ s, exec i s = issue c.eng c.y c.srcs s f)
    (hb : ∀ (a : State) (t : Nat), c.pre a → ∃ u, f a t = .done (u.result c.eng r (v (c.does a)) t lat) ∧ a.me.SameCourse (c.does a).me ∧
      (∀ p, p ≠ .bufs → p ∉ c.parts → (c.does a).same u p) ∧
      ∀ (s : State) (via : Bool), c.post (c.does a) (s.closed (u.result c.eng r (v (c.does a)) t lat) c.eng c.y via))
    (he : Aspect.engine c.eng ∉ c.parts) (hp : Aspect.phase ∉ c.parts) : c.Holds i := by
  refine c.holds_done i f hflow hx fun s _ hpre => ?_
  obtain ⟨u, hf, hcourse, hframe, hpost⟩ := hb (s.arrived c.eng c.y) (s.issueAt c.eng c.y) hpre
  have heng : u.eng c.eng = (c.mid s).eng c.eng := hframe _ (by simp) he
  have hresult := State.result_same u c.eng r (v (c.mid s)) (s.issueAt c.eng c.y) lat
  have honly : (c.mid s).OnlyFlight (u.result c.eng r (v (c.mid s)) (s.issueAt c.eng c.y) lat) c.eng :=
    ⟨_, (u.result_eng _ _ _ _ _).trans (by rw [heng])⟩
  refine ⟨_, hf, ⟨.of_course hcourse _, honly, ?_, ?_, fun p hn => ?_⟩, fun via => hpost s via⟩
  · exact State.same_trans _ _ _ .phase hcourse.phase (State.same_trans _ _ _ .phase (hframe _ (by simp) hp) (hresult _ (by simp)))
  · rw [hres]
    refine (congrArg EngineState.flight (u.result_eng _ _ _ _ _)).trans ?_
    rw [heng]
    rfl
  · simp only [List.mem_cons, not_or] at hn
    exact State.same_trans _ _ _ _ (hframe p hn.2.1 hn.2.2) (hresult p hn.1)

theorem ofChk_of_ok {α : Type} {c : Chk α} {a : α} (h : c = .ok a) (f : α → Effect) : ofChk c f = f a := by rw [h]; rfl

theorem ofChk_of_error {α : Type} {c : Chk α} {t : Nat × Nat} (h : c = .error t) (f : α → Effect) : ofChk c f = .trap t.1 0 t.2 := by
  rw [h]
  rfl

/-! ## Flags -/

theorem Group.setFlag_flag (g : Group) {n : Nat} (h : n ≤ 255) (k m : Nat) : (g.setFlag n k).flag m = (decide (m = n) || g.flag m) := by
  have hbit : (BitVec.ofNat 256 (2 ^ n)).getLsbD m = decide (m = n) := by
    rw [BitVec.getLsbD_ofNat, Nat.testBit_two_pow]
    by_cases hm : m = n
    · simp [hm]
      omega
    · simp [hm, Ne.symm hm]
  simp only [Group.flag, Group.setFlag, BitVec.getLsbD_or, hbit, Bool.or_comm]

theorem Group.clrFlag_flag (g : Group) {n : Nat} (h : n ≤ 255) (m : Nat) : (g.clrFlag n).flag m = (!decide (m = n) && g.flag m) := by
  have hbit : (BitVec.ofNat 256 (2 ^ n)).getLsbD m = decide (m = n) := by
    rw [BitVec.getLsbD_ofNat, Nat.testBit_two_pow]
    by_cases hm : m = n
    · simp [hm]
      omega
    · simp [hm, Ne.symm hm]
  simp only [Group.flag, Group.clrFlag, BitVec.getLsbD_and, BitVec.getLsbD_not, hbit]
  by_cases hm : m < 256
  · simp [hm, Bool.and_comm]
  · rw [BitVec.getLsbD_of_ge _ _ (by omega)]
    simp

theorem Group.setFlag_setter (g : Group) (n k m : Nat) (h : m ≠ n) : (g.setFlag n k).work.setters.getD m 7 = g.work.setters.getD m 7 := by
  simp only [Group.setFlag, Vector.getD, Vector.toArray_setIfInBounds, Array.getD_eq_getD_getElem?,
    Array.getElem?_setIfInBounds_ne (Ne.symm h)]

theorem State.setFlag_same (s : State) {n : Nat} (hn : n ≤ 255) (k : Nat) (p : Aspect) (h : p ≠ .flag n) : s.same (s.onMe (·.setFlag n k)) p := by
  have h' := s.same_refl p
  cases p with
  | flag m =>
    have hm : m ≠ n := fun e => h (e ▸ rfl)
    exact ⟨(s.me.setFlag_flag hn k m).trans (by simp [hm]), s.me.setFlag_setter n k m hm⟩
  | regs => exact fun r => by cases r <;> rfl
  | _ => exact h'

theorem State.clrFlag_same (s : State) {n : Nat} (hn : n ≤ 255) (p : Aspect) (h : p ≠ .flag n) : s.same (s.onMe (·.clrFlag n)) p := by
  have h' := s.same_refl p
  cases p with
  | flag m =>
    have hm : m ≠ n := fun e => h (e ▸ rfl)
    exact ⟨(s.me.clrFlag_flag hn m).trans (by simp [hm]), rfl⟩
  | regs => exact fun r => by cases r <;> rfl
  | _ => exact h'

theorem fset_holds (y : BitVec 2) (n : BitVec 12) (c : Claim) (h : syncRow (.fset y n) = some c) : c.Holds (.fset y n) := by
  obtain rfl := Option.some.inj h
  refine plainItem_holds _ (fun s => show execFset y n s = _ from rfl) fun a _ hn => ?_
  refine ⟨_, if_neg (Nat.not_lt.2 hn), fun p hp => a.setFlag_same hn 0 p (by simpa using hp), fun s via => ?_⟩
  have hsame := State.closed_same s _ _ .c y via (.flag n.toNat) (State.same_refl (a.onMe (·.setFlag n.toNat 0)) _) (by simp) (by simp)
  refine ⟨hsame.1.trans ((a.me.setFlag_flag hn 0 _).trans (by simp)), hsame.2.trans ?_⟩
  simp only [State.me_onMe, Group.setFlag, Vector.getD, Vector.toArray_setIfInBounds, Array.getD_eq_getD_getElem?]
  rw [Array.getElem?_setIfInBounds_self_of_lt (by simp; omega)]
  rfl

theorem fclr_holds (y : BitVec 2) (n : BitVec 12) (c : Claim) (h : syncRow (.fclr y n) = some c) : c.Holds (.fclr y n) := by
  obtain rfl := Option.some.inj h
  refine plainItem_holds _ (fun s => show execFclr y n s = _ from rfl) fun a _ hn => ?_
  refine ⟨_, if_neg (Nat.not_lt.2 hn), fun p hp => a.clrFlag_same hn p (by simpa using hp), fun s via => ?_⟩
  have hsame := State.closed_same s _ _ .c y via (.flag n.toNat) (State.same_refl (a.onMe (·.clrFlag n.toNat)) _) (by simp) (by simp)
  exact ⟨hsame.1.trans ((a.me.clrFlag_flag hn _).trans (by simp)), hsame.2⟩

theorem ftest_holds (y : BitVec 2) (n : BitVec 12) (p : BitVec 3) (c : Claim) (h : syncRow (.ftest y n p) = some c) :
    c.Holds (.ftest y n p) := by
  obtain rfl := Option.some.inj h
  exact resultItem_holds _ (fun s => show execFtest y n p s = _ from rfl) fun a t hn =>
    ⟨a, if_neg (Nat.not_lt.2 hn), fun q _ => a.same_refl q, fun _ _ => trivial⟩

/-! ## FENCE, ARED, ATCLOSE -/

theorem fence_holds (y : BitVec 2) (k : BitVec 3) (c : Claim) (h : syncRow (.fence y k) = some c) : c.Holds (.fence y k) := by
  obtain rfl := Option.some.inj h
  refine checkedItem_holds (fun _ => causeIf (decide (5 ≤ k.toNat)) causeIllegal) _ (fun s => show execFence y k s = _ from rfl)
    (fun s hp => ?_) fun a _ hp => ⟨a, ?_, fun p _ => a.same_refl p, fun _ _ => trivial⟩
  · rw [causeIf, if_neg (by simpa using hp.1)]
  · rw [hp.2]
    rfl

/-- R174: ARED changes the accumulator store or an anchor. -/
theorem Store.ared_eq (m : Store) (k : BitVec 2) (w : Nat) (v : BitVec 64) : ∃ acc anchors, m.ared k w v = { m with acc := acc, anchors := anchors } := by
  unfold Store.ared
  split <;> exact ⟨_, _, rfl⟩

theorem State.ared_same (s : State) (k : BitVec 2) (w : Nat) (v : BitVec 64) (p : Aspect) (h : p ∉ [Aspect.acc, .anchors]) :
    s.same (s.onMe fun g => { g with store := g.store.ared k w v }) p := by
  have h' := s.same_refl p
  obtain ⟨acc, anchors, he⟩ := s.me.store.ared_eq k w v
  have hs : (s.onMe fun g => { g with store := g.store.ared k w v }) = { s with me := { s.me with store := s.me.store.ared k w v } } := rfl
  rw [hs, he]
  cases p with
  | acc => simp at h
  | anchors => simp at h
  | regs => exact fun r => by cases r <;> rfl
  | _ => exact h'

theorem State.aredCheck_ok {s : State} {k : BitVec 2} {w : Nat} {v : BitVec 64} (h : s.aredOk k w v) : s.me.aredCheck k w v = .ok () := by
  have hok : w % aredWords k = 0 ∧ w + aredWords k ≤ 131072 ∧
      (if k = 3 then -1280 ≤ v.toInt ∧ v.toInt ≤ 960 else s.me.isPending true s.me.ident.core w (aredWords k) = false) := h
  obtain ⟨halign, hbound, hk⟩ := hok
  simp only [Group.aredCheck]
  rw [need_true (by simpa using halign), need_true (decide_eq_true (show w + aredWords k ≤ accWords from hbound))]
  split
  · next h3 =>
    rw [if_pos h3] at hk
    exact need_true (by simpa using hk) _ _
  · next h3 =>
    rw [if_neg h3] at hk
    exact need_true (by simpa using hk) _ _

theorem ared_holds (y : BitVec 2) (t b : BitVec 5) (k : BitVec 2) (c : Claim) (h : syncRow (.ared y t b k) = some c) :
    c.Holds (.ared y t b k) := by
  obtain rfl := Option.some.inj h
  refine plainItem_holds _ (fun s => show execAred y t b k s = _ from rfl) fun a _ hp => ?_
  refine ⟨_, ?_, fun p hn => a.ared_same k (a.me.sreg b).toNat (a.me.sreg t) p hn, fun s via => ?_⟩
  · exact ofChk_of_ok (State.aredCheck_ok hp) _
  · exact State.closed_store _ _ _ _ _

/-- R175: ATCLOSE. -/
theorem atclose_holds (y : BitVec 2) : (atcloseClaim y).Holds (.atclose y) := by
  refine Claim.holds_effect _ _ (fun _ => rfl) rfl (fun s => show execAtclose y s = _ from rfl) (fun a _ _ => ?_) (by simp [atcloseClaim])
    (by simp [atcloseClaim])
  refine ⟨_, rfl, ?_, fun p _ _ => State.same_refl _ p, fun _ _ => trivial⟩
  show a.me.SameCourse (if a.me.nivose = true then a.closeInterval else a).me
  split
  · exact a.closeInterval_undisturbed.toSameCourse
  · exact (Group.Undisturbed.refl _).toSameCourse

/-! ## FWAIT -/

theorem State.useToken_same (s : State) (p : Aspect) (h : p ≠ .tokens) : s.same s.useToken p := by
  have h' := s.same_refl p
  cases p with
  | tokens => exact absurd rfl h
  | regs => exact fun r => by cases r <;> rfl
  | _ => exact h'

theorem State.addBuf_same (s : State) (b : BitVec 8) (bytes stalls : Nat) (p : Aspect) (h : p ≠ .bufs) :
    s.same (s.onMe (·.addBuf b bytes stalls)) p := by
  have h' := s.same_refl p
  cases p with
  | bufs => exact absurd rfl h
  | regs => exact fun r => by cases r <;> rfl
  | _ => exact h'

theorem State.fwaitStall_same (s : State) (n : Nat) (p : Aspect) (h : p ≠ .bufs) : s.same (s.fwaitStall n) p := by
  unfold State.fwaitStall
  dsimp only
  split
  · exact s.same_refl p
  · exact s.addBuf_same _ _ _ p h

theorem State.observe_same (s : State) (n : Nat) (p : Aspect) (h : p ≠ .jobs) : s.same (s.onMe (·.observe n)) p := by
  have h' := s.same_refl p
  cases p with
  | jobs => exact absurd rfl h
  | regs => exact fun r => by cases r <;> rfl
  | _ => exact h'

/-- R184: after C has observed a flag, no complete job that sets it is left. -/
theorem Group.observe_jobs (g : Group) (n : Nat) (j : Job) (hj : j ∈ (g.observe n).work.jobs) :
    ¬(j.fl = true ∧ j.flag = n ∧ j.st = .complete) := by
  rintro ⟨hfl, hflag, hst⟩
  simp only [Group.observe, List.mem_filter, Bool.not_eq_true', Bool.and_eq_false_iff] at hj
  obtain ⟨hmem, hc⟩ := hj
  rcases hc with hc | hc
  · simp [hst] at hc
  · have hin : j.num ∈ (g.work.jobs.filter fun j => j.fl && j.flag == n && j.st == .complete).map (·.num) :=
      List.mem_map.2 ⟨j, List.mem_filter.2 ⟨hmem, by simp [hfl, hflag, hst]⟩, rfl⟩
    rw [List.contains_eq_mem, decide_eq_false_iff_not] at hc
    exact hc (List.mem_append_left _ hin)

/-- R177: FWAIT on a flag that is set. -/
theorem fwait_holds (y : BitVec 2) (n : BitVec 12) (p : BitVec 3) : (fwaitClaim y n p).Holds (.fwait y n p) := by
  refine Claim.holds_effect_result _ _ (fun _ => rfl) rfl (fun s => show execFwait y n p s = _ from rfl) (fun a t hpre => ?_)
    (by simp [fwaitClaim]) (by simp [fwaitClaim])
  obtain ⟨hn, htokens, hflag⟩ := hpre
  let record := (a.fwaitStall n.toNat).waitRecord 0 (a.me.work.setters.getD n.toNat 7).toNat n.toNat
  refine ⟨record.onMe (·.observe n.toNat), ?_,
    (Group.Undisturbed.refl _).toSameCourse, fun q hb hq => ?_, fun s via j hj => ?_⟩
  · rw [if_neg (Nat.not_lt.2 hn), if_neg (by simp [htokens]), if_pos hflag]
    rfl
  · simp only [fwaitClaim, List.mem_cons, List.not_mem_nil, or_false, not_or] at hq
    obtain ⟨hjobs, htrace, hsys⟩ := hq
    have hrecord : (a.fwaitStall n.toNat).same record q := State.waitRecord_same _ _ _ _ q htrace hsys
    exact State.same_trans _ _ _ _ (a.fwaitStall_same _ q hb) (State.same_trans _ _ _ _ hrecord (State.observe_same _ _ q hjobs))
  · have hjobs := (State.closed_result_same s (record.onMe (·.observe n.toNat)) .c y via (.p p) (.bit false) t 1 .jobs (by simp) (by simp)).1
    refine Group.observe_jobs record.me n.toNat j ?_
    show j ∈ (record.onMe (·.observe n.toNat)).me.work.jobs
    rw [← hjobs]
    exact hj

/-- R180: FWAIT with an error token. -/
theorem fwaitToken_holds (y : BitVec 2) (n : BitVec 12) (p : BitVec 3) : (fwaitTokenClaim y n p).Holds (.fwait y n p) := by
  refine Claim.holds_effect_result _ _ (fun _ => rfl) rfl (fun s => show execFwait y n p s = _ from rfl) (fun a t hpre => ?_)
    (by simp [fwaitTokenClaim]) (by simp [fwaitTokenClaim])
  obtain ⟨hn, htokens⟩ := hpre
  refine ⟨a.useToken.waitRecord 0 7 n.toNat, ?_, (Group.Undisturbed.refl _).toSameCourse, fun q _ hq => ?_, fun s via => ?_⟩
  · rw [if_neg (Nat.not_lt.2 hn), if_pos htokens]
    rfl
  · simp only [fwaitTokenClaim, List.mem_cons, List.not_mem_nil, or_false, not_or] at hq
    obtain ⟨htok, htrace, hsys⟩ := hq
    exact State.same_trans _ _ _ _ (a.useToken_same q htok) (State.waitRecord_same _ _ _ _ q htrace hsys)
  · refine (State.closed_result_same s _ .c y via (.p p) (.bit true) t 1 .tokens (by simp) (by simp)).trans ?_
    exact State.waitRecord_same a.useToken 0 7 n.toNat .tokens (by simp) (by simp)

theorem syncRow_holds (i : Instr) (c : Claim) : syncRow i = some c → c.Holds i := by
  cases i with
  | fence => exact fence_holds _ _ c
  | ared => exact ared_holds _ _ _ _ c
  | fset => exact fset_holds _ _ c
  | fclr => exact fclr_holds _ _ c
  | ftest => exact ftest_holds _ _ _ c
  | _ => exact noRow

/-- R177: a flag above 255 is out of bounds for each of the four. -/
theorem flag_outOfBounds {s : State} {y : BitVec 2} {n : BitVec 12} (hr : s.Ready .c y []) (hn : 255 < n.toNat) (p : BitVec 3) :
    exec (.fset y n) s = .next (s.trapAt .c causeBounds 0 0 false) ∧ exec (.fclr y n) s = .next (s.trapAt .c causeBounds 0 0 false) ∧
      exec (.ftest y n p) s = .next (s.trapAt .c causeBounds 0 0 false) ∧
      exec (.fwait y n p) s = .next (s.trapAt .c causeBounds 0 0 false) := by
  refine ⟨?_, ?_, ?_, ?_⟩
  · exact (show exec _ s = execFset y n s from rfl).trans (issue_trap _ _ _ _ _ _ _ _ hr rfl (if_pos hn))
  · exact (show exec _ s = execFclr y n s from rfl).trans (issue_trap _ _ _ _ _ _ _ _ hr rfl (if_pos hn))
  · exact (show exec _ s = execFtest y n p s from rfl).trans (issue_trap _ _ _ _ _ _ _ _ hr rfl (if_pos hn))
  · exact (show exec _ s = execFwait y n p s from rfl).trans (issue_trap _ _ _ _ _ _ _ _ hr rfl (if_pos hn))

theorem fwait_waits {s : State} {y : BitVec 2} {n : BitVec 12} {p : BitVec 3} (hr : s.Ready .c y []) (hn : n.toNat ≤ 255)
    (htokens : s.me.work.tokens = 0) (hflag : s.me.flag n.toNat = false) : ∃ t, exec (.fwait y n p) s = .next t ∧ s.Waits .c t := by
  have htokens' : (s.arrived .c y).me.work.tokens = 0 := (s.arrived_same .c y .tokens (by simp) (by simp)).trans htokens
  have hflag' : (s.arrived .c y).me.flag n.toNat = false := (s.arrived_same .c y (.flag n.toNat) (by simp) (by simp)).1.trans hflag
  refine ⟨_, (show exec _ s = execFwait y n p s from rfl).trans (issue_wait _ _ _ _ _ hr ?_), s.waits_stall _ _⟩
  rw [if_neg (Nat.not_lt.2 hn), if_neg (by simp [htokens']), hflag']
  rfl

theorem fence_stops {s : State} {y : BitVec 2} {k : BitVec 3} (hr : s.Ready .c y []) :
    (k.toNat < 5 → (s.arrived .c y).fenceWaits k.toNat = true → ∃ t, exec (.fence y k) s = .next t ∧ s.Waits .c t) ∧
      (5 ≤ k.toNat → exec (.fence y k) s = .next (s.trapAt .c causeIllegal 0 0 false)) := by
  have hx : exec (.fence y k) s = issuePre (causeIf (decide (5 ≤ k.toNat)) causeIllegal) .c y [] s fun s _ =>
      if s.fenceWaits k.toNat then .wait else .done s := show execFence y k s = _ from rfl
  rw [hx]
  refine ⟨fun hk hwaits => ⟨_, ?_, s.waits_stall _ none⟩, fun hk => ?_⟩
  · rw [issuePre_good (by rw [causeIf, if_neg (by simpa using hk)])]
    exact issue_wait _ _ _ _ _ hr (if_pos hwaits)
  · rw [causeIf, if_pos (by simpa using hk)]
    exact issuePre_trap hr _ _

/-- Settles O27: each instruction by its claim, and where FWAIT and FENCE wait and the flags' instructions trap. -/
theorem flagsAndFences : Obligations.FlagsAndFences := by
  unfold Obligations.FlagsAndFences
  refine ⟨syncRow_holds, atclose_holds, fun y n p => ⟨fwait_holds y n p, fwaitToken_holds y n p, fun s hr => ⟨fun hn => ?_, fun hn => ?_⟩⟩,
    fun s y k hr => fence_stops hr⟩
  · exact flag_outOfBounds hr hn p
  · exact fwait_waits hr hn

/-! ## Acquire -/

theorem State.ownsHold_eq (s : State) : (fun h : SyncHold => h.isOf s.boot.modnum s.me.ident.launch s.me.ident.index) = s.ownsHold := rfl

theorem any_ownsHold_false {s : State} {l : List SyncHold} (h : ∀ x ∈ l, s.ownsHold x = false) :
    (l.any fun h => h.isOf s.boot.modnum s.me.ident.launch s.me.ident.index) = false :=
  List.any_eq_false.2 fun x hx => ne_true_of_eq_false (h x hx)

/-- The object with the group's own request in line. -/
def State.lineUp (s : State) (o : SyncObj) (ex : Bool) : SyncObj :=
  if o.waiters.any (fun h => h.isOf s.boot.modnum s.me.ident.launch s.me.ident.index) then o
  else { o with waiters := o.waiters ++ [s.myHold ex] }

theorem takeWhile_append_self {α : Type} [DecidableEq α] (l : List α) (x : α) :
    (l ++ [x]).takeWhile (fun w => w != x) = l.takeWhile fun w => w != x := by
  induction l with
  | nil => simp
  | cons y l ih =>
    simp only [List.cons_append, List.takeWhile_cons, ih]

theorem State.lineUp_takeWhile (s : State) (o : SyncObj) (ex : Bool) :
    ((s.lineUp o ex).waiters.takeWhile fun w => w != s.myHold ex) = o.waiters.takeWhile fun w => w != s.myHold ex := by
  unfold State.lineUp
  split
  · rfl
  · exact takeWhile_append_self _ _

theorem State.lineUp_filter (s : State) (o : SyncObj) (ex : Bool) :
    ((s.lineUp o ex).waiters.filter fun w => w != s.myHold ex) = o.waiters.filter fun w => w != s.myHold ex := by
  unfold State.lineUp
  split
  · rfl
  · simp

theorem State.lineUp_word (s t : State) (o : SyncObj) (ex : Bool) : t.objWord (s.lineUp o ex) = t.objWord o := by
  unfold State.lineUp
  split <;> rfl

/-- R166: a grant of the group's own request is what the manual says of it. -/
theorem State.grant_lineUp (s : State) (o : SyncObj) (ex : Bool) : s.grant (s.lineUp o ex) (s.myHold ex) = s.takeObj o ex := by
  have hput : ({ s.lineUp o ex with
      waiters := (s.lineUp o ex).waiters.filter (fun w => w != s.myHold ex), holders := (s.lineUp o ex).holders ++ [s.myHold ex] } : SyncObj) =
      { o with holders := o.holders ++ [s.myHold ex], waiters := o.waiters.filter fun w => w != s.myHold ex } := by
    rw [s.lineUp_filter]
    unfold State.lineUp
    split <;> rfl
  have hset (t : State) (w : BitVec 64) : t.setObjWord (s.lineUp o ex) w = t.setObjWord o w := by
    unfold State.lineUp
    split <;> rfl
  rw [State.grant, hput, hset, s.lineUp_word]
  rfl

theorem State.mayGrant_lineUp {s : State} {o : SyncObj} {ex : Bool} (h : s.canGrant o ex) : s.mayGrant (s.lineUp o ex) (s.myHold ex) = true := by
  obtain ⟨-, hfree, hex⟩ := h
  rw [State.mayGrant, s.lineUp_takeWhile, s.lineUp_word, grantable]
  cases ex with
  | true =>
    obtain ⟨hbefore, hzero⟩ := hex
    simp only [State.myHold, if_true, Bool.and_eq_true, beq_iff_eq] at hbefore ⊢
    exact ⟨⟨by rw [hbefore]; rfl, hfree⟩, hzero⟩
  | false =>
    simp only [State.myHold, Bool.false_eq_true, if_false, Bool.and_eq_true, beq_iff_eq, List.all_eq_true, Bool.not_eq_true'] at hex ⊢
    exact ⟨hex, hfree⟩

theorem State.takeObj_groups (s : State) (o : SyncObj) (ex : Bool) : s.KeepsGroups (s.takeObj o ex) :=
  (s.putObj_groups _).trans (State.setObjWord_groups _ _ _)

theorem acqHere_eq (s : State) (o : SyncObj) (p : BitVec 3) (ex : Bool) (t : Nat) : s.acqHere o p ex t =
    if o.holders.any (fun h => h.isOf s.boot.modnum s.me.ident.launch s.me.ident.index) then .trap causeIllegal 0 0
    else if s.me.work.tokens ≠ 0 then
      .done ((((s.putObj { o with waiters := o.waiters.filter fun w => !s.ownsHold w }).useToken).waitRecord 3 7 0).predicate p true t)
    else if s.mayGrant (s.lineUp o ex) (s.myHold ex) then
      .done (((s.grant (s.lineUp o ex) (s.myHold ex)).waitRecord 3 6 0).predicate p false t)
    else .waitWith (s.putObj (s.lineUp o ex)) := rfl

/-- R166: ACQ that is granted. -/
theorem acq_holds (y : BitVec 2) (d : BitVec 5) (p : BitVec 3) (x : BitVec 1) (key : Nat) : (acqClaim y d p x key).Holds (.acq y d p x) := by
  refine Claim.holds_effect_result _ _ (fun _ => rfl) rfl (fun s => show execAcq y d p x s = _ from rfl) (fun a t hpre => ?_)
    (by simp [acqClaim]) (by simp [acqClaim])
  obtain ⟨⟨hkey, hhome⟩, htokens, hholders, hgrant⟩ := hpre
  refine ⟨(a.takeObj (a.obj a.me.ident.ctx key) (x == 1)).waitRecord 3 6 0, ?_, (State.takeObj_groups _ _ _).undisturbed.toSameCourse,
    fun q _ hq => ?_, fun _ _ => trivial⟩
  · refine (ofChk_of_ok hkey _).trans ?_
    rw [if_pos hhome, acqHere_eq, if_neg (by rw [any_ownsHold_false hholders]; simp), if_neg (by simp [htokens]),
      if_pos (State.mayGrant_lineUp hgrant), State.grant_lineUp]
    rfl
  · simp only [acqClaim, List.mem_cons, List.not_mem_nil, or_false, not_or] at hq
    exact State.waitRecord_same _ _ _ _ q hq.1 hq.2

/-- R180: ACQ that an error token ends. -/
theorem acqToken_holds (y : BitVec 2) (d : BitVec 5) (p : BitVec 3) (x : BitVec 1) (key : Nat) :
    (acqTokenClaim y d p key).Holds (.acq y d p x) := by
  refine Claim.holds_effect_result _ _ (fun _ => rfl) rfl (fun s => show execAcq y d p x s = _ from rfl) (fun a t hpre => ?_)
    (by simp [acqTokenClaim]) (by simp [acqTokenClaim])
  obtain ⟨⟨hkey, hhome⟩, htokens, hholders⟩ := hpre
  let o := a.obj a.me.ident.ctx key
  let mid := a.putObj { o with waiters := o.waiters.filter fun w => !a.ownsHold w }
  refine ⟨mid.useToken.waitRecord 3 7 0, ?_, (State.putObj_groups _ _).undisturbed.toSameCourse, fun q _ hq => ?_, fun s via => ?_⟩
  · refine (ofChk_of_ok hkey _).trans ?_
    rw [if_pos hhome, acqHere_eq, if_neg (by rw [any_ownsHold_false hholders]; simp), if_pos htokens]
    rfl
  · simp only [acqTokenClaim, List.mem_cons, List.not_mem_nil, or_false, not_or] at hq
    obtain ⟨htok, htrace, hsys⟩ := hq
    exact State.same_trans _ _ _ _ (mid.useToken_same q htok) (State.waitRecord_same _ _ _ _ q htrace hsys)
  · refine (State.closed_result_same s _ .c y via (.p p) (.bit true) t 1 .tokens (by simp) (by simp)).trans ?_
    exact State.waitRecord_same mid.useToken 3 7 0 .tokens (by simp) (by simp)

/-- R165: ACQ of an object with its home elsewhere, whose grant has come. -/
theorem acqFar_holds (y : BitVec 2) (d : BitVec 5) (p : BitVec 3) (x : BitVec 1) (key : Nat) (k : SyncAsk) :
    (acqFarClaim y d p key k).Holds (.acq y d p x) := by
  refine Claim.holds_effect_result _ _ (fun _ => rfl) rfl (fun s => show execAcq y d p x s = _ from rfl) (fun a t hpre => ?_)
    (by simp [acqFarClaim]) (by simp [acqFarClaim])
  obtain ⟨hkey, hhome, htokens, hask, hheld, hgranted⟩ := hpre
  refine ⟨State.waitRecord { a with links := { a.links with asks := a.links.asks.map fun (b : SyncAsk) =>
      if b.tag = k.tag then { b with isHeld := true } else b } } 3 6 0, ?_, (State.OnlyLinks.of_links a _).groups.undisturbed.toSameCourse,
    fun q _ hq => ?_, fun _ _ => trivial⟩
  · refine (ofChk_of_ok hkey _).trans ?_
    rw [if_neg (by simp [hhome]), State.acqThere]
    simp only [hask, hheld, htokens, hgranted, Bool.false_eq_true, if_false, ne_eq, not_true_eq_false, if_true]
    rfl
  · simp only [acqFarClaim, List.mem_cons, List.not_mem_nil, or_false, not_or] at hq
    exact State.waitRecord_same _ _ _ _ q hq.1 hq.2

/-! ## Release -/

theorem State.dropObj_groups (s : State) (o : SyncObj) (ex : Bool) : s.KeepsGroups (s.dropObj o ex) :=
  (s.putObj_groups _).trans (State.setObjWord_groups _ _ _)

/-- R166: the end of the group's one hold is what the manual says of it. -/
theorem State.letGo_own {s : State} {o : SyncObj} {h : SyncHold} (hone : o.holders.filter s.ownsHold = [h]) :
    s.letGo o s.boot.modnum s.me.ident.launch s.me.ident.index .rel = s.dropObj o h.ex := by
  rw [State.letGo]
  simp only [s.ownsHold_eq, hone]
  rfl

theorem rel_exec {y : BitVec 2} {d : BitVec 5} {s : State} : exec (.rel y d) s = issue .c y [.s d] s fun s _ =>
    match (s.objKey s.me.ident.ctx (s.me.sreg d).toNat).bind s.relOf with
    | none => .trap causeIllegal 0 0
    | some t => if s.relWaits then .wait else .done t := rfl

theorem rel_holds (y : BitVec 2) (d : BitVec 5) (key : Nat) (ex : Bool) : (relClaim y d key ex).Holds (.rel y d) := by
  refine Claim.holds_effect _ _ (fun _ => rfl) rfl (fun s => rel_exec) (fun a t hpre => ?_) (by simp [relClaim]) (by simp [relClaim])
  obtain ⟨hkey, hhome, hwaits, h, hone, rfl⟩ := hpre
  refine ⟨_, ?_, (State.dropObj_groups _ _ _).undisturbed.toSameCourse, fun q _ _ => State.same_refl _ q, fun _ _ => trivial⟩
  have hany : (a.obj a.me.ident.ctx key).holders.any (fun h => h.isOf a.boot.modnum a.me.ident.launch a.me.ident.index) = true := by
    have hmem : h ∈ (a.obj a.me.ident.ctx key).holders.filter a.ownsHold := by simp [hone]
    obtain ⟨hin, hown⟩ := List.mem_filter.1 hmem
    exact List.any_eq_true.2 ⟨h, hin, hown⟩
  have hrel : a.relOf key = some (a.dropObj (a.obj a.me.ident.ctx key) h.ex) := by
    simp only [State.relOf, hhome, if_true, hany, State.letGo_own hone]
  simp only [hkey, Option.bind_some, hrel, hwaits, Bool.false_eq_true, if_false]
  rfl

theorem relFar_holds (y : BitVec 2) (d : BitVec 5) (key : Nat) (k : SyncAsk) : (relFarClaim y d key k).Holds (.rel y d) := by
  refine Claim.holds_effect _ _ (fun _ => rfl) rfl (fun s => rel_exec) (fun a t hpre => ?_) (by simp [relFarClaim]) (by simp [relFarClaim])
  obtain ⟨hkey, hhome, hwaits, hask, hheld⟩ := hpre
  refine ⟨_, ?_, (State.dropAsk_onlyLinks _ _ _).groups.undisturbed.toSameCourse, fun q _ _ => State.same_refl _ q, fun _ _ => trivial⟩
  have hrel : a.relOf key = some (a.dropAsk k .rel) := by
    simp only [State.relOf, hhome, Bool.false_eq_true, if_false, hask, Option.filter, hheld, if_true, Option.map_some]
  simp only [hkey, Option.bind_some, hrel, hwaits, Bool.false_eq_true, if_false]
  rfl

/-! ## Where ACQ and REL trap -/

theorem acq_trap {s : State} {y : BitVec 2} {d : BitVec 5} {p : BitVec 3} {x : BitVec 1} (hr : s.Ready .c y [.s d]) {cause va : Nat}
    (h : (s.arrived .c y).objCheck ((s.arrived .c y).me.sreg d).toNat = .error (cause, va)) :
    exec (.acq y d p x) s = .next (s.trapAt .c cause 0 va false) :=
  (show exec _ s = execAcq y d p x s from rfl).trans (issue_trap _ _ _ _ _ _ _ _ hr rfl (ofChk_of_error h _))

theorem State.objCheck_unaligned {s : State} {va : Nat} (h : va % 8 ≠ 0) : s.objCheck va = .error (causeAlign, va) := by
  rw [State.objCheck, need_false (by simpa using h)]
  rfl

theorem State.objCheck_unmapped {s : State} {va : Nat} (h : va % 8 = 0) (hm : 2 ^ 56 ≤ va ∨ s.leafOf s.me.ident.ctx va = none) :
    s.objCheck va = .error (causeBounds, va) := by
  have hnone : (if va < 2 ^ 56 then s.leafOf s.me.ident.ctx va else none) = none := by
    rcases hm with hm | hm
    · rw [if_neg (by omega)]
    · rw [hm, ite_self]
  rw [State.objCheck, need_true (by simpa using h), hnone]
  rfl

theorem acq_held {s : State} {y : BitVec 2} {d : BitVec 5} {p : BitVec 3} {x : BitVec 1} (hr : s.Ready .c y [.s d]) {key : Nat}
    (hkey : (s.arrived .c y).homeObj ((s.arrived .c y).me.sreg d).toNat key)
    (hheld : ∃ h ∈ ((s.arrived .c y).obj (s.arrived .c y).me.ident.ctx key).holders, (s.arrived .c y).ownsHold h = true) :
    exec (.acq y d p x) s = .next (s.trapAt .c causeIllegal 0 0 false) := by
  refine (show exec _ s = execAcq y d p x s from rfl).trans (issue_trap _ _ _ _ _ _ _ _ hr rfl ?_)
  obtain ⟨hok, hhome⟩ := hkey
  refine (ofChk_of_ok hok _).trans ?_
  rw [if_pos hhome]
  exact (acqHere_eq ..).trans (if_pos (List.any_eq_true.2 hheld))

theorem rel_trap {s : State} {y : BitVec 2} {d : BitVec 5} (hr : s.Ready .c y [.s d])
    (h : ((s.arrived .c y).objKey (s.arrived .c y).me.ident.ctx ((s.arrived .c y).me.sreg d).toNat).bind (s.arrived .c y).relOf = none) :
    exec (.rel y d) s = .next (s.trapAt .c causeIllegal 0 0 false) := by
  refine rel_exec.trans (issue_trap _ _ _ _ _ _ _ _ hr rfl ?_)
  rw [h]

/-- Settles O26: ACQ and REL by their claims, here and elsewhere, and by the checks that they fail. -/
theorem acquireRelease : Obligations.AcquireRelease := by
  unfold Obligations.AcquireRelease
  refine ⟨fun y d p x key => ⟨acq_holds y d p x key, acqToken_holds y d p x key, acqFar_holds y d p x key⟩,
    fun y d key => ⟨rel_holds y d key, relFar_holds y d key⟩, ?_⟩
  intro s y d p x hr u va
  refine ⟨fun key hkey hheld => acq_held hr hkey hheld, fun key hkey hhome hfree => rel_trap hr ?_, fun hkey => rel_trap hr ?_,
    fun halign => acq_trap hr (State.objCheck_unaligned halign), fun halign hm => acq_trap hr (State.objCheck_unmapped halign hm)⟩
  · rw [hkey, Option.bind_some, State.relOf]
    dsimp only
    rw [if_pos hhome, if_neg (by rw [any_ownsHold_false hfree]; simp)]
  · rw [hkey]
    rfl

/-! ## Barriers -/

theorem barwait_exec {y : BitVec 2} {n : BitVec 12} {p : BitVec 3} {s : State} : exec (.barwait y n p) s = execBarwait y n p s := rfl

theorem Group.joinedTo_none {g : Group} {n : Nat} : g.joinedTo n = none ↔ ∀ j ∈ g.work.joined, j.bar ≠ n := by
  simp [Group.joinedTo, List.find?_eq_none]

/-- R179: BARJOIN. -/
theorem barjoin_holds (y : BitVec 2) (n : BitVec 12) (r : BitVec 5) (b : Barrier) : (barjoinClaim y n r b).Holds (.barjoin y n r) := by
  refine Claim.holds_effect _ _ (fun _ => rfl) rfl (fun s => show execBarjoin y n r s = _ from rfl) (fun a t hpre => ?_)
    (by simp [barjoinClaim]) (by simp [barjoinClaim])
  obtain ⟨hbar, hbytes, hfree⟩ := hpre
  have hcourse := (a.barJoin n.toNat b (a.me.sreg r)).noteJoins_undisturbed
  refine ⟨_, ?_, ?_, fun q _ _ => State.same_refl _ q, fun s via => ?_⟩
  · have hnone : a.me.joinedTo n.toNat = none := Group.joinedTo_none.2 hfree
    simp only [hbar, hnone, Nat.not_le.2 hbytes, if_false, Option.isSome_none, Bool.false_eq_true]
    rfl
  · refine Group.SameCourse.trans ?_ hcourse.toSameCourse
    exact ⟨fun _ => rfl, ⟨rfl, rfl, rfl, rfl⟩, rfl⟩
  · have hjoined : (s.closed (a.barJoin n.toNat b (a.me.sreg r)).noteJoins .c y via).me.work.joined =
        (a.barJoin n.toNat b (a.me.sreg r)).noteJoins.me.work.joined :=
      State.closed_same _ _ _ _ _ _ .joined (State.same_refl _ _) (by simp) (by simp)
    have hmem : n.toNat ∈ ((a.barJoin n.toNat b (a.me.sreg r)).noteJoins.me.work.joined).map (·.bar) := by
      rw [hcourse.joined]
      simp [State.barJoin]
    obtain ⟨j, hj, hjn⟩ := List.mem_map.1 hmem
    refine ⟨j, ?_, hjn⟩
    show j ∈ (s.closed (a.barJoin n.toNat b (a.me.sreg r)).noteJoins .c y via).me.work.joined
    rw [hjoined]
    exact hj

theorem State.barReturn_course (s : State) (bar setter : Nat) (closed : Bool) : s.me.SameCourse (s.barReturn bar setter closed).me := by
  have hleave : s.me.SameCourse ((s.waitRecord 2 setter bar).onMe (·.leave bar)).me :=
    (s.waitRecord_undisturbed 2 setter bar).toSameCourse.trans ⟨fun _ => rfl, ⟨rfl, rfl, rfl, rfl⟩, rfl⟩
  unfold State.barReturn
  dsimp only
  split
  · exact hleave.trans (State.closeInterval_undisturbed _).toSameCourse
  · exact hleave

/-- R319: after the return the group has left the barrier. -/
theorem State.barReturn_left (s : State) (bar setter : Nat) (closed : Bool) : ∀ j ∈ (s.barReturn bar setter closed).me.work.joined, j.bar ≠ bar := by
  have hleave : ∀ j ∈ ((s.waitRecord 2 setter bar).onMe (·.leave bar)).me.work.joined, j.bar ≠ bar := by
    intro j hj
    have hj' := (List.mem_filter.1 hj).2
    simpa using hj'
  have hmap : ((s.barReturn bar setter closed).me.work.joined).map (·.bar) =
      (((s.waitRecord 2 setter bar).onMe (·.leave bar)).me.work.joined).map (·.bar) := by
    unfold State.barReturn
    dsimp only
    split
    · exact (State.closeInterval_undisturbed _).joined
    · rfl
  intro j hj hbar
  have hin : bar ∈ (((s.waitRecord 2 setter bar).onMe (·.leave bar)).me.work.joined).map (·.bar) :=
    hmap ▸ List.mem_map.2 ⟨j, hj, hbar⟩
  obtain ⟨k, hk, hkn⟩ := List.mem_map.1 hin
  exact hleave k hk hkn

/-- R318, R319: where a joined barrier's BARWAIT returns, what it does. -/
theorem barwait_returns {a : State} {n : BitVec 12} {p : BitVec 3} {j : Joined} {err token : Bool} (t : Nat)
    (hj : a.me.joinedTo n.toNat = some j)
    (h : if token = true then (a.bar a.me.ident.ctx n.toNat).isSome = true ∧ a.me.work.tokens ≠ 0 ∧ err = true ∧
        (j.waiting = false ∨ j.result = none)
      else j.result = some err ∧ (j.waiting = true ∨ ((a.bar a.me.ident.ctx n.toNat).isSome = true ∧ a.me.work.tokens = 0))) :
    (match a.bar a.me.ident.ctx n.toNat, a.me.joinedTo n.toNat with
      | none, none => Effect.trap causeBounds 0 0
      | some _, none => .trap causeIllegal 0 0
      | b, some j =>
        if j.waiting && j.result.isSome then
          .done ((a.barReturn n.toNat (if j.result = some true then 7 else 6) j.closed).predicate p (j.result = some true) t)
        else if b.isNone then .trap causeBounds 0 0
        else if a.me.work.tokens ≠ 0 then .done ((a.useToken.barReturn n.toNat 7 j.closed).predicate p true t)
        else
          match j.result with
          | some r => .done ((a.barReturn n.toNat (if r then 7 else 6) j.closed).predicate p r t)
          | none => .waitWith (a.onMe (·.standsAt n.toNat))) =
      .done (((if token = true then a.useToken else a).barReturn n.toNat (if err = true then 7 else 6) j.closed).predicate p err t) := by
  rw [hj]
  cases token with
  | true =>
    obtain ⟨hbar, htokens, rfl, hwait⟩ := h
    obtain ⟨b, hb⟩ := Option.isSome_iff_exists.1 hbar
    have hstands : (j.waiting && j.result.isSome) = false := by
      rcases hwait with hw | hw <;> simp [hw]
    simp [hb, hstands, htokens]
  | false =>
    obtain ⟨hres, hwait⟩ := h
    by_cases hw : j.waiting = true
    · cases a.bar a.me.ident.ctx n.toNat <;> cases err <;> simp [hres, hw]
    · obtain ⟨hbar, htokens⟩ := hwait.resolve_left hw
      obtain ⟨b, hb⟩ := Option.isSome_iff_exists.1 hbar
      simp [hb, hres, hw, htokens]

theorem barwait_holds (y : BitVec 2) (n : BitVec 12) (p : BitVec 3) (j : Joined) (err token : Bool) :
    (barwaitClaim y n p j err token).Holds (.barwait y n p) := by
  refine Claim.holds_effect_result _ _ (fun _ => rfl) rfl (fun s => show execBarwait y n p s = _ from rfl) (fun a t hpre => ?_)
    (by simp [barwaitClaim]) (by simp [barwaitClaim])
  obtain ⟨hj, hret⟩ := hpre
  refine ⟨_, barwait_returns t hj hret, ?_, fun q _ _ => State.same_refl _ q, fun s via k hk => ?_⟩
  · refine Group.SameCourse.trans ?_ (State.barReturn_course _ _ _ _)
    cases token
    · exact (Group.Undisturbed.refl _).toSameCourse
    · exact ⟨fun _ => rfl, ⟨rfl, rfl, rfl, rfl⟩, rfl⟩
  · let u := (if token = true then a.useToken else a).barReturn n.toNat (if err = true then 7 else 6) j.closed
    have hjoined : (s.closed (u.result .c (.p p) (.bit err) t 1) .c y via).me.work.joined = u.me.work.joined :=
      State.closed_result_same s u .c y via (.p p) (.bit err) t 1 .joined (by simp) (by simp)
    refine State.barReturn_left _ _ _ _ k (?_ : k ∈ u.me.work.joined)
    rw [← hjoined]
    exact hk

/-! ## Where BARWAIT stands, and where the barriers' instructions trap -/

theorem State.arrived_bar (s : State) (e : Engine) (y : BitVec 2) (ctx n : Nat) : (s.arrived e y).bar ctx n = s.bar ctx n := rfl

theorem State.arrived_ident (s : State) (e : Engine) (y : BitVec 2) : (s.arrived e y).me.ident = s.me.ident :=
  s.arrived_same e y .ident (by simp) (by simp)

theorem State.arrived_joined (s : State) (e : Engine) (y : BitVec 2) : (s.arrived e y).me.work.joined = s.me.work.joined :=
  s.arrived_same e y .joined (by simp) (by simp)

theorem State.arrived_tokens (s : State) (e : Engine) (y : BitVec 2) : (s.arrived e y).me.work.tokens = s.me.work.tokens :=
  s.arrived_same e y .tokens (by simp) (by simp)

theorem issue_waitWith {e : Engine} {y : BitVec 2} {srcs : List Reg} {s u : State} {body : State → Nat → Effect}
    (h : s.Ready e y srcs) (hb : body (s.arrived e y) (s.issueAt e y) = .waitWith u) : issue e y srcs s body = .next (u.stall e none) := by
  rw [issue, issueWith_ready _ _ _ _ _ _ h, hb]
  rfl

/-- R179: C stands in its BARWAIT. -/
theorem barwait_stands {s : State} {y : BitVec 2} {n : BitVec 12} {p : BitVec 3} (hr : s.Ready .c y [])
    (hj : ∃ j, s.me.work.joined.find? (fun j => j.bar == n.toNat) = some j ∧ j.result = none)
    (hbar : (s.bar s.me.ident.ctx n.toNat).isSome = true) (htokens : s.me.work.tokens = 0) :
    ∃ t, exec (.barwait y n p) s = .next t ∧ s.Stands y n t := by
  obtain ⟨j, hfind, hresult⟩ := hj
  obtain ⟨b, hb⟩ := Option.isSome_iff_exists.1 hbar
  have hfind' : (s.arrived .c y).me.joinedTo n.toNat = some j := by
    rw [Group.joinedTo, s.arrived_joined]
    exact hfind
  have hexec : exec (.barwait y n p) s = .next (((s.arrived .c y).onMe (·.standsAt n.toNat)).stall .c none) := by
    refine barwait_exec.trans (issue_waitWith hr ?_)
    rw [s.arrived_bar, s.arrived_ident, hb, hfind', s.arrived_tokens, htokens]
    simp [hresult]
  have heng : (((s.arrived .c y).onMe (·.standsAt n.toNat)).stall .c none).eng .c =
      { (s.arrived .c y).eng .c with waiting := some (((s.arrived .c y).eng .c).waiting.getD s.time.now), waitBuf := none } :=
    State.onEng_eng _ .c _
  rw [State.arrived_eng] at heng
  refine ⟨_, hexec, ?_⟩
  constructor
  case joined =>
    refine ((State.onEng_same _ .c _ .joined (by simp)) : _ = _).trans ?_
    show ((s.arrived .c y).me.standsAt n.toNat).work.joined = _
    rw [Group.standsAt, s.arrived_joined]
  case rest =>
    intro q hq
    simp only [List.mem_cons, List.not_mem_nil, or_false, not_or] at hq
    obtain ⟨hc, -, hjoined⟩ := hq
    refine State.same_trans _ _ _ _ ?_ (State.onEng_same _ .c _ q hc)
    have h' := (s.arrived .c y).same_refl q
    cases q with
    | joined => exact absurd rfl hjoined
    | regs => exact fun r => by cases r <;> rfl
    | _ => exact h'
  all_goals rw [heng]

theorem barwait_trap {s : State} {y : BitVec 2} {n : BitVec 12} {p : BitVec 3} (hr : s.Ready .c y [])
    (hfree : ∀ j ∈ s.me.work.joined, j.bar ≠ n.toNat) : exec (.barwait y n p) s =
      .next (s.trapAt .c (if (s.bar s.me.ident.ctx n.toNat).isSome = true then causeIllegal else causeBounds) 0 0 false) := by
  have hnone : (s.arrived .c y).me.joinedTo n.toNat = none := by
    rw [Group.joinedTo_none, s.arrived_joined]
    exact hfree
  refine barwait_exec.trans (issue_trap _ _ _ _ _ _ _ _ hr rfl ?_)
  rw [hnone, s.arrived_bar, s.arrived_ident]
  cases s.bar s.me.ident.ctx n.toNat <;> rfl

theorem barjoin_trap {s : State} {y : BitVec 2} {n : BitVec 12} {r : BitVec 5} (hr : s.Ready .c y [.s r]) :
    ((s.bar s.me.ident.ctx n.toNat = none ∨ 2 ^ 40 ≤ ((s.arrived .c y).me.sreg r).toNat) →
      exec (.barjoin y n r) s = .next (s.trapAt .c causeBounds 0 0 false)) ∧
    ((s.bar s.me.ident.ctx n.toNat).isSome = true → ((s.arrived .c y).me.sreg r).toNat < 2 ^ 40 →
      (∃ j ∈ s.me.work.joined, j.bar = n.toNat) → exec (.barjoin y n r) s = .next (s.trapAt .c causeIllegal 0 0 false)) := by
  have hexec : exec (.barjoin y n r) s = execBarjoin y n r s := rfl
  refine ⟨fun h => hexec.trans (issue_trap _ _ _ _ _ _ _ _ hr rfl ?_), fun hbar hbytes hj => hexec.trans (issue_trap _ _ _ _ _ _ _ _ hr rfl ?_)⟩
  · rw [s.arrived_bar, s.arrived_ident]
    cases hb : s.bar s.me.ident.ctx n.toNat with
    | none => rfl
    | some b => exact if_pos (h.resolve_left (by simp [hb]))
  · obtain ⟨b, hb⟩ := Option.isSome_iff_exists.1 hbar
    have hsome : ((s.arrived .c y).me.joinedTo n.toNat).isSome = true := by
      rw [← Option.ne_none_iff_isSome, Ne, Group.joinedTo_none, s.arrived_joined]
      exact fun hfree => hj.elim fun j hj => hfree j hj.1 hj.2
    rw [s.arrived_bar, s.arrived_ident, hb]
    exact (if_neg (Nat.not_le.2 hbytes)).trans (if_pos hsome)

/-- Settles O28: BARJOIN and BARWAIT by their claims, and where they stand or trap. -/
theorem barrierInstructions : Obligations.BarrierInstructions := by
  unfold Obligations.BarrierInstructions
  exact ⟨barjoin_holds, barwait_holds,
    fun s y n p hr => ⟨fun hj hbar htokens => barwait_stands hr hj hbar htokens, fun hfree => barwait_trap hr hfree⟩,
    fun s y n r hr => barjoin_trap hr⟩

end Sys2Proof.Machine
end

section
-- One declaration after another: the whole text is checked in one process, of bounded memory.
set_option Elab.async false
/-! SUPPORT. Commands of C (09_engine_commands R182 to R206): jobs, routines, counters, work entries and generator windows. -/

namespace Sys2Proof.Machine

/-! ## Items that put a result of variable latency in flight -/

theorem State.lateResult_eng (s : State) (r : Reg) (v : Val) (land : Nat) (buf : Option (BitVec 8)) (req interval : Option Nat) :
    (s.lateResult r v land buf req interval).eng .c =
      { s.eng .c with
        flight := ((s.eng .c).flight.filter fun o => !(o.reg == r && o.late)) ++ [lateFlight r v land buf req interval] } := by
  obtain ⟨hand, h⟩ := s.me.fly_eq .c (lateFlight r v land buf req interval)
  show (s.me.fly .c (lateFlight r v land buf req interval)).eng.get .c = _
  rw [h]
  exact Engines.get_set s.me.eng .c _

theorem State.lateResult_same (s : State) (r : Reg) (v : Val) (land : Nat) (buf : Option (BitVec 8)) (req interval : Option Nat)
    (p : Aspect) (h : p ≠ .engine .c) : s.same (s.lateResult r v land buf req interval) p := by
  obtain ⟨hand, hf⟩ := s.me.fly_eq .c (lateFlight r v land buf req interval)
  have h' := s.same_refl p
  have hs : s.lateResult r v land buf req interval = { s with me := s.me.fly .c (lateFlight r v land buf req interval) } := rfl
  rw [hs, hf]
  cases p with
  | engine f => exact Engines.get_set_ne _ _ _ _ fun hh => h (hh ▸ rfl)
  | regs => exact fun r => by cases r <;> rfl
  | _ => exact h'

/-- An item of C that promises a late result, besides an operation. The item may do more (`w`) behind its result, in parts that the claim
names. -/
theorem Claim.holds_late (c : Claim) {i : Instr} {r : Reg} {v : State → Val} {lat : State → Nat} (f : State → Nat → Effect) (hc : c.eng = .c)
    (hflow : ∀ s, c.flow s = .straight) (hres : c.result = .late r v lat)
    (hx : ∀ s, c.pre (s.arrived .c c.y) → exec i s = issue .c c.y c.srcs s f)
    (hb : ∀ (a : State) (t : Nat), c.pre a → ∃ u buf req interval w,
      f a t = .done w ∧ a.me.SameCourse (c.does a).me ∧ (∀ p, p ≠ .bufs → p ∉ c.parts → (c.does a).same u p) ∧
      (∀ p, p ≠ .bufs → p ∉ c.parts → (u.lateResult r (v (c.does a)) (t + lat (c.does a)) buf req interval).same w p) ∧
      ∀ (s : State) (via : Bool), c.post (c.does a) (s.closed w .c c.y via))
    (he : Aspect.engine .c ∉ c.parts) (hp : Aspect.phase ∉ c.parts) : c.Holds i := by
  intro s hr hpre
  obtain ⟨e, y, srcs, pre, does, flow, result, parts, post⟩ := c
  obtain rfl : e = .c := hc
  obtain ⟨u, buf, req, interval, w, hf, hcourse, hframe, hafter, hpost⟩ := hb (s.arrived .c y) (s.issueAt .c y) hpre
  refine ⟨_, (hx s hpre).trans (issue_done _ _ _ _ _ _ hr hf), Claim.done_of _ s w _ (hflow _) ?_ (hpost s _)⟩
  have heng : u.eng .c = (does (s.arrived .c y)).eng .c := hframe _ (by simp) he
  have hweng : w.eng .c = { (does (s.arrived .c y)).eng .c with
      flight := (((does (s.arrived .c y)).eng .c).flight.filter fun o => !(o.reg == r && o.late)) ++
        [lateFlight r (v (does (s.arrived .c y))) (s.issueAt .c y + lat (does (s.arrived .c y))) buf req interval] } :=
    (hafter _ (by simp) he).trans ((State.lateResult_eng ..).trans (by rw [heng]))
  have hsame (p : Aspect) (hpe : p ≠ .engine .c) (hpb : p ≠ .bufs) (hpp : p ∉ parts) : (does (s.arrived .c y)).same w p :=
    State.same_trans _ _ _ _ (hframe p hpb hpp) (State.same_trans _ _ _ _ (State.lateResult_same _ _ _ _ _ _ _ p hpe) (hafter p hpb hpp))
  refine ⟨.of_course hcourse _, ⟨_, hweng⟩, State.same_trans _ _ _ .phase hcourse.phase (hsame _ (by simp) (by simp) hp), ?_, fun p hn => ?_⟩
  · rw [hres]
    exact ⟨_, rfl, rfl, rfl, rfl, rfl, congrArg EngineState.flight hweng⟩
  · simp only [List.mem_cons, not_or] at hn
    exact hsame p hn.1 hn.2.1 hn.2.2

theorem State.roomForResult_cFull {s : State} (h : s.roomForResult) : s.cFull = false := decide_eq_false (Nat.not_le.2 h)

/-! ## Counters -/

/-- R196: a change of a counter touches counters, contexts and the front end. -/
theorem State.evalTriggers_same (s : State) (n : Nat) (p : Aspect) (h : p ∉ [Aspect.contexts, .frontEnd]) : s.same (s.evalTriggers n) p := by
  have h' := s.same_refl p
  cases p with
  | contexts => simp at h
  | frontEnd => simp at h
  | _ => exact h'

theorem State.withCtrs_same (s : State) (l : List (Nat × Counter)) (p : Aspect) (h : p ≠ .counters) : s.same { s with ctrs := l } p := by
  have h' := s.same_refl p
  cases p with
  | counters => exact absurd rfl h
  | _ => exact h'

theorem State.ctr_eq (s : State) (n : Nat) : s.ctr n = ((assocGet s.ctrs n).map (·.val)).getD 0 := by
  rw [State.ctr]
  cases assocGet s.ctrs n <;> rfl

theorem State.setCtr_same (s : State) (n : Nat) (v : BitVec 64) (k : Nat) (p : Aspect) (h : p ∉ [Aspect.counters, .contexts, .frontEnd]) :
    s.same (s.setCtr n v k) p :=
  State.same_trans _ _ _ _ (s.withCtrs_same _ p fun e => h (e ▸ List.mem_cons_self)) (State.evalTriggers_same _ _ p (List.not_mem_of_not_mem_cons h))

theorem State.addCtr_same (s : State) (n : Nat) (v : BitVec 64) (k : Nat) (p : Aspect) (h : p ∉ [Aspect.counters, .contexts, .frontEnd]) :
    s.same (s.addCtr n v k) p :=
  State.same_trans _ _ _ _ (s.withCtrs_same _ p fun e => h (e ▸ List.mem_cons_self)) (State.evalTriggers_same _ _ p (List.not_mem_of_not_mem_cons h))

theorem State.setCtr_ctr (s : State) (n : Nat) (v : BitVec 64) (k m : Nat) : (s.setCtr n v k).ctr m = if m = n then v else s.ctr m := by
  rw [State.ctr_eq, State.ctr_eq]
  show ((assocGet (assocSet s.ctrs n _) m).map _).getD 0 = _
  rw [assocGet_assocSet]
  by_cases h : m = n <;> simp [h]

theorem State.addCtr_ctr (s : State) (n : Nat) (v : BitVec 64) (k m : Nat) :
    (s.addCtr n v k).ctr m = if m = n then s.ctr n + v else s.ctr m := by
  rw [State.ctr_eq, State.ctr_eq s m, State.ctr_eq s n]
  show ((assocGet (assocSet s.ctrs n _) m).map _).getD 0 = _
  rw [assocGet_assocSet]
  by_cases h : m = n
  · cases hc : assocGet s.ctrs n <;> simp [h]
  · simp [h]

theorem State.needCtr_granted {s : State} {n : BitVec 12} {e : Engine} {y : BitVec 2} (h : (s.arrived e y).granted n.toNat = true) :
    s.needCtr n = none := by
  rw [s.arrived_granted] at h
  simp [State.needCtr, causeIf, h]

theorem State.closed_ctr (s u : State) (e : Engine) (y : BitVec 2) (via : Bool) (n : Nat) : (s.closed u e y via).ctr n = u.ctr n := by
  have hctrs : (s.closed u e y via).ctrs = u.ctrs := State.closed_same _ _ _ _ _ _ .counters (State.same_refl _ _) (by simp) (by simp)
  rw [State.ctr, State.ctr, hctrs]

theorem cntset_holds (y : BitVec 2) (n : BitVec 12) (r : BitVec 5) (c : Claim) (h : counterRow (.cntset y n r) = some c) :
    c.Holds (.cntset y n r) := by
  obtain rfl := Option.some.inj h
  refine checkedItem_holds (fun s => s.needCtr n) _ (fun s => show execCntset y n r s = _ from rfl) (fun s hp => State.needCtr_granted hp.1)
    fun a _ hp => ⟨_, if_neg (by simp [hp.2]), fun p hn => a.setCtr_same _ _ _ p hn, fun s via => ?_⟩
  simp only [State.closed_ctr, State.setCtr_ctr, if_true, true_and]
  exact fun k hk => if_neg hk

theorem cntadd_holds (y : BitVec 2) (n : BitVec 12) (r : BitVec 5) (ix : BitVec 1) (c : Claim) (h : counterRow (.cntadd y n r ix) = some c) :
    c.Holds (.cntadd y n r ix) := by
  obtain rfl := Option.some.inj h
  refine checkedItem_holds (fun s => s.needCtr n) _ (fun s => show execCntadd y n r ix s = _ from rfl) (fun s hp => State.needCtr_granted hp.1)
    fun a _ hp => ⟨_, if_neg (by simp [hp.2]), fun p hn => a.addCtr_same _ _ _ p hn, fun s via => ?_⟩
  simp only [State.closed_ctr, State.addCtr_ctr, if_true]
  refine ⟨?_, fun k hk => if_neg hk⟩
  by_cases hix : ix = 1
  · simp only [if_pos hix, BitVec.ofNat_toNat]
  · simp only [if_neg hix]

theorem cntwait_holds (y : BitVec 2) (n : BitVec 12) (r : BitVec 5) (c : Claim) (h : counterRow (.cntwait y n r) = some c) :
    c.Holds (.cntwait y n r) := by
  obtain rfl := Option.some.inj h
  refine checkedItem_holds (fun s => s.needCtr n) _ (fun s => show execCntwait y n r s = _ from rfl) (fun s hp => State.needCtr_granted hp.1)
    fun a _ hp => ⟨_, if_pos (BitVec.le_def.2 hp.2), fun p hn => ?_, fun _ _ => trivial⟩
  simp only [List.mem_cons, List.not_mem_nil, or_false, not_or] at hn
  exact a.waitRecord_same _ _ _ p hn.1 hn.2

theorem cntread_holds (y : BitVec 2) (n : BitVec 12) (d : BitVec 5) (c : Claim) (h : counterRow (.cntread y n d) = some c) :
    c.Holds (.cntread y n d) := by
  obtain rfl := Option.some.inj h
  refine Claim.holds_late _ (fun s t => if s.cFull then .wait
    else .done (s.lateResult (.s d) (.word (s.ctr n.toNat)) (t + queryLatency) none none none)) rfl (fun _ => rfl) rfl (fun s hp => ?_)
    (fun a t hp => ⟨a, none, none, none, _, if_neg (by simp [State.roomForResult_cFull hp.2]), (Group.Undisturbed.refl _).toSameCourse,
      fun p _ _ => a.same_refl p, fun p _ _ => State.same_refl _ p, fun _ _ => trivial⟩) (by simp) (by simp)
  exact (show exec _ s = execCntread y n d s from rfl).trans (issuePre_good (State.needCtr_granted hp.1) ..)

theorem counterRow_holds (i : Instr) (c : Claim) : counterRow i = some c → c.Holds i := by
  cases i with
  | cntset => exact cntset_holds _ _ _ c
  | cntadd => exact cntadd_holds _ _ _ _ c
  | cntwait => exact cntwait_holds _ _ _ c
  | cntread => exact cntread_holds _ _ _ c
  | _ => exact noRow

theorem counterUse_exec {i : Instr} {y : BitVec 2} {n : BitVec 12} {srcs : List Reg} (h : counterUse i = some (y, n, srcs)) :
    ∃ f, ∀ s, exec i s = issuePre (s.needCtr n) .c y srcs s f := by
  revert h
  cases i with
  | cntset => intro h; cases h; exact ⟨_, fun s => show execCntset y n _ s = _ from rfl⟩
  | cntadd => intro h; cases h; exact ⟨_, fun s => show execCntadd y n _ _ s = _ from rfl⟩
  | cntwait => intro h; cases h; exact ⟨_, fun s => show execCntwait y n _ s = _ from rfl⟩
  | cntread => intro h; cases h; exact ⟨_, fun s => show execCntread y n _ s = _ from rfl⟩
  | _ => exact noRow

/-- Settles O30: the counters by their claims, and PRIV of a counter that is not granted. -/
theorem counters : Obligations.Counters := by
  unfold Obligations.Counters
  refine ⟨counterRow_holds, fun i y n srcs h s hr hg => ?_⟩
  obtain ⟨f, hf⟩ := counterUse_exec h
  rw [s.arrived_granted] at hg
  rw [hf, State.needCtr, causeIf, if_pos (by simp [hg])]
  exact issuePre_trap hr _ _

/-! ## Checks that pass -/

theorem chk_bind_ok {α β : Type} {m : Chk α} {f : α → Chk β} {b : β} (h : (m >>= f) = .ok b) : ∃ a, m = .ok a ∧ f a = .ok b := by
  cases m with
  | error e => cases h
  | ok a => exact ⟨a, rfl, h⟩

theorem need_ok {b : Bool} {c va : Nat} {u : Unit} (h : need b c va = .ok u) : b = true := by
  cases b
  · cases h
  · rfl

/-- R202: a work entry that passes its checks is posted to a context that exists. -/
theorem State.entryCheck_ctx {s : State} {ctx : Nat} {nivose : Bool} {r : List Byte} {w : WEntry} (h : s.entryCheck ctx nivose r = .ok w) :
    ∃ c, s.ctx ctx = some c := by
  obtain ⟨_, -, h⟩ := chk_bind_ok h
  obtain ⟨_, -, h⟩ := chk_bind_ok h
  obtain ⟨_, -, h⟩ := chk_bind_ok h
  obtain ⟨_, -, h⟩ := chk_bind_ok h
  obtain ⟨_, hgrant, -⟩ := chk_bind_ok h
  obtain ⟨c, hc, -⟩ := Option.any_eq_true _ _ |>.1 (need_ok hgrant)
  exact ⟨c, hc⟩

/-! ## Work entries -/

theorem State.onCtx_same (s : State) (n : Nat) (f : Context → Context) (p : Aspect) (h : p ≠ .contexts) : s.same (s.onCtx n f) p := by
  have h' := s.same_refl p
  cases p with
  | contexts => exact absurd rfl h
  | _ => exact h'

theorem State.countWq_same (s : State) (p : Aspect) (h : p ≠ .wq) : s.same s.countWq p := by
  have h' := s.same_refl p
  cases p with
  | wq => exact absurd rfl h
  | regs => exact fun r => by cases r <;> rfl
  | _ => exact h'

theorem State.onCtx_ctx (s : State) (n : Nat) (f : Context → Context) : (s.onCtx n f).ctx n = (s.ctx n).map f := assocGet_assocMap _ _ _

theorem State.onCtx_ctx_some {s : State} {n : Nat} {c : Context} (h : s.ctx n = some c) (f : Context → Context) :
    (s.onCtx n f).ctx n = some (f c) := (s.onCtx_ctx n f).trans (congrArg (Option.map f) h)

theorem assocGet_assocMap_some {α : Type} {l : List (Nat × α)} {k : Nat} {x : α} (h : assocGet l k = some x) (f : α → α) :
    assocGet (assocMap l k f) k = some (f x) := (assocGet_assocMap l k f).trans (congrArg (Option.map f) h)

theorem State.closed_ctx (s u : State) (e : Engine) (y : BitVec 2) (via : Bool) (n : Nat) : (s.closed u e y via).ctx n = u.ctx n := by
  have hctxs : (s.closed u e y via).ctxs = u.ctxs := State.closed_same _ _ _ _ _ _ .contexts (State.same_refl _ _) (by simp) (by simp)
  rw [State.ctx, State.ctx, hctxs]

theorem State.closed_slotOf (s u : State) (e : Engine) (y : BitVec 2) (via : Bool) (ctx n : Nat) :
    (s.closed u e y via).slotOf ctx n = u.slotOf ctx n := by
  rw [State.slotOf, State.slotOf, State.closed_ctx]

theorem State.closed_wqCount (s u : State) (e : Engine) (y : BitVec 2) (via : Bool) :
    (s.closed u e y via).me.work.wqCount = u.me.work.wqCount :=
  State.closed_same _ _ _ _ _ _ .wq (State.same_refl _ _) (by simp) (by simp)

/-- R198: the evaluation of a slot at arming changes its state alone, from ARMED to FIRING. -/
theorem WSlot.evaluate_eq (x : WSlot) (s : State) (st : CtxSt) : x.evaluate s st = x ∨ x.evaluate s st = { x with st := .firing } := by
  unfold WSlot.evaluate
  split
  · split
    · exact .inr rfl
    · unfold WSlot.trigger
      split
      · exact .inr rfl
      · exact .inl rfl
  · exact .inl rfl

theorem WSlot.evaluate_armed {x : WSlot} (h : x.st = .armed) (s : State) (st : CtxSt) : (x.evaluate s st).entry = x.entry ∧
    (x.evaluate s st).thr = x.thr ∧ ((x.evaluate s st).st = .armed ∨ (x.evaluate s st).st = .firing) := by
  rcases x.evaluate_eq s st with he | he <;> rw [he]
  · exact ⟨rfl, rfl, .inl h⟩
  · exact ⟨rfl, rfl, .inr rfl⟩

theorem State.arm_slotArmed {s : State} {ctx : Nat} {c : Context} (hc : s.ctx ctx = some c) {x : WSlot} (hx : x.st = .armed) :
    (s.arm ctx x).slotArmed ctx x.entry.slot x.entry x.thr := by
  have hslot : ∃ y : WSlot, (s.arm ctx x).slotOf ctx x.entry.slot = some (y.evaluate s c.st) ∧ y.st = .armed ∧ y.entry = x.entry ∧ y.thr = x.thr := by
    rw [State.slotOf, State.arm, State.onCtx_ctx, hc]
    simp only [Option.map_some, Option.bind_some, Context.slot, assocGet_assocSet, if_true]
    refine ⟨_, rfl, ?_⟩
    split
    · exact ⟨hx, rfl, rfl⟩
    · exact ⟨hx, rfl, rfl⟩
  obtain ⟨y, hy, hst, hentry, hthr⟩ := hslot
  obtain ⟨h1, h2, h3⟩ := WSlot.evaluate_armed hst s c.st
  exact ⟨_, hy, h1.trans hentry, h2.trans hthr, h3⟩

theorem wqpost_holds (y : BitVec 2) (a : BitVec 5) (r : List Byte) (w : WEntry) : (wqpostClaim y a r w).Holds (.wqpost y a) := by
  refine plainItem_holds _ (fun s => show execWqpost y a s = _ from rfl) fun m _ ⟨hrec, hchk, hstrap, hwait⟩ =>
    ⟨(m.arm m.me.ident.ctx (armedSlot w (some m.me.ident.index) m.me.ident.launch m.me.bufTag)).countWq, ?_, fun p hn => ?_, fun s via => ?_⟩
  · dsimp only
    rw [ofChk_of_ok hrec, ofChk_of_ok hchk, hstrap]
    exact if_neg (by simp [hwait])
  · simp only [List.mem_cons, List.not_mem_nil, or_false, not_or] at hn
    exact State.same_trans _ _ _ _ (m.onCtx_same _ _ p hn.1) (State.countWq_same _ p hn.2)
  · obtain ⟨c, hc⟩ := State.entryCheck_ctx hchk
    obtain ⟨x, hx⟩ := State.arm_slotArmed hc (x := armedSlot w (some m.me.ident.index) m.me.ident.launch m.me.bufTag) rfl
    exact ⟨⟨x, (State.closed_slotOf ..).trans hx.1, hx.2⟩, State.closed_wqCount ..⟩

/-- R198: a slot that WQARM arms again at a threshold. -/
def WSlot.again (v : BitVec 64) (x : WSlot) : WSlot :=
  { x with st := .armed, thr := v, left := x.entry.rearm, failed := false, cancel := false }

/-- R198: the contexts once WQARM has armed a slot again. -/
def State.rearmed (s : State) (n : Nat) (v : BitVec 64) : State :=
  s.onCtx s.me.ident.ctx fun c => { c with slots := assocMap c.slots n fun x => (x.again v).evaluate s c.st }

theorem execWqarm_eq (y : BitVec 2) (n : BitVec 12) (a : BitVec 5) (s : State) : exec (.wqarm y n a) s = issue .c y [.s a] s fun s _ =>
    match s.mySlot n.toNat with
    | none => .trap causeIllegal 0 0
    | some x => if x.st = .done then s.afterAccesses fun s => .done (s.rearmed n.toNat (s.me.sreg a)).countWq else .trap causeIllegal 0 0 := rfl

theorem State.rearmed_slotOf {s : State} {n : Nat} {x : WSlot} (h : s.slotOf s.me.ident.ctx n = some x) (v : BitVec 64) :
    ∃ st, (s.rearmed n v).slotOf s.me.ident.ctx n = some ((x.again v).evaluate s st) := by
  obtain ⟨c, hc, hcx⟩ := Option.bind_eq_some_iff.1 h
  exact ⟨c.st, Option.bind_eq_some_iff.2 ⟨_, State.onCtx_ctx_some hc _, assocGet_assocMap_some hcx fun x => (x.again v).evaluate s c.st⟩⟩

theorem wqarm_holds (y : BitVec 2) (n : BitVec 12) (a : BitVec 5) (x : WSlot) : (wqarmClaim y n a x).Holds (.wqarm y n a) := by
  refine plainItem_holds _ (execWqarm_eq y n a) fun m _ ⟨hslot, hdone, hwait⟩ =>
    ⟨(m.rearmed n.toNat (m.me.sreg a)).countWq, ?_, fun p hn => ?_, fun s via => ?_⟩
  · have hmine : m.mySlot n.toNat = some x := hslot
    simp [hmine, hdone, State.afterAccesses, hwait]
  · simp only [List.mem_cons, List.not_mem_nil, or_false, not_or] at hn
    exact State.same_trans _ _ _ _ (m.onCtx_same _ _ p hn.1) (State.countWq_same _ p hn.2)
  · obtain ⟨st, hst⟩ := State.rearmed_slotOf hslot (m.me.sreg a)
    exact ⟨⟨_, (State.closed_slotOf ..).trans hst, WSlot.evaluate_armed (x := x.again (m.me.sreg a)) rfl m st⟩, State.closed_wqCount ..⟩

theorem wqcancel_holds (y : BitVec 2) (n : BitVec 12) : (wqcancelClaim y n).Holds (.wqcancel y n) := by
  refine plainItem_holds _ (fun s => show execWqcancel y n s = _ from rfl) fun m _ _ =>
    ⟨_, rfl, fun p hn => m.onCtx_same _ _ p (by simpa using hn), fun s via x hx => ?_⟩
  obtain ⟨c, hc, hcx⟩ := Option.bind_eq_some_iff.1 hx
  have hnew : (m.onSlot m.me.ident.ctx n.toNat (·.cancelled)).slotOf m.me.ident.ctx n.toNat = some x.cancelled :=
    Option.bind_eq_some_iff.2 ⟨_, State.onCtx_ctx_some hc _, assocGet_assocMap_some hcx _⟩
  refine ⟨_, (State.closed_slotOf ..).trans hnew, ?_⟩
  unfold WSlot.cancelled
  split
  · next h => simp [h]
  · next h => simp [h]
  · next ha hf => exact ⟨(if_neg ha).symm, fun h => absurd h hf⟩

theorem slotStatus_isSlotStatus (x : WSlot) : IsSlotStatus x (slotStatus (some x)) := by
  have hst : x.st.code < 2 ^ 4 := by cases x.st <;> decide
  have hlast : x.last.code < 2 ^ 4 := by cases x.last <;> decide
  have hlosts : min x.losts 0xFFFF < 2 ^ 16 := by omega
  have hreason : x.reason % 16 < 2 ^ 4 := by omega
  have hfired := x.fired.isLt
  refine ⟨?_, ?_, ?_, ?_, ?_, ?_⟩
  all_goals
    refine extractLsb'_of_toNat ?_
    simp only [slotStatus, BitVec.toNat_ofNat, show (0 : BitVec 4).toNat = 0 from rfl]
    omega

theorem wqstat_holds (y : BitVec 2) (n : BitVec 12) (d : BitVec 5) :
    (wqstatClaim y d fun s => slotStatus (s.mySlot n.toNat)).Holds (.wqstat y n d) :=
  Claim.holds_late _ (fun s t => if s.cFull then .wait
    else .done (s.lateResult (.s d) (.word (slotStatus (s.mySlot n.toNat))) (t + queryLatency) none none none)) rfl (fun _ => rfl) rfl
    (fun s _ => show execWqstat y n d s = _ from rfl)
    (fun a t hp => ⟨a, none, none, none, _, if_neg (by simp [State.roomForResult_cFull hp]), (Group.Undisturbed.refl _).toSameCourse,
      fun p _ _ => a.same_refl p, fun p _ _ => State.same_refl _ p, fun _ _ => trivial⟩) List.not_mem_nil List.not_mem_nil

/-! ## Generator windows -/

theorem Group.mapHandles_undisturbed (g : Group) (f : Handle → Handle) : g.Undisturbed (g.mapHandles f) :=
  ⟨⟨fun e => by cases e <;> rfl, ⟨rfl, rfl, rfl, rfl⟩, rfl⟩, rfl⟩

theorem State.dropHandles_undisturbed (s : State) (ctx lo hi : Nat) : s.me.Undisturbed (s.dropHandles ctx lo hi).me := by
  refine s.mapGroups_undisturbed fun g => ?_
  split
  · exact g.mapHandles_undisturbed _
  · exact .refl g

/-- R206: the state once the window's old range is unmapped. -/
def State.genUnmapped (s : State) (w : Nat) : State :=
  match s.myCtx.bind fun c => assocGet c.gens w with
  | none => s
  | some o => s.dropHandles s.me.ident.ctx o.vbase (o.vbase + o.size)

theorem State.genUnmapped_undisturbed (s : State) (w : Nat) : s.me.Undisturbed (s.genUnmapped w).me := by
  unfold State.genUnmapped
  split
  · exact .refl _
  · exact s.dropHandles_undisturbed _ _ _

theorem State.genUnmapped_ctx (s : State) (w n : Nat) : (s.genUnmapped w).ctx n = s.ctx n := by
  unfold State.genUnmapped
  split <;> rfl

theorem State.genSet_eq (s : State) (w : Nat) (g : GenWin) : s.genSet s.me.ident.ctx w g =
    (s.genUnmapped w).onCtx s.me.ident.ctx fun c => { c with gens := if g.kind = 0 then assocDrop c.gens w else assocSet c.gens w g } := rfl

theorem gencfg_holds (y : BitVec 2) (w : BitVec 4) (a : BitVec 5) (r : List Byte) (g : GenWin) :
    (gencfgClaim y w a r g).Holds (.gencfg y w a) := by
  refine Claim.holds_effect _ _ (fun _ => rfl) rfl (fun s => show execGencfg y w a s = _ from rfl) (fun m _ ⟨hctx, hrec, hchk⟩ =>
    ⟨_, (ofChk_of_ok hrec _).trans (ofChk_of_ok hchk _), (m.genUnmapped_undisturbed w.toNat).toSameCourse, fun p _ hn => ?_, fun s via => ?_⟩)
    (by simp [gencfgClaim]) (by simp [gencfgClaim])
  · rw [State.genSet_eq]
    exact State.onCtx_same _ _ _ p (by simpa [gencfgClaim] using hn)
  · obtain ⟨c, hc⟩ := Option.isSome_iff_exists.1 hctx
    have hident : (m.genUnmapped w.toNat).me.ident = m.me.ident := (m.genUnmapped_undisturbed w.toNat).ident
    have hctx' : (m.genUnmapped w.toNat).ctx m.me.ident.ctx = some c := (m.genUnmapped_ctx _ _).trans hc
    have hnew : (m.genSet m.me.ident.ctx w.toNat g).ctx (m.genUnmapped w.toNat).me.ident.ctx = some
        { c with gens := if g.kind = 0 then assocDrop c.gens w.toNat else assocSet c.gens w.toNat g } := by
      rw [hident]
      exact State.onCtx_ctx_some hctx' _
    refine ⟨_, (State.closed_ctx ..).trans hnew, ?_⟩
    dsimp only
    split
    · exact (assocGet_assocDrop ..).trans (if_pos rfl)
    · exact (assocGet_assocSet ..).trans (if_pos rfl)

theorem geninv_holds (y : BitVec 2) (w : BitVec 4) : (geninvClaim y w).Holds (.geninv y w) := by
  refine plainItem_holds _ (fun s => show execGeninv y w s = _ from rfl) fun m _ _ =>
    ⟨_, rfl, fun p hn => m.onCtx_same _ _ p (by simpa using hn), fun s via c g hc hg => ?_⟩
  exact ⟨_, (State.closed_ctx ..).trans (State.onCtx_ctx_some hc _), assocGet_assocMap_some hg fun g => { g with gen := g.gen + 1 }⟩

/-- Settles O31: each instruction of work entries and of generator windows by its claim. -/
theorem workEntriesAndWindows : Obligations.WorkEntriesAndWindows := by
  unfold Obligations.WorkEntriesAndWindows
  refine ⟨wqpost_holds, wqarm_holds, wqcancel_holds, fun y n d => ⟨fun s => slotStatus (s.mySlot n.toNat), fun s x hx => ?_, fun s hs => ?_,
    wqstat_holds y n d⟩, gencfg_holds, geninv_holds⟩
  · have hmine : s.mySlot n.toNat = some x := hx
    show IsSlotStatus x (slotStatus (s.mySlot n.toNat))
    rw [hmine]
    exact slotStatus_isSlotStatus x
  · have hmine : s.mySlot n.toNat = none := hs
    exact congrArg slotStatus hmine

/-! ## Jobs and routines -/

/-- An item behind a check that its claim's condition lets pass, whose effect keeps to the parts that the claim names. -/
theorem Claim.holds_checked (c : Claim) {i : Instr} (f : State → Nat → Effect) (hflow : ∀ s, c.flow s = .straight) (hres : c.result = .none)
    (hdoes : ∀ s, c.does s = s) (hx : ∀ s, c.pre (s.arrived c.eng c.y) → exec i s = issue c.eng c.y c.srcs s f)
    (hb : ∀ (a : State) (t : Nat), c.pre a → ∃ u, f a t = .done u ∧
      (∀ p, p ≠ .bufs → p ∉ c.parts → a.same u p) ∧ ∀ (s : State) (via : Bool), c.post a (s.closed u c.eng c.y via))
    (he : Aspect.engine c.eng ∉ c.parts) (hp : Aspect.phase ∉ c.parts) : c.Holds i := by
  intro s hr hpre
  obtain ⟨e, y, srcs, pre, does, flow, result, parts, post⟩ := c
  obtain rfl : does = fun s => s := funext hdoes
  obtain ⟨u, hf, hframe, hpost⟩ := hb (s.arrived e y) (s.issueAt e y) hpre
  have heng : u.eng e = (s.arrived e y).eng e := hframe _ (by simp) he
  refine ⟨_, (hx s hpre).trans (issue_done _ _ _ _ _ _ hr hf), Claim.done_of _ s u _ (hflow _) ?_ (hpost s _)⟩
  refine ⟨.refl _ _, ⟨_, heng⟩, hframe _ (by simp) hp, ?_, fun p hn => ?_⟩
  · rw [hres]
    exact congrArg EngineState.flight heng
  · simp only [List.mem_cons, not_or] at hn
    exact hframe p hn.2.1 hn.2.2

/-- The parts that a job's issue changes. -/
theorem Group.issueJob_eq (g : Group) (c : Card) (after : List Nat) : ∃ jobs pend, g.issueJob c after =
    { g with work := { g.work with jobs := jobs, lastJob := g.nextJob, pend := pend } } := by
  unfold Group.issueJob Group.markPending
  dsimp only
  split <;> exact ⟨_, _, rfl⟩

theorem State.issueJob_same (s : State) (c : Card) (after : List Nat) (p : Aspect) (h : p ∉ [Aspect.jobs, .pend]) :
    s.same (s.onMe (·.issueJob c after)) p := by
  obtain ⟨jobs, pend, hj⟩ := s.me.issueJob_eq c after
  rw [show s.onMe (·.issueJob c after) = { s with me := s.me.issueJob c after } from rfl, hj]
  have h' := s.same_refl p
  cases p with
  | jobs => simp at h
  | pend => simp at h
  | regs => exact fun r => by cases r <;> rfl
  | _ => exact h'

theorem Group.issueJob_jobs (g : Group) (c : Card) (after : List Nat) : ∃ j ∈ (g.issueJob c after).work.jobs,
    j.num = g.nextJob ∧ j.kind = c.kind ∧ j.fl = c.fl ∧ j.flag = c.flag ∧ j.foots = c.foots ∧ j.st = .issued ∧ j.prog = 0 := by
  unfold Group.issueJob Group.markPending
  dsimp only
  split <;> exact ⟨_, List.mem_append_right _ (List.mem_singleton_self _), rfl, rfl, rfl, rfl, rfl, rfl, rfl⟩

theorem State.jobBytes_eq (s : State) (k : JobKind) : ∃ n free, s.jobBytes k = (n, { s with free := free }) := by
  cases k <;> exact ⟨_, _, rfl⟩

theorem State.withFree_same (s : State) (n : Nat) (p : Aspect) (h : p ≠ .free) : s.same { s with free := n } p := by
  have h' := s.same_refl p
  cases p with
  | free => exact absurd rfl h
  | _ => exact h'

/-- R182: a checked job with room for it is issued. -/
theorem State.startJob_issues {s : State} {c : Card} (hroom : s.me.incomplete < 64) (hframes : s.cardFrames c = .ok ()) : ∃ u,
    s.startJob c = .done u ∧ (∀ p, p ≠ .bufs → p ∉ [Aspect.jobs, .pend, .free] → s.same u p) ∧
    ∀ (m : State) (y : BitVec 2) (via : Bool), s.jobIssued (m.closed u .c y via) c := by
  obtain ⟨n, free, hbytes⟩ := s.jobBytes_eq c.kind
  let s1 : State := { s with free := free }
  let s2 : State := s1.onMe (·.addBuf s.me.bufTag n 0)
  refine ⟨s2.onMe (·.issueJob c (s.opensOn c.foots)), ?_, fun p hb hn => ?_, fun m y via => ?_⟩
  · rw [State.startJob, ofChk_of_ok hframes, if_neg (Nat.not_le.2 hroom), hbytes]
    rfl
  · simp only [List.mem_cons, List.not_mem_nil, or_false, not_or] at hn
    exact State.same_trans _ _ _ _ (s.withFree_same _ p hn.2.2) (State.same_trans _ _ _ _ (s1.addBuf_same _ _ _ p hb)
      (s2.issueJob_same _ _ p (by simp [hn.1, hn.2.1])))
  · have hjobs := State.closed_same m (s2.onMe (·.issueJob c (s.opensOn c.foots))) _ .c y via .jobs (State.same_refl _ _) (by simp) (by simp)
    obtain ⟨jobs, pend, hj⟩ := s2.me.issueJob_eq c (s.opensOn c.foots)
    refine ⟨hjobs.2.trans (congrArg (fun g : Group => g.work.lastJob) hj), ?_⟩
    obtain ⟨j, hmem, hj⟩ := s2.me.issueJob_jobs c (s.opensOn c.foots)
    exact ⟨j, hjobs.1 ▸ hmem, hj⟩

theorem jobx_holds (y : BitVec 2) (a : BitVec 5) (c : Card) : (jobxClaim y a c).Holds (.jobx y a) := by
  refine Claim.holds_checked _ _ (fun _ => rfl) rfl (fun _ => rfl) (fun s _ => show execJobx y a s = _ from rfl)
    (fun m _ ⟨hcard, hroom, hframes⟩ => ?_) (by simp [jobxClaim]) (by simp [jobxClaim])
  obtain ⟨u, hu, hsame, hpost⟩ := State.startJob_issues hroom hframes
  exact ⟨u, (ofChk_of_ok hcard _).trans hu, hsame, fun s via => hpost s y via⟩

theorem State.arrived_routine (s : State) (e : Engine) (y : BitVec 2) (h : Nat) : (s.arrived e y).routine h = s.routine h := by
  have hident : (s.arrived e y).me.ident = s.me.ident := s.arrived_ident e y
  simp only [State.routine, State.myCtx, hident]
  rfl

theorem State.arrived_nivose (s : State) (e : Engine) (y : BitVec 2) : (s.arrived e y).me.nivose = s.me.nivose := by
  have hsys : (s.arrived e y).me.sys = s.me.sys := s.arrived_same e y .sys (by simp) (by simp)
  rw [Group.nivose, hsys, Group.nivose]

theorem hProfileOk_iff (f : HForm) (pf : Nat) (r : Routine) (nivose : Bool) : hProfileOk f pf r nivose = true ↔ profileAllowed f pf r nivose := by
  simp [hProfileOk, profileAllowed, or_assoc, and_assoc]

theorem hIssue_holds {i : Instr} {f : HForm} {y : BitVec 2} {p : BitVec 4} {h : BitVec 6} {a : BitVec 5} {e : BitVec 3}
    (hx : ∀ s, exec i s = hIssue f y p h a e s) (r : Routine) (c : Card) : (hClaim f y p h a e r c).Holds i := by
  refine Claim.holds_checked _ (fun s _ => match s.routine h.toNat with
    | none => .trap causeIllegal 0 0
    | some r => ofChk (s.hCard f e.toNat h.toNat p.toNat r (s.me.sreg a).toNat) s.startJob) (fun _ => rfl) rfl (fun _ => rfl)
    (fun s ⟨heng, hrout, hprof, _⟩ => ?_) (fun m _ ⟨_, hrout, _, hcard, hroom, hframes⟩ => ?_) (by simp [hClaim]) (by simp [hClaim])
  · rw [s.arrived_routine] at hrout
    rw [s.arrived_nivose] at hprof
    refine (hx s).trans (issuePre_good ?_ ..)
    simp [State.hCode, causeIf, hrout, (hProfileOk_iff _ _ _ _).2 hprof, heng]
  · obtain ⟨u, hu, hsame, hpost⟩ := State.startJob_issues hroom hframes
    simp only [hrout]
    exact ⟨u, (ofChk_of_ok hcard _).trans hu, hsame, fun s via => hpost s y via⟩

theorem hRow_exec {i : Instr} {f : HForm} {y : BitVec 2} {p : BitVec 4} {h : BitVec 6} {a : BitVec 5} {e : BitVec 3}
    (hi : hRow i = some (f, y, p, h, a, e)) (s : State) : exec i s = hIssue f y p h a e s := by
  revert hi
  cases i with
  | hfold | hscan | hzip | houter => intro hi; cases hi; rfl
  | _ => exact noRow

theorem State.closed_routine (s u : State) (e : Engine) (y : BitVec 2) (via : Bool) (h : Nat) :
    (s.closed u e y via).routine h = u.routine h := by
  have hident : (s.closed u e y via).me.ident = u.me.ident := State.closed_same _ _ _ _ _ _ .ident (State.same_refl _ _) (by simp) (by simp)
  rw [State.routine, State.myCtx, State.closed_ctx, hident]
  rfl

theorem rdef_holds (y : BitVec 2) (h : BitVec 6) (a : BitVec 5) (r : List Byte) (x : Routine) :
    (rdefClaim y h a r x).Holds (.rdef y h a) := by
  refine plainItem_holds _ (fun s => show execRdef y h a s = _ from rfl) fun m _ ⟨hctx, hrec, hrout⟩ =>
    ⟨_, (ofChk_of_ok hrec _).trans (ofChk_of_ok hrout _), fun p hn => m.onCtx_same _ _ p (by simpa using hn), fun s via => ?_⟩
  obtain ⟨c, hc⟩ := Option.isSome_iff_exists.1 hctx
  exact (State.closed_routine ..).trans (Option.bind_eq_some_iff.2
    ⟨_, State.onCtx_ctx_some hc _, (assocGet_assocSet ..).trans (if_pos rfl)⟩)

theorem rdrop_holds (y : BitVec 2) (h : BitVec 6) : (rdropClaim y h).Holds (.rdrop y h) := by
  refine plainItem_holds _ (fun s => show execRdrop y h s = _ from rfl) fun m _ hfree =>
    ⟨_, if_neg (by simp [show m.handleBusy h.toNat = false from hfree]), fun p hn => m.onCtx_same _ _ p (by simpa using hn), fun s via => ?_⟩
  refine (State.closed_routine ..).trans ?_
  rw [State.routine, State.myCtx_onCtx]
  cases m.myCtx with
  | none => rfl
  | some c => exact (assocGet_assocDrop ..).trans (if_pos rfl)

/-- Settles O29: the jobs are issued, the routines set and cleared. -/
theorem jobsAndRoutines : Obligations.JobsAndRoutines :=
  ⟨jobx_holds, fun _ _ _ _ _ _ _ hi r c => hIssue_holds (hRow_exec hi) r c, rdef_holds, rdrop_holds⟩

end Sys2Proof.Machine
end

section
-- One declaration after another: the whole text is checked in one process, of bounded memory.
set_option Elab.async false
/-! SUPPORT. Traps, the return from a handler, THSET and the claim of the mesh (10_system R209 to R224). -/

namespace Sys2Proof.Machine

/-! ## Entering the handler (R211) -/

theorem Group.swapBank_sreg (g : Group) {n : BitVec 5} (h : 28 ≤ n.toNat) : g.swapBank.sreg n =
    match n.toNat with
    | 28 => g.bank.s28
    | 29 => g.bank.s29
    | 30 => g.bank.s30
    | _ => g.bank.s31 := by
  have hn := n.isLt
  have hcase : n = 28 ∨ n = 29 ∨ n = 30 ∨ n = 31 := by
    simp only [← BitVec.toNat_inj]
    simp
    omega
  rcases hcase with rfl | rfl | rfl | rfl <;> simp [Group.sreg, Group.swapBank]

theorem Group.swapBank_preg (g : Group) : g.swapBank.preg 7 = g.bank.p7 :=
  (getLsbD_setBit8 g.cr.p 7 7 g.bank.p7).trans (if_pos rfl)

theorem Group.swapBank_hreg (g : Group) : g.swapBank.hreg 15 = g.bank.h15 := by
  simp [Group.hreg, Group.swapBank]

/-- A trap's own record does not touch what it records. -/
theorem Group.enterHandler_eq (g : Group) : ∃ (cr : CRegs) (vr : VRegs) (hand : Handling), g.enterHandler =
    { ({ g with cr := cr, vr := { g.vr with v := vr.v, m := vr.m } } : Group).swapBank with
      phase := .handler, frames := [], hand := hand
      eng := g.eng.set .c { EngineState.placed with
        pc := .target .jump (g.handlerText % 2 ^ 64), clk := g.eng.c.clk, seq := g.eng.c.seq, w := g.eng.c.w } } := by
  obtain ⟨cr, vr, h⟩ := landAll_eq ((g.eng.c.flight.filter (·.arrived)).foldl (fun acc f => insertLand f acc) []) g
  unfold Group.enterHandler Group.stopC
  dsimp only
  rw [h]
  exact ⟨cr, vr, _, rfl⟩

theorem hasTrapVa_iff (c : Nat) : hasTrapVa c = true ↔ c ∈ [0x05, 0x06, 0x07, 0x08, 0x0A, 0x13] := by
  simp only [hasTrapVa, List.contains_iff_mem, List.mem_cons, List.not_mem_nil, or_false, causeAlign, causeBounds, causeHandleStale,
    causeSealStore, causeGenStore, causePending]
  omega

/-- R211, R214 to R216: a trap that goes to the handler. -/
theorem State.takeTrap_trapped {s : State} (hphase : s.me.phase ≠ .handler) (hbase : s.me.sys.thbase.getLsbD 0 = true)
    (eng cause info va addr : Nat) (b : Bool) : s.Trapped (s.takeTrap eng cause info va addr b) eng cause info va addr := by
  have htrap : s.takeTrap eng cause info va addr b = { s with me := (s.me.recordTrap eng cause info va addr).enterHandler } := by
    rw [State.takeTrap, if_neg hphase]
    exact if_pos hbase
  obtain ⟨cr, vr, hand, he⟩ := (s.me.recordTrap eng cause info va addr).enterHandler_eq
  rw [htrap, he]
  refine ⟨rfl, rfl, rfl, if_congr (hasTrapVa_iff cause) rfl rfl, rfl, rfl, rfl, rfl, rfl, rfl, ⟨rfl, rfl⟩, ⟨fun n hn => ?_, ?_, ?_⟩,
    fun e hne => Engines.get_set_ne _ _ _ _ hne, fun p hp => ?_⟩
  · exact Group.swapBank_sreg _ hn
  · exact Group.swapBank_preg _
  · exact Group.swapBank_hreg _
  · have h' := s.same_refl p
    simp only [List.mem_cons, List.not_mem_nil, or_false, not_or] at hp
    obtain ⟨hc, hregs, hframes, htraps, hbank, hphase, hclaimed⟩ := hp
    cases p with
    | engine f => exact Engines.get_set_ne _ _ _ _ fun hf => hc (hf ▸ rfl)
    | regs => exact absurd rfl hregs
    | frames => exact absurd rfl hframes
    | traps => exact absurd rfl htraps
    | bank => exact absurd rfl hbank
    | phase => exact absurd rfl hphase
    | claimed => exact absurd rfl hclaimed
    | _ => exact h'

/-! ## A fault without a handler (R212, R299, R301) -/

theorem State.event_groups (s : State) (cls a b c : Nat) : s.KeepsGroups (s.event cls a b c) := by
  unfold State.event
  split
  · exact .refl s
  · dsimp only
    split <;> exact ⟨rfl, rfl⟩

theorem State.evalTriggers_groups (s : State) (n : Nat) : s.KeepsGroups (s.evalTriggers n) := ⟨rfl, rfl⟩

theorem State.addCtr_groups (s : State) (n : Nat) (v : BitVec 64) (k : Nat) : s.KeepsGroups (s.addCtr n v k) := ⟨rfl, rfl⟩

theorem State.onLaunch_groups (s : State) (id : Nat) (f : Launch → Launch) : s.KeepsGroups (s.onLaunch id f) := ⟨rfl, rfl⟩

theorem State.writeRec_groups (s : State) (q entry index : Nat) (st : Status) : s.KeepsGroups (s.writeRec q entry index st) := by
  unfold State.writeRec
  split <;> exact ⟨rfl, rfl⟩

theorem flushOrdered_groups (q n : Nat) (s : State) : s.KeepsGroups (flushOrdered q n s) := by
  induction n generalizing s with
  | zero => exact .refl s
  | succ n ih =>
    unfold flushOrdered
    split
    · exact .refl s
    · exact ((s.writeRec_groups _ _ _ _).trans (State.onLaunch_groups _ _ _)).trans (ih _)

theorem State.flushRecs_groups (s : State) (q : Nat) : s.KeepsGroups (s.flushRecs q) := by
  unfold State.flushRecs
  split
  · exact .refl s
  · dsimp only
    split
    · exact State.KeepsGroups.foldl (fun t l => t.onLaunch_groups _ _) _ _
    · split
      · exact flushOrdered_groups _ _ _
      · exact State.KeepsGroups.foldl (fun t l =>
          (State.KeepsGroups.foldl (fun u r => u.writeRec_groups _ _ _ _) _ t).trans (State.onLaunch_groups _ _ _)) _ _

theorem State.settleCalendar_groups (s : State) (id : Nat) : s.KeepsGroups (s.settleCalendar id) := by
  unfold State.settleCalendar
  split
  · exact .refl s
  · dsimp only
    split
    · refine State.KeepsGroups.trans ?_ (State.event_groups _ _ _ _ _)
      split
      · split
        · exact (s.onLaunch_groups _ _).trans (State.addCtr_groups _ _ _ _)
        · exact s.onLaunch_groups _ _
      · exact s.onLaunch_groups _ _
    · exact .refl s

theorem State.settleLaunch_groups (s : State) (id : Nat) : s.KeepsGroups (s.settleLaunch id) := by
  unfold State.settleLaunch
  split
  · exact .refl s
  · split
    · exact s.flushRecs_groups _
    · exact s.settleCalendar_groups _

theorem State.writeCharges_groups (s : State) (ctx rid : Nat) : s.KeepsGroups (s.writeCharges ctx rid) := by
  unfold State.writeCharges
  split
  · exact .refl s
  · exact State.KeepsGroups.foldl (f := fun t r => (t.hbmPutVal _ _ _).hbmPutVal _ _ _) (fun t r => ⟨rfl, rfl⟩) _ _

theorem State.drainLaunch_groups (s : State) (id : Nat) : s.KeepsGroups (s.drainLaunch id) := by
  have h := State.settleLaunch_groups ((s.dropReserved id).onLaunch id fun l =>
    if l.st = .placing then { l.cancelUnplaced with st := .draining } else l) id
  exact ⟨h.me, h.rest⟩

/-- R299: a group that completes has the phase and the status that it completes with. -/
theorem State.endGroup_phase (s : State) (ph : Phase) (st : Status) (abandon : Bool) :
    (s.endGroup ph st abandon).me.phase = ph ∧ (s.endGroup ph st abandon).me.status = st := by
  unfold State.endGroup
  dsimp only
  generalize (s.releaseHolds s.me.ident.launch s.me.ident.index (if abandon then .abandon else .rel)).trace 5 5 0 _ _ = s2
  generalize hs3 : (State.report _ _ _ _).settleLaunch _ = s3
  have hme : s3.me = { s2.me with phase := ph, status := st } := hs3 ▸ (State.settleLaunch_groups _ _).me
  have hend := (s3.writeCharges_groups s.me.ident.ctx (s3.me.sys.ctxinfo.toNat / 2 ^ 16 % 2 ^ 16)).undisturbed.trans
    (State.resolveIntervals_undisturbed _)
  obtain ⟨hphase, -, hstatus, -⟩ := hend.phase
  exact ⟨hphase.trans (by rw [hme]), hstatus.trans (by rw [hme])⟩

/-- R300: teardown retires the group in focus or leaves it. -/
theorem State.teardown_me (s : State) (i : Ident) : (s.teardown i).me = s.me ∨ (s.teardown i).me = { s.me with phase := .retired } := by
  unfold State.teardown
  dsimp only
  split
  · split
    · exact .inr rfl
    · exact .inl rfl
  · exact .inl rfl

/-- R212, R213, R267: the fault domain of a fault of the group in focus: 2 the context, 1 the region, 0 the group. -/
def State.faultDomain (s : State) (toCtx : Bool) : Nat :=
  match s.ctx s.me.ident.ctx with
  | some c => if toCtx then 2 else c.fdom (s.me.sys.ctxinfo.toNat / 2 ^ 16 % 2 ^ 16)
  | none => 0

/-- The group in focus freezes, FAULTED. -/
def State.faultedGroup (s : State) : State :=
  let t := (s.onMe fun g => { g.dropMesh with reason := 4 }).sendTokens.endGroup .frozen .faulted true
  t.saveControl t.me

theorem State.fatalFault_group {s : State} {toCtx : Bool} (h : s.faultDomain toCtx = 0) (cause addr : BitVec 64) :
    s.fatalFault toCtx cause addr = (s.faultedGroup.drainLaunch s.me.ident.launch).teardown s.me.ident := by
  have heq : s.fatalFault toCtx cause addr = State.teardown (match s.faultDomain toCtx with
      | 2 => s.faultedGroup.freezeCtx s.me.ident.ctx cause addr s.me.ident.index
      | 1 => s.faultedGroup.regionFault s.me.ident.ctx (s.me.sys.ctxinfo.toNat / 2 ^ 16 % 2 ^ 16) s.me.ident.launch
      | _ => s.faultedGroup.drainLaunch s.me.ident.launch) s.me.ident := rfl
  rw [heq, h]
  rfl

/-- R212, R267: a fault of a group whose fault domain is the group freezes it, as FAULTED. -/
theorem State.fatalFault_freezes {s : State} (h : ∀ c, s.ctx s.me.ident.ctx = some c → c.fdom (s.me.sys.ctxinfo.toNat / 2 ^ 16 % 2 ^ 16) = 0)
    (cause addr : BitVec 64) : ((s.fatalFault false cause addr).me.phase = .frozen ∨ (s.fatalFault false cause addr).me.phase = .retired) ∧
      (s.fatalFault false cause addr).me.status = .faulted := by
  have hdom : s.faultDomain false = 0 := by
    unfold State.faultDomain
    split
    · next c hc => exact h c hc
    · rfl
  rw [State.fatalFault_group hdom]
  have hgroup := State.endGroup_phase (s.onMe fun g => { g.dropMesh with reason := 4 }).sendTokens .frozen .faulted true
  obtain ⟨hphase, hstatus⟩ : s.faultedGroup.me.phase = .frozen ∧ s.faultedGroup.me.status = .faulted := hgroup
  have hdrain : (s.faultedGroup.drainLaunch s.me.ident.launch).me = s.faultedGroup.me := (State.drainLaunch_groups _ _).me
  rcases State.teardown_me (s.faultedGroup.drainLaunch s.me.ident.launch) s.me.ident with hme | hme
  · exact ⟨.inl (by rw [hme, hdrain, hphase]), by rw [hme, hdrain, hstatus]⟩
  · exact ⟨.inr (by rw [hme]), by rw [hme, hdrain, hstatus]⟩

theorem State.takeTrap_freezes {s : State} (hphase : s.me.phase = .running) (hbase : s.me.sys.thbase.getLsbD 0 = false)
    (hdom : ∀ c, s.ctx s.me.ident.ctx = some c → c.fdom (s.me.sys.ctxinfo.toNat / 2 ^ 16 % 2 ^ 16) = 0)
    (eng cause info va addr : Nat) (b : Bool) :
    ((s.takeTrap eng cause info va addr b).me.phase = .frozen ∨ (s.takeTrap eng cause info va addr b).me.phase = .retired) ∧
      (s.takeTrap eng cause info va addr b).me.status = .faulted := by
  have htrap : s.takeTrap eng cause info va addr b = (s.onMe (·.recordTrap eng cause info va addr)).fatalFault false
      (trapWord cause eng info) (BitVec.ofNat 64 addr) := by
    rw [State.takeTrap, if_neg (by rw [hphase]; decide)]
    exact if_neg (by rw [show (s.onMe (·.recordTrap eng cause info va addr)).me.sys = s.me.sys from rfl, hbase]; decide)
  rw [htrap]
  exact State.fatalFault_freezes (s := s.onMe (·.recordTrap eng cause info va addr)) hdom _ _

theorem engineOfTag_tag {n : Nat} {e : Engine} (h : engineOfTag n = some e) : e.tag = n := by
  unfold engineOfTag at h
  split at h <;> cases h <;> rfl

/-- Settles O33: what a trap saves and where C goes, without a handler the frozen group; TRAP and BRK. -/
theorem traps : Obligations.Traps := by
  unfold Obligations.Traps
  refine ⟨fun s eng cause info va addr b hp hb => State.takeTrap_trapped hp hb .., fun s eng cause info va addr b hp hb hd =>
    State.takeTrap_freezes hp hb hd .., fun s y d a hr hp hb => ⟨_, ?_, State.takeTrap_trapped hp hb _ _ _ _ _ false⟩,
    fun s y d e he hr hp hb => ⟨_, ?_, State.takeTrap_trapped hp hb _ _ _ _ _ false⟩, fun s y d he hr => ?_⟩
  · exact (show exec (.trap y d a) s = execTrap y d a s from rfl).trans (issue_trap _ _ _ _ _ _ _ _ hr rfl rfl)
  · rw [show exec (.brk y d) s = execBrk y d s from rfl, execBrk, he]
    exact issue_trap _ _ _ _ _ _ _ _ hr rfl rfl
  · rw [show exec (.brk y d) s = execBrk y d s from rfl, execBrk, he]
    exact issue_trap _ _ _ _ _ _ _ _ hr rfl rfl

/-! ## RFT -/

/-- A running group that has a handler and is not in it. -/
def outsideHandler : State :=
  { State.reset with me := { Group.blank 0 with phase := .running, sys := { (Group.blank 0).sys with thbase := 1 } } }

theorem outsideHandler_ready : outsideHandler.Ready .c 0 [] := ⟨by decide, by decide, by decide, by decide⟩

/-- Refutes O34: the mode of RFT is checked before privilege, so RFT with mode 3 outside a handler is ILLEGAL, where the statement asks
for PRIV whatever the mode is. -/
theorem not_returnFromTrap : ¬ Obligations.ReturnFromTrap := by
  unfold Obligations.ReturnFromTrap
  intro h
  obtain ⟨-, hpriv, -⟩ := h outsideHandler 0 3
  have hclaimed : exec (.rft 0 3) outsideHandler = .next (outsideHandler.trapAt .c causePriv 0 0 false) :=
    hpriv outsideHandler_ready (by decide)
  have hdone : exec (.rft 0 3) outsideHandler = .next (outsideHandler.trapAt .c causeIllegal 0 0 false) :=
    issue_trap .c 0 [] outsideHandler (fun _ _ => .trap causeIllegal 0 0) causeIllegal 0 0 outsideHandler_ready rfl rfl
  have hcause (c : Nat) : (outsideHandler.trapAt .c c 0 0 false).me.traps.cause = _ :=
    (State.takeTrap_trapped (s := outsideHandler) (by decide) (by decide) _ c 0 0 _ false).causeReg
  have hsame := congrArg (·.me.traps.cause) (next_inj (hdone.symm.trans hclaimed))
  rw [hcause, hcause] at hsame
  exact absurd hsame (by decide)

/-! ## THSET (R223) -/

theorem State.withSys_same (s : State) (x : SysRegs) (p : Aspect) (h : p ≠ .sys) : s.same (s.onMe fun g => { g with sys := x }) p := by
  have h' := s.same_refl p
  cases p with
  | sys => exact absurd rfl h
  | regs => exact fun r => by cases r <;> rfl
  | _ => exact h'

theorem thsetOff_holds (y : BitVec 2) (a b : BitVec 5) : (thsetOffClaim y a b).Holds (.thset y a b) := by
  refine checkedItem_holds State.badPriv _ (fun s => show execThset y a b s = _ from rfl) (fun s h => State.badPriv_of_syspriv h.1)
    fun u _ ⟨_, ha, hb⟩ => ⟨_, if_pos ⟨ha, hb⟩, fun p hn => u.withSys_same _ p (by simpa using hn), fun s via => ?_⟩
  have hsys := State.closed_same s (u.onMe fun g => { g with sys := { g.sys with thbase := 0, thstack := 0 } }) _ .c y via .sys
    (State.same_refl _ _) (by simp) (by simp)
  exact ⟨congrArg SysRegs.thbase hsys, congrArg SysRegs.thstack hsys⟩

/-- R211, R223: the handler's stack is put into C's registers in handler mode, else into the bank. -/
theorem Group.bankStack_eq (g : Group) (stack : BitVec 64) (h : Handle) : ∃ (cr : CRegs) (bank : Banked), g.bankStack stack h = { g with cr := cr, bank := bank } := by
  unfold Group.bankStack
  split
  · exact ⟨_, _, rfl⟩
  · exact ⟨_, _, rfl⟩

theorem Group.bankStack_handler {g : Group} (hp : g.phase = .handler) (stack : BitVec 64) (h : Handle) :
    (g.bankStack stack h).sreg 31 = stack ∧ (g.bankStack stack h).hreg 15 = h := by
  rw [Group.bankStack, if_pos hp]
  exact ⟨by simp [Group.setReg, Group.sreg], by simp [Group.setReg, Group.hreg]⟩

/-- The state after THSET of a handler. -/
def State.handlerSet (s : State) (va vb : BitVec 64) (h : Handle) : State :=
  s.onMe fun g => { (g.bankStack vb h) with sys := { g.sys with thbase := va ||| 1, thstack := vb } }

theorem State.handlerSet_same (s : State) (va vb : BitVec 64) (h : Handle) (p : Aspect) (hn : p ∉ [Aspect.sys, .bank, .regs]) :
    s.same (s.handlerSet va vb h) p := by
  obtain ⟨cr, bank, hg⟩ := s.me.bankStack_eq vb h
  rw [State.handlerSet, show s.onMe (fun g => { (g.bankStack vb h) with sys := { g.sys with thbase := va ||| 1, thstack := vb } }) =
    { s with me := { s.me.bankStack vb h with sys := { s.me.sys with thbase := va ||| 1, thstack := vb } } } from rfl, hg]
  have h' := s.same_refl p
  cases p with
  | sys => simp at hn
  | bank => simp at hn
  | regs => simp at hn
  | _ => exact h'

theorem thset_holds (y : BitVec 2) (a b : BitVec 5) (h : Handle) : (thsetClaim y a b h).Holds (.thset y a b) := by
  refine checkedItem_holds State.badPriv _ (fun s => show execThset y a b s = _ from rfl) (fun s h => State.badPriv_of_syspriv h.1)
    fun u _ ⟨_, hset, ha, hb, hpages, htrans⟩ => ⟨u.handlerSet (u.me.sreg a) (u.me.sreg b) h, ?_, fun p hn => u.handlerSet_same _ _ _ p hn,
      fun s via => ?_⟩
  · dsimp only
    rw [if_neg hset, if_neg (not_not.2 ha), if_neg (not_not.2 hb), ofChk_of_ok hpages, htrans]
    rfl
  · have hclosed (p : Aspect) (h1 : p ≠ .engine .c) (h2 : p ≠ .bufs) :=
      State.closed_same s (u.handlerSet (u.me.sreg a) (u.me.sreg b) h) _ .c y via p (State.same_refl _ _) h1 h2
    have hsys := hclosed .sys (by simp) (by simp)
    have hbank := hclosed .bank (by simp) (by simp)
    have hregs := hclosed .regs (by simp) (by simp)
    refine ⟨congrArg SysRegs.thbase hsys, congrArg SysRegs.thstack hsys, ?_⟩
    split
    · next hp =>
      obtain ⟨hs, hh⟩ := Group.bankStack_handler hp (u.me.sreg b) h
      exact ⟨(Val.word.inj (hregs (.s 31))).trans hs, (Val.handle.inj (hregs (.h 15))).trans hh⟩
    · next hp =>
      have hstack : u.me.bankStack (u.me.sreg b) h = { u.me with bank := { u.me.bank with s31 := u.me.sreg b, h15 := h } } := if_neg hp
      have hnew : (u.handlerSet (u.me.sreg a) (u.me.sreg b) h).me.bank = { u.me.bank with s31 := u.me.sreg b, h15 := h } :=
        congrArg Group.bank hstack
      have hkept (r : Reg) : (u.handlerSet (u.me.sreg a) (u.me.sreg b) h).me.regVal r = u.me.regVal r := by
        refine Eq.trans ?_ ((congrArg (Group.regVal · r) hstack).trans (by cases r <;> rfl))
        cases r <;> rfl
      exact ⟨congrArg Banked.s31 (hbank.trans hnew), congrArg Banked.h15 (hbank.trans hnew), fun r => (hregs r).trans (hkept r)⟩

/-! ## ENGCLAIM and ENGREL (R224) -/

theorem State.onArea_same (s : State) (i : Ident) (f : SaveArea → SaveArea) (p : Aspect) (h : p ≠ .frontEnd) : s.same (s.onArea i f) p := by
  have h' := s.same_refl p
  cases p with
  | frontEnd => exact absurd rfl h
  | _ => exact h'

/-- M and the mesh stand apart from the rest of a group. -/
theorem State.withMesh_same (s : State) (x : EngineState) (m : MeshState) (hand : Handling) (p : Aspect)
    (h : p ∉ [Aspect.mesh, .engine .m, .claimed]) :
    s.same (s.onMe fun g => { (g.setEngine .m x) with mesh := m, hand := hand }) p := by
  have h' := s.same_refl p
  simp only [List.mem_cons, List.not_mem_nil, or_false, not_or] at h
  obtain ⟨hmesh, hm, hclaimed⟩ := h
  cases p with
  | mesh => exact absurd rfl hmesh
  | claimed => exact absurd rfl hclaimed
  | engine f => exact Engines.get_set_ne s.me.eng .m f x fun hf => hm (hf ▸ rfl)
  | regs => exact fun r => by cases r <;> rfl
  | _ => exact h'

theorem MeshState.atPoint_iff (m : MeshState) : m.atPoint = true ↔ ∀ o ∈ m.ops, o.seg = 0 ∧ o.inside = [] := by
  simp [MeshState.atPoint, List.all_eq_true]

/-- M of a handler that claims the mesh at cycle `t`: it walks the handler's text from C's next item on. -/
def Group.claimingM (g : Group) (t : Nat) : EngineState :=
  { EngineState.placed with cur := g.eng.c.cur + g.itemLen .c, stack := g.eng.c.stack, clk := t + 1, w := g.eng.m.w, seq := g.eng.m.seq }

/-- An empty mesh, whose numbers go on. -/
def MeshState.emptied (m : MeshState) : MeshState := { MeshState.placed with nextOp := m.nextOp, nextBatch := m.nextBatch }

/-- The state after ENGCLAIM. -/
def State.meshClaimed (s : State) (t : Nat) : State :=
  (s.onArea s.me.ident fun a => { a with mesh := some s.me }).onMe fun g =>
    { (g.setEngine .m (g.claimingM t)) with mesh := g.mesh.emptied, hand := { g.hand with claim := some (g.mesh, g.eng.m) } }

theorem engclaim_holds (y : BitVec 2) : (engclaimClaim y).Holds (.engclaim y) := by
  refine plainItem_holds _ (fun s => show execEngclaim y s = _ from rfl) fun u t ⟨hphase, hclaim, hpoint⟩ =>
    ⟨u.meshClaimed t, ?_, fun p hn => ?_, fun s via => ?_⟩
  · have hat : u.me.mesh.atPoint = true := (MeshState.atPoint_iff _).2 hpoint
    dsimp only
    rw [if_neg (not_not.2 hphase), if_neg (by simp [hclaim]), if_neg (by simp [hat])]
    rfl
  · simp only [List.mem_cons, List.not_mem_nil, or_false, not_or] at hn
    obtain ⟨hmesh, hm, hclaimed, hfe⟩ := hn
    exact State.same_trans _ _ _ _ (u.onArea_same _ _ p hfe) (State.withMesh_same _ _ _ _ p (by simp [hmesh, hm, hclaimed]))
  · have hmesh := State.closed_same s (u.meshClaimed t) _ .c y via .mesh (State.same_refl _ _) (by simp) (by simp)
    have hclaimed := State.closed_same s (u.meshClaimed t) _ .c y via .claimed (State.same_refl _ _) (by simp) (by simp)
    exact ⟨hclaimed.1, congrArg MeshState.ops hmesh, congrArg MeshState.batches hmesh,
      (congrArg MeshState.banks hmesh :)⟩

/-! What ENGREL leaves in the accumulator store. -/

theorem memGet_memPut_bytes (m base : Memory) (a n x : Nat) :
    memGet (memPut m a (memBytes base a n)) x = if a ≤ x ∧ x < a + n then memGet base x else memGet m x := by
  have hlen : (memBytes base a n).length = n := by simp [memBytes]
  split
  · next h =>
    obtain ⟨i, rfl⟩ := Nat.exists_eq_add_of_le h.1
    rw [memGet_put m a _ i (by omega)]
    simp [memBytes]
  · next h => exact memGet_put_other _ _ _ _ (by omega)

theorem memGet_restoreParts (l : List (Nat × Nat)) (base m : Memory) (x : Nat) :
    memGet (l.foldl (fun m p => memPut m (8 * p.1) (memBytes base (8 * p.1) (8 * p.2))) m) x =
      if ∃ p ∈ l, 8 * p.1 ≤ x ∧ x < 8 * (p.1 + p.2) then memGet base x else memGet m x := by
  induction l generalizing m with
  | nil => simp
  | cons p l ih =>
    rw [List.foldl_cons, ih, memGet_memPut_bytes]
    by_cases hl : ∃ q ∈ l, 8 * q.1 ≤ x ∧ x < 8 * (q.1 + q.2)
    · rw [if_pos hl, if_pos (hl.imp fun q hq => ⟨List.mem_cons_of_mem _ hq.1, hq.2⟩)]
    · rw [if_neg hl]
      refine if_congr ?_ rfl rfl
      simp only [List.mem_cons, exists_eq_or_imp, hl, or_false]
      omega

theorem WinPend.restore_get (w : WinPend) (m : Memory) (x : Nat) :
    (w.owns x → memGet (w.restore m) x = memGet w.base x) ∧ (¬w.owns x → memGet (w.restore m) x = memGet m x) := by
  rw [WinPend.restore, memGet_restoreParts]
  exact ⟨fun h => if_pos h, fun h => if_neg h⟩

/-- The accumulator store once the windows of some batches hold again what they held. -/
def restoreBatches (l : List Batch) (m : Memory) : Memory := l.foldl (fun a b => b.wins.foldl (fun a w => w.restore a) a) m

theorem restoreWins_other {l : List WinPend} {x : Nat} (h : ∀ w ∈ l, ¬w.owns x) (m : Memory) :
    memGet (l.foldl (fun a w => w.restore a) m) x = memGet m x := by
  induction l generalizing m with
  | nil => rfl
  | cons w l ih =>
    exact (ih (fun v hv => h v (List.mem_cons_of_mem _ hv)) _).trans ((w.restore_get m x).2 (h w List.mem_cons_self))

theorem restoreBatches_other {l : List Batch} {x : Nat} (h : ∀ b ∈ l, ∀ w ∈ b.wins, ¬w.owns x) (m : Memory) :
    memGet (restoreBatches l m) x = memGet m x := by
  induction l generalizing m with
  | nil => rfl
  | cons b l ih =>
    exact (ih (fun c hc => h c (List.mem_cons_of_mem _ hc)) _).trans (restoreWins_other (h b List.mem_cons_self) m)

theorem Group.unclaim_eq {g : Group} {m : MeshState} {x : EngineState} (h : g.hand.claim = some (m, x)) : g.unclaim =
    { (g.setEngine .m x) with
      mesh := { m with nextOp := g.mesh.nextOp, nextBatch := g.mesh.nextBatch }
      store := { g.store with acc := restoreBatches m.batches g.store.acc }
      hand := { g.hand with claim := none } } := by
  rw [Group.unclaim, h]
  rfl

theorem State.withAcc_same (s : State) (acc : Memory) (p : Aspect) (h : p ≠ .acc) :
    s.same (s.onMe fun g => { g with store := { g.store with acc := acc } }) p := by
  have h' := s.same_refl p
  cases p with
  | acc => exact absurd rfl h
  | regs => exact fun r => by cases r <;> rfl
  | _ => exact h'

theorem engrel_holds (y : BitVec 2) (m : MeshState) (x : EngineState) : (engrelClaim y m x).Holds (.engrel y) := by
  refine plainItem_holds _ (fun s => show execEngrel y s = _ from rfl) fun u t ⟨hphase, hclaim, hops, hbatches, hcur⟩ =>
    ⟨u.onMe (·.unclaim), ?_, fun p hn => ?_, fun s via => ?_⟩
  · have hdone : u.me.claimDone = true := by
      simp only [Group.claimDone, MeshState.idle, hops, hbatches, List.isEmpty_nil, Bool.and_true, beq_iff_eq]
      exact hcur
    rw [if_neg (not_not.2 hphase), if_neg (by simp [hclaim]), if_neg (by simp [hdone])]
  · rw [show u.onMe (·.unclaim) = { u with me := u.me.unclaim } from rfl, Group.unclaim_eq hclaim]
    simp only [List.mem_cons, List.not_mem_nil, or_false, not_or] at hn
    obtain ⟨hmesh, hm, hclaimed, hacc⟩ := hn
    exact State.same_trans _ _ _ _ (u.withAcc_same _ p hacc) (State.withMesh_same (u.onMe fun g =>
      { g with store := { g.store with acc := restoreBatches m.batches g.store.acc } }) x _ _ p (by simp [hmesh, hm, hclaimed]))
  · have hclosed (p : Aspect) (h1 : p ≠ .engine .c) (h2 : p ≠ .bufs) :=
      State.closed_same s (u.onMe (·.unclaim)) _ .c y via p (State.same_refl _ _) h1 h2
    have hme : (u.onMe (·.unclaim)).me = _ := Group.unclaim_eq hclaim
    have hacc (k : Nat) : memGet (s.closed (u.onMe (·.unclaim)) .c y via).me.store.acc k = memGet (restoreBatches m.batches u.me.store.acc) k :=
      (hclosed .acc (by simp) (by simp) k).trans (by rw [hme])
    refine ⟨(hclosed .claimed (by simp) (by simp)).1.trans (by rw [hme]), (hclosed .mesh (by simp) (by simp)).trans (by rw [hme]),
      (hclosed (.engine .m) (by simp) (by simp)).trans ?_, fun k hk => (hacc k).trans (restoreBatches_other hk _), fun b w hb hw k hk => ?_⟩
    · show (u.onMe (·.unclaim)).me.engine .m = x
      rw [hme]
      exact Engines.get_set u.me.eng .m x
    · rw [hacc, hb]
      simp only [restoreBatches, List.foldl_cons, List.foldl_nil, hw]
      exact (w.restore_get _ k).1 hk

/-- Settles O35: the handler is set and cleared, the mesh claimed and given back; PRIV without the privilege or outside a handler. -/
theorem handlers : Obligations.Handlers := by
  unfold Obligations.Handlers
  refine ⟨fun y a b => ⟨thsetOff_holds y a b, thset_holds y a b⟩, fun y => ⟨engclaim_holds y, engrel_holds y⟩, fun s y a b hr hpriv => ?_,
    fun s y hr hp => ?_⟩
  · exact checkedItem_bad (show exec (.thset y a b) s = execThset y a b s from rfl) hr (State.badPriv_of_not_syspriv hpriv)
  · rw [← s.arrived_phase .c y] at hp
    exact ⟨(show exec (.engclaim y) s = execEngclaim y s from rfl).trans (issue_trap _ _ _ _ _ _ _ _ hr rfl (if_pos hp)),
      (show exec (.engrel y) s = execEngrel y s from rfl).trans (issue_trap _ _ _ _ _ _ _ _ hr rfl (if_pos hp))⟩

end Sys2Proof.Machine
end

section
-- One declaration after another: the whole text is checked in one process, of bounded memory.
set_option Elab.async false
/-! SUPPORT. Loads and stores of C (08_memory_ops R154 to R160, R207). -/

namespace Sys2Proof.Machine

/-! ## What an access counts (R343, R354) -/

theorem State.notify_groups (s : State) (ctx va typ arg : Nat) : s.KeepsGroups (s.notify ctx va typ arg) := by
  unfold State.notify
  split
  · exact .refl s
  · dsimp only
    split
    · exact ⟨rfl, rfl⟩
    · split <;> exact ⟨rfl, rfl⟩

theorem State.touch_groups (s : State) (ctx : Nat) (e : PEntry) (va lines : Nat) : s.KeepsGroups (s.touch ctx e va lines) := by
  unfold State.touch
  split
  · exact .refl s
  · dsimp only
    split
    all_goals
      split
      · exact State.KeepsGroups.trans (t := s.onCtx ctx _) ⟨rfl, rfl⟩ (State.notify_groups _ _ _ _ _)
      · exact ⟨rfl, rfl⟩

theorem State.tally_me (s : State) (e : PEntry) (va size : Nat) : (s.tally e va size).me = s.me.addBuf s.me.bufTag size 0 := by
  rw [State.tally, State.me_onMe, (s.touch_groups _ _ _ _).me]

theorem State.tally_course (s : State) (e : PEntry) (va size : Nat) : s.me.SameCourse (s.tally e va size).me := by
  rw [State.tally_me]
  exact ⟨fun _ => rfl, ⟨rfl, rfl, rfl, rfl⟩, rfl⟩

theorem State.tally_sreg (s : State) (e : PEntry) (va size : Nat) (r : BitVec 5) : (s.tally e va size).me.sreg r = s.me.sreg r := by
  rw [State.tally_me]
  rfl

theorem State.tally_hreg (s : State) (e : PEntry) (va size : Nat) (r : BitVec 4) : (s.tally e va size).me.hreg r = s.me.hreg r := by
  rw [State.tally_me]
  rfl

theorem State.tally_ident (s : State) (e : PEntry) (va size : Nat) : (s.tally e va size).me.ident = s.me.ident :=
  (s.tally_course e va size).ident

/-! ## The operand (R154 to R157) -/

theorem badBase_false {h : BitVec 1} {b : BitVec 5} (hb : h = 1 → b.getLsbD 4 = false) : causeIf (badBase h b) causeReserved = none := by
  have hcase : h = 0 ∨ h = 1 := by clear hb; revert h; decide
  rcases hcase with rfl | rfl
  · rfl
  · rw [badBase, hb rfl]
    rfl

theorem State.site_spad {s : State} {b : BitVec 5} {off n core x : Nat} (h : s.spadOk ((s.me.sreg b).toNat + off) n core x) :
    s.site 0 b off n = .ok (.spad core x) := by
  obtain ⟨halign, hat, hpend⟩ := h
  have hplace : s.placeSite ((s.me.sreg b).toNat + off) = some (.spad core x) := by
    unfold State.spadAt at hat
    split at hat
    · next hp => rw [hp]; cases hat; rfl
    · cases hat
  rw [State.site, if_pos rfl]
  simp only [halign, hplace, hpend, need_true (beq_iff_eq.2 rfl), need_true (show (!false) = true from rfl)]
  rfl

theorem State.site_page {s : State} {b : BitVec 5} {off n : Nat} (h : (s.me.hreg (baseHandle b)).allows ((s.me.hreg (baseHandle b)).va.toNat + off) n) :
    s.site 1 b off n = .ok (.page (s.me.hreg (baseHandle b)) ((s.me.hreg (baseHandle b)).va.toNat + off)) := by
  obtain ⟨hvalid, halign, hend⟩ := h
  rw [State.site, if_neg (by decide)]
  simp only [hvalid, halign, need_true (beq_iff_eq.2 rfl), need_true (rfl : true = true), need_true (decide_eq_true hend)]
  rfl

/-! ## LD -/

/-- R158, R160: a load of a checked operand that lands at a cycle. -/
def State.loadAt (s : State) (r : LdSt) (p : Site) (land : Nat) : Effect :=
  match p with
  | .spad core a => .done (s.lateResult (.s r.r) (.word (extendTo r.signed (8 * r.size) (match s.groupOn core with
      | some g => memVal g.store.spad a r.size
      | none => 0))) land none none none)
  | .page hd va => s.loadPage (.s r.r) hd va r.size r.signed land

theorem wSize_eq (w : BitVec 3) : wSize w = (match w.toNat % 4 with
    | 0 => 1
    | 1 => 2
    | 2 => 4
    | _ => 8) := by revert w; decide

theorem loadRow_exec {i : Instr} {r : LdSt} (h : loadRow i = some r) (s : State) :
    exec i s = issuePre (causeIf (badBase r.h r.base) causeReserved) .c r.y r.srcs s fun s now =>
      ofChk (s.site r.h r.base (r.off s) r.size) fun p => if s.cFull then .wait else s.loadAt r p (now + s.assumed false p) := by
  revert h
  cases i with
  | ld y t b h' w ix x =>
    intro h; cases h
    rw [show exec (.ld y t b h' w ix x) s = execLd y t b h' w ix x s from rfl, execLd]
    simp only [wSize_eq, Group.memOff]
    rfl
  | _ => exact noRow

theorem loadRow_size {i : Instr} {r : LdSt} (h : loadRow i = some r) : 8 * r.size ≤ 64 := by
  revert h
  cases i with
  | ld =>
    intro h; cases h
    dsimp only [ldStOf]
    split <;> decide
  | _ => exact noRow

theorem loadRow_spad {i : Instr} {r : LdSt} (hi : loadRow i = some r) (h0 : r.h = 0) (core x : Nat) : (spadLoadClaim r core x).Holds i := by
  refine Claim.holds_late _ _ rfl (fun _ => rfl) rfl (fun s _ => (loadRow_exec hi s).trans (issuePre_good (badBase_false (by simp [h0])) ..))
    (fun a t ⟨hok, hgroup, hroom⟩ => ?_) List.not_mem_nil List.not_mem_nil
  obtain ⟨g, hg⟩ := Option.isSome_iff_exists.1 hgroup
  refine ⟨a, none, none, none, _, ?_, (Group.Undisturbed.refl _).toSameCourse, fun p _ _ => a.same_refl p, fun p _ _ => State.same_refl _ p,
    fun _ _ => trivial⟩
  rw [h0, ofChk_of_ok (State.site_spad hok), if_neg (by simp [State.roomForResult_cFull hroom]), State.loadAt]
  simp only [hg, extendTo_widened _ _ _ (loadRow_size hi), ← State.spadNum_eq a core x r.size g hg, State.assumed, Bool.false_eq_true, if_false]
  rfl

/-- R157: an access through a handle to a page reaches its address. -/
theorem LdSt.site_ok {r : LdSt} {s : State} (h1 : r.h = 1) (h : (r.handle s).allows (r.va s) r.size) :
    s.site r.h r.base (r.off s) r.size = .ok (.page (r.handle s) (r.va s)) := by
  rw [h1]
  exact State.site_page h

theorem State.assumed_page (s : State) (hd : Handle) (va : Nat) : s.assumed false (.page hd va) = loadLatency hd.kind := by
  have hk : ∀ k : BitVec 3, (if k = kindLocal ∨ k = kindGen then 300 else if k = kindHost then 1200 else 2000) = loadLatency k := by decide
  exact hk hd.kind

theorem loadRow_gen {i : Instr} {r : LdSt} (hi : loadRow i = some r) (h1 : r.h = 1) (g : GenWin) : (genLoadClaim r g).Holds i := by
  refine Claim.holds_late _ _ rfl (fun _ => rfl) rfl
    (fun s h => (loadRow_exec hi s).trans (issuePre_good (badBase_false fun _ => h.1) ..))
    (fun a t ⟨_, hallow, hroom, n, hgen⟩ => ?_) List.not_mem_nil List.not_mem_nil
  let u : State := a.lateResult (.s r.r) (.word (widened r.signed (8 * r.size) (leVal (g.bytes (r.va a - g.vbase) r.size))))
    (t + loadLatency (r.handle a).kind) (some a.me.bufTag) none none
  refine ⟨a, some a.me.bufTag, none, none, u.onMe (·.addBuf u.me.bufTag r.size 0), ?_, (Group.Undisturbed.refl _).toSameCourse,
    fun p _ _ => a.same_refl p, fun p hp _ => u.addBuf_same _ r.size 0 p hp, fun _ _ => trivial⟩
  rw [ofChk_of_ok (r.site_ok h1 hallow), if_neg (by simp [State.roomForResult_cFull hroom]), State.loadAt, State.loadPage, hgen]
  simp only [extendTo_widened _ _ _ (loadRow_size hi), State.assumed_page]
  rfl

/-- The address of an operand is the same once the access is counted. -/
theorem LdSt.va_tally (r : LdSt) {i : Instr} (hi : loadRow i = some r ∨ storeRow i = some r) (s : State) (e : PEntry) (va size : Nat) :
    r.va (s.tally e va size) = r.va s := by
  have hoff : r.off (s.tally e va size) = r.off s := by
    revert hi
    cases i with
    | ld | st =>
      rintro (hi | hi) <;> cases hi
      simp only [ldStOf, State.tally_sreg]
    | _ => exact (·.elim noRow noRow)
  rw [LdSt.va, LdSt.va, hoff, LdSt.handle, LdSt.handle, State.tally_hreg]

theorem LdSt.handle_tally (r : LdSt) (s : State) (e : PEntry) (va size : Nat) : r.handle (s.tally e va size) = r.handle s := s.tally_hreg _ _ _ _

theorem State.needFrame_ok {s : State} {e : PEntry} (h : s.frameExists e = true) : s.needFrame e = .ok () := need_true h _ _

theorem loadRow_page {i : Instr} {r : LdSt} (hi : loadRow i = some r) (h1 : r.h = 1) (e : PEntry) : (pageLoadClaim r e).Holds i := by
  refine Claim.holds_late _ _ rfl (fun _ => rfl) rfl
    (fun s h => (loadRow_exec hi s).trans (issuePre_good (badBase_false fun _ => h.1) ..))
    (fun a t ⟨_, hallow, hroom, hgen, hleaf, hframe, hread, hheld, hbehind⟩ => ?_) List.not_mem_nil List.not_mem_nil
  refine ⟨a.tally e (r.va a) r.size, some a.me.bufTag, none, none, _, ?_, a.tally_course _ _ _, fun p _ _ => State.same_refl _ p,
    fun p hp _ => State.same_refl _ p, fun _ _ => trivial⟩
  rw [ofChk_of_ok (r.site_ok h1 hallow), if_neg (by simp [State.roomForResult_cFull hroom]), State.loadAt, State.loadPage, hgen]
  have hleaf' : a.handleLeaf (r.va a) = some e := hleaf
  simp only [hleaf', hheld, hbehind, hread, ofChk_of_ok (State.needFrame_ok hframe), extendTo_widened _ _ _ (loadRow_size hi),
    State.assumed_page, if_true, Bool.false_eq_true, if_false]
  simp only [pageLoadClaim, r.va_tally (.inl hi), r.handle_tally, State.tally_ident]

/-! ## Forwarded accesses (R326) -/

theorem State.sendOn_fwds {s t : State} {n : Nat} {pk : Packet} (h : s.sendOn n pk = some t) : t.links.fwds = s.links.fwds := by
  unfold State.sendOn at h
  split at h
  · cases h
  · split at h
    · obtain ⟨p, -, rfl⟩ := Option.map_eq_some_iff.1 h
      rfl
    · cases h

theorem State.sendRoute_fwds {s t : State} {pk : Packet} {line : Nat} (h : s.sendRoute pk line = some t) : t.links.fwds = s.links.fwds := by
  unfold State.sendRoute at h
  split at h
  · cases h
  · exact State.sendOn_fwds h

/-- Two records of one forwarded access: what was sent, and whose it is; the times of sending may differ. -/
def Fwd.SameAccess (f g : Fwd) : Prop := g.core = f.core ∧ g.reg = f.reg ∧ g.size = f.size ∧ g.signed = f.signed ∧ g.pkt = f.pkt

theorem State.sendFwd_fwds (s : State) (g f : Fwd) (h : f ∈ s.links.fwds) : ∃ f' ∈ (s.sendFwd g).links.fwds, f.SameAccess f' := by
  unfold State.sendFwd
  split
  · exact ⟨f, h, rfl, rfl, rfl, rfl, rfl⟩
  · next t ht =>
    refine ⟨_, List.mem_map.2 ⟨f, State.sendRoute_fwds ht ▸ h, rfl⟩, ?_⟩
    split <;> exact ⟨rfl, rfl, rfl, rfl, rfl⟩

theorem State.sendFwd_self (s : State) (g : Fwd) (h : g ∈ s.links.fwds) : ∃ f ∈ (s.sendFwd g).links.fwds, g.SameAccess f := s.sendFwd_fwds g g h

/-- R325, R326: an access that is forwarded is in the record of its source, under a tag of its own. -/
theorem State.forwardFor_fwds (s : State) (f : Fwd) : ∃ f' ∈ (s.forwardFor f).links.fwds,
    Fwd.SameAccess { f with pkt := { f.pkt with tag := s.links.nextTag } } f' := by
  unfold State.forwardFor
  dsimp only
  split
  · exact ⟨_, List.mem_append_right _ (List.mem_singleton_self _), rfl, rfl, rfl, rfl, rfl⟩
  · exact State.sendFwd_self _ _ (List.mem_append_right _ (List.mem_singleton_self _))

theorem State.closed_links (s u : State) (e : Engine) (y : BitVec 2) (via : Bool) : (s.closed u e y via).links = u.links :=
  State.closed_same _ _ _ _ _ _ .links (State.same_refl _ _) (by simp) (by simp)

/-- R158, R326: a load from another module promises its register, and forwards the access. -/
theorem State.loadFrom_onlyLinks (s : State) (r : Reg) (m la va size : Nat) (signed : Bool) (land : Nat) :
    (s.lateResult r (.word 0) land (some s.me.bufTag) (some s.links.nextTag) none).OnlyLinks (s.loadFrom r m la va size signed land) :=
  State.forwardFor_onlyLinks _ _

theorem State.loadFrom_fwds (s : State) (r : Reg) (m la va size : Nat) (signed : Bool) (land : Nat) :
    ∃ f ∈ (s.loadFrom r m la va size signed land).links.fwds, f.core = some s.me.ident.core ∧ f.reg = some r ∧ f.size = size ∧
      f.signed = signed ∧ f.pkt.kind = 1 ∧ f.pkt.dmod = m ∧ f.pkt.addr = BitVec.ofNat 64 la := by
  unfold State.loadFrom State.forward
  obtain ⟨f, hf, hcore, hreg, hsize, hsigned, hpkt⟩ := State.forwardFor_fwds (s.lateResult r (.word 0) land (some s.me.bufTag) (some s.links.nextTag) none) _
  exact ⟨f, hf, hcore, hreg, hsize, hsigned, by rw [hpkt]; rfl, by rw [hpkt]; rfl, by rw [hpkt]⟩

theorem loadRow_remote {i : Instr} {r : LdSt} (hi : loadRow i = some r) (h1 : r.h = 1) (e : PEntry) (x : Option Replica) :
    (remoteLoadClaim r e x).Holds i := by
  refine Claim.holds_late _ _ rfl (fun _ => rfl) rfl
    (fun s h => (loadRow_exec hi s).trans (issuePre_good (badBase_false fun _ => h.1) ..))
    (fun a t ⟨_, hallow, hroom, hgen, hleaf, hframe, hheld, hbehind, hread⟩ => ?_) (by simp [remoteLoadClaim, farParts])
      (by simp [remoteLoadClaim, farParts])
  let u := a.tally e (r.va a) r.size
  have hlat : loadLatency (r.handle u).kind = loadLatency (r.handle a).kind := by rw [r.handle_tally]
  have hleaf' : a.handleLeaf (r.va a) = some e := hleaf
  refine ⟨u, some u.me.bufTag, some u.links.nextTag, none, u.loadFrom (.s r.r) (e.farHome x (r.va a)).1 (e.farHome x (r.va a)).2
    (r.va a) r.size r.signed (t + loadLatency (r.handle a).kind), ?_, a.tally_course _ _ _, fun p _ _ => State.same_refl _ p,
    fun p hp hn => ?_, fun s via => ?_⟩
  · rw [ofChk_of_ok (r.site_ok h1 hallow), if_neg (by simp [State.roomForResult_cFull hroom]), State.loadAt, State.loadPage, hgen]
    simp only [hleaf', hheld, hbehind, ofChk_of_ok (State.needFrame_ok hframe), State.assumed_page, Bool.false_eq_true, if_false]
    cases x with
    | some x => rfl
    | none => simp only [hread rfl, Bool.false_eq_true, if_false]; rfl
  · have h := State.loadFrom_onlyLinks u (.s r.r) (e.farHome x (r.va a)).1 (e.farHome x (r.va a)).2 (r.va a) r.size r.signed
      (t + loadLatency (r.handle a).kind)
    rw [← hlat]
    exact (hlat ▸ h).same p fun hl => hn (hl ▸ by simp [remoteLoadClaim, farParts])
  · obtain ⟨f, hf, hrest⟩ := State.loadFrom_fwds u (.s r.r) (e.farHome x (r.va a)).1 (e.farHome x (r.va a)).2 (r.va a) r.size r.signed
      (t + loadLatency (r.handle a).kind)
    refine ⟨f, by rw [State.closed_links]; exact hf, ?_⟩
    simp only [remoteLoadClaim, r.va_tally (.inl hi)]
    exact hrest

/-- Settles O20: the loads by the place that they read. -/
theorem loads : Obligations.Loads := by
  unfold Obligations.Loads
  exact fun i r hi => ⟨loadRow_spad hi, fun h1 => ⟨loadRow_gen hi h1, fun e => ⟨loadRow_page hi h1 e, loadRow_remote hi h1 e⟩⟩⟩

end Sys2Proof.Machine
end

section
-- One declaration after another: the whole text is checked in one process, of bounded memory.
set_option Elab.async false
/-! SUPPORT. Stores of C (08_memory_ops R154 to R158, R207), ESTORE and the instructions of time and environment (10_system R229 to R231). -/

namespace Sys2Proof.Machine

/-! ## ST -/

/-- R158: a store to a checked operand. -/
def State.storeAt (s : State) (p : Site) (bs : List Byte) : Effect :=
  match p with
  | .spad core a => .done (s.storeSpad core a bs)
  | .page hd va => s.storePage hd va bs

theorem storeRow_exec {i : Instr} {r : LdSt} (h : storeRow i = some r) (s : State) :
    exec i s = issuePre (causeIf (badBase r.h r.base) causeReserved) .c r.y (.s r.r :: r.srcs) s fun s _ =>
      ofChk (s.site r.h r.base (r.off s) r.size) fun p => s.storeAt p (leBytes r.size (s.me.sreg r.r).toNat) := by
  revert h
  cases i with
  | st y t b h' w ix x =>
    intro h; cases h
    rw [show exec (.st y t b h' w ix x) s = execSt y t b h' w ix x s from rfl, execSt]
    simp only [wSize_eq, Group.memOff]
    rfl
  | _ => exact noRow

theorem State.storeSpad_staysOn (a : Nat) (bs : List Byte) : StaysOn fun g : Group => if g.phase = .frozen then g else g.spadPut a bs := by
  intro g
  dsimp only
  split <;> exact ⟨rfl, rfl⟩

/-- A core's bytes are those of the group in focus, or of the one in the rest that is placed there. -/
theorem State.spadByte_eq (s : State) (k a : Nat) : s.spadByte k a =
    if (s.me.ident.core == k && s.me.phase.isPlaced) = true then memGet s.me.store.spad a
    else ((s.rest.find? fun g => g.ident.core == k && g.phase.isPlaced).map fun g => memGet g.store.spad a).getD 0 := by
  simp only [State.spadByte, State.groupOn, State.groups, List.find?_cons]
  cases (s.me.ident.core == k && s.me.phase.isPlaced)
  · cases s.rest.find? fun g => g.ident.core == k && g.phase.isPlaced <;> rfl
  · rfl

theorem State.closed_spadByte (s u : State) (e : Engine) (y : BitVec 2) (via : Bool) (k a : Nat) :
    (s.closed u e y via).spadByte k a = u.spadByte k a := by
  have hclosed (p : Aspect) (h1 : p ≠ .engine e) (h2 : p ≠ .bufs) : u.same (s.closed u e y via) p :=
    State.closed_same s u u e y via p (State.same_refl _ _) h1 h2
  have hrest : (s.closed u e y via).rest = u.rest := hclosed .groups (by simp) (by simp)
  have hident : (s.closed u e y via).me.ident = u.me.ident := hclosed .ident (by simp) (by simp)
  have hphase : (s.closed u e y via).me.phase = u.me.phase := (hclosed .phase (by simp) (by simp)).1
  have hspad : memGet (s.closed u e y via).me.store.spad a = memGet u.me.store.spad a := hclosed .spad (by simp) (by simp) a
  rw [State.spadByte_eq, State.spadByte_eq, hrest, hident, hphase, hspad]

theorem State.storeSpad_same (s : State) (core a : Nat) (bs : List Byte) (p : Aspect) (h : p ∉ [Aspect.spad, .groups]) :
    s.same (s.storeSpad core a bs) p := by
  have hme : (s.storeSpad core a bs).me = s.me ∨ (s.storeSpad core a bs).me = s.me.spadPut a bs := by
    simp only [State.storeSpad, State.onCore, State.mapGroups]
    split
    · split
      · exact .inl rfl
      · exact .inr rfl
    · exact .inl rfl
  have hs : s.storeSpad core a bs = { s with me := (s.storeSpad core a bs).me, rest := (s.storeSpad core a bs).rest } := rfl
  have h' := s.same_refl p
  rw [hs]
  rcases hme with hme | hme
  all_goals
    rw [hme]
    cases p with
    | spad => simp at h
    | groups => simp at h
    | regs => exact fun r => by cases r <;> rfl
    | _ => exact h'

/-- A byte of a memory after the low bytes of a word are stored. -/
theorem memGet_put_leBytes (m : Memory) (a n x : Nat) (v : BitVec 64) :
    memGet (memPut m a (leBytes n v.toNat)) x = if a ≤ x ∧ x < a + n then byteOf v (x - a) else memGet m x := by
  rw [show memPut m a (leBytes n v.toNat) = memPutVal m a n v.toNat from rfl, memGet_putVal]
  refine if_congr Iff.rfl ?_ rfl
  apply BitVec.eq_of_toNat_eq
  simp [byteOf, Nat.shiftRight_eq_div_pow]

theorem storeRow_spad {i : Instr} {r : LdSt} (hi : storeRow i = some r) (h0 : r.h = 0) (core x : Nat) : (spadStoreClaim r core x).Holds i := by
  refine Claim.holds_checked _ _ (fun _ => rfl) rfl (fun _ => rfl)
    (fun s _ => (storeRow_exec hi s).trans (issuePre_good (badBase_false (by simp [h0])) ..))
    (fun a t hok => ⟨a.storeSpad core x (leBytes r.size (a.me.sreg r.r).toNat), ?_, fun p _ hn => a.storeSpad_same _ _ _ p hn, fun s via k b hk => ?_⟩)
    (by simp [spadStoreClaim]) (by simp [spadStoreClaim])
  · rw [h0, ofChk_of_ok (State.site_spad hok)]
    rfl
  · rw [State.closed_spadByte]
    obtain ⟨g, hg, hbyte⟩ := a.spadByte_onCore core k b _ (State.storeSpad_staysOn x (leBytes r.size (a.me.sreg r.r).toNat)) hk
    rw [State.storeSpad, hbyte]
    have hold : a.spadByte k b = memGet g.store.spad b := by rw [State.spadByte, hg]
    by_cases hcore : k = core
    · subst hcore
      by_cases hfrozen : g.phase = .frozen
      · simp [hg, hfrozen, hold]
      · simp only [if_true, hg, hold, Group.spadPut, Option.any_some, bne_iff_ne, ne_eq, hfrozen, not_false_eq_true, and_true, true_and, if_false]
        exact memGet_put_leBytes _ _ _ _ _
    · simp only [hcore, false_and, if_false, hold]

/-! Through a handle. -/

theorem LdSt.storeAt_page {r : LdSt} (h1 : r.h = 1) {a : State} (hallow : (r.handle a).allows (r.va a) r.size) :
    (ofChk (a.site r.h r.base (r.off a) r.size) fun p => a.storeAt p (leBytes r.size (a.me.sreg r.r).toNat)) =
      a.storePage (r.handle a) (r.va a) (leBytes r.size (a.me.sreg r.r).toNat) := by
  rw [ofChk_of_ok (r.site_ok h1 hallow)]
  rfl

theorem State.storePage_window {s : State} {hd : Handle} {va n : Nat} {g : GenWin} (hsealed : hd.sealed = false)
    (hgen : s.genAt s.me.ident.ctx va = some (n, g)) (hstrap : g.strap = false) (bs : List Byte) :
    s.storePage hd va bs = .done (s.genDrop 1) := by
  have hchk : s.storeCheck hd va = .ok true := by
    rw [State.storeCheck, need_true (by simp [hsealed]), hgen]
    simp only [hstrap]
    rfl
  rw [State.storePage, ofChk_of_ok hchk]
  rfl

theorem State.storePage_leaf {s : State} {hd : Handle} {va : Nat} {e : PEntry} (hsealed : hd.sealed = false) (hwr : hd.wr = true)
    (hgen : s.genAt s.me.ident.ctx va = none) (hleaf : s.leafOf s.me.ident.ctx va = some e) (hframe : s.frameExists e = true) (bs : List Byte) :
    s.storePage hd va bs = .done ((s.tally e va bs.length).writePage s.me.ident.ctx va e bs (some s.me.ident.core)) := by
  have hchk : s.storeCheck hd va = .ok false := by
    rw [State.storeCheck, need_true (by simp [hsealed]), hgen]
    simp only [hwr]
    rfl
  have hleaf' : s.handleLeaf va = some e := hleaf
  rw [State.storePage, ofChk_of_ok hchk]
  simp only [hleaf', ofChk_of_ok (State.needFrame_ok hframe), Bool.false_eq_true, if_false]

theorem storeRow_gen {i : Instr} {r : LdSt} (hi : storeRow i = some r) (h1 : r.h = 1) (g : GenWin) : (genStoreClaim r g).Holds i := by
  refine Claim.holds_checked _ _ (fun _ => rfl) rfl (fun _ => rfl)
    (fun s h => (storeRow_exec hi s).trans (issuePre_good (badBase_false fun _ => h.1) ..))
    (fun a t ⟨_, hallow, hsealed, hstrap, n, hgen⟩ => ⟨a.genDrop 1, ?_, fun p _ hn => a.onCtx_same _ _ p (by simpa [genStoreClaim] using hn), fun s via c hc => ?_⟩)
    (by simp [genStoreClaim]) (by simp [genStoreClaim])
  · rw [LdSt.storeAt_page h1 hallow, State.storePage_window hsealed hgen hstrap]
  · rw [State.closed_ctx, State.genDrop, State.onCtx_ctx_some hc]
    rfl

/-- R158, R341: a store to a page is counted first; then the write does what is left, `w`. -/
theorem LdSt.storeAt_leaf {r : LdSt} (h1 : r.h = 1) {a : State} {e : PEntry}
    (hallow : (r.handle a).allows (r.va a) r.size) (hsealed : (r.handle a).sealed = false) (hwr : (r.handle a).wr = true)
    (hgen : a.genAt a.me.ident.ctx (r.va a) = none) (hleaf : a.leafOf a.me.ident.ctx (r.va a) = some e) (hframe : a.frameExists e = true) :
    (ofChk (a.site r.h r.base (r.off a) r.size) fun p => a.storeAt p (leBytes r.size (a.me.sreg r.r).toNat)) =
      .done ((a.tally e (r.va a) r.size).writePage a.me.ident.ctx (r.va a) e (leBytes r.size (a.me.sreg r.r).toNat) (some a.me.ident.core)) := by
  rw [LdSt.storeAt_page h1 hallow, State.storePage_leaf hsealed hwr hgen hleaf hframe, leBytes_length]

theorem State.hbmPut_same (s : State) (la : Nat) (bs : List Byte) (p : Aspect) (h : p ≠ .hbm) : s.same (s.hbmPut la bs) p := by
  have h' := s.same_refl p
  cases p with
  | hbm => exact absurd rfl h
  | _ => exact h'

theorem State.hostPut_same (s : State) (a : Nat) (bs : List Byte) (p : Aspect) (h : p ≠ .host) : s.same (s.hostPut a bs) p := by
  have h' := s.same_refl p
  cases p with
  | host => exact absurd rfl h
  | _ => exact h'

/-- An item behind a check that its claim's condition lets pass, whose effect is a claim's operation but for the parts that it names. -/
theorem Claim.holds_checked_effect (c : Claim) {i : Instr} (f : State → Nat → Effect) (hflow : ∀ s, c.flow s = .straight) (hres : c.result = .none)
    (hx : ∀ s, c.pre (s.arrived c.eng c.y) → exec i s = issue c.eng c.y c.srcs s f)
    (hb : ∀ (a : State) (t : Nat), c.pre a → ∃ u, f a t = .done u ∧ a.me.SameCourse (c.does a).me ∧
      (∀ p, p ≠ .bufs → p ∉ c.parts → (c.does a).same u p) ∧ ∀ (s : State) (via : Bool), c.post (c.does a) (s.closed u c.eng c.y via))
    (he : Aspect.engine c.eng ∉ c.parts) (hp : Aspect.phase ∉ c.parts) : c.Holds i := by
  intro s hr hpre
  obtain ⟨u, hf, hcourse, hframe, hpost⟩ := hb (s.arrived c.eng c.y) (s.issueAt c.eng c.y) hpre
  have heng : u.eng c.eng = (c.mid s).eng c.eng := hframe _ (by simp) he
  refine ⟨_, (hx s hpre).trans (issue_done _ _ _ _ _ _ hr hf), Claim.done_of _ s u _ (hflow _) ⟨.of_course hcourse _, ⟨_, heng⟩, ?_, ?_,
    fun p hn => ?_⟩ (hpost s _)⟩
  · exact State.same_trans _ _ _ .phase hcourse.phase (hframe _ (by simp) hp)
  · rw [hres]
    exact congrArg EngineState.flight heng
  · simp only [List.mem_cons, not_or] at hn
    exact hframe p hn.2.1 hn.2.2

theorem State.closed_hbm (s u : State) (e : Engine) (y : BitVec 2) (via : Bool) (x : Nat) : memGet (s.closed u e y via).mem.hbm x = memGet u.mem.hbm x :=
  State.closed_same s u u e y via .hbm (State.same_refl _ _) (by simp) (by simp) x

theorem State.closed_host (s u : State) (e : Engine) (y : BitVec 2) (via : Bool) (x : Nat) :
    memGet (s.closed u e y via).mem.host x = memGet u.mem.host x :=
  State.closed_same s u u e y via .host (State.same_refl _ _) (by simp) (by simp) x

theorem State.writePage_local {s : State} {e : PEntry} (h : e.state = stLocal) (ctx va : Nat) (bs : List Byte) (core : Option Nat) :
    s.writePage ctx va e bs core = s.storeLocal (paLocal (e.pa + va % e.size)) bs := by
  simp [State.writePage, State.writePageBy, h, stLocal, stMigrating, stRemote, stLeasedIn, stRevoking, stDup]

theorem State.storeLocal_frame {s : State} {la : Nat} (h : ¬(bellBase ≤ la ∧ la < bellBase + 2 ^ 16)) (bs : List Byte) :
    s.storeLocal la bs = s.hbmPut la bs := if_neg h

theorem storeRow_local {i : Instr} {r : LdSt} (hi : storeRow i = some r) (h1 : r.h = 1) (e : PEntry) : (pageStoreClaim r e).Holds i := by
  refine Claim.holds_checked_effect _ _ (fun _ => rfl) rfl
    (fun s h => (storeRow_exec hi s).trans (issuePre_good (badBase_false fun _ => h.1) ..))
    (fun a t ⟨_, hallow, hsealed, hwr, hgen, hleaf, hframe, hlocal, hbell⟩ => ⟨_, LdSt.storeAt_leaf h1 hallow hsealed hwr hgen hleaf hframe,
      a.tally_course _ _ _, fun p _ hn => ?_, fun s via x => ?_⟩) (by simp [pageStoreClaim]) (by simp [pageStoreClaim])
  · rw [State.writePage_local hlocal, State.storeLocal_frame hbell]
    exact State.hbmPut_same _ _ _ p (by simpa [pageStoreClaim] using hn)
  · rw [State.writePage_local hlocal, State.storeLocal_frame hbell, State.closed_hbm]
    simp only [pageStoreClaim, r.va_tally (.inr hi), State.tally_sreg]
    exact memGet_put_leBytes _ _ _ _ _

theorem State.frameExists_host {s : State} {e : PEntry} (h : e.hostf = true) : s.frameExists e = true := by simp [State.frameExists, h]

theorem State.writePage_host {s : State} {e : PEntry} (h : e.state = stRemote) (hh : e.hostf = true) (ctx va : Nat) (bs : List Byte) (core : Option Nat) :
    s.writePage ctx va e bs core = s.hostPut (e.pa + va % e.size) bs := by
  simp [State.writePage, State.writePageBy, h, hh, stMigrating, stRemote]

theorem storeRow_host {i : Instr} {r : LdSt} (hi : storeRow i = some r) (h1 : r.h = 1) (e : PEntry) : (hostStoreClaim r e).Holds i := by
  refine Claim.holds_checked_effect _ _ (fun _ => rfl) rfl
    (fun s h => (storeRow_exec hi s).trans (issuePre_good (badBase_false fun _ => h.1) ..))
    (fun a t ⟨_, hallow, hsealed, hwr, hgen, hleaf, hremote, hhost⟩ =>
      ⟨_, LdSt.storeAt_leaf h1 hallow hsealed hwr hgen hleaf (State.frameExists_host hhost), a.tally_course _ _ _, fun p _ hn => ?_,
        fun s via x => ?_⟩) (by simp [hostStoreClaim]) (by simp [hostStoreClaim])
  · rw [State.writePage_host hremote hhost]
    exact State.hostPut_same _ _ _ p (by simpa [hostStoreClaim] using hn)
  · rw [State.writePage_host hremote hhost, State.closed_host]
    simp only [hostStoreClaim, r.va_tally (.inr hi), State.tally_sreg]
    exact memGet_put_leBytes _ _ _ _ _

/-! To another module. -/

/-- R323: the bytes of a store stand in its packet's payload from its place in the line on. -/
theorem storePacket_payload (dmod smod la ctx : Nat) (n : Nat) (v : BitVec 64) {k : Nat} (hk : k < n) :
    (storePacket dmod smod la ctx (leBytes n v.toNat)).payload.getD (la % 64 + k) 0 = byteOf v k := by
  have hlen : k < (leBytes n v.toNat).length := by rw [leBytes_length]; exact hk
  show (List.replicate (la % 64) 0 ++ leBytes n v.toNat ++ _).getD (la % 64 + k) 0 = _
  rw [List.append_assoc, List.getD_append_right _ _ _ _ (by simp), List.length_replicate, Nat.add_sub_cancel_left, List.getD_append _ _ _ _ hlen,
    List.getD_eq_getElem _ _ hlen, leBytes_byteOf n v k hk]

theorem State.forwardStore_fwds (s : State) (pk : Packet) (va line : Nat) (core : Option Nat) (agent : Option Agent) (size : Nat) :
    ∃ f ∈ (s.forwardStore pk va line core agent size).links.fwds, f.core = core ∧ f.reg = none ∧ f.size = size ∧
      ∃ tag, f.pkt = { pk with tag := tag } := by
  obtain ⟨f, hf, hcore, hreg, hsize, -, hpkt⟩ := State.forwardFor_fwds s
    { tag := 0, pkt := pk, va := va, line := line, first := 0, sent := 0, moved := false, unsent := false, shown := [], core := core, reg := none
      size := size, signed := false, agent := agent }
  exact ⟨f, hf, hcore, hreg, hsize, _, hpkt⟩

/-- R341, R349: where the store of a page that another module owns goes. -/
theorem State.writePage_far {s : State} {e : PEntry} {ctx va : Nat} {x : Option Replica}
    (h : x = none ∧ (e.state = stRemote ∧ e.hostf = false ∨ e.state = stLeasedIn ∨ e.state = stRevoking) ∨
      e.state = stDup ∧ x ≠ none ∧ s.pages.replicas.find? (fun p => p.ctx == ctx && p.va == e.base va) = x) (bs : List Byte) (core : Option Nat) :
    s.writePage ctx va e bs core = s.forwardStore (storePacket (e.farHome x va).1 s.boot.modnum (e.farHome x va).2 ctx bs) va
      ((e.farHome x va).2 / 64) core none bs.length := by
  rcases h with ⟨rfl, ⟨h, hh⟩ | h | h⟩ | ⟨h, hx, hfind⟩
  · simp [State.writePage, State.writePageBy, h, hh, stMigrating, stRemote, PEntry.farHome]
  · simp [State.writePage, State.writePageBy, h, stMigrating, stRemote, stLeasedIn, PEntry.farHome]
  · simp [State.writePage, State.writePageBy, h, stMigrating, stRemote, stLeasedIn, stRevoking, PEntry.farHome]
  · obtain ⟨y, rfl⟩ := Option.ne_none_iff_exists'.1 hx
    simp [State.writePage, State.writePageBy, h, hfind, stMigrating, stRemote, stLeasedIn, stRevoking, stDup, PEntry.farHome]

/-- R343, R348: what a notification may change. -/
def notifyParts : List Aspect := [.hbm, .counters, .contexts, .frontEnd]

theorem State.notify_same (s : State) (ctx va typ arg : Nat) (p : Aspect) (h : p ∉ notifyParts) : s.same (s.notify ctx va typ arg) p := by
  simp only [notifyParts, List.mem_cons, List.not_mem_nil, or_false, not_or] at h
  obtain ⟨hhbm, hctr, hctx, hfe⟩ := h
  unfold State.notify
  split
  · exact s.same_refl p
  · dsimp only
    split
    · exact s.hbmPut_same _ _ p hhbm
    · have hput (la lb : Nat) (bs cs : List Byte) : s.same ((s.hbmPut la bs).hbmPut lb cs) p :=
        State.same_trans _ _ _ _ (s.hbmPut_same la bs p hhbm) (State.hbmPut_same _ lb cs p hhbm)
      split
      · exact hput _ _ _ _
      · exact State.same_trans _ _ _ _ (hput _ _ _ _) (State.addCtr_same _ _ _ _ p (by simp [hctr, hctx, hfe]))

theorem State.touch_same (s : State) (ctx : Nat) (e : PEntry) (va lines : Nat) (p : Aspect) (h : p ∉ notifyParts) :
    s.same (s.touch ctx e va lines) p := by
  have hctx (f : Context → Context) : s.same (s.onCtx ctx f) p := s.onCtx_same ctx f p fun hc => h (hc ▸ by simp [notifyParts])
  unfold State.touch
  split
  · exact s.same_refl p
  · dsimp only
    split
    all_goals
      split
      · exact State.same_trans _ _ _ _ (hctx _) (State.notify_same _ _ _ _ _ p h)
      · exact hctx _

theorem State.tally_same (s : State) (e : PEntry) (va size : Nat) (p : Aspect) (h : p ∉ .bufs :: notifyParts) : s.same (s.tally e va size) p := by
  simp only [List.mem_cons, not_or] at h
  exact State.same_trans _ _ _ _ (s.touch_same _ _ _ _ p h.2) (State.addBuf_same _ _ size 0 p h.1)

theorem State.tally_pages (s : State) (e : PEntry) (va size : Nat) : (s.tally e va size).pages = s.pages :=
  s.tally_same e va size .pages (by simp [notifyParts])

theorem storeRow_far {i : Instr} {r : LdSt} (hi : storeRow i = some r) (h1 : r.h = 1) (e : PEntry) (x : Option Replica) :
    (remoteStoreClaim r e x).Holds i := by
  refine Claim.holds_checked_effect _ _ (fun _ => rfl) rfl
    (fun s h => (storeRow_exec hi s).trans (issuePre_good (badBase_false fun _ => h.1) ..))
    (fun a t ⟨_, hallow, hsealed, hwr, hgen, hleaf, hframe, hfar⟩ => ?_) (by simp [remoteStoreClaim, farParts]) (by simp [remoteStoreClaim, farParts])
  have hwrite := State.writePage_far (s := a.tally e (r.va a) r.size) (ctx := a.me.ident.ctx) (va := r.va a) (x := x) (e := e)
    (by rw [State.tally_pages]; exact hfar) (leBytes r.size (a.me.sreg r.r).toNat) (some a.me.ident.core)
  refine ⟨_, (LdSt.storeAt_leaf h1 hallow hsealed hwr hgen hleaf hframe).trans (congrArg Effect.done hwrite), a.tally_course _ _ _, fun p _ hn => ?_,
    fun s via => ?_⟩
  · exact (State.forwardFor_onlyLinks _ _).same p fun hl => hn (hl ▸ by simp [remoteStoreClaim, farParts])
  · obtain ⟨f, hf, hcore, hreg, hsize, tag, hpkt⟩ := State.forwardStore_fwds (a.tally e (r.va a) r.size)
      (storePacket (e.farHome x (r.va a)).1 (a.tally e (r.va a) r.size).boot.modnum (e.farHome x (r.va a)).2 a.me.ident.ctx
        (leBytes r.size (a.me.sreg r.r).toNat)) (r.va a) ((e.farHome x (r.va a)).2 / 64) (some a.me.ident.core) none
      (leBytes r.size (a.me.sreg r.r).toNat).length
    refine ⟨f, by rw [State.closed_links]; exact hf, ?_⟩
    simp only [remoteStoreClaim, r.va_tally (.inr hi), State.tally_sreg, State.tally_ident, hpkt]
    refine ⟨hcore, hreg, hsize.trans (leBytes_length _ _), rfl, rfl, rfl, ?_, fun k hk => storePacket_payload _ _ _ _ _ _ hk⟩
    simp only [storePacket, leBytes_length]

/-- Settles O21: the stores by the place that they write. -/
theorem stores : Obligations.Stores := by
  unfold Obligations.Stores
  exact fun i r hi => ⟨storeRow_spad hi, fun h1 => ⟨storeRow_gen hi h1, fun e => ⟨storeRow_local hi h1 e, storeRow_host hi h1 e, storeRow_far hi h1 e⟩⟩⟩

/-! ## TIMEALIGN, EMOV, TRACE, YIELD, ERD and ESTORE (10_system R229 to R231) -/

/-- R229: rounding to the nearest, ties to even. -/
theorem isRne94_rndDiv (x : Nat) : IsRne94 x (rndDiv .rne false (x * 94) 100) := by
  have hdiv := Nat.div_add_mod (x * 94) 100
  have hmod := Nat.mod_lt (x * 94) (show 0 < 100 by decide)
  simp only [rndDiv]
  generalize x * 94 / 100 = q at *
  generalize x * 94 % 100 = r at *
  unfold IsRne94
  by_cases hup : 100 < 2 * r ∨ 2 * r = 100 ∧ q % 2 = 1
  · rw [if_pos (by simpa using hup)]
    omega
  · rw [if_neg (by simpa using hup)]
    omega

theorem State.withTime_same (s : State) (x : GroupTime) (p : Aspect) (h : p ≠ .clock) : s.same (s.onMe fun g => { g with time := x }) p := by
  have h' := s.same_refl p
  cases p with
  | clock => exact absurd rfl h
  | regs => exact fun r => by cases r <;> rfl
  | _ => exact h'

theorem timealign_holds (y : BitVec 2) (a : BitVec 5) (c : Claim) (h : platformRow (.timealign y a) = some c) : c.Holds (.timealign y a) := by
  obtain rfl := Option.some.inj h
  refine plainItem_holds _ (fun s => show execTimealign y a s = _ from rfl) fun u t hnow =>
    ⟨_, if_neg (Nat.not_lt.2 hnow), fun p hn => u.withTime_same _ p (by simpa using hn), fun s via => ?_⟩
  have hclock := State.closed_same s (u.onMe fun g => { g with time := { g.time with
    cycBase := cycleOfTime (u.me.sreg a), cycAt := u.time.now, align := some (u.me.sreg a) } }) _ .c y via .clock (State.same_refl _ _) (by simp) (by simp)
  obtain ⟨-, -, hbase, hat, halign, -⟩ := hclock
  refine ⟨?_, hat, halign⟩
  rw [hbase]
  exact isRne94_rndDiv _

theorem emov_holds (y : BitVec 2) (d a : BitVec 3) (c : Claim) (h : platformRow (.emov y d a) = some c) : c.Holds (.emov y d a) := by
  obtain rfl := Option.some.inj h
  exact resultItem_holds _ (fun s => show execEmov y d a s = _ from rfl) fun u t _ => ⟨u, rfl, fun p _ => u.same_refl p, fun _ _ => trivial⟩

theorem trace_holds (y : BitVec 2) (d a : BitVec 5) (c : Claim) (h : platformRow (.trace y d a) = some c) : c.Holds (.trace y d a) := by
  obtain rfl := Option.some.inj h
  refine plainItem_holds _ (fun s => show execTrace y d a s = _ from rfl) fun u t _ =>
    ⟨_, rfl, fun p hn => ?_, fun s via hloss hroom => ?_⟩
  · simp only [List.mem_cons, List.not_mem_nil, or_false, not_or] at hn
    exact u.trace_same _ _ _ _ _ p hn.1 hn.2
  · have htrace := (State.closed_same s (u.trace 2 0 d.toNat u.me.itemSeq (u.me.sreg a)) _ .c y via .trace (State.same_refl _ _) (by simp) (by simp)).1
    let r : TraceRec :=
      { typ := 2, engine := 0, k := BitVec.ofNat 8 d.toNat, group := BitVec.ofNat 32 u.me.ident.index
        seq := BitVec.ofNat 64 u.me.itemSeq, cycle := BitVec.ofNat 64 u.groupCycles, data := u.me.sreg a }
    refine ⟨r, htrace.trans ?_, rfl, rfl, rfl, rfl⟩
    simp [r, State.trace, State.onMe, Group.traceAdd, Group.tracePut, hloss, hroom]

theorem yield_holds (y : BitVec 2) (c : Claim) (h : platformRow (.yield y) = some c) : c.Holds (.yield y) := by
  obtain rfl := Option.some.inj h
  refine plainItem_holds _ (fun s => show execYield y s = _ from rfl) fun u t _ => ?_
  dsimp only
  split
  · next hmove =>
    refine ⟨_, rfl, fun p hn => ?_, fun s via hwanted => absurd hmove.2.1 (by simp [hwanted])⟩
    have h' := u.same_refl p
    simp only [State.mapGroups]
    split
    all_goals
      cases p with
      | irq => simp at hn
      | groups => simp at hn
      | regs => exact fun r => by cases r <;> rfl
      | _ => exact h'
  · refine ⟨u, rfl, fun p _ => u.same_refl p, fun s via _ => ⟨?_, ?_⟩⟩
    · exact (State.closed_same s u u .c y via .irq (State.same_refl _ _) (by simp) (by simp)).2
    · exact State.closed_same s u u .c y via .groups (State.same_refl _ _) (by simp) (by simp)

theorem platformRow_holds (i : Instr) (c : Claim) : platformRow i = some c → c.Holds i := by
  cases i with
  | timealign => exact timealign_holds _ _ c
  | emov => exact emov_holds _ _ _ c
  | trace => exact trace_holds _ _ _ c
  | yield => exact yield_holds _ c
  | _ => exact noRow

/-- The word of a TIMEALIGN (04_encoding), by its fields. -/
def timealignWord (y : BitVec 2) (a : BitVec 5) : BitVec 32 :=
  (0 : BitVec 3) ++ (0x7F : BitVec 7) ++ y ++ (0 : BitVec 5) ++ a ++ (0 : BitVec 5) ++ (7 : BitVec 5)

theorem timealignWord_fields (y : BitVec 2) (a : BitVec 5) : (timealignWord y a).toNat / 2 ^ 29 = 0 ∧ fld (timealignWord y a).toNat 22 7 = 0x7F ∧
    fld (timealignWord y a).toNat 0 5 = 7 ∧ fld (timealignWord y a).toNat 5 5 = 0 ∧ fld (timealignWord y a).toNat 15 5 = 0 ∧
    bvf (timealignWord y a).toNat 20 2 = y ∧ bvf (timealignWord y a).toNat 10 5 = a := by
  revert y a
  decide

/-- The word of the item at which C stands. -/
def State.cWord (s : State) : Nat :=
  match (s.eng .c).latch with
  | some (w, _) => w.toNat
  | none => s.me.store.word (s.eng .c).cur

theorem exec_podTimeReached (s : State) : exec .podTimeReached s =
    if (s.eng .c).waiting.isSome ∧ (s.eng .c).pc = .seq ∧ s.cWord / 2 ^ 29 = 0 ∧ fld s.cWord 22 7 = 0x7F ∧ fld s.cWord 0 5 = 7 ∧
        fld s.cWord 5 5 = 0 ∧ fld s.cWord 15 5 = 0 then
      exec (.timealign (bvf s.cWord 20 2) (bvf s.cWord 10 5)) { s with turn := .engine .c }
    else .next s := rfl

/-- R229: C that stalls at a TIMEALIGN tries it again. -/
theorem podTimeReached_eq {s : State} {y : BitVec 2} {a : BitVec 5} (h : s.atTimealign y a) :
    exec .podTimeReached s = exec (.timealign y a) { s with turn := .engine .c } := by
  obtain ⟨hwait, hpc, hword⟩ := h
  have hw : s.cWord = (timealignWord y a).toNat := by
    unfold State.cWord
    split at hword
    · next x hl => rw [hl]; exact congrArg BitVec.toNat hword
    · next hl => rw [hl]; exact hword
  obtain ⟨f1, f2, f3, f4, f5, hy, ha⟩ := timealignWord_fields y a
  rw [exec_podTimeReached, hw, if_pos ⟨Option.isSome_iff_ne_none.2 hwait, hpc, f1, f2, f3, f4, f5⟩, hy, ha]

theorem State.envSource_reads (s : State) {k : Nat} (h : k < 5) : ∃ v, s.envSource k = some (v, if k = 3 then { s with free := s.free + 1 } else s) ∧
    erdReads s k v := by
  interval_cases k
  · exact ⟨_, rfl, _, isRne94_rndDiv _, rfl⟩
  · exact ⟨_, rfl, rfl⟩
  · exact ⟨_, rfl, rfl⟩
  · exact ⟨_, rfl, trivial⟩
  · exact ⟨_, rfl, _, isRne94_rndDiv _, rfl⟩

/-- What ERD reads from a source. -/
def State.envWord (k : Nat) (s : State) : BitVec 64 := ((s.envSource k).map (·.1)).getD 0

theorem erd_holds (y : BitVec 2) (d : BitVec 3) (a : BitVec 5) (h : a.toNat < 5) : (erdClaim y d a (State.envWord a.toNat)).Holds (.erd y d a) := by
  refine resultItem_holds _ (fun s => show execErd y d a s = _ from rfl) (fun u t _ => ?_) (by split <;> simp) (by split <;> simp)
  obtain ⟨v, hv, -⟩ := u.envSource_reads h
  have hword : u.envWord a.toNat = v := by simp [State.envWord, hv]
  refine ⟨if a.toNat = 3 then { u with free := u.free + 1 } else u, ?_, fun p hn => ?_, fun _ _ => trivial⟩
  · rw [hv, hword]
  · split
    · next h3 =>
      have ha : a = 3 := BitVec.eq_of_toNat_eq h3
      exact u.withFree_same _ p (by simpa [ha] using hn)
    · exact u.same_refl p

theorem erd_unassigned {s : State} {y : BitVec 2} {d : BitVec 3} {a : BitVec 5} (hr : s.Ready .c y []) (h : 5 ≤ a.toNat) :
    exec (.erd y d a) s = .next (s.trapAt .c causeIllegal 0 0 false) := by
  refine (show exec (.erd y d a) s = execErd y d a s from rfl).trans (issue_trap _ _ _ _ _ _ _ _ hr rfl ?_)
  have hnone : (s.arrived .c y).envSource a.toNat = none := by
    unfold State.envSource
    split
    all_goals first | omega | rfl
  rw [hnone]

theorem State.storeLocal_me (s : State) (la : Nat) (bs : List Byte) : (s.storeLocal la bs).me = s.me := (s.storeLocal_groups la bs).me

theorem baseHandle_setWidth (a : BitVec 4) : baseHandle (a.setWidth 5) = a := by revert a; decide

theorem estore_holds (y : BitVec 2) (d : BitVec 3) (a : BitVec 4) (b : BitVec 5) (va : State → Nat) (e : PEntry) :
    (estoreClaim y d a b va e).Holds (.estore y d a b) := by
  refine Claim.holds_effect _ _ (fun _ => rfl) rfl (fun s => show execEstore y d a b s = _ from rfl) (fun u t hpre =>
    ⟨_, ?_, ?_, fun p _ _ => State.same_refl _ p, fun _ _ => trivial⟩) List.not_mem_nil List.not_mem_nil
  · obtain ⟨hva, hallow, hprofile, hsealed, hwr, hgen, hleaf, hframe, hlocal⟩ := hpre
    have hsite := State.site_page (s := u) (b := a.setWidth 5) (off := (u.me.sreg b).toNat) (n := 8)
    rw [baseHandle_setWidth, ← hva] at hsite
    rw [ofChk_of_ok (hsite hallow)]
    simp only [hprofile, Bool.not_true, Bool.false_eq_true, if_false]
    rw [State.storePage_leaf hsealed hwr hgen hleaf hframe, State.writePage_local hlocal, leBytes_length]
    rfl
  · simp only [estoreClaim, State.storeLocal_me]
    exact u.tally_course _ _ _

/-- Settles O36: TIMEALIGN at its issue and when its time comes, and the other instructions by their claims. -/
theorem timeAndEnvironment : Obligations.TimeAndEnvironment := by
  unfold Obligations.TimeAndEnvironment
  refine ⟨platformRow_holds, fun s y a hat => ⟨podTimeReached_eq hat, fun c hc hr hnow => ?_⟩, fun y d a =>
    ⟨fun ha => ⟨State.envWord a.toNat, fun s => ?_, erd_holds y d a ha⟩, fun ha s hr => erd_unassigned hr ha⟩, estore_holds⟩
  · have hclaim := timealign_holds y a c hc { s with turn := .engine .c }
    obtain rfl := Option.some.inj hc
    obtain ⟨t, ht, hdone⟩ := hclaim ⟨hr.runs, hr.noskip, hr.live, hr.here⟩ hnow
    exact ⟨t, (podTimeReached_eq hat).trans ht, hdone⟩
  · obtain ⟨v, hv, hreads⟩ := s.envSource_reads ha
    have hword : s.envWord a.toNat = v := by simp [State.envWord, hv]
    exact hword ▸ hreads

end Sys2Proof.Machine
end

section
-- One declaration after another: the whole text is checked in one process, of bounded memory.
set_option Elab.async false
/-! SUPPORT. The value-returning atomics (08_memory_ops R172 to R176). -/

namespace Sys2Proof.Machine

/-! ## The operation of a form (R173) -/

theorem readAs_eq {w : BitVec 2} {v : Nat} (h : v < 2 ^ (if w.toNat < 2 then 32 else 64)) :
    readAs w v = intVal (w.toNat % 2 == 0) (if w.toNat < 2 then 32 else 64) v := by
  unfold readAs intVal
  by_cases hw : w.toNat % 2 = 0
  · simp only [hw, if_true, sextNat_toInt, BEq.rfl]
  · simp only [hw, if_false, beq_iff_eq, Nat.mod_eq_of_lt h]

theorem saturated_eq (w : BitVec 2) (z : Int) :
    saturated w z = wrapInt (if w.toNat < 2 then 32 else 64) (clampInt (w.toNat % 2 == 0) (if w.toNat < 2 then 32 else 64) z) := by
  have hwrap (n : Nat) (x : Int) : (BitVec.ofInt n x).toNat = wrapInt n x := by rw [BitVec.toNat_ofInt]; rfl
  unfold saturated clampInt intMin intMax
  simp only [hwrap, beq_iff_eq]
  by_cases hw : w.toNat % 2 = 0 <;> simp only [hw, if_true, if_false] <;> push_cast <;> rfl

/-- A form of an atomic is the operation `op` of the machine: the registers that it reads and writes, its types, and its value. -/
structure AtomicForm.Is (r : AtomicForm) (op : Nat) (sat : Bool) (p : BitVec 3) : Prop where
  second : r.second = true ↔ op = 2 ∨ op = 9
  pred : r.pred = if op = 9 then some p else none
  unsignedOnly : r.unsignedOnly = true ↔ 8 ≤ op
  new : ∀ old v u, old < 2 ^ r.bits → v < 2 ^ r.bits → r.new old v u = atomicNew op (r.w.toNat % 2 == 0) r.bits sat old v u

theorem atomicRow_op {i : Instr} {r : AtomicForm} (h : atomicRow i = some r) :
    ∃ op sat p, r.Is op sat p ∧ ∀ s, exec i s = atomic op r.y r.t r.base r.h r.w r.scope sat p s := by
  revert h
  cases i with
  | aadd y t b h' w k q =>
    intro h; cases h
    refine ⟨0, q == 1, 0, ⟨by simp, by simp, by simp, fun old v u ho hv => ?_⟩, fun _ => rfl⟩
    simp only [atomicNew, beq_iff_eq, readAs_eq ho, readAs_eq hv, saturated_eq]
    rfl
  | axchg => intro h; cases h; exact ⟨1, false, 0, ⟨by simp, by simp, by simp, fun old v u _ _ => rfl⟩, fun _ => rfl⟩
  | acas => intro h; cases h; exact ⟨2, false, 0, ⟨by simp, by simp, by simp, fun old v u _ _ => rfl⟩, fun _ => rfl⟩
  | amin =>
    intro h; cases h
    refine ⟨3, false, 0, ⟨by simp, by simp, by simp, fun old v u ho hv => ?_⟩, fun _ => rfl⟩
    simp only [atomicNew, readAs_eq ho, readAs_eq hv, ← not_lt, ite_not]
    rfl
  | amax =>
    intro h; cases h
    refine ⟨4, false, 0, ⟨by simp, by simp, by simp, fun old v u ho hv => ?_⟩, fun _ => rfl⟩
    simp only [atomicNew, readAs_eq ho, readAs_eq hv, ← not_lt, ite_not]
    rfl
  | aand => intro h; cases h; exact ⟨5, false, 0, ⟨by simp, by simp, by simp, fun old v u _ _ => rfl⟩, fun _ => rfl⟩
  | aor => intro h; cases h; exact ⟨6, false, 0, ⟨by simp, by simp, by simp, fun old v u _ _ => rfl⟩, fun _ => rfl⟩
  | axor => intro h; cases h; exact ⟨7, false, 0, ⟨by simp, by simp, by simp, fun old v u _ _ => rfl⟩, fun _ => rfl⟩
  | aincw => intro h; cases h; exact ⟨8, false, 0, ⟨by simp, by simp, by simp, fun old v u _ _ => rfl⟩, fun _ => rfl⟩
  | afaddb y t b h' w k p => intro h; cases h; exact ⟨9, false, p, ⟨by simp, by simp, by simp, fun old v u _ _ => rfl⟩, fun _ => rfl⟩
  | _ => exact noRow

theorem AtomicForm.Is.srcs {r : AtomicForm} {op : Nat} {sat : Bool} {p : BitVec 3} (h : r.Is op sat p) :
    (.s r.t :: (if op = 2 ∨ op = 9 then [.s (r.t + 1)] else []) ++ (if r.h = 1 then [.s (r.t + 2)] else []) ++ memSrcs r.h r.base) = r.srcs := by
  simp only [AtomicForm.srcs, h.second]
  rfl

theorem AtomicForm.Is.good {r : AtomicForm} {op : Nat} {sat : Bool} {p : BitVec 3} (h : r.Is op sat p) (ha : r.assigned)
    (hb : r.h = 1 → r.base.getLsbD 4 = false) : badAtomic op r.t r.base r.h r.w r.scope = none := by
  obtain ⟨hscope, htype, hgroup⟩ := ha
  rw [h.unsignedOnly] at htype
  have hbase : badBase r.h r.base = false := by
    by_cases h1 : r.h = 1
    · rw [badBase, hb h1, Bool.and_false]
    · rw [badBase, beq_false_of_ne h1, Bool.false_and]
  rw [badAtomic, hbase, if_neg (by simp), causeIf, if_neg]
  simp only [Bool.or_eq_true, Bool.and_eq_true, decide_eq_true_eq]
  omega

/-! ## The result (R160, R173) -/

theorem State.atomicResult_eng (s : State) (o : AtOp) (d : BitVec 5) (p : BitVec 3) (old land : Nat) (added : Bool) (buf : Option (BitVec 8))
    (req interval : Option Nat) : (s.atomicResult o d p old land added buf req interval).eng .c =
      { s.eng .c with flight := ((s.atomicResult o d p old land added buf req interval).eng .c).flight } := by
  unfold State.atomicResult
  dsimp only
  split
  · rw [State.lateResult_eng, State.lateResult_eng]
  · rw [State.lateResult_eng]

theorem State.atomicResult_same (s : State) (o : AtOp) (d : BitVec 5) (p : BitVec 3) (old land : Nat) (added : Bool) (buf : Option (BitVec 8))
    (req interval : Option Nat) (q : Aspect) (h : q ≠ .engine .c) : s.same (s.atomicResult o d p old land added buf req interval) q := by
  unfold State.atomicResult
  dsimp only
  split
  · exact State.same_trans _ _ _ _ (s.lateResult_same _ _ _ _ _ _ q h) (State.lateResult_same _ _ _ _ _ _ _ q h)
  · exact s.lateResult_same _ _ _ _ _ _ q h

theorem AtomicForm.Is.lands {r : AtomicForm} {op : Nat} {sat : Bool} {p : BitVec 3} (h : r.Is op sat p) {a u t : State} {o : AtOp} (ho : o.op = op)
    {old lat : Nat} {added : Bool} {buf : Option (BitVec 8)} {req interval : Option Nat} (hu : (u.eng .c).flight = (a.eng .c).flight)
    (ht : (t.eng .c).flight = ((u.atomicResult o r.t p old ((a.eng .c).clk + r.y.toNat + lat) added buf req interval).eng .c).flight) :
    r.Lands a t (extendTo o.signed o.bits old) added lat := by
  refine ⟨lateFlight (.s r.t) (.word (extendTo o.signed o.bits old)) ((a.eng .c).clk + r.y.toNat + lat) buf req interval, rfl, rfl, rfl, rfl, rfl, ?_⟩
  rw [h.pred]
  unfold State.atomicResult at ht
  rw [ho] at ht
  by_cases h9 : op = 9
  · rw [if_pos h9]
    refine ⟨lateFlight (.p p) (.bit added) ((a.eng .c).clk + r.y.toNat + lat) buf req interval, rfl, rfl, rfl, rfl, rfl, ?_⟩
    rw [ht, if_pos h9, State.lateResult_eng, State.lateResult_eng, ← hu]
    simp [List.filter_append, lateFlight]
  · rw [if_neg h9]
    rw [ht, if_neg h9, State.lateResult_eng, ← hu]

/-- An item with results of its own kind in flight, behind a check that its claim's condition lets pass. -/
theorem Claim.holds_other (c : Claim) {i : Instr} (f : State → Nat → Effect) (hflow : ∀ s, c.flow s = .straight)
    (hres : c.result = .other) (hx : ∀ s, c.pre (s.arrived c.eng c.y) → exec i s = issue c.eng c.y c.srcs s f)
    (hb : ∀ a : State, c.pre a → ∃ u, f a ((a.eng c.eng).clk + c.y.toNat) = .done u ∧ a.me.SameCourse (c.does a).me ∧
      (c.does a).OnlyFlight u c.eng ∧ (∀ p, p ≠ .engine c.eng → p ≠ .bufs → p ∉ c.parts → (c.does a).same u p) ∧
      ∀ (s : State) (via : Bool), c.post (c.does a) (s.closed u c.eng c.y via)) (hp : Aspect.phase ∉ c.parts) : c.Holds i := by
  intro s hr hpre
  obtain ⟨u, hf, hcourse, honly, hframe, hpost⟩ := hb (s.arrived c.eng c.y) hpre
  rw [State.arrived_eng] at hf
  refine ⟨_, (hx s hpre).trans (issue_done _ _ _ _ _ _ hr hf), Claim.done_of _ s u _ (hflow _) ⟨.of_course hcourse _, honly, ?_, ?_, fun p hn => ?_⟩
    (hpost s _)⟩
  · exact State.same_trans _ _ _ .phase hcourse.phase (hframe _ (by simp) (by simp) hp)
  · rw [hres]; trivial
  · simp only [List.mem_cons, not_or] at hn
    exact hframe p hn.1 hn.2.1 hn.2.2

/-- An atomic that completes with `w`: its operation, but for the parts of the claim, then its result, and what comes behind that. -/
theorem AtomicForm.Is.holds {r : AtomicForm} {op : Nat} {sat : Bool} {p : BitVec 3} (h : r.Is op sat p) (c : Claim) {i : Instr}
    (f : State → Nat → Effect) (hc : c.eng = .c) (hy : c.y = r.y) (hflow : ∀ s, c.flow s = .straight) (hres : c.result = .other)
    (hx : ∀ s, c.pre (s.arrived .c r.y) → exec i s = issue .c r.y c.srcs s f)
    (hb : ∀ a : State, c.pre a → ∃ (u w : State) (o : AtOp) (old lat : Nat) (added : Bool) (buf : Option (BitVec 8)) (req interval : Option Nat),
      o.op = op ∧ f a ((a.eng .c).clk + r.y.toNat) = .done w ∧ a.me.SameCourse (c.does a).me ∧
      (∀ q, q ≠ .bufs → q ∉ c.parts → (c.does a).same u q) ∧
      (∀ q, q ≠ .bufs → q ∉ c.parts → (u.atomicResult o r.t p old ((a.eng .c).clk + r.y.toNat + lat) added buf req interval).same w q) ∧
      ∀ (s : State) (via : Bool), r.Lands (c.does a) (s.closed w .c r.y via) (extendTo o.signed o.bits old) added lat →
        c.post (c.does a) (s.closed w .c r.y via))
    (he : Aspect.engine .c ∉ c.parts) (hp : Aspect.phase ∉ c.parts) : c.Holds i := by
  obtain ⟨e, y, srcs, pre, does, flow, result, parts, post⟩ := c
  obtain rfl : e = .c := hc
  obtain rfl : y = r.y := hy
  refine Claim.holds_other _ f hflow hres hx (fun a hpre => ?_) hp
  obtain ⟨u, w, o, old, lat, added, buf, req, interval, ho, hf, hcourse, hframe, hafter, hpost⟩ := hb a hpre
  have hu : u.eng .c = (does a).eng .c := hframe _ (by simp) he
  have hw : w.eng .c = (u.atomicResult o r.t p old ((a.eng .c).clk + r.y.toNat + lat) added buf req interval).eng .c := hafter _ (by simp) he
  have hclk : ((does a).eng .c).clk = (a.eng .c).clk := (congrArg EngineState.clk (hcourse.engine .c) : ((does a).eng .c).course.clk = (a.eng .c).course.clk)
  refine ⟨w, hf, hcourse, ⟨_, (hw.trans (State.atomicResult_eng ..)).trans (by rw [hu])⟩, fun q hqe hqb hqp => ?_, fun s via => hpost s via ?_⟩
  · exact State.same_trans _ _ _ _ (hframe q hqb hqp) (State.same_trans _ _ _ _ (State.atomicResult_same _ _ _ _ _ _ _ _ _ _ q hqe) (hafter q hqb hqp))
  · exact h.lands ho (congrArg EngineState.flight hu) ((s.closed_flight w .c r.y via).trans (by rw [hw, hclk]))

/-! ## Places -/

theorem leVal_lt (l : List Byte) : leVal l < 2 ^ (8 * l.length) := by
  induction l with
  | nil => exact Nat.one_pos
  | cons b l ih =>
    have hb := b.isLt
    rw [List.length_cons, Nat.mul_add, Nat.mul_one, pow_add, leVal]
    omega

theorem AtomicForm.bits_bytes (r : AtomicForm) : 8 * (r.bits / 8) = r.bits := by
  rw [AtomicForm.bits]
  split <;> rfl

theorem AtomicForm.bits_le (r : AtomicForm) : r.bits ≤ 64 := by
  rw [AtomicForm.bits]
  split <;> decide

theorem AtomicForm.bytes_le (r : AtomicForm) : r.bits / 8 ≤ 8 := by
  have h := r.bits_le
  omega

theorem AtomicForm.v_lt (r : AtomicForm) (s : State) : r.v s < 2 ^ r.bits := Nat.mod_lt _ (Nat.two_pow_pos _)

theorem memVal_lt (m : Memory) (a n : Nat) : memVal m a n < 2 ^ (8 * n) := by
  have h := leVal_lt (memBytes m a n)
  rwa [show (memBytes m a n).length = n by simp [memBytes]] at h

/-- A byte of a number of up to 64 bits that is written to memory. -/
theorem memGet_memPutVal (m : Memory) (a n x v : Nat) (hn : n ≤ 8) :
    memGet (memPutVal m a n v) x = if a ≤ x ∧ x < a + n then byteOf (BitVec.ofNat 64 v) (x - a) else memGet m x := by
  rw [memGet_putVal]
  split
  · next h =>
    obtain ⟨j, hj⟩ : ∃ j, x - a = j := ⟨_, rfl⟩
    rw [hj]
    have hj8 : j < 8 := by omega
    apply BitVec.eq_of_toNat_eq
    simp only [byteOf, BitVec.toNat_ofNat, BitVec.toNat_setWidth, BitVec.toNat_ushiftRight, Nat.shiftRight_eq_div_pow]
    interval_cases j <;> omega
  · rfl

/-- The operands of an atomic as the machine takes them. -/
def AtomicForm.op (r : AtomicForm) (op : Nat) (sat : Bool) (s : State) : AtOp := ⟨op, r.w.toNat % 2 == 0, r.bits, sat, r.v s, r.u s⟩

/-- An atomic at a checked operand that lands at a cycle. -/
def State.atomicAt (s : State) (r : AtomicForm) (o : AtOp) (p : BitVec 3) (land : Nat) : Site → Effect
  | .spad core a =>
    let frozen := (s.groupOn core).any fun g => g.phase == .frozen
    if s.me.nivose && !frozen then s.deferAtomic (.spad core a) o r.t p land
    else .done (s.performAtomic (.spad core a) frozen o r.t p land none)
  | .page hd va => s.atomicPage hd va r.w o r.t p land

/-- The offset that an atomic adds to its base. -/
def AtomicForm.off (r : AtomicForm) (s : State) : Nat := if r.h = 1 then (s.me.sreg (r.t + 2)).toNat else 0

theorem atomicRow_exec {i : Instr} {r : AtomicForm} (h : atomicRow i = some r) :
    ∃ op sat p, r.Is op sat p ∧ ∀ s, r.assigned → (r.h = 1 → r.base.getLsbD 4 = false) →
      exec i s = issue .c r.y r.srcs s fun s now => ofChk (s.site r.h r.base (r.off s) (r.bits / 8)) fun site =>
        ofChk (s.atomicCheck site r.scope.toNat) fun _ =>
          if s.cFull then .wait else s.atomicAt r (r.op op sat s) p (now + s.assumed true site) site := by
  obtain ⟨op, sat, p, hop, hx⟩ := atomicRow_op h
  refine ⟨op, sat, p, hop, fun s ha hb => ?_⟩
  rw [hx, atomic]
  dsimp only
  rw [hop.srcs]
  exact issuePre_good (hop.good ha hb) ..

theorem State.groupOn_frozen {s : State} {core : Nat} {g : Group} (h : s.groupOn core = some g) :
    (s.groupOn core).any (fun g => g.phase == .frozen) = !(s.groupOn core).any fun g => g.phase != .frozen := by
  simp [h, bne]

/-- A core's bytes depend on the groups, their places and their scratchpads only. -/
theorem State.same_spadByte {s u : State} (h : ∀ q ∈ [Aspect.groups, .ident, .phase, .spad], s.same u q) (k a : Nat) : u.spadByte k a = s.spadByte k a := by
  have hrest : u.rest = s.rest := h .groups (by simp)
  have hident : u.me.ident = s.me.ident := h .ident (by simp)
  have hphase : u.me.phase = s.me.phase := (h .phase (by simp)).1
  have hspad : memGet u.me.store.spad a = memGet s.me.store.spad a := h .spad (by simp) a
  rw [State.spadByte_eq, State.spadByte_eq, hrest, hident, hphase, hspad]

/-- R172: the bytes of the cores after an atomic on a scratchpad is performed. -/
theorem State.placePut_spadByte (s : State) (core x n v by_ k b : Nat) (hn : n ≤ 8) (hk : (s.groupOn k).isSome = true) :
    (s.placePut (.spad core x) n v by_).spadByte k b =
      if k = core ∧ x ≤ b ∧ b < x + n then byteOf (BitVec.ofNat 64 v) (b - x) else s.spadByte k b := by
  obtain ⟨g, hg, hbyte⟩ := s.spadByte_onCore core k b (fun g => { g with store := { g.store with spad := memPutVal g.store.spad x n v } })
    (fun g => ⟨rfl, rfl⟩) hk
  rw [State.placePut, hbyte]
  have hold : s.spadByte k b = memGet g.store.spad b := by rw [State.spadByte, hg]
  by_cases hcore : k = core
  · subst hcore
    simp only [if_true, true_and, hold, memGet_memPutVal _ _ _ _ _ hn]
  · simp only [hcore, if_false, false_and, hold]

theorem State.atomicCheck_spad {s : State} {core x : Nat} {k : BitVec 3} (h : core = s.me.ident.core ∨ 1 ≤ k.toNat) :
    s.atomicCheck (.spad core x) k.toNat = .ok () := by
  refine need_true (decide_eq_true ?_) _ _
  rw [State.leastScope]
  split <;> omega

theorem State.placePut_spad_same (s : State) (core a n v by_ : Nat) (p : Aspect) (h : p ∉ [Aspect.spad, .groups]) :
    s.same (s.placePut (.spad core a) n v by_) p := by
  have hme : (s.placePut (.spad core a) n v by_).me = s.me ∨ (s.placePut (.spad core a) n v by_).me = s.me.spadPut a (leBytes n v) := by
    simp only [State.placePut, State.onCore, State.mapGroups]
    split
    · exact .inr rfl
    · exact .inl rfl
  have hs : s.placePut (.spad core a) n v by_ =
      { s with me := (s.placePut (.spad core a) n v by_).me, rest := (s.placePut (.spad core a) n v by_).rest } := rfl
  have h' := s.same_refl p
  rw [hs]
  rcases hme with hme | hme
  all_goals
    rw [hme]
    cases p with
    | spad => simp at h
    | groups => simp at h
    | regs => exact fun r => by cases r <;> rfl
    | _ => exact h'

/-- An atomic performed at once: its result, over what it stores. -/
theorem State.performAtomic_eq (s : State) (pl : AtPlace) (frozen : Bool) (o : AtOp) (d : BitVec 5) (p : BitVec 3) (land : Nat)
    (buf : Option (BitVec 8)) : s.performAtomic pl frozen o d p land buf =
      (if frozen then s else s.placePut pl (o.bits / 8) (atomicNew o.op o.signed o.bits o.sat (s.placeVal pl (o.bits / 8)) o.v o.u) s.me.ident.core).atomicResult
        o d p (s.placeVal pl (o.bits / 8)) land (!frozen && fetchAdded (s.placeVal pl (o.bits / 8)) o.v o.u) buf none none := rfl

theorem atomicRow_spad {i : Instr} {r : AtomicForm} (hi : atomicRow i = some r) (core x old : Nat) : (spadAtomicClaim r core x old).Holds i := by
  obtain ⟨op, sat, p, hop, hx⟩ := atomicRow_exec hi
  refine hop.holds _ _ rfl rfl (fun _ => rfl) rfl (fun s h => hx s h.2.1 (by simp [h.1])) (fun a ⟨h0, _, hniv, hok, hgroup, hscope, hroom, hold⟩ => ?_)
    (by simp [spadAtomicClaim]) (by simp [spadAtomicClaim])
  obtain ⟨g, hg⟩ := Option.isSome_iff_exists.1 hgroup
  have hval : a.placeVal (.spad core x) (r.bits / 8) = old := by
    rw [← hold, State.spadNum_eq a core x _ g hg, State.placeVal]
    simp only [hg]
  have hlt : old < 2 ^ r.bits := by
    rw [← hold, State.spadNum_eq a core x _ g hg]
    simpa only [r.bits_bytes] using memVal_lt g.store.spad x (r.bits / 8)
  have hnew := hop.new old (r.v a) (r.u a) hlt (r.v_lt a)
  let u : State := if (a.groupOn core).any (fun g => g.phase == .frozen) then a
    else a.placePut (.spad core x) (r.bits / 8) (r.next a old) a.me.ident.core
  refine ⟨u, _, r.op op sat a, old, if core = a.me.ident.core then 12 else 48, (a.groupOn core).any (fun g => g.phase != .frozen) &&
    decide (old + r.v a ≤ r.u a), none, none, none, rfl, ?_, (Group.Undisturbed.refl _).toSameCourse, fun q _ hq => ?_, fun q _ _ => State.same_refl _ q,
    fun s via hlands => ⟨?_, fun k b hk => ?_⟩⟩
  · rw [h0, show r.off a = 0 from if_neg (by rw [h0]; decide), ofChk_of_ok (State.site_spad (by simpa using hok)),
      ofChk_of_ok (State.atomicCheck_spad (hscope)), if_neg (by simp [State.roomForResult_cFull hroom]), State.atomicAt]
    simp only [hniv, Bool.false_and, Bool.false_eq_true, if_false, State.performAtomic_eq, AtomicForm.op, hval, State.groupOn_frozen hg, Bool.not_not]
    rw [← hnew, ← State.groupOn_frozen hg]
    rfl
  · show a.same (if _ then a else _) q
    split
    · exact a.same_refl q
    · exact a.placePut_spad_same core x _ _ _ q (by simpa [spadAtomicClaim] using hq)
  · rwa [AtomicForm.op, extendTo_widened _ _ _ r.bits_le] at hlands
  · rw [State.closed_spadByte, State.same_spadByte fun q hq => State.atomicResult_same _ _ _ _ _ _ _ _ _ _ q (by rintro rfl; simp at hq)]
    show (if _ then a else _ : State).spadByte k b = _
    rw [State.groupOn_frozen hg]
    cases hwrites : (a.groupOn core).any fun g => g.phase != .frozen
    · simp [spadAtomicClaim, hwrites]
    · simp only [Bool.not_true, Bool.false_eq_true, if_false, a.placePut_spadByte core x _ _ _ k b r.bytes_le hk, spadAtomicClaim, id_eq, hwrites,
        and_true]

/-! ## In Nivose mode (R175, R176) -/

theorem Launch.trigger_id (n : Nat) (v : BitVec 64) (l : Launch) : (l.trigger n v).id = l.id := by
  unfold Launch.trigger
  split <;> rfl

theorem Launch.trigger_kd (n : Nat) (v : BitVec 64) (l : Launch) : (l.trigger n v).kd = l.kd := by
  unfold Launch.trigger
  split <;> rfl

/-- A change of counters leaves each launch its kernel. -/
theorem State.evalTriggers_kd (s : State) (n id : Nat) : ((s.evalTriggers n).launch id).map (·.kd) = (s.launch id).map (·.kd) := by
  simp only [State.launch, State.evalTriggers, List.find?_map, Option.map_map, Function.comp_def, Launch.trigger_id, Launch.trigger_kd]

theorem State.notify_kd (s : State) (ctx va typ arg id : Nat) : ((s.notify ctx va typ arg).launch id).map (·.kd) = (s.launch id).map (·.kd) := by
  unfold State.notify
  split
  · rfl
  · dsimp only
    split
    · rfl
    · split
      · rfl
      · exact State.evalTriggers_kd _ _ id

theorem State.touch_kd (s : State) (ctx : Nat) (e : PEntry) (va lines id : Nat) :
    ((s.touch ctx e va lines).launch id).map (·.kd) = (s.launch id).map (·.kd) := by
  unfold State.touch
  split
  · rfl
  · dsimp only
    split
    all_goals
      split
      · exact State.notify_kd _ _ _ _ _ id
      · rfl

theorem State.tally_kd (s : State) (e : PEntry) (va size id : Nat) : ((s.tally e va size).launch id).map (·.kd) = (s.launch id).map (·.kd) :=
  s.touch_kd _ e va _ id

theorem State.atomicParty_eq (s : State) : s.atomicParty =
    if (((s.launch s.me.ident.launch).map (·.kd)).map (·.resident)).getD false = true then none else some s.me.ident.cluster := by
  rw [Option.map_map]
  rfl

theorem State.tally_atomicParty (s : State) (e : PEntry) (va size : Nat) : (s.tally e va size).atomicParty = s.atomicParty := by
  rw [State.atomicParty_eq, State.atomicParty_eq, State.tally_ident, State.tally_kd]

theorem State.tally_alone {s : State} {e : PEntry} {va size n : Nat} {p : AtPlace} (h : s.alone p n) : (s.tally e va size).alone p n := by
  obtain ⟨hatomics, hclosing⟩ : s.same (s.tally e va size) .atomics := s.tally_same e va size .atomics (by simp [notifyParts])
  unfold State.alone State.intervalAtomics at *
  rwa [State.tally_atomicParty, State.tally_ident, hatomics, hclosing]

theorem AtPlace.overlaps_comm (p q : AtPlace) (n k : Nat) : p.overlaps n q k = q.overlaps k p n := by
  have h (c d a b : Nat) : (c == d && decide (a < b + k) && decide (b < a + n)) = (d == c && decide (b < a + n) && decide (a < b + k)) := by
    rw [Bool.and_right_comm, BEq.comm]
  cases p with
  | spad c a =>
    cases q with
    | spad d b => exact h c d a b
    | page => rfl
  | page c a pa hf =>
    cases q with
    | spad => rfl
    | page d b => exact h c d a b

/-- R175: an atomic as it waits at its home. -/
def State.pending (s : State) (pl : AtPlace) (o : AtOp) : PendAtomic :=
  { tag := s.links.nextTag, launch := s.me.ident.launch, cluster := s.atomicParty, interval := s.me.work.closed, index := s.me.ident.index
    seq := s.me.itemSeq, core := s.me.ident.core, place := pl, op := o.op, signed := o.signed, bits := o.bits, sat := o.sat, v := o.v, u := o.u
    req := s.me.itemSeq }

theorem State.withAtomics_same (s : State) (l : List PendAtomic) (q : Aspect) (h : q ≠ .atomics) :
    s.same { s with mem := { s.mem with atomics := l } } q := by
  have h' := s.same_refl q
  cases q with
  | atomics => exact absurd rfl h
  | _ => exact h'

/-- The state in which an atomic waits for its interval to close. -/
def State.deferred (s : State) (pl : AtPlace) (o : AtOp) (d : BitVec 5) (p : BitVec 3) (land : Nat) : State :=
  let u := s.newTag.2.atomicResult o d p 0 land false none (some (s.pending pl o).req) (some (s.pending pl o).interval)
  { u with mem := { u.mem with atomics := u.mem.atomics ++ [s.pending pl o] } }

theorem State.deferAtomic_done {s : State} {pl : AtPlace} {o : AtOp} (h : s.alone pl (o.bits / 8)) (d : BitVec 5) (p : BitVec 3) (land : Nat) :
    s.deferAtomic pl o d p land = .done (s.deferred pl o d p land) := by
  have hparty : s.atomicParty = if ((s.launch s.me.ident.launch).map (·.kd.resident)).getD false = true then none else some s.me.ident.cluster := rfl
  unfold State.deferAtomic
  dsimp only
  rw [← hparty, if_neg]
  · rfl
  rintro hn
  obtain ⟨hres, hany⟩ := (Bool.and_eq_true _ _).mp hn
  rw [if_neg (by simpa using hres)] at hparty
  obtain ⟨b, hb, hhit⟩ := List.any_eq_true.1 hany
  obtain ⟨hover, hother⟩ := (Bool.and_eq_true _ _).mp hhit
  rcases h with h | h
  · rw [h] at hparty; cases hparty
  · obtain ⟨hlaunch, hcluster⟩ := h b hb (AtPlace.overlaps_comm _ _ _ _ ▸ hover)
    simp [hlaunch, hcluster] at hother

theorem State.deferred_same (s : State) (pl : AtPlace) (o : AtOp) (d : BitVec 5) (p : BitVec 3) (land : Nat) (q : Aspect) (h : q ≠ .atomics) :
    (s.newTag.2.atomicResult o d p 0 land false none (some (s.pending pl o).req) (some (s.pending pl o).interval)).same (s.deferred pl o d p land) q :=
  State.withAtomics_same _ _ q h

theorem extendTo_zero (signed : Bool) (n : Nat) : extendTo signed n 0 = 0 := by
  cases signed <;> simp [extendTo, wrapInt, intVal, sextNat]

/-- R175: what waits at the home is the atomic as its claim says, in a state with the parts that it names. -/
theorem AtomicForm.Is.deferred {r : AtomicForm} {op : Nat} {sat : Bool} {p : BitVec 3} (_ : r.Is op sat p) {a b s : State} {pl : AtPlace} {land : Nat}
    {via : Bool} (hatomics : a.same b .atomics) (hclosed : b.me.work.closed = a.me.work.closed) (hident : b.me.ident = a.me.ident)
    (hparty : b.atomicParty = a.atomicParty) :
    r.Deferred a (s.closed (b.deferred pl (r.op op sat a) r.t p land) .c r.y via) pl := by
  have hresult := State.atomicResult_same b.newTag.2 (r.op op sat a) r.t p 0 land false none (some (b.pending pl (r.op op sat a)).req)
    (some (b.pending pl (r.op op sat a)).interval) .atomics (by simp)
  obtain ⟨hcl, hcc⟩ := State.closed_same s _ _ .c r.y via .atomics (State.same_refl (b.deferred pl (r.op op sat a) r.t p land) .atomics) (by simp) (by simp)
  refine ⟨hcc.trans (hresult.2.trans hatomics.2), b.pending pl (r.op op sat a), hcl.trans ?_, rfl, hclosed, ?_, hparty, ?_, ?_, rfl, rfl, rfl, rfl⟩
  · show _ ++ [_] = _ ++ [_]
    rw [hresult.1, ← hatomics.1]
    rfl
  all_goals
    simp only [State.pending, hident]

theorem atomicRow_spadInterval {i : Instr} {r : AtomicForm} (hi : atomicRow i = some r) (core x : Nat) : (spadIntervalClaim r core x).Holds i := by
  obtain ⟨op, sat, p, hop, hx⟩ := atomicRow_exec hi
  refine hop.holds _ _ rfl rfl (fun _ => rfl) rfl (fun s h => hx s h.2.1 (by simp [h.1])) (fun a ⟨h0, _, hniv, hok, hplaced, hscope, hroom, halone⟩ => ?_)
    (by simp [spadIntervalClaim]) (by simp [spadIntervalClaim])
  obtain ⟨g, hg, -⟩ := (Option.any_eq_true _ _).1 hplaced
  refine ⟨a.newTag.2, _, r.op op sat a, 0, if core = a.me.ident.core then 12 else 48, false, none, some (a.pending (.spad core x) (r.op op sat a)).req,
    some (a.pending (.spad core x) (r.op op sat a)).interval, rfl, ?_, a.newTag_onlyLinks.groups.undisturbed.toSameCourse, fun q _ _ => State.same_refl _ q,
    fun q _ hq => a.deferred_same (.spad core x) _ _ _ _ q (by simpa [spadIntervalClaim] using hq),
    fun s via hlands => ⟨?_, ?_⟩⟩
  · rw [h0, show r.off a = 0 from if_neg (by rw [h0]; decide), ofChk_of_ok (State.site_spad (by simpa using hok)),
      ofChk_of_ok (State.atomicCheck_spad hscope), if_neg (by simp [State.roomForResult_cFull hroom]), State.atomicAt]
    simp only [hniv, State.groupOn_frozen hg, hplaced, Bool.not_true, Bool.not_false, Bool.and_self, if_true]
    exact State.deferAtomic_done halone _ _ _
  · exact extendTo_zero _ _ ▸ hlands
  · exact hop.deferred ⟨rfl, rfl⟩ rfl rfl rfl

/-! ## Through a handle -/

theorem AtomicForm.va_tally (r : AtomicForm) (s : State) (e : PEntry) (va size : Nat) : r.va (s.tally e va size) = r.va s := by
  rw [AtomicForm.va, AtomicForm.va, State.tally_hreg, State.tally_sreg]

theorem State.assumed_atomic (s : State) (hd : Handle) (va : Nat) : s.assumed true (.page hd va) = atomicLatency hd.kind := by
  have hk : ∀ k : BitVec 3, (if k = kindLocal ∨ k = kindGen then 320 else if k = kindHost then 1220 else 2020) = atomicLatency k := by decide
  exact hk hd.kind

theorem State.atomicCheck_page {s : State} {hd : Handle} {va k : Nat} (hsealed : hd.sealed = false) (hwr : hd.wr = true) (hkind : hd.kind ≠ 3)
    (hscope : (if hd.kind = 0 ∨ hd.kind = 2 then 2 else 3) ≤ k) : s.atomicCheck (.page hd va) k = .ok () := by
  have hgen : (hd.kind != kindGen) = true := by simpa [kindGen] using hkind
  have hleast : s.leastScope (.page hd va) ≤ k := by
    refine le_trans ?_ hscope
    simp only [State.leastScope, kindLocal, kindHost, kindGen, hkind, or_false]
    rfl
  simp only [State.atomicCheck, hsealed, hwr, hgen, need_true (rfl : (!false) = true), need_true (rfl : true = true), need_true (decide_eq_true hleast)]
  rfl

/-- R157, R172: an allowed atomic through a handle reaches its page. -/
theorem State.atomicAllowed_body {a : State} {r : AtomicForm} (h : a.atomicAllowed r) (o : AtOp) (p : BitVec 3) (now : Nat) :
    (ofChk (a.site r.h r.base (r.off a) (r.bits / 8)) fun site => ofChk (a.atomicCheck site r.scope.toNat) fun _ =>
      if a.cFull then .wait else a.atomicAt r o p (now + a.assumed true site) site) =
    a.atomicPage (a.me.hreg (r.base.setWidth 4)) (r.va a) r.w o r.t p (now + atomicLatency (a.me.hreg (r.base.setWidth 4)).kind) := by
  obtain ⟨h1, _, _, hallow, hsealed, hwr, hkind, hscope, hroom⟩ := h
  have hoff : r.off a = (a.me.sreg (r.t + 2)).toNat := if_pos h1
  have hsite : a.site 1 r.base (a.me.sreg (r.t + 2)).toNat (r.bits / 8) = .ok (.page (a.me.hreg (r.base.setWidth 4)) (r.va a)) := State.site_page hallow
  rw [h1, hoff, ofChk_of_ok hsite, ofChk_of_ok (State.atomicCheck_page hsealed hwr hkind hscope),
    if_neg (by simp [State.roomForResult_cFull hroom]), State.assumed_atomic]
  rfl

theorem AtomicForm.op_tally (r : AtomicForm) (op : Nat) (sat : Bool) (s : State) (e : PEntry) (va size : Nat) :
    r.op op sat (s.tally e va size) = r.op op sat s := by
  simp only [AtomicForm.op, AtomicForm.v, AtomicForm.u, State.tally_sreg]

theorem State.tally_closed (s : State) (e : PEntry) (va size : Nat) : (s.tally e va size).me.work.closed = s.me.work.closed := by
  rw [State.tally_me]
  rfl

theorem atomicRow_pageInterval {i : Instr} {r : AtomicForm} (hi : atomicRow i = some r) (e : PEntry) : (pageIntervalClaim r e).Holds i := by
  obtain ⟨op, sat, p, hop, hx⟩ := atomicRow_exec hi
  refine hop.holds _ _ rfl rfl (fun _ => rfl) rfl (fun s h => hx s h.1.2.2.1 fun _ => h.1.2.1) (fun a ⟨hallow, hniv, hleaf, hframe, halone⟩ => ?_)
    (by simp [pageIntervalClaim]) (by simp [pageIntervalClaim])
  have hleaf' : a.handleLeaf (r.va a) = some e := hleaf
  let b := a.tally e (r.va a) (r.bits / 8)
  let pl : AtPlace := .page a.me.ident.ctx (r.va a) (e.pa + r.va a % e.size) e.hostf
  refine ⟨b.newTag.2, _, r.op op sat b, 0, atomicLatency (a.me.hreg (r.base.setWidth 4)).kind, false, none, some (b.pending pl (r.op op sat b)).req,
    some (b.pending pl (r.op op sat b)).interval, rfl, ?_, (a.tally_course e (r.va a) (r.bits / 8)), fun q _ _ => State.same_refl _ q,
    fun q _ hq => b.deferred_same pl _ _ _ _ q (by simpa [pageIntervalClaim] using hq),
    fun s via hlands => ⟨?_, ?_⟩⟩
  · rw [State.atomicAllowed_body hallow, State.atomicPage, hleaf', ← r.op_tally op sat a e (r.va a) (r.bits / 8)]
    dsimp only
    rw [ofChk_of_ok (State.needFrame_ok hframe), if_pos hniv]
    exact State.deferAtomic_done (State.tally_alone halone) _ _ _
  · have hk : ((pageIntervalClaim r e).does a).me.hreg (r.base.setWidth 4) = a.me.hreg (r.base.setWidth 4) := a.tally_hreg _ _ _ _
    show r.Lands _ _ 0 false (atomicLatency (((pageIntervalClaim r e).does a).me.hreg (r.base.setWidth 4)).kind)
    rw [hk]
    exact extendTo_zero _ _ ▸ hlands
  · have hpl : pl = .page b.me.ident.ctx (r.va b) (e.pa + r.va b % e.size) e.hostf := by
      simp only [pl, b, r.va_tally, State.tally_ident]
    rw [hpl]
    exact hop.deferred (a := b.newTag.2) ⟨rfl, rfl⟩ rfl rfl rfl

theorem atomicPage_now {a : State} {r : AtomicForm} {e : PEntry} (hniv : a.me.nivose = false) (hleaf : a.leafOf a.me.ident.ctx (r.va a) = some e)
    (hframe : a.frameExists e = true) (hheld : ¬(e.state = stMigrating ∧ a.readable e = false)) (hd : Handle) (o : AtOp) (p : BitVec 3) (land : Nat) :
    a.atomicPage hd (r.va a) r.w o r.t p land =
      match a.pages.replicas.find? (fun x => x.ctx == a.me.ident.ctx && x.va == e.base (r.va a)) with
      | some x => .done ((a.tally e (r.va a) (o.bits / 8)).forwardAtomic x.owner (paLocal (x.frame + r.va a % e.size)) r.w o r.t p land (r.va a))
      | none =>
        if a.readable e then .done ((a.tally e (r.va a) (o.bits / 8)).performAtomic
          (.page a.me.ident.ctx (r.va a) (e.pa + r.va a % e.size) e.hostf) false o r.t p land (some (a.tally e (r.va a) (o.bits / 8)).me.bufTag))
        else .done ((a.tally e (r.va a) (o.bits / 8)).forwardAtomic (paModule (e.pa + r.va a % e.size)) (paLocal (e.pa + r.va a % e.size)) r.w o r.t p
          land (r.va a)) := by
  have hleaf' : a.handleLeaf (r.va a) = some e := hleaf
  rw [State.atomicPage, hleaf']
  dsimp only
  rw [ofChk_of_ok (State.needFrame_ok hframe), if_neg (by simp [hniv]), if_neg (by simpa using hheld)]
  have hbuf : (a.tally e (r.va a) (o.bits / 8)).me.bufTag = a.me.bufTag := by
    rw [State.tally_me]
    rfl
  rw [hbuf] <;> rfl

theorem State.hbmBytes_length (s : State) (la n : Nat) : (s.hbmBytes la n).length = n := by
  have hmem (m : Memory) (a : Nat) : (memBytes m a n).length = n := by simp [memBytes]
  unfold State.hbmBytes
  split
  · exact hmem _ _
  · exact hmem _ _

theorem State.readPage_length (s : State) (ctx va : Nat) (e : PEntry) (n : Nat) : (s.readPage ctx va e n).length = n := by
  have hframe (frame : Nat) (host : Bool) : (s.frameBytes ctx va frame host n).length = n := by
    have hraw : (if host then s.hostBytes frame n else s.hbmBytes (paLocal frame) n).length = n := by
      cases host
      · exact s.hbmBytes_length _ _
      · simp [State.hostBytes, memBytes]
    unfold State.frameBytes
    dsimp only
    split
    · exact hraw
    · rw [List.length_zipWith, hraw, List.length_range, Nat.min_self]
  unfold State.readPage
  dsimp only
  split
  · exact hframe _ _
  · split
    · exact hframe _ _
    · exact List.length_replicate

theorem atomicRow_page {i : Instr} {r : AtomicForm} (hi : atomicRow i = some r) (e : PEntry) (old : Nat) : (pageAtomicClaim r e old).Holds i := by
  obtain ⟨op, sat, p, hop, hx⟩ := atomicRow_exec hi
  refine hop.holds _ _ rfl rfl (fun _ => rfl) rfl (fun s h => hx s h.1.2.2.1 fun _ => h.1.2.1)
    (fun a ⟨hallow, hniv, hleaf, hframe, hlocal, hread, hrep, hbell, hmid, hold⟩ => ?_)
    (by simp [pageAtomicClaim]) (by simp [pageAtomicClaim])
  let b := a.tally e (r.va a) (r.bits / 8)
  have hlt : old < 2 ^ r.bits := by
    have h := leVal_lt (b.readPage a.me.ident.ctx (r.va a) e (r.bits / 8))
    rw [State.readPage_length, r.bits_bytes] at h
    exact hold ▸ h
  have hnew : r.next b old = _ := hop.new old (r.v b) (r.u b) hlt (r.v_lt b)
  let pl : AtPlace := .page a.me.ident.ctx (r.va a) (e.pa + r.va a % e.size) e.hostf
  have hval : b.placeVal pl (r.bits / 8) = old := by
    rw [State.placeVal]
    simp only [b, hmid, hold]
  let u : State := b.hbmPut (paLocal (e.pa + r.va a % e.size)) (leBytes (r.bits / 8) (r.next b old))
  have hput : b.placePut pl (r.bits / 8) (r.next b old) b.me.ident.core = u := by
    rw [State.placePut]
    simp only [b, hmid]
    rw [State.writePage_local hlocal, State.storeLocal_frame hbell]
  have hkind : b.me.hreg (r.base.setWidth 4) = a.me.hreg (r.base.setWidth 4) := a.tally_hreg _ _ _ _
  refine ⟨u, _, r.op op sat b, old, atomicLatency (a.me.hreg (r.base.setWidth 4)).kind, decide (old + r.v b ≤ r.u b), some b.me.bufTag, none, none, rfl,
    ?_, a.tally_course _ _ _, fun q _ hq => State.hbmPut_same _ _ _ q (by simpa [pageAtomicClaim] using hq), fun q _ _ => State.same_refl _ q,
    fun s via hlands => ⟨?_, fun x => ?_⟩⟩
  · rw [State.atomicAllowed_body hallow, atomicPage_now hniv hleaf hframe (by simp [hread]), hrep]
    simp only [hread, if_true, ← r.op_tally op sat a e (r.va a) (r.bits / 8)]
    show Effect.done (b.performAtomic pl false (r.op op sat b) r.t p _ (some b.me.bufTag)) = _
    rw [State.performAtomic_eq, show b.placeVal pl ((r.op op sat b).bits / 8) = old from hval, ← hput, hnew]
    rfl
  · show r.Lands _ _ _ _ (atomicLatency (b.me.hreg (r.base.setWidth 4)).kind)
    rw [hkind]
    rwa [AtomicForm.op, extendTo_widened _ _ _ r.bits_le] at hlands
  · rw [State.closed_hbm, State.atomicResult_same _ _ _ _ _ _ _ _ _ _ .hbm (by simp) x]
    simp only [pageAtomicClaim, r.va_tally]
    exact memGet_memPutVal _ _ _ _ _ r.bytes_le

/-! At another module. -/

/-- R323: what is sent for an atomic. -/
def State.atomicPacket (s : State) (m la : Nat) (w : BitVec 2) (o : AtOp) (d : BitVec 5) : Packet :=
  { mkPacket 4 1 m s.boot.modnum with
    ctx := s.me.ident.ctx, addr := BitVec.ofNat 64 la, len := 16, sub := atreqSub o.op w.toNat o.sat
    payload := leBytes 8 (s.me.sreg d).toNat ++ leBytes 8 (s.me.sreg (d + 1)).toNat }

theorem State.forwardAtomic_eq (s : State) (m la : Nat) (w : BitVec 2) (o : AtOp) (d : BitVec 5) (p : BitVec 3) (land va : Nat) :
    s.forwardAtomic m la w o d p land va =
      (s.atomicResult o d p 0 land false (some s.me.bufTag) (some s.links.nextTag) none).forward (s.atomicPacket m la w o d) va (la / 64)
        (some s.me.ident.core) (some (.s d)) (o.bits / 8) o.signed := rfl

theorem atomicRow_remote {i : Instr} {r : AtomicForm} (hi : atomicRow i = some r) (e : PEntry) (x : Option Replica) :
    (remoteAtomicClaim r e x).Holds i := by
  obtain ⟨op, sat, p, hop, hx⟩ := atomicRow_exec hi
  refine hop.holds _ _ rfl rfl (fun _ => rfl) rfl (fun s h => hx s h.1.2.2.1 fun _ => h.1.2.1)
    (fun a ⟨hallow, hniv, hleaf, hframe, hheld, hrep, hread⟩ => ?_) (by simp [remoteAtomicClaim, farParts]) (by simp [remoteAtomicClaim, farParts])
  let b := a.tally e (r.va a) (r.bits / 8)
  have hkind : b.me.hreg (r.base.setWidth 4) = a.me.hreg (r.base.setWidth 4) := a.tally_hreg _ _ _ _
  refine ⟨b, b.forwardAtomic (e.farHome x (r.va a)).1 (e.farHome x (r.va a)).2 r.w (r.op op sat b) r.t p
      ((a.eng .c).clk + r.y.toNat + atomicLatency (a.me.hreg (r.base.setWidth 4)).kind) (r.va a), r.op op sat b, 0,
    atomicLatency (a.me.hreg (r.base.setWidth 4)).kind, false, some b.me.bufTag, some b.links.nextTag, none, rfl, ?_, a.tally_course _ _ _,
    fun q _ _ => State.same_refl _ q, fun q _ hq => ?_, fun s via hlands => ⟨?_, ?_⟩⟩
  · rw [State.atomicAllowed_body hallow, atomicPage_now hniv hleaf hframe hheld, hrep, ← r.op_tally op sat a e (r.va a) (r.bits / 8)]
    cases x with
    | some x => rfl
    | none => simp only [hread rfl, Bool.false_eq_true, if_false]; rfl
  · rw [State.forwardAtomic_eq]
    exact (State.forwardFor_onlyLinks _ _).same q fun hl => hq (hl ▸ by simp [remoteAtomicClaim, farParts])
  · show r.Lands _ _ _ _ (atomicLatency (b.me.hreg (r.base.setWidth 4)).kind)
    rw [hkind]
    exact extendTo_zero _ _ ▸ hlands
  · rw [State.closed_links, State.forwardAtomic_eq, State.forward]
    obtain ⟨f, hf, hcore, hreg, hsize, -, hpkt⟩ := State.forwardFor_fwds
      (b.atomicResult (r.op op sat b) r.t p 0 ((a.eng .c).clk + r.y.toNat + atomicLatency (a.me.hreg (r.base.setWidth 4)).kind) false
        (some b.me.bufTag) (some b.links.nextTag) none) _
    refine ⟨f, hf, hcore, hreg, hsize, ?_⟩
    rw [hpkt]
    simp only [remoteAtomicClaim, r.va_tally]
    exact ⟨rfl, rfl, rfl, rfl⟩

/-- Settles O23: the atomics, performed at once, at another module, or at the close of their interval. -/
theorem atomics : Obligations.Atomics := by
  unfold Obligations.Atomics
  exact fun i r hi => ⟨atomicRow_spad hi, atomicRow_spadInterval hi, atomicRow_page hi, fun e => ⟨atomicRow_pageInterval hi e, atomicRow_remote hi e⟩⟩

end Sys2Proof.Machine
end

section
-- One declaration after another: the whole text is checked in one process, of bounded memory.
set_option Elab.async false
/-! SUPPORT. SEAL inside a large page (08_memory_ops R163, 23_page R338). -/

namespace Sys2Proof.Machine

/-- Tables that map a page of 2 MiB at virtual address 0, LOCAL at 0x200000, from a root at 0x10000. -/
def largePageTables : Memory := [(0x10002, 2), (0x10007, 240), (0x20002, 3), (0x20007, 240), (0x30002, 4), (0x30007, 240), (0x40002, 32), (0x40007, 16)]

/-- The entry of that page. -/
def largePageEntry : PEntry := ⟨0x40000, 3, 0x1000000000200000, 0⟩

/-- A running group of a context with that page, and 0x10000 in s1. -/
def insideLargePage : State :=
  { State.reset with
    me :=
      { Group.blank 0 with
        phase := .running
        cr := { (Group.blank 0).cr with s := (Group.blank 0).cr.s.set 1 0x10000 } }
    mem := { State.reset.mem with hbm := largePageTables }
    ctxs := [((Group.blank 0).ident.ctx, { quietContext with root := { quietContext.root with ttbase := 0x10000 } })] }

theorem insideLargePage_ready : insideLargePage.Ready .c 0 [.s 1, .s 1] :=
  ⟨by decide +kernel, by decide +kernel, by decide +kernel, by decide +kernel⟩

theorem insideLargePage_pre : (sealClaim 0 1 1 [(0, largePageEntry)]).pre (insideLargePage.arrived .c 0) := by
  refine ⟨by decide +kernel, ⟨by decide +kernel, ?_⟩, by decide +kernel⟩
  rw [show (insideLargePage.arrived .c 0).links.routes = [] from by decide +kernel]
  exact fun _ h => nomatch h

/-- The sealings under way after a step. -/
def sealingsAfter : Out → List Sealing
  | .next t => t.pages.sealings
  | _ => []

theorem insideLargePage_sealings : sealingsAfter (exec (.sealPages 0 1 1) insideLargePage) ≠ [] := by decide +kernel

theorem insideLargePage_mid : ((sealClaim 0 1 1 [(0, largePageEntry)]).mid insideLargePage).pages.sealings = [] := by decide +kernel

/-- Refutes O25: SEAL of a range that begins inside a page of 2 MiB seals that page, and its record of the sealing, kept under the
page's base address below the range, is not ended with it. -/
theorem not_sealingAndBinding : ¬ Obligations.SealingAndBinding := by
  unfold Obligations.SealingAndBinding
  rintro ⟨hseal, -⟩
  obtain ⟨t, ht, hdone⟩ := (hseal 0 1 1 [(0, largePageEntry)]).1 insideLargePage insideLargePage_ready insideLargePage_pre
  have hpages : t.pages = ((sealClaim 0 1 1 [(0, largePageEntry)]).mid insideLargePage).pages := hdone.frame .pages (by simp [sealClaim])
  have hsealings := insideLargePage_sealings
  rw [ht] at hsealings
  exact hsealings ((congrArg Pages.sealings hpages).trans insideLargePage_mid)

end Sys2Proof.Machine
end

section
-- One declaration after another: the whole text is checked in one process, of bounded memory.
set_option Elab.async false
/-! SUPPORT. Engine V (06_vector R97 to R110): the operand b, and the results of the instructions with one destination. -/

namespace Sys2Proof.Machine

/-! ## Items with a result of any kind -/

/-- An item whose effect is described from the state after its claim's operation. -/
theorem Claim.holds_kept (c : Claim) {i : Instr} (f : State → Nat → Effect) (hflow : ∀ s, c.flow s = .straight)
    (hx : ∀ s, c.pre (s.arrived c.eng c.y) → exec i s = issue c.eng c.y c.srcs s f)
    (hb : ∀ a : State, c.pre a → ∃ u, f a ((a.eng c.eng).clk + c.y.toNat) = .done u ∧ a.me.SameCourse (c.does a).me ∧
      (c.does a).OnlyFlight u c.eng ∧ c.result.Kept (c.does a) u c.eng ((a.eng c.eng).clk + c.y.toNat) ∧
      (∀ p, p ≠ .engine c.eng → p ≠ .bufs → p ∉ c.parts → (c.does a).same u p) ∧
      ∀ (s : State) (via : Bool), c.post (c.does a) (s.closed u c.eng c.y via)) (hp : Aspect.phase ∉ c.parts) : c.Holds i := by
  intro s hr hpre
  obtain ⟨u, hf, hcourse, honly, hkept, hframe, hpost⟩ := hb (s.arrived c.eng c.y) hpre
  rw [State.arrived_eng] at hf hkept
  refine ⟨_, (hx s hpre).trans (issue_done _ _ _ _ _ _ hr hf), Claim.done_of _ s u _ (hflow _) ⟨.of_course hcourse _, honly, ?_, hkept, fun p hn => ?_⟩
    (hpost s _)⟩
  · exact State.same_trans _ _ _ .phase hcourse.phase (hframe _ (by simp) (by simp) hp)
  · simp only [List.mem_cons, not_or] at hn
    exact hframe p hn.1 hn.2.1 hn.2.2

/-! ## Operand b (R61, R99, R100) -/

@[simp] theorem Group.stream_setStream (g : Group) (z : BitVec 4) (x : Stream) : (g.setStream z x).stream z = x := by
  simp [Group.stream, Group.setStream]

theorem Group.stream_setStream_ne (g : Group) (z k : BitVec 4) (x : Stream) (h : k ≠ z) : (g.setStream z x).stream k = g.stream k :=
  Vector.getElem_set_ne z.isLt k.isLt fun e => h (BitVec.eq_of_toNat_eq e.symm)

theorem State.setStream_same (s : State) (z : BitVec 4) (x : Stream) (p : Aspect) (h : p ≠ .stream z) : s.same (s.onMe (·.setStream z x)) p := by
  have h' := s.same_refl p
  cases p with
  | stream k => exact Group.stream_setStream_ne _ _ _ _ fun e => h (e ▸ rfl)
  | regs => exact fun r => by cases r <;> rfl
  | _ => exact h'

/-- A stream after its oldest vector is taken by V. -/
def Stream.takenByV (z : Stream) : Stream :=
  { z with buf := z.buf.tail, taken := z.taken + 1, owner := some .v, st := if z.isLast (z.taken + 1) then .done else .running }

/-- The state after V has taken operand b. -/
def State.took (s : State) (zq : Bool) (b : BitVec 5) : State :=
  if zq = false then s
  else if b.getLsbD 4 = true then s.popped (b.setWidth 4)
  else s.onMe (·.setStream (b.setWidth 4) (s.me.stream (b.setWidth 4)).takenByV)

theorem State.took_queue (s : State) {b : BitVec 5} (hb : b.getLsbD 4 = true) : s.took true b = s.popped (b.setWidth 4) := if_pos hb

theorem State.took_stream (s : State) {b : BitVec 5} (hb : b.getLsbD 4 = false) :
    s.took true b = s.onMe (·.setStream (b.setWidth 4) (s.me.stream (b.setWidth 4)).takenByV) := if_neg (ne_true_of_eq_false hb)

theorem State.offered_queue {s : State} {b : BitVec 5} {wide : Bool} {v : VReg} (hb : b.getLsbD 4 = true) (h : s.offered true b wide = some v) :
    s.Offers .v (b.setWidth 4) ∧ v = queueVec wide ((s.me.queue (b.setWidth 4)).entries.headD 0) := by
  rw [State.offered, if_neg (by decide), if_pos hb] at h
  split at h
  · next p w l hbind hentries =>
    obtain ⟨hdone, hv⟩ := Option.ite_none_right_eq_some.1 h
    refine ⟨⟨⟨p, hbind⟩, by rw [hentries]; exact List.cons_ne_nil _ _, hdone⟩, ?_⟩
    rw [hentries]
    exact (Option.some.inj hv).symm
  · cases h

theorem State.offered_stream {s : State} {b : BitVec 5} {wide : Bool} {v : VReg} (hb : b.getLsbD 4 = false) (h : s.offered true b wide = some v) :
    s.streamPop .v (b.setWidth 4) = .ok v (s.took true b) := by
  rw [State.offered, if_neg (by decide), if_neg (ne_true_of_eq_false hb)] at h
  obtain ⟨⟨hst, hdrained, howner⟩, hbuf⟩ := Option.ite_none_right_eq_some.1 h
  obtain ⟨l, hl⟩ : ∃ l, (s.me.stream (b.setWidth 4)).buf = v :: l := List.head?_eq_some_iff.1 hbuf
  have hown : (s.me.stream (b.setWidth 4)).owner.any (· != .v) = false := by
    rcases howner with h | h <;> simp [h]
  rw [State.took_stream s hb, State.streamPop]
  simp only [hst, hdrained, hown, hl, Stream.takenByV, List.tail_cons, reduceCtorEq, Bool.false_eq_true, and_false, if_false]

theorem State.vsrc_offered {s : State} {zq : Bool} {b : BitVec 5} {wide : Bool} {v : VReg} (h : s.offered zq b wide = some v) :
    s.vsrc zq b wide = .ok v (s.took zq b) := by
  cases zq with
  | false =>
    obtain rfl := Option.some.inj h
    rfl
  | true =>
    cases hb : b.getLsbD 4 with
    | false => exact (if_neg (ne_true_of_eq_false hb)).trans (State.offered_stream hb h)
    | true =>
      obtain ⟨hoffers, rfl⟩ := State.offered_queue hb h
      simp only [State.vsrc, hb, if_true, State.queuePop_offers hoffers, State.took_queue s hb]

theorem operandPart_queue {b : BitVec 5} (hb : b.getLsbD 4 = true) : operandPart true b = [.queue (b.setWidth 4)] := if_pos hb

theorem operandPart_stream {b : BitVec 5} (hb : b.getLsbD 4 = false) : operandPart true b = [.stream (b.setWidth 4)] :=
  if_neg (ne_true_of_eq_false hb)

theorem State.took_same (s : State) (zq : Bool) (b : BitVec 5) (p : Aspect) (h : p ∉ operandPart zq b) : s.same (s.took zq b) p := by
  cases zq with
  | false => exact s.same_refl p
  | true =>
    cases hb : b.getLsbD 4 with
    | false =>
      rw [State.took_stream s hb]
      exact s.setStream_same _ _ p (by simpa [operandPart_stream hb] using h)
    | true =>
      rw [State.took_queue s hb]
      exact s.popped_same _ p (by simpa [operandPart_queue hb] using h)

theorem State.took_undisturbed (s : State) (zq : Bool) (b : BitVec 5) : s.me.Undisturbed (s.took zq b).me := by
  unfold State.took
  split
  · exact .refl _
  · split <;> exact ⟨⟨fun _ => rfl, ⟨rfl, rfl, rfl, rfl⟩, rfl⟩, rfl⟩

theorem State.took_eng (s : State) (zq : Bool) (b : BitVec 5) (e : Engine) : (s.took zq b).eng e = s.eng e :=
  s.took_same zq b (.engine e) (by unfold operandPart; split <;> simp; split <;> simp)

/-- Operand b is taken in every state with the part of it that taking leaves. -/
theorem State.took_of_same {s t : State} {zq : Bool} {b : BitVec 5} (h : ∀ p ∈ operandPart zq b, (s.took zq b).same t p) : s.Took t zq b := by
  cases zq with
  | false => exact trivial
  | true =>
    cases hb : b.getLsbD 4 with
    | false =>
      have hz : t.me.stream (b.setWidth 4) = (s.took true b).me.stream (b.setWidth 4) := h (.stream (b.setWidth 4)) (by simp [operandPart_stream hb])
      rw [State.Took, if_neg (by decide), if_neg (ne_true_of_eq_false hb), hz, State.took_stream s hb, State.me_onMe,
        Group.stream_setStream, Stream.takenByV]
      simp only [Stream.isLast, Bool.and_eq_true, Bool.not_eq_true', decide_eq_true_eq]
    | true =>
      have hq : t.me.queue (b.setWidth 4) = (s.took true b).me.queue (b.setWidth 4) := h (.queue (b.setWidth 4)) (by simp [operandPart_queue hb])
      rw [State.took_queue s hb] at hq
      rw [State.Took, if_neg (by decide), if_pos hb]
      exact State.popped_of_queue hq

@[simp] theorem State.took_vreg (s : State) (zq : Bool) (b d : BitVec 5) : (s.took zq b).me.vreg d = s.me.vreg d := by
  unfold State.took
  split
  · rfl
  · split <;> rfl

@[simp] theorem State.took_mreg (s : State) (zq : Bool) (b : BitVec 5) (m : BitVec 3) : (s.took zq b).me.mreg m = s.me.mreg m := by
  unfold State.took
  split
  · rfl
  · split <;> rfl

theorem vForm_good {bad : Option Nat} (h : bad = none) (zq : Bool) (y : BitVec 2) (b : BitVec 5) (wide : Bool) (srcs : List Reg) (s : State)
    (f : VReg → State → Nat → Effect) : vForm zq y b wide srcs bad s f =
      issue .v y (srcs ++ vregSrcs zq b) s fun s t => (s.vsrc zq b wide).then fun vb s1 => f vb s1 t := issuePre_good h ..

/-- An item of V whose claim's condition has operand b offered. -/
theorem Claim.holds_operand (c : Claim) {i : Instr} {zq : Bool} {b : BitVec 5} {wide : Bool} {srcs : List Reg} (f : VReg → State → Nat → Effect)
    (hc : c.eng = .v) (hsrcs : c.srcs = srcs ++ vregSrcs zq b) (hflow : ∀ s, c.flow s = .straight)
    (hx : ∀ s, c.pre (s.arrived .v c.y) → exec i s = vForm zq c.y b wide srcs none s f)
    (hb : ∀ a : State, c.pre a → ∃ v u, a.offered zq b wide = some v ∧ f v (a.took zq b) ((a.eng .v).clk + c.y.toNat) = .done u ∧
      a.me.SameCourse (c.does a).me ∧ (c.does a).OnlyFlight u .v ∧ c.result.Kept (c.does a) u .v ((a.eng .v).clk + c.y.toNat) ∧
      (∀ p, p ≠ .engine .v → p ≠ .bufs → p ∉ c.parts → (c.does a).same u p) ∧
      ∀ (s : State) (via : Bool), c.post (c.does a) (s.closed u .v c.y via)) (hp : Aspect.phase ∉ c.parts) : c.Holds i := by
  obtain ⟨e, y, csrcs, pre, does, flow, result, parts, post⟩ := c
  obtain rfl : e = .v := hc
  obtain rfl : csrcs = srcs ++ vregSrcs zq b := hsrcs
  refine Claim.holds_kept _ _ hflow (fun s h => (hx s h).trans (vForm_good rfl ..)) (fun a hpre => ?_) hp
  obtain ⟨v, u, hv, hf, hrest⟩ := hb a hpre
  refine ⟨u, ?_, hrest⟩
  rw [State.vsrc_offered hv]
  exact hf

/-! ## Rows -/

/-- The meaning of a row's instruction, `m`: the row's registers, checks and latency, and the row's value where the types are accepted. -/
def VRow.Meant (r : VRow) (m : State → Out) : Prop :=
  ∃ F : VReg → State → Val, (∀ s, m s = vForm r.zq r.y r.b r.wide r.srcs r.bad s fun vb s1 n => .done (s1.result .v r.dest (F vb s1) n r.lat)) ∧
    (r.bad = none → ∀ s v, F v (s.took r.zq r.b) = r.val s v) ∧ r.srcs.contains (.h 15) = false

theorem operandPart_not_engine (zq : Bool) (b : BitVec 5) (e : Engine) : Aspect.engine e ∉ operandPart zq b := by
  unfold operandPart
  split
  · simp
  · split <;> simp

theorem operandPart_not_phase (zq : Bool) (b : BitVec 5) : Aspect.phase ∉ operandPart zq b := by
  unfold operandPart
  split
  · simp
  · split <;> simp

theorem operandPart_not_bufs (zq : Bool) (b : BitVec 5) : Aspect.bufs ∉ operandPart zq b := by
  unfold operandPart
  split
  · simp
  · split <;> simp

/-- What an item leaves of operand b when it does nothing more to it. -/
theorem State.took_closed {a u : State} {zq : Bool} {b : BitVec 5} (h : ∀ p ∈ operandPart zq b, (a.took zq b).same u p) (s : State) (y : BitVec 2)
    (via : Bool) : a.Took (s.closed u .v y via) zq b :=
  State.took_of_same fun p hp => State.closed_same _ _ _ _ _ _ p (h p hp) (fun e => operandPart_not_engine zq b .v (e ▸ hp))
    (fun e => operandPart_not_bufs zq b (e ▸ hp))

theorem State.took_same_except (a : State) {u : State} {zq : Bool} {b : BitVec 5} (h : ∀ p, p ≠ .engine .v → (a.took zq b).same u p) (p : Aspect)
    (hv : p ≠ .engine .v) (hp : p ∉ operandPart zq b) : a.same u p := State.same_trans _ _ _ _ (a.took_same zq b p hp) (h p hv)

/-- R102: an instruction whose types are accepted meets its row's claim. -/
theorem VRow.Meant.holds {r : VRow} {i : Instr} (h : r.Meant (exec i)) (hbad : r.bad = none) : r.claim.Holds i := by
  obtain ⟨F, hx, hF, -⟩ := h
  refine Claim.holds_operand (wide := r.wide) _ (fun vb s1 n => .done (s1.result .v r.dest (F vb s1) n r.lat)) rfl rfl (fun _ => rfl) (fun s _ => ?_) (fun a hpre => ?_)
    (operandPart_not_phase _ _)
  · rw [hx, hbad]
    rfl
  · obtain ⟨v, hv⟩ := Option.ne_none_iff_exists'.1 hpre
    have hsame (p : Aspect) (hp : p ≠ .engine .v) := (a.took r.zq r.b).result_same .v r.dest (F v (a.took r.zq r.b)) ((a.eng .v).clk + r.y.toNat) r.lat p hp
    have heng := (a.took r.zq r.b).result_eng .v r.dest (F v (a.took r.zq r.b)) ((a.eng .v).clk + r.y.toNat) r.lat
    rw [State.took_eng] at heng
    refine ⟨v, _, hv, rfl, (Group.Undisturbed.refl _).toSameCourse, ⟨_, heng⟩, ?_, fun p hpe _ hpp => a.took_same_except hsame p hpe hpp,
      fun s via => State.took_closed (fun p hp => hsame p fun e => operandPart_not_engine _ _ _ (e ▸ hp)) s _ via⟩
    refine (congrArg EngineState.flight heng).trans ?_
    rw [hF hbad]
    simp only [VRow.claim, id_eq, hv, Option.elim_some]

/-! ## Types (R98, R99) -/

theorem tyOfCode_of_ne {t : BitVec 4} (h : t.toNat ≠ 15) : tyOfCode t.toNat = some (tyOf t) := by revert t; decide

theorem wideType_eq (t : BitVec 4) : ((tyOf t).bits == 64) = wideType t := by revert t; decide

theorem badArith_add (t : BitVec 4) (x : BitVec 1) : badArith isAddTy t (x == 1) = arithBad (addType t) t x := by revert t x; decide

theorem addLat_eq (t : BitVec 4) : arithLat (tyOf t) = addLat t := by revert t; decide

theorem arithBad_ne {t : BitVec 4} {x : BitVec 1} (h : arithBad (addType t) t x = none) : t.toNat ≠ 15 := by revert t x; decide

theorem intOp_eq (sg : Bool) (w : Nat) (sat : Bool) (f : Int → Int → Int) (m n : Nat) :
    intOp sg w sat f m n = intResult sg w sat (f (intVal sg w m) (intVal sg w n)) := rfl

/-! ## Arithmetic (R102 to R105) -/

/-- An instruction with a vector result has the row that gives its operand's width, its checks, its latency and its value. -/
theorem vecRow_meant {zq : Bool} {y : BitVec 2} {d b : BitVec 5} {wide wide' : Bool} {srcs : List Reg} {bad bad' : Option Nat} {lat lat' : Nat}
    {f g : State → VReg → VReg} (hwide : wide' = wide) (hbad : bad' = bad) (hlat : lat' = lat)
    (hval : bad = none → ∀ s v, f (s.took zq b) v = g s v) (hsrcs : srcs.contains (.h 15) = false := by rfl) :
    (vecRow zq y d b wide srcs bad lat g).Meant fun s => vForm1 zq y d b wide' srcs bad' lat' s f := by
  subst hwide hbad hlat
  exact ⟨fun v s => .vec (f s v), fun _ => rfl, fun h s v => congrArg Val.vec (hval h s v), hsrcs⟩

theorem arith2_meant (zq : Bool) (y : BitVec 2) (d a b : BitVec 5) (t : BitVec 4) (x : BitVec 1) (fi : Int → Int → Int) (ff : Fmt → Nat → Nat → Nat) :
    (arithRow zq y d a b t x fi ff).Meant (arith2 zq y d a b t (x == 1) fi ff) := by
  refine vecRow_meant (wideType_eq t) (badArith_add t x) (addLat_eq t) fun hbad s v => ?_
  rw [State.took_vreg, byElement, tyOfCode_of_ne (arithBad_ne hbad)]
  cases tyOf t <;> rfl

theorem arith1_meant (zq : Bool) (y : BitVec 2) (d b : BitVec 5) (t : BitVec 4) (x : BitVec 1) {fi fj : Int → Int} (hf : ∀ z, fj z = fi z)
    (ff : Fmt → Nat → Nat) : (unaryRow zq y d b t x fi ff).Meant (arith1 zq y d b t (x == 1) fj ff) := by
  refine vecRow_meant (wideType_eq t) (badArith_add t x) (addLat_eq t) fun hbad s v => ?_
  rw [funext hf, byElement, tyOfCode_of_ne (arithBad_ne hbad)]
  cases tyOf t <;> rfl

theorem natAbs_eq_max (z : Int) : (z.natAbs : Int) = max z (-z) := by omega

theorem vFma_meant (zq : Bool) (y : BitVec 2) (d a b : BitVec 5) (t : BitVec 4) : (fmaRow zq y d a b t).Meant (vFma zq y d a b t) := by
  have hbad : badArith isFmaTy t false = if t.toNat ∈ [2, 3, 6, 7, 10, 11] then none else some causeIllegal := by revert t; decide
  have hlat : (if (tyOf t).bits = 64 then 7 else 5) = if wideType t = true then 7 else 5 := by revert t; decide
  refine vecRow_meant (wideType_eq t) hbad hlat fun hnone s v => ?_
  have ht : t.toNat ≠ 15 := fun h => by simp [h] at hnone
  simp only [State.took_vreg, tyOfCode_of_ne ht]
  cases tyOf t <;> rfl

/-! ## Lanes and shifts (R103) -/

theorem bits2_meant (zq : Bool) (y : BitVec 2) (d a b : BitVec 5) (f : BitVec 32 → BitVec 32 → BitVec 32) :
    (laneRow zq y d a b f).Meant (bits2 zq y d a b f) :=
  vecRow_meant rfl rfl rfl fun _ s v => by rw [State.took_vreg]; rfl

theorem vNot_meant (zq : Bool) (y : BitVec 2) (d b : BitVec 5) :
    (vecRow zq y d b false [] none 2 fun _ v => lanes fun i => ~~~v.lane i).Meant (vNot zq y d b) := vecRow_meant rfl rfl rfl fun _ _ _ => rfl

theorem wrapInt_natCast (w n : Nat) : wrapInt w (n : Int) = n % 2 ^ w := by
  rw [wrapInt, ← Int.natCast_mod, Int.toNat_natCast]

theorem VReg.elem_lt (v : VReg) (w k : Nat) : v.elem w k < 2 ^ w := by
  unfold VReg.elem
  split
  · next h =>
    subst h
    have h1 := (v.lane (2 * k)).isLt
    have h2 := (v.lane (2 * k + 1)).isLt
    omega
  · exact Nat.mod_lt _ (Nat.two_pow_pos w)

theorem shift2_meant (zq : Bool) (y : BitVec 2) (d a b : BitVec 5) (t : BitVec 4) {f : Nat → Nat → Nat → Nat} {g : Nat → Nat → Nat → Int}
    (hf : ∀ w m n, m < 2 ^ w → f w m n = wrapInt w (g w m n)) : (shiftRow zq y d a b t g).Meant (shift2 zq y d a b t f) := by
  have hbad : badArith isIntTy t false = if t.toNat < 8 then none else some causeIllegal := by revert t; decide
  refine vecRow_meant (wideType_eq t) hbad rfl fun hnone s v => ?_
  have ht : t.toNat ≠ 15 := fun h => by simp [h] at hnone
  simp only [State.took_vreg, tyOfCode_of_ne ht, Option.getD_some, elemwise, hf _ _ _ (VReg.elem_lt _ _ _)]

theorem shlElem_eq (w m n : Nat) (_ : m < 2 ^ w) : shlElem w m n = wrapInt w ((m * 2 ^ n : Nat) : Int) := (wrapInt_natCast _ _).symm

theorem shrElem_eq (w m n : Nat) (h : m < 2 ^ w) : shrElem w m n = wrapInt w ((m / 2 ^ n : Nat) : Int) := by
  rw [wrapInt_natCast, Nat.mod_eq_of_lt (lt_of_le_of_lt (Nat.div_le_self _ _) h), shrElem]

theorem sarElem_eq (w m n : Nat) (_ : m < 2 ^ w) : sarElem w m n = wrapInt w (floorDiv (sextNat w m) (2 ^ n)) := by
  rw [sarElem, floorDiv]
  push_cast
  rfl

/-- R103: the leading zeros of a number of `w` bits. -/
theorem zerosAbove_eq {w n : Nat} (h : n < 2 ^ w) : zerosAbove w n = leadingZeros w n := by
  unfold zerosAbove leadingZeros
  split
  case isTrue h0 =>
    subst h0
    exact length_takeWhile_range _ _ _ le_rfl (fun i _ => by simp) fun h => absurd h (lt_irrefl _)
  case isFalse h0 =>
    have htop : Nat.log2 n < w := (Nat.log2_lt h0).2 h
    refine length_takeWhile_range _ _ _ (by omega) (fun i hi => ?_) fun _ => ?_
    · have hlow : n < 2 ^ (w - 1 - i) := (Nat.log2_lt h0).1 (by omega)
      simp [Nat.testBit_lt_two_pow hlow]
    · rw [show w - 1 - (w - 1 - Nat.log2 n) = Nat.log2 n by omega, Nat.testBit_log2 h0]
      rfl

theorem count1_meant (zq : Bool) (y : BitVec 2) (d b : BitVec 5) (t : BitVec 4) {f g : Nat → Nat → Nat} (hf : ∀ w n, n < 2 ^ w → f w n = g w n) :
    (countRow zq y d b t g).Meant (count1 zq y d b t f) := by
  have hbad : badArith isNatTy t false = if 4 ≤ t.toNat ∧ t.toNat < 8 then none else some causeIllegal := by revert t; decide
  refine vecRow_meant (wideType_eq t) hbad rfl fun hnone s v => ?_
  have ht : t.toNat ≠ 15 := fun h => by simp [h] at hnone
  simp only [tyOfCode_of_ne ht, Option.getD_some, elemwise, hf _ _ (VReg.elem_lt _ _ _)]

/-! ## Compares and selection (R106) -/

theorem condOf_code (c : Cond) : condOf (match c with | .eq => 0 | .ne => 1 | .lt => 2 | .le => 3 | .ltn => 4 | .len => 5) = some c := by
  cases c <;> rfl

theorem elemTrue_eq {c : Nat} {k : Cond} (hk : condOf c = some k) {t : BitVec 4} {ty : Ty} (ht : tyOfCode t.toNat = some ty) (hty : ty ≠ .bx)
    (m n : Nat) : elemTrue c t m n = elemHolds k ty m n := by
  unfold elemTrue elemHolds
  rw [ht, hk]
  cases ty with
  | bx => exact absurd rfl hty
  | flt f => rfl
  | int sg w =>
    unfold condOf at hk
    split at hk <;> cases hk
    · exact (Bool.beq_eq_decide_eq _ _).symm
    · simp only [Cond.holdsInt, bne, Bool.beq_eq_decide_eq, decide_not]; rfl
    all_goals rfl

theorem vCmp_meant {c : Nat} {k : Cond} (hk : condOf c = some k) (zq : Bool) (y : BitVec 2) (d : BitVec 3) (a b : BitVec 5) (t : BitVec 4) :
    (cmpRow c zq y d a b t).Meant (vCmp k zq y d a b t) := by
  have hbad : badCmp k t = if addType t = true ∧ ¬(8 ≤ t.toNat ∧ 4 ≤ c) then none else some causeIllegal := by
    have h (c : Fin 6) (t : BitVec 4) : badCmp ((condOf c.val).getD .eq) t = if addType t = true ∧ ¬(8 ≤ t.toNat ∧ 4 ≤ c.val) then none else some causeIllegal := by
      revert c t; decide
    have hc : c < 6 := by
      by_contra hge
      obtain ⟨j, rfl⟩ := Nat.exists_eq_add_of_le (Nat.le_of_not_lt hge)
      rw [Nat.add_comm] at hk
      cases hk
    have := h ⟨c, hc⟩ t
    rwa [hk] at this
  refine ⟨fun v s => .mask (mkMask fun i => let j := if (tyOf t).bits = 64 then i / 2 else i
    elemHolds k (tyOf t) ((s.me.vreg a).elem (tyOf t).bits j) (v.elem (tyOf t).bits j)), fun s => ?_, fun hnone s v => ?_, rfl⟩
  · rw [vCmp, wideType_eq, hbad]
    rfl
  · have hadd : addType t = true := by
      by_contra h
      simp [cmpRow, h] at hnone
    have ht : t.toNat ≠ 15 := by clear hnone hbad; revert t; decide
    have hbx : tyOf t ≠ .bx := by clear hnone hbad; revert t; decide
    simp only [cmpRow, State.took_vreg, tyOfCode_of_ne ht, Option.getD_some, elemTrue_eq hk (tyOfCode_of_ne ht) hbx]

theorem vSel_meant (zq : Bool) (y : BitVec 2) (d a b : BitVec 5) (m : BitVec 3) : (vectorRow.selRow zq y d a b m).Meant (vSel zq y d a b m) :=
  vecRow_meant rfl rfl rfl fun _ s v => by simp only [State.took_vreg, State.took_mreg]

/-! ## Conversions (R108) -/

theorem badCvt_eq (st dt : BitVec 4) (h l : BitVec 1) : badCvt st dt (2 * h.toNat + l.toNat) = cvtBad st dt (2 * h.toNat + l.toNat) := by
  revert st dt h l; decide +kernel

theorem cvtBad_none {st dt : BitVec 4} {rm : Nat} (h : cvtBad st dt rm = none) : st.toNat ≠ 15 ∧ dt.toNat ≠ 15 ∧ st ≠ dt := by
  unfold cvtBad at h
  split at h
  · cases h
  · next hn =>
    simp only [not_or] at hn
    exact ⟨hn.1, hn.2.1, hn.2.2.1⟩

theorem tyOf_bx {t : BitVec 4} (h : tyOf t = .bx) : t = 14 := by revert t; decide

theorem cvtVec_elems {st dt : Ty} (hs : st ≠ .bx) (hd : dt ≠ .bx) (rm : Rm) (v : VReg) : cvtVec st dt rm v =
    mkElems dt (fun k => if st.bits = 64 ∧ 64 ≤ k then 0 else cvtElem st dt rm (v.elem st.bits k)) 0 := by
  cases st with
  | bx => exact absurd rfl hs
  | int =>
    cases dt with
    | bx => exact absurd rfl hd
    | _ => rfl
  | flt =>
    cases dt with
    | bx => exact absurd rfl hd
    | _ => rfl

theorem cvtVec_eq {st dt : BitVec 4} (hs : st.toNat ≠ 15) (hd : dt.toNat ≠ 15) (hne : st ≠ dt) (rm : Rm) (v : VReg) :
    cvtVec (tyOf st) (tyOf dt) rm v = cvtVal st dt rm v := by
  unfold cvtVal
  simp only [tyOfCode_of_ne hs, tyOfCode_of_ne hd, Option.getD_some]
  have hite (n k : Nat) (x : Nat) : (if n = 64 ∧ 64 ≤ k then 0 else x) = if ¬(n = 64 ∧ 64 ≤ k) then x else 0 := by
    split <;> simp_all
  cases hst : tyOf st with
  | bx =>
    cases hdt : tyOf dt with
    | bx => exact absurd ((tyOf_bx hst).trans (tyOf_bx hdt).symm) hne
    | int => rfl
    | flt => rfl
  | int sg w =>
    cases hdt : tyOf dt with
    | bx => exact congrArg (fun l => (bxEncode l).toVReg) (List.map_congr_left fun _ _ => rfl)
    | int => rw [cvtVec_elems (by simp) (by simp)]; simp only [hite]; rfl
    | flt => rw [cvtVec_elems (by simp) (by simp)]; simp only [hite]; rfl
  | flt f =>
    cases hdt : tyOf dt with
    | bx => exact congrArg (fun l => (bxEncode l).toVReg) (List.map_congr_left fun _ _ => rfl)
    | int => rw [cvtVec_elems (by simp) (by simp)]; simp only [hite]; rfl
    | flt => rw [cvtVec_elems (by simp) (by simp)]; simp only [hite]; rfl

theorem vCvt_meant (zq : Bool) (y : BitVec 2) (d : BitVec 5) (h : BitVec 1) (st : BitVec 4) (b : BitVec 5) (dt : BitVec 4) (l : BitVec 1) :
    (vectorRow.cvtRow zq y d h st b dt l).Meant (vCvt zq y d h st b dt l) := by
  refine vecRow_meant (wideType_eq st) (badCvt_eq st dt h l) rfl fun hbad s v => ?_
  obtain ⟨hs, hd, hne⟩ := cvtBad_none hbad
  exact cvtVec_eq hs hd hne _ _

/-! ## Bit fields and lane movement (R109, R110) -/

theorem ofNat_wrapInt (z : Int) : BitVec.ofNat 32 (wrapInt 32 z) = BitVec.ofInt 32 z := by
  apply BitVec.eq_of_toNat_eq
  rw [BitVec.toNat_ofNat, BitVec.toNat_ofInt, wrapInt]
  omega

theorem vExt_meant (zq : Bool) (y : BitVec 2) (d a b : BitVec 5) (x : BitVec 1) : (vectorRow.extRow zq y d a b x).Meant (vExt zq y d a b x) := by
  refine vecRow_meant rfl rfl rfl fun _ s v => ?_
  simp only [State.took_vreg, lanewise, extLane, beq_iff_eq, ofNat_wrapInt]
  rfl

theorem insLane_eq (old a b : BitVec 32) : insLane old a b = ofBits32 fun j => insertBit old a (posOf b) (lenOf b) j := by
  apply BitVec.eq_of_getLsbD_eq
  intro j hj
  have hfield : (insLane old a b).getLsbD j = ((old.getLsbD j && !((2 ^ lenOf b - 1) * 2 ^ posOf b).testBit j) ||
      (a.toNat % 2 ^ lenOf b * 2 ^ posOf b).testBit j) := by
    simp only [insLane, BitVec.getLsbD_or, BitVec.getLsbD_and, BitVec.getLsbD_not, BitVec.getLsbD_ofNat, decide_eq_true hj, Bool.true_and]
    rfl
  rw [hfield, ofBits32, BitVec.getLsbD_ofFnLE, dif_pos hj, insertBit]
  simp only [Nat.testBit_mul_two_pow, Nat.testBit_two_pow_sub_one, Nat.testBit_mod_two_pow]
  by_cases hp : posOf b ≤ j
  · by_cases hw : j - posOf b < lenOf b
    · simp [hp, hw, show j < posOf b + lenOf b by omega, BitVec.getLsbD]
    · simp [hp, hw, show ¬j < posOf b + lenOf b by omega]
  · simp [hp]

theorem vIns_meant (zq : Bool) (y : BitVec 2) (d a b : BitVec 5) : (vectorRow.insRow zq y d a b).Meant (vIns zq y d a b) :=
  vecRow_meant rfl rfl rfl fun _ s v => by simp only [State.took_vreg, insLane_eq]; rfl

theorem vFsh_meant (zq : Bool) (y : BitVec 2) (d a b : BitVec 5) : (vectorRow.fshRow zq y d a b).Meant (vFsh zq y d a b) :=
  vecRow_meant rfl rfl rfl fun _ s v => by simp only [State.took_vreg]; rfl

theorem vMov_meant (zq : Bool) (y : BitVec 2) (d b : BitVec 5) : (vecRow zq y d b false [] none 2 fun _ v => v).Meant (vMov zq y d b) :=
  vecRow_meant rfl rfl rfl fun _ _ _ => rfl

theorem vPerm_meant (zq : Bool) (y : BitVec 2) (d a b : BitVec 5) : (vectorRow.permRow zq y d a b).Meant (vPerm zq y d a b) :=
  vecRow_meant rfl rfl rfl fun _ s v => by simp only [State.took_vreg]

theorem vLsh_meant (zq : Bool) (y : BitVec 2) (d a b : BitVec 5) : (vectorRow.lshRow zq y d a b).Meant (vLsh zq y d a b) :=
  vecRow_meant rfl rfl rfl fun _ s v => by simp only [State.took_vreg]

/-- R110: VBCAST of a register or a stream spreads a lane of it. -/
theorem vBcast_lane (zq : Bool) (y : BitVec 2) (d a b : BitVec 5) (h : (zq && b.getLsbD 4) = false) :
    ({ vectorRow.bcastRow y d a b with zq := zq } : VRow).Meant (vBcast zq y d a b) := by
  refine ⟨fun v s => .vec ⟨mkLanes fun _ => v.lane (((s.me.vreg a).lane 0).toNat % 128), v.exp⟩, fun s => ?_, fun _ s v => ?_, rfl⟩
  · rw [vBcast, h]
    rfl
  · simp only [State.took_vreg]
    rfl

theorem vBcast_entry (y : BitVec 2) (d a b : BitVec 5) (h : b.getLsbD 4 = true) :
    (vecRow true y d b false [] (if a = 0 then none else some causeReserved) 2 fun _ v => v).Meant (vBcast true y d a b) := by
  have hbad : (if (true && (a != 0)) = true then some causeReserved else none) = if a = 0 then none else some causeReserved := by revert a; decide
  refine ⟨fun v _ => .vec v, fun s => ?_, fun _ _ _ => rfl, rfl⟩
  rw [vBcast, h]
  simp only [Bool.and_self, if_true, hbad]
  rfl

theorem vBcastZq_meant (y : BitVec 2) (d a b : BitVec 5) :
    VRow.Meant (if b.getLsbD 4 = true then vecRow true y d b false [] (if a = 0 then none else some causeReserved) 2 fun _ v => v
      else { vectorRow.bcastRow y d a b with zq := true }) (vBcast true y d a b) := by
  split
  · next h => exact vBcast_entry y d a b h
  · next h => exact vBcast_lane true y d a b (Bool.eq_false_iff.2 h)

/-! ## Functions and norms (R116, R117) -/

theorem func1_meant (f : Nat → Nat) (zq : Bool) (y : BitVec 2) (d b : BitVec 5) (t : BitVec 4) :
    (vectorRow.funcRow zq y d b t f).Meant (func1 f zq y d b t) := vecRow_meant rfl rfl rfl fun _ _ _ => rfl

theorem vNorm_meant (zq : Bool) (y : BitVec 2) (d b : BitVec 5) (t : BitVec 4) : (vectorRow.normRow zq y d b t).Meant (vNorm zq y d b t) := by
  have hbad : (if t.toNat = 10 ∨ t.toNat = 11 ∨ t.toNat = 14 then none else some causeIllegal) =
      if t.toNat ∈ [10, 11, 14] then none else some causeIllegal := by revert t; decide
  refine vecRow_meant (wideType_eq t) hbad rfl fun hnone s v => ?_
  have ht : t.toNat ≠ 15 := fun h => by simp [h] at hnone
  rw [tyOfCode_of_ne ht]
  cases tyOf t <;> rfl

/-! ## The table -/

/-- R102 to R118: every instruction of the table means what its row says. -/
theorem vectorRow_meant {i : Instr} {r : VRow} : vectorRow i = some r → r.Meant (exec i) := by
  cases i with
  | vadd | vaddZq | vsub | vsubZq | vmul | vmulZq => intro h; cases h; exact arith2_meant _ _ _ _ _ _ _ _ _
  | vfma | vfmaZq => intro h; cases h; exact vFma_meant _ _ _ _ _ _
  | vmin | vminZq | vmax | vmaxZq => intro h; cases h; exact arith2_meant _ _ _ _ _ _ 0 _ _
  | vabs | vabsZq => intro h; cases h; exact arith1_meant _ _ _ _ _ _ natAbs_eq_max _
  | vneg | vnegZq => intro h; cases h; exact arith1_meant _ _ _ _ _ _ (fun _ => rfl) _
  | vand | vandZq | vor | vorZq | vxor | vxorZq => intro h; cases h; exact bits2_meant _ _ _ _ _ _
  | vnot | vnotZq => intro h; cases h; exact vNot_meant _ _ _ _
  | vshl | vshlZq => intro h; cases h; exact shift2_meant _ _ _ _ _ _ shlElem_eq
  | vshr | vshrZq => intro h; cases h; exact shift2_meant _ _ _ _ _ _ shrElem_eq
  | vsar | vsarZq => intro h; cases h; exact shift2_meant _ _ _ _ _ _ sarElem_eq
  | vclz | vclzZq => intro h; cases h; exact count1_meant _ _ _ _ _ fun _ _ h => (zerosAbove_eq h).symm
  | vpopc | vpopcZq => intro h; cases h; exact count1_meant _ _ _ _ _ fun _ _ _ => oneBits_eq_countP _ _
  | vcmpEq | vcmpEqZq | vcmpNe | vcmpNeZq | vcmpLt | vcmpLtZq | vcmpLe | vcmpLeZq | vcmpLtn | vcmpLtnZq | vcmpLen | vcmpLenZq => intro h; cases h; exact vCmp_meant rfl _ _ _ _ _ _
  | vsel | vselZq => intro h; cases h; exact vSel_meant _ _ _ _ _ _
  | vcvt | vcvtZq => intro h; cases h; exact vCvt_meant _ _ _ _ _ _ _ _
  | vext | vextZq => intro h; cases h; exact vExt_meant _ _ _ _ _ _
  | vins | vinsZq => intro h; cases h; exact vIns_meant _ _ _ _ _
  | vfsh | vfshZq => intro h; cases h; exact vFsh_meant _ _ _ _ _
  | vmov | vmovZq => intro h; cases h; exact vMov_meant _ _ _ _
  | vperm | vpermZq => intro h; cases h; exact vPerm_meant _ _ _ _ _
  | vbcast => intro h; cases h; exact vBcast_lane false _ _ _ _ rfl
  | vbcastZq => intro h; cases h; exact vBcastZq_meant _ _ _ _
  | vlsh | vlshZq => intro h; cases h; exact vLsh_meant _ _ _ _ _
  | vrcp | vrcpZq | vrsq | vrsqZq | vexp2 | vexp2Zq | vlog2 | vlog2Zq => intro h; cases h; exact func1_meant _ _ _ _ _ _
  | vnorm | vnormZq => intro h; cases h; exact vNorm_meant _ _ _ _ _
  | _ => exact noRow

/-- Settles O38: each row of the table is what the model computes, with operand b taken. -/
theorem vectorResults : Obligations.VectorResults := by
  unfold Obligations.VectorResults
  exact fun i r hi hbad => (vectorRow_meant hi).holds hbad

/-! ## Traps and waits (R99, R100, R104, R108) -/

theorem State.vsrc_waits {s : State} {b : BitVec 5} (h : s.mustWaitFor b) (wide : Bool) : s.vsrc true b wide = .wait := by
  unfold State.mustWaitFor at h
  split at h
  · next hb =>
    have hpop : s.queuePop .v (b.setWidth 4) = .wait := by
      rcases h with h | ⟨⟨p, hbind⟩, h⟩
      · simp only [State.queuePop, h]
      · rw [State.queuePop, hbind]
        rcases h with h | h
        · simp only [h, if_true]
        · cases hentries : (s.me.queue (b.setWidth 4)).entries with
          | nil => simp only [if_true]
          | cons => simp only [h, if_true, Bool.false_eq_true, if_false]
    simp only [State.vsrc, hb, if_true, hpop]
  · next hb =>
    rw [State.vsrc, if_pos rfl, if_neg hb, State.streamPop]
    rcases h with h | ⟨hdrained, howner, h⟩
    · exact if_pos h
    · have hown : (s.me.stream (b.setWidth 4)).owner.any (· != .v) = false := by rcases howner with h | h <;> simp [h]
      rcases h with h | ⟨h, hbuf⟩
      · simp only [h, hdrained, hown, reduceCtorEq, Bool.false_eq_true, and_false, if_false, if_true]
      · simp only [h, hdrained, hown, hbuf, reduceCtorEq, Bool.false_eq_true, and_false, if_false]

theorem State.vsrc_traps {s : State} {b : BitVec 5} (h : s.notForV b) (wide : Bool) : s.vsrc true b wide = .trap causeQueueCfg 0 := by
  unfold State.notForV at h
  split at h
  · next hb =>
    obtain ⟨p, k, hbind, hk⟩ := h
    have hpop : s.queuePop .v (b.setWidth 4) = .trap causeQueueCfg 0 := by simp only [State.queuePop, hbind, hk, if_false]
    simp only [State.vsrc, hb, if_true, hpop]
  · next hb =>
    rw [State.vsrc, if_pos rfl, if_neg hb, State.streamPop]
    obtain ⟨hst, h⟩ := h
    dsimp only
    rw [if_neg hst]
    rcases h with h | ⟨e, howner, he⟩
    · exact if_pos h
    · cases hd : (s.me.stream (b.setWidth 4)).pat.drained with
      | true => rfl
      | false =>
        rw [if_neg (by decide), if_pos]
        exact ⟨by decide, by simp [howner, he]⟩

theorem VRow.Meant.srcs_ok {r : VRow} {m : State → Out} (h : r.Meant m) : r.reads.contains (.h 15) = false := by
  obtain ⟨-, -, -, hsrcs⟩ := h
  rw [VRow.reads, List.contains_append, hsrcs, Bool.false_or]
  split <;> rfl

/-- Settles O39: a type that is not accepted, an operand that is not there yet, and one that V may not read. -/
theorem vectorStops : Obligations.VectorStops := by
  unfold Obligations.VectorStops
  intro i r hi s hr
  have hmeant := vectorRow_meant hi
  have hsrcs := hmeant.srcs_ok
  obtain ⟨F, hx, -, -⟩ := hmeant
  have hissue (hbad : r.bad = none) (hzq : r.zq = true) : exec i s = issue .v r.y r.reads s fun s t =>
      (s.vsrc true r.b r.wide).then fun vb s1 => .done (s1.result .v r.dest (F vb s1) t r.lat) := by
    rw [hx, vForm_good hbad, VRow.reads, hzq]
    rfl
  refine ⟨fun c hc => ?_, fun hbad hzq hwait => ?_, fun hbad hzq htrap => ?_⟩
  · rw [hx, hc]
    exact issuePre_trap hr c _
  · refine ⟨_, (hissue hbad hzq).trans (issue_wait _ _ _ _ _ hr ?_), s.waits_stall .v none⟩
    rw [State.vsrc_waits hwait]
    rfl
  · refine (hissue hbad hzq).trans (issue_trap _ _ _ _ _ _ 0 0 hr hsrcs ?_)
    rw [State.vsrc_traps htrap]
    rfl

/-! ## Masks and moves (R107, R110) -/

/-- An item of V that only puts one result in flight. -/
theorem vPlain_holds {i : Instr} {y : BitVec 2} {srcs : List Reg} {r : Reg} {v w : State → Val} {lat : Nat} (hv : ∀ s, w s = v s)
    (hx : ∀ s, exec i s = issue .v y srcs s fun s t => .done (s.result .v r (w s) t lat)) : (vPlain y srcs r v lat).Holds i := by
  obtain rfl : w = v := funext hv
  exact (vPlain y srcs r w lat).holds_result i r w lat (fun _ => rfl) rfl rfl (fun _ _ => trivial) hx

theorem maskRow_holds (i : Instr) (c : Claim) : maskRow i = some c → c.Holds i := by
  cases i with
  | mand => intro h; cases h; exact vPlain_holds (fun _ => rfl) fun s => show execMand _ _ _ _ s = _ from rfl
  | mor => intro h; cases h; exact vPlain_holds (fun _ => rfl) fun s => show execMor _ _ _ _ s = _ from rfl
  | mxor => intro h; cases h; exact vPlain_holds (fun _ => rfl) fun s => show execMxor _ _ _ _ s = _ from rfl
  | mnot => intro h; cases h; exact vPlain_holds (fun _ => rfl) fun s => show execMnot _ _ _ s = _ from rfl
  | mpopc y d b =>
    intro h; cases h
    exact vPlain_holds (w := fun s => .vec ⟨mkLanes fun _ => BitVec.ofNat 32 (oneBits 128 (s.me.mreg b).toNat), 0⟩)
      (fun s => by simp only [oneBits_eq_countP]; rfl) fun s => show execMpopc y d b s = _ from rfl
  | mfirst y d b =>
    intro h; cases h
    exact vPlain_holds (w := fun s => .vec ⟨mkLanes fun _ => BitVec.ofNat 32 (trailingZeros 128 (s.me.mreg b).toNat), 0⟩)
      (fun s => by simp only [trailingZeros_eq_takeWhile]; rfl) fun s => show execMfirst y d b s = _ from rfl
  | vli => intro h; cases h; exact vPlain_holds (fun _ => rfl) fun s => show execVli _ _ _ s = _ from rfl
  | nopV y =>
    intro h; cases h
    exact Claim.holds_done _ _ _ (fun _ => rfl) (fun s => show execNopV y s = _ from rfl) fun s _ _ =>
      ⟨_, rfl, Claim.fits_same _ s rfl rfl, fun _ => trivial⟩
  | _ => exact noRow

/-- R110: the state in which V has claimed a stream that it reads. -/
def State.claimedByV (s : State) (z : BitVec 4) : State := s.onMe (·.setStream z { s.me.stream z with owner := some .v })

theorem State.streamPeek_offered {s : State} {b : BitVec 5} {v : VReg} (hb : b.getLsbD 4 = false) (h : s.offered true b false = some v) :
    s.streamPeek (b.setWidth 4) = .ok v (s.claimedByV (b.setWidth 4)) := by
  rw [State.streamPeek, State.offered_stream hb h]
  rfl

theorem State.result_kept (s : State) (e : Engine) (r : Reg) (v : State → Val) (lat k : Nat) :
    (Promise.fixed r v lat).Kept s (s.result e r (v s) k lat) e k := congrArg EngineState.flight (s.result_eng e r (v s) k lat)

theorem fromsClaim_queue {b : BitVec 5} (hb : b.getLsbD 4 = true) (y : BitVec 2) (d : BitVec 5) : (fromsClaim y d b).Holds (.vfroms y d b) := by
  refine Claim.holds_kept _ _ (fun _ => rfl) (fun s _ => show execVfroms y d b s = _ from rfl) (fun a hpre => ?_)
    (by simp only [fromsClaim, hb, if_true]; simp)
  obtain ⟨v, hv⟩ := Option.ne_none_iff_exists'.1 hpre
  obtain ⟨hoffers, hqueue⟩ := State.offered_queue hb hv
  refine ⟨a.result .v (.v d) (.vec v) ((a.eng .v).clk + y.toNat) 2, ?_, (Group.Undisturbed.refl _).toSameCourse, ⟨_, State.result_eng ..⟩, ?_,
    fun p hpe _ _ => State.result_same _ _ _ _ _ _ p hpe, fun _ _ hstream => absurd hb (ne_true_of_eq_false hstream)⟩
  · rw [if_pos hb, State.queuePeek_offers hoffers, hqueue]
    rfl
  · have hkept := a.result_kept .v (.v d) (fun s => .vec ((s.offered true b false).getD (s.me.vreg 0))) 2 ((a.eng .v).clk + y.toNat)
    rwa [hv] at hkept

theorem fromsClaim_stream {b : BitVec 5} (hb : b.getLsbD 4 = false) (y : BitVec 2) (d : BitVec 5) : (fromsClaim y d b).Holds (.vfroms y d b) := by
  have hparts : (fromsClaim y d b).parts = [.stream (b.setWidth 4)] := if_neg (ne_true_of_eq_false hb)
  refine Claim.holds_kept _ _ (fun _ => rfl) (fun s _ => show execVfroms y d b s = _ from rfl) (fun a hpre => ?_) (by rw [hparts]; simp)
  obtain ⟨v, hv⟩ := Option.ne_none_iff_exists'.1 hpre
  let u := a.claimedByV (b.setWidth 4)
  have heng := u.result_eng .v (.v d) (.vec v) ((a.eng .v).clk + y.toNat) 2
  refine ⟨u.result .v (.v d) (.vec v) ((a.eng .v).clk + y.toNat) 2, ?_, (Group.Undisturbed.refl _).toSameCourse, ⟨_, heng⟩, ?_, fun p hpe _ hpp => ?_,
    fun s via _ => ?_⟩
  · rw [if_neg (ne_true_of_eq_false hb), State.streamPeek_offered hb hv]
    rfl
  · refine (congrArg EngineState.flight heng).trans ?_
    simp only [fromsClaim, id_eq, hv, Option.getD_some]
    rfl
  · rw [hparts] at hpp
    exact State.same_trans _ _ _ _ (a.setStream_same _ _ p (by simpa using hpp)) (State.result_same _ _ _ _ _ _ p hpe)
  · have hsame := State.closed_same s _ _ .v y via (.stream (b.setWidth 4)) (u.result_same .v (.v d) (.vec v) ((a.eng .v).clk + y.toNat) 2
      (.stream (b.setWidth 4)) (by simp)) (by simp) (by simp)
    exact Eq.trans hsame (Group.stream_setStream _ _ _)

theorem fromsClaim_holds (y : BitVec 2) (d b : BitVec 5) : (fromsClaim y d b).Holds (.vfroms y d b) := by
  cases hb : b.getLsbD 4 with
  | true => exact fromsClaim_queue hb y d
  | false => exact fromsClaim_stream hb y d

/-- The state after a vector is appended to a drained stream. -/
def State.streamPushed (s : State) (z : BitVec 4) (v : VReg) : State :=
  s.onMe (·.setStream z { s.me.stream z with buf := (s.me.stream z).buf ++ [v], taken := (s.me.stream z).taken + 1 })

theorem State.streamPush_room {s : State} {z : BitVec 4} (hst : (s.me.stream z).st = .running) (hdrained : (s.me.stream z).pat.drained = true)
    (hroom : (s.me.stream z).buf.length < 8) (hleft : (s.me.stream z).pat.direct = true ∨ (s.me.stream z).taken < (s.me.stream z).vectors) (v : VReg) :
    s.streamPush z v = .ok () (s.streamPushed z v) := by
  have hlast : (s.me.stream z).isLast (s.me.stream z).taken = false := by
    rcases hleft with h | h
    · simp [Stream.isLast, h]
    · simp [Stream.isLast, Nat.not_le.2 h]
  simp only [State.streamPush, State.streamPushed, hst, hdrained, hlast, Nat.not_le.2 hroom, reduceCtorEq, Bool.not_true, Bool.false_eq_true, or_self, if_false]

theorem tosClaim_queue {b : BitVec 5} (hb : b.getLsbD 4 = true) (y : BitVec 2) (a : BitVec 5) : (tosClaim y a b).Holds (.vtos y a b) := by
  have hparts : (tosClaim y a b).parts = [.queue (b.setWidth 4)] := operandPart_queue hb
  refine Claim.holds_kept _ _ (fun _ => rfl) (fun s _ => show execVtos y a b s = _ from rfl) (fun s hpre => ?_) (by rw [hparts]; simp)
  have haccepts : s.Accepts .v (b.setWidth 4) := by simpa only [tosClaim, hb, if_true] using hpre
  refine ⟨s.pushed .v (b.setWidth 4) (((s.me.vreg a).lane 0).setWidth 64), ?_, (Group.Undisturbed.refl _).toSameCourse, ⟨_, rfl⟩, rfl,
    fun p _ _ hpp => s.pushed_same _ _ _ p (by rw [hparts] at hpp; simpa using hpp), fun u via => ?_⟩
  · rw [if_pos hb, State.queuePush_accepts haccepts]
    rfl
  · simp only [tosClaim, hb, if_true]
    exact State.pushed_of_queue (State.closed_same u _ _ .v y via (.queue (b.setWidth 4)) (State.same_refl _ _) (by simp) (by simp))

theorem tosClaim_stream {b : BitVec 5} (hb : b.getLsbD 4 = false) (y : BitVec 2) (a : BitVec 5) : (tosClaim y a b).Holds (.vtos y a b) := by
  have hparts : (tosClaim y a b).parts = [.stream (b.setWidth 4)] := operandPart_stream hb
  refine Claim.holds_kept _ _ (fun _ => rfl) (fun s _ => show execVtos y a b s = _ from rfl) (fun s hpre => ?_) (by rw [hparts]; simp)
  simp only [tosClaim, hb, Bool.false_eq_true, if_false] at hpre
  obtain ⟨hst, hdrained, hroom, hleft⟩ := hpre
  refine ⟨s.streamPushed (b.setWidth 4) (s.me.vreg a), ?_, (Group.Undisturbed.refl _).toSameCourse, ⟨_, rfl⟩, rfl,
    fun p _ _ hpp => s.setStream_same _ _ p (by rw [hparts] at hpp; simpa using hpp), fun u via => ?_⟩
  · rw [if_neg (ne_true_of_eq_false hb), State.streamPush_room hst hdrained hroom hleft]
    rfl
  · simp only [tosClaim, hb, Bool.false_eq_true, if_false]
    exact Eq.trans (State.closed_same u _ _ .v y via (.stream (b.setWidth 4)) (State.same_refl _ _) (by simp) (by simp)) (Group.stream_setStream _ _ _)

theorem tosClaim_holds (y : BitVec 2) (a b : BitVec 5) : (tosClaim y a b).Holds (.vtos y a b) := by
  cases hb : b.getLsbD 4 with
  | true => exact tosClaim_queue hb y a
  | false => exact tosClaim_stream hb y a

/-- Settles O40: the mask instructions and VLI by value; VFROMS and VTOS on a queue and on a stream. -/
theorem masksAndMoves : Obligations.MasksAndMoves := by
  unfold Obligations.MasksAndMoves
  exact ⟨maskRow_holds, fun y d b => ⟨fromsClaim_holds y d b, tosClaim_holds y d b⟩⟩

end Sys2Proof.Machine
end

section
-- One declaration after another: the whole text is checked in one process, of bounded memory.
set_option Elab.async false
/-! SUPPORT. Scans of engine V (06_vector R105, R111). -/

namespace Sys2Proof.Machine

/-- A running group with a quiet NaN that is not the default one in lane 0 of v1. -/
def oddNan : State :=
  { State.reset with
    me :=
      { Group.blank 0 with
        phase := .running
        vr := { (Group.blank 0).vr with v := (Group.blank 0).vr.v.set 1 ⟨mkLanes fun i => if i = 0 then 0x7FC00001 else 0, 0⟩ } } }

/-- VSCAN of the maximum over .f32 under profile 0, from v1 to v2. -/
def maxScan : RedForm := ⟨true, false, 0, 2, 0, 0, 1, 10, true⟩

/-- Lane 0 of the last result that engine V has in flight. -/
def State.lastLane (s : State) : BitVec 32 :=
  match (s.eng .v).flight.getLast? with
  | some ⟨_, .vec v, _, _, _, _, _, _⟩ => v.lane 0
  | _ => 0

/-- The same of an outcome. -/
def lastLaneOf : Out → BitVec 32
  | .next t => t.lastLane
  | _ => 0

theorem oddNan_ready : oddNan.Ready .v 0 [.v 1] :=
  ⟨by decide +kernel, by decide +kernel, by decide +kernel, by decide +kernel⟩

theorem oddNan_scan : lastLaneOf (exec (.vscan 0 2 0 0 1 10 1) oddNan) = 0x7FC00001 := by decide +kernel
theorem oddNan_claim : (maxScan.vec (oddNan.arrived .v 0) (oddNan.me.vreg 1)).lane 0 = 0x7FC00000 := by decide +kernel

theorem oddNan_pre : maxScan.claim.pre (oddNan.arrived .v 0) :=
  ⟨by decide +kernel, by decide +kernel⟩

/-- Refutes O41: under profile 0 element 0 of VSCAN is the lane as it is, where the claim takes its maximum with the identity, which
makes the default NaN of any NaN. -/
theorem not_reductions : ¬ Obligations.Reductions := by
  unfold Obligations.Reductions
  intro h
  obtain ⟨t, ht, hdone⟩ := (h (.vscan 0 2 0 0 1 10 1) maxScan rfl).1 (fun hopen => nomatch hopen.2.1) oddNan oddNan_ready
    oddNan_pre
  have hflight := hdone.result
  have hlane := oddNan_scan
  rw [ht] at hlane
  have hclaim : t.lastLane = (maxScan.vec (oddNan.arrived .v 0) (oddNan.me.vreg 1)).lane 0 := by
    simp only [State.lastLane, show (t.eng .v).flight = _ from hflight, List.getLast?_concat]
    rfl
  exact absurd (hlane.symm.trans (hclaim.trans oddNan_claim)) (by decide)

end Sys2Proof.Machine
end

section
-- One declaration after another: the whole text is checked in one process, of bounded memory.
set_option Elab.async false
/-! SUPPORT. Engine V (06_vector R114, R115, R118): angles and slices. -/

namespace Sys2Proof.Machine

/-! ## Several results -/

/-- From `s` to `t`, engine `e` has put results in flight, `f` among them for every `f` of `l`, and nothing else has changed. -/
structure State.Flies (s t : State) (e : Engine) (l : List InFlight) : Prop where
  only : s.OnlyFlight t e
  same : ∀ p, p ≠ .engine e → s.same t p
  here : ∀ f ∈ l, f ∈ (t.eng e).flight

theorem State.Flies.start (s : State) (e : Engine) : s.Flies s e [] := ⟨.refl s e, fun p _ => s.same_refl p, fun _ h => nomatch h⟩

theorem State.Flies.result {s t : State} {e : Engine} {l : List InFlight} (h : s.Flies t e l) (hl : ∀ f ∈ l, f.late = false) (r : Reg) (v : Val)
    (k lat : Nat) : s.Flies (t.result e r v k lat) e (fixedFlight r v (k + lat) :: l) := by
  obtain ⟨⟨fl, honly⟩, hsame, hhere⟩ := h
  have heng := t.result_eng e r v k lat
  refine ⟨⟨_, heng.trans (by rw [honly])⟩, fun p hp => State.same_trans _ _ _ _ (hsame p hp) (t.result_same e r v k lat p hp), fun f hf => ?_⟩
  rw [heng]
  rcases List.mem_cons.1 hf with rfl | hf
  · exact List.mem_append_right _ (List.mem_singleton_self _)
  · exact List.mem_append_left _ (List.mem_filter.2 ⟨hhere f hf, by simp [hl f hf]⟩)

theorem State.result_undisturbed (s : State) (e : Engine) (r : Reg) (v : Val) (k lat : Nat) : s.me.Undisturbed (s.result e r v k lat).me := by
  have heng := s.result_eng e r v k lat
  refine ⟨⟨fun e' => ?_, (s.result_same e r v k lat .phase (by simp)), (s.result_same e r v k lat .ident (by simp))⟩, ?_⟩
  · by_cases he : e' = e
    · subst he
      exact (congrArg EngineState.course heng).trans rfl
    · exact congrArg EngineState.course (s.result_same e r v k lat (.engine e') (by simpa using he))
  · exact congrArg (List.map (·.bar)) (s.result_same e r v k lat .joined (by simp))

/-- Parts that are the same may be told the other way round. -/
theorem State.same.symm {s t : State} {p : Aspect} (h : s.same t p) : t.same s p := by
  cases p with
  | regs => exact fun r => (h r).symm
  | spad => exact fun x => (h x).symm
  | acc => exact fun x => (h x).symm
  | hbm => exact fun x => (h x).symm
  | host => exact fun x => (h x).symm
  | text => exact ⟨fun x => (h.1 x).symm, h.2.1.symm, h.2.2.symm⟩
  | flag => exact ⟨h.1.symm, h.2.symm⟩
  | jobs => exact ⟨h.1.symm, h.2.symm⟩
  | trace => exact ⟨h.1.symm, h.2.symm⟩
  | irq => exact ⟨h.1.symm, h.2.symm⟩
  | claimed => exact ⟨h.1.symm, h.2.symm⟩
  | atomics => exact ⟨h.1.symm, h.2.symm⟩
  | phase => exact ⟨h.1.symm, h.2.1.symm, h.2.2.1.symm, h.2.2.2.symm⟩
  | clock => exact ⟨h.1.symm, h.2.1.symm, h.2.2.1.symm, h.2.2.2.1.symm, h.2.2.2.2.1.symm, h.2.2.2.2.2.symm⟩
  | platform => exact ⟨h.1.symm, h.2.1.symm, h.2.2.1.symm, h.2.2.2.1.symm, h.2.2.2.2.symm⟩
  | _ => exact Eq.symm h

theorem State.Took.congr {a a' t : State} {zq : Bool} {b : BitVec 5} (h : a.Took t zq b) (hsame : ∀ p ∈ operandPart zq b, a.same a' p) :
    a'.Took t zq b := by
  cases zq with
  | false => trivial
  | true =>
    cases hb : b.getLsbD 4 with
    | false =>
      have hz : a'.me.stream _ = a.me.stream _ := hsame (.stream (b.setWidth 4)) (by simp [operandPart_stream hb])
      rw [State.Took, if_neg (by decide), if_neg (ne_true_of_eq_false hb)] at h ⊢
      rwa [hz]
    | true =>
      have hq : a'.me.queue _ = a.me.queue _ := hsame (.queue (b.setWidth 4)) (by simp [operandPart_queue hb])
      rw [State.Took, if_neg (by decide), if_pos hb] at h ⊢
      rwa [State.Popped, hq]

/-! ## Angles -/

theorem vAtan_meant {t : BitVec 4} (ht : t.toNat = 2 ∨ t.toNat = 10) (zq : Bool) (y : BitVec 2) (d a b : BitVec 5) (g : BitVec 1) :
    (atanRow zq y d a b t (if g = 1 then 32 else 16)).Meant (vAtan zq y d a b t g) := by
  have hbad : (if t.toNat = 2 ∨ t.toNat = 10 ∨ t.toNat = 14 then none else some causeIllegal) =
      if t.toNat ∈ [2, 10, 14] then none else some causeIllegal := by revert t; decide
  have hne : tyOf t ≠ .bx := by revert t; decide
  have hval (v : VReg) (k : Nat) : atanVal (tyOf t) v k = coordinate t v k := by
    rw [coordinate, tyOfCode_of_ne (by omega)]
    unfold atanVal
    cases hty : tyOf t with
    | bx => exact absurd hty hne
    | int sg w => rfl
    | flt f => rfl
  obtain ⟨F, hx, hF⟩ := vecRow_meant (zq := zq) (y := y) (d := d) (b := b) (wide := false) (srcs := [.v a]) (lat := 8) rfl hbad rfl
    (f := fun s v => lanes fun i => BitVec.ofNat 32 (fpAtan (if g = 1 then 32 else 16) (coordinate t (s.me.vreg a) i) (coordinate t v i)))
    fun _ s v => by rw [State.took_vreg]
  refine ⟨F, fun s => Eq.trans ?_ (hx s), hF⟩
  simp only [vAtan, vForm1, if_neg hne, hval]
  rfl

theorem State.offered_getD {s : State} {zq : Bool} {b : BitVec 5} {wide : Bool} (h : s.offered zq b wide ≠ none) :
    s.offered zq b wide = some ((s.offered zq b wide).getD (s.me.vreg 0)) := by
  obtain ⟨v, hv⟩ := Option.ne_none_iff_exists'.1 h
  rw [hv, Option.getD_some]

theorem operandPart_not_free (zq : Bool) (b : BitVec 5) : Aspect.free ∉ operandPart zq b := by
  unfold operandPart
  split
  · simp
  · split <;> simp

theorem State.fresh_same (s : State) (p : Aspect) (h : p ≠ .free) : s.same s.fresh.2 p := by
  have h' := s.same_refl p
  cases p with
  | free => exact absurd rfl h
  | _ => exact h'

/-- R114: VATAN of .bx operands, with `x` in the exponent field. -/
def State.atanBx (s : State) (zq : Bool) (a b : BitVec 5) (bits : Nat) (x : BitVec 16) : VReg :=
  ⟨mkLanes fun i => BitVec.ofNat 32 (fpAtan bits (coordinate 14 (s.me.vreg a) i) (coordinate 14 ((s.offered zq b false).getD (s.me.vreg 0)) i)), x⟩

theorem atanBx_holds {i : Instr} {zq : Bool} {y : BitVec 2} {d a b : BitVec 5} {g : BitVec 1} (hx : ∀ s, exec i s = vAtan zq y d a b 14 g s) :
    (atanBxClaim zq y d a b (if g = 1 then 32 else 16)).Holds i := by
  refine Claim.holds_operand (zq := zq) (b := b) (wide := false) (srcs := [.v a]) _ _ rfl rfl (fun _ => rfl) (fun s _ => hx s) (fun s hpre => ?_)
    (by simp [atanBxClaim, operandPart_not_phase])
  let u := (s.took zq b).fresh.2
  let w := s.atanBx zq a b (if g = 1 then 32 else 16) ((Config.freeBits (s.took zq b).free).setWidth 16)
  have hsame (p : Aspect) (hp : p ≠ .engine .v) (hpf : p ≠ .free) : (s.took zq b).same (u.result .v (.v d) (.vec w) ((s.eng .v).clk + y.toNat) 8) p :=
    State.same_trans _ _ _ _ ((s.took zq b).fresh_same p hpf) (u.result_same .v (.v d) (.vec w) _ 8 p hp)
  have heng : u.eng .v = s.eng .v := s.took_eng zq b .v
  have hflight := u.result_eng .v (.v d) (.vec w) ((s.eng .v).clk + y.toNat) 8
  rw [heng] at hflight
  refine ⟨_, u.result .v (.v d) (.vec w) ((s.eng .v).clk + y.toNat) 8, State.offered_getD hpre, ?_, (Group.Undisturbed.refl _).toSameCourse, ⟨_, hflight⟩,
    trivial, fun p hpe _ hpp => ?_, fun s' via => ⟨?_, (Config.freeBits (s.took zq b).free).setWidth 16, ?_⟩⟩
  · simp only [State.took_vreg]
    rfl
  · simp only [atanBxClaim, List.mem_cons, not_or] at hpp
    exact State.same_trans _ _ _ _ (s.took_same zq b p hpp.2) (hsame p hpe hpp.1)
  · exact State.took_closed (fun p hp => hsame p (fun e => operandPart_not_engine _ _ _ (e ▸ hp)) fun e => operandPart_not_free _ _ (e ▸ hp)) s' _ via
  · rw [State.closed_flight]
    exact congrArg EngineState.flight hflight

/-- R115: the cosines or the sines of the lanes of operand b. -/
def State.cosSins (s : State) (zq : Bool) (b : BitVec 5) (t : BitVec 4) (g : BitVec 1) (f : BitVec 32 × BitVec 32 → BitVec 32) : VReg :=
  lanes fun i => f (cosSin t (if g = 1 then 32 else 16) (((s.offered zq b false).getD (s.me.vreg 0)).lane i))

/-- R115: V has put the cosines in flight. -/
def State.cosined (s : State) (zq : Bool) (y : BitVec 2) (d b : BitVec 5) (t : BitVec 4) (g : BitVec 1) : State :=
  s.result .v (.v d) (.vec (s.cosSins zq b t g Prod.fst)) (s.issueAt .v y) 8

/-- R115: V has taken operand b and put the cosines and the sines in flight. -/
def State.sincosined (s : State) (zq : Bool) (y : BitVec 2) (d b : BitVec 5) (t : BitVec 4) (g : BitVec 1) : State :=
  ((s.took zq b).result .v (.v d) (.vec (s.cosSins zq b t g Prod.fst)) (s.issueAt .v y) 8).result .v (.v (d + 1))
    (.vec (s.cosSins zq b t g Prod.snd)) (s.issueAt .v y) 8

theorem State.cosined_cosSins (s : State) (zq : Bool) (y : BitVec 2) (d b : BitVec 5) (t : BitVec 4) (g : BitVec 1)
    (f : BitVec 32 × BitVec 32 → BitVec 32) : (s.cosined zq y d b t g).cosSins zq b t g f = s.cosSins zq b t g f := by
  obtain ⟨hand, h⟩ := s.me.fly_eq .v (fixedFlight (.v d) (.vec (s.cosSins zq b t g Prod.fst)) (s.issueAt .v y + 8))
  rw [State.cosined, State.result, State.onMe, h]
  rfl

theorem cosSin_eq {t : BitVec 4} (ht : t.toNat = 10 ∨ t.toNat = 2) (bits : Nat) (c : BitVec 32) :
    cosSin t bits c = (BitVec.ofNat 32 (sincosLane (t.toNat == 2) bits c).1, BitVec.ofNat 32 (sincosLane (t.toNat == 2) bits c).2) := by
  rcases ht with h | h <;> simp [cosSin, sincosLane, h, ofNat_wrapInt]

theorem badSincos_none {d : BitVec 5} {t : BitVec 4} {g : BitVec 1} (hd : d.toNat % 2 = 0) (ht : t.toNat = 10 ∨ t.toNat = 2 ∧ g = 0) :
    badSincos d t g = none := by
  rcases ht with h | ⟨h, rfl⟩ <;> simp [badSincos, h, hd]

theorem sincos_holds {i : Instr} {zq : Bool} {y : BitVec 2} {d b : BitVec 5} {t : BitVec 4} {g : BitVec 1}
    (hx : ∀ s, exec i s = vSincos zq y d b t g s) : (sincosClaim zq y d b t g).Holds i := by
  refine Claim.holds_operand (zq := zq) (b := b) (wide := false) (srcs := []) _ (fun vb s1 n =>
    .done ((s1.result .v (.v d) (.vec (lanes fun i => (cosSin t (if g = 1 then 32 else 16) (vb.lane i)).1)) n 8).result .v (.v (d + 1))
      (.vec (lanes fun i => (cosSin t (if g = 1 then 32 else 16) (vb.lane i)).2)) n 8)) rfl rfl (fun _ => rfl) (fun s hpre => ?_) (fun s hpre => ?_)
    (operandPart_not_phase _ _)
  · obtain ⟨-, hd, ht⟩ := hpre
    simp only [cosSin_eq (ht.imp_right And.left)]
    rw [hx, vSincos, badSincos_none hd ht]
    rfl
  · obtain ⟨hoff, -⟩ := hpre
    have hmid : (sincosClaim zq y d b t g).does s = s.cosined zq y d b t g := rfl
    have hresult : (sincosClaim zq y d b t g).result =
        .fixed (.v (d + 1)) (fun a => .vec (a.cosSins zq b t g Prod.snd)) 8 := rfl
    refine ⟨_, s.sincosined zq y d b t g, State.offered_getD hoff, rfl, ?_⟩
    rw [hmid, hresult]
    have heng : (s.sincosined zq y d b t g).eng .v =
        ((s.cosined zq y d b t g).result .v (.v (d + 1)) (.vec (s.cosSins zq b t g Prod.snd)) (s.issueAt .v y) 8).eng .v := by
      rw [State.sincosined, State.cosined, State.result_eng, State.result_eng, State.result_eng, State.result_eng, State.took_eng]
    have hsame (p : Aspect) (hp : p ≠ .engine .v) : (s.took zq b).same (s.sincosined zq y d b t g) p :=
      State.same_trans _ _ _ _ (State.result_same _ _ _ _ _ _ p hp) (State.result_same _ _ _ _ _ _ p hp)
    have hcosined (p : Aspect) (hp : p ≠ .engine .v) : s.same (s.cosined zq y d b t g) p := State.result_same _ _ _ _ _ _ p hp
    refine ⟨(s.result_undisturbed ..).toSameCourse, ⟨_, heng.trans (State.result_eng ..)⟩, ?_, fun p hpe _ hpp => ?_, fun s' via => ?_⟩
    · refine (congrArg EngineState.flight (heng.trans (State.result_eng ..))).trans ?_
      simp only [State.cosined_cosSins]
      rfl
    · exact State.same_trans _ _ _ _ (hcosined p hpe).symm (s.took_same_except hsame p hpe hpp)
    · exact (State.took_closed (fun p hp => hsame p fun e => operandPart_not_engine _ _ _ (e ▸ hp)) s' y via).congr fun p hp => hcosined p fun e =>
        operandPart_not_engine _ _ _ (e ▸ hp)

/-! ## Slices -/

theorem mkLanes_congr {f g : Nat → BitVec 32} (h : ∀ i, i < 128 → f i = g i) : mkLanes f = mkLanes g := by
  unfold mkLanes
  exact congrArg Vector.ofFn (funext fun i => h i.val i.isLt)

theorem mkElems_congr {ty : Ty} {f g : Nat → Nat} (h : ∀ k, k < elemCount ty.bits → f k = g k) (exp : BitVec 16) :
    mkElems ty f exp = mkElems ty g exp := by
  unfold mkElems
  by_cases hty : ty.bits = 64
  · rw [if_pos hty, if_pos hty, mkLanes_congr fun i hi => by rw [h (i / 2) (by rw [elemCount, if_pos hty]; omega)]]
  · rw [if_neg hty, if_neg hty, mkLanes_congr fun i hi => by rw [h i (by rwa [elemCount, if_neg hty])]]

theorem sliceVec_congr {ty : Ty} {f g : Nat → Int} (h : ∀ k, k < elemCount ty.bits → f k = g k) : sliceVec ty f = sliceVec ty g := by
  unfold sliceVec
  by_cases hty : ty.bits = 64
  · rw [if_pos hty, if_pos hty]
    exact mkElems_congr (fun k hk => congrArg (fun z => wrapInt 64 (sextNat 16 (wrapInt 16 z))) (h k (by rwa [hty]))) 0
  · rw [if_neg hty, if_neg hty]
    exact congrArg (VReg.mk · 0) (mkLanes_congr fun i hi =>
      congrArg (fun z => BitVec.ofInt 32 (sextNat 16 (wrapInt 16 z))) (h i (by rwa [elemCount, if_neg hty])))

theorem ctlVec_congr {ty : Ty} {f g : Nat → Nat} (h : ∀ k, k < elemCount ty.bits → f k = g k) : ctlVec ty f = ctlVec ty g := by
  unfold ctlVec
  by_cases hty : ty.bits = 64
  · simp only [if_pos hty]
    rw [mkLanes_congr fun i hi => by rw [h (i / 2) (by rw [elemCount, if_pos hty]; omega)]]
  · simp only [if_neg hty]
    rw [mkLanes_congr fun i hi => by rw [h i (by rwa [elemCount, if_neg hty])]]

/-- R118: the result of slice `j`, one of `n`; the shift words stand behind the slices. -/
def sliceFlight (ty : Ty) (d : BitVec 5) (n land : Nat) (l : Nat → List Int × Nat) (j : Nat) : InFlight :=
  fixedFlight (.v (d + BitVec.ofNat 5 j)) (.vec (if j < n then sliceVec ty (fun k => (l k).1.getD j 0) else ctlVec ty fun k => (l k).2)) land

theorem State.splitOut_flies (s : State) (ty : Ty) (d : BitVec 5) (n k : Nat) (l : Nat → List Int × Nat) :
    ∃ fs, s.Flies (s.splitOut ty d n k ((List.range (elemCount ty.bits)).map l)) .v fs ∧
      ∀ j, j ≤ n → sliceFlight ty d n (k + 6) l j ∈ fs := by
  have hl (i : Nat) (hi : i < elemCount ty.bits) : ((List.range (elemCount ty.bits)).map l).getD i ([], 0) = l i := by
    simp [List.getD, hi]
  have hslices (m : Nat) : ∃ fs, s.Flies ((List.range m).foldl (fun x j => x.result .v (.v (d + BitVec.ofNat 5 j))
      (.vec (sliceVec ty fun i => ((((List.range (elemCount ty.bits)).map l).getD i ([], 0)).1).getD j 0)) k 6) s) .v fs ∧ (∀ f ∈ fs, f.late = false) ∧
      ∀ j, j < m → fixedFlight (.v (d + BitVec.ofNat 5 j)) (.vec (sliceVec ty fun i => (l i).1.getD j 0)) (k + 6) ∈ fs := by
    induction m with
    | zero => exact ⟨[], .start s .v, fun _ h => (nomatch h), fun _ h => absurd h (Nat.not_lt_zero _)⟩
    | succ m ih =>
      obtain ⟨fs, hflies, hlate, hmem⟩ := ih
      rw [List.range_succ, List.foldl_append]
      refine ⟨_, hflies.result hlate _ _ k 6, fun f hf => ?_, fun j hj => ?_⟩
      · rcases List.mem_cons.1 hf with rfl | hf
        · rfl
        · exact hlate f hf
      · rcases Nat.lt_succ_iff_lt_or_eq.1 hj with hj | rfl
        · exact List.mem_cons_of_mem _ (hmem j hj)
        · rw [sliceVec_congr fun i hi => by rw [hl i hi]]
          exact List.mem_cons_self
  obtain ⟨fs, hflies, hlate, hmem⟩ := hslices n
  refine ⟨_, hflies.result hlate (.v (d + BitVec.ofNat 5 n)) _ k 6, fun j hj => ?_⟩
  rcases Nat.lt_or_eq_of_le hj with hj | rfl
  · rw [sliceFlight, if_pos hj]
    exact List.mem_cons_of_mem _ (hmem j hj)
  · rw [sliceFlight, if_neg (Nat.lt_irrefl _), ctlVec_congr fun i hi => by rw [hl i hi]]
    exact List.mem_cons_self

theorem splitBad_eq (a : BitVec 5) (t : BitVec 4) (e : BitVec 1) :
    (if e = 1 ∧ a ≠ 0 then some causeReserved else if t.toNat = 10 ∨ t.toNat = 11 ∨ t.toNat = 12 then none else some causeIllegal) = splitBad a t e := by
  simp only [splitBad, List.mem_cons, List.not_mem_nil, or_false]

theorem splitBad_none {a : BitVec 5} {t : BitVec 4} {e : BitVec 1} (h : splitBad a t e = none) : t.toNat ≠ 15 := by
  intro ht
  rw [splitBad, ht] at h
  split at h <;> cases h

theorem expPass_meant {a : BitVec 5} {t : BitVec 4} (hbad : splitBad a t 1 = none) (ha : a = 0) (zq : Bool) (y : BitVec 2) (d b : BitVec 5) :
    (expPassRow zq y d b t).Meant (vSplit zq y d a b t 1) := by
  subst ha
  have hty : (tyOfCode t.toNat).getD .bx = tyOf t := by rw [tyOfCode_of_ne (splitBad_none hbad), Option.getD_some]
  exact vecRow_meant (f := fun s v => ctlVec (tyOf t) fun k => expPass ((s.me.vreg d).lane (ctlLane (tyOf t) k)).toNat
    (splitVal (tyOf t) (v.elem (tyOf t).bits k))) (wideType_eq t) (splitBad_eq 0 t 1) rfl (fun _ s v => by rw [State.took_vreg, hty]; rfl)

/-- R118: the slices and the word of element `k` of `v` under the control elements of v[a]. -/
def State.splitAt (s : State) (a : BitVec 5) (t : BitVec 4) (v : VReg) (k : Nat) : List Int × Nat :=
  splitElem (sliceCount s a) ((s.me.vreg a).lane (ctlLane (tyOf t) k)).toNat (splitVal (tyOf t) (v.elem (tyOf t).bits k))

/-- R118: what a split does once operand b is taken. -/
def splitEffect (d a : BitVec 5) (t : BitVec 4) (v : VReg) (s : State) (n : Nat) : Effect :=
  if sliceCount s a = 0 ∨ sliceCount s a = 7 ∨ 31 < d.toNat + sliceCount s a then .trap causeBounds 0 0
  else .done (s.splitOut (tyOf t) d (sliceCount s a) n ((List.range (elemCount (tyOf t).bits)).map (s.splitAt a t v)))

theorem split_holds {i : Instr} {zq : Bool} {y : BitVec 2} {d a b : BitVec 5} {t : BitVec 4}
    (hx : ∀ s, exec i s = vSplit zq y d a b t 0 s) : (splitClaim zq y d a b t).Holds i := by
  refine Claim.holds_operand (zq := zq) (b := b) (wide := wideType t) (srcs := [.v a]) _ (splitEffect d a t) rfl rfl (fun _ => rfl) (fun s hpre => ?_)
    (fun s hpre => ?_) (operandPart_not_phase _ _)
  · obtain ⟨-, hbad, -⟩ := hpre
    rw [hx, ← wideType_eq, ← hbad, ← splitBad_eq]
    rfl
  · obtain ⟨hoff, hbad, hlow, hhigh, hd⟩ := hpre
    have hty : (tyOfCode t.toNat).getD .bx = tyOf t := by rw [tyOfCode_of_ne (splitBad_none hbad), Option.getD_some]
    have hcount : sliceCount (s.took zq b) a = sliceCount s a := by rw [sliceCount, State.took_vreg]; rfl
    have hsplit : (s.took zq b).splitAt a t ((s.offered zq b (wideType t)).getD (s.me.vreg 0)) = splitOf s zq a b t := by
      funext k
      rw [State.splitAt, hcount, State.took_vreg, splitOf, hty]
      rfl
    obtain ⟨fs, ⟨⟨fl, honly⟩, hsame, hhere⟩, hmem⟩ :=
      (s.took zq b).splitOut_flies (tyOf t) d (sliceCount s a) ((s.eng .v).clk + y.toNat) (splitOf s zq a b t)
    have heffect : splitEffect d a t ((s.offered zq b (wideType t)).getD (s.me.vreg 0)) (s.took zq b) ((s.eng .v).clk + y.toNat) =
        .done ((s.took zq b).splitOut (tyOf t) d (sliceCount s a) ((s.eng .v).clk + y.toNat)
          ((List.range (elemCount (tyOf t).bits)).map (splitOf s zq a b t))) := by
      rw [splitEffect, hcount, hsplit, if_neg (by omega)]
    refine ⟨_, _, State.offered_getD hoff, heffect, (Group.Undisturbed.refl _).toSameCourse, ⟨_, honly.trans (by rw [State.took_eng]; rfl)⟩, trivial,
      fun p hpe _ hpp => s.took_same_except hsame p hpe hpp, fun s' via => ⟨?_, fun j hj =>
        ⟨sliceFlight (tyOf t) d (sliceCount s a) ((s.eng .v).clk + y.toNat + 6) (splitOf s zq a b t) j, ?_, rfl, rfl, rfl, ?_⟩⟩⟩
    · exact State.took_closed (fun p hp => hsame p fun e => operandPart_not_engine _ _ _ (e ▸ hp)) s' _ via
    · rw [State.closed_flight]
      exact hhere _ (hmem j hj)
    · rw [hty]
      rfl

theorem atanForm_exec {i : Instr} {zq : Bool} {y : BitVec 2} {d a b : BitVec 5} {t : BitVec 4} {n : Nat}
    (h : atanForm i = some (zq, y, d, a, b, t, n)) : ∃ g : BitVec 1, n = (if g = 1 then 32 else 16) ∧ exec i = vAtan zq y d a b t g := by
  revert h
  cases i with
  | vatan | vatanZq => intro h; cases h; exact ⟨_, rfl, rfl⟩
  | _ => exact noRow

theorem sincosForm_exec {i : Instr} {zq : Bool} {y : BitVec 2} {d b : BitVec 5} {t : BitVec 4} {g : BitVec 1}
    (h : sincosForm i = some (zq, y, d, b, t, g)) : exec i = vSincos zq y d b t g := by
  revert h
  cases i with
  | vsincos | vsincosZq => intro h; cases h; rfl
  | _ => exact noRow

theorem splitForm_exec {i : Instr} {zq : Bool} {y : BitVec 2} {d a b : BitVec 5} {t : BitVec 4} {e : BitVec 1}
    (h : splitForm i = some (zq, y, d, a, b, t, e)) : exec i = vSplit zq y d a b t e := by
  revert h
  cases i with
  | vsplit | vsplitZq => intro h; cases h; rfl
  | _ => exact noRow

/-- Settles O42: rows for VATAN and the exponent pass, and the results that VSINCOS and a split put in flight behind one another. -/
theorem anglesAndSlices : Obligations.AnglesAndSlices := by
  unfold Obligations.AnglesAndSlices
  refine ⟨fun i zq y d a b t n hi => ?_, fun i zq y d b t g hi => sincos_holds (congrFun (sincosForm_exec hi)), fun i zq y d a b t e hi => ?_⟩
  · obtain ⟨g, rfl, hx⟩ := atanForm_exec hi
    refine ⟨fun ht => ?_, fun ht => ?_⟩
    · have hbad : (if t.toNat ∈ [2, 10, 14] then none else some causeIllegal) = none := by
        rcases ht with h | h <;> simp [h]
      exact VRow.Meant.holds (hx ▸ vAtan_meant ht zq y d a b g) hbad
    · subst ht
      exact atanBx_holds (congrFun hx)
  · have hx := splitForm_exec hi
    refine ⟨fun he => ?_, fun he ha hbad => ?_, fun s hr c hc => ?_⟩
    · subst he
      exact split_holds (congrFun hx)
    · subst he
      have hmeant := expPass_meant hbad ha zq y d b
      subst ha
      exact VRow.Meant.holds (hx ▸ hmeant) hbad
    · rw [hx, vSplit, splitBad_eq, hc]
      have hsrcs : (if e = 1 then .v d :: (if zq = true then [] else [.v b]) else .v a :: (if zq = true then [] else [.v b])) =
          (if e = 1 then [.v d] else [.v a]) ++ vregSrcs zq b := by
        rw [vregSrcs]
        split <;> rfl
      exact issuePre_trap (hsrcs ▸ hr) c _

end Sys2Proof.Machine
end

section
-- One declaration after another: the whole text is checked in one process, of bounded memory.
set_option Elab.async false
/-! SUPPORT. Engine V (06_vector R112, R113): accesses lane by lane. -/

namespace Sys2Proof.Machine

/-! ## A result in flight -/

theorem State.fly_eng (s : State) (e : Engine) (f : InFlight) : (s.onMe (·.fly e f)).eng e =
    { s.eng e with flight := ((s.eng e).flight.filter fun o => !(o.reg == f.reg && o.late)) ++ [f] } := by
  obtain ⟨hand, h⟩ := s.me.fly_eq e f
  show (s.me.fly e f).eng.get e = _
  rw [h]
  exact Engines.get_set ..

theorem State.fly_same (s : State) (e : Engine) (f : InFlight) (p : Aspect) (h : p ≠ .engine e) : s.same (s.onMe (·.fly e f)) p := by
  obtain ⟨hand, hf⟩ := s.me.fly_eq e f
  rw [State.onMe, hf]
  have h' := s.same_refl p
  cases p with
  | engine k => exact Engines.get_set_ne _ _ _ _ fun hk => h (hk ▸ rfl)
  | regs => exact fun r => by cases r <;> rfl
  | _ => exact h'

/-! ## The lanes' addresses -/

@[simp] theorem State.took_store (s : State) (zq : Bool) (b : BitVec 5) : (s.took zq b).me.store = s.me.store := by
  unfold State.took
  split
  · rfl
  · split <;> rfl

theorem State.took_isPending (s : State) (zq : Bool) (b : BitVec 5) (acc : Bool) (lo n : Nat) :
    (s.took zq b).me.isPending acc (s.took zq b).me.ident.core lo n = s.me.isPending acc s.me.ident.core lo n := by
  unfold State.took
  split
  · rfl
  · split <;> rfl

theorem State.took_lanesFine {s : State} {n : Nat} {addr : Nat → Nat} (h : s.lanesFine n addr) (zq : Bool) (b : BitVec 5) :
    (s.took zq b).lanesFine n addr := fun i hi => by
  rw [State.took_isPending]
  exact h i hi

/-- R98: what the lanes' accesses accept of types. -/
theorem laneType_ok {t : BitVec 4} (h : laneType t = true) : badLanes t = none ∧ (tyOfCode t.toNat).getD .bx = tyOf t ∧ elemBytes t = (tyOf t).bits / 8 := by
  revert t
  decide

/-- The index of a lane. -/
def laneIndex (clamped : Bool) : BitVec 32 → Nat := if clamped = true then lutIndex else (·.toNat)

theorem laneAddrs_eq (n : Nat) (clamped : Bool) (u v : VReg) : laneAddrs n (laneIndex clamped) u v = (List.range 128).map (laneAddr n u v clamped) := by
  refine List.map_congr_left fun i _ => ?_
  rw [laneIndex, laneAddr]
  split <;> rfl

theorem laneCheck_fine {s : State} {n : Nat} {addr : Nat → Nat} (h : s.lanesFine n addr) : s.me.laneCheck n ((List.range 128).map addr) = .ok () := by
  have hfirst : ((List.range 128).map addr).find? (fun a => a % n != 0 || decide (2 ^ 26 < a + n)) = none := by
    refine List.find?_eq_none.2 fun a ha => ?_
    obtain ⟨i, hi, rfl⟩ := List.mem_map.1 ha
    obtain ⟨halign, hbound, -⟩ := h i (List.mem_range.1 hi)
    simpa [halign] using hbound
  have hsecond : ((List.range 128).map addr).find? (fun a => s.me.isPending false s.me.ident.core a n) = none := by
    refine List.find?_eq_none.2 fun a ha => ?_
    obtain ⟨i, hi, rfl⟩ := List.mem_map.1 ha
    obtain ⟨-, -, hpend⟩ := h i (List.mem_range.1 hi)
    simp [hpend]
  simp only [Group.laneCheck, hfirst, hsecond]

/-! ## VGATH and VLUT (R112) -/

/-- The vector that VGATH and VLUT read. -/
def State.gathered (s : State) (clamped : Bool) (t : BitVec 4) (a : BitVec 5) (v : VReg) : VReg :=
  lanes fun i => laneOf ((tyOfCode t.toNat).getD .bx) (s.ownNum (laneAddr (elemBytes t) (s.me.vreg a) v clamped i) (elemBytes t))

/-- What VGATH and VLUT do once operand b is taken. -/
def gatherEffect (clamped : Bool) (d a : BitVec 5) (t : BitVec 4) (vb : VReg) (s : State) (now : Nat) : Effect :=
  ofChk (s.me.laneCheck (elemBytes t) ((List.range 128).map (laneAddr (elemBytes t) (s.me.vreg a) vb clamped))) fun _ =>
    if s.vFull then .wait
    else .done (s.onMe (·.fly .v (lateFlight (.v d) (.vec (s.gathered clamped t a vb)) (now + 14) none none none)))

theorem gather_eq {t : BitVec 4} (h : laneType t = true) (clamped zq : Bool) (y : BitVec 2) (d a b : BitVec 5) (s : State) :
    gather (laneIndex clamped) zq y d a b t s = vForm zq y b false [.v a] none s (gatherEffect clamped d a t) := by
  obtain ⟨hbad, hty, hbytes⟩ := laneType_ok h
  rw [gather, hbad]
  congr 1
  funext vb s1 now
  rw [gatherEffect, laneAddrs_eq, ← hbytes]
  have hv : (⟨mkLanes fun i => laneOf (tyOf t) (s1.me.spadVal (((List.range 128).map (laneAddr (elemBytes t) (s1.me.vreg a) vb clamped)).getD i 0)
      (elemBytes t)), 0⟩ : VReg) = s1.gathered clamped t a vb := by
    refine congrArg (VReg.mk · 0) (mkLanes_congr fun i hi => ?_)
    rw [hty, State.ownNum_eq_leVal, List.getD_eq_getElem?_getD, List.getElem?_map, List.getElem?_range hi]
    rfl
  rw [← hv]

theorem gather_holds {i : Instr} {clamped zq : Bool} {y : BitVec 2} {d a b : BitVec 5} {t : BitVec 4}
    (hx : ∀ s, exec i s = gather (laneIndex clamped) zq y d a b t s) : (gatherClaim clamped zq y d a b t).Holds i := by
  refine Claim.holds_operand (zq := zq) (b := b) (wide := false) (srcs := [.v a]) _ (gatherEffect clamped d a t) rfl rfl (fun _ => rfl) (fun s hpre => ?_)
    (fun s hpre => ?_) (operandPart_not_phase _ _)
  · exact (hx s).trans (gather_eq hpre.1 ..)
  · obtain ⟨-, hoff, hfine, hroom⟩ := hpre
    have hfull : (s.took zq b).vFull = false := by
      rw [State.vFull, State.took_eng]
      exact decide_eq_false (by omega)
    let v := (s.offered zq b false).getD (s.me.vreg 0)
    have hvec : (s.took zq b).gathered clamped t a v = s.gathered clamped t a v := by
      simp only [State.gathered, State.ownNum_eq_leVal, State.took_store, State.took_vreg]
    let f := lateFlight (.v d) (.vec (s.gathered clamped t a v)) ((s.eng .v).clk + y.toNat + 14) none none none
    have heng := (s.took zq b).fly_eng .v f
    rw [State.took_eng] at heng
    have hsame (p : Aspect) (hp : p ≠ .engine .v) := (s.took zq b).fly_same .v f p hp
    refine ⟨_, (s.took zq b).onMe (·.fly .v f), State.offered_getD hoff, ?_, (Group.Undisturbed.refl _).toSameCourse, ⟨_, heng⟩,
      ⟨f, rfl, rfl, rfl, rfl, rfl, congrArg EngineState.flight heng⟩, fun p hpe _ hpp => s.took_same_except hsame p hpe hpp, fun s' via =>
        State.took_closed (fun p hp => hsame p fun e => operandPart_not_engine _ _ _ (e ▸ hp)) s' _ via⟩
    rw [gatherEffect, State.took_vreg, laneCheck_fine (State.took_lanesFine hfine zq b), hfull, hvec]
    rfl

/-! ## Writes to the scratchpad -/

/-- A group with other bytes in its scratchpad. -/
def Group.withSpad (g : Group) (m : Memory) : Group := { g with store := { g.store with spad := m } }

theorem State.withSpad_same (s : State) (m : Memory) (p : Aspect) (h : p ≠ .spad) : s.same (s.onMe (·.withSpad m)) p := by
  have h' := s.same_refl p
  cases p with
  | spad => exact absurd rfl h
  | regs => exact fun r => by cases r <;> rfl
  | _ => exact h'

/-- An item of V that takes operand b and leaves other bytes in the scratchpad, and no more. -/
theorem Claim.holds_spad (c : Claim) {i : Instr} {zq : Bool} {b : BitVec 5} {srcs : List Reg} (f : VReg → State → Nat → Effect) (hc : c.eng = .v)
    (hsrcs : c.srcs = srcs ++ vregSrcs zq b) (hflow : ∀ s, c.flow s = .straight) (hdoes : c.does = id) (hresult : c.result = .none)
    (hparts : c.parts = .spad :: operandPart zq b) (hx : ∀ s, c.pre (s.arrived .v c.y) → exec i s = vForm zq c.y b false srcs none s f)
    (hb : ∀ (a : State) (n : Nat), c.pre a → a.offered zq b false ≠ none ∧ ∃ m,
      f ((a.offered zq b false).getD (a.me.vreg 0)) (a.took zq b) n = .done ((a.took zq b).onMe (·.withSpad m)) ∧
      ∀ t : State, (∀ x, t.ownByte x = memGet m x) → a.Took t zq b → c.post a t) : c.Holds i := by
  refine Claim.holds_operand (zq := zq) (b := b) (wide := false) (srcs := srcs) c f hc hsrcs hflow hx (fun a hpre => ?_) ?_
  · obtain ⟨hoff, m, hf, hpost⟩ := hb a ((a.eng .v).clk + c.y.toNat) hpre
    have heng : ((a.took zq b).onMe (·.withSpad m)).eng .v = a.eng .v := a.took_eng zq b .v
    have hsame (p : Aspect) (hp : p ≠ .spad) := (a.took zq b).withSpad_same m p hp
    have hspad : Aspect.spad ∉ operandPart zq b := by
      unfold operandPart
      split
      · simp
      · split <;> simp
    rw [hdoes, hresult, hparts]
    refine ⟨_, _, State.offered_getD hoff, hf, (Group.Undisturbed.refl _).toSameCourse, ⟨_, heng⟩, congrArg EngineState.flight heng, fun p _ _ hpp => ?_,
      fun s via => hpost _ (fun x => ?_) ?_⟩
    · simp only [List.mem_cons, not_or] at hpp
      exact State.same_trans _ _ _ _ (a.took_same zq b p hpp.2) (hsame p hpp.1)
    · exact State.closed_same s _ _ .v c.y via .spad (State.same_refl _ _) (by simp) (by simp) x
    · exact State.took_closed (fun p hp => hsame p fun e => hspad (e ▸ hp)) s c.y via
  · rw [hparts]
    simp [operandPart_not_phase]

/-! ## VSCAT (R112) -/

/-- The bytes after the elements of the lanes in `l` are stored in order. -/
def scattered (n : Nat) (v : VReg) (addr : Nat → Nat) (m : Memory) (l : List Nat) : Memory :=
  l.foldl (fun x i => memPut x (addr i) (leBytes n (v.lane i).toNat)) m

theorem scatter_eq (g : Group) (n : Nat) (v : VReg) (addr : Nat → Nat) :
    g.scatter n v ((List.range 128).map addr) = g.withSpad (scattered n v addr g.store.spad (List.range 128)) := by
  have hfold (l : List Nat) (h : Group) : (l.map fun i => (i, addr i)).foldl (fun x p => x.spadPut p.2 (leBytes n (v.lane p.1).toNat)) h =
      h.withSpad (scattered n v addr h.store.spad l) := by
    induction l generalizing h with
    | nil => rfl
    | cons i l ih => exact ih (h.spadPut (addr i) (leBytes n (v.lane i).toNat))
  rw [Group.scatter, ← List.map_prod_left_eq_zip, hfold]

/-- A byte comes from the last lane whose element covers it. -/
theorem memGet_scattered (n : Nat) (v : VReg) (addr : Nat → Nat) (m : Memory) (N x : Nat) :
    (∀ i, i < N → addr i ≤ x → x < addr i + n → (∀ j, i < j → j < N → ¬ (addr j ≤ x ∧ x < addr j + n)) →
      memGet (scattered n v addr m (List.range N)) x = byteOf ((v.lane i).setWidth 64) (x - addr i)) ∧
    ((∀ i, i < N → ¬ (addr i ≤ x ∧ x < addr i + n)) → memGet (scattered n v addr m (List.range N)) x = memGet m x) := by
  induction N with
  | zero => exact ⟨fun _ h => absurd h (Nat.not_lt_zero _), fun _ => rfl⟩
  | succ N ih =>
    obtain ⟨hcovered, hother⟩ := ih
    have hstep : memGet (scattered n v addr m (List.range (N + 1))) x =
        if addr N ≤ x ∧ x < addr N + n then byteOf ((v.lane N).setWidth 64) (x - addr N) else memGet (scattered n v addr m (List.range N)) x := by
      have hnat : (v.lane N).toNat = ((v.lane N).setWidth 64).toNat := by rw [BitVec.toNat_setWidth]; omega
      rw [scattered, List.range_succ, List.foldl_append, ← memGet_put_leBytes, ← hnat]
      rfl
    rw [hstep]
    refine ⟨fun i hi hlow hhigh hlast => ?_, fun hnone => ?_⟩
    · rcases Nat.lt_succ_iff_lt_or_eq.1 hi with hi | rfl
      · rw [if_neg (hlast N hi (Nat.lt_succ_self N))]
        exact hcovered i hi hlow hhigh fun j hij hj => hlast j hij (Nat.lt_succ_of_lt hj)
      · rw [if_pos ⟨hlow, hhigh⟩]
    · rw [if_neg (hnone N (Nat.lt_succ_self N))]
      exact hother fun i hi => hnone i (Nat.lt_succ_of_lt hi)

/-- What VSCAT does once operand b is taken. -/
def scatterEffect (d a : BitVec 5) (t : BitVec 4) (vb : VReg) (s : State) (_ : Nat) : Effect :=
  ofChk (s.me.laneCheck (elemBytes t) ((List.range 128).map (laneAddr (elemBytes t) (s.me.vreg a) vb false))) fun _ =>
    .done (s.onMe fun g => g.scatter (elemBytes t) (g.vreg d) ((List.range 128).map (laneAddr (elemBytes t) (s.me.vreg a) vb false)))

theorem vScat_eq {t : BitVec 4} (h : laneType t = true) (zq : Bool) (y : BitVec 2) (d a b : BitVec 5) (s : State) :
    vScat zq y d a b t s = vForm zq y b false [.v a, .v d] none s (scatterEffect d a t) := by
  obtain ⟨hbad, -, hbytes⟩ := laneType_ok h
  rw [vScat, hbad]
  congr 1
  funext vb s1 now
  rw [scatterEffect, ← hbytes, show (fun x : BitVec 32 => x.toNat) = laneIndex false from rfl, laneAddrs_eq]

theorem scatter_holds {i : Instr} {zq : Bool} {y : BitVec 2} {d a b : BitVec 5} {t : BitVec 4} (hx : ∀ s, exec i s = vScat zq y d a b t s) :
    (scatterClaim zq y d a b t).Holds i := by
  refine Claim.holds_spad (zq := zq) (b := b) (srcs := [.v a, .v d]) _ (scatterEffect d a t) rfl rfl (fun _ => rfl) rfl rfl rfl
    (fun s hpre => (hx s).trans (vScat_eq hpre.1 ..)) (fun s n hpre => ?_)
  obtain ⟨-, hoff, hfine⟩ := hpre
  refine ⟨hoff, scattered (elemBytes t) (s.me.vreg d) (laneAddr (elemBytes t) (s.me.vreg a) ((s.offered zq b false).getD (s.me.vreg 0)) false)
    s.me.store.spad (List.range 128), ?_, fun t' hbytes htook => ⟨htook, fun x i hi hlow hhigh hlast => ?_, fun x hnone => ?_⟩⟩
  · rw [scatterEffect, State.took_vreg, laneCheck_fine (State.took_lanesFine hfine zq b)]
    simp only [ofChk, State.onMe, scatter_eq, State.took_vreg, State.took_store]
  · rw [hbytes]
    exact (memGet_scattered ..).1 i hi hlow hhigh hlast
  · rw [hbytes]
    exact (memGet_scattered ..).2 hnone

/-! ## VAADD (R43, R113) -/

theorem memVal_congr {m m' : Memory} {a n : Nat} (h : ∀ x, a ≤ x → x < a + n → memGet m x = memGet m' x) : memVal m a n = memVal m' a n := by
  refine congrArg leVal (List.map_congr_left fun i hi => h _ (Nat.le_add_right _ _) ?_)
  have := List.mem_range.1 hi
  omega

theorem memGet_putVal_outside (m : Memory) {a x : Nat} (n v : Nat) (h : ¬ (a ≤ x ∧ x < a + n)) : memGet (memPutVal m a n v) x = memGet m x := by
  rw [memGet_putVal, if_neg h]

/-- The bytes after each word of `l` has been replaced, in order, by `W` of its address and its value. -/
def replaced (W : Nat → Nat → Nat) (m : Memory) (l : List Nat) : Memory := l.foldl (fun x a => memPutVal x a 4 (W a (memVal x a 4))) m

/-- Words that are replaced once each do not disturb one another. -/
theorem memVal_replaced (W : Nat → Nat → Nat) (k : Nat) : ∀ (l : List Nat) (m : Memory), l.length = k → (∀ a ∈ l, a % 4 = 0) →
    (∀ a ∈ l, memVal (replaced W m l.eraseDups) a 4 = W a (memVal m a 4) % 2 ^ 32) ∧
    (∀ x, (∀ a ∈ l, ¬ (a ≤ x ∧ x < a + 4)) → memGet (replaced W m l.eraseDups) x = memGet m x) := by
  induction k using Nat.strong_induction_on with
  | _ k ih =>
    intro l m hk halign
    cases l with
    | nil => exact ⟨fun _ h => (nomatch h), fun _ _ => rfl⟩
    | cons a l =>
      let rest := l.filter fun b => !b == a
      let m' := memPutVal m a 4 (W a (memVal m a 4))
      have hrest (b : Nat) : b ∈ rest ↔ b ∈ l ∧ b ≠ a := by simp [rest]
      have hlen : rest.length < k := Nat.lt_of_le_of_lt (List.length_filter_le _ l) (hk ▸ Nat.lt_succ_self _)
      obtain ⟨hin, hout⟩ := ih rest.length hlen rest m' rfl fun b hb => halign b (List.mem_cons_of_mem _ ((hrest b).1 hb).1)
      have hstep : replaced W m (a :: l).eraseDups = replaced W m' rest.eraseDups := by rw [List.eraseDups_cons]; rfl
      have ha := halign a List.mem_cons_self
      rw [hstep]
      refine ⟨fun b hb => ?_, fun x hx => ?_⟩
      · by_cases hba : b = a
        · subst hba
          rw [memVal_congr fun x hlow hhigh => hout x fun c hc hcover => ?_]
          · exact memVal_putVal m b 4 _
          · have hne := ((hrest c).1 hc).2
            have hc4 := halign c (List.mem_cons_of_mem _ ((hrest c).1 hc).1)
            omega
        · have hbl : b ∈ rest := (hrest b).2 ⟨(List.mem_cons.1 hb).resolve_left hba, hba⟩
          have hb4 := halign b hb
          rw [hin b hbl, memVal_congr fun x hlow hhigh => memGet_putVal_outside m 4 _ (by omega)]
      · rw [hout x fun c hc => hx c (List.mem_cons_of_mem _ ((hrest c).1 hc).1)]
        exact memGet_putVal_outside m 4 _ (hx a List.mem_cons_self)

/-- R113: what the lanes that name a word contribute to it. -/
def contributions (v : VReg) (addr : Nat → Nat) (a : Nat) : List Nat :=
  ((List.range 128).filter fun j => addr j == a).map fun j => (v.lane j).toNat

theorem vaadd_eq (ty : Ty) (sat : Bool) (v : VReg) (g : Group) (addr : Nat → Nat) :
    g.vaadd ty sat v ((List.range 128).map addr) = g.withSpad
      (replaced (fun a old => vaaddWord ty sat g.nivose old (contributions v addr a)) g.store.spad ((List.range 128).map addr).eraseDups) := by
  have hlist (a : Nat) : ((((List.range 128).zip ((List.range 128).map addr)).filter fun p => p.2 == a).map fun p => (v.lane p.1).toNat) =
      contributions v addr a := by
    rw [contributions, ← List.map_prod_left_eq_zip, List.filter_map, List.map_map]
    rfl
  have hfold (l : List Nat) (h : Group) : l.foldl (fun x a => x.spadPut a (leBytes 4 (vaaddWord ty sat g.nivose (x.spadVal a 4) (contributions v addr a)))) h =
      h.withSpad (replaced (fun a old => vaaddWord ty sat g.nivose old (contributions v addr a)) h.store.spad l) := by
    induction l generalizing h with
    | nil => rfl
    | cons a l ih => exact ih (h.spadPut a _)
  simp only [Group.vaadd, hlist, hfold]

/-- R18: an encoding of .f32. -/
theorem fpSigned_lt {neg : Bool} {bits : Nat} (h : bits < 2 ^ 31) : fpSigned fmtF32 neg bits < 2 ^ 32 := by
  have hsign : fmtF32.signBit = 2 ^ 31 := by decide
  unfold fpSigned
  split
  · omega
  · omega

theorem fpRound_lt (x : Fp) : fpRound fmtF32 .rne x < 2 ^ 32 := by
  have hinf : fmtF32.infBits < 2 ^ 31 := by decide
  cases x with
  | nan => decide
  | inf neg => exact fpSigned_lt hinf
  | fin neg m e =>
    rw [fpRound]
    split
    · exact fpSigned_lt (by decide)
    · unfold fpRoundRat
      extract_lets k below l q n bits
      by_cases h : bits < fmtF32.infBits
      · rw [if_pos h]
        exact fpSigned_lt (h.trans hinf)
      · rw [if_neg h]
        exact fpSigned_lt hinf

/-- R113: the types and modifiers of VAADD to words. -/
def isWordAdd (t : BitVec 4) (f : BitVec 1) : Prop := t.toNat = 2 ∨ t.toNat = 6 ∨ t.toNat = 10 ∧ f = 0

theorem foldl_intVal (sg : Bool) (w : Nat) (l : List Nat) (z : Int) : l.foldl (fun acc x => acc + intVal sg w x) z = z + (l.map (intVal sg w)).sum := by
  induction l generalizing z with
  | nil => simp
  | cons a l ih => rw [List.foldl_cons, ih, List.map_cons, List.sum_cons, add_assoc]

theorem wrapInt_lt (w : Nat) (z : Int) : wrapInt w z < 2 ^ w := by
  have hpos : (0 : Int) < 2 ^ w := by positivity
  have hmod := Int.emod_lt_of_pos z hpos
  rw [wrapInt]
  zify
  rwa [Int.toNat_of_nonneg (Int.emod_nonneg z hpos.ne')]

theorem vaaddWord_eq {t : BitVec 4} {f : BitVec 1} (h : isWordAdd t f) (nivose : Bool) (old : Nat) (l : List Nat) :
    vaaddWord (tyOf t) (f == 1) nivose old l = aaddWord t f nivose old l ∧ aaddWord t f nivose old l < 2 ^ 32 := by
  have hint (sg : Bool) (hty : tyOfCode t.toNat = some (.int sg 32)) :
      vaaddWord (tyOf t) (f == 1) nivose old l = aaddWord t f nivose old l ∧ aaddWord t f nivose old l < 2 ^ 32 := by
    rw [tyOf, aaddWord, hty]
    refine ⟨?_, ?_⟩
    · simp only [Option.getD_some, vaaddWord, foldl_intVal, Bool.and_eq_true, beq_iff_eq]
      rfl
    · dsimp only
      split <;> exact wrapInt_lt ..
  rcases h with h | h | ⟨h, rfl⟩
  · exact hint true (by rw [h]; rfl)
  · exact hint false (by rw [h]; rfl)
  · have hty : tyOfCode t.toNat = some (.flt fmtF32) := by rw [h]; rfl
    rw [tyOf, aaddWord, hty]
    exact ⟨rfl, fpRound_lt _⟩

/-- What VAADD to words does once operand b is taken. -/
def aaddEffect (d a : BitVec 5) (t : BitVec 4) (f : BitVec 1) (vb : VReg) (s : State) (_ : Nat) : Effect :=
  ofChk (s.me.laneCheck 4 ((List.range 128).map (laneAddr 4 (s.me.vreg a) vb false))) fun _ =>
    .done (s.onMe fun g => g.vaadd (tyOf t) (f == 1) (s.me.vreg d) ((List.range 128).map (laneAddr 4 (s.me.vreg a) vb false)))

theorem badVaadd_none {t : BitVec 4} (h : t.toNat = 2 ∨ t.toNat = 6 ∨ t.toNat = 10) : badVaadd t = none := if_pos h

theorem vAadd_words {t : BitVec 4} {f : BitVec 1} (h : isWordAdd t f) (zq : Bool) (y : BitVec 2) (d a b : BitVec 5) (s : State) :
    vAadd zq y d a b t f s = vForm zq y b false [.v a, .v d] none s (aaddEffect d a t f) := by
  have hnotxf : (tyOf t == .flt fmtF32 && f == 1) = false := by
    revert h
    unfold isWordAdd
    revert t f
    decide
  rw [vAadd, badVaadd_none (h.imp_right (Or.imp_right And.left))]
  congr 1
  funext vb s1 now
  simp only [hnotxf, Bool.false_eq_true, if_false]
  rw [aaddEffect, show (fun x : BitVec 32 => x.toNat) = laneIndex false from rfl, laneAddrs_eq]

theorem aadd_holds {i : Instr} {zq : Bool} {y : BitVec 2} {d a b : BitVec 5} {t : BitVec 4} {f : BitVec 1}
    (hx : ∀ s, exec i s = vAadd zq y d a b t f s) : (aaddClaim zq y d a b t f).Holds i := by
  refine Claim.holds_spad (zq := zq) (b := b) (srcs := [.v a, .v d]) _ (aaddEffect d a t f) rfl rfl (fun _ => rfl) rfl rfl rfl
    (fun s hpre => (hx s).trans (vAadd_words hpre.1 ..)) (fun s n hpre => ?_)
  obtain ⟨hty, hoff, hfine⟩ := hpre
  let addr := laneAddr 4 (s.me.vreg a) ((s.offered zq b false).getD (s.me.vreg 0)) false
  let W := fun x old => vaaddWord (tyOf t) (f == 1) s.me.nivose old (contributions (s.me.vreg d) addr x)
  have hnivose : (s.took zq b).me.nivose = s.me.nivose := by
    unfold State.took
    split
    · rfl
    · split <;> rfl
  obtain ⟨hin, hout⟩ := memVal_replaced W 128 ((List.range 128).map addr) s.me.store.spad (by simp) fun x hx => by
    obtain ⟨i, hi, rfl⟩ := List.mem_map.1 hx
    exact (hfine i (List.mem_range.1 hi)).1
  refine ⟨hoff, replaced W s.me.store.spad ((List.range 128).map addr).eraseDups, ?_, fun t' hbytes htook => ⟨htook, fun i hi => ?_, fun x hnone => ?_⟩⟩
  · rw [aaddEffect, State.took_vreg, State.took_vreg, laneCheck_fine (State.took_lanesFine hfine zq b)]
    simp only [ofChk, State.onMe, vaadd_eq, State.took_store, hnivose]
    rfl
  · obtain ⟨hword, hlt⟩ := vaaddWord_eq hty s.me.nivose (memVal s.me.store.spad (addr i) 4) (contributions (s.me.vreg d) addr (addr i))
    have hval := hin (addr i) (List.mem_map_of_mem (List.mem_range.2 hi))
    rw [show W (addr i) _ = _ from hword, Nat.mod_eq_of_lt hlt, ← memVal_congr fun x _ _ => hbytes x] at hval
    rw [State.ownNum_eq_leVal, State.ownNum_eq_leVal]
    exact hval
  · rw [hbytes]
    exact hout x fun c hc => by
      obtain ⟨i, hi, rfl⟩ := List.mem_map.1 hc
      exact hnone i (List.mem_range.1 hi)

/-! ## VAADD.xf (R35, R113) -/

/-- R113: every lane has contributed to the slot that it names. -/
def Store.xfAdded (m : Store) (slot : Nat → Nat) (v : VReg) : Store :=
  (List.range 128).foldl (fun m i => m.xfContribute (slot i) (fpDecode fmtF32 (v.lane i).toNat)) m

/-- The same of a state's own store. -/
def State.xfAdded (s : State) (slot : Nat → Nat) (v : VReg) : State := s.onMe fun g => { g with store := g.store.xfAdded slot v }

theorem State.xfAdded_eq (s : State) (slot : Nat → Nat) (v : VReg) :
    s.xfAdded slot v = s.onMe fun g => { g with store := s.me.store.xfAdded slot v } := by
  unfold State.xfAdded State.onMe
  rfl

theorem State.withStore_course (s : State) (m : Store) : s.me.SameCourse (s.onMe fun g => { g with store := m }).me :=
  ⟨fun _ => rfl, ⟨rfl, rfl, rfl, rfl⟩, rfl⟩

theorem State.xfAdded_course (s : State) (slot : Nat → Nat) (v : VReg) : s.me.SameCourse (s.xfAdded slot v).me := by
  rw [State.xfAdded_eq]
  exact s.withStore_course _

theorem State.took_withStore (s : State) (m : Store) (zq : Bool) (b : BitVec 5) :
    (s.took zq b).onMe (fun g => { g with store := m }) = (s.onMe fun g => { g with store := m }).took zq b := by
  unfold State.took
  split
  · rfl
  · split <;> rfl

theorem vaaddXf_eq (m : Store) (v : VReg) (slot : Nat → Nat) : m.vaaddXf v ((List.range 128).map slot) = m.xfAdded slot v := by
  rw [Store.vaaddXf, Store.xfAdded, ← List.map_prod_left_eq_zip, List.foldl_map]

/-- R113, R219: every lane's slot is a slot of the store, and none is pending. -/
def State.slotsFine (s : State) (slot : Nat → Nat) : Prop :=
  ∀ i, i < 128 → slot i % 8 = 0 ∧ slot i + 8 ≤ accWords ∧ s.me.isPending true s.me.ident.core (slot i) 8 = false

theorem slotCheck_fine {s : State} {slot : Nat → Nat} (h : s.slotsFine slot) : s.me.slotCheck ((List.range 128).map slot) = .ok () := by
  have hfirst : ((List.range 128).map slot).find? (fun w => w % 8 != 0 || decide (accWords < w + 8)) = none := by
    refine List.find?_eq_none.2 fun a ha => ?_
    obtain ⟨i, hi, rfl⟩ := List.mem_map.1 ha
    obtain ⟨halign, hbound, -⟩ := h i (List.mem_range.1 hi)
    simpa [halign] using hbound
  have hsecond : ((List.range 128).map slot).find? (fun w => s.me.isPending true s.me.ident.core w 8) = none := by
    refine List.find?_eq_none.2 fun a ha => ?_
    obtain ⟨i, hi, rfl⟩ := List.mem_map.1 ha
    obtain ⟨-, -, hpend⟩ := h i (List.mem_range.1 hi)
    simp [hpend]
  simp only [Group.slotCheck, hfirst, hsecond]

/-- What VAADD.xf does once operand b is taken. -/
def aaddXfEffect (d a : BitVec 5) (vb : VReg) (s : State) (_ : Nat) : Effect :=
  ofChk (s.me.slotCheck ((List.range 128).map (laneAddr 8 (s.me.vreg a) vb false))) fun _ =>
    .done (s.xfAdded (laneAddr 8 (s.me.vreg a) vb false) (s.me.vreg d))

theorem vAadd_slots {t : BitVec 4} (ht : t.toNat = 10) (zq : Bool) (y : BitVec 2) (d a b : BitVec 5) (s : State) :
    vAadd zq y d a b t 1 s = vForm zq y b false [.v a, .v d] none s (aaddXfEffect d a) := by
  have hxf : (tyOf t == .flt fmtF32 && (1 : BitVec 1) == 1) = true := by
    revert t
    decide
  rw [vAadd, badVaadd_none (.inr (.inr ht))]
  congr 1
  funext vb s1 now
  simp only [hxf, if_true]
  rw [aaddXfEffect, show (fun x : BitVec 32 => x.toNat) = laneIndex false from rfl, laneAddrs_eq]
  simp only [vaaddXf_eq, State.xfAdded]

theorem State.took_xfAdded (s : State) (slot : Nat → Nat) (v : VReg) (zq : Bool) (b : BitVec 5) :
    (s.took zq b).xfAdded slot v = (s.xfAdded slot v).took zq b := by
  rw [State.xfAdded_eq, State.took_store, State.took_withStore, ← State.xfAdded_eq]

/-- An item of V that takes operand b besides its claim's operation, and puts nothing in flight. -/
theorem Claim.holds_taken (c : Claim) {i : Instr} {zq : Bool} {b : BitVec 5} {srcs : List Reg} (f : VReg → State → Nat → Effect) (hc : c.eng = .v)
    (hsrcs : c.srcs = srcs ++ vregSrcs zq b) (hflow : ∀ s, c.flow s = .straight) (hresult : c.result = .none) (hparts : c.parts = operandPart zq b)
    (hpost : ∀ s t, s.Took t zq b → c.post s t) (hx : ∀ s, c.pre (s.arrived .v c.y) → exec i s = vForm zq c.y b false srcs none s f)
    (hb : ∀ (a : State) (n : Nat), c.pre a → a.offered zq b false ≠ none ∧ a.me.SameCourse (c.does a).me ∧
      f ((a.offered zq b false).getD (a.me.vreg 0)) (a.took zq b) n = .done ((c.does a).took zq b)) : c.Holds i := by
  refine Claim.holds_operand (zq := zq) (b := b) (wide := false) (srcs := srcs) c f hc hsrcs hflow hx (fun a hpre => ?_) ?_
  · obtain ⟨hoff, hcourse, hf⟩ := hb a ((a.eng .v).clk + c.y.toNat) hpre
    have heng := (c.does a).took_eng zq b .v
    rw [hresult, hparts]
    refine ⟨_, _, State.offered_getD hoff, hf, hcourse, ⟨_, heng⟩, congrArg EngineState.flight heng, fun p _ _ hpp => ?_, fun s via => hpost _ _ ?_⟩
    · exact State.took_same _ zq b p hpp
    · exact State.took_closed (fun p _ => State.same_refl _ p) s c.y via
  · rw [hparts]
    exact operandPart_not_phase zq b

/-- What VAADD.xf leaves, operand b apart. -/
def State.contributed (s : State) (zq : Bool) (d a b : BitVec 5) : State :=
  s.xfAdded (laneAddr 8 (s.me.vreg a) ((s.offered zq b false).getD (s.me.vreg 0)) false) (s.me.vreg d)

theorem aaddXf_holds {i : Instr} {zq : Bool} {y : BitVec 2} {d a b : BitVec 5} {t : BitVec 4} (ht : t.toNat = 10)
    (hx : ∀ s, exec i s = vAadd zq y d a b t 1 s) : (aaddXfClaim zq y d a b).Holds i := by
  have hdoes : (aaddXfClaim zq y d a b).does = fun s => s.contributed zq d a b := rfl
  refine Claim.holds_taken (zq := zq) (b := b) (srcs := [.v a, .v d]) _ (aaddXfEffect d a) rfl rfl (fun _ => rfl) rfl rfl (fun _ _ h => h)
    (fun s _ => (hx s).trans (vAadd_slots ht ..)) (fun s n hpre => ?_)
  obtain ⟨hoff, hfine⟩ := hpre
  have hfine' : (s.took zq b).slotsFine (laneAddr 8 (s.me.vreg a) ((s.offered zq b false).getD (s.me.vreg 0)) false) := fun i hi => by
    rw [State.took_isPending]
    exact hfine i hi
  rw [hdoes]
  refine ⟨hoff, s.xfAdded_course .., ?_⟩
  rw [aaddXfEffect, State.took_vreg, State.took_vreg, slotCheck_fine hfine', ofChk, State.took_xfAdded]
  rfl

theorem gatherForm_exec {i : Instr} {l zq : Bool} {y : BitVec 2} {d a b : BitVec 5} {t : BitVec 4}
    (h : gatherForm i = some (l, zq, y, d, a, b, t)) : exec i = gather (laneIndex l) zq y d a b t := by
  revert h
  cases i with
  | vgath | vgathZq | vlut | vlutZq => intro h; cases h; rfl
  | _ => exact noRow

theorem scatterForm_exec {i : Instr} {zq : Bool} {y : BitVec 2} {d a b : BitVec 5} {t : BitVec 4}
    (h : scatterForm i = some (zq, y, d, a, b, t)) : exec i = vScat zq y d a b t := by
  revert h
  cases i with
  | vscat | vscatZq => intro h; cases h; rfl
  | _ => exact noRow

theorem aaddForm_exec {i : Instr} {zq : Bool} {y : BitVec 2} {d a b : BitVec 5} {t : BitVec 4} {f : BitVec 1}
    (h : aaddForm i = some (zq, y, d, a, b, t, f)) : exec i = vAadd zq y d a b t f := by
  revert h
  cases i with
  | vaadd | vaaddZq => intro h; cases h; rfl
  | _ => exact noRow

/-- Settles O43: the addresses of the lanes, and what each access leaves at them. -/
theorem laneAccesses : Obligations.LaneAccesses := by
  unfold Obligations.LaneAccesses
  refine ⟨fun i l zq y d a b t hi => gather_holds (congrFun (gatherForm_exec hi)), fun i zq y d a b t hi => scatter_holds (congrFun (scatterForm_exec hi)),
    fun i zq y d a b t f hi => ⟨aadd_holds (congrFun (aaddForm_exec hi)), fun ht hf => ?_⟩⟩
  subst hf
  exact aaddXf_holds ht (congrFun (aaddForm_exec hi))

end Sys2Proof.Machine
end

section
-- One declaration after another: the whole text is checked in one process, of bounded memory.
set_option Elab.async false
/-! SUPPORT. Engine L (06_vector R119 to R123): its instructions, their traps, and the filling of an input stream. -/

namespace Sys2Proof.Machine

/-- A stream that an item has set stays through its completion. -/
theorem State.closed_setStream (s a : State) (e : Engine) (y : BitVec 2) (via : Bool) (z : BitVec 4) (x : Stream) :
    (s.closed (a.onMe (·.setStream z x)) e y via).me.stream z = x :=
  (State.closed_same s _ _ e y via (.stream z) (State.same_refl (a.onMe (·.setStream z x)) _) (by simp) (by simp)).trans
    (Group.stream_setStream ..)

/-- An item of L that sets one stream. -/
theorem streamItem_holds {i : Instr} {y : BitVec 2} {z : BitVec 4} {pre : State → Prop} {post : State → State → Prop} (f : State → Effect)
    (hx : ∀ s, exec i s = plainItem .l y s f)
    (hb : ∀ a, pre a → ∃ x, f a = .done (a.onMe (·.setStream z x)) ∧ ∀ t : State, t.me.stream z = x → post a t) :
    Claim.Holds { eng := .l, y := y, parts := [.stream z], pre := pre, post := post } i := by
  refine plainItem_holds (fun s _ => f s) hx fun a t hpre => ?_
  obtain ⟨x, hf, hpost⟩ := hb a hpre
  exact ⟨_, hf, fun p hp => a.setStream_same z x p (by simpa using hp), fun s via => hpost _ (s.closed_setStream a .l y via z x)⟩

/-! ## The instructions (R120, R122, R123) -/

theorem zbindCheck_ok {g : Group} {a fmt : Nat} {old : Stream} {r : List Byte} (hr : g.record a 64 64 = .ok r) (hfits : recordFits r fmt)
    (hold : old.st ≠ .running) : g.zbindCheck a fmt old = .ok (boundStream (patternOf r) fmt) := by
  obtain ⟨hty, hbounds, hreserved, haligned, hlegal⟩ := hfits
  have hst : (old.st != .running) = true := bne_iff_ne.2 hold
  have hpat : patReserved r (boundStream (patternOf r) fmt).pat = true := hreserved
  simp only [Group.zbindCheck, need, bind, Except.bind, hty, hr, hbounds, hpat, haligned, hlegal, hst, if_true]
  rfl

theorem zbind_holds (y : BitVec 2) (t : BitVec 4) (b : BitVec 5) (f : BitVec 4) (c : Claim) (h : loadEngineRow (.zbind y t b f) = some c) :
    c.Holds (.zbind y t b f) := by
  cases h
  refine streamItem_holds _ (fun s => show execZbind y t b f s = _ from rfl) fun a ⟨⟨r, hr, hfits⟩, hst⟩ =>
    ⟨boundStream (patternOf r) f.toNat, ofChk_of_ok (zbindCheck_ok hr hfits hst) _, fun u hu => ⟨r, hr, hu⟩⟩

theorem zstart_holds (y : BitVec 2) (d : BitVec 4) (c : Claim) (h : loadEngineRow (.zstart y d) = some c) : c.Holds (.zstart y d) := by
  cases h
  exact streamItem_holds _ (fun s => show execZstart y d s = _ from rfl) fun a ⟨hst, hdrained⟩ =>
    ⟨_, if_pos ⟨hst, by simp [hdrained]⟩, fun u hu => hu⟩

theorem zstop_holds (y : BitVec 2) (d : BitVec 4) (c : Claim) (h : loadEngineRow (.zstop y d) = some c) : c.Holds (.zstop y d) := by
  cases h
  exact streamItem_holds _ (fun s => show execZstop y d s = _ from rfl) fun a _ => ⟨_, rfl, fun u hu => hu⟩

theorem zskip_holds (y : BitVec 2) (d : BitVec 4) (k : BitVec 10) (c : Claim) (h : loadEngineRow (.zskip y d k) = some c) : c.Holds (.zskip y d k) := by
  cases h
  refine streamItem_holds _ (fun s => show execZskip y d k s = _ from rfl) fun a ⟨hk, hst, hdrained⟩ =>
    ⟨(a.me.stream d).skipped k.toNat, ?_, fun u hu => ?_⟩
  · rw [if_neg hk, if_neg hst, if_neg (by simp [hdrained])]
  · simp only [hu]
    by_cases hlast : (a.me.stream d).pat.direct = false ∧ (a.me.stream d).vectors ≤ (a.me.stream d).taken + k.toNat
    · rw [if_pos hlast, Stream.skipped, if_pos (by simpa [Stream.isLast] using hlast)]
      exact ⟨rfl, rfl⟩
    · rw [if_neg hlast, Stream.skipped, if_neg (by simpa [Stream.isLast] using hlast)]
      exact ⟨rfl, rfl, rfl⟩

theorem State.vectorAt.addr {s : State} {b : BitVec 5} {i : BitVec 9} {a : Nat} (h : s.vectorAt b i a) : s.me.vecAddr b i = a := by
  obtain ⟨ha, -⟩ := h
  rw [ha, Group.vecAddr, BitVec.toNat_add, BitVec.toNat_ofNat, Nat.add_mod_mod]

theorem State.vectorAt.checked {s : State} {b : BitVec 5} {i : BitVec 9} {a : Nat} (h : s.vectorAt b i a) : s.me.vecAt a = .ok () := by
  obtain ⟨-, halign, hbound, hpend⟩ := h
  simp only [Group.vecAt, need, halign, hbound, hpend, decide_true, beq_self_eq_true, Bool.not_false, if_true]
  rfl

/-- The lanes of 512 bytes of the scratchpad. -/
theorem rawVec_lane (s : State) (a k : Nat) (hk : k < 128) : ((s.me.rawVec a).lane k).toNat = s.ownNum (a + 4 * k) 4 := by
  have hlane : (s.me.rawVec a).lane k = BitVec.ofNat 32 (s.me.spadVal (a + 4 * k) 4) := by
    simp [Group.rawVec, VReg.lane, mkLanes, Vector.getD, hk]
  have hval : s.me.spadVal (a + 4 * k) 4 < 2 ^ 32 := memVal_lt ..
  rw [hlane, BitVec.toNat_ofNat, Nat.mod_eq_of_lt hval, State.ownNum_eq_leVal]
  rfl

theorem ldv_holds (y : BitVec 2) (t : BitVec 4) (b : BitVec 5) (i : BitVec 9) (c : Claim) (h : loadEngineRow (.ldv y t b i) = some c) :
    c.Holds (.ldv y t b i) := by
  cases h
  refine streamItem_holds _ (fun s => show execLdv y t b i s = _ from rfl) fun s ⟨hst, hdirect, hdrained, hroom, htaken, a, ha⟩ =>
    ⟨(s.me.stream t).appended (s.me.rawVec a), ?_, fun u hu => ⟨a, s.me.rawVec a, ha, rawVec_lane s a, rfl, ?_⟩⟩
  · simp only [ha.addr]
    rw [if_neg hst, if_neg (by simp [hdirect, hdrained]), ofChk_of_ok ha.checked, if_neg (by omega)]
  · rw [hu, Stream.appended, if_neg (by omega)]

theorem loadEngineRow_holds (i : Instr) (c : Claim) : loadEngineRow i = some c → c.Holds i := by
  cases i with
  | zbind => exact zbind_holds _ _ _ _ c
  | zstart => exact zstart_holds _ _ c
  | zstop => exact zstop_holds _ _ c
  | zskip => exact zskip_holds _ _ _ c
  | ldv => exact ldv_holds _ _ _ _ c
  | nopL y =>
    intro h; cases h
    exact plainItem_holds _ (fun s => show execNopL y s = _ from rfl) fun a _ _ => ⟨a, rfl, fun p _ => a.same_refl p, fun _ _ => trivial⟩
  | _ => exact noRow

/-! ## The traps (R122, R123) -/

theorem plainItem_trap {i : Instr} {y : BitVec 2} {s : State} {c : Nat} (f : State → Effect) (hr : s.Ready .l y [])
    (hx : exec i s = plainItem .l y s f) (hf : f (s.arrived .l y) = .trap c 0 0) : exec i s = .next (s.trapAt .l c 0 0 false) :=
  hx.trans (issue_trap _ _ _ _ (fun s _ => f s) _ _ _ hr rfl hf)

theorem zstart_traps {s : State} {y : BitVec 2} {d : BitVec 4} (hr : s.Ready .l y []) {c : Nat}
    (h : (if ((s.arrived .l y).me.stream d).st = .bound ∧ ((s.arrived .l y).me.stream d).pat.drained = false then none else some causeQueueCfg) = some c) :
    exec (.zstart y d) s = .next (s.trapAt .l c 0 0 false) := by
  obtain ⟨hbad, hc⟩ := Option.ite_none_left_eq_some.1 h
  cases hc
  exact plainItem_trap _ hr (show exec _ s = execZstart y d s from rfl) (if_neg (by simpa using hbad))

theorem zskip_traps {s : State} {y : BitVec 2} {d : BitVec 4} {k : BitVec 10} (hr : s.Ready .l y []) {c : Nat}
    (h : (if k = 0 then some causeBounds
      else if ((s.arrived .l y).me.stream d).st ≠ .unbound ∧ ((s.arrived .l y).me.stream d).pat.drained = true then some causeQueueCfg else none) = some c) :
    exec (.zskip y d k) s = .next (s.trapAt .l c 0 0 false) := by
  refine plainItem_trap _ hr (show exec _ s = execZskip y d k s from rfl) ?_
  by_cases hk : k = 0
  · rw [if_pos hk] at h ⊢
    cases h
    rfl
  · rw [if_neg hk] at h ⊢
    obtain ⟨⟨hst, hdrained⟩, hc⟩ := Option.ite_none_right_eq_some.1 h
    cases hc
    rw [if_neg hst, if_pos hdrained]

theorem ldv_traps {s : State} {y : BitVec 2} {t : BitVec 4} {b : BitVec 5} {i : BitVec 9} (hr : s.Ready .l y []) {c : Nat}
    (h : (if ((s.arrived .l y).me.stream t).st ≠ .unbound ∧
      (((s.arrived .l y).me.stream t).pat.direct = false ∨ ((s.arrived .l y).me.stream t).pat.drained = true) then some causeQueueCfg else none) = some c) :
    exec (.ldv y t b i) s = .next (s.trapAt .l c 0 0 false) := by
  obtain ⟨⟨hst, hbad⟩, hc⟩ := Option.ite_none_right_eq_some.1 h
  cases hc
  refine plainItem_trap _ hr (show exec _ s = execLdv y t b i s from rfl) ?_
  exact (if_neg hst).trans (if_pos (by simpa using hbad))

theorem loadEngineTrap_traps (i : Instr) (y : BitVec 2) (f : State → Option Nat) : loadEngineTrap i = some (y, f) → ∀ s : State, s.Ready .l y [] →
    ∀ c, f (s.arrived .l y) = some c → exec i s = .next (s.trapAt .l c 0 0 false) := by
  cases i with
  | zstart => intro h; cases h; exact fun s hr c hc => zstart_traps hr hc
  | zskip => intro h; cases h; exact fun s hr c hc => zskip_traps hr hc
  | ldv => intro h; cases h; exact fun s hr c hc => ldv_traps hr hc
  | _ => exact noRow

/-! ## Filling (R122) -/

/-- A stream with its next vector read. -/
def Group.filled (g : Group) (x : Stream) : Stream := { x with buf := x.buf ++ [g.loadVec x x.pos], pos := x.pos + 1 }

theorem streamFill_next {s : State} {z : BitVec 4} (henabled : s.fillEnabled z = true) (hpend : s.me.vecPending (s.me.stream z) (s.me.stream z).pos = false) :
    exec (.streamFill z) s = .next (s.onMe (·.setStream z (s.me.filled (s.me.stream z)))) := by
  refine (show exec _ s = execStreamFill z s from rfl).trans ?_
  rw [execStreamFill, if_neg (by simp [henabled]), if_neg (by simp [hpend])]
  simp only [State.onMe, Group.filled]

theorem streamFill_holds (z : BitVec 4) : (fillClaim z).Holds (.streamFill z) := by
  intro s ⟨henabled, hpend⟩
  exact ⟨_, streamFill_next henabled hpend, s.me.stream_setStream z (s.me.filled (s.me.stream z)), fun p hp =>
    s.setStream_same _ _ p (by simpa [fillClaim] using hp)⟩

/-- Settles O44: L's instructions row by row, the streams that they refuse, and a fill. -/
theorem loadEngine : Obligations.LoadEngine := ⟨loadEngineRow_holds, loadEngineTrap_traps, streamFill_holds⟩

end Sys2Proof.Machine
end

section
-- One declaration after another: the whole text is checked in one process, of bounded memory.
set_option Elab.async false
/-! SUPPORT. The words of engine M that hand over an operation on streams (07_mesh R141, R144 to R149): claiming streams, and from it
sweeps, panels, slices and retirements. -/

namespace Sys2Proof.Machine

/-! ## Claiming streams (R100) -/

theorem State.claim_same (s : State) (zs : List (BitVec 4)) (p : Aspect) (h : p ∉ zParts zs) : s.same (s.onMe (·.claim zs)) p := by
  induction zs generalizing s with
  | nil => exact s.same_refl p
  | cons z r ih =>
    rw [zParts, List.map_cons, List.mem_cons, not_or] at h
    exact State.same_trans _ _ _ _ (s.setStream_same z { s.me.stream z with owner := some .m } p h.1) (ih _ h.2)

theorem Group.stream_claim (g : Group) (zs : List (BitVec 4)) (k : BitVec 4) :
    (g.claim zs).stream k = if k ∈ zs then { g.stream k with owner := some .m } else g.stream k := by
  induction zs generalizing g with
  | nil => rfl
  | cons z r ih =>
    have hstep := ih (g.setStream z { g.stream z with owner := some .m })
    refine hstep.trans ?_
    by_cases hk : k = z
    · subst hk
      rw [Group.stream_setStream, if_pos List.mem_cons_self, ite_self]
    · rw [Group.stream_setStream_ne _ _ _ _ hk]
      simp only [List.mem_cons, hk, false_or]

theorem Group.notV_ok {g : Group} {zs : List (BitVec 4)} (h : ∀ z ∈ zs, (g.stream z).forM) : g.notV zs = .ok () :=
  need_true (List.all_eq_true.2 fun z hz => by
    obtain ho | ho := h z hz <;> rw [ho] <;> rfl) _ _

theorem needProfile_ok {s : State} {p : BitVec 4} {own : Nat} (h : s.profileOk p own) : needProfile s.me p own = .ok () := by
  refine need_true ?_ _ _
  obtain h | ⟨rfl, hn⟩ := h
  · rw [h, BEq.rfl, Bool.true_or]
  · rw [hn]; simp

/-- The state in which M has claimed its streams and handed over an operation. -/
def State.claimedOver (s : State) (zs : List (BitVec 4)) (f : MeshState → MeshState) (ms : Nat) (k : MeshKind)
    (marks : Group → PendSrc → List PendMark) : State := ((s.onMe (·.claim zs)).onMesh f).handedOver ms k marks

theorem State.claim_mesh (s : State) (zs : List (BitVec 4)) : (s.onMe (·.claim zs)).me.mesh = s.me.mesh :=
  s.claim_same zs .mesh (by simp [zParts])

theorem State.claim_seq (s : State) (zs : List (BitVec 4)) : (s.onMe (·.claim zs)).eng .m = s.eng .m :=
  s.claim_same zs (.engine .m) (by simp [zParts])

theorem State.claimIssue_room {s : State} (h : s.meshRoom) (zs : List (BitVec 4)) (f : MeshState → MeshState)
    (hf : (f s.me.mesh).ops = s.me.mesh.ops) (ms : Nat) (k : MeshKind) (marks : Group → PendSrc → List PendMark) :
    s.claimIssue zs f ms k marks = .done (s.claimedOver zs f ms k marks) := by
  have hroom : ((s.onMe (·.claim zs)).onMesh f).meshRoom := by
    show (f (s.onMe (·.claim zs)).me.mesh).ops.length < 8
    rw [s.claim_mesh, hf]
    exact h
  exact (if_neg (Nat.not_le.2 h)).trans (State.meshIssue_room hroom ms k marks)

theorem State.claimedOver_same (s : State) (zs : List (BitVec 4)) (f : MeshState → MeshState) (ms : Nat) (k : MeshKind)
    (marks : Group → PendSrc → List PendMark) (p : Aspect) (h : p ∉ zParts zs) (hm : p ≠ .mesh) (hp : p ≠ .pend) :
    s.same (s.claimedOver zs f ms k marks) p :=
  State.same_trans _ _ _ _ (State.same_trans _ _ _ _ (s.claim_same zs p h) (State.onMesh_same _ f p hm)) (State.handedOver_same _ _ _ _ p hm hp)

/-- Where the operation joins the mesh as `f` leaves it, in a state `b` with the mesh and M of `s`. -/
theorem State.onMesh_handedOver_mesh {s b : State} (hm : b.me.mesh = s.me.mesh) (he : b.eng .m = s.eng .m) (f : MeshState → MeshState)
    (ms : Nat) (k : MeshKind) (marks : Group → PendSrc → List PendMark) (hn : (f s.me.mesh).nextOp = s.me.mesh.nextOp) :
    ((b.onMesh f).handedOver ms k marks).me.mesh =
      { f s.me.mesh with ops := (f s.me.mesh).ops ++ [s.newOp ms k], nextOp := s.me.mesh.nextOp + 1 } := by
  have hmesh : (b.onMesh f).me.mesh = f s.me.mesh := congrArg f hm
  have hop : (b.onMesh f).newOp ms k = s.newOp ms k := by
    have hseq : (b.onMesh f).eng .m = s.eng .m := (State.onMesh_same _ f (.engine .m) (by simp)).trans he
    rw [State.newOp, hmesh, hn, hseq, State.newOp]
  have h := (b.onMesh f).handedOver_handed ms k marks
  rw [State.Handed, hmesh, hn, hop] at h
  exact h

theorem State.claimedOver_mesh (s : State) (zs : List (BitVec 4)) (f : MeshState → MeshState) (ms : Nat) (k : MeshKind)
    (marks : Group → PendSrc → List PendMark) (hn : (f s.me.mesh).nextOp = s.me.mesh.nextOp) :
    (s.claimedOver zs f ms k marks).me.mesh =
      { f s.me.mesh with ops := (f s.me.mesh).ops ++ [s.newOp ms k], nextOp := s.me.mesh.nextOp + 1 } :=
  State.onMesh_handedOver_mesh (s.claim_mesh zs) (s.claim_seq zs) f ms k marks hn

theorem State.claimedOver_streams (s : State) (zs : List (BitVec 4)) (f : MeshState → MeshState) (ms : Nat) (k : MeshKind)
    (marks : Group → PendSrc → List PendMark) : s.claimedM (s.claimedOver zs f ms k marks) zs := fun z =>
  (State.handedOver_same _ _ _ _ (.stream z) (by simp) (by simp)).trans
    ((State.onMesh_same _ f (.stream z) (by simp)).trans (Group.stream_claim ..))

theorem State.claimedM.of_endsAs {s u t : State} {zs : List (BitVec 4)} (h : s.claimedM u zs) (ht : u.EndsAs t) : s.claimedM t zs :=
  fun z => (ht (.stream z) (by simp) (by simp)).trans (h z)

/-! ## Sweeps (R141, R144) -/

/-- A sweep hands over its operation and claims its streams; it makes no word pending. -/
theorem State.sweepIssue_effect {a : State} (hroom : a.meshRoom) (zs : List (BitVec 4)) (ms : Nat) (k : MeshKind) :
    ∃ u, a.claimIssue zs id ms k (fun _ _ => []) = .done u ∧ (∀ p, p ∉ .mesh :: zParts zs → a.same u p) ∧
      ∀ t, u.EndsAs t → a.claimedM t zs ∧ a.Handed t ms k := by
  refine ⟨_, State.claimIssue_room hroom zs id rfl ms k _, fun p hp => ?_, fun t ht =>
    ⟨State.claimedM.of_endsAs (a.claimedOver_streams zs id ms k _) ht, State.Handed.of_endsAs (a.claimedOver_mesh zs id ms k _ rfl) ht⟩⟩
  rw [List.mem_cons, not_or] at hp
  obtain ⟨hm, hz⟩ := hp
  exact State.same_trans _ _ _ _ (State.same_trans _ _ _ _ (a.claim_same zs p hz) (State.onMesh_same _ id p hm))
    (State.handedOver_unmarked_same _ _ _ p hm)

theorem bxSource_of {z : Stream} (h : z.rotates) : z.bxSource = true := by
  obtain ⟨hdr, hln, hdi⟩ := h
  simp only [Stream.bxSource, Stream.isBx, hdr, hln, hdi, Bool.not_false, Bool.and_self]

theorem bxDest_of {z : Stream} (h : z.rotated) : z.bxDest = true := by
  obtain ⟨hdr, hln⟩ := h
  simp only [Stream.bxDest, Stream.isBx, hdr, hln, Bool.and_self]

theorem isIndex_of {z : Stream} (h : z.indexes) : z.isIndex = true := by
  obtain ⟨hdr, hln, hfmt, -⟩ := h
  simp only [Stream.isIndex, hdr, hln, hfmt]
  rfl

theorem hasRoom_of {s : State} {d : BitVec 4} {n : Nat} (h : s.destRoom d n) : s.me.hasRoom d n = true := by
  simpa [Group.hasRoom, State.destRoom] using h

/-- A property of the index streams of a sweep. -/
theorem forall_sweepIndexes {d z : BitVec 4} {gather scatter : Bool} {P : BitVec 4 → Prop} (hg : gather = true → P (z + 1))
    (hs : scatter = true → P (d + 1)) : ∀ k ∈ sweepIndexes d z gather scatter, P k := by
  intro k hk
  obtain hk | hk := List.mem_append.1 hk
  · obtain ⟨h, hk⟩ := List.mem_ite_nil_right.1 hk
    exact List.mem_singleton.1 hk ▸ hg h
  · obtain ⟨h, hk⟩ := List.mem_ite_nil_right.1 hk
    exact List.mem_singleton.1 hk ▸ hs h

theorem sweepCheck_ok {s : State} {d z p : BitVec 4} {gather scatter : Bool} (h : s.sweepOk d z p gather scatter) :
    s.me.sweepCheck d z p gather scatter = .ok () := by
  obtain ⟨hprof, -, -, hsrc, hdst, hg, hs, hplain, hm, -⟩ := h
  have hforms : ((s.me.stream z).bxSource && (s.me.stream d).bxDest) = true := by rw [bxSource_of hsrc, bxDest_of hdst]; rfl
  have hbound : ((!gather || (s.me.stream z).st == .bound) && (!scatter || (s.me.stream d).st == .bound)) = true := by
    cases gather <;> cases scatter <;> simp_all
  have hindex : ((sweepIndexes d z gather scatter).all fun k => (s.me.stream k).isIndex) = true :=
    List.all_eq_true.2 (forall_sweepIndexes (P := fun k => (s.me.stream k).isIndex = true) (fun h => isIndex_of (hg h).2.1)
      fun h => isIndex_of (hs h).2.1)
  have hroom : (scatter || s.me.hasRoom d (s.me.sweepLen z gather)) = true := by
    cases scatter
    · exact hasRoom_of (hplain rfl)
    · rfl
  have howner : s.me.notV (z :: sweepIndexes d z gather scatter) = .ok () :=
    Group.notV_ok (List.forall_mem_cons.2 ⟨hm, forall_sweepIndexes (P := fun k => (s.me.stream k).forM) (fun h => (hg h).2.2.1)
      fun h => (hs h).2.2.1⟩)
  have hlong : (!scatter || decide (s.me.sweepLen z gather ≤ s.me.stillElems (d + 1))) = true := by
    cases scatter
    · rfl
    · exact decide_eq_true (hs rfl).2.2.2
  have hfree : (!gather || !s.me.gatherPending (s.me.stream z)) = true := by
    cases gather
    · rfl
    · rw [(hg rfl).2.2.2]; rfl
  simp only [Group.sweepCheck, needProfile_ok hprof, need_true hforms, need_true hbound, need_true hindex, need_true hroom, howner,
    need_true hlong, need_true hfree]
  rfl

theorem msweep_holds (y : BitVec 2) (d z : BitVec 4) (b : BitVec 3) (m : BitVec 2) (p : BitVec 4) (g c f : BitVec 1) (r : Claim)
    (h : sweepRow (.msweep y d z b m p g c f) = some r) : r.Holds (.msweep y d z b m p g c f) := by
  cases h
  refine meshItem_holds _ (fun s => show execMsweep y d z b m p g c f s = _ from rfl) (fun a ha => ?_) (by simp [zParts]) (by simp [zParts])
  have hcheck := sweepCheck_ok ha
  obtain ⟨-, hz, hd, -, -, hg, hs, -, -, hroom⟩ := ha
  have hall : ∀ k ∈ [z, d] ++ sweepIndexes d z (decide (g = 1)) (decide (c = 1)), (a.me.stream k).st ≠ .unbound := by
    refine List.forall_mem_append.2 ⟨by simp [hz, hd], forall_sweepIndexes (fun h => ?_) fun h => ?_⟩
    · exact (hg h).2.1.2.2.2
    · exact (hs h).2.1.2.2.2
  rw [show (g == 1) = decide (g = 1) from rfl, show (c == 1) = decide (c = 1) from rfl, show (f == 1) = decide (f = 1) from rfl,
    State.bound_go hall, hcheck]
  have hzs : z :: ((if g = 1 then [z + 1] else []) ++ (if c = 1 then [d + 1] else [])) =
      z :: sweepIndexes d z (decide (g = 1)) (decide (c = 1)) := by simp only [sweepIndexes, decide_eq_true_eq]
  have hlen : a.me.sweepLen z (decide (g = 1)) = if g = 1 then a.me.stillElems (z + 1) else a.me.stillTo z := by
    simp only [Group.sweepLen, decide_eq_true_eq]
  rw [hzs, ← hlen]
  exact State.sweepIssue_effect hroom ..

theorem deriveCheck_ok {s : State} {d z p : BitVec 4} (hprof : s.profileOk p 1) (hsrc : (s.me.stream z).rotates) (hdst : (s.me.stream d).rotated)
    (hpos : 1 ≤ s.me.stillTo z) (hmax : s.me.stillTo z ≤ 128) (hroom : s.destRoom d (s.me.stillTo z)) (hm : (s.me.stream z).forM) :
    s.me.deriveCheck d z p = .ok () := by
  have hforms : ((s.me.stream z).bxSource && (s.me.stream d).bxDest) = true := by rw [bxSource_of hsrc, bxDest_of hdst]; rfl
  have hlen : (decide (1 ≤ s.me.stillTo z) && decide (s.me.stillTo z ≤ 128)) = true := by simp [hpos, hmax]
  have howner : s.me.notV [z] = .ok () := Group.notV_ok (by simpa using hm)
  simp only [Group.deriveCheck, needProfile_ok hprof, need_true hforms, need_true hlen, need_true (hasRoom_of hroom), howner]
  rfl

theorem mderive_holds (y : BitVec 2) (d z : BitVec 4) (b : BitVec 3) (m : BitVec 2) (p : BitVec 4) (r : Claim)
    (h : sweepRow (.mderive y d z b m p) = some r) : r.Holds (.mderive y d z b m p) := by
  cases h
  refine meshItem_holds _ (fun s => show execMderive y d z b m p s = _ from rfl)
    fun a ⟨hprof, hz, hd, hsrc, hdst, hpos, hmax, hdest, hm, hroom⟩ => ?_
  rw [State.bound_go (by simp [hz, hd]), deriveCheck_ok hprof hsrc hdst hpos hmax hdest hm]
  exact State.sweepIssue_effect hroom [z] ..

theorem sweepRow_holds (i : Instr) (c : Claim) (h : sweepRow i = some c) : c.Holds i := by
  revert h
  cases i with
  | msweep => exact msweep_holds _ _ _ _ _ _ _ _ _ c
  | mderive => exact mderive_holds _ _ _ _ _ _ c
  | _ => exact noRow

/-! ## Panels (R145) -/

theorem headVectors_of {z : Stream} {h : Nat} (hz : z.slices h) : z.headVectors = some h ∧ (h = 1 ∨ h = 2) := by
  obtain ⟨hdr, hln, hdi, ⟨hfmt, rfl⟩ | ⟨hfmt, rfl⟩⟩ := hz
  all_goals
    refine ⟨?_, by decide⟩
    simp only [Stream.headVectors, hdr, hln, hdi, hfmt]
    rfl

/-- A running input stream of M gives the vectors that stand in its buffer, before its last one. -/
theorem State.popMany_ok {s : State} {z : BitVec 4} {n : Nat} (hst : (s.me.stream z).st = .running) (hdr : (s.me.stream z).pat.drained = false)
    (hown : (s.me.stream z).owner = some .m) (hbuf : n ≤ (s.me.stream z).buf.length)
    (hlast : (s.me.stream z).taken + n < (s.me.stream z).vectors) :
    ∃ t, s.popMany z n = .ok () t ∧ (∀ p, p ≠ .stream z → s.same t p) ∧
      t.me.stream z = { s.me.stream z with buf := (s.me.stream z).buf.drop n, taken := (s.me.stream z).taken + n } := by
  induction n generalizing s with
  | zero => exact ⟨s, rfl, fun p _ => s.same_refl p, rfl⟩
  | succ n ih =>
    generalize hx : s.me.stream z = x at hst hdr hown hbuf hlast ⊢
    obtain ⟨v, r, hv⟩ := List.exists_cons_of_length_pos (Nat.lt_of_lt_of_le (Nat.succ_pos n) hbuf)
    have hgo : x.isLast (x.taken + 1) = false := by
      rw [Stream.isLast, Bool.and_eq_false_iff]
      exact .inr (decide_eq_false (by omega))
    have hpop : s.streamPop .m z = .ok v (s.onMe (·.setStream z { x with buf := r, taken := x.taken + 1 })) := by
      simp [State.streamPop, hx, hst, hdr, hown, hv, hgo]
    have hy : (s.onMe (·.setStream z { x with buf := r, taken := x.taken + 1 })).me.stream z = { x with buf := r, taken := x.taken + 1 } :=
      Group.stream_setStream ..
    rw [hv, List.length_cons] at hbuf
    have hrest := ih (s := s.onMe (·.setStream z { x with buf := r, taken := x.taken + 1 }))
    rw [hy] at hrest
    obtain ⟨t, ht, hsame, hstream⟩ := hrest hst hdr hown (Nat.le_of_succ_le_succ hbuf) (show x.taken + 1 + n < x.vectors by omega)
    refine ⟨t, ?_, fun p hp => State.same_trans _ _ _ _ (s.setStream_same z _ p hp) (hsame p hp), hstream.trans ?_⟩
    · rw [State.popMany, hpop]
      exact ht
    · rw [hv]
      simp only [List.drop_succ_cons, Nat.add_assoc, Nat.add_comm 1]

theorem joinHead_eq (s : State) (d : BitVec 4) (h n : Nat) : joinHead (s.me.stream d).buf h n = s.headerLane d h n := rfl

theorem panelHead_ok {s : State} {d : BitVec 4} {h : Nat} (hpos : 1 ≤ s.panelS d h) (hmax : s.panelS d h ≤ 6)
    (hzero : s.headerLane d h 0 / 2 ^ 28 % 16 = 0) (hcols : ∀ n, 1 ≤ n → n < 128 → s.headerLane d h n < 2 ^ 17) :
    panelHead (joinHead (s.me.stream d).buf h) = .ok (s.panelS d h, s.panelKp d h) := by
  have hhead : (decide (1 ≤ bitsOf (joinHead (s.me.stream d).buf h 0) 17 3) && decide (bitsOf (joinHead (s.me.stream d).buf h 0) 17 3 ≤ 6) &&
      bitsOf (joinHead (s.me.stream d).buf h 0) 28 4 == 0) = true := by
    simp only [Bool.and_eq_true, decide_eq_true_eq, beq_iff_eq]
    exact ⟨⟨hpos, hmax⟩, hzero⟩
  have hrest : ((List.range 127).all fun i => joinHead (s.me.stream d).buf h (i + 1) / 2 ^ 17 == 0) = true :=
    List.all_eq_true.2 fun i hi => beq_iff_eq.2 (Nat.div_eq_of_lt (hcols (i + 1) (by omega) (Nat.succ_lt_succ (List.mem_range.1 hi))))
  simp only [panelHead, need_true hhead, need_true hrest]
  rfl

theorem mpanel_holds (y : BitVec 2) (d : BitVec 4) (m : BitVec 2) (h : Nat) : (mpanelClaim y d m h).Holds (.mpanel y d m) := by
  refine meshItem_holds _ (fun s => show execMpanel y d m s = _ from rfl)
    fun a ⟨hst, hslices, hm, hpops, hbuf, hroom, hpos, hmax, hzero, hcols, hlen⟩ => ?_
  have hkp : 1 ≤ a.panelKp d h := Nat.le_add_left ..
  have hone : 1 ≤ a.panelS d h * a.panelKp d h := Nat.mul_pos hpos hkp
  have hleft : (a.me.stream d).left = (a.me.stream d).vectors - (a.me.stream d).taken := rfl
  have hclaim : (a.onMe (·.claim [d])).me.stream d = { a.me.stream d with owner := some .m } :=
    (a.me.stream_claim [d] d).trans (if_pos List.mem_cons_self)
  have hpop := State.popMany_ok (s := a.onMe (·.claim [d])) (z := d) (n := h)
  rw [hclaim] at hpop
  obtain ⟨b, hb, hsame, hstream⟩ := hpop hst hslices.1 rfl hbuf
    (show (a.me.stream d).taken + h < (a.me.stream d).vectors by omega)
  have hfrom (p : Aspect) (hp : p ≠ .stream d) : a.same b p :=
    State.same_trans _ _ _ _ (a.claim_same [d] p (by simpa [zParts] using hp)) (hsame p hp)
  have hmesh : b.me.mesh = a.me.mesh := hfrom .mesh (by simp)
  refine ⟨(b.onMesh fun m => { m with head := some ⟨a.panelS d h, a.panelKp d h⟩ }).handedOver m.toNat
      (.panel d.toNat (a.panelS d h) (a.panelKp d h) ((List.range 128).map fun n => BitVec.ofNat 32 (a.headerLane d h n % 2 ^ 17)))
      fun _ _ => [], ?_, fun p hp => ?_, fun t ht => ?_⟩
  · have hgo : ¬ (a.me.stream d).left < h ∧ ¬ (a.me.stream d).left < h + a.panelS d h * a.panelKp d h := by omega
    rw [State.bound_go (by simp [hst]), (headVectors_of hslices).1]
    simp only [Group.notV_ok (g := a.me) (zs := [d]) (by simpa using hm), ofChk, hpops, ne_eq, not_true, if_false, hgo.1, hgo.2,
      Nat.not_lt.2 hbuf, panelHead_ok hpos hmax hzero hcols, Nat.not_le.2 hroom, hb, Got.then]
    refine State.meshIssue_room ?_ ..
    show b.me.mesh.ops.length < 8
    rw [hmesh]
    exact hroom
  · simp only [List.mem_cons, List.not_mem_nil, or_false, not_or] at hp
    exact State.same_trans _ _ _ _ (State.same_trans _ _ _ _ (hfrom p hp.2) (State.onMesh_same _ _ p hp.1))
      (State.handedOver_unmarked_same _ _ _ p hp.1)
  · have hz : t.me.stream d = b.me.stream d := (ht (.stream d) (by simp) (by simp)).trans
      ((State.handedOver_same _ _ _ _ (.stream d) (by simp) (by simp)).trans (State.onMesh_same _ _ (.stream d) (by simp)))
    rw [hz, hstream]
    exact ⟨rfl, rfl, rfl, ht.mesh.trans (State.onMesh_handedOver_mesh hmesh (hfrom (.engine .m) (by simp)) _ _ _ _ rfl)⟩

/-! ## Windows (R39, R146) -/

theorem pairSet_length : ∀ s < 8, ∀ full : Bool, (pairSet s full).length = pairCount s full := by decide

theorem winWords_eq (n : BitVec 3) (full : Bool) (m : Nat) : winWords n.toNat full m = windowWords n.toNat full m := by
  rw [winWords, windowWords, pairSet_length _ n.isLt]

/-! ## Steps (R147, R148) -/

theorem Batch.win_some {b : Batch} {w : Nat} {x : WinPend} (h : b.win w = some x) : x ∈ b.wins ∧ x.win = w :=
  ⟨List.mem_of_find?_eq_some h, beq_iff_eq.1 (List.find?_some (p := fun x : WinPend => x.win == w) h)⟩

/-- R147: a step that joins a batch is one of its steps on the window. -/
theorem Batch.join_mem (b : Batch) (acc : Memory) (w s : Nat) (full : Bool) (m ms : Nat) :
    ∃ x ∈ (b.join acc w s full m ms).wins, x.win = w ∧ ms ∈ x.mss := by
  unfold Batch.join
  cases hw : b.win w with
  | some x =>
    obtain ⟨hx, hwin⟩ := Batch.win_some hw
    exact ⟨{ x with mss := x.mss ++ [ms] }, List.mem_map.2 ⟨x, hx, if_pos hwin⟩, hwin, by simp⟩
  | none => exact ⟨_, List.mem_append_right _ List.mem_cons_self, rfl, List.mem_cons_self⟩

theorem Batch.join_id_name (b : Batch) (acc : Memory) (w s : Nat) (full : Bool) (m ms : Nat) :
    (b.join acc w s full m ms).id = b.id ∧ (b.join acc w s full m ms).name = b.name := by
  unfold Batch.join
  cases b.win w <;> exact ⟨rfl, rfl⟩

/-- What a step that issues does to the mesh before it joins the operations: it joins the open batch. -/
def MeshState.stepJoined (m : MeshState) (acc : Memory) (w s : Nat) (full : Bool) (rows ms : Nat) : MeshState :=
  m.open_.1.onBatch m.open_.2.id fun b => b.join acc w s full rows ms

/-- R148: opening a batch changes the batches and their count only. -/
theorem MeshState.open_eq (m : MeshState) :
    ∃ bs n, m.open_.1 = { m with batches := bs, nextBatch := n } ∧ m.open_.2 ∈ bs ∧ m.open_.2.name = none := by
  obtain ⟨o, ho, hn, h⟩ | ⟨-, h⟩ := m.open_cases
  · exact ⟨m.batches, m.nextBatch, by rw [h], by rw [h]; exact ho, by rw [h]; exact hn⟩
  · exact ⟨_, _, by rw [h], by rw [h]; exact List.mem_append_right _ List.mem_cons_self, by rw [h]⟩

theorem MeshState.stepJoined_eq (m : MeshState) (acc : Memory) (w s : Nat) (full : Bool) (rows ms : Nat) :
    ∃ bs n, m.stepJoined acc w s full rows ms = { m with batches := bs, nextBatch := n } ∧
      ∃ b ∈ bs, b.name = none ∧ b.id = m.open_.2.id ∧ ∃ x ∈ b.wins, x.win = w ∧ ms ∈ x.mss := by
  obtain ⟨bs, n, h, hmem, hname⟩ := m.open_eq
  refine ⟨bs.map fun b => if b.id = m.open_.2.id then b.join acc w s full rows ms else b, n, by rw [MeshState.stepJoined, h]; rfl,
    m.open_.2.join acc w s full rows ms, List.mem_map.2 ⟨_, hmem, if_pos rfl⟩, ?_, (Batch.join_id_name ..).1, Batch.join_mem ..⟩
  rw [(Batch.join_id_name ..).2, hname]

theorem rowVectors_pos {h : Nat} (hh : h = 1 ∨ h = 2) (n kp : Nat) : 0 < rowVectors h n kp := by
  rw [rowVectors]
  omega

theorem sliceCheck_ok {s : State} {z : BitVec 4} {w m h : Nat} {n : BitVec 3} {full : Bool} {cp : PanelHead} (hh : h = 1 ∨ h = 2)
    (hm : (s.me.stream z).forM) (hhead : s.me.mesh.head = some cp) (hn : cp.s = n.toNat)
    (hlen : s.me.stillTo z = m * vectorsPerRow h cp.s cp.kp) (hmax : m ≤ 888) (hfit : w + windowWords n.toNat full m ≤ 131072)
    (hahead : s.me.headerAhead w none = 0 ∨ s.me.headerAhead w none = headerWord n.toNat full m)
    (hfree : s.me.meshPending true w (windowWords n.toNat full m) PendMark.anyStep = false) :
    s.me.sliceRows z h n.toNat cp.kp = m ∧ s.me.sliceCheck z w n.toNat full h = .ok m := by
  have hlen' : s.me.stillTo z = m * rowVectors h n.toNat cp.kp := by rw [hlen, hn]; rfl
  have hpos := rowVectors_pos hh n.toNat cp.kp
  have hrows : s.me.sliceRows z h n.toNat cp.kp = m := by rw [Group.sliceRows, hlen', Nat.mul_div_cancel _ hpos]
  have hhead' : (s.me.mesh.head.isSome && cp.s == n.toNat) = true := by rw [hhead, hn]; simp
  have hwhole : (s.me.stillTo z % rowVectors h n.toNat cp.kp == 0 && decide (m ≤ 888)) = true := by
    rw [hlen', Nat.mul_mod_left, decide_eq_true hmax]; rfl
  have hfit' : decide (w + winWords n.toNat full m ≤ accWords) = true := decide_eq_true (by rw [winWords_eq]; exact hfit)
  have hahead' : (s.me.headerAhead w none == 0 || s.me.headerAhead w none == winHeader n.toNat full m) = true := by
    rw [Bool.or_eq_true, beq_iff_eq, beq_iff_eq]
    exact hahead
  have hfree' : (!s.me.meshPending true w (winWords n.toNat full m) PendMark.anyStep) = true := by rw [winWords_eq, hfree]; rfl
  refine ⟨hrows, ?_⟩
  simp only [Group.sliceCheck, hhead, Option.getD_some, hn, hrows, Group.notV_ok (g := s.me) (zs := [z]) (by simpa using hm)]
  rw [hhead, hn] at hhead'
  simp only [need_true hhead', need_true hwhole, need_true hfit', need_true hahead', need_true hfree']
  rfl

theorem mslice_holds (y : BitVec 2) (w : BitVec 5) (z : BitVec 4) (n : BitVec 3) (f : BitVec 1) (p : BitVec 4) (ms : BitVec 2) (h m : Nat)
    (cp : PanelHead) : (msliceClaim y w z n f p ms h m cp).Holds (.mslice y w z n f p ms) := by
  refine meshItem_holds _ (fun s => show execMslice y w z n f p ms s = _ from rfl)
    fun a ⟨hprof, hst, hslices, hm, hclear, hhead, hn, _, _, hlen, hmax, hfit, hahead, hfree, hroom⟩ => ?_
  obtain ⟨hvec, hh⟩ := headVectors_of hslices
  rw [← winWords_eq] at hclear
  obtain ⟨hrows, hcheck⟩ := sliceCheck_ok hh hm hhead hn hlen hmax hfit hahead hfree
  generalize hj : a.me.mesh.stepJoined a.me.store.acc (4096 * w.toNat) n.toNat (decide (f = 1)) m ms.toNat = mj
  have hj' := a.me.mesh.stepJoined_eq a.me.store.acc (4096 * w.toNat) n.toNat (decide (f = 1)) m ms.toNat
  obtain ⟨bs, nb, hmj, b, hb, hname, hid, hwin⟩ := hj'
  rw [hj] at hmj
  refine ⟨a.claimedOver [z] (fun _ => mj) ms.toNat (.slice (4096 * w.toNat) z.toNat n.toNat (decide (f = 1)) m h cp.kp a.me.mesh.open_.2.id
      (decide (p = 0))) fun g _ => g.stepMarks (4096 * w.toNat) n.toNat (decide (f = 1)) m a.me.mesh.open_.2.id ms.toNat,
    ?_, fun q hq => ?_, fun t ht => ?_⟩
  · rw [State.bound_go (by simp [hst]), needProfile_ok hprof]
    simp only [ofChk, hvec, hhead, Option.getD_some, hrows, show (f == 1) = decide (f = 1) from rfl, hclear, hcheck, Bool.false_eq_true, if_false]
    have hops : mj.ops = a.me.mesh.ops := by rw [hmj]
    rw [← hj] at hops ⊢
    exact State.claimIssue_room hroom [z] _ hops ..
  · simp only [List.mem_cons, List.not_mem_nil, or_false, not_or] at hq
    exact a.claimedOver_same _ _ _ _ _ q (by simpa [zParts] using hq.2.1) hq.1 hq.2.2
  · have hmesh := ht.mesh.trans (a.claimedOver_mesh [z] (fun _ => mj) ms.toNat _ _ (by rw [hmj]))
    refine ⟨(State.claimedM.of_endsAs (a.claimedOver_streams [z] _ _ _ _) ht z).trans (if_pos List.mem_cons_self), b, ?_, hname, hwin, ?_⟩
    · rw [hmesh, hmj]
      exact hb
    · rw [hmesh, hmj, hid]
      exact ⟨rfl, rfl, rfl, rfl, rfl⟩

/-! ## Retirements (R149) -/

theorem retireDest_of {z : Stream} {f64 : Bool} (hdr : z.pat.drained = true) (hln : z.pat.lanes = false)
    (hfmt : z.fmt = if f64 = true then 11 else 10) : retireDest z = some f64 := by
  cases f64 <;> simp only [retireDest, hdr, hln, hfmt] <;> rfl

/-- R149: the batches that a retirement waits for. -/
def MeshState.batchesOn (m : MeshState) (w ms : Nat) : List Nat :=
  (m.batches.filter fun b => (b.win w).any fun x => x.mss.contains ms).map (·.id)

theorem MeshState.mem_batchesOn {m : MeshState} {w ms : Nat} {b : Batch} (hb : b ∈ m.batches) {x : WinPend} (hx : x ∈ b.wins) (hw : x.win = w)
    (hms : ms ∈ x.mss) (hone : ∀ x' ∈ b.wins, x'.win = w → x' = x) : b.id ∈ m.batchesOn w ms := by
  refine List.mem_map.2 ⟨b, List.mem_filter.2 ⟨hb, ?_⟩, rfl⟩
  cases hf : b.win w with
  | none => exact absurd hw (by simpa using List.find?_eq_none.1 hf x hx)
  | some x' =>
    obtain ⟨hx', hw'⟩ := Batch.win_some hf
    rw [hone x' hx' hw']
    simpa using hms

theorem bitsOf_bit (w : BitVec 64) : (bitsOf w.toNat 3 1 == 1) = w.getLsbD 3 := by
  rw [BitVec.getLsbD, Nat.testBit_eq_decide_div_mod_eq]
  rfl

theorem retireCheck_ok {s : State} {d : BitVec 4} {w m ms : Nat} {n : BitVec 3} {f64 full : Bool} (hne : s.me.headerAhead w (some ms) ≠ 0)
    (hn : (s.me.headerAhead w (some ms)).toNat % 8 = n.toNat) (hfull : (s.me.headerAhead w (some ms)).getLsbD 3 = full)
    (hm : (s.me.headerAhead w (some ms)).toNat / 16 % 1024 = m)
    (hopen : ∀ b ∈ s.me.mesh.batches, b.name = none → ∀ x ∈ b.wins, x.win = w → ms ∉ x.mss)
    (hfit : w + windowWords n.toNat full m ≤ 131072) (hroom : s.destRoom d (if f64 = true then 2 * m else m))
    (hfree : s.me.meshPending true w (windowWords n.toNat full m) (PendMark.ownStep ms) = false) :
    s.me.retireCheck d w n.toNat f64 ms = .ok (full, m) := by
  generalize hv : s.me.headerAhead w (some ms) = v at hne hn hfull hm
  have hb : (bitsOf v.toNat 3 1 == 1) = full := (bitsOf_bit v).trans hfull
  have hr : bitsOf v.toNat 4 10 = m := hm
  have hhead : (v.toNat != 0 && bitsOf v.toNat 0 3 == n.toNat) = true := by
    rw [Bool.and_eq_true, bne_iff_ne, beq_iff_eq, bitsOf, Nat.pow_zero, Nat.div_one]
    exact ⟨fun h => hne (BitVec.eq_of_toNat_eq h), hn⟩
  have hclosed : (!(s.me.mesh.batches.any fun b => b.name.isNone && (b.win w).any fun x => x.mss.contains ms)) = true := by
    rw [Bool.not_eq_true', List.any_eq_false]
    intro b hmem h
    rw [Bool.and_eq_true, Option.isNone_iff_eq_none, Option.any_eq_true] at h
    obtain ⟨hname, x, hx, hms⟩ := h
    exact hopen b hmem hname x (Batch.win_some hx).1 (Batch.win_some hx).2 (by simpa using hms)
  have hfit' : decide (w + winWords n.toNat full m ≤ accWords) = true := decide_eq_true (by rw [winWords_eq]; exact hfit)
  have hfree' : (!s.me.meshPending true w (winWords n.toNat full m) (PendMark.ownStep ms)) = true := by rw [winWords_eq, hfree]; rfl
  simp only [Group.retireCheck, hv, hb, hr, need_true hhead, need_true hclosed, need_true hfit', need_true (hasRoom_of hroom), need_true hfree']
  rfl

theorem mretire_holds (y : BitVec 2) (d : BitVec 4) (w : BitVec 5) (n : BitVec 3) (r : BitVec 2) (p : BitVec 4) (ms : BitVec 2)
    (f64 full : Bool) (m : Nat) : (mretireClaim y d w n r p ms f64 full m).Holds (.mretire y d w n r p ms) := by
  refine meshItem_holds _ (fun s => show execMretire y d w n r p ms s = _ from rfl)
    fun a ⟨hprof, hst, hdr, hln, hfmt, hclear, hne, hn, hfull, hm, hopen, hfit, hdest, hfree, hroom⟩ => ?_
  rw [State.bound_go (by simp [hst]), needProfile_ok hprof]
  simp only [ofChk, retireDest_of hdr hln hfmt, hclear, Bool.false_eq_true, if_false,
    retireCheck_ok hne hn hfull hm hopen hfit hdest hfree]
  refine ⟨_, State.meshIssue_room hroom .., fun q hq => a.handedOver_unmarked_same _ _ q (by simpa using hq), fun t ht =>
    ⟨a.me.mesh.batchesOn (4096 * w.toNat) ms.toNat, (a.handedOver_handed ..).of_endsAs ht, ?_⟩⟩
  rintro b hb ⟨x, hx, hw, hms, hone⟩
  exact MeshState.mem_batchesOn hb hx hw hms hone

/-- Settles O47: each word's checks pass, M claims its streams, and the mesh holds one more operation. -/
theorem sweepsAndPanels : Obligations.SweepsAndPanels := ⟨sweepRow_holds, mpanel_holds, mslice_holds, mretire_holds⟩

end Sys2Proof.Machine
end

section
-- One declaration after another: the whole text is checked in one process, of bounded memory.
set_option Elab.async false
/-! SUPPORT. Commands of the five doorbells (13_context R270, 14_queue R282): when a command is taken and what it then is, how its report
reads, and which parts the stores of the front end change. -/

namespace Sys2Proof.Machine

/-! ## A command at its turn -/

/-- R282: a command that none goes before has its turn. -/
theorem bellTurn_first {s : State} {b : Bell} {cmd : Nat} (h : s.fe.bells = [] ∨ s.fe.bells.head? = some (b, cmd)) :
    s.bellTurn b cmd = (true, s.rung) := by
  obtain hnil | hhead := h
  · rw [State.bellTurn, State.rung]
    have htail : s.fe.bells.tail = s.fe.bells := by rw [hnil]; rfl
    rw [htail, hnil]
    simp only [← hnil]
  · obtain ⟨r, hr⟩ := List.head?_eq_some_iff.1 hhead
    rw [State.bellTurn, State.rung, hr]
    exact if_pos rfl

/-- R270, R282: a command that is rung is taken; one whose record is not aligned is none. -/
theorem command_rung {s : State} {b : Bell} {op cmd : Nat} (h : s.Rung b op cmd) {ok : Nat → Bool} (hop : ok op = true) (hasCtx : Bool)
    (body : List Byte → State → CmdEnd) : command b ok cmd s hasCtx body =
      if cmd % 64 ≠ 0 then .next ((s.rung.dropLines (.bell cmd)).cmdDone cmd 0xFF stBadCmd)
      else
        match body (s.cmdBytes cmd) s.rung with
        | .done st u => .next (u.reported cmd (if hasCtx = true then recField (s.cmdBytes cmd) 2 1 else 0xFF) (some st))
        | .later u => .next (u.dropLines (.bell cmd))
        | .waits => .next { s.rung with fe := { s.rung.fe with bells := (b, cmd) :: s.rung.fe.bells } }
        | .absent pa => .fault (.noSuchAddress pa) := by
  have hthere : (s.isOwn cmd && !hbmPresent s.part (paLocal cmd) 64) = false := by
    cases hown : s.isOwn cmd
    · rfl
    · rw [h.here hown]; rfl
  have hcode : ok (recField (s.cmdBytes cmd) 0 1) = true := by rw [h.code]; exact hop
  simp only [command, h.ready, hthere, h.come, bellTurn_first h.turn, hcode, Bool.not_true, Bool.false_eq_true, if_false]
  rfl

/-- How a command of a claim ends: with its STATUS, or without one, later or behind those that wait. -/
def CmdEnd.Ends (e : CmdEnd) (s : State) (b : Bell) (cmd : Nat) (status : Option Nat) (u : State) : Prop :=
  match status with
  | some st => e = .done st u
  | none => (∃ v, e = .later v ∧ u = v.dropLines (.bell cmd)) ∨ e = .waits ∧ u = { s with fe := { s.fe with bells := (b, cmd) :: s.fe.bells } }

/-- A claim of an aligned command, by what its body makes of the record and of the state once it has its turn. -/
theorem CmdClaim.holds_of_body (c : CmdClaim) {i : Instr} {ok : Nat → Bool} (body : List Byte → State → CmdEnd)
    (hx : ∀ s, exec i s = command c.bell ok c.cmd s c.named body) (hop : ok c.op = true) (hal : c.aligned = true)
    (hb : ∀ r s, recField r 0 1 = c.op → c.pre r s → ∃ u, (body r s).Ends s c.bell c.cmd (c.status r s) u ∧ c.post r s (c.does r s) u ∧
      ∀ p, p ∉ c.parts → (c.does r s).same u p) : c.Holds i := by
  intro s hr halign hpre
  obtain ⟨u, hends, hpost, hframe⟩ := hb _ _ hr.code hpre
  have hnot : ¬ c.cmd % 64 ≠ 0 := not_not.2 (halign.2 hal)
  refine ⟨u, ?_, hpost, hframe⟩
  rw [hx, command_rung hr hop, if_neg hnot]
  generalize c.status (s.cmdBytes c.cmd) s.rung = st at hends
  cases st with
  | some st =>
    have he : body (s.cmdBytes c.cmd) s.rung = .done st u := hends
    rw [he]
  | none =>
    obtain ⟨v, he, rfl⟩ | ⟨he, rfl⟩ := hends
    · rw [he]; rfl
    · rw [he]; rfl

/-- A command that reports a status and does nothing else. -/
theorem refusal_holds {i : Instr} {b : Bell} {op cmd st : Nat} {named : Bool} {pre : List Byte → State → Prop} {ok : Nat → Bool}
    (body : List Byte → State → CmdEnd) (hx : ∀ s, exec i s = command b ok cmd s named body) (hop : ok op = true)
    (hb : ∀ r s, recField r 0 1 = op → pre r s → body r s = .done st s) : (refusal b op cmd named st pre).Holds i :=
  CmdClaim.holds_of_body (refusal b op cmd named st pre) body hx hop rfl fun r s hc hpre =>
    ⟨s, hb r s hc hpre, trivial, fun p _ => s.same_refl p⟩

/-! ## Reports (R270, R282, R320) -/

/-- The bytes of a report laid out by the sizes and values of its fields, in order. -/
def bytesOf : List (Nat × Nat) → List Byte
  | [] => []
  | f :: l => leBytes f.1 f.2 ++ bytesOf l

/-- The fields of a layout with their offsets. -/
def placedAt : Nat → List (Nat × Nat) → List (Nat × Nat × Nat)
  | _, [] => []
  | o, f :: l => (o, f.1, f.2) :: placedAt (o + f.1) l

theorem bytesOf_length (l : List (Nat × Nat)) : (bytesOf l).length = (l.map (·.1)).sum := by
  induction l with
  | nil => rfl
  | cons f l ih => rw [bytesOf, List.length_append, leBytes_length, ih, List.map_cons, List.sum_cons]

theorem placedAt_le {o : Nat} {l : List (Nat × Nat)} {f : Nat × Nat × Nat} (h : f ∈ placedAt o l) : o ≤ f.1 := by
  induction l generalizing o with
  | nil => exact absurd h List.not_mem_nil
  | cons g l ih =>
    obtain rfl | h := List.mem_cons.1 h
    · exact Nat.le_refl _
    · exact Nat.le_of_add_right_le (ih h)

theorem recField_bytesOf {o : Nat} {l : List (Nat × Nat)} {f : Nat × Nat × Nat} (h : f ∈ placedAt o l) :
    recField (bytesOf l) (f.1 - o) f.2.1 = f.2.2 % 2 ^ (8 * f.2.1) := by
  induction l generalizing o with
  | nil => exact absurd h List.not_mem_nil
  | cons g l ih =>
    rw [bytesOf]
    obtain rfl | h := List.mem_cons.1 h
    · simp only [Nat.sub_self, recField, List.drop_zero]
      rw [List.take_left' (leBytes_length g.1 g.2), leVal_leBytes]
    · have hle : o + g.1 ≤ f.1 := placedAt_le h
      have hsub : f.1 - o = (leBytes g.1 g.2).length + (f.1 - (o + g.1)) := by rw [leBytes_length]; omega
      rw [recField, hsub, List.drop_append, List.drop_eq_nil_of_le (by omega), List.nil_append, Nat.add_sub_cancel_left]
      exact ih h

theorem leBytes_zero (n k : Nat) : (leBytes n 0).getD k 0 = 0 := by
  induction n generalizing k with
  | zero => rfl
  | succ n ih =>
    cases k with
    | zero => rfl
    | succ k => exact ih k

theorem bytesOf_zero {o k : Nat} {l : List (Nat × Nat)} (hk : o ≤ k)
    (h : ∀ f ∈ placedAt o l, f.2.2 = 0 ∨ k < f.1 ∨ f.1 + f.2.1 ≤ k) : (bytesOf l).getD (k - o) 0 = 0 := by
  induction l generalizing o with
  | nil => rfl
  | cons g l ih =>
    rw [bytesOf]
    by_cases hin : k - o < g.1
    · rw [List.getD_append _ _ _ _ (by rw [leBytes_length]; exact hin)]
      obtain hz | hz | hz := h (o, g.1, g.2) List.mem_cons_self
      · have hz' : g.2 = 0 := hz
        rw [hz', leBytes_zero]
      · exact absurd hk (Nat.not_le.2 hz)
      · have hz' : o + g.1 ≤ k := hz
        omega
    · rw [List.getD_append_right _ _ _ _ (by rw [leBytes_length]; omega), leBytes_length, Nat.sub_sub]
      exact ih (by omega) fun f hf => h f (List.mem_cons_of_mem _ hf)

/-- A report laid out field by field reads as its fields say, and its other bytes are zero. -/
theorem State.reports_bytesOf (a : State) (cmd ctx pa n : Nat) {bs : List Byte} (l : List (Nat × Nat)) (fields : List (Nat × Nat × Nat))
    (hbs : bs = bytesOf l) (hn : (l.map (·.1)).sum = n) (hf : ∀ f ∈ fields, f ∈ placedAt 0 l)
    (hz : ∀ f ∈ placedAt 0 l, f.2.2 = 0 ∨ f ∈ fields) : a.Reports (a.putReport ctx pa bs (.bell cmd)) cmd ctx pa n fields := by
  subst hbs
  refine ⟨bytesOf l, (bytesOf_length l).trans hn, fun f hmem => recField_bytesOf (hf f hmem), fun k _ hout => ?_, rfl⟩
  exact bytesOf_zero (Nat.zero_le k) fun f hmem => (hz f hmem).imp_right (hout f)

/-- A report that names no field is all zero bytes. -/
theorem bytesOf_single (n : Nat) : leBytes n 0 = bytesOf [(n, 0)] := (List.append_nil _).symm

/-- R270, R282: a report is written and the command completes. -/
theorem State.reportAt_done {s : State} {cmd ctx a : Nat} {bs : List Byte} {n : Nat} (hn : bs.length = n) (h : s.reportable a n) :
    s.reportAt cmd ctx a bs = .done 1 (s.putReport ctx a bs (.bell cmd)) := by
  refine if_neg fun hno => ?_
  rw [Bool.and_eq_true, Bool.not_eq_true'] at hno
  obtain ⟨hown, habs⟩ := hno
  rw [hn, h hown] at habs
  exact Bool.noConfusion habs

/-! ## What the front end's stores change -/

theorem State.foldl_same {α : Type} {f : State → α → State} {p : Aspect} (h : ∀ (s : State) (x : α), s.same (f s x) p) (l : List α) (s : State) :
    s.same (l.foldl f s) p := by
  induction l generalizing s with
  | nil => exact s.same_refl p
  | cons x l ih => exact State.same_trans _ _ _ _ (h s x) (ih _)

theorem State.putPa_same (s : State) (ctx pa : Nat) (bs : List Byte) (ag : Agent) (p : Aspect) (hm : p ≠ .hbm) (hl : p ≠ .links) :
    s.same (s.putPa ctx pa bs ag) p := by
  unfold State.putPa
  split
  · exact s.hbmPut_same _ _ p hm
  · exact (s.forwardFor_onlyLinks _).same p hl

theorem State.putReport_same (s : State) (ctx pa : Nat) (bs : List Byte) (ag : Agent) (p : Aspect) (hm : p ≠ .hbm) (hl : p ≠ .links) :
    s.same (s.putReport ctx pa bs ag) p := State.foldl_same (fun t _ => t.putPa_same _ _ _ _ p hm hl) _ _

theorem State.writeCharges_same (s : State) (ctx rid : Nat) (p : Aspect) (hm : p ≠ .hbm) : s.same (s.writeCharges ctx rid) p := by
  unfold State.writeCharges
  split
  · exact s.same_refl p
  · exact State.foldl_same (fun t _ => State.same_trans _ _ _ _ (t.hbmPut_same _ _ p hm) (State.hbmPut_same _ _ _ p hm)) _ _

theorem State.chargeHbm_same (s : State) (ctx : Nat) (p : Aspect) (hc : p ≠ .contexts) (hm : p ≠ .hbm) : s.same (s.chargeHbm ctx) p := by
  unfold State.chargeHbm
  split
  · exact s.same_refl p
  · exact State.foldl_same (fun t _ => State.same_trans _ _ _ _ (t.onCtx_same _ _ p hc) (State.hbmPut_same _ _ _ p hm)) _ _

theorem assocGet_assocMap_ne {α : Type} {l : List (Nat × α)} {k n : Nat} (h : n ≠ k) (f : α → α) : assocGet (assocMap l k f) n = assocGet l n := by
  induction l with
  | nil => rfl
  | cons x l ih =>
    rw [assocMap, List.map_cons]
    by_cases hx : x.1 = k
    · rw [if_pos hx, assocGet, assocGet, if_neg (fun e : x.1 = n => h (e.symm.trans hx)), if_neg (fun e : x.1 = n => h (e.symm.trans hx))]
      exact ih
    · rw [if_neg hx, assocGet, assocGet]
      exact ite_congr rfl (fun _ => rfl) fun _ => ih

theorem State.onCtx_ctx_ne (s : State) {n m : Nat} (h : m ≠ n) (f : Context → Context) : (s.onCtx n f).ctx m = s.ctx m := assocGet_assocMap_ne h f

/-- R265: HUSED of one node, in its context and in memory. -/
def State.chargeNode (s : State) (n a v : Nat) : State :=
  (s.onCtx n fun c => c.onRcbs [a] fun x => { x with hused := v }).hbmPutVal (paLocal a + 40) 8 v

theorem State.chargeNode_ctx (s : State) (n a v m : Nat) :
    (s.chargeNode n a v).ctx m = (s.onCtx n fun c => c.onRcbs [a] fun x => { x with hused := v }).ctx m := rfl

theorem State.chargeNodes_ctx (n : Nat) (g : Rcb → Nat) (l : List Rcb) (s : State) (c : Context) (hc : s.ctx n = some c) :
    s.otherCtx (l.foldl (fun t r => t.chargeNode n r.addr (g r)) s) n ∧
      ∃ m : List Rcb, m.length = c.rcbs.length ∧ (l.foldl (fun t r => t.chargeNode n r.addr (g r)) s).ctx n = some { c with rcbs := m } := by
  induction l generalizing s c with
  | nil => exact ⟨fun _ _ => rfl, c.rcbs, rfl, hc⟩
  | cons r l ih =>
    obtain ⟨hother, m, hm, hk⟩ := ih (s.chargeNode n r.addr (g r)) (c.onRcbs [r.addr] fun x => { x with hused := g r }) ((s.chargeNode_ctx ..).trans (State.onCtx_ctx_some hc _))
    exact ⟨fun j hj => (hother j hj).trans ((s.chargeNode_ctx ..).trans (s.onCtx_ctx_ne hj _)), m, hm.trans (List.length_map _), hk⟩

/-- R265, R266: charging writes HUSED of the nodes of one context and nothing else of any. -/
theorem State.chargeHbm_ctx (s : State) (n : Nat) : s.otherCtx (s.chargeHbm n) n ∧
    ∀ c, s.ctx n = some c → ∃ l : List Rcb, l.length = c.rcbs.length ∧ (s.chargeHbm n).ctx n = some { c with rcbs := l } := by
  unfold State.chargeHbm
  cases hc : s.ctx n with
  | none => exact ⟨fun _ _ => rfl, fun _ h => nomatch h⟩
  | some c =>
    obtain ⟨hother, hown⟩ := State.chargeNodes_ctx n (fun r => s.hbmUsed n c r.addr) c.rcbs s c hc
    exact ⟨hother, fun _ h => Option.some.inj h ▸ hown⟩

theorem State.dropLines_onlyLinks (s : State) (ag : Agent) : s.OnlyLinks (s.dropLines ag) := .of_links s _

theorem emptied {c : CmdClaim} {P : Prop} : c ∈ ([] : List CmdClaim) → P := (nomatch ·)

end Sys2Proof.Machine
end

section
-- One declaration after another: the whole text is checked in one process, of bounded memory.
set_option Elab.async false
/-! SUPPORT. The commands of contexts (13_context R260 to R270): CREATE, DESTROY, REPLENISH and CTX_READ. -/

namespace Sys2Proof.Machine

/-! ## Bodies of context commands -/

theorem ctxCmd_bad_iff (r : List Byte) : (ctxCmd r).bad = true ↔ ¬ctxWell r := by
  rw [ctxCmd, ctxWell, Bool.or_eq_true, bne_iff_ne, Bool.not_eq_true', not_and_or, Bool.not_eq_true]

theorem ctxCmd_good {r : List Byte} (h : ctxWell r) : (ctxCmd r).bad = false :=
  Bool.eq_false_iff.2 fun hb => (ctxCmd_bad_iff r).1 hb h

/-- R270: a context command looks at its fields, then acts. -/
def ctxBody (act : XCmd → State → CmdEnd) (r : List Byte) (s : State) : CmdEnd :=
  if (ctxCmd r).bad then .done stBadCmd s else act (ctxCmd r) s

theorem ctxBody_well {r : List Byte} (h : ctxWell r) (act : XCmd → State → CmdEnd) (s : State) : ctxBody act r s = act (ctxCmd r) s :=
  if_neg (Bool.eq_false_iff.1 (ctxCmd_good h))

/-- A context command whose fields are well formed. -/
theorem ctxCommand_holds (c : CmdClaim) {i : Instr} (act : XCmd → State → CmdEnd) (hx : ∀ s, exec i s = ctxCommand c.op c.cmd s act)
    (hb : ∀ r s, c.pre r s → ctxWell r ∧ ∃ u, (act (ctxCmd r) s).Ends s c.bell c.cmd (c.status r s) u ∧ c.post r s (c.does r s) u ∧
      ∀ p, p ∉ c.parts → (c.does r s).same u p) (hbell : c.bell = .ctx := by rfl) (hn : c.named = true := by rfl)
    (hal : c.aligned = true := by rfl) : c.Holds i := by
  refine CmdClaim.holds_of_body c (ok := (· == c.op)) (ctxBody act) (fun s => ?_) (beq_self_eq_true c.op) hal fun r s _ hpre => ?_
  · rw [hx, hbell, hn]; rfl
  · obtain ⟨hwell, u, hends, hrest⟩ := hb r s hpre
    exact ⟨u, ctxBody_well hwell act s ▸ hends, hrest⟩

/-- A context command that is refused after its fields. -/
theorem ctxRefusal_holds {i : Instr} {op cmd st : Nat} {pre : List Byte → State → Prop} (act : XCmd → State → CmdEnd)
    (hx : ∀ s, exec i s = ctxCommand op cmd s act) (hb : ∀ r s, pre r s → ctxWell r ∧ act (ctxCmd r) s = .done st s) :
    (refusal .ctx op cmd true st pre).Holds i :=
  ctxCommand_holds (refusal .ctx op cmd true st pre) act hx fun r s hpre =>
    ⟨(hb r s hpre).1, s, (hb r s hpre).2, trivial, fun p _ => s.same_refl p⟩

/-- R270: a context command whose reserved bytes are not zero. -/
theorem ctxBad_holds {i : Instr} {op cmd : Nat} {pre : List Byte → State → Prop} (act : XCmd → State → CmdEnd)
    (hx : ∀ s, exec i s = ctxCommand op cmd s act) (hb : ∀ r s, pre r s → ¬ctxWell r ∨ act (ctxCmd r) s = .done 6 s) :
    (refusal .ctx op cmd true 6 pre).Holds i := by
  refine refusal_holds (ok := (· == op)) (ctxBody act) hx (beq_self_eq_true op) fun r s _ hpre => ?_
  by_cases hbad : (ctxCmd r).bad = true
  · exact if_pos hbad
  · exact (if_neg hbad).trans ((hb r s hpre).resolve_left fun hn => hbad ((ctxCmd_bad_iff r).2 hn))

/-! ## CREATE (R260 to R262) -/

/-- The state with the context of a root in it and its counters cleared. -/
def State.withContext (s : State) (n : Nat) (root : RootPart) (rcb : Rcb) : State :=
  { s with
    ctxs := assocSet s.ctxs n (newContext root rcb)
    ctrs := s.ctrs.filter fun c => !(decide (root.ctrfirst ≤ c.1) && decide (c.1 < root.ctrfirst + root.ctrcount)) }

theorem State.withContext_same (s : State) (n : Nat) (root : RootPart) (rcb : Rcb) (p : Aspect) (hx : p ≠ .contexts) (hc : p ≠ .counters) :
    s.same (s.withContext n root rcb) p := by
  have h := s.same_refl p
  cases p with
  | contexts => exact absurd rfl hx
  | counters => exact absurd rfl hc
  | _ => exact h

theorem State.emptyRing_same (s : State) (ctx : Nat) (r : RootPart) (p : Aspect) (hm : p ≠ .hbm) (hl : p ≠ .links) :
    s.same (s.emptyRing ctx r) p := by
  unfold State.emptyRing
  dsimp only
  split
  · exact s.putPa_same _ _ _ _ p hm hl
  · exact State.same_trans _ _ _ _ (s.putPa_same _ _ _ _ p hm hl) ((State.ctrl_onlyLinks _ _ _ _ _ _ _ _).same p hl)

/-- What CREATE writes besides the context: the notification queue's header, the trace ring's and the charges. -/
def State.createdRings (s : State) (n : Nat) (root : RootPart) : State :=
  ((s.hbmPutVal (paLocal root.nqbase) 16 0).hbmPutVal (paLocal root.nqbase + 16) 4 0).emptyRing n root

theorem State.createdRings_same (s : State) (n : Nat) (root : RootPart) (p : Aspect) (hm : p ≠ .hbm) (hl : p ≠ .links) :
    s.same (s.createdRings n root) p :=
  State.same_trans _ _ _ _ (State.same_trans _ _ _ _ (s.hbmPut_same _ _ p hm) (State.hbmPut_same _ _ _ p hm)) (State.emptyRing_same _ _ _ p hm hl)

theorem State.createCtx_eq (s : State) (n : Nat) (root : RootPart) (rcb : Rcb) :
    s.createCtx n root rcb = (((s.withContext n root rcb).createdRings n root).chargeHbm n).writeCharges n 0 := rfl

theorem State.createCtx_same (s : State) (n : Nat) (root : RootPart) (rcb : Rcb) (p : Aspect)
    (h : p ∉ [Aspect.contexts, .counters, .hbm, .links]) : s.same (s.createCtx n root rcb) p := by
  simp only [List.mem_cons, List.not_mem_nil, or_false, not_or] at h
  obtain ⟨hx, hc, hm, hl⟩ := h
  rw [State.createCtx_eq]
  exact State.same_trans _ _ _ _ (State.same_trans _ _ _ _ (State.same_trans _ _ _ _ (s.withContext_same n root rcb p hx hc)
    (State.createdRings_same _ n root p hm hl)) (State.chargeHbm_same _ n p hx hm)) (State.writeCharges_same _ n 0 p hm)

theorem State.withContext_ctr {s : State} {n c : Nat} {root : RootPart} {rcb : Rcb}
    (h : root.ctrfirst ≤ c ∧ c < root.ctrfirst + root.ctrcount) : (s.withContext n root rcb).ctr c = 0 := by
  rw [State.ctr_eq, State.withContext, assocGet_filter s.ctrs fun k => !(decide (root.ctrfirst ≤ k) && decide (k < root.ctrfirst + root.ctrcount))]
  simp [h.1, h.2]

theorem State.createCtx_created (s : State) (n : Nat) (rcb : List Byte) (x : Rcb) : s.created (s.createCtx n (rootPartOf rcb) x) n rcb := by
  generalize hroot : rootPartOf rcb = root
  generalize hu : ((s.withContext n root x).createdRings n root).chargeHbm n = u
  have hctxs : ((s.withContext n root x).createdRings n root).ctxs = (s.withContext n root x).ctxs :=
    State.createdRings_same _ n root .contexts (by simp) (by simp)
  have hnew : ((s.withContext n root x).createdRings n root).ctx n = some (newContext root x) := by
    rw [State.ctx, hctxs, State.withContext, assocGet_assocSet, if_pos rfl]
  obtain ⟨hother, hown⟩ := State.chargeHbm_ctx ((s.withContext n root x).createdRings n root) n
  rw [hu] at hother hown
  obtain ⟨l, hl, hk⟩ := hown _ hnew
  have hsame (p : Aspect) (hm : p ≠ .hbm) : u.same (s.createCtx n root x) p := by
    rw [State.createCtx_eq, hu]
    exact u.writeCharges_same n 0 p hm
  have hctx (m : Nat) : (s.createCtx n root x).ctx m = u.ctx m := congrArg (assocGet · m) (hsame .contexts (by simp))
  refine ⟨⟨_, (hctx n).trans hk, rfl, hroot.symm, hl, rfl, rfl, rfl, rfl, rfl, rfl, rfl, rfl, rfl, rfl, fun c hc => ?_⟩, fun m hm => ?_⟩
  · have hgrant : root.ctrfirst ≤ c ∧ c < root.ctrfirst + root.ctrcount := by
      rwa [Context.grants, Bool.and_eq_true, decide_eq_true_eq, decide_eq_true_eq] at hc
    have hctrs : (s.createCtx n root x).ctrs = (s.withContext n root x).ctrs := by
      refine (hsame .counters (by simp)).trans (hu ▸ ?_)
      exact State.same_trans _ _ _ _ (State.createdRings_same _ n root .counters (by simp) (by simp))
        (State.chargeHbm_same _ n .counters (by simp) (by simp))
    rw [State.ctr_eq, hctrs, ← State.ctr_eq]
    exact State.withContext_ctr hgrant
  · rw [hctx m, hother m hm, State.ctx, hctxs, State.withContext, assocGet_assocSet, if_neg hm]
    rfl

theorem create_holds (cmd : BitVec 52) : ∀ c ∈ ctxCommands (.create cmd), c.Holds (.create cmd) := by
  have hx (s : State) : exec (.create cmd) s = ctxCommand 1 cmd.toNat s _ := show execCreate cmd s = _ from rfl
  refine List.forall_mem_cons.2 ⟨?_, List.forall_mem_cons.2 ⟨?_, List.forall_mem_cons.2 ⟨?_, List.forall_mem_cons.2 ⟨?_,
    List.forall_mem_cons.2 ⟨?_, List.forall_mem_nil _⟩⟩⟩⟩⟩
  · refine ctxCommand_holds _ _ hx fun r s ⟨hwell, hnone, hat, hroot, hfree⟩ => ⟨hwell, s.createCtx (recField r 2 1)
      (rootPartOf (s.rcbBytes (recField r 8 8))) { rcbOf (recField r 8 8) (s.rcbBytes (recField r 8 8)) with named := true }, ?_,
      s.createCtx_created _ _ _, fun p hp => s.createCtx_same _ _ _ p hp⟩
    have hnone' : s.ctx (recField r 2 1) = none := hnone
    simp only [CmdEnd.Ends, ctxCmd, hnone', hat, hroot, hfree, Option.isSome_none, Bool.false_eq_true, if_false, Bool.not_true, Bool.or_self, stOk]
  · refine ctxRefusal_holds _ hx fun r s ⟨hwell, hsome⟩ => ⟨hwell, if_pos hsome⟩
  · refine ctxRefusal_holds _ hx fun r s ⟨hwell, hnone, hbad⟩ => ⟨hwell, ?_⟩
    have hnone' : s.ctx (recField r 2 1) = none := hnone
    have hbad' : (!s.rcbAt (recField r 8 8) || !s.rootOk (s.rcbBytes (recField r 8 8))) = true := by
      rw [Bool.or_eq_true, Bool.not_eq_true', Bool.not_eq_true']
      exact hbad
    simp only [ctxCmd, hnone', hbad', Option.isSome_none, Bool.false_eq_true, if_false, if_true, stBadRcb]
  · refine ctxRefusal_holds _ hx fun r s ⟨hwell, hnone, hat, hroot, hconf⟩ => ⟨hwell, ?_⟩
    have hnone' : s.ctx (recField r 2 1) = none := hnone
    simp only [ctxCmd, hnone', hat, hroot, hconf, Option.isSome_none, Bool.false_eq_true, if_false, Bool.not_true, Bool.or_self, if_true, stConflict]
  · exact ctxBad_holds _ hx fun r s h => .inl h

/-! ## DESTROY (R260, R269) -/

theorem State.closeQp_onlyLinks (s : State) (q : QPair) : s.OnlyLinks (s.closeQp q) := by
  unfold State.closeQp
  split
  · exact .of_links s _
  · exact (s.sendQp_onlyLinks _ _).trans (.of_links _ _)
  · exact .refl s

theorem WSlot.cancelled_st (x : WSlot) : x.cancelled.st ≠ .armed := by
  unfold WSlot.cancelled
  split
  · exact (nomatch ·)
  · next h => rw [h]; exact (nomatch ·)
  · next h _ => exact h

/-- R269: queue pairs close after the slots are cancelled. -/
theorem State.cancelSlots_onlyLinks (s : State) (n : Nat) :
    (s.onCtx n fun c => { c with slots := c.slots.map fun x => (x.1, x.2.cancelled) }).OnlyLinks (s.cancelSlots n) :=
  State.OnlyLinks.foldl (fun t q => t.closeQp_onlyLinks q) _ _

theorem State.startDrain_fe (s : State) (n cmd : Nat) :
    (∀ q ∈ (s.startDrain n cmd).fe.queues, q.2.ctx ≠ n) ∧ ∀ e ∈ (s.startDrain n cmd).fe.calendar, e.ctx ≠ n := by
  have hfe : (s.startDrain n cmd).fe = ((s.onCtx n fun c => { c with st := .draining, cmd := some cmd }).cancelCtx n).fe :=
    (State.cancelSlots_onlyLinks _ n).same .frontEnd (by simp)
  rw [hfe]
  refine ⟨fun q hq => ?_, fun e he => ?_⟩
  · exact bne_iff_ne.1 (List.mem_filter.1 hq).2
  · exact bne_iff_ne.1 (List.mem_filter.1 he).2

theorem State.startDrain_slots (s : State) (n cmd : Nat) (k : Context) (h : (s.startDrain n cmd).ctx n = some k) :
    ∀ x ∈ k.slots, x.2.st ≠ .armed := by
  have hctxs : (s.startDrain n cmd).ctx n = (((s.onCtx n fun c => { c with st := .draining, cmd := some cmd }).cancelCtx n).onCtx n fun c =>
      { c with slots := c.slots.map fun x => (x.1, x.2.cancelled) }).ctx n :=
    congrArg (assocGet · n) ((State.cancelSlots_onlyLinks _ n).same .contexts (by simp))
  rw [hctxs, State.onCtx_ctx] at h
  obtain ⟨c, -, rfl⟩ := Option.map_eq_some_iff.1 h
  intro x hx
  obtain ⟨y, -, rfl⟩ := List.mem_map.1 hx
  exact y.2.cancelled_st

theorem destroy_holds (cmd : BitVec 52) : ∀ c ∈ ctxCommands (.destroy cmd), c.Holds (.destroy cmd) := by
  have hx (s : State) : exec (.destroy cmd) s = ctxCommand 2 cmd.toNat s _ := show execDestroy cmd s = _ from rfl
  refine List.forall_mem_cons.2 ⟨?_, List.forall_mem_cons.2 ⟨?_, List.forall_mem_cons.2 ⟨?_, List.forall_mem_cons.2 ⟨?_,
    List.forall_mem_cons.2 ⟨?_, List.forall_mem_nil _⟩⟩⟩⟩⟩
  · refine ctxCommand_holds _ _ hx fun r s ⟨hwell, k, hk, hst⟩ => ⟨hwell, _, .inl ⟨s.startDrain (recField r 2 1) cmd.toNat, ?_, rfl⟩,
      ⟨(s.startDrain_fe _ _).1, (s.startDrain_fe _ _).2, fun k hk => s.startDrain_slots _ _ k hk⟩, fun p _ => State.same_refl _ p⟩
    have hk' : s.ctx (recField r 2 1) = some k := hk
    obtain hst | hst := hst <;> simp only [ctxCmd, hk', hst]
  · refine ctxCommand_holds _ _ hx fun r s ⟨hwell, k, hk, hst⟩ => ⟨hwell, _, .inr ⟨?_, rfl⟩, trivial, fun p _ => State.same_refl _ p⟩
    have hk' : s.ctx (recField r 2 1) = some k := hk
    simp only [ctxCmd, hk', hst]
  · refine ctxRefusal_holds _ hx fun r s ⟨hwell, k, hk, hst⟩ => ⟨hwell, ?_⟩
    have hk' : s.ctx (recField r 2 1) = some k := hk
    obtain hst | hst := hst <;> simp only [ctxCmd, hk', hst, stBusy]
  · refine ctxRefusal_holds _ hx fun r s ⟨hwell, hnone⟩ => ⟨hwell, ?_⟩
    have hnone' : s.ctx (recField r 2 1) = none := hnone
    simp only [ctxCmd, hnone', stNoCtx]
  · exact ctxBad_holds _ hx fun r s h => .inl h

/-! ## REPLENISH (R260, R270) -/

/-- A replenished node: its budgets grow, up to their greatest value. -/
def replenished (core hbm : Nat) (x : Rcb) : Rcb :=
  { x with cbudget := min (x.cbudget + core) (2 ^ 64 - 1), hbudget := min (x.hbudget + hbm) (2 ^ 64 - 1) }

/-- R262, R263: REPLENISH accepts the record that it names, where it can. -/
theorem replenish_accepts {r : List Byte} {s : State} {k : Context} (hk : s.cmdCtx r = some k) :
    (if (s.rcbAt (ctxCmd r).addr && k.rcbs.all fun x => x.addr != (ctxCmd r).addr) = true then
      (s.acceptRegion (ctxCmd r).ctx (recField (s.rcbBytes (ctxCmd r).addr) 8 2)).getD s else s) = s.replenishable r := by
  rw [State.replenishable, hk]
  simp only [ctxCmd, Bool.and_eq_true]

theorem replenish_found {r : List Byte} {u : State} {k : Context} (hk : u.cmdCtx r = some k) :
    ((u.ctx (ctxCmd r).ctx).any fun k => k.rcbs.any fun x => x.addr == (ctxCmd r).addr) = true ↔ ∃ x ∈ k.rcbs, x.addr = recField r 8 8 := by
  have hk' : u.ctx (ctxCmd r).ctx = some k := hk
  rw [hk', Option.any_some, List.any_eq_true]
  simp only [beq_iff_eq, ctxCmd]

theorem replenish_holds (cmd : BitVec 52) : ∀ c ∈ ctxCommands (.replenish cmd), c.Holds (.replenish cmd) := by
  have hx (s : State) : exec (.replenish cmd) s = ctxCommand 3 cmd.toNat s _ := show execReplenish cmd s = _ from rfl
  refine List.forall_mem_cons.2 ⟨?_, List.forall_mem_cons.2 ⟨?_, List.forall_mem_cons.2 ⟨?_, List.forall_mem_cons.2 ⟨?_,
    List.forall_mem_cons.2 ⟨?_, List.forall_mem_nil _⟩⟩⟩⟩⟩
  · refine ctxCommand_holds _ _ hx fun r s ⟨hwell, hpage, ⟨k, hk, hb, hd⟩, k', hk', hin⟩ => ⟨hwell,
      (s.replenishable r).onCtx (recField r 2 1) fun k => k.onRcbs [recField r 8 8] (replenished (recField r 16 8) (recField r 24 8)), ?_,
      ⟨fun m hm => State.onCtx_ctx_ne _ hm _, fun k'' h => State.onCtx_ctx_some h _⟩, fun p hp => State.onCtx_same _ _ _ p (by simpa using hp)⟩
    have hpage' : ¬ (ctxCmd r).hbm % 2 ^ 16 ≠ 0 := not_not.2 hpage
    have hst : ¬ (k.st = .building ∨ k.st = .draining) := not_or.2 ⟨hb, hd⟩
    have hctx : s.ctx (ctxCmd r).ctx = some k := hk
    simp only [CmdEnd.Ends, hctx, if_neg hpage', if_neg hst, replenish_accepts hk, if_pos ((replenish_found hk').2 hin)]
    rfl
  · refine ctxRefusal_holds _ hx fun r s ⟨hwell, hpage, ⟨k, hk, hb, hd⟩, hout⟩ => ⟨hwell, ?_⟩
    have hpage' : ¬ (ctxCmd r).hbm % 2 ^ 16 ≠ 0 := not_not.2 hpage
    have hst : ¬ (k.st = .building ∨ k.st = .draining) := not_or.2 ⟨hb, hd⟩
    have hctx : s.ctx (ctxCmd r).ctx = some k := hk
    have hno : ¬ (((s.replenishable r).ctx (ctxCmd r).ctx).any fun k => k.rcbs.any fun x => x.addr == (ctxCmd r).addr) = true := fun h => by
      obtain ⟨k', hk', -⟩ := (Option.any_eq_true _ _).1 h
      obtain ⟨x, hx, ha⟩ := (replenish_found hk').1 h
      exact hout k' hk' x hx ha
    simp only [hctx, if_neg hpage', if_neg hst, replenish_accepts hk, if_neg hno, stBadRcb]
  · refine ctxRefusal_holds _ hx fun r s ⟨hwell, hpage, k, hk, hst⟩ => ⟨hwell, ?_⟩
    have hpage' : ¬ (ctxCmd r).hbm % 2 ^ 16 ≠ 0 := not_not.2 hpage
    have hctx : s.ctx (ctxCmd r).ctx = some k := hk
    simp only [hctx, if_neg hpage', if_pos hst, stBusy]
  · refine ctxRefusal_holds _ hx fun r s ⟨hwell, hnone⟩ => ⟨hwell, ?_⟩
    have hnone' : s.ctx (ctxCmd r).ctx = none := hnone
    simp only [hnone', stNoCtx]
  · refine ctxBad_holds _ hx fun r s h => h.imp_right fun ⟨hpage, hsome⟩ => ?_
    obtain ⟨k, hk⟩ := Option.isSome_iff_exists.1 hsome
    have hctx : s.ctx (ctxCmd r).ctx = some k := hk
    have hpage' : (ctxCmd r).hbm % 2 ^ 16 ≠ 0 := hpage
    simp only [hctx, if_pos hpage', stBadCmd]

/-! ## CTX_READ (R260, R265, R270) -/

theorem State.writeAllCharges_same (s : State) (n : Nat) (p : Aspect) (hc : p ≠ .contexts) (hm : p ≠ .hbm) : s.same (s.writeAllCharges n) p := by
  unfold State.writeAllCharges
  split
  · exact s.same_refl p
  · exact State.same_trans _ _ _ _ (s.chargeHbm_same n p hc hm) (State.foldl_same (fun t _ => t.hbmPut_same _ _ p hm) _ _)

theorem State.reportable_of_platform {s t : State} (h : s.same t .platform) {pa n : Nat} (hs : s.reportable pa n) : t.reportable pa n := by
  obtain ⟨hpart, hboot, -⟩ := h
  intro hown
  rw [State.isOwn, hboot] at hown
  rw [hpart]
  exact hs hown

theorem vector4_toList {α : Type} (v : Vector α 4) (d : α) : v.toList = [v.getD 0 d, v.getD 1 d, v.getD 2 d, v.getD 3 d] := by
  obtain ⟨⟨l⟩, hl⟩ := v
  match l, hl with
  | [_, _, _, _], _ => rfl

/-- R270: the layout of the status record of a context. -/
def Context.statusLayout (c : Context) : List (Nat × Nat) :=
  let word (g : FaultRec → Nat) : Nat := (c.fault.map g).getD 0
  [(1, c.st.code), (7, 0), (8, word fun f => f.cause.toNat), (8, word fun f => f.addr.toNat), (4, word fun f => f.group.toNat),
    (4, word fun f => f.further.toNat), (16, (c.digests.getD 0 0).toNat), (16, (c.digests.getD 1 0).toNat), (16, (c.digests.getD 2 0).toNat),
    (16, (c.digests.getD 3 0).toNat), (4, c.gendrop.toNat), (4, c.revoked.toNat), (8, ((c.rcb 0).map fun r => r.cusedNs / 1000).getD 0), (144, 0)]

theorem Context.statusRecord_eq (c : Context) : c.statusRecord = bytesOf c.statusLayout := by
  rw [Context.statusRecord, vector4_toList c.digests 0]
  simp only [Context.statusLayout, bytesOf, List.flatMap_cons, List.flatMap_nil, List.append_assoc, List.append_nil]

theorem Context.statusLayout_size (c : Context) : (c.statusLayout.map (·.1)).sum = 256 := by
  simp only [Context.statusLayout, List.map_cons, List.map_nil, List.sum_cons, List.sum_nil, Nat.reduceAdd]

theorem faultWord_eq {n : Nat} (f : Option FaultRec) (g : FaultRec → BitVec n) : (f.map fun x => (g x).toNat).getD 0 = ((f.map g).getD 0).toNat := by
  cases f <;> simp

theorem ctxRead_holds (cmd : BitVec 52) : ∀ c ∈ ctxCommands (.ctxRead cmd), c.Holds (.ctxRead cmd) := by
  have hx (s : State) : exec (.ctxRead cmd) s = ctxCommand 4 cmd.toNat s _ := show execCtxRead cmd s = _ from rfl
  refine List.forall_mem_cons.2 ⟨?_, List.forall_mem_cons.2 ⟨?_, List.forall_mem_cons.2 ⟨?_, List.forall_mem_nil _⟩⟩⟩
  · refine ctxCommand_holds _ _ hx fun r s ⟨hwell, hsome, hrep⟩ => ?_
    obtain ⟨k, hk⟩ := Option.isSome_iff_exists.1 hsome
    have hctx : s.ctx (ctxCmd r).ctx = some k := hk
    refine ⟨hwell, (s.writeAllCharges (recField r 2 1)).putReport (recField r 2 1) (recField r 8 8) k.statusRecord (.bell cmd.toNat), ?_,
      fun k' hk' => ?_, fun p hp => ?_⟩
    · have hrep' := State.reportable_of_platform (s.writeAllCharges_same (recField r 2 1) .platform (by simp) (by simp)) hrep
      have hlen : k.statusRecord.length = 256 := by rw [k.statusRecord_eq, bytesOf_length, k.statusLayout_size]
      simp only [CmdEnd.Ends, hctx]
      exact State.reportAt_done hlen hrep'
    · obtain rfl : k = k' := Option.some.inj (hk.symm.trans hk')
      refine State.reports_bytesOf _ _ _ _ _ k.statusLayout _ k.statusRecord_eq k.statusLayout_size ?_ ?_
      · simp [placedAt, Context.statusLayout, faultWord_eq]
      · simp [placedAt, Context.statusLayout, faultWord_eq]
    · simp only [List.mem_cons, List.not_mem_nil, or_false, not_or] at hp
      exact State.putReport_same _ _ _ _ _ p hp.1 hp.2
  · refine ctxRefusal_holds _ hx fun r s ⟨hwell, hnone⟩ => ⟨hwell, ?_⟩
    have hnone' : s.ctx (ctxCmd r).ctx = none := hnone
    simp only [hnone', stNoCtx]
  · exact ctxBad_holds _ hx fun r s h => .inl h

/-- Settles O49: each command by its body at its turn, row by row of the table. -/
theorem contextCommands : Obligations.ContextCommands := by
  intro i c
  cases i with
  | create cmd => exact create_holds cmd c
  | destroy cmd => exact destroy_holds cmd c
  | replenish cmd => exact replenish_holds cmd c
  | ctxRead cmd => exact ctxRead_holds cmd c
  | _ => exact emptied

end Sys2Proof.Machine
end

section
-- One declaration after another: the whole text is checked in one process, of bounded memory.
set_option Elab.async false
/-! SUPPORT. The commands of queues (14_queue R272 to R282): ENABLE, DISABLE, RESUME, FLUSH and READ. -/

namespace Sys2Proof.Machine

/-! ## Bodies of queue commands -/

theorem recField_lt (r : List Byte) (off n : Nat) : recField r off n < 2 ^ (8 * n) := by
  refine Nat.lt_of_lt_of_le (leVal_lt _) (Nat.pow_le_pow_right (by decide) (Nat.mul_le_mul_left 8 ?_))
  rw [List.length_take]
  exact Nat.min_le_left _ _

theorem queueCmd_bad_iff (r : List Byte) : (queueCmd r).bad = true ↔ ¬queueWell r := by
  have hlt := recField_lt r 4 2
  have hbits : bitsOf (recField r 4 2) 10 6 = 0 ↔ recField r 4 2 < 1024 := by
    rw [bitsOf, Nat.mod_eq_of_lt (by omega)]
    omega
  rw [queueCmd, queueWell, ← hbits]
  simp only [Bool.or_eq_true, bne_iff_ne, Bool.not_eq_true', not_and_or, Bool.not_eq_true, or_assoc, ne_eq]

theorem queueCmd_queue {r : List Byte} (h : queueWell r) : (queueCmd r).queue = recField r 4 2 := by
  obtain ⟨-, hlt, -⟩ := h
  rw [queueCmd, bitsOf, Nat.pow_zero, Nat.div_one]
  exact Nat.mod_eq_of_lt hlt

/-- R282: a queue command looks at its fields, its context and its queue, then acts. -/
def queueBody (act : QCmd → Context → State → CmdEnd) (r : List Byte) (s : State) : CmdEnd :=
  if (queueCmd r).bad then .done stBadCmd s
  else
    match s.ctx (queueCmd r).ctx with
    | none => .done stNoCtx s
    | some k => if k.grantsQueue (queueCmd r).queue then act (queueCmd r) k s else .done stNoQueue s

theorem queueBody_bad {r : List Byte} (h : ¬queueWell r) (act : QCmd → Context → State → CmdEnd) (s : State) :
    queueBody act r s = .done 6 s := if_pos ((queueCmd_bad_iff r).2 h)

theorem queueBody_well {r : List Byte} (h : queueWell r) (act : QCmd → Context → State → CmdEnd) (s : State) :
    queueBody act r s = match s.cmdCtx r with
      | none => .done 5 s
      | some k => if k.root.qfirst ≤ recField r 4 2 ∧ recField r 4 2 < k.root.qfirst + k.root.qcount then act (queueCmd r) k s
        else .done 7 s := by
  refine (if_neg fun hb => (queueCmd_bad_iff r).1 hb h).trans ?_
  have hctx : s.ctx (queueCmd r).ctx = s.cmdCtx r := rfl
  rw [hctx]
  cases s.cmdCtx r with
  | none => rfl
  | some k => simp only [Context.grantsQueue, queueCmd_queue h, Bool.and_eq_true, decide_eq_true_eq, stNoQueue]

theorem queueBody_named {r : List Byte} {s : State} {k : Context} (h : s.queueNamed r k) (act : QCmd → Context → State → CmdEnd) :
    queueBody act r s = act (queueCmd r) k s := by
  obtain ⟨hwell, hk, hlo, hhi⟩ := h
  rw [queueBody_well hwell, hk]
  exact if_pos ⟨hlo, hhi⟩

section Rows
variable {i : Instr} {op : Nat} {cmd : BitVec 52} {act : QCmd → Context → State → CmdEnd}
  (hx : ∀ s, exec i s = queueCommand op cmd.toNat s act)
include hx

/-- R282: what every queue command refuses. -/
theorem queueRefusals_hold : ∀ c ∈ queueRefusals op cmd, c.Holds i := by
  refine List.forall_mem_cons.2 ⟨?_, List.forall_mem_cons.2 ⟨?_, List.forall_mem_cons.2 ⟨?_, List.forall_mem_nil _⟩⟩⟩
  · exact refusal_holds (ok := (· == op)) (queueBody act) hx (beq_self_eq_true op) fun r s _ hbad => queueBody_bad hbad act s
  · refine refusal_holds (ok := (· == op)) (queueBody act) hx (beq_self_eq_true op) fun r s _ ⟨hwell, hnone⟩ => ?_
    rw [queueBody_well hwell, hnone]
  · refine refusal_holds (ok := (· == op)) (queueBody act) hx (beq_self_eq_true op) fun r s _ ⟨hwell, k, hk, hout⟩ => ?_
    rw [queueBody_well hwell, hk]
    exact if_neg fun ⟨hlo, hhi⟩ => hout.elim (Nat.not_lt.2 hlo) (Nat.not_le.2 hhi)

/-- A queue command that is refused after its fields. -/
theorem queueRefusal_holds {st : Nat} {pre : List Byte → State → Prop}
    (hb : ∀ r s, pre r s → ∃ k, s.queueNamed r k ∧ act (queueCmd r) k s = .done st s) : (refusal .queue op cmd.toNat true st pre).Holds i := by
  refine refusal_holds (ok := (· == op)) (queueBody act) hx (beq_self_eq_true op) fun r s _ hpre => ?_
  obtain ⟨k, hk, hact⟩ := hb r s hpre
  exact (queueBody_named hk act).trans hact

/-- A queue command that is accepted. -/
theorem queueAccept_holds {pre : List Byte → State → Prop} {does : List Byte → State → State} {parts : List Aspect}
    {post : List Byte → State → State → State → Prop}
    (hb : ∀ r s, pre r s → ∃ k u, s.queueNamed r k ∧ act (queueCmd r) k s = .done 1 u ∧ post r s (does r s) u ∧
      ∀ p, p ∉ parts → (does r s).same u p) :
    CmdClaim.Holds { bell := .queue, op := op, cmd := cmd.toNat, pre := pre, does := does, parts := parts, post := post } i := by
  refine CmdClaim.holds_of_body _ (ok := (· == op)) (queueBody act) hx (beq_self_eq_true op) rfl fun r s _ hpre => ?_
  obtain ⟨k, u, hk, hact, hrest⟩ := hb r s hpre
  exact ⟨u, (queueBody_named hk act).trans hact, hrest⟩

end Rows

/-! ## Queues by number -/

theorem State.onFe_same (s : State) (f : FrontEnd) (p : Aspect) (h : p ≠ .frontEnd) : s.same { s with fe := f } p := by
  have h' := s.same_refl p
  cases p with
  | frontEnd => exact absurd rfl h
  | _ => exact h'

theorem State.onHq_hq (s : State) (q : Nat) (f : HQueue → HQueue) : (s.onHq q f).hq q = (s.hq q).map f := assocGet_assocMap _ _ _

theorem State.onHq_hq_some {s : State} {q : Nat} {h : HQueue} (hq : s.hq q = some h) (f : HQueue → HQueue) : (s.onHq q f).hq q = some (f h) := by
  rw [State.onHq_hq, hq]; rfl

theorem State.onHq_otherHq (s : State) (q : Nat) (f : HQueue → HQueue) : s.otherHq (s.onHq q f) q := fun _ hm => assocGet_assocMap_ne hm f

theorem State.hq_frozen {s : State} {q : Nat} {k : Context} {h : HQueue} (hst : k.st = .ready) (hq : s.hq q = some h) (hf : h.st = .frozen) :
    s.frozenQueue q k = some h := by
  rw [State.frozenQueue, if_pos hst, hq]
  exact Option.filter_eq_some_iff.2 ⟨rfl, by rw [hf]; rfl⟩

theorem State.hq_notFrozen {s : State} {q : Nat} {k : Context} (h : k.st ≠ .ready ∨ ∀ x, s.hq q = some x → x.st ≠ .frozen) :
    s.frozenQueue q k = none := by
  rw [State.frozenQueue]
  split
  · next hst =>
    refine Option.filter_eq_none_iff.2 fun x hx hf => ?_
    exact h.elim (absurd hst) (fun h => h x hx (beq_iff_eq.1 hf))
  · rfl

/-! ## ENABLE (R272, R273) -/

/-- The state once ENABLE has written DONE and CCOUNT of the ring and made the queue. -/
def State.enabled (u : State) (q ring : Nat) (h : HQueue) : State :=
  let v := (u.hbmPutVal (ring + 16) 8 h.head).hbmPutVal (ring + 24) 8 0
  { v with fe := { v.fe with queues := assocSet v.fe.queues q h } }

theorem State.enabled_same (u : State) (q ring : Nat) (h : HQueue) (p : Aspect) (hf : p ≠ .frontEnd) (hm : p ≠ .hbm) :
    u.same (u.enabled q ring h) p :=
  State.same_trans _ _ _ _ (State.same_trans _ _ _ _ (u.hbmPut_same _ _ p hm) (State.hbmPut_same _ _ _ p hm)) (State.onFe_same _ _ p hf)

theorem State.enabled_hq (u : State) (q ring : Nat) (h : HQueue) :
    (u.enabled q ring h).hq q = some h ∧ u.otherHq (u.enabled q ring h) q := by
  refine ⟨?_, fun m hm => ?_⟩
  · exact (assocGet_assocSet ..).trans (if_pos rfl)
  · exact (assocGet_assocSet ..).trans (if_neg hm)

theorem State.hbmVal_lt (s : State) (la : Nat) : s.hbmVal la 8 < 2 ^ 64 := by
  have h := leVal_lt (s.hbmBytes la 8)
  rwa [s.hbmBytes_length] at h

theorem State.enabled_ring (u : State) (q ring : Nat) (h : HQueue) (hlt : h.head < 2 ^ 64) :
    memVal (u.enabled q ring h).mem.hbm (ring + 16) 8 = h.head ∧ memVal (u.enabled q ring h).mem.hbm (ring + 24) 8 = 0 := by
  have hmem : (u.enabled q ring h).mem.hbm = memPutVal (memPutVal u.mem.hbm (ring + 16) 8 h.head) (ring + 24) 8 0 := rfl
  rw [hmem]
  refine ⟨?_, ?_⟩
  · have hbytes := memBytes_put_other (memPutVal u.mem.hbm (ring + 16) 8 h.head) (ring + 16) 8 (ring + 24) (leBytes 8 0) (.inl (by omega))
    exact (congrArg leVal hbytes).trans ((memVal_putVal ..).trans (Nat.mod_eq_of_lt hlt))
  · rw [memVal_putVal, Nat.zero_mod]

theorem enable_holds (cmd : BitVec 52) : ∀ c ∈ queueCommands (.enable cmd), c.Holds (.enable cmd) := by
  have hx (s : State) : exec (.enable cmd) s = queueCommand 1 cmd.toNat s _ := show execEnable cmd s = _ from rfl
  refine List.forall_mem_append.2 ⟨List.forall_mem_cons.2 ⟨?_, List.forall_mem_cons.2 ⟨?_, List.forall_mem_cons.2 ⟨?_, List.forall_mem_nil _⟩⟩⟩,
    queueRefusals_hold hx⟩
  · refine queueAccept_holds hx fun r s ⟨⟨k, hk, hst⟩, hfree, hown, hctl, haccept⟩ => ?_
    obtain ⟨u, hu⟩ := Option.isSome_iff_exists.1 haccept
    have hq := queueCmd_queue hk.1
    have hfree' : s.hq (queueCmd r).queue = none := hq ▸ hfree
    have hown' : s.ownMemory (queueCmd r).addr 64 = true := hown
    have hctl' : s.ctlOk (s.hbmBytes (paLocal (queueCmd r).addr) 64) = true := hctl
    have hu' : s.acceptRegion (queueCmd r).ctx (recField (s.hbmBytes (paLocal (queueCmd r).addr) 64) 10 2) = some u := hu
    refine ⟨k, u.enabled (recField r 4 2) (paLocal (recField (s.ctlBytes r) 0 8))
      (hqOf (recField r 2 1) (u.hbmVal (paLocal (recField (s.ctlBytes r) 0 8) + 8) 8) (s.ctlBytes r)), hk, ?_, ?_, ?_⟩
    · simp only [hfree', hst, hown', hctl', hu', Option.isSome_none, bne_self_eq_false, Bool.or_self, Bool.false_eq_true, if_false, Bool.not_true]
      rw [hq]
      rfl
    · simp only [hu, Option.getD_some]
      refine ⟨_, (u.enabled_hq ..).1, ⟨rfl, rfl, rfl, rfl, rfl, rfl, rfl, rfl, rfl, rfl, rfl, rfl, rfl, rfl, rfl, rfl⟩, ?_, ?_, (u.enabled_hq ..).2⟩
      · exact (u.enabled_ring _ _ _ (u.hbmVal_lt _)).1
      · exact (u.enabled_ring _ _ _ (u.hbmVal_lt _)).2
    · intro p hp
      simp only [List.mem_cons, List.not_mem_nil, or_false, not_or] at hp
      simp only [hu, Option.getD_some]
      exact u.enabled_same _ _ _ p hp.1 hp.2
  · refine queueRefusal_holds hx fun r s ⟨k, hk, hbusy⟩ => ⟨k, hk, if_pos ?_⟩
    rw [queueCmd_queue hk.1, Bool.or_eq_true, bne_iff_ne]
    exact hbusy.symm
  · refine queueRefusal_holds hx fun r s ⟨k, hk, hst, hfree, hbad⟩ => ⟨k, hk, ?_⟩
    have hfree' : s.hq (queueCmd r).queue = none := queueCmd_queue hk.1 ▸ hfree
    simp only [hfree', hst, Option.isSome_none, bne_self_eq_false, Bool.or_self, Bool.false_eq_true, if_false]
    split
    · rfl
    · next hgood =>
      rw [Bool.or_eq_true, Bool.not_eq_true', Bool.not_eq_true', not_or] at hgood
      have hnone : s.acceptRegion (queueCmd r).ctx (recField (s.hbmBytes (paLocal (queueCmd r).addr) 64) 10 2) = none :=
        (hbad.resolve_left hgood.1).resolve_left hgood.2
      rw [hnone]
      rfl

/-! ## DISABLE, RESUME, FLUSH (R281) -/

theorem State.forget_onlyLinks (s : State) (q : Nat) : s.OnlyLinks (s.forget q) := (s.dropLines_onlyLinks _).trans (.of_links _ _)

theorem HQueue.inProgress_false {h : HQueue} (hi : ∀ e ∈ h.entries, e.st ≠ .started) : h.inProgress = false :=
  List.any_eq_false.2 fun e he => by simpa using hi e he

/-- The state once a queue is disabled. -/
def State.disabled (s : State) (q : Nat) : State :=
  { s.forget q with fe := { (s.forget q).fe with queues := assocDrop (s.forget q).fe.queues q } }

theorem State.disabled_same (s : State) (q : Nat) (p : Aspect) (hf : p ≠ .frontEnd) (hl : p ≠ .links) : s.same (s.disabled q) p :=
  State.same_trans _ _ _ _ ((s.forget_onlyLinks q).same p hl) (State.onFe_same _ _ p hf)

theorem State.disabled_hq (s : State) (q : Nat) : (s.disabled q).hq q = none ∧ s.otherHq (s.disabled q) q := by
  refine ⟨?_, fun m hm => ?_⟩
  · exact (assocGet_assocDrop ..).trans (if_pos rfl)
  · exact (assocGet_assocDrop ..).trans (if_neg hm)

theorem disable_holds (cmd : BitVec 52) : ∀ c ∈ queueCommands (.disable cmd), c.Holds (.disable cmd) := by
  have hx (s : State) : exec (.disable cmd) s = queueCommand 2 cmd.toNat s _ := show execDisable cmd s = _ from rfl
  refine List.forall_mem_append.2 ⟨List.forall_mem_cons.2 ⟨?_, List.forall_mem_cons.2 ⟨?_, List.forall_mem_nil _⟩⟩, queueRefusals_hold hx⟩
  · refine queueAccept_holds hx fun r s ⟨⟨k, hk⟩, hidle⟩ => ?_
    have hq := queueCmd_queue hk.1
    cases hh : s.hq (recField r 4 2) with
    | none =>
      have hh' : s.hq (queueCmd r).queue = none := hq ▸ hh
      refine ⟨k, s, hk, ?_, ⟨hh, fun _ _ => rfl⟩, fun p _ => s.same_refl p⟩
      simp only [hh']
      rfl
    | some h =>
      have hh' : s.hq (queueCmd r).queue = some h := hq ▸ hh
      obtain ⟨hst, hentries⟩ := hidle h hh
      have hfree : (h.inProgress || h.st == .cancelling) = false := by
        rw [HQueue.inProgress_false hentries, Bool.false_or, beq_eq_false_iff_ne]
        exact hst
      refine ⟨k, s.disabled (recField r 4 2), hk, ?_, s.disabled_hq _, fun p hp => ?_⟩
      · simp only [hh', hfree, Bool.false_eq_true, if_false]
        rw [hq]
        rfl
      · simp only [List.mem_cons, List.not_mem_nil, or_false, not_or] at hp
        exact s.disabled_same _ p hp.1 hp.2
  · refine queueRefusal_holds hx fun r s ⟨⟨k, hk⟩, h, hh, hbusy⟩ => ⟨k, hk, ?_⟩
    have hh' : s.hq (queueCmd r).queue = some h := (queueCmd_queue hk.1).symm ▸ hh
    have hbusy' : (h.inProgress || h.st == .cancelling) = true := by
      rw [Bool.or_eq_true, HQueue.inProgress, List.any_eq_true, beq_iff_eq, or_comm]
      simpa only [beq_iff_eq] using hbusy
    simp only [hh', hbusy', if_true]
    rfl

theorem resume_holds (cmd : BitVec 52) : ∀ c ∈ queueCommands (.resume cmd), c.Holds (.resume cmd) := by
  have hx (s : State) : exec (.resume cmd) s = queueCommand 3 cmd.toNat s _ := show execResume cmd s = _ from rfl
  refine List.forall_mem_append.2 ⟨List.forall_mem_cons.2 ⟨?_, List.forall_mem_cons.2 ⟨?_, List.forall_mem_nil _⟩⟩, queueRefusals_hold hx⟩
  · refine queueAccept_holds hx fun r s ⟨⟨k, hk, hst⟩, h, hh, hf⟩ => ⟨k, s.onHq (recField r 4 2) (·.activate), hk, ?_,
      ⟨s.onHq_otherHq _ _, fun x hx' => State.onHq_hq_some hx' _⟩, fun p hp => s.onFe_same _ p (by simpa using hp)⟩
    simp only [queueCmd_queue hk.1, State.hq_frozen hst hh hf, Option.isSome_some, if_true]
    rfl
  · refine queueRefusal_holds hx fun r s ⟨k, hk, hno⟩ => ⟨k, hk, ?_⟩
    simp only [queueCmd_queue hk.1, State.hq_notFrozen hno, Option.isSome_none, Bool.false_eq_true, if_false]
    rfl

theorem State.dropLaunches_hq (s : State) (q : Nat) : s.dropLaunches.hq q = s.hq q := rfl

theorem flush_holds (cmd : BitVec 52) : ∀ c ∈ queueCommands (.flush cmd), c.Holds (.flush cmd) := by
  have hx (s : State) : exec (.flush cmd) s = queueCommand 4 cmd.toNat s _ := show execFlush cmd s = _ from rfl
  refine List.forall_mem_append.2 ⟨List.forall_mem_cons.2 ⟨?_, List.forall_mem_cons.2 ⟨?_, List.forall_mem_nil _⟩⟩, queueRefusals_hold hx⟩
  · refine queueAccept_holds hx fun r s ⟨⟨k, hk, hst⟩, h, hh, hf⟩ => ?_
    simp only [hh]
    generalize hv : cancelAll (recField r 4 2) (s.tail h - h.head) s = v
    refine ⟨k, (v.onHq (recField r 4 2) (·.flushed h.bad)).dropLaunches, hk, ?_,
      ⟨fun m hm => (State.dropLaunches_hq _ m).trans (v.onHq_otherHq _ _ m hm), fun x hx' => ⟨h, rfl, ?_⟩⟩, fun p hp => ?_⟩
    · simp only [queueCmd_queue hk.1, State.hq_frozen hst hh hf, hv]
      rfl
    · exact (State.dropLaunches_hq _ _).trans (State.onHq_hq_some hx' _)
    · exact State.same_trans _ _ _ _ (v.onFe_same _ p (by simpa using hp)) (State.onFe_same _ _ p (by simpa using hp))
  · refine queueRefusal_holds hx fun r s ⟨k, hk, hno⟩ => ⟨k, hk, ?_⟩
    simp only [queueCmd_queue hk.1, State.hq_notFrozen hno]
    rfl

/-! ## READ (R282) -/

/-- R282: the layout of the report of a queue. -/
def HQueue.layout (h : HQueue) : List (Nat × Nat) :=
  [(1, h.st.code), (1, h.fault), (6, 0), (8, h.head), (8, h.done), (8, h.failed), (32, 0)]

def queueLayout : Option HQueue → List (Nat × Nat)
  | none => [(64, 0)]
  | some h => h.layout

theorem queueReport_eq (h : Option HQueue) : queueReport h = bytesOf (queueLayout h) := by
  cases h with
  | none => exact bytesOf_single 64
  | some h => simp only [queueReport, queueLayout, HQueue.layout, bytesOf, List.append_assoc, List.append_nil]

theorem queueLayout_size (h : Option HQueue) : ((queueLayout h).map (·.1)).sum = 64 := by cases h <;> rfl

theorem queueRead_holds (cmd : BitVec 52) : ∀ c ∈ queueCommands (.queueRead cmd), c.Holds (.queueRead cmd) := by
  have hx (s : State) : exec (.queueRead cmd) s = queueCommand 5 cmd.toNat s _ := show execQueueRead cmd s = _ from rfl
  refine List.forall_mem_append.2 ⟨List.forall_mem_cons.2 ⟨?_, List.forall_mem_nil _⟩, queueRefusals_hold hx⟩
  refine queueAccept_holds hx fun r s ⟨⟨k, hk⟩, hrep⟩ => ⟨k, s.putReport (recField r 2 1) (recField r 8 8) (queueReport (s.hq (recField r 4 2)))
    (.bell cmd.toNat), hk, ?_, ?_, fun p hp => ?_⟩
  · have hlen : (queueReport (s.hq (recField r 4 2))).length = 64 := by rw [queueReport_eq, bytesOf_length, queueLayout_size]
    rw [queueCmd_queue hk.1]
    exact State.reportAt_done hlen hrep
  · refine State.reports_bytesOf _ _ _ _ _ (queueLayout (s.hq (recField r 4 2))) _ (queueReport_eq _) (queueLayout_size _) ?_ ?_
    all_goals
      cases s.hq (recField r 4 2) with
      | none => simp [placedAt, queueLayout]
      | some h => cases hst : h.st <;> simp [placedAt, queueLayout, HQueue.layout, hst, QueueSt.code]
  · simp only [List.mem_cons, List.not_mem_nil, or_false, not_or] at hp
    exact State.putReport_same _ _ _ _ _ p hp.1 hp.2

theorem queueCommands_hold (i : Instr) (c : CmdClaim) : c ∈ queueCommands i → c.Holds i := by
  cases i with
  | enable cmd => exact enable_holds cmd c
  | disable cmd => exact disable_holds cmd c
  | resume cmd => exact resume_holds cmd c
  | flush cmd => exact flush_holds cmd c
  | queueRead cmd => exact queueRead_holds cmd c
  | _ => exact emptied

end Sys2Proof.Machine
end

section
-- One declaration after another: the whole text is checked in one process, of bounded memory.
set_option Elab.async false
/-! SUPPORT. What memory accesses and intervals leave as it was, the commands of barriers (20_barrier R312 to R320), and what every command
does before it is taken (R282). -/

namespace Sys2Proof.Machine

/-! ## What performing accesses changes -/

/-- A later state in which groups, memory, links, pages and the waiting doorbells may have moved on, and nothing else. -/
def State.Performs (s t : State) : Prop :=
  ∃ me rest mem links pages bells, t = { s with me := me, rest := rest, mem := mem, links := links, pages := pages, fe := { s.fe with bells := bells } }

theorem State.Performs.refl (s : State) : s.Performs s := ⟨s.me, s.rest, s.mem, s.links, s.pages, s.fe.bells, rfl⟩

theorem State.Performs.trans {s t u : State} (h : s.Performs t) (h' : t.Performs u) : s.Performs u := by
  obtain ⟨_, _, _, _, _, _, rfl⟩ := h
  obtain ⟨_, _, _, _, _, _, rfl⟩ := h'
  exact ⟨_, _, _, _, _, _, rfl⟩

theorem State.Performs.foldl {α : Type} {f : State → α → State} (h : ∀ (s : State) (x : α), s.Performs (f s x)) (l : List α) (s : State) :
    s.Performs (l.foldl f s) := by
  induction l generalizing s with
  | nil => exact .refl s
  | cons x l ih => exact (h s x).trans (ih _)

theorem State.Performs.ctxs {s t : State} (h : s.Performs t) : t.ctxs = s.ctxs := by
  obtain ⟨_, _, _, _, _, _, rfl⟩ := h
  rfl

theorem State.OnlyLinks.performs {s t : State} (h : s.OnlyLinks t) : s.Performs t := by
  rw [h]
  exact ⟨_, _, _, _, _, _, rfl⟩

theorem State.mapGroups_performs (s : State) (f : Group → Group) : s.Performs (s.mapGroups f) := ⟨_, _, _, _, _, _, rfl⟩

theorem State.hostPut_performs (s : State) (a : Nat) (bs : List Byte) : s.Performs (s.hostPut a bs) := ⟨_, _, _, _, _, _, rfl⟩

theorem State.storeLocal_performs (s : State) (la : Nat) (bs : List Byte) : s.Performs (s.storeLocal la bs) := by
  unfold State.storeLocal
  split
  · split
    · exact .refl s
    · split
      · unfold State.ringBell
        split
        · exact ⟨_, _, _, _, _, _, rfl⟩
        · exact .refl s
      · exact .refl s
  · exact ⟨_, _, _, _, _, _, rfl⟩

theorem State.hold_performs (s : State) (ctx va : Nat) (bs : List Byte) (core : Option Nat) (agent : Option Agent) (ack : Option Packet)
    (rmw : Option PendAtomic) : s.Performs (s.hold ctx va bs core agent ack rmw) := ⟨_, _, _, _, _, _, rfl⟩

theorem State.invalidate_performs (s : State) (ctx va : Nat) : s.Performs (s.invalidate ctx va) := by
  unfold State.invalidate
  split
  · exact .refl s
  · have htell (t : State) (ms : List Nat) (frame : BitVec 64) : t.OnlyLinks (ms.foldl (fun t m => t.ctrl m ctrlInvalidate ctx 0 0 frame 0) t) :=
      State.OnlyLinks.foldl (fun u m => u.ctrl_onlyLinks _ _ _ _ _ _ _) _ _
    dsimp only
    refine State.Performs.trans ?_ (htell _ _ _).performs
    exact ⟨_, _, _, _, _, _, rfl⟩

theorem State.writePageBy_performs (s : State) (ctx va : Nat) (e : PEntry) (bs : List Byte) (core : Option Nat) (agent : Option Agent) :
    s.Performs (s.writePageBy ctx va e bs core agent) := by
  unfold State.writePageBy
  dsimp only
  split
  · exact s.hold_performs _ _ _ _ _ _ _
  · split
    · exact s.hostPut_performs _ _
    · split
      · exact (s.forwardFor_onlyLinks _).performs
      · split
        · split
          · exact (s.forwardFor_onlyLinks _).performs
          · exact (s.storeLocal_performs _ _).trans (State.invalidate_performs _ _ _)
        · exact s.storeLocal_performs _ _

/-! ## Intervals (R175) -/

theorem State.onCore_performs (s : State) (core : Nat) (f : Group → Group) : s.Performs (s.onCore core f) := ⟨_, _, _, _, _, _, rfl⟩

theorem State.deliver_performs (s : State) (isInterval : Bool) (a : PendAtomic) (old : Nat) (added : Bool) :
    s.Performs (s.deliver isInterval a old added) := ⟨_, _, _, _, _, _, rfl⟩

theorem State.placePut_performs (s : State) (p : AtPlace) (n v by_ : Nat) : s.Performs (s.placePut p n v by_) := by
  cases p with
  | spad core a => exact s.onCore_performs core _
  | page ctx va x y =>
    unfold State.placePut
    dsimp only
    split
    · exact .refl s
    · exact s.writePageBy_performs _ _ _ _ _ _

theorem State.endRuns_performs (s : State) (l : List Run) : s.Performs (s.endRuns l) :=
  State.Performs.foldl (fun t _ => t.placePut_performs _ _ _ _) _ _

theorem runOne_performs (t : State × List Run) (a : PendAtomic) : t.1.Performs (runOne t a).1 := by
  unfold runOne
  split
  · exact t.1.deliver_performs _ _ _ _
  · dsimp only
    split
    · exact t.1.deliver_performs _ _ _ _
    · exact (t.1.endRuns_performs _).trans (State.deliver_performs _ _ _ _ _)

theorem runOnes_performs (l : List PendAtomic) (t : State × List Run) : t.1.Performs (l.foldl runOne t).1 := by
  induction l generalizing t with
  | nil => exact .refl _
  | cons a l ih => exact (runOne_performs t a).trans (ih _)

theorem State.addClosing_performs (s : State) (a : PendAtomic) : s.Performs (s.addClosing a) := by
  unfold State.addClosing
  split
  · exact .refl s
  · dsimp only
    split
    · split
      · exact ⟨_, _, _, _, _, _, rfl⟩
      · exact ⟨_, _, _, _, _, _, rfl⟩
    · exact ⟨_, _, _, _, _, _, rfl⟩

theorem State.resolveIntervals_performs (s : State) : s.Performs s.resolveIntervals := by
  unfold State.resolveIntervals
  split
  · exact .refl s
  · dsimp only
    refine State.Performs.trans ?_ (State.pumpClosing_onlyLinks _).performs
    refine State.Performs.trans ?_ (State.Performs.foldl (fun t a => t.addClosing_performs a) _ _)
    refine State.Performs.trans ?_ (State.endRuns_performs _ _)
    refine State.Performs.trans ?_ (runOnes_performs _ _)
    exact ⟨_, _, _, _, _, _, rfl⟩

theorem State.barResult_performs (s : State) (ctx bar : Nat) (hit : Joined → Bool) (p : Bool) : s.Performs (s.barResult ctx bar hit p) :=
  (s.mapGroups_performs _).trans (State.resolveIntervals_performs _)

theorem State.tellBroken_onlyLinks (s : State) (ctx bar : Nat) (b : Barrier) : s.OnlyLinks (s.tellBroken ctx bar b) := by
  unfold State.tellBroken
  split
  · exact .refl s
  · split
    · exact s.ctrl_onlyLinks _ _ _ _ _ _ _
    · refine State.OnlyLinks.trans (State.OnlyLinks.foldl (fun t r => ?_) _ _) (State.OnlyLinks.foldl (fun t q => t.sendQp_onlyLinks _ _) _ _)
      split
      · exact .refl t
      · exact t.ctrl_onlyLinks _ _ _ _ _ _ _

/-! ## Fields of barrier commands (R312, R313) -/

theorem ofNat64_eq_zero {v : Nat} (h : v < 2 ^ 64) : BitVec.ofNat 64 v = 0 ↔ v = 0 := by
  refine ⟨fun hz => ?_, fun hz => hz ▸ rfl⟩
  have hnat := congrArg BitVec.toNat hz
  rwa [BitVec.toNat_ofNat, Nat.mod_eq_of_lt h] at hnat

theorem barCmd_plain_iff {op : Nat} {r : List Byte} (hop : recField r 0 1 = op) : (barCmd r).plain = true ↔ barWell op r := by
  subst hop
  simp only [BCmd.plain, barWell, Bool.and_eq_true, Bool.or_eq_true, beq_iff_eq, decide_eq_true_eq]
  simp only [barCmd, Bool.not_not, Bool.and_eq_true, beq_iff_eq, and_assoc, Nat.reducePow]

theorem watchOk_iff (r : List Byte) : (barCmd r).watchOk = true ↔ watchWell r := by
  have hz := ofNat64_eq_zero (recField_lt r 16 8)
  simp only [barCmd, BCmd.watchOk, watchWell, hz]
  split
  · rw [beq_iff_eq]
  · simp only [Bool.and_eq_true, Bool.or_eq_true, beq_iff_eq, Bool.not_eq_true', Option.isSome_iff_ne_none]
    exact and_comm

theorem configOk_iff (r : List Byte) (modnum : Nat) : (barCmd r).configOk modnum = true ↔ configWell r modnum := by
  rw [BCmd.configOk, configWell]
  simp only [Bool.and_eq_true, watchOk_iff, and_assoc, decide_eq_true_eq]
  simp only [barCmd]
  refine and_congr_right fun hlo => and_congr_right fun hhi => ?_
  refine and_congr ?_ ?_
  · by_cases h1 : recField r 3 1 = 1 <;> simp [h1]
  · rw [← and_assoc (a := recField r 3 1 = 4 → _)]
    refine and_congr ?_ (and_congr ?_ (and_congr_right fun _ => ?_))
    · by_cases h4 : recField r 3 1 = 4
      · simp only [h4, if_true, Bool.and_eq_true, true_imp_iff, ne_eq, not_true, false_imp_iff, and_true]
        exact and_congr decide_eq_true_iff decide_eq_true_iff
      · simp [h4]
    · simp only [Bool.or_eq_true, beq_iff_eq]
      by_cases h3 : 3 ≤ recField r 3 1
      · simp [h3, Nat.not_le.2 h3]
      · simp [h3, Nat.le_of_lt_succ (Nat.lt_of_not_le h3)]
    · simp only [Bool.or_eq_true, Bool.and_eq_true, bne_iff_ne, beq_iff_eq, ne_eq]
      tauto

/-- R312: a barrier command looks at its fields and its context, then acts. -/
def barBody (act : BCmd → State → CmdEnd) (r : List Byte) (s : State) : CmdEnd :=
  if !(barCmd r).plain || !(barCmd r).configOk s.boot.modnum then .done stBadCmd s
  else if !(s.ctx (barCmd r).ctx).any (·.ready) then .done stNoCtx s
  else act (barCmd r) s

theorem barBody_bad {op : Nat} {r : List Byte} {s : State} (hop : recField r 0 1 = op) (h : ¬barWell op r ∨ ¬configWell r s.boot.modnum)
    (act : BCmd → State → CmdEnd) : barBody act r s = .done 6 s := by
  refine if_pos ?_
  rw [← barCmd_plain_iff hop, ← configOk_iff] at h
  simpa using h

theorem barBody_well {op : Nat} {r : List Byte} {s : State} (hop : recField r 0 1 = op) (h : barWell op r) (hc : configWell r s.boot.modnum)
    (act : BCmd → State → CmdEnd) : barBody act r s = if (s.cmdCtx r).any (·.ready) then act (barCmd r) s else .done 5 s := by
  rw [← barCmd_plain_iff hop] at h
  rw [← configOk_iff] at hc
  have hctx : s.ctx (barCmd r).ctx = s.cmdCtx r := rfl
  rw [barBody, h, hc, hctx]
  cases (s.cmdCtx r).any (·.ready) <;> rfl

theorem barBody_named {op : Nat} {r : List Byte} {s : State} (hop : recField r 0 1 = op) (h : s.barNamed op r) (act : BCmd → State → CmdEnd) :
    barBody act r s = act (barCmd r) s := by
  obtain ⟨hwell, hconf, k, hk, hst⟩ := h
  have hready : (s.cmdCtx r).any (·.ready) = true := by rw [hk, Option.any_some, Context.ready, hst]; rfl
  rw [barBody_well hop hwell hconf, hready]
  rfl

section Rows
variable {i : Instr} {op : Nat} {cmd : BitVec 52} {act : BCmd → State → CmdEnd} (hx : ∀ s, exec i s = barCommand op cmd.toNat s act)
include hx

/-- R312: what every barrier command refuses. -/
theorem barRefusals_hold : ∀ c ∈ barRefusals op cmd, c.Holds i := by
  refine List.forall_mem_cons.2 ⟨?_, List.forall_mem_cons.2 ⟨?_, List.forall_mem_nil _⟩⟩
  · exact refusal_holds (ok := (· == op)) (barBody act) hx (beq_self_eq_true op) fun r s hop hbad => barBody_bad hop hbad act
  · refine refusal_holds (ok := (· == op)) (barBody act) hx (beq_self_eq_true op) fun r s hop ⟨hwell, hconf, hno⟩ => ?_
    have hready : ¬ (s.cmdCtx r).any (·.ready) = true := fun h => by
      obtain ⟨k, hk, hr⟩ := (Option.any_eq_true _ _).1 h
      exact hno k hk (beq_iff_eq.1 hr)
    rw [barBody_well hop hwell hconf, if_neg hready]

/-- A barrier command that is refused after its fields. -/
theorem barRefusal_holds {st : Nat} {pre : List Byte → State → Prop}
    (hb : ∀ r s, pre r s → s.barNamed op r ∧ act (barCmd r) s = .done st s) : (refusal .bar op cmd.toNat true st pre).Holds i :=
  refusal_holds (ok := (· == op)) (barBody act) hx (beq_self_eq_true op) fun r s hop hpre =>
    (barBody_named hop (hb r s hpre).1 act).trans (hb r s hpre).2

/-- A barrier command that is accepted. -/
theorem barAccept_holds {pre : List Byte → State → Prop} {does : List Byte → State → State} {parts : List Aspect}
    {post : List Byte → State → State → State → Prop}
    (hb : ∀ r s, pre r s → s.barNamed op r ∧ ∃ u, act (barCmd r) s = .done 1 u ∧ post r s (does r s) u ∧
      ∀ p, p ∉ parts → (does r s).same u p) :
    CmdClaim.Holds { bell := .bar, op := op, cmd := cmd.toNat, pre := pre, does := does, parts := parts, post := post } i := by
  refine CmdClaim.holds_of_body _ (ok := (· == op)) (barBody act) hx (beq_self_eq_true op) rfl fun r s hop hpre => ?_
  obtain ⟨hk, u, hact, hrest⟩ := hb r s hpre
  exact ⟨u, (barBody_named hop hk act).trans hact, hrest⟩

end Rows

/-! ## Barriers of a context -/

theorem State.cmdBar_eq {s : State} {r : List Byte} {k : Context} (hk : s.cmdCtx r = some k) : s.cmdBar r = assocGet k.bars (recField r 4 2) := by
  have hk' : s.ctx (recField r 2 1) = some k := hk
  rw [State.cmdBar, State.bar, hk']

/-- A change of the barriers of a command's context, under one number. -/
theorem State.onBars_otherBars (s : State) (r : List Byte) (f : List (Nat × Barrier) → List (Nat × Barrier))
    (h : ∀ l n, n ≠ recField r 4 2 → assocGet (f l) n = assocGet l n) :
    s.otherBars (s.onCtx (recField r 2 1) fun k => { k with bars := f k.bars }) r :=
  ⟨fun _ hm => s.onCtx_ctx_ne hm _, fun k hk => ⟨f k.bars, State.onCtx_ctx_some hk _, h k.bars⟩⟩

theorem State.onBars_cmdBar {s : State} {r : List Byte} {k : Context} (hk : s.cmdCtx r = some k)
    (f : List (Nat × Barrier) → List (Nat × Barrier)) :
    (s.onCtx (recField r 2 1) fun k => { k with bars := f k.bars }).cmdBar r = assocGet (f k.bars) (recField r 4 2) :=
  State.cmdBar_eq (State.onCtx_ctx_some hk _)

theorem State.onBar_cmdBar (s : State) (r : List Byte) (f : Barrier → Barrier) :
    (s.onBar (recField r 2 1) (recField r 4 2) f).cmdBar r = (s.cmdBar r).map f := by
  cases hk : s.cmdCtx r with
  | none =>
    have hk' : s.ctx (recField r 2 1) = none := hk
    have hnone : (s.onBar (recField r 2 1) (recField r 4 2) f).ctx (recField r 2 1) = none := by rw [State.onBar, State.onCtx_ctx, hk']; rfl
    rw [State.cmdBar, State.bar, hnone, State.cmdBar, State.bar, hk']
    rfl
  | some k => rw [State.cmdBar_eq hk, State.onBar, State.onBars_cmdBar hk fun l => assocMap l (recField r 4 2) f, assocGet_assocMap]

theorem State.onBar_otherBars (s : State) (r : List Byte) (f : Barrier → Barrier) :
    s.otherBars (s.onBar (recField r 2 1) (recField r 4 2) f) r :=
  s.onBars_otherBars r (fun l => assocMap l (recField r 4 2) f) fun _ _ hn => assocGet_assocMap_ne hn f

theorem State.otherBars.of_ctxs {s t u : State} {r : List Byte} (h : s.otherBars t r) (hu : u.ctxs = t.ctxs) : s.otherBars u r := by
  have hctx (n : Nat) : u.ctx n = t.ctx n := congrArg (assocGet · n) hu
  exact ⟨fun m hm => (hctx m).trans (h.1 m hm), fun k hk =>
    have ⟨l, hl, hrest⟩ := h.2 k hk
    ⟨l, (hctx _).trans hl, hrest⟩⟩

theorem State.cmdBar_of_ctxs {t u : State} (hu : u.ctxs = t.ctxs) (r : List Byte) : u.cmdBar r = t.cmdBar r := by
  rw [State.cmdBar, State.bar, State.ctx, hu, State.cmdBar, State.bar, State.ctx]

theorem Barrier.idle_iff (b : Barrier) : b.idle = true ↔ b.Idle := by
  simp only [Barrier.idle, Barrier.Idle, Bool.and_eq_true, beq_iff_eq, List.all_eq_true]

/-! ## CONFIGURE and REMOVE (R313, R316) -/

theorem State.watchTaken_iff (s : State) (r : List Byte) : ((s.ctx (barCmd r).ctx).any fun k => k.bars.any fun b =>
    watchOverlap (barCmd r).scope (barCmd r).wbase (barCmd r).wlen b.2.scope b.2.wbase b.2.wlen) = true ↔ s.watchTaken r := by
  rw [Option.any_eq_true]
  refine exists_congr fun k => ?_
  rw [List.any_eq_true]
  rfl

theorem configure_holds (cmd : BitVec 52) : ∀ c ∈ barCommands (.configure cmd), c.Holds (.configure cmd) := by
  have hx (s : State) : exec (.configure cmd) s = barCommand 1 cmd.toNat s _ := show execConfigure cmd s = _ from rfl
  refine List.forall_mem_append.2 ⟨List.forall_mem_cons.2 ⟨?_, List.forall_mem_cons.2 ⟨?_, List.forall_mem_cons.2 ⟨?_, List.forall_mem_nil _⟩⟩⟩,
    barRefusals_hold hx⟩
  · refine barAccept_holds hx fun r s ⟨hn, hfree, hwatch⟩ => ?_
    obtain ⟨k, hk, -⟩ := hn.2.2
    have hfree' : s.bar (barCmd r).ctx (barCmd r).bar = none := hfree
    refine ⟨hn, s.onCtx (recField r 2 1) fun k => { k with bars := assocSet k.bars (recField r 4 2) (barCmd r).barrier }, ?_,
      ⟨s.onBars_otherBars r (fun l => assocSet l (recField r 4 2) (barCmd r).barrier) fun l n hn => ?_, (barCmd r).barrier, ?_,
        rfl, rfl, rfl, rfl, rfl, rfl, rfl, rfl, rfl, rfl, rfl, rfl, rfl⟩, fun p hp => s.onCtx_same _ _ p (by simpa using hp)⟩
    · rw [hfree', Option.isSome_none, if_neg (by decide), if_neg (fun h => hwatch ((s.watchTaken_iff r).1 h))]
      rfl
    · rw [assocGet_assocSet, if_neg hn]
    · rw [State.onBars_cmdBar hk fun l => assocSet l (recField r 4 2) (barCmd r).barrier, assocGet_assocSet, if_pos rfl]
  · exact barRefusal_holds hx fun r s ⟨hn, hsome⟩ => ⟨hn, if_pos hsome⟩
  · refine barRefusal_holds hx fun r s ⟨hn, hfree, hwatch⟩ => ⟨hn, ?_⟩
    have hfree' : s.bar (barCmd r).ctx (barCmd r).bar = none := hfree
    rw [hfree', Option.isSome_none, if_neg (by decide), if_pos ((s.watchTaken_iff r).2 hwatch)]
    rfl

theorem remove_holds (cmd : BitVec 52) : ∀ c ∈ barCommands (.remove cmd), c.Holds (.remove cmd) := by
  have hx (s : State) : exec (.remove cmd) s = barCommand 2 cmd.toNat s _ := show execRemove cmd s = _ from rfl
  refine List.forall_mem_append.2 ⟨List.forall_mem_cons.2 ⟨?_, List.forall_mem_cons.2 ⟨?_, List.forall_mem_nil _⟩⟩, barRefusals_hold hx⟩
  · refine barAccept_holds hx fun r s ⟨hn, hidle⟩ => ⟨hn, ?_⟩
    cases hb : s.cmdBar r with
    | none =>
      have hb' : s.bar (barCmd r).ctx (barCmd r).bar = none := hb
      refine ⟨s, ?_, ⟨⟨fun _ _ => rfl, fun k hk => ⟨k.bars, hk, fun _ _ => rfl⟩⟩, hb⟩, fun p _ => s.same_refl p⟩
      simp only [hb']
      rfl
    | some b =>
      obtain ⟨k, hk, -⟩ := hn.2.2
      have hb' : s.bar (barCmd r).ctx (barCmd r).bar = some b := hb
      obtain ⟨hwait, hfree⟩ := hidle b hb
      have hgo : (s.barWaiting (barCmd r).ctx (barCmd r).bar || !(b.broken || b.idle)) = false := by
        rw [Bool.or_eq_false_iff, Bool.not_eq_false', Bool.or_eq_true, b.idle_iff]
        exact ⟨hwait, hfree⟩
      refine ⟨s.onCtx (recField r 2 1) fun k => { k with bars := assocDrop k.bars (recField r 4 2) }, ?_,
        ⟨s.onBars_otherBars r (fun l => assocDrop l (recField r 4 2)) fun l n hn => ?_, ?_⟩, fun p hp => s.onCtx_same _ _ p (by simpa using hp)⟩
      · simp only [hb', hgo, Bool.false_eq_true, if_false]
        rfl
      · rw [assocGet_assocDrop, if_neg hn]
      · rw [State.onBars_cmdBar hk fun l => assocDrop l (recField r 4 2), assocGet_assocDrop, if_pos rfl]
  · refine barRefusal_holds hx fun r s ⟨hn, b, hb, hbusy⟩ => ⟨hn, ?_⟩
    have hb' : s.bar (barCmd r).ctx (barCmd r).bar = some b := hb
    have hno : (s.barWaiting (barCmd r).ctx (barCmd r).bar || !(b.broken || b.idle)) = true := by
      rw [Bool.or_eq_true, Bool.not_eq_true', Bool.or_eq_false_iff, Bool.eq_false_iff (b := b.idle), ne_eq, b.idle_iff]
      exact hbusy
    simp only [hb', hno, if_true]
    rfl

/-! ## RESET (R316, R318) -/

theorem State.breakBar_ctxs (s : State) (ctx bar : Nat) :
    (s.breakBar ctx bar).ctxs = (s.onBar ctx bar fun b => { b with broken := true }).ctxs := (State.barResult_performs _ _ _ _ _).ctxs

theorem barrierReset_holds (cmd : BitVec 52) : ∀ c ∈ barCommands (.barrierReset cmd), c.Holds (.barrierReset cmd) := by
  have hx (s : State) : exec (.barrierReset cmd) s = barCommand 3 cmd.toNat s _ := show execBarrierReset cmd s = _ from rfl
  refine List.forall_mem_append.2 ⟨List.forall_mem_cons.2 ⟨?_, List.forall_mem_cons.2 ⟨?_, List.forall_mem_cons.2 ⟨?_,
    List.forall_mem_cons.2 ⟨?_, List.forall_mem_nil _⟩⟩⟩⟩, barRefusals_hold hx⟩
  · refine barAccept_holds hx fun r s ⟨hn, hb⟩ => ⟨hn, s, ?_, trivial, fun p _ => s.same_refl p⟩
    have hb' : s.bar (barCmd r).ctx (barCmd r).bar = none := hb
    simp only [hb']
    rfl
  · refine barAccept_holds hx fun r s ⟨hn, ⟨b, hb, hbroken⟩, hwait⟩ => ⟨hn, s.onBar (recField r 2 1) (recField r 4 2) (·.reopen), ?_,
      ⟨s.onBar_otherBars r _, s.onBar_cmdBar r _⟩, fun p hp => s.onCtx_same _ _ p (by simpa using hp)⟩
    have hb' : s.bar (barCmd r).ctx (barCmd r).bar = some b := hb
    have hwait' : s.barWaiting (barCmd r).ctx (barCmd r).bar = false := hwait
    simp only [hb', hwait', hbroken, Bool.false_eq_true, if_false, if_true]
    rfl
  · refine barAccept_holds hx fun r s ⟨hn, ⟨b, hb, hbroken⟩, hwait⟩ => ⟨hn, (s.tellBroken (recField r 2 1) (recField r 4 2) b).breakBar
      (recField r 2 1) (recField r 4 2), ?_, ?_, fun p _ => ?_⟩
    · have hb' : s.bar (barCmd r).ctx (barCmd r).bar = some b := hb
      have hwait' : s.barWaiting (barCmd r).ctx (barCmd r).bar = false := hwait
      simp only [hb', hwait', hbroken, Bool.false_eq_true, if_false]
      rfl
    · have hctxs : ((s.tellBroken (recField r 2 1) (recField r 4 2) b).breakBar (recField r 2 1) (recField r 4 2)).ctxs =
          (s.onBar (recField r 2 1) (recField r 4 2) fun b => { b with broken := true }).ctxs := by
        rw [State.breakBar_ctxs, State.onBar, State.onCtx, (s.tellBroken_onlyLinks _ _ b).performs.ctxs]
        rfl
      exact ⟨(s.onBar_otherBars r _).of_ctxs hctxs, (State.cmdBar_of_ctxs hctxs r).trans (s.onBar_cmdBar r _)⟩
    · simp only [hb]
      exact State.same_refl _ p
  · refine barRefusal_holds hx fun r s ⟨hn, hsome, hwait⟩ => ⟨hn, ?_⟩
    obtain ⟨b, hb⟩ := Option.isSome_iff_exists.1 hsome
    have hb' : s.bar (barCmd r).ctx (barCmd r).bar = some b := hb
    have hwait' : s.barWaiting (barCmd r).ctx (barCmd r).bar = true := hwait
    simp only [hb', hwait', if_true]
    rfl

/-! ## READ (R320) -/

/-- R320: the layout of the report of a barrier. -/
def barLayout (b : Option Barrier) (unsent : BitVec 40) : List (Nat × Nat) :=
  match b with
  | none => [(64, 0)]
  | some b => [(8, b.code), (8, b.oldest), (8, b.joinsNow % 2 ^ 32), (8, (((b.episodes.head?.map fun x => x.counter).getD 0) + unsent).toNat),
      (8, b.late.toNat), (24, 0)]

theorem barReport_eq (b : Option Barrier) (unsent : BitVec 40) : Barrier.report b unsent = bytesOf (barLayout b unsent) := by
  cases b with
  | none => exact bytesOf_single 64
  | some b => simp only [Barrier.report, barLayout, bytesOf, List.append_assoc, List.append_nil]

theorem barLayout_size (b : Option Barrier) (unsent : BitVec 40) : ((barLayout b unsent).map (·.1)).sum = 64 := by cases b <;> rfl

theorem barrierRead_holds (cmd : BitVec 52) : ∀ c ∈ barCommands (.barrierRead cmd), c.Holds (.barrierRead cmd) := by
  have hx (s : State) : exec (.barrierRead cmd) s = barCommand 4 cmd.toNat s _ := show execBarrierRead cmd s = _ from rfl
  refine List.forall_mem_append.2 ⟨List.forall_mem_cons.2 ⟨?_, List.forall_mem_nil _⟩, barRefusals_hold hx⟩
  refine barAccept_holds hx fun r s ⟨hn, hrep⟩ => ⟨hn, s.putReport (recField r 2 1) (recField r 48 8)
    (Barrier.report (s.cmdBar r) (s.heldArrivals (recField r 2 1) (recField r 4 2))) (.bell cmd.toNat), ?_, ?_, fun p hp => ?_⟩
  · refine State.reportAt_done ?_ hrep
    rw [barReport_eq, bytesOf_length, barLayout_size]
  · refine State.reports_bytesOf _ _ _ _ _ (barLayout (s.cmdBar r) _) _ (barReport_eq _ _) (barLayout_size _ _) ?_ ?_
    all_goals
      cases s.cmdBar r with
      | none => simp [placedAt, barLayout]
      | some b => simp [placedAt, barLayout, Barrier.oldest, Barrier.joinsNow]
  · simp only [List.mem_cons, List.not_mem_nil, or_false, not_or] at hp
    exact State.putReport_same _ _ _ _ _ p hp.1 hp.2

theorem barCommands_hold (i : Instr) (c : CmdClaim) : c ∈ barCommands i → c.Holds i := by
  cases i with
  | configure cmd => exact configure_holds cmd c
  | remove cmd => exact remove_holds cmd c
  | barrierReset cmd => exact barrierReset_holds cmd c
  | barrierRead cmd => exact barrierRead_holds cmd c
  | _ => exact emptied

theorem Barrier.hasCode (b : Barrier) : b.HasCode b.code := by
  unfold Barrier.HasCode Barrier.code
  split
  · rfl
  · cases he : b.episodes with
    | nil => rfl
    | cons x l =>
      simp only [List.head?_cons, Barrier.joinsNow, he, Option.map_some, Option.getD_some]
      repeat' split
      all_goals rfl

/-! ## What every command does before it is taken (R282) -/

/-- An instruction is a command of a doorbell, with its OP and its record. -/
def IsCommand (i : Instr) (b : Bell) (op cmd : Nat) : Prop := ∃ named body, ∀ s, exec i s = command b (· == op) cmd s named body

section Families
variable {i : Instr} {op cmd : Nat}

theorem isCommand_ctx (act : XCmd → State → CmdEnd) (hx : ∀ s, exec i s = ctxCommand op cmd s act) : IsCommand i .ctx op cmd :=
  ⟨_, _, hx⟩

theorem isCommand_queue (act : QCmd → Context → State → CmdEnd) (hx : ∀ s, exec i s = queueCommand op cmd s act) : IsCommand i .queue op cmd :=
  ⟨_, _, hx⟩

theorem isCommand_bar (act : BCmd → State → CmdEnd) (hx : ∀ s, exec i s = barCommand op cmd s act) : IsCommand i .bar op cmd := ⟨_, _, hx⟩

theorem isCommand_link (act : LCmd → State → CmdEnd) (hx : ∀ s, exec i s = linkCommand op cmd s act) : IsCommand i .link op cmd := ⟨_, _, hx⟩

theorem isCommand_page (act : PCmd → State → CmdEnd) (hx : ∀ s, exec i s = pageCommand op cmd s act) : IsCommand i .page op cmd := ⟨_, _, hx⟩

end Families

theorem isCommand_of_commandOf {i : Instr} {b : Bell} {op : Nat} {cmd : BitVec 52} : commandOf i = some (b, op, cmd) → IsCommand i b op cmd.toNat := by
  cases i with
  | create => intro h; cases h; exact isCommand_ctx _ fun s => show execCreate cmd s = _ from rfl
  | destroy => intro h; cases h; exact isCommand_ctx _ fun s => show execDestroy cmd s = _ from rfl
  | replenish => intro h; cases h; exact isCommand_ctx _ fun s => show execReplenish cmd s = _ from rfl
  | ctxRead => intro h; cases h; exact isCommand_ctx _ fun s => show execCtxRead cmd s = _ from rfl
  | enable => intro h; cases h; exact isCommand_queue _ fun s => show execEnable cmd s = _ from rfl
  | disable => intro h; cases h; exact isCommand_queue _ fun s => show execDisable cmd s = _ from rfl
  | resume => intro h; cases h; exact isCommand_queue _ fun s => show execResume cmd s = _ from rfl
  | flush => intro h; cases h; exact isCommand_queue _ fun s => show execFlush cmd s = _ from rfl
  | queueRead => intro h; cases h; exact isCommand_queue _ fun s => show execQueueRead cmd s = _ from rfl
  | configure => intro h; cases h; exact isCommand_bar _ fun s => show execConfigure cmd s = _ from rfl
  | remove => intro h; cases h; exact isCommand_bar _ fun s => show execRemove cmd s = _ from rfl
  | barrierReset => intro h; cases h; exact isCommand_bar _ fun s => show execBarrierReset cmd s = _ from rfl
  | barrierRead => intro h; cases h; exact isCommand_bar _ fun s => show execBarrierRead cmd s = _ from rfl
  | qpopen => intro h; cases h; exact isCommand_link _ fun s => show execQpopen cmd s = _ from rfl
  | qpclose => intro h; cases h; exact isCommand_link _ fun s => show execQpclose cmd s = _ from rfl
  | qpread => intro h; cases h; exact isCommand_link _ fun s => show execQpread cmd s = _ from rfl
  | portfence => intro h; cases h; exact isCommand_link _ fun s => show execPortfence cmd s = _ from rfl
  | portunfence => intro h; cases h; exact isCommand_link _ fun s => show execPortunfence cmd s = _ from rfl
  | route => intro h; cases h; exact isCommand_link _ fun s => show execRoute cmd s = _ from rfl
  | portread => intro h; cases h; exact isCommand_link _ fun s => show execPortread cmd s = _ from rfl
  | timecfg => intro h; cases h; exact isCommand_link _ fun s => show execTimecfg cmd s = _ from rfl
  | migrate => intro h; cases h; exact isCommand_page _ fun s => show execMigrate cmd s = _ from rfl
  | duplicate => intro h; cases h; exact isCommand_page _ fun s => show execDuplicate cmd s = _ from rfl
  | hold => intro h; cases h; exact isCommand_page _ fun s => show execHold cmd s = _ from rfl
  | unhold => intro h; cases h; exact isCommand_page _ fun s => show execUnhold cmd s = _ from rfl
  | unmap => intro h; cases h; exact isCommand_page _ fun s => show execUnmap cmd s = _ from rfl
  | zerocnt => intro h; cases h; exact isCommand_page _ fun s => show execZerocnt cmd s = _ from rfl
  | lend => intro h; cases h; exact isCommand_page _ fun s => show execLend cmd s = _ from rfl
  | borrow => intro h; cases h; exact isCommand_page _ fun s => show execBorrow cmd s = _ from rfl
  | revoke => intro h; cases h; exact isCommand_page _ fun s => show execRevoke cmd s = _ from rfl
  | _ => exact noRow

theorem misplaced_holds {i : Instr} {b : Bell} {op : Nat} {cmd : BitVec 52} (h : commandOf i = some (b, op, cmd)) :
    (misplaced b op cmd).Holds i := by
  obtain ⟨named, body, hx⟩ := isCommand_of_commandOf h
  intro s hr halign _
  have hodd : cmd.toNat % 64 ≠ 0 := fun hz => Bool.false_ne_true (halign.1 hz)
  refine ⟨s.rung, ?_, trivial, fun p _ => State.same_refl _ p⟩
  rw [hx]
  exact (command_rung (ok := (· == op)) hr (beq_self_eq_true op) named body).trans (if_pos hodd)

theorem command_waits {i : Instr} {b : Bell} {op : Nat} {cmd : BitVec 52} (h : commandOf i = some (b, op, cmd)) (s : State) :
    s.CommandWaits i b cmd.toNat := by
  obtain ⟨named, body, hx⟩ := isCommand_of_commandOf h
  refine ⟨fun hready => ?_, fun hready hthere hmiss hturn => ?_⟩
  · rw [hx, command, hready]
    rfl
  · have hpresent : (s.isOwn cmd.toNat && !hbmPresent s.part (paLocal cmd.toNat) 64) = false := by
      cases hown : s.isOwn cmd.toNat
      · rfl
      · rw [hthere hown]; rfl
    rw [hx]
    simp only [command, hready, hpresent, hmiss, bellTurn_first hturn, Bool.not_true, Bool.false_eq_true, if_false]
    rfl

theorem command_queues {i : Instr} {b : Bell} {op : Nat} {cmd : BitVec 52} (h : commandOf i = some (b, op, cmd)) (s : State) :
    s.CommandQueues i b op cmd.toNat := by
  obtain ⟨named, body, hx⟩ := isCommand_of_commandOf h
  intro hready hthere hne hhead hcome
  have hpresent : (s.isOwn cmd.toNat && !hbmPresent s.part (paLocal cmd.toNat) 64) = false := by
    cases hown : s.isOwn cmd.toNat
    · rfl
    · rw [hthere hown]; rfl
  obtain ⟨x, l, hl⟩ := List.exists_cons_of_ne_nil hne
  have hx' : x ≠ (b, cmd.toNat) := fun he => hhead (by rw [hl, he]; rfl)
  have hbehind : s.bellTurn b cmd.toNat = (false, { s with fe := { s.fe with bells := s.fe.bells ++ [(b, cmd.toNat)] } }) := by
    rw [State.bellTurn, hl]
    exact if_neg hx'
  rw [hx]
  cases hmiss : s.recordMissing cmd.toNat with
  | true => simp only [command, hready, hpresent, hmiss, hbehind, Bool.not_true, Bool.false_eq_true, if_false]
  | false =>
    have hop : (recField (s.cmdBytes cmd.toNat) 0 1 == op) = true := beq_iff_eq.2 (hcome.resolve_left (by rw [hmiss]; exact Bool.false_ne_true))
    simp only [command, hready, hpresent, hmiss, hbehind, hop, Bool.not_true, Bool.false_eq_true, if_false, Bool.not_false, if_true]

theorem badcmd_holds (bell : BitVec 3) (cmd : BitVec 52) (b : Bell) (op : Nat) (hb : bellOf bell.toNat = some b) (hop : op = 0 ∨ b.lastOp < op) :
    (badCommand b op cmd).Holds (.badcmd bell cmd) := by
  have hx (s : State) : exec (.badcmd bell cmd) s =
      command b (fun op => op == 0 || decide (b.ops < op)) cmd.toNat s (b != .link) fun _ t => .done stBadCmd t := by
    refine (show exec _ s = execBadcmd bell cmd s from rfl).trans ?_
    rw [execBadcmd, hb]
  refine refusal_holds _ hx ?_ fun r s _ _ => rfl
  have hlast : b.lastOp = b.ops := by cases b <;> rfl
  rw [hlast] at hop
  simpa using hop

/-- Settles O50: the rows of queues and barriers command by command, and what all commands do at their doorbells. -/
theorem queueAndBarrierCommands : Obligations.QueueAndBarrierCommands := by
  refine ⟨fun i c h => ?_, Barrier.hasCode, fun i b op cmd h => ⟨misplaced_holds h, fun s => ⟨command_waits h s, command_queues h s⟩⟩, badcmd_holds⟩
  obtain h | h := List.mem_append.1 h
  · exact queueCommands_hold i c h
  · exact barCommands_hold i c h

end Sys2Proof.Machine
end

section
-- One declaration after another: the whole text is checked in one process, of bounded memory.
set_option Elab.async false
/-! SUPPORT. The commands of links (21_link R321, R328 to R334): what sending a packet leaves of queue pairs and routes, and command by
command what LINKDB does. -/

namespace Sys2Proof.Machine

/-! ## Sending (R324, R327) -/

/-- A queue pair after packets of it have been stored for sending. -/
def QPair.Sent (q u : QPair) : Prop := ∃ store psn at_, u = { q with store := store, psn := psn, resentAt := at_ }

theorem QPair.Sent.refl (q : QPair) : q.Sent q := ⟨q.store, q.psn, q.resentAt, rfl⟩

theorem QPair.Sent.trans {q u v : QPair} (h : q.Sent u) (h' : u.Sent v) : q.Sent v := by
  obtain ⟨_, _, _, rfl⟩ := h
  obtain ⟨_, _, _, rfl⟩ := h'
  exact ⟨_, _, _, rfl⟩

/-- A later state in which packets have been sent, put off or stored, and nothing else has changed. -/
def State.Sends (s t : State) : Prop :=
  ∃ ports qps unsent fwds, List.Forall₂ QPair.Sent s.links.qps qps ∧
    t = { s with links := { s.links with ports := ports, qps := qps, unsent := unsent, fwds := fwds } }

theorem State.Sends.of_ports (s : State) (ports : List Port) (unsent : List (Way × Packet)) (fwds : List Fwd) :
    s.Sends { s with links := { s.links with ports := ports, unsent := unsent, fwds := fwds } } :=
  ⟨ports, s.links.qps, unsent, fwds, List.forall₂_same.2 fun q _ => .refl q, rfl⟩

theorem State.Sends.refl (s : State) : s.Sends s := .of_ports s _ _ _

theorem State.Sends.trans {s t u : State} (h : s.Sends t) (h' : t.Sends u) : s.Sends u := by
  obtain ⟨p, q, x, f, hq, rfl⟩ := h
  obtain ⟨p', q', x', f', hq', rfl⟩ := h'
  exact ⟨p', q', x', f', List.forall₂_iff_get.2 ⟨hq.length_eq.trans hq'.length_eq, fun i h1 h2 =>
    (hq.get h1 (hq.length_eq ▸ h1)).trans (hq'.get (hq.length_eq ▸ h1) h2)⟩, rfl⟩

theorem State.Sends.foldl {α : Type} {f : State → α → State} (h : ∀ (s : State) (x : α), s.Sends (f s x)) (l : List α) (s : State) :
    s.Sends (l.foldl f s) := by
  induction l generalizing s with
  | nil => exact .refl s
  | cons x l ih => exact (h s x).trans (ih _)

theorem State.Sends.routes {s t : State} (h : s.Sends t) : t.links.routes = s.links.routes := by
  obtain ⟨_, _, _, _, -, rfl⟩ := h
  rfl

theorem State.Sends.onlyLinks {s t : State} (h : s.Sends t) : s.OnlyLinks t := by
  obtain ⟨_, _, _, _, -, rfl⟩ := h
  exact .of_links s _

theorem State.Sends.qp {s t : State} (h : s.Sends t) {n : Nat} {q : QPair} (hq : s.qp n = some q) : ∃ u, t.qp n = some u ∧ q.Sent u := by
  obtain ⟨_, qps, _, _, hall, rfl⟩ := h
  show ∃ u, qps.find? (fun q => q.num == n) = some u ∧ q.Sent u
  change s.links.qps.find? (fun q => q.num == n) = some q at hq
  generalize s.links.qps = l at hall hq
  induction hall with
  | nil => cases hq
  | cons hx _ ih =>
    obtain ⟨_, _, _, rfl⟩ := hx
    rw [List.find?_cons] at hq ⊢
    split at hq
    · next hn =>
      obtain rfl := Option.some.inj hq
      rw [hn]
      exact ⟨_, rfl, _, _, _, rfl⟩
    · next hn =>
      rw [hn]
      exact ih hq

theorem State.sendOn_sends {s t : State} {n : Nat} {pk : Packet} (h : s.sendOn n pk = some t) : s.Sends t := by
  unfold State.sendOn at h
  split at h
  · cases h
  · split at h
    · obtain ⟨p', -, rfl⟩ := Option.map_eq_some_iff.1 h
      exact .of_ports s _ _ _
    · cases h

theorem State.sendRoute_sends {s t : State} {pk : Packet} {line : Nat} (h : s.sendRoute pk line = some t) : s.Sends t := by
  unfold State.sendRoute at h
  split at h
  · cases h
  · exact State.sendOn_sends h

/-- Storing for sending at one pair. -/
theorem State.onQp_sends (s : State) (n : Nat) {f : QPair → QPair} (hf : ∀ q : QPair, q.Sent (f q)) : s.Sends (s.onQp n f) := by
  refine ⟨s.links.ports, _, s.links.unsent, s.links.fwds, ?_, rfl⟩
  rw [List.forall₂_map_right_iff]
  refine List.forall₂_same.2 fun q _ => ?_
  split
  · exact hf q
  · exact .refl q

theorem State.qpSend_sends {s t : State} {q : QPair} {named : Nat} {p : Packet} (h : s.qpSend q named p = some t) : s.Sends t := by
  simp only [State.qpSend] at h
  by_cases heth : q.eth = true
  · rw [if_pos heth] at h
    obtain ⟨-, hs⟩ := Option.ite_none_right_eq_some.1 h
    obtain rfl := Option.some.inj hs
    exact s.onQp_sends _ fun q => ⟨_, _, _, rfl⟩
  · rw [if_neg heth] at h
    by_cases hport : (if named = 0xFF then q.port else named) = 0xFF
    · rw [if_pos hport] at h
      exact State.sendRoute_sends h
    · rw [if_neg hport] at h
      exact State.sendOn_sends h

theorem State.sendTo_sends {s t : State} {w : Way} {pk : Packet} (h : s.sendTo w pk = some t) : s.Sends t := by
  unfold State.sendTo at h
  split at h
  · exact State.sendRoute_sends h
  · obtain ⟨n, -, hn⟩ := Option.bind_eq_some_iff.1 h
    exact State.sendOn_sends hn
  · split at h
    · cases h
      exact .refl s
    · exact State.qpSend_sends h

theorem State.post_sends (s : State) (w : Way) (pk : Packet) : s.Sends (s.post w pk) := by
  unfold State.post
  dsimp only
  split
  · exact .of_ports s _ _ _
  · cases h : s.sendTo w pk with
    | none => exact .of_ports s _ _ _
    | some t => exact State.sendTo_sends h

theorem State.flush_sends (s : State) : s.Sends s.flush :=
  State.Sends.trans (.of_ports s _ [] _) (State.Sends.foldl (fun t _ => t.post_sends _ _) _ _)

theorem State.sendFwd_sends (s : State) (g : Fwd) : s.Sends (s.sendFwd g) := by
  unfold State.sendFwd
  split
  · exact .refl s
  · next t h => exact (State.sendRoute_sends h).trans (.of_ports t _ _ _)

theorem State.goOn_sends (s : State) : s.Sends s.goOn := by
  refine s.flush_sends.trans (State.Sends.foldl (fun t g => ?_) _ _)
  split
  · exact t.sendFwd_sends g
  · exact .refl t

theorem State.rerouted_sends (s0 s : State) : s.Sends (s0.rerouted s) := State.Sends.trans (.of_ports s _ _ _) (State.goOn_sends _)

/-! ## Queue pairs by number -/

theorem find?_map_congr {α : Type} {p : α → Bool} {f : α → α} (h : ∀ x, p (f x) = p x) (l : List α) : (l.map f).find? p = (l.find? p).map f := by
  induction l with
  | nil => rfl
  | cons x l ih =>
    rw [List.map_cons, List.find?_cons, List.find?_cons, h]
    split
    · rfl
    · exact ih

theorem State.onQp_qp {s : State} {n m : Nat} {f : QPair → QPair} (hf : ∀ q, (f q).num = q.num) :
    (s.onQp n f).qp m = (s.qp m).map fun q => if q.num == n then f q else q :=
  find?_map_congr (p := fun q : QPair => q.num == m) (fun q => by split <;> simp [hf]) _

theorem State.qp_num {s : State} {n : Nat} {q : QPair} (h : s.qp n = some q) : q.num = n := beq_iff_eq.1 (List.find?_some (p := fun q : QPair => q.num == n) h)

theorem State.onQp_qp_some {s : State} {n : Nat} {q : QPair} (h : s.qp n = some q) {f : QPair → QPair} (hf : ∀ q, (f q).num = q.num) :
    (s.onQp n f).qp n = some (f q) := by
  rw [State.onQp_qp hf, h, Option.map_some, State.qp_num h, beq_self_eq_true, if_pos rfl]

theorem State.onQp_otherQps (s : State) (n : Nat) {f : QPair → QPair} (hf : ∀ q, (f q).num = q.num) : s.otherQps (s.onQp n f) n := by
  intro m hm
  rw [State.onQp_qp hf]
  cases h : s.qp m with
  | none => rfl
  | some q =>
    have hn : (q.num == n) = false := beq_eq_false_iff_ne.2 fun e => hm ((State.qp_num h).symm.trans e)
    rw [Option.map_some, hn, if_neg Bool.false_ne_true]

/-! ## Bodies of link commands (R328) -/

/-- R328: a link command looks at its fields, then acts. -/
def linkBody (act : LCmd → State → CmdEnd) (r : List Byte) (s : State) : CmdEnd :=
  if !(linkCmd r).ok then .done stBadCmd s else act (linkCmd r) s

theorem linkBody_well {r : List Byte} (h : linkWell r) (act : LCmd → State → CmdEnd) (s : State) : linkBody act r s = act (linkCmd r) s :=
  if_neg (by rw [h]; decide)

section Rows
variable {i : Instr} {op : Nat} {cmd : BitVec 52} {act : LCmd → State → CmdEnd} (hx : ∀ s, exec i s = linkCommand op cmd.toNat s act)
include hx

theorem linkRefusal_holds : (linkRefusal op cmd).Holds i :=
  refusal_holds (ok := (· == op)) (linkBody act) hx (beq_self_eq_true op) fun r s _ hbad => if_pos (by simpa [linkWell] using hbad)

/-- A link command that is refused after its fields. -/
theorem linkRefuse_holds {st : Nat} {named : Bool} {pre : List Byte → State → Prop} (hn : named = (op == 1))
    (hb : ∀ r s, recField r 0 1 = op → pre r s → linkWell r ∧ act (linkCmd r) s = .done st s) : (refusal .link op cmd.toNat named st pre).Holds i := by
  subst hn
  exact refusal_holds (ok := (· == op)) (linkBody act) hx (beq_self_eq_true op) fun r s hop hpre =>
    (linkBody_well (hb r s hop hpre).1 act s).trans (hb r s hop hpre).2

/-- A link command that is accepted. -/
theorem linkAccept_holds {named : Bool} {pre : List Byte → State → Prop} {does : List Byte → State → State} {parts : List Aspect}
    {post : List Byte → State → State → State → Prop} (hn : named = (op == 1))
    (hb : ∀ r s, pre r s → linkWell r ∧ ∃ u, act (linkCmd r) s = .done 1 u ∧ post r s (does r s) u ∧ ∀ p, p ∉ parts → (does r s).same u p) :
    CmdClaim.Holds { bell := .link, op := op, cmd := cmd.toNat, named := named, pre := pre, does := does, parts := parts, post := post } i := by
  subst hn
  refine CmdClaim.holds_of_body _ (ok := (· == op)) (linkBody act) hx (beq_self_eq_true op) rfl fun r s _ hpre => ?_
  obtain ⟨hwell, u, hact, hrest⟩ := hb r s hpre
  exact ⟨u, (linkBody_well hwell act s).trans hact, hrest⟩

end Rows

theorem links_only {s t : State} (h : s.OnlyLinks t) (p : Aspect) (hp : p ∉ [Aspect.links]) : s.same t p := h.same p (by simpa using hp)

/-! ## QPOPEN, QPCLOSE, QPREAD (R328, R329, R331) -/

/-- The state with a new pair in place of the one of its number. -/
def State.withQp (s : State) (q : QPair) : State := { s with links := { s.links with qps := s.links.qps.filter (fun x => x.num != q.num) ++ [q] } }

theorem State.withQp_qp (s : State) (q : QPair) : (s.withQp q).qp q.num = some q := by
  have hnone : (s.links.qps.filter fun x => x.num != q.num).find? (fun x => x.num == q.num) = none :=
    List.find?_eq_none.2 fun x hx => by simpa using (List.mem_filter.1 hx).2
  rw [State.qp, State.withQp, List.find?_append, hnone, Option.none_or, List.find?_cons, beq_self_eq_true]

theorem State.sendConnect_onlyLinks (s : State) (q : QPair) : s.OnlyLinks (s.sendConnect q) := (s.sendQp_onlyLinks _ _).trans (.of_links _ _)

theorem State.sendConnect_qp {s : State} {q : QPair} (h : s.qp q.num = some q) : ∃ u, (s.sendConnect q).qp q.num = some u ∧
    ∃ v, q.Sent v ∧ u = { v with lastConnect := s.time.now } := by
  obtain ⟨v, hv, hsent⟩ := (s.post_sends (.pair q.num) { mkPacket 9 0 0 0 with sub := ctrlConnect, slot := q.num, firing := q.ctx }).qp h
  exact ⟨_, State.onQp_qp_some hv fun _ => rfl, v, hsent, rfl⟩

theorem State.portAbsent_iff (s : State) (r : List Byte) : s.portAbsent (linkCmd r) = true ↔ ¬(recField r 3 1 = 0xFF ∨ (s.cmdPort r).isSome = true) := by
  have hport : s.port (linkCmd r).port = s.cmdPort r := rfl
  rw [State.portAbsent, hport, Bool.and_eq_true, bne_iff_ne, not_or, Bool.not_eq_true, Option.isSome_eq_false_iff]
  rfl

theorem ctxReady_iff (s : State) (r : List Byte) : ((s.ctx (linkCmd r).ctx).any (·.ready)) = true ↔ ∃ k, s.cmdCtx r = some k ∧ k.st = .ready := by
  rw [Option.any_eq_true]
  refine exists_congr fun k => ?_
  rw [Context.ready, beq_iff_eq]
  rfl

theorem qpopen_holds (cmd : BitVec 52) : ∀ c ∈ linkCommands (.qpopen cmd), c.Holds (.qpopen cmd) := by
  have hx (s : State) : exec (.qpopen cmd) s = linkCommand 1 cmd.toNat s _ := show execQpopen cmd s = _ from rfl
  have hthere (r : List Byte) (s : State) : ((linkCmd r).xport = 1 ∧ s.part.ethernet = []) ∨ s.portAbsent (linkCmd r) = true ↔
      ¬((recField r 10 1 = 1 → s.part.ethernet ≠ []) ∧ (recField r 3 1 = 0xFF ∨ (s.cmdPort r).isSome = true)) := by
    rw [State.portAbsent_iff, not_and_or, Classical.not_imp, not_not]
    rfl
  have hbusy (r : List Byte) (s : State) : ((s.qp (linkCmd r).qp).any fun q => q.st != .closed) = true ↔
      ∃ q, s.qp (recField r 4 2) = some q ∧ q.st ≠ .closed := by
    rw [Option.any_eq_true]
    refine exists_congr fun q => ?_
    rw [bne_iff_ne]
    rfl
  refine List.forall_mem_cons.2 ⟨?_, List.forall_mem_cons.2 ⟨?_, List.forall_mem_cons.2 ⟨?_, List.forall_mem_cons.2 ⟨?_,
    List.forall_mem_cons.2 ⟨linkRefusal_holds hx, List.forall_mem_nil _⟩⟩⟩⟩⟩
  · refine linkAccept_holds hx rfl fun r s ⟨⟨hwell, hready⟩, hport, hclosed⟩ => ⟨hwell, (s.withQp (linkCmd r).pair).sendConnect (linkCmd r).pair, ?_, ?_,
      links_only (.trans (.of_links s _) (State.sendConnect_onlyLinks _ _))⟩
    · have hfree : ¬ ((s.qp (linkCmd r).qp).any fun q => q.st != .closed) = true := fun h =>
        have ⟨q, hq, hst⟩ := (hbusy r s).1 h
        hst (hclosed q hq)
      simp only [(ctxReady_iff s r).2 hready, Bool.not_true, Bool.false_eq_true, if_false, if_neg (fun h => (hthere r s).1 h hport), if_neg hfree]
      rfl
    · obtain ⟨u, hu, v, ⟨_, _, _, rfl⟩, rfl⟩ := State.sendConnect_qp (s.withQp_qp (linkCmd r).pair)
      exact ⟨_, hu, ⟨rfl, rfl, rfl, rfl, rfl, rfl, rfl, rfl, rfl, rfl, rfl, rfl, rfl, rfl, rfl, rfl⟩, rfl⟩
  · refine linkRefuse_holds hx rfl fun r s _ ⟨hwell, hno⟩ => ⟨hwell, ?_⟩
    have hready : ((s.ctx (linkCmd r).ctx).any (·.ready)) = false := Bool.eq_false_iff.2 fun h =>
      have ⟨k, hk, hst⟩ := (ctxReady_iff s r).1 h
      hno k hk hst
    simp only [hready, Bool.not_false, if_true]
    rfl
  · refine linkRefuse_holds hx rfl fun r s _ ⟨⟨hwell, hready⟩, hno⟩ => ⟨hwell, ?_⟩
    simp only [(ctxReady_iff s r).2 hready, Bool.not_true, Bool.false_eq_true, if_false, if_pos ((hthere r s).2 hno)]
    rfl
  · refine linkRefuse_holds hx rfl fun r s _ ⟨⟨hwell, hready⟩, hport, hopen⟩ => ⟨hwell, ?_⟩
    simp only [(ctxReady_iff s r).2 hready, Bool.not_true, Bool.false_eq_true, if_false, if_neg (fun h => (hthere r s).1 h hport),
      if_pos ((hbusy r s).2 hopen)]
    rfl

theorem qpclose_holds (cmd : BitVec 52) : ∀ c ∈ linkCommands (.qpclose cmd), c.Holds (.qpclose cmd) := by
  have hx (s : State) : exec (.qpclose cmd) s = linkCommand 2 cmd.toNat s _ := show execQpclose cmd s = _ from rfl
  refine List.forall_mem_cons.2 ⟨?_, List.forall_mem_cons.2 ⟨linkRefusal_holds hx, List.forall_mem_nil _⟩⟩
  refine linkAccept_holds hx rfl fun r s hwell => ⟨hwell, ?_⟩
  have hqp : s.qp (linkCmd r).qp = s.qp (recField r 4 2) := rfl
  cases hq : s.qp (recField r 4 2) with
  | none =>
    refine ⟨s, ?_, rfl, fun p _ => s.same_refl p⟩
    simp only [hqp, hq]
    rfl
  | some q =>
    refine ⟨s.closeQp q, ?_, ?_, links_only (s.closeQp_onlyLinks q)⟩
    · simp only [hqp, hq]
      rfl
    · have hn := State.qp_num hq
      cases hst : q.st with
      | closed | closing => simp only [State.closeQp, hst]
      | connecting =>
        simp only [State.closeQp, hst]
        rw [← hn]
        exact ⟨s.onQp_otherQps _ fun _ => rfl, State.onQp_qp_some (hn.symm ▸ hq) (f := fun q => { q with st := .closed }) fun _ => rfl⟩
      | connected =>
        simp only [State.closeQp, hst, hn]
        obtain ⟨v, hv, _, _, _, rfl⟩ := (s.post_sends (.pair (recField r 4 2)) { mkPacket 9 0 0 0 with sub := ctrlClose, slot := recField r 4 2 }).qp hq
        exact ⟨_, State.onQp_qp_some hv fun _ => rfl, rfl, rfl⟩

/-- R331: the layout of the report of a queue pair. -/
def qpLayout : Option QPair → List (Nat × Nat)
  | none => [(64, 0)]
  | some q => [(4, q.st.code), (4, q.losses.toNat), (8, q.applied.toNat), (8, q.completed.toNat), (40, 0)]

theorem qpLayout_size (q : Option QPair) : ((qpLayout q).map (·.1)).sum = 64 := by cases q <;> rfl

theorem qpread_holds (cmd : BitVec 52) : ∀ c ∈ linkCommands (.qpread cmd), c.Holds (.qpread cmd) := by
  have hx (s : State) : exec (.qpread cmd) s = linkCommand 3 cmd.toNat s _ := show execQpread cmd s = _ from rfl
  refine List.forall_mem_cons.2 ⟨?_, List.forall_mem_cons.2 ⟨linkRefusal_holds hx, List.forall_mem_nil _⟩⟩
  refine linkAccept_holds hx rfl fun r s ⟨hwell, hrep⟩ => ⟨hwell,
    s.putReport 0 (recField r 40 8) (bytesOf (qpLayout (s.qp (recField r 4 2)))) (.bell cmd.toNat), ?_, ?_, fun p hp => ?_⟩
  · have hqp : s.qp (linkCmd r).qp = s.qp (recField r 4 2) := rfl
    refine Eq.trans ?_ (State.reportAt_done ((bytesOf_length _).trans (qpLayout_size _)) hrep)
    simp only [hqp]
    cases s.qp (recField r 4 2) with
    | none => exact congrArg (s.reportAt cmd.toNat 0 (linkCmd r).addr) (bytesOf_single 64)
    | some q => simp only [qpLayout, bytesOf, List.append_assoc, List.append_nil]; rfl
  · refine State.reports_bytesOf _ _ _ _ _ (qpLayout (s.qp (recField r 4 2))) _ rfl (qpLayout_size _) ?_ ?_
    all_goals
      cases s.qp (recField r 4 2) with
      | none => simp [placedAt, qpLayout]
      | some q => cases hst : q.st <;> simp [placedAt, qpLayout, hst, QpSt.code]
  · simp only [List.mem_cons, List.not_mem_nil, or_false, not_or] at hp
    exact State.putReport_same _ _ _ _ _ p hp.1 hp.2

/-! ## Ports (R321, R331) -/

theorem portAbsent_false {s : State} {r : List Byte} (h : (s.cmdPort r).isSome = true) : s.portAbsent (linkCmd r) = false :=
  Bool.eq_false_iff.2 fun ha => (s.portAbsent_iff r).1 ha (.inr h)

/-- R328: a command of one port does not name 0xFF. -/
theorem linkWell_port {r : List Byte} (h : linkWell r) (hop : recField r 0 1 ≠ 1) : recField r 3 1 ≠ 0xFF := by
  rw [linkWell, LCmd.ok] at h
  simp only [Bool.and_eq_true, Bool.or_eq_true, beq_iff_eq, bne_iff_ne] at h
  exact h.2.resolve_left hop

theorem portAbsent_true {s : State} {r : List Byte} (h : linkWell r) (hop : recField r 0 1 ≠ 1) (hp : s.cmdPort r = none) :
    s.portAbsent (linkCmd r) = true :=
  (s.portAbsent_iff r).2 (not_or.2 ⟨linkWell_port h hop, by rw [hp]; exact Bool.false_ne_true⟩)

theorem portfence_holds (cmd : BitVec 52) : ∀ c ∈ linkCommands (.portfence cmd), c.Holds (.portfence cmd) := by
  have hx (s : State) : exec (.portfence cmd) s = linkCommand 4 cmd.toNat s _ := show execPortfence cmd s = _ from rfl
  refine List.forall_mem_cons.2 ⟨?_, List.forall_mem_cons.2 ⟨?_, List.forall_mem_cons.2 ⟨linkRefusal_holds hx, List.forall_mem_nil _⟩⟩⟩
  · refine linkAccept_holds hx rfl fun r s ⟨hwell, hport⟩ => ⟨hwell, _, ?_, trivial, fun p _ => State.same_refl _ p⟩
    simp only [portAbsent_false hport, Port.usable, List.isEmpty_iff, Bool.or_eq_true, beq_iff_eq, Bool.false_eq_true, if_false]
    rfl
  · refine linkRefuse_holds hx rfl fun r s hop ⟨hwell, hno⟩ => ⟨hwell, if_pos (portAbsent_true hwell (by rw [hop]; decide) hno)⟩

theorem Port.train_training (p : Port) (now : Nat) :
    ((p.train now).st = .training ∨ (p.train now).st = .fenced) ∧ (p.train now).lanes = 0 ∧ (p.train now).trainings = satAdd32 p.trainings 1 := by
  unfold Port.train
  dsimp only
  split
  · exact ⟨.inr rfl, rfl, rfl⟩
  · exact ⟨.inl rfl, rfl, rfl⟩

theorem portunfence_holds (cmd : BitVec 52) : ∀ c ∈ linkCommands (.portunfence cmd), c.Holds (.portunfence cmd) := by
  have hx (s : State) : exec (.portunfence cmd) s = linkCommand 5 cmd.toNat s _ := show execPortunfence cmd s = _ from rfl
  refine List.forall_mem_cons.2 ⟨?_, List.forall_mem_cons.2 ⟨?_, List.forall_mem_cons.2 ⟨?_, List.forall_mem_cons.2
    ⟨linkRefusal_holds hx, List.forall_mem_nil _⟩⟩⟩⟩
  · refine linkAccept_holds hx rfl fun r s ⟨hwell, q, hq, hf, hd⟩ => ⟨hwell, s, ?_, trivial, fun p _ => s.same_refl p⟩
    have hport : s.port (linkCmd r).port = some q := hq
    have hno : (q.st == .fenced || q.st == .down) = false := by simp [hf, hd]
    simp only [portAbsent_false (by rw [hq]; rfl : (s.cmdPort r).isSome = true), hport, Option.any_some, hno, Bool.false_eq_true, if_false]
    rfl
  · refine linkAccept_holds hx rfl fun r s ⟨hwell, q, hq, hst⟩ => ⟨hwell, s.trainPort (recField r 3 1), ?_, fun p _ => p.train_training _,
      fun p _ => State.same_refl _ p⟩
    have hport : s.port (linkCmd r).port = some q := hq
    have hyes : (q.st == .fenced || q.st == .down) = true := by simpa using hst
    simp only [portAbsent_false (by rw [hq]; rfl : (s.cmdPort r).isSome = true), hport, Option.any_some, hyes, Bool.false_eq_true, if_false, if_true]
    rfl
  · refine linkRefuse_holds hx rfl fun r s hop ⟨hwell, hno⟩ => ⟨hwell, if_pos (portAbsent_true hwell (by rw [hop]; decide) hno)⟩

/-- R331: the layout of the report of a port. -/
def portLayout (p : Port) (fwdLoss : BitVec 32) : List (Nat × Nat) :=
  [(1, p.st.code), (1, p.lanes), (2, 0), (4, p.replayed.toNat), (4, p.discarded.toNat), (4, p.packetsBad.toNat), (4, p.trainings.toNat),
    (4, fwdLoss.toNat), (40, 0)]

theorem portLayout_size (p : Port) (fwdLoss : BitVec 32) : ((portLayout p fwdLoss).map (·.1)).sum = 64 := rfl

theorem portread_holds (cmd : BitVec 52) : ∀ c ∈ linkCommands (.portread cmd), c.Holds (.portread cmd) := by
  have hx (s : State) : exec (.portread cmd) s = linkCommand 7 cmd.toNat s _ := show execPortread cmd s = _ from rfl
  refine List.forall_mem_cons.2 ⟨?_, List.forall_mem_cons.2 ⟨?_, List.forall_mem_cons.2 ⟨linkRefusal_holds hx, List.forall_mem_nil _⟩⟩⟩
  · refine linkAccept_holds hx rfl fun r s ⟨hwell, hsome, hrep⟩ => ?_
    obtain ⟨q, hq⟩ := Option.isSome_iff_exists.1 hsome
    have hport : s.port (linkCmd r).port = some q := hq
    refine ⟨hwell, s.putReport 0 (recField r 40 8) (bytesOf (portLayout q s.links.fwdLoss)) (.bell cmd.toNat), ?_, fun p hp => ?_, fun p hp => ?_⟩
    · have hbytes : leBytes 1 q.st.code ++ leBytes 1 q.lanes ++ leBytes 2 0 ++ leBytes 4 q.replayed.toNat ++ leBytes 4 q.discarded.toNat ++
          leBytes 4 q.packetsBad.toNat ++ leBytes 4 q.trainings.toNat ++ leBytes 4 s.links.fwdLoss.toNat ++ leBytes 40 0 =
          bytesOf (portLayout q s.links.fwdLoss) := by
        simp only [portLayout, bytesOf, List.append_assoc, List.append_nil]
      simp only [hport, hbytes]
      exact State.reportAt_done ((bytesOf_length _).trans (portLayout_size ..)) hrep
    · obtain rfl : q = p := Option.some.inj (hq.symm.trans hp)
      refine State.reports_bytesOf _ _ _ _ _ (portLayout q s.links.fwdLoss) _ rfl (portLayout_size ..) ?_ ?_
      all_goals cases hst : q.st <;> simp [placedAt, portLayout, hst, PortSt.code]
    · simp only [List.mem_cons, List.not_mem_nil, or_false, not_or] at hp
      exact State.putReport_same _ _ _ _ _ p hp.1 hp.2
  · refine linkRefuse_holds hx rfl fun r s _ ⟨hwell, hno⟩ => ⟨hwell, ?_⟩
    have hport : s.port (linkCmd r).port = none := hno
    simp only [hport]
    rfl

/-! ## ROUTE and TIMECFG (R325, R334) -/

theorem route_holds (cmd : BitVec 52) : ∀ c ∈ linkCommands (.route cmd), c.Holds (.route cmd) := by
  have hx (s : State) : exec (.route cmd) s = linkCommand 6 cmd.toNat s _ := show execRoute cmd s = _ from rfl
  refine List.forall_mem_cons.2 ⟨?_, List.forall_mem_cons.2 ⟨linkRefusal_holds hx, List.forall_mem_nil _⟩⟩
  refine linkAccept_holds hx rfl fun r s hwell => ⟨hwell, _, rfl, ?_, fun p _ => State.same_refl _ p⟩
  have hroutes := (State.rerouted_sends s { s with links := { s.links with
    routes := assocSet s.links.routes (recField r 4 2) (BitVec.ofNat 24 (recField r 32 4)) } }).routes
  refine ⟨(congrArg (assocGet · _) hroutes).trans ?_, fun n hn => (congrArg (assocGet · n) hroutes).trans ?_⟩
  · exact (assocGet_assocSet ..).trans (if_pos rfl)
  · exact (assocGet_assocSet ..).trans (if_neg hn)

theorem State.withTimeBase_same (s : State) (x : PodTime) (p : Aspect) (h : p ≠ .podTime) : s.same { s with time := x } p := by
  have h' := s.same_refl p
  cases p with
  | podTime => exact absurd rfl h
  | _ => exact h'

theorem timecfg_holds (cmd : BitVec 52) : ∀ c ∈ linkCommands (.timecfg cmd), c.Holds (.timecfg cmd) := by
  have hx (s : State) : exec (.timecfg cmd) s = linkCommand 8 cmd.toNat s _ := show execTimecfg cmd s = _ from rfl
  refine List.forall_mem_cons.2 ⟨?_, List.forall_mem_cons.2 ⟨?_, List.forall_mem_cons.2 ⟨linkRefusal_holds hx, List.forall_mem_nil _⟩⟩⟩
  · refine linkAccept_holds hx rfl fun r s ⟨hwell, hrole⟩ => ⟨hwell, { s with time := { s.time with role := recField r 13 1 } },
      if_neg (fun ⟨hne, hnone⟩ => hrole.elim hne fun h => h hnone), rfl, fun p hp => s.withTimeBase_same _ p (by simpa using hp)⟩
  · exact linkRefuse_holds hx rfl fun r s _ ⟨hwell, hrole⟩ => ⟨hwell, if_pos hrole⟩

/-- Settles O51: command by command, by what sending leaves of queue pairs and routes. -/
theorem linkCommands_hold : Obligations.LinkCommands := by
  intro i c
  cases i with
  | qpopen cmd => exact qpopen_holds cmd c
  | qpclose cmd => exact qpclose_holds cmd c
  | qpread cmd => exact qpread_holds cmd c
  | portfence cmd => exact portfence_holds cmd c
  | portunfence cmd => exact portunfence_holds cmd c
  | route cmd => exact route_holds cmd c
  | portread cmd => exact portread_holds cmd c
  | timecfg cmd => exact timecfg_holds cmd c
  | _ => exact emptied

end Sys2Proof.Machine
end

section
-- One declaration after another: the whole text is checked in one process, of bounded memory.
set_option Elab.async false
/-! SUPPORT. Answers over the mailbox and the management path (26_platform R374, R375, R379): where the fields of an answer stand, and
request by request what is answered. -/

namespace Sys2Proof.Machine

/-! ## The bytes of an answer -/

theorem recField_here (n v : Nat) (r : List Byte) : recField (leBytes n v ++ r) 0 n = v % 2 ^ (8 * n) := by
  rw [recField, List.drop_zero, List.take_left' (leBytes_length n v), leVal_leBytes]

theorem drop_field {n off : Nat} (h : n ≤ off) (v : Nat) (r : List Byte) : (leBytes n v ++ r).drop off = r.drop (off - n) := by
  rw [List.drop_append, leBytes_length, List.drop_eq_nil_of_le (by rw [leBytes_length]; exact h), List.nil_append]

theorem recField_past {k off : Nat} (h : k ≤ off) (v n : Nat) (r : List Byte) : recField (leBytes k v ++ r) off n = recField r (off - k) n := by
  rw [recField, drop_field h, recField]

/-- The four bytes of an SPDM header before the body of a message (log entry 39). -/
theorem recField_spdmHead (code p1 p2 : Nat) (r : List Byte) : recField (spdmHead code p1 p2 ++ r) 1 1 = code % 2 ^ 8 ∧
    recField (spdmHead code p1 p2 ++ r) 2 1 = p1 % 2 ^ 8 ∧ recField (spdmHead code p1 p2 ++ r) 3 1 = p2 % 2 ^ 8 := by
  simp only [spdmHead, List.append_assoc]
  refine ⟨?_, ?_, ?_⟩
  · exact (recField_past (by decide) _ _ _).trans (recField_here 1 code _)
  · exact (recField_past (by decide) _ _ _).trans ((recField_past (by decide) _ _ _).trans (recField_here 1 p1 _))
  · exact (recField_past (by decide) _ _ _).trans ((recField_past (by decide) _ _ _).trans ((recField_past (by decide) _ _ _).trans
      (recField_here 1 p2 _)))

theorem drop_spdmHead {off : Nat} (h : 4 ≤ off) (code p1 p2 : Nat) (r : List Byte) : (spdmHead code p1 p2 ++ r).drop off = r.drop (off - 4) := by
  simp only [spdmHead, List.append_assoc]
  rw [drop_field (by omega), drop_field (by omega), drop_field (by omega), drop_field (by omega)]
  congr 1

theorem recField_body {off : Nat} (h : 4 ≤ off) (code p1 p2 n : Nat) (r : List Byte) :
    recField (spdmHead code p1 p2 ++ r) off n = recField r (off - 4) n := by
  rw [recField, drop_spdmHead h, recField]

theorem spdmHead_length (code p1 p2 : Nat) : (spdmHead code p1 p2).length = 4 := rfl

/-! ## What an answer leaves -/

/-- A state that differs in the host's side only is the same elsewhere. -/
theorem State.withHost_same (s : State) (h : HostSide) (p : Aspect) (hp : p ∉ [Aspect.platform]) : s.same { s with host := h } p := by
  have h' := s.same_refl p
  cases p with
  | platform => exact absurd List.mem_cons_self hp
  | _ => exact h'

/-- A request whose answer has the code and tells what the row says. -/
theorem spdmAnswer_holds {i : Instr} {code : Nat} {f : State → List Byte → Prop} (a : State → List Byte)
    (hx : ∀ s, exec i s = s.spdmAnswer (a s)) (hcode : ∀ s, recField (a s) 1 1 = code) (ht : ∀ s, f s (a s)) : (spdmClaim code f).Holds i :=
  fun s _ => ⟨_, hx s, ⟨⟨rfl, rfl, rfl⟩, rfl, a s, rfl, hcode s, ht s⟩, fun p hp => s.withHost_same _ p hp⟩

/-- R374: a portion of a certificate chain of which `left` bytes were left. -/
def certAnswer (part : List Byte) (left : Nat) : List Byte :=
  spdmHead 0x02 0 0 ++ (leBytes 2 part.length ++ (leBytes 2 (left - part.length) ++ part))

theorem spdmRow_holds (i : Instr) (code : Nat) (f : State → List Byte → Prop) (h : spdmRow i = some (code, f)) : (spdmClaim code f).Holds i := by
  cases i with
  | getVersion =>
    cases h
    exact spdmAnswer_holds _ (fun _ => rfl) (fun _ => rfl) fun _ => ⟨rfl, rfl⟩
  | getCapabilities =>
    cases h
    exact spdmAnswer_holds _ (fun _ => rfl) (fun _ => rfl) fun _ => ⟨rfl, rfl⟩
  | negotiateAlgorithms =>
    cases h
    exact spdmAnswer_holds _ (fun _ => rfl) (fun _ => rfl) fun _ => ⟨rfl, rfl⟩
  | getDigests =>
    cases h
    refine spdmAnswer_holds (fun _ => spdmHead 0x01 0 1 ++ chainDigest) (fun _ => rfl) (fun _ => (recField_spdmHead ..).1) fun _ =>
      ⟨(recField_spdmHead ..).2.2, drop_spdmHead (Nat.le_refl 4) ..⟩
  | getCertificate off len =>
    cases h
    refine spdmAnswer_holds (fun _ => certAnswer ((Config.certChain.drop off.toNat).take len.toNat) (Config.certChain.drop off.toNat).length) (fun s => ?_)
      (fun _ => (recField_spdmHead ..).1) fun _ => ?_
    · simp only [certAnswer, ← List.append_assoc]
      rfl
    rw [certAnswer, drop_spdmHead (by decide), drop_field (by decide), drop_field (by decide)]
    rfl
  | unsupportedRequest code =>
    cases h
    refine spdmAnswer_holds (fun _ => spdmHead 0x7F 7 code.toNat ++ []) (fun _ => rfl) (fun _ => (recField_spdmHead ..).1) fun _ =>
      ⟨(recField_spdmHead ..).2.1, (recField_spdmHead ..).2.2.trans (Nat.mod_eq_of_lt code.isLt)⟩
  | _ => exact noRow h

theorem challenge_holds (nonce : BitVec 256) : (challengeClaim nonce).Holds (.challenge nonce) := by
  intro s _
  refine ⟨_, rfl, ⟨⟨rfl, rfl, rfl⟩, rfl, spdmHead 0x03 0 1 ++ chainDigest ++ leBytes 32 s.fresh.1.toNat ++ leBytes 2 0, s.fresh.1.toNat, ?_, ?_, ?_, ?_, rfl⟩,
    fun p hp => State.withHost_same s.fresh.2 _ p hp⟩
  · simp only [List.length_append, spdmHead_length, chainDigest, flitBytes, leBytes_length]
  · simp only [List.append_assoc]
    exact (recField_spdmHead ..).1
  · simp only [List.append_assoc]
    rw [drop_spdmHead (Nat.le_refl 4)]
    exact List.take_left' (leBytes_length ..)
  · simp only [List.append_assoc]
    rw [drop_spdmHead (by decide), chainDigest, flitBytes, drop_field (by decide)]
    exact List.take_left' (leBytes_length ..)

/-! ## Measurements (R371, R374) -/

theorem Boot.digestOf_eq (b : Boot) : ∀ i, b.digestOf i = b.measurement i
  | 0 | 1 | 2 | 3 | 4 | 5 => rfl
  | n + 6 => by
    rw [Boot.digestOf, if_neg (by omega), if_neg (by omega), if_neg (by omega), if_neg (by omega), if_neg (by omega)]
    rfl

/-- The blocks of the measurements taken. -/
def Boot.blocks (b : Boot) : List (List Byte) := (List.range 5).filterMap fun i => (b.measurement (i + 1)).map fun d => measureBlock (i + 1) d

/-- A MEASUREMENTS answer with `count` in its header and these blocks. -/
def measureAnswer (count : Nat) (blocks : List (List Byte)) : List Byte :=
  spdmHead 0x60 count 0 ++ (leBytes 1 blocks.length ++ (leBytes 3 blocks.flatten.length ++ blocks.flatten))

theorem Boot.blocks_length (b : Boot) : b.blocks.length = ((List.range 5).filter fun i => (b.digestOf (i + 1)).isSome).length := by
  rw [Boot.blocks, List.length_filterMap_eq_countP, List.countP_eq_length_filter]
  simp only [Option.isSome_map, Boot.digestOf_eq]

theorem Boot.blocks_length_lt (b : Boot) : b.blocks.length < 2 ^ 8 :=
  (List.length_filterMap_le ..).trans_lt (by decide)

theorem measureAnswer_fields (count : Nat) (blocks : List (List Byte)) : recField (measureAnswer count blocks) 1 1 = 0x60 ∧
    recField (measureAnswer count blocks) 2 1 = count % 2 ^ 8 ∧ recField (measureAnswer count blocks) 4 1 = blocks.length % 2 ^ 8 ∧
    (measureAnswer count blocks).drop 8 = blocks.flatten := by
  refine ⟨(recField_spdmHead ..).1, (recField_spdmHead ..).2.1, ?_, ?_⟩
  · exact (recField_body (Nat.le_refl 4) ..).trans (recField_here 1 _ _)
  · rw [measureAnswer, drop_spdmHead (by decide), drop_field (by decide), drop_field (by decide)]
    rfl

theorem execGetMeasurements_eq (index : BitVec 8) (s : State) : execGetMeasurements index s =
    if index = 0 then s.spdmAnswer (measureAnswer s.boot.blocks.length [])
    else if index = 0xFF then s.spdmAnswer (measureAnswer 0 s.boot.blocks)
    else match s.boot.measurement index.toNat with
    | some d => s.spdmAnswer (measureAnswer 0 [measureBlock index.toNat d])
    | none => s.spdmAnswer (spdmError 1 0) := by
  simp only [execGetMeasurements, measureAnswer, List.append_assoc]
  rfl

theorem measure_holds (index : BitVec 8) (d : BitVec 512) : (measureClaim index d).Holds (.getMeasurements index) := by
  intro s hd
  have hm : s.boot.measurement index.toNat = some d := (Boot.digestOf_eq ..).symm.trans hd
  have h0 : index ≠ 0 := by rintro rfl; cases hm
  have h255 : index ≠ 0xFF := by rintro rfl; cases hm
  have hx : exec (.getMeasurements index) s = s.spdmAnswer (measureAnswer 0 [measureBlock index.toNat d]) := by
    refine (execGetMeasurements_eq index s).trans ?_
    rw [if_neg h0, if_neg h255, hm]
  obtain ⟨hcode, -, hcount, hbody⟩ := measureAnswer_fields 0 [measureBlock index.toNat d]
  have hflat : (measureAnswer 0 [measureBlock index.toNat d]).drop 8 = leBytes 1 index.toNat ++ (leBytes 1 1 ++ (leBytes 2 67 ++ (leBytes 1 0 ++
      (leBytes 2 64 ++ flitBytes d)))) := by
    rw [hbody, List.flatten_singleton, measureBlock]
    simp only [List.append_assoc]
  refine ⟨_, hx, ⟨⟨rfl, rfl, rfl⟩, rfl, _, rfl, hcode, hcount, ?_, ?_⟩, fun p hp => s.withHost_same _ p hp⟩
  · rw [recField, hflat, List.take_left' (leBytes_length ..), leVal_leBytes]
    exact Nat.mod_eq_of_lt index.isLt
  · rw [show (15 : Nat) = 8 + 7 from rfl, ← List.drop_drop, hflat, drop_field (by decide), drop_field (by decide), drop_field (by decide),
      drop_field (by decide), drop_field (by decide)]
    rfl

theorem measureCount_holds : measureCountClaim.Holds (.getMeasurements 0) := by
  intro s _
  obtain ⟨hcode, hp1, hcount, -⟩ := measureAnswer_fields s.boot.blocks.length []
  refine ⟨_, (execGetMeasurements_eq 0 s).trans (if_pos rfl), ⟨⟨rfl, rfl, rfl⟩, rfl, _, rfl, hcode, ?_, hcount⟩, fun p hp => s.withHost_same _ p hp⟩
  rw [hp1, Nat.mod_eq_of_lt s.boot.blocks_length_lt, Boot.blocks_length]
  rfl

theorem measureOther_holds (index : BitVec 8) : ∀ c ∈ measureOtherClaims index, c.Holds (.getMeasurements index) := by
  refine List.forall_mem_cons.2 ⟨?_, List.forall_mem_cons.2 ⟨?_, List.forall_mem_nil _⟩⟩
  · rintro s rfl
    obtain ⟨hcode, -, hcount, hbody⟩ := measureAnswer_fields 0 s.boot.blocks
    refine ⟨_, (execGetMeasurements_eq 0xFF s).trans ((if_neg (by decide)).trans (if_pos rfl)),
      ⟨⟨rfl, rfl, rfl⟩, rfl, _, rfl, hcode, ?_, ?_⟩, fun p hp => s.withHost_same _ p hp⟩
    · rw [hcount, Nat.mod_eq_of_lt s.boot.blocks_length_lt, Boot.blocks_length]
      rfl
    · rw [hbody, Boot.blocks]
      simp only [← Boot.digestOf_eq]
      rfl
  · rintro s ⟨h0, h255, hnone⟩
    have hx : exec (.getMeasurements index) s = s.spdmAnswer (spdmError 1 0) := by
      refine (execGetMeasurements_eq index s).trans ?_
      rw [if_neg h0, if_neg h255, (Boot.digestOf_eq ..).symm.trans hnone]
    exact ⟨_, hx, ⟨⟨rfl, rfl, rfl⟩, rfl, _, rfl, rfl⟩, fun p hp => s.withHost_same _ p hp⟩

/-! ## The management path (R375, R379) -/

/-- A management read that is answered differs in the host's side and the free values taken. -/
theorem State.withMgmt_same (s : State) (h : HostSide) (n : Nat) (p : Aspect) (hp : p ∉ [Aspect.platform, Aspect.free]) :
    s.same { s with host := h, free := n } p := by
  have h' := s.same_refl p
  cases p with
  | platform => exact absurd List.mem_cons_self hp
  | free => exact absurd (List.mem_cons_of_mem _ List.mem_cons_self) hp
  | _ => exact h'

theorem mgmtRead_some {item : BitVec 8} {s : State} {bs : List Byte} (h : item = 2 ∨ s.boot.recovery = false)
    (hb : s.mgmtItem item.toNat = some bs) : exec (.mgmtRead item) s =
      .next { s with host := { s.host with mgmt := s.host.mgmt ++ [bs] }, free := s.free + 4 } := by
  have hno : (s.boot.recovery && item != 2) = false := by
    obtain rfl | h := h
    · exact Bool.and_false _
    · rw [h, Bool.false_and]
  show execMgmtRead item s = _
  simp only [execMgmtRead, hno, Bool.false_eq_true, if_false, hb]

theorem mgmt_holds {item : BitVec 8} {a : State → List Byte} (h : ∀ s : State, s.mgmtItem item.toNat = some (a s)) :
    (mgmtClaim item a).Holds (.mgmtRead item) :=
  fun s hpre => ⟨_, mgmtRead_some hpre (h s), ⟨⟨rfl, rfl, rfl⟩, rfl, rfl⟩, fun p hp => s.withMgmt_same _ _ p hp⟩

theorem mgmtRow_holds (item : BitVec 8) (a : State → List Byte) (h : mgmtRow item = some a) : (mgmtClaim item a).Holds (.mgmtRead item) := by
  unfold mgmtRow at h
  split at h
  all_goals cases h
  all_goals exact mgmt_holds fun _ => rfl

theorem mgmtOther_holds (item : BitVec 8) : ∀ c ∈ mgmtOtherClaims item, c.Holds (.mgmtRead item) := by
  refine List.forall_mem_cons.2 ⟨?_, List.forall_mem_cons.2 ⟨?_, List.forall_mem_nil _⟩⟩
  · rintro s ⟨rfl | rfl, hrec⟩
    all_goals exact ⟨_, mgmtRead_some (.inr hrec) rfl, ⟨⟨rfl, rfl, rfl⟩, rfl, _, rfl⟩, fun p hp => s.withMgmt_same _ _ p hp⟩
  · intro s hpre
    refine ⟨s, ?_, trivial, fun p _ => s.same_refl p⟩
    show execMgmtRead item s = _
    have hnone : (if (s.boot.recovery && item != 2) = true then none else s.mgmtItem item.toNat) = none := by
      obtain hbig | ⟨hne, hrec⟩ := hpre
      · split
        · rfl
        · unfold State.mgmtItem
          split
          all_goals simp_all
      · rw [hrec, Bool.true_and, if_pos (bne_iff_ne.2 hne)]
    rw [execMgmtRead, hnone]

/-- Settles O60: request by request, by where the fields of its answer stand. -/
theorem attestationAndManagement : Obligations.AttestationAndManagement :=
  ⟨spdmRow_holds, challenge_holds, fun n => ⟨measure_holds n, measureOther_holds n⟩, measureCount_holds, fun item =>
    ⟨mgmtRow_holds item, mgmtOther_holds item⟩⟩

end Sys2Proof.Machine
end

section
-- One declaration after another: the whole text is checked in one process, of bounded memory.
set_option Elab.async false
/-! SUPPORT. The platform (26_platform R368 to R377): what a reset keeps, when a boot stage is accepted, what the host's registers take,
and what a host event and fenced ports leave. -/

namespace Sys2Proof.Machine

/-! ## What an event leaves -/

/-- A state that differs in the platform only. -/
theorem State.platform_same (s : State) (pt : Part) (b : Boot) (pw : Power) (e : Errors) (h : HostSide) (p : Aspect) (hp : p ∉ [Aspect.platform]) :
    s.same { s with part := pt, boot := b, power := pw, errors := e, host := h } p := by
  have h' := s.same_refl p
  cases p with
  | platform => exact absurd List.mem_cons_self hp
  | _ => exact h'

/-- R370: a host event writes host memory only. -/
theorem State.event_hostOnly (s : State) (cls ctx code data : Nat) : ∃ m, s.event cls ctx code data = { s with mem := { s.mem with host := m } } := by
  unfold State.event
  split
  · exact ⟨s.mem.host, rfl⟩
  · dsimp only
    split
    · exact ⟨_, rfl⟩
    · exact ⟨_, rfl⟩

theorem State.event_platformBut (s : State) (cls ctx code data : Nat) : s.platformBut (s.event cls ctx code data) := by
  obtain ⟨m, h⟩ := s.event_hostOnly cls ctx code data
  rw [h]
  exact ⟨rfl, rfl, rfl⟩

theorem State.event_power (s : State) (cls ctx code data : Nat) : (s.event cls ctx code data).power = s.power := by
  obtain ⟨m, h⟩ := s.event_hostOnly cls ctx code data
  rw [h]

theorem State.event_host (s : State) (cls ctx code data : Nat) : (s.event cls ctx code data).host = s.host := by
  obtain ⟨m, h⟩ := s.event_hostOnly cls ctx code data
  rw [h]

theorem State.event_links (s : State) (cls ctx code data : Nat) : (s.event cls ctx code data).links = s.links := by
  obtain ⟨m, h⟩ := s.event_hostOnly cls ctx code data
  rw [h]

/-- R370: an event does not look at the power state. -/
theorem State.event_withPower (s : State) (pw : Power) (cls ctx code data : Nat) :
    ({ s with power := pw } : State).event cls ctx code data = { s.event cls ctx code data with power := pw } := by
  simp only [State.event, apply_ite (fun t : State => { t with power := pw })]
  rfl

/-! ## Reset -/

theorem State.rebooted_holds (s : State) : s.Rebooted s.rebooted where
  boot := rfl
  part := rfl
  mem := ⟨rfl, rfl, rfl, rfl, rfl⟩
  groups := ⟨rfl, rfl⟩
  rest := ⟨rfl, rfl, rfl, rfl, rfl, rfl, rfl⟩
  ports := by
    have hports : s.rebooted.links.ports = (s.part.virip ++ s.part.ethernet).map Port.atReset := rfl
    rw [hports, List.map_map, List.forall_mem_map]
    exact ⟨List.map_id _, fun _ _ => rfl⟩
  ring := ⟨rfl, rfl⟩

theorem resetRow_holds (i : Instr) (c : EventClaim) (h : resetRow i = some c) : c.Holds i := by
  cases i with
  | reset =>
    cases h
    intro s hpre
    have htripped : s.power.tripped = false := hpre
    refine ⟨s.rebooted, congrArg Host.Outcome.next ?_, rfl, fun p _ => State.same_refl _ p⟩
    rw [htripped]
    rfl
  | coldReset =>
    cases h
    exact fun s _ => ⟨s.rebooted, rfl, rfl, fun p _ => State.same_refl _ p⟩
  | _ => exact noRow h

/-- R377: a module that has tripped ignores RESET. -/
theorem reset_tripped (s : State) (h : s.power.tripped = true) : exec .reset s = .next s := by
  show execReset s = _
  rw [execReset, h]
  rfl

/-! ## Power (R376, R377) -/

theorem powerRow_holds (i : Instr) (c : EventClaim) (h : powerRow i = some c) : c.Holds i := by
  cases i with
  | throttleStart w c =>
    cases h
    rintro s ⟨hoff, hover⟩
    have hgo : (!s.power.throttling && s.overLimit w c) = true := by simpa [State.overLimit, hoff] using hover
    refine ⟨{ s.event 8 0xFF 1 w with power := { s.power with throttling := true } }, ?_, ⟨⟨rfl, rfl, rfl⟩, rfl, ?_⟩,
      fun p hp => State.platform_same _ _ _ _ _ _ p hp⟩
    · exact (if_pos hgo).trans (congrArg Host.Outcome.next (s.event_withPower ..))
    · rw [s.event_power]
  | throttleEnd w c =>
    cases h
    rintro s ⟨hon, hw, hc⟩
    have hgo : (s.power.throttling && !s.overLimit w c) = true := by simp [State.overLimit, hon, hw, hc]
    refine ⟨{ s.event 8 0xFF 2 w with power := { s.power with throttling := false } }, ?_, ⟨⟨rfl, rfl, rfl⟩, rfl, ?_⟩,
      fun p hp => State.platform_same _ _ _ _ _ _ p hp⟩
    · exact (if_pos hgo).trans (congrArg Host.Outcome.next (s.event_withPower ..))
    · rw [s.event_power]
  | _ => exact noRow h

/-! ## Fenced ports take nothing (R321, R324) -/

/-- Every port is FENCED. -/
def State.PortsFenced (s : State) : Prop := ∀ p ∈ s.links.ports, p.st = .fenced

theorem State.PortsFenced.unusable {s : State} (h : s.PortsFenced) {p : Port} (hp : p ∈ s.links.ports) : p.usable = false := by
  rw [Port.usable, h p hp]
  rfl

theorem State.PortsFenced.sendOn {s : State} (h : s.PortsFenced) (n : Nat) (pk : Packet) : s.sendOn n pk = none := by
  unfold State.sendOn
  split
  · rfl
  · next p hp => exact if_neg (by rw [h.unusable (List.mem_of_find?_eq_some hp)]; exact Bool.false_ne_true)

theorem State.PortsFenced.sendRoute {s : State} (h : s.PortsFenced) (pk : Packet) (line : Nat) : s.sendRoute pk line = none := by
  unfold State.sendRoute
  split
  · rfl
  · exact h.sendOn _ _

theorem State.PortsFenced.sendTo {s t : State} (h : s.PortsFenced) {w : Way} {pk : Packet} (ht : s.sendTo w pk = some t) : t.PortsFenced := by
  unfold State.sendTo at ht
  split at ht
  · rw [h.sendRoute] at ht
    cases ht
  · obtain ⟨n, -, hn⟩ := Option.bind_eq_some_iff.1 ht
    rw [h.sendOn] at hn
    cases hn
  · split at ht
    · cases ht
      exact h
    · next q _ =>
      simp only [State.qpSend, h.sendRoute, h.sendOn, ite_self] at ht
      by_cases heth : q.eth = true
      · rw [if_pos heth] at ht
        obtain ⟨-, hs⟩ := Option.ite_none_right_eq_some.1 ht
        obtain rfl := Option.some.inj hs
        exact h
      · rw [if_neg heth] at ht
        cases ht

theorem State.PortsFenced.post {s : State} (h : s.PortsFenced) (w : Way) (pk : Packet) : (s.post w pk).PortsFenced := by
  unfold State.post
  dsimp only
  split
  · exact h
  · cases ht : s.sendTo w pk with
    | none => exact h
    | some t => exact h.sendTo ht

theorem State.PortsFenced.foldl {α : Type} {f : State → α → State} (hf : ∀ (s : State) (x : α), s.PortsFenced → (f s x).PortsFenced) (l : List α)
    {s : State} (h : s.PortsFenced) : (l.foldl f s).PortsFenced := by
  induction l generalizing s with
  | nil => exact h
  | cons x l ih => exact ih (hf s x h)

theorem State.PortsFenced.sendFwd {s : State} (h : s.PortsFenced) (g : Fwd) : s.sendFwd g = s := by
  rw [State.sendFwd, h.sendRoute]

theorem State.PortsFenced.goOn {s : State} (h : s.PortsFenced) : s.goOn.PortsFenced := by
  have hflush : s.flush.PortsFenced :=
    State.PortsFenced.foldl (f := fun t (x : Way × Packet) => t.post x.1 x.2) (s := { s with links := { s.links with unsent := [] } })
      (fun _ x ht => ht.post x.1 x.2) _ h
  refine State.PortsFenced.foldl (fun t g ht => ?_) _ hflush
  split
  · rw [ht.sendFwd]
    exact ht
  · exact ht

theorem State.fenceAll_fenced (s : State) : s.fenceAll.PortsFenced := by
  refine State.PortsFenced.goOn ?_
  refine List.forall_mem_map.2 fun p _ => ?_
  split
  · next h => exact h
  · rfl

theorem State.fenceAll_onlyLinks (s : State) : s.OnlyLinks s.fenceAll := .trans (.of_links s _) (State.rerouted_sends s _).onlyLinks

theorem State.fenceAll_power (s : State) : s.fenceAll.power = s.power := by
  obtain ⟨-, -, hpower, -⟩ := s.fenceAll_onlyLinks.same .platform (by decide)
  exact hpower

theorem trip_holds (c : Nat) : (tripClaim c).Holds (.thermalTrip c) := by
  rintro s ⟨hoff, hhot⟩
  have hgo : ¬ (s.power.tripped || decide (c < 110)) = true := by simp [hoff, hhot]
  refine ⟨{ (tripClaim c).does s with power := { ((tripClaim c).does s).power with tripped := true } }, ?_, ⟨⟨rfl, rfl, rfl⟩, rfl, rfl, ?_⟩,
    fun p hp => State.platform_same _ _ _ _ _ _ p hp⟩
  · refine (if_neg hgo).trans (congrArg Host.Outcome.next ?_)
    refine (State.event_withPower _ _ _ _ _ _).trans ?_
    have hpower : ((tripClaim c).does s).power = (((s.ctxs.filter fun c => c.2.st == .ready).map (·.1)).foldl (fun t n => t.stopCtx n none) s).power :=
      (State.event_power _ _ _ _ _).trans (State.fenceAll_power _)
    rw [hpower]
    rfl
  · intro p hp
    have hlinks : ((tripClaim c).does s).links = _ := State.event_links _ 8 0xFF 3 c
    exact State.fenceAll_fenced _ p (hlinks ▸ hp)

/-! ## Boot (R371 to R374) -/

theorem Boot.takes_iff (b : Boot) (n : Nat) (header body : List Byte) :
    (headerOk n header body && b.accepts header body) = true ↔ b.Takes n header body := by
  simp only [headerOk, Boot.accepts, Bool.and_eq_true, beq_iff_eq, decide_eq_true_eq, Bool.not_eq_true']
  constructor
  · rintro ⟨⟨⟨⟨⟨⟨h1, h2⟩, h3⟩, h4⟩, h5⟩, h6⟩, ⟨⟨⟨⟨k, r⟩, sig⟩, d⟩, v⟩⟩
    exact ⟨⟨h1, h2, h3, h4, h5, h6⟩, ⟨k, r⟩, sig, d, v⟩
  · rintro ⟨⟨h1, h2, h3, h4, h5, h6⟩, ⟨k, r⟩, sig, d, v⟩
    exact ⟨⟨⟨⟨⟨⟨h1, h2⟩, h3⟩, h4⟩, h5⟩, h6⟩, ⟨⟨⟨⟨k, r⟩, sig⟩, d⟩, v⟩⟩

/-- R373: the configuration lies in the first 8 bytes of the body. -/
theorem recField_bootConfig (body : List Byte) {off n : Nat} (h : off + n ≤ 8) : recField (bootConfig body) off n = recField body off n := by
  rw [recField, recField, bootConfig, List.drop_take, List.take_take, Nat.min_eq_left (by omega)]

theorem bootConfigOk_iff (s : State) (body : List Byte) : s.part.configOk (bootConfig body) = true ↔ s.configTakes body := by
  have hlen : (bootConfig body).length = 8 ↔ 8 ≤ body.length := by rw [bootConfig, List.length_take]; omega
  simp only [Part.configOk, Part.pcapOk, Bool.and_eq_true, beq_iff_eq, decide_eq_true_eq, hlen, recField_bootConfig body (by decide : 0 + 2 ≤ 8),
    recField_bootConfig body (by decide : 2 + 2 ≤ 8), recField_bootConfig body (by decide : 4 + 4 ≤ 8)]
  constructor
  · rintro ⟨⟨⟨⟨h1, h2⟩, h3⟩, h4⟩, h5, h6⟩
    exact ⟨h1, h2, h3, h4, h5, h6⟩
  · rintro ⟨h1, h2, h3, h4, h5, h6⟩
    exact ⟨⟨⟨⟨h1, h2⟩, h3⟩, h4⟩, h5, h6⟩

/-- R372: the test of a boot stage. -/
theorem bootTest_iff (s : State) (header body : List Byte) :
    (headerOk (s.boot.stage + 1) header body && s.boot.accepts header body &&
      (s.boot.stage + 1 != 2 || s.part.configOk (bootConfig body))) = true ↔
    s.boot.Takes (s.boot.stage + 1) header body ∧ (s.boot.stage = 1 → s.configTakes body) := by
  rw [Bool.and_eq_true, Boot.takes_iff, Bool.or_eq_true, bootConfigOk_iff, bne_iff_ne, or_iff_not_imp_left, not_not, Nat.succ_inj]

theorem execBootStage_eq {s : State} (header body : List Byte) (hrec : s.boot.recovery = false) (hready : s.boot.ready = false) :
    execBootStage header body s =
      if headerOk (s.boot.stage + 1) header body && s.boot.accepts header body && (s.boot.stage + 1 != 2 || s.part.configOk (bootConfig body)) then
        .next (s.stagePassed header body)
      else .next { s with boot := { s.boot with recovery := true } } :=
  if_neg (by rw [hrec, hready]; decide)

theorem State.stagePassed_config {s : State} (h : s.boot.stage = 1) (header body : List Byte) : s.stagePassed header body = { s with
    boot := { s.boot with
      stage := s.boot.stage + 1, measures := s.boot.measures ++ [Config.sha512 body] ++ [Config.sha512 (bootConfig body)]
      imageVersion := recField header 8 8, modnum := recField body 0 2, savepool := recField body 2 2 }
    power := { s.power with pcap := recField body 4 4 } } := by
  simp only [State.stagePassed, h, Nat.reduceAdd, if_true, recField_bootConfig body (by decide : 0 + 2 ≤ 8),
    recField_bootConfig body (by decide : 2 + 2 ≤ 8), recField_bootConfig body (by decide : 4 + 4 ≤ 8)]

theorem State.stagePassed_other {s : State} (h : s.boot.stage ≠ 1) (header body : List Byte) : s.stagePassed header body = { s with
    boot := { s.boot with
      stage := s.boot.stage + 1, measures := s.boot.measures ++ [Config.sha512 body] ++ []
      imageVersion := recField header 8 8, ready := s.boot.stage + 1 == 3 } } := by
  have hne : ¬ s.boot.stage + 1 = 2 := fun e => h (Nat.succ.inj e)
  simp only [State.stagePassed, hne, if_false]

theorem boot_holds (header body : List Byte) : (bootClaim header body).Holds (.bootStage header body) := by
  rintro s ⟨hrec, hready, htakes, hconfig⟩
  refine ⟨s.stagePassed header body, (execBootStage_eq header body hrec hready).trans (if_pos ((bootTest_iff ..).2 ⟨htakes, hconfig⟩)), ?_⟩
  by_cases hstage : s.boot.stage = 1
  · rw [State.stagePassed_config hstage]
    have hnotReady : (s.boot.stage == 2) = false := by rw [hstage]; rfl
    exact ⟨⟨rfl, rfl, rfl, rfl, hrec, rfl, rfl, rfl, rfl, hready.trans hnotReady.symm, congrArg (s.boot.measures ++ [Config.sha512 body] ++ ·) (if_pos hstage).symm,
      fun _ => ⟨rfl, rfl, rfl⟩, fun h => absurd hstage h⟩, fun p hp => s.platform_same _ _ _ _ _ p hp⟩
  · rw [State.stagePassed_other hstage]
    have hlast : (s.boot.stage + 1 == 3) = (s.boot.stage == 2) := by simp
    exact ⟨⟨rfl, rfl, rfl, rfl, hrec, rfl, rfl, rfl, rfl, hlast, congrArg (s.boot.measures ++ [Config.sha512 body] ++ ·) (if_neg hstage).symm,
      fun h => absurd h hstage, fun _ => ⟨rfl, rfl, rfl⟩⟩, fun p hp => s.platform_same _ _ _ _ _ p hp⟩

theorem recovery_holds (header body : List Byte) : (recoveryClaim header body).Holds (.bootStage header body) := by
  rintro s ⟨hrec, hready, hno⟩
  exact ⟨{ s with boot := { s.boot with recovery := true } },
    (execBootStage_eq header body hrec hready).trans (if_neg fun h => hno ((bootTest_iff ..).1 h)), ⟨rfl, rfl, rfl, rfl, rfl⟩,
    fun p hp => s.platform_same _ _ _ _ _ p hp⟩

theorem rollback_holds : rollbackClaim.Holds (.rollbackRaise true) := by
  rintro s ⟨hstage, hrec⟩
  have hgo : (true && decide (1 ≤ s.boot.stage) && !s.boot.recovery) = true := by simp [hstage, hrec]
  exact ⟨{ s with boot := { s.boot with rollback := max s.boot.rollback (min 64 s.boot.imageVersion) } }, if_pos hgo,
    ⟨rfl, rfl, rfl, rfl, rfl⟩, fun p hp => s.platform_same _ _ _ _ _ p hp⟩

/-! ## The host (R368 to R370, R376) -/

theorem hostAccess_holds (w : Bool) (a : BitVec 42) (d : List Byte) : (hostAccessClaim w a d).Holds (.hostMemoryAccess w a d) := by
  rintro s ⟨hrec, hthere⟩
  have hx : exec (.hostMemoryAccess w a d) s = .next (if w = true then s.hbmPut a.toNat d else s) := by
    show execHostMemoryAccess w a d s = _
    simp only [execHostMemoryAccess, hrec, hthere, Bool.not_true, Bool.false_eq_true, if_false, apply_ite Host.Outcome.next]
  refine ⟨_, hx, ?_, fun p hp => ?_⟩
  · intro x
    cases w with
    | false => rfl
    | true =>
      show memGet (memPut s.mem.hbm a.toNat d) x = if true = true ∧ a.toNat ≤ x ∧ x < a.toNat + d.length then d.getD (x - a.toNat) 0 else memGet s.mem.hbm x
      simp only [true_and]
      split
      · next h =>
        have hi : x - a.toNat < d.length := by omega
        have hget := memGet_put s.mem.hbm a.toNat d (x - a.toNat) hi
        rw [Nat.add_sub_cancel' h.1] at hget
        rw [hget, List.getD_eq_getElem _ _ hi]
      · next h => exact memGet_put_other _ _ _ _ (by omega)
  · cases w with
    | false => exact s.same_refl p
    | true => exact s.hbmPut_same _ _ p (by simpa [hostAccessClaim] using hp)

theorem State.setPcap_eq (s : State) (w : Nat) :
    s.setPcap w = { s with power := if 1500 ≤ w ∧ w ≤ s.part.watts then { s.power with pcap := w } else s.power } := by
  unfold State.setPcap Part.pcapOk
  simp only [Bool.and_eq_true, decide_eq_true_eq]
  split <;> rfl

theorem execBar0RegisterWrite_on {s : State} (off : BitVec 16) (value : BitVec 64) (h : s.boot.recovery = false) :
    execBar0RegisterWrite off value s = match bellAt off.toNat with
      | some b => .next (s.ringBell b value.toNat)
      | none =>
        if off = 0x108 then .next (if value.toNat % 2 ^ 12 = 0 then { s with host := { s.host with evtbase := value.toNat } } else s)
        else if off = 0x110 then
          .next (if 8 ≤ value.toNat % 2 ^ 32 ∧ value.toNat % 2 ^ 32 ≤ 16 then { s with host := { s.host with evtlog := value.toNat % 2 ^ 32 } } else s)
        else if off = 0x300 then .next (s.setPcap (value.toNat % 2 ^ 32))
        else .next s := by
  unfold execBar0RegisterWrite
  rw [h]
  rfl

/-- A register that takes a value that fits and keeps its own otherwise. -/
theorem host_ite (s : State) (c : Prop) [Decidable c] (h : HostSide) :
    (if c then { s with host := h } else s) = { s with host := if c then h else s.host } := by
  split <;> rfl

theorem register_holds (off : BitVec 16) (v : BitVec 64) : ∀ c ∈ registerClaims off v, c.Holds (.bar0RegisterWrite off v) := by
  refine List.forall_mem_cons.2 ⟨?_, List.forall_mem_cons.2 ⟨?_, List.forall_mem_cons.2 ⟨?_, List.forall_mem_cons.2 ⟨?_,
    List.forall_mem_cons.2 ⟨?_, List.forall_mem_nil _⟩⟩⟩⟩⟩
  · rintro s ⟨hrec, rfl⟩
    exact ⟨_, (execBar0RegisterWrite_on 0x108 v hrec).trans (congrArg Host.Outcome.next (host_ite ..)), ⟨⟨rfl, rfl, rfl⟩, rfl, rfl⟩,
      fun p hp => s.withHost_same _ p hp⟩
  · rintro s ⟨hrec, rfl⟩
    exact ⟨_, (execBar0RegisterWrite_on 0x110 v hrec).trans (congrArg Host.Outcome.next (host_ite ..)), ⟨⟨rfl, rfl, rfl⟩, rfl, rfl⟩,
      fun p hp => s.withHost_same _ p hp⟩
  · rintro s ⟨hrec, rfl⟩
    exact ⟨_, (execBar0RegisterWrite_on 0x300 v hrec).trans (congrArg Host.Outcome.next (s.setPcap_eq _)), ⟨⟨rfl, rfl, rfl⟩, rfl, rfl⟩,
      fun p hp => s.platform_same _ _ _ _ _ p hp⟩
  · intro s hrec
    exact ⟨s, if_pos hrec, trivial, fun p _ => s.same_refl p⟩
  · rintro s ⟨hrec, h1, h2, h3, hbell⟩
    refine ⟨s, (execBar0RegisterWrite_on off v hrec).trans ?_, trivial, fun p _ => s.same_refl p⟩
    rw [hbell]
    exact (if_neg h1).trans ((if_neg h2).trans (if_neg h3))

theorem ring_holds (off : BitVec 16) (v : BitVec 64) (b : Bell) : (ringClaim off v b).Holds (.bar0RegisterWrite off v) := by
  rintro s ⟨hrec, hbell⟩
  refine ⟨s.ringBell b v.toNat, (execBar0RegisterWrite_on off v hrec).trans ?_, trivial, fun p _ => State.same_refl _ p⟩
  rw [hbell]

theorem pcap_holds (w : BitVec 32) : (pcapClaim w).Holds (.pcapWrite w) := by
  intro s hrec
  have hx : exec (.pcapWrite w) s = .next (s.setPcap w.toNat) := by
    refine congrArg Host.Outcome.next (if_neg ?_)
    rw [show s.boot.recovery = false from hrec]
    exact Bool.false_ne_true
  exact ⟨_, hx.trans (congrArg Host.Outcome.next (s.setPcap_eq _)), ⟨⟨rfl, rfl, rfl⟩, rfl, rfl⟩, fun p hp => s.platform_same _ _ _ _ _ p hp⟩

/-- Settles O59: event by event, by what the test of a boot stage accepts and by ports that are FENCED taking nothing. -/
theorem platformEvents : Obligations.PlatformEvents :=
  ⟨State.rebooted_holds, fun i c h => h.elim (resetRow_holds i c) (powerRow_holds i c), reset_tripped,
    fun h b => ⟨boot_holds h b, recovery_holds h b⟩, rollback_holds, fun _ => rfl, hostAccess_holds,
    fun off v => ⟨register_holds off v, ring_holds off v⟩, pcap_holds, trip_holds⟩

end Sys2Proof.Machine
end

section
-- One declaration after another: the whole text is checked in one process, of bounded memory.
set_option Elab.async false
/-! SUPPORT. Pod time, pages on the move, leases, access counts and trace rings (10_system R233, 21_link R334, R335, 23_page R343 to R350,
25_trace_replay R363, R364, R366): what each of these events leaves. -/

namespace Sys2Proof.Machine

/-! ## Memory byte by byte -/

theorem memGet_memPut (m : Memory) (a : Nat) (bs : List Byte) (x : Nat) :
    memGet (memPut m a bs) x = if a ≤ x ∧ x < a + bs.length then bs.getD (x - a) 0 else memGet m x := by
  split
  · next h =>
    have hi : x - a < bs.length := by omega
    have hget := memGet_put m a bs (x - a) hi
    rw [Nat.add_sub_cancel' h.1] at hget
    rw [hget, List.getD_eq_getElem _ _ hi]
  · next h => exact memGet_put_other _ _ _ _ (by omega)

theorem memBytes_getD (m : Memory) (a : Nat) {n i : Nat} (h : i < n) : (memBytes m a n).getD i 0 = memGet m (a + i) := by
  rw [List.getD_eq_getElem _ _ (by simpa [memBytes] using h)]
  simp [memBytes]

theorem State.hbmBytes_below {s : State} {la n : Nat} (h : la < bellBase) : s.hbmBytes la n = memBytes s.mem.hbm la n :=
  if_neg fun hin => absurd hin.1 (Nat.not_le.2 h)

/-! ## Pod time (R334, R335) -/

/-- Time, host memory and links may differ. -/
theorem State.timed_same (s : State) (y : PodTime) (m : Memory) (l : Links) (p : Aspect) (hp : p ∉ [Aspect.podTime, Aspect.links, Aspect.host]) :
    s.same { s with time := y, mem := { s.mem with host := m }, links := l } p := by
  have h' := s.same_refl p
  cases p with
  | podTime => exact absurd List.mem_cons_self hp
  | links => exact absurd (List.mem_cons_of_mem _ List.mem_cons_self) hp
  | host => exact absurd (List.mem_cons_of_mem _ (List.mem_cons_of_mem _ List.mem_cons_self)) hp
  | _ => exact h'

/-- R370: an event does not look at pod time. -/
theorem State.event_withTime (s : State) (y : PodTime) (cls ctx code data : Nat) :
    ({ s with time := y } : State).event cls ctx code data = { s.event cls ctx code data with time := y } := by
  simp only [State.event, apply_ite (fun t : State => { t with time := y })]
  rfl

theorem State.event_time (s : State) (cls ctx code data : Nat) : (s.event cls ctx code data).time = s.time := by
  obtain ⟨m, h⟩ := s.event_hostOnly cls ctx code data
  rw [h]

/-- R324: sending does not look at pod time. -/
theorem State.sendOn_withTime (s : State) (y : PodTime) (n : Nat) (pk : Packet) :
    ({ s with time := y } : State).sendOn n pk = (s.sendOn n pk).map fun t => { t with time := y } := by
  have hport : ({ s with time := y } : State).port n = s.port n := rfl
  simp only [State.sendOn, hport]
  cases s.port n with
  | none => rfl
  | some p =>
    by_cases hu : p.usable = true
    · simp only [hu, if_true, Option.map_map]
      rfl
    · simp only [hu, Bool.false_eq_true, if_false, Option.map_none]

theorem State.sendTime_withTime (s : State) (y : PodTime) (root t : Nat) :
    ({ s with time := y } : State).sendTime root t = { s.sendTime root t with time := y } := by
  refine List.foldl_hom (fun u : State => { u with time := y }) (fun u p => ?_)
  rw [State.sendOn_withTime]
  exact Option.getD_map (fun u : State => { u with time := y }) _ _

theorem State.sendTime_sends (s : State) (root t : Nat) : s.Sends (s.sendTime root t) := by
  refine State.Sends.foldl (fun u p => ?_) _ _
  cases h : u.sendOn p.num _ with
  | none => exact .refl u
  | some v => exact State.sendOn_sends h

theorem timeSend_holds : timeSendClaim.Holds .timePacketSend := by
  rintro s ⟨hrole, hdue⟩
  have hgo : s.timeSendDue = true := by simp [State.timeSendDue, hrole, hdue]
  obtain htime : (s.sendTime s.boot.modnum s.time.now).time = s.time := (s.sendTime_sends _ _).onlyLinks.same .podTime (by decide)
  refine ⟨{ s.sendTime s.boot.modnum s.time.now with time := { s.time with sent := s.time.now } }, ?_, ?_,
    fun p hp => State.withTimeBase_same _ _ p (by simpa [timeSendClaim] using hp)⟩
  · exact (if_pos hgo).trans (congrArg Host.Outcome.next (s.sendTime_withTime ..))
  · show _ = { (s.sendTime s.boot.modnum s.time.now).time with sent := (s.sendTime s.boot.modnum s.time.now).time.now }
    rw [htime]

theorem holdover_holds : holdoverClaim.Holds .holdoverEntry := by
  rintro s ⟨hrole, hoff, hlate⟩
  have hgo : s.holdoverDue = true := by simp [State.holdoverDue, hrole, hoff, hlate]
  refine ⟨{ s.event 6 0xFF 0x13 0 with time := { s.time with holdover := true } }, ?_, ?_,
    fun p hp => State.withTimeBase_same _ _ p (by simpa [holdoverClaim] using hp)⟩
  · exact (if_pos hgo).trans (congrArg Host.Outcome.next (s.event_withTime ..))
  · show _ = { (s.event 6 0xFF 0x13 0).time with holdover := true }
    rw [s.event_time]

theorem slewEnd_holds : slewEndClaim.Holds .slewEnd := by
  rintro s ⟨halert, hslew⟩
  have hgo : s.slewEnded = true := by simp [State.slewEnded, halert, hslew]
  refine ⟨{ s.event 6 0xFF 0x12 0 with time := { s.time with alert := false } }, ?_, ?_,
    fun p hp => State.withTimeBase_same _ _ p (by simpa [slewEndClaim] using hp)⟩
  · exact (if_pos hgo).trans (congrArg Host.Outcome.next (s.event_withTime ..))
  · show _ = { (s.event 6 0xFF 0x12 0).time with alert := false }
    rw [s.event_time]

/-- R335: what a counter is after it has been disciplined. -/
structure PodTime.Toward (x y : PodTime) (t : Nat) (step : Bool) : Prop where
  synced : y.synced = true ∧ y.holdover = false
  relayed : y.relayed = x.relayed
  stepped : step = true → x.now < t → y.now = t ∧ y.slew = 0
  slewed : ¬(step = true ∧ x.now < t) → y.now = x.now ∧ y.slew = (t : Int) - x.now

theorem State.discipline_toward (s : State) (t : Nat) (step : Bool) :
    ∃ y m, s.discipline t step = { s with time := y, mem := { s.mem with host := m } } ∧ s.time.Toward y t step := by
  have hcond : (step && decide (0 < (t : Int) - s.time.now)) = true ↔ step = true ∧ s.time.now < t := by
    rw [Bool.and_eq_true, decide_eq_true_eq]
    exact and_congr_right' (by omega)
  unfold State.discipline
  dsimp only
  by_cases hstep : step = true ∧ s.time.now < t
  · rw [if_pos (hcond.2 hstep)]
    exact ⟨_, s.mem.host, rfl, ⟨rfl, rfl⟩, rfl, fun _ _ => ⟨rfl, rfl⟩, fun h => absurd hstep h⟩
  · rw [if_neg (fun h => hstep (hcond.1 h))]
    split
    · obtain ⟨m, hm⟩ := State.event_hostOnly ({ s with time := { s.time with synced := true, holdover := false, slew := (t : Int) - s.time.now, lastSync := s.time.now, alert := true } } : State)
        6 0xFF evSlewStart ((t : Int) - s.time.now).natAbs
      exact ⟨_, m, hm, ⟨rfl, rfl⟩, rfl, fun h h' => absurd ⟨h, h'⟩ hstep, fun _ => ⟨rfl, rfl⟩⟩
    · exact ⟨_, s.mem.host, rfl, ⟨rfl, rfl⟩, rfl, fun h h' => absurd ⟨h, h'⟩ hstep, fun _ => ⟨rfl, rfl⟩⟩

/-- R334: a time that is newer than what was passed on is passed on. -/
theorem State.relayed_after (s : State) (root t : Nat) :
    ∃ l, (if s.time.relayed < t then { s with time := { s.time with relayed := t } }.sendTime root t else s) =
      { s with time := { s.time with relayed := max s.time.relayed t }, links := l } := by
  split
  · next h =>
    rw [Nat.max_eq_right h.le]
    exact ⟨_, ((State.sendTime_sends _ _ _).onlyLinks : State.OnlyLinks _ _)⟩
  · next h =>
    rw [Nat.max_eq_left (Nat.not_lt.1 h)]
    exact ⟨s.links, rfl⟩

theorem time_holds (h : BitVec 512) (b : List Byte) (pk : Packet) : (timeClaim h b pk).Holds (.time h b) := by
  rintro s ⟨hpk, hkind, hrole, hfar⟩
  obtain ⟨y, m, hd, hy⟩ := s.discipline_toward pk.value.toNat (!s.time.synced || (s.noneReady && !s.time.holdover))
  obtain ⟨l, hl⟩ := State.relayed_after { s with time := y, mem := { s.mem with host := m } } pk.smod pk.value.toNat
  have hx : exec (.time h b) s = .next { s with
      time := { y with relayed := max y.relayed pk.value.toNat }, mem := { s.mem with host := m }, links := l } := by
    show execTime h b s = _
    simp only [execTime, hpk, hkind, if_true, State.timeArrive, hrole, hfar, or_self, if_false, hd]
    exact congrArg Host.Outcome.next hl
  have hready : s.noneReady = true ↔ ∀ c ∈ s.ctxs, c.2.st ≠ .ready := by simp [State.noneReady]
  refine ⟨_, hx, ⟨hy.synced, fun hstep => hy.stepped ?_, fun hs hno => hy.slewed fun hc => ?_, fun hle => hy.slewed fun hc => ?_, ?_⟩,
    fun p hp => s.timed_same _ _ _ p hp⟩
  · obtain hs | ⟨hh, hall⟩ := hstep
    · rw [show s.time.synced = false from hs]
      rfl
    · rw [show s.time.holdover = false from hh, hready.2 hall]
      exact Bool.or_true _
  · obtain ⟨hstep, -⟩ := hc
    rw [show s.time.synced = true from hs, Bool.not_true, Bool.false_or, Bool.and_eq_true, hready, Bool.not_eq_true'] at hstep
    obtain hh | ⟨c, hc, hst⟩ := hno
    · exact Bool.false_ne_true (hstep.2.symm.trans hh)
    · exact hstep.1 c hc hst
  · exact absurd hc.2 (Nat.not_lt.2 hle)
  · exact congrArg (max · pk.value.toNat) hy.relayed

theorem timeIdle_holds (h : BitVec 512) (b : List Byte) : (timeIdleClaim h b).Holds (.time h b) := by
  rintro s ⟨pk, hpk, hidle⟩
  refine ⟨s, ?_, trivial, fun p _ => s.same_refl p⟩
  show execTime h b s = _
  simp only [execTime, hpk]
  split
  · next hkind =>
    have hstop := hidle.resolve_left (absurd hkind)
    simp only [State.timeArrive, if_pos hstop]
  · rfl

theorem timeMalformed_holds (h : BitVec 512) (b : List Byte) : (malformedClaim h b).Holds (.time h b) := by
  intro s hpk
  refine ⟨s.countBad, ?_, trivial, fun p _ => State.same_refl _ p⟩
  show execTime h b s = _
  rw [execTime, show packetOf h b = none from hpk]

/-! ## Pages on the move (R347, R349) -/

theorem migrationEnabled_of {s : State} {cmd : Nat} {o : PageOp} {e : PEntry} (h : s.migrates cmd o e) : s.migrationEnabled cmd = true := by
  obtain ⟨hop, hmig, -, hleaf, hawaits, hstores⟩ := h
  simp only [State.migrationEnabled, hop, hmig, hleaf, hawaits, hstores, opMigrate, Option.any_some]
  rfl

theorem execMigrationCopyDone_eq {s : State} {cmd : BitVec 52} {o : PageOp} {e : PEntry} (h : s.migrates cmd.toNat o e) :
    execMigrationCopyDone cmd s = .next (if (s.gather (.page cmd.toNat) (.virt o.ctx o.va) e.size).1 = true then (migrateDoneClaim cmd o e).does s
      else (s.gather (.page cmd.toNat) (.virt o.ctx o.va) e.size).2) := by
  have hgo := migrationEnabled_of h
  obtain ⟨hop, -, hcmd, hleaf, -, -⟩ := h
  unfold execMigrationCopyDone
  simp only [hgo, Bool.not_true, Bool.false_eq_true, if_false, hop, hleaf, hcmd]
  cases hready : (s.gather (.page cmd.toNat) (.virt o.ctx o.va) e.size).1 with
  | false => rfl
  | true =>
    have hcond : (!e.hostf && paModule e.pa == s.boot.modnum) = true ↔ e.hostf = false ∧ paModule e.pa = s.boot.modnum := by simp
    simp only [migrateDoneClaim, State.oldCopy, hcmd, hcond, Bool.not_true, Bool.false_eq_true, if_false, if_true]
    rfl

theorem migrateDone_holds (c : BitVec 52) (o : PageOp) (e : PEntry) : (migrateDoneClaim c o e).Holds (.migrationCopyDone c) := by
  rintro s ⟨hm, hready⟩
  exact ⟨_, (execMigrationCopyDone_eq hm).trans (congrArg Host.Outcome.next (if_pos hready)), trivial, fun p _ => State.same_refl _ p⟩

theorem migrateAsk_holds (c : BitVec 52) (o : PageOp) (e : PEntry) : (migrateAskClaim c o e).Holds (.migrationCopyDone c) := by
  rintro s ⟨hm, hready⟩
  exact ⟨_, (execMigrationCopyDone_eq hm).trans (congrArg Host.Outcome.next (if_neg (by rw [hready]; exact Bool.false_ne_true))), trivial,
    fun p _ => State.same_refl _ p⟩

theorem duplicateEnabled_of {s : State} {cmd : Nat} {o : PageOp} {e : PEntry} (h : s.duplicates cmd o e) : s.duplicateEnabled cmd = true := by
  obtain ⟨hop, hdup, -, hstage, hleaf, hawaits⟩ := h
  have hne : (o.stage != 0) = true := bne_iff_ne.2 (by omega)
  simp only [State.duplicateEnabled, hop, hdup, hleaf, hawaits, opDuplicate, hne]
  rfl

theorem execDuplicateCopyDone_eq {s : State} {cmd : BitVec 52} {o : PageOp} {e : PEntry} (h : s.duplicates cmd.toNat o e) :
    execDuplicateCopyDone cmd s = .next (if (s.gather (.page cmd.toNat) (.virt o.ctx o.va) e.size).1 = true then (duplicateDoneClaim cmd o e).does s
      else (s.gather (.page cmd.toNat) (.virt o.ctx o.va) e.size).2) := by
  have hgo := duplicateEnabled_of h
  obtain ⟨hop, -, hcmd, -, hleaf, -⟩ := h
  unfold execDuplicateCopyDone
  simp only [hgo, Bool.not_true, Bool.false_eq_true, if_false, hop, hleaf, hcmd]
  cases hready : (s.gather (.page cmd.toNat) (.virt o.ctx o.va) e.size).1 with
  | false => rfl
  | true =>
    simp only [duplicateDoneClaim, State.oldCopy, hcmd, Bool.not_true, Bool.false_eq_true, if_false, if_true]
    rfl

theorem duplicateDone_holds (c : BitVec 52) (o : PageOp) (e : PEntry) : (duplicateDoneClaim c o e).Holds (.duplicateCopyDone c) := by
  rintro s ⟨hd, hready⟩
  exact ⟨_, (execDuplicateCopyDone_eq hd).trans (congrArg Host.Outcome.next (if_pos hready)), trivial, fun p _ => State.same_refl _ p⟩

theorem duplicateAsk_holds (c : BitVec 52) (o : PageOp) (e : PEntry) : (duplicateAskClaim c o e).Holds (.duplicateCopyDone c) := by
  rintro s ⟨hd, hready⟩
  exact ⟨_, (execDuplicateCopyDone_eq hd).trans (congrArg Host.Outcome.next (if_neg (by rw [hready]; exact Bool.false_ne_true))), trivial,
    fun p _ => State.same_refl _ p⟩

/-! ## Leases (R350) -/

theorem State.leaseLocal_pages (s : State) (l : Lease) : (s.leaseLocal l).pages = s.pages := by
  unfold State.leaseLocal
  dsimp only
  split
  · split <;> rfl
  · rfl

theorem lenderDeadline_holds (ctx : BitVec 8) (va : BitVec 64) (l : Lease) : (lenderDeadlineClaim ctx va l).Holds (.leaseDeadline ctx va) := by
  rintro s ⟨hl, hnone⟩
  refine ⟨(lenderDeadlineClaim ctx va l).does s, ?_, trivial, fun p _ => State.same_refl _ p⟩
  have hpages : ((lenderDeadlineClaim ctx va l).does s).pages.borrowed = s.pages.borrowed := by
    have hcharge : ((lenderDeadlineClaim ctx va l).does s).pages = _ := State.chargeHbm_same _ l.ctx .pages (by decide) (by decide)
    rw [hcharge]
    exact congrArg (·.borrowed) (s.leaseLocal_pages l)
  have hfind : ((lenderDeadlineClaim ctx va l).does s).pages.borrowed.find? (fun b => b.ctx == ctx.toNat && b.va == va.toNat &&
      b.deadline.any fun t => decide (t ≤ s.time.now)) = none := by
    rw [hpages]
    refine List.find?_eq_none.2 fun b hb => ?_
    have := hnone b hb
    simp only [Bool.and_eq_true, beq_iff_eq]
    exact fun h => this h.1
  show execLeaseDeadline ctx va s = _
  simp only [execLeaseDeadline, hl]
  exact congrArg Host.Outcome.next (by
    show (match ((lenderDeadlineClaim ctx va l).does s).pages.borrowed.find? _ with
      | none => _
      | some b => _) = _
    rw [hfind]
    rfl)

theorem borrowerDeadline_holds (ctx : BitVec 8) (va : BitVec 64) (b : Borrowed) (x : Nat) :
    (borrowerDeadlineClaim ctx va b x).Holds (.leaseDeadline ctx va) := by
  rintro s ⟨hnone, hb, -⟩
  refine ⟨(borrowerDeadlineClaim ctx va b x).does s, ?_, trivial, fun p _ => State.same_refl _ p⟩
  have hfind : (s.pages.leases.find? fun l => l.ctx == ctx.toNat && l.va == va.toNat && !l.passed &&
      l.deadline.any fun t => decide (t ≤ s.time.now)) = none := by
    refine List.find?_eq_none.2 fun l hl => ?_
    have := hnone l hl
    simp only [Bool.and_eq_true, beq_iff_eq]
    exact fun h => this h.1.1
  show execLeaseDeadline ctx va s = _
  simp only [execLeaseDeadline, hfind, hb]
  rfl

/-! ## Access counts and swaps (R233, R343) -/

theorem accWriteback_holds (ctx : BitVec 8) (entry : BitVec 52) (k : Context) (x : AccCount) :
    (accWritebackClaim ctx entry k x).Holds (.accWriteback ctx entry) := by
  rintro s ⟨hk, hx⟩
  have hentry : x.entry = entry.toNat := by
    have h := List.find?_some hx
    rw [Bool.and_eq_true, beq_iff_eq] at h
    exact h.1
  have hexec : exec (.accWriteback ctx entry) s = .next ((s.hbmPutVal (paLocal entry.toNat + 8) 4 x.count.toNat).onCtx ctx.toNat fun c =>
      { c with accs := c.accs.map fun y => if y.entry == entry.toNat then { y with dirty := false } else y }) := by
    show execAccWriteback ctx entry s = _
    simp only [execAccWriteback, show s.ctx ctx.toNat = some k from hk, Option.bind_some, hx, hentry]
  refine ⟨_, hexec, ⟨fun n hn => State.onCtx_ctx_ne _ hn _, ?_, ?_, fun a ha => memGet_putVal_outside _ _ _ (by omega)⟩, fun p hp => ?_⟩
  · refine (State.onCtx_ctx_some (s := s.hbmPutVal (paLocal entry.toNat + 8) 4 x.count.toNat) hk _).trans ?_
    simp only [beq_iff_eq]
  · exact (memVal_putVal ..).trans (Nat.mod_eq_of_lt x.count.isLt)
  · simp only [accWritebackClaim, List.mem_cons, List.not_mem_nil, or_false, not_or] at hp
    exact State.same_trans _ _ _ _ (s.hbmPut_same _ _ p hp.2) (State.onCtx_same _ _ _ p hp.1)

/-- Pages and module memory may differ. -/
theorem State.withPagesHbm_same (s : State) (g : Pages) (m : Memory) (p : Aspect) (hp : p ∉ [Aspect.pages, Aspect.hbm]) :
    s.same { s with pages := g, mem := { s.mem with hbm := m } } p := by
  have h' := s.same_refl p
  cases p with
  | pages => exact absurd List.mem_cons_self hp
  | hbm => exact absurd (List.mem_cons_of_mem _ List.mem_cons_self) hp
  | _ => exact h'

theorem swapDone_holds (x : Swap) (ea eb : PEntry) : (swapDoneClaim x ea eb).Holds .swapExchangeComplete := by
  rintro s ⟨hx, ha, hb, hla, hlb, hapart⟩
  have hexec : exec .swapExchangeComplete s = .next { (swapDoneClaim x ea eb).does s with
      pages := { s.pages with swaps := s.pages.swaps.map fun z => if z = x then { z with done := true } else z }
      mem := { ((swapDoneClaim x ea eb).does s).mem with
        hbm := memPut (memPut s.mem.hbm (paLocal ea.pa) (s.hbmBytes (paLocal eb.pa) (2 ^ 16))) (paLocal eb.pa) (s.hbmBytes (paLocal ea.pa) (2 ^ 16)) } } := by
    show execSwapExchangeComplete s = _
    simp only [execSwapExchangeComplete, State.nextSwap, hx, ha, hb]
    rfl
  have hbell : bellBase = 0x3FFFFFF0000 := rfl
  refine ⟨_, hexec, ⟨rfl, fun a => ?_⟩, fun p hp => State.withPagesHbm_same _ _ _ p hp⟩
  show memGet (memPut _ _ _) a = if _ then memGet s.mem.hbm _ else if _ then memGet s.mem.hbm _ else memGet s.mem.hbm a
  rw [memGet_memPut, memGet_memPut, s.hbmBytes_length, s.hbmBytes_length, State.hbmBytes_below (by omega), State.hbmBytes_below (by omega)]
  by_cases hina : paLocal ea.pa ≤ a ∧ a < paLocal ea.pa + 2 ^ 16
  · rw [if_neg (by omega), if_pos hina, if_pos hina, memBytes_getD _ _ (by omega)]
  · rw [if_neg hina, if_neg hina]
    split
    · next hinb => exact memBytes_getD _ _ (by omega)
    · rfl

/-! ## Traces (R363, R364, R366) -/

theorem messidor_holds : messidorClaim.Holds .messidorDrain :=
  fun _ _ => ⟨_, rfl, trivial, fun p _ => State.same_refl _ p⟩

/-- R364: the slot of a record lies in the ring, behind its header. -/
theorem slot_bounds (root : RootPart) (wr : Nat) (h : 24 ≤ root.trlog) : 64 + 32 * (wr % root.nrec) + 32 ≤ 2 ^ root.trlog := by
  have hpow : 2 ^ root.trlog = 32 * 2 ^ (root.trlog - 5) := by
    rw [show (32 : Nat) = 2 ^ 5 from rfl, ← pow_add]
    congr 1
    omega
  have hbig : 2 ^ 19 ≤ 2 ^ (root.trlog - 5) := Nat.pow_le_pow_right (by decide) (by omega)
  have hlt : wr % root.nrec < root.nrec := Nat.mod_lt _ (by rw [RootPart.nrec]; omega)
  rw [RootPart.nrec] at hlt ⊢
  omega

/-- R364: one record that a ring with room takes. -/
theorem drainRecs_single (ctx : Nat) (root : RootPart) (core : Option Nat) (r : TraceRec) (s : State) (ring : Ring) (hb : s.pages.borrowed = [])
    (hroom : ring.full root = false) (hr : r.typ ≠ 3) : drainRecs ctx root core [r] ⟨s, ring, 0, 0, []⟩ =
      ⟨s.putPa ctx (root.slotPa ring.wr) r.bytes (.ring ctx), { ring with wr := (ring.wr + 1) % 2 ^ 64 }, 0, 0, []⟩ := by
  have hlost (pa : Nat) : s.ringLost ctx pa = false := by rw [State.ringLost, hb]; rfl
  simp only [drainRecs, hroom, hlost, List.isEmpty_nil, Bool.not_true, Bool.or_false, Bool.false_eq_true, if_false, if_true, Drain.put, hr]

theorem drained1_holds (s : State) (n : Nat) (c : Context) (k : Option Nat) (r : TraceRec) (hme : s.me.ident.ctx ≠ n)
    (hsrc : c.sources = [⟨k, [r], 0⟩]) (hmod : paModule c.root.trbase = s.boot.modnum) (hb : s.pages.borrowed = []) (hlog : 24 ≤ c.root.trlog)
    (hend : paLocal c.root.trbase + 2 ^ c.root.trlog ≤ bellBase) (hr : r.typ ≠ 3)
    (hroom : (ringOf (s.hbmBytes (paLocal c.root.trbase) 64)).full c.root = false) :
    s.Drained1 (s.drainOwn n c) c.root r (ringOf (s.hbmBytes (paLocal c.root.trbase) 64)) := by
  generalize hring : ringOf (s.hbmBytes (paLocal c.root.trbase) 64) = ring at hroom ⊢
  have hbell : bellBase = 0x3FFFFFF0000 := rfl
  have hslot := slot_bounds c.root ring.wr hlog
  have hlocal : paLocal (c.root.slotPa ring.wr) = paLocal c.root.trbase + 64 + 32 * (ring.wr % c.root.nrec) := by
    rw [paLocal, paLocal, RootPart.slotPa]
    rw [paLocal] at hend
    omega
  have hown : s.isOwn (c.root.slotPa ring.wr) = true := by
    rw [State.isOwn, beq_iff_eq, ← hmod, paModule, paModule, RootPart.slotPa]
    rw [paLocal] at hend
    omega
  have hput : s.putPa n (c.root.slotPa ring.wr) r.bytes (.ring n) = s.hbmPut (paLocal c.root.trbase + 64 + 32 * (ring.wr % c.root.nrec)) r.bytes := by
    rw [State.putPa, hown, if_pos rfl, hlocal]
  have hready : s.traceReady n c = true := by rw [State.traceReady, hsrc]; rfl
  have hhbm : (s.drainOwn n c).mem.hbm = memPutVal (memPutVal (memPut s.mem.hbm (paLocal c.root.trbase + 64 + 32 * (ring.wr % c.root.nrec)) r.bytes)
      (paLocal c.root.trbase) 8 ((ring.wr + 1) % 2 ^ 64)) (paLocal c.root.trbase + 16) 8 ring.lost := by
    simp only [State.drainOwn, hready, hring, Bool.not_true, Bool.false_eq_true, if_false, State.drainCtx, hsrc, List.foldl_cons, List.foldl_nil,
      drainRecs_single n c.root k r s ring hb hroom hr, hput]
    rw [if_neg (fun h => hme h.1)]
    rfl
  have hlen : r.bytes.length = 32 := by simp only [TraceRec.bytes, List.length_append, leBytes_length]
  refine ⟨?_, ?_, fun x hx => ?_⟩
  · rw [hhbm, memPutVal, memPutVal, memBytes_put_other _ _ _ _ _ (by rw [leBytes_length]; omega),
      memBytes_put_other _ _ _ _ _ (by rw [leBytes_length]; omega)]
    exact (congrArg (memBytes _ _) hlen.symm).trans (memBytes_put ..)
  · rw [hhbm, memVal, memPutVal, memBytes_put_other _ _ _ _ _ (by rw [leBytes_length]; omega)]
    exact (memVal_putVal ..).trans (Nat.mod_eq_of_lt (Nat.mod_lt _ (by decide)))
  · rw [hhbm, memGet_putVal_outside _ _ _ (by omega), memGet_putVal_outside _ _ _ (by omega), memGet_put_other _ _ _ _ (by omega)]

/-- R366: recording an environment event does not look at the error counts. -/
theorem State.env_withErrors (s : State) (e : Errors) (ctx kind data : Nat) :
    ({ s with errors := e } : State).env ctx kind none data = { s.env ctx kind none data with errors := e } := rfl

theorem ecc_holds (ctx : BitVec 8) : (eccClaim ctx).Holds (.eccAggregate ctx) := by
  rintro s ⟨e, he, hctx, hne⟩
  have hgo : s.eccDue ctx.toNat = true := List.any_eq_true.2 ⟨e, he, by simp [hctx, hne]⟩
  have hexec : exec (.eccAggregate ctx) s = .next { (eccClaim ctx).does s with
      errors := { s.errors with envEcc := s.errors.envEcc.filter fun e => e.1 != ctx.toNat } } := by
    show execEccAggregate ctx s = _
    rw [execEccAggregate]
    simp only [hgo, Bool.not_true, Bool.false_eq_true, if_false, eccClaim, List.sum_eq_foldl, List.foldl_map]
    rfl
  exact ⟨_, hexec, ⟨rfl, rfl, rfl, rfl, rfl⟩, fun p hp => State.platform_same _ _ _ _ _ _ p hp⟩

/-- Settles O58: event by event; one record is followed into its slot of the ring. -/
theorem timePageAndTraceEvents : Obligations.TimePageAndTraceEvents :=
  ⟨timeSend_holds, holdover_holds, slewEnd_holds, fun h b => ⟨time_holds h b, timeIdle_holds h b, timeMalformed_holds h b⟩,
    fun c o e => ⟨migrateDone_holds c o e, migrateAsk_holds c o e, duplicateDone_holds c o e, duplicateAsk_holds c o e⟩,
    fun ctx va => ⟨lenderDeadline_holds ctx va, borrowerDeadline_holds ctx va⟩, accWriteback_holds, swapDone_holds, messidor_holds,
    fun s n c k r _ => drained1_holds s n c k r, ecc_holds⟩

end Sys2Proof.Machine
end

section
-- One declaration after another: the whole text is checked in one process, of bounded memory.
set_option Elab.async false
/-! SUPPORT. Events of engines and jobs (05_control R78, 08_memory_ops R160, 09_engine_commands R182 to R195, 10_system R210, R227): what
counting, writing and finishing leave of the group, how many bytes a place gives, and event by event what happens. -/

namespace Sys2Proof.Machine

/-! ## Arrivals, interrupts and the debugger -/

theorem listSet_eq_set {α : Type} (l : List α) (i : Nat) {f : α → α} {a b : α} (h : l[i]? = some a) (hf : f a = b) : listSet l i f = l.set i b := by
  induction l generalizing i with
  | nil => cases h
  | cons x l ih =>
    cases i with
    | zero =>
      obtain rfl : x = a := Option.some.inj h
      exact congrArg (· :: l) hf
    | succ i => exact congrArg (x :: ·) (ih i h)

theorem arrival_holds (e : BitVec 3) (x : Engine) (i : Nat) (f : InFlight) : (arrivalClaim e x i f).Holds (.variableLatencyArrival e i) := by
  rintro s ⟨he, hf, harr, hreq, hint⟩
  have hset : listSet (s.me.engine x).flight i (fun f => if f.canArrive then { f with arrived := true } else f) =
      (s.me.engine x).flight.set i { f with arrived := true } :=
    listSet_eq_set _ _ hf (if_pos (by simp [InFlight.canArrive, harr, hreq, hint]))
  have hx : exec (.variableLatencyArrival e i) s = .next (s.onEng x fun y => { y with flight := y.flight.set i { f with arrived := true } }) := by
    show execVariableLatencyArrival e i s = _
    simp only [execVariableLatencyArrival, he, State.onEng, State.onMe, Group.mapEngine]
    rw [hset]
  refine ⟨_, hx, State.onEng_eng .., fun p hp => ?_⟩
  have h' := s.same_refl p
  cases p with
  | engine y => exact Engines.get_set_ne _ _ _ _ fun hy => hp (hy ▸ List.mem_cons_self)
  | regs => exact fun r => by cases r <;> rfl
  | _ => exact h'

theorem interrupt_holds : interruptClaim.Holds .interrupt := by
  rintro s ⟨hphase, hirq, hstop, hbase⟩
  have hgo : s.interruptEnabled = true := by simp [State.interruptEnabled, hphase, hirq, hstop]
  have hx : exec .interrupt s = .next ((interruptClaim.does s).takeTrap 5 0x11 0 0 (interruptClaim.does s).me.cPos.addr false) :=
    if_neg (by rw [hgo]; exact Bool.false_ne_true)
  have htrapped := State.takeTrap_trapped (s := interruptClaim.does s) (by rw [show (interruptClaim.does s).me.phase = .running from hphase]; decide) hbase
    5 0x11 0 0 (interruptClaim.does s).me.cPos.addr false
  exact ⟨_, hx, htrapped, htrapped.rest⟩

theorem debugStop_holds : debugStopClaim.Holds .debugStop := by
  rintro s ⟨hdebug, hphase⟩
  obtain htime : s.catchMesh.time = s.time := s.catchMesh_moves .podTime (by simp) (by simp) (by simp)
  refine ⟨s.catchMesh.stoppedAt s.time.now, ?_, ⟨rfl, rfl, rfl, ?_, rfl⟩, fun p hp => State.stoppedAt_same _ _ p hp⟩
  · show execDebugStop s = _
    rw [execDebugStop, hdebug, if_pos rfl, State.debugHalt_eq hphase]
  · show _ = { s.catchMesh.me.time with pauseAt := s.catchMesh.time.now }
    rw [htime]
    rfl

theorem debugResume_holds : debugResumeClaim.Holds .debugResume := by
  rintro s ⟨hdebug, hphase⟩
  refine ⟨s.onMe fun g => { (g.unpause s.time.now) with phase := g.prior }, ?_, ⟨rfl, ⟨rfl, rfl, rfl⟩, rfl, fun e => by cases e <;> rfl⟩, fun p hp => ?_⟩
  · show execDebugResume s = _
    rw [execDebugResume, hdebug, if_pos rfl, State.debugGo, if_pos hphase]
  · have h' := s.same_refl p
    simp only [debugResumeClaim, List.mem_cons, not_or] at hp
    obtain ⟨hph, hclock, heng⟩ := hp
    cases p with
    | engine e => exact absurd (List.mem_map_of_mem (f := Aspect.engine) (by cases e <;> decide)) heng
    | regs => exact fun r => by cases r <;> rfl
    | phase => exact absurd rfl hph
    | clock => exact absurd rfl hclock
    | _ => exact h'

/-! ## How many bytes a place gives (R181, R187) -/

theorem linePieces_sum (k a n : Nat) (h : n ≤ 64 * k - a % 64 ∨ n = 0) : ((linePieces k a n).map (·.2)).sum = n := by
  induction k generalizing a n with
  | zero => exact (by omega : 0 = n)
  | succ k ih =>
    unfold linePieces
    split
    · next hn => exact hn.symm
    · next hn =>
      simp only [List.map_cons, List.sum_cons]
      rw [ih]
      · omega
      · by_cases hlast : n ≤ 64 - a % 64
        · exact .inr (by omega)
        · exact .inl (by omega)

theorem piecesOf_sum (a n : Nat) : ((piecesOf a n).map (·.2)).sum = n := linePieces_sum _ _ _ (.inl (by omega))

theorem State.fetchedLine_length {s : State} {ag : Agent} {pa n : Nat} {b : List Byte} (h : s.fetchedLine ag pa n = some b) : b.length = n := by
  obtain ⟨l, hl, rfl⟩ := Option.map_eq_some_iff.1 h
  have hfits := List.find?_some hl
  simp only [Bool.and_eq_true, decide_eq_true_eq] at hfits
  rw [List.length_take, List.length_drop]
  omega

theorem State.lineNow_length (s : State) (ag : Agent) (ctx : Nat) (p : Nat × Nat) : (s.lineNow ag ctx p).length = p.2 := by
  unfold State.lineNow
  split
  · simp only [GenWin.bytes, List.length_map, List.length_range]
  · split
    · exact List.length_replicate
    · split
      · exact State.readPage_length ..
      · cases h : s.fetchedLine ag _ p.2 with
        | none => exact List.length_replicate
        | some b => exact State.fetchedLine_length h

theorem memBytes_length (m : Memory) (a n : Nat) : (memBytes m a n).length = n := by simp only [memBytes, List.length_map, List.length_range]

theorem State.locBytes_length (s : State) (ag : Agent) (l : Loc) (n : Nat) : (s.locBytes ag l n).length = n := by
  cases l with
  | virt ctx va =>
    refine (List.length_flatMap ..).trans (Eq.trans ?_ (piecesOf_sum va n))
    simp only [State.lineNow_length]
  | spad core a =>
    simp only [State.locBytes]
    split
    · exact List.length_replicate
    · exact memBytes_length _ _ _
  | acc core w =>
    simp only [State.locBytes]
    split
    · exact List.length_replicate
    · exact memBytes_length _ _ _

theorem State.locBytesAt_length (s : State) (ag : Agent) (l : Loc) (off n : Nat) : (s.locBytesAt ag l off n).length = n := by
  cases l with
  | acc core w =>
    simp only [State.locBytesAt]
    split
    · exact List.length_replicate
    · exact memBytes_length _ _ _
  | virt ctx va => exact s.locBytes_length ag (.virt ctx (va + off)) n
  | spad core a => exact s.locBytes_length ag (.spad core (a + off)) n

/-! ## What reading and jobs leave -/

/-- A state whose group has other jobs. -/
theorem State.withJobs_same (s : State) (l : List Job) (p : Aspect) (h : p ≠ .jobs) :
    s.same (s.onMe fun g => { g with work := { g.work with jobs := l } }) p := by
  have h' := s.same_refl p
  cases p with
  | jobs => exact absurd rfl h
  | regs => exact fun r => by cases r <;> rfl
  | _ => exact h'

theorem State.countLine_same (s : State) (ag : Agent) (ctx va : Nat) (f : Context → Context) (p : Aspect) (h : p ∉ .links :: notifyParts) :
    s.same (s.countLine ag ctx va f) p := by
  simp only [notifyParts, List.mem_cons, List.not_mem_nil, or_false, not_or] at h
  unfold State.countLine
  split
  · exact s.same_refl p
  · exact State.same_trans _ _ _ _ ((State.OnlyLinks.of_links s _).same p h.1) (State.onCtx_same _ _ _ p h.2.2.2.1)

theorem State.countRead_same (s : State) (ag : Agent) (ctx : Nat) (x : Nat × Nat) (p : Aspect) (h : p ∉ .links :: notifyParts) :
    s.same (s.countRead ag ctx x) p := by
  unfold State.countRead
  split
  · exact s.same_refl p
  · split
    · exact s.countLine_same _ _ _ _ p h
    · exact s.touch_same _ _ _ _ p fun hn => h (List.mem_cons_of_mem _ hn)

theorem State.countRange_same (s : State) (ag : Agent) (l : Loc) (n : Nat) (p : Aspect) (h : p ∉ .links :: notifyParts) :
    s.same (s.countRange ag l n) p := by
  cases l with
  | virt ctx va => exact State.foldl_same (fun t x => t.countRead_same ag ctx x p h) _ _
  | _ => exact s.same_refl p

theorem Group.job_num {g : Group} {num : Nat} {j : Job} (h : g.job num = some j) : j.num = num :=
  beq_iff_eq.1 (List.find?_some (p := fun j : Job => j.num == num) h)

theorem Group.job_onJob {g : Group} {num : Nat} {j : Job} (h : g.job num = some j) {f : Job → Job} (hf : ∀ j, (f j).num = j.num) :
    (g.onJob num f).job num = some (f j) := by
  refine (find?_map_congr (p := fun j : Job => j.num == num) (f := fun j => if j.num = num then f j else j) (fun x => ?_) _).trans ?_
  · split
    · exact congrArg (· == num) (hf x)
    · rfl
  · rw [show g.work.jobs.find? (fun j => j.num == num) = some j from h, Option.map_some, if_pos (Group.job_num h)]

/-! ## Starting a job (R182 to R187, R256) -/

theorem jobStartEnabled_of {s : State} {num : Nat} {j : Job} (h : s.jobStarts num j) : s.jobStartEnabled num = true := by
  obtain ⟨hj, hst, hmoves, hawaits, hafter, hpreds⟩ := h
  have hdone : s.me.predsDone j = true := by
    refine List.all_eq_true.2 fun p hp => List.all_eq_true.2 fun x hx => ?_
    simp only [Bool.or_eq_true, bne_iff_ne, beq_iff_eq]
    by_cases hxp : x.num = p
    · by_cases hxj : x.num = j.num
      · exact .inl (.inr hxj)
      · exact .inr (hpreds p hp x hx hxp fun e => hxj (e.trans (Group.job_num hj).symm))
    · exact .inl (.inl hxp)
  simp only [State.jobStartEnabled, hj, hst, hmoves, hawaits, hafter, hdone]
  rfl

theorem execJobStart_eq {s : State} {num : Nat} {j : Job} (h : s.jobStarts num j) : execJobStart num s =
    if ((s.jobReads j.kind).all fun r => (s.gather (s.jobAgent j) r.1 r.2).1) = true then
      .next (((s.jobReads j.kind).foldl (fun t r => t.countRange (s.jobAgent j) r.1 r.2) s).onMe
        (·.onJob num fun x => { x with st := .running, data := s.jobData j }))
    else .next ((s.jobReads j.kind).foldl (fun t r => (t.gather (s.jobAgent j) r.1 r.2).2) s) := by
  have hgo := jobStartEnabled_of h
  obtain ⟨hj, -⟩ := h
  unfold execJobStart
  simp only [hgo, hj, Bool.not_true, Bool.false_eq_true, if_false]
  cases (s.jobReads j.kind).all fun r => (s.gather (s.jobAgent j) r.1 r.2).1 <;> rfl

theorem jobStart_holds (num : Nat) (j : Job) (d : List Byte) : (jobStartClaim num j d).Holds (.jobStart num) := by
  rintro s ⟨hstarts, hready, rfl⟩
  refine ⟨_, (execJobStart_eq hstarts).trans (if_pos (List.all_eq_true.2 hready)), ⟨?_, ?_, ?_, rfl⟩, fun p hp => ?_⟩
  · obtain ⟨hj, hst, -⟩ := hstarts
    obtain ⟨hjobs, -⟩ : s.same ((jobStartClaim num j (s.jobData j)).does s) .jobs :=
      State.foldl_same (fun t (r : Loc × Nat) => t.countRange_same (s.jobAgent j) r.1 r.2 .jobs (by decide)) _ _
    exact Group.job_onJob (f := fun x => { x with st := .running, data := s.jobData j }) ((congrArg (List.find? _) hjobs).trans hj) fun _ => rfl
  · intro n src dst hkind
    simp only [State.jobData, hkind]
    exact s.locBytes_length _ _ _
  · intro ew rows cols src dst sp dp hkind
    simp only [State.jobData, hkind, List.length_flatMap, State.locBytesAt_length, List.map_const', List.length_range, List.sum_replicate, smul_eq_mul]
  · exact State.withJobs_same _ _ p (by simpa [jobStartClaim] using hp)

theorem jobAsk_holds (num : Nat) (j : Job) : (jobAskClaim num j).Holds (.jobStart num) := by
  rintro s ⟨hstarts, r, hr, hno⟩
  refine ⟨_, (execJobStart_eq hstarts).trans (if_neg fun hall => ?_), trivial, fun p _ => State.same_refl _ p⟩
  exact Bool.false_ne_true (hno.symm.trans (List.all_eq_true.1 hall r hr))

/-! ## Units of a copy (R187, R360) -/

theorem execCopyChunk_eq {s : State} {num : Nat} {j : Job} (hj : s.me.job num = some j) (hst : j.st = .running) (hmoves : s.jobMoves j = true)
    (hwrites : chunkWrites j ≠ []) : exec (.copyChunkComplete num) s =
      .next (((chunkWrites j).foldl (fun t p => t.jobWrite j true p.1 p.2) s).onMe (·.onJob num fun x => { x with prog := x.prog + chunkStep j })) := by
  have hgo : s.copyChunkEnabled num = true := by simp [State.copyChunkEnabled, hj, hst, hmoves, hwrites]
  show execCopyChunkComplete num s = _
  simp only [execCopyChunkComplete, hgo, hj, Bool.not_true, Bool.false_eq_true, if_false]

theorem unit_holds (num : Nat) (j : Job) : (unitClaim num j).Holds (.copyChunkComplete num) := by
  rintro s ⟨hj, hst, hmoves, hwrites⟩
  exact ⟨_, execCopyChunk_eq hj hst hmoves hwrites, rfl, fun p hp => State.withJobs_same _ _ p (by simpa [unitClaim] using hp)⟩

/-- The group in focus is the only placed one on its core. -/
theorem State.onCore_own {s : State} (hp : s.me.phase.isPlaced = true) (h : s.hasCore) (f : Group → Group) : s.onCore s.me.ident.core f = s.onMe f := by
  have hrest : s.rest.map (fun g => if g.ident.core == s.me.ident.core && g.phase.isPlaced then f g else g) = s.rest := by
    refine (List.map_congr_left fun g hg => ?_).trans (List.map_id _)
    by_cases hcore : g.ident.core = s.me.ident.core
    · rw [h g hg hcore, Bool.and_false, if_neg Bool.false_ne_true, id]
    · rw [beq_eq_false_iff_ne.2 hcore, Bool.false_and, if_neg Bool.false_ne_true, id]
  rw [State.onCore, State.mapGroups, hrest, hp, beq_self_eq_true]
  rfl

/-- R359: what the copy engine folds stands in the digests of contexts. -/
theorem State.foldSpad_ctxs (s : State) (g : Group) (a : Nat) (bs : List Byte) : ∃ c, s.foldSpad g a bs = { s with ctxs := c } := by
  unfold State.foldSpad
  generalize digWords a bs = l
  induction l generalizing s with
  | nil => exact ⟨s.ctxs, rfl⟩
  | cons x l ih =>
    rw [List.foldl_cons]
    split
    · obtain ⟨c, hc⟩ := ih (s.addDigest g.ident.ctx g.dix (digOf (2 ^ 63 + g.ident.index * 2 ^ 31 + bitsOf x.1 0 23 * 2 ^ 8 + x.2.1) x.2.2))
      exact ⟨c, hc⟩
    · exact ih s

theorem State.foldLoc_spad (s : State) (own core a : Nat) (bs : List Byte) : ∃ c, s.foldLoc own (.spad core a) bs = { s with ctxs := c } := by
  unfold State.foldLoc
  dsimp only
  split
  · exact ⟨s.ctxs, rfl⟩
  · split
    · exact s.foldSpad_ctxs _ _ _
    · exact ⟨s.ctxs, rfl⟩

/-- The group after a chunk of its own scratchpad has been written. -/
def Group.chunked (g : Group) (num m a : Nat) (bs : List Byte) : Group :=
  ((g.spadPut a bs).unmarkRange (.job num) (.spad g.ident.core a) bs.length).onJob num fun x => { x with prog := x.prog + m }

theorem Group.unmarkRange_pend (g : Group) (src : PendSrc) (l : Loc) (n : Nat) : ∃ q, g.unmarkRange src l n = { g with work := { g.work with pend := q } } := by
  unfold Group.unmarkRange
  split
  · exact ⟨_, rfl⟩
  · exact ⟨g.work.pend, rfl⟩

/-- Scratchpad, jobs and pending marks of the group may differ. -/
theorem State.chunked_same (s : State) (num m a : Nat) (bs : List Byte) (p : Aspect) (h : p ∉ [Aspect.spad, .jobs, .pend]) :
    s.same (s.onMe (·.chunked num m a bs)) p := by
  obtain ⟨q, hq⟩ := (s.me.spadPut a bs).unmarkRange_pend (.job num) (.spad s.me.ident.core a) bs.length
  rw [State.onMe, Group.chunked, hq]
  have h' := s.same_refl p
  cases p with
  | spad => simp at h
  | jobs => simp at h
  | pend => simp at h
  | regs => exact fun r => by cases r <;> rfl
  | _ => exact h'

theorem chunk_holds (num : Nat) (j : Job) (n a : Nat) (src : Loc) : (chunkClaim num j n a src).Holds (.copyChunkComplete num) := by
  rintro s ⟨hj, hst, hmoves, hprog, hlen, hkind, -, hplaced, hcore⟩
  generalize hm : min 4096 (n - j.prog) = m
  generalize hbs : (j.data.drop j.prog).take m = bs
  have hlenbs : bs.length = m := by
    rw [← hbs, List.length_take, List.length_drop, hlen]
    omega
  have hwrites : chunkWrites j = [(j.prog, bs)] := by
    simp only [chunkWrites, hkind, if_neg (Nat.not_le.2 hprog), hm, hbs]
  have hdst : j.kind.dst = .spad s.me.ident.core a := by rw [hkind]; rfl
  have hstep : chunkStep j = m := by simp only [chunkStep, hkind, hm]
  obtain ⟨c, hc⟩ := s.foldLoc_spad s.me.ident.core s.me.ident.core (a + j.prog) bs
  have hdoes : (chunkClaim num j n a src).does s = { s with ctxs := c } := by
    simp only [chunkClaim, hm, hbs, hc]
  have htakes : s.me.takes s.me.ident.core = true := by rw [Group.takes, beq_self_eq_true, Bool.or_true]
  have hx : exec (.copyChunkComplete num) s = .next (({ s with ctxs := c } : State).onMe (·.chunked num m (a + j.prog) bs)) := by
    rw [execCopyChunk_eq hj hst hmoves (by rw [hwrites]; exact List.cons_ne_nil _ _), hwrites, hstep]
    have hown := State.onCore_own (s := { s with ctxs := c }) hplaced hcore fun g => if g.takes s.me.ident.core then g.spadPut (a + j.prog) bs else g
    have hwrite : (({ s with ctxs := c } : State).locWriteAt (s.jobAgent j) s.me.ident.core (.spad s.me.ident.core a) j.prog bs) =
        ({ s with ctxs := c } : State).onMe fun g => if g.takes s.me.ident.core then g.spadPut (a + j.prog) bs else g := hown
    simp only [List.foldl_cons, List.foldl_nil, State.jobWrite, hdst, if_true, Loc.plus, hc, hwrite, destAt, Group.job_num hj, State.onMe, htakes]
    rfl
  refine ⟨_, hx, ⟨?_, fun x => ?_⟩, fun p hp => ?_⟩
  · rw [hm]
    obtain ⟨q, hq⟩ := (s.me.spadPut (a + j.prog) bs).unmarkRange_pend (.job num) (.spad s.me.ident.core (a + j.prog)) bs.length
    show (s.me.chunked num m (a + j.prog) bs).job num = _
    rw [Group.chunked, hq]
    exact Group.job_onJob (f := fun x => { x with prog := x.prog + m }) hj fun _ => rfl
  · rw [hdoes, hm]
    obtain ⟨q, hq⟩ := (s.me.spadPut (a + j.prog) bs).unmarkRange_pend (.job num) (.spad s.me.ident.core (a + j.prog)) bs.length
    show memGet (s.me.chunked num m (a + j.prog) bs).store.spad x = _
    rw [Group.chunked, hq]
    show memGet (memPut s.me.store.spad (a + j.prog) bs) x = if a + j.prog ≤ x ∧ x < a + j.prog + m then j.data.getD (x - a) 0 else memGet s.me.store.spad x
    rw [memGet_memPut, hlenbs]
    split
    · next hin =>
      rw [← hbs, List.getD_eq_getElem?_getD, List.getD_eq_getElem?_getD, List.getElem?_take_of_lt (by omega), List.getElem?_drop]
      congr 2
      omega
    · rfl
  · rw [hdoes]
    exact State.chunked_same _ _ _ _ _ p hp

/-! ## Completion (R182, R185, R195) -/

theorem jobCompleteEnabled_of {s : State} {num : Nat} {j : Job} (hj : s.me.job num = some j) (hst : j.st = .running) (hmoves : s.jobMoves j = true)
    (hwrites : chunkWrites j = []) (hmesh : s.me.meshFree j.kind = true)
    (hnext : (match s.hNext j with
       | some x => Chk.isOk (x.mapError fun _ => (0, 0))
       | none => !s.unperformed (s.jobAgent j)) = true) : s.jobCompleteEnabled num = true := by
  simp only [State.jobCompleteEnabled, hj, hst, hmoves, hwrites, hmesh]
  exact hnext

/-- R300: taking clusters down leaves the group in focus as it was, but for its phase. -/
theorem State.teardownAll_me (s : State) : ∃ p, s.teardownAll.me = { s.me with phase := p } := by
  have hone (t : State) (i : Ident) : ∃ p, (t.teardown i).me = { t.me with phase := p } := by
    unfold State.teardown
    dsimp only
    split
    · dsimp only
      split
      · exact ⟨.retired, rfl⟩
      · exact ⟨t.me.phase, rfl⟩
    · exact ⟨t.me.phase, rfl⟩
  unfold State.teardownAll
  generalize s.groups.filter (fun g => g.phase.isEnded) = l
  induction l generalizing s with
  | nil => exact ⟨s.me.phase, rfl⟩
  | cons g l ih =>
    obtain ⟨p, hp⟩ := hone s g.ident
    obtain ⟨q, hq⟩ := ih (s.teardown g.ident)
    exact ⟨q, by rw [List.foldl_cons, hq, hp]⟩

/-- R184: a finished job is complete in the list, or no more in it. -/
theorem Group.finishJob_complete (g : Group) (j : Job) : ∀ x ∈ (g.finishJob j).work.jobs, x.num = j.num → x.st = .complete := by
  have hlist : ∀ l : List Job, ∀ x ∈ l.map (fun x => if x.num = j.num then { x with st := .complete, data := [] } else x), x.num = j.num → x.st = .complete := by
    intro l
    refine List.forall_mem_map.2 fun x _ => ?_
    split
    · exact fun _ => rfl
    · next hne => exact fun h => absurd h hne
  intro x hx hnum
  unfold Group.finishJob at hx
  dsimp only at hx
  split at hx
  · exact hlist _ x hx hnum
  · exact hlist _ x (List.mem_of_mem_filter hx) hnum

theorem Group.finishJob_flags {g : Group} {j : Job} (h : j.fl = true) : (g.finishJob j).work.flags = (g.setFlag j.flag j.kind.setter).work.flags ∧
    (g.finishJob j).work.setters = (g.setFlag j.flag j.kind.setter).work.setters := by
  simp only [Group.finishJob, h, Bool.or_true, if_true]
  exact ⟨rfl, rfl⟩

theorem jobComplete_holds (num : Nat) (j : Job) : (jobCompleteClaim num j).Holds (.jobComplete num) := by
  rintro s ⟨hj, hst, hmoves, hflag, hwrites, hmesh, hnone, hperf⟩
  have hgo := jobCompleteEnabled_of hj hst hmoves hwrites hmesh (by rw [hnone, hperf]; rfl)
  have hx : exec (.jobComplete num) s = .next ((jobCompleteClaim num j).does s) := by
    show execJobComplete num s = _
    simp only [execJobComplete, hgo, hj, hnone, Bool.not_true, Bool.false_eq_true, if_false]
    rfl
  obtain ⟨p, hme⟩ : ∃ p, ((jobCompleteClaim num j).does s).me = { s.me.finishJob j with phase := p } := State.teardownAll_me _
  refine ⟨_, hx, ⟨fun x hmem hnum => ?_, fun hfl => ?_⟩, fun p _ => State.same_refl _ p⟩
  · rw [hme] at hmem
    exact s.me.finishJob_complete j x hmem (hnum.trans (Group.job_num hj).symm)
  · obtain ⟨hflags, hsetters⟩ := Group.finishJob_flags (g := s.me) hfl
    rw [hme]
    refine ⟨(congrArg (·.getLsbD j.flag) hflags).trans ((s.me.setFlag_flag (by omega) _ _).trans (by simp)), ?_⟩
    show (s.me.finishJob j).work.setters[j.flag]? = _
    rw [hsetters]
    simp [Group.setFlag, hflag]

theorem hElement_holds (num : Nat) (j : Job) (h : HWork) (x : HStep) : (hElementClaim num j h x).Holds (.jobComplete num) := by
  rintro s ⟨hj, hst, hmoves, hmesh, hnext⟩
  have hwrites : chunkWrites j = [] := by
    unfold State.hNext at hnext
    split at hnext
    · next hkind => rw [chunkWrites, hkind]
    · cases hnext
  have hgo := jobCompleteEnabled_of hj hst hmoves hwrites hmesh (by rw [hnext]; rfl)
  have hx : exec (.jobComplete num) s = .next (s.hTake j h x) := by
    show execJobComplete num s = _
    simp only [execJobComplete, hgo, hj, hnext, Bool.not_true, Bool.false_eq_true, if_false]
  refine ⟨_, hx, ⟨rfl, ?_⟩, fun p hp => State.withJobs_same _ _ p (by simpa [hElementClaim] using hp)⟩
  rw [← Group.job_num hj]
  rfl

/-! ## Faults of a routine (R193, R215) -/

theorem execRoutineFault_eq {s : State} {num : Nat} {j : Job} {f : JobFault} (h : s.routineFaults num j f) (hp : s.me.phase.takesFault = true) :
    exec (.routineFault num) s = .next (if s.me.phase.isEnded then (s.routineStopped num j f).teardownAll
      else (s.routineStopped num j f).takeTrap 0 0x0E 0 0 j.addr false) := by
  obtain ⟨hj, hst, hmoves, hmesh, hf⟩ := h
  have hgo : s.routineFaultEnabled num = true := by simp [State.routineFaultEnabled, hj, hst, hmoves, hmesh, hf, hp]
  show execRoutineFault num s = _
  simp only [execRoutineFault, hgo, hj, hf, Bool.not_true, Bool.false_eq_true, if_false]
  rw [apply_ite Host.Outcome.next]
  rfl

/-- A group whose job has been stopped, with a value in ROUTFLT. -/
def State.stoppedJob (s : State) (num : Nat) (ag : Agent) (v : BitVec 64) : State :=
  (s.onMe fun g => { (g.onJob num fun x => { x with st := .faulted }).unmark (.job num) with sys := { g.sys with routflt := v } }).dropLines ag

theorem State.stoppedJob_thbase (s : State) (num : Nat) (ag : Agent) (v : BitVec 64) : (s.stoppedJob num ag v).me.sys.thbase = s.me.sys.thbase := rfl

theorem State.routineStopped_eq (s : State) (num : Nat) (j : Job) (f : JobFault) : ∃ v, s.routineStopped num j f = s.stoppedJob num (s.jobAgent j) v :=
  ⟨_, rfl⟩

theorem State.routineStopped_trapped {s : State} {num : Nat} {j : Job} {f : JobFault} (hphase : s.me.phase = .running)
    (hbase : s.me.sys.thbase.getLsbD 0 = true) :
    (s.routineStopped num j f).Trapped ((s.routineStopped num j f).takeTrap 0 0x0E 0 0 j.addr false) 0 0x0E 0 0 j.addr := by
  obtain ⟨v, hv⟩ := s.routineStopped_eq num j f
  rw [hv]
  refine State.takeTrap_trapped ?_ ?_ _ _ _ _ _ _
  · rw [show (s.stoppedJob num (s.jobAgent j) v).me.phase = .running from hphase]
    decide
  · rw [s.stoppedJob_thbase]
    exact hbase

theorem routineFault_holds (num : Nat) (j : Job) (f : JobFault) : (routineFaultClaim num j f).Holds (.routineFault num) := by
  rintro s ⟨hfault, hphase, hbase⟩
  have hended : ¬ s.me.phase.isEnded = true := by rw [hphase]; exact Bool.false_ne_true
  have htrapped := State.routineStopped_trapped (num := num) (j := j) (f := f) hphase hbase
  have hx := execRoutineFault_eq hfault (by rw [hphase]; rfl)
  rw [if_neg hended] at hx
  exact ⟨_, hx, htrapped, htrapped.rest⟩

theorem routineLost_holds (num : Nat) (j : Job) (f : JobFault) : (routineLostClaim num j f).Holds (.routineFault num) := by
  rintro s ⟨hfault, hphase⟩
  have hp : s.me.phase.takesFault = true ∧ s.me.phase.isEnded = true := by
    obtain h | h := hphase
    all_goals
      rw [h]
      exact ⟨rfl, rfl⟩
  exact ⟨_, (execRoutineFault_eq hfault hp.1).trans (congrArg Host.Outcome.next (if_pos hp.2)), trivial, fun p _ => State.same_refl _ p⟩

/-! ## The element that an H job takes (R195) -/

theorem except_bind_ok {ε α β : Type} {x : Except ε α} {f : α → Except ε β} {b : β} (h : (x >>= f) = .ok b) : ∃ a, x = .ok a ∧ f a = .ok b := by
  cases x with
  | error e => cases h
  | ok a => exact ⟨a, rfl, h⟩

theorem stepGives (s : State) (j : Job) (h : HWork) (x : HStep) (hstep : s.hStep j h = .ok x) : s.StepGives j h x := by
  unfold State.hStep at hstep
  unfold State.StepGives
  dsimp only at hstep ⊢
  cases hform : h.form with
  | zip =>
    simp only [hform] at hstep ⊢
    obtain ⟨w, hw, ⟨⟩⟩ := except_bind_ok hstep
    exact ⟨w, hw, rfl⟩
  | outer =>
    simp only [hform] at hstep ⊢
    obtain ⟨w, hw, ⟨⟩⟩ := except_bind_ok hstep
    exact ⟨w, hw, rfl⟩
  | scan =>
    simp only [hform] at hstep ⊢
    intro horder
    rw [if_pos horder] at hstep
    obtain ⟨w, hw, ⟨⟩⟩ := except_bind_ok hstep
    exact ⟨w, hw, rfl⟩
  | fold =>
    simp only [hform] at hstep ⊢
    intro horder
    rw [if_pos horder] at hstep
    by_cases hn : h.n = 0
    · rw [if_pos hn] at hstep ⊢
      exact (Except.ok.inj hstep).symm
    · rw [if_neg hn] at hstep ⊢
      obtain ⟨w, hw, ⟨⟩⟩ := except_bind_ok hstep
      exact ⟨w, hw, rfl⟩

/-- Settles O53: event by event. -/
theorem engineAndJobEvents : Obligations.EngineAndJobEvents :=
  ⟨arrival_holds, interrupt_holds, debugStop_holds, debugResume_holds,
    fun n j => ⟨jobStart_holds n j, jobAsk_holds n j, unit_holds n j, jobComplete_holds n j, fun f => ⟨routineFault_holds n j f, routineLost_holds n j f⟩⟩,
    fun n j m a src => chunk_holds n j m a src, hElement_holds, fun s j h x _ => stepGives s j h x⟩

end Sys2Proof.Machine
end

section
-- One declaration after another: the whole text is checked in one process, of bounded memory.
set_option Elab.async false
/-! SUPPORT. A target's record of a firing whose packets are not all performed (09_engine_commands R201, 21_link R330). -/

namespace Sys2Proof.Machine

/-- A record of firing 0 of slot 0 whose time has come, with a packet that is not performed. -/
def unperformedRecord : FireRec :=
  { slot := 0, firing := 0, first := mkPacket 7 0 0 0, offsets := [0], bytes := 0, status := 1, reason := 0, core := none,
    parts := [⟨[1], [], []⟩], expiry := some 0 }

/-- A connected queue pair that keeps that record. -/
def recordingPair : QPair :=
  { num := 0, st := .connected, ctx := 0, port := 0xFF, rqp := 0, rmod := 0, eth := false, rctx := 0, dscp := 0, udpp := 0, ip := 0,
    losses := 0, applied := 0, completed := 0, recs := [unperformedRecord], psn := 0, rxPsn := 0, store := [], resends := 0, resentAt := 0,
    lastConnect := 0 }

/-- The module after reset with that pair. -/
def recordingModule : State := { State.reset with links := { State.reset.links with qps := [recordingPair] } }

/-- The records of pair 0 after a step. -/
def recordsAfter : Out → List FireRec
  | .next t => ((t.qp 0).map (·.recs)).getD []
  | _ => []

theorem recordingModule_keeps : recordsAfter (exec (.firingRecordExpiry 0 0 0) recordingModule) = [unperformedRecord] := by decide +kernel

/-- Refutes O54: FIRING_RECORD_EXPIRY keeps a record whose time has come while one of its packets is not performed. -/
theorem not_firingAndContextEvents : ¬ Obligations.FiringAndContextEvents := by
  unfold Obligations.FiringAndContextEvents
  rintro ⟨-, hexpiry, -⟩
  obtain ⟨t, ht, ⟨-, l, hqp, hl⟩, -⟩ := hexpiry 0 0 0 recordingPair recordingModule rfl
  have hqp' : t.qp 0 = some { recordingPair with recs := l } := hqp
  have hkeeps := recordingModule_keeps
  rw [ht, recordsAfter, hqp'] at hkeeps
  have hlist : l = [unperformedRecord] := hkeeps
  obtain ⟨-, hno⟩ := (hl unperformedRecord).1 (hlist ▸ List.mem_singleton_self _)
  exact hno ⟨rfl, rfl, 0, rfl, Nat.zero_le _⟩

end Sys2Proof.Machine
end

section
-- One declaration after another: the whole text is checked in one process, of bounded memory.
set_option Elab.async false
/-! SUPPORT. A flit with a bad CRC at a port number that two ports have (21_link R324). -/

namespace Sys2Proof.Machine

/-- A port with number 0 in a state. -/
def portZero (st : PortSt) : Port :=
  { num := 0, st := st, lanes := 8, txSeq := 0, rxSeq := 0, replay := [], partialFlits := [], replayed := 0, discarded := 0, packetsBad := 0,
    trainings := 0, trainTimes := [], since := 0, fencing := none, tries := 0, asking := false }

/-- The module after reset whose list of ports holds number 0 twice, UP and FENCED: the statement speaks of every state. -/
def twoPortModule : State := { State.reset with links := { State.reset.links with ports := [portZero .up, portZero .fenced] } }

/-- The replay requests of the ports after a step. -/
def askingAfter : Out → List Bool
  | .next t => t.links.ports.map (·.asking)
  | _ => []

theorem twoPortModule_asks : askingAfter (exec (.flitReceive 0 0 false ⟨0, none⟩ 0) twoPortModule) = [true, false] := by decide +kernel

theorem twoPortModule_asksAll : ((twoPortModule.onPort 0 fun x => { x with asking := true }).links.ports.map (·.asking)) = [true, true] := by
  decide +kernel

/-- Refutes O57: a flit with a bad CRC makes a port ask for a replay only while that port is UP or DEGRADED, and the model acts on every
port that has the number; the statement says that each of them asks, and does not suppose that the numbers of the ports differ. -/
theorem not_linkEvents : ¬ Obligations.LinkEvents := by
  unfold Obligations.LinkEvents
  rintro ⟨-, hflits, -⟩
  obtain ⟨-, -, -, -, hdrops⟩ := hflits 0 0 0 none 0 (portZero .up) (portZero .up)
  obtain ⟨t, ht, -, hsame⟩ := hdrops false _ List.mem_cons_self twoPortModule ⟨rfl, rfl, rfl⟩
  have hlinks : t.links = (twoPortModule.onPort 0 fun x => { x with asking := true }).links := hsame .links List.not_mem_nil
  have hasks := twoPortModule_asks
  rw [ht, askingAfter, hlinks, twoPortModule_asksAll] at hasks
  exact absurd hasks (by decide)

end Sys2Proof.Machine
end

section
-- One declaration after another: the whole text is checked in one process, of bounded memory.
set_option Elab.async false
/-! SUPPORT. The queue that is served, placement and the events of groups (14_queue R283 to R285, 15_kernel R289 to R298, 16_group R299
to R303, 20_barrier R316). -/

namespace Sys2Proof.Machine

/-! ## The queue that is served (R284) -/

theorem le_foldl_max {α : Type} (f : α → Nat) (l : List α) (n : Nat) :
    n ≤ l.foldl (fun m x => max m (f x)) n ∧ ∀ x ∈ l, f x ≤ l.foldl (fun m x => max m (f x)) n := by
  induction l generalizing n with
  | nil => exact ⟨le_rfl, fun _ h => absurd h List.not_mem_nil⟩
  | cons y l ih =>
    obtain ⟨hstart, hall⟩ := ih (max n (f y))
    refine ⟨(Nat.le_max_left _ _).trans hstart, fun x hx => ?_⟩
    rcases List.mem_cons.1 hx with rfl | hx
    · exact (Nat.le_max_right _ _).trans hstart
    · exact hall x hx

/-- What each queue would get now. -/
def State.served (s : State) : List (Nat × HQueue × Serve) :=
  s.fe.queues.filterMap fun q => (s.serveOf q.1 q.2).map fun w => (q.1, q.2, w)

theorem State.mem_served_iff (s : State) (x : Nat × HQueue × Serve) :
    x ∈ s.served ↔ (x.1, x.2.1) ∈ s.fe.queues ∧ s.serveOf x.1 x.2.1 = some x.2.2 := by
  obtain ⟨q, h, w⟩ := x
  simp only [State.served, List.mem_filterMap, Option.map_eq_some_iff, Prod.mk.injEq]
  constructor
  · rintro ⟨⟨_, _⟩, hmem, _, hserve, rfl, rfl, rfl⟩
    exact ⟨hmem, hserve⟩
  · exact fun ⟨hmem, hserve⟩ => ⟨(q, h), hmem, w, hserve, rfl, rfl, rfl⟩

/-- The queues of the highest priority among those that can be served. -/
def State.bestServed (s : State) : List (Nat × HQueue × Serve) :=
  s.served.filter fun x => s.queuePrio x.2.1 == s.served.foldl (fun n x => max n (s.queuePrio x.2.1)) 0

theorem State.pick_eq (s : State) :
    s.pick = match s.bestServed.find? fun x => decide (s.fe.round ≤ x.1) with
      | some x => some x
      | none => s.bestServed.head? := rfl

theorem State.pick_picked {s : State} {q : Nat} {h : HQueue} {w : Serve} (hp : s.pick = some (q, h, w)) : s.Picked q h w := by
  have hbest : (q, h, w) ∈ s.bestServed := by
    rw [State.pick_eq] at hp
    split at hp
    · next x hx => exact Option.some.inj hp ▸ List.mem_of_find?_eq_some hx
    · exact List.mem_of_head? hp
  obtain ⟨hmem, htop⟩ := List.mem_filter.1 hbest
  replace htop := eq_of_beq htop
  obtain ⟨hqueue, hserve⟩ := (s.mem_served_iff _).1 hmem
  have hserved (x : Nat × HQueue) (hx : x ∈ s.fe.queues) (hsome : (s.serveOf x.1 x.2).isSome = true) : ∃ v, (x.1, x.2, v) ∈ s.served := by
    obtain ⟨v, hv⟩ := Option.isSome_iff_exists.1 hsome
    exact ⟨v, (s.mem_served_iff _).2 ⟨hx, hv⟩⟩
  refine ⟨⟨hqueue, hserve⟩, fun x hx hsome => ?_, fun x hx hsome hprio hround => ?_⟩
  · obtain ⟨v, hv⟩ := hserved x hx hsome
    exact htop ▸ (le_foldl_max (fun x => s.queuePrio x.2.1) _ 0).2 _ hv
  · obtain ⟨v, hv⟩ := hserved x hx hsome
    have hin : (x.1, x.2, v) ∈ s.bestServed := List.mem_filter.2 ⟨hv, beq_iff_eq.2 (hprio.trans htop)⟩
    rw [State.pick_eq] at hp
    split at hp
    · next y hy =>
      have hy' := List.find?_some hy
      rw [Option.some.inj hp] at hy'
      exact of_decide_eq_true hy'
    · next hnone => exact absurd (decide_eq_true hround) (List.find?_eq_none.1 hnone _ hin)

theorem serviceClaim_holds (u : State) (q : Nat) (h : HQueue) (w : Serve) : (serviceClaim u q h w).Holds .serviceOpportunity := by
  rintro s ⟨htrip, rfl, hpick⟩
  refine ⟨_, show execServiceOpportunity s = _ by simp only [execServiceOpportunity, State.serves, htrip, hpick]; rfl, trivial,
    fun p _ => State.same_refl _ p⟩

theorem idleServiceClaim_holds : idleServiceClaim.Holds .serviceOpportunity := by
  rintro s ⟨htrip, hpick⟩
  refine ⟨_, show execServiceOpportunity s = _ by simp only [execServiceOpportunity, State.serves, htrip, hpick]; rfl, trivial,
    fun p _ => State.same_refl _ p⟩

/-! ## Placement (R289) -/

theorem triggerClaim_holds (n : Nat) (l : Launch) : (triggerClaim n l).Holds (.kernelTriggerMet n) := by
  rintro s ⟨hl, hst, hmet, k, hk, hready⟩
  have hgo : s.triggerMet n = true := by simp [State.triggerMet, hl, hst, hmet, hk, Context.ready, hready]
  refine ⟨s.onLaunch n fun l => { l with st := .placing }, if_pos hgo, rfl, fun p hp => ?_⟩
  have h' := s.same_refl p
  cases p with
  | frontEnd => exact absurd List.mem_cons_self hp
  | _ => exact h'

theorem State.placingEnabled_eq {s : State} {n k : Nat} {l : Launch} (hl : s.launch n = some l)
    (hg : ∃ g ∈ s.groups, g.isPlacing n k = true) (hawait : s.awaits (.launch n) = false) : s.placingEnabled n k = true := by
  simp only [State.placingEnabled, hl, hawait, List.any_eq_true.2 hg]
  rfl

theorem State.launch_id {s : State} {n : Nat} {l : Launch} (hl : s.launch n = some l) : l.id = n := eq_of_beq (List.find?_some hl :)

theorem execPlacementComplete_eq {s : State} {n k : Nat} {l : Launch} (hl : s.launch n = some l)
    (hg : ∃ g ∈ s.groups, g.isPlacing n k = true) (hawait : s.awaits (.launch n) = false) :
    exec (.placementComplete n k) s = .next (s.finishPlacing l k) := by
  show execPlacementComplete n k s = _
  simp only [execPlacementComplete, State.placingEnabled_eq hl hg hawait, hl]
  rfl

theorem placedClaim_holds (n k : Nat) (l : Launch) (x : Images) : (placedClaim n k l x).Holds (.placementComplete n k) := by
  rintro s ⟨hl, hg, hawait, himages⟩
  refine ⟨_, execPlacementComplete_eq hl hg hawait, trivial, fun p _ => ?_⟩
  simp only [State.finishPlacing, himages, State.launch_id hl]
  exact State.same_refl _ p

theorem imagesAskClaim_holds (n k : Nat) (l : Launch) (v : State) : (imagesAskClaim n k l v).Holds (.placementComplete n k) := by
  rintro s ⟨hl, hg, hawait, himages⟩
  refine ⟨_, execPlacementComplete_eq hl hg hawait, trivial, fun p _ => ?_⟩
  simp only [State.finishPlacing, himages]
  exact State.same_refl _ p

theorem foldl_setIfInBounds_getElem (f : Nat → BitVec 64) (n : Nat) (v : Vector (BitVec 64) 32) (i : Nat) (hi : i < 32) :
    ((List.range n).foldl (fun t k => t.setIfInBounds (4 + k) (f k)) v)[i] = if 4 ≤ i ∧ i < 4 + n then f (i - 4) else v[i] := by
  induction n with
  | zero => exact (if_neg (by omega)).symm
  | succ n ih =>
    rw [List.range_succ, List.foldl_append, List.foldl_cons, List.foldl_nil, Vector.getElem_setIfInBounds, ih]
    split
    · next h =>
      subst h
      rw [if_pos (by omega), Nat.add_sub_cancel_left]
    · split
      · rw [if_pos (by omega)]
      · rw [if_neg (by omega)]

/-- R289: the scalar registers of the argument convention, one by one. -/
theorem argRegs_getElem (l : Launch) (index : Nat) (args : List Byte) (v : Vector (BitVec 64) 32) (i : Nat) (hi : i < 32) :
    (argRegs l index args v)[i] = if i = 1 then BitVec.ofNat 64 l.args else if i = 2 then BitVec.ofNat 64 index
      else if i = 3 then BitVec.ofNat 64 l.g
      else if 4 ≤ i ∧ i < 4 + l.kd.argw then BitVec.ofNat 64 (recField args (8 * (i - 4)) 8) else v[i] := by
  unfold argRegs
  rw [foldl_setIfInBounds_getElem (fun i => BitVec.ofNat 64 (recField args (8 * i) 8))]
  simp only [Vector.getElem_set]
  by_cases h4 : 4 ≤ i
  · rw [if_neg (show ¬3 = i by omega), if_neg (show ¬2 = i by omega), if_neg (show ¬1 = i by omega), if_neg (show ¬i = 1 by omega),
      if_neg (show ¬i = 2 by omega), if_neg (show ¬i = 3 by omega)]
  · rw [if_neg (fun h => h4 h.1)]
    have : i = 0 ∨ i = 1 ∨ i = 2 ∨ i = 3 := by omega
    rcases this with rfl | rfl | rfl | rfl <;> rfl

/-- R63: an entry of the dictionary holds its word of the image where the word may stand there. -/
theorem assocGet_dictOf (image : List Byte) (e : Nat) :
    assocGet (dictOf image) e = if e < image.length / 4 ∧ loadable (recField image (4 * e) 4) = true then
      some (BitVec.ofNat 32 (recField image (4 * e) 4)) else none := by
  have hmap (l : List Nat) (f : Nat → BitVec 32) : assocGet (l.map fun k => (k, f k)) e = if e ∈ l then some (f e) else none := by
    induction l with
    | nil => rfl
    | cons k l ih =>
      rw [List.map_cons, assocGet, ih]
      by_cases hk : k = e
      · rw [if_pos hk, if_pos (hk ▸ List.mem_cons_self), hk]
      · rw [if_neg hk]
        simp only [List.mem_cons, show ¬e = k from fun h => hk h.symm, false_or]
  rw [dictOf, hmap _ fun e => BitVec.ofNat 32 (recField image (4 * e) 4)]
  simp only [List.mem_filter, List.mem_range]

theorem bindOf_eq (b : BitVec 8) : bindOf b = (if b.toNat / 2 ^ 7 % 2 = 1 then
    match engineOfTag (b.toNat / 2 ^ 3 % 2 ^ 3), engineOfTag (b.toNat % 2 ^ 3) with
    | some p, some e => some (p, e)
    | _, _ => none
  else none) := by
  have hbit : b.getLsbD 7 = true ↔ b.toNat / 2 ^ 7 % 2 = 1 := by
    rw [BitVec.getLsbD, Nat.testBit_eq_decide_div_mod_eq, decide_eq_true_iff]
  have hlow : bitsOf b.toNat 0 3 = b.toNat % 2 ^ 3 := by rw [bitsOf, pow_zero, Nat.div_one]
  exact if_congr hbit (by rw [hlow]; rfl) rfl

/-- R289, R290: a group that loads its images holds them. -/
theorem Group.load_loaded (g : Group) (l : Launch) (x : Images) : g.Loaded (g.load l x) l x := by
  refine ⟨List.ext_getElem (by simp) fun i hi hi' => ?_, fun a _ => ?_, ⟨fun a ha => ?_, rfl, rfl⟩, assocGet_dictOf x.dict, fun q => ?_⟩
  · rw [List.getElem_mapIdx, Vector.getElem_toList, Vector.getElem_toList]
    exact argRegs_getElem l g.ident.index x.args g.cr.s i (by simpa using hi)
  · show memGet (memPut g.store.spad 0 x.data) a = _
    rw [memGet_memPut]
    simp only [Nat.zero_le, true_and, Nat.zero_add, Nat.sub_zero]
  · show memGet (memPut [] 0 x.text) a = _
    rw [memGet_memPut, if_pos ⟨Nat.zero_le _, by omega⟩, Nat.sub_zero]
  · have hq : (g.load l x).queues[q] = { g.queues[q] with bind := bindOf (l.kd.qmap.getD q.val 0) } := Vector.getElem_mapIdx _
    rw [hq]
    exact ⟨rfl, bindOf_eq _⟩

/-! ## Groups (R285, R299 to R303) -/

theorem preemptClaim_holds : preemptClaim.Holds .preemption := by
  rintro s ⟨hyield, hphase, hcan, hstop⟩
  have hgo : s.preemptionEnabled = true := by simp only [State.preemptionEnabled, hyield, hphase, hcan, hstop]; rfl
  refine ⟨_, show execPreemption s = _ by simp only [execPreemption, hgo, hcan]; rfl, trivial, fun p _ => State.same_refl _ p⟩

theorem preemptOffClaim_holds : preemptOffClaim.Holds .preemption := by
  rintro s ⟨hyield, hphase, hcannot⟩
  have hgo : s.preemptionEnabled = true := by simp only [State.preemptionEnabled, hyield, hphase, hcannot]; rfl
  refine ⟨_, show execPreemption s = _ by simp only [execPreemption, hgo, hcannot]; rfl, trivial, fun p _ => State.same_refl _ p⟩

/-- R299, R300: a group that completes is DONE, or RETIRED with its cluster, and keeps its status. -/
theorem State.endGroup_teardown (s : State) (st : Status) (abandon : Bool) (i : Ident) :
    (((s.endGroup .done st abandon).teardown i).me.phase = .done ∨ ((s.endGroup .done st abandon).teardown i).me.phase = .retired) ∧
      ((s.endGroup .done st abandon).teardown i).me.status = st := by
  obtain ⟨hphase, hstatus⟩ := s.endGroup_phase .done st abandon
  rcases State.teardown_me (s.endGroup .done st abandon) i with hme | hme
  · rw [hme]
    exact ⟨.inl hphase, hstatus⟩
  · rw [hme]
    exact ⟨.inr rfl, hstatus⟩

theorem hangClaim_holds (n : Nat) : (hangClaim n).Holds .hangDetected := by
  rintro s ⟨hphase, hlimit, htime⟩
  have hgo : s.hangEnabled = true := by
    simp only [State.hangEnabled, hlimit, Option.any_some, decide_eq_true htime, Bool.and_true]
    rcases hphase with h | h <;> rw [h] <;> rfl
  exact ⟨_, show execHangDetected s = _ by simp only [execHangDetected, hgo]; rfl, State.endGroup_teardown .., fun p _ => State.same_refl _ p⟩

theorem State.countNotify_eq (s : State) :
    s.countNotify = (allEngines.filterMap fun e => (s.eng e).notify).eraseDups.foldl (fun t p => t.addCtr p.2 1 4) s := rfl

theorem combinerClaim_does (s : State) :
    combinerClaim.does s = (s.writeBufout.countNotify.endGroup .done .ok false).teardown s.me.ident := by
  rw [State.countNotify_eq]
  dsimp only [combinerClaim]

theorem combinerClaim_holds : combinerClaim.Holds .combinerCompletion := by
  rintro s ⟨hphase, hstopped, hwaits⟩
  have hgo : s.combinerEnabled = true := by
    simp only [State.combinerEnabled, hphase, hwaits, List.all_eq_true.2 fun e _ => hstopped e]
    rfl
  refine ⟨(s.writeBufout.countNotify.endGroup .done .ok false).teardown s.me.ident,
    show execCombinerCompletion s = _ by simp only [execCombinerCompletion, hgo]; rfl, State.endGroup_teardown .., fun p _ => ?_⟩
  rw [combinerClaim_does]
  exact State.same_refl _ p

/-! ## The calendar (R296) and barrier releases (R316) -/

theorem State.event_withFe (s : State) (y : FrontEnd) (cls ctx code data : Nat) :
    ({ s with fe := y } : State).event cls ctx code data = { s.event cls ctx code data with fe := y } := by
  simp only [State.event, apply_ite (fun t : State => { t with fe := y })]
  rfl

theorem State.event_fe (s : State) (cls ctx code data : Nat) : (s.event cls ctx code data).fe = s.fe := by
  obtain ⟨m, h⟩ := s.event_hostOnly cls ctx code data
  rw [h]

theorem State.reservationDue_eq {s : State} {k t : Nat} {e : CalEntry} {es : List CalEntry} (htime : t ≤ s.time.now + 50000)
    (hes : s.instanceOf k t = e :: es) (hawait : s.awaits (.text e.ctx) = false) : s.reservationDue k t = true := by
  simp only [State.reservationDue, hes, List.head?_cons, Option.any_some, hawait, decide_eq_true htime]
  rfl

theorem calendarDropClaim_holds (k t : BitVec 64) (e : CalEntry) (es : List CalEntry) (r : List Byte) (st : Status) :
    (calendarDropClaim k t e es r st).Holds (.calendarReservation k t) := by
  rintro s ⟨htime, hes, hawait, hfetch, hbad⟩
  have hx : exec (.calendarReservation k t) s = .next (({ s.dropLines (.text e.ctx) with
      fe := { s.fe with calendar := s.fe.calendar.filter fun x => !(e :: es).contains x } } : State).event 7 e.ctx st.code 0) := by
    show execCalendarReservation k t s = _
    simp only [execCalendarReservation, State.reservationDue_eq htime hes hawait, hes, List.head?_cons, Option.map_some, Option.getD_some, hfetch]
    erw [hbad]
    rfl
  rw [State.event_withFe] at hx
  refine ⟨_, hx, ?_, fun p hp => ?_⟩
  · show _ = ({ (State.event _ 7 e.ctx st.code 0).fe with calendar := (State.event _ 7 e.ctx st.code 0).fe.calendar.filter _ } : FrontEnd)
    rw [State.event_fe]
    rfl
  · have h' := ((s.dropLines (.text e.ctx)).event 7 e.ctx st.code 0).same_refl p
    cases p with
    | frontEnd => exact absurd List.mem_cons_self hp
    | _ => exact h'

theorem calendarClaim_holds (k t : BitVec 64) (e : CalEntry) (es : List CalEntry) (r : List Byte) (u : State) (l : Launch) :
    (calendarClaim k t e es r u l).Holds (.calendarReservation k t) := by
  rintro s ⟨htime, hes, hawait, hfetch, hgood⟩
  refine ⟨placeCalendars 128 (u.addLaunch l), ?_, trivial, fun p _ => State.same_refl _ p⟩
  show execCalendarReservation k t s = _
  simp only [execCalendarReservation, State.reservationDue_eq htime hes hawait, hes, List.head?_cons, Option.map_some, Option.getD_some, hfetch]
  erw [hgood]
  rfl

theorem calendarStartClaim_holds (k t : BitVec 64) (l : Launch) : (calendarStartClaim k t l).Holds (.calendarStart k t) := by
  rintro s ⟨hl, htime⟩
  have htick : l.tick = some t.toNat := by
    have h := List.find?_some hl
    simp only [Bool.and_eq_true, beq_iff_eq] at h
    exact h.1.1
  refine ⟨_, show execCalendarStart k t s = _ by
    simp only [execCalendarStart, hl, htick, Option.all_some, decide_eq_true htime]; rfl, trivial, fun p _ => State.same_refl _ p⟩

theorem releaseTickClaim_holds (ctx : BitVec 8) (n : BitVec 12) (b : Barrier) (x : Episode) :
    (releaseTickClaim ctx n b x).Holds (.barrierReleaseTick ctx n) := by
  rintro s ⟨hb, -, hdue⟩
  refine ⟨_, show execBarrierReleaseTick ctx n s = _ by simp only [execBarrierReleaseTick, hb, hdue]; rfl, trivial, fun p _ => State.same_refl _ p⟩

/-- Settles O56: the queue that is picked is one of the highest priority, from the round pointer on; a group that loads its images holds
them one by one; each event does what R283 to R303 give. -/
theorem launchAndGroupEvents : Obligations.LaunchAndGroupEvents := by
  unfold Obligations.LaunchAndGroupEvents
  exact ⟨fun _ _ _ _ => State.pick_picked, serviceClaim_holds, idleServiceClaim_holds, triggerClaim_holds,
    fun n k l => ⟨placedClaim_holds n k l, imagesAskClaim_holds n k l⟩, fun g l x _ => g.load_loaded l x, preemptClaim_holds,
    preemptOffClaim_holds, hangClaim_holds, combinerClaim_holds,
    fun k t => ⟨fun e es r => ⟨calendarDropClaim_holds k t e es r, calendarClaim_holds k t e es r⟩, calendarStartClaim_holds k t⟩,
    releaseTickClaim_holds⟩

end Sys2Proof.Machine
end

section
-- One declaration after another: the whole text is checked in one process, of bounded memory.
set_option Elab.async false
/-! SUPPORT. How queue entries are served and complete (14_queue R276 to R286). -/

namespace Sys2Proof.Machine

/-! ## DONE (R277) -/

/-- R277: while DONE moves on, only entries that it passes go. -/
theorem passDone_keeps (n : Nat) (h : HQueue) :
    passDone n h = { h with entries := (passDone n h).entries, done := (passDone n h).done } ∧ h.done ≤ (passDone n h).done ∧
      ∀ e ∈ (passDone n h).entries, e ∈ h.entries := by
  induction n generalizing h with
  | zero => exact ⟨rfl, le_rfl, fun _ he => he⟩
  | succ n ih =>
    rw [passDone]
    split
    · obtain ⟨heq, hdone, hmem⟩ := ih { h with entries := h.entries.filter (fun e => e.index != h.done), done := h.done + 1 }
      exact ⟨heq, (Nat.le_succ _).trans hdone, fun e he => List.mem_of_mem_filter (hmem e he)⟩
    · exact ⟨rfl, le_rfl, fun _ he => he⟩

/-- R277: DONE stops at an entry that is not complete. -/
theorem passDone_stops (n : Nat) (h : HQueue) (hn : h.entries.length ≤ n) :
    ∀ e ∈ (passDone n h).entries, e.index = (passDone n h).done → e.st = .started := by
  induction n generalizing h with
  | zero =>
    intro e he
    rw [passDone, List.eq_nil_of_length_eq_zero (Nat.le_zero.1 hn)] at he
    exact absurd he List.not_mem_nil
  | succ n ih =>
    rw [passDone]
    split
    · next hany =>
      obtain ⟨e, he, hpass⟩ := List.any_eq_true.1 hany
      have hindex : ¬(e.index != h.done) = true := by simpa using (Bool.and_eq_true_iff.1 hpass).1
      refine ih _ ?_
      have hlt : (h.entries.filter fun e => e.index != h.done).length < h.entries.length := List.length_filter_lt_length_iff_exists.2 ⟨e, he, hindex⟩
      show (h.entries.filter fun e => e.index != h.done).length ≤ n
      omega
    · next hno =>
      intro e he hi
      by_contra hst
      exact hno (List.any_eq_true.2 ⟨e, he, by simpa [hi] using hst⟩)

/-! ## Completion -/

/-- Module memory is as it was, and of the queues at most WAIT entries have had their condition met. -/
def State.QueuesStand (s t : State) : Prop :=
  t.mem.hbm = s.mem.hbm ∧ ∃ g : QEntry → QEntry, (∀ e, (g e).index = e.index ∧ (g e).st = e.st) ∧
    ∀ n, t.hq n = (s.hq n).map fun h => { h with entries := h.entries.map g }

theorem State.QueuesStand.refl (s : State) : s.QueuesStand s :=
  ⟨rfl, id, fun _ => ⟨rfl, rfl⟩, fun n => by cases s.hq n <;> simp⟩

theorem assocGet_map_snd {α : Type} (l : List (Nat × α)) (f : α → α) (k : Nat) : assocGet (l.map fun p => (p.1, f p.2)) k = (assocGet l k).map f := by
  induction l with
  | nil => rfl
  | cons p l ih =>
    rw [List.map_cons, assocGet, assocGet, ih]
    split <;> rfl

theorem State.evalTriggers_queuesStand (s : State) (n : Nat) : s.QueuesStand (s.evalTriggers n) := by
  refine ⟨rfl, QEntry.trigger n (s.ctr n), fun e => ?_, fun m =>
    assocGet_map_snd s.fe.queues (fun h => { h with entries := h.entries.map (QEntry.trigger n (s.ctr n)) }) m⟩
  unfold QEntry.trigger
  split <;> exact ⟨rfl, rfl⟩

theorem State.addCtr_queuesStand (s : State) (n : Nat) (v : BitVec 64) (k : Nat) : s.QueuesStand (s.addCtr n v k) :=
  State.evalTriggers_queuesStand _ n

theorem State.event_queuesStand {s t : State} (h : s.QueuesStand t) (cls ctx code data : Nat) : s.QueuesStand (t.event cls ctx code data) := by
  obtain ⟨m, hm⟩ := t.event_hostOnly cls ctx code data
  rw [hm]
  exact h

/-- What the completion of an entry changes besides the entry: the counter of CCTR, and the event of HEV. -/
def State.entryTold (s : State) (x : EHead) (h : HQueue) (i : Nat) (st : Status) : State :=
  let t := if x.cnt && st == Status.ok then s.addCtr x.cctr 1 5 else s
  if x.hev then t.event 3 h.ctx st.code (s.boot.modnum * 2 ^ 42 + h.slotAt i) else t

theorem State.entryTold_queuesStand (s : State) (x : EHead) (h : HQueue) (i : Nat) (st : Status) : s.QueuesStand (s.entryTold x h i st) := by
  have hcount : s.QueuesStand (if x.cnt && st == Status.ok then s.addCtr x.cctr 1 5 else s) := by
    split
    · exact s.addCtr_queuesStand _ _ _
    · exact .refl s
  unfold State.entryTold
  dsimp only
  split
  · exact State.event_queuesStand hcount _ _ _ _
  · exact hcount

/-- An entry that is complete with a status. -/
def HQueue.completed (h : HQueue) (i : Nat) (st : Status) : HQueue :=
  { h with
    entries := h.entries.map fun e => if e.index = i then { e with st := .complete st } else e
    bad := if st = .ok then h.bad else i :: h.bad }

theorem HQueue.completed_entry {h : HQueue} {i : Nat} {st : Status} {e : QEntry} (he : e ∈ (h.completed i st).entries) (hi : e.index = i) :
    e.st = .complete st := by
  obtain ⟨a, -, rfl⟩ := List.mem_map.1 he
  split at hi
  · next ha => rw [if_pos ha]
  · next ha => exact absurd hi ha

theorem State.completeEntry_eq {s : State} {q i : Nat} {h : HQueue} {st : Status} (hq : s.hq q = some h) :
    s.completeEntry q i st = (((s.hbmPutVal (h.slotAt i + 2) 1 st.code).entryTold (eHead (s.entryBytes h i)) h i st).onHq q
      (·.completed i st)).advanceDone q := by
  simp only [State.completeEntry, hq]
  rfl

theorem State.advanceDone_eq {s : State} {q : Nat} {h : HQueue} (hq : s.hq q = some h) :
    s.advanceDone q = (s.hbmPutVal (paLocal h.ring + 16) 8 (passDone h.entries.length h).done).onHq q fun _ => passDone h.entries.length h := by
  simp only [State.advanceDone, hq]

theorem State.hbmPutVal_hbm (s : State) (la n v : Nat) : (s.hbmPutVal la n v).mem.hbm = memPutVal s.mem.hbm la n v := rfl

theorem State.completeEntry_ended {s : State} {q : Nat} {h : HQueue} (n : Nat) (st : Status) (hq : s.hq q = some h) :
    s.EntryEnded (s.completeEntry q n st) q n h st := by
  rw [State.completeEntry_eq hq]
  generalize hs1 : s.hbmPutVal (h.slotAt n + 2) 1 st.code = s1
  obtain ⟨hhbm, g, hg, hqs⟩ := s1.entryTold_queuesStand (eHead (s.entryBytes h n)) h n st
  generalize s1.entryTold (eHead (s.entryBytes h n)) h n st = s3 at hhbm hqs
  have hhq (m : Nat) : s3.hq m = (s.hq m).map fun h => { h with entries := h.entries.map g } := by
    rw [hqs, ← hs1]
    rfl
  have hq3 : (s3.onHq q (·.completed n st)).hq q = some (HQueue.completed { h with entries := h.entries.map g } n st) :=
    State.onHq_hq_some (by rw [hhq, hq]; rfl) _
  rw [State.advanceDone_eq hq3]
  generalize hu : HQueue.completed { h with entries := h.entries.map g } n st = u
  have hring : u.ring = h.ring := hu ▸ rfl
  obtain ⟨heq, hdone, hmem⟩ := passDone_keeps u.entries.length u
  have hstop := passDone_stops u.entries.length u le_rfl
  generalize passDone u.entries.length u = v at heq hdone hmem hstop
  have hv : (((s3.onHq q (·.completed n st)).hbmPutVal (paLocal u.ring + 16) 8 v.done).onHq q fun _ => v).hq q = some v :=
    State.onHq_hq_some (h := u) (hu ▸ hq3) _
  have hmemory : (((s3.onHq q (·.completed n st)).hbmPutVal (paLocal u.ring + 16) 8 v.done).onHq q fun _ => v).mem.hbm =
      memPutVal (memPutVal s.mem.hbm (h.slotAt n + 2) 1 st.code) (paLocal h.ring + 16) 8 v.done := by
    rw [← hring, ← State.hbmPutVal_hbm, hs1, ← hhbm]
    rfl
  refine ⟨?_, ⟨v, hv, ?_, (show h.done = u.done from hu ▸ rfl) ▸ hdone, fun e he hi => ?_, hstop, fun hst => ?_, ?_⟩, ?_⟩
  · rw [hmemory]
    have hslot : memBytes (memPutVal (memPutVal s.mem.hbm (h.slotAt n + 2) 1 st.code) (paLocal h.ring + 16) 8 v.done) (h.slotAt n + 2) 1 =
        memBytes (memPutVal s.mem.hbm (h.slotAt n + 2) 1 st.code) (h.slotAt n + 2) 1 :=
      memBytes_put_other _ _ _ _ _ (.inr (by rw [leBytes_length, HQueue.slotAt]; omega))
    show memVal _ (h.slotAt n + 2) 1 = _
    rw [memVal, hslot, ← memVal, memVal_putVal]
    cases st <;> rfl
  · rw [hmemory, memVal_putVal]
  · have he' := hmem e he
    rw [← hu] at he'
    exact HQueue.completed_entry he' hi
  · have hbad : v.bad = u.bad := by rw [heq]
    rw [hbad, ← hu]
    show n ∈ if st = .ok then h.bad else n :: h.bad
    rw [if_neg hst]
    exact List.mem_cons_self
  · have hhead : v.head = u.head := by rw [heq]
    rw [hhead, ← hu]
    rfl
  · intro m hm x hx
    refine ⟨{ x with entries := x.entries.map g }, ?_, rfl, rfl, rfl⟩
    rw [State.onHq_otherHq _ _ _ m hm]
    exact (State.onHq_otherHq _ _ _ m hm).trans (by rw [hhq, hx]; rfl)

theorem waitHoldsClaim_holds (q : BitVec 10) (n : Nat) (h : HQueue) (e : QEntry) :
    (waitHoldsClaim q n h e).Holds (.waitConditionHolds q n) := by
  rintro s ⟨hq, he, hmet⟩
  have hgo : s.waitMet q.toNat n = true := by simp only [State.waitMet, hq, Option.bind_some, he, Option.any_some, hmet]
  exact ⟨_, show execWaitConditionHolds q n s = _ by rw [execWaitConditionHolds, if_pos hgo]; rfl, trivial, fun p _ => State.same_refl _ p⟩

theorem State.endEntry_eq (s : State) (q i : Nat) (st : Status) :
    s.endEntry q i st = if st = .ok ∨ st = .cancelled then s.completeEntry q i st else (s.completeEntry q i st).sendToken q i := by
  cases st <;> rfl

theorem entryDoneClaim_holds (q : BitVec 10) (n : Nat) (l : Launch) (st : Status) : (entryDoneClaim q n l st).Holds (.entryCompletion q n) := by
  rintro s ⟨hl, hst⟩
  refine ⟨((entryDoneClaim q n l st).does s).dropLaunches, ?_, ⟨rfl, fun x hx => List.mem_of_mem_filter hx, fun x hx hdone => ?_⟩, fun p hp => ?_⟩
  · show execEntryCompletion q n s = _
    simp only [execEntryCompletion, hl, hst, State.endEntry_eq]
    rfl
  · refine List.mem_filter.2 ⟨hx, ?_⟩
    simp only [bne_iff_ne.2 hdone, Bool.true_or]
  · exact State.onFe_same _ _ p fun h => hp (h ▸ List.mem_cons_self)

/-! ## LAUNCH -/

theorem execLaunch_eq {s : State} {q : BitVec 10} {x : Next} (hx : s.noteOverrun.nextEntry q.toNat = some x) (htyp : (eHead x.r).typ = 1)
    (hdep : x.dep ≠ .waits) : exec (.launch q) s = .next (s.noteOverrun.startLaunch q.toNat x) := by
  have hgo : s.noteOverrun.launchEnabled q.toNat = some x :=
    Option.filter_eq_some_iff.2 ⟨hx, by simp [Next.canStart, Next.isLaunch, hdep, htyp]⟩
  show execLaunch q s = _
  simp only [execLaunch, hgo]

/-- The state of a launch that has started, with what its entry notes. -/
def State.launched (v : State) (q : Nat) (h : HQueue) (l : Launch) : State :=
  ((v.takeEntry q none).addLaunch l).onHq q fun h' =>
    { h' with entries := h'.entries.map fun e => if e.index = h.head then { e with launch := some l.id } else e }

theorem State.takeEntry_eq {v : State} {q : Nat} {h : HQueue} (hq : v.hq q = some h) (wait : Option (Nat × BitVec 64)) :
    v.takeEntry q wait = (v.hbmPutVal (paLocal h.ring + 8) 8 (h.head + 1)).onHq q fun h =>
      { h with head := h.head + 1, entries := h.entries ++ [⟨h.head, .started, none, wait, false⟩] } := by
  simp only [State.takeEntry, hq]

theorem State.addLaunch_hq (s : State) (l : Launch) (n : Nat) : (s.addLaunch l).hq n = s.hq n := rfl

theorem State.launched_taken {v : State} {q : Nat} {h : HQueue} (hq : v.hq q = some h) (hnew : ∀ e ∈ h.entries, e.index ≠ h.head) (l : Launch) :
    v.taken (v.launched q h l) q h ⟨h.head, .started, some l.id, none, false⟩ := by
  rw [State.launched, State.takeEntry_eq hq]
  generalize hw : v.hbmPutVal (paLocal h.ring + 8) 8 (h.head + 1) = w
  have hwq : w.hq q = some h := hw ▸ hq
  refine ⟨?_, ?_, fun m hm => ?_⟩
  · refine (State.onHq_hq_some ((State.addLaunch_hq _ l q).trans (State.onHq_hq_some hwq _)) _).trans (congrArg some ?_)
    have hold : h.entries.map (fun e => if e.index = h.head then { e with launch := some l.id } else e) = h.entries :=
      (List.map_congr_left fun e he => if_neg (hnew e he)).trans (List.map_id' _)
    simp only [List.map_append, hold, List.map_cons, List.map_nil, if_true]
  · subst hw
    exact memVal_putVal _ _ _ _
  · refine (State.onHq_otherHq _ _ _ m hm).trans ((State.addLaunch_hq _ l m).trans ((State.onHq_otherHq w _ _ m hm).trans ?_))
    exact hw ▸ rfl

theorem State.launched_same (v : State) (q : Nat) {h : HQueue} (hq : v.hq q = some h) (l : Launch) (p : Aspect) (hp : p ∉ [Aspect.frontEnd, .hbm]) :
    v.same (v.launched q h l) p := by
  simp only [List.mem_cons, List.not_mem_nil, or_false, not_or] at hp
  rw [State.launched, State.takeEntry_eq hq]
  exact State.same_trans _ _ _ _ (v.hbmPut_same _ _ p hp.2) (State.onFe_same _ _ p hp.1)

theorem launchClaim_holds (q : BitVec 10) (x : Next) (u : State) (r : List Byte) : (launchClaim q x u r).Holds (.launch q) := by
  rintro s ⟨hx, htyp, hdep, hok, hregion, hfetch, halign, hkd, hq, hnew⟩
  have hhq : (u.dropLines (.queue q.toNat)).hq q.toNat = some x.h := hq
  refine ⟨(u.dropLines (.queue q.toNat)).launched q.toNat x.h ((u.dropLines (.queue q.toNat)).newLaunch x.h.ctx (some q.toNat) x.h.head
    (recField x.r 36 2) (recField x.r 24 8) (recField x.r 32 4) (kdescOf r)), ?_, ⟨State.launched_taken hhq hnew _, ?_⟩,
    State.launched_same _ _ hhq _⟩
  · rw [execLaunch_eq hx htyp (by rw [hdep]; decide)]
    simp only [State.startLaunch, hdep, hok, hregion, hfetch, halign, hkd]
    rfl
  · rw [State.launched, State.takeEntry_eq hhq]
    refine ⟨rfl, _, rfl, rfl, rfl, rfl, rfl, rfl, rfl, rfl, rfl, rfl, rfl, rfl, ?_, ?_⟩
    · show (if (kdescOf r).trig.isSome = true then LaunchSt.trigger else .placing) = _
      cases (kdescOf r).trig <;> rfl
    · show ((kdescOf r).trig.any fun n => decide ((kdescOf r).tthresh ≤ _)) = true ↔ _
      simp only [Option.any_eq_true, decide_eq_true_iff]
      rfl

theorem launchEnds_hold (q : BitVec 10) (x : Next) (u v : State) (r : List Byte) : ∀ c ∈ launchEnds q x u v r, c.Holds (.launch q) := by
  simp only [launchEnds, List.forall_mem_cons, List.not_mem_nil, false_implies, implies_true, and_true]
  refine ⟨?_, ?_, ?_, ?_⟩
  · rintro s ⟨hx, htyp, hw, hdep, rfl⟩
    refine ⟨_, execLaunch_eq hx htyp hw, trivial, fun p _ => ?_⟩
    rw [State.startLaunch, if_pos hdep]
    exact State.same_refl _ p
  · rintro s ⟨hx, htyp, hw, hdep, hok, rfl⟩
    refine ⟨_, execLaunch_eq hx htyp hw, trivial, fun p _ => ?_⟩
    simp only [State.startLaunch, hdep, hok]
    exact State.same_refl _ p
  · rintro s ⟨hx, htyp, hw, hdep, hok, rfl, hregion⟩
    refine ⟨_, execLaunch_eq hx htyp hw, trivial, fun p _ => ?_⟩
    simp only [State.startLaunch, hdep, hok, hregion]
    exact State.same_refl _ p
  · rintro s ⟨hx, htyp, hw, hdep, hok, hregion, hfetch, hbad⟩
    refine ⟨_, execLaunch_eq hx htyp hw, trivial, fun p _ => ?_⟩
    have hbad' : recField x.r 16 8 % 64 ≠ 0 ∨ (!(v.dropLines (.queue q.toNat)).kdescOk x.h.ctx x.c r (recField x.r 32 4) (recField x.r 24 8)) = true :=
      hbad.imp_right fun h => by rw [h]; rfl
    simp only [State.startLaunch, hdep, hok, hregion, hfetch, if_pos hbad']
    exact State.same_refl _ p

/-! ## The other entries -/

theorem serveType_eq {typ : Nat} {s : State} {q : BitVec 10} {h : HQueue} {x : Next} (hn : s.servedNext typ q h x) :
    serveType typ q s = .next (((s.serving q).startEntry q.toNat x).afterServe q.toNat) := by
  obtain ⟨htrip, hpick, htyp⟩ := hn
  simp only [serveType, State.serves, htrip, hpick, htyp, and_self, if_true]
  rfl

/-- The rows that serve an entry are STEP, WAIT, SIGNAL and HOSTNOTE. -/
theorem entryRow (i : Instr) : (∃ q, i = .step q ∨ i = .wait q ∨ i = .signalEntry q ∨ i = .hostnote q) ∨
    (entryTypes i = none ∧ ∀ h x, entryClaims h x i = []) := by
  cases i with
  | step q => exact .inl ⟨q, .inl rfl⟩
  | wait q => exact .inl ⟨q, .inr (.inl rfl)⟩
  | signalEntry q => exact .inl ⟨q, .inr (.inr (.inl rfl))⟩
  | hostnote q => exact .inl ⟨q, .inr (.inr (.inr rfl))⟩
  | _ => exact .inr ⟨rfl, fun _ _ => rfl⟩

theorem exec_entryTypes {i : Instr} {typ : Nat} {q : BitVec 10} (hi : entryTypes i = some (typ, q)) (s : State) : exec i s = serveType typ q s := by
  rcases entryRow i with ⟨q', rfl | rfl | rfl | rfl⟩ | ⟨hnone, -⟩
  · cases hi; rfl
  · cases hi; rfl
  · cases hi; rfl
  · cases hi; rfl
  · rw [hnone] at hi; cases hi

theorem State.startEntry_ready {s : State} {q : Nat} {x : Next} (hdep : x.dep = .met) (hok : entryOk x.c x.r = true) :
    s.startEntry q x = match (eHead x.r).typ with
      | 2 => s.startStep q x
      | 3 => s.startWait q x
      | 4 => s.startSignal q x
      | _ => s.startNote q x :=
  (if_neg (by rw [hdep]; decide)).trans (if_neg (by rw [hok]; decide))

/-- An entry that may start does what its type's start does. -/
theorem entryClaim_holds {i : Instr} {typ : Nat} {q : BitVec 10} {h : HQueue} {x : Next} {pre : State → Prop} {act : State → State}
    (hi : entryTypes i = some (typ, q))
    (hact : ∀ s : State, pre s → (eHead x.r).typ = typ → x.dep = .met → entryOk x.c x.r = true → s.startEntry q.toNat x = act s) :
    (entryClaim typ q h x pre act).Holds i := by
  rintro s ⟨hn, hdep, hok, hpre⟩
  refine ⟨_, (exec_entryTypes hi s).trans (serveType_eq hn), trivial, fun p _ => ?_⟩
  rw [hact _ hpre hn.2.2 hdep hok]
  exact State.same_refl _ p

theorem ctrField_eq (n : Nat) : ctrField n = if n / 2 ^ 15 % 2 = 1 then none else some (n % 2 ^ 12) := by
  simp only [ctrField, bitsOf, pow_zero, Nat.div_one, pow_one]

theorem waitEntryClaims_hold (h : HQueue) (x : Next) (q : BitVec 10) : ∀ c ∈ entryClaims h x (.wait q), c.Holds (.wait q) := by
  have hbits : bitsOf (recField x.r 16 2) 0 12 = recField x.r 16 2 % 2 ^ 12 := by rw [bitsOf, pow_zero, Nat.div_one]
  refine List.forall_mem_cons.2 ⟨entryClaim_holds rfl fun s hpre htyp hdep hok => ?_,
    List.forall_mem_cons.2 ⟨entryClaim_holds rfl fun s hpre htyp hdep hok => ?_, fun _ hc => absurd hc List.not_mem_nil⟩⟩
  · rw [State.startEntry_ready hdep hok, htyp]
    simp only [State.startWait, hbits, if_pos hpre]
  · rw [State.startEntry_ready hdep hok, htyp]
    simp only [State.startWait, hbits, if_neg hpre]

theorem signalEntryClaims_hold (h : HQueue) (x : Next) (q : BitVec 10) : ∀ c ∈ entryClaims h x (.signalEntry q), c.Holds (.signalEntry q) := by
  refine List.forall_mem_cons.2 ⟨entryClaim_holds rfl fun s hpre htyp hdep hok => ?_,
    List.forall_mem_cons.2 ⟨entryClaim_holds rfl fun s hpre htyp hdep hok => ?_, fun _ hc => absurd hc List.not_mem_nil⟩⟩
  · rw [State.startEntry_ready hdep hok, htyp]
    simp only [State.startSignal, ctrField_eq, if_neg hpre]
  · rw [State.startEntry_ready hdep hok, htyp]
    simp only [State.startSignal, ctrField_eq, if_pos hpre]

theorem hostnoteClaims_hold (h : HQueue) (x : Next) (q : BitVec 10) : ∀ c ∈ entryClaims h x (.hostnote q), c.Holds (.hostnote q) := by
  refine List.forall_mem_cons.2 ⟨entryClaim_holds rfl fun s hpre htyp hdep hok => ?_, fun _ hc => absurd hc List.not_mem_nil⟩
  rw [State.startEntry_ready hdep hok, htyp]
  rfl

theorem entryClaims_hold (h : HQueue) (x : Next) (i : Instr) : ∀ c ∈ entryClaims h x i, c.Holds i := by
  rcases entryRow i with ⟨q, rfl | rfl | rfl | rfl⟩ | ⟨-, hnone⟩
  · exact fun _ hc => absurd hc List.not_mem_nil
  · exact waitEntryClaims_hold h x q
  · exact signalEntryClaims_hold h x q
  · exact hostnoteClaims_hold h x q
  · rw [hnone]
    exact fun _ hc => absurd hc List.not_mem_nil

theorem entryEndClaims_hold {i : Instr} {typ : Nat} {q : BitVec 10} (hi : entryTypes i = some (typ, q)) (h : HQueue) (x : Next) :
    ∀ c ∈ entryEndClaims typ q h x, c.Holds i := by
  simp only [entryEndClaims, List.forall_mem_cons, List.not_mem_nil, false_implies, implies_true, and_true]
  refine ⟨?_, ?_⟩
  · rintro s ⟨hn, hdep⟩
    refine ⟨_, (exec_entryTypes hi s).trans (serveType_eq hn), trivial, fun p _ => ?_⟩
    rw [State.startEntry, if_pos hdep]
    exact State.same_refl _ p
  · rintro s ⟨hn, hdep, hok⟩
    refine ⟨_, (exec_entryTypes hi s).trans (serveType_eq hn), trivial, fun p _ => ?_⟩
    simp only [State.startEntry, hdep, hok]
    exact State.same_refl _ p

theorem stepClaim_holds (q : BitVec 10) (h : HQueue) (x : Next) (r : List Byte) (v : State) (ok : Bool) : (stepClaim q h x r v ok).Holds (.step q) := by
  rintro s ⟨hn, hdep, hok, hfetch, hr, hpost⟩
  refine ⟨_, (exec_entryTypes rfl s).trans (serveType_eq hn), trivial, fun p _ => ?_⟩
  rw [State.startEntry_ready hdep hok, hn.2.2]
  simp only [State.startStep, hfetch, List.isEmpty_eq_false_iff.2 hr, hpost]
  exact State.same_refl _ p

theorem stepUnmappedClaim_holds (q : BitVec 10) (h : HQueue) (x : Next) : (stepUnmappedClaim q h x).Holds (.step q) :=
  entryClaim_holds rfl fun s hpre htyp hdep hok => by
    rw [State.startEntry_ready hdep hok, htyp]
    simp only [State.startStep, hpre, List.isEmpty_nil, if_true]

theorem State.coreWork_ne_entry (s : State) (q : Nat) (h : HQueue) (x : Next) : s.coreWork q h ≠ some (.entry x) := by
  unfold State.coreWork
  split
  · split
    · intro heq
      obtain ⟨_, -, hserve⟩ := Option.map_eq_some_iff.1 heq
      cases hserve
    · exact nofun
  · split
    · exact nofun
    · split
      · exact nofun
      · split
        · split <;> exact nofun
        · split <;> exact nofun

/-- R276: a STEP whose LIST lines have still to come is not served. -/
theorem State.serveOf_listMissing {s : State} {q : Nat} {h : HQueue} {x : Next} (hm : s.listMissing q x = true) : s.serveOf q h ≠ some (.entry x) := by
  unfold State.serveOf
  split
  · next w hw => exact fun heq => s.coreWork_ne_entry q h x (Option.some.inj heq ▸ hw)
  · intro heq
    obtain ⟨y, hy, hxy⟩ := Option.map_eq_some_iff.1 heq
    cases hxy
    have hcan := (Option.filter_eq_some_iff.1 hy).2
    rw [hm, Bool.not_true, Bool.and_false] at hcan
    exact absurd hcan Bool.false_ne_true

/-- Settles O55: a LAUNCH starts or completes with its status, every other entry does what its TYPE gives, and an entry that completes has
its STATUS byte, its counter and DONE. -/
theorem entryEvents : Obligations.EntryEvents := by
  unfold Obligations.EntryEvents
  exact ⟨fun q x u r => ⟨launchClaim_holds q x u r, fun v => launchEnds_hold q x u v r⟩,
    fun h x i => ⟨entryClaims_hold h x i, fun _ _ hi => entryEndClaims_hold hi h x⟩,
    fun q h x => ⟨stepClaim_holds q h x, stepUnmappedClaim_holds q h x, fun _ => State.serveOf_listMissing⟩,
    fun q n => ⟨waitHoldsClaim_holds q n, entryDoneClaim_holds q n⟩, fun _ _ n _ st hq => State.completeEntry_ended n st hq⟩

end Sys2Proof.Machine
end
